-- ==== Sys2Proof/Word.lean ====
section
/-! DEFINITION. The word types of the EQ-1628 model and the type of its sparse tables. -/

namespace Sys2Proof

/-- One byte. -/
abbrev Byte := BitVec 8

/-- One 32-bit CSR word (R5, R442). -/
abbrev Word := BitVec 32

/-- One granule: 64 bytes, little-endian, byte `i` at bits `[8i+7:8i]` (R145). -/
abbrev Granule := BitVec 512

/-- A time stamp: ticks of the tide counter, 0.625 ns each (R4, R340). -/
abbrev Tide := BitVec 64

/-- A sparse table from unit numbers or addresses to values.  Its canonical form (strictly rising
keys, no entry equal to what an unlisted key reads as) is `Tbl.wf` in `Sys2Proof/Machine/Table.lean`. -/
abbrev Tbl (α : Type) := List (Nat × α)

end Sys2Proof
end

