-- ==== Sys2Proof/Syntax.lean ====
section
/-! DEFINITION. The commands of the EQ-1628: one constructor of `Instr` for every row of the
opcode table, with the row's operands, and the types those operands have.
What the pier cannot know by itself (a flit on its balls, a sensor reading, a test result, the
verdict of an off-chip check) is an operand; what the pier holds is state. -/

namespace Sys2Proof

/-- The two sides (glossary). -/
inductive Side where
  | west | east
  deriving DecidableEq, Repr

/-- The three access paths of R444.  SMBus shares the I3C path (R312, R447). -/
inductive Path where
  | inBand | i3c | jtag
  deriving DecidableEq, Repr

/-- How a register write reaches the pier: as an access of a path, or as a transfer on the management bus, to a 7-bit address
with these bytes after it (R444, R445). -/
inductive RegWrite where
  | access (p : Path) (offset : BitVec 24) (value : Word)
  | transfer (smbus : Bool) (addr : BitVec 7) (bytes : List Byte)
  deriving DecidableEq, Repr

/-- The seven rails in the order of R380. -/
inductive Rail where
  | aon | io | core | lane | laneA | vpp | stack
  deriving DecidableEq, Repr

/-- The PLLs that breakwater watches (R336). -/
inductive Pll where
  | root | west | east
  deriving DecidableEq, Repr

/-- A lane: W00 to W15 are 0 to 15, E00 to E15 are 16 to 31 (R328). -/
abbrev LaneId := Fin 32
/-- A berth, its channel and its column (R242). -/
abbrev ChId := Fin 64
/-- A switched domain (R369). -/
abbrev DomId := Fin 48

/-- A flit (R142, R143): the typed header, the eight reserved header bits gathered in `rsv`
(bits 6, 7, 31, 47, 117, 118 and 119, in that order, and bit 7 of `rsv` always 0), four granules, the CRC field. -/
structure Flit where
  kind : BitVec 4
  vl : Bool := false
  csr : Bool := false
  rsv : BitVec 8 := 0
  opcode : BitVec 8 := 0
  dest : BitVec 15 := 0
  src : BitVec 15 := 0
  tag : BitVec 16 := 0
  flow : BitVec 16 := 0
  offset : BitVec 37 := 0
  gvalid : BitVec 4 := 0
  poison : BitVec 4 := 0
  status : BitVec 8 := 0
  length : BitVec 16 := 0
  attr : BitVec 8 := 0
  arg : BitVec 32 := 0
  g0 : Granule := 0
  g1 : Granule := 0
  g2 : Granule := 0
  g3 : Granule := 0
  crc : BitVec 64 := 0
  deriving DecidableEq, Repr

/-- What the segment FEC reports of the codewords that carried a flit (R78): per lane of the side
the corrected symbols, and whether the codeword was uncorrectable. -/
structure Codeword where
  corrected : List (Fin 16 × Nat)
  uncorrectable : Bool
  deriving DecidableEq, Repr

/-- A 258-bit block as a lane receives it (R87): its 2-bit header, the first bit at bit 0, and bytes 0 to 31. -/
structure LaneBlock where
  header : BitVec 2
  payload : List Byte
  deriving DecidableEq, Repr

/-- What a lane's receiver sees of one slot that may be muted (R131): the largest sample, of either sign, in the first
16 UI after the codeword-pair boundary, in 1/100 of R57's level unit; how many UI of the slot had signal above the
loss-of-signal level; and the echo return loss enhancement measured since, in 0.5 dB (R86). -/
structure SlotObs where
  peak : Nat
  signalUi : Nat
  erle : BitVec 8
  deriving DecidableEq, Repr

/-- A HELLO message (R112, R113): the sender's physical lane number and the body. -/
structure Hello where
  lane : BitVec 4
  kind : BitVec 8 := 1
  grades : BitVec 4 := 1
  spread : BitVec 8 := 0
  preset : BitVec 8 := 3
  maxWidth : BitVec 8 := 16
  deriving DecidableEq, Repr

/-- The body of a CAP message (R113): `shares` and `credits` hold the eight entries. -/
structure Cap where
  bmin : Nat
  umax : Nat
  hops : Nat
  spread : BitVec 8
  sideDown : Bool
  shares : List Nat
  credits : List Nat
  deriving DecidableEq, Repr

/-- The body of a COMMIT message (R113). -/
structure Commit where
  blink : Nat
  spread : BitVec 8
  ucap : Nat
  shares : List Nat
  credits : List Nat
  total : Nat
  deriving DecidableEq, Repr

/-- A reference to an accepted manifest: its receipt ring and its sequence (R317, R319). -/
structure ManRef where
  ring : Fin 64
  seq : BitVec 32
  deriving DecidableEq, Repr

/-- The parameters of KEY_LOAD (R315). -/
structure KeyLoadParams where
  kind : BitVec 8
  slot : BitVec 8
  op : BitVec 8
  wrapped : BitVec 8
  priv : BitVec 8
  srcLo : BitVec 16
  srcHi : BitVec 16
  material : List Byte
  deriving DecidableEq, Repr

/-- The image of one region entry: its registers +0x00 to +0x14 (R193, R326). -/
structure RegionImage where
  baseLo : Word
  baseHi : Word
  limLo : Word
  limHi : Word
  src : Word
  perm : Word
  deriving DecidableEq, Repr

/-- The charter descriptor of R194. -/
structure CharterDesc where
  cls : BitVec 8
  flags : BitVec 8
  run : BitVec 8
  window : BitVec 8
  bw : BitVec 16
  gpc : BitVec 16
  flowLo : BitVec 16
  flowHi : BitVec 16
  srcLo : BitVec 16
  srcHi : BitVec 16
  berths : BitVec 64
  rank : BitVec 8
  rsv : BitVec 56 := 0
  deriving DecidableEq, Repr

/-- The parameters of DUMP_CONFIG (R329). -/
structure DumpParams where
  mode : BitVec 8
  period : BitVec 32
  ringAddr : BitVec 64
  ringBytes : BitVec 32
  mask : BitVec 96
  deriving DecidableEq, Repr

/-- One failure found by a march in a DRAM bank (R402, R424). -/
structure BankFail where
  ch : Fin 64
  bank : Fin 32
  row : BitVec 15
  col : BitVec 5
  sym : Nat
  bit : BitVec 3
  deriving DecidableEq, Repr

/-- The TSV lines whose opens a survey counts in each gap (R271). -/
inductive TsvLine where
  | vddStack | vppStack | vss | srst | drst (die : Fin 16) | dman
  deriving DecidableEq, Repr

/-- What a survey measures (R402, R403, R404): the inputs from which marking and repair follow.  `bankFails` are the failures
of the marches and of the retention pass, `remarch` those that the re-march of repaired elements still meets (R412). -/
structure SurveyFindings where
  svOk : Bool := true
  laneFail : BitVec 32 := 0
  domFail : BitVec 48 := 0
  bankFails : List BankFail := []
  bankOverflow : List (Nat × Bool) := []
  remarch : List BankFail := []
  spareRows : List (Nat × Nat) := []
  spareCols : List (Nat × Nat) := []
  sramFails : List (Nat × Nat × Nat) := []
  sramBad : List Nat := []
  coilFails : List (Nat × Nat) := []
  caCoilFails : List (Nat × Nat) := []
  tsvOpens : List (Fin 16 × TsvLine × Nat) := []
  calPass : BitVec 64 := BitVec.allOnes 64
  clkLost : BitVec 64 := 0
  flight : List (Nat × Nat) := []
  runMs : Nat := 0
  deriving DecidableEq, Repr

/-- The measurements of one watch round (R380): the 96 converter channels (`none` is a conversion
that did not complete within 8 µs), sensors whose count is at its limit, and the reference
measurements of the two sides (R73, R86). -/
structure Readings where
  ch : List (Option Int) := []
  atLimit : List Nat := []
  refPpmW : BitVec 16 := 0
  refPpmE : BitVec 16 := 0
  refSpreadW : BitVec 5 := 0
  refSpreadE : BitVec 5 := 0
  deriving DecidableEq, Repr

/-- What the front end sees of one granule's codeword at the end of a read: XOR values on its
symbols.  `cell` damage is in the stored copy and stays there (R289); coil damage is not. -/
structure Damage where
  granule : Nat
  symbol : Nat
  value : Byte
  cell : Bool
  deriving DecidableEq, Repr

/-- Every command of the EQ-1628, in the order of the opcode table. -/
inductive Instr where
  -- pins, rails and resets
  | porstNLow
  | porstNRise (strap : BitVec 4) (bts : BitVec 3) (board : List Byte)
  | aonPowerOnReset
  | wrstNFall
  | wrstNRise (strap : BitVec 4) (bts : BitVec 3) (board : List Byte)
  | pwrReqNLow
  | freezeNFall
  | trstNLow
  | railUv (r : Rail)
  | railRecovery (r : Rail)
  -- clocks and breakwater
  | referencePresent (sd : Side)
  | xtalFail (aonDead hkDead : Bool)
  | rootLost (aonDead hkDead : Bool)
  | lanePllFail (sd : Side) (refLost : Bool)
  | rcFail
  | relockAttempt (p : Pll)
  | relockSuccess (p : Pll) (calPass lost : BitVec 64) (flight : List (Nat × Nat))
  | relockAttemptFail (p : Pll)
  -- arrival
  | bootDone (dir0 dir1 : List Byte) (imgA imgB : List Byte) (root : BitVec 384)
  | arrivalPllLock
  | chartReadDone
  | arrivalSurveyDone (f : SurveyFindings)
  | channelFillDone (ch : ChId)
  | linkRetry (sd : Side)
  | powerGood (d : DomId)
  | domainPowerFail (d : DomId)
  | drainDone (d : DomId)
  -- lanes: hunt, lock, train
  | huntBurst (ln : LaneId)
  | huntTimeout (ln : LaneId)
  | blockLock (ln : LaneId) (grade : Fin 4) (blocks : List LaneBlock)
  | blockLockLoss (ln : LaneId) (headers : List (BitVec 2 × Bool))
  | polarityTimeout (ln : LaneId)
  | huntAnswerTimer (ln : LaneId)
  | hello (ln : LaneId) (seq : BitVec 8) (roleA : Bool) (grade : Fin 4) (msg : Hello)
  | lockWindowEnd (ln : LaneId) (own : Bool) (ui signalUi : Nat) (erle : BitVec 8)
  | lockTimeout (ln : LaneId)
  | window (sd : Side) (lane : Option (Fin 16)) (seq : BitVec 8) (what : BitVec 8) (units : BitVec 16)
  | windowAbandon (sd : Side)
  | ecDrift (ln : LaneId) (erle : BitVec 8)
  | tapReq (ln : LaneId) (seq : BitVec 8) (tap act : BitVec 8)
  | tapRsp (ln : LaneId) (seq : BitVec 8) (status : BitVec 8)
  | tapReqTimeout (ln : LaneId)
  | tapDone (ln : LaneId) (seq : BitVec 8) (pass : Bool) (fom : BitVec 8)
  | trainTimeout (ln : LaneId)
  | cap (sd : Side) (seq : BitVec 8) (c : Cap)
  | commit (sd : Side) (seq : BitVec 8) (c : Commit)
  | start (sd : Side) (own : Bool) (skew : List (Fin 16 × Nat))
  | move (sd : Side) (seq : BitVec 8) (grade : Fin 4)
  | reform (sd : Side) (seq : BitVec 8) (mask : BitVec 16) (countdown : BitVec 8)
  | reformSwitch (sd : Side) (own : Bool) (cut : Option (Flit × List (Fin 9)))
  | prbs (ln : LaneId) (seq : BitVec 8) (pattern : BitVec 8) (ms : BitVec 16)
  | lanePrbsEnd (ln : LaneId) (bits errors : BitVec 48)
  | fillRow (sd : Side) (rows : Nat) (blks : List (Fin 16 × List Byte)) (slot : List SlotObs) (between : List Flit)
  | los (ln : LaneId) (mv : Nat)
  | lol (ln : LaneId) (phaseErr : Nat) (ppm : Int)
  | degradeCheck (ln : LaneId) (corrected bits uncorrectable : Nat)
  | degradedClear (ln : LaneId)
  | degradedTimeout (ln : LaneId)
  -- fairway
  | flitArrive (sd : Side) (f : Flit) (gone : List (Fin 9)) (parityErr : Bool) (cws : List Codeword) (cycles : Nat)
  | flitSend (sd : Side)
  -- quay requests
  | read (sd : Side) (f : Flit)
  | write (sd : Side) (f : Flit)
  | writeBytes (sd : Side) (f : Flit)
  | atomic (sd : Side) (f : Flit)
  | reduce (sd : Side) (f : Flit)
  | gather (sd : Side) (f : Flit)
  | scatter (sd : Side) (f : Flit)
  | fill (sd : Side) (f : Flit)
  | find (sd : Side) (f : Flit)
  | copyLocal (sd : Side) (f : Flit)
  | copyRemote (sd : Side) (f : Flit)
  | fence (sd : Side) (f : Flit)
  | credit (sd : Side) (f : Flit)
  | remoteCompletion (sd : Side) (f : Flit)
  | creditReturn (sd : Side) (src : BitVec 15)
  | creditStall (sd : Side)
  | remoteWriteTimeout (tag : BitVec 16)
  | commitGate (req : Nat) (badPart : Option Nat)
  | beWithdraw (req : Nat)
  | charterWithdraw (req : Nat)
  | fillHoldTimeout (req : Nat)
  -- berths and channels
  | partArrive (req part : Nat)
  | commandIssue (ch : ChId) (dmg : List Damage) (faultyCa : Option (Fin 13)) (parityErr : Bool)
  | partDone (req part : Nat) (dmg : List Damage) (parityErr : Bool)
  | refreshTick (ch : ChId) (faultyCa : Option (Fin 13))
  | refreshPullIn (ch : ChId) (faultyCa : Option (Fin 13))
  | refpbPass (ch : ChId) (completes : Bool)
  | srIdleTimer (ch : ChId)
  | srEntryDone (ch : ChId)
  | srExitDone (ch : ChId) (lost : BitVec 64) (edge : List (Nat × Nat))
  -- stack
  | caAlert (ch : ChId) (back : Nat) (coils : List (BitVec 4))
  | returnClockLost (lost : BitVec 64) (edge : List (Nat × Nat))
  | drstRelease
  | dieResetCalDone (pass : BitVec 4) (flight : List (Nat × Nat))
  | srstRelease
  | stackColumnTestDone (pass : BitVec 64) (flight : List (Nat × Nat))
  | memRstRelease (calPass lost : BitVec 64) (flight : List (Nat × Nat))
  | scrubDone (dmg : List Damage)
  -- heat
  | watchRound (r : Readings)
  | analogueTrip (sensor : Fin 56)
  | tripRecordDone (full : Bool)
  -- charters
  | shortfallPassDone
  | restorePass
  | charterCloseDone (idx : BitVec 12)
  -- calibration and survey
  | calibrationDone (cls : Fin 3) (unit : Fin 64) (pass : Bool) (flight : Nat)
  | calRetry (cls : Fin 3) (unit : Fin 64) (pass : Bool) (flight : Nat)
  | surveyRunDone (f : SurveyFindings)
  -- tallies
  | snapshotStrobe
  | snapshotDone
  | bwWindowEnd
  -- manifest transport
  | manifestFragment (sd : Side) (f : Flit)
  | reassemblyTimeout (sd : Side) (src : BitVec 15) (tag : BitVec 16)
  | mfMboxDoor (p : Path) (value : Word)
  | manifestTimeout (m : ManRef)
  -- manifest opcodes
  | pierInfo (m : ManRef)
  | setPierId (m : ManRef) (id : BitVec 16)
  | routeSet (m : ManRef) (first : Fin 256) (entries : List Word)
  | regionSet (m : ManRef) (first : Fin 64) (entries : List RegionImage)
  | keyLoad (m : ManRef) (k : KeyLoadParams)
  | charterOpen (m : ManRef) (d : CharterDesc)
  | charterClose (m : ManRef) (idx : BitVec 16)
  | charterQuery (m : ManRef) (idx : BitVec 16)
  | scrubRange (m : ManRef) (start len : BitVec 64) (flags : BitVec 32)
  | fillStatus (m : ManRef)
  | surveyRun (m : ManRef) (scope mode : BitVec 8) (mask : BitVec 64)
  | calRun (m : ManRef) (cls : BitVec 8) (mask : BitVec 64)
  | calStatus (m : ManRef) (cls unit : BitVec 8)
  | laneStatus (m : ManRef) (side : BitVec 8)
  | laneRetrain (m : ManRef) (side mode : BitVec 8) (mask : BitVec 16)
  | lanePrbs (m : ManRef) (side lane pattern : BitVec 8) (ms : BitVec 16)
  | clockSwitch (m : ManRef) (dom src : BitVec 8) (oldDead : Bool)
  | sscSet (m : ManRef) (side depth rate flags : BitVec 8)
  | powerDomain (m : ManRef) (dom action : BitVec 8)
  | thermStatus (m : ManRef)
  | sensorReplace (m : ManRef) (sensor action floor : BitVec 8)
  | tallyConfig (m : ManRef) (block counter : BitVec 8) (sel : BitVec 16)
  | dumpConfig (m : ManRef) (d : DumpParams)
  | logRead (m : ManRef) (area : BitVec 8) (count : BitVec 16) (first : BitVec 32)
  | tripAck (m : ManRef) (tide : BitVec 64)
  | stackDieReset (m : ManRef) (die : BitVec 8)
  | stackReset (m : ManRef)
  | shutdown (m : ManRef) (noSurvey : Bool)
  | recover (m : ManRef) (action : BitVec 8)
  | fwUpdateBegin (m : ManRef) (total : BitVec 32)
  | fwUpdateData (m : ManRef) (offset : BitVec 32) (bytes : List Byte)
  | fwUpdateCommit (m : ManRef) (root : BitVec 384)
  | fwUpdateAbort (m : ManRef)
  | fwSessionTimeout
  -- departure
  | quiesceDone
  | departureSurveyDone (f : SurveyFindings)
  | chartWriteDone
  | departureReady
  -- scan, freeze and JTAG
  | scanEnter (testMode : Bool)
  | zeroizeDone (pass : Bool)
  | frzCapture (index : BitVec 16)
  | csrAcc (dr : BitVec 57)
  -- register accesses
  | rcRead (p : Path) (offset : BitVec 24) (events : Word)
  | captureLoRead (p : Path) (offset : BitVec 24)
  | rcptWindowRead (p : Path)
  | csrWrite (w : RegWrite)
  | txFfeWrite (p : Path) (ln : LaneId) (value : Word)
  | laneEnableWrite (p : Path) (ln : LaneId) (value : Word)
  | prbsTxEn (p : Path) (ln : LaneId) (value : Word)
  | prbsRxEn (p : Path) (ln : LaneId) (value : Word)
  | lnCntClr (p : Path) (ln : LaneId)
  | lnPrbsClr (p : Path) (ln : LaneId)
  | fwCntClr (p : Path)
  | qyCntClr (p : Path)
  | tableLock (p : Path)
  | mfLock (p : Path) (value : Word)
  | beTagsWrite (p : Path) (value : Word)
  | chCntClr (p : Path)
  | btCntClr (p : Path) (ch : ChId)
  | dcCntClr (p : Path)
  | stCntClr (p : Path)
  | fenceClr (p : Path)
  | prCntClr (p : Path)
  | errClr (p : Path)
  | prErrRdWrite (p : Path) (value : Word)
  | ksLoad (p : Path) (value : Word)
  | ksErase (p : Path) (value : Word)
  | ksZeroize (p : Path)
  | memRst (p : Path)
  | reseed (p : Path)
  | logClr (p : Path)
  | tlCntClr (p : Path)
  | snap (p : Path)
  | tlEvselWrite (p : Path) (block : Fin 69) (j : Fin 4) (value : Word)
  -- events added at the end of the table
  | lanePllLock (sd : Side)
  | crystalRestartDone (ok : Bool)
  | flashOperationDone
  | fomMeasureDone (ln : LaneId) (fom : Nat) (ctle : BitVec 4) (ffe : List (BitVec 8)) (dfe : BitVec 7)
  | prbsSync (ln : LaneId) (rx : List Bool)
  | prbsSyncLost (ln : LaneId) (rx : List Bool)
  | prbsSaturated (ln : LaneId) (bits errors : BitVec 48)
  deriving DecidableEq, Repr

end Sys2Proof
end

