-- ==== Sys2Proof/Decode.lean ====
section
/-! DEFINITION. Decoding.  The opcode table gives no command any bits (commands are events, manifests and
register accesses, not words), so no word spells a command. -/

namespace Sys2Proof

/-- The command that a word spells by the table's bits: none does, since no row of the table has bits. -/
def decodeTableWord (_nbits _w : Nat) : Option Instr := none

end Sys2Proof
end

