-- ==== Sys2Proof/Machine/Codes.lean ====
section
/-! DEFINITION. Byte order and the check codes of the manual: CRC-64 of a flit (R147), CRC-32 (R109),
CRC-16 (R88), and the command word with its CRC-4 (R267). -/

namespace Sys2Proof.Machine

open Sys2Proof

/-! ### Little-endian bytes (R5) -/

/-- The `n` little-endian bytes of a number. -/
def leBytes (v : Nat) : Nat → List Byte
  | 0 => []
  | n + 1 => BitVec.ofNat 8 v :: leBytes (v / 256) n

/-- The number that little-endian bytes hold. -/
def ofLe : List Byte → Nat
  | [] => 0
  | v :: vs => v.toNat + 256 * ofLe vs

/-- Bytes [i, i + n) of a list, as a number; bytes beyond its end are 0. -/
def leAt (bs : List Byte) (i n : Nat) : Nat := ofLe ((bs.drop i).take n)

/-- A list of bytes cut or filled with zeros to length `n`. -/
def padTo (n : Nat) (bs : List Byte) : List Byte := bs.take n ++ List.replicate (n - bs.length) 0

/-- The 64 bytes of a granule. -/
def granBytes (g : Granule) : List Byte := leBytes g.toNat 64

/-- The granule that 64 bytes hold. -/
def ofBytes (bs : List Byte) : Granule := BitVec.ofNat 512 (ofLe (bs.take 64))

/-- Byte `i` of a granule. -/
def granByte (g : Granule) (i : Nat) : Byte := BitVec.ofNat 8 (g.toNat / 2 ^ (8 * i))

/-! ### Reflected CRCs -/

/-- One bit of a reflected CRC of `w` bits. -/
def crcBit {w : Nat} (poly r : BitVec w) : BitVec w :=
  if r.getLsbD 0 then (r >>> 1) ^^^ poly else r >>> 1

/-- One byte of a reflected CRC. -/
def crcByte {w : Nat} (poly r : BitVec w) (v : Byte) : BitVec w :=
  let s := r ^^^ v.zeroExtend w
  crcBit poly (crcBit poly (crcBit poly (crcBit poly (crcBit poly (crcBit poly (crcBit poly (crcBit poly s)))))))

/-- A reflected CRC over bytes. -/
def crcOf {w : Nat} (poly init : BitVec w) (bs : List Byte) : BitVec w := bs.foldl (crcByte poly) init

/-- The CRC-64 of R147. -/
def crc64 (bs : List Byte) : BitVec 64 := ~~~ (crcOf 0xC96C5795D7870F42#64 (BitVec.allOnes 64) bs)

/-- The CRC-32 of IEEE 802.3 (R109). -/
def crc32 (bs : List Byte) : BitVec 32 := ~~~ (crcOf 0xEDB88320#32 (BitVec.allOnes 32) bs)

/-- The CRC-16 of a control block: x^16 + x^12 + x^5 + 1, initial 0xFFFF, no final inversion, most significant bit
first (R88; the bit order is the polynomial's normal form, log 10). -/
def crc16 (bs : List Byte) : BitVec 16 :=
  bs.foldl (fun r v =>
    let s := r ^^^ ((v.zeroExtend 16 : BitVec 16) <<< (8 : Nat))
    (List.range 8).foldl (fun r _ => if r.getLsbD 15 then (r <<< 1) ^^^ 0x1021 else r <<< 1) s) 0xFFFF

/-- The PEC of SMBus over a transfer's bytes, its address byte first: CRC-8 with x^8 + x^2 + x + 1, initial 0, most
significant bit first (R445; the polynomial is PRESUMED: log 101). -/
def crc8 (bs : List Byte) : Byte :=
  bs.foldl (fun r v => (List.range 8).foldl (fun (r : Byte) _ => if r.getLsbD 7 then (r <<< 1) ^^^ 7 else r <<< 1) (r ^^^ v)) 0

/-! ### The command word (R267) -/

/-- One bit of the CRC of a command word: generator x^4 + x + 1. -/
def crc4Bit (r : BitVec 4) (d : Bool) : BitVec 4 := if r.getLsbD 3 != d then (r <<< 1) ^^^ 3 else r <<< 1

/-- The four bits of one coil, the first on the coil at bit 0 (R266; DEDUCED for a command word, log 93). -/
def crc4Coil (r c : BitVec 4) : BitVec 4 := (List.range 4).foldl (fun r k => crc4Bit r (c.getLsbD k)) r

/-- The CRC over the 44 command bits taken coil by coil, as it goes out on the last coil: the coefficient of x^3 first. -/
def crc4 (coils : List (BitVec 4)) : BitVec 4 := ((coils.take 11).foldl crc4Coil 0).reverse

/-- The command word of 44 command bits, four on each of C0 to C10; C11 carries the CRC. -/
def caEncode (bits : BitVec 44) : List (BitVec 4) :=
  let cs := (List.range 11).map fun i => bits.extractLsb' (4 * i) 4
  cs ++ [crc4 cs]

/-- A command word as received has its CRC. -/
def caGood (coils : List (BitVec 4)) : Bool := coils.getD 11 0 == crc4 coils

/-! ### The flit as bytes (R142, R143) -/

/-- The header as a 192-bit number (R143). -/
def headerOf (f : Flit) : Nat :=
  let r (i : Nat) : Nat := f.rsv.toNat / 2 ^ i % 2
  f.kind.toNat + 2 ^ 4 * f.vl.toNat + 2 ^ 5 * f.csr.toNat + 2 ^ 6 * r 0 + 2 ^ 7 * r 1
    + 2 ^ 8 * f.opcode.toNat + 2 ^ 16 * f.dest.toNat + 2 ^ 31 * r 2
    + 2 ^ 32 * f.src.toNat + 2 ^ 47 * r 3 + 2 ^ 48 * f.tag.toNat + 2 ^ 64 * f.flow.toNat
    + 2 ^ 80 * f.offset.toNat + 2 ^ 117 * r 4 + 2 ^ 118 * r 5 + 2 ^ 119 * r 6
    + 2 ^ 120 * f.gvalid.toNat + 2 ^ 124 * f.poison.toNat + 2 ^ 128 * f.status.toNat
    + 2 ^ 136 * f.length.toNat + 2 ^ 152 * f.attr.toNat + 2 ^ 160 * f.arg.toNat

/-- Bytes 0 to 279 of a flit. -/
def flitBytes (f : Flit) : List Byte :=
  leBytes (headerOf f) 24 ++ granBytes f.g0 ++ granBytes f.g1 ++ granBytes f.g2 ++ granBytes f.g3

/-- The CRC of a flit's bytes 0 to 279 (R147). -/
def flitCrc (f : Flit) : BitVec 64 := crc64 (flitBytes f)

/-- The flit with its CRC computed: what its originator sends. -/
def sealFlit (f : Flit) : Flit := { f with crc := flitCrc f }

/-- The flit stomped: its CRC field the inverse of its CRC. -/
def stomp (f : Flit) : Flit := { f with crc := ~~~ flitCrc f }

/-- Granule `j` of a flit. -/
def granOf (f : Flit) (j : Nat) : Granule :=
  match j with
  | 0 => f.g0
  | 1 => f.g1
  | 2 => f.g2
  | _ => f.g3

/-- The four granules. -/
def gransOf (f : Flit) : List Granule := [f.g0, f.g1, f.g2, f.g3]

/-- An idle flit (R146). -/
def idleFlit : Flit := sealFlit { kind := 0 }

/-- The payload as 256 bytes. -/
def payload (f : Flit) : List Byte := (gransOf f).flatMap granBytes

/-- The flit with up to 256 payload bytes. -/
def withPayload (f : Flit) (bs : List Byte) : Flit :=
  let p := padTo 256 bs
  { f with g0 := ofBytes (p.take 64), g1 := ofBytes ((p.drop 64).take 64)
           g2 := ofBytes ((p.drop 128).take 64), g3 := ofBytes ((p.drop 192).take 64) }

/-- How an arriving flit classes (R149). -/
inductive FlitClass where
  | bad | stomped | badInside | good
  deriving DecidableEq, Repr

/-- The table of R149. -/
def classify (f : Flit) (markedBad parityErr : Bool) : FlitClass :=
  let c := flitCrc f
  if markedBad then .bad
  else if f.crc = ~~~ c then .stomped
  else if f.crc ≠ c then .bad
  else if parityErr then .badInside
  else .good

end Sys2Proof.Machine
end

