-- ==== Sys2Proof/Machine/Hash.lean ====
section
/-! DEFINITION. SHA-384 (FIPS 180-4) and the verification of an ECDSA P-384 signature (FIPS 186), as an image needs them
(R331). -/

namespace Sys2Proof.Machine

open Sys2Proof

/-! ### SHA-384 -/

/-- Constants 0 to 19 of SHA-384. -/
def shaK0 : List (BitVec 64) := [
    0x428A2F98D728AE22, 0x7137449123EF65CD, 0xB5C0FBCFEC4D3B2F, 0xE9B5DBA58189DBBC,
    0x3956C25BF348B538, 0x59F111F1B605D019, 0x923F82A4AF194F9B, 0xAB1C5ED5DA6D8118,
    0xD807AA98A3030242, 0x12835B0145706FBE, 0x243185BE4EE4B28C, 0x550C7DC3D5FFB4E2,
    0x72BE5D74F27B896F, 0x80DEB1FE3B1696B1, 0x9BDC06A725C71235, 0xC19BF174CF692694,
    0xE49B69C19EF14AD2, 0xEFBE4786384F25E3, 0x0FC19DC68B8CD5B5, 0x240CA1CC77AC9C65]

/-- Constants 20 to 39 of SHA-384. -/
def shaK1 : List (BitVec 64) := [
    0x2DE92C6F592B0275, 0x4A7484AA6EA6E483, 0x5CB0A9DCBD41FBD4, 0x76F988DA831153B5,
    0x983E5152EE66DFAB, 0xA831C66D2DB43210, 0xB00327C898FB213F, 0xBF597FC7BEEF0EE4,
    0xC6E00BF33DA88FC2, 0xD5A79147930AA725, 0x06CA6351E003826F, 0x142929670A0E6E70,
    0x27B70A8546D22FFC, 0x2E1B21385C26C926, 0x4D2C6DFC5AC42AED, 0x53380D139D95B3DF,
    0x650A73548BAF63DE, 0x766A0ABB3C77B2A8, 0x81C2C92E47EDAEE6, 0x92722C851482353B]

/-- Constants 40 to 59 of SHA-384. -/
def shaK2 : List (BitVec 64) := [
    0xA2BFE8A14CF10364, 0xA81A664BBC423001, 0xC24B8B70D0F89791, 0xC76C51A30654BE30,
    0xD192E819D6EF5218, 0xD69906245565A910, 0xF40E35855771202A, 0x106AA07032BBD1B8,
    0x19A4C116B8D2D0C8, 0x1E376C085141AB53, 0x2748774CDF8EEB99, 0x34B0BCB5E19B48A8,
    0x391C0CB3C5C95A63, 0x4ED8AA4AE3418ACB, 0x5B9CCA4F7763E373, 0x682E6FF3D6B2B8A3,
    0x748F82EE5DEFB2FC, 0x78A5636F43172F60, 0x84C87814A1F0AB72, 0x8CC702081A6439EC]

/-- Constants 60 to 79 of SHA-384. -/
def shaK3 : List (BitVec 64) := [
    0x90BEFFFA23631E28, 0xA4506CEBDE82BDE9, 0xBEF9A3F7B2C67915, 0xC67178F2E372532B,
    0xCA273ECEEA26619C, 0xD186B8C721C0C207, 0xEADA7DD6CDE0EB1E, 0xF57D4F7FEE6ED178,
    0x06F067AA72176FBA, 0x0A637DC5A2C898A6, 0x113F9804BEF90DAE, 0x1B710B35131C471B,
    0x28DB77F523047D84, 0x32CAAB7B40C72493, 0x3C9EBE0A15C9BEBC, 0x431D67C49C100D4C,
    0x4CC5D4BECB3E42B6, 0x597F299CFC657E2A, 0x5FCB6FAB3AD6FAEC, 0x6C44198C4A475817]

/-- The eight words that a compression works on. -/
structure Sha where
  a : BitVec 64
  b : BitVec 64
  c : BitVec 64
  d : BitVec 64
  e : BitVec 64
  f : BitVec 64
  g : BitVec 64
  h : BitVec 64
  deriving DecidableEq, Repr

/-- The words of SHA-384 before the first block. -/
def shaInit : Sha := ⟨0xCBBB9D5DC1059ED8, 0x629A292A367CD507, 0x9159015A3070DD17, 0x152FECD8F70E5939,
  0x67332667FFC00B31, 0x8EB44A8768581511, 0xDB0C2E0D64F98FA7, 0x47B5481DBEFA4FA4⟩

/-- Three rotations to the right, combined. -/
def rot3 (w : BitVec 64) (i j k : Nat) : BitVec 64 := w.rotateRight i ^^^ w.rotateRight j ^^^ w.rotateRight k

/-- The next word of the schedule, from the sixteen before it, the latest first. -/
def shaNext (ws : List (BitVec 64)) : BitVec 64 :=
  let at_ (i : Nat) : BitVec 64 := ws.getD i 0
  let lo (w : BitVec 64) : BitVec 64 := w.rotateRight 1 ^^^ w.rotateRight 8 ^^^ (w >>> 7)
  let hi (w : BitVec 64) : BitVec 64 := w.rotateRight 19 ^^^ w.rotateRight 61 ^^^ (w >>> 6)
  hi (at_ 1) + at_ 6 + lo (at_ 14) + at_ 15

/-- The 80 words of a block's schedule, in order. -/
def shaSchedule (block : List (BitVec 64)) : List (BitVec 64) :=
  ((List.range 64).foldl (fun ws _ => shaNext ws :: ws) block.reverse).reverse

/-- One round with a constant and a word of the schedule. -/
def Sha.round (x : Sha) (k w : BitVec 64) : Sha :=
  let t1 := x.h + rot3 x.e 14 18 41 + ((x.e &&& x.f) ^^^ (~~~ x.e &&& x.g)) + k + w
  let t2 := rot3 x.a 28 34 39 + ((x.a &&& x.b) ^^^ (x.a &&& x.c) ^^^ (x.b &&& x.c))
  ⟨t1 + t2, x.a, x.b, x.c, x.d + t1, x.e, x.f, x.g⟩

/-- A block of 16 words compressed. -/
def Sha.block (x : Sha) (ws : List (BitVec 64)) : Sha :=
  let y := ((shaK0 ++ shaK1 ++ shaK2 ++ shaK3).zip (shaSchedule ws)).foldl (fun y e => y.round e.1 e.2) x
  ⟨x.a + y.a, x.b + y.b, x.c + y.c, x.d + y.d, x.e + y.e, x.f + y.f, x.g + y.g, x.h + y.h⟩

/-- The number that bytes spell, the first the most significant. -/
def beNat (bs : List Byte) : Nat := bs.foldl (fun n v => n * 256 + v.toNat) 0

/-- The low `n` bytes of a number, the most significant first. -/
def beBytes (v n : Nat) : List Byte := (leBytes v n).reverse

/-- A message padded to whole blocks of 128 bytes. -/
def shaPad (bs : List Byte) : List Byte :=
  let n := bs.length
  bs ++ 0x80 :: List.replicate ((239 - n % 128) % 128) 0 ++ beBytes (8 * n) 16

/-- SHA-384. -/
def sha384 (bs : List Byte) : BitVec 384 :=
  let m := shaPad bs
  let x := (List.range (m.length / 128)).foldl (fun (x : Sha) i =>
    x.block ((List.range 16).map fun j => BitVec.ofNat 64 (beNat ((m.drop (128 * i + 8 * j)).take 8)))) shaInit
  x.a ++ x.b ++ x.c ++ x.d ++ x.e ++ x.f

/-! ### P-384 -/

/-- The prime of the field. -/
abbrev p384 : Nat := 2 ^ 384 - 2 ^ 128 - 2 ^ 96 + 2 ^ 32 - 1
/-- The order of the base point. -/
abbrev n384 : Nat :=
  0xFFFFFFFFFFFFFFFFFFFFFFFFFFFFFFFFFFFFFFFFFFFFFFFFC7634D81F4372DDF581A0DB248B0A77AECEC196ACCC52973
/-- The coefficient b of the curve; a is -3. -/
abbrev b384 : Nat :=
  0xB3312FA7E23EE7E4988E056BE3F82D19181D9C6EFE8141120314088F5013875AC656398D8A2ED19D2A85C8EDD3EC2AEF

/-- A point in Jacobian coordinates; with z = 0, the point at infinity. -/
structure Point where
  x : Nat
  y : Nat
  z : Nat
  deriving DecidableEq, Repr

/-- The base point. -/
def g384 : Point :=
  ⟨0xAA87CA22BE8B05378EB1C71EF320AD746E1D3B628BA79B9859F741E082542A385502F25DBF55296C3A545E3872760AB7,
   0x3617DE4A96262C6F5D9E98BF9292DC29F8F41DBD289A147CE9DA3113B5F0B8C00A60B1CE1D7E819D7A431D7C90EA0E5F, 1⟩

/-- A difference in the field. -/
def subP (a b : Nat) : Nat := (a + (p384 - b % p384)) % p384

/-- Twice a point. -/
def Point.double (q : Point) : Point :=
  let d := q.z * q.z % p384
  let g := q.y * q.y % p384
  let b := q.x * g % p384
  let a := 3 * subP q.x d * (q.x + d) % p384
  let x := subP (a * a) (8 * b)
  ⟨x, subP (a * subP (4 * b) x) (8 * g * g), 2 * q.y * q.z % p384⟩

/-- The sum of two points. -/
def Point.add (q r : Point) : Point :=
  if q.z = 0 then r else if r.z = 0 then q
  else
    let zq := q.z * q.z % p384
    let zr := r.z * r.z % p384
    let u := q.x * zr % p384
    let s := q.y * zr * r.z % p384
    let h := subP (r.x * zq) u
    let t := subP (r.y * zq * q.z) s
    if h = 0 then (if t = 0 then q.double else ⟨1, 1, 0⟩)
    else
      let hh := h * h % p384
      let v := u * hh % p384
      let x := subP (t * t) (hh * h + 2 * v)
      ⟨x, subP (t * subP v x) (s * hh * h), q.z * r.z * h % p384⟩

/-- The bits of a number below 2 ^ 384, the most significant first. -/
def bits384 (k : Nat) : List Bool := (List.range 384).map fun i => k.testBit (383 - i)

/-- A multiple of a point. -/
def Point.times (q : Point) (k : Nat) : Point :=
  (bits384 k).foldl (fun r b => if b then r.double.add q else r.double) ⟨1, 1, 0⟩

/-- A power modulo `m`. -/
def powMod (m a k : Nat) : Nat := (bits384 k).foldl (fun r b => if b then r * r % m * a % m else r * r % m) 1

/-- A public key: an uncompressed point of 97 bytes that lies on the curve. -/
def publicKey (bs : List Byte) : Option Point :=
  let x := beNat ((bs.drop 1).take 48)
  let y := beNat ((bs.drop 49).take 48)
  if bs.length = 97 ∧ bs.head? = some 4 ∧ x < p384 ∧ y < p384 ∧ y * y % p384 = subP (x * x * x + b384) (3 * x) then
    some ⟨x, y, 1⟩
  else none

/-- ECDSA P-384 with SHA-384: the signature r, s of a message verifies under a key. -/
def ecdsaOk (q : Point) (r s : Nat) (msg : List Byte) : Bool :=
  let w := powMod n384 s (n384 - 2)
  let t := (g384.times ((sha384 msg).toNat * w % n384)).add (q.times (r * w % n384))
  let z := powMod p384 t.z (p384 - 2)
  decide (1 ≤ r ∧ r < n384 ∧ 1 ≤ s ∧ s < n384 ∧ t.z ≠ 0 ∧ t.x * z % p384 * z % p384 % n384 = r)

end Sys2Proof.Machine
end

