-- ==== Sys2Proof/Config.lean ====
section
/-! DEFINITION. The free values: constants without a body, one for each value that the manual leaves open.
Nothing in Lean can evaluate them, so a statement about the model holds whatever they are. -/

namespace Sys2Proof

/-- The per-arrival key formed at an arrival, from the entropy source (R303).  Free: log 4. -/
opaque Config.arrivalKey : Nat → BitVec 512

/-- The arrival number of `MF_ARRIVAL`, from the entropy source (R317).  Free: log 4. -/
opaque Config.arrivalValue : Nat → BitVec 32

/-- The unique die number (R450).  Free: log 5. -/
opaque Config.dieNumber : BitVec 128

/-- The domain that holds an SRAM instance; 48 or more where no switched domain does.  Free: the spec numbers the instances
and does not say where each lies (R402, R424; log 108). -/
opaque Config.sramHome : Nat → Nat

/-- The length in bits of a capture chain; the map is a file that is not given (R360).  Free: log 6. -/
opaque Config.chainLength : BitVec 16 → Nat

/-- Bit `i` of a capture chain, when the chain is captured with the free-value counter at `n` (R360).  Free: log 6. -/
opaque Config.chainBit : BitVec 16 → Nat → Nat → Bool

/-- The seed of a lane's hunt LFSR, from the lane number and the tide counter (R105).  Free: log 7. -/
opaque Config.huntSeed : Nat → Nat → BitVec 16

/-- Which of the four listen lengths an LFSR state picks (R105).  Free: log 7. -/
opaque Config.huntPick : BitVec 16 → Fin 4

/-- How long after a TAP_REQ the pier answers it, in ticks: within 1 µs (R116).  Free: log 73. -/
opaque Config.tapDelay : Nat → Fin 1601

/-- Where the search for a free internal tag starts (R171 does not say which tag a remote write takes).  Free: log 11. -/
opaque Config.tagStart : Nat → Nat

/-- Which of several things that the manual leaves equal is taken (the index a charter is given, the charter named
by a refusal).  Free: log 11. -/
opaque Config.pick : Nat → Nat

/-- Symbol `i` of the `n`-th granule whose burst a clock failure cut (R348: it holds a mixture).  Free: log 13. -/
opaque Config.cutSymbol : Nat → Nat → BitVec 8

/-- How the stack power that is left is shared among dies when no die was active (R384 divides by the activity).  Free: log 14. -/
opaque Config.idleShare : Nat → Nat → Nat

/-- The reading in mV that channel 94 gives for an exact bandgap (R383 does not say it).  Free: log 15. -/
opaque Config.bandgapRef : Nat

/-- The bandgap trim that the five-point table fused at the factory gives for a reading of sensor 1 (R383 names the table and
not its contents).  Free: log 15. -/
opaque Config.bandgapTrim : Int → Int

/-- A byte of the logbook that no write has reached (R438: the second half of a trip record cut short).  Free: log 16. -/
opaque Config.unwrittenLog : Nat → BitVec 8

/-- The microseconds that FILL_STATUS estimates to completion while a fill runs (R327 gives no way to reckon it).
Free: log 19. -/
opaque Config.fillEstimate : Nat → BitVec 32

end Sys2Proof
end

