-- ==== Sys2Proof/Machine/State.lean ====
section
/-! DEFINITION. The state of the EQ-1628: plain data, block by block as the manual's chapters name it.
Register bits that software writes, or that only accumulate (alarms, counters, maxima), stand in the
register file (`csr`, `cnt`, `sel`, `hold`); what the hardware acts on stands in typed fields, from which the
read-only fields of the registers are computed (`Sys2Proof/Machine/CsrRead.lean`).
Per-unit sets are sparse tables: an unlisted unit is in its reset state.
Every default value below is the value at reset. -/

namespace Sys2Proof.Machine

open Sys2Proof

/-! ### Chapter 01, 14: the pier -/

/-- The pier states of R19, in the order of their codes. -/
inductive PierState where
  | dark | arrival | survey | harbour | openS | departure | tripped | frozen
  deriving DecidableEq, Repr

/-- The phases of a departure (R375), in the order of `PW_STATUS.DEP_PHASE`. -/
inductive DepPhase where
  | none | quiesce | survey | chart | domainsOff | ready
  deriving DecidableEq, Repr

/-- Where an arrival stands (R364): which of its steps is running; `groups` is a full survey's test of its power groups,
one after the other (R373). -/
inductive ArrStep where
  | boot | pll | chart | power | groups | survey | fill | done
  deriving DecidableEq, Repr

/-- The states of a switched domain (R370), in the order of `PW_DOM.STATE`. -/
inductive DomState where
  | off | powering | on | draining | failed
  deriving DecidableEq, Repr

/-- One switched domain: its state and `PW_DOM.ON_COUNT` (R379), since when it is POWERING with its turn on its rails
(R370), and the manifest that waits for it. -/
structure Dom where
  st : DomState := .off
  onCount : BitVec 16 := 0
  since : Tide := 0
  waiter : Option ManRef := none
  deriving DecidableEq, Repr

/-- What the pins carry, as last sampled or driven (R37, R46, R48). -/
structure Pins where
  porstLow : Bool := false
  wrstLow : Bool := false
  strap : BitVec 4 := 0
  bts : BitVec 3 := 0
  railsLow : List Rail := []
  thermTripLow : Bool := false
  deriving DecidableEq, Repr

/-- One valid entry of the board table, or the defaults of R111 (R110). -/
structure BoardEntry where
  swing : BitVec 5 := 0x0C
  cable : Bool := false
  shape : BitVec 3 := 0
  laneOff : Bool := false
  pre2 : Int := 0
  pre1 : Int := -4
  post1 : Int := -8
  post2 : Int := 0
  ctle : BitVec 4 := 6
  preset : BitVec 3 := 3
  deriving DecidableEq, Repr

/-- Power, arrival and departure (R364 to R379). -/
structure Power where
  st : PierState := .arrival
  arr : ArrStep := .boot
  heldInReset : Bool := false
  doms : Tbl Dom := []
  depPhase : DepPhase := .none
  depGroup : BitVec 3 := 0
  depNoSurvey : Bool := false
  depHeld : Bool := false
  depWaiter : Option ManRef := none
  depStart : Tide := 0
  depAbandoned : Bool := false
  offReady : Bool := false
  surveyFull : Bool := false
  contentsKept : Bool := false
  tripHold : Bool := false
  chartAge : BitVec 4 := 0
  chartValid : Bool := false
  warm : Bool := false
  afterTrip : Bool := false
  resetEdge : Tide := 0
  tHarbour : Word := 0
  tOpen : Word := 0
  tDepart : Word := 0
  boardMax : BitVec 4 := 0xF
  board : Tbl BoardEntry := []
  deriving DecidableEq, Repr

/-! ### Chapter 13: clocks -/

/-- The clock sources a domain may run on (R342), in the order of `CK_STATUS.AON_SRC`. -/
inductive ClkSrc where
  | pllRoot | crystal | rc
  deriving DecidableEq, Repr

/-- One PLL: locked, its re-lock event with the moment from which its next attempt may start and that at which the
present one did (R350), and its loss count (R363). -/
structure PllSt where
  lock : Bool := false
  down : Bool := false
  tries : Nat := 0
  attempt : Bool := false
  gaveUp : Bool := false
  losses : BitVec 8 := 0
  forced : Bool := false
  next : Tide := 0
  began : Tide := 0
  lastGood : Option Tide := none
  deriving DecidableEq, Repr

/-- Clocks and breakwater (R336 to R353, R363). -/
structure Clocks where
  tide : Tide := 0
  xtalOk : Bool := false
  rcOk : Bool := false
  root : PllSt := {}
  west : PllSt := {}
  east : PllSt := {}
  aonSrc : ClkSrc := .crystal
  hkSrc : ClkSrc := .crystal
  svSrc : ClkSrc := .crystal
  tlSrc : ClkSrc := .crystal
  tideSrc : ClkSrc := .crystal
  coreGated : Bool := false
  aonStopped : Bool := false
  hmStopped : Bool := false
  corr : Rat := 0
  clipped : Bool := false
  aonMoved : Bool := false
  hkMoved : Bool := false
  recover : Option ManRef := none
  recoverAt : Tide := 0
  deriving DecidableEq, Repr

/-! ### Chapters 03 and 04: lanes and sides -/

/-- The lane states of R101, in the order of `LN_STATUS.STATE`. -/
inductive LaneState where
  | off | quiet | hunt | lock | train | run | degraded | failed
  deriving DecidableEq, Repr

/-- A tap request outstanding at the partner (R117). -/
structure TapOut where
  seq : BitVec 8
  tap : BitVec 8
  act : BitVec 8
  repeats : Nat
  deriving DecidableEq, Repr

/-- The TAP_RSP last sent: the number it answers, its status, and the number of its own block (R114, R116). -/
structure TapAns where
  seq : BitVec 8
  status : BitVec 8
  own : BitVec 8 := 0
  deriving DecidableEq, Repr

/-- The figure-of-merit search of R118. -/
structure Search where
  best : Nat := 0
  tapIx : Nat := 0
  up : Bool := true
  improved : Bool := false
  undo : Bool := false
  started : Bool := false
  requests : Nat := 0
  since : Tide := 0
  deriving DecidableEq, Repr

/-- What a lane sends in its TRAIN blocks (R113, R114); its WINDOW carries the length it asks for, in 1,024 UI. -/
inductive TrainMsg where
  | idle
  | hello (role : Bool)
  | window (units : BitVec 16)
  | tapReq (t : TapOut)
  | tapRsp (t : TapAns)
  | tapDone (pass : Bool) (fom : Nat)
  | prbs (pattern : BitVec 2) (ms : BitVec 16)
  deriving DecidableEq, Repr

/-- A segment-scope message (R113). -/
inductive SegMsg where
  | window (what : BitVec 8) (units : BitVec 16)
  | cap (c : Cap)
  | commit (c : Commit)
  | start (left : Nat)
  | move (g : Fin 4)
  | reform (mask : BitVec 16) (left : Nat)
  deriving DecidableEq, Repr

/-- A lane's PRBS checker (R76): the bits that its pattern continues from, the latest at bit 0; how many it has seeded
itself with; the run of bits without an error; how many bits it has compared in sync, and which of the last 1,024 were
in error. -/
structure PrbsChk where
  past : BitVec 31 := 0
  seeded : Nat := 0
  run : Nat := 0
  n : Nat := 0
  errs : List Nat := []
  deriving DecidableEq, Repr

/-- One lane: the state of R101, its analogue settings and the training protocol's own state.  `since` is when it entered
HUNT, LOCK or TRAIN; `burstAt` when its burst began; `losAt` when its signal was last lost; `winAt` when its own window
in LOCK began; `lockAt` when it locked; `reqAt` when it last sent its tap request (R102, R105 to R107, R94, R117). -/
structure Lane where
  st : LaneState := .off
  since : Tide := 0
  burstAt : Tide := 0
  losAt : Tide := 0
  winAt : Option Tide := none
  lockAt : Tide := 0
  reqAt : Tide := 0
  grade : Fin 4 := 0
  polInv : Bool := false
  polKnown : Bool := false
  ecConv : Bool := false
  los : Bool := false
  lol : Bool := false
  txIdle : Bool := true
  pre2 : Int := 0
  pre1 : Int := 0
  post1 : Int := 0
  post2 : Int := 0
  ffeReject : Bool := false
  ctle : BitVec 4 := 0
  rxFfe : List (BitVec 8) := []
  dfe : BitVec 7 := 0
  erle : BitVec 8 := 0
  convCount : BitVec 16 := 0
  stored : BitVec 4 := 0
  warm : Bool := false
  talking : Bool := false
  listenUs : Nat := 0
  lfsr : BitVec 16 := 1
  answerer : Option Bool := none
  answering : Bool := false
  hellos : Nat := 0
  blockLock : Bool := false
  peer : Option Hello := none
  winOwn : Bool := false
  winPeer : Bool := false
  peerUnits : BitVec 16 := 0
  rxSeq : Option (BitVec 8) := none
  txSeq : BitVec 8 := 0
  msg : TrainMsg := .idle
  tapAns : Option TapAns := none
  tapAt : Option Tide := none
  tapOut : Option TapOut := none
  search : Option Search := none
  doneOwn : Option Bool := none
  donePeer : Option Bool := none
  fom : BitVec 8 := 0
  attempts : Nat := 0
  retraining : Bool := false
  degradedAt : Option Tide := none
  winSince : Option Tide := none
  prbsRun : Option (BitVec 2) := none
  prbsAt : Option Tide := none
  prbsMs : BitVec 16 := 0
  prbsOwner : Option ManRef := none
  prbsSync : Bool := false
  prbsSat : Bool := false
  chk : PrbsChk := {}
  unusable : Bool := false
  calTemp : Option Rat := none
  calCount : BitVec 32 := 0
  calTime : Tide := 0
  calPending : Bool := false
  deriving DecidableEq, Repr

/-- Where a side's link stands: down, training its lanes, agreeing a width (CAP and COMMIT), counting
down START, in RUN. -/
inductive SegState where
  | down | training | agreeing | starting | run
  deriving DecidableEq, Repr

/-- A quiet window in a running link (R129 to R132); in one with `cal` every working lane is calibrated (R421). -/
structure WinSt where
  own : Bool
  slots : Nat := 0
  discarded : Nat := 0
  since : Tide := 0
  cal : Bool := false
  deriving DecidableEq, Repr

/-- What a transmitter puts on its lanes at a flit boundary (R155, R130, R114); a control row with its 32 bytes. -/
inductive TxItem where
  | flit (f : Flit)
  | fillRow (blk : List Byte)
  | trainRow (blk : List Byte)
  | quietSlot
  | idleFlit
  deriving DecidableEq, Repr

/-- One side: its reference, its segment, what CAP and COMMIT agreed, and its credits.  `moveOut` is a MOVE that goes out
before the segment follows it; `startAt` is when START began to count, `reformAt` the row in which the REFORM that counts
left, none while it waits; `txDealt` is the last pair's symbols by logical lane; `muteDue` is a mute that waits for the
next pair boundary, `txMuted` one that followed the last pair (R91, R114, R123, R130, R134). -/
structure SideSt where
  refPresent : Bool := false
  refSpread : BitVec 5 := 0
  refPpm : BitVec 16 := 0
  sscActive : BitVec 5 := 0
  sscPending : Bool := false
  spreadOwn : Bool := true
  seg : SegState := .down
  capG2 : Bool := true
  grade : Fin 4 := 0
  loop : Bool := false
  pass : BitVec 16 := 0
  mask : BitVec 16 := 0
  bseg : Nat := 0
  useg : Nat := 0
  blink : Nat := 0
  spread : BitVec 8 := 0
  capIn : Option Cap := none
  capOut : Option Cap := none
  capSeq : Option (BitVec 8) := none
  myIx : Option Nat := none
  asked : Option Nat := none
  lastShares : List Nat := []
  segSeq : BitVec 8 := 0
  ctl : List (BitVec 8 × SegMsg) := []
  moveOut : Option (Fin 4) := none
  startAt : Tide := 0
  lowered : Bool := false
  warmAll : Bool := false
  txOn : Bool := false
  rxOn : Bool := false
  unaligned : BitVec 16 := 0
  spreadTaken : Bool := false
  commit : Option Commit := none
  commitOut : Option Commit := none
  commitSeq : Option (BitVec 8) := none
  moveSeq : Option (BitVec 8) := none
  reformSeq : Option (BitVec 8) := none
  winSeq : Option (BitVec 8) := none
  noLaneLogged : Bool := false
  noShareLogged : Bool := false
  shareGrant : Nat := 0
  creditGrant : Nat := 0
  bal : Int := 0
  balSet : Bool := false
  peerHold : Bool := false
  reform : Option (BitVec 16) := none
  reformOut : Option (BitVec 16) := none
  reformTx : Bool := false
  reformRx : Bool := false
  reformAt : Option (BitVec 16) := none
  row : BitVec 16 := 0
  rxPhase : Nat := 0
  txRow : BitVec 16 := 0
  txSince : Nat := 0
  cadence : Nat := 1024
  txBits : List Bool := []
  txSym : Nat := 0
  txPair : List (BitVec 10) := []
  txDealt : List (List (BitVec 10)) := []
  muteDue : Bool := false
  txMuted : Bool := false
  txCtl : Option (List Byte) := none
  rxPos : Nat := 0
  txPos : Nat := 0
  phaseBad : Nat := 0
  resyncs : List Tide := []
  win : Option WinSt := none
  winWant : Bool := false
  winAsked : Bool := false
  winAskedAt : Option Tide := none
  mute : Nat := 0
  muteAt : Option Tide := none
  grantOwed : Bool := false
  fillSpread : BitVec 8 := 0
  owed : Tbl Nat := []
  lowSince : Option Tide := none
  capDirty : Bool := false
  retryAt : Option Tide := none
  waiter : Option (ManRef × Nat) := none
  tx : Option TxItem := none
  deriving DecidableEq, Repr

/-! ### Chapter 05: the fairway -/

/-- One fairway direction: its output buffer (R154), the idle flits that left lately at the insertion
point (R127), its stand-in (R164). -/
structure Fairway where
  buf : List Flit := []
  leftIdle : List Bool := []
  sinceRemoval : Nat := 256
  badAt : List Tide := []
  standin : List Flit := []
  sinceDump : Nat := 65536
  deriving DecidableEq, Repr

/-! ### Chapters 06, 07, 08: requests and parts -/

/-- The class of a request (R24, R199). -/
inductive Cls where
  | rt (c : Nat) | bw (c : Nat) | demoted (c : Nat) | be
  deriving DecidableEq, Repr

/-- Where a part stands. -/
inductive PStage where
  | transit | held | queued | ready | committed | issued | done | withdrawn
  deriving DecidableEq, Repr

/-- A write of one granule that waits in staging (R220): what will be stored, in which of the three forms; when its WR
issued and its last beat leaves the front end. -/
structure Staged where
  gran : Nat
  data : Granule
  poison : Bool
  key : Option (BitVec 512)
  wrAt : Option Tide := none
  lastBeat : Option Tide := none
  deriving DecidableEq, Repr

/-- One part of a request (R179) at its berth: what it reads and has read, what it will write and has in
staging, the level it was given, and the granule locks it holds, with the number of commits before each (R233); `bad` are
the granules of a committed part that an internal error has poisoned (R235). -/
structure Part where
  berth : Nat
  reads : List Nat := []
  toIssue : List Nat := []
  got : List (Nat × List Byte) := []
  vals : List (Nat × Granule × Bool) := []
  toWrite : List Nat := []
  writes : List Staged := []
  stage : PStage := .transit
  level : Nat := 6
  arrived : Tide := 0
  granted : Bool := false
  locks : List Nat := []
  lockNo : Tbl Nat := []
  bad : List Nat := []
  deriving DecidableEq, Repr

/-- The operation of a request: the rows READ to FENCE of the opcode table. -/
inductive Op where
  | read | write | writeBytes | atomic | reduce | gather | scatter | fill | find
  | copyLocal | copyRemote | fence
  deriving DecidableEq, Repr

/-- An accepted request in its flow queue (R173). -/
structure Req where
  id : Nat
  op : Op
  sd : Side
  f : Flit
  cls : Cls := .be
  quayIn : Tide := 0
  parts : List Part := []
  keyR : Option (BitVec 512) := none
  keyW : Option (BitVec 512) := none
  tags : Nat := 1
  committed : Option Nat := none
  status : BitVec 8 := 0
  written : Nat := 0
  deriving DecidableEq, Repr

/-- A flit in an insertion queue (R189), with the quay tags it holds and its class bound. -/
structure Ins where
  side : Side
  level : Nat
  flit : Flit
  tags : Nat := 0
  quayIn : Tide := 0
  boundNs : Nat := 0
  cls : Cls := .be
  inOrder : Bool := false
  reqId : Option Nat := none
  remTag : Option Nat := none
  deriving DecidableEq, Repr

/-- A remote write of a COPY_REMOTE or a remote dump, by its internal tag (R171). -/
structure RemWrite where
  tag : Nat
  req : Nat
  grans : Nat
  sentAt : Option Tide := none
  dump : Bool := false
  deriving DecidableEq, Repr

/-- What a COPY_REMOTE still waits for (R170). -/
structure CopyOut where
  req : Nat
  sd : Side
  f : Flit
  unsent : Nat
  pending : Nat
  sent : Nat := 0
  ok : Nat := 0
  firstBad : Option (BitVec 8) := none
  missing : Bool := false
  cls : Cls := .be
  quayIn : Tide := 0
  answered : Bool := false
  deriving DecidableEq, Repr

/-- The quay: what it has claimed, accepted and has to insert (R166 to R193). -/
structure Quay where
  pierId : BitVec 15 := 0
  idValid : Bool := false
  claimed : List (Side × Flit) := []
  claimedAt : List Tide := []
  claimAt : Tide := 0
  nextId : Nat := 0
  commits : Nat := 0
  reqs : List Req := []
  ins : List Ins := []
  rems : List RemWrite := []
  copies : List CopyOut := []
  resetting : Bool := false
  deriving DecidableEq, Repr

/-- The states of a charter (R216), in the order of `CH_ENT_CFG.STATE`. -/
inductive ChState where
  | free | active | suspended | closing
  deriving DecidableEq, Repr

/-- A charter (R194, R198, R201, R216): tokens are in 1/1,600. -/
structure Charter where
  st : ChState := .free
  desc : Option CharterDesc := none
  reason : BitVec 4 := 0
  tokens : Tbl Nat := []
  quayTok : Nat := 0
  rows : Tbl Nat := []
  rowRun : Tbl Nat := []
  opened : Nat := 0
  inb : BitVec 32 := 0
  dem : BitVec 32 := 0
  miss : BitVec 32 := 0
  panicCnt : BitVec 32 := 0
  runv : BitVec 32 := 0
  panicAt : List Nat := []
  missAt : Option Tide := none
  waiter : Option ManRef := none
  deriving DecidableEq, Repr

/-- The charter table, and what the passes of R213 to R215 need: a pass that runs, when capability last fell, the
charters that wait for their channels to wake (R262), those that a memory-side reset has closed and that will be
reopened, in their former order (R212), the throttle fraction and the quay share last used. -/
structure Charters where
  tab : Tbl Charter := []
  opens : Nat := 0
  passDue : Bool := false
  lastFall : Tide := 0
  waking : List (Nat × Option ManRef) := []
  reload : List (Nat × CharterDesc) := []
  lastF : Tbl Nat := []
  lastQ : Tbl Nat := []
  deriving DecidableEq, Repr

/-! ### Chapters 08, 09, 10: berths, channels and columns -/

/-- The berth states of R236, in the order of `BT_STATUS.STATE`. -/
inductive BerthState where
  | absent | filling | ready | throttled | fenced
  deriving DecidableEq, Repr

/-- An entry of the repeat-correction table (R290). -/
structure RepEnt where
  gran : Nat
  count : Nat
  first : Tide
  reported : Bool
  coil : Nat := 0xFF
  deriving DecidableEq, Repr

/-- An entry of a fence list (R279). -/
structure FenceEnt where
  gran : Nat
  src : BitVec 15
  tag : BitVec 16
  flow : BitVec 16
  deriving DecidableEq, Repr

/-- One berth. -/
structure Berth where
  st : BerthState := .absent
  fillGran : Nat := 0
  fillDone : Bool := false
  rep : Tbl (Option RepEnt) := []
  ueList : List Nat := []
  fence : List FenceEnt := []
  unusable : Bool := false
  deriving DecidableEq, Repr

/-- The power states of a channel (R259), in the order of `DC_CH_STATUS.PWR`. -/
inductive ChanPwr where
  | off | awake | entering | selfRefresh | exiting
  deriving DecidableEq, Repr

/-- One bank of a channel: its open row, whether a column command has used it, when its last commands issued (R246),
and the hits issued to its open row, with their levels, the latest 16 of each level (R250). -/
structure Bank where
  row : Option Nat := none
  used : Bool := false
  act : Option Tide := none
  pre : Option Tide := none
  rd : Option Tide := none
  wr : Option Tide := none
  refpb : Option Tide := none
  hits : List (Tide × Nat) := []
  deriving DecidableEq, Repr

/-- Where an access comes from: a part of a request, or the channel's own work. -/
inductive ASrc where
  | part (id i : Nat)
  | fill
  | scrub
  | cal
  | dump
  | refresh
  deriving DecidableEq, Repr

/-- One granule that waits to be read or written; `since` is when it came to wait. -/
structure Access where
  src : ASrc
  gran : Nat
  wr : Bool
  level : Nat
  age : Nat
  filter : Nat
  since : Tide := 0
  deriving DecidableEq, Repr

/-- The commands of R243 that the scheduler chooses among; `cal` is a slot that a stack calibration takes (R14), `resume`
the no-op of R275. -/
inductive CmdKind where
  | col | act | pre | refab | refpb | cal | resume
  deriving DecidableEq, Repr

/-- A command for an access. -/
structure Cmd where
  kind : CmdKind
  acc : Access
  deriving DecidableEq, Repr

/-- What a channel's timing rests on, as it stood before a command (R275). -/
structure ChanHist where
  banks : Tbl Bank := []
  acts : List (Tide × Nat) := []
  lastCol : Option (Tide × Bool) := none
  refab : Option Tide := none
  deriving DecidableEq, Repr

/-- One channel: its power state, its refresh account (R255 to R258), its command history (R246, R252, R254), what its
background activities have used lately, and the commands that a replay still has to send (R275).  `slots` are the command
slots taken, with those that the steps before `stepAt` skipped; a `…Mark` is what had gone when that activity began to
wait (R252, R253). -/
structure Chan where
  pwr : ChanPwr := .off
  forced : Bool := false
  step : Fin 8 := 0
  stepAt : Tide := 0
  stepDue : Option (Fin 8) := none
  slots : Nat := 0
  banks : Tbl Bank := []
  acts : List (Tide × Nat) := []
  lastCmd : Option Tide := none
  lastCol : Option (Tide × Bool) := none
  recent : List (Tide × Cmd × ChanHist) := []
  resume : Bool := false
  replayQ : List Cmd := []
  refab : Option Tide := none
  preab : Option Tide := none
  sre : Option Tide := none
  srx : Option Tide := none
  passAt : Option Tide := none
  passBank : Nat := 0
  owed : Nat := 0
  pulled : Bool := false
  refDue : Bool := false
  limitDue : Bool := false
  pullDue : Bool := false
  hot : Bool := false
  coolRounds : Nat := 0
  repay : Bool := false
  lastTick : Tide := 0
  tickIn : Nat := 6240
  lastBusy : Tide := 0
  nAct : Nat := 0
  nRd : Nat := 0
  nWr : Nat := 0
  nRefab : Nat := 0
  nRefpb : Nat := 0
  bgLog : List (Tide × ASrc × Nat) := []
  fillNext : Nat := 0
  fillAt : Tide := 0
  fillMark : Nat := 0
  scrubNext : Option Nat := none
  scrubAt : Tide := 0
  scrubMark : Nat := 0
  dumpMark : Nat := 0
  wakeDue : Bool := false
  calFails : Tbl Nat := []
  coilTemps : List Rat := []
  dramTemp : Option Rat := none
  calDue : BitVec 2 := 0
  calAt : Tide := 0
  calMark : Nat := 0
  calSlots : Nat := 0
  returning : Bool := false
  coilPass : Bool := false
  dramPass : Bool := false
  deriving DecidableEq, Repr

/-- One coil column (R265, R273, R274, R275, R283). -/
structure Column where
  failed : List Nat := []
  caFail : Option Nat := none
  calPass : Bool := false
  flight : Nat := 0
  ceNow : Tbl Nat := []
  ceLast : Tbl Nat := []
  replay : BitVec 32 := 0
  replays : List Tide := []
  remapDue : List Nat := []
  caTestDue : Bool := false
  deriving DecidableEq, Repr

/-- A die or stack reset (R280, R281). -/
inductive StackRst where
  | none
  | dieDrain (k : Fin 16) (m : ManRef)
  | dieHeld (k : Fin 16) (m : ManRef)
  | dieCal (k : Fin 16) (m : ManRef)
  | stackHeld (m : ManRef)
  | stackTest (m : ManRef)
  deriving DecidableEq, Repr

/-- The stack's common state; `rstAt` is when DRST or SRST went low (R280, R281). -/
structure Stack where
  dman : Bool := false
  rst : StackRst := .none
  rstAt : Tide := 0
  relay : BitVec 15 := 0
  fence : BitVec 64 := 0
  tsv : BitVec 16 := 0
  opens : List (Fin 16 × TsvLine × Nat) := []
  railFault : Bool := false
  deriving DecidableEq, Repr

/-! ### Chapter 11: stored data -/

/-- An error record (R294). -/
structure ErrRec where
  tide : Tide
  offset : Nat
  kind : BitVec 8
  berth : Nat
  coil : Nat
  count : Nat
  src : BitVec 15
  tag : BitVec 16
  flow : BitVec 16
  status : BitVec 8
  deriving DecidableEq, Repr

/-- A scrub pass and its summary so far (R297, R298). -/
structure Scrub where
  m : ManRef
  first : Nat
  last : Nat
  writeback : Bool
  poisonUe : Bool
  read : Nat := 0
  corrected : Nat := 0
  written : Nat := 0
  ue : Nat := 0
  poisoned : Nat := 0
  converted : Nat := 0
  skipped : Nat := 0
  cAddrs : List Nat := []
  uAddrs : List Nat := []
  pAddrs : List Nat := []
  deriving DecidableEq, Repr

/-- A manifest key (R313). -/
structure MKey where
  key : BitVec 256
  priv : BitVec 2
  srcLo : BitVec 15
  srcHi : BitVec 15
  deriving DecidableEq, Repr

/-- The key store (R313), `KS_DATA` and `KS_ATTR` (R335). -/
structure Keys where
  arrival : Option (BitVec 512) := none
  region : Tbl (Option (BitVec 512)) := []
  manifest : Tbl (Option MKey) := []
  wrap : Option (BitVec 256) := none
  ksData : Tbl Word := []
  ksAttr : Word := 0
  ksReject : Bool := false
  deriving DecidableEq, Repr

/-- A granule of an error record or of a local snapshot: whether the pier has written it since its channel's fill, and its
symbols where they are no longer what the pier wrote (R289, R297, R301). -/
structure OwnNote where
  written : Bool := false
  syms : List Byte := []
  deriving DecidableEq, Repr

/-- Protection: the error ring, the pier's own granules and the scrub (R289, R295 to R298). -/
structure Prot where
  ring : Tbl (Option ErrRec) := []
  wr : BitVec 13 := 0
  rd : BitVec 13 := 0
  own : Tbl OwnNote := []
  scrub : Option Scrub := none
  deriving DecidableEq, Repr

/-! ### Chapter 12: manifests and receipts -/

/-- The state of a receipt slot (R320), in the order of its codes. -/
inductive SlotState where
  | empty | pending | done | expired
  deriving DecidableEq, Repr

/-- One receipt slot (R320); `touched` are its granules that the pier has written since the berth last looked (R291),
`stored` the symbols of those whose stored copy is no longer what the pier wrote (R289, R297). -/
structure Slot where
  st : SlotState := .empty
  opcode : BitVec 16 := 0
  seq : BitVec 32 := 0
  status : BitVec 8 := 0
  readAgain : Bool := false
  unseen : Bool := false
  tDecide : Tide := 0
  tDone : Tide := 0
  reason : BitVec 8 := 0
  place : BitVec 16 := 0
  need : BitVec 32 := 0
  have_ : BitVec 32 := 0
  tag : BitVec 128 := 0
  result : List Byte := []
  touched : BitVec 16 := 0
  stored : Tbl (List Byte) := []
  deriving DecidableEq, Repr

/-- One receipt ring (R317, R319). -/
structure Ring where
  bound : Bool := false
  src : BitVec 15 := 0
  last : BitVec 32 := 0
  deriving DecidableEq, Repr

/-- Which transport brought a manifest (R310, R312). -/
structure Origin where
  side : Option Side := none
  path : Path := .i3c
  src : BitVec 15 := 0x7FFF
  tag : BitVec 16 := 0
  flow : BitVec 16 := 0
  quiet : Bool := false
  deriving DecidableEq, Repr

/-- An accepted manifest that has not completed (R318). -/
structure Running where
  m : ManRef
  opcode : BitVec 16
  origin : Origin
  params : List Byte
  deriving DecidableEq, Repr

/-- A reassembly buffer (R311); `since` is when its first fragment came. -/
structure Reasm where
  side : Side
  src : BitVec 15
  tag : BitVec 16
  flow : BitVec 16
  length : BitVec 16
  count : Nat
  dest : BitVec 15
  got : List (Nat × List Byte)
  since : Tide := 0
  deriving DecidableEq, Repr

/-- One mailbox (R312). -/
structure Mbox where
  data : Tbl Byte := []
  st : BitVec 2 := 0
  status : BitVec 8 := 0
  deriving DecidableEq, Repr

/-- An open firmware update; `at_` is when its last manifest came (R332). -/
structure FwSession where
  ring : Fin 64
  slotB : Bool
  total : Nat
  got : Nat := 0
  at_ : Tide := 0
  deriving DecidableEq, Repr

/-- The flash work an FW_UPDATE phase waits for (R332). -/
inductive FlashJob where
  | erase (m : ManRef) (slotB : Bool) (total : Nat)
  | program (m : ManRef) (offset : Nat) (bytes : List Byte)
  | directory (m : ManRef) (slotB : Bool) (version : BitVec 32) (security : BitVec 8)
  deriving DecidableEq, Repr

/-- One boot directory copy in flash (R330). -/
structure DirCopy where
  slotB : Bool
  generation : BitVec 32
  deriving DecidableEq, Repr

/-- Manifests: rings, slots, mailboxes, firmware (R308 to R335).  An image slot is none until the pier erases it: it holds
what the board put there; `wrote0` and `wrote1` say that the pier has written that copy of the directory. -/
structure Manifests where
  arrival : BitVec 32 := 0
  rings : Tbl Ring := []
  slots : Tbl Slot := []
  running : List Running := []
  reasm : List Reasm := []
  mbI3c : Mbox := {}
  mbJtag : Mbox := {}
  latch : Tbl (List Byte) := []
  authBurst : List Tide := []
  session : Option FwSession := none
  job : Option FlashJob := none
  flashA : Option (Tbl Byte) := none
  flashB : Option (Tbl Byte) := none
  dir0 : Option DirCopy := none
  dir1 : Option DirCopy := none
  wrote0 : Bool := false
  wrote1 : Bool := false
  bootSlot : Option Bool := none
  noImage : Bool := false
  reboot : Bool := false
  fwVersion : Word := 0
  secVersion : BitVec 8 := 0
  secMin : BitVec 8 := 0
  deriving DecidableEq, Repr

/-! ### Chapter 15: heat -/

/-- The states of a sensor (R401), in the order of `HT_SENSOR.STATE`. -/
inductive SensState where
  | healthy | failed | excluded | resting
  deriving DecidableEq, Repr

/-- One temperature sensor (R389 to R391, R401); readings in 1/16 °C, powers in W. -/
structure Sensor where
  st : SensState := .healthy
  cause : BitVec 2 := 0
  floor : BitVec 3 := 0
  stuck : Nat := 0
  last : Option Int := none
  hot : Option Int := none
  deriving DecidableEq, Repr

/-- One layer of the thermal model (R384 to R393); `rise` in °C, the others in 1/16 °C. -/
structure Layer where
  sensor : Int := 0
  model : Rat := 0
  used : Rat := 0
  rise : Rat := 0
  pows : List Rat := []
  therm : Fin 8 := 0
  step : Fin 8 := 0
  floor : Fin 8 := 0
  below : Nat := 0
  diverge : Bool := false
  divUp : Nat := 0
  divDown : Nat := 0
  modelOnly : Bool := false
  latch : Bool := false
  noFall : Bool := false
  resting : Bool := false
  ref2x : Bool := false
  deriving DecidableEq, Repr

/-- The constants of the thermal model (R384): heat capacities in J/°C, resistances in °C/W. -/
structure Therm where
  c0 : Rat := 12 / 10
  c : Rat := 15 / 100
  rs : Rat := 1 / 100
  rsh : Rat := 30 / 100
  rtop : Rat := 10 / 100
  deriving DecidableEq, Repr

/-- A trip record (R438); `full` is its record commit. -/
structure Trip where
  tide : Tide
  analogue : Bool
  incomplete : Bool
  sensor : BitVec 8
  layer : Nat
  acked : Bool
  full : Bool
  reading : Int := 0
  model : Int := 0
  used : Int := 0
  power : Nat := 0
  steps : List (Fin 8) := []
  deriving DecidableEq, Repr

/-- Heat (R380 to R401); `capHist` in 10 µW, `trim` the bandgap's (R383). -/
structure Heat where
  ch : Tbl (Int × Bool) := []
  sensors : Tbl Sensor := []
  layers : Tbl Layer := []
  therm : Therm := {}
  tb : Rat := 0
  round : Word := 0
  roundAt : Tide := 0
  milliwatt : Nat := 0
  capStep : Fin 8 := 0
  capHist : List Nat := []
  capLow : Nat := 0
  seedDue : Bool := true
  seedAt : Option Tide := none
  bandgapHeld : Bool := false
  trim : Int := 0
  report : List Byte := []
  tripRec : Option Trip := none
  tripMark : Bool := false
  frozenTrip : Bool := false
  deriving DecidableEq, Repr

/-! ### Chapter 16: survey and calibration -/

/-- A march failure log (R403, R424): its entries, overflow and signature verdict. -/
structure FailLog where
  entries : List Word := []
  overflow : Bool := false
  sigFail : Bool := false
  deriving DecidableEq, Repr

/-- A SURVEY_RUN in progress (R414). -/
structure SurveyRun where
  m : ManRef
  scope : BitVec 8
  mask : BitVec 64
  deriving DecidableEq, Repr

/-- A CAL_RUN in progress (R423): units still to run, passed, failed. -/
structure CalRun where
  m : ManRef
  cls : Nat
  todo : BitVec 64
  passed : BitVec 64
  failed : BitVec 64
  deriving DecidableEq, Repr

/-- Survey (R402 to R418); `slowed` is the halved test rate of R373, `tested` says that the power group under test has had
its test, `noPower` which domains failed to power (R370). -/
structure Survey where
  kind : BitVec 2 := 0
  busy : Bool := false
  group : BitVec 3 := 0
  svOk : Bool := false
  sample : BitVec 5 := 0
  runMs : Word := 0
  failLane : BitVec 32 := 0
  failCh : BitVec 64 := 0
  failMisc : BitVec 8 := 0
  dramRepairs : List Word := []
  sramRepairs : List Word := []
  logs : Tbl FailLog := []
  run : Option SurveyRun := none
  cal : List CalRun := []
  slowed : Bool := false
  tested : Bool := false
  noPower : BitVec 48 := 0
  scanEntered : Bool := false
  zeroOk : Bool := false
  inScan : Bool := false
  logDisabled : Bool := false
  deriving DecidableEq, Repr

/-! ### Chapter 17: tallies and the logbook -/

/-- One tally block (R426). -/
structure Tally where
  cyc : BitVec 64 := 0
  cnt : Tbl (BitVec 48) := []
  deriving DecidableEq, Repr

/-- The shadow of one tally block at a strobe (R429, R430). -/
structure Shadow where
  cyc : BitVec 64 := 0
  cnt : Tbl (BitVec 48) := []
  ovf : BitVec 8 := 0
  sels : List (BitVec 16) := []
  on : Bool := true
  deriving DecidableEq, Repr

/-- Tallies, dumps and bandwidth windows (R425 to R432). -/
structure Tallies where
  blocks : Tbl Tally := []
  shadows : Tbl Shadow := []
  cfg : Option DumpParams := none
  nextCfg : Option DumpParams := none
  pos : Nat := 0
  seqNext : Word := 0
  seqLast : Word := 0
  strobe : Tide := 0
  periodAt : Tide := 0
  winAt : Tide := 0
  imageRemote : Bool := false
  busy : Bool := false
  skips : BitVec 16 := 0
  noRouteLogged : Bool := false
  failAt : Option Tide := none
  winUs : BitVec 20 := 0x3E8
  bytes : Tbl Nat := []
  last : Tbl Nat := []
  peak : Tbl Nat := []
  winOff : List Nat := []
  image : List Byte := []
  imageAt : Nat := 0
  left : List Nat := []
  dump : Tbl Byte := []
  deriving DecidableEq, Repr

/-- An event record (R435). -/
structure Event where
  tide : Tide
  code : BitVec 16
  unit : BitVec 16
  detail : List (BitVec 16) := []
  repeats : BitVec 16 := 0
  st : PierState
  deriving DecidableEq, Repr

/-- How often an event code and unit has been suppressed since its last record (R437). -/
structure Suppress where
  code : BitVec 16
  unit : BitVec 16
  at_ : Tide
  count : BitVec 16
  deriving DecidableEq, Repr

/-- What a chart holds (R415): its header, with whether its CRC-32 fits its bytes and whether the commit mark is there, and
its content (DESIGN CHOICE: fields in place of its bytes; log 121). -/
structure Chart where
  magic : BitVec 32 := 0x54524843
  stepping : BitVec 8 := 0xA1
  die : BitVec 128
  age : BitVec 4
  generation : BitVec 32
  crcOk : Bool
  commit : Bool
  laneMap : BitVec 32
  chMap : BitVec 64
  domMap : BitVec 48
  dramRepairs : List Word
  sramRepairs : List Word
  coils : Tbl (List Nat)
  caCoils : Tbl (Option Nat)
  tsv : BitVec 16
  opens : List (Fin 16 × TsvLine × Nat)
  flights : Tbl Nat
  therm : Therm
  comp : Tbl Word
  floors : Tbl (BitVec 3)
  deriving DecidableEq, Repr

/-- An event that waits until the harbourmaster's clock runs (R347). -/
structure DueEvent where
  code : BitVec 16
  unit : BitVec 16
  detail : List (BitVec 16) := []
  deriving DecidableEq, Repr

/-- The logbook (R433 to R441): event, trip and chart areas, the write counts of its 16 slots, and the events that the
harbourmaster has still to write. -/
structure Logbook where
  events : Tbl (Option Event) := []
  evtNext : Word := 0
  suppress : List Suppress := []
  trips : Tbl (Option Trip) := []
  tripNext : Word := 0
  charts : Tbl (Option Chart) := []
  gov : Option Nat := none
  wear : Tbl Nat := []
  writing : Option Nat := none
  due : List DueEvent := []
  deriving DecidableEq, Repr

/-! ### The whole -/

/-- Everything the pier holds but the stored symbols and the queue of commands.  `fresh` is the model's own
counter, which picks the next free value (`Sys2Proof/Config.lean`). -/
structure Block where
  fresh : Nat := 0
  csr : Tbl Word := []
  cnt : Tbl Nat := []
  sel : Tbl Word := []
  hold : Tbl Word := []
  rdData : Tbl Word := []
  jtagDr : BitVec 57 := 0
  frzOut : List Bool := []
  pins : Pins := {}
  pw : Power := {}
  ck : Clocks := {}
  lanes : Tbl Lane := []
  west : SideSt := {}
  east : SideSt := {}
  fwWE : Fairway := {}
  fwEW : Fairway := {}
  qy : Quay := {}
  chs : Charters := {}
  berths : Tbl Berth := []
  chans : Tbl Chan := []
  cols : Tbl Column := []
  stk : Stack := {}
  keys : Keys := {}
  prot : Prot := {}
  mf : Manifests := {}
  heat : Heat := {}
  sv : Survey := {}
  tl : Tallies := {}
  lg : Logbook := {}
  deriving DecidableEq, Repr

/-- The state of the pier: the queue of waiting commands, first in, first out; the stored symbols of the stack
(72 per granule, R284); and the block, which is the rest.  A command that cannot change stored data is a function
of the block alone. -/
structure State where
  pending : List Instr := []
  mem : List Host.Cell := []
  blk : Block := {}
  deriving DecidableEq, Repr

/-- The machine right after reset: the rising edge of PORST_N with the rails in order, arrival step 1
running, every register at the value of R451, memory with nothing listed (R6, R364). -/
def State.reset : State := {}

/-! ### How a step can stop -/

/-- Why the pier stops: no command of this model ends in a fault on ordinary data. -/
inductive Fault where
  /-- Raised by COMMAND_ISSUE when the access it picks lies outside the 2^31 granules of the 128 GiB (R15: no such
  address exists); no request that the quay accepts leads there.  Safe: the run stops. -/
  | noSuchGranule
  deriving DecidableEq, Repr

/-- Why the model refuses a command. -/
inductive Refusal where
  /-- The dispatcher's answer for a row that has no meaning yet.  Safe: the run stops. -/
  | notModelled (mnemonic : String)
  deriving DecidableEq, Repr

end Sys2Proof.Machine
end

