-- ==== Sys2Proof/Machine/Table.lean ====
section
/-! DEFINITION. Sparse tables in canonical form, and the stored symbols of the stack as such a table.
A table lists (key, value) pairs with strictly rising keys and never lists the value that an unlisted key reads as,
so that equal contents are equal data. -/

namespace Sys2Proof.Machine

open Sys2Proof

/-- What key `k` of a table holds; `d k` where it is not listed. -/
def tget (d : Nat → α) : Tbl α → Nat → α
  | [], k => d k
  | (j, v) :: t, k => if j = k then v else tget d t k

/-- The table with `k` listed as `v`, keys kept rising. -/
def tput : Tbl α → Nat → α → Tbl α
  | [], k, v => [(k, v)]
  | (j, w) :: t, k, v =>
    if k < j then (k, v) :: (j, w) :: t
    else if k = j then (k, v) :: t
    else (j, w) :: tput t k v

/-- The table with `k` unlisted. -/
def tdel (t : Tbl α) (k : Nat) : Tbl α := t.filter fun e => e.1 != k

/-- The table after a write of `v` at `k`: a value equal to what an unlisted key reads as is removed. -/
def tset [DecidableEq α] (d : Nat → α) (t : Tbl α) (k : Nat) (v : α) : Tbl α :=
  if v = d k then tdel t k else tput t k v

/-- The table after `f` is applied to what `k` holds. -/
def tmod [DecidableEq α] (d : Nat → α) (t : Tbl α) (k : Nat) (f : α → α) : Tbl α :=
  tset d t k (f (tget d t k))

/-- The keys of a table rise strictly. -/
def tsorted : Tbl α → Bool
  | [] => true
  | [_] => true
  | (j, _) :: (k, w) :: t => decide (j < k) && tsorted ((k, w) :: t)

/-- The canonical form. -/
def twf [DecidableEq α] (d : Nat → α) (t : Tbl α) : Bool :=
  tsorted t && t.all fun e => decide (e.2 ≠ d e.1)

/-! ### The stored symbols -/

/-- The symbols of one granule: 64 data, 8 check (R284). -/
abbrev symsPerGranule : Nat := 72

/-- The granules of the 128 GiB (R15). -/
abbrev granules : Nat := 2 ^ 31

/-- What a symbol that nothing has written reads as: that of a zero granule in the zero form (R286), whose
check symbols at 64 to 66 are inverted by 0x3C.  DESIGN CHOICE (log 3). -/
def Memory.unlisted (a : Nat) : Byte :=
  let s := a % symsPerGranule
  if 64 ≤ s ∧ s ≤ 66 then 0x3C else 0

/-- The canonical form of the memory. -/
def Memory.wf (m : List Host.Cell) : Bool := twf Memory.unlisted m

/-- One stored symbol. -/
def Memory.read (m : List Host.Cell) (a : Nat) : Byte := tget Memory.unlisted m a

/-- A write of one stored symbol. -/
def Memory.write (m : List Host.Cell) (a : Nat) (v : Byte) : List Host.Cell := tset Memory.unlisted m a v

/-- The symbols from address `a` on. -/
def Memory.readN (m : List Host.Cell) (a : Nat) : Nat → List Byte
  | 0 => []
  | n + 1 => Memory.read m a :: Memory.readN m (a + 1) n

/-- A write of consecutive symbols from address `a` on. -/
def Memory.writeN (m : List Host.Cell) (a : Nat) : List Byte → List Host.Cell
  | [] => m
  | v :: vs => Memory.writeN (Memory.write m a v) (a + 1) vs

/-- The 72 stored symbols of a granule, in coil order (R284). -/
def Memory.readGranule (m : List Host.Cell) (g : Nat) : List Byte :=
  Memory.readN m (g * symsPerGranule) symsPerGranule

/-- A granule's 72 symbols written. -/
def Memory.writeGranule (m : List Host.Cell) (g : Nat) (syms : List Byte) : List Host.Cell :=
  Memory.writeN m (g * symsPerGranule) (syms.take symsPerGranule)

end Sys2Proof.Machine
end

