-- ==== Sys2Proof/Machine/CsrMap.lean ====
section
/-! DEFINITION. The register space: offsets (R451), the bits that the register file stores with their access
codes and reset values (the chapters' register tables), and the domain each offset is held in (R442).
Bits that are not stored are computed on a read (`Sys2Proof/Machine/CsrRead.lean`). -/

namespace Sys2Proof.Machine

open Sys2Proof

namespace Off

/-- `HM_ID` (R451). -/
abbrev hmId : Nat := 0x000000
/-- `HM_STATE` (R451). -/
abbrev hmState : Nat := 0x000004
/-- `HM_FW_VER` (R451). -/
abbrev hmFwVer : Nat := 0x000008
/-- `HM_SEC_VER` (R451). -/
abbrev hmSecVer : Nat := 0x00000c
/-- `HM_DIE_ID0` (R451). -/
abbrev hmDieId0 : Nat := 0x000010
/-- `MF_CTRL` (R451). -/
abbrev mfCtrl : Nat := 0x001000
/-- `MF_STATUS` (R451). -/
abbrev mfStatus : Nat := 0x001004
/-- `MF_ARRIVAL` (R451). -/
abbrev mfArrival : Nat := 0x001008
/-- `MF_ALARM` (R451). -/
abbrev mfAlarm : Nat := 0x00100c
/-- `MF_ALARM_EN` (R451). -/
abbrev mfAlarmEn : Nat := 0x001010
/-- `MF_AUTH_FAIL` (R451). -/
abbrev mfAuthFail : Nat := 0x001020
/-- `MF_FRAG_DROP` (R451). -/
abbrev mfFragDrop : Nat := 0x001024
/-- `MF_ACCEPTED` (R451). -/
abbrev mfAccepted : Nat := 0x001028
/-- `MF_REFUSED` (R451). -/
abbrev mfRefused : Nat := 0x00102c
/-- `MF_RING_SEL` (R451). -/
abbrev mfRingSel : Nat := 0x001040
/-- `MF_RING_SRC` (R451). -/
abbrev mfRingSrc : Nat := 0x001044
/-- `MF_RING_LAST` (R451). -/
abbrev mfRingLast : Nat := 0x001048
/-- `MF_MBOX_DOOR` (R451). -/
abbrev mfMboxDoor : Nat := 0x001100
/-- `MF_MBOX_STATUS` (R451). -/
abbrev mfMboxStatus : Nat := 0x001104
/-- `MF_RCPT_SEL` (R451). -/
abbrev mfRcptSel : Nat := 0x001108
/-- `MF_RCPT_RING` (R451). -/
abbrev mfRcptRing : Nat := 0x00110c
/-- `MF_MBOX_DATA` (R451). -/
abbrev mfMboxData : Nat := 0x002000
/-- `MF_RCPT_DATA` (R451). -/
abbrev mfRcptData : Nat := 0x004000
/-- `CK_CTRL` (R451). -/
abbrev ckCtrl : Nat := 0x010000
/-- `CK_STATUS` (R451). -/
abbrev ckStatus : Nat := 0x010004
/-- `CK_RELOCK` (R451). -/
abbrev ckRelock : Nat := 0x010008
/-- `CK_ALARM` (R451). -/
abbrev ckAlarm : Nat := 0x01000c
/-- `CK_ALARM_EN` (R451). -/
abbrev ckAlarmEn : Nat := 0x010010
/-- `CK_RESET_CAUSE` (R451). -/
abbrev ckResetCause : Nat := 0x010014
/-- `CK_RESET_CTRL` (R451). -/
abbrev ckResetCtrl : Nat := 0x010018
/-- `CK_TIDE_LO` (R451). -/
abbrev ckTideLo : Nat := 0x010020
/-- `CK_ROOT_FRAC` (R451). -/
abbrev ckRootFrac : Nat := 0x010034
/-- `CK_XTAL_COMP0` (R451). -/
abbrev ckXtalComp0 : Nat := 0x010040
/-- `PW_CTRL` (R451). -/
abbrev pwCtrl : Nat := 0x020000
/-- `PW_STATUS` (R451). -/
abbrev pwStatus : Nat := 0x020004
/-- `PW_ON_LO` (R451). -/
abbrev pwOnLo : Nat := 0x020008
/-- `PW_FAIL_LO` (R451). -/
abbrev pwFailLo : Nat := 0x020010
/-- `PW_ALARM` (R451). -/
abbrev pwAlarm : Nat := 0x020018
/-- `PW_ALARM_EN` (R451). -/
abbrev pwAlarmEn : Nat := 0x02001c
/-- `PW_T_HARBOUR` (R451). -/
abbrev pwTHarbour : Nat := 0x020020
/-- `PW_T_OPEN` (R451). -/
abbrev pwTOpen : Nat := 0x020024
/-- `PW_T_DEPART` (R451). -/
abbrev pwTDepart : Nat := 0x020028
/-- `PW_DOM` (R451). -/
abbrev pwDom : Nat := 0x020100
/-- `LN_CTRL` (R451). -/
abbrev lnCtrl : Nat := 0x040000
/-- `LN_STATUS` (R451). -/
abbrev lnStatus : Nat := 0x040004
/-- `LN_TX_FFE` (R451). -/
abbrev lnTxFfe : Nat := 0x040010
/-- `LN_TX_DRV` (R451). -/
abbrev lnTxDrv : Nat := 0x040014
/-- `LN_RX_CTLE` (R451). -/
abbrev lnRxCtle : Nat := 0x040020
/-- `LN_RX_FFE` (R451). -/
abbrev lnRxFfe : Nat := 0x040024
/-- `LN_RX_DFE` (R451). -/
abbrev lnRxDfe : Nat := 0x040028
/-- `LN_EC_STATUS` (R451). -/
abbrev lnEcStatus : Nat := 0x040034
/-- `LN_PRBS_CTRL` (R451). -/
abbrev lnPrbsCtrl : Nat := 0x040040
/-- `LN_PRBS_STATUS` (R451). -/
abbrev lnPrbsStatus : Nat := 0x040044
/-- `LN_PRBS_ERR_LO` (R451). -/
abbrev lnPrbsErrLo : Nat := 0x040048
/-- `LN_PRBS_BITS_LO` (R451). -/
abbrev lnPrbsBitsLo : Nat := 0x040050
/-- `LN_SYM_ERR_LO` (R451). -/
abbrev lnSymErrLo : Nat := 0x040060
/-- `LN_FEC_HIST0` (R451). -/
abbrev lnFecHist0 : Nat := 0x040080
/-- `LN_ALARM` (R451). -/
abbrev lnAlarm : Nat := 0x0400d0
/-- `LN_ALARM_EN` (R451). -/
abbrev lnAlarmEn : Nat := 0x0400d4
/-- `LN_SIDE_SSC` (R451). -/
abbrev lnSideSsc : Nat := 0x044000
/-- `LN_SIDE_STATUS` (R451). -/
abbrev lnSideStatus : Nat := 0x044004
/-- `LN_SIDE_ALARM` (R451). -/
abbrev lnSideAlarm : Nat := 0x044008
/-- `FW_CTRL` (R451). -/
abbrev fwCtrl : Nat := 0x080000
/-- `FW_STATUS` (R451). -/
abbrev fwStatus : Nat := 0x080004
/-- `FW_ALARM` (R451). -/
abbrev fwAlarm : Nat := 0x080008
/-- `FW_ALARM_EN` (R451). -/
abbrev fwAlarmEn : Nat := 0x08000c
/-- `FW_LAT` (R451). -/
abbrev fwLat : Nat := 0x080010
/-- `FW_THRU_LO` (R451). -/
abbrev fwThruLo : Nat := 0x080100
/-- `FW_BAD_LO` (R451). -/
abbrev fwBadLo : Nat := 0x080108
/-- `FW_STOMP_IN_LO` (R451). -/
abbrev fwStompInLo : Nat := 0x080110
/-- `FW_CLAIM_LO` (R451). -/
abbrev fwClaimLo : Nat := 0x080118
/-- `FW_INSERT_LO` (R451). -/
abbrev fwInsertLo : Nat := 0x080120
/-- `FW_IDLE_DEL_LO` (R451). -/
abbrev fwIdleDelLo : Nat := 0x080128
/-- `FW_FILL_OMIT_LO` (R451). -/
abbrev fwFillOmitLo : Nat := 0x080130
/-- `FW_DROP_LO` (R451). -/
abbrev fwDropLo : Nat := 0x080138
/-- `FW_BAD_INT_LO` (R451). -/
abbrev fwBadIntLo : Nat := 0x080140
/-- `FW_STANDIN_OVF` (R451). -/
abbrev fwStandinOvf : Nat := 0x080148
/-- `QY_CTRL` (R451). -/
abbrev qyCtrl : Nat := 0x0c0000
/-- `QY_STATUS` (R451). -/
abbrev qyStatus : Nat := 0x0c0004
/-- `QY_PIER_ID` (R451). -/
abbrev qyPierId : Nat := 0x0c0008
/-- `QY_SHARE` (R451). -/
abbrev qyShare : Nat := 0x0c000c
/-- `QY_CREDIT_BAL` (R451). -/
abbrev qyCreditBal : Nat := 0x0c0010
/-- `QY_LIMIT` (R451). -/
abbrev qyLimit : Nat := 0x0c0014
/-- `QY_CSR_SRC` (R451). -/
abbrev qyCsrSrc : Nat := 0x0c0018
/-- `QY_TAGS` (R451). -/
abbrev qyTags : Nat := 0x0c001c
/-- `QY_ALARM` (R451). -/
abbrev qyAlarm : Nat := 0x0c0020
/-- `QY_ALARM_EN` (R451). -/
abbrev qyAlarmEn : Nat := 0x0c0024
/-- `QY_ACCEPT_LO` (R451). -/
abbrev qyAcceptLo : Nat := 0x0c0100
/-- `QY_REF_DENIED_LO` (R451). -/
abbrev qyRefDeniedLo : Nat := 0x0c0108
/-- `QY_REF_PARAM_LO` (R451). -/
abbrev qyRefParamLo : Nat := 0x0c0110
/-- `QY_REF_BUSY_LO` (R451). -/
abbrev qyRefBusyLo : Nat := 0x0c0118
/-- `QY_BE_CAP_LO` (R451). -/
abbrev qyBeCapLo : Nat := 0x0c0120
/-- `QY_LATE_LO` (R451). -/
abbrev qyLateLo : Nat := 0x0c0128
/-- `QY_CPL_DISCARD_LO` (R451). -/
abbrev qyCplDiscardLo : Nat := 0x0c0130
/-- `QY_UNKNOWN_LO` (R451). -/
abbrev qyUnknownLo : Nat := 0x0c0138
/-- `QY_ROUTE` (R451). -/
abbrev qyRoute : Nat := 0x0c1000
/-- `QY_RGN_BASE_LO` (R451). -/
abbrev qyRgnBaseLo : Nat := 0x0c2000
/-- `QY_RGN_BASE_HI` (R451). -/
abbrev qyRgnBaseHi : Nat := 0x0c2004
/-- `QY_RGN_LIM_LO` (R451). -/
abbrev qyRgnLimLo : Nat := 0x0c2008
/-- `QY_RGN_LIM_HI` (R451). -/
abbrev qyRgnLimHi : Nat := 0x0c200c
/-- `QY_RGN_SRC` (R451). -/
abbrev qyRgnSrc : Nat := 0x0c2010
/-- `QY_RGN_PERM` (R451). -/
abbrev qyRgnPerm : Nat := 0x0c2014
/-- `BT_CTRL` (R451). -/
abbrev btCtrl : Nat := 0x100000
/-- `BT_STATUS` (R451). -/
abbrev btStatus : Nat := 0x100004
/-- `BT_FILL` (R451). -/
abbrev btFill : Nat := 0x100008
/-- `BT_LAT` (R451). -/
abbrev btLat : Nat := 0x10000c
/-- `BT_ALARM` (R451). -/
abbrev btAlarm : Nat := 0x100010
/-- `BT_ALARM_EN` (R451). -/
abbrev btAlarmEn : Nat := 0x100014
/-- `BT_PARTS_LO` (R451). -/
abbrev btPartsLo : Nat := 0x100100
/-- `BT_RD_GRAN_LO` (R451). -/
abbrev btRdGranLo : Nat := 0x100108
/-- `BT_WR_GRAN_LO` (R451). -/
abbrev btWrGranLo : Nat := 0x100110
/-- `BT_ATOMIC_LO` (R451). -/
abbrev btAtomicLo : Nat := 0x100118
/-- `BT_POISONED_LO` (R451). -/
abbrev btPoisonedLo : Nat := 0x100120
/-- `BT_LOCK_WAIT_LO` (R451). -/
abbrev btLockWaitLo : Nat := 0x100128
/-- `BT_GATED_LO` (R451). -/
abbrev btGatedLo : Nat := 0x100130
/-- `CH_CTRL` (R451). -/
abbrev chCtrl : Nat := 0x140000
/-- `CH_STATUS` (R451). -/
abbrev chStatus : Nat := 0x140004
/-- `CH_CAP_CHAN` (R451). -/
abbrev chCapChan : Nat := 0x140008
/-- `CH_CAP_QUAY` (R451). -/
abbrev chCapQuay : Nat := 0x14000c
/-- `CH_TAGS_RSV` (R451). -/
abbrev chTagsRsv : Nat := 0x140010
/-- `CH_ALARM` (R451). -/
abbrev chAlarm : Nat := 0x140014
/-- `CH_ALARM_EN` (R451). -/
abbrev chAlarmEn : Nat := 0x140018
/-- `CH_SEL` (R451). -/
abbrev chSel : Nat := 0x140020
/-- `CH_ENT_CFG` (R451). -/
abbrev chEntCfg : Nat := 0x140024
/-- `CH_ENT_BW` (R451). -/
abbrev chEntBw : Nat := 0x140028
/-- `CH_ENT_FLOW` (R451). -/
abbrev chEntFlow : Nat := 0x14002c
/-- `CH_ENT_SRC` (R451). -/
abbrev chEntSrc : Nat := 0x140030
/-- `CH_ENT_BERTH_LO` (R451). -/
abbrev chEntBerthLo : Nat := 0x140034
/-- `CH_ENT_DEPTH` (R451). -/
abbrev chEntDepth : Nat := 0x14003c
/-- `CH_ENT_INB` (R451). -/
abbrev chEntInb : Nat := 0x140040
/-- `CH_ENT_DEM` (R451). -/
abbrev chEntDem : Nat := 0x140044
/-- `CH_ENT_MISS` (R451). -/
abbrev chEntMiss : Nat := 0x140048
/-- `CH_ENT_PANIC` (R451). -/
abbrev chEntPanic : Nat := 0x14004c
/-- `CH_ENT_RUNV` (R451). -/
abbrev chEntRunv : Nat := 0x140050
/-- `CH_BERTH` (R451). -/
abbrev chBerth : Nat := 0x140100
/-- `DC_CTRL` (R451). -/
abbrev dcCtrl : Nat := 0x150000
/-- `DC_SLEEP_LO` (R451). -/
abbrev dcSleepLo : Nat := 0x150008
/-- `DC_HOT_LO` (R451). -/
abbrev dcHotLo : Nat := 0x150010
/-- `DC_ALARM` (R451). -/
abbrev dcAlarm : Nat := 0x150018
/-- `DC_ALARM_EN` (R451). -/
abbrev dcAlarmEn : Nat := 0x15001c
/-- `DC_CH_CTRL` (R451). -/
abbrev dcChCtrl : Nat := 0x151000
/-- `DC_CH_STATUS` (R451). -/
abbrev dcChStatus : Nat := 0x151004
/-- `DC_CH_REF` (R451). -/
abbrev dcChRef : Nat := 0x151008
/-- `DC_ACT_LO` (R451). -/
abbrev dcActLo : Nat := 0x151010
/-- `DC_HIT_LO` (R451). -/
abbrev dcHitLo : Nat := 0x151018
/-- `DC_REF_POST_LO` (R451). -/
abbrev dcRefPostLo : Nat := 0x151020
/-- `DC_SR_ENTRY_LO` (R451). -/
abbrev dcSrEntryLo : Nat := 0x151028
/-- `ST_CTRL` (R451). -/
abbrev stCtrl : Nat := 0x160000
/-- `ST_STATUS` (R451). -/
abbrev stStatus : Nat := 0x160004
/-- `ST_RELAY` (R451). -/
abbrev stRelay : Nat := 0x160008
/-- `ST_FENCE_CH_LO` (R451). -/
abbrev stFenceChLo : Nat := 0x16000c
/-- `ST_ALARM` (R451). -/
abbrev stAlarm : Nat := 0x160014
/-- `ST_ALARM_EN` (R451). -/
abbrev stAlarmEn : Nat := 0x160018
/-- `ST_FENCE_SEL` (R451). -/
abbrev stFenceSel : Nat := 0x160020
/-- `ST_FENCE_ADDR` (R451). -/
abbrev stFenceAddr : Nat := 0x160024
/-- `ST_FENCE_ID` (R451). -/
abbrev stFenceId : Nat := 0x160028
/-- `ST_FENCE_FLOW` (R451). -/
abbrev stFenceFlow : Nat := 0x16002c
/-- `ST_FENCE_CNT` (R451). -/
abbrev stFenceCnt : Nat := 0x160030
/-- `ST_TSV` (R451). -/
abbrev stTsv : Nat := 0x160034
/-- `ST_COL_STATUS` (R451). -/
abbrev stColStatus : Nat := 0x161000
/-- `ST_COL_REMAP` (R451). -/
abbrev stColRemap : Nat := 0x161004
/-- `ST_COL_FLIGHT` (R451). -/
abbrev stColFlight : Nat := 0x161008
/-- `ST_COL_CE` (R451). -/
abbrev stColCe : Nat := 0x16100c
/-- `ST_COL_REPLAY` (R451). -/
abbrev stColReplay : Nat := 0x161010
/-- `HT_CTRL` (R451). -/
abbrev htCtrl : Nat := 0x180000
/-- `HT_STATUS` (R451). -/
abbrev htStatus : Nat := 0x180004
/-- `HT_ALARM` (R451). -/
abbrev htAlarm : Nat := 0x180008
/-- `HT_ALARM_EN` (R451). -/
abbrev htAlarmEn : Nat := 0x18000c
/-- `HT_PCAP` (R451). -/
abbrev htPcap : Nat := 0x180010
/-- `HT_PWR` (R451). -/
abbrev htPwr : Nat := 0x180014
/-- `HT_ROUND` (R451). -/
abbrev htRound : Nat := 0x180018
/-- `HT_CH` (R451). -/
abbrev htCh : Nat := 0x180100
/-- `HT_LAYER_T` (R451). -/
abbrev htLayerT : Nat := 0x180300
/-- `HT_LAYER_S` (R451). -/
abbrev htLayerS : Nat := 0x180304
/-- `HT_SENSOR` (R451). -/
abbrev htSensor : Nat := 0x180400
/-- `SV_CTRL` (R451). -/
abbrev svCtrl : Nat := 0x190000
/-- `SV_STATUS` (R451). -/
abbrev svStatus : Nat := 0x190004
/-- `SV_RUN_MS` (R451). -/
abbrev svRunMs : Nat := 0x190008
/-- `SV_FAIL_LANE` (R451). -/
abbrev svFailLane : Nat := 0x190010
/-- `SV_FAIL_CH_LO` (R451). -/
abbrev svFailChLo : Nat := 0x190014
/-- `SV_FAIL_MISC` (R451). -/
abbrev svFailMisc : Nat := 0x19001c
/-- `SV_REPAIRS` (R451). -/
abbrev svRepairs : Nat := 0x190020
/-- `SV_LOG_SEL` (R451). -/
abbrev svLogSel : Nat := 0x190030
/-- `SV_LOG_ADDR` (R451). -/
abbrev svLogAddr : Nat := 0x190034
/-- `SV_LOG_CNT` (R451). -/
abbrev svLogCnt : Nat := 0x190038
/-- `SV_SCAN` (R451). -/
abbrev svScan : Nat := 0x190040
/-- `CA_CTRL` (R451). -/
abbrev caCtrl : Nat := 0x1a0000
/-- `CA_STATUS` (R451). -/
abbrev caStatus : Nat := 0x1a0004
/-- `CA_ALARM` (R451). -/
abbrev caAlarm : Nat := 0x1a0008
/-- `CA_ALARM_EN` (R451). -/
abbrev caAlarmEn : Nat := 0x1a000c
/-- `CA_LANE_SEL` (R451). -/
abbrev caLaneSel : Nat := 0x1a0010
/-- `CA_LANE_COUNT` (R451). -/
abbrev caLaneCount : Nat := 0x1a0014
/-- `CA_LANE_TIME_LO` (R451). -/
abbrev caLaneTimeLo : Nat := 0x1a0018
/-- `CA_COIL_PASS_LO` (R451). -/
abbrev caCoilPassLo : Nat := 0x1a0030
/-- `CA_DRAM_PASS_LO` (R451). -/
abbrev caDramPassLo : Nat := 0x1a0038
/-- `TL_CTRL` (R451). -/
abbrev tlCtrl : Nat := 0x1b0000
/-- `TL_STATUS` (R451). -/
abbrev tlStatus : Nat := 0x1b0004
/-- `TL_SEQ` (R451). -/
abbrev tlSeq : Nat := 0x1b0008
/-- `TL_SKIPPED` (R451). -/
abbrev tlSkipped : Nat := 0x1b000c
/-- `TL_ALARM` (R451). -/
abbrev tlAlarm : Nat := 0x1b0010
/-- `TL_ALARM_EN` (R451). -/
abbrev tlAlarmEn : Nat := 0x1b0014
/-- `TL_BW_WINDOW` (R451). -/
abbrev tlBwWindow : Nat := 0x1b0020
/-- `TL_BW_SEL` (R451). -/
abbrev tlBwSel : Nat := 0x1b0024
/-- `TL_BW_LAST_LO` (R451). -/
abbrev tlBwLastLo : Nat := 0x1b0028
/-- `TL_BW_PEAK` (R451). -/
abbrev tlBwPeak : Nat := 0x1b0030
/-- `TL_CYC_LO` (R451). -/
abbrev tlCycLo : Nat := 0x1b1000
/-- `TL_CNT_LO` (R451). -/
abbrev tlCntLo : Nat := 0x1b1008
/-- `TL_CNT_HI` (R451). -/
abbrev tlCntHi : Nat := 0x1b100c
/-- `TL_OVF` (R451). -/
abbrev tlOvf : Nat := 0x1b1048
/-- `TL_EVSEL` (R451). -/
abbrev tlEvsel : Nat := 0x1b1050
/-- `PR_CTRL` (R451). -/
abbrev prCtrl : Nat := 0x1c0000
/-- `PR_STATUS` (R451). -/
abbrev prStatus : Nat := 0x1c0004
/-- `PR_CE_WINDOW` (R451). -/
abbrev prCeWindow : Nat := 0x1c0008
/-- `PR_ALARM` (R451). -/
abbrev prAlarm : Nat := 0x1c000c
/-- `PR_ALARM_EN` (R451). -/
abbrev prAlarmEn : Nat := 0x1c0010
/-- `PR_FILL_LO` (R451). -/
abbrev prFillLo : Nat := 0x1c0014
/-- `PR_KEY_LO` (R451). -/
abbrev prKeyLo : Nat := 0x1c001c
/-- `PR_ERR_WR` (R451). -/
abbrev prErrWr : Nat := 0x1c0030
/-- `PR_ERR_RD` (R451). -/
abbrev prErrRd : Nat := 0x1c0034
/-- `PR_ERR_LOST` (R451). -/
abbrev prErrLost : Nat := 0x1c0038
/-- `PR_ERR_SEL` (R451). -/
abbrev prErrSel : Nat := 0x1c003c
/-- `PR_ERR_DATA0` (R451). -/
abbrev prErrData0 : Nat := 0x1c0040
/-- `PR_CE_LO` (R451). -/
abbrev prCeLo : Nat := 0x1c0100
/-- `PR_UE_LO` (R451). -/
abbrev prUeLo : Nat := 0x1c0108
/-- `PR_POISON_RD_LO` (R451). -/
abbrev prPoisonRdLo : Nat := 0x1c0110
/-- `PR_ZERO_RD_LO` (R451). -/
abbrev prZeroRdLo : Nat := 0x1c0118
/-- `PR_POISON_WR_LO` (R451). -/
abbrev prPoisonWrLo : Nat := 0x1c0120
/-- `PR_CE_REPEAT_LO` (R451). -/
abbrev prCeRepeatLo : Nat := 0x1c0128
/-- `PR_CE_UNTRACKED_LO` (R451). -/
abbrev prCeUntrackedLo : Nat := 0x1c0130
/-- `KS_DATA0` (R451). -/
abbrev ksData0 : Nat := 0x1d0000
/-- `KS_ATTR` (R451). -/
abbrev ksAttr : Nat := 0x1d0040
/-- `KS_CMD` (R451). -/
abbrev ksCmd : Nat := 0x1d0044
/-- `KS_ZEROIZE` (R451). -/
abbrev ksZeroize : Nat := 0x1d0048
/-- `LG_STATUS` (R451). -/
abbrev lgStatus : Nat := 0x1e0000
/-- `LG_EVT_NEXT` (R451). -/
abbrev lgEvtNext : Nat := 0x1e0004
/-- `LG_TRIP_NEXT` (R451). -/
abbrev lgTripNext : Nat := 0x1e0008
/-- `LG_ALARM` (R451). -/
abbrev lgAlarm : Nat := 0x1e000c
/-- `LG_ALARM_EN` (R451). -/
abbrev lgAlarmEn : Nat := 0x1e0010
/-- `LG_WIN_AREA` (R451). -/
abbrev lgWinArea : Nat := 0x1e0020
/-- `LG_WIN_INDEX` (R451). -/
abbrev lgWinIndex : Nat := 0x1e0024
/-- `LG_WEAR_SEL` (R451). -/
abbrev lgWearSel : Nat := 0x1e0030
/-- `LG_WEAR` (R451). -/
abbrev lgWear : Nat := 0x1e0034
/-- `LG_WIN_DATA0` (R451). -/
abbrev lgWinData0 : Nat := 0x1e0040

end Off

/-- The stored bits of a register, or of a set of registers `stride` apart: those that software writes (`rw`),
writes until a lock is set (`rwl`), clears by writing 1 (`w1c`) and clears by reading (`rc`) (R7). -/
structure Reg where
  base : Nat
  stride : Nat := 4
  count : Nat := 1
  rw : Word := 0
  rwl : Word := 0
  w1c : Word := 0
  rc : Word := 0
  reset : Word := 0
  banked : Bool := false
  deriving DecidableEq, Repr

/-- The stored bits of the `MF_` registers. -/
def regsMF : List Reg := [
  { base := 0x001000, rw := 0x8, rwl := 0x80000007, reset := 0xc },
  { base := 0x00100c, w1c := 0xf },
  { base := 0x001010, rw := 0xf },
  { base := 0x001040, rw := 0x3f, banked := true },
  { base := 0x001108, rw := 0xffffffff, banked := true },
  { base := 0x00110c, rw := 0x3f, reset := 0x3e, banked := true }]

/-- The stored bits of the `CK_` registers. -/
def regsCK : List Reg := [
  { base := 0x010000, rw := 0x3, reset := 0x3 },
  { base := 0x01000c, w1c := 0xff },
  { base := 0x010010, rw := 0xff },
  { base := 0x010014, w1c := 0x7f, reset := 0x1 },
  { base := 0x010040, stride := 0x4, count := 5, rw := 0xffff }]

/-- The stored bits of the `PW_` registers. -/
def regsPW : List Reg := [
  { base := 0x020000, rw := 0xf0f, reset := 0x40b },
  { base := 0x020018, w1c := 0x3f },
  { base := 0x02001c, rw := 0x3f }]

/-- The stored bits of the `LN_` registers. -/
def regsLN : List Reg := [
  { base := 0x040000, stride := 0x400, count := 16, rw := 0x1f, reset := 0x1 },
  { base := 0x050000, stride := 0x400, count := 16, rw := 0x1f, reset := 0x1 },
  { base := 0x040014, stride := 0x400, count := 16, rw := 0x171f, reset := 0xc },
  { base := 0x050014, stride := 0x400, count := 16, rw := 0x171f, reset := 0xc },
  { base := 0x040024, stride := 0x400, count := 16, rw := 0xf, banked := true },
  { base := 0x050024, stride := 0x400, count := 16, rw := 0xf, banked := true },
  { base := 0x040034, stride := 0x400, count := 16, rc := 0xff00 },
  { base := 0x050034, stride := 0x400, count := 16, rc := 0xff00 },
  { base := 0x040040, stride := 0x400, count := 16, rw := 0x77, reset := 0x44 },
  { base := 0x050040, stride := 0x400, count := 16, rw := 0x77, reset := 0x44 },
  { base := 0x040044, stride := 0x400, count := 16, w1c := 0x2 },
  { base := 0x050044, stride := 0x400, count := 16, w1c := 0x2 },
  { base := 0x0400d0, stride := 0x400, count := 16, w1c := 0xf },
  { base := 0x0500d0, stride := 0x400, count := 16, w1c := 0xf },
  { base := 0x0400d4, stride := 0x400, count := 16, rw := 0xf },
  { base := 0x0500d4, stride := 0x400, count := 16, rw := 0xf },
  { base := 0x044000, stride := 0x10000, count := 2, rw := 0x71f },
  { base := 0x044004, stride := 0x10000, count := 2, w1c := 0x4 }]

/-- The stored bits of the `FW_` registers. -/
def regsFW : List Reg := [
  { base := 0x080000, rw := 0xff02, reset := 0x1002 },
  { base := 0x080008, w1c := 0x7f },
  { base := 0x08000c, rw := 0x7f },
  { base := 0x080010, rc := 0xffffffff }]

/-- The stored bits of the `QY_` registers. -/
def regsQY : List Reg := [
  { base := 0x0c0000, rwl := 0x2 },
  { base := 0x0c000c, rw := 0xf, reset := 0x4 },
  { base := 0x0c0014, rw := 0x7fff, reset := 0x3000 },
  { base := 0x0c0018, rwl := 0x7fff7fff, reset := 0x7fff },
  { base := 0x0c001c, rc := 0x7fff0000 },
  { base := 0x0c0020, w1c := 0x3f },
  { base := 0x0c0024, rw := 0x3f },
  { base := 0x0c1000, stride := 0x4, count := 256, rwl := 0xffffffff },
  { base := 0x0c2000, stride := 0x20, count := 64, rwl := 0xfffff000 },
  { base := 0x0c2004, stride := 0x20, count := 64, rwl := 0x1f },
  { base := 0x0c2008, stride := 0x20, count := 64, rwl := 0xfffff000 },
  { base := 0x0c200c, stride := 0x20, count := 64, rwl := 0x1f },
  { base := 0x0c2010, stride := 0x20, count := 64, rwl := 0x7fff7fff },
  { base := 0x0c2014, stride := 0x20, count := 64, rwl := 0x7ff }]

/-- The stored bits of the `BT_` registers. -/
def regsBT : List Reg := [
  { base := 0x10000c, stride := 0x1000, count := 64, rc := 0xffff },
  { base := 0x100010, stride := 0x1000, count := 64, w1c := 0x7 },
  { base := 0x100014, stride := 0x1000, count := 64, rw := 0x7 }]

/-- The stored bits of the `CH_` registers. -/
def regsCH : List Reg := [
  { base := 0x140000, rw := 0x3fff00, reset := 0x180a00 },
  { base := 0x140014, w1c := 0x1f },
  { base := 0x140018, rw := 0x1f },
  { base := 0x140020, rw := 0xfff, banked := true }]

/-- The stored bits of the `DC_` registers. -/
def regsDC : List Reg := [
  { base := 0x150000, rw := 0x3fff02, reset := 0x3200 },
  { base := 0x150018, w1c := 0x3 },
  { base := 0x15001c, rw := 0x3 },
  { base := 0x151000, stride := 0x40, count := 64, rw := 0x3, reset := 0x3 }]

/-- The stored bits of the `ST_` registers. -/
def regsST : List Reg := [
  { base := 0x160000, rw := 0x2, reset := 0x2 },
  { base := 0x160014, w1c := 0x3f },
  { base := 0x160018, rw := 0x3f },
  { base := 0x160020, rw := 0x7fff, banked := true },
  { base := 0x16100c, stride := 0x20, count := 64, rw := 0x7f, banked := true }]

/-- The stored bits of the `HT_` registers. -/
def regsHT : List Reg := [
  { base := 0x180000, rw := 0x1701f, reset := 0x1000c },
  { base := 0x180008, w1c := 0x3f },
  { base := 0x18000c, rw := 0x3f },
  { base := 0x180010, rw := 0xff, reset := 0x96 }]

/-- The stored bits of the `SV_` registers. -/
def regsSV : List Reg := [
  { base := 0x190030, rw := 0x3ffff, banked := true }]

/-- The stored bits of the `CA_` registers. -/
def regsCA : List Reg := [
  { base := 0x1a0000, rw := 0x71f, reset := 0x708 },
  { base := 0x1a0008, w1c := 0xf },
  { base := 0x1a000c, rw := 0xf },
  { base := 0x1a0010, rw := 0x1f, banked := true }]

/-- The stored bits of the `TL_` registers. -/
def regsTL : List Reg := [
  { base := 0x1b000c, rc := 0xffff },
  { base := 0x1b0010, w1c := 0xf },
  { base := 0x1b0014, rw := 0xf },
  { base := 0x1b0020, rw := 0xfffff, reset := 0x3e8 },
  { base := 0x1b0024, rw := 0xff, banked := true },
  { base := 0x1b1048, stride := 0x80, count := 69, w1c := 0xff },
  { base := 0x1b1050, stride := 0x80, count := 69, rw := 0xffffffff },
  { base := 0x1b1054, stride := 0x80, count := 69, rw := 0xffffffff },
  { base := 0x1b1058, stride := 0x80, count := 69, rw := 0xffffffff },
  { base := 0x1b105c, stride := 0x80, count := 69, rw := 0xffffffff }]

/-- The stored bits of the `PR_` registers. -/
def regsPR : List Reg := [
  { base := 0x1c0008, rw := 0xffff, reset := 0x3e8 },
  { base := 0x1c000c, w1c := 0x1f },
  { base := 0x1c0010, rw := 0x1f },
  { base := 0x1c0038, rc := 0xffff },
  { base := 0x1c003c, rw := 0xfff, banked := true }]

/-- The stored bits of the `LG_` registers. -/
def regsLG : List Reg := [
  { base := 0x1e000c, w1c := 0x3 },
  { base := 0x1e0010, rw := 0x3 },
  { base := 0x1e0020, rw := 0x3, banked := true },
  { base := 0x1e0024, rw := 0xffffffff, banked := true },
  { base := 0x1e0030, rw := 0xf, banked := true }]

/-- Every register with stored bits, by the blocks of R442. -/
def regsAt (off : Nat) : List Reg :=
  match off / 0x10000 with
  | 0x00 => regsMF
  | 0x01 => regsCK
  | 0x02 => regsPW
  | 0x04 | 0x05 => regsLN
  | 0x08 => regsFW
  | 0x0C => regsQY
  | 0x10 | 0x11 | 0x12 | 0x13 => regsBT
  | 0x14 => regsCH
  | 0x15 => regsDC
  | 0x16 | 0x17 => regsST
  | 0x18 => regsHT
  | 0x19 => regsSV
  | 0x1A => regsCA
  | 0x1B => regsTL
  | 0x1C => regsPR
  | 0x1E => regsLG
  | _ => []

/-- The offset is the register's, or one of its set's. -/
def Reg.covers (r : Reg) (off : Nat) : Bool :=
  decide (r.base ≤ off) && (off - r.base) % r.stride == 0 && decide ((off - r.base) / r.stride < r.count)

/-- The stored register at an offset. -/
def regAt (off : Nat) : Option Reg := (regsAt off).find? (Reg.covers · off)

/-- What an unlisted entry of the register file holds (R451). -/
def csrReset (off : Nat) : Word :=
  match regAt off with
  | some r => r.reset
  | none => 0

/-- A stored register. -/
def Block.reg (b : Block) (off : Nat) : Word := tget csrReset b.csr off

/-- The block with a stored register set. -/
def Block.setReg (b : Block) (off : Nat) (v : Word) : Block := { b with csr := tset csrReset b.csr off v }

/-- The block with bits of a stored register set to 1: what a hardware event does to an alarm (R7). -/
def Block.orReg (b : Block) (off : Nat) (m : Word) : Block := b.setReg off (b.reg off ||| m)

/-- The block with bits of a stored register cleared. -/
def Block.clrReg (b : Block) (off : Nat) (m : Word) : Block := b.setReg off (b.reg off &&& ~~~ m)

/-- One bit of a stored register. -/
def Block.regBit (b : Block) (off i : Nat) : Bool := (b.reg off).getLsbD i

/-- Bits [lo + w − 1:lo] of a stored register. -/
def Block.regField (b : Block) (off lo w : Nat) : Nat := (b.reg off).toNat / 2 ^ lo % 2 ^ w

/-! ### Where the per-unit sets lie (R442) -/

/-- Lane `l`'s register set. -/
def laneBase (l : Nat) : Nat := if l < 16 then 0x040000 + 0x400 * l else 0x050000 + 0x400 * (l - 16)
/-- A lane register of unit 0, moved to lane `l`. -/
def lnOff (r l : Nat) : Nat := r - 0x040000 + laneBase l
/-- A side register, moved to side `sd`. -/
def sideOff (r : Nat) : Side → Nat
  | .west => r
  | .east => r + 0x10000
/-- A berth register, moved to berth `n`. -/
def btOff (r n : Nat) : Nat := r + 0x1000 * n
/-- A channel register, moved to channel `n`. -/
def dcOff (r n : Nat) : Nat := r + 0x40 * n
/-- A column register, moved to column `n`. -/
def stOff (r n : Nat) : Nat := r + 0x20 * n
/-- A fairway counter of FW_WE, moved to the direction of `sd` (West is FW_WE, which carries flits from West). -/
def fwOff (r : Nat) : Side → Nat
  | .west => r
  | .east => r + 0x100
/-- A register of tally block 0, moved to block `n`. -/
def tlOff (r n : Nat) : Nat := r + 0x80 * n

/-- The domain of tally block `n` (R425). -/
def tallyDom (n : Nat) : Nat :=
  if n < 64 then 16 + n / 2
  else if n = 64 then 8
  else if n = 65 then 9
  else if n = 66 then 10
  else if n = 67 then 11
  else 12

/-- The switched domain an offset is held in; `none` for AON and AON retention (R442). -/
def holder (off : Nat) : Option Nat :=
  let rel := off % 0x10000
  match off / 0x10000 with
  | 0x04 => if rel < 0x4000 then some (rel / 0x400 / 4) else some 8
  | 0x05 => if rel < 0x4000 then some (4 + rel / 0x400 / 4) else some 9
  | 0x08 => if 0x100 ≤ rel ∧ rel < 0x200 then some 10 else if 0x200 ≤ rel ∧ rel < 0x300 then some 11 else none
  | 0x0C =>
    if off = Off.qyCtrl ∨ off = Off.qyPierId ∨ off = Off.qyCsrSrc ∨ 0x1000 ≤ rel then none else some 12
  | 0x10 | 0x11 | 0x12 | 0x13 =>
    let n := (off - 0x100000) / 0x1000
    if rel % 0x1000 = 0x008 then none else some (16 + n / 2)
  | 0x14 => some 12
  | 0x15 => if 0x1000 ≤ rel ∧ rel < 0x2000 then some (16 + (rel - 0x1000) / 0x40 / 2) else none
  | 0x1B => if 0x1000 ≤ rel then some (tallyDom ((rel - 0x1000) / 0x80)) else some 14
  | _ => none

/-- The state of a domain (R370). -/
def Block.dom (b : Block) (n : Nat) : Dom := tget (fun _ => {}) b.pw.doms n

/-- The domain is ON. -/
def Block.domOn (b : Block) (n : Nat) : Bool := (b.dom n).st == .on

/-- An access reaches its register: its holding domain is ON (R443). -/
def Block.reachable (b : Block) (off : Nat) : Bool :=
  match holder off with
  | some n => b.domOn n
  | none => true

/-- A path's number in the keys of the banked tables. -/
def pathNo : Path → Nat
  | .inBand => 0
  | .i3c => 1
  | .jtag => 2

/-- The key of a banked register (R447). -/
def bankKey (p : Path) (off : Nat) : Nat := pathNo p * 2 ^ 24 + off

/-- What an unlisted select register holds: 0, but `MF_RCPT_RING` names the path's own ring (R451). -/
def selReset (k : Nat) : Word :=
  if k = bankKey .i3c Off.mfRcptRing then 0x3E
  else if k = bankKey .jtag Off.mfRcptRing then 0x3F
  else 0

/-- A select register of one path's bank. -/
def Block.selReg (b : Block) (p : Path) (off : Nat) : Word := tget selReset b.sel (bankKey p off)

/-- A select register of one path's bank set. -/
def Block.setSel (b : Block) (p : Path) (off : Nat) (v : Word) : Block :=
  { b with sel := tset selReset b.sel (bankKey p off) v }

/-- A holding register (R81, R341). -/
def Block.holdReg (b : Block) (p : Path) (off : Nat) : Word := tget (fun _ => 0) b.hold (bankKey p off)

/-- A holding register set. -/
def Block.setHold (b : Block) (p : Path) (off : Nat) (v : Word) : Block :=
  { b with hold := tset (fun _ => 0) b.hold (bankKey p off) v }

/-- A counter. -/
def Block.count (b : Block) (off : Nat) : Nat := tget (fun _ => 0) b.cnt off

/-- A counter set. -/
def Block.setCount (b : Block) (off n : Nat) : Block := { b with cnt := tset (fun _ => 0) b.cnt off n }

/-- A saturating counter of `w` bits advanced by `n`. -/
def Block.bumpW (b : Block) (w off n : Nat) : Block := b.setCount off (min (b.count off + n) (2 ^ w - 1))

/-- A 48-bit counter pair advanced by `n` (R81). -/
def Block.bump (b : Block) (off : Nat) (n : Nat := 1) : Block := b.bumpW 48 off n

/-- The stored registers, counters and banks that `p` does not pick stay; the others take their reset values
(R354, R443). -/
def Block.resetRegs (b : Block) (p : Nat → Bool) : Block :=
  { b with
    csr := b.csr.filter fun e => !p e.1
    cnt := b.cnt.filter fun e => !p e.1
    sel := b.sel.filter fun e => !p (e.1 % 2 ^ 24)
    hold := b.hold.filter fun e => !p (e.1 % 2 ^ 24) }

end Sys2Proof.Machine
end

