-- ==== Sys2Proof/Machine/Ops.lean ====
section
/-! DEFINITION. The named operations that the meanings share: units of the block, times, alarms and events. -/

namespace Sys2Proof.Machine

open Sys2Proof

/-! ### Outcomes -/

/-- The outcome of a command that changes the block alone. -/
def State.upd (s : State) (f : Block → Block) : Host.Outcome State Fault Refusal :=
  .next { s with blk := f s.blk }

/-! ### Times: ticks of 0.625 ns (R4) -/

abbrev usTicks : Nat := 1600
abbrev msTicks : Nat := 1600000
abbrev sTicks : Nat := 1600000000

/-- The tide counter now. -/
def Block.now (b : Block) : Nat := b.ck.tide.toNat

/-- Ticks since a stamp. -/
def Block.since (b : Block) (t : Tide) : Nat := (b.ck.tide - t).toNat

/-- A stamp is absent, or at least `n` ticks old: what a rate limit of one per `n` ticks asks. -/
def Block.olderThan (b : Block) (n : Nat) : Option Tide → Bool
  | none => true
  | some t => decide (n ≤ b.since t)

/-- At least `n` ticks lie between a moment, which may still be to come, and now. -/
def Block.passed (b : Block) (n : Nat) (t : Tide) : Bool := decide ((n : Int) ≤ (b.ck.tide - t).toInt)

/-- The tide counter has passed a multiple of `n` ticks since a stamp. -/
def Block.crossed (b : Block) (n : Nat) (t : Tide) : Bool := t.toNat / n != b.now / n

/-! ### Units -/

/-- A Bool as 0 or 1. -/
def b2n (c : Bool) : Nat := if c then 1 else 0

def Block.lane (b : Block) (l : Nat) : Lane := tget (fun _ => {}) b.lanes l
def Block.setLane (b : Block) (l : Nat) (v : Lane) : Block := { b with lanes := tset (fun _ => {}) b.lanes l v }
def Block.modLane (b : Block) (l : Nat) (f : Lane → Lane) : Block := b.setLane l (f (b.lane l))

def Block.side (b : Block) : Side → SideSt
  | .west => b.west
  | .east => b.east
def Block.setSide (b : Block) (sd : Side) (v : SideSt) : Block :=
  match sd with
  | .west => { b with west := v }
  | .east => { b with east := v }
def Block.modSide (b : Block) (sd : Side) (f : SideSt → SideSt) : Block := b.setSide sd (f (b.side sd))

/-- The fairway direction that flits arriving on a side enter: West arrivals travel FW_WE. -/
def Block.fw (b : Block) : Side → Fairway
  | .west => b.fwWE
  | .east => b.fwEW
def Block.setFw (b : Block) (sd : Side) (v : Fairway) : Block :=
  match sd with
  | .west => { b with fwWE := v }
  | .east => { b with fwEW := v }
def Block.modFw (b : Block) (sd : Side) (f : Fairway → Fairway) : Block := b.setFw sd (f (b.fw sd))

def Block.berth (b : Block) (n : Nat) : Berth := tget (fun _ => {}) b.berths n
def Block.setBerth (b : Block) (n : Nat) (v : Berth) : Block := { b with berths := tset (fun _ => {}) b.berths n v }
def Block.modBerth (b : Block) (n : Nat) (f : Berth → Berth) : Block := b.setBerth n (f (b.berth n))

def Block.chan (b : Block) (n : Nat) : Chan := tget (fun _ => {}) b.chans n
def Block.setChan (b : Block) (n : Nat) (v : Chan) : Block := { b with chans := tset (fun _ => {}) b.chans n v }
def Block.modChan (b : Block) (n : Nat) (f : Chan → Chan) : Block := b.setChan n (f (b.chan n))

def Block.col (b : Block) (n : Nat) : Column := tget (fun _ => {}) b.cols n
def Block.setCol (b : Block) (n : Nat) (v : Column) : Block := { b with cols := tset (fun _ => {}) b.cols n v }
def Block.modCol (b : Block) (n : Nat) (f : Column → Column) : Block := b.setCol n (f (b.col n))

def Block.setDom (b : Block) (n : Nat) (v : Dom) : Block := { b with pw.doms := tset (fun _ => {}) b.pw.doms n v }
def Block.modDom (b : Block) (n : Nat) (f : Dom → Dom) : Block := b.setDom n (f (b.dom n))

def Block.pll (b : Block) : Pll → PllSt
  | .root => b.ck.root
  | .west => b.ck.west
  | .east => b.ck.east
def Block.setPll (b : Block) (p : Pll) (v : PllSt) : Block :=
  match p with
  | .root => { b with ck.root := v }
  | .west => { b with ck.west := v }
  | .east => { b with ck.east := v }

/-- The block after `f` for each number of a list, in order. -/
def Block.each (b : Block) (ns : List Nat) (f : Block → Nat → Block) : Block := ns.foldl f b

/-- The side of a lane. -/
def laneSide (l : Nat) : Side := if l < 16 then .west else .east
/-- A lane's number within its side. -/
def laneIx (l : Nat) : Nat := l % 16
/-- Lane `i` of a side. -/
def laneOf (sd : Side) (i : Nat) : Nat :=
  match sd with
  | .west => i
  | .east => 16 + i
/-- The lanes of a side. -/
def sideLanes (sd : Side) : List Nat := (List.range 16).map (laneOf sd)
/-- The survey power group of a domain (R369). -/
def domGroup (d : Nat) : Nat :=
  if d < 4 ∨ d = 8 then 4
  else if d < 8 ∨ d = 9 then 5
  else if d < 13 then 6
  else if d < 16 then 7
  else (d - 16) / 8
/-- The domains of a survey power group. -/
def groupDoms (g : Nat) : List Nat := (List.range 48).filter fun d => domGroup d == g
/-- One bit of a mask over channels. -/
def chBit (n : Nat) : BitVec 64 := BitVec.ofNat 64 (2 ^ n)

/-- 0 for West, 1 for East. -/
def sideNo : Side → Nat
  | .west => 0
  | .east => 1
/-- The other side. -/
def otherSide : Side → Side
  | .west => .east
  | .east => .west
/-- The quad domain of a lane (R369). -/
def quadDom (l : Nat) : Nat := l / 4
/-- CK_W or CK_E. -/
def ckDom : Side → Nat
  | .west => 8
  | .east => 9
/-- FW_WE for West arrivals, FW_EW for East arrivals. -/
def fwDom : Side → Nat
  | .west => 10
  | .east => 11
/-- The BG domain of a channel. -/
def bgDom (n : Nat) : Nat := 16 + n / 2
/-- The lane PLL of a side. -/
def sidePll : Side → Pll
  | .west => .west
  | .east => .east

abbrev qyDom : Nat := 12
abbrev svDom : Nat := 13
abbrev tlDom : Nat := 14
abbrev hkDom : Nat := 15

/-! ### Codes of R19, R370 and R342 -/

def PierState.code : PierState → Nat
  | .dark => 0 | .arrival => 1 | .survey => 2 | .harbour => 3 | .openS => 4
  | .departure => 5 | .tripped => 6 | .frozen => 7

def DomState.code : DomState → Nat
  | .off => 0 | .powering => 1 | .on => 2 | .draining => 3 | .failed => 4

def ClkSrc.code : ClkSrc → Nat
  | .pllRoot => 0 | .crystal => 1 | .rc => 2

def DepPhase.code : DepPhase → Nat
  | .none => 0 | .quiesce => 1 | .survey => 2 | .chart => 3 | .domainsOff => 4 | .ready => 5

def LaneState.code : LaneState → Nat
  | .off => 0 | .quiet => 1 | .hunt => 2 | .lock => 3 | .train => 4 | .run => 5 | .degraded => 6 | .failed => 7

def railNo : Rail → Nat
  | .aon => 0 | .io => 1 | .core => 2 | .lane => 3 | .laneA => 4 | .vpp => 5 | .stack => 6

/-! ### When the pier acts at all -/

/-- The pier serves something: neither DARK nor FROZEN, no scan test, the harbourmaster's clock runs. -/
def Block.live (b : Block) : Bool :=
  b.pw.st != .dark && b.pw.st != .frozen && !b.sv.inScan && !b.ck.aonStopped

/-- The data path runs: lanes, fairway, quay and channels.  A harbourmaster without a clock does not stop it (R13, R346,
R353). -/
def Block.carries (b : Block) : Bool :=
  b.pw.st != .dark && b.pw.st != .frozen && !b.sv.inScan && b.ck.root.lock && !b.ck.coreGated

/-- Breakwater holds some domain gated (R346, `CK_STATUS.BW_HOLD`). -/
def Block.bwHold (b : Block) : Bool := b.ck.coreGated || b.ck.west.down || b.ck.east.down

/-- Breakwater is armed: in every state but DARK and a scan test, FROZEN included, and with the harbourmaster's clock
stopped (R346, R358, R416). -/
def Block.armed (b : Block) : Bool := b.pw.st != .dark && !b.sv.inScan

/-- The CLK_CORE domains run: PLL_ROOT locked, nothing gated. -/
def Block.coreRuns (b : Block) : Bool := b.ck.root.lock && !b.ck.coreGated

/-- HARBOUR or OPEN. -/
def Block.inService (b : Block) : Bool := b.pw.st == .harbour || b.pw.st == .openS

/-! ### The logbook's event area -/

/-- The event codes of R436. -/
inductive Ev where
  | boardTableBad | boardEntryBad | laneFailed | linkDown | sscConflict | quayShareShort | quayLaneNone | quayShareNone
  | thruDrop | fwIntErr | stringLong | quayCreditStall | copyRemoteFail | cplDiscard | berthIntErr
  | charterMiss | charterShort | charterRestored | charterReload | charterBerthLost
  | refLimit | coilRemap | coilSuspect | columnFail | relayFail | stackBaseFail | caReplayLimit | ceRepeat | calFail
  | rootLost | wLost | eLost | xtalFail | rcFail | clkDeadSwitch | relockFail | railUv | domainFail
  | diverge | sensorFail | sensorLatch
  | surveyFail | svFail | scanExit | fwFallback | boardDirectoryBad | authFailBurst
  | dumpNoRoute | dumpRemoteFail | logWorn | tripAcked
  deriving DecidableEq, Repr

/-- The numbers of R436, in the order listed there. -/
def Ev.code : Ev → Nat
  | .boardTableBad => 0x0100 | .boardEntryBad => 0x0101 | .laneFailed => 0x0102 | .linkDown => 0x0103
  | .sscConflict => 0x0104 | .quayShareShort => 0x0105 | .quayLaneNone => 0x0106 | .quayShareNone => 0x0107
  | .thruDrop => 0x0200 | .fwIntErr => 0x0201 | .stringLong => 0x0202 | .quayCreditStall => 0x0203
  | .copyRemoteFail => 0x0204 | .cplDiscard => 0x0205 | .berthIntErr => 0x0206
  | .charterMiss => 0x0300 | .charterShort => 0x0301 | .charterRestored => 0x0302 | .charterReload => 0x0303
  | .charterBerthLost => 0x0304
  | .refLimit => 0x0400 | .coilRemap => 0x0401 | .coilSuspect => 0x0402 | .columnFail => 0x0403
  | .relayFail => 0x0404 | .stackBaseFail => 0x0405 | .caReplayLimit => 0x0406 | .ceRepeat => 0x0407
  | .calFail => 0x0408
  | .rootLost => 0x0500 | .wLost => 0x0501 | .eLost => 0x0502 | .xtalFail => 0x0503 | .rcFail => 0x0504
  | .clkDeadSwitch => 0x0505 | .relockFail => 0x0506 | .railUv => 0x0507 | .domainFail => 0x0508
  | .diverge => 0x0600 | .sensorFail => 0x0601 | .sensorLatch => 0x0602
  | .surveyFail => 0x0700 | .svFail => 0x0701 | .scanExit => 0x0702 | .fwFallback => 0x0703
  | .boardDirectoryBad => 0x0704 | .authFailBurst => 0x0705
  | .dumpNoRoute => 0x0800 | .dumpRemoteFail => 0x0801 | .logWorn => 0x0802 | .tripAcked => 0x0803

/-- Slot `n` of the logbook written once more (R433, R434). -/
def Block.wearSlot (b : Block) (n : Nat) : Block :=
  let c := tget (fun _ => 0) b.lg.wear n + 1
  let b := { b with lg.wear := tset (fun _ => 0) b.lg.wear n (min c 16383) }
  if c = 10000 then b.orReg Off.lgAlarm 2 else b

/-- An event record at the next index of the ring (R435). -/
def Block.writeEvent (b : Block) (code u reps : BitVec 16) (detail : List (BitVec 16)) (others : List Suppress) :
    Block :=
  let ix := b.lg.evtNext.toNat % 512
  let rec_ : Event := { tide := b.ck.tide, code := code, unit := u, detail := detail, repeats := reps, st := b.pw.st }
  let b := { b with
    lg.events := tset (fun _ => none) b.lg.events ix (some rec_)
    lg.evtNext := b.lg.evtNext + 1
    lg.suppress := others ++ [{ code := code, unit := u, at_ := b.ck.tide, count := 0 }] }
  if ix = 0 then b.wearSlot 15 else b

/-- An event logged: written, or counted where R437 suppresses it. -/
def Block.logEvent (b : Block) (code u : BitVec 16) (detail : List (BitVec 16)) : Block :=
  let others := b.lg.suppress.filter fun x => !(x.code == code && x.unit == u)
  match b.lg.suppress.find? fun x => x.code == code && x.unit == u with
  | some x =>
    if b.since x.at_ < msTicks then
      { b with lg.suppress := others ++ [{ x with count := if x.count = 0xFFFF then x.count else x.count + 1 }] }
    else b.writeEvent code u x.count detail others
  | none => b.writeEvent code u 0 detail others

/-- The harbourmaster can write the logbook: its clock runs, and no reset holds it (R346, R347, R358, R453). -/
def Block.canLog (b : Block) : Bool := !b.ck.aonStopped && b.pw.st != .frozen && !b.pw.heldInReset

/-- An event: logged now, or once the harbourmaster's clock runs again (R347); a scan test has disabled the logbook (R416).
`detail` holds the 16-bit halves in order. -/
def Block.event (b : Block) (e : Ev) (unit : Nat := 0) (detail : List (BitVec 16) := []) : Block :=
  let code := BitVec.ofNat 16 e.code
  let u := BitVec.ofNat 16 unit
  if b.sv.logDisabled then b
  else if b.canLog then b.logEvent code u detail
  else { b with lg.due := b.lg.due ++ [({ code := code, unit := u, detail := detail } : DueEvent)] }

/-- The events that waited for the harbourmaster's clock are written (R347). -/
def Block.flushEvents (b : Block) : Block :=
  b.lg.due.foldl (fun b e => b.logEvent e.code e.unit e.detail) { b with lg.due := [] }

/-- A record of an event and unit was written within the last 1 ms: a rule's own limit of one per 1 ms applies before
R437 counts. -/
def Block.loggedLately (b : Block) (e : Ev) (unit : Nat) : Bool :=
  b.lg.suppress.any fun x => x.code == BitVec.ofNat 16 e.code && x.unit == BitVec.ofNat 16 unit && decide (b.since x.at_ < msTicks)

/-- A 32-bit value as two halves of an event's detail. -/
def half32 (n : Nat) : List (BitVec 16) := [BitVec.ofNat 16 n, BitVec.ofNat 16 (n / 2 ^ 16)]

/-- The next free value's index. -/
def Block.draw (b : Block) : Block := { b with fresh := b.fresh + 1 }

end Sys2Proof.Machine
end

