-- ==== Sys2Proof/Machine/Images.lean ====
section
/-! DEFINITION. The image slots of the flash, and what makes an image valid (R330, R331). -/

namespace Sys2Proof.Machine

open Sys2Proof

/-- What a byte of an image slot reads as that nothing has programmed since the erase. -/
abbrev erased : Byte := 0xFF

/-- An image slot that the pier has written, or one that still holds what the board put there. -/
def Manifests.slotHeld (x : Manifests) (slotB : Bool) : Option (Tbl Byte) := if slotB then x.flashB else x.flashA

/-- What the pier has programmed into an image slot. -/
def Manifests.image (x : Manifests) (slotB : Bool) : Tbl Byte := (x.slotHeld slotB).getD []

/-- An image slot's contents set. -/
def Manifests.setImage (x : Manifests) (slotB : Bool) (t : Tbl Byte) : Manifests :=
  if slotB then { x with flashB := some t } else { x with flashA := some t }

/-- Bytes programmed from an offset on. -/
def program (t : Tbl Byte) (a : Nat) : List Byte → Tbl Byte
  | [] => t
  | v :: vs => program (tset (fun _ => erased) t a v) (a + 1) vs

/-- A byte of an image slot: as the pier programmed it, or as the board's flash, which gives `board`, holds it. -/
def Manifests.flashByte (x : Manifests) (slotB : Bool) (board : List Byte) (i : Nat) : Byte :=
  match x.slotHeld slotB with
  | some t => tget (fun _ => erased) t i
  | none => board.getD i erased

/-- `n` bytes of a slot from offset `a` on. -/
def slotRange (t : Nat → Byte) (a n : Nat) : List Byte := (List.range n).map fun i => t (a + i)

/-- What makes an image valid, but for its security version: the magic, a body length in its range, a public key whose
SHA-384 hash is the root hash, and a signature by it over the header's first half and the body (R331). -/
def imageSound (root : BitVec 384) (t : Nat → Byte) : Bool :=
  let len := leAt (slotRange t 12 4) 0 4
  let key := slotRange t 16 97
  decide (leAt (slotRange t 0 4) 0 4 = 0x4D465145 ∧ 1 ≤ len ∧ len ≤ 3145472) && sha384 key == root &&
    match publicKey key with
    | some q => ecdsaOk q (beNat (slotRange t 128 48)) (beNat (slotRange t 176 48)) (slotRange t 0 128 ++ slotRange t 256 len)
    | none => false

/-- An image as the pier knows it: its two versions, and whether it is sound. -/
structure Image where
  version : BitVec 32
  security : BitVec 8
  sound : Bool
  deriving DecidableEq, Repr

/-- The image in a slot; `root` is the root hash of the pier's read-only memory (log 67). -/
def imageAt (root : BitVec 384) (t : Nat → Byte) : Image :=
  { version := BitVec.ofNat 32 (leAt (slotRange t 4 4) 0 4), security := t 8, sound := imageSound root t }

/-- An image is valid: sound, and its security version at least the minimum that the logbook holds (R331). -/
def Block.imageValid (b : Block) (i : Image) : Bool := i.sound && decide (b.mf.secMin ≤ i.security)

end Sys2Proof.Machine
end

