-- ==== Sys2Proof/Machine/Numbers.lean ====
section
/-! DEFINITION. The element types of near-memory operations and their arithmetic (R221, R222, R227). -/

namespace Sys2Proof.Machine

open Sys2Proof

/-! ### Floating-point formats -/

/-- A binary format: exponent and fraction widths. -/
structure Fmt where
  ebits : Nat
  mbits : Nat
  deriving DecidableEq, Repr

namespace Fmt
abbrev b16 : Fmt := ⟨5, 10⟩
abbrev bf16 : Fmt := ⟨8, 7⟩
abbrev b32 : Fmt := ⟨8, 23⟩
abbrev b64 : Fmt := ⟨11, 52⟩

/-- The exponent bias. -/
def bias (f : Fmt) : Int := 2 ^ (f.ebits - 1) - 1
/-- The weight of the lowest bit of a subnormal. -/
def qmin (f : Fmt) : Int := 1 - f.bias - f.mbits
/-- The biased exponent of infinities and NaNs. -/
def emax (f : Fmt) : Nat := 2 ^ f.ebits - 1
/-- The sign's place. -/
def signBit (f : Fmt) : Nat := 2 ^ (f.ebits + f.mbits)
/-- The canonical quiet NaN (R222). -/
def nan (f : Fmt) : Nat := f.emax * 2 ^ f.mbits + 2 ^ (f.mbits - 1)
/-- An infinity. -/
def inf (f : Fmt) (neg : Bool) : Nat := (if neg then f.signBit else 0) + f.emax * 2 ^ f.mbits
end Fmt

/-- What a word of a format stands for: `fin neg m e` is ± m × 2^e. -/
inductive FVal where
  | nan (signalling : Bool)
  | inf (neg : Bool)
  | fin (neg : Bool) (m : Nat) (e : Int)
  deriving DecidableEq, Repr

/-- A word read in a format. -/
def Fmt.unpack (f : Fmt) (w : Nat) : FVal :=
  let frac := w % 2 ^ f.mbits
  let ex := w / 2 ^ f.mbits % 2 ^ f.ebits
  let neg := decide (w / f.signBit % 2 = 1)
  if ex = f.emax then
    if frac = 0 then .inf neg else .nan (decide (frac < 2 ^ (f.mbits - 1)))
  else if ex = 0 then .fin neg frac f.qmin
  else .fin neg (frac + 2 ^ f.mbits) (f.qmin + (ex - 1))

/-- The flags of R229. -/
structure FFlags where
  invalid : Bool := false
  overflow : Bool := false
  underflow : Bool := false
  inexact : Bool := false
  deriving DecidableEq, Repr

/-- Flags gathered. -/
def FFlags.join (x y : FFlags) : FFlags :=
  ⟨x.invalid || y.invalid, x.overflow || y.overflow, x.underflow || y.underflow, x.inexact || y.inexact⟩

/-- The flags as the byte of R229. -/
def FFlags.code (x : FFlags) : Nat :=
  x.invalid.toNat + 2 * x.overflow.toNat + 4 * x.underflow.toNat + 8 * x.inexact.toNat

/-- `m / 2^k` rounded to nearest, ties to even, and whether that was exact. -/
def rneShift (m k : Nat) : Nat × Bool :=
  let q := m / 2 ^ k
  let r := m % 2 ^ k
  let up := decide (2 * r > 2 ^ k) || (decide (2 * r = 2 ^ k) && q % 2 == 1)
  (if up then q + 1 else q, decide (r = 0))

/-- The number of bits of `m`. -/
def bitLen (m : Nat) : Nat := if m = 0 then 0 else Nat.log2 m + 1

/-- ± m × 2^e rounded into a format (R222): tininess is detected after rounding. -/
def Fmt.round (f : Fmt) (neg : Bool) (m : Nat) (e : Int) : Nat × FFlags :=
  let sg := if neg then f.signBit else 0
  if m = 0 then (sg, {})
  else
    let p := f.mbits + 1
    let len := bitLen m
    -- the quantum with an unbounded exponent, and the one in use
    let qfree : Int := e + len - p
    let q := max qfree f.qmin
    let at_ (q : Int) : Nat × Bool := if q ≤ e then (m * 2 ^ (e - q).toNat, true) else rneShift m (q - e).toNat
    let (n, exact) := at_ q
    let (n, q) := if n = 2 ^ p then (2 ^ (p - 1), q + 1) else (n, q)
    let free := at_ qfree
    let tiny := decide (qfree + bitLen free.1 < f.qmin + p)
    let ex : Int := if n < 2 ^ f.mbits then 0 else q - f.qmin + 1
    if (f.emax : Int) ≤ ex then (f.inf neg, { overflow := true, inexact := true })
    else
      (sg + (if ex = 0 then n else ex.toNat * 2 ^ f.mbits + (n - 2 ^ f.mbits)),
        { underflow := tiny && !exact, inexact := !exact })

/-- A signed integer times 2^e rounded; an exact zero takes the sign given. -/
def Fmt.roundInt (f : Fmt) (zeroNeg : Bool) (v : Int) (e : Int) : Nat × FFlags :=
  if v = 0 then (if zeroNeg then f.signBit else 0, {}) else f.round (decide (v < 0)) v.natAbs e

/-- A signed magnitude. -/
def signedMag (neg : Bool) (m : Nat) : Int := if neg then -m else m

/-- The sum of two words (R222). -/
def Fmt.add (f : Fmt) (x y : Nat) : Nat × FFlags :=
  match f.unpack x, f.unpack y with
  | .nan s, .nan t => (f.nan, { invalid := s || t })
  | .nan s, _ => (f.nan, { invalid := s })
  | _, .nan t => (f.nan, { invalid := t })
  | .inf a, .inf c => if a = c then (f.inf a, {}) else (f.nan, { invalid := true })
  | .inf a, _ => (f.inf a, {})
  | _, .inf c => (f.inf c, {})
  | .fin a m e, .fin c n d =>
    let lo := min e d
    let v := signedMag a (m * 2 ^ (e - lo).toNat) + signedMag c (n * 2 ^ (d - lo).toNat)
    f.roundInt (a && c) v lo

/-- The square of a word (R227). -/
def Fmt.sq (f : Fmt) (x : Nat) : Nat × FFlags :=
  match f.unpack x with
  | .nan s => (f.nan, { invalid := s })
  | .inf _ => (f.inf false, {})
  | .fin _ m e => f.round false (m * m) (2 * e)

/-- A key that orders the words of a format that are no NaN, −0 below +0. -/
def Fmt.order (f : Fmt) (x : Nat) : Int :=
  let m : Int := (x % f.signBit : Nat)
  if x / f.signBit % 2 = 1 then -m - 1 else m

/-- The minimum or maximum of two words (R222). -/
def Fmt.minMax (f : Fmt) (isMax : Bool) (x y : Nat) : Nat × FFlags :=
  match f.unpack x, f.unpack y with
  | .nan s, .nan t => (f.nan, { invalid := s || t })
  | .nan s, _ => (f.nan, { invalid := s })
  | _, .nan t => (f.nan, { invalid := t })
  | _, _ => (if decide (f.order x ≤ f.order y) != isMax then x else y, {})

/-- A word of one format made a word of a wider one, exactly; a NaN becomes the canonical one, and a signalling
NaN is invalid (R227). -/
def Fmt.widen (f g : Fmt) (x : Nat) : Nat × FFlags :=
  match f.unpack x with
  | .nan s => (g.nan, { invalid := s })
  | .inf a => (g.inf a, {})
  | .fin a m e => ((g.round a m e).1, {})

/-! ### Element types (R221) -/

/-- The types of R221. -/
inductive Elem where
  | int (bytes : Nat) (signed : Bool)
  | flt (f : Fmt)
  deriving DecidableEq, Repr

/-- The type of a code. -/
def elemOf (code : Nat) : Option Elem :=
  match code with
  | 0x0 => some (.int 1 true)
  | 0x1 => some (.int 1 false)
  | 0x2 => some (.int 2 true)
  | 0x3 => some (.int 2 false)
  | 0x4 => some (.int 4 true)
  | 0x5 => some (.int 4 false)
  | 0x6 => some (.int 8 true)
  | 0x7 => some (.int 8 false)
  | 0x8 => some (.flt .b16)
  | 0x9 => some (.flt .bf16)
  | 0xA => some (.flt .b32)
  | 0xB => some (.flt .b64)
  | _ => none

/-- The size of an element in bytes. -/
def Elem.size : Elem → Nat
  | .int n _ => n
  | .flt f => (f.ebits + f.mbits + 1) / 8

/-- A word of `n` bytes as a number. -/
def asInt (n : Nat) (signed : Bool) (w : Nat) : Int :=
  let w := w % 2 ^ (8 * n)
  if signed && decide (2 ^ (8 * n - 1) ≤ w) then (w : Int) - 2 ^ (8 * n) else w

/-- A number as a word of `n` bytes, modulo 2^(8n). -/
def ofInt (n : Nat) (v : Int) : Nat := (v % (2 ^ (8 * n) : Int)).toNat

end Sys2Proof.Machine
end

