-- ==== Sys2Proof/Machine/Engine.lean ====
section
/-! DEFINITION. What the near-memory operations compute (R223 to R232): atomics, byte writes, gather and scatter,
search, and reduction over the dyadic tree. -/

namespace Sys2Proof.Machine

open Sys2Proof

/-! ### Fields of granule 0 -/

/-- Bytes [i, i + n) of granule 0 as a number. -/
def g0At (f : Flit) (i n : Nat) : Nat := f.g0.toNat / 2 ^ (8 * i) % 2 ^ (8 * n)

/-- The element size of GATHER and SCATTER (R231). -/
def gsSize (f : Flit) : Nat :=
  match f.arg.toNat % 4 with
  | 0 => 4
  | 1 => 8
  | 2 => 16
  | _ => 64

/-- Byte `i` of the 256 payload bytes. -/
def payloadAt (f : Flit) (i n : Nat) : Nat := leAt (payload f) i n

/-- The index list of GATHER or SCATTER. -/
def indices (f : Flit) : List Nat := (List.range f.length.toNat).map fun i => payloadAt f (4 * i) 4

/-- Element `i`'s first byte: OFFSET + index × E. -/
def elemAddr (f : Flit) (ix : Nat) : Nat := f.offset.toNat + ix * gsSize f

/-! ### Atomics (R224) -/

/-- The size of an ATOMIC's operand: none for the reserved code. -/
def atomicSize (f : Flit) : Option Nat :=
  match f.arg.toNat / 16 % 4 with
  | 0 => some 4
  | 1 => some 8
  | 2 => some 16
  | _ => none

/-- The operation and size are a pair that R224 lists. -/
def atomicListed (op size : Nat) : Bool :=
  match op with
  | 0x0 | 0x1 | 0x3 | 0x4 | 0x5 => true
  | 0x2 | 0x6 | 0x7 | 0x8 | 0x9 | 0xA | 0xB | 0xC => size != 16
  | _ => false

/-- The float format of an atomic's size. -/
def atomicFmt (size : Nat) : Fmt := if size = 4 then .b32 else .b64

/-- The new value of R224. -/
def atomicNew (op size prior x cmp : Nat) : Nat :=
  match op with
  | 0x0 => x
  | 0x1 => if prior = cmp then x else prior
  | 0x2 => (prior + x) % 2 ^ (8 * size)
  | 0x3 => Nat.land prior x
  | 0x4 => Nat.lor prior x
  | 0x5 => Nat.xor prior x
  | 0x6 => if asInt size true prior ≤ asInt size true x then prior else x
  | 0x7 => if asInt size true prior ≤ asInt size true x then x else prior
  | 0x8 => min prior x
  | 0x9 => max prior x
  | 0xA => ((atomicFmt size).add prior x).1
  | 0xB => ((atomicFmt size).minMax false prior x).1
  | _ => ((atomicFmt size).minMax true prior x).1

/-- Bytes [i, i + n) of a granule as a number. -/
def granAt (g : Granule) (i n : Nat) : Nat := g.toNat / 2 ^ (8 * i) % 2 ^ (8 * n)

/-- A granule with bytes [i, i + n) replaced. -/
def granPut (g : Granule) (i n v : Nat) : Granule :=
  let old := granAt g i n
  BitVec.ofNat 512 (g.toNat - old * 2 ^ (8 * i) + v % 2 ^ (8 * n) * 2 ^ (8 * i))

/-! ### Read-modify-writes of one granule -/

/-- What a write-type operation leaves in a granule that held `prior` (R223, R224, R231, R232). -/
def modified (op : Op) (f : Flit) (gran : Nat) (prior : Granule) : Granule :=
  match op with
  | .write => granOf f (gran - f.offset.toNat / 64)
  | .fill => f.g0
  | .writeBytes =>
    let lo := f.arg.toNat % 64
    let hi := f.arg.toNat / 64 % 64
    granPut prior lo (hi + 1 - lo) (g0At f lo (hi + 1 - lo))
  | .atomic =>
    let n := (atomicSize f).getD 4
    let i := f.offset.toNat % 64
    granPut prior i n (atomicNew (f.arg.toNat % 16) n (granAt prior i n) (g0At f 0 n) (g0At f 32 n))
  | .scatter =>
    let e := gsSize f
    (List.range f.length.toNat).foldl (fun g i =>
      let a := elemAddr f (payloadAt f (4 * i) 4)
      if a / 64 = gran then granPut g (a % 64) e (payloadAt f (64 + i * e) e) else g) prior
  | _ => prior

/-- A WRITE stores granule j as poisoned where POISON[j] is 1 (R185). -/
def storesPoison (op : Op) (f : Flit) (gran : Nat) : Bool :=
  op == .write && f.poison.getLsbD (gran - f.offset.toNat / 64)

/-- The operation is one of those for which R185 names the request's own granules as consumed, and one of them came
poisoned: of a SCATTER its data, granules 1 to 3.  The others take theirs as without poison. -/
def inputPoisoned (op : Op) (f : Flit) : Bool :=
  match op with
  | .atomic | .reduce | .find | .writeBytes | .fill => f.poison != 0
  | .scatter => f.poison &&& 0xE != 0
  | _ => false

/-! ### Reduction (R225 to R229) -/

/-- The control of a REDUCE (R225). -/
structure RedCtl where
  op : Nat
  ty : Elem
  stride : Nat
  count : Nat
  deriving DecidableEq, Repr

/-- The control in granule 0, where it is legal (R225). -/
def redCtl (f : Flit) : Option RedCtl :=
  let op := g0At f 0 1
  let stride := g0At f 4 4
  let count := g0At f 8 4
  match elemOf (g0At f 1 1) with
  | none => none
  | some ty =>
    let isInt : Bool := match ty with
      | .int _ _ => true
      | .flt _ => false
    if op ≤ 6 ∧ (isInt ∨ ¬ (3 ≤ op ∧ op ≤ 5)) ∧ g0At f 2 2 = 0 ∧ stride % ty.size = 0 ∧ ty.size ≤ stride ∧ stride ≤ 1048576
        ∧ 1 ≤ count ∧ count ≤ 1048576 ∧ f.g0.toNat / 2 ^ 96 = 0 then some ⟨op, ty, stride, count⟩
    else none

/-- The LENGTH that a REDUCE must carry (R226). -/
def RedCtl.length (c : RedCtl) : Nat := ((c.count - 1) * c.stride + c.ty.size + 63) / 64

/-- The type of the accumulator and result (R227). -/
def RedCtl.acc (c : RedCtl) : Elem :=
  if c.op = 0 ∨ c.op = 6 then
    match c.ty with
    | .int _ s => .int 8 s
    | .flt f => if f = .b64 then .flt .b64 else .flt .b32
  else c.ty

/-- A value with the flags raised so far. -/
structure RVal where
  v : Nat
  fl : FFlags
  deriving DecidableEq, Repr

/-- An exact integer narrowed to an accumulator, with OVERFLOW where it wraps (R229). -/
def wrapInt (n : Nat) (signed : Bool) (v : Int) : RVal :=
  let w := ofInt n v
  { v := w, fl := { overflow := decide (asInt n signed w ≠ v) } }

/-- The leaf of an element word (R227). -/
def RedCtl.leaf (c : RedCtl) (w : Nat) : RVal :=
  match c.ty with
  | .int n s =>
    let v := asInt n s w
    if c.op = 0 then wrapInt 8 s v
    else if c.op = 6 then wrapInt 8 s (v * v)
    else ⟨w, {}⟩
  | .flt f =>
    let g := match c.acc with
      | .flt g => g
      | .int _ _ => f
    let (x, fl) := f.widen g w
    if c.op = 6 then
      let (y, fl2) := g.sq x
      ⟨y, fl.join fl2⟩
    else ⟨x, fl⟩

/-- The ⊕ of a tree step (R228). -/
def RedCtl.join (c : RedCtl) (x y : RVal) : RVal :=
  let fl := x.fl.join y.fl
  match c.acc with
  | .int n s =>
    let a := asInt n s x.v
    let b := asInt n s y.v
    match c.op with
    | 1 => ⟨if a ≤ b then x.v else y.v, fl⟩
    | 2 => ⟨if a ≤ b then y.v else x.v, fl⟩
    | 3 => ⟨Nat.land x.v y.v, fl⟩
    | 4 => ⟨Nat.lor x.v y.v, fl⟩
    | 5 => ⟨Nat.xor x.v y.v, fl⟩
    | _ => let r := wrapInt n s (a + b); ⟨r.v, fl.join r.fl⟩
  | .flt g =>
    let (v, f2) := match c.op with
      | 1 => g.minMax false x.v y.v
      | 2 => g.minMax true x.v y.v
      | _ => g.add x.v y.v
    ⟨v, fl.join f2⟩

/-- The dyadic tree of R228: node (j, k) over leaves given by `lf`. -/
def RedCtl.node (c : RedCtl) (lf : Nat → RVal) : Nat → Nat → RVal
  | 0, k => lf k
  | j + 1, k =>
    let l := RedCtl.node c lf j (2 * k)
    if (2 * k + 1) * 2 ^ j ≥ c.count then l
    else c.join l (RedCtl.node c lf j (2 * k + 1))

/-- The root: node (ceil(log2 COUNT), 0). -/
def RedCtl.root (c : RedCtl) (lf : Nat → RVal) : RVal := c.node lf (bitLen (c.count - 1)) 0

/-! ### Values read -/

/-- The granules a request has read: address, contents, poisoned. -/
abbrev Vals := List (Nat × Granule × Bool)

/-- A granule among those read; zeros if absent. -/
def valOf (vs : Vals) (gran : Nat) : Granule :=
  match vs.find? fun v => v.1 == gran with
  | some v => v.2.1
  | none => 0

/-- The granule came poisoned. -/
def valBad (vs : Vals) (gran : Nat) : Bool := vs.any fun v => v.1 == gran && v.2.2

/-- `n` bytes at a local offset, within one granule. -/
def bytesAt (vs : Vals) (a n : Nat) : Nat := granAt (valOf vs (a / 64)) (a % 64) n

/-- The result granule of a REDUCE (R229); `none` if it is poisoned (R234). -/
def reduceResult (f : Flit) (vs : Vals) : Option Granule :=
  match redCtl f with
  | none => none
  | some c =>
    if vs.any (·.2.2) then none
    else
      let r := c.root fun i => c.leaf (bytesAt vs (f.offset.toNat + i * c.stride) c.ty.size)
      some (BitVec.ofNat 512 (r.v + c.count * 2 ^ 64 + r.fl.code * 2 ^ 96))

/-- The element size of a FIND (R230). -/
def findSize (f : Flit) : Nat := 2 ^ (f.arg.toNat % 4)

/-- The lowest matching index of a FIND, or 0xFFFFFFFF (R230). -/
def findResult (f : Flit) (vs : Vals) : Nat :=
  let e := findSize f
  let key := g0At f 0 e
  let mask := g0At f 8 e
  match (List.range (f.length.toNat * 64 / e)).find? fun i =>
      Nat.land (bytesAt vs (f.offset.toNat + i * e) e) mask == Nat.land key mask with
  | some i => i
  | none => 0xFFFFFFFF

/-- What a completion carries of a request's outcome. -/
structure Answer where
  status : Nat
  len : Nat
  arg : Nat := 0
  gvalid : Nat := 0
  poison : Nat := 0
  grans : List Granule := []
  deriving DecidableEq, Repr

/-- Poisoned granules are sent as zeros, with their POISON bits. -/
def answerGrans (len : Nat) (gs : List (Granule × Bool)) : Answer :=
  { status := if gs.any (·.2) then 0x08 else 0x00, len := len
    gvalid := 2 ^ gs.length - 1
    poison := ofDigits (gs.map (·.2))
    grans := gs.map fun g => if g.2 then 0 else g.1 }
where
  /-- Bits, the first lowest. -/
  ofDigits : List Bool → Nat
    | [] => 0
    | b :: bs => b.toNat + 2 * ofDigits bs

/-- The granule that `n` gathered elements fill from element `k` on: contents, and whether one is poisoned. -/
def gatherGran (f : Flit) (vs : Vals) (k : Nat) : Granule × Bool :=
  let e := gsSize f
  let per := 64 / e
  let ixs := ((indices f).drop (k * per)).take per
  (ofBytes (padTo 64 (ixs.flatMap fun ix => leBytes (bytesAt vs (elemAddr f ix) e) e)),
    ixs.any fun ix => valBad vs (elemAddr f ix / 64))

/-- The completion of a read-type request from what its parts read (R170, R185, R223, R234). -/
def readAnswer (op : Op) (f : Flit) (vs : Vals) : Answer :=
  let len := f.length.toNat
  let bad := vs.any (·.2.2) || inputPoisoned op f
  match op with
  | .read => answerGrans len ((List.range len).map fun j => (valOf vs (f.offset.toNat / 64 + j), valBad vs (f.offset.toNat / 64 + j)))
  | .gather => answerGrans len ((List.range ((len * gsSize f + 63) / 64)).map (gatherGran f vs))
  | .reduce =>
    match (if inputPoisoned op f then none else reduceResult f vs) with
    | some g => { status := 0x00, len := vs.length, gvalid := 1, grans := [g] }
    | none => { status := 0x08, len := vs.length, gvalid := 1, poison := 1, grans := [0] }
  | .find =>
    if bad then { status := 0x08, len := vs.length, arg := 0xFFFFFFFF }
    else { status := 0x00, len := vs.length, arg := findResult f vs }
  | _ => { status := 0x00, len := 0 }

/-- The completion of a write-type request that has committed in full (R170, R223). -/
def writeAnswer (op : Op) (f : Flit) (vs : Vals) (written : Nat) : Answer :=
  match op with
  | .atomic =>
    let n := (atomicSize f).getD 4
    { status := 0x00, len := 1, gvalid := 1, grans := [BitVec.ofNat 512 (bytesAt vs f.offset.toNat n)] }
  | .write => { status := 0x00, len := written }
  | .writeBytes => { status := 0x00, len := 1 }
  | _ => { status := 0x00, len := f.length.toNat }

/-- The completion of a write-type request that poison bars, given what it read (R185, R223, R234): a WRITE_BYTES marks
a poisoned target, with the GVALID bit that R145 asks of POISON, and a SCATTER has written no element. -/
def poisonAnswer (op : Op) (f : Flit) (vs : Vals) : Answer :=
  match op with
  | .atomic => { status := 0x08, len := 1, gvalid := 1, poison := 1, grans := [0] }
  | .writeBytes =>
    if vs.any (·.2.2) then { status := 0x08, len := 1, gvalid := 1, poison := 1, grans := [0] } else { status := 0x08, len := 1 }
  | .scatter => { status := 0x08, len := 0 }
  | _ => { status := 0x08, len := f.length.toNat }

end Sys2Proof.Machine
end

