-- ==== Sys2Proof/Machine/Cipher.lean ====
section
/-! DEFINITION. AES-256 (FIPS 197) and its uses: XTS over one granule (R302), CMAC (R314) and key unwrap (R315). -/

namespace Sys2Proof.Machine

open Sys2Proof

/-! ### The field of AES -/

/-- Multiplication by x modulo a field polynomial of degree 8, given by its low byte. -/
def xtime (poly v : Byte) : Byte := if v.getLsbD 7 then (v <<< 1) ^^^ poly else v <<< 1

/-- Multiplication in GF(2^8) by schoolbook steps over the bits of `w`. -/
def gfMul (poly v w : Byte) : Byte :=
  ((List.range 8).foldl (fun (s : Byte × Byte) i =>
    (if w.getLsbD i then s.1 ^^^ s.2 else s.1, xtime poly s.2)) (0, v)).1

/-- Squaring and multiplying up: the inverse, which is the 254th power. -/
def gfInv (poly v : Byte) : Byte :=
  let sq (x : Byte) : Byte := gfMul poly x x
  let v2 := sq v
  let v4 := sq v2
  let v8 := sq v4
  let v16 := sq v8
  let v32 := sq v16
  let v64 := sq v32
  let v128 := sq v64
  gfMul poly v2 (gfMul poly v4 (gfMul poly v8 (gfMul poly v16 (gfMul poly v32 (gfMul poly v64 v128)))))

/-- The polynomial of AES, x^8 + x^4 + x^3 + x + 1. -/
abbrev aesPoly : Byte := 0x1B

/-- The S-box of FIPS 197. -/
def subByte (v : Byte) : Byte :=
  let i := gfInv aesPoly v
  i ^^^ i.rotateLeft 1 ^^^ i.rotateLeft 2 ^^^ i.rotateLeft 3 ^^^ i.rotateLeft 4 ^^^ 0x63

/-- The inverse S-box. -/
def invSubByte (v : Byte) : Byte :=
  gfInv aesPoly (v.rotateLeft 1 ^^^ v.rotateLeft 3 ^^^ v.rotateLeft 6 ^^^ 0x05)

/-! ### AES-256 on 16-byte blocks; a block's byte 4c + r is the state's row r, column c -/

/-- Two blocks added. -/
def xorBytes (xs ys : List Byte) : List Byte := List.zipWith (· ^^^ ·) xs ys

/-- The block with rows shifted: byte 4c + r comes from column c + r. -/
def shiftRows (s : List Byte) : List Byte :=
  (List.range 16).map fun i => s.getD ((i + 4 * (i % 4)) % 16) 0

/-- The inverse of `shiftRows`. -/
def invShiftRows (s : List Byte) : List Byte :=
  (List.range 16).map fun i => s.getD ((i + 12 * (i % 4)) % 16) 0

/-- Columns multiplied by a circulant matrix with first row `m`. -/
def mixWith (m : List Byte) (s : List Byte) : List Byte :=
  (List.range 16).map fun i =>
    (List.range 4).foldl (fun acc k => acc ^^^ gfMul aesPoly (m.getD ((k + 4 - i % 4) % 4) 0) (s.getD (i / 4 * 4 + k) 0)) 0

/-- The key schedule: words of 4 bytes, newest first. -/
def expandFrom (ws : List (List Byte)) (i : Nat) (rc : Byte) : Nat → List (List Byte)
  | 0 => ws
  | n + 1 =>
    let prev := ws.headD []
    let old := ws.getD 7 []
    let t :=
      if i % 8 = 0 then
        xorBytes ((prev.drop 1 ++ prev.take 1).map subByte) [rc, 0, 0, 0]
      else if i % 8 = 4 then prev.map subByte
      else prev
    expandFrom (xorBytes old t :: ws) (i + 1) (if i % 8 = 0 then xtime aesPoly rc else rc) n

/-- The fifteen round keys of a 32-byte key. -/
def roundKeys (key : List Byte) : List (List Byte) :=
  let ws := (expandFrom ((List.range 8).reverse.map fun i => (key.drop (4 * i)).take 4) 8 1 52).reverse
  (List.range 15).map fun r => ((ws.drop (4 * r)).take 4).flatten

/-- One block enciphered. -/
def aesEnc (rk : List (List Byte)) (s : List Byte) : List Byte :=
  let s := xorBytes s (rk.headD [])
  let s := ((rk.drop 1).take 13).foldl (fun s k => xorBytes (mixWith [2, 3, 1, 1] (shiftRows (s.map subByte))) k) s
  xorBytes (shiftRows (s.map subByte)) (rk.getD 14 [])

/-- One block deciphered. -/
def aesDec (rk : List (List Byte)) (s : List Byte) : List Byte :=
  let s := (invShiftRows (xorBytes s (rk.getD 14 []))).map invSubByte
  let s := ((rk.drop 1).take 13).reverse.foldl
    (fun s k => (invShiftRows (mixWith [0x0E, 0x0B, 0x0D, 0x09] (xorBytes s k))).map invSubByte) s
  xorBytes s (rk.headD [])

/-! ### XTS over a granule (R302) -/

/-- The tweak times α: little-endian in GF(2^128) with x^7 + x^2 + x + 1. -/
def tweakNext (t : List Byte) : List Byte :=
  let n := ofLe t * 2
  leBytes (if 2 ^ 128 ≤ n then Nat.xor (n - 2 ^ 128) 0x87 else n) 16

/-- The four blocks of a granule, each between two additions of its tweak. -/
def xtsBlocks (f : List Byte → List Byte) : List Byte → List Byte → Nat → List Byte
  | _, _, 0 => []
  | t, bs, n + 1 => xorBytes (f (xorBytes (bs.take 16) t)) t ++ xtsBlocks f (tweakNext t) (bs.drop 16) n

/-- The two halves of a 512-bit key, as bytes: Key1 for data, Key2 for the tweak. -/
def keyHalves (k : BitVec 512) : List Byte × List Byte := (leBytes k.toNat 32, leBytes (k.toNat / 2 ^ 256) 32)

/-- A granule enciphered; the tweak is its local offset. -/
def xtsEnc (k : BitVec 512) (gran : Nat) (bs : List Byte) : List Byte :=
  let (k1, k2) := keyHalves k
  xtsBlocks (aesEnc (roundKeys k1)) (aesEnc (roundKeys k2) (leBytes (gran * 64) 16)) bs 4

/-- A granule deciphered. -/
def xtsDec (k : BitVec 512) (gran : Nat) (bs : List Byte) : List Byte :=
  let (k1, k2) := keyHalves k
  xtsBlocks (aesDec (roundKeys k1)) (aesEnc (roundKeys k2) (leBytes (gran * 64) 16)) bs 4

/-! ### CMAC (R314) and key unwrap (R315) -/

/-- A block times x in the big-endian field of CMAC. -/
def cmacDouble (bs : List Byte) : List Byte :=
  let n := ofLe bs.reverse * 2
  (leBytes (if 2 ^ 128 ≤ n then Nat.xor (n - 2 ^ 128) 0x87 else n) 16).reverse

/-- AES-256-CMAC of a message (SP 800-38B). -/
def cmac (key msg : List Byte) : List Byte :=
  let rk := roundKeys key
  let k1 := cmacDouble (aesEnc rk (List.replicate 16 0))
  let n := if msg.isEmpty then 1 else (msg.length + 15) / 16
  let last := msg.drop (16 * (n - 1))
  let mlast := if last.length = 16 then xorBytes last k1 else xorBytes (padTo 16 (last ++ [0x80])) (cmacDouble k1)
  let s := (List.range (n - 1)).foldl (fun s i => aesEnc rk (xorBytes s ((msg.drop (16 * i)).take 16)))
    (List.replicate 16 (0 : Byte))
  aesEnc rk (xorBytes s mlast)

/-- One step of the unwrap of RFC 3394. -/
def unwrapStep (rk : List (List Byte)) (n : Nat) (s : List Byte × List (List Byte)) (t : Nat) : List Byte × List (List Byte) :=
  let i := (t - 1) % n
  let a := xorBytes s.1 (leBytes t 8).reverse
  let d := aesDec rk (a ++ s.2.getD i [])
  (d.take 8, s.2.set i (d.drop 8))

/-- AES-256 key unwrap (RFC 3394): `none` where the integrity value is wrong. -/
def unwrapKey (kek wrapped : List Byte) : Option (List Byte) :=
  let n := wrapped.length / 8 - 1
  let rs := (List.range n).map fun i => (wrapped.drop (8 * (i + 1))).take 8
  let (a, rs) := (List.range (6 * n)).foldl (fun s k => unwrapStep (roundKeys kek) n s (6 * n - k)) (wrapped.take 8, rs)
  if a = List.replicate 8 0xA6 ∧ n ≠ 0 ∧ wrapped.length % 8 = 0 then some rs.flatten else none

end Sys2Proof.Machine
end

