-- ==== Sys2Proof/Machine/GranuleCode.lean ====
section
/-! DEFINITION. The granule code and the three stored forms (R284 to R288), encryption of a granule (R302), and where
a granule lies in the stack (R244, R245). -/

namespace Sys2Proof.Machine

open Sys2Proof

/-! ### The code (R284) -/

/-- The field polynomial x^8 + x^4 + x^3 + x^2 + 1. -/
abbrev rsPoly : Byte := 0x1D

/-- α^n. -/
def alphaPow : Nat → Byte
  | 0 => 1
  | n + 1 => xtime rsPoly (alphaPow n)

/-- Coefficients of a polynomial times (x − α^j), highest power first. -/
def timesRoot (j : Nat) (p : List Byte) : List Byte :=
  xorBytes (p ++ [0]) (0 :: p.map fun c => gfMul rsPoly c (alphaPow j))

/-- The generator's coefficients after its leading 1, highest power first. -/
def rsGen : List Byte := ((List.range 8).foldl (fun p j => timesRoot j p) [1]).drop 1

/-- The check symbols of data symbols: d(x) × x^8 mod g(x). -/
def rsCheck (data : List Byte) : List Byte :=
  data.foldl (fun r d =>
    let q := r.headD 0 ^^^ d
    xorBytes (r.drop 1 ++ [0]) (rsGen.map (gfMul rsPoly q))) (List.replicate 8 0)

/-- The eight syndromes of 72 symbols. -/
def syndrome (syms : List Byte) : List Byte :=
  (List.range 8).map fun j => syms.foldl (fun s c => gfMul rsPoly s (alphaPow j) ^^^ c) 0

/-- What a syndrome says of one symbol in error: the symbol and the XOR value, or none. -/
def oneError (s : List Byte) : Option (Nat × Byte) :=
  let e := s.headD 0
  if e = 0 then none
  else (List.range 72).findSome? fun i =>
    let a := alphaPow (71 - i)
    let want := ((List.range 8).foldl (fun (acc : List Byte × Byte) _ => (acc.1 ++ [acc.2], gfMul rsPoly acc.2 a)) ([], e)).1
    if want = s then some (i, e) else none

/-! ### The three forms (R286) -/

/-- Check symbols of zeros with a mask on symbols 64, 65 and 66. -/
def maskForm (m : Byte) : List Byte := List.replicate 64 0 ++ [m, m, m, 0, 0, 0, 0, 0]
/-- The poison form. -/
def poisonForm : List Byte := maskForm 0xE7
/-- The zero form. -/
def zeroForm : List Byte := maskForm 0x3C

/-- The ordinary form of a granule under a key. -/
def ordinaryForm (key : BitVec 512) (gran : Nat) (g : Granule) : List Byte :=
  let c := xtsEnc key gran (granBytes g)
  c ++ rsCheck c

/-! ### Classes of a read (R287) -/

/-- The classes of R287; the second argument is the corrected symbol, if any. -/
inductive GClass where
  | ordinary (fix : Option (Nat × Byte))
  | poison (fix : Option (Nat × Byte))
  | zero (fix : Option (Nat × Byte))
  | bad
  deriving DecidableEq, Repr

/-- The table of R287. -/
def gclass (syms : List Byte) : GClass :=
  let s := syndrome syms
  let zeros := List.replicate 8 (0 : Byte)
  let sp := xorBytes s (syndrome poisonForm)
  let sz := xorBytes s (syndrome zeroForm)
  if s = zeros then .ordinary none
  else match oneError s with
    | some e => .ordinary (some e)
    | none =>
      if sp = zeros then .poison none
      else match oneError sp with
        | some e => .poison (some e)
        | none =>
          if sz = zeros then .zero none
          else match oneError sz with
            | some e => .zero (some e)
            | none => .bad

/-- The symbol that a class corrects. -/
def GClass.fix : GClass → Option (Nat × Byte)
  | .ordinary x => x
  | .poison x => x
  | .zero x => x
  | .bad => none

/-- Symbols with an XOR value applied at one of them. -/
def flipSym (syms : List Byte) (i : Nat) (v : Byte) : List Byte := syms.set i (syms.getD i 0 ^^^ v)

/-- Symbols with the class's correction made. -/
def corrected (syms : List Byte) (c : GClass) : List Byte :=
  match c.fix with
  | some (i, v) => flipSym syms i v
  | none => syms

/-- What a read delivers: the granule, and whether it is poisoned (R287, R301). -/
def deliver (key : BitVec 512) (gran : Nat) (syms : List Byte) : Granule × Bool :=
  let c := gclass syms
  match c with
  | .ordinary _ => (ofBytes (xtsDec key gran ((corrected syms c).take 64)), false)
  | .poison _ => (0, true)
  | .zero _ => (0, false)
  | .bad => (0, true)

/-! ### Where a granule lies (R244, R245) -/

/-- The piece of a granule: local offset bits [36:12]. -/
def pieceOf (gran : Nat) : Nat := gran / 64

/-- The channel of a piece (R244). -/
def pieceChan (p : Nat) : Nat :=
  Nat.xor (Nat.xor (p % 64) (p / 64 % 64)) (Nat.xor (Nat.xor (p / 4096 % 64) (p / 262144 % 64)) (p / 16777216 % 2))

/-- The channel of a granule. -/
def chanOf (gran : Nat) : Nat := pieceChan (pieceOf gran)

/-- The bank, 0 to 31 (R245). -/
def bankOf (gran : Nat) : Nat :=
  let q := pieceOf gran / 64 % 2 ^ 19
  Nat.xor (q % 16 * 2 + gran / 32 % 2) (q / 16 % 32)

/-- The bank group of a bank. -/
def groupOf (bank : Nat) : Nat := bank % 8

/-- The row (R245). -/
def rowOf (gran : Nat) : Nat := pieceOf gran / 1024 % 2 ^ 15

/-- The pieces of channel `c`, in ascending order: the piece with number `q` within the channel. -/
def chanPiece (c q : Nat) : Nat :=
  q * 64 + Nat.xor c (pieceChan (q * 64))

end Sys2Proof.Machine
end

