-- ==== Sys2Proof/Machine/LaneCode.lean ====
section
/-! DEFINITION. What a lane carries: line levels, PRBS patterns, 258-bit blocks, control blocks, training messages and
the segment FEC (R57, R75, R87 to R92, R112, R113). -/

namespace Sys2Proof.Machine

open Sys2Proof

/-! ### Bits and levels (R57) -/

/-- The bits of a byte, bit 0 first. -/
def byteBits (v : Byte) : List Bool := (List.range 8).map v.getLsbD

/-- The number whose bits are given, the first the most significant. -/
def ofBits (bs : List Bool) : Nat := bs.foldl (fun n c => 2 * n + (if c then 1 else 0)) 0

/-- The level of an NRZ bit, in thirds of the outer level times three (R57). -/
def nrzLevel (c : Bool) : Int := if c then 1 else -1

/-- The level of a PAM4 bit pair, the first bit the more significant (R57). -/
def pamLevel (hi lo : Bool) : Int :=
  match hi, lo with
  | false, false => -3
  | false, true => -1
  | true, true => 1
  | true, false => 3

/-- A bit sequence as line levels at a grade: NRZ at G1, PAM4 above (R56, R57). -/
def levelsOf (g : Fin 4) : List Bool → List Int
  | [] => []
  | [c] => [nrzLevel c]
  | c :: d :: rest => if g = 0 then nrzLevel c :: nrzLevel d :: levelsOf g rest else pamLevel c d :: levelsOf g rest

/-! ### PRBS (R75, R76) -/

/-- The degree of a pattern's polynomial, and the exponents of its other terms but 1 (R75). -/
def prbsPoly (pat : BitVec 2) : Nat × List Nat :=
  match pat.toNat with
  | 0 => (7, [6])
  | 1 => (13, [12, 2, 1])
  | _ => (31, [28])

/-- The next bit of a pattern from the bits before it, the latest at bit 0 of `past` (R75).  The polynomial's sequence is
sent as it is, at every pattern without inversion (DESIGN CHOICE: R75 names the O.150 form and states no inversion; log 102). -/
def prbsNext (pat : BitVec 2) (past : BitVec 31) : Bool :=
  let (n, ts) := prbsPoly pat
  ts.foldl (fun c t => xor c (past.getLsbD (t - 1))) (past.getLsbD (n - 1))

/-- A bit shifted into the past. -/
def prbsShift (past : BitVec 31) (c : Bool) : BitVec 31 := (past <<< (1 : Nat)) ||| (if c then 1 else 0)

/-- `k` bits of a pattern after the bits `past`: what a generator sends (R75). -/
def prbsBits (pat : BitVec 2) (past : BitVec 31) : Nat → List Bool
  | 0 => []
  | k + 1 => prbsNext pat past :: prbsBits pat (prbsShift past (prbsNext pat past)) k

/-! ### Blocks (R87) -/

/-- A block's 258 bits in the order sent: the header, bit 0 first, then bytes 0 to 31, each bit 0 first (R87). -/
def blockBits (k : LaneBlock) : List Bool :=
  [k.header.getLsbD 0, k.header.getLsbD 1] ++ (padTo 32 k.payload).flatMap byteBits

/-- Eight bits at a time, bit 0 first: the bytes of a bit sequence. -/
def bytesOfBits : Nat → List Bool → List Byte
  | 0, _ => []
  | n + 1, bs => BitVec.ofNat 8 (ofBits (bs.take 8).reverse) :: bytesOfBits n (bs.drop 8)

/-- The block that 258 bits spell (R87). -/
def blockOfBits (bs : List Bool) : LaneBlock :=
  { header := BitVec.ofNat 2 (ofBits (bs.take 2).reverse), payload := bytesOfBits 32 (bs.drop 2) }

/-- A header as a swapped pair gives it: R57 makes a negated level flip every NRZ bit, and the first bit of every
PAM4 pair; 258 bits are whole pairs, so a pair's first bits are a block's even ones. -/
def headerInv (g : Fin 4) (h : BitVec 2) : BitVec 2 := if g = 0 then ~~~ h else h ^^^ 1

/-- A payload byte as a swapped pair gives it (R57). -/
def byteInv (g : Fin 4) (v : Byte) : Byte := if g = 0 then ~~~ v else v ^^^ 0x55

/-- The block as it reads with every level negated (R57, R94). -/
def blockInverted (g : Fin 4) (k : LaneBlock) : LaneBlock :=
  { header := headerInv g k.header, payload := k.payload.map (byteInv g) }

abbrev hdrData : BitVec 2 := 1
abbrev hdrControl : BitVec 2 := 2

/-- Headers 0b01 and 0b10 are valid, 0b00 and 0b11 are not (R87). -/
def headerValid (h : BitVec 2) : Bool := h == hdrData || h == hdrControl

/-! ### Control blocks (R88, R89) -/

abbrev ctlFill : Byte := 0x1E
abbrev ctlTrain : Byte := 0x2D

/-- A control block's 32 payload bytes: type, K-MARK 0xF628, phase, the type's 26 bytes, CRC-16 (R88). -/
def ctlBytes (typ phase : Byte) (body : List Byte) : List Byte :=
  let p := [typ, 0x28, 0xF6, phase] ++ padTo 26 body
  p ++ leBytes (crc16 p).toNat 2

/-- A control block as a receiver reads it. -/
structure Ctl where
  typ : Byte
  phase : Byte
  body : List Byte
  deriving DecidableEq, Repr

/-- A control block read: another type or a bad CRC discards it (R88). -/
def parseCtl (bs : List Byte) : Option Ctl :=
  let typ := bs.getD 0 0
  if bs.length = 32 ∧ (typ = ctlFill ∨ typ = ctlTrain) ∧ leAt bs 30 2 = (crc16 (bs.take 30)).toNat then
    some { typ := typ, phase := bs.getD 3 0, body := (bs.drop 4).take 26 }
  else none

/-- K-MARK stands where a control block has it (R88, R94). -/
def hasMark (bs : List Byte) : Bool := leAt bs 1 2 == 0xF628

/-- The 26 bytes of a FILL block: ROW, SPREAD, HOLD, zeros (R89). -/
def fillBody (row : BitVec 16) (spread : Byte) (hold : Bool) : List Byte :=
  padTo 26 (leBytes row.toNat 2 ++ [spread, if hold then 1 else 0])

/-! ### Block lock and polarity (R93, R94) -/

/-- 64 consecutive valid headers, the latest of what came: as received, or with the pair swapped, since R94 finds the
polarity only after the lock (R93; log 74). -/
def locksOn (g : Fin 4) (blocks : List LaneBlock) : Bool :=
  let last := (blocks.drop (blocks.length - 64)).map (·.header)
  decide (64 ≤ last.length) && (last.all headerValid || last.all fun h => headerValid (headerInv g h))

/-- Two consecutive control blocks carry K-MARK (R94). -/
def markTwice (blocks : List LaneBlock) : Bool :=
  let ctl := (blocks.filter fun k => k.header == hdrControl).map fun k => hasMark k.payload
  (List.zip ctl (ctl.drop 1)).any fun e => e.1 && e.2

/-- The polarity that yields K-MARK in two consecutive control blocks: true is inverted (R94). -/
def polarityOf (g : Fin 4) (blocks : List LaneBlock) : Option Bool :=
  if markTwice blocks then some false else if markTwice (blocks.map (blockInverted g)) then some true else none

/-- 16 of some 64 consecutive headers are invalid, those of blocks in an uncorrectable codeword left out (R93). -/
def losesLock (headers : List (BitVec 2 × Bool)) : Bool :=
  let bad := (headers.filter fun e => !e.2).map fun e => !headerValid e.1
  (List.range (bad.length - 63)).any fun i => decide (16 ≤ ((bad.drop i).take 64).countP id)

/-! ### Training messages (R112, R113) -/

/-- Entry `i` of a list of eight at bits [4i+3:4i]: four bytes (R113). -/
def nibbles (xs : List Nat) : List Byte :=
  (List.range 4).map fun i => BitVec.ofNat 8 (xs.getD (2 * i) 0 % 16 + 16 * (xs.getD (2 * i + 1) 0 % 16))

/-- Eight entries of one byte each. -/
def octets (xs : List Nat) : List Byte := (List.range 8).map fun i => BitVec.ofNat 8 (xs.getD i 0)

/-- A segment message's code and its body from byte 7 (R113). -/
def SegMsg.wire : SegMsg → Byte × List Byte
  | .window what units => (0x02, what :: leBytes units.toNat 2)
  | .cap c => (0x06, [BitVec.ofNat 8 c.bmin, BitVec.ofNat 8 c.umax, BitVec.ofNat 8 c.hops, c.spread, if c.sideDown then 1 else 0]
      ++ nibbles c.shares ++ octets c.credits)
  | .commit c => (0x07, [BitVec.ofNat 8 c.blink, c.spread, BitVec.ofNat 8 c.ucap, 0] ++ nibbles c.shares ++ octets c.credits
      ++ [BitVec.ofNat 8 c.total])
  | .start left => (0x08, [BitVec.ofNat 8 left])
  | .move g => (0x09, [BitVec.ofNat 8 g.val])
  | .reform mask left => (0x0A, leBytes mask.toNat 2 ++ [BitVec.ofNat 8 left])

/-- The 26 bytes of a TRAIN block: code, sequence number, byte 6, the body from byte 7, zeros (R112). -/
def trainBody (code seq : Byte) (lane grade : Nat) (roleA : Bool) (msg : List Byte) : List Byte :=
  padTo 26 ([code, seq, BitVec.ofNat 8 (lane % 16 + 16 * (grade % 4) + if roleA then 64 else 0)] ++ msg)

/-- Four-bit entries read back. -/
def ofNibbles (bs : List Byte) : List Nat := bs.flatMap fun v => [v.toNat % 16, v.toNat / 16]

/-- The segment message that a TRAIN body carries, with its sequence number; a code that is not listed is reserved
and ignored, and a lane-scope message is not one (R112, R113). -/
def parseSeg (body : List Byte) : Option (Byte × SegMsg) :=
  let at' (i : Nat) : Byte := body.getD (i - 4) 0
  let seq := at' 5
  match (at' 4).toNat with
  | 0x02 => some (seq, .window (at' 7) (BitVec.ofNat 16 (leAt body 4 2)))
  | 0x06 => some (seq, .cap { bmin := (at' 7).toNat, umax := (at' 8).toNat, hops := (at' 9).toNat, spread := at' 10
                              sideDown := (at' 11).getLsbD 0, shares := ofNibbles ((body.drop 8).take 4)
                              credits := ((body.drop 12).take 8).map (·.toNat) })
  | 0x07 => some (seq, .commit { blink := (at' 7).toNat, spread := at' 8, ucap := (at' 9).toNat
                                 shares := ofNibbles ((body.drop 7).take 4), credits := ((body.drop 11).take 8).map (·.toNat)
                                 total := (at' 23).toNat })
  | 0x08 => some (seq, .start (at' 7).toNat)
  | 0x09 => some (seq, .move ⟨(at' 7).toNat % 4, Nat.mod_lt _ (by decide)⟩)
  | 0x0A => some (seq, .reform (BitVec.ofNat 16 (leAt body 3 2)) (at' 9).toNat)
  | _ => none

/-! ### The segment FEC: RS(544,514) over GF(2^10) (R91) -/

/-- A field element times x, modulo x^10 + x^3 + 1 (the field that IEEE 802.3 defines for this code, R91; PRESUMED, log 72). -/
def fecTimesX (a : BitVec 10) : BitVec 10 := if a.getLsbD 9 then (a <<< (1 : Nat)) ^^^ 0x009 else a <<< (1 : Nat)

/-- The product in GF(2^10). -/
def fecMul (a b : BitVec 10) : BitVec 10 :=
  (List.range 10).foldl (fun acc i => if b.getLsbD (9 - i) then fecTimesX acc ^^^ a else fecTimesX acc) 0

/-- A polynomial, highest power first, times (x − r). -/
def polyTimesRoot (p : List (BitVec 10)) (r : BitVec 10) : List (BitVec 10) :=
  List.zipWith (fun a c => a ^^^ c) (p ++ [0]) (0 :: p.map (fecMul r))

/-- The generator polynomial, the product of (x − 2^j) for j from 0 to 29, without its leading 1 (log 72). -/
def fecGen : List (BitVec 10) :=
  (((List.range 30).foldl (fun (s : List (BitVec 10) × BitVec 10) _ => (polyTimesRoot s.1 s.2, fecTimesX s.2)) ([1], 1)).1).drop 1

/-- The 30 parity symbols of a message: the remainder of its division by the generator polynomial (R91). -/
def fecParity (msg : List (BitVec 10)) : List (BitVec 10) :=
  msg.foldl (fun reg m =>
    let f := m ^^^ reg.getD 0 0
    List.zipWith (fun a g => a ^^^ fecMul f g) (reg.drop 1 ++ [0]) fecGen) (List.replicate 30 0)

/-- Ten bits at a time, the first the most significant: the symbols of a message (R91). -/
def symbolsOf : Nat → List Bool → List (BitVec 10)
  | 0, _ => []
  | n + 1, bs => BitVec.ofNat 10 (ofBits (bs.take 10)) :: symbolsOf n (bs.drop 10)

/-- A codeword: 514 message symbols and 30 of parity (R91). -/
def codeword (bits : List Bool) : List (BitVec 10) :=
  let m := symbolsOf 514 bits
  m ++ fecParity m

/-- The 10,280 bits of a codeword pair. -/
abbrev pairBits : Nat := 10280

/-- A codeword pair in the order sent: A0, B0, A1, B1 and so on to B543 (R91). -/
def codewordPair (bits : List Bool) : List (BitVec 10) :=
  let a := codeword (bits.take 5140)
  let c := codeword ((bits.drop 5140).take 5140)
  (List.range 544).flatMap fun i => [a.getD i 0, c.getD i 0]

/-- The logical lane of symbol `s` at width `w` (R91). -/
def symbolLane (s w : Nat) : Nat := s % w

/-- The symbols that logical lane `k` of `w` sends of a pair whose first symbol is number `s` (R91). -/
def dealt (w s k : Nat) (pair : List (BitVec 10)) : List (BitVec 10) :=
  ((List.range pair.length).filter fun i => symbolLane (s + i) w = k).map fun i => pair.getD i 0

/-- The bits of a symbol as a lane sends them, the most significant first (R91). -/
def symbolBits (v : BitVec 10) : List Bool := ((List.range 10).map v.getLsbD).reverse

/-! ### The flit's nine blocks (R90) -/

/-- The 288 bytes of a flit. -/
def wholeFlit (f : Flit) : List Byte := flitBytes f ++ leBytes f.crc.toNat 8

/-- Data block `j` of a flit: its bytes 32j to 32j + 31 (R90). -/
def flitBlock (f : Flit) (j : Nat) : LaneBlock := { header := hdrData, payload := ((wholeFlit f).drop (32 * j)).take 32 }

/-- The flit that 288 bytes spell (R142, R143). -/
def flitOf (bs : List Byte) : Flit :=
  let h := leAt bs 0 24
  let fld (lo n : Nat) : Nat := h / 2 ^ lo % 2 ^ n
  { kind := BitVec.ofNat 4 (fld 0 4), vl := fld 4 1 == 1, csr := fld 5 1 == 1
    rsv := BitVec.ofNat 8 (fld 6 2 + 4 * fld 31 1 + 8 * fld 47 1 + 16 * fld 117 3)
    opcode := BitVec.ofNat 8 (fld 8 8), dest := BitVec.ofNat 15 (fld 16 15), src := BitVec.ofNat 15 (fld 32 15)
    tag := BitVec.ofNat 16 (fld 48 16), flow := BitVec.ofNat 16 (fld 64 16), offset := BitVec.ofNat 37 (fld 80 37)
    gvalid := BitVec.ofNat 4 (fld 120 4), poison := BitVec.ofNat 4 (fld 124 4), status := BitVec.ofNat 8 (fld 128 8)
    length := BitVec.ofNat 16 (fld 136 16), attr := BitVec.ofNat 8 (fld 152 8), arg := BitVec.ofNat 32 (fld 160 32)
    g0 := ofBytes ((bs.drop 24).take 64), g1 := ofBytes ((bs.drop 88).take 64), g2 := ofBytes ((bs.drop 152).take 64)
    g3 := ofBytes ((bs.drop 216).take 64), crc := BitVec.ofNat 64 (leAt bs 280 8) }

/-- A flit with the data blocks that the lane layer did not deliver as zeros (R152). -/
def zeroBlocks (f : Flit) (gone : List (Fin 9)) : Flit :=
  if gone.isEmpty then f
  else flitOf ((List.range 9).flatMap fun j =>
    if gone.any fun k => k.val == j then List.replicate 32 0 else (flitBlock f j).payload)

end Sys2Proof.Machine
end

