-- ==== Sys2Proof/Machine/Lanes.lean ====
section
/-! DEFINITION. Lanes and segments: taps, hunt, lock, training, grade and width (chapters 03 and 04). -/

namespace Sys2Proof.Machine

open Sys2Proof

/-! ### Grades and taps -/

/-- Bandwidth units per lane at a grade: 1, 2, 4, 8 (chapter 04, "Grade, width and end-to-end agreement"). -/
def units (g : Fin 4) : Nat := 2 ^ g.val

/-- The grade with a given number of units per lane. -/
def gradeOf (u : Nat) : Fin 4 :=
  if u < 2 then 0 else if u < 4 then 1 else if u < 8 then 2 else 3

/-- The four side taps, signed, in codes of 1/64 (R64). -/
structure Taps where
  pre2 : Int
  pre1 : Int
  post1 : Int
  post2 : Int
  deriving DecidableEq, Repr

/-- The derived main tap (R64). -/
def Taps.main (t : Taps) : Int :=
  64 - (t.pre2.natAbs + t.pre1.natAbs + t.post1.natAbs + t.post2.natAbs)

/-- Legal codes, and MAIN at least 24 (R64, R65). -/
def Taps.legal (t : Taps) : Bool :=
  decide (-8 ≤ t.pre2 ∧ t.pre2 ≤ 8 ∧ -24 ≤ t.pre1 ∧ t.pre1 ≤ 0 ∧ -24 ≤ t.post1 ∧ t.post1 ≤ 0
    ∧ -8 ≤ t.post2 ∧ t.post2 ≤ 8 ∧ 24 ≤ t.main)

/-- The presets of R115. -/
def preset (n : Nat) : Option Taps :=
  match n with
  | 0 => some ⟨0, 0, 0, 0⟩
  | 1 => some ⟨0, 0, -4, 0⟩
  | 2 => some ⟨0, 0, -8, 0⟩
  | 3 => some ⟨0, -4, -8, 0⟩
  | 4 => some ⟨0, -4, -12, 0⟩
  | 5 => some ⟨0, -8, -12, 2⟩
  | 6 => some ⟨2, -8, -16, 2⟩
  | 7 => some ⟨2, -12, -20, 4⟩
  | _ => none

/-- The taps in use. -/
def Lane.taps (l : Lane) : Taps := ⟨l.pre2, l.pre1, l.post1, l.post2⟩

/-- The taps set. -/
def Lane.withTaps (l : Lane) (t : Taps) : Lane :=
  { l with pre2 := t.pre2, pre1 := t.pre1, post1 := t.post1, post2 := t.post2 }

/-- The figure-of-merit threshold of a grade, in 0.01 dB (R118). -/
def fomLimit (g : Fin 4) : Nat :=
  match g with
  | 0 => 1550
  | 1 => 2050
  | 2 => 1800
  | 3 => 1800

/-! ### The board table's entries -/

/-- The entry index of a lane and grade (R110). -/
def boardIx (l : Nat) (g : Fin 4) : Nat := l * 4 + g.val

/-- The board's entry for a lane and grade, or the defaults (R111). -/
def Block.boardEntry (b : Block) (l : Nat) (g : Fin 4) : BoardEntry :=
  tget (fun _ => {}) b.pw.board (boardIx l g)

/-- LANE_OFF is set in some entry of the lane (R110). -/
def Block.laneOff (b : Block) (l : Nat) : Bool := [0, 1, 2, 3].any fun g => (b.boardEntry l g).laneOff

/-- The highest grade that the board allows on a side (R110). -/
def Block.boardTop (b : Block) (sd : Side) : Fin 4 :=
  match sd with
  | .west => ⟨(b.pw.boardMax.toNat % 4), Nat.mod_lt _ (by decide)⟩
  | .east => ⟨(b.pw.boardMax.toNat / 4 % 4), Nat.mod_lt _ (by decide)⟩

/-- `LN_TX_DRV` as an entry sets it (R66 to R68). -/
def BoardEntry.drv (e : BoardEntry) : Word :=
  BitVec.ofNat 32 (e.swing.toNat + 256 * e.shape.toNat + 4096 * b2n e.cable)

/-- The shaping code in effect (R67, R68). -/
def Block.shapeNow (b : Block) (l : Nat) : Nat :=
  let v := b.regField (lnOff Off.lnTxDrv l) 8 3
  if b.regBit (lnOff Off.lnTxDrv l) 12 then max v 4 else v

/-- The swing code in effect: above 16 it is 16, and in cable mode at most 12 (R66, R68). -/
def Block.swingNow (b : Block) (l : Nat) : Nat :=
  let v := min (b.regField (lnOff Off.lnTxDrv l) 0 5) 16
  if b.regBit (lnOff Off.lnTxDrv l) 12 then min v 12 else v

/-- The launch swing in mV, differential peak-to-peak (R66). -/
def Block.swingMv (b : Block) (l : Nat) : Nat := 400 + 25 * b.swingNow l

/-- What a lane starts training from at a grade (chapter 03, last paragraph; log 8). -/
def Block.applyEntry (b : Block) (l : Nat) (g : Fin 4) : Block :=
  let e := b.boardEntry l g
  let b := b.setReg (lnOff Off.lnTxDrv l) e.drv
  b.modLane l fun x => { (x.withTaps ⟨e.pre2, e.pre1, e.post1, e.post2⟩) with ctle := e.ctle }

/-! ### Which lanes take part -/

/-- The lane's ENABLE bit as it reads: 0 for a lane in the survey unit map (R407). -/
def Block.laneEnabled (b : Block) (l : Nat) : Bool :=
  b.regBit (lnOff Off.lnCtrl l) 0 && !(b.lane l).unusable

/-- The lane may leave OFF (R102): enabled, not LANE_OFF, its quad powered, its side PLL locked. -/
def Block.laneUsable (b : Block) (l : Nat) : Bool :=
  b.laneEnabled l && !b.laneOff l && b.domOn (quadDom l) && b.domOn (ckDom (laneSide l))
    && (b.pll (sidePll (laneSide l))).lock

/-- The lanes of a side that train: usable and not FAILED. -/
def Block.trainLanes (b : Block) (sd : Side) : List Nat :=
  (sideLanes sd).filter fun l => b.laneUsable l && (b.lane l).st != .failed

/-- The `m` of R119: the lanes that are enabled and neither LANE_OFF nor FAILED. -/
def Block.gradeLanes (b : Block) (sd : Side) : Nat :=
  (sideLanes sd).countP fun l => b.laneEnabled l && !b.laneOff l && (b.lane l).st != .failed

/-- Lane `l` carries rows: RUN or DEGRADED. -/
def Lane.inRun (l : Lane) : Bool := l.st == .run || l.st == .degraded

/-- Lane has PASS from both ends. -/
def Lane.passed (l : Lane) : Bool := l.doneOwn == some true && l.donePeer == some true

/-- Training of the lane has ended, one way or another. -/
def Lane.resolved (l : Lane) : Bool :=
  match l.st with
  | .train => l.doneOwn.isSome && l.donePeer.isSome
  | .hunt | .lock => false
  | _ => true

/-- A mask of lane numbers within a side. -/
def maskOf (ls : List Nat) : BitVec 16 := ls.foldl (fun m l => m ||| BitVec.ofNat 16 (2 ^ laneIx l)) 0

/-- The lanes of a side that a mask names. -/
def lanesOf (sd : Side) (m : BitVec 16) : List Nat := (sideLanes sd).filter fun l => m.getLsbD (laneIx l)

/-- The filters of R427 that take an event of every working lane of a side: each lane's own, and 16. -/
def Block.laneFilters (b : Block) (sd : Side) : List Nat := (lanesOf sd (b.side sd).mask).map laneIx ++ [16]

/-- The partner's number of a lane, from its HELLO; the lane's own where none came. -/
def Block.peerNo (b : Block) (l : Nat) : Nat :=
  match (b.lane l).peer with
  | some h => h.lane.toNat
  | none => laneIx l

/-- The lanes that a direction of a side runs on: those of the REFORM under way once that direction has switched, lanes
that still have to train left out, and the segment's until then (R134, R102). -/
def Block.dirMask (b : Block) (sd : Side) (switched : Bool) : BitVec 16 :=
  match (b.side sd).reform, switched with
  | some m, true => maskOf ((lanesOf sd m).filter fun l => (b.lane l).inRun || ((b.lane l).st == .train && (b.lane l).passed))
  | _, _ => (b.side sd).mask

/-- The lanes that rows leave on. -/
def Block.txMask (b : Block) (sd : Side) : BitVec 16 := b.dirMask sd (b.side sd).reformTx

/-- The lanes that rows come on. -/
def Block.rxMask (b : Block) (sd : Side) : BitVec 16 := b.dirMask sd (b.side sd).reformRx

/-- Rows leave toward the side: in RUN, and from the end of its own START on (R123). -/
def SideSt.sends (x : SideSt) : Bool := x.seg == .run || (x.seg == .starting && x.txOn)

/-- Rows come from the side: in RUN, and from the end of the partner's START on (R123). -/
def SideSt.receives (x : SideSt) : Bool := x.seg == .run || (x.seg == .starting && x.rxOn)

/-- The working lanes of a side as a receiver numbers them: ascending in the partner's lane numbers (R90). -/
def Block.rxOrder (b : Block) (sd : Side) : List Nat :=
  let ls := lanesOf sd (b.rxMask sd)
  (List.range 16).flatMap fun k => ls.filter fun l => b.peerNo l == k

/-- The lanes that a mask in the partner's lane numbers names, in this pier's numbers (R113, R134). -/
def Block.ownMask (b : Block) (sd : Side) (m : BitVec 16) : BitVec 16 :=
  maskOf ((sideLanes sd).filter fun l => m.getLsbD (b.peerNo l))

/-- Only one fairway direction works (R27). -/
def Block.oneDirection (b : Block) : Bool := !(b.domOn 10 && b.domOn 11)

/-- The number of lanes that count toward BSEG: at most 16, or 8 with one fairway direction (R27, R119). -/
def Block.capLanes (b : Block) (n : Nat) : Nat := min n (if b.oneDirection then 8 else 16)

/-- The temperature of a lane's calibration, in 1/16 °C (R420): sensor 4 + q or 8 + q, or the base die's temperature used
where that sensor is failed or excluded. -/
def Block.laneTemp (b : Block) (l : Nat) : Rat :=
  let s := if l < 16 then 4 + l / 4 else 8 + (l - 16) / 4
  let x := tget (fun _ => ({} : Sensor)) b.heat.sensors s
  if x.st = .healthy ∨ x.st = .resting then (tget (fun _ => ((0 : Int), false)) b.heat.ch s).1
  else (tget (fun _ => ({} : Layer)) b.heat.layers 0).used

/-- A lane's calibration run is complete: by a window, or with the training that puts the lane into RUN (R420, R421). -/
def Block.laneCalibrated (b : Block) (l : Nat) : Block :=
  b.modLane l fun x =>
    { x with calPending := false, calCount := x.calCount + 1, calTime := b.ck.tide, calTemp := some (b.laneTemp l) }

/-! ### Lane state changes -/

/-- The lane OFF (R102): its transmitter idle, its protocol state dropped; stored taps, counts and calibration stay; a
calibration that is due is dropped, since the next LOCK and TRAIN calibrate the lane (R421). -/
def Lane.toOff (l : Lane) : Lane :=
  { (({} : Lane)) with
    grade := l.grade, polInv := l.polInv, ecConv := l.ecConv, los := l.los, lol := l.lol
    pre2 := l.pre2, pre1 := l.pre1, post1 := l.post1, post2 := l.post2, ffeReject := l.ffeReject
    ctle := l.ctle, rxFfe := l.rxFfe, dfe := l.dfe, erle := l.erle, convCount := l.convCount, stored := l.stored
    losAt := l.losAt, fom := l.fom, unusable := l.unusable, calTemp := l.calTemp, calCount := l.calCount, calTime := l.calTime
    prbsSync := l.prbsSync, prbsSat := l.prbsSat, chk := l.chk }

/-- The lane OFF by its ENABLE, its quad or its side's PLL; a FAILED lane stays FAILED (R139 lists all that ends
FAILED; "Any" in R102's last row is any other state, log 75). -/
def Lane.offUnlessFailed (l : Lane) : Lane := if l.st = .failed then l else l.toOff

/-- A lane after a warm reset: OFF; what it holds since PORST_N stays, and FAILED clears (R102, R107). -/
def Lane.warmReset (x : Lane) : Lane :=
  { (({} : Lane)) with convCount := x.convCount, stored := x.stored, unusable := x.unusable, calTemp := x.calTemp
                       calCount := x.calCount, calTime := x.calTime }

/-- A lane after its quad's reset: as after a warm one, but that FAILED stays (R139, R351, R370). -/
def Lane.domReset (x : Lane) : Lane := { x.warmReset with st := if x.st = .failed then .failed else .off }

/-- One step of the hunt's LFSR: x^16 + x^14 + x^13 + x^11 + 1 (R105). -/
def lfsrNext (x : BitVec 16) : BitVec 16 :=
  let bit := (x ^^^ (x >>> 2) ^^^ (x >>> 3) ^^^ (x >>> 5)) &&& 1
  (x >>> 1) ||| (bit <<< 15)

/-- A fresh listen length in µs: 16, 32, 48 or 64 (R105). -/
def Lane.newListen (l : Lane) : Lane :=
  let s := lfsrNext l.lfsr
  { l with lfsr := s, listenUs := 16 * ((Config.huntPick s).val + 1) }

/-- The lane into HUNT at a grade, beginning with a talk burst (R101 to R105). -/
def Block.startHunt (b : Block) (l : Nat) (g : Fin 4) (warm : Bool) : Block :=
  let b := if warm then b else b.applyEntry l g
  b.modLane l fun x =>
    { x.toOff with
      st := .hunt, since := b.ck.tide, burstAt := b.ck.tide, grade := g, warm := warm, talking := true, txIdle := false, msg := .hello false
      txSeq := x.txSeq + 1, attempts := x.attempts, retraining := x.retraining
      prbsOwner := x.prbsOwner, prbsRun := x.prbsRun, prbsMs := x.prbsMs
      ecConv := x.ecConv && x.st != .off
      lfsr := Config.huntSeed l b.now }

/-- Back to HUNT with a new listen length, at the grade of the training (R106, R102). -/
def Block.rehunt (b : Block) (l : Nat) : Block :=
  (b.startHunt l (b.side (laneSide l)).grade (b.lane l).warm).modLane l Lane.newListen

/-- The spread that a side applies and reports, and whether it conflicts (R73). -/
def spreadOf (refSpread own : BitVec 5) : BitVec 5 × Bool :=
  if refSpread = 0 then (own, false) else (refSpread, own != 0)

/-- The side's spread takes effect as its segment passes through TRAIN, once in each training (R73, R74). -/
def Block.applySpread (b : Block) (sd : Side) : Block :=
  let own := BitVec.ofNat 5 (b.regField (sideOff Off.lnSideSsc sd) 0 5)
  let (d, clash) := spreadOf (b.side sd).refSpread own
  let b := b.modSide sd fun x => { x with sscActive := d, sscPending := false, spreadTaken := true, spreadOwn := x.refSpread == 0 }
  if clash then (b.orReg (sideOff Off.lnSideStatus sd) 4).event .sscConflict (sideNo sd) else b

/-- The lane into TRAIN: it asks first for the board's preset, and that request is not one of the search's 512
(DEDUCED: R118 counts in the loop that follows it; log 76).  The first lane of a training segment takes the spread
(R74); a lane that retrains beside a running segment does not. -/
def Block.enterTrain (b : Block) (l : Nat) : Block :=
  let sd := laneSide l
  let b := if (b.side sd).seg = .training ∧ ¬ (b.side sd).spreadTaken then b.applySpread sd else b
  let e := b.boardEntry l (b.lane l).grade
  b.modLane l fun x =>
    let t : TapOut := { seq := x.txSeq + 1, tap := 4, act := e.preset.zeroExtend 8, repeats := 0 }
    { x with
      st := .train, since := b.ck.tide, txIdle := false, txSeq := x.txSeq + 1, msg := .tapReq t, tapOut := some t
      reqAt := b.ck.tide, tapAns := none
      search := some { since := b.ck.tide }, doneOwn := none, donePeer := none }

/-! ### A segment leaves RUN; what becomes of its flits (R163) is `Block.purgeSide` -/

/-- A window discarded (R61): counted in WIN_DISCARD, saturating at 0xFF. -/
def Block.winDiscard (b : Block) (l : Nat) : Block :=
  let o := lnOff Off.lnEcStatus l
  let n := b.regField o 8 8
  b.setReg o (BitVec.ofNat 32 (256 * min (n + 1) 255))

/-- The pier's own window on a side is over, if one runs: 8 discarded slots or more count it as discarded (R131, R61). -/
def Block.endWindow (b : Block) (sd : Side) : Block :=
  match (b.side sd).win with
  | none => b
  | some w =>
    let b := b.modSide sd fun x => { x with win := none }
    if w.discarded ≥ 8 then b.each ((sideLanes sd).filter fun l => (b.lane l).inRun) Block.winDiscard else b

/-- The side's segment leaves RUN: what its lanes, rows and windows held is dropped.  The last COMMIT's shares, the
pier's entry in the CAP it answered and its share stay for the direction that still runs (R127, R163). -/
def SideSt.leaveRun (x : SideSt) : SideSt :=
  { x with
    mask := 0, pass := 0, bseg := 0, useg := 0, capOut := none, commitOut := none, capIn := none, commit := none
    creditGrant := 0, reform := none, reformOut := none, row := 0, rxPos := 0, txPos := 0
    phaseBad := 0, resyncs := [], win := none, winWant := false, winAsked := false, mute := 0, tx := none
    capDirty := false
    peerHold := false, commitSeq := none, capSeq := none, reformSeq := none, moveSeq := none, winSeq := none
    bal := 0, balSet := false, owed := [], lowSince := none
    ctl := [], moveOut := none, lowered := false, warmAll := false, txOn := false, rxOn := false, unaligned := 0
    spreadTaken := false, reformTx := false, reformRx := false, reformAt := none, rxPhase := 0, txRow := 0, txSince := 0, txBits := []
    txSym := 0, txPair := [], txDealt := [], muteDue := false, txMuted := false, txCtl := none, muteAt := none
    grantOwed := false }

/-- The side's segment leaves RUN for another state; a window that this cuts off is over first (R131). -/
def Block.leaveRun (b : Block) (sd : Side) (seg : SegState) : Block :=
  (b.endWindow sd).modSide sd fun x => { x.leaveRun with seg := seg }

/-- Every lane of the side OFF and the segment down; FAILED lanes stay FAILED (R136). -/
def Block.segDown (b : Block) (sd : Side) : Block :=
  let b := b.leaveRun sd .down
  b.each (sideLanes sd) fun b l => b.modLane l Lane.offUnlessFailed

/-! ### Segment messages (R113, R114) -/

/-- A segment message goes out with a new sequence number: in RUN it waits for a control row of its own, and so it does
while START counts down; elsewhere every lane repeats it until the next (R114, R123; DEDUCED for a message of another
kind, log 81). -/
def Block.sendSeg (b : Block) (sd : Side) (m : SegMsg) : Block :=
  b.modSide sd fun x =>
    let q := x.segSeq + 1
    { x with segSeq := q, ctl := if x.seg = .run ∨ x.seg = .starting then x.ctl ++ [(q, m)] else [(q, m)] }

/-! ### CAP and COMMIT -/

/-- A list of eight entries with entry `i` set. -/
def setEntry (xs : List Nat) (i v : Nat) : List Nat :=
  (List.range 8).map fun j => if j = i then v else xs.getD j 0

/-- The pier's share request, in 1/32 (R124, `QY_SHARE.REQ`). -/
def Block.shareReq (b : Block) : Nat := b.regField Off.qyShare 0 4

/-- The pier's credit request, in units of 8 flits (R124). -/
def creditReq : Nat := 32

/-- The BSEG of a pier's live segments, least first (R120). -/
def Block.bsegMin (b : Block) : Nat :=
  match b.west.seg == .down, b.east.seg == .down with
  | true, _ => b.east.bseg
  | false, true => b.west.bseg
  | false, false => min b.west.bseg b.east.bseg

/-- A CAP as the pier forwards it (R120); one with no entry left keeps HOPS and gets no entries (R162). -/
def Block.mergeCap (b : Block) (c : Cap) : Cap :=
  let sp := max b.west.sscActive.toNat b.east.sscActive.toNat
  let m := { c with
    bmin := min c.bmin b.bsegMin
    umax := max c.umax (max b.west.useg b.east.useg)
    spread := BitVec.ofNat 8 (max c.spread.toNat sp) }
  if c.hops ≥ 8 then m
  else { m with
    shares := setEntry c.shares c.hops b.shareReq
    credits := setEntry c.credits c.hops creditReq
    hops := c.hops + 1 }

/-- The CAP that a pier whose other side is down starts toward the live side (R120). -/
def Block.ownCap (b : Block) (live : Side) : Cap :=
  b.mergeCap { bmin := (b.side live).bseg, umax := (b.side live).useg, hops := 0, spread := 0, sideDown := true,
               shares := List.replicate 8 0, credits := List.replicate 8 0 }

/-- The COMMIT that a pier whose other side is down answers a CAP with: every request in full (R120, R121). -/
def grantAll (c : Cap) : Commit :=
  if c.umax ≤ c.bmin then
    { blink := c.bmin / c.umax * c.umax, spread := c.spread, ucap := 0, shares := c.shares, credits := c.credits
      total := c.shares.foldl (· + ·) 0 }
  else
    { blink := 0, spread := c.spread, ucap := units (gradeOf c.bmin), shares := c.shares, credits := c.credits
      total := c.shares.foldl (· + ·) 0 }

/-- A CAP sent on a side, with the pier's entry in it and the share it asks for noted (R120, R124, R127); entry 8 stands
for none: all eight belong to piers nearer to the CAP's start (R162). -/
def Block.sendCap (b : Block) (sd : Side) (c : Cap) (ix : Nat) : Block :=
  (b.modSide sd fun x => { x with capOut := some c, myIx := some ix, asked := if ix < 8 then some b.shareReq else none }).sendSeg sd
    (.cap c)

/-- The pier's own CAP toward its live side, its entry the first (R120). -/
def Block.startCap (b : Block) (sd : Side) : Block := b.sendCap sd (b.ownCap sd) 0

/-- The side's segment exchanges CAP and COMMIT: it has accepted a grade, and is not down or training (R119, R120). -/
def SideSt.agrees (x : SideSt) : Bool := x.seg != .down && x.seg != .training

/-- The CAP received on `sd` sent on through the other side; with that side down the pier answers it, its own CAP being
out since then; one that trains gets it with its first agreement (R120, R127, R162). -/
def Block.forwardCap (b : Block) (sd : Side) : Block :=
  match (b.side sd).capIn with
  | none => b
  | some c =>
    if (b.side (otherSide sd)).seg = .down then
      let k := grantAll (b.mergeCap c)
      (b.modSide sd fun x => { x with commitOut := some k }).sendSeg sd (.commit k)
    else if (b.side (otherSide sd)).agrees then b.sendCap (otherSide sd) (b.mergeCap c) (min c.hops 8)
    else b

/-- A fresh CAP in both directions (R120, R135): each held CAP sent on or answered again, and the pier's own started
where the other side is down. -/
def Block.freshCaps (b : Block) : Block :=
  let own (b : Block) (sd : Side) : Block :=
    if (b.side sd).agrees && (b.side (otherSide sd)).seg == .down then b.startCap sd else b
  own (own ((b.forwardCap .west).forwardCap .east) .west) .east

/-- BSEG of a side found again from the lanes that pass; a change sends fresh CAPs (R119, R135). -/
def Block.resizeSide (b : Block) (sd : Side) : Block :=
  let v := b.capLanes (lanesOf sd (b.side sd).pass).length * units (b.side sd).grade
  if v = (b.side sd).bseg then b
  else (b.modSide sd fun x => { x with bseg := v, capDirty := true }).freshCaps

/-- The lane passes, or no longer does (R119, R122). -/
def Block.notePass (b : Block) (l : Nat) (ok : Bool) : Block :=
  let bit := BitVec.ofNat 16 (2 ^ laneIx l)
  b.modSide (laneSide l) fun x => { x with pass := if ok then x.pass ||| bit else x.pass &&& ~~~ bit }

/-! ### The end of training on a side (R119) -/

/-- Bits of a HELLO grade mask, the highest set. -/
def topGrade (m : BitVec 4) : Fin 4 :=
  if m.getLsbD 3 then 3 else if m.getLsbD 2 then 2 else if m.getLsbD 1 then 1 else 0

/-- The lower of two grades. -/
def minGrade (g h : Fin 4) : Fin 4 := if g.val ≤ h.val then g else h

/-- The grade that R119 starts from: the highest in both HELLO masks, the board's maximum, the cap.  The pier's own
HELLO mask holds all four grades (PRESUMED: R56 gives every lane the four), and where the lanes' partners differ the
lowest of their highest grades counts, since a segment has one grade (DEDUCED from R104; log 77). -/
def Block.startGrade (b : Block) (sd : Side) : Fin 4 :=
  let peers := (sideLanes sd).filterMap fun l => (b.lane l).peer
  let hello := match peers with
    | [] => 0
    | h :: t => t.foldl (fun g x => minGrade g (topGrade x.grades)) (topGrade h.grades)
  let g := minGrade hello (b.boardTop sd)
  if (b.side sd).capG2 then minGrade g 1 else g

/-- The side found no lane at G1: it is down (R119, R136). -/
def Block.sideFails (b : Block) (sd : Side) : Block :=
  ((b.segDown sd).event .linkDown (sideNo sd)).freshCaps

/-- Training of a whole side begins at a grade; `inLoop` says that the grade is one of R119's loop and not the
G1 contact that precedes it (log 9).  With no lane to train the side is down. -/
def Block.trainSide (b : Block) (sd : Side) (g : Fin 4) (inLoop : Bool) : Block :=
  let ls := b.trainLanes sd
  if ls.isEmpty then b.sideFails sd
  else
    let b := (b.leaveRun sd .training).modSide sd fun x => { x with grade := g, loop := inLoop }
    b.each ls fun b l => b.startHunt l g false

/-- The segment follows a MOVE: its lanes hunt at the target (R103, R119, R121). -/
def Block.moveNow (b : Block) (sd : Side) (g : Fin 4) (low : Bool) : Block :=
  (b.trainSide sd g true).modSide sd fun x => { x with lowered := low && x.seg == .training }

/-- MOVE to a grade (R114, R119, R121): the message goes out on the lanes in TRAIN, which repeat it, or in a control row
in RUN.  The segment follows it when the partner's MOVE comes or its signal goes, or when the row has left; with no lane
to carry it, at once (DEDUCED: R119 and R121 do not say when the sender leaves its grade; log 104). -/
def Block.moveTo (b : Block) (sd : Side) (g : Fin 4) : Block :=
  if (b.side sd).seg = .run ∨ (sideLanes sd).any fun l => (b.lane l).st == .train then
    (b.modSide sd fun x => { x with moveOut := some g }).sendSeg sd (.move g)
  else b.moveNow sd g (b.side sd).lowered

/-- A MOVE that the lanes of a side in TRAIN repeat has done its work: the partner has left the grade (log 104). -/
def Block.moveTaken (b : Block) (sd : Side) : Block :=
  match (b.side sd).moveOut with
  | some g => if (b.side sd).seg = .run then b else b.moveNow sd g (b.side sd).lowered
  | none => b

/-- The side's segment accepts its grade and width: lanes without PASS go OFF, and CAP runs (R119, R120). -/
def Block.acceptGrade (b : Block) (sd : Side) (ok : List Nat) : Block :=
  let u := units (b.side sd).grade
  let b := b.modSide sd fun x =>
    { x with seg := .agreeing, pass := maskOf ok, bseg := b.capLanes ok.length * u, useg := u, capDirty := true
             lowered := false, warmAll := false }
  let b := b.each (sideLanes sd) fun b l => if ok.contains l then b else b.modLane l Lane.offUnlessFailed
  b.freshCaps

/-- When every training lane of a side has an outcome, the loop of R119 takes its next turn; a segment that a COMMIT
lowered falls further only if no lane passes (R121). -/
def Block.checkSide (b : Block) (sd : Side) : Block :=
  let ls := b.trainLanes sd
  let s := b.side sd
  if s.seg != .training || s.warmAll || s.moveOut.isSome || ls.any (fun l => !(b.lane l).resolved) then b
  else
    let ok := ls.filter fun l => (b.lane l).passed
    let n := b.capLanes ok.length
    let g := s.grade
    if s.loop then
      if n > 0 ∧ (g = 0 ∨ s.lowered ∨ b.gradeLanes sd * units (g - 1) ≤ n * units g) then b.acceptGrade sd ok
      else if g = 0 then b.sideFails sd
      else b.moveTo sd (g - 1)
    else if n = 0 then b.sideFails sd
    else if b.startGrade sd = 0 then b.acceptGrade sd ok
    else b.moveTo sd (b.startGrade sd)

/-! ### Width and REFORM -/

/-- A lane's number at the segment's West end (R122): its own on the East side, its partner's on the West side. -/
def Block.westNo (b : Block) (l : Nat) : Nat := if l < 16 then b.peerNo l else laneIx l

/-- The `w` passing lanes with the lowest numbers at the segment's West end (R122). -/
def Block.chosen (b : Block) (sd : Side) (w : Nat) : List Nat :=
  let ok := lanesOf sd (b.side sd).pass
  ((List.range 16).flatMap fun k => ok.filter fun l => b.westNo l = k).take w

/-- The lanes of a side whose last working lanes were dropped retrain warm at the segment's grade, and the QUIET ones
with them: a REFORM needs a control row, and none is left to carry it (R136; log 78). -/
def Block.warmSide (b : Block) (sd : Side) : Block :=
  let ls := (sideLanes sd).filter fun l => (b.lane l).inRun || (b.lane l).st == .quiet
  let b := (b.leaveRun sd .training).modSide sd fun x => { x with loop := true, warmAll := true }
  b.each ls fun b l =>
    (b.startHunt l (b.side sd).grade true).modLane l fun x => { x with attempts := 0, retraining := true }

/-- The pier asks for a new lane set on a side, with a countdown of 16 rows (R134). -/
def Block.askReform (b : Block) (sd : Side) (m : BitVec 16) : Block :=
  if m = 0 then b.warmSide sd
  else (b.modSide sd fun x =>
    { x with reform := some m, reformOut := some m, reformTx := false, reformRx := false, reformAt := none }).sendSeg sd (.reform m 16)

/-- The lane set that the segment runs on, or is moving to. -/
def SideSt.nextMask (x : SideSt) : BitVec 16 := x.reform.getD x.mask

/-- A lane dropped from its running segment by REFORM; it no longer counts as passing (R134, R135). -/
def Block.dropLane (b : Block) (l : Nat) : Block :=
  let sd := laneSide l
  if (b.side sd).seg = .run ∧ (b.lane l).inRun ∧ (b.side sd).nextMask.getLsbD (laneIx l) then
    (b.notePass l false).askReform sd ((b.side sd).nextMask &&& ~~~ BitVec.ofNat 16 (2 ^ laneIx l))
  else b

/-- The warm training of a side with no lane in RUN is over when no lane is left in it: what passed goes on to CAP,
and with nothing the whole side retrains from G1 (R136). -/
def Block.checkWarm (b : Block) (sd : Side) : Block :=
  if (b.side sd).seg != .training || !(b.side sd).warmAll || (sideLanes sd).any (fun l => !(b.lane l).resolved) then b
  else
    let ok := (sideLanes sd).filter fun l => (b.lane l).st == .train && (b.lane l).passed
    if ok.isEmpty then b.trainSide sd 0 false else b.acceptGrade sd ok

/-- A lane of a running segment failed a warm retrain: three attempts, then FAILED (R136). -/
def Block.warmFail (b : Block) (l : Nat) : Block :=
  let sd := laneSide l
  let n := (b.lane l).attempts + 1
  if n < 3 then
    (b.startHunt l (b.side sd).grade true).modLane l fun x => { x with attempts := n, retraining := true }
  else
    let b := (b.modLane l fun x => { x.toOff with st := .failed }).notePass l false
    let b := b.event .laneFailed l
    if (b.side sd).seg = .run then b.resizeSide sd else b.checkWarm sd

/-- A lane that passes beside a running segment: it rejoins by REFORM where the committed width has room for it, waits
for the COMMIT where it raised BSEG, and goes QUIET otherwise (R102, R122, R136). -/
def Block.rejoin (b : Block) (l : Nat) : Block :=
  let sd := laneSide l
  let b := b.modLane l fun x => { x with attempts := 0, retraining := false }
  let old := (b.side sd).bseg
  let b := (b.notePass l true).resizeSide sd
  let s := b.side sd
  if (lanesOf sd s.nextMask).length * s.useg < s.blink then b.askReform sd (s.nextMask ||| BitVec.ofNat 16 (2 ^ laneIx l))
  else if s.bseg = old then b.modLane l fun x => { x with st := .quiet, msg := .idle, txIdle := true }
  else b

/-- A lane that was hunted again beside a segment that agrees or starts passes: it counts toward the width (R119, R139). -/
def Block.passesBeside (b : Block) (l : Nat) : Block :=
  ((b.modLane l fun x => { x with attempts := 0, retraining := false }).notePass l true).resizeSide (laneSide l)

/-- A lane's training has an outcome from both ends (R119, R136). -/
def Block.laneOutcome (b : Block) (l : Nat) : Block :=
  let sd := laneSide l
  let x := b.lane l
  if ¬ x.resolved then b
  else if x.retraining ∧ ((b.side sd).seg = .agreeing ∨ (b.side sd).seg = .starting) then
    if x.st = .train ∧ x.passed then b.passesBeside l else b.warmFail l
  else if (b.side sd).seg = .run ∨ (b.side sd).warmAll then
    if x.st != .train then (if x.retraining then b.warmFail l else b)
    else if ¬ x.passed then b.warmFail l
    else if (b.side sd).seg ≠ .run then b.checkWarm sd
    else
      match x.prbsOwner with
      | some _ => b.modLane l fun x => { x with msg := .prbs (x.prbsRun.getD 2) x.prbsMs, prbsAt := some b.ck.tide }
      | none => b.rejoin l
  else b.checkSide sd

/-! ### Windows -/

/-- Slots of a window at a grade (R129). -/
def windowSlots (g : Fin 4) : Nat := if g = 0 then 40 else 96

/-- A window's usable length in units of 1,024 UI: 96 slots of 96 UI, or 40 of 224 (R113, R129). -/
def windowUnits (g : Fin 4) : BitVec 16 := if g = 0 then 8 else 9

/-- The pier's wish for a window is asked for as soon as it may: no window of its own runs or is asked for, and the
last was asked for 1 ms ago (R60, R129, R132). -/
def Block.tryAsk (b : Block) (sd : Side) : Block :=
  let s := b.side sd
  if s.winWant ∧ s.seg = .run ∧ s.win = none ∧ ¬ s.winAsked ∧ b.olderThan msTicks s.winAskedAt then
    (b.modSide sd fun x => { x with winWant := false, winAsked := true, winAskedAt := some b.ck.tide }).sendSeg sd
      (.window 1 (windowUnits s.grade))
  else b

/-- The pier wants a window on a side (R60, R133). -/
def Block.askWindow (b : Block) (sd : Side) : Block := (b.modSide sd fun x => { x with winWant := true }).tryAsk sd

/-- The partner's window begins: from here on FILL rows sent are quiet slots (R129). -/
def Block.grantWindow (b : Block) (sd : Side) : Block :=
  (b.modSide sd fun x =>
    { x with mute := windowSlots x.grade, muteAt := some b.ck.tide, grantOwed := false }).sendSeg sd
      (.window 2 (windowUnits (b.side sd).grade))

/-! ### What a lane sends in its TRAIN blocks (R112, R113) -/

/-- A lane's own message: its code, its sequence number and its body from byte 7; a TAP_REQ that is repeated, or a TAP_RSP
sent again, keeps the number it had (R113, R114, R116, R117). -/
def Block.laneMsg (b : Block) (l : Nat) : Option (Byte × Byte × List Byte) :=
  let x := b.lane l
  match x.msg with
  | .idle => none
  | .hello _ => some (0x01, x.txSeq, [0, 0xF, (b.side (laneSide l)).sscActive.zeroExtend 8, (b.boardEntry l x.grade).preset.zeroExtend 8, 16])
  | .window units => some (0x02, x.txSeq, 0 :: leBytes units.toNat 2)
  | .tapReq t => some (0x03, t.seq, [t.tap, t.act])
  | .tapRsp a => some (0x04, a.own, [a.seq, a.status] ++ [x.pre2, x.pre1, x.taps.main, x.post1, x.post2].map (BitVec.ofInt 8))
  | .tapDone pass fom => some (0x05, x.txSeq, [if pass then 0 else 1, BitVec.ofNat 8 fom])
  | .prbs pat ms => some (0x0B, x.txSeq, pat.zeroExtend 8 :: leBytes ms.toNat 2)

/-- Blocks of 258 bits since a moment at the line rate of a grade: 26.5625 Gbit/s at G1, and twice that of the grade
below at each other (R56, R87). -/
def Block.blocksSince (b : Block) (g : Fin 4) (t : Tide) : Nat := b.since t * 4250 * 2 ^ g.val / (258 * 256)

/-- A time in UI of a grade, in ticks, rounded up: 26.5625 Gbaud at G1 and G2, twice that at each grade above (R56). -/
def uiTicks (g : Fin 4) (ui : Nat) : Nat :=
  let rate := 4250 * (if g.val ≤ 1 then 1 else if g.val = 2 then 2 else 4)
  (ui * 256 + rate - 1) / rate

/-- The lane's own window in LOCK runs: from its start for the length it announced (R107). -/
def Block.inWindowBurst (b : Block) (l : Nat) : Bool :=
  match (b.lane l).winAt, (b.lane l).msg with
  | some t, .window units => decide (b.since t < uiTicks (b.lane l).grade (1024 * units.toNat))
  | _, _ => false

/-- A segment message as it stands now: START's countdown falls by one with each block (R114, R123). -/
def Block.segNow (b : Block) (sd : Side) : SegMsg → SegMsg
  | .start n => .start (n - b.blocksSince (b.side sd).grade (b.side sd).startAt)
  | m => m

/-- The segment message that a side's lanes in TRAIN repeat: START while it counts down, else the latest (R114, R123). -/
def SideSt.segMsg (x : SideSt) : Option (BitVec 8 × SegMsg) := if x.seg = .starting then x.ctl.head? else x.ctl.getLast?

/-- The TRAIN block of a lane in HUNT, LOCK or TRAIN: its segment's present message while one runs, else its own, with
the role bit in every block of an answerer (R87, R92, R112 to R114).  A lane in LOCK sends its window for its length and
is silent after it; one whose direction has entered RUN sends rows (R107, R123). -/
def Block.trainBlock (b : Block) (l : Nat) : Option LaneBlock :=
  let x := b.lane l
  let s := b.side (laneSide l)
  let out (e : Byte × Byte × List Byte) : LaneBlock :=
    { header := hdrControl
      payload := ctlBytes ctlTrain 0xFF (trainBody e.1 e.2.1 (laneIx l) x.grade.val (x.answerer == some true) e.2.2) }
  if x.txIdle ∨ (x.st = .lock ∧ x.winAt.isSome ∧ ¬ b.inWindowBurst l) then none
  else if x.st = .train ∧ s.seg = .starting ∧ s.txOn ∧ s.mask.getLsbD (laneIx l) then none
  else match x.st, s.segMsg with
    | .train, some (q, m) => let w := (b.segNow (laneSide l) m).wire; some (out (w.1, q, w.2))
    | _, _ => (b.laneMsg l).map out

/-! ### HARBOUR to OPEN (R365) -/

/-- A channel in service: its berth is FILLING, READY or THROTTLED. -/
def Block.inSvc (b : Block) (n : Nat) : Bool :=
  match (b.berth n).st with
  | .filling | .ready | .throttled => true
  | _ => false

/-- Some trip record is unacknowledged (R438). -/
def Block.tripUnacked (b : Block) : Bool :=
  b.lg.trips.any fun e => match e.2 with
    | some t => !t.acked
    | none => false

/-- Every channel in service is filled, and no trip is unacknowledged (R365). -/
def Block.filledAndClear (b : Block) : Bool :=
  ((List.range 64).all fun n => !b.inSvc n || (b.berth n).fillDone) && !b.tripUnacked

/-- Microseconds since a stamp, in a 32-bit register. -/
def Block.usSince (b : Block) (t : Tide) : Word := BitVec.ofNat 32 (b.since t / usTicks)

end Sys2Proof.Machine
end

