-- ==== Sys2Proof/Machine/TallyOps.lean ====
section
/-! DEFINITION. Tally counters and port byte counts (R425 to R428). -/

namespace Sys2Proof.Machine

open Sys2Proof

/-- Tally block `n`. -/
def Block.tallyBlk (b : Block) (n : Nat) : Tally := tget (fun _ => {}) b.tl.blocks n

/-- Tally block `n` set. -/
def Block.setTallyBlk (b : Block) (n : Nat) (t : Tally) : Block :=
  { b with tl.blocks := tset (fun _ => {}) b.tl.blocks n t }

/-- The selector of counter `i` of a block (R426, R440). -/
def Block.selector (b : Block) (blk i : Nat) : Nat :=
  b.regField (tlOff Off.tlEvsel blk + 4 * (i / 2)) (16 * (i % 2)) 16

/-- One counter advanced by `n`, wrapping modulo 2^48 with its OVF bit set (R426). -/
def Block.addCount (b : Block) (blk i n : Nat) : Block :=
  let t := b.tallyBlk blk
  let v := (tget (fun _ => 0) t.cnt i).toNat + n
  let b := b.setTallyBlk blk { t with cnt := tset (fun _ => 0) t.cnt i (BitVec.ofNat 48 v) }
  if 2 ^ 48 ≤ v then b.orReg (tlOff Off.tlOvf blk) (BitVec.ofNat 32 (2 ^ i)) else b

/-- Event `ev` of a block adds `n` to every counter whose selector names it with one of the filters `fs`,
while the block's domain is ON (R426, R427). -/
def Block.tally (b : Block) (blk ev : Nat) (fs : List Nat) (n : Nat) : Block :=
  if n = 0 || !b.domOn (tallyDom blk) then b
  else b.each (List.range 8) fun b i =>
    let s := b.selector blk i
    if s % 1024 = ev ∧ fs.contains (s / 1024) then b.addCount blk i n else b

/-- The tally block of a side's lanes, and of the fairway direction that takes its arrivals. -/
def sideBlk (sd : Side) : Nat := 64 + sideNo sd
def fwBlk (sd : Side) : Nat := 66 + sideNo sd
abbrev quayBlk : Nat := 68

/-- Bytes moved at a port of R428. -/
def Block.portBytes (b : Block) (port n : Nat) : Block :=
  { b with tl.bytes := tset (fun _ => 0) b.tl.bytes port (tget (fun _ => 0) b.tl.bytes port + n) }

end Sys2Proof.Machine
end

