-- ==== Sys2Proof/Machine/QuayOps.lean ====
section
/-! DEFINITION. The quay's own operations: tags, credits, insertion, completions, remote writes and the route and
region tables (chapter 06), and what becomes of flits when a side leaves RUN (R163). -/

namespace Sys2Proof.Machine

open Sys2Proof

/-! ### Status codes (R323) -/

namespace St
abbrev ok : Nat := 0x00
abbrev pending : Nat := 0x01
abbrev refused : Nat := 0x02
abbrev badOpcode : Nat := 0x03
abbrev badParam : Nat := 0x04
abbrev authFail : Nat := 0x05
abbrev notReady : Nat := 0x06
abbrev busyRetry : Nat := 0x07
abbrev poisoned : Nat := 0x08
abbrev accessDenied : Nat := 0x0A
abbrev admitRefused : Nat := 0x0B
abbrev expired : Nat := 0x0C
abbrev fenced : Nat := 0x0D
abbrev aborted : Nat := 0x0E
abbrev timeout : Nat := 0x0F
abbrev internal : Nat := 0x1F

/-- A received status code; a reserved one counts as INTERNAL. -/
def known (s : Nat) : Nat := if s = 0x09 ∨ 0x10 ≤ s then internal else s
end St

/-! ### Whether the quay is in service -/

/-- `QY_STATUS.QY_STATE` (R193): off, in reset or powering up, in service, marked unusable. -/
def Block.qyState (b : Block) : Nat :=
  match (b.dom qyDom).st with
  | .failed => 3
  | .on => if b.qy.resetting then 1 else 2
  | .powering => 1
  | _ => 0

/-- The quay is in service. -/
def Block.qyUp (b : Block) : Bool := b.qyState == 2

/-- The pier's own identity in the flits it sends: 0x7FFF while it has none (R322). -/
def Block.selfId (b : Block) : BitVec 15 := if b.qy.idValid then b.qy.pierId else 0x7FFF

/-! ### Tags (R173, R177) -/

/-- Quay tags held now. -/
def Block.tagsHeld (b : Block) : Nat :=
  (b.qy.reqs.map (·.tags)).sum + (b.qy.ins.map (·.tags)).sum
    + (b.qy.copies.countP fun c => !c.answered) + b.qy.rems.length

/-- `QY_TAGS.HIGH_WATER` follows the tags held. -/
def Block.noteTags (b : Block) : Block :=
  let n := b.tagsHeld
  if b.regField Off.qyTags 16 15 < n then b.setReg Off.qyTags (BitVec.ofNat 32 (n * 2 ^ 16)) else b

/-! ### Credits (R190, R191) -/

/-- The credit grant of a side in units of 8 flits, void outside RUN and taken as 0 below 4 (R128, R190). -/
def Block.creditUnits (b : Block) (sd : Side) : Nat :=
  let s := b.side sd
  if s.seg != .run || s.creditGrant < 4 then 0 else s.creditGrant

/-- The share granted by the partner of a side, in 1/32: what its last COMMIT gave, also while the side trains (R163).
Where the side is down the pier answered the other side's CAP itself and granted every request in full, its own too
(R120, R124); with both sides down nothing is granted. -/
def Block.shareUnits (b : Block) (sd : Side) : Nat :=
  if (b.side sd).seg = .down then
    match (b.side (otherSide sd)).commitOut, (b.side (otherSide sd)).capIn with
    | some k, some c => k.shares.getD c.hops 0
    | _, _ => 0
  else (b.side sd).shareGrant

/-- The credit balance of a side: 0 outside RUN (R190). -/
def Block.balance (b : Block) (sd : Side) : Int :=
  if (b.side sd).seg = .run then (b.side sd).bal else 0

/-- When the balance last fell to 8 or less with a valid grant (R192). -/
def Block.noteLow (b : Block) (sd : Side) : Block :=
  let low := decide (b.balance sd ≤ 8) && decide (0 < b.creditUnits sd)
  b.modSide sd fun x => { x with lowSince := if low then some (x.lowSince.getD b.ck.tide) else none }

/-- A credit balance changed. -/
def Block.setBal (b : Block) (sd : Side) (v : Int) : Block :=
  (b.modSide sd fun x => { x with bal := v }).noteLow sd

/-- Credits returned by the device on a side, clipped to the grant (R191). -/
def Block.addCredit (b : Block) (sd : Side) (n : Nat) : Block :=
  if (b.side sd).seg != .run || !(b.side sd).balSet then b
  else
    let g : Int := 8 * b.creditUnits sd
    let v := (b.side sd).bal
    b.setBal sd (if v + n > g then max v g else v + n)

/-- The grant of a COMMIT applied to a side's balance: afresh at the first COMMIT in RUN, else by the difference
(R190). -/
def Block.grantBal (b : Block) (sd : Side) (oldUnits newUnits : Nat) : Block :=
  let o : Int := 8 * (if oldUnits < 4 then 0 else oldUnits)
  let n : Int := 8 * (if newUnits < 4 then 0 else newUnits)
  if (b.side sd).seg != .run then b
  else if (b.side sd).balSet then b.setBal sd ((b.side sd).bal + (n - o))
  else (b.modSide sd fun x => { x with balSet := true }).setBal sd n

/-! ### Completions (R170) -/

/-- A completion of a request with a status, a length and an argument. -/
def Block.completion (b : Block) (f : Flit) (status len arg : Nat) : Flit :=
  { kind := 2, vl := true, opcode := f.opcode, tag := f.tag, flow := f.flow, offset := f.offset, attr := f.attr
    dest := f.src, src := b.selfId, status := BitVec.ofNat 8 status, length := BitVec.ofNat 16 len
    arg := BitVec.ofNat 32 arg }

/-- The insertion level of a completion of a class (R189). -/
def clsLevel : Cls → Nat
  | .rt _ => 3
  | .bw _ => 4
  | _ => 6

/-- The bound of a class in ns (R24). -/
def clsBound : Cls → Nat
  | .rt _ => 1200
  | .bw _ => 3000
  | _ => 6000

/-- A request asks that its completion keep the order of its flow (R168). -/
def inOrderOf (f : Flit) : Bool := f.attr.getLsbD 0
/-- A COPY_REMOTE asks for a second completion (R168, R170). -/
def notifyOf (f : Flit) : Bool := f.attr.getLsbD 1

/-! ### Discards (R25) -/

/-- A completion that cannot leave: counted and logged (R25, R192). -/
def Block.cplDiscard (b : Block) (sd : Side) : Block :=
  (b.bump Off.qyCplDiscardLo).event .cplDiscard (sideNo sd)

/-- A flit for the insertion queue of a side; with the side outside RUN it is discarded at once (R25, R163, R190). -/
def Block.putIns (b : Block) (i : Ins) : Block :=
  if (b.side i.side).seg = .run then { b with qy.ins := b.qy.ins ++ [i] }
  else if i.flit.kind = 2 then b.cplDiscard i.side
  else b

/-! ### Fences (R178) -/

/-- A FENCE waits for an earlier request of its flow, until its completion has left; not for a NOTIFY completion, which
follows that of a COPY_REMOTE (R170, R178). -/
def Block.fenceBarred (b : Block) (r : Req) : Bool :=
  (b.qy.reqs.any fun q => decide (q.id < r.id) && q.f.flow == r.f.flow)
    || (b.qy.copies.any fun c => decide (c.req < r.id) && c.f.flow == r.f.flow && !c.answered)
    || b.qy.ins.any fun i => i.flit.flow == r.f.flow && i.tags != 0 && i.reqId.any fun k => decide (k < r.id)

/-- A request leaves its flow queue; its tags go with the completion (R177). -/
def Block.dropReq (b : Block) (id : Nat) : Block := { b with qy.reqs := b.qy.reqs.filter fun (q : Req) => q.id != id }

/-- The completion of a request in the insertion queue of the side it came from (R170, R186, R189). -/
def Block.complete (b : Block) (r : Req) (level : Nat) (a : Answer) : Block :=
  let g := a.grans
  let f := b.completion r.f a.status a.len a.arg
  let f := { f with gvalid := BitVec.ofNat 4 a.gvalid, poison := BitVec.ofNat 4 a.poison
                    g0 := g.getD 0 0, g1 := g.getD 1 0, g2 := g.getD 2 0, g3 := g.getD 3 0 }
  b.putIns { side := r.sd, level := level, flit := f, tags := r.tags, quayIn := r.quayIn, boundNs := clsBound r.cls
             cls := r.cls, inOrder := inOrderOf r.f, reqId := some r.id }

/-- FENCE requests that wait for nothing any more complete, in order of acceptance (R178). -/
def Block.wakeFences (b : Block) : Block :=
  (b.qy.reqs.filter fun r => r.op == .fence).foldl (fun b r =>
    if b.fenceBarred r then b else (b.dropReq r.id).complete r (clsLevel r.cls) { status := St.ok, len := 0 }) b

/-- The NOTIFY completion of a COPY_REMOTE whose writes have all ended (R170). -/
def Block.notifyFlit (b : Block) (c : CopyOut) : Flit :=
  let st := match c.firstBad with
    | some v => v.toNat
    | none => if c.missing then St.timeout else St.ok
  b.completion c.f st c.ok (2 ^ 31)

/-- A refusal or another answer at level 2 (R189). -/
def Block.answer2 (b : Block) (sd : Side) (f : Flit) (tags : Nat := 0) (t : Tide) : Block :=
  b.putIns { side := sd, level := 2, flit := f, tags := tags, quayIn := t, boundNs := 6000 }

/-! ### Remote writes (R170, R171) -/

/-- The COPY_REMOTE `c` after a change: its completions are sent as they fall due. -/
def Block.copyNext (b : Block) (c : CopyOut) : Block :=
  let others := b.qy.copies.filter fun x => x.req != c.req
  let b :=
    if c.unsent = 0 ∧ ¬ c.answered then
      b.putIns { side := c.sd, level := clsLevel c.cls, tags := 1, quayIn := c.quayIn, boundNs := clsBound c.cls
                 inOrder := inOrderOf c.f, reqId := some c.req, cls := c.cls
                 flit := b.completion c.f St.ok c.f.length.toNat c.sent }
    else b
  let c := if c.unsent = 0 then { c with answered := true } else c
  (if c.unsent = 0 ∧ c.pending = 0 then
    let b := { b with qy.copies := others }
    if notifyOf c.f then
      b.putIns { side := c.sd, level := 6, quayIn := b.ck.tide, inOrder := inOrderOf c.f, reqId := some c.req
                 flit := b.notifyFlit c }
    else b
  else { b with qy.copies := others ++ [c] }).wakeFences

/-- A remote write fails without NOTIFY: COPY_REMOTE_FAIL with the tag and flow (R170). -/
def Block.copyFail (b : Block) (c : CopyOut) : Block :=
  if notifyOf c.f then b else b.event .copyRemoteFail 0 [c.f.tag, c.f.flow]

/-- How a remote write ends. -/
inductive RemEnd where
  | status (s : Nat) | missing | unsent (s : Nat)
  deriving DecidableEq, Repr

/-- A remote write of a COPY_REMOTE ends: its tag is released and its copy is told (R170, R171). -/
def Block.remEnds (b : Block) (w : RemWrite) (e : RemEnd) : Block :=
  let b := { b with qy.rems := b.qy.rems.filter fun (x : RemWrite) => x.tag != w.tag }
  match b.qy.copies.find? fun c => c.req == w.req && !w.dump with
  | none => b
  | some c =>
    let first (c : CopyOut) (s : Nat) : CopyOut :=
      if s = St.ok then { c with ok := c.ok + 1 }
      else { c with firstBad := some (c.firstBad.getD (BitVec.ofNat 8 s)) }
    match e with
    | .status s =>
      let b := if s = St.ok then b else b.copyFail c
      b.copyNext (first { c with pending := c.pending - 1 } s)
    | .missing => (b.copyFail c).copyNext { c with pending := c.pending - 1, missing := true }
    | .unsent s => (b.copyFail c).copyNext (first { c with pending := c.pending - 1, unsent := c.unsent - 1 } s)

/-- A remote write leaves at quay out (R170, R171). -/
def Block.remSent (b : Block) (tag : Nat) : Block :=
  match b.qy.rems.find? fun w => w.tag == tag with
  | none => b
  | some w =>
    let b := { b with qy.rems := b.qy.rems.map fun (x : RemWrite) => if x.tag = tag then { x with sentAt := some b.ck.tide } else x }
    match b.qy.copies.find? fun c => c.req == w.req && !w.dump with
    | none => b
    | some c => b.copyNext { c with unsent := c.unsent - 1, sent := c.sent + w.grans }

/-- A dump write that failed: DUMP_REMOTE_FAIL at most once per 1 ms, and the alarm (R432). -/
def Block.dumpFail (b : Block) : Block :=
  let b := b.orReg Off.tlAlarm 4
  if b.olderThan msTicks b.tl.failAt then ({ b with tl.failAt := some b.ck.tide }).event .dumpRemoteFail else b

/-! ### A side leaves RUN (R163, R25) -/

/-- A through flit discarded: counted, alarmed, logged at most once per 1 ms (R154, R163, R165). -/
def Block.dropFlit (b : Block) (sd : Side) : Block :=
  let b := (b.bump (fwOff Off.fwDropLo sd)).tally (fwBlk sd) 0x067 [0] 1
  let b := b.orReg Off.fwAlarm (match sd with | .west => 4 | .east => 8)
  if b.loggedLately .thruDrop (sideNo sd) then b else b.event .thruDrop (sideNo sd)

/-- An idle flit: KIND 0 with a valid CRC (R146). -/
def isIdleFlit (f : Flit) : Bool := f.kind == 0 && f.crc == flitCrc f

/-- What is owed to a side is discarded: completions counted, remote writes ended unsent with TIMEOUT, the rest
dropped; the flits buffered toward it are lost. -/
def Block.purgeSide (b : Block) (sd : Side) : Block :=
  let mine := b.qy.ins.filter fun i => i.side == sd
  let b := { b with qy.ins := b.qy.ins.filter fun i => i.side != sd }
  let lost := (b.fw (otherSide sd)).buf.countP fun f => !isIdleFlit f
  let b := b.modFw (otherSide sd) fun w => { w with buf := [], standin := [] }
  let b := b.each (List.range lost) fun b _ => b.dropFlit (otherSide sd)
  (mine.foldl (fun b i =>
    match i.remTag with
    | some t =>
      match b.qy.rems.find? fun w => w.tag == t with
      | some w => if w.dump then (b.remEnds w (.unsent St.timeout)).dumpFail else b.remEnds w (.unsent St.timeout)
      | none => b
    | none => if i.flit.kind = 2 then b.cplDiscard sd else b) b).wakeFences

/-- The side leaves RUN and trains at a grade. -/
def Block.retrainSide (b : Block) (sd : Side) (g : Fin 4) (inLoop : Bool) : Block :=
  (b.trainSide sd g inLoop).purgeSide sd

/-- The side leaves RUN and is down. -/
def Block.dropSide (b : Block) (sd : Side) : Block := (b.segDown sd).purgeSide sd

/-! ### HARBOUR to OPEN (R331, R365) -/

/-- OPEN is reached: the time is noted, and the least security version rises to the running image's (R331). -/
def Block.enterOpen (b : Block) : Block :=
  let v := b.mf.secVersion
  { b with pw.st := .openS, pw.tOpen := b.usSince b.pw.resetEdge, pw.tripHold := false
           mf.secMin := if b.mf.secMin < v then v else b.mf.secMin }

/-- The moves of R365: retrain without the G2 cap, then OPEN. -/
def Block.checkOpen (b : Block) : Block :=
  if b.pw.st != .harbour || !b.filledAndClear then b
  else
    let lift (b : Block) (sd : Side) : Block :=
      let s := b.side sd
      if s.seg = .down then b.modSide sd fun x => { x with capG2 := false }
      else if s.seg = .run ∧ s.capG2 then
        (b.modSide sd fun x => { x with capG2 := false }).retrainSide sd 0 false
      else b
    let b := lift (lift b .west) .east
    let done (sd : Side) : Bool :=
      (b.side sd).seg == .down || ((b.side sd).seg == .run && !(b.side sd).capG2)
    if done .west && done .east then b.enterOpen else b

/-! ### Route and region tables (R183, R187) -/

/-- The side that the route table gives for a pier: the first valid entry that matches. -/
def Block.route (b : Block) (dest : Nat) : Option Side :=
  (List.range 256).findSome? fun n =>
    let w := (b.reg (Off.qyRoute + 4 * n)).toNat
    if w / 2 ^ 15 % 2 = 1 ∧ w % 2 ^ 15 ≤ dest ∧ dest ≤ w / 2 ^ 16 % 2 ^ 15 then
      some (if w / 2 ^ 31 = 1 then .east else .west)
    else none

/-- A region entry as it stands (R183, R193). -/
structure Region where
  base : Nat
  last : Nat
  srcLo : Nat
  srcHi : Nat
  valid : Bool
  r : Bool
  w : Bool
  op : Bool
  slot : Nat
  deriving DecidableEq, Repr

/-- Region entry `n`: its range runs to the last byte of its last 4 KiB piece. -/
def Block.region (b : Block) (n : Nat) : Region :=
  let at_ (k : Nat) : Nat := (b.reg (Off.qyRgnBaseLo + 0x20 * n + k)).toNat
  let perm := at_ 0x14
  { base := at_ 0x04 % 32 * 2 ^ 32 + at_ 0x00 / 4096 * 4096
    last := at_ 0x0C % 32 * 2 ^ 32 + at_ 0x08 / 4096 * 4096 + 4095
    srcLo := at_ 0x10 % 2 ^ 15, srcHi := at_ 0x10 / 2 ^ 16 % 2 ^ 15
    valid := perm % 2 = 1, r := perm / 2 % 2 = 1, w := perm / 4 % 2 = 1, op := perm / 8 % 2 = 1
    slot := perm / 16 % 128 }

/-- The permissions an opcode needs over a span (R169). -/
structure Perm where
  r : Bool
  w : Bool
  op : Bool
  deriving DecidableEq, Repr

/-- A span of local bytes: its first byte and its length. -/
structure Span where
  first : Nat
  len : Nat
  deriving DecidableEq, Repr

/-- The last byte of a span. -/
def Span.last (s : Span) : Nat := s.first + s.len - 1

/-- The bytes of the pier (R15) and the start of the harbour reserve (R18). -/
abbrev pierBytes : Nat := 2 ^ 37
abbrev reserveBase : Nat := 0x1FE0000000

/-- The entry that decides a span for a source: the first valid one that overlaps it and admits the source (R183). -/
def Block.regionFor (b : Block) (sp : Span) (src : Nat) : Option Region :=
  (List.range 64).findSome? fun n =>
    let e := b.region n
    if e.valid && decide (e.base ≤ sp.last ∧ sp.first ≤ e.last ∧ e.srcLo ≤ src ∧ src ≤ e.srcHi) then some e else none

/-- The receipt rings, from the start of the reserve (R333). -/
abbrev ringBytes : Nat := 64 * 0x100000
/-- The local dump area (R333). -/
abbrev dumpBase : Nat := 0x1FF0000000
/-- The error record ring in the reserve (R333). -/
abbrev errBase : Nat := 0x1FE4000000

/-- A span inside one receipt ring (R333). -/
def inRing (sp : Span) : Bool :=
  decide (reserveBase ≤ sp.first ∧ sp.last < reserveBase + ringBytes ∧ (sp.first - reserveBase) / 0x100000 = (sp.last - reserveBase) / 0x100000)

/-- A span of the reserve that a region entry may open to a read: inside a receipt ring, or inside the local dump ring
that DUMP_CONFIG has set (R18, R333, R431). -/
def Block.inOpenReserve (b : Block) (sp : Span) : Bool :=
  inRing sp || match b.tl.cfg with
    | some d => d.mode == 1 && decide (d.ringAddr.toNat ≤ sp.first ∧ sp.last < d.ringAddr.toNat + d.ringBytes.toNat)
    | none => false

end Sys2Proof.Machine
end

