-- ==== Sys2Proof/Machine/Operands.lean ====
section
/-! DEFINITION. The operand forms of the memory requests: which spans a request touches and with which permissions
(R169, R183), whether a field that sets a span is out of its legal values (R454), whether header and payload are
valid (R168, R223 to R232), and which granules are read and written. -/

namespace Sys2Proof.Machine

open Sys2Proof

/-- The opcode of an operation (R169). -/
def Op.code : Op → Nat
  | .read => 0x01 | .write => 0x02 | .writeBytes => 0x03 | .atomic => 0x10 | .reduce => 0x20 | .gather => 0x21
  | .scatter => 0x22 | .fill => 0x23 | .find => 0x24 | .copyLocal => 0x25 | .copyRemote => 0x26 | .fence => 0x30

/-- The permissions that R169 lists for an operation over its (source) span. -/
def Op.perm : Op → Perm
  | .read => ⟨true, false, false⟩
  | .write | .writeBytes => ⟨false, true, false⟩
  | .atomic => ⟨true, true, true⟩
  | .reduce | .gather | .find | .copyLocal | .copyRemote => ⟨true, false, true⟩
  | .scatter | .fill => ⟨false, true, true⟩
  | .fence => ⟨false, false, false⟩

/-- The operation writes memory and passes the commit gate (R180). -/
def Op.writes : Op → Bool
  | .write | .writeBytes | .atomic | .scatter | .fill | .copyLocal => true
  | _ => false

/-- What the quay works out of a request before it looks at any table. -/
structure Plan where
  spanBad : Bool := false
  spans : List (Span × Perm) := []
  valid : Bool := false
  reads : List Nat := []
  writes : List Nat := []
  deriving DecidableEq, Repr

/-- The granules of `len` granules from a local offset on. -/
def granRange (a len : Nat) : List Nat := (List.range len).map fun j => a / 64 + j

/-- A list of numbers in ascending order without repeats. -/
def ascending (xs : List Nat) : List Nat :=
  (xs.foldl (fun (t : Tbl Unit) x => tput t x ()) []).map (·.1)

/-- What every request's header must hold: ATTR[7:2] and STATUS 0, reserved bits 0, poison only on valid granules
(R145, R168). -/
def headerClean (f : Flit) : Bool :=
  f.attr.toNat < 4 && f.status == 0 && f.rsv == 0 && f.poison &&& ~~~ f.gvalid == 0

/-- Exactly the granules of `mask` are valid, and the others are zeros.  R145 has every receiver ignore a granule that
GVALID does not mark, R168 refuses a request in which one is not 0: the quay follows R168, the rule on requests
(DEDUCED; log 88). -/
def payloadIs (f : Flit) (mask : Nat) : Bool :=
  f.gvalid.toNat == mask && (List.range 4).all fun j => mask.testBit j || granOf f j == 0

/-- The granules not marked in GVALID are zeros. -/
def payloadClean (f : Flit) : Bool := payloadIs f f.gvalid.toNat

/-- Bytes [i, 64) of granule 0 are zeros. -/
def g0Rest (f : Flit) (i : Nat) : Bool := f.g0.toNat / 2 ^ (8 * i) == 0

/-- The address is a multiple of `n`. -/
def alignedTo (n a : Nat) : Bool := a % n == 0

/-- The plan of a memory request (R169, R223 to R232).  A WRITE with no GVALID bit has a bad field that sets its span, so that
only the granule at OFFSET is region-checked (R454; DEDUCED: log 117). -/
def planOf (op : Op) (f : Flit) : Plan :=
  let a := f.offset.toNat
  let len := f.length.toNat
  let arg := f.arg.toNat
  let p := op.perm
  let clean := headerClean f
  match op with
  | .read =>
    { spanBad := !(decide (1 ≤ len ∧ len ≤ 4)), spans := [(⟨a, 64 * len⟩, p)]
      valid := clean && alignedTo 64 a && payloadIs f 0 && arg == 0, reads := granRange a len }
  | .write =>
    let hi := bitLen f.gvalid.toNat
    { spanBad := hi == 0, spans := [(⟨a, 64 * hi⟩, p)]
      valid := clean && alignedTo 64 a && payloadClean f && arg == 0 && len == 0
      writes := ((List.range 4).filter fun j => f.gvalid.getLsbD j).map fun j => a / 64 + j }
  | .writeBytes =>
    { spans := [(⟨a / 64 * 64, 64⟩, p)]
      valid := clean && payloadIs f 1 && decide (arg / 4096 = 0 ∧ arg % 64 ≤ arg / 64 % 64) && len == 0
      reads := [a / 64], writes := [a / 64] }
  | .atomic =>
    let opc := arg % 16
    let ok := match atomicSize f with
      | none => false
      | some n =>
        atomicListed opc n && alignedTo n a && arg / 64 == 0 && g0At f n (32 - n) == 0
          && (if opc = 1 then g0Rest f (32 + n) else g0Rest f 32)
    { spans := [(⟨a / 64 * 64, 64⟩, p)], valid := clean && payloadIs f 1 && len == 0 && ok
      reads := [a / 64], writes := [a / 64] }
  | .reduce =>
    match redCtl f with
    | none => { spanBad := true }
    | some c =>
      let elems := (List.range c.count).map fun i => (a + i * c.stride) / 64
      { spanBad := decide (c.length ≠ len ∨ 16384 < len), spans := [(⟨a, 64 * len⟩, p)]
        valid := clean && alignedTo 64 a && payloadIs f 1 && arg == 0
        reads := ascending elems }
  | .gather | .scatter =>
    let e := gsSize f
    let top := if op = .gather then 256 / e else min 16 (192 / e)
    let ixs := indices f
    let hi := (ixs.map fun ix => (ix + 1) * e).foldl max 0
    let mask := if op = .gather then 2 ^ ((4 * len + 63) / 64) - 1 else 1 + 2 * (2 ^ ((len * e + 63) / 64) - 1)
    let gs := ascending (ixs.map fun ix => elemAddr f ix / 64)
    { spanBad := decide (arg / 4 ≠ 0 ∨ len < 1 ∨ top < len ∨ 1048576 < hi), spans := [(⟨a, hi⟩, p)]
      valid := clean && alignedTo e a && payloadIs f mask
      reads := if op = .gather ∨ e < 64 then gs else []
      writes := if op = .gather then [] else gs }
  | .fill =>
    { spanBad := !(decide (1 ≤ len ∧ len ≤ 16384)), spans := [(⟨a, 64 * len⟩, p)]
      valid := clean && alignedTo 64 a && payloadIs f 1 && arg == 0, writes := granRange a len }
  | .find =>
    { spanBad := !(decide (1 ≤ len ∧ len ≤ 16384)), spans := [(⟨a, 64 * len⟩, p)]
      valid := clean && alignedTo 64 a && payloadIs f 1 && arg / 4 == 0
        && g0At f (findSize f) (8 - findSize f) == 0 && g0Rest f (8 + findSize f)
      reads := granRange a len }
  | .copyLocal =>
    let dst := g0At f 0 8
    { spanBad := !(decide (1 ≤ len ∧ len ≤ 16384 ∧ dst < 2 ^ 37 ∧ dst % 64 = 0))
      spans := [(⟨a, 64 * len⟩, p), (⟨dst, 64 * len⟩, ⟨false, true, true⟩)]
      valid := clean && alignedTo 64 a && payloadIs f 1 && arg == 0 && g0Rest f 8
        && decide (a + 64 * len ≤ dst ∨ dst + 64 * len ≤ a)
      reads := granRange a len, writes := granRange dst len }
  | .copyRemote =>
    let dst := g0At f 0 8
    { spanBad := !(decide (1 ≤ len ∧ len ≤ 1024)), spans := [(⟨a, 64 * len⟩, p)]
      valid := clean && alignedTo 64 a && payloadIs f 1 && arg == 0 && g0Rest f 8
        && decide (dst < 2 ^ 52 ∧ dst % 64 = 0 ∧ dst % 2 ^ 37 + 64 * len ≤ 2 ^ 37)
      reads := granRange a len }
  | .fence =>
    { valid := clean && decide (a = 0) && payloadIs f 0 && arg == 0 && len == 0 }

/-- A register access is well formed (R172). -/
def csrWellFormed (isRead : Bool) (f : Flit) : Bool :=
  headerClean f && payloadIs f 0 && f.length == 0 && decide (f.offset.toNat < 2 ^ 24) && alignedTo 4 f.offset.toNat
    && (!isRead || f.arg == 0)

/-- The granules of a list cut into pieces, one group per piece, in ascending order (R179). -/
def byPiece (gs : List Nat) : List (Nat × List Nat) :=
  (ascending (gs.map pieceOf)).map fun p => (p, gs.filter fun g => pieceOf g == p)

/-- The pieces of a span. -/
def Span.pieces (s : Span) : List Nat :=
  (List.range (s.last / 4096 + 1 - s.first / 4096)).map fun k => s.first / 4096 + k

/-- The pieces that get a part: every one of the request's span, but of a REDUCE's those with an element (R179, R226). -/
def partPieces (op : Op) (pl : Plan) : List Nat :=
  if op = .reduce then (byPiece pl.reads).map (·.1)
  else match pl.spans with
    | [] => []
    | e :: _ => e.1.pieces

/-- The parts of a request: one per piece of its span, also where the request touches no granule of the piece; a
COPY_LOCAL has parts for its source and parts for its destination (R179). -/
def partsOf (op : Op) (pl : Plan) : List Part :=
  let part (r w : List Nat) (p : Nat) : Part :=
    { berth := pieceChan p, reads := r, toIssue := r, toWrite := w }
  if op = .copyLocal then
    (byPiece pl.reads).map (fun e => part e.2 [] e.1) ++ (byPiece pl.writes).map (fun e => part [] e.2 e.1)
  else
    (partPieces op pl).map fun p =>
      part (pl.reads.filter fun g => pieceOf g == p) (pl.writes.filter fun g => pieceOf g == p) p

end Sys2Proof.Machine
end

