-- ==== Sys2Proof/Machine/Receipts.lean ====
section
/-! DEFINITION. Receipt rings, slots and pushed receipts (R317 to R323). -/

namespace Sys2Proof.Machine

open Sys2Proof

/-! The opcodes of R324. -/
namespace Mop
abbrev pierInfo : Nat := 0x0001
abbrev setPierId : Nat := 0x0002
abbrev routeSet : Nat := 0x0003
abbrev regionSet : Nat := 0x0004
abbrev keyLoad : Nat := 0x0005
abbrev charterOpen : Nat := 0x0010
abbrev charterClose : Nat := 0x0011
abbrev charterQuery : Nat := 0x0012
abbrev scrubRange : Nat := 0x0020
abbrev fillStatus : Nat := 0x0021
abbrev surveyRun : Nat := 0x0030
abbrev calRun : Nat := 0x0031
abbrev calStatus : Nat := 0x0032
abbrev laneStatus : Nat := 0x0040
abbrev laneRetrain : Nat := 0x0041
abbrev lanePrbs : Nat := 0x0042
abbrev clockSwitch : Nat := 0x0050
abbrev sscSet : Nat := 0x0051
abbrev powerDomain : Nat := 0x0052
abbrev thermStatus : Nat := 0x0060
abbrev sensorReplace : Nat := 0x0061
abbrev tallyConfig : Nat := 0x0070
abbrev dumpConfig : Nat := 0x0071
abbrev logRead : Nat := 0x0080
abbrev tripAck : Nat := 0x0081
abbrev stackDieReset : Nat := 0x0090
abbrev stackReset : Nat := 0x0091
abbrev shutdown : Nat := 0x00A0
abbrev recover : Nat := 0x00A1
abbrev fwUpdate : Nat := 0x00A2
end Mop

/-- The key of a slot: sequence `s` of a ring uses slot s mod 1,024 (R320). -/
def slotKey (ring : Nat) (seq : BitVec 32) : Nat := ring * 1024 + seq.toNat % 1024

/-- A slot's local offset (R333). -/
def slotOffset (ring : Nat) (seq : BitVec 32) : Nat := reserveBase + ring * 0x100000 + seq.toNat % 1024 * 0x400

/-- A receipt slot. -/
def Block.slot (b : Block) (k : Nat) : Slot := tget (fun _ => {}) b.mf.slots k
/-- A receipt slot set. -/
def Block.setSlot (b : Block) (k : Nat) (v : Slot) : Block := { b with mf.slots := tset (fun _ => {}) b.mf.slots k v }
/-- READ_AGAIN set: the first granule of the slot is written, and no other (R321). -/
def Slot.marked (v : Slot) : Slot :=
  { v with readAgain := true, stored := tdel v.stored 0, touched := v.touched ||| 1 }

/-- A receipt ring. -/
def Block.ring (b : Block) (n : Nat) : Ring := tget (fun _ => {}) b.mf.rings n
/-- A receipt ring set. -/
def Block.setRing (b : Block) (n : Nat) (v : Ring) : Block := { b with mf.rings := tset (fun _ => {}) b.mf.rings n v }

def SlotState.code : SlotState → Nat
  | .empty => 0 | .pending => 1 | .done => 2 | .expired => 3

/-- The 64-byte header of a slot (R320); an EMPTY slot's is STATE 0x0 with every other byte 0 (R319). -/
def slotHeader (s : Slot) : List Byte :=
  if s.st = .empty then List.replicate 64 0
  else
    [1, BitVec.ofNat 8 s.st.code] ++ leBytes s.opcode.toNat 2 ++ leBytes s.seq.toNat 4
      ++ [s.status, BitVec.ofNat 8 (b2n s.readAgain + 2 * b2n s.unseen)] ++ leBytes s.result.length 2 ++ leBytes 0 4
      ++ leBytes s.tDecide.toNat 8 ++ leBytes s.tDone.toNat 8
      ++ [s.reason, 0] ++ leBytes s.place.toNat 2 ++ leBytes s.need.toNat 4 ++ leBytes s.have_.toNat 4 ++ leBytes 0 4
      ++ leBytes s.tag.toNat 16

/-- A slot's 1,024 bytes. -/
def slotBytes (s : Slot) : List Byte := padTo 1024 (slotHeader s ++ s.result)

/-- The RECEIPT flits that carry `bytes` of a slot (R322). -/
def Block.receiptFlits (b : Block) (o : Origin) (status off len : Nat) (bytes : List Byte) : List Flit :=
  let n := max 1 ((bytes.length + 255) / 256)
  (List.range n).map fun k =>
    let part := (bytes.drop (256 * k)).take 256
    withPayload
      { kind := 4, vl := true, dest := o.src, src := b.selfId, tag := o.tag, flow := o.flow
        offset := BitVec.ofNat 37 off, status := BitVec.ofNat 8 status, length := BitVec.ofNat 16 len
        gvalid := BitVec.ofNat 4 (2 ^ ((part.length + 63) / 64) - 1), arg := BitVec.ofNat 32 (k + 65536 * n) } part

/-- RECEIPT flits pushed toward the route of the source, or the side the manifest came from; not pushed toward a
side that is down, nor with PUSH_EN = 0 (R322, R334). -/
def Block.push (b : Block) (o : Origin) (level : Nat) (fs : List Flit) : Block :=
  match o.side with
  | none => b
  | some from_ =>
    let sd := (b.route o.src.toNat).getD from_
    if !b.regBit Off.mfCtrl 3 || (b.side sd).seg != .run then b
    else { b with qy.ins := b.qy.ins ++ fs.map fun f =>
      { side := sd, level := level, flit := f, quayIn := b.ck.tide, boundNs := 0xFFFFFFFF } }

/-- The detail bytes of an ADMIT_REFUSED receipt (R210, R320). -/
structure Detail where
  reason : BitVec 8 := 0
  place : BitVec 16 := 0
  need : BitVec 32 := 0
  have_ : BitVec 32 := 0
  deriving DecidableEq, Repr

/-- A manifest completes: its slot is written whole, DONE with the status and result, it no longer runs, and an in-band sender
without QUIET gets the whole slot (R320, R322). -/
def Block.finish (b : Block) (m : ManRef) (opcode status : Nat) (result : List Byte := []) (d : Detail := {}) : Block :=
  let k := slotKey m.ring m.seq
  let old := b.slot k
  let s : Slot :=
    { old with
      st := .done, opcode := BitVec.ofNat 16 opcode, seq := m.seq, status := BitVec.ofNat 8 status
      tDone := b.ck.tide, result := result.take 960, reason := d.reason, place := d.place, need := d.need
      have_ := d.have_, readAgain := false, unseen := false, stored := [], touched := 0xFFFF }
  let mine := b.mf.running.find? fun r => r.m == m
  let b := { b.setSlot k s with mf.running := b.mf.running.filter fun r => r.m != m }
  match mine with
  | some r =>
    if r.origin.quiet then b
    else b.push r.origin 5 (b.receiptFlits r.origin status (slotOffset m.ring m.seq) (64 + s.result.length)
      ((slotBytes s).take (64 + s.result.length)))
  | none => b

/-- The sides whose lanes a manifest of R318's lane row concerns, by its opcode and parameters. -/
def laneSides (op : Nat) (ps : List Byte) : List Side :=
  let named (n : Nat) : List Side := if n = 0 then [.west] else if n = 1 then [.east] else []
  if op = Mop.laneRetrain ∨ op = Mop.lanePrbs then named (leAt ps 0 1)
  else if op = Mop.sscSet then (if leAt ps 3 1 % 2 = 1 then named (leAt ps 0 1) else [])
  else if op = Mop.calRun ∧ leAt ps 0 1 = 0 then
    (if leAt ps 4 2 = 0 then [] else [Side.west]) ++ (if leAt ps 6 2 = 0 then [] else [Side.east])
  else []

/-- Another manifest than `m` of R318's lane row runs on a side. -/
def Block.laneBusy (b : Block) (sd : Side) (m : Option ManRef) : Bool :=
  (match (b.side sd).waiter with
    | some (w, _) => some w != m
    | none => false)
    || (b.mf.running.any fun r => some r.m != m && (laneSides r.opcode.toNat r.params).contains sd)
    || ((sideLanes sd).any fun l => match (b.lane l).prbsOwner with
      | some w => some w != m
      | none => false)
    || (b.sv.cal.any fun r => some r.m != m && r.cls == 0 && (sideLanes sd).any fun l => r.todo.getLsbD l)

/-- Running manifests that a test picks complete with a status and no result. -/
def Block.endRunning (b : Block) (p : Running → Bool) (status : Nat) : Block :=
  (b.mf.running.filter p).foldl (fun b r => b.finish r.m r.opcode.toNat status) b

/-! ### Where a manifest is decided (R19, R316, R324, R349) -/

/-- The harbourmaster, or boot code, answers manifests: not in DARK, FROZEN or scan, not while WRST_N holds the core in
reset, not with its clock stopped (R20, R353, R416, R453). -/
def Block.hmRuns (b : Block) : Bool := b.live && !b.pw.heldInReset

/-- The SPI flash can be reached: VDD_IO is in range (R38). -/
def Block.spiRuns (b : Block) : Bool := !b.pins.railsLow.contains .io

/-- The pier's 7-bit I3C static address and SMBus address: 0x50 plus the strap, whatever its pier ID (R49). -/
def Block.sideAddress (b : Block) : BitVec 7 := BitVec.ofNat 7 (0x50 + b.pins.strap.toNat)

/-- The opcode's work needs a domain that a failure of the crystal or of PLL_ROOT gates (R348, R349; which opcodes these
are is DEDUCED: log 28); POWER_DOMAIN's depends on its domain. -/
def needsCore (op : BitVec 16) : Bool :=
  [Mop.charterOpen, Mop.charterClose, Mop.scrubRange, Mop.surveyRun, Mop.calRun, Mop.laneRetrain, Mop.lanePrbs, Mop.sscSet,
    Mop.stackDieReset, Mop.stackReset, Mop.tallyConfig, Mop.dumpConfig].contains op.toNat

/-- The states in which an opcode is accepted (R324), by the letters of its table. -/
def opStates (op : Nat) : List PierState :=
  let a := PierState.arrival
  let sv := PierState.survey
  let h := PierState.harbour
  let o := PierState.openS
  let d := PierState.departure
  let t := PierState.tripped
  match op with
  | 0x0001 | 0x0010 | 0x0060 | 0x0080 => [a, sv, h, o, d, t]
  | 0x0005 | 0x00A1 | 0x00A2 => [a, sv, h, o]
  | 0x0011 => [o]
  | 0x0012 | 0x0040 => [h, o, d]
  | 0x0032 => [h, o, d, t]
  | 0x0061 => [h, o, t]
  | 0x0081 => [h]
  | _ => [h, o]

/-- Boot code alone runs: in arrival step 1, while a restarted core boots, and without a valid image (R20, R331, R344). -/
def Block.bootCodeRuns (b : Block) : Bool := (b.pw.st == .arrival && b.pw.arr == .boot) || b.mf.reboot || b.mf.noImage

/-- The opcode is accepted in the pier's state; under boot code, PIER_INFO and FW_UPDATE alone (R20, R324); while the core
is gated, nothing that needs it (R349); a CHARTER_OPEN outside OPEN needs nothing (R21). -/
def Block.accepts (b : Block) (op : Nat) : Bool :=
  (opStates op).contains b.pw.st
    && (!b.bootCodeRuns || op == Mop.pierInfo || op == Mop.fwUpdate)
    && !(b.ck.coreGated && needsCore (BitVec.ofNat 16 op) && (op != Mop.charterOpen || b.pw.st == .openS))

/-- A firmware COMMIT (R332). -/
def Running.isCommit (r : Running) : Bool := r.opcode.toNat == Mop.fwUpdate && r.params.getD 0 0 == 2

/-- A manifest that runs to its end through a departure (R375): a firmware COMMIT, PIER_INFO, LOG_READ, THERM_STATUS; and
the SHUTDOWN itself. -/
def Running.survives (r : Running) : Bool :=
  [Mop.pierInfo, Mop.logRead, Mop.thermStatus, Mop.shutdown].contains r.opcode.toNat || r.isCommit

/-- The manifest was accepted before a departure that it survives: its work goes on (R375). -/
def Block.goesOn (b : Block) (m : ManRef) : Bool :=
  b.pw.st == .departure && b.mf.running.any fun r => r.m == m && r.survives

/-- The manifest has completed: its slot is DONE, and it no longer runs. -/
def Block.isOver (b : Block) (m : ManRef) : Bool :=
  let x := b.slot (slotKey m.ring m.seq)
  x.st == .done && x.seq == m.seq && !(b.mf.running.any fun r => r.m == m)

/-- An accepted manifest's work: REFUSED where its opcode is not accepted; nothing while no harbourmaster runs. -/
def State.man (s : State) (m : ManRef) (op : Nat) (f : Block → Block) : Host.Outcome State Fault Refusal :=
  s.upd fun b => if ¬ b.hmRuns then b else if b.accepts op || b.goesOn m then f b else b.finish m op St.refused

/-- A domain that a failure of the crystal or of PLL_ROOT gates (R346). -/
def coreDom (d : Nat) : Bool := decide ((10 ≤ d ∧ d ≤ 14) ∨ (16 ≤ d ∧ d < 48))

/-- The side of a quad domain or of CK_W and CK_E. -/
def domSide (d : Nat) : Side := if d < 4 ∨ d = 8 then .west else .east

/-- Breakwater holds the domain gated: with the core, or with its side's PLL (R346). -/
def Block.domHeld (b : Block) (d : Nat) : Bool :=
  (b.ck.coreGated && coreDom d) || (decide (d < 10) && (b.pll (sidePll (domSide d))).down)

/-- A running manifest that a failure of the crystal or of PLL_ROOT cuts short: its work needs a gated domain; a die reset
goes on once DMAN rises (R281, R348). -/
def Running.needsGated (r : Running) : Bool :=
  (needsCore r.opcode && r.opcode.toNat != Mop.stackDieReset) || (r.opcode.toNat == Mop.powerDomain && coreDom (leAt r.params 0 1))

end Sys2Proof.Machine
end

