-- ==== Sys2Proof/Machine/CharterOps.lean ====
section
/-! DEFINITION. Charters: derived figures, buckets, reservations, `check`, and the passes (R194 to R215). -/

namespace Sys2Proof.Machine

open Sys2Proof

/-! ### Figures (R194, R197, R203) -/

/-- Quotient rounded up. -/
def ceilDiv (n d : Nat) : Nat := (n + d - 1) / d

namespace CharterDesc'

/-- The descriptor is legal under R194. -/
def legal (d : CharterDesc) : Bool :=
  decide (d.cls.toNat = 1 ∨ d.cls.toNat = 2) && decide (d.flags.toNat < 8 ∧ d.flags.toNat / 2 ≠ 0)
    && decide (1 ≤ d.run.toNat ∧ d.run.toNat ≤ 32 ∧ d.window.toNat ≤ 64 ∧ 1 ≤ d.bw.toNat ∧ d.bw.toNat ≤ 51200
      ∧ 1 ≤ d.gpc.toNat ∧ d.gpc.toNat ≤ 16384 ∧ d.flowLo.toNat ≤ d.flowHi.toNat ∧ d.srcLo.toNat ≤ d.srcHi.toNat
      ∧ d.srcHi.toNat ≤ 0x7FFE ∧ d.berths ≠ 0 ∧ d.rank.toNat ≤ 15 ∧ d.rsv = 0)

/-- The charter is RT. -/
def isRt (d : CharterDesc) : Bool := d.cls == 1
/-- NO_SLEEP. -/
def noSleep (d : CharterDesc) : Bool := d.flags.getLsbD 0
/-- The charter names the side. -/
def serves (d : CharterDesc) (sd : Side) : Bool := d.flags.getLsbD (1 + sideNo sd)
/-- The charter names berth `n`. -/
def names (d : CharterDesc) (n : Nat) : Bool := d.berths.getLsbD n
/-- The berths named. -/
def berthList (d : CharterDesc) : List Nat := (List.range 64).filter (names d)
/-- The window in units of 0.25 µs; 0 selects 4. -/
def win (d : CharterDesc) : Nat := if d.window = 0 then 4 else d.window.toNat
/-- rate(c) (R197). -/
def rate (d : CharterDesc) : Nat := ceilDiv (d.bw.toNat * (d.run.toNat + 37)) (d.run.toNat * (berthList d).length)
/-- depth(c). -/
def depth (d : CharterDesc) : Nat := ceilDiv (rate d * win d) 4
/-- F(c). -/
def quayRate (d : CharterDesc) : Nat := ceilDiv d.bw.toNat d.gpc.toNat
/-- Q(c). -/
def quayDepth (d : CharterDesc) : Nat := ceilDiv (quayRate d * win d) 4
/-- tags(c) (R203). -/
def tags (d : CharterDesc) : Nat :=
  max 4 (if isRt d then ceilDiv (quayRate d * 12) 10 else quayRate d * 3)
/-- Ingress entries reserved at each named berth (R203). -/
def ingress (d : CharterDesc) : Nat := if isRt d then 32 else 16
/-- The cost of a part of `g` granules (R197). -/
def cost (d : CharterDesc) (g : Nat) : Nat := ceilDiv (g * (d.run.toNat + 37)) d.run.toNat
/-- The cap of the row allowance (R201). -/
def rowCap (d : CharterDesc) : Nat := ceilDiv (depth d) (d.run.toNat + 37) + 1

/-- The 32 bytes of R194. -/
def bytes (d : CharterDesc) : List Byte :=
  [d.cls, d.flags, d.run, d.window] ++ leBytes d.bw.toNat 2 ++ leBytes d.gpc.toNat 2 ++ leBytes d.flowLo.toNat 2
    ++ leBytes d.flowHi.toNat 2 ++ leBytes d.srcLo.toNat 2 ++ leBytes d.srcHi.toNat 2 ++ leBytes d.berths.toNat 8
    ++ [d.rank] ++ leBytes d.rsv.toNat 7

end CharterDesc'

open CharterDesc'

/-! ### The table -/

/-- Charter `c`. -/
def Block.charter (b : Block) (c : Nat) : Charter := tget (fun _ => {}) b.chs.tab c
/-- Charter `c` set. -/
def Block.setCharter (b : Block) (c : Nat) (v : Charter) : Block :=
  { b with chs.tab := tset (fun _ => {}) b.chs.tab c v }
/-- Charter `c` changed. -/
def Block.modCharter (b : Block) (c : Nat) (f : Charter → Charter) : Block := b.setCharter c (f (b.charter c))

/-- The charters in a state, ascending, with their descriptors. -/
def Block.chartersIn (b : Block) (p : ChState → Bool) : List (Nat × CharterDesc) :=
  b.chs.tab.filterMap fun e =>
    match e.2.desc with
    | some d => if p e.2.st then some (e.1, d) else none
    | none => none

/-- The ACTIVE charters. -/
def Block.actives (b : Block) : List (Nat × CharterDesc) := b.chartersIn (· == .active)
/-- The charters that count in `check`: the ACTIVE ones and those that wait for their channels to wake (R209, R262). -/
def Block.counted (b : Block) : List (Nat × CharterDesc) :=
  b.actives ++ b.chs.waking.filterMap fun w => (b.charter w.1).desc.map fun d => (w.1, d)
/-- The SUSPENDED charters. -/
def Block.suspendeds (b : Block) : List (Nat × CharterDesc) := b.chartersIn (· == .suspended)
/-- The charters that hold reservations: ACTIVE, and CLOSING until their last request completes (R212). -/
def Block.reservers (b : Block) : List (Nat × CharterDesc) := b.chartersIn fun s => s == .active || s == .closing

/-- The charter that a flow and source belong to (R196); a CLOSING charter takes no new requests (R212). -/
def Block.charterFor (b : Block) (flow src : Nat) : Option (Nat × CharterDesc) :=
  (b.chartersIn fun s => s == .active || s == .suspended).find? fun e =>
    decide (e.2.flowLo.toNat ≤ flow ∧ flow ≤ e.2.flowHi.toNat ∧ e.2.srcLo.toNat ≤ src ∧ src ≤ e.2.srcHi.toNat)

/-- A saturating 32-bit count. -/
def inc32 (x : BitVec 32) (n : Nat := 1) : BitVec 32 := BitVec.ofNat 32 (min (x.toNat + n) (2 ^ 32 - 1))

/-- The charter of a class, when the request runs in budget. -/
def Cls.charter : Cls → Option Nat
  | .rt c => some c
  | .bw c => some c
  | _ => none

/-- The class filter of the tally events (R427). -/
def Cls.filter : Cls → Nat
  | .rt _ => 1
  | .bw _ => 2
  | .demoted _ => 3
  | .be => 4

/-! ### Buckets (R198 to R202) -/

/-- A charter with every bucket and allowance full (R202). -/
def Charter.full (x : Charter) : Charter :=
  match x.desc with
  | none => x
  | some d =>
    { x with
      tokens := (berthList d).foldl (fun (t : Tbl Nat) n => tset (fun _ => 0) t n (depth d * 1600)) []
      quayTok := quayDepth d * 1600
      rows := (berthList d).foldl (fun (t : Tbl Nat) n => tset (fun _ => 0) t n (rowCap d)) []
      rowRun := [] }

/-- The granules of a part, a granule both read and written counted twice (R197). -/
def Part.granules (p : Part) : Nat := p.reads.length + p.toWrite.length

/-- The cost at each berth of a request's parts. -/
def partCosts (d : CharterDesc) (ps : List Part) : List (Nat × Nat) :=
  (ascending (ps.map (·.berth))).map fun n =>
    (n, ((ps.filter fun p => p.berth == n).map fun p => cost d p.granules).sum)

/-! ### Reservations and resources (R173, R203) -/

/-- The ingress entries that a request's parts still hold at a berth. -/
def Req.entriesAt (r : Req) (n : Nat) : Nat :=
  r.parts.countP fun p => p.berth == n && p.stage != .done && p.stage != .withdrawn

/-- Ingress entries of a berth held by requests that a test picks. -/
def Block.entries (b : Block) (n : Nat) (p : Req → Bool) : Nat := ((b.qy.reqs.filter p).map (Req.entriesAt · n)).sum

/-- The request holds reserved resources: in budget of a charter that has reservations. -/
def Block.reservedReq (b : Block) (c : Cls) : Bool :=
  match c.charter with
  | some k => (b.charter k).st == .active || (b.charter k).st == .closing
  | none => false

/-- Quay tags of one charter's in-budget requests, their remote writes included. -/
def Block.charterTags (b : Block) (c : Nat) : Nat :=
  let own (r : Cls) : Bool := r.charter == some c
  (((b.qy.reqs.filter fun r => own r.cls).map fun r => r.tags + (b.qy.rems.countP fun w => w.req == r.id)).sum)
    + ((b.qy.ins.filter fun i => i.tags != 0 && i.cls.charter == some c).map (·.tags)).sum
    + (((b.qy.copies.filter fun x => own x.cls).map fun x =>
        (if x.answered then 0 else 1) + (b.qy.rems.countP fun w => w.req == x.req)).sum)

/-- Quay tags reserved by charters (R203). -/
def Block.tagsReserved (b : Block) : Nat := ((b.reservers).map fun e => tags e.2).sum

/-- Quay tags held within reservations. -/
def Block.tagsInReserve (b : Block) : Nat := ((b.reservers).map fun e => b.charterTags e.1).sum

/-- Unreserved quay tags held now. -/
def Block.tagsLoose (b : Block) : Nat := b.tagsHeld - b.tagsInReserve

/-- Ingress entries reserved at a berth. -/
def Block.ingressReserved (b : Block) (n : Nat) : Nat :=
  ((b.reservers.filter fun e => names e.2 n).map fun e => ingress e.2).sum

/-- Whether a request outside budget finds its resources: tags under the best-effort limit, and ingress (R173). -/
def Block.looseTags (b : Block) (need : Nat) : Bool :=
  decide (b.tagsLoose + need ≤ b.regField Off.qyLimit 0 15 ∧ b.tagsLoose + b.tagsReserved + need ≤ 16384)

/-- Unreserved ingress entries suffice at every berth of the parts. -/
def Block.looseIngress (b : Block) (ps : List Part) : Bool :=
  (ascending (ps.map (·.berth))).all fun n =>
    decide (b.entries n (fun r => !b.reservedReq r.cls) + b.ingressReserved n + (ps.countP fun p => p.berth == n) ≤ 256)

/-- The class of an accepted request, and whether it debits (R196, R199, R200); a reserved tag or entry is free only where
the quay or the berth has one left at all (R173).  Several parts of one request at one berth take
one reserved entry each (DESIGN CHOICE: R199 and R173 speak of one entry at each berth; log 110). -/
def Block.classOf (b : Block) (sd : Side) (f : Flit) (ps : List Part) (tagNeed : Nat) : Cls :=
  if b.pw.st ≠ .openS then .be
  else match b.charterFor f.flow.toNat f.src.toNat with
    | none => .be
    | some (c, d) =>
      let x := b.charter c
      let fits := (partCosts d ps).all fun e => names d e.1 && decide (e.2 * 1600 ≤ tget (fun _ => 0) x.tokens e.1)
      let room := (ascending (ps.map (·.berth))).all fun n =>
        decide (b.entries n (fun r => r.cls.charter == some c) + (ps.countP fun p => p.berth == n) ≤ ingress d
          ∧ b.entries n (fun _ => true) + (ps.countP fun p => p.berth == n) ≤ 256)
      if x.st == .active && serves d sd && fits && room && decide (1600 ≤ x.quayTok)
          && decide (b.charterTags c + tagNeed ≤ tags d ∧ b.tagsHeld + tagNeed ≤ 16384) then
        (if isRt d then .rt c else .bw c)
      else .demoted c

/-- The debits of an in-budget request, and the counts of R216. -/
def Block.debit (b : Block) (cls : Cls) (ps : List Part) : Block :=
  match cls with
  | .demoted c => b.modCharter c fun x => { x with dem := inc32 x.dem }
  | .be => b
  | .rt c | .bw c =>
    b.modCharter c fun x =>
      match x.desc with
      | none => x
      | some d =>
        { x with
          tokens := (partCosts d ps).foldl (fun (t : Tbl Nat) e => tset (fun _ => 0) t e.1
            (tget (fun _ => 0) t e.1 - e.2 * 1600)) x.tokens
          quayTok := x.quayTok - 1600
          inb := inc32 x.inb }

/-! ### Admission (R208 to R210) -/

/-- The throttle fraction of a step in eighths (R253). -/
def stepEighths (s : Fin 8) : Nat := s.val - 3

/-- The throttle fraction of a channel that the arithmetic uses: that of a step awaiting its pass, else the step
in force (R213). -/
def Block.eighths (b : Block) (n : Nat) : Nat := stepEighths (((b.chan n).stepDue).getD (b.chan n).step)

/-- The lane flit rate of a side in flits per µs: 24.9 Gbit/s per bandwidth unit over 2,304 bits (R208). -/
def Block.laneRate (b : Block) (sd : Side) : Rat :=
  if (b.side sd).seg = .run then (b.side sd).blink * (24900 / 2304) else 0

/-- The quay-share flit rate S of a side (R208): the share is that of the partner away from it. -/
def Block.quayShareRate (b : Block) (sd : Side) : Rat := b.laneRate sd * b.shareUnits (otherSide sd) / 32

/-- A shortfall that `check` reports (R210). -/
structure Short where
  reason : Nat
  place : Nat
  need : Rat := 0
  have_ : Rat := 0
  deriving DecidableEq, Repr

/-- The berth tests of `check` at berth `n` (R209). -/
def Block.checkBerth (b : Block) (admitting : Bool) (set : List CharterDesc) (n : Nat) : Option Short :=
  let here := set.filter fun d => names d n
  if here.isEmpty then none
  else
    let st := (b.berth n).st
    if st != .ready && st != .throttled then (if admitting then some ⟨0x04, n, 1, 0⟩ else none)
    else
      let f : Rat := b.eighths n / 8
      let slot : Rat := (5 / 4) / (1 - f)
      let sum (p : CharterDesc → Bool) (g : CharterDesc → Nat) : Rat := ((here.filter p).map g).sum
      let bw (d : CharterDesc) : Bool := !isRt d
      let rRt := sum isRt rate
      let dRt := sum isRt depth
      let rBw := sum bw rate
      let dBw := sum bw depth
      let e : Nat := (here.map ingress).sum
      let fix : Rat := if here.any noSleep then 421 else 841
      let cap : Rat := 593 * (1 - f)
      let tRt := fix + slot * (dRt + 16)
      let tBw := (fix + slot * (dRt + dBw + 16)) / (1 - rRt * slot / 1000)
      if rRt + rBw > cap then some ⟨0x05, n, rRt + rBw, cap⟩
      else if e > 192 then some ⟨0x06, n, e, 192⟩
      else if tRt > 900 then some ⟨0x07, n, tRt, 900⟩
      else if tBw > 2400 then some ⟨0x08, n, tBw, 2400⟩
      else none

/-- The side tests of `check` (R209). -/
def Block.checkSideCap (b : Block) (admitting : Bool) (set : List CharterDesc) (sd : Side) : Option Short :=
  let here := set.filter fun d => serves d sd
  if here.isEmpty then none
  else if (b.side sd).seg ≠ .run then (if admitting then some ⟨0x09, sideNo sd, 1, 0⟩ else none)
  else
    let s := b.quayShareRate sd
    let sum (p : CharterDesc → Bool) (g : CharterDesc → Nat) : Rat := ((here.filter p).map g).sum
    let bw (d : CharterDesc) : Bool := !isRt d
    let fRt := sum isRt quayRate
    let qRt := sum isRt quayDepth
    let fBw := sum bw quayRate
    let qBw := sum bw quayDepth
    if fRt + fBw > 3 / 4 * s then some ⟨0x09, sideNo sd, fRt + fBw, 3 / 4 * s⟩
    else
      let tRt := 1000 * (16 + qRt) / s
      let tBw := 1000 * (16 + qRt + qBw) / (s - fRt)
      if tRt > 225 then some ⟨0x0A, sideNo sd, tRt, 225⟩
      else if tBw > 525 then some ⟨0x0B, sideNo sd, tBw, 525⟩
      else none

/-- `check` with a given limit of best-effort tags (R209, R213). -/
def Block.checkWith (b : Block) (beTags : Nat) (admitting : Bool) (set : List CharterDesc) : Option Short :=
  if set.length > 4096 then some ⟨0x02, 0, set.length, 4096⟩
  else
    match (List.range 64).findSome? (b.checkBerth admitting set) with
    | some s => some s
    | none =>
      match [Side.west, Side.east].findSome? (b.checkSideCap admitting set) with
      | some s => some s
      | none =>
        let t : Nat := (set.map tags).sum
        if t > 16384 - beTags then some ⟨0x0C, 0, t, (16384 - beTags : Nat)⟩ else none

/-- `check` of R209; `none` is OK. -/
def Block.check (b : Block) (admitting : Bool) (set : List CharterDesc) : Option Short :=
  b.checkWith (b.regField Off.qyLimit 0 15) admitting set

/-- The detail bytes of a shortfall: NEED rounded up, HAVE rounded down (R210). -/
def Short.detail (s : Short) : Detail :=
  { reason := BitVec.ofNat 8 s.reason, place := BitVec.ofNat 16 s.place
    need := BitVec.ofInt 32 s.need.ceil, have_ := BitVec.ofInt 32 s.have_.floor }

/-! ### Activation and the passes (R202, R211 to R215, R262) -/

/-- The arithmetic's throttle fractions and quay capability noted as last used (R216). -/
def Block.noteUse (b : Block) : Block :=
  { b with chs.lastF := (List.range 64).foldl (fun (t : Tbl Nat) n => tset (fun _ => 0) t n (b.eighths n)) [] }

/-- The next row-command cycle of a channel that is still free: the second cycle of a slot, an odd tide (R243). -/
def Block.rowCycle (b : Block) (x : Chan) : Tide :=
  let t := if b.now % 2 = 1 then b.ck.tide else b.ck.tide + 1
  if x.lastCmd = some t then t + 2 else t

/-- A channel enters self-refresh: PREab in the next row-command cycle, and SRE in the first one tRP after it; every row
closes (R243, R260). -/
def Block.enterSleep (b : Block) (x : Chan) (forced : Bool) : Chan :=
  let t := b.rowCycle x
  { x with pwr := .entering, forced := forced, wakeDue := false, preab := some t, sre := some (t + 24), lastCmd := some (t + 24) }

/-- SRX in the next row-command cycle (R261). -/
def Block.sendSrx (b : Block) (x : Chan) : Chan :=
  let t := b.rowCycle x
  { x with pwr := .exiting, wakeDue := false, srx := some t, lastCmd := some t }

/-- A part or a background command reaches a channel: a sleeping one is sent SRX, one that is entering self-refresh
remembers that it is wanted (R261). -/
def Block.wakeChan (b : Block) (n : Nat) : Block :=
  b.modChan n fun x =>
    if x.forced then x
    else if x.pwr = .selfRefresh then b.sendSrx x
    else if x.pwr = .entering then { x with wakeDue := true }
    else x

/-- A charter's named channels that sleep are sent SRX (R262). -/
def Block.wakeFor (b : Block) (d : CharterDesc) : Block :=
  b.each (berthList d) Block.wakeChan

/-- Every named channel that serves is AWAKE. -/
def Block.allAwake (b : Block) (d : CharterDesc) : Bool :=
  (berthList d).all fun n =>
    match (b.chan n).pwr with
    | .entering | .exiting => false
    | .selfRefresh => (b.chan n).forced
    | _ => true

/-- The result of CHARTER_OPEN (R327). -/
def openResult (c : Nat) (d : CharterDesc) : List Byte :=
  leBytes c 2 ++ leBytes (rate d) 2 ++ leBytes (depth d) 2 ++ leBytes (quayRate d) 2 ++ leBytes (quayDepth d) 2
    ++ leBytes (tags d) 2

/-- A charter's index freed: nothing of it stays but its counters, until CHARTER_OPEN reuses the index (R216). -/
def Charter.freed (x : Charter) : Charter :=
  { ({} : Charter) with inb := x.inb, dem := x.dem, miss := x.miss, panicCnt := x.panicCnt, runv := x.runv }

/-- A charter's index freed (R212). -/
def Block.freeCharter (b : Block) (c : Nat) : Block :=
  { b.modCharter c Charter.freed with chs.waking := b.chs.waking.filter fun (w : Nat × Option ManRef) => w.1 != c }

/-- A charter becomes ACTIVE with full buckets (R202, R211); the manifest that opened it completes. -/
def Block.activate (b : Block) (c : Nat) (m : Option ManRef) : Block :=
  let x := b.charter c
  let b := b.setCharter c { x.full with st := .active }
  match m, x.desc with
  | some m, some d => b.finish m Mop.charterOpen St.ok (openResult c d)
  | _, _ => b.event .charterRestored c

/-- A charter that waited and can no longer be held: an opening is refused and its index freed; a charter that was to be
restored stays SUSPENDED, for the reason it was suspended (R209, R215, R216). -/
def Block.wokenFails (b : Block) (c : Nat) (m : Option ManRef) (s : Short) : Block :=
  match m with
  | some m => (b.freeCharter c).finish m Mop.charterOpen St.admitRefused [] s.detail
  | none => b

/-- `CH_STATUS.PASS_BUSY`: a shortfall pass runs, or a restore pass that waits for channels to wake (R213, R216, R262). -/
def Block.passBusy (b : Block) : Bool :=
  b.chs.passDue || b.chs.waking.any fun (w : Nat × Option ManRef) => w.2.isNone

/-- Charters that wait for waking channels become ACTIVE once all are AWAKE, if `check` still holds with them (R209,
R262). -/
def Block.activateWoken (b : Block) : Block :=
  b.chs.waking.foldl (fun b e =>
    match (b.charter e.1).desc with
    | some d =>
      if b.allAwake d then
        let b := { b with chs.waking := b.chs.waking.filter fun (w : Nat × Option ManRef) => w.1 != e.1 }
        let b := b.noteUse
        match b.check e.2.isSome (b.counted.map (·.2) ++ [d]) with
        | some s => b.wokenFails e.1 e.2 s
        | none => b.activate e.1 e.2
      else b
    | none => b) b

/-- A charter is to become ACTIVE: at once, or when its channels are AWAKE (R262). -/
def Block.startCharter (b : Block) (c : Nat) (m : Option ManRef) : Block :=
  match (b.charter c).desc with
  | none => b
  | some d =>
    if noSleep d ∧ ¬ b.allAwake d then
      { b.wakeFor d with chs.waking := b.chs.waking ++ [(c, m)] }
    else b.activate c m

/-- The downgrade order (R214): `true` if `x` is suspended before `y`. -/
def downBefore (x y : CharterDesc × Nat) : Bool :=
  let (d, ox) := x
  let (e, oy) := y
  if isRt d != isRt e then !isRt d
  else if d.rank ≠ e.rank then decide (d.rank.toNat < e.rank.toNat)
  else decide (oy < ox)

/-- Charters sorted into the downgrade order. -/
def Block.downOrder (b : Block) (cs : List (Nat × CharterDesc)) : List (Nat × CharterDesc) :=
  cs.mergeSort fun x y => !downBefore (y.2, (b.charter y.1).opened) (x.2, (b.charter x.1).opened)

/-- The charter uses the resource of a shortfall. -/
def usesShort (s : Short) (d : CharterDesc) : Bool :=
  match s.reason with
  | 0x04 | 0x05 | 0x06 | 0x07 | 0x08 => names d s.place
  | 0x09 | 0x0A | 0x0B => serves d (if s.place = 0 then .west else .east)
  | _ => true

/-- The charter suspended for a shortfall: logged, its reservations given up (R214). -/
def Block.suspend (b : Block) (c reason : Nat) : Block :=
  ((b.modCharter c fun x => { x with st := .suspended, reason := BitVec.ofNat 4 reason }).orReg
    Off.chAlarm 1).event .charterShort c [BitVec.ofNat 16 reason]

/-- The shortfall pass of R214, with at most `n` suspensions. -/
def Block.shortfall (b : Block) : Nat → Block
  | 0 => b
  | n + 1 =>
    match b.check false (b.actives.map (·.2)) with
    | none => b
    | some s =>
      match (b.downOrder b.actives).find? fun e => usesShort s e.2 with
      | some e => Block.shortfall (b.suspend e.1 s.reason) n
      | none => b

/-- The restore pass of R215. -/
def Block.restoreAll (b : Block) : Block :=
  (b.downOrder b.suspendeds).reverse.foldl (fun b e =>
    if b.chs.waking.any (fun w => w.1 == e.1) then b
    else if (b.check false (b.counted.map (·.2) ++ [e.2])).isNone then b.startCharter e.1 none
    else b) b

/-- The ACTIVE and SUSPENDED charters in the order in which they were opened. -/
def Block.reloadOrder (b : Block) : List (Nat × CharterDesc) :=
  (b.actives ++ b.suspendeds).mergeSort fun x y => decide ((b.charter x.1).opened ≤ (b.charter y.1).opened)

/-- The QY domain is reset or goes out of service: its charters are closed, and noted for their reload; one that waited to
be restored waits no longer (R212). -/
def Block.closeForReload (b : Block) : Block :=
  let order := b.reloadOrder
  let b := { b with chs.waking := b.chs.waking.filter fun (w : Nat × Option ManRef) => w.2.isSome
                    chs.reload := b.chs.reload ++ order }
  b.each (order.map (·.1)) Block.freeCharter

/-- One charter reopened under its former index, full; SUSPENDED where `check` no longer passes (R202, R212). -/
def Block.reopen (b : Block) (c : Nat) (d : CharterDesc) : Block :=
  let x : Charter := { b.charter c with desc := some d, opened := b.chs.opens + 1 }
  let b := match b.check false (b.counted.map (·.2) ++ [d]) with
    | none => b.setCharter c { x.full with st := .active }
    | some s => b.setCharter c { x.full with st := .suspended, reason := BitVec.ofNat 4 s.reason }
  ({ b with chs.opens := b.chs.opens + 1 }).event .charterReload c

/-- The reload when the QY domain is in service again: the charters noted, in their former order (R212). -/
def Block.reloadCharters (b : Block) : Block :=
  let order := b.chs.reload
  if order.isEmpty then b
  else
    let b := { b.noteUse with chs.reload := [] }
    order.foldl (fun b e => b.reopen e.1 e.2) b

/-- Every charter closed for good, the counters kept (R21, R216). -/
def Block.closeAllCharters (b : Block) : Block :=
  { b with chs := { ({} : Charters) with tab := b.chs.tab.foldl (fun (t : Tbl Charter) e =>
      tset (fun _ => {}) t e.1 e.2.freed) [], opens := b.chs.opens } }

/-- What a side gives the charters now: a fall, or the first share, starts a shortfall pass where a charter uses it. -/
def Block.noteShare (b : Block) (sd : Side) : Block :=
  let v := if (b.side sd).seg = .run then (b.side sd).blink * b.shareUnits (otherSide sd) else 0
  let old := tget (fun _ => 0) b.chs.lastQ (sideNo sd)
  let b := { b with chs.lastQ := tset (fun _ => 0) b.chs.lastQ (sideNo sd) v }
  let b := if v < old then { b with chs.lastFall := b.ck.tide } else b
  if (b.side sd).seg = .run ∧ (v < old ∨ old = 0) ∧ (b.actives.any fun e => serves e.2 sd) then
    { b with chs.passDue := true }
  else b

/-- The quay share of a side as it now stands: a fall, or a side's return, starts a pass where an ACTIVE charter uses the
side (R213); a fall restarts the hold of R215 whoever uses it. -/
def Block.noteQuay (b : Block) : Block := (b.noteShare .west).noteShare .east

/-- A berth lost to the charters that name it (R213): capability has fallen (R215). -/
def Block.charterBerthLost (b : Block) (n : Nat) : Block :=
  let b := { b with chs.lastFall := b.ck.tide }
  (b.reservers ++ b.suspendeds).foldl (fun b e => if names e.2 n then b.event .charterBerthLost e.1 [BitVec.ofNat 16 n] else b) b

/-- The channel is pinned awake (R205). -/
def Block.pinned (b : Block) (n : Nat) : Bool := b.actives.any fun e => noSleep e.2 && names e.2 n

end Sys2Proof.Machine
end

