-- ==== Sys2Proof/Machine/Stored.lean ====
section
/-! DEFINITION. Stored data as the berths handle it: keys, counts of a read by class, the repeat-correction table, the
uncorrectable list, error records, and what a write of a granule does beside the store (R285 to R295, R301 to R305). -/

namespace Sys2Proof.Machine

open Sys2Proof

/-- The key of a region key slot; slot 0 is the per-arrival key (R302). -/
def Block.keyOf (b : Block) (slot : Nat) : Option (BitVec 512) :=
  if slot = 0 then b.keys.arrival else tget (fun _ => none) b.keys.region slot

/-! ### Entries of a berth's tables that a write frees (R291, R293) -/

/-- Entry `i` of a berth's table. -/
def Berth.entry (x : Berth) (i : Nat) : Option RepEnt := tget (fun _ => none) x.rep i

/-- The table with entry `i` set. -/
def Berth.setEntry (x : Berth) (i : Nat) (e : Option RepEnt) : Berth :=
  { x with rep := tset (fun _ => none) x.rep i e }

/-- The occupied entries, in ascending number. -/
def Berth.entries (x : Berth) : List (Nat × RepEnt) :=
  (List.range 64).filterMap fun i => (x.entry i).map fun e => (i, e)

/-- The entry of a granule freed; its count is answered, and the coil of its last correction (R291, R294). -/
def Block.dropRepeat (b : Block) (n gran : Nat) : Block × Nat × Nat :=
  let x := b.berth n
  match x.entries.find? fun e => e.2.gran == gran with
  | some (i, e) => (b.setBerth n (x.setEntry i none), e.count, e.coil)
  | none => (b, 0, 0xFF)

/-- A write of a granule ends what was remembered of its old copy (R291, R293). -/
def Block.forget (b : Block) (n gran : Nat) : Block :=
  let b := (b.dropRepeat n gran).1
  let x := b.berth n
  if x.ueList.contains gran then b.setBerth n { x with ueList := x.ueList.filter (· != gran) } else b

/-- The 32 bytes of a record (R294). -/
def ErrRec.bytes (r : ErrRec) : List Byte :=
  leBytes r.tide.toNat 8 ++ leBytes r.offset 8
    ++ [r.kind, BitVec.ofNat 8 r.berth, BitVec.ofNat 8 r.coil, BitVec.ofNat 8 (min r.count 255)]
    ++ leBytes r.src.toNat 2 ++ leBytes r.tag.toNat 2 ++ leBytes r.flow.toNat 2 ++ [r.status] ++ leBytes 0 5

/-! ### The pier's own granules (R289, R320, R333, R431) -/

/-- A granule of a receipt slot. -/
def slotGranule (g : Nat) : Bool := decide (reserveBase ≤ g * 64 ∧ g * 64 < reserveBase + ringBytes)

/-- The slot that a granule belongs to. -/
def slotOf (g : Nat) : Nat := (g * 64 - reserveBase) / 0x100000 * 1024 + (g * 64 - reserveBase) % 0x100000 / 0x400

/-- The first granule of a slot. -/
def slotGran (k : Nat) : Nat := (reserveBase + k / 1024 * 0x100000 + k % 1024 * 0x400) / 64

/-- A granule of the error records. -/
def errGranule (g : Nat) : Bool := decide (errBase ≤ g * 64 ∧ g * 64 < errBase + 0x20000)

/-- A granule lies in the part of the reserve that the pier writes itself: a receipt slot, the error records, the local
dump area. -/
def ownGranule (g : Nat) : Bool :=
  slotGranule g || errGranule g || decide (dumpBase ≤ g * 64 ∧ g * 64 < pierBytes)

/-- The error record at a place of the ring. -/
def Block.recAt (b : Block) (i : Nat) : Option ErrRec := tget (fun _ => none) b.prot.ring i

/-- What a granule that the pier writes itself was last written with; zeros where it never was. -/
def Block.reserveGranule (b : Block) (g : Nat) : Granule :=
  if slotGranule g then ofBytes ((slotBytes (b.slot (slotOf g))).drop (g % 16 * 64))
  else if errGranule g then
    let i := (g * 64 - errBase) / 32
    ofBytes ([i, i + 1].flatMap fun i => match b.recAt i with
      | some r => r.bytes
      | none => List.replicate 32 0)
  else ofBytes ((List.range 64).map fun i => tget (fun _ => 0) b.tl.dump (g * 64 - dumpBase + i))

/-- The pier has written the granule since its channel's fill. -/
def Block.ownWritten (b : Block) (g : Nat) : Bool :=
  if slotGranule g then (b.slot (slotOf g)).st != .empty else (tget (fun _ => ({} : OwnNote)) b.prot.own g).written

/-- A granule as the pier wrote it: in the ordinary form under the per-arrival key, or in the zero form (R286, R301, R302). -/
def Block.ownClean (b : Block) (g : Nat) : List Byte :=
  if b.ownWritten g then ordinaryForm (b.keys.arrival.getD 0) g (b.reserveGranule g) else zeroForm

/-- The symbols of a granule whose stored copy is no longer what the pier wrote; none where it is. -/
def Block.ownSyms (b : Block) (g : Nat) : List Byte :=
  if slotGranule g then tget (fun _ => []) (b.slot (slotOf g)).stored (g % 16)
  else (tget (fun _ => ({} : OwnNote)) b.prot.own g).syms

/-- The stored copy of a granule that the pier writes itself. -/
def Block.ownForm (b : Block) (g : Nat) : List Byte :=
  match b.ownSyms g with
  | [] => b.ownClean g
  | s => s

/-- The stored copy becomes other than what the pier wrote: cell damage, a scrub's poison; or, with none, that again. -/
def Block.setOwn (b : Block) (g : Nat) (syms : List Byte) : Block :=
  if slotGranule g then
    let x := b.slot (slotOf g)
    b.setSlot (slotOf g) { x with stored := tset (fun _ => []) x.stored (g % 16) syms }
  else
    { b with prot.own := tmod (fun _ => ({} : OwnNote)) b.prot.own g fun (x : OwnNote) => { x with syms := syms } }

/-- A scrub writes the stored copy of a granule that the pier writes itself (R297). -/
def Block.scrubOwn (b : Block) (g : Nat) (syms : List Byte) : Block :=
  b.setOwn g (if syms = b.ownClean g then [] else syms)

/-- The pier writes a granule of the error records or of a local snapshot: its old copy and what was remembered of it are
gone (R289, R291). -/
def Block.wroteOwn (b : Block) (g : Nat) : Block :=
  { b.forget (chanOf g) g with prot.own := tset (fun _ => ({} : OwnNote)) b.prot.own g { written := true } }

/-- The fill writes a granule: what was noted of its stored copy is gone (R289, R299). -/
def Block.filledOwn (b : Block) (g : Nat) : Block :=
  if slotGranule g then b.setOwn g [] else { b with prot.own := tdel b.prot.own g }

/-- The fill writes every granule of a channel. -/
def Block.filledOwns (b : Block) (n : Nat) : Block :=
  let ks := (b.mf.slots.map (·.1)).filter fun k => chanOf (slotGran k) == n
  let b := b.each ks fun b k => b.setSlot k { b.slot k with stored := [] }
  { b with prot.own := b.prot.own.filter fun e => chanOf e.1 != n }

/-- A berth's tables take note of the receipt slots of its channel that the pier has written since: their entries go (R291,
R293). -/
def Block.freshen (b : Block) (n : Nat) : Block :=
  let ks := (b.mf.slots.filter fun e => e.2.touched != 0 && chanOf (slotGran e.1) == n).map (·.1)
  b.each ks fun b k =>
    let x := b.slot k
    let gs := ((List.range 16).filter fun i => x.touched.getLsbD i).map (slotGran k + ·)
    (b.each gs fun b g => b.forget n g).setSlot k { x with touched := 0 }

/-- Granules that the pier writes itself whose stored copy may not be a clean zero form. -/
def Block.ownListed (b : Block) : List Nat :=
  (b.mf.slots.flatMap fun e => (List.range 16).map (slotGran e.1 + ·)) ++ b.prot.own.map (·.1)

/-! ### Error records (R294, R295) -/

/-- Records held now. -/
def Prot.held (p : Prot) : Nat := (p.wr - p.rd).toNat

/-- An error record written, or dropped where the ring is full (R295). -/
def Block.errRecord (b : Block) (r : ErrRec) : Block :=
  if b.prot.held ≥ 4096 then
    let n := b.regField Off.prErrLost 0 16
    (b.setReg Off.prErrLost (BitVec.ofNat 32 (min (n + 1) 0xFFFF))).orReg Off.prAlarm 4
  else
    let i := b.prot.wr.toNat % 4096
    { b.wroteOwn ((errBase + 32 * i) / 64) with
      prot.ring := tset (fun _ => none) b.prot.ring i (some r)
      prot.wr := b.prot.wr + 1 }

/-- The record of a request's granule. -/
def reqRecord (now : Tide) (f : Flit) (kind gran berth coil count status : Nat) : ErrRec :=
  { tide := now, offset := gran * 64, kind := BitVec.ofNat 8 kind, berth := berth, coil := coil, count := count
    src := f.src, tag := f.tag, flow := f.flow, status := BitVec.ofNat 8 status }

/-! ### The repeat-correction table (R290, R291) -/

/-- The window of R290 in ticks. -/
def Block.ceWindow (b : Block) : Nat := max 1 (b.regField Off.prCeWindow 0 16) * msTicks

/-- The first entry of a list that no other comes before. -/
def leastBy (before : RepEnt → RepEnt → Bool) : List (Nat × RepEnt) → Option Nat
  | [] => none
  | e :: es => some (es.foldl (fun (m : Nat × RepEnt) x => if before x.2 m.2 then x else m) e).1

/-- The entry that a new granule takes: a free one, an elapsed one, or the least of the rest (R290). -/
def Block.repSlot (b : Block) (x : Berth) : Option Nat :=
  let occ := x.entries
  match (List.range 64).find? fun i => (x.entry i).isNone with
  | some i => some i
  | none =>
    let open_ := occ.filter fun e => !e.2.reported
    let elapsed := open_.filter fun e => decide (b.ceWindow ≤ b.since e.2.first)
    let older (y z : RepEnt) : Bool := decide (y.first.toNat < z.first.toNat)
    match leastBy older elapsed with
    | some i => some i
    | none => leastBy (fun y z => decide (y.count < z.count) || (y.count == z.count && older y z)) open_

/-- A correction on a read made for a request (R290). -/
def Block.noteCorrection (b : Block) (n gran coil : Nat) (f : Flit) : Block :=
  let b := b.freshen n
  let x := b.berth n
  match x.entries.find? fun e => e.2.gran == gran with
  | none =>
    match b.repSlot x with
    | some i => b.setBerth n (x.setEntry i (some ⟨gran, 1, b.ck.tide, false, coil⟩))
    | none => (b.bump Off.prCeUntrackedLo).orReg Off.prAlarm 16
  | some (i, e) =>
    if e.reported then b.setBerth n (x.setEntry i (some { e with count := min (e.count + 1) 255, coil := coil }))
    else if b.ceWindow ≤ b.since e.first then
      b.setBerth n (x.setEntry i (some { e with count := 1, first := b.ck.tide, coil := coil }))
    else if e.count + 1 ≥ 16 then
      let b := b.setBerth n (x.setEntry i (some { e with count := e.count + 1, reported := true, coil := coil }))
      let b := b.errRecord (reqRecord b.ck.tide f 0x01 gran n coil (e.count + 1) 0)
      ((b.bump Off.prCeRepeatLo).orReg Off.prAlarm 1).event .ceRepeat n (half32 gran)
    else b.setBerth n (x.setEntry i (some { e with count := e.count + 1, coil := coil }))

/-- A corrected symbol is attributed to its logical coil (R274, R283). -/
def Block.noteCoil (b : Block) (n coil : Nat) : Block :=
  b.modCol n fun x => { x with ceNow := tset (fun _ => 0) x.ceNow coil (min (tget (fun _ => 0) x.ceNow coil + 1) 0xFFFF) }

/-! ### What a read of one granule counts (R287, R293) -/

/-- The kind of record for an uncorrectable granule, and its byte 26 (R293, R294). -/
def ueKind (op : Op) : Nat × Nat :=
  match op with
  | .read | .gather => (0x02, St.poisoned)
  | .copyRemote => (0x02, St.ok)
  | _ => (0x03, St.poisoned)

/-- An uncorrectable granule read by the berth: counted, alarmed, its repeat entry freed (R287, R291). -/
def Block.noteUe (b : Block) (n gran : Nat) : Block × Nat × Nat :=
  ((((b.freshen n).bump Off.prUeLo).orReg Off.prAlarm 2).tally n 0x01F [0] 1).dropRepeat n gran

/-- An uncorrectable granule read for a request (R291, R293). -/
def Block.noteBad (b : Block) (n gran : Nat) (op : Op) (f : Flit) : Block :=
  let (b, count, coil) := b.noteUe n gran
  let x := b.berth n
  if x.ueList.contains gran then b
  else
    let b := b.setBerth n { x with ueList := (gran :: x.ueList).take 16 }
    let (kind, st) := ueKind op
    b.errRecord (reqRecord b.ck.tide f kind gran n coil count st)

/-- The counts of a granule read for a request (R287). -/
def Block.noteRead (b : Block) (n gran : Nat) (op : Op) (f : Flit) (c : GClass) : Block :=
  let b := match c.fix with
    | some (i, _) => (b.noteCoil n i).tally n 0x01E [0] 1
    | none => b
  match c with
  | .ordinary (some (i, _)) => (b.bump Off.prCeLo).noteCorrection n gran i f
  | .ordinary none => b
  | .poison fix => if fix.isSome then (b.bump Off.prPoisonRdLo).bump Off.prCeLo else b.bump Off.prPoisonRdLo
  | .zero (some (i, _)) => ((b.bump Off.prZeroRdLo).bump Off.prCeLo).noteCorrection n gran i f
  | .zero none => b.bump Off.prZeroRdLo
  | .bad => b.noteBad n gran op f

/-- The counts of a granule that a scrub reads: those of R287 that are not kept to reads made for requests (R290, R307);
with the count and coil of the repeat entry that it freed. -/
def Block.noteScrub (b : Block) (n gran : Nat) (c : GClass) : Block × Nat × Nat :=
  let b := match c.fix with
    | some (i, _) => (b.noteCoil n i).tally n 0x01E [0] 1
    | none => b
  match c with
  | .ordinary _ => (b, 0, 0xFF)
  | .poison _ => (b.bump Off.prPoisonRdLo, 0, 0xFF)
  | .zero _ => (b.bump Off.prZeroRdLo, 0, 0xFF)
  | .bad => b.noteUe n gran

/-! ### Writes of whole granules -/

/-- What a staged granule stores: the poison form, or the ordinary form under its key (R286, R292, R302). -/
def Staged.form (w : Staged) : List Byte :=
  if w.poison then poisonForm else ordinaryForm (w.key.getD 0) w.gran w.data

/-- What the block notes of a granule stored (R291, R307). -/
def Block.noteStore (b : Block) (n gran : Nat) (poison : Bool) : Block :=
  let b := b.forget n gran
  if poison then b.bump Off.prPoisonWrLo else b

/-! ### The region check (R18, R183, R304, R454) -/

/-- The outcome of the region check: the keys of the spans in order, or a refusal, or an empty key slot for the
span that starts in a granule. -/
inductive RegionOut where
  | keys (ks : List (BitVec 512))
  | denied
  | emptySlot (gran : Nat)
  deriving DecidableEq, Repr

/-- The check of one span: the entry that decides it, with its key. -/
def Block.checkSpan (b : Block) (src : Nat) (sp : Span) (p : Perm) : RegionOut :=
  if sp.last ≥ pierBytes then .denied
  else if sp.last ≥ reserveBase && (p.w || p.op || !b.inOpenReserve sp) then .denied
  else match b.regionFor sp src with
    | none => .denied
    | some e =>
      if e.base ≤ sp.first && sp.last ≤ e.last && (!p.r || e.r) && (!p.w || e.w) && (!p.op || e.op) then
        match b.keyOf e.slot with
        | some k => .keys [k]
        | none => .emptySlot (sp.first / 64)
      else .denied

/-- The check of all spans. -/
def Block.checkSpans (b : Block) (src : Nat) : List (Span × Perm) → RegionOut
  | [] => .keys []
  | (sp, p) :: rest =>
    match b.checkSpan src sp p with
    | .keys ks =>
      match Block.checkSpans b src rest with
      | .keys more => .keys (ks ++ more)
      | x => x
    | x => x

end Sys2Proof.Machine
end

