-- ==== Sys2Proof/Machine/Training.lean ====
section
/-! DEFINITION. The meanings of the lane and segment rows: hunt, lock, train, agree, degrade (chapters 03 and 04).
A row whose occasion the state does not show (a HELLO on a lane that is OFF) leaves the state as it is (log 2). -/

namespace Sys2Proof.Machine

open Sys2Proof

/-! ### Manifests that wait for a side -/

/-- LANE_RETRAIN's result (R328): lanes in RUN, grade, width. -/
def Block.retrainResult (b : Block) (sd : Side) : List Byte :=
  let run := (sideLanes sd).filter fun l => (b.lane l).inRun
  leBytes (maskOf run).toNat 2 ++ [BitVec.ofNat 8 (b.side sd).grade.val, BitVec.ofNat 8 run.length]

/-- SSC_SET's result (R329): SSC_ACTIVE and PENDING. -/
def Block.sscResult (b : Block) (sd : Side) : List Byte :=
  [(b.side sd).sscActive.zeroExtend 8, BitVec.ofNat 8 (b2n (b.side sd).sscPending)]

/-- The manifest that waits for the side's retraining completes, once no lane of the side trains (R138, R324). -/
def Block.wakeWaiter (b : Block) (sd : Side) : Block :=
  match (b.side sd).waiter with
  | none => b
  | some (m, op) =>
    let busy := (sideLanes sd).any fun l =>
      match (b.lane l).st with
      | .hunt | .lock | .train => true
      | _ => false
    let s := b.side sd
    if (s.seg == .run && !busy && s.reform.isNone) || s.seg == .down then
      let b := b.modSide sd fun x => { x with waiter := none }
      if op = Mop.sscSet then b.finish m op St.ok (b.sscResult sd)
      else b.finish m op St.ok (b.retrainResult sd)
    else b

/-- LANE_PRBS's result (R328): bits compared, bit errors, and the flags. -/
def Block.prbsResult (b : Block) (l : Nat) (rejoined : Bool) : List Byte :=
  leBytes (b.count (lnOff Off.lnPrbsBitsLo l)) 8 ++ leBytes (b.count (lnOff Off.lnPrbsErrLo l)) 8
    ++ [BitVec.ofNat 8 (b2n (b.regBit (lnOff Off.lnPrbsStatus l) 1) + 2 * b2n (b.lane l).prbsSat + 4 * b2n rejoined)]

/-- A lane's training outcome, with what a side that leaves RUN loses and what waits for it. -/
def Block.outcome (b : Block) (l : Nat) : Block :=
  let sd := laneSide l
  let was := (b.side sd).seg
  let owner := (b.lane l).prbsOwner
  let b := b.laneOutcome l
  let b := match owner, (b.lane l).st with
    | some m, .failed => b.finish m Mop.lanePrbs St.ok (b.prbsResult l false)
    | _, _ => b
  let b := if was = .run ∧ (b.side sd).seg ≠ .run then b.purgeSide sd else b
  (b.wakeWaiter sd).checkOpen

/-- A lane dropped from its segment, with what follows when it was the last. -/
def Block.dropLaneFull (b : Block) (l : Nat) : Block :=
  let sd := laneSide l
  let was := (b.side sd).seg
  let b := b.dropLane l
  if was = .run ∧ (b.side sd).seg ≠ .run then b.purgeSide sd else b

/-! ### Hunt (R102, R105, R106) -/

/-- A lane that may work no longer, its ENABLE cleared or its quad going OFF: OFF at once, and out of its segment, with what
follows for the rest of the side (R102, R119, R135, R136, R365, R372). -/
def Block.disableLane (b : Block) (l : Nat) : Block :=
  if (b.lane l).st = .off then b
  else
    let sd := laneSide l
    let b := if (b.lane l).inRun then b.dropLaneFull l else b
    let b := (b.modLane l Lane.offUnlessFailed).notePass l false
    let b := match (b.side sd).seg with
      | .training => if (b.side sd).warmAll then b.checkWarm sd else b.checkSide sd
      | .run => b.resizeSide sd
      | _ => b
    (b.wakeWaiter sd).checkOpen

/-- The ticks of a lane's present burst: 16 µs of talk or answer, L µs of listening (R105, R106). -/
def Lane.burstTicks (x : Lane) : Nat := if x.talking || x.answering then 16 * usTicks else x.listenUs * usTicks

/-- HUNT_BURST: a burst has ended, and the lane switches between talk and listen; a listen burst draws a new length (R105).
In LOCK the answerer's burst of 16 µs ends, and it is silent for the talker's window (R106, R107). -/
def Block.huntBurst (b : Block) (l : Nat) : Block :=
  let x := b.lane l
  if b.since x.burstAt < x.burstTicks then b
  else if x.st = .lock ∧ x.answering then b.modLane l fun x => { x with answering := false, txIdle := true, msg := .idle }
  else if x.st != .hunt || x.answerer.isSome then b
  else if x.talking then b.modLane l fun x => { x.newListen with talking := false, txIdle := true, burstAt := b.ck.tide }
  else b.modLane l fun x =>
    { x with talking := true, txIdle := false, blockLock := false, polKnown := false, hellos := 0, burstAt := b.ck.tide }

/-- The meaning of HUNT_BURST. -/
def execHuntBurst (ln : LaneId) (s : State) : Host.Outcome State Fault Refusal := s.upd (·.huntBurst ln)

/-- HUNT_TIMEOUT: 100 ms without contact returns the lane to OFF (R102). -/
def Block.huntTimeout (b : Block) (l : Nat) : Block :=
  if (b.lane l).st = .hunt ∧ 100 * msTicks ≤ b.since (b.lane l).since then
    (b.modLane l fun x => { x.toOff with retraining := x.retraining, attempts := x.attempts }).outcome l
  else b

/-- The meaning of HUNT_TIMEOUT. -/
def execHuntTimeout (ln : LaneId) (s : State) : Host.Outcome State Fault Refusal := s.upd (·.huntTimeout ln)

/-- BLOCK_LOCK: the blocks that a listening lane has received.  64 valid headers lock it, at another grade than its
segment trains at it keeps hunting; K-MARK in two control blocks gives the polarity, without which it reads no message
(R93, R94, R104, R106). -/
def Block.takeLock (b : Block) (l : Nat) (g : Fin 4) (blocks : List LaneBlock) : Block :=
  let x := b.lane l
  if x.st = .hunt ∧ ¬ x.talking ∧ g = (b.side (laneSide l)).grade ∧ (x.blockLock ∨ locksOn g blocks) then
    let found := polarityOf g blocks
    let known := x.blockLock && x.polKnown
    b.modLane l fun x =>
      { x with
        hellos := if x.blockLock then x.hellos else 0, blockLock := true, polKnown := known || found.isSome
        polInv := if known then x.polInv else found.getD x.polInv
        lockAt := if x.blockLock then x.lockAt else b.ck.tide }
  else b

/-- The meaning of BLOCK_LOCK. -/
def execBlockLock (ln : LaneId) (grade : Fin 4) (blocks : List LaneBlock) (s : State) : Host.Outcome State Fault Refusal :=
  s.upd (·.takeLock ln grade blocks)

/-- A lane has lost block lock: in LOCK it hunts again, in RUN it is dropped by REFORM (R93, R102, R134). -/
def Block.loseLock (b : Block) (l : Nat) : Block :=
  let x := b.lane l
  match x.st with
  | .hunt => b.modLane l fun x => { x with blockLock := false, polKnown := false }
  | .train => (b.modLane l fun x => { x with blockLock := false, polKnown := false }).moveTaken (laneSide l)
  | .lock => b.rehunt l
  | .run | .degraded => (b.modLane l fun x => { x with blockLock := false }).dropLaneFull l
  | _ => b

/-- The meaning of BLOCK_LOCK_LOSS: the lane's latest headers, each with whether its block lay in an uncorrectable
codeword (R93). -/
def execBlockLockLoss (ln : LaneId) (headers : List (BitVec 2 × Bool)) (s : State) : Host.Outcome State Fault Refusal :=
  s.upd fun b => if losesLock headers then b.loseLock ln else b

/-- 1,024 blocks of 258 bits have passed since a moment, at the line rate of a grade: 26.5625 Gbit/s at G1, and twice that
of the grade below at each other (R56, R87, R94). -/
def Block.blocksPassed (b : Block) (g : Fin 4) (t : Tide) : Bool :=
  decide (1024 * 258 * 256 ≤ b.since t * 4250 * 2 ^ g.val)

/-- The meaning of POLARITY_TIMEOUT: block lock without a polarity for 1,024 blocks is dropped and the hunt goes on (R94). -/
def execPolarityTimeout (ln : LaneId) (s : State) : Host.Outcome State Fault Refusal :=
  s.upd fun b =>
    let x := b.lane ln
    if x.st = .hunt ∧ x.blockLock ∧ ¬ x.polKnown ∧ b.blocksPassed x.grade x.lockAt then b.modLane ln fun x => { x with blockLock := false, hellos := 0 } else b

/-- HUNT_ANSWER_TIMER: 1 µs after loss of signal the answerer sends HELLO with the role bit, for 16 µs, and enters LOCK (R106).  R106 has both ends
enter LOCK once the talker locks to that answer, which the answerer cannot see; R102's 100 µs for the talker's window
burst run in LOCK, so it enters as its answer begins (DEDUCED; log 79). -/
def Block.sendAnswer (b : Block) (l : Nat) : Block :=
  let x := b.lane l
  if x.st = .hunt ∧ x.answerer = some true ∧ x.los ∧ usTicks ≤ b.since x.losAt then
    b.modLane l fun x =>
      { x with st := .lock, since := b.ck.tide, burstAt := b.ck.tide, answering := true, txIdle := false, msg := .hello true
               txSeq := x.txSeq + 1 }
  else b

/-- The meaning of HUNT_ANSWER_TIMER. -/
def execHuntAnswerTimer (ln : LaneId) (s : State) : Host.Outcome State Fault Refusal := s.upd (·.sendAnswer ln)

/-- The lane holds taps from an earlier convergence at its grade (R59, R107). -/
def Lane.hasTaps (x : Lane) : Bool := x.stored.getLsbD x.grade.val

/-- The length that the lane's own WINDOW asks for, in 1,024 UI: the touch-up's 8 where the lane holds taps and, in the
answerer, the talker asked for a touch-up too; the cold window's 64 otherwise (R59, R107; how an end learns what the
other holds is DEDUCED, log 80). -/
def Lane.windowAsk (x : Lane) (talker : Bool) : BitVec 16 :=
  if x.hasTaps && (talker || x.peerUnits == 8) then 8 else 64

/-- HELLO (R106): without the role bit, the second good one makes the lane answerer; with it, the lane becomes
talker, which waits for the answerer's silence before its window (R107), or, itself an answerer, hunts anew. -/
def Block.takeHello (b : Block) (l : Nat) (roleA : Bool) (g : Fin 4) (h : Hello) : Block :=
  let x := b.lane l
  if roleA ∧ x.answerer = some true ∧ (x.st = .hunt ∨ x.st = .lock) then b.rehunt l
  else if x.st != .hunt || x.talking || !x.blockLock || !x.polKnown || g != (b.side (laneSide l)).grade || x.answerer.isSome then b
  else if roleA then
    b.modLane l fun x =>
      { x with st := .lock, since := b.ck.tide, answerer := some false, peer := some h, msg := .idle, txIdle := true }
  else if x.hellos + 1 < 2 then b.modLane l fun x => { x with hellos := x.hellos + 1, peer := some h }
  else b.modLane l fun x => { x with hellos := 2, answerer := some true, peer := some h, talking := false, txIdle := true }

/-- The meaning of HELLO; a lane acts on each HELLO of a new content or a repeat of it as R106 counts them. -/
def execHello (ln : LaneId) (seq : BitVec 8) (roleA : Bool) (grade : Fin 4) (msg : Hello) (s : State) :
    Host.Outcome State Fault Refusal :=
  s.upd fun b => (b.takeHello ln roleA grade msg).modLane ln fun x => if x.st = .off then x else { x with rxSeq := some seq }

/-! ### Lock windows (R59, R61, R107) -/

/-- The canceller converged in a window of the lane's own (R59, R86); EC_FREEZE holds its taps. -/
def Block.converge (b : Block) (l : Nat) (erle : BitVec 8) : Block :=
  if b.regBit (lnOff Off.lnCtrl l) 3 then b
  else b.modLane l fun x =>
    { x with ecConv := true, convCount := x.convCount + 1, erle := erle
             stored := x.stored ||| BitVec.ofNat 4 (2 ^ x.grade.val) }

/-- The shortest window in which the lane's canceller converges, in UI: cold without stored taps, a touch-up with them (R59). -/
def Lane.windowNeed (x : Lane) : Nat := if x.hasTaps then 8192 else 65536

/-- The pier's own window in LOCK is over: signal for 1,024 UI discards it, one too short leaves the taps as they were
(R59, R61). -/
def Block.ownWindow (b : Block) (l : Nat) (ui signalUi : Nat) (erle : BitVec 8) : Block :=
  if 1024 ≤ signalUi then b.winDiscard l
  else if ui < (b.lane l).windowNeed then b
  else b.converge l erle

/-- The lane's own window in LOCK begins: its blocks carry WINDOW for the length that it asks for (R107). -/
def Lane.openWindow (x : Lane) (now : Tide) : Lane :=
  { x with winAt := some now, answering := false, txIdle := false, txSeq := x.txSeq + 1
           msg := .window (x.windowAsk (x.answerer == some false)) }

/-- The window that ends is the one whose turn it is (R107): the talker's is first, the answerer's second. -/
def Lane.windowDue (x : Lane) (own : Bool) : Bool :=
  if x.answerer == some false then (if x.winOwn then !own && !x.winPeer else own && x.winAt.isSome)
  else (if x.winPeer then own && !x.winOwn else !own)

/-- A window of LOCK is over (R107): the partner's 1 µs after its signal was lost; the lane's own when it has lasted `ui`
UI, the answerer's 1 µs later. -/
def Block.windowOver (b : Block) (l : Nat) (own : Bool) (ui : Nat) : Bool :=
  let x := b.lane l
  if own then
    let gap := if x.answerer == some false then 0 else usTicks
    match x.winAt with
    | some t => decide (uiTicks x.grade ui + gap ≤ b.since t)
    | none => false
  else x.los && decide (usTicks ≤ b.since x.losAt)

/-- LOCK_WINDOW_END (R107): the turn passes to the other end; after both windows, TRAIN. -/
def Block.lockWindow (b : Block) (l : Nat) (own : Bool) (ui signalUi : Nat) (erle : BitVec 8) : Block :=
  let x := b.lane l
  if x.st != .lock || !x.windowDue own || !b.windowOver l own ui then b
  else
    let b := if own then b.ownWindow l ui signalUi erle else b
    let b := b.modLane l fun x =>
      if own then { x with winOwn := true, txIdle := true, msg := .idle }
      else if x.winOwn then { x with winPeer := true, answering := false }
      else { x with winPeer := true }.openWindow b.ck.tide
    if (b.lane l).winOwn && (b.lane l).winPeer then b.enterTrain l else b

/-- The meaning of LOCK_WINDOW_END: a window of `ui` UI ended, in which a received signal stood for `signalUi` UI. -/
def execLockWindowEnd (ln : LaneId) (own : Bool) (ui signalUi : Nat) (erle : BitVec 8) (s : State) :
    Host.Outcome State Fault Refusal :=
  s.upd (·.lockWindow ln own ui signalUi erle)

/-- The meaning of LOCK_TIMEOUT: without the partner's window for 100 µs a lane in LOCK hunts again (R102). -/
def execLockTimeout (ln : LaneId) (s : State) : Host.Outcome State Fault Refusal :=
  s.upd fun b =>
    if (b.lane ln).st = .lock ∧ ¬ (b.lane ln).winPeer ∧ 100 * usTicks ≤ b.since (b.lane ln).since then b.rehunt ln else b

/-! ### Windows of a running link (R129 to R132) -/

/-- The segment acts once on each sequence number of a message (R114). -/
def newSeq (last : Option (BitVec 8)) (seq : BitVec 8) : Bool := last != some seq

/-- A unit of a CAL_RUN has run; the result once every unit has (R328, R423). -/
def Block.calRunNext (b : Block) (cls u : Nat) (pass : Bool) : Block :=
  match b.sv.cal.find? fun r => r.cls == cls && r.todo.getLsbD u with
  | none => b
  | some r =>
    let r' : CalRun :=
      { r with todo := r.todo &&& ~~~ chBit u, passed := if pass then r.passed ||| chBit u else r.passed
               failed := if pass then r.failed else r.failed ||| chBit u }
    let others := b.sv.cal.filter fun x => x.m != r.m
    if r'.todo = 0 then
      ({ b with sv.cal := others }).finish r.m Mop.calRun St.ok (leBytes r'.passed.toNat 8 ++ leBytes r'.failed.toNat 8)
    else { b with sv.cal := others ++ [r'] }

/-- A lane's calibration run is complete, whatever started it: its count and time, and its unit of a CAL_RUN (R420, R423). -/
def Block.laneRun (b : Block) (l : Nat) : Block := (b.laneCalibrated l).calRunNext 0 l true

/-- The pier's own window on a running segment opens; where a calibration of one of its lanes is due, every working lane is
calibrated in its quiet slots (R129, R421). -/
def Block.openCalWindow (b : Block) (sd : Side) : Block :=
  let run := lanesOf sd (b.side sd).mask
  let cal := run.any fun l => (b.lane l).calPending
  let b := if cal then b.each run fun b l => b.modLane l fun x => { x with calPending := true } else b
  b.modSide sd fun x => { x with win := some { own := true, since := b.ck.tide, cal := cal }, winAsked := false }

/-- WINDOW: an announced length on a lane in LOCK; on a running segment a request is granted, at once or when the
window running in that direction ends, and a grant opens the pier's own window (R107, R129). -/
def Block.takeWindow (b : Block) (sd : Side) (lane : Option (Fin 16)) (seq what : BitVec 8) (units : BitVec 16) : Block :=
  match lane with
  | some i =>
    if what = 0 ∧ (b.lane (laneOf sd i.val)).st = .lock then b.modLane (laneOf sd i.val) fun x => { x with peerUnits := units } else b
  | none =>
    let s := b.side sd
    if s.seg != .run || !newSeq s.winSeq seq then b
    else
      let b := b.modSide sd fun x => { x with winSeq := some seq }
      if what = 1 then
        (if s.mute = 0 then b.grantWindow sd else b.modSide sd fun x => { x with grantOwed := true })
      else if what = 2 ∧ s.winAsked then
        b.openCalWindow sd
      else b

/-- The meaning of WINDOW; its usable length is fixed by the grade in RUN (R129). -/
def execWindow (sd : Side) (lane : Option (Fin 16)) (seq : BitVec 8) (what : BitVec 8) (units : BitVec 16) (s : State) :
    Host.Outcome State Fault Refusal :=
  s.upd (·.takeWindow sd lane seq what units)

/-- The partner's window toward a side is over, all its slots sent or abandoned: a request that waits is granted (R129). -/
def Block.muteDone (b : Block) (sd : Side) : Block :=
  let b := b.modSide sd fun x => { x with mute := 0, muteAt := none }
  if (b.side sd).grantOwed then b.grantWindow sd else b

/-- A window that began 2 ms ago or earlier (R132). -/
def Block.oldWindow (b : Block) (t : Tide) : Bool := decide (2 * msTicks ≤ b.since t)

/-- WINDOW_ABANDON (R132): the windows of a side, the pier's own and the partner's, that began 2 ms ago or earlier end;
a request as old as that counts as unanswered.  The canceller keeps its taps; a calibration still due wants another. -/
def Block.abandon (b : Block) (sd : Side) : Block :=
  let s := b.side sd
  let b := if s.win.any fun w => b.oldWindow w.since then b.endWindow sd else b
  let b := if s.winAsked ∧ b.olderThan (2 * msTicks) s.winAskedAt then b.modSide sd fun x => { x with winAsked := false } else b
  let b := if s.muteAt.any b.oldWindow ∧ 0 < s.mute then b.muteDone sd else b
  if (b.side sd).win.isNone ∧ (lanesOf sd (b.side sd).mask).any fun l => (b.lane l).calPending then b.askWindow sd else b.tryAsk sd

/-- The meaning of WINDOW_ABANDON. -/
def execWindowAbandon (sd : Side) (s : State) : Host.Outcome State Fault Refusal := s.upd (·.abandon sd)

/-- The ERLE below which EC_DRIFT is raised, in 0.5 dB: R58's figure less 5 dB (R60). -/
def erleLimit (g : Fin 4) : Nat :=
  match g with
  | 3 => 60
  | 2 => 66
  | _ => 70

/-- The meaning of EC_DRIFT: the ERLE that stood for 1 ms.  Below the limit, outside quiet windows, on a lane whose
canceller adapts on what the partner sends: the alarm, and a window wanted (R60, R77, R86, R129). -/
def execEcDrift (ln : LaneId) (erle : BitVec 8) (s : State) : Host.Outcome State Fault Refusal :=
  s.upd fun b =>
    let x := b.lane ln
    if x.inRun ∨ x.st = .train then
      let b := b.modLane ln fun x => { x with erle := erle }
      if erle.toNat < erleLimit x.grade then (b.orReg (lnOff Off.lnAlarm ln) 4).askWindow (laneSide ln) else b
    else b

/-- One quiet slot of the pier's own window: signal for 64 UI discards it; the last slot ends the window, and the lanes
that hold taps converge and, in a window that calibrates, are calibrated (R59, R129, R131, R61, R421): with 1 to 7 discarded slots too, where fewer than 8,192 UI were usable
(DESIGN CHOICE: R131 discards the window from 8 on, R59 gives 8,192 UI; log 105).  The slot counts, like the ones that the pier sends (R427: DEDUCED; log 99). -/
def Block.quietSlot (b : Block) (sd : Side) (obs : List SlotObs) : Block :=
  match (b.side sd).win with
  | none => b
  | some w =>
    let b := b.tally (sideBlk sd) 0x046 (b.laneFilters sd) 1
    let w := { w with slots := w.slots + 1, discarded := w.discarded + b2n (obs.any fun o => decide (64 ≤ o.signalUi)) }
    if w.slots < windowSlots (b.side sd).grade then b.modSide sd fun x => { x with win := some w }
    else
      let order := b.rxOrder sd
      let b := (b.modSide sd fun x => { x with win := some w }).endWindow sd
      let b := if w.discarded ≥ 8 then b
        else b.each order fun b l =>
          let b := if (b.lane l).hasTaps then b.converge l ((obs[order.idxOf l]?.map (·.erle)).getD (b.lane l).erle) else b
          let b := b.modLane l fun x => { x with winSince := some b.ck.tide }
          if w.cal ∧ (b.lane l).calPending then b.laneRun l else b
      if order.any fun l => (b.lane l).calPending then b.askWindow sd else b.tryAsk sd

/-! ### Tap requests (R115 to R118) -/

/-- A tap request's taps: which tap, which action (R113, R115). -/
def tapAsked (t : Taps) (tap act : Nat) : Option Taps :=
  let step : Option Int := match act with
    | 0 => some 0
    | 1 => some 1
    | 2 => some (-1)
    | _ => none
  match tap with
  | 0 => step.map fun d => { t with pre2 := t.pre2 + d }
  | 1 => step.map fun d => { t with pre1 := t.pre1 + d }
  | 2 => step.map fun d => { t with post1 := t.post1 + d }
  | 3 => step.map fun d => { t with post2 := t.post2 + d }
  | 4 => preset act
  | _ => none

/-- The answer to a tap request, sent as TAP_RSP. -/
def Block.answerTap (b : Block) (l : Nat) (seq st : BitVec 8) : Block :=
  (b.modLane l fun x =>
    let a : TapAns := { seq := seq, status := st, own := x.txSeq + 1 }
    { x with tapAns := some a, tapAt := some b.ck.tide, msg := .tapRsp a, txSeq := x.txSeq + 1 }).draw

/-- A request with a new sequence number: its taps where they are legal, and its answer (R115, R116). -/
def Block.newTapReq (b : Block) (l : Nat) (seq tap act : BitVec 8) : Block :=
  match tapAsked (b.lane l).taps tap.toNat act.toNat with
  | none => b.answerTap l seq 2
  | some t => if t.legal then (b.modLane l fun y => y.withTaps t).answerTap l seq 0 else b.answerTap l seq 1

/-- TAP_REQ (R116): applied, at its limit, bad, or a repeat that is answered again without being applied.  A new one that
comes before the last has been answered is discarded; how soon the pier answers, within its 1 µs, is free (log 73). -/
def Block.takeTapReq (b : Block) (l : Nat) (seq tap act : BitVec 8) : Block :=
  let x := b.lane l
  if x.st != .train then b
  else
    match x.tapAns with
    | some a =>
      if a.seq = seq then b.modLane l fun x => { x with msg := .tapRsp a }
      else if b.olderThan (Config.tapDelay b.fresh).val x.tapAt then b.newTapReq l seq tap act
      else b
    | none => b.newTapReq l seq tap act

/-- The meaning of TAP_REQ. -/
def execTapReq (ln : LaneId) (seq : BitVec 8) (tap act : BitVec 8) (s : State) : Host.Outcome State Fault Refusal :=
  s.upd fun b => (b.takeTapReq ln seq tap act).modLane ln fun x => if x.st = .train then { x with rxSeq := some seq } else x

/-- The order in which the search tries the taps: POST1, PRE1, POST2, PRE2 (R118). -/
def searchTap (i : Nat) : BitVec 8 :=
  match i with
  | 0 => 2
  | 1 => 1
  | 2 => 3
  | _ => 0

/-- A request goes out (R117, R118). -/
def Lane.request (x : Lane) (now : Tide) (tap act : BitVec 8) : Lane :=
  let t : TapOut := { seq := x.txSeq + 1, tap := tap, act := act, repeats := 0 }
  { x with
    txSeq := x.txSeq + 1, msg := .tapReq t, tapOut := some t, reqAt := now
    search := x.search.map fun c => { c with requests := c.requests + 1 } }

/-- The search's present step, asked for. -/
def Lane.askStep (x : Lane) (now : Tide) (c : Search) : Lane :=
  ({ x with search := some c }).request now (searchTap c.tapIx) (if c.up then 1 else 2)

/-- TAP_DONE goes out: PASS where the best figure of merit reaches the grade's threshold (R118). -/
def Lane.sendDone (x : Lane) (pass : Bool) (best : Nat) : Lane :=
  { x with
    msg := .tapDone pass (min (best / 25) 255), txSeq := x.txSeq + 1, tapOut := none, search := none
    doneOwn := some pass, fom := BitVec.ofNat 8 (min (best / 25) 255) }

/-- The search goes to its next tap and step; after a whole pass it repeats or ends (R118). -/
def Block.searchNext (b : Block) (l : Nat) (c : Search) : Block :=
  let c := { c with undo := false }
  if c.up then b.modLane l fun x => x.askStep b.ck.tide { c with up := false }
  else if c.tapIx < 3 then b.modLane l fun x => x.askStep b.ck.tide { c with tapIx := c.tapIx + 1, up := true }
  else if c.improved ∧ c.requests ≤ 512 ∧ b.since c.since ≤ 5 * msTicks then
    b.modLane l fun x => x.askStep b.ck.tide { c with tapIx := 0, up := true, improved := false }
  else
    (b.modLane l fun x => x.sendDone (decide (fomLimit x.grade ≤ c.best)) c.best).outcome l

/-- TAP_RSP (R117, R118): the answer to the outstanding request. An applied step is measured; an undone or refused
one lets the search go on. -/
def Block.takeTapRsp (b : Block) (l : Nat) (seq status : BitVec 8) : Block :=
  let x := b.lane l
  match x.st, x.tapOut, x.search with
  | .train, some t, some c =>
    if t.seq != seq then b
    else
      let b := b.modLane l fun x => { x with tapOut := none }
      if c.undo then b.searchNext l c
      else if c.started ∧ status ≠ 0 then b.searchNext l c
      else b
  | _, _, _ => b

/-- The meaning of TAP_RSP. -/
def execTapRsp (ln : LaneId) (seq : BitVec 8) (status : BitVec 8) (s : State) : Host.Outcome State Fault Refusal :=
  s.upd (·.takeTapRsp ln seq status)

/-- The receive equalisers' values, as they adapt in TRAIN, RUN and DEGRADED (R69): frozen they keep their last, with
MANUAL the CTLE does; H1 stays within 0.50 of the main tap. -/
def Block.adapt (b : Block) (l : Nat) (ctle : BitVec 4) (ffe : List (BitVec 8)) (dfe : BitVec 7) : Block :=
  let x := b.lane l
  if ¬ (x.inRun ∨ x.st = .train) ∨ b.regBit (lnOff Off.lnCtrl l) 2 then b
  else b.modLane l fun x =>
    { x with
      ctle := if b.regBit (lnOff Off.lnCtrl l) 1 then x.ctle else ctle
      rxFfe := ffe.take 12, dfe := if 64 < dfe.toNat then 64 else dfe }

/-- FOM_MEASURE_DONE (R118, R69): the figure of merit `fom`, in 0.01 dB, and the equalisers' values. -/
def Block.fomDone (b : Block) (l : Nat) (fom : Nat) (ctle : BitVec 4) (ffe : List (BitVec 8)) (dfe : BitVec 7) : Block :=
  let x := b.lane l
  let b := b.adapt l ctle ffe dfe
  match x.st, x.tapOut, x.search with
  | .train, none, some c =>
    if !c.started then b.modLane l fun x => x.askStep b.ck.tide { c with started := true, best := fom, tapIx := 0, up := true }
    else if c.best + 25 ≤ fom then b.modLane l fun x => x.askStep b.ck.tide { c with best := fom, improved := true }
    else b.modLane l fun x =>
      ({ x with search := some { c with undo := true } }).request b.ck.tide (searchTap c.tapIx) (if c.up then 2 else 1)
  | _, _, _ => b

/-- The meaning of FOM_MEASURE_DONE. -/
def execFomMeasureDone (ln : LaneId) (fom : Nat) (ctle : BitVec 4) (ffe : List (BitVec 8)) (dfe : BitVec 7) (s : State) :
    Host.Outcome State Fault Refusal :=
  s.upd (·.fomDone ln fom ctle ffe dfe)

/-- TAP_REQ_TIMEOUT: without an answer for 20 µs the request is repeated; after four repeats training ends with FAIL (R117). -/
def Block.tapTimeout (b : Block) (l : Nat) : Block :=
  match (b.lane l).st, (b.lane l).tapOut with
  | .train, some t =>
    if b.since (b.lane l).reqAt < 20 * usTicks then b
    else if t.repeats < 4 then
      b.modLane l fun x => { x with reqAt := b.ck.tide, tapOut := some { t with repeats := t.repeats + 1 }, msg := .tapReq { t with repeats := t.repeats + 1 } }
    else (b.modLane l fun x => x.sendDone false ((x.search.map (·.best)).getD 0)).outcome l
  | _, _ => b

/-- The meaning of TAP_REQ_TIMEOUT. -/
def execTapReqTimeout (ln : LaneId) (s : State) : Host.Outcome State Fault Refusal := s.upd (·.tapTimeout ln)

/-- The meaning of TAP_DONE: the partner's verdict, taken once per sequence number; with both, the lane has its outcome
(R114, R119). -/
def execTapDone (ln : LaneId) (seq : BitVec 8) (pass : Bool) (_fom : BitVec 8) (s : State) :
    Host.Outcome State Fault Refusal :=
  s.upd fun b =>
    if (b.lane ln).st = .train ∧ newSeq (b.lane ln).rxSeq seq then
      (b.modLane ln fun x => { x with donePeer := some pass, rxSeq := some seq }).outcome ln
    else b

/-- The meaning of TRAIN_TIMEOUT: TAP_DONE missing after 5 ms is a training failure (R102, R119, R136); a MOVE that the
lane has repeated until then is followed without the partner's (log 104). -/
def execTrainTimeout (ln : LaneId) (s : State) : Host.Outcome State Fault Refusal :=
  s.upd fun b =>
    if (b.lane ln).st = .train ∧ 5 * msTicks ≤ b.since (b.lane ln).since then
      if (b.side (laneSide ln)).moveOut.isSome then b.moveTaken (laneSide ln)
      else if (b.lane ln).resolved then b
      else (b.modLane ln fun x => { x with doneOwn := some (x.doneOwn.getD false), donePeer := some false }).outcome ln
    else b

/-! ### CAP, COMMIT, START, MOVE (R119 to R125) -/

/-- CAP (R120, R162): merged and forwarded; one with no entry left is STRING_LONG. -/
def Block.takeCap (b : Block) (sd : Side) (seq : BitVec 8) (c : Cap) : Block :=
  let s := b.side sd
  if s.seg = .down ∨ s.seg = .training ∨ ¬ newSeq s.capSeq seq then b
  else
    let b := b.modSide sd fun x => { x with capIn := some c, capSeq := some seq }
    (if c.hops ≥ 8 then b.event .stringLong (sideNo sd) else b).forwardCap sd

/-- The meaning of CAP. -/
def execCap (sd : Side) (seq : BitVec 8) (c : Cap) (s : State) : Host.Outcome State Fault Refusal :=
  s.upd (·.takeCap sd seq c)

/-- The grants of a COMMIT for this pier: share and credit units of its own entry, and QUAY_SHARE_SHORT where it gave
less than the CAP asked for (R124, R128, R162, R193). -/
def Block.takeGrants (b : Block) (sd : Side) (c : Commit) : Block :=
  let old := (b.side sd).creditGrant
  let (share, credit) := match (b.side sd).myIx with
    | some i => (c.shares.getD i 0, c.credits.getD i 0)
    | none => (0, 0)
  let b := b.modSide sd fun x =>
    { x with shareGrant := share, creditGrant := credit, lastShares := c.shares, noLaneLogged := false, noShareLogged := false }
  let b := b.grantBal sd old credit
  if share < (b.side sd).asked.getD 0 then b.event .quayShareShort (sideNo sd) else b

/-- Lanes that trained beside a running segment, passed and were not chosen go QUIET (R102). -/
def Block.quietRest (b : Block) (sd : Side) (m : BitVec 16) : Block :=
  b.each (sideLanes sd) fun b l =>
    let x := b.lane l
    if x.st == .train && x.passed && x.prbsRun.isNone && !m.getLsbD (laneIx l) then
      b.modLane l fun x => { x with st := .quiet, msg := .idle, txIdle := true }
    else b

/-- START goes out on the chosen lanes, its countdown at 63, ahead of what waits for RUN (R123). -/
def Block.sendStart (b : Block) (sd : Side) (m : BitVec 16) : Block :=
  b.modSide sd fun x =>
    let q := x.segSeq + 1
    { x with
      seg := .starting, mask := m, txOn := false, rxOn := false, unaligned := 0, startAt := b.ck.tide, segSeq := q
      ctl := (q, .start 63) :: if x.seg = .starting then x.ctl.drop 1 else [] }

/-- A segment moves to the width of the agreed BLINK: START from agreement; REFORM in RUN, once both directions are there
(R122, R123, R135). -/
def Block.applyBlink (b : Block) (sd : Side) (blink : Nat) : Block :=
  let s := b.side sd
  let w := if s.useg = 0 then 0 else blink / s.useg
  let m := maskOf (b.chosen sd w)
  let b := b.modSide sd fun x => { x with blink := blink, capDirty := false }
  if m = 0 then b
  else match s.seg with
    | .agreeing => (b.modSide sd fun x => { x with ctl := [] }).sendStart sd m
    | .starting => if m = s.mask ∨ s.txOn ∨ s.rxOn then b else b.sendStart sd m
    | .run => (if m = s.nextMask then b else b.askReform sd m).quietRest sd m
    | _ => b

/-- A COMMIT with BLINK 0: every segment above UCAP sends MOVE to the grade of UCAP, and goes there (R121). -/
def Block.lowerTo (b : Block) (sd : Side) (ucap : Nat) : Block :=
  let s := b.side sd
  if s.seg = .down ∨ s.useg ≤ ucap ∨ s.moveOut = some (gradeOf ucap) then b
  else (b.modSide sd fun x => { x with lowered := true }).moveTo sd (gradeOf ucap)

/-- COMMIT (R121 to R125): grants taken, the message relayed, the width applied; of two different BLINK values the
lower counts, and the end that committed the higher one gets a fresh CAP. -/
def Block.takeCommit (b : Block) (sd : Side) (seq : BitVec 8) (c : Commit) : Block :=
  let s := b.side sd
  if s.seg = .down ∨ s.seg = .training ∨ ¬ newSeq s.commitSeq seq then b
  else
    let b := b.modSide sd fun x => { x with commit := some c, commitSeq := some seq, spread := c.spread }
    let b := b.takeGrants sd c
    let b := if ¬ (b.side (otherSide sd)).agrees then b
      else (b.modSide (otherSide sd) fun x => { x with commitOut := some c }).sendSeg (otherSide sd) (.commit c)
    if c.blink = 0 then (b.lowerTo .west c.ucap).lowerTo .east c.ucap
    else
      let far := match (b.side (otherSide sd)).commit with
        | some d => if d.blink = 0 then c.blink else d.blink
        | none => c.blink
      let v := min c.blink far
      let b := if c.blink > far then b.forwardCap (otherSide sd) else if far > c.blink then b.forwardCap sd else b
      ((b.applyBlink .west v).applyBlink .east v).noteQuay

/-- The meaning of COMMIT. -/
def execCommit (sd : Side) (seq : BitVec 8) (c : Commit) (s : State) : Host.Outcome State Fault Refusal :=
  s.upd (·.takeCommit sd seq c)

/-- Both directions of a segment have started: the chosen lanes that trained enter RUN, those that cannot be aligned
hunt again, the other passing lanes go QUIET (R95, R97, R102, R122, R123, R190). -/
def Block.enterRun (b : Block) (sd : Side) : Block :=
  let s := b.side sd
  let ready (l : Nat) : Bool := s.mask.getLsbD (laneIx l) && (b.lane l).st == .train
  let goes := (sideLanes sd).filter fun l => ready l && !s.unaligned.getLsbD (laneIx l)
  let go := maskOf goes
  let late := (sideLanes sd).filter fun l => ready l && s.unaligned.getLsbD (laneIx l)
  let b := b.each (sideLanes sd) fun b l =>
    if goes.contains l then
      (b.modLane l fun x => { x with st := .run, msg := .idle, txIdle := false, attempts := 0, retraining := false }).laneRun l
    else if late.contains l then
      ((b.startHunt l s.grade true).modLane l fun x => { x with retraining := true, attempts := 0 }).notePass l false
    else if (b.lane l).st = .train then b.modLane l fun x => { x with st := .quiet, msg := .idle, txIdle := true }
    else b
  if go = 0 then b.retrainSide sd 0 false
  else
    let b := b.modSide sd fun x =>
      { x with seg := .run, mask := go, ctl := x.ctl.filter fun e => match e.2 with
                 | .start _ => false
                 | _ => true
               balSet := false
               cadence := if x.spread.toNat ≤ 6 then 1024 else 256 }
    let b := b.grantBal sd 0 s.creditGrant
    let b := if go = s.mask then b else b.resizeSide sd
    let b := if s.useg * (lanesOf sd s.mask).length = s.blink then b else b.applyBlink sd s.blink
    ((b.wakeWaiter sd).checkOpen).noteQuay

/-- The pier's own START has counted from 63 to 0, one per block (R123). -/
def Block.startOver (b : Block) (sd : Side) : Bool := decide (64 ≤ b.blocksSince (b.side sd).grade (b.side sd).startAt)

/-- START: a countdown ends, the pier's own or the partner's, and that direction is in RUN from its row 0; in the
partner's, a lane more than 8 ns late cannot be aligned (R95, R123).  `skew` is in 0.1 ns. -/
def Block.takeStart (b : Block) (sd : Side) (own : Bool) (skew : List (Fin 16 × Nat)) : Block :=
  if (b.side sd).seg != .starting || (own && (b.side sd).txOn || !own && (b.side sd).rxOn) || (own && !b.startOver sd) then b
  else
    let late := maskOf (skew.filterMap fun e => if 80 < e.2 then some e.1.val else none)
    let b := b.modSide sd fun x =>
      if own then
        { x with txOn := true, ctl := x.ctl.drop 1, txRow := 0, txSince := 0, txPos := 0, txBits := [], txSym := 0
                 cadence := if x.spread.toNat ≤ 6 then 1024 else 256 }
      else { x with rxOn := true, unaligned := late, row := 0, rxPhase := 0, rxPos := 0, phaseBad := 0 }
    if (b.side sd).txOn ∧ (b.side sd).rxOn then b.enterRun sd else b

/-- The meaning of START. -/
def execStart (sd : Side) (own : Bool) (skew : List (Fin 16 × Nat)) (s : State) : Host.Outcome State Fault Refusal :=
  s.upd (·.takeStart sd own skew)

/-- The grade that a MOVE may bring a segment to: none above the board's maximum, and none above G2 in HARBOUR (R119, R368;
DEDUCED: log 119). -/
def Block.moveGrade (b : Block) (sd : Side) (g : Fin 4) : Fin 4 :=
  let h := minGrade g (b.boardTop sd)
  if (b.side sd).capG2 then minGrade h 1 else h

/-- MOVE: the segment retrains at the target grade (R103, R121); below what a COMMIT with BLINK 0 asked, it falls further
only if no lane passes. -/
def Block.takeMove (b : Block) (sd : Side) (seq : BitVec 8) (grade : Fin 4) : Block :=
  let x := b.side sd
  if x.seg = .down ∨ ¬ newSeq x.moveSeq seq then b
  else
    let low := x.lowered || (match x.commit with
      | some c => c.blink == 0 && gradeOf c.ucap == grade
      | none => false)
    ((b.moveNow sd (b.moveGrade sd grade) low).purgeSide sd).modSide sd fun y => { y with moveSeq := some seq }

/-- The meaning of MOVE. -/
def execMove (sd : Side) (seq : BitVec 8) (grade : Fin 4) (s : State) : Host.Outcome State Fault Refusal :=
  s.upd (·.takeMove sd seq grade)

/-! ### REFORM (R134, R135) -/

/-- Lanes that the partner's REFORM takes out of a segment no longer pass, where it leaves the segment narrower than the
committed BLINK: the partner dropped them for a fault.  Otherwise the segment moves to its width (R135; DEDUCED, log 106). -/
def Block.partnerDrops (b : Block) (sd : Side) (m : BitVec 16) : Block :=
  let x := b.side sd
  if (lanesOf sd m).length * x.useg < x.blink then
    b.each (lanesOf sd x.nextMask) fun b l => if m.getLsbD (laneIx l) then b else b.notePass l false
  else b

/-- REFORM (R134): the partner's mask, in the partner's lane numbers, is echoed with the same lanes, and the switch is
under way.  It takes the place of a REFORM of the pier's own that is still under way (DESIGN CHOICE: R134 does not say how
two that cross are settled; log 106). -/
def Block.takeReform (b : Block) (sd : Side) (seq : BitVec 8) (mask : BitVec 16) : Block :=
  let x := b.side sd
  if x.seg != .run || !newSeq x.reformSeq seq then b
  else
    let m := b.ownMask sd mask
    let b := b.modSide sd fun y => { y with reformSeq := some seq }
    if m = 0 ∨ x.reform = some m then b else (b.partnerDrops sd m).askReform sd m

/-- The meaning of REFORM; the switch comes at the end of its countdown (REFORM_SWITCH). -/
def execReform (sd : Side) (seq : BitVec 8) (mask : BitVec 16) (_countdown : BitVec 8) (s : State) :
    Host.Outcome State Fault Refusal :=
  s.upd (·.takeReform sd seq mask)

/-! ### PRBS on a lane of the link (R138) and on a lane alone (R75 to R77) -/

/-- The meaning of PRBS: a lane in TRAIN sends the pattern for the partner's duration (R138). -/
def execPrbs (ln : LaneId) (seq : BitVec 8) (pattern : BitVec 8) (ms : BitVec 16) (s : State) :
    Host.Outcome State Fault Refusal :=
  s.upd fun b =>
    let x := b.lane ln
    if x.st = .train ∧ pattern.toNat < 3 ∧ newSeq x.rxSeq seq then
      b.modLane ln fun x =>
        { x with prbsRun := some (pattern.truncate 2), prbsAt := some b.ck.tide, prbsMs := ms, msg := .prbs (pattern.truncate 2) ms, rxSeq := some seq }
    else b

/-- Bits compared in sync and the errors among them, added to both counters; when either reaches all ones, both stop
together (R76). -/
def Block.countPrbs (b : Block) (l : Nat) (bits errors : Nat) : Block :=
  if ¬ (b.lane l).prbsSync ∨ (b.lane l).prbsSat then b
  else
    let top := 2 ^ 48 - 1
    let n := min (b.count (lnOff Off.lnPrbsBitsLo l) + bits) top
    let e := min (b.count (lnOff Off.lnPrbsErrLo l) + errors) top
    let b := (b.setCount (lnOff Off.lnPrbsBitsLo l) n).setCount (lnOff Off.lnPrbsErrLo l) e
    if n = top ∨ e = top then b.modLane l fun x => { x with prbsSat := true } else b

/-- LANE_PRBS_END: the pattern stops, a lane that passed rejoins by REFORM, and the LANE_PRBS manifest completes (R138). -/
def Block.prbsEnd (b : Block) (l : Nat) : Block :=
  let x := b.lane l
  if x.st != .train || x.prbsRun.isNone then b
  else
    let sd := laneSide l
    let owner := x.prbsOwner
    let b := b.modLane l fun x => { x with prbsRun := none, prbsAt := none, prbsOwner := none, prbsMs := 0, msg := .idle }
    let ok := (b.side sd).seg == .run && x.passed
    let b := if ok then b.outcome l else b
    match owner with
    | some m => b.finish m Mop.lanePrbs St.ok (b.prbsResult l ok)
    | none => b

/-- The pattern's duration is over (R138). -/
def Block.prbsOver (b : Block) (l : Nat) : Bool :=
  (b.lane l).prbsAt.isSome && b.olderThan ((b.lane l).prbsMs.toNat * msTicks) (b.lane l).prbsAt

/-- The meaning of LANE_PRBS_END, with what the checker counted since it last told. -/
def execLanePrbsEnd (ln : LaneId) (bits errors : BitVec 48) (s : State) : Host.Outcome State Fault Refusal :=
  s.upd fun b => if b.prbsOver ln then (b.countPrbs ln bits.toNat errors.toNat).prbsEnd ln else b

/-- The checker of a lane runs: RX_EN, or a PRBS of the link. -/
def Block.checking (b : Block) (l : Nat) : Bool :=
  b.regBit (lnOff Off.lnPrbsCtrl l) 4 || ((b.lane l).st == .train && (b.lane l).prbsRun.isSome)

/-- The pattern that a lane's checker compares with: the link's PRBS, or RX_PAT. -/
def Block.checkPat (b : Block) (l : Nat) : BitVec 2 :=
  match (b.lane l).st, (b.lane l).prbsRun with
  | .train, some p => p
  | _, _ => BitVec.ofNat 2 (b.regField (lnOff Off.lnPrbsCtrl l) 5 2)

/-- One received bit before sync: the checker seeds itself with it, and counts the run without an error once it holds
as many as its pattern's degree (R76). -/
def PrbsChk.hunt (pat : BitVec 2) (k : PrbsChk) (c : Bool) : PrbsChk :=
  let full := decide ((prbsPoly pat).1 ≤ k.seeded)
  { k with past := prbsShift k.past c, seeded := k.seeded + 1
           run := if full then (if prbsNext pat k.past == c then k.run + 1 else 0) else 0 }

/-- One received bit in sync, compared with the checker's own pattern (R76). -/
def PrbsChk.compare (pat : BitVec 2) (k : PrbsChk) (c : Bool) : PrbsChk :=
  let want := prbsNext pat k.past
  let errs := k.errs.filter fun i => decide (k.n < i + 1024)
  { k with past := prbsShift k.past want, n := k.n + 1, errs := if c == want then errs else k.n :: errs }

/-- One received bit at a lane's checker: sync after 1,024 without an error, lost at 256 errors among 1,024 (R76). -/
def Block.checkBit (b : Block) (l : Nat) (pat : BitVec 2) (c : Bool) : Block :=
  let x := b.lane l
  if x.prbsSync then
    let k := x.chk.compare pat c
    let b := b.countPrbs l 1 (if c == prbsNext pat x.chk.past then 0 else 1)
    if 256 ≤ k.errs.length then
      (b.modLane l fun x => { x with chk := {}, prbsSync := false }).orReg (lnOff Off.lnPrbsStatus l) 2
    else b.modLane l fun x => { x with chk := k }
  else
    let k := x.chk.hunt pat c
    if 1024 ≤ k.run then b.modLane l fun x => { x with chk := { k with n := 0, errs := [] }, prbsSync := true }
    else b.modLane l fun x => { x with chk := k }

/-- Received bits at a lane's checker, in order. -/
def Block.checkBits (b : Block) (l : Nat) (rx : List Bool) : Block :=
  if b.checking l then rx.foldl (fun b c => b.checkBit l (b.checkPat l) c) b else b

/-- The meaning of PRBS_SYNC: received bits, on which a checker that hunts declares sync and counts (R76). -/
def execPrbsSync (ln : LaneId) (rx : List Bool) (s : State) : Host.Outcome State Fault Refusal :=
  s.upd (·.checkBits ln rx)

/-- The meaning of PRBS_SYNC_LOST: received bits, on which a checker in sync counts and may lose it (R76). -/
def execPrbsSyncLost (ln : LaneId) (rx : List Bool) (s : State) : Host.Outcome State Fault Refusal :=
  s.upd (·.checkBits ln rx)

/-- The meaning of PRBS_SATURATED: a long run in sync, told as bits compared and errors since the checker last told (R76). -/
def execPrbsSaturated (ln : LaneId) (bits errors : BitVec 48) (s : State) : Host.Outcome State Fault Refusal :=
  s.upd (·.countPrbs ln bits.toNat errors.toNat)

/-! ### Rows, alarms and degrade (R84, R88, R89, R95, R96, R133) -/

/-- The lane is inside a quiet window granted to the pier: its own turn in LOCK, or the side's window (R84). -/
def Block.inOwnWindow (b : Block) (l : Nat) : Bool :=
  let x := b.lane l
  match x.st with
  | .lock => !x.winOwn && (x.answerer == some false || x.winPeer)
  | .run | .degraded => (b.side (laneSide l)).win.isSome
  | _ => false

/-- The table of R84: an alarm outside windows in HUNT to DEGRADED, and a running lane dropped (R134). -/
def Block.fastAlarm (b : Block) (l : Nat) (bit : Word) (expected : Bool) : Block :=
  match (b.lane l).st with
  | .off | .quiet | .failed => b
  | _ =>
    if expected then b
    else (b.orReg (lnOff Off.lnAlarm l) bit).dropLaneFull l

/-- The received signal is lost: when, and a talker whose partner has ended its answer begins its window (R82, R106, R107). -/
def Block.loseSignal (b : Block) (l : Nat) : Block :=
  b.modLane l fun x =>
    let x := { x with los := true, losAt := if x.los then x.losAt else b.ck.tide }
    if x.st = .lock ∧ x.answerer = some false ∧ ¬ x.winOwn ∧ x.winAt = none then x.openWindow b.ck.tide else x

/-- A lane in TRAIN no longer hears its partner: a MOVE under way has been taken (log 104). -/
def Block.leftGrade (b : Block) (l : Nat) : Block :=
  if (b.lane l).st = .train then b.moveTaken (laneSide l) else b

/-- The meaning of LOS: the level, in mV, at which the received signal stood for 1,024 UI.  Below 40 the detector asserts,
above 80 it de-asserts, between them it keeps its state (R82); asserting has the outcome of R84. -/
def execLos (ln : LaneId) (mv : Nat) (s : State) : Host.Outcome State Fault Refusal :=
  s.upd fun b =>
    if mv < 40 then
      ((b.loseSignal ln).fastAlarm ln 1 (b.inOwnWindow ln)).leftGrade ln
    else if 80 < mv then b.modLane ln fun x => { x with los := false }
    else b

/-- The loss-of-lock condition: a mean phase error above 0.25 UI over 256 UI, or an offset outside R70 (R83). -/
def lolCondition (phaseErr : Nat) (ppm : Int) : Bool := decide (25 < phaseErr ∨ ppm < -6000 ∨ 6000 < ppm)

/-- The meaning of LOL: the mean phase error in 0.01 UI and the offset in ppm.  The condition is live: it ends when a
report no longer meets it (DEDUCED: R83 says only when it asserts; log 46).  Asserting has the outcome of R84, and a
granted window excuses loss of signal and loss of lock alike. -/
def execLol (ln : LaneId) (phaseErr : Nat) (ppm : Int) (s : State) : Host.Outcome State Fault Refusal :=
  s.upd fun b =>
    if lolCondition phaseErr ppm then (b.modLane ln fun x => { x with lol := true }).fastAlarm ln 2 (b.inOwnWindow ln)
    else b.modLane ln fun x => { x with lol := false }

/-- Corrected symbols over bits exceed 4 times the ratio of R79 at the grade. -/
def berHigh (g : Fin 4) (corrected bits : Nat) : Bool :=
  match g with
  | 0 => decide (corrected * 100000000 > 4 * bits)
  | 1 => decide (corrected * 100000 > 4 * bits)
  | _ => decide (corrected * 10000000 > 9600 * bits)

/-- The meaning of DEGRADE_CHECK: a RUN lane with a trigger of R133 becomes DEGRADED and asks for a window; in a DEGRADED
one a trigger starts R102's 1 ms again. -/
def execDegradeCheck (ln : LaneId) (corrected bits uncorrectable : Nat) (s : State) : Host.Outcome State Fault Refusal :=
  s.upd fun b =>
    let x := b.lane ln
    if berHigh x.grade corrected bits ∨ 2 ≤ uncorrectable ∨ b.regBit (lnOff Off.lnAlarm ln) 2 then
      match x.st with
      | .run => (b.modLane ln fun x => { x with st := .degraded, degradedAt := some b.ck.tide, winSince := none }).askWindow (laneSide ln)
      | .degraded => b.modLane ln fun x => { x with winSince := x.winSince.map fun _ => b.ck.tide }
      | _ => b
    else b

/-- The meaning of DEGRADED_CLEAR: after a touch-up window and 1 ms without a trigger, RUN again (R102). -/
def execDegradedClear (ln : LaneId) (s : State) : Host.Outcome State Fault Refusal :=
  s.upd fun b =>
    if (b.lane ln).st = .degraded ∧ (b.lane ln).winSince.isSome ∧ b.olderThan msTicks (b.lane ln).winSince then
      b.modLane ln fun x => { x with st := .run, degradedAt := none, winSince := none }
    else b

/-- The meaning of DEGRADED_TIMEOUT: after 10 ms the lane is dropped by REFORM (R133). -/
def execDegradedTimeout (ln : LaneId) (s : State) : Host.Outcome State Fault Refusal :=
  s.upd fun b => if (b.lane ln).st = .degraded ∧ b.olderThan (10 * msTicks) (b.lane ln).degradedAt then b.dropLaneFull ln else b

/-! ### Link-up again (R365) -/

/-- The meaning of LINK_RETRY: a down side with RETRY_EN, in HARBOUR or OPEN, links up from G1 every 1 s; the G2 cap holds
only in HARBOUR (R365). -/
def execLinkRetry (sd : Side) (s : State) : Host.Outcome State Fault Refusal :=
  s.upd fun b =>
    if b.inService ∧ (b.side sd).seg = .down ∧ b.regBit Off.pwCtrl 3 ∧ b.coreRuns ∧ b.olderThan sTicks (b.side sd).retryAt then
      ((b.modSide sd fun x => { x with retryAt := some b.ck.tide, capG2 := b.pw.st == .harbour }).trainSide sd 0 false).checkOpen
    else b

end Sys2Proof.Machine
end

