-- ==== Sys2Proof/Machine/Fairway.lean ====
section
/-! DEFINITION. The fairway: arriving flits, the claim point, the insertion point, the rate matcher
and the stand-in (chapter 05; R166, R167, R189 to R192). -/

namespace Sys2Proof.Machine

open Sys2Proof

/-! ### Per-lane figures of a flit (R78, R90, R428) -/

/-- Nine data blocks of a flit counted on the lanes they used, from block position `pos` (R90, R427, R428). -/
def Block.countBlocks (b : Block) (sd : Side) (order : List Nat) (pos ev port : Nat) : Block :=
  if order.isEmpty then b
  else b.each (List.range 9) fun b j =>
    let l := order.getD ((pos + j) % order.length) 0
    (b.tally (sideBlk sd) ev [laneIx l, 16] 1).portBytes (port + l) 32

/-- One codeword's corrections on the side's working lanes (R78). -/
def Block.countCodeword (b : Block) (sd : Side) (c : Codeword) : Block :=
  let ls := lanesOf sd (b.rxMask sd)
  if c.uncorrectable then
    b.each ls fun b l =>
      ((b.bumpW 32 (lnOff Off.lnFecHist0 l + 64) 1).orReg (lnOff Off.lnAlarm l) 8).tally (sideBlk sd) 0x045
        [laneIx l, 16] 1
  else
    let total := (c.corrected.map (·.2)).sum
    let b := b.each ls fun b l => b.bumpW 32 (lnOff Off.lnFecHist0 l + 4 * min total 15) 1
    c.corrected.foldl (fun b e =>
      let l := laneOf sd e.1
      (b.bump (lnOff Off.lnSymErrLo l) e.2).tally (sideBlk sd) 0x044 [laneIx l, 16] e.2) b

/-! ### Drops and errors -/

/-- A bad flit first detected here: counted, and the limit of 1 ms checked (R149, R165). -/
def Block.badFlit (b : Block) (sd : Side) : Block :=
  let b := (b.bump (fwOff Off.fwBadLo sd)).tally (fwBlk sd) 0x061 [0] 1
  let w := b.fw sd
  let recent := (b.ck.tide :: w.badAt.filter fun t => decide (b.since t < msTicks)).take 255
  let b := b.modFw sd fun x => { x with badAt := recent }
  if b.regField Off.fwCtrl 8 8 ≤ recent.length then b.orReg Off.fwAlarm (match sd with | .west => 1 | .east => 2) else b

/-! ### The output buffer (R154) -/

/-- One direction of the segment has switched in a REFORM and the other has not (R134). -/
def SideSt.inSwitch (x : SideSt) : Bool := x.reform.isSome && x.reformTx != x.reformRx

/-- The side counts as outside RUN for the flits toward it: it trains, is down, or is in a REFORM switch (R123, R163).  The link
is up in a switch, so what the quay owes to the side waits (DESIGN CHOICE, log 112). -/
def Block.outOfRun (b : Block) (sd : Side) : Bool := !(b.side sd).sends || (b.side sd).inSwitch

/-- A flit reaches the output buffer of the direction that takes arrivals from `sd`; toward a side outside RUN through flits
are discarded (R154, R163). -/
def Block.toBuffer (b : Block) (sd : Side) (f : Flit) (idle : Bool) : Block :=
  let w := b.fw sd
  let occ := w.buf.length
  let seen := min (w.sinceRemoval + 1) 256
  if idle then
    if occ ≥ 4 then
      ((b.modFw sd fun x => { x with sinceRemoval := seen }).bump (fwOff Off.fwIdleDelLo sd)).tally (fwBlk sd) 0x065 [0] 1
    else if occ ≥ 2 ∧ w.sinceRemoval ≥ 255 then
      ((b.modFw sd fun x => { x with sinceRemoval := 0 }).bump (fwOff Off.fwIdleDelLo sd)).tally (fwBlk sd) 0x065 [0] 1
    else b.modFw sd fun x => { x with buf := x.buf ++ [f], sinceRemoval := seen }
  else if occ ≥ 4 ∨ b.outOfRun (otherSide sd) then (b.modFw sd fun x => { x with sinceRemoval := seen }).dropFlit sd
  else b.modFw sd fun x => { x with buf := x.buf ++ [f], sinceRemoval := seen }

/-! ### The insertion point (R127, R156, R189, R190) -/

/-- The sum of the shares of the piers beyond this one toward a side, in 1/32: the `D` of R127, from the last COMMIT of
the partner at the other end, also while its side trains.  Where the other side is down this pier is that end: its own
COMMIT granted every request, and the piers whose entries the CAP brought lie beyond (R120). -/
def Block.sharesBeyond (b : Block) (out : Side) : Nat :=
  let far := b.side (otherSide out)
  let sum (xs : List Nat) (n : Nat) : Nat := ((List.range n).map fun k => xs.getD k 0).sum
  if far.seg = .down then
    match (b.side out).commitOut, (b.side out).capIn with
    | some k, some c => sum k.shares c.hops
    | _, _ => 0
  else match far.myIx with
    | some i => sum far.lastShares i
    | none => 0

/-- Using an idle slot keeps the floors of R127: D idle flits in every 32, and one further in every 256.
Slots before the first count as idle (log 12). -/
def Block.floorsAllow (b : Block) (out : Side) : Bool :=
  let past := (b.fw (otherSide out)).leftIdle
  let d := b.sharesBeyond out
  let idleIn (n : Nat) : Nat := ((past.take n).filter id).length + (n - min n past.length)
  decide (d ≤ idleIn 31) && decide (8 * d + 1 ≤ idleIn 255)

/-- A slot left the insertion point, idle or not. -/
def Block.noteSlot (b : Block) (out : Side) (idle : Bool) : Block :=
  b.modFw (otherSide out) fun x =>
    { x with leftIdle := (idle :: x.leftIdle).take 255, sinceDump := min (x.sinceDump + 1) 65536 }

/-- The completion waits for no earlier IN_ORDER completion of its flow, and a NOTIFY completion, which holds no tag, not
for the first of its own request (R170, R178); for a NOTIFY that is not yet formed no other waits (DEDUCED: R24; log 115). -/
def Block.orderFree (b : Block) (i : Ins) : Bool :=
  match i.inOrder, i.reqId with
  | true, some k =>
    !(i.tags == 0 && b.qy.ins.any fun j => j.reqId == some k && j.tags != 0)
      && !(b.qy.reqs.any fun r => decide (r.id < k) && r.f.flow == i.flit.flow && inOrderOf r.f)
      && !(b.qy.copies.any fun c => decide (c.req < k) && c.f.flow == i.flit.flow && inOrderOf c.f && !c.answered)
      && !(b.qy.ins.any fun j => j.inOrder && j.flit.flow == i.flit.flow && (match j.reqId with
            | some n => decide (n < k)
            | none => false))
  | _, _ => true

/-- The flit may leave under the credit balance (R190), and a dump flit under the ceiling of R14. -/
def Block.mayLeave (b : Block) (out : Side) (i : Ins) : Bool :=
  let v := b.balance out
  let dumpOk :=
    let share := b.shareUnits (otherSide out)
    i.level != 8 || decide (64 * 32 ≤ (b.fw (otherSide out)).sinceDump * share)
  (i.level == 1 || decide (8 < v) || (i.level == 2 && decide (0 < v))) && b.orderFree i && dumpOk

/-- The next flit of the insertion queue toward a side: the highest level, the oldest first (R189). -/
def Block.pickIns (b : Block) (out : Side) : Option Ins :=
  (List.range 8).findSome? fun k => b.qy.ins.find? fun i => i.side == out && i.level == k + 1 && b.mayLeave out i

/-- What an inserted flit's leaving does: credit, tags, counts, lateness, remote writes (R171, R177, R182, R190). -/
def Block.insLeaves (b : Block) (out : Side) (i : Ins) : Block :=
  let b := { b with qy.ins := b.qy.ins.erase i }
  let b := if i.level = 1 then b else b.setBal out ((b.side out).bal - 1)
  let b := if i.level = 8 then b.modFw (otherSide out) fun x => { x with sinceDump := 0 } else b
  let b := b.tally quayBlk 0x083 [0, i.level] 1
  let b := if i.flit.kind = 2 ∧ i.boundNs ≠ 0 ∧ i.boundNs * 1000 < b.since i.quayIn * 625 then
      ((b.bump Off.qyLateLo).orReg Off.qyAlarm 4).tally quayBlk 0x088 [0] 1
    else b
  match i.remTag with
  | some t => b.remSent t
  | none => b.wakeFences

/-- A flit inserted into an idle slot toward a side: counted, and sealed with its CRC. -/
def Block.inserted (b : Block) (dir : Side) (f : Flit) : Block × Option Flit :=
  (((b.bump (fwOff Off.fwInsertLo dir)).tally (fwBlk dir) 0x064 [0] 1).portBytes 129 288, some (sealFlit f))

/-- The oldest of the stand-in's answers leaves, for one flit of the balance (R164). -/
def Block.standinSends (b : Block) (out : Side) (rest : List Flit) : Block :=
  (b.modFw (otherSide out) fun x => { x with standin := rest }).setBal out ((b.side out).bal - 1)

/-- An idle slot toward a side offered to the quay, or to the stand-in while the quay is out of service: CREDIT
returns first, which cost nothing (R189, R190).  Answers that the stand-in still holds when the quay is back are older
refusals of level 2: they go ahead of the quay's own (R164, R189). -/
def Block.offerSlot (b : Block) (out : Side) : Block × Option Flit :=
  let dir := otherSide out
  if (b.fw dir).buf.length ≥ 4 ∨ (b.side out).seg ≠ .run ∨ b.outOfRun out ∨ ¬ b.floorsAllow out then (b, none)
  else
    match b.qy.ins.find? fun i => i.side == out && i.level == 1 && (!b.qyUp || b.mayLeave out i) with
    | some i => (if b.qyUp then b.insLeaves out i else { b with qy.ins := b.qy.ins.erase i }).inserted dir i.flit
    | none =>
      match (b.fw dir).standin with
      | f :: rest => if 0 < b.balance out then (b.standinSends out rest).inserted dir f else (b, none)
      | [] =>
        if ¬ b.qyUp then (b, none)
        else match b.pickIns out with
          | some i => (b.insLeaves out i).inserted dir i.flit
          | none => (b, none)

/-- A good flit that arrived reaches the output buffer: counted as forwarded if the buffer takes it (R149). -/
def Block.thruBuffer (b : Block) (sd : Side) (f : Flit) (idle : Bool) : Block :=
  let n := (b.fw sd).buf.length
  let b := b.toBuffer sd f idle
  if n < (b.fw sd).buf.length then (b.bump (fwOff Off.fwThruLo sd)).tally (fwBlk sd) 0x060 [0] 1 else b

/-- An idle flit at the insertion point of the direction that takes arrivals from `sd`: used, or sent on; one that
arrived (R146: KIND 0 and a valid CRC, whatever its other bits hold; it goes on unchanged) counts as forwarded, the one
in a claimed flit's place does not. -/
def Block.idleSlot (b : Block) (sd : Side) (arrived : Option Flit) : Block :=
  let out := otherSide sd
  match b.offerSlot out with
  | (b, some f) => (b.noteSlot out false).toBuffer sd f false
  | (b, none) =>
    match arrived with
    | some g => (b.noteSlot out true).thruBuffer sd g true
    | none => (b.noteSlot out true).toBuffer sd idleFlit true

/-! ### The claim point (R166, R167, R164) -/

/-- A request opcode of R169, CREDIT included. -/
def knownOpcode (n : Nat) : Bool :=
  [0x01, 0x02, 0x03, 0x10, 0x20, 0x21, 0x22, 0x23, 0x24, 0x25, 0x26, 0x30, 0x7F].contains n

/-- The flit is addressed to this pier: by its ID, or a discovery manifest for its position (R17, R49, R166).  Only the first
fragment of a manifest carries the position; byte 11 of each later fragment is compared too (DESIGN CHOICE: R17 does not say
which later fragments are claimed; log 103). -/
def Block.addressed (b : Block) (f : Flit) : Bool :=
  let own := b.qy.idValid && f.dest == b.qy.pierId
  let found := f.kind == 3 && f.dest == 0x7FFF && !b.qy.idValid && decide (b.pins.strap.toNat < 8)
    && (granByte f.g0 11).toNat == b.pins.strap.toNat
  (decide (1 ≤ f.kind.toNat) && decide (f.kind.toNat ≤ 4) && own) || found

/-- A CREDIT is well formed (R191). -/
def creditWellFormed (f : Flit) : Bool :=
  f.kind == 1 && !f.csr && f.opcode == 0x7F && f.tag == 0 && f.flow == 0 && f.offset == 0 && f.attr == 0
    && f.status == 0 && f.length == 0 && f.gvalid == 0 && f.poison == 0 && decide (f.arg.toNat < 65536) && f.rsv == 0
    && f.g0 == 0 && f.g1 == 0 && f.g2 == 0 && f.g3 == 0

/-- The stand-in's answer to a flit (R164). -/
def Block.standinAnswer (b : Block) (f : Flit) : Flit :=
  let st := if b.qyState = 1 then St.busyRetry else St.fenced
  if f.kind = 1 then
    { (b.completion f st 0 0) with opcode := f.opcode, offset := f.offset, attr := f.attr }
  else
    { kind := 4, vl := true, dest := f.src, src := b.selfId, tag := f.tag, flow := f.flow, status := BitVec.ofNat 8 st }

/-- A quay-lane flit claimed: its credit is owed to its source on that side (R191); a CREDIT flit cost none (R190). -/
def Block.oweCredit (b : Block) (sd : Side) (f : Flit) : Block :=
  if f.vl ∧ ¬ (f.kind = 1 ∧ f.opcode = 0x7F) then b.modSide sd fun x =>
    { x with owed := tset (fun _ => 0) x.owed f.src.toNat (tget (fun _ => 0) x.owed f.src.toNat + 1) }
  else b

/-- A refusal of a claimed request at level 2, with its counter (R23, R174, R193). -/
def Block.refuse (b : Block) (sd : Side) (f : Flit) (st : Nat) : Block :=
  let off := if st = St.accessDenied then Off.qyRefDeniedLo else if st = St.badParam then Off.qyRefParamLo else Off.qyRefBusyLo
  ((b.bump off).tally quayBlk 0x082 [0, st] 1).answer2 sd (b.completion f st 0 0) 0 b.qy.claimAt

/-- A refusal by an entry that names an empty key slot: its record and its alarm (R294, R304). -/
def Block.refuseEmpty (b : Block) (sd : Side) (f : Flit) (g : Nat) : Block :=
  let b := b.errRecord (reqRecord b.ck.tide f 0x06 g (chanOf g) 0xFF 0 St.accessDenied)
  (b.orReg Off.prAlarm 8).refuse sd f St.accessDenied

/-- In-band register access is admitted for a source (R172). -/
def Block.csrSourceOk (b : Block) (src : Nat) : Bool :=
  decide (b.regField Off.qyCsrSrc 0 15 ≤ src ∧ src ≤ b.regField Off.qyCsrSrc 16 15)

/-- A reserved opcode is refused: ACCESS_DENIED where the region check of OP over the granule at OFFSET fails, or the source
of a register access is not admitted, and BAD_PARAM otherwise (R169, R172, R174). -/
def Block.refuseReserved (b : Block) (sd : Side) (f : Flit) : Block :=
  if f.csr then b.refuse sd f (if b.csrSourceOk f.src.toNat then St.badParam else St.accessDenied)
  else match b.checkSpan f.src.toNat ⟨f.offset.toNat / 64 * 64, 64⟩ ⟨false, false, true⟩ with
    | .keys _ => b.refuse sd f St.badParam
    | .denied => b.refuse sd f St.accessDenied
    | .emptySlot g => b.refuseEmpty sd f g

/-- What the quay does with a claimed flit: a reserved opcode is refused at once, the rest wait for their row. -/
def Block.claimed (b : Block) (sd : Side) (f : Flit) : Block :=
  let b := { b.oweCredit sd f with qy.claimAt := b.ck.tide }
  if f.kind = 1 ∧ ¬ knownOpcode f.opcode.toNat then b.refuseReserved sd f
  else { b with qy.claimed := b.qy.claimed ++ [(sd, f)], qy.claimedAt := b.qy.claimedAt ++ [b.ck.tide] }

/-- What becomes of a good flit at the claim point (R166, R164). -/
inductive ClaimOut where
  | pass | noLane | noShare | quay | standin | overflow
  deriving DecidableEq, Repr

/-- The decision of R166, or of the stand-in while the quay is out of service (R164), which claims a CREDIT, a
COMPLETION or a RECEIPT whatever the credits and shares are. -/
def Block.claimDecision (b : Block) (sd : Side) (f : Flit) : ClaimOut :=
  if ¬ b.addressed f then .pass
  else if f.kind = 3 ∧ ¬ b.regBit Off.mfCtrl 2 then .pass
  else if ¬ b.qyUp ∧ (¬ b.regBit Off.fwCtrl 1 ∨ f.dest = 0x7FFF) then .pass
  else if ¬ b.qyUp ∧ ((f.kind = 1 ∧ f.opcode = 0x7F) ∨ f.kind = 2 ∨ f.kind = 4) then .standin
  else if b.creditUnits sd = 0 then .noLane
  else if b.shareUnits (otherSide sd) = 0 then .noShare
  else if b.qyUp then .quay
  else if (b.fw (otherSide sd)).standin.length ≥ 32 ∨ b.balance sd ≤ 0 then .overflow
  else .standin

/-- The stand-in takes a flit; a quay-lane flit's credit is owed as for the quay (R164, R191). -/
def Block.standinTakes (b : Block) (sd : Side) (f : Flit) : Block :=
  let b := b.oweCredit sd f
  if f.kind = 1 ∧ f.opcode = 0x7F then
    (if creditWellFormed f then b.addCredit sd (f.arg.toNat % 65536) else b)
  else if f.kind = 2 ∨ f.kind = 4 then b
  else b.modFw (otherSide sd) fun x => { x with standin := x.standin ++ [b.standinAnswer f] }

/-- A flit is forwarded past the insertion point (R158). -/
def Block.forward (b : Block) (sd : Side) (f : Flit) : Block :=
  (b.noteSlot (otherSide sd) false).toBuffer sd f false

/-- A good flit: claimed, used as an idle slot, or forwarded (R149, R166, R167). -/
def Block.goodFlit (b : Block) (sd : Side) (f : Flit) : Block :=
  let claim (b : Block) : Block :=
    (((b.bump (fwOff Off.fwClaimLo sd)).tally (fwBlk sd) 0x063 [0] 1).tally quayBlk 0x080 [0, 1 + sideNo sd] 1).portBytes 128 288
  let thru (b : Block) : Block := (b.noteSlot (otherSide sd) false).thruBuffer sd f false
  if f.kind = 0 then b.idleSlot sd (some f)
  else match b.claimDecision sd f with
    | .pass => thru b
    | .noLane =>
      let x := b.side sd
      if x.noLaneLogged then thru b
      else thru ((b.modSide sd fun x => { x with noLaneLogged := true }).event .quayLaneNone (sideNo sd))
    | .noShare =>
      let o := otherSide sd
      if (b.side o).noShareLogged then thru b
      else thru ((b.modSide o fun x => { x with noShareLogged := true }).event .quayShareNone (sideNo o))
    | .overflow => thru ((b.bumpW 32 (fwOff Off.fwStandinOvf sd) 1).orReg Off.fwAlarm 64)
    | .quay => ((claim b).claimed sd f).idleSlot sd none
    | .standin => ((claim b).standinTakes sd f).idleSlot sd none

/-- The direction for arrivals from a side runs: its own domain, or the other one carrying both (R27). -/
def Block.directionUp (b : Block) (_sd : Side) : Bool := b.domOn 10 || b.domOn 11

/-- `FW_LAT` follows the longest flit (R165). -/
def Block.noteLatency (b : Block) (sd : Side) (cycles : Nat) : Block :=
  let lo := match sd with | .west => 0 | .east => 16
  let v := min cycles 65535
  if b.regField Off.fwLat lo 16 < v then
    let other := b.regField Off.fwLat (16 - lo) 16
    b.setReg Off.fwLat (BitVec.ofNat 32 (v * 2 ^ lo + other * 2 ^ (16 - lo)))
  else b

/-- A flit of a direction by its class (R149).  With one fairway direction off the other carries both (R27), and each
flit counts in the set of the direction it belongs to, the off one's too (DEDUCED: R165 names the sets by direction of
travel; log 82). -/
def Block.classFlit (b : Block) (sd : Side) (f : Flit) (markedBad parityErr : Bool) : Block :=
  match classify f markedBad parityErr with
  | .bad => (b.badFlit sd).forward sd (stomp f)
  | .stomped => ((b.bump (fwOff Off.fwStompInLo sd)).tally (fwBlk sd) 0x062 [0] 1).forward sd f
  | .badInside =>
    let b := ((b.bump (fwOff Off.fwBadIntLo sd)).tally (fwBlk sd) 0x068 [0] 1).orReg Off.fwAlarm
      (match sd with | .west => 16 | .east => 32)
    (b.event .fwIntErr (sideNo sd)).forward sd (stomp f)
  | .good => b.goodFlit sd f

/-- A flit handed over as bad, its undelivered blocks as zeros (R96, R134, R152). -/
def Block.handBad (b : Block) (sd : Side) (f : Flit) (gone : List (Fin 9)) : Block :=
  b.classFlit sd (zeroBlocks f gone) true false

/-- The class of a flit as the lane layer hands it over: bad where any of its bytes lay in an uncorrectable codeword or
were not delivered (R149, R152). -/
def arrivalClass (f : Flit) (gone : List (Fin 9)) (parityErr : Bool) (cws : List Codeword) : FlitClass :=
  classify (zeroBlocks f gone) (cws.any (·.uncorrectable) || !gone.isEmpty) parityErr

/-- FLIT_ARRIVE: a whole decoded flit enters a fairway direction (R141, R149).  The lane layer marks it bad where any of
its bytes lay in an uncorrectable codeword or were not delivered (R152). -/
def Block.flitArrive (b : Block) (sd : Side) (f : Flit) (gone : List (Fin 9)) (parityErr : Bool) (cws : List Codeword)
    (cycles : Nat) : Block :=
  let s := b.side sd
  if ¬ b.carries ∨ ¬ s.receives ∨ ¬ b.directionUp sd then b
  else
    let markedBad := cws.any (·.uncorrectable) || !gone.isEmpty
    let b := cws.foldl (fun b c => b.countCodeword sd c) b
    let order := b.rxOrder sd
    let b := if f.kind = 0 ∧ ¬ markedBad then b else b.countBlocks sd order s.rxPos 0x040 0
    let b := b.modSide sd fun x => { x with rxPos := if order.isEmpty then 0 else (x.rxPos + 9) % order.length }
    (b.noteLatency sd cycles).classFlit sd (zeroBlocks f gone) markedBad parityErr

/-- The meaning of FLIT_ARRIVE; `gone` are the data blocks that the lane layer did not deliver. -/
def execFlitArrive (sd : Side) (f : Flit) (gone : List (Fin 9)) (parityErr : Bool) (cws : List Codeword) (cycles : Nat)
    (s : State) : Host.Outcome State Fault Refusal :=
  s.upd (·.flitArrive sd f gone parityErr cws cycles)

/-- HOLD in the FILL rows toward a side that runs: the other side is not in RUN, or a departure quiesces (R89, R137,
R375). -/
def Block.holdOut (b : Block) (sd : Side) : Bool :=
  (b.side sd).sends && (b.outOfRun (otherSide sd) || b.pw.depPhase == .quiesce)

/-! ### Credits and remote completions (R171, R191, R192) -/

/-- A claimed flit taken from the claimed ones; its quay in is the time it was claimed (R22), or now for one that was
not waiting. -/
def Block.takeClaimed (b : Block) (sd : Side) (f : Flit) : Block :=
  let i := b.qy.claimed.idxOf (sd, f)
  { b with qy.claimed := b.qy.claimed.erase (sd, f), qy.claimedAt := b.qy.claimedAt.eraseIdx i
           qy.claimAt := b.qy.claimedAt[i]?.getD b.ck.tide }

/-- The meaning of CREDIT (R191). -/
def execCredit (sd : Side) (f : Flit) (s : State) : Host.Outcome State Fault Refusal :=
  s.upd fun b =>
    if ¬ b.qyUp then b
    else
    let b := b.takeClaimed sd f
    if creditWellFormed f then b.addCredit sd (f.arg.toNat % 65536)
    else (b.bump Off.qyRefParamLo).tally quayBlk 0x082 [0, St.badParam] 1

/-- A flit with POISON where GVALID is 0 (R145). -/
def malformedPoison (f : Flit) : Bool := f.poison &&& ~~~ f.gvalid != 0

/-- The remote write that a claimed completion answers: one that has been sent, under its tag (R171). -/
def Block.remFor (b : Block) (f : Flit) : Option RemWrite :=
  b.qy.rems.find? fun w => w.tag == f.tag.toNat && w.sentAt.isSome

/-- The meaning of REMOTE_COMPLETION: the matching internal tag is released, or the flit is counted unknown (R171, R432); a
reserved status code counts as INTERNAL (R323).  A malformed one is refused: a completion has no answer, so the quay
discards it, and the write that it names waits on (R145; DESIGN CHOICE, log 83). -/
def execRemoteCompletion (sd : Side) (f : Flit) (s : State) : Host.Outcome State Fault Refusal :=
  s.upd fun b =>
    if ¬ b.qyUp then b
    else
    let b := b.takeClaimed sd f
    if malformedPoison f then b
    else match b.remFor f with
    | none => (b.bump Off.qyUnknownLo).orReg Off.qyAlarm 16
    | some w =>
      let b := b.remEnds w (.status (St.known f.status.toNat))
      if w.dump ∧ f.status ≠ 0 then b.dumpFail else b

/-- The meaning of CREDIT_RETURN: one CREDIT toward a source for what it is owed, while the quay or its stand-in
serves (R164, R191). -/
def execCreditReturn (sd : Side) (src : BitVec 15) (s : State) : Host.Outcome State Fault Refusal :=
  s.upd fun b =>
    let n := tget (fun _ => 0) (b.side sd).owed src.toNat
    if n = 0 ∨ ¬ (b.qyUp ∨ b.regBit Off.fwCtrl 1) then b
    else
      let k := min n 65535
      let b := b.modSide sd fun x => { x with owed := tset (fun _ => 0) x.owed src.toNat (n - k) }
      b.putIns { side := sd, level := 1, quayIn := b.ck.tide, boundNs := 0xFFFFFFFF
                 flit := { kind := 1, vl := true, opcode := 0x7F, dest := src, src := b.selfId, arg := BitVec.ofNat 32 k } }

/-- The meaning of CREDIT_STALL (R192). -/
def execCreditStall (sd : Side) (s : State) : Host.Outcome State Fault Refusal :=
  s.upd fun b =>
    match (b.side sd).lowSince with
    | some t =>
      if 4 ≤ b.creditUnits sd ∧ (b.side sd).seg = .run ∧ b.balance sd ≤ 8 ∧ 2 * usTicks ≤ b.since t then
        (b.orReg Off.qyAlarm (match sd with | .west => 1 | .east => 2)).event .quayCreditStall (sideNo sd)
      else b
    | none => b

/-- The meaning of REMOTE_WRITE_TIMEOUT: 8 µs after it was sent, a remote write without a completion ends (R171). -/
def execRemoteWriteTimeout (tag : BitVec 16) (s : State) : Host.Outcome State Fault Refusal :=
  s.upd fun b =>
    match b.qy.rems.find? fun w => w.tag == tag.toNat && w.sentAt.isSome && b.olderThan (8 * usTicks) w.sentAt with
    | some w => b.remEnds w .missing
    | none => b

end Sys2Proof.Machine
end

