-- ==== Sys2Proof/Machine/Accept.lean ====
section
/-! DEFINITION. Acceptance of requests and their ends: the region check, resources, parts on fenced or filling channels,
completions, berths that empty (R173 to R175, R181 to R185, R206, R236, R240). -/

namespace Sys2Proof.Machine

open Sys2Proof

/-! ### The region check of a request (R174, R454) -/

/-- The region check of a request: over the granule at OFFSET where a field that sets the span is malformed (R454). -/
def Block.regionCheck (b : Block) (op : Op) (f : Flit) (pl : Plan) : RegionOut :=
  if op = .fence then .keys []
  else if pl.spanBad then b.checkSpan f.src.toNat ⟨f.offset.toNat / 64 * 64, 64⟩ op.perm
  else b.checkSpans f.src.toNat pl.spans

/-- A COPY_REMOTE's destination pier, and whether a route leads there (R188). -/
def copyDest (f : Flit) : Nat := g0At f 0 8 / 2 ^ 37
def Block.copyRouted (b : Block) (f : Flit) : Bool :=
  (b.route (copyDest f)).isSome && !(b.qy.idValid && copyDest f == b.qy.pierId.toNat)

/-! ### Ends of requests -/

/-- The part still holds its ingress entry and may act. -/
def Part.open_ (p : Part) : Bool := p.stage != .done && p.stage != .withdrawn

/-- Some request has an outstanding part at a berth. -/
def Block.busyAt (b : Block) (n : Nat) : Bool := b.qy.reqs.any fun r => r.parts.any fun p => p.berth == n && p.open_

/-- Fenced berths without outstanding parts go ABSENT, and a die reset that waited for them begins (R236, R280). -/
def Block.settle (b : Block) : Block :=
  let b := b.each (List.range 64) fun b n =>
    if (b.berth n).st = .fenced ∧ ¬ b.busyAt n then b.modBerth n fun x => { x with st := .absent } else b
  match b.stk.rst with
  | .dieDrain k m =>
    if (List.range 4).all fun i => (b.berth (4 * k.val + i)).st == .absent then
      { b with stk.rst := .dieHeld k m, stk.rstAt := b.ck.tide }
    else b
  | _ => b

/-- Panic clears at berths where a charter's entries have fallen far enough, whatever the charter's state (R207). -/
def Block.clearPanic (b : Block) : Block :=
  let off := b.regField Off.chCtrl 16 6 - 8
  b.each (b.chs.tab.map (·.1)) fun b c =>
    if (b.charter c).panicAt.isEmpty then b
    else b.modCharter c fun x =>
      { x with panicAt := x.panicAt.filter fun n => decide (off < b.entries n fun r => r.cls.charter == some c) }

/-- What the end of a part at a berth brings about, beside its request's: its ingress entry is free (R207, R236, R259). -/
def Block.partEnded (b : Block) (n : Nat) : Block :=
  ((b.modChan n fun x => { x with lastBusy := b.ck.tide }).clearPanic).settle

/-- The granules that a part keeps in staging: those not yet written, and those whose WR may still have to be repeated,
for 8 nCK after it (R220, R275). -/
def Block.staging (b : Block) (p : Part) : Nat :=
  if p.granted then p.toWrite.length + p.writes.countP fun w => !p.toWrite.contains w.gran && !b.olderThan 8 w.wrAt else 0

/-- The request may use the staging kept for in-budget parts (R220). -/
def Req.inBudget (r : Req) : Bool := r.cls.charter.isSome

/-- Staging granules in use at a berth by requests that a test picks. -/
def Block.stagingUsed (b : Block) (n : Nat) (p : Req → Bool) : Nat :=
  ((b.qy.reqs.filter p).map fun r => ((r.parts.filter fun q => q.berth == n).map b.staging).sum).sum

/-- Requests with request `id`'s parts changed. -/
def Block.modReq (b : Block) (id : Nat) (f : Req → Req) : Block :=
  { b with qy.reqs := b.qy.reqs.map fun (r : Req) => if r.id = id then f r else r }

/-- Part `i` of a request changed. -/
def Req.modPart (r : Req) (i : Nat) (f : Part → Part) : Req := { r with parts := r.parts.modify i f }

/-- Request `id`. -/
def Block.req (b : Block) (id : Nat) : Option Req := b.qy.reqs.find? fun r => r.id == id

/-- A part waits for staging: its data is encoded and room is not yet granted. -/
def Part.wantsStaging (p : Part) : Bool := p.stage == .ready && !p.granted

/-- The parts of a berth that wait for staging, in their order of arrival, for one of the two groups (R220). -/
def Block.stagingQueue (b : Block) (n : Nat) (inB : Bool) : List (Nat × Nat × Nat) :=
  let all := b.qy.reqs.flatMap fun r =>
    if r.inBudget = inB then
      (List.range r.parts.length).filterMap fun i =>
        match r.parts[i]? with
        | some p => if p.berth = n ∧ p.wantsStaging then some (p.arrived.toNat, r.id, i) else none
        | none => none
    else []
  (all.mergeSort fun x y => decide (x.1 ≤ y.1)).map fun x => (x.2.1, x.2.2, x.1)

/-- Room in staging granted to waiting parts of a group, in order, until one does not fit (R220). -/
def Block.grantGroup (b : Block) (n : Nat) (inB : Bool) : Block :=
  ((b.stagingQueue n inB).foldl (fun (acc : Block × Bool) e =>
    let (b, go) := acc
    if !go then acc
    else
      let need := match (b.req e.1).bind (·.parts[e.2.1]?) with
        | some p => p.toWrite.length
        | none => 0
      let all := b.stagingUsed n fun _ => true
      let low := b.stagingUsed n fun r => !r.inBudget
      if all + need ≤ 512 ∧ (inB ∨ low + need ≤ 320) then
        (b.modReq e.1 fun r => r.modPart e.2.1 fun p => { p with granted := true }, true)
      else (b, false)) (b, true)).1

/-- Staging granted at a berth. -/
def Block.grantStaging (b : Block) (n : Nat) : Block := (b.grantGroup n true).grantGroup n false

/-- What follows a request's end at its berths: staging, panic, fenced berths, fences of its flow. -/
def Block.afterReq (b : Block) (r : Req) : Block :=
  let b := b.each (ascending (r.parts.map (·.berth))) fun b n =>
    (b.modChan n fun x => { x with lastBusy := b.ck.tide }).grantStaging n
  (b.clearPanic.settle).wakeFences

/-- A request ends with an answer at a level: it leaves its queue, and its completion waits for insertion. -/
def Block.endReq (b : Block) (r : Req) (level : Nat) (a : Answer) : Block :=
  let b := { b with qy.rems := b.qy.rems.filter fun (w : RemWrite) => w.req != r.id || w.dump }
  ((b.dropReq r.id).complete r level a).afterReq r

/-- An answer that carries a status and nothing else (R223). -/
def bare (status : Nat) (len : Nat := 0) : Answer := { status := status, len := len }

/-! ### Parts on channels that do not serve (R175, R300) -/

/-- The status of a part that cannot be served now, if any: FENCED, or NOT_READY in budget on a filling channel. -/
def Block.partBar (b : Block) (inB : Bool) (p : Part) : Option Nat :=
  match (b.berth p.berth).st with
  | .absent | .fenced => some St.fenced
  | .filling => if inB then some St.notReady else none
  | .ready | .throttled => none

/-- The level of an answer under R175: FENCED ahead of the classes (R189). -/
def barLevel (c : Cls) (st : Nat) : Nat := if st = St.fenced then 2 else clsLevel c

/-- A best-effort request with a part on a filling channel is held as a whole: none of its parts is executed until it is
known whether the fill finishes in time (R175, R300). -/
def Block.holdParts (b : Block) (ps : List Part) : List Part :=
  if ps.any fun (p : Part) => (b.berth p.berth).st == .filling then ps.map fun (p : Part) => { p with stage := .held } else ps

/-! ### The decision (R174) -/

/-- Free internal tags for `n` remote writes, sought from a point that the manual leaves open (R171, log 11). -/
def Block.freeTags (b : Block) (n : Nat) : List Nat :=
  let start := Config.tagStart b.fresh % 16384
  let held := b.qy.rems.map (·.tag)
  ((List.range 16384).map fun i => (start + i) % 16384).filter (fun t => !held.contains t) |>.take n

/-- The remote writes of a COPY_REMOTE (R171). -/
def remCount (op : Op) (f : Flit) : Nat := if op = .copyRemote then (f.length.toNat + 3) / 4 else 0

/-- Panic raised where an RT charter's entries at a berth reach PANIC_ON; a repayment pass stops (R207, R258). -/
def Block.raisePanic (b : Block) (n : Nat) (c : Cls) : Block :=
  match c with
  | .rt k =>
    let x := b.charter k
    if x.desc.isSome ∧ ¬ x.panicAt.contains n
        ∧ b.regField Off.chCtrl 16 6 ≤ b.entries n (fun r => r.cls.charter == some k) then
      let b := b.setCharter k { x with panicAt := n :: x.panicAt, panicCnt := inc32 x.panicCnt }
      (b.orReg Off.chAlarm 4).modChan n fun y => { y with repay := false, passBank := 0 }
    else b
  | _ => b

/-- An accepted request, given its class and keys (R173, R175, R211); its entries may raise panic (R207). -/
def Block.accept (b : Block) (sd : Side) (op : Op) (f : Flit) (pl : Plan) (cls : Cls) (ks : List (BitVec 512)) : Block :=
  let id := b.qy.nextId
  let ps := partsOf op pl
  let r : Req := { id := id, op := op, sd := sd, f := f, cls := cls, quayIn := b.qy.claimAt, parts := ps
                   keyR := ks.head?, keyW := if op = .copyLocal then ks[1]? else ks.head? }
  let k := remCount op f
  let ws : List RemWrite := ((b.freeTags k).zip (List.range k)).map fun e =>
    { tag := e.1, req := id, grans := min 4 (f.length.toNat - 4 * e.2) }
  let b := b.debit cls ps
  let b := { (if k = 0 then b else b.draw) with qy.nextId := id + 1, qy.reqs := b.qy.reqs ++ [r], qy.rems := b.qy.rems ++ ws }
  let b := ((b.noteTags).bump Off.qyAcceptLo).tally quayBlk 0x081 [0, cls.filter] 1
  match ps.findSome? (b.partBar cls.charter.isSome) with
  | some st => b.endReq r (barLevel cls st) (bare st)
  | none =>
    let b := b.each (ascending (ps.map (·.berth))) fun b n => b.raisePanic n cls
    (b.modReq id fun r => { r with parts := b.holdParts r.parts }).wakeFences

/-- The decision of a claimed memory request (R23, R174, R184, R188, R304). -/
def Block.decideReq (b : Block) (sd : Side) (op : Op) (f : Flit) : Block :=
  let pl := planOf op f
  match b.regionCheck op f pl with
  | .denied => b.refuse sd f St.accessDenied
  | .emptySlot g => b.refuseEmpty sd f g
  | .keys ks =>
    if pl.spanBad ∨ ¬ pl.valid ∨ (op = .copyRemote ∧ ¬ b.copyRouted f) then b.refuse sd f St.badParam
    else if b.pw.st = .departure then b.refuse sd f St.busyRetry
    else
      let ps := partsOf op pl
      let need := 1 + remCount op f
      let cls := b.classOf sd f ps need
      if cls.charter.isSome then b.accept sd op f pl cls ks
      else if ¬ b.looseTags need then (b.orReg Off.qyAlarm 32).refuse sd f St.busyRetry
      else if ¬ b.looseIngress ps then b.refuse sd f St.busyRetry
      else b.accept sd op f pl cls ks

/-- The states in which the quay decides requests (R174). -/
def Block.decides (b : Block) : Bool := b.qyUp && (b.inService || b.pw.st == .departure)

/-- A claimed memory request (R166 to R174): the flit is the row's, and the quay decides requests. -/
def Block.takeReq (b : Block) (sd : Side) (op : Op) (f : Flit) : Block :=
  if f.kind ≠ 1 ∨ f.opcode.toNat ≠ op.code ∨ ¬ b.decides then b
  else
    let b := b.takeClaimed sd f
    if f.csr then b.refuse sd f (if b.csrSourceOk f.src.toNat then St.badParam else St.accessDenied)
    else b.decideReq sd op f

/-! ### Withdrawals (R181, R206, R300) -/

/-- A read-type request has issued every part; a FENCE never issues. -/
def Req.issued (r : Req) : Bool :=
  if r.op.writes then r.committed.isSome
  else if r.op = .fence then false
  else r.parts.all fun p => p.stage == .issued || p.stage == .done

/-- The request is withdrawn and answered BUSY_RETRY at level 2. -/
def Block.withdraw (b : Block) (r : Req) : Block := b.endReq r 2 (bare St.busyRetry)

end Sys2Proof.Machine
end

