-- ==== Sys2Proof/Machine/Berths.lean ====
section
/-! DEFINITION. The parts at the berths: arrival, checking of what was read, results, the commit gate, withdrawals
(R175, R178 to R181, R185, R206, R207, R219, R220, R228, R234, R235, R287, R300). -/

namespace Sys2Proof.Machine

open Sys2Proof

/-! ### Levels, panic, order -/

/-- The level of a class at the scheduler (R249). -/
def schedLevel : Cls → Nat
  | .rt _ => 3
  | .bw _ => 4
  | .demoted _ => 5
  | .be => 6

/-- A part's level now: panic lifts the in-budget parts of an RT charter that is in panic at the berth (R207, R249), but not one
that R201 has moved to level 5 (DESIGN CHOICE: which of the two prevails is not said; log 111). -/
def Block.levelNow (b : Block) (r : Req) (p : Part) : Nat :=
  match r.cls with
  | .rt c => if p.level = 3 ∧ (b.charter c).panicAt.contains p.berth then 1 else p.level
  | _ => p.level

/-- Panic is raised now for some charter at a berth, whatever the charter's state. -/
def Block.panicAt (b : Block) (n : Nat) : Bool := b.chs.tab.any fun e => e.2.panicAt.contains n

/-- The granules that a part touches. -/
def Part.touches (p : Part) (g : Nat) : Bool := p.reads.contains g || p.toWrite.contains g || p.writes.any (·.gran == g)

/-- An earlier request of the same flow still has to act on a granule, reading or writing as `w` says of the later
one: two reads never bar each other (R178). -/
def Block.barred (b : Block) (r : Req) (g : Nat) (w : Bool) : Bool :=
  b.qy.reqs.any fun q => decide (q.id < r.id) && q.f.flow == r.f.flow && q.parts.any fun p =>
    p.open_ && p.touches g && (w || p.toWrite.contains g || p.writes.any (·.gran == g))

/-! ### Data into staging -/

/-- What the writes of a part of request `r` stage, given the granules read (R185, R232). -/
def stage (r : Req) (p : Part) (vs : Vals) : List Staged :=
  p.toWrite.map fun g =>
    { gran := g, data := modified r.op r.f g (valOf vs g), poison := storesPoison r.op r.f g, key := r.keyW }

/-- The destination granule of COPY_LOCAL for a source granule. -/
def copyTarget (f : Flit) (g : Nat) : Nat := g - f.offset.toNat / 64 + g0At f 0 8 / 64

/-- A destination part of COPY_LOCAL takes what a source part has read (R232). -/
def stageCopy (r : Req) (vs : Vals) (p : Part) : Part :=
  let new := vs.filterMap fun v =>
    let g := copyTarget r.f v.1
    if p.toWrite.contains g then some ({ gran := g, data := v.2.1, poison := false, key := r.keyW } : Staged) else none
  { p with writes := p.writes ++ new }

/-- A write part whose data is complete is encoded. -/
def Part.encoded (p : Part) : Part :=
  if p.stage = .queued ∧ p.reads = [] ∧ p.toWrite ≠ [] ∧ p.writes.length = p.toWrite.length then { p with stage := .ready }
  else p

/-! ### PART_ARRIVE (R175, R207, R249, R261, R300) -/

/-- A part takes its place at its berth.  One with no granule to read or write has nothing to issue (R179). -/
def Block.queuePart (b : Block) (r : Req) (i : Nat) (p : Part) : Block :=
  let idle := p.reads.isEmpty && p.toWrite.isEmpty
  let q : Part := { p with stage := if idle then .issued else .queued, arrived := b.ck.tide, level := schedLevel r.cls }
  let q := if r.op.writes ∧ r.op ≠ .copyLocal ∧ p.reads = [] then { q with writes := stage r q [] } else q
  let q := q.encoded
  let b := b.modReq r.id fun r => r.modPart i fun _ => q
  let b := (b.modChan p.berth fun x => { x with lastBusy := b.ck.tide }).wakeChan p.berth
  let b := b.tally p.berth 0x010 [0, r.cls.filter] 1
  b.grantStaging p.berth

/-- Parts that have issued nothing are held with the one that met a filling channel (R175). -/
def Part.heldBack (p : Part) : Part := if p.stage = .transit ∨ p.stage = .queued then { p with stage := .held } else p

/-- PART_ARRIVE: a part in transit reaches its berth. -/
def Block.partArrive (b : Block) (id i : Nat) : Block :=
  match b.req id with
  | none => b
  | some r =>
    match r.parts[i]? with
    | none => b
    | some p =>
      if p.stage ≠ .transit ∨ ¬ b.coreRuns then b
      else match b.partBar r.inBudget p with
        | some st => b.endReq r (barLevel r.cls st) (bare st)
        | none =>
          if (b.berth p.berth).st = .filling then b.modReq id fun r => { r with parts := r.parts.map Part.heldBack }
          else b.queuePart r i p

/-- The meaning of PART_ARRIVE. -/
def execPartArrive (req part : Nat) (s : State) : Host.Outcome State Fault Refusal := s.upd (·.partArrive req part)

/-! ### Results of reads (R185, R287, R301, R320, R321) -/

/-- One granule of a part read: classified, counted, decrypted. -/
def Block.readOne (b : Block) (r : Req) (n g : Nat) (syms : List Byte) : Block × (Nat × Granule × Bool) :=
  let (v, bad) := deliver (r.keyR.getD 0) g syms
  (b.noteRead n g r.op r.f (gclass syms), (g, v, bad))

/-- Every granule of a part read, in order. -/
def Block.readAll (b : Block) (r : Req) (n : Nat) : List (Nat × List Byte) → Block × Vals
  | [] => (b, [])
  | (g, syms) :: rest =>
    let (b, v) := b.readOne r n g syms
    let (b, vs) := Block.readAll b r n rest
    (b, v :: vs)

/-- A part has been served: its counters, its charter's row allowance, the longest time (R201, R241). -/
def Block.served (b : Block) (r : Req) (p : Part) (poisoned : Bool) : Block :=
  let n := p.berth
  let b := b.bump (btOff Off.btPartsLo n)
  let b := if r.op = .atomic then b.bump (btOff Off.btAtomicLo n) else b
  let b := if poisoned then ((b.bump (btOff Off.btPoisonedLo n)).orReg (btOff Off.btAlarm n) 4).tally n 0x020 [0] 1 else b
  let lat := min (b.since p.arrived) 0xFFFF
  let b := if b.regField (btOff Off.btLat n) 0 16 < lat then b.setReg (btOff Off.btLat n) (BitVec.ofNat 32 lat) else b
  match r.cls.charter with
  | none => b
  | some c =>
    b.modCharter c fun x =>
      match x.desc with
      | none => x
      | some d =>
        let run := tget (fun _ => 0) x.rowRun n + (p.reads.length + p.writes.length)
        let up := run / d.run.toNat
        { x with
          rowRun := tset (fun _ => 0) x.rowRun n (run % d.run.toNat)
          rows := tset (fun _ => 0) x.rows n (min (tget (fun _ => 0) x.rows n + up) (CharterDesc'.rowCap d)) }

/-- All that a request's parts have read, in the order of its parts. -/
def Req.vals (r : Req) : Vals := r.parts.flatMap (·.vals)

/-- Every part with something to read has read it. -/
def Req.allRead (r : Req) : Bool := r.parts.all fun p => p.reads.isEmpty || p.vals.length == p.reads.length

/-- Poison bars the request: an input granule, or one that a write-type request reads, is poisoned (R185, R234). -/
def Req.poisoned (r : Req) : Bool := inputPoisoned r.op r.f || r.vals.any (·.2.2)

/-- The remote write of up to four granules of a COPY_REMOTE (R171, R185). -/
def Block.remoteWrite (b : Block) (r : Req) (tag : Nat) (k : Nat) (vs : Vals) : Flit :=
  let a := g0At r.f 0 8 + 256 * k
  let at_ (j : Nat) : Granule :=
    match vs[j]? with
    | some v => if v.2.2 then 0 else v.2.1
    | none => 0
  let bits (p : Nat → Bool) : Nat := ((List.range 4).map fun j => if p j then 2 ^ j else 0).sum
  { kind := 1, vl := true, opcode := 0x02, dest := BitVec.ofNat 15 (copyDest r.f), src := b.selfId
    tag := BitVec.ofNat 16 tag, flow := r.f.flow, offset := BitVec.ofNat 37 a
    gvalid := BitVec.ofNat 4 (bits fun j => decide (j < vs.length))
    poison := BitVec.ofNat 4 (bits fun j => match vs[j]? with | some v => v.2.2 | none => false)
    g0 := at_ 0, g1 := at_ 1, g2 := at_ 2, g3 := at_ 3 }

/-- One remote write goes to the insertion queue, or is discarded unsent (R171, R187). -/
def Block.sendRemote (b : Block) (r : Req) (w : RemWrite) (k : Nat) (vs : Vals) : Block :=
  match b.route (copyDest r.f) with
  | none => b.remEnds w (.unsent St.badParam)
  | some sd =>
    if (b.side sd).seg ≠ .run then b.remEnds w (.unsent St.timeout)
    else b.putIns { side := sd, level := 7, flit := b.remoteWrite r w.tag k vs, quayIn := b.ck.tide, boundNs := 0xFFFFFFFF
                    remTag := some w.tag }

/-- A COPY_REMOTE has read its source: its remote writes are formed (R170, R171). -/
def Block.emitCopy (b : Block) (r : Req) : Block :=
  let ws := b.qy.rems.filter fun w => w.req == r.id && !w.dump
  let c : CopyOut :=
    { req := r.id, sd := r.sd, f := r.f, unsent := ws.length, pending := ws.length, cls := r.cls, quayIn := r.quayIn }
  let b := { (b.dropReq r.id) with qy.copies := b.qy.copies ++ [c] }
  let b := ((List.range ws.length).zip ws).foldl (fun b e => b.sendRemote r e.2 e.1 ((r.vals.drop (4 * e.1)).take 4)) b
  b.afterReq r

/-- A request whose parts may have ended: its completion, or nothing yet (R170, R180, R234, R240). -/
def Block.checkReq (b : Block) (id : Nat) : Block :=
  match b.req id with
  | none => b
  | some r =>
    if r.op.writes then
      if r.committed.isNone then
        if r.allRead ∧ r.poisoned ∧ (r.parts.all fun p => p.stage == .ready || p.stage == .done || p.reads.isEmpty) then
          let b := (r.parts.filter fun p => !p.toWrite.isEmpty).foldl (fun b p => b.served r p true) b
          b.endReq r (clsLevel r.cls) (poisonAnswer r.op r.f r.vals)
        else b
      else if r.parts.all fun p => !p.open_ then
        if r.status = 0 then b.endReq r (clsLevel r.cls) (writeAnswer r.op r.f r.vals r.written)
        else b.endReq r (clsLevel r.cls) (bare r.status.toNat r.written)
      else b
    else if (r.parts.all fun p => !p.open_) ∧ r.op ≠ .fence then
      if r.op = .copyRemote then b.emitCopy r
      else b.endReq r (clsLevel r.cls) (readAnswer r.op r.f r.vals)
    else b

/-- A part has read its last granule without an internal error. -/
def Block.partRead (b : Block) (r : Req) (i : Nat) (p : Part) (got : List (Nat × List Byte)) : Block :=
  let (b, vs) := b.readAll r p.berth got
  let vs := p.reads.filterMap fun g => vs.find? fun v => v.1 == g
  let bad := vs.any (·.2.2) && r.op != .copyRemote
  if p.toWrite.isEmpty then
    let b := b.modReq r.id fun r => r.modPart i fun p => { p with stage := .done, vals := vs, got := [], locks := [] }
    let b := (b.served r p bad).partEnded p.berth
    let b :=
      if r.op = .copyLocal then
        (b.modReq r.id fun r => { r with parts := r.parts.map fun (q : Part) => (stageCopy r vs q).encoded }).each
          (ascending (r.parts.map (·.berth))) Block.grantStaging
      else b.grantStaging p.berth
    b.checkReq r.id
  else
    let b := b.modReq r.id fun r => r.modPart i fun p =>
      { p with stage := .ready, vals := vs, got := [], writes := stage r p vs }
    (b.grantStaging p.berth).checkReq r.id

/-! ### Internal errors (R235) -/

/-- The alarm and event of R235. -/
def Block.intErr (b : Block) (n : Nat) : Block := (b.orReg (btOff Off.btAlarm n) 2).event .berthIntErr n

/-- The record of a committed part some of whose granules were written as poison: one, at the lowest (R294). -/
def Block.poisonRecord (b : Block) (r : Req) (p : Part) : Block :=
  if p.bad.isEmpty then b
  else b.errRecord (reqRecord b.ck.tide r.f 0x05 (p.bad.foldl min (granules - 1)) p.berth 0xFF 0 St.internal)

/-- A committed part that an internal error has failed: its request ends INTERNAL (R235). -/
def Block.poisonPart (b : Block) (r : Req) (i : Nat) (p : Part) : Block :=
  ((b.poisonRecord r p).modReq r.id fun r =>
    { (r.modPart i fun p => { p with stage := .done, locks := [] }) with
      status := BitVec.ofNat 8 St.internal, written := r.written + p.writes.length }).partEnded p.berth

/-- A committed part has written its last granule. -/
def Block.partWritten (b : Block) (r : Req) (i : Nat) (p : Part) : Block :=
  (b.modReq r.id fun r =>
    { (r.modPart i fun p => { p with stage := .done, locks := [] }) with written := r.written + p.writes.length }).partEnded
      p.berth

/-! ### PART_DONE -/

/-- Symbols with the damage that a read meets. -/
def damaged (dmg : List Damage) (g : Nat) (syms : List Byte) : List Byte :=
  dmg.foldl (fun s d => if d.granule = g ∧ d.symbol < 72 then flipSym s d.symbol d.value else s) syms

/-- The stored copies with the cell damage that a part's read met: only where the copy read is still stored (R289). -/
def damageCells (m : List Host.Cell) (got : List (Nat × List Byte)) (dmg : List Damage) : List Host.Cell :=
  dmg.foldl (fun m d =>
    if d.cell ∧ d.symbol < 72 ∧ (got.any fun e => e.1 == d.granule && decide (Memory.readGranule m e.1 = e.2)) then
      Memory.write m (d.granule * symsPerGranule + d.symbol)
        (Memory.read m (d.granule * symsPerGranule + d.symbol) ^^^ d.value)
    else m) m

/-- The pier's own granules with the cell damage that a part's read met: only where the copy read is still stored (R289). -/
def Block.damageOwn (b : Block) (got : List (Nat × List Byte)) (dmg : List Damage) : Block :=
  let cells := dmg.filter (·.cell)
  got.foldl (fun b e =>
    let s := damaged cells e.1 e.2
    if ownGranule e.1 ∧ s ≠ e.2 ∧ b.ownForm e.1 = e.2 then b.setOwn e.1 s else b) b

/-- The stored copies after a part's end: a read's come with the cell damage that it met (R289). -/
def Block.memAfterPart (b : Block) (m : List Host.Cell) (id i : Nat) (dmg : List Damage) : List Host.Cell :=
  match b.req id with
  | none => m
  | some r =>
    match r.parts[i]? with
    | none => m
    | some p =>
      if p.stage = .issued then damageCells m (p.got.filter fun e => !ownGranule e.1) dmg else m

/-- What PART_DONE does beside the store. -/
def Block.partDone (b : Block) (id i : Nat) (dmg : List Damage) (parityErr : Bool) : Block :=
  match b.req id with
  | none => b
  | some r =>
    match r.parts[i]? with
    | none => b
    | some p =>
      match p.stage with
      | .issued =>
        if parityErr then (b.intErr p.berth).endReq r (clsLevel r.cls) (bare St.internal)
        else (b.damageOwn p.got dmg).partRead r i p (p.got.map fun e => (e.1, damaged dmg e.1 e.2))
      | .committed =>
        if ¬ p.toWrite.isEmpty then b
        else if parityErr then (((b.served r p false).intErr p.berth).poisonPart r i p).checkReq id
        else if p.bad ≠ [] then ((b.served r p false).poisonPart r i p).checkReq id
        else ((b.served r p false).partWritten r i p).checkReq id
      | _ => b

/-- The meaning of PART_DONE. -/
def execPartDone (req part : Nat) (dmg : List Damage) (parityErr : Bool) (s : State) : Host.Outcome State Fault Refusal :=
  .next { s with mem := s.blk.memAfterPart s.mem req part dmg, blk := s.blk.partDone req part dmg parityErr }

/-! ### COMMIT_GATE (R180, R220, R235) -/

/-- Every part is ready: encoded, in staging, and barred by no earlier request. -/
def Block.gateOpen (b : Block) (r : Req) : Bool :=
  r.op.writes && r.committed.isNone && r.parts.all fun p =>
    if p.toWrite.isEmpty then p.stage == .done
    else p.stage == .ready && p.granted && p.toWrite.all fun g => !b.barred r g true

/-- COMMIT_GATE: `badPart` is a part whose staging shows a parity error; it fails the whole request (R235). -/
def Block.commitGate (b : Block) (id : Nat) (badPart : Option Nat) : Block :=
  match b.req id with
  | none => b
  | some r =>
    if ¬ b.gateOpen r ∨ ¬ b.coreRuns then b
    else match badPart.bind (r.parts[·]?) with
    | some p => (b.intErr p.berth).endReq r (clsLevel r.cls) (bare St.internal)
    | none =>
    if r.poisoned then
      let b := (r.parts.filter fun p => !p.toWrite.isEmpty).foldl (fun b p => b.served r p true) b
      b.endReq r (clsLevel r.cls) (poisonAnswer r.op r.f r.vals)
    else
      let k := b.qy.commits
      { b with qy.commits := k + 1 }.modReq id fun r =>
        { r with committed := some k
                 parts := r.parts.map fun (p : Part) => if p.toWrite.isEmpty then p else { p with stage := .committed } }

/-- The meaning of COMMIT_GATE. -/
def execCommitGate (req : Nat) (badPart : Option Nat) (s : State) : Host.Outcome State Fault Refusal :=
  s.upd (·.commitGate req badPart)

/-! ### Withdrawals -/

/-- BE_WITHDRAW: 5.2 µs after quay in (R181). -/
def Block.beWithdraw (b : Block) (id : Nat) : Block :=
  match b.req id with
  | none => b
  | some r =>
    if r.inBudget ∨ r.issued ∨ b.since r.quayIn < 8320 then b
    else (((b.bump Off.qyBeCapLo).orReg Off.qyAlarm 8).tally quayBlk 0x087 [0] 1).withdraw r

/-- The meaning of BE_WITHDRAW. -/
def execBeWithdraw (req : Nat) (s : State) : Host.Outcome State Fault Refusal := s.upd (·.beWithdraw req)

/-- The issue deadline of a class in ticks (R206). -/
def deadline : Cls → Nat
  | .rt _ => 1440
  | _ => 3840

/-- CHARTER_WITHDRAW: the class deadline after quay in (R206). -/
def Block.charterWithdraw (b : Block) (id : Nat) : Block :=
  match b.req id with
  | none => b
  | some r =>
    match r.cls.charter with
    | none => b
    | some c =>
      if r.issued ∨ b.since r.quayIn < deadline r.cls then b
      else
        let x := b.charter c
        let b := b.setCharter c { x with miss := inc32 x.miss }
        let b := b.orReg Off.chAlarm 2
        let b := if b.olderThan msTicks x.missAt then
            (b.modCharter c fun y => { y with missAt := some b.ck.tide }).event .charterMiss c
          else b
        b.withdraw r

/-- The meaning of CHARTER_WITHDRAW. -/
def execCharterWithdraw (req : Nat) (s : State) : Host.Outcome State Fault Refusal := s.upd (·.charterWithdraw req)

/-- FILL_HOLD_TIMEOUT: held for 4 µs on a filling channel (R175, R300). -/
def Block.fillHoldTimeout (b : Block) (id : Nat) : Block :=
  match b.req id with
  | none => b
  | some r =>
    if (r.parts.any fun p => p.stage == .held) ∧ 6400 ≤ b.since r.quayIn then
      b.endReq r (clsLevel r.cls) (bare St.notReady)
    else b

/-- The meaning of FILL_HOLD_TIMEOUT. -/
def execFillHoldTimeout (req : Nat) (s : State) : Host.Outcome State Fault Refusal := s.upd (·.fillHoldTimeout req)

/-- The parts of requests that no filling channel holds any more take their places (R300). -/
def Block.releaseHeld (b : Block) : Block :=
  let held := b.qy.reqs.flatMap fun r =>
    if r.parts.any fun p => (b.berth p.berth).st == .filling then []
    else (List.range r.parts.length).filterMap fun i =>
      match r.parts[i]? with
      | some p => if p.stage = .held then some (r, i, p) else none
      | none => none
  held.foldl (fun b e => b.queuePart e.1 e.2.1 e.2.2) b

end Sys2Proof.Machine
end

