-- ==== Sys2Proof/Machine/Fences.lean ====
section
/-! DEFINITION. The banks and columns of a channel, fences and their diagnosis, and what a REFab carries with it: coil
remaps and the test of the command coils (R248, R268, R273 to R279, R456). -/

namespace Sys2Proof.Machine

open Sys2Proof

/-! ### Banks -/

/-- Bank `k` of a channel. -/
def Chan.bank (x : Chan) (k : Nat) : Bank := tget (fun _ => {}) x.banks k
/-- Bank `k` changed. -/
def Chan.modBank (x : Chan) (k : Nat) (f : Bank → Bank) : Chan :=
  { x with banks := tset (fun _ => {}) x.banks k (f (x.bank k)) }

/-- Every open row closed, and what its conflicts counted forgotten: REFab, PREab and self-refresh (R248). -/
def Chan.closeRows (x : Chan) : Chan :=
  { x with banks := (List.range 32).foldl (fun (t : Tbl Bank) k =>
      tset (fun _ => {}) t k { tget (fun _ => {}) t k with row := none, used := false, hits := [] }) x.banks }

/-- A channel that goes out of the scheduler's hands: rows closed, nothing pending. -/
def Chan.quiet (x : Chan) : Chan :=
  { x.closeRows with recent := [], resume := false, replayQ := [], refDue := false, limitDue := false, pullDue := false
                     repay := false, passBank := 0, wakeDue := false }

/-- Banks with an open row. -/
def Chan.openRows (x : Chan) : Nat := (List.range 32).countP fun k => (x.bank k).row.isSome

/-! ### Columns (R265, R268, R273) -/

/-- The die of a channel (R28). -/
def dieOf (n : Nat) : Nat := n / 4

/-- The physical coil that carries logical data coil `i` of a column (R273). -/
def Column.physical (x : Column) (i : Nat) : Nat := ((List.range 76).filter fun k => !x.failed.contains k).getD i 0

/-- The physical coil that carries logical command coil `i` (R273). -/
def Column.caPhysical (x : Column) (i : Nat) : Nat := ((List.range 13).filter fun k => x.caFail != some k).getD i 0

/-- The longest round trip that a column to die k may have, in units of 10 ps (R268). -/
def flightLimit (n : Nat) : Nat := 2 * ((dieOf n + 1) * 4 + dieOf n * 14)

/-- Round trips measured by stack calibration are stored (R268). -/
def Block.measured (b : Block) (flight : List (Nat × Nat)) : Block :=
  flight.foldl (fun b e => b.modCol e.1 fun x => { x with flight := e.2 % 1024 }) b

/-- A column's round trip keeps the limit that every column that has passed keeps (R268). -/
def Block.flightOk (b : Block) (n : Nat) : Bool := decide ((b.col n).flight ≤ flightLimit n)

/-- The round trip in nCK, rounded up: what the scheduler adds to tCL and tCWL (R246, R268). -/
def Block.flightTicks (b : Block) (n : Nat) : Nat := ((b.col n).flight * 10 + 624) / 625

/-- A relay below the channel's die has failed: the die can no longer be commanded (R277). -/
def Block.cutOff (b : Block) (n : Nat) : Bool := (List.range (dieOf n)).any fun k => b.stk.relay.getLsbD k

/-- The array control of the channel's die is held in reset: it takes no command and refreshes nothing (R272, R280). -/
def Block.arrayHeld (b : Block) (n : Nat) : Bool :=
  match b.stk.rst with
  | .dieHeld k _ => k.val == dieOf n
  | .stackHeld _ => true
  | _ => false

/-! ### Fencing (R240, R278, R279) -/

/-- How long ago each column's last return-clock edge was, in units of 10 ps; a monitor declares the loss after 5 ns
(R276). -/
def edgeAge (edge : List (Nat × Nat)) (n : Nat) : Nat :=
  match edge.find? fun e => e.1 == n with
  | some e => e.2
  | none => 500

/-- A granule's last beat left the front end earlier than the column's last return-clock edge, `age` units of 10 ps ago,
less the round trip (R279). -/
def Block.beatLanded (b : Block) (age n : Nat) (t : Tide) : Bool :=
  decide ((2 * (age + (b.col n).flight) : Nat) < 125 * (b.ck.tide - t).toInt)

/-- The granules of a committed part on a fenced channel that count as unwritten: those whose WR has not issued, and those
whose last beat left too late (R279). -/
def Block.unwritten (b : Block) (age : Nat) (p : Part) : List Nat :=
  p.toWrite ++ (p.writes.filter fun w => !p.toWrite.contains w.gran && match w.lastBeat with
    | some t => !b.beatLanded age p.berth t
    | none => true).map (·.gran)

/-- What a fence does to one committed part of its channel. -/
def Block.fencePart (b : Block) (age n : Nat) (p : Part) : Part :=
  if p.berth = n ∧ (p.open_ ∨ b.unwritten age p ≠ []) then { p with stage := .done, toWrite := [], locks := [] } else p

/-- Granules of a part that the request had counted as written, or now counts. -/
def Block.fenceCount (b : Block) (age n : Nat) (p : Part) : Int :=
  if p.berth ≠ n then 0
  else
    let u : Int := (b.unwritten age p).length
    if p.open_ then p.writes.length - u else -u

/-- A fence meets one request (R240). -/
def Block.fenceReq (b : Block) (age n : Nat) (id : Nat) : Block :=
  match b.req id with
  | none => b
  | some r =>
    if r.op.writes ∧ r.committed.isSome then
      let us := r.parts.flatMap fun p => if p.berth = n then b.unwritten age p else []
      let hit := !us.isEmpty || r.parts.any fun p => p.berth == n && p.open_
      if ¬ hit then b
      else
        let ents : List FenceEnt := us.map fun g => { gran := g, src := r.f.src, tag := r.f.tag, flow := r.f.flow }
        let w : Int := (r.parts.map (b.fenceCount age n)).foldl (· + ·) r.written
        let ps := r.parts.map (b.fencePart age n)
        let b := b.modBerth n fun x => { x with fence := (x.fence ++ ents).take 512 }
        let b := b.modReq id fun r =>
          { r with parts := ps, written := w.toNat
                   status := if us.isEmpty then r.status else if r.status = 0 then BitVec.ofNat 8 St.fenced else r.status }
        b.checkReq id
    else if r.parts.any fun p => p.berth == n && p.open_ then b.endReq r (clsLevel r.cls) (bare St.fenced)
    else b

/-- A berth enters FENCED (R236, R241). -/
def Block.enterFenced (b : Block) (n : Nat) : Block :=
  (b.modBerth n fun x => { x with st := .fenced, fillDone := false }).orReg (btOff Off.btAlarm n) 1

/-- A channel fenced (R278): its bit, its berth, its requests, its charters; what it held is lost (R277).  `age` is that
of its last return-clock edge: 0 where the clock still runs. -/
def Block.fenceChan (b : Block) (age n : Nat) : Block :=
  let b := { b with stk.fence := b.stk.fence ||| chBit n }
  match (b.berth n).st with
  | .filling | .ready | .throttled =>
    let b := (b.enterFenced n).modChan n Chan.quiet
    (b.each (b.qy.reqs.map (·.id)) fun b id => b.fenceReq age n id).charterBerthLost n
  | .fenced => b.each (b.qy.reqs.map (·.id)) fun b id => b.fenceReq age n id
  | .absent => b.modBerth n fun x => { x with fillDone := false }

/-- Channels fenced together; the last one unfilled may have kept the pier from OPEN (R365). -/
def Block.fenceAll (b : Block) (age : Nat → Nat) (ns : List Nat) : Block :=
  ((b.each ns fun b n => b.fenceChan (age n) n).settle).checkOpen

/-- Channels fenced whose return clocks run on. -/
def Block.fenceRunning (b : Block) (ns : List Nat) : Block := b.fenceAll (fun _ => 0) ns

/-! ### Diagnosis (R276, R456) -/

/-- A column counts as lost: it is monitored and its return clock is lost; or its channel is OFF and every monitored
column of its die and of those above is lost. -/
def Block.countsLost (b : Block) (lost mon : Nat → Bool) (n : Nat) : Bool :=
  if (b.chan n).pwr = .off ∧ ¬ mon n then
    (List.range 64).all fun k => !mon k || decide (k < 4 * dieOf n) || lost k
  else mon n && lost n

/-- The set of lost columns classified, and the channels fenced as the table of R276 gives. -/
def Block.diagnose (b : Block) (lost mon : Nat → Bool) (age : Nat → Nat) : Block :=
  let isLost := b.countsLost lost mon
  let all := List.range 64
  if ¬ all.any fun n => mon n && lost n then b
  else if all.all isLost then ((b.orReg Off.stAlarm 4).event .stackBaseFail).fenceAll age all
  else
    match ((List.range 16).drop 1).find? fun j => all.all fun n => isLost n == decide (4 * j ≤ n) with
    | some j =>
      let b := { b with stk.relay := b.stk.relay ||| BitVec.ofNat 15 (2 ^ (j - 1)) }
      ((b.orReg Off.stAlarm 1).event .relayFail (j - 1)).fenceAll age (all.filter fun n => decide (4 * j ≤ n))
    | none =>
      let hit := all.filter fun n => mon n && lost n
      (b.each hit fun b n => (b.orReg Off.stAlarm 2).event .columnFail n).fenceAll age hit

/-- The column's return clock is monitored: not OFF, not in self-refresh (R276). -/
def Block.monitored (b : Block) (n : Nat) : Bool :=
  (b.chan n).pwr != .off && (b.chan n).pwr != .selfRefresh

/-- The column has a clock while the pier looks at all of them after an SRX: its channel is not OFF (R456). -/
def Block.clocked (b : Block) (n : Nat) : Bool := (b.chan n).pwr != .off

/-- The meaning of RETURN_CLOCK_LOST: the columns whose return clock is lost, and how long ago each had its last edge, in
units of 10 ps.  Where one of them has just been sent SRX, every column that has a clock is looked at (R276, R456). -/
def execReturnClockLost (lost : BitVec 64) (edge : List (Nat × Nat)) (s : State) : Host.Outcome State Fault Refusal :=
  s.upd fun b =>
    if ¬ b.carries then b
    else if (List.range 64).any fun n => lost.getLsbD n && (b.chan n).pwr == .exiting then
      b.diagnose lost.getLsbD b.clocked (edgeAge edge)
    else b.diagnose lost.getLsbD b.monitored (edgeAge edge)

/-! ### What goes with a REFab (R274, R275) -/

/-- Remaps that are due are made within a REFab's tRFCab (R274). -/
def Block.remapNow (b : Block) (n : Nat) : Block :=
  (b.col n).remapDue.foldl (fun b k =>
    let b := b.modCol n fun x => { x with remapDue := x.remapDue.filter (· != k), failed := ascending (k :: x.failed) }
    (b.orReg Off.stAlarm 8).event .coilRemap n [BitVec.ofNat 16 k]) b

/-- The test of a column's command coils within a REFab (R275); `faulty` is the physical coil that fails it.  A remap to the
spare is one made in operation, and raises the alarm of `ST_ALARM` (R283). -/
def Block.caTest (b : Block) (n : Nat) (faulty : Option (Fin 13)) : Block :=
  let x := b.col n
  if ¬ x.caTestDue then b
  else
    let b := b.modCol n fun x => { x with caTestDue := false }
    match faulty, x.caFail with
    | some k, none => (b.modCol n fun x => { x with caFail := some k.val }).orReg Off.stAlarm 8
    | _, _ => (b.event .caReplayLimit n).fenceRunning [n]

end Sys2Proof.Machine
end

