-- ==== Sys2Proof/Machine/Channels.lean ====
section
/-! DEFINITION. The DRAM channels: the command scheduler, refresh and self-refresh (chapter 09), command replays (R275),
the fill of a channel (R299) and the scrub of one granule (R297). -/

namespace Sys2Proof.Machine

open Sys2Proof

/-! ### Timing (R243, R246) -/

/-- Nothing that holds every command back still runs: REFab's tRFCab, and tXS. -/
def Block.chanFree (b : Block) (x : Chan) : Bool := b.olderThan 560 x.refab && b.olderThan 608 x.srx

/-- A column command's timing: tRCD, tCCD, tWTR from the last write beat of every bank, tRTW after a read. -/
def Block.colOk (b : Block) (n : Nat) (bank : Nat) (wr : Bool) : Bool :=
  let x := b.chan n
  b.chanFree x && b.olderThan 23 (x.bank bank).act
    && (match x.lastCol with
      | some (t, wasWr) => decide ((if wr && !wasWr then 6 else 2) ≤ b.since t)
      | none => true)
    && (wr || (List.range 32).all fun k =>
      b.olderThan (18 + b.flightTicks n + (if groupOf k = groupOf bank then 12 else 4)) (x.bank k).wr)

/-- ACT's timing: tRP, tRC, tRRD, tFAW, tRFCpb. -/
def Block.actOk (b : Block) (n : Nat) (bank : Nat) : Bool :=
  let x := b.chan n
  let k := x.bank bank
  b.chanFree x && b.olderThan 23 k.pre && b.olderThan 23 x.preab && b.olderThan 74 k.act && b.olderThan 208 k.refpb
    && (x.acts.all fun a => decide ((if a.2 = groupOf bank then 8 else 4) ≤ b.since a.1))
    && decide ((x.acts.countP fun a => decide (b.since a.1 < 20)) < 4)

/-- PRE's timing: tRAS, tRTP, and tWR from the last write beat. -/
def Block.preOk (b : Block) (n : Nat) (bank : Nat) : Bool :=
  let x := b.chan n
  let k := x.bank bank
  b.olderThan 608 x.srx && b.olderThan 52 k.act && b.olderThan 8 k.rd && b.olderThan (42 + b.flightTicks n) k.wr

/-- A refresh may cover a bank: an open row may be closed, tRP and tRFCpb have gone by.  The manual lets a refresh close
the row itself, so it is held to the times of a PRE and of an ACT (DEDUCED; log 91). -/
def Block.bankRests (b : Block) (n k : Nat) : Bool :=
  let y := (b.chan n).bank k
  (y.row.isNone || b.preOk n k) && b.olderThan 23 y.pre && b.olderThan 208 y.refpb

/-- REFab's timing: tRFCab, tXS, and every bank at rest. -/
def Block.refabOk (b : Block) (n : Nat) : Bool :=
  let x := b.chan n
  b.chanFree x && b.olderThan 23 x.preab && (List.range 32).all (b.bankRests n)

/-- REFpb's timing: tXS, tPBR2PBR, its bank at rest, and fewer than four banks refreshing, none of them in its group
(R258). -/
def Block.refpbOk (b : Block) (n k : Nat) : Bool :=
  let x := b.chan n
  let busy := (List.range 32).filter fun j => !b.olderThan 208 (x.bank j).refpb
  b.olderThan 608 x.srx && b.bankRests n k && decide (busy.length < 4) && busy.all (fun j => groupOf j != groupOf k)
    && (List.range 32).all fun j => b.olderThan 8 (x.bank j).refpb

/-! ### Throttling (R237, R253) -/

/-- The slot number within 8, from tide counter 0. -/
def Block.slotNo (b : Block) : Nat := b.now / 2 % 8

/-- The slots that a step skips at every level. -/
def skipped (step : Fin 8) (slot : Nat) : Bool :=
  match step with
  | 4 => slot == 7
  | 5 => slot == 3 || slot == 7
  | 6 => slot == 2 || slot == 5 || slot == 7
  | 7 => slot % 2 == 1
  | _ => false

/-- Column commands of levels 5 and 6 have this slot. -/
def lowSlot (step : Fin 8) (slot : Nat) : Bool :=
  if step = 0 then true
  else if step = 1 then slot % 4 != 3
  else if step = 2 then slot % 2 == 0
  else slot % 4 == 0

/-- The engine takes in granules of best-effort and demoted parts in this cycle: those whose tide count is a multiple of 2,
or of 4 (R237; DESIGN CHOICE: the phase is not said; log 113). -/
def Block.gateOpenNow (b : Block) (step : Fin 8) : Bool :=
  if step = 0 then true else if step = 1 then b.now % 2 == 0 else b.now % 4 == 0

/-! ### Accesses that wait at a channel -/

/-- How many writes had been committed when the part took the lock of a granule. -/
def Part.lockedAt (p : Part) (g : Nat) : Nat := tget (fun _ => 0) p.lockNo g

/-- Another read-modify-write holds the granule's lock; a write whose commit `k` is older than the lock, whose data the
lock's read has seen, is not held by it (R233). -/
def Block.lockedFor (b : Block) (id g : Nat) (k : Option Nat := none) : Bool :=
  b.qy.reqs.any fun q => decide (q.id ≠ id) && q.parts.any fun p => p.locks.contains g && match k with
    | some k => decide (p.lockedAt g ≤ k)
    | none => true

/-- A write committed earlier has not yet stored the granule (R233). -/
def Block.earlierCommit (b : Block) (k g : Nat) : Bool :=
  b.qy.reqs.any fun q => match q.committed with
    | some j => decide (j < k) && q.parts.any fun p => p.toWrite.contains g
    | none => false

/-- When an access came to wait, as its rank by age (R250): the earlier first, West before East (R233). -/
def ageOf (t : Tide) (sd : Side) (id : Nat) : Nat := (t.toNat * 2 + sideNo sd) * 2 ^ 32 + id

/-- The access of one part to one granule. -/
def Block.partAccess (b : Block) (r : Req) (i : Nat) (p : Part) (wr : Bool) (g : Nat) : Access :=
  ⟨.part r.id i, g, wr, b.levelNow r p, ageOf p.arrived r.sd r.id, r.cls.filter, p.arrived⟩

/-- The accesses of one part that are queued, whether or not something bars them now. -/
def Block.partQueued (b : Block) (r : Req) (i : Nat) (p : Part) : List Access :=
  match p.stage with
  | .queued => p.toIssue.map (b.partAccess r i p false)
  | .committed => p.toWrite.map (b.partAccess r i p true)
  | _ => []

/-- The write of commit `k` of a part waits for those committed earlier; one that holds the granule's lock, for those
committed before the lock (R233). -/
def Part.afterCommit (p : Part) (k g : Nat) : Nat := if p.locks.contains g then p.lockedAt g else k

/-- The accesses of one part that nothing bars: no lock of another, no earlier request of its flow, and for a write none
committed earlier (R178, R233). -/
def Block.partAccesses (b : Block) (r : Req) (i : Nat) (p : Part) : List Access :=
  match p.stage with
  | .queued =>
    (p.toIssue.filter fun g => !b.lockedFor r.id g && !b.barred r g (!p.toWrite.isEmpty)).map (b.partAccess r i p false)
  | .committed =>
    let k := r.committed.getD 0
    (p.toWrite.filter fun g => !b.lockedFor r.id g (some k) && !b.earlierCommit (p.afterCommit k g) g).map
      (b.partAccess r i p true)
  | _ => []

/-- Granules of one channel's fill: its harbour reserve first, then the rest ascending (R299). -/
abbrev chanGranules : Nat := 2 ^ 25
/-- Granule `i` of a channel's fill. -/
def fillGranule (n i : Nat) : Nat :=
  let q := if i < 131072 then 0x7F800 + i / 64 else (i - 131072) / 64
  chanPiece n q * 64 + i % 64

/-- The slots that a background activity may take of a channel in 1 ms (R14, R299). -/
def bgCeiling : ASrc → Nat
  | .fill => 640000
  | .scrub => 50000
  | .cal | .dump => 12500
  | _ => 0

/-- The slots that an activity has taken over the last 1 ms (R252). -/
def Block.bgUsed (b : Block) (x : Chan) (k : ASrc) : Nat :=
  ((x.bgLog.filter fun e => e.2.1 == k && decide (b.since e.1 < msTicks)).map fun e => e.2.2).sum

/-- The slots in 8 that a step skips at every level (R253). -/
def skips (step : Fin 8) : Nat := (List.range 8).countP (skipped step)

/-- The command slots of a channel that have gone: taken by a column command or a calibration, or skipped by its steps. -/
def Block.slotsGone (b : Block) (x : Chan) : Nat := x.slots + skips x.step * b.since x.stepAt / 16

/-- Background use of a channel noted. -/
def Block.noteBg (b : Block) (n : Nat) (k : ASrc) (slots : Nat) : Block :=
  b.modChan n fun x => { x with bgLog := (b.ck.tide, k, slots) :: x.bgLog.filter fun e => decide (b.since e.1 < msTicks) }

/-- The rest of an activity's work, which it has had since a moment, when `mark` slots had gone, fits in the slots that have
been left free since then, under its ceiling (R14, R252, R253). -/
def Block.bgFits (b : Block) (n : Nat) (k : ASrc) (start : Tide) (mark rest : Nat) : Bool :=
  let t := b.since start
  let x := b.chan n
  decide (2 * (rest + (b.slotsGone x - mark)) ≤ t ∧ rest + b.bgUsed x k ≤ bgCeiling k * (t / msTicks + 1))

/-- Level 7, or 6 while the activity has used less than half of its ceiling; none once the ceiling is reached (R14,
R252). -/
def bgLevel (used ceiling : Nat) : Option Nat :=
  if ceiling ≤ used then none else if 2 * used < ceiling then some 6 else some 7

/-- An access of a background activity, ranked by the moment at which it came to wait (R252). -/
def Block.bgAccess (b : Block) (x : Chan) (k : ASrc) (g : Nat) (wr : Bool) (t : Tide) : List Access :=
  match bgLevel (b.bgUsed x k) (bgCeiling k) with
  | some l => [⟨k, g, wr, l, ageOf t .west 0, 5, t⟩]
  | none => []

/-- The class of stack calibration that is due next: 1 coil timing, 2 the DRAM interface. -/
def Chan.calClass (x : Chan) : Option Nat :=
  if x.calDue.getLsbD 0 then some 1 else if x.calDue.getLsbD 1 then some 2 else none

/-- The slots of a run: 12 µs of channel time for coil timing, 14 µs for the DRAM interface (R421). -/
def calNeed (cls : Nat) : Nat := if cls = 1 then 9600 else 11200

/-- A run that failed is repeated 1 ms later (R422). -/
def Block.calWaits (b : Block) (x : Chan) (cls : Nat) : Bool :=
  tget (fun _ => 0) x.calFails cls != 0 && !b.passed msTicks x.calAt

/-- The slot that a due stack calibration asks for. -/
def Block.calAccess (b : Block) (x : Chan) : List Access :=
  match x.calClass with
  | some c => if x.calSlots < calNeed c ∧ ¬ b.calWaits x c then b.bgAccess x .cal 0 false x.calAt else []
  | none => []

/-- A scrub's next granule, unless a request holds it (R233). -/
def Block.scrubAccess (b : Block) (x : Chan) : List Access :=
  match b.prot.scrub, x.scrubNext with
  | some _, some g =>
    if b.qy.reqs.any (fun q => q.parts.any fun p => p.locks.contains g || (q.committed.isSome && p.toWrite.contains g)) then []
    else b.bgAccess x .scrub g false x.scrubAt
  | _, _ => []

/-- The granules of a local snapshot that a channel has still to write (R431). -/
def Block.dumpLeft (b : Block) (n : Nat) : List Nat :=
  if b.tl.busy && !b.tl.imageRemote then b.tl.left.filter fun g => chanOf g == n else []

/-- The next granule of a local snapshot. -/
def Block.dumpAccess (b : Block) (n : Nat) (x : Chan) : List Access :=
  match b.dumpLeft n with
  | g :: _ => b.bgAccess x .dump g true b.tl.strobe
  | [] => []

/-- The background accesses of a channel: its fill; its scrub, its calibrations and a local snapshot's granules. -/
def Block.bgAccesses (b : Block) (n : Nat) : List Access :=
  let x := b.chan n
  match (b.berth n).st with
  | .filling => if x.fillNext < chanGranules then b.bgAccess x .fill (fillGranule n x.fillNext) true x.fillAt else []
  | .ready | .throttled => b.scrubAccess x ++ b.calAccess x ++ b.dumpAccess n x
  | _ => []

/-- Something of every part at a channel. -/
def Block.partsOn (b : Block) (n : Nat) (f : Req → Nat → Part → List Access) : List Access :=
  b.qy.reqs.flatMap fun r => (List.range r.parts.length).flatMap fun i =>
    match r.parts[i]? with
    | some p => if p.berth = n then f r i p else []
    | none => []

/-- Every access that waits at a channel and that nothing bars. -/
def Block.accesses (b : Block) (n : Nat) : List Access := b.partsOn n b.partAccesses ++ b.bgAccesses n

/-- Every access of a part that is queued at a channel. -/
def Block.queuedAccesses (b : Block) (n : Nat) : List Access := b.partsOn n b.partQueued

/-! ### The choice of R250 -/

/-- An access's bank. -/
def Access.bank (a : Access) : Nat := bankOf a.gran

/-- The access hits the open row of its bank (R248). -/
def Chan.hit (x : Chan) (a : Access) : Bool := (x.bank a.bank).row == some (rowOf a.gran)

/-- The access meets another open row. -/
def Chan.conflict (x : Chan) (a : Access) : Bool := (x.bank a.bank).row.isSome && !x.hit a

/-- How many hits of its own level have been issued to a conflict's bank while it waited (R250). -/
def Block.hitsPassed (b : Block) (x : Chan) (m : Access) : Nat :=
  (x.bank m.bank).hits.countP fun h => h.2 == m.level && decide (b.since h.1 ≤ b.since m.since)

/-- Sixteen hits of some level at or above `a`'s have passed a conflict of that level in `a`'s bank (R250). -/
def Block.capped (b : Block) (x : Chan) (all : List Access) (a : Access) : Bool :=
  all.any fun m => decide (m.level ≤ a.level) && m.bank == a.bank && x.conflict m && decide (16 ≤ b.hitsPassed x m)

/-- A hit on the row that a conflict would close goes first: one of a higher level that is queued, whatever bars it; one of
the same level that can issue, until the cap of 16 (R250). -/
def Block.hitsFirst (b : Block) (x : Chan) (all queued : List Access) (a : Access) : Bool :=
  (queued.any fun m => m.bank == a.bank && x.hit m && decide (m.level < a.level))
    || (all.any fun m => m.bank == a.bank && x.hit m && m.level == a.level && decide (b.hitsPassed x a < 16))

/-- The slot is open to a column command of a level at the channel's step (R253). -/
def Block.slotOpen (b : Block) (x : Chan) (level : Nat) : Bool :=
  !skipped x.step b.slotNo && (!(level == 5 || level == 6) || lowSlot x.step b.slotNo)

/-- The engine's gate holds an access back in this cycle: one of a best-effort or demoted part (R237). -/
def Block.gateHolds (b : Block) (x : Chan) (a : Access) : Bool :=
  match a.src with
  | .part _ _ => (a.level == 5 || a.level == 6) && !b.gateOpenNow x.step
  | _ => false

/-- A column command for a hit may go out in this cycle, but for the engine's gate (R243, R246, R250, R253). -/
def Block.colReady (b : Block) (n : Nat) (all : List Access) (a : Access) : Bool :=
  let x := b.chan n
  x.hit a && b.now % 2 == 0 && b.slotOpen x a.level && b.colOk n a.bank a.wr && !b.capped x all a

/-- The command that an access needs now, if its timing is met and nothing bars it; `all` are the accesses that wait for a
row (R243, R246, R250, R253). -/
def Block.cmdFor (b : Block) (n : Nat) (all queued : List Access) (a : Access) : Option Cmd :=
  let x := b.chan n
  if a.src = .cal then (if b.now % 2 = 0 ∧ b.slotOpen x a.level ∧ b.chanFree x then some ⟨.cal, a⟩ else none)
  else if x.hit a then (if b.colReady n all a ∧ ¬ b.gateHolds x a then some ⟨.col, a⟩ else none)
  else if b.now % 2 = 0 then none
  else if (x.bank a.bank).row.isSome then
    if b.preOk n a.bank ∧ ¬ b.hitsFirst x all queued a then some ⟨.pre, a⟩
    else none
  else if ¬ skipped x.step b.slotNo ∧ b.actOk n a.bank then some ⟨.act, a⟩ else none

/-- The engine's gate holds some granule back in this cycle that nothing else bars: a cycle lost to it (DEDUCED: the engine
takes granules in by its own cycle, whatever slot the channel has for their commands; log 113). -/
def Block.gatedNow (b : Block) (n : Nat) : Bool := (b.accesses n).any (b.gateHolds (b.chan n))

/-! ### Refresh commands as candidates (R249, R256 to R258) -/

/-- Some part waits at or is on its way through a channel. -/
def Block.partsAt (b : Block) (n : Nat) : Bool :=
  b.qy.reqs.any fun r => r.parts.any fun p => p.berth == n && p.open_ && p.stage != .transit

/-- The tick interval in ticks of the tide (R246, R255). -/
def Block.refi (b : Block) (n : Nat) : Nat := if (b.chan n).hot then 3120 else 6240

/-- The doubled rate begins: the next tick falls at the earlier of its scheduled time and 1,950 ns after the one before
(R255). -/
def Chan.enterHot (x : Chan) : Chan := if x.hot then x else { x with hot := true, tickIn := min x.tickIn 3120 }

/-- The conditions of a pull-in (R257). -/
def Block.pullOk (b : Block) (n : Nat) : Bool :=
  let x := b.chan n
  x.owed == 0 && !x.pulled && decide (4 * x.tickIn ≤ 4 * b.since x.lastTick + b.refi n) && !b.partsAt n
    && b.regBit (dcOff Off.dcChCtrl n) 1

/-- What stands for the access of a refresh command. -/
def refAccess (level : Nat) : Access := ⟨.refresh, 0, false, level, 0, 0, 0⟩

/-- The refresh commands that may go out now: the limit refresh ahead of every level, a tick's REFab and a pass's REFpb at
level 2, a pull-in at level 7. -/
def Block.refreshCmds (b : Block) (n : Nat) : List Cmd :=
  let x := b.chan n
  if b.now % 2 = 0 then []
  else
    let all (l : Nat) (p : Bool) : List Cmd := if p && b.refabOk n then [⟨.refab, refAccess l⟩] else []
    all 0 x.limitDue ++ all 2 x.refDue ++ all 7 (x.pullDue && b.pullOk n)
      ++ if x.repay && decide (x.passBank < 32) && !b.panicAt n && b.refpbOk n x.passBank then [⟨.refpb, refAccess 2⟩] else []

/-- Which of two commands goes first: the higher level, a hit before a miss, the older (R250). -/
def Cmd.before (x y : Cmd) : Bool :=
  let rank (c : Cmd) : Nat := if c.kind = .col ∨ c.kind = .cal then 0 else 1
  if x.acc.level ≠ y.acc.level then decide (x.acc.level < y.acc.level)
  else if rank x ≠ rank y then decide (rank x < rank y)
  else decide (x.acc.age < y.acc.age)

/-- The first of a list of commands. -/
def firstCmd : List Cmd → Option Cmd
  | [] => none
  | c :: cs => some (cs.foldl (fun m x => if x.before m then x else m) c)

/-- In-budget parts that need a row while their charter's allowance is 0 go to level 5 (R201). -/
def Block.demoteRowless (b : Block) (n : Nat) : Block :=
  let x := b.chan n
  b.qy.reqs.foldl (fun b r =>
    match r.cls.charter with
    | none => b
    | some c =>
      if tget (fun _ => 0) (b.charter c).rows n ≠ 0 then b
      else (List.range r.parts.length).foldl (fun b i =>
        match r.parts[i]? with
        | none => b
        | some p =>
          if p.berth = n ∧ p.level < 5 ∧ (b.partAccesses r i p).any (fun a => !x.hit a) then
            let b := b.modReq r.id fun r => r.modPart i fun p => { p with level := 5 }
            (b.modCharter c fun y => { y with runv := inc32 y.runv }).orReg Off.chAlarm 8
          else b) b) b

/-- A command that is sent again may go out now: in order, under R246 (R275), and a RD, WR or ACT in no slot that the step
skips (R253). -/
def Block.replayOk (b : Block) (n : Nat) (c : Cmd) : Bool :=
  let x := b.chan n
  let odd := b.now % 2 == 1
  match c.kind with
  | .col => !odd && b.slotOpen x c.acc.level && b.colOk n c.acc.bank c.acc.wr
  | .cal => !odd && b.slotOpen x c.acc.level
  | .act => odd && !skipped x.step b.slotNo && b.actOk n c.acc.bank
  | .pre => odd && b.preOk n c.acc.bank
  | .refab => odd && b.refabOk n
  | .refpb => odd && b.refpbOk n (b.chan n).passBank
  | .resume => true

/-- The command that issues at a channel in this cycle, if its one command has not gone out yet (R243): RESUME and the
commands of a replay ahead of all else (R275), then the choice of R250. -/
def Block.choose (b : Block) (n : Nat) : Option Cmd :=
  let x := b.chan n
  if x.lastCmd = some b.ck.tide then none
  else if x.resume then some ⟨.resume, refAccess 0⟩
  else match x.replayQ with
    | c :: _ => if b.replayOk n c then some c else none
    | [] =>
      let all := b.accesses n
      let rows := all.filter fun a => a.src != .cal
      firstCmd (b.refreshCmds n ++ all.filterMap (b.cmdFor n rows (b.queuedAccesses n)))

/-! ### Issue -/

/-- The hits on an open row that R250 counts, with one more: the latest 16 of each level. -/
def noteHit (hs : List (Tide × Nat)) (now : Tide) (level : Nat) : List (Tide × Nat) :=
  (now, level) :: ((hs.filter fun h => h.2 == level).take 15 ++ hs.filter fun h => h.2 != level)

/-- What a bank and channel note of a command. -/
def Chan.noteKind (x : Chan) (now : Tide) (c : Cmd) : Chan :=
  let k := c.acc.bank
  match c.kind with
  | .act =>
    { (x.modBank k fun b => { b with row := some (rowOf c.acc.gran), used := false, act := some now, hits := [] }) with
      acts := ((now, groupOf k) :: x.acts).take 8, nAct := x.nAct + 1, lastBusy := now }
  | .pre => { (x.modBank k fun b => { b with row := none, used := false, pre := some now, hits := [] }) with lastBusy := now }
  | .col =>
    { (x.modBank k fun b =>
        { b with
          used := true
          rd := if c.acc.wr then b.rd else some now
          wr := if c.acc.wr then some now else b.wr
          hits := noteHit b.hits now c.acc.level }) with
      lastCol := some (now, c.acc.wr), lastBusy := now, slots := x.slots + 1
      nRd := x.nRd + (if c.acc.wr then 0 else 1), nWr := x.nWr + (if c.acc.wr then 1 else 0) }
  | .refab => { x.closeRows with refab := some now, nRefab := x.nRefab + 1 }
  | .refpb =>
    { (x.modBank x.passBank fun b => { b with row := none, used := false, refpb := some now, hits := [] }) with
      passBank := x.passBank + 1, nRefpb := x.nRefpb + 1 }
  | .cal => { x with calSlots := x.calSlots + 1, slots := x.slots + 1, lastBusy := now }
  | .resume => x

/-- A command goes out: its cycle is taken, and it is remembered for 8 nCK with what stood before it (R243, R275). -/
def Chan.noteCmd (x : Chan) (now : Tide) (c : Cmd) : Chan :=
  let old : ChanHist := { banks := x.banks, acts := x.acts, lastCol := x.lastCol, refab := x.refab }
  { x.noteKind now c with
    lastCmd := some now
    recent := (if c.kind = .resume then [] else [(now, c, old)]) ++ x.recent.filter fun e => decide ((now - e.1).toNat ≤ 8)
    resume := false
    replayQ := if c.kind = .resume then x.replayQ else x.replayQ.tail }

/-- The block's part of a REFab that has issued: which refresh it was, and what goes with it (R256, R257, R274, R275). -/
def Block.refabDone (b : Block) (n level : Nat) (faulty : Option (Fin 13)) : Block :=
  let b := b.modChan n fun x =>
    match level with
    | 0 => { x with limitDue := false }
    | 2 => { x with refDue := false }
    | _ => { x with pullDue := false, pulled := true }
  (((b.tally n 0x016 [0] 1).remapNow n).caTest n faulty)

/-- What a read sees of a granule: committed data still in staging, or the stored copy (R233). -/
def Block.seen (b : Block) (m : List Host.Cell) (g : Nat) : List Byte :=
  let ws := b.qy.reqs.filterMap fun q => match q.committed with
    | some k => (q.parts.findSome? fun p => if p.toWrite.contains g then p.writes.find? fun w => w.gran == g else none).map
        fun w => (k, w)
    | none => none
  match ws with
  | [] => Memory.readGranule m g
  | w :: rest => ((rest.foldl (fun (x : Nat × Staged) y => if x.1 < y.1 then y else x) w).2).form

/-- A read-modify-write locks the granules it reads (R233). -/
def locksAtRead (op : Op) : Bool := op == .atomic || op == .writeBytes || op == .scatter

/-- A part's RD after `k` commits: the symbols are taken, and the part is issued with its last one. -/
def readPart (op : Op) (k g : Nat) (syms : List Byte) (p : Part) : Part :=
  let left := p.toIssue.filter (· != g)
  { p with
    toIssue := left, got := p.got ++ [(g, syms)]
    locks := if locksAtRead op then g :: p.locks else p.locks
    lockNo := if locksAtRead op then tset (fun _ => 0) p.lockNo g k else p.lockNo
    stage := if left.isEmpty then .issued else p.stage }

/-- A part's WR: the granule is on its way to the channel, and its lock falls; `fl` is the column's flight in nCK, which
the scheduler adds to tCWL (R246). -/
def writePart (g : Nat) (now : Tide) (fl : Nat) (p : Part) : Part :=
  { p with
    toWrite := p.toWrite.filter (· != g), locks := p.locks.filter (· != g)
    writes := p.writes.map fun (w : Staged) =>
      if w.gran = g then { w with wrAt := some now, lastBeat := some (now + BitVec.ofNat 64 (18 + fl)) } else w }

/-- The staging of the granule that a WR takes shows a parity error: it is written as poison, and its part has failed
(R235; that it alone is affected is DEDUCED: log 120). -/
def Block.spoil (b : Block) (n id i g : Nat) : Block :=
  let b := (b.orReg (btOff Off.btAlarm n) 2).event .berthIntErr n
  b.modReq id fun r => r.modPart i fun p =>
    { p with
      bad := g :: p.bad
      writes := p.writes.map fun (w : Staged) => if w.gran = g then { w with poison := true } else w }

/-- A READ of a slot's first granule marks a DONE receipt READ_AGAIN, once it has its content (R321). -/
def Block.markRead (b : Block) (g : Nat) : Block :=
  let x := b.slot (slotOf g)
  if slotGranule g ∧ g % 16 = 0 ∧ x.st = .done ∧ ¬ x.readAgain then b.setSlot (slotOf g) x.marked else b

/-- Tallies and counters of a column command. -/
def Block.countCol (b : Block) (n : Nat) (a : Access) (wasHit : Bool) : Block :=
  let b := if wasHit then (b.bump (dcOff Off.dcHitLo n)).tally n 0x014 [0, a.filter] 1 else b
  let b := b.bump (btOff (if a.wr then Off.btWrGranLo else Off.btRdGranLo) n)
  (b.tally n (if a.wr then 0x012 else 0x011) [0, a.filter] 1).portBytes (64 + n) 64

/-! ### Scrub of one granule (R297) -/

/-- The lowest sixteen of a list of offsets, ascending (R298). -/
def addLow (xs : List Nat) (a : Nat) : List Nat := (ascending (a :: xs)).take 16

/-- The action of R297 on a granule's symbols: what is written back, and the summary. -/
def scrubStep (sc : Scrub) (g : Nat) (syms : List Byte) : Option (List Byte) × Scrub :=
  let c := gclass syms
  let a := g * 64
  let sc := { sc with read := sc.read + 1 }
  let fixed (sc : Scrub) : Option (List Byte) × Scrub :=
    let sc := { sc with corrected := sc.corrected + 1, cAddrs := addLow sc.cAddrs a }
    if sc.writeback then (some (corrected syms c), { sc with written := sc.written + 1 }) else (none, sc)
  match c with
  | .ordinary none => (none, sc)
  | .zero none => (none, sc)
  | .poison none => (none, { sc with poisoned := sc.poisoned + 1, pAddrs := addLow sc.pAddrs a })
  | .poison (some _) => fixed { sc with poisoned := sc.poisoned + 1, pAddrs := addLow sc.pAddrs a }
  | .ordinary (some _) => fixed sc
  | .zero (some _) => fixed sc
  | .bad =>
    let sc := { sc with ue := sc.ue + 1, uAddrs := addLow sc.uAddrs a }
    if sc.poisonUe then (some poisonForm, { sc with converted := sc.converted + 1 }) else (none, sc)

/-- One granule scrubbed, a user's or the pier's own: the store, with the cell damage that the read met, and the block's notes (R287, R289, R297). -/
def scrubOne (m : List Host.Cell) (b : Block) (sc : Scrub) (n g : Nat) (dmg : List Damage) : List Host.Cell × Block :=
  let here := dmg.filter fun d => d.granule == g
  let own := ownGranule g
  let stored := if own then b.ownForm g else Memory.readGranule m g
  let syms := damaged here g stored
  let m := if own then m else damageCells m [(g, stored)] here
  let b := if own then b.damageOwn [(g, stored)] here else b
  let (w, sc') := scrubStep sc g syms
  let (b, count, coil) := b.noteScrub n g (gclass syms)
  let b := { b with prot.scrub := some sc' }
  match w with
  | none => (m, b)
  | some f =>
    let bad := gclass syms = .bad
    let b := b.noteStore n g bad
    let b := if bad then
        b.errRecord { tide := b.ck.tide, offset := g * 64, kind := 0x04, berth := n, coil := coil, count := count, src := 0x7FFF
                      tag := 0, flow := 0, status := 0 }
      else b
    if own then (m, b.scrubOwn g f) else (Memory.writeGranule m g f, b)

/-- The next granule of a channel after `g` in a scrub's range. -/
def nextOnChan (n last : Nat) (g : Nat) : Option Nat :=
  let h := if g % 64 < 63 then g + 1 else chanPiece n (pieceOf g / 64 + 1) * 64
  if h ≤ last ∧ h < granules then some h else none

/-! ### COMMAND_ISSUE -/

/-- Bytes written into the dump area. -/
def dumpWrite (t : Tbl Byte) (a : Nat) : List Byte → Tbl Byte
  | [] => t
  | v :: vs => dumpWrite (tset (fun _ => 0) t a v) (a + 1) vs

/-- A granule of a local snapshot written into the ring (R431). -/
def Block.dumpGranule (b : Block) (g : Nat) : Block :=
  { b.wroteOwn g with
    tl.dump := dumpWrite b.tl.dump (g * 64 - dumpBase) ((b.tl.image.drop (g * 64 - b.tl.imageAt)).take 64)
    tl.left := b.tl.left.filter (· != g) }

/-- A column command carried out, on the store and the block; `parityErr` is an error that a WR meets in staging. -/
def runCol (m : List Host.Cell) (b : Block) (n : Nat) (a : Access) (dmg : List Damage) (parityErr : Bool) :
    List Host.Cell × Block :=
  match a.src with
  | .part id i =>
    if a.wr then
      match (b.req id).bind (fun r => (r.parts[i]?).bind fun p => p.writes.find? fun w => w.gran == a.gran) with
      | none => (m, b)
      | some w =>
        let w := { w with poison := w.poison || parityErr }
        let b := b.noteStore n a.gran w.poison
        let b := if parityErr then b.spoil n id i a.gran else b
        let b := b.modReq id fun r => r.modPart i (writePart a.gran b.ck.tide (b.flightTicks n))
        (Memory.writeGranule m a.gran w.form, b)
    else
      let syms := if ownGranule a.gran then b.ownForm a.gran else b.seen m a.gran
      (m, (b.modReq id fun r => r.modPart i (readPart r.op b.qy.commits a.gran syms)).markRead a.gran)
  | .fill =>
    let b := (b.modChan n fun x =>
        { x with fillNext := x.fillNext + 1, fillAt := b.ck.tide, fillMark := b.slotsGone x }).modBerth n fun x =>
      { x with fillGran := x.fillGran + 1 }
    (Memory.writeGranule m a.gran zeroForm, ((b.noteBg n .fill 1).forget n a.gran).filledOwn a.gran)
  | .scrub =>
    match b.prot.scrub with
    | none => (m, b)
    | some sc =>
      let (m, b) := scrubOne m b sc n a.gran dmg
      (m, (b.modChan n fun x =>
        { x with scrubNext := nextOnChan n sc.last a.gran, scrubAt := b.ck.tide, scrubMark := b.slotsGone x }).noteBg n .scrub 1)
  | .dump => (m, (b.dumpGranule a.gran).noteBg n .dump 1)
  | _ => (m, b)

/-- An ACT carried out: counted, charged to the background activity it is for, or taking one of the rows of the charter
whose in-budget part it is for, at whatever level (R201, R252). -/
def Block.actDone (b : Block) (n : Nat) (a : Access) : Block :=
  let b := (b.bump (dcOff Off.dcActLo n)).tally n 0x013 [0, a.filter] 1
  match a.src with
  | .part id _ =>
    match (b.req id).bind fun r => r.cls.charter with
    | some k => b.modCharter k fun y => { y with rows := tset (fun _ => 0) y.rows n (tget (fun _ => 0) y.rows n - 1) }
    | none => b
  | k => b.noteBg n k 37

/-- A command sent again: the scheduler's counts of commands, and for a WR its new last beat (R254, R275).  An ACT counts
once more in DC_ACT, a column hit not once more in DC_HIT (DESIGN CHOICE: R264 does not say; log 118). -/
def Block.sentAgain (b : Block) (n : Nat) (c : Cmd) : Block :=
  match c.kind, c.acc.src with
  | .col, .part id i =>
    if c.acc.wr then b.modReq id fun r => r.modPart i (writePart c.acc.gran b.ck.tide (b.flightTicks n)) else b
  | .act, _ => b.bump (dcOff Off.dcActLo n)
  | _, _ => b

/-- A command issued at a channel. -/
def runCmd (m : List Host.Cell) (b : Block) (n : Nat) (c : Cmd) (dmg : List Damage) (faulty : Option (Fin 13))
    (parityErr : Bool) : List Host.Cell × Block :=
  let x := b.chan n
  let wasHit := (x.bank c.acc.bank).used
  let b := b.setChan n (x.noteCmd b.ck.tide c)
  if ¬ x.replayQ.isEmpty ∧ ¬ x.resume then (m, b.sentAgain n c)
  else match c.kind with
    | .act => (m, b.actDone n c.acc)
    | .pre => (m, b.tally n 0x015 [0, c.acc.filter] 1)
    | .col => runCol m (b.countCol n c.acc wasHit) n c.acc dmg parityErr
    | .refab => (m, b.refabDone n c.acc.level faulty)
    | .refpb => (m, b.tally n 0x017 [0] 1)
    | .cal => (m, b.noteBg n .cal 1)
    | .resume => (m, b)

/-- Commands reach the channel's die: the core is clocked, every relay below works, its array control is not in reset
(R261, R272, R277). -/
def Block.reaches (b : Block) (n : Nat) : Bool := b.carries && !b.arrayHeld n && !b.cutOff n

/-- The channel takes commands: AWAKE, and they reach its die. -/
def Block.chanServes (b : Block) (n : Nat) : Bool := (b.chan n).pwr == .awake && b.reaches n

/-- A channel's queue as the scheduler finds it in a cycle: staging given out, in-budget parts without a row allowance
moved to level 5 (R201, R233). -/
def Block.atCycle (b : Block) (n : Nat) : Block := (b.grantStaging n).demoteRowless n

/-- The meaning of COMMAND_ISSUE, one CLK_CORE cycle of the scheduler: the highest-level command whose timing is met; a
granule that does not exist is a fault (R15).  `dmg` is the damage that a scrub's read meets, `faultyCa` what a test of the
command coils within a REFab finds, `parityErr` says that a WR's granule shows a parity error in staging. -/
def execCommandIssue (ch : ChId) (dmg : List Damage) (faultyCa : Option (Fin 13)) (parityErr : Bool) (s : State) :
    Host.Outcome State Fault Refusal :=
  let b := s.blk
  if ¬ b.chanServes ch then .next s
  else
    let b := b.atCycle ch
    match b.choose ch with
    | none => .next { s with blk := b }
    | some c =>
      if granules ≤ c.acc.gran then .fault .noSuchGranule
      else
        let r := runCmd s.mem b ch c dmg faultyCa parityErr
        .next { s with mem := r.1, blk := r.2 }

/-- Granules that a background activity reads or writes in one go: their commands count as if each had issued alone, a row
opened for every 32, and the channel was busy till now (R241, R254, R259, R264). -/
def Block.countBulk (b : Block) (n : Nat) (wr : Bool) (k : Nat) : Block :=
  let rows := (k + 31) / 32
  let b := b.modChan n fun x =>
    { x with nAct := x.nAct + rows, nRd := x.nRd + (if wr then 0 else k), nWr := x.nWr + (if wr then k else 0)
             slots := x.slots + k, lastBusy := if k = 0 then x.lastBusy else b.ck.tide }
  let b := (b.bump (dcOff Off.dcActLo n) rows).tally n 0x013 [0, 5] rows
  let b := (b.bump (dcOff Off.dcHitLo n) (k - rows)).tally n 0x014 [0, 5] (k - rows)
  ((b.bump (btOff (if wr then Off.btWrGranLo else Off.btRdGranLo) n) k).tally n (if wr then 0x012 else 0x011) [0, 5] k).portBytes
    (64 + n) (64 * k)

/-! ### The fill's end (R236, R299, R300) -/

/-- A berth enters service: READY, or THROTTLED under a step (R236). -/
def Block.berthReady (b : Block) (n : Nat) : Block :=
  b.modBerth n fun x => { x with st := if (b.chan n).step = 0 then .ready else .throttled }

/-- Every granule of a channel in the zero form: nothing of it is listed. -/
def clearChannel (m : List Host.Cell) (n : Nat) : List Host.Cell :=
  m.filter fun e => chanOf (e.1 / symsPerGranule) != n

/-- CHANNEL_FILL_DONE: the berth leaves FILLING and held parts are served; the pier may go on toward OPEN (R365).  What
the fill has not yet written it has written by now: the commands count.  A dump ring's granules there are zero again. -/
def Block.fillDone (b : Block) (n : Nat) : Block :=
  let b := b.countBulk n true (chanGranules - (b.chan n).fillNext)
  let b := { b with tl.dump := b.tl.dump.filter fun e => chanOf ((dumpBase + e.1) / 64) != n }
  let b := b.modChan n fun x => { x with fillNext := chanGranules }
  let b := b.modBerth n fun x => { x with fillGran := chanGranules, fillDone := true, rep := [], ueList := [] }
  ((b.filledOwns n).berthReady n).releaseHeld

/-- The rest of a channel's fill fits in the time since its last granule, under its ceiling (R299). -/
def Block.fillFits (b : Block) (n : Nat) : Bool :=
  b.bgFits n .fill (b.chan n).fillAt (b.chan n).fillMark (chanGranules - (b.chan n).fillNext)

/-- The meaning of CHANNEL_FILL_DONE. -/
def execChannelFillDone (ch : ChId) (s : State) : Host.Outcome State Fault Refusal :=
  if (s.blk.berth ch).st = .filling ∧ s.blk.coreRuns ∧ s.blk.fillFits ch then
    .next { s with mem := clearChannel s.mem ch, blk := (s.blk.fillDone ch).checkOpen }
  else .next s

/-! ### Self-refresh (R259 to R263) -/

/-- PREab and SRE issue, by the idle timer or by force: every row closes, the channel is ENTERING (R260, R263). -/
def Block.beginSleep (b : Block) (n : Nat) (forced : Bool) : Block :=
  (b.setChan n (b.enterSleep (b.chan n).closeRows forced)).bump (dcOff Off.dcSrEntryLo n)

/-- PREab may issue with SRE tRP after it: tRFCab and tXS have gone by, and every open row may be closed (R246). -/
def Block.sleepOk (b : Block) (n : Nat) : Bool :=
  let x := b.chan n
  b.chanFree x && (List.range 32).all fun k => (x.bank k).row.isNone || b.preOk n k

/-- SR_IDLE_TIMER (R205, R259, R260): no part and no background command has been queued, held or in flight for the idle
time; a refresh or calibration that is due counts as one. -/
def Block.srIdle (b : Block) (n : Nat) : Block :=
  let x := b.chan n
  let st := (b.berth n).st
  let idle := min (max (b.regField Off.dcCtrl 8 14) 1) 10000
  if x.pwr = .awake ∧ b.coreRuns ∧ (st = .ready ∨ st = .throttled) ∧ b.regBit (dcOff Off.dcChCtrl n) 0 ∧ ¬ b.pinned n
      ∧ x.owed = 0 ∧ ¬ x.refDue ∧ x.calDue = 0 ∧ ¬ b.partsAt n ∧ (b.prot.scrub.isNone ∨ x.scrubNext.isNone) ∧ b.dumpLeft n = []
      ∧ x.replayQ.isEmpty ∧ ¬ x.resume ∧ idle * usTicks ≤ b.since x.lastBusy ∧ b.sleepOk n then
    b.beginSleep n false
  else b

/-- The meaning of SR_IDLE_TIMER. -/
def execSrIdleTimer (ch : ChId) (s : State) : Host.Outcome State Fault Refusal := s.upd (·.srIdle ch)

/-- Something waits for a channel that is entering self-refresh: a part, a background command, a charter (R261, R262). -/
def Block.wanted (b : Block) (n : Nat) : Bool :=
  (b.chan n).wakeDue || b.partsAt n || b.chs.waking.any fun w =>
    match (b.charter w.1).desc with
    | some d => CharterDesc'.names d n
    | none => false

/-- SR_ENTRY_DONE: entry completes once SRE has issued in its own cycle, tRP after the PREab; what was held gets SRX in the
next row-command cycle (R260 to R262). -/
def Block.srEntry (b : Block) (n : Nat) : Block :=
  let x := b.chan n
  if x.pwr ≠ .entering ∨ ¬ (x.sre.all (b.passed 1)) then b
  else if b.wanted n ∧ ¬ x.forced then b.setChan n (b.sendSrx x)
  else b.setChan n { x with pwr := .selfRefresh }

/-- The meaning of SR_ENTRY_DONE. -/
def execSrEntryDone (ch : ChId) (s : State) : Host.Outcome State Fault Refusal := s.upd (·.srEntry ch)

/-! ### Refresh (R255 to R258) -/

/-- What a tick asks for (R256).  A REFab of the tick before that has not issued yet becomes one more that is owed (DEDUCED:
OWED counts the ticks not made good, and no REFab issues while it is above 0; log 92). -/
def Block.tickFalls (b : Block) (n : Nat) : Block :=
  let x := b.chan n
  let x := { x with lastTick := x.lastTick + BitVec.ofNat 64 x.tickIn, tickIn := b.refi n, pullDue := false }
  let more := if x.refDue then 2 else 1
  if x.pulled then b.setChan n { x with pulled := false }
  else if 8 ≤ x.owed then ((b.setChan n { x with limitDue := true }).orReg Off.dcAlarm 1).event .refLimit n
  else if b.panicAt n then
    (b.setChan n { x with owed := min 8 (x.owed + more), refDue := false }).bump (dcOff Off.dcRefPostLo n)
  else if x.owed = 0 ∧ ¬ x.refDue then b.setChan n { x with refDue := true }
  else b.setChan n { x with owed := min 8 (x.owed + more), refDue := false }

/-- A REFab that is due goes out in this cycle, where it is the scheduler's choice. -/
def Block.tryRefab (b : Block) (n : Nat) (faulty : Option (Fin 13)) : Block :=
  match b.choose n with
  | some c =>
    if c.kind = .refab ∧ (b.chan n).replayQ.isEmpty then
      (b.setChan n ((b.chan n).noteCmd b.ck.tide c)).refabDone n c.acc.level faulty
    else b
  | none => b

/-- REFRESH_TICK: a tick falls one interval after the tick before, not earlier (R247, R255, R256). -/
def Block.refreshTick (b : Block) (n : Nat) (faulty : Option (Fin 13)) : Block :=
  let x := b.chan n
  if ¬ b.chanServes n ∨ ¬ b.passed x.tickIn x.lastTick then b else (b.tickFalls n).tryRefab n faulty

/-- The meaning of REFRESH_TICK. -/
def execRefreshTick (ch : ChId) (faultyCa : Option (Fin 13)) (s : State) : Host.Outcome State Fault Refusal :=
  s.upd (·.refreshTick ch faultyCa)

/-- REFRESH_PULL_IN (R257): the REFab is asked for at level 7, and sets PULLED when it issues. -/
def Block.pullIn (b : Block) (n : Nat) (faulty : Option (Fin 13)) : Block :=
  if b.chanServes n ∧ b.pullOk n ∧ ¬ (b.chan n).refDue then
    (b.modChan n fun x => { x with pullDue := true }).tryRefab n faulty
  else b

/-- The meaning of REFRESH_PULL_IN. -/
def execRefreshPullIn (ch : ChId) (faultyCa : Option (Fin 13)) (s : State) : Host.Outcome State Fault Refusal :=
  s.upd (·.pullIn ch faultyCa)

/-- Every bank of a pass has had its REFpb, and the last of them has completed. -/
def Block.passComplete (b : Block) (n : Nat) : Bool :=
  let x := b.chan n
  x.repay && x.passBank == 32 && (List.range 32).all fun k => b.olderThan 208 (x.bank k).refpb

/-- REFPB_PASS: a repayment pass starts, or the one in progress completes; its REFpb issue as commands (R258). -/
def Block.refpbPass (b : Block) (n : Nat) (completes : Bool) : Block :=
  let x := b.chan n
  if ¬ b.chanServes n ∨ b.panicAt n then b
  else if completes then
    (if b.passComplete n then b.setChan n { x with owed := x.owed - 1, repay := false, passBank := 0 } else b)
  else if 0 < x.owed ∧ ¬ x.repay ∧ b.olderThan usTicks x.passAt then
    b.setChan n { x with repay := true, passAt := some b.ck.tide, passBank := 0 }
  else b

/-- The meaning of REFPB_PASS. -/
def execRefpbPass (ch : ChId) (completes : Bool) (s : State) : Host.Outcome State Fault Refusal :=
  s.upd (·.refpbPass ch completes)

/-! ### Command replays (R267, R275) -/

/-- The command word that a die receives: the nibble of every logical command coil, by the physical coil that carries it
(R267, R273). -/
def Column.caWord (x : Column) (coils : List (BitVec 4)) : List (BitVec 4) :=
  (List.range 12).map fun i => coils.getD (x.caPhysical i) 0

/-- The commands from `back` nCK ago on did not reach the die: the scheduler's record of them is undone, RESUME and they are
to be sent again, in order (R275). -/
def Block.replayFrom (b : Block) (x : Chan) (back : Nat) : Chan :=
  let bad := x.recent.filter fun e => decide (b.since e.1 ≤ min back 8)
  let x := { x with resume := true, replayQ := (bad.map fun e => e.2.1).reverse ++ x.replayQ
                    recent := x.recent.filter fun e => decide (min back 8 < b.since e.1) }
  match bad.getLast? with
  | none => x
  | some e => { x with banks := e.2.2.banks, acts := e.2.2.acts, lastCol := e.2.2.lastCol, refab := e.2.2.refab
                       passBank := x.passBank - bad.countP fun e => e.2.1.kind == .refpb
                       calSlots := x.calSlots - bad.countP fun e => e.2.1.kind == .cal }

/-- The eighth replay within 1 ms asks for a test of the command coils. -/
def Block.countReplay (b : Block) (n : Nat) : Block :=
  let x := b.col n
  let recent := (b.ck.tide :: x.replays).filter fun t => b.since t < msTicks
  let full := decide (8 ≤ recent.length)
  let b := b.setCol n { x with replay := inc32 x.replay, replays := if full then [] else recent
                               caTestDue := x.caTestDue || full }
  let b := b.tally n 0x021 [0] 1
  if full then b.orReg Off.stAlarm 16 else b

/-- A command that issued no more than 8 nCK before the alert that reaches back `back` nCK. -/
def Block.isBad (b : Block) (back : Nat) (t : Option Tide) : Bool :=
  match t with
  | some t => decide (t ≤ b.ck.tide ∧ b.since t ≤ min back 8)
  | none => false

/-- A PREab, SRE or SRX that did not reach the die is sent again, after RESUME, and what follows from it moves with it
(R243, R275). -/
def Block.resleep (b : Block) (x : Chan) (back : Nat) : Chan :=
  let t := b.rowCycle { x with lastCmd := some b.ck.tide }
  match x.pwr with
  | .entering =>
    if b.isBad back x.preab then { x with preab := some t, sre := some (t + 24), lastCmd := some (t + 24) }
    else if b.isBad back x.sre then { x with sre := some t, lastCmd := some t }
    else x
  | .selfRefresh => if b.isBad back x.sre then { x with pwr := .entering, sre := some t, lastCmd := some t } else x
  | .exiting =>
    if b.isBad back x.sre then { x with sre := some t, srx := some (t + 2), lastCmd := some (t + 2) }
    else if b.isBad back x.srx then { x with srx := some t, lastCmd := some t }
    else x
  | _ => x

/-- CA_ALERT: the die found the word that it received `back` nCK ago, coil by coil as here, to break its CRC; it has ignored
that command and every one after it (R267, R275). -/
def Block.caAlert (b : Block) (n back : Nat) (coils : List (BitVec 4)) : Block :=
  let x := b.chan n
  if ¬ b.reaches n ∨ caGood ((b.col n).caWord coils) then b
  else if x.pwr = .awake then (b.setChan n (b.replayFrom x back)).countReplay n
  else if b.resleep x back = x then b
  else (b.setChan n (b.resleep x back)).countReplay n

/-- The meaning of CA_ALERT. -/
def execCaAlert (ch : ChId) (back : Nat) (coils : List (BitVec 4)) (s : State) : Host.Outcome State Fault Refusal :=
  s.upd (·.caAlert ch back coils)

end Sys2Proof.Machine
end

