-- ==== Sys2Proof/Machine/Stack.lean ====
section
/-! DEFINITION. The stack (chapter 10): how a berth comes into service (R236), wake-up from self-refresh (R261, R456), die,
stack and memory-side resets, and the scrub pass (R296 to R298). -/

namespace Sys2Proof.Machine

open Sys2Proof

/-! ### Coming into service (R236, R268, R299) -/

/-- The temperature used of a layer, in 1/16 °C (R387). -/
def Block.layerUsed (b : Block) (l : Nat) : Rat := (tget (fun _ => ({} : Layer)) b.heat.layers l).used

/-- The temperatures that coil timing of column `n` follows: layers 0 and 1 to 1 + floor(n/4) (R420). -/
def Block.coilTempsNow (b : Block) (n : Nat) : List Rat := (List.range (dieOf n + 2)).map b.layerUsed

/-- A completed stack calibration of a channel: both pass bits, which no column gets whose round trip is longer than the
limit, and the temperatures it ran at (R268, R420). -/
def Block.stampCal (b : Block) (n : Nat) (pass : Bool) : Block :=
  let pass := pass && b.flightOk n
  let b := b.modCol n fun x => { x with calPass := pass }
  b.modChan n fun x =>
    { x with coilPass := pass, dramPass := pass, calFails := [], calDue := 0, calSlots := 0
             coilTemps := b.coilTempsNow n, dramTemp := some (b.layerUsed (1 + dieOf n)) }

/-- A die or stack reset holds the channel's die. -/
def Block.dieInReset (b : Block) (n : Nat) : Bool :=
  match b.stk.rst with
  | .none => false
  | .dieDrain k _ | .dieHeld k _ | .dieCal k _ => k.val == dieOf n
  | .stackHeld _ | .stackTest _ => true

/-- The channel may come into service: its BG domain is ON, survey left it usable, every relay below its die works, no
reset holds its die, the stack rails have held (R38, R236). -/
def Block.channelFit (b : Block) (n : Nat) : Bool :=
  b.domOn (bgDom n) && !(b.berth n).unusable && !b.stk.railFault && !b.dieInReset n
    && !b.cutOff n

/-- A channel AWAKE with no row open and nothing owed: its SRX issues in the next row-command cycle unless it has been woken already, so that tXS
keeps its commands back, and its first tick falls one tREFI after that (R260, R261). -/
def Block.wakeClean (b : Block) (n : Nat) : Block :=
  b.modChan n fun x =>
    if x.returning then { x with returning := false }
    else
      let y := if x.pwr = .awake then x else b.sendSrx x
      { y.quiet with pwr := .awake, forced := false, owed := 0, pulled := false, lastBusy := b.ck.tide, tickIn := b.refi n
                     lastTick := (if x.pwr = .awake then b.ck.tide else y.srx.getD b.ck.tide) + 608 }

/-- A berth leaves ABSENT: its fence list and its fence bit clear (R279). -/
def Block.leaveAbsent (b : Block) (n : Nat) : Block :=
  { b.modBerth n fun x => { x with fence := [] } with stk.fence := b.stk.fence &&& ~~~ chBit n }

/-- FILLING begins from the channel's first granule (R236, R282, R299). -/
def Block.startFill (b : Block) (n : Nat) : Block :=
  let b := (b.leaveAbsent n).wakeClean n
  let b := b.modBerth n fun x => { x with st := .filling, fillGran := 0, fillDone := false, rep := [], ueList := [] }
  b.modChan n fun x => { x with fillNext := 0, fillAt := b.ck.tide, fillMark := b.slotsGone x }

/-- A berth that is ABSENT follows R236 after its channel's stack calibration, which no column passes whose round trip is
longer than R268 allows. -/
def Block.bringUp (b : Block) (n : Nat) (ok : Bool) : Block :=
  let pass := ok && b.flightOk n
  if (b.berth n).st ≠ .absent ∨ ¬ b.channelFit n then b
  else
    let b := b.stampCal n pass
    if ¬ pass then b
    else if (b.berth n).fillDone then ((b.leaveAbsent n).wakeClean n).berthReady n
    else b.startFill n

/-! ### Wake-up (R261, R263, R456) -/

/-- Every column with a clock is looked at after an SRX, in case its clock is lost (R456). -/
def Block.wakeCheck (b : Block) (lost : BitVec 64) (age : Nat → Nat) : Block := b.diagnose lost.getLsbD b.clocked age

/-- The column gets its clock as channels come up together: it has one, or its channel may come into service. -/
def Block.clockedUp (b : Block) (n : Nat) : Bool :=
  b.clocked n || ((b.berth n).st == .absent && b.channelFit n)

/-- Channels woken together: their columns are looked at, in case a clock is lost, and those whose clocks came back follow
R236 (R456). -/
def Block.bringUpAll (b : Block) (pass lost : BitVec 64) : Block :=
  (b.diagnose lost.getLsbD b.clockedUp fun _ => 0).each (List.range 64) fun b n => if lost.getLsbD n then b else b.bringUp n (pass.getLsbD n)

/-- A channel whose BG domain is powered again leaves self-refresh by SRX, and has its stack calibrations still to run
(R236, R263). -/
def Block.startReturn (b : Block) (n : Nat) : Block :=
  if (b.berth n).st ≠ .absent ∨ ¬ b.channelFit n then b
  else
    let x := b.chan n
    b.setChan n { b.sendSrx x with
      returning := true, calDue := 3, calAt := b.ck.tide, calMark := b.slotsGone x, calSlots := 0, calFails := [] }

/-- SR_EXIT_DONE: tXS after SRX the channel is AWAKE; if its return clock is lost, all columns that have a clock are looked
at together (R260, R261, R456). -/
def Block.srExit (b : Block) (n : Nat) (lost : BitVec 64) (edge : List (Nat × Nat)) : Block :=
  let x := b.chan n
  let t := x.srx.getD b.ck.tide
  if x.pwr ≠ .exiting ∨ ¬ b.coreRuns ∨ ¬ b.passed 608 t then b
  else
    let b := b.setChan n { x with pwr := .awake, forced := false, lastTick := t + 608, tickIn := b.refi n, lastBusy := b.ck.tide }
    if lost.getLsbD n then (b.wakeCheck lost (edgeAge edge)).modChan n fun x => { x with returning := false, calDue := 0 }
    else b.activateWoken

/-- The meaning of SR_EXIT_DONE. -/
def execSrExitDone (ch : ChId) (lost : BitVec 64) (edge : List (Nat × Nat)) (s : State) : Host.Outcome State Fault Refusal :=
  s.upd (·.srExit ch lost edge)

/-! ### Abandoning and self-refresh under DMAN (R25, R239, R263, R272) -/

/-- Accepted requests abandoned, with what they hold everywhere (R25). -/
def Block.abandonAll (b : Block) : Block :=
  { b with qy.claimed := [], qy.claimedAt := [], qy.reqs := [], qy.ins := [], qy.rems := [], qy.copies := [] }.clearPanic

/-- A channel whose die has put itself in self-refresh. -/
def Chan.forcedSleep (x : Chan) : Chan :=
  if x.pwr = ChanPwr.off then x
  else { x.quiet with pwr := .selfRefresh, forced := true, returning := false, calDue := if x.returning then 0 else x.calDue }

/-- A channel's die enters self-refresh by force: an entry of any cause counts (R263, R264). -/
def Block.sleepChan (b : Block) (n : Nat) : Block :=
  let st := (b.chan n).pwr
  let b := b.modChan n Chan.forcedSleep
  if st = .awake ∨ st = .exiting then b.bump (dcOff Off.dcSrEntryLo n) else b

/-- DMAN low: every die is in self-refresh, whatever state its array was in, but for one in reset (R272). -/
def Block.dmanLow (b : Block) : Block :=
  { b with stk.dman := true }.each (List.range 64) fun b n => if b.arrayHeld n then b else b.sleepChan n

/-! ### Scrub (R296 to R298) -/

/-- The result of a scrub pass. -/
def Scrub.result (sc : Scrub) : List Byte :=
  let addrs (xs : List Nat) : List Byte :=
    (List.range 16).flatMap fun i => match xs[i]? with
      | some a => leBytes a 8
      | none => List.replicate 8 0xFF
  leBytes sc.read 8 ++ leBytes sc.corrected 8 ++ leBytes sc.written 8 ++ leBytes sc.ue 8 ++ leBytes sc.poisoned 8
    ++ leBytes sc.converted 8 ++ leBytes sc.skipped 8 ++ leBytes 0 8 ++ addrs sc.cAddrs ++ addrs sc.uAddrs ++ addrs sc.pAddrs

/-- The scrub ends with a status; its summary so far is the result. -/
def Block.endScrub (b : Block) (status : Nat) : Block :=
  match b.prot.scrub with
  | none => b
  | some sc =>
    let b := { b with prot.scrub := none }
    let b := b.each (List.range 64) fun b n => b.modChan n fun x => { x with scrubNext := none }
    b.finish sc.m Mop.scrubRange status sc.result

/-- The first granule of channel `n` from `first` to `last`. -/
def firstOnChan (n first last : Nat) : Option Nat :=
  let q := first / 4096
  let h := chanPiece n q * 64
  let g := if first ≤ h then h else if first < h + 64 then first else chanPiece n (q + 1) * 64
  if g ≤ last ∧ g < granules then some g else none

/-- Granules of channel `n` from `g`, one of its own, to `last`. -/
def leftOnChan (n g last : Nat) : Nat :=
  let q0 := g / 4096
  let q1 := last / 4096
  let h := chanPiece n q1 * 64
  let top := if last < h then 0 else min 64 (last - h + 1)
  (q1 - q0) * 64 + top - g % 64

/-- SCRUB_RANGE (R296). -/
def Block.scrubRange (b : Block) (m : ManRef) (start len flags : Nat) : Block :=
  let op := Mop.scrubRange
  if start % 64 ≠ 0 ∨ len = 0 ∨ len % 64 ≠ 0 ∨ start + len > pierBytes ∨ flags ≥ 4 then b.finish m op St.badParam
  else if ¬ b.inService then b.finish m op St.refused
  else if b.prot.scrub.isSome ∨ b.stk.rst ≠ .none then b.finish m op St.busyRetry
  else
    let first := start / 64
    let last := (start + len) / 64 - 1
    let b := { b with prot.scrub := some { m := m, first := first, last := last, writeback := flags % 2 = 1
                                           poisonUe := flags / 2 = 1 } }
    b.each (List.range 64) fun b n =>
      let g := firstOnChan n first last
      let b := b.modChan n fun x => { x with scrubNext := g, scrubAt := b.ck.tide, scrubMark := b.slotsGone x }
      if g.isSome ∧ b.inSvc n then b.wakeChan n else b

/-- The meaning of SCRUB_RANGE. -/
def execScrubRange (m : ManRef) (start len : BitVec 64) (flags : BitVec 32) (s : State) : Host.Outcome State Fault Refusal :=
  s.man m Mop.scrubRange (·.scrubRange m start.toNat len.toNat flags.toNat)

/-- The channel reads its granules of a scrub pass. -/
def Block.scrubs (b : Block) (n : Nat) : Bool := (b.berth n).st == .ready || (b.berth n).st == .throttled

/-- The granules of channel `n` from `g` to `last` that are listed, or that the pier has written itself. -/
def Block.listedOnChan (b : Block) (m : List Host.Cell) (n g last : Nat) : List Nat :=
  (((m.map fun e => e.1 / symsPerGranule) ++ b.ownListed).filter fun h => chanOf h == n && decide (g ≤ h ∧ h ≤ last)).eraseDups

/-- The rest of the pass fits, on one channel, in the time since its last granule, under the 1/16 ceiling: a slot for each
granule, and 37 for each row that is opened (R14, R298). -/
def Block.scrubFits (b : Block) (n : Nat) : Bool :=
  match b.prot.scrub, (b.chan n).scrubNext with
  | some sc, some g =>
    let left := leftOnChan n g sc.last
    !b.scrubs n || ((b.chan n).pwr == .awake && b.bgFits n .scrub (b.chan n).scrubAt (b.chan n).scrubMark (left + 37 * ((left + 31) / 32)))
  | _, _ => true

/-- The granules of a channel from `g` to `last` of which a scrub finds more than a clean zero form: listed ones, and those
whose read meets damage. -/
def Block.metOnChan (b : Block) (m : List Host.Cell) (dmg : List Damage) (n g last : Nat) : List Nat :=
  ascending (b.listedOnChan m n g last ++ (dmg.map (·.granule)).filter fun h => chanOf h == n && decide (g ≤ h ∧ h ≤ last))

/-- What is left of a pass on one channel: granules on a channel out of service are skipped; a granule of which nothing
is listed is a clean zero form, and counts as read and as a zero read (R287). -/
def scrubRest (m : List Host.Cell) (b : Block) (dmg : List Damage) (n : Nat) : List Host.Cell × Block :=
  match b.prot.scrub, (b.chan n).scrubNext with
  | some sc, some g =>
    let left := leftOnChan n g sc.last
    if ¬ b.scrubs n then (m, { b with prot.scrub := some { sc with skipped := sc.skipped + left } })
    else
      let hs := b.metOnChan m dmg n g sc.last
      let b := { b with prot.scrub := some { sc with read := sc.read + (left - hs.length) } }
      let b := (b.countBulk n false left).bump Off.prZeroRdLo (left - hs.length)
      hs.foldl (fun (acc : List Host.Cell × Block) h =>
        match acc.2.prot.scrub with
        | some sc => scrubOne acc.1 acc.2 sc n h dmg
        | none => acc) (m, b)
  | _, _ => (m, b)

/-- The meaning of SCRUB_DONE: once the rest of the pass fits in the time that has gone by, it is carried out, meeting the
damage `dmg`, and its summary completes the manifest. -/
def execScrubDone (dmg : List Damage) (s : State) : Host.Outcome State Fault Refusal :=
  if s.blk.prot.scrub.isSome ∧ s.blk.coreRuns ∧ (List.range 64).all s.blk.scrubFits then
    let r := (List.range 64).foldl (fun (acc : List Host.Cell × Block) n => scrubRest acc.1 acc.2 dmg n) (s.mem, s.blk)
    .next { s with mem := r.1, blk := r.2.endScrub St.ok }
  else .next s

/-! ### Die reset and stack reset (R280, R281) -/

/-- One berth of a die that is to be reset goes FENCED; parts that wait for a fill which will not end complete FENCED
(R280). -/
def Block.dieBerthFenced (b : Block) (n : Nat) : Block :=
  let on := b.inSvc n
  let b := { b with stk.fence := b.stk.fence ||| chBit n }
  if on then
    let b := b.enterFenced n
    let held := (b.qy.reqs.filter fun r => r.parts.any fun p => p.berth == n && p.stage == .held).map (·.id)
    (b.each held fun b id => b.fenceReq 0 n id).charterBerthLost n
  else b.modBerth n fun x => { x with fillDone := false }

/-- STACK_DIE_RESET: the die's berths go FENCED, outstanding parts finish. -/
def Block.stackDieReset (b : Block) (m : ManRef) (die : Nat) : Block :=
  let op := Mop.stackDieReset
  if h : die < 16 then
    if ¬ b.inService then b.finish m op St.refused
    else if b.stk.rst ≠ .none then b.finish m op St.busyRetry
    else
      let ns := (List.range 4).map (4 * die + ·)
      let b := { b with stk.rst := .dieDrain ⟨die, h⟩ m }
      ((b.each ns Block.dieBerthFenced).settle).checkOpen
  else b.finish m op St.badParam

/-- The meaning of STACK_DIE_RESET. -/
def execStackDieReset (m : ManRef) (die : BitVec 8) (s : State) : Host.Outcome State Fault Refusal :=
  s.man m Mop.stackDieReset (·.stackDieReset m die.toNat)

/-- DRST_RELEASE, after 1 µs: array control initialises; it waits while DMAN is low (R281). -/
def Block.drstRelease (b : Block) : Block :=
  match b.stk.rst with
  | .dieHeld k m => if b.stk.dman ∨ b.since b.stk.rstAt < usTicks then b else { b with stk.rst := .dieCal k m }
  | _ => b

/-- The meaning of DRST_RELEASE. -/
def execDrstRelease (s : State) : Host.Outcome State Fault Refusal := s.upd Block.drstRelease

/-- The columns that pass stack calibration: by its verdict, and within the limit on the round trip (R268). -/
def Block.passMask (b : Block) (pass : BitVec 64) : BitVec 64 :=
  (List.range 64).foldl (fun (v : BitVec 64) n => if pass.getLsbD n && b.flightOk n then v ||| chBit n else v) 0

/-- DIE_RESET_CAL_DONE: columns that passed go to FILLING, and the manifest completes; while DMAN is low, or the core is
dark, the sequence does not end (R281). -/
def Block.dieResetCalDone (b : Block) (pass : BitVec 4) (flight : List (Nat × Nat)) : Block :=
  match b.stk.rst with
  | .dieCal k m =>
    if b.stk.dman ∨ ¬ b.coreRuns then b
    else
      let b := ({ b with stk.rst := .none }).measured (flight.filter fun e => dieOf e.1 == k.val)
      let ok := b.passMask (pass.zeroExtend 64 <<< (4 * k.val))
      let b := b.each (List.range 4) fun b i => b.bringUp (4 * k.val + i) (ok.getLsbD (4 * k.val + i))
      b.finish m Mop.stackDieReset St.ok [BitVec.ofNat 8 ((ok >>> (4 * k.val)).toNat % 16)]
  | _ => b

/-- The meaning of DIE_RESET_CAL_DONE. -/
def execDieResetCalDone (pass : BitVec 4) (flight : List (Nat × Nat)) (s : State) : Host.Outcome State Fault Refusal :=
  s.upd (·.dieResetCalDone pass flight)

/-- What SRST does: relays and fences clear, every content is lost (R281). -/
def Block.srst (b : Block) : Block :=
  let b := { b with stk.relay := 0, stk.fence := 0 }
  b.each (List.range 64) fun b n => b.modBerth n fun x => { x with fillDone := false }

/-- STACK_RESET (R281). -/
def Block.stackReset (b : Block) (m : ManRef) : Block :=
  let op := Mop.stackReset
  if ¬ b.inService then b.finish m op St.refused
  else if b.stk.rst ≠ .none then b.finish m op St.busyRetry
  else if ((List.range 64).any fun n => (b.berth n).st != .absent) ∨ b.prot.scrub.isSome then b.finish m op St.refused
  else { b.srst with stk.rst := .stackHeld m, stk.rstAt := b.ck.tide }

/-- The meaning of STACK_RESET. -/
def execStackReset (m : ManRef) (s : State) : Host.Outcome State Fault Refusal := s.man m Mop.stackReset (·.stackReset m)

/-- The meaning of SRST_RELEASE, after 1 µs: column testing begins (R281). -/
def execSrstRelease (s : State) : Host.Outcome State Fault Refusal :=
  s.upd fun b => match b.stk.rst with
    | .stackHeld m => if b.since b.stk.rstAt < usTicks then b else { b with stk.rst := .stackTest m }
    | _ => b

/-- STACK_COLUMN_TEST_DONE: the columns' results; berths follow R236 as needing a fill. -/
def Block.columnTestDone (b : Block) (pass : BitVec 64) (flight : List (Nat × Nat)) : Block :=
  match b.stk.rst with
  | .stackTest m =>
    let b := ({ b with stk.rst := .none }).measured flight
    let ok := b.passMask pass
    let b := b.each (List.range 64) fun b n => (b.stampCal n (ok.getLsbD n)).bringUp n (ok.getLsbD n)
    b.finish m Mop.stackReset St.ok (leBytes ok.toNat 8)
  | _ => b

/-- The meaning of STACK_COLUMN_TEST_DONE. -/
def execStackColumnTestDone (pass : BitVec 64) (flight : List (Nat × Nat)) (s : State) : Host.Outcome State Fault Refusal :=
  s.upd (·.columnTestDone pass flight)

/-! ### The memory-side reset (R282, R356) -/

/-- The QY domain, or a BG domain. -/
def memDomain (d : Nat) : Bool := d == qyDom || decide (16 ≤ d)

/-- Registers held in a domain of a set. -/
def heldIn (p : Nat → Bool) (off : Nat) : Bool :=
  match holder off with
  | some d => p d
  | none => false

/-- The QY and berth domains reset: registers and tallies at their reset values, parts abandoned, berths ABSENT, with
their fill marks kept (R239, R282). -/
def Block.resetMemory (b : Block) : Block :=
  let b := (b.abandonAll.closeForReload.endScrub St.aborted).resetRegs (heldIn memDomain)
  let b := { b with tl.blocks := b.tl.blocks.filter fun e => !memDomain (tallyDom e.1) }
  let b := b.each (List.range 64) fun b n => b.modBerth n fun x => { x with st := .absent, fence := [], rep := [], ueList := [] }
  b.settle

/-- Channels come back after DMAN rises, woken by SRX and calibrated, and the charters are reloaded (R282, R351, R456). -/
def Block.restoreMemory (b : Block) (pass lost : BitVec 64) (flight : List (Nat × Nat)) : Block :=
  let b := ({ b with stk.dman := false, qy.resetting := false }).measured flight
  ((b.bringUpAll pass lost).reloadCharters).activateWoken

/-- MEM_RST: the reset starts, over a sideband path and in HARBOUR or OPEN only (R356). -/
def Block.memRst (b : Block) (p : Path) : Block :=
  if p = .inBand ∨ ¬ b.inService ∨ ¬ b.live then b
  else
    let b := (b.dmanLow.resetMemory).orReg Off.ckResetCause 8
    let b := b.endRunning (fun r => r.opcode.toNat == Mop.surveyRun) St.aborted
    { b with qy.resetting := true, sv.run := none, sv.busy := b.sv.busy && b.sv.run.isNone }

/-- The meaning of MEM_RST_RELEASE: `calPass` says which columns passed stack calibration, `lost` whose return clock is
lost, `flight` the round trips that calibration measured. -/
def execMemRstRelease (calPass lost : BitVec 64) (flight : List (Nat × Nat)) (s : State) : Host.Outcome State Fault Refusal :=
  s.upd fun b => if b.qy.resetting ∧ b.coreRuns then b.restoreMemory calPass lost flight else b

end Sys2Proof.Machine
end

