-- ==== Sys2Proof/Machine/Clocks.lean ====
section
/-! DEFINITION. Clock sources, breakwater and re-lock, rail faults, and clock switches (chapter 13; R38, R377, R378). -/

namespace Sys2Proof.Machine

open Sys2Proof

/-! ### What breakwater does (R346 to R348) -/

/-- Nothing waits any more for a lane, a waking channel or a charter's close, nor for a domain but those kept. -/
def Block.dropWaiters (b : Block) (keep : Nat → Bool := fun _ => false) : Block :=
  let b := b.modSide .west fun x => { x with waiter := none }
  let b := b.modSide .east fun x => { x with waiter := none }
  let b := b.each ((List.range 48).filter (!keep ·)) fun b d => b.modDom d fun x => { x with waiter := none }
  let b := b.each (List.range 32) fun b l => b.modLane l fun x => { x with prbsOwner := none, prbsRun := none }
  { b with chs.waking := [], sv.run := none, sv.cal := []
           chs.tab := b.chs.tab.foldl (fun (t : Tbl Charter) e =>
             tset (fun _ => {}) t e.1 (if e.2.st = .free then e.2.freed else { e.2 with waiter := none })) [] }

/-- Both sides down, their transmitters idle, the fairways empty. -/
def Block.dropLinks (b : Block) : Block :=
  let b := (b.dropSide .west).dropSide .east
  { b with fwWE := { b.fwWE with buf := [], standin := [] }, fwEW := { b.fwEW with buf := [], standin := [] } }

/-- A STACK_RESET that is cut short: its relays and dies have been reset (R281, R348). -/
def Block.cutStackReset (b : Block) : Block :=
  match b.stk.rst with
  | .stackHeld _ | .stackTest _ => { b.srst with stk.rst := .none }
  | _ => b

/-- The core goes dark: requests abandoned, links down, every die in self-refresh, work that needs the core ABORTED. -/
def Block.coreDark (b : Block) : Block :=
  let b := b.abandonAll.dropLinks.dmanLow.cutStackReset.endScrub St.aborted
  let b := (b.endRunning (·.needsGated) St.aborted).dropWaiters fun d => !coreDom d
  { b with ck.coreGated := true, tl.busy := false, sv.busy := false }

/-- A departure abandoned: no chart, every domain goes OFF (R377, R378). -/
def Block.abandonDeparture (b : Block) : Block :=
  if b.pw.st = .departure ∧ ¬ b.pw.offReady then
    let b := b.orReg Off.pwAlarm 1
    { b with pw.depAbandoned := true, pw.depPhase := .domainsOff, lg.writing := none }
  else b

/-- The granules of committed writes whose burst a failure cuts: issued, the last beat still to come (R348). -/
def Block.cutGranules (b : Block) : List Nat :=
  b.qy.reqs.flatMap fun r => r.parts.flatMap fun p => p.writes.filterMap fun w =>
    match w.lastBeat with
    | some t => if b.ck.tide.toNat < t.toNat then some w.gran else none
    | none => none

/-- Cut granules hold a mixture: their symbols are free values (log 13). -/
def cutBursts (m : List Host.Cell) (fresh : Nat) : List Nat → List Host.Cell
  | [] => m
  | g :: gs =>
    cutBursts (Memory.writeGranule m g ((List.range symsPerGranule).map (Config.cutSymbol fresh))) (fresh + 1) gs

/-- The free values that cut bursts take are used up. -/
def Block.drawCut (b : Block) : Block := { b with fresh := b.fresh + b.cutGranules.length }

/-- A clock failure that gates the core, on the stored symbols and the block. -/
def State.coreFails (s : State) (f : Block → Block) : Host.Outcome State Fault Refusal :=
  .next { s with mem := cutBursts s.mem s.blk.fresh s.blk.cutGranules, blk := f s.blk.drawCut }

/-- The TL domain comes ON: its registers hold their reset values, the dump configuration is kept (R372, R443). -/
def Tallies.afresh (t : Tallies) : Tallies :=
  { t with seqLast := 0, busy := false, winUs := 0x3E8, bytes := [], last := [], peak := [] }

/-- What lanes and fairway hold beside registers, after a reset of their domains (R351, R354, R370). -/
def Block.linksReset (b : Block) (p : Nat → Bool) : Block :=
  let b := b.each ((List.range 32).filter fun l => p (quadDom l)) fun b l => b.modLane l Lane.domReset
  let b := if p (fwDom .west) then { b with fwWE := {} } else b
  if p (fwDom .east) then { b with fwEW := {} } else b

/-- Switched domains after a reset: what they hold is at its reset values (R344, R351, R370, R443). -/
def Block.domsReset (b : Block) (p : Nat → Bool) : Block :=
  let b := (b.resetRegs (heldIn p)).linksReset p
  let b := { b with tl.blocks := b.tl.blocks.filter fun e => !p (tallyDom e.1) }
  if p tlDom then { b with tl := b.tl.afresh } else b

/-- A switched domain after its reset; it was not ON throughout the window (R428). -/
def Block.domReset (b : Block) (d : Nat) : Block :=
  let b := b.domsReset (· == d)
  { b with tl.winOff := d :: b.tl.winOff }

/-- What goes on without the harbourmaster's firmware: a departure, a die or stack reset (R281, R378). -/
def Running.ownCourse (r : Running) : Bool := [Mop.shutdown, Mop.stackDieReset, Mop.stackReset].contains r.opcode.toNat

/-- The harbourmaster core is reset: its running manifests are cut short, what it was putting together is dropped, and it
starts its firmware under R331 again; the AON registers, rings, keys and the logbook stay (R344).  That the manifests
complete ABORTED is DEDUCED: R323 gives that code to work cut short by a reset (log 96). -/
def Block.hmRestart (b : Block) : Block :=
  let b := (b.endRunning (fun r => !r.ownCourse) St.aborted).dropWaiters
  { b.orReg Off.ckResetCause 32 with ck.recover := none, mf.session := none, mf.job := none, mf.reasm := [], mf.reboot := true }

/-- A switch on the asynchronous path (R344): the domain is reset; for AON, the harbourmaster core.  A survey that runs in
SV is cut short with it. -/
def Block.deadSwitch (b : Block) (dom : Nat) : Block :=
  let b := (b.orReg Off.ckAlarm 32).event .clkDeadSwitch dom
  if dom = 48 then b.hmRestart
  else
    let b := b.domReset dom
    if dom = svDom then
      { b.endRunning (fun r => r.opcode.toNat == Mop.surveyRun) St.aborted with sv.run := none, sv.busy := b.sv.busy && b.sv.run.isNone }
    else b

/-- Breakwater moves AON and HK off a failed source. -/
def Block.moveAonHk (b : Block) (bad : ClkSrc → Bool) (dst : ClkSrc) (aonDead hkDead : Bool) : Block :=
  let a := bad b.ck.aonSrc
  let h := bad b.ck.hkSrc
  let b := { b with ck.aonSrc := if a then dst else b.ck.aonSrc, ck.hkSrc := if h then dst else b.ck.hkSrc
                    ck.aonMoved := b.ck.aonMoved || a, ck.hkMoved := b.ck.hkMoved || h }
  let b := if a && aonDead then b.deadSwitch 48 else b
  if h && hkDead then b.deadSwitch 15 else b

/-- The last good re-lock is less than 1 s old: a loss continues its event (R350). -/
def PllSt.eventOpen (x : PllSt) (now : Tide) : Bool :=
  match x.lastGood with
  | some t => decide ((now - t).toNat < sTicks)
  | none => false

/-- A PLL's failure event begins, or goes on where the last good lock is less than 1 s old; the first attempt may start
1 µs later (R350). -/
def PllSt.fail (x : PllSt) (now : Tide) : PllSt :=
  let same := x.eventOpen now
  { x with
    lock := false, down := true, attempt := false, next := now + BitVec.ofNat 64 usTicks, losses := if x.losses = 255 then 255 else x.losses + 1
    tries := if same then x.tries else 0, gaveUp := same && x.gaveUp }

/-- The source of a domain that can be switched. -/
def Block.domSrc (b : Block) (dom : Nat) : ClkSrc :=
  if dom = 48 then b.ck.aonSrc else if dom = 15 then b.ck.hkSrc else if dom = 13 then b.ck.svSrc else b.ck.tlSrc

/-- The source that a code of CLOCK_SWITCH names. -/
def srcOf : Nat → Option ClkSrc
  | 0 => some .pllRoot
  | 1 => some .crystal
  | 2 => some .rc
  | _ => none

/-- A running CLOCK_SWITCH whose old or new source fails completes ABORTED (R353). -/
def Block.abortSwitches (b : Block) (bad : ClkSrc → Bool) : Block :=
  b.endRunning (fun r => r.opcode.toNat == Mop.clockSwitch && [48, 15, 13, 14].contains (leAt r.params 0 1)
    && (bad (b.domSrc (leAt r.params 0 1)) || ((srcOf (leAt r.params 1 1)).map bad).getD false)) St.aborted

/-- The crystal fails in FROZEN: breakwater's lights alone, since nothing else runs (R358). -/
def Block.xtalFrozen (b : Block) : Block :=
  let b := { b with ck.xtalOk := false, ck.root := { b.ck.root with lock := false, down := true, attempt := false } }
  (b.orReg Off.ckAlarm 8).event .xtalFail

/-- XTAL_FAIL (R346). -/
def Block.xtalFail (b : Block) (aonDead hkDead : Bool) : Block :=
  if ¬ b.ck.xtalOk then b
  else if b.pw.st = .frozen then b.xtalFrozen
  else
    let b := b.abortSwitches (· != ClkSrc.rc)
    let b := if b.ck.coreGated then b else b.coreDark
    let root := b.ck.root
    let b := { b with ck.xtalOk := false
                      ck.root := { root with lock := false, down := true, attempt := false } }
    let b := b.moveAonHk (fun s => s != ClkSrc.rc) .rc aonDead hkDead
    let b := { b with ck.tide := if b.ck.tideSrc = ClkSrc.rc then b.ck.tide else b.ck.tide + 256, ck.tideSrc := .rc }
    let b := { b with ck.aonStopped := !b.ck.rcOk, ck.hmStopped := !b.ck.rcOk }
    ((b.orReg Off.ckAlarm 8).event .xtalFail).abandonDeparture

/-- The meaning of XTAL_FAIL: `aonDead` and `hkDead` say that the domain's old clock had stopped. -/
def execXtalFail (aonDead hkDead : Bool) (s : State) : Host.Outcome State Fault Refusal :=
  if s.blk.armed ∧ s.blk.ck.xtalOk then s.coreFails (·.xtalFail aonDead hkDead) else .next s

/-- PLL_ROOT has failed, and the tide counter leaves it. -/
def Block.failRoot (b : Block) : Block :=
  { b with ck.root := b.ck.root.fail b.ck.tide, ck.tideSrc := if b.ck.tideSrc = .pllRoot then .crystal else b.ck.tideSrc }

/-- ROOT_LOST (R346). -/
def Block.rootLost (b : Block) (aonDead hkDead : Bool) : Block :=
  if ¬ b.ck.root.lock then b
  else if b.pw.st = .frozen then (b.failRoot.orReg Off.ckAlarm 1).event .rootLost
  else
    let b := (b.abortSwitches (· == ClkSrc.pllRoot)).coreDark.failRoot.moveAonHk (· == ClkSrc.pllRoot) .crystal aonDead hkDead
    ((b.orReg Off.ckAlarm 1).event .rootLost).abandonDeparture

/-- The meaning of ROOT_LOST. -/
def execRootLost (aonDead hkDead : Bool) (s : State) : Host.Outcome State Fault Refusal :=
  if s.blk.armed ∧ s.blk.ck.root.lock then s.coreFails (·.rootLost aonDead hkDead) else .next s

/-- A lane PLL fails: its side is down (R346, R163). -/
def Block.lanePllFail (b : Block) (sd : Side) (refLost : Bool) : Block :=
  let b := b.modSide sd fun x => { x with refPresent := x.refPresent && !refLost }
  let p := sidePll sd
  if ¬ (b.pll p).lock then b
  else
    let b := b.setPll p ((b.pll p).fail b.ck.tide)
    let b := if b.pw.st = .frozen then b else ((b.dropSide sd).freshCaps).wakeWaiter sd
    let b := b.orReg Off.ckAlarm (if sd = .west then 2 else 4)
    (b.event (if sd = .west then .wLost else .eLost)).checkOpen

/-- The meaning of LANE_PLL_FAIL. -/
def execLanePllFail (sd : Side) (refLost : Bool) (s : State) : Host.Outcome State Fault Refusal :=
  s.upd fun b => if b.armed then b.lanePllFail sd refLost else b

/-- RC_FAIL (R346, R347, R353): with AON or HK on it both stop, and only a reset recovers; its event is then logged once
the harbourmaster's clock runs again (PRESUMED: log 66). -/
def Block.rcFail (b : Block) : Block :=
  if ¬ b.ck.rcOk then b
  else
    let used := b.ck.aonSrc == ClkSrc.rc || b.ck.hkSrc == ClkSrc.rc
    let b := (b.abortSwitches (· == ClkSrc.rc)).orReg Off.ckAlarm 16
    let b := { b with ck.rcOk := false, ck.aonStopped := b.ck.aonStopped || used, ck.hmStopped := b.ck.hmStopped || used }
    b.event .rcFail

/-- The meaning of RC_FAIL. -/
def execRcFail (s : State) : Host.Outcome State Fault Refusal := s.upd fun b => if b.armed then b.rcFail else b

/-! ### Rails (R38, R377) -/

/-- What a rail fault sets, whichever rail: RAIL_UV (R38). -/
def Block.railEvent (b : Block) (r : Rail) : Block :=
  let b := { b with pins.railsLow := if b.pins.railsLow.contains r then b.pins.railsLow else r :: b.pins.railsLow }
  let b := (b.orReg Off.pwAlarm 32).event .railUv (railNo r)
  if r ≠ .io ∧ b.pw.st = .departure ∧ ¬ b.pw.offReady then
    { b.orReg Off.pwAlarm 1 with pw.depAbandoned := true, lg.writing := none }
  else b

/-- Every channel fenced and its contents lost, until PORST_N (R38). -/
def Block.stackRailFault (b : Block) : Block :=
  { b.fenceRunning (List.range 64) with stk.railFault := true }

/-- A rail fault in DARK or in a scan test: the rail is noted, outside DARK with its alarm, and stack rails lose the
contents (R38, R416). -/
def Block.railQuiet (b : Block) (r : Rail) : Block :=
  let b := if b.pw.st = .dark then
      { b with pins.railsLow := if b.pins.railsLow.contains r then b.pins.railsLow else r :: b.pins.railsLow }
    else b.railEvent r
  if (r = .vpp ∨ r = .stack) ∧ b.pw.st ≠ .dark then
    ({ b with stk.railFault := true }).each (List.range 64) fun b n =>
      b.modBerth n fun (x : Berth) => { x with fillDone := false }
  else b

/-- The meaning of RAIL_UV: a rail other than VDD_AON is below its threshold.  At an undervoltage of VDD_CORE the old
clock of AON and HK is taken as still toggling, so that breakwater moves them under R343 and not under R344 (DESIGN
CHOICE: R38 and R346 leave open which holds; log 89). -/
def execRailUv (r : Rail) (s : State) : Host.Outcome State Fault Refusal :=
  if r = .aon then .next s
  else if ¬ s.blk.armed then s.upd (·.railQuiet r)
  else match r with
    | .core =>
      if s.blk.ck.root.lock then s.coreFails fun b => (b.railEvent r).rootLost false false
      else s.upd (·.railEvent r)
    | .lane | .laneA => s.upd fun b => ((b.railEvent r).lanePllFail .west false).lanePllFail .east false
    | .vpp | .stack => s.upd fun b => (b.railEvent r).stackRailFault
    | _ => s.upd (·.railEvent r)

/-- The meaning of RAIL_RECOVERY: what the rail held back may go on. -/
def execRailRecovery (r : Rail) (s : State) : Host.Outcome State Fault Refusal :=
  s.upd fun b => { b with pins.railsLow := b.pins.railsLow.filter (· != r) }

/-! ### Lane references and first lock (R36, R336) -/

/-- A side's link-up from G1 (R103, R119, R364, R365). -/
def Block.linkUp (b : Block) (sd : Side) : Block :=
  if b.inService ∧ ¬ b.ck.coreGated then
    ((b.modSide sd fun x => { x with capG2 := b.pw.st == .harbour }).trainSide sd 0 false).freshCaps
  else b

/-- The meaning of REFERENCE_PRESENT: the reference is noted, so that its PLL may lock. -/
def execReferencePresent (sd : Side) (s : State) : Host.Outcome State Fault Refusal :=
  s.upd fun b => if b.pw.st = .dark then b else b.modSide sd fun x => { x with refPresent := true }

/-- The rails of the lane PLLs are in range. -/
def Block.laneRails (b : Block) : Bool := !b.pins.railsLow.contains .lane && !b.pins.railsLow.contains .laneA

/-- The meaning of LANE_PLL_LOCK: the first lock after CK_W or CK_E powered lets the side leave OFF. -/
def execLanePllLock (sd : Side) (s : State) : Host.Outcome State Fault Refusal :=
  s.upd fun b =>
    let p := sidePll sd
    if b.live ∧ b.domOn (ckDom sd) ∧ (b.side sd).refPresent ∧ b.laneRails ∧ ¬ (b.pll p).lock ∧ ¬ (b.pll p).down then
      (b.setPll p { b.pll p with lock := true }).linkUp sd
    else b

/-! ### Re-lock (R350, R351) -/

/-- The PLL has its reference and its rail. -/
def Block.pllFed (b : Block) : Pll → Bool
  | .root => b.ck.xtalOk && !b.pins.railsLow.contains .core
  | .west => b.west.refPresent && b.laneRails
  | .east => b.east.refPresent && b.laneRails

/-- The meaning of RELOCK_ATTEMPT: 1 µs after the declaration, 10 µs after a failure, at once after a RECOVER (R350, R352). -/
def execRelockAttempt (p : Pll) (s : State) : Host.Outcome State Fault Refusal :=
  s.upd fun b =>
    let x := b.pll p
    if b.live ∧ x.down ∧ ¬ x.attempt ∧ ¬ x.gaveUp ∧ x.tries < 3 ∧ b.pllFed p ∧ (b.regBit Off.ckCtrl 0 ∨ x.forced) ∧ b.passed 0 x.next then
      b.setPll p { x with attempt := true, began := b.ck.tide, tries := x.tries + 1 }
    else b

/-- RECOVER action 0 completes with its result (R352): 0 with PLL_ROOT locked, 1 with AON on the RC oscillator; the
manual gives no value between the two (log 11). -/
def Block.recoverDone (b : Block) : Block :=
  match b.ck.recover with
  | none => b
  | some m =>
    let b := { b with ck.recover := none }
    if b.ck.root.lock then b.finish m Mop.recover St.ok [0]
    else if b.ck.aonSrc = ClkSrc.rc then b.finish m Mop.recover St.ok [1]
    else (b.finish m Mop.recover St.ok [BitVec.ofNat 8 (Config.pick b.fresh)]).draw

/-- The quads of a side: the lane domains that its PLL's re-lock resets (R351; that CK_W and CK_E, which hold the PLLs, are
not among them is DEDUCED: log 100). -/
def sideQuad (sd : Side) (d : Nat) : Bool := d / 4 == sideNo sd

/-- The domains that a restart resets: those that were gated, and the lane quads (R351, R354). -/
def restartResets (d : Nat) : Bool := d != hkDom && d != ckDom .west && d != ckDom .east

/-- The restart after PLL_ROOT has locked again, with what the wake-up and calibration of the channels found (R351). -/
def Block.restart (b : Block) (pass lost : BitVec 64) (flight : List (Nat × Nat)) : Block :=
  let b := { b with ck.aonSrc := if b.ck.aonMoved then .pllRoot else b.ck.aonSrc
                    ck.hkSrc := if b.ck.hkMoved then .pllRoot else b.ck.hkSrc
                    ck.aonMoved := false, ck.hkMoved := false, ck.tideSrc := .pllRoot, ck.coreGated := false }
  let b := (b.resetMemory.domsReset restartResets).orReg Off.ckResetCause 16
  let b := b.restoreMemory pass lost flight
  (b.linkUp .west).linkUp .east

/-- The meaning of RELOCK_SUCCESS, with lock held for 10 µs; the other operands say what the stack calibration after PLL_ROOT's re-lock finds. -/
def execRelockSuccess (p : Pll) (calPass lost : BitVec 64) (flight : List (Nat × Nat)) (s : State) :
    Host.Outcome State Fault Refusal :=
  s.upd fun b =>
    let x := b.pll p
    if ¬ b.live ∨ ¬ x.attempt ∨ b.since x.began < 10 * usTicks then b
    else
      let b := b.setPll p { x with lock := true, down := false, attempt := false, forced := false, lastGood := some b.ck.tide }
      match p with
      | .root => (b.restart calPass lost flight).recoverDone
      | .west => (b.domsReset (sideQuad .west)).linkUp .west
      | .east => (b.domsReset (sideQuad .east)).linkUp .east

/-- 0 PLL_ROOT, 1 PLL_W, 2 PLL_E. -/
def pllNo : Pll → Nat
  | .root => 0 | .west => 1 | .east => 2

/-- The lock time of a PLL (R336). -/
def lockTicks : Pll → Nat
  | .root => 50 * usTicks
  | _ => 100 * usTicks

/-- The meaning of RELOCK_ATTEMPT_FAIL: no lock within the PLL's lock time (R350). -/
def execRelockAttemptFail (p : Pll) (s : State) : Host.Outcome State Fault Refusal :=
  s.upd fun b =>
    let x := b.pll p
    if ¬ b.live ∨ ¬ x.attempt ∨ b.since x.began < lockTicks p then b
    else if x.tries < 3 then b.setPll p { x with attempt := false, next := b.ck.tide + BitVec.ofNat 64 (10 * usTicks) }
    else
      let b := b.setPll p { x with attempt := false, gaveUp := true, forced := false }
      let b := (b.orReg Off.ckAlarm 64).event .relockFail (pllNo p)
      if p = .root then b.recoverDone else b

/-! ### RECOVER (R352) -/

/-- A PLL's count of attempts afresh. -/
def PllSt.rearm (x : PllSt) (now : Tide) : PllSt :=
  if x.down then { x with tries := 0, gaveUp := false, forced := true, next := now } else x

/-- RECOVER. -/
def Block.recover (b : Block) (m : ManRef) (action : Nat) : Block :=
  if action > 1 then b.finish m Mop.recover St.badParam
  else if action = 0 then
    if b.ck.xtalOk ∧ ¬ b.ck.root.down then b.finish m Mop.recover St.ok [0]
    else { b with ck.recover := some m, ck.recoverAt := b.ck.tide }
  else
    ({ b with ck.west := b.ck.west.rearm b.ck.tide, ck.east := b.ck.east.rearm b.ck.tide }).finish m Mop.recover St.ok [0]

/-- The meaning of RECOVER. -/
def execRecover (m : ManRef) (action : BitVec 8) (s : State) : Host.Outcome State Fault Refusal :=
  s.man m Mop.recover (·.recover m action.toNat)

/-- CRYSTAL_RESTART_DONE: after 1,024 good crystal cycles, or without them after 5 ms (R352); on success AON and HK move to the crystal and PLL_ROOT's attempts begin afresh. -/
def Block.crystalDone (b : Block) (ok : Bool) : Block :=
  if b.ck.recover.isNone ∨ b.since b.ck.recoverAt < (if ok then 1024 * 32 else 5 * msTicks) then b
  else if ok then
    let move (x : ClkSrc) : ClkSrc := if x = ClkSrc.rc then .crystal else x
    { b with ck.xtalOk := true, ck.aonSrc := move b.ck.aonSrc, ck.hkSrc := move b.ck.hkSrc
             ck.tideSrc := move b.ck.tideSrc, ck.root := b.ck.root.rearm b.ck.tide }
  else b.recoverDone

/-- The meaning of CRYSTAL_RESTART_DONE. -/
def execCrystalRestartDone (ok : Bool) (s : State) : Host.Outcome State Fault Refusal :=
  s.upd fun b => if b.live then b.crystalDone ok else b

/-! ### CLOCK_SWITCH (R342 to R344) -/

/-- The source of a domain set; a switch by manifest ends what breakwater would move back. -/
def Block.setDomSrc (b : Block) (dom : Nat) (x : ClkSrc) : Block :=
  if dom = 48 then { b with ck.aonSrc := x, ck.aonMoved := false }
  else if dom = 15 then { b with ck.hkSrc := x, ck.hkMoved := false }
  else if dom = 13 then { b with ck.svSrc := x }
  else { b with ck.tlSrc := x }

/-- The source runs. -/
def Block.srcRuns (b : Block) : ClkSrc → Bool
  | .pllRoot => b.ck.root.lock
  | .crystal => b.ck.xtalOk
  | .rc => b.ck.rcOk

/-- Where a domain goes whose switch was cut short by the death of its old clock: breakwater places AON and HK off PLL_ROOT
on the crystal and off the crystal on RC, as R346 does; any other goes to the source it was to take (R344, R353). -/
def Block.placeDom (b : Block) (dom : Nat) (x : ClkSrc) : Block :=
  let own := dom == 48 || dom == hkDom
  let y := match own, b.domSrc dom with
    | true, .pllRoot => .crystal
    | true, .crystal => .rc
    | _, _ => x
  let moved := own && b.domSrc dom != ClkSrc.rc
  let b := b.setDomSrc dom y
  { b with ck.aonMoved := b.ck.aonMoved || (moved && dom == 48), ck.hkMoved := b.ck.hkMoved || (moved && dom == hkDom) }

/-- CLOCK_SWITCH (R342); where its old source dies before the switch is made, it completes ABORTED and breakwater places the
domain on the asynchronous path (R344, R353; log 100). -/
def Block.clockSwitch (b : Block) (m : ManRef) (dom src : Nat) (oldDead : Bool) : Block :=
  let op := Mop.clockSwitch
  match srcOf src with
  | none => b.finish m op St.badParam
  | some x =>
    if ¬ [48, 15, 13, 14].contains dom ∨ (x = ClkSrc.rc ∧ (dom = 13 ∨ dom = 14)) then b.finish m op St.badParam
    else if ¬ b.srcRuns x ∨ ¬ b.ck.root.lock then b.finish m op St.refused
    else if b.domSrc dom = x then b.finish m op St.ok (leBytes (b.slot (slotKey m.ring m.seq)).tDecide.toNat 8)
    else if oldDead then ((b.placeDom dom x).finish m op St.aborted).deadSwitch dom
    else (b.setDomSrc dom x).finish m op St.ok (leBytes b.now 8)

/-- The meaning of CLOCK_SWITCH; one that a failure of its source has ended already is over (R353). -/
def execClockSwitch (m : ManRef) (dom src : BitVec 8) (oldDead : Bool) (s : State) : Host.Outcome State Fault Refusal :=
  s.man m Mop.clockSwitch fun b => if b.isOver m then b else b.clockSwitch m dom.toNat src.toNat oldDead

end Sys2Proof.Machine
end

