-- ==== Sys2Proof/Machine/Heat.lean ====
section
/-! DEFINITION. Heat (chapter 15): the watch round, the thermal model, throttle steps, trips; with the round, refresh
doubling (R255), coil suspects (R274), the crystal correction (R338) and calibration triggers (R420, R421). -/

namespace Sys2Proof.Machine

open Sys2Proof

/-- The higher of two steps. -/
def maxStep (x y : Fin 8) : Fin 8 := if x < y then y else x

/-- The size of a difference. -/
def ratAbs (x : Rat) : Rat := if x < 0 then -x else x

/-! ### Sensors and layers -/

/-- The layer of a sensor: 0 the base die, k + 1 for Dk (R380, R384). -/
def sensorLayer (s : Nat) : Nat := if s < 24 then 0 else 1 + (s - 24) / 2

/-- The sensors of a layer. -/
def layerSensors (l : Nat) : List Nat := (List.range 56).filter fun s => sensorLayer s == l

/-- The channels that a layer's step feeds (R395). -/
def layerChans (l : Nat) : List Nat := if l = 0 then List.range 64 else (List.range 4).map (4 * (l - 1) + ·)

def Block.sensor (b : Block) (s : Nat) : Sensor := tget (fun _ => {}) b.heat.sensors s
def Block.setSensor (b : Block) (s : Nat) (v : Sensor) : Block :=
  { b with heat.sensors := tset (fun _ => {}) b.heat.sensors s v }
def Block.layer (b : Block) (l : Nat) : Layer := tget (fun _ => {}) b.heat.layers l
def Block.setLayer (b : Block) (l : Nat) (v : Layer) : Block :=
  { b with heat.layers := tset (fun _ => {}) b.heat.layers l v }

/-- The sensor is included and has not failed; it may rest. -/
def Block.sensorGood (b : Block) (s : Nat) : Bool := (b.sensor s).st == .healthy || (b.sensor s).st == .resting

/-- A converter channel's value and whether it is from a completed conversion. -/
def Block.htCh (b : Block) (i : Nat) : Int × Bool := tget (fun _ => (0, false)) b.heat.ch i

/-- A DRAM sensor rests while no column of its die is awake (R380). -/
def Block.sensorRests (b : Block) (s : Nat) : Bool :=
  decide (24 ≤ s) && (layerChans (sensorLayer s)).all fun n =>
    (b.chan n).pwr != .awake || (b.berth n).st == .fenced || b.stk.dman

/-! ### Powers (R384) -/

/-- A sensor's reading of this round, if its conversion completed. -/
def Block.reading (b : Block) (s : Nat) : Option Int := if (b.htCh s).2 then some (b.htCh s).1 else none

/-- What every temperature is reported above its reading while the crystal has failed, in 1/16 °C (R381). -/
def Block.readingOffset (b : Block) : Int := if b.ck.xtalOk then 0 else 32

/-- A sensor's reading as the converter took it, without that offset: what its range is tested on (R389). -/
def Block.rawReading (b : Block) (s : Nat) : Option Int := (b.reading s).map (· - b.readingOffset)

/-- The power of a rail in W: its voltage in mV times its current in 10 mA. -/
def Block.railPower (b : Block) (r : Nat) : Rat := (b.htCh (56 + r)).1 * (b.htCh (63 + r)).1 / 100000

/-- The power of the base die, and of the stack. -/
def Block.basePower (b : Block) : Rat := ((List.range 5).map b.railPower).foldl (· + ·) 0
def Block.stackPower (b : Block) : Rat := b.railPower 5 + b.railPower 6

/-- A die's activity in the round (R254, R384). -/
def Block.activity (b : Block) (k : Nat) : Nat :=
  ((layerChans (k + 1)).map fun n =>
    let x := b.chan n
    4 * x.nAct + 2 * x.nRd + 2 * x.nWr + 64 * x.nRefab + 2 * x.nRefpb).sum

/-- The share of the stack power beyond the static parts that die `k` takes; with no activity at all the manual leaves
it open (log 14). -/
def Block.dieShare (b : Block) (k : Nat) : Rat :=
  let tot := ((List.range 16).map b.activity).sum
  if tot ≠ 0 then b.activity k / tot
  else Config.idleShare b.fresh k / (((List.range 16).map (Config.idleShare b.fresh)).sum : Nat)

/-- The power of each layer. -/
def Block.layerPower (b : Block) (l : Nat) : Rat :=
  match l with
  | 0 => b.basePower
  | k + 1 =>
    let static (k : Nat) : Rat := 6 / 10 + 4 / 100 * (15 - k : Nat)
    let all := ((List.range 16).map static).foldl (· + ·) 0
    let p := b.stackPower
    if p < all then static k * (p / all) else static k + (p - all) * b.dieShare k

/-! ### Sensor checks (R389, R390) -/

/-- The cause of a failure in this round, if any: 1 out of range, 2 timeout, 3 stuck. -/
def sensorCause (l : Nat) (moved : Rat) (v : Option Int) (atLimit : Bool) (x : Sensor) : Option (BitVec 2) :=
  match v with
  | none => some 2
  | some v =>
    if v < -640 ∨ 2400 < v ∨ atLimit then some 1
    else if 64 ≤ x.stuck ∧ (if l = 0 then 2 else 1 / 4 : Rat) ≤ moved then some 3
    else none

/-- The sensor after a reading: its count of equal codes. -/
def Sensor.see (x : Sensor) (v : Option Int) : Sensor :=
  match v with
  | none => x
  | some v => if x.last = some v then { x with stuck := x.stuck + 1 } else { x with last := some v, stuck := 1 }

/-- A layer's power noted, for the last 64 rounds (R389). -/
def Block.notePower (b : Block) (l : Nat) : Block :=
  b.setLayer l { b.layer l with pows := (b.layerPower l :: (b.layer l).pows).take 64 }

/-- How far a layer's power has moved in those rounds. -/
def Layer.powMoved (x : Layer) : Rat :=
  match x.pows with
  | [] => 0
  | p :: ps => ps.foldl max p - ps.foldl min p

/-- Throttling is active on a layer (R390). -/
def Block.throttling (b : Block) (l : Nat) : Bool := (layerChans l).any fun n => (b.chan n).step != 0

/-- The sensor had the highest reading of its layer's included sensors when it was last healthy. -/
def Block.wasHottest (b : Block) (s : Nat) : Bool :=
  match (b.sensor s).hot with
  | none => false
  | some v => (layerSensors (sensorLayer s)).all fun t =>
    (b.sensor t).st == .excluded || match (b.sensor t).hot with
      | some w => decide (w ≤ v)
      | none => true

/-- A floor latched at 6 (R390). -/
def Block.latchFloor (b : Block) (l : Nat) (noFall : Bool) : Block :=
  let x := b.layer l
  if x.latch ∧ (x.noFall ∨ ¬ noFall) then b
  else (b.setLayer l { x with latch := true, noFall := x.noFall || noFall }).orReg Off.htAlarm 4

/-- A sensor fails. -/
def Block.sensorFails (b : Block) (s : Nat) (cause : BitVec 2) : Block :=
  let l := sensorLayer s
  let hot := b.wasHottest s && b.throttling l
  let b := b.setSensor s { b.sensor s with st := .failed, cause := cause }
  let b := (b.orReg Off.htAlarm 2).event .sensorFail s [cause.zeroExtend 16]
  let left := (layerSensors l).any b.sensorGood
  let was := (b.layer l).latch
  let b := if ¬ left then b.latchFloor l false else if hot then b.latchFloor l true else b
  if (b.layer l).latch ∧ ¬ was then b.event .sensorLatch s else b

/-- The cause of a sensor's failure in this round. -/
def Block.roundCause (b : Block) (v : Option Int) (atLimit : Bool) (s : Nat) : Option (BitVec 2) :=
  let l := sensorLayer s
  sensorCause l (b.layer l).powMoved v atLimit (b.sensor s)

/-- One sensor's reading in a round: a resting one is not tested, and its run of equal codes ends. -/
def Block.seeSensor (b : Block) (v : Option Int) (atLimit : Bool) (s : Nat) : Block :=
  let x := b.sensor s
  if x.st = .failed ∨ x.st = .excluded then b
  else if b.sensorRests s then b.setSensor s { x with st := .resting, stuck := 0, last := none }
  else
    let b := b.setSensor s { x.see v with st := .healthy }
    if (b.roundCause v atLimit s).isNone then b.setSensor s { b.sensor s with hot := v } else b

/-- One sensor's test in a round, after every sensor's reading. -/
def Block.checkSensor (b : Block) (v : Option Int) (atLimit : Bool) (s : Nat) : Block :=
  if (b.sensor s).st = .healthy then
    match b.roundCause v atLimit s with
    | some c => b.sensorFails s c
    | none => b
  else b

/-- A layer left without a healthy included sensor while one has failed latches, also where an exclusion took the last
(R390). -/
def Block.blindLatch (b : Block) (l : Nat) : Block :=
  match (layerSensors l).find? fun s => (b.sensor s).st == .failed with
  | some s =>
    if (layerSensors l).any b.sensorGood ∨ (b.layer l).latch then b else (b.latchFloor l false).event .sensorLatch s
  | none => b

/-- The floor of a layer from its sensors (R390). -/
def Block.layerFloor (b : Block) (l : Nat) : Nat :=
  let ss := layerSensors l
  let excl := (ss.map fun s => if (b.sensor s).st = .excluded then (b.sensor s).floor.toNat else 0).foldl max 0
  let failed := ss.any fun s => (b.sensor s).st == .failed
  if (b.layer l).latch then max 6 excl
  else if failed then max 6 excl
  else excl

/-! ### The model (R384 to R386) -/

/-- The steady-state rises of the chain under powers `p` (R386): the tridiagonal equations solved from layer 0 up. -/
def steadyRise (t : Therm) (p : Nat → Rat) : List Rat :=
  let g : Rat := 1 / t.rs
  let diag (i : Nat) : Rat :=
    if i = 0 then g + 1 / t.rsh else if i = 16 then g + 1 / t.rtop else 2 * g
  let fwd := (List.range 17).foldl (fun (acc : List (Rat × Rat)) i =>
    match acc.getLast? with
    | none => [(g / diag 0, p 0 / diag 0)]
    | some (c, d) =>
      let m := diag i - g * c
      acc ++ [((if i = 16 then 0 else g / m), (p i + g * d) / m)]) []
  (fwd.foldr (fun (e : Rat × Rat) (acc : List Rat) =>
    match acc with
    | [] => [e.2]
    | u :: us => (e.2 + e.1 * u) :: u :: us) [])

/-- One substep of 62.5 µs. -/
def modelStep (t : Therm) (p : Nat → Rat) (u : List Rat) : List Rat :=
  let at_ (i : Nat) : Rat := u.getD i 0
  (List.range 17).map fun i =>
    let below : Rat := if i = 0 then at_ i / t.rsh else (at_ i - at_ (i - 1)) / t.rs
    let above : Rat := if i = 16 then at_ i / t.rtop else (at_ i - at_ (i + 1)) / t.rs
    at_ i + (625 / 10000000) * (p i - below - above) / (if i = 0 then t.c0 else t.c)

/-- The sixteen substeps of a round. -/
def modelRound (t : Therm) (p : Nat → Rat) (u : List Rat) : List Rat :=
  (List.range 16).foldl (fun u _ => modelStep t p u) u

/-- The hottest healthy included reading of a layer, in 1/16 °C. -/
def Block.hottest (b : Block) (l : Nat) : Option Int :=
  ((layerSensors l).filterMap fun s => if (b.sensor s).st = .healthy then (b.sensor s).hot else none).foldl
    (fun (m : Option Int) v => some (match m with | some w => max v w | none => v)) none

/-- The anchor's layer: the lowest with a healthy included sensor (R385). -/
def Block.anchor (b : Block) : Option (Nat × Int) :=
  (List.range 17).findSome? fun l => (b.hottest l).map fun v => (l, v)

/-- The rises and the anchor temperature after this round's update or seed. -/
def Block.modelNext (b : Block) : List Rat × Rat :=
  let p := b.layerPower
  let old := (List.range 17).map fun l => (b.layer l).rise
  if b.heat.seedDue then
    let ss := steadyRise b.heat.therm p
    let tb : Rat := match b.anchor with
      | some (l, v) => v / 16 - ss.getD l 0
      | none => b.heat.tb
    ((List.range 17).map fun l =>
      match l, b.hottest l with
      | 0, _ => ss.getD 0 0
      | _, some v => (v : Rat) / 16 - tb
      | _, none => ss.getD l 0, tb)
  else
    let u := modelRound b.heat.therm p old
    (u, match b.anchor with
      | some (l, v) => (v : Rat) / 16 - u.getD l 0
      | none => b.heat.tb)

/-- The guard G in 1/16 °C: HT_CTRL.GUARD, and 5 °C falling to 0 over the 10 s after the seed (R386). -/
def Block.guard (b : Block) : Rat :=
  let e : Rat := match b.heat.seedAt with
    | none => 0
    | some t =>
      let d := b.since t
      if 10 * sTicks ≤ d then 0 else 80 * (1 - (d : Rat) / (10 * sTicks : Nat))
  b.regField Off.htCtrl 0 5 * 4 + e

/-! ### Temperature used, DIVERGE, steps (R387, R388, R392, R393) -/

/-- DIVERGE after a round (R388). -/
def Layer.diverged (x : Layer) (l : Nat) (seen : Bool) : Layer :=
  let gap := x.model - x.sensor
  let up := if l ≠ 0 ∧ seen ∧ 128 < gap then x.divUp + 1 else 0
  let down := if x.diverge ∧ seen ∧ gap ≤ 64 then x.divDown + 1 else 0
  { x with
    divUp := min up 100, divDown := if down ≥ 100 then 0 else down
    diverge := (x.diverge && decide (down < 100)) || decide (100 ≤ up) }

/-- The threshold of a thermal step in 1/16 °C; step 8 stands for the critical trip (R392). -/
def threshold (l step : Nat) : Rat :=
  if step ≥ 8 then (if l = 0 then 1760 else 1600)
  else ((if l = 0 then 95 else 85) + 2 * (step - 1) : Nat) * 16

/-- The highest step whose threshold a temperature has reached. -/
def reached (l : Nat) (t : Rat) : Fin 8 :=
  (([1, 2, 3, 4, 5, 6, 7] : List (Fin 8)).filter fun k => decide (threshold l k.val ≤ t)).foldl maxStep 0

/-- The thermal step after a round (R393). -/
def Layer.stepped (x : Layer) (l : Nat) : Layer :=
  let r := reached l x.used
  if x.therm < r then { x with therm := r, below := 0 }
  else if x.therm ≠ 0 ∧ x.used < threshold l x.therm.val - 32 then
    if x.below + 1 ≥ 10 then { x with therm := x.therm - 1, below := 0 } else { x with below := x.below + 1 }
  else { x with below := 0 }

/-- One layer's decisions of a round (R385 to R393). -/
def Block.decideLayer (b : Block) (rise tb : Rat) (l : Nat) : Block :=
  let b := b.blindLatch l
  let x := b.layer l
  let ss := layerSensors l
  let incl := ss.filter fun s => (b.sensor s).st != .excluded
  let good := ss.any b.sensorGood
  let rest := !incl.isEmpty && incl.all fun s => (b.sensor s).st == .resting
  let hot := b.hottest l
  let was := x.diverge
  let x := { x with rise := rise, model := (tb + rise) * 16, sensor := hot.getD x.sensor, modelOnly := !good, resting := rest }
  let x := x.diverged l hot.isSome
  let used : Rat :=
    if x.diverge then max x.sensor x.model
    else if hot.isSome ∨ rest then max x.sensor (x.model - b.guard)
    else if ¬ good then x.model
    else max x.sensor (x.model - b.guard)
  let x := ({ x with used := used }).stepped l
  let fl := b.layerFloor l
  let st := max x.therm.val fl
  let st := if x.noFall then max st x.step.val else st
  let x := { x with floor := Fin.ofNat 8 (min fl 7), step := Fin.ofNat 8 (min st 7) }
  let b := b.setLayer l x
  if x.diverge ∧ ¬ was then (b.orReg Off.htAlarm 1).event .diverge l else b

/-! ### The power cap (R394) -/

/-- Package power in 10 µW: a mV times 10 mA each (R381, R394). -/
def Block.packagePower (b : Block) : Nat := ((b.basePower + b.stackPower) * 100000).floor.toNat

/-- The cap step after a round. -/
def Block.capRound (b : Block) : Block :=
  let p := b.packagePower
  let hist := (p :: b.heat.capHist).take 4
  let limit := b.regField Off.htPcap 0 8 * 100000
  let b := { b with heat.milliwatt := p / 100, heat.capHist := hist }
  if ¬ b.regBit Off.htCtrl 16 then { b with heat.capStep := 0, heat.capLow := 0 }
  else if limit * hist.length < hist.sum then
    let b' := if b.heat.capStep = 0 then b.orReg Off.htAlarm 16 else b
    { b' with heat.capStep := if b.heat.capStep = 7 then 7 else b.heat.capStep + 1, heat.capLow := 0 }
  else if hist.sum + 500000 * hist.length ≤ limit * hist.length then
    if b.heat.capLow + 1 ≥ 10 then
      { b with heat.capStep := if b.heat.capStep = 0 then 0 else b.heat.capStep - 1, heat.capLow := 0 }
    else { b with heat.capLow := b.heat.capLow + 1 }
  else { b with heat.capLow := 0 }

/-! ### Steps applied (R395, R213) -/

/-- The step that R395 gives a channel. -/
def Block.stepOf (b : Block) (n : Nat) : Fin 8 :=
  maxStep (maxStep (b.layer 0).step (b.layer (1 + dieOf n)).step)
    (maxStep b.heat.capStep (Fin.ofNat 8 (b.regField Off.htCtrl 12 3)))

/-- A step takes effect on a channel and its berth (R236). -/
def Block.applyStep (b : Block) (n : Nat) (v : Fin 8) : Block :=
  let was := (b.chan n).step
  let b := b.modChan n fun x => { x with slots := b.slotsGone x, step := v, stepAt := b.ck.tide, stepDue := none }
  let b := b.modBerth n fun x =>
    match x.st with
    | .ready => if v = 0 then x else { x with st := .throttled }
    | .throttled => if v = 0 then { x with st := .ready } else x
    | _ => x
  if was.val < 4 ∧ 4 ≤ v.val then b.orReg Off.htAlarm 8 else b

/-- A step decided for a channel: at once, but a rise to 4 or more waits for its pass. -/
def Block.decideStep (b : Block) (n : Nat) : Block :=
  let v := b.stepOf n
  let x := b.chan n
  if x.step < v ∧ 4 ≤ v.val then
    if x.stepDue = some v then b
    else
      let b := b.modChan n fun x => { x with stepDue := some v }
      { b with chs.passDue := true, chs.lastFall := b.ck.tide }
  else if v = x.step then b.modChan n fun x => { x with stepDue := none }
  else b.applyStep n v

/-! ### Refresh doubling (R255) -/

/-- A channel's refresh rate after a round.  The rounds below 83 °C count whether or not the rate is doubled, so that a
doubling by `REF_2X` alone ends at the first round after that bit is cleared (DEDUCED; log 94). -/
def Block.refreshRate (b : Block) (n : Nat) : Block :=
  let t := (b.layer (1 + dieOf n)).used
  let x := b.chan n
  let cool := if t < 1328 then min 10 (x.coolRounds + 1) else 0
  if 1360 ≤ t then
    let b' := if x.hot then b else b.orReg Off.dcAlarm 2
    b'.setChan n { x.enterHot with coolRounds := 0 }
  else if b.regBit Off.dcCtrl 1 then b.setChan n { x.enterHot with coolRounds := cool }
  else b.setChan n { x with hot := x.hot && decide (cool < 10), coolRounds := cool }

/-- The layer's mark that its temperature has put its channels at the doubled rate, until they leave it (R255, R401). -/
def Block.markRefresh (b : Block) (l : Nat) : Block :=
  let x := b.layer l
  b.setLayer l
    { x with ref2x := l != 0 && (decide (1360 ≤ x.used) || (x.ref2x && (layerChans l).any fun n => decide ((b.chan n).coolRounds < 10))) }

/-! ### The critical trip (R396 to R398) -/

/-- The record of a trip, as the harbourmaster will write it. -/
def Block.tripRecord (b : Block) (analogue : Bool) (sensor l : Nat) : Trip :=
  let x := b.layer l
  { tide := b.ck.tide, analogue := analogue, incomplete := false, sensor := BitVec.ofNat 8 sensor, layer := l
    acked := false, full := false, reading := x.sensor, model := x.model.floor, used := x.used.floor
    power := b.heat.milliwatt, steps := (List.range 17).map fun l => (b.layer l).step }

/-- Every switched domain OFF at once, FAILED ones apart; the stack stays under DMAN. -/
def Block.domainsOff (b : Block) : Block :=
  let b := b.each (List.range 48) fun b d =>
    b.modDom d fun x => { x with st := if x.st = .failed then .failed else .off, waiter := none }
  b.each (List.range 64) fun b n => b.modBerth n fun x => { x with st := .absent }

/-- A critical trip: TRIPPED, every domain OFF, every fill mark cleared (R20, R367, R378, R397). -/
def Block.trip (b : Block) (analogue : Bool) (sensor l : Nat) : Block :=
  let r := b.tripRecord analogue sensor l
  let b := b.coreDark.domainsOff
  let b := b.each (List.range 64) fun b n => b.modBerth n fun x => { x with fillDone := false }
  let b := if b.pw.st = .departure ∧ ¬ b.pw.offReady then { b.orReg Off.pwAlarm 1 with pw.depAbandoned := true } else b
  { b with pw.st := .tripped, pw.depPhase := .none, pw.arr := .done, pw.heldInReset := false, pins.thermTripLow := true
           pw.afterTrip := true, heat.tripRec := some r, heat.tripMark := false, lg.writing := none, ck.coreGated := false
           ck.west := { b.ck.west with lock := false, down := false, attempt := false }
           ck.east := { b.ck.east with lock := false, down := false, attempt := false } }

/-- A trip in FROZEN: the domains lose power, the state stays (R361). -/
def Block.frozenTrip (b : Block) : Block :=
  { b.domainsOff with heat.frozenTrip := true, pins.thermTripLow := true }

/-- The meaning of ANALOGUE_TRIP: the comparator of an included sensor passes its level. -/
def execAnalogueTrip (sensor : Fin 56) (s : State) : Host.Outcome State Fault Refusal :=
  s.upd fun b =>
    if (b.sensor sensor).st = .excluded then b
    else match b.pw.st with
      | .dark | .tripped => b
      | .frozen => b.frozenTrip
      | _ => b.trip true sensor (sensorLayer sensor)

/-- The trip marker, then the full record, written (R39, R438). -/
def Block.tripWrite (b : Block) (full : Bool) : Block :=
  match b.heat.tripRec with
  | none => b
  | some r =>
    let b :=
      if b.heat.tripMark ∨ b.sv.logDisabled then b
      else
        let ix := b.lg.tripNext.toNat % 512
        let b := { b with lg.trips := tset (fun _ => none) b.lg.trips ix (some r), lg.tripNext := b.lg.tripNext + 1
                          heat.tripMark := true }
        if ix = 0 then b.wearSlot 14 else b
    if ¬ full then b
    else
      let ix := (b.lg.tripNext - 1).toNat % 512
      let b := if b.sv.logDisabled then b else
        { b with lg.trips := tset (fun _ => none) b.lg.trips ix (some { r with full := true }) }
      { b with heat.tripRec := none, heat.tripMark := false
               pins.thermTripLow := b.pins.thermTripLow && !b.pins.porstLow }

/-- The meaning of TRIP_RECORD_DONE. -/
def execTripRecordDone (full : Bool) (s : State) : Host.Outcome State Fault Refusal := s.upd (·.tripWrite full)

/-! ### The crystal correction (R338) and the bandgap (R383) -/

/-- A signed 16-bit number. -/
def signed16 (v : Nat) : Int := if v < 32768 then v else v - 65536

/-- The crystal's offset at a temperature in 1/16 °C, in 1/64 ppm. -/
def Block.crystalOffset (b : Block) (t : Int) : Rat :=
  let pt (i : Nat) : Rat := signed16 (b.regField (Off.ckXtalComp0 + 4 * i) 0 16)
  let x : Rat := (t : Rat) / 16
  if x ≤ -20 then pt 0
  else if 100 ≤ x then pt 4
  else
    let i := ((x + 20) / 30).floor.toNat
    let f := (x + 20) / 30 - i
    pt i + (pt (i + 1) - pt i) * f

/-- PLL_ROOT's correction after a round: toward −e(T), held to ±50 ppm, at most 0.25 ppm a round. -/
def Block.correct (b : Block) : Block :=
  if ¬ b.regBit Off.ckCtrl 1 then { b with ck.corr := 0, ck.clipped := false }
  else
    let want := -(b.crystalOffset (b.htCh 0).1)
    let clip := decide (3200 < want) || decide (want < -3200)
    let want := max (-3200) (min 3200 want)
    let now := b.ck.corr
    let v := if now + 16 < want then now + 16 else if want < now - 16 then now - 16 else want
    let b := { b with ck.corr := v, ck.clipped := clip }
    if clip then b.orReg Off.ckAlarm 128 else b

/-- The bandgap check and trim: more than 1 % away sets the alarm and holds the trim, else the round takes it from the fused
table at the reading of sensor 1 (R383). -/
def Block.bandgap (b : Block) : Block :=
  let v := (b.htCh 94).1
  let r : Int := Config.bandgapRef
  let bad := (b.htCh 94).2 && decide (r < 100 * (v - r).natAbs)
  let b := { b with heat.bandgapHeld := bad }
  if bad then b.orReg Off.htAlarm 32
  else match b.reading 1 with
    | some t => { b with heat.trim := Config.bandgapTrim t }
    | none => b

/-! ### Coils and calibration (R274, R420, R421) -/

/-- A suspect coil of a column (R274): a remap that is still due has taken its spare already. -/
def Block.coilSuspect (b : Block) (n i : Nat) : Block :=
  let x := b.col n
  if ¬ b.regBit Off.stCtrl 1 then b.event .coilSuspect n [BitVec.ofNat 16 (x.physical i)]
  else if x.remapDue.contains (x.physical i) ∨ ¬ b.inSvc n then b
  else if x.failed.length + x.remapDue.length < 4 then b.setCol n { x with remapDue := x.remapDue ++ [x.physical i] }
  else ((b.orReg Off.stAlarm 2).event .columnFail n).fenceRunning [n]

/-- The suspects of a round on a column, and its counts handed on. -/
def Block.coilRound (b : Block) (n : Nat) : Block :=
  let x := b.col n
  let bad := (List.range 72).filter fun i => decide (256 ≤ tget (fun _ => 0) x.ceNow i)
  (b.setCol n { x with ceLast := x.ceNow, ceNow := [] }).each bad fun b i => b.coilSuspect n i

/-- The trigger move in 1/16 °C. -/
def Block.calThresh (b : Block) : Rat := b.regField Off.caCtrl 0 5 * 16

/-- The largest move between two lists of temperatures. -/
def largestMove (xs ys : List Rat) : Rat := ((xs.zip ys).map fun e => ratAbs (e.1 - e.2)).foldl max 0

/-- Stack calibrations of a channel asked for; where none was due they begin to wait for their slots now, when `gone` slots
have gone. -/
def Chan.askCal (x : Chan) (now : Tide) (gone : Nat) (due : BitVec 2) : Chan :=
  if x.calDue = 0 ∧ due ≠ 0 then { x with calDue := due, calAt := now, calMark := gone, calSlots := 0 } else { x with calDue := x.calDue ||| due }

/-- A channel's stack calibrations triggered by temperature (R420, R421). -/
def Block.calTrigger (b : Block) (n : Nat) : Block :=
  let x := b.chan n
  let out := !b.inSvc n || (x.pwr == .selfRefresh && x.forced) || x.pwr == .off || b.dieInReset n
  if out then b
  else
    let coil := if x.coilTemps.isEmpty then 0 else largestMove x.coilTemps (b.coilTempsNow n)
    let dram := match x.dramTemp with
      | some t => ratAbs (t - b.layerUsed (1 + dieOf n))
      | none => 0
    let due0 := b.regBit Off.caCtrl 9 && decide (b.calThresh < coil)
    let due1 := b.regBit Off.caCtrl 10 && decide (b.calThresh < dram)
    let b := b.setChan n (x.askCal b.ck.tide (b.slotsGone x) ((if due0 then 1 else 0) ||| (if due1 then 2 else 0)))
    if (due0 ∧ 320 < coil) ∨ (due1 ∧ 320 < dram) then b.wakeChan n else b

/-- A lane's calibration triggered by temperature: its side asks for one window. -/
def Block.laneTrigger (b : Block) (l : Nat) : Block :=
  let x := b.lane l
  match x.calTemp with
  | none => b
  | some t =>
    if b.regBit Off.caCtrl 8 ∧ x.inRun ∧ b.calThresh < ratAbs (t - b.laneTemp l) then
      (b.modLane l fun x => { x with calPending := true }).askWindow (laneSide l)
    else b

/-! ### The report -/

/-- A signed 16-bit value as two bytes. -/
def leSigned (v : Int) : List Byte := leBytes (BitVec.ofInt 16 v).toNat 2

/-- What a round reports: package power and the layer records (R329, R400). -/
def Block.heatReport (b : Block) : List Byte :=
  leBytes b.heat.milliwatt 4 ++ leBytes 0 4 ++ (List.range 17).flatMap fun l =>
    let x := b.layer l
    let failed := (layerSensors l).any fun s => (b.sensor s).st == .failed
    leSigned x.sensor ++ leSigned x.model.floor ++ leSigned x.used.floor ++ [BitVec.ofNat 8 x.step.val,
      BitVec.ofNat 8 (b2n x.diverge + 2 * b2n failed + 4 * b2n x.modelOnly + 8 * b2n x.latch + 16 * b2n x.resting)]

/-- The report of the round just decided is kept. -/
def Block.keepReport (b : Block) : Block := { b with heat.report := b.heatReport }

/-! ### WATCH_ROUND (R382) -/

/-- The round runs: HK is ON, its clock runs, and the pier is between step 4 of arrival and phase 4 of departure. -/
def Block.roundRuns (b : Block) : Bool :=
  b.live && b.domOn hkDom && !b.ck.hmStopped

/-- The converter's values noted. -/
def Block.convert (b : Block) (r : Readings) : Block :=
  b.each (List.range 96) fun b i =>
    let off : Int := if i < 56 then b.readingOffset else 0
    let v : Int × Bool := match r.ch.getD i none with
      | some v => (v + off, true)
      | none => ((b.htCh i).1, false)
    { b with heat.ch := tset (fun _ => (0, false)) b.heat.ch i v }

/-- The counts of R254 handed over. -/
def Chan.countsTaken (x : Chan) : Chan := { x with nAct := 0, nRd := 0, nWr := 0, nRefab := 0, nRefpb := 0 }

/-- A side's reference as measured; a change of the row of R73 awaits the next TRAIN (R73, R74). -/
def Block.noteRef (b : Block) (sd : Side) (ppm : BitVec 16) (spread : BitVec 5) : Block :=
  b.modSide sd fun x =>
    { x with
      refPpm := ppm, refSpread := spread, sscPending := x.sscPending || (x.refSpread == 0) != (spread == 0)
      sscActive := if !x.spreadOwn && spread != 0 then spread else x.sscActive }

/-- The sensor checks of a round: powers noted, every reading seen, then every sensor tested (R389). -/
def Block.sensorRound (b : Block) (r : Readings) : Block :=
  let b := b.each (List.range 17) Block.notePower
  let b := b.each (List.range 56) fun b s => b.seeSensor (b.reading s) (r.atLimit.contains s) s
  b.each (List.range 56) fun b s => b.checkSensor (b.rawReading s) (r.atLimit.contains s) s

/-- A staggered survey above 60 W runs at half its rate until the draw is below 55 W (R373). -/
def Block.surveyPower (b : Block) : Block :=
  if ¬ b.sv.busy ∨ b.sv.run.isSome ∨ b.sv.kind.toNat < 2 then { b with sv.slowed := false }
  else if 60000 < b.heat.milliwatt then { b.orReg Off.pwAlarm 16 with sv.slowed := true }
  else if b.heat.milliwatt < 55000 then { b with sv.slowed := false }
  else b

/-- After the layers: the power cap, a survey's draw, the round's report, the crystal correction and the bandgap. -/
def Block.capAndTrim (b : Block) : Block := b.capRound.surveyPower.keepReport.correct.bandgap

/-- What follows from the layers' temperatures: refresh rates, coil suspects, calibration triggers. -/
def Block.afterLayers (b : Block) : Block :=
  let b := b.each (List.range 64) fun b n => ((b.refreshRate n).modChan n Chan.countsTaken).coilRound n
  let b := b.each (List.range 17) Block.markRefresh
  let b := b.each (List.range 32) Block.laneTrigger
  b.each (List.range 64) Block.calTrigger

/-- The measuring part of a round: conversions, the side references, the sensor checks. -/
def Block.measure (b : Block) (r : Readings) : Block :=
  let b := b.convert r
  let b := { b with heat.round := b.heat.round + 1 }
  ((b.noteRef .west r.refPpmW r.refSpreadW).noteRef .east r.refPpmE r.refSpreadE).sensorRound r

/-- The model's update and the layers' decisions. -/
def Block.decideLayers (b : Block) : Block :=
  let m := b.modelNext
  let b := { b with heat.tb := m.2, heat.seedAt := if b.heat.seedDue then some b.ck.tide else b.heat.seedAt, heat.seedDue := false }
  (b.each (List.range 17) fun b l => b.decideLayer (m.1.getD l 0) m.2 l).draw

/-- A round's end: the digital trip test, or the channels' steps. -/
def Block.tripOrStep (b : Block) : Block :=
  match (List.range 17).find? fun l => decide (threshold l 8 ≤ (b.layer l).used) with
  | some l => b.trip false 0xFF l
  | none => b.each (List.range 64) Block.decideStep

/-- WATCH_ROUND: a round starts as the tide counter passes a multiple of 1 ms (R382). -/
def Block.watchRound (b : Block) (r : Readings) : Block :=
  if b.roundRuns ∧ b.crossed msTicks b.heat.roundAt then ((({ b with heat.roundAt := b.ck.tide }).measure r).decideLayers.capAndTrim).afterLayers.tripOrStep else b

/-- The meaning of WATCH_ROUND. -/
def execWatchRound (r : Readings) (s : State) : Host.Outcome State Fault Refusal := s.upd (·.watchRound r)

/-! ### Manifests -/

/-- SENSOR_REPLACE (R391). -/
def Block.sensorReplace (b : Block) (m : ManRef) (s action fl : Nat) : Block :=
  let op := Mop.sensorReplace
  let x := b.sensor s
  if 56 ≤ s ∨ 1 < action then b.finish m op St.badParam
  else if action = 0 then
    if fl < 4 ∨ 7 < fl then b.finish m op St.badParam
    else
      let b := b.setSensor s { x with st := .excluded, cause := 0, floor := BitVec.ofNat 3 fl }
      let l := sensorLayer s
      let f := max (b.layer l).floor.val fl
      (b.setLayer l { b.layer l with floor := Fin.ofNat 8 f, step := maxStep (b.layer l).step (Fin.ofNat 8 f) }).finish m op St.ok
  else
    (b.setSensor s { x with st := .healthy, cause := 0, floor := 0, stuck := 0, last := none }).finish m op St.ok

/-- The meaning of SENSOR_REPLACE. -/
def execSensorReplace (m : ManRef) (sensor action floor : BitVec 8) (s : State) : Host.Outcome State Fault Refusal :=
  s.man m Mop.sensorReplace (·.sensorReplace m sensor.toNat action.toNat floor.toNat)

/-- The result of THERM_STATUS: the last round since PORST_N, or zeros (R400). -/
def Block.thermStatus (b : Block) : List Byte := if b.heat.report.isEmpty then leBytes 0 144 else b.heat.report

/-- The meaning of THERM_STATUS. -/
def execThermStatus (m : ManRef) (s : State) : Host.Outcome State Fault Refusal :=
  s.man m Mop.thermStatus fun b => b.finish m Mop.thermStatus St.ok b.thermStatus

end Sys2Proof.Machine
end

