-- ==== Sys2Proof/Machine/Survey.lean ====
section
/-! DEFINITION. Survey: repair, marking units unusable, the chart, surveys on request, calibration runs (chapter 16). -/

namespace Sys2Proof.Machine

open Sys2Proof

/-! ### Repair of DRAM (R404 to R406) -/

/-- A line of a bank: column, symbol, bit. -/
def BankFail.line (f : BankFail) : Nat × Nat × Nat := (f.col.toNat, f.sym, f.bit.toNat)

/-- A block of the failure logs: channel × 32 + bank (R424). -/
def bankBlock (ch bank : Nat) : Nat := ch * 32 + bank

/-- The entry of a failure log (`SV_LOG_ADDR`, R424). -/
def logWord (row col sym bit : Nat) : Word :=
  BitVec.ofNat 32 (row % 32768 + col % 32 * 2 ^ 15 + sym % 128 * 2 ^ 20 + bit % 8 * 2 ^ 27 + 2 ^ 31)

/-- A row repair in the chart's form (R415). -/
def rowRepair (ch bank row : Nat) : Word := BitVec.ofNat 32 (1 + ch * 4 + bank * 2 ^ 8 + row * 2 ^ 13)

/-- A column-line repair in the chart's form. -/
def lineRepair (ch bank : Nat) (l : Nat × Nat × Nat) : Word :=
  BitVec.ofNat 32 (2 + ch * 4 + bank * 2 ^ 8 + (l.1 + l.2.1 * 2 ^ 5 + l.2.2 * 2 ^ 12) * 2 ^ 13)

/-- The channel of a chart repair. -/
def repairChan (w : Word) : Nat := w.toNat / 4 % 64

/-- A repair in progress on one bank: what still fails, the spares left, the repairs made. -/
structure BankWork where
  left : List BankFail
  rows : Nat
  cols : Nat
  made : List Word := []

/-- A row takes a spare, if one is left. -/
def BankWork.takeRow (w : BankWork) (ch bank row : Nat) : BankWork :=
  if w.rows = 0 ∨ ¬ w.left.any fun f => f.row.toNat == row then w
  else { w with rows := w.rows - 1, left := w.left.filter fun f => f.row.toNat != row, made := w.made ++ [rowRepair ch bank row] }

/-- A line takes a spare, if one is left. -/
def BankWork.takeLine (w : BankWork) (ch bank : Nat) (l : Nat × Nat × Nat) : BankWork :=
  if w.cols = 0 ∨ ¬ w.left.any fun f => BankFail.line f == l then w
  else { w with cols := w.cols - 1, left := w.left.filter fun f => BankFail.line f != l, made := w.made ++ [lineRepair ch bank l] }

/-- The steps 2 to 5 of R405 in one bank. -/
def BankWork.allocate (w : BankWork) (ch bank : Nat) : BankWork :=
  let rowsOf (w : BankWork) : List Nat := ascending (w.left.map fun f => f.row.toNat)
  let linesOf (w : BankWork) : List (Nat × Nat × Nat) := (w.left.map BankFail.line).eraseDups
  let w := (rowsOf w).foldl (fun w r =>
    if 3 ≤ ((w.left.filter fun f => f.row.toNat == r).map BankFail.line).eraseDups.length then w.takeRow ch bank r else w) w
  let w := (linesOf w).foldl (fun w l =>
    if 3 ≤ (ascending ((w.left.filter fun f => BankFail.line f == l).map fun f => f.row.toNat)).length then w.takeLine ch bank l
    else w) w
  let w := (rowsOf w).foldl (fun w r => w.takeRow ch bank r) w
  (linesOf w).foldl (fun w l => w.takeLine ch bank l) w

/-- One bank repaired, and repaired again where the re-march of its repaired elements meets failures (R405, R412). -/
def repairBank (ch bank rows cols : Nat) (fails again : List BankFail) : BankWork :=
  let w := ({ left := fails, rows := rows, cols := cols } : BankWork).allocate ch bank
  if w.made.isEmpty ∨ again.isEmpty then w else ({ w with left := w.left ++ again } : BankWork).allocate ch bank

/-- The (symbol, bit) pairs of a channel that fail in four or more banks: coil faults (R405). -/
def coilFaults (fails : List BankFail) : List (Nat × Nat) :=
  ((fails.map fun f => (f.sym, f.bit.toNat)).eraseDups).filter fun k =>
    decide (4 ≤ (ascending ((fails.filter fun f => (f.sym, f.bit.toNat) == k).map fun f => f.bank.val)).length)

/-- Repairs of a kind (1 row, 2 line) that a list holds for one bank (R415). -/
def repairsIn (t : List Word) (kind ch bank : Nat) : Nat :=
  t.countP fun w => w.toNat % 8192 == kind + ch * 4 + bank * 2 ^ 8

/-- How many spares a survey reads from the fuses for a block, those that the factory left; all of them where it names none
(R404). -/
def sparesOf (t : List (Nat × Nat)) (blk dflt : Nat) : Nat :=
  match t.find? fun e => e.1 == blk with
  | some e => min e.2 dflt
  | none => dflt

/-- The failures that a bank's log holds, at most 64, and whether more came (R403). -/
def bankLog (f : SurveyFindings) (ch bank : Nat) : List BankFail × Bool :=
  let all := f.bankFails.filter fun e => e.ch.val == ch && e.bank.val == bank
  (all.take 64, decide (64 < all.length))

/-- A channel's marches: coil faults go to the shift network, banks are repaired; `true` if some bank is unrepairable.  A
bank whose log overflows is repaired from its 64 entries and passes only by its signature (R403); the spares are those that
the fuses and the field repairs held leave (R404). -/
def Block.repairChannel (b : Block) (f : SurveyFindings) (ch : Nat) : Block × Bool :=
  let all := (List.range 32).flatMap fun k => (bankLog f ch k).1
  let coils := coilFaults all
  let b := b.modCol ch fun x => { x with failed := ascending (coils.map (fun k => x.physical k.1) ++ x.failed) }
  let rest := all.filter fun e => !coils.contains (e.sym, e.bit.toNat)
  (List.range 32).foldl (fun (acc : Block × Bool) bank =>
    let (b, bad) := acc
    let blk := bankBlock ch bank
    let mine := rest.filter fun e => e.bank.val == bank
    let many := f.bankOverflow.find? fun e => e.1 == blk
    let leftOver := many.isSome || (bankLog f ch bank).2
    let sigBad := match many with
      | some e => !e.2
      | none => leftOver
    let logged := mine.map fun e => logWord e.row.toNat e.col.toNat e.sym e.bit.toNat
    if mine.isEmpty ∧ ¬ leftOver then (b, bad)
    else
      let held := b.sv.dramRepairs
      let w := repairBank ch bank (sparesOf f.spareRows blk 32 - repairsIn held 1 ch bank)
        (sparesOf f.spareCols blk 16 - repairsIn held 2 ch bank) mine
        (f.remarch.filter fun e => e.ch.val == ch && e.bank.val == bank)
      let lg : FailLog := { entries := logged, overflow := leftOver, sigFail := sigBad }
      ({ b with sv.dramRepairs := b.sv.dramRepairs ++ w.made, sv.logs := tset (fun _ => {}) b.sv.logs blk lg },
        bad || sigBad || !w.left.isEmpty)) (b, false)

/-- The field repairs of a channel. -/
def Block.repairsOf (b : Block) (ch : Nat) : Nat := b.sv.dramRepairs.countP fun w => repairChan w == ch

/-- While more than 2,048 repairs are held, the channel with the most leaves, the lower number among equals (R406). -/
def Block.trimRepairs (b : Block) : Nat → Block × List Nat
  | 0 => (b, [])
  | n + 1 =>
    if b.sv.dramRepairs.length ≤ 2048 then (b, [])
    else
      let worst := (List.range 64).foldl (fun m c => if b.repairsOf m < b.repairsOf c then c else m) 0
      let b := { b with sv.dramRepairs := b.sv.dramRepairs.filter fun w => repairChan w != worst }
      let (b, rest) := Block.trimRepairs b n
      (b, worst :: rest)

/-- The entry of an SRAM failure: word and bit (`SV_LOG_ADDR`, R424). -/
def sramWord (word bit : Nat) : Word := BitVec.ofNat 32 (word % 32768 + bit / 8 % 128 * 2 ^ 20 + bit % 8 * 2 ^ 27 + 2 ^ 31)

/-- An SRAM instance's failures, as (word, bit), given to its spare rows and its spare bit column: the bit that fails in
the most words, where in more than one, takes the column, the words left take the rows, and a column still free the first
bit after that; with that, the entries of the repairs, and whether failures are left over (R404; the order, and the entry's
form, are DEDUCED from R405 and R424: log 98). -/
def repairSram (inst rows cols : Nat) (fails : List (Nat × Nat)) : List Word × Bool :=
  let bits := ascending (fails.map (·.2))
  let count (k : Nat) : Nat := (ascending ((fails.filter fun e => e.2 == k).map (·.1))).length
  let most := bits.foldl (fun (m : Option Nat) k => match m with
    | some j => if count j < count k then some k else some j
    | none => some k) none
  let first := match most with
    | some k => if 1 < count k ∧ 0 < cols then some k else none
    | none => none
  let words := (ascending ((fails.filter fun e => some e.2 != first).map (·.1))).take rows
  let rest := fails.filter fun e => some e.2 != first && !words.contains e.1
  let col := if first.isNone ∧ 0 < cols then rest.head?.map (·.2) else first
  let entry (kind v : Nat) : Word := BitVec.ofNat 32 (kind + inst % 256 * 4 + v % 32768 * 2 ^ 13)
  ((match col with | some k => [entry 2 k] | none => []) ++ words.map (entry 1), rest.any fun e => some e.2 != col)

/-- SRAM repairs of a kind that are held for an instance. -/
def Block.sramHeld (b : Block) (kind inst : Nat) : Nat :=
  b.sv.sramRepairs.countP fun w => w.toNat % 8192 == kind + inst % 256 * 4

/-- One SRAM instance's march: its log, at most 64 entries, and its repairs from the spares left; past 64 entries the
signature of its re-march decides (`sramBad`: it mismatches).  Answers whether the instance is unrepairable (R402 to
R404). -/
def Block.sramInstance (b : Block) (f : SurveyFindings) (inst : Nat) : Block × Bool :=
  let all := (f.sramFails.filter fun e => e.1 == inst).map (·.2)
  let fails := all.take 64
  let many := decide (64 < all.length)
  let sigBad := many && f.sramBad.contains inst
  let r := repairSram inst (2 - b.sramHeld 1 inst) (1 - b.sramHeld 2 inst) fails
  let lg : FailLog := { entries := fails.map fun e => sramWord e.1 e.2, overflow := many, sigFail := sigBad }
  ({ b with sv.logs := tset (fun _ => {}) b.sv.logs (0x800 + inst) lg, sv.sramRepairs := (b.sv.sramRepairs ++ r.1).take 256 },
    sigBad || r.2)

/-! ### Marking (R407) -/

/-- A lane marked unusable. -/
def Block.markLane (b : Block) (l : Nat) : Block :=
  let b := b.modLane l fun x => { x.offUnlessFailed with unusable := true }
  ({ b with sv.failLane := b.sv.failLane ||| BitVec.ofNat 32 (2 ^ l) }).event .surveyFail l

/-- The bit of `SV_FAIL_MISC` that stands for a domain. -/
def miscBit (d : Nat) : Nat :=
  match d with
  | 10 => 1 | 11 => 2 | 12 => 4 | 15 => 8 | 14 => 16 | 13 => 32 | 8 => 64 | 9 => 128
  | _ => 0

/-- A berth in service leaves it for good (R236). -/
def Block.leaveService (b : Block) (n : Nat) : Block :=
  if b.inSvc n then (((b.enterFenced n).charterBerthLost n).settle).checkOpen else b

/-- The berths of a BG domain that fails while one of them serves leave service as its power goes (R236, R407). -/
def Block.bgFails (b : Block) (d : Nat) : Block := b.each [2 * (d - 16), 2 * (d - 16) + 1] Block.leaveService

/-- What the survey registers show of a domain marked FAILED: its bit of `SV_FAIL_MISC`, its berths, or its lanes (R407,
R424; that a quad shows its four lanes is DEDUCED: log 107). -/
def Block.showDomain (b : Block) (d : Nat) : Block :=
  { b with
    sv.failMisc := b.sv.failMisc ||| BitVec.ofNat 8 (miscBit d)
    sv.failCh := if 16 ≤ d then b.sv.failCh ||| chBit (2 * (d - 16)) ||| chBit (2 * (d - 16) + 1) else b.sv.failCh
    sv.failLane := if d < 8 then b.sv.failLane ||| BitVec.ofNat 32 (15 * 2 ^ (4 * d)) else b.sv.failLane }

/-- What they no longer show of a domain that passes; a unit marked for itself stays shown. -/
def Block.hideDomain (b : Block) (d : Nat) : Block :=
  let lanes := ((List.range 4).map (4 * d + ·)).filter fun l => !(b.lane l).unusable
  let chans := [2 * (d - 16), 2 * (d - 16) + 1].filter fun n => !(b.berth n).unusable && !b.stk.fence.getLsbD n
  { b with
    sv.failMisc := b.sv.failMisc &&& ~~~ BitVec.ofNat 8 (miscBit d)
    sv.failCh := if 16 ≤ d then chans.foldl (fun v n => v &&& ~~~ chBit n) b.sv.failCh else b.sv.failCh
    sv.failLane := if d < 8 then lanes.foldl (fun v l => v &&& ~~~ BitVec.ofNat 32 (2 ^ l)) b.sv.failLane else b.sv.failLane }

/-- A domain marked FAILED. -/
def Block.markDomain (b : Block) (d : Nat) : Block :=
  let b := if 16 ≤ d then b.bgFails d else b
  ((b.modDom d fun x => { x with st := .failed }).showDomain d).event .surveyFail d

/-- A FAILED domain that a survey passes is OFF (R370). -/
def Block.passDomain (b : Block) (d : Nat) : Block :=
  if (b.dom d).st = .failed then
    { (b.modDom d fun x => { x with st := .off }).hideDomain d with sv.noPower := b.sv.noPower &&& ~~~ BitVec.ofNat 48 (2 ^ d) }
  else b

/-- A channel marked unusable: one in service leaves it, and its berth stays ABSENT; where its column is out of spares or its
TSVs are open it is fenced (R278, R406, R407). -/
def Block.markChannel (b : Block) (n : Nat) (fence : Bool) : Block :=
  let b := if fence then b.fenceRunning [n] else b.leaveService n
  let b := b.modBerth n fun x => { x with unusable := true, fillDone := false }
  ({ b with sv.failCh := b.sv.failCh ||| chBit n }).event .surveyFail n

/-- The TSVs of a supply line in each gap; a logic line has three (R271). -/
def tsvSupply : TsvLine → Option Nat
  | .vddStack => some 1536
  | .vppStack => some 192
  | .vss => some 2048
  | .srst | .drst _ | .dman => none

/-- Opens that leave a logic line one TSV (R271). -/
def tsvThin (line : TsvLine) (opens : Nat) : Bool := (tsvSupply line).isNone && opens == 2

/-- Opens beyond what a line tolerates: more than 10 % of a supply's TSVs, or all three of a logic line's (R271). -/
def tsvBroken (line : TsvLine) (opens : Nat) : Bool :=
  match tsvSupply line with
  | some k => decide (k < 10 * opens)
  | none => decide (3 ≤ opens)

/-- The gaps at which a survey counts opens that meet a test. -/
def tsvGaps (f : SurveyFindings) (p : TsvLine → Nat → Bool) : BitVec 16 :=
  f.tsvOpens.foldl (fun (v : BitVec 16) e => if p e.2.1 e.2.2 then v ||| BitVec.ofNat 16 (2 ^ e.1.val) else v) 0

/-- The channels that a survey's TSV opens take out: those of every die at and above the gap (R271). -/
def tsvChannels (bad : BitVec 16) : List Nat :=
  (List.range 64).filter fun n => (List.range (dieOf n + 1)).any fun g => bad.getLsbD g

/-- A failed command coil that a survey found: the spare takes its place; answers whether the column had none left (R273,
R406). -/
def Column.caRepair (x : Column) (k : Nat) : Column × Bool :=
  match x.caFail with
  | none => ({ x with caFail := some k }, false)
  | some j => (x, j != k)

/-- A survey's failed command coils repaired, and the columns that have more than their spare can carry. -/
def Block.caRepairs (b : Block) (fails : List (Nat × Nat)) : Block × List Nat :=
  fails.foldl (fun (acc : Block × List Nat) e =>
    let r := (acc.1.col e.1).caRepair e.2
    (acc.1.setCol e.1 r.1, if r.2 then acc.2 ++ [e.1] else acc.2)) (b, [])

/-- A domain that is OFF starts to power. -/
def Block.powerUp (b : Block) (d : Nat) : Block :=
  b.modDom d fun (x : Dom) => if x.st = DomState.off then { x with st := .powering, since := b.ck.tide } else x

/-- The check of the survey engine, which comes before every survey: a mismatch marks SV FAILED, a match brings an SV that
an earlier one marked back (R370, R408). -/
def Block.svCheck (b : Block) (ok : Bool) : Block :=
  let b := { b with sv.svOk := ok }
  if ¬ ok then (b.markDomain svDom).event .svFail
  else if (b.dom svDom).st = .failed ∧ ¬ b.sv.noPower.getLsbD svDom then (b.passDomain svDom).powerUp svDom
  else b

/-- Logic and base-die SRAMs: the domains that fail; an unrepairable SRAM takes its BG domain with it (R407, R412 step 1). -/
def Block.applyLogic (b : Block) (f : SurveyFindings) : Block :=
  let b := b.each ((List.range 48).filter fun d => f.domFail.getLsbD d) Block.markDomain
  b.each (ascending (f.sramFails.map (·.1))) fun b i =>
    let r := b.sramInstance f i
    if r.2 ∧ 16 ≤ Config.sramHome i ∧ Config.sramHome i < 48 ∧ (r.1.dom (Config.sramHome i)).st ≠ .failed then
      r.1.markDomain (Config.sramHome i)
    else r.1

/-- Counts of open TSVs that a new test of the same gaps and lines replaces. -/
def mergeOpens (new old : List (Fin 16 × TsvLine × Nat)) : List (Fin 16 × TsvLine × Nat) :=
  new ++ old.filter fun e => !new.any fun x => x.1 == e.1 && x.2.1 == e.2.1

/-- Columns and TSVs: coils repaired, round trips; the channels that no spare can carry any more (R407, R412 step 2). -/
def Block.applyColumns (b : Block) (f : SurveyFindings) : Block × List Nat :=
  let b := { b with stk.tsv := b.stk.tsv ||| tsvGaps f tsvThin
                    stk.opens := mergeOpens f.tsvOpens b.stk.opens }
  let b := if tsvGaps f tsvThin = 0 then b else b.orReg Off.stAlarm 32
  let b := b.each (f.coilFails.map fun e => e.1 * 128 + e.2) fun b k =>
    b.modCol (k / 128) fun x => { x with failed := ascending (k % 128 :: x.failed) }
  let r := b.caRepairs f.caCoilFails
  (r.1.measured f.flight, r.2)

/-- Marches and retention: repairs, and the channels that leave for want of spares or of room in the chart (R405, R406, R412
steps 3 to 5). -/
def Block.applyMarches (b : Block) (f : SurveyFindings) : Block × List Nat :=
  let chans := ascending ((f.bankFails.map fun e => e.ch.val) ++ f.bankOverflow.map fun e => e.1 / 32)
  let (b, bad) := chans.foldl (fun (acc : Block × List Nat) c =>
    let (b, x) := acc.1.repairChannel f c
    (b, if x then acc.2 ++ [c] else acc.2)) (b, [])
  let (b, cut) := b.trimRepairs 64
  (b, ascending (bad ++ cut))

/-- The findings about channels whose domain is in order: a domain that failed its own test runs no more of them. -/
def SurveyFindings.onSound (f : SurveyFindings) (ok : Nat → Bool) : SurveyFindings :=
  { f with bankFails := f.bankFails.filter fun e => ok e.ch.val, bankOverflow := f.bankOverflow.filter fun e => ok (e.1 / 32)
           coilFails := f.coilFails.filter fun e => ok e.1, caCoilFails := f.caCoilFails.filter fun e => ok e.1
           flight := f.flight.filter fun e => ok e.1 }

/-- A survey's findings applied, in the order of R412: repairs, marks, logs, measurements (R402 to R408); `tested` names the
channels that it tests. -/
def Block.applyFindings (b : Block) (f : SurveyFindings) (tested : Nat → Bool := fun _ => true) : Block :=
  let b := { b.svCheck f.svOk with sv.runMs := BitVec.ofNat 32 f.runMs }
  let b := b.applyLogic f
  let b := b.each ((List.range 32).filter fun l => f.laneFail.getLsbD l) Block.markLane
  let f := SurveyFindings.onSound f fun n => (b.dom (bgDom n)).st != .failed
  let (b, spare) := b.applyColumns f
  let (b, bad) := b.applyMarches f
  let b := b.each bad fun b n => b.markChannel n false
  let worn := (List.range 64).filter fun n => tested n && decide (4 < (b.col n).failed.length)
  b.each (ascending (worn ++ spare ++ (tsvChannels (tsvGaps f tsvBroken)).filter tested)) fun b n => b.markChannel n true

/-! ### The chart (R366, R415, R434) -/

/-- A chart is valid: its commit mark stands, its CRC is good, its header, die and stepping are right (R366, R415). -/
def Chart.valid (c : Chart) : Bool :=
  c.commit && c.crcOk && c.magic == 0x54524843 && c.stepping == 0xA1 && c.die == Config.dieNumber

/-- The governing chart, if it is valid. -/
def Block.goodChart (b : Block) : Option Chart :=
  match b.lg.gov with
  | none => none
  | some s => match tget (fun _ => none) b.lg.charts s with
    | some c => if c.valid then some c else none
    | none => none

/-- What a chart of this moment holds. -/
def Block.chartNow (b : Block) (age : BitVec 4) : Chart :=
  let mask (n : Nat) (p : Nat → Bool) : Nat := ((List.range n).map fun i => if p i then 2 ^ i else 0).sum
  { age := age
    generation := match b.goodChart with
      | some c => c.generation + 1
      | none => 1
    die := Config.dieNumber, crcOk := true, commit := true
    laneMap := BitVec.ofNat 32 (mask 32 fun l => (b.lane l).unusable)
    chMap := BitVec.ofNat 64 (mask 64 fun n => (b.berth n).unusable)
    domMap := BitVec.ofNat 48 (mask 48 fun d => (b.dom d).st == .failed)
    dramRepairs := b.sv.dramRepairs, sramRepairs := b.sv.sramRepairs
    coils := (List.range 64).foldl (fun (t : Tbl (List Nat)) n => tset (fun _ => []) t n (b.col n).failed) []
    caCoils := (List.range 64).foldl (fun (t : Tbl (Option Nat)) n => tset (fun _ => none) t n (b.col n).caFail) []
    tsv := b.stk.tsv, opens := b.stk.opens
    flights := (List.range 64).foldl (fun (t : Tbl Nat) n => tset (fun _ => 0) t n (b.col n).flight) []
    therm := b.heat.therm
    comp := (List.range 5).foldl (fun (t : Tbl Word) i => tset (fun _ => 0) t i (b.reg (Off.ckXtalComp0 + 4 * i))) []
    floors := (List.range 56).foldl (fun (t : Tbl (BitVec 3)) s =>
      tset (fun _ => 0) t s (if (b.sensor s).st = .excluded then (b.sensor s).floor else 0)) [] }

/-- The slot that a chart write takes: the least worn that neither governs nor is retired (R434). -/
def Block.chartSlot (b : Block) : Option Nat :=
  let wear (s : Nat) : Nat := tget (fun _ => 0) b.lg.wear s
  ((List.range 14).filter fun s => b.lg.gov != some s && decide (wear s < 10000)).foldl
    (fun (m : Option Nat) s => match m with
      | some t => if wear s < wear t then some s else some t
      | none => some s) none

/-- A chart write begins: the slot counts it, and holds no whole chart until the commit mark. -/
def Block.chartBegin (b : Block) : Block :=
  if b.sv.logDisabled then b
  else match b.chartSlot with
    | none => (b.event .logWorn).orReg Off.lgAlarm 1
    | some s =>
      let cut := match tget (fun _ => none) b.lg.charts s with
        | some c => some { c with crcOk := false, commit := false }
        | none => some { b.chartNow 0 with crcOk := false, commit := false }
      { b.wearSlot s with lg.writing := some s, lg.charts := tset (fun _ => none) b.lg.charts s cut }

/-- The commit mark is written: the chart governs. -/
def Block.chartEnd (b : Block) (age : BitVec 4) : Block :=
  match b.lg.writing with
  | none => b
  | some s =>
    { b with lg.charts := tset (fun _ => none) b.lg.charts s (some (b.chartNow age)), lg.gov := some s, lg.writing := none }

/-- The chart's content taken up at an arrival (R339, R364, R415); exclusions stand in AON, so that a warm one has them
already (R391, R401). -/
def Block.loadChart (b : Block) : Block :=
  match b.goodChart with
  | none => { b.orReg Off.pwAlarm 4 with pw.chartValid := false, pw.chartAge := 0 }
  | some c =>
    let b := { b with pw.chartValid := true, pw.chartAge := c.age, heat.therm := c.therm, stk.tsv := b.stk.tsv ||| c.tsv, stk.opens := c.opens
                      sv.dramRepairs := (b.sv.dramRepairs ++ c.dramRepairs).eraseDups
                      sv.sramRepairs := (b.sv.sramRepairs ++ c.sramRepairs).eraseDups
                      sv.failLane := b.sv.failLane ||| c.laneMap, sv.failCh := b.sv.failCh ||| c.chMap }
    let b := b.each (List.range 5) fun b i => b.setReg (Off.ckXtalComp0 + 4 * i) (tget (fun _ => 0) c.comp i)
    let b := b.each (List.range 32) fun b l => b.modLane l fun x => { x with unusable := x.unusable || c.laneMap.getLsbD l }
    let b := b.each (List.range 48) fun b d => if c.domMap.getLsbD d then (b.modDom d fun x => { x with st := .failed }).showDomain d else b
    let b := b.each (List.range 64) fun b n =>
      let b := b.modBerth n fun x => { x with unusable := x.unusable || c.chMap.getLsbD n }
      b.modCol n fun x => { x with failed := ascending (x.failed ++ tget (fun _ => []) c.coils n)
                                   caFail := x.caFail.orElse fun _ => tget (fun _ => none) c.caCoils n
                                   flight := tget (fun _ => 0) c.flights n }
    b.each (List.range 56) fun b s =>
      let f := tget (fun _ => 0) c.floors s
      if f = 0 ∨ b.pw.warm then b else b.setSensor s { b.sensor s with st := .excluded, floor := f }

/-! ### SURVEY_RUN (R414) -/

/-- Units of a scope of SURVEY_RUN that are OFF, ABSENT or failed. -/
def Block.surveyable (b : Block) (scope i : Nat) : Bool :=
  match scope with
  | 0 => decide (i < 32) && ((b.lane i).st == .off || (b.lane i).st == .failed || (b.lane i).unusable)
  | 1 => decide (i < 64) && (b.berth i).st == .absent
  | 2 => decide (i < 2) && ((b.dom (10 + i)).st == .off || (b.dom (10 + i)).st == .failed)
  | _ => i == 0 && ((b.dom qyDom).st == .off || (b.dom qyDom).st == .failed)

/-- The units that a mask names. -/
def maskUnits (m : BitVec 64) : List Nat := (List.range 64).filter fun i => m.getLsbD i

/-- How many units a scope has. -/
def scopeSize (scope : Nat) : Nat :=
  match scope with
  | 0 => 32 | 1 => 64 | 2 => 2 | _ => 1

/-- SURVEY_RUN starts. -/
def Block.surveyRun (b : Block) (m : ManRef) (scope mode : Nat) (mask : BitVec 64) : Block :=
  let op := Mop.surveyRun
  let us := maskUnits mask
  if 3 < scope ∨ 1 < mode ∨ us.any (fun i => decide (scopeSize scope ≤ i)) then b.finish m op St.badParam
  else if b.sv.run.isSome then b.finish m op St.busyRetry
  else if ¬ b.domOn svDom ∨ ¬ b.sv.svOk ∨ ¬ us.all (b.surveyable scope) then b.finish m op St.refused
  else { b with sv.run := some { m := m, scope := BitVec.ofNat 8 scope, mask := mask }, sv.kind := 3, sv.busy := true }

/-- The meaning of SURVEY_RUN. -/
def execSurveyRun (m : ManRef) (scope mode : BitVec 8) (mask : BitVec 64) (s : State) : Host.Outcome State Fault Refusal :=
  s.man m Mop.surveyRun (·.surveyRun m scope.toNat mode.toNat mask)

/-- The findings of a survey that tests the named units alone; the logic of a lane's quad is tested where the quad is not
ON, so that no other lane of it is in service (R407, R414). -/
def SurveyFindings.named (f : SurveyFindings) (scope : Nat) (mask : BitVec 64) (on : Nat → Bool) : SurveyFindings :=
  let ch (n : Nat) : Bool := scope == 1 && mask.getLsbD n
  let dom (d : Nat) : Bool := match scope with
    | 0 => decide (d < 8) && !on d && (List.range 32).any fun l => quadDom l == d && mask.getLsbD l
    | 1 => decide (16 ≤ d) && (mask.getLsbD (2 * (d - 16)) || mask.getLsbD (2 * (d - 16) + 1))
    | 2 => (d == 10 && mask.getLsbD 0) || (d == 11 && mask.getLsbD 1)
    | _ => d == qyDom
  { f with
    laneFail := if scope = 0 then f.laneFail &&& mask.setWidth 32 else 0
    domFail := (List.range 48).foldl (fun (v : BitVec 48) d =>
      if f.domFail.getLsbD d && dom d then v ||| BitVec.ofNat 48 (2 ^ d) else v) 0
    bankFails := f.bankFails.filter fun e => ch e.ch.val, bankOverflow := f.bankOverflow.filter fun e => ch (e.1 / 32)
    sramFails := f.sramFails.filter fun e => dom (Config.sramHome e.1)
    coilFails := f.coilFails.filter fun e => ch e.1, caCoilFails := f.caCoilFails.filter fun e => ch e.1
    tsvOpens := if scope = 1 then f.tsvOpens else [], flight := f.flight.filter fun e => ch e.1 }

/-- A unit failed in the findings; a berth whose stack calibration does not pass cannot come into service (R236, R268). -/
def Block.unitFailed (b : Block) (f : SurveyFindings) (scope i : Nat) : Bool :=
  match scope with
  | 0 => ((b.lane i).unusable && f.laneFail.getLsbD i) || f.domFail.getLsbD (quadDom i)
  | 1 => (b.berth i).unusable || (b.dom (bgDom i)).st == .failed || !f.calPass.getLsbD i || !b.flightOk i
  | 2 => f.domFail.getLsbD (10 + i)
  | _ => f.domFail.getLsbD qyDom

/-- Marks lifted from the named units before the findings are applied: a survey that passes them clears them. -/
def Block.liftMark (b : Block) (scope i : Nat) : Block :=
  match scope with
  | 0 =>
    let b := { b.modLane i fun x => { x with unusable := false } with sv.failLane := b.sv.failLane &&& ~~~ BitVec.ofNat 32 (2 ^ i) }
    b.passDomain (quadDom i)
  | 1 =>
    let b := { b.modBerth i fun x => { x with unusable := false } with sv.failCh := b.sv.failCh &&& ~~~ chBit i }
    b.passDomain (bgDom i)
  | 2 => b.passDomain (10 + i)
  | _ => b.passDomain qyDom

/-- A unit that passed is put into service (R414); a quad is powered where the CK domain that it needs is ON (R369). -/
def Block.unitPasses (b : Block) (f : SurveyFindings) (scope i : Nat) : Block :=
  match scope with
  | 0 =>
    let b := b.setReg (lnOff Off.lnCtrl i) (b.reg (lnOff Off.lnCtrl i) ||| 1)
    if b.domOn (ckDom (laneSide i)) then b.powerUp (quadDom i) else b
  | 1 => if b.domOn (bgDom i) then b.bringUp i (f.calPass.getLsbD i) else (b.stampCal i (f.calPass.getLsbD i)).powerUp (bgDom i)
  | 2 => b.powerUp (10 + i)
  | _ => b.powerUp qyDom

/-- A survey on request ends: repairs, marks, and the units that passed into service. -/
def Block.surveyEnds (b : Block) (r : SurveyRun) (f : SurveyFindings) : Block :=
  let sc := r.scope.toNat
  let us := maskUnits r.mask
  let before := b.sv.dramRepairs.length + b.sv.sramRepairs.length
  let b := (b.each us fun b i => b.liftMark sc i).applyFindings f fun n => decide (sc = 1) && r.mask.getLsbD n
  let bad := us.filter fun i => b.unitFailed f sc i
  let good := us.filter fun i => !b.unitFailed f sc i
  let b := b.each good fun b i => b.modBerth i fun x => if sc = 1 then { x with fillDone := false } else x
  let b := b.each good fun b i => b.unitPasses f sc i
  let made := b.sv.dramRepairs.length + b.sv.sramRepairs.length - before
  let bits (xs : List Nat) : Nat := (xs.map fun i => 2 ^ i).sum
  ({ b with sv.run := none, sv.busy := false }).finish r.m Mop.surveyRun St.ok
    (leBytes (bits good) 8 ++ leBytes (bits bad) 8 ++ leBytes made 4 ++ leBytes (f.runMs * 1000) 4)

/-- A survey on request whose check of the engine fails: SV is FAILED, nothing is tested (R408). -/
def Block.surveyNoEngine (b : Block) (r : SurveyRun) (f : SurveyFindings) : Block :=
  let b := b.svCheck false
  ({ b with sv.run := none, sv.busy := false, sv.runMs := BitVec.ofNat 32 f.runMs }).finish r.m Mop.surveyRun St.refused

/-- SURVEY_RUN_DONE. -/
def Block.surveyRunDone (b : Block) (f : SurveyFindings) : Block :=
  match b.sv.run with
  | none => b
  | some r =>
    if ¬ b.hmRuns ∨ ¬ b.coreRuns then b
    else if f.svOk then b.surveyEnds r (SurveyFindings.named f r.scope.toNat r.mask b.domOn) else b.surveyNoEngine r f

/-- The meaning of SURVEY_RUN_DONE. -/
def execSurveyRunDone (f : SurveyFindings) (s : State) : Host.Outcome State Fault Refusal := s.upd (·.surveyRunDone f)

/-! ### Calibration (R420 to R423) -/

/-- The pass bit of a column after a run of either class (`ST_COL_STATUS.CAL_PASS`, R283). -/
def Block.stampPass (b : Block) (u : Nat) : Block :=
  b.modCol u fun x => { x with calPass := (b.chan u).coilPass && (b.chan u).dramPass }

/-- A channel that returns to service and has no run left to do follows R236 (R263). -/
def Block.endReturn (b : Block) (u : Nat) : Block :=
  if (b.chan u).returning ∧ (b.chan u).calDue = 0 then (b.bringUp u true).modChan u fun x => { x with returning := false }
  else b

/-- The unit's run is complete: its count, time and temperature, or its pass bit. -/
def Block.calPassed (b : Block) (cls u flight : Nat) : Block :=
  match cls with
  | 0 => b.laneRun u
  | 1 =>
    let b := b.modCol u fun x => { x with flight := flight % 1024 }
    let b := b.modChan u fun x =>
      { x with coilPass := true, calDue := x.calDue &&& 2, coilTemps := b.coilTempsNow u, calSlots := 0, calAt := b.ck.tide
               calMark := b.slotsGone x
               calFails := tset (fun _ => 0) x.calFails 1 0 }
    ((b.stampPass u).endReturn u).calRunNext 1 u true
  | _ =>
    let b := b.modChan u fun x =>
      { x with dramPass := true, calDue := x.calDue &&& 1, dramTemp := some (b.layerUsed (1 + dieOf u)), calSlots := 0
               calAt := b.ck.tide, calMark := b.slotsGone x, calFails := tset (fun _ => 0) x.calFails 2 0 }
    ((b.stampPass u).endReturn u).calRunNext 2 u true

/-- A run that failed (R422). -/
def Block.calFailed (b : Block) (cls u : Nat) : Block :=
  match cls with
  | 0 => (((b.modLane u fun x => { x with calPending := false }).orReg Off.caAlarm 1).calRunNext 0 u false).dropLaneFull u
  | k + 1 =>
    let n := tget (fun _ => 0) (b.chan u).calFails (k + 1) + 1
    let b := b.orReg Off.caAlarm (if k = 0 then 2 else 4)
    let b := b.modChan u fun x =>
      { x with calFails := tset (fun _ => 0) x.calFails (k + 1) n, calSlots := 0, calAt := b.ck.tide, calMark := b.slotsGone x
               coilPass := if k = 0 then false else x.coilPass, dramPass := if k = 0 then x.dramPass else false }
    let b := (b.stampPass u).calRunNext (k + 1) u false
    if 3 ≤ n then
      (((b.orReg Off.caAlarm 8).event .calFail u).fenceRunning [u]).modChan u fun x => { x with calDue := 0, returning := false }
    else b

/-- A unit that a calibration run may concern: a lane that works, a channel that is awake. -/
def Block.calUnit (b : Block) (cls u : Nat) : Bool :=
  match cls with
  | 0 => decide (u < 32) && (b.lane u).inRun
  | _ => (b.chan u).pwr == .awake && b.inSvc u && !b.dieInReset u

/-- The slots that a stack run of a class has still to take. -/
def Chan.calLeft (x : Chan) (cls : Nat) : Nat := calNeed cls - (if x.calClass = some cls then x.calSlots else 0)

/-- A stack run of a class may have ended by now: it is due, a repetition has waited its 1 ms, and what it still needs fits
in the slots since it began, under the 1/64 ceiling; a channel that returns to service has nothing else to do with its
slots (R14, R421, R422). -/
def Block.calFits (b : Block) (cls u : Nat) : Bool :=
  let x := b.chan u
  let left := x.calLeft cls
  x.calDue.getLsbD (cls - 1) && !b.calWaits x cls
    && (if x.returning then decide (2 * left ≤ b.since x.calAt) else b.bgFits u .cal x.calAt x.calMark left)

/-- A run of a class on a unit may complete now; a lane's does so in the quiet slots of a window that calibrates (R421). -/
def Block.calMay (b : Block) (cls u : Nat) : Bool :=
  match cls with
  | 0 => b.calUnit 0 u && (b.lane u).calPending && match (b.side (laneSide u)).win with
    | some w => w.cal && decide (0 < w.slots)
    | none => false
  | _ => ((b.chan u).pwr == .awake && (b.calUnit cls u || ((b.chan u).returning && b.channelFit u))) && b.calFits cls u

/-- The slots of a stack run taken in one go. -/
def Block.calSpent (b : Block) (cls u : Nat) : Block :=
  if cls = 0 then b
  else
    let left := (b.chan u).calLeft cls
    let b := b.modChan u fun x => { x with slots := x.slots + left, lastBusy := b.ck.tide }
    if (b.chan u).returning then b else b.noteBg u .cal left

/-- CALIBRATION_DONE: a run of a class on a unit completes, or fails; no coil timing passes with a round trip beyond the
limit of R268. -/
def Block.calibrationDone (b : Block) (cls u : Nat) (pass : Bool) (flight : Nat) : Block :=
  if ¬ b.live ∨ ¬ b.coreRuns ∨ ¬ b.calMay cls u then b
  else
    let ok := pass && (cls != 1 || decide (flight ≤ flightLimit u))
    let b := b.calSpent cls u
    if ok then b.calPassed cls u flight else b.calFailed cls u

/-- The meaning of CALIBRATION_DONE. -/
def execCalibrationDone (cls : Fin 3) (unit : Fin 64) (pass : Bool) (flight : Nat) (s : State) :
    Host.Outcome State Fault Refusal := s.upd (·.calibrationDone cls unit pass flight)

/-- The meaning of CAL_RETRY: the repetition of a failed stack run, 1 ms later, with the round trip that it measures. -/
def execCalRetry (cls : Fin 3) (unit : Fin 64) (pass : Bool) (flight : Nat) (s : State) : Host.Outcome State Fault Refusal :=
  s.upd fun b =>
    if cls ≠ 0 ∧ tget (fun _ => 0) (b.chan unit).calFails cls.val ≠ 0 then
      b.calibrationDone cls unit pass flight
    else b

/-- CAL_RUN (R423). -/
def Block.calRun (b : Block) (m : ManRef) (cls : Nat) (mask : BitVec 64) : Block :=
  let op := Mop.calRun
  let us := maskUnits mask
  if 2 < cls ∨ (cls = 0 ∧ us.any fun i => decide (32 ≤ i)) then b.finish m op St.badParam
  else if b.sv.run.isSome then b.finish m op St.busyRetry
  else if cls = 0 ∧ us.any (fun l => b.laneBusy (laneSide l) (some m)) then b.finish m op St.busyRetry
  else if ¬ us.all (b.calUnit cls) then b.finish m op St.refused
  else if us.isEmpty then b.finish m op St.ok (leBytes 0 16)
  else
    let b := { b with sv.cal := b.sv.cal ++ [({ m := m, cls := cls, todo := mask, passed := 0, failed := 0 } : CalRun)] }
    if cls = 0 then
      b.each us fun b l => (b.modLane l fun x => { x with calPending := true }).askWindow (laneSide l)
    else b.each us fun (b : Block) n => b.modChan n fun x => x.askCal b.ck.tide (b.slotsGone x) (BitVec.ofNat 2 cls)

/-- The meaning of CAL_RUN. -/
def execCalRun (m : ManRef) (cls : BitVec 8) (mask : BitVec 64) (s : State) : Host.Outcome State Fault Refusal :=
  s.man m Mop.calRun (·.calRun m cls.toNat mask)

/-- CAL_STATUS (R328). -/
def Block.calStatus (b : Block) (m : ManRef) (cls u : Nat) : Block :=
  let op := Mop.calStatus
  if 2 < cls ∨ (if cls = 0 then 32 else 64) ≤ u then b.finish m op St.badParam
  else if cls = 0 then
    b.finish m op St.ok (leBytes (b.lane u).calCount.toNat 4 ++ leBytes 0 4 ++ leBytes (b.lane u).calTime.toNat 8)
  else b.finish m op St.ok [BitVec.ofNat 8 (b2n (if cls = 1 then (b.chan u).coilPass else (b.chan u).dramPass))]

/-- The meaning of CAL_STATUS. -/
def execCalStatus (m : ManRef) (cls unit : BitVec 8) (s : State) : Host.Outcome State Fault Refusal :=
  s.man m Mop.calStatus (·.calStatus m cls.toNat unit.toNat)

end Sys2Proof.Machine
end

