-- ==== Sys2Proof/Machine/Arrival.lean ====
section
/-! DEFINITION. Resets, arrival, power domains, departure, freeze and scan (chapters 13, 14 and 16; R108 to R111, R330, R331). -/

namespace Sys2Proof.Machine

open Sys2Proof

/-! ### The board table (R108 to R111) -/

/-- A signed byte. -/
def signedByte (v : Byte) : Int := v.toInt

/-- One entry of 8 bytes, if it is valid (R110, R111).  The LANE_OFF of an entry that is not valid does not count: the
defaults stand in the entry's place (DEDUCED from R111; log 87). -/
def boardEntryOf (bs : List Byte) : Option BoardEntry :=
  let at_ (i : Nat) : Byte := bs.getD i 0
  let b0 := at_ 0
  let b1 := at_ 1
  let t : Taps := ⟨signedByte (at_ 2), signedByte (at_ 3), signedByte (at_ 4), signedByte (at_ 5)⟩
  if b0.getLsbD 7 ∧ t.legal then
    some { swing := b0.setWidth 5, cable := b0.getLsbD 5, shape := b1.setWidth 3, laneOff := b1.getLsbD 3
           pre2 := t.pre2, pre1 := t.pre1, post1 := t.post1, post2 := t.post2
           ctle := (at_ 6).setWidth 4, preset := (at_ 7).setWidth 3 }
  else none

/-- The table that BTS names, if header and table are good (R109 to R111).  Reserved bytes of the header that are not 0
do not make it invalid (DEDUCED: R111 asks only whether it is valid, and the CRC covers them; log 87). -/
def boardTable (board : List Byte) (bts : Nat) : Option (List Byte) :=
  let n := leAt board 6 1
  let okHead := decide (leAt board 0 4 = 0x4C494E51 ∧ leAt board 4 2 = 1 ∧ 1 ≤ n ∧ n ≤ 8 ∧ leAt board 8 4 = 1040
    ∧ leAt board 28 4 = (crc32 ((padTo 28 board))).toNat)
  let t := padTo 1040 (board.drop (32 + 1040 * bts))
  let okTab := decide (leAt t 12 4 = (crc32 (t.take 12 ++ List.replicate 4 0 ++ t.drop 16)).toNat)
  if okHead ∧ bts < n ∧ okTab then some t else none

/-- The board table read at a reset's rising edge, with its events. -/
def Block.readBoard (b : Block) (board : List Byte) : Block :=
  match boardTable board b.pins.bts.toNat with
  | none => ({ b with pw.board := [], pw.boardMax := 0xF }).event .boardTableBad
  | some t =>
    let b := { b with pw.board := [], pw.boardMax := (t.getD 4 0).setWidth 4 }
    b.each (List.range 128) fun b i =>
      match boardEntryOf ((t.drop (16 + 8 * i)).take 8) with
      | some e => { b with pw.board := tset (fun _ => {}) b.pw.board i e }
      | none => b.event .boardEntryBad (i / 4)

/-! ### Cold resets (R20, R38, R48, R354) -/

/-- The bits of `CK_RESET_CAUSE` that a cold reset leaves: AON_UV and FROZEN; FROZEN is set by leaving FROZEN (R362, R363). -/
def Block.causeKept (b : Block) : Word :=
  (b.reg Off.ckResetCause &&& 0x42) ||| (if b.pw.st = .frozen then 0x40 else 0)

/-- What PORST_N low leaves: the logbook, the flash, the stored symbols, the trip record that is being written, what
breakwater and the scan logic hold in AON, the pins (R48, R354, R361, R417).  THERM_TRIP_N stays low only while a record is
being written, and not for the record of a trip in FROZEN, which the next arrival writes (DESIGN CHOICE: log 116). -/
def Block.coldKept (b : Block) : Block :=
  let clean : Block := {
    fresh := b.fresh
    pins := { b.pins with thermTripLow := b.pins.thermTripLow && b.heat.tripRec.isSome }
    pw := { ({} : Power) with st := .dark }
    lg := { b.lg with suppress := [], writing := none }
    mf := { ({} : Manifests) with flashA := b.mf.flashA, flashB := b.mf.flashB, dir0 := b.mf.dir0, dir1 := b.mf.dir1
                                  wrote0 := b.mf.wrote0, wrote1 := b.mf.wrote1, secMin := b.mf.secMin }
    heat := { ({} : Heat) with frozenTrip := b.heat.frozenTrip, tripRec := b.heat.tripRec, tripMark := b.heat.tripMark }
    sv := { ({} : Survey) with scanEntered := b.sv.scanEntered, zeroOk := b.sv.zeroOk } }
  clean.setReg Off.ckResetCause (0x1 ||| b.causeKept)

/-- PORST_N low: DARK. -/
def Block.porstLow (b : Block) : Block :=
  let b := { b with pins.porstLow := true }
  if b.pw.st = .dark then { b with pins.thermTripLow := b.pins.thermTripLow && b.heat.tripRec.isSome } else b.coldKept

/-- The meaning of PORST_N_LOW. -/
def execPorstNLow (s : State) : Host.Outcome State Fault Refusal := s.upd Block.porstLow

/-- The straps sampled at a rising edge (R37). -/
def Block.sampleStraps (b : Block) (pins : Pins) (strap : BitVec 4) (bts : BitVec 3) : Block :=
  { b with pins := { pins with strap := strap, bts := bts } }

/-- Boot begins, with what the harbourmaster had still to log (R347), or waits in reset (R364, R453). -/
def Block.bootFrom (b : Block) (held : Bool) : Block :=
  let b := { b with pw.st := .arrival, pw.arr := .boot, pw.resetEdge := b.ck.tide, pw.heldInReset := held }
  if held then b else b.flushEvents

/-- PORST_N rises: the straps are sampled, and a cold arrival begins if the rails are in order, held in reset while
WRST_N is low (R20, R37, R364, R453). -/
def Block.porstRise (b : Block) (strap : BitVec 4) (bts : BitVec 3) (board : List Byte) : Block :=
  if ¬ b.pins.porstLow then b
  else
    let b := b.sampleStraps { b.pins with porstLow := false } strap bts
    if b.pw.st ≠ .dark ∨ ¬ b.pins.railsLow.isEmpty then b
    else if b.pins.wrstLow then b.bootFrom true
    else (b.bootFrom false).readBoard board

/-- The meaning of PORST_N_RISE. -/
def execPorstNRise (strap : BitVec 4) (bts : BitVec 3) (board : List Byte) (s : State) : Host.Outcome State Fault Refusal :=
  s.upd (·.porstRise strap bts board)

/-- The internal power-on reset: DARK, and what VDD_AON alone held is lost; AON_UV will show it (R38, R40, R363). -/
def Block.aonLost (b : Block) : Block :=
  let b := b.coldKept
  let b := { b with pins.railsLow := if b.pins.railsLow.contains .aon then b.pins.railsLow else .aon :: b.pins.railsLow
                    pins.thermTripLow := false, heat := {}, sv := {}, lg.due := [] }
  b.setReg Off.ckResetCause 0x3

/-- The meaning of AON_POWER_ON_RESET. -/
def execAonPowerOnReset (s : State) : Host.Outcome State Fault Refusal := s.upd Block.aonLost

/-! ### The warm reset (R355, R453) -/

/-- Register offsets that WRST_N leaves as they are: the `CK_` block, the route and region tables, `QY_CSR_SRC` (R354). -/
def warmKept (off : Nat) : Bool :=
  off / 0x10000 == 1 || off == Off.qyCsrSrc || (off / 0x10000 == 0x0C && decide (0x1000 ≤ off % 0x10000))

/-- Bits of a register kept through a warm reset, beside what its reset value gives. -/
def Block.keepBits (b old : Block) (off : Nat) (m : Word) : Block :=
  b.setReg off ((old.reg off &&& m) ||| (csrReset off &&& ~~~ m))

/-- A PLL after a warm reset: re-lock is abandoned (R353); a lane PLL loses its domain. -/
def PllSt.warmReset (x : PllSt) (keepLock : Bool) : PllSt :=
  { x with lock := x.lock && keepLock, down := false, attempt := false, gaveUp := false, forced := false }

/-- A sensor after a warm reset: a failed one is tried again, an exclusion stays (R389, R401). -/
def Sensor.warmReset (x : Sensor) : Sensor :=
  match x.st with
  | .excluded => { ({} : Sensor) with st := .excluded, floor := x.floor }
  | _ => {}

/-- A table with every value changed; values that become the default leave it. -/
def tmap [DecidableEq α] (d : Nat → α) (t : Tbl α) (f : α → α) : Tbl α := t.foldl (fun acc e => tset d acc e.1 (f e.2)) []

/-- The stack at a warm reset: a die or stack reset under way decides what is lost (R355). -/
def Block.stackAtReset (b : Block) : Block :=
  match b.stk.rst with
  | .stackHeld _ | .stackTest _ => { b.srst with stk.rst := .none }
  | .dieDrain k _ | .dieHeld k _ | .dieCal k _ =>
    ({ b with stk.rst := .none }).each ((List.range 4).map (4 * k.val + ·)) fun b n =>
      b.modBerth n fun (x : Berth) => { x with fillDone := false }
  | .none => b

/-- Everything outside AON, and the harbourmaster core, in reset; what AON and retention storage hold stays (R354). -/
def Block.warmKeep (b : Block) : Block :=
  let clean : Block := {
    fresh := b.fresh
    csr := b.csr.filter fun e => warmKept e.1
    hold := b.hold.filter fun e => warmKept (e.1 % 2 ^ 24)
    jtagDr := b.jtagDr, frzOut := b.frzOut
    pins := { b.pins with wrstLow := true }
    pw := { ({} : Power) with st := .arrival, heldInReset := true, warm := true, afterTrip := b.pw.afterTrip, resetEdge := b.pw.resetEdge
                              doms := tmap (fun _ => {}) b.pw.doms fun x => { ({} : Dom) with onCount := x.onCount
                                                                                              st := if x.st = .failed then .failed else .off } }
    ck := { b.ck with root := b.ck.root.warmReset true, west := b.ck.west.warmReset false, east := b.ck.east.warmReset false
                      aonSrc := if b.ck.xtalOk ∨ ¬ b.ck.rcOk then .crystal else .rc
                      hkSrc := if b.ck.xtalOk ∨ ¬ b.ck.rcOk then .crystal else .rc
                      coreGated := false, aonStopped := false, hmStopped := false, aonMoved := false, hkMoved := false, recover := none }
    lanes := tmap (fun _ => {}) b.lanes Lane.warmReset
    west := { ({} : SideSt) with refPresent := b.west.refPresent, refSpread := b.west.refSpread, refPpm := b.west.refPpm }
    east := { ({} : SideSt) with refPresent := b.east.refPresent, refSpread := b.east.refSpread, refPpm := b.east.refPpm }
    berths := tmap (fun _ => {}) b.berths fun x => { ({} : Berth) with fillDone := x.fillDone, unusable := x.unusable }
    cols := tmap (fun _ => {}) b.cols fun x => { x with calPass := false, ceNow := [], ceLast := [], replays := [], remapDue := [], caTestDue := false }
    stk := { b.stk with dman := true, rst := .none, fence := 0 }
    keys := { b.keys with ksData := [], ksAttr := 0, ksReject := false }
    mf := { ({} : Manifests) with flashA := b.mf.flashA, flashB := b.mf.flashB, dir0 := b.mf.dir0, dir1 := b.mf.dir1
                                  wrote0 := b.mf.wrote0, wrote1 := b.mf.wrote1, secMin := b.mf.secMin }
    heat := { ({} : Heat) with sensors := tmap (fun _ => {}) b.heat.sensors Sensor.warmReset, therm := b.heat.therm, round := b.heat.round
                               roundAt := b.heat.roundAt, trim := b.heat.trim, report := b.heat.report, tripRec := b.heat.tripRec
                               tripMark := b.heat.tripMark, frozenTrip := b.heat.frozenTrip }
    sv := { ({} : Survey) with failLane := b.sv.failLane, failCh := b.sv.failCh, failMisc := b.sv.failMisc
                               dramRepairs := b.sv.dramRepairs, sramRepairs := b.sv.sramRepairs, noPower := b.sv.noPower
                               scanEntered := b.sv.scanEntered, zeroOk := b.sv.zeroOk }
    tl := { ({} : Tallies) with dump := b.tl.dump }
    lg := { b.lg with writing := none } }
  let clean := ((clean.keepBits b Off.mfCtrl 0x80000007).keepBits b Off.qyCtrl 0x2).keepBits b Off.pwCtrl 0xF04
  clean.orReg Off.ckResetCause (0x4 ||| (if b.pw.st = .frozen then 0x40 else 0))

/-- WRST_N falls: a warm reset, but in DARK and in a scan test, where the level alone is noted (R20, R453). -/
def Block.wrstFall (b : Block) : Block :=
  if b.pins.wrstLow then b
  else if b.pw.st = .dark ∨ b.sv.inScan then { b with pins.wrstLow := true }
  else b.stackAtReset.warmKeep

/-- The meaning of WRST_N_FALL. -/
def execWrstNFall (s : State) : Host.Outcome State Fault Refusal := s.upd Block.wrstFall

/-- WRST_N rises: the straps are sampled, and the arrival that it held in reset begins (R37, R364, R453); the board table
is read from the flash, which a low VDD_IO stops (R38, R108). -/
def Block.wrstRise (b : Block) (strap : BitVec 4) (bts : BitVec 3) (board : List Byte) : Block :=
  if ¬ b.pins.wrstLow then b
  else
    let b := b.sampleStraps { b.pins with wrstLow := false } strap bts
    if ¬ b.pw.heldInReset then b
    else (b.bootFrom false).readBoard (if b.spiRuns then board else [])

/-- The meaning of WRST_N_RISE. -/
def execWrstNRise (strap : BitVec 4) (bts : BitVec 3) (board : List Byte) (s : State) : Host.Outcome State Fault Refusal :=
  s.upd (·.wrstRise strap bts board)

/-! ### Arrival steps 1 and 2 (R330, R331, R364) -/

/-- A boot directory copy read from the flash, if its magic, slot and CRC are good. -/
def dirOf (bs : List Byte) : Option DirCopy :=
  if leAt bs 0 4 = 0x52494442 ∧ leAt bs 4 1 ≤ 1 ∧ leAt bs 28 4 = (crc32 (padTo 28 bs)).toNat then
    some { slotB := leAt bs 4 1 == 1, generation := BitVec.ofNat 32 (leAt bs 8 4) }
  else none

/-- The active slot that the governing directory copy names; what governs between copies of one generation, or without any,
the manual leaves open (log 17). -/
def Block.activeSlot (b : Block) : Bool :=
  let open_ : Bool := Config.pick b.fresh % 2 == 1
  match b.mf.dir0, b.mf.dir1 with
  | some x, some y =>
    if y.generation < x.generation then x.slotB else if x.generation < y.generation then y.slotB
    else if x.slotB = y.slotB then x.slotB else open_
  | some x, none => x.slotB
  | none, some y => y.slotB
  | none, none => open_

/-- An image boots. -/
def Block.bootImage (b : Block) (slotB : Bool) (i : Image) : Block :=
  { b with mf.bootSlot := some slotB, mf.fwVersion := i.version, mf.secVersion := i.security, mf.noImage := false }

/-- A trip in FROZEN recorded at the arrival that follows (R361, R438): nothing but that it happened is known, so sensor,
layer and moment are open (log 18). -/
def Block.frozenRecord (b : Block) : Block :=
  if ¬ b.heat.frozenTrip then b
  else
    let f := b.fresh
    let r : Trip := { tide := BitVec.ofNat 64 (Config.pick f), analogue := true, incomplete := true, acked := false, full := false
                      sensor := BitVec.ofNat 8 (Config.pick (f + 1) % 56), layer := Config.pick (f + 2) % 17 }
    let ix := b.lg.tripNext.toNat % 512
    let b := { b with lg.trips := tset (fun _ => none) b.lg.trips ix (some r), lg.tripNext := b.lg.tripNext + 1
                      heat.frozenTrip := false, pw.afterTrip := true, fresh := f + 3 }
    if ix = 0 then b.wearSlot 14 else b

/-- Records whose second half was never written are flagged incomplete at arrival (R40, R438). -/
def Block.flagTrips (b : Block) : Block :=
  { b with lg.trips := b.lg.trips.map fun e => (e.1, e.2.map fun t => if t.full then t else { t with incomplete := true }) }

/-- What the new firmware does first: SCAN_EXIT, the records of trips, ARRIVAL and its sample index. -/
def Block.firstActs (b : Block) : Block :=
  let b := if b.sv.scanEntered then ({ b with sv.scanEntered := false, sv.zeroOk := false }).event .scanExit else b
  (b.flagTrips).frozenRecord

/-- ARRIVAL drawn from the entropy source (R309), and with it the sample rows (R411). -/
def Block.drawArrival (b : Block) : Block :=
  let v := Config.arrivalValue b.fresh
  ({ b with mf.arrival := v, sv.sample := BitVec.ofNat 5 (v.toNat % 32) }).draw

/-- The two copies of the directory as boot code holds them: what the pier wrote itself, or what the board's flash gives. -/
def Block.holdDirs (b : Block) (d0 d1 : Option DirCopy) : Block :=
  { b with
    mf.dir0 := if b.mf.wrote0 then b.mf.dir0 else d0
    mf.dir1 := if b.mf.wrote1 then b.mf.dir1 else d1 }

/-- The directory read by boot code (R330). -/
def Block.readDirectory (b : Block) (d0 d1 : List Byte) : Block :=
  let b := b.holdDirs (dirOf d0) (dirOf d1)
  if b.mf.dir0.isNone ∧ b.mf.dir1.isNone then b.event .boardDirectoryBad else b

/-- The image in a slot, of whose bytes the board's flash gives `imgA` and `imgB`. -/
def Block.imageIn (b : Block) (imgA imgB : List Byte) (root : BitVec 384) (slotB : Bool) : Image :=
  imageAt root (b.mf.flashByte slotB (if slotB then imgB else imgA))

/-- The image that boots: the active slot's, else the other's, else none (R331). -/
def Block.chooseImage (b : Block) (imgA imgB : List Byte) (root : BitVec 384) : Option (Bool × Image) :=
  let act := b.activeSlot
  let img := b.imageIn imgA imgB root
  if b.imageValid (img act) then some (act, img act) else if b.imageValid (img !act) then some (!act, img !act) else none

/-- What boot code does with the chosen image, beside an arrival's own first acts: FW_FALLBACK where it is not the active
slot's. -/
def Block.noteFallback (b : Block) (act slotB : Bool) : Block :=
  if slotB = act then b else (b.orReg Off.mfAlarm 8).event .fwFallback

/-- BOOT_DONE in arrival step 1: the directory, the image, or boot code alone (R20, R331). -/
def Block.arrivalBoot (b : Block) (d0 d1 imgA imgB : List Byte) (root : BitVec 384) : Block :=
  let b := ({ b with ck.xtalOk := true, ck.rcOk := true }).readDirectory d0 d1
  let act := b.activeSlot
  match b.chooseImage imgA imgB root with
  | some (slotB, i) => (({ b.draw.drawArrival.bootImage slotB i with pw.arr := .pll }).firstActs).noteFallback act slotB
  | none => { b.draw.drawArrival with mf.noImage := true }

/-- BOOT_DONE of a core that R344 has reset: its image is verified again; the arrival stays as it is. -/
def Block.reboot (b : Block) (d0 d1 imgA imgB : List Byte) (root : BitVec 384) : Block :=
  let b := ({ b with mf.reboot := false }).readDirectory d0 d1
  let act := b.activeSlot
  match b.chooseImage imgA imgB root with
  | some (slotB, i) => (b.draw.bootImage slotB i).noteFallback act slotB
  | none => { b.draw with mf.noImage := true }

/-- BOOT_DONE. -/
def Block.bootDone (b : Block) (d0 d1 imgA imgB : List Byte) (root : BitVec 384) : Block :=
  if ¬ b.hmRuns ∨ ¬ b.spiRuns ∨ b.mf.noImage then b
  else if b.pw.st = .arrival ∧ b.pw.arr = .boot then b.arrivalBoot d0 d1 imgA imgB root
  else if b.mf.reboot then b.reboot d0 d1 imgA imgB root
  else b

/-- The meaning of BOOT_DONE: what the board's flash holds where the pier has not written it, and the root hash of the
read-only memory (log 67). -/
def execBootDone (dir0 dir1 imgA imgB : List Byte) (root : BitVec 384) (s : State) : Host.Outcome State Fault Refusal :=
  s.upd (·.bootDone dir0 dir1 imgA imgB root)

/-- ARRIVAL_PLL_LOCK: AON moves to CLK_HM, and the tide counter to CLK_CORE. -/
def Block.arrivalPll (b : Block) : Block :=
  if b.pw.st ≠ .arrival ∨ b.pw.arr ≠ .pll ∨ ¬ b.hmRuns ∨ ¬ b.pllFed .root then b
  else { b with ck.root := { b.ck.root with lock := true, down := false }, ck.aonSrc := .pllRoot, ck.hkSrc := .pllRoot, ck.svSrc := .pllRoot
                ck.tlSrc := .pllRoot, ck.tideSrc := .pllRoot, pw.arr := .chart }

/-- The meaning of ARRIVAL_PLL_LOCK. -/
def execArrivalPllLock (s : State) : Host.Outcome State Fault Refusal := s.upd Block.arrivalPll

/-! ### Arrival steps 3 and 4 (R303, R364, R366, R370) -/

/-- A drawn key whose halves are never equal: where the draw makes them so, one bit of Key2 is taken the other way (R302;
DEDUCED how, log 95). -/
def unequalHalves (k : BitVec 512) : BitVec 512 := if k.extractLsb' 0 256 = k.extractLsb' 256 256 then k ^^^ (1 <<< (256 : Nat)) else k

/-- A per-arrival key is formed: at a cold arrival, after a trip, or where none is held (R303). -/
def Block.formKey (b : Block) : Block :=
  if ¬ b.pw.warm ∨ b.pw.afterTrip ∨ b.keys.arrival.isNone then
    ({ b with keys.arrival := some (unequalHalves (Config.arrivalKey b.fresh)) }).draw
  else b

/-- Some domain is on its way ON or OFF. -/
def Block.switching (b : Block) : Bool :=
  (List.range 48).any fun d => (b.dom d).st == .powering || (b.dom d).st == .draining

/-- The test of a survey power group begins: its domains that are OFF are powered (R370, R373). -/
def Block.groupStart (b : Block) (g : Nat) : Block :=
  let b := { b with sv.group := BitVec.ofNat 3 g, sv.tested := false
                    pw.depGroup := if b.pw.st == PierState.departure then BitVec.ofNat 3 g else b.pw.depGroup }
  b.each (groupDoms g) Block.powerUp

/-- Domains that are ON leave for OFF (R370); HK stays, which is tested in place, and SV, which tests, until its own group
(R373; DEDUCED for SV: log 109). -/
def Block.drainFor (b : Block) (g : Nat) (ds : List Nat) : Block :=
  b.each ds fun b d =>
    if d = hkDom ∨ (d = svDom ∧ g ≠ 7) then b
    else b.modDom d fun x => { x with st := if x.st = .on then .draining else x.st }

/-- A staggered survey begins with group 0: the domains of the other groups go OFF, the stack's channels are idle in
self-refresh (R373). -/
def Block.staggerStart (b : Block) : Block :=
  ({ b with sv.busy := true }.drainFor 0 (List.range 16)).groupStart 0

/-- The next domain of arrival step 4, in ascending number; after the last one the survey starts, a full one with its power
groups, after which every domain that may be is powered again (R364, R373; DESIGN CHOICE: log 109). -/
def Block.powerNext (b : Block) : Block :=
  if b.pw.st ≠ .survey ∨ b.pw.arr ≠ .power ∨ b.switching then b
  else match (List.range 48).find? fun d => (b.dom d).st == .off with
    | some d => b.powerUp d
    | none =>
      if b.sv.tested then { b with pw.arr := .survey }
      else if b.pw.surveyFull then { b.formKey with pw.arr := .groups }.staggerStart
      else { b.formKey with pw.arr := .survey, sv.busy := true }

/-- Which survey this arrival runs: `true` is full (R366). -/
def Block.fullSurvey (b : Block) : Bool :=
  !b.pw.chartValid || b.regBit Off.pwCtrl 2 || b.tripUnacked || decide (max 1 (b.regField Off.pwCtrl 8 4) ≤ b.pw.chartAge.toNat)

/-- A full survey finds every repair from scratch: what AON and the chart held of them goes (R410; DEDUCED: log 109). -/
def Block.fromScratch (b : Block) : Block :=
  { b with sv.dramRepairs := [], sv.sramRepairs := [], stk.opens := []
           cols := tmap (fun _ => {}) b.cols fun x => { x with failed := [], caFail := none } }

/-- CHART_READ_DONE. -/
def Block.chartRead (b : Block) : Block :=
  if b.pw.st ≠ .arrival ∨ b.pw.arr ≠ .chart ∨ ¬ b.hmRuns then b
  else
    let b := b.loadChart
    let full := b.fullSurvey
    let b := if full then b.fromScratch else b
    ({ b with pw.st := .survey, pw.arr := .power, pw.surveyFull := full, sv.kind := if full then 2 else 1 }).powerNext

/-- The meaning of CHART_READ_DONE. -/
def execChartReadDone (s : State) : Host.Outcome State Fault Refusal := s.upd Block.chartRead

/-! ### Domains (R369 to R372) -/

/-- The lanes of a quad domain. -/
def quadLanes (d : Nat) : List Nat := (List.range 4).map (4 * d + ·)
/-- The channels of a BG domain. -/
def bgChans (d : Nat) : List Nat := [2 * (d - 16), 2 * (d - 16) + 1]
/-- The sides that a domain of the lanes or of the fairway affects. -/
def domSides (d : Nat) : List Side :=
  if d < 10 then [domSide d] else if d < 12 then [.west, .east] else []

/-- The manifest that waits for a domain completes (R329). -/
def Block.domDone (b : Block) (d : Nat) (powered : Bool) : Block :=
  match (b.dom d).waiter with
  | none => b
  | some m => (b.modDom d fun x => { x with waiter := none }).finish m Mop.powerDomain St.ok [BitVec.ofNat 8 (b2n powered)]

/-- What a domain that has come ON starts (R236, R372). -/
def Block.domStarts (b : Block) (d : Nat) : Block :=
  if ¬ b.inService ∨ b.ck.coreGated then b
  else if d < 8 then
    let sd := domSide d
    if (b.side sd).seg = .run then
      b.each ((quadLanes d).filter fun l => b.laneUsable l && (b.lane l).st != .failed) fun b l =>
        (b.startHunt l (b.side sd).grade true).modLane l fun x => { x with attempts := 0, retraining := true }
    else if (b.pll (sidePll sd)).lock then b.linkUp sd
    else b
  else if d = 10 ∨ d = 11 then (b.resizeSide .west).resizeSide .east
  else if d = qyDom then b.reloadCharters
  else if 16 ≤ d then b.each (bgChans d) Block.startReturn
  else b

/-- The rails of a domain (R369). -/
def domRails (d : Nat) : List Rail := if d < 8 then [.lane, .laneA] else if d < 10 then [.laneA] else [.core]

/-- Two domains share a rail. -/
def sharesRail (d e : Nat) : Bool := (domRails d).any fun r => (domRails e).contains r

/-- A POWERING domain ramps: none that shares a rail with it began before it, or with it and has a lower number (R370). -/
def Block.powerTurn (b : Block) (d : Nat) : Bool :=
  (List.range 48).all fun e => e == d || (b.dom e).st != .powering || !sharesRail d e
    || decide ((b.dom d).since < (b.dom e).since) || ((b.dom d).since == (b.dom e).since && decide (d < e))

/-- A domain's ramp is over: those that waited for its rails begin theirs now (R370). -/
def Block.turnOver (b : Block) (d : Nat) : Block :=
  b.each (List.range 48) fun b e =>
    if (b.dom e).st = .powering ∧ sharesRail d e then b.modDom e fun x => { x with since := b.ck.tide } else b

/-- POWER_GOOD: the POWERING domain whose turn it is is held in reset for 1 µs and is ON. -/
def Block.powerGood (b : Block) (d : Nat) : Block :=
  if (b.dom d).st ≠ .powering ∨ ¬ b.live ∨ ¬ b.powerTurn d then b
  else
    let b := (b.domReset d).modDom d fun x => { x with st := .on, onCount := x.onCount + 1 }
    (((b.turnOver d).domStarts d).domDone d true).powerNext

/-- The meaning of POWER_GOOD. -/
def execPowerGood (d : DomId) (s : State) : Host.Outcome State Fault Refusal := s.upd (·.powerGood d)

/-- DOMAIN_POWER_FAIL: no power good within 100 µs (R370). -/
def Block.powerFail (b : Block) (d : Nat) : Block :=
  if (b.dom d).st ≠ .powering ∨ ¬ b.live ∨ ¬ b.powerTurn d ∨ b.since (b.dom d).since < 100 * usTicks then b
  else
    let b := { b.modDom d fun x => { x with st := .failed } with sv.noPower := b.sv.noPower ||| BitVec.ofNat 48 (2 ^ d) }
    let b := (b.orReg Off.pwAlarm 2).event .domainFail d
    ((b.turnOver d).domDone d false).powerNext

/-- The meaning of DOMAIN_POWER_FAIL. -/
def execDomainPowerFail (d : DomId) (s : State) : Host.Outcome State Fault Refusal := s.upd (·.powerFail d)

/-- A berth leaves service with its channel, which keeps its contents. -/
def Block.parkBerth (b : Block) (n : Nat) : Block :=
  b.modBerth n fun (x : Berth) => { x with st := .absent, fillDone := x.fillDone && x.st != .filling }

/-- A channel in self-refresh with its contents, whose domain goes OFF (R263). -/
def Block.parkChan (b : Block) (n : Nat) : Block := (b.sleepChan n).parkBerth n

/-- A channel that is AWAKE may be sent PREab and SRE for good: it owes no refresh, no command of it is on its way or may
still have to be sent again, and the times of R246 have gone by (R260, R263, R275). -/
def Block.mayPark (b : Block) (n : Nat) : Bool :=
  let x := b.chan n
  x.pwr == .awake && x.owed == 0 && !x.refDue && !x.limitDue && !x.resume && x.replayQ.isEmpty
    && (x.recent.all fun e => decide (8 < b.since e.1)) && b.sleepOk n && b.reaches n

/-- A channel whose outstanding parts have ended is sent PREab and SRE, once it may be (R236, R263). -/
def Block.startPark (b : Block) (n : Nat) : Block := if b.mayPark n then (b.beginSleep n true).parkBerth n else b

/-- The channel's die keeps its contents by itself, or nothing reaches it any more. -/
def Block.asleep (b : Block) (n : Nat) : Bool :=
  (b.chan n).pwr == .selfRefresh || (b.chan n).pwr == .off || b.cutOff n

/-- The work of R372 before OFF is done. -/
def Block.drained (b : Block) (d : Nat) : Bool :=
  if d < 8 then (quadLanes d).all fun l => !(b.lane l).inRun
  else if d = 10 ∨ d = 11 then
    [Side.west, .east].all fun sd => (b.side sd).seg == .down || ((b.side sd).seg == .run && (b.side sd).reform.isNone && !(b.side sd).capDirty)
  else if d = qyDom then b.qy.reqs.isEmpty && b.qy.copies.isEmpty && b.qy.ins.isEmpty
  else if d = svDom then b.sv.run.isNone
  else if 16 ≤ d then (bgChans d).all fun n => !b.busyAt n && b.asleep n
  else true

/-- What goes with the domain's power; its ports report 0 for the window (R428). -/
def Block.domStops (b : Block) (d : Nat) : Block :=
  let b := { b with tl.winOff := d :: b.tl.winOff }
  if d < 8 then b.each (quadLanes d) Block.disableLane
  else if d = 8 ∨ d = 9 then
    let p := sidePll (domSide d)
    b.setPll p { b.pll p with lock := false, down := false, attempt := false }
  else if d = 10 then { b with fwWE := {} }
  else if d = 11 then { b with fwEW := {} }
  else if d = tlDom then { b with tl.busy := false }
  else if 16 ≤ d then b.each (bgChans d) Block.parkChan
  else b

/-- The survey runs its power groups: a full one at arrival, or a departure's (R373). -/
def Block.staggered (b : Block) : Bool :=
  (b.pw.st == .survey && b.pw.arr == .groups) || (b.pw.st == .departure && b.pw.depPhase == .survey && !b.pw.depNoSurvey)

/-- All power groups tested: a departure writes its chart; an arrival powers its domains again (R375; log 109). -/
def Block.groupsEnd (b : Block) : Block :=
  if b.pw.st = .departure then
    let b := { b with sv.busy := false }
    if b.pw.depAbandoned then { b with pw.depPhase := .domainsOff } else { b.chartBegin with pw.depPhase := .chart }
  else { b with pw.arr := .power }.powerNext

/-- The next power group, once the one tested is OFF. -/
def Block.groupNext (b : Block) : Block :=
  let g := b.sv.group.toNat
  if ¬ b.staggered ∨ ¬ b.sv.tested ∨ (groupDoms g).any fun d => (b.dom d).st == .draining then b
  else if g < 7 then b.groupStart (g + 1)
  else b.groupsEnd

/-- The channels of a BG domain whose parts have ended enter self-refresh (R236, R263, R372). -/
def Block.parkPair (b : Block) (d : Nat) : Block :=
  if 16 ≤ d ∧ (bgChans d).all (fun n => !b.busyAt n) then b.each (bgChans d) Block.startPark else b

/-- DRAIN_DONE: the work before OFF is done.  A BG domain's is not while a channel is still to enter self-refresh: the entry
begins, and SR_ENTRY_DONE ends it (DESIGN CHOICE, log 114). -/
def Block.drainDone (b : Block) (d : Nat) : Block :=
  if (b.dom d).st ≠ .draining ∨ ¬ b.live then b
  else if ¬ b.drained d then b.parkPair d
  else ((((b.domStops d).modDom d fun x => { x with st := .off }).domDone d false).checkOpen.powerNext).groupNext

/-- The meaning of DRAIN_DONE. -/
def execDrainDone (d : DomId) (s : State) : Host.Outcome State Fault Refusal := s.upd (·.drainDone d)

/-- A quad off would leave its side in RUN with no lane in RUN (R371). -/
def Block.lastQuad (b : Block) (d : Nat) : Bool :=
  (b.side (domSide d)).seg == .run && (sideLanes (domSide d)).all fun l => quadDom l == d || !(b.lane l).inRun

/-- A domain's switch-off begins (R372). -/
def Block.startDrain (b : Block) (d : Nat) : Block :=
  let b := b.modDom d fun x => { x with st := .draining }
  if d < 8 then
    (b.each (quadLanes d) fun b l => if (b.lane l).inRun then b.dropLaneFull l else b.disableLane l).checkOpen
  else if d = 10 ∨ d = 11 then (b.resizeSide .west).resizeSide .east
  else if d = qyDom then
    b.closeForReload
  else if d = tlDom then { b with tl.busy := false }
  else if 16 ≤ d then (bgChans d).foldl (fun b n => if b.inSvc n then b.charterBerthLost n else b) b
  else b

/-- POWER_DOMAIN: REFUSED while breakwater holds the domain (R349), else the rows of R371 in order. -/
def Block.powerDomain (b : Block) (m : ManRef) (d action : Nat) : Block :=
  let op := Mop.powerDomain
  let ok (powered : Nat) : Block := b.finish m op St.ok [BitVec.ofNat 8 powered]
  let st := (b.dom d).st
  let quads (lo : Nat) : Bool := (List.range 4).any fun q => (b.dom (lo + q)).st != .off
  if 48 ≤ d ∨ 1 < action then b.finish m op St.badParam
  else if b.domHeld d then b.finish m op St.refused
  else if st = DomState.failed then (if action = 1 then b.finish m op St.refused else ok 0)
  else if st = DomState.powering ∨ st = DomState.draining then b.finish m op St.busyRetry
  else if (st = DomState.on) = (action = 1) then ok action
  else if d = hkDom ∧ action = 0 then b.finish m op St.refused
  else if (d = 8 ∧ action = 0 ∧ quads 0) ∨ (d = 9 ∧ action = 0 ∧ quads 4) then b.finish m op St.refused
  else if d < 8 ∧ action = 1 ∧ ¬ b.domOn (ckDom (domSide d)) then b.finish m op St.refused
  else if d < 8 ∧ action = 0 ∧ b.lastQuad d then b.finish m op St.refused
  else if (d = 10 ∨ d = 11) ∧ action = 0 ∧ ¬ b.domOn (21 - d) then b.finish m op St.refused
  else if d = qyDom ∧ action = 0 ∧ ((List.range 32).any fun g => (b.dom (16 + g)).st != .off) then b.finish m op St.refused
  else if (domSides d).any fun sd => b.laneBusy sd none then b.finish m op St.busyRetry
  else
    let b := b.modDom d fun x => { x with waiter := some m }
    if action = 1 then b.powerUp d else b.startDrain d

/-- The meaning of POWER_DOMAIN. -/
def execPowerDomain (m : ManRef) (dom action : BitVec 8) (s : State) : Host.Outcome State Fault Refusal :=
  s.man m Mop.powerDomain (·.powerDomain m dom.toNat action.toNat)

/-! ### Departure (R374 to R378) -/

/-- Departure starts: phase 1. -/
def Block.startDeparture (b : Block) (survey : Bool) (w : Option ManRef) : Block :=
  let b := { b with pw.st := .departure, pw.depPhase := .quiesce, pw.depNoSurvey := !survey, pw.depWaiter := w, pw.depStart := b.ck.tide
                    pw.depAbandoned := false, pw.depGroup := 0, pw.tripHold := false, tl.busy := false }
  let b := { b with chs.tab := tmap (fun _ => {}) b.chs.tab fun x => if x.st = ChState.free then x else { x with st := .closing } }
  let b := (b.endScrub St.aborted).endRunning (fun r => !r.survives) St.aborted
  let job := match b.mf.job with
    | some (.directory m s v k) => some (FlashJob.directory m s v k)
    | _ => none
  { b.dropWaiters with stk.rst := .none, ck.recover := none, mf.job := job }

/-- PWR_REQ_N low (R374). -/
def Block.powerRequest (b : Block) : Block :=
  if ¬ b.live ∨ ¬ b.regBit Off.pwCtrl 0 then b
  else match b.pw.st with
    | .harbour | .openS => b.startDeparture (b.regBit Off.pwCtrl 1) none
    | .arrival | .survey => if b.pw.heldInReset then b else { b with pw.depHeld := true }
    | _ => b

/-- The meaning of PWR_REQ_N_LOW. -/
def execPwrReqNLow (s : State) : Host.Outcome State Fault Refusal := s.upd Block.powerRequest

/-- The meaning of SHUTDOWN. -/
def execShutdown (m : ManRef) (noSurvey : Bool) (s : State) : Host.Outcome State Fault Refusal :=
  s.man m Mop.shutdown fun b => b.startDeparture (!noSurvey) (some m)

/-- A firmware COMMIT runs: accepted, or being written (R375). -/
def Block.commitRuns (b : Block) : Bool :=
  b.mf.running.any (·.isCommit) || match b.mf.job with
    | some (.directory ..) => true
    | _ => false

/-- QUIESCE_DONE: requests have completed and HOLD went out for 10 µs, the links go idle, phase 2 begins. -/
def Block.quiesceDone (b : Block) : Block :=
  if b.pw.st ≠ .departure ∨ b.pw.depPhase ≠ .quiesce ∨ ¬ b.live ∨ b.commitRuns ∨ ¬ b.qy.reqs.isEmpty
      ∨ b.since b.pw.depStart < 10 * usTicks then b
  else
    let b := { b.dropLinks.closeAllCharters with qy.claimed := [], qy.rems := [], qy.copies := [], pw.depPhase := .survey }
    if b.pw.depNoSurvey then
      b.each ((List.range 32).map (16 + ·)) fun b d => b.modDom d fun x => { x with st := if x.st = .on then .draining else x.st }
    else { b.each (List.range 64) Block.startPark with sv.kind := 3 }.staggerStart

/-- The meaning of QUIESCE_DONE. -/
def execQuiesceDone (s : State) : Host.Outcome State Fault Refusal := s.upd Block.quiesceDone

/-- What a survey without its engine can find: lanes and calibration, without marches or logic tests (R408). -/
def SurveyFindings.withoutEngine (f : SurveyFindings) : SurveyFindings :=
  if f.svOk then f
  else { svOk := false, laneFail := f.laneFail, calPass := f.calPass, clkLost := f.clkLost, flight := f.flight, runMs := f.runMs }

/-- What the test of one power group can find; an arrival's coil and TSV test comes first and takes in the whole stack
(R369, R410).  An SRAM instance outside the switched domains goes with the last group (log 109). -/
def SurveyFindings.inGroup (f : SurveyFindings) (g : Nat) (wide : Bool) : SurveyFindings :=
  let chan (n : Nat) : Bool := domGroup (bgDom n) == g
  let coil (n : Nat) : Bool := (wide && g == 0) || chan n
  { f with
    laneFail := (List.range 32).foldl (fun (v : BitVec 32) l =>
      if f.laneFail.getLsbD l && domGroup (quadDom l) == g then v ||| BitVec.ofNat 32 (2 ^ l) else v) 0
    domFail := (groupDoms g).foldl (fun (v : BitVec 48) d => if f.domFail.getLsbD d then v ||| BitVec.ofNat 48 (2 ^ d) else v) 0
    bankFails := f.bankFails.filter fun e => chan e.ch.val, bankOverflow := f.bankOverflow.filter fun e => chan (e.1 / 32)
    sramFails := f.sramFails.filter fun e => if Config.sramHome e.1 < 48 then domGroup (Config.sramHome e.1) == g else g == 7
    coilFails := f.coilFails.filter fun e => coil e.1, caCoilFails := f.caCoilFails.filter fun e => coil e.1
    tsvOpens := f.tsvOpens.filter fun e => coil (4 * e.1.val), flight := f.flight.filter fun e => chan e.1 }

/-- The test of the group under test is over: what it passed is FAILED no longer, its findings are applied, its domains go
OFF (R370, R373, R412). -/
def Block.groupTested (b : Block) (f : SurveyFindings) : Block :=
  let g := b.sv.group.toNat
  let wide := b.pw.st == .survey
  let passed := (groupDoms g).filter fun d => d != svDom && !b.sv.noPower.getLsbD d
  let b := b.each passed Block.passDomain
  let b := b.applyFindings (SurveyFindings.inGroup f g wide) fun n => (wide && g == 0) || domGroup (bgDom n) == g
  ({ b with sv.tested := true }.drainFor g (groupDoms g)).groupNext

/-- The departure survey without its engine: lanes alone (R408). -/
def Block.surveyWithout (b : Block) (f : SurveyFindings) : Block :=
  { b.applyFindings (SurveyFindings.withoutEngine f) with sv.tested := true }.groupsEnd

/-- DEPARTURE_SURVEY_DONE: the test of one power group ends, after the last of them the survey; or the drain into
self-refresh; then the chart (R373, R375; DESIGN CHOICE: the row ends each group in turn, log 109). -/
def Block.depSurveyDone (b : Block) (f : SurveyFindings) : Block :=
  if b.pw.st ≠ .departure ∨ b.pw.depPhase ≠ .survey ∨ ¬ b.live then b
  else if ¬ (List.range 64).all b.asleep then b.each (List.range 64) Block.startPark
  else if b.pw.depNoSurvey then
      let b := (b.each (List.range 64) Block.parkChan).each ((List.range 32).map (16 + ·)) fun b d =>
        b.modDom d fun x => { x with st := if x.st = .draining then .off else x.st }
      if b.pw.depAbandoned then { b with pw.depPhase := .domainsOff } else { b.chartBegin with pw.depPhase := .chart }
  else if b.sv.tested ∨ b.switching then b
  else
    let b := b.each (List.range 64) fun b n => b.modBerth n fun (x : Berth) => { x with fillDone := false }
    if f.svOk then b.groupTested f else b.surveyWithout f

/-- The meaning of DEPARTURE_SURVEY_DONE. -/
def execDepartureSurveyDone (f : SurveyFindings) (s : State) : Host.Outcome State Fault Refusal := s.upd (·.depSurveyDone f)

/-- The age of the chart that this departure writes. -/
def Block.departureAge (b : Block) : BitVec 4 :=
  if ¬ b.pw.depNoSurvey then 0
  else match b.goodChart with
    | some c => if c.age = 15 then 15 else c.age + 1
    | none => 15

/-- CHART_WRITE_DONE: the commit mark is written, and the domains start to go OFF. -/
def Block.chartWritten (b : Block) : Block :=
  if b.pw.st ≠ .departure ∨ b.pw.depPhase ≠ .chart ∨ ¬ b.live then b
  else
    let b := { b.chartEnd b.departureAge with pw.depPhase := .domainsOff }
    b.each (List.range 48) fun b d => b.modDom d fun x => { x with st := if x.st = .on then .draining else x.st }

/-- The meaning of CHART_WRITE_DONE. -/
def execChartWriteDone (s : State) : Host.Outcome State Fault Refusal := s.upd Block.chartWritten

/-- DEPARTURE_READY (R376). -/
def Block.departed (b : Block) : Block :=
  if b.pw.st ≠ .departure ∨ b.pw.depPhase ≠ .domainsOff ∨ ¬ b.hmRuns then b
  else
    let b := b.each (List.range 48) fun b d => (b.domStops d).modDom d fun x => { x with st := if x.st = .failed then .failed else .off, waiter := none }
    let ms := b.since b.pw.depStart / msTicks
    let b := ({ b with pw.depPhase := .ready, pw.offReady := true, pw.tDepart := BitVec.ofNat 32 ms }).orReg Off.pwAlarm 8
    match b.pw.depWaiter with
    | none => b
    | some m => ({ b with pw.depWaiter := none }).finish m Mop.shutdown St.ok (leBytes ms 4)

/-- The meaning of DEPARTURE_READY. -/
def execDepartureReady (s : State) : Host.Outcome State Fault Refusal := s.upd Block.departed

/-! ### Arrival steps 5 and 6 (R364, R366, R367, R368) -/

/-- A channel's contents may be kept at step 5 (R367). -/
def Block.keeps (b : Block) (n : Nat) : Bool :=
  b.pw.warm && !b.pw.surveyFull && !b.pw.afterTrip && (b.berth n).fillDone && !(b.berth n).unusable

/-- What each channel's contents become at step 5 (R367). -/
def Block.decideContents (b : Block) : Block :=
  b.each (List.range 64) fun b n => b.modBerth n fun (x : Berth) => { x with fillDone := b.keeps n }

/-- What a quick survey can find: it marches the sample rows alone, on channels to be filled, and tests no coil or TSV but by
calibration (R410, R411). -/
def Block.findable (b : Block) (f : SurveyFindings) : SurveyFindings :=
    { f with
      bankFails := f.bankFails.filter fun e => !b.keeps e.ch.val && e.row.toNat % 32 == b.sv.sample.toNat
      bankOverflow := f.bankOverflow.filter fun e => !b.keeps (e.1 / 32), coilFails := [], caCoilFails := [], tsvOpens := [] }

/-- A full survey writes a chart of age 0 and clears FORCE_FULL (R366). -/
def Block.surveyChart (b : Block) : Block :=
  if b.pw.surveyFull then (b.chartBegin.chartEnd 0).clrReg Off.pwCtrl 4 else b

/-- HARBOUR is reached: DMAN rises and the channels that may serve come into service (R236, R364, R368). -/
def Block.enterHarbour (b : Block) (calPass clkLost : BitVec 64) : Block :=
  let b := { b with stk.dman := false, pw.st := .harbour, pw.arr := .fill, pw.tHarbour := b.usSince b.pw.resetEdge }
  let b := { b with pw.tripHold := b.tripUnacked, pw.afterTrip := false }
  let b := b.bringUpAll calPass clkLost
  { b with pw.contentsKept := (List.range 64).any fun n => b.inSvc n && (b.berth n).fillDone }

/-- Link-up on both sides, or the departure that waited (R364, R374). -/
def Block.arrive (b : Block) : Block :=
  if b.pw.depHeld then ({ b with pw.depHeld := false }).startDeparture false none
  else ((b.linkUp .west).linkUp .east).checkOpen

/-- Without the survey engine the arrival goes on as a quick survey (R408). -/
def Block.surveyKind (b : Block) (svOk : Bool) : Block :=
  if svOk then b else { b with pw.surveyFull := false, sv.kind := 1 }

/-- What is still to be found once every power group has been tested: the round trips that stack calibration measures. -/
def SurveyFindings.afterGroups (f : SurveyFindings) : SurveyFindings :=
  { svOk := f.svOk, calPass := f.calPass, clkLost := f.clkLost, flight := f.flight, runMs := f.runMs }

/-- The survey is over: contents decided, the chart of a full one written, and HARBOUR, unless HK does not work (R366, R367,
R407). -/
def Block.surveyOver (b : Block) (f : SurveyFindings) : Block :=
  let b := { b with sv.busy := false }
  if (b.dom hkDom).st == .failed then b
  else (b.decideContents.surveyChart.enterHarbour f.calPass f.clkLost).arrive

/-- A group of a full survey at arrival is tested; without the engine the arrival goes on as a quick survey (R373, R408). -/
def Block.arrivalGroup (b : Block) (f : SurveyFindings) : Block :=
  if b.sv.tested ∨ b.switching then b
  else if f.svOk then b.groupTested f
  else { (b.surveyKind false).svCheck false with pw.arr := .power }.powerNext

/-- ARRIVAL_SURVEY_DONE: the quick survey ends; or the test of one power group of a full one, and after the last of them the
calibration that ends it (DESIGN CHOICE: log 109).  Without a working HK domain the pier stays in SURVEY (R407). -/
def Block.arrivalSurveyDone (b : Block) (f : SurveyFindings) : Block :=
  if b.pw.st ≠ .survey ∨ ¬ b.hmRuns ∨ ¬ b.coreRuns then b
  else if b.pw.arr = .groups then b.arrivalGroup f
  else if b.pw.arr ≠ .survey then b
  else if b.pw.surveyFull then (b.applyFindings (SurveyFindings.afterGroups f)).surveyOver f
  else
    let b := b.surveyKind f.svOk
    (b.applyFindings (b.findable (SurveyFindings.withoutEngine f))).surveyOver f

/-- The meaning of ARRIVAL_SURVEY_DONE. -/
def execArrivalSurveyDone (f : SurveyFindings) (s : State) : Host.Outcome State Fault Refusal := s.upd (·.arrivalSurveyDone f)

/-! ### Freeze (R358 to R362), the TAP (R357), capture (R360) -/

/-- FREEZE_N falls: everything stops, and the stack is in self-refresh; flits on their way stay where they are (R358). -/
def Block.freeze (b : Block) : Block :=
  if b.pw.st = .dark ∨ b.pw.st = .frozen ∨ b.sv.inScan then b
  else
    let b := ((b.abandonAll.segDown .west).segDown .east).dmanLow
    { b.draw with pw.st := .frozen, pw.heldInReset := false, lg.writing := none, ck.root := { b.ck.root with attempt := false }
                  ck.west := { b.ck.west with attempt := false }, ck.east := { b.ck.east with attempt := false } }

/-- The meaning of FREEZE_N_FALL. -/
def execFreezeNFall (s : State) : Host.Outcome State Fault Refusal := s.upd Block.freeze

/-- The meaning of TRST_N_LOW: the TAP controller alone. -/
def execTrstNLow (s : State) : Host.Outcome State Fault Refusal :=
  s.upd fun b => if b.pw.st = .dark then b else { b with jtagDr := 0, frzOut := [] }

/-- The bits of a number, least significant first. -/
def bitsOf (n v : Nat) : List Bool := (List.range n).map fun i => v / 2 ^ i % 2 == 1

/-- The chains of R360. -/
def chainExists (i : Nat) : Bool := decide (i < 7) || decide (0x100 ≤ i ∧ i < 0x140)

/-- FRZ_CAPTURE: the header, and in FROZEN the chain; the chains of switched domains read 0 after a trip (R360, R361). -/
def Block.capture (b : Block) (i : BitVec 16) : Block :=
  if b.pw.st = .dark ∨ b.pins.railsLow.contains .io then b
  else
    let n := if b.pw.st = .frozen ∧ ¬ b.sv.inScan ∧ chainExists i.toNat then Config.chainLength i % 2 ^ 32 else 0
    let dark := b.heat.frozenTrip && i != 0
    { b with frzOut := bitsOf 64 (i.toNat + n * 2 ^ 16) ++ (List.range n).map fun k => !dark && Config.chainBit i b.fresh k }

/-- The meaning of FRZ_CAPTURE. -/
def execFrzCapture (index : BitVec 16) (s : State) : Host.Outcome State Fault Refusal := s.upd (·.capture index)

/-! ### Scan test (R416 to R418) -/

/-- SCAN_ENTER: with TEST_MODE high the pier stops, a running survey with it, and every key is zeroized. -/
def Block.scanEnter (b : Block) (testMode : Bool) : Block :=
  if ¬ testMode ∨ b.pw.st = .dark ∨ b.sv.inScan then b
  else
    let b := b.abandonAll.dropLinks.dmanLow
    { b with keys := {}, lg.writing := none, sv.logDisabled := true, sv.inScan := true, sv.scanEntered := false, sv.zeroOk := false
             sv.run := none }

/-- The meaning of SCAN_ENTER. -/
def execScanEnter (testMode : Bool) (s : State) : Host.Outcome State Fault Refusal := s.upd (·.scanEnter testMode)

/-- The meaning of ZEROIZE_DONE: the comparator's verdict. -/
def execZeroizeDone (pass : Bool) (s : State) : Host.Outcome State Fault Refusal :=
  s.upd fun b => if b.sv.inScan ∧ pass then { b with sv.scanEntered := true, sv.zeroOk := true } else b

end Sys2Proof.Machine
end

