-- ==== Sys2Proof/Machine/Charters.lean ====
section
/-! DEFINITION. The commands of charters: opening, closing, asking, and the two passes (chapter 07). -/

namespace Sys2Proof.Machine

open Sys2Proof
open CharterDesc'

/-- One of several equally good choices (log 11). -/
def Block.pickOf (b : Block) (xs : List Nat) : Nat := xs.getD (Config.pick b.fresh % xs.length) 0

/-- The flow ranges of two descriptors overlap (R196). -/
def overlaps (d e : CharterDesc) : Bool := decide (d.flowLo.toNat ≤ e.flowHi.toNat ∧ e.flowLo.toNat ≤ d.flowHi.toNat)

/-- The open charters whose flows a descriptor overlaps. -/
def Block.overlapped (b : Block) (d : CharterDesc) : List Nat :=
  ((b.chartersIn fun _ => true).filter fun e => overlaps d e.2).map (·.1)

/-- An in-budget request of the charter has not completed (R212). -/
def Block.charterBusy (b : Block) (c : Nat) : Bool :=
  (b.qy.reqs.any fun r => r.cls.charter == some c) || (b.qy.ins.any fun i => i.tags != 0 && i.cls.charter == some c)
    || b.qy.copies.any fun x => x.cls.charter == some c && !x.answered

/-- The indices that are FREE; those of a charter that closed while requests of it still run come only where no other is left
(log 11). -/
def Block.freeIndices (b : Block) : List Nat :=
  let free := (List.range 4096).filter fun c => (b.charter c).st == .free && (b.charter c).desc.isNone
  let idle := free.filter fun c => !b.charterBusy c
  if idle.isEmpty then free else idle

/-- ADMIT_REFUSED with its detail. -/
def Block.admitRefused (b : Block) (m : ManRef) (s : Short) : Block :=
  b.finish m Mop.charterOpen St.admitRefused [] s.detail

/-- A charter that has been admitted: it becomes ACTIVE, or waits for its channels (R211, R262); its index's counters start
afresh (R216). -/
def Block.enroll (b : Block) (m : ManRef) (d : CharterDesc) : Block :=
  let c := b.pickOf b.freeIndices
  let b := (b.setCharter c { desc := some d, opened := b.chs.opens + 1 }).draw
  ({ b with chs.opens := b.chs.opens + 1 }).startCharter c (some m)

/-- CHARTER_OPEN: the order of R455.  Which of several charters that overlap, or that are SUSPENDED, a refusal names as its place
is open (R210; free value: log 11). -/
def Block.charterOpen (b : Block) (m : ManRef) (d : CharterDesc) : Block :=
  let held := (b.chartersIn fun _ => true).length
  let clash := b.overlapped d
  let susp := b.suspendeds.map (·.1)
  if ¬ legal d then b.finish m Mop.charterOpen St.badParam
  else if b.pw.st ≠ .openS then b.admitRefused m ⟨0x01, 0, 0, 0⟩
  else if ¬ clash.isEmpty then (b.admitRefused m ⟨0x03, b.pickOf clash, 0, 0⟩).draw
  else if ¬ susp.isEmpty then (b.admitRefused m ⟨0x0D, b.pickOf susp, 0, 0⟩).draw
  else if 4096 ≤ held then b.admitRefused m ⟨0x02, 0, (held + 1 : Nat), 4096⟩
  else
    match b.check true (b.actives.map (·.2) ++ [d]) with
    | some s => b.noteUse.admitRefused m s
    | none => b.noteUse.enroll m d

/-- The meaning of CHARTER_OPEN: after the descriptor (R194), BUSY_RETRY while a pass runs or another charter is being
opened (R316, R318). -/
def execCharterOpen (m : ManRef) (d : CharterDesc) (s : State) : Host.Outcome State Fault Refusal :=
  s.man m Mop.charterOpen fun b =>
    if legal d ∧ (b.chs.passDue ∨ ¬ b.chs.waking.isEmpty) then b.finish m Mop.charterOpen St.busyRetry else b.charterOpen m d

/-- CHARTER_CLOSE; a SUSPENDED charter, which holds no reservation, closes at once (R212, R214, R327). -/
def Block.charterClose (b : Block) (m : ManRef) (c : Nat) : Block :=
  let op := Mop.charterClose
  if 4096 ≤ c then b.finish m op St.badParam
  else match (b.charter c).st with
    | .free => b.finish m op St.badParam
    | .closing => b.finish m op St.refused
    | .suspended => (b.freeCharter c).finish m op St.ok
    | .active => b.modCharter c fun x => { x with st := .closing, waiter := some m }

/-- The meaning of CHARTER_CLOSE. -/
def execCharterClose (m : ManRef) (idx : BitVec 16) (s : State) : Host.Outcome State Fault Refusal :=
  s.man m Mop.charterClose fun b =>
    if idx.toNat < 4096 ∧ b.passBusy then b.finish m Mop.charterClose St.busyRetry else b.charterClose m idx.toNat

/-- CHARTER_CLOSE_DONE: the index and the reservations are free. -/
def Block.charterCloseDone (b : Block) (c : Nat) : Block :=
  let x := b.charter c
  if x.st ≠ .closing ∨ b.charterBusy c then b
  else
    let b := b.freeCharter c
    match x.waiter with
    | some m => b.finish m Mop.charterClose St.ok
    | none => b

/-- The meaning of CHARTER_CLOSE_DONE. -/
def execCharterCloseDone (idx : BitVec 12) (s : State) : Host.Outcome State Fault Refusal :=
  s.upd fun b => if b.live then b.charterCloseDone idx.toNat else b

def ChState.code : ChState → Nat
  | .free => 0 | .active => 1 | .suspended => 2 | .closing => 3

/-- The result of CHARTER_QUERY (R327). -/
def queryResult (x : Charter) : List Byte :=
  match x.st, x.desc with
  | .free, _ | _, none => leBytes 0 64
  | st, some d =>
    bytes d ++ [BitVec.ofNat 8 st.code, x.reason.zeroExtend 8] ++ leBytes (depth d) 2 ++ leBytes (quayDepth d) 2
      ++ leBytes (rate d) 2 ++ leBytes (quayRate d) 2 ++ leBytes 0 2 ++ leBytes x.inb.toNat 4 ++ leBytes x.dem.toNat 4
      ++ leBytes x.miss.toNat 4 ++ leBytes x.panicCnt.toNat 4 ++ leBytes x.runv.toNat 4

/-- CHARTER_QUERY. -/
def Block.charterQuery (b : Block) (m : ManRef) (c : Nat) : Block :=
  if 4096 ≤ c then b.finish m Mop.charterQuery St.badParam
  else b.finish m Mop.charterQuery St.ok (queryResult (b.charter c))

/-- The meaning of CHARTER_QUERY. -/
def execCharterQuery (m : ManRef) (idx : BitVec 16) (s : State) : Host.Outcome State Fault Refusal :=
  s.man m Mop.charterQuery (·.charterQuery m idx.toNat)

/-- Every step that waited for its pass takes effect (R213). -/
def Block.applyDue (b : Block) : Block :=
  b.each (List.range 64) fun b n =>
    match (b.chan n).stepDue with
    | some v => b.applyStep n v
    | none => b

/-- SHORTFALL_PASS_DONE (R213, R214). -/
def Block.shortfallPass (b : Block) : Block :=
  if ¬ b.chs.passDue ∨ ¬ b.live then b
  else
    let b := b.noteUse
    let b := (b.shortfall b.actives.length).applyDue
    { b with chs.passDue := false }

/-- The meaning of SHORTFALL_PASS_DONE. -/
def execShortfallPassDone (s : State) : Host.Outcome State Fault Refusal := s.upd Block.shortfallPass

/-- The hold of a restore pass has gone by (R215). -/
def Block.restoreHeld (b : Block) : Bool :=
  decide (max 1 (b.regField Off.chCtrl 8 8) * msTicks ≤ b.since b.chs.lastFall)

/-- The meaning of RESTORE_PASS. -/
def execRestorePass (s : State) : Host.Outcome State Fault Refusal :=
  s.upd fun b => if b.live ∧ b.pw.st = .openS ∧ ¬ b.chs.passDue ∧ b.restoreHeld then b.noteUse.restoreAll else b

end Sys2Proof.Machine
end

