-- ==== Sys2Proof/Machine/LaneManifests.lean ====
section
/-! DEFINITION. The lane manifests (R74, R138, R318, R328, R329): status, retraining, PRBS, spread. -/

namespace Sys2Proof.Machine

open Sys2Proof

/-- Side 0 is West, side 1 is East. -/
def sideOf : Nat → Option Side
  | 0 => some .west
  | 1 => some .east
  | _ => none

/-- A manifest of R318's lane row on the side that its first byte names: BAD_PARAM for no side, BUSY_RETRY beside another
such manifest, REFUSED while breakwater holds the side (R349). -/
def Block.onSide (b : Block) (m : ManRef) (op side : Nat) (lawful : Bool) (f : Side → Block) : Block :=
  match sideOf side with
  | none => b.finish m op St.badParam
  | some sd =>
    if ¬ lawful then b.finish m op St.badParam
    else if b.laneBusy sd (some m) then b.finish m op St.busyRetry
    else if (b.pll (sidePll sd)).down then b.finish m op St.refused
    else f sd

/-! ### LANE_STATUS -/

/-- One lane's four bytes (R328). -/
def Lane.statusBytes (x : Lane) : List Byte :=
  [BitVec.ofNat 8 x.st.code, BitVec.ofNat 8 x.grade.val
  , BitVec.ofNat 8 (b2n x.polInv + 2 * b2n x.los + 4 * b2n x.lol), x.fom]

/-- LANE_STATUS's result. -/
def Block.laneStatusBytes (b : Block) (sd : Side) : List Byte :=
  let s := b.side sd
  let width := (sideLanes sd).countP fun l => (b.lane l).inRun
  [BitVec.ofNat 8 s.grade.val, BitVec.ofNat 8 width, s.spread, BitVec.ofNat 8 (b.shareUnits sd)]
    ++ leBytes (8 * b.creditUnits sd) 2 ++ leBytes 0 2
    ++ (sideLanes sd).flatMap fun l => (b.lane l).statusBytes

/-- LANE_STATUS. -/
def Block.laneStatus (b : Block) (m : ManRef) (side : Nat) : Block :=
  match sideOf side with
  | none => b.finish m Mop.laneStatus St.badParam
  | some sd => b.finish m Mop.laneStatus St.ok (b.laneStatusBytes sd)

/-- The meaning of LANE_STATUS. -/
def execLaneStatus (m : ManRef) (side : BitVec 8) (s : State) : Host.Outcome State Fault Refusal :=
  s.man m Mop.laneStatus (·.laneStatus m side.toNat)

/-! ### LANE_RETRAIN -/

/-- One lane retrained: dropped by REFORM, or hunted again warm where it is out of the running segment (R136, R138, R139). -/
def Block.retrainLane (b : Block) (l : Nat) : Block :=
  let sd := laneSide l
  let warm (b : Block) : Block :=
    (b.startHunt l (b.side sd).grade true).modLane l fun x => { x with retraining := true, attempts := 0 }
  if (b.side sd).seg ≠ .run ∨ ¬ b.laneUsable l then
    if (b.lane l).st ≠ .failed then b
    else if ¬ b.laneUsable l ∨ (b.side sd).seg = .down then b.modLane l Lane.toOff
    else if (b.side sd).seg = .training ∧ ¬ (b.side sd).warmAll then b.startHunt l (b.side sd).grade false
    else warm b
  else if (b.lane l).inRun then b.dropLaneFull l
  else match (b.lane l).st with
    | .off | .quiet | .failed => warm b
    | _ => b

/-- The whole side retrained from G1 (R119, R138). -/
def Block.retrainWhole (b : Block) (sd : Side) : Block :=
  ((b.modSide sd fun x => { x with capG2 := b.pw.st == .harbour }).retrainSide sd 0 false).freshCaps

/-- LANE_RETRAIN's work; a side that is down links up. -/
def Block.laneRetrainOn (b : Block) (m : ManRef) (sd : Side) (whole : Bool) (mask : BitVec 16) : Block :=
  let b := b.modSide sd fun x => { x with waiter := some (m, Mop.laneRetrain) }
  let b :=
    if whole then b.retrainWhole sd
    else
      let b := b.each (lanesOf sd mask) Block.retrainLane
      if (b.side sd).seg = .down then b.linkUp sd else b
  b.wakeWaiter sd

/-- The meaning of LANE_RETRAIN. -/
def execLaneRetrain (m : ManRef) (side mode : BitVec 8) (mask : BitVec 16) (s : State) : Host.Outcome State Fault Refusal :=
  s.man m Mop.laneRetrain fun b =>
    b.onSide m Mop.laneRetrain side.toNat (decide (mode.toNat ≤ 1)) fun sd => b.laneRetrainOn m sd (mode == 1) mask

/-! ### LANE_PRBS -/

/-- A lane's PRBS counters, sync flags and SATURATED afresh: both counters together (R76, R80). -/
def Block.clearPrbs (b : Block) (l : Nat) : Block :=
  ((b.setCount (lnOff Off.lnPrbsBitsLo l) 0).setCount (lnOff Off.lnPrbsErrLo l) 0).modLane l fun x => { x with prbsSat := false }

/-- The lane is its segment's only one in RUN. -/
def Block.onlyRunning (b : Block) (l : Nat) : Bool :=
  (b.lane l).inRun && (sideLanes (laneSide l)).all fun k => k == l || !(b.lane k).inRun

/-- LANE_PRBS's work: the lane leaves the link, trains warm and then sends the pattern for the duration.  REFUSED on its
segment's only lane in RUN (R328), and on a lane that no training can bring there: its segment not in RUN, the lane not
usable, or FAILED, which only LANE_RETRAIN ends (R139; DESIGN CHOICE, log 86). -/
def Block.lanePrbsOn (b : Block) (m : ManRef) (l : Nat) (pattern : BitVec 2) (ms : BitVec 16) : Block :=
  if b.onlyRunning l ∨ (b.side (laneSide l)).seg ≠ .run ∨ ¬ b.laneUsable l ∨ (b.lane l).st = .failed then
    b.finish m Mop.lanePrbs St.refused
  else
    let b := (b.clearPrbs l).clrReg (lnOff Off.lnPrbsStatus l) 2
    let b := b.modLane l fun x => { x with prbsOwner := some m, prbsRun := some pattern, prbsMs := ms, prbsSync := false, chk := {} }
    b.retrainLane l

/-- The meaning of LANE_PRBS. -/
def execLanePrbs (m : ManRef) (side lane pattern : BitVec 8) (ms : BitVec 16) (s : State) :
    Host.Outcome State Fault Refusal :=
  s.man m Mop.lanePrbs fun b =>
    b.onSide m Mop.lanePrbs side.toNat (decide (lane.toNat < 16 ∧ pattern.toNat < 3 ∧ 1 ≤ ms.toNat ∧ ms.toNat ≤ 60000))
      fun sd => b.lanePrbsOn m (laneOf sd lane.toNat) (pattern.truncate 2) ms

/-! ### SSC_SET -/

/-- A side's own spread written (R72, R74): DEPTH and RATE, awaiting the next TRAIN. -/
def Block.writeSsc (b : Block) (sd : Side) (depth rate : Nat) : Block :=
  let off := sideOff Off.lnSideSsc sd
  let v := BitVec.ofNat 32 (depth + 256 * rate)
  (b.setReg off v).modSide sd fun x => { x with sscPending := x.sscPending || b.reg off != v }

/-- SSC_SET's work. -/
def Block.sscSetOn (b : Block) (m : ManRef) (sd : Side) (depth rate : Nat) (now : Bool) : Block :=
  let b := b.writeSsc sd depth rate
  if now then
    ((b.modSide sd fun x => { x with waiter := some (m, Mop.sscSet) }).retrainWhole sd).wakeWaiter sd
  else b.finish m Mop.sscSet St.ok (b.sscResult sd)

/-- SSC_SET without RETRAIN_NOW stands outside R318's lane row. -/
def Block.sscSet (b : Block) (m : ManRef) (side depth rate flags : Nat) : Block :=
  let lawful := decide (depth ≤ 20 ∧ rate ≤ 6 ∧ flags ≤ 1)
  if flags = 1 then b.onSide m Mop.sscSet side lawful fun sd => b.sscSetOn m sd depth rate true
  else match sideOf side with
    | some sd => if lawful then b.sscSetOn m sd depth rate false else b.finish m Mop.sscSet St.badParam
    | none => b.finish m Mop.sscSet St.badParam

/-- The meaning of SSC_SET. -/
def execSscSet (m : ManRef) (side depth rate flags : BitVec 8) (s : State) : Host.Outcome State Fault Refusal :=
  s.man m Mop.sscSet (·.sscSet m side.toNat depth.toNat rate.toNat flags.toNat)

end Sys2Proof.Machine
end

