-- ==== Sys2Proof/Machine/Keys.lean ====
section
/-! DEFINITION. The key store and what loads it: KEY_LOAD and the `KS_` registers (R302, R313, R315, R335). -/

namespace Sys2Proof.Machine

open Sys2Proof

/-- Manifest keys loaded. -/
def Block.mkeys (b : Block) : Nat := b.keys.manifest.length

/-- Manifest key `n`. -/
def Block.mkey (b : Block) (n : Nat) : Option MKey := tget (fun _ => none) b.keys.manifest n

/-- How a KEY_LOAD or a `KS_CMD` stands to R315. -/
structure KeyWork where
  kind : Nat
  slot : Nat
  erase : Bool
  wrapped : Bool
  priv : Nat
  srcLo : Nat
  srcHi : Nat
  material : List Byte
  inBand : Bool
  deriving DecidableEq, Repr

/-- The bytes of a key of a kind. -/
def keyBytes (kind : Nat) : Nat := if kind = 0 then 64 else 32

/-- The fields of R315 are legal, the material of the length that they give. -/
def KeyWork.legal (k : KeyWork) : Bool :=
  let slotOk := match k.kind with
    | 0 => decide (1 ≤ k.slot ∧ k.slot ≤ 64)
    | 1 => decide (k.slot ≤ 15)
    | 2 => decide (k.slot = 0)
    | _ => false
  let attrOk := if k.kind = 1 then decide (k.priv ≤ 2 ∧ k.srcLo ≤ 0x7FFE ∧ k.srcHi ≤ 0x7FFE)
    else decide (k.priv = 0 ∧ k.srcLo = 0 ∧ k.srcHi = 0)
  let len := if k.erase then 0 else keyBytes k.kind + (if k.wrapped then 8 else 0)
  slotOk && attrOk && decide (k.material.length = len)

/-- The plain key that a load brings, unwrapped under KW0 where it is wrapped. -/
def Block.plainKey (b : Block) (k : KeyWork) : Option (List Byte) :=
  if ¬ k.wrapped then some k.material
  else match b.keys.wrap with
    | some w => unwrapKey (leBytes w.toNat 32) k.material
    | none => none

/-- The key store with a key put into its slot. -/
def Keys.load (ks : Keys) (k : KeyWork) (bs : List Byte) : Keys :=
  match k.kind with
  | 0 => { ks with region := tset (fun _ => none) ks.region k.slot (some (BitVec.ofNat 512 (ofLe bs))) }
  | 1 => { ks with manifest := tset (fun _ => none) ks.manifest k.slot
                    (some { key := BitVec.ofNat 256 (ofLe bs), priv := BitVec.ofNat 2 k.priv
                            srcLo := BitVec.ofNat 15 k.srcLo, srcHi := BitVec.ofNat 15 k.srcHi }) }
  | _ => { ks with wrap := some (BitVec.ofNat 256 (ofLe bs)) }

/-- The key store with a slot erased. -/
def Keys.erase (ks : Keys) (kind slot : Nat) : Keys :=
  match kind with
  | 0 => { ks with region := tset (fun _ => none) ks.region slot none }
  | 1 => { ks with manifest := tset (fun _ => none) ks.manifest slot none }
  | _ => { ks with wrap := none }

/-- The load or erase of R315: its rows in order; the status, and the key store after it. -/
def Block.keyWork (b : Block) (k : KeyWork) : Nat × Keys :=
  let load := !k.erase
  let kw := b.keys.wrap.isSome
  if load ∧ ¬ k.wrapped ∧ (kw ∨ k.inBand) then (St.refused, b.keys)
  else if load ∧ k.wrapped ∧ ¬ kw then (St.refused, b.keys)
  else if (k.kind = 1 ∨ k.kind = 2) ∧ b.regBit Off.mfCtrl 1 then (St.refused, b.keys)
  else if k.erase ∧ k.kind = 1 ∧ b.mkeys = 1 ∧ (b.mkey k.slot).isSome then (St.refused, b.keys)
  else if k.erase then (St.ok, b.keys.erase k.kind k.slot)
  else match b.plainKey k with
    | none => (St.authFail, b.keys)
    | some bs =>
      if k.kind = 0 ∧ bs.take 32 = (bs.drop 32).take 32 then (St.badParam, b.keys)
      else (St.ok, b.keys.load k bs)

/-- KEY_LOAD's parameters as R315 reads them; the transport is in band for rings 0 to 61. -/
def keyWorkOf (m : ManRef) (k : KeyLoadParams) : KeyWork :=
  { kind := k.kind.toNat, slot := k.slot.toNat, erase := k.op == 1, wrapped := k.op != 1 && k.wrapped == 1
    priv := k.priv.toNat, srcLo := k.srcLo.toNat, srcHi := k.srcHi.toNat, material := k.material
    inBand := decide (m.ring.val < 62) }

/-- KEY_LOAD. -/
def Block.keyLoad (b : Block) (m : ManRef) (k : KeyLoadParams) : Block :=
  let w := keyWorkOf m k
  if 1 < k.op.toNat ∨ (k.op = 0 ∧ 1 < k.wrapped.toNat) ∨ ¬ w.legal then b.finish m Mop.keyLoad St.badParam
  else
    let (st, ks) := b.keyWork w
    ({ b with keys := ks }).finish m Mop.keyLoad st

/-- The meaning of KEY_LOAD. -/
def execKeyLoad (m : ManRef) (k : KeyLoadParams) (s : State) : Host.Outcome State Fault Refusal :=
  s.man m Mop.keyLoad (·.keyLoad m k)

end Sys2Proof.Machine
end

