-- ==== Sys2Proof/Machine/Tallies.lean ====
section
/-! DEFINITION. Tally selectors, snapshots and dumps, bandwidth windows (R425 to R432). -/

namespace Sys2Proof.Machine

open Sys2Proof

/-! ### Selectors (R426, R427) -/

/-- The highest filter that an event of a block takes; `none` where the event is not the block's (R427). -/
def eventFilter (blk ev : Nat) : Option Nat :=
  if ev ≤ 1 then some 0
  else if blk < 64 then
    if [0x010, 0x011, 0x012, 0x013, 0x014, 0x015, 0x019].contains ev then some 5
    else if 0x016 ≤ ev ∧ ev ≤ 0x021 then some 0
    else none
  else if blk < 66 then
    if 0x040 ≤ ev ∧ ev ≤ 0x046 then some 16
    else if ev = 0x047 then some 0
    else none
  else if blk < 68 then (if 0x060 ≤ ev ∧ ev ≤ 0x069 then some 0 else none)
  else match ev with
    | 0x080 => some 2
    | 0x081 => some 4
    | 0x082 => some 31
    | 0x083 => some 8
    | 0x084 | 0x085 => some 0
    | 0x086 => some 2
    | 0x087 | 0x088 => some 0
    | _ => none

/-- A selector is legal for a block. -/
def selectorOk (blk sel : Nat) : Bool :=
  decide (sel < 2 ^ 15) && match eventFilter blk (sel % 1024) with
    | some top => decide (sel / 1024 ≤ top)
    | none => false

/-- A legal selector written: its counter and OVF bit go to 0 (R426); in a domain that is not ON nothing is written (R443). -/
def Block.writeSelector (b : Block) (blk i sel : Nat) : Block :=
  if ¬ b.domOn (tallyDom blk) then b
  else
    let off := tlOff Off.tlEvsel blk + 4 * (i / 2)
    let sh := 16 * (i % 2)
    let old := b.regField off sh 16
    let b := b.setReg off (BitVec.ofNat 32 ((b.reg off).toNat - old * 2 ^ sh + sel % 2 ^ 16 * 2 ^ sh))
    let t := b.tallyBlk blk
    (b.setTallyBlk blk { t with cnt := tset (fun _ => 0) t.cnt i 0 }).clrReg (tlOff Off.tlOvf blk) (BitVec.ofNat 32 (2 ^ i))

/-- TALLY_CONFIG. -/
def Block.tallyConfig (b : Block) (m : ManRef) (blk i sel : Nat) : Block :=
  if 68 < blk ∨ 7 < i ∨ ¬ selectorOk blk sel then b.finish m Mop.tallyConfig St.badParam
  else (b.writeSelector blk i sel).finish m Mop.tallyConfig St.ok

/-- The meaning of TALLY_CONFIG. -/
def execTallyConfig (m : ManRef) (block counter : BitVec 8) (sel : BitVec 16) (s : State) :
    Host.Outcome State Fault Refusal :=
  s.man m Mop.tallyConfig (·.tallyConfig m block.toNat counter.toNat sel.toNat)

/-! ### DUMP_CONFIG (R329, R429 to R431) -/

/-- The blocks that a mask names. -/
def DumpParams.blocks (d : DumpParams) : List Nat := (List.range 69).filter fun i => d.mask.getLsbD i

/-- The bytes of one snapshot (R430). -/
def DumpParams.size (d : DumpParams) : Nat := 64 + 128 * (DumpParams.blocks d).length

/-- The parameters are legal; a ring is checked where the mode uses one. -/
def DumpParams.legal (d : DumpParams) : Bool :=
  let a := d.ringAddr.toNat
  let n := d.ringBytes.toNat
  let ring := decide (a % 64 = 0 ∧ DumpParams.size d ≤ n)
  let place := match d.mode.toNat with
    | 0 => true
    | 1 => ring && decide (dumpBase ≤ a ∧ a + n ≤ pierBytes)
    | 2 => ring && decide (a < 2 ^ 52)
    | _ => false
  decide (10 ≤ d.period.toNat ∧ d.period.toNat ≤ 10000000 ∧ d.mask.toNat < 2 ^ 69) && place

/-- The dump mode in effect. -/
def Tallies.mode (t : Tallies) : Nat :=
  match t.cfg with
  | some d => d.mode.toNat
  | none => 0

/-- The meaning of DUMP_CONFIG: it takes effect at the next period boundary (R432). -/
def execDumpConfig (m : ManRef) (d : DumpParams) (s : State) : Host.Outcome State Fault Refusal :=
  s.man m Mop.dumpConfig fun b =>
    if DumpParams.legal d then
      ({ b with tl.nextCfg := some d, tl.periodAt := if b.tl.mode = 0 then b.ck.tide else b.tl.periodAt }).finish m Mop.dumpConfig St.ok (leBytes (DumpParams.size d) 4)
    else b.finish m Mop.dumpConfig St.badParam

/-! ### A strobe (R429, R432) -/

/-- The shadow of a block at this moment (R429, R430). -/
def Block.shadowNow (b : Block) (n : Nat) : Shadow :=
  if b.domOn (tallyDom n) then
    { cyc := (b.tallyBlk n).cyc, cnt := (b.tallyBlk n).cnt, ovf := BitVec.ofNat 8 (b.reg (tlOff Off.tlOvf n)).toNat
      sels := (List.range 8).map fun i => BitVec.ofNat 16 (b.selector n i), on := true }
  else { sels := List.replicate 8 0, on := false }

/-- Every block copies its counters into its shadow. -/
def Block.takeShadows (b : Block) : Block :=
  { b with tl.shadows := (List.range 69).map fun n => (n, b.shadowNow n) }

/-- The 128 bytes of a masked block. -/
def Shadow.bytes (x : Shadow) : List Byte :=
  let counter (i : Nat) : Nat := (tget (fun _ => 0) x.cnt i).toNat + (if x.ovf.getLsbD i then 2 ^ 63 else 0)
  leBytes x.cyc.toNat 8 ++ ((List.range 8).flatMap fun i => leBytes (counter i) 8)
    ++ (x.sels.flatMap fun v => leBytes v.toNat 2) ++ [BitVec.ofNat 8 (b2n (!x.on))] ++ leBytes 0 39

/-- The snapshot of the shadows (R430). -/
def Block.snapshotBytes (b : Block) (d : DumpParams) : List Byte :=
  leBytes 0x50414E53 4 ++ leBytes b.tl.seqNext.toNat 4 ++ leBytes b.tl.strobe.toNat 8 ++ leBytes d.period.toNat 4
    ++ leBytes d.mask.toNat 12 ++ leBytes b.tl.skips.toNat 2 ++ leBytes b.selfId.toNat 2 ++ leBytes 0 28
    ++ (DumpParams.blocks d).flatMap fun n => Shadow.bytes (tget (fun _ => ({} : Shadow)) b.tl.shadows n)

/-- A skipped strobe. -/
def Block.skipStrobe (b : Block) : Block :=
  let n := b.regField Off.tlSkipped 0 16
  let b := (b.setReg Off.tlSkipped (BitVec.ofNat 32 (min (n + 1) 0xFFFF))).orReg Off.tlAlarm 1
  { b with tl.skips := if b.tl.skips = 0xFFFF then b.tl.skips else b.tl.skips + 1 }

/-- The WRITE of up to four granules of a remote snapshot (R431). -/
def Block.dumpFlit (b : Block) (tag a : Nat) (bs : List Byte) : Flit :=
  withPayload
    { kind := 1, vl := true, opcode := 0x02, dest := BitVec.ofNat 15 (a / 2 ^ 37), src := b.selfId
      tag := BitVec.ofNat 16 tag, offset := BitVec.ofNat 37 a
      gvalid := BitVec.ofNat 4 (2 ^ ((bs.length + 63) / 64) - 1) } bs

/-- A remote snapshot's flits at insertion level 8, each with an internal tag. -/
def Block.sendDump (b : Block) (sd : Side) (a : Nat) (bs : List Byte) (tags : List Nat) : Block :=
  let one (b : Block) (e : Nat × Nat) : Block :=
    let part := (bs.drop (256 * e.1)).take 256
    let w : RemWrite := { tag := e.2, req := 0, grans := (part.length + 63) / 64, dump := true }
    { b with
      qy.rems := b.qy.rems ++ [w]
      qy.ins := b.qy.ins ++ [{ side := sd, level := 8, flit := b.dumpFlit e.2 (a + 256 * e.1) part, quayIn := b.ck.tide
                               boundNs := 0xFFFFFFFF, remTag := some e.2 }] }
  (((List.range tags.length).zip tags).foldl one b).draw.noteTags

/-- The granules of the image, in order. -/
def Tallies.imageGranules (t : Tallies) : List Nat := (List.range (t.image.length / 64)).map fun i => t.imageAt / 64 + i

/-- The granules of a local image wait at their channels, which wake for them (R261, R431). -/
def Block.queueDump (b : Block) : Block :=
  if b.tl.imageRemote then b
  else
    let b := { b with tl.left := b.tl.imageGranules }
    b.each (ascending (b.tl.left.map chanOf)) fun b n =>
      let b := b.modChan n fun x => { x with dumpMark := b.slotsGone x }
      if b.inSvc n then b.wakeChan n else b

/-- A snapshot begins: the shadows are taken, the image is formed and placed, the ring position moves on (R429 to R431). -/
def Block.beginSnapshot (b : Block) (d : DumpParams) : Block :=
  let b := { b with tl.strobe := b.ck.tide }
  let b := b.takeShadows
  let n := DumpParams.size d
  let at_ := if b.tl.pos + n ≤ d.ringBytes.toNat then b.tl.pos else 0
  { b with
    tl.image := b.snapshotBytes d, tl.imageAt := d.ringAddr.toNat + at_, tl.imageRemote := d.mode == 2
    tl.pos := at_ + n, tl.seqNext := b.tl.seqNext + 1, tl.skips := 0, tl.busy := true }.queueDump

/-- A remote snapshot: its route, its tags, its flits. -/
def Block.remoteSnapshot (b : Block) (d : DumpParams) : Block :=
  let n := (DumpParams.size d + 255) / 256
  match b.route (d.ringAddr.toNat / 2 ^ 37) with
  | none =>
    let b := b.orReg Off.tlAlarm 2
    if b.tl.noRouteLogged then b else ({ b with tl.noRouteLogged := true }).event .dumpNoRoute
  | some sd =>
    if b.qyUp && (b.side sd).seg == .run then
      let tags := b.freeTags n
      if tags.length < n then b.skipStrobe
      else
        let b := b.beginSnapshot d
        b.sendDump sd b.tl.imageAt b.tl.image tags
    else b.dumpFail

/-- The configuration that waits takes effect at the boundary (R432). -/
def Block.adoptDump (b : Block) : Block :=
  match b.tl.nextCfg with
  | none => b
  | some d => { b with tl.cfg := some d, tl.nextCfg := none, tl.pos := 0, tl.seqNext := 0, tl.noRouteLogged := false, tl.skips := 0 }

/-- The strobe reaches the tally blocks: a snapshot, a skip, or nothing with the mode off. -/
def Block.strobe (b : Block) : Block :=
  match b.tl.cfg with
  | none => b
  | some d =>
    if d.mode = 0 then b
    else if b.tl.busy then b.skipStrobe
    else if d.mode = 2 then b.remoteSnapshot d
    else b.beginSnapshot d

/-- The TL domain runs: ON, its clock there, no departure under way (R346, R372, R375). -/
def Block.dumpRuns (b : Block) : Bool := b.hmRuns && b.coreRuns && b.domOn tlDom && b.inService

/-- The period in ticks whose multiples are boundaries: that of the configuration in effect, or, with the mode off, that of
the one that waits (DEDUCED: R432 has it take effect at the next period boundary; log 97). -/
def Tallies.period (t : Tallies) : Nat :=
  match t.cfg, t.nextCfg with
  | some d, n => if d.mode = 0 then (n.getD d).period.toNat * usTicks else d.period.toNat * usTicks
  | none, some n => n.period.toNat * usTicks
  | none, none => 0

/-- The meaning of SNAPSHOT_STROBE: the tide counter passes a multiple of the period. -/
def execSnapshotStrobe (s : State) : Host.Outcome State Fault Refusal :=
  s.upd fun b =>
    if b.dumpRuns ∧ b.crossed b.tl.period b.tl.periodAt then { b with tl.periodAt := b.ck.tide }.adoptDump.strobe else b

/-- What a local snapshot has still to write at a channel fits, under the ceiling of R14, in the slots since the strobe: a
slot for each granule, and 37 for each row that is opened; a channel out of service or filling is skipped (R409, R457). -/
def Block.dumpFits (b : Block) (n : Nat) : Bool :=
  match (b.dumpLeft n).length with
  | 0 => true
  | k => !b.scrubs n || ((b.chan n).pwr == .awake && b.bgFits n .dump b.tl.strobe (b.chan n).dumpMark (k + 37 * ((k + 31) / 32)))

/-- The rest of a local snapshot at a channel: written and counted, or skipped. -/
def Block.dumpRest (b : Block) (n : Nat) : Block :=
  match b.dumpLeft n with
  | [] => b
  | gs =>
    if b.scrubs n then
      ((b.each gs Block.dumpGranule).countBulk n true gs.length).noteBg n .dump (gs.length + 37 * ((gs.length + 31) / 32))
    else b

/-- SNAPSHOT_DONE: the engine has written the image, or the last of its flits has left (R431, R432). -/
def Block.snapshotDone (b : Block) : Block :=
  let waits := if b.tl.imageRemote then b.qy.ins.any fun i => i.level == 8 else !(List.range 64).all b.dumpFits
  if ¬ b.tl.busy ∨ ¬ b.dumpRuns ∨ waits then b
  else
    let b := b.each (List.range 64) Block.dumpRest
    { b with tl.busy := false, tl.left := [], tl.seqLast := BitVec.ofNat 32 (leAt b.tl.image 4 4) }

/-- The meaning of SNAPSHOT_DONE. -/
def execSnapshotDone (s : State) : Host.Outcome State Fault Refusal := s.upd Block.snapshotDone

/-! ### Bandwidth windows (R428) -/

/-- The domain whose state a port follows. -/
def portDom (p : Nat) : Nat :=
  if p < 64 then quadDom (p % 32) else if p < 128 then bgDom (p - 64) else qyDom

/-- A window ends: every port latches its bytes, peaks follow, and a new window length begins to count. -/
def Block.windowEnd (b : Block) : Block :=
  let bytes (p : Nat) : Nat :=
    if b.domOn (portDom p) ∧ ¬ b.tl.winOff.contains (portDom p) then tget (fun _ => 0) b.tl.bytes p else 0
  let us := max 1 b.tl.winUs.toNat
  let last := ((List.range 130).map fun p => (p, bytes p)).filter fun e => e.2 != 0
  let peak := ((List.range 130).map fun p => (p, max (tget (fun _ => 0) b.tl.peak p) (bytes p / us))).filter fun e => e.2 != 0
  { b with
    tl.winAt := b.ck.tide, tl.last := last, tl.peak := peak, tl.bytes := [], tl.winUs := BitVec.ofNat 20 (b.regField Off.tlBwWindow 0 20)
    tl.winOff := (List.range 48).filter fun d => !b.domOn d }

/-- The meaning of BW_WINDOW_END: the tide counter passes a multiple of the window's length (R428). -/
def execBwWindowEnd (s : State) : Host.Outcome State Fault Refusal :=
  s.upd fun b =>
    if b.live ∧ b.coreRuns ∧ b.domOn tlDom ∧ b.crossed (max 1 b.tl.winUs.toNat * usTicks) b.tl.winAt then b.windowEnd else b

/-! ### What `TL_CTRL` starts (R429, R432, R440) -/

/-- SNAP: one extra strobe, or SNAP_REJ with the mode off. -/
def Block.snap (b : Block) : Block :=
  if b.tl.mode = 0 then b.orReg Off.tlAlarm 8 else if b.dumpRuns then b.strobe else b

/-- CNT_CLR: every tally counter, OVF bit and port count. -/
def Block.clearTallies (b : Block) : Block :=
  let b := { b with tl.blocks := [], tl.bytes := [] }
  b.each (List.range 69) fun b n => b.clrReg (tlOff Off.tlOvf n) 0xFF

end Sys2Proof.Machine
end

