-- ==== Sys2Proof/Machine/LogRead.lean ====
section
/-! DEFINITION. Reading the logbook: records as bytes, LOG_READ, TRIP_ACK (R399, R435, R438, R439). -/

namespace Sys2Proof.Machine

open Sys2Proof

/-! ### Records as 32 bytes -/

/-- An event record (R435). -/
def Event.bytes (e : Event) : List Byte :=
  leBytes e.tide.toNat 8 ++ leBytes e.code.toNat 2 ++ leBytes e.unit.toNat 2
    ++ padTo 16 (e.detail.flatMap fun v => leBytes v.toNat 2) ++ leBytes e.repeats.toNat 2
    ++ [BitVec.ofNat 8 e.st.code, 0x5A]

/-- A signed value in 1/16 °C as two bytes. -/
def le16s (v : Int) : List Byte := leBytes (v % 65536).toNat 2

/-- A trip record (R438) at record number `ix` of its area; a second half that was never written is free (log 16). -/
def Trip.bytes (t : Trip) (ix : Nat) : List Byte :=
  let steps := (List.range 17).foldl (fun n l => n + (t.steps.getD l 0).val * 8 ^ l) 0
  let head := leBytes t.tide.toNat 8 ++ [BitVec.ofNat 8 (b2n t.analogue + 2 * b2n t.incomplete), t.sensor, BitVec.ofNat 8 t.layer
    , if t.acked then 0xC3 else 0, 0, 0, 0, 0xA5]
  let tail :=
    if t.full then le16s t.reading ++ le16s t.model ++ le16s t.used ++ leBytes (min (t.power / 10) 65535) 2 ++ leBytes steps 7 ++ [0x5A]
    else (List.range 16).map fun i => Config.unwrittenLog (32 * ix + 16 + i)
  head ++ tail

/-- The state of a chart slot: empty, valid, cut or bad, retired (R434, R439). -/
def Block.chartState (b : Block) (s : Nat) : Nat :=
  if 10000 ≤ tget (fun _ => 0) b.lg.wear s then 3
  else match tget (fun _ => none) b.lg.charts s with
    | none => 0
    | some c => if c.commit ∧ c.crcOk then 1 else 2

/-- A chart directory record (R439). -/
def Block.chartEntry (b : Block) (s : Nat) : List Byte :=
  let c := tget (fun _ => none) b.lg.charts s
  let age := match c with | some c => c.age.toNat | none => 0
  let gen := match c with | some c => c.generation.toNat | none => 0
  [BitVec.ofNat 8 s, BitVec.ofNat 8 (b.chartState s), BitVec.ofNat 8 age, BitVec.ofNat 8 (b2n (b.lg.gov == some s))]
    ++ leBytes gen 4 ++ leBytes (tget (fun _ => 0) b.lg.wear s) 2 ++ leBytes 0 22

/-- The logbook's state is rebuilt: step 3 of the arrival is past (R364, R441). -/
def Block.logKnown (b : Block) : Bool :=
  b.pw.st != .arrival || !(b.pw.arr == .boot || b.pw.arr == .pll || b.pw.arr == .chart)

/-! ### Records by index (R439) -/

/-- The index of the next record of an area: events, trips, or the end of the chart directory. -/
def Block.areaNext (b : Block) (area : Nat) : Nat :=
  match area with
  | 0 => b.lg.evtNext.toNat
  | 1 => b.lg.tripNext.toNat
  | _ => 14

/-- The oldest index held. -/
def Block.areaOldest (b : Block) (area : Nat) : Nat :=
  match area with
  | 0 => b.lg.evtNext.toNat - b.lg.events.length
  | 1 => b.lg.tripNext.toNat - b.lg.trips.length
  | _ => 0

/-- The record with an index that is held; nothing otherwise. -/
def Block.logRecord (b : Block) (area i : Nat) : Option (List Byte) :=
  if i < b.areaOldest area ∨ b.areaNext area ≤ i then none
  else match area with
    | 0 => (tget (fun _ => none) b.lg.events (i % 512)).map Event.bytes
    | 1 => (tget (fun _ => none) b.lg.trips (i % 512)).map fun (t : Trip) => t.bytes (i % 512)
    | 2 => some (b.chartEntry i)
    | _ => none

/-- LOG_READ's result: the next index, the number of records, the records. -/
def Block.logResult (b : Block) (area count first : Nat) : List Byte :=
  let next := b.areaNext area
  let start := max first (b.areaOldest area)
  let n := if next ≤ first then 0 else min count (next - start)
  let after := if next ≤ first then next else start + n
  leBytes after 4 ++ leBytes n 2 ++ leBytes 0 2
    ++ (List.range n).flatMap fun k => (b.logRecord area (start + k)).getD (leBytes 0 32)

/-- LOG_READ. -/
def Block.logRead (b : Block) (m : ManRef) (area count first : Nat) : Block :=
  if 2 < area ∨ count < 1 ∨ 28 < count ∨ (area = 2 ∧ 14 ≤ first) then b.finish m Mop.logRead St.badParam
  else b.finish m Mop.logRead St.ok (b.logResult area count first)

/-- The meaning of LOG_READ. -/
def execLogRead (m : ManRef) (area : BitVec 8) (count : BitVec 16) (first : BitVec 32) (s : State) :
    Host.Outcome State Fault Refusal :=
  s.man m Mop.logRead (·.logRead m area.toNat count.toNat first.toNat)

/-! ### TRIP_ACK (R399) -/

/-- How long ago, in records, the trip at a place of its area was written: 0 for the newest. -/
def Block.tripAge (b : Block) (ix : Nat) : Nat := (b.lg.tripNext.toNat + 511 - ix) % 512

/-- The newest unacknowledged trip record, with its place. -/
def Block.newestTrip (b : Block) : Option (Nat × Trip) :=
  b.lg.trips.foldl (fun (m : Option (Nat × Trip)) (e : Nat × Option Trip) =>
    match e.2, m with
    | some t, some x => if !t.acked && decide (b.tripAge e.1 < b.tripAge x.1) then some (e.1, t) else m
    | some t, none => if t.acked then none else some (e.1, t)
    | none, _ => m) none

/-- The record at a place, and every older one, acknowledged. -/
def Block.ackTrips (b : Block) (ix : Nat) : Block :=
  { b with lg.trips := b.lg.trips.map fun (e : Nat × Option Trip) =>
      if b.tripAge ix ≤ b.tripAge e.1 then (e.1, e.2.map fun (t : Trip) => { t with acked := true }) else e }

/-- TRIP_ACK: the hold in HARBOUR clears, and the pier goes on under R365. -/
def Block.tripAck (b : Block) (m : ManRef) (tide : Tide) : Block :=
  match b.newestTrip with
  | none => b.finish m Mop.tripAck St.refused
  | some (ix, t) =>
    if t.tide ≠ tide then b.finish m Mop.tripAck St.badParam
    else
      let b := ({ b.ackTrips ix with pw.tripHold := false }).event .tripAcked
      (b.finish m Mop.tripAck St.ok).checkOpen

/-- The meaning of TRIP_ACK. -/
def execTripAck (m : ManRef) (tide : BitVec 64) (s : State) : Host.Outcome State Fault Refusal :=
  s.man m Mop.tripAck (·.tripAck m tide)

end Sys2Proof.Machine
end

