-- ==== Sys2Proof/Machine/Firmware.lean ====
section
/-! DEFINITION. FW_UPDATE and the flash (R330 to R332), and the bound of work that waits outside the pier (R325). -/

namespace Sys2Proof.Machine

open Sys2Proof

/-- The slot that an update writes: the one that did not boot; under boot code the one that is not active (R332). -/
def Block.updateSlot (b : Block) : Bool :=
  match b.mf.bootSlot with
  | some x => !x
  | none => !b.activeSlot

/-- The session as last used now. -/
def Block.touchSession (b : Block) (x : FwSession) : Block := { b with mf.session := some { x with at_ := b.ck.tide } }

/-- A phase after BEGIN: REFUSED without a session, BUSY_RETRY for another source or while the flash works. -/
def Block.inSession (b : Block) (m : ManRef) (f : Block → FwSession → Block) : Block :=
  let op := Mop.fwUpdate
  match b.mf.session with
  | none => b.finish m op St.refused
  | some x =>
    if x.ring ≠ m.ring ∨ b.mf.job.isSome then b.finish m op St.busyRetry
    else f (b.touchSession x) x

/-- FW_UPDATE BEGIN. -/
def Block.fwBegin (b : Block) (m : ManRef) (total : Nat) : Block :=
  if total < 257 ∨ 3145728 < total then b.finish m Mop.fwUpdate St.badParam
  else if b.mf.session.isSome ∨ b.mf.job.isSome then b.finish m Mop.fwUpdate St.busyRetry
  else ({ b with mf.job := some (.erase m b.updateSlot total) }).draw

/-- The meaning of FW_UPDATE BEGIN: the erase starts; the session opens when it is done. -/
def execFwUpdateBegin (m : ManRef) (total : BitVec 32) (s : State) : Host.Outcome State Fault Refusal :=
  s.man m Mop.fwUpdate (·.fwBegin m total.toNat)

/-- The meaning of FW_UPDATE DATA. -/
def execFwUpdateData (m : ManRef) (offset : BitVec 32) (bytes : List Byte) (s : State) : Host.Outcome State Fault Refusal :=
  s.man m Mop.fwUpdate fun b => b.inSession m fun b x =>
    if offset.toNat ≠ x.got ∨ bytes.isEmpty ∨ 4084 < bytes.length ∨ x.total < x.got + bytes.length then
      b.finish m Mop.fwUpdate St.badParam
    else { b with mf.job := some (.program m offset.toNat bytes) }

/-- The image that an update has programmed. -/
def Block.updated (b : Block) (root : BitVec 384) (x : FwSession) : Image := imageAt root (b.mf.flashByte x.slotB [])

/-- The meaning of FW_UPDATE COMMIT: the slot must hold all its bytes, and an image that is valid under the root hash of the
read-only memory (R331, R332; log 67). -/
def execFwUpdateCommit (m : ManRef) (root : BitVec 384) (s : State) : Host.Outcome State Fault Refusal :=
  s.man m Mop.fwUpdate fun b => b.inSession m fun b x =>
    let img := b.updated root x
    if x.got ≠ x.total ∨ ¬ b.imageValid img then ({ b with mf.session := none }).finish m Mop.fwUpdate St.authFail
    else { b with mf.job := some (.directory m x.slotB img.version img.security) }

/-- The meaning of FW_UPDATE ABORT. -/
def execFwUpdateAbort (m : ManRef) (s : State) : Host.Outcome State Fault Refusal :=
  s.man m Mop.fwUpdate fun b => b.inSession m fun b _ => ({ b with mf.session := none }).finish m Mop.fwUpdate St.ok

/-- The older directory copy rewritten with a slot and the next generation (R330, R332). -/
def Manifests.writeDir (x : Manifests) (slotB : Bool) : Manifests :=
  match x.dir0, x.dir1 with
  | some p, some q =>
    if q.generation < p.generation then { x with wrote1 := true, dir1 := some ⟨slotB, p.generation + 1⟩ }
    else { x with wrote0 := true, dir0 := some ⟨slotB, q.generation + 1⟩ }
  | some p, none => { x with wrote1 := true, dir1 := some ⟨slotB, p.generation + 1⟩ }
  | none, some q => { x with wrote0 := true, dir0 := some ⟨slotB, q.generation + 1⟩ }
  | none, none => { x with wrote0 := true, dir0 := some ⟨slotB, 1⟩ }

/-- The flash has done what a phase asked of it, and that phase's manifest completes. -/
def Block.flashDone (b : Block) : Block :=
  let op := Mop.fwUpdate
  match b.mf.job with
  | none => b
  | some (.erase m slotB total) =>
    let x := b.mf.setImage slotB []
    ({ b with mf := { x with job := none, session := some { ring := m.ring, slotB := slotB, total := total, at_ := b.ck.tide } } }).finish m op St.ok
  | some (.program m offset bytes) =>
    match b.mf.session with
    | none => ({ b with mf.job := none }).finish m op St.refused
    | some f =>
      let x := b.mf.setImage f.slotB (program (b.mf.image f.slotB) offset bytes)
      ({ b with mf := { x with job := none, session := some { f with got := f.got + bytes.length } } }).finish m op St.ok
  | some (.directory m slotB version security) =>
    let x := b.mf.writeDir slotB
    ({ b with mf := { x with job := none, session := none } }).finish m op St.ok
      (leBytes version.toNat 4 ++ [security, BitVec.ofNat 8 (b2n slotB)])

/-- The meaning of FLASH_OPERATION_DONE. -/
def execFlashOperationDone (s : State) : Host.Outcome State Fault Refusal :=
  s.upd fun b => if b.hmRuns ∧ b.spiRuns then b.flashDone else b

/-- A session has had no manifest for 60 s (R332). -/
def Block.sessionOld (b : Block) : Bool :=
  match b.mf.session with
  | some x => decide (60 * sTicks ≤ b.since x.at_)
  | none => false

/-- The meaning of FW_SESSION_TIMEOUT: a session without a manifest for 60 s is aborted. -/
def execFwSessionTimeout (s : State) : Host.Outcome State Fault Refusal :=
  s.upd fun b => if b.hmRuns ∧ b.mf.job.isNone ∧ b.sessionOld then { b with mf.session := none } else b

/-! ### MANIFEST_TIMEOUT (R325) -/

/-- The manifest that a flash job completes. -/
def FlashJob.man : FlashJob → ManRef
  | .erase m _ _ => m
  | .program m _ _ => m
  | .directory m _ _ _ => m

/-- Opcodes whose work waits on a partner or the flash. -/
def waitsOutside (op : Nat) : Bool := [Mop.laneRetrain, Mop.lanePrbs, Mop.sscSet, Mop.calRun, Mop.fwUpdate].contains op

/-- A CAL_RUN of lanes still waits for a partner's grant: a window that one of its lanes needs is wanted or asked for (R423). -/
def Block.awaitsGrant (b : Block) (r : CalRun) : Bool :=
  r.cls == 0 && (List.range 32).any fun l =>
    r.todo.getLsbD l && (b.lane l).calPending && ((b.side (laneSide l)).winWant || (b.side (laneSide l)).winAsked)

/-- The opcode of a manifest that still waits on a partner or the flash, if it does. -/
def Block.waitsFor (b : Block) (m : ManRef) : Option Nat :=
  let side (sd : Side) : Option Nat := match (b.side sd).waiter with
    | some (w, op) => if w = m then some op else none
    | none => none
  let lane : Option Nat := if (List.range 32).any fun l => (b.lane l).prbsOwner == some m then some Mop.lanePrbs else none
  let cal : Option Nat := if b.sv.cal.any fun r => r.m == m && b.awaitsGrant r then some Mop.calRun else none
  let fw : Option Nat := match b.mf.job with
    | some j => if j.man = m then some Mop.fwUpdate else none
    | none => none
  let run : Option Nat := match b.mf.running.find? fun r => r.m == m with
    | some r => if waitsOutside r.opcode.toNat && (r.opcode.toNat != Mop.calRun || b.sv.cal.all fun c => c.m != m) then some r.opcode.toNat else none
    | none => none
  (side .west).orElse fun _ => (side .east).orElse fun _ => lane.orElse fun _ => cal.orElse fun _ => fw.orElse fun _ => run

/-- A lane no longer runs PRBS for a manifest; one that has passed rejoins (R138). -/
def Block.endLanePrbs (b : Block) (m : ManRef) (l : Nat) : Block :=
  let x := b.lane l
  if x.prbsOwner ≠ some m then b
  else
    let b := b.modLane l fun x => { x with prbsOwner := none, prbsRun := none, msg := if x.prbsRun.isSome then .idle else x.msg }
    if x.st = .train ∧ x.passed then b.outcome l else b

/-- Lanes that a CAL_RUN alone has asked a calibration of, and that it leaves, are due no longer (R423). -/
def Block.undueLanes (b : Block) (r : CalRun) : Block :=
  if r.cls ≠ 0 then b
  else b.each ((List.range 32).filter fun l => r.todo.getLsbD l) fun b l => b.modLane l fun x => { x with calPending := false }

/-- Nothing waits for the manifest any more. -/
def Block.forgetMan (b : Block) (m : ManRef) : Block :=
  let drop (b : Block) (sd : Side) : Block := match (b.side sd).waiter with
    | some (w, _) => if w = m then b.modSide sd fun x => { x with waiter := none } else b
    | none => b
  let b := (drop (drop b .west) .east).each (List.range 32) fun b l => b.endLanePrbs m l
  let b := match b.sv.cal.find? fun r => r.m == m with
    | some r => b.undueLanes r
    | none => b
  { b with sv.cal := b.sv.cal.filter fun r => r.m != m
           mf.job := match b.mf.job with
             | some j => if j.man = m then none else some j
             | none => none }

/-- The bound in ticks of a manifest whose work waits on a partner or the flash, and of CAL_RUN, by its opcode and
parameters (R324, R332). -/
def boundTicks (op : Nat) (ps : List Byte) : Nat :=
  if op = Mop.calRun then 10 * msTicks
  else if op = Mop.lanePrbs then (leAt ps 4 2 + 250) * msTicks
  else if op = Mop.fwUpdate then
    match leAt ps 0 1 with
    | 0 => 30 * sTicks
    | 1 => 20 * msTicks
    | 2 => 2 * sTicks
    | _ => 10 * msTicks
  else 250 * msTicks

/-- The bound of a manifest has arrived, counted from its acceptance (R324). -/
def Block.atBound (b : Block) (m : ManRef) (op : Nat) : Bool :=
  let ps := ((b.mf.running.find? fun r => r.m == m).map (·.params)).getD []
  decide (boundTicks op ps ≤ b.since (b.slot (slotKey m.ring m.seq)).tDecide)

/-- A CAL_RUN at its bound that waits for no partner: the units not calibrated yet count as failed (R423). -/
def Block.calRunEnds (b : Block) (r : CalRun) : Block :=
  ({ b.undueLanes r with sv.cal := b.sv.cal.filter fun x => x.m != r.m }).finish r.m Mop.calRun St.ok
    (leBytes r.passed.toNat 8 ++ leBytes (r.failed ||| r.todo).toNat 8)

/-- The meaning of MANIFEST_TIMEOUT: at its bound, work that waits on a partner or the flash ends with TIMEOUT and leaves
what it has done so far; a calibration that waits for no grant ends with the rest of its units failed (R325, R423). -/
def execManifestTimeout (m : ManRef) (s : State) : Host.Outcome State Fault Refusal :=
  s.upd fun b =>
    if ¬ b.hmRuns then b
    else match b.waitsFor m with
      | some op => if b.atBound m op then (b.forgetMan m).finish m op St.timeout else b
      | none =>
        match b.sv.cal.find? fun r => r.m == m with
        | some r => if b.atBound m Mop.calRun then b.calRunEnds r else b
        | none => b

end Sys2Proof.Machine
end

