-- ==== Sys2Proof/Machine/Setup.lean ====
section
/-! DEFINITION. The identity and setup manifests (R326) and FILL_STATUS (R327). -/

namespace Sys2Proof.Machine

open Sys2Proof

/-- A mask of `n` units that a test picks. -/
def unitMask (n : Nat) (p : Nat → Bool) : Nat := ((List.range n).map fun i => if p i then 2 ^ i else 0).sum

/-! ### PIER_INFO -/

/-- The boot slot as PIER_INFO codes it: 0 A, 1 B, 0xFF boot code. -/
def Block.bootCode (b : Block) : Byte :=
  match b.mf.bootSlot with
  | some slotB => BitVec.ofNat 8 (b2n slotB)
  | none => 0xFF

/-- PIER_INFO's 64 bytes. -/
def Block.pierInfoBytes (b : Block) : List Byte :=
  [0x28, 0x16, 0xA1, BitVec.ofNat 8 b.pw.st.code] ++ leBytes b.mf.fwVersion.toNat 4 ++ leBytes b.selfId.toNat 2
    ++ [b.pins.strap.zeroExtend 8, b.pins.bts.zeroExtend 8] ++ leBytes b.mf.arrival.toNat 4
    ++ leBytes (unitMask 64 b.inSvc) 8 ++ leBytes (unitMask 32 fun l => (b.lane l).inRun) 4
    ++ [b.mf.secVersion, BitVec.ofNat 8 b.mkeys, b.bootCode, BitVec.ofNat 8 (b2n (b.tripUnacked && b.logKnown) + 2 * b2n b.mf.noImage)]
    ++ leBytes Config.dieNumber.toNat 16 ++ leBytes 0 16

/-- The meaning of PIER_INFO. -/
def execPierInfo (m : ManRef) (s : State) : Host.Outcome State Fault Refusal :=
  s.man m Mop.pierInfo fun b => b.finish m Mop.pierInfo St.ok b.pierInfoBytes

/-! ### SET_PIER_ID -/

/-- The meaning of SET_PIER_ID: once per arrival (R17). -/
def execSetPierId (m : ManRef) (id : BitVec 16) (s : State) : Host.Outcome State Fault Refusal :=
  s.man m Mop.setPierId fun b =>
    if 0x7FFE < id.toNat then b.finish m Mop.setPierId St.badParam
    else if b.qy.idValid then b.finish m Mop.setPierId St.refused
    else ({ b with qy.pierId := id.truncate 15, qy.idValid := true }).finish m Mop.setPierId St.ok

/-! ### ROUTE_SET and REGION_SET -/

/-- The tables are locked (R449). -/
def Block.tablesLocked (b : Block) : Bool := b.regBit Off.qyCtrl 1

/-- Entries written from index `n` on, in ascending order. -/
def Block.writeRoutes (b : Block) (n : Nat) : List Word → Block
  | [] => b
  | w :: ws => (b.setReg (Off.qyRoute + 4 * n) w).writeRoutes (n + 1) ws

/-- The meaning of ROUTE_SET. -/
def execRouteSet (m : ManRef) (first : Fin 256) (entries : List Word) (s : State) : Host.Outcome State Fault Refusal :=
  s.man m Mop.routeSet fun b =>
    if entries.isEmpty ∨ 256 < first.val + entries.length then b.finish m Mop.routeSet St.badParam
    else if b.tablesLocked then b.finish m Mop.routeSet St.refused
    else (b.writeRoutes first entries).finish m Mop.routeSet St.ok

/-- A region image is legal: its base not above its limit, no reserved bit set, its key slot at most 64. -/
def RegionImage.legal (r : RegionImage) : Bool :=
  decide ((r.baseHi.toNat * 2 ^ 32 + r.baseLo.toNat) ≤ (r.limHi.toNat * 2 ^ 32 + r.limLo.toNat))
    && r.baseLo &&& 0xFFF == 0 && r.limLo &&& 0xFFF == 0 && r.baseHi >>> 5 == 0 && r.limHi >>> 5 == 0
    && r.src &&& 0x80008000 == 0 && r.perm >>> 11 == 0 && decide (r.perm.toNat / 16 % 128 ≤ 64)

/-- One region entry written whole. -/
def Block.writeRegion (b : Block) (n : Nat) (r : RegionImage) : Block :=
  let at_ (b : Block) (off : Nat) (v : Word) : Block := b.setReg (off + 0x20 * n) v
  at_ (at_ (at_ (at_ (at_ (at_ b Off.qyRgnBaseLo r.baseLo) Off.qyRgnBaseHi r.baseHi) Off.qyRgnLimLo r.limLo)
    Off.qyRgnLimHi r.limHi) Off.qyRgnSrc r.src) Off.qyRgnPerm r.perm

/-- Region entries written from index `n` on. -/
def Block.writeRegions (b : Block) (n : Nat) : List RegionImage → Block
  | [] => b
  | r :: rs => (b.writeRegion n r).writeRegions (n + 1) rs

/-- The meaning of REGION_SET. -/
def execRegionSet (m : ManRef) (first : Fin 64) (entries : List RegionImage) (s : State) : Host.Outcome State Fault Refusal :=
  s.man m Mop.regionSet fun b =>
    if entries.isEmpty ∨ 64 < first.val + entries.length ∨ ¬ entries.all RegionImage.legal then
      b.finish m Mop.regionSet St.badParam
    else if b.tablesLocked then b.finish m Mop.regionSet St.refused
    else (b.writeRegions first entries).finish m Mop.regionSet St.ok

/-! ### FILL_STATUS -/

/-- FILL_STATUS's result; the estimate is free while a fill runs (log 19), and 0 once none does. -/
def Block.fillStatusBytes (b : Block) : List Byte :=
  let st (p : BerthState → Bool) : Nat := unitMask 64 fun n => p (b.berth n).st
  let est := if (st fun x => x == .filling) = 0 then 0 else (Config.fillEstimate b.fresh).toNat
  leBytes (unitMask 64 fun n => (b.berth n).fillDone) 8 ++ leBytes (st fun x => x == .filling) 8
    ++ leBytes (st fun x => x == .absent || x == .fenced) 8
    ++ leBytes ((List.range 64).map fun n => (b.berth n).fillGran).sum 8 ++ leBytes est 4

/-- The meaning of FILL_STATUS. -/
def execFillStatus (m : ManRef) (s : State) : Host.Outcome State Fault Refusal :=
  s.man m Mop.fillStatus fun b => (b.finish m Mop.fillStatus St.ok b.fillStatusBytes).draw

end Sys2Proof.Machine
end

