-- ==== Sys2Proof/Machine/Decide.lean ====
section
/-! DEFINITION. The decision of a manifest (R308 to R319): header, authentication, sequence, ring, opcode, state,
parameters, conflicts; and the transports that bring it: fragments in band (R310, R311) and the mailboxes (R312). -/

namespace Sys2Proof.Machine

open Sys2Proof

/-! ### The header (R308) -/

/-- A manifest's header fields, and its parameter bytes. -/
structure Header where
  version : Nat
  flags : Nat
  opcode : Nat
  seq : BitVec 32
  source : Nat
  keyId : Nat
  position : Nat
  paramLen : Nat
  arrival : BitVec 32
  tag : BitVec 128
  reservedZero : Bool
  raw : List Byte
  params : List Byte
  deriving DecidableEq, Repr

/-- The header as bytes give it. -/
def headerFrom (bs : List Byte) : Header :=
  { version := leAt bs 0 1, flags := leAt bs 1 1, opcode := leAt bs 2 2, seq := BitVec.ofNat 32 (leAt bs 4 4), source := leAt bs 8 2
    keyId := leAt bs 10 1, position := leAt bs 11 1, paramLen := leAt bs 12 2, arrival := BitVec.ofNat 32 (leAt bs 16 4)
    tag := BitVec.ofNat 128 (leAt bs 48 16), reservedZero := leAt bs 14 2 == 0 && leAt bs 20 28 == 0
    raw := bs.take 48, params := bs.drop 64 }

/-- AUTH, QUIET and DISCOVERY. -/
def Header.auth (h : Header) : Bool := h.flags % 2 == 1
def Header.quiet (h : Header) : Bool := h.flags / 2 % 2 == 1
def Header.discovery (h : Header) : Bool := h.flags / 4 % 2 == 1

/-- The privilege an opcode needs: 0 OBS, 1 OPR, 2 OWN; none where the table has no such opcode (R324). -/
def opPriv (op : Nat) : Option Nat :=
  if [0x0001, 0x0012, 0x0021, 0x0032, 0x0040, 0x0060, 0x0080].contains op then some 0
  else if [0x0010, 0x0011, 0x0020, 0x0031, 0x0041, 0x0042, 0x0051, 0x0070, 0x0071].contains op then some 1
  else if [0x0002, 0x0003, 0x0004, 0x0005, 0x0030, 0x0050, 0x0052, 0x0061, 0x0081, 0x0090, 0x0091, 0x00A0, 0x00A1, 0x00A2].contains op
  then some 2
  else none

/-- The parameter bytes have the length that the opcode's layout gives (R308); a KEY_LOAD or FW_UPDATE whose kind or phase
is not one of its layout is left to the check of its parameters. -/
def lengthOk (op : Nat) (ps : List Byte) : Bool :=
  let n := ps.length
  match op with
  | 0x0001 | 0x0021 | 0x0060 | 0x0091 => n == 0
  | 0x0040 | 0x0090 | 0x00A0 | 0x00A1 => n == 1
  | 0x0011 | 0x0012 | 0x0032 | 0x0050 | 0x0052 => n == 2
  | 0x0061 => n == 3
  | 0x0002 | 0x0041 | 0x0051 => n == 4
  | 0x0042 => n == 6
  | 0x0070 | 0x0080 | 0x0081 => n == 8
  | 0x0030 | 0x0031 => n == 12
  | 0x0020 => n == 20
  | 0x0010 | 0x0071 => n == 32
  | 0x0003 => decide (4 ≤ n) && n == 4 + 4 * leAt ps 2 2
  | 0x0004 => decide (4 ≤ n) && n == 4 + 24 * leAt ps 1 1
  | 0x0005 =>
    decide (16 ≤ n) && (decide (2 < leAt ps 0 1) || n == 16 +
      (if leAt ps 2 1 = 1 then 0 else keyBytes (leAt ps 0 1) + (if leAt ps 3 1 = 1 then 8 else 0)))
  | 0x00A2 =>
    decide (12 ≤ n) && (match leAt ps 0 1 with
      | 0 | 2 | 3 => n == 12
      | 1 => decide (13 ≤ n ∧ n ≤ 12 + 4084)
      | _ => true)
  | _ => true

/-- The first row of R316. -/
def Header.wellFormed (h : Header) (o : Origin) : Bool :=
  let sideband := o.side.isNone
  decide (h.version = 1 ∧ h.flags < 8 ∧ h.paramLen ≤ 4096 ∧ h.paramLen = h.params.length) && h.reservedZero
    && lengthOk h.opcode h.params && decide (h.keyId < 16) && (h.auth || (decide (h.keyId = 0) && h.tag == 0))
    && decide (h.position < 8) && (h.discovery || decide (h.position = 0))
    && (if sideband then decide (h.source = 0x7FFF) && !h.discovery else decide (h.source = o.src.toNat))

/-! ### Authentication (R309, R314) -/

/-- How a manifest authenticates. -/
inductive AuthOut where
  | level (n : Nat)
  | fail
  | denied
  deriving DecidableEq, Repr

/-- The tag is valid under a manifest key. -/
def Header.tagOk (h : Header) (k : MKey) : Bool :=
  cmac (leBytes k.key.toNat 32) (h.raw ++ h.params) == leBytes h.tag.toNat 16

/-- The table of R314, then ARRIVAL, then the key's source range. -/
def Block.authenticate (b : Block) (o : Origin) (h : Header) : AuthOut :=
  let sideband := o.side.isNone
  let here := decide (h.arrival = b.mf.arrival) || (decide (h.arrival = 0) && h.opcode == Mop.pierInfo)
  let key := b.mkey h.keyId
  let good : Bool := match key with
    | some k => h.auth && h.tagOk k
    | none => false
  if ¬ here then .fail
  else if b.mkeys = 0 then .level 2
  else if sideband && !b.regBit Off.mfCtrl 0 then (if h.auth && !good then .fail else .level 2)
  else if ¬ good then .fail
  else match key with
    | some k =>
      if !sideband && !decide (k.srcLo.toNat ≤ h.source ∧ h.source ≤ k.srcHi.toNat) then .denied else .level k.priv.toNat
    | none => .fail

/-! ### Sequence and ring (R317, R319) -/

/-- The ring that serves a manifest; none while no ring is bound to its source. -/
def Block.ringOf (b : Block) (o : Origin) : Option Nat :=
  match o.side with
  | none => some (if o.path = .jtag then 63 else 62)
  | some _ => (List.range 62).find? fun r => (b.ring r).bound && (b.ring r).src == o.src

/-- The outcome of R317. -/
inductive SeqOut where
  | new
  | duplicate
  | refuse (st : Nat)
  deriving DecidableEq, Repr

/-- The table of R317 for a ring that is bound. -/
def Block.sequence (b : Block) (r : Nat) (h : Header) : SeqOut :=
  let d := (h.seq - (b.ring r).last).toNat
  let s := b.slot (slotKey r h.seq)
  if d ≠ 0 ∧ d ≤ 1023 then (if s.st = .pending then .refuse St.busyRetry else .new)
  else if d = 0 ∨ 2 ^ 32 - 1023 ≤ d then
    if s.st ≠ .empty ∧ s.seq = h.seq ∧ s.opcode.toNat = h.opcode ∧ s.tag = h.tag then .duplicate else .refuse St.refused
  else if d ≤ 2 ^ 31 - 1 then .refuse St.badParam
  else .refuse St.expired

/-! ### Parameters (R316, R326 to R332) -/

/-- The descriptor that CHARTER_OPEN's bytes give (R194). -/
def descOf (ps : List Byte) : CharterDesc :=
  { cls := ps.getD 0 0, flags := ps.getD 1 0, run := ps.getD 2 0, window := ps.getD 3 0
    bw := BitVec.ofNat 16 (leAt ps 4 2), gpc := BitVec.ofNat 16 (leAt ps 6 2)
    flowLo := BitVec.ofNat 16 (leAt ps 8 2), flowHi := BitVec.ofNat 16 (leAt ps 10 2)
    srcLo := BitVec.ofNat 16 (leAt ps 12 2), srcHi := BitVec.ofNat 16 (leAt ps 14 2)
    berths := BitVec.ofNat 64 (leAt ps 16 8), rank := ps.getD 24 0, rsv := BitVec.ofNat 56 (leAt ps 25 7) }

/-- The parameters that DUMP_CONFIG's bytes give (R329). -/
def dumpOf (ps : List Byte) : DumpParams :=
  { mode := ps.getD 0 0, period := BitVec.ofNat 32 (leAt ps 4 4), ringAddr := BitVec.ofNat 64 (leAt ps 8 8)
    ringBytes := BitVec.ofNat 32 (leAt ps 16 4), mask := BitVec.ofNat 96 (leAt ps 20 12) }

/-- The region images of REGION_SET's bytes. -/
def imagesOf (ps : List Byte) : List RegionImage :=
  (List.range ((ps.length - 4) / 24)).map fun i =>
    let w (k : Nat) : Word := BitVec.ofNat 32 (leAt ps (4 + 24 * i + 4 * k) 4)
    { baseLo := w 0, baseHi := w 1, limLo := w 2, limHi := w 3, src := w 4, perm := w 5 }

/-- KEY_LOAD's bytes as R315 reads them. -/
def keyParamsOk (ps : List Byte) : Bool :=
  let op := leAt ps 2 1
  let k : KeyWork :=
    { kind := leAt ps 0 1, slot := leAt ps 1 1, erase := op == 1, wrapped := op == 0 && leAt ps 3 1 == 1, priv := leAt ps 4 1
      srcLo := leAt ps 8 2, srcHi := leAt ps 10 2, material := ps.drop 16, inBand := false }
  decide (op ≤ 1 ∧ (op = 1 ∨ leAt ps 3 1 ≤ 1)) && leAt ps 5 3 == 0 && leAt ps 12 4 == 0 && k.legal

/-- Every parameter has a legal value. -/
def paramsOk (op : Nat) (ps : List Byte) : Bool :=
  let at_ (i n : Nat) : Nat := leAt ps i n
  match op with
  | 0x0002 => decide (at_ 0 2 ≤ 0x7FFE ∧ at_ 2 2 = 0)
  | 0x0003 => decide (at_ 0 2 ≤ 255 ∧ 1 ≤ at_ 2 2 ∧ at_ 0 2 + at_ 2 2 ≤ 256)
  | 0x0004 => decide (at_ 0 1 ≤ 63 ∧ 1 ≤ at_ 1 1 ∧ at_ 0 1 + at_ 1 1 ≤ 64 ∧ at_ 2 2 = 0) && (imagesOf ps).all RegionImage.legal
  | 0x0005 => keyParamsOk ps
  | 0x0010 => CharterDesc'.legal (descOf ps)
  | 0x0011 | 0x0012 => decide (at_ 0 2 ≤ 4095)
  | 0x0020 => decide (at_ 0 8 % 64 = 0 ∧ at_ 8 8 % 64 = 0 ∧ at_ 8 8 ≠ 0 ∧ at_ 0 8 + at_ 8 8 ≤ 2 ^ 37 ∧ at_ 16 4 < 4)
  | 0x0030 => decide (at_ 0 1 ≤ 3 ∧ at_ 1 1 ≤ 1 ∧ at_ 2 2 = 0 ∧ at_ 4 8 < 2 ^ scopeSize (at_ 0 1))
  | 0x0031 => decide (at_ 0 1 ≤ 2 ∧ at_ 1 3 = 0 ∧ (at_ 0 1 ≠ 0 ∨ at_ 4 8 < 2 ^ 32))
  | 0x0032 => decide (at_ 0 1 ≤ 2 ∧ at_ 1 1 < (if at_ 0 1 = 0 then 32 else 64))
  | 0x0040 => decide (at_ 0 1 ≤ 1)
  | 0x0041 => decide (at_ 0 1 ≤ 1 ∧ at_ 1 1 ≤ 1)
  | 0x0042 => decide (at_ 0 1 ≤ 1 ∧ at_ 1 1 ≤ 15 ∧ at_ 2 1 ≤ 2 ∧ at_ 3 1 = 0 ∧ 1 ≤ at_ 4 2 ∧ at_ 4 2 ≤ 60000)
  | 0x0050 => [48, 15, 13, 14].contains (at_ 0 1) && decide (at_ 1 1 ≤ 2 ∧ (at_ 1 1 ≠ 2 ∨ at_ 0 1 = 48 ∨ at_ 0 1 = 15))
  | 0x0051 => decide (at_ 0 1 ≤ 1 ∧ at_ 1 1 ≤ 20 ∧ at_ 2 1 ≤ 6 ∧ at_ 3 1 ≤ 1)
  | 0x0052 => decide (at_ 0 1 ≤ 47 ∧ at_ 1 1 ≤ 1)
  | 0x0061 => decide (at_ 0 1 ≤ 55 ∧ at_ 1 1 ≤ 1 ∧ (at_ 1 1 = 1 ∨ (4 ≤ at_ 2 1 ∧ at_ 2 1 ≤ 7)))
  | 0x0070 => decide (at_ 0 1 ≤ 68 ∧ at_ 1 1 ≤ 7 ∧ at_ 4 4 = 0) && selectorOk (at_ 0 1) (at_ 2 2)
  | 0x0071 => decide (at_ 1 3 = 0) && DumpParams.legal (dumpOf ps)
  | 0x0080 => decide (at_ 0 1 ≤ 2 ∧ at_ 1 1 = 0 ∧ 1 ≤ at_ 2 2 ∧ at_ 2 2 ≤ 28 ∧ (at_ 0 1 ≠ 2 ∨ at_ 4 4 < 14))
  | 0x0090 => decide (at_ 0 1 ≤ 15)
  | 0x00A0 => decide (at_ 0 1 ≤ 1)
  | 0x00A1 => decide (at_ 0 1 ≤ 1)
  | 0x00A2 =>
    decide (at_ 1 3 = 0) && match at_ 0 1 with
      | 0 => decide (at_ 4 4 = 0 ∧ 257 ≤ at_ 8 4 ∧ at_ 8 4 ≤ 3145728)
      | 1 => at_ 8 4 == 0
      | 2 | 3 => at_ 4 8 == 0
      | _ => false
  | _ => true

/-! ### Conflicts (R318) -/

/-- A manifest with one of these opcodes runs. -/
def Block.runs (b : Block) (ops : List Nat) : Bool := b.mf.running.any fun r => ops.contains r.opcode.toNat

/-- The outcome of R318 for a new manifest, if it conflicts. -/
def Block.conflict (b : Block) (ring op : Nat) (ps : List Byte) : Option Nat :=
  let charter := [Mop.charterOpen, Mop.charterClose]
  let stack := [Mop.stackReset, Mop.stackDieReset]
  let fw : Bool := op == Mop.fwUpdate && match b.mf.session with
    | some x => leAt ps 0 1 == 0 || x.ring.val != ring
    | none => false
  if 32 ≤ b.mf.running.length then some St.busyRetry
  else if charter.contains op && (b.runs charter || b.passBusy) then some St.busyRetry
  else if op = Mop.scrubRange ∧ b.runs [Mop.scrubRange] then some St.busyRetry
  else if (Mop.scrubRange :: stack).contains op && b.runs stack then some St.busyRetry
  else if (laneSides op ps).any fun sd => b.laneBusy sd none then some St.busyRetry
  else if (op = Mop.surveyRun ∨ op = Mop.calRun) ∧ b.runs [Mop.surveyRun] then some St.busyRetry
  else if fw then some St.busyRetry
  else if b.runs [Mop.shutdown] && !([Mop.pierInfo, Mop.logRead, Mop.thermStatus].contains op) then some St.refused
  else none

/-! ### The decision (R316) -/

/-- 16 authentication failures within 1 ms (R436). -/
def Block.authBurst (b : Block) : Block :=
  let recent := (b.mf.authBurst.filter fun t => decide (b.since t < msTicks)) ++ [b.ck.tide]
  if recent.length < 16 then { b with mf.authBurst := recent }
  else ({ b with mf.authBurst := [] }).event .authFailBurst

/-- A failed authentication: counted, alarmed. -/
def Block.authFailed (b : Block) : Block := ((b.bumpW 32 Off.mfAuthFail 1).orReg Off.mfAlarm 1).authBurst

/-- A refusal without a slot: counted, and pushed (R322). -/
def Block.refuseMan (b : Block) (o : Origin) (st : Nat) : Block :=
  let b := if st = St.authFail then b.authFailed else b.bumpW 32 Off.mfRefused 1
  b.push o 2 (b.receiptFlits o st 0 64 [])

/-- The manifest's slot written at its decision, and L moved to its sequence. -/
def Block.writeSlot (b : Block) (r : Fin 64) (h : Header) (st : SlotState) (status : Nat) : Block :=
  let v : Slot :=
    { st := st, opcode := BitVec.ofNat 16 h.opcode, seq := h.seq, status := BitVec.ofNat 8 status, tDecide := b.ck.tide
      tDone := if st = .done then b.ck.tide else 0, tag := h.tag, touched := 0xFFFF }
  (b.setSlot (slotKey r h.seq) v).setRing r { b.ring r with last := h.seq }

/-- A refusal that writes its slot. -/
def Block.refuseSlot (b : Block) (o : Origin) (r : Fin 64) (h : Header) (st : Nat) : Block :=
  let b := (b.writeSlot r h .done st).bumpW 32 Off.mfRefused 1
  b.push o 2 (b.receiptFlits o st (slotOffset r h.seq) 64 (slotHeader (b.slot (slotKey r h.seq))))

/-- A manifest accepted: its slot is PENDING, and it runs. -/
def Block.acceptMan (b : Block) (o : Origin) (r : Fin 64) (h : Header) : Block :=
  let b := (b.writeSlot r h .pending St.pending).bumpW 32 Off.mfAccepted 1
  let x : Running := { m := ⟨r, h.seq⟩, opcode := BitVec.ofNat 16 h.opcode, origin := { o with quiet := h.quiet }, params := h.params }
  let b := { b with mf.running := b.mf.running ++ [x] }
  if h.quiet then b
  else b.push o 5 (b.receiptFlits o St.pending (slotOffset r h.seq) 64 (slotHeader (b.slot (slotKey r h.seq))))

/-- A duplicate: its slot is pushed again, with READ_AGAIN set if it is DONE (R317). -/
def Block.repeatMan (b : Block) (o : Origin) (r : Fin 64) (h : Header) : Block :=
  let k := slotKey r h.seq
  let s := b.slot k
  let s := if s.st = .done then (if s.readAgain then s else s.marked) else s
  let b := b.setSlot k s
  if h.quiet then b
  else b.push o 5 (b.receiptFlits o s.status.toNat (slotOffset r h.seq) (64 + s.result.length)
    ((slotBytes s).take (64 + s.result.length)))

/-- The transport is one that R19 allows in the state, and no clock that the opcode needs is gated (R349). -/
def Block.stateAllows (b : Block) (o : Origin) (op : Nat) (ps : List Byte) : Bool :=
  let transport := match o.side with
    | some _ => b.inService
    | none =>
      match b.pw.st with
      | .tripped => o.path == .i3c
      | .arrival => b.pw.arr != .boot || o.path == .i3c
      | _ => true
  b.accepts op && transport && !(op == Mop.powerDomain && b.domHeld (leAt ps 0 1))
    && (laneSides op ps).all fun sd => !(b.pll (sidePll sd)).down

/-- The rows of R316 after the sequence check: the slot is written whatever the outcome. -/
def Block.decideSlot (b : Block) (o : Origin) (r : Fin 64) (h : Header) (level frags : Nat) : Block × Nat :=
  let no (st : Nat) : Block × Nat := (b.refuseSlot o r h st, st)
  match opPriv h.opcode with
  | none => no St.badOpcode
  | some p =>
    if level < p then no St.accessDenied
    else if ¬ b.stateAllows o h.opcode h.params then no St.refused
    else if h.discovery ∧ (1 < frags ∨ ¬ (h.opcode = Mop.pierInfo ∨ h.opcode = Mop.setPierId)) then no St.refused
    else if ¬ paramsOk h.opcode h.params then no St.badParam
    else match b.conflict r h.opcode h.params with
      | some st => no st
      | none => (b.acceptMan o r h, St.pending)

/-- The ring that a source without one is bound to: which of the free ones is left open (log 11). -/
def Block.bindRing (b : Block) (o : Origin) : Option (Nat × Block) :=
  let free := (List.range 62).filter fun r => !(b.ring r).bound
  if free.isEmpty then none
  else
    let r := free.getD (Config.pick b.fresh % free.length) 0
    some (r, (b.setRing r { bound := true, src := o.src }).draw)

/-- A manifest decided: the state after it, and the decision. -/
def Block.decideMan (b : Block) (o : Origin) (frags : Nat) (bs : List Byte) : Block × Nat :=
  let h := headerFrom bs
  let no (st : Nat) : Block × Nat := (b.refuseMan o st, st)
  if bs.length < 64 ∨ ¬ h.wellFormed o then no St.badParam
  else match b.authenticate o h with
    | .fail => no St.authFail
    | .denied => no St.accessDenied
    | .level lv =>
      match b.ringOf o with
      | some r =>
        if (b.ring r).bound then
          match b.sequence r h with
          | .refuse st => no st
          | .duplicate => (b.repeatMan o (Fin.ofNat 64 r) h, (b.slot (slotKey r h.seq)).status.toNat)
          | .new => b.decideSlot o (Fin.ofNat 64 r) h lv frags
        else (b.setRing r { bound := true, src := o.src }).decideSlot o (Fin.ofNat 64 r) h lv frags
      | none =>
        match b.bindRing o with
        | some (r, b) => b.decideSlot o (Fin.ofNat 64 r) h lv frags
        | none => ((b.orReg Off.mfAlarm 4).refuseMan o St.refused, St.refused)

/-! ### Fragments (R310, R311) -/

/-- The fields of a fragment that R310 fixes. -/
def fragmentOk (f : Flit) : Bool :=
  let len := f.length.toNat
  let k := f.arg.toNat % 65536
  let n := f.arg.toNat / 65536
  let part := min 256 (len - 256 * k)
  let grans := (part + 63) / 64
  !f.csr && f.opcode == 0 && f.offset == 0 && f.poison == 0
    && decide (64 ≤ len ∧ len ≤ 4160 ∧ n = (len + 255) / 256 ∧ k < n)
    && f.gvalid == BitVec.ofNat 4 (2 ^ grans - 1)
    && (((payload f).take (64 * grans)).drop part).all fun v => v == 0

/-- A buffer discarded: counted, alarmed (R311, R334). -/
def Block.dropReasm (b : Block) (r : Reasm) : Block :=
  (({ b with mf.reasm := b.mf.reasm.filter fun x => !(x.side == r.side && x.src == r.src && x.tag == r.tag) }).bumpW 32
    Off.mfFragDrop 1).orReg Off.mfAlarm 2

/-- The bytes of a whole buffer. -/
def Reasm.bytes (r : Reasm) : List Byte :=
  ((List.range r.count).flatMap fun k => ((r.got.find? fun e => e.1 == k).map (·.2)).getD []).take r.length.toNat

/-- A buffer with one more fragment: decided once whole. -/
def Block.addFragment (b : Block) (r : Reasm) (f : Flit) : Block :=
  let k := f.arg.toNat % 65536
  let bs := (payload f).take (min 256 (r.length.toNat - 256 * k))
  let r := { r with got := (r.got.filter fun e => e.1 != k) ++ [(k, bs)] }
  let others := b.mf.reasm.filter fun x => !(x.side == r.side && x.src == r.src && x.tag == r.tag)
  if r.got.length < r.count then { b with mf.reasm := others ++ [r] }
  else
    let b := { b with mf.reasm := others }
    let o : Origin := { side := some r.side, path := .inBand, src := r.src, tag := r.tag, flow := r.flow }
    let disc := decide (leAt r.bytes 1 1 / 4 % 2 = 1)
    if disc = (r.dest == 0x7FFF) then (b.decideMan o r.count r.bytes).1 else b.refuseMan o St.badParam

/-- 10 µs have passed since a buffer's first fragment (R311). -/
def Reasm.late (r : Reasm) (t : Tide) : Bool := decide (10 * usTicks < (t - r.since).toNat)

/-- Buffers that a fragment's arrival finds incomplete after 10 µs are discarded (R311). -/
def Block.dropLate (b : Block) : Block := (b.mf.reasm.filter fun r => r.late b.qy.claimAt).foldl Block.dropReasm b

/-- MANIFEST_FRAGMENT: one that disagrees with its buffer in LENGTH or count, whatever else it holds, has the buffer
discarded (R311). -/
def Block.takeFragment (b : Block) (sd : Side) (f : Flit) : Block :=
  let b := (b.takeClaimed sd f).dropLate
  let o : Origin := { side := some sd, path := .inBand, src := f.src, tag := f.tag, flow := f.flow }
  match b.mf.reasm.find? fun x => x.side == sd && x.src == f.src && x.tag == f.tag with
  | some r =>
    if r.length ≠ f.length ∨ r.count ≠ f.arg.toNat / 65536 then
      let b := b.dropReasm r
      b.refuseMan { o with flow := r.flow } St.badParam
    else if ¬ fragmentOk f ∨ r.flow ≠ f.flow ∨ r.dest ≠ f.dest then b.refuseMan o St.badParam
    else b.addFragment r f
  | none =>
    if ¬ fragmentOk f then b.refuseMan o St.badParam
    else if 8 ≤ b.mf.reasm.countP fun x => x.side == sd then b.refuseMan o St.busyRetry
    else b.addFragment { side := sd, src := f.src, tag := f.tag, flow := f.flow, length := f.length
                         count := f.arg.toNat / 65536, dest := f.dest, got := [], since := b.qy.claimAt } f

/-- The meaning of MANIFEST_FRAGMENT: a claimed MANIFEST flit, while the quay and the harbourmaster run. -/
def execManifestFragment (sd : Side) (f : Flit) (s : State) : Host.Outcome State Fault Refusal :=
  s.upd fun b => if f.kind = 3 ∧ b.decides ∧ b.hmRuns then b.takeFragment sd f else b

/-- The meaning of REASSEMBLY_TIMEOUT: 10 µs after a buffer's first fragment. -/
def execReassemblyTimeout (sd : Side) (src : BitVec 15) (tag : BitVec 16) (s : State) : Host.Outcome State Fault Refusal :=
  s.upd fun b =>
    match b.mf.reasm.find? fun x => x.side == sd && x.src == src && x.tag == tag with
    | some r => if r.late b.ck.tide then b.dropReasm r else b
    | none => b

/-! ### Mailboxes (R312) -/

/-- A path's mailbox. -/
def Block.mbox (b : Block) : Path → Mbox
  | .jtag => b.mf.mbJtag
  | _ => b.mf.mbI3c

/-- A path's mailbox set. -/
def Block.setMbox (b : Block) (p : Path) (v : Mbox) : Block :=
  match p with
  | .jtag => { b with mf.mbJtag := v }
  | _ => { b with mf.mbI3c := v }

/-- The sideband paths answer: outside DARK, FROZEN and scan, with VDD_IO in range (R38, R444). -/
def Block.sidebandOpen (b : Block) : Bool :=
  b.pw.st != .dark && b.pw.st != .frozen && !b.sv.inScan && !b.pins.railsLow.contains .io

/-- MF_MBOX_DOOR: with GO the mailbox's first LEN bytes are decided. -/
def Block.doorbell (b : Block) (p : Path) (value : Word) : Block :=
  if p = .inBand ∨ ¬ b.sidebandOpen ∨ ¬ b.hmRuns ∨ value.getLsbD 31 = false then b
  else
    let len := value.toNat % 2 ^ 13
    let x := b.mbox p
    let bs := (List.range (min len 4160)).map fun i => tget (fun _ => 0) x.data i
    let o : Origin := { side := none, path := p }
    let (b, st) := if len < 64 ∨ 4160 < len then (b.refuseMan o St.badParam, St.badParam) else b.decideMan o 1 bs
    b.setMbox p { b.mbox p with st := 2, status := BitVec.ofNat 8 st }

/-- The meaning of MF_MBOX_DOOR. -/
def execMfMboxDoor (p : Path) (value : Word) (s : State) : Host.Outcome State Fault Refusal := s.upd (·.doorbell p value)

end Sys2Proof.Machine
end

