-- ==== Sys2Proof/Machine/CsrRead.lean ====
section
/-! DEFINITION. Register reads: what each register shows (the register tables of the chapters), who may read it
(R442 to R447), and what a read does besides: holding registers (R81, R341), read-clear fields (R452), the receipt
window (R321). -/

namespace Sys2Proof.Machine

open Sys2Proof

/-! ### Fields -/

/-- A field of width `w` at bit `lo`. -/
def fld (lo w v : Nat) : Nat := v % 2 ^ w * 2 ^ lo

/-- A signed field of width `w` at bit `lo`. -/
def sfld (lo w : Nat) (v : Int) : Nat := (v % (2 ^ w : Int)).toNat * 2 ^ lo

/-- A flag at bit `i`. -/
def flag (i : Nat) (c : Bool) : Nat := if c then 2 ^ i else 0

/-- The low or the high half of a 64-bit mask of units. -/
def half (hi : Bool) (v : Nat) : Nat := if hi then v / 2 ^ 32 else v % 2 ^ 32

/-- Word `i` of a byte string. -/
def wordAt (bs : List Byte) (i : Nat) : Nat := leAt bs (4 * i) 4

/-! ### Pairs with a holding register (R81, R341) -/

/-- The low register of the pair that an offset belongs to; `none` where it belongs to none. -/
def pairLo (off : Nat) : Option Nat :=
  let rel := off % 0x10000
  let down (first last : Nat) (r : Nat) : Option Nat := if first ≤ r ∧ r < last then some (off - r % 8) else none
  match off / 0x10000 with
  | 0x01 => down 0x20 0x28 rel
  | 0x04 | 0x05 =>
    let r := rel % 0x400
    if 0x4000 ≤ rel then none
    else if r < 0x58 then down 0x48 0x58 r
    else down 0x60 0x68 r
  | 0x08 => if 0x300 ≤ rel then none else down 0x100 0x148 (if 0x200 ≤ rel then rel - 0x100 else rel)
  | 0x0C => down 0x100 0x140 rel
  | 0x10 | 0x11 | 0x12 | 0x13 => down 0x100 0x138 (rel % 0x1000)
  | 0x15 => if 0x1000 ≤ rel ∧ rel < 0x2000 then down 0x10 0x30 (rel % 0x40) else none
  | 0x1A => down 0x18 0x20 rel
  | 0x1B =>
    if 0x1000 ≤ rel then
      (if (rel - 0x1000) / 0x80 < 69 then down 0 0x48 (rel % 0x80) else none)
    else down 0x28 0x30 rel
  | 0x1C => down 0x100 0x138 rel
  | _ => none

/-- What a pair counts: the value whose halves its registers show. -/
def Block.pairValue (b : Block) (p : Path) (lo : Nat) : Nat :=
  if lo = Off.ckTideLo then b.ck.tide.toNat
  else if lo = Off.caLaneTimeLo then (b.lane ((b.selReg p Off.caLaneSel).toNat % 32)).calTime.toNat
  else if lo = Off.tlBwLastLo then tget (fun _ => 0) b.tl.last ((b.selReg p Off.tlBwSel).toNat % 256) % 2 ^ 48
  else if Off.tlCycLo ≤ lo ∧ lo < Off.prCtrl then
    let t := b.tallyBlk ((lo - Off.tlCycLo) / 0x80)
    if lo % 0x80 = 0 then t.cyc.toNat else (tget (fun _ => 0) t.cnt (lo % 0x80 / 8 - 1)).toNat
  else b.count lo

/-! ### What each block's registers show -/

/-- Boot code has run, and has set the die number (R450). -/
def Block.booted (b : Block) : Bool := b.pw.st != .arrival || b.pw.arr != .boot

/-- `HM_` (R450). -/
def Block.viewHM (b : Block) (off : Nat) : Nat :=
  if off = Off.hmId then 0x00A11628
  else if off = Off.hmState then
    fld 0 4 b.pw.st.code + flag 4 (b.tripUnacked && b.logKnown) + flag 5 b.mf.noImage + fld 6 2 b.bootCode.toNat
  else if off = Off.hmFwVer then b.mf.fwVersion.toNat
  else if off = Off.hmSecVer then b.mf.secVersion.toNat + fld 8 8 b.mf.secMin.toNat
  else if Off.hmDieId0 ≤ off ∧ off < Off.hmDieId0 + 16 ∧ b.booted then
    Config.dieNumber.toNat / 2 ^ (8 * (off - Off.hmDieId0)) % 2 ^ 32
  else 0

/-- Sequence `s` comes after `t` (R317). -/
def seqAfter (s t : BitVec 32) : Bool := decide (s ≠ t ∧ (s - t).toNat < 2 ^ 31)

/-- The receipt that the window shows for a path's ring and sequence (R321). -/
def Block.windowSlot (b : Block) (p : Path) : Slot :=
  let r := (b.selReg p Off.mfRcptRing).toNat % 64
  let s := b.selReg p Off.mfRcptSel
  let x := b.slot (slotKey r s)
  let g := b.ring r
  if x.st ≠ .empty ∧ x.seq = s then x
  else if (x.st ≠ .empty ∧ seqAfter x.seq s) ∨ (x.st = .empty ∧ g.bound ∧ (seqAfter g.last s ∨ g.last = s)) then
    { st := .expired, status := BitVec.ofNat 8 St.expired, seq := s }
  else if g.bound ∧ seqAfter s g.last then
    { st := .pending, status := BitVec.ofNat 8 St.pending, unseen := true, seq := s }
  else x

/-- A read of word 0 of the window: the slot latched for the path, and READ_AGAIN set where it is DONE (R321). -/
def Block.openWindow (b : Block) (p : Path) : Nat × Block :=
  let x := b.windowSlot p
  let r := (b.selReg p Off.mfRcptRing).toNat % 64
  let bs := slotBytes x
  let b := { b with mf.latch := tset (fun _ => []) b.mf.latch (pathNo p) bs }
  (wordAt bs 0, if x.st = .done ∧ ¬ x.readAgain then b.setSlot (slotKey r x.seq) x.marked else b)

/-- `MF_` (R334). -/
def Block.viewMF (b : Block) (p : Path) (off : Nat) : Nat :=
  let r := b.ring ((b.selReg p Off.mfRingSel).toNat % 64)
  if off = Off.mfStatus then
    fld 0 5 b.mkeys + flag 5 b.keys.wrap.isSome + flag 6 b.keys.ksReject + flag 7 b.mf.session.isSome
      + fld 8 6 b.mf.running.length + fld 16 6 ((List.range 62).countP fun n => (b.ring n).bound)
  else if off = Off.mfArrival then b.mf.arrival.toNat
  else if Off.mfAuthFail ≤ off ∧ off ≤ Off.mfRefused then b.count off
  else if off = Off.mfRingSrc then fld 0 15 r.src.toNat + flag 15 r.bound
  else if off = Off.mfRingLast then r.last.toNat
  else if off = Off.mfMboxStatus then fld 0 2 (b.mbox p).st.toNat + fld 8 8 (b.mbox p).status.toNat
  else if Off.mfRcptData < off ∧ off < Off.mfRcptData + 0x400 then
    wordAt (tget (fun _ => []) b.mf.latch (pathNo p)) ((off - Off.mfRcptData) / 4)
  else 0

/-- Attempts used in a PLL's current event, which a good re-lock leaves open for 1 s (R350); 0 outside one. -/
def PllSt.triesNow (x : PllSt) (now : Tide) : Nat := if x.down ∨ x.eventOpen now then x.tries else 0

/-- `CK_` (R363). -/
def Block.viewCK (b : Block) (off : Nat) : Nat :=
  let c := b.ck
  if off = Off.ckStatus then
    flag 0 c.xtalOk + flag 1 c.rcOk + flag 2 c.root.lock + flag 3 c.west.lock + flag 4 c.east.lock
      + fld 6 2 c.aonSrc.code + fld 8 2 c.hkSrc.code + fld 10 2 c.svSrc.code + fld 12 2 c.tlSrc.code
      + flag 14 b.bwHold + flag 15 (c.root.attempt || c.west.attempt || c.east.attempt) + fld 16 2 c.tideSrc.code
  else if off = Off.ckRelock then
    fld 0 2 (c.root.triesNow c.tide) + fld 2 2 (c.west.triesNow c.tide) + fld 4 2 (c.east.triesNow c.tide)
      + fld 8 8 c.root.losses.toNat + fld 16 8 c.west.losses.toNat + fld 24 8 c.east.losses.toNat
  else if off = Off.ckResetCause then flag 7 b.heat.frozenTrip
  else if off = Off.ckRootFrac then sfld 0 16 c.corr.floor + flag 16 c.clipped
  else 0

/-- `PW_` (R379). -/
def Block.viewPW (b : Block) (off : Nat) : Nat :=
  let w := b.pw
  if off = Off.pwStatus then
    fld 0 4 w.st.code + flag 4 w.offReady + fld 5 3 w.depPhase.code + fld 8 3 w.depGroup.toNat + flag 11 w.surveyFull
      + flag 12 w.contentsKept + flag 13 w.tripHold + flag 14 w.depNoSurvey + fld 16 4 w.chartAge.toNat + flag 20 w.chartValid
  else if off / 8 = Off.pwOnLo / 8 then half (off % 8 == 4) (unitMask 48 b.domOn)
  else if off / 8 = Off.pwFailLo / 8 then half (off % 8 == 4) (unitMask 48 fun d => (b.dom d).st == .failed)
  else if off = Off.pwTHarbour then w.tHarbour.toNat
  else if off = Off.pwTOpen then w.tOpen.toNat
  else if off = Off.pwTDepart then w.tDepart.toNat
  else if Off.pwDom ≤ off ∧ off < Off.pwDom + 4 * 48 then
    let d := (off - Off.pwDom) / 4
    fld 0 3 (b.dom d).st.code + fld 4 3 (domGroup d) + fld 16 16 (b.dom d).onCount.toNat
  else 0

/-- The transmitter is in electrical idle now, for any cause: TX_IDLE, its quad's power, breakwater on its side, or its
state's; a PRBS under TX_EN drives it, but not in the partner's window of LOCK (R61, R77, R84, R86, R101). -/
def Block.idleNow (b : Block) (l : Nat) : Bool :=
  b.regBit (lnOff Off.lnCtrl l) 4 || !b.domOn (quadDom l) || (b.pll (sidePll (laneSide l))).down
    || ((b.lane l).txIdle && !(b.regBit (lnOff Off.lnPrbsCtrl l) 0 && (b.lane l).st != .lock))

/-- A tap of the receive equaliser by `LN_RX_FFE.IDX`: main reads 0x7F. -/
def Lane.rxTap (x : Lane) (ix : Nat) : Nat :=
  if ix = 3 then 0x7F else if 11 < ix then 0 else (x.rxFfe.getD ix 0).toNat

/-- A lane's `LN_` registers, by their place in its set (R86). -/
def Block.viewLane (b : Block) (p : Path) (l r : Nat) : Nat :=
  let x := b.lane l
  match r with
  | 0x004 =>
    fld 0 3 x.st.code + fld 4 2 x.grade.val + flag 6 x.polInv + flag 7 x.ecConv + flag 8 x.los + flag 9 x.lol
  | 0x010 =>
    sfld 0 5 x.pre2 + sfld 5 6 x.pre1 + sfld 11 6 x.post1 + sfld 17 5 x.post2 + sfld 22 7 x.taps.main + flag 31 x.ffeReject
  | 0x014 => flag 16 (b.idleNow l)
  | 0x020 => x.ctle.toNat
  | 0x024 => fld 8 8 (x.rxTap ((b.selReg p (lnOff Off.lnRxFfe l)).toNat % 16))
  | 0x028 => x.dfe.toNat
  | 0x034 => fld 0 8 x.erle.toNat + fld 16 16 x.convCount.toNat
  | 0x044 => flag 0 x.prbsSync + flag 2 x.prbsSat
  | _ => if 0x080 ≤ r ∧ r < 0x0C4 then b.count (laneBase l + r) else 0

/-- A side's `LN_` registers. -/
def Block.viewSide (b : Block) (sd : Side) (r : Nat) : Nat :=
  let x := b.side sd
  match r with
  | 0x4000 => flag 15 x.sscPending + fld 16 5 x.sscActive.toNat
  | 0x4004 => flag 0 x.refPresent + flag 1 (b.pll (sidePll sd)).lock + fld 8 5 x.refSpread.toNat + fld 16 16 x.refPpm.toNat
  | 0x4008 => unitMask 16 fun i => b.reg (lnOff Off.lnAlarm (laneOf sd i)) != 0
  | _ => 0

/-- `LN_`. -/
def Block.viewLN (b : Block) (p : Path) (off : Nat) : Nat :=
  let sd : Side := if off / 0x10000 = 4 then .west else .east
  let r := off % 0x10000
  if r < 0x4000 then b.viewLane p (laneOf sd (r / 0x400)) (r % 0x400) else b.viewSide sd r

/-- The state of a fairway direction as FW_STATUS codes it (R165): `own` its domain, `other` the other direction's. -/
def fwState (own other : DomState) : Nat :=
  match own with
  | .failed => 3
  | .on => if other = .off ∨ other = .powering ∨ other = .failed then 2 else 1
  | .draining => 1
  | .off | .powering => 0

/-- `FW_`. -/
def Block.viewFW (b : Block) (off : Nat) : Nat :=
  let we := (b.dom 10).st
  let ew := (b.dom 11).st
  if off = Off.fwStatus then
    fld 0 2 (fwState we ew) + fld 2 2 (fwState ew we)
      + flag 4 (b.holdOut .west) + flag 5 (b.holdOut .east)
      + flag 6 (!b.qyUp && b.regBit Off.fwCtrl 1 && (b.domOn 10 || b.domOn 11))
      + fld 8 3 b.fwWE.buf.length + fld 12 3 b.fwEW.buf.length
  else if off = Off.fwStandinOvf ∨ off = Off.fwStandinOvf + 0x100 then b.count off
  else 0

/-- `QY_` (R193). -/
def Block.viewQY (b : Block) (off : Nat) : Nat :=
  if off = Off.qyStatus then fld 0 2 b.qyState + flag 2 (b.pw.st == .departure)
  else if off = Off.qyPierId then fld 0 15 b.qy.pierId.toNat + flag 15 b.qy.idValid + fld 16 4 b.pins.strap.toNat
  else if off = Off.qyShare then
    fld 8 4 (b.shareUnits .west) + fld 12 4 (b.shareUnits .east) + fld 16 8 (b.creditUnits .west) + fld 24 8 (b.creditUnits .east)
  else if off = Off.qyCreditBal then sfld 0 16 (b.balance .west) + sfld 16 16 (b.balance .east)
  else if off = Off.qyTags then fld 0 15 b.tagsHeld
  else 0

def BerthState.code : BerthState → Nat
  | .absent => 0 | .filling => 1 | .ready => 2 | .throttled => 3 | .fenced => 4

/-- How the engine of a berth gates best-effort work (R237). -/
def Block.gateCode (b : Block) (n : Nat) : Nat :=
  if (b.berth n).st ≠ .throttled ∨ (b.chan n).step = 0 then 0 else if (b.chan n).step = 1 then 1 else 2

/-- A berth's `BT_` registers (R241); staging is shown in whole KiB, rounded up. -/
def Block.viewBerth (b : Block) (n r : Nat) : Nat :=
  match r with
  | 0x004 =>
    fld 0 3 (b.berth n).st.code + fld 4 9 (b.entries n fun _ => true) + fld 16 2 (b.gateCode n)
      + fld 20 6 (ceilDiv (b.stagingUsed n fun _ => true) 16)
  | 0x008 => fld 0 26 (b.berth n).fillGran + flag 31 (b.berth n).fillDone
  | _ => 0

/-- The charter that a path's CH_SEL shows: of an index that is FREE, the counters alone, which stay until it is reused (R216). -/
def Block.viewCharter (b : Block) (c r : Nat) : Nat :=
  let x := b.charter c
  match r with
  | 0x40 => x.inb.toNat
  | 0x44 => x.dem.toNat
  | 0x48 => x.miss.toNat
  | 0x4C => x.panicCnt.toNat
  | 0x50 => x.runv.toNat
  | _ =>
  match x.st, x.desc with
  | .free, _ | _, none => 0
  | st, some d =>
    match r with
    | 0x24 =>
      fld 0 2 d.cls.toNat + flag 2 (d.flags.getLsbD 0) + flag 3 (d.flags.getLsbD 1) + flag 4 (d.flags.getLsbD 2)
        + fld 5 6 (d.run.toNat - 1) + fld 11 6 (CharterDesc'.win d - 1) + fld 17 4 d.rank.toNat + fld 21 2 st.code
        + fld 23 4 x.reason.toNat
    | 0x28 => fld 0 16 d.bw.toNat + fld 16 16 (d.gpc.toNat - 1)
    | 0x2C => fld 0 16 d.flowLo.toNat + fld 16 16 d.flowHi.toNat
    | 0x30 => fld 0 15 d.srcLo.toNat + fld 16 15 d.srcHi.toNat
    | 0x34 => d.berths.toNat % 2 ^ 32
    | 0x38 => d.berths.toNat / 2 ^ 32
    | 0x3C => fld 0 16 (CharterDesc'.depth d) + fld 16 16 (CharterDesc'.quayDepth d)
    | _ => 0

/-- 0.75 × S of a side as last used, in whole flits per µs (R208, R216). -/
def Block.capQuay (b : Block) (sd : Side) : Nat :=
  tget (fun _ => 0) b.chs.lastQ (sideNo sd) * 24900 * 3 / (2304 * 32 * 4)

/-- The berth table of the charters (`CH_BERTH`, R216). -/
def Block.viewChBerth (b : Block) (n : Nat) : Nat :=
  let on := b.actives.filter fun e => CharterDesc'.names e.2 n
  fld 0 8 (b.ingressReserved n) + fld 8 10 ((on.map fun e => CharterDesc'.rate e.2).sum) + flag 18 (b.pinned n)
    + flag 19 (b.panicAt n) + fld 20 3 (tget (fun _ => 0) b.chs.lastF n)

/-- `CH_`. -/
def Block.viewCH (b : Block) (p : Path) (off : Nat) : Nat :=
  if off = Off.chStatus then fld 0 13 b.actives.length + fld 13 13 b.suspendeds.length + flag 26 b.passBusy
  else if off = Off.chCapChan then 593
  else if off = Off.chCapQuay then fld 0 16 (b.capQuay .west) + fld 16 16 (b.capQuay .east)
  else if off = Off.chTagsRsv then fld 0 15 ((b.actives.map fun e => CharterDesc'.tags e.2).sum)
  else if Off.chEntCfg ≤ off ∧ off ≤ Off.chEntRunv then b.viewCharter ((b.selReg p Off.chSel).toNat % 4096) (off % 0x100)
  else if Off.chBerth ≤ off ∧ off < Off.chBerth + 256 then b.viewChBerth ((off - Off.chBerth) / 4)
  else 0

def ChanPwr.code : ChanPwr → Nat
  | .off => 0 | .awake => 1 | .entering => 2 | .selfRefresh => 3 | .exiting => 4

/-- A channel's `DC_CH_` registers (R264). -/
def Block.viewChan (b : Block) (n r : Nat) : Nat :=
  let x := b.chan n
  match r with
  | 0x04 =>
    fld 0 3 x.pwr.code + flag 3 x.forced + flag 4 (b.pinned n) + fld 5 3 x.step.val
      + fld 8 6 (x.banks.countP fun k => k.2.row.isSome)
  | 0x08 => fld 0 4 x.owed + flag 4 x.pulled + flag 5 x.hot + flag 6 x.repay + fld 7 5 (min 31 x.passBank)
  | _ => 0

/-- The channel sleeps, or is on its way to or from sleep (`DC_SLEEP`). -/
def Block.sleeps (b : Block) (n : Nat) : Bool :=
  (b.chan n).pwr == .entering || (b.chan n).pwr == .selfRefresh || (b.chan n).pwr == .exiting

/-- `DC_`. -/
def Block.viewDC (b : Block) (off : Nat) : Nat :=
  let r := off % 0x10000
  if off / 8 = Off.dcSleepLo / 8 then half (off % 8 == 4) (unitMask 64 b.sleeps)
  else if off / 8 = Off.dcHotLo / 8 then half (off % 8 == 4) (unitMask 64 fun n => (b.chan n).hot)
  else if 0x1000 ≤ r ∧ r < 0x2000 then b.viewChan ((r - 0x1000) / 0x40) (r % 0x40)
  else 0

/-- The state of a column (R276, R283): its forward clock stops in self-refresh and, once the pier has arrived, OFF. -/
def Block.colState (b : Block) (n : Nat) : Nat :=
  let x := b.col n
  let off := (b.chan n).pwr == .selfRefresh || ((b.chan n).pwr == .off && b.pw.st != .arrival && b.pw.st != .survey)
  if b.stk.fence.getLsbD n then 2
  else if off then 3
  else if x.failed.isEmpty ∧ x.caFail.isNone then 0
  else 1

/-- A column's `ST_COL_` registers. -/
def Block.viewCol (b : Block) (p : Path) (n r : Nat) : Nat :=
  let x := b.col n
  let failed (i : Nat) : Nat :=
    match x.failed[i]? with
    | some k => fld (8 * i) 7 k + flag (8 * i + 7) true
    | none => 0
  match r with
  | 0x00 =>
    fld 0 2 (b.colState n) + fld 2 3 (min 4 x.failed.length) + flag 5 x.caFail.isSome + flag 6 x.calPass
      + fld 8 4 (x.caFail.getD 0)
  | 0x04 => failed 0 + failed 1 + failed 2 + failed 3
  | 0x08 => fld 0 10 x.flight
  | 0x0C =>
    let i := (b.selReg p (stOff Off.stColCe n)).toNat % 128
    if i < 72 then fld 16 16 (min (tget (fun _ => 0) x.ceLast i) 0xFFFF) else 0
  | 0x10 => x.replay.toNat
  | _ => 0

/-- `ST_` (R283). -/
def Block.viewST (b : Block) (p : Path) (off : Nat) : Nat :=
  let r := off % 0x20000
  let sel := (b.selReg p Off.stFenceSel).toNat
  let list := (b.berth (sel % 64)).fence
  let ent := list[sel / 64 % 512]?
  let die : Option Nat := match b.stk.rst with
    | .dieDrain k _ | .dieHeld k _ | .dieCal k _ => some k.val
    | _ => none
  let stack : Bool := match b.stk.rst with
    | .stackHeld _ | .stackTest _ => true
    | _ => false
  if off = Off.stStatus then flag 0 b.stk.dman + flag 1 stack + flag 2 die.isSome + fld 4 4 (die.getD 0)
  else if off = Off.stRelay then b.stk.relay.toNat
  else if off = Off.stFenceChLo then half false b.stk.fence.toNat
  else if off = Off.stFenceChLo + 4 then half true b.stk.fence.toNat
  else if off = Off.stFenceAddr then (match ent with | some e => fld 0 31 e.gran + flag 31 true | none => 0)
  else if off = Off.stFenceId then (match ent with | some e => fld 0 15 e.src.toNat + fld 16 16 e.tag.toNat | none => 0)
  else if off = Off.stFenceFlow then (match ent with | some e => e.flow.toNat | none => 0)
  else if off = Off.stFenceCnt then fld 0 10 list.length
  else if off = Off.stTsv then b.stk.tsv.toNat
  else if 0x1000 ≤ r ∧ r < 0x1800 then b.viewCol p ((r - 0x1000) / 0x20) (r % 0x20)
  else 0

/-- The extra guard of R386 is above 0. -/
def Block.seeding (b : Block) : Bool :=
  match b.heat.seedAt with
  | some t => decide (b.since t < 10 * sTicks)
  | none => false

/-- The layer with the highest temperature used, the lowest among equals. -/
def Block.hotLayer (b : Block) : Nat :=
  (List.range 17).foldl (fun k l => if (b.layer k).used < (b.layer l).used then l else k) 0

/-- `HT_` (R401); temperatures are shown rounded down. -/
def Block.viewHT (b : Block) (off : Nat) : Nat :=
  if off = Off.htStatus then
    fld 0 3 b.heat.capStep.val + flag 3 (!b.ck.xtalOk && b.roundRuns) + flag 4 b.seeding + fld 8 5 b.hotLayer
      + fld 13 3 ((List.range 64).foldl (fun m n => max m (b.chan n).step.val) 0)
  else if off = Off.htPwr then fld 0 18 b.heat.milliwatt
  else if off = Off.htRound then b.heat.round.toNat
  else if Off.htCh ≤ off ∧ off < Off.htCh + 4 * 96 then
    let v := b.htCh ((off - Off.htCh) / 4)
    sfld 0 16 v.1 + flag 16 v.2
  else if Off.htLayerT ≤ off ∧ off < Off.htLayerT + 8 * 17 then
    let x := b.layer ((off - Off.htLayerT) / 8)
    if off % 8 = 0 then sfld 0 16 x.sensor + sfld 16 16 x.model.floor
    else sfld 0 16 x.used.floor + fld 16 3 x.step.val + fld 19 3 x.floor.val + flag 22 x.diverge + flag 23 x.modelOnly
      + flag 24 x.latch + flag 25 x.resting + flag 26 x.ref2x
  else if Off.htSensor ≤ off ∧ off < Off.htSensor + 4 * 56 then
    let s := (off - Off.htSensor) / 4
    let x := b.sensor s
    let code : Nat := match x.st with
      | .healthy => 0 | .failed => 1 | .excluded => 2 | .resting => 3
    fld 0 2 code + fld 2 2 x.cause.toNat + fld 4 3 x.floor.toNat + flag 7 (x.st != .excluded && b.booted)
      + fld 8 6 (min 63 x.stuck)
  else 0

/-- `SV_` (R424). -/
def Block.viewSV (b : Block) (p : Path) (off : Nat) : Nat :=
  let sel := (b.selReg p Off.svLogSel).toNat
  let lg := tget (fun _ => ({} : FailLog)) b.sv.logs (sel % 4096)
  if off = Off.svStatus then
    fld 0 2 b.sv.kind.toNat + flag 2 b.sv.busy + fld 3 3 b.sv.group.toNat + flag 6 b.sv.svOk + fld 8 5 b.sv.sample.toNat
  else if off = Off.svRunMs then b.sv.runMs.toNat
  else if off = Off.svFailLane then b.sv.failLane.toNat
  else if off = Off.svFailChLo then half false b.sv.failCh.toNat
  else if off = Off.svFailChLo + 4 then half true b.sv.failCh.toNat
  else if off = Off.svFailMisc then b.sv.failMisc.toNat
  else if off = Off.svRepairs then fld 0 12 b.sv.dramRepairs.length + fld 12 10 b.sv.sramRepairs.length
  else if off = Off.svLogAddr then (lg.entries.getD (sel / 4096 % 64) 0).toNat
  else if off = Off.svLogCnt then fld 0 7 lg.entries.length + flag 7 lg.overflow + flag 8 lg.sigFail
  else if off = Off.svScan then flag 0 b.sv.scanEntered + flag 1 b.sv.zeroOk
  else 0

/-- A lane run is in progress on a side: triggered and waiting for its window, or asked for by CAL_RUN. -/
def Block.laneRuns (b : Block) (sd : Side) : Bool := (sideLanes sd).any fun l => (b.lane l).calPending

/-- `CA_` (R424). -/
def Block.viewCA (b : Block) (p : Path) (off : Nat) : Nat :=
  let l := (b.selReg p Off.caLaneSel).toNat % 32
  if off = Off.caStatus then
    flag 0 (b.laneRuns .west) + flag 1 (b.laneRuns .east) + fld 2 7 ((List.range 64).countP fun n => (b.chan n).calDue != 0)
  else if off = Off.caLaneCount then (b.lane l).calCount.toNat
  else if off / 8 = Off.caCoilPassLo / 8 then half (off % 8 == 4) (unitMask 64 fun n => (b.chan n).coilPass)
  else if off / 8 = Off.caDramPassLo / 8 then half (off % 8 == 4) (unitMask 64 fun n => (b.chan n).dramPass)
  else 0

/-- `TL_` (R440). -/
def Block.viewTL (b : Block) (p : Path) (off : Nat) : Nat :=
  if off = Off.tlStatus then fld 0 2 b.tl.mode + flag 2 b.tl.busy
  else if off = Off.tlSeq then b.tl.seqLast.toNat
  else if off = Off.tlBwPeak then tget (fun _ => 0) b.tl.peak ((b.selReg p Off.tlBwSel).toNat % 256) % 2 ^ 32
  else 0

/-- The progress of the running scrub pass in per cent, of the slowest channel (R307). -/
def Block.scrubProgress (b : Block) : Nat :=
  match b.prot.scrub with
  | none => 0
  | some sc =>
    (List.range 64).foldl (fun m n =>
      match firstOnChan n sc.first sc.last with
      | none => m
      | some g =>
        let all := leftOnChan n g sc.last
        let left := match (b.chan n).scrubNext with
          | some h => leftOnChan n h sc.last
          | none => 0
        min m ((all - left) * 100 / all)) 100

/-- `PR_` (R307). -/
def Block.viewPR (b : Block) (p : Path) (off : Nat) : Nat :=
  let done := unitMask 64 fun n => (b.berth n).fillDone
  let keys := unitMask 64 fun n => (tget (fun _ => none) b.keys.region (n + 1)).isSome
  if off = Off.prStatus then
    flag 0 b.keys.arrival.isSome + flag 1 ((List.range 64).any fun n => (b.berth n).st == .filling)
      + flag 2 b.prot.scrub.isSome + fld 8 7 ((List.range 64).countP fun n => (b.berth n).fillDone) + fld 16 8 b.scrubProgress
  else if off = Off.prFillLo then half false done
  else if off = Off.prFillLo + 4 then half true done
  else if off = Off.prKeyLo then half false keys
  else if off = Off.prKeyLo + 4 then half true keys
  else if off = Off.prErrWr then b.prot.wr.toNat
  else if off = Off.prErrRd then b.prot.rd.toNat
  else if Off.prErrData0 ≤ off ∧ off < Off.prErrData0 + 32 then
    match tget (fun _ => none) b.prot.ring ((b.selReg p Off.prErrSel).toNat % 4096) with
    | some r => wordAt r.bytes ((off - Off.prErrData0) / 4)
    | none => 0
  else 0

/-- `LG_` (R441): the rebuilt registers hold their reset values until step 3 of the arrival. -/
def Block.viewLG (b : Block) (p : Path) (off : Nat) : Nat :=
  let wear (s : Nat) : Nat := tget (fun _ => 0) b.lg.wear s
  if off = Off.lgStatus then
    if b.logKnown then
      flag 0 (decide (10000 ≤ wear 15)) + flag 1 (decide (10000 ≤ wear 14)) + fld 2 4 (b.lg.gov.getD 15) + flag 6 b.tripUnacked
    else 0x3C
  else if off = Off.lgEvtNext then (if b.logKnown then b.lg.evtNext.toNat else 0)
  else if off = Off.lgTripNext then (if b.logKnown then b.lg.tripNext.toNat else 0)
  else if off = Off.lgWear then
    let s := (b.selReg p Off.lgWearSel).toNat % 16
    if b.logKnown then fld 0 14 (wear s) + flag 14 (decide (s < 14 ∧ 10000 ≤ wear s)) else 0
  else if Off.lgWinData0 ≤ off ∧ off < Off.lgWinData0 + 32 then
    match b.logRecord ((b.selReg p Off.lgWinArea).toNat % 4) (b.selReg p Off.lgWinIndex).toNat with
    | some bs => wordAt bs ((off - Off.lgWinData0) / 4)
    | none => 0
  else 0

/-! ### One register as a path sees it -/

/-- The computed bits of a register. -/
def Block.view (b : Block) (p : Path) (off : Nat) : Nat :=
  match off / 0x10000 with
  | 0x00 => if off < 0x1000 then b.viewHM off else b.viewMF p off
  | 0x01 => b.viewCK off
  | 0x02 => b.viewPW off
  | 0x04 | 0x05 => b.viewLN p off
  | 0x08 => b.viewFW off
  | 0x0C => b.viewQY off
  | 0x10 | 0x11 | 0x12 | 0x13 => b.viewBerth ((off - 0x100000) / 0x1000) (off % 0x1000)
  | 0x14 => b.viewCH p off
  | 0x15 => b.viewDC off
  | 0x16 => b.viewST p off
  | 0x18 => b.viewHT off
  | 0x19 => b.viewSV p off
  | 0x1A => b.viewCA p off
  | 0x1B => b.viewTL p off
  | 0x1C => b.viewPR p off
  | 0x1E => b.viewLG p off
  | _ => 0

/-- The bits that a register stores. -/
def Reg.mask (r : Reg) : Word := r.rw ||| r.rwl ||| r.w1c ||| r.rc

/-- The stored bits of a register as a path sees them. -/
def Block.stored (b : Block) (p : Path) (off : Nat) : Word :=
  match regAt off with
  | none => 0
  | some r => (if r.banked then b.selReg p off else b.reg off) &&& r.mask

/-- A lane in the survey unit map shows ENABLE as 0 (R86, R407). -/
def Block.enableHidden (b : Block) (off : Nat) : Word :=
  if (off / 0x10000 = 4 ∨ off / 0x10000 = 5) ∧ off % 0x10000 < 0x4000 ∧ off % 0x400 = 0
      ∧ (b.lane (laneOf (if off / 0x10000 = 4 then .west else .east) (off % 0x10000 / 0x400))).unusable then 1
  else 0

/-- A path may see a register: its domain is ON, KS_ is write-only, the mailbox registers read 0 in band (R11, R312,
R443, R447). -/
def Block.mayRead (b : Block) (p : Path) (off : Nat) : Bool :=
  b.reachable off && off / 0x10000 != 0x1D && !(p == .inBand && decide (0x1100 ≤ off ∧ off < 0x10000))

/-- What a register shows on a path, without what the read does. -/
def Block.peek (b : Block) (p : Path) (off : Nat) : Word :=
  if ¬ b.mayRead p off then 0
  else match pairLo off with
    | some lo => if off = lo then BitVec.ofNat 32 (b.pairValue p lo) else b.holdReg p lo
    | none => (b.stored p off &&& ~~~ b.enableHidden off) ||| BitVec.ofNat 32 (b.view p off)

/-- The read-clear fields of a register start again from the events of the read's cycle (R452): QY_TAGS from the tags
held, the peak of a port from what the cycle gives. -/
def Block.clearRead (b : Block) (p : Path) (off : Nat) (events : Word) : Block :=
  if off = Off.tlBwPeak then
    { b with tl.peak := tset (fun _ => 0) b.tl.peak ((b.selReg p Off.tlBwSel).toNat % 256) events.toNat }
  else match regAt off with
    | none => b
    | some r =>
      if r.rc = 0 then b
      else
        let v := if off = Off.qyTags then BitVec.ofNat 32 (b.tagsHeld * 2 ^ 16) else events
        b.setReg off ((b.reg off &&& ~~~ r.rc) ||| (v &&& r.rc))

/-- A register read on a path that serves it: the value, and the block after it. -/
def Block.csrRead (b : Block) (p : Path) (offset : Nat) (events : Word) : Word × Block :=
  let off := offset / 4 * 4
  if ¬ b.mayRead p off then (0, b)
  else if off = Off.mfRcptData then
    let r := b.openWindow p
    (BitVec.ofNat 32 r.1, r.2)
  else
    let v := b.peek p off
    match pairLo off with
    | some lo => (v, if off = lo then b.setHold p lo (BitVec.ofNat 32 (b.pairValue p lo / 2 ^ 32)) else b)
    | none => (v, b.clearRead p off events)

/-! ### The rows that read -/

/-- A path serves a register access now (R444): in band in HARBOUR and OPEN with an ID and the quay in service, the
sideband paths outside DARK, FROZEN and scan with VDD_IO in range. -/
def Block.serves (b : Block) (p : Path) : Bool :=
  match p with
  | .inBand => b.inService && b.qyUp && b.qy.idValid && b.coreRuns && b.live
  | _ => b.sidebandOpen

/-- A read on a path, its value kept as what the path read last. -/
def Block.readOn (b : Block) (p : Path) (off : Nat) (events : Word) : Block :=
  let r := b.csrRead p off events
  { r.2 with rdData := tset (fun _ => 0) r.2.rdData (pathNo p) r.1 }

/-- The register has read-clear fields. -/
def clearsOnRead (off : Nat) : Bool :=
  off == Off.tlBwPeak || (match regAt off with | some r => r.rc != 0 | none => false)

/-- The meaning of RC_READ, on an offset that holds a read-clear field. -/
def execRcRead (p : Path) (offset : BitVec 24) (events : Word) (s : State) : Host.Outcome State Fault Refusal :=
  s.upd fun b =>
    if b.serves p && clearsOnRead (offset.toNat / 4 * 4) then b.readOn p offset.toNat events else b

/-- The meaning of CAPTURE_LO_READ, on the low register of a pair. -/
def execCaptureLoRead (p : Path) (offset : BitVec 24) (s : State) : Host.Outcome State Fault Refusal :=
  s.upd fun b =>
    if b.serves p && pairLo (offset.toNat / 4 * 4) == some (offset.toNat / 4 * 4) then b.readOn p offset.toNat 0 else b

/-- The meaning of RCPT_WINDOW_READ: a read of word 0 of the window; in band it reads 0 (R312). -/
def execRcptWindowRead (p : Path) (s : State) : Host.Outcome State Fault Refusal :=
  s.upd fun b => if b.serves p then b.readOn p Off.mfRcptData 0 else b

end Sys2Proof.Machine
end

