-- ==== Sys2Proof/Machine/CsrWrite.lean ====
section
/-! DEFINITION. Register writes: the fields under their access codes and locks (R7 to R11, R449), the values that a
register does not take, and what a write does besides (the register tables of the chapters). -/

namespace Sys2Proof.Machine

open Sys2Proof

/-! ### Fields under their access codes (R7) -/

/-- A field of a written word. -/
def bitsAt (v : Word) (lo w : Nat) : Nat := v.toNat / 2 ^ lo % 2 ^ w

/-- `w` bits of `v` at `lo` replaced by those of `n`. -/
def withField (v : Word) (lo w n : Nat) : Word :=
  BitVec.ofNat 32 (v.toNat - bitsAt v lo w * 2 ^ lo + n % 2 ^ w * 2 ^ lo)

/-- A stored register after a write of `v` to the bits that `open_` admits: RW and RWL fields take the bits, W1C bits
written 1 clear, read-clear and read-only bits stay (R7, R9). -/
def Block.putReg (b : Block) (off : Nat) (v : Word) (open_ : Word := BitVec.allOnes 32) : Block :=
  match regAt off with
  | none => b
  | some r =>
    let old := b.reg off
    let rw := (r.rw ||| r.rwl) &&& open_
    b.setReg off (((old &&& ~~~ rw) ||| (v &&& rw)) &&& ~~~ (v &&& r.w1c))

/-- A select register of a path's bank written. -/
def Block.putSel (b : Block) (p : Path) (off : Nat) (v : Word) : Block :=
  match regAt off with
  | none => b
  | some r => b.setSel p off (v &&& r.rw)

/-- The old field where the written one is out of range: such a write leaves the field as it was. -/
def keepUnless (ok : Bool) (old v : Word) (lo w : Nat) : Word := if ok then v else withField v lo w (bitsAt old lo w)

/-! ### Lanes (chapter 03) -/

/-- A signed number of `w` bits. -/
def signedBits (w n : Nat) : Int := if n < 2 ^ (w - 1) then n else (n : Int) - 2 ^ w

/-- The side taps that a word of LN_TX_FFE gives. -/
def tapsOf (v : Word) : Taps :=
  ⟨signedBits 5 (bitsAt v 0 5), signedBits 6 (bitsAt v 5 6), signedBits 6 (bitsAt v 11 6), signedBits 5 (bitsAt v 17 5)⟩

/-- TX_FFE_WRITE: an illegal setting is rejected whole; a legal one clears REJECT, and moves the taps with MANUAL = 1
outside training, where only tap requests move them (R65, R86). -/
def Block.writeFfe (b : Block) (l : Nat) (v : Word) : Block :=
  let t := tapsOf v
  b.modLane l fun x =>
    if ¬ t.legal then { x with ffeReject := true }
    else if b.regBit (lnOff Off.lnCtrl l) 1 ∧ x.st ≠ .train then { (x.withTaps t) with ffeReject := false }
    else { x with ffeReject := false }

/-- CNT_CLR of a lane: LN_SYM_ERR and the seventeen bins together (R80). -/
def Block.clearLane (b : Block) (l : Nat) : Block :=
  (b.setCount (lnOff Off.lnSymErrLo l) 0).each (List.range 17) fun b i => b.setCount (lnOff Off.lnFecHist0 l + 4 * i) 0

/-- LN_CTRL: ENABLE of a lane in the survey unit map is not set; 0 holds the lane OFF (R86, R102, R407). -/
def Block.writeLaneCtrl (b : Block) (l : Nat) (v : Word) : Block :=
  let off := lnOff Off.lnCtrl l
  let open_ : Word := if (b.lane l).unusable ∧ v.getLsbD 0 then 0x1E else 0x1F
  let b := b.putReg off v open_
  let b := if v.getLsbD 8 then b.clearLane l else b
  if v.getLsbD 0 then b else b.disableLane l

/-- LN_PRBS_CTRL: TX_EN and RX_EN stay in RUN and DEGRADED; pattern 3 is not taken; a checker that starts or stops
is out of sync; CLR clears both counters (R75 to R77, R80). -/
def Block.writePrbs (b : Block) (l : Nat) (v : Word) : Block :=
  let off := lnOff Off.lnPrbsCtrl l
  let old := b.reg off
  let w := keepUnless (bitsAt v 1 2 != 3) old v 1 2
  let w := keepUnless (bitsAt v 5 2 != 3) old w 5 2
  let w := if (b.lane l).inRun then withField (withField w 0 1 (bitsAt old 0 1)) 4 1 (bitsAt old 4 1) else w
  let b := b.putReg off w
  let b := if bitsAt (b.reg off) 4 1 = bitsAt old 4 1 then b else b.modLane l fun x => { x with prbsSync := false, chk := {} }
  if v.getLsbD 8 then b.clearPrbs l else b

/-- A lane's register written. -/
def Block.writeLane (b : Block) (p : Path) (l r : Nat) (v : Word) : Block :=
  match r with
  | 0x000 => b.writeLaneCtrl l v
  | 0x010 => b.writeFfe l v
  | 0x020 => if b.regBit (lnOff Off.lnCtrl l) 1 then b.modLane l fun x => { x with ctle := v.truncate 4 } else b
  | 0x024 => b.putSel p (laneBase l + r) v
  | 0x040 => b.writePrbs l v
  | _ => b.putReg (laneBase l + r) v

/-- A side's register written: DEPTH above 20 or RATE 7 is ignored as a whole (R72). -/
def Block.writeSide (b : Block) (sd : Side) (off : Nat) (v : Word) : Block :=
  if off = sideOff Off.lnSideSsc sd then
    if 20 < bitsAt v 0 5 ∨ bitsAt v 8 3 = 7 then b else b.writeSsc sd (bitsAt v 0 5) (bitsAt v 8 3)
  else b.putReg off v

/-- `LN_`. -/
def Block.writeLN (b : Block) (p : Path) (off : Nat) (v : Word) : Block :=
  let sd : Side := if off / 0x10000 = 4 then .west else .east
  let r := off % 0x10000
  if r < 0x4000 then b.writeLane p (laneOf sd (r / 0x400)) (r % 0x400) v else b.writeSide sd off v

/-! ### Counters cleared together -/

/-- Every counter of a list set to 0. -/
def Block.clearCounts (b : Block) (offs : List Nat) : Block := b.each offs fun b o => b.setCount o 0

/-- FW_CTRL.CNT_CLR: every fairway counter in both directions (R165). -/
def Block.clearFairway (b : Block) : Block :=
  b.clearCounts ((List.range 10).flatMap fun i => [Off.fwThruLo + 8 * i, Off.fwThruLo + 0x100 + 8 * i])

/-- QY_CTRL.CNT_CLR: every quay counter (R193). -/
def Block.clearQuay (b : Block) : Block := b.clearCounts ((List.range 8).map fun i => Off.qyAcceptLo + 8 * i)

/-- BT_CTRL.CNT_CLR: every counter of one berth (R241). -/
def Block.clearBerth (b : Block) (n : Nat) : Block := b.clearCounts ((List.range 7).map fun i => btOff Off.btPartsLo n + 8 * i)

/-- DC_CTRL.CNT_CLR: the counters of every channel (R264). -/
def Block.clearChans (b : Block) : Block :=
  b.clearCounts ((List.range 64).flatMap fun n => (List.range 4).map fun i => dcOff Off.dcActLo n + 8 * i)

/-- PR_CTRL.CNT_CLR: every protection counter (R307). -/
def Block.clearProt (b : Block) : Block := b.clearCounts ((List.range 7).map fun i => Off.prCeLo + 8 * i)

/-- CH_CTRL.CNT_CLR: the counters of every charter (R216). -/
def Block.clearCharters (b : Block) : Block :=
  b.each (b.chs.tab.map (·.1)) fun b c => b.modCharter c fun x => { x with inb := 0, dem := 0, miss := 0, panicCnt := 0, runv := 0 }

/-- ST_CTRL.CNT_CLR: every ST_COL_CE and ST_COL_REPLAY count (R283). -/
def Block.clearStack (b : Block) : Block :=
  b.each (List.range 64) fun b n => b.modCol n fun x => { x with ceNow := [], ceLast := [], replay := 0 }

/-- ST_CTRL.FENCE_CLR: the list of the berth that the path's ST_FENCE_SEL names (R279). -/
def Block.clearFence (b : Block) (p : Path) : Block :=
  b.modBerth ((b.selReg p Off.stFenceSel).toNat % 64) fun x => { x with fence := [] }

/-- PR_CTRL.ERR_CLR: the ring is empty (R307). -/
def Block.clearErrors (b : Block) : Block := { b with prot.rd := b.prot.wr }

/-- PR_ERR_RD: a place within the span from the oldest held record to PR_ERR_WR (R307). -/
def Block.writeErrRd (b : Block) (v : Word) : Block :=
  let n : BitVec 13 := v.truncate 13
  if (n - b.prot.rd).toNat ≤ b.prot.held then { b with prot.rd := n } else b

/-- SV_CTRL.LOG_CLR: every failure log (R424). -/
def Block.clearLogs (b : Block) : Block := { b with sv.logs := [] }

/-! ### The quay, its tables and its limit (R193, R213, R449) -/

/-- QY_CTRL: CNT_CLR, and TABLE_LOCK, which locks itself. -/
def Block.writeQyCtrl (b : Block) (v : Word) : Block :=
  let b := if v.getLsbD 0 then b.clearQuay else b
  if b.tablesLocked then b else b.putReg Off.qyCtrl v

/-- QY_LIMIT.BE_TAGS: above 0x4000 as 0x4000; ignored, with TAGS_REJ, where `check` would no longer hold (R213). -/
def Block.writeBeTags (b : Block) (v : Word) : Block :=
  let n := min (bitsAt v 0 15) 0x4000
  let b := b.noteUse
  match b.checkWith n false (b.actives.map (·.2)) with
  | none => b.setReg Off.qyLimit (BitVec.ofNat 32 n)
  | some _ => b.orReg Off.chAlarm 16

/-- A route or region register, or QY_CSR_SRC: RWL under TABLE_LOCK; KEY_SLOT 65 to 127 is not taken (R193). -/
def Block.writeTable (b : Block) (off : Nat) (v : Word) : Block :=
  if b.tablesLocked then b
  else if Off.qyRgnBaseLo ≤ off ∧ off % 0x20 = 0x14 then
    b.putReg off (keepUnless (decide (bitsAt v 4 7 ≤ 64)) (b.reg off) v 4 7)
  else b.putReg off v

/-- `QY_`. -/
def Block.writeQY (b : Block) (off : Nat) (v : Word) : Block :=
  if off = Off.qyCtrl then b.writeQyCtrl v
  else if off = Off.qyShare then (if 8 < bitsAt v 0 4 then b else b.putReg off v)
  else if off = Off.qyLimit then b.writeBeTags v
  else if off = Off.qyCsrSrc ∨ Off.qyRoute ≤ off then b.writeTable off v
  else b.putReg off v

/-! ### The key store over CSR (R335) -/

/-- A KS_CMD as R315 reads it: unwrapped, over a sideband path. -/
def Block.ksWork (b : Block) (v : Word) : KeyWork :=
  let kind := bitsAt v 0 2
  let erase := v.getLsbD 9
  let data := (List.range 16).flatMap fun i => leBytes (tget (fun _ => 0) b.keys.ksData i).toNat 4
  { kind := kind, slot := bitsAt v 2 7, erase := erase, wrapped := false, priv := bitsAt b.keys.ksAttr 0 2
    srcLo := bitsAt b.keys.ksAttr 2 15, srcHi := bitsAt b.keys.ksAttr 17 15
    material := if erase then [] else data.take (keyBytes kind), inBand := false }

/-- KS_CMD with GO: load or erase, KS_REJECT as the outcome, KS_DATA cleared (R335). -/
def Block.ksCmd (b : Block) (v : Word) : Block :=
  if ¬ v.getLsbD 31 then b
  else
    let w := b.ksWork v
    let r := if w.legal then b.keyWork w else (St.badParam, b.keys)
    { b with keys := { r.2 with ksData := [], ksReject := r.1 != St.ok } }

/-- KS_ZEROIZE: every entry but the per-arrival key (R335). -/
def Block.ksZeroize (b : Block) : Block := { b with keys := { b.keys with region := [], manifest := [], wrap := none } }

/-- The KS_ registers take a write: over a sideband path, and only while SIDEBAND_AUTH = 0 (R335, R447). -/
def Block.ksOpen (b : Block) (p : Path) : Bool := p != .inBand && !b.regBit Off.mfCtrl 0

/-- `KS_`. -/
def Block.writeKS (b : Block) (p : Path) (off : Nat) (v : Word) : Block :=
  if ¬ b.ksOpen p then b
  else if off < Off.ksAttr then { b with keys.ksData := tset (fun _ => 0) b.keys.ksData ((off - Off.ksData0) / 4) v }
  else if off = Off.ksAttr then { b with keys.ksAttr := v }
  else if off = Off.ksCmd then b.ksCmd v
  else if off = Off.ksZeroize ∧ v.getLsbD 0 then b.ksZeroize
  else b

/-! ### The other blocks -/

/-- MF_CTRL: its RWL fields until LOCK, which locks itself; PUSH_EN always (R8, R334, R449). -/
def Block.writeMfCtrl (b : Block) (v : Word) : Block :=
  b.putReg Off.mfCtrl v (if b.regBit Off.mfCtrl 31 then 0x8 else BitVec.allOnes 32)

/-- Four bytes of a path's mailbox. -/
def Block.writeMbox (b : Block) (p : Path) (at_ : Nat) (v : Word) : Block :=
  let x := b.mbox p
  b.setMbox p { x with data := dumpWrite x.data at_ (leBytes v.toNat 4) }

/-- `MF_`: the mailbox and window registers take no write in band (R312, R334). -/
def Block.writeMF (b : Block) (p : Path) (off : Nat) (v : Word) : Block :=
  if off = Off.mfCtrl then b.writeMfCtrl v
  else if off = Off.mfRingSel then b.putSel p off v
  else if off < Off.mfMboxDoor then b.putReg off v
  else if p = .inBand then b
  else if off = Off.mfMboxDoor then b.doorbell p v
  else if off = Off.mfRcptSel ∨ off = Off.mfRcptRing then b.putSel p off v
  else if Off.mfMboxData ≤ off ∧ off < Off.mfMboxData + 4160 then b.writeMbox p (off - Off.mfMboxData) v
  else b

/-- `CK_`: a compensation point outside ±3,200 is not taken (R363). -/
def Block.writeCK (b : Block) (p : Path) (off : Nat) (v : Word) : Block :=
  if off = Off.ckResetCtrl then (if v.getLsbD 0 then b.memRst p else b)
  else if Off.ckXtalComp0 ≤ off ∧ off < Off.ckXtalComp0 + 20 then
    (if (signedBits 16 (bitsAt v 0 16)).natAbs ≤ 3200 then b.putReg off v else b)
  else b.putReg off v

/-- FW_CTRL. -/
def Block.writeFwCtrl (b : Block) (v : Word) : Block :=
  (if v.getLsbD 0 then b.clearFairway else b).putReg Off.fwCtrl v

/-- CH_CTRL: RESTORE_HOLD 0 as 1; PANIC_ON outside 8 to 32 is not taken (R216). -/
def Block.writeChCtrl (b : Block) (v : Word) : Block :=
  let b := if v.getLsbD 0 then b.clearCharters else b
  let w := if bitsAt v 8 8 = 0 then withField v 8 8 1 else v
  let ok := decide (8 ≤ bitsAt v 16 6 ∧ bitsAt v 16 6 ≤ 32)
  b.putReg Off.chCtrl (keepUnless ok (b.reg Off.chCtrl) w 16 6)

/-- DC_CTRL: IDLE_US held to 1 to 10,000 (R264). -/
def Block.writeDcCtrl (b : Block) (v : Word) : Block :=
  let b := if v.getLsbD 0 then b.clearChans else b
  let b := if v.getLsbD 1 then b.each (List.range 64) fun b n => b.modChan n Chan.enterHot else b
  b.putReg Off.dcCtrl (withField v 8 14 (min 10000 (max 1 (bitsAt v 8 14))))

/-- ST_CTRL. -/
def Block.writeStCtrl (b : Block) (p : Path) (v : Word) : Block :=
  let b := if v.getLsbD 0 then b.clearStack else b
  let b := if v.getLsbD 2 then b.clearFence p else b
  b.putReg Off.stCtrl v

/-- HT_CTRL: GUARD below 8 is not taken; RESEED seeds the model at the next round (R386, R401). -/
def Block.writeHtCtrl (b : Block) (v : Word) : Block :=
  let b := if v.getLsbD 8 then { b with heat.seedDue := true } else b
  b.putReg Off.htCtrl (keepUnless (decide (8 ≤ bitsAt v 0 5)) (b.reg Off.htCtrl) v 0 5)

/-- TL_CTRL. -/
def Block.writeTlCtrl (b : Block) (v : Word) : Block :=
  let b := if v.getLsbD 0 then b.clearTallies else b
  if v.getLsbD 1 then b.snap else b

/-- TL_EVSEL_WRITE: each legal selector is written, and its counter and OVF bit go to 0; an illegal one is ignored
(R426, R427). -/
def Block.writeEvsel (b : Block) (blk j : Nat) (v : Word) : Block :=
  let one (b : Block) (k : Nat) : Block :=
    let sel := bitsAt v (16 * k) 16
    if selectorOk blk sel then b.writeSelector blk (2 * j + k) sel else b
  one (one b 0) 1

/-- `TL_`. -/
def Block.writeTL (b : Block) (p : Path) (off : Nat) (v : Word) : Block :=
  let r := off % 0x80
  if off = Off.tlCtrl then b.writeTlCtrl v
  else if off = Off.tlBwSel then b.putSel p off v
  else if off = Off.tlBwWindow then
    (if 1 ≤ bitsAt v 0 20 ∧ bitsAt v 0 20 ≤ 1000000 then b.putReg off v else b)
  else if Off.tlCycLo ≤ off ∧ 0x50 ≤ r ∧ r < 0x60 ∧ (off - Off.tlCycLo) / 0x80 < 69 then
    b.writeEvsel ((off - Off.tlCycLo) / 0x80) ((r - 0x50) / 4) v
  else b.putReg off v

/-- `PR_`. -/
def Block.writePR (b : Block) (p : Path) (off : Nat) (v : Word) : Block :=
  if off = Off.prCtrl then
    let b := if v.getLsbD 0 then b.clearProt else b
    if v.getLsbD 1 then b.clearErrors else b
  else if off = Off.prErrRd then b.writeErrRd v
  else if off = Off.prErrSel then b.putSel p off v
  else if off = Off.prCeWindow then b.putReg off (if bitsAt v 0 16 = 0 then 1 else v)
  else b.putReg off v

/-- The blocks in which only single fields keep to a range. -/
def Block.writeRest (b : Block) (p : Path) (off : Nat) (v : Word) : Block :=
  if off = Off.pwCtrl then b.putReg off (if bitsAt v 8 4 = 0 then withField v 8 4 1 else v)
  else if off = Off.htPcap then (if 60 ≤ bitsAt v 0 8 ∧ bitsAt v 0 8 ≤ 150 then b.putReg off v else b)
  else if off = Off.svCtrl then (if v.getLsbD 0 then b.clearLogs else b)
  else if off = Off.caCtrl then
    b.putReg off (keepUnless (decide (2 ≤ bitsAt v 0 5 ∧ bitsAt v 0 5 ≤ 20)) (b.reg off) v 0 5)
  else if off / 0x10000 = 0x10 ∨ off / 0x10000 = 0x11 ∨ off / 0x10000 = 0x12 ∨ off / 0x10000 = 0x13 then
    (if off % 0x1000 = 0 ∧ v.getLsbD 0 then b.clearBerth ((off - Off.btCtrl) / 0x1000) else b.putReg off v)
  else match regAt off with
    | some r => if r.banked then b.putSel p off v else b.putReg off v
    | none => b

/-- A register write on a path that serves it; a register whose domain is not ON takes none (R443). -/
def Block.csrWrite (b : Block) (p : Path) (offset : Nat) (v : Word) : Block :=
  let off := offset / 4 * 4
  if ¬ b.reachable off then b
  else match off / 0x10000 with
    | 0x00 => b.writeMF p off v
    | 0x01 => b.writeCK p off v
    | 0x04 | 0x05 => b.writeLN p off v
    | 0x08 => if off = Off.fwCtrl then b.writeFwCtrl v else b.putReg off v
    | 0x0C => b.writeQY off v
    | 0x14 => if off = Off.chCtrl then b.writeChCtrl v else b.writeRest p off v
    | 0x15 => if off = Off.dcCtrl then b.writeDcCtrl v else b.putReg off v
    | 0x16 => if off = Off.stCtrl then b.writeStCtrl p v else b.writeRest p off v
    | 0x18 => if off = Off.htCtrl then b.writeHtCtrl v else b.writeRest p off v
    | 0x1B => b.writeTL p off v
    | 0x1C => b.writePR p off v
    | 0x1D => b.writeKS p off v
    | _ => b.writeRest p off v

/-- A write on a path, where the path serves it. -/
def Block.writeOn (b : Block) (p : Path) (off : Nat) (v : Word) : Block := if b.serves p then b.csrWrite p off v else b

end Sys2Proof.Machine
end

