-- ==== Sys2Proof/Machine/CsrRows.lean ====
section
/-! DEFINITION. The rows that write one register, each a write of that register on its path, and CSR_ACC (R446). -/

namespace Sys2Proof.Machine

open Sys2Proof

/-- A write that sets bits of a register whose other fields keep what they hold. -/
def Block.writeBits (b : Block) (p : Path) (off : Nat) (bits : Word) : Block := b.writeOn p off (b.stored p off ||| bits)

/-- The seven bytes of a write that a transfer holds: on I3C all of it; on SMBus what stands before a good PEC, which
covers the address byte too (R445). -/
def transferBody (smbus : Bool) (addr : BitVec 7) (bytes : List Byte) : Option (List Byte) :=
  let body := if smbus then bytes.dropLast else bytes
  let whole := !smbus || bytes.getLast? == some (crc8 ((addr ++ 0#1) :: body))
  if body.length = 7 ∧ whole then some body else none

/-- A write transfer on the management bus: to the pier's own address, three bytes of offset and four of data; any other is
discarded, as is one of three bytes, which names what a read returns (R49, R445). -/
def Block.sideTransfer (b : Block) (smbus : Bool) (addr : BitVec 7) (bytes : List Byte) : Block :=
  if addr ≠ b.sideAddress then b
  else match transferBody smbus addr bytes with
    | none => b
    | some body => b.writeOn .i3c (leAt body 0 3) (BitVec.ofNat 32 (leAt body 3 4))

/-- The meaning of CSR_WRITE (R7, R8, R9, R445, R448). -/
def execCsrWrite (w : RegWrite) (s : State) : Host.Outcome State Fault Refusal :=
  s.upd fun b => match w with
    | .access p offset value => b.writeOn p offset.toNat value
    | .transfer smbus addr bytes => b.sideTransfer smbus addr bytes

/-- The meaning of TX_FFE_WRITE: LN_TX_FFE (R65). -/
def execTxFfeWrite (p : Path) (ln : LaneId) (value : Word) (s : State) : Host.Outcome State Fault Refusal :=
  s.upd (·.writeOn p (lnOff Off.lnTxFfe ln) value)

/-- The meaning of LANE_ENABLE_WRITE: LN_CTRL (R102, R407). -/
def execLaneEnableWrite (p : Path) (ln : LaneId) (value : Word) (s : State) : Host.Outcome State Fault Refusal :=
  s.upd (·.writeOn p (lnOff Off.lnCtrl ln) value)

/-- The meaning of PRBS_TX_EN: LN_PRBS_CTRL (R77). -/
def execPrbsTxEn (p : Path) (ln : LaneId) (value : Word) (s : State) : Host.Outcome State Fault Refusal :=
  s.upd (·.writeOn p (lnOff Off.lnPrbsCtrl ln) value)

/-- The meaning of PRBS_RX_EN: LN_PRBS_CTRL (R77). -/
def execPrbsRxEn (p : Path) (ln : LaneId) (value : Word) (s : State) : Host.Outcome State Fault Refusal :=
  s.upd (·.writeOn p (lnOff Off.lnPrbsCtrl ln) value)

/-- The meaning of LN_CNT_CLR: `LN_CTRL.CNT_CLR` (R80). -/
def execLnCntClr (p : Path) (ln : LaneId) (s : State) : Host.Outcome State Fault Refusal :=
  s.upd (·.writeBits p (lnOff Off.lnCtrl ln) 0x100)

/-- The meaning of LN_PRBS_CLR: `LN_PRBS_CTRL.CLR` (R80). -/
def execLnPrbsClr (p : Path) (ln : LaneId) (s : State) : Host.Outcome State Fault Refusal :=
  s.upd (·.writeBits p (lnOff Off.lnPrbsCtrl ln) 0x100)

/-- The meaning of FW_CNT_CLR (R165). -/
def execFwCntClr (p : Path) (s : State) : Host.Outcome State Fault Refusal := s.upd (·.writeBits p Off.fwCtrl 1)

/-- The meaning of QY_CNT_CLR (R193). -/
def execQyCntClr (p : Path) (s : State) : Host.Outcome State Fault Refusal := s.upd (·.writeBits p Off.qyCtrl 1)

/-- The meaning of TABLE_LOCK (R449). -/
def execTableLock (p : Path) (s : State) : Host.Outcome State Fault Refusal := s.upd (·.writeBits p Off.qyCtrl 2)

/-- The meaning of MF_LOCK: MF_CTRL (R449). -/
def execMfLock (p : Path) (value : Word) (s : State) : Host.Outcome State Fault Refusal :=
  s.upd (·.writeOn p Off.mfCtrl value)

/-- The meaning of BE_TAGS_WRITE: QY_LIMIT (R213). -/
def execBeTagsWrite (p : Path) (value : Word) (s : State) : Host.Outcome State Fault Refusal :=
  s.upd (·.writeOn p Off.qyLimit value)

/-- The meaning of CH_CNT_CLR (R216). -/
def execChCntClr (p : Path) (s : State) : Host.Outcome State Fault Refusal := s.upd (·.writeBits p Off.chCtrl 1)

/-- The meaning of BT_CNT_CLR (R241). -/
def execBtCntClr (p : Path) (ch : ChId) (s : State) : Host.Outcome State Fault Refusal :=
  s.upd (·.writeBits p (btOff Off.btCtrl ch) 1)

/-- The meaning of DC_CNT_CLR (R264). -/
def execDcCntClr (p : Path) (s : State) : Host.Outcome State Fault Refusal := s.upd (·.writeBits p Off.dcCtrl 1)

/-- The meaning of ST_CNT_CLR (R283). -/
def execStCntClr (p : Path) (s : State) : Host.Outcome State Fault Refusal := s.upd (·.writeBits p Off.stCtrl 1)

/-- The meaning of FENCE_CLR (R279). -/
def execFenceClr (p : Path) (s : State) : Host.Outcome State Fault Refusal := s.upd (·.writeBits p Off.stCtrl 4)

/-- The meaning of PR_CNT_CLR (R307). -/
def execPrCntClr (p : Path) (s : State) : Host.Outcome State Fault Refusal := s.upd (·.writeBits p Off.prCtrl 1)

/-- The meaning of ERR_CLR (R307). -/
def execErrClr (p : Path) (s : State) : Host.Outcome State Fault Refusal := s.upd (·.writeBits p Off.prCtrl 2)

/-- The meaning of PR_ERR_RD_WRITE (R295). -/
def execPrErrRdWrite (p : Path) (value : Word) (s : State) : Host.Outcome State Fault Refusal :=
  s.upd (·.writeOn p Off.prErrRd value)

/-- The meaning of KS_LOAD: a KS_CMD with ERASE 0 (R335). -/
def execKsLoad (p : Path) (value : Word) (s : State) : Host.Outcome State Fault Refusal :=
  s.upd (·.writeOn p Off.ksCmd (value &&& ~~~ 0x200))

/-- The meaning of KS_ERASE: a KS_CMD with ERASE 1 (R335). -/
def execKsErase (p : Path) (value : Word) (s : State) : Host.Outcome State Fault Refusal :=
  s.upd (·.writeOn p Off.ksCmd (value ||| 0x200))

/-- The meaning of KS_ZEROIZE (R335). -/
def execKsZeroize (p : Path) (s : State) : Host.Outcome State Fault Refusal := s.upd (·.writeOn p Off.ksZeroize 1)

/-- The meaning of MEM_RST: `CK_RESET_CTRL.MEM_RST` (R356). -/
def execMemRst (p : Path) (s : State) : Host.Outcome State Fault Refusal := s.upd (·.writeOn p Off.ckResetCtrl 1)

/-- The meaning of RESEED (R386). -/
def execReseed (p : Path) (s : State) : Host.Outcome State Fault Refusal := s.upd (·.writeBits p Off.htCtrl 0x100)

/-- The meaning of LOG_CLR (R424). -/
def execLogClr (p : Path) (s : State) : Host.Outcome State Fault Refusal := s.upd (·.writeOn p Off.svCtrl 1)

/-- The meaning of TL_CNT_CLR (R440). -/
def execTlCntClr (p : Path) (s : State) : Host.Outcome State Fault Refusal := s.upd (·.writeOn p Off.tlCtrl 1)

/-- The meaning of SNAP (R429). -/
def execSnap (p : Path) (s : State) : Host.Outcome State Fault Refusal := s.upd (·.writeOn p Off.tlCtrl 2)

/-- The meaning of TL_EVSEL_WRITE (R426). -/
def execTlEvselWrite (p : Path) (block : Fin 69) (j : Fin 4) (value : Word) (s : State) :
    Host.Outcome State Fault Refusal :=
  s.upd (·.writeOn p (tlOff Off.tlEvsel block + 4 * j) value)

/-! ### CSR_ACC (R446) -/

/-- What a capture of the CSR_ACC data register returns: STATUS over the read data. -/
def captured (status : Nat) (data : Word) : BitVec 57 := BitVec.ofNat 57 (status * 2 ^ 32 + data.toNat)

/-- Update-DR of CSR_ACC: OFFSET[23:2] at [55:34], WRITE at [56]; unavailable in FROZEN and in scan; in DARK, and with
VDD_IO low, JTAG does not answer (R38). -/
def Block.csrAcc (b : Block) (dr : BitVec 57) : Block :=
  if b.pw.st = .dark ∨ b.pins.railsLow.contains .io then b
  else if b.pw.st = .frozen ∨ b.sv.inScan then { b with jtagDr := captured 2 0 }
  else
    let off := dr.toNat / 2 ^ 34 % 2 ^ 22 * 4
    if dr.getLsbD 56 then { b.csrWrite .jtag off (dr.truncate 32) with jtagDr := captured 0 0 }
    else
      let b := b.readOn .jtag off 0
      { b with jtagDr := captured 0 (tget (fun _ => 0) b.rdData (pathNo .jtag)) }

/-- The meaning of CSR_ACC. -/
def execCsrAcc (dr : BitVec 57) (s : State) : Host.Outcome State Fault Refusal := s.upd (·.csrAcc dr)

end Sys2Proof.Machine
end

