-- ==== Sys2Proof/Machine/Requests.lean ====
section
/-! DEFINITION. The rows of the request opcodes: the quay's decision (R166 to R175), and the register bridge of READ
and WRITE with CSR = 1 (R172). -/

namespace Sys2Proof.Machine

open Sys2Proof

/-- The bridge serves an accepted register access: best effort, one quay tag, a READ's value in ARG (R172, R173). -/
def Block.bridge (b : Block) (sd : Side) (op : Op) (f : Flit) : Block :=
  let id := b.qy.nextId
  let r : Req := { id := id, op := op, sd := sd, f := f, cls := .be, quayIn := b.qy.claimAt }
  let b := { b with qy.nextId := id + 1, qy.reqs := b.qy.reqs ++ [r] }
  let b := ((b.noteTags).bump Off.qyAcceptLo).tally quayBlk 0x081 [0, Cls.be.filter] 1
  let off := f.offset.toNat
  if op = .write then (b.csrWrite .inBand off f.arg).endReq r 6 { status := St.ok, len := 0 }
  else
    let b := b.readOn .inBand off 0
    b.endReq r 6 { status := St.ok, len := 0, arg := (tget (fun _ => 0) b.rdData (pathNo .inBand)).toNat }

/-- The decision of a claimed register access (R172, R174): the source, the header, the state, a tag. -/
def Block.decideCsr (b : Block) (sd : Side) (op : Op) (f : Flit) : Block :=
  if ¬ b.csrSourceOk f.src.toNat then b.refuse sd f St.accessDenied
  else if ¬ csrWellFormed (op == .read) f then b.refuse sd f St.badParam
  else if b.pw.st = .departure then b.refuse sd f St.busyRetry
  else if ¬ b.looseTags 1 then (b.orReg Off.qyAlarm 32).refuse sd f St.busyRetry
  else b.bridge sd op f

/-- A claimed READ or WRITE: of a register with CSR = 1, of memory otherwise. -/
def Block.takeAccess (b : Block) (sd : Side) (op : Op) (f : Flit) : Block :=
  if f.csr then
    if f.kind ≠ 1 ∨ f.opcode.toNat ≠ op.code ∨ ¬ b.decides then b
    else (b.takeClaimed sd f).decideCsr sd op f
  else b.takeReq sd op f

/-- The meaning of READ. -/
def execRead (sd : Side) (f : Flit) (s : State) : Host.Outcome State Fault Refusal := s.upd (·.takeAccess sd .read f)

/-- The meaning of WRITE. -/
def execWrite (sd : Side) (f : Flit) (s : State) : Host.Outcome State Fault Refusal := s.upd (·.takeAccess sd .write f)

/-- The meaning of WRITE_BYTES. -/
def execWriteBytes (sd : Side) (f : Flit) (s : State) : Host.Outcome State Fault Refusal := s.upd (·.takeReq sd .writeBytes f)

/-- The meaning of ATOMIC. -/
def execAtomic (sd : Side) (f : Flit) (s : State) : Host.Outcome State Fault Refusal := s.upd (·.takeReq sd .atomic f)

/-- The meaning of REDUCE. -/
def execReduce (sd : Side) (f : Flit) (s : State) : Host.Outcome State Fault Refusal := s.upd (·.takeReq sd .reduce f)

/-- The meaning of GATHER. -/
def execGather (sd : Side) (f : Flit) (s : State) : Host.Outcome State Fault Refusal := s.upd (·.takeReq sd .gather f)

/-- The meaning of SCATTER. -/
def execScatter (sd : Side) (f : Flit) (s : State) : Host.Outcome State Fault Refusal := s.upd (·.takeReq sd .scatter f)

/-- The meaning of FILL. -/
def execFill (sd : Side) (f : Flit) (s : State) : Host.Outcome State Fault Refusal := s.upd (·.takeReq sd .fill f)

/-- The meaning of FIND. -/
def execFind (sd : Side) (f : Flit) (s : State) : Host.Outcome State Fault Refusal := s.upd (·.takeReq sd .find f)

/-- The meaning of COPY_LOCAL. -/
def execCopyLocal (sd : Side) (f : Flit) (s : State) : Host.Outcome State Fault Refusal := s.upd (·.takeReq sd .copyLocal f)

/-- The meaning of COPY_REMOTE. -/
def execCopyRemote (sd : Side) (f : Flit) (s : State) : Host.Outcome State Fault Refusal := s.upd (·.takeReq sd .copyRemote f)

/-- The meaning of FENCE. -/
def execFence (sd : Side) (f : Flit) (s : State) : Host.Outcome State Fault Refusal := s.upd (·.takeReq sd .fence f)

end Sys2Proof.Machine
end

