-- ==== Sys2Proof/Machine/Rows.lean ====
section
/-! DEFINITION. The row stream of a running segment: the transmitter, received control rows, the switch of a REFORM
(R89 to R91, R95 to R98, R114, R129 to R131, R134, R152, R155). -/

namespace Sys2Proof.Machine

open Sys2Proof

/-! ### The transmitter's row stream (R90, R91) -/

/-- A codeword pair cut from the row bits as soon as they fill one, and dealt to the `w` logical lanes (R91); a quiet slot
that waits mutes every lane at this boundary, and the symbol count stands still meanwhile (R130). -/
def SideSt.cutPair (w : Nat) (x : SideSt) : SideSt :=
  if pairBits ≤ x.txBits.length then
    let pair := codewordPair (x.txBits.take pairBits)
    { x with
      txPair := pair, txDealt := (List.range w).map fun k => dealt w x.txSym k pair, txBits := x.txBits.drop pairBits
      txSym := x.txSym + 1088, txMuted := x.muteDue, muteDue := false }
  else x

/-- One block of the row stream. -/
def SideSt.pushBlock (w : Nat) (x : SideSt) (k : LaneBlock) : SideSt := { x with txBits := x.txBits ++ blockBits k }.cutPair w

/-- What logical lane `k` sends of the last codeword pair: its symbols as line levels (R57, R91). -/
def SideSt.laneLevels (x : SideSt) (k : Nat) : List Int := levelsOf x.grade ((x.txDealt.getD k []).flatMap symbolBits)

/-- The control row that is due at the next row boundary. -/
inductive CtlDue where
  | none | train | fill | quiet
  deriving DecidableEq, Repr

/-- The 32 bytes of a control row at a flit phase: the first waiting message, or FILL with ROW, SPREAD and HOLD (R88, R89,
R114).  Every lane carries the same block, so a TRAIN row's byte 6 gives the lane and role of logical lane 0, `who`
(DEDUCED; log 84). -/
def SideSt.ctlRow (x : SideSt) (who : Nat × Bool) (hold : Bool) (phase : Nat) : CtlDue → Option (List Byte)
  | .train => x.ctl.head?.map fun e =>
      ctlBytes ctlTrain (BitVec.ofNat 8 phase) (trainBody e.2.wire.1 e.1 who.1 x.grade.val who.2 e.2.wire.2)
  | .fill => some (ctlBytes ctlFill (BitVec.ofNat 8 phase) (fillBody x.txRow x.spread hold))
  | _ => none

/-- The waiting message leaves in its control row: a REFORM's countdown starts with it (R134). -/
def SideSt.msgLeft (x : SideSt) : SideSt :=
  { x with
    ctl := x.ctl.drop 1
    reformAt := match x.ctl.head? with
      | some (_, .reform m _) => if x.reform = some m then some x.txRow else x.reformAt
      | _ => x.reformAt }

/-- A control row leaves on `w` lanes; a quiet slot takes a FILL row's place, which is no row: `txCtl` holds no bytes for
it, and the mute waits for the next pair boundary (R90, R97, R114, R130). -/
def SideSt.sendCtl (x : SideSt) (w : Nat) (who : Nat × Bool) (hold : Bool) (phase : Nat) (k : CtlDue) : SideSt :=
  match x.ctlRow who hold phase k with
  | some bs =>
    let x := (List.range w).foldl (fun x _ => x.pushBlock w { header := hdrControl, payload := bs }) x
    let x := if k = .train then x.msgLeft else x
    { x with txCtl := some bs, txRow := x.txRow + 1, txSince := 0 }
  | none => if k = .quiet then { x with mute := x.mute - 1, muteDue := true, txCtl := some [], txSince := 0 } else x

/-- How many blocks until the row that stands at position `pos` of `w` is full, within the nine of a flit. -/
def rowEnd (w pos : Nat) : Option Nat := if 0 < w ∧ w - pos ≤ 9 then some (w - pos) else none

/-- One data block of a flit; a row that it fills is counted, and the control row that is due follows it, at the phase
of the blocks already sent (R90). -/
def SideSt.sendData (w : Nat) (who : Nat × Bool) (hold : Bool) (k : CtlDue) (f : Flit) (x : SideSt) (j : Nat) : SideSt :=
  let x := x.pushBlock w (flitBlock f j)
  let x := { x with txPos := if w = 0 then 0 else (x.txPos + 1) % w }
  if x.txPos ≠ 0 then x
  else
    let x := { x with txRow := x.txRow + 1, txSince := x.txSince + 1 }
    if x.txCtl.isNone then x.sendCtl w who hold ((j + 1) % 9) k else x

/-- The nine data blocks of a flit (R90). -/
def SideSt.sendFlit (x : SideSt) (w : Nat) (who : Nat × Bool) (hold : Bool) (k : CtlDue) (f : Flit) : SideSt :=
  (List.range 9).foldl (SideSt.sendData w who hold k f) x

/-! ### FLIT_SEND -/

/-- Logical lane 0 of a direction, by its number and role (R90, R112). -/
def Block.rowSender (b : Block) (out : Side) (order : List Nat) : Nat × Bool :=
  let l := order.headD (laneOf out 0)
  (laneIx l, (b.lane l).answerer == some true)

/-- A MOVE has left in its control row, and the segment leaves RUN for its grade (R121, R163); what left last is as it was. -/
def Block.moveLeft (b : Block) (out : Side) : Block :=
  match (b.side out).moveOut with
  | some g =>
    if (b.side out).ctl.any fun e => match e.2 with
      | .move _ => true
      | _ => false then b
    else ((b.moveNow out g (b.side out).lowered).purgeSide out).modSide out fun x =>
      { x with tx := (b.side out).tx, txCtl := (b.side out).txCtl }
  | none => b

/-- What a control row of a kind counts as it leaves; the partner's window ends with its last slot (R98, R129, R427), and
a MOVE takes the segment with it (R121). -/
def Block.ctlLeft (b : Block) (out : Side) (k : CtlDue) : Block :=
  match k with
  | .train => b.moveLeft out
  | .quiet =>
    let b := b.tally (sideBlk out) 0x046 (b.laneFilters out) 1
    if (b.side out).mute = 0 then b.muteDone out else b
  | .fill => b.tally (sideBlk out) 0x043 (b.laneFilters out) 1
  | _ => b

/-- A flit leaves, with the control row that is due inside it where a row ends there (R90, R155). -/
def Block.putFlit (b : Block) (out : Side) (k : CtlDue) (f : Flit) (t : TxItem) : Block :=
  let s := b.side out
  let order := lanesOf out (b.txMask out)
  let who := b.rowSender out order
  let k := if (rowEnd order.length s.txPos).isSome then k else .none
  let hold := b.holdOut out
  let b := if f.kind = 0 then b else b.countBlocks out order s.txPos 0x041 32
  let b := b.modSide out fun x =>
    { x with txCtl := none }.sendFlit order.length who hold k f
  (b.modSide out fun x => { x with tx := some t }).ctlLeft out k

/-- A control row leaves at a flit boundary that is also a row boundary. -/
def Block.putCtl (b : Block) (out : Side) (k : CtlDue) : Block :=
  let order := lanesOf out (b.txMask out)
  let who := b.rowSender out order
  let hold := b.holdOut out
  let b := b.modSide out fun x => { x with txCtl := none }.sendCtl order.length who hold 0 k
  let b := b.modSide out fun x =>
    { x with tx := match k, x.txCtl with
        | .train, some bs => some (.trainRow bs)
        | .fill, some bs => some (.fillRow bs)
        | .quiet, some _ => some .quietSlot
        | _, _ => x.tx }
  b.ctlLeft out k

/-- FLIT_SEND: what leaves at a flit boundary toward a side (R97, R98, R114, R130, R155).  A waiting segment message goes
first, in a row of its own that takes a FILL row's place or is inserted.  With a flit in the buffer a FILL row that is
due is omitted.  With none the FILL row goes, or the quiet slot in its place, and otherwise an idle flit, which is a slot
for the quay and counts in R127's floors (DEDUCED from R163's row 1 and R98; log 85).  A control row can only follow a
whole row (R90): at a flit boundary inside a row it goes at the row's end, inside the flit (DEDUCED; log 84). -/
def Block.flitSend (b : Block) (out : Side) : Block :=
  let dir := otherSide out
  if ¬ b.carries ∨ ¬ (b.side out).sends ∨ ¬ b.directionUp dir then b
  else
    let b := b.tryAsk out
    let s := b.side out
    let due := decide (s.cadence ≤ s.txSince)
    let msg := !s.ctl.isEmpty
    if msg ∧ s.txPos = 0 then b.putCtl out .train
    else match (b.fw dir).buf with
      | f :: rest =>
        let b := b.modFw dir fun x => { x with buf := rest }
        let b := if due then
            ((b.modSide out fun x => { x with txSince := 0 }).bump (fwOff Off.fwFillOmitLo dir)).tally (fwBlk dir) 0x066 [0] 1
          else b
        b.putFlit out (if msg then .train else .none) f (.flit f)
      | [] =>
        let k : CtlDue := if msg then .train else if due then (if 0 < s.mute then .quiet else .fill) else .none
        if k ≠ .none ∧ s.txPos = 0 then b.putCtl out k
        else
          match b.offerSlot out with
          | (b, some f) => (b.noteSlot out false).putFlit out k f (.flit f)
          | (b, none) => (b.noteSlot out true).putFlit out k idleFlit .idleFlit

/-- The meaning of FLIT_SEND. -/
def execFlitSend (sd : Side) (s : State) : Host.Outcome State Fault Refusal := s.upd (·.flitSend sd)

/-! ### Received control rows (R88, R89, R95, R96, R131) -/

/-- A slot is muted: every working lane shows every sample within 0.5 of the level unit (R131). -/
def Block.mutedSlot (b : Block) (sd : Side) (slot : List SlotObs) : Bool :=
  (b.side sd).win.isSome && decide ((b.rxOrder sd).length ≤ slot.length) && !slot.isEmpty
    && slot.all fun o => decide (o.peak ≤ 50)

/-- The lanes whose good FILL block carries another ROW than the receiver's count (R95). -/
def Block.rowDiffers (b : Block) (sd : Side) (row : BitVec 16) (blks : List (Fin 16 × List Byte)) : List Nat :=
  let m := b.rxMask sd
  blks.filterMap fun e =>
    match parseCtl e.2 with
    | some c => if c.typ = ctlFill ∧ m.getLsbD e.1.val ∧ leAt c.body 0 2 ≠ row.toNat then some (laneOf sd e.1.val) else none
    | none => none

/-- The row's flit phase checked against the receiver's (R96): one that differs is ignored; at a second in succession the
receiver adopts its phase and hands the flits between the two on as bad; the third such resync within 1 ms retrains the
segment. -/
def Block.checkPhase (b : Block) (sd : Side) (own sent : Nat) (between : List Flit) : Block :=
  let s := b.side sd
  if sent = own then b.modSide sd fun x => { x with phaseBad := 0, rxPhase := own }
  else if s.phaseBad = 0 then b.modSide sd fun x => { x with phaseBad := 1, rxPhase := own }
  else
    let b := between.foldl (fun b f => b.handBad sd f []) b
    let recent := s.resyncs.filter fun t => decide (b.since t < msTicks)
    if recent.length ≥ 2 then b.retrainSide sd 0 false
    else b.modSide sd fun x => { x with phaseBad := 0, rxPhase := sent % 9, resyncs := recent ++ [b.ck.tide] }

/-- A segment message in a TRAIN row is that message's own (R113, R114); a lane message or a reserved code is ignored. -/
def Block.rowMsg (b : Block) (sd : Side) (body : List Byte) : Block :=
  match parseSeg body with
  | some (q, .cap c) => b.takeCap sd q c
  | some (q, .commit c) => b.takeCommit sd q c
  | some (q, .reform m _) => b.takeReform sd q m
  | some (q, .move g) => b.takeMove sd q g
  | some (q, .window what units) => b.takeWindow sd none q what units
  | _ => b

/-- FILL_ROW: a muted slot counts toward the pier's window.  Otherwise a control row, `rows` data rows after the last
one, with the block of each lane: it is counted whatever it holds, its first good copy gives phase, HOLD and SPREAD or a
message, and a lane whose ROW differs has lost block lock (R88 to R90, R95, R96, R114, R131). -/
def Block.fillRow (b : Block) (sd : Side) (rows : Nat) (blks : List (Fin 16 × List Byte)) (slot : List SlotObs)
    (between : List Flit) : Block :=
  let s := b.side sd
  let mask := b.rxMask sd
  if !s.receives then b
  else if b.mutedSlot sd slot then b.quietSlot sd slot
  else
    let row := s.row + BitVec.ofNat 16 rows
    let own := (s.rxPhase + rows * (lanesOf sd mask).length) % 9
    let b := b.modSide sd fun x => { x with row := row + 1 }
    match blks.findSome? fun e => if mask.getLsbD e.1.val then parseCtl e.2 else none with
    | none => b.modSide sd fun x => { x with rxPhase := own }
    | some c =>
      let b := b.each (b.rowDiffers sd row blks) Block.loseLock
      let b :=
        if c.typ = ctlFill then
          (b.modSide sd fun x => { x with peerHold := (c.body.getD 3 0).getLsbD 0, fillSpread := c.body.getD 2 0 }).tally
            (sideBlk sd) 0x042 (b.laneFilters sd) 1
        else b.rowMsg sd c.body
      if (b.side sd).receives then b.checkPhase sd own c.phase.toNat between else b

/-- The meaning of FILL_ROW; `between` are the flits of the segment that the lane layer still holds back when the row
comes. -/
def execFillRow (sd : Side) (rows : Nat) (blks : List (Fin 16 × List Byte)) (slot : List SlotObs) (between : List Flit)
    (s : State) : Host.Outcome State Fault Refusal :=
  s.upd (·.fillRow sd rows blks slot between)

/-! ### The switch of a REFORM (R134) -/

/-- Both directions have switched: the segment runs on the new lane set.  Dropped lanes hunt warm at the segment's
grade, added QUIET lanes hunt warm first (R102, R135, R136). -/
def Block.reformDone (b : Block) (sd : Side) (m : BitVec 16) : Block :=
  let s := b.side sd
  let b := b.endWindow sd
  let b := b.each (sideLanes sd) fun b l =>
    let x := b.lane l
    if m.getLsbD (laneIx l) then
      match x.st with
      | .train =>
        if x.passed then (b.modLane l fun x => { x with st := .run, msg := .idle, txIdle := false, retraining := false }).laneRun l else b
      | .quiet => (b.startHunt l s.grade true).modLane l fun x => { x with retraining := true, attempts := 0 }
      | _ => b
    else if x.inRun then
      (b.startHunt l s.grade true).modLane l fun y => { y with retraining := true, attempts := 0 }
    else b
  let run := (sideLanes sd).filter fun l => (b.lane l).inRun
  if run.isEmpty then (b.warmSide sd).purgeSide sd
  else
    let b := b.modSide sd fun x =>
      { x with mask := maskOf run, reform := none, reformOut := none, reformTx := false, reformRx := false, reformAt := none }
    (((b.resizeSide sd).wakeWaiter sd).checkOpen).noteQuay

/-- One direction of a segment restarts on the new lane set: the pier's own, or the partner's (R134). -/
def SideSt.restart (x : SideSt) (own : Bool) : SideSt :=
  if own then { x with reformTx := true, txRow := 0, txSince := 0, txPos := 0, txBits := [], txSym := 0 }
  else { x with reformRx := true, row := 0, rxPhase := 0, rxPos := 0, phaseBad := 0 }

/-- The flit that the partner's switch cut is handed on as bad (R152). -/
def Block.handCut (b : Block) (sd : Side) (own : Bool) (cut : Option (Flit × List (Fin 9))) : Block :=
  match own, cut with
  | false, some (f, gone) => b.handBad sd f gone
  | _, _ => b

/-- The pier's own REFORM has counted its 16 rows (R134). -/
def SideSt.reformOver (x : SideSt) : Bool :=
  match x.reformAt with
  | some r => decide (16 ≤ (x.txRow - r).toNat)
  | none => false

/-- REFORM_SWITCH: one direction's countdown ends and it restarts at ROW and symbol 0; in the partner's, the flit that the
switch cut is handed on as bad (R134, R152).  With both directions switched the new lane set counts. -/
def Block.reformSwitch (b : Block) (sd : Side) (own : Bool) (cut : Option (Flit × List (Fin 9))) : Block :=
  match (b.side sd).reform with
  | none => b
  | some m =>
    if (b.side sd).seg != .run || (own && ((b.side sd).reformTx || !(b.side sd).reformOver)) then b
    else
      let b := (b.modSide sd (·.restart own)).handCut sd own cut
      if (b.side sd).reformTx ∧ (b.side sd).reformRx then b.reformDone sd m else b

/-- The meaning of REFORM_SWITCH. -/
def execReformSwitch (sd : Side) (own : Bool) (cut : Option (Flit × List (Fin 9))) (s : State) :
    Host.Outcome State Fault Refusal :=
  s.upd (·.reformSwitch sd own cut)

end Sys2Proof.Machine
end

