-- ==== Sys2Proof/Machine/Dispatch.lean ====
section
/-! DEFINITION. The dispatcher: one arm per command, each a direct call of that command's meaning. -/

namespace Sys2Proof.Machine

open Sys2Proof

def exec (i : Instr) (s : State) : Host.Outcome State Fault Refusal :=
  match i with
  | .porstNLow => Sys2Proof.Machine.execPorstNLow s
  | .porstNRise strap bts board => Sys2Proof.Machine.execPorstNRise strap bts board s
  | .aonPowerOnReset => Sys2Proof.Machine.execAonPowerOnReset s
  | .wrstNFall => Sys2Proof.Machine.execWrstNFall s
  | .wrstNRise strap bts board => Sys2Proof.Machine.execWrstNRise strap bts board s
  | .pwrReqNLow => Sys2Proof.Machine.execPwrReqNLow s
  | .freezeNFall => Sys2Proof.Machine.execFreezeNFall s
  | .trstNLow => Sys2Proof.Machine.execTrstNLow s
  | .railUv r => Sys2Proof.Machine.execRailUv r s
  | .railRecovery r => Sys2Proof.Machine.execRailRecovery r s
  | .referencePresent sd => Sys2Proof.Machine.execReferencePresent sd s
  | .xtalFail aonDead hkDead => Sys2Proof.Machine.execXtalFail aonDead hkDead s
  | .rootLost aonDead hkDead => Sys2Proof.Machine.execRootLost aonDead hkDead s
  | .lanePllFail sd refLost => Sys2Proof.Machine.execLanePllFail sd refLost s
  | .rcFail => Sys2Proof.Machine.execRcFail s
  | .relockAttempt p => Sys2Proof.Machine.execRelockAttempt p s
  | .relockSuccess p calPass lost flight => Sys2Proof.Machine.execRelockSuccess p calPass lost flight s
  | .relockAttemptFail p => Sys2Proof.Machine.execRelockAttemptFail p s
  | .bootDone dir0 dir1 imgA imgB root => Sys2Proof.Machine.execBootDone dir0 dir1 imgA imgB root s
  | .arrivalPllLock => Sys2Proof.Machine.execArrivalPllLock s
  | .chartReadDone => Sys2Proof.Machine.execChartReadDone s
  | .arrivalSurveyDone f => Sys2Proof.Machine.execArrivalSurveyDone f s
  | .channelFillDone ch => Sys2Proof.Machine.execChannelFillDone ch s
  | .linkRetry sd => Sys2Proof.Machine.execLinkRetry sd s
  | .powerGood d => Sys2Proof.Machine.execPowerGood d s
  | .domainPowerFail d => Sys2Proof.Machine.execDomainPowerFail d s
  | .drainDone d => Sys2Proof.Machine.execDrainDone d s
  | .huntBurst ln => Sys2Proof.Machine.execHuntBurst ln s
  | .huntTimeout ln => Sys2Proof.Machine.execHuntTimeout ln s
  | .blockLock ln grade blocks => Sys2Proof.Machine.execBlockLock ln grade blocks s
  | .blockLockLoss ln headers => Sys2Proof.Machine.execBlockLockLoss ln headers s
  | .polarityTimeout ln => Sys2Proof.Machine.execPolarityTimeout ln s
  | .huntAnswerTimer ln => Sys2Proof.Machine.execHuntAnswerTimer ln s
  | .hello ln seq roleA grade msg => Sys2Proof.Machine.execHello ln seq roleA grade msg s
  | .lockWindowEnd ln own ui signalUi erle => Sys2Proof.Machine.execLockWindowEnd ln own ui signalUi erle s
  | .lockTimeout ln => Sys2Proof.Machine.execLockTimeout ln s
  | .window sd lane seq what units => Sys2Proof.Machine.execWindow sd lane seq what units s
  | .windowAbandon sd => Sys2Proof.Machine.execWindowAbandon sd s
  | .ecDrift ln erle => Sys2Proof.Machine.execEcDrift ln erle s
  | .tapReq ln seq tap act => Sys2Proof.Machine.execTapReq ln seq tap act s
  | .tapRsp ln seq status => Sys2Proof.Machine.execTapRsp ln seq status s
  | .tapReqTimeout ln => Sys2Proof.Machine.execTapReqTimeout ln s
  | .tapDone ln seq pass fom => Sys2Proof.Machine.execTapDone ln seq pass fom s
  | .trainTimeout ln => Sys2Proof.Machine.execTrainTimeout ln s
  | .cap sd seq c => Sys2Proof.Machine.execCap sd seq c s
  | .commit sd seq c => Sys2Proof.Machine.execCommit sd seq c s
  | .start sd own skew => Sys2Proof.Machine.execStart sd own skew s
  | .move sd seq grade => Sys2Proof.Machine.execMove sd seq grade s
  | .reform sd seq mask countdown => Sys2Proof.Machine.execReform sd seq mask countdown s
  | .reformSwitch sd own cut => Sys2Proof.Machine.execReformSwitch sd own cut s
  | .prbs ln seq pattern ms => Sys2Proof.Machine.execPrbs ln seq pattern ms s
  | .lanePrbsEnd ln bits errors => Sys2Proof.Machine.execLanePrbsEnd ln bits errors s
  | .fillRow sd rows blks slot between => Sys2Proof.Machine.execFillRow sd rows blks slot between s
  | .los ln mv => Sys2Proof.Machine.execLos ln mv s
  | .lol ln phaseErr ppm => Sys2Proof.Machine.execLol ln phaseErr ppm s
  | .degradeCheck ln corrected bits uncorrectable => Sys2Proof.Machine.execDegradeCheck ln corrected bits uncorrectable s
  | .degradedClear ln => Sys2Proof.Machine.execDegradedClear ln s
  | .degradedTimeout ln => Sys2Proof.Machine.execDegradedTimeout ln s
  | .flitArrive sd f gone parityErr cws cycles => Sys2Proof.Machine.execFlitArrive sd f gone parityErr cws cycles s
  | .flitSend sd => Sys2Proof.Machine.execFlitSend sd s
  | .read sd f => Sys2Proof.Machine.execRead sd f s
  | .write sd f => Sys2Proof.Machine.execWrite sd f s
  | .writeBytes sd f => Sys2Proof.Machine.execWriteBytes sd f s
  | .atomic sd f => Sys2Proof.Machine.execAtomic sd f s
  | .reduce sd f => Sys2Proof.Machine.execReduce sd f s
  | .gather sd f => Sys2Proof.Machine.execGather sd f s
  | .scatter sd f => Sys2Proof.Machine.execScatter sd f s
  | .fill sd f => Sys2Proof.Machine.execFill sd f s
  | .find sd f => Sys2Proof.Machine.execFind sd f s
  | .copyLocal sd f => Sys2Proof.Machine.execCopyLocal sd f s
  | .copyRemote sd f => Sys2Proof.Machine.execCopyRemote sd f s
  | .fence sd f => Sys2Proof.Machine.execFence sd f s
  | .credit sd f => Sys2Proof.Machine.execCredit sd f s
  | .remoteCompletion sd f => Sys2Proof.Machine.execRemoteCompletion sd f s
  | .creditReturn sd src => Sys2Proof.Machine.execCreditReturn sd src s
  | .creditStall sd => Sys2Proof.Machine.execCreditStall sd s
  | .remoteWriteTimeout tag => Sys2Proof.Machine.execRemoteWriteTimeout tag s
  | .commitGate req badPart => Sys2Proof.Machine.execCommitGate req badPart s
  | .beWithdraw req => Sys2Proof.Machine.execBeWithdraw req s
  | .charterWithdraw req => Sys2Proof.Machine.execCharterWithdraw req s
  | .fillHoldTimeout req => Sys2Proof.Machine.execFillHoldTimeout req s
  | .partArrive req part => Sys2Proof.Machine.execPartArrive req part s
  | .commandIssue ch dmg faultyCa parityErr => Sys2Proof.Machine.execCommandIssue ch dmg faultyCa parityErr s
  | .partDone req part dmg parityErr => Sys2Proof.Machine.execPartDone req part dmg parityErr s
  | .refreshTick ch faultyCa => Sys2Proof.Machine.execRefreshTick ch faultyCa s
  | .refreshPullIn ch faultyCa => Sys2Proof.Machine.execRefreshPullIn ch faultyCa s
  | .refpbPass ch completes => Sys2Proof.Machine.execRefpbPass ch completes s
  | .srIdleTimer ch => Sys2Proof.Machine.execSrIdleTimer ch s
  | .srEntryDone ch => Sys2Proof.Machine.execSrEntryDone ch s
  | .srExitDone ch lost edge => Sys2Proof.Machine.execSrExitDone ch lost edge s
  | .caAlert ch back coils => Sys2Proof.Machine.execCaAlert ch back coils s
  | .returnClockLost lost edge => Sys2Proof.Machine.execReturnClockLost lost edge s
  | .drstRelease => Sys2Proof.Machine.execDrstRelease s
  | .dieResetCalDone pass flight => Sys2Proof.Machine.execDieResetCalDone pass flight s
  | .srstRelease => Sys2Proof.Machine.execSrstRelease s
  | .stackColumnTestDone pass flight => Sys2Proof.Machine.execStackColumnTestDone pass flight s
  | .memRstRelease calPass lost flight => Sys2Proof.Machine.execMemRstRelease calPass lost flight s
  | .scrubDone dmg => Sys2Proof.Machine.execScrubDone dmg s
  | .watchRound r => Sys2Proof.Machine.execWatchRound r s
  | .analogueTrip sensor => Sys2Proof.Machine.execAnalogueTrip sensor s
  | .tripRecordDone full => Sys2Proof.Machine.execTripRecordDone full s
  | .shortfallPassDone => Sys2Proof.Machine.execShortfallPassDone s
  | .restorePass => Sys2Proof.Machine.execRestorePass s
  | .charterCloseDone idx => Sys2Proof.Machine.execCharterCloseDone idx s
  | .calibrationDone cls unit pass flight => Sys2Proof.Machine.execCalibrationDone cls unit pass flight s
  | .calRetry cls unit pass flight => Sys2Proof.Machine.execCalRetry cls unit pass flight s
  | .surveyRunDone f => Sys2Proof.Machine.execSurveyRunDone f s
  | .snapshotStrobe => Sys2Proof.Machine.execSnapshotStrobe s
  | .snapshotDone => Sys2Proof.Machine.execSnapshotDone s
  | .bwWindowEnd => Sys2Proof.Machine.execBwWindowEnd s
  | .manifestFragment sd f => Sys2Proof.Machine.execManifestFragment sd f s
  | .reassemblyTimeout sd src tag => Sys2Proof.Machine.execReassemblyTimeout sd src tag s
  | .mfMboxDoor p value => Sys2Proof.Machine.execMfMboxDoor p value s
  | .manifestTimeout m => Sys2Proof.Machine.execManifestTimeout m s
  | .pierInfo m => Sys2Proof.Machine.execPierInfo m s
  | .setPierId m id => Sys2Proof.Machine.execSetPierId m id s
  | .routeSet m first entries => Sys2Proof.Machine.execRouteSet m first entries s
  | .regionSet m first entries => Sys2Proof.Machine.execRegionSet m first entries s
  | .keyLoad m k => Sys2Proof.Machine.execKeyLoad m k s
  | .charterOpen m d => Sys2Proof.Machine.execCharterOpen m d s
  | .charterClose m idx => Sys2Proof.Machine.execCharterClose m idx s
  | .charterQuery m idx => Sys2Proof.Machine.execCharterQuery m idx s
  | .scrubRange m start len flags => Sys2Proof.Machine.execScrubRange m start len flags s
  | .fillStatus m => Sys2Proof.Machine.execFillStatus m s
  | .surveyRun m scope mode mask => Sys2Proof.Machine.execSurveyRun m scope mode mask s
  | .calRun m cls mask => Sys2Proof.Machine.execCalRun m cls mask s
  | .calStatus m cls unit => Sys2Proof.Machine.execCalStatus m cls unit s
  | .laneStatus m side => Sys2Proof.Machine.execLaneStatus m side s
  | .laneRetrain m side mode mask => Sys2Proof.Machine.execLaneRetrain m side mode mask s
  | .lanePrbs m side lane pattern ms => Sys2Proof.Machine.execLanePrbs m side lane pattern ms s
  | .clockSwitch m dom src oldDead => Sys2Proof.Machine.execClockSwitch m dom src oldDead s
  | .sscSet m side depth rate flags => Sys2Proof.Machine.execSscSet m side depth rate flags s
  | .powerDomain m dom action => Sys2Proof.Machine.execPowerDomain m dom action s
  | .thermStatus m => Sys2Proof.Machine.execThermStatus m s
  | .sensorReplace m sensor action floor => Sys2Proof.Machine.execSensorReplace m sensor action floor s
  | .tallyConfig m block counter sel => Sys2Proof.Machine.execTallyConfig m block counter sel s
  | .dumpConfig m d => Sys2Proof.Machine.execDumpConfig m d s
  | .logRead m area count first => Sys2Proof.Machine.execLogRead m area count first s
  | .tripAck m tide => Sys2Proof.Machine.execTripAck m tide s
  | .stackDieReset m die => Sys2Proof.Machine.execStackDieReset m die s
  | .stackReset m => Sys2Proof.Machine.execStackReset m s
  | .shutdown m noSurvey => Sys2Proof.Machine.execShutdown m noSurvey s
  | .recover m action => Sys2Proof.Machine.execRecover m action s
  | .fwUpdateBegin m total => Sys2Proof.Machine.execFwUpdateBegin m total s
  | .fwUpdateData m offset bytes => Sys2Proof.Machine.execFwUpdateData m offset bytes s
  | .fwUpdateCommit m root => Sys2Proof.Machine.execFwUpdateCommit m root s
  | .fwUpdateAbort m => Sys2Proof.Machine.execFwUpdateAbort m s
  | .fwSessionTimeout => Sys2Proof.Machine.execFwSessionTimeout s
  | .quiesceDone => Sys2Proof.Machine.execQuiesceDone s
  | .departureSurveyDone f => Sys2Proof.Machine.execDepartureSurveyDone f s
  | .chartWriteDone => Sys2Proof.Machine.execChartWriteDone s
  | .departureReady => Sys2Proof.Machine.execDepartureReady s
  | .scanEnter testMode => Sys2Proof.Machine.execScanEnter testMode s
  | .zeroizeDone pass => Sys2Proof.Machine.execZeroizeDone pass s
  | .frzCapture index => Sys2Proof.Machine.execFrzCapture index s
  | .csrAcc dr => Sys2Proof.Machine.execCsrAcc dr s
  | .rcRead p offset events => Sys2Proof.Machine.execRcRead p offset events s
  | .captureLoRead p offset => Sys2Proof.Machine.execCaptureLoRead p offset s
  | .rcptWindowRead p => Sys2Proof.Machine.execRcptWindowRead p s
  | .csrWrite w => Sys2Proof.Machine.execCsrWrite w s
  | .txFfeWrite p ln value => Sys2Proof.Machine.execTxFfeWrite p ln value s
  | .laneEnableWrite p ln value => Sys2Proof.Machine.execLaneEnableWrite p ln value s
  | .prbsTxEn p ln value => Sys2Proof.Machine.execPrbsTxEn p ln value s
  | .prbsRxEn p ln value => Sys2Proof.Machine.execPrbsRxEn p ln value s
  | .lnCntClr p ln => Sys2Proof.Machine.execLnCntClr p ln s
  | .lnPrbsClr p ln => Sys2Proof.Machine.execLnPrbsClr p ln s
  | .fwCntClr p => Sys2Proof.Machine.execFwCntClr p s
  | .qyCntClr p => Sys2Proof.Machine.execQyCntClr p s
  | .tableLock p => Sys2Proof.Machine.execTableLock p s
  | .mfLock p value => Sys2Proof.Machine.execMfLock p value s
  | .beTagsWrite p value => Sys2Proof.Machine.execBeTagsWrite p value s
  | .chCntClr p => Sys2Proof.Machine.execChCntClr p s
  | .btCntClr p ch => Sys2Proof.Machine.execBtCntClr p ch s
  | .dcCntClr p => Sys2Proof.Machine.execDcCntClr p s
  | .stCntClr p => Sys2Proof.Machine.execStCntClr p s
  | .fenceClr p => Sys2Proof.Machine.execFenceClr p s
  | .prCntClr p => Sys2Proof.Machine.execPrCntClr p s
  | .errClr p => Sys2Proof.Machine.execErrClr p s
  | .prErrRdWrite p value => Sys2Proof.Machine.execPrErrRdWrite p value s
  | .ksLoad p value => Sys2Proof.Machine.execKsLoad p value s
  | .ksErase p value => Sys2Proof.Machine.execKsErase p value s
  | .ksZeroize p => Sys2Proof.Machine.execKsZeroize p s
  | .memRst p => Sys2Proof.Machine.execMemRst p s
  | .reseed p => Sys2Proof.Machine.execReseed p s
  | .logClr p => Sys2Proof.Machine.execLogClr p s
  | .tlCntClr p => Sys2Proof.Machine.execTlCntClr p s
  | .snap p => Sys2Proof.Machine.execSnap p s
  | .tlEvselWrite p block j value => Sys2Proof.Machine.execTlEvselWrite p block j value s
  | .lanePllLock sd => Sys2Proof.Machine.execLanePllLock sd s
  | .crystalRestartDone ok => Sys2Proof.Machine.execCrystalRestartDone ok s
  | .flashOperationDone => Sys2Proof.Machine.execFlashOperationDone s
  | .fomMeasureDone ln fom ctle ffe dfe => Sys2Proof.Machine.execFomMeasureDone ln fom ctle ffe dfe s
  | .prbsSync ln rx => Sys2Proof.Machine.execPrbsSync ln rx s
  | .prbsSyncLost ln rx => Sys2Proof.Machine.execPrbsSyncLost ln rx s
  | .prbsSaturated ln bits errors => Sys2Proof.Machine.execPrbsSaturated ln bits errors s

end Sys2Proof.Machine
end

