-- ==== Sys2Proof/Machine/Tick.lean ====
section
/-! DEFINITION. A tick: what the clocks do while no command waits (log 1): the tide counter advances (R340), the
charters' buckets refill (R198), the counters that count cycles count (R241, R426, R427). -/

namespace Sys2Proof.Machine

open Sys2Proof

/-- One period of the tide counter's source (R340): 1 tick of CLK_CORE, 32 of the crystal, 16 of the RC oscillator;
nothing in DARK and FROZEN, and nothing from an RC oscillator that has failed.  AON's own clock does not stop it: R340
lists when it advances, and R346 stops only AON and HK (DEDUCED; log 90). -/
def Block.tickLen (b : Block) : Nat :=
  if b.pw.st = .dark ∨ b.pw.st = .frozen then 0
  else match b.ck.tideSrc with
    | .pllRoot => 1
    | .crystal => 32
    | .rc => if b.ck.rcOk then 16 else 0

/-- The tide counter after `n` further ticks. -/
def Block.advance (b : Block) (n : Nat) : Block := { b with ck.tide := b.ck.tide + BitVec.ofNat 64 n }

/-- A charter's buckets after `n` CLK_CORE cycles (R198): `n` refills at once. -/
def Charter.refillFor (n : Nat) (x : Charter) : Charter :=
  match x.st, x.desc with
  | .active, some d =>
    { x with
      tokens := (CharterDesc'.berthList d).foldl (fun (t : Tbl Nat) k => tset (fun _ => 0) t k
        (min (tget (fun _ => 0) t k + n * CharterDesc'.rate d) (CharterDesc'.depth d * 1600))) x.tokens
      quayTok := min (x.quayTok + n * CharterDesc'.quayRate d) (CharterDesc'.quayDepth d * 1600) }
  | _, _ => x

/-- Some part at a berth waits on a granule lock: a read that is queued, or a committed write (R233). -/
def Block.lockWaits (b : Block) (n : Nat) : Bool :=
  b.qy.reqs.any fun r => r.parts.any fun p => p.berth == n && match p.stage with
    | .queued => p.toIssue.any fun g => b.lockedFor r.id g
    | .committed => p.toWrite.any fun g => b.lockedFor r.id g r.committed
    | _ => false

/-- The engine of a berth loses this cycle to its gate (R237). -/
def Block.gateLoses (b : Block) (n : Nat) : Bool := b.chanServes n && b.gatedNow n

/-- A side is in credit stall (R192). -/
def Block.stalled (b : Block) (sd : Side) : Bool :=
  match (b.side sd).lowSince with
  | some t => decide (4 ≤ b.creditUnits sd) && (b.side sd).seg == .run && decide (2 * usTicks ≤ b.since t)
  | none => false

/-- What an event that counts cycles or levels adds in this cycle (R427). -/
def Block.cycleLevel (b : Block) (blk ev fil : Nat) : Nat :=
  if ev = 0x001 then 1
  else if blk < 64 then
    match ev with
    | 0x018 => b2n (b.panicAt blk)
    | 0x019 => b.entries blk fun r => fil == 0 || r.cls.filter == fil
    | 0x01A => b2n (b.sleeps blk)
    | 0x01B => b2n (b.now % 2 == 0 && skipped (b.chan blk).step b.slotNo)
    | 0x01C => b2n (b.gateLoses blk)
    | 0x01D => b2n (b.lockWaits blk)
    | _ => 0
  else if blk < 66 then (if ev = 0x047 then b2n ((b.side (if blk = 64 then .west else .east)).seg == .run) else 0)
  else if blk < 68 then (if ev = 0x069 then (b.fw (if blk = 66 then .west else .east)).buf.length else 0)
  else match ev with
    | 0x084 => b.tagsHeld
    | 0x085 => b.qy.reqs.length
    | 0x086 => b2n ((fil != 2 && b.stalled .west) || (fil != 1 && b.stalled .east))
    | _ => 0

/-- A tally block after `n` CLK_CORE cycles: its cycle counter, and the counters that count levels (R426). -/
def Block.tallyCycles (b : Block) (n blk : Nat) : Block :=
  if ¬ b.domOn (tallyDom blk) then b
  else
    let t := b.tallyBlk blk
    let b := b.setTallyBlk blk { t with cyc := t.cyc + BitVec.ofNat 64 n }
    b.each (List.range 8) fun b i =>
      let s := b.selector blk i
      let v := n * b.cycleLevel blk (s % 1024) (s / 1024)
      if v = 0 then b else b.addCount blk i v

/-- `BT_LOCK_WAIT` of a berth after `n` cycles (R241). -/
def Block.lockCycles (b : Block) (n blk : Nat) : Block :=
  if b.domOn (bgDom blk) ∧ b.lockWaits blk then b.bump (btOff Off.btLockWaitLo blk) n else b

/-- `BT_GATED` of a berth after `n` cycles (R237, R241). -/
def Block.gateCycles (b : Block) (n blk : Nat) : Block :=
  if b.domOn (bgDom blk) ∧ b.gateLoses blk then b.bump (btOff Off.btGatedLo blk) n else b

/-- `n` CLK_CORE cycles: buckets and cycle counters. -/
def Block.coreCycles (b : Block) (n : Nat) : Block :=
  let b := { b with chs.tab := b.chs.tab.map fun (e : Nat × Charter) => (e.1, e.2.refillFor n) }
  (b.each (List.range 64) fun b k => (b.lockCycles n k).gateCycles n k).each (List.range 69) fun b k => b.tallyCycles n k

/-- A tick of the clocks (log 1): CLK_CORE cycles count where the CLK_CORE domains run. -/
def Block.tick (b : Block) : Block :=
  let n := b.tickLen
  (if b.coreRuns ∧ n ≠ 0 then b.coreCycles n else b).advance n

end Sys2Proof.Machine
end

