-- ==== Sys2Proof/Machine/Step.lean ====
section
/-! DEFINITION. One step of the pier: the command at the front of the queue, or, on an empty queue, a tick of
the clocks. -/

namespace Sys2Proof.Machine

open Sys2Proof

/-- One step.  The meaning runs on the state with the rest of the queue; an empty queue is a tick (log 1). -/
def step (s : State) : Host.Outcome State Fault Refusal :=
  match s.pending with
  | c :: rest => exec c { s with pending := rest }
  | [] => .next { s with blk := s.blk.tick }

/-- The state with the command that a word spells put at the front of its queue; no word spells one. -/
def State.withFetchWord (s : State) (nbits w : Nat) : State :=
  match decodeTableWord nbits w with
  | some c => { s with pending := c :: s.pending }
  | none => s

end Sys2Proof.Machine
end

