-- ==== Sys2Proof/Machine/Flags.lean ====
section
/-! DEFINITION. ALERT_N, computed from the alarm registers and their enables (R38, R347, R376, and the ALARM_EN tables
of the chapters).  THERM_TRIP_N and DMAN are fields of State. -/

namespace Sys2Proof.Machine

open Sys2Proof

/-- Each alarm register with its enable register. -/
def alarmPairs : List (Nat × Nat) :=
  [(Off.mfAlarm, Off.mfAlarmEn), (Off.ckAlarm, Off.ckAlarmEn), (Off.pwAlarm, Off.pwAlarmEn), (Off.fwAlarm, Off.fwAlarmEn),
   (Off.qyAlarm, Off.qyAlarmEn), (Off.chAlarm, Off.chAlarmEn), (Off.dcAlarm, Off.dcAlarmEn), (Off.stAlarm, Off.stAlarmEn),
   (Off.htAlarm, Off.htAlarmEn), (Off.caAlarm, Off.caAlarmEn), (Off.tlAlarm, Off.tlAlarmEn), (Off.prAlarm, Off.prAlarmEn),
   (Off.lgAlarm, Off.lgAlarmEn)]
    ++ (List.range 32).map (fun l => (lnOff Off.lnAlarm l, lnOff Off.lnAlarmEn l))
    ++ (List.range 64).map (fun n => (btOff Off.btAlarm n, btOff Off.btAlarmEn n))

/-- An alarm register has a bit set that its enable register enables. -/
def Block.alarmOn (b : Block) (p : Nat × Nat) : Bool := b.reg p.1 &&& b.reg p.2 != 0

/-- The `CK_ALARM` bits ROOT_LOST, W_LOST, E_LOST and XTAL_FAIL, and `PW_ALARM.RAIL_UV`, assert ALERT_N whatever
the enables hold (R38, R347). -/
def Block.alarmForced (b : Block) : Bool := b.reg Off.ckAlarm &&& 0x0F != 0 || b.regBit Off.pwAlarm 5

/-- ALERT_N is low: an alarm that asserts it, or a departure that has reached ready (R376). -/
def Block.alertLow (b : Block) : Bool := b.alarmForced || b.pw.offReady || alarmPairs.any b.alarmOn

end Sys2Proof.Machine
end

