-- ==== Sys2Proof/WellFormed.lean ====
section
/-! DEFINITION. Well-formed commands: the lengths and ranges that the operands have at the pins, on the links and in
a manifest's parameter area.  The meanings are total and do not ask for it; a statement may. -/

namespace Sys2Proof

/-- A flit carries eight reserved header bits that `rsv` gathers in seven places (R143): its bit 7 is 0. -/
def Flit.wf (f : Flit) : Bool := !f.rsv.getLsbD 7

/-- A codeword reports at most 15 corrected symbols in all, each lane once, and none where it is uncorrectable (R78). -/
def Codeword.wf (c : Codeword) : Bool :=
  decide ((c.corrected.map (·.2)).sum ≤ 15 ∧ (c.corrected.map (·.1)).Nodup) && !(c.uncorrectable && !c.corrected.isEmpty)

/-- A CAP message holds eight shares and eight credit entries (R113). -/
def Cap.wf (c : Cap) : Bool := decide (c.shares.length = 8 ∧ c.credits.length = 8 ∧ c.bmin ≤ 128 ∧ c.umax ≤ 8 ∧ c.hops ≤ 8)

/-- A COMMIT message holds eight shares and eight credit entries (R113). -/
def Commit.wf (c : Commit) : Bool := decide (c.shares.length = 8 ∧ c.credits.length = 8 ∧ c.blink ≤ 128 ∧ c.ucap ≤ 8)

/-- Damage falls on one of the 72 symbols of a granule that exists, and changes it (R15, R284). -/
def Damage.wf (d : Damage) : Bool := decide (d.granule < 2 ^ 31 ∧ d.symbol < 72) && d.value != 0

/-- A round measures the 96 converter channels and the 56 sensors (R380). -/
def Readings.wf (r : Readings) : Bool := decide (r.ch.length = 96) && r.atLimit.all fun s => decide (s < 56)

/-- Measured round trips: of the 64 columns, in the 10 bits of `ST_COL_FLIGHT` (R283). -/
def flightsWf (t : List (Nat × Nat)) : Bool := t.all fun e => decide (e.1 < 64 ∧ e.2 < 1024)

/-- A bank and its spares as a survey finds them: 2,048 banks, 32 spare rows and 16 spare column lines each (R404);
coils 0 to 73 of a channel and its 13 command coils (R265). -/
def SurveyFindings.wf (f : SurveyFindings) : Bool :=
  ((f.bankFails ++ f.remarch).all fun e => decide (e.sym < 72)) && (f.bankOverflow.all fun e => decide (e.1 < 2048))
    && (f.spareRows.all fun e => decide (e.1 < 2048)) && (f.spareCols.all fun e => decide (e.1 < 2048))
    && (f.coilFails.all fun e => decide (e.1 < 64)) && (f.caCoilFails.all fun e => decide (e.1 < 64 ∧ e.2 < 13))
    && flightsWf f.flight

/-- A block as received is 258 bits (R87). -/
def LaneBlock.wf (k : LaneBlock) : Bool := decide (k.payload.length = 32)

/-- A command is well formed. -/
def Instr.wf : Instr → Bool
  | .porstNRise _ _ board => decide (board.length = 8352)
  | .wrstNRise _ _ board => decide (board.length = 8352)
  | .bootDone dir0 dir1 imgA imgB _ =>
    decide (dir0.length = 32 ∧ dir1.length = 32 ∧ imgA.length ≤ 0x300000 ∧ imgB.length ≤ 0x300000)
  | .arrivalSurveyDone f => SurveyFindings.wf f
  | .cap _ _ c => Cap.wf c
  | .commit _ _ c => Commit.wf c
  | .degradeCheck _ corrected bits _ => decide (corrected ≤ bits)
  | .flitArrive _ f _ _ cws _ => Flit.wf f && cws.all Codeword.wf
  | .read _ f => Flit.wf f
  | .write _ f => Flit.wf f
  | .writeBytes _ f => Flit.wf f
  | .atomic _ f => Flit.wf f
  | .reduce _ f => Flit.wf f
  | .gather _ f => Flit.wf f
  | .scatter _ f => Flit.wf f
  | .fill _ f => Flit.wf f
  | .find _ f => Flit.wf f
  | .copyLocal _ f => Flit.wf f
  | .copyRemote _ f => Flit.wf f
  | .fence _ f => Flit.wf f
  | .credit _ f => Flit.wf f
  | .remoteCompletion _ f => Flit.wf f
  | .partDone _ _ dmg _ => dmg.all Damage.wf
  | .returnClockLost _ edge => edge.all fun e => decide (e.1 < 64)
  | .srExitDone _ _ edge => edge.all fun e => decide (e.1 < 64)
  | .commandIssue _ dmg _ _ => dmg.all Damage.wf
  | .scrubDone dmg => dmg.all Damage.wf
  | .caAlert _ back coils => decide (back ≤ 8 ∧ coils.length = 13)
  | .relockSuccess _ _ _ flight => flightsWf flight
  | .memRstRelease _ _ flight => flightsWf flight
  | .dieResetCalDone _ flight => flightsWf flight
  | .stackColumnTestDone _ flight => flightsWf flight
  | .watchRound r => Readings.wf r
  | .calibrationDone _ _ _ flight | .calRetry _ _ _ flight => decide (flight < 1024)
  | .surveyRunDone f => SurveyFindings.wf f
  | .manifestFragment _ f => Flit.wf f
  | .routeSet _ _ entries => decide (1 ≤ entries.length ∧ entries.length ≤ 256)
  | .regionSet _ _ entries => decide (1 ≤ entries.length ∧ entries.length ≤ 64)
  | .keyLoad _ k => decide (k.material.length ≤ 64)
  | .fwUpdateData _ _ bytes => decide (1 ≤ bytes.length ∧ bytes.length ≤ 4084)
  | .departureSurveyDone f => SurveyFindings.wf f
  | .fomMeasureDone _ fom _ ffe _ => decide (fom < 6400 ∧ ffe.length = 12)
  | .blockLock _ _ blocks => blocks.all LaneBlock.wf
  | .reformSwitch _ _ cut => cut.all fun e => Flit.wf e.1
  | .fillRow _ _ blks _ between => (blks.all fun e => decide (e.2.length = 32)) && between.all Flit.wf
  | .porstNLow | .aonPowerOnReset | .wrstNFall | .pwrReqNLow | .freezeNFall | .trstNLow | .railUv _
  | .railRecovery _ | .referencePresent _ | .xtalFail _ _ | .rootLost _ _ | .lanePllFail _ _ | .rcFail
  | .relockAttempt _ | .relockAttemptFail _ | .arrivalPllLock | .chartReadDone
  | .channelFillDone _ | .linkRetry _ | .powerGood _ | .domainPowerFail _ | .drainDone _ | .huntBurst _
  | .huntTimeout _ | .blockLockLoss _ _ | .polarityTimeout _ | .huntAnswerTimer _
  | .hello _ _ _ _ _ | .lockWindowEnd _ _ _ _ _ | .lockTimeout _ | .window _ _ _ _ _ | .windowAbandon _
  | .ecDrift _ _ | .tapReq _ _ _ _ | .tapRsp _ _ _ | .tapReqTimeout _ | .tapDone _ _ _ _ | .trainTimeout _
  | .start _ _ _ | .move _ _ _ | .reform _ _ _ _ | .prbs _ _ _ _ | .lanePrbsEnd _ _ _
  | .los _ _ | .lol _ _ _ | .degradedClear _ | .degradedTimeout _ | .flitSend _
  | .creditReturn _ _ | .creditStall _ | .remoteWriteTimeout _ | .commitGate _ _ | .beWithdraw _
  | .charterWithdraw _ | .fillHoldTimeout _ | .partArrive _ _ | .refreshTick _ _
  | .refreshPullIn _ _ | .refpbPass _ _ | .srIdleTimer _ | .srEntryDone _
  | .drstRelease | .srstRelease
  | .analogueTrip _ | .tripRecordDone _ | .shortfallPassDone | .restorePass | .charterCloseDone _
  | .snapshotStrobe | .snapshotDone | .bwWindowEnd | .reassemblyTimeout _ _ _
  | .mfMboxDoor _ _ | .manifestTimeout _ | .pierInfo _ | .setPierId _ _ | .charterOpen _ _ | .charterClose _ _
  | .charterQuery _ _ | .scrubRange _ _ _ _ | .fillStatus _ | .surveyRun _ _ _ _ | .calRun _ _ _
  | .calStatus _ _ _ | .laneStatus _ _ | .laneRetrain _ _ _ _ | .lanePrbs _ _ _ _ _ | .clockSwitch _ _ _ _
  | .sscSet _ _ _ _ _ | .powerDomain _ _ _ | .thermStatus _ | .sensorReplace _ _ _ _ | .tallyConfig _ _ _ _
  | .dumpConfig _ _ | .logRead _ _ _ _ | .tripAck _ _ | .stackDieReset _ _ | .stackReset _ | .shutdown _ _
  | .recover _ _ | .fwUpdateBegin _ _ | .fwUpdateCommit _ _ | .fwUpdateAbort _ | .fwSessionTimeout
  | .quiesceDone | .chartWriteDone | .departureReady | .scanEnter _ | .zeroizeDone _ | .frzCapture _
  | .csrAcc _ | .rcRead _ _ _ | .captureLoRead _ _ | .rcptWindowRead _ | .csrWrite _ | .txFfeWrite _ _ _
  | .laneEnableWrite _ _ _ | .prbsTxEn _ _ _ | .prbsRxEn _ _ _ | .lnCntClr _ _ | .lnPrbsClr _ _ | .fwCntClr _
  | .qyCntClr _ | .tableLock _ | .mfLock _ _ | .beTagsWrite _ _ | .chCntClr _ | .btCntClr _ _ | .dcCntClr _
  | .stCntClr _ | .fenceClr _ | .prCntClr _ | .errClr _ | .prErrRdWrite _ _ | .ksLoad _ _ | .ksErase _ _
  | .ksZeroize _ | .memRst _ | .reseed _ | .logClr _ | .tlCntClr _ | .snap _ | .tlEvselWrite _ _ _ _
  | .lanePllLock _ | .crystalRestartDone _ | .flashOperationDone | .prbsSync _ _ | .prbsSyncLost _ _
  | .prbsSaturated _ _ _ => true

end Sys2Proof
end

