-- ==== Sys2Proof/Safety.lean ====
section
/-! DEFINITION. What the claims call safe: the stored symbols in canonical form, a step that answers a next state, a
run that stops nowhere; and the vocabulary in which they say what a command leaves as it was. -/

namespace Sys2Proof.Machine

open Sys2Proof

/-- The stored symbols are in canonical form: one list for each contents. -/
def State.inv (s : State) : Prop := Memory.wf s.mem = true

/-- The step answers a next state: no fault, no refusal. -/
def State.goes (s : State) : Prop := ∃ t, step s = .next t

/-- The command completes in a state: its meaning answers a next state. -/
def Completes (i : Instr) (s : State) : Prop := ∃ t, exec i s = .next t

/-- Only the block differs: the queue and the stored symbols are as before. -/
def SameStore (s t : State) : Prop := t.pending = s.pending ∧ t.mem = s.mem

/-! ### Frames -/

/-- A piece of the block, as a frame names it: one register, counter, lane, side, fairway direction, berth, channel, column,
domain or receipt slot, all of a kind, or one of the other components of `Block`.  `pw`, `ck`, `qy`, `mf` and `lg` stand for
what those components hold beside `doms`, `tide`, `ins`, `slots` and `running`, and `events`. -/
inductive Piece where
  | reg (off : Nat) | count (off : Nat) | lane (l : Nat) | berth (n : Nat) | chan (n : Nat) | col (n : Nat) | side (sd : Side) | fw (sd : Side)
  | dom (d : Nat) | slot (k : Nat) | regs | cnt | lanes | berths | chans | cols | sides | fws | doms | slots
  | fresh | sel | hold | rdData | jtagDr | frzOut | pins | pw | tide | ck | ins | qy | chs | stk | keys | prot | running | mf | heat | sv
  | tl | events | lg
  deriving DecidableEq, Repr

/-- Every piece: the frame of a change that leaves nothing but the queue and the stored symbols. -/
def Piece.all : List Piece :=
  [.regs, .cnt, .lanes, .berths, .chans, .cols, .sides, .fws, .doms, .slots, .fresh, .sel, .hold, .rdData, .jtagDr, .frzOut, .pins, .pw,
   .tide, .ck, .ins, .qy, .chs, .stk, .keys, .prot, .running, .mf, .heat, .sv, .tl, .events, .lg]

/-- The piece stands in the list, by itself or among all of its kind; all of a kind stand in it as soon as one does. -/
def Piece.among (ps : List Piece) : Piece → Prop
  | .reg o => .regs ∈ ps ∨ .reg o ∈ ps
  | .count o => .cnt ∈ ps ∨ .count o ∈ ps
  | .lane l => .lanes ∈ ps ∨ .lane l ∈ ps
  | .berth n => .berths ∈ ps ∨ .berth n ∈ ps
  | .chan n => .chans ∈ ps ∨ .chan n ∈ ps
  | .col n => .cols ∈ ps ∨ .col n ∈ ps
  | .side sd => .sides ∈ ps ∨ .side sd ∈ ps
  | .fw sd => .fws ∈ ps ∨ .fw sd ∈ ps
  | .dom d => .doms ∈ ps ∨ .dom d ∈ ps
  | .slot k => .slots ∈ ps ∨ .slot k ∈ ps
  | .regs => .regs ∈ ps ∨ ∃ o, .reg o ∈ ps
  | .cnt => .cnt ∈ ps ∨ ∃ o, .count o ∈ ps
  | .lanes => .lanes ∈ ps ∨ ∃ l, .lane l ∈ ps
  | .berths => .berths ∈ ps ∨ ∃ n, .berth n ∈ ps
  | .chans => .chans ∈ ps ∨ ∃ n, .chan n ∈ ps
  | .cols => .cols ∈ ps ∨ ∃ n, .col n ∈ ps
  | .sides => .sides ∈ ps ∨ ∃ sd, .side sd ∈ ps
  | .fws => .fws ∈ ps ∨ ∃ sd, .fw sd ∈ ps
  | .doms => .doms ∈ ps ∨ ∃ d, .dom d ∈ ps
  | .slots => .slots ∈ ps ∨ ∃ k, .slot k ∈ ps
  | p => p ∈ ps

/-- The piece is in both blocks the same. -/
def Piece.same (b c : Block) : Piece → Prop
  | .reg o => c.reg o = b.reg o
  | .count o => c.count o = b.count o
  | .lane l => c.lane l = b.lane l
  | .berth n => c.berth n = b.berth n
  | .chan n => c.chan n = b.chan n
  | .col n => c.col n = b.col n
  | .side sd => c.side sd = b.side sd
  | .fw sd => c.fw sd = b.fw sd
  | .dom d => c.dom d = b.dom d
  | .slot k => c.slot k = b.slot k
  | .regs => c.csr = b.csr
  | .lanes => c.lanes = b.lanes
  | .berths => c.berths = b.berths
  | .chans => c.chans = b.chans
  | .cols => c.cols = b.cols
  | .sides => c.west = b.west ∧ c.east = b.east
  | .fws => c.fwWE = b.fwWE ∧ c.fwEW = b.fwEW
  | .doms => c.pw.doms = b.pw.doms
  | .slots => c.mf.slots = b.mf.slots
  | .fresh => c.fresh = b.fresh
  | .cnt => c.cnt = b.cnt
  | .sel => c.sel = b.sel
  | .hold => c.hold = b.hold
  | .rdData => c.rdData = b.rdData
  | .jtagDr => c.jtagDr = b.jtagDr
  | .frzOut => c.frzOut = b.frzOut
  | .pins => c.pins = b.pins
  | .pw => { c.pw with doms := [] } = { b.pw with doms := [] }
  | .tide => c.ck.tide = b.ck.tide
  | .ck => { c.ck with tide := 0 } = { b.ck with tide := 0 }
  | .ins => c.qy.ins = b.qy.ins
  | .qy => { c.qy with ins := [] } = { b.qy with ins := [] }
  | .chs => c.chs = b.chs
  | .stk => c.stk = b.stk
  | .keys => c.keys = b.keys
  | .prot => c.prot = b.prot
  | .running => c.mf.running = b.mf.running
  | .mf => { c.mf with slots := [], running := [] } = { b.mf with slots := [], running := [] }
  | .heat => c.heat = b.heat
  | .sv => c.sv = b.sv
  | .tl => c.tl = b.tl
  | .events => c.lg.events = b.lg.events ∧ c.lg.evtNext = b.lg.evtNext ∧ c.lg.suppress = b.lg.suppress ∧ c.lg.wear = b.lg.wear
      ∧ c.lg.due = b.lg.due
  | .lg => c.lg.trips = b.lg.trips ∧ c.lg.tripNext = b.lg.tripNext ∧ c.lg.charts = b.lg.charts ∧ c.lg.gov = b.lg.gov
      ∧ c.lg.writing = b.lg.writing

/-- The frame of a change: every piece outside the list is as it was. -/
structure Kept (ps : List Piece) (b c : Block) : Prop where
  out : ∀ p : Piece, ¬ p.among ps → p.same b c

/-- The command answers a next state of which `post` holds, and that differs from the state before at most in the
pieces listed: queue, stored symbols and every other piece of the block are as they were. -/
def Does (i : Instr) (s : State) (ps : List Piece) (post : Block → Prop) : Prop :=
  ∃ t, exec i s = .next t ∧ SameStore s t ∧ Kept ps s.blk t.blk ∧ post t.blk

/-- As `Does`, of a command that may also change stored symbols, but only in cells of which `cells` holds. -/
def DoesOn (i : Instr) (s : State) (ps : List Piece) (cells : Nat → Prop) (post : State → Prop) : Prop :=
  ∃ t, exec i s = .next t ∧ t.pending = s.pending ∧ (∀ a, ¬ cells a → Memory.read t.mem a = Memory.read s.mem a)
    ∧ Kept ps s.blk t.blk ∧ post t

/-! ### Words for requests -/

/-- The row of a memory request: the command by which the quay takes a claimed flit of that operation. -/
def Op.row : Op → Side → Flit → Instr
  | .read => .read | .write => .write | .writeBytes => .writeBytes | .atomic => .atomic | .reduce => .reduce | .gather => .gather
  | .scatter => .scatter | .fill => .fill | .find => .find | .copyLocal => .copyLocal | .copyRemote => .copyRemote | .fence => .fence

/-- The flit is a claimed memory request of the operation that the quay decides now. -/
abbrev Block.takes (b : Block) (op : Op) (f : Flit) : Prop :=
  f.kind = 1 ∧ f.opcode.toNat = op.code ∧ f.csr = false ∧ b.decides = true

/-- The quay accepts the claimed request now (R23, R168, R173, R174, R304): outside DEPARTURE, its spans allowed under the
keys, header and payload legal, a COPY_REMOTE routed, class and resources given, and no part on a berth that bars it. -/
abbrev Block.admits (b : Block) (op : Op) (sd : Side) (f : Flit) (ks : List (BitVec 512)) (cls : Cls) : Prop :=
  b.takes op f ∧ b.pw.st ≠ .departure ∧ (planOf op f).spanBad = false ∧ (planOf op f).valid = true
    ∧ b.regionCheck op f (planOf op f) = .keys ks ∧ (op = .copyRemote → b.copyRouted f = true)
    ∧ b.classOf sd f (partsOf op (planOf op f)) (1 + remCount op f) = cls
    ∧ (cls.charter.isNone = true → b.looseTags (1 + remCount op f) = true ∧ b.looseIngress (partsOf op (planOf op f)) = true)
    ∧ (partsOf op (planOf op f)).findSome? (b.partBar cls.charter.isSome) = none ∧ b.req b.qy.nextId = none

/-- The claimed request stands in the queue under the next number, with its parts, its class, its keys, and the tide at
which it was claimed. -/
def Block.tookIn (b c : Block) (op : Op) (sd : Side) (f : Flit) (ks : List (BitVec 512)) (cls : Cls) : Prop :=
  c.qy.claimed = b.qy.claimed.erase (sd, f) ∧ c.qy.nextId = b.qy.nextId + 1
    ∧ c.req b.qy.nextId = some
        { id := b.qy.nextId, op := op, sd := sd, f := f, cls := cls, quayIn := (b.takeClaimed sd f).qy.claimAt
          parts := b.holdParts (partsOf op (planOf op f)), keyR := ks.head?, keyW := if op = .copyLocal then ks[1]? else ks.head? }

/-- The request is out of the queue, and, where its side is in RUN, its completion waits at a level with a status. -/
def Block.answered (b : Block) (id level status : Nat) : Prop :=
  b.req id = none ∧ (b.qy.ins.any fun i => i.reqId == some id && i.level == level && i.flit.status.toNat == status) = true

/-- The newest flit that waits for insertion is the refusal of `f` on a side, at level 2 with a status; nothing was accepted. -/
def Block.refusedAs (b c : Block) (sd : Side) (f : Flit) (st : Nat) : Prop :=
  (c.qy.ins.getLast?.map fun i => (i.side, i.level, i.flit.status.toNat, i.flit.dest, i.flit.tag, i.flit.opcode)) = some (sd, 2, st, f.src, f.tag, f.opcode)
    ∧ c.qy.reqs = b.qy.reqs ∧ c.qy.claimed = b.qy.claimed.erase (sd, f)

/-! ### Words for registers -/

/-- What a path's last register read returned. -/
abbrev Block.lastRead (b : Block) (p : Path) : Word := tget (fun _ => 0) b.rdData (pathNo p)

/-! ### Words for manifests -/

/-- The harbourmaster accepts a manifest of an opcode now (R324). -/
abbrev Block.mans (b : Block) (op : Nat) : Prop := b.hmRuns = true ∧ b.accepts op = true

/-- The receipt slot of a manifest is DONE with a status and a result, and the manifest no longer runs (R320). -/
def Block.doneWith (b : Block) (m : ManRef) (op st : Nat) (result : List Byte) : Prop :=
  let x := b.slot (slotKey m.ring m.seq)
  x.st = .done ∧ x.opcode.toNat = op ∧ x.seq = m.seq ∧ x.status.toNat = st ∧ x.result = result ∧ (b.mf.running.all fun r => r.m != m) = true

end Sys2Proof.Machine

namespace Sys2Proof

open Sys2Proof.Machine

/-- The manifest and the opcode of a row that carries out a manifest (R324). -/
def Instr.manifest : Instr → Option (ManRef × Nat)
  | .pierInfo m => some (m, Mop.pierInfo)
  | .setPierId m _ => some (m, Mop.setPierId)
  | .routeSet m _ _ => some (m, Mop.routeSet)
  | .regionSet m _ _ => some (m, Mop.regionSet)
  | .keyLoad m _ => some (m, Mop.keyLoad)
  | .charterOpen m _ => some (m, Mop.charterOpen)
  | .charterClose m _ => some (m, Mop.charterClose)
  | .charterQuery m _ => some (m, Mop.charterQuery)
  | .scrubRange m _ _ _ => some (m, Mop.scrubRange)
  | .fillStatus m => some (m, Mop.fillStatus)
  | .surveyRun m _ _ _ => some (m, Mop.surveyRun)
  | .calRun m _ _ => some (m, Mop.calRun)
  | .calStatus m _ _ => some (m, Mop.calStatus)
  | .laneStatus m _ => some (m, Mop.laneStatus)
  | .laneRetrain m _ _ _ => some (m, Mop.laneRetrain)
  | .lanePrbs m _ _ _ _ => some (m, Mop.lanePrbs)
  | .clockSwitch m _ _ _ => some (m, Mop.clockSwitch)
  | .sscSet m _ _ _ _ => some (m, Mop.sscSet)
  | .powerDomain m _ _ => some (m, Mop.powerDomain)
  | .thermStatus m => some (m, Mop.thermStatus)
  | .sensorReplace m _ _ _ => some (m, Mop.sensorReplace)
  | .tallyConfig m _ _ _ => some (m, Mop.tallyConfig)
  | .dumpConfig m _ => some (m, Mop.dumpConfig)
  | .logRead m _ _ _ => some (m, Mop.logRead)
  | .tripAck m _ => some (m, Mop.tripAck)
  | .stackDieReset m _ => some (m, Mop.stackDieReset)
  | .stackReset m => some (m, Mop.stackReset)
  | .shutdown m _ => some (m, Mop.shutdown)
  | .recover m _ => some (m, Mop.recover)
  | .fwUpdateBegin m _ => some (m, Mop.fwUpdate)
  | .fwUpdateData m _ _ => some (m, Mop.fwUpdate)
  | .fwUpdateCommit m _ => some (m, Mop.fwUpdate)
  | .fwUpdateAbort m => some (m, Mop.fwUpdate)
  | _ => none

end Sys2Proof
end

