-- ==== Sys2Proof/Certificates/Slice0/Obligations.lean ====
section
/-! DEFINITION. The statements about the model, for the provers: the machine as a whole, then the rules of the manual by
its chapters.  Where a statement rests on a choice of the model, its docstring or its title says so, or the log does. -/

open Sys2Proof Sys2Proof.Machine

/-! ### The machine as a whole -/

/-- A step with a command at the front of the queue is that command's meaning on the state with the rest of the queue. -/
def Obligations.StepRunsFrontCommand : Prop :=
  ∀ (c : Instr) (rest : List Instr) (s : State),
    step { s with pending := c :: rest } = exec c { s with pending := rest }

/-- State.reset meets the invariant: its list of stored symbols is in the canonical form (addresses rising, no entry that an unlisted address reads as). -/
def Obligations.ResetMemoryCanonical : Prop := State.reset.inv

/-- From every state whose stored symbols are in canonical form, whatever commands wait, a step that answers a next state gives one whose stored symbols are in canonical form. The form is the model's representation; it makes equal contents equal data. -/
def Obligations.StepKeepsCanonicalMemory : Prop :=
  ∀ s t : State, s.inv → step s = .next t → t.inv

/-- Whatever the command and the state, a meaning that answers a next state leaves the queue of waiting commands as it was. -/
def Obligations.CommandsKeepQueue : Prop :=
  ∀ (i : Instr) (s t : State), exec i s = .next t → t.pending = s.pending

/-- A command other than COMMAND_ISSUE, PART_DONE, CHANNEL_FILL_DONE, SCRUB_DONE and the failures that may cut a burst (XTAL_FAIL, ROOT_LOST, RAIL_UV of VDD_CORE) leaves every stored symbol as it reads. -/
def Obligations.OnlyAccessesAndFailuresTouchStore : Prop :=
  ∀ (i : Instr) (s t : State), exec i s = .next t →
    (∀ d h, i ≠ .xtalFail d h) → (∀ d h, i ≠ .rootLost d h) → i ≠ .railUv .core →
    (∀ n d f p, i ≠ .commandIssue n d f p) → (∀ r p d e, i ≠ .partDone r p d e) → (∀ n, i ≠ .channelFillDone n) → (∀ d, i ≠ .scrubDone d) →
    ∀ a, Memory.read t.mem a = Memory.read s.mem a

/-- For every command and every state the meaning answers a next state; the one exception is COMMAND_ISSUE, which faults when the queued access names a granule that the stack does not have. No command is refused. -/
def Obligations.EveryCommandCompletesButAnAccessOutsideTheArray : Prop :=
  ∀ (i : Instr) (s : State),
    Completes i s ∨ (exec i s = .fault .noSuchGranule ∧ ∃ n d f p, i = .commandIssue n d f p)

/-- On an empty queue the step lets time pass (the model's choice, log entry 1): the tide counter advances by the tick's length, and the stored symbols, keys, power state, logbook, lanes, berths, channels and quay stay as they are. -/
def Obligations.IdleTickAdvancesTheTide : Prop :=
  ∀ s : State, s.pending = [] →
    ∃ t, step s = .next t ∧ t.pending = [] ∧ t.mem = s.mem
      ∧ t.blk.ck.tide = s.blk.ck.tide + BitVec.ofNat 64 s.blk.tickLen
      ∧ t.blk.keys = s.blk.keys ∧ t.blk.pw = s.blk.pw ∧ t.blk.lg = s.blk.lg ∧ t.blk.lanes = s.blk.lanes ∧ t.blk.berths = s.blk.berths
      ∧ t.blk.chans = s.blk.chans ∧ t.blk.qy = s.blk.qy

/-! ### Resets, departure and freeze -/

/-- PORST_N low outside DARK, and the internal power-on reset of VDD_AON, leave the pier DARK: the key store zeroized, charters, receipt rings, pier ID, lanes, fairway, quay and berths as at reset, every register but `CK_RESET_CAUSE` at its reset value, the tide counter 0; the logbook's records and the stored symbols stay.  The power-on reset leaves POR and AON_UV alone in `CK_RESET_CAUSE`. -/
def Obligations.ColdResetsLeaveDark : Prop :=
  (∀ s : State, s.blk.pw.st ≠ .dark → Does .porstNLow s (Piece.all.erase .fresh) fun b =>
      b.pw.st = .dark ∧ b.pins.porstLow = true ∧ b.keys = {} ∧ b.chs = {} ∧ b.mf.rings = [] ∧ b.mf.slots = [] ∧ b.qy = {} ∧ b.lanes = []
        ∧ b.west = {} ∧ b.east = {} ∧ b.fwWE = {} ∧ b.fwEW = {} ∧ b.berths = [] ∧ b.chans = [] ∧ b.ck.tide = 0
        ∧ (∀ o, o ≠ Off.ckResetCause → b.reg o = csrReset o) ∧ b.regBit Off.ckResetCause 0 = true
        ∧ b.lg.events = s.blk.lg.events ∧ b.lg.trips = s.blk.lg.trips ∧ b.lg.charts = s.blk.lg.charts ∧ b.lg.wear = s.blk.lg.wear)
  ∧ ∀ s : State, Does .aonPowerOnReset s (Piece.all.erase .fresh) fun b =>
      b.pw.st = .dark ∧ b.keys = {} ∧ b.chs = {} ∧ b.mf.rings = [] ∧ b.mf.slots = [] ∧ b.qy = {} ∧ b.lanes = [] ∧ b.berths = []
        ∧ b.ck.tide = 0 ∧ b.pins.thermTripLow = false
        ∧ (∀ o, o ≠ Off.ckResetCause → b.reg o = csrReset o) ∧ b.reg Off.ckResetCause = 0x3
        ∧ b.lg.events = s.blk.lg.events ∧ b.lg.trips = s.blk.lg.trips ∧ b.lg.charts = s.blk.lg.charts ∧ b.lg.wear = s.blk.lg.wear

/-- PORST_N rising in DARK with every rail in order starts an arrival at its first step, held in reset while WRST_N is low; WRST_N rising on a pier held in reset starts one; either samples the board straps.  WRST_N rising on a pier that is not held in reset samples the straps and does nothing else.  Registers outside the logbook's alarm stay. -/
def Obligations.RisingEdgesStartArrival : Prop :=
  (∀ (s : State) strap bts board, s.blk.pins.porstLow = true → s.blk.pw.st = .dark → s.blk.pins.railsLow = [] →
    Does (.porstNRise strap bts board) s [.pins, .pw, .events, .reg Off.lgAlarm] fun b =>
      b.pw.st = .arrival ∧ b.pw.arr = .boot ∧ b.pins.porstLow = false ∧ b.pins.strap = strap ∧ b.pins.bts = bts
        ∧ b.pw.resetEdge = s.blk.ck.tide ∧ b.pw.heldInReset = s.blk.pins.wrstLow)
  ∧ (∀ (s : State) strap bts board, s.blk.pins.wrstLow = true → s.blk.pw.heldInReset = true →
    Does (.wrstNRise strap bts board) s [.pins, .pw, .events, .reg Off.lgAlarm] fun b =>
      b.pw.heldInReset = false ∧ b.pw.arr = .boot ∧ b.pw.st = .arrival ∧ b.pins.wrstLow = false ∧ b.pins.strap = strap ∧ b.pins.bts = bts
        ∧ b.pw.resetEdge = s.blk.ck.tide)
  ∧ ∀ (s : State) strap bts board, s.blk.pins.wrstLow = true → s.blk.pw.heldInReset = false →
    Does (.wrstNRise strap bts board) s [.pins] fun b => b.pins = { s.blk.pins with wrstLow := false, strap := strap, bts := bts }

/-- In DARK and in a scan test WRST_N falling is the pin's level and nothing else.  Outside them it holds the pier in reset as ARRIVAL, DMAN low: rings, pier ID, charters, lanes, links, fairway and quay are reset; the region and route tables with their lock, the clock block's registers but `CK_RESET_CAUSE`, the tide counter, the key store, the stored symbols and the logbook's records stay. -/
def Obligations.WarmResetKeepsAndClears : Prop :=
  (∀ s : State, (s.blk.pw.st = .dark ∨ s.blk.sv.inScan = true) → Does .wrstNFall s [.pins] fun b => b.pins = { s.blk.pins with wrstLow := true })
  ∧ ∀ s : State, s.blk.pw.st ≠ .dark → s.blk.sv.inScan = false → s.blk.pins.wrstLow = false →
    Does .wrstNFall s (Piece.all.filter (· ∉ [.fresh, .jtagDr, .frzOut])) fun b =>
      b.pw.st = .arrival ∧ b.pw.heldInReset = true ∧ b.pins.wrstLow = true ∧ b.stk.dman = true ∧ b.mf.rings = [] ∧ b.mf.slots = []
        ∧ b.qy.idValid = false ∧ b.qy.reqs = [] ∧ b.chs = {} ∧ (∀ l, (b.lane l).st = .off) ∧ b.fwWE = {} ∧ b.fwEW = {} ∧ b.west.seg = .down ∧ b.east.seg = .down
        ∧ b.ck.tide = s.blk.ck.tide ∧ b.keys.arrival = s.blk.keys.arrival ∧ b.keys.region = s.blk.keys.region
        ∧ b.keys.manifest = s.blk.keys.manifest ∧ b.keys.wrap = s.blk.keys.wrap
        ∧ (∀ o, Off.qyRoute ≤ o → o < 0x0D0000 → b.reg o = s.blk.reg o) ∧ b.regBit Off.qyCtrl 1 = s.blk.regBit Off.qyCtrl 1
        ∧ b.regBit Off.mfCtrl 31 = s.blk.regBit Off.mfCtrl 31 ∧ (∀ o, o / 0x10000 = 1 → o ≠ Off.ckResetCause → b.reg o = s.blk.reg o)
        ∧ b.regBit Off.ckResetCause 2 = true
        ∧ b.lg.events = s.blk.lg.events ∧ b.lg.trips = s.blk.lg.trips ∧ b.lg.charts = s.blk.lg.charts

/-- PWR_REQ_N low with `PWR_REQ_EN` 1: in HARBOUR and OPEN departure starts with phase 1, every charter closing and a snapshot under way ended, surveying as `PWR_REQ_SURVEY` says; in ARRIVAL or SURVEY, outside reset, the request is held; with `PWR_REQ_EN` 0, in reset, and in DARK, DEPARTURE, TRIPPED and FROZEN nothing happens. -/
def Obligations.PowerRequest : Prop :=
  (∀ s : State, s.blk.live = true → s.blk.regBit Off.pwCtrl 0 = true → s.blk.inService = true →
    Does .pwrReqNLow s [.chans, .chs, .ck, .doms, .ins, .lanes, .mf, .prot, .pw, .running, .sides, .slots, .stk, .sv, .tl] fun b =>
      b.pw.st = .departure ∧ b.pw.depPhase = .quiesce ∧ b.pw.depNoSurvey = !s.blk.regBit Off.pwCtrl 1 ∧ b.pw.depWaiter = none
        ∧ b.pw.depStart = s.blk.ck.tide ∧ b.tl.busy = false ∧ ∀ e ∈ b.chs.tab, e.2.st = .closing ∨ e.2.st = .free)
  ∧ (∀ s : State, s.blk.live = true → s.blk.regBit Off.pwCtrl 0 = true → s.blk.pw.heldInReset = false →
      (s.blk.pw.st = .arrival ∨ s.blk.pw.st = .survey) →
      Does .pwrReqNLow s [.pw] fun b => b.pw = { s.blk.pw with depHeld := true })
  ∧ ∀ s : State, (s.blk.regBit Off.pwCtrl 0 = false ∨ (s.blk.pw.st = .arrival ∧ s.blk.pw.heldInReset = true) ∨ s.blk.pw.st = .dark ∨ s.blk.pw.st = .departure
      ∨ s.blk.pw.st = .tripped ∨ s.blk.pw.st = .frozen) →
      exec .pwrReqNLow s = .next s

/-- FREEZE_N falling outside DARK, FROZEN and scan test: FROZEN, DMAN low, both links down, no requests, the logbook's trip and chart records, the tide counter and the keys as before; TRST_N low outside DARK clears the TAP's registers and nothing else. -/
def Obligations.FreezeAndTrst : Prop :=
  (∀ s : State, s.blk.pw.st ≠ .dark → s.blk.pw.st ≠ .frozen → s.blk.sv.inScan = false →
    Does .freezeNFall s [.chans, .chs, .ck, .cnt, .fresh, .ins, .lanes, .lg, .pw, .qy, .regs, .sides, .stk] fun b =>
      b.pw.st = .frozen ∧ b.stk.dman = true ∧ b.west.seg = .down ∧ b.east.seg = .down ∧ b.qy.reqs = [] ∧ b.fwWE.buf = s.blk.fwWE.buf ∧ b.fwEW.buf = s.blk.fwEW.buf
        ∧ b.ck.tide = s.blk.ck.tide ∧ b.keys = s.blk.keys ∧ b.lg.trips = s.blk.lg.trips ∧ b.lg.charts = s.blk.lg.charts)
  ∧ ∀ s : State, s.blk.pw.st ≠ .dark → Does .trstNLow s [.jtagDr, .frzOut] fun b => b.jtagDr = 0 ∧ b.frzOut = []

/-! ### Failing clocks and rails -/

/-- XTAL_FAIL of a running crystal and ROOT_LOST of a locked PLL_ROOT, with breakwater armed and not in FROZEN: the core gated, PLL_ROOT out of lock, the alarm bit set and ALERT_N low; where the core was not gated before, both sides down with no lane but FAILED ones out of OFF, DMAN low and the requests abandoned; AON and HK go to RC for the crystal, and from PLL_ROOT to the crystal for PLL_ROOT; stored symbols change at most in granules whose burst is cut.  In FROZEN breakwater shows the failure alone: the alarm, the PLL out of lock, ALERT_N.  Of a clock that has failed already, in DARK and in scan, nothing happens. -/
def Obligations.CrystalAndRootFailures : Prop :=
  (∀ (s : State) aonDead hkDead, s.blk.armed = true → s.blk.pw.st ≠ .frozen → s.blk.ck.xtalOk = true →
    DoesOn (.xtalFail aonDead hkDead) s [.berths, .chans, .chs, .ck, .cnt, .doms, .events, .fresh, .fws, .hold, .ins, .lanes, .lg, .mf, .prot, .pw, .qy, .regs, .running, .sel, .sides, .slots, .stk, .sv, .tide, .tl] (fun a => a / symsPerGranule ∈ s.blk.cutGranules) fun t =>
      t.blk.ck.xtalOk = false ∧ t.blk.ck.coreGated = true ∧ t.blk.ck.root.lock = false ∧ t.blk.ck.root.attempt = false
        ∧ t.blk.ck.aonSrc = .rc ∧ t.blk.ck.hkSrc = .rc ∧ t.blk.ck.tideSrc = .rc ∧ t.blk.regBit Off.ckAlarm 3 = true ∧ t.blk.alertLow = true
        ∧ (s.blk.ck.coreGated = false → t.blk.stk.dman = true ∧ t.blk.qy.reqs = [] ∧ t.blk.west.seg = .down ∧ t.blk.east.seg = .down
            ∧ ∀ l, l < 32 → (t.blk.lane l).st = .off ∨ (t.blk.lane l).st = .failed))
  ∧ (∀ (s : State) aonDead hkDead, s.blk.armed = true → s.blk.pw.st ≠ .frozen → s.blk.ck.root.lock = true →
    DoesOn (.rootLost aonDead hkDead) s [.berths, .chans, .chs, .ck, .cnt, .doms, .events, .fresh, .fws, .hold, .ins, .lanes, .lg, .mf, .prot, .pw, .qy, .regs, .running, .sel, .sides, .slots, .stk, .sv, .tl] (fun a => a / symsPerGranule ∈ s.blk.cutGranules) fun t =>
      t.blk.ck.coreGated = true ∧ t.blk.ck.root.lock = false ∧ t.blk.ck.root.down = true ∧ t.blk.ck.root.attempt = false
        ∧ t.blk.ck.aonSrc = (if s.blk.ck.aonSrc = .pllRoot then .crystal else s.blk.ck.aonSrc)
        ∧ t.blk.ck.hkSrc = (if s.blk.ck.hkSrc = .pllRoot then .crystal else s.blk.ck.hkSrc)
        ∧ t.blk.stk.dman = true ∧ t.blk.qy.reqs = [] ∧ t.blk.west.seg = .down ∧ t.blk.east.seg = .down
        ∧ (∀ l, l < 32 → (t.blk.lane l).st = .off ∨ (t.blk.lane l).st = .failed) ∧ t.blk.regBit Off.ckAlarm 0 = true ∧ t.blk.alertLow = true)
  ∧ (∀ (s : State) aonDead hkDead, s.blk.armed = true → s.blk.pw.st = .frozen → s.blk.ck.xtalOk = true →
    DoesOn (.xtalFail aonDead hkDead) s [.fresh, .ck, .events, .reg Off.ckAlarm, .reg Off.lgAlarm] (fun a => a / symsPerGranule ∈ s.blk.cutGranules) fun t =>
      t.blk.ck.xtalOk = false ∧ t.blk.ck.root.lock = false ∧ t.blk.pw.st = .frozen ∧ t.blk.regBit Off.ckAlarm 3 = true ∧ t.blk.alertLow = true)
  ∧ (∀ (s : State) aonDead hkDead, s.blk.armed = true → s.blk.pw.st = .frozen → s.blk.ck.root.lock = true →
    DoesOn (.rootLost aonDead hkDead) s [.fresh, .ck, .events, .reg Off.ckAlarm, .reg Off.lgAlarm] (fun a => a / symsPerGranule ∈ s.blk.cutGranules) fun t =>
      t.blk.ck.root.lock = false ∧ t.blk.pw.st = .frozen ∧ t.blk.regBit Off.ckAlarm 0 = true ∧ t.blk.alertLow = true)
  ∧ (∀ (s : State) aonDead hkDead, (s.blk.armed = false ∨ s.blk.ck.xtalOk = false) → exec (.xtalFail aonDead hkDead) s = .next s)
  ∧ ∀ (s : State) aonDead hkDead, (s.blk.armed = false ∨ s.blk.ck.root.lock = false) → exec (.rootLost aonDead hkDead) s = .next s

/-- LANE_PLL_FAIL with that PLL locked, breakwater armed and the pier not FROZEN: the PLL is down and out of lock, its side is down, `CK_ALARM` shows it and ALERT_N is low; AON's and HK's source, PLL_ROOT and the stack are unchanged.  RC_FAIL of a running oscillator: with neither AON nor HK on RC only the alarm and the event; with either on it AON and the harbourmaster stop, the event waits for the harbourmaster's clock, and the data path runs on as it did.  Of an oscillator that has failed already nothing happens. -/
def Obligations.LanePllAndRcFailures : Prop :=
  (∀ (s : State) sd refLost, s.blk.armed = true → s.blk.pw.st ≠ .frozen → (s.blk.pll (sidePll sd)).lock = true →
    Does (.lanePllFail sd refLost) s [.ck, .cnt, .events, .fws, .ins, .lanes, .mf, .pw, .qy, .regs, .running, .sides, .slots, .tl] fun b =>
      (b.pll (sidePll sd)).lock = false ∧ (b.pll (sidePll sd)).down = true ∧ b.ck.root = s.blk.ck.root ∧ b.ck.aonSrc = s.blk.ck.aonSrc
        ∧ b.ck.hkSrc = s.blk.ck.hkSrc ∧ b.ck.coreGated = s.blk.ck.coreGated ∧ (b.side sd).seg = .down ∧ b.stk = s.blk.stk
        ∧ b.regBit Off.ckAlarm (match sd with | .west => 1 | .east => 2) = true ∧ b.alertLow = true)
  ∧ (∀ s : State, s.blk.armed = true → s.blk.ck.rcOk = true → s.blk.ck.aonSrc ≠ .rc → s.blk.ck.hkSrc ≠ .rc →
    Does .rcFail s [.ck, .events, .ins, .reg Off.ckAlarm, .reg Off.lgAlarm, .running, .slots] fun b => b.ck = { s.blk.ck with rcOk := false } ∧ b.regBit Off.ckAlarm 4 = true)
  ∧ (∀ s : State, s.blk.armed = true → s.blk.ck.rcOk = true → (s.blk.ck.aonSrc = .rc ∨ s.blk.ck.hkSrc = .rc) →
    Does .rcFail s [.ck, .events, .ins, .reg Off.ckAlarm, .reg Off.lgAlarm, .running, .slots] fun b =>
      b.ck = { s.blk.ck with rcOk := false, aonStopped := true, hmStopped := true } ∧ b.live = false ∧ b.hmRuns = false
        ∧ b.carries = s.blk.carries ∧ b.regBit Off.ckAlarm 4 = true ∧ b.lg.events = s.blk.lg.events
        ∧ (s.blk.sv.logDisabled = false → b.lg.due = s.blk.lg.due ++ [{ code := BitVec.ofNat 16 Ev.rcFail.code, unit := 0, detail := [] }]))
  ∧ ∀ s : State, (s.blk.armed = false ∨ s.blk.ck.rcOk = false) → exec .rcFail s = .next s

/-- RAIL_UV with breakwater armed sets `PW_ALARM.RAIL_UV` and ALERT_N: VDD_IO touches nothing else; a lane rail takes both lane PLLs that are locked out of lock; a stack rail leaves every berth FENCED or ABSENT; VDD_CORE takes PLL_ROOT out of lock and, outside FROZEN, gates the core, and where PLL_ROOT was not locked touches nothing else.  In DARK the rail is noted alone, in a scan test with the alarm.  VDD_AON's undervoltage is another command's.  RAIL_RECOVERY removes the rail from those below threshold and leaves everything else, `PW_ALARM` with it. -/
def Obligations.RailFaults : Prop :=
  (∀ s : State, s.blk.armed = true → Does (.railUv .io) s [.pins, .events, .reg Off.pwAlarm, .reg Off.lgAlarm] fun b =>
      b.pins.railsLow.contains .io = true ∧ b.regBit Off.pwAlarm 5 = true ∧ b.alertLow = true)
  ∧ (∀ (s : State) (r : Rail), s.blk.armed = true → (r = .lane ∨ r = .laneA) →
    Does (.railUv r) s [.ck, .cnt, .events, .fws, .ins, .lanes, .mf, .pw, .qy, .regs, .running, .sides, .slots, .tl, .pins, .lg] fun b =>
      b.pins.railsLow.contains r = true ∧ b.ck.west.lock = false ∧ b.ck.east.lock = false ∧ b.regBit Off.pwAlarm 5 = true ∧ b.alertLow = true)
  ∧ (∀ (s : State) (r : Rail), s.blk.armed = true → (r = .vpp ∨ r = .stack) →
    Does (.railUv r) s [.berths, .chans, .chs, .ck, .cnt, .doms, .events, .fresh, .fws, .hold, .ins, .lanes, .lg, .mf, .pins, .prot, .pw, .qy, .regs, .running, .sel, .sides, .slots, .stk, .sv, .tl] fun b =>
      b.pins.railsLow.contains r = true ∧ b.stk.railFault = true ∧ b.regBit Off.pwAlarm 5 = true ∧ b.alertLow = true
        ∧ ∀ n, n < 64 → (b.berth n).st = .fenced ∨ (b.berth n).st = .absent)
  ∧ (∀ s : State, s.blk.armed = true → s.blk.ck.root.lock = true →
    DoesOn (.railUv .core) s [.berths, .chans, .chs, .ck, .cnt, .doms, .events, .fresh, .fws, .hold, .ins, .lanes, .lg, .mf, .pins, .prot, .pw, .qy, .regs, .running, .sel, .sides, .slots, .stk, .sv, .tl] (fun a => a / symsPerGranule ∈ s.blk.cutGranules) fun t =>
      t.blk.pins.railsLow.contains .core = true ∧ t.blk.ck.root.lock = false ∧ (s.blk.pw.st ≠ .frozen → t.blk.ck.coreGated = true ∧ t.blk.stk.dman = true)
        ∧ t.blk.regBit Off.pwAlarm 5 = true ∧ t.blk.alertLow = true)
  ∧ (∀ s : State, s.blk.armed = true → s.blk.ck.root.lock = false →
    Does (.railUv .core) s [.pins, .pw, .events, .lg, .reg Off.pwAlarm, .reg Off.lgAlarm] fun b =>
      b.pins.railsLow.contains .core = true ∧ b.regBit Off.pwAlarm 5 = true ∧ b.alertLow = true)
  ∧ (∀ (s : State) (r : Rail), s.blk.armed = false → s.blk.pw.st ≠ .dark → r ≠ .aon →
    Does (.railUv r) s [.pins, .pw, .events, .lg, .stk, .berths, .reg Off.pwAlarm, .reg Off.lgAlarm] fun b =>
      b.pins.railsLow.contains r = true ∧ b.regBit Off.pwAlarm 5 = true ∧ b.alertLow = true)
  ∧ (∀ (s : State) (r : Rail), s.blk.pw.st = .dark → r ≠ .aon →
    Does (.railUv r) s [.pins] fun b => b.pins.railsLow.contains r = true)
  ∧ (∀ s : State, exec (.railUv .aon) s = .next s)
  ∧ ∀ (s : State) (r : Rail), Does (.railRecovery r) s [.pins] fun b =>
      b.pins = { s.blk.pins with railsLow := s.blk.pins.railsLow.filter (· != r) }

/-- REFERENCE_PRESENT notes the reference.  LANE_PLL_LOCK locks a PLL whose clock domain is ON, whose reference is present and whose rails are in range.  RELOCK_ATTEMPT, at its time, uses one of three attempts; RELOCK_SUCCESS after 10 µs of lock locks the PLL, and for PLL_ROOT ungates the core with CLK_CORE on the tide, completes a RECOVER that waits and leaves every lane's LN_ALARM_EN at its reset value, for a lane PLL those of its side alone; RELOCK_ATTEMPT_FAIL after the PLL's lock time leaves it down, the next attempt 10 µs later, and after the third gives up with `CK_ALARM.RELOCK_FAIL`. -/
def Obligations.LocksAndRelocks : Prop :=
  (∀ (s : State) sd, s.blk.pw.st ≠ .dark → Does (.referencePresent sd) s [.side sd] fun b =>
      b.side sd = { s.blk.side sd with refPresent := true })
  ∧ (∀ (s : State) sd, s.blk.live = true → s.blk.domOn (ckDom sd) = true → (s.blk.side sd).refPresent = true → s.blk.laneRails = true →
      (s.blk.pll (sidePll sd)).lock = false → (s.blk.pll (sidePll sd)).down = false →
      Does (.lanePllLock sd) s [.ck, .events, .lanes, .regs, .sides] fun b => b.pll (sidePll sd) = { s.blk.pll (sidePll sd) with lock := true })
  ∧ (∀ (s : State) p, s.blk.live = true → (s.blk.pll p).down = true → (s.blk.pll p).attempt = false → (s.blk.pll p).gaveUp = false →
      (s.blk.pll p).tries < 3 → s.blk.pllFed p = true → (s.blk.regBit Off.ckCtrl 0 = true ∨ (s.blk.pll p).forced = true) →
      s.blk.passed 0 (s.blk.pll p).next = true →
      Does (.relockAttempt p) s [.ck] fun b => b.pll p = { s.blk.pll p with attempt := true, began := s.blk.ck.tide, tries := (s.blk.pll p).tries + 1 })
  ∧ (∀ (s : State) pass lost flight, s.blk.live = true → s.blk.ck.root.attempt = true → 10 * usTicks ≤ s.blk.since s.blk.ck.root.began →
      Does (.relockSuccess .root pass lost flight) s [.berths, .chans, .chs, .ck, .cnt, .cols, .events, .fresh, .fws, .hold, .ins, .lanes, .mf, .prot, .pw, .qy, .regs, .running, .sel, .sides, .slots, .stk, .tl] fun b =>
        b.ck.root.lock = true ∧ b.ck.root.down = false ∧ b.ck.coreGated = false ∧ b.ck.tideSrc = .pllRoot ∧ b.regBit Off.ckResetCause 4 = true
          ∧ b.ck.recover = none ∧ ∀ l : LaneId, b.reg (lnOff Off.lnAlarmEn l) = 0)
  ∧ (∀ (s : State) sd pass lost flight, s.blk.live = true → (s.blk.pll (sidePll sd)).attempt = true →
      10 * usTicks ≤ s.blk.since (s.blk.pll (sidePll sd)).began →
      Does (.relockSuccess (sidePll sd) pass lost flight) s [.berths, .chans, .chs, .ck, .cnt, .cols, .events, .fresh, .fws, .hold, .ins, .lanes, .mf, .prot, .pw, .qy, .regs, .running, .sel, .sides, .slots, .stk, .tl] fun b =>
        (b.pll (sidePll sd)).lock = true ∧ (b.pll (sidePll sd)).down = false ∧ b.ck.root = s.blk.ck.root
          ∧ ∀ l : LaneId, b.reg (lnOff Off.lnAlarmEn l) = if laneSide l = sd then 0 else s.blk.reg (lnOff Off.lnAlarmEn l))
  ∧ (∀ (s : State) p, s.blk.live = true → (s.blk.pll p).attempt = true → (s.blk.pll p).tries < 3 →
      lockTicks p ≤ s.blk.since (s.blk.pll p).began →
      Does (.relockAttemptFail p) s [.ck] fun b =>
        b.pll p = { s.blk.pll p with attempt := false, next := s.blk.ck.tide + BitVec.ofNat 64 (10 * usTicks) })
  ∧ ∀ (s : State) p, s.blk.live = true → (s.blk.pll p).attempt = true → 3 ≤ (s.blk.pll p).tries → lockTicks p ≤ s.blk.since (s.blk.pll p).began →
      Does (.relockAttemptFail p) s [.ck, .events, .fresh, .ins, .reg Off.ckAlarm, .reg Off.lgAlarm, .running, .slots] fun b =>
        (b.pll p).attempt = false ∧ (b.pll p).gaveUp = true ∧ (b.pll p).lock = (s.blk.pll p).lock ∧ b.regBit Off.ckAlarm 6 = true

/-! ### Arrival -/

/-- BOOT_DONE boots the active slot's image where it is valid, and the other slot's where only that one is; with neither the pier stays under boot code; a low VDD_IO holds it up.  ARRIVAL_PLL_LOCK puts AON, HK, SV, TL and the tide on PLL_ROOT.  CHART_READ_DONE enters SURVEY: full where R366 says so, and while a domain is OFF the domains power up; a full one then goes through its power groups from group 0. -/
def Obligations.ArrivalStepsOneToThree : Prop :=
  (∀ (s : State) d0 d1 ia ib root x, s.blk.pw.st = .arrival → s.blk.pw.arr = .boot → s.blk.mf.noImage = false → s.blk.hmRuns = true → s.blk.spiRuns = true →
      (s.blk.holdDirs (dirOf d0) (dirOf d1)).mf.dir0 = some x → (s.blk.holdDirs (dirOf d0) (dirOf d1)).mf.dir1 = none → s.blk.imageValid (s.blk.imageIn ia ib root x.slotB) = true →
      Does (.bootDone d0 d1 ia ib root) s [.ck, .events, .fresh, .heat, .lg, .mf, .pw, .reg Off.lgAlarm, .reg Off.mfAlarm, .sv] fun b =>
        b.mf.bootSlot = some x.slotB ∧ b.mf.fwVersion = (s.blk.imageIn ia ib root x.slotB).version ∧ b.pw.arr = .pll ∧ b.pw.st = .arrival
          ∧ b.mf.noImage = false)
  ∧ (∀ (s : State) d0 d1 ia ib root x, s.blk.pw.st = .arrival → s.blk.pw.arr = .boot → s.blk.mf.noImage = false → s.blk.hmRuns = true → s.blk.spiRuns = true →
      (s.blk.holdDirs (dirOf d0) (dirOf d1)).mf.dir0 = none → (s.blk.holdDirs (dirOf d0) (dirOf d1)).mf.dir1 = some x → s.blk.imageValid (s.blk.imageIn ia ib root x.slotB) = false →
      s.blk.imageValid (s.blk.imageIn ia ib root (!x.slotB)) = true →
      Does (.bootDone d0 d1 ia ib root) s [.ck, .events, .fresh, .heat, .lg, .mf, .pw, .reg Off.lgAlarm, .reg Off.mfAlarm, .sv] fun b =>
        b.mf.bootSlot = some (!x.slotB) ∧ b.mf.fwVersion = (s.blk.imageIn ia ib root (!x.slotB)).version ∧ b.pw.arr = .pll ∧ b.regBit Off.mfAlarm 3 = true)
  ∧ (∀ (s : State) d0 d1 ia ib root, s.blk.pw.st = .arrival → s.blk.pw.arr = .boot → s.blk.mf.noImage = false → s.blk.hmRuns = true → s.blk.spiRuns = true →
      s.blk.imageValid (s.blk.imageIn ia ib root false) = false → s.blk.imageValid (s.blk.imageIn ia ib root true) = false →
      Does (.bootDone d0 d1 ia ib root) s [.ck, .events, .fresh, .heat, .lg, .mf, .pw, .reg Off.lgAlarm, .reg Off.mfAlarm, .sv] fun b =>
        b.mf.noImage = true ∧ b.pw.arr = .boot ∧ b.pw.st = .arrival ∧ b.mf.bootSlot = s.blk.mf.bootSlot)
  ∧ (∀ s : State, s.blk.pw.st = .arrival → s.blk.pw.arr = .pll → s.blk.hmRuns = true → s.blk.pllFed .root = true →
      Does .arrivalPllLock s [.ck, .pw] fun b =>
        b.ck.root.lock = true ∧ b.ck.root.down = false ∧ b.ck.aonSrc = .pllRoot ∧ b.ck.hkSrc = .pllRoot ∧ b.ck.svSrc = .pllRoot
          ∧ b.ck.tlSrc = .pllRoot ∧ b.ck.tideSrc = .pllRoot ∧ b.ck.coreGated = s.blk.ck.coreGated
          ∧ b.pw = { s.blk.pw with arr := .chart })
  ∧ ∀ s : State, s.blk.pw.st = .arrival → s.blk.pw.arr = .chart → s.blk.hmRuns = true → s.blk.sv.tested = false →
      Does .chartReadDone s [.berths, .cols, .doms, .fresh, .heat, .keys, .lanes, .pw, .regs, .stk, .sv] fun b =>
        b.pw.st = .survey ∧ (b.pw.arr = .power ∨ (b.pw.arr = .survey ∨ b.pw.arr = .groups) ∧ b.sv.busy = true)
          ∧ (b.pw.arr = .power → ∃ d, d < 48 ∧ ((b.dom d).st = .powering ∨ (b.dom d).st = .draining))
          ∧ (b.pw.arr = .groups → b.pw.surveyFull = true ∧ b.sv.group = 0)
          ∧ b.pw.surveyFull = s.blk.loadChart.fullSurvey ∧ b.sv.kind = (if s.blk.loadChart.fullSurvey then 2 else 1)

/-- POWER_GOOD turns a POWERING domain whose turn on its rails it is ON and counts it; DOMAIN_POWER_FAIL, 100 µs into its turn, turns it FAILED with `PW_ALARM.DOM_FAIL`; in HARBOUR and OPEN DRAIN_DONE turns a DRAINING domain OFF once the work of R372 is done; a manifest that waited for the domain waits no more. -/
def Obligations.DomainsPowerAndDrain : Prop :=
  (∀ (s : State) (d : DomId), (s.blk.dom d).st = .powering → s.blk.live = true → s.blk.powerTurn d = true →
      Does (.powerGood d) s [.chans, .chs, .cnt, .doms, .events, .fresh, .fws, .hold, .ins, .keys, .lanes, .pw, .regs, .running, .sel, .sides, .slots, .sv, .tl] fun b =>
        (b.dom d).st = .on ∧ (b.dom d).onCount = (s.blk.dom d).onCount + 1 ∧ (b.dom d).waiter = none)
  ∧ (∀ (s : State) (d : DomId), (s.blk.dom d).st = .powering → s.blk.live = true → s.blk.powerTurn d = true →
      100 * usTicks ≤ s.blk.since (s.blk.dom d).since →
      Does (.domainPowerFail d) s [.doms, .events, .fresh, .ins, .keys, .pw, .reg Off.lgAlarm, .reg Off.pwAlarm, .running, .slots, .sv] fun b =>
        (b.dom d).st = .failed ∧ (b.dom d).waiter = none ∧ b.regBit Off.pwAlarm 1 = true)
  ∧ ∀ (s : State) (d : DomId), (s.blk.dom d).st = .draining → s.blk.inService = true → s.blk.live = true → s.blk.drained d = true →
      Does (.drainDone d) s [.berths, .chans, .ck, .cnt, .doms, .events, .fresh, .fws, .ins, .keys, .lanes, .lg, .mf, .pw, .qy, .regs, .running, .sides, .slots, .sv, .tl] fun b => (b.dom d).st = .off ∧ (b.dom d).waiter = none

/-- ARRIVAL_SURVEY_DONE with a working survey engine and HK domain enters HARBOUR with DMAN high, or the departure that waited; a channel keeps its contents only through a warm reset with a quick survey and no trip.  With the HK domain FAILED the pier stays in SURVEY. -/
def Obligations.SurveyEndsInHarbour : Prop :=
  (∀ (s : State) (f : SurveyFindings), s.blk.pw.st = .survey → s.blk.pw.arr = .survey → s.blk.hmRuns = true → s.blk.coreRuns = true →
    f.svOk = true → f.domFail = 0 → (s.blk.dom hkDom).st ≠ .failed → s.blk.pw.depHeld = false →
    Does (.arrivalSurveyDone f) s [.berths, .chans, .chs, .ck, .cnt, .cols, .doms, .events, .fresh, .fws, .ins, .keys, .lanes, .lg, .mf, .prot, .pw, .qy, .regs, .running, .sides, .slots, .stk, .sv, .tl] fun b =>
      (b.pw.st = .harbour ∨ b.pw.st = .openS) ∧ b.sv.busy = false ∧ b.stk.dman = false ∧ b.pw.tripHold = s.blk.tripUnacked
        ∧ b.pw.afterTrip = false
        ∧ ∀ n, n < 64 → (b.berth n).fillDone = true →
            s.blk.pw.warm = true ∧ s.blk.pw.surveyFull = false ∧ s.blk.pw.afterTrip = false ∧ (s.blk.berth n).fillDone = true)
  ∧ (∀ (s : State) (f : SurveyFindings), s.blk.pw.st = .survey → s.blk.pw.arr = .survey → s.blk.hmRuns = true → s.blk.coreRuns = true →
    f.svOk = true → f.domFail = 0 → (s.blk.dom hkDom).st ≠ .failed → s.blk.pw.depHeld = true →
    Does (.arrivalSurveyDone f) s [.berths, .chans, .chs, .ck, .cnt, .cols, .doms, .events, .fresh, .fws, .ins, .keys, .lanes, .lg, .mf, .prot, .pw, .qy, .regs, .running, .sides, .slots, .stk, .sv, .tl] fun b =>
      b.pw.st = .departure ∧ b.pw.depPhase = .quiesce ∧ b.pw.depNoSurvey = true ∧ b.pw.depHeld = false ∧ b.sv.busy = false)
  ∧ ∀ (s : State) (f : SurveyFindings), s.blk.pw.st = .survey → s.blk.pw.arr = .survey → s.blk.hmRuns = true → s.blk.coreRuns = true →
    (s.blk.dom hkDom).st = .failed →
    Does (.arrivalSurveyDone f) s [.berths, .chans, .chs, .ck, .cnt, .cols, .doms, .events, .fresh, .fws, .ins, .keys, .lanes, .lg, .mf, .prot, .pw, .qy, .regs, .running, .sides, .slots, .stk, .sv, .tl] fun b => b.pw.st = .survey ∧ b.sv.busy = false

/-- CHANNEL_FILL_DONE on a FILLING berth, once the rest of its fill fits under its ceiling in the time since its last granule: the berth is READY, or THROTTLED under a step, its contents are known, every granule of the channel reads as zeros, and no other channel's symbols change.  LINK_RETRY on a down side with `RETRY_EN` in HARBOUR or OPEN, with a lane to train and no retry in the last second, hunts on those lanes at G1; the cap on G2 holds only in HARBOUR. -/
def Obligations.FillsAndRetries : Prop :=
  (∀ (s : State) (n : ChId), s.blk.coreRuns = true → (s.blk.berth n).st = .filling → s.blk.fillFits n = true →
      DoesOn (.channelFillDone n) s [.berth n, .chans, .cnt, .events, .fws, .ins, .lanes, .mf, .prot, .pw, .qy, .regs, .sides, .slots, .tl] (fun a => chanOf (a / symsPerGranule) = n.val) fun t =>
        (t.blk.berth n).st = (if (s.blk.chan n).step = 0 then .ready else .throttled) ∧ (t.blk.berth n).fillDone = true
          ∧ ∀ a, chanOf (a / symsPerGranule) = n.val → Memory.read t.mem a = Memory.unlisted a)
  ∧ ∀ (s : State) sd, s.blk.inService = true → s.blk.coreRuns = true → s.blk.regBit Off.pwCtrl 3 = true →
      (s.blk.side sd).seg = .down → s.blk.trainLanes sd ≠ [] → s.blk.olderThan sTicks (s.blk.side sd).retryAt = true →
      Does (.linkRetry sd) s [.cnt, .events, .fws, .ins, .lanes, .mf, .pw, .qy, .regs, .sides, .tl] fun b =>
        (b.side sd).grade = 0 ∧ (b.side sd).seg = .training ∧ (b.side sd).capG2 = (s.blk.pw.st == .harbour)
          ∧ ∀ l ∈ s.blk.trainLanes sd, (b.lane l).st = .hunt ∧ (b.lane l).grade = 0

/-! ### Departure, scan and captured chains -/

/-- QUIESCE_DONE, 10 µs or more into the departure, with every request answered and no firmware COMMIT in hand closes every charter, takes both links down and goes on to phase 2, with a survey in power group 0; DEPARTURE_SURVEY_DONE first puts the channels that are awake to sleep, then ends a group's test, after which no channel has contents, DRAIN_DONE of a group's last domain starts the next group and after group 7 the chart, which an abandoned departure skips; without the survey engine, or without a survey, the chart follows at once; CHART_WRITE_DONE makes a chart that was being written the one that governs and starts to drain what is ON; DEPARTURE_READY has every domain OFF or FAILED, sets OFF_READY and drives ALERT_N low. -/
def Obligations.DeparturePhases : Prop :=
  (∀ s : State, s.blk.pw.st = .departure → s.blk.pw.depPhase = .quiesce → s.blk.live = true → s.blk.commitRuns = false → s.blk.qy.reqs = [] →
      10 * usTicks ≤ s.blk.since s.blk.pw.depStart →
      Does .quiesceDone s [.berths, .chans, .chs, .cnt, .doms, .events, .fws, .ins, .lanes, .pw, .qy, .regs, .sides, .sv, .tl] fun b =>
        b.pw.depPhase = .survey ∧ b.west.seg = .down ∧ b.east.seg = .down ∧ b.actives = [] ∧ b.qy.claimed = []
          ∧ (s.blk.pw.depNoSurvey = false → b.sv.kind = 3 ∧ b.sv.busy = true ∧ b.sv.group = 0 ∧ b.sv.tested = false ∧ b.pw.depGroup = 0)
          ∧ (s.blk.pw.depNoSurvey = true → ∀ d, 16 ≤ d → d < 48 → (b.dom d).st ≠ .on))
  ∧ (∀ (s : State) f, s.blk.pw.st = .departure → s.blk.pw.depPhase = .survey → s.blk.live = true → (List.range 64).all s.blk.asleep = false →
      Does (.departureSurveyDone f) s [.chans, .berths, .cnt] fun b =>
        ∀ n, n < 64 → s.blk.mayPark n = true → (b.chan n).pwr = .entering ∧ (b.chan n).forced = true ∧ (b.berth n).st = .absent)
  ∧ (∀ (s : State) f, s.blk.pw.st = .departure → s.blk.pw.depPhase = .survey → s.blk.live = true → s.blk.pw.depNoSurvey = false →
      (List.range 64).all s.blk.asleep = true → s.blk.sv.tested = false → s.blk.switching = false → f.svOk = true → s.blk.sv.group ≠ 7 →
      Does (.departureSurveyDone f) s [.berths, .chans, .chs, .cnt, .cols, .doms, .events, .fresh, .fws, .ins, .keys, .lanes, .lg, .mf, .pw, .qy, .regs, .sides, .stk, .sv, .tl] fun b =>
        b.pw.depPhase = .survey ∧ (b.sv.tested = true ∧ b.sv.group = s.blk.sv.group ∨ b.sv.tested = false ∧ b.sv.group = s.blk.sv.group + 1)
          ∧ ∀ n, n < 64 → (b.berth n).fillDone = false)
  ∧ (∀ (s : State) f, s.blk.pw.st = .departure → s.blk.pw.depPhase = .survey → s.blk.live = true → s.blk.pw.depNoSurvey = false →
      (List.range 64).all s.blk.asleep = true → s.blk.sv.tested = false → s.blk.switching = false → f.svOk = false →
      Does (.departureSurveyDone f) s [.berths, .chans, .chs, .cnt, .cols, .doms, .events, .fresh, .fws, .ins, .keys, .lanes, .lg, .mf, .pw, .qy, .regs, .sides, .stk, .sv, .tl] fun b =>
        b.pw.depPhase = (if s.blk.pw.depAbandoned then .domainsOff else .chart) ∧ b.sv.busy = false ∧ ∀ n, n < 64 → (b.berth n).fillDone = false)
  ∧ (∀ (s : State) (d : DomId), s.blk.pw.st = .departure → s.blk.staggered = true → s.blk.sv.tested = true → s.blk.live = true →
      (s.blk.dom d).st = .draining → s.blk.drained d = true →
      (∀ e ∈ groupDoms s.blk.sv.group.toNat, e ≠ d.val → (s.blk.dom e).st ≠ .draining) →
      Does (.drainDone d) s [.berths, .chans, .ck, .cnt, .doms, .events, .fresh, .fws, .ins, .keys, .lanes, .lg, .mf, .pw, .qy, .regs, .running, .sides, .slots, .sv, .tl] fun b =>
        (s.blk.sv.group ≠ 7 → b.pw.depPhase = .survey ∧ b.sv.group = s.blk.sv.group + 1 ∧ b.pw.depGroup = s.blk.sv.group + 1 ∧ b.sv.tested = false)
          ∧ (s.blk.sv.group = 7 → b.sv.busy = false ∧ b.pw.depPhase = (if s.blk.pw.depAbandoned then .domainsOff else .chart)))
  ∧ (∀ (s : State) f, s.blk.pw.st = .departure → s.blk.pw.depPhase = .survey → s.blk.live = true → s.blk.pw.depNoSurvey = true →
      (List.range 64).all s.blk.asleep = true →
      Does (.departureSurveyDone f) s [.berths, .chans, .chs, .cnt, .cols, .doms, .events, .fresh, .fws, .ins, .keys, .lanes, .lg, .mf, .pw, .qy, .regs, .sides, .stk, .sv, .tl] fun b =>
        b.pw.depPhase = (if s.blk.pw.depAbandoned then .domainsOff else .chart)
          ∧ ∀ n, n < 64 → (b.berth n).st = .absent ∧ ((b.chan n).pwr = .off ∨ (b.chan n).pwr = .selfRefresh)
              ∧ (b.berth n).fillDone = ((s.blk.berth n).fillDone && (s.blk.berth n).st != .filling))
  ∧ (∀ s : State, s.blk.pw.st = .departure → s.blk.pw.depPhase = .chart → s.blk.live = true →
      Does .chartWriteDone s [.doms, .lg, .pw] fun b =>
        b.pw.depPhase = .domainsOff ∧ (∀ k, s.blk.lg.writing = some k → b.lg.gov = some k ∧ b.lg.writing = none) ∧ ∀ d, d < 48 → (b.dom d).st = (if (s.blk.dom d).st = .on then .draining else (s.blk.dom d).st))
  ∧ ∀ s : State, s.blk.pw.st = .departure → s.blk.pw.depPhase = .domainsOff → s.blk.hmRuns = true →
      Does .departureReady s [.berths, .chans, .ck, .cnt, .doms, .events, .fws, .ins, .lanes, .mf, .pw, .qy, .regs, .running, .sides, .slots, .tl] fun b =>
        b.pw.depPhase = .ready ∧ b.pw.offReady = true ∧ b.regBit Off.pwAlarm 3 = true ∧ b.alertLow = true
          ∧ b.pw.tDepart = BitVec.ofNat 32 (s.blk.since s.blk.pw.depStart / msTicks) ∧ b.pw.depWaiter = none
          ∧ ∀ d, d < 48 → (b.dom d).st = (if (s.blk.dom d).st = .failed then .failed else .off)

/-- SCAN_ENTER with TEST_MODE high outside DARK stops the pier with every key zeroized, both links down and no request left; with TEST_MODE low, in DARK and in a scan test nothing happens.  ZEROIZE_DONE notes a passed comparison in scan test and nothing of a failed one.  FRZ_CAPTURE with VDD_IO in range puts the chain's number in the header's low half and, in FROZEN, the bits of a chain that exists after it. -/
def Obligations.ScanAndCapture : Prop :=
  (∀ s : State, s.blk.pw.st ≠ .dark → s.blk.sv.inScan = false →
      Does (.scanEnter true) s [.chans, .chs, .cnt, .events, .fws, .ins, .keys, .lanes, .lg, .qy, .regs, .sides, .stk, .sv, .tl] fun b =>
        b.keys = {} ∧ b.sv.inScan = true ∧ b.sv.logDisabled = true ∧ b.sv.zeroOk = false ∧ b.live = false ∧ b.qy.reqs = [] ∧ b.stk.dman = true
          ∧ b.west.seg = .down ∧ b.east.seg = .down ∧ b.pw = s.blk.pw)
  ∧ (∀ (s : State) t, (t = false ∨ s.blk.pw.st = .dark ∨ s.blk.sv.inScan = true) → exec (.scanEnter t) s = .next s)
  ∧ (∀ s : State, exec (.zeroizeDone false) s = .next s)
  ∧ (∀ s : State, s.blk.sv.inScan = true → Does (.zeroizeDone true) s [.sv] fun b =>
      b.sv = { s.blk.sv with scanEntered := true, zeroOk := true })
  ∧ ∀ (s : State) i, s.blk.pw.st ≠ .dark → s.blk.pins.railsLow.contains .io = false →
      Does (.frzCapture i) s [.frzOut] fun b =>
        b.frzOut.take 16 = bitsOf 16 i.toNat ∧ (s.blk.pw.st ≠ .frozen → b.frzOut = bitsOf 64 i.toNat)
          ∧ (s.blk.pw.st = .frozen → s.blk.sv.inScan = false → chainExists i.toNat = true → b.frzOut.length = 64 + Config.chainLength i % 2 ^ 32)

/-! ### Lanes -/

/-- A hunting lane that is no answerer alternates talk bursts and listen bursts of 16, 32, 48 or 64 µs, each to its end; an answering lane falls silent after its burst.  A listening lane whose blocks give lock at its segment's grade holds it, with the polarity that K-MARK gives at once or later; without a polarity for 1,024 blocks it drops the lock.  An answerer that has lost signal for 1 µs sends HELLO with the role bit in LOCK.  A hunt that times out beside lanes still training is OFF.  Lost block lock ends a hunting lane's lock, sends one in LOCK to hunt again, and asks for REFORM without a running one. -/
def Obligations.HuntingLanes : Prop :=
  (∀ (s : State) (l : LaneId), (s.blk.lane l).st = .hunt → (s.blk.lane l).answerer = none → (s.blk.lane l).talking = true →
      (s.blk.lane l).burstTicks ≤ s.blk.since (s.blk.lane l).burstAt →
      Does (.huntBurst l) s [.lane l] fun b =>
        (b.lane l).talking = false ∧ (b.lane l).txIdle = true ∧ (b.lane l).st = .hunt ∧ (b.lane l).grade = (s.blk.lane l).grade
          ∧ (b.lane l).burstAt = s.blk.ck.tide
          ∧ ((b.lane l).listenUs = 16 ∨ (b.lane l).listenUs = 32 ∨ (b.lane l).listenUs = 48 ∨ (b.lane l).listenUs = 64))
  ∧ (∀ (s : State) (l : LaneId), (s.blk.lane l).st = .hunt → (s.blk.lane l).answerer = none → (s.blk.lane l).talking = false →
      (s.blk.lane l).burstTicks ≤ s.blk.since (s.blk.lane l).burstAt →
      Does (.huntBurst l) s [.lane l] fun b =>
        b.lane l = { s.blk.lane l with talking := true, txIdle := false, blockLock := false, polKnown := false, hellos := 0, burstAt := s.blk.ck.tide })
  ∧ (∀ (s : State) (l : LaneId), (s.blk.lane l).st = .lock → (s.blk.lane l).answering = true →
      (s.blk.lane l).burstTicks ≤ s.blk.since (s.blk.lane l).burstAt →
      Does (.huntBurst l) s [.lane l] fun b => b.lane l = { s.blk.lane l with answering := false, txIdle := true, msg := .idle })
  ∧ (∀ (s : State) (l : LaneId), s.blk.since (s.blk.lane l).burstAt < (s.blk.lane l).burstTicks → exec (.huntBurst l) s = .next s)
  ∧ (∀ (s : State) (l : LaneId) (k : Nat), (s.blk.lane l).st = .hunt → 100 * msTicks ≤ s.blk.since (s.blk.lane l).since →
      (s.blk.side (laneSide l)).seg = .training → (s.blk.side (laneSide l)).warmAll = false →
      k ∈ s.blk.trainLanes (laneSide l) → k ≠ l → (s.blk.lane k).resolved = false → (s.blk.side (laneSide l)).waiter = none →
      s.blk.pw.st = .openS → Does (.huntTimeout l) s [.lane l] fun b => (b.lane l).st = .off ∧ (b.lane l).txIdle = true)
  ∧ (∀ (s : State) (l : LaneId) g blocks, (s.blk.lane l).st = .hunt → (s.blk.lane l).talking = false → g = (s.blk.side (laneSide l)).grade →
      (s.blk.lane l).blockLock = false → locksOn g blocks = true →
      Does (.blockLock l g blocks) s [.lane l] fun b =>
        b.lane l = { s.blk.lane l with blockLock := true, hellos := 0, lockAt := s.blk.ck.tide, polKnown := (polarityOf g blocks).isSome
                                       polInv := (polarityOf g blocks).getD (s.blk.lane l).polInv })
  ∧ (∀ (s : State) (l : LaneId) g blocks p, (s.blk.lane l).st = .hunt → (s.blk.lane l).talking = false → g = (s.blk.side (laneSide l)).grade →
      (s.blk.lane l).blockLock = true → (s.blk.lane l).polKnown = false → polarityOf g blocks = some p →
      Does (.blockLock l g blocks) s [.lane l] fun b => b.lane l = { s.blk.lane l with polKnown := true, polInv := p })
  ∧ (∀ (s : State) (l : LaneId) g blocks, (s.blk.lane l).blockLock = false → locksOn g blocks = false → exec (.blockLock l g blocks) s = .next s)
  ∧ (∀ (s : State) (l : LaneId) hs, ((s.blk.lane l).st = .hunt ∨ (s.blk.lane l).st = .train) → losesLock hs = true →
      Does (.blockLockLoss l hs) s [.lane l] fun b => b.lane l = { s.blk.lane l with blockLock := false, polKnown := false })
  ∧ (∀ (s : State) (l : LaneId) hs, (s.blk.lane l).st = .lock → losesLock hs = true →
      Does (.blockLockLoss l hs) s [.lane l, .reg (lnOff Off.lnTxDrv l)] fun b =>
        (b.lane l).st = .hunt ∧ (b.lane l).blockLock = false ∧ (b.lane l).answerer = none
          ∧ (b.lane l).grade = (s.blk.side (laneSide l)).grade)
  ∧ (∀ (s : State) (l : LaneId) hs x m, (s.blk.lane l).inRun = true → losesLock hs = true → x = s.blk.side (laneSide l) → x.seg = .run →
      x.nextMask.getLsbD (laneIx l) = true → m = x.nextMask &&& ~~~ BitVec.ofNat 16 (2 ^ laneIx l) → m ≠ 0 →
      Does (.blockLockLoss l hs) s [.lane l, .side (laneSide l)] fun b =>
        b.lane l = { s.blk.lane l with blockLock := false }
          ∧ b.side (laneSide l) =
              { x with pass := x.pass &&& ~~~ BitVec.ofNat 16 (2 ^ laneIx l), reform := some m, reformOut := some m, reformTx := false, reformRx := false
                       segSeq := x.segSeq + 1, ctl := x.ctl ++ [(x.segSeq + 1, .reform m 16)] })
  ∧ (∀ (s : State) (l : LaneId) hs, losesLock hs = false → exec (.blockLockLoss l hs) s = .next s)
  ∧ (∀ (s : State) (l : LaneId), (s.blk.lane l).st = .hunt → (s.blk.lane l).blockLock = true → (s.blk.lane l).polKnown = false →
      s.blk.blocksPassed (s.blk.lane l).grade (s.blk.lane l).lockAt = true →
      Does (.polarityTimeout l) s [.lane l] fun b => b.lane l = { s.blk.lane l with blockLock := false, hellos := 0 })
  ∧ ∀ (s : State) (l : LaneId), (s.blk.lane l).st = .hunt → (s.blk.lane l).answerer = some true → (s.blk.lane l).los = true →
      usTicks ≤ s.blk.since (s.blk.lane l).burstAt →
      Does (.huntAnswerTimer l) s [.lane l] fun b =>
        b.lane l = { s.blk.lane l with st := .lock, since := s.blk.ck.tide, burstAt := s.blk.ck.tide, answering := true, txIdle := false
                                       msg := .hello true, txSeq := (s.blk.lane l).txSeq + 1 }

/-- The second good HELLO without the role bit makes a locked listening lane answerer, one with it makes it talker in LOCK with its WINDOW announced; two answerers hunt again.  The talker's own window comes first: signal for 1,024 UI discards and counts it, one long enough converges unless EC_FREEZE holds the taps, and after both windows the lane trains, asking for the preset first; LOCK without the partner's window for 100 µs hunts again.  On a running side a request is granted at once, or when the window in that direction ends, for the grade's slots; a grant opens the pier's own window; windows of 2 ms or more end by WINDOW_ABANDON.  EC_DRIFT notes the ERLE and, below the grade's limit, sets the alarm and asks for a window or keeps the wish. -/
def Obligations.RolesAndWindows : Prop :=
  (∀ (s : State) (l : LaneId) q h, (s.blk.lane l).st = .hunt → (s.blk.lane l).talking = false → (s.blk.lane l).blockLock = true →
      (s.blk.lane l).polKnown = true → (s.blk.lane l).answerer = none → (s.blk.lane l).hellos = 1 →
      Does (.hello l q false (s.blk.side (laneSide l)).grade h) s [.lane l] fun b =>
        b.lane l = { s.blk.lane l with hellos := 2, answerer := some true, peer := some h, talking := false, txIdle := true, rxSeq := some q })
  ∧ (∀ (s : State) (l : LaneId) q h, (s.blk.lane l).st = .hunt → (s.blk.lane l).talking = false → (s.blk.lane l).blockLock = true →
      (s.blk.lane l).polKnown = true → (s.blk.lane l).answerer = none →
      Does (.hello l q true (s.blk.side (laneSide l)).grade h) s [.lane l] fun b =>
        b.lane l = { s.blk.lane l with st := .lock, since := s.blk.ck.tide, answerer := some false, peer := some h, msg := .idle
                                       txIdle := true, rxSeq := some q })
  ∧ (∀ (s : State) (l : LaneId) mv, mv < 40 → (s.blk.lane l).st = .lock → (s.blk.lane l).answerer = some false →
      (s.blk.lane l).winOwn = false → (s.blk.lane l).winAt = none →
      Does (.los l mv) s [.cnt, .events, .fws, .ins, .lanes, .qy, .regs, .sides, .tl] fun b =>
        (b.lane l).winAt = some s.blk.ck.tide ∧ (b.lane l).msg = .window ((s.blk.lane l).windowAsk true) ∧ (b.lane l).txIdle = false
          ∧ (b.lane l).txSeq = (s.blk.lane l).txSeq + 1)
  ∧ (∀ (s : State) (l : LaneId) q g h, (s.blk.lane l).st = .lock → (s.blk.lane l).answerer = some true →
      Does (.hello l q true g h) s [.lane l, .reg (lnOff Off.lnTxDrv l)] fun b =>
        (b.lane l).st = .hunt ∧ (b.lane l).answerer = none ∧ (b.lane l).rxSeq = some q)
  ∧ (∀ (s : State) (l : LaneId) ui sig e, (s.blk.lane l).st = .lock → (s.blk.lane l).answerer = some false →
      (s.blk.lane l).winOwn = false → (s.blk.lane l).winPeer = false → s.blk.windowOver l true ui = true →
      Does (.lockWindowEnd l true ui sig e) s [.lane l, .reg (lnOff Off.lnEcStatus l)] fun b =>
        (b.lane l).st = .lock ∧ (b.lane l).winOwn = true ∧ (b.lane l).winPeer = false ∧ (b.lane l).txIdle = true
          ∧ (1024 ≤ sig → b.regField (lnOff Off.lnEcStatus l) 8 8 = min (s.blk.regField (lnOff Off.lnEcStatus l) 8 8 + 1) 255
              ∧ (b.lane l).stored = (s.blk.lane l).stored ∧ (b.lane l).convCount = (s.blk.lane l).convCount)
          ∧ (sig < 1024 → (s.blk.lane l).windowNeed ≤ ui → s.blk.regBit (lnOff Off.lnCtrl l) 3 = false →
              (b.lane l).ecConv = true ∧ (b.lane l).convCount = (s.blk.lane l).convCount + 1 ∧ (b.lane l).erle = e
                ∧ (b.lane l).stored.getLsbD (s.blk.lane l).grade.val = true)
          ∧ (sig < 1024 → (ui < (s.blk.lane l).windowNeed ∨ s.blk.regBit (lnOff Off.lnCtrl l) 3 = true) →
              (b.lane l).ecConv = (s.blk.lane l).ecConv ∧ (b.lane l).stored = (s.blk.lane l).stored ∧ (b.lane l).convCount = (s.blk.lane l).convCount))
  ∧ (∀ (s : State) (l : LaneId) own ui sig e, (s.blk.lane l).st = .lock →
      ((s.blk.lane l).answerer = some false ∧ own = false ∧ (s.blk.lane l).winOwn = true ∧ (s.blk.lane l).winPeer = false
        ∨ (s.blk.lane l).answerer = some true ∧ own = true ∧ (s.blk.lane l).winPeer = true ∧ (s.blk.lane l).winOwn = false) →
      s.blk.windowOver l own ui = true →
      Does (.lockWindowEnd l own ui sig e) s [.events, .lane l, .regs, .sides] fun b =>
        (b.lane l).st = .train ∧ (b.lane l).since = s.blk.ck.tide ∧ (b.lane l).doneOwn = none ∧ (b.lane l).donePeer = none
          ∧ (b.lane l).winOwn = true ∧ (b.lane l).winPeer = true ∧ (b.lane l).tapOut.map (·.tap) = some 4)
  ∧ (∀ (s : State) (l : LaneId) ui sig e, (s.blk.lane l).st = .lock → (s.blk.lane l).answerer = some true →
      (s.blk.lane l).winOwn = false → (s.blk.lane l).winPeer = false → (s.blk.lane l).los = true → usTicks ≤ s.blk.since (s.blk.lane l).losAt →
      Does (.lockWindowEnd l false ui sig e) s [.lane l] fun b =>
        b.lane l = { s.blk.lane l with winPeer := true, winAt := some s.blk.ck.tide, answering := false, txIdle := false, msg := .window ((s.blk.lane l).windowAsk false)
                                       txSeq := (s.blk.lane l).txSeq + 1 })
  ∧ (∀ (s : State) (l : LaneId), (s.blk.lane l).st = .lock → (s.blk.lane l).winPeer = false → 100 * usTicks ≤ s.blk.since (s.blk.lane l).since →
      Does (.lockTimeout l) s [.lane l, .reg (lnOff Off.lnTxDrv l)] fun b =>
        (b.lane l).st = .hunt ∧ (b.lane l).grade = (s.blk.side (laneSide l)).grade)
  ∧ (∀ (s : State) sd q u x, x = s.blk.side sd → x.seg = .run → x.winSeq ≠ some q → x.mute = 0 →
      Does (.window sd none q 1 u) s [.side sd] fun b =>
        b.side sd = { x with winSeq := some q, mute := windowSlots x.grade, muteAt := some s.blk.ck.tide, grantOwed := false
                             segSeq := x.segSeq + 1, ctl := x.ctl ++ [(x.segSeq + 1, .window 2 (windowUnits x.grade))] })
  ∧ (∀ (s : State) sd q u, (s.blk.side sd).seg = .run → (s.blk.side sd).winSeq ≠ some q → (s.blk.side sd).mute ≠ 0 →
      Does (.window sd none q 1 u) s [.side sd] fun b => b.side sd = { s.blk.side sd with winSeq := some q, grantOwed := true })
  ∧ (∀ (s : State) sd q u, (s.blk.side sd).seg = .run → (s.blk.side sd).winSeq ≠ some q → (s.blk.side sd).winAsked = true →
      Does (.window sd none q 2 u) s [.lanes, .side sd] fun b =>
        b.side sd = { s.blk.side sd with winSeq := some q, winAsked := false, win := some { own := true, since := s.blk.ck.tide, cal := (lanesOf sd (s.blk.side sd).mask).any (fun l => (s.blk.lane l).calPending) } }
          ∧ ∀ k ∈ lanesOf sd (s.blk.side sd).mask, ∀ l ∈ lanesOf sd (s.blk.side sd).mask, (s.blk.lane k).calPending = true → (b.lane l).calPending = true)
  ∧ (∀ (s : State) sd i q u, (s.blk.lane (laneOf sd (Fin.val i))).st = .lock →
      Does (.window sd (some i) q 0 u) s [.lane (laneOf sd i.val)] fun b =>
        b.lane (laneOf sd i.val) = { s.blk.lane (laneOf sd i.val) with peerUnits := u })
  ∧ (∀ (s : State) sd w, (s.blk.side sd).win = some w → 2 * msTicks ≤ s.blk.since w.since → (s.blk.side sd).winAsked = false →
      (s.blk.side sd).muteAt = none → (s.blk.side sd).winWant = false → (lanesOf sd (s.blk.side sd).mask).any (fun l => (s.blk.lane l).calPending) = false →
      Does (.windowAbandon sd) s [.regs, .side sd] fun b =>
        b.side sd = { s.blk.side sd with win := none }
          ∧ (w.discarded < 8 → b.csr = s.blk.csr)
          ∧ (8 ≤ w.discarded → ∀ l ∈ sideLanes sd, (s.blk.lane l).inRun = true →
              b.regField (lnOff Off.lnEcStatus l) 8 8 = min (s.blk.regField (lnOff Off.lnEcStatus l) 8 8 + 1) 255))
  ∧ (∀ (s : State) sd t, (s.blk.side sd).win = none → (s.blk.side sd).winAsked = false → (s.blk.side sd).winWant = false →
      (s.blk.side sd).muteAt = some t → 0 < (s.blk.side sd).mute → 2 * msTicks ≤ s.blk.since t → (s.blk.side sd).grantOwed = false →
      (lanesOf sd (s.blk.side sd).mask).any (fun l => (s.blk.lane l).calPending) = false →
      Does (.windowAbandon sd) s [.side sd] fun b => b.side sd = { s.blk.side sd with mute := 0, muteAt := none })
  ∧ (∀ (s : State) sd w l, (s.blk.side sd).win = some w → 2 * msTicks ≤ s.blk.since w.since → l ∈ lanesOf sd (s.blk.side sd).mask → (s.blk.lane l).calPending = true →
      Does (.windowAbandon sd) s [.regs, .side sd] fun b => (b.side sd).win = none ∧ ((b.side sd).winWant = true ∨ (b.side sd).winAsked = true))
  ∧ (∀ (s : State) (l : LaneId) e, ((s.blk.lane l).inRun = true ∨ (s.blk.lane l).st = .train) → erleLimit (s.blk.lane l).grade ≤ e.toNat →
      Does (.ecDrift l e) s [.lane l] fun b => b.lane l = { s.blk.lane l with erle := e })
  ∧ ∀ (s : State) (l : LaneId) e, ((s.blk.lane l).inRun = true ∨ (s.blk.lane l).st = .train) → e.toNat < erleLimit (s.blk.lane l).grade →
      Does (.ecDrift l e) s [.lane l, .reg (lnOff Off.lnAlarm l), .side (laneSide l)] fun b =>
        b.lane l = { s.blk.lane l with erle := e } ∧ b.regBit (lnOff Off.lnAlarm l) 2 = true
          ∧ (b.side (laneSide l)).win = (s.blk.side (laneSide l)).win
          ∧ ((b.side (laneSide l)).winWant = true ∨ (b.side (laneSide l)).winAsked = true)

/-- In TRAIN a new tap request, 1 µs or more after the last answer, in its legal range is applied and answered 0, one beyond it is answered 1 and one that names no tap or action 2, without being applied; a repeat is answered as before; the first measurement begins the search with POST1 up, and the frozen equalisers keep their values; an applied step waits for its measurement, a refused step up is tried down; a request unanswered for 20 µs is repeated, and after four repeats training ends with FAIL; a partner's verdict, taken once per sequence number, or its absence for 5 ms, is kept as the lane's. -/
def Obligations.TapRequestsAndVerdicts : Prop :=
  (∀ (s : State) (l : LaneId) q tap act t, (s.blk.lane l).st = .train → (∀ a, (s.blk.lane l).tapAns = some a → a.seq ≠ q) →
      s.blk.olderThan usTicks (s.blk.lane l).tapAt = true → tapAsked (s.blk.lane l).taps tap.toNat act.toNat = some t →
      Does (.tapReq l q tap act) s [.fresh, .lane l] fun b =>
        (b.lane l).taps = (if t.legal then t else (s.blk.lane l).taps) ∧ (b.lane l).tapAns = some ⟨q, if t.legal then 0 else 1, (s.blk.lane l).txSeq + 1⟩
          ∧ (b.lane l).msg = .tapRsp ⟨q, if t.legal then 0 else 1, (s.blk.lane l).txSeq + 1⟩ ∧ (b.lane l).st = .train)
  ∧ (∀ (s : State) (l : LaneId) q tap act, (s.blk.lane l).st = .train → (∀ a, (s.blk.lane l).tapAns = some a → a.seq ≠ q) →
      s.blk.olderThan usTicks (s.blk.lane l).tapAt = true → tapAsked (s.blk.lane l).taps tap.toNat act.toNat = none →
      Does (.tapReq l q tap act) s [.fresh, .lane l] fun b =>
        (b.lane l).taps = (s.blk.lane l).taps ∧ (b.lane l).tapAns = some ⟨q, 2, (s.blk.lane l).txSeq + 1⟩ ∧ (b.lane l).msg = .tapRsp ⟨q, 2, (s.blk.lane l).txSeq + 1⟩)
  ∧ (∀ (s : State) (l : LaneId) tap act a, (s.blk.lane l).st = .train → (s.blk.lane l).tapAns = some a →
      Does (.tapReq l a.seq tap act) s [.lane l] fun b => b.lane l = { s.blk.lane l with msg := .tapRsp a, rxSeq := some a.seq })
  ∧ (∀ (s : State) (l : LaneId) t c, (s.blk.lane l).st = .train → (s.blk.lane l).tapOut = some t → (s.blk.lane l).search = some c →
      c.undo = false → Does (.tapRsp l t.seq 0) s [.lane l] fun b => b.lane l = { s.blk.lane l with tapOut := none })
  ∧ (∀ (s : State) (l : LaneId) t c st, (s.blk.lane l).st = .train → (s.blk.lane l).tapOut = some t → (s.blk.lane l).search = some c →
      c.undo = false → c.started = true → c.up = true → st ≠ 0 →
      Does (.tapRsp l t.seq st) s [.lane l] fun b =>
        (b.lane l).tapOut = some ⟨(s.blk.lane l).txSeq + 1, searchTap c.tapIx, 2, 0⟩ ∧ (b.lane l).reqAt = s.blk.ck.tide
          ∧ (b.lane l).search.map (·.best) = some c.best)
  ∧ (∀ (s : State) (l : LaneId) c fom ctle ffe dfe, (s.blk.lane l).st = .train → (s.blk.lane l).tapOut = none →
      (s.blk.lane l).search = some c → c.started = false →
      Does (.fomMeasureDone l fom ctle ffe dfe) s [.lane l] fun b =>
        (b.lane l).st = .train ∧ (b.lane l).tapOut = some ⟨(s.blk.lane l).txSeq + 1, 2, 1, 0⟩
          ∧ (b.lane l).search.map (·.best) = some fom
          ∧ (b.lane l).dfe = (if s.blk.regBit (lnOff Off.lnCtrl l) 2 then (s.blk.lane l).dfe else if 64 < dfe.toNat then 64 else dfe)
          ∧ (b.lane l).ctle = (if s.blk.regBit (lnOff Off.lnCtrl l) 2 || s.blk.regBit (lnOff Off.lnCtrl l) 1 then (s.blk.lane l).ctle else ctle))
  ∧ (∀ (s : State) (l : LaneId) t, (s.blk.lane l).st = .train → (s.blk.lane l).tapOut = some t → t.repeats < 4 →
      20 * usTicks ≤ s.blk.since (s.blk.lane l).reqAt →
      Does (.tapReqTimeout l) s [.lane l] fun b =>
        b.lane l = { s.blk.lane l with reqAt := s.blk.ck.tide, tapOut := some { t with repeats := t.repeats + 1 }
                                       msg := .tapReq { t with repeats := t.repeats + 1 } })
  ∧ (∀ (s : State) (l : LaneId) t, (s.blk.lane l).st = .train → (s.blk.lane l).tapOut = some t → 4 ≤ t.repeats →
      20 * usTicks ≤ s.blk.since (s.blk.lane l).reqAt → (s.blk.lane l).donePeer = none → (s.blk.side (laneSide l)).waiter = none →
      s.blk.pw.st = .openS →
      Does (.tapReqTimeout l) s [.lane l] fun b =>
        (b.lane l).st = .train ∧ (b.lane l).doneOwn = some false ∧ (b.lane l).tapOut = none ∧ (b.lane l).search = none)
  ∧ (∀ (s : State) (l : LaneId) q p f, (s.blk.lane l).st = .train → (s.blk.lane l).doneOwn = none → (s.blk.lane l).rxSeq ≠ some q →
      (s.blk.side (laneSide l)).waiter = none → s.blk.pw.st = .openS →
      Does (.tapDone l q p f) s [.lane l] fun b => b.lane l = { s.blk.lane l with donePeer := some p, rxSeq := some q })
  ∧ (∀ (s : State) (l : LaneId) q p f, ((s.blk.lane l).st ≠ .train ∨ (s.blk.lane l).rxSeq = some q) → exec (.tapDone l q p f) s = .next s)
  ∧ ∀ (s : State) (l : LaneId) (k : Nat), (s.blk.lane l).st = .train → (s.blk.lane l).donePeer = none →
      5 * msTicks ≤ s.blk.since (s.blk.lane l).since → (s.blk.side (laneSide l)).warmAll = false →
      (s.blk.side (laneSide l)).seg = .training → k ∈ s.blk.trainLanes (laneSide l) → k ≠ l → (s.blk.lane k).resolved = false →
      (s.blk.side (laneSide l)).waiter = none → s.blk.pw.st = .openS → (s.blk.side (laneSide l)).moveOut = none →
      Does (.trainTimeout l) s [.lane l] fun b =>
        b.lane l = { s.blk.lane l with doneOwn := some ((s.blk.lane l).doneOwn.getD false), donePeer := some false }

/-- A new CAP is noted; with the other side down it is answered by a COMMIT that grants every request, and with a segment agreed there it goes on with the pier's entry, or without one where HOPS is 8.  A COMMIT is noted and gives the pier its share.  START of one direction is noted; of the second it puts the trained chosen lanes in RUN.  MOVE retrains at its grade; a REFORM with lanes of the pier is echoed with the same lanes; REFORM_SWITCH restarts one direction, and the second makes the lanes that run the mask.  A CAP with the sequence number acted on last changes nothing. -/
def Obligations.AgreementMessages : Prop :=
  (∀ (s : State) sd q c, (s.blk.side sd).agrees = true → (s.blk.side sd).capSeq ≠ some q →
      (s.blk.side (otherSide sd)).seg = .down → c.hops < 8 →
      Does (.cap sd q c) s [.side sd] fun b =>
        (b.side sd).capIn = some c ∧ (b.side sd).capSeq = some q ∧ (b.side sd).seg = (s.blk.side sd).seg
          ∧ (b.side sd).commitOut = some (grantAll (s.blk.mergeCap c))
          ∧ (b.side sd).ctl.getLast? = some ((s.blk.side sd).segSeq + 1, .commit (grantAll (s.blk.mergeCap c))))
  ∧ (∀ (s : State) sd q c, (s.blk.side sd).agrees = true → (s.blk.side sd).capSeq ≠ some q → (s.blk.side (otherSide sd)).agrees = true →
      Does (.cap sd q c) s [.events, .reg Off.lgAlarm, .side (otherSide sd), .side sd] fun b =>
        (b.side sd).capIn = some c ∧ (b.side (otherSide sd)).capOut = some (s.blk.mergeCap c)
          ∧ (b.side (otherSide sd)).myIx = some (min c.hops 8)
          ∧ (8 ≤ c.hops → (s.blk.mergeCap c).hops = c.hops ∧ (s.blk.mergeCap c).shares = c.shares ∧ (s.blk.mergeCap c).credits = c.credits))
  ∧ (∀ (s : State) sd q c, (s.blk.side sd).capSeq = some q → exec (.cap sd q c) s = .next s)
  ∧ (∀ (s : State) sd q c i, (s.blk.side sd).agrees = true → (s.blk.side sd).commitSeq ≠ some q →
      (s.blk.side sd).myIx = some i → (s.blk.side (otherSide sd)).seg = .down → 0 < c.blink → (s.blk.side (otherSide sd)).commit = none →
      Does (.commit sd q c) s [.chs, .events, .lanes, .regs, .sides] fun b =>
        (b.side sd).commit = some c ∧ (b.side sd).commitSeq = some q ∧ (b.side sd).shareGrant = c.shares.getD i 0
          ∧ (b.side sd).creditGrant = c.credits.getD i 0 ∧ (b.side sd).blink = c.blink)
  ∧ (∀ (s : State) sd own skew, (s.blk.side sd).seg = .starting → (s.blk.side sd).rxOn = false → (s.blk.side sd).txOn = false →
      (own = true → s.blk.startOver sd = true) →
      Does (.start sd own skew) s [.side sd] fun b =>
        (b.side sd).seg = .starting ∧ (b.side sd).txOn = own ∧ (b.side sd).rxOn = !own)
  ∧ (∀ (s : State) sd own skew, (s.blk.side sd).seg = .starting → (s.blk.side sd).mask ≠ 0 → s.blk.pw.st = .openS →
      (∀ l ∈ sideLanes sd, (s.blk.side sd).mask.getLsbD (laneIx l) = true → (s.blk.lane l).st = .train) →
      (own = true → (s.blk.side sd).txOn = false ∧ (s.blk.side sd).rxOn = true ∧ (s.blk.side sd).unaligned = 0 ∧ s.blk.startOver sd = true) →
      (own = false → (s.blk.side sd).rxOn = false ∧ (s.blk.side sd).txOn = true ∧ ∀ e ∈ skew, e.2 ≤ 80) →
      Does (.start sd own skew) s [.chs, .cnt, .events, .fws, .ins, .lanes, .mf, .pw, .qy, .regs, .running, .sides, .slots, .sv, .tl] fun b =>
        (b.side sd).seg = .run ∧ (b.side sd).mask = (s.blk.side sd).mask ∧ (b.side sd).row = 0
          ∧ ∀ l ∈ sideLanes sd, (s.blk.side sd).mask.getLsbD (laneIx l) = true → (b.lane l).st = .run)
  ∧ (∀ (s : State) sd own skew, ((s.blk.side sd).seg ≠ .starting ∨ own = true ∧ s.blk.startOver sd = false) → exec (.start sd own skew) s = .next s)
  ∧ (∀ (s : State) sd q g, (s.blk.side sd).seg ≠ .down → (s.blk.side sd).moveSeq ≠ some q → s.blk.trainLanes sd ≠ [] →
      Does (.move sd q g) s [.count (fwOff Off.fwDropLo (otherSide sd)), .count Off.qyCplDiscardLo, .events, .fw (otherSide sd), .ins, .lanes, .qy, .regs, .sides, .tl] fun b =>
        (b.side sd).grade = s.blk.moveGrade sd g ∧ (b.side sd).seg = .training ∧ (b.side sd).moveSeq = some q
          ∧ ((s.blk.side sd).capG2 = true → s.blk.moveGrade sd g ≤ 1)
          ∧ ∀ l ∈ s.blk.trainLanes sd, (b.lane l).st = .hunt ∧ (b.lane l).grade = s.blk.moveGrade sd g)
  ∧ (∀ (s : State) sd q mask n x m, x = s.blk.side sd → x.seg = .run → x.reformSeq ≠ some q → m = s.blk.ownMask sd mask → m ≠ 0 → x.reform ≠ some m →
      x.blink ≤ (lanesOf sd m).length * x.useg →
      Does (.reform sd q mask n) s [.side sd] fun b =>
        b.side sd = { x with reformSeq := some q, reform := some m, reformOut := some m, reformTx := false, reformRx := false
                             reformAt := none, segSeq := x.segSeq + 1, ctl := x.ctl ++ [(x.segSeq + 1, .reform m 16)] })
  ∧ (∀ (s : State) sd q mask n x m, x = s.blk.side sd → x.seg = .run → x.reformSeq ≠ some q → m = s.blk.ownMask sd mask → m ≠ 0 → x.reform ≠ some m →
      (lanesOf sd m).length * x.useg < x.blink →
      Does (.reform sd q mask n) s [.lanes, .regs, .sides] fun b =>
        (b.side sd).reform = some m ∧ (b.side sd).reformOut = some m ∧ (b.side sd).reformSeq = some q
          ∧ ∀ l ∈ lanesOf sd x.nextMask, m.getLsbD (laneIx l) = false → (b.side sd).pass.getLsbD (laneIx l) = false)
  ∧ (∀ (s : State) sd m own, (s.blk.side sd).seg = .run → (s.blk.side sd).reform = some m →
      (s.blk.side sd).reformRx = false → (s.blk.side sd).reformTx = false → (own = true → (s.blk.side sd).reformOver = true) →
      Does (.reformSwitch sd own none) s [.side sd] fun b => b.side sd = (s.blk.side sd).restart own)
  ∧ ∀ (s : State) sd m own, (s.blk.side sd).seg = .run → (s.blk.side sd).reform = some m → s.blk.pw.st = .openS →
      (if own then (s.blk.side sd).reformRx = true ∧ (s.blk.side sd).reformTx = false ∧ (s.blk.side sd).reformOver = true else (s.blk.side sd).reformTx = true) →
      (∀ l ∈ sideLanes sd, (s.blk.lane l).inRun = m.getLsbD (laneIx l)) → m ≠ 0 →
      Does (.reformSwitch sd own none) s [.berths, .chs, .cnt, .events, .fws, .ins, .lanes, .mf, .prot, .pw, .qy, .regs, .running, .sides, .slots, .sv, .tl] fun b =>
        (b.side sd).seg = .run ∧ (b.side sd).mask = m ∧ (b.side sd).reform = none ∧ (if own then (b.side sd).txRow else (b.side sd).row) = 0
          ∧ ∀ l ∈ sideLanes sd, b.lane l = s.blk.lane l

/-- PRBS runs in TRAIN for its duration and ends with LANE_PRBS_END.  A running checker takes received bits one by one: it seeds itself, declares sync after 1,024 without an error, then counts bits and errors and loses sync at 256 errors among 1,024; a checker that does not run takes none.  PRBS_SATURATED adds to both counters, which stop together at all ones.  LOS asserts below 40 mV and ends above 80 mV, LOL follows its condition; asserted, outside a window in HUNT they set the alarm, and drop a running lane by REFORM; in OFF, QUIET and FAILED they only show.  A RUN lane over R133's triggers is DEGRADED and wants a window, one 1 ms past its window RUN again, and one degraded for 10 ms leaves the lane set by REFORM. -/
def Obligations.PatternsAndAlarms : Prop :=
  (∀ (s : State) (l : LaneId) q p n, (s.blk.lane l).st = .train → p.toNat < 3 → (s.blk.lane l).rxSeq ≠ some q →
      Does (.prbs l q p n) s [.lane l] fun b =>
        b.lane l = { s.blk.lane l with prbsRun := some (p.truncate 2), prbsAt := some s.blk.ck.tide, prbsMs := n, msg := .prbs (p.truncate 2) n
                                       rxSeq := some q })
  ∧ (∀ (s : State) (l : LaneId) p n e, (s.blk.lane l).st = .train → (s.blk.lane l).prbsRun = some p → s.blk.prbsOver l = true →
      (s.blk.lane l).passed = false → (s.blk.lane l).prbsSync = false → (s.blk.lane l).prbsOwner = none →
      Does (.lanePrbsEnd l n e) s [.lane l] fun b =>
        b.lane l = { s.blk.lane l with prbsRun := none, prbsAt := none, prbsOwner := none, prbsMs := 0, msg := .idle })
  ∧ (∀ (s : State) (l : LaneId) c k, s.blk.checking l = true → (s.blk.lane l).prbsSync = false →
      k = (s.blk.lane l).chk.hunt (s.blk.checkPat l) c →
      Does (.prbsSync l [c]) s [.lane l] fun b =>
        b.lane l = (if 1024 ≤ k.run then { s.blk.lane l with chk := { k with n := 0, errs := [] }, prbsSync := true } else { s.blk.lane l with chk := k }))
  ∧ (∀ (s t : State) (l : LaneId) c rx, exec (.prbsSync l [c]) s = .next t → exec (.prbsSync l (c :: rx)) s = exec (.prbsSync l rx) t)
  ∧ (∀ (s : State) (l : LaneId) c k, s.blk.checking l = true → (s.blk.lane l).prbsSync = true → (s.blk.lane l).prbsSat = false →
      s.blk.count (lnOff Off.lnPrbsBitsLo l) + 1 < 2 ^ 48 - 1 → s.blk.count (lnOff Off.lnPrbsErrLo l) + 1 < 2 ^ 48 - 1 →
      k = (s.blk.lane l).chk.compare (s.blk.checkPat l) c →
      Does (.prbsSyncLost l [c]) s [.count (lnOff Off.lnPrbsBitsLo l), .count (lnOff Off.lnPrbsErrLo l), .lane l, .reg (lnOff Off.lnPrbsStatus l)] fun b =>
        b.count (lnOff Off.lnPrbsBitsLo l) = s.blk.count (lnOff Off.lnPrbsBitsLo l) + 1
          ∧ b.count (lnOff Off.lnPrbsErrLo l) =
              s.blk.count (lnOff Off.lnPrbsErrLo l) + (if c = prbsNext (s.blk.checkPat l) (s.blk.lane l).chk.past then 0 else 1)
          ∧ (256 ≤ k.errs.length → b.lane l = { s.blk.lane l with chk := {}, prbsSync := false } ∧ b.regBit (lnOff Off.lnPrbsStatus l) 1 = true)
          ∧ (k.errs.length < 256 → b.lane l = { s.blk.lane l with chk := k } ∧ b.csr = s.blk.csr))
  ∧ (∀ (s t : State) (l : LaneId) c rx, exec (.prbsSyncLost l [c]) s = .next t → exec (.prbsSyncLost l (c :: rx)) s = exec (.prbsSyncLost l rx) t)
  ∧ (∀ (s : State) (l : LaneId) rx, s.blk.checking l = false → exec (.prbsSync l rx) s = .next s ∧ exec (.prbsSyncLost l rx) s = .next s)
  ∧ (∀ (s : State) (l : LaneId) n e, (s.blk.lane l).prbsSync = true → (s.blk.lane l).prbsSat = false →
      Does (.prbsSaturated l n e) s [.count (lnOff Off.lnPrbsBitsLo l), .count (lnOff Off.lnPrbsErrLo l), .lane l] fun b =>
        b.count (lnOff Off.lnPrbsBitsLo l) = min (s.blk.count (lnOff Off.lnPrbsBitsLo l) + n.toNat) (2 ^ 48 - 1)
          ∧ b.count (lnOff Off.lnPrbsErrLo l) = min (s.blk.count (lnOff Off.lnPrbsErrLo l) + e.toNat) (2 ^ 48 - 1)
          ∧ b.lane l = { s.blk.lane l with
              prbsSat := decide (b.count (lnOff Off.lnPrbsBitsLo l) = 2 ^ 48 - 1 ∨ b.count (lnOff Off.lnPrbsErrLo l) = 2 ^ 48 - 1) })
  ∧ (∀ (s : State) (l : LaneId) n e, ((s.blk.lane l).prbsSync = false ∨ (s.blk.lane l).prbsSat = true) → exec (.prbsSaturated l n e) s = .next s)
  ∧ (∀ (s : State) (l : LaneId) mv, (s.blk.lane l).st = .hunt → (s.blk.lane l).answerer = none → mv < 40 →
      Does (.los l mv) s [.lane l, .reg (lnOff Off.lnAlarm l)] fun b =>
        b.lane l = { s.blk.lane l with los := true, losAt := if (s.blk.lane l).los then (s.blk.lane l).losAt else s.blk.ck.tide } ∧ b.regBit (lnOff Off.lnAlarm l) 0 = true)
  ∧ (∀ (s : State) (l : LaneId) mv, ((s.blk.lane l).st = .off ∨ (s.blk.lane l).st = .quiet ∨ (s.blk.lane l).st = .failed) → mv < 40 →
      Does (.los l mv) s [.lane l] fun b => b.lane l = { s.blk.lane l with los := true, losAt := if (s.blk.lane l).los then (s.blk.lane l).losAt else s.blk.ck.tide })
  ∧ (∀ (s : State) (l : LaneId) mv x m, (s.blk.lane l).inRun = true → mv < 40 → x = s.blk.side (laneSide l) → x.seg = .run → x.win = none →
      x.nextMask.getLsbD (laneIx l) = true → m = x.nextMask &&& ~~~ BitVec.ofNat 16 (2 ^ laneIx l) → m ≠ 0 →
      Does (.los l mv) s [.lane l, .reg (lnOff Off.lnAlarm l), .side (laneSide l)] fun b =>
        b.lane l = { s.blk.lane l with los := true, losAt := if (s.blk.lane l).los then (s.blk.lane l).losAt else s.blk.ck.tide } ∧ b.regBit (lnOff Off.lnAlarm l) 0 = true ∧ (b.side (laneSide l)).reform = some m)
  ∧ (∀ (s : State) (l : LaneId) mv, 80 < mv → Does (.los l mv) s [.lane l] fun b => b.lane l = { s.blk.lane l with los := false })
  ∧ (∀ (s : State) (l : LaneId) mv, 40 ≤ mv → mv ≤ 80 → exec (.los l mv) s = .next s)
  ∧ (∀ (s : State) (l : LaneId) e ppm, (s.blk.lane l).st = .hunt → lolCondition e ppm = true →
      Does (.lol l e ppm) s [.lane l, .reg (lnOff Off.lnAlarm l)] fun b =>
        b.lane l = { s.blk.lane l with lol := true } ∧ b.regBit (lnOff Off.lnAlarm l) 1 = true)
  ∧ (∀ (s : State) (l : LaneId) e ppm, lolCondition e ppm = false →
      Does (.lol l e ppm) s [.lane l] fun b => b.lane l = { s.blk.lane l with lol := false })
  ∧ (∀ (s : State) (l : LaneId) c n u, (s.blk.lane l).st = .run →
      (berHigh (s.blk.lane l).grade c n = true ∨ 2 ≤ u ∨ s.blk.regBit (lnOff Off.lnAlarm l) 2 = true) →
      Does (.degradeCheck l c n u) s [.lane l, .side (laneSide l)] fun b =>
        b.lane l = { s.blk.lane l with st := .degraded, degradedAt := some s.blk.ck.tide, winSince := none }
          ∧ ((b.side (laneSide l)).winWant = true ∨ (b.side (laneSide l)).winAsked = true))
  ∧ (∀ (s : State) (l : LaneId) c n u, berHigh (s.blk.lane l).grade c n = false → u < 2 →
      s.blk.regBit (lnOff Off.lnAlarm l) 2 = false → exec (.degradeCheck l c n u) s = .next s)
  ∧ (∀ (s : State) (l : LaneId) t, (s.blk.lane l).st = .degraded → (s.blk.lane l).winSince = some t → msTicks ≤ s.blk.since t →
      Does (.degradedClear l) s [.lane l] fun b => b.lane l = { s.blk.lane l with st := .run, degradedAt := none, winSince := none })
  ∧ ∀ (s : State) (l : LaneId) x m, (s.blk.lane l).st = .degraded → s.blk.olderThan (10 * msTicks) (s.blk.lane l).degradedAt = true →
      x = s.blk.side (laneSide l) → x.seg = .run → x.nextMask.getLsbD (laneIx l) = true →
      m = x.nextMask &&& ~~~ BitVec.ofNat 16 (2 ^ laneIx l) → m ≠ 0 →
      Does (.degradedTimeout l) s [.side (laneSide l)] fun b =>
        b.side (laneSide l) =
          { x with pass := x.pass &&& ~~~ BitVec.ofNat 16 (2 ^ laneIx l), reform := some m, reformOut := some m, reformTx := false, reformRx := false
                   reformAt := none, segSeq := x.segSeq + 1, ctl := x.ctl ++ [(x.segSeq + 1, .reform m 16)] }

/-- A control row on a running side, so many data rows after the last one, advances the row counter and the flit phase; a FILL block that R88 and R89 build, on lanes of the mask, gives its HOLD and SPREAD; the first phase that differs is noted and one that agrees ends the count; a lane whose ROW differs loses lock and is dropped by REFORM; a row of bad blocks gives nothing more.  A muted slot counts toward the open window and touches nothing else; its last slot ends it.  On a side not in RUN nothing happens. -/
def Obligations.ControlRows : Prop :=
  (∀ (s : State) sd rows blks slot between x, x = s.blk.side sd → x.seg = .run → s.blk.mutedSlot sd slot = false → (∀ e ∈ blks, parseCtl (Prod.snd e) = none) →
      Does (.fillRow sd rows blks slot between) s [.side sd] fun b =>
        b.side sd = { x with row := x.row + BitVec.ofNat 16 rows + 1, rxPhase := (x.rxPhase + rows * (lanesOf sd x.mask).length) % 9 })
  ∧ (∀ (s : State) sd rows ls ph row sp hold slot between x own, x = s.blk.side sd → x.seg = .run → s.blk.mutedSlot sd slot = false →
      ls ≠ [] → (∀ i ∈ ls, x.mask.getLsbD (Fin.val i) = true) → row = x.row + BitVec.ofNat 16 rows →
      own = (x.rxPhase + rows * (lanesOf sd x.mask).length) % 9 → (BitVec.toNat ph = own ∨ x.phaseBad = 0) →
      Does (.fillRow sd rows (ls.map fun i => (i, ctlBytes ctlFill ph (fillBody row sp hold))) slot between) s
          [.side sd, .tl, .reg (tlOff Off.tlOvf (sideBlk sd))] fun b =>
        b.side sd = { x with row := row + 1, peerHold := hold, fillSpread := sp, rxPhase := own, phaseBad := if ph.toNat = own then 0 else 1 })
  ∧ (∀ (s : State) sd rows i ph row sp hold slot between x m, x = s.blk.side sd → x.seg = .run → s.blk.mutedSlot sd slot = false →
      x.mask.getLsbD (Fin.val i) = true → row ≠ x.row + BitVec.ofNat 16 rows → (s.blk.lane (laneOf sd i.val)).inRun = true →
      BitVec.toNat ph = (x.rxPhase + rows * (lanesOf sd x.mask).length) % 9 → x.nextMask.getLsbD i.val = true →
      m = x.nextMask &&& ~~~ BitVec.ofNat 16 (2 ^ i.val) → m ≠ 0 →
      Does (.fillRow sd rows [(i, ctlBytes ctlFill ph (fillBody row sp hold))] slot between) s
          [.side sd, .lane (laneOf sd i.val), .tl, .reg (tlOff Off.tlOvf (sideBlk sd))] fun b =>
        b.lane (laneOf sd i.val) = { s.blk.lane (laneOf sd i.val) with blockLock := false } ∧ (b.side sd).reform = some m
          ∧ (b.side sd).peerHold = hold ∧ (b.side sd).row = x.row + BitVec.ofNat 16 rows + 1)
  ∧ (∀ (s : State) sd rows blks slot between w, (s.blk.side sd).seg = .run → s.blk.mutedSlot sd slot = true → (s.blk.side sd).win = some w →
      w.slots + 1 < windowSlots (s.blk.side sd).grade →
      Does (.fillRow sd rows blks slot between) s [.side sd, .tl, .reg (tlOff Off.tlOvf (sideBlk sd))] fun b =>
        b.side sd = { s.blk.side sd with
          win := some { w with slots := w.slots + 1, discarded := w.discarded + (if slot.any fun o => decide (64 ≤ o.signalUi) then 1 else 0) } })
  ∧ (∀ (s : State) sd rows blks slot between w, (s.blk.side sd).seg = .run → s.blk.mutedSlot sd slot = true → (s.blk.side sd).win = some w →
      windowSlots (s.blk.side sd).grade ≤ w.slots + 1 →
      Does (.fillRow sd rows blks slot between) s [.berths, .chs, .cnt, .events, .fws, .ins, .lanes, .prot, .qy, .regs, .running, .sides, .slots, .sv, .tl] fun b => (b.side sd).win = none ∧ (b.side sd).row = (s.blk.side sd).row)
  ∧ ∀ (s : State) sd rows blks slot between, (s.blk.side sd).seg ≠ .run → exec (.fillRow sd rows blks slot between) s = .next s

/-! ### Fairway -/

/-- FLIT_ARRIVE on a side whose rows come in, with its direction up, toward a side in RUN and not in a REFORM switch: a good flit for another device joins the output buffer unchanged, one stomped already likewise, a bad one (by its CRC, an uncorrectable codeword, undelivered blocks or an error inside) stomped; with four flits in the buffer a good one for another device is dropped and `FW_ALARM` shows it. A good request of a known opcode for this pier's own ID, its quay up, credits and share in order, is claimed, whatever the other side does; on a side from which no rows come nothing happens. -/
def Obligations.FlitsArrive : Prop :=
  (∀ (s : State) sd f gone pe cws cy, s.blk.carries = true → (s.blk.side sd).receives = true → s.blk.directionUp sd = true →
      s.blk.outOfRun (otherSide sd) = false → (s.blk.fw sd).buf.length < 4 → arrivalClass f gone pe cws = .good → f.kind ≠ 0 → s.blk.addressed f = false →
      Does (.flitArrive sd f gone pe cws cy) s [.berths, .cnt, .events, .fws, .ins, .prot, .qy, .regs, .sides, .tl] fun b => (b.fw sd).buf = (s.blk.fw sd).buf ++ [f] ∧ b.qy = s.blk.qy)
  ∧ (∀ (s : State) sd f gone pe cws cy, s.blk.carries = true → (s.blk.side sd).receives = true → s.blk.directionUp sd = true →
      s.blk.outOfRun (otherSide sd) = false → (s.blk.fw sd).buf.length < 4 → arrivalClass f gone pe cws = .stomped →
      Does (.flitArrive sd f gone pe cws cy) s [.berths, .cnt, .events, .fws, .ins, .prot, .qy, .regs, .sides, .tl] fun b => (b.fw sd).buf = (s.blk.fw sd).buf ++ [f] ∧ b.qy = s.blk.qy)
  ∧ (∀ (s : State) sd f gone pe cws cy, s.blk.carries = true → (s.blk.side sd).receives = true → s.blk.directionUp sd = true →
      s.blk.outOfRun (otherSide sd) = false → (s.blk.fw sd).buf.length < 4 →
      (arrivalClass f gone pe cws = .bad ∨ arrivalClass f gone pe cws = .badInside) →
      Does (.flitArrive sd f gone pe cws cy) s [.berths, .cnt, .events, .fws, .ins, .prot, .qy, .regs, .sides, .tl] fun b =>
        (b.fw sd).buf = (s.blk.fw sd).buf ++ [stomp (zeroBlocks f gone)] ∧ b.qy = s.blk.qy)
  ∧ (∀ (s : State) sd f gone pe cws cy, s.blk.carries = true → (s.blk.side sd).receives = true → s.blk.directionUp sd = true →
      s.blk.outOfRun (otherSide sd) = false → 4 ≤ (s.blk.fw sd).buf.length → arrivalClass f gone pe cws = .good → f.kind ≠ 0 → s.blk.addressed f = false →
      Does (.flitArrive sd f gone pe cws cy) s [.berths, .cnt, .events, .fws, .ins, .prot, .qy, .regs, .sides, .tl] fun b =>
        (b.fw sd).buf = (s.blk.fw sd).buf ∧ b.regBit Off.fwAlarm (match sd with | .west => 2 | .east => 3) = true)
  ∧ (∀ (s : State) sd f gone pe cws cy, s.blk.carries = true → (s.blk.side sd).receives = true → s.blk.directionUp sd = true →
      arrivalClass f gone pe cws = .good → f.kind = 1 → knownOpcode f.opcode.toNat = true → s.blk.qy.idValid = true → f.dest = s.blk.qy.pierId →
      s.blk.qyUp = true → s.blk.creditUnits sd ≠ 0 → s.blk.shareUnits (otherSide sd) ≠ 0 →
      Does (.flitArrive sd f gone pe cws cy) s [.berths, .cnt, .events, .fws, .ins, .prot, .qy, .regs, .sides, .tl] fun b =>
        b.qy.claimed = s.blk.qy.claimed ++ [(sd, f)] ∧ b.qy.claimedAt = s.blk.qy.claimedAt ++ [s.blk.ck.tide])
  ∧ ∀ (s : State) sd f gone pe cws cy, (s.blk.side sd).receives = false → exec (.flitArrive sd f gone pe cws cy) s = .next s

/-- FLIT_SEND on a side that sends, in RUN or after its own START, with its direction up. At a row's end a waiting segment message goes first, in a TRAIN row, and the side's own MOVE takes the segment to its grade; with none waiting, the oldest buffered flit, without the control row that is due by the cadence. With an empty buffer and a row's end, the FILL row that is due goes, with the side's ROW, SPREAD and HOLD, or one muted slot of a granted window in its place; where no row is due, or inside a row, an idle flit where neither quay nor stand-in has anything to insert. On a side that does not send nothing happens. -/
def Obligations.FlitsLeave : Prop :=
  (∀ (s : State) sd m q, s.blk.carries = true → (s.blk.side sd).sends = true → s.blk.directionUp (otherSide sd) = true →
      ((s.blk.tryAsk sd).side sd).ctl = m :: q → (s.blk.side sd).txPos = 0 → (s.blk.side sd).moveOut = none →
      Does (.flitSend sd) s [.cnt, .events, .fws, .ins, .lanes, .qy, .regs, .sides, .tl] fun b =>
        (b.side sd).tx = (((s.blk.tryAsk sd).side sd).ctlRow (s.blk.rowSender sd (lanesOf sd (s.blk.txMask sd))) (s.blk.holdOut sd) 0 .train).map .trainRow
          ∧ (b.side sd).ctl = q ∧ b.fwWE = s.blk.fwWE ∧ b.fwEW = s.blk.fwEW ∧ b.qy = s.blk.qy)
  ∧ (∀ (s : State) sd q g, s.blk.carries = true → (s.blk.side sd).sends = true → s.blk.directionUp (otherSide sd) = true →
      (s.blk.side sd).ctl = [(q, .move g)] → (s.blk.side sd).winWant = false → (s.blk.side sd).txPos = 0 → (s.blk.side sd).moveOut = some g → s.blk.trainLanes sd ≠ [] →
      Does (.flitSend sd) s [.cnt, .events, .fws, .ins, .lanes, .qy, .regs, .sides, .tl] fun b =>
        (b.side sd).tx = ((s.blk.side sd).ctlRow (s.blk.rowSender sd (lanesOf sd (s.blk.txMask sd))) (s.blk.holdOut sd) 0 .train).map .trainRow
          ∧ (b.side sd).grade = g ∧ (b.side sd).seg = .training ∧ (b.side sd).moveOut = none)
  ∧ (∀ (s : State) sd f rest, s.blk.carries = true → (s.blk.side sd).sends = true → s.blk.directionUp (otherSide sd) = true →
      ((s.blk.tryAsk sd).side sd).ctl = [] → (s.blk.fw (otherSide sd)).buf = f :: rest →
      Does (.flitSend sd) s [.cnt, .events, .fws, .ins, .lanes, .qy, .regs, .sides, .tl] fun b =>
        (b.side sd).tx = some (.flit f) ∧ (b.side sd).txCtl = none ∧ (b.fw (otherSide sd)).buf = rest ∧ b.fw sd = s.blk.fw sd ∧ b.qy = s.blk.qy)
  ∧ (∀ (s : State) sd, s.blk.carries = true → (s.blk.side sd).sends = true → s.blk.directionUp (otherSide sd) = true →
      ((s.blk.tryAsk sd).side sd).ctl = [] → (s.blk.fw (otherSide sd)).buf = [] → (s.blk.side sd).cadence ≤ (s.blk.side sd).txSince → (s.blk.side sd).txPos = 0 → (s.blk.side sd).mute = 0 →
      Does (.flitSend sd) s [.cnt, .events, .fws, .ins, .lanes, .qy, .regs, .sides, .tl] fun b =>
        (b.side sd).tx = some (.fillRow (ctlBytes ctlFill 0 (fillBody (s.blk.side sd).txRow (s.blk.side sd).spread (s.blk.holdOut sd))))
          ∧ (b.side sd).txRow = (s.blk.side sd).txRow + 1 ∧ (b.side sd).txSince = 0 ∧ b.fwWE = s.blk.fwWE ∧ b.fwEW = s.blk.fwEW)
  ∧ (∀ (s : State) sd n, s.blk.carries = true → (s.blk.side sd).sends = true → s.blk.directionUp (otherSide sd) = true →
      ((s.blk.tryAsk sd).side sd).ctl = [] → (s.blk.fw (otherSide sd)).buf = [] → (s.blk.side sd).cadence ≤ (s.blk.side sd).txSince → (s.blk.side sd).txPos = 0 → (s.blk.side sd).mute = n + 1 →
      Does (.flitSend sd) s [.cnt, .events, .fws, .ins, .lanes, .qy, .regs, .sides, .tl] fun b =>
        (b.side sd).tx = some .quietSlot ∧ (b.side sd).txRow = (s.blk.side sd).txRow ∧ (0 < n → (b.side sd).mute = n))
  ∧ (∀ (s : State) sd, s.blk.carries = true → (s.blk.side sd).sends = true → s.blk.directionUp (otherSide sd) = true →
      ((s.blk.tryAsk sd).side sd).ctl = [] → (s.blk.fw (otherSide sd)).buf = [] → ((s.blk.side sd).txSince < (s.blk.side sd).cadence ∨ (s.blk.side sd).txPos ≠ 0) →
      s.blk.qy.ins = [] → (s.blk.fw (otherSide sd)).standin = [] →
      Does (.flitSend sd) s [.cnt, .events, .fws, .ins, .lanes, .qy, .regs, .sides, .tl] fun b =>
        (b.side sd).tx = some .idleFlit ∧ (b.fw (otherSide sd)).leftIdle = (true :: (s.blk.fw (otherSide sd)).leftIdle).take 255)
  ∧ ∀ (s : State) sd, (s.blk.side sd).sends = false → exec (.flitSend sd) s = .next s

/-- A well formed CREDIT on a running side with a balance raises it, clipped to the grant, and leaves a balance above the grant; a malformed one leaves it.  CREDIT_RETURN sends one CREDIT for all that is owed to a source, 65,535 at most.  CREDIT_STALL alarms after 2 µs at 8 or less.  A completion that matches an internal tag under which a write was sent, or 8 µs after it was sent without one, ends the remote write; one that matches none is counted unknown; of a copy with more writes pending, a completion with OK counts as done; one with POISON where GVALID is 0 is discarded (the model's choice, log 83). -/
def Obligations.CreditsAndRemoteWrites : Prop :=
  (∀ (s : State) sd f, s.blk.qyUp = true → creditWellFormed f = true → (s.blk.side sd).seg = .run → (s.blk.side sd).balSet = true →
      Does (.credit sd f) s [.qy, .side sd] fun b =>
        b.qy.claimed = s.blk.qy.claimed.erase (sd, f)
          ∧ (b.side sd).bal = max (s.blk.side sd).bal (min ((s.blk.side sd).bal + f.arg.toNat) (8 * s.blk.creditUnits sd)))
  ∧ (∀ (s : State) sd f, s.blk.qyUp = true → creditWellFormed f = false →
      Does (.credit sd f) s [.count Off.qyRefParamLo, .qy, .reg (tlOff Off.tlOvf quayBlk), .side sd, .tl] fun b => b.qy.claimed = s.blk.qy.claimed.erase (sd, f) ∧ b.side sd = s.blk.side sd)
  ∧ (∀ (s : State) sd f w, s.blk.qyUp = true → malformedPoison f = false → s.blk.remFor f = some w →
      Does (.remoteCompletion sd f) s [.count Off.qyCplDiscardLo, .count Off.qyUnknownLo, .events, .ins, .qy, .reg Off.lgAlarm, .reg Off.qyAlarm, .reg Off.tlAlarm, .tl] fun b =>
        w.tag = f.tag.toNat ∧ b.qy.rems = s.blk.qy.rems.filter fun x => x.tag != f.tag.toNat)
  ∧ (∀ (s : State) sd f w c, s.blk.qyUp = true → malformedPoison f = false → s.blk.remFor f = some w → w.dump = false → f.status = 0 →
      (s.blk.qy.copies.find? fun x => x.req == w.req && !w.dump) = some c → (c.answered = true ∨ c.unsent ≠ 0) → 2 ≤ c.pending →
      Does (.remoteCompletion sd f) s [.count Off.qyCplDiscardLo, .count Off.qyUnknownLo, .events, .ins, .qy, .reg Off.lgAlarm, .reg Off.qyAlarm, .reg Off.tlAlarm, .tl] fun b => { c with pending := c.pending - 1, ok := c.ok + 1 } ∈ b.qy.copies)
  ∧ (∀ (s : State) sd f, s.blk.qyUp = true → malformedPoison f = true →
      Does (.remoteCompletion sd f) s [.qy] fun b => b.qy.rems = s.blk.qy.rems ∧ b.qy.copies = s.blk.qy.copies ∧ b.qy.claimed = s.blk.qy.claimed.erase (sd, f))
  ∧ (∀ (s : State) sd f, s.blk.qyUp = true → malformedPoison f = false → s.blk.remFor f = none →
      Does (.remoteCompletion sd f) s [.qy, .count Off.qyUnknownLo, .reg Off.qyAlarm] fun b =>
        b.qy.rems = s.blk.qy.rems ∧ b.regBit Off.qyAlarm 4 = true ∧ b.count Off.qyUnknownLo = min (s.blk.count Off.qyUnknownLo + 1) (2 ^ 48 - 1))
  ∧ (∀ (s : State) sd (src : BitVec 15), s.blk.qyUp = true → tget (fun _ => 0) (s.blk.side sd).owed src.toNat ≠ 0 → (s.blk.side sd).seg = .run →
      Does (.creditReturn sd src) s [.ins, .side sd] fun b =>
        tget (fun _ => 0) (b.side sd).owed src.toNat = tget (fun _ => 0) (s.blk.side sd).owed src.toNat - 65535
          ∧ b.qy.ins.dropLast = s.blk.qy.ins
          ∧ (b.qy.ins.getLast?.map fun i => (i.level, i.side, i.flit.opcode, i.flit.dest, i.flit.arg.toNat))
              = some (1, sd, 0x7F, src, min (tget (fun _ => 0) (s.blk.side sd).owed src.toNat) 65535))
  ∧ (∀ (s : State) sd t, (s.blk.side sd).lowSince = some t → 4 ≤ s.blk.creditUnits sd → (s.blk.side sd).seg = .run → s.blk.balance sd ≤ 8 →
      2 * usTicks ≤ s.blk.since t →
      Does (.creditStall sd) s [.events, .reg Off.lgAlarm, .reg Off.qyAlarm] fun b => b.regBit Off.qyAlarm (match sd with | .west => 0 | .east => 1) = true)
  ∧ ∀ (s : State) (tag : BitVec 16) w, (s.blk.qy.rems.find? fun x => x.tag == tag.toNat && x.sentAt.isSome && s.blk.olderThan (8 * usTicks) x.sentAt) = some w →
      Does (.remoteWriteTimeout tag) s [.count Off.qyCplDiscardLo, .events, .ins, .qy, .reg Off.lgAlarm] fun b => b.qy.rems = s.blk.qy.rems.filter fun x => x.tag != tag.toNat

/-! ### Quay -/

/-- Each of READ, WRITE, WRITE_BYTES, ATOMIC, REDUCE, GATHER, SCATTER, FILL, FIND, COPY_LOCAL and COPY_REMOTE, outside DEPARTURE, its spans allowed, header and payload legal, its class and resources given, no part on a berth that bars it: it leaves the claimed flits and stands in the queue under the next number with its parts, class and keys. FENCE waits while an earlier request of its flow is queued; with none it completes with OK at once. -/
def Obligations.RequestsAccepted : Prop :=
  (∀ (s : State) sd (f : Flit) ks cls, s.blk.admits .read sd f ks cls →
      Does (.read sd f) s [.qy, .ins, .chs, .reg Off.qyTags, .reg Off.lgAlarm, .count Off.qyAcceptLo, .count Off.qyCplDiscardLo, .events, .tl, .fresh]
        fun b => s.blk.tookIn b .read sd f ks cls)
  ∧ (∀ (s : State) sd (f : Flit) ks cls, s.blk.admits .write sd f ks cls →
      Does (.write sd f) s [.qy, .ins, .chs, .reg Off.qyTags, .reg Off.lgAlarm, .count Off.qyAcceptLo, .count Off.qyCplDiscardLo, .events, .tl, .fresh]
        fun b => s.blk.tookIn b .write sd f ks cls)
  ∧ (∀ (s : State) sd (f : Flit) ks cls, s.blk.admits .writeBytes sd f ks cls →
      Does (.writeBytes sd f) s [.qy, .ins, .chs, .reg Off.qyTags, .reg Off.lgAlarm, .count Off.qyAcceptLo, .count Off.qyCplDiscardLo, .events, .tl, .fresh]
        fun b => s.blk.tookIn b .writeBytes sd f ks cls)
  ∧ (∀ (s : State) sd (f : Flit) ks cls, s.blk.admits .atomic sd f ks cls →
      Does (.atomic sd f) s [.qy, .ins, .chs, .reg Off.qyTags, .reg Off.lgAlarm, .count Off.qyAcceptLo, .count Off.qyCplDiscardLo, .events, .tl, .fresh]
        fun b => s.blk.tookIn b .atomic sd f ks cls)
  ∧ (∀ (s : State) sd (f : Flit) ks cls, s.blk.admits .reduce sd f ks cls →
      Does (.reduce sd f) s [.qy, .ins, .chs, .reg Off.qyTags, .reg Off.lgAlarm, .count Off.qyAcceptLo, .count Off.qyCplDiscardLo, .events, .tl, .fresh]
        fun b => s.blk.tookIn b .reduce sd f ks cls)
  ∧ (∀ (s : State) sd (f : Flit) ks cls, s.blk.admits .gather sd f ks cls →
      Does (.gather sd f) s [.qy, .ins, .chs, .reg Off.qyTags, .reg Off.lgAlarm, .count Off.qyAcceptLo, .count Off.qyCplDiscardLo, .events, .tl, .fresh]
        fun b => s.blk.tookIn b .gather sd f ks cls)
  ∧ (∀ (s : State) sd (f : Flit) ks cls, s.blk.admits .scatter sd f ks cls →
      Does (.scatter sd f) s [.qy, .ins, .chs, .reg Off.qyTags, .reg Off.lgAlarm, .count Off.qyAcceptLo, .count Off.qyCplDiscardLo, .events, .tl, .fresh]
        fun b => s.blk.tookIn b .scatter sd f ks cls)
  ∧ (∀ (s : State) sd (f : Flit) ks cls, s.blk.admits .fill sd f ks cls →
      Does (.fill sd f) s [.qy, .ins, .chs, .reg Off.qyTags, .reg Off.lgAlarm, .count Off.qyAcceptLo, .count Off.qyCplDiscardLo, .events, .tl, .fresh]
        fun b => s.blk.tookIn b .fill sd f ks cls)
  ∧ (∀ (s : State) sd (f : Flit) ks cls, s.blk.admits .find sd f ks cls →
      Does (.find sd f) s [.qy, .ins, .chs, .reg Off.qyTags, .reg Off.lgAlarm, .count Off.qyAcceptLo, .count Off.qyCplDiscardLo, .events, .tl, .fresh]
        fun b => s.blk.tookIn b .find sd f ks cls)
  ∧ (∀ (s : State) sd (f : Flit) ks cls, s.blk.admits .copyLocal sd f ks cls →
      Does (.copyLocal sd f) s [.qy, .ins, .chs, .reg Off.qyTags, .reg Off.lgAlarm, .count Off.qyAcceptLo, .count Off.qyCplDiscardLo, .events, .tl, .fresh]
        fun b => s.blk.tookIn b .copyLocal sd f ks cls)
  ∧ (∀ (s : State) sd (f : Flit) ks cls, s.blk.admits .copyRemote sd f ks cls →
      Does (.copyRemote sd f) s [.qy, .ins, .chs, .reg Off.qyTags, .reg Off.lgAlarm, .count Off.qyAcceptLo, .count Off.qyCplDiscardLo, .events, .tl, .fresh]
        fun b => s.blk.tookIn b .copyRemote sd f ks cls)
  ∧ (∀ (s : State) sd (f : Flit) cls, s.blk.takes .fence f → s.blk.pw.st ≠ .departure → (planOf .fence f).valid = true →
      s.blk.classOf sd f [] 1 = cls → (cls.charter.isNone = true → s.blk.looseTags 1 = true) → s.blk.req s.blk.qy.nextId = none →
      (s.blk.qy.reqs.any fun q => decide (q.id < s.blk.qy.nextId) && q.f.flow == f.flow && q.op != .fence) = true →
      Does (.fence sd f) s [.qy, .ins, .chs, .reg Off.qyTags, .reg Off.lgAlarm, .count Off.qyAcceptLo, .count Off.qyCplDiscardLo, .events, .tl] fun b =>
        b.qy.claimed = s.blk.qy.claimed.erase (sd, f)
          ∧ b.req s.blk.qy.nextId = some { id := s.blk.qy.nextId, op := .fence, sd := sd, f := f, cls := cls, quayIn := (s.blk.takeClaimed sd f).qy.claimAt })
  ∧ ∀ (s : State) sd (f : Flit) cls, s.blk.takes .fence f → s.blk.pw.st ≠ .departure → (planOf .fence f).valid = true →
      s.blk.classOf sd f [] 1 = cls → (cls.charter.isNone = true → s.blk.looseTags 1 = true) → s.blk.req s.blk.qy.nextId = none →
      (s.blk.qy.reqs.any fun q => q.f.flow == f.flow) = false → (s.blk.qy.copies.any fun c => c.f.flow == f.flow && !c.answered) = false →
      (s.blk.side sd).seg = .run →
      Does (.fence sd f) s [.qy, .ins, .chs, .reg Off.qyTags, .reg Off.lgAlarm, .count Off.qyAcceptLo, .count Off.qyCplDiscardLo, .events, .tl] fun b =>
        b.answered s.blk.qy.nextId (clsLevel cls) 0x00

/-- A claimed memory request (all twelve rows) whose region check fails is refused ACCESS_DENIED in every state in which the quay decides; one that passes and whose header, payload, span fields or route are bad, BAD_PARAM; a good one in DEPARTURE, BUSY_RETRY; a good best-effort one that lacks tags or ingress, BUSY_RETRY. Each leaves at level 2 toward the source. With CSR = 1 it is refused. Not decided or not of the row: nothing. -/
def Obligations.RequestsRefused : Prop :=
  (∀ (s : State) (op : Op) sd (f : Flit), s.blk.takes op f → s.blk.regionCheck op f (planOf op f) = .denied → (s.blk.side sd).seg = .run →
      Does (op.row sd f) s [.qy, .ins, .count Off.qyRefDeniedLo, .tl] fun b => s.blk.refusedAs b sd f 0x0A)
  ∧ (∀ (s : State) (op : Op) sd (f : Flit) ks, s.blk.takes op f → s.blk.regionCheck op f (planOf op f) = .keys ks → (s.blk.side sd).seg = .run →
      ((planOf op f).spanBad = true ∨ (planOf op f).valid = false ∨ (op = .copyRemote ∧ s.blk.copyRouted f = false)) →
      Does (op.row sd f) s [.qy, .ins, .count Off.qyRefParamLo, .tl] fun b => s.blk.refusedAs b sd f 0x04)
  ∧ (∀ (s : State) (op : Op) sd (f : Flit) ks, s.blk.takes op f → s.blk.regionCheck op f (planOf op f) = .keys ks → (s.blk.side sd).seg = .run →
      (planOf op f).spanBad = false → (planOf op f).valid = true → (op = .copyRemote → s.blk.copyRouted f = true) → s.blk.pw.st = .departure →
      Does (op.row sd f) s [.qy, .ins, .count Off.qyRefBusyLo, .tl] fun b => s.blk.refusedAs b sd f 0x07)
  ∧ (∀ (s : State) (op : Op) sd (f : Flit) ks, s.blk.takes op f → s.blk.regionCheck op f (planOf op f) = .keys ks → (s.blk.side sd).seg = .run →
      (planOf op f).spanBad = false → (planOf op f).valid = true → (op = .copyRemote → s.blk.copyRouted f = true) → s.blk.pw.st ≠ .departure →
      (s.blk.classOf sd f (partsOf op (planOf op f)) (1 + remCount op f)).charter = none →
      (s.blk.looseTags (1 + remCount op f) = false ∨ s.blk.looseIngress (partsOf op (planOf op f)) = false) →
      Does (op.row sd f) s [.qy, .ins, .count Off.qyRefBusyLo, .reg Off.qyAlarm, .tl] fun b => s.blk.refusedAs b sd f 0x07)
  ∧ (∀ (s : State) (op : Op) sd (f : Flit), op ≠ .read → op ≠ .write → f.kind = 1 → f.opcode.toNat = op.code → f.csr = true → s.blk.decides = true → (s.blk.side sd).seg = .run →
      Does (op.row sd f) s [.berths, .chans, .chs, .cnt, .events, .fresh, .ins, .prot, .qy, .reg (tlOff Off.tlOvf quayBlk), .reg Off.chAlarm, .reg Off.lgAlarm, .reg Off.prAlarm, .reg Off.prErrLost, .reg Off.qyAlarm, .reg Off.qyTags, .stk, .tl] fun b => s.blk.refusedAs b sd f (if s.blk.csrSourceOk f.src.toNat then 0x04 else 0x0A))
  ∧ ∀ (s : State) (op : Op) sd (f : Flit), f.kind ≠ 1 ∨ f.opcode.toNat ≠ op.code ∨ s.blk.decides = false → exec (op.row sd f) s = .next s

/-- An in-band READ of a register from an admitted source, well formed, outside DEPARTURE, a tag free, completes at level 6 with OK, and so does a WRITE; a source outside `QY_CSR_SRC` gets ACCESS_DENIED, a malformed access BAD_PARAM, a good one in DEPARTURE BUSY_RETRY; no register changes by a refusal. -/
def Obligations.RegisterAccessInBand : Prop :=
  (∀ (s : State) sd (f : Flit), f.kind = 1 → f.opcode = 0x01 → f.csr = true → s.blk.decides = true → (s.blk.side sd).seg = .run → s.blk.csrSourceOk f.src.toNat = true →
      csrWellFormed true f = true → s.blk.pw.st ≠ .departure → s.blk.looseTags 1 = true → s.blk.req s.blk.qy.nextId = none →
      Does (.read sd f) s [.berths, .chans, .chs, .cnt, .cols, .events, .fresh, .fws, .heat, .hold, .ins, .keys, .lanes, .mf, .prot, .pw, .qy, .rdData, .regs, .running, .sel, .sides, .slots, .stk, .sv, .tl] fun b => b.qy.claimed = s.blk.qy.claimed.erase (sd, f) ∧ b.answered s.blk.qy.nextId 6 0x00)
  ∧ (∀ (s : State) sd (f : Flit), f.kind = 1 → f.opcode = 0x02 → f.csr = true → s.blk.decides = true → s.blk.csrSourceOk f.src.toNat = true →
      csrWellFormed false f = true → f.offset.toNat = Off.qyLimit → s.blk.pw.st ≠ .departure → s.blk.looseTags 1 = true → s.blk.req s.blk.qy.nextId = none →
      1 ≤ f.arg.toNat → f.arg.toNat ≤ 0x4000 →
      Does (.write sd f) s [.berths, .chans, .chs, .cnt, .cols, .events, .fresh, .fws, .heat, .hold, .ins, .keys, .lanes, .mf, .prot, .pw, .qy, .rdData, .regs, .running, .sel, .sides, .slots, .stk, .sv, .tl] fun b =>
        b.qy.claimed = s.blk.qy.claimed.erase (sd, f) ∧ b.reg Off.qyLimit = f.arg ∧ b.req s.blk.qy.nextId = none)
  ∧ (∀ (s : State) (op : Op) sd (f : Flit), op = .read ∨ op = .write → f.kind = 1 → f.opcode.toNat = op.code → f.csr = true → s.blk.decides = true → (s.blk.side sd).seg = .run →
      s.blk.csrSourceOk f.src.toNat = false →
      Does (op.row sd f) s [.qy, .ins, .count Off.qyRefDeniedLo, .tl] fun b => s.blk.refusedAs b sd f 0x0A)
  ∧ (∀ (s : State) (op : Op) sd (f : Flit), op = .read ∨ op = .write → f.kind = 1 → f.opcode.toNat = op.code → f.csr = true → s.blk.decides = true → (s.blk.side sd).seg = .run →
      s.blk.csrSourceOk f.src.toNat = true → csrWellFormed (op == .read) f = false →
      Does (op.row sd f) s [.qy, .ins, .count Off.qyRefParamLo, .tl] fun b => s.blk.refusedAs b sd f 0x04)
  ∧ ∀ (s : State) (op : Op) sd (f : Flit), op = .read ∨ op = .write → f.kind = 1 → f.opcode.toNat = op.code → f.csr = true → s.blk.decides = true → (s.blk.side sd).seg = .run →
      s.blk.csrSourceOk f.src.toNat = true → csrWellFormed (op == .read) f = true → s.blk.pw.st = .departure →
      Does (op.row sd f) s [.qy, .ins, .count Off.qyRefBusyLo, .tl] fun b => s.blk.refusedAs b sd f 0x07

/-- PART_ARRIVE queues a part in transit where its berth serves, encodes a write that reads nothing, holds it, with the request's other parts that have issued nothing, on a channel that fills, and answers FENCED at level 2 where the berth is fenced or absent. COMMIT_GATE of an open gate commits all parts at once under the next commit number; an internal error answers INTERNAL and raises the alarm of that part's berth, and a poisoned input answers and stores nothing; of a closed gate it does nothing. PART_DONE of the last open part ends a request that only reads (COPY_REMOTE apart), or a committed write, with its completion, and an internal error in a part that reads ends the request with INTERNAL; beside a read's cell damage nothing stored changes. An internal error in the staging of a committed write's last part, met at its end or at a WR before, ends the write INTERNAL; its end changes nothing stored. -/
def Obligations.PartsAndTheCommitGate : Prop :=
  (∀ (s : State) id i (r : Req) (p : Part), s.blk.req id = some r → r.parts[i]? = some p → p.stage = .transit → s.blk.coreRuns = true →
      ((s.blk.berth p.berth).st = .ready ∨ (s.blk.berth p.berth).st = .throttled) →
      Does (.partArrive id i) s [.qy, .chan p.berth, .chs, .tl, .reg Off.chAlarm] fun b =>
        ((b.req id).bind (·.parts[i]?)).map (fun q => (q.stage, q.arrived, q.level)) =
          some (if p.reads = [] ∧ p.toWrite ≠ [] ∧ ((r.op.writes = true ∧ r.op ≠ .copyLocal) ∨ p.writes.length = p.toWrite.length)
            then .ready else .queued, s.blk.ck.tide, schedLevel r.cls))
  ∧ (∀ (s : State) id i (r : Req) (p : Part), s.blk.req id = some r → r.parts[i]? = some p → p.stage = .transit → s.blk.coreRuns = true →
      (s.blk.berth p.berth).st = .filling → r.cls.charter = none →
      Does (.partArrive id i) s [.qy] fun b => b.req id = some { r with parts := r.parts.map Part.heldBack })
  ∧ (∀ (s : State) id i (r : Req) (p : Part), s.blk.req id = some r → r.parts[i]? = some p → p.stage = .transit → s.blk.coreRuns = true →
      ((s.blk.berth p.berth).st = .fenced ∨ (s.blk.berth p.berth).st = .absent) → (s.blk.side r.sd).seg = .run →
      Does (.partArrive id i) s [.berths, .chans, .chs, .count Off.qyCplDiscardLo, .events, .ins, .qy, .regs, .stk, .tl] fun b => b.answered id 2 0x0D)
  ∧ (∀ (s : State) id (r : Req) (e : Option Nat), s.blk.req id = some r → s.blk.gateOpen r = true → s.blk.coreRuns = true → r.poisoned = false →
      e.bind (r.parts[·]?) = none →
      Does (.commitGate id e) s [.qy] fun b =>
        b.qy.commits = s.blk.qy.commits + 1
          ∧ b.req id = some { r with committed := some s.blk.qy.commits
                                     parts := r.parts.map fun p => if p.toWrite = [] then p else { p with stage := .committed } })
  ∧ (∀ (s : State) id (r : Req) (e : Option Nat) p, s.blk.req id = some r → s.blk.gateOpen r = true → s.blk.coreRuns = true → (s.blk.side r.sd).seg = .run →
      e.bind (r.parts[·]?) = some p →
      Does (.commitGate id e) s [.berths, .chans, .chs, .cnt, .events, .ins, .qy, .regs, .stk, .tl] fun b =>
        b.answered id (clsLevel r.cls) 0x1F ∧ b.regBit (btOff Off.btAlarm p.berth) 1 = true)
  ∧ (∀ (s : State) id (r : Req) (e : Option Nat), s.blk.req id = some r → s.blk.gateOpen r = true → s.blk.coreRuns = true → (s.blk.side r.sd).seg = .run →
      e.bind (r.parts[·]?) = none → r.poisoned = true →
      Does (.commitGate id e) s [.berths, .chans, .chs, .cnt, .events, .ins, .qy, .regs, .stk, .tl] fun b => b.answered id (clsLevel r.cls) ((poisonAnswer r.op r.f r.vals).status % 256))
  ∧ (∀ (s : State) id (r : Req) e, s.blk.req id = some r → s.blk.gateOpen r = false → exec (.commitGate id e) s = .next s)
  ∧ (∀ (s : State) id i (r : Req) (p : Part) dmg, s.blk.req id = some r → r.op.writes = false → r.op ≠ .fence → r.op ≠ .copyRemote → r.parts[i]? = some p →
      p.stage = .issued → p.toWrite = [] → ((r.parts.eraseIdx i).all fun q => !q.open_) = true → (s.blk.side r.sd).seg = .run →
      DoesOn (.partDone id i dmg false) s [.berths, .chans, .chs, .cnt, .cols, .events, .ins, .prot, .qy, .regs, .slots, .stk, .tl] (fun a => ∃ d ∈ dmg, d.cell = true ∧ a = d.granule * symsPerGranule + d.symbol) fun t =>
        t.blk.req id = none ∧ (t.blk.qy.ins.any fun n => n.reqId == some id && n.level == clsLevel r.cls && n.flit.kind == 2) = true)
  ∧ (∀ (s : State) id i (r : Req) (p : Part) dmg, s.blk.req id = some r → r.parts[i]? = some p → p.stage = .issued → (s.blk.side r.sd).seg = .run →
      DoesOn (.partDone id i dmg true) s [.berths, .chans, .chs, .cnt, .cols, .events, .ins, .prot, .qy, .regs, .slots, .stk, .tl] (fun a => ∃ d ∈ dmg, d.cell = true ∧ a = d.granule * symsPerGranule + d.symbol) fun t =>
        t.blk.answered id (clsLevel r.cls) 0x1F)
  ∧ (∀ (s : State) id i (r : Req) (p : Part) dmg, s.blk.req id = some r → r.op.writes = true → r.parts[i]? = some p → p.stage = .committed → p.toWrite = [] →
      r.committed.isSome = true → ((r.parts.eraseIdx i).all fun q => !q.open_) = true → r.status = 0 → p.bad = [] → (s.blk.side r.sd).seg = .run →
      Does (.partDone id i dmg false) s [.berths, .chans, .chs, .cnt, .cols, .events, .ins, .prot, .qy, .regs, .slots, .stk, .tl] fun b =>
        b.answered id (clsLevel r.cls) ((writeAnswer r.op r.f r.vals (r.written + p.writes.length)).status % 256))
  ∧ ∀ (s : State) id i (r : Req) (p : Part) dmg pe, s.blk.req id = some r → r.op.writes = true → r.parts[i]? = some p → p.stage = .committed → p.toWrite = [] →
      (pe = true ∨ p.bad ≠ []) → r.committed.isSome = true → ((r.parts.eraseIdx i).all fun q => !q.open_) = true → (s.blk.side r.sd).seg = .run →
      Does (.partDone id i dmg pe) s [.berths, .chans, .chs, .cnt, .cols, .events, .ins, .prot, .qy, .regs, .slots, .stk, .tl] fun b => b.answered id (clsLevel r.cls) 0x1F

/-- BE_WITHDRAW answers a best-effort request BUSY_RETRY at level 2 once 5.2 µs have passed since quay in without its commit or issue, and counts it. CHARTER_WITHDRAW does so at the class deadline, 900 ns for RT and 2,400 ns for BW, and raises `CH_ENT_MISS`. FILL_HOLD_TIMEOUT answers NOT_READY a request with a held part 4 µs after quay in. Earlier each does nothing, and the withdrawals nothing to an issued or committed request, nor BE_WITHDRAW to an in-budget one. -/
def Obligations.Withdrawals : Prop :=
  (∀ (s : State) id (r : Req), s.blk.req id = some r → r.cls.charter = none → r.issued = false → 8320 ≤ s.blk.since r.quayIn → (s.blk.side r.sd).seg = .run →
      Does (.beWithdraw id) s [.berths, .chans, .chs, .count Off.qyBeCapLo, .count Off.qyCplDiscardLo, .events, .ins, .qy, .reg (tlOff Off.tlOvf quayBlk), .reg Off.lgAlarm, .reg Off.qyAlarm, .stk, .tl] fun b =>
        b.answered id 2 0x07 ∧ b.regBit Off.qyAlarm 3 = true ∧ b.count Off.qyBeCapLo = min (s.blk.count Off.qyBeCapLo + 1) (2 ^ 48 - 1))
  ∧ (∀ (s : State) id (r : Req), s.blk.req id = some r → (r.cls.charter.isSome = true ∨ r.issued = true ∨ s.blk.since r.quayIn < 8320) →
      exec (.beWithdraw id) s = .next s)
  ∧ (∀ (s : State) id (r : Req) c, s.blk.req id = some r → (r.cls = .rt c ∧ 1440 ≤ s.blk.since r.quayIn ∨ r.cls = .bw c ∧ 3840 ≤ s.blk.since r.quayIn) →
      r.issued = false → (s.blk.side r.sd).seg = .run →
      Does (.charterWithdraw id) s [.berths, .chans, .chs, .count Off.qyCplDiscardLo, .events, .ins, .qy, .reg Off.chAlarm, .reg Off.lgAlarm, .stk] fun b =>
        b.answered id 2 0x07 ∧ b.regBit Off.chAlarm 1 = true ∧ (b.charter c).miss = inc32 (s.blk.charter c).miss)
  ∧ (∀ (s : State) id (r : Req) c, s.blk.req id = some r → (r.cls = .rt c ∧ s.blk.since r.quayIn < 1440 ∨ r.cls = .bw c ∧ s.blk.since r.quayIn < 3840 ∨ r.issued = true) →
      exec (.charterWithdraw id) s = .next s)
  ∧ (∀ (s : State) id (r : Req), s.blk.req id = some r → (r.parts.any fun p => p.stage == .held) = true → 6400 ≤ s.blk.since r.quayIn → (s.blk.side r.sd).seg = .run →
      Does (.fillHoldTimeout id) s [.berths, .chans, .chs, .count Off.qyCplDiscardLo, .events, .ins, .qy, .reg Off.lgAlarm, .stk] fun b => b.answered id (clsLevel r.cls) 0x06)
  ∧ ∀ (s : State) id (r : Req), s.blk.req id = some r → s.blk.since r.quayIn < 6400 → exec (.fillHoldTimeout id) s = .next s

/-! ### Memory channels and the stack -/

/-- COMMAND_ISSUE at an AWAKE, clocked channel. Where nothing is to be sent again, no waiting access whose command could issue now has a higher level than the one chosen, and a column command falls on an even tick of the tide counter, the others on an odd one (the model's choice of R243's cycles). ACT opens the row, PRE closes it; a RD gives the part the granule's symbols, a WR stores the staged form in that granule and nowhere else, the poison form with the alarm where its staging shows a parity error; the fill writes the zero form; a scrub's read stores nothing outside its granule and goes on to the next of its channel; a REFab closes every row, a REFpb its bank's; a calibration takes one slot. RESUME, and a command sent again, store nothing. With nothing to issue the stored symbols and the channel stay; a channel that does not serve does nothing; a granule outside the array is the fault noSuchGranule. -/
def Obligations.ChannelCommands : Prop :=
  (∀ (b : Block) (n : Nat) c, (b.chan n).resume = false → (b.chan n).replayQ = [] → b.choose n = some c →
      (∀ a ∈ b.accesses n, ((b.cmdFor n (b.accesses n) (b.queuedAccesses n) a).all fun d => decide (c.acc.level ≤ d.acc.level)) = true)
        ∧ (c.kind = .col ∨ c.kind = .cal ↔ b.now % 2 = 0))
  ∧ (∀ (s : State) (ch : ChId) dmg fc pe, s.blk.chanServes ch = false → exec (.commandIssue ch dmg fc pe) s = .next s)
  ∧ (∀ (s : State) (ch : ChId) dmg fc pe c, s.blk.chanServes ch = true → (s.blk.atCycle ch).choose ch = some c → granules ≤ c.acc.gran →
      exec (.commandIssue ch dmg fc pe) s = .fault .noSuchGranule)
  ∧ (∀ (s : State) (ch : ChId) dmg fc pe, s.blk.chanServes ch = true → (s.blk.atCycle ch).choose ch = none →
      Does (.commandIssue ch dmg fc pe) s [.qy, .chs, .reg Off.chAlarm] fun b => b.chan ch = s.blk.chan ch)
  ∧ (∀ (s : State) (ch : ChId) dmg fc pe c, s.blk.chanServes ch = true → (s.blk.atCycle ch).choose ch = some c → c.acc.gran < granules → c.kind = .act →
      Does (.commandIssue ch dmg fc pe) s [.qy, .chs, .reg Off.chAlarm, .chan ch, .count (dcOff Off.dcActLo ch), .tl, .reg (tlOff Off.tlOvf ch)] fun b =>
        ((b.chan ch).bank c.acc.bank).row = some (rowOf c.acc.gran) ∧ ((b.chan ch).bank c.acc.bank).act = some s.blk.ck.tide
          ∧ (b.chan ch).nAct = (s.blk.chan ch).nAct + 1)
  ∧ (∀ (s : State) (ch : ChId) dmg fc pe c, s.blk.chanServes ch = true → (s.blk.atCycle ch).choose ch = some c → c.acc.gran < granules → c.kind = .pre →
      Does (.commandIssue ch dmg fc pe) s [.qy, .chs, .reg Off.chAlarm, .chan ch, .tl, .reg (tlOff Off.tlOvf ch)] fun b =>
        ((b.chan ch).bank c.acc.bank).row = none ∧ ((b.chan ch).bank c.acc.bank).pre = some s.blk.ck.tide)
  ∧ (∀ (s : State) (ch : ChId) dmg fc pe c id i (r : Req) (p : Part), s.blk.chanServes ch = true → (s.blk.atCycle ch).choose ch = some c → c.acc.gran < granules → c.kind = .col → (s.blk.chan ch).replayQ = [] →
      c.acc.src = .part id i → c.acc.wr = false → (s.blk.atCycle ch).req id = some r → r.parts[i]? = some p →
      Does (.commandIssue ch dmg fc pe) s [.qy, .chs, .reg Off.chAlarm, .chan ch, .count (dcOff Off.dcHitLo ch), .count (btOff Off.btRdGranLo ch), .slots, .tl, .reg (tlOff Off.tlOvf ch)] fun b =>
        ((b.req id).bind (·.parts[i]?)).map (fun q => (q.got, q.toIssue))
          = some (p.got ++ [(c.acc.gran, if ownGranule c.acc.gran then s.blk.ownForm c.acc.gran else s.blk.seen s.mem c.acc.gran)],
              p.toIssue.filter (· != c.acc.gran)))
  ∧ (∀ (s : State) (ch : ChId) dmg fc pe c id i (r : Req) (p : Part) w, s.blk.chanServes ch = true → (s.blk.atCycle ch).choose ch = some c → c.acc.gran < granules → c.kind = .col → (s.blk.chan ch).replayQ = [] →
      c.acc.src = .part id i → c.acc.wr = true → (s.blk.atCycle ch).req id = some r → r.parts[i]? = some p →
      (p.writes.find? fun w => w.gran == c.acc.gran) = some w →
      DoesOn (.commandIssue ch dmg fc pe) s [.qy, .chs, .reg Off.chAlarm, .chan ch, .berth ch, .count (dcOff Off.dcHitLo ch), .count (btOff Off.btWrGranLo ch), .count Off.prPoisonWrLo, .events, .tl, .reg (tlOff Off.tlOvf ch), .reg (btOff Off.btAlarm ch), .reg Off.lgAlarm]
        (fun a => a / symsPerGranule = c.acc.gran) fun t =>
        Memory.readGranule t.mem c.acc.gran = { w with poison := w.poison || pe }.form ∧ (pe = true → t.blk.regBit (btOff Off.btAlarm ch) 1 = true)
          ∧ ((t.blk.req id).bind (·.parts[i]?)).map (fun q => (q.toWrite, q.bad)) =
              some (p.toWrite.filter (· != c.acc.gran), if pe then c.acc.gran :: p.bad else p.bad))
  ∧ (∀ (s : State) (ch : ChId) dmg fc pe c, s.blk.chanServes ch = true → (s.blk.atCycle ch).choose ch = some c → c.acc.gran < granules → c.kind = .col → (s.blk.chan ch).replayQ = [] → c.acc.src = .fill →
      DoesOn (.commandIssue ch dmg fc pe) s [.qy, .chs, .reg Off.chAlarm, .chan ch, .berth ch, .count (dcOff Off.dcHitLo ch), .count (btOff Off.btRdGranLo ch), .count (btOff Off.btWrGranLo ch), .prot, .slots, .tl, .reg (tlOff Off.tlOvf ch)]
        (fun a => a / symsPerGranule = c.acc.gran) fun t =>
        Memory.readGranule t.mem c.acc.gran = zeroForm ∧ (t.blk.chan ch).fillNext = (s.blk.chan ch).fillNext + 1)
  ∧ (∀ (s : State) (ch : ChId) dmg fc pe c sc, s.blk.chanServes ch = true → (s.blk.atCycle ch).choose ch = some c → c.acc.gran < granules → c.kind = .col → (s.blk.chan ch).replayQ = [] → c.acc.src = .scrub → s.blk.prot.scrub = some sc →
      DoesOn (.commandIssue ch dmg fc pe) s [.berths, .chans, .chs, .cnt, .col ch, .events, .fws, .ins, .lanes, .mf, .prot, .pw, .qy, .regs, .sides, .slots, .stk, .tl] (fun a => a / symsPerGranule = c.acc.gran) fun t =>
        (t.blk.chan ch).scrubNext = nextOnChan ch sc.last c.acc.gran ∧ (t.blk.prot.scrub.map (·.read)) = some (sc.read + 1))
  ∧ (∀ (s : State) (ch : ChId) dmg fc pe c, s.blk.chanServes ch = true → (s.blk.atCycle ch).choose ch = some c → c.acc.gran < granules → c.kind = .refab →
      Does (.commandIssue ch dmg fc pe) s [.berths, .chans, .chs, .cnt, .col ch, .events, .fws, .ins, .lanes, .mf, .prot, .pw, .qy, .regs, .sides, .slots, .stk, .tl] fun b =>
        (b.chan ch).openRows = 0 ∧ (b.chan ch).refab = some s.blk.ck.tide ∧ (b.chan ch).nRefab = (s.blk.chan ch).nRefab + 1)
  ∧ (∀ (s : State) (ch : ChId) dmg fc pe c, s.blk.chanServes ch = true → (s.blk.atCycle ch).choose ch = some c → c.acc.gran < granules → c.kind = .refpb →
      Does (.commandIssue ch dmg fc pe) s [.qy, .chs, .reg Off.chAlarm, .chan ch, .tl, .reg (tlOff Off.tlOvf ch)] fun b =>
        ((b.chan ch).bank (s.blk.chan ch).passBank).row = none ∧ ((b.chan ch).bank (s.blk.chan ch).passBank).refpb = some s.blk.ck.tide
          ∧ (b.chan ch).passBank = (s.blk.chan ch).passBank + 1 ∧ (b.chan ch).nRefpb = (s.blk.chan ch).nRefpb + 1)
  ∧ (∀ (s : State) (ch : ChId) dmg fc pe c, s.blk.chanServes ch = true → (s.blk.atCycle ch).choose ch = some c → c.acc.gran < granules → c.kind = .cal →
      Does (.commandIssue ch dmg fc pe) s [.qy, .chs, .reg Off.chAlarm, .chan ch] fun b => (b.chan ch).calSlots = (s.blk.chan ch).calSlots + 1)
  ∧ (∀ (s : State) (ch : ChId) dmg fc pe c, s.blk.chanServes ch = true → (s.blk.atCycle ch).choose ch = some c → c.acc.gran < granules → c.kind = .resume →
      Does (.commandIssue ch dmg fc pe) s [.qy, .chs, .reg Off.chAlarm, .chan ch] fun b =>
        (b.chan ch).resume = false ∧ (b.chan ch).replayQ = (s.blk.chan ch).replayQ)
  ∧ ∀ (s : State) (ch : ChId) dmg fc pe c rest, s.blk.chanServes ch = true → (s.blk.atCycle ch).choose ch = some c → c.acc.gran < granules →
      (s.blk.chan ch).resume = false → (s.blk.chan ch).replayQ = c :: rest → c.kind ≠ .resume →
      Does (.commandIssue ch dmg fc pe) s [.qy, .chs, .reg Off.chAlarm, .chan ch, .count (dcOff Off.dcActLo ch)] fun b => (b.chan ch).replayQ = rest

/-- REFRESH_TICK, one interval after the tick before: with nothing owed a REFab is due, and issues at once where it is the scheduler's choice; a tick under panic or while a debt stands owes one more, and with eight owed it alarms; a pulled-in refresh takes its tick's place. Earlier it does nothing. REFRESH_PULL_IN asks for one early, and issues it where it is the choice. REFPB_PASS starts a repayment, and its end pays one. SR_IDLE_TIMER enters self-refresh after the idle time; SR_ENTRY_DONE sleeps, or wakes where something waits; SR_EXIT_DONE, tXS after SRX, makes the channel AWAKE, and a channel whose return clock is lost then is fenced. -/
def Obligations.RefreshAndSelfRefresh : Prop :=
  (∀ (s : State) (ch : ChId) fc, (s.blk.chanServes ch = false ∨ s.blk.passed (s.blk.chan ch).tickIn (s.blk.chan ch).lastTick = false) →
      exec (.refreshTick ch fc) s = .next s)
  ∧ (∀ (s : State) (ch : ChId) fc c, s.blk.chanServes ch = true → s.blk.passed (s.blk.chan ch).tickIn (s.blk.chan ch).lastTick = true →
      (s.blk.chan ch).pulled = false → (s.blk.chan ch).owed = 0 → (s.blk.chan ch).refDue = false → s.blk.panicAt ch = false →
      (s.blk.tickFalls ch).choose ch = some c → c.kind = .refab → (s.blk.chan ch).replayQ = [] → (s.blk.chan ch).limitDue = false →
      Does (.refreshTick ch fc) s [.berths, .chans, .chs, .cnt, .col ch, .events, .fws, .ins, .lanes, .mf, .pw, .qy, .regs, .sides, .stk, .tl] fun b =>
        (b.chan ch).refab = some s.blk.ck.tide ∧ (b.chan ch).openRows = 0 ∧ (b.chan ch).nRefab = (s.blk.chan ch).nRefab + 1 ∧ (b.chan ch).owed = 0
          ∧ (b.chan ch).refDue = false)
  ∧ (∀ (s : State) (ch : ChId) fc, s.blk.chanServes ch = true → s.blk.passed (s.blk.chan ch).tickIn (s.blk.chan ch).lastTick = true →
      (s.blk.chan ch).pulled = false → (s.blk.chan ch).owed = 0 → (s.blk.chan ch).refDue = false → s.blk.panicAt ch = false →
      (((s.blk.tickFalls ch).choose ch).all fun c => c.kind != .refab) = true →
      Does (.refreshTick ch fc) s [.chan ch] fun b =>
        (b.chan ch).refDue = true ∧ (b.chan ch).owed = 0 ∧ (b.chan ch).banks = (s.blk.chan ch).banks)
  ∧ (∀ (s : State) (ch : ChId) fc, s.blk.chanServes ch = true → s.blk.passed (s.blk.chan ch).tickIn (s.blk.chan ch).lastTick = true →
      (s.blk.chan ch).pulled = false → (s.blk.chan ch).owed < 8 → (s.blk.chan ch).refDue = false → (s.blk.chan ch).limitDue = false →
      (s.blk.panicAt ch = true ∨ (s.blk.chan ch).owed ≠ 0) →
      Does (.refreshTick ch fc) s [.chan ch, .count (dcOff Off.dcRefPostLo ch)] fun b =>
        (b.chan ch).owed = (s.blk.chan ch).owed + 1 ∧ (b.chan ch).banks = (s.blk.chan ch).banks)
  ∧ (∀ (s : State) (ch : ChId) fc, s.blk.chanServes ch = true → s.blk.passed (s.blk.chan ch).tickIn (s.blk.chan ch).lastTick = true →
      (s.blk.chan ch).pulled = false → 8 ≤ (s.blk.chan ch).owed →
      Does (.refreshTick ch fc) s [.berths, .chans, .chs, .cnt, .col ch, .events, .fws, .ins, .lanes, .mf, .pw, .qy, .regs, .sides, .stk, .tl] fun b => (b.chan ch).owed = (s.blk.chan ch).owed ∧ b.regBit Off.dcAlarm 0 = true)
  ∧ (∀ (s : State) (ch : ChId) fc, s.blk.chanServes ch = true → s.blk.passed (s.blk.chan ch).tickIn (s.blk.chan ch).lastTick = true → (s.blk.chan ch).pulled = true →
      (s.blk.chan ch).limitDue = false → (s.blk.chan ch).refDue = false →
      Does (.refreshTick ch fc) s [.chan ch] fun b =>
        (b.chan ch).pulled = false ∧ (b.chan ch).lastTick = (s.blk.chan ch).lastTick + BitVec.ofNat 64 (s.blk.chan ch).tickIn
          ∧ (b.chan ch).nRefab = (s.blk.chan ch).nRefab)
  ∧ (∀ (s : State) (ch : ChId) fc c, s.blk.chanServes ch = true → s.blk.pullOk ch = true → (s.blk.chan ch).refDue = false → (s.blk.chan ch).limitDue = false → (s.blk.chan ch).replayQ = [] →
      (s.blk.modChan ch fun x => { x with pullDue := true }).choose ch = some c → c.kind = .refab →
      Does (.refreshPullIn ch fc) s [.berths, .chans, .chs, .cnt, .col ch, .events, .fws, .ins, .lanes, .mf, .pw, .qy, .regs, .sides, .stk, .tl] fun b =>
        (b.chan ch).pulled = true ∧ (b.chan ch).refab = some s.blk.ck.tide ∧ (b.chan ch).openRows = 0)
  ∧ (∀ (s : State) (ch : ChId) fc, s.blk.chanServes ch = true → s.blk.pullOk ch = true → (s.blk.chan ch).refDue = false →
      (((s.blk.modChan ch fun x => { x with pullDue := true }).choose ch).all fun c => c.kind != .refab) = true →
      Does (.refreshPullIn ch fc) s [.chan ch] fun b => (b.chan ch).pullDue = true ∧ (b.chan ch).pulled = (s.blk.chan ch).pulled)
  ∧ (∀ (s : State) (ch : ChId), s.blk.chanServes ch = true → s.blk.panicAt ch = false → 0 < (s.blk.chan ch).owed → (s.blk.chan ch).repay = false →
      s.blk.olderThan usTicks (s.blk.chan ch).passAt = true →
      Does (.refpbPass ch false) s [.chan ch] fun b =>
        (b.chan ch).repay = true ∧ (b.chan ch).passBank = 0 ∧ (b.chan ch).owed = (s.blk.chan ch).owed)
  ∧ (∀ (s : State) (ch : ChId), s.blk.chanServes ch = true → s.blk.panicAt ch = false → s.blk.passComplete ch = true →
      Does (.refpbPass ch true) s [.chan ch] fun b => (b.chan ch).repay = false ∧ (b.chan ch).owed = (s.blk.chan ch).owed - 1)
  ∧ (∀ (s : State) (ch : ChId), (s.blk.chan ch).pwr = .awake → s.blk.coreRuns = true → ((s.blk.berth ch).st = .ready ∨ (s.blk.berth ch).st = .throttled) →
      s.blk.regBit (dcOff Off.dcChCtrl ch) 0 = true → s.blk.pinned ch = false → (s.blk.chan ch).owed = 0 → (s.blk.chan ch).refDue = false →
      (s.blk.chan ch).calDue = 0 → s.blk.partsAt ch = false → (s.blk.prot.scrub = none ∨ (s.blk.chan ch).scrubNext = none) →
      (s.blk.chan ch).replayQ = [] → (s.blk.chan ch).resume = false → s.blk.dumpLeft ch = [] → s.blk.sleepOk ch = true →
      min (max (s.blk.regField Off.dcCtrl 8 14) 1) 10000 * usTicks ≤ s.blk.since (s.blk.chan ch).lastBusy →
      Does (.srIdleTimer ch) s [.chan ch, .count (dcOff Off.dcSrEntryLo ch)] fun b =>
        (b.chan ch).pwr = .entering ∧ (b.chan ch).openRows = 0 ∧ (b.chan ch).forced = false
          ∧ ((b.chan ch).preab.any fun t => (b.chan ch).sre == some (t + 24)) = true)
  ∧ (∀ (s : State) (ch : ChId), (s.blk.chan ch).pwr ≠ .awake ∨ s.blk.pinned ch = true ∨ s.blk.partsAt ch = true → exec (.srIdleTimer ch) s = .next s)
  ∧ (∀ (s : State) (ch : ChId), (s.blk.chan ch).pwr = .entering → (s.blk.chan ch).sre.all (s.blk.passed 1) = true →
      (s.blk.wanted ch = false ∨ (s.blk.chan ch).forced = true) →
      Does (.srEntryDone ch) s [.chan ch] fun b => b.chan ch = { s.blk.chan ch with pwr := .selfRefresh })
  ∧ (∀ (s : State) (ch : ChId), (s.blk.chan ch).pwr = .entering → (s.blk.chan ch).sre.all (s.blk.passed 1) = true →
      (s.blk.chan ch).forced = false → s.blk.wanted ch = true →
      Does (.srEntryDone ch) s [.chan ch] fun b => (b.chan ch).pwr = .exiting ∧ (b.chan ch).srx.isSome = true)
  ∧ (∀ (s : State) (ch : ChId) (lost : BitVec 64) edge, (s.blk.chan ch).pwr = .exiting → s.blk.coreRuns = true →
      s.blk.passed 608 ((s.blk.chan ch).srx.getD s.blk.ck.tide) = true → lost.getLsbD ch = false →
      Does (.srExitDone ch lost edge) s [.berths, .chans, .chs, .cnt, .events, .fws, .ins, .lanes, .mf, .pw, .qy, .regs, .running, .sides, .slots, .stk, .tl] fun b =>
        (b.chan ch).pwr = .awake ∧ (b.chan ch).lastTick = (s.blk.chan ch).srx.getD s.blk.ck.tide + 608 ∧ b.stk = s.blk.stk)
  ∧ ∀ (s : State) (ch : ChId) (lost : BitVec 64) edge, (s.blk.chan ch).pwr = .exiting → s.blk.coreRuns = true →
      s.blk.passed 608 ((s.blk.chan ch).srx.getD s.blk.ck.tide) = true → lost.getLsbD ch = true →
      Does (.srExitDone ch lost edge) s [.berths, .chans, .chs, .cnt, .events, .fws, .ins, .lanes, .mf, .pw, .qy, .regs, .running, .sides, .slots, .stk, .tl] fun b => b.stk.fence.getLsbD ch = true

/-- CA_ALERT with a word that breaks its CRC counts one replay and asks for RESUME, and moves a PREab, SRE or SRX that did not reach the die; the eighth within 1 ms raises the alarm and asks for the coil test; with a good word nothing happens. RETURN_CLOCK_LOST fences one lost column, or, where a lost column set is exactly all of a relay's die and above, marks that relay and fences them, or all 64 where every column is lost, every channel being AWAKE; with no monitored column lost nothing changes. -/
def Obligations.ReplaysAndLostColumns : Prop :=
  (∀ (s : State) (ch : ChId) back coils, s.blk.chanServes ch = true → caGood ((s.blk.col ch).caWord coils) = false → ((s.blk.col ch).replays.filter fun t => s.blk.since t < msTicks).length < 7 →
      Does (.caAlert ch back coils) s [.chan ch, .col ch, .reg (tlOff Off.tlOvf ch), .tl] fun b =>
        (b.col ch).replay = inc32 (s.blk.col ch).replay ∧ (b.col ch).caTestDue = (s.blk.col ch).caTestDue ∧ (b.chan ch).resume = true)
  ∧ (∀ (s : State) (ch : ChId) back coils, s.blk.chanServes ch = true → caGood ((s.blk.col ch).caWord coils) = false → 7 ≤ ((s.blk.col ch).replays.filter fun t => s.blk.since t < msTicks).length →
      Does (.caAlert ch back coils) s [.chan ch, .col ch, .reg (tlOff Off.tlOvf ch), .reg Off.stAlarm, .tl] fun b =>
        (b.col ch).replay = inc32 (s.blk.col ch).replay ∧ (b.col ch).caTestDue = true ∧ (b.col ch).replays = [] ∧ b.regBit Off.stAlarm 4 = true
          ∧ (b.chan ch).resume = true)
  ∧ (∀ (s : State) (ch : ChId) back coils, s.blk.reaches ch = true → (s.blk.chan ch).pwr ≠ .awake → caGood ((s.blk.col ch).caWord coils) = false →
      s.blk.resleep (s.blk.chan ch) back ≠ s.blk.chan ch → ((s.blk.col ch).replays.filter fun t => s.blk.since t < msTicks).length < 7 →
      Does (.caAlert ch back coils) s [.chan ch, .col ch, .reg (tlOff Off.tlOvf ch), .tl] fun b =>
        (b.col ch).replay = inc32 (s.blk.col ch).replay ∧ b.chan ch = s.blk.resleep (s.blk.chan ch) back)
  ∧ (∀ (s : State) (ch : ChId) back coils, (s.blk.reaches ch = false ∨ caGood ((s.blk.col ch).caWord coils) = true) → exec (.caAlert ch back coils) s = .next s)
  ∧ (∀ (s : State) lost edge, (s.blk.carries = false ∨ ((List.range 64).any fun n => s.blk.monitored n && lost.getLsbD n) = false) →
      exec (.returnClockLost lost edge) s = .next s)
  ∧ (∀ (s : State) (n : ChId) edge, s.blk.carries = true → (∀ k : Fin 64, (s.blk.chan k).pwr = .awake) →
      Does (.returnClockLost (chBit n) edge) s [.berths, .chans, .chs, .cnt, .events, .fws, .ins, .lanes, .mf, .pw, .qy, .regs, .sides, .stk, .tl] fun b =>
        b.stk.fence = s.blk.stk.fence ||| chBit n ∧ b.regBit Off.stAlarm 1 = true ∧ b.stk.relay = s.blk.stk.relay
          ∧ ((b.berth n).st = .fenced ∨ (b.berth n).st = .absent) ∧ (∀ k : Fin 64, k ≠ n → (s.blk.berth k).st = .ready → (b.berth k).st = .ready))
  ∧ (∀ (s : State) (j : Fin 16) (lost : BitVec 64) edge, s.blk.carries = true → (∀ k : Fin 64, (s.blk.chan k).pwr = .awake) → 1 ≤ j.val →
      (∀ k : Fin 64, lost.getLsbD k = decide (4 * j.val ≤ k.val)) →
      Does (.returnClockLost lost edge) s [.berths, .chans, .chs, .cnt, .events, .fws, .ins, .lanes, .mf, .pw, .qy, .regs, .sides, .stk, .tl] fun b =>
        b.stk.relay = s.blk.stk.relay ||| BitVec.ofNat 15 (2 ^ (j.val - 1)) ∧ b.stk.fence = s.blk.stk.fence ||| lost ∧ b.regBit Off.stAlarm 0 = true)
  ∧ ∀ (s : State) edge, s.blk.carries = true → (∀ k : Fin 64, (s.blk.chan k).pwr = .awake) →
      Does (.returnClockLost (BitVec.allOnes 64) edge) s [.berths, .chans, .chs, .cnt, .events, .fws, .ins, .lanes, .mf, .pw, .qy, .regs, .sides, .stk, .tl] fun b =>
        b.stk.fence = BitVec.allOnes 64 ∧ b.regBit Off.stAlarm 2 = true ∧ b.stk.relay = s.blk.stk.relay

/-- SCRUB_RANGE starts a pass over legal bounds, refuses bad ones BAD_PARAM, a second one BUSY_RETRY; SCRUB_DONE ends it with its summary. STACK_DIE_RESET of an idle die fences it and holds it; DRST_RELEASE, DIE_RESET_CAL_DONE complete it. STACK_RESET with every berth ABSENT, SRST_RELEASE and STACK_COLUMN_TEST_DONE do so for the stack, with the result of each column; with a berth in use it is REFUSED. MEM_RST_RELEASE puts the quay back in service with DMAN high. -/
def Obligations.ScrubAndStackResets : Prop :=
  (∀ (s : State) m (start len : BitVec 64) (flags : BitVec 32), s.blk.mans Mop.scrubRange → s.blk.inService = true →
      start.toNat % 64 = 0 → len ≠ 0 → len.toNat % 64 = 0 → start.toNat + len.toNat ≤ pierBytes → flags.toNat < 4 →
      s.blk.prot.scrub = none → s.blk.stk.rst = .none →
      Does (.scrubRange m start len flags) s [.prot, .chans] fun b =>
        b.prot.scrub = some { m := m, first := start.toNat / 64, last := (start.toNat + len.toNat) / 64 - 1, writeback := flags.getLsbD 0, poisonUe := flags.getLsbD 1 })
  ∧ (∀ (s : State) m (start len : BitVec 64) (flags : BitVec 32), s.blk.mans Mop.scrubRange →
      (start.toNat % 64 ≠ 0 ∨ len = 0 ∨ len.toNat % 64 ≠ 0 ∨ pierBytes < start.toNat + len.toNat ∨ 4 ≤ flags.toNat) →
      Does (.scrubRange m start len flags) s [.slots, .running, .ins] fun b => b.doneWith m 0x0020 0x04 [])
  ∧ (∀ (s : State) m (start len : BitVec 64) (flags : BitVec 32), s.blk.mans Mop.scrubRange → s.blk.inService = true →
      start.toNat % 64 = 0 → len ≠ 0 → len.toNat % 64 = 0 → start.toNat + len.toNat ≤ pierBytes → flags.toNat < 4 →
      (s.blk.prot.scrub.isSome = true ∨ s.blk.stk.rst ≠ .none) →
      Does (.scrubRange m start len flags) s [.slots, .running, .ins] fun b => b.doneWith m 0x0020 0x07 [])
  ∧ (∀ (s : State) sc dmg, s.blk.prot.scrub = some sc → s.blk.coreRuns = true → (∀ n : Fin 64, (s.blk.chan n).scrubNext = none) →
      Does (.scrubDone dmg) s [.prot, .chans, .slots, .running, .ins] fun b => b.prot.scrub = none ∧ b.doneWith sc.m 0x0020 0x00 sc.result)
  ∧ (∀ (s : State) sc dmg, s.blk.prot.scrub = some sc → s.blk.coreRuns = true → (∀ n : Fin 64, s.blk.scrubFits n = true) →
      DoesOn (.scrubDone dmg) s [.berths, .chans, .cnt, .cols, .ins, .prot, .regs, .running, .slots, .tl]
        (fun a => ∃ n : Fin 64, ∃ g, (s.blk.chan n).scrubNext = some g ∧ g ≤ a / symsPerGranule ∧ a / symsPerGranule ≤ sc.last) fun t =>
        t.blk.prot.scrub = none ∧ (t.blk.slot (slotKey sc.m.ring sc.m.seq)).st = .done ∧ (t.blk.slot (slotKey sc.m.ring sc.m.seq)).status = 0)
  ∧ (∀ (s : State) m (die : BitVec 8), s.blk.mans Mop.stackDieReset → 16 ≤ die.toNat →
      Does (.stackDieReset m die) s [.slots, .running, .ins] fun b => b.doneWith m 0x0090 0x04 [])
  ∧ (∀ (s : State) m (k : Fin 16), s.blk.mans Mop.stackDieReset → s.blk.inService = true → s.blk.stk.rst = .none →
      (s.blk.qy.reqs.all fun r => r.parts.all fun p => dieOf p.berth != k.val) = true →
      Does (.stackDieReset m (BitVec.ofNat 8 k.val)) s [.berths, .chans, .chs, .cnt, .events, .fws, .ins, .lanes, .mf, .pw, .qy, .regs, .running, .sides, .slots, .stk, .tl] fun b =>
        b.stk.rst = .dieHeld k m ∧ b.stk.fence = s.blk.stk.fence ||| BitVec.ofNat 64 (15 * 2 ^ (4 * k.val))
          ∧ ∀ i : Fin 4, (b.berth (4 * k.val + i.val)).st = .absent ∧ (b.berth (4 * k.val + i.val)).fillDone = false)
  ∧ (∀ (s : State) k m, s.blk.stk.rst = .dieHeld k m → s.blk.stk.dman = false → usTicks ≤ s.blk.since s.blk.stk.rstAt →
      Does .drstRelease s [.stk] fun b => b.stk.rst = .dieCal k m)
  ∧ (∀ (s : State) k m, s.blk.stk.rst = .dieHeld k m → (s.blk.stk.dman = true ∨ s.blk.since s.blk.stk.rstAt < usTicks) → exec .drstRelease s = .next s)
  ∧ (∀ (s : State) k m pass flight, s.blk.stk.rst = .dieCal k m → s.blk.stk.dman = false → s.blk.coreRuns = true →
      (∀ i : Fin 4, (s.blk.measured (flight.filter fun e => dieOf e.1 == k.val)).flightOk (4 * k.val + i.val) = true) →
      Does (.dieResetCalDone pass flight) s [.berths, .chans, .cols, .ins, .running, .slots, .stk] fun b => b.stk.rst = .none ∧ b.doneWith m 0x0090 0x00 [pass.zeroExtend 8])
  ∧ (∀ (s : State) m, s.blk.mans Mop.stackReset → s.blk.inService = true → s.blk.stk.rst = .none → s.blk.prot.scrub = none →
      (∀ n : Fin 64, (s.blk.berth n).st = .absent) →
      Does (.stackReset m) s [.stk, .berths] fun b => b.stk.rst = .stackHeld m ∧ b.stk.relay = 0 ∧ b.stk.fence = 0 ∧ ∀ n : Fin 64, (b.berth n).fillDone = false)
  ∧ (∀ (s : State) m (n : Fin 64), s.blk.mans Mop.stackReset → s.blk.inService = true → s.blk.stk.rst = .none →
      (s.blk.berth n).st ≠ .absent → Does (.stackReset m) s [.slots, .running, .ins] fun b => b.doneWith m 0x0091 0x02 [])
  ∧ (∀ (s : State) m, s.blk.stk.rst = .stackHeld m → usTicks ≤ s.blk.since s.blk.stk.rstAt → Does .srstRelease s [.stk] fun b => b.stk.rst = .stackTest m)
  ∧ (∀ (s : State) m pass flight, s.blk.stk.rst = .stackTest m → (∀ n : Fin 64, (s.blk.measured flight).flightOk n = true) →
      Does (.stackColumnTestDone pass flight) s [.berths, .chans, .cols, .ins, .running, .slots, .stk] fun b =>
        b.stk.rst = .none ∧ b.doneWith m 0x0091 0x00 (leBytes pass.toNat 8) ∧ ∀ n : Fin 64, (b.col n).calPass = pass.getLsbD n)
  ∧ ∀ (s : State) pass lost flight, s.blk.qy.resetting = true → s.blk.coreRuns = true →
      Does (.memRstRelease pass lost flight) s [.berths, .chans, .chs, .cnt, .cols, .events, .fws, .ins, .lanes, .mf, .pw, .qy, .regs, .running, .sides, .slots, .stk, .tl] fun b => b.stk.dman = false ∧ b.qy.resetting = false

/-! ### Heat, charters, calibration and power -/

/-- WATCH_ROUND, in a millisecond of the tide that has had none yet, where rounds run and the pier has not tripped: the round count rises, each of the 96 converter channels holds its conversion (2 °C more on a sensor without the crystal) or keeps its value, no layer's step is below what its temperature used has reached, PLL_ROOT's correction moves by 0.25 ppm at most and stays within 50 ppm, the pier trips exactly if some layer's temperature used is at its trip level, then with every domain OFF or FAILED and THERM_TRIP_N low; else every channel has the step of R395 or waits for its pass. Where rounds do not run, and a second time within one millisecond, nothing. -/
def Obligations.WatchRounds : Prop :=
  (∀ (s : State) r, (s.blk.roundRuns = false ∨ s.blk.crossed msTicks s.blk.heat.roundAt = false) → exec (.watchRound r) s = .next s)
  ∧ ∀ (s : State) r, s.blk.roundRuns = true → s.blk.crossed msTicks s.blk.heat.roundAt = true → s.blk.pw.st ≠ .tripped →
      Does (.watchRound r) s [.berths, .chans, .chs, .ck, .cnt, .cols, .doms, .events, .fresh, .fws, .heat, .ins, .lanes, .lg, .mf, .pins, .prot, .pw, .qy, .regs, .running, .sides, .slots, .stk, .sv, .tl] fun b =>
        b.heat.round = s.blk.heat.round + 1
          ∧ (∀ i : Fin 96, b.htCh i = match r.ch.getD i none with
              | some v => (v + (if i.val < 56 ∧ s.blk.ck.xtalOk = false then 32 else 0), true)
              | none => ((s.blk.htCh i).1, false))
          ∧ (∀ l : Fin 17, (reached l (b.layer l).used).val ≤ (b.layer l).step.val)
          ∧ (s.blk.regBit Off.ckCtrl 1 = true → b.ck.corr ≤ s.blk.ck.corr + 16 ∧ s.blk.ck.corr ≤ b.ck.corr + 16)
          ∧ (s.blk.regBit Off.ckCtrl 1 = true → -3200 ≤ s.blk.ck.corr → s.blk.ck.corr ≤ 3200 → -3200 ≤ b.ck.corr ∧ b.ck.corr ≤ 3200)
          ∧ (b.pw.st = .tripped ↔ ∃ l : Fin 17, threshold l 8 ≤ (b.layer l).used)
          ∧ (b.pw.st = .tripped → b.pins.thermTripLow = true ∧ ∀ d : Fin 48, (b.dom d).st = .off ∨ (b.dom d).st = .failed)
          ∧ (b.pw.st ≠ .tripped → ∀ n : Fin 64, (b.chan n).step = b.stepOf n ∨ (b.chan n).stepDue = some (b.stepOf n))

/-- ANALOGUE_TRIP of an included sensor trips the pier: TRIPPED, THERM_TRIP_N low, every domain OFF or FAILED, every fill mark cleared, in any state but DARK and TRIPPED, where it does nothing; in FROZEN the domains lose power and the state stays. TRIP_RECORD_DONE writes the record into the next trip slot. SENSOR_REPLACE excludes a sensor with a floor of 4 to 7, or takes it back healthy, and answers BAD_PARAM to anything else. -/
def Obligations.TripsAndSensors : Prop :=
  (∀ (s : State) (n : Fin 56), (s.blk.sensor n).st ≠ .excluded → s.blk.pw.st ≠ .dark → s.blk.pw.st ≠ .tripped → s.blk.pw.st ≠ .frozen →
      Does (.analogueTrip n) s [.berths, .chans, .chs, .ck, .cnt, .doms, .events, .fws, .heat, .ins, .lanes, .lg, .pins, .prot, .pw, .qy, .regs, .running, .sides, .slots, .stk, .sv, .tl] fun b =>
        b.pw.st = .tripped ∧ b.pins.thermTripLow = true ∧ b.pw.afterTrip = true ∧ (b.heat.tripRec.map fun r => (r.analogue, r.sensor, r.layer)) = some (true, BitVec.ofNat 8 n, sensorLayer n)
          ∧ (∀ d : Fin 48, (b.dom d).st = .off ∨ (b.dom d).st = .failed) ∧ ∀ k : Fin 64, (b.berth k).fillDone = false ∧ (b.berth k).st = .absent)
  ∧ (∀ (s : State) (n : Fin 56), (s.blk.sensor n).st ≠ .excluded → s.blk.pw.st = .frozen →
      Does (.analogueTrip n) s [.doms, .berths, .heat, .pins] fun b =>
        b.pins.thermTripLow = true ∧ b.heat.frozenTrip = true ∧ ∀ d : Fin 48, (b.dom d).st = .off ∨ (b.dom d).st = .failed)
  ∧ (∀ (s : State) (n : Fin 56), (s.blk.sensor n).st = .excluded ∨ s.blk.pw.st = .dark ∨ s.blk.pw.st = .tripped → exec (.analogueTrip n) s = .next s)
  ∧ (∀ (s : State) r, s.blk.heat.tripRec = some r → s.blk.heat.tripMark = false → s.blk.sv.logDisabled = false →
      Does (.tripRecordDone true) s [.events, .heat, .lg, .pins, .reg Off.lgAlarm] fun b =>
        b.lg.tripNext = s.blk.lg.tripNext + 1 ∧ tget (fun _ => none) b.lg.trips (s.blk.lg.tripNext.toNat % 512) = some { r with full := true }
          ∧ b.heat.tripRec = none)
  ∧ (∀ (s : State) r, s.blk.heat.tripRec = some r → s.blk.heat.tripMark = false → s.blk.sv.logDisabled = false →
      Does (.tripRecordDone false) s [.events, .heat, .lg, .pins, .reg Off.lgAlarm] fun b =>
        b.lg.tripNext = s.blk.lg.tripNext + 1 ∧ tget (fun _ => none) b.lg.trips (s.blk.lg.tripNext.toNat % 512) = some r ∧ b.heat.tripRec = some r)
  ∧ (∀ (s : State) m (n : Fin 56) (fl : BitVec 8), s.blk.mans Mop.sensorReplace → 4 ≤ fl.toNat → fl.toNat ≤ 7 →
      Does (.sensorReplace m (BitVec.ofNat 8 n) 0 fl) s [.heat, .ins, .running, .slots] fun b =>
        b.doneWith m 0x0061 0x00 [] ∧ (b.sensor n).st = .excluded ∧ (b.sensor n).floor.toNat = fl.toNat
          ∧ fl.toNat ≤ (b.layer (sensorLayer n)).step.val)
  ∧ (∀ (s : State) m (n : Fin 56) (fl : BitVec 8), s.blk.mans Mop.sensorReplace →
      Does (.sensorReplace m (BitVec.ofNat 8 n) 1 fl) s [.heat, .ins, .running, .slots] fun b => b.doneWith m 0x0061 0x00 [] ∧ (b.sensor n).st = .healthy)
  ∧ (∀ (s : State) m (n a fl : BitVec 8), s.blk.mans Mop.sensorReplace → (56 ≤ n.toNat ∨ 1 < a.toNat ∨ (a = 0 ∧ (fl.toNat < 4 ∨ 7 < fl.toNat))) →
      Does (.sensorReplace m n a fl) s [.slots, .running, .ins] fun b => b.doneWith m 0x0061 0x04 [])
  ∧ ∀ (s : State) m, s.blk.mans Mop.thermStatus →
      Does (.thermStatus m) s [.slots, .running, .ins] fun b => b.doneWith m 0x0060 0x00 s.blk.thermStatus

/-- CHARTER_OPEN of a legal descriptor in OPEN that overlaps none, with none suspended, an index free and `check` passed, opens a charter under a free index: ACTIVE at once, or, with NO_SLEEP and a channel that is not AWAKE, waiting for its channels. A shortfall, an overlap, a suspended charter or a state other than OPEN gives ADMIT_REFUSED with its reason and opens nothing. An illegal descriptor is BAD_PARAM; a good one while a pass is due or a charter waits, BUSY_RETRY. CHARTER_CLOSE of an ACTIVE charter makes it CLOSING, of a SUSPENDED one frees it, of a CLOSING one is REFUSED, of no charter BAD_PARAM, and of any while a pass is due or a charter waits BUSY_RETRY; CHARTER_CLOSE_DONE frees a CLOSING one without requests; CHARTER_QUERY answers the record. -/
def Obligations.ChartersOpenAndClose : Prop :=
  (∀ (s : State) m d, s.blk.mans Mop.charterOpen → s.blk.chs.passDue = false → s.blk.chs.waking = [] → CharterDesc'.legal d = true → s.blk.pw.st = .openS →
      s.blk.overlapped d = [] → s.blk.suspendeds = [] → (s.blk.chartersIn fun _ => true).length < 4096 →
      s.blk.check true (s.blk.actives.map (·.2) ++ [d]) = none → s.blk.freeIndices ≠ [] →
      (CharterDesc'.noSleep d = false ∨ s.blk.allAwake d = true) →
      Does (.charterOpen m d) s [.chans, .chs, .events, .fresh, .ins, .reg Off.lgAlarm, .running, .slots] fun b =>
        (b.charter (s.blk.pickOf s.blk.freeIndices)).st = .active ∧ (b.charter (s.blk.pickOf s.blk.freeIndices)).desc = some d
          ∧ b.doneWith m 0x0010 0x00 (openResult (s.blk.pickOf s.blk.freeIndices) d) ∧ s.blk.pickOf s.blk.freeIndices ∈ s.blk.freeIndices)
  ∧ (∀ (s : State) m d, s.blk.mans Mop.charterOpen → s.blk.chs.passDue = false → s.blk.chs.waking = [] → CharterDesc'.legal d = true → s.blk.pw.st = .openS →
      s.blk.overlapped d = [] → s.blk.suspendeds = [] → (s.blk.chartersIn fun _ => true).length < 4096 →
      s.blk.check true (s.blk.actives.map (·.2) ++ [d]) = none → s.blk.freeIndices ≠ [] → CharterDesc'.noSleep d = true → s.blk.allAwake d = false →
      Does (.charterOpen m d) s [.chans, .chs, .events, .fresh, .ins, .reg Off.lgAlarm, .running, .slots] fun b =>
        b.chs.waking = [(s.blk.pickOf s.blk.freeIndices, some m)] ∧ (b.charter (s.blk.pickOf s.blk.freeIndices)).desc = some d
          ∧ (b.charter (s.blk.pickOf s.blk.freeIndices)).st = .free)
  ∧ (∀ (s : State) m d x, s.blk.mans Mop.charterOpen → s.blk.chs.passDue = false → s.blk.chs.waking = [] → CharterDesc'.legal d = true → s.blk.pw.st = .openS →
      s.blk.overlapped d = [] → s.blk.suspendeds = [] → (s.blk.chartersIn fun _ => true).length < 4096 →
      s.blk.check true (s.blk.actives.map (·.2) ++ [d]) = some x →
      Does (.charterOpen m d) s [.chs, .slots, .running, .ins] fun b =>
        b.doneWith m 0x0010 0x0B [] ∧ (b.slot (slotKey m.ring m.seq)).reason = BitVec.ofNat 8 x.reason ∧ b.chs.tab = s.blk.chs.tab)
  ∧ (∀ (s : State) m d, s.blk.mans Mop.charterOpen → s.blk.chs.passDue = false → s.blk.chs.waking = [] → CharterDesc'.legal d = true →
      (s.blk.pw.st ≠ .openS ∨ s.blk.overlapped d ≠ [] ∨ s.blk.suspendeds ≠ []) →
      Does (.charterOpen m d) s [.slots, .running, .ins, .fresh] fun b =>
        b.doneWith m 0x0010 0x0B [] ∧ (b.slot (slotKey m.ring m.seq)).reason =
          (if s.blk.pw.st ≠ .openS then 0x01 else if s.blk.overlapped d ≠ [] then 0x03 else 0x0D))
  ∧ (∀ (s : State) m d, s.blk.mans Mop.charterOpen → CharterDesc'.legal d = false →
      Does (.charterOpen m d) s [.slots, .running, .ins] fun b => b.doneWith m 0x0010 0x04 [])
  ∧ (∀ (s : State) m d, s.blk.mans Mop.charterOpen → CharterDesc'.legal d = true → (s.blk.chs.passDue = true ∨ s.blk.chs.waking ≠ []) →
      Does (.charterOpen m d) s [.slots, .running, .ins] fun b => b.doneWith m 0x0010 0x07 [])
  ∧ (∀ (s : State) m (c : BitVec 16), s.blk.mans Mop.charterClose → s.blk.passBusy = false → c.toNat < 4096 → (s.blk.charter c.toNat).st = .active →
      Does (.charterClose m c) s [.chs] fun b => b.charter c.toNat = { s.blk.charter c.toNat with st := .closing, waiter := some m })
  ∧ (∀ (s : State) m (c : BitVec 16), s.blk.mans Mop.charterClose → s.blk.passBusy = false → c.toNat < 4096 → (s.blk.charter c.toNat).st = .suspended →
      Does (.charterClose m c) s [.chs, .ins, .running, .slots] fun b => b.charter c.toNat = (s.blk.charter c.toNat).freed ∧ b.doneWith m 0x0011 0x00 [])
  ∧ (∀ (s : State) m (c : BitVec 16), s.blk.mans Mop.charterClose → (4096 ≤ c.toNat ∨ ((s.blk.charter c.toNat).st = .free ∧ s.blk.passBusy = false)) →
      Does (.charterClose m c) s [.slots, .running, .ins] fun b => b.doneWith m 0x0011 0x04 [])
  ∧ (∀ (s : State) m (c : BitVec 16), s.blk.mans Mop.charterClose → s.blk.passBusy = false → c.toNat < 4096 → (s.blk.charter c.toNat).st = .closing →
      Does (.charterClose m c) s [.slots, .running, .ins] fun b => b.doneWith m 0x0011 0x02 [])
  ∧ (∀ (s : State) (c : BitVec 12) m, s.blk.live = true → (s.blk.charter c.toNat).st = .closing → s.blk.charterBusy c.toNat = false →
      (s.blk.charter c.toNat).waiter = some m →
      Does (.charterCloseDone c) s [.chs, .ins, .running, .slots] fun b => b.charter c.toNat = (s.blk.charter c.toNat).freed ∧ b.doneWith m 0x0011 0x00 [])
  ∧ (∀ (s : State) (c : BitVec 12), (s.blk.charter c.toNat).st ≠ .closing ∨ s.blk.charterBusy c.toNat = true → exec (.charterCloseDone c) s = .next s)
  ∧ (∀ (s : State) m (c : BitVec 16), s.blk.mans Mop.charterQuery → c.toNat < 4096 →
      Does (.charterQuery m c) s [.slots, .running, .ins] fun b => b.doneWith m 0x0012 0x00 (queryResult (s.blk.charter c.toNat)))
  ∧ (∀ (s : State) m (c : BitVec 16), s.blk.mans Mop.charterClose → c.toNat < 4096 → s.blk.passBusy = true →
      Does (.charterClose m c) s [.slots, .running, .ins] fun b => b.doneWith m 0x0011 0x07 [])
  ∧ ∀ (s : State) m (c : BitVec 16), s.blk.mans Mop.charterQuery → 4096 ≤ c.toNat →
      Does (.charterQuery m c) s [.slots, .running, .ins] fun b => b.doneWith m 0x0012 0x04 []

/-- SHORTFALL_PASS_DONE ends a pass that is due: no charter becomes ACTIVE, none changes where `check` passes, and every channel's waiting step takes effect; with none due it does nothing. RESTORE_PASS, in OPEN with no pass due and the hold past, leaves every ACTIVE charter ACTIVE; outside OPEN, while a pass is due and before the hold is past it does nothing. -/
def Obligations.CharterPasses : Prop :=
  (∀ (s : State), s.blk.live = true → s.blk.chs.passDue = true →
      Does .shortfallPassDone s [.berths, .chans, .chs, .events, .reg Off.chAlarm, .reg Off.htAlarm, .reg Off.lgAlarm] fun b =>
        b.chs.passDue = false ∧ (∀ n : Fin 64, (b.chan n).stepDue = none ∧ (b.chan n).step = ((s.blk.chan n).stepDue).getD (s.blk.chan n).step)
          ∧ ∀ c : Fin 4096, (b.charter c).st = .active → (s.blk.charter c).st = .active)
  ∧ (∀ (s : State), s.blk.live = true → s.blk.chs.passDue = true → s.blk.check false (s.blk.actives.map (·.2)) = none →
      Does .shortfallPassDone s [.berths, .chans, .chs, .events, .reg Off.chAlarm, .reg Off.htAlarm, .reg Off.lgAlarm] fun b => b.chs.tab = s.blk.chs.tab)
  ∧ (∀ (s : State), s.blk.chs.passDue = false → exec .shortfallPassDone s = .next s)
  ∧ (∀ (s : State), s.blk.live = true → s.blk.pw.st = .openS → s.blk.chs.passDue = false → s.blk.restoreHeld = true →
      Does .restorePass s [.chans, .chs, .events, .ins, .reg Off.lgAlarm, .running, .slots] fun b =>
        b.chs.passDue = false ∧ ∀ c : Fin 4096, (s.blk.charter c).st = .active → (b.charter c).st = .active)
  ∧ ∀ (s : State), s.blk.pw.st ≠ .openS ∨ s.blk.chs.passDue = true ∨ s.blk.restoreHeld = false → exec .restorePass s = .next s

/-- CAL_RUN of channels that can be calibrated marks them due, with no unit it completes at once, and one that names a unit out of range is BAD_PARAM. CALIBRATION_DONE of a run that may end records a lane's count and time, or a channel's pass, its round trip and temperatures with coil timing, and with the last unit completes the CAL_RUN with the masks; a third failure of coil timing alarms and fences, and a round trip beyond the limit fails; of a run that may not end yet it does nothing. CAL_RETRY of a failed run of a channel records its pass, of a lane it does nothing. CAL_STATUS answers the unit's record. SURVEY_RUN_DONE of a lane that passes unmarks it and powers its FAILED quad where CK is ON. SURVEY_RUN starts on dies' channels out of service, is REFUSED for one in service, and SURVEY_RUN_DONE completes it, REFUSED where the survey engine fails. -/
def Obligations.CalibrationAndSurveyRuns : Prop :=
  (∀ (s : State) m (cls : BitVec 8) (mask : BitVec 64), s.blk.mans Mop.calRun → cls = 1 ∨ cls = 2 → s.blk.sv.run = none → mask ≠ 0 →
      (maskUnits mask).all (s.blk.calUnit cls.toNat) = true →
      Does (.calRun m cls mask) s [.sv, .chans] fun b =>
        b.sv.cal = s.blk.sv.cal ++ [{ m := m, cls := cls.toNat, todo := mask, passed := 0, failed := 0 }]
          ∧ ∀ n : Fin 64, mask.getLsbD n = true → (b.chan n).calDue = (s.blk.chan n).calDue ||| BitVec.ofNat 2 cls.toNat)
  ∧ (∀ (s : State) m (cls : BitVec 8) (mask : BitVec 64), s.blk.mans Mop.calRun → (2 < cls.toNat ∨ (cls = 0 ∧ (maskUnits mask).any (fun i => decide (32 ≤ i)) = true)) →
      Does (.calRun m cls mask) s [.slots, .running, .ins] fun b => b.doneWith m 0x0031 0x04 [])
  ∧ (∀ (s : State) m (cls : BitVec 8), s.blk.mans Mop.calRun → cls.toNat ≤ 2 → s.blk.sv.run = none →
      Does (.calRun m cls 0) s [.slots, .running, .ins] fun b => b.doneWith m 0x0031 0x00 (leBytes 0 16))
  ∧ (∀ (s : State) (u : Fin 64) fl, s.blk.live = true → s.blk.coreRuns = true → s.blk.calMay 0 u = true →
      Does (.calibrationDone 0 u true fl) s [.berths, .chans, .chs, .cnt, .col u, .events, .fws, .ins, .lanes, .mf, .pw, .qy, .regs, .running, .sides, .slots, .stk, .sv, .tl] fun b =>
        (b.lane u).calCount = (s.blk.lane u).calCount + 1 ∧ (b.lane u).calTime = s.blk.ck.tide)
  ∧ (∀ (s : State) (u : Fin 64) fl, s.blk.live = true → s.blk.coreRuns = true → s.blk.calMay 1 u = true → fl ≤ flightLimit u → (s.blk.chan u).returning = false →
      Does (.calibrationDone 1 u true fl) s [.berths, .chans, .chs, .cnt, .col u, .events, .fws, .ins, .lanes, .mf, .pw, .qy, .regs, .running, .sides, .slots, .stk, .sv, .tl] fun b =>
        (b.col u).flight = fl % 1024 ∧ (b.chan u).coilPass = true ∧ (b.chan u).coilTemps = s.blk.coilTempsNow u)
  ∧ (∀ (s : State) (cls : Fin 3) (u : Fin 64) p fl, (s.blk.live = false ∨ s.blk.coreRuns = false ∨ s.blk.calMay cls.val u = false) →
      exec (.calibrationDone cls u p fl) s = .next s)
  ∧ (∀ (s : State) (u : Fin 64) fl r, s.blk.live = true → s.blk.coreRuns = true → s.blk.calMay 2 u = true → (s.blk.chan u).returning = false → s.blk.sv.cal = [r] → r.cls = 2 → r.todo = chBit u →
      Does (.calibrationDone 2 u true fl) s [.berths, .chans, .chs, .cnt, .col u, .events, .fws, .ins, .lanes, .mf, .pw, .qy, .regs, .running, .sides, .slots, .stk, .sv, .tl] fun b =>
        (b.chan u).dramPass = true ∧ b.sv.cal = [] ∧ b.doneWith r.m 0x0031 0x00 (leBytes (r.passed ||| chBit u).toNat 8 ++ leBytes r.failed.toNat 8))
  ∧ (∀ (s : State) (u : Fin 64) p fl, s.blk.live = true → s.blk.coreRuns = true → s.blk.calMay 1 u = true → (p = false ∨ flightLimit u < fl) →
      2 ≤ tget (fun _ => 0) (s.blk.chan u).calFails 1 →
      Does (.calibrationDone 1 u p fl) s [.berths, .chans, .chs, .cnt, .col u, .events, .fws, .ins, .lanes, .mf, .pw, .qy, .regs, .running, .sides, .slots, .stk, .sv, .tl] fun b => b.regBit Off.caAlarm 3 = true ∧ b.stk.fence.getLsbD u = true)
  ∧ (∀ (s : State) (u : Fin 64) p fl, exec (.calRetry 0 u p fl) s = .next s)
  ∧ (∀ (s : State) (u : Fin 64) fl, s.blk.live = true → s.blk.coreRuns = true → s.blk.calMay 2 u = true → (s.blk.chan u).returning = false → tget (fun _ => 0) (s.blk.chan u).calFails 2 ≠ 0 →
      Does (.calRetry 2 u true fl) s [.berths, .chans, .chs, .cnt, .col u, .events, .fws, .ins, .lanes, .mf, .pw, .qy, .regs, .running, .sides, .slots, .stk, .sv, .tl] fun b => tget (fun _ => 0) (b.chan u).calFails 2 = 0 ∧ (b.chan u).dramPass = true)
  ∧ (∀ (s : State) m (l : Fin 32), s.blk.mans Mop.calStatus →
      Does (.calStatus m 0 (BitVec.ofNat 8 l)) s [.slots, .running, .ins] fun b =>
        b.doneWith m 0x0032 0x00 (leBytes (s.blk.lane l).calCount.toNat 4 ++ leBytes 0 4 ++ leBytes (s.blk.lane l).calTime.toNat 8))
  ∧ (∀ (s : State) m (n : Fin 64), s.blk.mans Mop.calStatus →
      Does (.calStatus m 2 (BitVec.ofNat 8 n)) s [.slots, .running, .ins] fun b => b.doneWith m 0x0032 0x00 [if (s.blk.chan n).dramPass then 1 else 0])
  ∧ (∀ (s : State) m (mask : BitVec 64), s.blk.mans Mop.surveyRun → s.blk.sv.run = none → s.blk.domOn svDom = true → s.blk.sv.svOk = true →
      (maskUnits mask).all (s.blk.surveyable 1) = true →
      Does (.surveyRun m 1 0 mask) s [.sv] fun b => b.sv.run = some { m := m, scope := 1, mask := mask } ∧ b.sv.busy = true ∧ b.sv.kind = 3)
  ∧ (∀ (s : State) m (n : Fin 64), s.blk.mans Mop.surveyRun → s.blk.sv.run = none → s.blk.surveyable 1 n = false →
      Does (.surveyRun m 1 0 (chBit n)) s [.slots, .running, .ins] fun b => b.doneWith m 0x0030 0x02 [])
  ∧ (∀ (s : State) m (l : Fin 32), s.blk.mans Mop.calRun → s.blk.sv.run = none → s.blk.laneBusy (laneSide l) (some m) = false → s.blk.calUnit 0 l = true →
      Does (.calRun m 0 (chBit l)) s [.chans, .ins, .lanes, .running, .sides, .slots, .sv] fun b =>
        b.sv.cal = s.blk.sv.cal ++ [{ m := m, cls := 0, todo := chBit l, passed := 0, failed := 0 }] ∧ (b.lane l).calPending = true)
  ∧ (∀ (s : State) f, s.blk.sv.run = none ∨ s.blk.hmRuns = false ∨ s.blk.coreRuns = false → exec (.surveyRunDone f) s = .next s)
  ∧ ∀ (s : State) r f, s.blk.sv.run = some r → s.blk.hmRuns = true → s.blk.coreRuns = true →
      Does (.surveyRunDone f) s [.berths, .chans, .chs, .cnt, .cols, .doms, .events, .fws, .ins, .lanes, .mf, .pw, .qy, .regs, .running, .sides, .slots, .stk, .sv, .tl] fun b =>
        b.sv.run = none ∧ b.sv.busy = false ∧ (b.slot (slotKey r.m.ring r.m.seq)).st = .done
          ∧ (b.slot (slotKey r.m.ring r.m.seq)).status = (if f.svOk then 0 else 2)
          ∧ ∀ l : Fin 32, f.svOk = true → r.scope = 0 → r.mask = chBit l → f.laneFail.getLsbD l = false → f.domFail.getLsbD (quadDom l) = false →
              (b.lane l).unusable = false ∧ (s.blk.domOn (ckDom (laneSide l)) = true →
                (s.blk.dom (quadDom l)).st = .failed → (b.dom (quadDom l)).st = .powering)

/-- CLOCK_SWITCH moves one domain to a source that runs and answers the tide; to a source that does not run it is REFUSED, to one that does not exist BAD_PARAM; with HK's PLL_ROOT clock dead it completes ABORTED, HK on the crystal by the asynchronous path. RECOVER with nothing wrong answers 0, without the crystal waits for it, and re-arms PLL_W that is down with action 1; another action is BAD_PARAM. CRYSTAL_RESTART_DONE restores the crystal after 1,024 good cycles, or, 5 ms after the request without them, answers 1 where AON runs on RC and PLL_ROOT has no lock; earlier it does nothing. POWER_DOMAIN of a domain that breakwater holds is REFUSED, of one already as asked completes at once, one in transition is BUSY_RETRY, one that is OFF starts to power. SHUTDOWN starts the departure. -/
def Obligations.ClocksDomainsAndShutdown : Prop :=
  (∀ (s : State) m, s.blk.mans Mop.clockSwitch → s.blk.ck.xtalOk = true → s.blk.ck.root.lock = true →
      Does (.clockSwitch m 48 1 false) s [.ck, .slots, .running, .ins] fun b =>
        b.ck.aonSrc = .crystal ∧ b.ck.hkSrc = s.blk.ck.hkSrc ∧ b.ck.tlSrc = s.blk.ck.tlSrc ∧ b.doneWith m 0x0050 0x00 (leBytes s.blk.now 8))
  ∧ (∀ (s : State) m (dom : BitVec 8), s.blk.mans Mop.clockSwitch → dom = 13 ∨ dom = 14 → s.blk.ck.root.lock = true →
      Does (.clockSwitch m dom 0 false) s [.ck, .slots, .running, .ins] fun b => b.domSrc dom.toNat = .pllRoot ∧ b.doneWith m 0x0050 0x00 (leBytes s.blk.now 8))
  ∧ (∀ (s : State) m (dom src : BitVec 8) d, s.blk.mans Mop.clockSwitch →
      (3 ≤ src.toNat ∨ (dom ≠ 48 ∧ dom ≠ 15 ∧ dom ≠ 13 ∧ dom ≠ 14) ∨ (src = 2 ∧ (dom = 13 ∨ dom = 14))) →
      Does (.clockSwitch m dom src d) s [.slots, .running, .ins] fun b => b.doneWith m 0x0050 0x04 [])
  ∧ (∀ (s : State) m d, s.blk.mans Mop.clockSwitch → s.blk.ck.xtalOk = false →
      Does (.clockSwitch m 15 1 d) s [.slots, .running, .ins] fun b => b.doneWith m 0x0050 0x02 [])
  ∧ (∀ (s : State) m, s.blk.mans Mop.clockSwitch → s.blk.ck.rcOk = true → s.blk.ck.root.lock = true → s.blk.ck.hkSrc = .pllRoot →
      Does (.clockSwitch m 15 2 true) s [.chs, .ck, .cnt, .doms, .events, .fws, .hold, .ins, .lanes, .mf, .regs, .running, .sel, .sides, .slots, .sv, .tl] fun b =>
        b.ck.hkSrc = .crystal ∧ b.ck.hkMoved = true ∧ b.ck.aonSrc = s.blk.ck.aonSrc ∧ b.regBit Off.ckAlarm 5 = true ∧ b.doneWith m 0x0050 0x0E [])
  ∧ (∀ (s : State) m, s.blk.mans Mop.recover → s.blk.ck.xtalOk = true → s.blk.ck.root.down = false →
      Does (.recover m 0) s [.slots, .running, .ins] fun b => b.doneWith m 0x00A1 0x00 [0])
  ∧ (∀ (s : State) m, s.blk.mans Mop.recover → s.blk.ck.xtalOk = false → Does (.recover m 0) s [.ck] fun b => b.ck.recover = some m)
  ∧ (∀ (s : State) m, s.blk.mans Mop.recover → s.blk.ck.west.down = true →
      Does (.recover m 1) s [.ck, .slots, .running, .ins] fun b =>
        b.ck.west.tries = 0 ∧ b.ck.west.gaveUp = false ∧ b.ck.west.forced = true ∧ b.ck.root = s.blk.ck.root ∧ b.doneWith m 0x00A1 0x00 [0])
  ∧ (∀ (s : State) m (a : BitVec 8), s.blk.mans Mop.recover → 2 ≤ a.toNat → Does (.recover m a) s [.slots, .running, .ins] fun b => b.doneWith m 0x00A1 0x04 [])
  ∧ (∀ (s : State) m, s.blk.live = true → s.blk.ck.recover = some m → 1024 * 32 ≤ s.blk.since s.blk.ck.recoverAt →
      Does (.crystalRestartDone true) s [.ck] fun b => b.ck.xtalOk = true ∧ b.ck.aonSrc ≠ .rc)
  ∧ (∀ (s : State) ok, (s.blk.live = false ∨ s.blk.ck.recover = none ∨ s.blk.since s.blk.ck.recoverAt < (if ok then 1024 * 32 else 5 * msTicks)) →
      exec (.crystalRestartDone ok) s = .next s)
  ∧ (∀ (s : State) m, s.blk.live = true → s.blk.ck.recover = some m → s.blk.ck.aonSrc = .rc → s.blk.ck.root.lock = false →
      5 * msTicks ≤ s.blk.since s.blk.ck.recoverAt →
      Does (.crystalRestartDone false) s [.ck, .slots, .running, .ins] fun b => b.ck.recover = none ∧ b.doneWith m 0x00A1 0x00 [1])
  ∧ (∀ (s : State) m (d : DomId), s.blk.mans Mop.powerDomain → s.blk.domHeld d = false → (s.blk.dom d).st = .on →
      Does (.powerDomain m (BitVec.ofNat 8 d) 1) s [.slots, .running, .ins] fun b => b.doneWith m 0x0052 0x00 [1])
  ∧ (∀ (s : State) m (d : DomId) (a : BitVec 8), s.blk.mans Mop.powerDomain → s.blk.domHeld d = false → a = 0 ∨ a = 1 → (s.blk.dom d).st = .powering ∨ (s.blk.dom d).st = .draining →
      Does (.powerDomain m (BitVec.ofNat 8 d) a) s [.slots, .running, .ins] fun b => b.doneWith m 0x0052 0x07 [])
  ∧ (∀ (s : State) m (d a : BitVec 8), s.blk.mans Mop.powerDomain → 48 ≤ d.toNat ∨ 2 ≤ a.toNat →
      Does (.powerDomain m d a) s [.slots, .running, .ins] fun b => b.doneWith m 0x0052 0x04 [])
  ∧ (∀ (s : State) m (d : DomId), s.blk.mans Mop.powerDomain → s.blk.domHeld d = false → (s.blk.dom d).st = .off → 16 ≤ d.val →
      Does (.powerDomain m (BitVec.ofNat 8 d) 1) s [.dom d] fun b => (b.dom d).st = .powering ∧ (b.dom d).waiter = some m)
  ∧ (∀ (s : State) m (d : DomId) (a : BitVec 8), s.blk.mans Mop.powerDomain → s.blk.domHeld d = true → a = 0 ∨ a = 1 →
      Does (.powerDomain m (BitVec.ofNat 8 d) a) s [.slots, .running, .ins] fun b => b.doneWith m 0x0052 0x02 [])
  ∧ ∀ (s : State) m n, s.blk.mans Mop.shutdown →
      Does (.shutdown m n) s [.chans, .chs, .ck, .doms, .ins, .lanes, .mf, .prot, .pw, .running, .sides, .slots, .stk, .sv, .tl] fun b =>
        b.pw.st = .departure ∧ b.pw.depPhase = .quiesce ∧ b.pw.depNoSurvey = n ∧ b.pw.depWaiter = some m
          ∧ ∀ c : Fin 4096, (b.charter c).st = .free ∨ (b.charter c).st = .closing

/-! ### Manifests, tallies and the logbook -/

/-- SNAPSHOT_STROBE at a period boundary, with a local dump set up and the engine free, copies every block into its shadow, forms the image, whose granules then wait, and counts one; while the engine is busy it counts a skip and alarms; settings that wait, with the mode off, take effect and nothing is copied; between boundaries, and with no dump set up, it does nothing. SNAPSHOT_DONE of a local image, once the waiting granules fit in the time since the strobe, puts those whose channels serve into the dump area and changes no other byte of it, and before that does nothing; of a remote one whose flits have left it only ends it. BW_WINDOW_END at a window's end latches each port's bytes, raises its peak, and clears the counts. TALLY_CONFIG writes one selector and clears its counter; DUMP_CONFIG keeps legal parameters for the next strobe; what is illegal is BAD_PARAM. -/
def Obligations.TalliesAndDumps : Prop :=
  (∀ (s : State) (d : DumpParams), s.blk.dumpRuns = true → s.blk.crossed s.blk.tl.period s.blk.tl.periodAt = true → s.blk.tl.nextCfg = none → s.blk.tl.cfg = some d →
      d.mode = 1 → s.blk.tl.busy = false →
      Does .snapshotStrobe s [.chans, .tl] fun b =>
        b.tl.busy = true ∧ b.tl.left = b.tl.imageGranules ∧ b.tl.seqNext = s.blk.tl.seqNext + 1 ∧ b.tl.strobe = s.blk.ck.tide ∧ b.tl.skips = 0
          ∧ (∀ n : Fin 69, tget (fun _ => {}) b.tl.shadows n = s.blk.shadowNow n) ∧ b.tl.image.length = DumpParams.size d)
  ∧ (∀ (s : State) (d : DumpParams), s.blk.dumpRuns = true → s.blk.crossed s.blk.tl.period s.blk.tl.periodAt = true → s.blk.tl.nextCfg = none → s.blk.tl.cfg = some d →
      d.mode ≠ 0 → s.blk.tl.busy = true →
      Does .snapshotStrobe s [.tl, .reg Off.tlSkipped, .reg Off.tlAlarm] fun b =>
        b.regField Off.tlSkipped 0 16 = min (s.blk.regField Off.tlSkipped 0 16 + 1) 0xFFFF ∧ b.regBit Off.tlAlarm 0 = true ∧ b.tl.image = s.blk.tl.image)
  ∧ (∀ (s : State) (d : DumpParams), s.blk.dumpRuns = true → s.blk.crossed s.blk.tl.period s.blk.tl.periodAt = true → s.blk.tl.nextCfg = some d → d.mode = 0 →
      Does .snapshotStrobe s [.tl] fun b => b.tl.cfg = some d ∧ b.tl.nextCfg = none ∧ b.tl.shadows = s.blk.tl.shadows ∧ b.tl.busy = s.blk.tl.busy)
  ∧ (∀ (s : State), s.blk.dumpRuns = false ∨ s.blk.crossed s.blk.tl.period s.blk.tl.periodAt = false ∨ (s.blk.tl.nextCfg = none ∧ s.blk.tl.cfg = none) → exec .snapshotStrobe s = .next s)
  ∧ (∀ (s : State), s.blk.tl.busy = true → s.blk.dumpRuns = true → s.blk.tl.imageRemote = true → (s.blk.qy.ins.any fun i => i.level == 8) = false →
      Does .snapshotDone s [.tl] fun b => b.tl.busy = false ∧ b.tl.seqLast.toNat = leAt s.blk.tl.image 4 4 ∧ b.tl.dump = s.blk.tl.dump)
  ∧ (∀ (s : State), s.blk.tl.busy = true → s.blk.dumpRuns = true → s.blk.tl.imageRemote = false → dumpBase ≤ s.blk.tl.imageAt → s.blk.tl.imageAt % 64 = 0 →
      (∀ g ∈ s.blk.tl.left, g ∈ s.blk.tl.imageGranules) → (List.range 64).all s.blk.dumpFits = true →
      Does .snapshotDone s [.berths, .chans, .cnt, .prot, .regs, .tl] fun b =>
        b.tl.busy = false ∧ b.tl.left = [] ∧ b.tl.seqLast.toNat = leAt s.blk.tl.image 4 4
          ∧ (∀ a : Nat, s.blk.tl.left.contains ((dumpBase + a) / 64) = false → tget (fun _ => 0) b.tl.dump a = tget (fun _ => 0) s.blk.tl.dump a)
          ∧ ∀ i : Fin 8896, s.blk.tl.left.contains ((s.blk.tl.imageAt + i.val) / 64) = true →
            ((s.blk.berth (chanOf ((s.blk.tl.imageAt + i.val) / 64))).st = .ready ∨ (s.blk.berth (chanOf ((s.blk.tl.imageAt + i.val) / 64))).st = .throttled) →
            tget (fun _ => 0) b.tl.dump (s.blk.tl.imageAt - dumpBase + i.val) = s.blk.tl.image.getD i.val 0)
  ∧ (∀ (s : State), s.blk.tl.busy = false ∨ s.blk.dumpRuns = false ∨ (s.blk.tl.imageRemote = false ∧ (List.range 64).all s.blk.dumpFits = false) →
      exec .snapshotDone s = .next s)
  ∧ (∀ (s : State), s.blk.crossed (max 1 s.blk.tl.winUs.toNat * usTicks) s.blk.tl.winAt = false → exec .bwWindowEnd s = .next s)
  ∧ (∀ (s : State), s.blk.live = true → s.blk.coreRuns = true → s.blk.domOn tlDom = true →
      s.blk.crossed (max 1 s.blk.tl.winUs.toNat * usTicks) s.blk.tl.winAt = true →
      Does .bwWindowEnd s [.tl] fun b =>
        b.tl.bytes = [] ∧ ∀ p : Fin 130, s.blk.domOn (portDom p) = true → s.blk.tl.winOff.contains (portDom p) = false →
          tget (fun _ => 0) b.tl.last p = tget (fun _ => 0) s.blk.tl.bytes p
            ∧ tget (fun _ => 0) b.tl.peak p = max (tget (fun _ => 0) s.blk.tl.peak p) (tget (fun _ => 0) s.blk.tl.bytes p / max 1 s.blk.tl.winUs.toNat))
  ∧ (∀ (s : State) m (blk c : BitVec 8) (sel : BitVec 16), s.blk.mans Mop.tallyConfig → blk.toNat ≤ 68 → c.toNat ≤ 7 → selectorOk blk.toNat sel.toNat = true →
      s.blk.domOn (tallyDom blk.toNat) = true →
      Does (.tallyConfig m blk c sel) s [.ins, .regs, .running, .slots, .tl] fun b =>
        b.doneWith m 0x0070 0x00 [] ∧ b.selector blk.toNat c.toNat = sel.toNat ∧ tget (fun _ => 0) (b.tallyBlk blk.toNat).cnt c.toNat = 0
          ∧ b.regBit (tlOff Off.tlOvf blk.toNat) c.toNat = false)
  ∧ (∀ (s : State) m (blk c : BitVec 8) (sel : BitVec 16), s.blk.mans Mop.tallyConfig → (68 < blk.toNat ∨ 7 < c.toNat ∨ selectorOk blk.toNat sel.toNat = false) →
      Does (.tallyConfig m blk c sel) s [.slots, .running, .ins] fun b => b.doneWith m 0x0070 0x04 [])
  ∧ (∀ (s : State) m (d : DumpParams), s.blk.mans Mop.dumpConfig → DumpParams.legal d = true →
      Does (.dumpConfig m d) s [.tl, .slots, .running, .ins] fun b =>
        b.tl.nextCfg = some d ∧ b.tl.cfg = s.blk.tl.cfg ∧ b.doneWith m 0x0071 0x00 (leBytes (DumpParams.size d) 4))
  ∧ ∀ (s : State) m (d : DumpParams), s.blk.mans Mop.dumpConfig → DumpParams.legal d = false →
      Does (.dumpConfig m d) s [.slots, .running, .ins] fun b => b.doneWith m 0x0071 0x04 []

/-- A fragment that is malformed is refused, touches no slot and adds to no buffer; the first of several is buffered; REASSEMBLY_TIMEOUT discards a buffer whose first fragment was claimed more than 10 µs ago with an alarm, and earlier does nothing. MF_MBOX_DOOR with GO decides the mailbox: a good new manifest that its key, ring, state, parameters and conflicts allow gets a PENDING slot, moves L and runs; a duplicate marks its DONE slot READ_AGAIN and runs nothing; a failed authentication counts and writes no slot; a length below 64 is BAD_PARAM. Without GO nothing. -/
def Obligations.ManifestsArrive : Prop :=
  (∀ (s : State) sd (f : Flit), f.kind = 3 → s.blk.decides = true → s.blk.hmRuns = true → fragmentOk f = false →
      Does (.manifestFragment sd f) s [.count Off.mfAccepted, .count Off.mfAuthFail, .count Off.mfFragDrop, .count Off.mfRefused, .events, .fresh, .ins, .mf, .qy, .reg Off.lgAlarm, .reg Off.mfAlarm, .running, .slots] fun b =>
        b.qy.claimed = s.blk.qy.claimed.erase (sd, f) ∧ b.mf.slots = s.blk.mf.slots ∧ (∀ r ∈ b.mf.reasm, r ∈ s.blk.mf.reasm) ∧ b.mf.running = s.blk.mf.running
          ∧ b.count Off.mfRefused = min (s.blk.count Off.mfRefused + 1) (2 ^ 32 - 1))
  ∧ (∀ (s : State) sd (f : Flit), f.kind = 3 → s.blk.decides = true → s.blk.hmRuns = true → fragmentOk f = true → 2 ≤ f.arg.toNat / 65536 →
      (s.blk.mf.reasm.find? fun x => x.side == sd && x.src == f.src && x.tag == f.tag) = none → (s.blk.mf.reasm.countP fun x => x.side == sd) < 8 →
      (s.blk.mf.reasm.all fun r => !r.late (s.blk.takeClaimed sd f).qy.claimAt) = true →
      Does (.manifestFragment sd f) s [.qy, .mf] fun b =>
        b.mf.reasm.getLast? = some
          { side := sd, src := f.src, tag := f.tag, flow := f.flow, length := f.length, count := f.arg.toNat / 65536, dest := f.dest
            since := (s.blk.takeClaimed sd f).qy.claimAt
            got := [(f.arg.toNat % 65536, (payload f).take (min 256 (f.length.toNat - 256 * (f.arg.toNat % 65536))))] })
  ∧ (∀ (s : State) sd (f : Flit), f.kind ≠ 3 ∨ s.blk.decides = false ∨ s.blk.hmRuns = false → exec (.manifestFragment sd f) s = .next s)
  ∧ (∀ (s : State) sd src tag r, (s.blk.mf.reasm.find? fun x => x.side == sd && x.src == src && x.tag == tag) = some r → r.late s.blk.ck.tide = true →
      Does (.reassemblyTimeout sd src tag) s [.count Off.mfFragDrop, .mf, .reg Off.mfAlarm] fun b =>
        (b.mf.reasm.find? fun x => x.side == sd && x.src == src && x.tag == tag) = none ∧ b.regBit Off.mfAlarm 1 = true
          ∧ b.count Off.mfFragDrop = min (s.blk.count Off.mfFragDrop + 1) (2 ^ 32 - 1))
  ∧ (∀ (s : State) sd src tag, (s.blk.mf.reasm.find? fun x => x.side == sd && x.src == src && x.tag == tag).all (fun r => !r.late s.blk.ck.tide) = true →
      exec (.reassemblyTimeout sd src tag) s = .next s)
  ∧ (∀ (s : State) (p : Path) (v : Word), p = .inBand ∨ v.getLsbD 31 = false ∨ s.blk.sidebandOpen = false ∨ s.blk.hmRuns = false → exec (.mfMboxDoor p v) s = .next s)
  ∧ (∀ (s : State) (p : Path) (v : Word), p ≠ .inBand → v.getLsbD 31 = true → s.blk.sidebandOpen = true → s.blk.hmRuns = true → v.toNat % 2 ^ 13 < 64 →
      Does (.mfMboxDoor p v) s [.mf, .count Off.mfRefused] fun b => (b.mbox p).st = 2 ∧ (b.mbox p).status = 0x04 ∧ b.mf.slots = s.blk.mf.slots)
  ∧ (∀ (s : State) (v : Word) (bs : List Byte) lv p, v.getLsbD 31 = true → s.blk.sidebandOpen = true → s.blk.hmRuns = true → 64 ≤ v.toNat % 2 ^ 13 → v.toNat % 2 ^ 13 ≤ 4160 →
      (List.range (v.toNat % 2 ^ 13)).map (fun i => tget (fun _ => 0) (s.blk.mbox .i3c).data i) = bs → (headerFrom bs).wellFormed {} = true →
      s.blk.authenticate {} (headerFrom bs) = .level lv → (s.blk.ring 62).bound = true → s.blk.sequence 62 (headerFrom bs) = .new →
      opPriv (headerFrom bs).opcode = some p → p ≤ lv → s.blk.stateAllows {} (headerFrom bs).opcode (headerFrom bs).params = true →
      paramsOk (headerFrom bs).opcode (headerFrom bs).params = true → s.blk.conflict 62 (headerFrom bs).opcode (headerFrom bs).params = none →
      Does (.mfMboxDoor .i3c v) s [.mf, .slots, .running, .count Off.mfAccepted] fun b =>
        (b.mbox .i3c).st = 2 ∧ (b.mbox .i3c).status = 0x01 ∧ (b.slot (slotKey 62 (headerFrom bs).seq)).st = .pending ∧ (b.ring 62).last = (headerFrom bs).seq
          ∧ (b.mf.running.getLast?.map fun r => (r.m, r.params)) = some (⟨62, (headerFrom bs).seq⟩, (headerFrom bs).params)
          ∧ b.count Off.mfAccepted = min (s.blk.count Off.mfAccepted + 1) (2 ^ 32 - 1))
  ∧ (∀ (s : State) (v : Word) (bs : List Byte) lv, v.getLsbD 31 = true → s.blk.sidebandOpen = true → s.blk.hmRuns = true → 64 ≤ v.toNat % 2 ^ 13 → v.toNat % 2 ^ 13 ≤ 4160 →
      (List.range (v.toNat % 2 ^ 13)).map (fun i => tget (fun _ => 0) (s.blk.mbox .i3c).data i) = bs → (headerFrom bs).wellFormed {} = true →
      s.blk.authenticate {} (headerFrom bs) = .level lv → (s.blk.ring 62).bound = true → s.blk.sequence 62 (headerFrom bs) = .duplicate →
      (s.blk.slot (slotKey 62 (headerFrom bs).seq)).st = .done →
      Does (.mfMboxDoor .i3c v) s [.mf, .slots] fun b =>
        { b.slot (slotKey 62 (headerFrom bs).seq) with stored := [], touched := 0 } = { s.blk.slot (slotKey 62 (headerFrom bs).seq) with readAgain := true, stored := [], touched := 0 }
          ∧ (b.mbox .i3c).status = (s.blk.slot (slotKey 62 (headerFrom bs).seq)).status)
  ∧ ∀ (s : State) (v : Word) (bs : List Byte), v.getLsbD 31 = true → s.blk.sidebandOpen = true → s.blk.hmRuns = true → 64 ≤ v.toNat % 2 ^ 13 → v.toNat % 2 ^ 13 ≤ 4160 →
      (List.range (v.toNat % 2 ^ 13)).map (fun i => tget (fun _ => 0) (s.blk.mbox .i3c).data i) = bs → (headerFrom bs).wellFormed {} = true →
      s.blk.authenticate {} (headerFrom bs) = .fail →
      Does (.mfMboxDoor .i3c v) s [.mf, .count Off.mfAuthFail, .reg Off.mfAlarm, .reg Off.lgAlarm, .events] fun b =>
        (b.mbox .i3c).status = 0x05 ∧ b.mf.slots = s.blk.mf.slots ∧ b.regBit Off.mfAlarm 0 = true
          ∧ b.count Off.mfAuthFail = min (s.blk.count Off.mfAuthFail + 1) (2 ^ 32 - 1)

/-- Each of the 33 manifest rows, in a state in which its opcode is not accepted (R324's table, or the core gated under R349), completes its slot DONE with REFUSED and changes nothing else; while no harbourmaster runs (DARK, FROZEN, scan, the core held in reset or its clock stopped) it does nothing. -/
def Obligations.ManifestsFollowTheStateTable : Prop :=
  (∀ (s : State) i m op, i.manifest = some (m, op) → s.blk.hmRuns = true → s.blk.accepts op = false →
      Does i s [.slots, .running, .ins] fun b => b.doneWith m op 0x02 [])
  ∧ (∀ (s : State) i m op, i.manifest = some (m, op) → s.blk.hmRuns = false → exec i s = .next s)
  ∧ (∀ (b : Block), b.pw.st = .harbour ∨ b.pw.st = .openS → b.ck.coreGated = false → ∀ op ∈ [0x0001, 0x0002, 0x0003, 0x0004, 0x0005, 0x0010, 0x0012, 0x0020, 0x0021,
        0x0030, 0x0031, 0x0032, 0x0040, 0x0041, 0x0042, 0x0050, 0x0051, 0x0052, 0x0060, 0x0061, 0x0070, 0x0071, 0x0080, 0x0090, 0x0091, 0x00A0, 0x00A1, 0x00A2], b.accepts op = true)
  ∧ ∀ (b : Block) op, b.pw.st = .departure → b.accepts op = true → op ∈ [0x0001, 0x0010, 0x0012, 0x0032, 0x0040, 0x0060, 0x0080]

/-- PIER_INFO answers its 64 bytes. SET_PIER_ID sets an ID of 0x7FFE at most once per arrival, then is REFUSED. ROUTE_SET and REGION_SET write every entry unless the tables are locked, and REFUSE then; empty, overlong or illegal ones are BAD_PARAM. FILL_STATUS answers the fill masks. KEY_LOAD of a plain region key puts it into its slot while no wrap key stands, erases one, and refuses a plain key in band; an illegal kind is BAD_PARAM. -/
def Obligations.SetupManifests : Prop :=
  (∀ (s : State) m, s.blk.mans Mop.pierInfo → Does (.pierInfo m) s [.slots, .running, .ins] fun b => b.doneWith m 0x0001 0x00 s.blk.pierInfoBytes)
  ∧ (∀ (s : State) m (id : BitVec 16), s.blk.mans Mop.setPierId → s.blk.qy.idValid = false → id.toNat ≤ 0x7FFE →
      Does (.setPierId m id) s [.qy, .slots, .running, .ins] fun b => b.doneWith m 0x0002 0x00 [] ∧ b.qy.pierId.toNat = id.toNat ∧ b.qy.idValid = true)
  ∧ (∀ (s : State) m (id : BitVec 16), s.blk.mans Mop.setPierId → s.blk.qy.idValid = true → id.toNat ≤ 0x7FFE →
      Does (.setPierId m id) s [.slots, .running, .ins] fun b => b.doneWith m 0x0002 0x02 [])
  ∧ (∀ (s : State) m (id : BitVec 16), s.blk.mans Mop.setPierId → 0x7FFE < id.toNat → Does (.setPierId m id) s [.slots, .running, .ins] fun b => b.doneWith m 0x0002 0x04 [])
  ∧ (∀ (s : State) m (n : Fin 256) ws, s.blk.mans Mop.routeSet → ws ≠ [] → n.val + ws.length ≤ 256 → s.blk.tablesLocked = false →
      Does (.routeSet m n ws) s [.regs, .slots, .running, .ins] fun b =>
        b.doneWith m 0x0003 0x00 [] ∧ (∀ i : Fin 256, i.val < ws.length → b.reg (Off.qyRoute + 4 * (n.val + i.val)) = ws.getD i.val 0)
          ∧ ∀ i : Fin 256, (i.val < n.val ∨ n.val + ws.length ≤ i.val) → b.reg (Off.qyRoute + 4 * i.val) = s.blk.reg (Off.qyRoute + 4 * i.val))
  ∧ (∀ (s : State) m (n : Fin 256) ws, s.blk.mans Mop.routeSet → ws ≠ [] → n.val + ws.length ≤ 256 → s.blk.tablesLocked = true →
      Does (.routeSet m n ws) s [.slots, .running, .ins] fun b => b.doneWith m 0x0003 0x02 [])
  ∧ (∀ (s : State) m (n : Fin 256) ws, s.blk.mans Mop.routeSet → (ws = [] ∨ 256 < n.val + ws.length) →
      Does (.routeSet m n ws) s [.slots, .running, .ins] fun b => b.doneWith m 0x0003 0x04 [])
  ∧ (∀ (s : State) m (n : Fin 64) r, s.blk.mans Mop.regionSet → RegionImage.legal r = true → s.blk.tablesLocked = false →
      Does (.regionSet m n [r]) s [.regs, .slots, .running, .ins] fun b =>
        b.doneWith m 0x0004 0x00 [] ∧ b.reg (Off.qyRgnBaseLo + 0x20 * n) = r.baseLo ∧ b.reg (Off.qyRgnBaseHi + 0x20 * n) = r.baseHi
          ∧ b.reg (Off.qyRgnLimLo + 0x20 * n) = r.limLo ∧ b.reg (Off.qyRgnLimHi + 0x20 * n) = r.limHi ∧ b.reg (Off.qyRgnSrc + 0x20 * n) = r.src
          ∧ b.reg (Off.qyRgnPerm + 0x20 * n) = r.perm)
  ∧ (∀ (s : State) m (n : Fin 64) rs, s.blk.mans Mop.regionSet → (rs = [] ∨ 64 < n.val + rs.length ∨ rs.all RegionImage.legal = false) →
      Does (.regionSet m n rs) s [.slots, .running, .ins] fun b => b.doneWith m 0x0004 0x04 [])
  ∧ (∀ (s : State) m (n : Fin 64) rs, s.blk.mans Mop.regionSet → rs ≠ [] → n.val + rs.length ≤ 64 → rs.all RegionImage.legal = true → s.blk.tablesLocked = true →
      Does (.regionSet m n rs) s [.slots, .running, .ins] fun b => b.doneWith m 0x0004 0x02 [])
  ∧ (∀ (s : State) m, s.blk.mans Mop.fillStatus →
      Does (.fillStatus m) s [.slots, .running, .ins, .fresh] fun b => b.doneWith m 0x0021 0x00 s.blk.fillStatusBytes)
  ∧ (∀ (s : State) m (k : KeyLoadParams), s.blk.mans Mop.keyLoad → 62 ≤ m.ring.val → s.blk.keys.wrap = none → k.kind = 0 → k.op = 0 → k.wrapped = 0 →
      (keyWorkOf m k).legal = true → k.material.take 32 ≠ (k.material.drop 32).take 32 →
      Does (.keyLoad m k) s [.keys, .slots, .running, .ins] fun b =>
        b.doneWith m 0x0005 0x00 [] ∧ b.keyOf k.slot.toNat = some (BitVec.ofNat 512 (ofLe k.material)) ∧ b.keys.manifest = s.blk.keys.manifest ∧ b.keys.arrival = s.blk.keys.arrival)
  ∧ (∀ (s : State) m (k : KeyLoadParams), s.blk.mans Mop.keyLoad → k.kind = 0 → k.op = 1 → (keyWorkOf m k).legal = true →
      Does (.keyLoad m k) s [.keys, .slots, .running, .ins] fun b => b.doneWith m 0x0005 0x00 [] ∧ b.keyOf k.slot.toNat = none)
  ∧ (∀ (s : State) m (k : KeyLoadParams), s.blk.mans Mop.keyLoad → m.ring.val < 62 → k.op = 0 → k.wrapped = 0 → (keyWorkOf m k).legal = true →
      Does (.keyLoad m k) s [.keys, .slots, .running, .ins] fun b => b.doneWith m 0x0005 0x02 [] ∧ b.keys = s.blk.keys)
  ∧ ∀ (s : State) m (k : KeyLoadParams), s.blk.mans Mop.keyLoad → (1 < k.op.toNat ∨ (k.op = 0 ∧ 1 < k.wrapped.toNat) ∨ (keyWorkOf m k).legal = false) →
      Does (.keyLoad m k) s [.slots, .running, .ins] fun b => b.doneWith m 0x0005 0x04 []

/-- BEGIN of a legal length starts the erase, a second one is BUSY_RETRY; FLASH_OPERATION_DONE then opens the session. DATA at the next offset starts programming, and its end advances the session; DATA elsewhere is BAD_PARAM, from another ring BUSY_RETRY, with no session REFUSED. COMMIT of a whole image that the slot holds valid starts the directory write and its end answers version, security and slot; otherwise it is AUTH_FAIL and ends the session. ABORT ends it, and FW_SESSION_TIMEOUT 60 s after its last manifest. FLASH_OPERATION_DONE without a job, or while harbourmaster or SPI stand, does nothing. MANIFEST_TIMEOUT at the bound ends work that waits outside with TIMEOUT and a CAL_RUN that waits for no grant with the rest failed; earlier it does nothing. -/
def Obligations.FirmwareUpdate : Prop :=
  (∀ (s : State) m (n : BitVec 32), s.blk.mans Mop.fwUpdate → 257 ≤ n.toNat → n.toNat ≤ 3145728 → s.blk.mf.session = none → s.blk.mf.job = none →
      Does (.fwUpdateBegin m n) s [.mf, .fresh] fun b => b.mf.job = some (.erase m s.blk.updateSlot n.toNat))
  ∧ (∀ (s : State) m (n : BitVec 32), s.blk.mans Mop.fwUpdate → 257 ≤ n.toNat → n.toNat ≤ 3145728 → (s.blk.mf.session.isSome = true ∨ s.blk.mf.job.isSome = true) →
      Does (.fwUpdateBegin m n) s [.slots, .running, .ins] fun b => b.doneWith m 0x00A2 0x07 [])
  ∧ (∀ (s : State) m (n : BitVec 32), s.blk.mans Mop.fwUpdate → n.toNat < 257 ∨ 3145728 < n.toNat →
      Does (.fwUpdateBegin m n) s [.slots, .running, .ins] fun b => b.doneWith m 0x00A2 0x04 [])
  ∧ (∀ (s : State) m x (o : BitVec 32) bs, s.blk.mans Mop.fwUpdate → s.blk.mf.session = some x → x.ring = m.ring → s.blk.mf.job = none → o.toNat = x.got → bs ≠ [] →
      bs.length ≤ 4084 → x.got + bs.length ≤ x.total →
      Does (.fwUpdateData m o bs) s [.mf] fun b => b.mf.job = some (.program m o.toNat bs) ∧ b.mf.session = some { x with at_ := s.blk.ck.tide })
  ∧ (∀ (s : State) m x (o : BitVec 32) bs, s.blk.mans Mop.fwUpdate → s.blk.mf.session = some x → x.ring = m.ring → s.blk.mf.job = none →
      (o.toNat ≠ x.got ∨ bs = [] ∨ 4084 < bs.length ∨ x.total < x.got + bs.length) →
      Does (.fwUpdateData m o bs) s [.mf, .slots, .running, .ins] fun b =>
        b.doneWith m 0x00A2 0x04 [] ∧ b.mf.session = some { x with at_ := s.blk.ck.tide } ∧ b.mf.job = none)
  ∧ (∀ (s : State) m x (o : BitVec 32) bs, s.blk.mans Mop.fwUpdate → s.blk.mf.session = some x → x.ring ≠ m.ring →
      Does (.fwUpdateData m o bs) s [.slots, .running, .ins] fun b => b.doneWith m 0x00A2 0x07 [])
  ∧ (∀ (s : State) m (o : BitVec 32) bs, s.blk.mans Mop.fwUpdate → s.blk.mf.session = none →
      Does (.fwUpdateData m o bs) s [.slots, .running, .ins] fun b => b.doneWith m 0x00A2 0x02 [])
  ∧ (∀ (s : State) m x root img, s.blk.mans Mop.fwUpdate → s.blk.mf.session = some x → x.ring = m.ring → s.blk.mf.job = none → x.got = x.total →
      s.blk.updated root x = img → s.blk.imageValid img = true →
      Does (.fwUpdateCommit m root) s [.mf] fun b => b.mf.job = some (.directory m x.slotB img.version img.security))
  ∧ (∀ (s : State) m x root, s.blk.mans Mop.fwUpdate → s.blk.mf.session = some x → x.ring = m.ring → s.blk.mf.job = none →
      (x.got ≠ x.total ∨ s.blk.imageValid (s.blk.updated root x) = false) →
      Does (.fwUpdateCommit m root) s [.mf, .slots, .running, .ins] fun b => b.doneWith m 0x00A2 0x05 [] ∧ b.mf.session = none ∧ b.mf.job = none)
  ∧ (∀ (s : State) m x, s.blk.mans Mop.fwUpdate → s.blk.mf.session = some x → x.ring = m.ring → s.blk.mf.job = none →
      Does (.fwUpdateAbort m) s [.mf, .slots, .running, .ins] fun b => b.doneWith m 0x00A2 0x00 [] ∧ b.mf.session = none)
  ∧ (∀ (s : State) m sl n, s.blk.hmRuns = true → s.blk.spiRuns = true → s.blk.mf.job = some (.erase m sl n) →
      Does .flashOperationDone s [.mf, .slots, .running, .ins] fun b =>
        b.doneWith m 0x00A2 0x00 [] ∧ b.mf.job = none ∧ b.mf.session = some { ring := m.ring, slotB := sl, total := n, at_ := s.blk.ck.tide } ∧ b.mf.image sl = [])
  ∧ (∀ (s : State) m x o bs, s.blk.hmRuns = true → s.blk.spiRuns = true → s.blk.mf.job = some (.program m o bs) → s.blk.mf.session = some x →
      Does .flashOperationDone s [.mf, .slots, .running, .ins] fun b =>
        b.doneWith m 0x00A2 0x00 [] ∧ b.mf.job = none ∧ b.mf.session = some { x with got := x.got + bs.length }
          ∧ ∀ i : Fin 4084, i.val < bs.length → tget (fun _ => erased) (b.mf.image x.slotB) (o + i.val) = bs.getD i.val 0)
  ∧ (∀ (s : State) m sl v k, s.blk.hmRuns = true → s.blk.spiRuns = true → s.blk.mf.job = some (.directory m sl v k) →
      Does .flashOperationDone s [.mf, .slots, .running, .ins] fun b =>
        b.doneWith m 0x00A2 0x00 (leBytes v.toNat 4 ++ [k, if sl then 1 else 0]) ∧ b.mf.session = none ∧ b.mf.job = none
          ∧ (b.mf.dir0.map (·.slotB) = some sl ∨ b.mf.dir1.map (·.slotB) = some sl))
  ∧ (∀ (s : State), s.blk.hmRuns = false ∨ s.blk.spiRuns = false ∨ s.blk.mf.job = none → exec .flashOperationDone s = .next s)
  ∧ (∀ (s : State), s.blk.hmRuns = true → s.blk.mf.job = none → s.blk.sessionOld = true → Does .fwSessionTimeout s [.mf] fun b => b.mf.session = none)
  ∧ (∀ (s : State), s.blk.hmRuns = false ∨ s.blk.mf.job.isSome = true ∨ s.blk.sessionOld = false → exec .fwSessionTimeout s = .next s)
  ∧ (∀ (s : State) m op, s.blk.hmRuns = true → s.blk.waitsFor m = some op → op < 2 ^ 16 → s.blk.atBound m op = true → Does (.manifestTimeout m) s [.cnt, .events, .fws, .ins, .lanes, .mf, .pw, .qy, .regs, .running, .sides, .slots, .sv, .tl] fun b => b.doneWith m op 0x0F [])
  ∧ (∀ (s : State) m r, s.blk.hmRuns = true → s.blk.waitsFor m = none → (s.blk.sv.cal.find? fun r => r.m == m) = some r → s.blk.atBound m Mop.calRun = true →
      Does (.manifestTimeout m) s [.cnt, .events, .fws, .ins, .lanes, .mf, .pw, .qy, .regs, .running, .sides, .slots, .sv, .tl] fun b =>
        b.doneWith m 0x0031 0x00 (leBytes r.passed.toNat 8 ++ leBytes (r.failed ||| r.todo).toNat 8))
  ∧ ∀ (s : State) m, s.blk.hmRuns = false ∨ s.blk.atBound m ((s.blk.waitsFor m).getD Mop.calRun) = false
        ∨ (s.blk.waitsFor m = none ∧ (s.blk.sv.cal.find? fun r => r.m == m) = none) → exec (.manifestTimeout m) s = .next s

/-- LANE_STATUS answers a side. LANE_RETRAIN of a whole running side trains it from the start, and of an OFF lane of one hunts it warm; LANE_PRBS clears the lane's counters and hunts an OFF lane with its pattern, but never takes the only one in RUN, nor one that is FAILED, not usable or of a side not in RUN (REFUSED); SSC_SET without RETRAIN_NOW keeps the spread for the next training; parameters out of range are BAD_PARAM, a lane manifest in progress BUSY_RETRY, and LANE_RETRAIN of a side whose PLL is down REFUSED. LOG_READ of events or trips answers up to 28 records. TRIP_ACK of the newest trip acknowledges it and clears the hold; with none it is REFUSED, of another tide BAD_PARAM. -/
def Obligations.LaneAndLogManifests : Prop :=
  (∀ (s : State) m sd, s.blk.mans Mop.laneStatus →
      Does (.laneStatus m (BitVec.ofNat 8 (sideNo sd))) s [.slots, .running, .ins] fun b => b.doneWith m 0x0040 0x00 (s.blk.laneStatusBytes sd))
  ∧ (∀ (s : State) m (n : BitVec 8), s.blk.mans Mop.laneStatus → 2 ≤ n.toNat →
      Does (.laneStatus m n) s [.slots, .running, .ins] fun b => b.doneWith m 0x0040 0x04 [])
  ∧ (∀ (s : State) m sd (mode : BitVec 8) mask, s.blk.mans Mop.laneRetrain → mode.toNat ≤ 1 → s.blk.laneBusy sd (some m) = true →
      Does (.laneRetrain m (BitVec.ofNat 8 (sideNo sd)) mode mask) s [.slots, .running, .ins] fun b => b.doneWith m 0x0041 0x07 [])
  ∧ (∀ (s : State) m sd (mode : BitVec 8) mask, s.blk.mans Mop.laneRetrain → mode.toNat ≤ 1 → s.blk.laneBusy sd (some m) = false → (s.blk.pll (sidePll sd)).down = true →
      Does (.laneRetrain m (BitVec.ofNat 8 (sideNo sd)) mode mask) s [.slots, .running, .ins] fun b => b.doneWith m 0x0041 0x02 [])
  ∧ (∀ (s : State) m (n mode : BitVec 8) mask, s.blk.mans Mop.laneRetrain → (2 ≤ n.toNat ∨ 2 ≤ mode.toNat) →
      Does (.laneRetrain m n mode mask) s [.slots, .running, .ins] fun b => b.doneWith m 0x0041 0x04 [])
  ∧ (∀ (s : State) m sd, s.blk.mans Mop.laneRetrain → s.blk.laneBusy sd (some m) = false → (s.blk.pll (sidePll sd)).down = false → (s.blk.side sd).seg = .run →
      (s.blk.trainLanes sd).isEmpty = false →
      Does (.laneRetrain m (BitVec.ofNat 8 (sideNo sd)) 1 0) s [.cnt, .events, .fws, .ins, .lanes, .qy, .regs, .running, .sides, .slots, .tl] fun b =>
        (b.side sd).seg = .training ∧ (b.side sd).waiter = some (m, 0x0041) ∧ (b.side (otherSide sd)).seg = (s.blk.side (otherSide sd)).seg)
  ∧ (∀ (s : State) m sd (l : Fin 16), s.blk.mans Mop.laneRetrain → s.blk.laneBusy sd (some m) = false → (s.blk.pll (sidePll sd)).down = false → (s.blk.side sd).seg = .run →
      s.blk.laneUsable (laneOf sd l) = true → (s.blk.lane (laneOf sd l)).st = .off →
      Does (.laneRetrain m (BitVec.ofNat 8 (sideNo sd)) 0 (BitVec.ofNat 16 (2 ^ l.val))) s [.cnt, .events, .fws, .ins, .lanes, .qy, .regs, .running, .sides, .slots, .tl] fun b =>
        (b.lane (laneOf sd l)).st = .hunt ∧ (b.lane (laneOf sd l)).retraining = true ∧ (b.lane (laneOf sd l)).warm = true ∧ (b.side sd).seg = .run
          ∧ (b.side sd).waiter = some (m, 0x0041))
  ∧ (∀ (s : State) m sd (l : Fin 16) (pat : BitVec 8) ms, s.blk.mans Mop.lanePrbs → pat.toNat < 3 → 1 ≤ ms.toNat → ms.toNat ≤ 60000 → s.blk.laneBusy sd (some m) = false →
      (s.blk.pll (sidePll sd)).down = false → (s.blk.side sd).seg = .run → s.blk.laneUsable (laneOf sd l) = true → (s.blk.lane (laneOf sd l)).st = .off →
      Does (.lanePrbs m (BitVec.ofNat 8 (sideNo sd)) (BitVec.ofNat 8 l) pat ms) s [.cnt, .events, .fws, .ins, .lanes, .qy, .regs, .running, .sides, .slots, .tl] fun b =>
        (b.lane (laneOf sd l)).st = .hunt ∧ (b.lane (laneOf sd l)).prbsOwner = some m ∧ (b.lane (laneOf sd l)).prbsRun = some (pat.truncate 2))
  ∧ (∀ (s : State) m sd (l : Fin 16) (pat : BitVec 8) ms, s.blk.mans Mop.lanePrbs → pat.toNat < 3 → 1 ≤ ms.toNat → ms.toNat ≤ 60000 → s.blk.laneBusy sd (some m) = false →
      (s.blk.pll (sidePll sd)).down = false →
      (s.blk.onlyRunning (laneOf sd l) = true ∨ (s.blk.side sd).seg ≠ .run ∨ s.blk.laneUsable (laneOf sd l) = false ∨ (s.blk.lane (laneOf sd l)).st = .failed) →
      Does (.lanePrbs m (BitVec.ofNat 8 (sideNo sd)) (BitVec.ofNat 8 l) pat ms) s [.slots, .running, .ins] fun b => b.doneWith m 0x0042 0x02 [])
  ∧ (∀ (s : State) m sd (l : Fin 16) (pat : BitVec 8) ms, s.blk.mans Mop.lanePrbs → pat.toNat < 3 → 1 ≤ ms.toNat → ms.toNat ≤ 60000 → s.blk.laneBusy sd (some m) = false →
      (s.blk.pll (sidePll sd)).down = false → s.blk.onlyRunning (laneOf sd l) = false → (s.blk.side sd).seg = .run → s.blk.laneUsable (laneOf sd l) = true →
      (s.blk.lane (laneOf sd l)).st ≠ .failed →
      Does (.lanePrbs m (BitVec.ofNat 8 (sideNo sd)) (BitVec.ofNat 8 l) pat ms) s [.cnt, .events, .fws, .ins, .lanes, .qy, .regs, .running, .sides, .slots, .tl] fun b =>
        b.count (lnOff Off.lnPrbsBitsLo (laneOf sd l)) = 0 ∧ b.count (lnOff Off.lnPrbsErrLo (laneOf sd l)) = 0)
  ∧ (∀ (s : State) m sd (d r : BitVec 8), s.blk.mans Mop.sscSet → d.toNat ≤ 20 → r.toNat ≤ 6 →
      Does (.sscSet m (BitVec.ofNat 8 (sideNo sd)) d r 0) s [.reg (sideOff Off.lnSideSsc sd), .side sd, .slots, .running, .ins] fun b =>
        b.regField (sideOff Off.lnSideSsc sd) 0 8 = d.toNat ∧ b.regField (sideOff Off.lnSideSsc sd) 8 8 = r.toNat ∧ (b.slot (slotKey m.ring m.seq)).st = .done
          ∧ (b.slot (slotKey m.ring m.seq)).status = 0 ∧ (b.side sd).sscActive = (s.blk.side sd).sscActive)
  ∧ (∀ (s : State) m (n d r f : BitVec 8), s.blk.mans Mop.sscSet → (2 ≤ n.toNat ∨ 20 < d.toNat ∨ 6 < r.toNat ∨ 1 < f.toNat) →
      Does (.sscSet m n d r f) s [.slots, .running, .ins] fun b => b.doneWith m 0x0051 0x04 [])
  ∧ (∀ (s : State) m (area : BitVec 8) (c : BitVec 16) (first : BitVec 32), s.blk.mans Mop.logRead → area.toNat ≤ 1 → 1 ≤ c.toNat → c.toNat ≤ 28 →
      Does (.logRead m area c first) s [.slots, .running, .ins] fun b =>
        b.doneWith m 0x0080 0x00 ((s.blk.logResult area.toNat c.toNat first.toNat).take 960))
  ∧ (∀ (s : State) m (area : BitVec 8) (c : BitVec 16) (first : BitVec 32), s.blk.mans Mop.logRead → (2 < area.toNat ∨ c.toNat < 1 ∨ 28 < c.toNat ∨ (area = 2 ∧ 14 ≤ first.toNat)) →
      Does (.logRead m area c first) s [.slots, .running, .ins] fun b => b.doneWith m 0x0080 0x04 [])
  ∧ (∀ (s : State) m t, s.blk.mans Mop.tripAck → s.blk.newestTrip = none → Does (.tripAck m t) s [.slots, .running, .ins] fun b => b.doneWith m 0x0081 0x02 [])
  ∧ (∀ (s : State) m t ix r, s.blk.mans Mop.tripAck → s.blk.newestTrip = some (ix, r) → r.tide ≠ t →
      Does (.tripAck m t) s [.slots, .running, .ins] fun b => b.doneWith m 0x0081 0x04 [])
  ∧ ∀ (s : State) m ix r, s.blk.mans Mop.tripAck → s.blk.newestTrip = some (ix, r) →
      Does (.tripAck m r.tide) s [.cnt, .events, .fws, .ins, .lanes, .lg, .mf, .pw, .qy, .regs, .running, .sides, .slots, .tl] fun b => b.doneWith m 0x0081 0x00 [] ∧ b.pw.tripHold = false ∧ b.newestTrip = none

/-! ### Registers -/

/-- A served RC_READ returns the register as it stood before the events of its cycle, and leaves its read-clear field holding just those events, every other bit as it was: the tags held now in QY_TAGS, the selected port's value in TL_BW_PEAK. RCPT_WINDOW_READ returns word 0 of the latched slot and marks a DONE slot READ_AGAIN; in band it reads 0. A register in a domain that is not ON reads 0. CSR_ACC reads likewise, answers unavailable in FROZEN and in scan, and JTAG is dead in DARK or without VDD_IO. A path that is not served does nothing. -/
def Obligations.RegisterReads : Prop :=
  (∀ (s : State) (p : Path) (offset : BitVec 24) (ev : Word) (o : Nat) (r : Reg), offset.toNat / 4 * 4 = o → s.blk.serves p = true → s.blk.mayRead p o = true →
      regAt o = some r → (r.rc == 0) = false → o ≠ Off.qyTags →
      Does (.rcRead p offset ev) s [.rdData, .reg o] fun b =>
        b.lastRead p = s.blk.peek p o ∧ b.reg o &&& r.rc = ev &&& r.rc ∧ b.reg o &&& ~~~ r.rc = s.blk.reg o &&& ~~~ r.rc)
  ∧ (∀ (s : State) (p : Path) (offset : BitVec 24) (ev : Word), offset.toNat / 4 * 4 = Off.qyTags → s.blk.serves p = true → s.blk.mayRead p Off.qyTags = true →
      Does (.rcRead p offset ev) s [.rdData, .reg Off.qyTags] fun b =>
        b.lastRead p = s.blk.peek p Off.qyTags ∧ b.regField Off.qyTags 16 15 = s.blk.tagsHeld % 2 ^ 15)
  ∧ (∀ (s : State) (p : Path) (offset : BitVec 24) (ev : Word), offset.toNat / 4 * 4 = Off.tlBwPeak → s.blk.serves p = true → s.blk.mayRead p Off.tlBwPeak = true →
      Does (.rcRead p offset ev) s [.rdData, .tl] fun b =>
        b.lastRead p = s.blk.peek p Off.tlBwPeak
          ∧ ∀ k : Fin 256, tget (fun _ => 0) b.tl.peak k
            = if k.val = (s.blk.selReg p Off.tlBwSel).toNat % 256 then ev.toNat else tget (fun _ => 0) s.blk.tl.peak k)
  ∧ (∀ (s : State) (p : Path) (offset : BitVec 24) (ev : Word), s.blk.serves p = true → clearsOnRead (offset.toNat / 4 * 4) = true →
      s.blk.reachable (offset.toNat / 4 * 4) = false → Does (.rcRead p offset ev) s [.rdData] fun b => b.lastRead p = 0)
  ∧ (∀ (s : State) (p : Path) (offset : BitVec 24) (ev : Word), s.blk.serves p = false ∨ clearsOnRead (offset.toNat / 4 * 4) = false →
      exec (.rcRead p offset ev) s = .next s)
  ∧ (∀ (s : State) (p : Path) (x : Slot) (k : Nat), s.blk.serves p = true → (p == .inBand) = false → s.blk.windowSlot p = x →
      slotKey ((s.blk.selReg p Off.mfRcptRing).toNat % 64) x.seq = k →
      Does (.rcptWindowRead p) s [.rdData, .mf, .slot k] fun b =>
        b.lastRead p = BitVec.ofNat 32 (wordAt (slotBytes x) 0) ∧ tget (fun _ => []) b.mf.latch (pathNo p) = slotBytes x
          ∧ { b.slot k with stored := [], touched := 0 } = { (if x.st = .done ∧ x.readAgain = false then { x with readAgain := true } else s.blk.slot k) with stored := [], touched := 0 })
  ∧ (∀ (s : State), s.blk.serves .inBand = true → Does (.rcptWindowRead .inBand) s [.rdData] fun b => b.lastRead .inBand = 0)
  ∧ (∀ (s : State) (p : Path), s.blk.serves p = false → exec (.rcptWindowRead p) s = .next s)
  ∧ (∀ (s : State) (dr : BitVec 57) (o : Nat), dr.toNat / 2 ^ 34 % 2 ^ 22 * 4 = o → dr.getLsbD 56 = false → s.blk.sidebandOpen = true → (o == Off.mfRcptData) = false →
      Does (.csrAcc dr) s [.hold, .rdData, .jtagDr, .regs, .tl] fun b => b.jtagDr = captured 0 (s.blk.peek .jtag o))
  ∧ (∀ (s : State) (dr : BitVec 57), (s.blk.pw.st == .dark) = false → s.blk.pins.railsLow.contains .io = false → (s.blk.pw.st == .frozen || s.blk.sv.inScan) = true →
      Does (.csrAcc dr) s [.jtagDr] fun b => b.jtagDr.toNat = 2 * 2 ^ 32)
  ∧ ∀ (s : State) (dr : BitVec 57), (s.blk.pw.st == .dark || s.blk.pins.railsLow.contains .io) = true → exec (.csrAcc dr) s = .next s

/-- A served CAPTURE_LO_READ of the low register of a pair returns the low half and captures the high half in the path's own holding register, the other paths' holding registers as they were; as long as the holding registers stay so, whatever else happens to the block, a read of the high register on that path returns the captured half. After reset every holding register is 0, so that a high read with no low read before it returns 0. CK_TIDE_LO and CK_TIDE_HI are such a pair over the tide counter, and so are the two registers of every 48-bit counter of the lanes, fairway, quay, berths, channels, protection and tallies. -/
def Obligations.RegisterPairs : Prop :=
  (∀ (s : State) (p : Path) (offset : BitVec 24) (lo hi : Nat) (c : Block), offset.toNat / 4 * 4 = lo → pairLo lo = some lo → pairLo hi = some lo → (hi == lo) = false →
      s.blk.serves p = true → s.blk.mayRead p lo = true → c.mayRead p hi = true →
      Does (.captureLoRead p offset) s [.rdData, .hold] fun b =>
        b.lastRead p = BitVec.ofNat 32 (s.blk.pairValue p lo) ∧ b.holdReg p lo = BitVec.ofNat 32 (s.blk.pairValue p lo / 2 ^ 32)
          ∧ (∀ q : Path, q ≠ p → b.holdReg q lo = s.blk.holdReg q lo)
          ∧ (c.hold = b.hold → (c.csrRead p hi 0).1 = BitVec.ofNat 32 (s.blk.pairValue p lo / 2 ^ 32)))
  ∧ (∀ (s : State) (p : Path) (c : Block), s.blk.serves p = true →
      Does (.captureLoRead p (BitVec.ofNat 24 Off.ckTideLo)) s [.rdData, .hold] fun b =>
        b.lastRead p = s.blk.ck.tide.truncate 32
          ∧ (c.hold = b.hold → (c.csrRead p (Off.ckTideLo + 4) 0).1 = (s.blk.ck.tide >>> 32).truncate 32))
  ∧ ((∀ l : Fin 32, ∀ o ∈ [Off.lnSymErrLo, Off.lnPrbsBitsLo, Off.lnPrbsErrLo], pairLo (lnOff o l) = some (lnOff o l) ∧ pairLo (lnOff o l + 4) = some (lnOff o l))
      ∧ (∀ (i : Fin 9) (d : Fin 2), pairLo (Off.fwThruLo + 0x100 * d + 8 * i) = some (Off.fwThruLo + 0x100 * d + 8 * i) ∧ pairLo (Off.fwThruLo + 0x100 * d + 8 * i + 4) = some (Off.fwThruLo + 0x100 * d + 8 * i))
      ∧ (∀ i : Fin 8, pairLo (Off.qyAcceptLo + 8 * i) = some (Off.qyAcceptLo + 8 * i) ∧ pairLo (Off.qyAcceptLo + 8 * i + 4) = some (Off.qyAcceptLo + 8 * i))
      ∧ (∀ (n : Fin 64) (i : Fin 7), pairLo (btOff Off.btPartsLo n + 8 * i) = some (btOff Off.btPartsLo n + 8 * i) ∧ pairLo (btOff Off.btPartsLo n + 8 * i + 4) = some (btOff Off.btPartsLo n + 8 * i))
      ∧ (∀ (n : Fin 64) (i : Fin 4), pairLo (dcOff Off.dcActLo n + 8 * i) = some (dcOff Off.dcActLo n + 8 * i) ∧ pairLo (dcOff Off.dcActLo n + 8 * i + 4) = some (dcOff Off.dcActLo n + 8 * i))
      ∧ (∀ i : Fin 7, pairLo (Off.prCeLo + 8 * i) = some (Off.prCeLo + 8 * i) ∧ pairLo (Off.prCeLo + 8 * i + 4) = some (Off.prCeLo + 8 * i))
      ∧ ∀ (n : Fin 69) (i : Fin 9), pairLo (tlOff Off.tlCycLo n + 8 * i) = some (tlOff Off.tlCycLo n + 8 * i) ∧ pairLo (tlOff Off.tlCycLo n + 8 * i + 4) = some (tlOff Off.tlCycLo n + 8 * i))
  ∧ (∀ (p : Path) (lo : Nat), State.reset.blk.holdReg p lo = 0)
  ∧ (∀ (c : Block) (p : Path) (hi lo : Nat), pairLo hi = some lo → (hi == lo) = false → c.mayRead p hi = true → (c.csrRead p hi 0).1 = c.holdReg p lo ∧ (c.csrRead p hi 0).2 = c)
  ∧ ∀ (s : State) (p : Path) (offset : BitVec 24), s.blk.serves p = false ∨ (pairLo (offset.toNat / 4 * 4) == some (offset.toNat / 4 * 4)) = false →
      exec (.captureLoRead p offset) s = .next s

/-- LN_CNT_CLR takes LN_SYM_ERR and all seventeen histogram bins to 0 together, and LN_PRBS_CLR both PRBS counters; what is counted next counts from 0. On a lane that ENABLE lets run, or that is OFF, LN_CNT_CLR changes nothing else, and LN_PRBS_CLR nothing but the SATURATED flag. Where the path is not served or the lane's quad is not ON, nothing happens. -/
def Obligations.LaneCountersClearTogether : Prop :=
  (∀ (s : State) (p : Path) (ln : LaneId) (n : Nat), s.blk.serves p = true → s.blk.domOn (quadDom ln) = true →
      Does (.lnCntClr p ln) s [.berths, .chans, .chs, .cnt, .cols, .events, .fresh, .fws, .heat, .hold, .ins, .keys, .lanes, .mf, .prot, .pw, .qy, .regs, .running, .sel, .sides, .slots, .stk, .sv, .tl] fun b =>
        b.count (lnOff Off.lnSymErrLo ln) = 0 ∧ (∀ i : Fin 17, b.count (lnOff Off.lnFecHist0 ln + 4 * i) = 0)
          ∧ (b.bump (lnOff Off.lnSymErrLo ln) n).count (lnOff Off.lnSymErrLo ln) = min n (2 ^ 48 - 1))
  ∧ (∀ (s : State) (p : Path) (ln : LaneId), s.blk.serves p = true → s.blk.domOn (quadDom ln) = true →
      (s.blk.regBit (lnOff Off.lnCtrl ln) 0 || (s.blk.lane ln).st == .off) = true →
      Does (.lnCntClr p ln) s ([.reg (lnOff Off.lnCtrl ln), .count (lnOff Off.lnSymErrLo ln)] ++ (List.range 17).map fun i => .count (lnOff Off.lnFecHist0 ln + 4 * i)) fun b =>
        b.reg (lnOff Off.lnCtrl ln) = s.blk.reg (lnOff Off.lnCtrl ln))
  ∧ (∀ (s : State) (p : Path) (ln : LaneId) (n : Nat), s.blk.serves p = true → s.blk.domOn (quadDom ln) = true →
      Does (.lnPrbsClr p ln) s [.reg (lnOff Off.lnPrbsCtrl ln), .lane ln, .count (lnOff Off.lnPrbsBitsLo ln), .count (lnOff Off.lnPrbsErrLo ln)] fun b =>
        b.count (lnOff Off.lnPrbsBitsLo ln) = 0 ∧ b.count (lnOff Off.lnPrbsErrLo ln) = 0 ∧ b.lane ln = { s.blk.lane ln with prbsSat := false }
          ∧ b.reg (lnOff Off.lnPrbsCtrl ln) = s.blk.reg (lnOff Off.lnPrbsCtrl ln)
          ∧ (b.bump (lnOff Off.lnPrbsErrLo ln) n).count (lnOff Off.lnPrbsErrLo ln) = min n (2 ^ 48 - 1))
  ∧ ∀ (s : State) (p : Path) (ln : LaneId), (s.blk.serves p && s.blk.domOn (quadDom ln)) = false → exec (.lnCntClr p ln) s = .next s ∧ exec (.lnPrbsClr p ln) s = .next s

/-- On a served path FW_CNT_CLR, QY_CNT_CLR, CH_CNT_CLR, BT_CNT_CLR, DC_CNT_CLR, ST_CNT_CLR, PR_CNT_CLR and TL_CNT_CLR take exactly the counters of their block to 0 (every charter's, one berth's, every channel's, every column's; of the tallies every counter and OVF bit), FENCE_CLR empties the selected berth's fence list, ERR_CLR the error ring and LOG_CLR the failure logs; the other fields of the control register stay. Where the path is not served they do nothing. -/
def Obligations.ClearBits : Prop :=
  (∀ (s : State) (p : Path), s.blk.serves p = true →
      Does (.fwCntClr p) s ([.reg Off.fwCtrl] ++ ((List.range 10).flatMap fun i => [.count (Off.fwThruLo + 8 * i), .count (Off.fwThruLo + 0x100 + 8 * i)])) fun b =>
        b.reg Off.fwCtrl = s.blk.reg Off.fwCtrl ∧ ∀ i : Fin 10, b.count (Off.fwThruLo + 8 * i) = 0 ∧ b.count (Off.fwThruLo + 0x100 + 8 * i) = 0)
  ∧ (∀ (s : State) (p : Path), s.blk.serves p = true →
      Does (.qyCntClr p) s ([.reg Off.qyCtrl] ++ (List.range 8).map fun i => .count (Off.qyAcceptLo + 8 * i)) fun b =>
        b.reg Off.qyCtrl = s.blk.reg Off.qyCtrl ∧ ∀ i : Fin 8, b.count (Off.qyAcceptLo + 8 * i) = 0)
  ∧ (∀ (s : State) (p : Path) (c : Nat), s.blk.serves p = true → s.blk.domOn qyDom = true →
      Does (.chCntClr p) s [.reg Off.chCtrl, .chs] fun b =>
        b.charter c = { s.blk.charter c with inb := 0, dem := 0, miss := 0, panicCnt := 0, runv := 0 } ∧ { b.chs with tab := [] } = { s.blk.chs with tab := [] }
          ∧ (s.blk.regField Off.chCtrl 8 8 ≠ 0 → b.reg Off.chCtrl = s.blk.reg Off.chCtrl))
  ∧ (∀ (s : State) (p : Path) (n : ChId), s.blk.serves p = true → s.blk.domOn (bgDom n) = true →
      Does (.btCntClr p n) s ((List.range 7).map fun i => .count (btOff Off.btPartsLo n + 8 * i)) fun b => ∀ i : Fin 7, b.count (btOff Off.btPartsLo n + 8 * i) = 0)
  ∧ (∀ (s : State) (p : Path), s.blk.serves p = true →
      Does (.dcCntClr p) s ([.reg Off.dcCtrl] ++ (List.range 64).flatMap fun n => (List.range 4).map fun i => .count (dcOff Off.dcActLo n + 8 * i)) fun b =>
        (∀ (n : Fin 64) (i : Fin 4), b.count (dcOff Off.dcActLo n + 8 * i) = 0)
          ∧ (1 ≤ s.blk.regField Off.dcCtrl 8 14 → s.blk.regField Off.dcCtrl 8 14 ≤ 10000 → b.reg Off.dcCtrl = s.blk.reg Off.dcCtrl))
  ∧ (∀ (s : State) (p : Path), s.blk.serves p = true →
      Does (.stCntClr p) s [.reg Off.stCtrl, .cols] fun b =>
        b.reg Off.stCtrl = s.blk.reg Off.stCtrl ∧ ∀ n : Fin 64, b.col n = { s.blk.col n with ceNow := [], ceLast := [], replay := 0 })
  ∧ (∀ (s : State) (p : Path) (n : Nat), s.blk.serves p = true → (s.blk.selReg p Off.stFenceSel).toNat % 64 = n →
      Does (.fenceClr p) s [.reg Off.stCtrl, .berth n] fun b => b.reg Off.stCtrl = s.blk.reg Off.stCtrl ∧ b.berth n = { s.blk.berth n with fence := [] })
  ∧ (∀ (s : State) (p : Path), s.blk.serves p = true →
      Does (.prCntClr p) s ((List.range 7).map fun i => .count (Off.prCeLo + 8 * i)) fun b => ∀ i : Fin 7, b.count (Off.prCeLo + 8 * i) = 0)
  ∧ (∀ (s : State) (p : Path), s.blk.serves p = true →
      Does (.errClr p) s [.prot] fun b => b.prot.held = 0 ∧ b.prot.ring = s.blk.prot.ring ∧ b.prot.wr = s.blk.prot.wr ∧ b.prot.scrub = s.blk.prot.scrub)
  ∧ (∀ (s : State) (p : Path), s.blk.serves p = true → Does (.logClr p) s [.sv] fun b => b.sv = { s.blk.sv with logs := [] })
  ∧ (∀ (s : State) (p : Path), s.blk.serves p = true → s.blk.domOn tlDom = true →
      Does (.tlCntClr p) s ([.tl] ++ (List.range 69).map fun n => .reg (tlOff Off.tlOvf n)) fun b =>
        b.tl = { s.blk.tl with blocks := [], bytes := [] } ∧ ∀ n : Fin 69, b.reg (tlOff Off.tlOvf n) &&& 0xFF = 0)
  ∧ (∀ (s : State) (p : Path), s.blk.serves p = false →
      exec (.fwCntClr p) s = .next s ∧ exec (.qyCntClr p) s = .next s ∧ exec (.chCntClr p) s = .next s ∧ exec (.dcCntClr p) s = .next s ∧ exec (.stCntClr p) s = .next s
        ∧ exec (.fenceClr p) s = .next s ∧ exec (.prCntClr p) s = .next s ∧ exec (.errClr p) s = .next s ∧ exec (.logClr p) s = .next s ∧ exec (.tlCntClr p) s = .next s)
  ∧ ∀ (s : State) (p : Path) (n : ChId), ((s.blk.serves p && s.blk.domOn (bgDom n)) = false → exec (.btCntClr p n) s = .next s)
      ∧ ((s.blk.serves p && s.blk.domOn qyDom) = false → exec (.chCntClr p) s = .next s) ∧ ((s.blk.serves p && s.blk.domOn tlDom) = false → exec (.tlCntClr p) s = .next s)

/-- TX_FFE_WRITE of a setting with a tap out of range or MAIN below 24 leaves all taps and sets REJECT; of a legal one it clears REJECT, and moves the taps where MANUAL is set and the lane is not in TRAIN. LANE_ENABLE_WRITE with ENABLE = 1 keeps the fields written, but never ENABLE of a lane in the survey unit map; with 0 the lane is OFF, or FAILED if it was. PRBS_TX_EN and PRBS_RX_EN write the generator and the checker of a lane outside RUN and DEGRADED; in those states the two enables stay. -/
def Obligations.LaneRegisters : Prop :=
  (∀ (s : State) (p : Path) (ln : LaneId) (v : Word), s.blk.serves p = true → s.blk.domOn (quadDom ln) = true → (tapsOf v).legal = false →
      Does (.txFfeWrite p ln v) s [.lane ln] fun b => b.lane ln = { s.blk.lane ln with ffeReject := true })
  ∧ (∀ (s : State) (p : Path) (ln : LaneId) (v : Word), s.blk.serves p = true → s.blk.domOn (quadDom ln) = true → (tapsOf v).legal = true →
      (s.blk.regBit (lnOff Off.lnCtrl ln) 1 && (s.blk.lane ln).st != .train) = true →
      Does (.txFfeWrite p ln v) s [.lane ln] fun b => b.lane ln = { (s.blk.lane ln).withTaps (tapsOf v) with ffeReject := false })
  ∧ (∀ (s : State) (p : Path) (ln : LaneId) (v : Word), s.blk.serves p = true → s.blk.domOn (quadDom ln) = true → (tapsOf v).legal = true →
      (s.blk.regBit (lnOff Off.lnCtrl ln) 1 && (s.blk.lane ln).st != .train) = false →
      Does (.txFfeWrite p ln v) s [.lane ln] fun b => b.lane ln = { s.blk.lane ln with ffeReject := false })
  ∧ (∀ (s : State) (p : Path) (ln : LaneId) (v : Word), s.blk.serves p = true → s.blk.domOn (quadDom ln) = true → v.getLsbD 0 = true → v.getLsbD 8 = false →
      Does (.laneEnableWrite p ln v) s [.reg (lnOff Off.lnCtrl ln)] fun b =>
        b.regField (lnOff Off.lnCtrl ln) 1 4 = bitsAt v 1 4
          ∧ b.regBit (lnOff Off.lnCtrl ln) 0 = (if (s.blk.lane ln).unusable then s.blk.regBit (lnOff Off.lnCtrl ln) 0 else true))
  ∧ (∀ (s : State) (p : Path) (ln : LaneId) (v : Word), s.blk.serves p = true → s.blk.domOn (quadDom ln) = true → v.getLsbD 0 = false → v.getLsbD 8 = false →
      Does (.laneEnableWrite p ln v) s [.berths, .chans, .chs, .cnt, .cols, .events, .fresh, .fws, .heat, .hold, .ins, .keys, .lanes, .mf, .prot, .pw, .qy, .regs, .running, .sel, .sides, .slots, .stk, .sv, .tl] fun b =>
        b.regBit (lnOff Off.lnCtrl ln) 0 = false ∧ b.regField (lnOff Off.lnCtrl ln) 1 4 = bitsAt v 1 4
          ∧ (b.lane ln).st = if (s.blk.lane ln).st = .failed then .failed else .off)
  ∧ (∀ (s : State) (p : Path) (ln : LaneId) (v : Word), s.blk.serves p = true → s.blk.domOn (quadDom ln) = true → v.getLsbD 8 = false → (s.blk.lane ln).inRun = false →
      bitsAt v 1 2 ≠ 3 → bitsAt v 5 2 ≠ 3 →
      Does (.prbsTxEn p ln v) s [.reg (lnOff Off.lnPrbsCtrl ln), .lane ln] fun b =>
        b.regField (lnOff Off.lnPrbsCtrl ln) 0 3 = bitsAt v 0 3 ∧ b.regField (lnOff Off.lnPrbsCtrl ln) 4 3 = bitsAt v 4 3
          ∧ (bitsAt v 4 1 = s.blk.regField (lnOff Off.lnPrbsCtrl ln) 4 1 → b.lane ln = s.blk.lane ln))
  ∧ (∀ (s : State) (p : Path) (ln : LaneId) (v : Word), s.blk.serves p = true → s.blk.domOn (quadDom ln) = true → v.getLsbD 8 = false → (s.blk.lane ln).inRun = true →
      Does (.prbsTxEn p ln v) s [.reg (lnOff Off.lnPrbsCtrl ln)] fun b =>
        b.regField (lnOff Off.lnPrbsCtrl ln) 0 1 = s.blk.regField (lnOff Off.lnPrbsCtrl ln) 0 1
          ∧ b.regField (lnOff Off.lnPrbsCtrl ln) 4 1 = s.blk.regField (lnOff Off.lnPrbsCtrl ln) 4 1)
  ∧ (∀ (s : State) (p : Path) (ln : LaneId) (v : Word), s.blk.serves p = true → s.blk.domOn (quadDom ln) = true → v.getLsbD 8 = false → (s.blk.lane ln).inRun = false →
      bitsAt v 1 2 ≠ 3 → bitsAt v 5 2 ≠ 3 →
      Does (.prbsRxEn p ln v) s [.reg (lnOff Off.lnPrbsCtrl ln), .lane ln] fun b =>
        b.regField (lnOff Off.lnPrbsCtrl ln) 0 3 = bitsAt v 0 3 ∧ b.regField (lnOff Off.lnPrbsCtrl ln) 4 3 = bitsAt v 4 3
          ∧ (bitsAt v 4 1 ≠ s.blk.regField (lnOff Off.lnPrbsCtrl ln) 4 1 → b.lane ln = { s.blk.lane ln with prbsSync := false }))
  ∧ (∀ (s : State) (p : Path) (ln : LaneId) (v : Word), s.blk.serves p = true → s.blk.domOn (quadDom ln) = true → v.getLsbD 8 = false → (s.blk.lane ln).inRun = true →
      Does (.prbsRxEn p ln v) s [.reg (lnOff Off.lnPrbsCtrl ln)] fun b =>
        b.regField (lnOff Off.lnPrbsCtrl ln) 0 1 = s.blk.regField (lnOff Off.lnPrbsCtrl ln) 0 1
          ∧ b.regField (lnOff Off.lnPrbsCtrl ln) 4 1 = s.blk.regField (lnOff Off.lnPrbsCtrl ln) 4 1)
  ∧ ∀ (s : State) (p : Path) (ln : LaneId) (v : Word), (s.blk.serves p && s.blk.domOn (quadDom ln)) = false →
      exec (.txFfeWrite p ln v) s = .next s ∧ exec (.laneEnableWrite p ln v) s = .next s ∧ exec (.prbsTxEn p ln v) s = .next s ∧ exec (.prbsRxEn p ln v) s = .next s

/-- CSR_WRITE on a path that is not served, of a domain that is not ON or of an offset that stores nothing leaves the state as it was; a plain register takes its RW bits and clears its W1C bits written 1, no other bit moving. TABLE_LOCK locks itself, and the route and region entries and QY_CSR_SRC then ignore writes. Under MF_CTRL.LOCK only PUSH_EN moves. BE_TAGS_WRITE keeps a limit under which `check` still holds, else sets TAGS_REJ. PR_ERR_RD_WRITE moves only within the records held. A CSR_ACC write is a CSR_WRITE over JTAG, and a transfer of three offset and four data bytes to the pier's own address, on SMBus with a good PEC after them, one on the I3C path; any other transfer writes nothing. -/
def Obligations.RegisterWrites : Prop :=
  (∀ (s : State) (p : Path) (offset : BitVec 24) (v : Word), s.blk.serves p = false ∨ s.blk.reachable (offset.toNat / 4 * 4) = false → exec (.csrWrite (.access p offset v)) s = .next s)
  ∧ (∀ (s : State) (p : Path) (offset : BitVec 24) (v : Word) (o : Nat) (r : Reg), offset.toNat / 4 * 4 = o → s.blk.serves p = true → s.blk.reachable o = true →
      regAt o = some r → r.banked = false → (r.rw = 0 ∨ o ∈ alarmPairs.map (·.2) ∨ o = Off.ckCtrl ∨ (∃ l : Fin 32, o = lnOff Off.lnTxDrv l) ∨ ∃ n : Fin 64, o = 0x151000 + 0x40 * n.val) → r.rwl = 0 →
      Does (.csrWrite (.access p offset v)) s [.reg o] fun b => b.reg o = ((s.blk.reg o &&& ~~~ r.rw) ||| (v &&& r.rw)) &&& ~~~ (v &&& r.w1c))
  ∧ (∀ (s : State) (p : Path) (offset : BitVec 24) (v : Word), s.blk.tablesLocked = true →
      (offset.toNat / 4 * 4 = Off.qyCsrSrc ∨ (Off.qyRoute ≤ offset.toNat / 4 * 4 ∧ offset.toNat / 4 * 4 < 0xD0000)) → exec (.csrWrite (.access p offset v)) s = .next s)
  ∧ (∀ (s : State) (p : Path), s.blk.serves p = true → s.blk.tablesLocked = false →
      Does (.tableLock p) s [.reg Off.qyCtrl] fun b => b.tablesLocked = true)
  ∧ (∀ (s : State) (p : Path), s.blk.serves p = false ∨ s.blk.tablesLocked = true → exec (.tableLock p) s = .next s)
  ∧ (∀ (s : State) (p : Path) (v : Word), s.blk.serves p = true → s.blk.regBit Off.mfCtrl 31 = false →
      Does (.mfLock p v) s [.reg Off.mfCtrl] fun b => b.regField Off.mfCtrl 0 4 = bitsAt v 0 4 ∧ b.regBit Off.mfCtrl 31 = v.getLsbD 31)
  ∧ (∀ (s : State) (p : Path) (v : Word), s.blk.serves p = true → s.blk.regBit Off.mfCtrl 31 = true →
      Does (.mfLock p v) s [.reg Off.mfCtrl] fun b => b.reg Off.mfCtrl = (s.blk.reg Off.mfCtrl &&& ~~~ 8) ||| (v &&& 8))
  ∧ (∀ (s : State) (p : Path) (v : Word), s.blk.serves p = true → s.blk.domOn qyDom = true →
      s.blk.checkWith (min (bitsAt v 0 15) 0x4000) false (s.blk.actives.map (·.2)) = none →
      Does (.beTagsWrite p v) s [.reg Off.qyLimit, .chs] fun b => b.chs.tab = s.blk.chs.tab ∧ (b.reg Off.qyLimit).toNat = min (bitsAt v 0 15) 0x4000)
  ∧ (∀ (s : State) (p : Path) (v : Word), s.blk.serves p = true → s.blk.domOn qyDom = true →
      (s.blk.checkWith (min (bitsAt v 0 15) 0x4000) false (s.blk.actives.map (·.2))).isSome = true →
      Does (.beTagsWrite p v) s [.reg Off.chAlarm, .chs] fun b => b.chs.tab = s.blk.chs.tab ∧ b.reg Off.chAlarm = s.blk.reg Off.chAlarm ||| 16)
  ∧ (∀ (s : State) (p : Path) (v : Word), s.blk.serves p = true → (v.truncate 13 - s.blk.prot.rd).toNat ≤ s.blk.prot.held →
      Does (.prErrRdWrite p v) s [.prot] fun b => b.prot = { s.blk.prot with rd := v.truncate 13 })
  ∧ (∀ (s : State) (p : Path) (v : Word), s.blk.serves p = false ∨ s.blk.prot.held < (v.truncate 13 - s.blk.prot.rd).toNat → exec (.prErrRdWrite p v) s = .next s)
  ∧ (∀ (s : State) (p : Path) (v : Word), s.blk.serves p = false → exec (.mfLock p v) s = .next s ∧ exec (.beTagsWrite p v) s = .next s)
  ∧ (∀ (s : State) (body : List Byte), body.length = 7 →
      exec (.csrWrite (.transfer false s.blk.sideAddress body)) s = exec (.csrWrite (.access .i3c (BitVec.ofNat 24 (leAt body 0 3)) (BitVec.ofNat 32 (leAt body 3 4)))) s
        ∧ exec (.csrWrite (.transfer true s.blk.sideAddress (body ++ [crc8 ((s.blk.sideAddress ++ 0#1) :: body)]))) s
          = exec (.csrWrite (.access .i3c (BitVec.ofNat 24 (leAt body 0 3)) (BitVec.ofNat 32 (leAt body 3 4)))) s)
  ∧ (∀ (s : State) (smbus : Bool) (addr : BitVec 7) (bytes : List Byte),
      (addr ≠ s.blk.sideAddress ∨ bytes.length ≠ (if smbus then 8 else 7)
        ∨ (smbus = true ∧ bytes.getLast? ≠ some (crc8 ((addr ++ 0#1) :: bytes.dropLast)))) →
      exec (.csrWrite (.transfer smbus addr bytes)) s = .next s)
  ∧ ∀ (s t : State) (dr : BitVec 57) (off : BitVec 24), off.toNat = dr.toNat / 2 ^ 34 % 2 ^ 22 * 4 → dr.getLsbD 56 = true → s.blk.sidebandOpen = true →
      exec (.csrWrite (.access .jtag off (dr.truncate 32))) s = .next t → exec (.csrAcc dr) s = .next { t with blk := { t.blk with jtagDr := 0 } }

/-- KS_LOAD with GO loads the material in KS_DATA as an unwrapped key and clears KS_DATA; KS_ERASE empties a slot; what breaks R315 sets KS_REJECT and changes no key. KS_ZEROIZE empties every entry but the per-arrival key. All of them act over a sideband path and only while SIDEBAND_AUTH is 0. MEM_RST over a sideband path in HARBOUR or OPEN starts the memory-side reset: every berth ABSENT, DMAN low, its cause noted. RESEED takes effect at the next round. SNAP with the mode off sets SNAP_REJ. TL_EVSEL_WRITE takes each legal selector and clears its counter and OVF bit. -/
def Obligations.KeyStoreAndControlWrites : Prop :=
  (∀ (s : State) (p : Path) (v : Word) (w : KeyWork), s.blk.serves p = true → s.blk.ksOpen p = true → v.getLsbD 31 = true → s.blk.ksWork (v &&& ~~~ 0x200) = w →
      w.legal = true → (s.blk.keyWork w).1 = 0 →
      Does (.ksLoad p v) s [.keys] fun b => b.keys = { s.blk.keys.load w w.material with ksData := [], ksReject := false })
  ∧ (∀ (s : State) (p : Path) (v : Word) (w : KeyWork), s.blk.serves p = true → s.blk.ksOpen p = true → v.getLsbD 31 = true → s.blk.ksWork (v &&& ~~~ 0x200) = w →
      (w.legal && (s.blk.keyWork w).1 == 0) = false →
      Does (.ksLoad p v) s [.keys] fun b => b.keys = { s.blk.keys with ksData := [], ksReject := true })
  ∧ (∀ (s : State) (p : Path) (v : Word) (w : KeyWork), s.blk.serves p = true → s.blk.ksOpen p = true → v.getLsbD 31 = true → s.blk.ksWork (v ||| 0x200) = w →
      w.legal = true → (s.blk.keyWork w).1 = 0 →
      Does (.ksErase p v) s [.keys] fun b => b.keys = { s.blk.keys.erase w.kind w.slot with ksData := [], ksReject := false })
  ∧ (∀ (s : State) (p : Path) (v : Word) (w : KeyWork), s.blk.serves p = true → s.blk.ksOpen p = true → v.getLsbD 31 = true → s.blk.ksWork (v ||| 0x200) = w →
      (w.legal && (s.blk.keyWork w).1 == 0) = false →
      Does (.ksErase p v) s [.keys] fun b => b.keys = { s.blk.keys with ksData := [], ksReject := true })
  ∧ (∀ (s : State) (p : Path), s.blk.serves p = true → s.blk.ksOpen p = true →
      Does (.ksZeroize p) s [.keys] fun b => b.keys = { s.blk.keys with region := [], manifest := [], wrap := none })
  ∧ (∀ (s : State) (p : Path) (v : Word), s.blk.serves p = false ∨ s.blk.ksOpen p = false →
      exec (.ksLoad p v) s = .next s ∧ exec (.ksErase p v) s = .next s ∧ exec (.ksZeroize p) s = .next s)
  ∧ (∀ (s : State) (p : Path), s.blk.serves p = true → (p == .inBand) = false → s.blk.inService = true → s.blk.live = true →
      Does (.memRst p) s [.berths, .chans, .chs, .cnt, .cols, .events, .fresh, .fws, .heat, .hold, .ins, .keys, .lanes, .mf, .prot, .pw, .qy, .regs, .running, .sel, .sides, .slots, .stk, .sv, .tl] fun b =>
        b.qy.resetting = true ∧ b.stk.dman = true ∧ b.regBit Off.ckResetCause 3 = true ∧ (∀ n : Fin 64, (b.berth n).st = .absent) ∧ b.keys = s.blk.keys)
  ∧ (∀ (s : State) (p : Path), p = .inBand ∨ s.blk.serves p = false ∨ s.blk.inService = false ∨ s.blk.live = false → exec (.memRst p) s = .next s)
  ∧ (∀ (s : State) (p : Path), s.blk.serves p = true →
      Does (.reseed p) s [.heat, .reg Off.htCtrl] fun b => b.heat = { s.blk.heat with seedDue := true } ∧ b.reg Off.htCtrl = s.blk.reg Off.htCtrl)
  ∧ (∀ (s : State) (p : Path), s.blk.serves p = true → s.blk.domOn tlDom = true → s.blk.tl.mode = 0 →
      Does (.snap p) s [.reg Off.tlAlarm] fun b => b.reg Off.tlAlarm = s.blk.reg Off.tlAlarm ||| 8)
  ∧ (∀ (s : State) (p : Path) (d : DumpParams), s.blk.serves p = true → s.blk.dumpRuns = true → s.blk.tl.mode ≠ 0 → s.blk.tl.cfg = some d → d.mode = 1 → s.blk.tl.busy = false →
      Does (.snap p) s [.chans, .tl] fun b =>
        b.tl.busy = true ∧ b.tl.seqNext = s.blk.tl.seqNext + 1 ∧ b.tl.strobe = s.blk.ck.tide ∧ (∀ n : Fin 69, tget (fun _ => {}) b.tl.shadows n = s.blk.shadowNow n))
  ∧ (∀ (s : State) (p : Path) (blk : Fin 69) (j : Fin 4) (v : Word), s.blk.serves p = true → s.blk.domOn (tallyDom blk) = true →
      selectorOk blk (bitsAt v 0 16) = true → selectorOk blk (bitsAt v 16 16) = true →
      Does (.tlEvselWrite p blk j v) s [.tl, .reg (tlOff Off.tlEvsel blk + 4 * j), .reg (tlOff Off.tlOvf blk)] fun b =>
        b.reg (tlOff Off.tlEvsel blk + 4 * j) = v ∧ (b.tallyBlk blk).cyc = (s.blk.tallyBlk blk).cyc
          ∧ (∀ k : Fin 8, tget (fun _ => 0) (b.tallyBlk blk).cnt k = if k.val / 2 = j.val then 0 else tget (fun _ => 0) (s.blk.tallyBlk blk).cnt k)
          ∧ ∀ k : Fin 8, b.regBit (tlOff Off.tlOvf blk) k = (if k.val / 2 = j.val then false else s.blk.regBit (tlOff Off.tlOvf blk) k))
  ∧ (∀ (s : State) (p : Path) (blk : Fin 69) (j : Fin 4) (k : Fin 2) (v : Word), s.blk.serves p = true → s.blk.domOn (tallyDom blk) = true →
      selectorOk blk (bitsAt v (16 * k) 16) = true → selectorOk blk (bitsAt v (16 * (1 - k.val)) 16) = false →
      Does (.tlEvselWrite p blk j v) s [.tl, .reg (tlOff Off.tlEvsel blk + 4 * j), .reg (tlOff Off.tlOvf blk)] fun b =>
        b.selector blk (2 * j + k) = bitsAt v (16 * k) 16 ∧ b.selector blk (2 * j + (1 - k.val)) = s.blk.selector blk (2 * j + (1 - k.val))
          ∧ tget (fun _ => 0) (b.tallyBlk blk).cnt (2 * j + k) = 0)
  ∧ (∀ (s : State) (p : Path) (blk : Fin 69) (j : Fin 4) (v : Word), s.blk.serves p = false ∨ s.blk.domOn (tallyDom blk) = false ∨
      (selectorOk blk (bitsAt v 0 16) = false ∧ selectorOk blk (bitsAt v 16 16) = false) → exec (.tlEvselWrite p blk j v) s = .next s)
  ∧ ∀ (s : State) (p : Path), s.blk.serves p = false → exec (.reseed p) s = .next s ∧ exec (.snap p) s = .next s

/-- After reset the registers of R451 that have a reset value hold it, HM_ID and HM_STATE show theirs, each path's receipt window names its own ring, and no counter stands above 0. ALERT_N is low for ROOT_LOST, W_LOST, E_LOST, XTAL_FAIL and RAIL_UV whatever the enables hold, for a departure that is ready, and for an enabled alarm bit; it is high where none of them holds, as after reset. -/
def Obligations.ResetValuesAndAlertN : Prop :=
  (∀ e ∈ [(0x001000, 0xC), (0x010000, 3), (0x010014, 1), (0x020000, 0x40B), (0x080000, 0x1002), (0x0C000C, 4), (0x0C0014, 0x3000), (0x0C0018, 0x7FFF), (0x140000, 0x180A00),
        (0x150000, 0x3200), (0x160000, 2), (0x180000, 0x1000C), (0x180010, 0x96), (0x1A0000, 0x708), (0x1B0020, 0x3E8), (0x1C0008, 0x3E8)], (State.reset.blk.reg e.1).toNat = e.2)
  ∧ (∀ l : Fin 32, (State.reset.blk.reg (lnOff Off.lnCtrl l)).toNat = 1 ∧ (State.reset.blk.reg (lnOff Off.lnPrbsCtrl l)).toNat = 0x44 ∧ (State.reset.blk.lane l).st = .off)
  ∧ (∀ n : Fin 64, (State.reset.blk.reg (0x151000 + 0x40 * n)).toNat = 3 ∧ (State.reset.blk.berth n).st = .absent)
  ∧ (State.reset.blk.peek .i3c Off.hmId = 0x00A11628 ∧ State.reset.blk.peek .i3c Off.hmState = 0xC1)
  ∧ (State.reset.blk.selReg .i3c Off.mfRcptRing = 0x3E ∧ State.reset.blk.selReg .jtag Off.mfRcptRing = 0x3F ∧ ∀ o : Nat, State.reset.blk.count o = 0)
  ∧ (∀ b : Block, b.reg Off.ckAlarm &&& 0x0F ≠ 0 ∨ b.regBit Off.pwAlarm 5 = true ∨ b.pw.offReady = true → b.alertLow = true)
  ∧ (∀ (b : Block) (e : Nat × Nat), e ∈ alarmPairs → b.reg e.1 &&& b.reg e.2 ≠ 0 → b.alertLow = true)
  ∧ (∀ b : Block, b.reg Off.ckAlarm &&& 0x0F = 0 → b.regBit Off.pwAlarm 5 = false → b.pw.offReady = false → (∀ e ∈ alarmPairs, b.reg e.1 &&& b.reg e.2 = 0) → b.alertLow = false)
  ∧ State.reset.blk.alertLow = false
end

