-- ==== Sys2Proof/Laws/Commands.lean ====
section
/-! SUPPORT. What a command can change: every command answers a next state with the queue as it was, and, but for those
that reach the stored symbols, with the store as it was; only COMMAND_ISSUE can stop.  One lemma per constructor. -/

namespace Sys2Proof.Machine

open Sys2Proof

set_option Elab.async false

theorem State.upd_block (s : State) (f : Block → Block) : ∃ b, s.upd f = .next { s with blk := b } := ⟨_, rfl⟩

theorem State.man_block (s : State) (m : ManRef) (op : Nat) (f : Block → Block) :
    ∃ b, s.man m op f = .next { s with blk := b } := ⟨_, rfl⟩

theorem exec_porstNLow_block (s : State) : ∃ b, exec .porstNLow s = .next { s with blk := b } := by
  unfold exec execPorstNLow; exact State.upd_block ..

theorem exec_porstNRise_block (strap : BitVec 4) (bts : BitVec 3) (board : List Byte) (s : State) : ∃ b, exec (.porstNRise strap bts board) s = .next { s with blk := b } := by
  unfold exec execPorstNRise; exact State.upd_block ..

theorem exec_aonPowerOnReset_block (s : State) : ∃ b, exec .aonPowerOnReset s = .next { s with blk := b } := by
  unfold exec execAonPowerOnReset; exact State.upd_block ..

theorem exec_wrstNFall_block (s : State) : ∃ b, exec .wrstNFall s = .next { s with blk := b } := by
  unfold exec execWrstNFall; exact State.upd_block ..

theorem exec_wrstNRise_block (strap : BitVec 4) (bts : BitVec 3) (board : List Byte) (s : State) : ∃ b, exec (.wrstNRise strap bts board) s = .next { s with blk := b } := by
  unfold exec execWrstNRise; exact State.upd_block ..

theorem exec_pwrReqNLow_block (s : State) : ∃ b, exec .pwrReqNLow s = .next { s with blk := b } := by
  unfold exec execPwrReqNLow; exact State.upd_block ..

theorem exec_freezeNFall_block (s : State) : ∃ b, exec .freezeNFall s = .next { s with blk := b } := by
  unfold exec execFreezeNFall; exact State.upd_block ..

theorem exec_trstNLow_block (s : State) : ∃ b, exec .trstNLow s = .next { s with blk := b } := by
  unfold exec execTrstNLow; exact State.upd_block ..

theorem exec_railRecovery_block (r : Rail) (s : State) : ∃ b, exec (.railRecovery r) s = .next { s with blk := b } := by
  unfold exec execRailRecovery; exact State.upd_block ..

theorem exec_referencePresent_block (sd : Side) (s : State) : ∃ b, exec (.referencePresent sd) s = .next { s with blk := b } := by
  unfold exec execReferencePresent; exact State.upd_block ..

theorem exec_lanePllFail_block (sd : Side) (refLost : Bool) (s : State) : ∃ b, exec (.lanePllFail sd refLost) s = .next { s with blk := b } := by
  unfold exec execLanePllFail; exact State.upd_block ..

theorem exec_rcFail_block (s : State) : ∃ b, exec .rcFail s = .next { s with blk := b } := by
  unfold exec execRcFail; exact State.upd_block ..

theorem exec_relockAttempt_block (p : Pll) (s : State) : ∃ b, exec (.relockAttempt p) s = .next { s with blk := b } := by
  unfold exec execRelockAttempt; exact State.upd_block ..

theorem exec_relockSuccess_block (p : Pll) (calPass lost : BitVec 64) (flight : List (Nat × Nat)) (s : State) : ∃ b, exec (.relockSuccess p calPass lost flight) s = .next { s with blk := b } := by
  unfold exec execRelockSuccess; exact State.upd_block ..

theorem exec_relockAttemptFail_block (p : Pll) (s : State) : ∃ b, exec (.relockAttemptFail p) s = .next { s with blk := b } := by
  unfold exec execRelockAttemptFail; exact State.upd_block ..

theorem exec_bootDone_block (dir0 dir1 imgA imgB : List Byte) (root : BitVec 384) (s : State) : ∃ b, exec (.bootDone dir0 dir1 imgA imgB root) s = .next { s with blk := b } := by
  unfold exec execBootDone; exact State.upd_block ..

theorem exec_arrivalPllLock_block (s : State) : ∃ b, exec .arrivalPllLock s = .next { s with blk := b } := by
  unfold exec execArrivalPllLock; exact State.upd_block ..

theorem exec_chartReadDone_block (s : State) : ∃ b, exec .chartReadDone s = .next { s with blk := b } := by
  unfold exec execChartReadDone; exact State.upd_block ..

theorem exec_arrivalSurveyDone_block (f : SurveyFindings) (s : State) : ∃ b, exec (.arrivalSurveyDone f) s = .next { s with blk := b } := by
  unfold exec execArrivalSurveyDone; exact State.upd_block ..

theorem exec_linkRetry_block (sd : Side) (s : State) : ∃ b, exec (.linkRetry sd) s = .next { s with blk := b } := by
  unfold exec execLinkRetry; exact State.upd_block ..

theorem exec_powerGood_block (d : DomId) (s : State) : ∃ b, exec (.powerGood d) s = .next { s with blk := b } := by
  unfold exec execPowerGood; exact State.upd_block ..

theorem exec_domainPowerFail_block (d : DomId) (s : State) : ∃ b, exec (.domainPowerFail d) s = .next { s with blk := b } := by
  unfold exec execDomainPowerFail; exact State.upd_block ..

theorem exec_drainDone_block (d : DomId) (s : State) : ∃ b, exec (.drainDone d) s = .next { s with blk := b } := by
  unfold exec execDrainDone; exact State.upd_block ..

theorem exec_huntBurst_block (ln : LaneId) (s : State) : ∃ b, exec (.huntBurst ln) s = .next { s with blk := b } := by
  unfold exec execHuntBurst; exact State.upd_block ..

theorem exec_huntTimeout_block (ln : LaneId) (s : State) : ∃ b, exec (.huntTimeout ln) s = .next { s with blk := b } := by
  unfold exec execHuntTimeout; exact State.upd_block ..

theorem exec_blockLock_block (ln : LaneId) (grade : Fin 4) (blocks : List LaneBlock) (s : State) : ∃ b, exec (.blockLock ln grade blocks) s = .next { s with blk := b } := by
  unfold exec execBlockLock; exact State.upd_block ..

theorem exec_blockLockLoss_block (ln : LaneId) (headers : List (BitVec 2 × Bool)) (s : State) : ∃ b, exec (.blockLockLoss ln headers) s = .next { s with blk := b } := by
  unfold exec execBlockLockLoss; exact State.upd_block ..

theorem exec_polarityTimeout_block (ln : LaneId) (s : State) : ∃ b, exec (.polarityTimeout ln) s = .next { s with blk := b } := by
  unfold exec execPolarityTimeout; exact State.upd_block ..

theorem exec_huntAnswerTimer_block (ln : LaneId) (s : State) : ∃ b, exec (.huntAnswerTimer ln) s = .next { s with blk := b } := by
  unfold exec execHuntAnswerTimer; exact State.upd_block ..

theorem exec_hello_block (ln : LaneId) (seq : BitVec 8) (roleA : Bool) (grade : Fin 4) (msg : Hello) (s : State) : ∃ b, exec (.hello ln seq roleA grade msg) s = .next { s with blk := b } := by
  unfold exec execHello; exact State.upd_block ..

theorem exec_lockWindowEnd_block (ln : LaneId) (own : Bool) (ui signalUi : Nat) (erle : BitVec 8) (s : State) : ∃ b, exec (.lockWindowEnd ln own ui signalUi erle) s = .next { s with blk := b } := by
  unfold exec execLockWindowEnd; exact State.upd_block ..

theorem exec_lockTimeout_block (ln : LaneId) (s : State) : ∃ b, exec (.lockTimeout ln) s = .next { s with blk := b } := by
  unfold exec execLockTimeout; exact State.upd_block ..

theorem exec_window_block (sd : Side) (lane : Option (Fin 16)) (seq : BitVec 8) (what : BitVec 8) (units : BitVec 16) (s : State) : ∃ b, exec (.window sd lane seq what units) s = .next { s with blk := b } := by
  unfold exec execWindow; exact State.upd_block ..

theorem exec_windowAbandon_block (sd : Side) (s : State) : ∃ b, exec (.windowAbandon sd) s = .next { s with blk := b } := by
  unfold exec execWindowAbandon; exact State.upd_block ..

theorem exec_ecDrift_block (ln : LaneId) (erle : BitVec 8) (s : State) : ∃ b, exec (.ecDrift ln erle) s = .next { s with blk := b } := by
  unfold exec execEcDrift; exact State.upd_block ..

theorem exec_tapReq_block (ln : LaneId) (seq : BitVec 8) (tap act : BitVec 8) (s : State) : ∃ b, exec (.tapReq ln seq tap act) s = .next { s with blk := b } := by
  unfold exec execTapReq; exact State.upd_block ..

theorem exec_tapRsp_block (ln : LaneId) (seq : BitVec 8) (status : BitVec 8) (s : State) : ∃ b, exec (.tapRsp ln seq status) s = .next { s with blk := b } := by
  unfold exec execTapRsp; exact State.upd_block ..

theorem exec_tapReqTimeout_block (ln : LaneId) (s : State) : ∃ b, exec (.tapReqTimeout ln) s = .next { s with blk := b } := by
  unfold exec execTapReqTimeout; exact State.upd_block ..

theorem exec_tapDone_block (ln : LaneId) (seq : BitVec 8) (pass : Bool) (fom : BitVec 8) (s : State) : ∃ b, exec (.tapDone ln seq pass fom) s = .next { s with blk := b } := by
  unfold exec execTapDone; exact State.upd_block ..

theorem exec_trainTimeout_block (ln : LaneId) (s : State) : ∃ b, exec (.trainTimeout ln) s = .next { s with blk := b } := by
  unfold exec execTrainTimeout; exact State.upd_block ..

theorem exec_cap_block (sd : Side) (seq : BitVec 8) (c : Cap) (s : State) : ∃ b, exec (.cap sd seq c) s = .next { s with blk := b } := by
  unfold exec execCap; exact State.upd_block ..

theorem exec_commit_block (sd : Side) (seq : BitVec 8) (c : Commit) (s : State) : ∃ b, exec (.commit sd seq c) s = .next { s with blk := b } := by
  unfold exec execCommit; exact State.upd_block ..

theorem exec_start_block (sd : Side) (own : Bool) (skew : List (Fin 16 × Nat)) (s : State) : ∃ b, exec (.start sd own skew) s = .next { s with blk := b } := by
  unfold exec execStart; exact State.upd_block ..

theorem exec_move_block (sd : Side) (seq : BitVec 8) (grade : Fin 4) (s : State) : ∃ b, exec (.move sd seq grade) s = .next { s with blk := b } := by
  unfold exec execMove; exact State.upd_block ..

theorem exec_reform_block (sd : Side) (seq : BitVec 8) (mask : BitVec 16) (countdown : BitVec 8) (s : State) : ∃ b, exec (.reform sd seq mask countdown) s = .next { s with blk := b } := by
  unfold exec execReform; exact State.upd_block ..

theorem exec_reformSwitch_block (sd : Side) (own : Bool) (cut : Option (Flit × List (Fin 9))) (s : State) : ∃ b, exec (.reformSwitch sd own cut) s = .next { s with blk := b } := by
  unfold exec execReformSwitch; exact State.upd_block ..

theorem exec_prbs_block (ln : LaneId) (seq : BitVec 8) (pattern : BitVec 8) (ms : BitVec 16) (s : State) : ∃ b, exec (.prbs ln seq pattern ms) s = .next { s with blk := b } := by
  unfold exec execPrbs; exact State.upd_block ..

theorem exec_lanePrbsEnd_block (ln : LaneId) (bits errors : BitVec 48) (s : State) : ∃ b, exec (.lanePrbsEnd ln bits errors) s = .next { s with blk := b } := by
  unfold exec execLanePrbsEnd; exact State.upd_block ..

theorem exec_fillRow_block (sd : Side) (rows : Nat) (blks : List (Fin 16 × List Byte)) (slot : List SlotObs) (between : List Flit) (s : State) : ∃ b, exec (.fillRow sd rows blks slot between) s = .next { s with blk := b } := by
  unfold exec execFillRow; exact State.upd_block ..

theorem exec_los_block (ln : LaneId) (mv : Nat) (s : State) : ∃ b, exec (.los ln mv) s = .next { s with blk := b } := by
  unfold exec execLos; exact State.upd_block ..

theorem exec_lol_block (ln : LaneId) (phaseErr : Nat) (ppm : Int) (s : State) : ∃ b, exec (.lol ln phaseErr ppm) s = .next { s with blk := b } := by
  unfold exec execLol; exact State.upd_block ..

theorem exec_degradeCheck_block (ln : LaneId) (corrected bits uncorrectable : Nat) (s : State) : ∃ b, exec (.degradeCheck ln corrected bits uncorrectable) s = .next { s with blk := b } := by
  unfold exec execDegradeCheck; exact State.upd_block ..

theorem exec_degradedClear_block (ln : LaneId) (s : State) : ∃ b, exec (.degradedClear ln) s = .next { s with blk := b } := by
  unfold exec execDegradedClear; exact State.upd_block ..

theorem exec_degradedTimeout_block (ln : LaneId) (s : State) : ∃ b, exec (.degradedTimeout ln) s = .next { s with blk := b } := by
  unfold exec execDegradedTimeout; exact State.upd_block ..

theorem exec_flitArrive_block (sd : Side) (f : Flit) (gone : List (Fin 9)) (parityErr : Bool) (cws : List Codeword) (cycles : Nat) (s : State) : ∃ b, exec (.flitArrive sd f gone parityErr cws cycles) s = .next { s with blk := b } := by
  unfold exec execFlitArrive; exact State.upd_block ..

theorem exec_flitSend_block (sd : Side) (s : State) : ∃ b, exec (.flitSend sd) s = .next { s with blk := b } := by
  unfold exec execFlitSend; exact State.upd_block ..

theorem exec_read_block (sd : Side) (f : Flit) (s : State) : ∃ b, exec (.read sd f) s = .next { s with blk := b } := by
  unfold exec execRead; exact State.upd_block ..

theorem exec_write_block (sd : Side) (f : Flit) (s : State) : ∃ b, exec (.write sd f) s = .next { s with blk := b } := by
  unfold exec execWrite; exact State.upd_block ..

theorem exec_writeBytes_block (sd : Side) (f : Flit) (s : State) : ∃ b, exec (.writeBytes sd f) s = .next { s with blk := b } := by
  unfold exec execWriteBytes; exact State.upd_block ..

theorem exec_atomic_block (sd : Side) (f : Flit) (s : State) : ∃ b, exec (.atomic sd f) s = .next { s with blk := b } := by
  unfold exec execAtomic; exact State.upd_block ..

theorem exec_reduce_block (sd : Side) (f : Flit) (s : State) : ∃ b, exec (.reduce sd f) s = .next { s with blk := b } := by
  unfold exec execReduce; exact State.upd_block ..

theorem exec_gather_block (sd : Side) (f : Flit) (s : State) : ∃ b, exec (.gather sd f) s = .next { s with blk := b } := by
  unfold exec execGather; exact State.upd_block ..

theorem exec_scatter_block (sd : Side) (f : Flit) (s : State) : ∃ b, exec (.scatter sd f) s = .next { s with blk := b } := by
  unfold exec execScatter; exact State.upd_block ..

theorem exec_fill_block (sd : Side) (f : Flit) (s : State) : ∃ b, exec (.fill sd f) s = .next { s with blk := b } := by
  unfold exec execFill; exact State.upd_block ..

theorem exec_find_block (sd : Side) (f : Flit) (s : State) : ∃ b, exec (.find sd f) s = .next { s with blk := b } := by
  unfold exec execFind; exact State.upd_block ..

theorem exec_copyLocal_block (sd : Side) (f : Flit) (s : State) : ∃ b, exec (.copyLocal sd f) s = .next { s with blk := b } := by
  unfold exec execCopyLocal; exact State.upd_block ..

theorem exec_copyRemote_block (sd : Side) (f : Flit) (s : State) : ∃ b, exec (.copyRemote sd f) s = .next { s with blk := b } := by
  unfold exec execCopyRemote; exact State.upd_block ..

theorem exec_fence_block (sd : Side) (f : Flit) (s : State) : ∃ b, exec (.fence sd f) s = .next { s with blk := b } := by
  unfold exec execFence; exact State.upd_block ..

theorem exec_credit_block (sd : Side) (f : Flit) (s : State) : ∃ b, exec (.credit sd f) s = .next { s with blk := b } := by
  unfold exec execCredit; exact State.upd_block ..

theorem exec_remoteCompletion_block (sd : Side) (f : Flit) (s : State) : ∃ b, exec (.remoteCompletion sd f) s = .next { s with blk := b } := by
  unfold exec execRemoteCompletion; exact State.upd_block ..

theorem exec_creditReturn_block (sd : Side) (src : BitVec 15) (s : State) : ∃ b, exec (.creditReturn sd src) s = .next { s with blk := b } := by
  unfold exec execCreditReturn; exact State.upd_block ..

theorem exec_creditStall_block (sd : Side) (s : State) : ∃ b, exec (.creditStall sd) s = .next { s with blk := b } := by
  unfold exec execCreditStall; exact State.upd_block ..

theorem exec_remoteWriteTimeout_block (tag : BitVec 16) (s : State) : ∃ b, exec (.remoteWriteTimeout tag) s = .next { s with blk := b } := by
  unfold exec execRemoteWriteTimeout; exact State.upd_block ..

theorem exec_commitGate_block (req : Nat) (badPart : Option Nat) (s : State) : ∃ b, exec (.commitGate req badPart) s = .next { s with blk := b } := by
  unfold exec execCommitGate; exact State.upd_block ..

theorem exec_beWithdraw_block (req : Nat) (s : State) : ∃ b, exec (.beWithdraw req) s = .next { s with blk := b } := by
  unfold exec execBeWithdraw; exact State.upd_block ..

theorem exec_charterWithdraw_block (req : Nat) (s : State) : ∃ b, exec (.charterWithdraw req) s = .next { s with blk := b } := by
  unfold exec execCharterWithdraw; exact State.upd_block ..

theorem exec_fillHoldTimeout_block (req : Nat) (s : State) : ∃ b, exec (.fillHoldTimeout req) s = .next { s with blk := b } := by
  unfold exec execFillHoldTimeout; exact State.upd_block ..

theorem exec_partArrive_block (req part : Nat) (s : State) : ∃ b, exec (.partArrive req part) s = .next { s with blk := b } := by
  unfold exec execPartArrive; exact State.upd_block ..

theorem exec_refreshTick_block (ch : ChId) (faultyCa : Option (Fin 13)) (s : State) : ∃ b, exec (.refreshTick ch faultyCa) s = .next { s with blk := b } := by
  unfold exec execRefreshTick; exact State.upd_block ..

theorem exec_refreshPullIn_block (ch : ChId) (faultyCa : Option (Fin 13)) (s : State) : ∃ b, exec (.refreshPullIn ch faultyCa) s = .next { s with blk := b } := by
  unfold exec execRefreshPullIn; exact State.upd_block ..

theorem exec_refpbPass_block (ch : ChId) (completes : Bool) (s : State) : ∃ b, exec (.refpbPass ch completes) s = .next { s with blk := b } := by
  unfold exec execRefpbPass; exact State.upd_block ..

theorem exec_srIdleTimer_block (ch : ChId) (s : State) : ∃ b, exec (.srIdleTimer ch) s = .next { s with blk := b } := by
  unfold exec execSrIdleTimer; exact State.upd_block ..

theorem exec_srEntryDone_block (ch : ChId) (s : State) : ∃ b, exec (.srEntryDone ch) s = .next { s with blk := b } := by
  unfold exec execSrEntryDone; exact State.upd_block ..

theorem exec_srExitDone_block (ch : ChId) (lost : BitVec 64) (edge : List (Nat × Nat)) (s : State) : ∃ b, exec (.srExitDone ch lost edge) s = .next { s with blk := b } := by
  unfold exec execSrExitDone; exact State.upd_block ..

theorem exec_caAlert_block (ch : ChId) (back : Nat) (coils : List (BitVec 4)) (s : State) : ∃ b, exec (.caAlert ch back coils) s = .next { s with blk := b } := by
  unfold exec execCaAlert; exact State.upd_block ..

theorem exec_returnClockLost_block (lost : BitVec 64) (edge : List (Nat × Nat)) (s : State) : ∃ b, exec (.returnClockLost lost edge) s = .next { s with blk := b } := by
  unfold exec execReturnClockLost; exact State.upd_block ..

theorem exec_drstRelease_block (s : State) : ∃ b, exec .drstRelease s = .next { s with blk := b } := by
  unfold exec execDrstRelease; exact State.upd_block ..

theorem exec_dieResetCalDone_block (pass : BitVec 4) (flight : List (Nat × Nat)) (s : State) : ∃ b, exec (.dieResetCalDone pass flight) s = .next { s with blk := b } := by
  unfold exec execDieResetCalDone; exact State.upd_block ..

theorem exec_srstRelease_block (s : State) : ∃ b, exec .srstRelease s = .next { s with blk := b } := by
  unfold exec execSrstRelease; exact State.upd_block ..

theorem exec_stackColumnTestDone_block (pass : BitVec 64) (flight : List (Nat × Nat)) (s : State) : ∃ b, exec (.stackColumnTestDone pass flight) s = .next { s with blk := b } := by
  unfold exec execStackColumnTestDone; exact State.upd_block ..

theorem exec_memRstRelease_block (calPass lost : BitVec 64) (flight : List (Nat × Nat)) (s : State) : ∃ b, exec (.memRstRelease calPass lost flight) s = .next { s with blk := b } := by
  unfold exec execMemRstRelease; exact State.upd_block ..

theorem exec_watchRound_block (r : Readings) (s : State) : ∃ b, exec (.watchRound r) s = .next { s with blk := b } := by
  unfold exec execWatchRound; exact State.upd_block ..

theorem exec_analogueTrip_block (sensor : Fin 56) (s : State) : ∃ b, exec (.analogueTrip sensor) s = .next { s with blk := b } := by
  unfold exec execAnalogueTrip; exact State.upd_block ..

theorem exec_tripRecordDone_block (full : Bool) (s : State) : ∃ b, exec (.tripRecordDone full) s = .next { s with blk := b } := by
  unfold exec execTripRecordDone; exact State.upd_block ..

theorem exec_shortfallPassDone_block (s : State) : ∃ b, exec .shortfallPassDone s = .next { s with blk := b } := by
  unfold exec execShortfallPassDone; exact State.upd_block ..

theorem exec_restorePass_block (s : State) : ∃ b, exec .restorePass s = .next { s with blk := b } := by
  unfold exec execRestorePass; exact State.upd_block ..

theorem exec_charterCloseDone_block (idx : BitVec 12) (s : State) : ∃ b, exec (.charterCloseDone idx) s = .next { s with blk := b } := by
  unfold exec execCharterCloseDone; exact State.upd_block ..

theorem exec_calibrationDone_block (cls : Fin 3) (unit : Fin 64) (pass : Bool) (flight : Nat) (s : State) : ∃ b, exec (.calibrationDone cls unit pass flight) s = .next { s with blk := b } := by
  unfold exec execCalibrationDone; exact State.upd_block ..

theorem exec_calRetry_block (cls : Fin 3) (unit : Fin 64) (pass : Bool) (flight : Nat) (s : State) : ∃ b, exec (.calRetry cls unit pass flight) s = .next { s with blk := b } := by
  unfold exec execCalRetry; exact State.upd_block ..

theorem exec_surveyRunDone_block (f : SurveyFindings) (s : State) : ∃ b, exec (.surveyRunDone f) s = .next { s with blk := b } := by
  unfold exec execSurveyRunDone; exact State.upd_block ..

theorem exec_snapshotStrobe_block (s : State) : ∃ b, exec .snapshotStrobe s = .next { s with blk := b } := by
  unfold exec execSnapshotStrobe; exact State.upd_block ..

theorem exec_snapshotDone_block (s : State) : ∃ b, exec .snapshotDone s = .next { s with blk := b } := by
  unfold exec execSnapshotDone; exact State.upd_block ..

theorem exec_bwWindowEnd_block (s : State) : ∃ b, exec .bwWindowEnd s = .next { s with blk := b } := by
  unfold exec execBwWindowEnd; exact State.upd_block ..

theorem exec_manifestFragment_block (sd : Side) (f : Flit) (s : State) : ∃ b, exec (.manifestFragment sd f) s = .next { s with blk := b } := by
  unfold exec execManifestFragment; exact State.upd_block ..

theorem exec_reassemblyTimeout_block (sd : Side) (src : BitVec 15) (tag : BitVec 16) (s : State) : ∃ b, exec (.reassemblyTimeout sd src tag) s = .next { s with blk := b } := by
  unfold exec execReassemblyTimeout; exact State.upd_block ..

theorem exec_mfMboxDoor_block (p : Path) (value : Word) (s : State) : ∃ b, exec (.mfMboxDoor p value) s = .next { s with blk := b } := by
  unfold exec execMfMboxDoor; exact State.upd_block ..

theorem exec_manifestTimeout_block (m : ManRef) (s : State) : ∃ b, exec (.manifestTimeout m) s = .next { s with blk := b } := by
  unfold exec execManifestTimeout; exact State.upd_block ..

theorem exec_pierInfo_block (m : ManRef) (s : State) : ∃ b, exec (.pierInfo m) s = .next { s with blk := b } := by
  unfold exec execPierInfo; exact State.man_block ..

theorem exec_setPierId_block (m : ManRef) (id : BitVec 16) (s : State) : ∃ b, exec (.setPierId m id) s = .next { s with blk := b } := by
  unfold exec execSetPierId; exact State.man_block ..

theorem exec_routeSet_block (m : ManRef) (first : Fin 256) (entries : List Word) (s : State) : ∃ b, exec (.routeSet m first entries) s = .next { s with blk := b } := by
  unfold exec execRouteSet; exact State.man_block ..

theorem exec_regionSet_block (m : ManRef) (first : Fin 64) (entries : List RegionImage) (s : State) : ∃ b, exec (.regionSet m first entries) s = .next { s with blk := b } := by
  unfold exec execRegionSet; exact State.man_block ..

theorem exec_keyLoad_block (m : ManRef) (k : KeyLoadParams) (s : State) : ∃ b, exec (.keyLoad m k) s = .next { s with blk := b } := by
  unfold exec execKeyLoad; exact State.man_block ..

theorem exec_charterOpen_block (m : ManRef) (d : CharterDesc) (s : State) : ∃ b, exec (.charterOpen m d) s = .next { s with blk := b } := by
  unfold exec execCharterOpen; exact State.man_block ..

theorem exec_charterClose_block (m : ManRef) (idx : BitVec 16) (s : State) : ∃ b, exec (.charterClose m idx) s = .next { s with blk := b } := by
  unfold exec execCharterClose; exact State.man_block ..

theorem exec_charterQuery_block (m : ManRef) (idx : BitVec 16) (s : State) : ∃ b, exec (.charterQuery m idx) s = .next { s with blk := b } := by
  unfold exec execCharterQuery; exact State.man_block ..

theorem exec_scrubRange_block (m : ManRef) (start len : BitVec 64) (flags : BitVec 32) (s : State) : ∃ b, exec (.scrubRange m start len flags) s = .next { s with blk := b } := by
  unfold exec execScrubRange; exact State.man_block ..

theorem exec_fillStatus_block (m : ManRef) (s : State) : ∃ b, exec (.fillStatus m) s = .next { s with blk := b } := by
  unfold exec execFillStatus; exact State.man_block ..

theorem exec_surveyRun_block (m : ManRef) (scope mode : BitVec 8) (mask : BitVec 64) (s : State) : ∃ b, exec (.surveyRun m scope mode mask) s = .next { s with blk := b } := by
  unfold exec execSurveyRun; exact State.man_block ..

theorem exec_calRun_block (m : ManRef) (cls : BitVec 8) (mask : BitVec 64) (s : State) : ∃ b, exec (.calRun m cls mask) s = .next { s with blk := b } := by
  unfold exec execCalRun; exact State.man_block ..

theorem exec_calStatus_block (m : ManRef) (cls unit : BitVec 8) (s : State) : ∃ b, exec (.calStatus m cls unit) s = .next { s with blk := b } := by
  unfold exec execCalStatus; exact State.man_block ..

theorem exec_laneStatus_block (m : ManRef) (side : BitVec 8) (s : State) : ∃ b, exec (.laneStatus m side) s = .next { s with blk := b } := by
  unfold exec execLaneStatus; exact State.man_block ..

theorem exec_laneRetrain_block (m : ManRef) (side mode : BitVec 8) (mask : BitVec 16) (s : State) : ∃ b, exec (.laneRetrain m side mode mask) s = .next { s with blk := b } := by
  unfold exec execLaneRetrain; exact State.man_block ..

theorem exec_lanePrbs_block (m : ManRef) (side lane pattern : BitVec 8) (ms : BitVec 16) (s : State) : ∃ b, exec (.lanePrbs m side lane pattern ms) s = .next { s with blk := b } := by
  unfold exec execLanePrbs; exact State.man_block ..

theorem exec_clockSwitch_block (m : ManRef) (dom src : BitVec 8) (oldDead : Bool) (s : State) : ∃ b, exec (.clockSwitch m dom src oldDead) s = .next { s with blk := b } := by
  unfold exec execClockSwitch; exact State.man_block ..

theorem exec_sscSet_block (m : ManRef) (side depth rate flags : BitVec 8) (s : State) : ∃ b, exec (.sscSet m side depth rate flags) s = .next { s with blk := b } := by
  unfold exec execSscSet; exact State.man_block ..

theorem exec_powerDomain_block (m : ManRef) (dom action : BitVec 8) (s : State) : ∃ b, exec (.powerDomain m dom action) s = .next { s with blk := b } := by
  unfold exec execPowerDomain; exact State.man_block ..

theorem exec_thermStatus_block (m : ManRef) (s : State) : ∃ b, exec (.thermStatus m) s = .next { s with blk := b } := by
  unfold exec execThermStatus; exact State.man_block ..

theorem exec_sensorReplace_block (m : ManRef) (sensor action floor : BitVec 8) (s : State) : ∃ b, exec (.sensorReplace m sensor action floor) s = .next { s with blk := b } := by
  unfold exec execSensorReplace; exact State.man_block ..

theorem exec_tallyConfig_block (m : ManRef) (block counter : BitVec 8) (sel : BitVec 16) (s : State) : ∃ b, exec (.tallyConfig m block counter sel) s = .next { s with blk := b } := by
  unfold exec execTallyConfig; exact State.man_block ..

theorem exec_dumpConfig_block (m : ManRef) (d : DumpParams) (s : State) : ∃ b, exec (.dumpConfig m d) s = .next { s with blk := b } := by
  unfold exec execDumpConfig; exact State.man_block ..

theorem exec_logRead_block (m : ManRef) (area : BitVec 8) (count : BitVec 16) (first : BitVec 32) (s : State) : ∃ b, exec (.logRead m area count first) s = .next { s with blk := b } := by
  unfold exec execLogRead; exact State.man_block ..

theorem exec_tripAck_block (m : ManRef) (tide : BitVec 64) (s : State) : ∃ b, exec (.tripAck m tide) s = .next { s with blk := b } := by
  unfold exec execTripAck; exact State.man_block ..

theorem exec_stackDieReset_block (m : ManRef) (die : BitVec 8) (s : State) : ∃ b, exec (.stackDieReset m die) s = .next { s with blk := b } := by
  unfold exec execStackDieReset; exact State.man_block ..

theorem exec_stackReset_block (m : ManRef) (s : State) : ∃ b, exec (.stackReset m) s = .next { s with blk := b } := by
  unfold exec execStackReset; exact State.man_block ..

theorem exec_shutdown_block (m : ManRef) (noSurvey : Bool) (s : State) : ∃ b, exec (.shutdown m noSurvey) s = .next { s with blk := b } := by
  unfold exec execShutdown; exact State.man_block ..

theorem exec_recover_block (m : ManRef) (action : BitVec 8) (s : State) : ∃ b, exec (.recover m action) s = .next { s with blk := b } := by
  unfold exec execRecover; exact State.man_block ..

theorem exec_fwUpdateBegin_block (m : ManRef) (total : BitVec 32) (s : State) : ∃ b, exec (.fwUpdateBegin m total) s = .next { s with blk := b } := by
  unfold exec execFwUpdateBegin; exact State.man_block ..

theorem exec_fwUpdateData_block (m : ManRef) (offset : BitVec 32) (bytes : List Byte) (s : State) : ∃ b, exec (.fwUpdateData m offset bytes) s = .next { s with blk := b } := by
  unfold exec execFwUpdateData; exact State.man_block ..

theorem exec_fwUpdateCommit_block (m : ManRef) (root : BitVec 384) (s : State) : ∃ b, exec (.fwUpdateCommit m root) s = .next { s with blk := b } := by
  unfold exec execFwUpdateCommit; exact State.man_block ..

theorem exec_fwUpdateAbort_block (m : ManRef) (s : State) : ∃ b, exec (.fwUpdateAbort m) s = .next { s with blk := b } := by
  unfold exec execFwUpdateAbort; exact State.man_block ..

theorem exec_fwSessionTimeout_block (s : State) : ∃ b, exec .fwSessionTimeout s = .next { s with blk := b } := by
  unfold exec execFwSessionTimeout; exact State.upd_block ..

theorem exec_quiesceDone_block (s : State) : ∃ b, exec .quiesceDone s = .next { s with blk := b } := by
  unfold exec execQuiesceDone; exact State.upd_block ..

theorem exec_departureSurveyDone_block (f : SurveyFindings) (s : State) : ∃ b, exec (.departureSurveyDone f) s = .next { s with blk := b } := by
  unfold exec execDepartureSurveyDone; exact State.upd_block ..

theorem exec_chartWriteDone_block (s : State) : ∃ b, exec .chartWriteDone s = .next { s with blk := b } := by
  unfold exec execChartWriteDone; exact State.upd_block ..

theorem exec_departureReady_block (s : State) : ∃ b, exec .departureReady s = .next { s with blk := b } := by
  unfold exec execDepartureReady; exact State.upd_block ..

theorem exec_scanEnter_block (testMode : Bool) (s : State) : ∃ b, exec (.scanEnter testMode) s = .next { s with blk := b } := by
  unfold exec execScanEnter; exact State.upd_block ..

theorem exec_zeroizeDone_block (pass : Bool) (s : State) : ∃ b, exec (.zeroizeDone pass) s = .next { s with blk := b } := by
  unfold exec execZeroizeDone; exact State.upd_block ..

theorem exec_frzCapture_block (index : BitVec 16) (s : State) : ∃ b, exec (.frzCapture index) s = .next { s with blk := b } := by
  unfold exec execFrzCapture; exact State.upd_block ..

theorem exec_csrAcc_block (dr : BitVec 57) (s : State) : ∃ b, exec (.csrAcc dr) s = .next { s with blk := b } := by
  unfold exec execCsrAcc; exact State.upd_block ..

theorem exec_rcRead_block (p : Path) (offset : BitVec 24) (events : Word) (s : State) : ∃ b, exec (.rcRead p offset events) s = .next { s with blk := b } := by
  unfold exec execRcRead; exact State.upd_block ..

theorem exec_captureLoRead_block (p : Path) (offset : BitVec 24) (s : State) : ∃ b, exec (.captureLoRead p offset) s = .next { s with blk := b } := by
  unfold exec execCaptureLoRead; exact State.upd_block ..

theorem exec_rcptWindowRead_block (p : Path) (s : State) : ∃ b, exec (.rcptWindowRead p) s = .next { s with blk := b } := by
  unfold exec execRcptWindowRead; exact State.upd_block ..

theorem exec_csrWrite_block (w : RegWrite) (s : State) : ∃ b, exec (.csrWrite w) s = .next { s with blk := b } := by
  unfold exec execCsrWrite; exact State.upd_block ..

theorem exec_txFfeWrite_block (p : Path) (ln : LaneId) (value : Word) (s : State) : ∃ b, exec (.txFfeWrite p ln value) s = .next { s with blk := b } := by
  unfold exec execTxFfeWrite; exact State.upd_block ..

theorem exec_laneEnableWrite_block (p : Path) (ln : LaneId) (value : Word) (s : State) : ∃ b, exec (.laneEnableWrite p ln value) s = .next { s with blk := b } := by
  unfold exec execLaneEnableWrite; exact State.upd_block ..

theorem exec_prbsTxEn_block (p : Path) (ln : LaneId) (value : Word) (s : State) : ∃ b, exec (.prbsTxEn p ln value) s = .next { s with blk := b } := by
  unfold exec execPrbsTxEn; exact State.upd_block ..

theorem exec_prbsRxEn_block (p : Path) (ln : LaneId) (value : Word) (s : State) : ∃ b, exec (.prbsRxEn p ln value) s = .next { s with blk := b } := by
  unfold exec execPrbsRxEn; exact State.upd_block ..

theorem exec_lnCntClr_block (p : Path) (ln : LaneId) (s : State) : ∃ b, exec (.lnCntClr p ln) s = .next { s with blk := b } := by
  unfold exec execLnCntClr; exact State.upd_block ..

theorem exec_lnPrbsClr_block (p : Path) (ln : LaneId) (s : State) : ∃ b, exec (.lnPrbsClr p ln) s = .next { s with blk := b } := by
  unfold exec execLnPrbsClr; exact State.upd_block ..

theorem exec_fwCntClr_block (p : Path) (s : State) : ∃ b, exec (.fwCntClr p) s = .next { s with blk := b } := by
  unfold exec execFwCntClr; exact State.upd_block ..

theorem exec_qyCntClr_block (p : Path) (s : State) : ∃ b, exec (.qyCntClr p) s = .next { s with blk := b } := by
  unfold exec execQyCntClr; exact State.upd_block ..

theorem exec_tableLock_block (p : Path) (s : State) : ∃ b, exec (.tableLock p) s = .next { s with blk := b } := by
  unfold exec execTableLock; exact State.upd_block ..

theorem exec_mfLock_block (p : Path) (value : Word) (s : State) : ∃ b, exec (.mfLock p value) s = .next { s with blk := b } := by
  unfold exec execMfLock; exact State.upd_block ..

theorem exec_beTagsWrite_block (p : Path) (value : Word) (s : State) : ∃ b, exec (.beTagsWrite p value) s = .next { s with blk := b } := by
  unfold exec execBeTagsWrite; exact State.upd_block ..

theorem exec_chCntClr_block (p : Path) (s : State) : ∃ b, exec (.chCntClr p) s = .next { s with blk := b } := by
  unfold exec execChCntClr; exact State.upd_block ..

theorem exec_btCntClr_block (p : Path) (ch : ChId) (s : State) : ∃ b, exec (.btCntClr p ch) s = .next { s with blk := b } := by
  unfold exec execBtCntClr; exact State.upd_block ..

theorem exec_dcCntClr_block (p : Path) (s : State) : ∃ b, exec (.dcCntClr p) s = .next { s with blk := b } := by
  unfold exec execDcCntClr; exact State.upd_block ..

theorem exec_stCntClr_block (p : Path) (s : State) : ∃ b, exec (.stCntClr p) s = .next { s with blk := b } := by
  unfold exec execStCntClr; exact State.upd_block ..

theorem exec_fenceClr_block (p : Path) (s : State) : ∃ b, exec (.fenceClr p) s = .next { s with blk := b } := by
  unfold exec execFenceClr; exact State.upd_block ..

theorem exec_prCntClr_block (p : Path) (s : State) : ∃ b, exec (.prCntClr p) s = .next { s with blk := b } := by
  unfold exec execPrCntClr; exact State.upd_block ..

theorem exec_errClr_block (p : Path) (s : State) : ∃ b, exec (.errClr p) s = .next { s with blk := b } := by
  unfold exec execErrClr; exact State.upd_block ..

theorem exec_prErrRdWrite_block (p : Path) (value : Word) (s : State) : ∃ b, exec (.prErrRdWrite p value) s = .next { s with blk := b } := by
  unfold exec execPrErrRdWrite; exact State.upd_block ..

theorem exec_ksLoad_block (p : Path) (value : Word) (s : State) : ∃ b, exec (.ksLoad p value) s = .next { s with blk := b } := by
  unfold exec execKsLoad; exact State.upd_block ..

theorem exec_ksErase_block (p : Path) (value : Word) (s : State) : ∃ b, exec (.ksErase p value) s = .next { s with blk := b } := by
  unfold exec execKsErase; exact State.upd_block ..

theorem exec_ksZeroize_block (p : Path) (s : State) : ∃ b, exec (.ksZeroize p) s = .next { s with blk := b } := by
  unfold exec execKsZeroize; exact State.upd_block ..

theorem exec_memRst_block (p : Path) (s : State) : ∃ b, exec (.memRst p) s = .next { s with blk := b } := by
  unfold exec execMemRst; exact State.upd_block ..

theorem exec_reseed_block (p : Path) (s : State) : ∃ b, exec (.reseed p) s = .next { s with blk := b } := by
  unfold exec execReseed; exact State.upd_block ..

theorem exec_logClr_block (p : Path) (s : State) : ∃ b, exec (.logClr p) s = .next { s with blk := b } := by
  unfold exec execLogClr; exact State.upd_block ..

theorem exec_tlCntClr_block (p : Path) (s : State) : ∃ b, exec (.tlCntClr p) s = .next { s with blk := b } := by
  unfold exec execTlCntClr; exact State.upd_block ..

theorem exec_snap_block (p : Path) (s : State) : ∃ b, exec (.snap p) s = .next { s with blk := b } := by
  unfold exec execSnap; exact State.upd_block ..

theorem exec_tlEvselWrite_block (p : Path) (block : Fin 69) (j : Fin 4) (value : Word) (s : State) : ∃ b, exec (.tlEvselWrite p block j value) s = .next { s with blk := b } := by
  unfold exec execTlEvselWrite; exact State.upd_block ..

theorem exec_lanePllLock_block (sd : Side) (s : State) : ∃ b, exec (.lanePllLock sd) s = .next { s with blk := b } := by
  unfold exec execLanePllLock; exact State.upd_block ..

theorem exec_crystalRestartDone_block (ok : Bool) (s : State) : ∃ b, exec (.crystalRestartDone ok) s = .next { s with blk := b } := by
  unfold exec execCrystalRestartDone; exact State.upd_block ..

theorem exec_flashOperationDone_block (s : State) : ∃ b, exec .flashOperationDone s = .next { s with blk := b } := by
  unfold exec execFlashOperationDone; exact State.upd_block ..

theorem exec_fomMeasureDone_block (ln : LaneId) (fom : Nat) (ctle : BitVec 4) (ffe : List (BitVec 8)) (dfe : BitVec 7) (s : State) : ∃ b, exec (.fomMeasureDone ln fom ctle ffe dfe) s = .next { s with blk := b } := by
  unfold exec execFomMeasureDone; exact State.upd_block ..

theorem exec_prbsSync_block (ln : LaneId) (rx : List Bool) (s : State) : ∃ b, exec (.prbsSync ln rx) s = .next { s with blk := b } := by
  unfold exec execPrbsSync; exact State.upd_block ..

theorem exec_prbsSyncLost_block (ln : LaneId) (rx : List Bool) (s : State) : ∃ b, exec (.prbsSyncLost ln rx) s = .next { s with blk := b } := by
  unfold exec execPrbsSyncLost; exact State.upd_block ..

theorem exec_prbsSaturated_block (ln : LaneId) (bits errors : BitVec 48) (s : State) : ∃ b, exec (.prbsSaturated ln bits errors) s = .next { s with blk := b } := by
  unfold exec execPrbsSaturated; exact State.upd_block ..

/-! ### The commands that reach the stored symbols -/

theorem State.coreFails_cells (s : State) (f : Block → Block) :
    ∃ b, s.coreFails f = .next { s with mem := cutBursts s.mem s.blk.fresh s.blk.cutGranules, blk := b } := ⟨_, rfl⟩

theorem exec_xtalFail_cells (aonDead hkDead : Bool) (s : State) :
    ∃ m b, exec (.xtalFail aonDead hkDead) s = .next { s with mem := m, blk := b }
      ∧ (m = s.mem ∨ m = cutBursts s.mem s.blk.fresh s.blk.cutGranules) := by
  have e : exec (.xtalFail aonDead hkDead) s = execXtalFail aonDead hkDead s := rfl
  rw [e]; unfold execXtalFail
  split
  · exact ⟨_, _, rfl, .inr rfl⟩
  · exact ⟨_, _, rfl, .inl rfl⟩

theorem exec_rootLost_cells (aonDead hkDead : Bool) (s : State) :
    ∃ m b, exec (.rootLost aonDead hkDead) s = .next { s with mem := m, blk := b }
      ∧ (m = s.mem ∨ m = cutBursts s.mem s.blk.fresh s.blk.cutGranules) := by
  have e : exec (.rootLost aonDead hkDead) s = execRootLost aonDead hkDead s := rfl
  rw [e]; unfold execRootLost
  split
  · exact ⟨_, _, rfl, .inr rfl⟩
  · exact ⟨_, _, rfl, .inl rfl⟩

theorem exec_railUv_cells (r : Rail) (s : State) :
    ∃ m b, exec (.railUv r) s = .next { s with mem := m, blk := b }
      ∧ (m = s.mem ∨ (r = .core ∧ m = cutBursts s.mem s.blk.fresh s.blk.cutGranules)) := by
  have e : exec (.railUv r) s = execRailUv r s := rfl
  rw [e]; unfold execRailUv
  split
  · exact ⟨_, _, rfl, .inl rfl⟩
  · split
    · exact ⟨_, _, rfl, .inl rfl⟩
    · cases r <;> dsimp only
      case core =>
        split
        · exact ⟨_, _, rfl, .inr ⟨rfl, rfl⟩⟩
        · exact ⟨_, _, rfl, .inl rfl⟩
      all_goals exact ⟨_, _, rfl, .inl rfl⟩

theorem exec_channelFillDone_cells (ch : ChId) (s : State) :
    ∃ m b, exec (.channelFillDone ch) s = .next { s with mem := m, blk := b }
      ∧ (m = s.mem ∨ m = clearChannel s.mem ch) := by
  have e : exec (.channelFillDone ch) s = execChannelFillDone ch s := rfl
  rw [e]; unfold execChannelFillDone
  split
  · exact ⟨_, _, rfl, .inr rfl⟩
  · exact ⟨_, _, rfl, .inl rfl⟩

theorem exec_partDone_cells (req part : Nat) (dmg : List Damage) (pe : Bool) (s : State) :
    ∃ b, exec (.partDone req part dmg pe) s =
      .next { s with mem := s.blk.memAfterPart s.mem req part dmg, blk := b } := by
  have e : exec (.partDone req part dmg pe) s = execPartDone req part dmg pe s := rfl
  rw [e]; unfold execPartDone; exact ⟨_, rfl⟩

theorem exec_scrubDone_cells (dmg : List Damage) (s : State) :
    ∃ m b, exec (.scrubDone dmg) s = .next { s with mem := m, blk := b }
      ∧ (m = s.mem ∨ m = ((List.range 64).foldl (fun (acc : List Host.Cell × Block) n => scrubRest acc.1 acc.2 dmg n)
        (s.mem, s.blk)).1) := by
  have e : exec (.scrubDone dmg) s = execScrubDone dmg s := rfl
  rw [e]; unfold execScrubDone
  split
  · exact ⟨_, _, rfl, .inr rfl⟩
  · exact ⟨_, _, rfl, .inl rfl⟩

theorem exec_commandIssue_cells (ch : ChId) (dmg : List Damage) (faultyCa : Option (Fin 13)) (pe : Bool) (s : State) :
    exec (.commandIssue ch dmg faultyCa pe) s = .fault .noSuchGranule
      ∨ ∃ m b, exec (.commandIssue ch dmg faultyCa pe) s = .next { s with mem := m, blk := b }
        ∧ (m = s.mem ∨ ∃ b2 c, c.acc.gran < granules ∧ m = (runCmd s.mem b2 ch c dmg faultyCa pe).1) := by
  have e : exec (.commandIssue ch dmg faultyCa pe) s = execCommandIssue ch dmg faultyCa pe s := rfl
  rw [e]; unfold execCommandIssue
  dsimp only
  split
  · exact .inr ⟨_, _, rfl, .inl rfl⟩
  · split
    · exact .inr ⟨_, _, rfl, .inl rfl⟩
    · split
      · exact .inl rfl
      · rename_i h
        exact .inr ⟨_, _, rfl, .inr ⟨_, _, Nat.lt_of_not_le h, rfl⟩⟩

end Sys2Proof.Machine
end

