-- ==== Sys2Proof/Laws/Flits.lean ====
section
/-! SUPPORT. The classes of a flit: what its originator sealed is good, what a pier stomped is stomped (R147, R149). -/

namespace Sys2Proof.Machine

open Sys2Proof

theorem flitBytes_crc (f : Flit) (c : BitVec 64) : flitBytes { f with crc := c } = flitBytes f := rfl

theorem flitCrc_crc (f : Flit) (c : BitVec 64) : flitCrc { f with crc := c } = flitCrc f :=
  congrArg crc64 (flitBytes_crc f c)

@[simp] theorem classify_sealFlit (f : Flit) : classify (sealFlit f) false false = .good := by
  have h : (sealFlit f).crc = flitCrc (sealFlit f) := (flitCrc_crc f _).symm
  simp [classify, h]

@[simp] theorem classify_stomp (f : Flit) (parityErr : Bool) : classify (stomp f) false parityErr = .stomped := by
  have h : (stomp f).crc = ~~~ flitCrc (stomp f) := congrArg (~~~ ·) (flitCrc_crc f _).symm
  simp [classify, h]

@[simp] theorem classify_marked (f : Flit) (parityErr : Bool) : classify f true parityErr = .bad := rfl

/-- A sealed flit handed over whole is good. -/
@[simp] theorem arrivalClass_sealFlit (f : Flit) : arrivalClass (sealFlit f) [] false [] = .good := classify_sealFlit f

/-- A stomped flit handed over whole is stomped. -/
@[simp] theorem arrivalClass_stomp (f : Flit) : arrivalClass (stomp f) [] false [] = .stomped := classify_stomp f false

/-- A flit of which a block was not delivered is bad. -/
@[simp] theorem arrivalClass_gone (f : Flit) (k : Fin 9) (ks : List (Fin 9)) (parityErr : Bool) (cws : List Codeword) :
    arrivalClass f (k :: ks) parityErr cws = .bad := by simp [arrivalClass, classify]

end Sys2Proof.Machine
end

