-- ==== Sys2Proof/Laws/State.lean ====
section
/-! SUPPORT. What each update of the block leaves alone: one lemma per field and update, so that no proof needs the
record updates themselves; and, for the operations with cases, one lemma that says everything they can change. -/

namespace Sys2Proof.Machine

open Sys2Proof

set_option Elab.async false

theorem Block.with_lanes_fresh (b : Block) (x : Tbl Lane) : (Block.fresh { b with lanes := x }) = b.fresh := rfl
theorem Block.with_lanes_csr (b : Block) (x : Tbl Lane) : (Block.csr { b with lanes := x }) = b.csr := rfl
theorem Block.with_lanes_cnt (b : Block) (x : Tbl Lane) : (Block.cnt { b with lanes := x }) = b.cnt := rfl
theorem Block.with_lanes_sel (b : Block) (x : Tbl Lane) : (Block.sel { b with lanes := x }) = b.sel := rfl
theorem Block.with_lanes_hold (b : Block) (x : Tbl Lane) : (Block.hold { b with lanes := x }) = b.hold := rfl
theorem Block.with_lanes_rdData (b : Block) (x : Tbl Lane) : (Block.rdData { b with lanes := x }) = b.rdData := rfl
theorem Block.with_lanes_jtagDr (b : Block) (x : Tbl Lane) : (Block.jtagDr { b with lanes := x }) = b.jtagDr := rfl
theorem Block.with_lanes_frzOut (b : Block) (x : Tbl Lane) : (Block.frzOut { b with lanes := x }) = b.frzOut := rfl
theorem Block.with_lanes_pins (b : Block) (x : Tbl Lane) : (Block.pins { b with lanes := x }) = b.pins := rfl
theorem Block.with_lanes_pw (b : Block) (x : Tbl Lane) : (Block.pw { b with lanes := x }) = b.pw := rfl
theorem Block.with_lanes_ck (b : Block) (x : Tbl Lane) : (Block.ck { b with lanes := x }) = b.ck := rfl
theorem Block.with_lanes_west (b : Block) (x : Tbl Lane) : (Block.west { b with lanes := x }) = b.west := rfl
theorem Block.with_lanes_east (b : Block) (x : Tbl Lane) : (Block.east { b with lanes := x }) = b.east := rfl
theorem Block.with_lanes_fwWE (b : Block) (x : Tbl Lane) : (Block.fwWE { b with lanes := x }) = b.fwWE := rfl
theorem Block.with_lanes_fwEW (b : Block) (x : Tbl Lane) : (Block.fwEW { b with lanes := x }) = b.fwEW := rfl
theorem Block.with_lanes_qy (b : Block) (x : Tbl Lane) : (Block.qy { b with lanes := x }) = b.qy := rfl
theorem Block.with_lanes_chs (b : Block) (x : Tbl Lane) : (Block.chs { b with lanes := x }) = b.chs := rfl
theorem Block.with_lanes_berths (b : Block) (x : Tbl Lane) : (Block.berths { b with lanes := x }) = b.berths := rfl
theorem Block.with_lanes_chans (b : Block) (x : Tbl Lane) : (Block.chans { b with lanes := x }) = b.chans := rfl
theorem Block.with_lanes_cols (b : Block) (x : Tbl Lane) : (Block.cols { b with lanes := x }) = b.cols := rfl
theorem Block.with_lanes_stk (b : Block) (x : Tbl Lane) : (Block.stk { b with lanes := x }) = b.stk := rfl
theorem Block.with_lanes_keys (b : Block) (x : Tbl Lane) : (Block.keys { b with lanes := x }) = b.keys := rfl
theorem Block.with_lanes_prot (b : Block) (x : Tbl Lane) : (Block.prot { b with lanes := x }) = b.prot := rfl
theorem Block.with_lanes_mf (b : Block) (x : Tbl Lane) : (Block.mf { b with lanes := x }) = b.mf := rfl
theorem Block.with_lanes_heat (b : Block) (x : Tbl Lane) : (Block.heat { b with lanes := x }) = b.heat := rfl
theorem Block.with_lanes_sv (b : Block) (x : Tbl Lane) : (Block.sv { b with lanes := x }) = b.sv := rfl
theorem Block.with_lanes_tl (b : Block) (x : Tbl Lane) : (Block.tl { b with lanes := x }) = b.tl := rfl
theorem Block.with_lanes_lg (b : Block) (x : Tbl Lane) : (Block.lg { b with lanes := x }) = b.lg := rfl

@[simp] theorem Block.setLane_fresh (b : Block) (n : Nat) (v : Lane) : (b.setLane n v).fresh = b.fresh := Block.with_lanes_fresh b _
@[simp] theorem Block.setLane_csr (b : Block) (n : Nat) (v : Lane) : (b.setLane n v).csr = b.csr := Block.with_lanes_csr b _
@[simp] theorem Block.setLane_cnt (b : Block) (n : Nat) (v : Lane) : (b.setLane n v).cnt = b.cnt := Block.with_lanes_cnt b _
@[simp] theorem Block.setLane_sel (b : Block) (n : Nat) (v : Lane) : (b.setLane n v).sel = b.sel := Block.with_lanes_sel b _
@[simp] theorem Block.setLane_hold (b : Block) (n : Nat) (v : Lane) : (b.setLane n v).hold = b.hold := Block.with_lanes_hold b _
@[simp] theorem Block.setLane_rdData (b : Block) (n : Nat) (v : Lane) : (b.setLane n v).rdData = b.rdData := Block.with_lanes_rdData b _
@[simp] theorem Block.setLane_jtagDr (b : Block) (n : Nat) (v : Lane) : (b.setLane n v).jtagDr = b.jtagDr := Block.with_lanes_jtagDr b _
@[simp] theorem Block.setLane_frzOut (b : Block) (n : Nat) (v : Lane) : (b.setLane n v).frzOut = b.frzOut := Block.with_lanes_frzOut b _
@[simp] theorem Block.setLane_pins (b : Block) (n : Nat) (v : Lane) : (b.setLane n v).pins = b.pins := Block.with_lanes_pins b _
@[simp] theorem Block.setLane_pw (b : Block) (n : Nat) (v : Lane) : (b.setLane n v).pw = b.pw := Block.with_lanes_pw b _
@[simp] theorem Block.setLane_ck (b : Block) (n : Nat) (v : Lane) : (b.setLane n v).ck = b.ck := Block.with_lanes_ck b _
@[simp] theorem Block.setLane_west (b : Block) (n : Nat) (v : Lane) : (b.setLane n v).west = b.west := Block.with_lanes_west b _
@[simp] theorem Block.setLane_east (b : Block) (n : Nat) (v : Lane) : (b.setLane n v).east = b.east := Block.with_lanes_east b _
@[simp] theorem Block.setLane_fwWE (b : Block) (n : Nat) (v : Lane) : (b.setLane n v).fwWE = b.fwWE := Block.with_lanes_fwWE b _
@[simp] theorem Block.setLane_fwEW (b : Block) (n : Nat) (v : Lane) : (b.setLane n v).fwEW = b.fwEW := Block.with_lanes_fwEW b _
@[simp] theorem Block.setLane_qy (b : Block) (n : Nat) (v : Lane) : (b.setLane n v).qy = b.qy := Block.with_lanes_qy b _
@[simp] theorem Block.setLane_chs (b : Block) (n : Nat) (v : Lane) : (b.setLane n v).chs = b.chs := Block.with_lanes_chs b _
@[simp] theorem Block.setLane_berths (b : Block) (n : Nat) (v : Lane) : (b.setLane n v).berths = b.berths := Block.with_lanes_berths b _
@[simp] theorem Block.setLane_chans (b : Block) (n : Nat) (v : Lane) : (b.setLane n v).chans = b.chans := Block.with_lanes_chans b _
@[simp] theorem Block.setLane_cols (b : Block) (n : Nat) (v : Lane) : (b.setLane n v).cols = b.cols := Block.with_lanes_cols b _
@[simp] theorem Block.setLane_stk (b : Block) (n : Nat) (v : Lane) : (b.setLane n v).stk = b.stk := Block.with_lanes_stk b _
@[simp] theorem Block.setLane_keys (b : Block) (n : Nat) (v : Lane) : (b.setLane n v).keys = b.keys := Block.with_lanes_keys b _
@[simp] theorem Block.setLane_prot (b : Block) (n : Nat) (v : Lane) : (b.setLane n v).prot = b.prot := Block.with_lanes_prot b _
@[simp] theorem Block.setLane_mf (b : Block) (n : Nat) (v : Lane) : (b.setLane n v).mf = b.mf := Block.with_lanes_mf b _
@[simp] theorem Block.setLane_heat (b : Block) (n : Nat) (v : Lane) : (b.setLane n v).heat = b.heat := Block.with_lanes_heat b _
@[simp] theorem Block.setLane_sv (b : Block) (n : Nat) (v : Lane) : (b.setLane n v).sv = b.sv := Block.with_lanes_sv b _
@[simp] theorem Block.setLane_tl (b : Block) (n : Nat) (v : Lane) : (b.setLane n v).tl = b.tl := Block.with_lanes_tl b _
@[simp] theorem Block.setLane_lg (b : Block) (n : Nat) (v : Lane) : (b.setLane n v).lg = b.lg := Block.with_lanes_lg b _

@[simp] theorem Block.modLane_fresh (b : Block) (n : Nat) (f : Lane → Lane) : (b.modLane n f).fresh = b.fresh := by rw [Block.modLane, Block.setLane_fresh]
@[simp] theorem Block.modLane_csr (b : Block) (n : Nat) (f : Lane → Lane) : (b.modLane n f).csr = b.csr := by rw [Block.modLane, Block.setLane_csr]
@[simp] theorem Block.modLane_cnt (b : Block) (n : Nat) (f : Lane → Lane) : (b.modLane n f).cnt = b.cnt := by rw [Block.modLane, Block.setLane_cnt]
@[simp] theorem Block.modLane_sel (b : Block) (n : Nat) (f : Lane → Lane) : (b.modLane n f).sel = b.sel := by rw [Block.modLane, Block.setLane_sel]
@[simp] theorem Block.modLane_hold (b : Block) (n : Nat) (f : Lane → Lane) : (b.modLane n f).hold = b.hold := by rw [Block.modLane, Block.setLane_hold]
@[simp] theorem Block.modLane_rdData (b : Block) (n : Nat) (f : Lane → Lane) : (b.modLane n f).rdData = b.rdData := by rw [Block.modLane, Block.setLane_rdData]
@[simp] theorem Block.modLane_jtagDr (b : Block) (n : Nat) (f : Lane → Lane) : (b.modLane n f).jtagDr = b.jtagDr := by rw [Block.modLane, Block.setLane_jtagDr]
@[simp] theorem Block.modLane_frzOut (b : Block) (n : Nat) (f : Lane → Lane) : (b.modLane n f).frzOut = b.frzOut := by rw [Block.modLane, Block.setLane_frzOut]
@[simp] theorem Block.modLane_pins (b : Block) (n : Nat) (f : Lane → Lane) : (b.modLane n f).pins = b.pins := by rw [Block.modLane, Block.setLane_pins]
@[simp] theorem Block.modLane_pw (b : Block) (n : Nat) (f : Lane → Lane) : (b.modLane n f).pw = b.pw := by rw [Block.modLane, Block.setLane_pw]
@[simp] theorem Block.modLane_ck (b : Block) (n : Nat) (f : Lane → Lane) : (b.modLane n f).ck = b.ck := by rw [Block.modLane, Block.setLane_ck]
@[simp] theorem Block.modLane_west (b : Block) (n : Nat) (f : Lane → Lane) : (b.modLane n f).west = b.west := by rw [Block.modLane, Block.setLane_west]
@[simp] theorem Block.modLane_east (b : Block) (n : Nat) (f : Lane → Lane) : (b.modLane n f).east = b.east := by rw [Block.modLane, Block.setLane_east]
@[simp] theorem Block.modLane_fwWE (b : Block) (n : Nat) (f : Lane → Lane) : (b.modLane n f).fwWE = b.fwWE := by rw [Block.modLane, Block.setLane_fwWE]
@[simp] theorem Block.modLane_fwEW (b : Block) (n : Nat) (f : Lane → Lane) : (b.modLane n f).fwEW = b.fwEW := by rw [Block.modLane, Block.setLane_fwEW]
@[simp] theorem Block.modLane_qy (b : Block) (n : Nat) (f : Lane → Lane) : (b.modLane n f).qy = b.qy := by rw [Block.modLane, Block.setLane_qy]
@[simp] theorem Block.modLane_chs (b : Block) (n : Nat) (f : Lane → Lane) : (b.modLane n f).chs = b.chs := by rw [Block.modLane, Block.setLane_chs]
@[simp] theorem Block.modLane_berths (b : Block) (n : Nat) (f : Lane → Lane) : (b.modLane n f).berths = b.berths := by rw [Block.modLane, Block.setLane_berths]
@[simp] theorem Block.modLane_chans (b : Block) (n : Nat) (f : Lane → Lane) : (b.modLane n f).chans = b.chans := by rw [Block.modLane, Block.setLane_chans]
@[simp] theorem Block.modLane_cols (b : Block) (n : Nat) (f : Lane → Lane) : (b.modLane n f).cols = b.cols := by rw [Block.modLane, Block.setLane_cols]
@[simp] theorem Block.modLane_stk (b : Block) (n : Nat) (f : Lane → Lane) : (b.modLane n f).stk = b.stk := by rw [Block.modLane, Block.setLane_stk]
@[simp] theorem Block.modLane_keys (b : Block) (n : Nat) (f : Lane → Lane) : (b.modLane n f).keys = b.keys := by rw [Block.modLane, Block.setLane_keys]
@[simp] theorem Block.modLane_prot (b : Block) (n : Nat) (f : Lane → Lane) : (b.modLane n f).prot = b.prot := by rw [Block.modLane, Block.setLane_prot]
@[simp] theorem Block.modLane_mf (b : Block) (n : Nat) (f : Lane → Lane) : (b.modLane n f).mf = b.mf := by rw [Block.modLane, Block.setLane_mf]
@[simp] theorem Block.modLane_heat (b : Block) (n : Nat) (f : Lane → Lane) : (b.modLane n f).heat = b.heat := by rw [Block.modLane, Block.setLane_heat]
@[simp] theorem Block.modLane_sv (b : Block) (n : Nat) (f : Lane → Lane) : (b.modLane n f).sv = b.sv := by rw [Block.modLane, Block.setLane_sv]
@[simp] theorem Block.modLane_tl (b : Block) (n : Nat) (f : Lane → Lane) : (b.modLane n f).tl = b.tl := by rw [Block.modLane, Block.setLane_tl]
@[simp] theorem Block.modLane_lg (b : Block) (n : Nat) (f : Lane → Lane) : (b.modLane n f).lg = b.lg := by rw [Block.modLane, Block.setLane_lg]

theorem Block.with_berths_fresh (b : Block) (x : Tbl Berth) : (Block.fresh { b with berths := x }) = b.fresh := rfl
theorem Block.with_berths_csr (b : Block) (x : Tbl Berth) : (Block.csr { b with berths := x }) = b.csr := rfl
theorem Block.with_berths_cnt (b : Block) (x : Tbl Berth) : (Block.cnt { b with berths := x }) = b.cnt := rfl
theorem Block.with_berths_sel (b : Block) (x : Tbl Berth) : (Block.sel { b with berths := x }) = b.sel := rfl
theorem Block.with_berths_hold (b : Block) (x : Tbl Berth) : (Block.hold { b with berths := x }) = b.hold := rfl
theorem Block.with_berths_rdData (b : Block) (x : Tbl Berth) : (Block.rdData { b with berths := x }) = b.rdData := rfl
theorem Block.with_berths_jtagDr (b : Block) (x : Tbl Berth) : (Block.jtagDr { b with berths := x }) = b.jtagDr := rfl
theorem Block.with_berths_frzOut (b : Block) (x : Tbl Berth) : (Block.frzOut { b with berths := x }) = b.frzOut := rfl
theorem Block.with_berths_pins (b : Block) (x : Tbl Berth) : (Block.pins { b with berths := x }) = b.pins := rfl
theorem Block.with_berths_pw (b : Block) (x : Tbl Berth) : (Block.pw { b with berths := x }) = b.pw := rfl
theorem Block.with_berths_ck (b : Block) (x : Tbl Berth) : (Block.ck { b with berths := x }) = b.ck := rfl
theorem Block.with_berths_lanes (b : Block) (x : Tbl Berth) : (Block.lanes { b with berths := x }) = b.lanes := rfl
theorem Block.with_berths_west (b : Block) (x : Tbl Berth) : (Block.west { b with berths := x }) = b.west := rfl
theorem Block.with_berths_east (b : Block) (x : Tbl Berth) : (Block.east { b with berths := x }) = b.east := rfl
theorem Block.with_berths_fwWE (b : Block) (x : Tbl Berth) : (Block.fwWE { b with berths := x }) = b.fwWE := rfl
theorem Block.with_berths_fwEW (b : Block) (x : Tbl Berth) : (Block.fwEW { b with berths := x }) = b.fwEW := rfl
theorem Block.with_berths_qy (b : Block) (x : Tbl Berth) : (Block.qy { b with berths := x }) = b.qy := rfl
theorem Block.with_berths_chs (b : Block) (x : Tbl Berth) : (Block.chs { b with berths := x }) = b.chs := rfl
theorem Block.with_berths_chans (b : Block) (x : Tbl Berth) : (Block.chans { b with berths := x }) = b.chans := rfl
theorem Block.with_berths_cols (b : Block) (x : Tbl Berth) : (Block.cols { b with berths := x }) = b.cols := rfl
theorem Block.with_berths_stk (b : Block) (x : Tbl Berth) : (Block.stk { b with berths := x }) = b.stk := rfl
theorem Block.with_berths_keys (b : Block) (x : Tbl Berth) : (Block.keys { b with berths := x }) = b.keys := rfl
theorem Block.with_berths_prot (b : Block) (x : Tbl Berth) : (Block.prot { b with berths := x }) = b.prot := rfl
theorem Block.with_berths_mf (b : Block) (x : Tbl Berth) : (Block.mf { b with berths := x }) = b.mf := rfl
theorem Block.with_berths_heat (b : Block) (x : Tbl Berth) : (Block.heat { b with berths := x }) = b.heat := rfl
theorem Block.with_berths_sv (b : Block) (x : Tbl Berth) : (Block.sv { b with berths := x }) = b.sv := rfl
theorem Block.with_berths_tl (b : Block) (x : Tbl Berth) : (Block.tl { b with berths := x }) = b.tl := rfl
theorem Block.with_berths_lg (b : Block) (x : Tbl Berth) : (Block.lg { b with berths := x }) = b.lg := rfl

@[simp] theorem Block.setBerth_fresh (b : Block) (n : Nat) (v : Berth) : (b.setBerth n v).fresh = b.fresh := Block.with_berths_fresh b _
@[simp] theorem Block.setBerth_csr (b : Block) (n : Nat) (v : Berth) : (b.setBerth n v).csr = b.csr := Block.with_berths_csr b _
@[simp] theorem Block.setBerth_cnt (b : Block) (n : Nat) (v : Berth) : (b.setBerth n v).cnt = b.cnt := Block.with_berths_cnt b _
@[simp] theorem Block.setBerth_sel (b : Block) (n : Nat) (v : Berth) : (b.setBerth n v).sel = b.sel := Block.with_berths_sel b _
@[simp] theorem Block.setBerth_hold (b : Block) (n : Nat) (v : Berth) : (b.setBerth n v).hold = b.hold := Block.with_berths_hold b _
@[simp] theorem Block.setBerth_rdData (b : Block) (n : Nat) (v : Berth) : (b.setBerth n v).rdData = b.rdData := Block.with_berths_rdData b _
@[simp] theorem Block.setBerth_jtagDr (b : Block) (n : Nat) (v : Berth) : (b.setBerth n v).jtagDr = b.jtagDr := Block.with_berths_jtagDr b _
@[simp] theorem Block.setBerth_frzOut (b : Block) (n : Nat) (v : Berth) : (b.setBerth n v).frzOut = b.frzOut := Block.with_berths_frzOut b _
@[simp] theorem Block.setBerth_pins (b : Block) (n : Nat) (v : Berth) : (b.setBerth n v).pins = b.pins := Block.with_berths_pins b _
@[simp] theorem Block.setBerth_pw (b : Block) (n : Nat) (v : Berth) : (b.setBerth n v).pw = b.pw := Block.with_berths_pw b _
@[simp] theorem Block.setBerth_ck (b : Block) (n : Nat) (v : Berth) : (b.setBerth n v).ck = b.ck := Block.with_berths_ck b _
@[simp] theorem Block.setBerth_lanes (b : Block) (n : Nat) (v : Berth) : (b.setBerth n v).lanes = b.lanes := Block.with_berths_lanes b _
@[simp] theorem Block.setBerth_west (b : Block) (n : Nat) (v : Berth) : (b.setBerth n v).west = b.west := Block.with_berths_west b _
@[simp] theorem Block.setBerth_east (b : Block) (n : Nat) (v : Berth) : (b.setBerth n v).east = b.east := Block.with_berths_east b _
@[simp] theorem Block.setBerth_fwWE (b : Block) (n : Nat) (v : Berth) : (b.setBerth n v).fwWE = b.fwWE := Block.with_berths_fwWE b _
@[simp] theorem Block.setBerth_fwEW (b : Block) (n : Nat) (v : Berth) : (b.setBerth n v).fwEW = b.fwEW := Block.with_berths_fwEW b _
@[simp] theorem Block.setBerth_qy (b : Block) (n : Nat) (v : Berth) : (b.setBerth n v).qy = b.qy := Block.with_berths_qy b _
@[simp] theorem Block.setBerth_chs (b : Block) (n : Nat) (v : Berth) : (b.setBerth n v).chs = b.chs := Block.with_berths_chs b _
@[simp] theorem Block.setBerth_chans (b : Block) (n : Nat) (v : Berth) : (b.setBerth n v).chans = b.chans := Block.with_berths_chans b _
@[simp] theorem Block.setBerth_cols (b : Block) (n : Nat) (v : Berth) : (b.setBerth n v).cols = b.cols := Block.with_berths_cols b _
@[simp] theorem Block.setBerth_stk (b : Block) (n : Nat) (v : Berth) : (b.setBerth n v).stk = b.stk := Block.with_berths_stk b _
@[simp] theorem Block.setBerth_keys (b : Block) (n : Nat) (v : Berth) : (b.setBerth n v).keys = b.keys := Block.with_berths_keys b _
@[simp] theorem Block.setBerth_prot (b : Block) (n : Nat) (v : Berth) : (b.setBerth n v).prot = b.prot := Block.with_berths_prot b _
@[simp] theorem Block.setBerth_mf (b : Block) (n : Nat) (v : Berth) : (b.setBerth n v).mf = b.mf := Block.with_berths_mf b _
@[simp] theorem Block.setBerth_heat (b : Block) (n : Nat) (v : Berth) : (b.setBerth n v).heat = b.heat := Block.with_berths_heat b _
@[simp] theorem Block.setBerth_sv (b : Block) (n : Nat) (v : Berth) : (b.setBerth n v).sv = b.sv := Block.with_berths_sv b _
@[simp] theorem Block.setBerth_tl (b : Block) (n : Nat) (v : Berth) : (b.setBerth n v).tl = b.tl := Block.with_berths_tl b _
@[simp] theorem Block.setBerth_lg (b : Block) (n : Nat) (v : Berth) : (b.setBerth n v).lg = b.lg := Block.with_berths_lg b _

@[simp] theorem Block.modBerth_fresh (b : Block) (n : Nat) (f : Berth → Berth) : (b.modBerth n f).fresh = b.fresh := by rw [Block.modBerth, Block.setBerth_fresh]
@[simp] theorem Block.modBerth_csr (b : Block) (n : Nat) (f : Berth → Berth) : (b.modBerth n f).csr = b.csr := by rw [Block.modBerth, Block.setBerth_csr]
@[simp] theorem Block.modBerth_cnt (b : Block) (n : Nat) (f : Berth → Berth) : (b.modBerth n f).cnt = b.cnt := by rw [Block.modBerth, Block.setBerth_cnt]
@[simp] theorem Block.modBerth_sel (b : Block) (n : Nat) (f : Berth → Berth) : (b.modBerth n f).sel = b.sel := by rw [Block.modBerth, Block.setBerth_sel]
@[simp] theorem Block.modBerth_hold (b : Block) (n : Nat) (f : Berth → Berth) : (b.modBerth n f).hold = b.hold := by rw [Block.modBerth, Block.setBerth_hold]
@[simp] theorem Block.modBerth_rdData (b : Block) (n : Nat) (f : Berth → Berth) : (b.modBerth n f).rdData = b.rdData := by rw [Block.modBerth, Block.setBerth_rdData]
@[simp] theorem Block.modBerth_jtagDr (b : Block) (n : Nat) (f : Berth → Berth) : (b.modBerth n f).jtagDr = b.jtagDr := by rw [Block.modBerth, Block.setBerth_jtagDr]
@[simp] theorem Block.modBerth_frzOut (b : Block) (n : Nat) (f : Berth → Berth) : (b.modBerth n f).frzOut = b.frzOut := by rw [Block.modBerth, Block.setBerth_frzOut]
@[simp] theorem Block.modBerth_pins (b : Block) (n : Nat) (f : Berth → Berth) : (b.modBerth n f).pins = b.pins := by rw [Block.modBerth, Block.setBerth_pins]
@[simp] theorem Block.modBerth_pw (b : Block) (n : Nat) (f : Berth → Berth) : (b.modBerth n f).pw = b.pw := by rw [Block.modBerth, Block.setBerth_pw]
@[simp] theorem Block.modBerth_ck (b : Block) (n : Nat) (f : Berth → Berth) : (b.modBerth n f).ck = b.ck := by rw [Block.modBerth, Block.setBerth_ck]
@[simp] theorem Block.modBerth_lanes (b : Block) (n : Nat) (f : Berth → Berth) : (b.modBerth n f).lanes = b.lanes := by rw [Block.modBerth, Block.setBerth_lanes]
@[simp] theorem Block.modBerth_west (b : Block) (n : Nat) (f : Berth → Berth) : (b.modBerth n f).west = b.west := by rw [Block.modBerth, Block.setBerth_west]
@[simp] theorem Block.modBerth_east (b : Block) (n : Nat) (f : Berth → Berth) : (b.modBerth n f).east = b.east := by rw [Block.modBerth, Block.setBerth_east]
@[simp] theorem Block.modBerth_fwWE (b : Block) (n : Nat) (f : Berth → Berth) : (b.modBerth n f).fwWE = b.fwWE := by rw [Block.modBerth, Block.setBerth_fwWE]
@[simp] theorem Block.modBerth_fwEW (b : Block) (n : Nat) (f : Berth → Berth) : (b.modBerth n f).fwEW = b.fwEW := by rw [Block.modBerth, Block.setBerth_fwEW]
@[simp] theorem Block.modBerth_qy (b : Block) (n : Nat) (f : Berth → Berth) : (b.modBerth n f).qy = b.qy := by rw [Block.modBerth, Block.setBerth_qy]
@[simp] theorem Block.modBerth_chs (b : Block) (n : Nat) (f : Berth → Berth) : (b.modBerth n f).chs = b.chs := by rw [Block.modBerth, Block.setBerth_chs]
@[simp] theorem Block.modBerth_chans (b : Block) (n : Nat) (f : Berth → Berth) : (b.modBerth n f).chans = b.chans := by rw [Block.modBerth, Block.setBerth_chans]
@[simp] theorem Block.modBerth_cols (b : Block) (n : Nat) (f : Berth → Berth) : (b.modBerth n f).cols = b.cols := by rw [Block.modBerth, Block.setBerth_cols]
@[simp] theorem Block.modBerth_stk (b : Block) (n : Nat) (f : Berth → Berth) : (b.modBerth n f).stk = b.stk := by rw [Block.modBerth, Block.setBerth_stk]
@[simp] theorem Block.modBerth_keys (b : Block) (n : Nat) (f : Berth → Berth) : (b.modBerth n f).keys = b.keys := by rw [Block.modBerth, Block.setBerth_keys]
@[simp] theorem Block.modBerth_prot (b : Block) (n : Nat) (f : Berth → Berth) : (b.modBerth n f).prot = b.prot := by rw [Block.modBerth, Block.setBerth_prot]
@[simp] theorem Block.modBerth_mf (b : Block) (n : Nat) (f : Berth → Berth) : (b.modBerth n f).mf = b.mf := by rw [Block.modBerth, Block.setBerth_mf]
@[simp] theorem Block.modBerth_heat (b : Block) (n : Nat) (f : Berth → Berth) : (b.modBerth n f).heat = b.heat := by rw [Block.modBerth, Block.setBerth_heat]
@[simp] theorem Block.modBerth_sv (b : Block) (n : Nat) (f : Berth → Berth) : (b.modBerth n f).sv = b.sv := by rw [Block.modBerth, Block.setBerth_sv]
@[simp] theorem Block.modBerth_tl (b : Block) (n : Nat) (f : Berth → Berth) : (b.modBerth n f).tl = b.tl := by rw [Block.modBerth, Block.setBerth_tl]
@[simp] theorem Block.modBerth_lg (b : Block) (n : Nat) (f : Berth → Berth) : (b.modBerth n f).lg = b.lg := by rw [Block.modBerth, Block.setBerth_lg]

theorem Block.with_chans_fresh (b : Block) (x : Tbl Chan) : (Block.fresh { b with chans := x }) = b.fresh := rfl
theorem Block.with_chans_csr (b : Block) (x : Tbl Chan) : (Block.csr { b with chans := x }) = b.csr := rfl
theorem Block.with_chans_cnt (b : Block) (x : Tbl Chan) : (Block.cnt { b with chans := x }) = b.cnt := rfl
theorem Block.with_chans_sel (b : Block) (x : Tbl Chan) : (Block.sel { b with chans := x }) = b.sel := rfl
theorem Block.with_chans_hold (b : Block) (x : Tbl Chan) : (Block.hold { b with chans := x }) = b.hold := rfl
theorem Block.with_chans_rdData (b : Block) (x : Tbl Chan) : (Block.rdData { b with chans := x }) = b.rdData := rfl
theorem Block.with_chans_jtagDr (b : Block) (x : Tbl Chan) : (Block.jtagDr { b with chans := x }) = b.jtagDr := rfl
theorem Block.with_chans_frzOut (b : Block) (x : Tbl Chan) : (Block.frzOut { b with chans := x }) = b.frzOut := rfl
theorem Block.with_chans_pins (b : Block) (x : Tbl Chan) : (Block.pins { b with chans := x }) = b.pins := rfl
theorem Block.with_chans_pw (b : Block) (x : Tbl Chan) : (Block.pw { b with chans := x }) = b.pw := rfl
theorem Block.with_chans_ck (b : Block) (x : Tbl Chan) : (Block.ck { b with chans := x }) = b.ck := rfl
theorem Block.with_chans_lanes (b : Block) (x : Tbl Chan) : (Block.lanes { b with chans := x }) = b.lanes := rfl
theorem Block.with_chans_west (b : Block) (x : Tbl Chan) : (Block.west { b with chans := x }) = b.west := rfl
theorem Block.with_chans_east (b : Block) (x : Tbl Chan) : (Block.east { b with chans := x }) = b.east := rfl
theorem Block.with_chans_fwWE (b : Block) (x : Tbl Chan) : (Block.fwWE { b with chans := x }) = b.fwWE := rfl
theorem Block.with_chans_fwEW (b : Block) (x : Tbl Chan) : (Block.fwEW { b with chans := x }) = b.fwEW := rfl
theorem Block.with_chans_qy (b : Block) (x : Tbl Chan) : (Block.qy { b with chans := x }) = b.qy := rfl
theorem Block.with_chans_chs (b : Block) (x : Tbl Chan) : (Block.chs { b with chans := x }) = b.chs := rfl
theorem Block.with_chans_berths (b : Block) (x : Tbl Chan) : (Block.berths { b with chans := x }) = b.berths := rfl
theorem Block.with_chans_cols (b : Block) (x : Tbl Chan) : (Block.cols { b with chans := x }) = b.cols := rfl
theorem Block.with_chans_stk (b : Block) (x : Tbl Chan) : (Block.stk { b with chans := x }) = b.stk := rfl
theorem Block.with_chans_keys (b : Block) (x : Tbl Chan) : (Block.keys { b with chans := x }) = b.keys := rfl
theorem Block.with_chans_prot (b : Block) (x : Tbl Chan) : (Block.prot { b with chans := x }) = b.prot := rfl
theorem Block.with_chans_mf (b : Block) (x : Tbl Chan) : (Block.mf { b with chans := x }) = b.mf := rfl
theorem Block.with_chans_heat (b : Block) (x : Tbl Chan) : (Block.heat { b with chans := x }) = b.heat := rfl
theorem Block.with_chans_sv (b : Block) (x : Tbl Chan) : (Block.sv { b with chans := x }) = b.sv := rfl
theorem Block.with_chans_tl (b : Block) (x : Tbl Chan) : (Block.tl { b with chans := x }) = b.tl := rfl
theorem Block.with_chans_lg (b : Block) (x : Tbl Chan) : (Block.lg { b with chans := x }) = b.lg := rfl

@[simp] theorem Block.setChan_fresh (b : Block) (n : Nat) (v : Chan) : (b.setChan n v).fresh = b.fresh := Block.with_chans_fresh b _
@[simp] theorem Block.setChan_csr (b : Block) (n : Nat) (v : Chan) : (b.setChan n v).csr = b.csr := Block.with_chans_csr b _
@[simp] theorem Block.setChan_cnt (b : Block) (n : Nat) (v : Chan) : (b.setChan n v).cnt = b.cnt := Block.with_chans_cnt b _
@[simp] theorem Block.setChan_sel (b : Block) (n : Nat) (v : Chan) : (b.setChan n v).sel = b.sel := Block.with_chans_sel b _
@[simp] theorem Block.setChan_hold (b : Block) (n : Nat) (v : Chan) : (b.setChan n v).hold = b.hold := Block.with_chans_hold b _
@[simp] theorem Block.setChan_rdData (b : Block) (n : Nat) (v : Chan) : (b.setChan n v).rdData = b.rdData := Block.with_chans_rdData b _
@[simp] theorem Block.setChan_jtagDr (b : Block) (n : Nat) (v : Chan) : (b.setChan n v).jtagDr = b.jtagDr := Block.with_chans_jtagDr b _
@[simp] theorem Block.setChan_frzOut (b : Block) (n : Nat) (v : Chan) : (b.setChan n v).frzOut = b.frzOut := Block.with_chans_frzOut b _
@[simp] theorem Block.setChan_pins (b : Block) (n : Nat) (v : Chan) : (b.setChan n v).pins = b.pins := Block.with_chans_pins b _
@[simp] theorem Block.setChan_pw (b : Block) (n : Nat) (v : Chan) : (b.setChan n v).pw = b.pw := Block.with_chans_pw b _
@[simp] theorem Block.setChan_ck (b : Block) (n : Nat) (v : Chan) : (b.setChan n v).ck = b.ck := Block.with_chans_ck b _
@[simp] theorem Block.setChan_lanes (b : Block) (n : Nat) (v : Chan) : (b.setChan n v).lanes = b.lanes := Block.with_chans_lanes b _
@[simp] theorem Block.setChan_west (b : Block) (n : Nat) (v : Chan) : (b.setChan n v).west = b.west := Block.with_chans_west b _
@[simp] theorem Block.setChan_east (b : Block) (n : Nat) (v : Chan) : (b.setChan n v).east = b.east := Block.with_chans_east b _
@[simp] theorem Block.setChan_fwWE (b : Block) (n : Nat) (v : Chan) : (b.setChan n v).fwWE = b.fwWE := Block.with_chans_fwWE b _
@[simp] theorem Block.setChan_fwEW (b : Block) (n : Nat) (v : Chan) : (b.setChan n v).fwEW = b.fwEW := Block.with_chans_fwEW b _
@[simp] theorem Block.setChan_qy (b : Block) (n : Nat) (v : Chan) : (b.setChan n v).qy = b.qy := Block.with_chans_qy b _
@[simp] theorem Block.setChan_chs (b : Block) (n : Nat) (v : Chan) : (b.setChan n v).chs = b.chs := Block.with_chans_chs b _
@[simp] theorem Block.setChan_berths (b : Block) (n : Nat) (v : Chan) : (b.setChan n v).berths = b.berths := Block.with_chans_berths b _
@[simp] theorem Block.setChan_cols (b : Block) (n : Nat) (v : Chan) : (b.setChan n v).cols = b.cols := Block.with_chans_cols b _
@[simp] theorem Block.setChan_stk (b : Block) (n : Nat) (v : Chan) : (b.setChan n v).stk = b.stk := Block.with_chans_stk b _
@[simp] theorem Block.setChan_keys (b : Block) (n : Nat) (v : Chan) : (b.setChan n v).keys = b.keys := Block.with_chans_keys b _
@[simp] theorem Block.setChan_prot (b : Block) (n : Nat) (v : Chan) : (b.setChan n v).prot = b.prot := Block.with_chans_prot b _
@[simp] theorem Block.setChan_mf (b : Block) (n : Nat) (v : Chan) : (b.setChan n v).mf = b.mf := Block.with_chans_mf b _
@[simp] theorem Block.setChan_heat (b : Block) (n : Nat) (v : Chan) : (b.setChan n v).heat = b.heat := Block.with_chans_heat b _
@[simp] theorem Block.setChan_sv (b : Block) (n : Nat) (v : Chan) : (b.setChan n v).sv = b.sv := Block.with_chans_sv b _
@[simp] theorem Block.setChan_tl (b : Block) (n : Nat) (v : Chan) : (b.setChan n v).tl = b.tl := Block.with_chans_tl b _
@[simp] theorem Block.setChan_lg (b : Block) (n : Nat) (v : Chan) : (b.setChan n v).lg = b.lg := Block.with_chans_lg b _

@[simp] theorem Block.modChan_fresh (b : Block) (n : Nat) (f : Chan → Chan) : (b.modChan n f).fresh = b.fresh := by rw [Block.modChan, Block.setChan_fresh]
@[simp] theorem Block.modChan_csr (b : Block) (n : Nat) (f : Chan → Chan) : (b.modChan n f).csr = b.csr := by rw [Block.modChan, Block.setChan_csr]
@[simp] theorem Block.modChan_cnt (b : Block) (n : Nat) (f : Chan → Chan) : (b.modChan n f).cnt = b.cnt := by rw [Block.modChan, Block.setChan_cnt]
@[simp] theorem Block.modChan_sel (b : Block) (n : Nat) (f : Chan → Chan) : (b.modChan n f).sel = b.sel := by rw [Block.modChan, Block.setChan_sel]
@[simp] theorem Block.modChan_hold (b : Block) (n : Nat) (f : Chan → Chan) : (b.modChan n f).hold = b.hold := by rw [Block.modChan, Block.setChan_hold]
@[simp] theorem Block.modChan_rdData (b : Block) (n : Nat) (f : Chan → Chan) : (b.modChan n f).rdData = b.rdData := by rw [Block.modChan, Block.setChan_rdData]
@[simp] theorem Block.modChan_jtagDr (b : Block) (n : Nat) (f : Chan → Chan) : (b.modChan n f).jtagDr = b.jtagDr := by rw [Block.modChan, Block.setChan_jtagDr]
@[simp] theorem Block.modChan_frzOut (b : Block) (n : Nat) (f : Chan → Chan) : (b.modChan n f).frzOut = b.frzOut := by rw [Block.modChan, Block.setChan_frzOut]
@[simp] theorem Block.modChan_pins (b : Block) (n : Nat) (f : Chan → Chan) : (b.modChan n f).pins = b.pins := by rw [Block.modChan, Block.setChan_pins]
@[simp] theorem Block.modChan_pw (b : Block) (n : Nat) (f : Chan → Chan) : (b.modChan n f).pw = b.pw := by rw [Block.modChan, Block.setChan_pw]
@[simp] theorem Block.modChan_ck (b : Block) (n : Nat) (f : Chan → Chan) : (b.modChan n f).ck = b.ck := by rw [Block.modChan, Block.setChan_ck]
@[simp] theorem Block.modChan_lanes (b : Block) (n : Nat) (f : Chan → Chan) : (b.modChan n f).lanes = b.lanes := by rw [Block.modChan, Block.setChan_lanes]
@[simp] theorem Block.modChan_west (b : Block) (n : Nat) (f : Chan → Chan) : (b.modChan n f).west = b.west := by rw [Block.modChan, Block.setChan_west]
@[simp] theorem Block.modChan_east (b : Block) (n : Nat) (f : Chan → Chan) : (b.modChan n f).east = b.east := by rw [Block.modChan, Block.setChan_east]
@[simp] theorem Block.modChan_fwWE (b : Block) (n : Nat) (f : Chan → Chan) : (b.modChan n f).fwWE = b.fwWE := by rw [Block.modChan, Block.setChan_fwWE]
@[simp] theorem Block.modChan_fwEW (b : Block) (n : Nat) (f : Chan → Chan) : (b.modChan n f).fwEW = b.fwEW := by rw [Block.modChan, Block.setChan_fwEW]
@[simp] theorem Block.modChan_qy (b : Block) (n : Nat) (f : Chan → Chan) : (b.modChan n f).qy = b.qy := by rw [Block.modChan, Block.setChan_qy]
@[simp] theorem Block.modChan_chs (b : Block) (n : Nat) (f : Chan → Chan) : (b.modChan n f).chs = b.chs := by rw [Block.modChan, Block.setChan_chs]
@[simp] theorem Block.modChan_berths (b : Block) (n : Nat) (f : Chan → Chan) : (b.modChan n f).berths = b.berths := by rw [Block.modChan, Block.setChan_berths]
@[simp] theorem Block.modChan_cols (b : Block) (n : Nat) (f : Chan → Chan) : (b.modChan n f).cols = b.cols := by rw [Block.modChan, Block.setChan_cols]
@[simp] theorem Block.modChan_stk (b : Block) (n : Nat) (f : Chan → Chan) : (b.modChan n f).stk = b.stk := by rw [Block.modChan, Block.setChan_stk]
@[simp] theorem Block.modChan_keys (b : Block) (n : Nat) (f : Chan → Chan) : (b.modChan n f).keys = b.keys := by rw [Block.modChan, Block.setChan_keys]
@[simp] theorem Block.modChan_prot (b : Block) (n : Nat) (f : Chan → Chan) : (b.modChan n f).prot = b.prot := by rw [Block.modChan, Block.setChan_prot]
@[simp] theorem Block.modChan_mf (b : Block) (n : Nat) (f : Chan → Chan) : (b.modChan n f).mf = b.mf := by rw [Block.modChan, Block.setChan_mf]
@[simp] theorem Block.modChan_heat (b : Block) (n : Nat) (f : Chan → Chan) : (b.modChan n f).heat = b.heat := by rw [Block.modChan, Block.setChan_heat]
@[simp] theorem Block.modChan_sv (b : Block) (n : Nat) (f : Chan → Chan) : (b.modChan n f).sv = b.sv := by rw [Block.modChan, Block.setChan_sv]
@[simp] theorem Block.modChan_tl (b : Block) (n : Nat) (f : Chan → Chan) : (b.modChan n f).tl = b.tl := by rw [Block.modChan, Block.setChan_tl]
@[simp] theorem Block.modChan_lg (b : Block) (n : Nat) (f : Chan → Chan) : (b.modChan n f).lg = b.lg := by rw [Block.modChan, Block.setChan_lg]

theorem Block.with_cols_fresh (b : Block) (x : Tbl Column) : (Block.fresh { b with cols := x }) = b.fresh := rfl
theorem Block.with_cols_csr (b : Block) (x : Tbl Column) : (Block.csr { b with cols := x }) = b.csr := rfl
theorem Block.with_cols_cnt (b : Block) (x : Tbl Column) : (Block.cnt { b with cols := x }) = b.cnt := rfl
theorem Block.with_cols_sel (b : Block) (x : Tbl Column) : (Block.sel { b with cols := x }) = b.sel := rfl
theorem Block.with_cols_hold (b : Block) (x : Tbl Column) : (Block.hold { b with cols := x }) = b.hold := rfl
theorem Block.with_cols_rdData (b : Block) (x : Tbl Column) : (Block.rdData { b with cols := x }) = b.rdData := rfl
theorem Block.with_cols_jtagDr (b : Block) (x : Tbl Column) : (Block.jtagDr { b with cols := x }) = b.jtagDr := rfl
theorem Block.with_cols_frzOut (b : Block) (x : Tbl Column) : (Block.frzOut { b with cols := x }) = b.frzOut := rfl
theorem Block.with_cols_pins (b : Block) (x : Tbl Column) : (Block.pins { b with cols := x }) = b.pins := rfl
theorem Block.with_cols_pw (b : Block) (x : Tbl Column) : (Block.pw { b with cols := x }) = b.pw := rfl
theorem Block.with_cols_ck (b : Block) (x : Tbl Column) : (Block.ck { b with cols := x }) = b.ck := rfl
theorem Block.with_cols_lanes (b : Block) (x : Tbl Column) : (Block.lanes { b with cols := x }) = b.lanes := rfl
theorem Block.with_cols_west (b : Block) (x : Tbl Column) : (Block.west { b with cols := x }) = b.west := rfl
theorem Block.with_cols_east (b : Block) (x : Tbl Column) : (Block.east { b with cols := x }) = b.east := rfl
theorem Block.with_cols_fwWE (b : Block) (x : Tbl Column) : (Block.fwWE { b with cols := x }) = b.fwWE := rfl
theorem Block.with_cols_fwEW (b : Block) (x : Tbl Column) : (Block.fwEW { b with cols := x }) = b.fwEW := rfl
theorem Block.with_cols_qy (b : Block) (x : Tbl Column) : (Block.qy { b with cols := x }) = b.qy := rfl
theorem Block.with_cols_chs (b : Block) (x : Tbl Column) : (Block.chs { b with cols := x }) = b.chs := rfl
theorem Block.with_cols_berths (b : Block) (x : Tbl Column) : (Block.berths { b with cols := x }) = b.berths := rfl
theorem Block.with_cols_chans (b : Block) (x : Tbl Column) : (Block.chans { b with cols := x }) = b.chans := rfl
theorem Block.with_cols_stk (b : Block) (x : Tbl Column) : (Block.stk { b with cols := x }) = b.stk := rfl
theorem Block.with_cols_keys (b : Block) (x : Tbl Column) : (Block.keys { b with cols := x }) = b.keys := rfl
theorem Block.with_cols_prot (b : Block) (x : Tbl Column) : (Block.prot { b with cols := x }) = b.prot := rfl
theorem Block.with_cols_mf (b : Block) (x : Tbl Column) : (Block.mf { b with cols := x }) = b.mf := rfl
theorem Block.with_cols_heat (b : Block) (x : Tbl Column) : (Block.heat { b with cols := x }) = b.heat := rfl
theorem Block.with_cols_sv (b : Block) (x : Tbl Column) : (Block.sv { b with cols := x }) = b.sv := rfl
theorem Block.with_cols_tl (b : Block) (x : Tbl Column) : (Block.tl { b with cols := x }) = b.tl := rfl
theorem Block.with_cols_lg (b : Block) (x : Tbl Column) : (Block.lg { b with cols := x }) = b.lg := rfl

@[simp] theorem Block.setCol_fresh (b : Block) (n : Nat) (v : Column) : (b.setCol n v).fresh = b.fresh := Block.with_cols_fresh b _
@[simp] theorem Block.setCol_csr (b : Block) (n : Nat) (v : Column) : (b.setCol n v).csr = b.csr := Block.with_cols_csr b _
@[simp] theorem Block.setCol_cnt (b : Block) (n : Nat) (v : Column) : (b.setCol n v).cnt = b.cnt := Block.with_cols_cnt b _
@[simp] theorem Block.setCol_sel (b : Block) (n : Nat) (v : Column) : (b.setCol n v).sel = b.sel := Block.with_cols_sel b _
@[simp] theorem Block.setCol_hold (b : Block) (n : Nat) (v : Column) : (b.setCol n v).hold = b.hold := Block.with_cols_hold b _
@[simp] theorem Block.setCol_rdData (b : Block) (n : Nat) (v : Column) : (b.setCol n v).rdData = b.rdData := Block.with_cols_rdData b _
@[simp] theorem Block.setCol_jtagDr (b : Block) (n : Nat) (v : Column) : (b.setCol n v).jtagDr = b.jtagDr := Block.with_cols_jtagDr b _
@[simp] theorem Block.setCol_frzOut (b : Block) (n : Nat) (v : Column) : (b.setCol n v).frzOut = b.frzOut := Block.with_cols_frzOut b _
@[simp] theorem Block.setCol_pins (b : Block) (n : Nat) (v : Column) : (b.setCol n v).pins = b.pins := Block.with_cols_pins b _
@[simp] theorem Block.setCol_pw (b : Block) (n : Nat) (v : Column) : (b.setCol n v).pw = b.pw := Block.with_cols_pw b _
@[simp] theorem Block.setCol_ck (b : Block) (n : Nat) (v : Column) : (b.setCol n v).ck = b.ck := Block.with_cols_ck b _
@[simp] theorem Block.setCol_lanes (b : Block) (n : Nat) (v : Column) : (b.setCol n v).lanes = b.lanes := Block.with_cols_lanes b _
@[simp] theorem Block.setCol_west (b : Block) (n : Nat) (v : Column) : (b.setCol n v).west = b.west := Block.with_cols_west b _
@[simp] theorem Block.setCol_east (b : Block) (n : Nat) (v : Column) : (b.setCol n v).east = b.east := Block.with_cols_east b _
@[simp] theorem Block.setCol_fwWE (b : Block) (n : Nat) (v : Column) : (b.setCol n v).fwWE = b.fwWE := Block.with_cols_fwWE b _
@[simp] theorem Block.setCol_fwEW (b : Block) (n : Nat) (v : Column) : (b.setCol n v).fwEW = b.fwEW := Block.with_cols_fwEW b _
@[simp] theorem Block.setCol_qy (b : Block) (n : Nat) (v : Column) : (b.setCol n v).qy = b.qy := Block.with_cols_qy b _
@[simp] theorem Block.setCol_chs (b : Block) (n : Nat) (v : Column) : (b.setCol n v).chs = b.chs := Block.with_cols_chs b _
@[simp] theorem Block.setCol_berths (b : Block) (n : Nat) (v : Column) : (b.setCol n v).berths = b.berths := Block.with_cols_berths b _
@[simp] theorem Block.setCol_chans (b : Block) (n : Nat) (v : Column) : (b.setCol n v).chans = b.chans := Block.with_cols_chans b _
@[simp] theorem Block.setCol_stk (b : Block) (n : Nat) (v : Column) : (b.setCol n v).stk = b.stk := Block.with_cols_stk b _
@[simp] theorem Block.setCol_keys (b : Block) (n : Nat) (v : Column) : (b.setCol n v).keys = b.keys := Block.with_cols_keys b _
@[simp] theorem Block.setCol_prot (b : Block) (n : Nat) (v : Column) : (b.setCol n v).prot = b.prot := Block.with_cols_prot b _
@[simp] theorem Block.setCol_mf (b : Block) (n : Nat) (v : Column) : (b.setCol n v).mf = b.mf := Block.with_cols_mf b _
@[simp] theorem Block.setCol_heat (b : Block) (n : Nat) (v : Column) : (b.setCol n v).heat = b.heat := Block.with_cols_heat b _
@[simp] theorem Block.setCol_sv (b : Block) (n : Nat) (v : Column) : (b.setCol n v).sv = b.sv := Block.with_cols_sv b _
@[simp] theorem Block.setCol_tl (b : Block) (n : Nat) (v : Column) : (b.setCol n v).tl = b.tl := Block.with_cols_tl b _
@[simp] theorem Block.setCol_lg (b : Block) (n : Nat) (v : Column) : (b.setCol n v).lg = b.lg := Block.with_cols_lg b _

@[simp] theorem Block.modCol_fresh (b : Block) (n : Nat) (f : Column → Column) : (b.modCol n f).fresh = b.fresh := by rw [Block.modCol, Block.setCol_fresh]
@[simp] theorem Block.modCol_csr (b : Block) (n : Nat) (f : Column → Column) : (b.modCol n f).csr = b.csr := by rw [Block.modCol, Block.setCol_csr]
@[simp] theorem Block.modCol_cnt (b : Block) (n : Nat) (f : Column → Column) : (b.modCol n f).cnt = b.cnt := by rw [Block.modCol, Block.setCol_cnt]
@[simp] theorem Block.modCol_sel (b : Block) (n : Nat) (f : Column → Column) : (b.modCol n f).sel = b.sel := by rw [Block.modCol, Block.setCol_sel]
@[simp] theorem Block.modCol_hold (b : Block) (n : Nat) (f : Column → Column) : (b.modCol n f).hold = b.hold := by rw [Block.modCol, Block.setCol_hold]
@[simp] theorem Block.modCol_rdData (b : Block) (n : Nat) (f : Column → Column) : (b.modCol n f).rdData = b.rdData := by rw [Block.modCol, Block.setCol_rdData]
@[simp] theorem Block.modCol_jtagDr (b : Block) (n : Nat) (f : Column → Column) : (b.modCol n f).jtagDr = b.jtagDr := by rw [Block.modCol, Block.setCol_jtagDr]
@[simp] theorem Block.modCol_frzOut (b : Block) (n : Nat) (f : Column → Column) : (b.modCol n f).frzOut = b.frzOut := by rw [Block.modCol, Block.setCol_frzOut]
@[simp] theorem Block.modCol_pins (b : Block) (n : Nat) (f : Column → Column) : (b.modCol n f).pins = b.pins := by rw [Block.modCol, Block.setCol_pins]
@[simp] theorem Block.modCol_pw (b : Block) (n : Nat) (f : Column → Column) : (b.modCol n f).pw = b.pw := by rw [Block.modCol, Block.setCol_pw]
@[simp] theorem Block.modCol_ck (b : Block) (n : Nat) (f : Column → Column) : (b.modCol n f).ck = b.ck := by rw [Block.modCol, Block.setCol_ck]
@[simp] theorem Block.modCol_lanes (b : Block) (n : Nat) (f : Column → Column) : (b.modCol n f).lanes = b.lanes := by rw [Block.modCol, Block.setCol_lanes]
@[simp] theorem Block.modCol_west (b : Block) (n : Nat) (f : Column → Column) : (b.modCol n f).west = b.west := by rw [Block.modCol, Block.setCol_west]
@[simp] theorem Block.modCol_east (b : Block) (n : Nat) (f : Column → Column) : (b.modCol n f).east = b.east := by rw [Block.modCol, Block.setCol_east]
@[simp] theorem Block.modCol_fwWE (b : Block) (n : Nat) (f : Column → Column) : (b.modCol n f).fwWE = b.fwWE := by rw [Block.modCol, Block.setCol_fwWE]
@[simp] theorem Block.modCol_fwEW (b : Block) (n : Nat) (f : Column → Column) : (b.modCol n f).fwEW = b.fwEW := by rw [Block.modCol, Block.setCol_fwEW]
@[simp] theorem Block.modCol_qy (b : Block) (n : Nat) (f : Column → Column) : (b.modCol n f).qy = b.qy := by rw [Block.modCol, Block.setCol_qy]
@[simp] theorem Block.modCol_chs (b : Block) (n : Nat) (f : Column → Column) : (b.modCol n f).chs = b.chs := by rw [Block.modCol, Block.setCol_chs]
@[simp] theorem Block.modCol_berths (b : Block) (n : Nat) (f : Column → Column) : (b.modCol n f).berths = b.berths := by rw [Block.modCol, Block.setCol_berths]
@[simp] theorem Block.modCol_chans (b : Block) (n : Nat) (f : Column → Column) : (b.modCol n f).chans = b.chans := by rw [Block.modCol, Block.setCol_chans]
@[simp] theorem Block.modCol_stk (b : Block) (n : Nat) (f : Column → Column) : (b.modCol n f).stk = b.stk := by rw [Block.modCol, Block.setCol_stk]
@[simp] theorem Block.modCol_keys (b : Block) (n : Nat) (f : Column → Column) : (b.modCol n f).keys = b.keys := by rw [Block.modCol, Block.setCol_keys]
@[simp] theorem Block.modCol_prot (b : Block) (n : Nat) (f : Column → Column) : (b.modCol n f).prot = b.prot := by rw [Block.modCol, Block.setCol_prot]
@[simp] theorem Block.modCol_mf (b : Block) (n : Nat) (f : Column → Column) : (b.modCol n f).mf = b.mf := by rw [Block.modCol, Block.setCol_mf]
@[simp] theorem Block.modCol_heat (b : Block) (n : Nat) (f : Column → Column) : (b.modCol n f).heat = b.heat := by rw [Block.modCol, Block.setCol_heat]
@[simp] theorem Block.modCol_sv (b : Block) (n : Nat) (f : Column → Column) : (b.modCol n f).sv = b.sv := by rw [Block.modCol, Block.setCol_sv]
@[simp] theorem Block.modCol_tl (b : Block) (n : Nat) (f : Column → Column) : (b.modCol n f).tl = b.tl := by rw [Block.modCol, Block.setCol_tl]
@[simp] theorem Block.modCol_lg (b : Block) (n : Nat) (f : Column → Column) : (b.modCol n f).lg = b.lg := by rw [Block.modCol, Block.setCol_lg]

theorem Block.with_pw_fresh (b : Block) (x : Power) : (Block.fresh { b with pw := x }) = b.fresh := rfl
theorem Block.with_pw_csr (b : Block) (x : Power) : (Block.csr { b with pw := x }) = b.csr := rfl
theorem Block.with_pw_cnt (b : Block) (x : Power) : (Block.cnt { b with pw := x }) = b.cnt := rfl
theorem Block.with_pw_sel (b : Block) (x : Power) : (Block.sel { b with pw := x }) = b.sel := rfl
theorem Block.with_pw_hold (b : Block) (x : Power) : (Block.hold { b with pw := x }) = b.hold := rfl
theorem Block.with_pw_rdData (b : Block) (x : Power) : (Block.rdData { b with pw := x }) = b.rdData := rfl
theorem Block.with_pw_jtagDr (b : Block) (x : Power) : (Block.jtagDr { b with pw := x }) = b.jtagDr := rfl
theorem Block.with_pw_frzOut (b : Block) (x : Power) : (Block.frzOut { b with pw := x }) = b.frzOut := rfl
theorem Block.with_pw_pins (b : Block) (x : Power) : (Block.pins { b with pw := x }) = b.pins := rfl
theorem Block.with_pw_ck (b : Block) (x : Power) : (Block.ck { b with pw := x }) = b.ck := rfl
theorem Block.with_pw_lanes (b : Block) (x : Power) : (Block.lanes { b with pw := x }) = b.lanes := rfl
theorem Block.with_pw_west (b : Block) (x : Power) : (Block.west { b with pw := x }) = b.west := rfl
theorem Block.with_pw_east (b : Block) (x : Power) : (Block.east { b with pw := x }) = b.east := rfl
theorem Block.with_pw_fwWE (b : Block) (x : Power) : (Block.fwWE { b with pw := x }) = b.fwWE := rfl
theorem Block.with_pw_fwEW (b : Block) (x : Power) : (Block.fwEW { b with pw := x }) = b.fwEW := rfl
theorem Block.with_pw_qy (b : Block) (x : Power) : (Block.qy { b with pw := x }) = b.qy := rfl
theorem Block.with_pw_chs (b : Block) (x : Power) : (Block.chs { b with pw := x }) = b.chs := rfl
theorem Block.with_pw_berths (b : Block) (x : Power) : (Block.berths { b with pw := x }) = b.berths := rfl
theorem Block.with_pw_chans (b : Block) (x : Power) : (Block.chans { b with pw := x }) = b.chans := rfl
theorem Block.with_pw_cols (b : Block) (x : Power) : (Block.cols { b with pw := x }) = b.cols := rfl
theorem Block.with_pw_stk (b : Block) (x : Power) : (Block.stk { b with pw := x }) = b.stk := rfl
theorem Block.with_pw_keys (b : Block) (x : Power) : (Block.keys { b with pw := x }) = b.keys := rfl
theorem Block.with_pw_prot (b : Block) (x : Power) : (Block.prot { b with pw := x }) = b.prot := rfl
theorem Block.with_pw_mf (b : Block) (x : Power) : (Block.mf { b with pw := x }) = b.mf := rfl
theorem Block.with_pw_heat (b : Block) (x : Power) : (Block.heat { b with pw := x }) = b.heat := rfl
theorem Block.with_pw_sv (b : Block) (x : Power) : (Block.sv { b with pw := x }) = b.sv := rfl
theorem Block.with_pw_tl (b : Block) (x : Power) : (Block.tl { b with pw := x }) = b.tl := rfl
theorem Block.with_pw_lg (b : Block) (x : Power) : (Block.lg { b with pw := x }) = b.lg := rfl

@[simp] theorem Block.setDom_fresh (b : Block) (n : Nat) (v : Dom) : (b.setDom n v).fresh = b.fresh := Block.with_pw_fresh b _
@[simp] theorem Block.setDom_csr (b : Block) (n : Nat) (v : Dom) : (b.setDom n v).csr = b.csr := Block.with_pw_csr b _
@[simp] theorem Block.setDom_cnt (b : Block) (n : Nat) (v : Dom) : (b.setDom n v).cnt = b.cnt := Block.with_pw_cnt b _
@[simp] theorem Block.setDom_sel (b : Block) (n : Nat) (v : Dom) : (b.setDom n v).sel = b.sel := Block.with_pw_sel b _
@[simp] theorem Block.setDom_hold (b : Block) (n : Nat) (v : Dom) : (b.setDom n v).hold = b.hold := Block.with_pw_hold b _
@[simp] theorem Block.setDom_rdData (b : Block) (n : Nat) (v : Dom) : (b.setDom n v).rdData = b.rdData := Block.with_pw_rdData b _
@[simp] theorem Block.setDom_jtagDr (b : Block) (n : Nat) (v : Dom) : (b.setDom n v).jtagDr = b.jtagDr := Block.with_pw_jtagDr b _
@[simp] theorem Block.setDom_frzOut (b : Block) (n : Nat) (v : Dom) : (b.setDom n v).frzOut = b.frzOut := Block.with_pw_frzOut b _
@[simp] theorem Block.setDom_pins (b : Block) (n : Nat) (v : Dom) : (b.setDom n v).pins = b.pins := Block.with_pw_pins b _
@[simp] theorem Block.setDom_ck (b : Block) (n : Nat) (v : Dom) : (b.setDom n v).ck = b.ck := Block.with_pw_ck b _
@[simp] theorem Block.setDom_lanes (b : Block) (n : Nat) (v : Dom) : (b.setDom n v).lanes = b.lanes := Block.with_pw_lanes b _
@[simp] theorem Block.setDom_west (b : Block) (n : Nat) (v : Dom) : (b.setDom n v).west = b.west := Block.with_pw_west b _
@[simp] theorem Block.setDom_east (b : Block) (n : Nat) (v : Dom) : (b.setDom n v).east = b.east := Block.with_pw_east b _
@[simp] theorem Block.setDom_fwWE (b : Block) (n : Nat) (v : Dom) : (b.setDom n v).fwWE = b.fwWE := Block.with_pw_fwWE b _
@[simp] theorem Block.setDom_fwEW (b : Block) (n : Nat) (v : Dom) : (b.setDom n v).fwEW = b.fwEW := Block.with_pw_fwEW b _
@[simp] theorem Block.setDom_qy (b : Block) (n : Nat) (v : Dom) : (b.setDom n v).qy = b.qy := Block.with_pw_qy b _
@[simp] theorem Block.setDom_chs (b : Block) (n : Nat) (v : Dom) : (b.setDom n v).chs = b.chs := Block.with_pw_chs b _
@[simp] theorem Block.setDom_berths (b : Block) (n : Nat) (v : Dom) : (b.setDom n v).berths = b.berths := Block.with_pw_berths b _
@[simp] theorem Block.setDom_chans (b : Block) (n : Nat) (v : Dom) : (b.setDom n v).chans = b.chans := Block.with_pw_chans b _
@[simp] theorem Block.setDom_cols (b : Block) (n : Nat) (v : Dom) : (b.setDom n v).cols = b.cols := Block.with_pw_cols b _
@[simp] theorem Block.setDom_stk (b : Block) (n : Nat) (v : Dom) : (b.setDom n v).stk = b.stk := Block.with_pw_stk b _
@[simp] theorem Block.setDom_keys (b : Block) (n : Nat) (v : Dom) : (b.setDom n v).keys = b.keys := Block.with_pw_keys b _
@[simp] theorem Block.setDom_prot (b : Block) (n : Nat) (v : Dom) : (b.setDom n v).prot = b.prot := Block.with_pw_prot b _
@[simp] theorem Block.setDom_mf (b : Block) (n : Nat) (v : Dom) : (b.setDom n v).mf = b.mf := Block.with_pw_mf b _
@[simp] theorem Block.setDom_heat (b : Block) (n : Nat) (v : Dom) : (b.setDom n v).heat = b.heat := Block.with_pw_heat b _
@[simp] theorem Block.setDom_sv (b : Block) (n : Nat) (v : Dom) : (b.setDom n v).sv = b.sv := Block.with_pw_sv b _
@[simp] theorem Block.setDom_tl (b : Block) (n : Nat) (v : Dom) : (b.setDom n v).tl = b.tl := Block.with_pw_tl b _
@[simp] theorem Block.setDom_lg (b : Block) (n : Nat) (v : Dom) : (b.setDom n v).lg = b.lg := Block.with_pw_lg b _

@[simp] theorem Block.modDom_fresh (b : Block) (n : Nat) (f : Dom → Dom) : (b.modDom n f).fresh = b.fresh := by rw [Block.modDom, Block.setDom_fresh]
@[simp] theorem Block.modDom_csr (b : Block) (n : Nat) (f : Dom → Dom) : (b.modDom n f).csr = b.csr := by rw [Block.modDom, Block.setDom_csr]
@[simp] theorem Block.modDom_cnt (b : Block) (n : Nat) (f : Dom → Dom) : (b.modDom n f).cnt = b.cnt := by rw [Block.modDom, Block.setDom_cnt]
@[simp] theorem Block.modDom_sel (b : Block) (n : Nat) (f : Dom → Dom) : (b.modDom n f).sel = b.sel := by rw [Block.modDom, Block.setDom_sel]
@[simp] theorem Block.modDom_hold (b : Block) (n : Nat) (f : Dom → Dom) : (b.modDom n f).hold = b.hold := by rw [Block.modDom, Block.setDom_hold]
@[simp] theorem Block.modDom_rdData (b : Block) (n : Nat) (f : Dom → Dom) : (b.modDom n f).rdData = b.rdData := by rw [Block.modDom, Block.setDom_rdData]
@[simp] theorem Block.modDom_jtagDr (b : Block) (n : Nat) (f : Dom → Dom) : (b.modDom n f).jtagDr = b.jtagDr := by rw [Block.modDom, Block.setDom_jtagDr]
@[simp] theorem Block.modDom_frzOut (b : Block) (n : Nat) (f : Dom → Dom) : (b.modDom n f).frzOut = b.frzOut := by rw [Block.modDom, Block.setDom_frzOut]
@[simp] theorem Block.modDom_pins (b : Block) (n : Nat) (f : Dom → Dom) : (b.modDom n f).pins = b.pins := by rw [Block.modDom, Block.setDom_pins]
@[simp] theorem Block.modDom_ck (b : Block) (n : Nat) (f : Dom → Dom) : (b.modDom n f).ck = b.ck := by rw [Block.modDom, Block.setDom_ck]
@[simp] theorem Block.modDom_lanes (b : Block) (n : Nat) (f : Dom → Dom) : (b.modDom n f).lanes = b.lanes := by rw [Block.modDom, Block.setDom_lanes]
@[simp] theorem Block.modDom_west (b : Block) (n : Nat) (f : Dom → Dom) : (b.modDom n f).west = b.west := by rw [Block.modDom, Block.setDom_west]
@[simp] theorem Block.modDom_east (b : Block) (n : Nat) (f : Dom → Dom) : (b.modDom n f).east = b.east := by rw [Block.modDom, Block.setDom_east]
@[simp] theorem Block.modDom_fwWE (b : Block) (n : Nat) (f : Dom → Dom) : (b.modDom n f).fwWE = b.fwWE := by rw [Block.modDom, Block.setDom_fwWE]
@[simp] theorem Block.modDom_fwEW (b : Block) (n : Nat) (f : Dom → Dom) : (b.modDom n f).fwEW = b.fwEW := by rw [Block.modDom, Block.setDom_fwEW]
@[simp] theorem Block.modDom_qy (b : Block) (n : Nat) (f : Dom → Dom) : (b.modDom n f).qy = b.qy := by rw [Block.modDom, Block.setDom_qy]
@[simp] theorem Block.modDom_chs (b : Block) (n : Nat) (f : Dom → Dom) : (b.modDom n f).chs = b.chs := by rw [Block.modDom, Block.setDom_chs]
@[simp] theorem Block.modDom_berths (b : Block) (n : Nat) (f : Dom → Dom) : (b.modDom n f).berths = b.berths := by rw [Block.modDom, Block.setDom_berths]
@[simp] theorem Block.modDom_chans (b : Block) (n : Nat) (f : Dom → Dom) : (b.modDom n f).chans = b.chans := by rw [Block.modDom, Block.setDom_chans]
@[simp] theorem Block.modDom_cols (b : Block) (n : Nat) (f : Dom → Dom) : (b.modDom n f).cols = b.cols := by rw [Block.modDom, Block.setDom_cols]
@[simp] theorem Block.modDom_stk (b : Block) (n : Nat) (f : Dom → Dom) : (b.modDom n f).stk = b.stk := by rw [Block.modDom, Block.setDom_stk]
@[simp] theorem Block.modDom_keys (b : Block) (n : Nat) (f : Dom → Dom) : (b.modDom n f).keys = b.keys := by rw [Block.modDom, Block.setDom_keys]
@[simp] theorem Block.modDom_prot (b : Block) (n : Nat) (f : Dom → Dom) : (b.modDom n f).prot = b.prot := by rw [Block.modDom, Block.setDom_prot]
@[simp] theorem Block.modDom_mf (b : Block) (n : Nat) (f : Dom → Dom) : (b.modDom n f).mf = b.mf := by rw [Block.modDom, Block.setDom_mf]
@[simp] theorem Block.modDom_heat (b : Block) (n : Nat) (f : Dom → Dom) : (b.modDom n f).heat = b.heat := by rw [Block.modDom, Block.setDom_heat]
@[simp] theorem Block.modDom_sv (b : Block) (n : Nat) (f : Dom → Dom) : (b.modDom n f).sv = b.sv := by rw [Block.modDom, Block.setDom_sv]
@[simp] theorem Block.modDom_tl (b : Block) (n : Nat) (f : Dom → Dom) : (b.modDom n f).tl = b.tl := by rw [Block.modDom, Block.setDom_tl]
@[simp] theorem Block.modDom_lg (b : Block) (n : Nat) (f : Dom → Dom) : (b.modDom n f).lg = b.lg := by rw [Block.modDom, Block.setDom_lg]

@[simp] theorem Block.setSide_fresh (b : Block) (sd : Side) (v : SideSt) : (b.setSide sd v).fresh = b.fresh := by cases sd <;> rfl
@[simp] theorem Block.setSide_csr (b : Block) (sd : Side) (v : SideSt) : (b.setSide sd v).csr = b.csr := by cases sd <;> rfl
@[simp] theorem Block.setSide_cnt (b : Block) (sd : Side) (v : SideSt) : (b.setSide sd v).cnt = b.cnt := by cases sd <;> rfl
@[simp] theorem Block.setSide_sel (b : Block) (sd : Side) (v : SideSt) : (b.setSide sd v).sel = b.sel := by cases sd <;> rfl
@[simp] theorem Block.setSide_hold (b : Block) (sd : Side) (v : SideSt) : (b.setSide sd v).hold = b.hold := by cases sd <;> rfl
@[simp] theorem Block.setSide_rdData (b : Block) (sd : Side) (v : SideSt) : (b.setSide sd v).rdData = b.rdData := by cases sd <;> rfl
@[simp] theorem Block.setSide_jtagDr (b : Block) (sd : Side) (v : SideSt) : (b.setSide sd v).jtagDr = b.jtagDr := by cases sd <;> rfl
@[simp] theorem Block.setSide_frzOut (b : Block) (sd : Side) (v : SideSt) : (b.setSide sd v).frzOut = b.frzOut := by cases sd <;> rfl
@[simp] theorem Block.setSide_pins (b : Block) (sd : Side) (v : SideSt) : (b.setSide sd v).pins = b.pins := by cases sd <;> rfl
@[simp] theorem Block.setSide_pw (b : Block) (sd : Side) (v : SideSt) : (b.setSide sd v).pw = b.pw := by cases sd <;> rfl
@[simp] theorem Block.setSide_ck (b : Block) (sd : Side) (v : SideSt) : (b.setSide sd v).ck = b.ck := by cases sd <;> rfl
@[simp] theorem Block.setSide_lanes (b : Block) (sd : Side) (v : SideSt) : (b.setSide sd v).lanes = b.lanes := by cases sd <;> rfl
@[simp] theorem Block.setSide_fwWE (b : Block) (sd : Side) (v : SideSt) : (b.setSide sd v).fwWE = b.fwWE := by cases sd <;> rfl
@[simp] theorem Block.setSide_fwEW (b : Block) (sd : Side) (v : SideSt) : (b.setSide sd v).fwEW = b.fwEW := by cases sd <;> rfl
@[simp] theorem Block.setSide_qy (b : Block) (sd : Side) (v : SideSt) : (b.setSide sd v).qy = b.qy := by cases sd <;> rfl
@[simp] theorem Block.setSide_chs (b : Block) (sd : Side) (v : SideSt) : (b.setSide sd v).chs = b.chs := by cases sd <;> rfl
@[simp] theorem Block.setSide_berths (b : Block) (sd : Side) (v : SideSt) : (b.setSide sd v).berths = b.berths := by cases sd <;> rfl
@[simp] theorem Block.setSide_chans (b : Block) (sd : Side) (v : SideSt) : (b.setSide sd v).chans = b.chans := by cases sd <;> rfl
@[simp] theorem Block.setSide_cols (b : Block) (sd : Side) (v : SideSt) : (b.setSide sd v).cols = b.cols := by cases sd <;> rfl
@[simp] theorem Block.setSide_stk (b : Block) (sd : Side) (v : SideSt) : (b.setSide sd v).stk = b.stk := by cases sd <;> rfl
@[simp] theorem Block.setSide_keys (b : Block) (sd : Side) (v : SideSt) : (b.setSide sd v).keys = b.keys := by cases sd <;> rfl
@[simp] theorem Block.setSide_prot (b : Block) (sd : Side) (v : SideSt) : (b.setSide sd v).prot = b.prot := by cases sd <;> rfl
@[simp] theorem Block.setSide_mf (b : Block) (sd : Side) (v : SideSt) : (b.setSide sd v).mf = b.mf := by cases sd <;> rfl
@[simp] theorem Block.setSide_heat (b : Block) (sd : Side) (v : SideSt) : (b.setSide sd v).heat = b.heat := by cases sd <;> rfl
@[simp] theorem Block.setSide_sv (b : Block) (sd : Side) (v : SideSt) : (b.setSide sd v).sv = b.sv := by cases sd <;> rfl
@[simp] theorem Block.setSide_tl (b : Block) (sd : Side) (v : SideSt) : (b.setSide sd v).tl = b.tl := by cases sd <;> rfl
@[simp] theorem Block.setSide_lg (b : Block) (sd : Side) (v : SideSt) : (b.setSide sd v).lg = b.lg := by cases sd <;> rfl

@[simp] theorem Block.modSide_fresh (b : Block) (sd : Side) (f : SideSt → SideSt) : (b.modSide sd f).fresh = b.fresh := by rw [Block.modSide, Block.setSide_fresh]
@[simp] theorem Block.modSide_csr (b : Block) (sd : Side) (f : SideSt → SideSt) : (b.modSide sd f).csr = b.csr := by rw [Block.modSide, Block.setSide_csr]
@[simp] theorem Block.modSide_cnt (b : Block) (sd : Side) (f : SideSt → SideSt) : (b.modSide sd f).cnt = b.cnt := by rw [Block.modSide, Block.setSide_cnt]
@[simp] theorem Block.modSide_sel (b : Block) (sd : Side) (f : SideSt → SideSt) : (b.modSide sd f).sel = b.sel := by rw [Block.modSide, Block.setSide_sel]
@[simp] theorem Block.modSide_hold (b : Block) (sd : Side) (f : SideSt → SideSt) : (b.modSide sd f).hold = b.hold := by rw [Block.modSide, Block.setSide_hold]
@[simp] theorem Block.modSide_rdData (b : Block) (sd : Side) (f : SideSt → SideSt) : (b.modSide sd f).rdData = b.rdData := by rw [Block.modSide, Block.setSide_rdData]
@[simp] theorem Block.modSide_jtagDr (b : Block) (sd : Side) (f : SideSt → SideSt) : (b.modSide sd f).jtagDr = b.jtagDr := by rw [Block.modSide, Block.setSide_jtagDr]
@[simp] theorem Block.modSide_frzOut (b : Block) (sd : Side) (f : SideSt → SideSt) : (b.modSide sd f).frzOut = b.frzOut := by rw [Block.modSide, Block.setSide_frzOut]
@[simp] theorem Block.modSide_pins (b : Block) (sd : Side) (f : SideSt → SideSt) : (b.modSide sd f).pins = b.pins := by rw [Block.modSide, Block.setSide_pins]
@[simp] theorem Block.modSide_pw (b : Block) (sd : Side) (f : SideSt → SideSt) : (b.modSide sd f).pw = b.pw := by rw [Block.modSide, Block.setSide_pw]
@[simp] theorem Block.modSide_ck (b : Block) (sd : Side) (f : SideSt → SideSt) : (b.modSide sd f).ck = b.ck := by rw [Block.modSide, Block.setSide_ck]
@[simp] theorem Block.modSide_lanes (b : Block) (sd : Side) (f : SideSt → SideSt) : (b.modSide sd f).lanes = b.lanes := by rw [Block.modSide, Block.setSide_lanes]
@[simp] theorem Block.modSide_fwWE (b : Block) (sd : Side) (f : SideSt → SideSt) : (b.modSide sd f).fwWE = b.fwWE := by rw [Block.modSide, Block.setSide_fwWE]
@[simp] theorem Block.modSide_fwEW (b : Block) (sd : Side) (f : SideSt → SideSt) : (b.modSide sd f).fwEW = b.fwEW := by rw [Block.modSide, Block.setSide_fwEW]
@[simp] theorem Block.modSide_qy (b : Block) (sd : Side) (f : SideSt → SideSt) : (b.modSide sd f).qy = b.qy := by rw [Block.modSide, Block.setSide_qy]
@[simp] theorem Block.modSide_chs (b : Block) (sd : Side) (f : SideSt → SideSt) : (b.modSide sd f).chs = b.chs := by rw [Block.modSide, Block.setSide_chs]
@[simp] theorem Block.modSide_berths (b : Block) (sd : Side) (f : SideSt → SideSt) : (b.modSide sd f).berths = b.berths := by rw [Block.modSide, Block.setSide_berths]
@[simp] theorem Block.modSide_chans (b : Block) (sd : Side) (f : SideSt → SideSt) : (b.modSide sd f).chans = b.chans := by rw [Block.modSide, Block.setSide_chans]
@[simp] theorem Block.modSide_cols (b : Block) (sd : Side) (f : SideSt → SideSt) : (b.modSide sd f).cols = b.cols := by rw [Block.modSide, Block.setSide_cols]
@[simp] theorem Block.modSide_stk (b : Block) (sd : Side) (f : SideSt → SideSt) : (b.modSide sd f).stk = b.stk := by rw [Block.modSide, Block.setSide_stk]
@[simp] theorem Block.modSide_keys (b : Block) (sd : Side) (f : SideSt → SideSt) : (b.modSide sd f).keys = b.keys := by rw [Block.modSide, Block.setSide_keys]
@[simp] theorem Block.modSide_prot (b : Block) (sd : Side) (f : SideSt → SideSt) : (b.modSide sd f).prot = b.prot := by rw [Block.modSide, Block.setSide_prot]
@[simp] theorem Block.modSide_mf (b : Block) (sd : Side) (f : SideSt → SideSt) : (b.modSide sd f).mf = b.mf := by rw [Block.modSide, Block.setSide_mf]
@[simp] theorem Block.modSide_heat (b : Block) (sd : Side) (f : SideSt → SideSt) : (b.modSide sd f).heat = b.heat := by rw [Block.modSide, Block.setSide_heat]
@[simp] theorem Block.modSide_sv (b : Block) (sd : Side) (f : SideSt → SideSt) : (b.modSide sd f).sv = b.sv := by rw [Block.modSide, Block.setSide_sv]
@[simp] theorem Block.modSide_tl (b : Block) (sd : Side) (f : SideSt → SideSt) : (b.modSide sd f).tl = b.tl := by rw [Block.modSide, Block.setSide_tl]
@[simp] theorem Block.modSide_lg (b : Block) (sd : Side) (f : SideSt → SideSt) : (b.modSide sd f).lg = b.lg := by rw [Block.modSide, Block.setSide_lg]

@[simp] theorem Block.setFw_fresh (b : Block) (sd : Side) (v : Fairway) : (b.setFw sd v).fresh = b.fresh := by cases sd <;> rfl
@[simp] theorem Block.setFw_csr (b : Block) (sd : Side) (v : Fairway) : (b.setFw sd v).csr = b.csr := by cases sd <;> rfl
@[simp] theorem Block.setFw_cnt (b : Block) (sd : Side) (v : Fairway) : (b.setFw sd v).cnt = b.cnt := by cases sd <;> rfl
@[simp] theorem Block.setFw_sel (b : Block) (sd : Side) (v : Fairway) : (b.setFw sd v).sel = b.sel := by cases sd <;> rfl
@[simp] theorem Block.setFw_hold (b : Block) (sd : Side) (v : Fairway) : (b.setFw sd v).hold = b.hold := by cases sd <;> rfl
@[simp] theorem Block.setFw_rdData (b : Block) (sd : Side) (v : Fairway) : (b.setFw sd v).rdData = b.rdData := by cases sd <;> rfl
@[simp] theorem Block.setFw_jtagDr (b : Block) (sd : Side) (v : Fairway) : (b.setFw sd v).jtagDr = b.jtagDr := by cases sd <;> rfl
@[simp] theorem Block.setFw_frzOut (b : Block) (sd : Side) (v : Fairway) : (b.setFw sd v).frzOut = b.frzOut := by cases sd <;> rfl
@[simp] theorem Block.setFw_pins (b : Block) (sd : Side) (v : Fairway) : (b.setFw sd v).pins = b.pins := by cases sd <;> rfl
@[simp] theorem Block.setFw_pw (b : Block) (sd : Side) (v : Fairway) : (b.setFw sd v).pw = b.pw := by cases sd <;> rfl
@[simp] theorem Block.setFw_ck (b : Block) (sd : Side) (v : Fairway) : (b.setFw sd v).ck = b.ck := by cases sd <;> rfl
@[simp] theorem Block.setFw_lanes (b : Block) (sd : Side) (v : Fairway) : (b.setFw sd v).lanes = b.lanes := by cases sd <;> rfl
@[simp] theorem Block.setFw_west (b : Block) (sd : Side) (v : Fairway) : (b.setFw sd v).west = b.west := by cases sd <;> rfl
@[simp] theorem Block.setFw_east (b : Block) (sd : Side) (v : Fairway) : (b.setFw sd v).east = b.east := by cases sd <;> rfl
@[simp] theorem Block.setFw_qy (b : Block) (sd : Side) (v : Fairway) : (b.setFw sd v).qy = b.qy := by cases sd <;> rfl
@[simp] theorem Block.setFw_chs (b : Block) (sd : Side) (v : Fairway) : (b.setFw sd v).chs = b.chs := by cases sd <;> rfl
@[simp] theorem Block.setFw_berths (b : Block) (sd : Side) (v : Fairway) : (b.setFw sd v).berths = b.berths := by cases sd <;> rfl
@[simp] theorem Block.setFw_chans (b : Block) (sd : Side) (v : Fairway) : (b.setFw sd v).chans = b.chans := by cases sd <;> rfl
@[simp] theorem Block.setFw_cols (b : Block) (sd : Side) (v : Fairway) : (b.setFw sd v).cols = b.cols := by cases sd <;> rfl
@[simp] theorem Block.setFw_stk (b : Block) (sd : Side) (v : Fairway) : (b.setFw sd v).stk = b.stk := by cases sd <;> rfl
@[simp] theorem Block.setFw_keys (b : Block) (sd : Side) (v : Fairway) : (b.setFw sd v).keys = b.keys := by cases sd <;> rfl
@[simp] theorem Block.setFw_prot (b : Block) (sd : Side) (v : Fairway) : (b.setFw sd v).prot = b.prot := by cases sd <;> rfl
@[simp] theorem Block.setFw_mf (b : Block) (sd : Side) (v : Fairway) : (b.setFw sd v).mf = b.mf := by cases sd <;> rfl
@[simp] theorem Block.setFw_heat (b : Block) (sd : Side) (v : Fairway) : (b.setFw sd v).heat = b.heat := by cases sd <;> rfl
@[simp] theorem Block.setFw_sv (b : Block) (sd : Side) (v : Fairway) : (b.setFw sd v).sv = b.sv := by cases sd <;> rfl
@[simp] theorem Block.setFw_tl (b : Block) (sd : Side) (v : Fairway) : (b.setFw sd v).tl = b.tl := by cases sd <;> rfl
@[simp] theorem Block.setFw_lg (b : Block) (sd : Side) (v : Fairway) : (b.setFw sd v).lg = b.lg := by cases sd <;> rfl

@[simp] theorem Block.modFw_fresh (b : Block) (sd : Side) (f : Fairway → Fairway) : (b.modFw sd f).fresh = b.fresh := by rw [Block.modFw, Block.setFw_fresh]
@[simp] theorem Block.modFw_csr (b : Block) (sd : Side) (f : Fairway → Fairway) : (b.modFw sd f).csr = b.csr := by rw [Block.modFw, Block.setFw_csr]
@[simp] theorem Block.modFw_cnt (b : Block) (sd : Side) (f : Fairway → Fairway) : (b.modFw sd f).cnt = b.cnt := by rw [Block.modFw, Block.setFw_cnt]
@[simp] theorem Block.modFw_sel (b : Block) (sd : Side) (f : Fairway → Fairway) : (b.modFw sd f).sel = b.sel := by rw [Block.modFw, Block.setFw_sel]
@[simp] theorem Block.modFw_hold (b : Block) (sd : Side) (f : Fairway → Fairway) : (b.modFw sd f).hold = b.hold := by rw [Block.modFw, Block.setFw_hold]
@[simp] theorem Block.modFw_rdData (b : Block) (sd : Side) (f : Fairway → Fairway) : (b.modFw sd f).rdData = b.rdData := by rw [Block.modFw, Block.setFw_rdData]
@[simp] theorem Block.modFw_jtagDr (b : Block) (sd : Side) (f : Fairway → Fairway) : (b.modFw sd f).jtagDr = b.jtagDr := by rw [Block.modFw, Block.setFw_jtagDr]
@[simp] theorem Block.modFw_frzOut (b : Block) (sd : Side) (f : Fairway → Fairway) : (b.modFw sd f).frzOut = b.frzOut := by rw [Block.modFw, Block.setFw_frzOut]
@[simp] theorem Block.modFw_pins (b : Block) (sd : Side) (f : Fairway → Fairway) : (b.modFw sd f).pins = b.pins := by rw [Block.modFw, Block.setFw_pins]
@[simp] theorem Block.modFw_pw (b : Block) (sd : Side) (f : Fairway → Fairway) : (b.modFw sd f).pw = b.pw := by rw [Block.modFw, Block.setFw_pw]
@[simp] theorem Block.modFw_ck (b : Block) (sd : Side) (f : Fairway → Fairway) : (b.modFw sd f).ck = b.ck := by rw [Block.modFw, Block.setFw_ck]
@[simp] theorem Block.modFw_lanes (b : Block) (sd : Side) (f : Fairway → Fairway) : (b.modFw sd f).lanes = b.lanes := by rw [Block.modFw, Block.setFw_lanes]
@[simp] theorem Block.modFw_west (b : Block) (sd : Side) (f : Fairway → Fairway) : (b.modFw sd f).west = b.west := by rw [Block.modFw, Block.setFw_west]
@[simp] theorem Block.modFw_east (b : Block) (sd : Side) (f : Fairway → Fairway) : (b.modFw sd f).east = b.east := by rw [Block.modFw, Block.setFw_east]
@[simp] theorem Block.modFw_qy (b : Block) (sd : Side) (f : Fairway → Fairway) : (b.modFw sd f).qy = b.qy := by rw [Block.modFw, Block.setFw_qy]
@[simp] theorem Block.modFw_chs (b : Block) (sd : Side) (f : Fairway → Fairway) : (b.modFw sd f).chs = b.chs := by rw [Block.modFw, Block.setFw_chs]
@[simp] theorem Block.modFw_berths (b : Block) (sd : Side) (f : Fairway → Fairway) : (b.modFw sd f).berths = b.berths := by rw [Block.modFw, Block.setFw_berths]
@[simp] theorem Block.modFw_chans (b : Block) (sd : Side) (f : Fairway → Fairway) : (b.modFw sd f).chans = b.chans := by rw [Block.modFw, Block.setFw_chans]
@[simp] theorem Block.modFw_cols (b : Block) (sd : Side) (f : Fairway → Fairway) : (b.modFw sd f).cols = b.cols := by rw [Block.modFw, Block.setFw_cols]
@[simp] theorem Block.modFw_stk (b : Block) (sd : Side) (f : Fairway → Fairway) : (b.modFw sd f).stk = b.stk := by rw [Block.modFw, Block.setFw_stk]
@[simp] theorem Block.modFw_keys (b : Block) (sd : Side) (f : Fairway → Fairway) : (b.modFw sd f).keys = b.keys := by rw [Block.modFw, Block.setFw_keys]
@[simp] theorem Block.modFw_prot (b : Block) (sd : Side) (f : Fairway → Fairway) : (b.modFw sd f).prot = b.prot := by rw [Block.modFw, Block.setFw_prot]
@[simp] theorem Block.modFw_mf (b : Block) (sd : Side) (f : Fairway → Fairway) : (b.modFw sd f).mf = b.mf := by rw [Block.modFw, Block.setFw_mf]
@[simp] theorem Block.modFw_heat (b : Block) (sd : Side) (f : Fairway → Fairway) : (b.modFw sd f).heat = b.heat := by rw [Block.modFw, Block.setFw_heat]
@[simp] theorem Block.modFw_sv (b : Block) (sd : Side) (f : Fairway → Fairway) : (b.modFw sd f).sv = b.sv := by rw [Block.modFw, Block.setFw_sv]
@[simp] theorem Block.modFw_tl (b : Block) (sd : Side) (f : Fairway → Fairway) : (b.modFw sd f).tl = b.tl := by rw [Block.modFw, Block.setFw_tl]
@[simp] theorem Block.modFw_lg (b : Block) (sd : Side) (f : Fairway → Fairway) : (b.modFw sd f).lg = b.lg := by rw [Block.modFw, Block.setFw_lg]

@[simp] theorem Block.setPll_fresh (b : Block) (p : Pll) (v : PllSt) : (b.setPll p v).fresh = b.fresh := by cases p <;> rfl
@[simp] theorem Block.setPll_csr (b : Block) (p : Pll) (v : PllSt) : (b.setPll p v).csr = b.csr := by cases p <;> rfl
@[simp] theorem Block.setPll_cnt (b : Block) (p : Pll) (v : PllSt) : (b.setPll p v).cnt = b.cnt := by cases p <;> rfl
@[simp] theorem Block.setPll_sel (b : Block) (p : Pll) (v : PllSt) : (b.setPll p v).sel = b.sel := by cases p <;> rfl
@[simp] theorem Block.setPll_hold (b : Block) (p : Pll) (v : PllSt) : (b.setPll p v).hold = b.hold := by cases p <;> rfl
@[simp] theorem Block.setPll_rdData (b : Block) (p : Pll) (v : PllSt) : (b.setPll p v).rdData = b.rdData := by cases p <;> rfl
@[simp] theorem Block.setPll_jtagDr (b : Block) (p : Pll) (v : PllSt) : (b.setPll p v).jtagDr = b.jtagDr := by cases p <;> rfl
@[simp] theorem Block.setPll_frzOut (b : Block) (p : Pll) (v : PllSt) : (b.setPll p v).frzOut = b.frzOut := by cases p <;> rfl
@[simp] theorem Block.setPll_pins (b : Block) (p : Pll) (v : PllSt) : (b.setPll p v).pins = b.pins := by cases p <;> rfl
@[simp] theorem Block.setPll_pw (b : Block) (p : Pll) (v : PllSt) : (b.setPll p v).pw = b.pw := by cases p <;> rfl
@[simp] theorem Block.setPll_lanes (b : Block) (p : Pll) (v : PllSt) : (b.setPll p v).lanes = b.lanes := by cases p <;> rfl
@[simp] theorem Block.setPll_west (b : Block) (p : Pll) (v : PllSt) : (b.setPll p v).west = b.west := by cases p <;> rfl
@[simp] theorem Block.setPll_east (b : Block) (p : Pll) (v : PllSt) : (b.setPll p v).east = b.east := by cases p <;> rfl
@[simp] theorem Block.setPll_fwWE (b : Block) (p : Pll) (v : PllSt) : (b.setPll p v).fwWE = b.fwWE := by cases p <;> rfl
@[simp] theorem Block.setPll_fwEW (b : Block) (p : Pll) (v : PllSt) : (b.setPll p v).fwEW = b.fwEW := by cases p <;> rfl
@[simp] theorem Block.setPll_qy (b : Block) (p : Pll) (v : PllSt) : (b.setPll p v).qy = b.qy := by cases p <;> rfl
@[simp] theorem Block.setPll_chs (b : Block) (p : Pll) (v : PllSt) : (b.setPll p v).chs = b.chs := by cases p <;> rfl
@[simp] theorem Block.setPll_berths (b : Block) (p : Pll) (v : PllSt) : (b.setPll p v).berths = b.berths := by cases p <;> rfl
@[simp] theorem Block.setPll_chans (b : Block) (p : Pll) (v : PllSt) : (b.setPll p v).chans = b.chans := by cases p <;> rfl
@[simp] theorem Block.setPll_cols (b : Block) (p : Pll) (v : PllSt) : (b.setPll p v).cols = b.cols := by cases p <;> rfl
@[simp] theorem Block.setPll_stk (b : Block) (p : Pll) (v : PllSt) : (b.setPll p v).stk = b.stk := by cases p <;> rfl
@[simp] theorem Block.setPll_keys (b : Block) (p : Pll) (v : PllSt) : (b.setPll p v).keys = b.keys := by cases p <;> rfl
@[simp] theorem Block.setPll_prot (b : Block) (p : Pll) (v : PllSt) : (b.setPll p v).prot = b.prot := by cases p <;> rfl
@[simp] theorem Block.setPll_mf (b : Block) (p : Pll) (v : PllSt) : (b.setPll p v).mf = b.mf := by cases p <;> rfl
@[simp] theorem Block.setPll_heat (b : Block) (p : Pll) (v : PllSt) : (b.setPll p v).heat = b.heat := by cases p <;> rfl
@[simp] theorem Block.setPll_sv (b : Block) (p : Pll) (v : PllSt) : (b.setPll p v).sv = b.sv := by cases p <;> rfl
@[simp] theorem Block.setPll_tl (b : Block) (p : Pll) (v : PllSt) : (b.setPll p v).tl = b.tl := by cases p <;> rfl
@[simp] theorem Block.setPll_lg (b : Block) (p : Pll) (v : PllSt) : (b.setPll p v).lg = b.lg := by cases p <;> rfl

theorem Block.with_csr_fresh (b : Block) (x : Tbl Word) : (Block.fresh { b with csr := x }) = b.fresh := rfl
theorem Block.with_csr_cnt (b : Block) (x : Tbl Word) : (Block.cnt { b with csr := x }) = b.cnt := rfl
theorem Block.with_csr_sel (b : Block) (x : Tbl Word) : (Block.sel { b with csr := x }) = b.sel := rfl
theorem Block.with_csr_hold (b : Block) (x : Tbl Word) : (Block.hold { b with csr := x }) = b.hold := rfl
theorem Block.with_csr_rdData (b : Block) (x : Tbl Word) : (Block.rdData { b with csr := x }) = b.rdData := rfl
theorem Block.with_csr_jtagDr (b : Block) (x : Tbl Word) : (Block.jtagDr { b with csr := x }) = b.jtagDr := rfl
theorem Block.with_csr_frzOut (b : Block) (x : Tbl Word) : (Block.frzOut { b with csr := x }) = b.frzOut := rfl
theorem Block.with_csr_pins (b : Block) (x : Tbl Word) : (Block.pins { b with csr := x }) = b.pins := rfl
theorem Block.with_csr_pw (b : Block) (x : Tbl Word) : (Block.pw { b with csr := x }) = b.pw := rfl
theorem Block.with_csr_ck (b : Block) (x : Tbl Word) : (Block.ck { b with csr := x }) = b.ck := rfl
theorem Block.with_csr_lanes (b : Block) (x : Tbl Word) : (Block.lanes { b with csr := x }) = b.lanes := rfl
theorem Block.with_csr_west (b : Block) (x : Tbl Word) : (Block.west { b with csr := x }) = b.west := rfl
theorem Block.with_csr_east (b : Block) (x : Tbl Word) : (Block.east { b with csr := x }) = b.east := rfl
theorem Block.with_csr_fwWE (b : Block) (x : Tbl Word) : (Block.fwWE { b with csr := x }) = b.fwWE := rfl
theorem Block.with_csr_fwEW (b : Block) (x : Tbl Word) : (Block.fwEW { b with csr := x }) = b.fwEW := rfl
theorem Block.with_csr_qy (b : Block) (x : Tbl Word) : (Block.qy { b with csr := x }) = b.qy := rfl
theorem Block.with_csr_chs (b : Block) (x : Tbl Word) : (Block.chs { b with csr := x }) = b.chs := rfl
theorem Block.with_csr_berths (b : Block) (x : Tbl Word) : (Block.berths { b with csr := x }) = b.berths := rfl
theorem Block.with_csr_chans (b : Block) (x : Tbl Word) : (Block.chans { b with csr := x }) = b.chans := rfl
theorem Block.with_csr_cols (b : Block) (x : Tbl Word) : (Block.cols { b with csr := x }) = b.cols := rfl
theorem Block.with_csr_stk (b : Block) (x : Tbl Word) : (Block.stk { b with csr := x }) = b.stk := rfl
theorem Block.with_csr_keys (b : Block) (x : Tbl Word) : (Block.keys { b with csr := x }) = b.keys := rfl
theorem Block.with_csr_prot (b : Block) (x : Tbl Word) : (Block.prot { b with csr := x }) = b.prot := rfl
theorem Block.with_csr_mf (b : Block) (x : Tbl Word) : (Block.mf { b with csr := x }) = b.mf := rfl
theorem Block.with_csr_heat (b : Block) (x : Tbl Word) : (Block.heat { b with csr := x }) = b.heat := rfl
theorem Block.with_csr_sv (b : Block) (x : Tbl Word) : (Block.sv { b with csr := x }) = b.sv := rfl
theorem Block.with_csr_tl (b : Block) (x : Tbl Word) : (Block.tl { b with csr := x }) = b.tl := rfl
theorem Block.with_csr_lg (b : Block) (x : Tbl Word) : (Block.lg { b with csr := x }) = b.lg := rfl

@[simp] theorem Block.setReg_fresh (b : Block) (off : Nat) (v : Word) : (b.setReg off v).fresh = b.fresh := Block.with_csr_fresh b _
@[simp] theorem Block.setReg_cnt (b : Block) (off : Nat) (v : Word) : (b.setReg off v).cnt = b.cnt := Block.with_csr_cnt b _
@[simp] theorem Block.setReg_sel (b : Block) (off : Nat) (v : Word) : (b.setReg off v).sel = b.sel := Block.with_csr_sel b _
@[simp] theorem Block.setReg_hold (b : Block) (off : Nat) (v : Word) : (b.setReg off v).hold = b.hold := Block.with_csr_hold b _
@[simp] theorem Block.setReg_rdData (b : Block) (off : Nat) (v : Word) : (b.setReg off v).rdData = b.rdData := Block.with_csr_rdData b _
@[simp] theorem Block.setReg_jtagDr (b : Block) (off : Nat) (v : Word) : (b.setReg off v).jtagDr = b.jtagDr := Block.with_csr_jtagDr b _
@[simp] theorem Block.setReg_frzOut (b : Block) (off : Nat) (v : Word) : (b.setReg off v).frzOut = b.frzOut := Block.with_csr_frzOut b _
@[simp] theorem Block.setReg_pins (b : Block) (off : Nat) (v : Word) : (b.setReg off v).pins = b.pins := Block.with_csr_pins b _
@[simp] theorem Block.setReg_pw (b : Block) (off : Nat) (v : Word) : (b.setReg off v).pw = b.pw := Block.with_csr_pw b _
@[simp] theorem Block.setReg_ck (b : Block) (off : Nat) (v : Word) : (b.setReg off v).ck = b.ck := Block.with_csr_ck b _
@[simp] theorem Block.setReg_lanes (b : Block) (off : Nat) (v : Word) : (b.setReg off v).lanes = b.lanes := Block.with_csr_lanes b _
@[simp] theorem Block.setReg_west (b : Block) (off : Nat) (v : Word) : (b.setReg off v).west = b.west := Block.with_csr_west b _
@[simp] theorem Block.setReg_east (b : Block) (off : Nat) (v : Word) : (b.setReg off v).east = b.east := Block.with_csr_east b _
@[simp] theorem Block.setReg_fwWE (b : Block) (off : Nat) (v : Word) : (b.setReg off v).fwWE = b.fwWE := Block.with_csr_fwWE b _
@[simp] theorem Block.setReg_fwEW (b : Block) (off : Nat) (v : Word) : (b.setReg off v).fwEW = b.fwEW := Block.with_csr_fwEW b _
@[simp] theorem Block.setReg_qy (b : Block) (off : Nat) (v : Word) : (b.setReg off v).qy = b.qy := Block.with_csr_qy b _
@[simp] theorem Block.setReg_chs (b : Block) (off : Nat) (v : Word) : (b.setReg off v).chs = b.chs := Block.with_csr_chs b _
@[simp] theorem Block.setReg_berths (b : Block) (off : Nat) (v : Word) : (b.setReg off v).berths = b.berths := Block.with_csr_berths b _
@[simp] theorem Block.setReg_chans (b : Block) (off : Nat) (v : Word) : (b.setReg off v).chans = b.chans := Block.with_csr_chans b _
@[simp] theorem Block.setReg_cols (b : Block) (off : Nat) (v : Word) : (b.setReg off v).cols = b.cols := Block.with_csr_cols b _
@[simp] theorem Block.setReg_stk (b : Block) (off : Nat) (v : Word) : (b.setReg off v).stk = b.stk := Block.with_csr_stk b _
@[simp] theorem Block.setReg_keys (b : Block) (off : Nat) (v : Word) : (b.setReg off v).keys = b.keys := Block.with_csr_keys b _
@[simp] theorem Block.setReg_prot (b : Block) (off : Nat) (v : Word) : (b.setReg off v).prot = b.prot := Block.with_csr_prot b _
@[simp] theorem Block.setReg_mf (b : Block) (off : Nat) (v : Word) : (b.setReg off v).mf = b.mf := Block.with_csr_mf b _
@[simp] theorem Block.setReg_heat (b : Block) (off : Nat) (v : Word) : (b.setReg off v).heat = b.heat := Block.with_csr_heat b _
@[simp] theorem Block.setReg_sv (b : Block) (off : Nat) (v : Word) : (b.setReg off v).sv = b.sv := Block.with_csr_sv b _
@[simp] theorem Block.setReg_tl (b : Block) (off : Nat) (v : Word) : (b.setReg off v).tl = b.tl := Block.with_csr_tl b _
@[simp] theorem Block.setReg_lg (b : Block) (off : Nat) (v : Word) : (b.setReg off v).lg = b.lg := Block.with_csr_lg b _

@[simp] theorem Block.orReg_fresh (b : Block) (off : Nat) (m : Word) : (b.orReg off m).fresh = b.fresh := by rw [Block.orReg, Block.setReg_fresh]
@[simp] theorem Block.orReg_cnt (b : Block) (off : Nat) (m : Word) : (b.orReg off m).cnt = b.cnt := by rw [Block.orReg, Block.setReg_cnt]
@[simp] theorem Block.orReg_sel (b : Block) (off : Nat) (m : Word) : (b.orReg off m).sel = b.sel := by rw [Block.orReg, Block.setReg_sel]
@[simp] theorem Block.orReg_hold (b : Block) (off : Nat) (m : Word) : (b.orReg off m).hold = b.hold := by rw [Block.orReg, Block.setReg_hold]
@[simp] theorem Block.orReg_rdData (b : Block) (off : Nat) (m : Word) : (b.orReg off m).rdData = b.rdData := by rw [Block.orReg, Block.setReg_rdData]
@[simp] theorem Block.orReg_jtagDr (b : Block) (off : Nat) (m : Word) : (b.orReg off m).jtagDr = b.jtagDr := by rw [Block.orReg, Block.setReg_jtagDr]
@[simp] theorem Block.orReg_frzOut (b : Block) (off : Nat) (m : Word) : (b.orReg off m).frzOut = b.frzOut := by rw [Block.orReg, Block.setReg_frzOut]
@[simp] theorem Block.orReg_pins (b : Block) (off : Nat) (m : Word) : (b.orReg off m).pins = b.pins := by rw [Block.orReg, Block.setReg_pins]
@[simp] theorem Block.orReg_pw (b : Block) (off : Nat) (m : Word) : (b.orReg off m).pw = b.pw := by rw [Block.orReg, Block.setReg_pw]
@[simp] theorem Block.orReg_ck (b : Block) (off : Nat) (m : Word) : (b.orReg off m).ck = b.ck := by rw [Block.orReg, Block.setReg_ck]
@[simp] theorem Block.orReg_lanes (b : Block) (off : Nat) (m : Word) : (b.orReg off m).lanes = b.lanes := by rw [Block.orReg, Block.setReg_lanes]
@[simp] theorem Block.orReg_west (b : Block) (off : Nat) (m : Word) : (b.orReg off m).west = b.west := by rw [Block.orReg, Block.setReg_west]
@[simp] theorem Block.orReg_east (b : Block) (off : Nat) (m : Word) : (b.orReg off m).east = b.east := by rw [Block.orReg, Block.setReg_east]
@[simp] theorem Block.orReg_fwWE (b : Block) (off : Nat) (m : Word) : (b.orReg off m).fwWE = b.fwWE := by rw [Block.orReg, Block.setReg_fwWE]
@[simp] theorem Block.orReg_fwEW (b : Block) (off : Nat) (m : Word) : (b.orReg off m).fwEW = b.fwEW := by rw [Block.orReg, Block.setReg_fwEW]
@[simp] theorem Block.orReg_qy (b : Block) (off : Nat) (m : Word) : (b.orReg off m).qy = b.qy := by rw [Block.orReg, Block.setReg_qy]
@[simp] theorem Block.orReg_chs (b : Block) (off : Nat) (m : Word) : (b.orReg off m).chs = b.chs := by rw [Block.orReg, Block.setReg_chs]
@[simp] theorem Block.orReg_berths (b : Block) (off : Nat) (m : Word) : (b.orReg off m).berths = b.berths := by rw [Block.orReg, Block.setReg_berths]
@[simp] theorem Block.orReg_chans (b : Block) (off : Nat) (m : Word) : (b.orReg off m).chans = b.chans := by rw [Block.orReg, Block.setReg_chans]
@[simp] theorem Block.orReg_cols (b : Block) (off : Nat) (m : Word) : (b.orReg off m).cols = b.cols := by rw [Block.orReg, Block.setReg_cols]
@[simp] theorem Block.orReg_stk (b : Block) (off : Nat) (m : Word) : (b.orReg off m).stk = b.stk := by rw [Block.orReg, Block.setReg_stk]
@[simp] theorem Block.orReg_keys (b : Block) (off : Nat) (m : Word) : (b.orReg off m).keys = b.keys := by rw [Block.orReg, Block.setReg_keys]
@[simp] theorem Block.orReg_prot (b : Block) (off : Nat) (m : Word) : (b.orReg off m).prot = b.prot := by rw [Block.orReg, Block.setReg_prot]
@[simp] theorem Block.orReg_mf (b : Block) (off : Nat) (m : Word) : (b.orReg off m).mf = b.mf := by rw [Block.orReg, Block.setReg_mf]
@[simp] theorem Block.orReg_heat (b : Block) (off : Nat) (m : Word) : (b.orReg off m).heat = b.heat := by rw [Block.orReg, Block.setReg_heat]
@[simp] theorem Block.orReg_sv (b : Block) (off : Nat) (m : Word) : (b.orReg off m).sv = b.sv := by rw [Block.orReg, Block.setReg_sv]
@[simp] theorem Block.orReg_tl (b : Block) (off : Nat) (m : Word) : (b.orReg off m).tl = b.tl := by rw [Block.orReg, Block.setReg_tl]
@[simp] theorem Block.orReg_lg (b : Block) (off : Nat) (m : Word) : (b.orReg off m).lg = b.lg := by rw [Block.orReg, Block.setReg_lg]

@[simp] theorem Block.clrReg_fresh (b : Block) (off : Nat) (m : Word) : (b.clrReg off m).fresh = b.fresh := by rw [Block.clrReg, Block.setReg_fresh]
@[simp] theorem Block.clrReg_cnt (b : Block) (off : Nat) (m : Word) : (b.clrReg off m).cnt = b.cnt := by rw [Block.clrReg, Block.setReg_cnt]
@[simp] theorem Block.clrReg_sel (b : Block) (off : Nat) (m : Word) : (b.clrReg off m).sel = b.sel := by rw [Block.clrReg, Block.setReg_sel]
@[simp] theorem Block.clrReg_hold (b : Block) (off : Nat) (m : Word) : (b.clrReg off m).hold = b.hold := by rw [Block.clrReg, Block.setReg_hold]
@[simp] theorem Block.clrReg_rdData (b : Block) (off : Nat) (m : Word) : (b.clrReg off m).rdData = b.rdData := by rw [Block.clrReg, Block.setReg_rdData]
@[simp] theorem Block.clrReg_jtagDr (b : Block) (off : Nat) (m : Word) : (b.clrReg off m).jtagDr = b.jtagDr := by rw [Block.clrReg, Block.setReg_jtagDr]
@[simp] theorem Block.clrReg_frzOut (b : Block) (off : Nat) (m : Word) : (b.clrReg off m).frzOut = b.frzOut := by rw [Block.clrReg, Block.setReg_frzOut]
@[simp] theorem Block.clrReg_pins (b : Block) (off : Nat) (m : Word) : (b.clrReg off m).pins = b.pins := by rw [Block.clrReg, Block.setReg_pins]
@[simp] theorem Block.clrReg_pw (b : Block) (off : Nat) (m : Word) : (b.clrReg off m).pw = b.pw := by rw [Block.clrReg, Block.setReg_pw]
@[simp] theorem Block.clrReg_ck (b : Block) (off : Nat) (m : Word) : (b.clrReg off m).ck = b.ck := by rw [Block.clrReg, Block.setReg_ck]
@[simp] theorem Block.clrReg_lanes (b : Block) (off : Nat) (m : Word) : (b.clrReg off m).lanes = b.lanes := by rw [Block.clrReg, Block.setReg_lanes]
@[simp] theorem Block.clrReg_west (b : Block) (off : Nat) (m : Word) : (b.clrReg off m).west = b.west := by rw [Block.clrReg, Block.setReg_west]
@[simp] theorem Block.clrReg_east (b : Block) (off : Nat) (m : Word) : (b.clrReg off m).east = b.east := by rw [Block.clrReg, Block.setReg_east]
@[simp] theorem Block.clrReg_fwWE (b : Block) (off : Nat) (m : Word) : (b.clrReg off m).fwWE = b.fwWE := by rw [Block.clrReg, Block.setReg_fwWE]
@[simp] theorem Block.clrReg_fwEW (b : Block) (off : Nat) (m : Word) : (b.clrReg off m).fwEW = b.fwEW := by rw [Block.clrReg, Block.setReg_fwEW]
@[simp] theorem Block.clrReg_qy (b : Block) (off : Nat) (m : Word) : (b.clrReg off m).qy = b.qy := by rw [Block.clrReg, Block.setReg_qy]
@[simp] theorem Block.clrReg_chs (b : Block) (off : Nat) (m : Word) : (b.clrReg off m).chs = b.chs := by rw [Block.clrReg, Block.setReg_chs]
@[simp] theorem Block.clrReg_berths (b : Block) (off : Nat) (m : Word) : (b.clrReg off m).berths = b.berths := by rw [Block.clrReg, Block.setReg_berths]
@[simp] theorem Block.clrReg_chans (b : Block) (off : Nat) (m : Word) : (b.clrReg off m).chans = b.chans := by rw [Block.clrReg, Block.setReg_chans]
@[simp] theorem Block.clrReg_cols (b : Block) (off : Nat) (m : Word) : (b.clrReg off m).cols = b.cols := by rw [Block.clrReg, Block.setReg_cols]
@[simp] theorem Block.clrReg_stk (b : Block) (off : Nat) (m : Word) : (b.clrReg off m).stk = b.stk := by rw [Block.clrReg, Block.setReg_stk]
@[simp] theorem Block.clrReg_keys (b : Block) (off : Nat) (m : Word) : (b.clrReg off m).keys = b.keys := by rw [Block.clrReg, Block.setReg_keys]
@[simp] theorem Block.clrReg_prot (b : Block) (off : Nat) (m : Word) : (b.clrReg off m).prot = b.prot := by rw [Block.clrReg, Block.setReg_prot]
@[simp] theorem Block.clrReg_mf (b : Block) (off : Nat) (m : Word) : (b.clrReg off m).mf = b.mf := by rw [Block.clrReg, Block.setReg_mf]
@[simp] theorem Block.clrReg_heat (b : Block) (off : Nat) (m : Word) : (b.clrReg off m).heat = b.heat := by rw [Block.clrReg, Block.setReg_heat]
@[simp] theorem Block.clrReg_sv (b : Block) (off : Nat) (m : Word) : (b.clrReg off m).sv = b.sv := by rw [Block.clrReg, Block.setReg_sv]
@[simp] theorem Block.clrReg_tl (b : Block) (off : Nat) (m : Word) : (b.clrReg off m).tl = b.tl := by rw [Block.clrReg, Block.setReg_tl]
@[simp] theorem Block.clrReg_lg (b : Block) (off : Nat) (m : Word) : (b.clrReg off m).lg = b.lg := by rw [Block.clrReg, Block.setReg_lg]

theorem Block.with_sel_fresh (b : Block) (x : Tbl Word) : (Block.fresh { b with sel := x }) = b.fresh := rfl
theorem Block.with_sel_csr (b : Block) (x : Tbl Word) : (Block.csr { b with sel := x }) = b.csr := rfl
theorem Block.with_sel_cnt (b : Block) (x : Tbl Word) : (Block.cnt { b with sel := x }) = b.cnt := rfl
theorem Block.with_sel_hold (b : Block) (x : Tbl Word) : (Block.hold { b with sel := x }) = b.hold := rfl
theorem Block.with_sel_rdData (b : Block) (x : Tbl Word) : (Block.rdData { b with sel := x }) = b.rdData := rfl
theorem Block.with_sel_jtagDr (b : Block) (x : Tbl Word) : (Block.jtagDr { b with sel := x }) = b.jtagDr := rfl
theorem Block.with_sel_frzOut (b : Block) (x : Tbl Word) : (Block.frzOut { b with sel := x }) = b.frzOut := rfl
theorem Block.with_sel_pins (b : Block) (x : Tbl Word) : (Block.pins { b with sel := x }) = b.pins := rfl
theorem Block.with_sel_pw (b : Block) (x : Tbl Word) : (Block.pw { b with sel := x }) = b.pw := rfl
theorem Block.with_sel_ck (b : Block) (x : Tbl Word) : (Block.ck { b with sel := x }) = b.ck := rfl
theorem Block.with_sel_lanes (b : Block) (x : Tbl Word) : (Block.lanes { b with sel := x }) = b.lanes := rfl
theorem Block.with_sel_west (b : Block) (x : Tbl Word) : (Block.west { b with sel := x }) = b.west := rfl
theorem Block.with_sel_east (b : Block) (x : Tbl Word) : (Block.east { b with sel := x }) = b.east := rfl
theorem Block.with_sel_fwWE (b : Block) (x : Tbl Word) : (Block.fwWE { b with sel := x }) = b.fwWE := rfl
theorem Block.with_sel_fwEW (b : Block) (x : Tbl Word) : (Block.fwEW { b with sel := x }) = b.fwEW := rfl
theorem Block.with_sel_qy (b : Block) (x : Tbl Word) : (Block.qy { b with sel := x }) = b.qy := rfl
theorem Block.with_sel_chs (b : Block) (x : Tbl Word) : (Block.chs { b with sel := x }) = b.chs := rfl
theorem Block.with_sel_berths (b : Block) (x : Tbl Word) : (Block.berths { b with sel := x }) = b.berths := rfl
theorem Block.with_sel_chans (b : Block) (x : Tbl Word) : (Block.chans { b with sel := x }) = b.chans := rfl
theorem Block.with_sel_cols (b : Block) (x : Tbl Word) : (Block.cols { b with sel := x }) = b.cols := rfl
theorem Block.with_sel_stk (b : Block) (x : Tbl Word) : (Block.stk { b with sel := x }) = b.stk := rfl
theorem Block.with_sel_keys (b : Block) (x : Tbl Word) : (Block.keys { b with sel := x }) = b.keys := rfl
theorem Block.with_sel_prot (b : Block) (x : Tbl Word) : (Block.prot { b with sel := x }) = b.prot := rfl
theorem Block.with_sel_mf (b : Block) (x : Tbl Word) : (Block.mf { b with sel := x }) = b.mf := rfl
theorem Block.with_sel_heat (b : Block) (x : Tbl Word) : (Block.heat { b with sel := x }) = b.heat := rfl
theorem Block.with_sel_sv (b : Block) (x : Tbl Word) : (Block.sv { b with sel := x }) = b.sv := rfl
theorem Block.with_sel_tl (b : Block) (x : Tbl Word) : (Block.tl { b with sel := x }) = b.tl := rfl
theorem Block.with_sel_lg (b : Block) (x : Tbl Word) : (Block.lg { b with sel := x }) = b.lg := rfl

@[simp] theorem Block.setSel_fresh (b : Block) (p : Path) (off : Nat) (v : Word) : (b.setSel p off v).fresh = b.fresh := Block.with_sel_fresh b _
@[simp] theorem Block.setSel_csr (b : Block) (p : Path) (off : Nat) (v : Word) : (b.setSel p off v).csr = b.csr := Block.with_sel_csr b _
@[simp] theorem Block.setSel_cnt (b : Block) (p : Path) (off : Nat) (v : Word) : (b.setSel p off v).cnt = b.cnt := Block.with_sel_cnt b _
@[simp] theorem Block.setSel_hold (b : Block) (p : Path) (off : Nat) (v : Word) : (b.setSel p off v).hold = b.hold := Block.with_sel_hold b _
@[simp] theorem Block.setSel_rdData (b : Block) (p : Path) (off : Nat) (v : Word) : (b.setSel p off v).rdData = b.rdData := Block.with_sel_rdData b _
@[simp] theorem Block.setSel_jtagDr (b : Block) (p : Path) (off : Nat) (v : Word) : (b.setSel p off v).jtagDr = b.jtagDr := Block.with_sel_jtagDr b _
@[simp] theorem Block.setSel_frzOut (b : Block) (p : Path) (off : Nat) (v : Word) : (b.setSel p off v).frzOut = b.frzOut := Block.with_sel_frzOut b _
@[simp] theorem Block.setSel_pins (b : Block) (p : Path) (off : Nat) (v : Word) : (b.setSel p off v).pins = b.pins := Block.with_sel_pins b _
@[simp] theorem Block.setSel_pw (b : Block) (p : Path) (off : Nat) (v : Word) : (b.setSel p off v).pw = b.pw := Block.with_sel_pw b _
@[simp] theorem Block.setSel_ck (b : Block) (p : Path) (off : Nat) (v : Word) : (b.setSel p off v).ck = b.ck := Block.with_sel_ck b _
@[simp] theorem Block.setSel_lanes (b : Block) (p : Path) (off : Nat) (v : Word) : (b.setSel p off v).lanes = b.lanes := Block.with_sel_lanes b _
@[simp] theorem Block.setSel_west (b : Block) (p : Path) (off : Nat) (v : Word) : (b.setSel p off v).west = b.west := Block.with_sel_west b _
@[simp] theorem Block.setSel_east (b : Block) (p : Path) (off : Nat) (v : Word) : (b.setSel p off v).east = b.east := Block.with_sel_east b _
@[simp] theorem Block.setSel_fwWE (b : Block) (p : Path) (off : Nat) (v : Word) : (b.setSel p off v).fwWE = b.fwWE := Block.with_sel_fwWE b _
@[simp] theorem Block.setSel_fwEW (b : Block) (p : Path) (off : Nat) (v : Word) : (b.setSel p off v).fwEW = b.fwEW := Block.with_sel_fwEW b _
@[simp] theorem Block.setSel_qy (b : Block) (p : Path) (off : Nat) (v : Word) : (b.setSel p off v).qy = b.qy := Block.with_sel_qy b _
@[simp] theorem Block.setSel_chs (b : Block) (p : Path) (off : Nat) (v : Word) : (b.setSel p off v).chs = b.chs := Block.with_sel_chs b _
@[simp] theorem Block.setSel_berths (b : Block) (p : Path) (off : Nat) (v : Word) : (b.setSel p off v).berths = b.berths := Block.with_sel_berths b _
@[simp] theorem Block.setSel_chans (b : Block) (p : Path) (off : Nat) (v : Word) : (b.setSel p off v).chans = b.chans := Block.with_sel_chans b _
@[simp] theorem Block.setSel_cols (b : Block) (p : Path) (off : Nat) (v : Word) : (b.setSel p off v).cols = b.cols := Block.with_sel_cols b _
@[simp] theorem Block.setSel_stk (b : Block) (p : Path) (off : Nat) (v : Word) : (b.setSel p off v).stk = b.stk := Block.with_sel_stk b _
@[simp] theorem Block.setSel_keys (b : Block) (p : Path) (off : Nat) (v : Word) : (b.setSel p off v).keys = b.keys := Block.with_sel_keys b _
@[simp] theorem Block.setSel_prot (b : Block) (p : Path) (off : Nat) (v : Word) : (b.setSel p off v).prot = b.prot := Block.with_sel_prot b _
@[simp] theorem Block.setSel_mf (b : Block) (p : Path) (off : Nat) (v : Word) : (b.setSel p off v).mf = b.mf := Block.with_sel_mf b _
@[simp] theorem Block.setSel_heat (b : Block) (p : Path) (off : Nat) (v : Word) : (b.setSel p off v).heat = b.heat := Block.with_sel_heat b _
@[simp] theorem Block.setSel_sv (b : Block) (p : Path) (off : Nat) (v : Word) : (b.setSel p off v).sv = b.sv := Block.with_sel_sv b _
@[simp] theorem Block.setSel_tl (b : Block) (p : Path) (off : Nat) (v : Word) : (b.setSel p off v).tl = b.tl := Block.with_sel_tl b _
@[simp] theorem Block.setSel_lg (b : Block) (p : Path) (off : Nat) (v : Word) : (b.setSel p off v).lg = b.lg := Block.with_sel_lg b _

theorem Block.with_hold_fresh (b : Block) (x : Tbl Word) : (Block.fresh { b with hold := x }) = b.fresh := rfl
theorem Block.with_hold_csr (b : Block) (x : Tbl Word) : (Block.csr { b with hold := x }) = b.csr := rfl
theorem Block.with_hold_cnt (b : Block) (x : Tbl Word) : (Block.cnt { b with hold := x }) = b.cnt := rfl
theorem Block.with_hold_sel (b : Block) (x : Tbl Word) : (Block.sel { b with hold := x }) = b.sel := rfl
theorem Block.with_hold_rdData (b : Block) (x : Tbl Word) : (Block.rdData { b with hold := x }) = b.rdData := rfl
theorem Block.with_hold_jtagDr (b : Block) (x : Tbl Word) : (Block.jtagDr { b with hold := x }) = b.jtagDr := rfl
theorem Block.with_hold_frzOut (b : Block) (x : Tbl Word) : (Block.frzOut { b with hold := x }) = b.frzOut := rfl
theorem Block.with_hold_pins (b : Block) (x : Tbl Word) : (Block.pins { b with hold := x }) = b.pins := rfl
theorem Block.with_hold_pw (b : Block) (x : Tbl Word) : (Block.pw { b with hold := x }) = b.pw := rfl
theorem Block.with_hold_ck (b : Block) (x : Tbl Word) : (Block.ck { b with hold := x }) = b.ck := rfl
theorem Block.with_hold_lanes (b : Block) (x : Tbl Word) : (Block.lanes { b with hold := x }) = b.lanes := rfl
theorem Block.with_hold_west (b : Block) (x : Tbl Word) : (Block.west { b with hold := x }) = b.west := rfl
theorem Block.with_hold_east (b : Block) (x : Tbl Word) : (Block.east { b with hold := x }) = b.east := rfl
theorem Block.with_hold_fwWE (b : Block) (x : Tbl Word) : (Block.fwWE { b with hold := x }) = b.fwWE := rfl
theorem Block.with_hold_fwEW (b : Block) (x : Tbl Word) : (Block.fwEW { b with hold := x }) = b.fwEW := rfl
theorem Block.with_hold_qy (b : Block) (x : Tbl Word) : (Block.qy { b with hold := x }) = b.qy := rfl
theorem Block.with_hold_chs (b : Block) (x : Tbl Word) : (Block.chs { b with hold := x }) = b.chs := rfl
theorem Block.with_hold_berths (b : Block) (x : Tbl Word) : (Block.berths { b with hold := x }) = b.berths := rfl
theorem Block.with_hold_chans (b : Block) (x : Tbl Word) : (Block.chans { b with hold := x }) = b.chans := rfl
theorem Block.with_hold_cols (b : Block) (x : Tbl Word) : (Block.cols { b with hold := x }) = b.cols := rfl
theorem Block.with_hold_stk (b : Block) (x : Tbl Word) : (Block.stk { b with hold := x }) = b.stk := rfl
theorem Block.with_hold_keys (b : Block) (x : Tbl Word) : (Block.keys { b with hold := x }) = b.keys := rfl
theorem Block.with_hold_prot (b : Block) (x : Tbl Word) : (Block.prot { b with hold := x }) = b.prot := rfl
theorem Block.with_hold_mf (b : Block) (x : Tbl Word) : (Block.mf { b with hold := x }) = b.mf := rfl
theorem Block.with_hold_heat (b : Block) (x : Tbl Word) : (Block.heat { b with hold := x }) = b.heat := rfl
theorem Block.with_hold_sv (b : Block) (x : Tbl Word) : (Block.sv { b with hold := x }) = b.sv := rfl
theorem Block.with_hold_tl (b : Block) (x : Tbl Word) : (Block.tl { b with hold := x }) = b.tl := rfl
theorem Block.with_hold_lg (b : Block) (x : Tbl Word) : (Block.lg { b with hold := x }) = b.lg := rfl

@[simp] theorem Block.setHold_fresh (b : Block) (p : Path) (off : Nat) (v : Word) : (b.setHold p off v).fresh = b.fresh := Block.with_hold_fresh b _
@[simp] theorem Block.setHold_csr (b : Block) (p : Path) (off : Nat) (v : Word) : (b.setHold p off v).csr = b.csr := Block.with_hold_csr b _
@[simp] theorem Block.setHold_cnt (b : Block) (p : Path) (off : Nat) (v : Word) : (b.setHold p off v).cnt = b.cnt := Block.with_hold_cnt b _
@[simp] theorem Block.setHold_sel (b : Block) (p : Path) (off : Nat) (v : Word) : (b.setHold p off v).sel = b.sel := Block.with_hold_sel b _
@[simp] theorem Block.setHold_rdData (b : Block) (p : Path) (off : Nat) (v : Word) : (b.setHold p off v).rdData = b.rdData := Block.with_hold_rdData b _
@[simp] theorem Block.setHold_jtagDr (b : Block) (p : Path) (off : Nat) (v : Word) : (b.setHold p off v).jtagDr = b.jtagDr := Block.with_hold_jtagDr b _
@[simp] theorem Block.setHold_frzOut (b : Block) (p : Path) (off : Nat) (v : Word) : (b.setHold p off v).frzOut = b.frzOut := Block.with_hold_frzOut b _
@[simp] theorem Block.setHold_pins (b : Block) (p : Path) (off : Nat) (v : Word) : (b.setHold p off v).pins = b.pins := Block.with_hold_pins b _
@[simp] theorem Block.setHold_pw (b : Block) (p : Path) (off : Nat) (v : Word) : (b.setHold p off v).pw = b.pw := Block.with_hold_pw b _
@[simp] theorem Block.setHold_ck (b : Block) (p : Path) (off : Nat) (v : Word) : (b.setHold p off v).ck = b.ck := Block.with_hold_ck b _
@[simp] theorem Block.setHold_lanes (b : Block) (p : Path) (off : Nat) (v : Word) : (b.setHold p off v).lanes = b.lanes := Block.with_hold_lanes b _
@[simp] theorem Block.setHold_west (b : Block) (p : Path) (off : Nat) (v : Word) : (b.setHold p off v).west = b.west := Block.with_hold_west b _
@[simp] theorem Block.setHold_east (b : Block) (p : Path) (off : Nat) (v : Word) : (b.setHold p off v).east = b.east := Block.with_hold_east b _
@[simp] theorem Block.setHold_fwWE (b : Block) (p : Path) (off : Nat) (v : Word) : (b.setHold p off v).fwWE = b.fwWE := Block.with_hold_fwWE b _
@[simp] theorem Block.setHold_fwEW (b : Block) (p : Path) (off : Nat) (v : Word) : (b.setHold p off v).fwEW = b.fwEW := Block.with_hold_fwEW b _
@[simp] theorem Block.setHold_qy (b : Block) (p : Path) (off : Nat) (v : Word) : (b.setHold p off v).qy = b.qy := Block.with_hold_qy b _
@[simp] theorem Block.setHold_chs (b : Block) (p : Path) (off : Nat) (v : Word) : (b.setHold p off v).chs = b.chs := Block.with_hold_chs b _
@[simp] theorem Block.setHold_berths (b : Block) (p : Path) (off : Nat) (v : Word) : (b.setHold p off v).berths = b.berths := Block.with_hold_berths b _
@[simp] theorem Block.setHold_chans (b : Block) (p : Path) (off : Nat) (v : Word) : (b.setHold p off v).chans = b.chans := Block.with_hold_chans b _
@[simp] theorem Block.setHold_cols (b : Block) (p : Path) (off : Nat) (v : Word) : (b.setHold p off v).cols = b.cols := Block.with_hold_cols b _
@[simp] theorem Block.setHold_stk (b : Block) (p : Path) (off : Nat) (v : Word) : (b.setHold p off v).stk = b.stk := Block.with_hold_stk b _
@[simp] theorem Block.setHold_keys (b : Block) (p : Path) (off : Nat) (v : Word) : (b.setHold p off v).keys = b.keys := Block.with_hold_keys b _
@[simp] theorem Block.setHold_prot (b : Block) (p : Path) (off : Nat) (v : Word) : (b.setHold p off v).prot = b.prot := Block.with_hold_prot b _
@[simp] theorem Block.setHold_mf (b : Block) (p : Path) (off : Nat) (v : Word) : (b.setHold p off v).mf = b.mf := Block.with_hold_mf b _
@[simp] theorem Block.setHold_heat (b : Block) (p : Path) (off : Nat) (v : Word) : (b.setHold p off v).heat = b.heat := Block.with_hold_heat b _
@[simp] theorem Block.setHold_sv (b : Block) (p : Path) (off : Nat) (v : Word) : (b.setHold p off v).sv = b.sv := Block.with_hold_sv b _
@[simp] theorem Block.setHold_tl (b : Block) (p : Path) (off : Nat) (v : Word) : (b.setHold p off v).tl = b.tl := Block.with_hold_tl b _
@[simp] theorem Block.setHold_lg (b : Block) (p : Path) (off : Nat) (v : Word) : (b.setHold p off v).lg = b.lg := Block.with_hold_lg b _

theorem Block.with_cnt_fresh (b : Block) (x : Tbl Nat) : (Block.fresh { b with cnt := x }) = b.fresh := rfl
theorem Block.with_cnt_csr (b : Block) (x : Tbl Nat) : (Block.csr { b with cnt := x }) = b.csr := rfl
theorem Block.with_cnt_sel (b : Block) (x : Tbl Nat) : (Block.sel { b with cnt := x }) = b.sel := rfl
theorem Block.with_cnt_hold (b : Block) (x : Tbl Nat) : (Block.hold { b with cnt := x }) = b.hold := rfl
theorem Block.with_cnt_rdData (b : Block) (x : Tbl Nat) : (Block.rdData { b with cnt := x }) = b.rdData := rfl
theorem Block.with_cnt_jtagDr (b : Block) (x : Tbl Nat) : (Block.jtagDr { b with cnt := x }) = b.jtagDr := rfl
theorem Block.with_cnt_frzOut (b : Block) (x : Tbl Nat) : (Block.frzOut { b with cnt := x }) = b.frzOut := rfl
theorem Block.with_cnt_pins (b : Block) (x : Tbl Nat) : (Block.pins { b with cnt := x }) = b.pins := rfl
theorem Block.with_cnt_pw (b : Block) (x : Tbl Nat) : (Block.pw { b with cnt := x }) = b.pw := rfl
theorem Block.with_cnt_ck (b : Block) (x : Tbl Nat) : (Block.ck { b with cnt := x }) = b.ck := rfl
theorem Block.with_cnt_lanes (b : Block) (x : Tbl Nat) : (Block.lanes { b with cnt := x }) = b.lanes := rfl
theorem Block.with_cnt_west (b : Block) (x : Tbl Nat) : (Block.west { b with cnt := x }) = b.west := rfl
theorem Block.with_cnt_east (b : Block) (x : Tbl Nat) : (Block.east { b with cnt := x }) = b.east := rfl
theorem Block.with_cnt_fwWE (b : Block) (x : Tbl Nat) : (Block.fwWE { b with cnt := x }) = b.fwWE := rfl
theorem Block.with_cnt_fwEW (b : Block) (x : Tbl Nat) : (Block.fwEW { b with cnt := x }) = b.fwEW := rfl
theorem Block.with_cnt_qy (b : Block) (x : Tbl Nat) : (Block.qy { b with cnt := x }) = b.qy := rfl
theorem Block.with_cnt_chs (b : Block) (x : Tbl Nat) : (Block.chs { b with cnt := x }) = b.chs := rfl
theorem Block.with_cnt_berths (b : Block) (x : Tbl Nat) : (Block.berths { b with cnt := x }) = b.berths := rfl
theorem Block.with_cnt_chans (b : Block) (x : Tbl Nat) : (Block.chans { b with cnt := x }) = b.chans := rfl
theorem Block.with_cnt_cols (b : Block) (x : Tbl Nat) : (Block.cols { b with cnt := x }) = b.cols := rfl
theorem Block.with_cnt_stk (b : Block) (x : Tbl Nat) : (Block.stk { b with cnt := x }) = b.stk := rfl
theorem Block.with_cnt_keys (b : Block) (x : Tbl Nat) : (Block.keys { b with cnt := x }) = b.keys := rfl
theorem Block.with_cnt_prot (b : Block) (x : Tbl Nat) : (Block.prot { b with cnt := x }) = b.prot := rfl
theorem Block.with_cnt_mf (b : Block) (x : Tbl Nat) : (Block.mf { b with cnt := x }) = b.mf := rfl
theorem Block.with_cnt_heat (b : Block) (x : Tbl Nat) : (Block.heat { b with cnt := x }) = b.heat := rfl
theorem Block.with_cnt_sv (b : Block) (x : Tbl Nat) : (Block.sv { b with cnt := x }) = b.sv := rfl
theorem Block.with_cnt_tl (b : Block) (x : Tbl Nat) : (Block.tl { b with cnt := x }) = b.tl := rfl
theorem Block.with_cnt_lg (b : Block) (x : Tbl Nat) : (Block.lg { b with cnt := x }) = b.lg := rfl

@[simp] theorem Block.setCount_fresh (b : Block) (off n : Nat) : (b.setCount off n).fresh = b.fresh := Block.with_cnt_fresh b _
@[simp] theorem Block.setCount_csr (b : Block) (off n : Nat) : (b.setCount off n).csr = b.csr := Block.with_cnt_csr b _
@[simp] theorem Block.setCount_sel (b : Block) (off n : Nat) : (b.setCount off n).sel = b.sel := Block.with_cnt_sel b _
@[simp] theorem Block.setCount_hold (b : Block) (off n : Nat) : (b.setCount off n).hold = b.hold := Block.with_cnt_hold b _
@[simp] theorem Block.setCount_rdData (b : Block) (off n : Nat) : (b.setCount off n).rdData = b.rdData := Block.with_cnt_rdData b _
@[simp] theorem Block.setCount_jtagDr (b : Block) (off n : Nat) : (b.setCount off n).jtagDr = b.jtagDr := Block.with_cnt_jtagDr b _
@[simp] theorem Block.setCount_frzOut (b : Block) (off n : Nat) : (b.setCount off n).frzOut = b.frzOut := Block.with_cnt_frzOut b _
@[simp] theorem Block.setCount_pins (b : Block) (off n : Nat) : (b.setCount off n).pins = b.pins := Block.with_cnt_pins b _
@[simp] theorem Block.setCount_pw (b : Block) (off n : Nat) : (b.setCount off n).pw = b.pw := Block.with_cnt_pw b _
@[simp] theorem Block.setCount_ck (b : Block) (off n : Nat) : (b.setCount off n).ck = b.ck := Block.with_cnt_ck b _
@[simp] theorem Block.setCount_lanes (b : Block) (off n : Nat) : (b.setCount off n).lanes = b.lanes := Block.with_cnt_lanes b _
@[simp] theorem Block.setCount_west (b : Block) (off n : Nat) : (b.setCount off n).west = b.west := Block.with_cnt_west b _
@[simp] theorem Block.setCount_east (b : Block) (off n : Nat) : (b.setCount off n).east = b.east := Block.with_cnt_east b _
@[simp] theorem Block.setCount_fwWE (b : Block) (off n : Nat) : (b.setCount off n).fwWE = b.fwWE := Block.with_cnt_fwWE b _
@[simp] theorem Block.setCount_fwEW (b : Block) (off n : Nat) : (b.setCount off n).fwEW = b.fwEW := Block.with_cnt_fwEW b _
@[simp] theorem Block.setCount_qy (b : Block) (off n : Nat) : (b.setCount off n).qy = b.qy := Block.with_cnt_qy b _
@[simp] theorem Block.setCount_chs (b : Block) (off n : Nat) : (b.setCount off n).chs = b.chs := Block.with_cnt_chs b _
@[simp] theorem Block.setCount_berths (b : Block) (off n : Nat) : (b.setCount off n).berths = b.berths := Block.with_cnt_berths b _
@[simp] theorem Block.setCount_chans (b : Block) (off n : Nat) : (b.setCount off n).chans = b.chans := Block.with_cnt_chans b _
@[simp] theorem Block.setCount_cols (b : Block) (off n : Nat) : (b.setCount off n).cols = b.cols := Block.with_cnt_cols b _
@[simp] theorem Block.setCount_stk (b : Block) (off n : Nat) : (b.setCount off n).stk = b.stk := Block.with_cnt_stk b _
@[simp] theorem Block.setCount_keys (b : Block) (off n : Nat) : (b.setCount off n).keys = b.keys := Block.with_cnt_keys b _
@[simp] theorem Block.setCount_prot (b : Block) (off n : Nat) : (b.setCount off n).prot = b.prot := Block.with_cnt_prot b _
@[simp] theorem Block.setCount_mf (b : Block) (off n : Nat) : (b.setCount off n).mf = b.mf := Block.with_cnt_mf b _
@[simp] theorem Block.setCount_heat (b : Block) (off n : Nat) : (b.setCount off n).heat = b.heat := Block.with_cnt_heat b _
@[simp] theorem Block.setCount_sv (b : Block) (off n : Nat) : (b.setCount off n).sv = b.sv := Block.with_cnt_sv b _
@[simp] theorem Block.setCount_tl (b : Block) (off n : Nat) : (b.setCount off n).tl = b.tl := Block.with_cnt_tl b _
@[simp] theorem Block.setCount_lg (b : Block) (off n : Nat) : (b.setCount off n).lg = b.lg := Block.with_cnt_lg b _

@[simp] theorem Block.bumpW_fresh (b : Block) (w off n : Nat) : (b.bumpW w off n).fresh = b.fresh := by rw [Block.bumpW, Block.setCount_fresh]
@[simp] theorem Block.bumpW_csr (b : Block) (w off n : Nat) : (b.bumpW w off n).csr = b.csr := by rw [Block.bumpW, Block.setCount_csr]
@[simp] theorem Block.bumpW_sel (b : Block) (w off n : Nat) : (b.bumpW w off n).sel = b.sel := by rw [Block.bumpW, Block.setCount_sel]
@[simp] theorem Block.bumpW_hold (b : Block) (w off n : Nat) : (b.bumpW w off n).hold = b.hold := by rw [Block.bumpW, Block.setCount_hold]
@[simp] theorem Block.bumpW_rdData (b : Block) (w off n : Nat) : (b.bumpW w off n).rdData = b.rdData := by rw [Block.bumpW, Block.setCount_rdData]
@[simp] theorem Block.bumpW_jtagDr (b : Block) (w off n : Nat) : (b.bumpW w off n).jtagDr = b.jtagDr := by rw [Block.bumpW, Block.setCount_jtagDr]
@[simp] theorem Block.bumpW_frzOut (b : Block) (w off n : Nat) : (b.bumpW w off n).frzOut = b.frzOut := by rw [Block.bumpW, Block.setCount_frzOut]
@[simp] theorem Block.bumpW_pins (b : Block) (w off n : Nat) : (b.bumpW w off n).pins = b.pins := by rw [Block.bumpW, Block.setCount_pins]
@[simp] theorem Block.bumpW_pw (b : Block) (w off n : Nat) : (b.bumpW w off n).pw = b.pw := by rw [Block.bumpW, Block.setCount_pw]
@[simp] theorem Block.bumpW_ck (b : Block) (w off n : Nat) : (b.bumpW w off n).ck = b.ck := by rw [Block.bumpW, Block.setCount_ck]
@[simp] theorem Block.bumpW_lanes (b : Block) (w off n : Nat) : (b.bumpW w off n).lanes = b.lanes := by rw [Block.bumpW, Block.setCount_lanes]
@[simp] theorem Block.bumpW_west (b : Block) (w off n : Nat) : (b.bumpW w off n).west = b.west := by rw [Block.bumpW, Block.setCount_west]
@[simp] theorem Block.bumpW_east (b : Block) (w off n : Nat) : (b.bumpW w off n).east = b.east := by rw [Block.bumpW, Block.setCount_east]
@[simp] theorem Block.bumpW_fwWE (b : Block) (w off n : Nat) : (b.bumpW w off n).fwWE = b.fwWE := by rw [Block.bumpW, Block.setCount_fwWE]
@[simp] theorem Block.bumpW_fwEW (b : Block) (w off n : Nat) : (b.bumpW w off n).fwEW = b.fwEW := by rw [Block.bumpW, Block.setCount_fwEW]
@[simp] theorem Block.bumpW_qy (b : Block) (w off n : Nat) : (b.bumpW w off n).qy = b.qy := by rw [Block.bumpW, Block.setCount_qy]
@[simp] theorem Block.bumpW_chs (b : Block) (w off n : Nat) : (b.bumpW w off n).chs = b.chs := by rw [Block.bumpW, Block.setCount_chs]
@[simp] theorem Block.bumpW_berths (b : Block) (w off n : Nat) : (b.bumpW w off n).berths = b.berths := by rw [Block.bumpW, Block.setCount_berths]
@[simp] theorem Block.bumpW_chans (b : Block) (w off n : Nat) : (b.bumpW w off n).chans = b.chans := by rw [Block.bumpW, Block.setCount_chans]
@[simp] theorem Block.bumpW_cols (b : Block) (w off n : Nat) : (b.bumpW w off n).cols = b.cols := by rw [Block.bumpW, Block.setCount_cols]
@[simp] theorem Block.bumpW_stk (b : Block) (w off n : Nat) : (b.bumpW w off n).stk = b.stk := by rw [Block.bumpW, Block.setCount_stk]
@[simp] theorem Block.bumpW_keys (b : Block) (w off n : Nat) : (b.bumpW w off n).keys = b.keys := by rw [Block.bumpW, Block.setCount_keys]
@[simp] theorem Block.bumpW_prot (b : Block) (w off n : Nat) : (b.bumpW w off n).prot = b.prot := by rw [Block.bumpW, Block.setCount_prot]
@[simp] theorem Block.bumpW_mf (b : Block) (w off n : Nat) : (b.bumpW w off n).mf = b.mf := by rw [Block.bumpW, Block.setCount_mf]
@[simp] theorem Block.bumpW_heat (b : Block) (w off n : Nat) : (b.bumpW w off n).heat = b.heat := by rw [Block.bumpW, Block.setCount_heat]
@[simp] theorem Block.bumpW_sv (b : Block) (w off n : Nat) : (b.bumpW w off n).sv = b.sv := by rw [Block.bumpW, Block.setCount_sv]
@[simp] theorem Block.bumpW_tl (b : Block) (w off n : Nat) : (b.bumpW w off n).tl = b.tl := by rw [Block.bumpW, Block.setCount_tl]
@[simp] theorem Block.bumpW_lg (b : Block) (w off n : Nat) : (b.bumpW w off n).lg = b.lg := by rw [Block.bumpW, Block.setCount_lg]

@[simp] theorem Block.bump_fresh (b : Block) (off n : Nat) : (b.bump off n).fresh = b.fresh := by rw [Block.bump, Block.bumpW_fresh]
@[simp] theorem Block.bump_csr (b : Block) (off n : Nat) : (b.bump off n).csr = b.csr := by rw [Block.bump, Block.bumpW_csr]
@[simp] theorem Block.bump_sel (b : Block) (off n : Nat) : (b.bump off n).sel = b.sel := by rw [Block.bump, Block.bumpW_sel]
@[simp] theorem Block.bump_hold (b : Block) (off n : Nat) : (b.bump off n).hold = b.hold := by rw [Block.bump, Block.bumpW_hold]
@[simp] theorem Block.bump_rdData (b : Block) (off n : Nat) : (b.bump off n).rdData = b.rdData := by rw [Block.bump, Block.bumpW_rdData]
@[simp] theorem Block.bump_jtagDr (b : Block) (off n : Nat) : (b.bump off n).jtagDr = b.jtagDr := by rw [Block.bump, Block.bumpW_jtagDr]
@[simp] theorem Block.bump_frzOut (b : Block) (off n : Nat) : (b.bump off n).frzOut = b.frzOut := by rw [Block.bump, Block.bumpW_frzOut]
@[simp] theorem Block.bump_pins (b : Block) (off n : Nat) : (b.bump off n).pins = b.pins := by rw [Block.bump, Block.bumpW_pins]
@[simp] theorem Block.bump_pw (b : Block) (off n : Nat) : (b.bump off n).pw = b.pw := by rw [Block.bump, Block.bumpW_pw]
@[simp] theorem Block.bump_ck (b : Block) (off n : Nat) : (b.bump off n).ck = b.ck := by rw [Block.bump, Block.bumpW_ck]
@[simp] theorem Block.bump_lanes (b : Block) (off n : Nat) : (b.bump off n).lanes = b.lanes := by rw [Block.bump, Block.bumpW_lanes]
@[simp] theorem Block.bump_west (b : Block) (off n : Nat) : (b.bump off n).west = b.west := by rw [Block.bump, Block.bumpW_west]
@[simp] theorem Block.bump_east (b : Block) (off n : Nat) : (b.bump off n).east = b.east := by rw [Block.bump, Block.bumpW_east]
@[simp] theorem Block.bump_fwWE (b : Block) (off n : Nat) : (b.bump off n).fwWE = b.fwWE := by rw [Block.bump, Block.bumpW_fwWE]
@[simp] theorem Block.bump_fwEW (b : Block) (off n : Nat) : (b.bump off n).fwEW = b.fwEW := by rw [Block.bump, Block.bumpW_fwEW]
@[simp] theorem Block.bump_qy (b : Block) (off n : Nat) : (b.bump off n).qy = b.qy := by rw [Block.bump, Block.bumpW_qy]
@[simp] theorem Block.bump_chs (b : Block) (off n : Nat) : (b.bump off n).chs = b.chs := by rw [Block.bump, Block.bumpW_chs]
@[simp] theorem Block.bump_berths (b : Block) (off n : Nat) : (b.bump off n).berths = b.berths := by rw [Block.bump, Block.bumpW_berths]
@[simp] theorem Block.bump_chans (b : Block) (off n : Nat) : (b.bump off n).chans = b.chans := by rw [Block.bump, Block.bumpW_chans]
@[simp] theorem Block.bump_cols (b : Block) (off n : Nat) : (b.bump off n).cols = b.cols := by rw [Block.bump, Block.bumpW_cols]
@[simp] theorem Block.bump_stk (b : Block) (off n : Nat) : (b.bump off n).stk = b.stk := by rw [Block.bump, Block.bumpW_stk]
@[simp] theorem Block.bump_keys (b : Block) (off n : Nat) : (b.bump off n).keys = b.keys := by rw [Block.bump, Block.bumpW_keys]
@[simp] theorem Block.bump_prot (b : Block) (off n : Nat) : (b.bump off n).prot = b.prot := by rw [Block.bump, Block.bumpW_prot]
@[simp] theorem Block.bump_mf (b : Block) (off n : Nat) : (b.bump off n).mf = b.mf := by rw [Block.bump, Block.bumpW_mf]
@[simp] theorem Block.bump_heat (b : Block) (off n : Nat) : (b.bump off n).heat = b.heat := by rw [Block.bump, Block.bumpW_heat]
@[simp] theorem Block.bump_sv (b : Block) (off n : Nat) : (b.bump off n).sv = b.sv := by rw [Block.bump, Block.bumpW_sv]
@[simp] theorem Block.bump_tl (b : Block) (off n : Nat) : (b.bump off n).tl = b.tl := by rw [Block.bump, Block.bumpW_tl]
@[simp] theorem Block.bump_lg (b : Block) (off n : Nat) : (b.bump off n).lg = b.lg := by rw [Block.bump, Block.bumpW_lg]

theorem Block.with_mf_fresh (b : Block) (x : Manifests) : (Block.fresh { b with mf := x }) = b.fresh := rfl
theorem Block.with_mf_csr (b : Block) (x : Manifests) : (Block.csr { b with mf := x }) = b.csr := rfl
theorem Block.with_mf_cnt (b : Block) (x : Manifests) : (Block.cnt { b with mf := x }) = b.cnt := rfl
theorem Block.with_mf_sel (b : Block) (x : Manifests) : (Block.sel { b with mf := x }) = b.sel := rfl
theorem Block.with_mf_hold (b : Block) (x : Manifests) : (Block.hold { b with mf := x }) = b.hold := rfl
theorem Block.with_mf_rdData (b : Block) (x : Manifests) : (Block.rdData { b with mf := x }) = b.rdData := rfl
theorem Block.with_mf_jtagDr (b : Block) (x : Manifests) : (Block.jtagDr { b with mf := x }) = b.jtagDr := rfl
theorem Block.with_mf_frzOut (b : Block) (x : Manifests) : (Block.frzOut { b with mf := x }) = b.frzOut := rfl
theorem Block.with_mf_pins (b : Block) (x : Manifests) : (Block.pins { b with mf := x }) = b.pins := rfl
theorem Block.with_mf_pw (b : Block) (x : Manifests) : (Block.pw { b with mf := x }) = b.pw := rfl
theorem Block.with_mf_ck (b : Block) (x : Manifests) : (Block.ck { b with mf := x }) = b.ck := rfl
theorem Block.with_mf_lanes (b : Block) (x : Manifests) : (Block.lanes { b with mf := x }) = b.lanes := rfl
theorem Block.with_mf_west (b : Block) (x : Manifests) : (Block.west { b with mf := x }) = b.west := rfl
theorem Block.with_mf_east (b : Block) (x : Manifests) : (Block.east { b with mf := x }) = b.east := rfl
theorem Block.with_mf_fwWE (b : Block) (x : Manifests) : (Block.fwWE { b with mf := x }) = b.fwWE := rfl
theorem Block.with_mf_fwEW (b : Block) (x : Manifests) : (Block.fwEW { b with mf := x }) = b.fwEW := rfl
theorem Block.with_mf_qy (b : Block) (x : Manifests) : (Block.qy { b with mf := x }) = b.qy := rfl
theorem Block.with_mf_chs (b : Block) (x : Manifests) : (Block.chs { b with mf := x }) = b.chs := rfl
theorem Block.with_mf_berths (b : Block) (x : Manifests) : (Block.berths { b with mf := x }) = b.berths := rfl
theorem Block.with_mf_chans (b : Block) (x : Manifests) : (Block.chans { b with mf := x }) = b.chans := rfl
theorem Block.with_mf_cols (b : Block) (x : Manifests) : (Block.cols { b with mf := x }) = b.cols := rfl
theorem Block.with_mf_stk (b : Block) (x : Manifests) : (Block.stk { b with mf := x }) = b.stk := rfl
theorem Block.with_mf_keys (b : Block) (x : Manifests) : (Block.keys { b with mf := x }) = b.keys := rfl
theorem Block.with_mf_prot (b : Block) (x : Manifests) : (Block.prot { b with mf := x }) = b.prot := rfl
theorem Block.with_mf_heat (b : Block) (x : Manifests) : (Block.heat { b with mf := x }) = b.heat := rfl
theorem Block.with_mf_sv (b : Block) (x : Manifests) : (Block.sv { b with mf := x }) = b.sv := rfl
theorem Block.with_mf_tl (b : Block) (x : Manifests) : (Block.tl { b with mf := x }) = b.tl := rfl
theorem Block.with_mf_lg (b : Block) (x : Manifests) : (Block.lg { b with mf := x }) = b.lg := rfl

@[simp] theorem Block.setSlot_fresh (b : Block) (k : Nat) (v : Slot) : (b.setSlot k v).fresh = b.fresh := Block.with_mf_fresh b _
@[simp] theorem Block.setSlot_csr (b : Block) (k : Nat) (v : Slot) : (b.setSlot k v).csr = b.csr := Block.with_mf_csr b _
@[simp] theorem Block.setSlot_cnt (b : Block) (k : Nat) (v : Slot) : (b.setSlot k v).cnt = b.cnt := Block.with_mf_cnt b _
@[simp] theorem Block.setSlot_sel (b : Block) (k : Nat) (v : Slot) : (b.setSlot k v).sel = b.sel := Block.with_mf_sel b _
@[simp] theorem Block.setSlot_hold (b : Block) (k : Nat) (v : Slot) : (b.setSlot k v).hold = b.hold := Block.with_mf_hold b _
@[simp] theorem Block.setSlot_rdData (b : Block) (k : Nat) (v : Slot) : (b.setSlot k v).rdData = b.rdData := Block.with_mf_rdData b _
@[simp] theorem Block.setSlot_jtagDr (b : Block) (k : Nat) (v : Slot) : (b.setSlot k v).jtagDr = b.jtagDr := Block.with_mf_jtagDr b _
@[simp] theorem Block.setSlot_frzOut (b : Block) (k : Nat) (v : Slot) : (b.setSlot k v).frzOut = b.frzOut := Block.with_mf_frzOut b _
@[simp] theorem Block.setSlot_pins (b : Block) (k : Nat) (v : Slot) : (b.setSlot k v).pins = b.pins := Block.with_mf_pins b _
@[simp] theorem Block.setSlot_pw (b : Block) (k : Nat) (v : Slot) : (b.setSlot k v).pw = b.pw := Block.with_mf_pw b _
@[simp] theorem Block.setSlot_ck (b : Block) (k : Nat) (v : Slot) : (b.setSlot k v).ck = b.ck := Block.with_mf_ck b _
@[simp] theorem Block.setSlot_lanes (b : Block) (k : Nat) (v : Slot) : (b.setSlot k v).lanes = b.lanes := Block.with_mf_lanes b _
@[simp] theorem Block.setSlot_west (b : Block) (k : Nat) (v : Slot) : (b.setSlot k v).west = b.west := Block.with_mf_west b _
@[simp] theorem Block.setSlot_east (b : Block) (k : Nat) (v : Slot) : (b.setSlot k v).east = b.east := Block.with_mf_east b _
@[simp] theorem Block.setSlot_fwWE (b : Block) (k : Nat) (v : Slot) : (b.setSlot k v).fwWE = b.fwWE := Block.with_mf_fwWE b _
@[simp] theorem Block.setSlot_fwEW (b : Block) (k : Nat) (v : Slot) : (b.setSlot k v).fwEW = b.fwEW := Block.with_mf_fwEW b _
@[simp] theorem Block.setSlot_qy (b : Block) (k : Nat) (v : Slot) : (b.setSlot k v).qy = b.qy := Block.with_mf_qy b _
@[simp] theorem Block.setSlot_chs (b : Block) (k : Nat) (v : Slot) : (b.setSlot k v).chs = b.chs := Block.with_mf_chs b _
@[simp] theorem Block.setSlot_berths (b : Block) (k : Nat) (v : Slot) : (b.setSlot k v).berths = b.berths := Block.with_mf_berths b _
@[simp] theorem Block.setSlot_chans (b : Block) (k : Nat) (v : Slot) : (b.setSlot k v).chans = b.chans := Block.with_mf_chans b _
@[simp] theorem Block.setSlot_cols (b : Block) (k : Nat) (v : Slot) : (b.setSlot k v).cols = b.cols := Block.with_mf_cols b _
@[simp] theorem Block.setSlot_stk (b : Block) (k : Nat) (v : Slot) : (b.setSlot k v).stk = b.stk := Block.with_mf_stk b _
@[simp] theorem Block.setSlot_keys (b : Block) (k : Nat) (v : Slot) : (b.setSlot k v).keys = b.keys := Block.with_mf_keys b _
@[simp] theorem Block.setSlot_prot (b : Block) (k : Nat) (v : Slot) : (b.setSlot k v).prot = b.prot := Block.with_mf_prot b _
@[simp] theorem Block.setSlot_heat (b : Block) (k : Nat) (v : Slot) : (b.setSlot k v).heat = b.heat := Block.with_mf_heat b _
@[simp] theorem Block.setSlot_sv (b : Block) (k : Nat) (v : Slot) : (b.setSlot k v).sv = b.sv := Block.with_mf_sv b _
@[simp] theorem Block.setSlot_tl (b : Block) (k : Nat) (v : Slot) : (b.setSlot k v).tl = b.tl := Block.with_mf_tl b _
@[simp] theorem Block.setSlot_lg (b : Block) (k : Nat) (v : Slot) : (b.setSlot k v).lg = b.lg := Block.with_mf_lg b _

@[simp] theorem Block.setRing_fresh (b : Block) (n : Nat) (v : Ring) : (b.setRing n v).fresh = b.fresh := Block.with_mf_fresh b _
@[simp] theorem Block.setRing_csr (b : Block) (n : Nat) (v : Ring) : (b.setRing n v).csr = b.csr := Block.with_mf_csr b _
@[simp] theorem Block.setRing_cnt (b : Block) (n : Nat) (v : Ring) : (b.setRing n v).cnt = b.cnt := Block.with_mf_cnt b _
@[simp] theorem Block.setRing_sel (b : Block) (n : Nat) (v : Ring) : (b.setRing n v).sel = b.sel := Block.with_mf_sel b _
@[simp] theorem Block.setRing_hold (b : Block) (n : Nat) (v : Ring) : (b.setRing n v).hold = b.hold := Block.with_mf_hold b _
@[simp] theorem Block.setRing_rdData (b : Block) (n : Nat) (v : Ring) : (b.setRing n v).rdData = b.rdData := Block.with_mf_rdData b _
@[simp] theorem Block.setRing_jtagDr (b : Block) (n : Nat) (v : Ring) : (b.setRing n v).jtagDr = b.jtagDr := Block.with_mf_jtagDr b _
@[simp] theorem Block.setRing_frzOut (b : Block) (n : Nat) (v : Ring) : (b.setRing n v).frzOut = b.frzOut := Block.with_mf_frzOut b _
@[simp] theorem Block.setRing_pins (b : Block) (n : Nat) (v : Ring) : (b.setRing n v).pins = b.pins := Block.with_mf_pins b _
@[simp] theorem Block.setRing_pw (b : Block) (n : Nat) (v : Ring) : (b.setRing n v).pw = b.pw := Block.with_mf_pw b _
@[simp] theorem Block.setRing_ck (b : Block) (n : Nat) (v : Ring) : (b.setRing n v).ck = b.ck := Block.with_mf_ck b _
@[simp] theorem Block.setRing_lanes (b : Block) (n : Nat) (v : Ring) : (b.setRing n v).lanes = b.lanes := Block.with_mf_lanes b _
@[simp] theorem Block.setRing_west (b : Block) (n : Nat) (v : Ring) : (b.setRing n v).west = b.west := Block.with_mf_west b _
@[simp] theorem Block.setRing_east (b : Block) (n : Nat) (v : Ring) : (b.setRing n v).east = b.east := Block.with_mf_east b _
@[simp] theorem Block.setRing_fwWE (b : Block) (n : Nat) (v : Ring) : (b.setRing n v).fwWE = b.fwWE := Block.with_mf_fwWE b _
@[simp] theorem Block.setRing_fwEW (b : Block) (n : Nat) (v : Ring) : (b.setRing n v).fwEW = b.fwEW := Block.with_mf_fwEW b _
@[simp] theorem Block.setRing_qy (b : Block) (n : Nat) (v : Ring) : (b.setRing n v).qy = b.qy := Block.with_mf_qy b _
@[simp] theorem Block.setRing_chs (b : Block) (n : Nat) (v : Ring) : (b.setRing n v).chs = b.chs := Block.with_mf_chs b _
@[simp] theorem Block.setRing_berths (b : Block) (n : Nat) (v : Ring) : (b.setRing n v).berths = b.berths := Block.with_mf_berths b _
@[simp] theorem Block.setRing_chans (b : Block) (n : Nat) (v : Ring) : (b.setRing n v).chans = b.chans := Block.with_mf_chans b _
@[simp] theorem Block.setRing_cols (b : Block) (n : Nat) (v : Ring) : (b.setRing n v).cols = b.cols := Block.with_mf_cols b _
@[simp] theorem Block.setRing_stk (b : Block) (n : Nat) (v : Ring) : (b.setRing n v).stk = b.stk := Block.with_mf_stk b _
@[simp] theorem Block.setRing_keys (b : Block) (n : Nat) (v : Ring) : (b.setRing n v).keys = b.keys := Block.with_mf_keys b _
@[simp] theorem Block.setRing_prot (b : Block) (n : Nat) (v : Ring) : (b.setRing n v).prot = b.prot := Block.with_mf_prot b _
@[simp] theorem Block.setRing_heat (b : Block) (n : Nat) (v : Ring) : (b.setRing n v).heat = b.heat := Block.with_mf_heat b _
@[simp] theorem Block.setRing_sv (b : Block) (n : Nat) (v : Ring) : (b.setRing n v).sv = b.sv := Block.with_mf_sv b _
@[simp] theorem Block.setRing_tl (b : Block) (n : Nat) (v : Ring) : (b.setRing n v).tl = b.tl := Block.with_mf_tl b _
@[simp] theorem Block.setRing_lg (b : Block) (n : Nat) (v : Ring) : (b.setRing n v).lg = b.lg := Block.with_mf_lg b _

@[simp] theorem Block.draw_csr (b : Block) : (b.draw).csr = b.csr := rfl
@[simp] theorem Block.draw_cnt (b : Block) : (b.draw).cnt = b.cnt := rfl
@[simp] theorem Block.draw_sel (b : Block) : (b.draw).sel = b.sel := rfl
@[simp] theorem Block.draw_hold (b : Block) : (b.draw).hold = b.hold := rfl
@[simp] theorem Block.draw_rdData (b : Block) : (b.draw).rdData = b.rdData := rfl
@[simp] theorem Block.draw_jtagDr (b : Block) : (b.draw).jtagDr = b.jtagDr := rfl
@[simp] theorem Block.draw_frzOut (b : Block) : (b.draw).frzOut = b.frzOut := rfl
@[simp] theorem Block.draw_pins (b : Block) : (b.draw).pins = b.pins := rfl
@[simp] theorem Block.draw_pw (b : Block) : (b.draw).pw = b.pw := rfl
@[simp] theorem Block.draw_ck (b : Block) : (b.draw).ck = b.ck := rfl
@[simp] theorem Block.draw_lanes (b : Block) : (b.draw).lanes = b.lanes := rfl
@[simp] theorem Block.draw_west (b : Block) : (b.draw).west = b.west := rfl
@[simp] theorem Block.draw_east (b : Block) : (b.draw).east = b.east := rfl
@[simp] theorem Block.draw_fwWE (b : Block) : (b.draw).fwWE = b.fwWE := rfl
@[simp] theorem Block.draw_fwEW (b : Block) : (b.draw).fwEW = b.fwEW := rfl
@[simp] theorem Block.draw_qy (b : Block) : (b.draw).qy = b.qy := rfl
@[simp] theorem Block.draw_chs (b : Block) : (b.draw).chs = b.chs := rfl
@[simp] theorem Block.draw_berths (b : Block) : (b.draw).berths = b.berths := rfl
@[simp] theorem Block.draw_chans (b : Block) : (b.draw).chans = b.chans := rfl
@[simp] theorem Block.draw_cols (b : Block) : (b.draw).cols = b.cols := rfl
@[simp] theorem Block.draw_stk (b : Block) : (b.draw).stk = b.stk := rfl
@[simp] theorem Block.draw_keys (b : Block) : (b.draw).keys = b.keys := rfl
@[simp] theorem Block.draw_prot (b : Block) : (b.draw).prot = b.prot := rfl
@[simp] theorem Block.draw_mf (b : Block) : (b.draw).mf = b.mf := rfl
@[simp] theorem Block.draw_heat (b : Block) : (b.draw).heat = b.heat := rfl
@[simp] theorem Block.draw_sv (b : Block) : (b.draw).sv = b.sv := rfl
@[simp] theorem Block.draw_tl (b : Block) : (b.draw).tl = b.tl := rfl
@[simp] theorem Block.draw_lg (b : Block) : (b.draw).lg = b.lg := rfl

/-- Everything that `Block.wearSlot` can change. -/
theorem Block.wearSlot_shape (b : Block) (n : Nat) :
    ∃ lg2 csr2, b.wearSlot n = { b with lg := lg2, csr := csr2 } := by
  unfold Block.wearSlot
  dsimp only
  split
  · exact ⟨_, _, rfl⟩
  · exact ⟨_, _, rfl⟩

@[simp] theorem Block.wearSlot_fresh (b : Block) (n : Nat) : (b.wearSlot n).fresh = b.fresh := by obtain ⟨_, _, h⟩ := Block.wearSlot_shape b n; rw [h]
@[simp] theorem Block.wearSlot_cnt (b : Block) (n : Nat) : (b.wearSlot n).cnt = b.cnt := by obtain ⟨_, _, h⟩ := Block.wearSlot_shape b n; rw [h]
@[simp] theorem Block.wearSlot_sel (b : Block) (n : Nat) : (b.wearSlot n).sel = b.sel := by obtain ⟨_, _, h⟩ := Block.wearSlot_shape b n; rw [h]
@[simp] theorem Block.wearSlot_hold (b : Block) (n : Nat) : (b.wearSlot n).hold = b.hold := by obtain ⟨_, _, h⟩ := Block.wearSlot_shape b n; rw [h]
@[simp] theorem Block.wearSlot_rdData (b : Block) (n : Nat) : (b.wearSlot n).rdData = b.rdData := by obtain ⟨_, _, h⟩ := Block.wearSlot_shape b n; rw [h]
@[simp] theorem Block.wearSlot_jtagDr (b : Block) (n : Nat) : (b.wearSlot n).jtagDr = b.jtagDr := by obtain ⟨_, _, h⟩ := Block.wearSlot_shape b n; rw [h]
@[simp] theorem Block.wearSlot_frzOut (b : Block) (n : Nat) : (b.wearSlot n).frzOut = b.frzOut := by obtain ⟨_, _, h⟩ := Block.wearSlot_shape b n; rw [h]
@[simp] theorem Block.wearSlot_pins (b : Block) (n : Nat) : (b.wearSlot n).pins = b.pins := by obtain ⟨_, _, h⟩ := Block.wearSlot_shape b n; rw [h]
@[simp] theorem Block.wearSlot_pw (b : Block) (n : Nat) : (b.wearSlot n).pw = b.pw := by obtain ⟨_, _, h⟩ := Block.wearSlot_shape b n; rw [h]
@[simp] theorem Block.wearSlot_ck (b : Block) (n : Nat) : (b.wearSlot n).ck = b.ck := by obtain ⟨_, _, h⟩ := Block.wearSlot_shape b n; rw [h]
@[simp] theorem Block.wearSlot_lanes (b : Block) (n : Nat) : (b.wearSlot n).lanes = b.lanes := by obtain ⟨_, _, h⟩ := Block.wearSlot_shape b n; rw [h]
@[simp] theorem Block.wearSlot_west (b : Block) (n : Nat) : (b.wearSlot n).west = b.west := by obtain ⟨_, _, h⟩ := Block.wearSlot_shape b n; rw [h]
@[simp] theorem Block.wearSlot_east (b : Block) (n : Nat) : (b.wearSlot n).east = b.east := by obtain ⟨_, _, h⟩ := Block.wearSlot_shape b n; rw [h]
@[simp] theorem Block.wearSlot_fwWE (b : Block) (n : Nat) : (b.wearSlot n).fwWE = b.fwWE := by obtain ⟨_, _, h⟩ := Block.wearSlot_shape b n; rw [h]
@[simp] theorem Block.wearSlot_fwEW (b : Block) (n : Nat) : (b.wearSlot n).fwEW = b.fwEW := by obtain ⟨_, _, h⟩ := Block.wearSlot_shape b n; rw [h]
@[simp] theorem Block.wearSlot_qy (b : Block) (n : Nat) : (b.wearSlot n).qy = b.qy := by obtain ⟨_, _, h⟩ := Block.wearSlot_shape b n; rw [h]
@[simp] theorem Block.wearSlot_chs (b : Block) (n : Nat) : (b.wearSlot n).chs = b.chs := by obtain ⟨_, _, h⟩ := Block.wearSlot_shape b n; rw [h]
@[simp] theorem Block.wearSlot_berths (b : Block) (n : Nat) : (b.wearSlot n).berths = b.berths := by obtain ⟨_, _, h⟩ := Block.wearSlot_shape b n; rw [h]
@[simp] theorem Block.wearSlot_chans (b : Block) (n : Nat) : (b.wearSlot n).chans = b.chans := by obtain ⟨_, _, h⟩ := Block.wearSlot_shape b n; rw [h]
@[simp] theorem Block.wearSlot_cols (b : Block) (n : Nat) : (b.wearSlot n).cols = b.cols := by obtain ⟨_, _, h⟩ := Block.wearSlot_shape b n; rw [h]
@[simp] theorem Block.wearSlot_stk (b : Block) (n : Nat) : (b.wearSlot n).stk = b.stk := by obtain ⟨_, _, h⟩ := Block.wearSlot_shape b n; rw [h]
@[simp] theorem Block.wearSlot_keys (b : Block) (n : Nat) : (b.wearSlot n).keys = b.keys := by obtain ⟨_, _, h⟩ := Block.wearSlot_shape b n; rw [h]
@[simp] theorem Block.wearSlot_prot (b : Block) (n : Nat) : (b.wearSlot n).prot = b.prot := by obtain ⟨_, _, h⟩ := Block.wearSlot_shape b n; rw [h]
@[simp] theorem Block.wearSlot_mf (b : Block) (n : Nat) : (b.wearSlot n).mf = b.mf := by obtain ⟨_, _, h⟩ := Block.wearSlot_shape b n; rw [h]
@[simp] theorem Block.wearSlot_heat (b : Block) (n : Nat) : (b.wearSlot n).heat = b.heat := by obtain ⟨_, _, h⟩ := Block.wearSlot_shape b n; rw [h]
@[simp] theorem Block.wearSlot_sv (b : Block) (n : Nat) : (b.wearSlot n).sv = b.sv := by obtain ⟨_, _, h⟩ := Block.wearSlot_shape b n; rw [h]
@[simp] theorem Block.wearSlot_tl (b : Block) (n : Nat) : (b.wearSlot n).tl = b.tl := by obtain ⟨_, _, h⟩ := Block.wearSlot_shape b n; rw [h]

/-- Everything that `Block.writeEvent` can change. -/
theorem Block.writeEvent_shape (b : Block) (c u r : BitVec 16) (d : List (BitVec 16)) (o : List Suppress) :
    ∃ lg2 csr2, b.writeEvent c u r d o = { b with lg := lg2, csr := csr2 } := by
  unfold Block.writeEvent
  dsimp only
  split
  · obtain ⟨l, k, e⟩ := Block.wearSlot_shape _ 15
    rw [e]; exact ⟨_, _, rfl⟩
  · exact ⟨_, _, rfl⟩

@[simp] theorem Block.writeEvent_fresh (b : Block) (c u r : BitVec 16) (d : List (BitVec 16)) (o : List Suppress) : (b.writeEvent c u r d o).fresh = b.fresh := by obtain ⟨_, _, h⟩ := Block.writeEvent_shape b c u r d o; rw [h]
@[simp] theorem Block.writeEvent_cnt (b : Block) (c u r : BitVec 16) (d : List (BitVec 16)) (o : List Suppress) : (b.writeEvent c u r d o).cnt = b.cnt := by obtain ⟨_, _, h⟩ := Block.writeEvent_shape b c u r d o; rw [h]
@[simp] theorem Block.writeEvent_sel (b : Block) (c u r : BitVec 16) (d : List (BitVec 16)) (o : List Suppress) : (b.writeEvent c u r d o).sel = b.sel := by obtain ⟨_, _, h⟩ := Block.writeEvent_shape b c u r d o; rw [h]
@[simp] theorem Block.writeEvent_hold (b : Block) (c u r : BitVec 16) (d : List (BitVec 16)) (o : List Suppress) : (b.writeEvent c u r d o).hold = b.hold := by obtain ⟨_, _, h⟩ := Block.writeEvent_shape b c u r d o; rw [h]
@[simp] theorem Block.writeEvent_rdData (b : Block) (c u r : BitVec 16) (d : List (BitVec 16)) (o : List Suppress) : (b.writeEvent c u r d o).rdData = b.rdData := by obtain ⟨_, _, h⟩ := Block.writeEvent_shape b c u r d o; rw [h]
@[simp] theorem Block.writeEvent_jtagDr (b : Block) (c u r : BitVec 16) (d : List (BitVec 16)) (o : List Suppress) : (b.writeEvent c u r d o).jtagDr = b.jtagDr := by obtain ⟨_, _, h⟩ := Block.writeEvent_shape b c u r d o; rw [h]
@[simp] theorem Block.writeEvent_frzOut (b : Block) (c u r : BitVec 16) (d : List (BitVec 16)) (o : List Suppress) : (b.writeEvent c u r d o).frzOut = b.frzOut := by obtain ⟨_, _, h⟩ := Block.writeEvent_shape b c u r d o; rw [h]
@[simp] theorem Block.writeEvent_pins (b : Block) (c u r : BitVec 16) (d : List (BitVec 16)) (o : List Suppress) : (b.writeEvent c u r d o).pins = b.pins := by obtain ⟨_, _, h⟩ := Block.writeEvent_shape b c u r d o; rw [h]
@[simp] theorem Block.writeEvent_pw (b : Block) (c u r : BitVec 16) (d : List (BitVec 16)) (o : List Suppress) : (b.writeEvent c u r d o).pw = b.pw := by obtain ⟨_, _, h⟩ := Block.writeEvent_shape b c u r d o; rw [h]
@[simp] theorem Block.writeEvent_ck (b : Block) (c u r : BitVec 16) (d : List (BitVec 16)) (o : List Suppress) : (b.writeEvent c u r d o).ck = b.ck := by obtain ⟨_, _, h⟩ := Block.writeEvent_shape b c u r d o; rw [h]
@[simp] theorem Block.writeEvent_lanes (b : Block) (c u r : BitVec 16) (d : List (BitVec 16)) (o : List Suppress) : (b.writeEvent c u r d o).lanes = b.lanes := by obtain ⟨_, _, h⟩ := Block.writeEvent_shape b c u r d o; rw [h]
@[simp] theorem Block.writeEvent_west (b : Block) (c u r : BitVec 16) (d : List (BitVec 16)) (o : List Suppress) : (b.writeEvent c u r d o).west = b.west := by obtain ⟨_, _, h⟩ := Block.writeEvent_shape b c u r d o; rw [h]
@[simp] theorem Block.writeEvent_east (b : Block) (c u r : BitVec 16) (d : List (BitVec 16)) (o : List Suppress) : (b.writeEvent c u r d o).east = b.east := by obtain ⟨_, _, h⟩ := Block.writeEvent_shape b c u r d o; rw [h]
@[simp] theorem Block.writeEvent_fwWE (b : Block) (c u r : BitVec 16) (d : List (BitVec 16)) (o : List Suppress) : (b.writeEvent c u r d o).fwWE = b.fwWE := by obtain ⟨_, _, h⟩ := Block.writeEvent_shape b c u r d o; rw [h]
@[simp] theorem Block.writeEvent_fwEW (b : Block) (c u r : BitVec 16) (d : List (BitVec 16)) (o : List Suppress) : (b.writeEvent c u r d o).fwEW = b.fwEW := by obtain ⟨_, _, h⟩ := Block.writeEvent_shape b c u r d o; rw [h]
@[simp] theorem Block.writeEvent_qy (b : Block) (c u r : BitVec 16) (d : List (BitVec 16)) (o : List Suppress) : (b.writeEvent c u r d o).qy = b.qy := by obtain ⟨_, _, h⟩ := Block.writeEvent_shape b c u r d o; rw [h]
@[simp] theorem Block.writeEvent_chs (b : Block) (c u r : BitVec 16) (d : List (BitVec 16)) (o : List Suppress) : (b.writeEvent c u r d o).chs = b.chs := by obtain ⟨_, _, h⟩ := Block.writeEvent_shape b c u r d o; rw [h]
@[simp] theorem Block.writeEvent_berths (b : Block) (c u r : BitVec 16) (d : List (BitVec 16)) (o : List Suppress) : (b.writeEvent c u r d o).berths = b.berths := by obtain ⟨_, _, h⟩ := Block.writeEvent_shape b c u r d o; rw [h]
@[simp] theorem Block.writeEvent_chans (b : Block) (c u r : BitVec 16) (d : List (BitVec 16)) (o : List Suppress) : (b.writeEvent c u r d o).chans = b.chans := by obtain ⟨_, _, h⟩ := Block.writeEvent_shape b c u r d o; rw [h]
@[simp] theorem Block.writeEvent_cols (b : Block) (c u r : BitVec 16) (d : List (BitVec 16)) (o : List Suppress) : (b.writeEvent c u r d o).cols = b.cols := by obtain ⟨_, _, h⟩ := Block.writeEvent_shape b c u r d o; rw [h]
@[simp] theorem Block.writeEvent_stk (b : Block) (c u r : BitVec 16) (d : List (BitVec 16)) (o : List Suppress) : (b.writeEvent c u r d o).stk = b.stk := by obtain ⟨_, _, h⟩ := Block.writeEvent_shape b c u r d o; rw [h]
@[simp] theorem Block.writeEvent_keys (b : Block) (c u r : BitVec 16) (d : List (BitVec 16)) (o : List Suppress) : (b.writeEvent c u r d o).keys = b.keys := by obtain ⟨_, _, h⟩ := Block.writeEvent_shape b c u r d o; rw [h]
@[simp] theorem Block.writeEvent_prot (b : Block) (c u r : BitVec 16) (d : List (BitVec 16)) (o : List Suppress) : (b.writeEvent c u r d o).prot = b.prot := by obtain ⟨_, _, h⟩ := Block.writeEvent_shape b c u r d o; rw [h]
@[simp] theorem Block.writeEvent_mf (b : Block) (c u r : BitVec 16) (d : List (BitVec 16)) (o : List Suppress) : (b.writeEvent c u r d o).mf = b.mf := by obtain ⟨_, _, h⟩ := Block.writeEvent_shape b c u r d o; rw [h]
@[simp] theorem Block.writeEvent_heat (b : Block) (c u r : BitVec 16) (d : List (BitVec 16)) (o : List Suppress) : (b.writeEvent c u r d o).heat = b.heat := by obtain ⟨_, _, h⟩ := Block.writeEvent_shape b c u r d o; rw [h]
@[simp] theorem Block.writeEvent_sv (b : Block) (c u r : BitVec 16) (d : List (BitVec 16)) (o : List Suppress) : (b.writeEvent c u r d o).sv = b.sv := by obtain ⟨_, _, h⟩ := Block.writeEvent_shape b c u r d o; rw [h]
@[simp] theorem Block.writeEvent_tl (b : Block) (c u r : BitVec 16) (d : List (BitVec 16)) (o : List Suppress) : (b.writeEvent c u r d o).tl = b.tl := by obtain ⟨_, _, h⟩ := Block.writeEvent_shape b c u r d o; rw [h]

/-- Everything that `Block.event` can change. -/
theorem Block.event_shape (b : Block) (e : Ev) (u : Nat) (d : List (BitVec 16)) :
    ∃ lg2 csr2, b.event e u d = { b with lg := lg2, csr := csr2 } := by
  unfold Block.event
  dsimp only
  split
  · exact ⟨_, _, rfl⟩
  · split
    · unfold Block.logEvent
      dsimp only
      split
      · split
        · exact ⟨_, _, rfl⟩
        · exact Block.writeEvent_shape ..
      · exact Block.writeEvent_shape ..
    · exact ⟨_, _, rfl⟩

@[simp] theorem Block.event_fresh (b : Block) (e : Ev) (u : Nat) (d : List (BitVec 16)) : (b.event e u d).fresh = b.fresh := by obtain ⟨_, _, h⟩ := Block.event_shape b e u d; rw [h]
@[simp] theorem Block.event_cnt (b : Block) (e : Ev) (u : Nat) (d : List (BitVec 16)) : (b.event e u d).cnt = b.cnt := by obtain ⟨_, _, h⟩ := Block.event_shape b e u d; rw [h]
@[simp] theorem Block.event_sel (b : Block) (e : Ev) (u : Nat) (d : List (BitVec 16)) : (b.event e u d).sel = b.sel := by obtain ⟨_, _, h⟩ := Block.event_shape b e u d; rw [h]
@[simp] theorem Block.event_hold (b : Block) (e : Ev) (u : Nat) (d : List (BitVec 16)) : (b.event e u d).hold = b.hold := by obtain ⟨_, _, h⟩ := Block.event_shape b e u d; rw [h]
@[simp] theorem Block.event_rdData (b : Block) (e : Ev) (u : Nat) (d : List (BitVec 16)) : (b.event e u d).rdData = b.rdData := by obtain ⟨_, _, h⟩ := Block.event_shape b e u d; rw [h]
@[simp] theorem Block.event_jtagDr (b : Block) (e : Ev) (u : Nat) (d : List (BitVec 16)) : (b.event e u d).jtagDr = b.jtagDr := by obtain ⟨_, _, h⟩ := Block.event_shape b e u d; rw [h]
@[simp] theorem Block.event_frzOut (b : Block) (e : Ev) (u : Nat) (d : List (BitVec 16)) : (b.event e u d).frzOut = b.frzOut := by obtain ⟨_, _, h⟩ := Block.event_shape b e u d; rw [h]
@[simp] theorem Block.event_pins (b : Block) (e : Ev) (u : Nat) (d : List (BitVec 16)) : (b.event e u d).pins = b.pins := by obtain ⟨_, _, h⟩ := Block.event_shape b e u d; rw [h]
@[simp] theorem Block.event_pw (b : Block) (e : Ev) (u : Nat) (d : List (BitVec 16)) : (b.event e u d).pw = b.pw := by obtain ⟨_, _, h⟩ := Block.event_shape b e u d; rw [h]
@[simp] theorem Block.event_ck (b : Block) (e : Ev) (u : Nat) (d : List (BitVec 16)) : (b.event e u d).ck = b.ck := by obtain ⟨_, _, h⟩ := Block.event_shape b e u d; rw [h]
@[simp] theorem Block.event_lanes (b : Block) (e : Ev) (u : Nat) (d : List (BitVec 16)) : (b.event e u d).lanes = b.lanes := by obtain ⟨_, _, h⟩ := Block.event_shape b e u d; rw [h]
@[simp] theorem Block.event_west (b : Block) (e : Ev) (u : Nat) (d : List (BitVec 16)) : (b.event e u d).west = b.west := by obtain ⟨_, _, h⟩ := Block.event_shape b e u d; rw [h]
@[simp] theorem Block.event_east (b : Block) (e : Ev) (u : Nat) (d : List (BitVec 16)) : (b.event e u d).east = b.east := by obtain ⟨_, _, h⟩ := Block.event_shape b e u d; rw [h]
@[simp] theorem Block.event_fwWE (b : Block) (e : Ev) (u : Nat) (d : List (BitVec 16)) : (b.event e u d).fwWE = b.fwWE := by obtain ⟨_, _, h⟩ := Block.event_shape b e u d; rw [h]
@[simp] theorem Block.event_fwEW (b : Block) (e : Ev) (u : Nat) (d : List (BitVec 16)) : (b.event e u d).fwEW = b.fwEW := by obtain ⟨_, _, h⟩ := Block.event_shape b e u d; rw [h]
@[simp] theorem Block.event_qy (b : Block) (e : Ev) (u : Nat) (d : List (BitVec 16)) : (b.event e u d).qy = b.qy := by obtain ⟨_, _, h⟩ := Block.event_shape b e u d; rw [h]
@[simp] theorem Block.event_chs (b : Block) (e : Ev) (u : Nat) (d : List (BitVec 16)) : (b.event e u d).chs = b.chs := by obtain ⟨_, _, h⟩ := Block.event_shape b e u d; rw [h]
@[simp] theorem Block.event_berths (b : Block) (e : Ev) (u : Nat) (d : List (BitVec 16)) : (b.event e u d).berths = b.berths := by obtain ⟨_, _, h⟩ := Block.event_shape b e u d; rw [h]
@[simp] theorem Block.event_chans (b : Block) (e : Ev) (u : Nat) (d : List (BitVec 16)) : (b.event e u d).chans = b.chans := by obtain ⟨_, _, h⟩ := Block.event_shape b e u d; rw [h]
@[simp] theorem Block.event_cols (b : Block) (e : Ev) (u : Nat) (d : List (BitVec 16)) : (b.event e u d).cols = b.cols := by obtain ⟨_, _, h⟩ := Block.event_shape b e u d; rw [h]
@[simp] theorem Block.event_stk (b : Block) (e : Ev) (u : Nat) (d : List (BitVec 16)) : (b.event e u d).stk = b.stk := by obtain ⟨_, _, h⟩ := Block.event_shape b e u d; rw [h]
@[simp] theorem Block.event_keys (b : Block) (e : Ev) (u : Nat) (d : List (BitVec 16)) : (b.event e u d).keys = b.keys := by obtain ⟨_, _, h⟩ := Block.event_shape b e u d; rw [h]
@[simp] theorem Block.event_prot (b : Block) (e : Ev) (u : Nat) (d : List (BitVec 16)) : (b.event e u d).prot = b.prot := by obtain ⟨_, _, h⟩ := Block.event_shape b e u d; rw [h]
@[simp] theorem Block.event_mf (b : Block) (e : Ev) (u : Nat) (d : List (BitVec 16)) : (b.event e u d).mf = b.mf := by obtain ⟨_, _, h⟩ := Block.event_shape b e u d; rw [h]
@[simp] theorem Block.event_heat (b : Block) (e : Ev) (u : Nat) (d : List (BitVec 16)) : (b.event e u d).heat = b.heat := by obtain ⟨_, _, h⟩ := Block.event_shape b e u d; rw [h]
@[simp] theorem Block.event_sv (b : Block) (e : Ev) (u : Nat) (d : List (BitVec 16)) : (b.event e u d).sv = b.sv := by obtain ⟨_, _, h⟩ := Block.event_shape b e u d; rw [h]
@[simp] theorem Block.event_tl (b : Block) (e : Ev) (u : Nat) (d : List (BitVec 16)) : (b.event e u d).tl = b.tl := by obtain ⟨_, _, h⟩ := Block.event_shape b e u d; rw [h]

/-- Everything that `Block.push` can change. -/
theorem Block.push_shape (b : Block) (o : Origin) (n : Nat) (fs : List Flit) :
    ∃ qy2, b.push o n fs = { b with qy := qy2 } := by
  unfold Block.push
  dsimp only
  split
  · exact ⟨_, rfl⟩
  · split <;> exact ⟨_, rfl⟩

@[simp] theorem Block.push_fresh (b : Block) (o : Origin) (n : Nat) (fs : List Flit) : (b.push o n fs).fresh = b.fresh := by obtain ⟨_, h⟩ := Block.push_shape b o n fs; rw [h]
@[simp] theorem Block.push_csr (b : Block) (o : Origin) (n : Nat) (fs : List Flit) : (b.push o n fs).csr = b.csr := by obtain ⟨_, h⟩ := Block.push_shape b o n fs; rw [h]
@[simp] theorem Block.push_cnt (b : Block) (o : Origin) (n : Nat) (fs : List Flit) : (b.push o n fs).cnt = b.cnt := by obtain ⟨_, h⟩ := Block.push_shape b o n fs; rw [h]
@[simp] theorem Block.push_sel (b : Block) (o : Origin) (n : Nat) (fs : List Flit) : (b.push o n fs).sel = b.sel := by obtain ⟨_, h⟩ := Block.push_shape b o n fs; rw [h]
@[simp] theorem Block.push_hold (b : Block) (o : Origin) (n : Nat) (fs : List Flit) : (b.push o n fs).hold = b.hold := by obtain ⟨_, h⟩ := Block.push_shape b o n fs; rw [h]
@[simp] theorem Block.push_rdData (b : Block) (o : Origin) (n : Nat) (fs : List Flit) : (b.push o n fs).rdData = b.rdData := by obtain ⟨_, h⟩ := Block.push_shape b o n fs; rw [h]
@[simp] theorem Block.push_jtagDr (b : Block) (o : Origin) (n : Nat) (fs : List Flit) : (b.push o n fs).jtagDr = b.jtagDr := by obtain ⟨_, h⟩ := Block.push_shape b o n fs; rw [h]
@[simp] theorem Block.push_frzOut (b : Block) (o : Origin) (n : Nat) (fs : List Flit) : (b.push o n fs).frzOut = b.frzOut := by obtain ⟨_, h⟩ := Block.push_shape b o n fs; rw [h]
@[simp] theorem Block.push_pins (b : Block) (o : Origin) (n : Nat) (fs : List Flit) : (b.push o n fs).pins = b.pins := by obtain ⟨_, h⟩ := Block.push_shape b o n fs; rw [h]
@[simp] theorem Block.push_pw (b : Block) (o : Origin) (n : Nat) (fs : List Flit) : (b.push o n fs).pw = b.pw := by obtain ⟨_, h⟩ := Block.push_shape b o n fs; rw [h]
@[simp] theorem Block.push_ck (b : Block) (o : Origin) (n : Nat) (fs : List Flit) : (b.push o n fs).ck = b.ck := by obtain ⟨_, h⟩ := Block.push_shape b o n fs; rw [h]
@[simp] theorem Block.push_lanes (b : Block) (o : Origin) (n : Nat) (fs : List Flit) : (b.push o n fs).lanes = b.lanes := by obtain ⟨_, h⟩ := Block.push_shape b o n fs; rw [h]
@[simp] theorem Block.push_west (b : Block) (o : Origin) (n : Nat) (fs : List Flit) : (b.push o n fs).west = b.west := by obtain ⟨_, h⟩ := Block.push_shape b o n fs; rw [h]
@[simp] theorem Block.push_east (b : Block) (o : Origin) (n : Nat) (fs : List Flit) : (b.push o n fs).east = b.east := by obtain ⟨_, h⟩ := Block.push_shape b o n fs; rw [h]
@[simp] theorem Block.push_fwWE (b : Block) (o : Origin) (n : Nat) (fs : List Flit) : (b.push o n fs).fwWE = b.fwWE := by obtain ⟨_, h⟩ := Block.push_shape b o n fs; rw [h]
@[simp] theorem Block.push_fwEW (b : Block) (o : Origin) (n : Nat) (fs : List Flit) : (b.push o n fs).fwEW = b.fwEW := by obtain ⟨_, h⟩ := Block.push_shape b o n fs; rw [h]
@[simp] theorem Block.push_chs (b : Block) (o : Origin) (n : Nat) (fs : List Flit) : (b.push o n fs).chs = b.chs := by obtain ⟨_, h⟩ := Block.push_shape b o n fs; rw [h]
@[simp] theorem Block.push_berths (b : Block) (o : Origin) (n : Nat) (fs : List Flit) : (b.push o n fs).berths = b.berths := by obtain ⟨_, h⟩ := Block.push_shape b o n fs; rw [h]
@[simp] theorem Block.push_chans (b : Block) (o : Origin) (n : Nat) (fs : List Flit) : (b.push o n fs).chans = b.chans := by obtain ⟨_, h⟩ := Block.push_shape b o n fs; rw [h]
@[simp] theorem Block.push_cols (b : Block) (o : Origin) (n : Nat) (fs : List Flit) : (b.push o n fs).cols = b.cols := by obtain ⟨_, h⟩ := Block.push_shape b o n fs; rw [h]
@[simp] theorem Block.push_stk (b : Block) (o : Origin) (n : Nat) (fs : List Flit) : (b.push o n fs).stk = b.stk := by obtain ⟨_, h⟩ := Block.push_shape b o n fs; rw [h]
@[simp] theorem Block.push_keys (b : Block) (o : Origin) (n : Nat) (fs : List Flit) : (b.push o n fs).keys = b.keys := by obtain ⟨_, h⟩ := Block.push_shape b o n fs; rw [h]
@[simp] theorem Block.push_prot (b : Block) (o : Origin) (n : Nat) (fs : List Flit) : (b.push o n fs).prot = b.prot := by obtain ⟨_, h⟩ := Block.push_shape b o n fs; rw [h]
@[simp] theorem Block.push_mf (b : Block) (o : Origin) (n : Nat) (fs : List Flit) : (b.push o n fs).mf = b.mf := by obtain ⟨_, h⟩ := Block.push_shape b o n fs; rw [h]
@[simp] theorem Block.push_heat (b : Block) (o : Origin) (n : Nat) (fs : List Flit) : (b.push o n fs).heat = b.heat := by obtain ⟨_, h⟩ := Block.push_shape b o n fs; rw [h]
@[simp] theorem Block.push_sv (b : Block) (o : Origin) (n : Nat) (fs : List Flit) : (b.push o n fs).sv = b.sv := by obtain ⟨_, h⟩ := Block.push_shape b o n fs; rw [h]
@[simp] theorem Block.push_tl (b : Block) (o : Origin) (n : Nat) (fs : List Flit) : (b.push o n fs).tl = b.tl := by obtain ⟨_, h⟩ := Block.push_shape b o n fs; rw [h]
@[simp] theorem Block.push_lg (b : Block) (o : Origin) (n : Nat) (fs : List Flit) : (b.push o n fs).lg = b.lg := by obtain ⟨_, h⟩ := Block.push_shape b o n fs; rw [h]

/-- Everything that `Block.finish` can change. -/
theorem Block.finish_shape (b : Block) (m : ManRef) (op st : Nat) (r : List Byte) (d : Detail) :
    ∃ qy2 mf2, b.finish m op st r d = { b with qy := qy2, mf := mf2 } := by
  unfold Block.finish
  dsimp only
  split
  · split
    · exact ⟨_, _, rfl⟩
    · obtain ⟨q, e⟩ := Block.push_shape _ _ _ _
      rw [e]; exact ⟨_, _, rfl⟩
  · exact ⟨_, _, rfl⟩

@[simp] theorem Block.finish_fresh (b : Block) (m : ManRef) (op st : Nat) (r : List Byte) (d : Detail) : (b.finish m op st r d).fresh = b.fresh := by obtain ⟨_, _, h⟩ := Block.finish_shape b m op st r d; rw [h]
@[simp] theorem Block.finish_csr (b : Block) (m : ManRef) (op st : Nat) (r : List Byte) (d : Detail) : (b.finish m op st r d).csr = b.csr := by obtain ⟨_, _, h⟩ := Block.finish_shape b m op st r d; rw [h]
@[simp] theorem Block.finish_cnt (b : Block) (m : ManRef) (op st : Nat) (r : List Byte) (d : Detail) : (b.finish m op st r d).cnt = b.cnt := by obtain ⟨_, _, h⟩ := Block.finish_shape b m op st r d; rw [h]
@[simp] theorem Block.finish_sel (b : Block) (m : ManRef) (op st : Nat) (r : List Byte) (d : Detail) : (b.finish m op st r d).sel = b.sel := by obtain ⟨_, _, h⟩ := Block.finish_shape b m op st r d; rw [h]
@[simp] theorem Block.finish_hold (b : Block) (m : ManRef) (op st : Nat) (r : List Byte) (d : Detail) : (b.finish m op st r d).hold = b.hold := by obtain ⟨_, _, h⟩ := Block.finish_shape b m op st r d; rw [h]
@[simp] theorem Block.finish_rdData (b : Block) (m : ManRef) (op st : Nat) (r : List Byte) (d : Detail) : (b.finish m op st r d).rdData = b.rdData := by obtain ⟨_, _, h⟩ := Block.finish_shape b m op st r d; rw [h]
@[simp] theorem Block.finish_jtagDr (b : Block) (m : ManRef) (op st : Nat) (r : List Byte) (d : Detail) : (b.finish m op st r d).jtagDr = b.jtagDr := by obtain ⟨_, _, h⟩ := Block.finish_shape b m op st r d; rw [h]
@[simp] theorem Block.finish_frzOut (b : Block) (m : ManRef) (op st : Nat) (r : List Byte) (d : Detail) : (b.finish m op st r d).frzOut = b.frzOut := by obtain ⟨_, _, h⟩ := Block.finish_shape b m op st r d; rw [h]
@[simp] theorem Block.finish_pins (b : Block) (m : ManRef) (op st : Nat) (r : List Byte) (d : Detail) : (b.finish m op st r d).pins = b.pins := by obtain ⟨_, _, h⟩ := Block.finish_shape b m op st r d; rw [h]
@[simp] theorem Block.finish_pw (b : Block) (m : ManRef) (op st : Nat) (r : List Byte) (d : Detail) : (b.finish m op st r d).pw = b.pw := by obtain ⟨_, _, h⟩ := Block.finish_shape b m op st r d; rw [h]
@[simp] theorem Block.finish_ck (b : Block) (m : ManRef) (op st : Nat) (r : List Byte) (d : Detail) : (b.finish m op st r d).ck = b.ck := by obtain ⟨_, _, h⟩ := Block.finish_shape b m op st r d; rw [h]
@[simp] theorem Block.finish_lanes (b : Block) (m : ManRef) (op st : Nat) (r : List Byte) (d : Detail) : (b.finish m op st r d).lanes = b.lanes := by obtain ⟨_, _, h⟩ := Block.finish_shape b m op st r d; rw [h]
@[simp] theorem Block.finish_west (b : Block) (m : ManRef) (op st : Nat) (r : List Byte) (d : Detail) : (b.finish m op st r d).west = b.west := by obtain ⟨_, _, h⟩ := Block.finish_shape b m op st r d; rw [h]
@[simp] theorem Block.finish_east (b : Block) (m : ManRef) (op st : Nat) (r : List Byte) (d : Detail) : (b.finish m op st r d).east = b.east := by obtain ⟨_, _, h⟩ := Block.finish_shape b m op st r d; rw [h]
@[simp] theorem Block.finish_fwWE (b : Block) (m : ManRef) (op st : Nat) (r : List Byte) (d : Detail) : (b.finish m op st r d).fwWE = b.fwWE := by obtain ⟨_, _, h⟩ := Block.finish_shape b m op st r d; rw [h]
@[simp] theorem Block.finish_fwEW (b : Block) (m : ManRef) (op st : Nat) (r : List Byte) (d : Detail) : (b.finish m op st r d).fwEW = b.fwEW := by obtain ⟨_, _, h⟩ := Block.finish_shape b m op st r d; rw [h]
@[simp] theorem Block.finish_chs (b : Block) (m : ManRef) (op st : Nat) (r : List Byte) (d : Detail) : (b.finish m op st r d).chs = b.chs := by obtain ⟨_, _, h⟩ := Block.finish_shape b m op st r d; rw [h]
@[simp] theorem Block.finish_berths (b : Block) (m : ManRef) (op st : Nat) (r : List Byte) (d : Detail) : (b.finish m op st r d).berths = b.berths := by obtain ⟨_, _, h⟩ := Block.finish_shape b m op st r d; rw [h]
@[simp] theorem Block.finish_chans (b : Block) (m : ManRef) (op st : Nat) (r : List Byte) (d : Detail) : (b.finish m op st r d).chans = b.chans := by obtain ⟨_, _, h⟩ := Block.finish_shape b m op st r d; rw [h]
@[simp] theorem Block.finish_cols (b : Block) (m : ManRef) (op st : Nat) (r : List Byte) (d : Detail) : (b.finish m op st r d).cols = b.cols := by obtain ⟨_, _, h⟩ := Block.finish_shape b m op st r d; rw [h]
@[simp] theorem Block.finish_stk (b : Block) (m : ManRef) (op st : Nat) (r : List Byte) (d : Detail) : (b.finish m op st r d).stk = b.stk := by obtain ⟨_, _, h⟩ := Block.finish_shape b m op st r d; rw [h]
@[simp] theorem Block.finish_keys (b : Block) (m : ManRef) (op st : Nat) (r : List Byte) (d : Detail) : (b.finish m op st r d).keys = b.keys := by obtain ⟨_, _, h⟩ := Block.finish_shape b m op st r d; rw [h]
@[simp] theorem Block.finish_prot (b : Block) (m : ManRef) (op st : Nat) (r : List Byte) (d : Detail) : (b.finish m op st r d).prot = b.prot := by obtain ⟨_, _, h⟩ := Block.finish_shape b m op st r d; rw [h]
@[simp] theorem Block.finish_heat (b : Block) (m : ManRef) (op st : Nat) (r : List Byte) (d : Detail) : (b.finish m op st r d).heat = b.heat := by obtain ⟨_, _, h⟩ := Block.finish_shape b m op st r d; rw [h]
@[simp] theorem Block.finish_sv (b : Block) (m : ManRef) (op st : Nat) (r : List Byte) (d : Detail) : (b.finish m op st r d).sv = b.sv := by obtain ⟨_, _, h⟩ := Block.finish_shape b m op st r d; rw [h]
@[simp] theorem Block.finish_tl (b : Block) (m : ManRef) (op st : Nat) (r : List Byte) (d : Detail) : (b.finish m op st r d).tl = b.tl := by obtain ⟨_, _, h⟩ := Block.finish_shape b m op st r d; rw [h]
@[simp] theorem Block.finish_lg (b : Block) (m : ManRef) (op st : Nat) (r : List Byte) (d : Detail) : (b.finish m op st r d).lg = b.lg := by obtain ⟨_, _, h⟩ := Block.finish_shape b m op st r d; rw [h]

/-! ### Repeated updates -/

/-- What each update of a list keeps, all of them keep. -/
theorem Block.each_keeps {β : Type} (π : Block → β) (f : Block → Nat → Block) (h : ∀ b n, π (f b n) = π b) (b : Block)
    (ns : List Nat) : π (b.each ns f) = π b := by
  unfold Block.each
  induction ns generalizing b with
  | nil => rfl
  | cons n ns ih => rw [List.foldl_cons, ih, h]

/-- What holds before and what each update keeps true holds after all of them. -/
theorem Block.each_induct (P : Block → Prop) (f : Block → Nat → Block) (h : ∀ b n, P b → P (f b n)) (b : Block)
    (ns : List Nat) (hb : P b) : P (b.each ns f) := by
  unfold Block.each
  induction ns generalizing b with
  | nil => exact hb
  | cons n ns ih => exact ih _ (h b n hb)

end Sys2Proof.Machine
end

