-- ==== Sys2Proof/Laws/Table.lean ====
section
/-! SUPPORT. Sparse tables: what a read gives after a write, and that every operation keeps the canonical form. -/

namespace Sys2Proof.Machine

open Sys2Proof

set_option Elab.async false

variable {α : Type} (d : Nat → α)

theorem tget_tput (t : Tbl α) (k j : Nat) (v : α) : tget d (tput t k v) j = if k = j then v else tget d t j := by
  induction t with
  | nil => simp [tput, tget]
  | cons e t ih =>
    obtain ⟨i, w⟩ := e
    simp only [tput]
    split
    · simp [tget]
    · split
      · subst_vars; simp only [tget]; split <;> rfl
      · simp only [tget, ih]; split
        · subst_vars; rw [if_neg (by omega)]
        · rfl

theorem tget_tdel (t : Tbl α) (k j : Nat) : tget d (tdel t k) j = if k = j then d j else tget d t j := by
  induction t with
  | nil => simp [tdel, tget]
  | cons e t ih =>
    obtain ⟨i, w⟩ := e
    simp only [tdel, List.filter_cons] at ih ⊢
    by_cases h : i = k
    · subst h; simp only [bne_self_eq_false, Bool.false_eq_true, if_false, tget, ih]
      split <;> rfl
    · simp only [bne_iff_ne, ne_eq, h, not_false_eq_true, if_true, tget, ih]
      by_cases g : i = j
      · subst g; simp [Ne.symm h]
      · simp [g]

/-- A read after a write: the value written at its key, what stood there at every other key. -/
theorem tget_tset [DecidableEq α] (t : Tbl α) (k j : Nat) (v : α) :
    tget d (tset d t k v) j = if k = j then v else tget d t j := by
  unfold tset
  split
  · rename_i h; rw [tget_tdel]; split
    · subst_vars; rfl
    · rfl
  · exact tget_tput d t k j v

@[simp] theorem tget_tset_same [DecidableEq α] (t : Tbl α) (k : Nat) (v : α) : tget d (tset d t k v) k = v := by
  simp [tget_tset]

theorem tget_tset_other [DecidableEq α] (t : Tbl α) {k j : Nat} (v : α) (h : k ≠ j) :
    tget d (tset d t k v) j = tget d t j := by simp [tget_tset, h]

theorem tsorted_iff (t : Tbl α) : tsorted t = true ↔ t.Pairwise fun a b => a.1 < b.1 := by
  induction t with
  | nil => simp [tsorted]
  | cons e t ih =>
    obtain ⟨i, w⟩ := e
    cases t with
    | nil => simp [tsorted]
    | cons e2 t2 =>
      obtain ⟨j, u⟩ := e2
      rw [List.pairwise_cons, tsorted, Bool.and_eq_true, decide_eq_true_iff, ih]
      constructor
      · rintro ⟨h, p⟩
        refine ⟨fun a ha => ?_, p⟩
        rcases List.mem_cons.1 ha with rfl | ha
        · exact h
        · exact lt_trans h ((List.pairwise_cons.1 p).1 a ha)
      · rintro ⟨h, p⟩
        exact ⟨h (j, u) (by simp), p⟩

theorem twf_iff [DecidableEq α] (t : Tbl α) :
    twf d t = true ↔ (t.Pairwise fun a b => a.1 < b.1) ∧ ∀ e ∈ t, e.2 ≠ d e.1 := by
  simp [twf, tsorted_iff]

theorem mem_tput {t : Tbl α} {k : Nat} {v : α} {e : Nat × α} (h : e ∈ tput t k v) : e = (k, v) ∨ e ∈ t := by
  induction t with
  | nil => simpa [tput] using h
  | cons a t ih =>
    obtain ⟨i, w⟩ := a
    simp only [tput] at h
    split at h
    · rcases List.mem_cons.1 h with h | h
      · exact Or.inl h
      · exact Or.inr h
    · split at h
      · rcases List.mem_cons.1 h with h | h
        · exact Or.inl h
        · exact Or.inr (List.mem_cons_of_mem _ h)
      · rcases List.mem_cons.1 h with h | h
        · exact Or.inr (by simp [h])
        · rcases ih h with h | h
          · exact Or.inl h
          · exact Or.inr (List.mem_cons_of_mem _ h)

theorem pairwise_tput {t : Tbl α} {k : Nat} {v : α} (h : t.Pairwise fun a b => a.1 < b.1) :
    (tput t k v).Pairwise fun a b => a.1 < b.1 := by
  induction t with
  | nil => simp [tput]
  | cons a t ih =>
    obtain ⟨i, w⟩ := a
    have ⟨h1, h2⟩ := List.pairwise_cons.1 h
    simp only [tput]
    split
    · rename_i hk
      refine List.pairwise_cons.2 ⟨fun e he => ?_, h⟩
      rcases List.mem_cons.1 he with rfl | he
      · exact hk
      · exact lt_trans hk (h1 e he)
    · split
      · rename_i hk; subst hk
        exact List.pairwise_cons.2 ⟨h1, h2⟩
      · refine List.pairwise_cons.2 ⟨fun e he => ?_, ih h2⟩
        rcases mem_tput he with rfl | he
        · simp only; omega
        · exact h1 e he

/-- A filter keeps the canonical form. -/
theorem twf_filter [DecidableEq α] {t : Tbl α} (p : Nat × α → Bool) (h : twf d t = true) :
    twf d (t.filter p) = true := by
  rw [twf_iff] at h ⊢
  exact ⟨h.1.filter p, fun e he => h.2 e (List.mem_filter.1 he).1⟩

/-- A write keeps the canonical form. -/
theorem twf_tset [DecidableEq α] {t : Tbl α} (k : Nat) (v : α) (h : twf d t = true) : twf d (tset d t k v) = true := by
  unfold tset
  split
  · exact twf_filter d _ h
  · rename_i hv
    rw [twf_iff] at h ⊢
    refine ⟨pairwise_tput h.1, fun e he => ?_⟩
    rcases mem_tput he with rfl | he
    · exact hv
    · exact h.2 e he

end Sys2Proof.Machine
end

