-- ==== Sys2Proof/Laws/Frames.lean ====
section
/-! SUPPORT. The frames of the shared updates, and how frames compose. -/

namespace Sys2Proof.Machine

open Sys2Proof
set_option Elab.async false

theorem Kept.refl (ps : List Piece) (b : Block) : Kept ps b b := by
  refine ⟨fun p _ => ?_⟩; cases p <;> simp [Piece.same]

theorem Piece.same_trans {b c d : Block} {p : Piece} (h : p.same b c) (k : p.same c d) : p.same b d := by
  cases p <;> simp only [Piece.same] at h k ⊢ <;> first
    | exact k.trans h
    | exact ⟨k.1.trans h.1, k.2.trans h.2⟩
    | exact ⟨k.1.trans h.1, k.2.1.trans h.2.1, k.2.2.1.trans h.2.2.1, k.2.2.2.trans h.2.2.2⟩
    | exact ⟨k.1.trans h.1, k.2.1.trans h.2.1, k.2.2.1.trans h.2.2.1, k.2.2.2.1.trans h.2.2.2.1, k.2.2.2.2.trans h.2.2.2.2⟩

/-- The piece stands in the list, by itself or, for one of a kind, with all of its kind. -/
def Piece.inside (qs : List Piece) : Piece → Prop
  | .reg o => .regs ∈ qs ∨ .reg o ∈ qs
  | .count o => .cnt ∈ qs ∨ .count o ∈ qs
  | .lane l => .lanes ∈ qs ∨ .lane l ∈ qs
  | .berth n => .berths ∈ qs ∨ .berth n ∈ qs
  | .chan n => .chans ∈ qs ∨ .chan n ∈ qs
  | .col n => .cols ∈ qs ∨ .col n ∈ qs
  | .side sd => .sides ∈ qs ∨ .side sd ∈ qs
  | .fw sd => .fws ∈ qs ∨ .fw sd ∈ qs
  | .dom d => .doms ∈ qs ∨ .dom d ∈ qs
  | .slot k => .slots ∈ qs ∨ .slot k ∈ qs
  | p => p ∈ qs

/-- Every piece of one list stands in the other. -/
def Within (ps qs : List Piece) : Prop := ∀ p ∈ ps, p.inside qs

/-! ### Computed tests -/

/-- A number for each piece of no kind; 0 for the others. -/
def Piece.code : Piece → Nat
  | .regs => 1
  | .cnt => 2
  | .lanes => 3
  | .berths => 4
  | .chans => 5
  | .cols => 6
  | .sides => 7
  | .fws => 8
  | .doms => 9
  | .slots => 10
  | .fresh => 11
  | .sel => 12
  | .hold => 13
  | .rdData => 14
  | .jtagDr => 15
  | .frzOut => 16
  | .pins => 17
  | .pw => 18
  | .tide => 19
  | .ck => 20
  | .ins => 21
  | .qy => 22
  | .chs => 23
  | .stk => 24
  | .keys => 25
  | .prot => 26
  | .running => 27
  | .mf => 28
  | .heat => 29
  | .sv => 30
  | .tl => 31
  | .events => 32
  | .lg => 33
  | _ => 0

/-- A computed test for membership of a piece of no kind. -/
def Piece.memB (qs : List Piece) (p : Piece) : Bool := p.code != 0 && qs.any fun q => q.code == p.code

/-- A computed test for `Piece.inside`. -/
def Piece.insideB (qs : List Piece) : Piece → Bool
  | .reg o => Piece.memB qs .regs || qs.any fun q => match q with | .reg o' => o' == o | _ => false
  | .count o => Piece.memB qs .cnt || qs.any fun q => match q with | .count o' => o' == o | _ => false
  | .lane l => Piece.memB qs .lanes || qs.any fun q => match q with | .lane l' => l' == l | _ => false
  | .berth n => Piece.memB qs .berths || qs.any fun q => match q with | .berth n' => n' == n | _ => false
  | .chan n => Piece.memB qs .chans || qs.any fun q => match q with | .chan n' => n' == n | _ => false
  | .col n => Piece.memB qs .cols || qs.any fun q => match q with | .col n' => n' == n | _ => false
  | .side sd => Piece.memB qs .sides || qs.any fun q => match q with | .side sd' => sd' == sd | _ => false
  | .fw sd => Piece.memB qs .fws || qs.any fun q => match q with | .fw sd' => sd' == sd | _ => false
  | .dom d => Piece.memB qs .doms || qs.any fun q => match q with | .dom d' => d' == d | _ => false
  | .slot k => Piece.memB qs .slots || qs.any fun q => match q with | .slot k' => k' == k | _ => false
  | p => Piece.memB qs p

theorem Piece.of_code (p : Piece) : p.code ≠ 0 → Piece.all.getD (p.code - 1) .fresh = p := by
  cases p <;> intro h <;> first | rfl | exact absurd rfl h

theorem Piece.mem_of {qs : List Piece} {p : Piece} (h : Piece.memB qs p = true) : p ∈ qs := by
  simp only [Piece.memB, Bool.and_eq_true, bne_iff_ne, List.any_eq_true, beq_iff_eq] at h
  obtain ⟨hp, q, hq, e⟩ := h
  have : q = p := by rw [← Piece.of_code q (e ▸ hp), ← Piece.of_code p hp, e]
  exact this ▸ hq

theorem Piece.inside_of {qs : List Piece} {p : Piece} (h : p.insideB qs = true) : p.inside qs := by
  cases p <;> simp only [Piece.insideB] at h <;> first
    | exact Piece.mem_of h
    | (rcases Bool.or_eq_true _ _ ▸ h with h | h
       · exact .inl (Piece.mem_of h)
       · obtain ⟨q, hq, e⟩ := List.any_eq_true.mp h
         split at e
         · have := eq_of_beq e; subst this; exact .inr hq
         · cases e)

theorem Within.of {ps qs : List Piece} (h : ps.all (Piece.insideB qs) = true) : Within ps qs :=
  fun p hp => Piece.inside_of (List.all_eq_true.mp h p hp)

theorem Within.refl {ps : List Piece} : Within ps ps := by
  intro p hp
  cases p <;> first | exact hp | exact .inr hp

theorem Within.nil {qs : List Piece} : Within [] qs := by intro p hp; cases hp

theorem Within.cons {p : Piece} {ps qs : List Piece} (h : p.inside qs) (k : Within ps qs) : Within (p :: ps) qs := by
  intro q hq
  cases hq with
  | head => exact h
  | tail _ hq => exact k q hq

theorem Piece.among_mono {ps qs : List Piece} (h : Within ps qs) {p : Piece} (hp : p.among ps) : p.among qs := by
  have k : ∀ q, q ∈ ps → q.inside qs := h
  cases p <;> simp only [Piece.among] at hp ⊢ <;> first
    | exact k _ hp
    | (rcases hp with hp | ⟨o, hp⟩
       · exact .inl (k _ hp)
       · rcases k _ hp with h1 | h1
         · exact .inl h1
         · exact .inr ⟨_, h1⟩)
    | (rcases hp with hp | hp
       · exact .inl (k _ hp)
       · exact k _ hp)

theorem Kept.mono {ps qs : List Piece} {b c : Block} (h : Kept ps b c) (w : Within ps qs) : Kept qs b c :=
  ⟨fun p hp => h.out p fun k => hp (Piece.among_mono w k)⟩

theorem Kept.trans {ps : List Piece} {b c d : Block} (h : Kept ps b c) (k : Kept ps c d) : Kept ps b d :=
  ⟨fun p hp => Piece.same_trans (h.out p hp) (k.out p hp)⟩

/-- A change of known frame after others. -/
theorem Kept.step {ps qs : List Piece} {b c d : Block} (k : Kept ps c d) (w : Within ps qs) (h : Kept qs b c) : Kept qs b d :=
  h.trans (k.mono w)

/-- A block on the way, of known frame. -/
theorem Kept.cut {ps : List Piece} {b x : Block} {P : Prop} (h : Kept ps b x) (k : Kept ps b x → P) : P := k h

/-- What a local function does, shown once. -/
theorem Kept.via {P Q : Prop} (h : P) (k : P → Q) : Q := k h

theorem Kept.ite {ps : List Piece} {b x y : Block} {p : Prop} [Decidable p] (h : Kept ps b x) (k : Kept ps b y) :
    Kept ps b (if p then x else y) := by
  split
  · exact h
  · exact k

theorem Kept.each {ps : List Piece} {b c : Block} {f : Block → Nat → Block} (ns : List Nat)
    (h : ∀ c n, Kept ps b c → Kept ps b (f c n)) (k : Kept ps b c) : Kept ps b (c.each ns f) := by
  unfold Block.each
  induction ns generalizing c with
  | nil => exact k
  | cons n ns ih => exact ih (h c n k)

theorem Kept.foldl {ps : List Piece} {b c : Block} {α : Type} {f : Block → α → Block} (xs : List α)
    (h : ∀ c x, Kept ps b c → Kept ps b (f c x)) (k : Kept ps b c) : Kept ps b (xs.foldl f c) := by
  induction xs generalizing c with
  | nil => exact k
  | cons n ns ih => exact ih (h c n k)

theorem Kept.foldl_fst {ps : List Piece} {b : Block} {α β : Type} {f : Block × β → α → Block × β} {acc : Block × β} (xs : List α)
    (h : ∀ acc x, Kept ps b acc.1 → Kept ps b (f acc x).1) (k : Kept ps b acc.1) : Kept ps b (xs.foldl f acc).1 := by
  induction xs generalizing acc with
  | nil => exact k
  | cons n ns ih => exact ih (h acc n k)

theorem Kept.foldl_snd {ps : List Piece} {b : Block} {α β : Type} {f : β × Block → α → β × Block} {acc : β × Block} (xs : List α)
    (h : ∀ acc x, Kept ps b acc.2 → Kept ps b (f acc x).2) (k : Kept ps b acc.2) : Kept ps b (xs.foldl f acc).2 := by
  induction xs generalizing acc with
  | nil => exact k
  | cons n ns ih => exact ih (h acc n k)

theorem Kept.foldl_fst_of {ps : List Piece} {b c : Block} {α β : Type} {f : Block × β → α → Block × β} {acc : Block × β} {y : β} {xs : List α}
    (eq : xs.foldl f acc = (c, y)) (h : ∀ acc x, Kept ps b acc.1 → Kept ps b (f acc x).1) (k : Kept ps b acc.1) : Kept ps b c := by
  have r := Kept.foldl_fst xs h k
  rw [eq] at r; exact r

/-- A change of components: each is as before, or listed. -/
theorem Kept.of_fields {ps : List Piece} {b c d : Block} (h : Kept ps b c)
    (fresh : d.fresh = c.fresh ∨ .fresh ∈ ps)
    (csr : d.csr = c.csr ∨ .regs ∈ ps)
    (cnt : d.cnt = c.cnt ∨ .cnt ∈ ps)
    (sel : d.sel = c.sel ∨ .sel ∈ ps)
    (hold : d.hold = c.hold ∨ .hold ∈ ps)
    (rdData : d.rdData = c.rdData ∨ .rdData ∈ ps)
    (jtagDr : d.jtagDr = c.jtagDr ∨ .jtagDr ∈ ps)
    (frzOut : d.frzOut = c.frzOut ∨ .frzOut ∈ ps)
    (pins : d.pins = c.pins ∨ .pins ∈ ps)
    (pw : d.pw = c.pw ∨ (.pw ∈ ps ∨ { d.pw with doms := [] } = { c.pw with doms := [] }) ∧ (.doms ∈ ps ∨ d.pw.doms = c.pw.doms))
    (ck : d.ck = c.ck ∨ (.ck ∈ ps ∨ { d.ck with tide := 0 } = { c.ck with tide := 0 }) ∧ (.tide ∈ ps ∨ d.ck.tide = c.ck.tide))
    (lanes : d.lanes = c.lanes ∨ .lanes ∈ ps)
    (west : d.west = c.west ∨ .sides ∈ ps ∨ .side .west ∈ ps)
    (east : d.east = c.east ∨ .sides ∈ ps ∨ .side .east ∈ ps)
    (fwWE : d.fwWE = c.fwWE ∨ .fws ∈ ps ∨ .fw .west ∈ ps)
    (fwEW : d.fwEW = c.fwEW ∨ .fws ∈ ps ∨ .fw .east ∈ ps)
    (qy : d.qy = c.qy ∨ (.qy ∈ ps ∨ { d.qy with ins := [] } = { c.qy with ins := [] }) ∧ (.ins ∈ ps ∨ d.qy.ins = c.qy.ins))
    (chs : d.chs = c.chs ∨ .chs ∈ ps)
    (berths : d.berths = c.berths ∨ .berths ∈ ps)
    (chans : d.chans = c.chans ∨ .chans ∈ ps)
    (cols : d.cols = c.cols ∨ .cols ∈ ps)
    (stk : d.stk = c.stk ∨ .stk ∈ ps)
    (keys : d.keys = c.keys ∨ .keys ∈ ps)
    (prot : d.prot = c.prot ∨ .prot ∈ ps)
    (mf : d.mf = c.mf ∨ (.mf ∈ ps ∨ { d.mf with slots := [], running := [] } = { c.mf with slots := [], running := [] })
      ∧ (.slots ∈ ps ∨ d.mf.slots = c.mf.slots) ∧ (.running ∈ ps ∨ d.mf.running = c.mf.running))
    (heat : d.heat = c.heat ∨ .heat ∈ ps)
    (sv : d.sv = c.sv ∨ .sv ∈ ps)
    (tl : d.tl = c.tl ∨ .tl ∈ ps)
    (lg : d.lg = c.lg ∨ (.lg ∈ ps ∨ (d.lg.trips = c.lg.trips ∧ d.lg.tripNext = c.lg.tripNext ∧ d.lg.charts = c.lg.charts ∧ d.lg.gov = c.lg.gov
      ∧ d.lg.writing = c.lg.writing)) ∧ (.events ∈ ps ∨ (d.lg.events = c.lg.events ∧ d.lg.evtNext = c.lg.evtNext ∧ d.lg.suppress = c.lg.suppress
      ∧ d.lg.wear = c.lg.wear ∧ d.lg.due = c.lg.due))) : Kept ps b d := by
  refine h.trans ⟨fun p hp => ?_⟩
  cases p <;> simp only [Piece.among, Piece.same, not_or] at hp ⊢
  case reg => rw [Block.reg, Block.reg, csr.resolve_right hp.1]
  case count => rw [Block.count, Block.count, cnt.resolve_right hp.1]
  case lane => rw [Block.lane, Block.lane, lanes.resolve_right hp.1]
  case berth => rw [Block.berth, Block.berth, berths.resolve_right hp.1]
  case chan => rw [Block.chan, Block.chan, chans.resolve_right hp.1]
  case col => rw [Block.col, Block.col, cols.resolve_right hp.1]
  case dom => rw [Block.dom, Block.dom, pw.elim (congrArg Power.doms) fun k => k.2.resolve_left hp.1]
  case slot => rw [Block.slot, Block.slot, mf.elim (congrArg Manifests.slots) fun k => k.2.1.resolve_left hp.1]
  case doms => exact pw.elim (congrArg Power.doms) fun k => k.2.resolve_left hp.1
  case slots => exact mf.elim (congrArg Manifests.slots) fun k => k.2.1.resolve_left hp.1
  case running => exact mf.elim (congrArg Manifests.running) fun k => k.2.2.resolve_left hp
  case mf => exact mf.elim (fun e => by rw [e]) fun k => k.1.resolve_left hp
  case pw => exact pw.elim (fun e => by rw [e]) fun k => k.1.resolve_left hp
  case tide => exact ck.elim (congrArg Clocks.tide) fun k => k.2.resolve_left hp
  case ck => exact ck.elim (fun e => by rw [e]) fun k => k.1.resolve_left hp
  case ins => exact qy.elim (congrArg Quay.ins) fun k => k.2.resolve_left hp
  case qy => exact qy.elim (fun e => by rw [e]) fun k => k.1.resolve_left hp
  case events => exact lg.elim (fun e => by rw [e]; exact ⟨rfl, rfl, rfl, rfl, rfl⟩) fun k => k.2.resolve_left hp
  case lg => exact lg.elim (fun e => by rw [e]; exact ⟨rfl, rfl, rfl, rfl, rfl⟩) fun k => k.1.resolve_left hp
  case regs => exact csr.resolve_right hp.1
  case cnt => exact cnt.resolve_right hp.1
  case lanes => exact lanes.resolve_right hp.1
  case berths => exact berths.resolve_right hp.1
  case chans => exact chans.resolve_right hp.1
  case cols => exact cols.resolve_right hp.1
  case side sd =>
    cases sd
    · exact west.resolve_right fun k => k.elim hp.1 hp.2
    · exact east.resolve_right fun k => k.elim hp.1 hp.2
  case sides =>
    exact ⟨west.resolve_right fun k => k.elim hp.1 fun q => hp.2 ⟨_, q⟩, east.resolve_right fun k => k.elim hp.1 fun q => hp.2 ⟨_, q⟩⟩
  case fw sd =>
    cases sd
    · exact fwWE.resolve_right fun k => k.elim hp.1 hp.2
    · exact fwEW.resolve_right fun k => k.elim hp.1 hp.2
  case fws =>
    exact ⟨fwWE.resolve_right fun k => k.elim hp.1 fun q => hp.2 ⟨_, q⟩, fwEW.resolve_right fun k => k.elim hp.1 fun q => hp.2 ⟨_, q⟩⟩
  case fresh => exact fresh.resolve_right hp
  case sel => exact sel.resolve_right hp
  case hold => exact hold.resolve_right hp
  case rdData => exact rdData.resolve_right hp
  case jtagDr => exact jtagDr.resolve_right hp
  case frzOut => exact frzOut.resolve_right hp
  case pins => exact pins.resolve_right hp
  case chs => exact chs.resolve_right hp
  case stk => exact stk.resolve_right hp
  case keys => exact keys.resolve_right hp
  case prot => exact prot.resolve_right hp
  case heat => exact heat.resolve_right hp
  case sv => exact sv.resolve_right hp
  case tl => exact tl.resolve_right hp

/-- `Kept`, of a block that is given by its components. -/
def KeptBy (ps : List Piece) (b c : Block) : Prop := Kept ps b c

theorem Kept.by_fields {ps : List Piece} {b : Block} {fresh csr cnt sel hold rdData jtagDr frzOut pins pw ck lanes west east fwWE fwEW qy
      chs berths chans cols stk keys prot mf heat sv tl lg} :
    Kept ps b (Block.mk fresh csr cnt sel hold rdData jtagDr frzOut pins pw ck lanes west east fwWE fwEW qy
      chs berths chans cols stk keys prot mf heat sv tl lg) =
      KeptBy ps b (Block.mk fresh csr cnt sel hold rdData jtagDr frzOut pins pw ck lanes west east fwWE fwEW qy
      chs berths chans cols stk keys prot mf heat sv tl lg) := rfl

/-- A change of components, all of them given. -/
theorem Kept.fields {ps : List Piece} {b c : Block} {fresh csr cnt sel hold rdData jtagDr frzOut pins pw ck lanes west east fwWE fwEW qy
      chs berths chans cols stk keys prot mf heat sv tl lg}
    (h1 : fresh = c.fresh ∨ .fresh ∈ ps)
    (h2 : csr = c.csr ∨ .regs ∈ ps)
    (h3 : cnt = c.cnt ∨ .cnt ∈ ps)
    (h4 : sel = c.sel ∨ .sel ∈ ps)
    (h5 : hold = c.hold ∨ .hold ∈ ps)
    (h6 : rdData = c.rdData ∨ .rdData ∈ ps)
    (h7 : jtagDr = c.jtagDr ∨ .jtagDr ∈ ps)
    (h8 : frzOut = c.frzOut ∨ .frzOut ∈ ps)
    (h9 : pins = c.pins ∨ .pins ∈ ps)
    (h10 : pw = c.pw ∨ (.pw ∈ ps ∨ { pw with doms := [] } = { c.pw with doms := [] }) ∧ (.doms ∈ ps ∨ pw.doms = c.pw.doms))
    (h11 : ck = c.ck ∨ (.ck ∈ ps ∨ { ck with tide := 0 } = { c.ck with tide := 0 }) ∧ (.tide ∈ ps ∨ ck.tide = c.ck.tide))
    (h12 : lanes = c.lanes ∨ .lanes ∈ ps)
    (h13 : west = c.west ∨ .sides ∈ ps ∨ .side .west ∈ ps)
    (h14 : east = c.east ∨ .sides ∈ ps ∨ .side .east ∈ ps)
    (h15 : fwWE = c.fwWE ∨ .fws ∈ ps ∨ .fw .west ∈ ps)
    (h16 : fwEW = c.fwEW ∨ .fws ∈ ps ∨ .fw .east ∈ ps)
    (h17 : qy = c.qy ∨ (.qy ∈ ps ∨ { qy with ins := [] } = { c.qy with ins := [] }) ∧ (.ins ∈ ps ∨ qy.ins = c.qy.ins))
    (h18 : chs = c.chs ∨ .chs ∈ ps)
    (h19 : berths = c.berths ∨ .berths ∈ ps)
    (h20 : chans = c.chans ∨ .chans ∈ ps)
    (h21 : cols = c.cols ∨ .cols ∈ ps)
    (h22 : stk = c.stk ∨ .stk ∈ ps)
    (h23 : keys = c.keys ∨ .keys ∈ ps)
    (h24 : prot = c.prot ∨ .prot ∈ ps)
    (h25 : mf = c.mf ∨ (.mf ∈ ps ∨ { mf with slots := [], running := [] } = { c.mf with slots := [], running := [] })
      ∧ (.slots ∈ ps ∨ mf.slots = c.mf.slots) ∧ (.running ∈ ps ∨ mf.running = c.mf.running))
    (h26 : heat = c.heat ∨ .heat ∈ ps)
    (h27 : sv = c.sv ∨ .sv ∈ ps)
    (h28 : tl = c.tl ∨ .tl ∈ ps)
    (h29 : lg = c.lg ∨ (.lg ∈ ps ∨ (lg.trips = c.lg.trips ∧ lg.tripNext = c.lg.tripNext ∧ lg.charts = c.lg.charts ∧ lg.gov = c.lg.gov
      ∧ lg.writing = c.lg.writing)) ∧ (.events ∈ ps ∨ (lg.events = c.lg.events ∧ lg.evtNext = c.lg.evtNext ∧ lg.suppress = c.lg.suppress
      ∧ lg.wear = c.lg.wear ∧ lg.due = c.lg.due)))
    (h : Kept ps b c) :
    KeptBy ps b (Block.mk fresh csr cnt sel hold rdData jtagDr frzOut pins pw ck lanes west east fwWE fwEW qy
      chs berths chans cols stk keys prot mf heat sv tl lg) :=
  h.of_fields h1 h2 h3 h4 h5 h6 h7 h8 h9 h10 h11 h12 h13 h14 h15 h16 h17 h18 h19 h20 h21 h22 h23 h24 h25 h26 h27 h28 h29

/-- Nothing is claimed kept where every piece is listed. -/
theorem Kept.all (b c : Block) : Kept Piece.all b c := by
  refine ⟨fun p hp => absurd ?_ hp⟩
  cases p <;> simp [Piece.among, Piece.all]

/-- A command whose meaning changes the block alone does what that change does. -/
theorem does_upd {i : Instr} {s : State} {f : Block → Block} {ps : List Piece} {post : Block → Prop} (e : exec i s = s.upd f)
    (k : Kept ps s.blk (f s.blk)) (p : post (f s.blk)) : Does i s ps post := ⟨_, e, ⟨rfl, rfl⟩, k, p⟩

/-! ### The updates of one unit -/

theorem Kept.setReg (b : Block) (off : Nat) (v : Word) : Kept [.reg off] b (b.setReg off v) := by
  refine ⟨fun p hp => ?_⟩
  cases p <;> simp only [Piece.among, Piece.same, List.mem_singleton, List.mem_cons, List.not_mem_nil, or_false, false_or, not_or, reduceCtorEq,
    not_false_eq_true, Piece.reg.injEq, not_exists, true_and] at hp ⊢
  case reg o => unfold Block.reg Block.setReg; exact tget_tset_other _ _ v fun h => hp h.symm
  all_goals first
    | (simp [Block.reg, Block.count, Block.lane, Block.berth, Block.chan, Block.col, Block.dom, Block.slot]; done)
    | (rename_i sd; cases sd <;> simp [Block.side, Block.fw]; done)
    | exact absurd rfl (hp _)

theorem Kept.setCount (b : Block) (off n : Nat) : Kept [.count off] b (b.setCount off n) := by
  refine ⟨fun p hp => ?_⟩
  cases p <;> simp only [Piece.among, Piece.same, List.mem_singleton, List.mem_cons, List.not_mem_nil, or_false, false_or, not_or, reduceCtorEq,
    not_false_eq_true, Piece.count.injEq, not_exists, true_and] at hp ⊢
  case count o => unfold Block.count Block.setCount; exact tget_tset_other _ _ n fun h => hp h.symm
  all_goals first
    | (simp [Block.reg, Block.count, Block.lane, Block.berth, Block.chan, Block.col, Block.dom, Block.slot]; done)
    | (rename_i sd; cases sd <;> simp [Block.side, Block.fw]; done)
    | exact absurd rfl (hp _)

theorem Kept.setLane (b : Block) (l : Nat) (v : Lane) : Kept [.lane l] b (b.setLane l v) := by
  refine ⟨fun p hp => ?_⟩
  cases p <;> simp only [Piece.among, Piece.same, List.mem_singleton, List.mem_cons, List.not_mem_nil, or_false, false_or, not_or, reduceCtorEq,
    not_false_eq_true, Piece.lane.injEq, not_exists, true_and] at hp ⊢
  case lane o => unfold Block.lane Block.setLane; exact tget_tset_other _ _ v fun h => hp h.symm
  all_goals first
    | (simp [Block.reg, Block.count, Block.lane, Block.berth, Block.chan, Block.col, Block.dom, Block.slot]; done)
    | (rename_i sd; cases sd <;> simp [Block.side, Block.fw]; done)
    | exact absurd rfl (hp _)

theorem Kept.setBerth (b : Block) (n : Nat) (v : Berth) : Kept [.berth n] b (b.setBerth n v) := by
  refine ⟨fun p hp => ?_⟩
  cases p <;> simp only [Piece.among, Piece.same, List.mem_singleton, List.mem_cons, List.not_mem_nil, or_false, false_or, not_or, reduceCtorEq,
    not_false_eq_true, Piece.berth.injEq, not_exists, true_and] at hp ⊢
  case berth o => unfold Block.berth Block.setBerth; exact tget_tset_other _ _ v fun h => hp h.symm
  all_goals first
    | (simp [Block.reg, Block.count, Block.lane, Block.berth, Block.chan, Block.col, Block.dom, Block.slot]; done)
    | (rename_i sd; cases sd <;> simp [Block.side, Block.fw]; done)
    | exact absurd rfl (hp _)

theorem Kept.setChan (b : Block) (n : Nat) (v : Chan) : Kept [.chan n] b (b.setChan n v) := by
  refine ⟨fun p hp => ?_⟩
  cases p <;> simp only [Piece.among, Piece.same, List.mem_singleton, List.mem_cons, List.not_mem_nil, or_false, false_or, not_or, reduceCtorEq,
    not_false_eq_true, Piece.chan.injEq, not_exists, true_and] at hp ⊢
  case chan o => unfold Block.chan Block.setChan; exact tget_tset_other _ _ v fun h => hp h.symm
  all_goals first
    | (simp [Block.reg, Block.count, Block.lane, Block.berth, Block.chan, Block.col, Block.dom, Block.slot]; done)
    | (rename_i sd; cases sd <;> simp [Block.side, Block.fw]; done)
    | exact absurd rfl (hp _)

theorem Kept.setCol (b : Block) (n : Nat) (v : Column) : Kept [.col n] b (b.setCol n v) := by
  refine ⟨fun p hp => ?_⟩
  cases p <;> simp only [Piece.among, Piece.same, List.mem_singleton, List.mem_cons, List.not_mem_nil, or_false, false_or, not_or, reduceCtorEq,
    not_false_eq_true, Piece.col.injEq, not_exists, true_and] at hp ⊢
  case col o => unfold Block.col Block.setCol; exact tget_tset_other _ _ v fun h => hp h.symm
  all_goals first
    | (simp [Block.reg, Block.count, Block.lane, Block.berth, Block.chan, Block.col, Block.dom, Block.slot]; done)
    | (rename_i sd; cases sd <;> simp [Block.side, Block.fw]; done)
    | exact absurd rfl (hp _)

theorem Kept.setSide (b : Block) (sd : Side) (v : SideSt) : Kept [.side sd] b (b.setSide sd v) := by
  refine ⟨fun p hp => ?_⟩
  cases p <;> simp only [Piece.among, Piece.same, List.mem_singleton, List.mem_cons, List.not_mem_nil, or_false, false_or, not_or, reduceCtorEq,
    not_false_eq_true, Piece.side.injEq, not_exists, true_and] at hp ⊢
  case side o => cases sd <;> cases o <;> first | rfl | exact absurd rfl hp
  all_goals first
    | exact absurd rfl (hp _)
    | (cases sd <;> rfl)
    | (cases sd <;> exact ⟨rfl, rfl⟩)
    | (cases sd <;> exact ⟨rfl, rfl, rfl, rfl⟩)
    | (cases sd <;> exact ⟨rfl, rfl, rfl, rfl, rfl⟩)

theorem Kept.setFw (b : Block) (sd : Side) (v : Fairway) : Kept [.fw sd] b (b.setFw sd v) := by
  refine ⟨fun p hp => ?_⟩
  cases p <;> simp only [Piece.among, Piece.same, List.mem_singleton, List.mem_cons, List.not_mem_nil, or_false, false_or, not_or, reduceCtorEq,
    not_false_eq_true, Piece.fw.injEq, not_exists, true_and] at hp ⊢
  case fw o => cases sd <;> cases o <;> first | rfl | exact absurd rfl hp
  all_goals first
    | exact absurd rfl (hp _)
    | (cases sd <;> rfl)
    | (cases sd <;> exact ⟨rfl, rfl⟩)
    | (cases sd <;> exact ⟨rfl, rfl, rfl, rfl⟩)
    | (cases sd <;> exact ⟨rfl, rfl, rfl, rfl, rfl⟩)

theorem Kept.setDom (b : Block) (n : Nat) (v : Dom) : Kept [.dom n] b (b.setDom n v) := by
  refine ⟨fun p hp => ?_⟩
  cases p <;> simp only [Piece.among, Piece.same, List.mem_singleton, List.mem_cons, List.not_mem_nil, or_false, false_or, not_or, reduceCtorEq,
    not_false_eq_true, Piece.dom.injEq, not_exists, true_and] at hp ⊢
  case dom o => unfold Block.dom Block.setDom; exact tget_tset_other _ _ v fun h => hp h.symm
  all_goals first
    | exact absurd rfl (hp _)
    | rfl
    | exact ⟨rfl, rfl⟩
    | exact ⟨rfl, rfl, rfl, rfl⟩
    | exact ⟨rfl, rfl, rfl, rfl, rfl⟩

theorem Kept.setSlot (b : Block) (k : Nat) (v : Slot) : Kept [.slot k] b (b.setSlot k v) := by
  refine ⟨fun p hp => ?_⟩
  cases p <;> simp only [Piece.among, Piece.same, List.mem_singleton, List.mem_cons, List.not_mem_nil, or_false, false_or, not_or, reduceCtorEq,
    not_false_eq_true, Piece.slot.injEq, not_exists, true_and] at hp ⊢
  case slot o => unfold Block.slot Block.setSlot; exact tget_tset_other _ _ v fun h => hp h.symm
  all_goals first
    | exact absurd rfl (hp _)
    | rfl
    | exact ⟨rfl, rfl⟩
    | exact ⟨rfl, rfl, rfl, rfl⟩
    | exact ⟨rfl, rfl, rfl, rfl, rfl⟩

/-! ### A component as a whole, from the pieces it is named by -/

theorem Kept.pwEq {ps : List Piece} {b c : Block} (h : Kept ps b c) (h1 : ¬ Piece.pw.among ps) (h2 : ¬ Piece.doms.among ps) : c.pw = b.pw := by
  have e1 := h.out .pw h1
  have e2 := h.out .doms h2
  simp only [Piece.same] at e1 e2
  generalize c.pw = x at e1 e2
  generalize b.pw = y at e1 e2
  cases x; cases y; simp_all

theorem Kept.ckEq {ps : List Piece} {b c : Block} (h : Kept ps b c) (h1 : ¬ Piece.ck.among ps) (h2 : ¬ Piece.tide.among ps) : c.ck = b.ck := by
  have e1 := h.out .ck h1
  have e2 := h.out .tide h2
  simp only [Piece.same] at e1 e2
  generalize c.ck = x at e1 e2
  generalize b.ck = y at e1 e2
  cases x; cases y; simp_all

theorem Kept.qyEq {ps : List Piece} {b c : Block} (h : Kept ps b c) (h1 : ¬ Piece.qy.among ps) (h2 : ¬ Piece.ins.among ps) : c.qy = b.qy := by
  have e1 := h.out .qy h1
  have e2 := h.out .ins h2
  simp only [Piece.same] at e1 e2
  generalize c.qy = x at e1 e2
  generalize b.qy = y at e1 e2
  cases x; cases y; simp_all

theorem Kept.mfEq {ps : List Piece} {b c : Block} (h : Kept ps b c) (h1 : ¬ Piece.mf.among ps) (h2 : ¬ Piece.slots.among ps)
    (h3 : ¬ Piece.running.among ps) : c.mf = b.mf := by
  have e1 := h.out .mf h1
  have e2 := h.out .slots h2
  have e3 := h.out .running h3
  simp only [Piece.same] at e1 e2 e3
  generalize c.mf = x at e1 e2 e3
  generalize b.mf = y at e1 e2 e3
  cases x; cases y; simp_all

end Sys2Proof.Machine
end

