-- ==== Sys2Proof/Laws/FramesLanes.lean ====
section
/-! SUPPORT. The frames of the units, the logbook and the lanes: for each operation what it can change at most (`_kept`), and the same as a step of a
longer frame (`_keeps`). -/

namespace Sys2Proof.Machine

open Sys2Proof
set_option linter.all false
set_option Elab.async false

theorem Block.setReg_kept (b : Block) (off : Nat) (v : Word) : Kept [.reg off] b (b.setReg off v) :=
  Kept.setReg _ _ _

theorem Block.setReg_keeps {qs : List Piece} {a₀ b : Block} {off : Nat} {v : Word} (inside : Within [.reg off] qs) (before : Kept qs a₀ b) :
    Kept qs a₀ (Block.setReg b off v) := Kept.step (Block.setReg_kept _ _ _) inside before

theorem Block.orReg_kept (b : Block) (off : Nat) (m : Word) : Kept [.reg off] b (Block.orReg b off m) := by
  unfold Block.orReg
  repeat' first
    | with_reducible assumption
    | with_reducible apply Kept.refl
    | with_reducible apply Within.refl
    | ((with_reducible apply Within.of); rfl)
    | ((with_reducible apply Within.cons); (apply Piece.inside_of; rfl))
    | ((with_reducible apply Within.cons); apply Or.inr)
    | with_reducible apply Within.nil
    | with_reducible apply List.mem_cons_self
    | with_reducible apply List.mem_cons_of_mem
    | with_reducible apply Block.setReg_keeps

theorem Block.orReg_keeps {qs : List Piece} {a₀ b : Block} {off : Nat} {m : Word} (inside : Within [.reg off] qs) (before : Kept qs a₀ b) :
    Kept qs a₀ (Block.orReg b off m) := Kept.step (Block.orReg_kept _ _ _) inside before

theorem Block.clrReg_kept (b : Block) (off : Nat) (m : Word) : Kept [.reg off] b (Block.clrReg b off m) := by
  unfold Block.clrReg
  repeat' first
    | with_reducible assumption
    | with_reducible apply Kept.refl
    | with_reducible apply Within.refl
    | ((with_reducible apply Within.of); rfl)
    | ((with_reducible apply Within.cons); (apply Piece.inside_of; rfl))
    | ((with_reducible apply Within.cons); apply Or.inr)
    | with_reducible apply Within.nil
    | with_reducible apply List.mem_cons_self
    | with_reducible apply List.mem_cons_of_mem
    | with_reducible apply Block.setReg_keeps

theorem Block.clrReg_keeps {qs : List Piece} {a₀ b : Block} {off : Nat} {m : Word} (inside : Within [.reg off] qs) (before : Kept qs a₀ b) :
    Kept qs a₀ (Block.clrReg b off m) := Kept.step (Block.clrReg_kept _ _ _) inside before

theorem Block.setSel_kept (b : Block) (p : Path) (off : Nat) (v : Word) : Kept [.sel] b (Block.setSel b p off v) := by
  unfold Block.setSel
  repeat' first
    | with_reducible assumption
    | with_reducible apply Kept.refl
    | with_reducible apply Within.refl
    | ((with_reducible apply Within.of); rfl)
    | ((with_reducible apply Within.cons); (apply Piece.inside_of; rfl))
    | ((with_reducible apply Within.cons); apply Or.inr)
    | with_reducible apply Within.nil
    | with_reducible apply List.mem_cons_self
    | with_reducible apply List.mem_cons_of_mem
    | (simp only [Kept.by_fields]; with_reducible apply Kept.fields <;>
         first | with_reducible exact Or.inl rfl | (apply Or.inr; apply Piece.mem_of; rfl) | exact Or.inr (by simp; done) | (refine Or.inr ⟨?_, ?_⟩ <;> first | (apply Or.inl; apply Piece.mem_of; rfl) | exact Or.inl (by simp; done) | with_reducible exact Or.inr rfl | with_reducible exact Or.inr ⟨rfl, rfl, rfl, rfl⟩ | with_reducible exact Or.inr ⟨rfl, rfl, rfl, rfl, rfl⟩ | (refine ⟨?_, ?_⟩ <;> first | (apply Or.inl; apply Piece.mem_of; rfl) | exact Or.inl (by simp; done) | with_reducible exact Or.inr rfl)) | skip)

theorem Block.setSel_keeps {qs : List Piece} {a₀ b : Block} {p : Path} {off : Nat} {v : Word} (inside : Within [.sel] qs) (before : Kept qs a₀ b) :
    Kept qs a₀ (Block.setSel b p off v) := Kept.step (Block.setSel_kept _ _ _ _) inside before

theorem Block.setHold_kept (b : Block) (p : Path) (off : Nat) (v : Word) : Kept [.hold] b (Block.setHold b p off v) := by
  unfold Block.setHold
  repeat' first
    | with_reducible assumption
    | with_reducible apply Kept.refl
    | with_reducible apply Within.refl
    | ((with_reducible apply Within.of); rfl)
    | ((with_reducible apply Within.cons); (apply Piece.inside_of; rfl))
    | ((with_reducible apply Within.cons); apply Or.inr)
    | with_reducible apply Within.nil
    | with_reducible apply List.mem_cons_self
    | with_reducible apply List.mem_cons_of_mem
    | (simp only [Kept.by_fields]; with_reducible apply Kept.fields <;>
         first | with_reducible exact Or.inl rfl | (apply Or.inr; apply Piece.mem_of; rfl) | exact Or.inr (by simp; done) | (refine Or.inr ⟨?_, ?_⟩ <;> first | (apply Or.inl; apply Piece.mem_of; rfl) | exact Or.inl (by simp; done) | with_reducible exact Or.inr rfl | with_reducible exact Or.inr ⟨rfl, rfl, rfl, rfl⟩ | with_reducible exact Or.inr ⟨rfl, rfl, rfl, rfl, rfl⟩ | (refine ⟨?_, ?_⟩ <;> first | (apply Or.inl; apply Piece.mem_of; rfl) | exact Or.inl (by simp; done) | with_reducible exact Or.inr rfl)) | skip)

theorem Block.setHold_keeps {qs : List Piece} {a₀ b : Block} {p : Path} {off : Nat} {v : Word} (inside : Within [.hold] qs) (before : Kept qs a₀ b) :
    Kept qs a₀ (Block.setHold b p off v) := Kept.step (Block.setHold_kept _ _ _ _) inside before

theorem Block.setCount_kept (b : Block) (off : Nat) (n : Nat) : Kept [.count off] b (b.setCount off n) :=
  Kept.setCount _ _ _

theorem Block.setCount_keeps {qs : List Piece} {a₀ b : Block} {off : Nat} {n : Nat} (inside : Within [.count off] qs) (before : Kept qs a₀ b) :
    Kept qs a₀ (Block.setCount b off n) := Kept.step (Block.setCount_kept _ _ _) inside before

theorem Block.bumpW_kept (b : Block) (w : Nat) (off : Nat) (n : Nat) : Kept [.count off] b (Block.bumpW b w off n) := by
  unfold Block.bumpW
  repeat' first
    | with_reducible assumption
    | with_reducible apply Kept.refl
    | with_reducible apply Within.refl
    | ((with_reducible apply Within.of); rfl)
    | ((with_reducible apply Within.cons); (apply Piece.inside_of; rfl))
    | ((with_reducible apply Within.cons); apply Or.inr)
    | with_reducible apply Within.nil
    | with_reducible apply List.mem_cons_self
    | with_reducible apply List.mem_cons_of_mem
    | with_reducible apply Block.setCount_keeps

theorem Block.bumpW_keeps {qs : List Piece} {a₀ b : Block} {w : Nat} {off : Nat} {n : Nat} (inside : Within [.count off] qs) (before : Kept qs a₀ b) :
    Kept qs a₀ (Block.bumpW b w off n) := Kept.step (Block.bumpW_kept _ _ _ _) inside before

theorem Block.bump_kept (b : Block) (off : Nat) (n : Nat) : Kept [.count off] b (Block.bump b off n) := by
  unfold Block.bump
  repeat' first
    | with_reducible assumption
    | with_reducible apply Kept.refl
    | with_reducible apply Within.refl
    | ((with_reducible apply Within.of); rfl)
    | ((with_reducible apply Within.cons); (apply Piece.inside_of; rfl))
    | ((with_reducible apply Within.cons); apply Or.inr)
    | with_reducible apply Within.nil
    | with_reducible apply List.mem_cons_self
    | with_reducible apply List.mem_cons_of_mem
    | with_reducible apply Block.bumpW_keeps

theorem Block.bump_keeps {qs : List Piece} {a₀ b : Block} {off : Nat} {n : Nat} (inside : Within [.count off] qs) (before : Kept qs a₀ b) :
    Kept qs a₀ (Block.bump b off n) := Kept.step (Block.bump_kept _ _ _) inside before

theorem Block.resetRegs_kept (b : Block) (p : Nat → Bool) : Kept [.cnt, .hold, .regs, .sel] b (Block.resetRegs b p) := by
  unfold Block.resetRegs
  repeat' first
    | with_reducible assumption
    | with_reducible apply Kept.refl
    | with_reducible apply Within.refl
    | ((with_reducible apply Within.of); rfl)
    | ((with_reducible apply Within.cons); (apply Piece.inside_of; rfl))
    | ((with_reducible apply Within.cons); apply Or.inr)
    | with_reducible apply Within.nil
    | with_reducible apply List.mem_cons_self
    | with_reducible apply List.mem_cons_of_mem
    | (simp only [Kept.by_fields]; with_reducible apply Kept.fields <;>
         first | with_reducible exact Or.inl rfl | (apply Or.inr; apply Piece.mem_of; rfl) | exact Or.inr (by simp; done) | (refine Or.inr ⟨?_, ?_⟩ <;> first | (apply Or.inl; apply Piece.mem_of; rfl) | exact Or.inl (by simp; done) | with_reducible exact Or.inr rfl | with_reducible exact Or.inr ⟨rfl, rfl, rfl, rfl⟩ | with_reducible exact Or.inr ⟨rfl, rfl, rfl, rfl, rfl⟩ | (refine ⟨?_, ?_⟩ <;> first | (apply Or.inl; apply Piece.mem_of; rfl) | exact Or.inl (by simp; done) | with_reducible exact Or.inr rfl)) | skip)

theorem Block.resetRegs_keeps {qs : List Piece} {a₀ b : Block} {p : Nat → Bool} (inside : Within [.cnt, .hold, .regs, .sel] qs) (before : Kept qs a₀ b) :
    Kept qs a₀ (Block.resetRegs b p) := Kept.step (Block.resetRegs_kept _ _) inside before

theorem Block.setLane_kept (b : Block) (l : Nat) (v : Lane) : Kept [.lane l] b (b.setLane l v) :=
  Kept.setLane _ _ _

theorem Block.setLane_keeps {qs : List Piece} {a₀ b : Block} {l : Nat} {v : Lane} (inside : Within [.lane l] qs) (before : Kept qs a₀ b) :
    Kept qs a₀ (Block.setLane b l v) := Kept.step (Block.setLane_kept _ _ _) inside before

theorem Block.modLane_kept (b : Block) (l : Nat) (f : Lane → Lane) : Kept [.lane l] b (Block.modLane b l f) := by
  unfold Block.modLane
  repeat' first
    | with_reducible assumption
    | with_reducible apply Kept.refl
    | with_reducible apply Within.refl
    | ((with_reducible apply Within.of); rfl)
    | ((with_reducible apply Within.cons); (apply Piece.inside_of; rfl))
    | ((with_reducible apply Within.cons); apply Or.inr)
    | with_reducible apply Within.nil
    | with_reducible apply List.mem_cons_self
    | with_reducible apply List.mem_cons_of_mem
    | with_reducible apply Block.setLane_keeps

theorem Block.modLane_keeps {qs : List Piece} {a₀ b : Block} {l : Nat} {f : Lane → Lane} (inside : Within [.lane l] qs) (before : Kept qs a₀ b) :
    Kept qs a₀ (Block.modLane b l f) := Kept.step (Block.modLane_kept _ _ _) inside before

theorem Block.setSide_kept (b : Block) (sd : Side) (v : SideSt) : Kept [.side sd] b (b.setSide sd v) :=
  Kept.setSide _ _ _

theorem Block.setSide_keeps {qs : List Piece} {a₀ b : Block} {sd : Side} {v : SideSt} (inside : Within [.side sd] qs) (before : Kept qs a₀ b) :
    Kept qs a₀ (Block.setSide b sd v) := Kept.step (Block.setSide_kept _ _ _) inside before

theorem Block.modSide_kept (b : Block) (sd : Side) (f : SideSt → SideSt) : Kept [.side sd] b (Block.modSide b sd f) := by
  unfold Block.modSide
  repeat' first
    | with_reducible assumption
    | with_reducible apply Kept.refl
    | with_reducible apply Within.refl
    | ((with_reducible apply Within.of); rfl)
    | ((with_reducible apply Within.cons); (apply Piece.inside_of; rfl))
    | ((with_reducible apply Within.cons); apply Or.inr)
    | with_reducible apply Within.nil
    | with_reducible apply List.mem_cons_self
    | with_reducible apply List.mem_cons_of_mem
    | with_reducible apply Block.setSide_keeps

theorem Block.modSide_keeps {qs : List Piece} {a₀ b : Block} {sd : Side} {f : SideSt → SideSt} (inside : Within [.side sd] qs) (before : Kept qs a₀ b) :
    Kept qs a₀ (Block.modSide b sd f) := Kept.step (Block.modSide_kept _ _ _) inside before

theorem Block.setFw_kept (b : Block) (sd : Side) (v : Fairway) : Kept [.fw sd] b (b.setFw sd v) :=
  Kept.setFw _ _ _

theorem Block.setFw_keeps {qs : List Piece} {a₀ b : Block} {sd : Side} {v : Fairway} (inside : Within [.fw sd] qs) (before : Kept qs a₀ b) :
    Kept qs a₀ (Block.setFw b sd v) := Kept.step (Block.setFw_kept _ _ _) inside before

theorem Block.modFw_kept (b : Block) (sd : Side) (f : Fairway → Fairway) : Kept [.fw sd] b (Block.modFw b sd f) := by
  unfold Block.modFw
  repeat' first
    | with_reducible assumption
    | with_reducible apply Kept.refl
    | with_reducible apply Within.refl
    | ((with_reducible apply Within.of); rfl)
    | ((with_reducible apply Within.cons); (apply Piece.inside_of; rfl))
    | ((with_reducible apply Within.cons); apply Or.inr)
    | with_reducible apply Within.nil
    | with_reducible apply List.mem_cons_self
    | with_reducible apply List.mem_cons_of_mem
    | with_reducible apply Block.setFw_keeps

theorem Block.modFw_keeps {qs : List Piece} {a₀ b : Block} {sd : Side} {f : Fairway → Fairway} (inside : Within [.fw sd] qs) (before : Kept qs a₀ b) :
    Kept qs a₀ (Block.modFw b sd f) := Kept.step (Block.modFw_kept _ _ _) inside before

theorem Block.setBerth_kept (b : Block) (n : Nat) (v : Berth) : Kept [.berth n] b (b.setBerth n v) :=
  Kept.setBerth _ _ _

theorem Block.setBerth_keeps {qs : List Piece} {a₀ b : Block} {n : Nat} {v : Berth} (inside : Within [.berth n] qs) (before : Kept qs a₀ b) :
    Kept qs a₀ (Block.setBerth b n v) := Kept.step (Block.setBerth_kept _ _ _) inside before

theorem Block.modBerth_kept (b : Block) (n : Nat) (f : Berth → Berth) : Kept [.berth n] b (Block.modBerth b n f) := by
  unfold Block.modBerth
  repeat' first
    | with_reducible assumption
    | with_reducible apply Kept.refl
    | with_reducible apply Within.refl
    | ((with_reducible apply Within.of); rfl)
    | ((with_reducible apply Within.cons); (apply Piece.inside_of; rfl))
    | ((with_reducible apply Within.cons); apply Or.inr)
    | with_reducible apply Within.nil
    | with_reducible apply List.mem_cons_self
    | with_reducible apply List.mem_cons_of_mem
    | with_reducible apply Block.setBerth_keeps

theorem Block.modBerth_keeps {qs : List Piece} {a₀ b : Block} {n : Nat} {f : Berth → Berth} (inside : Within [.berth n] qs) (before : Kept qs a₀ b) :
    Kept qs a₀ (Block.modBerth b n f) := Kept.step (Block.modBerth_kept _ _ _) inside before

theorem Block.setChan_kept (b : Block) (n : Nat) (v : Chan) : Kept [.chan n] b (b.setChan n v) :=
  Kept.setChan _ _ _

theorem Block.setChan_keeps {qs : List Piece} {a₀ b : Block} {n : Nat} {v : Chan} (inside : Within [.chan n] qs) (before : Kept qs a₀ b) :
    Kept qs a₀ (Block.setChan b n v) := Kept.step (Block.setChan_kept _ _ _) inside before

theorem Block.modChan_kept (b : Block) (n : Nat) (f : Chan → Chan) : Kept [.chan n] b (Block.modChan b n f) := by
  unfold Block.modChan
  repeat' first
    | with_reducible assumption
    | with_reducible apply Kept.refl
    | with_reducible apply Within.refl
    | ((with_reducible apply Within.of); rfl)
    | ((with_reducible apply Within.cons); (apply Piece.inside_of; rfl))
    | ((with_reducible apply Within.cons); apply Or.inr)
    | with_reducible apply Within.nil
    | with_reducible apply List.mem_cons_self
    | with_reducible apply List.mem_cons_of_mem
    | with_reducible apply Block.setChan_keeps

theorem Block.modChan_keeps {qs : List Piece} {a₀ b : Block} {n : Nat} {f : Chan → Chan} (inside : Within [.chan n] qs) (before : Kept qs a₀ b) :
    Kept qs a₀ (Block.modChan b n f) := Kept.step (Block.modChan_kept _ _ _) inside before

theorem Block.setCol_kept (b : Block) (n : Nat) (v : Column) : Kept [.col n] b (b.setCol n v) :=
  Kept.setCol _ _ _

theorem Block.setCol_keeps {qs : List Piece} {a₀ b : Block} {n : Nat} {v : Column} (inside : Within [.col n] qs) (before : Kept qs a₀ b) :
    Kept qs a₀ (Block.setCol b n v) := Kept.step (Block.setCol_kept _ _ _) inside before

theorem Block.modCol_kept (b : Block) (n : Nat) (f : Column → Column) : Kept [.col n] b (Block.modCol b n f) := by
  unfold Block.modCol
  repeat' first
    | with_reducible assumption
    | with_reducible apply Kept.refl
    | with_reducible apply Within.refl
    | ((with_reducible apply Within.of); rfl)
    | ((with_reducible apply Within.cons); (apply Piece.inside_of; rfl))
    | ((with_reducible apply Within.cons); apply Or.inr)
    | with_reducible apply Within.nil
    | with_reducible apply List.mem_cons_self
    | with_reducible apply List.mem_cons_of_mem
    | with_reducible apply Block.setCol_keeps

theorem Block.modCol_keeps {qs : List Piece} {a₀ b : Block} {n : Nat} {f : Column → Column} (inside : Within [.col n] qs) (before : Kept qs a₀ b) :
    Kept qs a₀ (Block.modCol b n f) := Kept.step (Block.modCol_kept _ _ _) inside before

theorem Block.setDom_kept (b : Block) (n : Nat) (v : Dom) : Kept [.dom n] b (b.setDom n v) :=
  Kept.setDom _ _ _

theorem Block.setDom_keeps {qs : List Piece} {a₀ b : Block} {n : Nat} {v : Dom} (inside : Within [.dom n] qs) (before : Kept qs a₀ b) :
    Kept qs a₀ (Block.setDom b n v) := Kept.step (Block.setDom_kept _ _ _) inside before

theorem Block.modDom_kept (b : Block) (n : Nat) (f : Dom → Dom) : Kept [.dom n] b (Block.modDom b n f) := by
  unfold Block.modDom
  repeat' first
    | with_reducible assumption
    | with_reducible apply Kept.refl
    | with_reducible apply Within.refl
    | ((with_reducible apply Within.of); rfl)
    | ((with_reducible apply Within.cons); (apply Piece.inside_of; rfl))
    | ((with_reducible apply Within.cons); apply Or.inr)
    | with_reducible apply Within.nil
    | with_reducible apply List.mem_cons_self
    | with_reducible apply List.mem_cons_of_mem
    | with_reducible apply Block.setDom_keeps

theorem Block.modDom_keeps {qs : List Piece} {a₀ b : Block} {n : Nat} {f : Dom → Dom} (inside : Within [.dom n] qs) (before : Kept qs a₀ b) :
    Kept qs a₀ (Block.modDom b n f) := Kept.step (Block.modDom_kept _ _ _) inside before

theorem Block.setPll_kept (b : Block) (p : Pll) (v : PllSt) : Kept [.ck] b (Block.setPll b p v) := by
  unfold Block.setPll
  repeat' first
    | with_reducible assumption
    | with_reducible apply Kept.refl
    | with_reducible apply Within.refl
    | ((with_reducible apply Within.of); rfl)
    | ((with_reducible apply Within.cons); (apply Piece.inside_of; rfl))
    | ((with_reducible apply Within.cons); apply Or.inr)
    | with_reducible apply Within.nil
    | with_reducible apply List.mem_cons_self
    | with_reducible apply List.mem_cons_of_mem
    | (extract_lets +onlyGivenNames x
       first
       | (guard_hyp x : Block := _
          refine Kept.cut (ps := [.ck]) (b := b) (x := x) ?_ fun hx => ?_
          on_goal 1 => subst x
          on_goal 2 => try clear_value x)
       | (guard_hyp x : Clocks := _; subst x)
       | clear_value x
       | skip)
    | (simp only [Kept.by_fields]; with_reducible apply Kept.fields <;>
         first | with_reducible exact Or.inl rfl | (apply Or.inr; apply Piece.mem_of; rfl) | exact Or.inr (by simp; done) | (refine Or.inr ⟨?_, ?_⟩ <;> first | (apply Or.inl; apply Piece.mem_of; rfl) | exact Or.inl (by simp; done) | with_reducible exact Or.inr rfl | with_reducible exact Or.inr ⟨rfl, rfl, rfl, rfl⟩ | with_reducible exact Or.inr ⟨rfl, rfl, rfl, rfl, rfl⟩ | (refine ⟨?_, ?_⟩ <;> first | (apply Or.inl; apply Piece.mem_of; rfl) | exact Or.inl (by simp; done) | with_reducible exact Or.inr rfl)) | skip)
    | split

theorem Block.setPll_keeps {qs : List Piece} {a₀ b : Block} {p : Pll} {v : PllSt} (inside : Within [.ck] qs) (before : Kept qs a₀ b) :
    Kept qs a₀ (Block.setPll b p v) := Kept.step (Block.setPll_kept _ _ _) inside before

theorem Block.wearSlot_kept (b : Block) (n : Nat) : Kept [.events, .reg Off.lgAlarm] b (Block.wearSlot b n) := by
  unfold Block.wearSlot
  repeat' first
    | with_reducible assumption
    | with_reducible apply Kept.refl
    | with_reducible apply Within.refl
    | ((with_reducible apply Within.of); rfl)
    | ((with_reducible apply Within.cons); (apply Piece.inside_of; rfl))
    | ((with_reducible apply Within.cons); apply Or.inr)
    | with_reducible apply Within.nil
    | with_reducible apply List.mem_cons_self
    | with_reducible apply List.mem_cons_of_mem
    | (extract_lets +onlyGivenNames x
       first
       | (guard_hyp x : Block := _
          refine Kept.cut (ps := [.events, .reg Off.lgAlarm]) (b := b) (x := x) ?_ fun hx => ?_
          on_goal 1 => subst x
          on_goal 2 => try clear_value x)
       | (guard_hyp x : Logbook := _; subst x)
       | clear_value x
       | skip)
    | (simp only [Kept.by_fields]; with_reducible apply Kept.fields <;>
         first | with_reducible exact Or.inl rfl | (apply Or.inr; apply Piece.mem_of; rfl) | exact Or.inr (by simp; done) | (refine Or.inr ⟨?_, ?_⟩ <;> first | (apply Or.inl; apply Piece.mem_of; rfl) | exact Or.inl (by simp; done) | with_reducible exact Or.inr rfl | with_reducible exact Or.inr ⟨rfl, rfl, rfl, rfl⟩ | with_reducible exact Or.inr ⟨rfl, rfl, rfl, rfl, rfl⟩ | (refine ⟨?_, ?_⟩ <;> first | (apply Or.inl; apply Piece.mem_of; rfl) | exact Or.inl (by simp; done) | with_reducible exact Or.inr rfl)) | skip)
    | with_reducible apply Block.orReg_keeps
    | with_reducible apply Kept.ite
    | split

theorem Block.wearSlot_keeps {qs : List Piece} {a₀ b : Block} {n : Nat} (inside : Within [.events, .reg Off.lgAlarm] qs) (before : Kept qs a₀ b) :
    Kept qs a₀ (Block.wearSlot b n) := Kept.step (Block.wearSlot_kept _ _) inside before

theorem Block.writeEvent_kept (b : Block) (code : BitVec 16) (u : BitVec 16) (reps : BitVec 16) (detail : List (BitVec 16)) (others : List Suppress) : Kept [.events, .reg Off.lgAlarm] b (Block.writeEvent b code u reps detail others) := by
  unfold Block.writeEvent
  repeat' first
    | with_reducible assumption
    | with_reducible apply Kept.refl
    | with_reducible apply Within.refl
    | ((with_reducible apply Within.of); rfl)
    | ((with_reducible apply Within.cons); (apply Piece.inside_of; rfl))
    | ((with_reducible apply Within.cons); apply Or.inr)
    | with_reducible apply Within.nil
    | with_reducible apply List.mem_cons_self
    | with_reducible apply List.mem_cons_of_mem
    | (extract_lets +onlyGivenNames x
       first
       | (guard_hyp x : Block := _
          refine Kept.cut (ps := [.events, .reg Off.lgAlarm]) (b := b) (x := x) ?_ fun hx => ?_
          on_goal 1 => subst x
          on_goal 2 => try clear_value x)
       | (guard_hyp x : Power := _; subst x)
       | (guard_hyp x : Clocks := _; subst x)
       | (guard_hyp x : Logbook := _; subst x)
       | clear_value x
       | skip)
    | (simp only [Kept.by_fields]; with_reducible apply Kept.fields <;>
         first | with_reducible exact Or.inl rfl | (apply Or.inr; apply Piece.mem_of; rfl) | exact Or.inr (by simp; done) | (refine Or.inr ⟨?_, ?_⟩ <;> first | (apply Or.inl; apply Piece.mem_of; rfl) | exact Or.inl (by simp; done) | with_reducible exact Or.inr rfl | with_reducible exact Or.inr ⟨rfl, rfl, rfl, rfl⟩ | with_reducible exact Or.inr ⟨rfl, rfl, rfl, rfl, rfl⟩ | (refine ⟨?_, ?_⟩ <;> first | (apply Or.inl; apply Piece.mem_of; rfl) | exact Or.inl (by simp; done) | with_reducible exact Or.inr rfl)) | skip)
    | with_reducible apply Block.wearSlot_keeps
    | with_reducible apply Kept.ite
    | split

theorem Block.writeEvent_keeps {qs : List Piece} {a₀ b : Block} {code : BitVec 16} {u : BitVec 16} {reps : BitVec 16} {detail : List (BitVec 16)} {others : List Suppress} (inside : Within [.events, .reg Off.lgAlarm] qs) (before : Kept qs a₀ b) :
    Kept qs a₀ (Block.writeEvent b code u reps detail others) := Kept.step (Block.writeEvent_kept _ _ _ _ _ _) inside before

theorem Block.logEvent_kept (b : Block) (code : BitVec 16) (u : BitVec 16) (detail : List (BitVec 16)) : Kept [.events, .reg Off.lgAlarm] b (Block.logEvent b code u detail) := by
  unfold Block.logEvent
  repeat' first
    | with_reducible assumption
    | with_reducible apply Kept.refl
    | with_reducible apply Within.refl
    | ((with_reducible apply Within.of); rfl)
    | ((with_reducible apply Within.cons); (apply Piece.inside_of; rfl))
    | ((with_reducible apply Within.cons); apply Or.inr)
    | with_reducible apply Within.nil
    | with_reducible apply List.mem_cons_self
    | with_reducible apply List.mem_cons_of_mem
    | (extract_lets +onlyGivenNames x
       first
       | (guard_hyp x : Block := _
          refine Kept.cut (ps := [.events, .reg Off.lgAlarm]) (b := b) (x := x) ?_ fun hx => ?_
          on_goal 1 => subst x
          on_goal 2 => try clear_value x)
       | (guard_hyp x : Logbook := _; subst x)
       | clear_value x
       | skip)
    | (simp only [Kept.by_fields]; with_reducible apply Kept.fields <;>
         first | with_reducible exact Or.inl rfl | (apply Or.inr; apply Piece.mem_of; rfl) | exact Or.inr (by simp; done) | (refine Or.inr ⟨?_, ?_⟩ <;> first | (apply Or.inl; apply Piece.mem_of; rfl) | exact Or.inl (by simp; done) | with_reducible exact Or.inr rfl | with_reducible exact Or.inr ⟨rfl, rfl, rfl, rfl⟩ | with_reducible exact Or.inr ⟨rfl, rfl, rfl, rfl, rfl⟩ | (refine ⟨?_, ?_⟩ <;> first | (apply Or.inl; apply Piece.mem_of; rfl) | exact Or.inl (by simp; done) | with_reducible exact Or.inr rfl)) | skip)
    | with_reducible apply Block.writeEvent_keeps
    | with_reducible apply Kept.ite
    | split

theorem Block.logEvent_keeps {qs : List Piece} {a₀ b : Block} {code : BitVec 16} {u : BitVec 16} {detail : List (BitVec 16)} (inside : Within [.events, .reg Off.lgAlarm] qs) (before : Kept qs a₀ b) :
    Kept qs a₀ (Block.logEvent b code u detail) := Kept.step (Block.logEvent_kept _ _ _ _) inside before

theorem Block.event_kept (b : Block) (e : Ev) (unit : Nat) (detail : List (BitVec 16)) : Kept [.events, .reg Off.lgAlarm] b (Block.event b e unit detail) := by
  unfold Block.event
  repeat' first
    | with_reducible assumption
    | with_reducible apply Kept.refl
    | with_reducible apply Within.refl
    | ((with_reducible apply Within.of); rfl)
    | ((with_reducible apply Within.cons); (apply Piece.inside_of; rfl))
    | ((with_reducible apply Within.cons); apply Or.inr)
    | with_reducible apply Within.nil
    | with_reducible apply List.mem_cons_self
    | with_reducible apply List.mem_cons_of_mem
    | (extract_lets +onlyGivenNames x
       first
       | (guard_hyp x : Block := _
          refine Kept.cut (ps := [.events, .reg Off.lgAlarm]) (b := b) (x := x) ?_ fun hx => ?_
          on_goal 1 => subst x
          on_goal 2 => try clear_value x)
       | (guard_hyp x : Logbook := _; subst x)
       | clear_value x
       | skip)
    | (simp only [Kept.by_fields]; with_reducible apply Kept.fields <;>
         first | with_reducible exact Or.inl rfl | (apply Or.inr; apply Piece.mem_of; rfl) | exact Or.inr (by simp; done) | (refine Or.inr ⟨?_, ?_⟩ <;> first | (apply Or.inl; apply Piece.mem_of; rfl) | exact Or.inl (by simp; done) | with_reducible exact Or.inr rfl | with_reducible exact Or.inr ⟨rfl, rfl, rfl, rfl⟩ | with_reducible exact Or.inr ⟨rfl, rfl, rfl, rfl, rfl⟩ | (refine ⟨?_, ?_⟩ <;> first | (apply Or.inl; apply Piece.mem_of; rfl) | exact Or.inl (by simp; done) | with_reducible exact Or.inr rfl)) | skip)
    | with_reducible apply Block.logEvent_keeps
    | with_reducible apply Kept.ite
    | split

theorem Block.event_keeps {qs : List Piece} {a₀ b : Block} {e : Ev} {unit : Nat} {detail : List (BitVec 16)} (inside : Within [.events, .reg Off.lgAlarm] qs) (before : Kept qs a₀ b) :
    Kept qs a₀ (Block.event b e unit detail) := Kept.step (Block.event_kept _ _ _ _) inside before

theorem Block.flushEvents_kept (b : Block) : Kept [.events, .reg Off.lgAlarm] b (Block.flushEvents b) := by
  unfold Block.flushEvents
  repeat' first
    | with_reducible assumption
    | with_reducible apply Kept.refl
    | with_reducible apply Within.refl
    | ((with_reducible apply Within.of); rfl)
    | ((with_reducible apply Within.cons); (apply Piece.inside_of; rfl))
    | ((with_reducible apply Within.cons); apply Or.inr)
    | with_reducible apply Within.nil
    | with_reducible apply List.mem_cons_self
    | with_reducible apply List.mem_cons_of_mem
    | (extract_lets +onlyGivenNames x
       first
       | (guard_hyp x : Block := _
          refine Kept.cut (ps := [.events, .reg Off.lgAlarm]) (b := b) (x := x) ?_ fun hx => ?_
          on_goal 1 => subst x
          on_goal 2 => try clear_value x)
       | (guard_hyp x : Logbook := _; subst x)
       | clear_value x
       | skip)
    | (simp only [Kept.by_fields]; with_reducible apply Kept.fields <;>
         first | with_reducible exact Or.inl rfl | (apply Or.inr; apply Piece.mem_of; rfl) | exact Or.inr (by simp; done) | (refine Or.inr ⟨?_, ?_⟩ <;> first | (apply Or.inl; apply Piece.mem_of; rfl) | exact Or.inl (by simp; done) | with_reducible exact Or.inr rfl | with_reducible exact Or.inr ⟨rfl, rfl, rfl, rfl⟩ | with_reducible exact Or.inr ⟨rfl, rfl, rfl, rfl, rfl⟩ | (refine ⟨?_, ?_⟩ <;> first | (apply Or.inl; apply Piece.mem_of; rfl) | exact Or.inl (by simp; done) | with_reducible exact Or.inr rfl)) | skip)
    | (with_reducible apply Kept.foldl; intro _ _ _)
    | with_reducible apply Block.logEvent_keeps
    | with_reducible apply Kept.ite
    | split

theorem Block.flushEvents_keeps {qs : List Piece} {a₀ b : Block} (inside : Within [.events, .reg Off.lgAlarm] qs) (before : Kept qs a₀ b) :
    Kept qs a₀ (Block.flushEvents b) := Kept.step (Block.flushEvents_kept _) inside before

theorem Block.draw_kept (b : Block) : Kept [.fresh] b (Block.draw b) := by
  unfold Block.draw
  repeat' first
    | with_reducible assumption
    | with_reducible apply Kept.refl
    | with_reducible apply Within.refl
    | ((with_reducible apply Within.of); rfl)
    | ((with_reducible apply Within.cons); (apply Piece.inside_of; rfl))
    | ((with_reducible apply Within.cons); apply Or.inr)
    | with_reducible apply Within.nil
    | with_reducible apply List.mem_cons_self
    | with_reducible apply List.mem_cons_of_mem
    | (simp only [Kept.by_fields]; with_reducible apply Kept.fields <;>
         first | with_reducible exact Or.inl rfl | (apply Or.inr; apply Piece.mem_of; rfl) | exact Or.inr (by simp; done) | (refine Or.inr ⟨?_, ?_⟩ <;> first | (apply Or.inl; apply Piece.mem_of; rfl) | exact Or.inl (by simp; done) | with_reducible exact Or.inr rfl | with_reducible exact Or.inr ⟨rfl, rfl, rfl, rfl⟩ | with_reducible exact Or.inr ⟨rfl, rfl, rfl, rfl, rfl⟩ | (refine ⟨?_, ?_⟩ <;> first | (apply Or.inl; apply Piece.mem_of; rfl) | exact Or.inl (by simp; done) | with_reducible exact Or.inr rfl)) | skip)

theorem Block.draw_keeps {qs : List Piece} {a₀ b : Block} (inside : Within [.fresh] qs) (before : Kept qs a₀ b) :
    Kept qs a₀ (Block.draw b) := Kept.step (Block.draw_kept _) inside before

theorem Block.applyEntry_kept (b : Block) (l : Nat) (g : Fin 4) : Kept [.lane l, .reg (lnOff Off.lnTxDrv l)] b (Block.applyEntry b l g) := by
  unfold Block.applyEntry
  repeat' first
    | with_reducible assumption
    | with_reducible apply Kept.refl
    | with_reducible apply Within.refl
    | ((with_reducible apply Within.of); rfl)
    | ((with_reducible apply Within.cons); (apply Piece.inside_of; rfl))
    | ((with_reducible apply Within.cons); apply Or.inr)
    | with_reducible apply Within.nil
    | with_reducible apply List.mem_cons_self
    | with_reducible apply List.mem_cons_of_mem
    | (extract_lets +onlyGivenNames x
       first
       | (guard_hyp x : Block := _
          refine Kept.cut (ps := [.lane l, .reg (lnOff Off.lnTxDrv l)]) (b := b) (x := x) ?_ fun hx => ?_
          on_goal 1 => subst x
          on_goal 2 => try clear_value x)
       | clear_value x
       | skip)
    | (simp only [Kept.by_fields]; with_reducible apply Kept.fields <;>
         first | with_reducible exact Or.inl rfl | (apply Or.inr; apply Piece.mem_of; rfl) | exact Or.inr (by simp; done) | (refine Or.inr ⟨?_, ?_⟩ <;> first | (apply Or.inl; apply Piece.mem_of; rfl) | exact Or.inl (by simp; done) | with_reducible exact Or.inr rfl | with_reducible exact Or.inr ⟨rfl, rfl, rfl, rfl⟩ | with_reducible exact Or.inr ⟨rfl, rfl, rfl, rfl, rfl⟩ | (refine ⟨?_, ?_⟩ <;> first | (apply Or.inl; apply Piece.mem_of; rfl) | exact Or.inl (by simp; done) | with_reducible exact Or.inr rfl)) | skip)
    | with_reducible apply Block.setReg_keeps
    | with_reducible apply Block.modLane_keeps

theorem Block.applyEntry_keeps {qs : List Piece} {a₀ b : Block} {l : Nat} {g : Fin 4} (inside : Within [.lane l, .reg (lnOff Off.lnTxDrv l)] qs) (before : Kept qs a₀ b) :
    Kept qs a₀ (Block.applyEntry b l g) := Kept.step (Block.applyEntry_kept _ _ _) inside before

theorem Block.laneCalibrated_kept (b : Block) (l : Nat) : Kept [.lane l] b (Block.laneCalibrated b l) := by
  unfold Block.laneCalibrated
  repeat' first
    | with_reducible assumption
    | with_reducible apply Kept.refl
    | with_reducible apply Within.refl
    | ((with_reducible apply Within.of); rfl)
    | ((with_reducible apply Within.cons); (apply Piece.inside_of; rfl))
    | ((with_reducible apply Within.cons); apply Or.inr)
    | with_reducible apply Within.nil
    | with_reducible apply List.mem_cons_self
    | with_reducible apply List.mem_cons_of_mem
    | with_reducible apply Block.modLane_keeps
    | with_reducible apply Kept.ite
    | split

theorem Block.laneCalibrated_keeps {qs : List Piece} {a₀ b : Block} {l : Nat} (inside : Within [.lane l] qs) (before : Kept qs a₀ b) :
    Kept qs a₀ (Block.laneCalibrated b l) := Kept.step (Block.laneCalibrated_kept _ _) inside before

theorem Block.startHunt_kept (b : Block) (l : Nat) (g : Fin 4) (warm : Bool) : Kept [.lane l, .reg (lnOff Off.lnTxDrv l)] b (Block.startHunt b l g warm) := by
  unfold Block.startHunt
  repeat' first
    | with_reducible assumption
    | with_reducible apply Kept.refl
    | with_reducible apply Within.refl
    | ((with_reducible apply Within.of); rfl)
    | ((with_reducible apply Within.cons); (apply Piece.inside_of; rfl))
    | ((with_reducible apply Within.cons); apply Or.inr)
    | with_reducible apply Within.nil
    | with_reducible apply List.mem_cons_self
    | with_reducible apply List.mem_cons_of_mem
    | (extract_lets +onlyGivenNames x
       first
       | (guard_hyp x : Block := _
          refine Kept.cut (ps := [.lane l, .reg (lnOff Off.lnTxDrv l)]) (b := b) (x := x) ?_ fun hx => ?_
          on_goal 1 => subst x
          on_goal 2 => try clear_value x)
       | clear_value x
       | skip)
    | with_reducible apply Block.applyEntry_keeps
    | with_reducible apply Block.modLane_keeps
    | with_reducible apply Kept.ite
    | split

theorem Block.startHunt_keeps {qs : List Piece} {a₀ b : Block} {l : Nat} {g : Fin 4} {warm : Bool} (inside : Within [.lane l, .reg (lnOff Off.lnTxDrv l)] qs) (before : Kept qs a₀ b) :
    Kept qs a₀ (Block.startHunt b l g warm) := Kept.step (Block.startHunt_kept _ _ _ _) inside before

theorem Block.rehunt_kept (b : Block) (l : Nat) : Kept [.lane l, .reg (lnOff Off.lnTxDrv l)] b (Block.rehunt b l) := by
  unfold Block.rehunt
  repeat' first
    | with_reducible assumption
    | with_reducible apply Kept.refl
    | with_reducible apply Within.refl
    | ((with_reducible apply Within.of); rfl)
    | ((with_reducible apply Within.cons); (apply Piece.inside_of; rfl))
    | ((with_reducible apply Within.cons); apply Or.inr)
    | with_reducible apply Within.nil
    | with_reducible apply List.mem_cons_self
    | with_reducible apply List.mem_cons_of_mem
    | with_reducible apply Block.startHunt_keeps
    | with_reducible apply Block.modLane_keeps

theorem Block.rehunt_keeps {qs : List Piece} {a₀ b : Block} {l : Nat} (inside : Within [.lane l, .reg (lnOff Off.lnTxDrv l)] qs) (before : Kept qs a₀ b) :
    Kept qs a₀ (Block.rehunt b l) := Kept.step (Block.rehunt_kept _ _) inside before

theorem Block.applySpread_kept (b : Block) (sd : Side) : Kept [.events, .reg (sideOff Off.lnSideStatus sd), .reg Off.lgAlarm, .side sd] b (Block.applySpread b sd) := by
  unfold Block.applySpread
  repeat' first
    | with_reducible assumption
    | with_reducible apply Kept.refl
    | with_reducible apply Within.refl
    | ((with_reducible apply Within.of); rfl)
    | ((with_reducible apply Within.cons); (apply Piece.inside_of; rfl))
    | ((with_reducible apply Within.cons); apply Or.inr)
    | with_reducible apply Within.nil
    | with_reducible apply List.mem_cons_self
    | with_reducible apply List.mem_cons_of_mem
    | (extract_lets +onlyGivenNames x
       first
       | (guard_hyp x : Block := _
          refine Kept.cut (ps := [.events, .reg (sideOff Off.lnSideStatus sd), .reg Off.lgAlarm, .side sd]) (b := b) (x := x) ?_ fun hx => ?_
          on_goal 1 => subst x
          on_goal 2 => try clear_value x)
       | clear_value x
       | skip)
    | with_reducible apply Block.modSide_keeps
    | with_reducible apply Block.event_keeps
    | with_reducible apply Block.orReg_keeps
    | with_reducible apply Kept.ite
    | split

theorem Block.applySpread_keeps {qs : List Piece} {a₀ b : Block} {sd : Side} (inside : Within [.events, .reg (sideOff Off.lnSideStatus sd), .reg Off.lgAlarm, .side sd] qs) (before : Kept qs a₀ b) :
    Kept qs a₀ (Block.applySpread b sd) := Kept.step (Block.applySpread_kept _ _) inside before

theorem Block.enterTrain_kept (b : Block) (l : Nat) : Kept [.events, .lane l, .regs, .sides] b (Block.enterTrain b l) := by
  unfold Block.enterTrain
  repeat' first
    | with_reducible assumption
    | with_reducible apply Kept.refl
    | with_reducible apply Within.refl
    | ((with_reducible apply Within.of); rfl)
    | ((with_reducible apply Within.cons); (apply Piece.inside_of; rfl))
    | ((with_reducible apply Within.cons); apply Or.inr)
    | with_reducible apply Within.nil
    | with_reducible apply List.mem_cons_self
    | with_reducible apply List.mem_cons_of_mem
    | (extract_lets +onlyGivenNames x
       first
       | (guard_hyp x : Block := _
          refine Kept.cut (ps := [.events, .lane l, .regs, .sides]) (b := b) (x := x) ?_ fun hx => ?_
          on_goal 1 => subst x
          on_goal 2 => try clear_value x)
       | clear_value x
       | skip)
    | with_reducible apply Block.applySpread_keeps
    | with_reducible apply Block.modLane_keeps
    | with_reducible apply Kept.ite
    | split

theorem Block.enterTrain_keeps {qs : List Piece} {a₀ b : Block} {l : Nat} (inside : Within [.events, .lane l, .regs, .sides] qs) (before : Kept qs a₀ b) :
    Kept qs a₀ (Block.enterTrain b l) := Kept.step (Block.enterTrain_kept _ _) inside before

theorem Block.winDiscard_kept (b : Block) (l : Nat) : Kept [.regs] b (Block.winDiscard b l) := by
  unfold Block.winDiscard
  repeat' first
    | with_reducible assumption
    | with_reducible apply Kept.refl
    | with_reducible apply Within.refl
    | ((with_reducible apply Within.of); rfl)
    | ((with_reducible apply Within.cons); (apply Piece.inside_of; rfl))
    | ((with_reducible apply Within.cons); apply Or.inr)
    | with_reducible apply Within.nil
    | with_reducible apply List.mem_cons_self
    | with_reducible apply List.mem_cons_of_mem
    | (extract_lets +onlyGivenNames x
       first
       | (guard_hyp x : Block := _
          refine Kept.cut (ps := [.regs]) (b := b) (x := x) ?_ fun hx => ?_
          on_goal 1 => subst x
          on_goal 2 => try clear_value x)
       | clear_value x
       | skip)
    | with_reducible apply Block.setReg_keeps

theorem Block.winDiscard_keeps {qs : List Piece} {a₀ b : Block} {l : Nat} (inside : Within [.regs] qs) (before : Kept qs a₀ b) :
    Kept qs a₀ (Block.winDiscard b l) := Kept.step (Block.winDiscard_kept _ _) inside before

theorem Block.endWindow_kept (b : Block) (sd : Side) : Kept [.regs, .side sd] b (Block.endWindow b sd) := by
  unfold Block.endWindow
  repeat' first
    | with_reducible assumption
    | with_reducible apply Kept.refl
    | with_reducible apply Within.refl
    | ((with_reducible apply Within.of); rfl)
    | ((with_reducible apply Within.cons); (apply Piece.inside_of; rfl))
    | ((with_reducible apply Within.cons); apply Or.inr)
    | with_reducible apply Within.nil
    | with_reducible apply List.mem_cons_self
    | with_reducible apply List.mem_cons_of_mem
    | (extract_lets +onlyGivenNames x
       first
       | (guard_hyp x : Block := _
          refine Kept.cut (ps := [.regs, .side sd]) (b := b) (x := x) ?_ fun hx => ?_
          on_goal 1 => subst x
          on_goal 2 => try clear_value x)
       | clear_value x
       | skip)
    | (with_reducible apply Kept.each; intro _ _ _)
    | with_reducible apply Block.modSide_keeps
    | with_reducible apply Block.winDiscard_keeps
    | with_reducible apply Kept.ite
    | split

theorem Block.endWindow_keeps {qs : List Piece} {a₀ b : Block} {sd : Side} (inside : Within [.regs, .side sd] qs) (before : Kept qs a₀ b) :
    Kept qs a₀ (Block.endWindow b sd) := Kept.step (Block.endWindow_kept _ _) inside before

theorem Block.leaveRun_kept (b : Block) (sd : Side) (seg : SegState) : Kept [.regs, .side sd] b (Block.leaveRun b sd seg) := by
  unfold Block.leaveRun
  repeat' first
    | with_reducible assumption
    | with_reducible apply Kept.refl
    | with_reducible apply Within.refl
    | ((with_reducible apply Within.of); rfl)
    | ((with_reducible apply Within.cons); (apply Piece.inside_of; rfl))
    | ((with_reducible apply Within.cons); apply Or.inr)
    | with_reducible apply Within.nil
    | with_reducible apply List.mem_cons_self
    | with_reducible apply List.mem_cons_of_mem
    | (extract_lets +onlyGivenNames x
       first
       | (guard_hyp x : Block := _
          refine Kept.cut (ps := [.regs, .side sd]) (b := b) (x := x) ?_ fun hx => ?_
          on_goal 1 => subst x
          on_goal 2 => try clear_value x)
       | clear_value x
       | skip)
    | with_reducible apply Block.modSide_keeps
    | with_reducible apply Block.endWindow_keeps
    | with_reducible apply Kept.ite
    | split

theorem Block.leaveRun_keeps {qs : List Piece} {a₀ b : Block} {sd : Side} {seg : SegState} (inside : Within [.regs, .side sd] qs) (before : Kept qs a₀ b) :
    Kept qs a₀ (Block.leaveRun b sd seg) := Kept.step (Block.leaveRun_kept _ _ _) inside before

theorem Block.segDown_kept (b : Block) (sd : Side) : Kept [.lanes, .regs, .side sd] b (Block.segDown b sd) := by
  unfold Block.segDown
  repeat' first
    | with_reducible assumption
    | with_reducible apply Kept.refl
    | with_reducible apply Within.refl
    | ((with_reducible apply Within.of); rfl)
    | ((with_reducible apply Within.cons); (apply Piece.inside_of; rfl))
    | ((with_reducible apply Within.cons); apply Or.inr)
    | with_reducible apply Within.nil
    | with_reducible apply List.mem_cons_self
    | with_reducible apply List.mem_cons_of_mem
    | (extract_lets +onlyGivenNames x
       first
       | (guard_hyp x : Block := _
          refine Kept.cut (ps := [.lanes, .regs, .side sd]) (b := b) (x := x) ?_ fun hx => ?_
          on_goal 1 => subst x
          on_goal 2 => try clear_value x)
       | clear_value x
       | skip)
    | (with_reducible apply Kept.each; intro _ _ _)
    | with_reducible apply Block.leaveRun_keeps
    | with_reducible apply Block.modLane_keeps
    | with_reducible apply Kept.ite
    | split

theorem Block.segDown_keeps {qs : List Piece} {a₀ b : Block} {sd : Side} (inside : Within [.lanes, .regs, .side sd] qs) (before : Kept qs a₀ b) :
    Kept qs a₀ (Block.segDown b sd) := Kept.step (Block.segDown_kept _ _) inside before

theorem Block.sendSeg_kept (b : Block) (sd : Side) (m : SegMsg) : Kept [.side sd] b (Block.sendSeg b sd m) := by
  unfold Block.sendSeg
  repeat' first
    | with_reducible assumption
    | with_reducible apply Kept.refl
    | with_reducible apply Within.refl
    | ((with_reducible apply Within.of); rfl)
    | ((with_reducible apply Within.cons); (apply Piece.inside_of; rfl))
    | ((with_reducible apply Within.cons); apply Or.inr)
    | with_reducible apply Within.nil
    | with_reducible apply List.mem_cons_self
    | with_reducible apply List.mem_cons_of_mem
    | (extract_lets +onlyGivenNames x
       first
       | (guard_hyp x : Block := _
          refine Kept.cut (ps := [.side sd]) (b := b) (x := x) ?_ fun hx => ?_
          on_goal 1 => subst x
          on_goal 2 => try clear_value x)
       | clear_value x
       | skip)
    | with_reducible apply Block.modSide_keeps
    | with_reducible apply Kept.ite
    | split

theorem Block.sendSeg_keeps {qs : List Piece} {a₀ b : Block} {sd : Side} {m : SegMsg} (inside : Within [.side sd] qs) (before : Kept qs a₀ b) :
    Kept qs a₀ (Block.sendSeg b sd m) := Kept.step (Block.sendSeg_kept _ _ _) inside before

theorem Block.sendCap_kept (b : Block) (sd : Side) (c : Cap) (ix : Nat) : Kept [.side sd] b (Block.sendCap b sd c ix) := by
  unfold Block.sendCap
  repeat' first
    | with_reducible assumption
    | with_reducible apply Kept.refl
    | with_reducible apply Within.refl
    | ((with_reducible apply Within.of); rfl)
    | ((with_reducible apply Within.cons); (apply Piece.inside_of; rfl))
    | ((with_reducible apply Within.cons); apply Or.inr)
    | with_reducible apply Within.nil
    | with_reducible apply List.mem_cons_self
    | with_reducible apply List.mem_cons_of_mem
    | with_reducible apply Block.sendSeg_keeps
    | with_reducible apply Block.modSide_keeps
    | with_reducible apply Kept.ite
    | split

theorem Block.sendCap_keeps {qs : List Piece} {a₀ b : Block} {sd : Side} {c : Cap} {ix : Nat} (inside : Within [.side sd] qs) (before : Kept qs a₀ b) :
    Kept qs a₀ (Block.sendCap b sd c ix) := Kept.step (Block.sendCap_kept _ _ _ _) inside before

theorem Block.startCap_kept (b : Block) (sd : Side) : Kept [.side sd] b (Block.startCap b sd) := by
  unfold Block.startCap
  repeat' first
    | with_reducible assumption
    | with_reducible apply Kept.refl
    | with_reducible apply Within.refl
    | ((with_reducible apply Within.of); rfl)
    | ((with_reducible apply Within.cons); (apply Piece.inside_of; rfl))
    | ((with_reducible apply Within.cons); apply Or.inr)
    | with_reducible apply Within.nil
    | with_reducible apply List.mem_cons_self
    | with_reducible apply List.mem_cons_of_mem
    | with_reducible apply Block.sendCap_keeps
    | with_reducible apply Kept.ite
    | split

theorem Block.startCap_keeps {qs : List Piece} {a₀ b : Block} {sd : Side} (inside : Within [.side sd] qs) (before : Kept qs a₀ b) :
    Kept qs a₀ (Block.startCap b sd) := Kept.step (Block.startCap_kept _ _) inside before

theorem Block.forwardCap_kept (b : Block) (sd : Side) : Kept [.side (otherSide sd), .side sd] b (Block.forwardCap b sd) := by
  unfold Block.forwardCap
  repeat' first
    | with_reducible assumption
    | with_reducible apply Kept.refl
    | with_reducible apply Within.refl
    | ((with_reducible apply Within.of); rfl)
    | ((with_reducible apply Within.cons); (apply Piece.inside_of; rfl))
    | ((with_reducible apply Within.cons); apply Or.inr)
    | with_reducible apply Within.nil
    | with_reducible apply List.mem_cons_self
    | with_reducible apply List.mem_cons_of_mem
    | (extract_lets +onlyGivenNames x
       first
       | (guard_hyp x : Block := _
          refine Kept.cut (ps := [.side (otherSide sd), .side sd]) (b := b) (x := x) ?_ fun hx => ?_
          on_goal 1 => subst x
          on_goal 2 => try clear_value x)
       | clear_value x
       | skip)
    | with_reducible apply Block.sendSeg_keeps
    | with_reducible apply Block.modSide_keeps
    | with_reducible apply Block.sendCap_keeps
    | with_reducible apply Kept.ite
    | split

theorem Block.forwardCap_keeps {qs : List Piece} {a₀ b : Block} {sd : Side} (inside : Within [.side (otherSide sd), .side sd] qs) (before : Kept qs a₀ b) :
    Kept qs a₀ (Block.forwardCap b sd) := Kept.step (Block.forwardCap_kept _ _) inside before

theorem Block.freshCaps_kept (b : Block) : Kept [.sides] b (Block.freshCaps b) := by
  unfold Block.freshCaps
  repeat' first
    | with_reducible assumption
    | with_reducible apply Kept.refl
    | with_reducible apply Within.refl
    | ((with_reducible apply Within.of); rfl)
    | ((with_reducible apply Within.cons); (apply Piece.inside_of; rfl))
    | ((with_reducible apply Within.cons); apply Or.inr)
    | with_reducible apply Within.nil
    | with_reducible apply List.mem_cons_self
    | with_reducible apply List.mem_cons_of_mem
    | (extract_lets +onlyGivenNames x
       first
       | (guard_hyp x : Block := _
          refine Kept.cut (ps := [.sides]) (b := b) (x := x) ?_ fun hx => ?_
          on_goal 1 => subst x
          on_goal 2 => try clear_value x)
       | (have _t : _ → Block := x; clear _t; subst x; beta_reduce)
       | (have _t : _ → _ := x; clear _t; subst x; beta_reduce)
       | (have _t : _ → _ → Block := x; clear _t; subst x; beta_reduce)
       | (have _t : _ → _ → _ := x; clear _t; subst x; beta_reduce)
       | clear_value x
       | skip)
    | with_reducible apply Block.startCap_keeps
    | with_reducible apply Block.forwardCap_keeps
    | with_reducible apply Kept.ite
    | split

theorem Block.freshCaps_keeps {qs : List Piece} {a₀ b : Block} (inside : Within [.sides] qs) (before : Kept qs a₀ b) :
    Kept qs a₀ (Block.freshCaps b) := Kept.step (Block.freshCaps_kept _) inside before

theorem Block.resizeSide_kept (b : Block) (sd : Side) : Kept [.sides] b (Block.resizeSide b sd) := by
  unfold Block.resizeSide
  repeat' first
    | with_reducible assumption
    | with_reducible apply Kept.refl
    | with_reducible apply Within.refl
    | ((with_reducible apply Within.of); rfl)
    | ((with_reducible apply Within.cons); (apply Piece.inside_of; rfl))
    | ((with_reducible apply Within.cons); apply Or.inr)
    | with_reducible apply Within.nil
    | with_reducible apply List.mem_cons_self
    | with_reducible apply List.mem_cons_of_mem
    | (extract_lets +onlyGivenNames x
       first
       | (guard_hyp x : Block := _
          refine Kept.cut (ps := [.sides]) (b := b) (x := x) ?_ fun hx => ?_
          on_goal 1 => subst x
          on_goal 2 => try clear_value x)
       | clear_value x
       | skip)
    | with_reducible apply Block.freshCaps_keeps
    | with_reducible apply Block.modSide_keeps
    | with_reducible apply Kept.ite
    | split

theorem Block.resizeSide_keeps {qs : List Piece} {a₀ b : Block} {sd : Side} (inside : Within [.sides] qs) (before : Kept qs a₀ b) :
    Kept qs a₀ (Block.resizeSide b sd) := Kept.step (Block.resizeSide_kept _ _) inside before

theorem Block.notePass_kept (b : Block) (l : Nat) (ok : Bool) : Kept [.side (laneSide l)] b (Block.notePass b l ok) := by
  unfold Block.notePass
  repeat' first
    | with_reducible assumption
    | with_reducible apply Kept.refl
    | with_reducible apply Within.refl
    | ((with_reducible apply Within.of); rfl)
    | ((with_reducible apply Within.cons); (apply Piece.inside_of; rfl))
    | ((with_reducible apply Within.cons); apply Or.inr)
    | with_reducible apply Within.nil
    | with_reducible apply List.mem_cons_self
    | with_reducible apply List.mem_cons_of_mem
    | (extract_lets +onlyGivenNames x
       first
       | (guard_hyp x : Block := _
          refine Kept.cut (ps := [.side (laneSide l)]) (b := b) (x := x) ?_ fun hx => ?_
          on_goal 1 => subst x
          on_goal 2 => try clear_value x)
       | clear_value x
       | skip)
    | with_reducible apply Block.modSide_keeps
    | with_reducible apply Kept.ite
    | split

theorem Block.notePass_keeps {qs : List Piece} {a₀ b : Block} {l : Nat} {ok : Bool} (inside : Within [.side (laneSide l)] qs) (before : Kept qs a₀ b) :
    Kept qs a₀ (Block.notePass b l ok) := Kept.step (Block.notePass_kept _ _ _) inside before

theorem Block.sideFails_kept (b : Block) (sd : Side) : Kept [.events, .lanes, .regs, .sides] b (Block.sideFails b sd) := by
  unfold Block.sideFails
  repeat' first
    | with_reducible assumption
    | with_reducible apply Kept.refl
    | with_reducible apply Within.refl
    | ((with_reducible apply Within.of); rfl)
    | ((with_reducible apply Within.cons); (apply Piece.inside_of; rfl))
    | ((with_reducible apply Within.cons); apply Or.inr)
    | with_reducible apply Within.nil
    | with_reducible apply List.mem_cons_self
    | with_reducible apply List.mem_cons_of_mem
    | with_reducible apply Block.freshCaps_keeps
    | with_reducible apply Block.event_keeps
    | with_reducible apply Block.segDown_keeps
    | with_reducible apply Kept.ite
    | split

theorem Block.sideFails_keeps {qs : List Piece} {a₀ b : Block} {sd : Side} (inside : Within [.events, .lanes, .regs, .sides] qs) (before : Kept qs a₀ b) :
    Kept qs a₀ (Block.sideFails b sd) := Kept.step (Block.sideFails_kept _ _) inside before

theorem Block.trainSide_kept (b : Block) (sd : Side) (g : Fin 4) (inLoop : Bool) : Kept [.events, .lanes, .regs, .sides] b (Block.trainSide b sd g inLoop) := by
  unfold Block.trainSide
  repeat' first
    | with_reducible assumption
    | with_reducible apply Kept.refl
    | with_reducible apply Within.refl
    | ((with_reducible apply Within.of); rfl)
    | ((with_reducible apply Within.cons); (apply Piece.inside_of; rfl))
    | ((with_reducible apply Within.cons); apply Or.inr)
    | with_reducible apply Within.nil
    | with_reducible apply List.mem_cons_self
    | with_reducible apply List.mem_cons_of_mem
    | (extract_lets +onlyGivenNames x
       first
       | (guard_hyp x : Block := _
          refine Kept.cut (ps := [.events, .lanes, .regs, .sides]) (b := b) (x := x) ?_ fun hx => ?_
          on_goal 1 => subst x
          on_goal 2 => try clear_value x)
       | clear_value x
       | skip)
    | (with_reducible apply Kept.each; intro _ _ _)
    | with_reducible apply Block.sideFails_keeps
    | with_reducible apply Block.modSide_keeps
    | with_reducible apply Block.leaveRun_keeps
    | with_reducible apply Block.startHunt_keeps
    | with_reducible apply Kept.ite
    | split

theorem Block.trainSide_keeps {qs : List Piece} {a₀ b : Block} {sd : Side} {g : Fin 4} {inLoop : Bool} (inside : Within [.events, .lanes, .regs, .sides] qs) (before : Kept qs a₀ b) :
    Kept qs a₀ (Block.trainSide b sd g inLoop) := Kept.step (Block.trainSide_kept _ _ _ _) inside before

theorem Block.moveNow_kept (b : Block) (sd : Side) (g : Fin 4) (low : Bool) : Kept [.events, .lanes, .regs, .sides] b (Block.moveNow b sd g low) := by
  unfold Block.moveNow
  repeat' first
    | with_reducible assumption
    | with_reducible apply Kept.refl
    | with_reducible apply Within.refl
    | ((with_reducible apply Within.of); rfl)
    | ((with_reducible apply Within.cons); (apply Piece.inside_of; rfl))
    | ((with_reducible apply Within.cons); apply Or.inr)
    | with_reducible apply Within.nil
    | with_reducible apply List.mem_cons_self
    | with_reducible apply List.mem_cons_of_mem
    | with_reducible apply Block.modSide_keeps
    | with_reducible apply Block.trainSide_keeps
    | with_reducible apply Kept.ite
    | split

theorem Block.moveNow_keeps {qs : List Piece} {a₀ b : Block} {sd : Side} {g : Fin 4} {low : Bool} (inside : Within [.events, .lanes, .regs, .sides] qs) (before : Kept qs a₀ b) :
    Kept qs a₀ (Block.moveNow b sd g low) := Kept.step (Block.moveNow_kept _ _ _ _) inside before

theorem Block.moveTo_kept (b : Block) (sd : Side) (g : Fin 4) : Kept [.events, .lanes, .regs, .sides] b (Block.moveTo b sd g) := by
  unfold Block.moveTo
  repeat' first
    | with_reducible assumption
    | with_reducible apply Kept.refl
    | with_reducible apply Within.refl
    | ((with_reducible apply Within.of); rfl)
    | ((with_reducible apply Within.cons); (apply Piece.inside_of; rfl))
    | ((with_reducible apply Within.cons); apply Or.inr)
    | with_reducible apply Within.nil
    | with_reducible apply List.mem_cons_self
    | with_reducible apply List.mem_cons_of_mem
    | with_reducible apply Block.sendSeg_keeps
    | with_reducible apply Block.modSide_keeps
    | with_reducible apply Block.moveNow_keeps
    | with_reducible apply Kept.ite
    | split

theorem Block.moveTo_keeps {qs : List Piece} {a₀ b : Block} {sd : Side} {g : Fin 4} (inside : Within [.events, .lanes, .regs, .sides] qs) (before : Kept qs a₀ b) :
    Kept qs a₀ (Block.moveTo b sd g) := Kept.step (Block.moveTo_kept _ _ _) inside before

theorem Block.moveTaken_kept (b : Block) (sd : Side) : Kept [.events, .lanes, .regs, .sides] b (Block.moveTaken b sd) := by
  unfold Block.moveTaken
  repeat' first
    | with_reducible assumption
    | with_reducible apply Kept.refl
    | with_reducible apply Within.refl
    | ((with_reducible apply Within.of); rfl)
    | ((with_reducible apply Within.cons); (apply Piece.inside_of; rfl))
    | ((with_reducible apply Within.cons); apply Or.inr)
    | with_reducible apply Within.nil
    | with_reducible apply List.mem_cons_self
    | with_reducible apply List.mem_cons_of_mem
    | with_reducible apply Block.moveNow_keeps
    | with_reducible apply Kept.ite
    | split

theorem Block.moveTaken_keeps {qs : List Piece} {a₀ b : Block} {sd : Side} (inside : Within [.events, .lanes, .regs, .sides] qs) (before : Kept qs a₀ b) :
    Kept qs a₀ (Block.moveTaken b sd) := Kept.step (Block.moveTaken_kept _ _) inside before

theorem Block.acceptGrade_kept (b : Block) (sd : Side) (ok : List Nat) : Kept [.lanes, .sides] b (Block.acceptGrade b sd ok) := by
  unfold Block.acceptGrade
  repeat' first
    | with_reducible assumption
    | with_reducible apply Kept.refl
    | with_reducible apply Within.refl
    | ((with_reducible apply Within.of); rfl)
    | ((with_reducible apply Within.cons); (apply Piece.inside_of; rfl))
    | ((with_reducible apply Within.cons); apply Or.inr)
    | with_reducible apply Within.nil
    | with_reducible apply List.mem_cons_self
    | with_reducible apply List.mem_cons_of_mem
    | (extract_lets +onlyGivenNames x
       first
       | (guard_hyp x : Block := _
          refine Kept.cut (ps := [.lanes, .sides]) (b := b) (x := x) ?_ fun hx => ?_
          on_goal 1 => subst x
          on_goal 2 => try clear_value x)
       | clear_value x
       | skip)
    | (with_reducible apply Kept.each; intro _ _ _)
    | with_reducible apply Block.modSide_keeps
    | with_reducible apply Block.modLane_keeps
    | with_reducible apply Block.freshCaps_keeps
    | with_reducible apply Kept.ite
    | split

theorem Block.acceptGrade_keeps {qs : List Piece} {a₀ b : Block} {sd : Side} {ok : List Nat} (inside : Within [.lanes, .sides] qs) (before : Kept qs a₀ b) :
    Kept qs a₀ (Block.acceptGrade b sd ok) := Kept.step (Block.acceptGrade_kept _ _ _) inside before

theorem Block.checkSide_kept (b : Block) (sd : Side) : Kept [.events, .lanes, .regs, .sides] b (Block.checkSide b sd) := by
  unfold Block.checkSide
  repeat' first
    | with_reducible assumption
    | with_reducible apply Kept.refl
    | with_reducible apply Within.refl
    | ((with_reducible apply Within.of); rfl)
    | ((with_reducible apply Within.cons); (apply Piece.inside_of; rfl))
    | ((with_reducible apply Within.cons); apply Or.inr)
    | with_reducible apply Within.nil
    | with_reducible apply List.mem_cons_self
    | with_reducible apply List.mem_cons_of_mem
    | (extract_lets +onlyGivenNames x
       first
       | (guard_hyp x : Block := _
          refine Kept.cut (ps := [.events, .lanes, .regs, .sides]) (b := b) (x := x) ?_ fun hx => ?_
          on_goal 1 => subst x
          on_goal 2 => try clear_value x)
       | clear_value x
       | skip)
    | with_reducible apply Block.acceptGrade_keeps
    | with_reducible apply Block.sideFails_keeps
    | with_reducible apply Block.moveTo_keeps
    | with_reducible apply Kept.ite
    | split

theorem Block.checkSide_keeps {qs : List Piece} {a₀ b : Block} {sd : Side} (inside : Within [.events, .lanes, .regs, .sides] qs) (before : Kept qs a₀ b) :
    Kept qs a₀ (Block.checkSide b sd) := Kept.step (Block.checkSide_kept _ _) inside before

theorem Block.warmSide_kept (b : Block) (sd : Side) : Kept [.lanes, .regs, .side sd] b (Block.warmSide b sd) := by
  unfold Block.warmSide
  repeat' first
    | with_reducible assumption
    | with_reducible apply Kept.refl
    | with_reducible apply Within.refl
    | ((with_reducible apply Within.of); rfl)
    | ((with_reducible apply Within.cons); (apply Piece.inside_of; rfl))
    | ((with_reducible apply Within.cons); apply Or.inr)
    | with_reducible apply Within.nil
    | with_reducible apply List.mem_cons_self
    | with_reducible apply List.mem_cons_of_mem
    | (extract_lets +onlyGivenNames x
       first
       | (guard_hyp x : Block := _
          refine Kept.cut (ps := [.lanes, .regs, .side sd]) (b := b) (x := x) ?_ fun hx => ?_
          on_goal 1 => subst x
          on_goal 2 => try clear_value x)
       | clear_value x
       | skip)
    | (with_reducible apply Kept.each; intro _ _ _)
    | with_reducible apply Block.modSide_keeps
    | with_reducible apply Block.leaveRun_keeps
    | with_reducible apply Block.modLane_keeps
    | with_reducible apply Block.startHunt_keeps
    | with_reducible apply Kept.ite
    | split

theorem Block.warmSide_keeps {qs : List Piece} {a₀ b : Block} {sd : Side} (inside : Within [.lanes, .regs, .side sd] qs) (before : Kept qs a₀ b) :
    Kept qs a₀ (Block.warmSide b sd) := Kept.step (Block.warmSide_kept _ _) inside before

theorem Block.askReform_kept (b : Block) (sd : Side) (m : BitVec 16) : Kept [.lanes, .regs, .side sd] b (Block.askReform b sd m) := by
  unfold Block.askReform
  repeat' first
    | with_reducible assumption
    | with_reducible apply Kept.refl
    | with_reducible apply Within.refl
    | ((with_reducible apply Within.of); rfl)
    | ((with_reducible apply Within.cons); (apply Piece.inside_of; rfl))
    | ((with_reducible apply Within.cons); apply Or.inr)
    | with_reducible apply Within.nil
    | with_reducible apply List.mem_cons_self
    | with_reducible apply List.mem_cons_of_mem
    | with_reducible apply Block.warmSide_keeps
    | with_reducible apply Block.sendSeg_keeps
    | with_reducible apply Block.modSide_keeps
    | with_reducible apply Kept.ite
    | split

theorem Block.askReform_keeps {qs : List Piece} {a₀ b : Block} {sd : Side} {m : BitVec 16} (inside : Within [.lanes, .regs, .side sd] qs) (before : Kept qs a₀ b) :
    Kept qs a₀ (Block.askReform b sd m) := Kept.step (Block.askReform_kept _ _ _) inside before

theorem Block.dropLane_kept (b : Block) (l : Nat) : Kept [.lanes, .regs, .sides] b (Block.dropLane b l) := by
  unfold Block.dropLane
  repeat' first
    | with_reducible assumption
    | with_reducible apply Kept.refl
    | with_reducible apply Within.refl
    | ((with_reducible apply Within.of); rfl)
    | ((with_reducible apply Within.cons); (apply Piece.inside_of; rfl))
    | ((with_reducible apply Within.cons); apply Or.inr)
    | with_reducible apply Within.nil
    | with_reducible apply List.mem_cons_self
    | with_reducible apply List.mem_cons_of_mem
    | (extract_lets +onlyGivenNames x
       first
       | (guard_hyp x : Block := _
          refine Kept.cut (ps := [.lanes, .regs, .sides]) (b := b) (x := x) ?_ fun hx => ?_
          on_goal 1 => subst x
          on_goal 2 => try clear_value x)
       | clear_value x
       | skip)
    | with_reducible apply Block.askReform_keeps
    | with_reducible apply Block.notePass_keeps
    | with_reducible apply Kept.ite
    | split

theorem Block.dropLane_keeps {qs : List Piece} {a₀ b : Block} {l : Nat} (inside : Within [.lanes, .regs, .sides] qs) (before : Kept qs a₀ b) :
    Kept qs a₀ (Block.dropLane b l) := Kept.step (Block.dropLane_kept _ _) inside before

theorem Block.checkWarm_kept (b : Block) (sd : Side) : Kept [.events, .lanes, .regs, .sides] b (Block.checkWarm b sd) := by
  unfold Block.checkWarm
  repeat' first
    | with_reducible assumption
    | with_reducible apply Kept.refl
    | with_reducible apply Within.refl
    | ((with_reducible apply Within.of); rfl)
    | ((with_reducible apply Within.cons); (apply Piece.inside_of; rfl))
    | ((with_reducible apply Within.cons); apply Or.inr)
    | with_reducible apply Within.nil
    | with_reducible apply List.mem_cons_self
    | with_reducible apply List.mem_cons_of_mem
    | (extract_lets +onlyGivenNames x
       first
       | (guard_hyp x : Block := _
          refine Kept.cut (ps := [.events, .lanes, .regs, .sides]) (b := b) (x := x) ?_ fun hx => ?_
          on_goal 1 => subst x
          on_goal 2 => try clear_value x)
       | clear_value x
       | skip)
    | with_reducible apply Block.trainSide_keeps
    | with_reducible apply Block.acceptGrade_keeps
    | with_reducible apply Kept.ite
    | split

theorem Block.checkWarm_keeps {qs : List Piece} {a₀ b : Block} {sd : Side} (inside : Within [.events, .lanes, .regs, .sides] qs) (before : Kept qs a₀ b) :
    Kept qs a₀ (Block.checkWarm b sd) := Kept.step (Block.checkWarm_kept _ _) inside before

theorem Block.warmFail_kept (b : Block) (l : Nat) : Kept [.events, .lanes, .regs, .sides] b (Block.warmFail b l) := by
  unfold Block.warmFail
  repeat' first
    | with_reducible assumption
    | with_reducible apply Kept.refl
    | with_reducible apply Within.refl
    | ((with_reducible apply Within.of); rfl)
    | ((with_reducible apply Within.cons); (apply Piece.inside_of; rfl))
    | ((with_reducible apply Within.cons); apply Or.inr)
    | with_reducible apply Within.nil
    | with_reducible apply List.mem_cons_self
    | with_reducible apply List.mem_cons_of_mem
    | (extract_lets +onlyGivenNames x
       first
       | (guard_hyp x : Block := _
          refine Kept.cut (ps := [.events, .lanes, .regs, .sides]) (b := b) (x := x) ?_ fun hx => ?_
          on_goal 1 => subst x
          on_goal 2 => try clear_value x)
       | clear_value x
       | skip)
    | with_reducible apply Block.modLane_keeps
    | with_reducible apply Block.startHunt_keeps
    | with_reducible apply Block.notePass_keeps
    | with_reducible apply Block.event_keeps
    | with_reducible apply Block.resizeSide_keeps
    | with_reducible apply Block.checkWarm_keeps
    | with_reducible apply Kept.ite
    | split

theorem Block.warmFail_keeps {qs : List Piece} {a₀ b : Block} {l : Nat} (inside : Within [.events, .lanes, .regs, .sides] qs) (before : Kept qs a₀ b) :
    Kept qs a₀ (Block.warmFail b l) := Kept.step (Block.warmFail_kept _ _) inside before

theorem Block.rejoin_kept (b : Block) (l : Nat) : Kept [.lanes, .regs, .sides] b (Block.rejoin b l) := by
  unfold Block.rejoin
  repeat' first
    | with_reducible assumption
    | with_reducible apply Kept.refl
    | with_reducible apply Within.refl
    | ((with_reducible apply Within.of); rfl)
    | ((with_reducible apply Within.cons); (apply Piece.inside_of; rfl))
    | ((with_reducible apply Within.cons); apply Or.inr)
    | with_reducible apply Within.nil
    | with_reducible apply List.mem_cons_self
    | with_reducible apply List.mem_cons_of_mem
    | (extract_lets +onlyGivenNames x
       first
       | (guard_hyp x : Block := _
          refine Kept.cut (ps := [.lanes, .regs, .sides]) (b := b) (x := x) ?_ fun hx => ?_
          on_goal 1 => subst x
          on_goal 2 => try clear_value x)
       | clear_value x
       | skip)
    | with_reducible apply Block.modLane_keeps
    | with_reducible apply Block.resizeSide_keeps
    | with_reducible apply Block.notePass_keeps
    | with_reducible apply Block.askReform_keeps
    | with_reducible apply Kept.ite
    | split

theorem Block.rejoin_keeps {qs : List Piece} {a₀ b : Block} {l : Nat} (inside : Within [.lanes, .regs, .sides] qs) (before : Kept qs a₀ b) :
    Kept qs a₀ (Block.rejoin b l) := Kept.step (Block.rejoin_kept _ _) inside before

theorem Block.passesBeside_kept (b : Block) (l : Nat) : Kept [.lane l, .sides] b (Block.passesBeside b l) := by
  unfold Block.passesBeside
  repeat' first
    | with_reducible assumption
    | with_reducible apply Kept.refl
    | with_reducible apply Within.refl
    | ((with_reducible apply Within.of); rfl)
    | ((with_reducible apply Within.cons); (apply Piece.inside_of; rfl))
    | ((with_reducible apply Within.cons); apply Or.inr)
    | with_reducible apply Within.nil
    | with_reducible apply List.mem_cons_self
    | with_reducible apply List.mem_cons_of_mem
    | with_reducible apply Block.resizeSide_keeps
    | with_reducible apply Block.notePass_keeps
    | with_reducible apply Block.modLane_keeps
    | with_reducible apply Kept.ite
    | split

theorem Block.passesBeside_keeps {qs : List Piece} {a₀ b : Block} {l : Nat} (inside : Within [.lane l, .sides] qs) (before : Kept qs a₀ b) :
    Kept qs a₀ (Block.passesBeside b l) := Kept.step (Block.passesBeside_kept _ _) inside before

theorem Block.laneOutcome_kept (b : Block) (l : Nat) : Kept [.events, .lanes, .regs, .sides] b (Block.laneOutcome b l) := by
  unfold Block.laneOutcome
  repeat' first
    | with_reducible assumption
    | with_reducible apply Kept.refl
    | with_reducible apply Within.refl
    | ((with_reducible apply Within.of); rfl)
    | ((with_reducible apply Within.cons); (apply Piece.inside_of; rfl))
    | ((with_reducible apply Within.cons); apply Or.inr)
    | with_reducible apply Within.nil
    | with_reducible apply List.mem_cons_self
    | with_reducible apply List.mem_cons_of_mem
    | (extract_lets +onlyGivenNames x
       first
       | (guard_hyp x : Block := _
          refine Kept.cut (ps := [.events, .lanes, .regs, .sides]) (b := b) (x := x) ?_ fun hx => ?_
          on_goal 1 => subst x
          on_goal 2 => try clear_value x)
       | clear_value x
       | skip)
    | with_reducible apply Block.passesBeside_keeps
    | with_reducible apply Block.warmFail_keeps
    | with_reducible apply Block.checkWarm_keeps
    | with_reducible apply Block.modLane_keeps
    | with_reducible apply Block.rejoin_keeps
    | with_reducible apply Block.checkSide_keeps
    | with_reducible apply Kept.ite
    | split

theorem Block.laneOutcome_keeps {qs : List Piece} {a₀ b : Block} {l : Nat} (inside : Within [.events, .lanes, .regs, .sides] qs) (before : Kept qs a₀ b) :
    Kept qs a₀ (Block.laneOutcome b l) := Kept.step (Block.laneOutcome_kept _ _) inside before

theorem Block.tryAsk_kept (b : Block) (sd : Side) : Kept [.side sd] b (Block.tryAsk b sd) := by
  unfold Block.tryAsk
  repeat' first
    | with_reducible assumption
    | with_reducible apply Kept.refl
    | with_reducible apply Within.refl
    | ((with_reducible apply Within.of); rfl)
    | ((with_reducible apply Within.cons); (apply Piece.inside_of; rfl))
    | ((with_reducible apply Within.cons); apply Or.inr)
    | with_reducible apply Within.nil
    | with_reducible apply List.mem_cons_self
    | with_reducible apply List.mem_cons_of_mem
    | (extract_lets +onlyGivenNames x
       first
       | (guard_hyp x : Block := _
          refine Kept.cut (ps := [.side sd]) (b := b) (x := x) ?_ fun hx => ?_
          on_goal 1 => subst x
          on_goal 2 => try clear_value x)
       | clear_value x
       | skip)
    | with_reducible apply Block.sendSeg_keeps
    | with_reducible apply Block.modSide_keeps
    | with_reducible apply Kept.ite
    | split

theorem Block.tryAsk_keeps {qs : List Piece} {a₀ b : Block} {sd : Side} (inside : Within [.side sd] qs) (before : Kept qs a₀ b) :
    Kept qs a₀ (Block.tryAsk b sd) := Kept.step (Block.tryAsk_kept _ _) inside before

theorem Block.askWindow_kept (b : Block) (sd : Side) : Kept [.side sd] b (Block.askWindow b sd) := by
  unfold Block.askWindow
  repeat' first
    | with_reducible assumption
    | with_reducible apply Kept.refl
    | with_reducible apply Within.refl
    | ((with_reducible apply Within.of); rfl)
    | ((with_reducible apply Within.cons); (apply Piece.inside_of; rfl))
    | ((with_reducible apply Within.cons); apply Or.inr)
    | with_reducible apply Within.nil
    | with_reducible apply List.mem_cons_self
    | with_reducible apply List.mem_cons_of_mem
    | with_reducible apply Block.tryAsk_keeps
    | with_reducible apply Block.modSide_keeps
    | with_reducible apply Kept.ite
    | split

theorem Block.askWindow_keeps {qs : List Piece} {a₀ b : Block} {sd : Side} (inside : Within [.side sd] qs) (before : Kept qs a₀ b) :
    Kept qs a₀ (Block.askWindow b sd) := Kept.step (Block.askWindow_kept _ _) inside before

theorem Block.grantWindow_kept (b : Block) (sd : Side) : Kept [.side sd] b (Block.grantWindow b sd) := by
  unfold Block.grantWindow
  repeat' first
    | with_reducible assumption
    | with_reducible apply Kept.refl
    | with_reducible apply Within.refl
    | ((with_reducible apply Within.of); rfl)
    | ((with_reducible apply Within.cons); (apply Piece.inside_of; rfl))
    | ((with_reducible apply Within.cons); apply Or.inr)
    | with_reducible apply Within.nil
    | with_reducible apply List.mem_cons_self
    | with_reducible apply List.mem_cons_of_mem
    | with_reducible apply Block.sendSeg_keeps
    | with_reducible apply Block.modSide_keeps
    | with_reducible apply Kept.ite
    | split

theorem Block.grantWindow_keeps {qs : List Piece} {a₀ b : Block} {sd : Side} (inside : Within [.side sd] qs) (before : Kept qs a₀ b) :
    Kept qs a₀ (Block.grantWindow b sd) := Kept.step (Block.grantWindow_kept _ _) inside before

end Sys2Proof.Machine
end

