-- ==== Sys2Proof/Laws/FramesQuay.lean ====
section
/-! SUPPORT. The frames of tallies, tags, requests and receipts: for each operation what it can change at most (`_kept`), and the same as a step of a
longer frame (`_keeps`). -/

namespace Sys2Proof.Machine

open Sys2Proof
set_option linter.all false
set_option Elab.async false

theorem Block.setTallyBlk_kept (b : Block) (n : Nat) (t : Tally) : Kept [.tl] b (Block.setTallyBlk b n t) := by
  unfold Block.setTallyBlk
  repeat' first
    | with_reducible assumption
    | with_reducible apply Kept.refl
    | with_reducible apply Within.refl
    | ((with_reducible apply Within.of); rfl)
    | ((with_reducible apply Within.cons); (apply Piece.inside_of; rfl))
    | ((with_reducible apply Within.cons); apply Or.inr)
    | with_reducible apply Within.nil
    | with_reducible apply List.mem_cons_self
    | with_reducible apply List.mem_cons_of_mem
    | (extract_lets +onlyGivenNames x
       first
       | (guard_hyp x : Block := _
          refine Kept.cut (ps := [.tl]) (b := b) (x := x) ?_ fun hx => ?_
          on_goal 1 => subst x
          on_goal 2 => try clear_value x)
       | clear_value x
       | skip)
    | (simp only [Kept.by_fields]; with_reducible apply Kept.fields <;>
         first | with_reducible exact Or.inl rfl | (apply Or.inr; apply Piece.mem_of; rfl) | exact Or.inr (by simp; done) | (refine Or.inr ⟨?_, ?_⟩ <;> first | (apply Or.inl; apply Piece.mem_of; rfl) | exact Or.inl (by simp; done) | with_reducible exact Or.inr rfl | with_reducible exact Or.inr ⟨rfl, rfl, rfl, rfl⟩ | with_reducible exact Or.inr ⟨rfl, rfl, rfl, rfl, rfl⟩ | (refine ⟨?_, ?_⟩ <;> first | (apply Or.inl; apply Piece.mem_of; rfl) | exact Or.inl (by simp; done) | with_reducible exact Or.inr rfl)) | skip)

theorem Block.setTallyBlk_keeps {qs : List Piece} {a₀ b : Block} {n : Nat} {t : Tally} (inside : Within [.tl] qs) (before : Kept qs a₀ b) :
    Kept qs a₀ (Block.setTallyBlk b n t) := Kept.step (Block.setTallyBlk_kept _ _ _) inside before

theorem Block.addCount_kept (b : Block) (blk : Nat) (i : Nat) (n : Nat) : Kept [.reg (tlOff Off.tlOvf blk), .tl] b (Block.addCount b blk i n) := by
  unfold Block.addCount
  repeat' first
    | with_reducible assumption
    | with_reducible apply Kept.refl
    | with_reducible apply Within.refl
    | ((with_reducible apply Within.of); rfl)
    | ((with_reducible apply Within.cons); (apply Piece.inside_of; rfl))
    | ((with_reducible apply Within.cons); apply Or.inr)
    | with_reducible apply Within.nil
    | with_reducible apply List.mem_cons_self
    | with_reducible apply List.mem_cons_of_mem
    | (extract_lets +onlyGivenNames x
       first
       | (guard_hyp x : Block := _
          refine Kept.cut (ps := [.reg (tlOff Off.tlOvf blk), .tl]) (b := b) (x := x) ?_ fun hx => ?_
          on_goal 1 => subst x
          on_goal 2 => try clear_value x)
       | clear_value x
       | skip)
    | (simp only [Kept.by_fields]; with_reducible apply Kept.fields <;>
         first | with_reducible exact Or.inl rfl | (apply Or.inr; apply Piece.mem_of; rfl) | exact Or.inr (by simp; done) | (refine Or.inr ⟨?_, ?_⟩ <;> first | (apply Or.inl; apply Piece.mem_of; rfl) | exact Or.inl (by simp; done) | with_reducible exact Or.inr rfl | with_reducible exact Or.inr ⟨rfl, rfl, rfl, rfl⟩ | with_reducible exact Or.inr ⟨rfl, rfl, rfl, rfl, rfl⟩ | (refine ⟨?_, ?_⟩ <;> first | (apply Or.inl; apply Piece.mem_of; rfl) | exact Or.inl (by simp; done) | with_reducible exact Or.inr rfl)) | skip)
    | with_reducible apply Block.setTallyBlk_keeps
    | with_reducible apply Block.orReg_keeps
    | with_reducible apply Kept.ite
    | split

theorem Block.addCount_keeps {qs : List Piece} {a₀ b : Block} {blk : Nat} {i : Nat} {n : Nat} (inside : Within [.reg (tlOff Off.tlOvf blk), .tl] qs) (before : Kept qs a₀ b) :
    Kept qs a₀ (Block.addCount b blk i n) := Kept.step (Block.addCount_kept _ _ _ _) inside before

theorem Block.tally_kept (b : Block) (blk : Nat) (ev : Nat) (fs : List Nat) (n : Nat) : Kept [.reg (tlOff Off.tlOvf blk), .tl] b (Block.tally b blk ev fs n) := by
  unfold Block.tally
  repeat' first
    | with_reducible assumption
    | with_reducible apply Kept.refl
    | with_reducible apply Within.refl
    | ((with_reducible apply Within.of); rfl)
    | ((with_reducible apply Within.cons); (apply Piece.inside_of; rfl))
    | ((with_reducible apply Within.cons); apply Or.inr)
    | with_reducible apply Within.nil
    | with_reducible apply List.mem_cons_self
    | with_reducible apply List.mem_cons_of_mem
    | (extract_lets +onlyGivenNames x
       first
       | (guard_hyp x : Block := _
          refine Kept.cut (ps := [.reg (tlOff Off.tlOvf blk), .tl]) (b := b) (x := x) ?_ fun hx => ?_
          on_goal 1 => subst x
          on_goal 2 => try clear_value x)
       | clear_value x
       | skip)
    | (with_reducible apply Kept.each; intro _ _ _)
    | with_reducible apply Block.addCount_keeps
    | with_reducible apply Kept.ite
    | split

theorem Block.tally_keeps {qs : List Piece} {a₀ b : Block} {blk : Nat} {ev : Nat} {fs : List Nat} {n : Nat} (inside : Within [.reg (tlOff Off.tlOvf blk), .tl] qs) (before : Kept qs a₀ b) :
    Kept qs a₀ (Block.tally b blk ev fs n) := Kept.step (Block.tally_kept _ _ _ _ _) inside before

theorem Block.portBytes_kept (b : Block) (port : Nat) (n : Nat) : Kept [.tl] b (Block.portBytes b port n) := by
  unfold Block.portBytes
  repeat' first
    | with_reducible assumption
    | with_reducible apply Kept.refl
    | with_reducible apply Within.refl
    | ((with_reducible apply Within.of); rfl)
    | ((with_reducible apply Within.cons); (apply Piece.inside_of; rfl))
    | ((with_reducible apply Within.cons); apply Or.inr)
    | with_reducible apply Within.nil
    | with_reducible apply List.mem_cons_self
    | with_reducible apply List.mem_cons_of_mem
    | (extract_lets +onlyGivenNames x
       first
       | (guard_hyp x : Block := _
          refine Kept.cut (ps := [.tl]) (b := b) (x := x) ?_ fun hx => ?_
          on_goal 1 => subst x
          on_goal 2 => try clear_value x)
       | clear_value x
       | skip)
    | (simp only [Kept.by_fields]; with_reducible apply Kept.fields <;>
         first | with_reducible exact Or.inl rfl | (apply Or.inr; apply Piece.mem_of; rfl) | exact Or.inr (by simp; done) | (refine Or.inr ⟨?_, ?_⟩ <;> first | (apply Or.inl; apply Piece.mem_of; rfl) | exact Or.inl (by simp; done) | with_reducible exact Or.inr rfl | with_reducible exact Or.inr ⟨rfl, rfl, rfl, rfl⟩ | with_reducible exact Or.inr ⟨rfl, rfl, rfl, rfl, rfl⟩ | (refine ⟨?_, ?_⟩ <;> first | (apply Or.inl; apply Piece.mem_of; rfl) | exact Or.inl (by simp; done) | with_reducible exact Or.inr rfl)) | skip)

theorem Block.portBytes_keeps {qs : List Piece} {a₀ b : Block} {port : Nat} {n : Nat} (inside : Within [.tl] qs) (before : Kept qs a₀ b) :
    Kept qs a₀ (Block.portBytes b port n) := Kept.step (Block.portBytes_kept _ _ _) inside before

theorem Block.noteTags_kept (b : Block) : Kept [.reg Off.qyTags] b (Block.noteTags b) := by
  unfold Block.noteTags
  repeat' first
    | with_reducible assumption
    | with_reducible apply Kept.refl
    | with_reducible apply Within.refl
    | ((with_reducible apply Within.of); rfl)
    | ((with_reducible apply Within.cons); (apply Piece.inside_of; rfl))
    | ((with_reducible apply Within.cons); apply Or.inr)
    | with_reducible apply Within.nil
    | with_reducible apply List.mem_cons_self
    | with_reducible apply List.mem_cons_of_mem
    | (extract_lets +onlyGivenNames x
       first
       | (guard_hyp x : Block := _
          refine Kept.cut (ps := [.reg Off.qyTags]) (b := b) (x := x) ?_ fun hx => ?_
          on_goal 1 => subst x
          on_goal 2 => try clear_value x)
       | clear_value x
       | skip)
    | with_reducible apply Block.setReg_keeps
    | with_reducible apply Kept.ite
    | split

theorem Block.noteTags_keeps {qs : List Piece} {a₀ b : Block} (inside : Within [.reg Off.qyTags] qs) (before : Kept qs a₀ b) :
    Kept qs a₀ (Block.noteTags b) := Kept.step (Block.noteTags_kept _) inside before

theorem Block.noteLow_kept (b : Block) (sd : Side) : Kept [.side sd] b (Block.noteLow b sd) := by
  unfold Block.noteLow
  repeat' first
    | with_reducible assumption
    | with_reducible apply Kept.refl
    | with_reducible apply Within.refl
    | ((with_reducible apply Within.of); rfl)
    | ((with_reducible apply Within.cons); (apply Piece.inside_of; rfl))
    | ((with_reducible apply Within.cons); apply Or.inr)
    | with_reducible apply Within.nil
    | with_reducible apply List.mem_cons_self
    | with_reducible apply List.mem_cons_of_mem
    | (extract_lets +onlyGivenNames x
       first
       | (guard_hyp x : Block := _
          refine Kept.cut (ps := [.side sd]) (b := b) (x := x) ?_ fun hx => ?_
          on_goal 1 => subst x
          on_goal 2 => try clear_value x)
       | (guard_hyp x : Clocks := _; subst x)
       | clear_value x
       | skip)
    | (simp only [Kept.by_fields]; with_reducible apply Kept.fields <;>
         first | with_reducible exact Or.inl rfl | (apply Or.inr; apply Piece.mem_of; rfl) | exact Or.inr (by simp; done) | (refine Or.inr ⟨?_, ?_⟩ <;> first | (apply Or.inl; apply Piece.mem_of; rfl) | exact Or.inl (by simp; done) | with_reducible exact Or.inr rfl | with_reducible exact Or.inr ⟨rfl, rfl, rfl, rfl⟩ | with_reducible exact Or.inr ⟨rfl, rfl, rfl, rfl, rfl⟩ | (refine ⟨?_, ?_⟩ <;> first | (apply Or.inl; apply Piece.mem_of; rfl) | exact Or.inl (by simp; done) | with_reducible exact Or.inr rfl)) | skip)
    | with_reducible apply Block.modSide_keeps
    | with_reducible apply Kept.ite
    | split

theorem Block.noteLow_keeps {qs : List Piece} {a₀ b : Block} {sd : Side} (inside : Within [.side sd] qs) (before : Kept qs a₀ b) :
    Kept qs a₀ (Block.noteLow b sd) := Kept.step (Block.noteLow_kept _ _) inside before

theorem Block.setBal_kept (b : Block) (sd : Side) (v : Int) : Kept [.side sd] b (Block.setBal b sd v) := by
  unfold Block.setBal
  repeat' first
    | with_reducible assumption
    | with_reducible apply Kept.refl
    | with_reducible apply Within.refl
    | ((with_reducible apply Within.of); rfl)
    | ((with_reducible apply Within.cons); (apply Piece.inside_of; rfl))
    | ((with_reducible apply Within.cons); apply Or.inr)
    | with_reducible apply Within.nil
    | with_reducible apply List.mem_cons_self
    | with_reducible apply List.mem_cons_of_mem
    | (simp only [Kept.by_fields]; with_reducible apply Kept.fields <;>
         first | with_reducible exact Or.inl rfl | (apply Or.inr; apply Piece.mem_of; rfl) | exact Or.inr (by simp; done) | (refine Or.inr ⟨?_, ?_⟩ <;> first | (apply Or.inl; apply Piece.mem_of; rfl) | exact Or.inl (by simp; done) | with_reducible exact Or.inr rfl | with_reducible exact Or.inr ⟨rfl, rfl, rfl, rfl⟩ | with_reducible exact Or.inr ⟨rfl, rfl, rfl, rfl, rfl⟩ | (refine ⟨?_, ?_⟩ <;> first | (apply Or.inl; apply Piece.mem_of; rfl) | exact Or.inl (by simp; done) | with_reducible exact Or.inr rfl)) | skip)
    | with_reducible apply Block.modSide_keeps
    | with_reducible apply Block.noteLow_keeps

theorem Block.setBal_keeps {qs : List Piece} {a₀ b : Block} {sd : Side} {v : Int} (inside : Within [.side sd] qs) (before : Kept qs a₀ b) :
    Kept qs a₀ (Block.setBal b sd v) := Kept.step (Block.setBal_kept _ _ _) inside before

theorem Block.addCredit_kept (b : Block) (sd : Side) (n : Nat) : Kept [.side sd] b (Block.addCredit b sd n) := by
  unfold Block.addCredit
  repeat' first
    | with_reducible assumption
    | with_reducible apply Kept.refl
    | with_reducible apply Within.refl
    | ((with_reducible apply Within.of); rfl)
    | ((with_reducible apply Within.cons); (apply Piece.inside_of; rfl))
    | ((with_reducible apply Within.cons); apply Or.inr)
    | with_reducible apply Within.nil
    | with_reducible apply List.mem_cons_self
    | with_reducible apply List.mem_cons_of_mem
    | (extract_lets +onlyGivenNames x
       first
       | (guard_hyp x : Block := _
          refine Kept.cut (ps := [.side sd]) (b := b) (x := x) ?_ fun hx => ?_
          on_goal 1 => subst x
          on_goal 2 => try clear_value x)
       | clear_value x
       | skip)
    | with_reducible apply Block.setBal_keeps
    | with_reducible apply Kept.ite
    | split

theorem Block.addCredit_keeps {qs : List Piece} {a₀ b : Block} {sd : Side} {n : Nat} (inside : Within [.side sd] qs) (before : Kept qs a₀ b) :
    Kept qs a₀ (Block.addCredit b sd n) := Kept.step (Block.addCredit_kept _ _ _) inside before

theorem Block.grantBal_kept (b : Block) (sd : Side) (oldUnits : Nat) (newUnits : Nat) : Kept [.side sd] b (Block.grantBal b sd oldUnits newUnits) := by
  unfold Block.grantBal
  repeat' first
    | with_reducible assumption
    | with_reducible apply Kept.refl
    | with_reducible apply Within.refl
    | ((with_reducible apply Within.of); rfl)
    | ((with_reducible apply Within.cons); (apply Piece.inside_of; rfl))
    | ((with_reducible apply Within.cons); apply Or.inr)
    | with_reducible apply Within.nil
    | with_reducible apply List.mem_cons_self
    | with_reducible apply List.mem_cons_of_mem
    | (extract_lets +onlyGivenNames x
       first
       | (guard_hyp x : Block := _
          refine Kept.cut (ps := [.side sd]) (b := b) (x := x) ?_ fun hx => ?_
          on_goal 1 => subst x
          on_goal 2 => try clear_value x)
       | clear_value x
       | skip)
    | (simp only [Kept.by_fields]; with_reducible apply Kept.fields <;>
         first | with_reducible exact Or.inl rfl | (apply Or.inr; apply Piece.mem_of; rfl) | exact Or.inr (by simp; done) | (refine Or.inr ⟨?_, ?_⟩ <;> first | (apply Or.inl; apply Piece.mem_of; rfl) | exact Or.inl (by simp; done) | with_reducible exact Or.inr rfl | with_reducible exact Or.inr ⟨rfl, rfl, rfl, rfl⟩ | with_reducible exact Or.inr ⟨rfl, rfl, rfl, rfl, rfl⟩ | (refine ⟨?_, ?_⟩ <;> first | (apply Or.inl; apply Piece.mem_of; rfl) | exact Or.inl (by simp; done) | with_reducible exact Or.inr rfl)) | skip)
    | with_reducible apply Block.setBal_keeps
    | with_reducible apply Block.modSide_keeps
    | with_reducible apply Kept.ite
    | split

theorem Block.grantBal_keeps {qs : List Piece} {a₀ b : Block} {sd : Side} {oldUnits : Nat} {newUnits : Nat} (inside : Within [.side sd] qs) (before : Kept qs a₀ b) :
    Kept qs a₀ (Block.grantBal b sd oldUnits newUnits) := Kept.step (Block.grantBal_kept _ _ _ _) inside before

theorem Block.cplDiscard_kept (b : Block) (sd : Side) : Kept [.count Off.qyCplDiscardLo, .events, .reg Off.lgAlarm] b (Block.cplDiscard b sd) := by
  unfold Block.cplDiscard
  repeat' first
    | with_reducible assumption
    | with_reducible apply Kept.refl
    | with_reducible apply Within.refl
    | ((with_reducible apply Within.of); rfl)
    | ((with_reducible apply Within.cons); (apply Piece.inside_of; rfl))
    | ((with_reducible apply Within.cons); apply Or.inr)
    | with_reducible apply Within.nil
    | with_reducible apply List.mem_cons_self
    | with_reducible apply List.mem_cons_of_mem
    | with_reducible apply Block.bump_keeps
    | with_reducible apply Block.event_keeps

theorem Block.cplDiscard_keeps {qs : List Piece} {a₀ b : Block} {sd : Side} (inside : Within [.count Off.qyCplDiscardLo, .events, .reg Off.lgAlarm] qs) (before : Kept qs a₀ b) :
    Kept qs a₀ (Block.cplDiscard b sd) := Kept.step (Block.cplDiscard_kept _ _) inside before

theorem Block.putIns_kept (b : Block) (i : Ins) : Kept [.count Off.qyCplDiscardLo, .events, .ins, .reg Off.lgAlarm] b (Block.putIns b i) := by
  unfold Block.putIns
  repeat' first
    | with_reducible assumption
    | with_reducible apply Kept.refl
    | with_reducible apply Within.refl
    | ((with_reducible apply Within.of); rfl)
    | ((with_reducible apply Within.cons); (apply Piece.inside_of; rfl))
    | ((with_reducible apply Within.cons); apply Or.inr)
    | with_reducible apply Within.nil
    | with_reducible apply List.mem_cons_self
    | with_reducible apply List.mem_cons_of_mem
    | (extract_lets +onlyGivenNames x
       first
       | (guard_hyp x : Block := _
          refine Kept.cut (ps := [.count Off.qyCplDiscardLo, .events, .ins, .reg Off.lgAlarm]) (b := b) (x := x) ?_ fun hx => ?_
          on_goal 1 => subst x
          on_goal 2 => try clear_value x)
       | (guard_hyp x : Quay := _; subst x)
       | clear_value x
       | skip)
    | (simp only [Kept.by_fields]; with_reducible apply Kept.fields <;>
         first | with_reducible exact Or.inl rfl | (apply Or.inr; apply Piece.mem_of; rfl) | exact Or.inr (by simp; done) | (refine Or.inr ⟨?_, ?_⟩ <;> first | (apply Or.inl; apply Piece.mem_of; rfl) | exact Or.inl (by simp; done) | with_reducible exact Or.inr rfl | with_reducible exact Or.inr ⟨rfl, rfl, rfl, rfl⟩ | with_reducible exact Or.inr ⟨rfl, rfl, rfl, rfl, rfl⟩ | (refine ⟨?_, ?_⟩ <;> first | (apply Or.inl; apply Piece.mem_of; rfl) | exact Or.inl (by simp; done) | with_reducible exact Or.inr rfl)) | skip)
    | with_reducible apply Block.cplDiscard_keeps
    | with_reducible apply Kept.ite
    | split

theorem Block.putIns_keeps {qs : List Piece} {a₀ b : Block} {i : Ins} (inside : Within [.count Off.qyCplDiscardLo, .events, .ins, .reg Off.lgAlarm] qs) (before : Kept qs a₀ b) :
    Kept qs a₀ (Block.putIns b i) := Kept.step (Block.putIns_kept _ _) inside before

theorem Block.dropReq_kept (b : Block) (id : Nat) : Kept [.qy] b (Block.dropReq b id) := by
  unfold Block.dropReq
  repeat' first
    | with_reducible assumption
    | with_reducible apply Kept.refl
    | with_reducible apply Within.refl
    | ((with_reducible apply Within.of); rfl)
    | ((with_reducible apply Within.cons); (apply Piece.inside_of; rfl))
    | ((with_reducible apply Within.cons); apply Or.inr)
    | with_reducible apply Within.nil
    | with_reducible apply List.mem_cons_self
    | with_reducible apply List.mem_cons_of_mem
    | (extract_lets +onlyGivenNames x
       first
       | (guard_hyp x : Block := _
          refine Kept.cut (ps := [.qy]) (b := b) (x := x) ?_ fun hx => ?_
          on_goal 1 => subst x
          on_goal 2 => try clear_value x)
       | (guard_hyp x : Quay := _; subst x)
       | clear_value x
       | skip)
    | (simp only [Kept.by_fields]; with_reducible apply Kept.fields <;>
         first | with_reducible exact Or.inl rfl | (apply Or.inr; apply Piece.mem_of; rfl) | exact Or.inr (by simp; done) | (refine Or.inr ⟨?_, ?_⟩ <;> first | (apply Or.inl; apply Piece.mem_of; rfl) | exact Or.inl (by simp; done) | with_reducible exact Or.inr rfl | with_reducible exact Or.inr ⟨rfl, rfl, rfl, rfl⟩ | with_reducible exact Or.inr ⟨rfl, rfl, rfl, rfl, rfl⟩ | (refine ⟨?_, ?_⟩ <;> first | (apply Or.inl; apply Piece.mem_of; rfl) | exact Or.inl (by simp; done) | with_reducible exact Or.inr rfl)) | skip)

theorem Block.dropReq_keeps {qs : List Piece} {a₀ b : Block} {id : Nat} (inside : Within [.qy] qs) (before : Kept qs a₀ b) :
    Kept qs a₀ (Block.dropReq b id) := Kept.step (Block.dropReq_kept _ _) inside before

theorem Block.complete_kept (b : Block) (r : Req) (level : Nat) (a : Answer) : Kept [.count Off.qyCplDiscardLo, .events, .ins, .reg Off.lgAlarm] b (Block.complete b r level a) := by
  unfold Block.complete
  repeat' first
    | with_reducible assumption
    | with_reducible apply Kept.refl
    | with_reducible apply Within.refl
    | ((with_reducible apply Within.of); rfl)
    | ((with_reducible apply Within.cons); (apply Piece.inside_of; rfl))
    | ((with_reducible apply Within.cons); apply Or.inr)
    | with_reducible apply Within.nil
    | with_reducible apply List.mem_cons_self
    | with_reducible apply List.mem_cons_of_mem
    | (extract_lets +onlyGivenNames x
       first
       | (guard_hyp x : Block := _
          refine Kept.cut (ps := [.count Off.qyCplDiscardLo, .events, .ins, .reg Off.lgAlarm]) (b := b) (x := x) ?_ fun hx => ?_
          on_goal 1 => subst x
          on_goal 2 => try clear_value x)
       | clear_value x
       | skip)
    | (simp only [Kept.by_fields]; with_reducible apply Kept.fields <;>
         first | with_reducible exact Or.inl rfl | (apply Or.inr; apply Piece.mem_of; rfl) | exact Or.inr (by simp; done) | (refine Or.inr ⟨?_, ?_⟩ <;> first | (apply Or.inl; apply Piece.mem_of; rfl) | exact Or.inl (by simp; done) | with_reducible exact Or.inr rfl | with_reducible exact Or.inr ⟨rfl, rfl, rfl, rfl⟩ | with_reducible exact Or.inr ⟨rfl, rfl, rfl, rfl, rfl⟩ | (refine ⟨?_, ?_⟩ <;> first | (apply Or.inl; apply Piece.mem_of; rfl) | exact Or.inl (by simp; done) | with_reducible exact Or.inr rfl)) | skip)
    | with_reducible apply Block.putIns_keeps

theorem Block.complete_keeps {qs : List Piece} {a₀ b : Block} {r : Req} {level : Nat} {a : Answer} (inside : Within [.count Off.qyCplDiscardLo, .events, .ins, .reg Off.lgAlarm] qs) (before : Kept qs a₀ b) :
    Kept qs a₀ (Block.complete b r level a) := Kept.step (Block.complete_kept _ _ _ _) inside before

theorem Block.wakeFences_kept (b : Block) : Kept [.count Off.qyCplDiscardLo, .events, .ins, .qy, .reg Off.lgAlarm] b (Block.wakeFences b) := by
  unfold Block.wakeFences
  repeat' first
    | with_reducible assumption
    | with_reducible apply Kept.refl
    | with_reducible apply Within.refl
    | ((with_reducible apply Within.of); rfl)
    | ((with_reducible apply Within.cons); (apply Piece.inside_of; rfl))
    | ((with_reducible apply Within.cons); apply Or.inr)
    | with_reducible apply Within.nil
    | with_reducible apply List.mem_cons_self
    | with_reducible apply List.mem_cons_of_mem
    | (with_reducible apply Kept.foldl; intro _ _ _)
    | with_reducible apply Block.dropReq_keeps
    | with_reducible apply Block.complete_keeps
    | with_reducible apply Kept.ite
    | split

theorem Block.wakeFences_keeps {qs : List Piece} {a₀ b : Block} (inside : Within [.count Off.qyCplDiscardLo, .events, .ins, .qy, .reg Off.lgAlarm] qs) (before : Kept qs a₀ b) :
    Kept qs a₀ (Block.wakeFences b) := Kept.step (Block.wakeFences_kept _) inside before

theorem Block.answer2_kept (b : Block) (sd : Side) (f : Flit) (tags : Nat) (t : Tide) : Kept [.count Off.qyCplDiscardLo, .events, .ins, .reg Off.lgAlarm] b (Block.answer2 b sd f tags t) := by
  unfold Block.answer2
  repeat' first
    | with_reducible assumption
    | with_reducible apply Kept.refl
    | with_reducible apply Within.refl
    | ((with_reducible apply Within.of); rfl)
    | ((with_reducible apply Within.cons); (apply Piece.inside_of; rfl))
    | ((with_reducible apply Within.cons); apply Or.inr)
    | with_reducible apply Within.nil
    | with_reducible apply List.mem_cons_self
    | with_reducible apply List.mem_cons_of_mem
    | with_reducible apply Block.putIns_keeps

theorem Block.answer2_keeps {qs : List Piece} {a₀ b : Block} {sd : Side} {f : Flit} {tags : Nat} {t : Tide} (inside : Within [.count Off.qyCplDiscardLo, .events, .ins, .reg Off.lgAlarm] qs) (before : Kept qs a₀ b) :
    Kept qs a₀ (Block.answer2 b sd f tags t) := Kept.step (Block.answer2_kept _ _ _ _ _) inside before

theorem Block.copyNext_kept (b : Block) (c : CopyOut) : Kept [.count Off.qyCplDiscardLo, .events, .ins, .qy, .reg Off.lgAlarm] b (Block.copyNext b c) := by
  unfold Block.copyNext
  repeat' first
    | with_reducible assumption
    | with_reducible apply Kept.refl
    | with_reducible apply Within.refl
    | ((with_reducible apply Within.of); rfl)
    | ((with_reducible apply Within.cons); (apply Piece.inside_of; rfl))
    | ((with_reducible apply Within.cons); apply Or.inr)
    | with_reducible apply Within.nil
    | with_reducible apply List.mem_cons_self
    | with_reducible apply List.mem_cons_of_mem
    | (extract_lets +onlyGivenNames x
       first
       | (guard_hyp x : Block := _
          refine Kept.cut (ps := [.count Off.qyCplDiscardLo, .events, .ins, .qy, .reg Off.lgAlarm]) (b := b) (x := x) ?_ fun hx => ?_
          on_goal 1 => subst x
          on_goal 2 => try clear_value x)
       | (guard_hyp x : Quay := _; subst x)
       | clear_value x
       | skip)
    | (simp only [Kept.by_fields]; with_reducible apply Kept.fields <;>
         first | with_reducible exact Or.inl rfl | (apply Or.inr; apply Piece.mem_of; rfl) | exact Or.inr (by simp; done) | (refine Or.inr ⟨?_, ?_⟩ <;> first | (apply Or.inl; apply Piece.mem_of; rfl) | exact Or.inl (by simp; done) | with_reducible exact Or.inr rfl | with_reducible exact Or.inr ⟨rfl, rfl, rfl, rfl⟩ | with_reducible exact Or.inr ⟨rfl, rfl, rfl, rfl, rfl⟩ | (refine ⟨?_, ?_⟩ <;> first | (apply Or.inl; apply Piece.mem_of; rfl) | exact Or.inl (by simp; done) | with_reducible exact Or.inr rfl)) | skip)
    | with_reducible apply Block.putIns_keeps
    | with_reducible apply Block.wakeFences_keeps
    | with_reducible apply Kept.ite
    | split

theorem Block.copyNext_keeps {qs : List Piece} {a₀ b : Block} {c : CopyOut} (inside : Within [.count Off.qyCplDiscardLo, .events, .ins, .qy, .reg Off.lgAlarm] qs) (before : Kept qs a₀ b) :
    Kept qs a₀ (Block.copyNext b c) := Kept.step (Block.copyNext_kept _ _) inside before

theorem Block.copyFail_kept (b : Block) (c : CopyOut) : Kept [.events, .reg Off.lgAlarm] b (Block.copyFail b c) := by
  unfold Block.copyFail
  repeat' first
    | with_reducible assumption
    | with_reducible apply Kept.refl
    | with_reducible apply Within.refl
    | ((with_reducible apply Within.of); rfl)
    | ((with_reducible apply Within.cons); (apply Piece.inside_of; rfl))
    | ((with_reducible apply Within.cons); apply Or.inr)
    | with_reducible apply Within.nil
    | with_reducible apply List.mem_cons_self
    | with_reducible apply List.mem_cons_of_mem
    | with_reducible apply Block.event_keeps
    | with_reducible apply Kept.ite
    | split

theorem Block.copyFail_keeps {qs : List Piece} {a₀ b : Block} {c : CopyOut} (inside : Within [.events, .reg Off.lgAlarm] qs) (before : Kept qs a₀ b) :
    Kept qs a₀ (Block.copyFail b c) := Kept.step (Block.copyFail_kept _ _) inside before

theorem Block.remEnds_kept (b : Block) (w : RemWrite) (e : RemEnd) : Kept [.count Off.qyCplDiscardLo, .events, .ins, .qy, .reg Off.lgAlarm] b (Block.remEnds b w e) := by
  unfold Block.remEnds
  repeat' first
    | with_reducible assumption
    | with_reducible apply Kept.refl
    | with_reducible apply Within.refl
    | ((with_reducible apply Within.of); rfl)
    | ((with_reducible apply Within.cons); (apply Piece.inside_of; rfl))
    | ((with_reducible apply Within.cons); apply Or.inr)
    | with_reducible apply Within.nil
    | with_reducible apply List.mem_cons_self
    | with_reducible apply List.mem_cons_of_mem
    | (extract_lets +onlyGivenNames x
       first
       | (guard_hyp x : Block := _
          refine Kept.cut (ps := [.count Off.qyCplDiscardLo, .events, .ins, .qy, .reg Off.lgAlarm]) (b := b) (x := x) ?_ fun hx => ?_
          on_goal 1 => subst x
          on_goal 2 => try clear_value x)
       | (have _t : _ → Block := x; clear _t; subst x; beta_reduce)
       | (have _t : _ → _ → Block := x; clear _t; subst x; beta_reduce)
       | (have _t : _ → _ → _ → Block := x; clear _t; subst x; beta_reduce)
       | (guard_hyp x : Quay := _; subst x)
       | clear_value x
       | skip)
    | (simp only [Kept.by_fields]; with_reducible apply Kept.fields <;>
         first | with_reducible exact Or.inl rfl | (apply Or.inr; apply Piece.mem_of; rfl) | exact Or.inr (by simp; done) | (refine Or.inr ⟨?_, ?_⟩ <;> first | (apply Or.inl; apply Piece.mem_of; rfl) | exact Or.inl (by simp; done) | with_reducible exact Or.inr rfl | with_reducible exact Or.inr ⟨rfl, rfl, rfl, rfl⟩ | with_reducible exact Or.inr ⟨rfl, rfl, rfl, rfl, rfl⟩ | (refine ⟨?_, ?_⟩ <;> first | (apply Or.inl; apply Piece.mem_of; rfl) | exact Or.inl (by simp; done) | with_reducible exact Or.inr rfl)) | skip)
    | with_reducible apply Block.copyFail_keeps
    | with_reducible apply Block.copyNext_keeps
    | with_reducible apply Kept.ite
    | split

theorem Block.remEnds_keeps {qs : List Piece} {a₀ b : Block} {w : RemWrite} {e : RemEnd} (inside : Within [.count Off.qyCplDiscardLo, .events, .ins, .qy, .reg Off.lgAlarm] qs) (before : Kept qs a₀ b) :
    Kept qs a₀ (Block.remEnds b w e) := Kept.step (Block.remEnds_kept _ _ _) inside before

theorem Block.remSent_kept (b : Block) (tag : Nat) : Kept [.count Off.qyCplDiscardLo, .events, .ins, .qy, .reg Off.lgAlarm] b (Block.remSent b tag) := by
  unfold Block.remSent
  repeat' first
    | with_reducible assumption
    | with_reducible apply Kept.refl
    | with_reducible apply Within.refl
    | ((with_reducible apply Within.of); rfl)
    | ((with_reducible apply Within.cons); (apply Piece.inside_of; rfl))
    | ((with_reducible apply Within.cons); apply Or.inr)
    | with_reducible apply Within.nil
    | with_reducible apply List.mem_cons_self
    | with_reducible apply List.mem_cons_of_mem
    | (extract_lets +onlyGivenNames x
       first
       | (guard_hyp x : Block := _
          refine Kept.cut (ps := [.count Off.qyCplDiscardLo, .events, .ins, .qy, .reg Off.lgAlarm]) (b := b) (x := x) ?_ fun hx => ?_
          on_goal 1 => subst x
          on_goal 2 => try clear_value x)
       | (guard_hyp x : Clocks := _; subst x)
       | (guard_hyp x : Quay := _; subst x)
       | clear_value x
       | skip)
    | (simp only [Kept.by_fields]; with_reducible apply Kept.fields <;>
         first | with_reducible exact Or.inl rfl | (apply Or.inr; apply Piece.mem_of; rfl) | exact Or.inr (by simp; done) | (refine Or.inr ⟨?_, ?_⟩ <;> first | (apply Or.inl; apply Piece.mem_of; rfl) | exact Or.inl (by simp; done) | with_reducible exact Or.inr rfl | with_reducible exact Or.inr ⟨rfl, rfl, rfl, rfl⟩ | with_reducible exact Or.inr ⟨rfl, rfl, rfl, rfl, rfl⟩ | (refine ⟨?_, ?_⟩ <;> first | (apply Or.inl; apply Piece.mem_of; rfl) | exact Or.inl (by simp; done) | with_reducible exact Or.inr rfl)) | skip)
    | with_reducible apply Block.copyNext_keeps
    | with_reducible apply Kept.ite
    | split

theorem Block.remSent_keeps {qs : List Piece} {a₀ b : Block} {tag : Nat} (inside : Within [.count Off.qyCplDiscardLo, .events, .ins, .qy, .reg Off.lgAlarm] qs) (before : Kept qs a₀ b) :
    Kept qs a₀ (Block.remSent b tag) := Kept.step (Block.remSent_kept _ _) inside before

theorem Block.dumpFail_kept (b : Block) : Kept [.events, .reg Off.lgAlarm, .reg Off.tlAlarm, .tl] b (Block.dumpFail b) := by
  unfold Block.dumpFail
  repeat' first
    | with_reducible assumption
    | with_reducible apply Kept.refl
    | with_reducible apply Within.refl
    | ((with_reducible apply Within.of); rfl)
    | ((with_reducible apply Within.cons); (apply Piece.inside_of; rfl))
    | ((with_reducible apply Within.cons); apply Or.inr)
    | with_reducible apply Within.nil
    | with_reducible apply List.mem_cons_self
    | with_reducible apply List.mem_cons_of_mem
    | (extract_lets +onlyGivenNames x
       first
       | (guard_hyp x : Block := _
          refine Kept.cut (ps := [.events, .reg Off.lgAlarm, .reg Off.tlAlarm, .tl]) (b := b) (x := x) ?_ fun hx => ?_
          on_goal 1 => subst x
          on_goal 2 => try clear_value x)
       | (guard_hyp x : Clocks := _; subst x)
       | clear_value x
       | skip)
    | (simp only [Kept.by_fields]; with_reducible apply Kept.fields <;>
         first | with_reducible exact Or.inl rfl | (apply Or.inr; apply Piece.mem_of; rfl) | exact Or.inr (by simp; done) | (refine Or.inr ⟨?_, ?_⟩ <;> first | (apply Or.inl; apply Piece.mem_of; rfl) | exact Or.inl (by simp; done) | with_reducible exact Or.inr rfl | with_reducible exact Or.inr ⟨rfl, rfl, rfl, rfl⟩ | with_reducible exact Or.inr ⟨rfl, rfl, rfl, rfl, rfl⟩ | (refine ⟨?_, ?_⟩ <;> first | (apply Or.inl; apply Piece.mem_of; rfl) | exact Or.inl (by simp; done) | with_reducible exact Or.inr rfl)) | skip)
    | with_reducible apply Block.orReg_keeps
    | with_reducible apply Block.event_keeps
    | with_reducible apply Kept.ite
    | split

theorem Block.dumpFail_keeps {qs : List Piece} {a₀ b : Block} (inside : Within [.events, .reg Off.lgAlarm, .reg Off.tlAlarm, .tl] qs) (before : Kept qs a₀ b) :
    Kept qs a₀ (Block.dumpFail b) := Kept.step (Block.dumpFail_kept _) inside before

theorem Block.dropFlit_kept (b : Block) (sd : Side) : Kept [.count (fwOff Off.fwDropLo sd), .events, .reg (tlOff Off.tlOvf (fwBlk sd)), .reg Off.fwAlarm, .reg Off.lgAlarm, .tl] b (Block.dropFlit b sd) := by
  unfold Block.dropFlit
  repeat' first
    | with_reducible assumption
    | with_reducible apply Kept.refl
    | with_reducible apply Within.refl
    | ((with_reducible apply Within.of); rfl)
    | ((with_reducible apply Within.cons); (apply Piece.inside_of; rfl))
    | ((with_reducible apply Within.cons); apply Or.inr)
    | with_reducible apply Within.nil
    | with_reducible apply List.mem_cons_self
    | with_reducible apply List.mem_cons_of_mem
    | (extract_lets +onlyGivenNames x
       first
       | (guard_hyp x : Block := _
          refine Kept.cut (ps := [.count (fwOff Off.fwDropLo sd), .events, .reg (tlOff Off.tlOvf (fwBlk sd)), .reg Off.fwAlarm, .reg Off.lgAlarm, .tl]) (b := b) (x := x) ?_ fun hx => ?_
          on_goal 1 => subst x
          on_goal 2 => try clear_value x)
       | clear_value x
       | skip)
    | with_reducible apply Block.tally_keeps
    | with_reducible apply Block.bump_keeps
    | with_reducible apply Block.orReg_keeps
    | with_reducible apply Block.event_keeps
    | with_reducible apply Kept.ite
    | split

theorem Block.dropFlit_keeps {qs : List Piece} {a₀ b : Block} {sd : Side} (inside : Within [.count (fwOff Off.fwDropLo sd), .events, .reg (tlOff Off.tlOvf (fwBlk sd)), .reg Off.fwAlarm, .reg Off.lgAlarm, .tl] qs) (before : Kept qs a₀ b) :
    Kept qs a₀ (Block.dropFlit b sd) := Kept.step (Block.dropFlit_kept _ _) inside before

theorem Block.purgeSide_kept (b : Block) (sd : Side) : Kept [.count (fwOff Off.fwDropLo (otherSide sd)), .count Off.qyCplDiscardLo, .events, .fw (otherSide sd), .ins, .qy, .reg (tlOff Off.tlOvf (fwBlk (otherSide sd))), .reg Off.fwAlarm, .reg Off.lgAlarm, .reg Off.tlAlarm, .tl] b (Block.purgeSide b sd) := by
  unfold Block.purgeSide
  repeat' first
    | with_reducible assumption
    | with_reducible apply Kept.refl
    | with_reducible apply Within.refl
    | ((with_reducible apply Within.of); rfl)
    | ((with_reducible apply Within.cons); (apply Piece.inside_of; rfl))
    | ((with_reducible apply Within.cons); apply Or.inr)
    | with_reducible apply Within.nil
    | with_reducible apply List.mem_cons_self
    | with_reducible apply List.mem_cons_of_mem
    | (extract_lets +onlyGivenNames x
       first
       | (guard_hyp x : Block := _
          refine Kept.cut (ps := [.count (fwOff Off.fwDropLo (otherSide sd)), .count Off.qyCplDiscardLo, .events, .fw (otherSide sd), .ins, .qy, .reg (tlOff Off.tlOvf (fwBlk (otherSide sd))), .reg Off.fwAlarm, .reg Off.lgAlarm, .reg Off.tlAlarm, .tl]) (b := b) (x := x) ?_ fun hx => ?_
          on_goal 1 => subst x
          on_goal 2 => try clear_value x)
       | (guard_hyp x : Quay := _; subst x)
       | clear_value x
       | skip)
    | (simp only [Kept.by_fields]; with_reducible apply Kept.fields <;>
         first | with_reducible exact Or.inl rfl | (apply Or.inr; apply Piece.mem_of; rfl) | exact Or.inr (by simp; done) | (refine Or.inr ⟨?_, ?_⟩ <;> first | (apply Or.inl; apply Piece.mem_of; rfl) | exact Or.inl (by simp; done) | with_reducible exact Or.inr rfl | with_reducible exact Or.inr ⟨rfl, rfl, rfl, rfl⟩ | with_reducible exact Or.inr ⟨rfl, rfl, rfl, rfl, rfl⟩ | (refine ⟨?_, ?_⟩ <;> first | (apply Or.inl; apply Piece.mem_of; rfl) | exact Or.inl (by simp; done) | with_reducible exact Or.inr rfl)) | skip)
    | (with_reducible apply Kept.each; intro _ _ _)
    | (with_reducible apply Kept.foldl; intro _ _ _)
    | with_reducible apply Block.modFw_keeps
    | with_reducible apply Block.dropFlit_keeps
    | with_reducible apply Block.wakeFences_keeps
    | with_reducible apply Block.dumpFail_keeps
    | with_reducible apply Block.remEnds_keeps
    | with_reducible apply Block.cplDiscard_keeps
    | with_reducible apply Kept.ite
    | split

theorem Block.purgeSide_keeps {qs : List Piece} {a₀ b : Block} {sd : Side} (inside : Within [.count (fwOff Off.fwDropLo (otherSide sd)), .count Off.qyCplDiscardLo, .events, .fw (otherSide sd), .ins, .qy, .reg (tlOff Off.tlOvf (fwBlk (otherSide sd))), .reg Off.fwAlarm, .reg Off.lgAlarm, .reg Off.tlAlarm, .tl] qs) (before : Kept qs a₀ b) :
    Kept qs a₀ (Block.purgeSide b sd) := Kept.step (Block.purgeSide_kept _ _) inside before

theorem Block.retrainSide_kept (b : Block) (sd : Side) (g : Fin 4) (inLoop : Bool) : Kept [.count (fwOff Off.fwDropLo (otherSide sd)), .count Off.qyCplDiscardLo, .events, .fw (otherSide sd), .ins, .lanes, .qy, .regs, .sides, .tl] b (Block.retrainSide b sd g inLoop) := by
  unfold Block.retrainSide
  repeat' first
    | with_reducible assumption
    | with_reducible apply Kept.refl
    | with_reducible apply Within.refl
    | ((with_reducible apply Within.of); rfl)
    | ((with_reducible apply Within.cons); (apply Piece.inside_of; rfl))
    | ((with_reducible apply Within.cons); apply Or.inr)
    | with_reducible apply Within.nil
    | with_reducible apply List.mem_cons_self
    | with_reducible apply List.mem_cons_of_mem
    | with_reducible apply Block.purgeSide_keeps
    | with_reducible apply Block.trainSide_keeps
    | with_reducible apply Kept.ite
    | split

theorem Block.retrainSide_keeps {qs : List Piece} {a₀ b : Block} {sd : Side} {g : Fin 4} {inLoop : Bool} (inside : Within [.count (fwOff Off.fwDropLo (otherSide sd)), .count Off.qyCplDiscardLo, .events, .fw (otherSide sd), .ins, .lanes, .qy, .regs, .sides, .tl] qs) (before : Kept qs a₀ b) :
    Kept qs a₀ (Block.retrainSide b sd g inLoop) := Kept.step (Block.retrainSide_kept _ _ _ _) inside before

theorem Block.dropSide_kept (b : Block) (sd : Side) : Kept [.count (fwOff Off.fwDropLo (otherSide sd)), .count Off.qyCplDiscardLo, .events, .fw (otherSide sd), .ins, .lanes, .qy, .regs, .side sd, .tl] b (Block.dropSide b sd) := by
  unfold Block.dropSide
  repeat' first
    | with_reducible assumption
    | with_reducible apply Kept.refl
    | with_reducible apply Within.refl
    | ((with_reducible apply Within.of); rfl)
    | ((with_reducible apply Within.cons); (apply Piece.inside_of; rfl))
    | ((with_reducible apply Within.cons); apply Or.inr)
    | with_reducible apply Within.nil
    | with_reducible apply List.mem_cons_self
    | with_reducible apply List.mem_cons_of_mem
    | with_reducible apply Block.purgeSide_keeps
    | with_reducible apply Block.segDown_keeps
    | with_reducible apply Kept.ite
    | split

theorem Block.dropSide_keeps {qs : List Piece} {a₀ b : Block} {sd : Side} (inside : Within [.count (fwOff Off.fwDropLo (otherSide sd)), .count Off.qyCplDiscardLo, .events, .fw (otherSide sd), .ins, .lanes, .qy, .regs, .side sd, .tl] qs) (before : Kept qs a₀ b) :
    Kept qs a₀ (Block.dropSide b sd) := Kept.step (Block.dropSide_kept _ _) inside before

theorem Block.enterOpen_kept (b : Block) : Kept [.mf, .pw] b (Block.enterOpen b) := by
  unfold Block.enterOpen
  repeat' first
    | with_reducible assumption
    | with_reducible apply Kept.refl
    | with_reducible apply Within.refl
    | ((with_reducible apply Within.of); rfl)
    | ((with_reducible apply Within.cons); (apply Piece.inside_of; rfl))
    | ((with_reducible apply Within.cons); apply Or.inr)
    | with_reducible apply Within.nil
    | with_reducible apply List.mem_cons_self
    | with_reducible apply List.mem_cons_of_mem
    | (extract_lets +onlyGivenNames x
       first
       | (guard_hyp x : Block := _
          refine Kept.cut (ps := [.mf, .pw]) (b := b) (x := x) ?_ fun hx => ?_
          on_goal 1 => subst x
          on_goal 2 => try clear_value x)
       | (guard_hyp x : Power := _; subst x)
       | (guard_hyp x : Manifests := _; subst x)
       | clear_value x
       | skip)
    | (simp only [Kept.by_fields]; with_reducible apply Kept.fields <;>
         first | with_reducible exact Or.inl rfl | (apply Or.inr; apply Piece.mem_of; rfl) | exact Or.inr (by simp; done) | (refine Or.inr ⟨?_, ?_⟩ <;> first | (apply Or.inl; apply Piece.mem_of; rfl) | exact Or.inl (by simp; done) | with_reducible exact Or.inr rfl | with_reducible exact Or.inr ⟨rfl, rfl, rfl, rfl⟩ | with_reducible exact Or.inr ⟨rfl, rfl, rfl, rfl, rfl⟩ | (refine ⟨?_, ?_⟩ <;> first | (apply Or.inl; apply Piece.mem_of; rfl) | exact Or.inl (by simp; done) | with_reducible exact Or.inr rfl)) | skip)
    | with_reducible apply Kept.ite
    | split

theorem Block.enterOpen_keeps {qs : List Piece} {a₀ b : Block} (inside : Within [.mf, .pw] qs) (before : Kept qs a₀ b) :
    Kept qs a₀ (Block.enterOpen b) := Kept.step (Block.enterOpen_kept _) inside before

theorem Block.checkOpen_kept (b : Block) : Kept [.cnt, .events, .fws, .ins, .lanes, .mf, .pw, .qy, .regs, .sides, .tl] b (Block.checkOpen b) := by
  unfold Block.checkOpen
  repeat' first
    | with_reducible assumption
    | with_reducible apply Kept.refl
    | with_reducible apply Within.refl
    | ((with_reducible apply Within.of); rfl)
    | ((with_reducible apply Within.cons); (apply Piece.inside_of; rfl))
    | ((with_reducible apply Within.cons); apply Or.inr)
    | with_reducible apply Within.nil
    | with_reducible apply List.mem_cons_self
    | with_reducible apply List.mem_cons_of_mem
    | (extract_lets +onlyGivenNames x
       first
       | (guard_hyp x : Block := _
          refine Kept.cut (ps := [.cnt, .events, .fws, .ins, .lanes, .mf, .pw, .qy, .regs, .sides, .tl]) (b := b) (x := x) ?_ fun hx => ?_
          on_goal 1 => subst x
          on_goal 2 => try clear_value x)
       | (have _t : _ → Block := x; clear _t; subst x; beta_reduce)
       | (have _t : _ → _ := x; clear _t; subst x; beta_reduce)
       | (have _t : _ → _ → Block := x; clear _t; subst x; beta_reduce)
       | (have _t : _ → _ → _ := x; clear _t; subst x; beta_reduce)
       | clear_value x
       | skip)
    | with_reducible apply Block.modSide_keeps
    | with_reducible apply Block.retrainSide_keeps
    | with_reducible apply Block.enterOpen_keeps
    | with_reducible apply Kept.ite
    | split

theorem Block.checkOpen_keeps {qs : List Piece} {a₀ b : Block} (inside : Within [.cnt, .events, .fws, .ins, .lanes, .mf, .pw, .qy, .regs, .sides, .tl] qs) (before : Kept qs a₀ b) :
    Kept qs a₀ (Block.checkOpen b) := Kept.step (Block.checkOpen_kept _) inside before

theorem Block.setSlot_kept (b : Block) (k : Nat) (v : Slot) : Kept [.slot k] b (b.setSlot k v) :=
  Kept.setSlot _ _ _

theorem Block.setSlot_keeps {qs : List Piece} {a₀ b : Block} {k : Nat} {v : Slot} (inside : Within [.slot k] qs) (before : Kept qs a₀ b) :
    Kept qs a₀ (Block.setSlot b k v) := Kept.step (Block.setSlot_kept _ _ _) inside before

theorem Block.setRing_kept (b : Block) (n : Nat) (v : Ring) : Kept [.mf] b (Block.setRing b n v) := by
  unfold Block.setRing
  repeat' first
    | with_reducible assumption
    | with_reducible apply Kept.refl
    | with_reducible apply Within.refl
    | ((with_reducible apply Within.of); rfl)
    | ((with_reducible apply Within.cons); (apply Piece.inside_of; rfl))
    | ((with_reducible apply Within.cons); apply Or.inr)
    | with_reducible apply Within.nil
    | with_reducible apply List.mem_cons_self
    | with_reducible apply List.mem_cons_of_mem
    | (extract_lets +onlyGivenNames x
       first
       | (guard_hyp x : Block := _
          refine Kept.cut (ps := [.mf]) (b := b) (x := x) ?_ fun hx => ?_
          on_goal 1 => subst x
          on_goal 2 => try clear_value x)
       | (guard_hyp x : Manifests := _; subst x)
       | clear_value x
       | skip)
    | (simp only [Kept.by_fields]; with_reducible apply Kept.fields <;>
         first | with_reducible exact Or.inl rfl | (apply Or.inr; apply Piece.mem_of; rfl) | exact Or.inr (by simp; done) | (refine Or.inr ⟨?_, ?_⟩ <;> first | (apply Or.inl; apply Piece.mem_of; rfl) | exact Or.inl (by simp; done) | with_reducible exact Or.inr rfl | with_reducible exact Or.inr ⟨rfl, rfl, rfl, rfl⟩ | with_reducible exact Or.inr ⟨rfl, rfl, rfl, rfl, rfl⟩ | (refine ⟨?_, ?_⟩ <;> first | (apply Or.inl; apply Piece.mem_of; rfl) | exact Or.inl (by simp; done) | with_reducible exact Or.inr rfl)) | skip)

theorem Block.setRing_keeps {qs : List Piece} {a₀ b : Block} {n : Nat} {v : Ring} (inside : Within [.mf] qs) (before : Kept qs a₀ b) :
    Kept qs a₀ (Block.setRing b n v) := Kept.step (Block.setRing_kept _ _ _) inside before

theorem Block.push_kept (b : Block) (o : Origin) (level : Nat) (fs : List Flit) : Kept [.ins] b (Block.push b o level fs) := by
  unfold Block.push
  repeat' first
    | with_reducible assumption
    | with_reducible apply Kept.refl
    | with_reducible apply Within.refl
    | ((with_reducible apply Within.of); rfl)
    | ((with_reducible apply Within.cons); (apply Piece.inside_of; rfl))
    | ((with_reducible apply Within.cons); apply Or.inr)
    | with_reducible apply Within.nil
    | with_reducible apply List.mem_cons_self
    | with_reducible apply List.mem_cons_of_mem
    | (extract_lets +onlyGivenNames x
       first
       | (guard_hyp x : Block := _
          refine Kept.cut (ps := [.ins]) (b := b) (x := x) ?_ fun hx => ?_
          on_goal 1 => subst x
          on_goal 2 => try clear_value x)
       | (guard_hyp x : Clocks := _; subst x)
       | (guard_hyp x : Quay := _; subst x)
       | clear_value x
       | skip)
    | (simp only [Kept.by_fields]; with_reducible apply Kept.fields <;>
         first | with_reducible exact Or.inl rfl | (apply Or.inr; apply Piece.mem_of; rfl) | exact Or.inr (by simp; done) | (refine Or.inr ⟨?_, ?_⟩ <;> first | (apply Or.inl; apply Piece.mem_of; rfl) | exact Or.inl (by simp; done) | with_reducible exact Or.inr rfl | with_reducible exact Or.inr ⟨rfl, rfl, rfl, rfl⟩ | with_reducible exact Or.inr ⟨rfl, rfl, rfl, rfl, rfl⟩ | (refine ⟨?_, ?_⟩ <;> first | (apply Or.inl; apply Piece.mem_of; rfl) | exact Or.inl (by simp; done) | with_reducible exact Or.inr rfl)) | skip)
    | with_reducible apply Kept.ite
    | split

theorem Block.push_keeps {qs : List Piece} {a₀ b : Block} {o : Origin} {level : Nat} {fs : List Flit} (inside : Within [.ins] qs) (before : Kept qs a₀ b) :
    Kept qs a₀ (Block.push b o level fs) := Kept.step (Block.push_kept _ _ _ _) inside before

theorem Block.finish_kept (b : Block) (m : ManRef) (opcode : Nat) (status : Nat) (result : List Byte) (d : Detail) : Kept [.ins, .running, .slots] b (Block.finish b m opcode status result d) := by
  unfold Block.finish
  repeat' first
    | with_reducible assumption
    | with_reducible apply Kept.refl
    | with_reducible apply Within.refl
    | ((with_reducible apply Within.of); rfl)
    | ((with_reducible apply Within.cons); (apply Piece.inside_of; rfl))
    | ((with_reducible apply Within.cons); apply Or.inr)
    | with_reducible apply Within.nil
    | with_reducible apply List.mem_cons_self
    | with_reducible apply List.mem_cons_of_mem
    | (extract_lets +onlyGivenNames x
       first
       | (guard_hyp x : Block := _
          refine Kept.cut (ps := [.ins, .running, .slots]) (b := b) (x := x) ?_ fun hx => ?_
          on_goal 1 => subst x
          on_goal 2 => try clear_value x)
       | (guard_hyp x : Manifests := _; subst x)
       | clear_value x
       | skip)
    | (simp only [Kept.by_fields]; with_reducible apply Kept.fields <;>
         first | with_reducible exact Or.inl rfl | (apply Or.inr; apply Piece.mem_of; rfl) | exact Or.inr (by simp; done) | (refine Or.inr ⟨?_, ?_⟩ <;> first | (apply Or.inl; apply Piece.mem_of; rfl) | exact Or.inl (by simp; done) | with_reducible exact Or.inr rfl | with_reducible exact Or.inr ⟨rfl, rfl, rfl, rfl⟩ | with_reducible exact Or.inr ⟨rfl, rfl, rfl, rfl, rfl⟩ | (refine ⟨?_, ?_⟩ <;> first | (apply Or.inl; apply Piece.mem_of; rfl) | exact Or.inl (by simp; done) | with_reducible exact Or.inr rfl)) | skip)
    | with_reducible apply Block.setSlot_keeps
    | with_reducible apply Block.push_keeps
    | with_reducible apply Kept.ite
    | split

theorem Block.finish_keeps {qs : List Piece} {a₀ b : Block} {m : ManRef} {opcode : Nat} {status : Nat} {result : List Byte} {d : Detail} (inside : Within [.ins, .running, .slots] qs) (before : Kept qs a₀ b) :
    Kept qs a₀ (Block.finish b m opcode status result d) := Kept.step (Block.finish_kept _ _ _ _ _ _) inside before

theorem Block.endRunning_kept (b : Block) (p : Running → Bool) (status : Nat) : Kept [.ins, .running, .slots] b (Block.endRunning b p status) := by
  unfold Block.endRunning
  repeat' first
    | with_reducible assumption
    | with_reducible apply Kept.refl
    | with_reducible apply Within.refl
    | ((with_reducible apply Within.of); rfl)
    | ((with_reducible apply Within.cons); (apply Piece.inside_of; rfl))
    | ((with_reducible apply Within.cons); apply Or.inr)
    | with_reducible apply Within.nil
    | with_reducible apply List.mem_cons_self
    | with_reducible apply List.mem_cons_of_mem
    | (with_reducible apply Kept.foldl; intro _ _ _)
    | with_reducible apply Block.finish_keeps

theorem Block.endRunning_keeps {qs : List Piece} {a₀ b : Block} {p : Running → Bool} {status : Nat} (inside : Within [.ins, .running, .slots] qs) (before : Kept qs a₀ b) :
    Kept qs a₀ (Block.endRunning b p status) := Kept.step (Block.endRunning_kept _ _ _) inside before

end Sys2Proof.Machine
end

