-- ==== Sys2Proof/Laws/FramesPart.lean ====
section
/-! SUPPORT. The frames of charters, training, the fairway, stored data, requests and berths: for each operation what it can change at most (`_kept`), and the same as a step of a
longer frame (`_keeps`). -/

namespace Sys2Proof.Machine

open Sys2Proof
set_option linter.all false
set_option Elab.async false

theorem Block.setCharter_kept (b : Block) (c : Nat) (v : Charter) : Kept [.chs] b (Block.setCharter b c v) := by
  unfold Block.setCharter
  repeat' first
    | with_reducible assumption
    | with_reducible apply Kept.refl
    | with_reducible apply Within.refl
    | ((with_reducible apply Within.of); rfl)
    | ((with_reducible apply Within.cons); (apply Piece.inside_of; rfl))
    | ((with_reducible apply Within.cons); apply Or.inr)
    | with_reducible apply Within.nil
    | with_reducible apply List.mem_cons_self
    | with_reducible apply List.mem_cons_of_mem
    | (extract_lets +onlyGivenNames x
       first
       | (guard_hyp x : Block := _
          refine Kept.cut (ps := [.chs]) (b := b) (x := x) ?_ fun hx => ?_
          on_goal 1 => subst x
          on_goal 2 => try clear_value x)
       | clear_value x
       | skip)
    | (simp only [Kept.by_fields]; with_reducible apply Kept.fields <;>
         first | with_reducible exact Or.inl rfl | (apply Or.inr; apply Piece.mem_of; rfl) | exact Or.inr (by simp; done) | (refine Or.inr ⟨?_, ?_⟩ <;> first | (apply Or.inl; apply Piece.mem_of; rfl) | exact Or.inl (by simp; done) | with_reducible exact Or.inr rfl | with_reducible exact Or.inr ⟨rfl, rfl, rfl, rfl⟩ | with_reducible exact Or.inr ⟨rfl, rfl, rfl, rfl, rfl⟩ | (refine ⟨?_, ?_⟩ <;> first | (apply Or.inl; apply Piece.mem_of; rfl) | exact Or.inl (by simp; done) | with_reducible exact Or.inr rfl)) | skip)

theorem Block.setCharter_keeps {qs : List Piece} {a₀ b : Block} {c : Nat} {v : Charter} (inside : Within [.chs] qs) (before : Kept qs a₀ b) :
    Kept qs a₀ (Block.setCharter b c v) := Kept.step (Block.setCharter_kept _ _ _) inside before

theorem Block.modCharter_kept (b : Block) (c : Nat) (f : Charter → Charter) : Kept [.chs] b (Block.modCharter b c f) := by
  unfold Block.modCharter
  repeat' first
    | with_reducible assumption
    | with_reducible apply Kept.refl
    | with_reducible apply Within.refl
    | ((with_reducible apply Within.of); rfl)
    | ((with_reducible apply Within.cons); (apply Piece.inside_of; rfl))
    | ((with_reducible apply Within.cons); apply Or.inr)
    | with_reducible apply Within.nil
    | with_reducible apply List.mem_cons_self
    | with_reducible apply List.mem_cons_of_mem
    | with_reducible apply Block.setCharter_keeps

theorem Block.modCharter_keeps {qs : List Piece} {a₀ b : Block} {c : Nat} {f : Charter → Charter} (inside : Within [.chs] qs) (before : Kept qs a₀ b) :
    Kept qs a₀ (Block.modCharter b c f) := Kept.step (Block.modCharter_kept _ _ _) inside before

theorem Block.debit_kept (b : Block) (cls : Cls) (ps : List Part) : Kept [.chs] b (Block.debit b cls ps) := by
  unfold Block.debit
  repeat' first
    | with_reducible assumption
    | with_reducible apply Kept.refl
    | with_reducible apply Within.refl
    | ((with_reducible apply Within.of); rfl)
    | ((with_reducible apply Within.cons); (apply Piece.inside_of; rfl))
    | ((with_reducible apply Within.cons); apply Or.inr)
    | with_reducible apply Within.nil
    | with_reducible apply List.mem_cons_self
    | with_reducible apply List.mem_cons_of_mem
    | (simp only [Kept.by_fields]; with_reducible apply Kept.fields <;>
         first | with_reducible exact Or.inl rfl | (apply Or.inr; apply Piece.mem_of; rfl) | exact Or.inr (by simp; done) | (refine Or.inr ⟨?_, ?_⟩ <;> first | (apply Or.inl; apply Piece.mem_of; rfl) | exact Or.inl (by simp; done) | with_reducible exact Or.inr rfl | with_reducible exact Or.inr ⟨rfl, rfl, rfl, rfl⟩ | with_reducible exact Or.inr ⟨rfl, rfl, rfl, rfl, rfl⟩ | (refine ⟨?_, ?_⟩ <;> first | (apply Or.inl; apply Piece.mem_of; rfl) | exact Or.inl (by simp; done) | with_reducible exact Or.inr rfl)) | skip)
    | (with_reducible apply Kept.foldl; intro _ _ _)
    | with_reducible apply Block.modCharter_keeps
    | split

theorem Block.debit_keeps {qs : List Piece} {a₀ b : Block} {cls : Cls} {ps : List Part} (inside : Within [.chs] qs) (before : Kept qs a₀ b) :
    Kept qs a₀ (Block.debit b cls ps) := Kept.step (Block.debit_kept _ _ _) inside before

theorem Block.noteUse_kept (b : Block) : Kept [.chs] b (Block.noteUse b) := by
  unfold Block.noteUse
  repeat' first
    | with_reducible assumption
    | with_reducible apply Kept.refl
    | with_reducible apply Within.refl
    | ((with_reducible apply Within.of); rfl)
    | ((with_reducible apply Within.cons); (apply Piece.inside_of; rfl))
    | ((with_reducible apply Within.cons); apply Or.inr)
    | with_reducible apply Within.nil
    | with_reducible apply List.mem_cons_self
    | with_reducible apply List.mem_cons_of_mem
    | (extract_lets +onlyGivenNames x
       first
       | (guard_hyp x : Block := _
          refine Kept.cut (ps := [.chs]) (b := b) (x := x) ?_ fun hx => ?_
          on_goal 1 => subst x
          on_goal 2 => try clear_value x)
       | clear_value x
       | skip)
    | (simp only [Kept.by_fields]; with_reducible apply Kept.fields <;>
         first | with_reducible exact Or.inl rfl | (apply Or.inr; apply Piece.mem_of; rfl) | exact Or.inr (by simp; done) | (refine Or.inr ⟨?_, ?_⟩ <;> first | (apply Or.inl; apply Piece.mem_of; rfl) | exact Or.inl (by simp; done) | with_reducible exact Or.inr rfl | with_reducible exact Or.inr ⟨rfl, rfl, rfl, rfl⟩ | with_reducible exact Or.inr ⟨rfl, rfl, rfl, rfl, rfl⟩ | (refine ⟨?_, ?_⟩ <;> first | (apply Or.inl; apply Piece.mem_of; rfl) | exact Or.inl (by simp; done) | with_reducible exact Or.inr rfl)) | skip)
    | (with_reducible apply Kept.foldl; intro _ _ _)

theorem Block.noteUse_keeps {qs : List Piece} {a₀ b : Block} (inside : Within [.chs] qs) (before : Kept qs a₀ b) :
    Kept qs a₀ (Block.noteUse b) := Kept.step (Block.noteUse_kept _) inside before

theorem Block.wakeChan_kept (b : Block) (n : Nat) : Kept [.chan n] b (Block.wakeChan b n) := by
  unfold Block.wakeChan
  repeat' first
    | with_reducible assumption
    | with_reducible apply Kept.refl
    | with_reducible apply Within.refl
    | ((with_reducible apply Within.of); rfl)
    | ((with_reducible apply Within.cons); (apply Piece.inside_of; rfl))
    | ((with_reducible apply Within.cons); apply Or.inr)
    | with_reducible apply Within.nil
    | with_reducible apply List.mem_cons_self
    | with_reducible apply List.mem_cons_of_mem
    | with_reducible apply Block.modChan_keeps
    | with_reducible apply Kept.ite
    | split

theorem Block.wakeChan_keeps {qs : List Piece} {a₀ b : Block} {n : Nat} (inside : Within [.chan n] qs) (before : Kept qs a₀ b) :
    Kept qs a₀ (Block.wakeChan b n) := Kept.step (Block.wakeChan_kept _ _) inside before

theorem Block.wakeFor_kept (b : Block) (d : CharterDesc) : Kept [.chans] b (Block.wakeFor b d) := by
  unfold Block.wakeFor
  repeat' first
    | with_reducible assumption
    | with_reducible apply Kept.refl
    | with_reducible apply Within.refl
    | ((with_reducible apply Within.of); rfl)
    | ((with_reducible apply Within.cons); (apply Piece.inside_of; rfl))
    | ((with_reducible apply Within.cons); apply Or.inr)
    | with_reducible apply Within.nil
    | with_reducible apply List.mem_cons_self
    | with_reducible apply List.mem_cons_of_mem
    | (with_reducible apply Kept.each; intro _ _ _)
    | with_reducible apply Block.wakeChan_keeps
    | with_reducible apply Kept.ite
    | split

theorem Block.wakeFor_keeps {qs : List Piece} {a₀ b : Block} {d : CharterDesc} (inside : Within [.chans] qs) (before : Kept qs a₀ b) :
    Kept qs a₀ (Block.wakeFor b d) := Kept.step (Block.wakeFor_kept _ _) inside before

theorem Block.freeCharter_kept (b : Block) (c : Nat) : Kept [.chs] b (Block.freeCharter b c) := by
  unfold Block.freeCharter
  repeat' first
    | with_reducible assumption
    | with_reducible apply Kept.refl
    | with_reducible apply Within.refl
    | ((with_reducible apply Within.of); rfl)
    | ((with_reducible apply Within.cons); (apply Piece.inside_of; rfl))
    | ((with_reducible apply Within.cons); apply Or.inr)
    | with_reducible apply Within.nil
    | with_reducible apply List.mem_cons_self
    | with_reducible apply List.mem_cons_of_mem
    | (extract_lets +onlyGivenNames x
       first
       | (guard_hyp x : Block := _
          refine Kept.cut (ps := [.chs]) (b := b) (x := x) ?_ fun hx => ?_
          on_goal 1 => subst x
          on_goal 2 => try clear_value x)
       | clear_value x
       | skip)
    | (simp only [Kept.by_fields]; with_reducible apply Kept.fields <;>
         first | with_reducible exact Or.inl rfl | (apply Or.inr; apply Piece.mem_of; rfl) | exact Or.inr (by simp; done) | (refine Or.inr ⟨?_, ?_⟩ <;> first | (apply Or.inl; apply Piece.mem_of; rfl) | exact Or.inl (by simp; done) | with_reducible exact Or.inr rfl | with_reducible exact Or.inr ⟨rfl, rfl, rfl, rfl⟩ | with_reducible exact Or.inr ⟨rfl, rfl, rfl, rfl, rfl⟩ | (refine ⟨?_, ?_⟩ <;> first | (apply Or.inl; apply Piece.mem_of; rfl) | exact Or.inl (by simp; done) | with_reducible exact Or.inr rfl)) | skip)
    | with_reducible apply Block.modCharter_keeps
    | with_reducible apply Kept.ite
    | split

theorem Block.freeCharter_keeps {qs : List Piece} {a₀ b : Block} {c : Nat} (inside : Within [.chs] qs) (before : Kept qs a₀ b) :
    Kept qs a₀ (Block.freeCharter b c) := Kept.step (Block.freeCharter_kept _ _) inside before

theorem Block.activate_kept (b : Block) (c : Nat) (m : Option ManRef) : Kept [.chs, .events, .ins, .reg Off.lgAlarm, .running, .slots] b (Block.activate b c m) := by
  unfold Block.activate
  repeat' first
    | with_reducible assumption
    | with_reducible apply Kept.refl
    | with_reducible apply Within.refl
    | ((with_reducible apply Within.of); rfl)
    | ((with_reducible apply Within.cons); (apply Piece.inside_of; rfl))
    | ((with_reducible apply Within.cons); apply Or.inr)
    | with_reducible apply Within.nil
    | with_reducible apply List.mem_cons_self
    | with_reducible apply List.mem_cons_of_mem
    | (extract_lets +onlyGivenNames x
       first
       | (guard_hyp x : Block := _
          refine Kept.cut (ps := [.chs, .events, .ins, .reg Off.lgAlarm, .running, .slots]) (b := b) (x := x) ?_ fun hx => ?_
          on_goal 1 => subst x
          on_goal 2 => try clear_value x)
       | clear_value x
       | skip)
    | (simp only [Kept.by_fields]; with_reducible apply Kept.fields <;>
         first | with_reducible exact Or.inl rfl | (apply Or.inr; apply Piece.mem_of; rfl) | exact Or.inr (by simp; done) | (refine Or.inr ⟨?_, ?_⟩ <;> first | (apply Or.inl; apply Piece.mem_of; rfl) | exact Or.inl (by simp; done) | with_reducible exact Or.inr rfl | with_reducible exact Or.inr ⟨rfl, rfl, rfl, rfl⟩ | with_reducible exact Or.inr ⟨rfl, rfl, rfl, rfl, rfl⟩ | (refine ⟨?_, ?_⟩ <;> first | (apply Or.inl; apply Piece.mem_of; rfl) | exact Or.inl (by simp; done) | with_reducible exact Or.inr rfl)) | skip)
    | with_reducible apply Block.setCharter_keeps
    | with_reducible apply Block.finish_keeps
    | with_reducible apply Block.event_keeps
    | split

theorem Block.activate_keeps {qs : List Piece} {a₀ b : Block} {c : Nat} {m : Option ManRef} (inside : Within [.chs, .events, .ins, .reg Off.lgAlarm, .running, .slots] qs) (before : Kept qs a₀ b) :
    Kept qs a₀ (Block.activate b c m) := Kept.step (Block.activate_kept _ _ _) inside before

theorem Block.wokenFails_kept (b : Block) (c : Nat) (m : Option ManRef) (s : Short) : Kept [.chs, .ins, .running, .slots] b (Block.wokenFails b c m s) := by
  unfold Block.wokenFails
  repeat' first
    | with_reducible assumption
    | with_reducible apply Kept.refl
    | with_reducible apply Within.refl
    | ((with_reducible apply Within.of); rfl)
    | ((with_reducible apply Within.cons); (apply Piece.inside_of; rfl))
    | ((with_reducible apply Within.cons); apply Or.inr)
    | with_reducible apply Within.nil
    | with_reducible apply List.mem_cons_self
    | with_reducible apply List.mem_cons_of_mem
    | with_reducible apply Block.finish_keeps
    | with_reducible apply Block.freeCharter_keeps
    | with_reducible apply Kept.ite
    | split

theorem Block.wokenFails_keeps {qs : List Piece} {a₀ b : Block} {c : Nat} {m : Option ManRef} {s : Short} (inside : Within [.chs, .ins, .running, .slots] qs) (before : Kept qs a₀ b) :
    Kept qs a₀ (Block.wokenFails b c m s) := Kept.step (Block.wokenFails_kept _ _ _ _) inside before

theorem Block.activateWoken_kept (b : Block) : Kept [.chs, .events, .ins, .reg Off.lgAlarm, .running, .slots] b (Block.activateWoken b) := by
  unfold Block.activateWoken
  repeat' first
    | with_reducible assumption
    | with_reducible apply Kept.refl
    | with_reducible apply Within.refl
    | ((with_reducible apply Within.of); rfl)
    | ((with_reducible apply Within.cons); (apply Piece.inside_of; rfl))
    | ((with_reducible apply Within.cons); apply Or.inr)
    | with_reducible apply Within.nil
    | with_reducible apply List.mem_cons_self
    | with_reducible apply List.mem_cons_of_mem
    | (extract_lets +onlyGivenNames x
       first
       | (guard_hyp x : Block := _
          refine Kept.cut (ps := [.chs, .events, .ins, .reg Off.lgAlarm, .running, .slots]) (b := b) (x := x) ?_ fun hx => ?_
          on_goal 1 => subst x
          on_goal 2 => try clear_value x)
       | clear_value x
       | skip)
    | (simp only [Kept.by_fields]; with_reducible apply Kept.fields <;>
         first | with_reducible exact Or.inl rfl | (apply Or.inr; apply Piece.mem_of; rfl) | exact Or.inr (by simp; done) | (refine Or.inr ⟨?_, ?_⟩ <;> first | (apply Or.inl; apply Piece.mem_of; rfl) | exact Or.inl (by simp; done) | with_reducible exact Or.inr rfl | with_reducible exact Or.inr ⟨rfl, rfl, rfl, rfl⟩ | with_reducible exact Or.inr ⟨rfl, rfl, rfl, rfl, rfl⟩ | (refine ⟨?_, ?_⟩ <;> first | (apply Or.inl; apply Piece.mem_of; rfl) | exact Or.inl (by simp; done) | with_reducible exact Or.inr rfl)) | skip)
    | (with_reducible apply Kept.foldl; intro _ _ _)
    | with_reducible apply Block.noteUse_keeps
    | with_reducible apply Block.wokenFails_keeps
    | with_reducible apply Block.activate_keeps
    | with_reducible apply Kept.ite
    | split

theorem Block.activateWoken_keeps {qs : List Piece} {a₀ b : Block} (inside : Within [.chs, .events, .ins, .reg Off.lgAlarm, .running, .slots] qs) (before : Kept qs a₀ b) :
    Kept qs a₀ (Block.activateWoken b) := Kept.step (Block.activateWoken_kept _) inside before

theorem Block.startCharter_kept (b : Block) (c : Nat) (m : Option ManRef) : Kept [.chans, .chs, .events, .ins, .reg Off.lgAlarm, .running, .slots] b (Block.startCharter b c m) := by
  unfold Block.startCharter
  repeat' first
    | with_reducible assumption
    | with_reducible apply Kept.refl
    | with_reducible apply Within.refl
    | ((with_reducible apply Within.of); rfl)
    | ((with_reducible apply Within.cons); (apply Piece.inside_of; rfl))
    | ((with_reducible apply Within.cons); apply Or.inr)
    | with_reducible apply Within.nil
    | with_reducible apply List.mem_cons_self
    | with_reducible apply List.mem_cons_of_mem
    | (extract_lets +onlyGivenNames x
       first
       | (guard_hyp x : Block := _
          refine Kept.cut (ps := [.chans, .chs, .events, .ins, .reg Off.lgAlarm, .running, .slots]) (b := b) (x := x) ?_ fun hx => ?_
          on_goal 1 => subst x
          on_goal 2 => try clear_value x)
       | clear_value x
       | skip)
    | (simp only [Kept.by_fields]; with_reducible apply Kept.fields <;>
         first | with_reducible exact Or.inl rfl | (apply Or.inr; apply Piece.mem_of; rfl) | exact Or.inr (by simp; done) | (refine Or.inr ⟨?_, ?_⟩ <;> first | (apply Or.inl; apply Piece.mem_of; rfl) | exact Or.inl (by simp; done) | with_reducible exact Or.inr rfl | with_reducible exact Or.inr ⟨rfl, rfl, rfl, rfl⟩ | with_reducible exact Or.inr ⟨rfl, rfl, rfl, rfl, rfl⟩ | (refine ⟨?_, ?_⟩ <;> first | (apply Or.inl; apply Piece.mem_of; rfl) | exact Or.inl (by simp; done) | with_reducible exact Or.inr rfl)) | skip)
    | with_reducible apply Block.wakeFor_keeps
    | with_reducible apply Block.activate_keeps
    | with_reducible apply Kept.ite
    | split

theorem Block.startCharter_keeps {qs : List Piece} {a₀ b : Block} {c : Nat} {m : Option ManRef} (inside : Within [.chans, .chs, .events, .ins, .reg Off.lgAlarm, .running, .slots] qs) (before : Kept qs a₀ b) :
    Kept qs a₀ (Block.startCharter b c m) := Kept.step (Block.startCharter_kept _ _ _) inside before

theorem Block.suspend_kept (b : Block) (c : Nat) (reason : Nat) : Kept [.chs, .events, .reg Off.chAlarm, .reg Off.lgAlarm] b (Block.suspend b c reason) := by
  unfold Block.suspend
  repeat' first
    | with_reducible assumption
    | with_reducible apply Kept.refl
    | with_reducible apply Within.refl
    | ((with_reducible apply Within.of); rfl)
    | ((with_reducible apply Within.cons); (apply Piece.inside_of; rfl))
    | ((with_reducible apply Within.cons); apply Or.inr)
    | with_reducible apply Within.nil
    | with_reducible apply List.mem_cons_self
    | with_reducible apply List.mem_cons_of_mem
    | with_reducible apply Block.event_keeps
    | with_reducible apply Block.orReg_keeps
    | with_reducible apply Block.modCharter_keeps
    | with_reducible apply Kept.ite
    | split

theorem Block.suspend_keeps {qs : List Piece} {a₀ b : Block} {c : Nat} {reason : Nat} (inside : Within [.chs, .events, .reg Off.chAlarm, .reg Off.lgAlarm] qs) (before : Kept qs a₀ b) :
    Kept qs a₀ (Block.suspend b c reason) := Kept.step (Block.suspend_kept _ _ _) inside before

theorem Block.shortfall_kept (b : Block) (n : Nat) : Kept [.chs, .events, .reg Off.chAlarm, .reg Off.lgAlarm] b (Block.shortfall b n) := by
  induction n generalizing b with
  | zero => exact Kept.refl _ _
  | succ n ih =>
    unfold Block.shortfall
    repeat' first
      | exact Kept.refl _ _
      | exact Kept.trans (Block.suspend_kept _ _ _) (ih _)
      | split

theorem Block.shortfall_keeps {qs : List Piece} {a₀ b : Block} {l : Nat} (inside : Within [.chs, .events, .reg Off.chAlarm, .reg Off.lgAlarm] qs) (before : Kept qs a₀ b) :
    Kept qs a₀ (Block.shortfall b l) := Kept.step (Block.shortfall_kept _ _) inside before

theorem Block.restoreAll_kept (b : Block) : Kept [.chans, .chs, .events, .ins, .reg Off.lgAlarm, .running, .slots] b (Block.restoreAll b) := by
  unfold Block.restoreAll
  repeat' first
    | with_reducible assumption
    | with_reducible apply Kept.refl
    | with_reducible apply Within.refl
    | ((with_reducible apply Within.of); rfl)
    | ((with_reducible apply Within.cons); (apply Piece.inside_of; rfl))
    | ((with_reducible apply Within.cons); apply Or.inr)
    | with_reducible apply Within.nil
    | with_reducible apply List.mem_cons_self
    | with_reducible apply List.mem_cons_of_mem
    | (with_reducible apply Kept.foldl; intro _ _ _)
    | with_reducible apply Block.startCharter_keeps
    | with_reducible apply Kept.ite
    | split

theorem Block.restoreAll_keeps {qs : List Piece} {a₀ b : Block} (inside : Within [.chans, .chs, .events, .ins, .reg Off.lgAlarm, .running, .slots] qs) (before : Kept qs a₀ b) :
    Kept qs a₀ (Block.restoreAll b) := Kept.step (Block.restoreAll_kept _) inside before

theorem Block.closeForReload_kept (b : Block) : Kept [.chs] b (Block.closeForReload b) := by
  unfold Block.closeForReload
  repeat' first
    | with_reducible assumption
    | with_reducible apply Kept.refl
    | with_reducible apply Within.refl
    | ((with_reducible apply Within.of); rfl)
    | ((with_reducible apply Within.cons); (apply Piece.inside_of; rfl))
    | ((with_reducible apply Within.cons); apply Or.inr)
    | with_reducible apply Within.nil
    | with_reducible apply List.mem_cons_self
    | with_reducible apply List.mem_cons_of_mem
    | (extract_lets +onlyGivenNames x
       first
       | (guard_hyp x : Block := _
          refine Kept.cut (ps := [.chs]) (b := b) (x := x) ?_ fun hx => ?_
          on_goal 1 => subst x
          on_goal 2 => try clear_value x)
       | clear_value x
       | skip)
    | (simp only [Kept.by_fields]; with_reducible apply Kept.fields <;>
         first | with_reducible exact Or.inl rfl | (apply Or.inr; apply Piece.mem_of; rfl) | exact Or.inr (by simp; done) | (refine Or.inr ⟨?_, ?_⟩ <;> first | (apply Or.inl; apply Piece.mem_of; rfl) | exact Or.inl (by simp; done) | with_reducible exact Or.inr rfl | with_reducible exact Or.inr ⟨rfl, rfl, rfl, rfl⟩ | with_reducible exact Or.inr ⟨rfl, rfl, rfl, rfl, rfl⟩ | (refine ⟨?_, ?_⟩ <;> first | (apply Or.inl; apply Piece.mem_of; rfl) | exact Or.inl (by simp; done) | with_reducible exact Or.inr rfl)) | skip)
    | (with_reducible apply Kept.each; intro _ _ _)
    | with_reducible apply Block.freeCharter_keeps
    | with_reducible apply Kept.ite
    | split

theorem Block.closeForReload_keeps {qs : List Piece} {a₀ b : Block} (inside : Within [.chs] qs) (before : Kept qs a₀ b) :
    Kept qs a₀ (Block.closeForReload b) := Kept.step (Block.closeForReload_kept _) inside before

theorem Block.reopen_kept (b : Block) (c : Nat) (d : CharterDesc) : Kept [.chs, .events, .reg Off.lgAlarm] b (Block.reopen b c d) := by
  unfold Block.reopen
  repeat' first
    | with_reducible assumption
    | with_reducible apply Kept.refl
    | with_reducible apply Within.refl
    | ((with_reducible apply Within.of); rfl)
    | ((with_reducible apply Within.cons); (apply Piece.inside_of; rfl))
    | ((with_reducible apply Within.cons); apply Or.inr)
    | with_reducible apply Within.nil
    | with_reducible apply List.mem_cons_self
    | with_reducible apply List.mem_cons_of_mem
    | (extract_lets +onlyGivenNames x
       first
       | (guard_hyp x : Block := _
          refine Kept.cut (ps := [.chs, .events, .reg Off.lgAlarm]) (b := b) (x := x) ?_ fun hx => ?_
          on_goal 1 => subst x
          on_goal 2 => try clear_value x)
       | clear_value x
       | skip)
    | (simp only [Kept.by_fields]; with_reducible apply Kept.fields <;>
         first | with_reducible exact Or.inl rfl | (apply Or.inr; apply Piece.mem_of; rfl) | exact Or.inr (by simp; done) | (refine Or.inr ⟨?_, ?_⟩ <;> first | (apply Or.inl; apply Piece.mem_of; rfl) | exact Or.inl (by simp; done) | with_reducible exact Or.inr rfl | with_reducible exact Or.inr ⟨rfl, rfl, rfl, rfl⟩ | with_reducible exact Or.inr ⟨rfl, rfl, rfl, rfl, rfl⟩ | (refine ⟨?_, ?_⟩ <;> first | (apply Or.inl; apply Piece.mem_of; rfl) | exact Or.inl (by simp; done) | with_reducible exact Or.inr rfl)) | skip)
    | with_reducible apply Block.setCharter_keeps
    | with_reducible apply Block.event_keeps
    | with_reducible apply Kept.ite
    | split

theorem Block.reopen_keeps {qs : List Piece} {a₀ b : Block} {c : Nat} {d : CharterDesc} (inside : Within [.chs, .events, .reg Off.lgAlarm] qs) (before : Kept qs a₀ b) :
    Kept qs a₀ (Block.reopen b c d) := Kept.step (Block.reopen_kept _ _ _) inside before

theorem Block.reloadCharters_kept (b : Block) : Kept [.chs, .events, .reg Off.lgAlarm] b (Block.reloadCharters b) := by
  unfold Block.reloadCharters
  repeat' first
    | with_reducible assumption
    | with_reducible apply Kept.refl
    | with_reducible apply Within.refl
    | ((with_reducible apply Within.of); rfl)
    | ((with_reducible apply Within.cons); (apply Piece.inside_of; rfl))
    | ((with_reducible apply Within.cons); apply Or.inr)
    | with_reducible apply Within.nil
    | with_reducible apply List.mem_cons_self
    | with_reducible apply List.mem_cons_of_mem
    | (extract_lets +onlyGivenNames x
       first
       | (guard_hyp x : Block := _
          refine Kept.cut (ps := [.chs, .events, .reg Off.lgAlarm]) (b := b) (x := x) ?_ fun hx => ?_
          on_goal 1 => subst x
          on_goal 2 => try clear_value x)
       | clear_value x
       | skip)
    | (simp only [Kept.by_fields]; with_reducible apply Kept.fields <;>
         first | with_reducible exact Or.inl rfl | (apply Or.inr; apply Piece.mem_of; rfl) | exact Or.inr (by simp; done) | (refine Or.inr ⟨?_, ?_⟩ <;> first | (apply Or.inl; apply Piece.mem_of; rfl) | exact Or.inl (by simp; done) | with_reducible exact Or.inr rfl | with_reducible exact Or.inr ⟨rfl, rfl, rfl, rfl⟩ | with_reducible exact Or.inr ⟨rfl, rfl, rfl, rfl, rfl⟩ | (refine ⟨?_, ?_⟩ <;> first | (apply Or.inl; apply Piece.mem_of; rfl) | exact Or.inl (by simp; done) | with_reducible exact Or.inr rfl)) | skip)
    | (with_reducible apply Kept.foldl; intro _ _ _)
    | (with_reducible apply Kept.foldl_fst_of; (case eq => assumption); intro _ _ _)
    | (with_reducible apply Kept.foldl_fst; intro _ _ _)
    | with_reducible apply Block.noteUse_keeps
    | with_reducible apply Block.reopen_keeps
    | dsimp -zeta only
    | with_reducible apply Kept.ite
    | split

theorem Block.reloadCharters_keeps {qs : List Piece} {a₀ b : Block} (inside : Within [.chs, .events, .reg Off.lgAlarm] qs) (before : Kept qs a₀ b) :
    Kept qs a₀ (Block.reloadCharters b) := Kept.step (Block.reloadCharters_kept _) inside before

theorem Block.closeAllCharters_kept (b : Block) : Kept [.chs] b (Block.closeAllCharters b) := by
  unfold Block.closeAllCharters
  repeat' first
    | with_reducible assumption
    | with_reducible apply Kept.refl
    | with_reducible apply Within.refl
    | ((with_reducible apply Within.of); rfl)
    | ((with_reducible apply Within.cons); (apply Piece.inside_of; rfl))
    | ((with_reducible apply Within.cons); apply Or.inr)
    | with_reducible apply Within.nil
    | with_reducible apply List.mem_cons_self
    | with_reducible apply List.mem_cons_of_mem
    | (extract_lets +onlyGivenNames x
       first
       | (guard_hyp x : Block := _
          refine Kept.cut (ps := [.chs]) (b := b) (x := x) ?_ fun hx => ?_
          on_goal 1 => subst x
          on_goal 2 => try clear_value x)
       | clear_value x
       | skip)
    | (simp only [Kept.by_fields]; with_reducible apply Kept.fields <;>
         first | with_reducible exact Or.inl rfl | (apply Or.inr; apply Piece.mem_of; rfl) | exact Or.inr (by simp; done) | (refine Or.inr ⟨?_, ?_⟩ <;> first | (apply Or.inl; apply Piece.mem_of; rfl) | exact Or.inl (by simp; done) | with_reducible exact Or.inr rfl | with_reducible exact Or.inr ⟨rfl, rfl, rfl, rfl⟩ | with_reducible exact Or.inr ⟨rfl, rfl, rfl, rfl, rfl⟩ | (refine ⟨?_, ?_⟩ <;> first | (apply Or.inl; apply Piece.mem_of; rfl) | exact Or.inl (by simp; done) | with_reducible exact Or.inr rfl)) | skip)
    | (with_reducible apply Kept.foldl; intro _ _ _)
    | with_reducible apply Kept.ite
    | split

theorem Block.closeAllCharters_keeps {qs : List Piece} {a₀ b : Block} (inside : Within [.chs] qs) (before : Kept qs a₀ b) :
    Kept qs a₀ (Block.closeAllCharters b) := Kept.step (Block.closeAllCharters_kept _) inside before

theorem Block.noteShare_kept (b : Block) (sd : Side) : Kept [.chs] b (Block.noteShare b sd) := by
  unfold Block.noteShare
  repeat' first
    | with_reducible assumption
    | with_reducible apply Kept.refl
    | with_reducible apply Within.refl
    | ((with_reducible apply Within.of); rfl)
    | ((with_reducible apply Within.cons); (apply Piece.inside_of; rfl))
    | ((with_reducible apply Within.cons); apply Or.inr)
    | with_reducible apply Within.nil
    | with_reducible apply List.mem_cons_self
    | with_reducible apply List.mem_cons_of_mem
    | (extract_lets +onlyGivenNames x
       first
       | (guard_hyp x : Block := _
          refine Kept.cut (ps := [.chs]) (b := b) (x := x) ?_ fun hx => ?_
          on_goal 1 => subst x
          on_goal 2 => try clear_value x)
       | clear_value x
       | skip)
    | (simp only [Kept.by_fields]; with_reducible apply Kept.fields <;>
         first | with_reducible exact Or.inl rfl | (apply Or.inr; apply Piece.mem_of; rfl) | exact Or.inr (by simp; done) | (refine Or.inr ⟨?_, ?_⟩ <;> first | (apply Or.inl; apply Piece.mem_of; rfl) | exact Or.inl (by simp; done) | with_reducible exact Or.inr rfl | with_reducible exact Or.inr ⟨rfl, rfl, rfl, rfl⟩ | with_reducible exact Or.inr ⟨rfl, rfl, rfl, rfl, rfl⟩ | (refine ⟨?_, ?_⟩ <;> first | (apply Or.inl; apply Piece.mem_of; rfl) | exact Or.inl (by simp; done) | with_reducible exact Or.inr rfl)) | skip)
    | with_reducible apply Kept.ite
    | split

theorem Block.noteShare_keeps {qs : List Piece} {a₀ b : Block} {sd : Side} (inside : Within [.chs] qs) (before : Kept qs a₀ b) :
    Kept qs a₀ (Block.noteShare b sd) := Kept.step (Block.noteShare_kept _ _) inside before

theorem Block.noteQuay_kept (b : Block) : Kept [.chs] b (Block.noteQuay b) := by
  unfold Block.noteQuay
  repeat' first
    | with_reducible assumption
    | with_reducible apply Kept.refl
    | with_reducible apply Within.refl
    | ((with_reducible apply Within.of); rfl)
    | ((with_reducible apply Within.cons); (apply Piece.inside_of; rfl))
    | ((with_reducible apply Within.cons); apply Or.inr)
    | with_reducible apply Within.nil
    | with_reducible apply List.mem_cons_self
    | with_reducible apply List.mem_cons_of_mem
    | with_reducible apply Block.noteShare_keeps
    | with_reducible apply Kept.ite
    | split

theorem Block.noteQuay_keeps {qs : List Piece} {a₀ b : Block} (inside : Within [.chs] qs) (before : Kept qs a₀ b) :
    Kept qs a₀ (Block.noteQuay b) := Kept.step (Block.noteQuay_kept _) inside before

theorem Block.charterBerthLost_kept (b : Block) (n : Nat) : Kept [.chs, .events, .reg Off.lgAlarm] b (Block.charterBerthLost b n) := by
  unfold Block.charterBerthLost
  repeat' first
    | with_reducible assumption
    | with_reducible apply Kept.refl
    | with_reducible apply Within.refl
    | ((with_reducible apply Within.of); rfl)
    | ((with_reducible apply Within.cons); (apply Piece.inside_of; rfl))
    | ((with_reducible apply Within.cons); apply Or.inr)
    | with_reducible apply Within.nil
    | with_reducible apply List.mem_cons_self
    | with_reducible apply List.mem_cons_of_mem
    | (extract_lets +onlyGivenNames x
       first
       | (guard_hyp x : Block := _
          refine Kept.cut (ps := [.chs, .events, .reg Off.lgAlarm]) (b := b) (x := x) ?_ fun hx => ?_
          on_goal 1 => subst x
          on_goal 2 => try clear_value x)
       | clear_value x
       | skip)
    | (simp only [Kept.by_fields]; with_reducible apply Kept.fields <;>
         first | with_reducible exact Or.inl rfl | (apply Or.inr; apply Piece.mem_of; rfl) | exact Or.inr (by simp; done) | (refine Or.inr ⟨?_, ?_⟩ <;> first | (apply Or.inl; apply Piece.mem_of; rfl) | exact Or.inl (by simp; done) | with_reducible exact Or.inr rfl | with_reducible exact Or.inr ⟨rfl, rfl, rfl, rfl⟩ | with_reducible exact Or.inr ⟨rfl, rfl, rfl, rfl, rfl⟩ | (refine ⟨?_, ?_⟩ <;> first | (apply Or.inl; apply Piece.mem_of; rfl) | exact Or.inl (by simp; done) | with_reducible exact Or.inr rfl)) | skip)
    | (with_reducible apply Kept.foldl; intro _ _ _)
    | with_reducible apply Block.event_keeps
    | with_reducible apply Kept.ite
    | split

theorem Block.charterBerthLost_keeps {qs : List Piece} {a₀ b : Block} {n : Nat} (inside : Within [.chs, .events, .reg Off.lgAlarm] qs) (before : Kept qs a₀ b) :
    Kept qs a₀ (Block.charterBerthLost b n) := Kept.step (Block.charterBerthLost_kept _ _) inside before

theorem Block.dropRepeat_kept (b : Block) (n : Nat) (gran : Nat) : Kept [.berth n] b (Block.dropRepeat b n gran).1 := by
  unfold Block.dropRepeat
  repeat' first
    | with_reducible assumption
    | with_reducible apply Kept.refl
    | with_reducible apply Within.refl
    | ((with_reducible apply Within.of); rfl)
    | ((with_reducible apply Within.cons); (apply Piece.inside_of; rfl))
    | ((with_reducible apply Within.cons); apply Or.inr)
    | with_reducible apply Within.nil
    | with_reducible apply List.mem_cons_self
    | with_reducible apply List.mem_cons_of_mem
    | (extract_lets +onlyGivenNames x
       first
       | (guard_hyp x : Block := _
          refine Kept.cut (ps := [.berth n]) (b := b) (x := x) ?_ fun hx => ?_
          on_goal 1 => subst x
          on_goal 2 => try clear_value x)
       | clear_value x
       | skip)
    | with_reducible apply Block.setBerth_keeps
    | dsimp -zeta only
    | with_reducible apply Kept.ite
    | split

theorem Block.dropRepeat_keeps {qs : List Piece} {a₀ b : Block} {n : Nat} {gran : Nat} (inside : Within [.berth n] qs) (before : Kept qs a₀ b) :
    Kept qs a₀ (Block.dropRepeat b n gran).1 := Kept.step (Block.dropRepeat_kept b n gran) inside before

theorem Block.dropRepeat_of {qs : List Piece} {a₀ b c₀ : Block} {n : Nat} {gran : Nat} {y₀ : Nat × Nat} (eq : Block.dropRepeat b n gran = (c₀, y₀)) (inside : Within [.berth n] qs)
    (before : Kept qs a₀ b) : Kept qs a₀ c₀ := by
  have h := Kept.step (Block.dropRepeat_kept b n gran) inside before
  rw [eq] at h; exact h

theorem Block.forget_kept (b : Block) (n : Nat) (gran : Nat) : Kept [.berth n] b (Block.forget b n gran) := by
  unfold Block.forget
  repeat' first
    | with_reducible assumption
    | with_reducible apply Kept.refl
    | with_reducible apply Within.refl
    | ((with_reducible apply Within.of); rfl)
    | ((with_reducible apply Within.cons); (apply Piece.inside_of; rfl))
    | ((with_reducible apply Within.cons); apply Or.inr)
    | with_reducible apply Within.nil
    | with_reducible apply List.mem_cons_self
    | with_reducible apply List.mem_cons_of_mem
    | (extract_lets +onlyGivenNames x
       first
       | (guard_hyp x : Block := _
          refine Kept.cut (ps := [.berth n]) (b := b) (x := x) ?_ fun hx => ?_
          on_goal 1 => subst x
          on_goal 2 => try clear_value x)
       | clear_value x
       | skip)
    | (with_reducible apply Block.dropRepeat_of; (case eq => assumption))
    | with_reducible apply Block.dropRepeat_keeps
    | with_reducible apply Block.setBerth_keeps
    | dsimp -zeta only
    | with_reducible apply Kept.ite
    | split

theorem Block.forget_keeps {qs : List Piece} {a₀ b : Block} {n : Nat} {gran : Nat} (inside : Within [.berth n] qs) (before : Kept qs a₀ b) :
    Kept qs a₀ (Block.forget b n gran) := Kept.step (Block.forget_kept _ _ _) inside before

theorem Block.setOwn_kept (b : Block) (g : Nat) (syms : List Byte) : Kept [.prot, .slot (slotOf g)] b (Block.setOwn b g syms) := by
  unfold Block.setOwn
  repeat' first
    | with_reducible assumption
    | with_reducible apply Kept.refl
    | with_reducible apply Within.refl
    | ((with_reducible apply Within.of); rfl)
    | ((with_reducible apply Within.cons); (apply Piece.inside_of; rfl))
    | ((with_reducible apply Within.cons); apply Or.inr)
    | with_reducible apply Within.nil
    | with_reducible apply List.mem_cons_self
    | with_reducible apply List.mem_cons_of_mem
    | (extract_lets +onlyGivenNames x
       first
       | (guard_hyp x : Block := _
          refine Kept.cut (ps := [.prot, .slot (slotOf g)]) (b := b) (x := x) ?_ fun hx => ?_
          on_goal 1 => subst x
          on_goal 2 => try clear_value x)
       | clear_value x
       | skip)
    | (simp only [Kept.by_fields]; with_reducible apply Kept.fields <;>
         first | with_reducible exact Or.inl rfl | (apply Or.inr; apply Piece.mem_of; rfl) | exact Or.inr (by simp; done) | (refine Or.inr ⟨?_, ?_⟩ <;> first | (apply Or.inl; apply Piece.mem_of; rfl) | exact Or.inl (by simp; done) | with_reducible exact Or.inr rfl | with_reducible exact Or.inr ⟨rfl, rfl, rfl, rfl⟩ | with_reducible exact Or.inr ⟨rfl, rfl, rfl, rfl, rfl⟩ | (refine ⟨?_, ?_⟩ <;> first | (apply Or.inl; apply Piece.mem_of; rfl) | exact Or.inl (by simp; done) | with_reducible exact Or.inr rfl)) | skip)
    | with_reducible apply Block.setSlot_keeps
    | with_reducible apply Kept.ite
    | split

theorem Block.setOwn_keeps {qs : List Piece} {a₀ b : Block} {g : Nat} {syms : List Byte} (inside : Within [.prot, .slot (slotOf g)] qs) (before : Kept qs a₀ b) :
    Kept qs a₀ (Block.setOwn b g syms) := Kept.step (Block.setOwn_kept _ _ _) inside before

theorem Block.scrubOwn_kept (b : Block) (g : Nat) (syms : List Byte) : Kept [.prot, .slot (slotOf g)] b (Block.scrubOwn b g syms) := by
  unfold Block.scrubOwn
  repeat' first
    | with_reducible assumption
    | with_reducible apply Kept.refl
    | with_reducible apply Within.refl
    | ((with_reducible apply Within.of); rfl)
    | ((with_reducible apply Within.cons); (apply Piece.inside_of; rfl))
    | ((with_reducible apply Within.cons); apply Or.inr)
    | with_reducible apply Within.nil
    | with_reducible apply List.mem_cons_self
    | with_reducible apply List.mem_cons_of_mem
    | with_reducible apply Block.setOwn_keeps
    | with_reducible apply Kept.ite
    | split

theorem Block.scrubOwn_keeps {qs : List Piece} {a₀ b : Block} {g : Nat} {syms : List Byte} (inside : Within [.prot, .slot (slotOf g)] qs) (before : Kept qs a₀ b) :
    Kept qs a₀ (Block.scrubOwn b g syms) := Kept.step (Block.scrubOwn_kept _ _ _) inside before

theorem Block.wroteOwn_kept (b : Block) (g : Nat) : Kept [.berth (chanOf g), .prot] b (Block.wroteOwn b g) := by
  unfold Block.wroteOwn
  repeat' first
    | with_reducible assumption
    | with_reducible apply Kept.refl
    | with_reducible apply Within.refl
    | ((with_reducible apply Within.of); rfl)
    | ((with_reducible apply Within.cons); (apply Piece.inside_of; rfl))
    | ((with_reducible apply Within.cons); apply Or.inr)
    | with_reducible apply Within.nil
    | with_reducible apply List.mem_cons_self
    | with_reducible apply List.mem_cons_of_mem
    | (extract_lets +onlyGivenNames x
       first
       | (guard_hyp x : Block := _
          refine Kept.cut (ps := [.berth (chanOf g), .prot]) (b := b) (x := x) ?_ fun hx => ?_
          on_goal 1 => subst x
          on_goal 2 => try clear_value x)
       | clear_value x
       | skip)
    | (simp only [Kept.by_fields]; with_reducible apply Kept.fields <;>
         first | with_reducible exact Or.inl rfl | (apply Or.inr; apply Piece.mem_of; rfl) | exact Or.inr (by simp; done) | (refine Or.inr ⟨?_, ?_⟩ <;> first | (apply Or.inl; apply Piece.mem_of; rfl) | exact Or.inl (by simp; done) | with_reducible exact Or.inr rfl | with_reducible exact Or.inr ⟨rfl, rfl, rfl, rfl⟩ | with_reducible exact Or.inr ⟨rfl, rfl, rfl, rfl, rfl⟩ | (refine ⟨?_, ?_⟩ <;> first | (apply Or.inl; apply Piece.mem_of; rfl) | exact Or.inl (by simp; done) | with_reducible exact Or.inr rfl)) | skip)
    | with_reducible apply Block.forget_keeps
    | with_reducible apply Kept.ite
    | split

theorem Block.wroteOwn_keeps {qs : List Piece} {a₀ b : Block} {g : Nat} (inside : Within [.berth (chanOf g), .prot] qs) (before : Kept qs a₀ b) :
    Kept qs a₀ (Block.wroteOwn b g) := Kept.step (Block.wroteOwn_kept _ _) inside before

theorem Block.filledOwn_kept (b : Block) (g : Nat) : Kept [.prot, .slot (slotOf g)] b (Block.filledOwn b g) := by
  unfold Block.filledOwn
  repeat' first
    | with_reducible assumption
    | with_reducible apply Kept.refl
    | with_reducible apply Within.refl
    | ((with_reducible apply Within.of); rfl)
    | ((with_reducible apply Within.cons); (apply Piece.inside_of; rfl))
    | ((with_reducible apply Within.cons); apply Or.inr)
    | with_reducible apply Within.nil
    | with_reducible apply List.mem_cons_self
    | with_reducible apply List.mem_cons_of_mem
    | (extract_lets +onlyGivenNames x
       first
       | (guard_hyp x : Block := _
          refine Kept.cut (ps := [.prot, .slot (slotOf g)]) (b := b) (x := x) ?_ fun hx => ?_
          on_goal 1 => subst x
          on_goal 2 => try clear_value x)
       | clear_value x
       | skip)
    | (simp only [Kept.by_fields]; with_reducible apply Kept.fields <;>
         first | with_reducible exact Or.inl rfl | (apply Or.inr; apply Piece.mem_of; rfl) | exact Or.inr (by simp; done) | (refine Or.inr ⟨?_, ?_⟩ <;> first | (apply Or.inl; apply Piece.mem_of; rfl) | exact Or.inl (by simp; done) | with_reducible exact Or.inr rfl | with_reducible exact Or.inr ⟨rfl, rfl, rfl, rfl⟩ | with_reducible exact Or.inr ⟨rfl, rfl, rfl, rfl, rfl⟩ | (refine ⟨?_, ?_⟩ <;> first | (apply Or.inl; apply Piece.mem_of; rfl) | exact Or.inl (by simp; done) | with_reducible exact Or.inr rfl)) | skip)
    | with_reducible apply Block.setOwn_keeps
    | with_reducible apply Kept.ite
    | split

theorem Block.filledOwn_keeps {qs : List Piece} {a₀ b : Block} {g : Nat} (inside : Within [.prot, .slot (slotOf g)] qs) (before : Kept qs a₀ b) :
    Kept qs a₀ (Block.filledOwn b g) := Kept.step (Block.filledOwn_kept _ _) inside before

theorem Block.filledOwns_kept (b : Block) (n : Nat) : Kept [.prot, .slots] b (Block.filledOwns b n) := by
  unfold Block.filledOwns
  repeat' first
    | with_reducible assumption
    | with_reducible apply Kept.refl
    | with_reducible apply Within.refl
    | ((with_reducible apply Within.of); rfl)
    | ((with_reducible apply Within.cons); (apply Piece.inside_of; rfl))
    | ((with_reducible apply Within.cons); apply Or.inr)
    | with_reducible apply Within.nil
    | with_reducible apply List.mem_cons_self
    | with_reducible apply List.mem_cons_of_mem
    | (extract_lets +onlyGivenNames x
       first
       | (guard_hyp x : Block := _
          refine Kept.cut (ps := [.prot, .slots]) (b := b) (x := x) ?_ fun hx => ?_
          on_goal 1 => subst x
          on_goal 2 => try clear_value x)
       | clear_value x
       | skip)
    | (simp only [Kept.by_fields]; with_reducible apply Kept.fields <;>
         first | with_reducible exact Or.inl rfl | (apply Or.inr; apply Piece.mem_of; rfl) | exact Or.inr (by simp; done) | (refine Or.inr ⟨?_, ?_⟩ <;> first | (apply Or.inl; apply Piece.mem_of; rfl) | exact Or.inl (by simp; done) | with_reducible exact Or.inr rfl | with_reducible exact Or.inr ⟨rfl, rfl, rfl, rfl⟩ | with_reducible exact Or.inr ⟨rfl, rfl, rfl, rfl, rfl⟩ | (refine ⟨?_, ?_⟩ <;> first | (apply Or.inl; apply Piece.mem_of; rfl) | exact Or.inl (by simp; done) | with_reducible exact Or.inr rfl)) | skip)
    | (with_reducible apply Kept.each; intro _ _ _)
    | with_reducible apply Block.setSlot_keeps
    | with_reducible apply Kept.ite
    | split

theorem Block.filledOwns_keeps {qs : List Piece} {a₀ b : Block} {n : Nat} (inside : Within [.prot, .slots] qs) (before : Kept qs a₀ b) :
    Kept qs a₀ (Block.filledOwns b n) := Kept.step (Block.filledOwns_kept _ _) inside before

theorem Block.freshen_kept (b : Block) (n : Nat) : Kept [.berth n, .slots] b (Block.freshen b n) := by
  unfold Block.freshen
  repeat' first
    | with_reducible assumption
    | with_reducible apply Kept.refl
    | with_reducible apply Within.refl
    | ((with_reducible apply Within.of); rfl)
    | ((with_reducible apply Within.cons); (apply Piece.inside_of; rfl))
    | ((with_reducible apply Within.cons); apply Or.inr)
    | with_reducible apply Within.nil
    | with_reducible apply List.mem_cons_self
    | with_reducible apply List.mem_cons_of_mem
    | (extract_lets +onlyGivenNames x
       first
       | (guard_hyp x : Block := _
          refine Kept.cut (ps := [.berth n, .slots]) (b := b) (x := x) ?_ fun hx => ?_
          on_goal 1 => subst x
          on_goal 2 => try clear_value x)
       | clear_value x
       | skip)
    | (with_reducible apply Kept.each; intro _ _ _)
    | with_reducible apply Block.setSlot_keeps
    | with_reducible apply Block.forget_keeps
    | with_reducible apply Kept.ite
    | split

theorem Block.freshen_keeps {qs : List Piece} {a₀ b : Block} {n : Nat} (inside : Within [.berth n, .slots] qs) (before : Kept qs a₀ b) :
    Kept qs a₀ (Block.freshen b n) := Kept.step (Block.freshen_kept _ _) inside before

theorem Block.errRecord_kept (b : Block) (r : ErrRec) : Kept [.berths, .prot, .reg Off.prAlarm, .reg Off.prErrLost] b (Block.errRecord b r) := by
  unfold Block.errRecord
  repeat' first
    | with_reducible assumption
    | with_reducible apply Kept.refl
    | with_reducible apply Within.refl
    | ((with_reducible apply Within.of); rfl)
    | ((with_reducible apply Within.cons); (apply Piece.inside_of; rfl))
    | ((with_reducible apply Within.cons); apply Or.inr)
    | with_reducible apply Within.nil
    | with_reducible apply List.mem_cons_self
    | with_reducible apply List.mem_cons_of_mem
    | (extract_lets +onlyGivenNames x
       first
       | (guard_hyp x : Block := _
          refine Kept.cut (ps := [.berths, .prot, .reg Off.prAlarm, .reg Off.prErrLost]) (b := b) (x := x) ?_ fun hx => ?_
          on_goal 1 => subst x
          on_goal 2 => try clear_value x)
       | clear_value x
       | skip)
    | (simp only [Kept.by_fields]; with_reducible apply Kept.fields <;>
         first | with_reducible exact Or.inl rfl | (apply Or.inr; apply Piece.mem_of; rfl) | exact Or.inr (by simp; done) | (refine Or.inr ⟨?_, ?_⟩ <;> first | (apply Or.inl; apply Piece.mem_of; rfl) | exact Or.inl (by simp; done) | with_reducible exact Or.inr rfl | with_reducible exact Or.inr ⟨rfl, rfl, rfl, rfl⟩ | with_reducible exact Or.inr ⟨rfl, rfl, rfl, rfl, rfl⟩ | (refine ⟨?_, ?_⟩ <;> first | (apply Or.inl; apply Piece.mem_of; rfl) | exact Or.inl (by simp; done) | with_reducible exact Or.inr rfl)) | skip)
    | with_reducible apply Block.orReg_keeps
    | with_reducible apply Block.setReg_keeps
    | with_reducible apply Block.wroteOwn_keeps
    | with_reducible apply Kept.ite
    | split

theorem Block.errRecord_keeps {qs : List Piece} {a₀ b : Block} {r : ErrRec} (inside : Within [.berths, .prot, .reg Off.prAlarm, .reg Off.prErrLost] qs) (before : Kept qs a₀ b) :
    Kept qs a₀ (Block.errRecord b r) := Kept.step (Block.errRecord_kept _ _) inside before

theorem Block.noteCorrection_kept (b : Block) (n : Nat) (gran : Nat) (coil : Nat) (f : Flit) : Kept [.berths, .count Off.prCeRepeatLo, .count Off.prCeUntrackedLo, .events, .prot, .reg Off.lgAlarm, .reg Off.prAlarm, .reg Off.prErrLost, .slots] b (Block.noteCorrection b n gran coil f) := by
  unfold Block.noteCorrection
  repeat' first
    | with_reducible assumption
    | with_reducible apply Kept.refl
    | with_reducible apply Within.refl
    | ((with_reducible apply Within.of); rfl)
    | ((with_reducible apply Within.cons); (apply Piece.inside_of; rfl))
    | ((with_reducible apply Within.cons); apply Or.inr)
    | with_reducible apply Within.nil
    | with_reducible apply List.mem_cons_self
    | with_reducible apply List.mem_cons_of_mem
    | (extract_lets +onlyGivenNames x
       first
       | (guard_hyp x : Block := _
          refine Kept.cut (ps := [.berths, .count Off.prCeRepeatLo, .count Off.prCeUntrackedLo, .events, .prot, .reg Off.lgAlarm, .reg Off.prAlarm, .reg Off.prErrLost, .slots]) (b := b) (x := x) ?_ fun hx => ?_
          on_goal 1 => subst x
          on_goal 2 => try clear_value x)
       | clear_value x
       | skip)
    | with_reducible apply Block.freshen_keeps
    | with_reducible apply Block.setBerth_keeps
    | with_reducible apply Block.orReg_keeps
    | with_reducible apply Block.bump_keeps
    | with_reducible apply Block.errRecord_keeps
    | with_reducible apply Block.event_keeps
    | with_reducible apply Kept.ite
    | split

theorem Block.noteCorrection_keeps {qs : List Piece} {a₀ b : Block} {n : Nat} {gran : Nat} {coil : Nat} {f : Flit} (inside : Within [.berths, .count Off.prCeRepeatLo, .count Off.prCeUntrackedLo, .events, .prot, .reg Off.lgAlarm, .reg Off.prAlarm, .reg Off.prErrLost, .slots] qs) (before : Kept qs a₀ b) :
    Kept qs a₀ (Block.noteCorrection b n gran coil f) := Kept.step (Block.noteCorrection_kept _ _ _ _ _) inside before

theorem Block.noteCoil_kept (b : Block) (n : Nat) (coil : Nat) : Kept [.col n] b (Block.noteCoil b n coil) := by
  unfold Block.noteCoil
  repeat' first
    | with_reducible assumption
    | with_reducible apply Kept.refl
    | with_reducible apply Within.refl
    | ((with_reducible apply Within.of); rfl)
    | ((with_reducible apply Within.cons); (apply Piece.inside_of; rfl))
    | ((with_reducible apply Within.cons); apply Or.inr)
    | with_reducible apply Within.nil
    | with_reducible apply List.mem_cons_self
    | with_reducible apply List.mem_cons_of_mem
    | (simp only [Kept.by_fields]; with_reducible apply Kept.fields <;>
         first | with_reducible exact Or.inl rfl | (apply Or.inr; apply Piece.mem_of; rfl) | exact Or.inr (by simp; done) | (refine Or.inr ⟨?_, ?_⟩ <;> first | (apply Or.inl; apply Piece.mem_of; rfl) | exact Or.inl (by simp; done) | with_reducible exact Or.inr rfl | with_reducible exact Or.inr ⟨rfl, rfl, rfl, rfl⟩ | with_reducible exact Or.inr ⟨rfl, rfl, rfl, rfl, rfl⟩ | (refine ⟨?_, ?_⟩ <;> first | (apply Or.inl; apply Piece.mem_of; rfl) | exact Or.inl (by simp; done) | with_reducible exact Or.inr rfl)) | skip)
    | with_reducible apply Block.modCol_keeps

theorem Block.noteCoil_keeps {qs : List Piece} {a₀ b : Block} {n : Nat} {coil : Nat} (inside : Within [.col n] qs) (before : Kept qs a₀ b) :
    Kept qs a₀ (Block.noteCoil b n coil) := Kept.step (Block.noteCoil_kept _ _ _) inside before

theorem Block.noteUe_kept (b : Block) (n : Nat) (gran : Nat) : Kept [.berth n, .count Off.prUeLo, .reg (tlOff Off.tlOvf n), .reg Off.prAlarm, .slots, .tl] b (Block.noteUe b n gran).1 := by
  unfold Block.noteUe
  repeat' first
    | with_reducible assumption
    | with_reducible apply Kept.refl
    | with_reducible apply Within.refl
    | ((with_reducible apply Within.of); rfl)
    | ((with_reducible apply Within.cons); (apply Piece.inside_of; rfl))
    | ((with_reducible apply Within.cons); apply Or.inr)
    | with_reducible apply Within.nil
    | with_reducible apply List.mem_cons_self
    | with_reducible apply List.mem_cons_of_mem
    | (with_reducible apply Block.dropRepeat_of; (case eq => assumption))
    | with_reducible apply Block.dropRepeat_keeps
    | with_reducible apply Block.tally_keeps
    | with_reducible apply Block.orReg_keeps
    | with_reducible apply Block.bump_keeps
    | with_reducible apply Block.freshen_keeps
    | dsimp -zeta only
    | with_reducible apply Kept.ite
    | split

theorem Block.noteUe_keeps {qs : List Piece} {a₀ b : Block} {n : Nat} {gran : Nat} (inside : Within [.berth n, .count Off.prUeLo, .reg (tlOff Off.tlOvf n), .reg Off.prAlarm, .slots, .tl] qs) (before : Kept qs a₀ b) :
    Kept qs a₀ (Block.noteUe b n gran).1 := Kept.step (Block.noteUe_kept b n gran) inside before

theorem Block.noteUe_of {qs : List Piece} {a₀ b c₀ : Block} {n : Nat} {gran : Nat} {y₀ : Nat × Nat} (eq : Block.noteUe b n gran = (c₀, y₀)) (inside : Within [.berth n, .count Off.prUeLo, .reg (tlOff Off.tlOvf n), .reg Off.prAlarm, .slots, .tl] qs)
    (before : Kept qs a₀ b) : Kept qs a₀ c₀ := by
  have h := Kept.step (Block.noteUe_kept b n gran) inside before
  rw [eq] at h; exact h

theorem Block.noteBad_kept (b : Block) (n : Nat) (gran : Nat) (op : Op) (f : Flit) : Kept [.berths, .count Off.prUeLo, .prot, .reg (tlOff Off.tlOvf n), .reg Off.prAlarm, .reg Off.prErrLost, .slots, .tl] b (Block.noteBad b n gran op f) := by
  unfold Block.noteBad
  repeat' first
    | with_reducible assumption
    | with_reducible apply Kept.refl
    | with_reducible apply Within.refl
    | ((with_reducible apply Within.of); rfl)
    | ((with_reducible apply Within.cons); (apply Piece.inside_of; rfl))
    | ((with_reducible apply Within.cons); apply Or.inr)
    | with_reducible apply Within.nil
    | with_reducible apply List.mem_cons_self
    | with_reducible apply List.mem_cons_of_mem
    | (extract_lets +onlyGivenNames x
       first
       | (guard_hyp x : Block := _
          refine Kept.cut (ps := [.berths, .count Off.prUeLo, .prot, .reg (tlOff Off.tlOvf n), .reg Off.prAlarm, .reg Off.prErrLost, .slots, .tl]) (b := b) (x := x) ?_ fun hx => ?_
          on_goal 1 => subst x
          on_goal 2 => try clear_value x)
       | clear_value x
       | skip)
    | (with_reducible apply Block.noteUe_of; (case eq => assumption))
    | with_reducible apply Block.noteUe_keeps
    | with_reducible apply Block.setBerth_keeps
    | with_reducible apply Block.errRecord_keeps
    | dsimp -zeta only
    | with_reducible apply Kept.ite
    | split

theorem Block.noteBad_keeps {qs : List Piece} {a₀ b : Block} {n : Nat} {gran : Nat} {op : Op} {f : Flit} (inside : Within [.berths, .count Off.prUeLo, .prot, .reg (tlOff Off.tlOvf n), .reg Off.prAlarm, .reg Off.prErrLost, .slots, .tl] qs) (before : Kept qs a₀ b) :
    Kept qs a₀ (Block.noteBad b n gran op f) := Kept.step (Block.noteBad_kept _ _ _ _ _) inside before

theorem Block.noteRead_kept (b : Block) (n : Nat) (gran : Nat) (op : Op) (f : Flit) (c : GClass) : Kept [.berths, .col n, .count Off.prCeLo, .count Off.prCeRepeatLo, .count Off.prCeUntrackedLo, .count Off.prPoisonRdLo, .count Off.prUeLo, .count Off.prZeroRdLo, .events, .prot, .reg (tlOff Off.tlOvf n), .reg Off.lgAlarm, .reg Off.prAlarm, .reg Off.prErrLost, .slots, .tl] b (Block.noteRead b n gran op f c) := by
  unfold Block.noteRead
  repeat' first
    | with_reducible assumption
    | with_reducible apply Kept.refl
    | with_reducible apply Within.refl
    | ((with_reducible apply Within.of); rfl)
    | ((with_reducible apply Within.cons); (apply Piece.inside_of; rfl))
    | ((with_reducible apply Within.cons); apply Or.inr)
    | with_reducible apply Within.nil
    | with_reducible apply List.mem_cons_self
    | with_reducible apply List.mem_cons_of_mem
    | (extract_lets +onlyGivenNames x
       first
       | (guard_hyp x : Block := _
          refine Kept.cut (ps := [.berths, .col n, .count Off.prCeLo, .count Off.prCeRepeatLo, .count Off.prCeUntrackedLo, .count Off.prPoisonRdLo, .count Off.prUeLo, .count Off.prZeroRdLo, .events, .prot, .reg (tlOff Off.tlOvf n), .reg Off.lgAlarm, .reg Off.prAlarm, .reg Off.prErrLost, .slots, .tl]) (b := b) (x := x) ?_ fun hx => ?_
          on_goal 1 => subst x
          on_goal 2 => try clear_value x)
       | clear_value x
       | skip)
    | with_reducible apply Block.tally_keeps
    | with_reducible apply Block.noteCoil_keeps
    | with_reducible apply Block.noteCorrection_keeps
    | with_reducible apply Block.bump_keeps
    | with_reducible apply Block.noteBad_keeps
    | with_reducible apply Kept.ite
    | split

theorem Block.noteRead_keeps {qs : List Piece} {a₀ b : Block} {n : Nat} {gran : Nat} {op : Op} {f : Flit} {c : GClass} (inside : Within [.berths, .col n, .count Off.prCeLo, .count Off.prCeRepeatLo, .count Off.prCeUntrackedLo, .count Off.prPoisonRdLo, .count Off.prUeLo, .count Off.prZeroRdLo, .events, .prot, .reg (tlOff Off.tlOvf n), .reg Off.lgAlarm, .reg Off.prAlarm, .reg Off.prErrLost, .slots, .tl] qs) (before : Kept qs a₀ b) :
    Kept qs a₀ (Block.noteRead b n gran op f c) := Kept.step (Block.noteRead_kept _ _ _ _ _ _) inside before

theorem Block.noteScrub_kept (b : Block) (n : Nat) (gran : Nat) (c : GClass) : Kept [.berth n, .col n, .count Off.prPoisonRdLo, .count Off.prUeLo, .count Off.prZeroRdLo, .reg (tlOff Off.tlOvf n), .reg Off.prAlarm, .slots, .tl] b (Block.noteScrub b n gran c).1 := by
  unfold Block.noteScrub
  repeat' first
    | with_reducible assumption
    | with_reducible apply Kept.refl
    | with_reducible apply Within.refl
    | ((with_reducible apply Within.of); rfl)
    | ((with_reducible apply Within.cons); (apply Piece.inside_of; rfl))
    | ((with_reducible apply Within.cons); apply Or.inr)
    | with_reducible apply Within.nil
    | with_reducible apply List.mem_cons_self
    | with_reducible apply List.mem_cons_of_mem
    | (extract_lets +onlyGivenNames x
       first
       | (guard_hyp x : Block := _
          refine Kept.cut (ps := [.berth n, .col n, .count Off.prPoisonRdLo, .count Off.prUeLo, .count Off.prZeroRdLo, .reg (tlOff Off.tlOvf n), .reg Off.prAlarm, .slots, .tl]) (b := b) (x := x) ?_ fun hx => ?_
          on_goal 1 => subst x
          on_goal 2 => try clear_value x)
       | clear_value x
       | skip)
    | with_reducible apply Block.tally_keeps
    | with_reducible apply Block.noteCoil_keeps
    | with_reducible apply Block.bump_keeps
    | (with_reducible apply Block.noteUe_of; (case eq => assumption))
    | with_reducible apply Block.noteUe_keeps
    | dsimp -zeta only
    | with_reducible apply Kept.ite
    | split

theorem Block.noteScrub_keeps {qs : List Piece} {a₀ b : Block} {n : Nat} {gran : Nat} {c : GClass} (inside : Within [.berth n, .col n, .count Off.prPoisonRdLo, .count Off.prUeLo, .count Off.prZeroRdLo, .reg (tlOff Off.tlOvf n), .reg Off.prAlarm, .slots, .tl] qs) (before : Kept qs a₀ b) :
    Kept qs a₀ (Block.noteScrub b n gran c).1 := Kept.step (Block.noteScrub_kept b n gran c) inside before

theorem Block.noteScrub_of {qs : List Piece} {a₀ b c₀ : Block} {n : Nat} {gran : Nat} {c : GClass} {y₀ : Nat × Nat} (eq : Block.noteScrub b n gran c = (c₀, y₀)) (inside : Within [.berth n, .col n, .count Off.prPoisonRdLo, .count Off.prUeLo, .count Off.prZeroRdLo, .reg (tlOff Off.tlOvf n), .reg Off.prAlarm, .slots, .tl] qs)
    (before : Kept qs a₀ b) : Kept qs a₀ c₀ := by
  have h := Kept.step (Block.noteScrub_kept b n gran c) inside before
  rw [eq] at h; exact h

theorem Block.noteStore_kept (b : Block) (n : Nat) (gran : Nat) (poison : Bool) : Kept [.berth n, .count Off.prPoisonWrLo] b (Block.noteStore b n gran poison) := by
  unfold Block.noteStore
  repeat' first
    | with_reducible assumption
    | with_reducible apply Kept.refl
    | with_reducible apply Within.refl
    | ((with_reducible apply Within.of); rfl)
    | ((with_reducible apply Within.cons); (apply Piece.inside_of; rfl))
    | ((with_reducible apply Within.cons); apply Or.inr)
    | with_reducible apply Within.nil
    | with_reducible apply List.mem_cons_self
    | with_reducible apply List.mem_cons_of_mem
    | (extract_lets +onlyGivenNames x
       first
       | (guard_hyp x : Block := _
          refine Kept.cut (ps := [.berth n, .count Off.prPoisonWrLo]) (b := b) (x := x) ?_ fun hx => ?_
          on_goal 1 => subst x
          on_goal 2 => try clear_value x)
       | clear_value x
       | skip)
    | with_reducible apply Block.forget_keeps
    | with_reducible apply Block.bump_keeps
    | with_reducible apply Kept.ite
    | split

theorem Block.noteStore_keeps {qs : List Piece} {a₀ b : Block} {n : Nat} {gran : Nat} {poison : Bool} (inside : Within [.berth n, .count Off.prPoisonWrLo] qs) (before : Kept qs a₀ b) :
    Kept qs a₀ (Block.noteStore b n gran poison) := Kept.step (Block.noteStore_kept _ _ _ _) inside before

theorem Block.wakeWaiter_kept (b : Block) (sd : Side) : Kept [.ins, .running, .side sd, .slots] b (Block.wakeWaiter b sd) := by
  unfold Block.wakeWaiter
  repeat' first
    | with_reducible assumption
    | with_reducible apply Kept.refl
    | with_reducible apply Within.refl
    | ((with_reducible apply Within.of); rfl)
    | ((with_reducible apply Within.cons); (apply Piece.inside_of; rfl))
    | ((with_reducible apply Within.cons); apply Or.inr)
    | with_reducible apply Within.nil
    | with_reducible apply List.mem_cons_self
    | with_reducible apply List.mem_cons_of_mem
    | (extract_lets +onlyGivenNames x
       first
       | (guard_hyp x : Block := _
          refine Kept.cut (ps := [.ins, .running, .side sd, .slots]) (b := b) (x := x) ?_ fun hx => ?_
          on_goal 1 => subst x
          on_goal 2 => try clear_value x)
       | clear_value x
       | skip)
    | (simp only [Kept.by_fields]; with_reducible apply Kept.fields <;>
         first | with_reducible exact Or.inl rfl | (apply Or.inr; apply Piece.mem_of; rfl) | exact Or.inr (by simp; done) | (refine Or.inr ⟨?_, ?_⟩ <;> first | (apply Or.inl; apply Piece.mem_of; rfl) | exact Or.inl (by simp; done) | with_reducible exact Or.inr rfl | with_reducible exact Or.inr ⟨rfl, rfl, rfl, rfl⟩ | with_reducible exact Or.inr ⟨rfl, rfl, rfl, rfl, rfl⟩ | (refine ⟨?_, ?_⟩ <;> first | (apply Or.inl; apply Piece.mem_of; rfl) | exact Or.inl (by simp; done) | with_reducible exact Or.inr rfl)) | skip)
    | with_reducible apply Block.modSide_keeps
    | with_reducible apply Block.finish_keeps
    | with_reducible apply Kept.ite
    | split

theorem Block.wakeWaiter_keeps {qs : List Piece} {a₀ b : Block} {sd : Side} (inside : Within [.ins, .running, .side sd, .slots] qs) (before : Kept qs a₀ b) :
    Kept qs a₀ (Block.wakeWaiter b sd) := Kept.step (Block.wakeWaiter_kept _ _) inside before

theorem Block.outcome_kept (b : Block) (l : Nat) : Kept [.cnt, .events, .fws, .ins, .lanes, .mf, .pw, .qy, .regs, .running, .sides, .slots, .tl] b (Block.outcome b l) := by
  unfold Block.outcome
  repeat' first
    | with_reducible assumption
    | with_reducible apply Kept.refl
    | with_reducible apply Within.refl
    | ((with_reducible apply Within.of); rfl)
    | ((with_reducible apply Within.cons); (apply Piece.inside_of; rfl))
    | ((with_reducible apply Within.cons); apply Or.inr)
    | with_reducible apply Within.nil
    | with_reducible apply List.mem_cons_self
    | with_reducible apply List.mem_cons_of_mem
    | (extract_lets +onlyGivenNames x
       first
       | (guard_hyp x : Block := _
          refine Kept.cut (ps := [.cnt, .events, .fws, .ins, .lanes, .mf, .pw, .qy, .regs, .running, .sides, .slots, .tl]) (b := b) (x := x) ?_ fun hx => ?_
          on_goal 1 => subst x
          on_goal 2 => try clear_value x)
       | clear_value x
       | skip)
    | with_reducible apply Block.laneOutcome_keeps
    | with_reducible apply Block.finish_keeps
    | with_reducible apply Block.purgeSide_keeps
    | with_reducible apply Block.checkOpen_keeps
    | with_reducible apply Block.wakeWaiter_keeps
    | with_reducible apply Kept.ite
    | split

theorem Block.outcome_keeps {qs : List Piece} {a₀ b : Block} {l : Nat} (inside : Within [.cnt, .events, .fws, .ins, .lanes, .mf, .pw, .qy, .regs, .running, .sides, .slots, .tl] qs) (before : Kept qs a₀ b) :
    Kept qs a₀ (Block.outcome b l) := Kept.step (Block.outcome_kept _ _) inside before

theorem Block.dropLaneFull_kept (b : Block) (l : Nat) : Kept [.cnt, .events, .fws, .ins, .lanes, .qy, .regs, .sides, .tl] b (Block.dropLaneFull b l) := by
  unfold Block.dropLaneFull
  repeat' first
    | with_reducible assumption
    | with_reducible apply Kept.refl
    | with_reducible apply Within.refl
    | ((with_reducible apply Within.of); rfl)
    | ((with_reducible apply Within.cons); (apply Piece.inside_of; rfl))
    | ((with_reducible apply Within.cons); apply Or.inr)
    | with_reducible apply Within.nil
    | with_reducible apply List.mem_cons_self
    | with_reducible apply List.mem_cons_of_mem
    | (extract_lets +onlyGivenNames x
       first
       | (guard_hyp x : Block := _
          refine Kept.cut (ps := [.cnt, .events, .fws, .ins, .lanes, .qy, .regs, .sides, .tl]) (b := b) (x := x) ?_ fun hx => ?_
          on_goal 1 => subst x
          on_goal 2 => try clear_value x)
       | clear_value x
       | skip)
    | with_reducible apply Block.dropLane_keeps
    | with_reducible apply Block.purgeSide_keeps
    | with_reducible apply Kept.ite
    | split

theorem Block.dropLaneFull_keeps {qs : List Piece} {a₀ b : Block} {l : Nat} (inside : Within [.cnt, .events, .fws, .ins, .lanes, .qy, .regs, .sides, .tl] qs) (before : Kept qs a₀ b) :
    Kept qs a₀ (Block.dropLaneFull b l) := Kept.step (Block.dropLaneFull_kept _ _) inside before

theorem Block.disableLane_kept (b : Block) (l : Nat) : Kept [.cnt, .events, .fws, .ins, .lanes, .mf, .pw, .qy, .regs, .running, .sides, .slots, .tl] b (Block.disableLane b l) := by
  unfold Block.disableLane
  repeat' first
    | with_reducible assumption
    | with_reducible apply Kept.refl
    | with_reducible apply Within.refl
    | ((with_reducible apply Within.of); rfl)
    | ((with_reducible apply Within.cons); (apply Piece.inside_of; rfl))
    | ((with_reducible apply Within.cons); apply Or.inr)
    | with_reducible apply Within.nil
    | with_reducible apply List.mem_cons_self
    | with_reducible apply List.mem_cons_of_mem
    | (extract_lets +onlyGivenNames x
       first
       | (guard_hyp x : Block := _
          refine Kept.cut (ps := [.cnt, .events, .fws, .ins, .lanes, .mf, .pw, .qy, .regs, .running, .sides, .slots, .tl]) (b := b) (x := x) ?_ fun hx => ?_
          on_goal 1 => subst x
          on_goal 2 => try clear_value x)
       | clear_value x
       | skip)
    | with_reducible apply Block.dropLaneFull_keeps
    | with_reducible apply Block.notePass_keeps
    | with_reducible apply Block.modLane_keeps
    | with_reducible apply Block.checkWarm_keeps
    | with_reducible apply Block.checkSide_keeps
    | with_reducible apply Block.resizeSide_keeps
    | with_reducible apply Block.checkOpen_keeps
    | with_reducible apply Block.wakeWaiter_keeps
    | with_reducible apply Kept.ite
    | split

theorem Block.disableLane_keeps {qs : List Piece} {a₀ b : Block} {l : Nat} (inside : Within [.cnt, .events, .fws, .ins, .lanes, .mf, .pw, .qy, .regs, .running, .sides, .slots, .tl] qs) (before : Kept qs a₀ b) :
    Kept qs a₀ (Block.disableLane b l) := Kept.step (Block.disableLane_kept _ _) inside before

theorem Block.huntBurst_kept (b : Block) (l : Nat) : Kept [.lane l] b (Block.huntBurst b l) := by
  unfold Block.huntBurst
  repeat' first
    | with_reducible assumption
    | with_reducible apply Kept.refl
    | with_reducible apply Within.refl
    | ((with_reducible apply Within.of); rfl)
    | ((with_reducible apply Within.cons); (apply Piece.inside_of; rfl))
    | ((with_reducible apply Within.cons); apply Or.inr)
    | with_reducible apply Within.nil
    | with_reducible apply List.mem_cons_self
    | with_reducible apply List.mem_cons_of_mem
    | (extract_lets +onlyGivenNames x
       first
       | (guard_hyp x : Block := _
          refine Kept.cut (ps := [.lane l]) (b := b) (x := x) ?_ fun hx => ?_
          on_goal 1 => subst x
          on_goal 2 => try clear_value x)
       | clear_value x
       | skip)
    | with_reducible apply Block.modLane_keeps
    | with_reducible apply Kept.ite
    | split

theorem Block.huntBurst_keeps {qs : List Piece} {a₀ b : Block} {l : Nat} (inside : Within [.lane l] qs) (before : Kept qs a₀ b) :
    Kept qs a₀ (Block.huntBurst b l) := Kept.step (Block.huntBurst_kept _ _) inside before

theorem Block.huntTimeout_kept (b : Block) (l : Nat) : Kept [.cnt, .events, .fws, .ins, .lanes, .mf, .pw, .qy, .regs, .running, .sides, .slots, .tl] b (Block.huntTimeout b l) := by
  unfold Block.huntTimeout
  repeat' first
    | with_reducible assumption
    | with_reducible apply Kept.refl
    | with_reducible apply Within.refl
    | ((with_reducible apply Within.of); rfl)
    | ((with_reducible apply Within.cons); (apply Piece.inside_of; rfl))
    | ((with_reducible apply Within.cons); apply Or.inr)
    | with_reducible apply Within.nil
    | with_reducible apply List.mem_cons_self
    | with_reducible apply List.mem_cons_of_mem
    | (extract_lets +onlyGivenNames x
       first
       | (guard_hyp x : Block := _
          refine Kept.cut (ps := [.cnt, .events, .fws, .ins, .lanes, .mf, .pw, .qy, .regs, .running, .sides, .slots, .tl]) (b := b) (x := x) ?_ fun hx => ?_
          on_goal 1 => subst x
          on_goal 2 => try clear_value x)
       | clear_value x
       | skip)
    | with_reducible apply Block.outcome_keeps
    | with_reducible apply Block.modLane_keeps
    | with_reducible apply Kept.ite
    | split

theorem Block.huntTimeout_keeps {qs : List Piece} {a₀ b : Block} {l : Nat} (inside : Within [.cnt, .events, .fws, .ins, .lanes, .mf, .pw, .qy, .regs, .running, .sides, .slots, .tl] qs) (before : Kept qs a₀ b) :
    Kept qs a₀ (Block.huntTimeout b l) := Kept.step (Block.huntTimeout_kept _ _) inside before

theorem Block.takeLock_kept (b : Block) (l : Nat) (g : Fin 4) (blocks : List LaneBlock) : Kept [.lane l] b (Block.takeLock b l g blocks) := by
  unfold Block.takeLock
  repeat' first
    | with_reducible assumption
    | with_reducible apply Kept.refl
    | with_reducible apply Within.refl
    | ((with_reducible apply Within.of); rfl)
    | ((with_reducible apply Within.cons); (apply Piece.inside_of; rfl))
    | ((with_reducible apply Within.cons); apply Or.inr)
    | with_reducible apply Within.nil
    | with_reducible apply List.mem_cons_self
    | with_reducible apply List.mem_cons_of_mem
    | (extract_lets +onlyGivenNames x
       first
       | (guard_hyp x : Block := _
          refine Kept.cut (ps := [.lane l]) (b := b) (x := x) ?_ fun hx => ?_
          on_goal 1 => subst x
          on_goal 2 => try clear_value x)
       | clear_value x
       | skip)
    | with_reducible apply Block.modLane_keeps
    | with_reducible apply Kept.ite
    | split

theorem Block.takeLock_keeps {qs : List Piece} {a₀ b : Block} {l : Nat} {g : Fin 4} {blocks : List LaneBlock} (inside : Within [.lane l] qs) (before : Kept qs a₀ b) :
    Kept qs a₀ (Block.takeLock b l g blocks) := Kept.step (Block.takeLock_kept _ _ _ _) inside before

theorem Block.loseLock_kept (b : Block) (l : Nat) : Kept [.cnt, .events, .fws, .ins, .lanes, .qy, .regs, .sides, .tl] b (Block.loseLock b l) := by
  unfold Block.loseLock
  repeat' first
    | with_reducible assumption
    | with_reducible apply Kept.refl
    | with_reducible apply Within.refl
    | ((with_reducible apply Within.of); rfl)
    | ((with_reducible apply Within.cons); (apply Piece.inside_of; rfl))
    | ((with_reducible apply Within.cons); apply Or.inr)
    | with_reducible apply Within.nil
    | with_reducible apply List.mem_cons_self
    | with_reducible apply List.mem_cons_of_mem
    | (extract_lets +onlyGivenNames x
       first
       | (guard_hyp x : Block := _
          refine Kept.cut (ps := [.cnt, .events, .fws, .ins, .lanes, .qy, .regs, .sides, .tl]) (b := b) (x := x) ?_ fun hx => ?_
          on_goal 1 => subst x
          on_goal 2 => try clear_value x)
       | clear_value x
       | skip)
    | with_reducible apply Block.modLane_keeps
    | with_reducible apply Block.moveTaken_keeps
    | with_reducible apply Block.rehunt_keeps
    | with_reducible apply Block.dropLaneFull_keeps
    | with_reducible apply Kept.ite
    | split

theorem Block.loseLock_keeps {qs : List Piece} {a₀ b : Block} {l : Nat} (inside : Within [.cnt, .events, .fws, .ins, .lanes, .qy, .regs, .sides, .tl] qs) (before : Kept qs a₀ b) :
    Kept qs a₀ (Block.loseLock b l) := Kept.step (Block.loseLock_kept _ _) inside before

theorem Block.sendAnswer_kept (b : Block) (l : Nat) : Kept [.lane l] b (Block.sendAnswer b l) := by
  unfold Block.sendAnswer
  repeat' first
    | with_reducible assumption
    | with_reducible apply Kept.refl
    | with_reducible apply Within.refl
    | ((with_reducible apply Within.of); rfl)
    | ((with_reducible apply Within.cons); (apply Piece.inside_of; rfl))
    | ((with_reducible apply Within.cons); apply Or.inr)
    | with_reducible apply Within.nil
    | with_reducible apply List.mem_cons_self
    | with_reducible apply List.mem_cons_of_mem
    | (extract_lets +onlyGivenNames x
       first
       | (guard_hyp x : Block := _
          refine Kept.cut (ps := [.lane l]) (b := b) (x := x) ?_ fun hx => ?_
          on_goal 1 => subst x
          on_goal 2 => try clear_value x)
       | clear_value x
       | skip)
    | with_reducible apply Block.modLane_keeps
    | with_reducible apply Kept.ite
    | split

theorem Block.sendAnswer_keeps {qs : List Piece} {a₀ b : Block} {l : Nat} (inside : Within [.lane l] qs) (before : Kept qs a₀ b) :
    Kept qs a₀ (Block.sendAnswer b l) := Kept.step (Block.sendAnswer_kept _ _) inside before

theorem Block.takeHello_kept (b : Block) (l : Nat) (roleA : Bool) (g : Fin 4) (h : Hello) : Kept [.lane l, .reg (lnOff Off.lnTxDrv l)] b (Block.takeHello b l roleA g h) := by
  unfold Block.takeHello
  repeat' first
    | with_reducible assumption
    | with_reducible apply Kept.refl
    | with_reducible apply Within.refl
    | ((with_reducible apply Within.of); rfl)
    | ((with_reducible apply Within.cons); (apply Piece.inside_of; rfl))
    | ((with_reducible apply Within.cons); apply Or.inr)
    | with_reducible apply Within.nil
    | with_reducible apply List.mem_cons_self
    | with_reducible apply List.mem_cons_of_mem
    | (extract_lets +onlyGivenNames x
       first
       | (guard_hyp x : Block := _
          refine Kept.cut (ps := [.lane l, .reg (lnOff Off.lnTxDrv l)]) (b := b) (x := x) ?_ fun hx => ?_
          on_goal 1 => subst x
          on_goal 2 => try clear_value x)
       | clear_value x
       | skip)
    | with_reducible apply Block.rehunt_keeps
    | with_reducible apply Block.modLane_keeps
    | with_reducible apply Kept.ite
    | split

theorem Block.takeHello_keeps {qs : List Piece} {a₀ b : Block} {l : Nat} {roleA : Bool} {g : Fin 4} {h : Hello} (inside : Within [.lane l, .reg (lnOff Off.lnTxDrv l)] qs) (before : Kept qs a₀ b) :
    Kept qs a₀ (Block.takeHello b l roleA g h) := Kept.step (Block.takeHello_kept _ _ _ _ _) inside before

theorem Block.converge_kept (b : Block) (l : Nat) (erle : BitVec 8) : Kept [.lane l] b (Block.converge b l erle) := by
  unfold Block.converge
  repeat' first
    | with_reducible assumption
    | with_reducible apply Kept.refl
    | with_reducible apply Within.refl
    | ((with_reducible apply Within.of); rfl)
    | ((with_reducible apply Within.cons); (apply Piece.inside_of; rfl))
    | ((with_reducible apply Within.cons); apply Or.inr)
    | with_reducible apply Within.nil
    | with_reducible apply List.mem_cons_self
    | with_reducible apply List.mem_cons_of_mem
    | (simp only [Kept.by_fields]; with_reducible apply Kept.fields <;>
         first | with_reducible exact Or.inl rfl | (apply Or.inr; apply Piece.mem_of; rfl) | exact Or.inr (by simp; done) | (refine Or.inr ⟨?_, ?_⟩ <;> first | (apply Or.inl; apply Piece.mem_of; rfl) | exact Or.inl (by simp; done) | with_reducible exact Or.inr rfl | with_reducible exact Or.inr ⟨rfl, rfl, rfl, rfl⟩ | with_reducible exact Or.inr ⟨rfl, rfl, rfl, rfl, rfl⟩ | (refine ⟨?_, ?_⟩ <;> first | (apply Or.inl; apply Piece.mem_of; rfl) | exact Or.inl (by simp; done) | with_reducible exact Or.inr rfl)) | skip)
    | with_reducible apply Block.modLane_keeps
    | with_reducible apply Kept.ite
    | split

theorem Block.converge_keeps {qs : List Piece} {a₀ b : Block} {l : Nat} {erle : BitVec 8} (inside : Within [.lane l] qs) (before : Kept qs a₀ b) :
    Kept qs a₀ (Block.converge b l erle) := Kept.step (Block.converge_kept _ _ _) inside before

theorem Block.ownWindow_kept (b : Block) (l : Nat) (ui : Nat) (signalUi : Nat) (erle : BitVec 8) : Kept [.lane l, .regs] b (Block.ownWindow b l ui signalUi erle) := by
  unfold Block.ownWindow
  repeat' first
    | with_reducible assumption
    | with_reducible apply Kept.refl
    | with_reducible apply Within.refl
    | ((with_reducible apply Within.of); rfl)
    | ((with_reducible apply Within.cons); (apply Piece.inside_of; rfl))
    | ((with_reducible apply Within.cons); apply Or.inr)
    | with_reducible apply Within.nil
    | with_reducible apply List.mem_cons_self
    | with_reducible apply List.mem_cons_of_mem
    | with_reducible apply Block.winDiscard_keeps
    | with_reducible apply Block.converge_keeps
    | with_reducible apply Kept.ite
    | split

theorem Block.ownWindow_keeps {qs : List Piece} {a₀ b : Block} {l : Nat} {ui : Nat} {signalUi : Nat} {erle : BitVec 8} (inside : Within [.lane l, .regs] qs) (before : Kept qs a₀ b) :
    Kept qs a₀ (Block.ownWindow b l ui signalUi erle) := Kept.step (Block.ownWindow_kept _ _ _ _ _) inside before

theorem Block.lockWindow_kept (b : Block) (l : Nat) (own : Bool) (ui : Nat) (signalUi : Nat) (erle : BitVec 8) : Kept [.events, .lane l, .regs, .sides] b (Block.lockWindow b l own ui signalUi erle) := by
  unfold Block.lockWindow
  repeat' first
    | with_reducible assumption
    | with_reducible apply Kept.refl
    | with_reducible apply Within.refl
    | ((with_reducible apply Within.of); rfl)
    | ((with_reducible apply Within.cons); (apply Piece.inside_of; rfl))
    | ((with_reducible apply Within.cons); apply Or.inr)
    | with_reducible apply Within.nil
    | with_reducible apply List.mem_cons_self
    | with_reducible apply List.mem_cons_of_mem
    | (extract_lets +onlyGivenNames x
       first
       | (guard_hyp x : Block := _
          refine Kept.cut (ps := [.events, .lane l, .regs, .sides]) (b := b) (x := x) ?_ fun hx => ?_
          on_goal 1 => subst x
          on_goal 2 => try clear_value x)
       | clear_value x
       | skip)
    | with_reducible apply Block.ownWindow_keeps
    | with_reducible apply Block.modLane_keeps
    | with_reducible apply Block.enterTrain_keeps
    | with_reducible apply Kept.ite
    | split

theorem Block.lockWindow_keeps {qs : List Piece} {a₀ b : Block} {l : Nat} {own : Bool} {ui : Nat} {signalUi : Nat} {erle : BitVec 8} (inside : Within [.events, .lane l, .regs, .sides] qs) (before : Kept qs a₀ b) :
    Kept qs a₀ (Block.lockWindow b l own ui signalUi erle) := Kept.step (Block.lockWindow_kept _ _ _ _ _ _) inside before

theorem Block.calRunNext_kept (b : Block) (cls : Nat) (u : Nat) (pass : Bool) : Kept [.ins, .running, .slots, .sv] b (Block.calRunNext b cls u pass) := by
  unfold Block.calRunNext
  repeat' first
    | with_reducible assumption
    | with_reducible apply Kept.refl
    | with_reducible apply Within.refl
    | ((with_reducible apply Within.of); rfl)
    | ((with_reducible apply Within.cons); (apply Piece.inside_of; rfl))
    | ((with_reducible apply Within.cons); apply Or.inr)
    | with_reducible apply Within.nil
    | with_reducible apply List.mem_cons_self
    | with_reducible apply List.mem_cons_of_mem
    | (extract_lets +onlyGivenNames x
       first
       | (guard_hyp x : Block := _
          refine Kept.cut (ps := [.ins, .running, .slots, .sv]) (b := b) (x := x) ?_ fun hx => ?_
          on_goal 1 => subst x
          on_goal 2 => try clear_value x)
       | clear_value x
       | skip)
    | (simp only [Kept.by_fields]; with_reducible apply Kept.fields <;>
         first | with_reducible exact Or.inl rfl | (apply Or.inr; apply Piece.mem_of; rfl) | exact Or.inr (by simp; done) | (refine Or.inr ⟨?_, ?_⟩ <;> first | (apply Or.inl; apply Piece.mem_of; rfl) | exact Or.inl (by simp; done) | with_reducible exact Or.inr rfl | with_reducible exact Or.inr ⟨rfl, rfl, rfl, rfl⟩ | with_reducible exact Or.inr ⟨rfl, rfl, rfl, rfl, rfl⟩ | (refine ⟨?_, ?_⟩ <;> first | (apply Or.inl; apply Piece.mem_of; rfl) | exact Or.inl (by simp; done) | with_reducible exact Or.inr rfl)) | skip)
    | with_reducible apply Block.finish_keeps
    | with_reducible apply Kept.ite
    | split

theorem Block.calRunNext_keeps {qs : List Piece} {a₀ b : Block} {cls : Nat} {u : Nat} {pass : Bool} (inside : Within [.ins, .running, .slots, .sv] qs) (before : Kept qs a₀ b) :
    Kept qs a₀ (Block.calRunNext b cls u pass) := Kept.step (Block.calRunNext_kept _ _ _ _) inside before

theorem Block.laneRun_kept (b : Block) (l : Nat) : Kept [.ins, .lane l, .running, .slots, .sv] b (Block.laneRun b l) := by
  unfold Block.laneRun
  repeat' first
    | with_reducible assumption
    | with_reducible apply Kept.refl
    | with_reducible apply Within.refl
    | ((with_reducible apply Within.of); rfl)
    | ((with_reducible apply Within.cons); (apply Piece.inside_of; rfl))
    | ((with_reducible apply Within.cons); apply Or.inr)
    | with_reducible apply Within.nil
    | with_reducible apply List.mem_cons_self
    | with_reducible apply List.mem_cons_of_mem
    | with_reducible apply Block.calRunNext_keeps
    | with_reducible apply Block.laneCalibrated_keeps
    | with_reducible apply Kept.ite
    | split

theorem Block.laneRun_keeps {qs : List Piece} {a₀ b : Block} {l : Nat} (inside : Within [.ins, .lane l, .running, .slots, .sv] qs) (before : Kept qs a₀ b) :
    Kept qs a₀ (Block.laneRun b l) := Kept.step (Block.laneRun_kept _ _) inside before

theorem Block.openCalWindow_kept (b : Block) (sd : Side) : Kept [.lanes, .side sd] b (Block.openCalWindow b sd) := by
  unfold Block.openCalWindow
  repeat' first
    | with_reducible assumption
    | with_reducible apply Kept.refl
    | with_reducible apply Within.refl
    | ((with_reducible apply Within.of); rfl)
    | ((with_reducible apply Within.cons); (apply Piece.inside_of; rfl))
    | ((with_reducible apply Within.cons); apply Or.inr)
    | with_reducible apply Within.nil
    | with_reducible apply List.mem_cons_self
    | with_reducible apply List.mem_cons_of_mem
    | (extract_lets +onlyGivenNames x
       first
       | (guard_hyp x : Block := _
          refine Kept.cut (ps := [.lanes, .side sd]) (b := b) (x := x) ?_ fun hx => ?_
          on_goal 1 => subst x
          on_goal 2 => try clear_value x)
       | clear_value x
       | skip)
    | (with_reducible apply Kept.each; intro _ _ _)
    | with_reducible apply Block.modLane_keeps
    | with_reducible apply Block.modSide_keeps
    | with_reducible apply Kept.ite
    | split

theorem Block.openCalWindow_keeps {qs : List Piece} {a₀ b : Block} {sd : Side} (inside : Within [.lanes, .side sd] qs) (before : Kept qs a₀ b) :
    Kept qs a₀ (Block.openCalWindow b sd) := Kept.step (Block.openCalWindow_kept _ _) inside before

theorem Block.takeWindow_kept (b : Block) (sd : Side) (lane : Option (Fin 16)) (seq : BitVec 8) (what : BitVec 8) (units : BitVec 16) : Kept [.lanes, .side sd] b (Block.takeWindow b sd lane seq what units) := by
  unfold Block.takeWindow
  repeat' first
    | with_reducible assumption
    | with_reducible apply Kept.refl
    | with_reducible apply Within.refl
    | ((with_reducible apply Within.of); rfl)
    | ((with_reducible apply Within.cons); (apply Piece.inside_of; rfl))
    | ((with_reducible apply Within.cons); apply Or.inr)
    | with_reducible apply Within.nil
    | with_reducible apply List.mem_cons_self
    | with_reducible apply List.mem_cons_of_mem
    | (extract_lets +onlyGivenNames x
       first
       | (guard_hyp x : Block := _
          refine Kept.cut (ps := [.lanes, .side sd]) (b := b) (x := x) ?_ fun hx => ?_
          on_goal 1 => subst x
          on_goal 2 => try clear_value x)
       | clear_value x
       | skip)
    | with_reducible apply Block.modLane_keeps
    | with_reducible apply Block.modSide_keeps
    | with_reducible apply Block.grantWindow_keeps
    | with_reducible apply Block.openCalWindow_keeps
    | with_reducible apply Kept.ite
    | split

theorem Block.takeWindow_keeps {qs : List Piece} {a₀ b : Block} {sd : Side} {lane : Option (Fin 16)} {seq : BitVec 8} {what : BitVec 8} {units : BitVec 16} (inside : Within [.lanes, .side sd] qs) (before : Kept qs a₀ b) :
    Kept qs a₀ (Block.takeWindow b sd lane seq what units) := Kept.step (Block.takeWindow_kept _ _ _ _ _ _) inside before

theorem Block.muteDone_kept (b : Block) (sd : Side) : Kept [.side sd] b (Block.muteDone b sd) := by
  unfold Block.muteDone
  repeat' first
    | with_reducible assumption
    | with_reducible apply Kept.refl
    | with_reducible apply Within.refl
    | ((with_reducible apply Within.of); rfl)
    | ((with_reducible apply Within.cons); (apply Piece.inside_of; rfl))
    | ((with_reducible apply Within.cons); apply Or.inr)
    | with_reducible apply Within.nil
    | with_reducible apply List.mem_cons_self
    | with_reducible apply List.mem_cons_of_mem
    | (extract_lets +onlyGivenNames x
       first
       | (guard_hyp x : Block := _
          refine Kept.cut (ps := [.side sd]) (b := b) (x := x) ?_ fun hx => ?_
          on_goal 1 => subst x
          on_goal 2 => try clear_value x)
       | clear_value x
       | skip)
    | with_reducible apply Block.modSide_keeps
    | with_reducible apply Block.grantWindow_keeps
    | with_reducible apply Kept.ite
    | split

theorem Block.muteDone_keeps {qs : List Piece} {a₀ b : Block} {sd : Side} (inside : Within [.side sd] qs) (before : Kept qs a₀ b) :
    Kept qs a₀ (Block.muteDone b sd) := Kept.step (Block.muteDone_kept _ _) inside before

theorem Block.abandon_kept (b : Block) (sd : Side) : Kept [.regs, .side sd] b (Block.abandon b sd) := by
  unfold Block.abandon
  repeat' first
    | with_reducible assumption
    | with_reducible apply Kept.refl
    | with_reducible apply Within.refl
    | ((with_reducible apply Within.of); rfl)
    | ((with_reducible apply Within.cons); (apply Piece.inside_of; rfl))
    | ((with_reducible apply Within.cons); apply Or.inr)
    | with_reducible apply Within.nil
    | with_reducible apply List.mem_cons_self
    | with_reducible apply List.mem_cons_of_mem
    | (extract_lets +onlyGivenNames x
       first
       | (guard_hyp x : Block := _
          refine Kept.cut (ps := [.regs, .side sd]) (b := b) (x := x) ?_ fun hx => ?_
          on_goal 1 => subst x
          on_goal 2 => try clear_value x)
       | clear_value x
       | skip)
    | with_reducible apply Block.endWindow_keeps
    | with_reducible apply Block.modSide_keeps
    | with_reducible apply Block.muteDone_keeps
    | with_reducible apply Block.askWindow_keeps
    | with_reducible apply Block.tryAsk_keeps
    | with_reducible apply Kept.ite
    | split

theorem Block.abandon_keeps {qs : List Piece} {a₀ b : Block} {sd : Side} (inside : Within [.regs, .side sd] qs) (before : Kept qs a₀ b) :
    Kept qs a₀ (Block.abandon b sd) := Kept.step (Block.abandon_kept _ _) inside before

theorem Block.quietSlot_kept (b : Block) (sd : Side) (obs : List SlotObs) : Kept [.ins, .lanes, .regs, .running, .side sd, .slots, .sv, .tl] b (Block.quietSlot b sd obs) := by
  unfold Block.quietSlot
  repeat' first
    | with_reducible assumption
    | with_reducible apply Kept.refl
    | with_reducible apply Within.refl
    | ((with_reducible apply Within.of); rfl)
    | ((with_reducible apply Within.cons); (apply Piece.inside_of; rfl))
    | ((with_reducible apply Within.cons); apply Or.inr)
    | with_reducible apply Within.nil
    | with_reducible apply List.mem_cons_self
    | with_reducible apply List.mem_cons_of_mem
    | (extract_lets +onlyGivenNames x
       first
       | (guard_hyp x : Block := _
          refine Kept.cut (ps := [.ins, .lanes, .regs, .running, .side sd, .slots, .sv, .tl]) (b := b) (x := x) ?_ fun hx => ?_
          on_goal 1 => subst x
          on_goal 2 => try clear_value x)
       | clear_value x
       | skip)
    | (with_reducible apply Kept.each; intro _ _ _)
    | with_reducible apply Block.tally_keeps
    | with_reducible apply Block.modSide_keeps
    | with_reducible apply Block.endWindow_keeps
    | with_reducible apply Block.converge_keeps
    | with_reducible apply Block.modLane_keeps
    | with_reducible apply Block.laneRun_keeps
    | with_reducible apply Block.askWindow_keeps
    | with_reducible apply Block.tryAsk_keeps
    | with_reducible apply Kept.ite
    | split

theorem Block.quietSlot_keeps {qs : List Piece} {a₀ b : Block} {sd : Side} {obs : List SlotObs} (inside : Within [.ins, .lanes, .regs, .running, .side sd, .slots, .sv, .tl] qs) (before : Kept qs a₀ b) :
    Kept qs a₀ (Block.quietSlot b sd obs) := Kept.step (Block.quietSlot_kept _ _ _) inside before

theorem Block.answerTap_kept (b : Block) (l : Nat) (seq : BitVec 8) (st : BitVec 8) : Kept [.fresh, .lane l] b (Block.answerTap b l seq st) := by
  unfold Block.answerTap
  repeat' first
    | with_reducible assumption
    | with_reducible apply Kept.refl
    | with_reducible apply Within.refl
    | ((with_reducible apply Within.of); rfl)
    | ((with_reducible apply Within.cons); (apply Piece.inside_of; rfl))
    | ((with_reducible apply Within.cons); apply Or.inr)
    | with_reducible apply Within.nil
    | with_reducible apply List.mem_cons_self
    | with_reducible apply List.mem_cons_of_mem
    | (extract_lets +onlyGivenNames x
       first
       | (guard_hyp x : Block := _
          refine Kept.cut (ps := [.fresh, .lane l]) (b := b) (x := x) ?_ fun hx => ?_
          on_goal 1 => subst x
          on_goal 2 => try clear_value x)
       | clear_value x
       | skip)
    | with_reducible apply Block.draw_keeps
    | with_reducible apply Block.modLane_keeps
    | with_reducible apply Kept.ite
    | split

theorem Block.answerTap_keeps {qs : List Piece} {a₀ b : Block} {l : Nat} {seq : BitVec 8} {st : BitVec 8} (inside : Within [.fresh, .lane l] qs) (before : Kept qs a₀ b) :
    Kept qs a₀ (Block.answerTap b l seq st) := Kept.step (Block.answerTap_kept _ _ _ _) inside before

theorem Block.newTapReq_kept (b : Block) (l : Nat) (seq : BitVec 8) (tap : BitVec 8) (act : BitVec 8) : Kept [.fresh, .lane l] b (Block.newTapReq b l seq tap act) := by
  unfold Block.newTapReq
  repeat' first
    | with_reducible assumption
    | with_reducible apply Kept.refl
    | with_reducible apply Within.refl
    | ((with_reducible apply Within.of); rfl)
    | ((with_reducible apply Within.cons); (apply Piece.inside_of; rfl))
    | ((with_reducible apply Within.cons); apply Or.inr)
    | with_reducible apply Within.nil
    | with_reducible apply List.mem_cons_self
    | with_reducible apply List.mem_cons_of_mem
    | with_reducible apply Block.answerTap_keeps
    | with_reducible apply Block.modLane_keeps
    | with_reducible apply Kept.ite
    | split

theorem Block.newTapReq_keeps {qs : List Piece} {a₀ b : Block} {l : Nat} {seq : BitVec 8} {tap : BitVec 8} {act : BitVec 8} (inside : Within [.fresh, .lane l] qs) (before : Kept qs a₀ b) :
    Kept qs a₀ (Block.newTapReq b l seq tap act) := Kept.step (Block.newTapReq_kept _ _ _ _ _) inside before

theorem Block.takeTapReq_kept (b : Block) (l : Nat) (seq : BitVec 8) (tap : BitVec 8) (act : BitVec 8) : Kept [.fresh, .lane l] b (Block.takeTapReq b l seq tap act) := by
  unfold Block.takeTapReq
  repeat' first
    | with_reducible assumption
    | with_reducible apply Kept.refl
    | with_reducible apply Within.refl
    | ((with_reducible apply Within.of); rfl)
    | ((with_reducible apply Within.cons); (apply Piece.inside_of; rfl))
    | ((with_reducible apply Within.cons); apply Or.inr)
    | with_reducible apply Within.nil
    | with_reducible apply List.mem_cons_self
    | with_reducible apply List.mem_cons_of_mem
    | (extract_lets +onlyGivenNames x
       first
       | (guard_hyp x : Block := _
          refine Kept.cut (ps := [.fresh, .lane l]) (b := b) (x := x) ?_ fun hx => ?_
          on_goal 1 => subst x
          on_goal 2 => try clear_value x)
       | clear_value x
       | skip)
    | with_reducible apply Block.modLane_keeps
    | with_reducible apply Block.newTapReq_keeps
    | with_reducible apply Kept.ite
    | split

theorem Block.takeTapReq_keeps {qs : List Piece} {a₀ b : Block} {l : Nat} {seq : BitVec 8} {tap : BitVec 8} {act : BitVec 8} (inside : Within [.fresh, .lane l] qs) (before : Kept qs a₀ b) :
    Kept qs a₀ (Block.takeTapReq b l seq tap act) := Kept.step (Block.takeTapReq_kept _ _ _ _ _) inside before

theorem Block.searchNext_kept (b : Block) (l : Nat) (c : Search) : Kept [.cnt, .events, .fws, .ins, .lanes, .mf, .pw, .qy, .regs, .running, .sides, .slots, .tl] b (Block.searchNext b l c) := by
  unfold Block.searchNext
  repeat' first
    | with_reducible assumption
    | with_reducible apply Kept.refl
    | with_reducible apply Within.refl
    | ((with_reducible apply Within.of); rfl)
    | ((with_reducible apply Within.cons); (apply Piece.inside_of; rfl))
    | ((with_reducible apply Within.cons); apply Or.inr)
    | with_reducible apply Within.nil
    | with_reducible apply List.mem_cons_self
    | with_reducible apply List.mem_cons_of_mem
    | (extract_lets +onlyGivenNames x
       first
       | (guard_hyp x : Block := _
          refine Kept.cut (ps := [.cnt, .events, .fws, .ins, .lanes, .mf, .pw, .qy, .regs, .running, .sides, .slots, .tl]) (b := b) (x := x) ?_ fun hx => ?_
          on_goal 1 => subst x
          on_goal 2 => try clear_value x)
       | clear_value x
       | skip)
    | with_reducible apply Block.modLane_keeps
    | with_reducible apply Block.outcome_keeps
    | with_reducible apply Kept.ite
    | split

theorem Block.searchNext_keeps {qs : List Piece} {a₀ b : Block} {l : Nat} {c : Search} (inside : Within [.cnt, .events, .fws, .ins, .lanes, .mf, .pw, .qy, .regs, .running, .sides, .slots, .tl] qs) (before : Kept qs a₀ b) :
    Kept qs a₀ (Block.searchNext b l c) := Kept.step (Block.searchNext_kept _ _ _) inside before

theorem Block.takeTapRsp_kept (b : Block) (l : Nat) (seq : BitVec 8) (status : BitVec 8) : Kept [.cnt, .events, .fws, .ins, .lanes, .mf, .pw, .qy, .regs, .running, .sides, .slots, .tl] b (Block.takeTapRsp b l seq status) := by
  unfold Block.takeTapRsp
  repeat' first
    | with_reducible assumption
    | with_reducible apply Kept.refl
    | with_reducible apply Within.refl
    | ((with_reducible apply Within.of); rfl)
    | ((with_reducible apply Within.cons); (apply Piece.inside_of; rfl))
    | ((with_reducible apply Within.cons); apply Or.inr)
    | with_reducible apply Within.nil
    | with_reducible apply List.mem_cons_self
    | with_reducible apply List.mem_cons_of_mem
    | (extract_lets +onlyGivenNames x
       first
       | (guard_hyp x : Block := _
          refine Kept.cut (ps := [.cnt, .events, .fws, .ins, .lanes, .mf, .pw, .qy, .regs, .running, .sides, .slots, .tl]) (b := b) (x := x) ?_ fun hx => ?_
          on_goal 1 => subst x
          on_goal 2 => try clear_value x)
       | clear_value x
       | skip)
    | with_reducible apply Block.modLane_keeps
    | with_reducible apply Block.searchNext_keeps
    | with_reducible apply Kept.ite
    | split

theorem Block.takeTapRsp_keeps {qs : List Piece} {a₀ b : Block} {l : Nat} {seq : BitVec 8} {status : BitVec 8} (inside : Within [.cnt, .events, .fws, .ins, .lanes, .mf, .pw, .qy, .regs, .running, .sides, .slots, .tl] qs) (before : Kept qs a₀ b) :
    Kept qs a₀ (Block.takeTapRsp b l seq status) := Kept.step (Block.takeTapRsp_kept _ _ _ _) inside before

theorem Block.adapt_kept (b : Block) (l : Nat) (ctle : BitVec 4) (ffe : List (BitVec 8)) (dfe : BitVec 7) : Kept [.lane l] b (Block.adapt b l ctle ffe dfe) := by
  unfold Block.adapt
  repeat' first
    | with_reducible assumption
    | with_reducible apply Kept.refl
    | with_reducible apply Within.refl
    | ((with_reducible apply Within.of); rfl)
    | ((with_reducible apply Within.cons); (apply Piece.inside_of; rfl))
    | ((with_reducible apply Within.cons); apply Or.inr)
    | with_reducible apply Within.nil
    | with_reducible apply List.mem_cons_self
    | with_reducible apply List.mem_cons_of_mem
    | (extract_lets +onlyGivenNames x
       first
       | (guard_hyp x : Block := _
          refine Kept.cut (ps := [.lane l]) (b := b) (x := x) ?_ fun hx => ?_
          on_goal 1 => subst x
          on_goal 2 => try clear_value x)
       | clear_value x
       | skip)
    | with_reducible apply Block.modLane_keeps
    | with_reducible apply Kept.ite
    | split

theorem Block.adapt_keeps {qs : List Piece} {a₀ b : Block} {l : Nat} {ctle : BitVec 4} {ffe : List (BitVec 8)} {dfe : BitVec 7} (inside : Within [.lane l] qs) (before : Kept qs a₀ b) :
    Kept qs a₀ (Block.adapt b l ctle ffe dfe) := Kept.step (Block.adapt_kept _ _ _ _ _) inside before

theorem Block.fomDone_kept (b : Block) (l : Nat) (fom : Nat) (ctle : BitVec 4) (ffe : List (BitVec 8)) (dfe : BitVec 7) : Kept [.lane l] b (Block.fomDone b l fom ctle ffe dfe) := by
  unfold Block.fomDone
  repeat' first
    | with_reducible assumption
    | with_reducible apply Kept.refl
    | with_reducible apply Within.refl
    | ((with_reducible apply Within.of); rfl)
    | ((with_reducible apply Within.cons); (apply Piece.inside_of; rfl))
    | ((with_reducible apply Within.cons); apply Or.inr)
    | with_reducible apply Within.nil
    | with_reducible apply List.mem_cons_self
    | with_reducible apply List.mem_cons_of_mem
    | (extract_lets +onlyGivenNames x
       first
       | (guard_hyp x : Block := _
          refine Kept.cut (ps := [.lane l]) (b := b) (x := x) ?_ fun hx => ?_
          on_goal 1 => subst x
          on_goal 2 => try clear_value x)
       | clear_value x
       | skip)
    | with_reducible apply Block.adapt_keeps
    | with_reducible apply Block.modLane_keeps
    | with_reducible apply Kept.ite
    | split

theorem Block.fomDone_keeps {qs : List Piece} {a₀ b : Block} {l : Nat} {fom : Nat} {ctle : BitVec 4} {ffe : List (BitVec 8)} {dfe : BitVec 7} (inside : Within [.lane l] qs) (before : Kept qs a₀ b) :
    Kept qs a₀ (Block.fomDone b l fom ctle ffe dfe) := Kept.step (Block.fomDone_kept _ _ _ _ _ _) inside before

theorem Block.tapTimeout_kept (b : Block) (l : Nat) : Kept [.cnt, .events, .fws, .ins, .lanes, .mf, .pw, .qy, .regs, .running, .sides, .slots, .tl] b (Block.tapTimeout b l) := by
  unfold Block.tapTimeout
  repeat' first
    | with_reducible assumption
    | with_reducible apply Kept.refl
    | with_reducible apply Within.refl
    | ((with_reducible apply Within.of); rfl)
    | ((with_reducible apply Within.cons); (apply Piece.inside_of; rfl))
    | ((with_reducible apply Within.cons); apply Or.inr)
    | with_reducible apply Within.nil
    | with_reducible apply List.mem_cons_self
    | with_reducible apply List.mem_cons_of_mem
    | with_reducible apply Block.modLane_keeps
    | with_reducible apply Block.outcome_keeps
    | with_reducible apply Kept.ite
    | split

theorem Block.tapTimeout_keeps {qs : List Piece} {a₀ b : Block} {l : Nat} (inside : Within [.cnt, .events, .fws, .ins, .lanes, .mf, .pw, .qy, .regs, .running, .sides, .slots, .tl] qs) (before : Kept qs a₀ b) :
    Kept qs a₀ (Block.tapTimeout b l) := Kept.step (Block.tapTimeout_kept _ _) inside before

theorem Block.takeCap_kept (b : Block) (sd : Side) (seq : BitVec 8) (c : Cap) : Kept [.events, .reg Off.lgAlarm, .side (otherSide sd), .side sd] b (Block.takeCap b sd seq c) := by
  unfold Block.takeCap
  repeat' first
    | with_reducible assumption
    | with_reducible apply Kept.refl
    | with_reducible apply Within.refl
    | ((with_reducible apply Within.of); rfl)
    | ((with_reducible apply Within.cons); (apply Piece.inside_of; rfl))
    | ((with_reducible apply Within.cons); apply Or.inr)
    | with_reducible apply Within.nil
    | with_reducible apply List.mem_cons_self
    | with_reducible apply List.mem_cons_of_mem
    | (extract_lets +onlyGivenNames x
       first
       | (guard_hyp x : Block := _
          refine Kept.cut (ps := [.events, .reg Off.lgAlarm, .side (otherSide sd), .side sd]) (b := b) (x := x) ?_ fun hx => ?_
          on_goal 1 => subst x
          on_goal 2 => try clear_value x)
       | clear_value x
       | skip)
    | with_reducible apply Block.modSide_keeps
    | with_reducible apply Block.forwardCap_keeps
    | with_reducible apply Block.event_keeps
    | with_reducible apply Kept.ite
    | split

theorem Block.takeCap_keeps {qs : List Piece} {a₀ b : Block} {sd : Side} {seq : BitVec 8} {c : Cap} (inside : Within [.events, .reg Off.lgAlarm, .side (otherSide sd), .side sd] qs) (before : Kept qs a₀ b) :
    Kept qs a₀ (Block.takeCap b sd seq c) := Kept.step (Block.takeCap_kept _ _ _ _) inside before

theorem Block.takeGrants_kept (b : Block) (sd : Side) (c : Commit) : Kept [.events, .reg Off.lgAlarm, .side sd] b (Block.takeGrants b sd c) := by
  unfold Block.takeGrants
  repeat' first
    | with_reducible assumption
    | with_reducible apply Kept.refl
    | with_reducible apply Within.refl
    | ((with_reducible apply Within.of); rfl)
    | ((with_reducible apply Within.cons); (apply Piece.inside_of; rfl))
    | ((with_reducible apply Within.cons); apply Or.inr)
    | with_reducible apply Within.nil
    | with_reducible apply List.mem_cons_self
    | with_reducible apply List.mem_cons_of_mem
    | (extract_lets +onlyGivenNames x
       first
       | (guard_hyp x : Block := _
          refine Kept.cut (ps := [.events, .reg Off.lgAlarm, .side sd]) (b := b) (x := x) ?_ fun hx => ?_
          on_goal 1 => subst x
          on_goal 2 => try clear_value x)
       | clear_value x
       | skip)
    | with_reducible apply Block.modSide_keeps
    | with_reducible apply Block.grantBal_keeps
    | with_reducible apply Block.event_keeps
    | with_reducible apply Kept.ite
    | split

theorem Block.takeGrants_keeps {qs : List Piece} {a₀ b : Block} {sd : Side} {c : Commit} (inside : Within [.events, .reg Off.lgAlarm, .side sd] qs) (before : Kept qs a₀ b) :
    Kept qs a₀ (Block.takeGrants b sd c) := Kept.step (Block.takeGrants_kept _ _ _) inside before

theorem Block.quietRest_kept (b : Block) (sd : Side) (m : BitVec 16) : Kept [.lanes] b (Block.quietRest b sd m) := by
  unfold Block.quietRest
  repeat' first
    | with_reducible assumption
    | with_reducible apply Kept.refl
    | with_reducible apply Within.refl
    | ((with_reducible apply Within.of); rfl)
    | ((with_reducible apply Within.cons); (apply Piece.inside_of; rfl))
    | ((with_reducible apply Within.cons); apply Or.inr)
    | with_reducible apply Within.nil
    | with_reducible apply List.mem_cons_self
    | with_reducible apply List.mem_cons_of_mem
    | (extract_lets +onlyGivenNames x
       first
       | (guard_hyp x : Block := _
          refine Kept.cut (ps := [.lanes]) (b := b) (x := x) ?_ fun hx => ?_
          on_goal 1 => subst x
          on_goal 2 => try clear_value x)
       | clear_value x
       | skip)
    | (with_reducible apply Kept.each; intro _ _ _)
    | with_reducible apply Block.modLane_keeps
    | with_reducible apply Kept.ite
    | split

theorem Block.quietRest_keeps {qs : List Piece} {a₀ b : Block} {sd : Side} {m : BitVec 16} (inside : Within [.lanes] qs) (before : Kept qs a₀ b) :
    Kept qs a₀ (Block.quietRest b sd m) := Kept.step (Block.quietRest_kept _ _ _) inside before

theorem Block.sendStart_kept (b : Block) (sd : Side) (m : BitVec 16) : Kept [.side sd] b (Block.sendStart b sd m) := by
  unfold Block.sendStart
  repeat' first
    | with_reducible assumption
    | with_reducible apply Kept.refl
    | with_reducible apply Within.refl
    | ((with_reducible apply Within.of); rfl)
    | ((with_reducible apply Within.cons); (apply Piece.inside_of; rfl))
    | ((with_reducible apply Within.cons); apply Or.inr)
    | with_reducible apply Within.nil
    | with_reducible apply List.mem_cons_self
    | with_reducible apply List.mem_cons_of_mem
    | (extract_lets +onlyGivenNames x
       first
       | (guard_hyp x : Block := _
          refine Kept.cut (ps := [.side sd]) (b := b) (x := x) ?_ fun hx => ?_
          on_goal 1 => subst x
          on_goal 2 => try clear_value x)
       | clear_value x
       | skip)
    | with_reducible apply Block.modSide_keeps
    | with_reducible apply Kept.ite
    | split

theorem Block.sendStart_keeps {qs : List Piece} {a₀ b : Block} {sd : Side} {m : BitVec 16} (inside : Within [.side sd] qs) (before : Kept qs a₀ b) :
    Kept qs a₀ (Block.sendStart b sd m) := Kept.step (Block.sendStart_kept _ _ _) inside before

theorem Block.applyBlink_kept (b : Block) (sd : Side) (blink : Nat) : Kept [.lanes, .regs, .side sd] b (Block.applyBlink b sd blink) := by
  unfold Block.applyBlink
  repeat' first
    | with_reducible assumption
    | with_reducible apply Kept.refl
    | with_reducible apply Within.refl
    | ((with_reducible apply Within.of); rfl)
    | ((with_reducible apply Within.cons); (apply Piece.inside_of; rfl))
    | ((with_reducible apply Within.cons); apply Or.inr)
    | with_reducible apply Within.nil
    | with_reducible apply List.mem_cons_self
    | with_reducible apply List.mem_cons_of_mem
    | (extract_lets +onlyGivenNames x
       first
       | (guard_hyp x : Block := _
          refine Kept.cut (ps := [.lanes, .regs, .side sd]) (b := b) (x := x) ?_ fun hx => ?_
          on_goal 1 => subst x
          on_goal 2 => try clear_value x)
       | clear_value x
       | skip)
    | with_reducible apply Block.modSide_keeps
    | with_reducible apply Block.sendStart_keeps
    | with_reducible apply Block.quietRest_keeps
    | with_reducible apply Block.askReform_keeps
    | with_reducible apply Kept.ite
    | split

theorem Block.applyBlink_keeps {qs : List Piece} {a₀ b : Block} {sd : Side} {blink : Nat} (inside : Within [.lanes, .regs, .side sd] qs) (before : Kept qs a₀ b) :
    Kept qs a₀ (Block.applyBlink b sd blink) := Kept.step (Block.applyBlink_kept _ _ _) inside before

theorem Block.lowerTo_kept (b : Block) (sd : Side) (ucap : Nat) : Kept [.events, .lanes, .regs, .sides] b (Block.lowerTo b sd ucap) := by
  unfold Block.lowerTo
  repeat' first
    | with_reducible assumption
    | with_reducible apply Kept.refl
    | with_reducible apply Within.refl
    | ((with_reducible apply Within.of); rfl)
    | ((with_reducible apply Within.cons); (apply Piece.inside_of; rfl))
    | ((with_reducible apply Within.cons); apply Or.inr)
    | with_reducible apply Within.nil
    | with_reducible apply List.mem_cons_self
    | with_reducible apply List.mem_cons_of_mem
    | (extract_lets +onlyGivenNames x
       first
       | (guard_hyp x : Block := _
          refine Kept.cut (ps := [.events, .lanes, .regs, .sides]) (b := b) (x := x) ?_ fun hx => ?_
          on_goal 1 => subst x
          on_goal 2 => try clear_value x)
       | clear_value x
       | skip)
    | with_reducible apply Block.moveTo_keeps
    | with_reducible apply Block.modSide_keeps
    | with_reducible apply Kept.ite
    | split

theorem Block.lowerTo_keeps {qs : List Piece} {a₀ b : Block} {sd : Side} {ucap : Nat} (inside : Within [.events, .lanes, .regs, .sides] qs) (before : Kept qs a₀ b) :
    Kept qs a₀ (Block.lowerTo b sd ucap) := Kept.step (Block.lowerTo_kept _ _ _) inside before

theorem Block.takeCommit_kept (b : Block) (sd : Side) (seq : BitVec 8) (c : Commit) : Kept [.chs, .events, .lanes, .regs, .sides] b (Block.takeCommit b sd seq c) := by
  unfold Block.takeCommit
  repeat' first
    | with_reducible assumption
    | with_reducible apply Kept.refl
    | with_reducible apply Within.refl
    | ((with_reducible apply Within.of); rfl)
    | ((with_reducible apply Within.cons); (apply Piece.inside_of; rfl))
    | ((with_reducible apply Within.cons); apply Or.inr)
    | with_reducible apply Within.nil
    | with_reducible apply List.mem_cons_self
    | with_reducible apply List.mem_cons_of_mem
    | (extract_lets +onlyGivenNames x
       first
       | (guard_hyp x : Block := _
          refine Kept.cut (ps := [.chs, .events, .lanes, .regs, .sides]) (b := b) (x := x) ?_ fun hx => ?_
          on_goal 1 => subst x
          on_goal 2 => try clear_value x)
       | clear_value x
       | skip)
    | with_reducible apply Block.modSide_keeps
    | with_reducible apply Block.takeGrants_keeps
    | with_reducible apply Block.sendSeg_keeps
    | with_reducible apply Block.lowerTo_keeps
    | with_reducible apply Block.forwardCap_keeps
    | with_reducible apply Block.noteQuay_keeps
    | with_reducible apply Block.applyBlink_keeps
    | with_reducible apply Kept.ite
    | split

theorem Block.takeCommit_keeps {qs : List Piece} {a₀ b : Block} {sd : Side} {seq : BitVec 8} {c : Commit} (inside : Within [.chs, .events, .lanes, .regs, .sides] qs) (before : Kept qs a₀ b) :
    Kept qs a₀ (Block.takeCommit b sd seq c) := Kept.step (Block.takeCommit_kept _ _ _ _) inside before

theorem Block.enterRun_kept (b : Block) (sd : Side) : Kept [.chs, .cnt, .events, .fws, .ins, .lanes, .mf, .pw, .qy, .regs, .running, .sides, .slots, .sv, .tl] b (Block.enterRun b sd) := by
  unfold Block.enterRun
  repeat' first
    | with_reducible assumption
    | with_reducible apply Kept.refl
    | with_reducible apply Within.refl
    | ((with_reducible apply Within.of); rfl)
    | ((with_reducible apply Within.cons); (apply Piece.inside_of; rfl))
    | ((with_reducible apply Within.cons); apply Or.inr)
    | with_reducible apply Within.nil
    | with_reducible apply List.mem_cons_self
    | with_reducible apply List.mem_cons_of_mem
    | (extract_lets +onlyGivenNames x
       first
       | (guard_hyp x : Block := _
          refine Kept.cut (ps := [.chs, .cnt, .events, .fws, .ins, .lanes, .mf, .pw, .qy, .regs, .running, .sides, .slots, .sv, .tl]) (b := b) (x := x) ?_ fun hx => ?_
          on_goal 1 => subst x
          on_goal 2 => try clear_value x)
       | (have _t : _ → Block := x; clear _t; subst x; beta_reduce)
       | (have _t : _ → _ := x; clear _t; subst x; beta_reduce)
       | clear_value x
       | skip)
    | (with_reducible apply Kept.each; intro _ _ _)
    | with_reducible apply Block.laneRun_keeps
    | with_reducible apply Block.modLane_keeps
    | with_reducible apply Block.notePass_keeps
    | with_reducible apply Block.startHunt_keeps
    | with_reducible apply Block.retrainSide_keeps
    | with_reducible apply Block.modSide_keeps
    | with_reducible apply Block.grantBal_keeps
    | with_reducible apply Block.resizeSide_keeps
    | with_reducible apply Block.applyBlink_keeps
    | with_reducible apply Block.noteQuay_keeps
    | with_reducible apply Block.checkOpen_keeps
    | with_reducible apply Block.wakeWaiter_keeps
    | with_reducible apply Kept.ite
    | split

theorem Block.enterRun_keeps {qs : List Piece} {a₀ b : Block} {sd : Side} (inside : Within [.chs, .cnt, .events, .fws, .ins, .lanes, .mf, .pw, .qy, .regs, .running, .sides, .slots, .sv, .tl] qs) (before : Kept qs a₀ b) :
    Kept qs a₀ (Block.enterRun b sd) := Kept.step (Block.enterRun_kept _ _) inside before

theorem Block.takeStart_kept (b : Block) (sd : Side) (own : Bool) (skew : List (Fin 16 × Nat)) : Kept [.chs, .cnt, .events, .fws, .ins, .lanes, .mf, .pw, .qy, .regs, .running, .sides, .slots, .sv, .tl] b (Block.takeStart b sd own skew) := by
  unfold Block.takeStart
  repeat' first
    | with_reducible assumption
    | with_reducible apply Kept.refl
    | with_reducible apply Within.refl
    | ((with_reducible apply Within.of); rfl)
    | ((with_reducible apply Within.cons); (apply Piece.inside_of; rfl))
    | ((with_reducible apply Within.cons); apply Or.inr)
    | with_reducible apply Within.nil
    | with_reducible apply List.mem_cons_self
    | with_reducible apply List.mem_cons_of_mem
    | (extract_lets +onlyGivenNames x
       first
       | (guard_hyp x : Block := _
          refine Kept.cut (ps := [.chs, .cnt, .events, .fws, .ins, .lanes, .mf, .pw, .qy, .regs, .running, .sides, .slots, .sv, .tl]) (b := b) (x := x) ?_ fun hx => ?_
          on_goal 1 => subst x
          on_goal 2 => try clear_value x)
       | clear_value x
       | skip)
    | with_reducible apply Block.modSide_keeps
    | with_reducible apply Block.enterRun_keeps
    | with_reducible apply Kept.ite
    | split

theorem Block.takeStart_keeps {qs : List Piece} {a₀ b : Block} {sd : Side} {own : Bool} {skew : List (Fin 16 × Nat)} (inside : Within [.chs, .cnt, .events, .fws, .ins, .lanes, .mf, .pw, .qy, .regs, .running, .sides, .slots, .sv, .tl] qs) (before : Kept qs a₀ b) :
    Kept qs a₀ (Block.takeStart b sd own skew) := Kept.step (Block.takeStart_kept _ _ _ _) inside before

theorem Block.takeMove_kept (b : Block) (sd : Side) (seq : BitVec 8) (grade : Fin 4) : Kept [.count (fwOff Off.fwDropLo (otherSide sd)), .count Off.qyCplDiscardLo, .events, .fw (otherSide sd), .ins, .lanes, .qy, .regs, .sides, .tl] b (Block.takeMove b sd seq grade) := by
  unfold Block.takeMove
  repeat' first
    | with_reducible assumption
    | with_reducible apply Kept.refl
    | with_reducible apply Within.refl
    | ((with_reducible apply Within.of); rfl)
    | ((with_reducible apply Within.cons); (apply Piece.inside_of; rfl))
    | ((with_reducible apply Within.cons); apply Or.inr)
    | with_reducible apply Within.nil
    | with_reducible apply List.mem_cons_self
    | with_reducible apply List.mem_cons_of_mem
    | (extract_lets +onlyGivenNames x
       first
       | (guard_hyp x : Block := _
          refine Kept.cut (ps := [.count (fwOff Off.fwDropLo (otherSide sd)), .count Off.qyCplDiscardLo, .events, .fw (otherSide sd), .ins, .lanes, .qy, .regs, .sides, .tl]) (b := b) (x := x) ?_ fun hx => ?_
          on_goal 1 => subst x
          on_goal 2 => try clear_value x)
       | clear_value x
       | skip)
    | with_reducible apply Block.modSide_keeps
    | with_reducible apply Block.purgeSide_keeps
    | with_reducible apply Block.moveNow_keeps
    | with_reducible apply Kept.ite
    | split

theorem Block.takeMove_keeps {qs : List Piece} {a₀ b : Block} {sd : Side} {seq : BitVec 8} {grade : Fin 4} (inside : Within [.count (fwOff Off.fwDropLo (otherSide sd)), .count Off.qyCplDiscardLo, .events, .fw (otherSide sd), .ins, .lanes, .qy, .regs, .sides, .tl] qs) (before : Kept qs a₀ b) :
    Kept qs a₀ (Block.takeMove b sd seq grade) := Kept.step (Block.takeMove_kept _ _ _ _) inside before

theorem Block.partnerDrops_kept (b : Block) (sd : Side) (m : BitVec 16) : Kept [.sides] b (Block.partnerDrops b sd m) := by
  unfold Block.partnerDrops
  repeat' first
    | with_reducible assumption
    | with_reducible apply Kept.refl
    | with_reducible apply Within.refl
    | ((with_reducible apply Within.of); rfl)
    | ((with_reducible apply Within.cons); (apply Piece.inside_of; rfl))
    | ((with_reducible apply Within.cons); apply Or.inr)
    | with_reducible apply Within.nil
    | with_reducible apply List.mem_cons_self
    | with_reducible apply List.mem_cons_of_mem
    | (extract_lets +onlyGivenNames x
       first
       | (guard_hyp x : Block := _
          refine Kept.cut (ps := [.sides]) (b := b) (x := x) ?_ fun hx => ?_
          on_goal 1 => subst x
          on_goal 2 => try clear_value x)
       | clear_value x
       | skip)
    | (with_reducible apply Kept.each; intro _ _ _)
    | with_reducible apply Block.notePass_keeps
    | with_reducible apply Kept.ite
    | split

theorem Block.partnerDrops_keeps {qs : List Piece} {a₀ b : Block} {sd : Side} {m : BitVec 16} (inside : Within [.sides] qs) (before : Kept qs a₀ b) :
    Kept qs a₀ (Block.partnerDrops b sd m) := Kept.step (Block.partnerDrops_kept _ _ _) inside before

theorem Block.takeReform_kept (b : Block) (sd : Side) (seq : BitVec 8) (mask : BitVec 16) : Kept [.lanes, .regs, .sides] b (Block.takeReform b sd seq mask) := by
  unfold Block.takeReform
  repeat' first
    | with_reducible assumption
    | with_reducible apply Kept.refl
    | with_reducible apply Within.refl
    | ((with_reducible apply Within.of); rfl)
    | ((with_reducible apply Within.cons); (apply Piece.inside_of; rfl))
    | ((with_reducible apply Within.cons); apply Or.inr)
    | with_reducible apply Within.nil
    | with_reducible apply List.mem_cons_self
    | with_reducible apply List.mem_cons_of_mem
    | (extract_lets +onlyGivenNames x
       first
       | (guard_hyp x : Block := _
          refine Kept.cut (ps := [.lanes, .regs, .sides]) (b := b) (x := x) ?_ fun hx => ?_
          on_goal 1 => subst x
          on_goal 2 => try clear_value x)
       | clear_value x
       | skip)
    | with_reducible apply Block.modSide_keeps
    | with_reducible apply Block.askReform_keeps
    | with_reducible apply Block.partnerDrops_keeps
    | with_reducible apply Kept.ite
    | split

theorem Block.takeReform_keeps {qs : List Piece} {a₀ b : Block} {sd : Side} {seq : BitVec 8} {mask : BitVec 16} (inside : Within [.lanes, .regs, .sides] qs) (before : Kept qs a₀ b) :
    Kept qs a₀ (Block.takeReform b sd seq mask) := Kept.step (Block.takeReform_kept _ _ _ _) inside before

theorem Block.countPrbs_kept (b : Block) (l : Nat) (bits : Nat) (errors : Nat) : Kept [.count (lnOff Off.lnPrbsBitsLo l), .count (lnOff Off.lnPrbsErrLo l), .lane l] b (Block.countPrbs b l bits errors) := by
  unfold Block.countPrbs
  repeat' first
    | with_reducible assumption
    | with_reducible apply Kept.refl
    | with_reducible apply Within.refl
    | ((with_reducible apply Within.of); rfl)
    | ((with_reducible apply Within.cons); (apply Piece.inside_of; rfl))
    | ((with_reducible apply Within.cons); apply Or.inr)
    | with_reducible apply Within.nil
    | with_reducible apply List.mem_cons_self
    | with_reducible apply List.mem_cons_of_mem
    | (extract_lets +onlyGivenNames x
       first
       | (guard_hyp x : Block := _
          refine Kept.cut (ps := [.count (lnOff Off.lnPrbsBitsLo l), .count (lnOff Off.lnPrbsErrLo l), .lane l]) (b := b) (x := x) ?_ fun hx => ?_
          on_goal 1 => subst x
          on_goal 2 => try clear_value x)
       | clear_value x
       | skip)
    | with_reducible apply Block.setCount_keeps
    | with_reducible apply Block.modLane_keeps
    | with_reducible apply Kept.ite
    | split

theorem Block.countPrbs_keeps {qs : List Piece} {a₀ b : Block} {l : Nat} {bits : Nat} {errors : Nat} (inside : Within [.count (lnOff Off.lnPrbsBitsLo l), .count (lnOff Off.lnPrbsErrLo l), .lane l] qs) (before : Kept qs a₀ b) :
    Kept qs a₀ (Block.countPrbs b l bits errors) := Kept.step (Block.countPrbs_kept _ _ _ _) inside before

theorem Block.prbsEnd_kept (b : Block) (l : Nat) : Kept [.cnt, .events, .fws, .ins, .lanes, .mf, .pw, .qy, .regs, .running, .sides, .slots, .tl] b (Block.prbsEnd b l) := by
  unfold Block.prbsEnd
  repeat' first
    | with_reducible assumption
    | with_reducible apply Kept.refl
    | with_reducible apply Within.refl
    | ((with_reducible apply Within.of); rfl)
    | ((with_reducible apply Within.cons); (apply Piece.inside_of; rfl))
    | ((with_reducible apply Within.cons); apply Or.inr)
    | with_reducible apply Within.nil
    | with_reducible apply List.mem_cons_self
    | with_reducible apply List.mem_cons_of_mem
    | (extract_lets +onlyGivenNames x
       first
       | (guard_hyp x : Block := _
          refine Kept.cut (ps := [.cnt, .events, .fws, .ins, .lanes, .mf, .pw, .qy, .regs, .running, .sides, .slots, .tl]) (b := b) (x := x) ?_ fun hx => ?_
          on_goal 1 => subst x
          on_goal 2 => try clear_value x)
       | clear_value x
       | skip)
    | with_reducible apply Block.modLane_keeps
    | with_reducible apply Block.outcome_keeps
    | with_reducible apply Block.finish_keeps
    | with_reducible apply Kept.ite
    | split

theorem Block.prbsEnd_keeps {qs : List Piece} {a₀ b : Block} {l : Nat} (inside : Within [.cnt, .events, .fws, .ins, .lanes, .mf, .pw, .qy, .regs, .running, .sides, .slots, .tl] qs) (before : Kept qs a₀ b) :
    Kept qs a₀ (Block.prbsEnd b l) := Kept.step (Block.prbsEnd_kept _ _) inside before

theorem Block.checkBit_kept (b : Block) (l : Nat) (pat : BitVec 2) (c : Bool) : Kept [.count (lnOff Off.lnPrbsBitsLo l), .count (lnOff Off.lnPrbsErrLo l), .lane l, .reg (lnOff Off.lnPrbsStatus l)] b (Block.checkBit b l pat c) := by
  unfold Block.checkBit
  repeat' first
    | with_reducible assumption
    | with_reducible apply Kept.refl
    | with_reducible apply Within.refl
    | ((with_reducible apply Within.of); rfl)
    | ((with_reducible apply Within.cons); (apply Piece.inside_of; rfl))
    | ((with_reducible apply Within.cons); apply Or.inr)
    | with_reducible apply Within.nil
    | with_reducible apply List.mem_cons_self
    | with_reducible apply List.mem_cons_of_mem
    | (extract_lets +onlyGivenNames x
       first
       | (guard_hyp x : Block := _
          refine Kept.cut (ps := [.count (lnOff Off.lnPrbsBitsLo l), .count (lnOff Off.lnPrbsErrLo l), .lane l, .reg (lnOff Off.lnPrbsStatus l)]) (b := b) (x := x) ?_ fun hx => ?_
          on_goal 1 => subst x
          on_goal 2 => try clear_value x)
       | clear_value x
       | skip)
    | with_reducible apply Block.countPrbs_keeps
    | with_reducible apply Block.orReg_keeps
    | with_reducible apply Block.modLane_keeps
    | with_reducible apply Kept.ite
    | split

theorem Block.checkBit_keeps {qs : List Piece} {a₀ b : Block} {l : Nat} {pat : BitVec 2} {c : Bool} (inside : Within [.count (lnOff Off.lnPrbsBitsLo l), .count (lnOff Off.lnPrbsErrLo l), .lane l, .reg (lnOff Off.lnPrbsStatus l)] qs) (before : Kept qs a₀ b) :
    Kept qs a₀ (Block.checkBit b l pat c) := Kept.step (Block.checkBit_kept _ _ _ _) inside before

theorem Block.checkBits_kept (b : Block) (l : Nat) (rx : List Bool) : Kept [.count (lnOff Off.lnPrbsBitsLo l), .count (lnOff Off.lnPrbsErrLo l), .lane l, .reg (lnOff Off.lnPrbsStatus l)] b (Block.checkBits b l rx) := by
  unfold Block.checkBits
  repeat' first
    | with_reducible assumption
    | with_reducible apply Kept.refl
    | with_reducible apply Within.refl
    | ((with_reducible apply Within.of); rfl)
    | ((with_reducible apply Within.cons); (apply Piece.inside_of; rfl))
    | ((with_reducible apply Within.cons); apply Or.inr)
    | with_reducible apply Within.nil
    | with_reducible apply List.mem_cons_self
    | with_reducible apply List.mem_cons_of_mem
    | (with_reducible apply Kept.foldl; intro _ _ _)
    | with_reducible apply Block.checkBit_keeps
    | with_reducible apply Kept.ite
    | split

theorem Block.checkBits_keeps {qs : List Piece} {a₀ b : Block} {l : Nat} {rx : List Bool} (inside : Within [.count (lnOff Off.lnPrbsBitsLo l), .count (lnOff Off.lnPrbsErrLo l), .lane l, .reg (lnOff Off.lnPrbsStatus l)] qs) (before : Kept qs a₀ b) :
    Kept qs a₀ (Block.checkBits b l rx) := Kept.step (Block.checkBits_kept _ _ _) inside before

theorem Block.fastAlarm_kept (b : Block) (l : Nat) (bit : Word) (expected : Bool) : Kept [.cnt, .events, .fws, .ins, .lanes, .qy, .regs, .sides, .tl] b (Block.fastAlarm b l bit expected) := by
  unfold Block.fastAlarm
  repeat' first
    | with_reducible assumption
    | with_reducible apply Kept.refl
    | with_reducible apply Within.refl
    | ((with_reducible apply Within.of); rfl)
    | ((with_reducible apply Within.cons); (apply Piece.inside_of; rfl))
    | ((with_reducible apply Within.cons); apply Or.inr)
    | with_reducible apply Within.nil
    | with_reducible apply List.mem_cons_self
    | with_reducible apply List.mem_cons_of_mem
    | with_reducible apply Block.dropLaneFull_keeps
    | with_reducible apply Block.orReg_keeps
    | with_reducible apply Kept.ite
    | split

theorem Block.fastAlarm_keeps {qs : List Piece} {a₀ b : Block} {l : Nat} {bit : Word} {expected : Bool} (inside : Within [.cnt, .events, .fws, .ins, .lanes, .qy, .regs, .sides, .tl] qs) (before : Kept qs a₀ b) :
    Kept qs a₀ (Block.fastAlarm b l bit expected) := Kept.step (Block.fastAlarm_kept _ _ _ _) inside before

theorem Block.loseSignal_kept (b : Block) (l : Nat) : Kept [.lane l] b (Block.loseSignal b l) := by
  unfold Block.loseSignal
  repeat' first
    | with_reducible assumption
    | with_reducible apply Kept.refl
    | with_reducible apply Within.refl
    | ((with_reducible apply Within.of); rfl)
    | ((with_reducible apply Within.cons); (apply Piece.inside_of; rfl))
    | ((with_reducible apply Within.cons); apply Or.inr)
    | with_reducible apply Within.nil
    | with_reducible apply List.mem_cons_self
    | with_reducible apply List.mem_cons_of_mem
    | (extract_lets +onlyGivenNames x
       first
       | (guard_hyp x : Block := _
          refine Kept.cut (ps := [.lane l]) (b := b) (x := x) ?_ fun hx => ?_
          on_goal 1 => subst x
          on_goal 2 => try clear_value x)
       | clear_value x
       | skip)
    | with_reducible apply Block.modLane_keeps
    | with_reducible apply Kept.ite
    | split

theorem Block.loseSignal_keeps {qs : List Piece} {a₀ b : Block} {l : Nat} (inside : Within [.lane l] qs) (before : Kept qs a₀ b) :
    Kept qs a₀ (Block.loseSignal b l) := Kept.step (Block.loseSignal_kept _ _) inside before

theorem Block.leftGrade_kept (b : Block) (l : Nat) : Kept [.events, .lanes, .regs, .sides] b (Block.leftGrade b l) := by
  unfold Block.leftGrade
  repeat' first
    | with_reducible assumption
    | with_reducible apply Kept.refl
    | with_reducible apply Within.refl
    | ((with_reducible apply Within.of); rfl)
    | ((with_reducible apply Within.cons); (apply Piece.inside_of; rfl))
    | ((with_reducible apply Within.cons); apply Or.inr)
    | with_reducible apply Within.nil
    | with_reducible apply List.mem_cons_self
    | with_reducible apply List.mem_cons_of_mem
    | with_reducible apply Block.moveTaken_keeps
    | with_reducible apply Kept.ite
    | split

theorem Block.leftGrade_keeps {qs : List Piece} {a₀ b : Block} {l : Nat} (inside : Within [.events, .lanes, .regs, .sides] qs) (before : Kept qs a₀ b) :
    Kept qs a₀ (Block.leftGrade b l) := Kept.step (Block.leftGrade_kept _ _) inside before

theorem Block.countBlocks_kept (b : Block) (sd : Side) (order : List Nat) (pos : Nat) (ev : Nat) (port : Nat) : Kept [.reg (tlOff Off.tlOvf (sideBlk sd)), .tl] b (Block.countBlocks b sd order pos ev port) := by
  unfold Block.countBlocks
  repeat' first
    | with_reducible assumption
    | with_reducible apply Kept.refl
    | with_reducible apply Within.refl
    | ((with_reducible apply Within.of); rfl)
    | ((with_reducible apply Within.cons); (apply Piece.inside_of; rfl))
    | ((with_reducible apply Within.cons); apply Or.inr)
    | with_reducible apply Within.nil
    | with_reducible apply List.mem_cons_self
    | with_reducible apply List.mem_cons_of_mem
    | (extract_lets +onlyGivenNames x
       first
       | (guard_hyp x : Block := _
          refine Kept.cut (ps := [.reg (tlOff Off.tlOvf (sideBlk sd)), .tl]) (b := b) (x := x) ?_ fun hx => ?_
          on_goal 1 => subst x
          on_goal 2 => try clear_value x)
       | clear_value x
       | skip)
    | (with_reducible apply Kept.each; intro _ _ _)
    | with_reducible apply Block.portBytes_keeps
    | with_reducible apply Block.tally_keeps
    | with_reducible apply Kept.ite
    | split

theorem Block.countBlocks_keeps {qs : List Piece} {a₀ b : Block} {sd : Side} {order : List Nat} {pos : Nat} {ev : Nat} {port : Nat} (inside : Within [.reg (tlOff Off.tlOvf (sideBlk sd)), .tl] qs) (before : Kept qs a₀ b) :
    Kept qs a₀ (Block.countBlocks b sd order pos ev port) := Kept.step (Block.countBlocks_kept _ _ _ _ _ _) inside before

theorem Block.countCodeword_kept (b : Block) (sd : Side) (c : Codeword) : Kept [.cnt, .regs, .tl] b (Block.countCodeword b sd c) := by
  unfold Block.countCodeword
  repeat' first
    | with_reducible assumption
    | with_reducible apply Kept.refl
    | with_reducible apply Within.refl
    | ((with_reducible apply Within.of); rfl)
    | ((with_reducible apply Within.cons); (apply Piece.inside_of; rfl))
    | ((with_reducible apply Within.cons); apply Or.inr)
    | with_reducible apply Within.nil
    | with_reducible apply List.mem_cons_self
    | with_reducible apply List.mem_cons_of_mem
    | (extract_lets +onlyGivenNames x
       first
       | (guard_hyp x : Block := _
          refine Kept.cut (ps := [.cnt, .regs, .tl]) (b := b) (x := x) ?_ fun hx => ?_
          on_goal 1 => subst x
          on_goal 2 => try clear_value x)
       | clear_value x
       | skip)
    | (with_reducible apply Kept.each; intro _ _ _)
    | (with_reducible apply Kept.foldl; intro _ _ _)
    | with_reducible apply Block.tally_keeps
    | with_reducible apply Block.orReg_keeps
    | with_reducible apply Block.bumpW_keeps
    | with_reducible apply Block.bump_keeps
    | with_reducible apply Kept.ite
    | split

theorem Block.countCodeword_keeps {qs : List Piece} {a₀ b : Block} {sd : Side} {c : Codeword} (inside : Within [.cnt, .regs, .tl] qs) (before : Kept qs a₀ b) :
    Kept qs a₀ (Block.countCodeword b sd c) := Kept.step (Block.countCodeword_kept _ _ _) inside before

theorem Block.badFlit_kept (b : Block) (sd : Side) : Kept [.count (fwOff Off.fwBadLo sd), .fw sd, .reg (tlOff Off.tlOvf (fwBlk sd)), .reg Off.fwAlarm, .tl] b (Block.badFlit b sd) := by
  unfold Block.badFlit
  repeat' first
    | with_reducible assumption
    | with_reducible apply Kept.refl
    | with_reducible apply Within.refl
    | ((with_reducible apply Within.of); rfl)
    | ((with_reducible apply Within.cons); (apply Piece.inside_of; rfl))
    | ((with_reducible apply Within.cons); apply Or.inr)
    | with_reducible apply Within.nil
    | with_reducible apply List.mem_cons_self
    | with_reducible apply List.mem_cons_of_mem
    | (extract_lets +onlyGivenNames x
       first
       | (guard_hyp x : Block := _
          refine Kept.cut (ps := [.count (fwOff Off.fwBadLo sd), .fw sd, .reg (tlOff Off.tlOvf (fwBlk sd)), .reg Off.fwAlarm, .tl]) (b := b) (x := x) ?_ fun hx => ?_
          on_goal 1 => subst x
          on_goal 2 => try clear_value x)
       | clear_value x
       | skip)
    | with_reducible apply Block.tally_keeps
    | with_reducible apply Block.bump_keeps
    | with_reducible apply Block.modFw_keeps
    | with_reducible apply Block.orReg_keeps
    | with_reducible apply Kept.ite
    | split

theorem Block.badFlit_keeps {qs : List Piece} {a₀ b : Block} {sd : Side} (inside : Within [.count (fwOff Off.fwBadLo sd), .fw sd, .reg (tlOff Off.tlOvf (fwBlk sd)), .reg Off.fwAlarm, .tl] qs) (before : Kept qs a₀ b) :
    Kept qs a₀ (Block.badFlit b sd) := Kept.step (Block.badFlit_kept _ _) inside before

theorem Block.toBuffer_kept (b : Block) (sd : Side) (f : Flit) (idle : Bool) : Kept [.count (fwOff Off.fwDropLo sd), .count (fwOff Off.fwIdleDelLo sd), .events, .fw sd, .reg (tlOff Off.tlOvf (fwBlk sd)), .reg Off.fwAlarm, .reg Off.lgAlarm, .tl] b (Block.toBuffer b sd f idle) := by
  unfold Block.toBuffer
  repeat' first
    | with_reducible assumption
    | with_reducible apply Kept.refl
    | with_reducible apply Within.refl
    | ((with_reducible apply Within.of); rfl)
    | ((with_reducible apply Within.cons); (apply Piece.inside_of; rfl))
    | ((with_reducible apply Within.cons); apply Or.inr)
    | with_reducible apply Within.nil
    | with_reducible apply List.mem_cons_self
    | with_reducible apply List.mem_cons_of_mem
    | (extract_lets +onlyGivenNames x
       first
       | (guard_hyp x : Block := _
          refine Kept.cut (ps := [.count (fwOff Off.fwDropLo sd), .count (fwOff Off.fwIdleDelLo sd), .events, .fw sd, .reg (tlOff Off.tlOvf (fwBlk sd)), .reg Off.fwAlarm, .reg Off.lgAlarm, .tl]) (b := b) (x := x) ?_ fun hx => ?_
          on_goal 1 => subst x
          on_goal 2 => try clear_value x)
       | clear_value x
       | skip)
    | with_reducible apply Block.tally_keeps
    | with_reducible apply Block.bump_keeps
    | with_reducible apply Block.modFw_keeps
    | with_reducible apply Block.dropFlit_keeps
    | with_reducible apply Kept.ite
    | split

theorem Block.toBuffer_keeps {qs : List Piece} {a₀ b : Block} {sd : Side} {f : Flit} {idle : Bool} (inside : Within [.count (fwOff Off.fwDropLo sd), .count (fwOff Off.fwIdleDelLo sd), .events, .fw sd, .reg (tlOff Off.tlOvf (fwBlk sd)), .reg Off.fwAlarm, .reg Off.lgAlarm, .tl] qs) (before : Kept qs a₀ b) :
    Kept qs a₀ (Block.toBuffer b sd f idle) := Kept.step (Block.toBuffer_kept _ _ _ _) inside before

theorem Block.noteSlot_kept (b : Block) (out : Side) (idle : Bool) : Kept [.fw (otherSide out)] b (Block.noteSlot b out idle) := by
  unfold Block.noteSlot
  repeat' first
    | with_reducible assumption
    | with_reducible apply Kept.refl
    | with_reducible apply Within.refl
    | ((with_reducible apply Within.of); rfl)
    | ((with_reducible apply Within.cons); (apply Piece.inside_of; rfl))
    | ((with_reducible apply Within.cons); apply Or.inr)
    | with_reducible apply Within.nil
    | with_reducible apply List.mem_cons_self
    | with_reducible apply List.mem_cons_of_mem
    | (simp only [Kept.by_fields]; with_reducible apply Kept.fields <;>
         first | with_reducible exact Or.inl rfl | (apply Or.inr; apply Piece.mem_of; rfl) | exact Or.inr (by simp; done) | (refine Or.inr ⟨?_, ?_⟩ <;> first | (apply Or.inl; apply Piece.mem_of; rfl) | exact Or.inl (by simp; done) | with_reducible exact Or.inr rfl | with_reducible exact Or.inr ⟨rfl, rfl, rfl, rfl⟩ | with_reducible exact Or.inr ⟨rfl, rfl, rfl, rfl, rfl⟩ | (refine ⟨?_, ?_⟩ <;> first | (apply Or.inl; apply Piece.mem_of; rfl) | exact Or.inl (by simp; done) | with_reducible exact Or.inr rfl)) | skip)
    | with_reducible apply Block.modFw_keeps

theorem Block.noteSlot_keeps {qs : List Piece} {a₀ b : Block} {out : Side} {idle : Bool} (inside : Within [.fw (otherSide out)] qs) (before : Kept qs a₀ b) :
    Kept qs a₀ (Block.noteSlot b out idle) := Kept.step (Block.noteSlot_kept _ _ _) inside before

theorem Block.insLeaves_kept (b : Block) (out : Side) (i : Ins) : Kept [.count Off.qyCplDiscardLo, .count Off.qyLateLo, .events, .fw (otherSide out), .ins, .qy, .reg (tlOff Off.tlOvf quayBlk), .reg Off.lgAlarm, .reg Off.qyAlarm, .side out, .tl] b (Block.insLeaves b out i) := by
  unfold Block.insLeaves
  repeat' first
    | with_reducible assumption
    | with_reducible apply Kept.refl
    | with_reducible apply Within.refl
    | ((with_reducible apply Within.of); rfl)
    | ((with_reducible apply Within.cons); (apply Piece.inside_of; rfl))
    | ((with_reducible apply Within.cons); apply Or.inr)
    | with_reducible apply Within.nil
    | with_reducible apply List.mem_cons_self
    | with_reducible apply List.mem_cons_of_mem
    | (extract_lets +onlyGivenNames x
       first
       | (guard_hyp x : Block := _
          refine Kept.cut (ps := [.count Off.qyCplDiscardLo, .count Off.qyLateLo, .events, .fw (otherSide out), .ins, .qy, .reg (tlOff Off.tlOvf quayBlk), .reg Off.lgAlarm, .reg Off.qyAlarm, .side out, .tl]) (b := b) (x := x) ?_ fun hx => ?_
          on_goal 1 => subst x
          on_goal 2 => try clear_value x)
       | (guard_hyp x : Quay := _; subst x)
       | clear_value x
       | skip)
    | (simp only [Kept.by_fields]; with_reducible apply Kept.fields <;>
         first | with_reducible exact Or.inl rfl | (apply Or.inr; apply Piece.mem_of; rfl) | exact Or.inr (by simp; done) | (refine Or.inr ⟨?_, ?_⟩ <;> first | (apply Or.inl; apply Piece.mem_of; rfl) | exact Or.inl (by simp; done) | with_reducible exact Or.inr rfl | with_reducible exact Or.inr ⟨rfl, rfl, rfl, rfl⟩ | with_reducible exact Or.inr ⟨rfl, rfl, rfl, rfl, rfl⟩ | (refine ⟨?_, ?_⟩ <;> first | (apply Or.inl; apply Piece.mem_of; rfl) | exact Or.inl (by simp; done) | with_reducible exact Or.inr rfl)) | skip)
    | with_reducible apply Block.setBal_keeps
    | with_reducible apply Block.modFw_keeps
    | with_reducible apply Block.tally_keeps
    | with_reducible apply Block.orReg_keeps
    | with_reducible apply Block.bump_keeps
    | with_reducible apply Block.remSent_keeps
    | with_reducible apply Block.wakeFences_keeps
    | with_reducible apply Kept.ite
    | split

theorem Block.insLeaves_keeps {qs : List Piece} {a₀ b : Block} {out : Side} {i : Ins} (inside : Within [.count Off.qyCplDiscardLo, .count Off.qyLateLo, .events, .fw (otherSide out), .ins, .qy, .reg (tlOff Off.tlOvf quayBlk), .reg Off.lgAlarm, .reg Off.qyAlarm, .side out, .tl] qs) (before : Kept qs a₀ b) :
    Kept qs a₀ (Block.insLeaves b out i) := Kept.step (Block.insLeaves_kept _ _ _) inside before

theorem Block.inserted_kept (b : Block) (dir : Side) (f : Flit) : Kept [.count (fwOff Off.fwInsertLo dir), .reg (tlOff Off.tlOvf (fwBlk dir)), .tl] b (Block.inserted b dir f).1 := by
  unfold Block.inserted
  repeat' first
    | with_reducible assumption
    | with_reducible apply Kept.refl
    | with_reducible apply Within.refl
    | ((with_reducible apply Within.of); rfl)
    | ((with_reducible apply Within.cons); (apply Piece.inside_of; rfl))
    | ((with_reducible apply Within.cons); apply Or.inr)
    | with_reducible apply Within.nil
    | with_reducible apply List.mem_cons_self
    | with_reducible apply List.mem_cons_of_mem
    | with_reducible apply Block.portBytes_keeps
    | with_reducible apply Block.tally_keeps
    | with_reducible apply Block.bump_keeps
    | dsimp -zeta only
    | with_reducible apply Kept.ite
    | split

theorem Block.inserted_keeps {qs : List Piece} {a₀ b : Block} {dir : Side} {f : Flit} (inside : Within [.count (fwOff Off.fwInsertLo dir), .reg (tlOff Off.tlOvf (fwBlk dir)), .tl] qs) (before : Kept qs a₀ b) :
    Kept qs a₀ (Block.inserted b dir f).1 := Kept.step (Block.inserted_kept b dir f) inside before

theorem Block.inserted_of {qs : List Piece} {a₀ b c₀ : Block} {dir : Side} {f : Flit} {y₀ : Option Flit} (eq : Block.inserted b dir f = (c₀, y₀)) (inside : Within [.count (fwOff Off.fwInsertLo dir), .reg (tlOff Off.tlOvf (fwBlk dir)), .tl] qs)
    (before : Kept qs a₀ b) : Kept qs a₀ c₀ := by
  have h := Kept.step (Block.inserted_kept b dir f) inside before
  rw [eq] at h; exact h

theorem Block.standinSends_kept (b : Block) (out : Side) (rest : List Flit) : Kept [.fw (otherSide out), .side out] b (Block.standinSends b out rest) := by
  unfold Block.standinSends
  repeat' first
    | with_reducible assumption
    | with_reducible apply Kept.refl
    | with_reducible apply Within.refl
    | ((with_reducible apply Within.of); rfl)
    | ((with_reducible apply Within.cons); (apply Piece.inside_of; rfl))
    | ((with_reducible apply Within.cons); apply Or.inr)
    | with_reducible apply Within.nil
    | with_reducible apply List.mem_cons_self
    | with_reducible apply List.mem_cons_of_mem
    | with_reducible apply Block.setBal_keeps
    | with_reducible apply Block.modFw_keeps
    | with_reducible apply Kept.ite
    | split

theorem Block.standinSends_keeps {qs : List Piece} {a₀ b : Block} {out : Side} {rest : List Flit} (inside : Within [.fw (otherSide out), .side out] qs) (before : Kept qs a₀ b) :
    Kept qs a₀ (Block.standinSends b out rest) := Kept.step (Block.standinSends_kept _ _ _) inside before

theorem Block.offerSlot_kept (b : Block) (out : Side) : Kept [.cnt, .events, .fw (otherSide out), .ins, .qy, .regs, .side out, .tl] b (Block.offerSlot b out).1 := by
  unfold Block.offerSlot
  repeat' first
    | with_reducible assumption
    | with_reducible apply Kept.refl
    | with_reducible apply Within.refl
    | ((with_reducible apply Within.of); rfl)
    | ((with_reducible apply Within.cons); (apply Piece.inside_of; rfl))
    | ((with_reducible apply Within.cons); apply Or.inr)
    | with_reducible apply Within.nil
    | with_reducible apply List.mem_cons_self
    | with_reducible apply List.mem_cons_of_mem
    | (extract_lets +onlyGivenNames x
       first
       | (guard_hyp x : Block := _
          refine Kept.cut (ps := [.cnt, .events, .fw (otherSide out), .ins, .qy, .regs, .side out, .tl]) (b := b) (x := x) ?_ fun hx => ?_
          on_goal 1 => subst x
          on_goal 2 => try clear_value x)
       | (guard_hyp x : Quay := _; subst x)
       | clear_value x
       | skip)
    | (simp only [Kept.by_fields]; with_reducible apply Kept.fields <;>
         first | with_reducible exact Or.inl rfl | (apply Or.inr; apply Piece.mem_of; rfl) | exact Or.inr (by simp; done) | (refine Or.inr ⟨?_, ?_⟩ <;> first | (apply Or.inl; apply Piece.mem_of; rfl) | exact Or.inl (by simp; done) | with_reducible exact Or.inr rfl | with_reducible exact Or.inr ⟨rfl, rfl, rfl, rfl⟩ | with_reducible exact Or.inr ⟨rfl, rfl, rfl, rfl, rfl⟩ | (refine ⟨?_, ?_⟩ <;> first | (apply Or.inl; apply Piece.mem_of; rfl) | exact Or.inl (by simp; done) | with_reducible exact Or.inr rfl)) | skip)
    | (with_reducible apply Block.inserted_of; (case eq => assumption))
    | with_reducible apply Block.inserted_keeps
    | with_reducible apply Block.insLeaves_keeps
    | with_reducible apply Block.standinSends_keeps
    | dsimp -zeta only
    | with_reducible apply Kept.ite
    | split

theorem Block.offerSlot_keeps {qs : List Piece} {a₀ b : Block} {out : Side} (inside : Within [.cnt, .events, .fw (otherSide out), .ins, .qy, .regs, .side out, .tl] qs) (before : Kept qs a₀ b) :
    Kept qs a₀ (Block.offerSlot b out).1 := Kept.step (Block.offerSlot_kept b out) inside before

theorem Block.offerSlot_of {qs : List Piece} {a₀ b c₀ : Block} {out : Side} {y₀ : Option Flit} (eq : Block.offerSlot b out = (c₀, y₀)) (inside : Within [.cnt, .events, .fw (otherSide out), .ins, .qy, .regs, .side out, .tl] qs)
    (before : Kept qs a₀ b) : Kept qs a₀ c₀ := by
  have h := Kept.step (Block.offerSlot_kept b out) inside before
  rw [eq] at h; exact h

theorem Block.thruBuffer_kept (b : Block) (sd : Side) (f : Flit) (idle : Bool) : Kept [.count (fwOff Off.fwDropLo sd), .count (fwOff Off.fwIdleDelLo sd), .count (fwOff Off.fwThruLo sd), .events, .fw sd, .reg (tlOff Off.tlOvf (fwBlk sd)), .reg Off.fwAlarm, .reg Off.lgAlarm, .tl] b (Block.thruBuffer b sd f idle) := by
  unfold Block.thruBuffer
  repeat' first
    | with_reducible assumption
    | with_reducible apply Kept.refl
    | with_reducible apply Within.refl
    | ((with_reducible apply Within.of); rfl)
    | ((with_reducible apply Within.cons); (apply Piece.inside_of; rfl))
    | ((with_reducible apply Within.cons); apply Or.inr)
    | with_reducible apply Within.nil
    | with_reducible apply List.mem_cons_self
    | with_reducible apply List.mem_cons_of_mem
    | (extract_lets +onlyGivenNames x
       first
       | (guard_hyp x : Block := _
          refine Kept.cut (ps := [.count (fwOff Off.fwDropLo sd), .count (fwOff Off.fwIdleDelLo sd), .count (fwOff Off.fwThruLo sd), .events, .fw sd, .reg (tlOff Off.tlOvf (fwBlk sd)), .reg Off.fwAlarm, .reg Off.lgAlarm, .tl]) (b := b) (x := x) ?_ fun hx => ?_
          on_goal 1 => subst x
          on_goal 2 => try clear_value x)
       | clear_value x
       | skip)
    | with_reducible apply Block.toBuffer_keeps
    | with_reducible apply Block.tally_keeps
    | with_reducible apply Block.bump_keeps
    | with_reducible apply Kept.ite
    | split

theorem Block.thruBuffer_keeps {qs : List Piece} {a₀ b : Block} {sd : Side} {f : Flit} {idle : Bool} (inside : Within [.count (fwOff Off.fwDropLo sd), .count (fwOff Off.fwIdleDelLo sd), .count (fwOff Off.fwThruLo sd), .events, .fw sd, .reg (tlOff Off.tlOvf (fwBlk sd)), .reg Off.fwAlarm, .reg Off.lgAlarm, .tl] qs) (before : Kept qs a₀ b) :
    Kept qs a₀ (Block.thruBuffer b sd f idle) := Kept.step (Block.thruBuffer_kept _ _ _ _) inside before

theorem Block.idleSlot_kept (b : Block) (sd : Side) (arrived : Option Flit) : Kept [.cnt, .events, .fws, .ins, .qy, .regs, .sides, .tl] b (Block.idleSlot b sd arrived) := by
  unfold Block.idleSlot
  repeat' first
    | with_reducible assumption
    | with_reducible apply Kept.refl
    | with_reducible apply Within.refl
    | ((with_reducible apply Within.of); rfl)
    | ((with_reducible apply Within.cons); (apply Piece.inside_of; rfl))
    | ((with_reducible apply Within.cons); apply Or.inr)
    | with_reducible apply Within.nil
    | with_reducible apply List.mem_cons_self
    | with_reducible apply List.mem_cons_of_mem
    | (extract_lets +onlyGivenNames x
       first
       | (guard_hyp x : Block := _
          refine Kept.cut (ps := [.cnt, .events, .fws, .ins, .qy, .regs, .sides, .tl]) (b := b) (x := x) ?_ fun hx => ?_
          on_goal 1 => subst x
          on_goal 2 => try clear_value x)
       | clear_value x
       | skip)
    | (with_reducible apply Block.offerSlot_of; (case eq => assumption))
    | with_reducible apply Block.offerSlot_keeps
    | with_reducible apply Block.toBuffer_keeps
    | with_reducible apply Block.noteSlot_keeps
    | with_reducible apply Block.thruBuffer_keeps
    | dsimp -zeta only
    | with_reducible apply Kept.ite
    | split

theorem Block.idleSlot_keeps {qs : List Piece} {a₀ b : Block} {sd : Side} {arrived : Option Flit} (inside : Within [.cnt, .events, .fws, .ins, .qy, .regs, .sides, .tl] qs) (before : Kept qs a₀ b) :
    Kept qs a₀ (Block.idleSlot b sd arrived) := Kept.step (Block.idleSlot_kept _ _ _) inside before

theorem Block.oweCredit_kept (b : Block) (sd : Side) (f : Flit) : Kept [.side sd] b (Block.oweCredit b sd f) := by
  unfold Block.oweCredit
  repeat' first
    | with_reducible assumption
    | with_reducible apply Kept.refl
    | with_reducible apply Within.refl
    | ((with_reducible apply Within.of); rfl)
    | ((with_reducible apply Within.cons); (apply Piece.inside_of; rfl))
    | ((with_reducible apply Within.cons); apply Or.inr)
    | with_reducible apply Within.nil
    | with_reducible apply List.mem_cons_self
    | with_reducible apply List.mem_cons_of_mem
    | (simp only [Kept.by_fields]; with_reducible apply Kept.fields <;>
         first | with_reducible exact Or.inl rfl | (apply Or.inr; apply Piece.mem_of; rfl) | exact Or.inr (by simp; done) | (refine Or.inr ⟨?_, ?_⟩ <;> first | (apply Or.inl; apply Piece.mem_of; rfl) | exact Or.inl (by simp; done) | with_reducible exact Or.inr rfl | with_reducible exact Or.inr ⟨rfl, rfl, rfl, rfl⟩ | with_reducible exact Or.inr ⟨rfl, rfl, rfl, rfl, rfl⟩ | (refine ⟨?_, ?_⟩ <;> first | (apply Or.inl; apply Piece.mem_of; rfl) | exact Or.inl (by simp; done) | with_reducible exact Or.inr rfl)) | skip)
    | with_reducible apply Block.modSide_keeps
    | with_reducible apply Kept.ite
    | split

theorem Block.oweCredit_keeps {qs : List Piece} {a₀ b : Block} {sd : Side} {f : Flit} (inside : Within [.side sd] qs) (before : Kept qs a₀ b) :
    Kept qs a₀ (Block.oweCredit b sd f) := Kept.step (Block.oweCredit_kept _ _ _) inside before

theorem Block.refuse_kept (b : Block) (sd : Side) (f : Flit) (st : Nat) : Kept [.cnt, .events, .ins, .reg (tlOff Off.tlOvf quayBlk), .reg Off.lgAlarm, .tl] b (Block.refuse b sd f st) := by
  unfold Block.refuse
  repeat' first
    | with_reducible assumption
    | with_reducible apply Kept.refl
    | with_reducible apply Within.refl
    | ((with_reducible apply Within.of); rfl)
    | ((with_reducible apply Within.cons); (apply Piece.inside_of; rfl))
    | ((with_reducible apply Within.cons); apply Or.inr)
    | with_reducible apply Within.nil
    | with_reducible apply List.mem_cons_self
    | with_reducible apply List.mem_cons_of_mem
    | (extract_lets +onlyGivenNames x
       first
       | (guard_hyp x : Block := _
          refine Kept.cut (ps := [.cnt, .events, .ins, .reg (tlOff Off.tlOvf quayBlk), .reg Off.lgAlarm, .tl]) (b := b) (x := x) ?_ fun hx => ?_
          on_goal 1 => subst x
          on_goal 2 => try clear_value x)
       | clear_value x
       | skip)
    | with_reducible apply Block.answer2_keeps
    | with_reducible apply Block.tally_keeps
    | with_reducible apply Block.bump_keeps
    | with_reducible apply Kept.ite
    | split

theorem Block.refuse_keeps {qs : List Piece} {a₀ b : Block} {sd : Side} {f : Flit} {st : Nat} (inside : Within [.cnt, .events, .ins, .reg (tlOff Off.tlOvf quayBlk), .reg Off.lgAlarm, .tl] qs) (before : Kept qs a₀ b) :
    Kept qs a₀ (Block.refuse b sd f st) := Kept.step (Block.refuse_kept _ _ _ _) inside before

theorem Block.refuseEmpty_kept (b : Block) (sd : Side) (f : Flit) (g : Nat) : Kept [.berths, .cnt, .events, .ins, .prot, .reg (tlOff Off.tlOvf quayBlk), .reg Off.lgAlarm, .reg Off.prAlarm, .reg Off.prErrLost, .tl] b (Block.refuseEmpty b sd f g) := by
  unfold Block.refuseEmpty
  repeat' first
    | with_reducible assumption
    | with_reducible apply Kept.refl
    | with_reducible apply Within.refl
    | ((with_reducible apply Within.of); rfl)
    | ((with_reducible apply Within.cons); (apply Piece.inside_of; rfl))
    | ((with_reducible apply Within.cons); apply Or.inr)
    | with_reducible apply Within.nil
    | with_reducible apply List.mem_cons_self
    | with_reducible apply List.mem_cons_of_mem
    | (extract_lets +onlyGivenNames x
       first
       | (guard_hyp x : Block := _
          refine Kept.cut (ps := [.berths, .cnt, .events, .ins, .prot, .reg (tlOff Off.tlOvf quayBlk), .reg Off.lgAlarm, .reg Off.prAlarm, .reg Off.prErrLost, .tl]) (b := b) (x := x) ?_ fun hx => ?_
          on_goal 1 => subst x
          on_goal 2 => try clear_value x)
       | clear_value x
       | skip)
    | with_reducible apply Block.errRecord_keeps
    | with_reducible apply Block.refuse_keeps
    | with_reducible apply Block.orReg_keeps
    | with_reducible apply Kept.ite
    | split

theorem Block.refuseEmpty_keeps {qs : List Piece} {a₀ b : Block} {sd : Side} {f : Flit} {g : Nat} (inside : Within [.berths, .cnt, .events, .ins, .prot, .reg (tlOff Off.tlOvf quayBlk), .reg Off.lgAlarm, .reg Off.prAlarm, .reg Off.prErrLost, .tl] qs) (before : Kept qs a₀ b) :
    Kept qs a₀ (Block.refuseEmpty b sd f g) := Kept.step (Block.refuseEmpty_kept _ _ _ _) inside before

theorem Block.refuseReserved_kept (b : Block) (sd : Side) (f : Flit) : Kept [.berths, .cnt, .events, .ins, .prot, .reg (tlOff Off.tlOvf quayBlk), .reg Off.lgAlarm, .reg Off.prAlarm, .reg Off.prErrLost, .tl] b (Block.refuseReserved b sd f) := by
  unfold Block.refuseReserved
  repeat' first
    | with_reducible assumption
    | with_reducible apply Kept.refl
    | with_reducible apply Within.refl
    | ((with_reducible apply Within.of); rfl)
    | ((with_reducible apply Within.cons); (apply Piece.inside_of; rfl))
    | ((with_reducible apply Within.cons); apply Or.inr)
    | with_reducible apply Within.nil
    | with_reducible apply List.mem_cons_self
    | with_reducible apply List.mem_cons_of_mem
    | with_reducible apply Block.refuse_keeps
    | with_reducible apply Block.refuseEmpty_keeps
    | with_reducible apply Kept.ite
    | split

theorem Block.refuseReserved_keeps {qs : List Piece} {a₀ b : Block} {sd : Side} {f : Flit} (inside : Within [.berths, .cnt, .events, .ins, .prot, .reg (tlOff Off.tlOvf quayBlk), .reg Off.lgAlarm, .reg Off.prAlarm, .reg Off.prErrLost, .tl] qs) (before : Kept qs a₀ b) :
    Kept qs a₀ (Block.refuseReserved b sd f) := Kept.step (Block.refuseReserved_kept _ _ _) inside before

theorem Block.claimed_kept (b : Block) (sd : Side) (f : Flit) : Kept [.berths, .cnt, .events, .ins, .prot, .qy, .reg (tlOff Off.tlOvf quayBlk), .reg Off.lgAlarm, .reg Off.prAlarm, .reg Off.prErrLost, .side sd, .tl] b (Block.claimed b sd f) := by
  unfold Block.claimed
  repeat' first
    | with_reducible assumption
    | with_reducible apply Kept.refl
    | with_reducible apply Within.refl
    | ((with_reducible apply Within.of); rfl)
    | ((with_reducible apply Within.cons); (apply Piece.inside_of; rfl))
    | ((with_reducible apply Within.cons); apply Or.inr)
    | with_reducible apply Within.nil
    | with_reducible apply List.mem_cons_self
    | with_reducible apply List.mem_cons_of_mem
    | (extract_lets +onlyGivenNames x
       first
       | (guard_hyp x : Block := _
          refine Kept.cut (ps := [.berths, .cnt, .events, .ins, .prot, .qy, .reg (tlOff Off.tlOvf quayBlk), .reg Off.lgAlarm, .reg Off.prAlarm, .reg Off.prErrLost, .side sd, .tl]) (b := b) (x := x) ?_ fun hx => ?_
          on_goal 1 => subst x
          on_goal 2 => try clear_value x)
       | (guard_hyp x : Quay := _; subst x)
       | clear_value x
       | skip)
    | (simp only [Kept.by_fields]; with_reducible apply Kept.fields <;>
         first | with_reducible exact Or.inl rfl | (apply Or.inr; apply Piece.mem_of; rfl) | exact Or.inr (by simp; done) | (refine Or.inr ⟨?_, ?_⟩ <;> first | (apply Or.inl; apply Piece.mem_of; rfl) | exact Or.inl (by simp; done) | with_reducible exact Or.inr rfl | with_reducible exact Or.inr ⟨rfl, rfl, rfl, rfl⟩ | with_reducible exact Or.inr ⟨rfl, rfl, rfl, rfl, rfl⟩ | (refine ⟨?_, ?_⟩ <;> first | (apply Or.inl; apply Piece.mem_of; rfl) | exact Or.inl (by simp; done) | with_reducible exact Or.inr rfl)) | skip)
    | with_reducible apply Block.oweCredit_keeps
    | with_reducible apply Block.refuseReserved_keeps
    | with_reducible apply Kept.ite
    | split

theorem Block.claimed_keeps {qs : List Piece} {a₀ b : Block} {sd : Side} {f : Flit} (inside : Within [.berths, .cnt, .events, .ins, .prot, .qy, .reg (tlOff Off.tlOvf quayBlk), .reg Off.lgAlarm, .reg Off.prAlarm, .reg Off.prErrLost, .side sd, .tl] qs) (before : Kept qs a₀ b) :
    Kept qs a₀ (Block.claimed b sd f) := Kept.step (Block.claimed_kept _ _ _) inside before

theorem Block.standinTakes_kept (b : Block) (sd : Side) (f : Flit) : Kept [.fw (otherSide sd), .side sd] b (Block.standinTakes b sd f) := by
  unfold Block.standinTakes
  repeat' first
    | with_reducible assumption
    | with_reducible apply Kept.refl
    | with_reducible apply Within.refl
    | ((with_reducible apply Within.of); rfl)
    | ((with_reducible apply Within.cons); (apply Piece.inside_of; rfl))
    | ((with_reducible apply Within.cons); apply Or.inr)
    | with_reducible apply Within.nil
    | with_reducible apply List.mem_cons_self
    | with_reducible apply List.mem_cons_of_mem
    | (simp only [Kept.by_fields]; with_reducible apply Kept.fields <;>
         first | with_reducible exact Or.inl rfl | (apply Or.inr; apply Piece.mem_of; rfl) | exact Or.inr (by simp; done) | (refine Or.inr ⟨?_, ?_⟩ <;> first | (apply Or.inl; apply Piece.mem_of; rfl) | exact Or.inl (by simp; done) | with_reducible exact Or.inr rfl | with_reducible exact Or.inr ⟨rfl, rfl, rfl, rfl⟩ | with_reducible exact Or.inr ⟨rfl, rfl, rfl, rfl, rfl⟩ | (refine ⟨?_, ?_⟩ <;> first | (apply Or.inl; apply Piece.mem_of; rfl) | exact Or.inl (by simp; done) | with_reducible exact Or.inr rfl)) | skip)
    | with_reducible apply Block.addCredit_keeps
    | with_reducible apply Block.oweCredit_keeps
    | with_reducible apply Block.modFw_keeps
    | with_reducible apply Kept.ite
    | split

theorem Block.standinTakes_keeps {qs : List Piece} {a₀ b : Block} {sd : Side} {f : Flit} (inside : Within [.fw (otherSide sd), .side sd] qs) (before : Kept qs a₀ b) :
    Kept qs a₀ (Block.standinTakes b sd f) := Kept.step (Block.standinTakes_kept _ _ _) inside before

theorem Block.forward_kept (b : Block) (sd : Side) (f : Flit) : Kept [.count (fwOff Off.fwDropLo sd), .count (fwOff Off.fwIdleDelLo sd), .events, .fw (otherSide (otherSide sd)), .fw sd, .reg (tlOff Off.tlOvf (fwBlk sd)), .reg Off.fwAlarm, .reg Off.lgAlarm, .tl] b (Block.forward b sd f) := by
  unfold Block.forward
  repeat' first
    | with_reducible assumption
    | with_reducible apply Kept.refl
    | with_reducible apply Within.refl
    | ((with_reducible apply Within.of); rfl)
    | ((with_reducible apply Within.cons); (apply Piece.inside_of; rfl))
    | ((with_reducible apply Within.cons); apply Or.inr)
    | with_reducible apply Within.nil
    | with_reducible apply List.mem_cons_self
    | with_reducible apply List.mem_cons_of_mem
    | with_reducible apply Block.toBuffer_keeps
    | with_reducible apply Block.noteSlot_keeps
    | with_reducible apply Kept.ite
    | split

theorem Block.forward_keeps {qs : List Piece} {a₀ b : Block} {sd : Side} {f : Flit} (inside : Within [.count (fwOff Off.fwDropLo sd), .count (fwOff Off.fwIdleDelLo sd), .events, .fw (otherSide (otherSide sd)), .fw sd, .reg (tlOff Off.tlOvf (fwBlk sd)), .reg Off.fwAlarm, .reg Off.lgAlarm, .tl] qs) (before : Kept qs a₀ b) :
    Kept qs a₀ (Block.forward b sd f) := Kept.step (Block.forward_kept _ _ _) inside before

theorem Block.goodFlit_kept (b : Block) (sd : Side) (f : Flit) : Kept [.berths, .cnt, .events, .fws, .ins, .prot, .qy, .regs, .sides, .tl] b (Block.goodFlit b sd f) := by
  unfold Block.goodFlit
  repeat' first
    | with_reducible assumption
    | with_reducible apply Kept.refl
    | with_reducible apply Within.refl
    | ((with_reducible apply Within.of); rfl)
    | ((with_reducible apply Within.cons); (apply Piece.inside_of; rfl))
    | ((with_reducible apply Within.cons); apply Or.inr)
    | with_reducible apply Within.nil
    | with_reducible apply List.mem_cons_self
    | with_reducible apply List.mem_cons_of_mem
    | (extract_lets +onlyGivenNames x
       first
       | (guard_hyp x : Block := _
          refine Kept.cut (ps := [.berths, .cnt, .events, .fws, .ins, .prot, .qy, .regs, .sides, .tl]) (b := b) (x := x) ?_ fun hx => ?_
          on_goal 1 => subst x
          on_goal 2 => try clear_value x)
       | (have _t : _ → Block := x; clear _t; subst x; beta_reduce)
       | (have _t : _ → _ := x; clear _t; subst x; beta_reduce)
       | clear_value x
       | skip)
    | with_reducible apply Block.portBytes_keeps
    | with_reducible apply Block.tally_keeps
    | with_reducible apply Block.bump_keeps
    | with_reducible apply Block.thruBuffer_keeps
    | with_reducible apply Block.noteSlot_keeps
    | with_reducible apply Block.idleSlot_keeps
    | with_reducible apply Block.event_keeps
    | with_reducible apply Block.modSide_keeps
    | with_reducible apply Block.orReg_keeps
    | with_reducible apply Block.bumpW_keeps
    | with_reducible apply Block.claimed_keeps
    | with_reducible apply Block.standinTakes_keeps
    | with_reducible apply Kept.ite
    | split

theorem Block.goodFlit_keeps {qs : List Piece} {a₀ b : Block} {sd : Side} {f : Flit} (inside : Within [.berths, .cnt, .events, .fws, .ins, .prot, .qy, .regs, .sides, .tl] qs) (before : Kept qs a₀ b) :
    Kept qs a₀ (Block.goodFlit b sd f) := Kept.step (Block.goodFlit_kept _ _ _) inside before

theorem Block.noteLatency_kept (b : Block) (sd : Side) (cycles : Nat) : Kept [.reg Off.fwLat] b (Block.noteLatency b sd cycles) := by
  unfold Block.noteLatency
  repeat' first
    | with_reducible assumption
    | with_reducible apply Kept.refl
    | with_reducible apply Within.refl
    | ((with_reducible apply Within.of); rfl)
    | ((with_reducible apply Within.cons); (apply Piece.inside_of; rfl))
    | ((with_reducible apply Within.cons); apply Or.inr)
    | with_reducible apply Within.nil
    | with_reducible apply List.mem_cons_self
    | with_reducible apply List.mem_cons_of_mem
    | (extract_lets +onlyGivenNames x
       first
       | (guard_hyp x : Block := _
          refine Kept.cut (ps := [.reg Off.fwLat]) (b := b) (x := x) ?_ fun hx => ?_
          on_goal 1 => subst x
          on_goal 2 => try clear_value x)
       | clear_value x
       | skip)
    | (simp only [Kept.by_fields]; with_reducible apply Kept.fields <;>
         first | with_reducible exact Or.inl rfl | (apply Or.inr; apply Piece.mem_of; rfl) | exact Or.inr (by simp; done) | (refine Or.inr ⟨?_, ?_⟩ <;> first | (apply Or.inl; apply Piece.mem_of; rfl) | exact Or.inl (by simp; done) | with_reducible exact Or.inr rfl | with_reducible exact Or.inr ⟨rfl, rfl, rfl, rfl⟩ | with_reducible exact Or.inr ⟨rfl, rfl, rfl, rfl, rfl⟩ | (refine ⟨?_, ?_⟩ <;> first | (apply Or.inl; apply Piece.mem_of; rfl) | exact Or.inl (by simp; done) | with_reducible exact Or.inr rfl)) | skip)
    | with_reducible apply Block.setReg_keeps
    | with_reducible apply Kept.ite
    | split

theorem Block.noteLatency_keeps {qs : List Piece} {a₀ b : Block} {sd : Side} {cycles : Nat} (inside : Within [.reg Off.fwLat] qs) (before : Kept qs a₀ b) :
    Kept qs a₀ (Block.noteLatency b sd cycles) := Kept.step (Block.noteLatency_kept _ _ _) inside before

theorem Block.classFlit_kept (b : Block) (sd : Side) (f : Flit) (markedBad : Bool) (parityErr : Bool) : Kept [.berths, .cnt, .events, .fws, .ins, .prot, .qy, .regs, .sides, .tl] b (Block.classFlit b sd f markedBad parityErr) := by
  unfold Block.classFlit
  repeat' first
    | with_reducible assumption
    | with_reducible apply Kept.refl
    | with_reducible apply Within.refl
    | ((with_reducible apply Within.of); rfl)
    | ((with_reducible apply Within.cons); (apply Piece.inside_of; rfl))
    | ((with_reducible apply Within.cons); apply Or.inr)
    | with_reducible apply Within.nil
    | with_reducible apply List.mem_cons_self
    | with_reducible apply List.mem_cons_of_mem
    | (extract_lets +onlyGivenNames x
       first
       | (guard_hyp x : Block := _
          refine Kept.cut (ps := [.berths, .cnt, .events, .fws, .ins, .prot, .qy, .regs, .sides, .tl]) (b := b) (x := x) ?_ fun hx => ?_
          on_goal 1 => subst x
          on_goal 2 => try clear_value x)
       | clear_value x
       | skip)
    | with_reducible apply Block.forward_keeps
    | with_reducible apply Block.badFlit_keeps
    | with_reducible apply Block.tally_keeps
    | with_reducible apply Block.bump_keeps
    | with_reducible apply Block.orReg_keeps
    | with_reducible apply Block.event_keeps
    | with_reducible apply Block.goodFlit_keeps
    | with_reducible apply Kept.ite
    | split

theorem Block.classFlit_keeps {qs : List Piece} {a₀ b : Block} {sd : Side} {f : Flit} {markedBad : Bool} {parityErr : Bool} (inside : Within [.berths, .cnt, .events, .fws, .ins, .prot, .qy, .regs, .sides, .tl] qs) (before : Kept qs a₀ b) :
    Kept qs a₀ (Block.classFlit b sd f markedBad parityErr) := Kept.step (Block.classFlit_kept _ _ _ _ _) inside before

theorem Block.handBad_kept (b : Block) (sd : Side) (f : Flit) (gone : List (Fin 9)) : Kept [.berths, .cnt, .events, .fws, .ins, .prot, .qy, .regs, .sides, .tl] b (Block.handBad b sd f gone) := by
  unfold Block.handBad
  repeat' first
    | with_reducible assumption
    | with_reducible apply Kept.refl
    | with_reducible apply Within.refl
    | ((with_reducible apply Within.of); rfl)
    | ((with_reducible apply Within.cons); (apply Piece.inside_of; rfl))
    | ((with_reducible apply Within.cons); apply Or.inr)
    | with_reducible apply Within.nil
    | with_reducible apply List.mem_cons_self
    | with_reducible apply List.mem_cons_of_mem
    | with_reducible apply Block.classFlit_keeps
    | with_reducible apply Kept.ite
    | split

theorem Block.handBad_keeps {qs : List Piece} {a₀ b : Block} {sd : Side} {f : Flit} {gone : List (Fin 9)} (inside : Within [.berths, .cnt, .events, .fws, .ins, .prot, .qy, .regs, .sides, .tl] qs) (before : Kept qs a₀ b) :
    Kept qs a₀ (Block.handBad b sd f gone) := Kept.step (Block.handBad_kept _ _ _ _) inside before

theorem Block.flitArrive_kept (b : Block) (sd : Side) (f : Flit) (gone : List (Fin 9)) (parityErr : Bool) (cws : List Codeword) (cycles : Nat) : Kept [.berths, .cnt, .events, .fws, .ins, .prot, .qy, .regs, .sides, .tl] b (Block.flitArrive b sd f gone parityErr cws cycles) := by
  unfold Block.flitArrive
  repeat' first
    | with_reducible assumption
    | with_reducible apply Kept.refl
    | with_reducible apply Within.refl
    | ((with_reducible apply Within.of); rfl)
    | ((with_reducible apply Within.cons); (apply Piece.inside_of; rfl))
    | ((with_reducible apply Within.cons); apply Or.inr)
    | with_reducible apply Within.nil
    | with_reducible apply List.mem_cons_self
    | with_reducible apply List.mem_cons_of_mem
    | (extract_lets +onlyGivenNames x
       first
       | (guard_hyp x : Block := _
          refine Kept.cut (ps := [.berths, .cnt, .events, .fws, .ins, .prot, .qy, .regs, .sides, .tl]) (b := b) (x := x) ?_ fun hx => ?_
          on_goal 1 => subst x
          on_goal 2 => try clear_value x)
       | clear_value x
       | skip)
    | (with_reducible apply Kept.foldl; intro _ _ _)
    | with_reducible apply Block.countCodeword_keeps
    | with_reducible apply Block.countBlocks_keeps
    | with_reducible apply Block.modSide_keeps
    | with_reducible apply Block.classFlit_keeps
    | with_reducible apply Block.noteLatency_keeps
    | with_reducible apply Kept.ite
    | split

theorem Block.flitArrive_keeps {qs : List Piece} {a₀ b : Block} {sd : Side} {f : Flit} {gone : List (Fin 9)} {parityErr : Bool} {cws : List Codeword} {cycles : Nat} (inside : Within [.berths, .cnt, .events, .fws, .ins, .prot, .qy, .regs, .sides, .tl] qs) (before : Kept qs a₀ b) :
    Kept qs a₀ (Block.flitArrive b sd f gone parityErr cws cycles) := Kept.step (Block.flitArrive_kept _ _ _ _ _ _ _) inside before

theorem Block.takeClaimed_kept (b : Block) (sd : Side) (f : Flit) : Kept [.qy] b (Block.takeClaimed b sd f) := by
  unfold Block.takeClaimed
  repeat' first
    | with_reducible assumption
    | with_reducible apply Kept.refl
    | with_reducible apply Within.refl
    | ((with_reducible apply Within.of); rfl)
    | ((with_reducible apply Within.cons); (apply Piece.inside_of; rfl))
    | ((with_reducible apply Within.cons); apply Or.inr)
    | with_reducible apply Within.nil
    | with_reducible apply List.mem_cons_self
    | with_reducible apply List.mem_cons_of_mem
    | (extract_lets +onlyGivenNames x
       first
       | (guard_hyp x : Block := _
          refine Kept.cut (ps := [.qy]) (b := b) (x := x) ?_ fun hx => ?_
          on_goal 1 => subst x
          on_goal 2 => try clear_value x)
       | (guard_hyp x : Quay := _; subst x)
       | clear_value x
       | skip)
    | (simp only [Kept.by_fields]; with_reducible apply Kept.fields <;>
         first | with_reducible exact Or.inl rfl | (apply Or.inr; apply Piece.mem_of; rfl) | exact Or.inr (by simp; done) | (refine Or.inr ⟨?_, ?_⟩ <;> first | (apply Or.inl; apply Piece.mem_of; rfl) | exact Or.inl (by simp; done) | with_reducible exact Or.inr rfl | with_reducible exact Or.inr ⟨rfl, rfl, rfl, rfl⟩ | with_reducible exact Or.inr ⟨rfl, rfl, rfl, rfl, rfl⟩ | (refine ⟨?_, ?_⟩ <;> first | (apply Or.inl; apply Piece.mem_of; rfl) | exact Or.inl (by simp; done) | with_reducible exact Or.inr rfl)) | skip)
    | with_reducible apply Kept.ite
    | split

theorem Block.takeClaimed_keeps {qs : List Piece} {a₀ b : Block} {sd : Side} {f : Flit} (inside : Within [.qy] qs) (before : Kept qs a₀ b) :
    Kept qs a₀ (Block.takeClaimed b sd f) := Kept.step (Block.takeClaimed_kept _ _ _) inside before

theorem Block.settle_kept (b : Block) : Kept [.berths, .stk] b (Block.settle b) := by
  unfold Block.settle
  repeat' first
    | with_reducible assumption
    | with_reducible apply Kept.refl
    | with_reducible apply Within.refl
    | ((with_reducible apply Within.of); rfl)
    | ((with_reducible apply Within.cons); (apply Piece.inside_of; rfl))
    | ((with_reducible apply Within.cons); apply Or.inr)
    | with_reducible apply Within.nil
    | with_reducible apply List.mem_cons_self
    | with_reducible apply List.mem_cons_of_mem
    | (extract_lets +onlyGivenNames x
       first
       | (guard_hyp x : Block := _
          refine Kept.cut (ps := [.berths, .stk]) (b := b) (x := x) ?_ fun hx => ?_
          on_goal 1 => subst x
          on_goal 2 => try clear_value x)
       | clear_value x
       | skip)
    | (simp only [Kept.by_fields]; with_reducible apply Kept.fields <;>
         first | with_reducible exact Or.inl rfl | (apply Or.inr; apply Piece.mem_of; rfl) | exact Or.inr (by simp; done) | (refine Or.inr ⟨?_, ?_⟩ <;> first | (apply Or.inl; apply Piece.mem_of; rfl) | exact Or.inl (by simp; done) | with_reducible exact Or.inr rfl | with_reducible exact Or.inr ⟨rfl, rfl, rfl, rfl⟩ | with_reducible exact Or.inr ⟨rfl, rfl, rfl, rfl, rfl⟩ | (refine ⟨?_, ?_⟩ <;> first | (apply Or.inl; apply Piece.mem_of; rfl) | exact Or.inl (by simp; done) | with_reducible exact Or.inr rfl)) | skip)
    | (with_reducible apply Kept.each; intro _ _ _)
    | with_reducible apply Block.modBerth_keeps
    | with_reducible apply Kept.ite
    | split

theorem Block.settle_keeps {qs : List Piece} {a₀ b : Block} (inside : Within [.berths, .stk] qs) (before : Kept qs a₀ b) :
    Kept qs a₀ (Block.settle b) := Kept.step (Block.settle_kept _) inside before

theorem Block.clearPanic_kept (b : Block) : Kept [.chs] b (Block.clearPanic b) := by
  unfold Block.clearPanic
  repeat' first
    | with_reducible assumption
    | with_reducible apply Kept.refl
    | with_reducible apply Within.refl
    | ((with_reducible apply Within.of); rfl)
    | ((with_reducible apply Within.cons); (apply Piece.inside_of; rfl))
    | ((with_reducible apply Within.cons); apply Or.inr)
    | with_reducible apply Within.nil
    | with_reducible apply List.mem_cons_self
    | with_reducible apply List.mem_cons_of_mem
    | (extract_lets +onlyGivenNames x
       first
       | (guard_hyp x : Block := _
          refine Kept.cut (ps := [.chs]) (b := b) (x := x) ?_ fun hx => ?_
          on_goal 1 => subst x
          on_goal 2 => try clear_value x)
       | clear_value x
       | skip)
    | (with_reducible apply Kept.each; intro _ _ _)
    | with_reducible apply Block.modCharter_keeps
    | with_reducible apply Kept.ite
    | split

theorem Block.clearPanic_keeps {qs : List Piece} {a₀ b : Block} (inside : Within [.chs] qs) (before : Kept qs a₀ b) :
    Kept qs a₀ (Block.clearPanic b) := Kept.step (Block.clearPanic_kept _) inside before

theorem Block.partEnded_kept (b : Block) (n : Nat) : Kept [.berths, .chan n, .chs, .stk] b (Block.partEnded b n) := by
  unfold Block.partEnded
  repeat' first
    | with_reducible assumption
    | with_reducible apply Kept.refl
    | with_reducible apply Within.refl
    | ((with_reducible apply Within.of); rfl)
    | ((with_reducible apply Within.cons); (apply Piece.inside_of; rfl))
    | ((with_reducible apply Within.cons); apply Or.inr)
    | with_reducible apply Within.nil
    | with_reducible apply List.mem_cons_self
    | with_reducible apply List.mem_cons_of_mem
    | with_reducible apply Block.settle_keeps
    | with_reducible apply Block.clearPanic_keeps
    | with_reducible apply Block.modChan_keeps
    | with_reducible apply Kept.ite
    | split

theorem Block.partEnded_keeps {qs : List Piece} {a₀ b : Block} {n : Nat} (inside : Within [.berths, .chan n, .chs, .stk] qs) (before : Kept qs a₀ b) :
    Kept qs a₀ (Block.partEnded b n) := Kept.step (Block.partEnded_kept _ _) inside before

theorem Block.modReq_kept (b : Block) (id : Nat) (f : Req → Req) : Kept [.qy] b (Block.modReq b id f) := by
  unfold Block.modReq
  repeat' first
    | with_reducible assumption
    | with_reducible apply Kept.refl
    | with_reducible apply Within.refl
    | ((with_reducible apply Within.of); rfl)
    | ((with_reducible apply Within.cons); (apply Piece.inside_of; rfl))
    | ((with_reducible apply Within.cons); apply Or.inr)
    | with_reducible apply Within.nil
    | with_reducible apply List.mem_cons_self
    | with_reducible apply List.mem_cons_of_mem
    | (extract_lets +onlyGivenNames x
       first
       | (guard_hyp x : Block := _
          refine Kept.cut (ps := [.qy]) (b := b) (x := x) ?_ fun hx => ?_
          on_goal 1 => subst x
          on_goal 2 => try clear_value x)
       | (guard_hyp x : Quay := _; subst x)
       | clear_value x
       | skip)
    | (simp only [Kept.by_fields]; with_reducible apply Kept.fields <;>
         first | with_reducible exact Or.inl rfl | (apply Or.inr; apply Piece.mem_of; rfl) | exact Or.inr (by simp; done) | (refine Or.inr ⟨?_, ?_⟩ <;> first | (apply Or.inl; apply Piece.mem_of; rfl) | exact Or.inl (by simp; done) | with_reducible exact Or.inr rfl | with_reducible exact Or.inr ⟨rfl, rfl, rfl, rfl⟩ | with_reducible exact Or.inr ⟨rfl, rfl, rfl, rfl, rfl⟩ | (refine ⟨?_, ?_⟩ <;> first | (apply Or.inl; apply Piece.mem_of; rfl) | exact Or.inl (by simp; done) | with_reducible exact Or.inr rfl)) | skip)
    | with_reducible apply Kept.ite
    | split

theorem Block.modReq_keeps {qs : List Piece} {a₀ b : Block} {id : Nat} {f : Req → Req} (inside : Within [.qy] qs) (before : Kept qs a₀ b) :
    Kept qs a₀ (Block.modReq b id f) := Kept.step (Block.modReq_kept _ _ _) inside before

theorem Block.grantGroup_kept (b : Block) (n : Nat) (inB : Bool) : Kept [.qy] b (Block.grantGroup b n inB) := by
  unfold Block.grantGroup
  generalize b.stagingQueue n inB = es
  have step : ∀ (acc : Block × Bool), Kept [.qy] b acc.1 → Kept [.qy] b (es.foldl (fun (acc : Block × Bool) e =>
    let (b, go) := acc
    if !go then acc
    else
      let need := match (b.req e.1).bind (·.parts[e.2.1]?) with
        | some p => p.toWrite.length
        | none => 0
      let all := b.stagingUsed n fun _ => true
      let low := b.stagingUsed n fun r => !r.inBudget
      if all + need ≤ 512 ∧ (inB ∨ low + need ≤ 320) then
        (b.modReq e.1 fun r => r.modPart e.2.1 fun p => { p with granted := true }, true)
      else (b, false)) acc).1 := by
    induction es with
    | nil => exact fun _ h => h
    | cons e es ih =>
      intro acc h
      rw [List.foldl_cons]
      refine ih _ ?_
      obtain ⟨c, go⟩ := acc
      dsimp only
      repeat' split
      all_goals first
        | exact h
        | exact Block.modReq_keeps (by simp [Within, Piece.inside]) h
  exact step _ (Kept.refl _ _)

theorem Block.grantGroup_keeps {qs : List Piece} {a₀ b : Block} {n : Nat} {inB : Bool} (inside : Within [.qy] qs) (before : Kept qs a₀ b) :
    Kept qs a₀ (Block.grantGroup b n inB) := Kept.step (Block.grantGroup_kept _ _ _) inside before

theorem Block.grantStaging_kept (b : Block) (n : Nat) : Kept [.qy] b (Block.grantStaging b n) := by
  unfold Block.grantStaging
  repeat' first
    | with_reducible assumption
    | with_reducible apply Kept.refl
    | with_reducible apply Within.refl
    | ((with_reducible apply Within.of); rfl)
    | ((with_reducible apply Within.cons); (apply Piece.inside_of; rfl))
    | ((with_reducible apply Within.cons); apply Or.inr)
    | with_reducible apply Within.nil
    | with_reducible apply List.mem_cons_self
    | with_reducible apply List.mem_cons_of_mem
    | with_reducible apply Block.grantGroup_keeps

theorem Block.grantStaging_keeps {qs : List Piece} {a₀ b : Block} {n : Nat} (inside : Within [.qy] qs) (before : Kept qs a₀ b) :
    Kept qs a₀ (Block.grantStaging b n) := Kept.step (Block.grantStaging_kept _ _) inside before

theorem Block.afterReq_kept (b : Block) (r : Req) : Kept [.berths, .chans, .chs, .count Off.qyCplDiscardLo, .events, .ins, .qy, .reg Off.lgAlarm, .stk] b (Block.afterReq b r) := by
  unfold Block.afterReq
  repeat' first
    | with_reducible assumption
    | with_reducible apply Kept.refl
    | with_reducible apply Within.refl
    | ((with_reducible apply Within.of); rfl)
    | ((with_reducible apply Within.cons); (apply Piece.inside_of; rfl))
    | ((with_reducible apply Within.cons); apply Or.inr)
    | with_reducible apply Within.nil
    | with_reducible apply List.mem_cons_self
    | with_reducible apply List.mem_cons_of_mem
    | (extract_lets +onlyGivenNames x
       first
       | (guard_hyp x : Block := _
          refine Kept.cut (ps := [.berths, .chans, .chs, .count Off.qyCplDiscardLo, .events, .ins, .qy, .reg Off.lgAlarm, .stk]) (b := b) (x := x) ?_ fun hx => ?_
          on_goal 1 => subst x
          on_goal 2 => try clear_value x)
       | (guard_hyp x : Clocks := _; subst x)
       | clear_value x
       | skip)
    | (simp only [Kept.by_fields]; with_reducible apply Kept.fields <;>
         first | with_reducible exact Or.inl rfl | (apply Or.inr; apply Piece.mem_of; rfl) | exact Or.inr (by simp; done) | (refine Or.inr ⟨?_, ?_⟩ <;> first | (apply Or.inl; apply Piece.mem_of; rfl) | exact Or.inl (by simp; done) | with_reducible exact Or.inr rfl | with_reducible exact Or.inr ⟨rfl, rfl, rfl, rfl⟩ | with_reducible exact Or.inr ⟨rfl, rfl, rfl, rfl, rfl⟩ | (refine ⟨?_, ?_⟩ <;> first | (apply Or.inl; apply Piece.mem_of; rfl) | exact Or.inl (by simp; done) | with_reducible exact Or.inr rfl)) | skip)
    | (with_reducible apply Kept.each; intro _ _ _)
    | with_reducible apply Block.modChan_keeps
    | with_reducible apply Block.grantStaging_keeps
    | with_reducible apply Block.clearPanic_keeps
    | with_reducible apply Block.settle_keeps
    | with_reducible apply Block.wakeFences_keeps

theorem Block.afterReq_keeps {qs : List Piece} {a₀ b : Block} {r : Req} (inside : Within [.berths, .chans, .chs, .count Off.qyCplDiscardLo, .events, .ins, .qy, .reg Off.lgAlarm, .stk] qs) (before : Kept qs a₀ b) :
    Kept qs a₀ (Block.afterReq b r) := Kept.step (Block.afterReq_kept _ _) inside before

theorem Block.endReq_kept (b : Block) (r : Req) (level : Nat) (a : Answer) : Kept [.berths, .chans, .chs, .count Off.qyCplDiscardLo, .events, .ins, .qy, .reg Off.lgAlarm, .stk] b (Block.endReq b r level a) := by
  unfold Block.endReq
  repeat' first
    | with_reducible assumption
    | with_reducible apply Kept.refl
    | with_reducible apply Within.refl
    | ((with_reducible apply Within.of); rfl)
    | ((with_reducible apply Within.cons); (apply Piece.inside_of; rfl))
    | ((with_reducible apply Within.cons); apply Or.inr)
    | with_reducible apply Within.nil
    | with_reducible apply List.mem_cons_self
    | with_reducible apply List.mem_cons_of_mem
    | (extract_lets +onlyGivenNames x
       first
       | (guard_hyp x : Block := _
          refine Kept.cut (ps := [.berths, .chans, .chs, .count Off.qyCplDiscardLo, .events, .ins, .qy, .reg Off.lgAlarm, .stk]) (b := b) (x := x) ?_ fun hx => ?_
          on_goal 1 => subst x
          on_goal 2 => try clear_value x)
       | (guard_hyp x : Quay := _; subst x)
       | clear_value x
       | skip)
    | (simp only [Kept.by_fields]; with_reducible apply Kept.fields <;>
         first | with_reducible exact Or.inl rfl | (apply Or.inr; apply Piece.mem_of; rfl) | exact Or.inr (by simp; done) | (refine Or.inr ⟨?_, ?_⟩ <;> first | (apply Or.inl; apply Piece.mem_of; rfl) | exact Or.inl (by simp; done) | with_reducible exact Or.inr rfl | with_reducible exact Or.inr ⟨rfl, rfl, rfl, rfl⟩ | with_reducible exact Or.inr ⟨rfl, rfl, rfl, rfl, rfl⟩ | (refine ⟨?_, ?_⟩ <;> first | (apply Or.inl; apply Piece.mem_of; rfl) | exact Or.inl (by simp; done) | with_reducible exact Or.inr rfl)) | skip)
    | with_reducible apply Block.dropReq_keeps
    | with_reducible apply Block.complete_keeps
    | with_reducible apply Block.afterReq_keeps

theorem Block.endReq_keeps {qs : List Piece} {a₀ b : Block} {r : Req} {level : Nat} {a : Answer} (inside : Within [.berths, .chans, .chs, .count Off.qyCplDiscardLo, .events, .ins, .qy, .reg Off.lgAlarm, .stk] qs) (before : Kept qs a₀ b) :
    Kept qs a₀ (Block.endReq b r level a) := Kept.step (Block.endReq_kept _ _ _ _) inside before

theorem Block.raisePanic_kept (b : Block) (n : Nat) (c : Cls) : Kept [.chan n, .chs, .reg Off.chAlarm] b (Block.raisePanic b n c) := by
  unfold Block.raisePanic
  repeat' first
    | with_reducible assumption
    | with_reducible apply Kept.refl
    | with_reducible apply Within.refl
    | ((with_reducible apply Within.of); rfl)
    | ((with_reducible apply Within.cons); (apply Piece.inside_of; rfl))
    | ((with_reducible apply Within.cons); apply Or.inr)
    | with_reducible apply Within.nil
    | with_reducible apply List.mem_cons_self
    | with_reducible apply List.mem_cons_of_mem
    | (extract_lets +onlyGivenNames x
       first
       | (guard_hyp x : Block := _
          refine Kept.cut (ps := [.chan n, .chs, .reg Off.chAlarm]) (b := b) (x := x) ?_ fun hx => ?_
          on_goal 1 => subst x
          on_goal 2 => try clear_value x)
       | clear_value x
       | skip)
    | with_reducible apply Block.setCharter_keeps
    | with_reducible apply Block.modChan_keeps
    | with_reducible apply Block.orReg_keeps
    | with_reducible apply Kept.ite
    | split

theorem Block.raisePanic_keeps {qs : List Piece} {a₀ b : Block} {n : Nat} {c : Cls} (inside : Within [.chan n, .chs, .reg Off.chAlarm] qs) (before : Kept qs a₀ b) :
    Kept qs a₀ (Block.raisePanic b n c) := Kept.step (Block.raisePanic_kept _ _ _) inside before

theorem Block.accept_kept (b : Block) (sd : Side) (op : Op) (f : Flit) (pl : Plan) (cls : Cls) (ks : List (BitVec 512)) : Kept [.berths, .chans, .chs, .count Off.qyAcceptLo, .count Off.qyCplDiscardLo, .events, .fresh, .ins, .qy, .reg (tlOff Off.tlOvf quayBlk), .reg Off.chAlarm, .reg Off.lgAlarm, .reg Off.qyTags, .stk, .tl] b (Block.accept b sd op f pl cls ks) := by
  unfold Block.accept
  repeat' first
    | with_reducible assumption
    | with_reducible apply Kept.refl
    | with_reducible apply Within.refl
    | ((with_reducible apply Within.of); rfl)
    | ((with_reducible apply Within.cons); (apply Piece.inside_of; rfl))
    | ((with_reducible apply Within.cons); apply Or.inr)
    | with_reducible apply Within.nil
    | with_reducible apply List.mem_cons_self
    | with_reducible apply List.mem_cons_of_mem
    | (extract_lets +onlyGivenNames x
       first
       | (guard_hyp x : Block := _
          refine Kept.cut (ps := [.berths, .chans, .chs, .count Off.qyAcceptLo, .count Off.qyCplDiscardLo, .events, .fresh, .ins, .qy, .reg (tlOff Off.tlOvf quayBlk), .reg Off.chAlarm, .reg Off.lgAlarm, .reg Off.qyTags, .stk, .tl]) (b := b) (x := x) ?_ fun hx => ?_
          on_goal 1 => subst x
          on_goal 2 => try clear_value x)
       | (guard_hyp x : Quay := _; subst x)
       | clear_value x
       | skip)
    | (simp only [Kept.by_fields]; with_reducible apply Kept.fields <;>
         first | with_reducible exact Or.inl rfl | (apply Or.inr; apply Piece.mem_of; rfl) | exact Or.inr (by simp; done) | (refine Or.inr ⟨?_, ?_⟩ <;> first | (apply Or.inl; apply Piece.mem_of; rfl) | exact Or.inl (by simp; done) | with_reducible exact Or.inr rfl | with_reducible exact Or.inr ⟨rfl, rfl, rfl, rfl⟩ | with_reducible exact Or.inr ⟨rfl, rfl, rfl, rfl, rfl⟩ | (refine ⟨?_, ?_⟩ <;> first | (apply Or.inl; apply Piece.mem_of; rfl) | exact Or.inl (by simp; done) | with_reducible exact Or.inr rfl)) | skip)
    | (with_reducible apply Kept.each; intro _ _ _)
    | with_reducible apply Block.debit_keeps
    | with_reducible apply Block.draw_keeps
    | with_reducible apply Block.tally_keeps
    | with_reducible apply Block.bump_keeps
    | with_reducible apply Block.noteTags_keeps
    | with_reducible apply Block.endReq_keeps
    | with_reducible apply Block.raisePanic_keeps
    | with_reducible apply Block.wakeFences_keeps
    | with_reducible apply Block.modReq_keeps
    | with_reducible apply Kept.ite
    | split

theorem Block.accept_keeps {qs : List Piece} {a₀ b : Block} {sd : Side} {op : Op} {f : Flit} {pl : Plan} {cls : Cls} {ks : List (BitVec 512)} (inside : Within [.berths, .chans, .chs, .count Off.qyAcceptLo, .count Off.qyCplDiscardLo, .events, .fresh, .ins, .qy, .reg (tlOff Off.tlOvf quayBlk), .reg Off.chAlarm, .reg Off.lgAlarm, .reg Off.qyTags, .stk, .tl] qs) (before : Kept qs a₀ b) :
    Kept qs a₀ (Block.accept b sd op f pl cls ks) := Kept.step (Block.accept_kept _ _ _ _ _ _ _) inside before

theorem Block.decideReq_kept (b : Block) (sd : Side) (op : Op) (f : Flit) : Kept [.berths, .chans, .chs, .cnt, .events, .fresh, .ins, .prot, .qy, .reg (tlOff Off.tlOvf quayBlk), .reg Off.chAlarm, .reg Off.lgAlarm, .reg Off.prAlarm, .reg Off.prErrLost, .reg Off.qyAlarm, .reg Off.qyTags, .stk, .tl] b (Block.decideReq b sd op f) := by
  unfold Block.decideReq
  repeat' first
    | with_reducible assumption
    | with_reducible apply Kept.refl
    | with_reducible apply Within.refl
    | ((with_reducible apply Within.of); rfl)
    | ((with_reducible apply Within.cons); (apply Piece.inside_of; rfl))
    | ((with_reducible apply Within.cons); apply Or.inr)
    | with_reducible apply Within.nil
    | with_reducible apply List.mem_cons_self
    | with_reducible apply List.mem_cons_of_mem
    | (extract_lets +onlyGivenNames x
       first
       | (guard_hyp x : Block := _
          refine Kept.cut (ps := [.berths, .chans, .chs, .cnt, .events, .fresh, .ins, .prot, .qy, .reg (tlOff Off.tlOvf quayBlk), .reg Off.chAlarm, .reg Off.lgAlarm, .reg Off.prAlarm, .reg Off.prErrLost, .reg Off.qyAlarm, .reg Off.qyTags, .stk, .tl]) (b := b) (x := x) ?_ fun hx => ?_
          on_goal 1 => subst x
          on_goal 2 => try clear_value x)
       | clear_value x
       | skip)
    | with_reducible apply Block.refuse_keeps
    | with_reducible apply Block.refuseEmpty_keeps
    | with_reducible apply Block.accept_keeps
    | with_reducible apply Block.orReg_keeps
    | with_reducible apply Kept.ite
    | split

theorem Block.decideReq_keeps {qs : List Piece} {a₀ b : Block} {sd : Side} {op : Op} {f : Flit} (inside : Within [.berths, .chans, .chs, .cnt, .events, .fresh, .ins, .prot, .qy, .reg (tlOff Off.tlOvf quayBlk), .reg Off.chAlarm, .reg Off.lgAlarm, .reg Off.prAlarm, .reg Off.prErrLost, .reg Off.qyAlarm, .reg Off.qyTags, .stk, .tl] qs) (before : Kept qs a₀ b) :
    Kept qs a₀ (Block.decideReq b sd op f) := Kept.step (Block.decideReq_kept _ _ _ _) inside before

theorem Block.takeReq_kept (b : Block) (sd : Side) (op : Op) (f : Flit) : Kept [.berths, .chans, .chs, .cnt, .events, .fresh, .ins, .prot, .qy, .reg (tlOff Off.tlOvf quayBlk), .reg Off.chAlarm, .reg Off.lgAlarm, .reg Off.prAlarm, .reg Off.prErrLost, .reg Off.qyAlarm, .reg Off.qyTags, .stk, .tl] b (Block.takeReq b sd op f) := by
  unfold Block.takeReq
  repeat' first
    | with_reducible assumption
    | with_reducible apply Kept.refl
    | with_reducible apply Within.refl
    | ((with_reducible apply Within.of); rfl)
    | ((with_reducible apply Within.cons); (apply Piece.inside_of; rfl))
    | ((with_reducible apply Within.cons); apply Or.inr)
    | with_reducible apply Within.nil
    | with_reducible apply List.mem_cons_self
    | with_reducible apply List.mem_cons_of_mem
    | (extract_lets +onlyGivenNames x
       first
       | (guard_hyp x : Block := _
          refine Kept.cut (ps := [.berths, .chans, .chs, .cnt, .events, .fresh, .ins, .prot, .qy, .reg (tlOff Off.tlOvf quayBlk), .reg Off.chAlarm, .reg Off.lgAlarm, .reg Off.prAlarm, .reg Off.prErrLost, .reg Off.qyAlarm, .reg Off.qyTags, .stk, .tl]) (b := b) (x := x) ?_ fun hx => ?_
          on_goal 1 => subst x
          on_goal 2 => try clear_value x)
       | clear_value x
       | skip)
    | with_reducible apply Block.takeClaimed_keeps
    | with_reducible apply Block.refuse_keeps
    | with_reducible apply Block.decideReq_keeps
    | with_reducible apply Kept.ite
    | split

theorem Block.takeReq_keeps {qs : List Piece} {a₀ b : Block} {sd : Side} {op : Op} {f : Flit} (inside : Within [.berths, .chans, .chs, .cnt, .events, .fresh, .ins, .prot, .qy, .reg (tlOff Off.tlOvf quayBlk), .reg Off.chAlarm, .reg Off.lgAlarm, .reg Off.prAlarm, .reg Off.prErrLost, .reg Off.qyAlarm, .reg Off.qyTags, .stk, .tl] qs) (before : Kept qs a₀ b) :
    Kept qs a₀ (Block.takeReq b sd op f) := Kept.step (Block.takeReq_kept _ _ _ _) inside before

theorem Block.withdraw_kept (b : Block) (r : Req) : Kept [.berths, .chans, .chs, .count Off.qyCplDiscardLo, .events, .ins, .qy, .reg Off.lgAlarm, .stk] b (Block.withdraw b r) := by
  unfold Block.withdraw
  repeat' first
    | with_reducible assumption
    | with_reducible apply Kept.refl
    | with_reducible apply Within.refl
    | ((with_reducible apply Within.of); rfl)
    | ((with_reducible apply Within.cons); (apply Piece.inside_of; rfl))
    | ((with_reducible apply Within.cons); apply Or.inr)
    | with_reducible apply Within.nil
    | with_reducible apply List.mem_cons_self
    | with_reducible apply List.mem_cons_of_mem
    | with_reducible apply Block.endReq_keeps

theorem Block.withdraw_keeps {qs : List Piece} {a₀ b : Block} {r : Req} (inside : Within [.berths, .chans, .chs, .count Off.qyCplDiscardLo, .events, .ins, .qy, .reg Off.lgAlarm, .stk] qs) (before : Kept qs a₀ b) :
    Kept qs a₀ (Block.withdraw b r) := Kept.step (Block.withdraw_kept _ _) inside before

theorem Block.queuePart_kept (b : Block) (r : Req) (i : Nat) (p : Part) : Kept [.chan p.berth, .qy, .reg (tlOff Off.tlOvf p.berth), .tl] b (Block.queuePart b r i p) := by
  unfold Block.queuePart
  repeat' first
    | with_reducible assumption
    | with_reducible apply Kept.refl
    | with_reducible apply Within.refl
    | ((with_reducible apply Within.of); rfl)
    | ((with_reducible apply Within.cons); (apply Piece.inside_of; rfl))
    | ((with_reducible apply Within.cons); apply Or.inr)
    | with_reducible apply Within.nil
    | with_reducible apply List.mem_cons_self
    | with_reducible apply List.mem_cons_of_mem
    | (extract_lets +onlyGivenNames x
       first
       | (guard_hyp x : Block := _
          refine Kept.cut (ps := [.chan p.berth, .qy, .reg (tlOff Off.tlOvf p.berth), .tl]) (b := b) (x := x) ?_ fun hx => ?_
          on_goal 1 => subst x
          on_goal 2 => try clear_value x)
       | clear_value x
       | skip)
    | with_reducible apply Block.modReq_keeps
    | with_reducible apply Block.wakeChan_keeps
    | with_reducible apply Block.modChan_keeps
    | with_reducible apply Block.tally_keeps
    | with_reducible apply Block.grantStaging_keeps
    | with_reducible apply Kept.ite
    | split

theorem Block.queuePart_keeps {qs : List Piece} {a₀ b : Block} {r : Req} {i : Nat} {p : Part} (inside : Within [.chan p.berth, .qy, .reg (tlOff Off.tlOvf p.berth), .tl] qs) (before : Kept qs a₀ b) :
    Kept qs a₀ (Block.queuePart b r i p) := Kept.step (Block.queuePart_kept _ _ _ _) inside before

theorem Block.partArrive_kept (b : Block) (id : Nat) (i : Nat) : Kept [.berths, .chans, .chs, .count Off.qyCplDiscardLo, .events, .ins, .qy, .regs, .stk, .tl] b (Block.partArrive b id i) := by
  unfold Block.partArrive
  repeat' first
    | with_reducible assumption
    | with_reducible apply Kept.refl
    | with_reducible apply Within.refl
    | ((with_reducible apply Within.of); rfl)
    | ((with_reducible apply Within.cons); (apply Piece.inside_of; rfl))
    | ((with_reducible apply Within.cons); apply Or.inr)
    | with_reducible apply Within.nil
    | with_reducible apply List.mem_cons_self
    | with_reducible apply List.mem_cons_of_mem
    | with_reducible apply Block.endReq_keeps
    | with_reducible apply Block.modReq_keeps
    | with_reducible apply Block.queuePart_keeps
    | with_reducible apply Kept.ite
    | split

theorem Block.partArrive_keeps {qs : List Piece} {a₀ b : Block} {id : Nat} {i : Nat} (inside : Within [.berths, .chans, .chs, .count Off.qyCplDiscardLo, .events, .ins, .qy, .regs, .stk, .tl] qs) (before : Kept qs a₀ b) :
    Kept qs a₀ (Block.partArrive b id i) := Kept.step (Block.partArrive_kept _ _ _) inside before

theorem Block.readOne_kept (b : Block) (r : Req) (n : Nat) (g : Nat) (syms : List Byte) : Kept [.berths, .col n, .count Off.prCeLo, .count Off.prCeRepeatLo, .count Off.prCeUntrackedLo, .count Off.prPoisonRdLo, .count Off.prUeLo, .count Off.prZeroRdLo, .events, .prot, .reg (tlOff Off.tlOvf n), .reg Off.lgAlarm, .reg Off.prAlarm, .reg Off.prErrLost, .slots, .tl] b (Block.readOne b r n g syms).1 := by
  unfold Block.readOne
  repeat' first
    | with_reducible assumption
    | with_reducible apply Kept.refl
    | with_reducible apply Within.refl
    | ((with_reducible apply Within.of); rfl)
    | ((with_reducible apply Within.cons); (apply Piece.inside_of; rfl))
    | ((with_reducible apply Within.cons); apply Or.inr)
    | with_reducible apply Within.nil
    | with_reducible apply List.mem_cons_self
    | with_reducible apply List.mem_cons_of_mem
    | with_reducible apply Block.noteRead_keeps
    | dsimp -zeta only
    | with_reducible apply Kept.ite
    | split

theorem Block.readOne_keeps {qs : List Piece} {a₀ b : Block} {r : Req} {n : Nat} {g : Nat} {syms : List Byte} (inside : Within [.berths, .col n, .count Off.prCeLo, .count Off.prCeRepeatLo, .count Off.prCeUntrackedLo, .count Off.prPoisonRdLo, .count Off.prUeLo, .count Off.prZeroRdLo, .events, .prot, .reg (tlOff Off.tlOvf n), .reg Off.lgAlarm, .reg Off.prAlarm, .reg Off.prErrLost, .slots, .tl] qs) (before : Kept qs a₀ b) :
    Kept qs a₀ (Block.readOne b r n g syms).1 := Kept.step (Block.readOne_kept b r n g syms) inside before

theorem Block.readOne_of {qs : List Piece} {a₀ b c₀ : Block} {r : Req} {n : Nat} {g : Nat} {syms : List Byte} {y₀ : Nat × Granule × Bool} (eq : Block.readOne b r n g syms = (c₀, y₀)) (inside : Within [.berths, .col n, .count Off.prCeLo, .count Off.prCeRepeatLo, .count Off.prCeUntrackedLo, .count Off.prPoisonRdLo, .count Off.prUeLo, .count Off.prZeroRdLo, .events, .prot, .reg (tlOff Off.tlOvf n), .reg Off.lgAlarm, .reg Off.prAlarm, .reg Off.prErrLost, .slots, .tl] qs)
    (before : Kept qs a₀ b) : Kept qs a₀ c₀ := by
  have h := Kept.step (Block.readOne_kept b r n g syms) inside before
  rw [eq] at h; exact h

theorem Block.readAll_kept (b : Block) (r : Req) (n : Nat) (l : List (Nat × List Byte)) : Kept [.berths, .col n, .count Off.prCeLo, .count Off.prCeRepeatLo, .count Off.prCeUntrackedLo, .count Off.prPoisonRdLo, .count Off.prUeLo, .count Off.prZeroRdLo, .events, .prot, .reg (tlOff Off.tlOvf n), .reg Off.lgAlarm, .reg Off.prAlarm, .reg Off.prErrLost, .slots, .tl] b (Block.readAll b r n l).1 := by
  induction l generalizing b with
  | nil => exact Kept.refl _ _
  | cons x l ih => exact Kept.trans (Block.readOne_kept b r n x.1 x.2) (ih _)

theorem Block.readAll_keeps {qs : List Piece} {a₀ b : Block} {r : Req} {n : Nat} {l : List (Nat × List Byte)} (inside : Within [.berths, .col n, .count Off.prCeLo, .count Off.prCeRepeatLo, .count Off.prCeUntrackedLo, .count Off.prPoisonRdLo, .count Off.prUeLo, .count Off.prZeroRdLo, .events, .prot, .reg (tlOff Off.tlOvf n), .reg Off.lgAlarm, .reg Off.prAlarm, .reg Off.prErrLost, .slots, .tl] qs) (before : Kept qs a₀ b) :
    Kept qs a₀ (Block.readAll b r n l).1 := Kept.step (Block.readAll_kept b r n l) inside before

theorem Block.readAll_of {qs : List Piece} {a₀ b c₀ : Block} {r : Req} {n : Nat} {l : List (Nat × List Byte)} {y₀ : Vals} (eq : Block.readAll b r n l = (c₀, y₀)) (inside : Within [.berths, .col n, .count Off.prCeLo, .count Off.prCeRepeatLo, .count Off.prCeUntrackedLo, .count Off.prPoisonRdLo, .count Off.prUeLo, .count Off.prZeroRdLo, .events, .prot, .reg (tlOff Off.tlOvf n), .reg Off.lgAlarm, .reg Off.prAlarm, .reg Off.prErrLost, .slots, .tl] qs)
    (before : Kept qs a₀ b) : Kept qs a₀ c₀ := by
  have h := Kept.step (Block.readAll_kept b r n l) inside before
  rw [eq] at h; exact h

theorem Block.served_kept (b : Block) (r : Req) (p : Part) (poisoned : Bool) : Kept [.chs, .cnt, .regs, .tl] b (Block.served b r p poisoned) := by
  unfold Block.served
  repeat' first
    | with_reducible assumption
    | with_reducible apply Kept.refl
    | with_reducible apply Within.refl
    | ((with_reducible apply Within.of); rfl)
    | ((with_reducible apply Within.cons); (apply Piece.inside_of; rfl))
    | ((with_reducible apply Within.cons); apply Or.inr)
    | with_reducible apply Within.nil
    | with_reducible apply List.mem_cons_self
    | with_reducible apply List.mem_cons_of_mem
    | (extract_lets +onlyGivenNames x
       first
       | (guard_hyp x : Block := _
          refine Kept.cut (ps := [.chs, .cnt, .regs, .tl]) (b := b) (x := x) ?_ fun hx => ?_
          on_goal 1 => subst x
          on_goal 2 => try clear_value x)
       | clear_value x
       | skip)
    | (simp only [Kept.by_fields]; with_reducible apply Kept.fields <;>
         first | with_reducible exact Or.inl rfl | (apply Or.inr; apply Piece.mem_of; rfl) | exact Or.inr (by simp; done) | (refine Or.inr ⟨?_, ?_⟩ <;> first | (apply Or.inl; apply Piece.mem_of; rfl) | exact Or.inl (by simp; done) | with_reducible exact Or.inr rfl | with_reducible exact Or.inr ⟨rfl, rfl, rfl, rfl⟩ | with_reducible exact Or.inr ⟨rfl, rfl, rfl, rfl, rfl⟩ | (refine ⟨?_, ?_⟩ <;> first | (apply Or.inl; apply Piece.mem_of; rfl) | exact Or.inl (by simp; done) | with_reducible exact Or.inr rfl)) | skip)
    | with_reducible apply Block.bump_keeps
    | with_reducible apply Block.orReg_keeps
    | with_reducible apply Block.tally_keeps
    | with_reducible apply Block.setReg_keeps
    | with_reducible apply Block.modCharter_keeps
    | with_reducible apply Kept.ite
    | split

theorem Block.served_keeps {qs : List Piece} {a₀ b : Block} {r : Req} {p : Part} {poisoned : Bool} (inside : Within [.chs, .cnt, .regs, .tl] qs) (before : Kept qs a₀ b) :
    Kept qs a₀ (Block.served b r p poisoned) := Kept.step (Block.served_kept _ _ _ _) inside before

theorem Block.sendRemote_kept (b : Block) (r : Req) (w : RemWrite) (k : Nat) (vs : Vals) : Kept [.count Off.qyCplDiscardLo, .events, .ins, .qy, .reg Off.lgAlarm] b (Block.sendRemote b r w k vs) := by
  unfold Block.sendRemote
  repeat' first
    | with_reducible assumption
    | with_reducible apply Kept.refl
    | with_reducible apply Within.refl
    | ((with_reducible apply Within.of); rfl)
    | ((with_reducible apply Within.cons); (apply Piece.inside_of; rfl))
    | ((with_reducible apply Within.cons); apply Or.inr)
    | with_reducible apply Within.nil
    | with_reducible apply List.mem_cons_self
    | with_reducible apply List.mem_cons_of_mem
    | (simp only [Kept.by_fields]; with_reducible apply Kept.fields <;>
         first | with_reducible exact Or.inl rfl | (apply Or.inr; apply Piece.mem_of; rfl) | exact Or.inr (by simp; done) | (refine Or.inr ⟨?_, ?_⟩ <;> first | (apply Or.inl; apply Piece.mem_of; rfl) | exact Or.inl (by simp; done) | with_reducible exact Or.inr rfl | with_reducible exact Or.inr ⟨rfl, rfl, rfl, rfl⟩ | with_reducible exact Or.inr ⟨rfl, rfl, rfl, rfl, rfl⟩ | (refine ⟨?_, ?_⟩ <;> first | (apply Or.inl; apply Piece.mem_of; rfl) | exact Or.inl (by simp; done) | with_reducible exact Or.inr rfl)) | skip)
    | with_reducible apply Block.remEnds_keeps
    | with_reducible apply Block.putIns_keeps
    | with_reducible apply Kept.ite
    | split

theorem Block.sendRemote_keeps {qs : List Piece} {a₀ b : Block} {r : Req} {w : RemWrite} {k : Nat} {vs : Vals} (inside : Within [.count Off.qyCplDiscardLo, .events, .ins, .qy, .reg Off.lgAlarm] qs) (before : Kept qs a₀ b) :
    Kept qs a₀ (Block.sendRemote b r w k vs) := Kept.step (Block.sendRemote_kept _ _ _ _ _) inside before

theorem Block.emitCopy_kept (b : Block) (r : Req) : Kept [.berths, .chans, .chs, .count Off.qyCplDiscardLo, .events, .ins, .qy, .reg Off.lgAlarm, .stk] b (Block.emitCopy b r) := by
  unfold Block.emitCopy
  repeat' first
    | with_reducible assumption
    | with_reducible apply Kept.refl
    | with_reducible apply Within.refl
    | ((with_reducible apply Within.of); rfl)
    | ((with_reducible apply Within.cons); (apply Piece.inside_of; rfl))
    | ((with_reducible apply Within.cons); apply Or.inr)
    | with_reducible apply Within.nil
    | with_reducible apply List.mem_cons_self
    | with_reducible apply List.mem_cons_of_mem
    | (extract_lets +onlyGivenNames x
       first
       | (guard_hyp x : Block := _
          refine Kept.cut (ps := [.berths, .chans, .chs, .count Off.qyCplDiscardLo, .events, .ins, .qy, .reg Off.lgAlarm, .stk]) (b := b) (x := x) ?_ fun hx => ?_
          on_goal 1 => subst x
          on_goal 2 => try clear_value x)
       | (guard_hyp x : Quay := _; subst x)
       | clear_value x
       | skip)
    | (simp only [Kept.by_fields]; with_reducible apply Kept.fields <;>
         first | with_reducible exact Or.inl rfl | (apply Or.inr; apply Piece.mem_of; rfl) | exact Or.inr (by simp; done) | (refine Or.inr ⟨?_, ?_⟩ <;> first | (apply Or.inl; apply Piece.mem_of; rfl) | exact Or.inl (by simp; done) | with_reducible exact Or.inr rfl | with_reducible exact Or.inr ⟨rfl, rfl, rfl, rfl⟩ | with_reducible exact Or.inr ⟨rfl, rfl, rfl, rfl, rfl⟩ | (refine ⟨?_, ?_⟩ <;> first | (apply Or.inl; apply Piece.mem_of; rfl) | exact Or.inl (by simp; done) | with_reducible exact Or.inr rfl)) | skip)
    | (with_reducible apply Kept.foldl; intro _ _ _)
    | with_reducible apply Block.dropReq_keeps
    | with_reducible apply Block.sendRemote_keeps
    | with_reducible apply Block.afterReq_keeps

theorem Block.emitCopy_keeps {qs : List Piece} {a₀ b : Block} {r : Req} (inside : Within [.berths, .chans, .chs, .count Off.qyCplDiscardLo, .events, .ins, .qy, .reg Off.lgAlarm, .stk] qs) (before : Kept qs a₀ b) :
    Kept qs a₀ (Block.emitCopy b r) := Kept.step (Block.emitCopy_kept _ _) inside before

theorem Block.checkReq_kept (b : Block) (id : Nat) : Kept [.berths, .chans, .chs, .cnt, .events, .ins, .qy, .regs, .stk, .tl] b (Block.checkReq b id) := by
  unfold Block.checkReq
  repeat' first
    | with_reducible assumption
    | with_reducible apply Kept.refl
    | with_reducible apply Within.refl
    | ((with_reducible apply Within.of); rfl)
    | ((with_reducible apply Within.cons); (apply Piece.inside_of; rfl))
    | ((with_reducible apply Within.cons); apply Or.inr)
    | with_reducible apply Within.nil
    | with_reducible apply List.mem_cons_self
    | with_reducible apply List.mem_cons_of_mem
    | (extract_lets +onlyGivenNames x
       first
       | (guard_hyp x : Block := _
          refine Kept.cut (ps := [.berths, .chans, .chs, .cnt, .events, .ins, .qy, .regs, .stk, .tl]) (b := b) (x := x) ?_ fun hx => ?_
          on_goal 1 => subst x
          on_goal 2 => try clear_value x)
       | clear_value x
       | skip)
    | (simp only [Kept.by_fields]; with_reducible apply Kept.fields <;>
         first | with_reducible exact Or.inl rfl | (apply Or.inr; apply Piece.mem_of; rfl) | exact Or.inr (by simp; done) | (refine Or.inr ⟨?_, ?_⟩ <;> first | (apply Or.inl; apply Piece.mem_of; rfl) | exact Or.inl (by simp; done) | with_reducible exact Or.inr rfl | with_reducible exact Or.inr ⟨rfl, rfl, rfl, rfl⟩ | with_reducible exact Or.inr ⟨rfl, rfl, rfl, rfl, rfl⟩ | (refine ⟨?_, ?_⟩ <;> first | (apply Or.inl; apply Piece.mem_of; rfl) | exact Or.inl (by simp; done) | with_reducible exact Or.inr rfl)) | skip)
    | (with_reducible apply Kept.foldl; intro _ _ _)
    | with_reducible apply Block.served_keeps
    | with_reducible apply Block.endReq_keeps
    | with_reducible apply Block.emitCopy_keeps
    | with_reducible apply Kept.ite
    | split

theorem Block.checkReq_keeps {qs : List Piece} {a₀ b : Block} {id : Nat} (inside : Within [.berths, .chans, .chs, .cnt, .events, .ins, .qy, .regs, .stk, .tl] qs) (before : Kept qs a₀ b) :
    Kept qs a₀ (Block.checkReq b id) := Kept.step (Block.checkReq_kept _ _) inside before

theorem Block.partRead_kept (b : Block) (r : Req) (i : Nat) (p : Part) (got : List (Nat × List Byte)) : Kept [.berths, .chans, .chs, .cnt, .col p.berth, .events, .ins, .prot, .qy, .regs, .slots, .stk, .tl] b (Block.partRead b r i p got) := by
  unfold Block.partRead
  repeat' first
    | with_reducible assumption
    | with_reducible apply Kept.refl
    | with_reducible apply Within.refl
    | ((with_reducible apply Within.of); rfl)
    | ((with_reducible apply Within.cons); (apply Piece.inside_of; rfl))
    | ((with_reducible apply Within.cons); apply Or.inr)
    | with_reducible apply Within.nil
    | with_reducible apply List.mem_cons_self
    | with_reducible apply List.mem_cons_of_mem
    | (extract_lets +onlyGivenNames x
       first
       | (guard_hyp x : Block := _
          refine Kept.cut (ps := [.berths, .chans, .chs, .cnt, .col p.berth, .events, .ins, .prot, .qy, .regs, .slots, .stk, .tl]) (b := b) (x := x) ?_ fun hx => ?_
          on_goal 1 => subst x
          on_goal 2 => try clear_value x)
       | clear_value x
       | skip)
    | (with_reducible apply Kept.each; intro _ _ _)
    | (with_reducible apply Block.readAll_of; (case eq => assumption))
    | with_reducible apply Block.readAll_keeps
    | with_reducible apply Block.modReq_keeps
    | with_reducible apply Block.partEnded_keeps
    | with_reducible apply Block.served_keeps
    | with_reducible apply Block.grantStaging_keeps
    | with_reducible apply Block.checkReq_keeps
    | dsimp -zeta only
    | with_reducible apply Kept.ite
    | split

theorem Block.partRead_keeps {qs : List Piece} {a₀ b : Block} {r : Req} {i : Nat} {p : Part} {got : List (Nat × List Byte)} (inside : Within [.berths, .chans, .chs, .cnt, .col p.berth, .events, .ins, .prot, .qy, .regs, .slots, .stk, .tl] qs) (before : Kept qs a₀ b) :
    Kept qs a₀ (Block.partRead b r i p got) := Kept.step (Block.partRead_kept _ _ _ _ _) inside before

theorem Block.intErr_kept (b : Block) (n : Nat) : Kept [.events, .reg (btOff Off.btAlarm n), .reg Off.lgAlarm] b (Block.intErr b n) := by
  unfold Block.intErr
  repeat' first
    | with_reducible assumption
    | with_reducible apply Kept.refl
    | with_reducible apply Within.refl
    | ((with_reducible apply Within.of); rfl)
    | ((with_reducible apply Within.cons); (apply Piece.inside_of; rfl))
    | ((with_reducible apply Within.cons); apply Or.inr)
    | with_reducible apply Within.nil
    | with_reducible apply List.mem_cons_self
    | with_reducible apply List.mem_cons_of_mem
    | with_reducible apply Block.orReg_keeps
    | with_reducible apply Block.event_keeps

theorem Block.intErr_keeps {qs : List Piece} {a₀ b : Block} {n : Nat} (inside : Within [.events, .reg (btOff Off.btAlarm n), .reg Off.lgAlarm] qs) (before : Kept qs a₀ b) :
    Kept qs a₀ (Block.intErr b n) := Kept.step (Block.intErr_kept _ _) inside before

theorem Block.poisonRecord_kept (b : Block) (r : Req) (p : Part) : Kept [.berths, .prot, .reg Off.prAlarm, .reg Off.prErrLost] b (Block.poisonRecord b r p) := by
  unfold Block.poisonRecord
  repeat' first
    | with_reducible assumption
    | with_reducible apply Kept.refl
    | with_reducible apply Within.refl
    | ((with_reducible apply Within.of); rfl)
    | ((with_reducible apply Within.cons); (apply Piece.inside_of; rfl))
    | ((with_reducible apply Within.cons); apply Or.inr)
    | with_reducible apply Within.nil
    | with_reducible apply List.mem_cons_self
    | with_reducible apply List.mem_cons_of_mem
    | (with_reducible apply Kept.foldl; intro _ _ _)
    | with_reducible apply Block.errRecord_keeps
    | with_reducible apply Kept.ite
    | split

theorem Block.poisonRecord_keeps {qs : List Piece} {a₀ b : Block} {r : Req} {p : Part} (inside : Within [.berths, .prot, .reg Off.prAlarm, .reg Off.prErrLost] qs) (before : Kept qs a₀ b) :
    Kept qs a₀ (Block.poisonRecord b r p) := Kept.step (Block.poisonRecord_kept _ _ _) inside before

theorem Block.poisonPart_kept (b : Block) (r : Req) (i : Nat) (p : Part) : Kept [.berths, .chan p.berth, .chs, .prot, .qy, .reg Off.prAlarm, .reg Off.prErrLost, .stk] b (Block.poisonPart b r i p) := by
  unfold Block.poisonPart
  repeat' first
    | with_reducible assumption
    | with_reducible apply Kept.refl
    | with_reducible apply Within.refl
    | ((with_reducible apply Within.of); rfl)
    | ((with_reducible apply Within.cons); (apply Piece.inside_of; rfl))
    | ((with_reducible apply Within.cons); apply Or.inr)
    | with_reducible apply Within.nil
    | with_reducible apply List.mem_cons_self
    | with_reducible apply List.mem_cons_of_mem
    | (extract_lets +onlyGivenNames x
       first
       | (guard_hyp x : Block := _
          refine Kept.cut (ps := [.berths, .chan p.berth, .chs, .prot, .qy, .reg Off.prAlarm, .reg Off.prErrLost, .stk]) (b := b) (x := x) ?_ fun hx => ?_
          on_goal 1 => subst x
          on_goal 2 => try clear_value x)
       | clear_value x
       | skip)
    | with_reducible apply Block.partEnded_keeps
    | with_reducible apply Block.modReq_keeps
    | with_reducible apply Block.poisonRecord_keeps
    | with_reducible apply Kept.ite
    | split

theorem Block.poisonPart_keeps {qs : List Piece} {a₀ b : Block} {r : Req} {i : Nat} {p : Part} (inside : Within [.berths, .chan p.berth, .chs, .prot, .qy, .reg Off.prAlarm, .reg Off.prErrLost, .stk] qs) (before : Kept qs a₀ b) :
    Kept qs a₀ (Block.poisonPart b r i p) := Kept.step (Block.poisonPart_kept _ _ _ _) inside before

theorem Block.partWritten_kept (b : Block) (r : Req) (i : Nat) (p : Part) : Kept [.berths, .chan p.berth, .chs, .qy, .stk] b (Block.partWritten b r i p) := by
  unfold Block.partWritten
  repeat' first
    | with_reducible assumption
    | with_reducible apply Kept.refl
    | with_reducible apply Within.refl
    | ((with_reducible apply Within.of); rfl)
    | ((with_reducible apply Within.cons); (apply Piece.inside_of; rfl))
    | ((with_reducible apply Within.cons); apply Or.inr)
    | with_reducible apply Within.nil
    | with_reducible apply List.mem_cons_self
    | with_reducible apply List.mem_cons_of_mem
    | (extract_lets +onlyGivenNames x
       first
       | (guard_hyp x : Block := _
          refine Kept.cut (ps := [.berths, .chan p.berth, .chs, .qy, .stk]) (b := b) (x := x) ?_ fun hx => ?_
          on_goal 1 => subst x
          on_goal 2 => try clear_value x)
       | clear_value x
       | skip)
    | with_reducible apply Block.partEnded_keeps
    | with_reducible apply Block.modReq_keeps
    | with_reducible apply Kept.ite
    | split

theorem Block.partWritten_keeps {qs : List Piece} {a₀ b : Block} {r : Req} {i : Nat} {p : Part} (inside : Within [.berths, .chan p.berth, .chs, .qy, .stk] qs) (before : Kept qs a₀ b) :
    Kept qs a₀ (Block.partWritten b r i p) := Kept.step (Block.partWritten_kept _ _ _ _) inside before

theorem Block.damageOwn_kept (b : Block) (got : List (Nat × List Byte)) (dmg : List Damage) : Kept [.prot, .slots] b (Block.damageOwn b got dmg) := by
  unfold Block.damageOwn
  repeat' first
    | with_reducible assumption
    | with_reducible apply Kept.refl
    | with_reducible apply Within.refl
    | ((with_reducible apply Within.of); rfl)
    | ((with_reducible apply Within.cons); (apply Piece.inside_of; rfl))
    | ((with_reducible apply Within.cons); apply Or.inr)
    | with_reducible apply Within.nil
    | with_reducible apply List.mem_cons_self
    | with_reducible apply List.mem_cons_of_mem
    | (extract_lets +onlyGivenNames x
       first
       | (guard_hyp x : Block := _
          refine Kept.cut (ps := [.prot, .slots]) (b := b) (x := x) ?_ fun hx => ?_
          on_goal 1 => subst x
          on_goal 2 => try clear_value x)
       | clear_value x
       | skip)
    | (with_reducible apply Kept.foldl; intro _ _ _)
    | with_reducible apply Block.setOwn_keeps
    | with_reducible apply Kept.ite
    | split

theorem Block.damageOwn_keeps {qs : List Piece} {a₀ b : Block} {got : List (Nat × List Byte)} {dmg : List Damage} (inside : Within [.prot, .slots] qs) (before : Kept qs a₀ b) :
    Kept qs a₀ (Block.damageOwn b got dmg) := Kept.step (Block.damageOwn_kept _ _ _) inside before

theorem Block.partDone_kept (b : Block) (id : Nat) (i : Nat) (dmg : List Damage) (parityErr : Bool) : Kept [.berths, .chans, .chs, .cnt, .cols, .events, .ins, .prot, .qy, .regs, .slots, .stk, .tl] b (Block.partDone b id i dmg parityErr) := by
  unfold Block.partDone
  repeat' first
    | with_reducible assumption
    | with_reducible apply Kept.refl
    | with_reducible apply Within.refl
    | ((with_reducible apply Within.of); rfl)
    | ((with_reducible apply Within.cons); (apply Piece.inside_of; rfl))
    | ((with_reducible apply Within.cons); apply Or.inr)
    | with_reducible apply Within.nil
    | with_reducible apply List.mem_cons_self
    | with_reducible apply List.mem_cons_of_mem
    | with_reducible apply Block.endReq_keeps
    | with_reducible apply Block.intErr_keeps
    | with_reducible apply Block.partRead_keeps
    | with_reducible apply Block.damageOwn_keeps
    | with_reducible apply Block.checkReq_keeps
    | with_reducible apply Block.poisonPart_keeps
    | with_reducible apply Block.served_keeps
    | with_reducible apply Block.partWritten_keeps
    | with_reducible apply Kept.ite
    | split

theorem Block.partDone_keeps {qs : List Piece} {a₀ b : Block} {id : Nat} {i : Nat} {dmg : List Damage} {parityErr : Bool} (inside : Within [.berths, .chans, .chs, .cnt, .cols, .events, .ins, .prot, .qy, .regs, .slots, .stk, .tl] qs) (before : Kept qs a₀ b) :
    Kept qs a₀ (Block.partDone b id i dmg parityErr) := Kept.step (Block.partDone_kept _ _ _ _ _) inside before

theorem Block.commitGate_kept (b : Block) (id : Nat) (badPart : Option Nat) : Kept [.berths, .chans, .chs, .cnt, .events, .ins, .qy, .regs, .stk, .tl] b (Block.commitGate b id badPart) := by
  unfold Block.commitGate
  repeat' first
    | with_reducible assumption
    | with_reducible apply Kept.refl
    | with_reducible apply Within.refl
    | ((with_reducible apply Within.of); rfl)
    | ((with_reducible apply Within.cons); (apply Piece.inside_of; rfl))
    | ((with_reducible apply Within.cons); apply Or.inr)
    | with_reducible apply Within.nil
    | with_reducible apply List.mem_cons_self
    | with_reducible apply List.mem_cons_of_mem
    | (extract_lets +onlyGivenNames x
       first
       | (guard_hyp x : Block := _
          refine Kept.cut (ps := [.berths, .chans, .chs, .cnt, .events, .ins, .qy, .regs, .stk, .tl]) (b := b) (x := x) ?_ fun hx => ?_
          on_goal 1 => subst x
          on_goal 2 => try clear_value x)
       | (guard_hyp x : Quay := _; subst x)
       | clear_value x
       | skip)
    | (simp only [Kept.by_fields]; with_reducible apply Kept.fields <;>
         first | with_reducible exact Or.inl rfl | (apply Or.inr; apply Piece.mem_of; rfl) | exact Or.inr (by simp; done) | (refine Or.inr ⟨?_, ?_⟩ <;> first | (apply Or.inl; apply Piece.mem_of; rfl) | exact Or.inl (by simp; done) | with_reducible exact Or.inr rfl | with_reducible exact Or.inr ⟨rfl, rfl, rfl, rfl⟩ | with_reducible exact Or.inr ⟨rfl, rfl, rfl, rfl, rfl⟩ | (refine ⟨?_, ?_⟩ <;> first | (apply Or.inl; apply Piece.mem_of; rfl) | exact Or.inl (by simp; done) | with_reducible exact Or.inr rfl)) | skip)
    | (with_reducible apply Kept.foldl; intro _ _ _)
    | with_reducible apply Block.endReq_keeps
    | with_reducible apply Block.intErr_keeps
    | with_reducible apply Block.served_keeps
    | with_reducible apply Block.modReq_keeps
    | with_reducible apply Kept.ite
    | split

theorem Block.commitGate_keeps {qs : List Piece} {a₀ b : Block} {id : Nat} {badPart : Option Nat} (inside : Within [.berths, .chans, .chs, .cnt, .events, .ins, .qy, .regs, .stk, .tl] qs) (before : Kept qs a₀ b) :
    Kept qs a₀ (Block.commitGate b id badPart) := Kept.step (Block.commitGate_kept _ _ _) inside before

theorem Block.beWithdraw_kept (b : Block) (id : Nat) : Kept [.berths, .chans, .chs, .count Off.qyBeCapLo, .count Off.qyCplDiscardLo, .events, .ins, .qy, .reg (tlOff Off.tlOvf quayBlk), .reg Off.lgAlarm, .reg Off.qyAlarm, .stk, .tl] b (Block.beWithdraw b id) := by
  unfold Block.beWithdraw
  repeat' first
    | with_reducible assumption
    | with_reducible apply Kept.refl
    | with_reducible apply Within.refl
    | ((with_reducible apply Within.of); rfl)
    | ((with_reducible apply Within.cons); (apply Piece.inside_of; rfl))
    | ((with_reducible apply Within.cons); apply Or.inr)
    | with_reducible apply Within.nil
    | with_reducible apply List.mem_cons_self
    | with_reducible apply List.mem_cons_of_mem
    | with_reducible apply Block.withdraw_keeps
    | with_reducible apply Block.tally_keeps
    | with_reducible apply Block.orReg_keeps
    | with_reducible apply Block.bump_keeps
    | with_reducible apply Kept.ite
    | split

theorem Block.beWithdraw_keeps {qs : List Piece} {a₀ b : Block} {id : Nat} (inside : Within [.berths, .chans, .chs, .count Off.qyBeCapLo, .count Off.qyCplDiscardLo, .events, .ins, .qy, .reg (tlOff Off.tlOvf quayBlk), .reg Off.lgAlarm, .reg Off.qyAlarm, .stk, .tl] qs) (before : Kept qs a₀ b) :
    Kept qs a₀ (Block.beWithdraw b id) := Kept.step (Block.beWithdraw_kept _ _) inside before

theorem Block.charterWithdraw_kept (b : Block) (id : Nat) : Kept [.berths, .chans, .chs, .count Off.qyCplDiscardLo, .events, .ins, .qy, .reg Off.chAlarm, .reg Off.lgAlarm, .stk] b (Block.charterWithdraw b id) := by
  unfold Block.charterWithdraw
  repeat' first
    | with_reducible assumption
    | with_reducible apply Kept.refl
    | with_reducible apply Within.refl
    | ((with_reducible apply Within.of); rfl)
    | ((with_reducible apply Within.cons); (apply Piece.inside_of; rfl))
    | ((with_reducible apply Within.cons); apply Or.inr)
    | with_reducible apply Within.nil
    | with_reducible apply List.mem_cons_self
    | with_reducible apply List.mem_cons_of_mem
    | (extract_lets +onlyGivenNames x
       first
       | (guard_hyp x : Block := _
          refine Kept.cut (ps := [.berths, .chans, .chs, .count Off.qyCplDiscardLo, .events, .ins, .qy, .reg Off.chAlarm, .reg Off.lgAlarm, .stk]) (b := b) (x := x) ?_ fun hx => ?_
          on_goal 1 => subst x
          on_goal 2 => try clear_value x)
       | (guard_hyp x : Clocks := _; subst x)
       | clear_value x
       | skip)
    | (simp only [Kept.by_fields]; with_reducible apply Kept.fields <;>
         first | with_reducible exact Or.inl rfl | (apply Or.inr; apply Piece.mem_of; rfl) | exact Or.inr (by simp; done) | (refine Or.inr ⟨?_, ?_⟩ <;> first | (apply Or.inl; apply Piece.mem_of; rfl) | exact Or.inl (by simp; done) | with_reducible exact Or.inr rfl | with_reducible exact Or.inr ⟨rfl, rfl, rfl, rfl⟩ | with_reducible exact Or.inr ⟨rfl, rfl, rfl, rfl, rfl⟩ | (refine ⟨?_, ?_⟩ <;> first | (apply Or.inl; apply Piece.mem_of; rfl) | exact Or.inl (by simp; done) | with_reducible exact Or.inr rfl)) | skip)
    | with_reducible apply Block.setCharter_keeps
    | with_reducible apply Block.orReg_keeps
    | with_reducible apply Block.modCharter_keeps
    | with_reducible apply Block.event_keeps
    | with_reducible apply Block.withdraw_keeps
    | with_reducible apply Kept.ite
    | split

theorem Block.charterWithdraw_keeps {qs : List Piece} {a₀ b : Block} {id : Nat} (inside : Within [.berths, .chans, .chs, .count Off.qyCplDiscardLo, .events, .ins, .qy, .reg Off.chAlarm, .reg Off.lgAlarm, .stk] qs) (before : Kept qs a₀ b) :
    Kept qs a₀ (Block.charterWithdraw b id) := Kept.step (Block.charterWithdraw_kept _ _) inside before

theorem Block.fillHoldTimeout_kept (b : Block) (id : Nat) : Kept [.berths, .chans, .chs, .count Off.qyCplDiscardLo, .events, .ins, .qy, .reg Off.lgAlarm, .stk] b (Block.fillHoldTimeout b id) := by
  unfold Block.fillHoldTimeout
  repeat' first
    | with_reducible assumption
    | with_reducible apply Kept.refl
    | with_reducible apply Within.refl
    | ((with_reducible apply Within.of); rfl)
    | ((with_reducible apply Within.cons); (apply Piece.inside_of; rfl))
    | ((with_reducible apply Within.cons); apply Or.inr)
    | with_reducible apply Within.nil
    | with_reducible apply List.mem_cons_self
    | with_reducible apply List.mem_cons_of_mem
    | (simp only [Kept.by_fields]; with_reducible apply Kept.fields <;>
         first | with_reducible exact Or.inl rfl | (apply Or.inr; apply Piece.mem_of; rfl) | exact Or.inr (by simp; done) | (refine Or.inr ⟨?_, ?_⟩ <;> first | (apply Or.inl; apply Piece.mem_of; rfl) | exact Or.inl (by simp; done) | with_reducible exact Or.inr rfl | with_reducible exact Or.inr ⟨rfl, rfl, rfl, rfl⟩ | with_reducible exact Or.inr ⟨rfl, rfl, rfl, rfl, rfl⟩ | (refine ⟨?_, ?_⟩ <;> first | (apply Or.inl; apply Piece.mem_of; rfl) | exact Or.inl (by simp; done) | with_reducible exact Or.inr rfl)) | skip)
    | with_reducible apply Block.endReq_keeps
    | with_reducible apply Kept.ite
    | split

theorem Block.fillHoldTimeout_keeps {qs : List Piece} {a₀ b : Block} {id : Nat} (inside : Within [.berths, .chans, .chs, .count Off.qyCplDiscardLo, .events, .ins, .qy, .reg Off.lgAlarm, .stk] qs) (before : Kept qs a₀ b) :
    Kept qs a₀ (Block.fillHoldTimeout b id) := Kept.step (Block.fillHoldTimeout_kept _ _) inside before

theorem Block.releaseHeld_kept (b : Block) : Kept [.chans, .qy, .regs, .tl] b (Block.releaseHeld b) := by
  unfold Block.releaseHeld
  repeat' first
    | with_reducible assumption
    | with_reducible apply Kept.refl
    | with_reducible apply Within.refl
    | ((with_reducible apply Within.of); rfl)
    | ((with_reducible apply Within.cons); (apply Piece.inside_of; rfl))
    | ((with_reducible apply Within.cons); apply Or.inr)
    | with_reducible apply Within.nil
    | with_reducible apply List.mem_cons_self
    | with_reducible apply List.mem_cons_of_mem
    | (extract_lets +onlyGivenNames x
       first
       | (guard_hyp x : Block := _
          refine Kept.cut (ps := [.chans, .qy, .regs, .tl]) (b := b) (x := x) ?_ fun hx => ?_
          on_goal 1 => subst x
          on_goal 2 => try clear_value x)
       | clear_value x
       | skip)
    | (with_reducible apply Kept.foldl; intro _ _ _)
    | (with_reducible apply Kept.foldl_fst_of; (case eq => assumption); intro _ _ _)
    | (with_reducible apply Kept.foldl_fst; intro _ _ _)
    | with_reducible apply Block.queuePart_keeps
    | dsimp -zeta only
    | with_reducible apply Kept.ite
    | split

theorem Block.releaseHeld_keeps {qs : List Piece} {a₀ b : Block} (inside : Within [.chans, .qy, .regs, .tl] qs) (before : Kept qs a₀ b) :
    Kept qs a₀ (Block.releaseHeld b) := Kept.step (Block.releaseHeld_kept _) inside before

theorem Block.moveLeft_kept (b : Block) (out : Side) : Kept [.count (fwOff Off.fwDropLo (otherSide out)), .count Off.qyCplDiscardLo, .events, .fw (otherSide out), .ins, .lanes, .qy, .regs, .sides, .tl] b (Block.moveLeft b out) := by
  unfold Block.moveLeft
  repeat' first
    | with_reducible assumption
    | with_reducible apply Kept.refl
    | with_reducible apply Within.refl
    | ((with_reducible apply Within.of); rfl)
    | ((with_reducible apply Within.cons); (apply Piece.inside_of; rfl))
    | ((with_reducible apply Within.cons); apply Or.inr)
    | with_reducible apply Within.nil
    | with_reducible apply List.mem_cons_self
    | with_reducible apply List.mem_cons_of_mem
    | with_reducible apply Block.modSide_keeps
    | with_reducible apply Block.purgeSide_keeps
    | with_reducible apply Block.moveNow_keeps
    | with_reducible apply Kept.ite
    | split

theorem Block.moveLeft_keeps {qs : List Piece} {a₀ b : Block} {out : Side} (inside : Within [.count (fwOff Off.fwDropLo (otherSide out)), .count Off.qyCplDiscardLo, .events, .fw (otherSide out), .ins, .lanes, .qy, .regs, .sides, .tl] qs) (before : Kept qs a₀ b) :
    Kept qs a₀ (Block.moveLeft b out) := Kept.step (Block.moveLeft_kept _ _) inside before

theorem Block.ctlLeft_kept (b : Block) (out : Side) (k : CtlDue) : Kept [.count (fwOff Off.fwDropLo (otherSide out)), .count Off.qyCplDiscardLo, .events, .fw (otherSide out), .ins, .lanes, .qy, .regs, .sides, .tl] b (Block.ctlLeft b out k) := by
  unfold Block.ctlLeft
  repeat' first
    | with_reducible assumption
    | with_reducible apply Kept.refl
    | with_reducible apply Within.refl
    | ((with_reducible apply Within.of); rfl)
    | ((with_reducible apply Within.cons); (apply Piece.inside_of; rfl))
    | ((with_reducible apply Within.cons); apply Or.inr)
    | with_reducible apply Within.nil
    | with_reducible apply List.mem_cons_self
    | with_reducible apply List.mem_cons_of_mem
    | (extract_lets +onlyGivenNames x
       first
       | (guard_hyp x : Block := _
          refine Kept.cut (ps := [.count (fwOff Off.fwDropLo (otherSide out)), .count Off.qyCplDiscardLo, .events, .fw (otherSide out), .ins, .lanes, .qy, .regs, .sides, .tl]) (b := b) (x := x) ?_ fun hx => ?_
          on_goal 1 => subst x
          on_goal 2 => try clear_value x)
       | clear_value x
       | skip)
    | with_reducible apply Block.moveLeft_keeps
    | with_reducible apply Block.tally_keeps
    | with_reducible apply Block.muteDone_keeps
    | with_reducible apply Kept.ite
    | split

theorem Block.ctlLeft_keeps {qs : List Piece} {a₀ b : Block} {out : Side} {k : CtlDue} (inside : Within [.count (fwOff Off.fwDropLo (otherSide out)), .count Off.qyCplDiscardLo, .events, .fw (otherSide out), .ins, .lanes, .qy, .regs, .sides, .tl] qs) (before : Kept qs a₀ b) :
    Kept qs a₀ (Block.ctlLeft b out k) := Kept.step (Block.ctlLeft_kept _ _ _) inside before

theorem Block.putFlit_kept (b : Block) (out : Side) (k : CtlDue) (f : Flit) (t : TxItem) : Kept [.count (fwOff Off.fwDropLo (otherSide out)), .count Off.qyCplDiscardLo, .events, .fw (otherSide out), .ins, .lanes, .qy, .regs, .sides, .tl] b (Block.putFlit b out k f t) := by
  unfold Block.putFlit
  repeat' first
    | with_reducible assumption
    | with_reducible apply Kept.refl
    | with_reducible apply Within.refl
    | ((with_reducible apply Within.of); rfl)
    | ((with_reducible apply Within.cons); (apply Piece.inside_of; rfl))
    | ((with_reducible apply Within.cons); apply Or.inr)
    | with_reducible apply Within.nil
    | with_reducible apply List.mem_cons_self
    | with_reducible apply List.mem_cons_of_mem
    | (extract_lets +onlyGivenNames x
       first
       | (guard_hyp x : Block := _
          refine Kept.cut (ps := [.count (fwOff Off.fwDropLo (otherSide out)), .count Off.qyCplDiscardLo, .events, .fw (otherSide out), .ins, .lanes, .qy, .regs, .sides, .tl]) (b := b) (x := x) ?_ fun hx => ?_
          on_goal 1 => subst x
          on_goal 2 => try clear_value x)
       | clear_value x
       | skip)
    | with_reducible apply Block.countBlocks_keeps
    | with_reducible apply Block.modSide_keeps
    | with_reducible apply Block.ctlLeft_keeps
    | with_reducible apply Kept.ite
    | split

theorem Block.putFlit_keeps {qs : List Piece} {a₀ b : Block} {out : Side} {k : CtlDue} {f : Flit} {t : TxItem} (inside : Within [.count (fwOff Off.fwDropLo (otherSide out)), .count Off.qyCplDiscardLo, .events, .fw (otherSide out), .ins, .lanes, .qy, .regs, .sides, .tl] qs) (before : Kept qs a₀ b) :
    Kept qs a₀ (Block.putFlit b out k f t) := Kept.step (Block.putFlit_kept _ _ _ _ _) inside before

theorem Block.putCtl_kept (b : Block) (out : Side) (k : CtlDue) : Kept [.count (fwOff Off.fwDropLo (otherSide out)), .count Off.qyCplDiscardLo, .events, .fw (otherSide out), .ins, .lanes, .qy, .regs, .sides, .tl] b (Block.putCtl b out k) := by
  unfold Block.putCtl
  repeat' first
    | with_reducible assumption
    | with_reducible apply Kept.refl
    | with_reducible apply Within.refl
    | ((with_reducible apply Within.of); rfl)
    | ((with_reducible apply Within.cons); (apply Piece.inside_of; rfl))
    | ((with_reducible apply Within.cons); apply Or.inr)
    | with_reducible apply Within.nil
    | with_reducible apply List.mem_cons_self
    | with_reducible apply List.mem_cons_of_mem
    | (extract_lets +onlyGivenNames x
       first
       | (guard_hyp x : Block := _
          refine Kept.cut (ps := [.count (fwOff Off.fwDropLo (otherSide out)), .count Off.qyCplDiscardLo, .events, .fw (otherSide out), .ins, .lanes, .qy, .regs, .sides, .tl]) (b := b) (x := x) ?_ fun hx => ?_
          on_goal 1 => subst x
          on_goal 2 => try clear_value x)
       | clear_value x
       | skip)
    | with_reducible apply Block.modSide_keeps
    | with_reducible apply Block.ctlLeft_keeps
    | with_reducible apply Kept.ite
    | split

theorem Block.putCtl_keeps {qs : List Piece} {a₀ b : Block} {out : Side} {k : CtlDue} (inside : Within [.count (fwOff Off.fwDropLo (otherSide out)), .count Off.qyCplDiscardLo, .events, .fw (otherSide out), .ins, .lanes, .qy, .regs, .sides, .tl] qs) (before : Kept qs a₀ b) :
    Kept qs a₀ (Block.putCtl b out k) := Kept.step (Block.putCtl_kept _ _ _) inside before

theorem Block.flitSend_kept (b : Block) (out : Side) : Kept [.cnt, .events, .fws, .ins, .lanes, .qy, .regs, .sides, .tl] b (Block.flitSend b out) := by
  unfold Block.flitSend
  repeat' first
    | with_reducible assumption
    | with_reducible apply Kept.refl
    | with_reducible apply Within.refl
    | ((with_reducible apply Within.of); rfl)
    | ((with_reducible apply Within.cons); (apply Piece.inside_of; rfl))
    | ((with_reducible apply Within.cons); apply Or.inr)
    | with_reducible apply Within.nil
    | with_reducible apply List.mem_cons_self
    | with_reducible apply List.mem_cons_of_mem
    | (extract_lets +onlyGivenNames x
       first
       | (guard_hyp x : Block := _
          refine Kept.cut (ps := [.cnt, .events, .fws, .ins, .lanes, .qy, .regs, .sides, .tl]) (b := b) (x := x) ?_ fun hx => ?_
          on_goal 1 => subst x
          on_goal 2 => try clear_value x)
       | clear_value x
       | skip)
    | with_reducible apply Block.tryAsk_keeps
    | with_reducible apply Block.putCtl_keeps
    | with_reducible apply Block.modFw_keeps
    | with_reducible apply Block.tally_keeps
    | with_reducible apply Block.bump_keeps
    | with_reducible apply Block.modSide_keeps
    | with_reducible apply Block.putFlit_keeps
    | (with_reducible apply Block.offerSlot_of; (case eq => assumption))
    | with_reducible apply Block.offerSlot_keeps
    | with_reducible apply Block.noteSlot_keeps
    | dsimp -zeta only
    | with_reducible apply Kept.ite
    | split

theorem Block.flitSend_keeps {qs : List Piece} {a₀ b : Block} {out : Side} (inside : Within [.cnt, .events, .fws, .ins, .lanes, .qy, .regs, .sides, .tl] qs) (before : Kept qs a₀ b) :
    Kept qs a₀ (Block.flitSend b out) := Kept.step (Block.flitSend_kept _ _) inside before

theorem Block.checkPhase_kept (b : Block) (sd : Side) (own : Nat) (sent : Nat) (between : List Flit) : Kept [.berths, .cnt, .events, .fws, .ins, .lanes, .prot, .qy, .regs, .sides, .tl] b (Block.checkPhase b sd own sent between) := by
  unfold Block.checkPhase
  repeat' first
    | with_reducible assumption
    | with_reducible apply Kept.refl
    | with_reducible apply Within.refl
    | ((with_reducible apply Within.of); rfl)
    | ((with_reducible apply Within.cons); (apply Piece.inside_of; rfl))
    | ((with_reducible apply Within.cons); apply Or.inr)
    | with_reducible apply Within.nil
    | with_reducible apply List.mem_cons_self
    | with_reducible apply List.mem_cons_of_mem
    | (extract_lets +onlyGivenNames x
       first
       | (guard_hyp x : Block := _
          refine Kept.cut (ps := [.berths, .cnt, .events, .fws, .ins, .lanes, .prot, .qy, .regs, .sides, .tl]) (b := b) (x := x) ?_ fun hx => ?_
          on_goal 1 => subst x
          on_goal 2 => try clear_value x)
       | clear_value x
       | skip)
    | (with_reducible apply Kept.foldl; intro _ _ _)
    | with_reducible apply Block.modSide_keeps
    | with_reducible apply Block.handBad_keeps
    | with_reducible apply Block.retrainSide_keeps
    | with_reducible apply Kept.ite
    | split

theorem Block.checkPhase_keeps {qs : List Piece} {a₀ b : Block} {sd : Side} {own : Nat} {sent : Nat} {between : List Flit} (inside : Within [.berths, .cnt, .events, .fws, .ins, .lanes, .prot, .qy, .regs, .sides, .tl] qs) (before : Kept qs a₀ b) :
    Kept qs a₀ (Block.checkPhase b sd own sent between) := Kept.step (Block.checkPhase_kept _ _ _ _ _) inside before

theorem Block.rowMsg_kept (b : Block) (sd : Side) (body : List Byte) : Kept [.chs, .count (fwOff Off.fwDropLo (otherSide sd)), .count Off.qyCplDiscardLo, .events, .fw (otherSide sd), .ins, .lanes, .qy, .regs, .sides, .tl] b (Block.rowMsg b sd body) := by
  unfold Block.rowMsg
  repeat' first
    | with_reducible assumption
    | with_reducible apply Kept.refl
    | with_reducible apply Within.refl
    | ((with_reducible apply Within.of); rfl)
    | ((with_reducible apply Within.cons); (apply Piece.inside_of; rfl))
    | ((with_reducible apply Within.cons); apply Or.inr)
    | with_reducible apply Within.nil
    | with_reducible apply List.mem_cons_self
    | with_reducible apply List.mem_cons_of_mem
    | with_reducible apply Block.takeCap_keeps
    | with_reducible apply Block.takeCommit_keeps
    | with_reducible apply Block.takeReform_keeps
    | with_reducible apply Block.takeMove_keeps
    | with_reducible apply Block.takeWindow_keeps
    | with_reducible apply Kept.ite
    | split

theorem Block.rowMsg_keeps {qs : List Piece} {a₀ b : Block} {sd : Side} {body : List Byte} (inside : Within [.chs, .count (fwOff Off.fwDropLo (otherSide sd)), .count Off.qyCplDiscardLo, .events, .fw (otherSide sd), .ins, .lanes, .qy, .regs, .sides, .tl] qs) (before : Kept qs a₀ b) :
    Kept qs a₀ (Block.rowMsg b sd body) := Kept.step (Block.rowMsg_kept _ _ _) inside before

theorem Block.fillRow_kept (b : Block) (sd : Side) (rows : Nat) (blks : List (Fin 16 × List Byte)) (slot : List SlotObs) (between : List Flit) : Kept [.berths, .chs, .cnt, .events, .fws, .ins, .lanes, .prot, .qy, .regs, .running, .sides, .slots, .sv, .tl] b (Block.fillRow b sd rows blks slot between) := by
  unfold Block.fillRow
  repeat' first
    | with_reducible assumption
    | with_reducible apply Kept.refl
    | with_reducible apply Within.refl
    | ((with_reducible apply Within.of); rfl)
    | ((with_reducible apply Within.cons); (apply Piece.inside_of; rfl))
    | ((with_reducible apply Within.cons); apply Or.inr)
    | with_reducible apply Within.nil
    | with_reducible apply List.mem_cons_self
    | with_reducible apply List.mem_cons_of_mem
    | (extract_lets +onlyGivenNames x
       first
       | (guard_hyp x : Block := _
          refine Kept.cut (ps := [.berths, .chs, .cnt, .events, .fws, .ins, .lanes, .prot, .qy, .regs, .running, .sides, .slots, .sv, .tl]) (b := b) (x := x) ?_ fun hx => ?_
          on_goal 1 => subst x
          on_goal 2 => try clear_value x)
       | clear_value x
       | skip)
    | (with_reducible apply Kept.each; intro _ _ _)
    | with_reducible apply Block.quietSlot_keeps
    | with_reducible apply Block.modSide_keeps
    | with_reducible apply Block.loseLock_keeps
    | with_reducible apply Block.tally_keeps
    | with_reducible apply Block.rowMsg_keeps
    | with_reducible apply Block.checkPhase_keeps
    | with_reducible apply Kept.ite
    | split

theorem Block.fillRow_keeps {qs : List Piece} {a₀ b : Block} {sd : Side} {rows : Nat} {blks : List (Fin 16 × List Byte)} {slot : List SlotObs} {between : List Flit} (inside : Within [.berths, .chs, .cnt, .events, .fws, .ins, .lanes, .prot, .qy, .regs, .running, .sides, .slots, .sv, .tl] qs) (before : Kept qs a₀ b) :
    Kept qs a₀ (Block.fillRow b sd rows blks slot between) := Kept.step (Block.fillRow_kept _ _ _ _ _ _) inside before

theorem Block.reformDone_kept (b : Block) (sd : Side) (m : BitVec 16) : Kept [.chs, .cnt, .events, .fws, .ins, .lanes, .mf, .pw, .qy, .regs, .running, .sides, .slots, .sv, .tl] b (Block.reformDone b sd m) := by
  unfold Block.reformDone
  repeat' first
    | with_reducible assumption
    | with_reducible apply Kept.refl
    | with_reducible apply Within.refl
    | ((with_reducible apply Within.of); rfl)
    | ((with_reducible apply Within.cons); (apply Piece.inside_of; rfl))
    | ((with_reducible apply Within.cons); apply Or.inr)
    | with_reducible apply Within.nil
    | with_reducible apply List.mem_cons_self
    | with_reducible apply List.mem_cons_of_mem
    | (extract_lets +onlyGivenNames x
       first
       | (guard_hyp x : Block := _
          refine Kept.cut (ps := [.chs, .cnt, .events, .fws, .ins, .lanes, .mf, .pw, .qy, .regs, .running, .sides, .slots, .sv, .tl]) (b := b) (x := x) ?_ fun hx => ?_
          on_goal 1 => subst x
          on_goal 2 => try clear_value x)
       | clear_value x
       | skip)
    | (with_reducible apply Kept.each; intro _ _ _)
    | with_reducible apply Block.endWindow_keeps
    | with_reducible apply Block.laneRun_keeps
    | with_reducible apply Block.modLane_keeps
    | with_reducible apply Block.startHunt_keeps
    | with_reducible apply Block.purgeSide_keeps
    | with_reducible apply Block.warmSide_keeps
    | with_reducible apply Block.modSide_keeps
    | with_reducible apply Block.noteQuay_keeps
    | with_reducible apply Block.checkOpen_keeps
    | with_reducible apply Block.wakeWaiter_keeps
    | with_reducible apply Block.resizeSide_keeps
    | with_reducible apply Kept.ite
    | split

theorem Block.reformDone_keeps {qs : List Piece} {a₀ b : Block} {sd : Side} {m : BitVec 16} (inside : Within [.chs, .cnt, .events, .fws, .ins, .lanes, .mf, .pw, .qy, .regs, .running, .sides, .slots, .sv, .tl] qs) (before : Kept qs a₀ b) :
    Kept qs a₀ (Block.reformDone b sd m) := Kept.step (Block.reformDone_kept _ _ _) inside before

theorem Block.handCut_kept (b : Block) (sd : Side) (own : Bool) (cut : Option (Flit × List (Fin 9))) : Kept [.berths, .cnt, .events, .fws, .ins, .prot, .qy, .regs, .sides, .tl] b (Block.handCut b sd own cut) := by
  unfold Block.handCut
  repeat' first
    | with_reducible assumption
    | with_reducible apply Kept.refl
    | with_reducible apply Within.refl
    | ((with_reducible apply Within.of); rfl)
    | ((with_reducible apply Within.cons); (apply Piece.inside_of; rfl))
    | ((with_reducible apply Within.cons); apply Or.inr)
    | with_reducible apply Within.nil
    | with_reducible apply List.mem_cons_self
    | with_reducible apply List.mem_cons_of_mem
    | with_reducible apply Block.handBad_keeps
    | with_reducible apply Kept.ite
    | split

theorem Block.handCut_keeps {qs : List Piece} {a₀ b : Block} {sd : Side} {own : Bool} {cut : Option (Flit × List (Fin 9))} (inside : Within [.berths, .cnt, .events, .fws, .ins, .prot, .qy, .regs, .sides, .tl] qs) (before : Kept qs a₀ b) :
    Kept qs a₀ (Block.handCut b sd own cut) := Kept.step (Block.handCut_kept _ _ _ _) inside before

theorem Block.reformSwitch_kept (b : Block) (sd : Side) (own : Bool) (cut : Option (Flit × List (Fin 9))) : Kept [.berths, .chs, .cnt, .events, .fws, .ins, .lanes, .mf, .prot, .pw, .qy, .regs, .running, .sides, .slots, .sv, .tl] b (Block.reformSwitch b sd own cut) := by
  unfold Block.reformSwitch
  repeat' first
    | with_reducible assumption
    | with_reducible apply Kept.refl
    | with_reducible apply Within.refl
    | ((with_reducible apply Within.of); rfl)
    | ((with_reducible apply Within.cons); (apply Piece.inside_of; rfl))
    | ((with_reducible apply Within.cons); apply Or.inr)
    | with_reducible apply Within.nil
    | with_reducible apply List.mem_cons_self
    | with_reducible apply List.mem_cons_of_mem
    | (extract_lets +onlyGivenNames x
       first
       | (guard_hyp x : Block := _
          refine Kept.cut (ps := [.berths, .chs, .cnt, .events, .fws, .ins, .lanes, .mf, .prot, .pw, .qy, .regs, .running, .sides, .slots, .sv, .tl]) (b := b) (x := x) ?_ fun hx => ?_
          on_goal 1 => subst x
          on_goal 2 => try clear_value x)
       | clear_value x
       | skip)
    | with_reducible apply Block.handCut_keeps
    | with_reducible apply Block.modSide_keeps
    | with_reducible apply Block.reformDone_keeps
    | with_reducible apply Kept.ite
    | split

theorem Block.reformSwitch_keeps {qs : List Piece} {a₀ b : Block} {sd : Side} {own : Bool} {cut : Option (Flit × List (Fin 9))} (inside : Within [.berths, .chs, .cnt, .events, .fws, .ins, .lanes, .mf, .prot, .pw, .qy, .regs, .running, .sides, .slots, .sv, .tl] qs) (before : Kept qs a₀ b) :
    Kept qs a₀ (Block.reformSwitch b sd own cut) := Kept.step (Block.reformSwitch_kept _ _ _ _) inside before

end Sys2Proof.Machine
end

