-- ==== Sys2Proof/Laws/FramesCore.lean ====
section
/-! SUPPORT. The frames of channels, the stack, clocks and heat: for each operation what it can change at most (`_kept`), and the same as a step of a
longer frame (`_keeps`). -/

namespace Sys2Proof.Machine

open Sys2Proof
set_option linter.all false
set_option Elab.async false

theorem Block.measured_kept (b : Block) (flight : List (Nat × Nat)) : Kept [.cols] b (Block.measured b flight) := by
  unfold Block.measured
  repeat' first
    | with_reducible assumption
    | with_reducible apply Kept.refl
    | with_reducible apply Within.refl
    | ((with_reducible apply Within.of); rfl)
    | ((with_reducible apply Within.cons); (apply Piece.inside_of; rfl))
    | ((with_reducible apply Within.cons); apply Or.inr)
    | with_reducible apply Within.nil
    | with_reducible apply List.mem_cons_self
    | with_reducible apply List.mem_cons_of_mem
    | (with_reducible apply Kept.foldl; intro _ _ _)
    | with_reducible apply Block.modCol_keeps
    | with_reducible apply Kept.ite
    | split

theorem Block.measured_keeps {qs : List Piece} {a₀ b : Block} {flight : List (Nat × Nat)} (inside : Within [.cols] qs) (before : Kept qs a₀ b) :
    Kept qs a₀ (Block.measured b flight) := Kept.step (Block.measured_kept _ _) inside before

theorem Block.fenceReq_kept (b : Block) (age : Nat) (n : Nat) (id : Nat) : Kept [.berths, .chans, .chs, .cnt, .events, .ins, .qy, .regs, .stk, .tl] b (Block.fenceReq b age n id) := by
  unfold Block.fenceReq
  repeat' first
    | with_reducible assumption
    | with_reducible apply Kept.refl
    | with_reducible apply Within.refl
    | ((with_reducible apply Within.of); rfl)
    | ((with_reducible apply Within.cons); (apply Piece.inside_of; rfl))
    | ((with_reducible apply Within.cons); apply Or.inr)
    | with_reducible apply Within.nil
    | with_reducible apply List.mem_cons_self
    | with_reducible apply List.mem_cons_of_mem
    | (extract_lets +onlyGivenNames x
       first
       | (guard_hyp x : Block := _
          refine Kept.cut (ps := [.berths, .chans, .chs, .cnt, .events, .ins, .qy, .regs, .stk, .tl]) (b := b) (x := x) ?_ fun hx => ?_
          on_goal 1 => subst x
          on_goal 2 => try clear_value x)
       | clear_value x
       | skip)
    | (with_reducible apply Kept.foldl; intro _ _ _)
    | with_reducible apply Block.modBerth_keeps
    | with_reducible apply Block.modReq_keeps
    | with_reducible apply Block.checkReq_keeps
    | with_reducible apply Block.endReq_keeps
    | with_reducible apply Kept.ite
    | split

theorem Block.fenceReq_keeps {qs : List Piece} {a₀ b : Block} {age : Nat} {n : Nat} {id : Nat} (inside : Within [.berths, .chans, .chs, .cnt, .events, .ins, .qy, .regs, .stk, .tl] qs) (before : Kept qs a₀ b) :
    Kept qs a₀ (Block.fenceReq b age n id) := Kept.step (Block.fenceReq_kept _ _ _ _) inside before

theorem Block.enterFenced_kept (b : Block) (n : Nat) : Kept [.berth n, .reg (btOff Off.btAlarm n)] b (Block.enterFenced b n) := by
  unfold Block.enterFenced
  repeat' first
    | with_reducible assumption
    | with_reducible apply Kept.refl
    | with_reducible apply Within.refl
    | ((with_reducible apply Within.of); rfl)
    | ((with_reducible apply Within.cons); (apply Piece.inside_of; rfl))
    | ((with_reducible apply Within.cons); apply Or.inr)
    | with_reducible apply Within.nil
    | with_reducible apply List.mem_cons_self
    | with_reducible apply List.mem_cons_of_mem
    | with_reducible apply Block.orReg_keeps
    | with_reducible apply Block.modBerth_keeps
    | with_reducible apply Kept.ite
    | split

theorem Block.enterFenced_keeps {qs : List Piece} {a₀ b : Block} {n : Nat} (inside : Within [.berth n, .reg (btOff Off.btAlarm n)] qs) (before : Kept qs a₀ b) :
    Kept qs a₀ (Block.enterFenced b n) := Kept.step (Block.enterFenced_kept _ _) inside before

theorem Block.fenceChan_kept (b : Block) (age : Nat) (n : Nat) : Kept [.berths, .chans, .chs, .cnt, .events, .ins, .qy, .regs, .stk, .tl] b (Block.fenceChan b age n) := by
  unfold Block.fenceChan
  repeat' first
    | with_reducible assumption
    | with_reducible apply Kept.refl
    | with_reducible apply Within.refl
    | ((with_reducible apply Within.of); rfl)
    | ((with_reducible apply Within.cons); (apply Piece.inside_of; rfl))
    | ((with_reducible apply Within.cons); apply Or.inr)
    | with_reducible apply Within.nil
    | with_reducible apply List.mem_cons_self
    | with_reducible apply List.mem_cons_of_mem
    | (extract_lets +onlyGivenNames x
       first
       | (guard_hyp x : Block := _
          refine Kept.cut (ps := [.berths, .chans, .chs, .cnt, .events, .ins, .qy, .regs, .stk, .tl]) (b := b) (x := x) ?_ fun hx => ?_
          on_goal 1 => subst x
          on_goal 2 => try clear_value x)
       | clear_value x
       | skip)
    | (simp only [Kept.by_fields]; with_reducible apply Kept.fields <;>
         first | with_reducible exact Or.inl rfl | (apply Or.inr; apply Piece.mem_of; rfl) | exact Or.inr (by simp; done) | (refine Or.inr ⟨?_, ?_⟩ <;> first | (apply Or.inl; apply Piece.mem_of; rfl) | exact Or.inl (by simp; done) | with_reducible exact Or.inr rfl | with_reducible exact Or.inr ⟨rfl, rfl, rfl, rfl⟩ | with_reducible exact Or.inr ⟨rfl, rfl, rfl, rfl, rfl⟩ | (refine ⟨?_, ?_⟩ <;> first | (apply Or.inl; apply Piece.mem_of; rfl) | exact Or.inl (by simp; done) | with_reducible exact Or.inr rfl)) | skip)
    | (with_reducible apply Kept.each; intro _ _ _)
    | with_reducible apply Block.modChan_keeps
    | with_reducible apply Block.enterFenced_keeps
    | with_reducible apply Block.charterBerthLost_keeps
    | with_reducible apply Block.fenceReq_keeps
    | with_reducible apply Block.modBerth_keeps
    | with_reducible apply Kept.ite
    | split

theorem Block.fenceChan_keeps {qs : List Piece} {a₀ b : Block} {age : Nat} {n : Nat} (inside : Within [.berths, .chans, .chs, .cnt, .events, .ins, .qy, .regs, .stk, .tl] qs) (before : Kept qs a₀ b) :
    Kept qs a₀ (Block.fenceChan b age n) := Kept.step (Block.fenceChan_kept _ _ _) inside before

theorem Block.fenceAll_kept (b : Block) (age : Nat → Nat) (ns : List Nat) : Kept [.berths, .chans, .chs, .cnt, .events, .fws, .ins, .lanes, .mf, .pw, .qy, .regs, .sides, .stk, .tl] b (Block.fenceAll b age ns) := by
  unfold Block.fenceAll
  repeat' first
    | with_reducible assumption
    | with_reducible apply Kept.refl
    | with_reducible apply Within.refl
    | ((with_reducible apply Within.of); rfl)
    | ((with_reducible apply Within.cons); (apply Piece.inside_of; rfl))
    | ((with_reducible apply Within.cons); apply Or.inr)
    | with_reducible apply Within.nil
    | with_reducible apply List.mem_cons_self
    | with_reducible apply List.mem_cons_of_mem
    | (with_reducible apply Kept.each; intro _ _ _)
    | with_reducible apply Block.checkOpen_keeps
    | with_reducible apply Block.settle_keeps
    | with_reducible apply Block.fenceChan_keeps
    | with_reducible apply Kept.ite
    | split

theorem Block.fenceAll_keeps {qs : List Piece} {a₀ b : Block} {age : Nat → Nat} {ns : List Nat} (inside : Within [.berths, .chans, .chs, .cnt, .events, .fws, .ins, .lanes, .mf, .pw, .qy, .regs, .sides, .stk, .tl] qs) (before : Kept qs a₀ b) :
    Kept qs a₀ (Block.fenceAll b age ns) := Kept.step (Block.fenceAll_kept _ _ _) inside before

theorem Block.fenceRunning_kept (b : Block) (ns : List Nat) : Kept [.berths, .chans, .chs, .cnt, .events, .fws, .ins, .lanes, .mf, .pw, .qy, .regs, .sides, .stk, .tl] b (Block.fenceRunning b ns) := by
  unfold Block.fenceRunning
  repeat' first
    | with_reducible assumption
    | with_reducible apply Kept.refl
    | with_reducible apply Within.refl
    | ((with_reducible apply Within.of); rfl)
    | ((with_reducible apply Within.cons); (apply Piece.inside_of; rfl))
    | ((with_reducible apply Within.cons); apply Or.inr)
    | with_reducible apply Within.nil
    | with_reducible apply List.mem_cons_self
    | with_reducible apply List.mem_cons_of_mem
    | with_reducible apply Block.fenceAll_keeps
    | with_reducible apply Kept.ite
    | split

theorem Block.fenceRunning_keeps {qs : List Piece} {a₀ b : Block} {ns : List Nat} (inside : Within [.berths, .chans, .chs, .cnt, .events, .fws, .ins, .lanes, .mf, .pw, .qy, .regs, .sides, .stk, .tl] qs) (before : Kept qs a₀ b) :
    Kept qs a₀ (Block.fenceRunning b ns) := Kept.step (Block.fenceRunning_kept _ _) inside before

theorem Block.diagnose_kept (b : Block) (lost : Nat → Bool) (mon : Nat → Bool) (age : Nat → Nat) : Kept [.berths, .chans, .chs, .cnt, .events, .fws, .ins, .lanes, .mf, .pw, .qy, .regs, .sides, .stk, .tl] b (Block.diagnose b lost mon age) := by
  unfold Block.diagnose
  repeat' first
    | with_reducible assumption
    | with_reducible apply Kept.refl
    | with_reducible apply Within.refl
    | ((with_reducible apply Within.of); rfl)
    | ((with_reducible apply Within.cons); (apply Piece.inside_of; rfl))
    | ((with_reducible apply Within.cons); apply Or.inr)
    | with_reducible apply Within.nil
    | with_reducible apply List.mem_cons_self
    | with_reducible apply List.mem_cons_of_mem
    | (extract_lets +onlyGivenNames x
       first
       | (guard_hyp x : Block := _
          refine Kept.cut (ps := [.berths, .chans, .chs, .cnt, .events, .fws, .ins, .lanes, .mf, .pw, .qy, .regs, .sides, .stk, .tl]) (b := b) (x := x) ?_ fun hx => ?_
          on_goal 1 => subst x
          on_goal 2 => try clear_value x)
       | (have _t : _ → Block := x; clear _t; subst x; beta_reduce)
       | (have _t : _ → _ := x; clear _t; subst x; beta_reduce)
       | clear_value x
       | skip)
    | (simp only [Kept.by_fields]; with_reducible apply Kept.fields <;>
         first | with_reducible exact Or.inl rfl | (apply Or.inr; apply Piece.mem_of; rfl) | exact Or.inr (by simp; done) | (refine Or.inr ⟨?_, ?_⟩ <;> first | (apply Or.inl; apply Piece.mem_of; rfl) | exact Or.inl (by simp; done) | with_reducible exact Or.inr rfl | with_reducible exact Or.inr ⟨rfl, rfl, rfl, rfl⟩ | with_reducible exact Or.inr ⟨rfl, rfl, rfl, rfl, rfl⟩ | (refine ⟨?_, ?_⟩ <;> first | (apply Or.inl; apply Piece.mem_of; rfl) | exact Or.inl (by simp; done) | with_reducible exact Or.inr rfl)) | skip)
    | (with_reducible apply Kept.each; intro _ _ _)
    | with_reducible apply Block.fenceAll_keeps
    | with_reducible apply Block.event_keeps
    | with_reducible apply Block.orReg_keeps
    | with_reducible apply Kept.ite
    | split

theorem Block.diagnose_keeps {qs : List Piece} {a₀ b : Block} {lost : Nat → Bool} {mon : Nat → Bool} {age : Nat → Nat} (inside : Within [.berths, .chans, .chs, .cnt, .events, .fws, .ins, .lanes, .mf, .pw, .qy, .regs, .sides, .stk, .tl] qs) (before : Kept qs a₀ b) :
    Kept qs a₀ (Block.diagnose b lost mon age) := Kept.step (Block.diagnose_kept _ _ _ _) inside before

theorem Block.remapNow_kept (b : Block) (n : Nat) : Kept [.col n, .events, .reg Off.lgAlarm, .reg Off.stAlarm] b (Block.remapNow b n) := by
  unfold Block.remapNow
  repeat' first
    | with_reducible assumption
    | with_reducible apply Kept.refl
    | with_reducible apply Within.refl
    | ((with_reducible apply Within.of); rfl)
    | ((with_reducible apply Within.cons); (apply Piece.inside_of; rfl))
    | ((with_reducible apply Within.cons); apply Or.inr)
    | with_reducible apply Within.nil
    | with_reducible apply List.mem_cons_self
    | with_reducible apply List.mem_cons_of_mem
    | (extract_lets +onlyGivenNames x
       first
       | (guard_hyp x : Block := _
          refine Kept.cut (ps := [.col n, .events, .reg Off.lgAlarm, .reg Off.stAlarm]) (b := b) (x := x) ?_ fun hx => ?_
          on_goal 1 => subst x
          on_goal 2 => try clear_value x)
       | clear_value x
       | skip)
    | (with_reducible apply Kept.foldl; intro _ _ _)
    | with_reducible apply Block.modCol_keeps
    | with_reducible apply Block.event_keeps
    | with_reducible apply Block.orReg_keeps
    | with_reducible apply Kept.ite
    | split

theorem Block.remapNow_keeps {qs : List Piece} {a₀ b : Block} {n : Nat} (inside : Within [.col n, .events, .reg Off.lgAlarm, .reg Off.stAlarm] qs) (before : Kept qs a₀ b) :
    Kept qs a₀ (Block.remapNow b n) := Kept.step (Block.remapNow_kept _ _) inside before

theorem Block.caTest_kept (b : Block) (n : Nat) (faulty : Option (Fin 13)) : Kept [.berths, .chans, .chs, .cnt, .col n, .events, .fws, .ins, .lanes, .mf, .pw, .qy, .regs, .sides, .stk, .tl] b (Block.caTest b n faulty) := by
  unfold Block.caTest
  repeat' first
    | with_reducible assumption
    | with_reducible apply Kept.refl
    | with_reducible apply Within.refl
    | ((with_reducible apply Within.of); rfl)
    | ((with_reducible apply Within.cons); (apply Piece.inside_of; rfl))
    | ((with_reducible apply Within.cons); apply Or.inr)
    | with_reducible apply Within.nil
    | with_reducible apply List.mem_cons_self
    | with_reducible apply List.mem_cons_of_mem
    | (extract_lets +onlyGivenNames x
       first
       | (guard_hyp x : Block := _
          refine Kept.cut (ps := [.berths, .chans, .chs, .cnt, .col n, .events, .fws, .ins, .lanes, .mf, .pw, .qy, .regs, .sides, .stk, .tl]) (b := b) (x := x) ?_ fun hx => ?_
          on_goal 1 => subst x
          on_goal 2 => try clear_value x)
       | clear_value x
       | skip)
    | with_reducible apply Block.modCol_keeps
    | with_reducible apply Block.orReg_keeps
    | with_reducible apply Block.fenceRunning_keeps
    | with_reducible apply Block.event_keeps
    | with_reducible apply Kept.ite
    | split

theorem Block.caTest_keeps {qs : List Piece} {a₀ b : Block} {n : Nat} {faulty : Option (Fin 13)} (inside : Within [.berths, .chans, .chs, .cnt, .col n, .events, .fws, .ins, .lanes, .mf, .pw, .qy, .regs, .sides, .stk, .tl] qs) (before : Kept qs a₀ b) :
    Kept qs a₀ (Block.caTest b n faulty) := Kept.step (Block.caTest_kept _ _ _) inside before

theorem Block.noteBg_kept (b : Block) (n : Nat) (k : ASrc) (slots : Nat) : Kept [.chan n] b (Block.noteBg b n k slots) := by
  unfold Block.noteBg
  repeat' first
    | with_reducible assumption
    | with_reducible apply Kept.refl
    | with_reducible apply Within.refl
    | ((with_reducible apply Within.of); rfl)
    | ((with_reducible apply Within.cons); (apply Piece.inside_of; rfl))
    | ((with_reducible apply Within.cons); apply Or.inr)
    | with_reducible apply Within.nil
    | with_reducible apply List.mem_cons_self
    | with_reducible apply List.mem_cons_of_mem
    | with_reducible apply Block.modChan_keeps
    | with_reducible apply Kept.ite
    | split

theorem Block.noteBg_keeps {qs : List Piece} {a₀ b : Block} {n : Nat} {k : ASrc} {slots : Nat} (inside : Within [.chan n] qs) (before : Kept qs a₀ b) :
    Kept qs a₀ (Block.noteBg b n k slots) := Kept.step (Block.noteBg_kept _ _ _ _) inside before

theorem Block.demoteRowless_kept (b : Block) (n : Nat) : Kept [.chs, .qy, .reg Off.chAlarm] b (Block.demoteRowless b n) := by
  unfold Block.demoteRowless
  repeat' first
    | with_reducible assumption
    | with_reducible apply Kept.refl
    | with_reducible apply Within.refl
    | ((with_reducible apply Within.of); rfl)
    | ((with_reducible apply Within.cons); (apply Piece.inside_of; rfl))
    | ((with_reducible apply Within.cons); apply Or.inr)
    | with_reducible apply Within.nil
    | with_reducible apply List.mem_cons_self
    | with_reducible apply List.mem_cons_of_mem
    | (extract_lets +onlyGivenNames x
       first
       | (guard_hyp x : Block := _
          refine Kept.cut (ps := [.chs, .qy, .reg Off.chAlarm]) (b := b) (x := x) ?_ fun hx => ?_
          on_goal 1 => subst x
          on_goal 2 => try clear_value x)
       | (guard_hyp x : Quay := _; subst x)
       | clear_value x
       | skip)
    | (simp only [Kept.by_fields]; with_reducible apply Kept.fields <;>
         first | with_reducible exact Or.inl rfl | (apply Or.inr; apply Piece.mem_of; rfl) | exact Or.inr (by simp; done) | (refine Or.inr ⟨?_, ?_⟩ <;> first | (apply Or.inl; apply Piece.mem_of; rfl) | exact Or.inl (by simp; done) | with_reducible exact Or.inr rfl | with_reducible exact Or.inr ⟨rfl, rfl, rfl, rfl⟩ | with_reducible exact Or.inr ⟨rfl, rfl, rfl, rfl, rfl⟩ | (refine ⟨?_, ?_⟩ <;> first | (apply Or.inl; apply Piece.mem_of; rfl) | exact Or.inl (by simp; done) | with_reducible exact Or.inr rfl)) | skip)
    | (with_reducible apply Kept.foldl; intro _ _ _)
    | with_reducible apply Block.modReq_keeps
    | with_reducible apply Block.modCharter_keeps
    | with_reducible apply Block.orReg_keeps
    | with_reducible apply Kept.ite
    | split

theorem Block.demoteRowless_keeps {qs : List Piece} {a₀ b : Block} {n : Nat} (inside : Within [.chs, .qy, .reg Off.chAlarm] qs) (before : Kept qs a₀ b) :
    Kept qs a₀ (Block.demoteRowless b n) := Kept.step (Block.demoteRowless_kept _ _) inside before

theorem Block.refabDone_kept (b : Block) (n : Nat) (level : Nat) (faulty : Option (Fin 13)) : Kept [.berths, .chans, .chs, .cnt, .col n, .events, .fws, .ins, .lanes, .mf, .pw, .qy, .regs, .sides, .stk, .tl] b (Block.refabDone b n level faulty) := by
  unfold Block.refabDone
  repeat' first
    | with_reducible assumption
    | with_reducible apply Kept.refl
    | with_reducible apply Within.refl
    | ((with_reducible apply Within.of); rfl)
    | ((with_reducible apply Within.cons); (apply Piece.inside_of; rfl))
    | ((with_reducible apply Within.cons); apply Or.inr)
    | with_reducible apply Within.nil
    | with_reducible apply List.mem_cons_self
    | with_reducible apply List.mem_cons_of_mem
    | (extract_lets +onlyGivenNames x
       first
       | (guard_hyp x : Block := _
          refine Kept.cut (ps := [.berths, .chans, .chs, .cnt, .col n, .events, .fws, .ins, .lanes, .mf, .pw, .qy, .regs, .sides, .stk, .tl]) (b := b) (x := x) ?_ fun hx => ?_
          on_goal 1 => subst x
          on_goal 2 => try clear_value x)
       | clear_value x
       | skip)
    | with_reducible apply Block.modChan_keeps
    | with_reducible apply Block.caTest_keeps
    | with_reducible apply Block.remapNow_keeps
    | with_reducible apply Block.tally_keeps
    | with_reducible apply Kept.ite
    | split

theorem Block.refabDone_keeps {qs : List Piece} {a₀ b : Block} {n : Nat} {level : Nat} {faulty : Option (Fin 13)} (inside : Within [.berths, .chans, .chs, .cnt, .col n, .events, .fws, .ins, .lanes, .mf, .pw, .qy, .regs, .sides, .stk, .tl] qs) (before : Kept qs a₀ b) :
    Kept qs a₀ (Block.refabDone b n level faulty) := Kept.step (Block.refabDone_kept _ _ _ _) inside before

theorem Block.spoil_kept (b : Block) (n : Nat) (id : Nat) (i : Nat) (g : Nat) : Kept [.events, .qy, .reg (btOff Off.btAlarm n), .reg Off.lgAlarm] b (Block.spoil b n id i g) := by
  unfold Block.spoil
  repeat' first
    | with_reducible assumption
    | with_reducible apply Kept.refl
    | with_reducible apply Within.refl
    | ((with_reducible apply Within.of); rfl)
    | ((with_reducible apply Within.cons); (apply Piece.inside_of; rfl))
    | ((with_reducible apply Within.cons); apply Or.inr)
    | with_reducible apply Within.nil
    | with_reducible apply List.mem_cons_self
    | with_reducible apply List.mem_cons_of_mem
    | (extract_lets +onlyGivenNames x
       first
       | (guard_hyp x : Block := _
          refine Kept.cut (ps := [.events, .qy, .reg (btOff Off.btAlarm n), .reg Off.lgAlarm]) (b := b) (x := x) ?_ fun hx => ?_
          on_goal 1 => subst x
          on_goal 2 => try clear_value x)
       | clear_value x
       | skip)
    | with_reducible apply Block.event_keeps
    | with_reducible apply Block.orReg_keeps
    | with_reducible apply Block.modReq_keeps
    | with_reducible apply Kept.ite
    | split

theorem Block.spoil_keeps {qs : List Piece} {a₀ b : Block} {n : Nat} {id : Nat} {i : Nat} {g : Nat} (inside : Within [.events, .qy, .reg (btOff Off.btAlarm n), .reg Off.lgAlarm] qs) (before : Kept qs a₀ b) :
    Kept qs a₀ (Block.spoil b n id i g) := Kept.step (Block.spoil_kept _ _ _ _ _) inside before

theorem Block.markRead_kept (b : Block) (g : Nat) : Kept [.slot (slotOf g)] b (Block.markRead b g) := by
  unfold Block.markRead
  repeat' first
    | with_reducible assumption
    | with_reducible apply Kept.refl
    | with_reducible apply Within.refl
    | ((with_reducible apply Within.of); rfl)
    | ((with_reducible apply Within.cons); (apply Piece.inside_of; rfl))
    | ((with_reducible apply Within.cons); apply Or.inr)
    | with_reducible apply Within.nil
    | with_reducible apply List.mem_cons_self
    | with_reducible apply List.mem_cons_of_mem
    | (extract_lets +onlyGivenNames x
       first
       | (guard_hyp x : Block := _
          refine Kept.cut (ps := [.slot (slotOf g)]) (b := b) (x := x) ?_ fun hx => ?_
          on_goal 1 => subst x
          on_goal 2 => try clear_value x)
       | clear_value x
       | skip)
    | with_reducible apply Block.setSlot_keeps
    | with_reducible apply Kept.ite
    | split

theorem Block.markRead_keeps {qs : List Piece} {a₀ b : Block} {g : Nat} (inside : Within [.slot (slotOf g)] qs) (before : Kept qs a₀ b) :
    Kept qs a₀ (Block.markRead b g) := Kept.step (Block.markRead_kept _ _) inside before

theorem Block.countCol_kept (b : Block) (n : Nat) (a : Access) (wasHit : Bool) : Kept [.cnt, .reg (tlOff Off.tlOvf n), .tl] b (Block.countCol b n a wasHit) := by
  unfold Block.countCol
  repeat' first
    | with_reducible assumption
    | with_reducible apply Kept.refl
    | with_reducible apply Within.refl
    | ((with_reducible apply Within.of); rfl)
    | ((with_reducible apply Within.cons); (apply Piece.inside_of; rfl))
    | ((with_reducible apply Within.cons); apply Or.inr)
    | with_reducible apply Within.nil
    | with_reducible apply List.mem_cons_self
    | with_reducible apply List.mem_cons_of_mem
    | (extract_lets +onlyGivenNames x
       first
       | (guard_hyp x : Block := _
          refine Kept.cut (ps := [.cnt, .reg (tlOff Off.tlOvf n), .tl]) (b := b) (x := x) ?_ fun hx => ?_
          on_goal 1 => subst x
          on_goal 2 => try clear_value x)
       | clear_value x
       | skip)
    | with_reducible apply Block.bump_keeps
    | with_reducible apply Block.tally_keeps
    | with_reducible apply Block.portBytes_keeps
    | with_reducible apply Kept.ite
    | split

theorem Block.countCol_keeps {qs : List Piece} {a₀ b : Block} {n : Nat} {a : Access} {wasHit : Bool} (inside : Within [.cnt, .reg (tlOff Off.tlOvf n), .tl] qs) (before : Kept qs a₀ b) :
    Kept qs a₀ (Block.countCol b n a wasHit) := Kept.step (Block.countCol_kept _ _ _ _) inside before

theorem scrubOne_kept (m : List Host.Cell) (b : Block) (sc : Scrub) (n : Nat) (g : Nat) (dmg : List Damage) : Kept [.berths, .col n, .count Off.prPoisonRdLo, .count Off.prPoisonWrLo, .count Off.prUeLo, .count Off.prZeroRdLo, .prot, .reg (tlOff Off.tlOvf n), .reg Off.prAlarm, .reg Off.prErrLost, .slots, .tl] b (scrubOne m b sc n g dmg).2 := by
  unfold scrubOne
  repeat' first
    | with_reducible assumption
    | with_reducible apply Kept.refl
    | with_reducible apply Within.refl
    | ((with_reducible apply Within.of); rfl)
    | ((with_reducible apply Within.cons); (apply Piece.inside_of; rfl))
    | ((with_reducible apply Within.cons); apply Or.inr)
    | with_reducible apply Within.nil
    | with_reducible apply List.mem_cons_self
    | with_reducible apply List.mem_cons_of_mem
    | (extract_lets +onlyGivenNames x
       first
       | (guard_hyp x : Block := _
          refine Kept.cut (ps := [.berths, .col n, .count Off.prPoisonRdLo, .count Off.prPoisonWrLo, .count Off.prUeLo, .count Off.prZeroRdLo, .prot, .reg (tlOff Off.tlOvf n), .reg Off.prAlarm, .reg Off.prErrLost, .slots, .tl]) (b := b) (x := x) ?_ fun hx => ?_
          on_goal 1 => subst x
          on_goal 2 => try clear_value x)
       | clear_value x
       | skip)
    | (simp only [Kept.by_fields]; with_reducible apply Kept.fields <;>
         first | with_reducible exact Or.inl rfl | (apply Or.inr; apply Piece.mem_of; rfl) | exact Or.inr (by simp; done) | (refine Or.inr ⟨?_, ?_⟩ <;> first | (apply Or.inl; apply Piece.mem_of; rfl) | exact Or.inl (by simp; done) | with_reducible exact Or.inr rfl | with_reducible exact Or.inr ⟨rfl, rfl, rfl, rfl⟩ | with_reducible exact Or.inr ⟨rfl, rfl, rfl, rfl, rfl⟩ | (refine ⟨?_, ?_⟩ <;> first | (apply Or.inl; apply Piece.mem_of; rfl) | exact Or.inl (by simp; done) | with_reducible exact Or.inr rfl)) | skip)
    | with_reducible apply Block.damageOwn_keeps
    | (with_reducible apply Block.noteScrub_of; (case eq => assumption))
    | with_reducible apply Block.noteScrub_keeps
    | with_reducible apply Block.noteStore_keeps
    | with_reducible apply Block.errRecord_keeps
    | with_reducible apply Block.scrubOwn_keeps
    | dsimp -zeta only
    | with_reducible apply Kept.ite
    | split

theorem scrubOne_keeps {qs : List Piece} {a₀ b : Block} {m : List Host.Cell} {sc : Scrub} {n : Nat} {g : Nat} {dmg : List Damage} (inside : Within [.berths, .col n, .count Off.prPoisonRdLo, .count Off.prPoisonWrLo, .count Off.prUeLo, .count Off.prZeroRdLo, .prot, .reg (tlOff Off.tlOvf n), .reg Off.prAlarm, .reg Off.prErrLost, .slots, .tl] qs) (before : Kept qs a₀ b) :
    Kept qs a₀ (scrubOne m b sc n g dmg).2 := Kept.step (scrubOne_kept m b sc n g dmg) inside before

theorem scrubOne_of {qs : List Piece} {a₀ b c₀ : Block} {m : List Host.Cell} {sc : Scrub} {n : Nat} {g : Nat} {dmg : List Damage} {y₀ : List Host.Cell} (eq : scrubOne m b sc n g dmg = (y₀, c₀)) (inside : Within [.berths, .col n, .count Off.prPoisonRdLo, .count Off.prPoisonWrLo, .count Off.prUeLo, .count Off.prZeroRdLo, .prot, .reg (tlOff Off.tlOvf n), .reg Off.prAlarm, .reg Off.prErrLost, .slots, .tl] qs)
    (before : Kept qs a₀ b) : Kept qs a₀ c₀ := by
  have h := Kept.step (scrubOne_kept m b sc n g dmg) inside before
  rw [eq] at h; exact h

theorem Block.dumpGranule_kept (b : Block) (g : Nat) : Kept [.berth (chanOf g), .prot, .tl] b (Block.dumpGranule b g) := by
  unfold Block.dumpGranule
  repeat' first
    | with_reducible assumption
    | with_reducible apply Kept.refl
    | with_reducible apply Within.refl
    | ((with_reducible apply Within.of); rfl)
    | ((with_reducible apply Within.cons); (apply Piece.inside_of; rfl))
    | ((with_reducible apply Within.cons); apply Or.inr)
    | with_reducible apply Within.nil
    | with_reducible apply List.mem_cons_self
    | with_reducible apply List.mem_cons_of_mem
    | (extract_lets +onlyGivenNames x
       first
       | (guard_hyp x : Block := _
          refine Kept.cut (ps := [.berth (chanOf g), .prot, .tl]) (b := b) (x := x) ?_ fun hx => ?_
          on_goal 1 => subst x
          on_goal 2 => try clear_value x)
       | clear_value x
       | skip)
    | (simp only [Kept.by_fields]; with_reducible apply Kept.fields <;>
         first | with_reducible exact Or.inl rfl | (apply Or.inr; apply Piece.mem_of; rfl) | exact Or.inr (by simp; done) | (refine Or.inr ⟨?_, ?_⟩ <;> first | (apply Or.inl; apply Piece.mem_of; rfl) | exact Or.inl (by simp; done) | with_reducible exact Or.inr rfl | with_reducible exact Or.inr ⟨rfl, rfl, rfl, rfl⟩ | with_reducible exact Or.inr ⟨rfl, rfl, rfl, rfl, rfl⟩ | (refine ⟨?_, ?_⟩ <;> first | (apply Or.inl; apply Piece.mem_of; rfl) | exact Or.inl (by simp; done) | with_reducible exact Or.inr rfl)) | skip)
    | with_reducible apply Block.wroteOwn_keeps
    | with_reducible apply Kept.ite
    | split

theorem Block.dumpGranule_keeps {qs : List Piece} {a₀ b : Block} {g : Nat} (inside : Within [.berth (chanOf g), .prot, .tl] qs) (before : Kept qs a₀ b) :
    Kept qs a₀ (Block.dumpGranule b g) := Kept.step (Block.dumpGranule_kept _ _) inside before

theorem runCol_kept (m : List Host.Cell) (b : Block) (n : Nat) (a : Access) (dmg : List Damage) (parityErr : Bool) : Kept [.berths, .chan n, .col n, .count Off.prPoisonRdLo, .count Off.prPoisonWrLo, .count Off.prUeLo, .count Off.prZeroRdLo, .events, .prot, .qy, .reg (btOff Off.btAlarm n), .reg (tlOff Off.tlOvf n), .reg Off.lgAlarm, .reg Off.prAlarm, .reg Off.prErrLost, .slots, .tl] b (runCol m b n a dmg parityErr).2 := by
  unfold runCol
  repeat' first
    | with_reducible assumption
    | with_reducible apply Kept.refl
    | with_reducible apply Within.refl
    | ((with_reducible apply Within.of); rfl)
    | ((with_reducible apply Within.cons); (apply Piece.inside_of; rfl))
    | ((with_reducible apply Within.cons); apply Or.inr)
    | with_reducible apply Within.nil
    | with_reducible apply List.mem_cons_self
    | with_reducible apply List.mem_cons_of_mem
    | (extract_lets +onlyGivenNames x
       first
       | (guard_hyp x : Block := _
          refine Kept.cut (ps := [.berths, .chan n, .col n, .count Off.prPoisonRdLo, .count Off.prPoisonWrLo, .count Off.prUeLo, .count Off.prZeroRdLo, .events, .prot, .qy, .reg (btOff Off.btAlarm n), .reg (tlOff Off.tlOvf n), .reg Off.lgAlarm, .reg Off.prAlarm, .reg Off.prErrLost, .slots, .tl]) (b := b) (x := x) ?_ fun hx => ?_
          on_goal 1 => subst x
          on_goal 2 => try clear_value x)
       | clear_value x
       | skip)
    | with_reducible apply Block.noteStore_keeps
    | with_reducible apply Block.spoil_keeps
    | with_reducible apply Block.modReq_keeps
    | with_reducible apply Block.markRead_keeps
    | with_reducible apply Block.modBerth_keeps
    | with_reducible apply Block.modChan_keeps
    | with_reducible apply Block.filledOwn_keeps
    | with_reducible apply Block.forget_keeps
    | with_reducible apply Block.noteBg_keeps
    | (with_reducible apply scrubOne_of; (case eq => assumption))
    | with_reducible apply scrubOne_keeps
    | with_reducible apply Block.dumpGranule_keeps
    | dsimp -zeta only
    | with_reducible apply Kept.ite
    | split

theorem runCol_keeps {qs : List Piece} {a₀ b : Block} {m : List Host.Cell} {n : Nat} {a : Access} {dmg : List Damage} {parityErr : Bool} (inside : Within [.berths, .chan n, .col n, .count Off.prPoisonRdLo, .count Off.prPoisonWrLo, .count Off.prUeLo, .count Off.prZeroRdLo, .events, .prot, .qy, .reg (btOff Off.btAlarm n), .reg (tlOff Off.tlOvf n), .reg Off.lgAlarm, .reg Off.prAlarm, .reg Off.prErrLost, .slots, .tl] qs) (before : Kept qs a₀ b) :
    Kept qs a₀ (runCol m b n a dmg parityErr).2 := Kept.step (runCol_kept m b n a dmg parityErr) inside before

theorem runCol_of {qs : List Piece} {a₀ b c₀ : Block} {m : List Host.Cell} {n : Nat} {a : Access} {dmg : List Damage} {parityErr : Bool} {y₀ : List Host.Cell} (eq : runCol m b n a dmg parityErr = (y₀, c₀)) (inside : Within [.berths, .chan n, .col n, .count Off.prPoisonRdLo, .count Off.prPoisonWrLo, .count Off.prUeLo, .count Off.prZeroRdLo, .events, .prot, .qy, .reg (btOff Off.btAlarm n), .reg (tlOff Off.tlOvf n), .reg Off.lgAlarm, .reg Off.prAlarm, .reg Off.prErrLost, .slots, .tl] qs)
    (before : Kept qs a₀ b) : Kept qs a₀ c₀ := by
  have h := Kept.step (runCol_kept m b n a dmg parityErr) inside before
  rw [eq] at h; exact h

theorem Block.actDone_kept (b : Block) (n : Nat) (a : Access) : Kept [.chan n, .chs, .count (dcOff Off.dcActLo n), .reg (tlOff Off.tlOvf n), .tl] b (Block.actDone b n a) := by
  unfold Block.actDone
  repeat' first
    | with_reducible assumption
    | with_reducible apply Kept.refl
    | with_reducible apply Within.refl
    | ((with_reducible apply Within.of); rfl)
    | ((with_reducible apply Within.cons); (apply Piece.inside_of; rfl))
    | ((with_reducible apply Within.cons); apply Or.inr)
    | with_reducible apply Within.nil
    | with_reducible apply List.mem_cons_self
    | with_reducible apply List.mem_cons_of_mem
    | (extract_lets +onlyGivenNames x
       first
       | (guard_hyp x : Block := _
          refine Kept.cut (ps := [.chan n, .chs, .count (dcOff Off.dcActLo n), .reg (tlOff Off.tlOvf n), .tl]) (b := b) (x := x) ?_ fun hx => ?_
          on_goal 1 => subst x
          on_goal 2 => try clear_value x)
       | clear_value x
       | skip)
    | with_reducible apply Block.tally_keeps
    | with_reducible apply Block.bump_keeps
    | with_reducible apply Block.modCharter_keeps
    | with_reducible apply Block.noteBg_keeps
    | with_reducible apply Kept.ite
    | split

theorem Block.actDone_keeps {qs : List Piece} {a₀ b : Block} {n : Nat} {a : Access} (inside : Within [.chan n, .chs, .count (dcOff Off.dcActLo n), .reg (tlOff Off.tlOvf n), .tl] qs) (before : Kept qs a₀ b) :
    Kept qs a₀ (Block.actDone b n a) := Kept.step (Block.actDone_kept _ _ _) inside before

theorem Block.sentAgain_kept (b : Block) (n : Nat) (c : Cmd) : Kept [.count (dcOff Off.dcActLo n), .qy] b (Block.sentAgain b n c) := by
  unfold Block.sentAgain
  repeat' first
    | with_reducible assumption
    | with_reducible apply Kept.refl
    | with_reducible apply Within.refl
    | ((with_reducible apply Within.of); rfl)
    | ((with_reducible apply Within.cons); (apply Piece.inside_of; rfl))
    | ((with_reducible apply Within.cons); apply Or.inr)
    | with_reducible apply Within.nil
    | with_reducible apply List.mem_cons_self
    | with_reducible apply List.mem_cons_of_mem
    | with_reducible apply Block.modReq_keeps
    | with_reducible apply Block.bump_keeps
    | with_reducible apply Kept.ite
    | split

theorem Block.sentAgain_keeps {qs : List Piece} {a₀ b : Block} {n : Nat} {c : Cmd} (inside : Within [.count (dcOff Off.dcActLo n), .qy] qs) (before : Kept qs a₀ b) :
    Kept qs a₀ (Block.sentAgain b n c) := Kept.step (Block.sentAgain_kept _ _ _) inside before

theorem runCmd_kept (m : List Host.Cell) (b : Block) (n : Nat) (c : Cmd) (dmg : List Damage) (faulty : Option (Fin 13)) (parityErr : Bool) : Kept [.berths, .chans, .chs, .cnt, .col n, .events, .fws, .ins, .lanes, .mf, .prot, .pw, .qy, .regs, .sides, .slots, .stk, .tl] b (runCmd m b n c dmg faulty parityErr).2 := by
  unfold runCmd
  repeat' first
    | with_reducible assumption
    | with_reducible apply Kept.refl
    | with_reducible apply Within.refl
    | ((with_reducible apply Within.of); rfl)
    | ((with_reducible apply Within.cons); (apply Piece.inside_of; rfl))
    | ((with_reducible apply Within.cons); apply Or.inr)
    | with_reducible apply Within.nil
    | with_reducible apply List.mem_cons_self
    | with_reducible apply List.mem_cons_of_mem
    | (extract_lets +onlyGivenNames x
       first
       | (guard_hyp x : Block := _
          refine Kept.cut (ps := [.berths, .chans, .chs, .cnt, .col n, .events, .fws, .ins, .lanes, .mf, .prot, .pw, .qy, .regs, .sides, .slots, .stk, .tl]) (b := b) (x := x) ?_ fun hx => ?_
          on_goal 1 => subst x
          on_goal 2 => try clear_value x)
       | clear_value x
       | skip)
    | with_reducible apply Block.setChan_keeps
    | with_reducible apply Block.sentAgain_keeps
    | with_reducible apply Block.actDone_keeps
    | with_reducible apply Block.tally_keeps
    | (with_reducible apply runCol_of; (case eq => assumption))
    | with_reducible apply runCol_keeps
    | with_reducible apply Block.countCol_keeps
    | with_reducible apply Block.refabDone_keeps
    | with_reducible apply Block.noteBg_keeps
    | dsimp -zeta only
    | with_reducible apply Kept.ite
    | split

theorem runCmd_keeps {qs : List Piece} {a₀ b : Block} {m : List Host.Cell} {n : Nat} {c : Cmd} {dmg : List Damage} {faulty : Option (Fin 13)} {parityErr : Bool} (inside : Within [.berths, .chans, .chs, .cnt, .col n, .events, .fws, .ins, .lanes, .mf, .prot, .pw, .qy, .regs, .sides, .slots, .stk, .tl] qs) (before : Kept qs a₀ b) :
    Kept qs a₀ (runCmd m b n c dmg faulty parityErr).2 := Kept.step (runCmd_kept m b n c dmg faulty parityErr) inside before

theorem runCmd_of {qs : List Piece} {a₀ b c₀ : Block} {m : List Host.Cell} {n : Nat} {c : Cmd} {dmg : List Damage} {faulty : Option (Fin 13)} {parityErr : Bool} {y₀ : List Host.Cell} (eq : runCmd m b n c dmg faulty parityErr = (y₀, c₀)) (inside : Within [.berths, .chans, .chs, .cnt, .col n, .events, .fws, .ins, .lanes, .mf, .prot, .pw, .qy, .regs, .sides, .slots, .stk, .tl] qs)
    (before : Kept qs a₀ b) : Kept qs a₀ c₀ := by
  have h := Kept.step (runCmd_kept m b n c dmg faulty parityErr) inside before
  rw [eq] at h; exact h

theorem Block.atCycle_kept (b : Block) (n : Nat) : Kept [.chs, .qy, .reg Off.chAlarm] b (Block.atCycle b n) := by
  unfold Block.atCycle
  repeat' first
    | with_reducible assumption
    | with_reducible apply Kept.refl
    | with_reducible apply Within.refl
    | ((with_reducible apply Within.of); rfl)
    | ((with_reducible apply Within.cons); (apply Piece.inside_of; rfl))
    | ((with_reducible apply Within.cons); apply Or.inr)
    | with_reducible apply Within.nil
    | with_reducible apply List.mem_cons_self
    | with_reducible apply List.mem_cons_of_mem
    | with_reducible apply Block.demoteRowless_keeps
    | with_reducible apply Block.grantStaging_keeps
    | with_reducible apply Kept.ite
    | split

theorem Block.atCycle_keeps {qs : List Piece} {a₀ b : Block} {n : Nat} (inside : Within [.chs, .qy, .reg Off.chAlarm] qs) (before : Kept qs a₀ b) :
    Kept qs a₀ (Block.atCycle b n) := Kept.step (Block.atCycle_kept _ _) inside before

theorem Block.countBulk_kept (b : Block) (n : Nat) (wr : Bool) (k : Nat) : Kept [.chan n, .cnt, .reg (tlOff Off.tlOvf n), .tl] b (Block.countBulk b n wr k) := by
  unfold Block.countBulk
  repeat' first
    | with_reducible assumption
    | with_reducible apply Kept.refl
    | with_reducible apply Within.refl
    | ((with_reducible apply Within.of); rfl)
    | ((with_reducible apply Within.cons); (apply Piece.inside_of; rfl))
    | ((with_reducible apply Within.cons); apply Or.inr)
    | with_reducible apply Within.nil
    | with_reducible apply List.mem_cons_self
    | with_reducible apply List.mem_cons_of_mem
    | (extract_lets +onlyGivenNames x
       first
       | (guard_hyp x : Block := _
          refine Kept.cut (ps := [.chan n, .cnt, .reg (tlOff Off.tlOvf n), .tl]) (b := b) (x := x) ?_ fun hx => ?_
          on_goal 1 => subst x
          on_goal 2 => try clear_value x)
       | clear_value x
       | skip)
    | with_reducible apply Block.modChan_keeps
    | with_reducible apply Block.tally_keeps
    | with_reducible apply Block.bump_keeps
    | with_reducible apply Block.portBytes_keeps
    | with_reducible apply Kept.ite
    | split

theorem Block.countBulk_keeps {qs : List Piece} {a₀ b : Block} {n : Nat} {wr : Bool} {k : Nat} (inside : Within [.chan n, .cnt, .reg (tlOff Off.tlOvf n), .tl] qs) (before : Kept qs a₀ b) :
    Kept qs a₀ (Block.countBulk b n wr k) := Kept.step (Block.countBulk_kept _ _ _ _) inside before

theorem Block.berthReady_kept (b : Block) (n : Nat) : Kept [.berth n] b (Block.berthReady b n) := by
  unfold Block.berthReady
  repeat' first
    | with_reducible assumption
    | with_reducible apply Kept.refl
    | with_reducible apply Within.refl
    | ((with_reducible apply Within.of); rfl)
    | ((with_reducible apply Within.cons); (apply Piece.inside_of; rfl))
    | ((with_reducible apply Within.cons); apply Or.inr)
    | with_reducible apply Within.nil
    | with_reducible apply List.mem_cons_self
    | with_reducible apply List.mem_cons_of_mem
    | (simp only [Kept.by_fields]; with_reducible apply Kept.fields <;>
         first | with_reducible exact Or.inl rfl | (apply Or.inr; apply Piece.mem_of; rfl) | exact Or.inr (by simp; done) | (refine Or.inr ⟨?_, ?_⟩ <;> first | (apply Or.inl; apply Piece.mem_of; rfl) | exact Or.inl (by simp; done) | with_reducible exact Or.inr rfl | with_reducible exact Or.inr ⟨rfl, rfl, rfl, rfl⟩ | with_reducible exact Or.inr ⟨rfl, rfl, rfl, rfl, rfl⟩ | (refine ⟨?_, ?_⟩ <;> first | (apply Or.inl; apply Piece.mem_of; rfl) | exact Or.inl (by simp; done) | with_reducible exact Or.inr rfl)) | skip)
    | with_reducible apply Block.modBerth_keeps
    | with_reducible apply Kept.ite
    | split

theorem Block.berthReady_keeps {qs : List Piece} {a₀ b : Block} {n : Nat} (inside : Within [.berth n] qs) (before : Kept qs a₀ b) :
    Kept qs a₀ (Block.berthReady b n) := Kept.step (Block.berthReady_kept _ _) inside before

theorem Block.fillDone_kept (b : Block) (n : Nat) : Kept [.berth n, .chans, .cnt, .prot, .qy, .regs, .slots, .tl] b (Block.fillDone b n) := by
  unfold Block.fillDone
  repeat' first
    | with_reducible assumption
    | with_reducible apply Kept.refl
    | with_reducible apply Within.refl
    | ((with_reducible apply Within.of); rfl)
    | ((with_reducible apply Within.cons); (apply Piece.inside_of; rfl))
    | ((with_reducible apply Within.cons); apply Or.inr)
    | with_reducible apply Within.nil
    | with_reducible apply List.mem_cons_self
    | with_reducible apply List.mem_cons_of_mem
    | (extract_lets +onlyGivenNames x
       first
       | (guard_hyp x : Block := _
          refine Kept.cut (ps := [.berth n, .chans, .cnt, .prot, .qy, .regs, .slots, .tl]) (b := b) (x := x) ?_ fun hx => ?_
          on_goal 1 => subst x
          on_goal 2 => try clear_value x)
       | clear_value x
       | skip)
    | (simp only [Kept.by_fields]; with_reducible apply Kept.fields <;>
         first | with_reducible exact Or.inl rfl | (apply Or.inr; apply Piece.mem_of; rfl) | exact Or.inr (by simp; done) | (refine Or.inr ⟨?_, ?_⟩ <;> first | (apply Or.inl; apply Piece.mem_of; rfl) | exact Or.inl (by simp; done) | with_reducible exact Or.inr rfl | with_reducible exact Or.inr ⟨rfl, rfl, rfl, rfl⟩ | with_reducible exact Or.inr ⟨rfl, rfl, rfl, rfl, rfl⟩ | (refine ⟨?_, ?_⟩ <;> first | (apply Or.inl; apply Piece.mem_of; rfl) | exact Or.inl (by simp; done) | with_reducible exact Or.inr rfl)) | skip)
    | with_reducible apply Block.countBulk_keeps
    | with_reducible apply Block.modChan_keeps
    | with_reducible apply Block.modBerth_keeps
    | with_reducible apply Block.releaseHeld_keeps
    | with_reducible apply Block.berthReady_keeps
    | with_reducible apply Block.filledOwns_keeps
    | with_reducible apply Kept.ite
    | split

theorem Block.fillDone_keeps {qs : List Piece} {a₀ b : Block} {n : Nat} (inside : Within [.berth n, .chans, .cnt, .prot, .qy, .regs, .slots, .tl] qs) (before : Kept qs a₀ b) :
    Kept qs a₀ (Block.fillDone b n) := Kept.step (Block.fillDone_kept _ _) inside before

theorem Block.beginSleep_kept (b : Block) (n : Nat) (forced : Bool) : Kept [.chan n, .count (dcOff Off.dcSrEntryLo n)] b (Block.beginSleep b n forced) := by
  unfold Block.beginSleep
  repeat' first
    | with_reducible assumption
    | with_reducible apply Kept.refl
    | with_reducible apply Within.refl
    | ((with_reducible apply Within.of); rfl)
    | ((with_reducible apply Within.cons); (apply Piece.inside_of; rfl))
    | ((with_reducible apply Within.cons); apply Or.inr)
    | with_reducible apply Within.nil
    | with_reducible apply List.mem_cons_self
    | with_reducible apply List.mem_cons_of_mem
    | with_reducible apply Block.bump_keeps
    | with_reducible apply Block.setChan_keeps
    | with_reducible apply Kept.ite
    | split

theorem Block.beginSleep_keeps {qs : List Piece} {a₀ b : Block} {n : Nat} {forced : Bool} (inside : Within [.chan n, .count (dcOff Off.dcSrEntryLo n)] qs) (before : Kept qs a₀ b) :
    Kept qs a₀ (Block.beginSleep b n forced) := Kept.step (Block.beginSleep_kept _ _ _) inside before

theorem Block.srIdle_kept (b : Block) (n : Nat) : Kept [.chan n, .count (dcOff Off.dcSrEntryLo n)] b (Block.srIdle b n) := by
  unfold Block.srIdle
  repeat' first
    | with_reducible assumption
    | with_reducible apply Kept.refl
    | with_reducible apply Within.refl
    | ((with_reducible apply Within.of); rfl)
    | ((with_reducible apply Within.cons); (apply Piece.inside_of; rfl))
    | ((with_reducible apply Within.cons); apply Or.inr)
    | with_reducible apply Within.nil
    | with_reducible apply List.mem_cons_self
    | with_reducible apply List.mem_cons_of_mem
    | (extract_lets +onlyGivenNames x
       first
       | (guard_hyp x : Block := _
          refine Kept.cut (ps := [.chan n, .count (dcOff Off.dcSrEntryLo n)]) (b := b) (x := x) ?_ fun hx => ?_
          on_goal 1 => subst x
          on_goal 2 => try clear_value x)
       | clear_value x
       | skip)
    | with_reducible apply Block.beginSleep_keeps
    | with_reducible apply Kept.ite
    | split

theorem Block.srIdle_keeps {qs : List Piece} {a₀ b : Block} {n : Nat} (inside : Within [.chan n, .count (dcOff Off.dcSrEntryLo n)] qs) (before : Kept qs a₀ b) :
    Kept qs a₀ (Block.srIdle b n) := Kept.step (Block.srIdle_kept _ _) inside before

theorem Block.srEntry_kept (b : Block) (n : Nat) : Kept [.chan n] b (Block.srEntry b n) := by
  unfold Block.srEntry
  repeat' first
    | with_reducible assumption
    | with_reducible apply Kept.refl
    | with_reducible apply Within.refl
    | ((with_reducible apply Within.of); rfl)
    | ((with_reducible apply Within.cons); (apply Piece.inside_of; rfl))
    | ((with_reducible apply Within.cons); apply Or.inr)
    | with_reducible apply Within.nil
    | with_reducible apply List.mem_cons_self
    | with_reducible apply List.mem_cons_of_mem
    | (extract_lets +onlyGivenNames x
       first
       | (guard_hyp x : Block := _
          refine Kept.cut (ps := [.chan n]) (b := b) (x := x) ?_ fun hx => ?_
          on_goal 1 => subst x
          on_goal 2 => try clear_value x)
       | clear_value x
       | skip)
    | with_reducible apply Block.setChan_keeps
    | with_reducible apply Kept.ite
    | split

theorem Block.srEntry_keeps {qs : List Piece} {a₀ b : Block} {n : Nat} (inside : Within [.chan n] qs) (before : Kept qs a₀ b) :
    Kept qs a₀ (Block.srEntry b n) := Kept.step (Block.srEntry_kept _ _) inside before

theorem Block.tickFalls_kept (b : Block) (n : Nat) : Kept [.chan n, .count (dcOff Off.dcRefPostLo n), .events, .reg Off.dcAlarm, .reg Off.lgAlarm] b (Block.tickFalls b n) := by
  unfold Block.tickFalls
  repeat' first
    | with_reducible assumption
    | with_reducible apply Kept.refl
    | with_reducible apply Within.refl
    | ((with_reducible apply Within.of); rfl)
    | ((with_reducible apply Within.cons); (apply Piece.inside_of; rfl))
    | ((with_reducible apply Within.cons); apply Or.inr)
    | with_reducible apply Within.nil
    | with_reducible apply List.mem_cons_self
    | with_reducible apply List.mem_cons_of_mem
    | (extract_lets +onlyGivenNames x
       first
       | (guard_hyp x : Block := _
          refine Kept.cut (ps := [.chan n, .count (dcOff Off.dcRefPostLo n), .events, .reg Off.dcAlarm, .reg Off.lgAlarm]) (b := b) (x := x) ?_ fun hx => ?_
          on_goal 1 => subst x
          on_goal 2 => try clear_value x)
       | clear_value x
       | skip)
    | with_reducible apply Block.setChan_keeps
    | with_reducible apply Block.event_keeps
    | with_reducible apply Block.orReg_keeps
    | with_reducible apply Block.bump_keeps
    | with_reducible apply Kept.ite
    | split

theorem Block.tickFalls_keeps {qs : List Piece} {a₀ b : Block} {n : Nat} (inside : Within [.chan n, .count (dcOff Off.dcRefPostLo n), .events, .reg Off.dcAlarm, .reg Off.lgAlarm] qs) (before : Kept qs a₀ b) :
    Kept qs a₀ (Block.tickFalls b n) := Kept.step (Block.tickFalls_kept _ _) inside before

theorem Block.tryRefab_kept (b : Block) (n : Nat) (faulty : Option (Fin 13)) : Kept [.berths, .chans, .chs, .cnt, .col n, .events, .fws, .ins, .lanes, .mf, .pw, .qy, .regs, .sides, .stk, .tl] b (Block.tryRefab b n faulty) := by
  unfold Block.tryRefab
  repeat' first
    | with_reducible assumption
    | with_reducible apply Kept.refl
    | with_reducible apply Within.refl
    | ((with_reducible apply Within.of); rfl)
    | ((with_reducible apply Within.cons); (apply Piece.inside_of; rfl))
    | ((with_reducible apply Within.cons); apply Or.inr)
    | with_reducible apply Within.nil
    | with_reducible apply List.mem_cons_self
    | with_reducible apply List.mem_cons_of_mem
    | with_reducible apply Block.refabDone_keeps
    | with_reducible apply Block.setChan_keeps
    | with_reducible apply Kept.ite
    | split

theorem Block.tryRefab_keeps {qs : List Piece} {a₀ b : Block} {n : Nat} {faulty : Option (Fin 13)} (inside : Within [.berths, .chans, .chs, .cnt, .col n, .events, .fws, .ins, .lanes, .mf, .pw, .qy, .regs, .sides, .stk, .tl] qs) (before : Kept qs a₀ b) :
    Kept qs a₀ (Block.tryRefab b n faulty) := Kept.step (Block.tryRefab_kept _ _ _) inside before

theorem Block.refreshTick_kept (b : Block) (n : Nat) (faulty : Option (Fin 13)) : Kept [.berths, .chans, .chs, .cnt, .col n, .events, .fws, .ins, .lanes, .mf, .pw, .qy, .regs, .sides, .stk, .tl] b (Block.refreshTick b n faulty) := by
  unfold Block.refreshTick
  repeat' first
    | with_reducible assumption
    | with_reducible apply Kept.refl
    | with_reducible apply Within.refl
    | ((with_reducible apply Within.of); rfl)
    | ((with_reducible apply Within.cons); (apply Piece.inside_of; rfl))
    | ((with_reducible apply Within.cons); apply Or.inr)
    | with_reducible apply Within.nil
    | with_reducible apply List.mem_cons_self
    | with_reducible apply List.mem_cons_of_mem
    | (extract_lets +onlyGivenNames x
       first
       | (guard_hyp x : Block := _
          refine Kept.cut (ps := [.berths, .chans, .chs, .cnt, .col n, .events, .fws, .ins, .lanes, .mf, .pw, .qy, .regs, .sides, .stk, .tl]) (b := b) (x := x) ?_ fun hx => ?_
          on_goal 1 => subst x
          on_goal 2 => try clear_value x)
       | clear_value x
       | skip)
    | with_reducible apply Block.tryRefab_keeps
    | with_reducible apply Block.tickFalls_keeps
    | with_reducible apply Kept.ite
    | split

theorem Block.refreshTick_keeps {qs : List Piece} {a₀ b : Block} {n : Nat} {faulty : Option (Fin 13)} (inside : Within [.berths, .chans, .chs, .cnt, .col n, .events, .fws, .ins, .lanes, .mf, .pw, .qy, .regs, .sides, .stk, .tl] qs) (before : Kept qs a₀ b) :
    Kept qs a₀ (Block.refreshTick b n faulty) := Kept.step (Block.refreshTick_kept _ _ _) inside before

theorem Block.pullIn_kept (b : Block) (n : Nat) (faulty : Option (Fin 13)) : Kept [.berths, .chans, .chs, .cnt, .col n, .events, .fws, .ins, .lanes, .mf, .pw, .qy, .regs, .sides, .stk, .tl] b (Block.pullIn b n faulty) := by
  unfold Block.pullIn
  repeat' first
    | with_reducible assumption
    | with_reducible apply Kept.refl
    | with_reducible apply Within.refl
    | ((with_reducible apply Within.of); rfl)
    | ((with_reducible apply Within.cons); (apply Piece.inside_of; rfl))
    | ((with_reducible apply Within.cons); apply Or.inr)
    | with_reducible apply Within.nil
    | with_reducible apply List.mem_cons_self
    | with_reducible apply List.mem_cons_of_mem
    | with_reducible apply Block.tryRefab_keeps
    | with_reducible apply Block.modChan_keeps
    | with_reducible apply Kept.ite
    | split

theorem Block.pullIn_keeps {qs : List Piece} {a₀ b : Block} {n : Nat} {faulty : Option (Fin 13)} (inside : Within [.berths, .chans, .chs, .cnt, .col n, .events, .fws, .ins, .lanes, .mf, .pw, .qy, .regs, .sides, .stk, .tl] qs) (before : Kept qs a₀ b) :
    Kept qs a₀ (Block.pullIn b n faulty) := Kept.step (Block.pullIn_kept _ _ _) inside before

theorem Block.refpbPass_kept (b : Block) (n : Nat) (completes : Bool) : Kept [.chan n] b (Block.refpbPass b n completes) := by
  unfold Block.refpbPass
  repeat' first
    | with_reducible assumption
    | with_reducible apply Kept.refl
    | with_reducible apply Within.refl
    | ((with_reducible apply Within.of); rfl)
    | ((with_reducible apply Within.cons); (apply Piece.inside_of; rfl))
    | ((with_reducible apply Within.cons); apply Or.inr)
    | with_reducible apply Within.nil
    | with_reducible apply List.mem_cons_self
    | with_reducible apply List.mem_cons_of_mem
    | (extract_lets +onlyGivenNames x
       first
       | (guard_hyp x : Block := _
          refine Kept.cut (ps := [.chan n]) (b := b) (x := x) ?_ fun hx => ?_
          on_goal 1 => subst x
          on_goal 2 => try clear_value x)
       | clear_value x
       | skip)
    | with_reducible apply Block.setChan_keeps
    | with_reducible apply Kept.ite
    | split

theorem Block.refpbPass_keeps {qs : List Piece} {a₀ b : Block} {n : Nat} {completes : Bool} (inside : Within [.chan n] qs) (before : Kept qs a₀ b) :
    Kept qs a₀ (Block.refpbPass b n completes) := Kept.step (Block.refpbPass_kept _ _ _) inside before

theorem Block.countReplay_kept (b : Block) (n : Nat) : Kept [.col n, .reg (tlOff Off.tlOvf n), .reg Off.stAlarm, .tl] b (Block.countReplay b n) := by
  unfold Block.countReplay
  repeat' first
    | with_reducible assumption
    | with_reducible apply Kept.refl
    | with_reducible apply Within.refl
    | ((with_reducible apply Within.of); rfl)
    | ((with_reducible apply Within.cons); (apply Piece.inside_of; rfl))
    | ((with_reducible apply Within.cons); apply Or.inr)
    | with_reducible apply Within.nil
    | with_reducible apply List.mem_cons_self
    | with_reducible apply List.mem_cons_of_mem
    | (extract_lets +onlyGivenNames x
       first
       | (guard_hyp x : Block := _
          refine Kept.cut (ps := [.col n, .reg (tlOff Off.tlOvf n), .reg Off.stAlarm, .tl]) (b := b) (x := x) ?_ fun hx => ?_
          on_goal 1 => subst x
          on_goal 2 => try clear_value x)
       | clear_value x
       | skip)
    | with_reducible apply Block.setCol_keeps
    | with_reducible apply Block.tally_keeps
    | with_reducible apply Block.orReg_keeps
    | with_reducible apply Kept.ite
    | split

theorem Block.countReplay_keeps {qs : List Piece} {a₀ b : Block} {n : Nat} (inside : Within [.col n, .reg (tlOff Off.tlOvf n), .reg Off.stAlarm, .tl] qs) (before : Kept qs a₀ b) :
    Kept qs a₀ (Block.countReplay b n) := Kept.step (Block.countReplay_kept _ _) inside before

theorem Block.caAlert_kept (b : Block) (n : Nat) (back : Nat) (coils : List (BitVec 4)) : Kept [.chan n, .col n, .reg (tlOff Off.tlOvf n), .reg Off.stAlarm, .tl] b (Block.caAlert b n back coils) := by
  unfold Block.caAlert
  repeat' first
    | with_reducible assumption
    | with_reducible apply Kept.refl
    | with_reducible apply Within.refl
    | ((with_reducible apply Within.of); rfl)
    | ((with_reducible apply Within.cons); (apply Piece.inside_of; rfl))
    | ((with_reducible apply Within.cons); apply Or.inr)
    | with_reducible apply Within.nil
    | with_reducible apply List.mem_cons_self
    | with_reducible apply List.mem_cons_of_mem
    | (extract_lets +onlyGivenNames x
       first
       | (guard_hyp x : Block := _
          refine Kept.cut (ps := [.chan n, .col n, .reg (tlOff Off.tlOvf n), .reg Off.stAlarm, .tl]) (b := b) (x := x) ?_ fun hx => ?_
          on_goal 1 => subst x
          on_goal 2 => try clear_value x)
       | clear_value x
       | skip)
    | with_reducible apply Block.countReplay_keeps
    | with_reducible apply Block.setChan_keeps
    | with_reducible apply Kept.ite
    | split

theorem Block.caAlert_keeps {qs : List Piece} {a₀ b : Block} {n : Nat} {back : Nat} {coils : List (BitVec 4)} (inside : Within [.chan n, .col n, .reg (tlOff Off.tlOvf n), .reg Off.stAlarm, .tl] qs) (before : Kept qs a₀ b) :
    Kept qs a₀ (Block.caAlert b n back coils) := Kept.step (Block.caAlert_kept _ _ _ _) inside before

theorem Block.stampCal_kept (b : Block) (n : Nat) (pass : Bool) : Kept [.chan n, .col n] b (Block.stampCal b n pass) := by
  unfold Block.stampCal
  repeat' first
    | with_reducible assumption
    | with_reducible apply Kept.refl
    | with_reducible apply Within.refl
    | ((with_reducible apply Within.of); rfl)
    | ((with_reducible apply Within.cons); (apply Piece.inside_of; rfl))
    | ((with_reducible apply Within.cons); apply Or.inr)
    | with_reducible apply Within.nil
    | with_reducible apply List.mem_cons_self
    | with_reducible apply List.mem_cons_of_mem
    | (extract_lets +onlyGivenNames x
       first
       | (guard_hyp x : Block := _
          refine Kept.cut (ps := [.chan n, .col n]) (b := b) (x := x) ?_ fun hx => ?_
          on_goal 1 => subst x
          on_goal 2 => try clear_value x)
       | clear_value x
       | skip)
    | with_reducible apply Block.modCol_keeps
    | with_reducible apply Block.modChan_keeps
    | with_reducible apply Kept.ite
    | split

theorem Block.stampCal_keeps {qs : List Piece} {a₀ b : Block} {n : Nat} {pass : Bool} (inside : Within [.chan n, .col n] qs) (before : Kept qs a₀ b) :
    Kept qs a₀ (Block.stampCal b n pass) := Kept.step (Block.stampCal_kept _ _ _) inside before

theorem Block.wakeClean_kept (b : Block) (n : Nat) : Kept [.chan n] b (Block.wakeClean b n) := by
  unfold Block.wakeClean
  repeat' first
    | with_reducible assumption
    | with_reducible apply Kept.refl
    | with_reducible apply Within.refl
    | ((with_reducible apply Within.of); rfl)
    | ((with_reducible apply Within.cons); (apply Piece.inside_of; rfl))
    | ((with_reducible apply Within.cons); apply Or.inr)
    | with_reducible apply Within.nil
    | with_reducible apply List.mem_cons_self
    | with_reducible apply List.mem_cons_of_mem
    | (extract_lets +onlyGivenNames x
       first
       | (guard_hyp x : Block := _
          refine Kept.cut (ps := [.chan n]) (b := b) (x := x) ?_ fun hx => ?_
          on_goal 1 => subst x
          on_goal 2 => try clear_value x)
       | clear_value x
       | skip)
    | with_reducible apply Block.modChan_keeps
    | with_reducible apply Kept.ite
    | split

theorem Block.wakeClean_keeps {qs : List Piece} {a₀ b : Block} {n : Nat} (inside : Within [.chan n] qs) (before : Kept qs a₀ b) :
    Kept qs a₀ (Block.wakeClean b n) := Kept.step (Block.wakeClean_kept _ _) inside before

theorem Block.leaveAbsent_kept (b : Block) (n : Nat) : Kept [.berth n, .stk] b (Block.leaveAbsent b n) := by
  unfold Block.leaveAbsent
  repeat' first
    | with_reducible assumption
    | with_reducible apply Kept.refl
    | with_reducible apply Within.refl
    | ((with_reducible apply Within.of); rfl)
    | ((with_reducible apply Within.cons); (apply Piece.inside_of; rfl))
    | ((with_reducible apply Within.cons); apply Or.inr)
    | with_reducible apply Within.nil
    | with_reducible apply List.mem_cons_self
    | with_reducible apply List.mem_cons_of_mem
    | (extract_lets +onlyGivenNames x
       first
       | (guard_hyp x : Block := _
          refine Kept.cut (ps := [.berth n, .stk]) (b := b) (x := x) ?_ fun hx => ?_
          on_goal 1 => subst x
          on_goal 2 => try clear_value x)
       | clear_value x
       | skip)
    | (simp only [Kept.by_fields]; with_reducible apply Kept.fields <;>
         first | with_reducible exact Or.inl rfl | (apply Or.inr; apply Piece.mem_of; rfl) | exact Or.inr (by simp; done) | (refine Or.inr ⟨?_, ?_⟩ <;> first | (apply Or.inl; apply Piece.mem_of; rfl) | exact Or.inl (by simp; done) | with_reducible exact Or.inr rfl | with_reducible exact Or.inr ⟨rfl, rfl, rfl, rfl⟩ | with_reducible exact Or.inr ⟨rfl, rfl, rfl, rfl, rfl⟩ | (refine ⟨?_, ?_⟩ <;> first | (apply Or.inl; apply Piece.mem_of; rfl) | exact Or.inl (by simp; done) | with_reducible exact Or.inr rfl)) | skip)
    | with_reducible apply Block.modBerth_keeps

theorem Block.leaveAbsent_keeps {qs : List Piece} {a₀ b : Block} {n : Nat} (inside : Within [.berth n, .stk] qs) (before : Kept qs a₀ b) :
    Kept qs a₀ (Block.leaveAbsent b n) := Kept.step (Block.leaveAbsent_kept _ _) inside before

theorem Block.startFill_kept (b : Block) (n : Nat) : Kept [.berth n, .chan n, .stk] b (Block.startFill b n) := by
  unfold Block.startFill
  repeat' first
    | with_reducible assumption
    | with_reducible apply Kept.refl
    | with_reducible apply Within.refl
    | ((with_reducible apply Within.of); rfl)
    | ((with_reducible apply Within.cons); (apply Piece.inside_of; rfl))
    | ((with_reducible apply Within.cons); apply Or.inr)
    | with_reducible apply Within.nil
    | with_reducible apply List.mem_cons_self
    | with_reducible apply List.mem_cons_of_mem
    | (extract_lets +onlyGivenNames x
       first
       | (guard_hyp x : Block := _
          refine Kept.cut (ps := [.berth n, .chan n, .stk]) (b := b) (x := x) ?_ fun hx => ?_
          on_goal 1 => subst x
          on_goal 2 => try clear_value x)
       | clear_value x
       | skip)
    | with_reducible apply Block.wakeClean_keeps
    | with_reducible apply Block.leaveAbsent_keeps
    | with_reducible apply Block.modBerth_keeps
    | with_reducible apply Block.modChan_keeps
    | with_reducible apply Kept.ite
    | split

theorem Block.startFill_keeps {qs : List Piece} {a₀ b : Block} {n : Nat} (inside : Within [.berth n, .chan n, .stk] qs) (before : Kept qs a₀ b) :
    Kept qs a₀ (Block.startFill b n) := Kept.step (Block.startFill_kept _ _) inside before

theorem Block.bringUp_kept (b : Block) (n : Nat) (ok : Bool) : Kept [.berth n, .chan n, .col n, .stk] b (Block.bringUp b n ok) := by
  unfold Block.bringUp
  repeat' first
    | with_reducible assumption
    | with_reducible apply Kept.refl
    | with_reducible apply Within.refl
    | ((with_reducible apply Within.of); rfl)
    | ((with_reducible apply Within.cons); (apply Piece.inside_of; rfl))
    | ((with_reducible apply Within.cons); apply Or.inr)
    | with_reducible apply Within.nil
    | with_reducible apply List.mem_cons_self
    | with_reducible apply List.mem_cons_of_mem
    | (extract_lets +onlyGivenNames x
       first
       | (guard_hyp x : Block := _
          refine Kept.cut (ps := [.berth n, .chan n, .col n, .stk]) (b := b) (x := x) ?_ fun hx => ?_
          on_goal 1 => subst x
          on_goal 2 => try clear_value x)
       | clear_value x
       | skip)
    | with_reducible apply Block.stampCal_keeps
    | with_reducible apply Block.berthReady_keeps
    | with_reducible apply Block.wakeClean_keeps
    | with_reducible apply Block.leaveAbsent_keeps
    | with_reducible apply Block.startFill_keeps
    | with_reducible apply Kept.ite
    | split

theorem Block.bringUp_keeps {qs : List Piece} {a₀ b : Block} {n : Nat} {ok : Bool} (inside : Within [.berth n, .chan n, .col n, .stk] qs) (before : Kept qs a₀ b) :
    Kept qs a₀ (Block.bringUp b n ok) := Kept.step (Block.bringUp_kept _ _ _) inside before

theorem Block.wakeCheck_kept (b : Block) (lost : BitVec 64) (age : Nat → Nat) : Kept [.berths, .chans, .chs, .cnt, .events, .fws, .ins, .lanes, .mf, .pw, .qy, .regs, .sides, .stk, .tl] b (Block.wakeCheck b lost age) := by
  unfold Block.wakeCheck
  repeat' first
    | with_reducible assumption
    | with_reducible apply Kept.refl
    | with_reducible apply Within.refl
    | ((with_reducible apply Within.of); rfl)
    | ((with_reducible apply Within.cons); (apply Piece.inside_of; rfl))
    | ((with_reducible apply Within.cons); apply Or.inr)
    | with_reducible apply Within.nil
    | with_reducible apply List.mem_cons_self
    | with_reducible apply List.mem_cons_of_mem
    | with_reducible apply Block.diagnose_keeps
    | with_reducible apply Kept.ite
    | split

theorem Block.wakeCheck_keeps {qs : List Piece} {a₀ b : Block} {lost : BitVec 64} {age : Nat → Nat} (inside : Within [.berths, .chans, .chs, .cnt, .events, .fws, .ins, .lanes, .mf, .pw, .qy, .regs, .sides, .stk, .tl] qs) (before : Kept qs a₀ b) :
    Kept qs a₀ (Block.wakeCheck b lost age) := Kept.step (Block.wakeCheck_kept _ _ _) inside before

theorem Block.bringUpAll_kept (b : Block) (pass : BitVec 64) (lost : BitVec 64) : Kept [.berths, .chans, .chs, .cnt, .cols, .events, .fws, .ins, .lanes, .mf, .pw, .qy, .regs, .sides, .stk, .tl] b (Block.bringUpAll b pass lost) := by
  unfold Block.bringUpAll
  repeat' first
    | with_reducible assumption
    | with_reducible apply Kept.refl
    | with_reducible apply Within.refl
    | ((with_reducible apply Within.of); rfl)
    | ((with_reducible apply Within.cons); (apply Piece.inside_of; rfl))
    | ((with_reducible apply Within.cons); apply Or.inr)
    | with_reducible apply Within.nil
    | with_reducible apply List.mem_cons_self
    | with_reducible apply List.mem_cons_of_mem
    | (with_reducible apply Kept.each; intro _ _ _)
    | with_reducible apply Block.diagnose_keeps
    | with_reducible apply Block.bringUp_keeps
    | with_reducible apply Kept.ite
    | split

theorem Block.bringUpAll_keeps {qs : List Piece} {a₀ b : Block} {pass : BitVec 64} {lost : BitVec 64} (inside : Within [.berths, .chans, .chs, .cnt, .cols, .events, .fws, .ins, .lanes, .mf, .pw, .qy, .regs, .sides, .stk, .tl] qs) (before : Kept qs a₀ b) :
    Kept qs a₀ (Block.bringUpAll b pass lost) := Kept.step (Block.bringUpAll_kept _ _ _) inside before

theorem Block.startReturn_kept (b : Block) (n : Nat) : Kept [.chan n] b (Block.startReturn b n) := by
  unfold Block.startReturn
  repeat' first
    | with_reducible assumption
    | with_reducible apply Kept.refl
    | with_reducible apply Within.refl
    | ((with_reducible apply Within.of); rfl)
    | ((with_reducible apply Within.cons); (apply Piece.inside_of; rfl))
    | ((with_reducible apply Within.cons); apply Or.inr)
    | with_reducible apply Within.nil
    | with_reducible apply List.mem_cons_self
    | with_reducible apply List.mem_cons_of_mem
    | (extract_lets +onlyGivenNames x
       first
       | (guard_hyp x : Block := _
          refine Kept.cut (ps := [.chan n]) (b := b) (x := x) ?_ fun hx => ?_
          on_goal 1 => subst x
          on_goal 2 => try clear_value x)
       | clear_value x
       | skip)
    | with_reducible apply Block.setChan_keeps
    | with_reducible apply Kept.ite
    | split

theorem Block.startReturn_keeps {qs : List Piece} {a₀ b : Block} {n : Nat} (inside : Within [.chan n] qs) (before : Kept qs a₀ b) :
    Kept qs a₀ (Block.startReturn b n) := Kept.step (Block.startReturn_kept _ _) inside before

theorem Block.srExit_kept (b : Block) (n : Nat) (lost : BitVec 64) (edge : List (Nat × Nat)) : Kept [.berths, .chans, .chs, .cnt, .events, .fws, .ins, .lanes, .mf, .pw, .qy, .regs, .running, .sides, .slots, .stk, .tl] b (Block.srExit b n lost edge) := by
  unfold Block.srExit
  repeat' first
    | with_reducible assumption
    | with_reducible apply Kept.refl
    | with_reducible apply Within.refl
    | ((with_reducible apply Within.of); rfl)
    | ((with_reducible apply Within.cons); (apply Piece.inside_of; rfl))
    | ((with_reducible apply Within.cons); apply Or.inr)
    | with_reducible apply Within.nil
    | with_reducible apply List.mem_cons_self
    | with_reducible apply List.mem_cons_of_mem
    | (extract_lets +onlyGivenNames x
       first
       | (guard_hyp x : Block := _
          refine Kept.cut (ps := [.berths, .chans, .chs, .cnt, .events, .fws, .ins, .lanes, .mf, .pw, .qy, .regs, .running, .sides, .slots, .stk, .tl]) (b := b) (x := x) ?_ fun hx => ?_
          on_goal 1 => subst x
          on_goal 2 => try clear_value x)
       | clear_value x
       | skip)
    | with_reducible apply Block.setChan_keeps
    | with_reducible apply Block.modChan_keeps
    | with_reducible apply Block.wakeCheck_keeps
    | with_reducible apply Block.activateWoken_keeps
    | with_reducible apply Kept.ite
    | split

theorem Block.srExit_keeps {qs : List Piece} {a₀ b : Block} {n : Nat} {lost : BitVec 64} {edge : List (Nat × Nat)} (inside : Within [.berths, .chans, .chs, .cnt, .events, .fws, .ins, .lanes, .mf, .pw, .qy, .regs, .running, .sides, .slots, .stk, .tl] qs) (before : Kept qs a₀ b) :
    Kept qs a₀ (Block.srExit b n lost edge) := Kept.step (Block.srExit_kept _ _ _ _) inside before

theorem Block.abandonAll_kept (b : Block) : Kept [.chs, .ins, .qy] b (Block.abandonAll b) := by
  unfold Block.abandonAll
  repeat' first
    | with_reducible assumption
    | with_reducible apply Kept.refl
    | with_reducible apply Within.refl
    | ((with_reducible apply Within.of); rfl)
    | ((with_reducible apply Within.cons); (apply Piece.inside_of; rfl))
    | ((with_reducible apply Within.cons); apply Or.inr)
    | with_reducible apply Within.nil
    | with_reducible apply List.mem_cons_self
    | with_reducible apply List.mem_cons_of_mem
    | (extract_lets +onlyGivenNames x
       first
       | (guard_hyp x : Block := _
          refine Kept.cut (ps := [.chs, .ins, .qy]) (b := b) (x := x) ?_ fun hx => ?_
          on_goal 1 => subst x
          on_goal 2 => try clear_value x)
       | (guard_hyp x : Quay := _; subst x)
       | clear_value x
       | skip)
    | (simp only [Kept.by_fields]; with_reducible apply Kept.fields <;>
         first | with_reducible exact Or.inl rfl | (apply Or.inr; apply Piece.mem_of; rfl) | exact Or.inr (by simp; done) | (refine Or.inr ⟨?_, ?_⟩ <;> first | (apply Or.inl; apply Piece.mem_of; rfl) | exact Or.inl (by simp; done) | with_reducible exact Or.inr rfl | with_reducible exact Or.inr ⟨rfl, rfl, rfl, rfl⟩ | with_reducible exact Or.inr ⟨rfl, rfl, rfl, rfl, rfl⟩ | (refine ⟨?_, ?_⟩ <;> first | (apply Or.inl; apply Piece.mem_of; rfl) | exact Or.inl (by simp; done) | with_reducible exact Or.inr rfl)) | skip)
    | with_reducible apply Block.clearPanic_keeps
    | with_reducible apply Kept.ite
    | split

theorem Block.abandonAll_keeps {qs : List Piece} {a₀ b : Block} (inside : Within [.chs, .ins, .qy] qs) (before : Kept qs a₀ b) :
    Kept qs a₀ (Block.abandonAll b) := Kept.step (Block.abandonAll_kept _) inside before

theorem Block.sleepChan_kept (b : Block) (n : Nat) : Kept [.chan n, .count (dcOff Off.dcSrEntryLo n)] b (Block.sleepChan b n) := by
  unfold Block.sleepChan
  repeat' first
    | with_reducible assumption
    | with_reducible apply Kept.refl
    | with_reducible apply Within.refl
    | ((with_reducible apply Within.of); rfl)
    | ((with_reducible apply Within.cons); (apply Piece.inside_of; rfl))
    | ((with_reducible apply Within.cons); apply Or.inr)
    | with_reducible apply Within.nil
    | with_reducible apply List.mem_cons_self
    | with_reducible apply List.mem_cons_of_mem
    | (extract_lets +onlyGivenNames x
       first
       | (guard_hyp x : Block := _
          refine Kept.cut (ps := [.chan n, .count (dcOff Off.dcSrEntryLo n)]) (b := b) (x := x) ?_ fun hx => ?_
          on_goal 1 => subst x
          on_goal 2 => try clear_value x)
       | clear_value x
       | skip)
    | (simp only [Kept.by_fields]; with_reducible apply Kept.fields <;>
         first | with_reducible exact Or.inl rfl | (apply Or.inr; apply Piece.mem_of; rfl) | exact Or.inr (by simp; done) | (refine Or.inr ⟨?_, ?_⟩ <;> first | (apply Or.inl; apply Piece.mem_of; rfl) | exact Or.inl (by simp; done) | with_reducible exact Or.inr rfl | with_reducible exact Or.inr ⟨rfl, rfl, rfl, rfl⟩ | with_reducible exact Or.inr ⟨rfl, rfl, rfl, rfl, rfl⟩ | (refine ⟨?_, ?_⟩ <;> first | (apply Or.inl; apply Piece.mem_of; rfl) | exact Or.inl (by simp; done) | with_reducible exact Or.inr rfl)) | skip)
    | (with_reducible apply Kept.each; intro _ _ _)
    | with_reducible apply Block.modChan_keeps
    | with_reducible apply Block.bump_keeps
    | with_reducible apply Kept.ite
    | split

theorem Block.sleepChan_keeps {qs : List Piece} {a₀ b : Block} {n : Nat} (inside : Within [.chan n, .count (dcOff Off.dcSrEntryLo n)] qs) (before : Kept qs a₀ b) :
    Kept qs a₀ (Block.sleepChan b n) := Kept.step (Block.sleepChan_kept _ _) inside before

theorem Block.dmanLow_kept (b : Block) : Kept [.chans, .cnt, .stk] b (Block.dmanLow b) := by
  unfold Block.dmanLow
  repeat' first
    | with_reducible assumption
    | with_reducible apply Kept.refl
    | with_reducible apply Within.refl
    | ((with_reducible apply Within.of); rfl)
    | ((with_reducible apply Within.cons); (apply Piece.inside_of; rfl))
    | ((with_reducible apply Within.cons); apply Or.inr)
    | with_reducible apply Within.nil
    | with_reducible apply List.mem_cons_self
    | with_reducible apply List.mem_cons_of_mem
    | (extract_lets +onlyGivenNames x
       first
       | (guard_hyp x : Block := _
          refine Kept.cut (ps := [.chans, .cnt, .stk]) (b := b) (x := x) ?_ fun hx => ?_
          on_goal 1 => subst x
          on_goal 2 => try clear_value x)
       | clear_value x
       | skip)
    | (simp only [Kept.by_fields]; with_reducible apply Kept.fields <;>
         first | with_reducible exact Or.inl rfl | (apply Or.inr; apply Piece.mem_of; rfl) | exact Or.inr (by simp; done) | (refine Or.inr ⟨?_, ?_⟩ <;> first | (apply Or.inl; apply Piece.mem_of; rfl) | exact Or.inl (by simp; done) | with_reducible exact Or.inr rfl | with_reducible exact Or.inr ⟨rfl, rfl, rfl, rfl⟩ | with_reducible exact Or.inr ⟨rfl, rfl, rfl, rfl, rfl⟩ | (refine ⟨?_, ?_⟩ <;> first | (apply Or.inl; apply Piece.mem_of; rfl) | exact Or.inl (by simp; done) | with_reducible exact Or.inr rfl)) | skip)
    | (with_reducible apply Kept.each; intro _ _ _)
    | with_reducible apply Block.sleepChan_keeps
    | with_reducible apply Kept.ite
    | split

theorem Block.dmanLow_keeps {qs : List Piece} {a₀ b : Block} (inside : Within [.chans, .cnt, .stk] qs) (before : Kept qs a₀ b) :
    Kept qs a₀ (Block.dmanLow b) := Kept.step (Block.dmanLow_kept _) inside before

theorem Block.endScrub_kept (b : Block) (status : Nat) : Kept [.chans, .ins, .prot, .running, .slots] b (Block.endScrub b status) := by
  unfold Block.endScrub
  repeat' first
    | with_reducible assumption
    | with_reducible apply Kept.refl
    | with_reducible apply Within.refl
    | ((with_reducible apply Within.of); rfl)
    | ((with_reducible apply Within.cons); (apply Piece.inside_of; rfl))
    | ((with_reducible apply Within.cons); apply Or.inr)
    | with_reducible apply Within.nil
    | with_reducible apply List.mem_cons_self
    | with_reducible apply List.mem_cons_of_mem
    | (extract_lets +onlyGivenNames x
       first
       | (guard_hyp x : Block := _
          refine Kept.cut (ps := [.chans, .ins, .prot, .running, .slots]) (b := b) (x := x) ?_ fun hx => ?_
          on_goal 1 => subst x
          on_goal 2 => try clear_value x)
       | clear_value x
       | skip)
    | (simp only [Kept.by_fields]; with_reducible apply Kept.fields <;>
         first | with_reducible exact Or.inl rfl | (apply Or.inr; apply Piece.mem_of; rfl) | exact Or.inr (by simp; done) | (refine Or.inr ⟨?_, ?_⟩ <;> first | (apply Or.inl; apply Piece.mem_of; rfl) | exact Or.inl (by simp; done) | with_reducible exact Or.inr rfl | with_reducible exact Or.inr ⟨rfl, rfl, rfl, rfl⟩ | with_reducible exact Or.inr ⟨rfl, rfl, rfl, rfl, rfl⟩ | (refine ⟨?_, ?_⟩ <;> first | (apply Or.inl; apply Piece.mem_of; rfl) | exact Or.inl (by simp; done) | with_reducible exact Or.inr rfl)) | skip)
    | (with_reducible apply Kept.each; intro _ _ _)
    | with_reducible apply Block.modChan_keeps
    | with_reducible apply Block.finish_keeps
    | split

theorem Block.endScrub_keeps {qs : List Piece} {a₀ b : Block} {status : Nat} (inside : Within [.chans, .ins, .prot, .running, .slots] qs) (before : Kept qs a₀ b) :
    Kept qs a₀ (Block.endScrub b status) := Kept.step (Block.endScrub_kept _ _) inside before

theorem Block.scrubRange_kept (b : Block) (m : ManRef) (start : Nat) (len : Nat) (flags : Nat) : Kept [.chans, .ins, .prot, .running, .slots] b (Block.scrubRange b m start len flags) := by
  unfold Block.scrubRange
  repeat' first
    | with_reducible assumption
    | with_reducible apply Kept.refl
    | with_reducible apply Within.refl
    | ((with_reducible apply Within.of); rfl)
    | ((with_reducible apply Within.cons); (apply Piece.inside_of; rfl))
    | ((with_reducible apply Within.cons); apply Or.inr)
    | with_reducible apply Within.nil
    | with_reducible apply List.mem_cons_self
    | with_reducible apply List.mem_cons_of_mem
    | (extract_lets +onlyGivenNames x
       first
       | (guard_hyp x : Block := _
          refine Kept.cut (ps := [.chans, .ins, .prot, .running, .slots]) (b := b) (x := x) ?_ fun hx => ?_
          on_goal 1 => subst x
          on_goal 2 => try clear_value x)
       | clear_value x
       | skip)
    | (simp only [Kept.by_fields]; with_reducible apply Kept.fields <;>
         first | with_reducible exact Or.inl rfl | (apply Or.inr; apply Piece.mem_of; rfl) | exact Or.inr (by simp; done) | (refine Or.inr ⟨?_, ?_⟩ <;> first | (apply Or.inl; apply Piece.mem_of; rfl) | exact Or.inl (by simp; done) | with_reducible exact Or.inr rfl | with_reducible exact Or.inr ⟨rfl, rfl, rfl, rfl⟩ | with_reducible exact Or.inr ⟨rfl, rfl, rfl, rfl, rfl⟩ | (refine ⟨?_, ?_⟩ <;> first | (apply Or.inl; apply Piece.mem_of; rfl) | exact Or.inl (by simp; done) | with_reducible exact Or.inr rfl)) | skip)
    | (with_reducible apply Kept.each; intro _ _ _)
    | with_reducible apply Block.finish_keeps
    | with_reducible apply Block.modChan_keeps
    | with_reducible apply Block.wakeChan_keeps
    | with_reducible apply Kept.ite
    | split

theorem Block.scrubRange_keeps {qs : List Piece} {a₀ b : Block} {m : ManRef} {start : Nat} {len : Nat} {flags : Nat} (inside : Within [.chans, .ins, .prot, .running, .slots] qs) (before : Kept qs a₀ b) :
    Kept qs a₀ (Block.scrubRange b m start len flags) := Kept.step (Block.scrubRange_kept _ _ _ _ _) inside before

theorem scrubRest_kept (m : List Host.Cell) (b : Block) (dmg : List Damage) (n : Nat) : Kept [.berths, .chan n, .cnt, .col n, .prot, .reg (tlOff Off.tlOvf n), .reg Off.prAlarm, .reg Off.prErrLost, .slots, .tl] b (scrubRest m b dmg n).2 := by
  unfold scrubRest
  repeat' first
    | with_reducible assumption
    | with_reducible apply Kept.refl
    | with_reducible apply Within.refl
    | ((with_reducible apply Within.of); rfl)
    | ((with_reducible apply Within.cons); (apply Piece.inside_of; rfl))
    | ((with_reducible apply Within.cons); apply Or.inr)
    | with_reducible apply Within.nil
    | with_reducible apply List.mem_cons_self
    | with_reducible apply List.mem_cons_of_mem
    | (extract_lets +onlyGivenNames x
       first
       | (guard_hyp x : Block := _
          refine Kept.cut (ps := [.berths, .chan n, .cnt, .col n, .prot, .reg (tlOff Off.tlOvf n), .reg Off.prAlarm, .reg Off.prErrLost, .slots, .tl]) (b := b) (x := x) ?_ fun hx => ?_
          on_goal 1 => subst x
          on_goal 2 => try clear_value x)
       | clear_value x
       | skip)
    | (simp only [Kept.by_fields]; with_reducible apply Kept.fields <;>
         first | with_reducible exact Or.inl rfl | (apply Or.inr; apply Piece.mem_of; rfl) | exact Or.inr (by simp; done) | (refine Or.inr ⟨?_, ?_⟩ <;> first | (apply Or.inl; apply Piece.mem_of; rfl) | exact Or.inl (by simp; done) | with_reducible exact Or.inr rfl | with_reducible exact Or.inr ⟨rfl, rfl, rfl, rfl⟩ | with_reducible exact Or.inr ⟨rfl, rfl, rfl, rfl, rfl⟩ | (refine ⟨?_, ?_⟩ <;> first | (apply Or.inl; apply Piece.mem_of; rfl) | exact Or.inl (by simp; done) | with_reducible exact Or.inr rfl)) | skip)
    | (with_reducible apply Kept.foldl; intro _ _ _)
    | (with_reducible apply Kept.foldl_snd; intro _ _ _)
    | with_reducible apply Block.bump_keeps
    | with_reducible apply Block.countBulk_keeps
    | (with_reducible apply scrubOne_of; (case eq => assumption))
    | with_reducible apply scrubOne_keeps
    | dsimp -zeta only
    | with_reducible apply Kept.ite
    | split

theorem scrubRest_keeps {qs : List Piece} {a₀ b : Block} {m : List Host.Cell} {dmg : List Damage} {n : Nat} (inside : Within [.berths, .chan n, .cnt, .col n, .prot, .reg (tlOff Off.tlOvf n), .reg Off.prAlarm, .reg Off.prErrLost, .slots, .tl] qs) (before : Kept qs a₀ b) :
    Kept qs a₀ (scrubRest m b dmg n).2 := Kept.step (scrubRest_kept m b dmg n) inside before

theorem scrubRest_of {qs : List Piece} {a₀ b c₀ : Block} {m : List Host.Cell} {dmg : List Damage} {n : Nat} {y₀ : List Host.Cell} (eq : scrubRest m b dmg n = (y₀, c₀)) (inside : Within [.berths, .chan n, .cnt, .col n, .prot, .reg (tlOff Off.tlOvf n), .reg Off.prAlarm, .reg Off.prErrLost, .slots, .tl] qs)
    (before : Kept qs a₀ b) : Kept qs a₀ c₀ := by
  have h := Kept.step (scrubRest_kept m b dmg n) inside before
  rw [eq] at h; exact h

theorem Block.dieBerthFenced_kept (b : Block) (n : Nat) : Kept [.berths, .chans, .chs, .cnt, .events, .ins, .qy, .regs, .stk, .tl] b (Block.dieBerthFenced b n) := by
  unfold Block.dieBerthFenced
  repeat' first
    | with_reducible assumption
    | with_reducible apply Kept.refl
    | with_reducible apply Within.refl
    | ((with_reducible apply Within.of); rfl)
    | ((with_reducible apply Within.cons); (apply Piece.inside_of; rfl))
    | ((with_reducible apply Within.cons); apply Or.inr)
    | with_reducible apply Within.nil
    | with_reducible apply List.mem_cons_self
    | with_reducible apply List.mem_cons_of_mem
    | (extract_lets +onlyGivenNames x
       first
       | (guard_hyp x : Block := _
          refine Kept.cut (ps := [.berths, .chans, .chs, .cnt, .events, .ins, .qy, .regs, .stk, .tl]) (b := b) (x := x) ?_ fun hx => ?_
          on_goal 1 => subst x
          on_goal 2 => try clear_value x)
       | clear_value x
       | skip)
    | (simp only [Kept.by_fields]; with_reducible apply Kept.fields <;>
         first | with_reducible exact Or.inl rfl | (apply Or.inr; apply Piece.mem_of; rfl) | exact Or.inr (by simp; done) | (refine Or.inr ⟨?_, ?_⟩ <;> first | (apply Or.inl; apply Piece.mem_of; rfl) | exact Or.inl (by simp; done) | with_reducible exact Or.inr rfl | with_reducible exact Or.inr ⟨rfl, rfl, rfl, rfl⟩ | with_reducible exact Or.inr ⟨rfl, rfl, rfl, rfl, rfl⟩ | (refine ⟨?_, ?_⟩ <;> first | (apply Or.inl; apply Piece.mem_of; rfl) | exact Or.inl (by simp; done) | with_reducible exact Or.inr rfl)) | skip)
    | (with_reducible apply Kept.each; intro _ _ _)
    | with_reducible apply Block.enterFenced_keeps
    | with_reducible apply Block.charterBerthLost_keeps
    | with_reducible apply Block.fenceReq_keeps
    | with_reducible apply Block.modBerth_keeps
    | with_reducible apply Kept.ite
    | split

theorem Block.dieBerthFenced_keeps {qs : List Piece} {a₀ b : Block} {n : Nat} (inside : Within [.berths, .chans, .chs, .cnt, .events, .ins, .qy, .regs, .stk, .tl] qs) (before : Kept qs a₀ b) :
    Kept qs a₀ (Block.dieBerthFenced b n) := Kept.step (Block.dieBerthFenced_kept _ _) inside before

theorem Block.stackDieReset_kept (b : Block) (m : ManRef) (die : Nat) : Kept [.berths, .chans, .chs, .cnt, .events, .fws, .ins, .lanes, .mf, .pw, .qy, .regs, .running, .sides, .slots, .stk, .tl] b (Block.stackDieReset b m die) := by
  unfold Block.stackDieReset
  repeat' first
    | with_reducible assumption
    | with_reducible apply Kept.refl
    | with_reducible apply Within.refl
    | ((with_reducible apply Within.of); rfl)
    | ((with_reducible apply Within.cons); (apply Piece.inside_of; rfl))
    | ((with_reducible apply Within.cons); apply Or.inr)
    | with_reducible apply Within.nil
    | with_reducible apply List.mem_cons_self
    | with_reducible apply List.mem_cons_of_mem
    | (extract_lets +onlyGivenNames x
       first
       | (guard_hyp x : Block := _
          refine Kept.cut (ps := [.berths, .chans, .chs, .cnt, .events, .fws, .ins, .lanes, .mf, .pw, .qy, .regs, .running, .sides, .slots, .stk, .tl]) (b := b) (x := x) ?_ fun hx => ?_
          on_goal 1 => subst x
          on_goal 2 => try clear_value x)
       | clear_value x
       | skip)
    | (simp only [Kept.by_fields]; with_reducible apply Kept.fields <;>
         first | with_reducible exact Or.inl rfl | (apply Or.inr; apply Piece.mem_of; rfl) | exact Or.inr (by simp; done) | (refine Or.inr ⟨?_, ?_⟩ <;> first | (apply Or.inl; apply Piece.mem_of; rfl) | exact Or.inl (by simp; done) | with_reducible exact Or.inr rfl | with_reducible exact Or.inr ⟨rfl, rfl, rfl, rfl⟩ | with_reducible exact Or.inr ⟨rfl, rfl, rfl, rfl, rfl⟩ | (refine ⟨?_, ?_⟩ <;> first | (apply Or.inl; apply Piece.mem_of; rfl) | exact Or.inl (by simp; done) | with_reducible exact Or.inr rfl)) | skip)
    | (with_reducible apply Kept.each; intro _ _ _)
    | with_reducible apply Block.finish_keeps
    | with_reducible apply Block.checkOpen_keeps
    | with_reducible apply Block.settle_keeps
    | with_reducible apply Block.dieBerthFenced_keeps
    | with_reducible apply Kept.ite
    | split

theorem Block.stackDieReset_keeps {qs : List Piece} {a₀ b : Block} {m : ManRef} {die : Nat} (inside : Within [.berths, .chans, .chs, .cnt, .events, .fws, .ins, .lanes, .mf, .pw, .qy, .regs, .running, .sides, .slots, .stk, .tl] qs) (before : Kept qs a₀ b) :
    Kept qs a₀ (Block.stackDieReset b m die) := Kept.step (Block.stackDieReset_kept _ _ _) inside before

theorem Block.drstRelease_kept (b : Block) : Kept [.stk] b (Block.drstRelease b) := by
  unfold Block.drstRelease
  repeat' first
    | with_reducible assumption
    | with_reducible apply Kept.refl
    | with_reducible apply Within.refl
    | ((with_reducible apply Within.of); rfl)
    | ((with_reducible apply Within.cons); (apply Piece.inside_of; rfl))
    | ((with_reducible apply Within.cons); apply Or.inr)
    | with_reducible apply Within.nil
    | with_reducible apply List.mem_cons_self
    | with_reducible apply List.mem_cons_of_mem
    | (extract_lets +onlyGivenNames x
       first
       | (guard_hyp x : Block := _
          refine Kept.cut (ps := [.stk]) (b := b) (x := x) ?_ fun hx => ?_
          on_goal 1 => subst x
          on_goal 2 => try clear_value x)
       | clear_value x
       | skip)
    | (simp only [Kept.by_fields]; with_reducible apply Kept.fields <;>
         first | with_reducible exact Or.inl rfl | (apply Or.inr; apply Piece.mem_of; rfl) | exact Or.inr (by simp; done) | (refine Or.inr ⟨?_, ?_⟩ <;> first | (apply Or.inl; apply Piece.mem_of; rfl) | exact Or.inl (by simp; done) | with_reducible exact Or.inr rfl | with_reducible exact Or.inr ⟨rfl, rfl, rfl, rfl⟩ | with_reducible exact Or.inr ⟨rfl, rfl, rfl, rfl, rfl⟩ | (refine ⟨?_, ?_⟩ <;> first | (apply Or.inl; apply Piece.mem_of; rfl) | exact Or.inl (by simp; done) | with_reducible exact Or.inr rfl)) | skip)
    | with_reducible apply Kept.ite
    | split

theorem Block.drstRelease_keeps {qs : List Piece} {a₀ b : Block} (inside : Within [.stk] qs) (before : Kept qs a₀ b) :
    Kept qs a₀ (Block.drstRelease b) := Kept.step (Block.drstRelease_kept _) inside before

theorem Block.dieResetCalDone_kept (b : Block) (pass : BitVec 4) (flight : List (Nat × Nat)) : Kept [.berths, .chans, .cols, .ins, .running, .slots, .stk] b (Block.dieResetCalDone b pass flight) := by
  unfold Block.dieResetCalDone
  repeat' first
    | with_reducible assumption
    | with_reducible apply Kept.refl
    | with_reducible apply Within.refl
    | ((with_reducible apply Within.of); rfl)
    | ((with_reducible apply Within.cons); (apply Piece.inside_of; rfl))
    | ((with_reducible apply Within.cons); apply Or.inr)
    | with_reducible apply Within.nil
    | with_reducible apply List.mem_cons_self
    | with_reducible apply List.mem_cons_of_mem
    | (extract_lets +onlyGivenNames x
       first
       | (guard_hyp x : Block := _
          refine Kept.cut (ps := [.berths, .chans, .cols, .ins, .running, .slots, .stk]) (b := b) (x := x) ?_ fun hx => ?_
          on_goal 1 => subst x
          on_goal 2 => try clear_value x)
       | clear_value x
       | skip)
    | (simp only [Kept.by_fields]; with_reducible apply Kept.fields <;>
         first | with_reducible exact Or.inl rfl | (apply Or.inr; apply Piece.mem_of; rfl) | exact Or.inr (by simp; done) | (refine Or.inr ⟨?_, ?_⟩ <;> first | (apply Or.inl; apply Piece.mem_of; rfl) | exact Or.inl (by simp; done) | with_reducible exact Or.inr rfl | with_reducible exact Or.inr ⟨rfl, rfl, rfl, rfl⟩ | with_reducible exact Or.inr ⟨rfl, rfl, rfl, rfl, rfl⟩ | (refine ⟨?_, ?_⟩ <;> first | (apply Or.inl; apply Piece.mem_of; rfl) | exact Or.inl (by simp; done) | with_reducible exact Or.inr rfl)) | skip)
    | (with_reducible apply Kept.each; intro _ _ _)
    | with_reducible apply Block.measured_keeps
    | with_reducible apply Block.bringUp_keeps
    | with_reducible apply Block.finish_keeps
    | with_reducible apply Kept.ite
    | split

theorem Block.dieResetCalDone_keeps {qs : List Piece} {a₀ b : Block} {pass : BitVec 4} {flight : List (Nat × Nat)} (inside : Within [.berths, .chans, .cols, .ins, .running, .slots, .stk] qs) (before : Kept qs a₀ b) :
    Kept qs a₀ (Block.dieResetCalDone b pass flight) := Kept.step (Block.dieResetCalDone_kept _ _ _) inside before

theorem Block.srst_kept (b : Block) : Kept [.berths, .stk] b (Block.srst b) := by
  unfold Block.srst
  repeat' first
    | with_reducible assumption
    | with_reducible apply Kept.refl
    | with_reducible apply Within.refl
    | ((with_reducible apply Within.of); rfl)
    | ((with_reducible apply Within.cons); (apply Piece.inside_of; rfl))
    | ((with_reducible apply Within.cons); apply Or.inr)
    | with_reducible apply Within.nil
    | with_reducible apply List.mem_cons_self
    | with_reducible apply List.mem_cons_of_mem
    | (extract_lets +onlyGivenNames x
       first
       | (guard_hyp x : Block := _
          refine Kept.cut (ps := [.berths, .stk]) (b := b) (x := x) ?_ fun hx => ?_
          on_goal 1 => subst x
          on_goal 2 => try clear_value x)
       | clear_value x
       | skip)
    | (simp only [Kept.by_fields]; with_reducible apply Kept.fields <;>
         first | with_reducible exact Or.inl rfl | (apply Or.inr; apply Piece.mem_of; rfl) | exact Or.inr (by simp; done) | (refine Or.inr ⟨?_, ?_⟩ <;> first | (apply Or.inl; apply Piece.mem_of; rfl) | exact Or.inl (by simp; done) | with_reducible exact Or.inr rfl | with_reducible exact Or.inr ⟨rfl, rfl, rfl, rfl⟩ | with_reducible exact Or.inr ⟨rfl, rfl, rfl, rfl, rfl⟩ | (refine ⟨?_, ?_⟩ <;> first | (apply Or.inl; apply Piece.mem_of; rfl) | exact Or.inl (by simp; done) | with_reducible exact Or.inr rfl)) | skip)
    | (with_reducible apply Kept.each; intro _ _ _)
    | with_reducible apply Block.modBerth_keeps

theorem Block.srst_keeps {qs : List Piece} {a₀ b : Block} (inside : Within [.berths, .stk] qs) (before : Kept qs a₀ b) :
    Kept qs a₀ (Block.srst b) := Kept.step (Block.srst_kept _) inside before

theorem Block.stackReset_kept (b : Block) (m : ManRef) : Kept [.berths, .ins, .running, .slots, .stk] b (Block.stackReset b m) := by
  unfold Block.stackReset
  repeat' first
    | with_reducible assumption
    | with_reducible apply Kept.refl
    | with_reducible apply Within.refl
    | ((with_reducible apply Within.of); rfl)
    | ((with_reducible apply Within.cons); (apply Piece.inside_of; rfl))
    | ((with_reducible apply Within.cons); apply Or.inr)
    | with_reducible apply Within.nil
    | with_reducible apply List.mem_cons_self
    | with_reducible apply List.mem_cons_of_mem
    | (extract_lets +onlyGivenNames x
       first
       | (guard_hyp x : Block := _
          refine Kept.cut (ps := [.berths, .ins, .running, .slots, .stk]) (b := b) (x := x) ?_ fun hx => ?_
          on_goal 1 => subst x
          on_goal 2 => try clear_value x)
       | clear_value x
       | skip)
    | (simp only [Kept.by_fields]; with_reducible apply Kept.fields <;>
         first | with_reducible exact Or.inl rfl | (apply Or.inr; apply Piece.mem_of; rfl) | exact Or.inr (by simp; done) | (refine Or.inr ⟨?_, ?_⟩ <;> first | (apply Or.inl; apply Piece.mem_of; rfl) | exact Or.inl (by simp; done) | with_reducible exact Or.inr rfl | with_reducible exact Or.inr ⟨rfl, rfl, rfl, rfl⟩ | with_reducible exact Or.inr ⟨rfl, rfl, rfl, rfl, rfl⟩ | (refine ⟨?_, ?_⟩ <;> first | (apply Or.inl; apply Piece.mem_of; rfl) | exact Or.inl (by simp; done) | with_reducible exact Or.inr rfl)) | skip)
    | with_reducible apply Block.finish_keeps
    | with_reducible apply Block.srst_keeps
    | with_reducible apply Kept.ite
    | split

theorem Block.stackReset_keeps {qs : List Piece} {a₀ b : Block} {m : ManRef} (inside : Within [.berths, .ins, .running, .slots, .stk] qs) (before : Kept qs a₀ b) :
    Kept qs a₀ (Block.stackReset b m) := Kept.step (Block.stackReset_kept _ _) inside before

theorem Block.columnTestDone_kept (b : Block) (pass : BitVec 64) (flight : List (Nat × Nat)) : Kept [.berths, .chans, .cols, .ins, .running, .slots, .stk] b (Block.columnTestDone b pass flight) := by
  unfold Block.columnTestDone
  repeat' first
    | with_reducible assumption
    | with_reducible apply Kept.refl
    | with_reducible apply Within.refl
    | ((with_reducible apply Within.of); rfl)
    | ((with_reducible apply Within.cons); (apply Piece.inside_of; rfl))
    | ((with_reducible apply Within.cons); apply Or.inr)
    | with_reducible apply Within.nil
    | with_reducible apply List.mem_cons_self
    | with_reducible apply List.mem_cons_of_mem
    | (extract_lets +onlyGivenNames x
       first
       | (guard_hyp x : Block := _
          refine Kept.cut (ps := [.berths, .chans, .cols, .ins, .running, .slots, .stk]) (b := b) (x := x) ?_ fun hx => ?_
          on_goal 1 => subst x
          on_goal 2 => try clear_value x)
       | clear_value x
       | skip)
    | (simp only [Kept.by_fields]; with_reducible apply Kept.fields <;>
         first | with_reducible exact Or.inl rfl | (apply Or.inr; apply Piece.mem_of; rfl) | exact Or.inr (by simp; done) | (refine Or.inr ⟨?_, ?_⟩ <;> first | (apply Or.inl; apply Piece.mem_of; rfl) | exact Or.inl (by simp; done) | with_reducible exact Or.inr rfl | with_reducible exact Or.inr ⟨rfl, rfl, rfl, rfl⟩ | with_reducible exact Or.inr ⟨rfl, rfl, rfl, rfl, rfl⟩ | (refine ⟨?_, ?_⟩ <;> first | (apply Or.inl; apply Piece.mem_of; rfl) | exact Or.inl (by simp; done) | with_reducible exact Or.inr rfl)) | skip)
    | (with_reducible apply Kept.each; intro _ _ _)
    | with_reducible apply Block.measured_keeps
    | with_reducible apply Block.bringUp_keeps
    | with_reducible apply Block.stampCal_keeps
    | with_reducible apply Block.finish_keeps
    | with_reducible apply Kept.ite
    | split

theorem Block.columnTestDone_keeps {qs : List Piece} {a₀ b : Block} {pass : BitVec 64} {flight : List (Nat × Nat)} (inside : Within [.berths, .chans, .cols, .ins, .running, .slots, .stk] qs) (before : Kept qs a₀ b) :
    Kept qs a₀ (Block.columnTestDone b pass flight) := Kept.step (Block.columnTestDone_kept _ _ _) inside before

theorem Block.resetMemory_kept (b : Block) : Kept [.berths, .chans, .chs, .cnt, .hold, .ins, .prot, .qy, .regs, .running, .sel, .slots, .stk, .tl] b (Block.resetMemory b) := by
  unfold Block.resetMemory
  repeat' first
    | with_reducible assumption
    | with_reducible apply Kept.refl
    | with_reducible apply Within.refl
    | ((with_reducible apply Within.of); rfl)
    | ((with_reducible apply Within.cons); (apply Piece.inside_of; rfl))
    | ((with_reducible apply Within.cons); apply Or.inr)
    | with_reducible apply Within.nil
    | with_reducible apply List.mem_cons_self
    | with_reducible apply List.mem_cons_of_mem
    | (extract_lets +onlyGivenNames x
       first
       | (guard_hyp x : Block := _
          refine Kept.cut (ps := [.berths, .chans, .chs, .cnt, .hold, .ins, .prot, .qy, .regs, .running, .sel, .slots, .stk, .tl]) (b := b) (x := x) ?_ fun hx => ?_
          on_goal 1 => subst x
          on_goal 2 => try clear_value x)
       | clear_value x
       | skip)
    | (simp only [Kept.by_fields]; with_reducible apply Kept.fields <;>
         first | with_reducible exact Or.inl rfl | (apply Or.inr; apply Piece.mem_of; rfl) | exact Or.inr (by simp; done) | (refine Or.inr ⟨?_, ?_⟩ <;> first | (apply Or.inl; apply Piece.mem_of; rfl) | exact Or.inl (by simp; done) | with_reducible exact Or.inr rfl | with_reducible exact Or.inr ⟨rfl, rfl, rfl, rfl⟩ | with_reducible exact Or.inr ⟨rfl, rfl, rfl, rfl, rfl⟩ | (refine ⟨?_, ?_⟩ <;> first | (apply Or.inl; apply Piece.mem_of; rfl) | exact Or.inl (by simp; done) | with_reducible exact Or.inr rfl)) | skip)
    | (with_reducible apply Kept.each; intro _ _ _)
    | with_reducible apply Block.resetRegs_keeps
    | with_reducible apply Block.endScrub_keeps
    | with_reducible apply Block.closeForReload_keeps
    | with_reducible apply Block.abandonAll_keeps
    | with_reducible apply Block.modBerth_keeps
    | with_reducible apply Block.settle_keeps
    | with_reducible apply Kept.ite
    | split

theorem Block.resetMemory_keeps {qs : List Piece} {a₀ b : Block} (inside : Within [.berths, .chans, .chs, .cnt, .hold, .ins, .prot, .qy, .regs, .running, .sel, .slots, .stk, .tl] qs) (before : Kept qs a₀ b) :
    Kept qs a₀ (Block.resetMemory b) := Kept.step (Block.resetMemory_kept _) inside before

theorem Block.restoreMemory_kept (b : Block) (pass : BitVec 64) (lost : BitVec 64) (flight : List (Nat × Nat)) : Kept [.berths, .chans, .chs, .cnt, .cols, .events, .fws, .ins, .lanes, .mf, .pw, .qy, .regs, .running, .sides, .slots, .stk, .tl] b (Block.restoreMemory b pass lost flight) := by
  unfold Block.restoreMemory
  repeat' first
    | with_reducible assumption
    | with_reducible apply Kept.refl
    | with_reducible apply Within.refl
    | ((with_reducible apply Within.of); rfl)
    | ((with_reducible apply Within.cons); (apply Piece.inside_of; rfl))
    | ((with_reducible apply Within.cons); apply Or.inr)
    | with_reducible apply Within.nil
    | with_reducible apply List.mem_cons_self
    | with_reducible apply List.mem_cons_of_mem
    | (extract_lets +onlyGivenNames x
       first
       | (guard_hyp x : Block := _
          refine Kept.cut (ps := [.berths, .chans, .chs, .cnt, .cols, .events, .fws, .ins, .lanes, .mf, .pw, .qy, .regs, .running, .sides, .slots, .stk, .tl]) (b := b) (x := x) ?_ fun hx => ?_
          on_goal 1 => subst x
          on_goal 2 => try clear_value x)
       | (guard_hyp x : Quay := _; subst x)
       | clear_value x
       | skip)
    | (simp only [Kept.by_fields]; with_reducible apply Kept.fields <;>
         first | with_reducible exact Or.inl rfl | (apply Or.inr; apply Piece.mem_of; rfl) | exact Or.inr (by simp; done) | (refine Or.inr ⟨?_, ?_⟩ <;> first | (apply Or.inl; apply Piece.mem_of; rfl) | exact Or.inl (by simp; done) | with_reducible exact Or.inr rfl | with_reducible exact Or.inr ⟨rfl, rfl, rfl, rfl⟩ | with_reducible exact Or.inr ⟨rfl, rfl, rfl, rfl, rfl⟩ | (refine ⟨?_, ?_⟩ <;> first | (apply Or.inl; apply Piece.mem_of; rfl) | exact Or.inl (by simp; done) | with_reducible exact Or.inr rfl)) | skip)
    | with_reducible apply Block.measured_keeps
    | with_reducible apply Block.activateWoken_keeps
    | with_reducible apply Block.reloadCharters_keeps
    | with_reducible apply Block.bringUpAll_keeps
    | with_reducible apply Kept.ite
    | split

theorem Block.restoreMemory_keeps {qs : List Piece} {a₀ b : Block} {pass : BitVec 64} {lost : BitVec 64} {flight : List (Nat × Nat)} (inside : Within [.berths, .chans, .chs, .cnt, .cols, .events, .fws, .ins, .lanes, .mf, .pw, .qy, .regs, .running, .sides, .slots, .stk, .tl] qs) (before : Kept qs a₀ b) :
    Kept qs a₀ (Block.restoreMemory b pass lost flight) := Kept.step (Block.restoreMemory_kept _ _ _ _) inside before

theorem Block.memRst_kept (b : Block) (p : Path) : Kept [.berths, .chans, .chs, .cnt, .hold, .ins, .prot, .qy, .regs, .running, .sel, .slots, .stk, .sv, .tl] b (Block.memRst b p) := by
  unfold Block.memRst
  repeat' first
    | with_reducible assumption
    | with_reducible apply Kept.refl
    | with_reducible apply Within.refl
    | ((with_reducible apply Within.of); rfl)
    | ((with_reducible apply Within.cons); (apply Piece.inside_of; rfl))
    | ((with_reducible apply Within.cons); apply Or.inr)
    | with_reducible apply Within.nil
    | with_reducible apply List.mem_cons_self
    | with_reducible apply List.mem_cons_of_mem
    | (extract_lets +onlyGivenNames x
       first
       | (guard_hyp x : Block := _
          refine Kept.cut (ps := [.berths, .chans, .chs, .cnt, .hold, .ins, .prot, .qy, .regs, .running, .sel, .slots, .stk, .sv, .tl]) (b := b) (x := x) ?_ fun hx => ?_
          on_goal 1 => subst x
          on_goal 2 => try clear_value x)
       | (guard_hyp x : Quay := _; subst x)
       | clear_value x
       | skip)
    | (simp only [Kept.by_fields]; with_reducible apply Kept.fields <;>
         first | with_reducible exact Or.inl rfl | (apply Or.inr; apply Piece.mem_of; rfl) | exact Or.inr (by simp; done) | (refine Or.inr ⟨?_, ?_⟩ <;> first | (apply Or.inl; apply Piece.mem_of; rfl) | exact Or.inl (by simp; done) | with_reducible exact Or.inr rfl | with_reducible exact Or.inr ⟨rfl, rfl, rfl, rfl⟩ | with_reducible exact Or.inr ⟨rfl, rfl, rfl, rfl, rfl⟩ | (refine ⟨?_, ?_⟩ <;> first | (apply Or.inl; apply Piece.mem_of; rfl) | exact Or.inl (by simp; done) | with_reducible exact Or.inr rfl)) | skip)
    | with_reducible apply Block.orReg_keeps
    | with_reducible apply Block.resetMemory_keeps
    | with_reducible apply Block.dmanLow_keeps
    | with_reducible apply Block.endRunning_keeps
    | with_reducible apply Kept.ite
    | split

theorem Block.memRst_keeps {qs : List Piece} {a₀ b : Block} {p : Path} (inside : Within [.berths, .chans, .chs, .cnt, .hold, .ins, .prot, .qy, .regs, .running, .sel, .slots, .stk, .sv, .tl] qs) (before : Kept qs a₀ b) :
    Kept qs a₀ (Block.memRst b p) := Kept.step (Block.memRst_kept _ _) inside before

theorem Block.dropWaiters_kept (b : Block) (keep : Nat → Bool) : Kept [.chs, .doms, .lanes, .sides, .sv] b (Block.dropWaiters b keep) := by
  unfold Block.dropWaiters
  repeat' first
    | with_reducible assumption
    | with_reducible apply Kept.refl
    | with_reducible apply Within.refl
    | ((with_reducible apply Within.of); rfl)
    | ((with_reducible apply Within.cons); (apply Piece.inside_of; rfl))
    | ((with_reducible apply Within.cons); apply Or.inr)
    | with_reducible apply Within.nil
    | with_reducible apply List.mem_cons_self
    | with_reducible apply List.mem_cons_of_mem
    | (extract_lets +onlyGivenNames x
       first
       | (guard_hyp x : Block := _
          refine Kept.cut (ps := [.chs, .doms, .lanes, .sides, .sv]) (b := b) (x := x) ?_ fun hx => ?_
          on_goal 1 => subst x
          on_goal 2 => try clear_value x)
       | clear_value x
       | skip)
    | (simp only [Kept.by_fields]; with_reducible apply Kept.fields <;>
         first | with_reducible exact Or.inl rfl | (apply Or.inr; apply Piece.mem_of; rfl) | exact Or.inr (by simp; done) | (refine Or.inr ⟨?_, ?_⟩ <;> first | (apply Or.inl; apply Piece.mem_of; rfl) | exact Or.inl (by simp; done) | with_reducible exact Or.inr rfl | with_reducible exact Or.inr ⟨rfl, rfl, rfl, rfl⟩ | with_reducible exact Or.inr ⟨rfl, rfl, rfl, rfl, rfl⟩ | (refine ⟨?_, ?_⟩ <;> first | (apply Or.inl; apply Piece.mem_of; rfl) | exact Or.inl (by simp; done) | with_reducible exact Or.inr rfl)) | skip)
    | (with_reducible apply Kept.each; intro _ _ _)
    | (with_reducible apply Kept.foldl; intro _ _ _)
    | with_reducible apply Block.modSide_keeps
    | with_reducible apply Block.modDom_keeps
    | with_reducible apply Block.modLane_keeps
    | with_reducible apply Kept.ite
    | split

theorem Block.dropWaiters_keeps {qs : List Piece} {a₀ b : Block} {keep : Nat → Bool} (inside : Within [.chs, .doms, .lanes, .sides, .sv] qs) (before : Kept qs a₀ b) :
    Kept qs a₀ (Block.dropWaiters b keep) := Kept.step (Block.dropWaiters_kept _ _) inside before

theorem Block.dropLinks_kept (b : Block) : Kept [.cnt, .events, .fws, .ins, .lanes, .qy, .regs, .sides, .tl] b (Block.dropLinks b) := by
  unfold Block.dropLinks
  repeat' first
    | with_reducible assumption
    | with_reducible apply Kept.refl
    | with_reducible apply Within.refl
    | ((with_reducible apply Within.of); rfl)
    | ((with_reducible apply Within.cons); (apply Piece.inside_of; rfl))
    | ((with_reducible apply Within.cons); apply Or.inr)
    | with_reducible apply Within.nil
    | with_reducible apply List.mem_cons_self
    | with_reducible apply List.mem_cons_of_mem
    | (extract_lets +onlyGivenNames x
       first
       | (guard_hyp x : Block := _
          refine Kept.cut (ps := [.cnt, .events, .fws, .ins, .lanes, .qy, .regs, .sides, .tl]) (b := b) (x := x) ?_ fun hx => ?_
          on_goal 1 => subst x
          on_goal 2 => try clear_value x)
       | clear_value x
       | skip)
    | (simp only [Kept.by_fields]; with_reducible apply Kept.fields <;>
         first | with_reducible exact Or.inl rfl | (apply Or.inr; apply Piece.mem_of; rfl) | exact Or.inr (by simp; done) | (refine Or.inr ⟨?_, ?_⟩ <;> first | (apply Or.inl; apply Piece.mem_of; rfl) | exact Or.inl (by simp; done) | with_reducible exact Or.inr rfl | with_reducible exact Or.inr ⟨rfl, rfl, rfl, rfl⟩ | with_reducible exact Or.inr ⟨rfl, rfl, rfl, rfl, rfl⟩ | (refine ⟨?_, ?_⟩ <;> first | (apply Or.inl; apply Piece.mem_of; rfl) | exact Or.inl (by simp; done) | with_reducible exact Or.inr rfl)) | skip)
    | with_reducible apply Block.dropSide_keeps
    | with_reducible apply Kept.ite
    | split

theorem Block.dropLinks_keeps {qs : List Piece} {a₀ b : Block} (inside : Within [.cnt, .events, .fws, .ins, .lanes, .qy, .regs, .sides, .tl] qs) (before : Kept qs a₀ b) :
    Kept qs a₀ (Block.dropLinks b) := Kept.step (Block.dropLinks_kept _) inside before

theorem Block.cutStackReset_kept (b : Block) : Kept [.berths, .stk] b (Block.cutStackReset b) := by
  unfold Block.cutStackReset
  repeat' first
    | with_reducible assumption
    | with_reducible apply Kept.refl
    | with_reducible apply Within.refl
    | ((with_reducible apply Within.of); rfl)
    | ((with_reducible apply Within.cons); (apply Piece.inside_of; rfl))
    | ((with_reducible apply Within.cons); apply Or.inr)
    | with_reducible apply Within.nil
    | with_reducible apply List.mem_cons_self
    | with_reducible apply List.mem_cons_of_mem
    | (extract_lets +onlyGivenNames x
       first
       | (guard_hyp x : Block := _
          refine Kept.cut (ps := [.berths, .stk]) (b := b) (x := x) ?_ fun hx => ?_
          on_goal 1 => subst x
          on_goal 2 => try clear_value x)
       | clear_value x
       | skip)
    | (simp only [Kept.by_fields]; with_reducible apply Kept.fields <;>
         first | with_reducible exact Or.inl rfl | (apply Or.inr; apply Piece.mem_of; rfl) | exact Or.inr (by simp; done) | (refine Or.inr ⟨?_, ?_⟩ <;> first | (apply Or.inl; apply Piece.mem_of; rfl) | exact Or.inl (by simp; done) | with_reducible exact Or.inr rfl | with_reducible exact Or.inr ⟨rfl, rfl, rfl, rfl⟩ | with_reducible exact Or.inr ⟨rfl, rfl, rfl, rfl, rfl⟩ | (refine ⟨?_, ?_⟩ <;> first | (apply Or.inl; apply Piece.mem_of; rfl) | exact Or.inl (by simp; done) | with_reducible exact Or.inr rfl)) | skip)
    | with_reducible apply Block.srst_keeps
    | with_reducible apply Kept.ite
    | split

theorem Block.cutStackReset_keeps {qs : List Piece} {a₀ b : Block} (inside : Within [.berths, .stk] qs) (before : Kept qs a₀ b) :
    Kept qs a₀ (Block.cutStackReset b) := Kept.step (Block.cutStackReset_kept _) inside before

theorem Block.coreDark_kept (b : Block) : Kept [.berths, .chans, .chs, .ck, .cnt, .doms, .events, .fws, .ins, .lanes, .prot, .qy, .regs, .running, .sides, .slots, .stk, .sv, .tl] b (Block.coreDark b) := by
  unfold Block.coreDark
  repeat' first
    | with_reducible assumption
    | with_reducible apply Kept.refl
    | with_reducible apply Within.refl
    | ((with_reducible apply Within.of); rfl)
    | ((with_reducible apply Within.cons); (apply Piece.inside_of; rfl))
    | ((with_reducible apply Within.cons); apply Or.inr)
    | with_reducible apply Within.nil
    | with_reducible apply List.mem_cons_self
    | with_reducible apply List.mem_cons_of_mem
    | (extract_lets +onlyGivenNames x
       first
       | (guard_hyp x : Block := _
          refine Kept.cut (ps := [.berths, .chans, .chs, .ck, .cnt, .doms, .events, .fws, .ins, .lanes, .prot, .qy, .regs, .running, .sides, .slots, .stk, .sv, .tl]) (b := b) (x := x) ?_ fun hx => ?_
          on_goal 1 => subst x
          on_goal 2 => try clear_value x)
       | (guard_hyp x : Clocks := _; subst x)
       | clear_value x
       | skip)
    | (simp only [Kept.by_fields]; with_reducible apply Kept.fields <;>
         first | with_reducible exact Or.inl rfl | (apply Or.inr; apply Piece.mem_of; rfl) | exact Or.inr (by simp; done) | (refine Or.inr ⟨?_, ?_⟩ <;> first | (apply Or.inl; apply Piece.mem_of; rfl) | exact Or.inl (by simp; done) | with_reducible exact Or.inr rfl | with_reducible exact Or.inr ⟨rfl, rfl, rfl, rfl⟩ | with_reducible exact Or.inr ⟨rfl, rfl, rfl, rfl, rfl⟩ | (refine ⟨?_, ?_⟩ <;> first | (apply Or.inl; apply Piece.mem_of; rfl) | exact Or.inl (by simp; done) | with_reducible exact Or.inr rfl)) | skip)
    | with_reducible apply Block.endScrub_keeps
    | with_reducible apply Block.cutStackReset_keeps
    | with_reducible apply Block.dmanLow_keeps
    | with_reducible apply Block.dropLinks_keeps
    | with_reducible apply Block.abandonAll_keeps
    | with_reducible apply Block.dropWaiters_keeps
    | with_reducible apply Block.endRunning_keeps
    | with_reducible apply Kept.ite
    | split

theorem Block.coreDark_keeps {qs : List Piece} {a₀ b : Block} (inside : Within [.berths, .chans, .chs, .ck, .cnt, .doms, .events, .fws, .ins, .lanes, .prot, .qy, .regs, .running, .sides, .slots, .stk, .sv, .tl] qs) (before : Kept qs a₀ b) :
    Kept qs a₀ (Block.coreDark b) := Kept.step (Block.coreDark_kept _) inside before

theorem Block.abandonDeparture_kept (b : Block) : Kept [.lg, .pw, .reg Off.pwAlarm] b (Block.abandonDeparture b) := by
  unfold Block.abandonDeparture
  repeat' first
    | with_reducible assumption
    | with_reducible apply Kept.refl
    | with_reducible apply Within.refl
    | ((with_reducible apply Within.of); rfl)
    | ((with_reducible apply Within.cons); (apply Piece.inside_of; rfl))
    | ((with_reducible apply Within.cons); apply Or.inr)
    | with_reducible apply Within.nil
    | with_reducible apply List.mem_cons_self
    | with_reducible apply List.mem_cons_of_mem
    | (extract_lets +onlyGivenNames x
       first
       | (guard_hyp x : Block := _
          refine Kept.cut (ps := [.lg, .pw, .reg Off.pwAlarm]) (b := b) (x := x) ?_ fun hx => ?_
          on_goal 1 => subst x
          on_goal 2 => try clear_value x)
       | (guard_hyp x : Power := _; subst x)
       | (guard_hyp x : Logbook := _; subst x)
       | clear_value x
       | skip)
    | (simp only [Kept.by_fields]; with_reducible apply Kept.fields <;>
         first | with_reducible exact Or.inl rfl | (apply Or.inr; apply Piece.mem_of; rfl) | exact Or.inr (by simp; done) | (refine Or.inr ⟨?_, ?_⟩ <;> first | (apply Or.inl; apply Piece.mem_of; rfl) | exact Or.inl (by simp; done) | with_reducible exact Or.inr rfl | with_reducible exact Or.inr ⟨rfl, rfl, rfl, rfl⟩ | with_reducible exact Or.inr ⟨rfl, rfl, rfl, rfl, rfl⟩ | (refine ⟨?_, ?_⟩ <;> first | (apply Or.inl; apply Piece.mem_of; rfl) | exact Or.inl (by simp; done) | with_reducible exact Or.inr rfl)) | skip)
    | with_reducible apply Block.orReg_keeps
    | with_reducible apply Kept.ite
    | split

theorem Block.abandonDeparture_keeps {qs : List Piece} {a₀ b : Block} (inside : Within [.lg, .pw, .reg Off.pwAlarm] qs) (before : Kept qs a₀ b) :
    Kept qs a₀ (Block.abandonDeparture b) := Kept.step (Block.abandonDeparture_kept _) inside before

theorem Block.drawCut_kept (b : Block) : Kept [.fresh] b (Block.drawCut b) := by
  unfold Block.drawCut
  repeat' first
    | with_reducible assumption
    | with_reducible apply Kept.refl
    | with_reducible apply Within.refl
    | ((with_reducible apply Within.of); rfl)
    | ((with_reducible apply Within.cons); (apply Piece.inside_of; rfl))
    | ((with_reducible apply Within.cons); apply Or.inr)
    | with_reducible apply Within.nil
    | with_reducible apply List.mem_cons_self
    | with_reducible apply List.mem_cons_of_mem
    | (simp only [Kept.by_fields]; with_reducible apply Kept.fields <;>
         first | with_reducible exact Or.inl rfl | (apply Or.inr; apply Piece.mem_of; rfl) | exact Or.inr (by simp; done) | (refine Or.inr ⟨?_, ?_⟩ <;> first | (apply Or.inl; apply Piece.mem_of; rfl) | exact Or.inl (by simp; done) | with_reducible exact Or.inr rfl | with_reducible exact Or.inr ⟨rfl, rfl, rfl, rfl⟩ | with_reducible exact Or.inr ⟨rfl, rfl, rfl, rfl, rfl⟩ | (refine ⟨?_, ?_⟩ <;> first | (apply Or.inl; apply Piece.mem_of; rfl) | exact Or.inl (by simp; done) | with_reducible exact Or.inr rfl)) | skip)

theorem Block.drawCut_keeps {qs : List Piece} {a₀ b : Block} (inside : Within [.fresh] qs) (before : Kept qs a₀ b) :
    Kept qs a₀ (Block.drawCut b) := Kept.step (Block.drawCut_kept _) inside before

theorem Block.linksReset_kept (b : Block) (p : Nat → Bool) : Kept [.fws, .lanes] b (Block.linksReset b p) := by
  unfold Block.linksReset
  repeat' first
    | with_reducible assumption
    | with_reducible apply Kept.refl
    | with_reducible apply Within.refl
    | ((with_reducible apply Within.of); rfl)
    | ((with_reducible apply Within.cons); (apply Piece.inside_of; rfl))
    | ((with_reducible apply Within.cons); apply Or.inr)
    | with_reducible apply Within.nil
    | with_reducible apply List.mem_cons_self
    | with_reducible apply List.mem_cons_of_mem
    | (extract_lets +onlyGivenNames x
       first
       | (guard_hyp x : Block := _
          refine Kept.cut (ps := [.fws, .lanes]) (b := b) (x := x) ?_ fun hx => ?_
          on_goal 1 => subst x
          on_goal 2 => try clear_value x)
       | clear_value x
       | skip)
    | (simp only [Kept.by_fields]; with_reducible apply Kept.fields <;>
         first | with_reducible exact Or.inl rfl | (apply Or.inr; apply Piece.mem_of; rfl) | exact Or.inr (by simp; done) | (refine Or.inr ⟨?_, ?_⟩ <;> first | (apply Or.inl; apply Piece.mem_of; rfl) | exact Or.inl (by simp; done) | with_reducible exact Or.inr rfl | with_reducible exact Or.inr ⟨rfl, rfl, rfl, rfl⟩ | with_reducible exact Or.inr ⟨rfl, rfl, rfl, rfl, rfl⟩ | (refine ⟨?_, ?_⟩ <;> first | (apply Or.inl; apply Piece.mem_of; rfl) | exact Or.inl (by simp; done) | with_reducible exact Or.inr rfl)) | skip)
    | (with_reducible apply Kept.each; intro _ _ _)
    | with_reducible apply Block.modLane_keeps
    | with_reducible apply Kept.ite
    | split

theorem Block.linksReset_keeps {qs : List Piece} {a₀ b : Block} {p : Nat → Bool} (inside : Within [.fws, .lanes] qs) (before : Kept qs a₀ b) :
    Kept qs a₀ (Block.linksReset b p) := Kept.step (Block.linksReset_kept _ _) inside before

theorem Block.domsReset_kept (b : Block) (p : Nat → Bool) : Kept [.cnt, .fws, .hold, .lanes, .regs, .sel, .tl] b (Block.domsReset b p) := by
  unfold Block.domsReset
  repeat' first
    | with_reducible assumption
    | with_reducible apply Kept.refl
    | with_reducible apply Within.refl
    | ((with_reducible apply Within.of); rfl)
    | ((with_reducible apply Within.cons); (apply Piece.inside_of; rfl))
    | ((with_reducible apply Within.cons); apply Or.inr)
    | with_reducible apply Within.nil
    | with_reducible apply List.mem_cons_self
    | with_reducible apply List.mem_cons_of_mem
    | (extract_lets +onlyGivenNames x
       first
       | (guard_hyp x : Block := _
          refine Kept.cut (ps := [.cnt, .fws, .hold, .lanes, .regs, .sel, .tl]) (b := b) (x := x) ?_ fun hx => ?_
          on_goal 1 => subst x
          on_goal 2 => try clear_value x)
       | clear_value x
       | skip)
    | (simp only [Kept.by_fields]; with_reducible apply Kept.fields <;>
         first | with_reducible exact Or.inl rfl | (apply Or.inr; apply Piece.mem_of; rfl) | exact Or.inr (by simp; done) | (refine Or.inr ⟨?_, ?_⟩ <;> first | (apply Or.inl; apply Piece.mem_of; rfl) | exact Or.inl (by simp; done) | with_reducible exact Or.inr rfl | with_reducible exact Or.inr ⟨rfl, rfl, rfl, rfl⟩ | with_reducible exact Or.inr ⟨rfl, rfl, rfl, rfl, rfl⟩ | (refine ⟨?_, ?_⟩ <;> first | (apply Or.inl; apply Piece.mem_of; rfl) | exact Or.inl (by simp; done) | with_reducible exact Or.inr rfl)) | skip)
    | with_reducible apply Block.linksReset_keeps
    | with_reducible apply Block.resetRegs_keeps
    | with_reducible apply Kept.ite
    | split

theorem Block.domsReset_keeps {qs : List Piece} {a₀ b : Block} {p : Nat → Bool} (inside : Within [.cnt, .fws, .hold, .lanes, .regs, .sel, .tl] qs) (before : Kept qs a₀ b) :
    Kept qs a₀ (Block.domsReset b p) := Kept.step (Block.domsReset_kept _ _) inside before

theorem Block.domReset_kept (b : Block) (d : Nat) : Kept [.cnt, .fws, .hold, .lanes, .regs, .sel, .tl] b (Block.domReset b d) := by
  unfold Block.domReset
  repeat' first
    | with_reducible assumption
    | with_reducible apply Kept.refl
    | with_reducible apply Within.refl
    | ((with_reducible apply Within.of); rfl)
    | ((with_reducible apply Within.cons); (apply Piece.inside_of; rfl))
    | ((with_reducible apply Within.cons); apply Or.inr)
    | with_reducible apply Within.nil
    | with_reducible apply List.mem_cons_self
    | with_reducible apply List.mem_cons_of_mem
    | (extract_lets +onlyGivenNames x
       first
       | (guard_hyp x : Block := _
          refine Kept.cut (ps := [.cnt, .fws, .hold, .lanes, .regs, .sel, .tl]) (b := b) (x := x) ?_ fun hx => ?_
          on_goal 1 => subst x
          on_goal 2 => try clear_value x)
       | clear_value x
       | skip)
    | (simp only [Kept.by_fields]; with_reducible apply Kept.fields <;>
         first | with_reducible exact Or.inl rfl | (apply Or.inr; apply Piece.mem_of; rfl) | exact Or.inr (by simp; done) | (refine Or.inr ⟨?_, ?_⟩ <;> first | (apply Or.inl; apply Piece.mem_of; rfl) | exact Or.inl (by simp; done) | with_reducible exact Or.inr rfl | with_reducible exact Or.inr ⟨rfl, rfl, rfl, rfl⟩ | with_reducible exact Or.inr ⟨rfl, rfl, rfl, rfl, rfl⟩ | (refine ⟨?_, ?_⟩ <;> first | (apply Or.inl; apply Piece.mem_of; rfl) | exact Or.inl (by simp; done) | with_reducible exact Or.inr rfl)) | skip)
    | with_reducible apply Block.domsReset_keeps
    | with_reducible apply Kept.ite
    | split

theorem Block.domReset_keeps {qs : List Piece} {a₀ b : Block} {d : Nat} (inside : Within [.cnt, .fws, .hold, .lanes, .regs, .sel, .tl] qs) (before : Kept qs a₀ b) :
    Kept qs a₀ (Block.domReset b d) := Kept.step (Block.domReset_kept _ _) inside before

theorem Block.hmRestart_kept (b : Block) : Kept [.chs, .ck, .doms, .ins, .lanes, .mf, .reg Off.ckResetCause, .running, .sides, .slots, .sv] b (Block.hmRestart b) := by
  unfold Block.hmRestart
  repeat' first
    | with_reducible assumption
    | with_reducible apply Kept.refl
    | with_reducible apply Within.refl
    | ((with_reducible apply Within.of); rfl)
    | ((with_reducible apply Within.cons); (apply Piece.inside_of; rfl))
    | ((with_reducible apply Within.cons); apply Or.inr)
    | with_reducible apply Within.nil
    | with_reducible apply List.mem_cons_self
    | with_reducible apply List.mem_cons_of_mem
    | (extract_lets +onlyGivenNames x
       first
       | (guard_hyp x : Block := _
          refine Kept.cut (ps := [.chs, .ck, .doms, .ins, .lanes, .mf, .reg Off.ckResetCause, .running, .sides, .slots, .sv]) (b := b) (x := x) ?_ fun hx => ?_
          on_goal 1 => subst x
          on_goal 2 => try clear_value x)
       | (guard_hyp x : Clocks := _; subst x)
       | (guard_hyp x : Manifests := _; subst x)
       | clear_value x
       | skip)
    | (simp only [Kept.by_fields]; with_reducible apply Kept.fields <;>
         first | with_reducible exact Or.inl rfl | (apply Or.inr; apply Piece.mem_of; rfl) | exact Or.inr (by simp; done) | (refine Or.inr ⟨?_, ?_⟩ <;> first | (apply Or.inl; apply Piece.mem_of; rfl) | exact Or.inl (by simp; done) | with_reducible exact Or.inr rfl | with_reducible exact Or.inr ⟨rfl, rfl, rfl, rfl⟩ | with_reducible exact Or.inr ⟨rfl, rfl, rfl, rfl, rfl⟩ | (refine ⟨?_, ?_⟩ <;> first | (apply Or.inl; apply Piece.mem_of; rfl) | exact Or.inl (by simp; done) | with_reducible exact Or.inr rfl)) | skip)
    | with_reducible apply Block.dropWaiters_keeps
    | with_reducible apply Block.endRunning_keeps
    | with_reducible apply Block.orReg_keeps
    | with_reducible apply Kept.ite
    | split

theorem Block.hmRestart_keeps {qs : List Piece} {a₀ b : Block} (inside : Within [.chs, .ck, .doms, .ins, .lanes, .mf, .reg Off.ckResetCause, .running, .sides, .slots, .sv] qs) (before : Kept qs a₀ b) :
    Kept qs a₀ (Block.hmRestart b) := Kept.step (Block.hmRestart_kept _) inside before

theorem Block.deadSwitch_kept (b : Block) (dom : Nat) : Kept [.chs, .ck, .cnt, .doms, .events, .fws, .hold, .ins, .lanes, .mf, .regs, .running, .sel, .sides, .slots, .sv, .tl] b (Block.deadSwitch b dom) := by
  unfold Block.deadSwitch
  repeat' first
    | with_reducible assumption
    | with_reducible apply Kept.refl
    | with_reducible apply Within.refl
    | ((with_reducible apply Within.of); rfl)
    | ((with_reducible apply Within.cons); (apply Piece.inside_of; rfl))
    | ((with_reducible apply Within.cons); apply Or.inr)
    | with_reducible apply Within.nil
    | with_reducible apply List.mem_cons_self
    | with_reducible apply List.mem_cons_of_mem
    | (extract_lets +onlyGivenNames x
       first
       | (guard_hyp x : Block := _
          refine Kept.cut (ps := [.chs, .ck, .cnt, .doms, .events, .fws, .hold, .ins, .lanes, .mf, .regs, .running, .sel, .sides, .slots, .sv, .tl]) (b := b) (x := x) ?_ fun hx => ?_
          on_goal 1 => subst x
          on_goal 2 => try clear_value x)
       | clear_value x
       | skip)
    | (simp only [Kept.by_fields]; with_reducible apply Kept.fields <;>
         first | with_reducible exact Or.inl rfl | (apply Or.inr; apply Piece.mem_of; rfl) | exact Or.inr (by simp; done) | (refine Or.inr ⟨?_, ?_⟩ <;> first | (apply Or.inl; apply Piece.mem_of; rfl) | exact Or.inl (by simp; done) | with_reducible exact Or.inr rfl | with_reducible exact Or.inr ⟨rfl, rfl, rfl, rfl⟩ | with_reducible exact Or.inr ⟨rfl, rfl, rfl, rfl, rfl⟩ | (refine ⟨?_, ?_⟩ <;> first | (apply Or.inl; apply Piece.mem_of; rfl) | exact Or.inl (by simp; done) | with_reducible exact Or.inr rfl)) | skip)
    | with_reducible apply Block.event_keeps
    | with_reducible apply Block.orReg_keeps
    | with_reducible apply Block.hmRestart_keeps
    | with_reducible apply Block.domReset_keeps
    | with_reducible apply Block.endRunning_keeps
    | with_reducible apply Kept.ite
    | split

theorem Block.deadSwitch_keeps {qs : List Piece} {a₀ b : Block} {dom : Nat} (inside : Within [.chs, .ck, .cnt, .doms, .events, .fws, .hold, .ins, .lanes, .mf, .regs, .running, .sel, .sides, .slots, .sv, .tl] qs) (before : Kept qs a₀ b) :
    Kept qs a₀ (Block.deadSwitch b dom) := Kept.step (Block.deadSwitch_kept _ _) inside before

theorem Block.moveAonHk_kept (b : Block) (bad : ClkSrc → Bool) (dst : ClkSrc) (aonDead : Bool) (hkDead : Bool) : Kept [.chs, .ck, .cnt, .doms, .events, .fws, .hold, .ins, .lanes, .mf, .regs, .running, .sel, .sides, .slots, .sv, .tl] b (Block.moveAonHk b bad dst aonDead hkDead) := by
  unfold Block.moveAonHk
  repeat' first
    | with_reducible assumption
    | with_reducible apply Kept.refl
    | with_reducible apply Within.refl
    | ((with_reducible apply Within.of); rfl)
    | ((with_reducible apply Within.cons); (apply Piece.inside_of; rfl))
    | ((with_reducible apply Within.cons); apply Or.inr)
    | with_reducible apply Within.nil
    | with_reducible apply List.mem_cons_self
    | with_reducible apply List.mem_cons_of_mem
    | (extract_lets +onlyGivenNames x
       first
       | (guard_hyp x : Block := _
          refine Kept.cut (ps := [.chs, .ck, .cnt, .doms, .events, .fws, .hold, .ins, .lanes, .mf, .regs, .running, .sel, .sides, .slots, .sv, .tl]) (b := b) (x := x) ?_ fun hx => ?_
          on_goal 1 => subst x
          on_goal 2 => try clear_value x)
       | (guard_hyp x : Clocks := _; subst x)
       | clear_value x
       | skip)
    | (simp only [Kept.by_fields]; with_reducible apply Kept.fields <;>
         first | with_reducible exact Or.inl rfl | (apply Or.inr; apply Piece.mem_of; rfl) | exact Or.inr (by simp; done) | (refine Or.inr ⟨?_, ?_⟩ <;> first | (apply Or.inl; apply Piece.mem_of; rfl) | exact Or.inl (by simp; done) | with_reducible exact Or.inr rfl | with_reducible exact Or.inr ⟨rfl, rfl, rfl, rfl⟩ | with_reducible exact Or.inr ⟨rfl, rfl, rfl, rfl, rfl⟩ | (refine ⟨?_, ?_⟩ <;> first | (apply Or.inl; apply Piece.mem_of; rfl) | exact Or.inl (by simp; done) | with_reducible exact Or.inr rfl)) | skip)
    | with_reducible apply Block.deadSwitch_keeps
    | with_reducible apply Kept.ite
    | split

theorem Block.moveAonHk_keeps {qs : List Piece} {a₀ b : Block} {bad : ClkSrc → Bool} {dst : ClkSrc} {aonDead : Bool} {hkDead : Bool} (inside : Within [.chs, .ck, .cnt, .doms, .events, .fws, .hold, .ins, .lanes, .mf, .regs, .running, .sel, .sides, .slots, .sv, .tl] qs) (before : Kept qs a₀ b) :
    Kept qs a₀ (Block.moveAonHk b bad dst aonDead hkDead) := Kept.step (Block.moveAonHk_kept _ _ _ _ _) inside before

theorem Block.abortSwitches_kept (b : Block) (bad : ClkSrc → Bool) : Kept [.ins, .running, .slots] b (Block.abortSwitches b bad) := by
  unfold Block.abortSwitches
  repeat' first
    | with_reducible assumption
    | with_reducible apply Kept.refl
    | with_reducible apply Within.refl
    | ((with_reducible apply Within.of); rfl)
    | ((with_reducible apply Within.cons); (apply Piece.inside_of; rfl))
    | ((with_reducible apply Within.cons); apply Or.inr)
    | with_reducible apply Within.nil
    | with_reducible apply List.mem_cons_self
    | with_reducible apply List.mem_cons_of_mem
    | with_reducible apply Block.endRunning_keeps
    | with_reducible apply Kept.ite
    | split

theorem Block.abortSwitches_keeps {qs : List Piece} {a₀ b : Block} {bad : ClkSrc → Bool} (inside : Within [.ins, .running, .slots] qs) (before : Kept qs a₀ b) :
    Kept qs a₀ (Block.abortSwitches b bad) := Kept.step (Block.abortSwitches_kept _ _) inside before

theorem Block.xtalFrozen_kept (b : Block) : Kept [.ck, .events, .reg Off.ckAlarm, .reg Off.lgAlarm] b (Block.xtalFrozen b) := by
  unfold Block.xtalFrozen
  repeat' first
    | with_reducible assumption
    | with_reducible apply Kept.refl
    | with_reducible apply Within.refl
    | ((with_reducible apply Within.of); rfl)
    | ((with_reducible apply Within.cons); (apply Piece.inside_of; rfl))
    | ((with_reducible apply Within.cons); apply Or.inr)
    | with_reducible apply Within.nil
    | with_reducible apply List.mem_cons_self
    | with_reducible apply List.mem_cons_of_mem
    | (extract_lets +onlyGivenNames x
       first
       | (guard_hyp x : Block := _
          refine Kept.cut (ps := [.ck, .events, .reg Off.ckAlarm, .reg Off.lgAlarm]) (b := b) (x := x) ?_ fun hx => ?_
          on_goal 1 => subst x
          on_goal 2 => try clear_value x)
       | (guard_hyp x : Clocks := _; subst x)
       | clear_value x
       | skip)
    | (simp only [Kept.by_fields]; with_reducible apply Kept.fields <;>
         first | with_reducible exact Or.inl rfl | (apply Or.inr; apply Piece.mem_of; rfl) | exact Or.inr (by simp; done) | (refine Or.inr ⟨?_, ?_⟩ <;> first | (apply Or.inl; apply Piece.mem_of; rfl) | exact Or.inl (by simp; done) | with_reducible exact Or.inr rfl | with_reducible exact Or.inr ⟨rfl, rfl, rfl, rfl⟩ | with_reducible exact Or.inr ⟨rfl, rfl, rfl, rfl, rfl⟩ | (refine ⟨?_, ?_⟩ <;> first | (apply Or.inl; apply Piece.mem_of; rfl) | exact Or.inl (by simp; done) | with_reducible exact Or.inr rfl)) | skip)
    | with_reducible apply Block.event_keeps
    | with_reducible apply Block.orReg_keeps
    | with_reducible apply Kept.ite
    | split

theorem Block.xtalFrozen_keeps {qs : List Piece} {a₀ b : Block} (inside : Within [.ck, .events, .reg Off.ckAlarm, .reg Off.lgAlarm] qs) (before : Kept qs a₀ b) :
    Kept qs a₀ (Block.xtalFrozen b) := Kept.step (Block.xtalFrozen_kept _) inside before

theorem Block.xtalFail_kept (b : Block) (aonDead : Bool) (hkDead : Bool) : Kept [.berths, .chans, .chs, .ck, .cnt, .doms, .events, .fws, .hold, .ins, .lanes, .lg, .mf, .prot, .pw, .qy, .regs, .running, .sel, .sides, .slots, .stk, .sv, .tide, .tl] b (Block.xtalFail b aonDead hkDead) := by
  unfold Block.xtalFail
  repeat' first
    | with_reducible assumption
    | with_reducible apply Kept.refl
    | with_reducible apply Within.refl
    | ((with_reducible apply Within.of); rfl)
    | ((with_reducible apply Within.cons); (apply Piece.inside_of; rfl))
    | ((with_reducible apply Within.cons); apply Or.inr)
    | with_reducible apply Within.nil
    | with_reducible apply List.mem_cons_self
    | with_reducible apply List.mem_cons_of_mem
    | (extract_lets +onlyGivenNames x
       first
       | (guard_hyp x : Block := _
          refine Kept.cut (ps := [.berths, .chans, .chs, .ck, .cnt, .doms, .events, .fws, .hold, .ins, .lanes, .lg, .mf, .prot, .pw, .qy, .regs, .running, .sel, .sides, .slots, .stk, .sv, .tide, .tl]) (b := b) (x := x) ?_ fun hx => ?_
          on_goal 1 => subst x
          on_goal 2 => try clear_value x)
       | (guard_hyp x : Clocks := _; subst x)
       | clear_value x
       | skip)
    | (simp only [Kept.by_fields]; with_reducible apply Kept.fields <;>
         first | with_reducible exact Or.inl rfl | (apply Or.inr; apply Piece.mem_of; rfl) | exact Or.inr (by simp; done) | (refine Or.inr ⟨?_, ?_⟩ <;> first | (apply Or.inl; apply Piece.mem_of; rfl) | exact Or.inl (by simp; done) | with_reducible exact Or.inr rfl | with_reducible exact Or.inr ⟨rfl, rfl, rfl, rfl⟩ | with_reducible exact Or.inr ⟨rfl, rfl, rfl, rfl, rfl⟩ | (refine ⟨?_, ?_⟩ <;> first | (apply Or.inl; apply Piece.mem_of; rfl) | exact Or.inl (by simp; done) | with_reducible exact Or.inr rfl)) | skip)
    | with_reducible apply Block.xtalFrozen_keeps
    | with_reducible apply Block.abortSwitches_keeps
    | with_reducible apply Block.coreDark_keeps
    | with_reducible apply Block.moveAonHk_keeps
    | with_reducible apply Block.abandonDeparture_keeps
    | with_reducible apply Block.event_keeps
    | with_reducible apply Block.orReg_keeps
    | with_reducible apply Kept.ite
    | split

theorem Block.xtalFail_keeps {qs : List Piece} {a₀ b : Block} {aonDead : Bool} {hkDead : Bool} (inside : Within [.berths, .chans, .chs, .ck, .cnt, .doms, .events, .fws, .hold, .ins, .lanes, .lg, .mf, .prot, .pw, .qy, .regs, .running, .sel, .sides, .slots, .stk, .sv, .tide, .tl] qs) (before : Kept qs a₀ b) :
    Kept qs a₀ (Block.xtalFail b aonDead hkDead) := Kept.step (Block.xtalFail_kept _ _ _) inside before

theorem Block.failRoot_kept (b : Block) : Kept [.ck] b (Block.failRoot b) := by
  unfold Block.failRoot
  simp only [Kept.by_fields]; with_reducible apply Kept.fields <;>
         first | exact Kept.refl _ _ | with_reducible exact Or.inl rfl | (apply Or.inr; apply Piece.mem_of; rfl) | exact Or.inr (by simp; done) | (refine Or.inr ⟨?_, ?_⟩ <;> first | (apply Or.inl; apply Piece.mem_of; rfl) | exact Or.inl (by simp; done) | with_reducible exact Or.inr rfl | with_reducible exact Or.inr ⟨rfl, rfl, rfl, rfl⟩ | with_reducible exact Or.inr ⟨rfl, rfl, rfl, rfl, rfl⟩ | (refine ⟨?_, ?_⟩ <;> first | (apply Or.inl; apply Piece.mem_of; rfl) | exact Or.inl (by simp; done) | with_reducible exact Or.inr rfl))

theorem Block.failRoot_keeps {qs : List Piece} {a₀ b : Block} (inside : Within [.ck] qs) (before : Kept qs a₀ b) :
    Kept qs a₀ (Block.failRoot b) := Kept.step (Block.failRoot_kept _) inside before

theorem Block.rootLost_kept (b : Block) (aonDead : Bool) (hkDead : Bool) : Kept [.berths, .chans, .chs, .ck, .cnt, .doms, .events, .fws, .hold, .ins, .lanes, .lg, .mf, .prot, .pw, .qy, .regs, .running, .sel, .sides, .slots, .stk, .sv, .tl] b (Block.rootLost b aonDead hkDead) := by
  unfold Block.rootLost
  repeat' first
    | with_reducible assumption
    | with_reducible apply Kept.refl
    | with_reducible apply Within.refl
    | ((with_reducible apply Within.of); rfl)
    | ((with_reducible apply Within.cons); (apply Piece.inside_of; rfl))
    | ((with_reducible apply Within.cons); apply Or.inr)
    | with_reducible apply Within.nil
    | with_reducible apply List.mem_cons_self
    | with_reducible apply List.mem_cons_of_mem
    | (extract_lets +onlyGivenNames x
       first
       | (guard_hyp x : Block := _
          refine Kept.cut (ps := [.berths, .chans, .chs, .ck, .cnt, .doms, .events, .fws, .hold, .ins, .lanes, .lg, .mf, .prot, .pw, .qy, .regs, .running, .sel, .sides, .slots, .stk, .sv, .tl]) (b := b) (x := x) ?_ fun hx => ?_
          on_goal 1 => subst x
          on_goal 2 => try clear_value x)
       | clear_value x
       | skip)
    | with_reducible apply Block.event_keeps
    | with_reducible apply Block.orReg_keeps
    | with_reducible apply Block.failRoot_keeps
    | with_reducible apply Block.moveAonHk_keeps
    | with_reducible apply Block.coreDark_keeps
    | with_reducible apply Block.abortSwitches_keeps
    | with_reducible apply Block.abandonDeparture_keeps
    | with_reducible apply Kept.ite
    | split

theorem Block.rootLost_keeps {qs : List Piece} {a₀ b : Block} {aonDead : Bool} {hkDead : Bool} (inside : Within [.berths, .chans, .chs, .ck, .cnt, .doms, .events, .fws, .hold, .ins, .lanes, .lg, .mf, .prot, .pw, .qy, .regs, .running, .sel, .sides, .slots, .stk, .sv, .tl] qs) (before : Kept qs a₀ b) :
    Kept qs a₀ (Block.rootLost b aonDead hkDead) := Kept.step (Block.rootLost_kept _ _ _) inside before

theorem Block.lanePllFail_kept (b : Block) (sd : Side) (refLost : Bool) : Kept [.ck, .cnt, .events, .fws, .ins, .lanes, .mf, .pw, .qy, .regs, .running, .sides, .slots, .tl] b (Block.lanePllFail b sd refLost) := by
  unfold Block.lanePllFail
  repeat' first
    | with_reducible assumption
    | with_reducible apply Kept.refl
    | with_reducible apply Within.refl
    | ((with_reducible apply Within.of); rfl)
    | ((with_reducible apply Within.cons); (apply Piece.inside_of; rfl))
    | ((with_reducible apply Within.cons); apply Or.inr)
    | with_reducible apply Within.nil
    | with_reducible apply List.mem_cons_self
    | with_reducible apply List.mem_cons_of_mem
    | (extract_lets +onlyGivenNames x
       first
       | (guard_hyp x : Block := _
          refine Kept.cut (ps := [.ck, .cnt, .events, .fws, .ins, .lanes, .mf, .pw, .qy, .regs, .running, .sides, .slots, .tl]) (b := b) (x := x) ?_ fun hx => ?_
          on_goal 1 => subst x
          on_goal 2 => try clear_value x)
       | clear_value x
       | skip)
    | with_reducible apply Block.modSide_keeps
    | with_reducible apply Block.setPll_keeps
    | with_reducible apply Block.wakeWaiter_keeps
    | with_reducible apply Block.freshCaps_keeps
    | with_reducible apply Block.dropSide_keeps
    | with_reducible apply Block.orReg_keeps
    | with_reducible apply Block.checkOpen_keeps
    | with_reducible apply Block.event_keeps
    | with_reducible apply Kept.ite
    | split

theorem Block.lanePllFail_keeps {qs : List Piece} {a₀ b : Block} {sd : Side} {refLost : Bool} (inside : Within [.ck, .cnt, .events, .fws, .ins, .lanes, .mf, .pw, .qy, .regs, .running, .sides, .slots, .tl] qs) (before : Kept qs a₀ b) :
    Kept qs a₀ (Block.lanePllFail b sd refLost) := Kept.step (Block.lanePllFail_kept _ _ _) inside before

theorem Block.rcFail_kept (b : Block) : Kept [.ck, .events, .ins, .reg Off.ckAlarm, .reg Off.lgAlarm, .running, .slots] b (Block.rcFail b) := by
  unfold Block.rcFail
  repeat' first
    | with_reducible assumption
    | with_reducible apply Kept.refl
    | with_reducible apply Within.refl
    | ((with_reducible apply Within.of); rfl)
    | ((with_reducible apply Within.cons); (apply Piece.inside_of; rfl))
    | ((with_reducible apply Within.cons); apply Or.inr)
    | with_reducible apply Within.nil
    | with_reducible apply List.mem_cons_self
    | with_reducible apply List.mem_cons_of_mem
    | (extract_lets +onlyGivenNames x
       first
       | (guard_hyp x : Block := _
          refine Kept.cut (ps := [.ck, .events, .ins, .reg Off.ckAlarm, .reg Off.lgAlarm, .running, .slots]) (b := b) (x := x) ?_ fun hx => ?_
          on_goal 1 => subst x
          on_goal 2 => try clear_value x)
       | (guard_hyp x : Clocks := _; subst x)
       | clear_value x
       | skip)
    | (simp only [Kept.by_fields]; with_reducible apply Kept.fields <;>
         first | with_reducible exact Or.inl rfl | (apply Or.inr; apply Piece.mem_of; rfl) | exact Or.inr (by simp; done) | (refine Or.inr ⟨?_, ?_⟩ <;> first | (apply Or.inl; apply Piece.mem_of; rfl) | exact Or.inl (by simp; done) | with_reducible exact Or.inr rfl | with_reducible exact Or.inr ⟨rfl, rfl, rfl, rfl⟩ | with_reducible exact Or.inr ⟨rfl, rfl, rfl, rfl, rfl⟩ | (refine ⟨?_, ?_⟩ <;> first | (apply Or.inl; apply Piece.mem_of; rfl) | exact Or.inl (by simp; done) | with_reducible exact Or.inr rfl)) | skip)
    | with_reducible apply Block.orReg_keeps
    | with_reducible apply Block.abortSwitches_keeps
    | with_reducible apply Block.event_keeps
    | with_reducible apply Kept.ite
    | split

theorem Block.rcFail_keeps {qs : List Piece} {a₀ b : Block} (inside : Within [.ck, .events, .ins, .reg Off.ckAlarm, .reg Off.lgAlarm, .running, .slots] qs) (before : Kept qs a₀ b) :
    Kept qs a₀ (Block.rcFail b) := Kept.step (Block.rcFail_kept _) inside before

theorem Block.railEvent_kept (b : Block) (r : Rail) : Kept [.events, .lg, .pins, .pw, .reg Off.lgAlarm, .reg Off.pwAlarm] b (Block.railEvent b r) := by
  unfold Block.railEvent
  repeat' first
    | with_reducible assumption
    | with_reducible apply Kept.refl
    | with_reducible apply Within.refl
    | ((with_reducible apply Within.of); rfl)
    | ((with_reducible apply Within.cons); (apply Piece.inside_of; rfl))
    | ((with_reducible apply Within.cons); apply Or.inr)
    | with_reducible apply Within.nil
    | with_reducible apply List.mem_cons_self
    | with_reducible apply List.mem_cons_of_mem
    | (extract_lets +onlyGivenNames x
       first
       | (guard_hyp x : Block := _
          refine Kept.cut (ps := [.events, .lg, .pins, .pw, .reg Off.lgAlarm, .reg Off.pwAlarm]) (b := b) (x := x) ?_ fun hx => ?_
          on_goal 1 => subst x
          on_goal 2 => try clear_value x)
       | (guard_hyp x : Power := _; subst x)
       | (guard_hyp x : Logbook := _; subst x)
       | clear_value x
       | skip)
    | (simp only [Kept.by_fields]; with_reducible apply Kept.fields <;>
         first | with_reducible exact Or.inl rfl | (apply Or.inr; apply Piece.mem_of; rfl) | exact Or.inr (by simp; done) | (refine Or.inr ⟨?_, ?_⟩ <;> first | (apply Or.inl; apply Piece.mem_of; rfl) | exact Or.inl (by simp; done) | with_reducible exact Or.inr rfl | with_reducible exact Or.inr ⟨rfl, rfl, rfl, rfl⟩ | with_reducible exact Or.inr ⟨rfl, rfl, rfl, rfl, rfl⟩ | (refine ⟨?_, ?_⟩ <;> first | (apply Or.inl; apply Piece.mem_of; rfl) | exact Or.inl (by simp; done) | with_reducible exact Or.inr rfl)) | skip)
    | with_reducible apply Block.orReg_keeps
    | with_reducible apply Block.event_keeps
    | with_reducible apply Kept.ite
    | split

theorem Block.railEvent_keeps {qs : List Piece} {a₀ b : Block} {r : Rail} (inside : Within [.events, .lg, .pins, .pw, .reg Off.lgAlarm, .reg Off.pwAlarm] qs) (before : Kept qs a₀ b) :
    Kept qs a₀ (Block.railEvent b r) := Kept.step (Block.railEvent_kept _ _) inside before

theorem Block.stackRailFault_kept (b : Block) : Kept [.berths, .chans, .chs, .cnt, .events, .fws, .ins, .lanes, .mf, .pw, .qy, .regs, .sides, .stk, .tl] b (Block.stackRailFault b) := by
  unfold Block.stackRailFault
  repeat' first
    | with_reducible assumption
    | with_reducible apply Kept.refl
    | with_reducible apply Within.refl
    | ((with_reducible apply Within.of); rfl)
    | ((with_reducible apply Within.cons); (apply Piece.inside_of; rfl))
    | ((with_reducible apply Within.cons); apply Or.inr)
    | with_reducible apply Within.nil
    | with_reducible apply List.mem_cons_self
    | with_reducible apply List.mem_cons_of_mem
    | (extract_lets +onlyGivenNames x
       first
       | (guard_hyp x : Block := _
          refine Kept.cut (ps := [.berths, .chans, .chs, .cnt, .events, .fws, .ins, .lanes, .mf, .pw, .qy, .regs, .sides, .stk, .tl]) (b := b) (x := x) ?_ fun hx => ?_
          on_goal 1 => subst x
          on_goal 2 => try clear_value x)
       | clear_value x
       | skip)
    | (simp only [Kept.by_fields]; with_reducible apply Kept.fields <;>
         first | with_reducible exact Or.inl rfl | (apply Or.inr; apply Piece.mem_of; rfl) | exact Or.inr (by simp; done) | (refine Or.inr ⟨?_, ?_⟩ <;> first | (apply Or.inl; apply Piece.mem_of; rfl) | exact Or.inl (by simp; done) | with_reducible exact Or.inr rfl | with_reducible exact Or.inr ⟨rfl, rfl, rfl, rfl⟩ | with_reducible exact Or.inr ⟨rfl, rfl, rfl, rfl, rfl⟩ | (refine ⟨?_, ?_⟩ <;> first | (apply Or.inl; apply Piece.mem_of; rfl) | exact Or.inl (by simp; done) | with_reducible exact Or.inr rfl)) | skip)
    | with_reducible apply Block.fenceRunning_keeps
    | with_reducible apply Kept.ite
    | split

theorem Block.stackRailFault_keeps {qs : List Piece} {a₀ b : Block} (inside : Within [.berths, .chans, .chs, .cnt, .events, .fws, .ins, .lanes, .mf, .pw, .qy, .regs, .sides, .stk, .tl] qs) (before : Kept qs a₀ b) :
    Kept qs a₀ (Block.stackRailFault b) := Kept.step (Block.stackRailFault_kept _) inside before

theorem Block.railQuiet_kept (b : Block) (r : Rail) : Kept [.berths, .events, .lg, .pins, .pw, .reg Off.lgAlarm, .reg Off.pwAlarm, .stk] b (Block.railQuiet b r) := by
  unfold Block.railQuiet
  repeat' first
    | with_reducible assumption
    | with_reducible apply Kept.refl
    | with_reducible apply Within.refl
    | ((with_reducible apply Within.of); rfl)
    | ((with_reducible apply Within.cons); (apply Piece.inside_of; rfl))
    | ((with_reducible apply Within.cons); apply Or.inr)
    | with_reducible apply Within.nil
    | with_reducible apply List.mem_cons_self
    | with_reducible apply List.mem_cons_of_mem
    | (extract_lets +onlyGivenNames x
       first
       | (guard_hyp x : Block := _
          refine Kept.cut (ps := [.berths, .events, .lg, .pins, .pw, .reg Off.lgAlarm, .reg Off.pwAlarm, .stk]) (b := b) (x := x) ?_ fun hx => ?_
          on_goal 1 => subst x
          on_goal 2 => try clear_value x)
       | clear_value x
       | skip)
    | (simp only [Kept.by_fields]; with_reducible apply Kept.fields <;>
         first | with_reducible exact Or.inl rfl | (apply Or.inr; apply Piece.mem_of; rfl) | exact Or.inr (by simp; done) | (refine Or.inr ⟨?_, ?_⟩ <;> first | (apply Or.inl; apply Piece.mem_of; rfl) | exact Or.inl (by simp; done) | with_reducible exact Or.inr rfl | with_reducible exact Or.inr ⟨rfl, rfl, rfl, rfl⟩ | with_reducible exact Or.inr ⟨rfl, rfl, rfl, rfl, rfl⟩ | (refine ⟨?_, ?_⟩ <;> first | (apply Or.inl; apply Piece.mem_of; rfl) | exact Or.inl (by simp; done) | with_reducible exact Or.inr rfl)) | skip)
    | (with_reducible apply Kept.each; intro _ _ _)
    | with_reducible apply Block.railEvent_keeps
    | with_reducible apply Block.modBerth_keeps
    | with_reducible apply Kept.ite
    | split

theorem Block.railQuiet_keeps {qs : List Piece} {a₀ b : Block} {r : Rail} (inside : Within [.berths, .events, .lg, .pins, .pw, .reg Off.lgAlarm, .reg Off.pwAlarm, .stk] qs) (before : Kept qs a₀ b) :
    Kept qs a₀ (Block.railQuiet b r) := Kept.step (Block.railQuiet_kept _ _) inside before

theorem Block.linkUp_kept (b : Block) (sd : Side) : Kept [.events, .lanes, .regs, .sides] b (Block.linkUp b sd) := by
  unfold Block.linkUp
  repeat' first
    | with_reducible assumption
    | with_reducible apply Kept.refl
    | with_reducible apply Within.refl
    | ((with_reducible apply Within.of); rfl)
    | ((with_reducible apply Within.cons); (apply Piece.inside_of; rfl))
    | ((with_reducible apply Within.cons); apply Or.inr)
    | with_reducible apply Within.nil
    | with_reducible apply List.mem_cons_self
    | with_reducible apply List.mem_cons_of_mem
    | with_reducible apply Block.freshCaps_keeps
    | with_reducible apply Block.trainSide_keeps
    | with_reducible apply Block.modSide_keeps
    | with_reducible apply Kept.ite
    | split

theorem Block.linkUp_keeps {qs : List Piece} {a₀ b : Block} {sd : Side} (inside : Within [.events, .lanes, .regs, .sides] qs) (before : Kept qs a₀ b) :
    Kept qs a₀ (Block.linkUp b sd) := Kept.step (Block.linkUp_kept _ _) inside before

theorem Block.recoverDone_kept (b : Block) : Kept [.ck, .fresh, .ins, .running, .slots] b (Block.recoverDone b) := by
  unfold Block.recoverDone
  repeat' first
    | with_reducible assumption
    | with_reducible apply Kept.refl
    | with_reducible apply Within.refl
    | ((with_reducible apply Within.of); rfl)
    | ((with_reducible apply Within.cons); (apply Piece.inside_of; rfl))
    | ((with_reducible apply Within.cons); apply Or.inr)
    | with_reducible apply Within.nil
    | with_reducible apply List.mem_cons_self
    | with_reducible apply List.mem_cons_of_mem
    | (extract_lets +onlyGivenNames x
       first
       | (guard_hyp x : Block := _
          refine Kept.cut (ps := [.ck, .fresh, .ins, .running, .slots]) (b := b) (x := x) ?_ fun hx => ?_
          on_goal 1 => subst x
          on_goal 2 => try clear_value x)
       | (guard_hyp x : Clocks := _; subst x)
       | clear_value x
       | skip)
    | (simp only [Kept.by_fields]; with_reducible apply Kept.fields <;>
         first | with_reducible exact Or.inl rfl | (apply Or.inr; apply Piece.mem_of; rfl) | exact Or.inr (by simp; done) | (refine Or.inr ⟨?_, ?_⟩ <;> first | (apply Or.inl; apply Piece.mem_of; rfl) | exact Or.inl (by simp; done) | with_reducible exact Or.inr rfl | with_reducible exact Or.inr ⟨rfl, rfl, rfl, rfl⟩ | with_reducible exact Or.inr ⟨rfl, rfl, rfl, rfl, rfl⟩ | (refine ⟨?_, ?_⟩ <;> first | (apply Or.inl; apply Piece.mem_of; rfl) | exact Or.inl (by simp; done) | with_reducible exact Or.inr rfl)) | skip)
    | with_reducible apply Block.finish_keeps
    | with_reducible apply Block.draw_keeps
    | with_reducible apply Kept.ite
    | split

theorem Block.recoverDone_keeps {qs : List Piece} {a₀ b : Block} (inside : Within [.ck, .fresh, .ins, .running, .slots] qs) (before : Kept qs a₀ b) :
    Kept qs a₀ (Block.recoverDone b) := Kept.step (Block.recoverDone_kept _) inside before

theorem Block.restart_kept (b : Block) (pass : BitVec 64) (lost : BitVec 64) (flight : List (Nat × Nat)) : Kept [.berths, .chans, .chs, .ck, .cnt, .cols, .events, .fws, .hold, .ins, .lanes, .mf, .prot, .pw, .qy, .regs, .running, .sel, .sides, .slots, .stk, .tl] b (Block.restart b pass lost flight) := by
  unfold Block.restart
  repeat' first
    | with_reducible assumption
    | with_reducible apply Kept.refl
    | with_reducible apply Within.refl
    | ((with_reducible apply Within.of); rfl)
    | ((with_reducible apply Within.cons); (apply Piece.inside_of; rfl))
    | ((with_reducible apply Within.cons); apply Or.inr)
    | with_reducible apply Within.nil
    | with_reducible apply List.mem_cons_self
    | with_reducible apply List.mem_cons_of_mem
    | (extract_lets +onlyGivenNames x
       first
       | (guard_hyp x : Block := _
          refine Kept.cut (ps := [.berths, .chans, .chs, .ck, .cnt, .cols, .events, .fws, .hold, .ins, .lanes, .mf, .prot, .pw, .qy, .regs, .running, .sel, .sides, .slots, .stk, .tl]) (b := b) (x := x) ?_ fun hx => ?_
          on_goal 1 => subst x
          on_goal 2 => try clear_value x)
       | (guard_hyp x : Clocks := _; subst x)
       | clear_value x
       | skip)
    | (simp only [Kept.by_fields]; with_reducible apply Kept.fields <;>
         first | with_reducible exact Or.inl rfl | (apply Or.inr; apply Piece.mem_of; rfl) | exact Or.inr (by simp; done) | (refine Or.inr ⟨?_, ?_⟩ <;> first | (apply Or.inl; apply Piece.mem_of; rfl) | exact Or.inl (by simp; done) | with_reducible exact Or.inr rfl | with_reducible exact Or.inr ⟨rfl, rfl, rfl, rfl⟩ | with_reducible exact Or.inr ⟨rfl, rfl, rfl, rfl, rfl⟩ | (refine ⟨?_, ?_⟩ <;> first | (apply Or.inl; apply Piece.mem_of; rfl) | exact Or.inl (by simp; done) | with_reducible exact Or.inr rfl)) | skip)
    | with_reducible apply Block.orReg_keeps
    | with_reducible apply Block.domsReset_keeps
    | with_reducible apply Block.resetMemory_keeps
    | with_reducible apply Block.restoreMemory_keeps
    | with_reducible apply Block.linkUp_keeps
    | with_reducible apply Kept.ite
    | split

theorem Block.restart_keeps {qs : List Piece} {a₀ b : Block} {pass : BitVec 64} {lost : BitVec 64} {flight : List (Nat × Nat)} (inside : Within [.berths, .chans, .chs, .ck, .cnt, .cols, .events, .fws, .hold, .ins, .lanes, .mf, .prot, .pw, .qy, .regs, .running, .sel, .sides, .slots, .stk, .tl] qs) (before : Kept qs a₀ b) :
    Kept qs a₀ (Block.restart b pass lost flight) := Kept.step (Block.restart_kept _ _ _ _) inside before

theorem Block.recover_kept (b : Block) (m : ManRef) (action : Nat) : Kept [.ck, .ins, .running, .slots] b (Block.recover b m action) := by
  unfold Block.recover
  repeat' first
    | with_reducible assumption
    | with_reducible apply Kept.refl
    | with_reducible apply Within.refl
    | ((with_reducible apply Within.of); rfl)
    | ((with_reducible apply Within.cons); (apply Piece.inside_of; rfl))
    | ((with_reducible apply Within.cons); apply Or.inr)
    | with_reducible apply Within.nil
    | with_reducible apply List.mem_cons_self
    | with_reducible apply List.mem_cons_of_mem
    | (extract_lets +onlyGivenNames x
       first
       | (guard_hyp x : Block := _
          refine Kept.cut (ps := [.ck, .ins, .running, .slots]) (b := b) (x := x) ?_ fun hx => ?_
          on_goal 1 => subst x
          on_goal 2 => try clear_value x)
       | (guard_hyp x : Clocks := _; subst x)
       | clear_value x
       | skip)
    | (simp only [Kept.by_fields]; with_reducible apply Kept.fields <;>
         first | with_reducible exact Or.inl rfl | (apply Or.inr; apply Piece.mem_of; rfl) | exact Or.inr (by simp; done) | (refine Or.inr ⟨?_, ?_⟩ <;> first | (apply Or.inl; apply Piece.mem_of; rfl) | exact Or.inl (by simp; done) | with_reducible exact Or.inr rfl | with_reducible exact Or.inr ⟨rfl, rfl, rfl, rfl⟩ | with_reducible exact Or.inr ⟨rfl, rfl, rfl, rfl, rfl⟩ | (refine ⟨?_, ?_⟩ <;> first | (apply Or.inl; apply Piece.mem_of; rfl) | exact Or.inl (by simp; done) | with_reducible exact Or.inr rfl)) | skip)
    | with_reducible apply Block.finish_keeps
    | with_reducible apply Kept.ite
    | split

theorem Block.recover_keeps {qs : List Piece} {a₀ b : Block} {m : ManRef} {action : Nat} (inside : Within [.ck, .ins, .running, .slots] qs) (before : Kept qs a₀ b) :
    Kept qs a₀ (Block.recover b m action) := Kept.step (Block.recover_kept _ _ _) inside before

theorem Block.crystalDone_kept (b : Block) (ok : Bool) : Kept [.ck, .fresh, .ins, .running, .slots] b (Block.crystalDone b ok) := by
  unfold Block.crystalDone
  repeat' first
    | with_reducible assumption
    | with_reducible apply Kept.refl
    | with_reducible apply Within.refl
    | ((with_reducible apply Within.of); rfl)
    | ((with_reducible apply Within.cons); (apply Piece.inside_of; rfl))
    | ((with_reducible apply Within.cons); apply Or.inr)
    | with_reducible apply Within.nil
    | with_reducible apply List.mem_cons_self
    | with_reducible apply List.mem_cons_of_mem
    | (extract_lets +onlyGivenNames x
       first
       | (guard_hyp x : Block := _
          refine Kept.cut (ps := [.ck, .fresh, .ins, .running, .slots]) (b := b) (x := x) ?_ fun hx => ?_
          on_goal 1 => subst x
          on_goal 2 => try clear_value x)
       | (have _t : _ → Block := x; clear _t; subst x; beta_reduce)
       | (have _t : _ → _ := x; clear _t; subst x; beta_reduce)
       | (guard_hyp x : Clocks := _; subst x)
       | clear_value x
       | skip)
    | (simp only [Kept.by_fields]; with_reducible apply Kept.fields <;>
         first | with_reducible exact Or.inl rfl | (apply Or.inr; apply Piece.mem_of; rfl) | exact Or.inr (by simp; done) | (refine Or.inr ⟨?_, ?_⟩ <;> first | (apply Or.inl; apply Piece.mem_of; rfl) | exact Or.inl (by simp; done) | with_reducible exact Or.inr rfl | with_reducible exact Or.inr ⟨rfl, rfl, rfl, rfl⟩ | with_reducible exact Or.inr ⟨rfl, rfl, rfl, rfl, rfl⟩ | (refine ⟨?_, ?_⟩ <;> first | (apply Or.inl; apply Piece.mem_of; rfl) | exact Or.inl (by simp; done) | with_reducible exact Or.inr rfl)) | skip)
    | with_reducible apply Block.recoverDone_keeps
    | with_reducible apply Kept.ite
    | split

theorem Block.crystalDone_keeps {qs : List Piece} {a₀ b : Block} {ok : Bool} (inside : Within [.ck, .fresh, .ins, .running, .slots] qs) (before : Kept qs a₀ b) :
    Kept qs a₀ (Block.crystalDone b ok) := Kept.step (Block.crystalDone_kept _ _) inside before

theorem Block.setDomSrc_kept (b : Block) (dom : Nat) (x : ClkSrc) : Kept [.ck] b (Block.setDomSrc b dom x) := by
  unfold Block.setDomSrc
  repeat' first
    | with_reducible assumption
    | with_reducible apply Kept.refl
    | with_reducible apply Within.refl
    | ((with_reducible apply Within.of); rfl)
    | ((with_reducible apply Within.cons); (apply Piece.inside_of; rfl))
    | ((with_reducible apply Within.cons); apply Or.inr)
    | with_reducible apply Within.nil
    | with_reducible apply List.mem_cons_self
    | with_reducible apply List.mem_cons_of_mem
    | (extract_lets +onlyGivenNames x
       first
       | (guard_hyp x : Block := _
          refine Kept.cut (ps := [.ck]) (b := b) (x := x) ?_ fun hx => ?_
          on_goal 1 => subst x
          on_goal 2 => try clear_value x)
       | (guard_hyp x : Clocks := _; subst x)
       | clear_value x
       | skip)
    | (simp only [Kept.by_fields]; with_reducible apply Kept.fields <;>
         first | with_reducible exact Or.inl rfl | (apply Or.inr; apply Piece.mem_of; rfl) | exact Or.inr (by simp; done) | (refine Or.inr ⟨?_, ?_⟩ <;> first | (apply Or.inl; apply Piece.mem_of; rfl) | exact Or.inl (by simp; done) | with_reducible exact Or.inr rfl | with_reducible exact Or.inr ⟨rfl, rfl, rfl, rfl⟩ | with_reducible exact Or.inr ⟨rfl, rfl, rfl, rfl, rfl⟩ | (refine ⟨?_, ?_⟩ <;> first | (apply Or.inl; apply Piece.mem_of; rfl) | exact Or.inl (by simp; done) | with_reducible exact Or.inr rfl)) | skip)
    | with_reducible apply Kept.ite
    | split

theorem Block.setDomSrc_keeps {qs : List Piece} {a₀ b : Block} {dom : Nat} {x : ClkSrc} (inside : Within [.ck] qs) (before : Kept qs a₀ b) :
    Kept qs a₀ (Block.setDomSrc b dom x) := Kept.step (Block.setDomSrc_kept _ _ _) inside before

theorem Block.placeDom_kept (b : Block) (dom : Nat) (x : ClkSrc) : Kept [.ck] b (Block.placeDom b dom x) := by
  unfold Block.placeDom
  repeat' first
    | with_reducible assumption
    | with_reducible apply Kept.refl
    | with_reducible apply Within.refl
    | ((with_reducible apply Within.of); rfl)
    | ((with_reducible apply Within.cons); (apply Piece.inside_of; rfl))
    | ((with_reducible apply Within.cons); apply Or.inr)
    | with_reducible apply Within.nil
    | with_reducible apply List.mem_cons_self
    | with_reducible apply List.mem_cons_of_mem
    | (extract_lets +onlyGivenNames x
       first
       | (guard_hyp x : Block := _
          refine Kept.cut (ps := [.ck]) (b := b) (x := x) ?_ fun hx => ?_
          on_goal 1 => subst x
          on_goal 2 => try clear_value x)
       | (guard_hyp x : Clocks := _; subst x)
       | clear_value x
       | skip)
    | (simp only [Kept.by_fields]; with_reducible apply Kept.fields <;>
         first | with_reducible exact Or.inl rfl | (apply Or.inr; apply Piece.mem_of; rfl) | exact Or.inr (by simp; done) | (refine Or.inr ⟨?_, ?_⟩ <;> first | (apply Or.inl; apply Piece.mem_of; rfl) | exact Or.inl (by simp; done) | with_reducible exact Or.inr rfl | with_reducible exact Or.inr ⟨rfl, rfl, rfl, rfl⟩ | with_reducible exact Or.inr ⟨rfl, rfl, rfl, rfl, rfl⟩ | (refine ⟨?_, ?_⟩ <;> first | (apply Or.inl; apply Piece.mem_of; rfl) | exact Or.inl (by simp; done) | with_reducible exact Or.inr rfl)) | skip)
    | with_reducible apply Block.setDomSrc_keeps
    | with_reducible apply Kept.ite
    | split

theorem Block.placeDom_keeps {qs : List Piece} {a₀ b : Block} {dom : Nat} {x : ClkSrc} (inside : Within [.ck] qs) (before : Kept qs a₀ b) :
    Kept qs a₀ (Block.placeDom b dom x) := Kept.step (Block.placeDom_kept _ _ _) inside before

theorem Block.clockSwitch_kept (b : Block) (m : ManRef) (dom : Nat) (src : Nat) (oldDead : Bool) : Kept [.chs, .ck, .cnt, .doms, .events, .fws, .hold, .ins, .lanes, .mf, .regs, .running, .sel, .sides, .slots, .sv, .tl] b (Block.clockSwitch b m dom src oldDead) := by
  unfold Block.clockSwitch
  repeat' first
    | with_reducible assumption
    | with_reducible apply Kept.refl
    | with_reducible apply Within.refl
    | ((with_reducible apply Within.of); rfl)
    | ((with_reducible apply Within.cons); (apply Piece.inside_of; rfl))
    | ((with_reducible apply Within.cons); apply Or.inr)
    | with_reducible apply Within.nil
    | with_reducible apply List.mem_cons_self
    | with_reducible apply List.mem_cons_of_mem
    | (extract_lets +onlyGivenNames x
       first
       | (guard_hyp x : Block := _
          refine Kept.cut (ps := [.chs, .ck, .cnt, .doms, .events, .fws, .hold, .ins, .lanes, .mf, .regs, .running, .sel, .sides, .slots, .sv, .tl]) (b := b) (x := x) ?_ fun hx => ?_
          on_goal 1 => subst x
          on_goal 2 => try clear_value x)
       | clear_value x
       | skip)
    | with_reducible apply Block.finish_keeps
    | with_reducible apply Block.deadSwitch_keeps
    | with_reducible apply Block.placeDom_keeps
    | with_reducible apply Block.setDomSrc_keeps
    | with_reducible apply Kept.ite
    | split

theorem Block.clockSwitch_keeps {qs : List Piece} {a₀ b : Block} {m : ManRef} {dom : Nat} {src : Nat} {oldDead : Bool} (inside : Within [.chs, .ck, .cnt, .doms, .events, .fws, .hold, .ins, .lanes, .mf, .regs, .running, .sel, .sides, .slots, .sv, .tl] qs) (before : Kept qs a₀ b) :
    Kept qs a₀ (Block.clockSwitch b m dom src oldDead) := Kept.step (Block.clockSwitch_kept _ _ _ _ _) inside before

theorem Block.setSensor_kept (b : Block) (s : Nat) (v : Sensor) : Kept [.heat] b (Block.setSensor b s v) := by
  unfold Block.setSensor
  repeat' first
    | with_reducible assumption
    | with_reducible apply Kept.refl
    | with_reducible apply Within.refl
    | ((with_reducible apply Within.of); rfl)
    | ((with_reducible apply Within.cons); (apply Piece.inside_of; rfl))
    | ((with_reducible apply Within.cons); apply Or.inr)
    | with_reducible apply Within.nil
    | with_reducible apply List.mem_cons_self
    | with_reducible apply List.mem_cons_of_mem
    | (extract_lets +onlyGivenNames x
       first
       | (guard_hyp x : Block := _
          refine Kept.cut (ps := [.heat]) (b := b) (x := x) ?_ fun hx => ?_
          on_goal 1 => subst x
          on_goal 2 => try clear_value x)
       | clear_value x
       | skip)
    | (simp only [Kept.by_fields]; with_reducible apply Kept.fields <;>
         first | with_reducible exact Or.inl rfl | (apply Or.inr; apply Piece.mem_of; rfl) | exact Or.inr (by simp; done) | (refine Or.inr ⟨?_, ?_⟩ <;> first | (apply Or.inl; apply Piece.mem_of; rfl) | exact Or.inl (by simp; done) | with_reducible exact Or.inr rfl | with_reducible exact Or.inr ⟨rfl, rfl, rfl, rfl⟩ | with_reducible exact Or.inr ⟨rfl, rfl, rfl, rfl, rfl⟩ | (refine ⟨?_, ?_⟩ <;> first | (apply Or.inl; apply Piece.mem_of; rfl) | exact Or.inl (by simp; done) | with_reducible exact Or.inr rfl)) | skip)

theorem Block.setSensor_keeps {qs : List Piece} {a₀ b : Block} {s : Nat} {v : Sensor} (inside : Within [.heat] qs) (before : Kept qs a₀ b) :
    Kept qs a₀ (Block.setSensor b s v) := Kept.step (Block.setSensor_kept _ _ _) inside before

theorem Block.setLayer_kept (b : Block) (l : Nat) (v : Layer) : Kept [.heat] b (Block.setLayer b l v) := by
  unfold Block.setLayer
  repeat' first
    | with_reducible assumption
    | with_reducible apply Kept.refl
    | with_reducible apply Within.refl
    | ((with_reducible apply Within.of); rfl)
    | ((with_reducible apply Within.cons); (apply Piece.inside_of; rfl))
    | ((with_reducible apply Within.cons); apply Or.inr)
    | with_reducible apply Within.nil
    | with_reducible apply List.mem_cons_self
    | with_reducible apply List.mem_cons_of_mem
    | (extract_lets +onlyGivenNames x
       first
       | (guard_hyp x : Block := _
          refine Kept.cut (ps := [.heat]) (b := b) (x := x) ?_ fun hx => ?_
          on_goal 1 => subst x
          on_goal 2 => try clear_value x)
       | clear_value x
       | skip)
    | (simp only [Kept.by_fields]; with_reducible apply Kept.fields <;>
         first | with_reducible exact Or.inl rfl | (apply Or.inr; apply Piece.mem_of; rfl) | exact Or.inr (by simp; done) | (refine Or.inr ⟨?_, ?_⟩ <;> first | (apply Or.inl; apply Piece.mem_of; rfl) | exact Or.inl (by simp; done) | with_reducible exact Or.inr rfl | with_reducible exact Or.inr ⟨rfl, rfl, rfl, rfl⟩ | with_reducible exact Or.inr ⟨rfl, rfl, rfl, rfl, rfl⟩ | (refine ⟨?_, ?_⟩ <;> first | (apply Or.inl; apply Piece.mem_of; rfl) | exact Or.inl (by simp; done) | with_reducible exact Or.inr rfl)) | skip)

theorem Block.setLayer_keeps {qs : List Piece} {a₀ b : Block} {l : Nat} {v : Layer} (inside : Within [.heat] qs) (before : Kept qs a₀ b) :
    Kept qs a₀ (Block.setLayer b l v) := Kept.step (Block.setLayer_kept _ _ _) inside before

theorem Block.notePower_kept (b : Block) (l : Nat) : Kept [.heat] b (Block.notePower b l) := by
  unfold Block.notePower
  repeat' first
    | with_reducible assumption
    | with_reducible apply Kept.refl
    | with_reducible apply Within.refl
    | ((with_reducible apply Within.of); rfl)
    | ((with_reducible apply Within.cons); (apply Piece.inside_of; rfl))
    | ((with_reducible apply Within.cons); apply Or.inr)
    | with_reducible apply Within.nil
    | with_reducible apply List.mem_cons_self
    | with_reducible apply List.mem_cons_of_mem
    | (extract_lets +onlyGivenNames x
       first
       | (guard_hyp x : Block := _
          refine Kept.cut (ps := [.heat]) (b := b) (x := x) ?_ fun hx => ?_
          on_goal 1 => subst x
          on_goal 2 => try clear_value x)
       | clear_value x
       | skip)
    | (simp only [Kept.by_fields]; with_reducible apply Kept.fields <;>
         first | with_reducible exact Or.inl rfl | (apply Or.inr; apply Piece.mem_of; rfl) | exact Or.inr (by simp; done) | (refine Or.inr ⟨?_, ?_⟩ <;> first | (apply Or.inl; apply Piece.mem_of; rfl) | exact Or.inl (by simp; done) | with_reducible exact Or.inr rfl | with_reducible exact Or.inr ⟨rfl, rfl, rfl, rfl⟩ | with_reducible exact Or.inr ⟨rfl, rfl, rfl, rfl, rfl⟩ | (refine ⟨?_, ?_⟩ <;> first | (apply Or.inl; apply Piece.mem_of; rfl) | exact Or.inl (by simp; done) | with_reducible exact Or.inr rfl)) | skip)
    | with_reducible apply Block.setLayer_keeps

theorem Block.notePower_keeps {qs : List Piece} {a₀ b : Block} {l : Nat} (inside : Within [.heat] qs) (before : Kept qs a₀ b) :
    Kept qs a₀ (Block.notePower b l) := Kept.step (Block.notePower_kept _ _) inside before

theorem Block.latchFloor_kept (b : Block) (l : Nat) (noFall : Bool) : Kept [.heat, .reg Off.htAlarm] b (Block.latchFloor b l noFall) := by
  unfold Block.latchFloor
  repeat' first
    | with_reducible assumption
    | with_reducible apply Kept.refl
    | with_reducible apply Within.refl
    | ((with_reducible apply Within.of); rfl)
    | ((with_reducible apply Within.cons); (apply Piece.inside_of; rfl))
    | ((with_reducible apply Within.cons); apply Or.inr)
    | with_reducible apply Within.nil
    | with_reducible apply List.mem_cons_self
    | with_reducible apply List.mem_cons_of_mem
    | (extract_lets +onlyGivenNames x
       first
       | (guard_hyp x : Block := _
          refine Kept.cut (ps := [.heat, .reg Off.htAlarm]) (b := b) (x := x) ?_ fun hx => ?_
          on_goal 1 => subst x
          on_goal 2 => try clear_value x)
       | clear_value x
       | skip)
    | (simp only [Kept.by_fields]; with_reducible apply Kept.fields <;>
         first | with_reducible exact Or.inl rfl | (apply Or.inr; apply Piece.mem_of; rfl) | exact Or.inr (by simp; done) | (refine Or.inr ⟨?_, ?_⟩ <;> first | (apply Or.inl; apply Piece.mem_of; rfl) | exact Or.inl (by simp; done) | with_reducible exact Or.inr rfl | with_reducible exact Or.inr ⟨rfl, rfl, rfl, rfl⟩ | with_reducible exact Or.inr ⟨rfl, rfl, rfl, rfl, rfl⟩ | (refine ⟨?_, ?_⟩ <;> first | (apply Or.inl; apply Piece.mem_of; rfl) | exact Or.inl (by simp; done) | with_reducible exact Or.inr rfl)) | skip)
    | with_reducible apply Block.setLayer_keeps
    | with_reducible apply Block.orReg_keeps
    | with_reducible apply Kept.ite
    | split

theorem Block.latchFloor_keeps {qs : List Piece} {a₀ b : Block} {l : Nat} {noFall : Bool} (inside : Within [.heat, .reg Off.htAlarm] qs) (before : Kept qs a₀ b) :
    Kept qs a₀ (Block.latchFloor b l noFall) := Kept.step (Block.latchFloor_kept _ _ _) inside before

theorem Block.sensorFails_kept (b : Block) (s : Nat) (cause : BitVec 2) : Kept [.events, .heat, .reg Off.htAlarm, .reg Off.lgAlarm] b (Block.sensorFails b s cause) := by
  unfold Block.sensorFails
  repeat' first
    | with_reducible assumption
    | with_reducible apply Kept.refl
    | with_reducible apply Within.refl
    | ((with_reducible apply Within.of); rfl)
    | ((with_reducible apply Within.cons); (apply Piece.inside_of; rfl))
    | ((with_reducible apply Within.cons); apply Or.inr)
    | with_reducible apply Within.nil
    | with_reducible apply List.mem_cons_self
    | with_reducible apply List.mem_cons_of_mem
    | (extract_lets +onlyGivenNames x
       first
       | (guard_hyp x : Block := _
          refine Kept.cut (ps := [.events, .heat, .reg Off.htAlarm, .reg Off.lgAlarm]) (b := b) (x := x) ?_ fun hx => ?_
          on_goal 1 => subst x
          on_goal 2 => try clear_value x)
       | clear_value x
       | skip)
    | (simp only [Kept.by_fields]; with_reducible apply Kept.fields <;>
         first | with_reducible exact Or.inl rfl | (apply Or.inr; apply Piece.mem_of; rfl) | exact Or.inr (by simp; done) | (refine Or.inr ⟨?_, ?_⟩ <;> first | (apply Or.inl; apply Piece.mem_of; rfl) | exact Or.inl (by simp; done) | with_reducible exact Or.inr rfl | with_reducible exact Or.inr ⟨rfl, rfl, rfl, rfl⟩ | with_reducible exact Or.inr ⟨rfl, rfl, rfl, rfl, rfl⟩ | (refine ⟨?_, ?_⟩ <;> first | (apply Or.inl; apply Piece.mem_of; rfl) | exact Or.inl (by simp; done) | with_reducible exact Or.inr rfl)) | skip)
    | with_reducible apply Block.setSensor_keeps
    | with_reducible apply Block.orReg_keeps
    | with_reducible apply Block.event_keeps
    | with_reducible apply Block.latchFloor_keeps
    | with_reducible apply Kept.ite
    | split

theorem Block.sensorFails_keeps {qs : List Piece} {a₀ b : Block} {s : Nat} {cause : BitVec 2} (inside : Within [.events, .heat, .reg Off.htAlarm, .reg Off.lgAlarm] qs) (before : Kept qs a₀ b) :
    Kept qs a₀ (Block.sensorFails b s cause) := Kept.step (Block.sensorFails_kept _ _ _) inside before

theorem Block.seeSensor_kept (b : Block) (v : Option Int) (atLimit : Bool) (s : Nat) : Kept [.heat] b (Block.seeSensor b v atLimit s) := by
  unfold Block.seeSensor
  repeat' first
    | with_reducible assumption
    | with_reducible apply Kept.refl
    | with_reducible apply Within.refl
    | ((with_reducible apply Within.of); rfl)
    | ((with_reducible apply Within.cons); (apply Piece.inside_of; rfl))
    | ((with_reducible apply Within.cons); apply Or.inr)
    | with_reducible apply Within.nil
    | with_reducible apply List.mem_cons_self
    | with_reducible apply List.mem_cons_of_mem
    | (extract_lets +onlyGivenNames x
       first
       | (guard_hyp x : Block := _
          refine Kept.cut (ps := [.heat]) (b := b) (x := x) ?_ fun hx => ?_
          on_goal 1 => subst x
          on_goal 2 => try clear_value x)
       | clear_value x
       | skip)
    | (simp only [Kept.by_fields]; with_reducible apply Kept.fields <;>
         first | with_reducible exact Or.inl rfl | (apply Or.inr; apply Piece.mem_of; rfl) | exact Or.inr (by simp; done) | (refine Or.inr ⟨?_, ?_⟩ <;> first | (apply Or.inl; apply Piece.mem_of; rfl) | exact Or.inl (by simp; done) | with_reducible exact Or.inr rfl | with_reducible exact Or.inr ⟨rfl, rfl, rfl, rfl⟩ | with_reducible exact Or.inr ⟨rfl, rfl, rfl, rfl, rfl⟩ | (refine ⟨?_, ?_⟩ <;> first | (apply Or.inl; apply Piece.mem_of; rfl) | exact Or.inl (by simp; done) | with_reducible exact Or.inr rfl)) | skip)
    | with_reducible apply Block.setSensor_keeps
    | with_reducible apply Kept.ite
    | split

theorem Block.seeSensor_keeps {qs : List Piece} {a₀ b : Block} {v : Option Int} {atLimit : Bool} {s : Nat} (inside : Within [.heat] qs) (before : Kept qs a₀ b) :
    Kept qs a₀ (Block.seeSensor b v atLimit s) := Kept.step (Block.seeSensor_kept _ _ _ _) inside before

theorem Block.checkSensor_kept (b : Block) (v : Option Int) (atLimit : Bool) (s : Nat) : Kept [.events, .heat, .reg Off.htAlarm, .reg Off.lgAlarm] b (Block.checkSensor b v atLimit s) := by
  unfold Block.checkSensor
  repeat' first
    | with_reducible assumption
    | with_reducible apply Kept.refl
    | with_reducible apply Within.refl
    | ((with_reducible apply Within.of); rfl)
    | ((with_reducible apply Within.cons); (apply Piece.inside_of; rfl))
    | ((with_reducible apply Within.cons); apply Or.inr)
    | with_reducible apply Within.nil
    | with_reducible apply List.mem_cons_self
    | with_reducible apply List.mem_cons_of_mem
    | (extract_lets +onlyGivenNames x
       first
       | (guard_hyp x : Block := _
          refine Kept.cut (ps := [.events, .heat, .reg Off.htAlarm, .reg Off.lgAlarm]) (b := b) (x := x) ?_ fun hx => ?_
          on_goal 1 => subst x
          on_goal 2 => try clear_value x)
       | clear_value x
       | skip)
    | (simp only [Kept.by_fields]; with_reducible apply Kept.fields <;>
         first | with_reducible exact Or.inl rfl | (apply Or.inr; apply Piece.mem_of; rfl) | exact Or.inr (by simp; done) | (refine Or.inr ⟨?_, ?_⟩ <;> first | (apply Or.inl; apply Piece.mem_of; rfl) | exact Or.inl (by simp; done) | with_reducible exact Or.inr rfl | with_reducible exact Or.inr ⟨rfl, rfl, rfl, rfl⟩ | with_reducible exact Or.inr ⟨rfl, rfl, rfl, rfl, rfl⟩ | (refine ⟨?_, ?_⟩ <;> first | (apply Or.inl; apply Piece.mem_of; rfl) | exact Or.inl (by simp; done) | with_reducible exact Or.inr rfl)) | skip)
    | with_reducible apply Block.sensorFails_keeps
    | with_reducible apply Kept.ite
    | split

theorem Block.checkSensor_keeps {qs : List Piece} {a₀ b : Block} {v : Option Int} {atLimit : Bool} {s : Nat} (inside : Within [.events, .heat, .reg Off.htAlarm, .reg Off.lgAlarm] qs) (before : Kept qs a₀ b) :
    Kept qs a₀ (Block.checkSensor b v atLimit s) := Kept.step (Block.checkSensor_kept _ _ _ _) inside before

theorem Block.blindLatch_kept (b : Block) (l : Nat) : Kept [.events, .heat, .reg Off.htAlarm, .reg Off.lgAlarm] b (Block.blindLatch b l) := by
  unfold Block.blindLatch
  repeat' first
    | with_reducible assumption
    | with_reducible apply Kept.refl
    | with_reducible apply Within.refl
    | ((with_reducible apply Within.of); rfl)
    | ((with_reducible apply Within.cons); (apply Piece.inside_of; rfl))
    | ((with_reducible apply Within.cons); apply Or.inr)
    | with_reducible apply Within.nil
    | with_reducible apply List.mem_cons_self
    | with_reducible apply List.mem_cons_of_mem
    | (extract_lets +onlyGivenNames x
       first
       | (guard_hyp x : Block := _
          refine Kept.cut (ps := [.events, .heat, .reg Off.htAlarm, .reg Off.lgAlarm]) (b := b) (x := x) ?_ fun hx => ?_
          on_goal 1 => subst x
          on_goal 2 => try clear_value x)
       | clear_value x
       | skip)
    | (simp only [Kept.by_fields]; with_reducible apply Kept.fields <;>
         first | with_reducible exact Or.inl rfl | (apply Or.inr; apply Piece.mem_of; rfl) | exact Or.inr (by simp; done) | (refine Or.inr ⟨?_, ?_⟩ <;> first | (apply Or.inl; apply Piece.mem_of; rfl) | exact Or.inl (by simp; done) | with_reducible exact Or.inr rfl | with_reducible exact Or.inr ⟨rfl, rfl, rfl, rfl⟩ | with_reducible exact Or.inr ⟨rfl, rfl, rfl, rfl, rfl⟩ | (refine ⟨?_, ?_⟩ <;> first | (apply Or.inl; apply Piece.mem_of; rfl) | exact Or.inl (by simp; done) | with_reducible exact Or.inr rfl)) | skip)
    | with_reducible apply Block.latchFloor_keeps
    | with_reducible apply Block.event_keeps
    | with_reducible apply Kept.ite
    | split

theorem Block.blindLatch_keeps {qs : List Piece} {a₀ b : Block} {l : Nat} (inside : Within [.events, .heat, .reg Off.htAlarm, .reg Off.lgAlarm] qs) (before : Kept qs a₀ b) :
    Kept qs a₀ (Block.blindLatch b l) := Kept.step (Block.blindLatch_kept _ _) inside before

theorem Block.decideLayer_kept (b : Block) (rise : Rat) (tb : Rat) (l : Nat) : Kept [.events, .heat, .reg Off.htAlarm, .reg Off.lgAlarm] b (Block.decideLayer b rise tb l) := by
  unfold Block.decideLayer
  repeat' first
    | with_reducible assumption
    | with_reducible apply Kept.refl
    | with_reducible apply Within.refl
    | ((with_reducible apply Within.of); rfl)
    | ((with_reducible apply Within.cons); (apply Piece.inside_of; rfl))
    | ((with_reducible apply Within.cons); apply Or.inr)
    | with_reducible apply Within.nil
    | with_reducible apply List.mem_cons_self
    | with_reducible apply List.mem_cons_of_mem
    | (extract_lets +onlyGivenNames x
       first
       | (guard_hyp x : Block := _
          refine Kept.cut (ps := [.events, .heat, .reg Off.htAlarm, .reg Off.lgAlarm]) (b := b) (x := x) ?_ fun hx => ?_
          on_goal 1 => subst x
          on_goal 2 => try clear_value x)
       | clear_value x
       | skip)
    | (simp only [Kept.by_fields]; with_reducible apply Kept.fields <;>
         first | with_reducible exact Or.inl rfl | (apply Or.inr; apply Piece.mem_of; rfl) | exact Or.inr (by simp; done) | (refine Or.inr ⟨?_, ?_⟩ <;> first | (apply Or.inl; apply Piece.mem_of; rfl) | exact Or.inl (by simp; done) | with_reducible exact Or.inr rfl | with_reducible exact Or.inr ⟨rfl, rfl, rfl, rfl⟩ | with_reducible exact Or.inr ⟨rfl, rfl, rfl, rfl, rfl⟩ | (refine ⟨?_, ?_⟩ <;> first | (apply Or.inl; apply Piece.mem_of; rfl) | exact Or.inl (by simp; done) | with_reducible exact Or.inr rfl)) | skip)
    | with_reducible apply Block.blindLatch_keeps
    | with_reducible apply Block.setLayer_keeps
    | with_reducible apply Block.orReg_keeps
    | with_reducible apply Block.event_keeps
    | with_reducible apply Kept.ite
    | split

theorem Block.decideLayer_keeps {qs : List Piece} {a₀ b : Block} {rise : Rat} {tb : Rat} {l : Nat} (inside : Within [.events, .heat, .reg Off.htAlarm, .reg Off.lgAlarm] qs) (before : Kept qs a₀ b) :
    Kept qs a₀ (Block.decideLayer b rise tb l) := Kept.step (Block.decideLayer_kept _ _ _ _) inside before

theorem Block.capRound_kept (b : Block) : Kept [.heat, .reg Off.htAlarm] b (Block.capRound b) := by
  unfold Block.capRound
  dsimp only
  repeat' first
    | with_reducible apply Kept.refl
    | with_reducible apply Within.refl
    | ((with_reducible apply Within.of); rfl)
    | ((with_reducible apply Within.cons); (apply Piece.inside_of; rfl))
    | ((with_reducible apply Within.cons); apply Or.inr)
    | with_reducible apply Within.nil
    | with_reducible apply List.mem_cons_self
    | with_reducible apply List.mem_cons_of_mem
    | with_reducible apply Kept.ite
    | (simp only [Kept.by_fields]; with_reducible apply Kept.fields <;>
         first | with_reducible exact Or.inl rfl | (apply Or.inr; apply Piece.mem_of; rfl) | exact Or.inr (by simp; done) | (refine Or.inr ⟨?_, ?_⟩ <;> first | (apply Or.inl; apply Piece.mem_of; rfl) | exact Or.inl (by simp; done) | with_reducible exact Or.inr rfl | with_reducible exact Or.inr ⟨rfl, rfl, rfl, rfl⟩ | with_reducible exact Or.inr ⟨rfl, rfl, rfl, rfl, rfl⟩ | (refine ⟨?_, ?_⟩ <;> first | (apply Or.inl; apply Piece.mem_of; rfl) | exact Or.inl (by simp; done) | with_reducible exact Or.inr rfl)) | skip)
    | with_reducible apply Block.orReg_keeps

theorem Block.capRound_keeps {qs : List Piece} {a₀ b : Block} (inside : Within [.heat, .reg Off.htAlarm] qs) (before : Kept qs a₀ b) :
    Kept qs a₀ (Block.capRound b) := Kept.step (Block.capRound_kept _) inside before

theorem Block.applyStep_kept (b : Block) (n : Nat) (v : Fin 8) : Kept [.berth n, .chan n, .reg Off.htAlarm] b (Block.applyStep b n v) := by
  unfold Block.applyStep
  repeat' first
    | with_reducible assumption
    | with_reducible apply Kept.refl
    | with_reducible apply Within.refl
    | ((with_reducible apply Within.of); rfl)
    | ((with_reducible apply Within.cons); (apply Piece.inside_of; rfl))
    | ((with_reducible apply Within.cons); apply Or.inr)
    | with_reducible apply Within.nil
    | with_reducible apply List.mem_cons_self
    | with_reducible apply List.mem_cons_of_mem
    | (extract_lets +onlyGivenNames x
       first
       | (guard_hyp x : Block := _
          refine Kept.cut (ps := [.berth n, .chan n, .reg Off.htAlarm]) (b := b) (x := x) ?_ fun hx => ?_
          on_goal 1 => subst x
          on_goal 2 => try clear_value x)
       | clear_value x
       | skip)
    | with_reducible apply Block.modChan_keeps
    | with_reducible apply Block.modBerth_keeps
    | with_reducible apply Block.orReg_keeps
    | with_reducible apply Kept.ite
    | split

theorem Block.applyStep_keeps {qs : List Piece} {a₀ b : Block} {n : Nat} {v : Fin 8} (inside : Within [.berth n, .chan n, .reg Off.htAlarm] qs) (before : Kept qs a₀ b) :
    Kept qs a₀ (Block.applyStep b n v) := Kept.step (Block.applyStep_kept _ _ _) inside before

theorem Block.decideStep_kept (b : Block) (n : Nat) : Kept [.berth n, .chan n, .chs, .reg Off.htAlarm] b (Block.decideStep b n) := by
  unfold Block.decideStep
  repeat' first
    | with_reducible assumption
    | with_reducible apply Kept.refl
    | with_reducible apply Within.refl
    | ((with_reducible apply Within.of); rfl)
    | ((with_reducible apply Within.cons); (apply Piece.inside_of; rfl))
    | ((with_reducible apply Within.cons); apply Or.inr)
    | with_reducible apply Within.nil
    | with_reducible apply List.mem_cons_self
    | with_reducible apply List.mem_cons_of_mem
    | (extract_lets +onlyGivenNames x
       first
       | (guard_hyp x : Block := _
          refine Kept.cut (ps := [.berth n, .chan n, .chs, .reg Off.htAlarm]) (b := b) (x := x) ?_ fun hx => ?_
          on_goal 1 => subst x
          on_goal 2 => try clear_value x)
       | (guard_hyp x : Clocks := _; subst x)
       | clear_value x
       | skip)
    | (simp only [Kept.by_fields]; with_reducible apply Kept.fields <;>
         first | with_reducible exact Or.inl rfl | (apply Or.inr; apply Piece.mem_of; rfl) | exact Or.inr (by simp; done) | (refine Or.inr ⟨?_, ?_⟩ <;> first | (apply Or.inl; apply Piece.mem_of; rfl) | exact Or.inl (by simp; done) | with_reducible exact Or.inr rfl | with_reducible exact Or.inr ⟨rfl, rfl, rfl, rfl⟩ | with_reducible exact Or.inr ⟨rfl, rfl, rfl, rfl, rfl⟩ | (refine ⟨?_, ?_⟩ <;> first | (apply Or.inl; apply Piece.mem_of; rfl) | exact Or.inl (by simp; done) | with_reducible exact Or.inr rfl)) | skip)
    | with_reducible apply Block.modChan_keeps
    | with_reducible apply Block.applyStep_keeps
    | with_reducible apply Kept.ite
    | split

theorem Block.decideStep_keeps {qs : List Piece} {a₀ b : Block} {n : Nat} (inside : Within [.berth n, .chan n, .chs, .reg Off.htAlarm] qs) (before : Kept qs a₀ b) :
    Kept qs a₀ (Block.decideStep b n) := Kept.step (Block.decideStep_kept _ _) inside before

theorem Block.refreshRate_kept (b : Block) (n : Nat) : Kept [.chan n, .reg Off.dcAlarm] b (Block.refreshRate b n) := by
  unfold Block.refreshRate
  repeat' first
    | with_reducible assumption
    | with_reducible apply Kept.refl
    | with_reducible apply Within.refl
    | ((with_reducible apply Within.of); rfl)
    | ((with_reducible apply Within.cons); (apply Piece.inside_of; rfl))
    | ((with_reducible apply Within.cons); apply Or.inr)
    | with_reducible apply Within.nil
    | with_reducible apply List.mem_cons_self
    | with_reducible apply List.mem_cons_of_mem
    | (extract_lets +onlyGivenNames x
       first
       | (guard_hyp x : Block := _
          refine Kept.cut (ps := [.chan n, .reg Off.dcAlarm]) (b := b) (x := x) ?_ fun hx => ?_
          on_goal 1 => subst x
          on_goal 2 => try clear_value x)
       | clear_value x
       | skip)
    | with_reducible apply Block.orReg_keeps
    | with_reducible apply Block.setChan_keeps
    | with_reducible apply Kept.ite
    | split

theorem Block.refreshRate_keeps {qs : List Piece} {a₀ b : Block} {n : Nat} (inside : Within [.chan n, .reg Off.dcAlarm] qs) (before : Kept qs a₀ b) :
    Kept qs a₀ (Block.refreshRate b n) := Kept.step (Block.refreshRate_kept _ _) inside before

theorem Block.markRefresh_kept (b : Block) (l : Nat) : Kept [.heat] b (Block.markRefresh b l) := by
  unfold Block.markRefresh
  repeat' first
    | with_reducible assumption
    | with_reducible apply Kept.refl
    | with_reducible apply Within.refl
    | ((with_reducible apply Within.of); rfl)
    | ((with_reducible apply Within.cons); (apply Piece.inside_of; rfl))
    | ((with_reducible apply Within.cons); apply Or.inr)
    | with_reducible apply Within.nil
    | with_reducible apply List.mem_cons_self
    | with_reducible apply List.mem_cons_of_mem
    | (extract_lets +onlyGivenNames x
       first
       | (guard_hyp x : Block := _
          refine Kept.cut (ps := [.heat]) (b := b) (x := x) ?_ fun hx => ?_
          on_goal 1 => subst x
          on_goal 2 => try clear_value x)
       | clear_value x
       | skip)
    | with_reducible apply Block.setLayer_keeps
    | with_reducible apply Kept.ite
    | split

theorem Block.markRefresh_keeps {qs : List Piece} {a₀ b : Block} {l : Nat} (inside : Within [.heat] qs) (before : Kept qs a₀ b) :
    Kept qs a₀ (Block.markRefresh b l) := Kept.step (Block.markRefresh_kept _ _) inside before

theorem Block.domainsOff_kept (b : Block) : Kept [.berths, .doms] b (Block.domainsOff b) := by
  unfold Block.domainsOff
  repeat' first
    | with_reducible assumption
    | with_reducible apply Kept.refl
    | with_reducible apply Within.refl
    | ((with_reducible apply Within.of); rfl)
    | ((with_reducible apply Within.cons); (apply Piece.inside_of; rfl))
    | ((with_reducible apply Within.cons); apply Or.inr)
    | with_reducible apply Within.nil
    | with_reducible apply List.mem_cons_self
    | with_reducible apply List.mem_cons_of_mem
    | (extract_lets +onlyGivenNames x
       first
       | (guard_hyp x : Block := _
          refine Kept.cut (ps := [.berths, .doms]) (b := b) (x := x) ?_ fun hx => ?_
          on_goal 1 => subst x
          on_goal 2 => try clear_value x)
       | clear_value x
       | skip)
    | (simp only [Kept.by_fields]; with_reducible apply Kept.fields <;>
         first | with_reducible exact Or.inl rfl | (apply Or.inr; apply Piece.mem_of; rfl) | exact Or.inr (by simp; done) | (refine Or.inr ⟨?_, ?_⟩ <;> first | (apply Or.inl; apply Piece.mem_of; rfl) | exact Or.inl (by simp; done) | with_reducible exact Or.inr rfl | with_reducible exact Or.inr ⟨rfl, rfl, rfl, rfl⟩ | with_reducible exact Or.inr ⟨rfl, rfl, rfl, rfl, rfl⟩ | (refine ⟨?_, ?_⟩ <;> first | (apply Or.inl; apply Piece.mem_of; rfl) | exact Or.inl (by simp; done) | with_reducible exact Or.inr rfl)) | skip)
    | (with_reducible apply Kept.each; intro _ _ _)
    | with_reducible apply Block.modDom_keeps
    | with_reducible apply Block.modBerth_keeps
    | with_reducible apply Kept.ite
    | split

theorem Block.domainsOff_keeps {qs : List Piece} {a₀ b : Block} (inside : Within [.berths, .doms] qs) (before : Kept qs a₀ b) :
    Kept qs a₀ (Block.domainsOff b) := Kept.step (Block.domainsOff_kept _) inside before

theorem Block.trip_kept (b : Block) (analogue : Bool) (sensor : Nat) (l : Nat) : Kept [.berths, .chans, .chs, .ck, .cnt, .doms, .events, .fws, .heat, .ins, .lanes, .lg, .pins, .prot, .pw, .qy, .regs, .running, .sides, .slots, .stk, .sv, .tl] b (Block.trip b analogue sensor l) := by
  unfold Block.trip
  repeat' first
    | with_reducible assumption
    | with_reducible apply Kept.refl
    | with_reducible apply Within.refl
    | ((with_reducible apply Within.of); rfl)
    | ((with_reducible apply Within.cons); (apply Piece.inside_of; rfl))
    | ((with_reducible apply Within.cons); apply Or.inr)
    | with_reducible apply Within.nil
    | with_reducible apply List.mem_cons_self
    | with_reducible apply List.mem_cons_of_mem
    | (extract_lets +onlyGivenNames x
       first
       | (guard_hyp x : Block := _
          refine Kept.cut (ps := [.berths, .chans, .chs, .ck, .cnt, .doms, .events, .fws, .heat, .ins, .lanes, .lg, .pins, .prot, .pw, .qy, .regs, .running, .sides, .slots, .stk, .sv, .tl]) (b := b) (x := x) ?_ fun hx => ?_
          on_goal 1 => subst x
          on_goal 2 => try clear_value x)
       | (guard_hyp x : Power := _; subst x)
       | (guard_hyp x : Clocks := _; subst x)
       | (guard_hyp x : Logbook := _; subst x)
       | clear_value x
       | skip)
    | (simp only [Kept.by_fields]; with_reducible apply Kept.fields <;>
         first | with_reducible exact Or.inl rfl | (apply Or.inr; apply Piece.mem_of; rfl) | exact Or.inr (by simp; done) | (refine Or.inr ⟨?_, ?_⟩ <;> first | (apply Or.inl; apply Piece.mem_of; rfl) | exact Or.inl (by simp; done) | with_reducible exact Or.inr rfl | with_reducible exact Or.inr ⟨rfl, rfl, rfl, rfl⟩ | with_reducible exact Or.inr ⟨rfl, rfl, rfl, rfl, rfl⟩ | (refine ⟨?_, ?_⟩ <;> first | (apply Or.inl; apply Piece.mem_of; rfl) | exact Or.inl (by simp; done) | with_reducible exact Or.inr rfl)) | skip)
    | (with_reducible apply Kept.each; intro _ _ _)
    | with_reducible apply Block.domainsOff_keeps
    | with_reducible apply Block.coreDark_keeps
    | with_reducible apply Block.modBerth_keeps
    | with_reducible apply Block.orReg_keeps
    | with_reducible apply Kept.ite
    | split

theorem Block.trip_keeps {qs : List Piece} {a₀ b : Block} {analogue : Bool} {sensor : Nat} {l : Nat} (inside : Within [.berths, .chans, .chs, .ck, .cnt, .doms, .events, .fws, .heat, .ins, .lanes, .lg, .pins, .prot, .pw, .qy, .regs, .running, .sides, .slots, .stk, .sv, .tl] qs) (before : Kept qs a₀ b) :
    Kept qs a₀ (Block.trip b analogue sensor l) := Kept.step (Block.trip_kept _ _ _ _) inside before

theorem Block.frozenTrip_kept (b : Block) : Kept [.berths, .doms, .heat, .pins] b (Block.frozenTrip b) := by
  unfold Block.frozenTrip
  repeat' first
    | with_reducible assumption
    | with_reducible apply Kept.refl
    | with_reducible apply Within.refl
    | ((with_reducible apply Within.of); rfl)
    | ((with_reducible apply Within.cons); (apply Piece.inside_of; rfl))
    | ((with_reducible apply Within.cons); apply Or.inr)
    | with_reducible apply Within.nil
    | with_reducible apply List.mem_cons_self
    | with_reducible apply List.mem_cons_of_mem
    | (extract_lets +onlyGivenNames x
       first
       | (guard_hyp x : Block := _
          refine Kept.cut (ps := [.berths, .doms, .heat, .pins]) (b := b) (x := x) ?_ fun hx => ?_
          on_goal 1 => subst x
          on_goal 2 => try clear_value x)
       | clear_value x
       | skip)
    | (simp only [Kept.by_fields]; with_reducible apply Kept.fields <;>
         first | with_reducible exact Or.inl rfl | (apply Or.inr; apply Piece.mem_of; rfl) | exact Or.inr (by simp; done) | (refine Or.inr ⟨?_, ?_⟩ <;> first | (apply Or.inl; apply Piece.mem_of; rfl) | exact Or.inl (by simp; done) | with_reducible exact Or.inr rfl | with_reducible exact Or.inr ⟨rfl, rfl, rfl, rfl⟩ | with_reducible exact Or.inr ⟨rfl, rfl, rfl, rfl, rfl⟩ | (refine ⟨?_, ?_⟩ <;> first | (apply Or.inl; apply Piece.mem_of; rfl) | exact Or.inl (by simp; done) | with_reducible exact Or.inr rfl)) | skip)
    | with_reducible apply Block.domainsOff_keeps

theorem Block.frozenTrip_keeps {qs : List Piece} {a₀ b : Block} (inside : Within [.berths, .doms, .heat, .pins] qs) (before : Kept qs a₀ b) :
    Kept qs a₀ (Block.frozenTrip b) := Kept.step (Block.frozenTrip_kept _) inside before

theorem Block.tripWrite_kept (b : Block) (full : Bool) : Kept [.events, .heat, .lg, .pins, .reg Off.lgAlarm] b (Block.tripWrite b full) := by
  unfold Block.tripWrite
  repeat' first
    | with_reducible assumption
    | with_reducible apply Kept.refl
    | with_reducible apply Within.refl
    | ((with_reducible apply Within.of); rfl)
    | ((with_reducible apply Within.cons); (apply Piece.inside_of; rfl))
    | ((with_reducible apply Within.cons); apply Or.inr)
    | with_reducible apply Within.nil
    | with_reducible apply List.mem_cons_self
    | with_reducible apply List.mem_cons_of_mem
    | (extract_lets +onlyGivenNames x
       first
       | (guard_hyp x : Block := _
          refine Kept.cut (ps := [.events, .heat, .lg, .pins, .reg Off.lgAlarm]) (b := b) (x := x) ?_ fun hx => ?_
          on_goal 1 => subst x
          on_goal 2 => try clear_value x)
       | (guard_hyp x : Logbook := _; subst x)
       | clear_value x
       | skip)
    | (simp only [Kept.by_fields]; with_reducible apply Kept.fields <;>
         first | with_reducible exact Or.inl rfl | (apply Or.inr; apply Piece.mem_of; rfl) | exact Or.inr (by simp; done) | (refine Or.inr ⟨?_, ?_⟩ <;> first | (apply Or.inl; apply Piece.mem_of; rfl) | exact Or.inl (by simp; done) | with_reducible exact Or.inr rfl | with_reducible exact Or.inr ⟨rfl, rfl, rfl, rfl⟩ | with_reducible exact Or.inr ⟨rfl, rfl, rfl, rfl, rfl⟩ | (refine ⟨?_, ?_⟩ <;> first | (apply Or.inl; apply Piece.mem_of; rfl) | exact Or.inl (by simp; done) | with_reducible exact Or.inr rfl)) | skip)
    | with_reducible apply Block.wearSlot_keeps
    | with_reducible apply Kept.ite
    | split

theorem Block.tripWrite_keeps {qs : List Piece} {a₀ b : Block} {full : Bool} (inside : Within [.events, .heat, .lg, .pins, .reg Off.lgAlarm] qs) (before : Kept qs a₀ b) :
    Kept qs a₀ (Block.tripWrite b full) := Kept.step (Block.tripWrite_kept _ _) inside before

theorem Block.correct_kept (b : Block) : Kept [.ck, .reg Off.ckAlarm] b (Block.correct b) := by
  unfold Block.correct
  repeat' first
    | with_reducible assumption
    | with_reducible apply Kept.refl
    | with_reducible apply Within.refl
    | ((with_reducible apply Within.of); rfl)
    | ((with_reducible apply Within.cons); (apply Piece.inside_of; rfl))
    | ((with_reducible apply Within.cons); apply Or.inr)
    | with_reducible apply Within.nil
    | with_reducible apply List.mem_cons_self
    | with_reducible apply List.mem_cons_of_mem
    | (extract_lets +onlyGivenNames x
       first
       | (guard_hyp x : Block := _
          refine Kept.cut (ps := [.ck, .reg Off.ckAlarm]) (b := b) (x := x) ?_ fun hx => ?_
          on_goal 1 => subst x
          on_goal 2 => try clear_value x)
       | (guard_hyp x : Clocks := _; subst x)
       | clear_value x
       | skip)
    | (simp only [Kept.by_fields]; with_reducible apply Kept.fields <;>
         first | with_reducible exact Or.inl rfl | (apply Or.inr; apply Piece.mem_of; rfl) | exact Or.inr (by simp; done) | (refine Or.inr ⟨?_, ?_⟩ <;> first | (apply Or.inl; apply Piece.mem_of; rfl) | exact Or.inl (by simp; done) | with_reducible exact Or.inr rfl | with_reducible exact Or.inr ⟨rfl, rfl, rfl, rfl⟩ | with_reducible exact Or.inr ⟨rfl, rfl, rfl, rfl, rfl⟩ | (refine ⟨?_, ?_⟩ <;> first | (apply Or.inl; apply Piece.mem_of; rfl) | exact Or.inl (by simp; done) | with_reducible exact Or.inr rfl)) | skip)
    | with_reducible apply Block.orReg_keeps
    | with_reducible apply Kept.ite
    | split

theorem Block.correct_keeps {qs : List Piece} {a₀ b : Block} (inside : Within [.ck, .reg Off.ckAlarm] qs) (before : Kept qs a₀ b) :
    Kept qs a₀ (Block.correct b) := Kept.step (Block.correct_kept _) inside before

theorem Block.bandgap_kept (b : Block) : Kept [.heat, .reg Off.htAlarm] b (Block.bandgap b) := by
  unfold Block.bandgap
  repeat' first
    | with_reducible assumption
    | with_reducible apply Kept.refl
    | with_reducible apply Within.refl
    | ((with_reducible apply Within.of); rfl)
    | ((with_reducible apply Within.cons); (apply Piece.inside_of; rfl))
    | ((with_reducible apply Within.cons); apply Or.inr)
    | with_reducible apply Within.nil
    | with_reducible apply List.mem_cons_self
    | with_reducible apply List.mem_cons_of_mem
    | (extract_lets +onlyGivenNames x
       first
       | (guard_hyp x : Block := _
          refine Kept.cut (ps := [.heat, .reg Off.htAlarm]) (b := b) (x := x) ?_ fun hx => ?_
          on_goal 1 => subst x
          on_goal 2 => try clear_value x)
       | clear_value x
       | skip)
    | (simp only [Kept.by_fields]; with_reducible apply Kept.fields <;>
         first | with_reducible exact Or.inl rfl | (apply Or.inr; apply Piece.mem_of; rfl) | exact Or.inr (by simp; done) | (refine Or.inr ⟨?_, ?_⟩ <;> first | (apply Or.inl; apply Piece.mem_of; rfl) | exact Or.inl (by simp; done) | with_reducible exact Or.inr rfl | with_reducible exact Or.inr ⟨rfl, rfl, rfl, rfl⟩ | with_reducible exact Or.inr ⟨rfl, rfl, rfl, rfl, rfl⟩ | (refine ⟨?_, ?_⟩ <;> first | (apply Or.inl; apply Piece.mem_of; rfl) | exact Or.inl (by simp; done) | with_reducible exact Or.inr rfl)) | skip)
    | with_reducible apply Block.orReg_keeps
    | with_reducible apply Kept.ite
    | split

theorem Block.bandgap_keeps {qs : List Piece} {a₀ b : Block} (inside : Within [.heat, .reg Off.htAlarm] qs) (before : Kept qs a₀ b) :
    Kept qs a₀ (Block.bandgap b) := Kept.step (Block.bandgap_kept _) inside before

theorem Block.coilSuspect_kept (b : Block) (n : Nat) (i : Nat) : Kept [.berths, .chans, .chs, .cnt, .col n, .events, .fws, .ins, .lanes, .mf, .pw, .qy, .regs, .sides, .stk, .tl] b (Block.coilSuspect b n i) := by
  unfold Block.coilSuspect
  repeat' first
    | with_reducible assumption
    | with_reducible apply Kept.refl
    | with_reducible apply Within.refl
    | ((with_reducible apply Within.of); rfl)
    | ((with_reducible apply Within.cons); (apply Piece.inside_of; rfl))
    | ((with_reducible apply Within.cons); apply Or.inr)
    | with_reducible apply Within.nil
    | with_reducible apply List.mem_cons_self
    | with_reducible apply List.mem_cons_of_mem
    | (extract_lets +onlyGivenNames x
       first
       | (guard_hyp x : Block := _
          refine Kept.cut (ps := [.berths, .chans, .chs, .cnt, .col n, .events, .fws, .ins, .lanes, .mf, .pw, .qy, .regs, .sides, .stk, .tl]) (b := b) (x := x) ?_ fun hx => ?_
          on_goal 1 => subst x
          on_goal 2 => try clear_value x)
       | clear_value x
       | skip)
    | with_reducible apply Block.event_keeps
    | with_reducible apply Block.setCol_keeps
    | with_reducible apply Block.fenceRunning_keeps
    | with_reducible apply Block.orReg_keeps
    | with_reducible apply Kept.ite
    | split

theorem Block.coilSuspect_keeps {qs : List Piece} {a₀ b : Block} {n : Nat} {i : Nat} (inside : Within [.berths, .chans, .chs, .cnt, .col n, .events, .fws, .ins, .lanes, .mf, .pw, .qy, .regs, .sides, .stk, .tl] qs) (before : Kept qs a₀ b) :
    Kept qs a₀ (Block.coilSuspect b n i) := Kept.step (Block.coilSuspect_kept _ _ _) inside before

theorem Block.coilRound_kept (b : Block) (n : Nat) : Kept [.berths, .chans, .chs, .cnt, .col n, .events, .fws, .ins, .lanes, .mf, .pw, .qy, .regs, .sides, .stk, .tl] b (Block.coilRound b n) := by
  unfold Block.coilRound
  repeat' first
    | with_reducible assumption
    | with_reducible apply Kept.refl
    | with_reducible apply Within.refl
    | ((with_reducible apply Within.of); rfl)
    | ((with_reducible apply Within.cons); (apply Piece.inside_of; rfl))
    | ((with_reducible apply Within.cons); apply Or.inr)
    | with_reducible apply Within.nil
    | with_reducible apply List.mem_cons_self
    | with_reducible apply List.mem_cons_of_mem
    | (extract_lets +onlyGivenNames x
       first
       | (guard_hyp x : Block := _
          refine Kept.cut (ps := [.berths, .chans, .chs, .cnt, .col n, .events, .fws, .ins, .lanes, .mf, .pw, .qy, .regs, .sides, .stk, .tl]) (b := b) (x := x) ?_ fun hx => ?_
          on_goal 1 => subst x
          on_goal 2 => try clear_value x)
       | clear_value x
       | skip)
    | (with_reducible apply Kept.each; intro _ _ _)
    | with_reducible apply Block.setCol_keeps
    | with_reducible apply Block.coilSuspect_keeps
    | with_reducible apply Kept.ite
    | split

theorem Block.coilRound_keeps {qs : List Piece} {a₀ b : Block} {n : Nat} (inside : Within [.berths, .chans, .chs, .cnt, .col n, .events, .fws, .ins, .lanes, .mf, .pw, .qy, .regs, .sides, .stk, .tl] qs) (before : Kept qs a₀ b) :
    Kept qs a₀ (Block.coilRound b n) := Kept.step (Block.coilRound_kept _ _) inside before

theorem Block.calTrigger_kept (b : Block) (n : Nat) : Kept [.chan n] b (Block.calTrigger b n) := by
  unfold Block.calTrigger
  repeat' first
    | with_reducible assumption
    | with_reducible apply Kept.refl
    | with_reducible apply Within.refl
    | ((with_reducible apply Within.of); rfl)
    | ((with_reducible apply Within.cons); (apply Piece.inside_of; rfl))
    | ((with_reducible apply Within.cons); apply Or.inr)
    | with_reducible apply Within.nil
    | with_reducible apply List.mem_cons_self
    | with_reducible apply List.mem_cons_of_mem
    | (extract_lets +onlyGivenNames x
       first
       | (guard_hyp x : Block := _
          refine Kept.cut (ps := [.chan n]) (b := b) (x := x) ?_ fun hx => ?_
          on_goal 1 => subst x
          on_goal 2 => try clear_value x)
       | clear_value x
       | skip)
    | with_reducible apply Block.setChan_keeps
    | with_reducible apply Block.wakeChan_keeps
    | with_reducible apply Kept.ite
    | split

theorem Block.calTrigger_keeps {qs : List Piece} {a₀ b : Block} {n : Nat} (inside : Within [.chan n] qs) (before : Kept qs a₀ b) :
    Kept qs a₀ (Block.calTrigger b n) := Kept.step (Block.calTrigger_kept _ _) inside before

theorem Block.laneTrigger_kept (b : Block) (l : Nat) : Kept [.lane l, .side (laneSide l)] b (Block.laneTrigger b l) := by
  unfold Block.laneTrigger
  repeat' first
    | with_reducible assumption
    | with_reducible apply Kept.refl
    | with_reducible apply Within.refl
    | ((with_reducible apply Within.of); rfl)
    | ((with_reducible apply Within.cons); (apply Piece.inside_of; rfl))
    | ((with_reducible apply Within.cons); apply Or.inr)
    | with_reducible apply Within.nil
    | with_reducible apply List.mem_cons_self
    | with_reducible apply List.mem_cons_of_mem
    | (extract_lets +onlyGivenNames x
       first
       | (guard_hyp x : Block := _
          refine Kept.cut (ps := [.lane l, .side (laneSide l)]) (b := b) (x := x) ?_ fun hx => ?_
          on_goal 1 => subst x
          on_goal 2 => try clear_value x)
       | clear_value x
       | skip)
    | (simp only [Kept.by_fields]; with_reducible apply Kept.fields <;>
         first | with_reducible exact Or.inl rfl | (apply Or.inr; apply Piece.mem_of; rfl) | exact Or.inr (by simp; done) | (refine Or.inr ⟨?_, ?_⟩ <;> first | (apply Or.inl; apply Piece.mem_of; rfl) | exact Or.inl (by simp; done) | with_reducible exact Or.inr rfl | with_reducible exact Or.inr ⟨rfl, rfl, rfl, rfl⟩ | with_reducible exact Or.inr ⟨rfl, rfl, rfl, rfl, rfl⟩ | (refine ⟨?_, ?_⟩ <;> first | (apply Or.inl; apply Piece.mem_of; rfl) | exact Or.inl (by simp; done) | with_reducible exact Or.inr rfl)) | skip)
    | with_reducible apply Block.modLane_keeps
    | with_reducible apply Block.askWindow_keeps
    | with_reducible apply Kept.ite
    | split

theorem Block.laneTrigger_keeps {qs : List Piece} {a₀ b : Block} {l : Nat} (inside : Within [.lane l, .side (laneSide l)] qs) (before : Kept qs a₀ b) :
    Kept qs a₀ (Block.laneTrigger b l) := Kept.step (Block.laneTrigger_kept _ _) inside before

theorem Block.keepReport_kept (b : Block) : Kept [.heat] b (Block.keepReport b) := by
  unfold Block.keepReport
  repeat' first
    | with_reducible assumption
    | with_reducible apply Kept.refl
    | with_reducible apply Within.refl
    | ((with_reducible apply Within.of); rfl)
    | ((with_reducible apply Within.cons); (apply Piece.inside_of; rfl))
    | ((with_reducible apply Within.cons); apply Or.inr)
    | with_reducible apply Within.nil
    | with_reducible apply List.mem_cons_self
    | with_reducible apply List.mem_cons_of_mem
    | (extract_lets +onlyGivenNames x
       first
       | (guard_hyp x : Block := _
          refine Kept.cut (ps := [.heat]) (b := b) (x := x) ?_ fun hx => ?_
          on_goal 1 => subst x
          on_goal 2 => try clear_value x)
       | clear_value x
       | skip)
    | (simp only [Kept.by_fields]; with_reducible apply Kept.fields <;>
         first | with_reducible exact Or.inl rfl | (apply Or.inr; apply Piece.mem_of; rfl) | exact Or.inr (by simp; done) | (refine Or.inr ⟨?_, ?_⟩ <;> first | (apply Or.inl; apply Piece.mem_of; rfl) | exact Or.inl (by simp; done) | with_reducible exact Or.inr rfl | with_reducible exact Or.inr ⟨rfl, rfl, rfl, rfl⟩ | with_reducible exact Or.inr ⟨rfl, rfl, rfl, rfl, rfl⟩ | (refine ⟨?_, ?_⟩ <;> first | (apply Or.inl; apply Piece.mem_of; rfl) | exact Or.inl (by simp; done) | with_reducible exact Or.inr rfl)) | skip)

theorem Block.keepReport_keeps {qs : List Piece} {a₀ b : Block} (inside : Within [.heat] qs) (before : Kept qs a₀ b) :
    Kept qs a₀ (Block.keepReport b) := Kept.step (Block.keepReport_kept _) inside before

theorem Block.convert_kept (b : Block) (r : Readings) : Kept [.heat] b (Block.convert b r) := by
  unfold Block.convert
  repeat' first
    | with_reducible assumption
    | with_reducible apply Kept.refl
    | with_reducible apply Within.refl
    | ((with_reducible apply Within.of); rfl)
    | ((with_reducible apply Within.cons); (apply Piece.inside_of; rfl))
    | ((with_reducible apply Within.cons); apply Or.inr)
    | with_reducible apply Within.nil
    | with_reducible apply List.mem_cons_self
    | with_reducible apply List.mem_cons_of_mem
    | (extract_lets +onlyGivenNames x
       first
       | (guard_hyp x : Block := _
          refine Kept.cut (ps := [.heat]) (b := b) (x := x) ?_ fun hx => ?_
          on_goal 1 => subst x
          on_goal 2 => try clear_value x)
       | clear_value x
       | skip)
    | (simp only [Kept.by_fields]; with_reducible apply Kept.fields <;>
         first | with_reducible exact Or.inl rfl | (apply Or.inr; apply Piece.mem_of; rfl) | exact Or.inr (by simp; done) | (refine Or.inr ⟨?_, ?_⟩ <;> first | (apply Or.inl; apply Piece.mem_of; rfl) | exact Or.inl (by simp; done) | with_reducible exact Or.inr rfl | with_reducible exact Or.inr ⟨rfl, rfl, rfl, rfl⟩ | with_reducible exact Or.inr ⟨rfl, rfl, rfl, rfl, rfl⟩ | (refine ⟨?_, ?_⟩ <;> first | (apply Or.inl; apply Piece.mem_of; rfl) | exact Or.inl (by simp; done) | with_reducible exact Or.inr rfl)) | skip)
    | (with_reducible apply Kept.each; intro _ _ _)
    | with_reducible apply Kept.ite
    | split

theorem Block.convert_keeps {qs : List Piece} {a₀ b : Block} {r : Readings} (inside : Within [.heat] qs) (before : Kept qs a₀ b) :
    Kept qs a₀ (Block.convert b r) := Kept.step (Block.convert_kept _ _) inside before

theorem Block.noteRef_kept (b : Block) (sd : Side) (ppm : BitVec 16) (spread : BitVec 5) : Kept [.side sd] b (Block.noteRef b sd ppm spread) := by
  unfold Block.noteRef
  repeat' first
    | with_reducible assumption
    | with_reducible apply Kept.refl
    | with_reducible apply Within.refl
    | ((with_reducible apply Within.of); rfl)
    | ((with_reducible apply Within.cons); (apply Piece.inside_of; rfl))
    | ((with_reducible apply Within.cons); apply Or.inr)
    | with_reducible apply Within.nil
    | with_reducible apply List.mem_cons_self
    | with_reducible apply List.mem_cons_of_mem
    | with_reducible apply Block.modSide_keeps
    | with_reducible apply Kept.ite
    | split

theorem Block.noteRef_keeps {qs : List Piece} {a₀ b : Block} {sd : Side} {ppm : BitVec 16} {spread : BitVec 5} (inside : Within [.side sd] qs) (before : Kept qs a₀ b) :
    Kept qs a₀ (Block.noteRef b sd ppm spread) := Kept.step (Block.noteRef_kept _ _ _ _) inside before

theorem Block.sensorRound_kept (b : Block) (r : Readings) : Kept [.events, .heat, .reg Off.htAlarm, .reg Off.lgAlarm] b (Block.sensorRound b r) := by
  unfold Block.sensorRound
  repeat' first
    | with_reducible assumption
    | with_reducible apply Kept.refl
    | with_reducible apply Within.refl
    | ((with_reducible apply Within.of); rfl)
    | ((with_reducible apply Within.cons); (apply Piece.inside_of; rfl))
    | ((with_reducible apply Within.cons); apply Or.inr)
    | with_reducible apply Within.nil
    | with_reducible apply List.mem_cons_self
    | with_reducible apply List.mem_cons_of_mem
    | (extract_lets +onlyGivenNames x
       first
       | (guard_hyp x : Block := _
          refine Kept.cut (ps := [.events, .heat, .reg Off.htAlarm, .reg Off.lgAlarm]) (b := b) (x := x) ?_ fun hx => ?_
          on_goal 1 => subst x
          on_goal 2 => try clear_value x)
       | clear_value x
       | skip)
    | (with_reducible apply Kept.each; intro _ _ _)
    | with_reducible apply Block.notePower_keeps
    | with_reducible apply Block.seeSensor_keeps
    | with_reducible apply Block.checkSensor_keeps
    | with_reducible apply Kept.ite
    | split

theorem Block.sensorRound_keeps {qs : List Piece} {a₀ b : Block} {r : Readings} (inside : Within [.events, .heat, .reg Off.htAlarm, .reg Off.lgAlarm] qs) (before : Kept qs a₀ b) :
    Kept qs a₀ (Block.sensorRound b r) := Kept.step (Block.sensorRound_kept _ _) inside before

theorem Block.surveyPower_kept (b : Block) : Kept [.reg Off.pwAlarm, .sv] b (Block.surveyPower b) := by
  unfold Block.surveyPower
  repeat' first
    | with_reducible assumption
    | with_reducible apply Kept.refl
    | with_reducible apply Within.refl
    | ((with_reducible apply Within.of); rfl)
    | ((with_reducible apply Within.cons); (apply Piece.inside_of; rfl))
    | ((with_reducible apply Within.cons); apply Or.inr)
    | with_reducible apply Within.nil
    | with_reducible apply List.mem_cons_self
    | with_reducible apply List.mem_cons_of_mem
    | (extract_lets +onlyGivenNames x
       first
       | (guard_hyp x : Block := _
          refine Kept.cut (ps := [.reg Off.pwAlarm, .sv]) (b := b) (x := x) ?_ fun hx => ?_
          on_goal 1 => subst x
          on_goal 2 => try clear_value x)
       | clear_value x
       | skip)
    | (simp only [Kept.by_fields]; with_reducible apply Kept.fields <;>
         first | with_reducible exact Or.inl rfl | (apply Or.inr; apply Piece.mem_of; rfl) | exact Or.inr (by simp; done) | (refine Or.inr ⟨?_, ?_⟩ <;> first | (apply Or.inl; apply Piece.mem_of; rfl) | exact Or.inl (by simp; done) | with_reducible exact Or.inr rfl | with_reducible exact Or.inr ⟨rfl, rfl, rfl, rfl⟩ | with_reducible exact Or.inr ⟨rfl, rfl, rfl, rfl, rfl⟩ | (refine ⟨?_, ?_⟩ <;> first | (apply Or.inl; apply Piece.mem_of; rfl) | exact Or.inl (by simp; done) | with_reducible exact Or.inr rfl)) | skip)
    | with_reducible apply Block.orReg_keeps
    | with_reducible apply Kept.ite
    | split

theorem Block.surveyPower_keeps {qs : List Piece} {a₀ b : Block} (inside : Within [.reg Off.pwAlarm, .sv] qs) (before : Kept qs a₀ b) :
    Kept qs a₀ (Block.surveyPower b) := Kept.step (Block.surveyPower_kept _) inside before

theorem Block.capAndTrim_kept (b : Block) : Kept [.ck, .heat, .reg Off.ckAlarm, .reg Off.htAlarm, .reg Off.pwAlarm, .sv] b (Block.capAndTrim b) := by
  unfold Block.capAndTrim
  repeat' first
    | with_reducible assumption
    | with_reducible apply Kept.refl
    | with_reducible apply Within.refl
    | ((with_reducible apply Within.of); rfl)
    | ((with_reducible apply Within.cons); (apply Piece.inside_of; rfl))
    | ((with_reducible apply Within.cons); apply Or.inr)
    | with_reducible apply Within.nil
    | with_reducible apply List.mem_cons_self
    | with_reducible apply List.mem_cons_of_mem
    | with_reducible apply Block.bandgap_keeps
    | with_reducible apply Block.correct_keeps
    | with_reducible apply Block.keepReport_keeps
    | with_reducible apply Block.surveyPower_keeps
    | with_reducible apply Block.capRound_keeps
    | with_reducible apply Kept.ite
    | split

theorem Block.capAndTrim_keeps {qs : List Piece} {a₀ b : Block} (inside : Within [.ck, .heat, .reg Off.ckAlarm, .reg Off.htAlarm, .reg Off.pwAlarm, .sv] qs) (before : Kept qs a₀ b) :
    Kept qs a₀ (Block.capAndTrim b) := Kept.step (Block.capAndTrim_kept _) inside before

theorem Block.afterLayers_kept (b : Block) : Kept [.berths, .chans, .chs, .cnt, .cols, .events, .fws, .heat, .ins, .lanes, .mf, .pw, .qy, .regs, .sides, .stk, .tl] b (Block.afterLayers b) := by
  unfold Block.afterLayers
  repeat' first
    | with_reducible assumption
    | with_reducible apply Kept.refl
    | with_reducible apply Within.refl
    | ((with_reducible apply Within.of); rfl)
    | ((with_reducible apply Within.cons); (apply Piece.inside_of; rfl))
    | ((with_reducible apply Within.cons); apply Or.inr)
    | with_reducible apply Within.nil
    | with_reducible apply List.mem_cons_self
    | with_reducible apply List.mem_cons_of_mem
    | (extract_lets +onlyGivenNames x
       first
       | (guard_hyp x : Block := _
          refine Kept.cut (ps := [.berths, .chans, .chs, .cnt, .cols, .events, .fws, .heat, .ins, .lanes, .mf, .pw, .qy, .regs, .sides, .stk, .tl]) (b := b) (x := x) ?_ fun hx => ?_
          on_goal 1 => subst x
          on_goal 2 => try clear_value x)
       | clear_value x
       | skip)
    | (with_reducible apply Kept.each; intro _ _ _)
    | with_reducible apply Block.coilRound_keeps
    | with_reducible apply Block.modChan_keeps
    | with_reducible apply Block.refreshRate_keeps
    | with_reducible apply Block.markRefresh_keeps
    | with_reducible apply Block.laneTrigger_keeps
    | with_reducible apply Block.calTrigger_keeps
    | with_reducible apply Kept.ite
    | split

theorem Block.afterLayers_keeps {qs : List Piece} {a₀ b : Block} (inside : Within [.berths, .chans, .chs, .cnt, .cols, .events, .fws, .heat, .ins, .lanes, .mf, .pw, .qy, .regs, .sides, .stk, .tl] qs) (before : Kept qs a₀ b) :
    Kept qs a₀ (Block.afterLayers b) := Kept.step (Block.afterLayers_kept _) inside before

theorem Block.measure_kept (b : Block) (r : Readings) : Kept [.events, .heat, .reg Off.htAlarm, .reg Off.lgAlarm, .sides] b (Block.measure b r) := by
  unfold Block.measure
  repeat' first
    | with_reducible assumption
    | with_reducible apply Kept.refl
    | with_reducible apply Within.refl
    | ((with_reducible apply Within.of); rfl)
    | ((with_reducible apply Within.cons); (apply Piece.inside_of; rfl))
    | ((with_reducible apply Within.cons); apply Or.inr)
    | with_reducible apply Within.nil
    | with_reducible apply List.mem_cons_self
    | with_reducible apply List.mem_cons_of_mem
    | (extract_lets +onlyGivenNames x
       first
       | (guard_hyp x : Block := _
          refine Kept.cut (ps := [.events, .heat, .reg Off.htAlarm, .reg Off.lgAlarm, .sides]) (b := b) (x := x) ?_ fun hx => ?_
          on_goal 1 => subst x
          on_goal 2 => try clear_value x)
       | (guard_hyp x : Clocks := _; subst x)
       | clear_value x
       | skip)
    | (simp only [Kept.by_fields]; with_reducible apply Kept.fields <;>
         first | with_reducible exact Or.inl rfl | (apply Or.inr; apply Piece.mem_of; rfl) | exact Or.inr (by simp; done) | (refine Or.inr ⟨?_, ?_⟩ <;> first | (apply Or.inl; apply Piece.mem_of; rfl) | exact Or.inl (by simp; done) | with_reducible exact Or.inr rfl | with_reducible exact Or.inr ⟨rfl, rfl, rfl, rfl⟩ | with_reducible exact Or.inr ⟨rfl, rfl, rfl, rfl, rfl⟩ | (refine ⟨?_, ?_⟩ <;> first | (apply Or.inl; apply Piece.mem_of; rfl) | exact Or.inl (by simp; done) | with_reducible exact Or.inr rfl)) | skip)
    | with_reducible apply Block.convert_keeps
    | with_reducible apply Block.noteRef_keeps
    | with_reducible apply Block.sensorRound_keeps

theorem Block.measure_keeps {qs : List Piece} {a₀ b : Block} {r : Readings} (inside : Within [.events, .heat, .reg Off.htAlarm, .reg Off.lgAlarm, .sides] qs) (before : Kept qs a₀ b) :
    Kept qs a₀ (Block.measure b r) := Kept.step (Block.measure_kept _ _) inside before

theorem Block.decideLayers_kept (b : Block) : Kept [.events, .fresh, .heat, .reg Off.htAlarm, .reg Off.lgAlarm] b (Block.decideLayers b) := by
  unfold Block.decideLayers
  repeat' first
    | with_reducible assumption
    | with_reducible apply Kept.refl
    | with_reducible apply Within.refl
    | ((with_reducible apply Within.of); rfl)
    | ((with_reducible apply Within.cons); (apply Piece.inside_of; rfl))
    | ((with_reducible apply Within.cons); apply Or.inr)
    | with_reducible apply Within.nil
    | with_reducible apply List.mem_cons_self
    | with_reducible apply List.mem_cons_of_mem
    | (extract_lets +onlyGivenNames x
       first
       | (guard_hyp x : Block := _
          refine Kept.cut (ps := [.events, .fresh, .heat, .reg Off.htAlarm, .reg Off.lgAlarm]) (b := b) (x := x) ?_ fun hx => ?_
          on_goal 1 => subst x
          on_goal 2 => try clear_value x)
       | (guard_hyp x : Clocks := _; subst x)
       | clear_value x
       | skip)
    | (simp only [Kept.by_fields]; with_reducible apply Kept.fields <;>
         first | with_reducible exact Or.inl rfl | (apply Or.inr; apply Piece.mem_of; rfl) | exact Or.inr (by simp; done) | (refine Or.inr ⟨?_, ?_⟩ <;> first | (apply Or.inl; apply Piece.mem_of; rfl) | exact Or.inl (by simp; done) | with_reducible exact Or.inr rfl | with_reducible exact Or.inr ⟨rfl, rfl, rfl, rfl⟩ | with_reducible exact Or.inr ⟨rfl, rfl, rfl, rfl, rfl⟩ | (refine ⟨?_, ?_⟩ <;> first | (apply Or.inl; apply Piece.mem_of; rfl) | exact Or.inl (by simp; done) | with_reducible exact Or.inr rfl)) | skip)
    | (with_reducible apply Kept.each; intro _ _ _)
    | with_reducible apply Block.decideLayer_keeps
    | with_reducible apply Block.draw_keeps

theorem Block.decideLayers_keeps {qs : List Piece} {a₀ b : Block} (inside : Within [.events, .fresh, .heat, .reg Off.htAlarm, .reg Off.lgAlarm] qs) (before : Kept qs a₀ b) :
    Kept qs a₀ (Block.decideLayers b) := Kept.step (Block.decideLayers_kept _) inside before

theorem Block.tripOrStep_kept (b : Block) : Kept [.berths, .chans, .chs, .ck, .cnt, .doms, .events, .fws, .heat, .ins, .lanes, .lg, .pins, .prot, .pw, .qy, .regs, .running, .sides, .slots, .stk, .sv, .tl] b (Block.tripOrStep b) := by
  unfold Block.tripOrStep
  repeat' first
    | with_reducible assumption
    | with_reducible apply Kept.refl
    | with_reducible apply Within.refl
    | ((with_reducible apply Within.of); rfl)
    | ((with_reducible apply Within.cons); (apply Piece.inside_of; rfl))
    | ((with_reducible apply Within.cons); apply Or.inr)
    | with_reducible apply Within.nil
    | with_reducible apply List.mem_cons_self
    | with_reducible apply List.mem_cons_of_mem
    | (with_reducible apply Kept.each; intro _ _ _)
    | with_reducible apply Block.trip_keeps
    | with_reducible apply Block.decideStep_keeps
    | with_reducible apply Kept.ite
    | split

theorem Block.tripOrStep_keeps {qs : List Piece} {a₀ b : Block} (inside : Within [.berths, .chans, .chs, .ck, .cnt, .doms, .events, .fws, .heat, .ins, .lanes, .lg, .pins, .prot, .pw, .qy, .regs, .running, .sides, .slots, .stk, .sv, .tl] qs) (before : Kept qs a₀ b) :
    Kept qs a₀ (Block.tripOrStep b) := Kept.step (Block.tripOrStep_kept _) inside before

theorem Block.watchRound_kept (b : Block) (r : Readings) : Kept [.berths, .chans, .chs, .ck, .cnt, .cols, .doms, .events, .fresh, .fws, .heat, .ins, .lanes, .lg, .mf, .pins, .prot, .pw, .qy, .regs, .running, .sides, .slots, .stk, .sv, .tl] b (Block.watchRound b r) := by
  unfold Block.watchRound
  repeat' first
    | with_reducible assumption
    | with_reducible apply Kept.refl
    | with_reducible apply Within.refl
    | ((with_reducible apply Within.of); rfl)
    | ((with_reducible apply Within.cons); (apply Piece.inside_of; rfl))
    | ((with_reducible apply Within.cons); apply Or.inr)
    | with_reducible apply Within.nil
    | with_reducible apply List.mem_cons_self
    | with_reducible apply List.mem_cons_of_mem
    | (extract_lets +onlyGivenNames x
       first
       | (guard_hyp x : Block := _
          refine Kept.cut (ps := [.berths, .chans, .chs, .ck, .cnt, .cols, .doms, .events, .fresh, .fws, .heat, .ins, .lanes, .lg, .mf, .pins, .prot, .pw, .qy, .regs, .running, .sides, .slots, .stk, .sv, .tl]) (b := b) (x := x) ?_ fun hx => ?_
          on_goal 1 => subst x
          on_goal 2 => try clear_value x)
       | clear_value x
       | skip)
    | (simp only [Kept.by_fields]; with_reducible apply Kept.fields <;>
         first | with_reducible exact Or.inl rfl | (apply Or.inr; apply Piece.mem_of; rfl) | exact Or.inr (by simp; done) | (refine Or.inr ⟨?_, ?_⟩ <;> first | (apply Or.inl; apply Piece.mem_of; rfl) | exact Or.inl (by simp; done) | with_reducible exact Or.inr rfl | with_reducible exact Or.inr ⟨rfl, rfl, rfl, rfl⟩ | with_reducible exact Or.inr ⟨rfl, rfl, rfl, rfl, rfl⟩ | (refine ⟨?_, ?_⟩ <;> first | (apply Or.inl; apply Piece.mem_of; rfl) | exact Or.inl (by simp; done) | with_reducible exact Or.inr rfl)) | skip)
    | with_reducible apply Block.tripOrStep_keeps
    | with_reducible apply Block.afterLayers_keeps
    | with_reducible apply Block.capAndTrim_keeps
    | with_reducible apply Block.decideLayers_keeps
    | with_reducible apply Block.measure_keeps
    | with_reducible apply Kept.ite
    | split

theorem Block.watchRound_keeps {qs : List Piece} {a₀ b : Block} {r : Readings} (inside : Within [.berths, .chans, .chs, .ck, .cnt, .cols, .doms, .events, .fresh, .fws, .heat, .ins, .lanes, .lg, .mf, .pins, .prot, .pw, .qy, .regs, .running, .sides, .slots, .stk, .sv, .tl] qs) (before : Kept qs a₀ b) :
    Kept qs a₀ (Block.watchRound b r) := Kept.step (Block.watchRound_kept _ _) inside before

theorem Block.sensorReplace_kept (b : Block) (m : ManRef) (s : Nat) (action : Nat) (fl : Nat) : Kept [.heat, .ins, .running, .slots] b (Block.sensorReplace b m s action fl) := by
  unfold Block.sensorReplace
  repeat' first
    | with_reducible assumption
    | with_reducible apply Kept.refl
    | with_reducible apply Within.refl
    | ((with_reducible apply Within.of); rfl)
    | ((with_reducible apply Within.cons); (apply Piece.inside_of; rfl))
    | ((with_reducible apply Within.cons); apply Or.inr)
    | with_reducible apply Within.nil
    | with_reducible apply List.mem_cons_self
    | with_reducible apply List.mem_cons_of_mem
    | (extract_lets +onlyGivenNames x
       first
       | (guard_hyp x : Block := _
          refine Kept.cut (ps := [.heat, .ins, .running, .slots]) (b := b) (x := x) ?_ fun hx => ?_
          on_goal 1 => subst x
          on_goal 2 => try clear_value x)
       | clear_value x
       | skip)
    | (simp only [Kept.by_fields]; with_reducible apply Kept.fields <;>
         first | with_reducible exact Or.inl rfl | (apply Or.inr; apply Piece.mem_of; rfl) | exact Or.inr (by simp; done) | (refine Or.inr ⟨?_, ?_⟩ <;> first | (apply Or.inl; apply Piece.mem_of; rfl) | exact Or.inl (by simp; done) | with_reducible exact Or.inr rfl | with_reducible exact Or.inr ⟨rfl, rfl, rfl, rfl⟩ | with_reducible exact Or.inr ⟨rfl, rfl, rfl, rfl, rfl⟩ | (refine ⟨?_, ?_⟩ <;> first | (apply Or.inl; apply Piece.mem_of; rfl) | exact Or.inl (by simp; done) | with_reducible exact Or.inr rfl)) | skip)
    | with_reducible apply Block.finish_keeps
    | with_reducible apply Block.setSensor_keeps
    | with_reducible apply Block.setLayer_keeps
    | with_reducible apply Kept.ite
    | split

theorem Block.sensorReplace_keeps {qs : List Piece} {a₀ b : Block} {m : ManRef} {s : Nat} {action : Nat} {fl : Nat} (inside : Within [.heat, .ins, .running, .slots] qs) (before : Kept qs a₀ b) :
    Kept qs a₀ (Block.sensorReplace b m s action fl) := Kept.step (Block.sensorReplace_kept _ _ _ _ _) inside before

end Sys2Proof.Machine
end

