-- ==== Sys2Proof/Laws/FramesRest.lean ====
section
/-! SUPPORT. The frames of survey, arrival, manifests and registers: for each operation what it can change at most (`_kept`), and the same as a step of a
longer frame (`_keeps`). -/

namespace Sys2Proof.Machine

open Sys2Proof
set_option linter.all false
set_option Elab.async false

theorem Block.repairChannel_kept (b : Block) (f : SurveyFindings) (ch : Nat) : Kept [.col ch, .sv] b (Block.repairChannel b f ch).1 := by
  unfold Block.repairChannel
  repeat' first
    | with_reducible assumption
    | with_reducible apply Kept.refl
    | with_reducible apply Within.refl
    | ((with_reducible apply Within.of); rfl)
    | ((with_reducible apply Within.cons); (apply Piece.inside_of; rfl))
    | ((with_reducible apply Within.cons); apply Or.inr)
    | with_reducible apply Within.nil
    | with_reducible apply List.mem_cons_self
    | with_reducible apply List.mem_cons_of_mem
    | (extract_lets +onlyGivenNames x
       first
       | (guard_hyp x : Block := _
          refine Kept.cut (ps := [.col ch, .sv]) (b := b) (x := x) ?_ fun hx => ?_
          on_goal 1 => subst x
          on_goal 2 => try clear_value x)
       | clear_value x
       | skip)
    | (simp only [Kept.by_fields]; with_reducible apply Kept.fields <;>
         first | with_reducible exact Or.inl rfl | (apply Or.inr; apply Piece.mem_of; rfl) | exact Or.inr (by simp; done) | (refine Or.inr ⟨?_, ?_⟩ <;> first | (apply Or.inl; apply Piece.mem_of; rfl) | exact Or.inl (by simp; done) | with_reducible exact Or.inr rfl | with_reducible exact Or.inr ⟨rfl, rfl, rfl, rfl⟩ | with_reducible exact Or.inr ⟨rfl, rfl, rfl, rfl, rfl⟩ | (refine ⟨?_, ?_⟩ <;> first | (apply Or.inl; apply Piece.mem_of; rfl) | exact Or.inl (by simp; done) | with_reducible exact Or.inr rfl)) | skip)
    | (with_reducible apply Kept.foldl; intro _ _ _)
    | (with_reducible apply Kept.foldl_fst_of; (case eq => assumption); intro _ _ _)
    | (with_reducible apply Kept.foldl_fst; intro _ _ _)
    | with_reducible apply Block.modCol_keeps
    | dsimp -zeta only
    | with_reducible apply Kept.ite
    | split

theorem Block.repairChannel_keeps {qs : List Piece} {a₀ b : Block} {f : SurveyFindings} {ch : Nat} (inside : Within [.col ch, .sv] qs) (before : Kept qs a₀ b) :
    Kept qs a₀ (Block.repairChannel b f ch).1 := Kept.step (Block.repairChannel_kept b f ch) inside before

theorem Block.repairChannel_of {qs : List Piece} {a₀ b c₀ : Block} {f : SurveyFindings} {ch : Nat} {y₀ : Bool} (eq : Block.repairChannel b f ch = (c₀, y₀)) (inside : Within [.col ch, .sv] qs)
    (before : Kept qs a₀ b) : Kept qs a₀ c₀ := by
  have h := Kept.step (Block.repairChannel_kept b f ch) inside before
  rw [eq] at h; exact h

theorem Block.trimRepairs_kept (b : Block) (n : Nat) : Kept [.sv] b (Block.trimRepairs b n).1 := by
  induction n generalizing b with
  | zero => exact Kept.refl _ _
  | succ n ih =>
    unfold Block.trimRepairs
    split
    · exact Kept.refl _ _
    · refine Kept.trans ?_ (ih _)
      simp only [Kept.by_fields]
      with_reducible apply Kept.fields <;> first | with_reducible exact Or.inl rfl | (apply Or.inr; apply Piece.mem_of; rfl) | exact Or.inr (by simp; done) | (refine Or.inr ⟨?_, ?_⟩ <;> first | (apply Or.inl; apply Piece.mem_of; rfl) | exact Or.inl (by simp; done) | with_reducible exact Or.inr rfl | with_reducible exact Or.inr ⟨rfl, rfl, rfl, rfl⟩ | with_reducible exact Or.inr ⟨rfl, rfl, rfl, rfl, rfl⟩ | (refine ⟨?_, ?_⟩ <;> first | (apply Or.inl; apply Piece.mem_of; rfl) | exact Or.inl (by simp; done) | with_reducible exact Or.inr rfl)) | exact Kept.refl _ _

theorem Block.trimRepairs_keeps {qs : List Piece} {a₀ b : Block} {l : Nat} (inside : Within [.sv] qs) (before : Kept qs a₀ b) :
    Kept qs a₀ (Block.trimRepairs b l).1 := Kept.step (Block.trimRepairs_kept b l) inside before

theorem Block.trimRepairs_of {qs : List Piece} {a₀ b c₀ : Block} {l : Nat} {y₀ : List Nat} (eq : Block.trimRepairs b l = (c₀, y₀)) (inside : Within [.sv] qs)
    (before : Kept qs a₀ b) : Kept qs a₀ c₀ := by
  have h := Kept.step (Block.trimRepairs_kept b l) inside before
  rw [eq] at h; exact h

theorem Block.sramInstance_kept (b : Block) (f : SurveyFindings) (inst : Nat) : Kept [.sv] b (Block.sramInstance b f inst).1 := by
  unfold Block.sramInstance
  repeat' first
    | with_reducible assumption
    | with_reducible apply Kept.refl
    | with_reducible apply Within.refl
    | ((with_reducible apply Within.of); rfl)
    | ((with_reducible apply Within.cons); (apply Piece.inside_of; rfl))
    | ((with_reducible apply Within.cons); apply Or.inr)
    | with_reducible apply Within.nil
    | with_reducible apply List.mem_cons_self
    | with_reducible apply List.mem_cons_of_mem
    | (extract_lets +onlyGivenNames x
       first
       | (guard_hyp x : Block := _
          refine Kept.cut (ps := [.sv]) (b := b) (x := x) ?_ fun hx => ?_
          on_goal 1 => subst x
          on_goal 2 => try clear_value x)
       | clear_value x
       | skip)
    | (simp only [Kept.by_fields]; with_reducible apply Kept.fields <;>
         first | with_reducible exact Or.inl rfl | (apply Or.inr; apply Piece.mem_of; rfl) | exact Or.inr (by simp; done) | (refine Or.inr ⟨?_, ?_⟩ <;> first | (apply Or.inl; apply Piece.mem_of; rfl) | exact Or.inl (by simp; done) | with_reducible exact Or.inr rfl | with_reducible exact Or.inr ⟨rfl, rfl, rfl, rfl⟩ | with_reducible exact Or.inr ⟨rfl, rfl, rfl, rfl, rfl⟩ | (refine ⟨?_, ?_⟩ <;> first | (apply Or.inl; apply Piece.mem_of; rfl) | exact Or.inl (by simp; done) | with_reducible exact Or.inr rfl)) | skip)
    | dsimp -zeta only
    | with_reducible apply Kept.ite
    | split

theorem Block.sramInstance_keeps {qs : List Piece} {a₀ b : Block} {f : SurveyFindings} {inst : Nat} (inside : Within [.sv] qs) (before : Kept qs a₀ b) :
    Kept qs a₀ (Block.sramInstance b f inst).1 := Kept.step (Block.sramInstance_kept b f inst) inside before

theorem Block.sramInstance_of {qs : List Piece} {a₀ b c₀ : Block} {f : SurveyFindings} {inst : Nat} {y₀ : Bool} (eq : Block.sramInstance b f inst = (c₀, y₀)) (inside : Within [.sv] qs)
    (before : Kept qs a₀ b) : Kept qs a₀ c₀ := by
  have h := Kept.step (Block.sramInstance_kept b f inst) inside before
  rw [eq] at h; exact h

theorem Block.markLane_kept (b : Block) (l : Nat) : Kept [.events, .lane l, .reg Off.lgAlarm, .sv] b (Block.markLane b l) := by
  unfold Block.markLane
  repeat' first
    | with_reducible assumption
    | with_reducible apply Kept.refl
    | with_reducible apply Within.refl
    | ((with_reducible apply Within.of); rfl)
    | ((with_reducible apply Within.cons); (apply Piece.inside_of; rfl))
    | ((with_reducible apply Within.cons); apply Or.inr)
    | with_reducible apply Within.nil
    | with_reducible apply List.mem_cons_self
    | with_reducible apply List.mem_cons_of_mem
    | (extract_lets +onlyGivenNames x
       first
       | (guard_hyp x : Block := _
          refine Kept.cut (ps := [.events, .lane l, .reg Off.lgAlarm, .sv]) (b := b) (x := x) ?_ fun hx => ?_
          on_goal 1 => subst x
          on_goal 2 => try clear_value x)
       | clear_value x
       | skip)
    | (simp only [Kept.by_fields]; with_reducible apply Kept.fields <;>
         first | with_reducible exact Or.inl rfl | (apply Or.inr; apply Piece.mem_of; rfl) | exact Or.inr (by simp; done) | (refine Or.inr ⟨?_, ?_⟩ <;> first | (apply Or.inl; apply Piece.mem_of; rfl) | exact Or.inl (by simp; done) | with_reducible exact Or.inr rfl | with_reducible exact Or.inr ⟨rfl, rfl, rfl, rfl⟩ | with_reducible exact Or.inr ⟨rfl, rfl, rfl, rfl, rfl⟩ | (refine ⟨?_, ?_⟩ <;> first | (apply Or.inl; apply Piece.mem_of; rfl) | exact Or.inl (by simp; done) | with_reducible exact Or.inr rfl)) | skip)
    | with_reducible apply Block.modLane_keeps
    | with_reducible apply Block.event_keeps
    | with_reducible apply Kept.ite
    | split

theorem Block.markLane_keeps {qs : List Piece} {a₀ b : Block} {l : Nat} (inside : Within [.events, .lane l, .reg Off.lgAlarm, .sv] qs) (before : Kept qs a₀ b) :
    Kept qs a₀ (Block.markLane b l) := Kept.step (Block.markLane_kept _ _) inside before

theorem Block.leaveService_kept (b : Block) (n : Nat) : Kept [.berths, .chs, .cnt, .events, .fws, .ins, .lanes, .mf, .pw, .qy, .regs, .sides, .stk, .tl] b (Block.leaveService b n) := by
  unfold Block.leaveService
  repeat' first
    | with_reducible assumption
    | with_reducible apply Kept.refl
    | with_reducible apply Within.refl
    | ((with_reducible apply Within.of); rfl)
    | ((with_reducible apply Within.cons); (apply Piece.inside_of; rfl))
    | ((with_reducible apply Within.cons); apply Or.inr)
    | with_reducible apply Within.nil
    | with_reducible apply List.mem_cons_self
    | with_reducible apply List.mem_cons_of_mem
    | with_reducible apply Block.checkOpen_keeps
    | with_reducible apply Block.settle_keeps
    | with_reducible apply Block.charterBerthLost_keeps
    | with_reducible apply Block.enterFenced_keeps
    | with_reducible apply Kept.ite
    | split

theorem Block.leaveService_keeps {qs : List Piece} {a₀ b : Block} {n : Nat} (inside : Within [.berths, .chs, .cnt, .events, .fws, .ins, .lanes, .mf, .pw, .qy, .regs, .sides, .stk, .tl] qs) (before : Kept qs a₀ b) :
    Kept qs a₀ (Block.leaveService b n) := Kept.step (Block.leaveService_kept _ _) inside before

theorem Block.bgFails_kept (b : Block) (d : Nat) : Kept [.berths, .chs, .cnt, .events, .fws, .ins, .lanes, .mf, .pw, .qy, .regs, .sides, .stk, .tl] b (Block.bgFails b d) := by
  unfold Block.bgFails
  repeat' first
    | with_reducible assumption
    | with_reducible apply Kept.refl
    | with_reducible apply Within.refl
    | ((with_reducible apply Within.of); rfl)
    | ((with_reducible apply Within.cons); (apply Piece.inside_of; rfl))
    | ((with_reducible apply Within.cons); apply Or.inr)
    | with_reducible apply Within.nil
    | with_reducible apply List.mem_cons_self
    | with_reducible apply List.mem_cons_of_mem
    | (with_reducible apply Kept.each; intro _ _ _)
    | with_reducible apply Block.leaveService_keeps
    | with_reducible apply Kept.ite
    | split

theorem Block.bgFails_keeps {qs : List Piece} {a₀ b : Block} {d : Nat} (inside : Within [.berths, .chs, .cnt, .events, .fws, .ins, .lanes, .mf, .pw, .qy, .regs, .sides, .stk, .tl] qs) (before : Kept qs a₀ b) :
    Kept qs a₀ (Block.bgFails b d) := Kept.step (Block.bgFails_kept _ _) inside before

theorem Block.showDomain_kept (b : Block) (d : Nat) : Kept [.sv] b (Block.showDomain b d) := by
  unfold Block.showDomain
  repeat' first
    | with_reducible assumption
    | with_reducible apply Kept.refl
    | with_reducible apply Within.refl
    | ((with_reducible apply Within.of); rfl)
    | ((with_reducible apply Within.cons); (apply Piece.inside_of; rfl))
    | ((with_reducible apply Within.cons); apply Or.inr)
    | with_reducible apply Within.nil
    | with_reducible apply List.mem_cons_self
    | with_reducible apply List.mem_cons_of_mem
    | (extract_lets +onlyGivenNames x
       first
       | (guard_hyp x : Block := _
          refine Kept.cut (ps := [.sv]) (b := b) (x := x) ?_ fun hx => ?_
          on_goal 1 => subst x
          on_goal 2 => try clear_value x)
       | clear_value x
       | skip)
    | (simp only [Kept.by_fields]; with_reducible apply Kept.fields <;>
         first | with_reducible exact Or.inl rfl | (apply Or.inr; apply Piece.mem_of; rfl) | exact Or.inr (by simp; done) | (refine Or.inr ⟨?_, ?_⟩ <;> first | (apply Or.inl; apply Piece.mem_of; rfl) | exact Or.inl (by simp; done) | with_reducible exact Or.inr rfl | with_reducible exact Or.inr ⟨rfl, rfl, rfl, rfl⟩ | with_reducible exact Or.inr ⟨rfl, rfl, rfl, rfl, rfl⟩ | (refine ⟨?_, ?_⟩ <;> first | (apply Or.inl; apply Piece.mem_of; rfl) | exact Or.inl (by simp; done) | with_reducible exact Or.inr rfl)) | skip)
    | with_reducible apply Kept.ite
    | split

theorem Block.showDomain_keeps {qs : List Piece} {a₀ b : Block} {d : Nat} (inside : Within [.sv] qs) (before : Kept qs a₀ b) :
    Kept qs a₀ (Block.showDomain b d) := Kept.step (Block.showDomain_kept _ _) inside before

theorem Block.hideDomain_kept (b : Block) (d : Nat) : Kept [.sv] b (Block.hideDomain b d) := by
  unfold Block.hideDomain
  repeat' first
    | with_reducible assumption
    | with_reducible apply Kept.refl
    | with_reducible apply Within.refl
    | ((with_reducible apply Within.of); rfl)
    | ((with_reducible apply Within.cons); (apply Piece.inside_of; rfl))
    | ((with_reducible apply Within.cons); apply Or.inr)
    | with_reducible apply Within.nil
    | with_reducible apply List.mem_cons_self
    | with_reducible apply List.mem_cons_of_mem
    | (extract_lets +onlyGivenNames x
       first
       | (guard_hyp x : Block := _
          refine Kept.cut (ps := [.sv]) (b := b) (x := x) ?_ fun hx => ?_
          on_goal 1 => subst x
          on_goal 2 => try clear_value x)
       | clear_value x
       | skip)
    | (simp only [Kept.by_fields]; with_reducible apply Kept.fields <;>
         first | with_reducible exact Or.inl rfl | (apply Or.inr; apply Piece.mem_of; rfl) | exact Or.inr (by simp; done) | (refine Or.inr ⟨?_, ?_⟩ <;> first | (apply Or.inl; apply Piece.mem_of; rfl) | exact Or.inl (by simp; done) | with_reducible exact Or.inr rfl | with_reducible exact Or.inr ⟨rfl, rfl, rfl, rfl⟩ | with_reducible exact Or.inr ⟨rfl, rfl, rfl, rfl, rfl⟩ | (refine ⟨?_, ?_⟩ <;> first | (apply Or.inl; apply Piece.mem_of; rfl) | exact Or.inl (by simp; done) | with_reducible exact Or.inr rfl)) | skip)
    | (with_reducible apply Kept.foldl; intro _ _ _)
    | with_reducible apply Kept.ite
    | split

theorem Block.hideDomain_keeps {qs : List Piece} {a₀ b : Block} {d : Nat} (inside : Within [.sv] qs) (before : Kept qs a₀ b) :
    Kept qs a₀ (Block.hideDomain b d) := Kept.step (Block.hideDomain_kept _ _) inside before

theorem Block.markDomain_kept (b : Block) (d : Nat) : Kept [.berths, .chs, .cnt, .dom d, .events, .fws, .ins, .lanes, .mf, .pw, .qy, .regs, .sides, .stk, .sv, .tl] b (Block.markDomain b d) := by
  unfold Block.markDomain
  repeat' first
    | with_reducible assumption
    | with_reducible apply Kept.refl
    | with_reducible apply Within.refl
    | ((with_reducible apply Within.of); rfl)
    | ((with_reducible apply Within.cons); (apply Piece.inside_of; rfl))
    | ((with_reducible apply Within.cons); apply Or.inr)
    | with_reducible apply Within.nil
    | with_reducible apply List.mem_cons_self
    | with_reducible apply List.mem_cons_of_mem
    | (extract_lets +onlyGivenNames x
       first
       | (guard_hyp x : Block := _
          refine Kept.cut (ps := [.berths, .chs, .cnt, .dom d, .events, .fws, .ins, .lanes, .mf, .pw, .qy, .regs, .sides, .stk, .sv, .tl]) (b := b) (x := x) ?_ fun hx => ?_
          on_goal 1 => subst x
          on_goal 2 => try clear_value x)
       | clear_value x
       | skip)
    | with_reducible apply Block.bgFails_keeps
    | with_reducible apply Block.event_keeps
    | with_reducible apply Block.showDomain_keeps
    | with_reducible apply Block.modDom_keeps
    | with_reducible apply Kept.ite
    | split

theorem Block.markDomain_keeps {qs : List Piece} {a₀ b : Block} {d : Nat} (inside : Within [.berths, .chs, .cnt, .dom d, .events, .fws, .ins, .lanes, .mf, .pw, .qy, .regs, .sides, .stk, .sv, .tl] qs) (before : Kept qs a₀ b) :
    Kept qs a₀ (Block.markDomain b d) := Kept.step (Block.markDomain_kept _ _) inside before

theorem Block.passDomain_kept (b : Block) (d : Nat) : Kept [.dom d, .sv] b (Block.passDomain b d) := by
  unfold Block.passDomain
  repeat' first
    | with_reducible assumption
    | with_reducible apply Kept.refl
    | with_reducible apply Within.refl
    | ((with_reducible apply Within.of); rfl)
    | ((with_reducible apply Within.cons); (apply Piece.inside_of; rfl))
    | ((with_reducible apply Within.cons); apply Or.inr)
    | with_reducible apply Within.nil
    | with_reducible apply List.mem_cons_self
    | with_reducible apply List.mem_cons_of_mem
    | (extract_lets +onlyGivenNames x
       first
       | (guard_hyp x : Block := _
          refine Kept.cut (ps := [.dom d, .sv]) (b := b) (x := x) ?_ fun hx => ?_
          on_goal 1 => subst x
          on_goal 2 => try clear_value x)
       | clear_value x
       | skip)
    | (simp only [Kept.by_fields]; with_reducible apply Kept.fields <;>
         first | with_reducible exact Or.inl rfl | (apply Or.inr; apply Piece.mem_of; rfl) | exact Or.inr (by simp; done) | (refine Or.inr ⟨?_, ?_⟩ <;> first | (apply Or.inl; apply Piece.mem_of; rfl) | exact Or.inl (by simp; done) | with_reducible exact Or.inr rfl | with_reducible exact Or.inr ⟨rfl, rfl, rfl, rfl⟩ | with_reducible exact Or.inr ⟨rfl, rfl, rfl, rfl, rfl⟩ | (refine ⟨?_, ?_⟩ <;> first | (apply Or.inl; apply Piece.mem_of; rfl) | exact Or.inl (by simp; done) | with_reducible exact Or.inr rfl)) | skip)
    | with_reducible apply Block.hideDomain_keeps
    | with_reducible apply Block.modDom_keeps
    | with_reducible apply Kept.ite
    | split

theorem Block.passDomain_keeps {qs : List Piece} {a₀ b : Block} {d : Nat} (inside : Within [.dom d, .sv] qs) (before : Kept qs a₀ b) :
    Kept qs a₀ (Block.passDomain b d) := Kept.step (Block.passDomain_kept _ _) inside before

theorem Block.markChannel_kept (b : Block) (n : Nat) (fence : Bool) : Kept [.berths, .chans, .chs, .cnt, .events, .fws, .ins, .lanes, .mf, .pw, .qy, .regs, .sides, .stk, .sv, .tl] b (Block.markChannel b n fence) := by
  unfold Block.markChannel
  repeat' first
    | with_reducible assumption
    | with_reducible apply Kept.refl
    | with_reducible apply Within.refl
    | ((with_reducible apply Within.of); rfl)
    | ((with_reducible apply Within.cons); (apply Piece.inside_of; rfl))
    | ((with_reducible apply Within.cons); apply Or.inr)
    | with_reducible apply Within.nil
    | with_reducible apply List.mem_cons_self
    | with_reducible apply List.mem_cons_of_mem
    | (extract_lets +onlyGivenNames x
       first
       | (guard_hyp x : Block := _
          refine Kept.cut (ps := [.berths, .chans, .chs, .cnt, .events, .fws, .ins, .lanes, .mf, .pw, .qy, .regs, .sides, .stk, .sv, .tl]) (b := b) (x := x) ?_ fun hx => ?_
          on_goal 1 => subst x
          on_goal 2 => try clear_value x)
       | clear_value x
       | skip)
    | (simp only [Kept.by_fields]; with_reducible apply Kept.fields <;>
         first | with_reducible exact Or.inl rfl | (apply Or.inr; apply Piece.mem_of; rfl) | exact Or.inr (by simp; done) | (refine Or.inr ⟨?_, ?_⟩ <;> first | (apply Or.inl; apply Piece.mem_of; rfl) | exact Or.inl (by simp; done) | with_reducible exact Or.inr rfl | with_reducible exact Or.inr ⟨rfl, rfl, rfl, rfl⟩ | with_reducible exact Or.inr ⟨rfl, rfl, rfl, rfl, rfl⟩ | (refine ⟨?_, ?_⟩ <;> first | (apply Or.inl; apply Piece.mem_of; rfl) | exact Or.inl (by simp; done) | with_reducible exact Or.inr rfl)) | skip)
    | with_reducible apply Block.fenceRunning_keeps
    | with_reducible apply Block.leaveService_keeps
    | with_reducible apply Block.modBerth_keeps
    | with_reducible apply Block.event_keeps
    | with_reducible apply Kept.ite
    | split

theorem Block.markChannel_keeps {qs : List Piece} {a₀ b : Block} {n : Nat} {fence : Bool} (inside : Within [.berths, .chans, .chs, .cnt, .events, .fws, .ins, .lanes, .mf, .pw, .qy, .regs, .sides, .stk, .sv, .tl] qs) (before : Kept qs a₀ b) :
    Kept qs a₀ (Block.markChannel b n fence) := Kept.step (Block.markChannel_kept _ _ _) inside before

theorem Block.caRepairs_kept (b : Block) (fails : List (Nat × Nat)) : Kept [.cols] b (Block.caRepairs b fails).1 := by
  unfold Block.caRepairs
  repeat' first
    | with_reducible assumption
    | with_reducible apply Kept.refl
    | with_reducible apply Within.refl
    | ((with_reducible apply Within.of); rfl)
    | ((with_reducible apply Within.cons); (apply Piece.inside_of; rfl))
    | ((with_reducible apply Within.cons); apply Or.inr)
    | with_reducible apply Within.nil
    | with_reducible apply List.mem_cons_self
    | with_reducible apply List.mem_cons_of_mem
    | (extract_lets +onlyGivenNames x
       first
       | (guard_hyp x : Block := _
          refine Kept.cut (ps := [.cols]) (b := b) (x := x) ?_ fun hx => ?_
          on_goal 1 => subst x
          on_goal 2 => try clear_value x)
       | clear_value x
       | skip)
    | (with_reducible apply Kept.foldl; intro _ _ _)
    | (with_reducible apply Kept.foldl_fst_of; (case eq => assumption); intro _ _ _)
    | (with_reducible apply Kept.foldl_fst; intro _ _ _)
    | with_reducible apply Block.setCol_keeps
    | dsimp -zeta only
    | with_reducible apply Kept.ite
    | split

theorem Block.caRepairs_keeps {qs : List Piece} {a₀ b : Block} {fails : List (Nat × Nat)} (inside : Within [.cols] qs) (before : Kept qs a₀ b) :
    Kept qs a₀ (Block.caRepairs b fails).1 := Kept.step (Block.caRepairs_kept b fails) inside before

theorem Block.caRepairs_of {qs : List Piece} {a₀ b c₀ : Block} {fails : List (Nat × Nat)} {y₀ : List Nat} (eq : Block.caRepairs b fails = (c₀, y₀)) (inside : Within [.cols] qs)
    (before : Kept qs a₀ b) : Kept qs a₀ c₀ := by
  have h := Kept.step (Block.caRepairs_kept b fails) inside before
  rw [eq] at h; exact h

theorem Block.powerUp_kept (b : Block) (d : Nat) : Kept [.dom d] b (Block.powerUp b d) := by
  unfold Block.powerUp
  repeat' first
    | with_reducible assumption
    | with_reducible apply Kept.refl
    | with_reducible apply Within.refl
    | ((with_reducible apply Within.of); rfl)
    | ((with_reducible apply Within.cons); (apply Piece.inside_of; rfl))
    | ((with_reducible apply Within.cons); apply Or.inr)
    | with_reducible apply Within.nil
    | with_reducible apply List.mem_cons_self
    | with_reducible apply List.mem_cons_of_mem
    | with_reducible apply Block.modDom_keeps
    | with_reducible apply Kept.ite
    | split

theorem Block.powerUp_keeps {qs : List Piece} {a₀ b : Block} {d : Nat} (inside : Within [.dom d] qs) (before : Kept qs a₀ b) :
    Kept qs a₀ (Block.powerUp b d) := Kept.step (Block.powerUp_kept _ _) inside before

theorem Block.svCheck_kept (b : Block) (ok : Bool) : Kept [.berths, .chs, .cnt, .doms, .events, .fws, .ins, .lanes, .mf, .pw, .qy, .regs, .sides, .stk, .sv, .tl] b (Block.svCheck b ok) := by
  have h : Kept [.berths, .chs, .cnt, .doms, .events, .fws, .ins, .lanes, .mf, .pw, .qy, .regs, .sides, .stk, .sv, .tl] b { b with sv.svOk := ok } := by
    simp only [Kept.by_fields]
    with_reducible apply Kept.fields <;>
      first | with_reducible exact Or.inl rfl | exact Or.inr (by simp; done) | exact Kept.refl _ _
  unfold Block.svCheck
  generalize ({ b with sv.svOk := ok } : Block) = c at h ⊢
  generalize svDom = d
  dsimp only
  apply Kept.ite
  · exact Block.event_keeps (by simp [Within, Piece.inside]) (Block.markDomain_keeps (by simp [Within, Piece.inside]) h)
  · apply Kept.ite
    · exact Block.powerUp_keeps (by simp [Within, Piece.inside]) (Block.passDomain_keeps (by simp [Within, Piece.inside]) h)
    · exact h

theorem Block.svCheck_keeps {qs : List Piece} {a₀ b : Block} {ok : Bool} (inside : Within [.berths, .chs, .cnt, .doms, .events, .fws, .ins, .lanes, .mf, .pw, .qy, .regs, .sides, .stk, .sv, .tl] qs) (before : Kept qs a₀ b) :
    Kept qs a₀ (Block.svCheck b ok) := Kept.step (Block.svCheck_kept _ _) inside before

theorem Block.applyLogic_kept (b : Block) (f : SurveyFindings) : Kept [.berths, .chs, .cnt, .doms, .events, .fws, .ins, .lanes, .mf, .pw, .qy, .regs, .sides, .stk, .sv, .tl] b (Block.applyLogic b f) := by
  unfold Block.applyLogic
  repeat' first
    | with_reducible assumption
    | with_reducible apply Kept.refl
    | with_reducible apply Within.refl
    | ((with_reducible apply Within.of); rfl)
    | ((with_reducible apply Within.cons); (apply Piece.inside_of; rfl))
    | ((with_reducible apply Within.cons); apply Or.inr)
    | with_reducible apply Within.nil
    | with_reducible apply List.mem_cons_self
    | with_reducible apply List.mem_cons_of_mem
    | (extract_lets +onlyGivenNames x
       first
       | (guard_hyp x : Block := _
          refine Kept.cut (ps := [.berths, .chs, .cnt, .doms, .events, .fws, .ins, .lanes, .mf, .pw, .qy, .regs, .sides, .stk, .sv, .tl]) (b := b) (x := x) ?_ fun hx => ?_
          on_goal 1 => subst x
          on_goal 2 => try clear_value x)
       | (guard_hyp x : Block × Bool := _; subst x)
       | clear_value x
       | skip)
    | (with_reducible apply Kept.each; intro _ _ _)
    | with_reducible apply Block.markDomain_keeps
    | (with_reducible apply Block.sramInstance_of; (case eq => assumption))
    | with_reducible apply Block.sramInstance_keeps
    | dsimp -zeta only
    | with_reducible apply Kept.ite
    | split

theorem Block.applyLogic_keeps {qs : List Piece} {a₀ b : Block} {f : SurveyFindings} (inside : Within [.berths, .chs, .cnt, .doms, .events, .fws, .ins, .lanes, .mf, .pw, .qy, .regs, .sides, .stk, .sv, .tl] qs) (before : Kept qs a₀ b) :
    Kept qs a₀ (Block.applyLogic b f) := Kept.step (Block.applyLogic_kept _ _) inside before

theorem Block.applyColumns_kept (b : Block) (f : SurveyFindings) : Kept [.cols, .reg Off.stAlarm, .stk] b (Block.applyColumns b f).1 := by
  unfold Block.applyColumns
  repeat' first
    | with_reducible assumption
    | with_reducible apply Kept.refl
    | with_reducible apply Within.refl
    | ((with_reducible apply Within.of); rfl)
    | ((with_reducible apply Within.cons); (apply Piece.inside_of; rfl))
    | ((with_reducible apply Within.cons); apply Or.inr)
    | with_reducible apply Within.nil
    | with_reducible apply List.mem_cons_self
    | with_reducible apply List.mem_cons_of_mem
    | (extract_lets +onlyGivenNames x
       first
       | (guard_hyp x : Block := _
          refine Kept.cut (ps := [.cols, .reg Off.stAlarm, .stk]) (b := b) (x := x) ?_ fun hx => ?_
          on_goal 1 => subst x
          on_goal 2 => try clear_value x)
       | (guard_hyp x : Block × List Nat := _; subst x)
       | clear_value x
       | skip)
    | (simp only [Kept.by_fields]; with_reducible apply Kept.fields <;>
         first | with_reducible exact Or.inl rfl | (apply Or.inr; apply Piece.mem_of; rfl) | exact Or.inr (by simp; done) | (refine Or.inr ⟨?_, ?_⟩ <;> first | (apply Or.inl; apply Piece.mem_of; rfl) | exact Or.inl (by simp; done) | with_reducible exact Or.inr rfl | with_reducible exact Or.inr ⟨rfl, rfl, rfl, rfl⟩ | with_reducible exact Or.inr ⟨rfl, rfl, rfl, rfl, rfl⟩ | (refine ⟨?_, ?_⟩ <;> first | (apply Or.inl; apply Piece.mem_of; rfl) | exact Or.inl (by simp; done) | with_reducible exact Or.inr rfl)) | skip)
    | (with_reducible apply Kept.each; intro _ _ _)
    | with_reducible apply Block.orReg_keeps
    | with_reducible apply Block.modCol_keeps
    | (with_reducible apply Block.caRepairs_of; (case eq => assumption))
    | with_reducible apply Block.caRepairs_keeps
    | with_reducible apply Block.measured_keeps
    | dsimp -zeta only
    | with_reducible apply Kept.ite
    | split

theorem Block.applyColumns_keeps {qs : List Piece} {a₀ b : Block} {f : SurveyFindings} (inside : Within [.cols, .reg Off.stAlarm, .stk] qs) (before : Kept qs a₀ b) :
    Kept qs a₀ (Block.applyColumns b f).1 := Kept.step (Block.applyColumns_kept b f) inside before

theorem Block.applyColumns_of {qs : List Piece} {a₀ b c₀ : Block} {f : SurveyFindings} {y₀ : List Nat} (eq : Block.applyColumns b f = (c₀, y₀)) (inside : Within [.cols, .reg Off.stAlarm, .stk] qs)
    (before : Kept qs a₀ b) : Kept qs a₀ c₀ := by
  have h := Kept.step (Block.applyColumns_kept b f) inside before
  rw [eq] at h; exact h

theorem Block.applyMarches_kept (b : Block) (f : SurveyFindings) : Kept [.cols, .sv] b (Block.applyMarches b f).1 := by
  unfold Block.applyMarches
  repeat' first
    | with_reducible assumption
    | with_reducible apply Kept.refl
    | with_reducible apply Within.refl
    | ((with_reducible apply Within.of); rfl)
    | ((with_reducible apply Within.cons); (apply Piece.inside_of; rfl))
    | ((with_reducible apply Within.cons); apply Or.inr)
    | with_reducible apply Within.nil
    | with_reducible apply List.mem_cons_self
    | with_reducible apply List.mem_cons_of_mem
    | (extract_lets +onlyGivenNames x
       first
       | (guard_hyp x : Block := _
          refine Kept.cut (ps := [.cols, .sv]) (b := b) (x := x) ?_ fun hx => ?_
          on_goal 1 => subst x
          on_goal 2 => try clear_value x)
       | clear_value x
       | skip)
    | (with_reducible apply Kept.foldl; intro _ _ _)
    | (with_reducible apply Kept.foldl_fst_of; (case eq => assumption); intro _ _ _)
    | (with_reducible apply Kept.foldl_fst; intro _ _ _)
    | (with_reducible apply Block.repairChannel_of; (case eq => assumption))
    | with_reducible apply Block.repairChannel_keeps
    | (with_reducible apply Block.trimRepairs_of; (case eq => assumption))
    | with_reducible apply Block.trimRepairs_keeps
    | dsimp -zeta only
    | with_reducible apply Kept.ite
    | split

theorem Block.applyMarches_keeps {qs : List Piece} {a₀ b : Block} {f : SurveyFindings} (inside : Within [.cols, .sv] qs) (before : Kept qs a₀ b) :
    Kept qs a₀ (Block.applyMarches b f).1 := Kept.step (Block.applyMarches_kept b f) inside before

theorem Block.applyMarches_of {qs : List Piece} {a₀ b c₀ : Block} {f : SurveyFindings} {y₀ : List Nat} (eq : Block.applyMarches b f = (c₀, y₀)) (inside : Within [.cols, .sv] qs)
    (before : Kept qs a₀ b) : Kept qs a₀ c₀ := by
  have h := Kept.step (Block.applyMarches_kept b f) inside before
  rw [eq] at h; exact h

theorem Block.applyFindings_kept (b : Block) (f : SurveyFindings) (tested : Nat → Bool) : Kept [.berths, .chans, .chs, .cnt, .cols, .doms, .events, .fws, .ins, .lanes, .mf, .pw, .qy, .regs, .sides, .stk, .sv, .tl] b (Block.applyFindings b f tested) := by
  unfold Block.applyFindings
  repeat' first
    | with_reducible assumption
    | with_reducible apply Kept.refl
    | with_reducible apply Within.refl
    | ((with_reducible apply Within.of); rfl)
    | ((with_reducible apply Within.cons); (apply Piece.inside_of; rfl))
    | ((with_reducible apply Within.cons); apply Or.inr)
    | with_reducible apply Within.nil
    | with_reducible apply List.mem_cons_self
    | with_reducible apply List.mem_cons_of_mem
    | (extract_lets +onlyGivenNames x
       first
       | (guard_hyp x : Block := _
          refine Kept.cut (ps := [.berths, .chans, .chs, .cnt, .cols, .doms, .events, .fws, .ins, .lanes, .mf, .pw, .qy, .regs, .sides, .stk, .sv, .tl]) (b := b) (x := x) ?_ fun hx => ?_
          on_goal 1 => subst x
          on_goal 2 => try clear_value x)
       | clear_value x
       | skip)
    | (simp only [Kept.by_fields]; with_reducible apply Kept.fields <;>
         first | with_reducible exact Or.inl rfl | (apply Or.inr; apply Piece.mem_of; rfl) | exact Or.inr (by simp; done) | (refine Or.inr ⟨?_, ?_⟩ <;> first | (apply Or.inl; apply Piece.mem_of; rfl) | exact Or.inl (by simp; done) | with_reducible exact Or.inr rfl | with_reducible exact Or.inr ⟨rfl, rfl, rfl, rfl⟩ | with_reducible exact Or.inr ⟨rfl, rfl, rfl, rfl, rfl⟩ | (refine ⟨?_, ?_⟩ <;> first | (apply Or.inl; apply Piece.mem_of; rfl) | exact Or.inl (by simp; done) | with_reducible exact Or.inr rfl)) | skip)
    | (with_reducible apply Kept.each; intro _ _ _)
    | with_reducible apply Block.svCheck_keeps
    | with_reducible apply Block.applyLogic_keeps
    | with_reducible apply Block.markLane_keeps
    | (with_reducible apply Block.applyColumns_of; (case eq => assumption))
    | with_reducible apply Block.applyColumns_keeps
    | (with_reducible apply Block.applyMarches_of; (case eq => assumption))
    | with_reducible apply Block.applyMarches_keeps
    | with_reducible apply Block.markChannel_keeps
    | dsimp -zeta only
    | with_reducible apply Kept.ite
    | split

theorem Block.applyFindings_keeps {qs : List Piece} {a₀ b : Block} {f : SurveyFindings} {tested : Nat → Bool} (inside : Within [.berths, .chans, .chs, .cnt, .cols, .doms, .events, .fws, .ins, .lanes, .mf, .pw, .qy, .regs, .sides, .stk, .sv, .tl] qs) (before : Kept qs a₀ b) :
    Kept qs a₀ (Block.applyFindings b f tested) := Kept.step (Block.applyFindings_kept _ _ _) inside before

theorem Block.chartBegin_kept (b : Block) : Kept [.events, .lg, .reg Off.lgAlarm] b (Block.chartBegin b) := by
  unfold Block.chartBegin
  repeat' first
    | with_reducible assumption
    | with_reducible apply Kept.refl
    | with_reducible apply Within.refl
    | ((with_reducible apply Within.of); rfl)
    | ((with_reducible apply Within.cons); (apply Piece.inside_of; rfl))
    | ((with_reducible apply Within.cons); apply Or.inr)
    | with_reducible apply Within.nil
    | with_reducible apply List.mem_cons_self
    | with_reducible apply List.mem_cons_of_mem
    | (extract_lets +onlyGivenNames x
       first
       | (guard_hyp x : Block := _
          refine Kept.cut (ps := [.events, .lg, .reg Off.lgAlarm]) (b := b) (x := x) ?_ fun hx => ?_
          on_goal 1 => subst x
          on_goal 2 => try clear_value x)
       | (guard_hyp x : Logbook := _; subst x)
       | clear_value x
       | skip)
    | (simp only [Kept.by_fields]; with_reducible apply Kept.fields <;>
         first | with_reducible exact Or.inl rfl | (apply Or.inr; apply Piece.mem_of; rfl) | exact Or.inr (by simp; done) | (refine Or.inr ⟨?_, ?_⟩ <;> first | (apply Or.inl; apply Piece.mem_of; rfl) | exact Or.inl (by simp; done) | with_reducible exact Or.inr rfl | with_reducible exact Or.inr ⟨rfl, rfl, rfl, rfl⟩ | with_reducible exact Or.inr ⟨rfl, rfl, rfl, rfl, rfl⟩ | (refine ⟨?_, ?_⟩ <;> first | (apply Or.inl; apply Piece.mem_of; rfl) | exact Or.inl (by simp; done) | with_reducible exact Or.inr rfl)) | skip)
    | with_reducible apply Block.orReg_keeps
    | with_reducible apply Block.event_keeps
    | with_reducible apply Block.wearSlot_keeps
    | with_reducible apply Kept.ite
    | split

theorem Block.chartBegin_keeps {qs : List Piece} {a₀ b : Block} (inside : Within [.events, .lg, .reg Off.lgAlarm] qs) (before : Kept qs a₀ b) :
    Kept qs a₀ (Block.chartBegin b) := Kept.step (Block.chartBegin_kept _) inside before

theorem Block.chartEnd_kept (b : Block) (age : BitVec 4) : Kept [.lg] b (Block.chartEnd b age) := by
  unfold Block.chartEnd
  repeat' first
    | with_reducible assumption
    | with_reducible apply Kept.refl
    | with_reducible apply Within.refl
    | ((with_reducible apply Within.of); rfl)
    | ((with_reducible apply Within.cons); (apply Piece.inside_of; rfl))
    | ((with_reducible apply Within.cons); apply Or.inr)
    | with_reducible apply Within.nil
    | with_reducible apply List.mem_cons_self
    | with_reducible apply List.mem_cons_of_mem
    | (extract_lets +onlyGivenNames x
       first
       | (guard_hyp x : Block := _
          refine Kept.cut (ps := [.lg]) (b := b) (x := x) ?_ fun hx => ?_
          on_goal 1 => subst x
          on_goal 2 => try clear_value x)
       | (guard_hyp x : Logbook := _; subst x)
       | clear_value x
       | skip)
    | (simp only [Kept.by_fields]; with_reducible apply Kept.fields <;>
         first | with_reducible exact Or.inl rfl | (apply Or.inr; apply Piece.mem_of; rfl) | exact Or.inr (by simp; done) | (refine Or.inr ⟨?_, ?_⟩ <;> first | (apply Or.inl; apply Piece.mem_of; rfl) | exact Or.inl (by simp; done) | with_reducible exact Or.inr rfl | with_reducible exact Or.inr ⟨rfl, rfl, rfl, rfl⟩ | with_reducible exact Or.inr ⟨rfl, rfl, rfl, rfl, rfl⟩ | (refine ⟨?_, ?_⟩ <;> first | (apply Or.inl; apply Piece.mem_of; rfl) | exact Or.inl (by simp; done) | with_reducible exact Or.inr rfl)) | skip)
    | split

theorem Block.chartEnd_keeps {qs : List Piece} {a₀ b : Block} {age : BitVec 4} (inside : Within [.lg] qs) (before : Kept qs a₀ b) :
    Kept qs a₀ (Block.chartEnd b age) := Kept.step (Block.chartEnd_kept _ _) inside before

theorem Block.loadChart_kept (b : Block) : Kept [.berths, .cols, .doms, .heat, .lanes, .pw, .regs, .stk, .sv] b (Block.loadChart b) := by
  unfold Block.loadChart
  repeat' first
    | with_reducible assumption
    | with_reducible apply Kept.refl
    | with_reducible apply Within.refl
    | ((with_reducible apply Within.of); rfl)
    | ((with_reducible apply Within.cons); (apply Piece.inside_of; rfl))
    | ((with_reducible apply Within.cons); apply Or.inr)
    | with_reducible apply Within.nil
    | with_reducible apply List.mem_cons_self
    | with_reducible apply List.mem_cons_of_mem
    | (extract_lets +onlyGivenNames x
       first
       | (guard_hyp x : Block := _
          refine Kept.cut (ps := [.berths, .cols, .doms, .heat, .lanes, .pw, .regs, .stk, .sv]) (b := b) (x := x) ?_ fun hx => ?_
          on_goal 1 => subst x
          on_goal 2 => try clear_value x)
       | (guard_hyp x : Power := _; subst x)
       | clear_value x
       | skip)
    | (simp only [Kept.by_fields]; with_reducible apply Kept.fields <;>
         first | with_reducible exact Or.inl rfl | (apply Or.inr; apply Piece.mem_of; rfl) | exact Or.inr (by simp; done) | (refine Or.inr ⟨?_, ?_⟩ <;> first | (apply Or.inl; apply Piece.mem_of; rfl) | exact Or.inl (by simp; done) | with_reducible exact Or.inr rfl | with_reducible exact Or.inr ⟨rfl, rfl, rfl, rfl⟩ | with_reducible exact Or.inr ⟨rfl, rfl, rfl, rfl, rfl⟩ | (refine ⟨?_, ?_⟩ <;> first | (apply Or.inl; apply Piece.mem_of; rfl) | exact Or.inl (by simp; done) | with_reducible exact Or.inr rfl)) | skip)
    | (with_reducible apply Kept.each; intro _ _ _)
    | with_reducible apply Block.orReg_keeps
    | with_reducible apply Block.setReg_keeps
    | with_reducible apply Block.modLane_keeps
    | with_reducible apply Block.showDomain_keeps
    | with_reducible apply Block.modDom_keeps
    | with_reducible apply Block.modBerth_keeps
    | with_reducible apply Block.modCol_keeps
    | with_reducible apply Block.setSensor_keeps
    | with_reducible apply Kept.ite
    | split

theorem Block.loadChart_keeps {qs : List Piece} {a₀ b : Block} (inside : Within [.berths, .cols, .doms, .heat, .lanes, .pw, .regs, .stk, .sv] qs) (before : Kept qs a₀ b) :
    Kept qs a₀ (Block.loadChart b) := Kept.step (Block.loadChart_kept _) inside before

theorem Block.surveyRun_kept (b : Block) (m : ManRef) (scope : Nat) (mode : Nat) (mask : BitVec 64) : Kept [.ins, .running, .slots, .sv] b (Block.surveyRun b m scope mode mask) := by
  unfold Block.surveyRun
  repeat' first
    | with_reducible assumption
    | with_reducible apply Kept.refl
    | with_reducible apply Within.refl
    | ((with_reducible apply Within.of); rfl)
    | ((with_reducible apply Within.cons); (apply Piece.inside_of; rfl))
    | ((with_reducible apply Within.cons); apply Or.inr)
    | with_reducible apply Within.nil
    | with_reducible apply List.mem_cons_self
    | with_reducible apply List.mem_cons_of_mem
    | (extract_lets +onlyGivenNames x
       first
       | (guard_hyp x : Block := _
          refine Kept.cut (ps := [.ins, .running, .slots, .sv]) (b := b) (x := x) ?_ fun hx => ?_
          on_goal 1 => subst x
          on_goal 2 => try clear_value x)
       | clear_value x
       | skip)
    | (simp only [Kept.by_fields]; with_reducible apply Kept.fields <;>
         first | with_reducible exact Or.inl rfl | (apply Or.inr; apply Piece.mem_of; rfl) | exact Or.inr (by simp; done) | (refine Or.inr ⟨?_, ?_⟩ <;> first | (apply Or.inl; apply Piece.mem_of; rfl) | exact Or.inl (by simp; done) | with_reducible exact Or.inr rfl | with_reducible exact Or.inr ⟨rfl, rfl, rfl, rfl⟩ | with_reducible exact Or.inr ⟨rfl, rfl, rfl, rfl, rfl⟩ | (refine ⟨?_, ?_⟩ <;> first | (apply Or.inl; apply Piece.mem_of; rfl) | exact Or.inl (by simp; done) | with_reducible exact Or.inr rfl)) | skip)
    | with_reducible apply Block.finish_keeps
    | with_reducible apply Kept.ite
    | split

theorem Block.surveyRun_keeps {qs : List Piece} {a₀ b : Block} {m : ManRef} {scope : Nat} {mode : Nat} {mask : BitVec 64} (inside : Within [.ins, .running, .slots, .sv] qs) (before : Kept qs a₀ b) :
    Kept qs a₀ (Block.surveyRun b m scope mode mask) := Kept.step (Block.surveyRun_kept _ _ _ _ _) inside before

theorem Block.liftMark_kept (b : Block) (scope : Nat) (i : Nat) : Kept [.berth i, .doms, .lane i, .sv] b (Block.liftMark b scope i) := by
  unfold Block.liftMark
  repeat' first
    | with_reducible assumption
    | with_reducible apply Kept.refl
    | with_reducible apply Within.refl
    | ((with_reducible apply Within.of); rfl)
    | ((with_reducible apply Within.cons); (apply Piece.inside_of; rfl))
    | ((with_reducible apply Within.cons); apply Or.inr)
    | with_reducible apply Within.nil
    | with_reducible apply List.mem_cons_self
    | with_reducible apply List.mem_cons_of_mem
    | (extract_lets +onlyGivenNames x
       first
       | (guard_hyp x : Block := _
          refine Kept.cut (ps := [.berth i, .doms, .lane i, .sv]) (b := b) (x := x) ?_ fun hx => ?_
          on_goal 1 => subst x
          on_goal 2 => try clear_value x)
       | clear_value x
       | skip)
    | (simp only [Kept.by_fields]; with_reducible apply Kept.fields <;>
         first | with_reducible exact Or.inl rfl | (apply Or.inr; apply Piece.mem_of; rfl) | exact Or.inr (by simp; done) | (refine Or.inr ⟨?_, ?_⟩ <;> first | (apply Or.inl; apply Piece.mem_of; rfl) | exact Or.inl (by simp; done) | with_reducible exact Or.inr rfl | with_reducible exact Or.inr ⟨rfl, rfl, rfl, rfl⟩ | with_reducible exact Or.inr ⟨rfl, rfl, rfl, rfl, rfl⟩ | (refine ⟨?_, ?_⟩ <;> first | (apply Or.inl; apply Piece.mem_of; rfl) | exact Or.inl (by simp; done) | with_reducible exact Or.inr rfl)) | skip)
    | with_reducible apply Block.modLane_keeps
    | with_reducible apply Block.passDomain_keeps
    | with_reducible apply Block.modBerth_keeps
    | with_reducible apply Kept.ite
    | split

theorem Block.liftMark_keeps {qs : List Piece} {a₀ b : Block} {scope : Nat} {i : Nat} (inside : Within [.berth i, .doms, .lane i, .sv] qs) (before : Kept qs a₀ b) :
    Kept qs a₀ (Block.liftMark b scope i) := Kept.step (Block.liftMark_kept _ _ _) inside before

theorem Block.unitPasses_kept (b : Block) (f : SurveyFindings) (scope : Nat) (i : Nat) : Kept [.berth i, .chan i, .col i, .doms, .reg (lnOff Off.lnCtrl i), .stk] b (Block.unitPasses b f scope i) := by
  unfold Block.unitPasses
  repeat' first
    | with_reducible assumption
    | with_reducible apply Kept.refl
    | with_reducible apply Within.refl
    | ((with_reducible apply Within.of); rfl)
    | ((with_reducible apply Within.cons); (apply Piece.inside_of; rfl))
    | ((with_reducible apply Within.cons); apply Or.inr)
    | with_reducible apply Within.nil
    | with_reducible apply List.mem_cons_self
    | with_reducible apply List.mem_cons_of_mem
    | (extract_lets +onlyGivenNames x
       first
       | (guard_hyp x : Block := _
          refine Kept.cut (ps := [.berth i, .chan i, .col i, .doms, .reg (lnOff Off.lnCtrl i), .stk]) (b := b) (x := x) ?_ fun hx => ?_
          on_goal 1 => subst x
          on_goal 2 => try clear_value x)
       | clear_value x
       | skip)
    | with_reducible apply Block.setReg_keeps
    | with_reducible apply Block.powerUp_keeps
    | with_reducible apply Block.bringUp_keeps
    | with_reducible apply Block.stampCal_keeps
    | with_reducible apply Kept.ite
    | split

theorem Block.unitPasses_keeps {qs : List Piece} {a₀ b : Block} {f : SurveyFindings} {scope : Nat} {i : Nat} (inside : Within [.berth i, .chan i, .col i, .doms, .reg (lnOff Off.lnCtrl i), .stk] qs) (before : Kept qs a₀ b) :
    Kept qs a₀ (Block.unitPasses b f scope i) := Kept.step (Block.unitPasses_kept _ _ _ _) inside before

theorem Block.surveyEnds_kept (b : Block) (r : SurveyRun) (f : SurveyFindings) : Kept [.berths, .chans, .chs, .cnt, .cols, .doms, .events, .fws, .ins, .lanes, .mf, .pw, .qy, .regs, .running, .sides, .slots, .stk, .sv, .tl] b (Block.surveyEnds b r f) := by
  unfold Block.surveyEnds
  repeat' first
    | with_reducible assumption
    | with_reducible apply Kept.refl
    | with_reducible apply Within.refl
    | ((with_reducible apply Within.of); rfl)
    | ((with_reducible apply Within.cons); (apply Piece.inside_of; rfl))
    | ((with_reducible apply Within.cons); apply Or.inr)
    | with_reducible apply Within.nil
    | with_reducible apply List.mem_cons_self
    | with_reducible apply List.mem_cons_of_mem
    | (extract_lets +onlyGivenNames x
       first
       | (guard_hyp x : Block := _
          refine Kept.cut (ps := [.berths, .chans, .chs, .cnt, .cols, .doms, .events, .fws, .ins, .lanes, .mf, .pw, .qy, .regs, .running, .sides, .slots, .stk, .sv, .tl]) (b := b) (x := x) ?_ fun hx => ?_
          on_goal 1 => subst x
          on_goal 2 => try clear_value x)
       | (have _t : _ → Block := x; clear _t; subst x; beta_reduce)
       | (have _t : _ → _ := x; clear _t; subst x; beta_reduce)
       | clear_value x
       | skip)
    | (simp only [Kept.by_fields]; with_reducible apply Kept.fields <;>
         first | with_reducible exact Or.inl rfl | (apply Or.inr; apply Piece.mem_of; rfl) | exact Or.inr (by simp; done) | (refine Or.inr ⟨?_, ?_⟩ <;> first | (apply Or.inl; apply Piece.mem_of; rfl) | exact Or.inl (by simp; done) | with_reducible exact Or.inr rfl | with_reducible exact Or.inr ⟨rfl, rfl, rfl, rfl⟩ | with_reducible exact Or.inr ⟨rfl, rfl, rfl, rfl, rfl⟩ | (refine ⟨?_, ?_⟩ <;> first | (apply Or.inl; apply Piece.mem_of; rfl) | exact Or.inl (by simp; done) | with_reducible exact Or.inr rfl)) | skip)
    | (with_reducible apply Kept.each; intro _ _ _)
    | with_reducible apply Block.applyFindings_keeps
    | with_reducible apply Block.liftMark_keeps
    | with_reducible apply Block.modBerth_keeps
    | with_reducible apply Block.unitPasses_keeps
    | with_reducible apply Block.finish_keeps
    | with_reducible apply Kept.ite
    | split

theorem Block.surveyEnds_keeps {qs : List Piece} {a₀ b : Block} {r : SurveyRun} {f : SurveyFindings} (inside : Within [.berths, .chans, .chs, .cnt, .cols, .doms, .events, .fws, .ins, .lanes, .mf, .pw, .qy, .regs, .running, .sides, .slots, .stk, .sv, .tl] qs) (before : Kept qs a₀ b) :
    Kept qs a₀ (Block.surveyEnds b r f) := Kept.step (Block.surveyEnds_kept _ _ _) inside before

theorem Block.surveyNoEngine_kept (b : Block) (r : SurveyRun) (f : SurveyFindings) : Kept [.berths, .chs, .cnt, .doms, .events, .fws, .ins, .lanes, .mf, .pw, .qy, .regs, .running, .sides, .slots, .stk, .sv, .tl] b (Block.surveyNoEngine b r f) := by
  unfold Block.surveyNoEngine
  repeat' first
    | with_reducible assumption
    | with_reducible apply Kept.refl
    | with_reducible apply Within.refl
    | ((with_reducible apply Within.of); rfl)
    | ((with_reducible apply Within.cons); (apply Piece.inside_of; rfl))
    | ((with_reducible apply Within.cons); apply Or.inr)
    | with_reducible apply Within.nil
    | with_reducible apply List.mem_cons_self
    | with_reducible apply List.mem_cons_of_mem
    | (extract_lets +onlyGivenNames x
       first
       | (guard_hyp x : Block := _
          refine Kept.cut (ps := [.berths, .chs, .cnt, .doms, .events, .fws, .ins, .lanes, .mf, .pw, .qy, .regs, .running, .sides, .slots, .stk, .sv, .tl]) (b := b) (x := x) ?_ fun hx => ?_
          on_goal 1 => subst x
          on_goal 2 => try clear_value x)
       | clear_value x
       | skip)
    | (simp only [Kept.by_fields]; with_reducible apply Kept.fields <;>
         first | with_reducible exact Or.inl rfl | (apply Or.inr; apply Piece.mem_of; rfl) | exact Or.inr (by simp; done) | (refine Or.inr ⟨?_, ?_⟩ <;> first | (apply Or.inl; apply Piece.mem_of; rfl) | exact Or.inl (by simp; done) | with_reducible exact Or.inr rfl | with_reducible exact Or.inr ⟨rfl, rfl, rfl, rfl⟩ | with_reducible exact Or.inr ⟨rfl, rfl, rfl, rfl, rfl⟩ | (refine ⟨?_, ?_⟩ <;> first | (apply Or.inl; apply Piece.mem_of; rfl) | exact Or.inl (by simp; done) | with_reducible exact Or.inr rfl)) | skip)
    | with_reducible apply Block.svCheck_keeps
    | with_reducible apply Block.finish_keeps
    | with_reducible apply Kept.ite
    | split

theorem Block.surveyNoEngine_keeps {qs : List Piece} {a₀ b : Block} {r : SurveyRun} {f : SurveyFindings} (inside : Within [.berths, .chs, .cnt, .doms, .events, .fws, .ins, .lanes, .mf, .pw, .qy, .regs, .running, .sides, .slots, .stk, .sv, .tl] qs) (before : Kept qs a₀ b) :
    Kept qs a₀ (Block.surveyNoEngine b r f) := Kept.step (Block.surveyNoEngine_kept _ _ _) inside before

theorem Block.surveyRunDone_kept (b : Block) (f : SurveyFindings) : Kept [.berths, .chans, .chs, .cnt, .cols, .doms, .events, .fws, .ins, .lanes, .mf, .pw, .qy, .regs, .running, .sides, .slots, .stk, .sv, .tl] b (Block.surveyRunDone b f) := by
  unfold Block.surveyRunDone
  repeat' first
    | with_reducible assumption
    | with_reducible apply Kept.refl
    | with_reducible apply Within.refl
    | ((with_reducible apply Within.of); rfl)
    | ((with_reducible apply Within.cons); (apply Piece.inside_of; rfl))
    | ((with_reducible apply Within.cons); apply Or.inr)
    | with_reducible apply Within.nil
    | with_reducible apply List.mem_cons_self
    | with_reducible apply List.mem_cons_of_mem
    | with_reducible apply Block.surveyEnds_keeps
    | with_reducible apply Block.surveyNoEngine_keeps
    | with_reducible apply Kept.ite
    | split

theorem Block.surveyRunDone_keeps {qs : List Piece} {a₀ b : Block} {f : SurveyFindings} (inside : Within [.berths, .chans, .chs, .cnt, .cols, .doms, .events, .fws, .ins, .lanes, .mf, .pw, .qy, .regs, .running, .sides, .slots, .stk, .sv, .tl] qs) (before : Kept qs a₀ b) :
    Kept qs a₀ (Block.surveyRunDone b f) := Kept.step (Block.surveyRunDone_kept _ _) inside before

theorem Block.stampPass_kept (b : Block) (u : Nat) : Kept [.col u] b (Block.stampPass b u) := by
  unfold Block.stampPass
  repeat' first
    | with_reducible assumption
    | with_reducible apply Kept.refl
    | with_reducible apply Within.refl
    | ((with_reducible apply Within.of); rfl)
    | ((with_reducible apply Within.cons); (apply Piece.inside_of; rfl))
    | ((with_reducible apply Within.cons); apply Or.inr)
    | with_reducible apply Within.nil
    | with_reducible apply List.mem_cons_self
    | with_reducible apply List.mem_cons_of_mem
    | with_reducible apply Block.modCol_keeps
    | with_reducible apply Kept.ite
    | split

theorem Block.stampPass_keeps {qs : List Piece} {a₀ b : Block} {u : Nat} (inside : Within [.col u] qs) (before : Kept qs a₀ b) :
    Kept qs a₀ (Block.stampPass b u) := Kept.step (Block.stampPass_kept _ _) inside before

theorem Block.endReturn_kept (b : Block) (u : Nat) : Kept [.berth u, .chan u, .col u, .stk] b (Block.endReturn b u) := by
  unfold Block.endReturn
  repeat' first
    | with_reducible assumption
    | with_reducible apply Kept.refl
    | with_reducible apply Within.refl
    | ((with_reducible apply Within.of); rfl)
    | ((with_reducible apply Within.cons); (apply Piece.inside_of; rfl))
    | ((with_reducible apply Within.cons); apply Or.inr)
    | with_reducible apply Within.nil
    | with_reducible apply List.mem_cons_self
    | with_reducible apply List.mem_cons_of_mem
    | with_reducible apply Block.modChan_keeps
    | with_reducible apply Block.bringUp_keeps
    | with_reducible apply Kept.ite
    | split

theorem Block.endReturn_keeps {qs : List Piece} {a₀ b : Block} {u : Nat} (inside : Within [.berth u, .chan u, .col u, .stk] qs) (before : Kept qs a₀ b) :
    Kept qs a₀ (Block.endReturn b u) := Kept.step (Block.endReturn_kept _ _) inside before

theorem Block.calPassed_kept (b : Block) (cls : Nat) (u : Nat) (flight : Nat) : Kept [.berth u, .chan u, .col u, .ins, .lane u, .running, .slots, .stk, .sv] b (Block.calPassed b cls u flight) := by
  unfold Block.calPassed
  repeat' first
    | with_reducible assumption
    | with_reducible apply Kept.refl
    | with_reducible apply Within.refl
    | ((with_reducible apply Within.of); rfl)
    | ((with_reducible apply Within.cons); (apply Piece.inside_of; rfl))
    | ((with_reducible apply Within.cons); apply Or.inr)
    | with_reducible apply Within.nil
    | with_reducible apply List.mem_cons_self
    | with_reducible apply List.mem_cons_of_mem
    | (extract_lets +onlyGivenNames x
       first
       | (guard_hyp x : Block := _
          refine Kept.cut (ps := [.berth u, .chan u, .col u, .ins, .lane u, .running, .slots, .stk, .sv]) (b := b) (x := x) ?_ fun hx => ?_
          on_goal 1 => subst x
          on_goal 2 => try clear_value x)
       | clear_value x
       | skip)
    | with_reducible apply Block.laneRun_keeps
    | with_reducible apply Block.modCol_keeps
    | with_reducible apply Block.modChan_keeps
    | with_reducible apply Block.calRunNext_keeps
    | with_reducible apply Block.endReturn_keeps
    | with_reducible apply Block.stampPass_keeps
    | with_reducible apply Kept.ite
    | split

theorem Block.calPassed_keeps {qs : List Piece} {a₀ b : Block} {cls : Nat} {u : Nat} {flight : Nat} (inside : Within [.berth u, .chan u, .col u, .ins, .lane u, .running, .slots, .stk, .sv] qs) (before : Kept qs a₀ b) :
    Kept qs a₀ (Block.calPassed b cls u flight) := Kept.step (Block.calPassed_kept _ _ _ _) inside before

theorem Block.calFailed_kept (b : Block) (cls : Nat) (u : Nat) : Kept [.berths, .chans, .chs, .cnt, .col u, .events, .fws, .ins, .lanes, .mf, .pw, .qy, .regs, .running, .sides, .slots, .stk, .sv, .tl] b (Block.calFailed b cls u) := by
  unfold Block.calFailed
  repeat' first
    | with_reducible assumption
    | with_reducible apply Kept.refl
    | with_reducible apply Within.refl
    | ((with_reducible apply Within.of); rfl)
    | ((with_reducible apply Within.cons); (apply Piece.inside_of; rfl))
    | ((with_reducible apply Within.cons); apply Or.inr)
    | with_reducible apply Within.nil
    | with_reducible apply List.mem_cons_self
    | with_reducible apply List.mem_cons_of_mem
    | (extract_lets +onlyGivenNames x
       first
       | (guard_hyp x : Block := _
          refine Kept.cut (ps := [.berths, .chans, .chs, .cnt, .col u, .events, .fws, .ins, .lanes, .mf, .pw, .qy, .regs, .running, .sides, .slots, .stk, .sv, .tl]) (b := b) (x := x) ?_ fun hx => ?_
          on_goal 1 => subst x
          on_goal 2 => try clear_value x)
       | clear_value x
       | skip)
    | with_reducible apply Block.dropLaneFull_keeps
    | with_reducible apply Block.calRunNext_keeps
    | with_reducible apply Block.orReg_keeps
    | with_reducible apply Block.modLane_keeps
    | with_reducible apply Block.modChan_keeps
    | with_reducible apply Block.stampPass_keeps
    | with_reducible apply Block.fenceRunning_keeps
    | with_reducible apply Block.event_keeps
    | with_reducible apply Kept.ite
    | split

theorem Block.calFailed_keeps {qs : List Piece} {a₀ b : Block} {cls : Nat} {u : Nat} (inside : Within [.berths, .chans, .chs, .cnt, .col u, .events, .fws, .ins, .lanes, .mf, .pw, .qy, .regs, .running, .sides, .slots, .stk, .sv, .tl] qs) (before : Kept qs a₀ b) :
    Kept qs a₀ (Block.calFailed b cls u) := Kept.step (Block.calFailed_kept _ _ _) inside before

theorem Block.calSpent_kept (b : Block) (cls : Nat) (u : Nat) : Kept [.chan u] b (Block.calSpent b cls u) := by
  unfold Block.calSpent
  repeat' first
    | with_reducible assumption
    | with_reducible apply Kept.refl
    | with_reducible apply Within.refl
    | ((with_reducible apply Within.of); rfl)
    | ((with_reducible apply Within.cons); (apply Piece.inside_of; rfl))
    | ((with_reducible apply Within.cons); apply Or.inr)
    | with_reducible apply Within.nil
    | with_reducible apply List.mem_cons_self
    | with_reducible apply List.mem_cons_of_mem
    | (extract_lets +onlyGivenNames x
       first
       | (guard_hyp x : Block := _
          refine Kept.cut (ps := [.chan u]) (b := b) (x := x) ?_ fun hx => ?_
          on_goal 1 => subst x
          on_goal 2 => try clear_value x)
       | clear_value x
       | skip)
    | with_reducible apply Block.modChan_keeps
    | with_reducible apply Block.noteBg_keeps
    | with_reducible apply Kept.ite
    | split

theorem Block.calSpent_keeps {qs : List Piece} {a₀ b : Block} {cls : Nat} {u : Nat} (inside : Within [.chan u] qs) (before : Kept qs a₀ b) :
    Kept qs a₀ (Block.calSpent b cls u) := Kept.step (Block.calSpent_kept _ _ _) inside before

theorem Block.calibrationDone_kept (b : Block) (cls : Nat) (u : Nat) (pass : Bool) (flight : Nat) : Kept [.berths, .chans, .chs, .cnt, .col u, .events, .fws, .ins, .lanes, .mf, .pw, .qy, .regs, .running, .sides, .slots, .stk, .sv, .tl] b (Block.calibrationDone b cls u pass flight) := by
  unfold Block.calibrationDone
  repeat' first
    | with_reducible assumption
    | with_reducible apply Kept.refl
    | with_reducible apply Within.refl
    | ((with_reducible apply Within.of); rfl)
    | ((with_reducible apply Within.cons); (apply Piece.inside_of; rfl))
    | ((with_reducible apply Within.cons); apply Or.inr)
    | with_reducible apply Within.nil
    | with_reducible apply List.mem_cons_self
    | with_reducible apply List.mem_cons_of_mem
    | (extract_lets +onlyGivenNames x
       first
       | (guard_hyp x : Block := _
          refine Kept.cut (ps := [.berths, .chans, .chs, .cnt, .col u, .events, .fws, .ins, .lanes, .mf, .pw, .qy, .regs, .running, .sides, .slots, .stk, .sv, .tl]) (b := b) (x := x) ?_ fun hx => ?_
          on_goal 1 => subst x
          on_goal 2 => try clear_value x)
       | clear_value x
       | skip)
    | with_reducible apply Block.calSpent_keeps
    | with_reducible apply Block.calPassed_keeps
    | with_reducible apply Block.calFailed_keeps
    | with_reducible apply Kept.ite
    | split

theorem Block.calibrationDone_keeps {qs : List Piece} {a₀ b : Block} {cls : Nat} {u : Nat} {pass : Bool} {flight : Nat} (inside : Within [.berths, .chans, .chs, .cnt, .col u, .events, .fws, .ins, .lanes, .mf, .pw, .qy, .regs, .running, .sides, .slots, .stk, .sv, .tl] qs) (before : Kept qs a₀ b) :
    Kept qs a₀ (Block.calibrationDone b cls u pass flight) := Kept.step (Block.calibrationDone_kept _ _ _ _ _) inside before

theorem Block.calRun_kept (b : Block) (m : ManRef) (cls : Nat) (mask : BitVec 64) : Kept [.chans, .ins, .lanes, .running, .sides, .slots, .sv] b (Block.calRun b m cls mask) := by
  unfold Block.calRun
  repeat' first
    | with_reducible assumption
    | with_reducible apply Kept.refl
    | with_reducible apply Within.refl
    | ((with_reducible apply Within.of); rfl)
    | ((with_reducible apply Within.cons); (apply Piece.inside_of; rfl))
    | ((with_reducible apply Within.cons); apply Or.inr)
    | with_reducible apply Within.nil
    | with_reducible apply List.mem_cons_self
    | with_reducible apply List.mem_cons_of_mem
    | (extract_lets +onlyGivenNames x
       first
       | (guard_hyp x : Block := _
          refine Kept.cut (ps := [.chans, .ins, .lanes, .running, .sides, .slots, .sv]) (b := b) (x := x) ?_ fun hx => ?_
          on_goal 1 => subst x
          on_goal 2 => try clear_value x)
       | clear_value x
       | skip)
    | (simp only [Kept.by_fields]; with_reducible apply Kept.fields <;>
         first | with_reducible exact Or.inl rfl | (apply Or.inr; apply Piece.mem_of; rfl) | exact Or.inr (by simp; done) | (refine Or.inr ⟨?_, ?_⟩ <;> first | (apply Or.inl; apply Piece.mem_of; rfl) | exact Or.inl (by simp; done) | with_reducible exact Or.inr rfl | with_reducible exact Or.inr ⟨rfl, rfl, rfl, rfl⟩ | with_reducible exact Or.inr ⟨rfl, rfl, rfl, rfl, rfl⟩ | (refine ⟨?_, ?_⟩ <;> first | (apply Or.inl; apply Piece.mem_of; rfl) | exact Or.inl (by simp; done) | with_reducible exact Or.inr rfl)) | skip)
    | (with_reducible apply Kept.each; intro _ _ _)
    | with_reducible apply Block.finish_keeps
    | with_reducible apply Block.askWindow_keeps
    | with_reducible apply Block.modLane_keeps
    | with_reducible apply Block.modChan_keeps
    | with_reducible apply Kept.ite
    | split

theorem Block.calRun_keeps {qs : List Piece} {a₀ b : Block} {m : ManRef} {cls : Nat} {mask : BitVec 64} (inside : Within [.chans, .ins, .lanes, .running, .sides, .slots, .sv] qs) (before : Kept qs a₀ b) :
    Kept qs a₀ (Block.calRun b m cls mask) := Kept.step (Block.calRun_kept _ _ _ _) inside before

theorem Block.calStatus_kept (b : Block) (m : ManRef) (cls : Nat) (u : Nat) : Kept [.ins, .running, .slots] b (Block.calStatus b m cls u) := by
  unfold Block.calStatus
  repeat' first
    | with_reducible assumption
    | with_reducible apply Kept.refl
    | with_reducible apply Within.refl
    | ((with_reducible apply Within.of); rfl)
    | ((with_reducible apply Within.cons); (apply Piece.inside_of; rfl))
    | ((with_reducible apply Within.cons); apply Or.inr)
    | with_reducible apply Within.nil
    | with_reducible apply List.mem_cons_self
    | with_reducible apply List.mem_cons_of_mem
    | (extract_lets +onlyGivenNames x
       first
       | (guard_hyp x : Block := _
          refine Kept.cut (ps := [.ins, .running, .slots]) (b := b) (x := x) ?_ fun hx => ?_
          on_goal 1 => subst x
          on_goal 2 => try clear_value x)
       | clear_value x
       | skip)
    | with_reducible apply Block.finish_keeps
    | with_reducible apply Kept.ite
    | split

theorem Block.calStatus_keeps {qs : List Piece} {a₀ b : Block} {m : ManRef} {cls : Nat} {u : Nat} (inside : Within [.ins, .running, .slots] qs) (before : Kept qs a₀ b) :
    Kept qs a₀ (Block.calStatus b m cls u) := Kept.step (Block.calStatus_kept _ _ _ _) inside before

theorem Block.readBoard_kept (b : Block) (board : List Byte) : Kept [.events, .pw, .reg Off.lgAlarm] b (Block.readBoard b board) := by
  unfold Block.readBoard
  repeat' first
    | with_reducible assumption
    | with_reducible apply Kept.refl
    | with_reducible apply Within.refl
    | ((with_reducible apply Within.of); rfl)
    | ((with_reducible apply Within.cons); (apply Piece.inside_of; rfl))
    | ((with_reducible apply Within.cons); apply Or.inr)
    | with_reducible apply Within.nil
    | with_reducible apply List.mem_cons_self
    | with_reducible apply List.mem_cons_of_mem
    | (extract_lets +onlyGivenNames x
       first
       | (guard_hyp x : Block := _
          refine Kept.cut (ps := [.events, .pw, .reg Off.lgAlarm]) (b := b) (x := x) ?_ fun hx => ?_
          on_goal 1 => subst x
          on_goal 2 => try clear_value x)
       | (guard_hyp x : Power := _; subst x)
       | clear_value x
       | skip)
    | (simp only [Kept.by_fields]; with_reducible apply Kept.fields <;>
         first | with_reducible exact Or.inl rfl | (apply Or.inr; apply Piece.mem_of; rfl) | exact Or.inr (by simp; done) | (refine Or.inr ⟨?_, ?_⟩ <;> first | (apply Or.inl; apply Piece.mem_of; rfl) | exact Or.inl (by simp; done) | with_reducible exact Or.inr rfl | with_reducible exact Or.inr ⟨rfl, rfl, rfl, rfl⟩ | with_reducible exact Or.inr ⟨rfl, rfl, rfl, rfl, rfl⟩ | (refine ⟨?_, ?_⟩ <;> first | (apply Or.inl; apply Piece.mem_of; rfl) | exact Or.inl (by simp; done) | with_reducible exact Or.inr rfl)) | skip)
    | (with_reducible apply Kept.each; intro _ _ _)
    | with_reducible apply Block.event_keeps
    | split

theorem Block.readBoard_keeps {qs : List Piece} {a₀ b : Block} {board : List Byte} (inside : Within [.events, .pw, .reg Off.lgAlarm] qs) (before : Kept qs a₀ b) :
    Kept qs a₀ (Block.readBoard b board) := Kept.step (Block.readBoard_kept _ _) inside before

theorem Block.coldKept_kept (b : Block) : Kept [.berths, .chans, .chs, .ck, .cnt, .cols, .doms, .events, .frzOut, .fws, .heat, .hold, .ins, .jtagDr, .keys, .lanes, .lg, .mf, .pins, .prot, .pw, .qy, .rdData, .regs, .running, .sel, .sides, .slots, .stk, .sv, .tide, .tl] b (Block.coldKept b) := by
  unfold Block.coldKept
  repeat' first
    | with_reducible assumption
    | with_reducible apply Kept.refl
    | with_reducible apply Within.refl
    | ((with_reducible apply Within.of); rfl)
    | ((with_reducible apply Within.cons); (apply Piece.inside_of; rfl))
    | ((with_reducible apply Within.cons); apply Or.inr)
    | with_reducible apply Within.nil
    | with_reducible apply List.mem_cons_self
    | with_reducible apply List.mem_cons_of_mem
    | (extract_lets +onlyGivenNames x
       first
       | (guard_hyp x : Block := _
          refine Kept.cut (ps := [.berths, .chans, .chs, .ck, .cnt, .cols, .doms, .events, .frzOut, .fws, .heat, .hold, .ins, .jtagDr, .keys, .lanes, .lg, .mf, .pins, .prot, .pw, .qy, .rdData, .regs, .running, .sel, .sides, .slots, .stk, .sv, .tide, .tl]) (b := b) (x := x) ?_ fun hx => ?_
          on_goal 1 => subst x
          on_goal 2 => try clear_value x)
       | (guard_hyp x : Power := _; subst x)
       | (guard_hyp x : Manifests := _; subst x)
       | (guard_hyp x : Logbook := _; subst x)
       | clear_value x
       | skip)
    | (simp only [Kept.by_fields]; with_reducible apply Kept.fields <;>
         first | with_reducible exact Or.inl rfl | (apply Or.inr; apply Piece.mem_of; rfl) | exact Or.inr (by simp; done) | (refine Or.inr ⟨?_, ?_⟩ <;> first | (apply Or.inl; apply Piece.mem_of; rfl) | exact Or.inl (by simp; done) | with_reducible exact Or.inr rfl | with_reducible exact Or.inr ⟨rfl, rfl, rfl, rfl⟩ | with_reducible exact Or.inr ⟨rfl, rfl, rfl, rfl, rfl⟩ | (refine ⟨?_, ?_⟩ <;> first | (apply Or.inl; apply Piece.mem_of; rfl) | exact Or.inl (by simp; done) | with_reducible exact Or.inr rfl)) | skip)
    | with_reducible apply Block.setReg_keeps
    | with_reducible apply Kept.ite
    | split

theorem Block.coldKept_keeps {qs : List Piece} {a₀ b : Block} (inside : Within [.berths, .chans, .chs, .ck, .cnt, .cols, .doms, .events, .frzOut, .fws, .heat, .hold, .ins, .jtagDr, .keys, .lanes, .lg, .mf, .pins, .prot, .pw, .qy, .rdData, .regs, .running, .sel, .sides, .slots, .stk, .sv, .tide, .tl] qs) (before : Kept qs a₀ b) :
    Kept qs a₀ (Block.coldKept b) := Kept.step (Block.coldKept_kept _) inside before

theorem Block.porstLow_kept (b : Block) : Kept [.berths, .chans, .chs, .ck, .cnt, .cols, .doms, .events, .frzOut, .fws, .heat, .hold, .ins, .jtagDr, .keys, .lanes, .lg, .mf, .pins, .prot, .pw, .qy, .rdData, .regs, .running, .sel, .sides, .slots, .stk, .sv, .tide, .tl] b (Block.porstLow b) := by
  unfold Block.porstLow
  repeat' first
    | with_reducible assumption
    | with_reducible apply Kept.refl
    | with_reducible apply Within.refl
    | ((with_reducible apply Within.of); rfl)
    | ((with_reducible apply Within.cons); (apply Piece.inside_of; rfl))
    | ((with_reducible apply Within.cons); apply Or.inr)
    | with_reducible apply Within.nil
    | with_reducible apply List.mem_cons_self
    | with_reducible apply List.mem_cons_of_mem
    | (extract_lets +onlyGivenNames x
       first
       | (guard_hyp x : Block := _
          refine Kept.cut (ps := [.berths, .chans, .chs, .ck, .cnt, .cols, .doms, .events, .frzOut, .fws, .heat, .hold, .ins, .jtagDr, .keys, .lanes, .lg, .mf, .pins, .prot, .pw, .qy, .rdData, .regs, .running, .sel, .sides, .slots, .stk, .sv, .tide, .tl]) (b := b) (x := x) ?_ fun hx => ?_
          on_goal 1 => subst x
          on_goal 2 => try clear_value x)
       | (guard_hyp x : Power := _; subst x)
       | clear_value x
       | skip)
    | (simp only [Kept.by_fields]; with_reducible apply Kept.fields <;>
         first | with_reducible exact Or.inl rfl | (apply Or.inr; apply Piece.mem_of; rfl) | exact Or.inr (by simp; done) | (refine Or.inr ⟨?_, ?_⟩ <;> first | (apply Or.inl; apply Piece.mem_of; rfl) | exact Or.inl (by simp; done) | with_reducible exact Or.inr rfl | with_reducible exact Or.inr ⟨rfl, rfl, rfl, rfl⟩ | with_reducible exact Or.inr ⟨rfl, rfl, rfl, rfl, rfl⟩ | (refine ⟨?_, ?_⟩ <;> first | (apply Or.inl; apply Piece.mem_of; rfl) | exact Or.inl (by simp; done) | with_reducible exact Or.inr rfl)) | skip)
    | with_reducible apply Block.coldKept_keeps
    | with_reducible apply Kept.ite
    | split

theorem Block.porstLow_keeps {qs : List Piece} {a₀ b : Block} (inside : Within [.berths, .chans, .chs, .ck, .cnt, .cols, .doms, .events, .frzOut, .fws, .heat, .hold, .ins, .jtagDr, .keys, .lanes, .lg, .mf, .pins, .prot, .pw, .qy, .rdData, .regs, .running, .sel, .sides, .slots, .stk, .sv, .tide, .tl] qs) (before : Kept qs a₀ b) :
    Kept qs a₀ (Block.porstLow b) := Kept.step (Block.porstLow_kept _) inside before

theorem Block.sampleStraps_kept (b : Block) (pins : Pins) (strap : BitVec 4) (bts : BitVec 3) : Kept [.pins] b (Block.sampleStraps b pins strap bts) := by
  unfold Block.sampleStraps
  repeat' first
    | with_reducible assumption
    | with_reducible apply Kept.refl
    | with_reducible apply Within.refl
    | ((with_reducible apply Within.of); rfl)
    | ((with_reducible apply Within.cons); (apply Piece.inside_of; rfl))
    | ((with_reducible apply Within.cons); apply Or.inr)
    | with_reducible apply Within.nil
    | with_reducible apply List.mem_cons_self
    | with_reducible apply List.mem_cons_of_mem
    | (simp only [Kept.by_fields]; with_reducible apply Kept.fields <;>
         first | with_reducible exact Or.inl rfl | (apply Or.inr; apply Piece.mem_of; rfl) | exact Or.inr (by simp; done) | (refine Or.inr ⟨?_, ?_⟩ <;> first | (apply Or.inl; apply Piece.mem_of; rfl) | exact Or.inl (by simp; done) | with_reducible exact Or.inr rfl | with_reducible exact Or.inr ⟨rfl, rfl, rfl, rfl⟩ | with_reducible exact Or.inr ⟨rfl, rfl, rfl, rfl, rfl⟩ | (refine ⟨?_, ?_⟩ <;> first | (apply Or.inl; apply Piece.mem_of; rfl) | exact Or.inl (by simp; done) | with_reducible exact Or.inr rfl)) | skip)
    | with_reducible apply Kept.ite
    | split

theorem Block.sampleStraps_keeps {qs : List Piece} {a₀ b : Block} {pins : Pins} {strap : BitVec 4} {bts : BitVec 3} (inside : Within [.pins] qs) (before : Kept qs a₀ b) :
    Kept qs a₀ (Block.sampleStraps b pins strap bts) := Kept.step (Block.sampleStraps_kept _ _ _ _) inside before

theorem Block.bootFrom_kept (b : Block) (held : Bool) : Kept [.events, .pw, .reg Off.lgAlarm] b (Block.bootFrom b held) := by
  unfold Block.bootFrom
  repeat' first
    | with_reducible assumption
    | with_reducible apply Kept.refl
    | with_reducible apply Within.refl
    | ((with_reducible apply Within.of); rfl)
    | ((with_reducible apply Within.cons); (apply Piece.inside_of; rfl))
    | ((with_reducible apply Within.cons); apply Or.inr)
    | with_reducible apply Within.nil
    | with_reducible apply List.mem_cons_self
    | with_reducible apply List.mem_cons_of_mem
    | (extract_lets +onlyGivenNames x
       first
       | (guard_hyp x : Block := _
          refine Kept.cut (ps := [.events, .pw, .reg Off.lgAlarm]) (b := b) (x := x) ?_ fun hx => ?_
          on_goal 1 => subst x
          on_goal 2 => try clear_value x)
       | (guard_hyp x : Power := _; subst x)
       | clear_value x
       | skip)
    | (simp only [Kept.by_fields]; with_reducible apply Kept.fields <;>
         first | with_reducible exact Or.inl rfl | (apply Or.inr; apply Piece.mem_of; rfl) | exact Or.inr (by simp; done) | (refine Or.inr ⟨?_, ?_⟩ <;> first | (apply Or.inl; apply Piece.mem_of; rfl) | exact Or.inl (by simp; done) | with_reducible exact Or.inr rfl | with_reducible exact Or.inr ⟨rfl, rfl, rfl, rfl⟩ | with_reducible exact Or.inr ⟨rfl, rfl, rfl, rfl, rfl⟩ | (refine ⟨?_, ?_⟩ <;> first | (apply Or.inl; apply Piece.mem_of; rfl) | exact Or.inl (by simp; done) | with_reducible exact Or.inr rfl)) | skip)
    | with_reducible apply Block.flushEvents_keeps
    | with_reducible apply Kept.ite
    | split

theorem Block.bootFrom_keeps {qs : List Piece} {a₀ b : Block} {held : Bool} (inside : Within [.events, .pw, .reg Off.lgAlarm] qs) (before : Kept qs a₀ b) :
    Kept qs a₀ (Block.bootFrom b held) := Kept.step (Block.bootFrom_kept _ _) inside before

theorem Block.porstRise_kept (b : Block) (strap : BitVec 4) (bts : BitVec 3) (board : List Byte) : Kept [.events, .pins, .pw, .reg Off.lgAlarm] b (Block.porstRise b strap bts board) := by
  unfold Block.porstRise
  repeat' first
    | with_reducible assumption
    | with_reducible apply Kept.refl
    | with_reducible apply Within.refl
    | ((with_reducible apply Within.of); rfl)
    | ((with_reducible apply Within.cons); (apply Piece.inside_of; rfl))
    | ((with_reducible apply Within.cons); apply Or.inr)
    | with_reducible apply Within.nil
    | with_reducible apply List.mem_cons_self
    | with_reducible apply List.mem_cons_of_mem
    | (extract_lets +onlyGivenNames x
       first
       | (guard_hyp x : Block := _
          refine Kept.cut (ps := [.events, .pins, .pw, .reg Off.lgAlarm]) (b := b) (x := x) ?_ fun hx => ?_
          on_goal 1 => subst x
          on_goal 2 => try clear_value x)
       | clear_value x
       | skip)
    | with_reducible apply Block.sampleStraps_keeps
    | with_reducible apply Block.bootFrom_keeps
    | with_reducible apply Block.readBoard_keeps
    | with_reducible apply Kept.ite
    | split

theorem Block.porstRise_keeps {qs : List Piece} {a₀ b : Block} {strap : BitVec 4} {bts : BitVec 3} {board : List Byte} (inside : Within [.events, .pins, .pw, .reg Off.lgAlarm] qs) (before : Kept qs a₀ b) :
    Kept qs a₀ (Block.porstRise b strap bts board) := Kept.step (Block.porstRise_kept _ _ _ _) inside before

theorem Block.aonLost_kept (b : Block) : Kept [.berths, .chans, .chs, .ck, .cnt, .cols, .doms, .events, .frzOut, .fws, .heat, .hold, .ins, .jtagDr, .keys, .lanes, .lg, .mf, .pins, .prot, .pw, .qy, .rdData, .regs, .running, .sel, .sides, .slots, .stk, .sv, .tide, .tl] b (Block.aonLost b) := by
  unfold Block.aonLost
  repeat' first
    | with_reducible assumption
    | with_reducible apply Kept.refl
    | with_reducible apply Within.refl
    | ((with_reducible apply Within.of); rfl)
    | ((with_reducible apply Within.cons); (apply Piece.inside_of; rfl))
    | ((with_reducible apply Within.cons); apply Or.inr)
    | with_reducible apply Within.nil
    | with_reducible apply List.mem_cons_self
    | with_reducible apply List.mem_cons_of_mem
    | (extract_lets +onlyGivenNames x
       first
       | (guard_hyp x : Block := _
          refine Kept.cut (ps := [.berths, .chans, .chs, .ck, .cnt, .cols, .doms, .events, .frzOut, .fws, .heat, .hold, .ins, .jtagDr, .keys, .lanes, .lg, .mf, .pins, .prot, .pw, .qy, .rdData, .regs, .running, .sel, .sides, .slots, .stk, .sv, .tide, .tl]) (b := b) (x := x) ?_ fun hx => ?_
          on_goal 1 => subst x
          on_goal 2 => try clear_value x)
       | (guard_hyp x : Logbook := _; subst x)
       | clear_value x
       | skip)
    | (simp only [Kept.by_fields]; with_reducible apply Kept.fields <;>
         first | with_reducible exact Or.inl rfl | (apply Or.inr; apply Piece.mem_of; rfl) | exact Or.inr (by simp; done) | (refine Or.inr ⟨?_, ?_⟩ <;> first | (apply Or.inl; apply Piece.mem_of; rfl) | exact Or.inl (by simp; done) | with_reducible exact Or.inr rfl | with_reducible exact Or.inr ⟨rfl, rfl, rfl, rfl⟩ | with_reducible exact Or.inr ⟨rfl, rfl, rfl, rfl, rfl⟩ | (refine ⟨?_, ?_⟩ <;> first | (apply Or.inl; apply Piece.mem_of; rfl) | exact Or.inl (by simp; done) | with_reducible exact Or.inr rfl)) | skip)
    | with_reducible apply Block.coldKept_keeps
    | with_reducible apply Block.setReg_keeps
    | with_reducible apply Kept.ite
    | split

theorem Block.aonLost_keeps {qs : List Piece} {a₀ b : Block} (inside : Within [.berths, .chans, .chs, .ck, .cnt, .cols, .doms, .events, .frzOut, .fws, .heat, .hold, .ins, .jtagDr, .keys, .lanes, .lg, .mf, .pins, .prot, .pw, .qy, .rdData, .regs, .running, .sel, .sides, .slots, .stk, .sv, .tide, .tl] qs) (before : Kept qs a₀ b) :
    Kept qs a₀ (Block.aonLost b) := Kept.step (Block.aonLost_kept _) inside before

theorem Block.keepBits_kept (b : Block) (old : Block) (off : Nat) (m : Word) : Kept [.reg off] b (Block.keepBits b old off m) := by
  unfold Block.keepBits
  repeat' first
    | with_reducible assumption
    | with_reducible apply Kept.refl
    | with_reducible apply Within.refl
    | ((with_reducible apply Within.of); rfl)
    | ((with_reducible apply Within.cons); (apply Piece.inside_of; rfl))
    | ((with_reducible apply Within.cons); apply Or.inr)
    | with_reducible apply Within.nil
    | with_reducible apply List.mem_cons_self
    | with_reducible apply List.mem_cons_of_mem
    | with_reducible apply Block.setReg_keeps

theorem Block.keepBits_keeps {qs : List Piece} {a₀ b : Block} {old : Block} {off : Nat} {m : Word} (inside : Within [.reg off] qs) (before : Kept qs a₀ b) :
    Kept qs a₀ (Block.keepBits b old off m) := Kept.step (Block.keepBits_kept _ _ _ _) inside before

theorem Block.stackAtReset_kept (b : Block) : Kept [.berths, .stk] b (Block.stackAtReset b) := by
  unfold Block.stackAtReset
  repeat' first
    | with_reducible assumption
    | with_reducible apply Kept.refl
    | with_reducible apply Within.refl
    | ((with_reducible apply Within.of); rfl)
    | ((with_reducible apply Within.cons); (apply Piece.inside_of; rfl))
    | ((with_reducible apply Within.cons); apply Or.inr)
    | with_reducible apply Within.nil
    | with_reducible apply List.mem_cons_self
    | with_reducible apply List.mem_cons_of_mem
    | (extract_lets +onlyGivenNames x
       first
       | (guard_hyp x : Block := _
          refine Kept.cut (ps := [.berths, .stk]) (b := b) (x := x) ?_ fun hx => ?_
          on_goal 1 => subst x
          on_goal 2 => try clear_value x)
       | clear_value x
       | skip)
    | (simp only [Kept.by_fields]; with_reducible apply Kept.fields <;>
         first | with_reducible exact Or.inl rfl | (apply Or.inr; apply Piece.mem_of; rfl) | exact Or.inr (by simp; done) | (refine Or.inr ⟨?_, ?_⟩ <;> first | (apply Or.inl; apply Piece.mem_of; rfl) | exact Or.inl (by simp; done) | with_reducible exact Or.inr rfl | with_reducible exact Or.inr ⟨rfl, rfl, rfl, rfl⟩ | with_reducible exact Or.inr ⟨rfl, rfl, rfl, rfl, rfl⟩ | (refine ⟨?_, ?_⟩ <;> first | (apply Or.inl; apply Piece.mem_of; rfl) | exact Or.inl (by simp; done) | with_reducible exact Or.inr rfl)) | skip)
    | (with_reducible apply Kept.each; intro _ _ _)
    | with_reducible apply Block.srst_keeps
    | with_reducible apply Block.modBerth_keeps
    | split

theorem Block.stackAtReset_keeps {qs : List Piece} {a₀ b : Block} (inside : Within [.berths, .stk] qs) (before : Kept qs a₀ b) :
    Kept qs a₀ (Block.stackAtReset b) := Kept.step (Block.stackAtReset_kept _) inside before

theorem Block.warmKeep_kept (b : Block) : Kept [.berths, .chans, .chs, .ck, .cnt, .cols, .doms, .fws, .heat, .hold, .ins, .keys, .lanes, .lg, .mf, .pins, .prot, .pw, .qy, .rdData, .regs, .running, .sel, .sides, .slots, .stk, .sv, .tl] b (Block.warmKeep b) := by
  unfold Block.warmKeep
  repeat' first
    | with_reducible assumption
    | with_reducible apply Kept.refl
    | with_reducible apply Within.refl
    | ((with_reducible apply Within.of); rfl)
    | ((with_reducible apply Within.cons); (apply Piece.inside_of; rfl))
    | ((with_reducible apply Within.cons); apply Or.inr)
    | with_reducible apply Within.nil
    | with_reducible apply List.mem_cons_self
    | with_reducible apply List.mem_cons_of_mem
    | (extract_lets +onlyGivenNames x
       first
       | (guard_hyp x : Block := _
          refine Kept.cut (ps := [.berths, .chans, .chs, .ck, .cnt, .cols, .doms, .fws, .heat, .hold, .ins, .keys, .lanes, .lg, .mf, .pins, .prot, .pw, .qy, .rdData, .regs, .running, .sel, .sides, .slots, .stk, .sv, .tl]) (b := b) (x := x) ?_ fun hx => ?_
          on_goal 1 => subst x
          on_goal 2 => try clear_value x)
       | (guard_hyp x : Power := _; subst x)
       | (guard_hyp x : Clocks := _; subst x)
       | (guard_hyp x : Manifests := _; subst x)
       | (guard_hyp x : Logbook := _; subst x)
       | clear_value x
       | skip)
    | (simp only [Kept.by_fields]; with_reducible apply Kept.fields <;>
         first | with_reducible exact Or.inl rfl | (apply Or.inr; apply Piece.mem_of; rfl) | exact Or.inr (by simp; done) | (refine Or.inr ⟨?_, ?_⟩ <;> first | (apply Or.inl; apply Piece.mem_of; rfl) | exact Or.inl (by simp; done) | with_reducible exact Or.inr rfl | with_reducible exact Or.inr ⟨rfl, rfl, rfl, rfl⟩ | with_reducible exact Or.inr ⟨rfl, rfl, rfl, rfl, rfl⟩ | (refine ⟨?_, ?_⟩ <;> first | (apply Or.inl; apply Piece.mem_of; rfl) | exact Or.inl (by simp; done) | with_reducible exact Or.inr rfl)) | skip)
    | with_reducible apply Block.keepBits_keeps
    | with_reducible apply Block.orReg_keeps
    | with_reducible apply Kept.ite
    | split

theorem Block.warmKeep_keeps {qs : List Piece} {a₀ b : Block} (inside : Within [.berths, .chans, .chs, .ck, .cnt, .cols, .doms, .fws, .heat, .hold, .ins, .keys, .lanes, .lg, .mf, .pins, .prot, .pw, .qy, .rdData, .regs, .running, .sel, .sides, .slots, .stk, .sv, .tl] qs) (before : Kept qs a₀ b) :
    Kept qs a₀ (Block.warmKeep b) := Kept.step (Block.warmKeep_kept _) inside before

theorem Block.wrstFall_kept (b : Block) : Kept [.berths, .chans, .chs, .ck, .cnt, .cols, .doms, .fws, .heat, .hold, .ins, .keys, .lanes, .lg, .mf, .pins, .prot, .pw, .qy, .rdData, .regs, .running, .sel, .sides, .slots, .stk, .sv, .tl] b (Block.wrstFall b) := by
  unfold Block.wrstFall
  repeat' first
    | with_reducible assumption
    | with_reducible apply Kept.refl
    | with_reducible apply Within.refl
    | ((with_reducible apply Within.of); rfl)
    | ((with_reducible apply Within.cons); (apply Piece.inside_of; rfl))
    | ((with_reducible apply Within.cons); apply Or.inr)
    | with_reducible apply Within.nil
    | with_reducible apply List.mem_cons_self
    | with_reducible apply List.mem_cons_of_mem
    | (extract_lets +onlyGivenNames x
       first
       | (guard_hyp x : Block := _
          refine Kept.cut (ps := [.berths, .chans, .chs, .ck, .cnt, .cols, .doms, .fws, .heat, .hold, .ins, .keys, .lanes, .lg, .mf, .pins, .prot, .pw, .qy, .rdData, .regs, .running, .sel, .sides, .slots, .stk, .sv, .tl]) (b := b) (x := x) ?_ fun hx => ?_
          on_goal 1 => subst x
          on_goal 2 => try clear_value x)
       | clear_value x
       | skip)
    | (simp only [Kept.by_fields]; with_reducible apply Kept.fields <;>
         first | with_reducible exact Or.inl rfl | (apply Or.inr; apply Piece.mem_of; rfl) | exact Or.inr (by simp; done) | (refine Or.inr ⟨?_, ?_⟩ <;> first | (apply Or.inl; apply Piece.mem_of; rfl) | exact Or.inl (by simp; done) | with_reducible exact Or.inr rfl | with_reducible exact Or.inr ⟨rfl, rfl, rfl, rfl⟩ | with_reducible exact Or.inr ⟨rfl, rfl, rfl, rfl, rfl⟩ | (refine ⟨?_, ?_⟩ <;> first | (apply Or.inl; apply Piece.mem_of; rfl) | exact Or.inl (by simp; done) | with_reducible exact Or.inr rfl)) | skip)
    | with_reducible apply Block.warmKeep_keeps
    | with_reducible apply Block.stackAtReset_keeps
    | with_reducible apply Kept.ite
    | split

theorem Block.wrstFall_keeps {qs : List Piece} {a₀ b : Block} (inside : Within [.berths, .chans, .chs, .ck, .cnt, .cols, .doms, .fws, .heat, .hold, .ins, .keys, .lanes, .lg, .mf, .pins, .prot, .pw, .qy, .rdData, .regs, .running, .sel, .sides, .slots, .stk, .sv, .tl] qs) (before : Kept qs a₀ b) :
    Kept qs a₀ (Block.wrstFall b) := Kept.step (Block.wrstFall_kept _) inside before

theorem Block.wrstRise_kept (b : Block) (strap : BitVec 4) (bts : BitVec 3) (board : List Byte) : Kept [.events, .pins, .pw, .reg Off.lgAlarm] b (Block.wrstRise b strap bts board) := by
  unfold Block.wrstRise
  repeat' first
    | with_reducible assumption
    | with_reducible apply Kept.refl
    | with_reducible apply Within.refl
    | ((with_reducible apply Within.of); rfl)
    | ((with_reducible apply Within.cons); (apply Piece.inside_of; rfl))
    | ((with_reducible apply Within.cons); apply Or.inr)
    | with_reducible apply Within.nil
    | with_reducible apply List.mem_cons_self
    | with_reducible apply List.mem_cons_of_mem
    | (extract_lets +onlyGivenNames x
       first
       | (guard_hyp x : Block := _
          refine Kept.cut (ps := [.events, .pins, .pw, .reg Off.lgAlarm]) (b := b) (x := x) ?_ fun hx => ?_
          on_goal 1 => subst x
          on_goal 2 => try clear_value x)
       | clear_value x
       | skip)
    | with_reducible apply Block.sampleStraps_keeps
    | with_reducible apply Block.readBoard_keeps
    | with_reducible apply Block.bootFrom_keeps
    | with_reducible apply Kept.ite
    | split

theorem Block.wrstRise_keeps {qs : List Piece} {a₀ b : Block} {strap : BitVec 4} {bts : BitVec 3} {board : List Byte} (inside : Within [.events, .pins, .pw, .reg Off.lgAlarm] qs) (before : Kept qs a₀ b) :
    Kept qs a₀ (Block.wrstRise b strap bts board) := Kept.step (Block.wrstRise_kept _ _ _ _) inside before

theorem Block.bootImage_kept (b : Block) (slotB : Bool) (i : Image) : Kept [.mf] b (Block.bootImage b slotB i) := by
  unfold Block.bootImage
  repeat' first
    | with_reducible assumption
    | with_reducible apply Kept.refl
    | with_reducible apply Within.refl
    | ((with_reducible apply Within.of); rfl)
    | ((with_reducible apply Within.cons); (apply Piece.inside_of; rfl))
    | ((with_reducible apply Within.cons); apply Or.inr)
    | with_reducible apply Within.nil
    | with_reducible apply List.mem_cons_self
    | with_reducible apply List.mem_cons_of_mem
    | (extract_lets +onlyGivenNames x
       first
       | (guard_hyp x : Block := _
          refine Kept.cut (ps := [.mf]) (b := b) (x := x) ?_ fun hx => ?_
          on_goal 1 => subst x
          on_goal 2 => try clear_value x)
       | (guard_hyp x : Manifests := _; subst x)
       | clear_value x
       | skip)
    | (simp only [Kept.by_fields]; with_reducible apply Kept.fields <;>
         first | with_reducible exact Or.inl rfl | (apply Or.inr; apply Piece.mem_of; rfl) | exact Or.inr (by simp; done) | (refine Or.inr ⟨?_, ?_⟩ <;> first | (apply Or.inl; apply Piece.mem_of; rfl) | exact Or.inl (by simp; done) | with_reducible exact Or.inr rfl | with_reducible exact Or.inr ⟨rfl, rfl, rfl, rfl⟩ | with_reducible exact Or.inr ⟨rfl, rfl, rfl, rfl, rfl⟩ | (refine ⟨?_, ?_⟩ <;> first | (apply Or.inl; apply Piece.mem_of; rfl) | exact Or.inl (by simp; done) | with_reducible exact Or.inr rfl)) | skip)
    | with_reducible apply Kept.ite
    | split

theorem Block.bootImage_keeps {qs : List Piece} {a₀ b : Block} {slotB : Bool} {i : Image} (inside : Within [.mf] qs) (before : Kept qs a₀ b) :
    Kept qs a₀ (Block.bootImage b slotB i) := Kept.step (Block.bootImage_kept _ _ _) inside before

theorem Block.frozenRecord_kept (b : Block) : Kept [.events, .fresh, .heat, .lg, .pw, .reg Off.lgAlarm] b (Block.frozenRecord b) := by
  unfold Block.frozenRecord
  repeat' first
    | with_reducible assumption
    | with_reducible apply Kept.refl
    | with_reducible apply Within.refl
    | ((with_reducible apply Within.of); rfl)
    | ((with_reducible apply Within.cons); (apply Piece.inside_of; rfl))
    | ((with_reducible apply Within.cons); apply Or.inr)
    | with_reducible apply Within.nil
    | with_reducible apply List.mem_cons_self
    | with_reducible apply List.mem_cons_of_mem
    | (extract_lets +onlyGivenNames x
       first
       | (guard_hyp x : Block := _
          refine Kept.cut (ps := [.events, .fresh, .heat, .lg, .pw, .reg Off.lgAlarm]) (b := b) (x := x) ?_ fun hx => ?_
          on_goal 1 => subst x
          on_goal 2 => try clear_value x)
       | (guard_hyp x : Power := _; subst x)
       | (guard_hyp x : Logbook := _; subst x)
       | clear_value x
       | skip)
    | (simp only [Kept.by_fields]; with_reducible apply Kept.fields <;>
         first | with_reducible exact Or.inl rfl | (apply Or.inr; apply Piece.mem_of; rfl) | exact Or.inr (by simp; done) | (refine Or.inr ⟨?_, ?_⟩ <;> first | (apply Or.inl; apply Piece.mem_of; rfl) | exact Or.inl (by simp; done) | with_reducible exact Or.inr rfl | with_reducible exact Or.inr ⟨rfl, rfl, rfl, rfl⟩ | with_reducible exact Or.inr ⟨rfl, rfl, rfl, rfl, rfl⟩ | (refine ⟨?_, ?_⟩ <;> first | (apply Or.inl; apply Piece.mem_of; rfl) | exact Or.inl (by simp; done) | with_reducible exact Or.inr rfl)) | skip)
    | with_reducible apply Block.wearSlot_keeps
    | with_reducible apply Kept.ite
    | split

theorem Block.frozenRecord_keeps {qs : List Piece} {a₀ b : Block} (inside : Within [.events, .fresh, .heat, .lg, .pw, .reg Off.lgAlarm] qs) (before : Kept qs a₀ b) :
    Kept qs a₀ (Block.frozenRecord b) := Kept.step (Block.frozenRecord_kept _) inside before

theorem Block.flagTrips_kept (b : Block) : Kept [.lg] b (Block.flagTrips b) := by
  unfold Block.flagTrips
  repeat' first
    | with_reducible assumption
    | with_reducible apply Kept.refl
    | with_reducible apply Within.refl
    | ((with_reducible apply Within.of); rfl)
    | ((with_reducible apply Within.cons); (apply Piece.inside_of; rfl))
    | ((with_reducible apply Within.cons); apply Or.inr)
    | with_reducible apply Within.nil
    | with_reducible apply List.mem_cons_self
    | with_reducible apply List.mem_cons_of_mem
    | (extract_lets +onlyGivenNames x
       first
       | (guard_hyp x : Block := _
          refine Kept.cut (ps := [.lg]) (b := b) (x := x) ?_ fun hx => ?_
          on_goal 1 => subst x
          on_goal 2 => try clear_value x)
       | (guard_hyp x : Logbook := _; subst x)
       | clear_value x
       | skip)
    | (simp only [Kept.by_fields]; with_reducible apply Kept.fields <;>
         first | with_reducible exact Or.inl rfl | (apply Or.inr; apply Piece.mem_of; rfl) | exact Or.inr (by simp; done) | (refine Or.inr ⟨?_, ?_⟩ <;> first | (apply Or.inl; apply Piece.mem_of; rfl) | exact Or.inl (by simp; done) | with_reducible exact Or.inr rfl | with_reducible exact Or.inr ⟨rfl, rfl, rfl, rfl⟩ | with_reducible exact Or.inr ⟨rfl, rfl, rfl, rfl, rfl⟩ | (refine ⟨?_, ?_⟩ <;> first | (apply Or.inl; apply Piece.mem_of; rfl) | exact Or.inl (by simp; done) | with_reducible exact Or.inr rfl)) | skip)
    | with_reducible apply Kept.ite
    | split

theorem Block.flagTrips_keeps {qs : List Piece} {a₀ b : Block} (inside : Within [.lg] qs) (before : Kept qs a₀ b) :
    Kept qs a₀ (Block.flagTrips b) := Kept.step (Block.flagTrips_kept _) inside before

theorem Block.firstActs_kept (b : Block) : Kept [.events, .fresh, .heat, .lg, .pw, .reg Off.lgAlarm, .sv] b (Block.firstActs b) := by
  unfold Block.firstActs
  repeat' first
    | with_reducible assumption
    | with_reducible apply Kept.refl
    | with_reducible apply Within.refl
    | ((with_reducible apply Within.of); rfl)
    | ((with_reducible apply Within.cons); (apply Piece.inside_of; rfl))
    | ((with_reducible apply Within.cons); apply Or.inr)
    | with_reducible apply Within.nil
    | with_reducible apply List.mem_cons_self
    | with_reducible apply List.mem_cons_of_mem
    | (extract_lets +onlyGivenNames x
       first
       | (guard_hyp x : Block := _
          refine Kept.cut (ps := [.events, .fresh, .heat, .lg, .pw, .reg Off.lgAlarm, .sv]) (b := b) (x := x) ?_ fun hx => ?_
          on_goal 1 => subst x
          on_goal 2 => try clear_value x)
       | clear_value x
       | skip)
    | (simp only [Kept.by_fields]; with_reducible apply Kept.fields <;>
         first | with_reducible exact Or.inl rfl | (apply Or.inr; apply Piece.mem_of; rfl) | exact Or.inr (by simp; done) | (refine Or.inr ⟨?_, ?_⟩ <;> first | (apply Or.inl; apply Piece.mem_of; rfl) | exact Or.inl (by simp; done) | with_reducible exact Or.inr rfl | with_reducible exact Or.inr ⟨rfl, rfl, rfl, rfl⟩ | with_reducible exact Or.inr ⟨rfl, rfl, rfl, rfl, rfl⟩ | (refine ⟨?_, ?_⟩ <;> first | (apply Or.inl; apply Piece.mem_of; rfl) | exact Or.inl (by simp; done) | with_reducible exact Or.inr rfl)) | skip)
    | with_reducible apply Block.event_keeps
    | with_reducible apply Block.flagTrips_keeps
    | with_reducible apply Block.frozenRecord_keeps
    | with_reducible apply Kept.ite
    | split

theorem Block.firstActs_keeps {qs : List Piece} {a₀ b : Block} (inside : Within [.events, .fresh, .heat, .lg, .pw, .reg Off.lgAlarm, .sv] qs) (before : Kept qs a₀ b) :
    Kept qs a₀ (Block.firstActs b) := Kept.step (Block.firstActs_kept _) inside before

theorem Block.drawArrival_kept (b : Block) : Kept [.fresh, .mf, .sv] b (Block.drawArrival b) := by
  unfold Block.drawArrival
  repeat' first
    | with_reducible assumption
    | with_reducible apply Kept.refl
    | with_reducible apply Within.refl
    | ((with_reducible apply Within.of); rfl)
    | ((with_reducible apply Within.cons); (apply Piece.inside_of; rfl))
    | ((with_reducible apply Within.cons); apply Or.inr)
    | with_reducible apply Within.nil
    | with_reducible apply List.mem_cons_self
    | with_reducible apply List.mem_cons_of_mem
    | (extract_lets +onlyGivenNames x
       first
       | (guard_hyp x : Block := _
          refine Kept.cut (ps := [.fresh, .mf, .sv]) (b := b) (x := x) ?_ fun hx => ?_
          on_goal 1 => subst x
          on_goal 2 => try clear_value x)
       | (guard_hyp x : Manifests := _; subst x)
       | clear_value x
       | skip)
    | (simp only [Kept.by_fields]; with_reducible apply Kept.fields <;>
         first | with_reducible exact Or.inl rfl | (apply Or.inr; apply Piece.mem_of; rfl) | exact Or.inr (by simp; done) | (refine Or.inr ⟨?_, ?_⟩ <;> first | (apply Or.inl; apply Piece.mem_of; rfl) | exact Or.inl (by simp; done) | with_reducible exact Or.inr rfl | with_reducible exact Or.inr ⟨rfl, rfl, rfl, rfl⟩ | with_reducible exact Or.inr ⟨rfl, rfl, rfl, rfl, rfl⟩ | (refine ⟨?_, ?_⟩ <;> first | (apply Or.inl; apply Piece.mem_of; rfl) | exact Or.inl (by simp; done) | with_reducible exact Or.inr rfl)) | skip)
    | with_reducible apply Block.draw_keeps

theorem Block.drawArrival_keeps {qs : List Piece} {a₀ b : Block} (inside : Within [.fresh, .mf, .sv] qs) (before : Kept qs a₀ b) :
    Kept qs a₀ (Block.drawArrival b) := Kept.step (Block.drawArrival_kept _) inside before

theorem Block.holdDirs_kept (b : Block) (d0 : Option DirCopy) (d1 : Option DirCopy) : Kept [.mf] b (Block.holdDirs b d0 d1) := by
  unfold Block.holdDirs
  repeat' first
    | with_reducible assumption
    | with_reducible apply Kept.refl
    | with_reducible apply Within.refl
    | ((with_reducible apply Within.of); rfl)
    | ((with_reducible apply Within.cons); (apply Piece.inside_of; rfl))
    | ((with_reducible apply Within.cons); apply Or.inr)
    | with_reducible apply Within.nil
    | with_reducible apply List.mem_cons_self
    | with_reducible apply List.mem_cons_of_mem
    | (extract_lets +onlyGivenNames x
       first
       | (guard_hyp x : Block := _
          refine Kept.cut (ps := [.mf]) (b := b) (x := x) ?_ fun hx => ?_
          on_goal 1 => subst x
          on_goal 2 => try clear_value x)
       | (guard_hyp x : Manifests := _; subst x)
       | clear_value x
       | skip)
    | (simp only [Kept.by_fields]; with_reducible apply Kept.fields <;>
         first | with_reducible exact Or.inl rfl | (apply Or.inr; apply Piece.mem_of; rfl) | exact Or.inr (by simp; done) | (refine Or.inr ⟨?_, ?_⟩ <;> first | (apply Or.inl; apply Piece.mem_of; rfl) | exact Or.inl (by simp; done) | with_reducible exact Or.inr rfl | with_reducible exact Or.inr ⟨rfl, rfl, rfl, rfl⟩ | with_reducible exact Or.inr ⟨rfl, rfl, rfl, rfl, rfl⟩ | (refine ⟨?_, ?_⟩ <;> first | (apply Or.inl; apply Piece.mem_of; rfl) | exact Or.inl (by simp; done) | with_reducible exact Or.inr rfl)) | skip)
    | with_reducible apply Kept.ite
    | split

theorem Block.holdDirs_keeps {qs : List Piece} {a₀ b : Block} {d0 : Option DirCopy} {d1 : Option DirCopy} (inside : Within [.mf] qs) (before : Kept qs a₀ b) :
    Kept qs a₀ (Block.holdDirs b d0 d1) := Kept.step (Block.holdDirs_kept _ _ _) inside before

theorem Block.readDirectory_kept (b : Block) (d0 : List Byte) (d1 : List Byte) : Kept [.events, .mf, .reg Off.lgAlarm] b (Block.readDirectory b d0 d1) := by
  unfold Block.readDirectory
  repeat' first
    | with_reducible assumption
    | with_reducible apply Kept.refl
    | with_reducible apply Within.refl
    | ((with_reducible apply Within.of); rfl)
    | ((with_reducible apply Within.cons); (apply Piece.inside_of; rfl))
    | ((with_reducible apply Within.cons); apply Or.inr)
    | with_reducible apply Within.nil
    | with_reducible apply List.mem_cons_self
    | with_reducible apply List.mem_cons_of_mem
    | (extract_lets +onlyGivenNames x
       first
       | (guard_hyp x : Block := _
          refine Kept.cut (ps := [.events, .mf, .reg Off.lgAlarm]) (b := b) (x := x) ?_ fun hx => ?_
          on_goal 1 => subst x
          on_goal 2 => try clear_value x)
       | clear_value x
       | skip)
    | with_reducible apply Block.holdDirs_keeps
    | with_reducible apply Block.event_keeps
    | with_reducible apply Kept.ite
    | split

theorem Block.readDirectory_keeps {qs : List Piece} {a₀ b : Block} {d0 : List Byte} {d1 : List Byte} (inside : Within [.events, .mf, .reg Off.lgAlarm] qs) (before : Kept qs a₀ b) :
    Kept qs a₀ (Block.readDirectory b d0 d1) := Kept.step (Block.readDirectory_kept _ _ _) inside before

theorem Block.noteFallback_kept (b : Block) (act : Bool) (slotB : Bool) : Kept [.events, .reg Off.lgAlarm, .reg Off.mfAlarm] b (Block.noteFallback b act slotB) := by
  unfold Block.noteFallback
  repeat' first
    | with_reducible assumption
    | with_reducible apply Kept.refl
    | with_reducible apply Within.refl
    | ((with_reducible apply Within.of); rfl)
    | ((with_reducible apply Within.cons); (apply Piece.inside_of; rfl))
    | ((with_reducible apply Within.cons); apply Or.inr)
    | with_reducible apply Within.nil
    | with_reducible apply List.mem_cons_self
    | with_reducible apply List.mem_cons_of_mem
    | with_reducible apply Block.event_keeps
    | with_reducible apply Block.orReg_keeps
    | with_reducible apply Kept.ite
    | split

theorem Block.noteFallback_keeps {qs : List Piece} {a₀ b : Block} {act : Bool} {slotB : Bool} (inside : Within [.events, .reg Off.lgAlarm, .reg Off.mfAlarm] qs) (before : Kept qs a₀ b) :
    Kept qs a₀ (Block.noteFallback b act slotB) := Kept.step (Block.noteFallback_kept _ _ _) inside before

theorem Block.arrivalBoot_kept (b : Block) (d0 : List Byte) (d1 : List Byte) (imgA : List Byte) (imgB : List Byte) (root : BitVec 384) : Kept [.ck, .events, .fresh, .heat, .lg, .mf, .pw, .reg Off.lgAlarm, .reg Off.mfAlarm, .sv] b (Block.arrivalBoot b d0 d1 imgA imgB root) := by
  unfold Block.arrivalBoot
  repeat' first
    | with_reducible assumption
    | with_reducible apply Kept.refl
    | with_reducible apply Within.refl
    | ((with_reducible apply Within.of); rfl)
    | ((with_reducible apply Within.cons); (apply Piece.inside_of; rfl))
    | ((with_reducible apply Within.cons); apply Or.inr)
    | with_reducible apply Within.nil
    | with_reducible apply List.mem_cons_self
    | with_reducible apply List.mem_cons_of_mem
    | (extract_lets +onlyGivenNames x
       first
       | (guard_hyp x : Block := _
          refine Kept.cut (ps := [.ck, .events, .fresh, .heat, .lg, .mf, .pw, .reg Off.lgAlarm, .reg Off.mfAlarm, .sv]) (b := b) (x := x) ?_ fun hx => ?_
          on_goal 1 => subst x
          on_goal 2 => try clear_value x)
       | (guard_hyp x : Clocks := _; subst x)
       | (guard_hyp x : Power := _; subst x)
       | (guard_hyp x : Manifests := _; subst x)
       | clear_value x
       | skip)
    | (simp only [Kept.by_fields]; with_reducible apply Kept.fields <;>
         first | with_reducible exact Or.inl rfl | (apply Or.inr; apply Piece.mem_of; rfl) | exact Or.inr (by simp; done) | (refine Or.inr ⟨?_, ?_⟩ <;> first | (apply Or.inl; apply Piece.mem_of; rfl) | exact Or.inl (by simp; done) | with_reducible exact Or.inr rfl | with_reducible exact Or.inr ⟨rfl, rfl, rfl, rfl⟩ | with_reducible exact Or.inr ⟨rfl, rfl, rfl, rfl, rfl⟩ | (refine ⟨?_, ?_⟩ <;> first | (apply Or.inl; apply Piece.mem_of; rfl) | exact Or.inl (by simp; done) | with_reducible exact Or.inr rfl)) | skip)
    | with_reducible apply Block.readDirectory_keeps
    | with_reducible apply Block.noteFallback_keeps
    | with_reducible apply Block.firstActs_keeps
    | with_reducible apply Block.bootImage_keeps
    | with_reducible apply Block.drawArrival_keeps
    | with_reducible apply Block.draw_keeps
    | with_reducible apply Kept.ite
    | split

theorem Block.arrivalBoot_keeps {qs : List Piece} {a₀ b : Block} {d0 : List Byte} {d1 : List Byte} {imgA : List Byte} {imgB : List Byte} {root : BitVec 384} (inside : Within [.ck, .events, .fresh, .heat, .lg, .mf, .pw, .reg Off.lgAlarm, .reg Off.mfAlarm, .sv] qs) (before : Kept qs a₀ b) :
    Kept qs a₀ (Block.arrivalBoot b d0 d1 imgA imgB root) := Kept.step (Block.arrivalBoot_kept _ _ _ _ _ _) inside before

theorem Block.reboot_kept (b : Block) (d0 : List Byte) (d1 : List Byte) (imgA : List Byte) (imgB : List Byte) (root : BitVec 384) : Kept [.events, .fresh, .mf, .reg Off.lgAlarm, .reg Off.mfAlarm] b (Block.reboot b d0 d1 imgA imgB root) := by
  unfold Block.reboot
  repeat' first
    | with_reducible assumption
    | with_reducible apply Kept.refl
    | with_reducible apply Within.refl
    | ((with_reducible apply Within.of); rfl)
    | ((with_reducible apply Within.cons); (apply Piece.inside_of; rfl))
    | ((with_reducible apply Within.cons); apply Or.inr)
    | with_reducible apply Within.nil
    | with_reducible apply List.mem_cons_self
    | with_reducible apply List.mem_cons_of_mem
    | (extract_lets +onlyGivenNames x
       first
       | (guard_hyp x : Block := _
          refine Kept.cut (ps := [.events, .fresh, .mf, .reg Off.lgAlarm, .reg Off.mfAlarm]) (b := b) (x := x) ?_ fun hx => ?_
          on_goal 1 => subst x
          on_goal 2 => try clear_value x)
       | (guard_hyp x : Manifests := _; subst x)
       | clear_value x
       | skip)
    | (simp only [Kept.by_fields]; with_reducible apply Kept.fields <;>
         first | with_reducible exact Or.inl rfl | (apply Or.inr; apply Piece.mem_of; rfl) | exact Or.inr (by simp; done) | (refine Or.inr ⟨?_, ?_⟩ <;> first | (apply Or.inl; apply Piece.mem_of; rfl) | exact Or.inl (by simp; done) | with_reducible exact Or.inr rfl | with_reducible exact Or.inr ⟨rfl, rfl, rfl, rfl⟩ | with_reducible exact Or.inr ⟨rfl, rfl, rfl, rfl, rfl⟩ | (refine ⟨?_, ?_⟩ <;> first | (apply Or.inl; apply Piece.mem_of; rfl) | exact Or.inl (by simp; done) | with_reducible exact Or.inr rfl)) | skip)
    | with_reducible apply Block.readDirectory_keeps
    | with_reducible apply Block.noteFallback_keeps
    | with_reducible apply Block.bootImage_keeps
    | with_reducible apply Block.draw_keeps
    | with_reducible apply Kept.ite
    | split

theorem Block.reboot_keeps {qs : List Piece} {a₀ b : Block} {d0 : List Byte} {d1 : List Byte} {imgA : List Byte} {imgB : List Byte} {root : BitVec 384} (inside : Within [.events, .fresh, .mf, .reg Off.lgAlarm, .reg Off.mfAlarm] qs) (before : Kept qs a₀ b) :
    Kept qs a₀ (Block.reboot b d0 d1 imgA imgB root) := Kept.step (Block.reboot_kept _ _ _ _ _ _) inside before

theorem Block.bootDone_kept (b : Block) (d0 : List Byte) (d1 : List Byte) (imgA : List Byte) (imgB : List Byte) (root : BitVec 384) : Kept [.ck, .events, .fresh, .heat, .lg, .mf, .pw, .reg Off.lgAlarm, .reg Off.mfAlarm, .sv] b (Block.bootDone b d0 d1 imgA imgB root) := by
  unfold Block.bootDone
  repeat' first
    | with_reducible assumption
    | with_reducible apply Kept.refl
    | with_reducible apply Within.refl
    | ((with_reducible apply Within.of); rfl)
    | ((with_reducible apply Within.cons); (apply Piece.inside_of; rfl))
    | ((with_reducible apply Within.cons); apply Or.inr)
    | with_reducible apply Within.nil
    | with_reducible apply List.mem_cons_self
    | with_reducible apply List.mem_cons_of_mem
    | with_reducible apply Block.arrivalBoot_keeps
    | with_reducible apply Block.reboot_keeps
    | with_reducible apply Kept.ite
    | split

theorem Block.bootDone_keeps {qs : List Piece} {a₀ b : Block} {d0 : List Byte} {d1 : List Byte} {imgA : List Byte} {imgB : List Byte} {root : BitVec 384} (inside : Within [.ck, .events, .fresh, .heat, .lg, .mf, .pw, .reg Off.lgAlarm, .reg Off.mfAlarm, .sv] qs) (before : Kept qs a₀ b) :
    Kept qs a₀ (Block.bootDone b d0 d1 imgA imgB root) := Kept.step (Block.bootDone_kept _ _ _ _ _ _) inside before

theorem Block.arrivalPll_kept (b : Block) : Kept [.ck, .pw] b (Block.arrivalPll b) := by
  unfold Block.arrivalPll
  repeat' first
    | with_reducible assumption
    | with_reducible apply Kept.refl
    | with_reducible apply Within.refl
    | ((with_reducible apply Within.of); rfl)
    | ((with_reducible apply Within.cons); (apply Piece.inside_of; rfl))
    | ((with_reducible apply Within.cons); apply Or.inr)
    | with_reducible apply Within.nil
    | with_reducible apply List.mem_cons_self
    | with_reducible apply List.mem_cons_of_mem
    | (extract_lets +onlyGivenNames x
       first
       | (guard_hyp x : Block := _
          refine Kept.cut (ps := [.ck, .pw]) (b := b) (x := x) ?_ fun hx => ?_
          on_goal 1 => subst x
          on_goal 2 => try clear_value x)
       | (guard_hyp x : Power := _; subst x)
       | (guard_hyp x : Clocks := _; subst x)
       | clear_value x
       | skip)
    | (simp only [Kept.by_fields]; with_reducible apply Kept.fields <;>
         first | with_reducible exact Or.inl rfl | (apply Or.inr; apply Piece.mem_of; rfl) | exact Or.inr (by simp; done) | (refine Or.inr ⟨?_, ?_⟩ <;> first | (apply Or.inl; apply Piece.mem_of; rfl) | exact Or.inl (by simp; done) | with_reducible exact Or.inr rfl | with_reducible exact Or.inr ⟨rfl, rfl, rfl, rfl⟩ | with_reducible exact Or.inr ⟨rfl, rfl, rfl, rfl, rfl⟩ | (refine ⟨?_, ?_⟩ <;> first | (apply Or.inl; apply Piece.mem_of; rfl) | exact Or.inl (by simp; done) | with_reducible exact Or.inr rfl)) | skip)
    | with_reducible apply Kept.ite
    | split

theorem Block.arrivalPll_keeps {qs : List Piece} {a₀ b : Block} (inside : Within [.ck, .pw] qs) (before : Kept qs a₀ b) :
    Kept qs a₀ (Block.arrivalPll b) := Kept.step (Block.arrivalPll_kept _) inside before

theorem Block.formKey_kept (b : Block) : Kept [.fresh, .keys] b (Block.formKey b) := by
  unfold Block.formKey
  repeat' first
    | with_reducible assumption
    | with_reducible apply Kept.refl
    | with_reducible apply Within.refl
    | ((with_reducible apply Within.of); rfl)
    | ((with_reducible apply Within.cons); (apply Piece.inside_of; rfl))
    | ((with_reducible apply Within.cons); apply Or.inr)
    | with_reducible apply Within.nil
    | with_reducible apply List.mem_cons_self
    | with_reducible apply List.mem_cons_of_mem
    | (extract_lets +onlyGivenNames x
       first
       | (guard_hyp x : Block := _
          refine Kept.cut (ps := [.fresh, .keys]) (b := b) (x := x) ?_ fun hx => ?_
          on_goal 1 => subst x
          on_goal 2 => try clear_value x)
       | clear_value x
       | skip)
    | (simp only [Kept.by_fields]; with_reducible apply Kept.fields <;>
         first | with_reducible exact Or.inl rfl | (apply Or.inr; apply Piece.mem_of; rfl) | exact Or.inr (by simp; done) | (refine Or.inr ⟨?_, ?_⟩ <;> first | (apply Or.inl; apply Piece.mem_of; rfl) | exact Or.inl (by simp; done) | with_reducible exact Or.inr rfl | with_reducible exact Or.inr ⟨rfl, rfl, rfl, rfl⟩ | with_reducible exact Or.inr ⟨rfl, rfl, rfl, rfl, rfl⟩ | (refine ⟨?_, ?_⟩ <;> first | (apply Or.inl; apply Piece.mem_of; rfl) | exact Or.inl (by simp; done) | with_reducible exact Or.inr rfl)) | skip)
    | with_reducible apply Block.draw_keeps
    | with_reducible apply Kept.ite
    | split

theorem Block.formKey_keeps {qs : List Piece} {a₀ b : Block} (inside : Within [.fresh, .keys] qs) (before : Kept qs a₀ b) :
    Kept qs a₀ (Block.formKey b) := Kept.step (Block.formKey_kept _) inside before

theorem Block.groupStart_kept (b : Block) (g : Nat) : Kept [.doms, .pw, .sv] b (Block.groupStart b g) := by
  unfold Block.groupStart
  repeat' first
    | with_reducible assumption
    | with_reducible apply Kept.refl
    | with_reducible apply Within.refl
    | ((with_reducible apply Within.of); rfl)
    | ((with_reducible apply Within.cons); (apply Piece.inside_of; rfl))
    | ((with_reducible apply Within.cons); apply Or.inr)
    | with_reducible apply Within.nil
    | with_reducible apply List.mem_cons_self
    | with_reducible apply List.mem_cons_of_mem
    | (extract_lets +onlyGivenNames x
       first
       | (guard_hyp x : Block := _
          refine Kept.cut (ps := [.doms, .pw, .sv]) (b := b) (x := x) ?_ fun hx => ?_
          on_goal 1 => subst x
          on_goal 2 => try clear_value x)
       | (guard_hyp x : Power := _; subst x)
       | clear_value x
       | skip)
    | (simp only [Kept.by_fields]; with_reducible apply Kept.fields <;>
         first | with_reducible exact Or.inl rfl | (apply Or.inr; apply Piece.mem_of; rfl) | exact Or.inr (by simp; done) | (refine Or.inr ⟨?_, ?_⟩ <;> first | (apply Or.inl; apply Piece.mem_of; rfl) | exact Or.inl (by simp; done) | with_reducible exact Or.inr rfl | with_reducible exact Or.inr ⟨rfl, rfl, rfl, rfl⟩ | with_reducible exact Or.inr ⟨rfl, rfl, rfl, rfl, rfl⟩ | (refine ⟨?_, ?_⟩ <;> first | (apply Or.inl; apply Piece.mem_of; rfl) | exact Or.inl (by simp; done) | with_reducible exact Or.inr rfl)) | skip)
    | (with_reducible apply Kept.each; intro _ _ _)
    | with_reducible apply Block.powerUp_keeps
    | with_reducible apply Kept.ite
    | split

theorem Block.groupStart_keeps {qs : List Piece} {a₀ b : Block} {g : Nat} (inside : Within [.doms, .pw, .sv] qs) (before : Kept qs a₀ b) :
    Kept qs a₀ (Block.groupStart b g) := Kept.step (Block.groupStart_kept _ _) inside before

theorem Block.drainFor_kept (b : Block) (g : Nat) (ds : List Nat) : Kept [.doms] b (Block.drainFor b g ds) := by
  unfold Block.drainFor
  repeat' first
    | with_reducible assumption
    | with_reducible apply Kept.refl
    | with_reducible apply Within.refl
    | ((with_reducible apply Within.of); rfl)
    | ((with_reducible apply Within.cons); (apply Piece.inside_of; rfl))
    | ((with_reducible apply Within.cons); apply Or.inr)
    | with_reducible apply Within.nil
    | with_reducible apply List.mem_cons_self
    | with_reducible apply List.mem_cons_of_mem
    | (with_reducible apply Kept.each; intro _ _ _)
    | with_reducible apply Block.modDom_keeps
    | with_reducible apply Kept.ite
    | split

theorem Block.drainFor_keeps {qs : List Piece} {a₀ b : Block} {g : Nat} {ds : List Nat} (inside : Within [.doms] qs) (before : Kept qs a₀ b) :
    Kept qs a₀ (Block.drainFor b g ds) := Kept.step (Block.drainFor_kept _ _ _) inside before

theorem Block.staggerStart_kept (b : Block) : Kept [.doms, .pw, .sv] b (Block.staggerStart b) := by
  unfold Block.staggerStart
  repeat' first
    | with_reducible assumption
    | with_reducible apply Kept.refl
    | with_reducible apply Within.refl
    | ((with_reducible apply Within.of); rfl)
    | ((with_reducible apply Within.cons); (apply Piece.inside_of; rfl))
    | ((with_reducible apply Within.cons); apply Or.inr)
    | with_reducible apply Within.nil
    | with_reducible apply List.mem_cons_self
    | with_reducible apply List.mem_cons_of_mem
    | (extract_lets +onlyGivenNames x
       first
       | (guard_hyp x : Block := _
          refine Kept.cut (ps := [.doms, .pw, .sv]) (b := b) (x := x) ?_ fun hx => ?_
          on_goal 1 => subst x
          on_goal 2 => try clear_value x)
       | clear_value x
       | skip)
    | (simp only [Kept.by_fields]; with_reducible apply Kept.fields <;>
         first | with_reducible exact Or.inl rfl | (apply Or.inr; apply Piece.mem_of; rfl) | exact Or.inr (by simp; done) | (refine Or.inr ⟨?_, ?_⟩ <;> first | (apply Or.inl; apply Piece.mem_of; rfl) | exact Or.inl (by simp; done) | with_reducible exact Or.inr rfl | with_reducible exact Or.inr ⟨rfl, rfl, rfl, rfl⟩ | with_reducible exact Or.inr ⟨rfl, rfl, rfl, rfl, rfl⟩ | (refine ⟨?_, ?_⟩ <;> first | (apply Or.inl; apply Piece.mem_of; rfl) | exact Or.inl (by simp; done) | with_reducible exact Or.inr rfl)) | skip)
    | with_reducible apply Block.groupStart_keeps
    | with_reducible apply Block.drainFor_keeps
    | with_reducible apply Kept.ite
    | split

theorem Block.staggerStart_keeps {qs : List Piece} {a₀ b : Block} (inside : Within [.doms, .pw, .sv] qs) (before : Kept qs a₀ b) :
    Kept qs a₀ (Block.staggerStart b) := Kept.step (Block.staggerStart_kept _) inside before

theorem Block.powerNext_kept (b : Block) : Kept [.doms, .fresh, .keys, .pw, .sv] b (Block.powerNext b) := by
  unfold Block.powerNext
  repeat' first
    | with_reducible assumption
    | with_reducible apply Kept.refl
    | with_reducible apply Within.refl
    | ((with_reducible apply Within.of); rfl)
    | ((with_reducible apply Within.cons); (apply Piece.inside_of; rfl))
    | ((with_reducible apply Within.cons); apply Or.inr)
    | with_reducible apply Within.nil
    | with_reducible apply List.mem_cons_self
    | with_reducible apply List.mem_cons_of_mem
    | (extract_lets +onlyGivenNames x
       first
       | (guard_hyp x : Block := _
          refine Kept.cut (ps := [.doms, .fresh, .keys, .pw, .sv]) (b := b) (x := x) ?_ fun hx => ?_
          on_goal 1 => subst x
          on_goal 2 => try clear_value x)
       | (guard_hyp x : Power := _; subst x)
       | clear_value x
       | skip)
    | (simp only [Kept.by_fields]; with_reducible apply Kept.fields <;>
         first | with_reducible exact Or.inl rfl | (apply Or.inr; apply Piece.mem_of; rfl) | exact Or.inr (by simp; done) | (refine Or.inr ⟨?_, ?_⟩ <;> first | (apply Or.inl; apply Piece.mem_of; rfl) | exact Or.inl (by simp; done) | with_reducible exact Or.inr rfl | with_reducible exact Or.inr ⟨rfl, rfl, rfl, rfl⟩ | with_reducible exact Or.inr ⟨rfl, rfl, rfl, rfl, rfl⟩ | (refine ⟨?_, ?_⟩ <;> first | (apply Or.inl; apply Piece.mem_of; rfl) | exact Or.inl (by simp; done) | with_reducible exact Or.inr rfl)) | skip)
    | with_reducible apply Block.powerUp_keeps
    | with_reducible apply Block.staggerStart_keeps
    | with_reducible apply Block.formKey_keeps
    | with_reducible apply Kept.ite
    | split

theorem Block.powerNext_keeps {qs : List Piece} {a₀ b : Block} (inside : Within [.doms, .fresh, .keys, .pw, .sv] qs) (before : Kept qs a₀ b) :
    Kept qs a₀ (Block.powerNext b) := Kept.step (Block.powerNext_kept _) inside before

theorem Block.fromScratch_kept (b : Block) : Kept [.cols, .stk, .sv] b (Block.fromScratch b) := by
  unfold Block.fromScratch
  repeat' first
    | with_reducible assumption
    | with_reducible apply Kept.refl
    | with_reducible apply Within.refl
    | ((with_reducible apply Within.of); rfl)
    | ((with_reducible apply Within.cons); (apply Piece.inside_of; rfl))
    | ((with_reducible apply Within.cons); apply Or.inr)
    | with_reducible apply Within.nil
    | with_reducible apply List.mem_cons_self
    | with_reducible apply List.mem_cons_of_mem
    | (extract_lets +onlyGivenNames x
       first
       | (guard_hyp x : Block := _
          refine Kept.cut (ps := [.cols, .stk, .sv]) (b := b) (x := x) ?_ fun hx => ?_
          on_goal 1 => subst x
          on_goal 2 => try clear_value x)
       | clear_value x
       | skip)
    | (simp only [Kept.by_fields]; with_reducible apply Kept.fields <;>
         first | with_reducible exact Or.inl rfl | (apply Or.inr; apply Piece.mem_of; rfl) | exact Or.inr (by simp; done) | (refine Or.inr ⟨?_, ?_⟩ <;> first | (apply Or.inl; apply Piece.mem_of; rfl) | exact Or.inl (by simp; done) | with_reducible exact Or.inr rfl | with_reducible exact Or.inr ⟨rfl, rfl, rfl, rfl⟩ | with_reducible exact Or.inr ⟨rfl, rfl, rfl, rfl, rfl⟩ | (refine ⟨?_, ?_⟩ <;> first | (apply Or.inl; apply Piece.mem_of; rfl) | exact Or.inl (by simp; done) | with_reducible exact Or.inr rfl)) | skip)
    | with_reducible apply Kept.ite
    | split

theorem Block.fromScratch_keeps {qs : List Piece} {a₀ b : Block} (inside : Within [.cols, .stk, .sv] qs) (before : Kept qs a₀ b) :
    Kept qs a₀ (Block.fromScratch b) := Kept.step (Block.fromScratch_kept _) inside before

theorem Block.chartRead_kept (b : Block) : Kept [.berths, .cols, .doms, .fresh, .heat, .keys, .lanes, .pw, .regs, .stk, .sv] b (Block.chartRead b) := by
  unfold Block.chartRead
  repeat' first
    | with_reducible assumption
    | with_reducible apply Kept.refl
    | with_reducible apply Within.refl
    | ((with_reducible apply Within.of); rfl)
    | ((with_reducible apply Within.cons); (apply Piece.inside_of; rfl))
    | ((with_reducible apply Within.cons); apply Or.inr)
    | with_reducible apply Within.nil
    | with_reducible apply List.mem_cons_self
    | with_reducible apply List.mem_cons_of_mem
    | (extract_lets +onlyGivenNames x
       first
       | (guard_hyp x : Block := _
          refine Kept.cut (ps := [.berths, .cols, .doms, .fresh, .heat, .keys, .lanes, .pw, .regs, .stk, .sv]) (b := b) (x := x) ?_ fun hx => ?_
          on_goal 1 => subst x
          on_goal 2 => try clear_value x)
       | (guard_hyp x : Power := _; subst x)
       | clear_value x
       | skip)
    | (simp only [Kept.by_fields]; with_reducible apply Kept.fields <;>
         first | with_reducible exact Or.inl rfl | (apply Or.inr; apply Piece.mem_of; rfl) | exact Or.inr (by simp; done) | (refine Or.inr ⟨?_, ?_⟩ <;> first | (apply Or.inl; apply Piece.mem_of; rfl) | exact Or.inl (by simp; done) | with_reducible exact Or.inr rfl | with_reducible exact Or.inr ⟨rfl, rfl, rfl, rfl⟩ | with_reducible exact Or.inr ⟨rfl, rfl, rfl, rfl, rfl⟩ | (refine ⟨?_, ?_⟩ <;> first | (apply Or.inl; apply Piece.mem_of; rfl) | exact Or.inl (by simp; done) | with_reducible exact Or.inr rfl)) | skip)
    | with_reducible apply Block.loadChart_keeps
    | with_reducible apply Block.fromScratch_keeps
    | with_reducible apply Block.powerNext_keeps
    | with_reducible apply Kept.ite
    | split

theorem Block.chartRead_keeps {qs : List Piece} {a₀ b : Block} (inside : Within [.berths, .cols, .doms, .fresh, .heat, .keys, .lanes, .pw, .regs, .stk, .sv] qs) (before : Kept qs a₀ b) :
    Kept qs a₀ (Block.chartRead b) := Kept.step (Block.chartRead_kept _) inside before

theorem Block.domDone_kept (b : Block) (d : Nat) (powered : Bool) : Kept [.dom d, .ins, .running, .slots] b (Block.domDone b d powered) := by
  unfold Block.domDone
  repeat' first
    | with_reducible assumption
    | with_reducible apply Kept.refl
    | with_reducible apply Within.refl
    | ((with_reducible apply Within.of); rfl)
    | ((with_reducible apply Within.cons); (apply Piece.inside_of; rfl))
    | ((with_reducible apply Within.cons); apply Or.inr)
    | with_reducible apply Within.nil
    | with_reducible apply List.mem_cons_self
    | with_reducible apply List.mem_cons_of_mem
    | (simp only [Kept.by_fields]; with_reducible apply Kept.fields <;>
         first | with_reducible exact Or.inl rfl | (apply Or.inr; apply Piece.mem_of; rfl) | exact Or.inr (by simp; done) | (refine Or.inr ⟨?_, ?_⟩ <;> first | (apply Or.inl; apply Piece.mem_of; rfl) | exact Or.inl (by simp; done) | with_reducible exact Or.inr rfl | with_reducible exact Or.inr ⟨rfl, rfl, rfl, rfl⟩ | with_reducible exact Or.inr ⟨rfl, rfl, rfl, rfl, rfl⟩ | (refine ⟨?_, ?_⟩ <;> first | (apply Or.inl; apply Piece.mem_of; rfl) | exact Or.inl (by simp; done) | with_reducible exact Or.inr rfl)) | skip)
    | with_reducible apply Block.modDom_keeps
    | with_reducible apply Block.finish_keeps
    | split

theorem Block.domDone_keeps {qs : List Piece} {a₀ b : Block} {d : Nat} {powered : Bool} (inside : Within [.dom d, .ins, .running, .slots] qs) (before : Kept qs a₀ b) :
    Kept qs a₀ (Block.domDone b d powered) := Kept.step (Block.domDone_kept _ _ _) inside before

theorem Block.domStarts_kept (b : Block) (d : Nat) : Kept [.chans, .chs, .events, .lanes, .regs, .sides] b (Block.domStarts b d) := by
  unfold Block.domStarts
  repeat' first
    | with_reducible assumption
    | with_reducible apply Kept.refl
    | with_reducible apply Within.refl
    | ((with_reducible apply Within.of); rfl)
    | ((with_reducible apply Within.cons); (apply Piece.inside_of; rfl))
    | ((with_reducible apply Within.cons); apply Or.inr)
    | with_reducible apply Within.nil
    | with_reducible apply List.mem_cons_self
    | with_reducible apply List.mem_cons_of_mem
    | (extract_lets +onlyGivenNames x
       first
       | (guard_hyp x : Block := _
          refine Kept.cut (ps := [.chans, .chs, .events, .lanes, .regs, .sides]) (b := b) (x := x) ?_ fun hx => ?_
          on_goal 1 => subst x
          on_goal 2 => try clear_value x)
       | clear_value x
       | skip)
    | (with_reducible apply Kept.each; intro _ _ _)
    | with_reducible apply Block.modLane_keeps
    | with_reducible apply Block.startHunt_keeps
    | with_reducible apply Block.linkUp_keeps
    | with_reducible apply Block.resizeSide_keeps
    | with_reducible apply Block.reloadCharters_keeps
    | with_reducible apply Block.startReturn_keeps
    | with_reducible apply Kept.ite
    | split

theorem Block.domStarts_keeps {qs : List Piece} {a₀ b : Block} {d : Nat} (inside : Within [.chans, .chs, .events, .lanes, .regs, .sides] qs) (before : Kept qs a₀ b) :
    Kept qs a₀ (Block.domStarts b d) := Kept.step (Block.domStarts_kept _ _) inside before

theorem Block.turnOver_kept (b : Block) (d : Nat) : Kept [.doms] b (Block.turnOver b d) := by
  unfold Block.turnOver
  repeat' first
    | with_reducible assumption
    | with_reducible apply Kept.refl
    | with_reducible apply Within.refl
    | ((with_reducible apply Within.of); rfl)
    | ((with_reducible apply Within.cons); (apply Piece.inside_of; rfl))
    | ((with_reducible apply Within.cons); apply Or.inr)
    | with_reducible apply Within.nil
    | with_reducible apply List.mem_cons_self
    | with_reducible apply List.mem_cons_of_mem
    | (with_reducible apply Kept.each; intro _ _ _)
    | with_reducible apply Block.modDom_keeps
    | with_reducible apply Kept.ite
    | split

theorem Block.turnOver_keeps {qs : List Piece} {a₀ b : Block} {d : Nat} (inside : Within [.doms] qs) (before : Kept qs a₀ b) :
    Kept qs a₀ (Block.turnOver b d) := Kept.step (Block.turnOver_kept _ _) inside before

theorem Block.powerGood_kept (b : Block) (d : Nat) : Kept [.chans, .chs, .cnt, .doms, .events, .fresh, .fws, .hold, .ins, .keys, .lanes, .pw, .regs, .running, .sel, .sides, .slots, .sv, .tl] b (Block.powerGood b d) := by
  unfold Block.powerGood
  repeat' first
    | with_reducible assumption
    | with_reducible apply Kept.refl
    | with_reducible apply Within.refl
    | ((with_reducible apply Within.of); rfl)
    | ((with_reducible apply Within.cons); (apply Piece.inside_of; rfl))
    | ((with_reducible apply Within.cons); apply Or.inr)
    | with_reducible apply Within.nil
    | with_reducible apply List.mem_cons_self
    | with_reducible apply List.mem_cons_of_mem
    | (extract_lets +onlyGivenNames x
       first
       | (guard_hyp x : Block := _
          refine Kept.cut (ps := [.chans, .chs, .cnt, .doms, .events, .fresh, .fws, .hold, .ins, .keys, .lanes, .pw, .regs, .running, .sel, .sides, .slots, .sv, .tl]) (b := b) (x := x) ?_ fun hx => ?_
          on_goal 1 => subst x
          on_goal 2 => try clear_value x)
       | clear_value x
       | skip)
    | with_reducible apply Block.modDom_keeps
    | with_reducible apply Block.domReset_keeps
    | with_reducible apply Block.powerNext_keeps
    | with_reducible apply Block.domDone_keeps
    | with_reducible apply Block.domStarts_keeps
    | with_reducible apply Block.turnOver_keeps
    | with_reducible apply Kept.ite
    | split

theorem Block.powerGood_keeps {qs : List Piece} {a₀ b : Block} {d : Nat} (inside : Within [.chans, .chs, .cnt, .doms, .events, .fresh, .fws, .hold, .ins, .keys, .lanes, .pw, .regs, .running, .sel, .sides, .slots, .sv, .tl] qs) (before : Kept qs a₀ b) :
    Kept qs a₀ (Block.powerGood b d) := Kept.step (Block.powerGood_kept _ _) inside before

theorem Block.powerFail_kept (b : Block) (d : Nat) : Kept [.doms, .events, .fresh, .ins, .keys, .pw, .reg Off.lgAlarm, .reg Off.pwAlarm, .running, .slots, .sv] b (Block.powerFail b d) := by
  unfold Block.powerFail
  repeat' first
    | with_reducible assumption
    | with_reducible apply Kept.refl
    | with_reducible apply Within.refl
    | ((with_reducible apply Within.of); rfl)
    | ((with_reducible apply Within.cons); (apply Piece.inside_of; rfl))
    | ((with_reducible apply Within.cons); apply Or.inr)
    | with_reducible apply Within.nil
    | with_reducible apply List.mem_cons_self
    | with_reducible apply List.mem_cons_of_mem
    | (extract_lets +onlyGivenNames x
       first
       | (guard_hyp x : Block := _
          refine Kept.cut (ps := [.doms, .events, .fresh, .ins, .keys, .pw, .reg Off.lgAlarm, .reg Off.pwAlarm, .running, .slots, .sv]) (b := b) (x := x) ?_ fun hx => ?_
          on_goal 1 => subst x
          on_goal 2 => try clear_value x)
       | clear_value x
       | skip)
    | (simp only [Kept.by_fields]; with_reducible apply Kept.fields <;>
         first | with_reducible exact Or.inl rfl | (apply Or.inr; apply Piece.mem_of; rfl) | exact Or.inr (by simp; done) | (refine Or.inr ⟨?_, ?_⟩ <;> first | (apply Or.inl; apply Piece.mem_of; rfl) | exact Or.inl (by simp; done) | with_reducible exact Or.inr rfl | with_reducible exact Or.inr ⟨rfl, rfl, rfl, rfl⟩ | with_reducible exact Or.inr ⟨rfl, rfl, rfl, rfl, rfl⟩ | (refine ⟨?_, ?_⟩ <;> first | (apply Or.inl; apply Piece.mem_of; rfl) | exact Or.inl (by simp; done) | with_reducible exact Or.inr rfl)) | skip)
    | with_reducible apply Block.modDom_keeps
    | with_reducible apply Block.event_keeps
    | with_reducible apply Block.orReg_keeps
    | with_reducible apply Block.powerNext_keeps
    | with_reducible apply Block.domDone_keeps
    | with_reducible apply Block.turnOver_keeps
    | with_reducible apply Kept.ite
    | split

theorem Block.powerFail_keeps {qs : List Piece} {a₀ b : Block} {d : Nat} (inside : Within [.doms, .events, .fresh, .ins, .keys, .pw, .reg Off.lgAlarm, .reg Off.pwAlarm, .running, .slots, .sv] qs) (before : Kept qs a₀ b) :
    Kept qs a₀ (Block.powerFail b d) := Kept.step (Block.powerFail_kept _ _) inside before

theorem Block.parkBerth_kept (b : Block) (n : Nat) : Kept [.berth n] b (Block.parkBerth b n) := by
  unfold Block.parkBerth
  repeat' first
    | with_reducible assumption
    | with_reducible apply Kept.refl
    | with_reducible apply Within.refl
    | ((with_reducible apply Within.of); rfl)
    | ((with_reducible apply Within.cons); (apply Piece.inside_of; rfl))
    | ((with_reducible apply Within.cons); apply Or.inr)
    | with_reducible apply Within.nil
    | with_reducible apply List.mem_cons_self
    | with_reducible apply List.mem_cons_of_mem
    | with_reducible apply Block.modBerth_keeps
    | with_reducible apply Kept.ite
    | split

theorem Block.parkBerth_keeps {qs : List Piece} {a₀ b : Block} {n : Nat} (inside : Within [.berth n] qs) (before : Kept qs a₀ b) :
    Kept qs a₀ (Block.parkBerth b n) := Kept.step (Block.parkBerth_kept _ _) inside before

theorem Block.parkChan_kept (b : Block) (n : Nat) : Kept [.berth n, .chan n, .count (dcOff Off.dcSrEntryLo n)] b (Block.parkChan b n) := by
  unfold Block.parkChan
  repeat' first
    | with_reducible assumption
    | with_reducible apply Kept.refl
    | with_reducible apply Within.refl
    | ((with_reducible apply Within.of); rfl)
    | ((with_reducible apply Within.cons); (apply Piece.inside_of; rfl))
    | ((with_reducible apply Within.cons); apply Or.inr)
    | with_reducible apply Within.nil
    | with_reducible apply List.mem_cons_self
    | with_reducible apply List.mem_cons_of_mem
    | with_reducible apply Block.parkBerth_keeps
    | with_reducible apply Block.sleepChan_keeps
    | with_reducible apply Kept.ite
    | split

theorem Block.parkChan_keeps {qs : List Piece} {a₀ b : Block} {n : Nat} (inside : Within [.berth n, .chan n, .count (dcOff Off.dcSrEntryLo n)] qs) (before : Kept qs a₀ b) :
    Kept qs a₀ (Block.parkChan b n) := Kept.step (Block.parkChan_kept _ _) inside before

theorem Block.startPark_kept (b : Block) (n : Nat) : Kept [.berth n, .chan n, .count (dcOff Off.dcSrEntryLo n)] b (Block.startPark b n) := by
  unfold Block.startPark
  repeat' first
    | with_reducible assumption
    | with_reducible apply Kept.refl
    | with_reducible apply Within.refl
    | ((with_reducible apply Within.of); rfl)
    | ((with_reducible apply Within.cons); (apply Piece.inside_of; rfl))
    | ((with_reducible apply Within.cons); apply Or.inr)
    | with_reducible apply Within.nil
    | with_reducible apply List.mem_cons_self
    | with_reducible apply List.mem_cons_of_mem
    | with_reducible apply Block.parkBerth_keeps
    | with_reducible apply Block.beginSleep_keeps
    | with_reducible apply Kept.ite
    | split

theorem Block.startPark_keeps {qs : List Piece} {a₀ b : Block} {n : Nat} (inside : Within [.berth n, .chan n, .count (dcOff Off.dcSrEntryLo n)] qs) (before : Kept qs a₀ b) :
    Kept qs a₀ (Block.startPark b n) := Kept.step (Block.startPark_kept _ _) inside before

theorem Block.domStops_kept (b : Block) (d : Nat) : Kept [.berths, .chans, .ck, .cnt, .events, .fws, .ins, .lanes, .mf, .pw, .qy, .regs, .running, .sides, .slots, .tl] b (Block.domStops b d) := by
  unfold Block.domStops
  repeat' first
    | with_reducible assumption
    | with_reducible apply Kept.refl
    | with_reducible apply Within.refl
    | ((with_reducible apply Within.of); rfl)
    | ((with_reducible apply Within.cons); (apply Piece.inside_of; rfl))
    | ((with_reducible apply Within.cons); apply Or.inr)
    | with_reducible apply Within.nil
    | with_reducible apply List.mem_cons_self
    | with_reducible apply List.mem_cons_of_mem
    | (extract_lets +onlyGivenNames x
       first
       | (guard_hyp x : Block := _
          refine Kept.cut (ps := [.berths, .chans, .ck, .cnt, .events, .fws, .ins, .lanes, .mf, .pw, .qy, .regs, .running, .sides, .slots, .tl]) (b := b) (x := x) ?_ fun hx => ?_
          on_goal 1 => subst x
          on_goal 2 => try clear_value x)
       | clear_value x
       | skip)
    | (simp only [Kept.by_fields]; with_reducible apply Kept.fields <;>
         first | with_reducible exact Or.inl rfl | (apply Or.inr; apply Piece.mem_of; rfl) | exact Or.inr (by simp; done) | (refine Or.inr ⟨?_, ?_⟩ <;> first | (apply Or.inl; apply Piece.mem_of; rfl) | exact Or.inl (by simp; done) | with_reducible exact Or.inr rfl | with_reducible exact Or.inr ⟨rfl, rfl, rfl, rfl⟩ | with_reducible exact Or.inr ⟨rfl, rfl, rfl, rfl, rfl⟩ | (refine ⟨?_, ?_⟩ <;> first | (apply Or.inl; apply Piece.mem_of; rfl) | exact Or.inl (by simp; done) | with_reducible exact Or.inr rfl)) | skip)
    | (with_reducible apply Kept.each; intro _ _ _)
    | with_reducible apply Block.disableLane_keeps
    | with_reducible apply Block.setPll_keeps
    | with_reducible apply Block.parkChan_keeps
    | with_reducible apply Kept.ite
    | split

theorem Block.domStops_keeps {qs : List Piece} {a₀ b : Block} {d : Nat} (inside : Within [.berths, .chans, .ck, .cnt, .events, .fws, .ins, .lanes, .mf, .pw, .qy, .regs, .running, .sides, .slots, .tl] qs) (before : Kept qs a₀ b) :
    Kept qs a₀ (Block.domStops b d) := Kept.step (Block.domStops_kept _ _) inside before

theorem Block.groupsEnd_kept (b : Block) : Kept [.doms, .events, .fresh, .keys, .lg, .pw, .reg Off.lgAlarm, .sv] b (Block.groupsEnd b) := by
  unfold Block.groupsEnd
  repeat' first
    | with_reducible assumption
    | with_reducible apply Kept.refl
    | with_reducible apply Within.refl
    | ((with_reducible apply Within.of); rfl)
    | ((with_reducible apply Within.cons); (apply Piece.inside_of; rfl))
    | ((with_reducible apply Within.cons); apply Or.inr)
    | with_reducible apply Within.nil
    | with_reducible apply List.mem_cons_self
    | with_reducible apply List.mem_cons_of_mem
    | (extract_lets +onlyGivenNames x
       first
       | (guard_hyp x : Block := _
          refine Kept.cut (ps := [.doms, .events, .fresh, .keys, .lg, .pw, .reg Off.lgAlarm, .sv]) (b := b) (x := x) ?_ fun hx => ?_
          on_goal 1 => subst x
          on_goal 2 => try clear_value x)
       | (guard_hyp x : Power := _; subst x)
       | clear_value x
       | skip)
    | (simp only [Kept.by_fields]; with_reducible apply Kept.fields <;>
         first | with_reducible exact Or.inl rfl | (apply Or.inr; apply Piece.mem_of; rfl) | exact Or.inr (by simp; done) | (refine Or.inr ⟨?_, ?_⟩ <;> first | (apply Or.inl; apply Piece.mem_of; rfl) | exact Or.inl (by simp; done) | with_reducible exact Or.inr rfl | with_reducible exact Or.inr ⟨rfl, rfl, rfl, rfl⟩ | with_reducible exact Or.inr ⟨rfl, rfl, rfl, rfl, rfl⟩ | (refine ⟨?_, ?_⟩ <;> first | (apply Or.inl; apply Piece.mem_of; rfl) | exact Or.inl (by simp; done) | with_reducible exact Or.inr rfl)) | skip)
    | with_reducible apply Block.chartBegin_keeps
    | with_reducible apply Block.powerNext_keeps
    | with_reducible apply Kept.ite
    | split

theorem Block.groupsEnd_keeps {qs : List Piece} {a₀ b : Block} (inside : Within [.doms, .events, .fresh, .keys, .lg, .pw, .reg Off.lgAlarm, .sv] qs) (before : Kept qs a₀ b) :
    Kept qs a₀ (Block.groupsEnd b) := Kept.step (Block.groupsEnd_kept _) inside before

theorem Block.groupNext_kept (b : Block) : Kept [.doms, .events, .fresh, .keys, .lg, .pw, .reg Off.lgAlarm, .sv] b (Block.groupNext b) := by
  unfold Block.groupNext
  repeat' first
    | with_reducible assumption
    | with_reducible apply Kept.refl
    | with_reducible apply Within.refl
    | ((with_reducible apply Within.of); rfl)
    | ((with_reducible apply Within.cons); (apply Piece.inside_of; rfl))
    | ((with_reducible apply Within.cons); apply Or.inr)
    | with_reducible apply Within.nil
    | with_reducible apply List.mem_cons_self
    | with_reducible apply List.mem_cons_of_mem
    | (extract_lets +onlyGivenNames x
       first
       | (guard_hyp x : Block := _
          refine Kept.cut (ps := [.doms, .events, .fresh, .keys, .lg, .pw, .reg Off.lgAlarm, .sv]) (b := b) (x := x) ?_ fun hx => ?_
          on_goal 1 => subst x
          on_goal 2 => try clear_value x)
       | clear_value x
       | skip)
    | with_reducible apply Block.groupStart_keeps
    | with_reducible apply Block.groupsEnd_keeps
    | with_reducible apply Kept.ite
    | split

theorem Block.groupNext_keeps {qs : List Piece} {a₀ b : Block} (inside : Within [.doms, .events, .fresh, .keys, .lg, .pw, .reg Off.lgAlarm, .sv] qs) (before : Kept qs a₀ b) :
    Kept qs a₀ (Block.groupNext b) := Kept.step (Block.groupNext_kept _) inside before

theorem Block.parkPair_kept (b : Block) (d : Nat) : Kept [.berths, .chans, .cnt] b (Block.parkPair b d) := by
  unfold Block.parkPair
  repeat' first
    | with_reducible assumption
    | with_reducible apply Kept.refl
    | with_reducible apply Within.refl
    | ((with_reducible apply Within.of); rfl)
    | ((with_reducible apply Within.cons); (apply Piece.inside_of; rfl))
    | ((with_reducible apply Within.cons); apply Or.inr)
    | with_reducible apply Within.nil
    | with_reducible apply List.mem_cons_self
    | with_reducible apply List.mem_cons_of_mem
    | (with_reducible apply Kept.each; intro _ _ _)
    | with_reducible apply Block.startPark_keeps
    | with_reducible apply Kept.ite
    | split

theorem Block.parkPair_keeps {qs : List Piece} {a₀ b : Block} {d : Nat} (inside : Within [.berths, .chans, .cnt] qs) (before : Kept qs a₀ b) :
    Kept qs a₀ (Block.parkPair b d) := Kept.step (Block.parkPair_kept _ _) inside before

theorem Block.drainDone_kept (b : Block) (d : Nat) : Kept [.berths, .chans, .ck, .cnt, .doms, .events, .fresh, .fws, .ins, .keys, .lanes, .lg, .mf, .pw, .qy, .regs, .running, .sides, .slots, .sv, .tl] b (Block.drainDone b d) := by
  unfold Block.drainDone
  repeat' first
    | with_reducible assumption
    | with_reducible apply Kept.refl
    | with_reducible apply Within.refl
    | ((with_reducible apply Within.of); rfl)
    | ((with_reducible apply Within.cons); (apply Piece.inside_of; rfl))
    | ((with_reducible apply Within.cons); apply Or.inr)
    | with_reducible apply Within.nil
    | with_reducible apply List.mem_cons_self
    | with_reducible apply List.mem_cons_of_mem
    | with_reducible apply Block.parkPair_keeps
    | with_reducible apply Block.groupNext_keeps
    | with_reducible apply Block.powerNext_keeps
    | with_reducible apply Block.checkOpen_keeps
    | with_reducible apply Block.domDone_keeps
    | with_reducible apply Block.modDom_keeps
    | with_reducible apply Block.domStops_keeps
    | with_reducible apply Kept.ite
    | split

theorem Block.drainDone_keeps {qs : List Piece} {a₀ b : Block} {d : Nat} (inside : Within [.berths, .chans, .ck, .cnt, .doms, .events, .fresh, .fws, .ins, .keys, .lanes, .lg, .mf, .pw, .qy, .regs, .running, .sides, .slots, .sv, .tl] qs) (before : Kept qs a₀ b) :
    Kept qs a₀ (Block.drainDone b d) := Kept.step (Block.drainDone_kept _ _) inside before

theorem Block.startDrain_kept (b : Block) (d : Nat) : Kept [.chs, .cnt, .dom d, .events, .fws, .ins, .lanes, .mf, .pw, .qy, .regs, .running, .sides, .slots, .tl] b (Block.startDrain b d) := by
  unfold Block.startDrain
  repeat' first
    | with_reducible assumption
    | with_reducible apply Kept.refl
    | with_reducible apply Within.refl
    | ((with_reducible apply Within.of); rfl)
    | ((with_reducible apply Within.cons); (apply Piece.inside_of; rfl))
    | ((with_reducible apply Within.cons); apply Or.inr)
    | with_reducible apply Within.nil
    | with_reducible apply List.mem_cons_self
    | with_reducible apply List.mem_cons_of_mem
    | (extract_lets +onlyGivenNames x
       first
       | (guard_hyp x : Block := _
          refine Kept.cut (ps := [.chs, .cnt, .dom d, .events, .fws, .ins, .lanes, .mf, .pw, .qy, .regs, .running, .sides, .slots, .tl]) (b := b) (x := x) ?_ fun hx => ?_
          on_goal 1 => subst x
          on_goal 2 => try clear_value x)
       | clear_value x
       | skip)
    | (simp only [Kept.by_fields]; with_reducible apply Kept.fields <;>
         first | with_reducible exact Or.inl rfl | (apply Or.inr; apply Piece.mem_of; rfl) | exact Or.inr (by simp; done) | (refine Or.inr ⟨?_, ?_⟩ <;> first | (apply Or.inl; apply Piece.mem_of; rfl) | exact Or.inl (by simp; done) | with_reducible exact Or.inr rfl | with_reducible exact Or.inr ⟨rfl, rfl, rfl, rfl⟩ | with_reducible exact Or.inr ⟨rfl, rfl, rfl, rfl, rfl⟩ | (refine ⟨?_, ?_⟩ <;> first | (apply Or.inl; apply Piece.mem_of; rfl) | exact Or.inl (by simp; done) | with_reducible exact Or.inr rfl)) | skip)
    | (with_reducible apply Kept.each; intro _ _ _)
    | (with_reducible apply Kept.foldl; intro _ _ _)
    | with_reducible apply Block.modDom_keeps
    | with_reducible apply Block.checkOpen_keeps
    | with_reducible apply Block.dropLaneFull_keeps
    | with_reducible apply Block.disableLane_keeps
    | with_reducible apply Block.resizeSide_keeps
    | with_reducible apply Block.closeForReload_keeps
    | with_reducible apply Block.charterBerthLost_keeps
    | with_reducible apply Kept.ite
    | split

theorem Block.startDrain_keeps {qs : List Piece} {a₀ b : Block} {d : Nat} (inside : Within [.chs, .cnt, .dom d, .events, .fws, .ins, .lanes, .mf, .pw, .qy, .regs, .running, .sides, .slots, .tl] qs) (before : Kept qs a₀ b) :
    Kept qs a₀ (Block.startDrain b d) := Kept.step (Block.startDrain_kept _ _) inside before

theorem Block.powerDomain_kept (b : Block) (m : ManRef) (d : Nat) (action : Nat) : Kept [.chs, .cnt, .dom d, .events, .fws, .ins, .lanes, .mf, .pw, .qy, .regs, .running, .sides, .slots, .tl] b (Block.powerDomain b m d action) := by
  unfold Block.powerDomain
  repeat' first
    | with_reducible assumption
    | with_reducible apply Kept.refl
    | with_reducible apply Within.refl
    | ((with_reducible apply Within.of); rfl)
    | ((with_reducible apply Within.cons); (apply Piece.inside_of; rfl))
    | ((with_reducible apply Within.cons); apply Or.inr)
    | with_reducible apply Within.nil
    | with_reducible apply List.mem_cons_self
    | with_reducible apply List.mem_cons_of_mem
    | (extract_lets +onlyGivenNames x
       first
       | (guard_hyp x : Block := _
          refine Kept.cut (ps := [.chs, .cnt, .dom d, .events, .fws, .ins, .lanes, .mf, .pw, .qy, .regs, .running, .sides, .slots, .tl]) (b := b) (x := x) ?_ fun hx => ?_
          on_goal 1 => subst x
          on_goal 2 => try clear_value x)
       | (have _t : _ → Block := x; clear _t; subst x; beta_reduce)
       | (have _t : _ → _ := x; clear _t; subst x; beta_reduce)
       | clear_value x
       | skip)
    | with_reducible apply Block.finish_keeps
    | with_reducible apply Block.modDom_keeps
    | with_reducible apply Block.powerUp_keeps
    | with_reducible apply Block.startDrain_keeps
    | with_reducible apply Kept.ite
    | split

theorem Block.powerDomain_keeps {qs : List Piece} {a₀ b : Block} {m : ManRef} {d : Nat} {action : Nat} (inside : Within [.chs, .cnt, .dom d, .events, .fws, .ins, .lanes, .mf, .pw, .qy, .regs, .running, .sides, .slots, .tl] qs) (before : Kept qs a₀ b) :
    Kept qs a₀ (Block.powerDomain b m d action) := Kept.step (Block.powerDomain_kept _ _ _ _) inside before

theorem Block.startDeparture_kept (b : Block) (survey : Bool) (w : Option ManRef) : Kept [.chans, .chs, .ck, .doms, .ins, .lanes, .mf, .prot, .pw, .running, .sides, .slots, .stk, .sv, .tl] b (Block.startDeparture b survey w) := by
  unfold Block.startDeparture
  repeat' first
    | with_reducible assumption
    | with_reducible apply Kept.refl
    | with_reducible apply Within.refl
    | ((with_reducible apply Within.of); rfl)
    | ((with_reducible apply Within.cons); (apply Piece.inside_of; rfl))
    | ((with_reducible apply Within.cons); apply Or.inr)
    | with_reducible apply Within.nil
    | with_reducible apply List.mem_cons_self
    | with_reducible apply List.mem_cons_of_mem
    | (extract_lets +onlyGivenNames x
       first
       | (guard_hyp x : Block := _
          refine Kept.cut (ps := [.chans, .chs, .ck, .doms, .ins, .lanes, .mf, .prot, .pw, .running, .sides, .slots, .stk, .sv, .tl]) (b := b) (x := x) ?_ fun hx => ?_
          on_goal 1 => subst x
          on_goal 2 => try clear_value x)
       | (guard_hyp x : Power := _; subst x)
       | (guard_hyp x : Clocks := _; subst x)
       | (guard_hyp x : Manifests := _; subst x)
       | clear_value x
       | skip)
    | (simp only [Kept.by_fields]; with_reducible apply Kept.fields <;>
         first | with_reducible exact Or.inl rfl | (apply Or.inr; apply Piece.mem_of; rfl) | exact Or.inr (by simp; done) | (refine Or.inr ⟨?_, ?_⟩ <;> first | (apply Or.inl; apply Piece.mem_of; rfl) | exact Or.inl (by simp; done) | with_reducible exact Or.inr rfl | with_reducible exact Or.inr ⟨rfl, rfl, rfl, rfl⟩ | with_reducible exact Or.inr ⟨rfl, rfl, rfl, rfl, rfl⟩ | (refine ⟨?_, ?_⟩ <;> first | (apply Or.inl; apply Piece.mem_of; rfl) | exact Or.inl (by simp; done) | with_reducible exact Or.inr rfl)) | skip)
    | with_reducible apply Block.endRunning_keeps
    | with_reducible apply Block.endScrub_keeps
    | with_reducible apply Block.dropWaiters_keeps
    | with_reducible apply Kept.ite
    | split

theorem Block.startDeparture_keeps {qs : List Piece} {a₀ b : Block} {survey : Bool} {w : Option ManRef} (inside : Within [.chans, .chs, .ck, .doms, .ins, .lanes, .mf, .prot, .pw, .running, .sides, .slots, .stk, .sv, .tl] qs) (before : Kept qs a₀ b) :
    Kept qs a₀ (Block.startDeparture b survey w) := Kept.step (Block.startDeparture_kept _ _ _) inside before

theorem Block.powerRequest_kept (b : Block) : Kept [.chans, .chs, .ck, .doms, .ins, .lanes, .mf, .prot, .pw, .running, .sides, .slots, .stk, .sv, .tl] b (Block.powerRequest b) := by
  unfold Block.powerRequest
  repeat' first
    | with_reducible assumption
    | with_reducible apply Kept.refl
    | with_reducible apply Within.refl
    | ((with_reducible apply Within.of); rfl)
    | ((with_reducible apply Within.cons); (apply Piece.inside_of; rfl))
    | ((with_reducible apply Within.cons); apply Or.inr)
    | with_reducible apply Within.nil
    | with_reducible apply List.mem_cons_self
    | with_reducible apply List.mem_cons_of_mem
    | (extract_lets +onlyGivenNames x
       first
       | (guard_hyp x : Block := _
          refine Kept.cut (ps := [.chans, .chs, .ck, .doms, .ins, .lanes, .mf, .prot, .pw, .running, .sides, .slots, .stk, .sv, .tl]) (b := b) (x := x) ?_ fun hx => ?_
          on_goal 1 => subst x
          on_goal 2 => try clear_value x)
       | (guard_hyp x : Power := _; subst x)
       | clear_value x
       | skip)
    | (simp only [Kept.by_fields]; with_reducible apply Kept.fields <;>
         first | with_reducible exact Or.inl rfl | (apply Or.inr; apply Piece.mem_of; rfl) | exact Or.inr (by simp; done) | (refine Or.inr ⟨?_, ?_⟩ <;> first | (apply Or.inl; apply Piece.mem_of; rfl) | exact Or.inl (by simp; done) | with_reducible exact Or.inr rfl | with_reducible exact Or.inr ⟨rfl, rfl, rfl, rfl⟩ | with_reducible exact Or.inr ⟨rfl, rfl, rfl, rfl, rfl⟩ | (refine ⟨?_, ?_⟩ <;> first | (apply Or.inl; apply Piece.mem_of; rfl) | exact Or.inl (by simp; done) | with_reducible exact Or.inr rfl)) | skip)
    | with_reducible apply Block.startDeparture_keeps
    | with_reducible apply Kept.ite
    | split

theorem Block.powerRequest_keeps {qs : List Piece} {a₀ b : Block} (inside : Within [.chans, .chs, .ck, .doms, .ins, .lanes, .mf, .prot, .pw, .running, .sides, .slots, .stk, .sv, .tl] qs) (before : Kept qs a₀ b) :
    Kept qs a₀ (Block.powerRequest b) := Kept.step (Block.powerRequest_kept _) inside before

theorem Block.quiesceDone_kept (b : Block) : Kept [.berths, .chans, .chs, .cnt, .doms, .events, .fws, .ins, .lanes, .pw, .qy, .regs, .sides, .sv, .tl] b (Block.quiesceDone b) := by
  unfold Block.quiesceDone
  repeat' first
    | with_reducible assumption
    | with_reducible apply Kept.refl
    | with_reducible apply Within.refl
    | ((with_reducible apply Within.of); rfl)
    | ((with_reducible apply Within.cons); (apply Piece.inside_of; rfl))
    | ((with_reducible apply Within.cons); apply Or.inr)
    | with_reducible apply Within.nil
    | with_reducible apply List.mem_cons_self
    | with_reducible apply List.mem_cons_of_mem
    | (extract_lets +onlyGivenNames x
       first
       | (guard_hyp x : Block := _
          refine Kept.cut (ps := [.berths, .chans, .chs, .cnt, .doms, .events, .fws, .ins, .lanes, .pw, .qy, .regs, .sides, .sv, .tl]) (b := b) (x := x) ?_ fun hx => ?_
          on_goal 1 => subst x
          on_goal 2 => try clear_value x)
       | (guard_hyp x : Power := _; subst x)
       | (guard_hyp x : Quay := _; subst x)
       | clear_value x
       | skip)
    | (simp only [Kept.by_fields]; with_reducible apply Kept.fields <;>
         first | with_reducible exact Or.inl rfl | (apply Or.inr; apply Piece.mem_of; rfl) | exact Or.inr (by simp; done) | (refine Or.inr ⟨?_, ?_⟩ <;> first | (apply Or.inl; apply Piece.mem_of; rfl) | exact Or.inl (by simp; done) | with_reducible exact Or.inr rfl | with_reducible exact Or.inr ⟨rfl, rfl, rfl, rfl⟩ | with_reducible exact Or.inr ⟨rfl, rfl, rfl, rfl, rfl⟩ | (refine ⟨?_, ?_⟩ <;> first | (apply Or.inl; apply Piece.mem_of; rfl) | exact Or.inl (by simp; done) | with_reducible exact Or.inr rfl)) | skip)
    | (with_reducible apply Kept.each; intro _ _ _)
    | with_reducible apply Block.closeAllCharters_keeps
    | with_reducible apply Block.dropLinks_keeps
    | with_reducible apply Block.modDom_keeps
    | with_reducible apply Block.staggerStart_keeps
    | with_reducible apply Block.startPark_keeps
    | with_reducible apply Kept.ite
    | split

theorem Block.quiesceDone_keeps {qs : List Piece} {a₀ b : Block} (inside : Within [.berths, .chans, .chs, .cnt, .doms, .events, .fws, .ins, .lanes, .pw, .qy, .regs, .sides, .sv, .tl] qs) (before : Kept qs a₀ b) :
    Kept qs a₀ (Block.quiesceDone b) := Kept.step (Block.quiesceDone_kept _) inside before

theorem Block.groupTested_kept (b : Block) (f : SurveyFindings) : Kept [.berths, .chans, .chs, .cnt, .cols, .doms, .events, .fresh, .fws, .ins, .keys, .lanes, .lg, .mf, .pw, .qy, .regs, .sides, .stk, .sv, .tl] b (Block.groupTested b f) := by
  unfold Block.groupTested
  repeat' first
    | with_reducible assumption
    | with_reducible apply Kept.refl
    | with_reducible apply Within.refl
    | ((with_reducible apply Within.of); rfl)
    | ((with_reducible apply Within.cons); (apply Piece.inside_of; rfl))
    | ((with_reducible apply Within.cons); apply Or.inr)
    | with_reducible apply Within.nil
    | with_reducible apply List.mem_cons_self
    | with_reducible apply List.mem_cons_of_mem
    | (extract_lets +onlyGivenNames x
       first
       | (guard_hyp x : Block := _
          refine Kept.cut (ps := [.berths, .chans, .chs, .cnt, .cols, .doms, .events, .fresh, .fws, .ins, .keys, .lanes, .lg, .mf, .pw, .qy, .regs, .sides, .stk, .sv, .tl]) (b := b) (x := x) ?_ fun hx => ?_
          on_goal 1 => subst x
          on_goal 2 => try clear_value x)
       | clear_value x
       | skip)
    | (simp only [Kept.by_fields]; with_reducible apply Kept.fields <;>
         first | with_reducible exact Or.inl rfl | (apply Or.inr; apply Piece.mem_of; rfl) | exact Or.inr (by simp; done) | (refine Or.inr ⟨?_, ?_⟩ <;> first | (apply Or.inl; apply Piece.mem_of; rfl) | exact Or.inl (by simp; done) | with_reducible exact Or.inr rfl | with_reducible exact Or.inr ⟨rfl, rfl, rfl, rfl⟩ | with_reducible exact Or.inr ⟨rfl, rfl, rfl, rfl, rfl⟩ | (refine ⟨?_, ?_⟩ <;> first | (apply Or.inl; apply Piece.mem_of; rfl) | exact Or.inl (by simp; done) | with_reducible exact Or.inr rfl)) | skip)
    | (with_reducible apply Kept.each; intro _ _ _)
    | with_reducible apply Block.passDomain_keeps
    | with_reducible apply Block.applyFindings_keeps
    | with_reducible apply Block.groupNext_keeps
    | with_reducible apply Block.drainFor_keeps
    | with_reducible apply Kept.ite
    | split

theorem Block.groupTested_keeps {qs : List Piece} {a₀ b : Block} {f : SurveyFindings} (inside : Within [.berths, .chans, .chs, .cnt, .cols, .doms, .events, .fresh, .fws, .ins, .keys, .lanes, .lg, .mf, .pw, .qy, .regs, .sides, .stk, .sv, .tl] qs) (before : Kept qs a₀ b) :
    Kept qs a₀ (Block.groupTested b f) := Kept.step (Block.groupTested_kept _ _) inside before

theorem Block.surveyWithout_kept (b : Block) (f : SurveyFindings) : Kept [.berths, .chans, .chs, .cnt, .cols, .doms, .events, .fresh, .fws, .ins, .keys, .lanes, .lg, .mf, .pw, .qy, .regs, .sides, .stk, .sv, .tl] b (Block.surveyWithout b f) := by
  unfold Block.surveyWithout
  repeat' first
    | with_reducible assumption
    | with_reducible apply Kept.refl
    | with_reducible apply Within.refl
    | ((with_reducible apply Within.of); rfl)
    | ((with_reducible apply Within.cons); (apply Piece.inside_of; rfl))
    | ((with_reducible apply Within.cons); apply Or.inr)
    | with_reducible apply Within.nil
    | with_reducible apply List.mem_cons_self
    | with_reducible apply List.mem_cons_of_mem
    | (extract_lets +onlyGivenNames x
       first
       | (guard_hyp x : Block := _
          refine Kept.cut (ps := [.berths, .chans, .chs, .cnt, .cols, .doms, .events, .fresh, .fws, .ins, .keys, .lanes, .lg, .mf, .pw, .qy, .regs, .sides, .stk, .sv, .tl]) (b := b) (x := x) ?_ fun hx => ?_
          on_goal 1 => subst x
          on_goal 2 => try clear_value x)
       | clear_value x
       | skip)
    | (simp only [Kept.by_fields]; with_reducible apply Kept.fields <;>
         first | with_reducible exact Or.inl rfl | (apply Or.inr; apply Piece.mem_of; rfl) | exact Or.inr (by simp; done) | (refine Or.inr ⟨?_, ?_⟩ <;> first | (apply Or.inl; apply Piece.mem_of; rfl) | exact Or.inl (by simp; done) | with_reducible exact Or.inr rfl | with_reducible exact Or.inr ⟨rfl, rfl, rfl, rfl⟩ | with_reducible exact Or.inr ⟨rfl, rfl, rfl, rfl, rfl⟩ | (refine ⟨?_, ?_⟩ <;> first | (apply Or.inl; apply Piece.mem_of; rfl) | exact Or.inl (by simp; done) | with_reducible exact Or.inr rfl)) | skip)
    | with_reducible apply Block.groupsEnd_keeps
    | with_reducible apply Block.applyFindings_keeps
    | with_reducible apply Kept.ite
    | split

theorem Block.surveyWithout_keeps {qs : List Piece} {a₀ b : Block} {f : SurveyFindings} (inside : Within [.berths, .chans, .chs, .cnt, .cols, .doms, .events, .fresh, .fws, .ins, .keys, .lanes, .lg, .mf, .pw, .qy, .regs, .sides, .stk, .sv, .tl] qs) (before : Kept qs a₀ b) :
    Kept qs a₀ (Block.surveyWithout b f) := Kept.step (Block.surveyWithout_kept _ _) inside before

theorem Block.depSurveyDone_kept (b : Block) (f : SurveyFindings) : Kept [.berths, .chans, .chs, .cnt, .cols, .doms, .events, .fresh, .fws, .ins, .keys, .lanes, .lg, .mf, .pw, .qy, .regs, .sides, .stk, .sv, .tl] b (Block.depSurveyDone b f) := by
  unfold Block.depSurveyDone
  repeat' first
    | with_reducible assumption
    | with_reducible apply Kept.refl
    | with_reducible apply Within.refl
    | ((with_reducible apply Within.of); rfl)
    | ((with_reducible apply Within.cons); (apply Piece.inside_of; rfl))
    | ((with_reducible apply Within.cons); apply Or.inr)
    | with_reducible apply Within.nil
    | with_reducible apply List.mem_cons_self
    | with_reducible apply List.mem_cons_of_mem
    | (extract_lets +onlyGivenNames x
       first
       | (guard_hyp x : Block := _
          refine Kept.cut (ps := [.berths, .chans, .chs, .cnt, .cols, .doms, .events, .fresh, .fws, .ins, .keys, .lanes, .lg, .mf, .pw, .qy, .regs, .sides, .stk, .sv, .tl]) (b := b) (x := x) ?_ fun hx => ?_
          on_goal 1 => subst x
          on_goal 2 => try clear_value x)
       | (guard_hyp x : Power := _; subst x)
       | clear_value x
       | skip)
    | (simp only [Kept.by_fields]; with_reducible apply Kept.fields <;>
         first | with_reducible exact Or.inl rfl | (apply Or.inr; apply Piece.mem_of; rfl) | exact Or.inr (by simp; done) | (refine Or.inr ⟨?_, ?_⟩ <;> first | (apply Or.inl; apply Piece.mem_of; rfl) | exact Or.inl (by simp; done) | with_reducible exact Or.inr rfl | with_reducible exact Or.inr ⟨rfl, rfl, rfl, rfl⟩ | with_reducible exact Or.inr ⟨rfl, rfl, rfl, rfl, rfl⟩ | (refine ⟨?_, ?_⟩ <;> first | (apply Or.inl; apply Piece.mem_of; rfl) | exact Or.inl (by simp; done) | with_reducible exact Or.inr rfl)) | skip)
    | (with_reducible apply Kept.each; intro _ _ _)
    | with_reducible apply Block.startPark_keeps
    | with_reducible apply Block.parkChan_keeps
    | with_reducible apply Block.modDom_keeps
    | with_reducible apply Block.chartBegin_keeps
    | with_reducible apply Block.modBerth_keeps
    | with_reducible apply Block.groupTested_keeps
    | with_reducible apply Block.surveyWithout_keeps
    | with_reducible apply Kept.ite
    | split

theorem Block.depSurveyDone_keeps {qs : List Piece} {a₀ b : Block} {f : SurveyFindings} (inside : Within [.berths, .chans, .chs, .cnt, .cols, .doms, .events, .fresh, .fws, .ins, .keys, .lanes, .lg, .mf, .pw, .qy, .regs, .sides, .stk, .sv, .tl] qs) (before : Kept qs a₀ b) :
    Kept qs a₀ (Block.depSurveyDone b f) := Kept.step (Block.depSurveyDone_kept _ _) inside before

theorem Block.chartWritten_kept (b : Block) : Kept [.doms, .lg, .pw] b (Block.chartWritten b) := by
  unfold Block.chartWritten
  repeat' first
    | with_reducible assumption
    | with_reducible apply Kept.refl
    | with_reducible apply Within.refl
    | ((with_reducible apply Within.of); rfl)
    | ((with_reducible apply Within.cons); (apply Piece.inside_of; rfl))
    | ((with_reducible apply Within.cons); apply Or.inr)
    | with_reducible apply Within.nil
    | with_reducible apply List.mem_cons_self
    | with_reducible apply List.mem_cons_of_mem
    | (extract_lets +onlyGivenNames x
       first
       | (guard_hyp x : Block := _
          refine Kept.cut (ps := [.doms, .lg, .pw]) (b := b) (x := x) ?_ fun hx => ?_
          on_goal 1 => subst x
          on_goal 2 => try clear_value x)
       | (guard_hyp x : Power := _; subst x)
       | clear_value x
       | skip)
    | (simp only [Kept.by_fields]; with_reducible apply Kept.fields <;>
         first | with_reducible exact Or.inl rfl | (apply Or.inr; apply Piece.mem_of; rfl) | exact Or.inr (by simp; done) | (refine Or.inr ⟨?_, ?_⟩ <;> first | (apply Or.inl; apply Piece.mem_of; rfl) | exact Or.inl (by simp; done) | with_reducible exact Or.inr rfl | with_reducible exact Or.inr ⟨rfl, rfl, rfl, rfl⟩ | with_reducible exact Or.inr ⟨rfl, rfl, rfl, rfl, rfl⟩ | (refine ⟨?_, ?_⟩ <;> first | (apply Or.inl; apply Piece.mem_of; rfl) | exact Or.inl (by simp; done) | with_reducible exact Or.inr rfl)) | skip)
    | (with_reducible apply Kept.each; intro _ _ _)
    | with_reducible apply Block.chartEnd_keeps
    | with_reducible apply Block.modDom_keeps
    | with_reducible apply Kept.ite
    | split

theorem Block.chartWritten_keeps {qs : List Piece} {a₀ b : Block} (inside : Within [.doms, .lg, .pw] qs) (before : Kept qs a₀ b) :
    Kept qs a₀ (Block.chartWritten b) := Kept.step (Block.chartWritten_kept _) inside before

theorem Block.departed_kept (b : Block) : Kept [.berths, .chans, .ck, .cnt, .doms, .events, .fws, .ins, .lanes, .mf, .pw, .qy, .regs, .running, .sides, .slots, .tl] b (Block.departed b) := by
  unfold Block.departed
  repeat' first
    | with_reducible assumption
    | with_reducible apply Kept.refl
    | with_reducible apply Within.refl
    | ((with_reducible apply Within.of); rfl)
    | ((with_reducible apply Within.cons); (apply Piece.inside_of; rfl))
    | ((with_reducible apply Within.cons); apply Or.inr)
    | with_reducible apply Within.nil
    | with_reducible apply List.mem_cons_self
    | with_reducible apply List.mem_cons_of_mem
    | (extract_lets +onlyGivenNames x
       first
       | (guard_hyp x : Block := _
          refine Kept.cut (ps := [.berths, .chans, .ck, .cnt, .doms, .events, .fws, .ins, .lanes, .mf, .pw, .qy, .regs, .running, .sides, .slots, .tl]) (b := b) (x := x) ?_ fun hx => ?_
          on_goal 1 => subst x
          on_goal 2 => try clear_value x)
       | (guard_hyp x : Power := _; subst x)
       | clear_value x
       | skip)
    | (simp only [Kept.by_fields]; with_reducible apply Kept.fields <;>
         first | with_reducible exact Or.inl rfl | (apply Or.inr; apply Piece.mem_of; rfl) | exact Or.inr (by simp; done) | (refine Or.inr ⟨?_, ?_⟩ <;> first | (apply Or.inl; apply Piece.mem_of; rfl) | exact Or.inl (by simp; done) | with_reducible exact Or.inr rfl | with_reducible exact Or.inr ⟨rfl, rfl, rfl, rfl⟩ | with_reducible exact Or.inr ⟨rfl, rfl, rfl, rfl, rfl⟩ | (refine ⟨?_, ?_⟩ <;> first | (apply Or.inl; apply Piece.mem_of; rfl) | exact Or.inl (by simp; done) | with_reducible exact Or.inr rfl)) | skip)
    | (with_reducible apply Kept.each; intro _ _ _)
    | with_reducible apply Block.modDom_keeps
    | with_reducible apply Block.domStops_keeps
    | with_reducible apply Block.orReg_keeps
    | with_reducible apply Block.finish_keeps
    | with_reducible apply Kept.ite
    | split

theorem Block.departed_keeps {qs : List Piece} {a₀ b : Block} (inside : Within [.berths, .chans, .ck, .cnt, .doms, .events, .fws, .ins, .lanes, .mf, .pw, .qy, .regs, .running, .sides, .slots, .tl] qs) (before : Kept qs a₀ b) :
    Kept qs a₀ (Block.departed b) := Kept.step (Block.departed_kept _) inside before

theorem Block.decideContents_kept (b : Block) : Kept [.berths] b (Block.decideContents b) := by
  unfold Block.decideContents
  repeat' first
    | with_reducible assumption
    | with_reducible apply Kept.refl
    | with_reducible apply Within.refl
    | ((with_reducible apply Within.of); rfl)
    | ((with_reducible apply Within.cons); (apply Piece.inside_of; rfl))
    | ((with_reducible apply Within.cons); apply Or.inr)
    | with_reducible apply Within.nil
    | with_reducible apply List.mem_cons_self
    | with_reducible apply List.mem_cons_of_mem
    | (with_reducible apply Kept.each; intro _ _ _)
    | with_reducible apply Block.modBerth_keeps
    | with_reducible apply Kept.ite
    | split

theorem Block.decideContents_keeps {qs : List Piece} {a₀ b : Block} (inside : Within [.berths] qs) (before : Kept qs a₀ b) :
    Kept qs a₀ (Block.decideContents b) := Kept.step (Block.decideContents_kept _) inside before

theorem Block.surveyChart_kept (b : Block) : Kept [.events, .lg, .reg Off.lgAlarm, .reg Off.pwCtrl] b (Block.surveyChart b) := by
  unfold Block.surveyChart
  repeat' first
    | with_reducible assumption
    | with_reducible apply Kept.refl
    | with_reducible apply Within.refl
    | ((with_reducible apply Within.of); rfl)
    | ((with_reducible apply Within.cons); (apply Piece.inside_of; rfl))
    | ((with_reducible apply Within.cons); apply Or.inr)
    | with_reducible apply Within.nil
    | with_reducible apply List.mem_cons_self
    | with_reducible apply List.mem_cons_of_mem
    | with_reducible apply Block.chartBegin_keeps
    | with_reducible apply Block.chartEnd_keeps
    | with_reducible apply Block.clrReg_keeps
    | with_reducible apply Kept.ite
    | split

theorem Block.surveyChart_keeps {qs : List Piece} {a₀ b : Block} (inside : Within [.events, .lg, .reg Off.lgAlarm, .reg Off.pwCtrl] qs) (before : Kept qs a₀ b) :
    Kept qs a₀ (Block.surveyChart b) := Kept.step (Block.surveyChart_kept _) inside before

theorem Block.enterHarbour_kept (b : Block) (calPass : BitVec 64) (clkLost : BitVec 64) : Kept [.berths, .chans, .chs, .cnt, .cols, .events, .fws, .ins, .lanes, .mf, .pw, .qy, .regs, .sides, .stk, .tl] b (Block.enterHarbour b calPass clkLost) := by
  unfold Block.enterHarbour
  repeat' first
    | with_reducible assumption
    | with_reducible apply Kept.refl
    | with_reducible apply Within.refl
    | ((with_reducible apply Within.of); rfl)
    | ((with_reducible apply Within.cons); (apply Piece.inside_of; rfl))
    | ((with_reducible apply Within.cons); apply Or.inr)
    | with_reducible apply Within.nil
    | with_reducible apply List.mem_cons_self
    | with_reducible apply List.mem_cons_of_mem
    | (extract_lets +onlyGivenNames x
       first
       | (guard_hyp x : Block := _
          refine Kept.cut (ps := [.berths, .chans, .chs, .cnt, .cols, .events, .fws, .ins, .lanes, .mf, .pw, .qy, .regs, .sides, .stk, .tl]) (b := b) (x := x) ?_ fun hx => ?_
          on_goal 1 => subst x
          on_goal 2 => try clear_value x)
       | (guard_hyp x : Power := _; subst x)
       | clear_value x
       | skip)
    | (simp only [Kept.by_fields]; with_reducible apply Kept.fields <;>
         first | with_reducible exact Or.inl rfl | (apply Or.inr; apply Piece.mem_of; rfl) | exact Or.inr (by simp; done) | (refine Or.inr ⟨?_, ?_⟩ <;> first | (apply Or.inl; apply Piece.mem_of; rfl) | exact Or.inl (by simp; done) | with_reducible exact Or.inr rfl | with_reducible exact Or.inr ⟨rfl, rfl, rfl, rfl⟩ | with_reducible exact Or.inr ⟨rfl, rfl, rfl, rfl, rfl⟩ | (refine ⟨?_, ?_⟩ <;> first | (apply Or.inl; apply Piece.mem_of; rfl) | exact Or.inl (by simp; done) | with_reducible exact Or.inr rfl)) | skip)
    | with_reducible apply Block.bringUpAll_keeps
    | with_reducible apply Kept.ite
    | split

theorem Block.enterHarbour_keeps {qs : List Piece} {a₀ b : Block} {calPass : BitVec 64} {clkLost : BitVec 64} (inside : Within [.berths, .chans, .chs, .cnt, .cols, .events, .fws, .ins, .lanes, .mf, .pw, .qy, .regs, .sides, .stk, .tl] qs) (before : Kept qs a₀ b) :
    Kept qs a₀ (Block.enterHarbour b calPass clkLost) := Kept.step (Block.enterHarbour_kept _ _ _) inside before

theorem Block.arrive_kept (b : Block) : Kept [.chans, .chs, .ck, .cnt, .doms, .events, .fws, .ins, .lanes, .mf, .prot, .pw, .qy, .regs, .running, .sides, .slots, .stk, .sv, .tl] b (Block.arrive b) := by
  unfold Block.arrive
  repeat' first
    | with_reducible assumption
    | with_reducible apply Kept.refl
    | with_reducible apply Within.refl
    | ((with_reducible apply Within.of); rfl)
    | ((with_reducible apply Within.cons); (apply Piece.inside_of; rfl))
    | ((with_reducible apply Within.cons); apply Or.inr)
    | with_reducible apply Within.nil
    | with_reducible apply List.mem_cons_self
    | with_reducible apply List.mem_cons_of_mem
    | (extract_lets +onlyGivenNames x
       first
       | (guard_hyp x : Block := _
          refine Kept.cut (ps := [.chans, .chs, .ck, .cnt, .doms, .events, .fws, .ins, .lanes, .mf, .prot, .pw, .qy, .regs, .running, .sides, .slots, .stk, .sv, .tl]) (b := b) (x := x) ?_ fun hx => ?_
          on_goal 1 => subst x
          on_goal 2 => try clear_value x)
       | (guard_hyp x : Power := _; subst x)
       | clear_value x
       | skip)
    | (simp only [Kept.by_fields]; with_reducible apply Kept.fields <;>
         first | with_reducible exact Or.inl rfl | (apply Or.inr; apply Piece.mem_of; rfl) | exact Or.inr (by simp; done) | (refine Or.inr ⟨?_, ?_⟩ <;> first | (apply Or.inl; apply Piece.mem_of; rfl) | exact Or.inl (by simp; done) | with_reducible exact Or.inr rfl | with_reducible exact Or.inr ⟨rfl, rfl, rfl, rfl⟩ | with_reducible exact Or.inr ⟨rfl, rfl, rfl, rfl, rfl⟩ | (refine ⟨?_, ?_⟩ <;> first | (apply Or.inl; apply Piece.mem_of; rfl) | exact Or.inl (by simp; done) | with_reducible exact Or.inr rfl)) | skip)
    | with_reducible apply Block.startDeparture_keeps
    | with_reducible apply Block.checkOpen_keeps
    | with_reducible apply Block.linkUp_keeps
    | with_reducible apply Kept.ite
    | split

theorem Block.arrive_keeps {qs : List Piece} {a₀ b : Block} (inside : Within [.chans, .chs, .ck, .cnt, .doms, .events, .fws, .ins, .lanes, .mf, .prot, .pw, .qy, .regs, .running, .sides, .slots, .stk, .sv, .tl] qs) (before : Kept qs a₀ b) :
    Kept qs a₀ (Block.arrive b) := Kept.step (Block.arrive_kept _) inside before

theorem Block.surveyKind_kept (b : Block) (svOk : Bool) : Kept [.pw, .sv] b (Block.surveyKind b svOk) := by
  unfold Block.surveyKind
  repeat' first
    | with_reducible assumption
    | with_reducible apply Kept.refl
    | with_reducible apply Within.refl
    | ((with_reducible apply Within.of); rfl)
    | ((with_reducible apply Within.cons); (apply Piece.inside_of; rfl))
    | ((with_reducible apply Within.cons); apply Or.inr)
    | with_reducible apply Within.nil
    | with_reducible apply List.mem_cons_self
    | with_reducible apply List.mem_cons_of_mem
    | (extract_lets +onlyGivenNames x
       first
       | (guard_hyp x : Block := _
          refine Kept.cut (ps := [.pw, .sv]) (b := b) (x := x) ?_ fun hx => ?_
          on_goal 1 => subst x
          on_goal 2 => try clear_value x)
       | (guard_hyp x : Power := _; subst x)
       | clear_value x
       | skip)
    | (simp only [Kept.by_fields]; with_reducible apply Kept.fields <;>
         first | with_reducible exact Or.inl rfl | (apply Or.inr; apply Piece.mem_of; rfl) | exact Or.inr (by simp; done) | (refine Or.inr ⟨?_, ?_⟩ <;> first | (apply Or.inl; apply Piece.mem_of; rfl) | exact Or.inl (by simp; done) | with_reducible exact Or.inr rfl | with_reducible exact Or.inr ⟨rfl, rfl, rfl, rfl⟩ | with_reducible exact Or.inr ⟨rfl, rfl, rfl, rfl, rfl⟩ | (refine ⟨?_, ?_⟩ <;> first | (apply Or.inl; apply Piece.mem_of; rfl) | exact Or.inl (by simp; done) | with_reducible exact Or.inr rfl)) | skip)
    | with_reducible apply Kept.ite
    | split

theorem Block.surveyKind_keeps {qs : List Piece} {a₀ b : Block} {svOk : Bool} (inside : Within [.pw, .sv] qs) (before : Kept qs a₀ b) :
    Kept qs a₀ (Block.surveyKind b svOk) := Kept.step (Block.surveyKind_kept _ _) inside before

theorem Block.surveyOver_kept (b : Block) (f : SurveyFindings) : Kept [.berths, .chans, .chs, .ck, .cnt, .cols, .doms, .events, .fws, .ins, .lanes, .lg, .mf, .prot, .pw, .qy, .regs, .running, .sides, .slots, .stk, .sv, .tl] b (Block.surveyOver b f) := by
  unfold Block.surveyOver
  repeat' first
    | with_reducible assumption
    | with_reducible apply Kept.refl
    | with_reducible apply Within.refl
    | ((with_reducible apply Within.of); rfl)
    | ((with_reducible apply Within.cons); (apply Piece.inside_of; rfl))
    | ((with_reducible apply Within.cons); apply Or.inr)
    | with_reducible apply Within.nil
    | with_reducible apply List.mem_cons_self
    | with_reducible apply List.mem_cons_of_mem
    | (extract_lets +onlyGivenNames x
       first
       | (guard_hyp x : Block := _
          refine Kept.cut (ps := [.berths, .chans, .chs, .ck, .cnt, .cols, .doms, .events, .fws, .ins, .lanes, .lg, .mf, .prot, .pw, .qy, .regs, .running, .sides, .slots, .stk, .sv, .tl]) (b := b) (x := x) ?_ fun hx => ?_
          on_goal 1 => subst x
          on_goal 2 => try clear_value x)
       | clear_value x
       | skip)
    | (simp only [Kept.by_fields]; with_reducible apply Kept.fields <;>
         first | with_reducible exact Or.inl rfl | (apply Or.inr; apply Piece.mem_of; rfl) | exact Or.inr (by simp; done) | (refine Or.inr ⟨?_, ?_⟩ <;> first | (apply Or.inl; apply Piece.mem_of; rfl) | exact Or.inl (by simp; done) | with_reducible exact Or.inr rfl | with_reducible exact Or.inr ⟨rfl, rfl, rfl, rfl⟩ | with_reducible exact Or.inr ⟨rfl, rfl, rfl, rfl, rfl⟩ | (refine ⟨?_, ?_⟩ <;> first | (apply Or.inl; apply Piece.mem_of; rfl) | exact Or.inl (by simp; done) | with_reducible exact Or.inr rfl)) | skip)
    | with_reducible apply Block.arrive_keeps
    | with_reducible apply Block.enterHarbour_keeps
    | with_reducible apply Block.surveyChart_keeps
    | with_reducible apply Block.decideContents_keeps
    | with_reducible apply Kept.ite
    | split

theorem Block.surveyOver_keeps {qs : List Piece} {a₀ b : Block} {f : SurveyFindings} (inside : Within [.berths, .chans, .chs, .ck, .cnt, .cols, .doms, .events, .fws, .ins, .lanes, .lg, .mf, .prot, .pw, .qy, .regs, .running, .sides, .slots, .stk, .sv, .tl] qs) (before : Kept qs a₀ b) :
    Kept qs a₀ (Block.surveyOver b f) := Kept.step (Block.surveyOver_kept _ _) inside before

theorem Block.arrivalGroup_kept (b : Block) (f : SurveyFindings) : Kept [.berths, .chans, .chs, .cnt, .cols, .doms, .events, .fresh, .fws, .ins, .keys, .lanes, .lg, .mf, .pw, .qy, .regs, .sides, .stk, .sv, .tl] b (Block.arrivalGroup b f) := by
  unfold Block.arrivalGroup
  repeat' first
    | with_reducible assumption
    | with_reducible apply Kept.refl
    | with_reducible apply Within.refl
    | ((with_reducible apply Within.of); rfl)
    | ((with_reducible apply Within.cons); (apply Piece.inside_of; rfl))
    | ((with_reducible apply Within.cons); apply Or.inr)
    | with_reducible apply Within.nil
    | with_reducible apply List.mem_cons_self
    | with_reducible apply List.mem_cons_of_mem
    | (extract_lets +onlyGivenNames x
       first
       | (guard_hyp x : Block := _
          refine Kept.cut (ps := [.berths, .chans, .chs, .cnt, .cols, .doms, .events, .fresh, .fws, .ins, .keys, .lanes, .lg, .mf, .pw, .qy, .regs, .sides, .stk, .sv, .tl]) (b := b) (x := x) ?_ fun hx => ?_
          on_goal 1 => subst x
          on_goal 2 => try clear_value x)
       | (guard_hyp x : Power := _; subst x)
       | clear_value x
       | skip)
    | (simp only [Kept.by_fields]; with_reducible apply Kept.fields <;>
         first | with_reducible exact Or.inl rfl | (apply Or.inr; apply Piece.mem_of; rfl) | exact Or.inr (by simp; done) | (refine Or.inr ⟨?_, ?_⟩ <;> first | (apply Or.inl; apply Piece.mem_of; rfl) | exact Or.inl (by simp; done) | with_reducible exact Or.inr rfl | with_reducible exact Or.inr ⟨rfl, rfl, rfl, rfl⟩ | with_reducible exact Or.inr ⟨rfl, rfl, rfl, rfl, rfl⟩ | (refine ⟨?_, ?_⟩ <;> first | (apply Or.inl; apply Piece.mem_of; rfl) | exact Or.inl (by simp; done) | with_reducible exact Or.inr rfl)) | skip)
    | with_reducible apply Block.groupTested_keeps
    | with_reducible apply Block.powerNext_keeps
    | with_reducible apply Block.svCheck_keeps
    | with_reducible apply Block.surveyKind_keeps
    | with_reducible apply Kept.ite
    | split

theorem Block.arrivalGroup_keeps {qs : List Piece} {a₀ b : Block} {f : SurveyFindings} (inside : Within [.berths, .chans, .chs, .cnt, .cols, .doms, .events, .fresh, .fws, .ins, .keys, .lanes, .lg, .mf, .pw, .qy, .regs, .sides, .stk, .sv, .tl] qs) (before : Kept qs a₀ b) :
    Kept qs a₀ (Block.arrivalGroup b f) := Kept.step (Block.arrivalGroup_kept _ _) inside before

theorem Block.arrivalSurveyDone_kept (b : Block) (f : SurveyFindings) : Kept [.berths, .chans, .chs, .ck, .cnt, .cols, .doms, .events, .fresh, .fws, .ins, .keys, .lanes, .lg, .mf, .prot, .pw, .qy, .regs, .running, .sides, .slots, .stk, .sv, .tl] b (Block.arrivalSurveyDone b f) := by
  unfold Block.arrivalSurveyDone
  repeat' first
    | with_reducible assumption
    | with_reducible apply Kept.refl
    | with_reducible apply Within.refl
    | ((with_reducible apply Within.of); rfl)
    | ((with_reducible apply Within.cons); (apply Piece.inside_of; rfl))
    | ((with_reducible apply Within.cons); apply Or.inr)
    | with_reducible apply Within.nil
    | with_reducible apply List.mem_cons_self
    | with_reducible apply List.mem_cons_of_mem
    | (extract_lets +onlyGivenNames x
       first
       | (guard_hyp x : Block := _
          refine Kept.cut (ps := [.berths, .chans, .chs, .ck, .cnt, .cols, .doms, .events, .fresh, .fws, .ins, .keys, .lanes, .lg, .mf, .prot, .pw, .qy, .regs, .running, .sides, .slots, .stk, .sv, .tl]) (b := b) (x := x) ?_ fun hx => ?_
          on_goal 1 => subst x
          on_goal 2 => try clear_value x)
       | clear_value x
       | skip)
    | with_reducible apply Block.arrivalGroup_keeps
    | with_reducible apply Block.surveyOver_keeps
    | with_reducible apply Block.applyFindings_keeps
    | with_reducible apply Block.surveyKind_keeps
    | with_reducible apply Kept.ite
    | split

theorem Block.arrivalSurveyDone_keeps {qs : List Piece} {a₀ b : Block} {f : SurveyFindings} (inside : Within [.berths, .chans, .chs, .ck, .cnt, .cols, .doms, .events, .fresh, .fws, .ins, .keys, .lanes, .lg, .mf, .prot, .pw, .qy, .regs, .running, .sides, .slots, .stk, .sv, .tl] qs) (before : Kept qs a₀ b) :
    Kept qs a₀ (Block.arrivalSurveyDone b f) := Kept.step (Block.arrivalSurveyDone_kept _ _) inside before

theorem Block.freeze_kept (b : Block) : Kept [.chans, .chs, .ck, .cnt, .fresh, .ins, .lanes, .lg, .pw, .qy, .regs, .sides, .stk] b (Block.freeze b) := by
  unfold Block.freeze
  repeat' first
    | with_reducible assumption
    | with_reducible apply Kept.refl
    | with_reducible apply Within.refl
    | ((with_reducible apply Within.of); rfl)
    | ((with_reducible apply Within.cons); (apply Piece.inside_of; rfl))
    | ((with_reducible apply Within.cons); apply Or.inr)
    | with_reducible apply Within.nil
    | with_reducible apply List.mem_cons_self
    | with_reducible apply List.mem_cons_of_mem
    | (extract_lets +onlyGivenNames x
       first
       | (guard_hyp x : Block := _
          refine Kept.cut (ps := [.chans, .chs, .ck, .cnt, .fresh, .ins, .lanes, .lg, .pw, .qy, .regs, .sides, .stk]) (b := b) (x := x) ?_ fun hx => ?_
          on_goal 1 => subst x
          on_goal 2 => try clear_value x)
       | (guard_hyp x : Power := _; subst x)
       | (guard_hyp x : Clocks := _; subst x)
       | (guard_hyp x : Logbook := _; subst x)
       | clear_value x
       | skip)
    | (simp only [Kept.by_fields]; with_reducible apply Kept.fields <;>
         first | with_reducible exact Or.inl rfl | (apply Or.inr; apply Piece.mem_of; rfl) | exact Or.inr (by simp; done) | (refine Or.inr ⟨?_, ?_⟩ <;> first | (apply Or.inl; apply Piece.mem_of; rfl) | exact Or.inl (by simp; done) | with_reducible exact Or.inr rfl | with_reducible exact Or.inr ⟨rfl, rfl, rfl, rfl⟩ | with_reducible exact Or.inr ⟨rfl, rfl, rfl, rfl, rfl⟩ | (refine ⟨?_, ?_⟩ <;> first | (apply Or.inl; apply Piece.mem_of; rfl) | exact Or.inl (by simp; done) | with_reducible exact Or.inr rfl)) | skip)
    | with_reducible apply Block.dmanLow_keeps
    | with_reducible apply Block.segDown_keeps
    | with_reducible apply Block.abandonAll_keeps
    | with_reducible apply Block.draw_keeps
    | with_reducible apply Kept.ite
    | split

theorem Block.freeze_keeps {qs : List Piece} {a₀ b : Block} (inside : Within [.chans, .chs, .ck, .cnt, .fresh, .ins, .lanes, .lg, .pw, .qy, .regs, .sides, .stk] qs) (before : Kept qs a₀ b) :
    Kept qs a₀ (Block.freeze b) := Kept.step (Block.freeze_kept _) inside before

theorem Block.capture_kept (b : Block) (i : BitVec 16) : Kept [.frzOut] b (Block.capture b i) := by
  unfold Block.capture
  repeat' first
    | with_reducible assumption
    | with_reducible apply Kept.refl
    | with_reducible apply Within.refl
    | ((with_reducible apply Within.of); rfl)
    | ((with_reducible apply Within.cons); (apply Piece.inside_of; rfl))
    | ((with_reducible apply Within.cons); apply Or.inr)
    | with_reducible apply Within.nil
    | with_reducible apply List.mem_cons_self
    | with_reducible apply List.mem_cons_of_mem
    | (extract_lets +onlyGivenNames x
       first
       | (guard_hyp x : Block := _
          refine Kept.cut (ps := [.frzOut]) (b := b) (x := x) ?_ fun hx => ?_
          on_goal 1 => subst x
          on_goal 2 => try clear_value x)
       | (guard_hyp x : Power := _; subst x)
       | clear_value x
       | skip)
    | (simp only [Kept.by_fields]; with_reducible apply Kept.fields <;>
         first | with_reducible exact Or.inl rfl | (apply Or.inr; apply Piece.mem_of; rfl) | exact Or.inr (by simp; done) | (refine Or.inr ⟨?_, ?_⟩ <;> first | (apply Or.inl; apply Piece.mem_of; rfl) | exact Or.inl (by simp; done) | with_reducible exact Or.inr rfl | with_reducible exact Or.inr ⟨rfl, rfl, rfl, rfl⟩ | with_reducible exact Or.inr ⟨rfl, rfl, rfl, rfl, rfl⟩ | (refine ⟨?_, ?_⟩ <;> first | (apply Or.inl; apply Piece.mem_of; rfl) | exact Or.inl (by simp; done) | with_reducible exact Or.inr rfl)) | skip)
    | with_reducible apply Kept.ite
    | split

theorem Block.capture_keeps {qs : List Piece} {a₀ b : Block} {i : BitVec 16} (inside : Within [.frzOut] qs) (before : Kept qs a₀ b) :
    Kept qs a₀ (Block.capture b i) := Kept.step (Block.capture_kept _ _) inside before

theorem Block.scanEnter_kept (b : Block) (testMode : Bool) : Kept [.chans, .chs, .cnt, .events, .fws, .ins, .keys, .lanes, .lg, .qy, .regs, .sides, .stk, .sv, .tl] b (Block.scanEnter b testMode) := by
  unfold Block.scanEnter
  repeat' first
    | with_reducible assumption
    | with_reducible apply Kept.refl
    | with_reducible apply Within.refl
    | ((with_reducible apply Within.of); rfl)
    | ((with_reducible apply Within.cons); (apply Piece.inside_of; rfl))
    | ((with_reducible apply Within.cons); apply Or.inr)
    | with_reducible apply Within.nil
    | with_reducible apply List.mem_cons_self
    | with_reducible apply List.mem_cons_of_mem
    | (extract_lets +onlyGivenNames x
       first
       | (guard_hyp x : Block := _
          refine Kept.cut (ps := [.chans, .chs, .cnt, .events, .fws, .ins, .keys, .lanes, .lg, .qy, .regs, .sides, .stk, .sv, .tl]) (b := b) (x := x) ?_ fun hx => ?_
          on_goal 1 => subst x
          on_goal 2 => try clear_value x)
       | (guard_hyp x : Logbook := _; subst x)
       | clear_value x
       | skip)
    | (simp only [Kept.by_fields]; with_reducible apply Kept.fields <;>
         first | with_reducible exact Or.inl rfl | (apply Or.inr; apply Piece.mem_of; rfl) | exact Or.inr (by simp; done) | (refine Or.inr ⟨?_, ?_⟩ <;> first | (apply Or.inl; apply Piece.mem_of; rfl) | exact Or.inl (by simp; done) | with_reducible exact Or.inr rfl | with_reducible exact Or.inr ⟨rfl, rfl, rfl, rfl⟩ | with_reducible exact Or.inr ⟨rfl, rfl, rfl, rfl, rfl⟩ | (refine ⟨?_, ?_⟩ <;> first | (apply Or.inl; apply Piece.mem_of; rfl) | exact Or.inl (by simp; done) | with_reducible exact Or.inr rfl)) | skip)
    | with_reducible apply Block.dmanLow_keeps
    | with_reducible apply Block.dropLinks_keeps
    | with_reducible apply Block.abandonAll_keeps
    | with_reducible apply Kept.ite
    | split

theorem Block.scanEnter_keeps {qs : List Piece} {a₀ b : Block} {testMode : Bool} (inside : Within [.chans, .chs, .cnt, .events, .fws, .ins, .keys, .lanes, .lg, .qy, .regs, .sides, .stk, .sv, .tl] qs) (before : Kept qs a₀ b) :
    Kept qs a₀ (Block.scanEnter b testMode) := Kept.step (Block.scanEnter_kept _ _) inside before

theorem Block.admitRefused_kept (b : Block) (m : ManRef) (s : Short) : Kept [.ins, .running, .slots] b (Block.admitRefused b m s) := by
  unfold Block.admitRefused
  repeat' first
    | with_reducible assumption
    | with_reducible apply Kept.refl
    | with_reducible apply Within.refl
    | ((with_reducible apply Within.of); rfl)
    | ((with_reducible apply Within.cons); (apply Piece.inside_of; rfl))
    | ((with_reducible apply Within.cons); apply Or.inr)
    | with_reducible apply Within.nil
    | with_reducible apply List.mem_cons_self
    | with_reducible apply List.mem_cons_of_mem
    | with_reducible apply Block.finish_keeps

theorem Block.admitRefused_keeps {qs : List Piece} {a₀ b : Block} {m : ManRef} {s : Short} (inside : Within [.ins, .running, .slots] qs) (before : Kept qs a₀ b) :
    Kept qs a₀ (Block.admitRefused b m s) := Kept.step (Block.admitRefused_kept _ _ _) inside before

theorem Block.enroll_kept (b : Block) (m : ManRef) (d : CharterDesc) : Kept [.chans, .chs, .events, .fresh, .ins, .reg Off.lgAlarm, .running, .slots] b (Block.enroll b m d) := by
  unfold Block.enroll
  repeat' first
    | with_reducible assumption
    | with_reducible apply Kept.refl
    | with_reducible apply Within.refl
    | ((with_reducible apply Within.of); rfl)
    | ((with_reducible apply Within.cons); (apply Piece.inside_of; rfl))
    | ((with_reducible apply Within.cons); apply Or.inr)
    | with_reducible apply Within.nil
    | with_reducible apply List.mem_cons_self
    | with_reducible apply List.mem_cons_of_mem
    | (extract_lets +onlyGivenNames x
       first
       | (guard_hyp x : Block := _
          refine Kept.cut (ps := [.chans, .chs, .events, .fresh, .ins, .reg Off.lgAlarm, .running, .slots]) (b := b) (x := x) ?_ fun hx => ?_
          on_goal 1 => subst x
          on_goal 2 => try clear_value x)
       | clear_value x
       | skip)
    | (simp only [Kept.by_fields]; with_reducible apply Kept.fields <;>
         first | with_reducible exact Or.inl rfl | (apply Or.inr; apply Piece.mem_of; rfl) | exact Or.inr (by simp; done) | (refine Or.inr ⟨?_, ?_⟩ <;> first | (apply Or.inl; apply Piece.mem_of; rfl) | exact Or.inl (by simp; done) | with_reducible exact Or.inr rfl | with_reducible exact Or.inr ⟨rfl, rfl, rfl, rfl⟩ | with_reducible exact Or.inr ⟨rfl, rfl, rfl, rfl, rfl⟩ | (refine ⟨?_, ?_⟩ <;> first | (apply Or.inl; apply Piece.mem_of; rfl) | exact Or.inl (by simp; done) | with_reducible exact Or.inr rfl)) | skip)
    | with_reducible apply Block.draw_keeps
    | with_reducible apply Block.setCharter_keeps
    | with_reducible apply Block.startCharter_keeps
    | with_reducible apply Kept.ite
    | split

theorem Block.enroll_keeps {qs : List Piece} {a₀ b : Block} {m : ManRef} {d : CharterDesc} (inside : Within [.chans, .chs, .events, .fresh, .ins, .reg Off.lgAlarm, .running, .slots] qs) (before : Kept qs a₀ b) :
    Kept qs a₀ (Block.enroll b m d) := Kept.step (Block.enroll_kept _ _ _) inside before

theorem Block.charterOpen_kept (b : Block) (m : ManRef) (d : CharterDesc) : Kept [.chans, .chs, .events, .fresh, .ins, .reg Off.lgAlarm, .running, .slots] b (Block.charterOpen b m d) := by
  unfold Block.charterOpen
  repeat' first
    | with_reducible assumption
    | with_reducible apply Kept.refl
    | with_reducible apply Within.refl
    | ((with_reducible apply Within.of); rfl)
    | ((with_reducible apply Within.cons); (apply Piece.inside_of; rfl))
    | ((with_reducible apply Within.cons); apply Or.inr)
    | with_reducible apply Within.nil
    | with_reducible apply List.mem_cons_self
    | with_reducible apply List.mem_cons_of_mem
    | (extract_lets +onlyGivenNames x
       first
       | (guard_hyp x : Block := _
          refine Kept.cut (ps := [.chans, .chs, .events, .fresh, .ins, .reg Off.lgAlarm, .running, .slots]) (b := b) (x := x) ?_ fun hx => ?_
          on_goal 1 => subst x
          on_goal 2 => try clear_value x)
       | clear_value x
       | skip)
    | with_reducible apply Block.finish_keeps
    | with_reducible apply Block.admitRefused_keeps
    | with_reducible apply Block.draw_keeps
    | with_reducible apply Block.noteUse_keeps
    | with_reducible apply Block.enroll_keeps
    | with_reducible apply Kept.ite
    | split

theorem Block.charterOpen_keeps {qs : List Piece} {a₀ b : Block} {m : ManRef} {d : CharterDesc} (inside : Within [.chans, .chs, .events, .fresh, .ins, .reg Off.lgAlarm, .running, .slots] qs) (before : Kept qs a₀ b) :
    Kept qs a₀ (Block.charterOpen b m d) := Kept.step (Block.charterOpen_kept _ _ _) inside before

theorem Block.charterClose_kept (b : Block) (m : ManRef) (c : Nat) : Kept [.chs, .ins, .running, .slots] b (Block.charterClose b m c) := by
  unfold Block.charterClose
  repeat' first
    | with_reducible assumption
    | with_reducible apply Kept.refl
    | with_reducible apply Within.refl
    | ((with_reducible apply Within.of); rfl)
    | ((with_reducible apply Within.cons); (apply Piece.inside_of; rfl))
    | ((with_reducible apply Within.cons); apply Or.inr)
    | with_reducible apply Within.nil
    | with_reducible apply List.mem_cons_self
    | with_reducible apply List.mem_cons_of_mem
    | (extract_lets +onlyGivenNames x
       first
       | (guard_hyp x : Block := _
          refine Kept.cut (ps := [.chs, .ins, .running, .slots]) (b := b) (x := x) ?_ fun hx => ?_
          on_goal 1 => subst x
          on_goal 2 => try clear_value x)
       | clear_value x
       | skip)
    | (simp only [Kept.by_fields]; with_reducible apply Kept.fields <;>
         first | with_reducible exact Or.inl rfl | (apply Or.inr; apply Piece.mem_of; rfl) | exact Or.inr (by simp; done) | (refine Or.inr ⟨?_, ?_⟩ <;> first | (apply Or.inl; apply Piece.mem_of; rfl) | exact Or.inl (by simp; done) | with_reducible exact Or.inr rfl | with_reducible exact Or.inr ⟨rfl, rfl, rfl, rfl⟩ | with_reducible exact Or.inr ⟨rfl, rfl, rfl, rfl, rfl⟩ | (refine ⟨?_, ?_⟩ <;> first | (apply Or.inl; apply Piece.mem_of; rfl) | exact Or.inl (by simp; done) | with_reducible exact Or.inr rfl)) | skip)
    | with_reducible apply Block.finish_keeps
    | with_reducible apply Block.freeCharter_keeps
    | with_reducible apply Block.modCharter_keeps
    | with_reducible apply Kept.ite
    | split

theorem Block.charterClose_keeps {qs : List Piece} {a₀ b : Block} {m : ManRef} {c : Nat} (inside : Within [.chs, .ins, .running, .slots] qs) (before : Kept qs a₀ b) :
    Kept qs a₀ (Block.charterClose b m c) := Kept.step (Block.charterClose_kept _ _ _) inside before

theorem Block.charterCloseDone_kept (b : Block) (c : Nat) : Kept [.chs, .ins, .running, .slots] b (Block.charterCloseDone b c) := by
  unfold Block.charterCloseDone
  repeat' first
    | with_reducible assumption
    | with_reducible apply Kept.refl
    | with_reducible apply Within.refl
    | ((with_reducible apply Within.of); rfl)
    | ((with_reducible apply Within.cons); (apply Piece.inside_of; rfl))
    | ((with_reducible apply Within.cons); apply Or.inr)
    | with_reducible apply Within.nil
    | with_reducible apply List.mem_cons_self
    | with_reducible apply List.mem_cons_of_mem
    | (extract_lets +onlyGivenNames x
       first
       | (guard_hyp x : Block := _
          refine Kept.cut (ps := [.chs, .ins, .running, .slots]) (b := b) (x := x) ?_ fun hx => ?_
          on_goal 1 => subst x
          on_goal 2 => try clear_value x)
       | clear_value x
       | skip)
    | (simp only [Kept.by_fields]; with_reducible apply Kept.fields <;>
         first | with_reducible exact Or.inl rfl | (apply Or.inr; apply Piece.mem_of; rfl) | exact Or.inr (by simp; done) | (refine Or.inr ⟨?_, ?_⟩ <;> first | (apply Or.inl; apply Piece.mem_of; rfl) | exact Or.inl (by simp; done) | with_reducible exact Or.inr rfl | with_reducible exact Or.inr ⟨rfl, rfl, rfl, rfl⟩ | with_reducible exact Or.inr ⟨rfl, rfl, rfl, rfl, rfl⟩ | (refine ⟨?_, ?_⟩ <;> first | (apply Or.inl; apply Piece.mem_of; rfl) | exact Or.inl (by simp; done) | with_reducible exact Or.inr rfl)) | skip)
    | with_reducible apply Block.freeCharter_keeps
    | with_reducible apply Block.finish_keeps
    | with_reducible apply Block.charterClose_keeps
    | with_reducible apply Kept.ite
    | split

theorem Block.charterCloseDone_keeps {qs : List Piece} {a₀ b : Block} {c : Nat} (inside : Within [.chs, .ins, .running, .slots] qs) (before : Kept qs a₀ b) :
    Kept qs a₀ (Block.charterCloseDone b c) := Kept.step (Block.charterCloseDone_kept _ _) inside before

theorem Block.charterQuery_kept (b : Block) (m : ManRef) (c : Nat) : Kept [.ins, .running, .slots] b (Block.charterQuery b m c) := by
  unfold Block.charterQuery
  repeat' first
    | with_reducible assumption
    | with_reducible apply Kept.refl
    | with_reducible apply Within.refl
    | ((with_reducible apply Within.of); rfl)
    | ((with_reducible apply Within.cons); (apply Piece.inside_of; rfl))
    | ((with_reducible apply Within.cons); apply Or.inr)
    | with_reducible apply Within.nil
    | with_reducible apply List.mem_cons_self
    | with_reducible apply List.mem_cons_of_mem
    | with_reducible apply Block.finish_keeps
    | with_reducible apply Kept.ite
    | split

theorem Block.charterQuery_keeps {qs : List Piece} {a₀ b : Block} {m : ManRef} {c : Nat} (inside : Within [.ins, .running, .slots] qs) (before : Kept qs a₀ b) :
    Kept qs a₀ (Block.charterQuery b m c) := Kept.step (Block.charterQuery_kept _ _ _) inside before

theorem Block.applyDue_kept (b : Block) : Kept [.berths, .chans, .reg Off.htAlarm] b (Block.applyDue b) := by
  unfold Block.applyDue
  repeat' first
    | with_reducible assumption
    | with_reducible apply Kept.refl
    | with_reducible apply Within.refl
    | ((with_reducible apply Within.of); rfl)
    | ((with_reducible apply Within.cons); (apply Piece.inside_of; rfl))
    | ((with_reducible apply Within.cons); apply Or.inr)
    | with_reducible apply Within.nil
    | with_reducible apply List.mem_cons_self
    | with_reducible apply List.mem_cons_of_mem
    | (simp only [Kept.by_fields]; with_reducible apply Kept.fields <;>
         first | with_reducible exact Or.inl rfl | (apply Or.inr; apply Piece.mem_of; rfl) | exact Or.inr (by simp; done) | (refine Or.inr ⟨?_, ?_⟩ <;> first | (apply Or.inl; apply Piece.mem_of; rfl) | exact Or.inl (by simp; done) | with_reducible exact Or.inr rfl | with_reducible exact Or.inr ⟨rfl, rfl, rfl, rfl⟩ | with_reducible exact Or.inr ⟨rfl, rfl, rfl, rfl, rfl⟩ | (refine ⟨?_, ?_⟩ <;> first | (apply Or.inl; apply Piece.mem_of; rfl) | exact Or.inl (by simp; done) | with_reducible exact Or.inr rfl)) | skip)
    | (with_reducible apply Kept.each; intro _ _ _)
    | with_reducible apply Block.applyStep_keeps
    | split

theorem Block.applyDue_keeps {qs : List Piece} {a₀ b : Block} (inside : Within [.berths, .chans, .reg Off.htAlarm] qs) (before : Kept qs a₀ b) :
    Kept qs a₀ (Block.applyDue b) := Kept.step (Block.applyDue_kept _) inside before

theorem Block.shortfallPass_kept (b : Block) : Kept [.berths, .chans, .chs, .events, .reg Off.chAlarm, .reg Off.htAlarm, .reg Off.lgAlarm] b (Block.shortfallPass b) := by
  unfold Block.shortfallPass
  repeat' first
    | with_reducible assumption
    | with_reducible apply Kept.refl
    | with_reducible apply Within.refl
    | ((with_reducible apply Within.of); rfl)
    | ((with_reducible apply Within.cons); (apply Piece.inside_of; rfl))
    | ((with_reducible apply Within.cons); apply Or.inr)
    | with_reducible apply Within.nil
    | with_reducible apply List.mem_cons_self
    | with_reducible apply List.mem_cons_of_mem
    | (extract_lets +onlyGivenNames x
       first
       | (guard_hyp x : Block := _
          refine Kept.cut (ps := [.berths, .chans, .chs, .events, .reg Off.chAlarm, .reg Off.htAlarm, .reg Off.lgAlarm]) (b := b) (x := x) ?_ fun hx => ?_
          on_goal 1 => subst x
          on_goal 2 => try clear_value x)
       | clear_value x
       | skip)
    | (simp only [Kept.by_fields]; with_reducible apply Kept.fields <;>
         first | with_reducible exact Or.inl rfl | (apply Or.inr; apply Piece.mem_of; rfl) | exact Or.inr (by simp; done) | (refine Or.inr ⟨?_, ?_⟩ <;> first | (apply Or.inl; apply Piece.mem_of; rfl) | exact Or.inl (by simp; done) | with_reducible exact Or.inr rfl | with_reducible exact Or.inr ⟨rfl, rfl, rfl, rfl⟩ | with_reducible exact Or.inr ⟨rfl, rfl, rfl, rfl, rfl⟩ | (refine ⟨?_, ?_⟩ <;> first | (apply Or.inl; apply Piece.mem_of; rfl) | exact Or.inl (by simp; done) | with_reducible exact Or.inr rfl)) | skip)
    | with_reducible apply Block.noteUse_keeps
    | with_reducible apply Block.shortfall_keeps
    | with_reducible apply Block.applyDue_keeps
    | with_reducible apply Kept.ite
    | split

theorem Block.shortfallPass_keeps {qs : List Piece} {a₀ b : Block} (inside : Within [.berths, .chans, .chs, .events, .reg Off.chAlarm, .reg Off.htAlarm, .reg Off.lgAlarm] qs) (before : Kept qs a₀ b) :
    Kept qs a₀ (Block.shortfallPass b) := Kept.step (Block.shortfallPass_kept _) inside before

theorem Block.onSide_keeps {qs : List Piece} {a₀ b : Block} {m : ManRef} {op side : Nat} {lawful : Bool} {f : Side → Block}
    (inside : Within [.ins, .running, .slots] qs) (before : Kept qs a₀ b) (each : ∀ sd, Kept qs a₀ (f sd)) : Kept qs a₀ (Block.onSide b m op side lawful f) := by
  unfold Block.onSide
  repeat' first
    | exact Block.finish_keeps inside before
    | exact each _
    | split

theorem Block.laneStatus_kept (b : Block) (m : ManRef) (side : Nat) : Kept [.ins, .running, .slots] b (Block.laneStatus b m side) := by
  unfold Block.laneStatus
  repeat' first
    | with_reducible assumption
    | with_reducible apply Kept.refl
    | with_reducible apply Within.refl
    | ((with_reducible apply Within.of); rfl)
    | ((with_reducible apply Within.cons); (apply Piece.inside_of; rfl))
    | ((with_reducible apply Within.cons); apply Or.inr)
    | with_reducible apply Within.nil
    | with_reducible apply List.mem_cons_self
    | with_reducible apply List.mem_cons_of_mem
    | (simp only [Kept.by_fields]; with_reducible apply Kept.fields <;>
         first | with_reducible exact Or.inl rfl | (apply Or.inr; apply Piece.mem_of; rfl) | exact Or.inr (by simp; done) | (refine Or.inr ⟨?_, ?_⟩ <;> first | (apply Or.inl; apply Piece.mem_of; rfl) | exact Or.inl (by simp; done) | with_reducible exact Or.inr rfl | with_reducible exact Or.inr ⟨rfl, rfl, rfl, rfl⟩ | with_reducible exact Or.inr ⟨rfl, rfl, rfl, rfl, rfl⟩ | (refine ⟨?_, ?_⟩ <;> first | (apply Or.inl; apply Piece.mem_of; rfl) | exact Or.inl (by simp; done) | with_reducible exact Or.inr rfl)) | skip)
    | with_reducible apply Block.finish_keeps
    | split

theorem Block.laneStatus_keeps {qs : List Piece} {a₀ b : Block} {m : ManRef} {side : Nat} (inside : Within [.ins, .running, .slots] qs) (before : Kept qs a₀ b) :
    Kept qs a₀ (Block.laneStatus b m side) := Kept.step (Block.laneStatus_kept _ _ _) inside before

theorem Block.retrainLane_kept (b : Block) (l : Nat) : Kept [.cnt, .events, .fws, .ins, .lanes, .qy, .regs, .sides, .tl] b (Block.retrainLane b l) := by
  unfold Block.retrainLane
  repeat' first
    | with_reducible assumption
    | with_reducible apply Kept.refl
    | with_reducible apply Within.refl
    | ((with_reducible apply Within.of); rfl)
    | ((with_reducible apply Within.cons); (apply Piece.inside_of; rfl))
    | ((with_reducible apply Within.cons); apply Or.inr)
    | with_reducible apply Within.nil
    | with_reducible apply List.mem_cons_self
    | with_reducible apply List.mem_cons_of_mem
    | (extract_lets +onlyGivenNames x
       first
       | (guard_hyp x : Block := _
          refine Kept.cut (ps := [.cnt, .events, .fws, .ins, .lanes, .qy, .regs, .sides, .tl]) (b := b) (x := x) ?_ fun hx => ?_
          on_goal 1 => subst x
          on_goal 2 => try clear_value x)
       | (have _t : _ → Block := x; clear _t; subst x; beta_reduce)
       | (have _t : _ → _ := x; clear _t; subst x; beta_reduce)
       | clear_value x
       | skip)
    | with_reducible apply Block.modLane_keeps
    | with_reducible apply Block.startHunt_keeps
    | with_reducible apply Block.dropLaneFull_keeps
    | with_reducible apply Kept.ite
    | split

theorem Block.retrainLane_keeps {qs : List Piece} {a₀ b : Block} {l : Nat} (inside : Within [.cnt, .events, .fws, .ins, .lanes, .qy, .regs, .sides, .tl] qs) (before : Kept qs a₀ b) :
    Kept qs a₀ (Block.retrainLane b l) := Kept.step (Block.retrainLane_kept _ _) inside before

theorem Block.retrainWhole_kept (b : Block) (sd : Side) : Kept [.count (fwOff Off.fwDropLo (otherSide sd)), .count Off.qyCplDiscardLo, .events, .fw (otherSide sd), .ins, .lanes, .qy, .regs, .sides, .tl] b (Block.retrainWhole b sd) := by
  unfold Block.retrainWhole
  repeat' first
    | with_reducible assumption
    | with_reducible apply Kept.refl
    | with_reducible apply Within.refl
    | ((with_reducible apply Within.of); rfl)
    | ((with_reducible apply Within.cons); (apply Piece.inside_of; rfl))
    | ((with_reducible apply Within.cons); apply Or.inr)
    | with_reducible apply Within.nil
    | with_reducible apply List.mem_cons_self
    | with_reducible apply List.mem_cons_of_mem
    | with_reducible apply Block.freshCaps_keeps
    | with_reducible apply Block.retrainSide_keeps
    | with_reducible apply Block.modSide_keeps
    | with_reducible apply Kept.ite
    | split

theorem Block.retrainWhole_keeps {qs : List Piece} {a₀ b : Block} {sd : Side} (inside : Within [.count (fwOff Off.fwDropLo (otherSide sd)), .count Off.qyCplDiscardLo, .events, .fw (otherSide sd), .ins, .lanes, .qy, .regs, .sides, .tl] qs) (before : Kept qs a₀ b) :
    Kept qs a₀ (Block.retrainWhole b sd) := Kept.step (Block.retrainWhole_kept _ _) inside before

theorem Block.laneRetrainOn_kept (b : Block) (m : ManRef) (sd : Side) (whole : Bool) (mask : BitVec 16) : Kept [.cnt, .events, .fws, .ins, .lanes, .qy, .regs, .running, .sides, .slots, .tl] b (Block.laneRetrainOn b m sd whole mask) := by
  unfold Block.laneRetrainOn
  repeat' first
    | with_reducible assumption
    | with_reducible apply Kept.refl
    | with_reducible apply Within.refl
    | ((with_reducible apply Within.of); rfl)
    | ((with_reducible apply Within.cons); (apply Piece.inside_of; rfl))
    | ((with_reducible apply Within.cons); apply Or.inr)
    | with_reducible apply Within.nil
    | with_reducible apply List.mem_cons_self
    | with_reducible apply List.mem_cons_of_mem
    | (extract_lets +onlyGivenNames x
       first
       | (guard_hyp x : Block := _
          refine Kept.cut (ps := [.cnt, .events, .fws, .ins, .lanes, .qy, .regs, .running, .sides, .slots, .tl]) (b := b) (x := x) ?_ fun hx => ?_
          on_goal 1 => subst x
          on_goal 2 => try clear_value x)
       | clear_value x
       | skip)
    | (with_reducible apply Kept.each; intro _ _ _)
    | with_reducible apply Block.modSide_keeps
    | with_reducible apply Block.retrainWhole_keeps
    | with_reducible apply Block.retrainLane_keeps
    | with_reducible apply Block.linkUp_keeps
    | with_reducible apply Block.wakeWaiter_keeps
    | with_reducible apply Kept.ite
    | split

theorem Block.laneRetrainOn_keeps {qs : List Piece} {a₀ b : Block} {m : ManRef} {sd : Side} {whole : Bool} {mask : BitVec 16} (inside : Within [.cnt, .events, .fws, .ins, .lanes, .qy, .regs, .running, .sides, .slots, .tl] qs) (before : Kept qs a₀ b) :
    Kept qs a₀ (Block.laneRetrainOn b m sd whole mask) := Kept.step (Block.laneRetrainOn_kept _ _ _ _ _) inside before

theorem Block.clearPrbs_kept (b : Block) (l : Nat) : Kept [.count (lnOff Off.lnPrbsBitsLo l), .count (lnOff Off.lnPrbsErrLo l), .lane l] b (Block.clearPrbs b l) := by
  unfold Block.clearPrbs
  repeat' first
    | with_reducible assumption
    | with_reducible apply Kept.refl
    | with_reducible apply Within.refl
    | ((with_reducible apply Within.of); rfl)
    | ((with_reducible apply Within.cons); (apply Piece.inside_of; rfl))
    | ((with_reducible apply Within.cons); apply Or.inr)
    | with_reducible apply Within.nil
    | with_reducible apply List.mem_cons_self
    | with_reducible apply List.mem_cons_of_mem
    | (simp only [Kept.by_fields]; with_reducible apply Kept.fields <;>
         first | with_reducible exact Or.inl rfl | (apply Or.inr; apply Piece.mem_of; rfl) | exact Or.inr (by simp; done) | (refine Or.inr ⟨?_, ?_⟩ <;> first | (apply Or.inl; apply Piece.mem_of; rfl) | exact Or.inl (by simp; done) | with_reducible exact Or.inr rfl | with_reducible exact Or.inr ⟨rfl, rfl, rfl, rfl⟩ | with_reducible exact Or.inr ⟨rfl, rfl, rfl, rfl, rfl⟩ | (refine ⟨?_, ?_⟩ <;> first | (apply Or.inl; apply Piece.mem_of; rfl) | exact Or.inl (by simp; done) | with_reducible exact Or.inr rfl)) | skip)
    | with_reducible apply Block.setCount_keeps
    | with_reducible apply Block.modLane_keeps

theorem Block.clearPrbs_keeps {qs : List Piece} {a₀ b : Block} {l : Nat} (inside : Within [.count (lnOff Off.lnPrbsBitsLo l), .count (lnOff Off.lnPrbsErrLo l), .lane l] qs) (before : Kept qs a₀ b) :
    Kept qs a₀ (Block.clearPrbs b l) := Kept.step (Block.clearPrbs_kept _ _) inside before

theorem Block.lanePrbsOn_kept (b : Block) (m : ManRef) (l : Nat) (pattern : BitVec 2) (ms : BitVec 16) : Kept [.cnt, .events, .fws, .ins, .lanes, .qy, .regs, .running, .sides, .slots, .tl] b (Block.lanePrbsOn b m l pattern ms) := by
  unfold Block.lanePrbsOn
  repeat' first
    | with_reducible assumption
    | with_reducible apply Kept.refl
    | with_reducible apply Within.refl
    | ((with_reducible apply Within.of); rfl)
    | ((with_reducible apply Within.cons); (apply Piece.inside_of; rfl))
    | ((with_reducible apply Within.cons); apply Or.inr)
    | with_reducible apply Within.nil
    | with_reducible apply List.mem_cons_self
    | with_reducible apply List.mem_cons_of_mem
    | (extract_lets +onlyGivenNames x
       first
       | (guard_hyp x : Block := _
          refine Kept.cut (ps := [.cnt, .events, .fws, .ins, .lanes, .qy, .regs, .running, .sides, .slots, .tl]) (b := b) (x := x) ?_ fun hx => ?_
          on_goal 1 => subst x
          on_goal 2 => try clear_value x)
       | clear_value x
       | skip)
    | with_reducible apply Block.finish_keeps
    | with_reducible apply Block.clrReg_keeps
    | with_reducible apply Block.clearPrbs_keeps
    | with_reducible apply Block.modLane_keeps
    | with_reducible apply Block.retrainLane_keeps
    | with_reducible apply Kept.ite
    | split

theorem Block.lanePrbsOn_keeps {qs : List Piece} {a₀ b : Block} {m : ManRef} {l : Nat} {pattern : BitVec 2} {ms : BitVec 16} (inside : Within [.cnt, .events, .fws, .ins, .lanes, .qy, .regs, .running, .sides, .slots, .tl] qs) (before : Kept qs a₀ b) :
    Kept qs a₀ (Block.lanePrbsOn b m l pattern ms) := Kept.step (Block.lanePrbsOn_kept _ _ _ _ _) inside before

theorem Block.writeSsc_kept (b : Block) (sd : Side) (depth : Nat) (rate : Nat) : Kept [.regs, .side sd] b (Block.writeSsc b sd depth rate) := by
  unfold Block.writeSsc
  repeat' first
    | with_reducible assumption
    | with_reducible apply Kept.refl
    | with_reducible apply Within.refl
    | ((with_reducible apply Within.of); rfl)
    | ((with_reducible apply Within.cons); (apply Piece.inside_of; rfl))
    | ((with_reducible apply Within.cons); apply Or.inr)
    | with_reducible apply Within.nil
    | with_reducible apply List.mem_cons_self
    | with_reducible apply List.mem_cons_of_mem
    | (extract_lets +onlyGivenNames x
       first
       | (guard_hyp x : Block := _
          refine Kept.cut (ps := [.regs, .side sd]) (b := b) (x := x) ?_ fun hx => ?_
          on_goal 1 => subst x
          on_goal 2 => try clear_value x)
       | clear_value x
       | skip)
    | (simp only [Kept.by_fields]; with_reducible apply Kept.fields <;>
         first | with_reducible exact Or.inl rfl | (apply Or.inr; apply Piece.mem_of; rfl) | exact Or.inr (by simp; done) | (refine Or.inr ⟨?_, ?_⟩ <;> first | (apply Or.inl; apply Piece.mem_of; rfl) | exact Or.inl (by simp; done) | with_reducible exact Or.inr rfl | with_reducible exact Or.inr ⟨rfl, rfl, rfl, rfl⟩ | with_reducible exact Or.inr ⟨rfl, rfl, rfl, rfl, rfl⟩ | (refine ⟨?_, ?_⟩ <;> first | (apply Or.inl; apply Piece.mem_of; rfl) | exact Or.inl (by simp; done) | with_reducible exact Or.inr rfl)) | skip)
    | with_reducible apply Block.setReg_keeps
    | with_reducible apply Block.modSide_keeps

theorem Block.writeSsc_keeps {qs : List Piece} {a₀ b : Block} {sd : Side} {depth : Nat} {rate : Nat} (inside : Within [.regs, .side sd] qs) (before : Kept qs a₀ b) :
    Kept qs a₀ (Block.writeSsc b sd depth rate) := Kept.step (Block.writeSsc_kept _ _ _ _) inside before

theorem Block.sscSetOn_kept (b : Block) (m : ManRef) (sd : Side) (depth : Nat) (rate : Nat) (now : Bool) : Kept [.count (fwOff Off.fwDropLo (otherSide sd)), .count Off.qyCplDiscardLo, .events, .fw (otherSide sd), .ins, .lanes, .qy, .regs, .running, .sides, .slots, .tl] b (Block.sscSetOn b m sd depth rate now) := by
  unfold Block.sscSetOn
  repeat' first
    | with_reducible assumption
    | with_reducible apply Kept.refl
    | with_reducible apply Within.refl
    | ((with_reducible apply Within.of); rfl)
    | ((with_reducible apply Within.cons); (apply Piece.inside_of; rfl))
    | ((with_reducible apply Within.cons); apply Or.inr)
    | with_reducible apply Within.nil
    | with_reducible apply List.mem_cons_self
    | with_reducible apply List.mem_cons_of_mem
    | (extract_lets +onlyGivenNames x
       first
       | (guard_hyp x : Block := _
          refine Kept.cut (ps := [.count (fwOff Off.fwDropLo (otherSide sd)), .count Off.qyCplDiscardLo, .events, .fw (otherSide sd), .ins, .lanes, .qy, .regs, .running, .sides, .slots, .tl]) (b := b) (x := x) ?_ fun hx => ?_
          on_goal 1 => subst x
          on_goal 2 => try clear_value x)
       | clear_value x
       | skip)
    | with_reducible apply Block.writeSsc_keeps
    | with_reducible apply Block.wakeWaiter_keeps
    | with_reducible apply Block.retrainWhole_keeps
    | with_reducible apply Block.modSide_keeps
    | with_reducible apply Block.finish_keeps
    | with_reducible apply Kept.ite
    | split

theorem Block.sscSetOn_keeps {qs : List Piece} {a₀ b : Block} {m : ManRef} {sd : Side} {depth : Nat} {rate : Nat} {now : Bool} (inside : Within [.count (fwOff Off.fwDropLo (otherSide sd)), .count Off.qyCplDiscardLo, .events, .fw (otherSide sd), .ins, .lanes, .qy, .regs, .running, .sides, .slots, .tl] qs) (before : Kept qs a₀ b) :
    Kept qs a₀ (Block.sscSetOn b m sd depth rate now) := Kept.step (Block.sscSetOn_kept _ _ _ _ _ _) inside before

theorem Block.sscSet_kept (b : Block) (m : ManRef) (side : Nat) (depth : Nat) (rate : Nat) (flags : Nat) : Kept [.cnt, .events, .fws, .ins, .lanes, .qy, .regs, .running, .sides, .slots, .tl] b (Block.sscSet b m side depth rate flags) := by
  unfold Block.sscSet
  repeat' first
    | with_reducible assumption
    | with_reducible apply Kept.refl
    | with_reducible apply Within.refl
    | ((with_reducible apply Within.of); rfl)
    | ((with_reducible apply Within.cons); (apply Piece.inside_of; rfl))
    | ((with_reducible apply Within.cons); apply Or.inr)
    | with_reducible apply Within.nil
    | with_reducible apply List.mem_cons_self
    | with_reducible apply List.mem_cons_of_mem
    | (extract_lets +onlyGivenNames x
       first
       | (guard_hyp x : Block := _
          refine Kept.cut (ps := [.cnt, .events, .fws, .ins, .lanes, .qy, .regs, .running, .sides, .slots, .tl]) (b := b) (x := x) ?_ fun hx => ?_
          on_goal 1 => subst x
          on_goal 2 => try clear_value x)
       | clear_value x
       | skip)
    | (with_reducible apply Block.onSide_keeps; (case inside => simp [Within, Piece.inside]))
    | intro _
    | with_reducible apply Block.sscSetOn_keeps
    | with_reducible apply Block.finish_keeps
    | with_reducible apply Kept.ite
    | split

theorem Block.sscSet_keeps {qs : List Piece} {a₀ b : Block} {m : ManRef} {side : Nat} {depth : Nat} {rate : Nat} {flags : Nat} (inside : Within [.cnt, .events, .fws, .ins, .lanes, .qy, .regs, .running, .sides, .slots, .tl] qs) (before : Kept qs a₀ b) :
    Kept qs a₀ (Block.sscSet b m side depth rate flags) := Kept.step (Block.sscSet_kept _ _ _ _ _ _) inside before

theorem Block.keyLoad_kept (b : Block) (m : ManRef) (k : KeyLoadParams) : Kept [.ins, .keys, .running, .slots] b (Block.keyLoad b m k) := by
  unfold Block.keyLoad
  repeat' first
    | with_reducible assumption
    | with_reducible apply Kept.refl
    | with_reducible apply Within.refl
    | ((with_reducible apply Within.of); rfl)
    | ((with_reducible apply Within.cons); (apply Piece.inside_of; rfl))
    | ((with_reducible apply Within.cons); apply Or.inr)
    | with_reducible apply Within.nil
    | with_reducible apply List.mem_cons_self
    | with_reducible apply List.mem_cons_of_mem
    | (extract_lets +onlyGivenNames x
       first
       | (guard_hyp x : Block := _
          refine Kept.cut (ps := [.ins, .keys, .running, .slots]) (b := b) (x := x) ?_ fun hx => ?_
          on_goal 1 => subst x
          on_goal 2 => try clear_value x)
       | clear_value x
       | skip)
    | (simp only [Kept.by_fields]; with_reducible apply Kept.fields <;>
         first | with_reducible exact Or.inl rfl | (apply Or.inr; apply Piece.mem_of; rfl) | exact Or.inr (by simp; done) | (refine Or.inr ⟨?_, ?_⟩ <;> first | (apply Or.inl; apply Piece.mem_of; rfl) | exact Or.inl (by simp; done) | with_reducible exact Or.inr rfl | with_reducible exact Or.inr ⟨rfl, rfl, rfl, rfl⟩ | with_reducible exact Or.inr ⟨rfl, rfl, rfl, rfl, rfl⟩ | (refine ⟨?_, ?_⟩ <;> first | (apply Or.inl; apply Piece.mem_of; rfl) | exact Or.inl (by simp; done) | with_reducible exact Or.inr rfl)) | skip)
    | with_reducible apply Block.finish_keeps
    | with_reducible apply Kept.ite
    | split

theorem Block.keyLoad_keeps {qs : List Piece} {a₀ b : Block} {m : ManRef} {k : KeyLoadParams} (inside : Within [.ins, .keys, .running, .slots] qs) (before : Kept qs a₀ b) :
    Kept qs a₀ (Block.keyLoad b m k) := Kept.step (Block.keyLoad_kept _ _ _) inside before

theorem Block.writeSelector_kept (b : Block) (blk : Nat) (i : Nat) (sel : Nat) : Kept [.regs, .tl] b (Block.writeSelector b blk i sel) := by
  unfold Block.writeSelector
  repeat' first
    | with_reducible assumption
    | with_reducible apply Kept.refl
    | with_reducible apply Within.refl
    | ((with_reducible apply Within.of); rfl)
    | ((with_reducible apply Within.cons); (apply Piece.inside_of; rfl))
    | ((with_reducible apply Within.cons); apply Or.inr)
    | with_reducible apply Within.nil
    | with_reducible apply List.mem_cons_self
    | with_reducible apply List.mem_cons_of_mem
    | (extract_lets +onlyGivenNames x
       first
       | (guard_hyp x : Block := _
          refine Kept.cut (ps := [.regs, .tl]) (b := b) (x := x) ?_ fun hx => ?_
          on_goal 1 => subst x
          on_goal 2 => try clear_value x)
       | clear_value x
       | skip)
    | (simp only [Kept.by_fields]; with_reducible apply Kept.fields <;>
         first | with_reducible exact Or.inl rfl | (apply Or.inr; apply Piece.mem_of; rfl) | exact Or.inr (by simp; done) | (refine Or.inr ⟨?_, ?_⟩ <;> first | (apply Or.inl; apply Piece.mem_of; rfl) | exact Or.inl (by simp; done) | with_reducible exact Or.inr rfl | with_reducible exact Or.inr ⟨rfl, rfl, rfl, rfl⟩ | with_reducible exact Or.inr ⟨rfl, rfl, rfl, rfl, rfl⟩ | (refine ⟨?_, ?_⟩ <;> first | (apply Or.inl; apply Piece.mem_of; rfl) | exact Or.inl (by simp; done) | with_reducible exact Or.inr rfl)) | skip)
    | with_reducible apply Block.setReg_keeps
    | with_reducible apply Block.setTallyBlk_keeps
    | with_reducible apply Block.clrReg_keeps
    | with_reducible apply Kept.ite
    | split

theorem Block.writeSelector_keeps {qs : List Piece} {a₀ b : Block} {blk : Nat} {i : Nat} {sel : Nat} (inside : Within [.regs, .tl] qs) (before : Kept qs a₀ b) :
    Kept qs a₀ (Block.writeSelector b blk i sel) := Kept.step (Block.writeSelector_kept _ _ _ _) inside before

theorem Block.tallyConfig_kept (b : Block) (m : ManRef) (blk : Nat) (i : Nat) (sel : Nat) : Kept [.ins, .regs, .running, .slots, .tl] b (Block.tallyConfig b m blk i sel) := by
  unfold Block.tallyConfig
  repeat' first
    | with_reducible assumption
    | with_reducible apply Kept.refl
    | with_reducible apply Within.refl
    | ((with_reducible apply Within.of); rfl)
    | ((with_reducible apply Within.cons); (apply Piece.inside_of; rfl))
    | ((with_reducible apply Within.cons); apply Or.inr)
    | with_reducible apply Within.nil
    | with_reducible apply List.mem_cons_self
    | with_reducible apply List.mem_cons_of_mem
    | with_reducible apply Block.finish_keeps
    | with_reducible apply Block.writeSelector_keeps
    | with_reducible apply Kept.ite
    | split

theorem Block.tallyConfig_keeps {qs : List Piece} {a₀ b : Block} {m : ManRef} {blk : Nat} {i : Nat} {sel : Nat} (inside : Within [.ins, .regs, .running, .slots, .tl] qs) (before : Kept qs a₀ b) :
    Kept qs a₀ (Block.tallyConfig b m blk i sel) := Kept.step (Block.tallyConfig_kept _ _ _ _ _) inside before

theorem Block.takeShadows_kept (b : Block) : Kept [.tl] b (Block.takeShadows b) := by
  unfold Block.takeShadows
  repeat' first
    | with_reducible assumption
    | with_reducible apply Kept.refl
    | with_reducible apply Within.refl
    | ((with_reducible apply Within.of); rfl)
    | ((with_reducible apply Within.cons); (apply Piece.inside_of; rfl))
    | ((with_reducible apply Within.cons); apply Or.inr)
    | with_reducible apply Within.nil
    | with_reducible apply List.mem_cons_self
    | with_reducible apply List.mem_cons_of_mem
    | (extract_lets +onlyGivenNames x
       first
       | (guard_hyp x : Block := _
          refine Kept.cut (ps := [.tl]) (b := b) (x := x) ?_ fun hx => ?_
          on_goal 1 => subst x
          on_goal 2 => try clear_value x)
       | clear_value x
       | skip)
    | (simp only [Kept.by_fields]; with_reducible apply Kept.fields <;>
         first | with_reducible exact Or.inl rfl | (apply Or.inr; apply Piece.mem_of; rfl) | exact Or.inr (by simp; done) | (refine Or.inr ⟨?_, ?_⟩ <;> first | (apply Or.inl; apply Piece.mem_of; rfl) | exact Or.inl (by simp; done) | with_reducible exact Or.inr rfl | with_reducible exact Or.inr ⟨rfl, rfl, rfl, rfl⟩ | with_reducible exact Or.inr ⟨rfl, rfl, rfl, rfl, rfl⟩ | (refine ⟨?_, ?_⟩ <;> first | (apply Or.inl; apply Piece.mem_of; rfl) | exact Or.inl (by simp; done) | with_reducible exact Or.inr rfl)) | skip)

theorem Block.takeShadows_keeps {qs : List Piece} {a₀ b : Block} (inside : Within [.tl] qs) (before : Kept qs a₀ b) :
    Kept qs a₀ (Block.takeShadows b) := Kept.step (Block.takeShadows_kept _) inside before

theorem Block.skipStrobe_kept (b : Block) : Kept [.reg Off.tlAlarm, .reg Off.tlSkipped, .tl] b (Block.skipStrobe b) := by
  unfold Block.skipStrobe
  repeat' first
    | with_reducible assumption
    | with_reducible apply Kept.refl
    | with_reducible apply Within.refl
    | ((with_reducible apply Within.of); rfl)
    | ((with_reducible apply Within.cons); (apply Piece.inside_of; rfl))
    | ((with_reducible apply Within.cons); apply Or.inr)
    | with_reducible apply Within.nil
    | with_reducible apply List.mem_cons_self
    | with_reducible apply List.mem_cons_of_mem
    | (extract_lets +onlyGivenNames x
       first
       | (guard_hyp x : Block := _
          refine Kept.cut (ps := [.reg Off.tlAlarm, .reg Off.tlSkipped, .tl]) (b := b) (x := x) ?_ fun hx => ?_
          on_goal 1 => subst x
          on_goal 2 => try clear_value x)
       | clear_value x
       | skip)
    | (simp only [Kept.by_fields]; with_reducible apply Kept.fields <;>
         first | with_reducible exact Or.inl rfl | (apply Or.inr; apply Piece.mem_of; rfl) | exact Or.inr (by simp; done) | (refine Or.inr ⟨?_, ?_⟩ <;> first | (apply Or.inl; apply Piece.mem_of; rfl) | exact Or.inl (by simp; done) | with_reducible exact Or.inr rfl | with_reducible exact Or.inr ⟨rfl, rfl, rfl, rfl⟩ | with_reducible exact Or.inr ⟨rfl, rfl, rfl, rfl, rfl⟩ | (refine ⟨?_, ?_⟩ <;> first | (apply Or.inl; apply Piece.mem_of; rfl) | exact Or.inl (by simp; done) | with_reducible exact Or.inr rfl)) | skip)
    | with_reducible apply Block.setReg_keeps
    | with_reducible apply Block.orReg_keeps
    | with_reducible apply Kept.ite
    | split

theorem Block.skipStrobe_keeps {qs : List Piece} {a₀ b : Block} (inside : Within [.reg Off.tlAlarm, .reg Off.tlSkipped, .tl] qs) (before : Kept qs a₀ b) :
    Kept qs a₀ (Block.skipStrobe b) := Kept.step (Block.skipStrobe_kept _) inside before

theorem Block.sendDump_kept (b : Block) (sd : Side) (a : Nat) (bs : List Byte) (tags : List Nat) : Kept [.fresh, .ins, .qy, .reg Off.qyTags] b (Block.sendDump b sd a bs tags) := by
  unfold Block.sendDump
  repeat' first
    | with_reducible assumption
    | with_reducible apply Kept.refl
    | with_reducible apply Within.refl
    | ((with_reducible apply Within.of); rfl)
    | ((with_reducible apply Within.cons); (apply Piece.inside_of; rfl))
    | ((with_reducible apply Within.cons); apply Or.inr)
    | with_reducible apply Within.nil
    | with_reducible apply List.mem_cons_self
    | with_reducible apply List.mem_cons_of_mem
    | (extract_lets +onlyGivenNames x
       first
       | (guard_hyp x : Block := _
          refine Kept.cut (ps := [.fresh, .ins, .qy, .reg Off.qyTags]) (b := b) (x := x) ?_ fun hx => ?_
          on_goal 1 => subst x
          on_goal 2 => try clear_value x)
       | (have _t : _ → Block := x; clear _t; subst x; beta_reduce)
       | (have _t : _ → _ → Block := x; clear _t; subst x; beta_reduce)
       | (have _t : _ → _ → _ → Block := x; clear _t; subst x; beta_reduce)
       | (guard_hyp x : Clocks := _; subst x)
       | (guard_hyp x : Quay := _; subst x)
       | clear_value x
       | skip)
    | (simp only [Kept.by_fields]; with_reducible apply Kept.fields <;>
         first | with_reducible exact Or.inl rfl | (apply Or.inr; apply Piece.mem_of; rfl) | exact Or.inr (by simp; done) | (refine Or.inr ⟨?_, ?_⟩ <;> first | (apply Or.inl; apply Piece.mem_of; rfl) | exact Or.inl (by simp; done) | with_reducible exact Or.inr rfl | with_reducible exact Or.inr ⟨rfl, rfl, rfl, rfl⟩ | with_reducible exact Or.inr ⟨rfl, rfl, rfl, rfl, rfl⟩ | (refine ⟨?_, ?_⟩ <;> first | (apply Or.inl; apply Piece.mem_of; rfl) | exact Or.inl (by simp; done) | with_reducible exact Or.inr rfl)) | skip)
    | (with_reducible apply Kept.foldl; intro _ _ _)
    | with_reducible apply Block.draw_keeps
    | with_reducible apply Block.noteTags_keeps

theorem Block.sendDump_keeps {qs : List Piece} {a₀ b : Block} {sd : Side} {a : Nat} {bs : List Byte} {tags : List Nat} (inside : Within [.fresh, .ins, .qy, .reg Off.qyTags] qs) (before : Kept qs a₀ b) :
    Kept qs a₀ (Block.sendDump b sd a bs tags) := Kept.step (Block.sendDump_kept _ _ _ _ _) inside before

theorem Block.queueDump_kept (b : Block) : Kept [.chans, .tl] b (Block.queueDump b) := by
  unfold Block.queueDump
  repeat' first
    | with_reducible assumption
    | with_reducible apply Kept.refl
    | with_reducible apply Within.refl
    | ((with_reducible apply Within.of); rfl)
    | ((with_reducible apply Within.cons); (apply Piece.inside_of; rfl))
    | ((with_reducible apply Within.cons); apply Or.inr)
    | with_reducible apply Within.nil
    | with_reducible apply List.mem_cons_self
    | with_reducible apply List.mem_cons_of_mem
    | (extract_lets +onlyGivenNames x
       first
       | (guard_hyp x : Block := _
          refine Kept.cut (ps := [.chans, .tl]) (b := b) (x := x) ?_ fun hx => ?_
          on_goal 1 => subst x
          on_goal 2 => try clear_value x)
       | clear_value x
       | skip)
    | (simp only [Kept.by_fields]; with_reducible apply Kept.fields <;>
         first | with_reducible exact Or.inl rfl | (apply Or.inr; apply Piece.mem_of; rfl) | exact Or.inr (by simp; done) | (refine Or.inr ⟨?_, ?_⟩ <;> first | (apply Or.inl; apply Piece.mem_of; rfl) | exact Or.inl (by simp; done) | with_reducible exact Or.inr rfl | with_reducible exact Or.inr ⟨rfl, rfl, rfl, rfl⟩ | with_reducible exact Or.inr ⟨rfl, rfl, rfl, rfl, rfl⟩ | (refine ⟨?_, ?_⟩ <;> first | (apply Or.inl; apply Piece.mem_of; rfl) | exact Or.inl (by simp; done) | with_reducible exact Or.inr rfl)) | skip)
    | (with_reducible apply Kept.each; intro _ _ _)
    | with_reducible apply Block.modChan_keeps
    | with_reducible apply Block.wakeChan_keeps
    | with_reducible apply Kept.ite
    | split

theorem Block.queueDump_keeps {qs : List Piece} {a₀ b : Block} (inside : Within [.chans, .tl] qs) (before : Kept qs a₀ b) :
    Kept qs a₀ (Block.queueDump b) := Kept.step (Block.queueDump_kept _) inside before

theorem Block.beginSnapshot_kept (b : Block) (d : DumpParams) : Kept [.chans, .tl] b (Block.beginSnapshot b d) := by
  unfold Block.beginSnapshot
  repeat' first
    | with_reducible assumption
    | with_reducible apply Kept.refl
    | with_reducible apply Within.refl
    | ((with_reducible apply Within.of); rfl)
    | ((with_reducible apply Within.cons); (apply Piece.inside_of; rfl))
    | ((with_reducible apply Within.cons); apply Or.inr)
    | with_reducible apply Within.nil
    | with_reducible apply List.mem_cons_self
    | with_reducible apply List.mem_cons_of_mem
    | (extract_lets +onlyGivenNames x
       first
       | (guard_hyp x : Block := _
          refine Kept.cut (ps := [.chans, .tl]) (b := b) (x := x) ?_ fun hx => ?_
          on_goal 1 => subst x
          on_goal 2 => try clear_value x)
       | clear_value x
       | skip)
    | (simp only [Kept.by_fields]; with_reducible apply Kept.fields <;>
         first | with_reducible exact Or.inl rfl | (apply Or.inr; apply Piece.mem_of; rfl) | exact Or.inr (by simp; done) | (refine Or.inr ⟨?_, ?_⟩ <;> first | (apply Or.inl; apply Piece.mem_of; rfl) | exact Or.inl (by simp; done) | with_reducible exact Or.inr rfl | with_reducible exact Or.inr ⟨rfl, rfl, rfl, rfl⟩ | with_reducible exact Or.inr ⟨rfl, rfl, rfl, rfl, rfl⟩ | (refine ⟨?_, ?_⟩ <;> first | (apply Or.inl; apply Piece.mem_of; rfl) | exact Or.inl (by simp; done) | with_reducible exact Or.inr rfl)) | skip)
    | with_reducible apply Block.takeShadows_keeps
    | with_reducible apply Block.queueDump_keeps
    | with_reducible apply Kept.ite
    | split

theorem Block.beginSnapshot_keeps {qs : List Piece} {a₀ b : Block} {d : DumpParams} (inside : Within [.chans, .tl] qs) (before : Kept qs a₀ b) :
    Kept qs a₀ (Block.beginSnapshot b d) := Kept.step (Block.beginSnapshot_kept _ _) inside before

theorem Block.remoteSnapshot_kept (b : Block) (d : DumpParams) : Kept [.chans, .events, .fresh, .ins, .qy, .reg Off.lgAlarm, .reg Off.qyTags, .reg Off.tlAlarm, .reg Off.tlSkipped, .tl] b (Block.remoteSnapshot b d) := by
  unfold Block.remoteSnapshot
  repeat' first
    | with_reducible assumption
    | with_reducible apply Kept.refl
    | with_reducible apply Within.refl
    | ((with_reducible apply Within.of); rfl)
    | ((with_reducible apply Within.cons); (apply Piece.inside_of; rfl))
    | ((with_reducible apply Within.cons); apply Or.inr)
    | with_reducible apply Within.nil
    | with_reducible apply List.mem_cons_self
    | with_reducible apply List.mem_cons_of_mem
    | (extract_lets +onlyGivenNames x
       first
       | (guard_hyp x : Block := _
          refine Kept.cut (ps := [.chans, .events, .fresh, .ins, .qy, .reg Off.lgAlarm, .reg Off.qyTags, .reg Off.tlAlarm, .reg Off.tlSkipped, .tl]) (b := b) (x := x) ?_ fun hx => ?_
          on_goal 1 => subst x
          on_goal 2 => try clear_value x)
       | clear_value x
       | skip)
    | (simp only [Kept.by_fields]; with_reducible apply Kept.fields <;>
         first | with_reducible exact Or.inl rfl | (apply Or.inr; apply Piece.mem_of; rfl) | exact Or.inr (by simp; done) | (refine Or.inr ⟨?_, ?_⟩ <;> first | (apply Or.inl; apply Piece.mem_of; rfl) | exact Or.inl (by simp; done) | with_reducible exact Or.inr rfl | with_reducible exact Or.inr ⟨rfl, rfl, rfl, rfl⟩ | with_reducible exact Or.inr ⟨rfl, rfl, rfl, rfl, rfl⟩ | (refine ⟨?_, ?_⟩ <;> first | (apply Or.inl; apply Piece.mem_of; rfl) | exact Or.inl (by simp; done) | with_reducible exact Or.inr rfl)) | skip)
    | with_reducible apply Block.orReg_keeps
    | with_reducible apply Block.event_keeps
    | with_reducible apply Block.skipStrobe_keeps
    | with_reducible apply Block.beginSnapshot_keeps
    | with_reducible apply Block.sendDump_keeps
    | with_reducible apply Block.dumpFail_keeps
    | with_reducible apply Kept.ite
    | split

theorem Block.remoteSnapshot_keeps {qs : List Piece} {a₀ b : Block} {d : DumpParams} (inside : Within [.chans, .events, .fresh, .ins, .qy, .reg Off.lgAlarm, .reg Off.qyTags, .reg Off.tlAlarm, .reg Off.tlSkipped, .tl] qs) (before : Kept qs a₀ b) :
    Kept qs a₀ (Block.remoteSnapshot b d) := Kept.step (Block.remoteSnapshot_kept _ _) inside before

theorem Block.adoptDump_kept (b : Block) : Kept [.tl] b (Block.adoptDump b) := by
  unfold Block.adoptDump
  repeat' first
    | with_reducible assumption
    | with_reducible apply Kept.refl
    | with_reducible apply Within.refl
    | ((with_reducible apply Within.of); rfl)
    | ((with_reducible apply Within.cons); (apply Piece.inside_of; rfl))
    | ((with_reducible apply Within.cons); apply Or.inr)
    | with_reducible apply Within.nil
    | with_reducible apply List.mem_cons_self
    | with_reducible apply List.mem_cons_of_mem
    | (extract_lets +onlyGivenNames x
       first
       | (guard_hyp x : Block := _
          refine Kept.cut (ps := [.tl]) (b := b) (x := x) ?_ fun hx => ?_
          on_goal 1 => subst x
          on_goal 2 => try clear_value x)
       | clear_value x
       | skip)
    | (simp only [Kept.by_fields]; with_reducible apply Kept.fields <;>
         first | with_reducible exact Or.inl rfl | (apply Or.inr; apply Piece.mem_of; rfl) | exact Or.inr (by simp; done) | (refine Or.inr ⟨?_, ?_⟩ <;> first | (apply Or.inl; apply Piece.mem_of; rfl) | exact Or.inl (by simp; done) | with_reducible exact Or.inr rfl | with_reducible exact Or.inr ⟨rfl, rfl, rfl, rfl⟩ | with_reducible exact Or.inr ⟨rfl, rfl, rfl, rfl, rfl⟩ | (refine ⟨?_, ?_⟩ <;> first | (apply Or.inl; apply Piece.mem_of; rfl) | exact Or.inl (by simp; done) | with_reducible exact Or.inr rfl)) | skip)
    | split

theorem Block.adoptDump_keeps {qs : List Piece} {a₀ b : Block} (inside : Within [.tl] qs) (before : Kept qs a₀ b) :
    Kept qs a₀ (Block.adoptDump b) := Kept.step (Block.adoptDump_kept _) inside before

theorem Block.strobe_kept (b : Block) : Kept [.chans, .events, .fresh, .ins, .qy, .reg Off.lgAlarm, .reg Off.qyTags, .reg Off.tlAlarm, .reg Off.tlSkipped, .tl] b (Block.strobe b) := by
  unfold Block.strobe
  repeat' first
    | with_reducible assumption
    | with_reducible apply Kept.refl
    | with_reducible apply Within.refl
    | ((with_reducible apply Within.of); rfl)
    | ((with_reducible apply Within.cons); (apply Piece.inside_of; rfl))
    | ((with_reducible apply Within.cons); apply Or.inr)
    | with_reducible apply Within.nil
    | with_reducible apply List.mem_cons_self
    | with_reducible apply List.mem_cons_of_mem
    | with_reducible apply Block.skipStrobe_keeps
    | with_reducible apply Block.remoteSnapshot_keeps
    | with_reducible apply Block.beginSnapshot_keeps
    | with_reducible apply Kept.ite
    | split

theorem Block.strobe_keeps {qs : List Piece} {a₀ b : Block} (inside : Within [.chans, .events, .fresh, .ins, .qy, .reg Off.lgAlarm, .reg Off.qyTags, .reg Off.tlAlarm, .reg Off.tlSkipped, .tl] qs) (before : Kept qs a₀ b) :
    Kept qs a₀ (Block.strobe b) := Kept.step (Block.strobe_kept _) inside before

theorem Block.dumpRest_kept (b : Block) (n : Nat) : Kept [.berths, .chan n, .cnt, .prot, .reg (tlOff Off.tlOvf n), .tl] b (Block.dumpRest b n) := by
  unfold Block.dumpRest
  repeat' first
    | with_reducible assumption
    | with_reducible apply Kept.refl
    | with_reducible apply Within.refl
    | ((with_reducible apply Within.of); rfl)
    | ((with_reducible apply Within.cons); (apply Piece.inside_of; rfl))
    | ((with_reducible apply Within.cons); apply Or.inr)
    | with_reducible apply Within.nil
    | with_reducible apply List.mem_cons_self
    | with_reducible apply List.mem_cons_of_mem
    | (with_reducible apply Kept.each; intro _ _ _)
    | with_reducible apply Block.noteBg_keeps
    | with_reducible apply Block.countBulk_keeps
    | with_reducible apply Block.dumpGranule_keeps
    | with_reducible apply Kept.ite
    | split

theorem Block.dumpRest_keeps {qs : List Piece} {a₀ b : Block} {n : Nat} (inside : Within [.berths, .chan n, .cnt, .prot, .reg (tlOff Off.tlOvf n), .tl] qs) (before : Kept qs a₀ b) :
    Kept qs a₀ (Block.dumpRest b n) := Kept.step (Block.dumpRest_kept _ _) inside before

theorem Block.snapshotDone_kept (b : Block) : Kept [.berths, .chans, .cnt, .prot, .regs, .tl] b (Block.snapshotDone b) := by
  unfold Block.snapshotDone
  repeat' first
    | with_reducible assumption
    | with_reducible apply Kept.refl
    | with_reducible apply Within.refl
    | ((with_reducible apply Within.of); rfl)
    | ((with_reducible apply Within.cons); (apply Piece.inside_of; rfl))
    | ((with_reducible apply Within.cons); apply Or.inr)
    | with_reducible apply Within.nil
    | with_reducible apply List.mem_cons_self
    | with_reducible apply List.mem_cons_of_mem
    | (extract_lets +onlyGivenNames x
       first
       | (guard_hyp x : Block := _
          refine Kept.cut (ps := [.berths, .chans, .cnt, .prot, .regs, .tl]) (b := b) (x := x) ?_ fun hx => ?_
          on_goal 1 => subst x
          on_goal 2 => try clear_value x)
       | clear_value x
       | skip)
    | (simp only [Kept.by_fields]; with_reducible apply Kept.fields <;>
         first | with_reducible exact Or.inl rfl | (apply Or.inr; apply Piece.mem_of; rfl) | exact Or.inr (by simp; done) | (refine Or.inr ⟨?_, ?_⟩ <;> first | (apply Or.inl; apply Piece.mem_of; rfl) | exact Or.inl (by simp; done) | with_reducible exact Or.inr rfl | with_reducible exact Or.inr ⟨rfl, rfl, rfl, rfl⟩ | with_reducible exact Or.inr ⟨rfl, rfl, rfl, rfl, rfl⟩ | (refine ⟨?_, ?_⟩ <;> first | (apply Or.inl; apply Piece.mem_of; rfl) | exact Or.inl (by simp; done) | with_reducible exact Or.inr rfl)) | skip)
    | (with_reducible apply Kept.each; intro _ _ _)
    | with_reducible apply Block.dumpRest_keeps
    | with_reducible apply Kept.ite
    | split

theorem Block.snapshotDone_keeps {qs : List Piece} {a₀ b : Block} (inside : Within [.berths, .chans, .cnt, .prot, .regs, .tl] qs) (before : Kept qs a₀ b) :
    Kept qs a₀ (Block.snapshotDone b) := Kept.step (Block.snapshotDone_kept _) inside before

theorem Block.windowEnd_kept (b : Block) : Kept [.tl] b (Block.windowEnd b) := by
  unfold Block.windowEnd
  repeat' first
    | with_reducible assumption
    | with_reducible apply Kept.refl
    | with_reducible apply Within.refl
    | ((with_reducible apply Within.of); rfl)
    | ((with_reducible apply Within.cons); (apply Piece.inside_of; rfl))
    | ((with_reducible apply Within.cons); apply Or.inr)
    | with_reducible apply Within.nil
    | with_reducible apply List.mem_cons_self
    | with_reducible apply List.mem_cons_of_mem
    | (extract_lets +onlyGivenNames x
       first
       | (guard_hyp x : Block := _
          refine Kept.cut (ps := [.tl]) (b := b) (x := x) ?_ fun hx => ?_
          on_goal 1 => subst x
          on_goal 2 => try clear_value x)
       | (have _t : _ → Block := x; clear _t; subst x; beta_reduce)
       | (have _t : _ → _ := x; clear _t; subst x; beta_reduce)
       | clear_value x
       | skip)
    | (simp only [Kept.by_fields]; with_reducible apply Kept.fields <;>
         first | with_reducible exact Or.inl rfl | (apply Or.inr; apply Piece.mem_of; rfl) | exact Or.inr (by simp; done) | (refine Or.inr ⟨?_, ?_⟩ <;> first | (apply Or.inl; apply Piece.mem_of; rfl) | exact Or.inl (by simp; done) | with_reducible exact Or.inr rfl | with_reducible exact Or.inr ⟨rfl, rfl, rfl, rfl⟩ | with_reducible exact Or.inr ⟨rfl, rfl, rfl, rfl, rfl⟩ | (refine ⟨?_, ?_⟩ <;> first | (apply Or.inl; apply Piece.mem_of; rfl) | exact Or.inl (by simp; done) | with_reducible exact Or.inr rfl)) | skip)
    | with_reducible apply Kept.ite
    | split

theorem Block.windowEnd_keeps {qs : List Piece} {a₀ b : Block} (inside : Within [.tl] qs) (before : Kept qs a₀ b) :
    Kept qs a₀ (Block.windowEnd b) := Kept.step (Block.windowEnd_kept _) inside before

theorem Block.snap_kept (b : Block) : Kept [.chans, .events, .fresh, .ins, .qy, .reg Off.lgAlarm, .reg Off.qyTags, .reg Off.tlAlarm, .reg Off.tlSkipped, .tl] b (Block.snap b) := by
  unfold Block.snap
  repeat' first
    | with_reducible assumption
    | with_reducible apply Kept.refl
    | with_reducible apply Within.refl
    | ((with_reducible apply Within.of); rfl)
    | ((with_reducible apply Within.cons); (apply Piece.inside_of; rfl))
    | ((with_reducible apply Within.cons); apply Or.inr)
    | with_reducible apply Within.nil
    | with_reducible apply List.mem_cons_self
    | with_reducible apply List.mem_cons_of_mem
    | with_reducible apply Block.orReg_keeps
    | with_reducible apply Block.strobe_keeps
    | with_reducible apply Kept.ite
    | split

theorem Block.snap_keeps {qs : List Piece} {a₀ b : Block} (inside : Within [.chans, .events, .fresh, .ins, .qy, .reg Off.lgAlarm, .reg Off.qyTags, .reg Off.tlAlarm, .reg Off.tlSkipped, .tl] qs) (before : Kept qs a₀ b) :
    Kept qs a₀ (Block.snap b) := Kept.step (Block.snap_kept _) inside before

theorem Block.clearTallies_kept (b : Block) : Kept [.regs, .tl] b (Block.clearTallies b) := by
  unfold Block.clearTallies
  repeat' first
    | with_reducible assumption
    | with_reducible apply Kept.refl
    | with_reducible apply Within.refl
    | ((with_reducible apply Within.of); rfl)
    | ((with_reducible apply Within.cons); (apply Piece.inside_of; rfl))
    | ((with_reducible apply Within.cons); apply Or.inr)
    | with_reducible apply Within.nil
    | with_reducible apply List.mem_cons_self
    | with_reducible apply List.mem_cons_of_mem
    | (extract_lets +onlyGivenNames x
       first
       | (guard_hyp x : Block := _
          refine Kept.cut (ps := [.regs, .tl]) (b := b) (x := x) ?_ fun hx => ?_
          on_goal 1 => subst x
          on_goal 2 => try clear_value x)
       | clear_value x
       | skip)
    | (simp only [Kept.by_fields]; with_reducible apply Kept.fields <;>
         first | with_reducible exact Or.inl rfl | (apply Or.inr; apply Piece.mem_of; rfl) | exact Or.inr (by simp; done) | (refine Or.inr ⟨?_, ?_⟩ <;> first | (apply Or.inl; apply Piece.mem_of; rfl) | exact Or.inl (by simp; done) | with_reducible exact Or.inr rfl | with_reducible exact Or.inr ⟨rfl, rfl, rfl, rfl⟩ | with_reducible exact Or.inr ⟨rfl, rfl, rfl, rfl, rfl⟩ | (refine ⟨?_, ?_⟩ <;> first | (apply Or.inl; apply Piece.mem_of; rfl) | exact Or.inl (by simp; done) | with_reducible exact Or.inr rfl)) | skip)
    | (with_reducible apply Kept.each; intro _ _ _)
    | with_reducible apply Block.clrReg_keeps

theorem Block.clearTallies_keeps {qs : List Piece} {a₀ b : Block} (inside : Within [.regs, .tl] qs) (before : Kept qs a₀ b) :
    Kept qs a₀ (Block.clearTallies b) := Kept.step (Block.clearTallies_kept _) inside before

theorem Block.logRead_kept (b : Block) (m : ManRef) (area : Nat) (count : Nat) (first : Nat) : Kept [.ins, .running, .slots] b (Block.logRead b m area count first) := by
  unfold Block.logRead
  repeat' first
    | with_reducible assumption
    | with_reducible apply Kept.refl
    | with_reducible apply Within.refl
    | ((with_reducible apply Within.of); rfl)
    | ((with_reducible apply Within.cons); (apply Piece.inside_of; rfl))
    | ((with_reducible apply Within.cons); apply Or.inr)
    | with_reducible apply Within.nil
    | with_reducible apply List.mem_cons_self
    | with_reducible apply List.mem_cons_of_mem
    | with_reducible apply Block.finish_keeps
    | with_reducible apply Kept.ite
    | split

theorem Block.logRead_keeps {qs : List Piece} {a₀ b : Block} {m : ManRef} {area : Nat} {count : Nat} {first : Nat} (inside : Within [.ins, .running, .slots] qs) (before : Kept qs a₀ b) :
    Kept qs a₀ (Block.logRead b m area count first) := Kept.step (Block.logRead_kept _ _ _ _ _) inside before

theorem Block.ackTrips_kept (b : Block) (ix : Nat) : Kept [.lg] b (Block.ackTrips b ix) := by
  unfold Block.ackTrips
  repeat' first
    | with_reducible assumption
    | with_reducible apply Kept.refl
    | with_reducible apply Within.refl
    | ((with_reducible apply Within.of); rfl)
    | ((with_reducible apply Within.cons); (apply Piece.inside_of; rfl))
    | ((with_reducible apply Within.cons); apply Or.inr)
    | with_reducible apply Within.nil
    | with_reducible apply List.mem_cons_self
    | with_reducible apply List.mem_cons_of_mem
    | (extract_lets +onlyGivenNames x
       first
       | (guard_hyp x : Block := _
          refine Kept.cut (ps := [.lg]) (b := b) (x := x) ?_ fun hx => ?_
          on_goal 1 => subst x
          on_goal 2 => try clear_value x)
       | (guard_hyp x : Logbook := _; subst x)
       | clear_value x
       | skip)
    | (simp only [Kept.by_fields]; with_reducible apply Kept.fields <;>
         first | with_reducible exact Or.inl rfl | (apply Or.inr; apply Piece.mem_of; rfl) | exact Or.inr (by simp; done) | (refine Or.inr ⟨?_, ?_⟩ <;> first | (apply Or.inl; apply Piece.mem_of; rfl) | exact Or.inl (by simp; done) | with_reducible exact Or.inr rfl | with_reducible exact Or.inr ⟨rfl, rfl, rfl, rfl⟩ | with_reducible exact Or.inr ⟨rfl, rfl, rfl, rfl, rfl⟩ | (refine ⟨?_, ?_⟩ <;> first | (apply Or.inl; apply Piece.mem_of; rfl) | exact Or.inl (by simp; done) | with_reducible exact Or.inr rfl)) | skip)
    | with_reducible apply Kept.ite
    | split

theorem Block.ackTrips_keeps {qs : List Piece} {a₀ b : Block} {ix : Nat} (inside : Within [.lg] qs) (before : Kept qs a₀ b) :
    Kept qs a₀ (Block.ackTrips b ix) := Kept.step (Block.ackTrips_kept _ _) inside before

theorem Block.tripAck_kept (b : Block) (m : ManRef) (tide : Tide) : Kept [.cnt, .events, .fws, .ins, .lanes, .lg, .mf, .pw, .qy, .regs, .running, .sides, .slots, .tl] b (Block.tripAck b m tide) := by
  unfold Block.tripAck
  repeat' first
    | with_reducible assumption
    | with_reducible apply Kept.refl
    | with_reducible apply Within.refl
    | ((with_reducible apply Within.of); rfl)
    | ((with_reducible apply Within.cons); (apply Piece.inside_of; rfl))
    | ((with_reducible apply Within.cons); apply Or.inr)
    | with_reducible apply Within.nil
    | with_reducible apply List.mem_cons_self
    | with_reducible apply List.mem_cons_of_mem
    | (extract_lets +onlyGivenNames x
       first
       | (guard_hyp x : Block := _
          refine Kept.cut (ps := [.cnt, .events, .fws, .ins, .lanes, .lg, .mf, .pw, .qy, .regs, .running, .sides, .slots, .tl]) (b := b) (x := x) ?_ fun hx => ?_
          on_goal 1 => subst x
          on_goal 2 => try clear_value x)
       | (guard_hyp x : Power := _; subst x)
       | clear_value x
       | skip)
    | (simp only [Kept.by_fields]; with_reducible apply Kept.fields <;>
         first | with_reducible exact Or.inl rfl | (apply Or.inr; apply Piece.mem_of; rfl) | exact Or.inr (by simp; done) | (refine Or.inr ⟨?_, ?_⟩ <;> first | (apply Or.inl; apply Piece.mem_of; rfl) | exact Or.inl (by simp; done) | with_reducible exact Or.inr rfl | with_reducible exact Or.inr ⟨rfl, rfl, rfl, rfl⟩ | with_reducible exact Or.inr ⟨rfl, rfl, rfl, rfl, rfl⟩ | (refine ⟨?_, ?_⟩ <;> first | (apply Or.inl; apply Piece.mem_of; rfl) | exact Or.inl (by simp; done) | with_reducible exact Or.inr rfl)) | skip)
    | with_reducible apply Block.finish_keeps
    | with_reducible apply Block.event_keeps
    | with_reducible apply Block.ackTrips_keeps
    | with_reducible apply Block.checkOpen_keeps
    | with_reducible apply Kept.ite
    | split

theorem Block.tripAck_keeps {qs : List Piece} {a₀ b : Block} {m : ManRef} {tide : Tide} (inside : Within [.cnt, .events, .fws, .ins, .lanes, .lg, .mf, .pw, .qy, .regs, .running, .sides, .slots, .tl] qs) (before : Kept qs a₀ b) :
    Kept qs a₀ (Block.tripAck b m tide) := Kept.step (Block.tripAck_kept _ _ _) inside before

theorem Block.touchSession_kept (b : Block) (x : FwSession) : Kept [.mf] b (Block.touchSession b x) := by
  unfold Block.touchSession
  repeat' first
    | with_reducible assumption
    | with_reducible apply Kept.refl
    | with_reducible apply Within.refl
    | ((with_reducible apply Within.of); rfl)
    | ((with_reducible apply Within.cons); (apply Piece.inside_of; rfl))
    | ((with_reducible apply Within.cons); apply Or.inr)
    | with_reducible apply Within.nil
    | with_reducible apply List.mem_cons_self
    | with_reducible apply List.mem_cons_of_mem
    | (extract_lets +onlyGivenNames x
       first
       | (guard_hyp x : Block := _
          refine Kept.cut (ps := [.mf]) (b := b) (x := x) ?_ fun hx => ?_
          on_goal 1 => subst x
          on_goal 2 => try clear_value x)
       | (guard_hyp x : Manifests := _; subst x)
       | clear_value x
       | skip)
    | (simp only [Kept.by_fields]; with_reducible apply Kept.fields <;>
         first | with_reducible exact Or.inl rfl | (apply Or.inr; apply Piece.mem_of; rfl) | exact Or.inr (by simp; done) | (refine Or.inr ⟨?_, ?_⟩ <;> first | (apply Or.inl; apply Piece.mem_of; rfl) | exact Or.inl (by simp; done) | with_reducible exact Or.inr rfl | with_reducible exact Or.inr ⟨rfl, rfl, rfl, rfl⟩ | with_reducible exact Or.inr ⟨rfl, rfl, rfl, rfl, rfl⟩ | (refine ⟨?_, ?_⟩ <;> first | (apply Or.inl; apply Piece.mem_of; rfl) | exact Or.inl (by simp; done) | with_reducible exact Or.inr rfl)) | skip)
    | with_reducible apply Kept.ite
    | split

theorem Block.touchSession_keeps {qs : List Piece} {a₀ b : Block} {x : FwSession} (inside : Within [.mf] qs) (before : Kept qs a₀ b) :
    Kept qs a₀ (Block.touchSession b x) := Kept.step (Block.touchSession_kept _ _) inside before

theorem Block.inSession_keeps {qs : List Piece} {a₀ b : Block} {m : ManRef} {f : Block → FwSession → Block}
    (inside : Within [.ins, .mf, .running, .slots] qs) (before : Kept qs a₀ b) (each : ∀ c x, Kept qs a₀ c → Kept qs a₀ (f c x)) :
    Kept qs a₀ (Block.inSession b m f) := by
  have w : Within [.ins, .running, .slots] qs := fun p h => inside p (by simp at h ⊢; tauto)
  have v : Within [.mf] qs := fun p h => inside p (by simp at h ⊢; tauto)
  unfold Block.inSession
  repeat' first
    | exact Block.finish_keeps w before
    | exact each _ _ (Block.touchSession_keeps v before)
    | split

theorem Block.fwBegin_kept (b : Block) (m : ManRef) (total : Nat) : Kept [.fresh, .ins, .mf, .running, .slots] b (Block.fwBegin b m total) := by
  unfold Block.fwBegin
  repeat' first
    | with_reducible assumption
    | with_reducible apply Kept.refl
    | with_reducible apply Within.refl
    | ((with_reducible apply Within.of); rfl)
    | ((with_reducible apply Within.cons); (apply Piece.inside_of; rfl))
    | ((with_reducible apply Within.cons); apply Or.inr)
    | with_reducible apply Within.nil
    | with_reducible apply List.mem_cons_self
    | with_reducible apply List.mem_cons_of_mem
    | (extract_lets +onlyGivenNames x
       first
       | (guard_hyp x : Block := _
          refine Kept.cut (ps := [.fresh, .ins, .mf, .running, .slots]) (b := b) (x := x) ?_ fun hx => ?_
          on_goal 1 => subst x
          on_goal 2 => try clear_value x)
       | (guard_hyp x : Manifests := _; subst x)
       | clear_value x
       | skip)
    | (simp only [Kept.by_fields]; with_reducible apply Kept.fields <;>
         first | with_reducible exact Or.inl rfl | (apply Or.inr; apply Piece.mem_of; rfl) | exact Or.inr (by simp; done) | (refine Or.inr ⟨?_, ?_⟩ <;> first | (apply Or.inl; apply Piece.mem_of; rfl) | exact Or.inl (by simp; done) | with_reducible exact Or.inr rfl | with_reducible exact Or.inr ⟨rfl, rfl, rfl, rfl⟩ | with_reducible exact Or.inr ⟨rfl, rfl, rfl, rfl, rfl⟩ | (refine ⟨?_, ?_⟩ <;> first | (apply Or.inl; apply Piece.mem_of; rfl) | exact Or.inl (by simp; done) | with_reducible exact Or.inr rfl)) | skip)
    | with_reducible apply Block.finish_keeps
    | with_reducible apply Block.draw_keeps
    | with_reducible apply Kept.ite
    | split

theorem Block.fwBegin_keeps {qs : List Piece} {a₀ b : Block} {m : ManRef} {total : Nat} (inside : Within [.fresh, .ins, .mf, .running, .slots] qs) (before : Kept qs a₀ b) :
    Kept qs a₀ (Block.fwBegin b m total) := Kept.step (Block.fwBegin_kept _ _ _) inside before

theorem Block.flashDone_kept (b : Block) : Kept [.ins, .mf, .running, .slots] b (Block.flashDone b) := by
  unfold Block.flashDone
  repeat' first
    | with_reducible assumption
    | with_reducible apply Kept.refl
    | with_reducible apply Within.refl
    | ((with_reducible apply Within.of); rfl)
    | ((with_reducible apply Within.cons); (apply Piece.inside_of; rfl))
    | ((with_reducible apply Within.cons); apply Or.inr)
    | with_reducible apply Within.nil
    | with_reducible apply List.mem_cons_self
    | with_reducible apply List.mem_cons_of_mem
    | (extract_lets +onlyGivenNames x
       first
       | (guard_hyp x : Block := _
          refine Kept.cut (ps := [.ins, .mf, .running, .slots]) (b := b) (x := x) ?_ fun hx => ?_
          on_goal 1 => subst x
          on_goal 2 => try clear_value x)
       | (guard_hyp x : Manifests := _; subst x)
       | clear_value x
       | skip)
    | (simp only [Kept.by_fields]; with_reducible apply Kept.fields <;>
         first | with_reducible exact Or.inl rfl | (apply Or.inr; apply Piece.mem_of; rfl) | exact Or.inr (by simp; done) | (refine Or.inr ⟨?_, ?_⟩ <;> first | (apply Or.inl; apply Piece.mem_of; rfl) | exact Or.inl (by simp; done) | with_reducible exact Or.inr rfl | with_reducible exact Or.inr ⟨rfl, rfl, rfl, rfl⟩ | with_reducible exact Or.inr ⟨rfl, rfl, rfl, rfl, rfl⟩ | (refine ⟨?_, ?_⟩ <;> first | (apply Or.inl; apply Piece.mem_of; rfl) | exact Or.inl (by simp; done) | with_reducible exact Or.inr rfl)) | skip)
    | with_reducible apply Block.finish_keeps
    | with_reducible apply Kept.ite
    | split

theorem Block.flashDone_keeps {qs : List Piece} {a₀ b : Block} (inside : Within [.ins, .mf, .running, .slots] qs) (before : Kept qs a₀ b) :
    Kept qs a₀ (Block.flashDone b) := Kept.step (Block.flashDone_kept _) inside before

theorem Block.endLanePrbs_kept (b : Block) (m : ManRef) (l : Nat) : Kept [.cnt, .events, .fws, .ins, .lanes, .mf, .pw, .qy, .regs, .running, .sides, .slots, .tl] b (Block.endLanePrbs b m l) := by
  unfold Block.endLanePrbs
  repeat' first
    | with_reducible assumption
    | with_reducible apply Kept.refl
    | with_reducible apply Within.refl
    | ((with_reducible apply Within.of); rfl)
    | ((with_reducible apply Within.cons); (apply Piece.inside_of; rfl))
    | ((with_reducible apply Within.cons); apply Or.inr)
    | with_reducible apply Within.nil
    | with_reducible apply List.mem_cons_self
    | with_reducible apply List.mem_cons_of_mem
    | (extract_lets +onlyGivenNames x
       first
       | (guard_hyp x : Block := _
          refine Kept.cut (ps := [.cnt, .events, .fws, .ins, .lanes, .mf, .pw, .qy, .regs, .running, .sides, .slots, .tl]) (b := b) (x := x) ?_ fun hx => ?_
          on_goal 1 => subst x
          on_goal 2 => try clear_value x)
       | clear_value x
       | skip)
    | with_reducible apply Block.modLane_keeps
    | with_reducible apply Block.outcome_keeps
    | with_reducible apply Kept.ite
    | split

theorem Block.endLanePrbs_keeps {qs : List Piece} {a₀ b : Block} {m : ManRef} {l : Nat} (inside : Within [.cnt, .events, .fws, .ins, .lanes, .mf, .pw, .qy, .regs, .running, .sides, .slots, .tl] qs) (before : Kept qs a₀ b) :
    Kept qs a₀ (Block.endLanePrbs b m l) := Kept.step (Block.endLanePrbs_kept _ _ _) inside before

theorem Block.undueLanes_kept (b : Block) (r : CalRun) : Kept [.lanes] b (Block.undueLanes b r) := by
  unfold Block.undueLanes
  repeat' first
    | with_reducible assumption
    | with_reducible apply Kept.refl
    | with_reducible apply Within.refl
    | ((with_reducible apply Within.of); rfl)
    | ((with_reducible apply Within.cons); (apply Piece.inside_of; rfl))
    | ((with_reducible apply Within.cons); apply Or.inr)
    | with_reducible apply Within.nil
    | with_reducible apply List.mem_cons_self
    | with_reducible apply List.mem_cons_of_mem
    | (with_reducible apply Kept.each; intro _ _ _)
    | with_reducible apply Block.modLane_keeps
    | with_reducible apply Kept.ite
    | split

theorem Block.undueLanes_keeps {qs : List Piece} {a₀ b : Block} {r : CalRun} (inside : Within [.lanes] qs) (before : Kept qs a₀ b) :
    Kept qs a₀ (Block.undueLanes b r) := Kept.step (Block.undueLanes_kept _ _) inside before

theorem Block.forgetMan_kept (b : Block) (m : ManRef) : Kept [.cnt, .events, .fws, .ins, .lanes, .mf, .pw, .qy, .regs, .running, .sides, .slots, .sv, .tl] b (Block.forgetMan b m) := by
  unfold Block.forgetMan
  repeat' first
    | with_reducible assumption
    | with_reducible apply Kept.refl
    | with_reducible apply Within.refl
    | ((with_reducible apply Within.of); rfl)
    | ((with_reducible apply Within.cons); (apply Piece.inside_of; rfl))
    | ((with_reducible apply Within.cons); apply Or.inr)
    | with_reducible apply Within.nil
    | with_reducible apply List.mem_cons_self
    | with_reducible apply List.mem_cons_of_mem
    | (extract_lets +onlyGivenNames x
       first
       | (guard_hyp x : Block := _
          refine Kept.cut (ps := [.cnt, .events, .fws, .ins, .lanes, .mf, .pw, .qy, .regs, .running, .sides, .slots, .sv, .tl]) (b := b) (x := x) ?_ fun hx => ?_
          on_goal 1 => subst x
          on_goal 2 => try clear_value x)
       | (have _t : _ → Block := x; clear _t; subst x; beta_reduce)
       | (have _t : _ → _ := x; clear _t; subst x; beta_reduce)
       | (have _t : _ → _ → Block := x; clear _t; subst x; beta_reduce)
       | (have _t : _ → _ → _ := x; clear _t; subst x; beta_reduce)
       | (guard_hyp x : Manifests := _; subst x)
       | clear_value x
       | skip)
    | (simp only [Kept.by_fields]; with_reducible apply Kept.fields <;>
         first | with_reducible exact Or.inl rfl | (apply Or.inr; apply Piece.mem_of; rfl) | exact Or.inr (by simp; done) | (refine Or.inr ⟨?_, ?_⟩ <;> first | (apply Or.inl; apply Piece.mem_of; rfl) | exact Or.inl (by simp; done) | with_reducible exact Or.inr rfl | with_reducible exact Or.inr ⟨rfl, rfl, rfl, rfl⟩ | with_reducible exact Or.inr ⟨rfl, rfl, rfl, rfl, rfl⟩ | (refine ⟨?_, ?_⟩ <;> first | (apply Or.inl; apply Piece.mem_of; rfl) | exact Or.inl (by simp; done) | with_reducible exact Or.inr rfl)) | skip)
    | (with_reducible apply Kept.each; intro _ _ _)
    | with_reducible apply Block.modSide_keeps
    | with_reducible apply Block.endLanePrbs_keeps
    | with_reducible apply Block.undueLanes_keeps
    | with_reducible apply Kept.ite
    | split

theorem Block.forgetMan_keeps {qs : List Piece} {a₀ b : Block} {m : ManRef} (inside : Within [.cnt, .events, .fws, .ins, .lanes, .mf, .pw, .qy, .regs, .running, .sides, .slots, .sv, .tl] qs) (before : Kept qs a₀ b) :
    Kept qs a₀ (Block.forgetMan b m) := Kept.step (Block.forgetMan_kept _ _) inside before

theorem Block.calRunEnds_kept (b : Block) (r : CalRun) : Kept [.ins, .lanes, .running, .slots, .sv] b (Block.calRunEnds b r) := by
  unfold Block.calRunEnds
  repeat' first
    | with_reducible assumption
    | with_reducible apply Kept.refl
    | with_reducible apply Within.refl
    | ((with_reducible apply Within.of); rfl)
    | ((with_reducible apply Within.cons); (apply Piece.inside_of; rfl))
    | ((with_reducible apply Within.cons); apply Or.inr)
    | with_reducible apply Within.nil
    | with_reducible apply List.mem_cons_self
    | with_reducible apply List.mem_cons_of_mem
    | (extract_lets +onlyGivenNames x
       first
       | (guard_hyp x : Block := _
          refine Kept.cut (ps := [.ins, .lanes, .running, .slots, .sv]) (b := b) (x := x) ?_ fun hx => ?_
          on_goal 1 => subst x
          on_goal 2 => try clear_value x)
       | clear_value x
       | skip)
    | (simp only [Kept.by_fields]; with_reducible apply Kept.fields <;>
         first | with_reducible exact Or.inl rfl | (apply Or.inr; apply Piece.mem_of; rfl) | exact Or.inr (by simp; done) | (refine Or.inr ⟨?_, ?_⟩ <;> first | (apply Or.inl; apply Piece.mem_of; rfl) | exact Or.inl (by simp; done) | with_reducible exact Or.inr rfl | with_reducible exact Or.inr ⟨rfl, rfl, rfl, rfl⟩ | with_reducible exact Or.inr ⟨rfl, rfl, rfl, rfl, rfl⟩ | (refine ⟨?_, ?_⟩ <;> first | (apply Or.inl; apply Piece.mem_of; rfl) | exact Or.inl (by simp; done) | with_reducible exact Or.inr rfl)) | skip)
    | with_reducible apply Block.finish_keeps
    | with_reducible apply Block.undueLanes_keeps
    | with_reducible apply Kept.ite
    | split

theorem Block.calRunEnds_keeps {qs : List Piece} {a₀ b : Block} {r : CalRun} (inside : Within [.ins, .lanes, .running, .slots, .sv] qs) (before : Kept qs a₀ b) :
    Kept qs a₀ (Block.calRunEnds b r) := Kept.step (Block.calRunEnds_kept _ _) inside before

theorem Block.writeRoutes_kept (b : Block) (n : Nat) (l : List Word) : Kept [.regs] b (Block.writeRoutes b n l) := by
  induction l generalizing b n with
  | nil => exact Kept.refl _ _
  | cons x l ih => exact Kept.trans (Block.setReg_keeps (by simp [Within, Piece.inside]) (Kept.refl _ _)) (ih _ _)

theorem Block.writeRoutes_keeps {qs : List Piece} {a₀ b : Block} {n : Nat} {l : List Word} (inside : Within [.regs] qs) (before : Kept qs a₀ b) :
    Kept qs a₀ (Block.writeRoutes b n l) := Kept.step (Block.writeRoutes_kept _ _ _) inside before

theorem Block.writeRegion_kept (b : Block) (n : Nat) (r : RegionImage) : Kept [.regs] b (Block.writeRegion b n r) := by
  unfold Block.writeRegion
  repeat' first
    | with_reducible assumption
    | with_reducible apply Kept.refl
    | with_reducible apply Within.refl
    | ((with_reducible apply Within.of); rfl)
    | ((with_reducible apply Within.cons); (apply Piece.inside_of; rfl))
    | ((with_reducible apply Within.cons); apply Or.inr)
    | with_reducible apply Within.nil
    | with_reducible apply List.mem_cons_self
    | with_reducible apply List.mem_cons_of_mem
    | (extract_lets +onlyGivenNames x
       first
       | (guard_hyp x : Block := _
          refine Kept.cut (ps := [.regs]) (b := b) (x := x) ?_ fun hx => ?_
          on_goal 1 => subst x
          on_goal 2 => try clear_value x)
       | (have _t : _ → Block := x; clear _t; subst x; beta_reduce)
       | (have _t : _ → _ → Block := x; clear _t; subst x; beta_reduce)
       | (have _t : _ → _ → _ → Block := x; clear _t; subst x; beta_reduce)
       | clear_value x
       | skip)
    | with_reducible apply Block.setReg_keeps

theorem Block.writeRegion_keeps {qs : List Piece} {a₀ b : Block} {n : Nat} {r : RegionImage} (inside : Within [.regs] qs) (before : Kept qs a₀ b) :
    Kept qs a₀ (Block.writeRegion b n r) := Kept.step (Block.writeRegion_kept _ _ _) inside before

theorem Block.writeRegions_kept (b : Block) (n : Nat) (l : List RegionImage) : Kept [.regs] b (Block.writeRegions b n l) := by
  induction l generalizing b n with
  | nil => exact Kept.refl _ _
  | cons x l ih => exact Kept.trans (Block.writeRegion_keeps (by simp [Within, Piece.inside]) (Kept.refl _ _)) (ih _ _)

theorem Block.writeRegions_keeps {qs : List Piece} {a₀ b : Block} {n : Nat} {l : List RegionImage} (inside : Within [.regs] qs) (before : Kept qs a₀ b) :
    Kept qs a₀ (Block.writeRegions b n l) := Kept.step (Block.writeRegions_kept _ _ _) inside before

theorem Block.authBurst_kept (b : Block) : Kept [.events, .mf, .reg Off.lgAlarm] b (Block.authBurst b) := by
  unfold Block.authBurst
  repeat' first
    | with_reducible assumption
    | with_reducible apply Kept.refl
    | with_reducible apply Within.refl
    | ((with_reducible apply Within.of); rfl)
    | ((with_reducible apply Within.cons); (apply Piece.inside_of; rfl))
    | ((with_reducible apply Within.cons); apply Or.inr)
    | with_reducible apply Within.nil
    | with_reducible apply List.mem_cons_self
    | with_reducible apply List.mem_cons_of_mem
    | (extract_lets +onlyGivenNames x
       first
       | (guard_hyp x : Block := _
          refine Kept.cut (ps := [.events, .mf, .reg Off.lgAlarm]) (b := b) (x := x) ?_ fun hx => ?_
          on_goal 1 => subst x
          on_goal 2 => try clear_value x)
       | (guard_hyp x : Clocks := _; subst x)
       | (guard_hyp x : Manifests := _; subst x)
       | clear_value x
       | skip)
    | (simp only [Kept.by_fields]; with_reducible apply Kept.fields <;>
         first | with_reducible exact Or.inl rfl | (apply Or.inr; apply Piece.mem_of; rfl) | exact Or.inr (by simp; done) | (refine Or.inr ⟨?_, ?_⟩ <;> first | (apply Or.inl; apply Piece.mem_of; rfl) | exact Or.inl (by simp; done) | with_reducible exact Or.inr rfl | with_reducible exact Or.inr ⟨rfl, rfl, rfl, rfl⟩ | with_reducible exact Or.inr ⟨rfl, rfl, rfl, rfl, rfl⟩ | (refine ⟨?_, ?_⟩ <;> first | (apply Or.inl; apply Piece.mem_of; rfl) | exact Or.inl (by simp; done) | with_reducible exact Or.inr rfl)) | skip)
    | with_reducible apply Block.event_keeps
    | with_reducible apply Kept.ite
    | split

theorem Block.authBurst_keeps {qs : List Piece} {a₀ b : Block} (inside : Within [.events, .mf, .reg Off.lgAlarm] qs) (before : Kept qs a₀ b) :
    Kept qs a₀ (Block.authBurst b) := Kept.step (Block.authBurst_kept _) inside before

theorem Block.authFailed_kept (b : Block) : Kept [.count Off.mfAuthFail, .events, .mf, .reg Off.lgAlarm, .reg Off.mfAlarm] b (Block.authFailed b) := by
  unfold Block.authFailed
  repeat' first
    | with_reducible assumption
    | with_reducible apply Kept.refl
    | with_reducible apply Within.refl
    | ((with_reducible apply Within.of); rfl)
    | ((with_reducible apply Within.cons); (apply Piece.inside_of; rfl))
    | ((with_reducible apply Within.cons); apply Or.inr)
    | with_reducible apply Within.nil
    | with_reducible apply List.mem_cons_self
    | with_reducible apply List.mem_cons_of_mem
    | with_reducible apply Block.bumpW_keeps
    | with_reducible apply Block.orReg_keeps
    | with_reducible apply Block.authBurst_keeps

theorem Block.authFailed_keeps {qs : List Piece} {a₀ b : Block} (inside : Within [.count Off.mfAuthFail, .events, .mf, .reg Off.lgAlarm, .reg Off.mfAlarm] qs) (before : Kept qs a₀ b) :
    Kept qs a₀ (Block.authFailed b) := Kept.step (Block.authFailed_kept _) inside before

theorem Block.refuseMan_kept (b : Block) (o : Origin) (st : Nat) : Kept [.count Off.mfAuthFail, .count Off.mfRefused, .events, .ins, .mf, .reg Off.lgAlarm, .reg Off.mfAlarm] b (Block.refuseMan b o st) := by
  unfold Block.refuseMan
  repeat' first
    | with_reducible assumption
    | with_reducible apply Kept.refl
    | with_reducible apply Within.refl
    | ((with_reducible apply Within.of); rfl)
    | ((with_reducible apply Within.cons); (apply Piece.inside_of; rfl))
    | ((with_reducible apply Within.cons); apply Or.inr)
    | with_reducible apply Within.nil
    | with_reducible apply List.mem_cons_self
    | with_reducible apply List.mem_cons_of_mem
    | (extract_lets +onlyGivenNames x
       first
       | (guard_hyp x : Block := _
          refine Kept.cut (ps := [.count Off.mfAuthFail, .count Off.mfRefused, .events, .ins, .mf, .reg Off.lgAlarm, .reg Off.mfAlarm]) (b := b) (x := x) ?_ fun hx => ?_
          on_goal 1 => subst x
          on_goal 2 => try clear_value x)
       | clear_value x
       | skip)
    | with_reducible apply Block.authFailed_keeps
    | with_reducible apply Block.bumpW_keeps
    | with_reducible apply Block.push_keeps
    | with_reducible apply Kept.ite
    | split

theorem Block.refuseMan_keeps {qs : List Piece} {a₀ b : Block} {o : Origin} {st : Nat} (inside : Within [.count Off.mfAuthFail, .count Off.mfRefused, .events, .ins, .mf, .reg Off.lgAlarm, .reg Off.mfAlarm] qs) (before : Kept qs a₀ b) :
    Kept qs a₀ (Block.refuseMan b o st) := Kept.step (Block.refuseMan_kept _ _ _) inside before

theorem Block.writeSlot_kept (b : Block) (r : Fin 64) (h : Header) (st : SlotState) (status : Nat) : Kept [.mf, .slot (slotKey r (Header.seq h))] b (Block.writeSlot b r h st status) := by
  unfold Block.writeSlot
  repeat' first
    | with_reducible assumption
    | with_reducible apply Kept.refl
    | with_reducible apply Within.refl
    | ((with_reducible apply Within.of); rfl)
    | ((with_reducible apply Within.cons); (apply Piece.inside_of; rfl))
    | ((with_reducible apply Within.cons); apply Or.inr)
    | with_reducible apply Within.nil
    | with_reducible apply List.mem_cons_self
    | with_reducible apply List.mem_cons_of_mem
    | (extract_lets +onlyGivenNames x
       first
       | (guard_hyp x : Block := _
          refine Kept.cut (ps := [.mf, .slot (slotKey r (Header.seq h))]) (b := b) (x := x) ?_ fun hx => ?_
          on_goal 1 => subst x
          on_goal 2 => try clear_value x)
       | clear_value x
       | skip)
    | with_reducible apply Block.setRing_keeps
    | with_reducible apply Block.setSlot_keeps
    | with_reducible apply Kept.ite
    | split

theorem Block.writeSlot_keeps {qs : List Piece} {a₀ b : Block} {r : Fin 64} {h : Header} {st : SlotState} {status : Nat} (inside : Within [.mf, .slot (slotKey r (Header.seq h))] qs) (before : Kept qs a₀ b) :
    Kept qs a₀ (Block.writeSlot b r h st status) := Kept.step (Block.writeSlot_kept _ _ _ _ _) inside before

theorem Block.refuseSlot_kept (b : Block) (o : Origin) (r : Fin 64) (h : Header) (st : Nat) : Kept [.count Off.mfRefused, .ins, .mf, .slot (slotKey r (Header.seq h))] b (Block.refuseSlot b o r h st) := by
  unfold Block.refuseSlot
  repeat' first
    | with_reducible assumption
    | with_reducible apply Kept.refl
    | with_reducible apply Within.refl
    | ((with_reducible apply Within.of); rfl)
    | ((with_reducible apply Within.cons); (apply Piece.inside_of; rfl))
    | ((with_reducible apply Within.cons); apply Or.inr)
    | with_reducible apply Within.nil
    | with_reducible apply List.mem_cons_self
    | with_reducible apply List.mem_cons_of_mem
    | (extract_lets +onlyGivenNames x
       first
       | (guard_hyp x : Block := _
          refine Kept.cut (ps := [.count Off.mfRefused, .ins, .mf, .slot (slotKey r (Header.seq h))]) (b := b) (x := x) ?_ fun hx => ?_
          on_goal 1 => subst x
          on_goal 2 => try clear_value x)
       | clear_value x
       | skip)
    | with_reducible apply Block.bumpW_keeps
    | with_reducible apply Block.writeSlot_keeps
    | with_reducible apply Block.push_keeps
    | with_reducible apply Kept.ite
    | split

theorem Block.refuseSlot_keeps {qs : List Piece} {a₀ b : Block} {o : Origin} {r : Fin 64} {h : Header} {st : Nat} (inside : Within [.count Off.mfRefused, .ins, .mf, .slot (slotKey r (Header.seq h))] qs) (before : Kept qs a₀ b) :
    Kept qs a₀ (Block.refuseSlot b o r h st) := Kept.step (Block.refuseSlot_kept _ _ _ _ _) inside before

theorem Block.acceptMan_kept (b : Block) (o : Origin) (r : Fin 64) (h : Header) : Kept [.count Off.mfAccepted, .ins, .mf, .running, .slot (slotKey r (Header.seq h))] b (Block.acceptMan b o r h) := by
  unfold Block.acceptMan
  repeat' first
    | with_reducible assumption
    | with_reducible apply Kept.refl
    | with_reducible apply Within.refl
    | ((with_reducible apply Within.of); rfl)
    | ((with_reducible apply Within.cons); (apply Piece.inside_of; rfl))
    | ((with_reducible apply Within.cons); apply Or.inr)
    | with_reducible apply Within.nil
    | with_reducible apply List.mem_cons_self
    | with_reducible apply List.mem_cons_of_mem
    | (extract_lets +onlyGivenNames x
       first
       | (guard_hyp x : Block := _
          refine Kept.cut (ps := [.count Off.mfAccepted, .ins, .mf, .running, .slot (slotKey r (Header.seq h))]) (b := b) (x := x) ?_ fun hx => ?_
          on_goal 1 => subst x
          on_goal 2 => try clear_value x)
       | (guard_hyp x : Manifests := _; subst x)
       | clear_value x
       | skip)
    | (simp only [Kept.by_fields]; with_reducible apply Kept.fields <;>
         first | with_reducible exact Or.inl rfl | (apply Or.inr; apply Piece.mem_of; rfl) | exact Or.inr (by simp; done) | (refine Or.inr ⟨?_, ?_⟩ <;> first | (apply Or.inl; apply Piece.mem_of; rfl) | exact Or.inl (by simp; done) | with_reducible exact Or.inr rfl | with_reducible exact Or.inr ⟨rfl, rfl, rfl, rfl⟩ | with_reducible exact Or.inr ⟨rfl, rfl, rfl, rfl, rfl⟩ | (refine ⟨?_, ?_⟩ <;> first | (apply Or.inl; apply Piece.mem_of; rfl) | exact Or.inl (by simp; done) | with_reducible exact Or.inr rfl)) | skip)
    | with_reducible apply Block.bumpW_keeps
    | with_reducible apply Block.writeSlot_keeps
    | with_reducible apply Block.push_keeps
    | with_reducible apply Kept.ite
    | split

theorem Block.acceptMan_keeps {qs : List Piece} {a₀ b : Block} {o : Origin} {r : Fin 64} {h : Header} (inside : Within [.count Off.mfAccepted, .ins, .mf, .running, .slot (slotKey r (Header.seq h))] qs) (before : Kept qs a₀ b) :
    Kept qs a₀ (Block.acceptMan b o r h) := Kept.step (Block.acceptMan_kept _ _ _ _) inside before

theorem Block.repeatMan_kept (b : Block) (o : Origin) (r : Fin 64) (h : Header) : Kept [.ins, .slots] b (Block.repeatMan b o r h) := by
  unfold Block.repeatMan
  repeat' first
    | with_reducible assumption
    | with_reducible apply Kept.refl
    | with_reducible apply Within.refl
    | ((with_reducible apply Within.of); rfl)
    | ((with_reducible apply Within.cons); (apply Piece.inside_of; rfl))
    | ((with_reducible apply Within.cons); apply Or.inr)
    | with_reducible apply Within.nil
    | with_reducible apply List.mem_cons_self
    | with_reducible apply List.mem_cons_of_mem
    | (extract_lets +onlyGivenNames x
       first
       | (guard_hyp x : Block := _
          refine Kept.cut (ps := [.ins, .slots]) (b := b) (x := x) ?_ fun hx => ?_
          on_goal 1 => subst x
          on_goal 2 => try clear_value x)
       | clear_value x
       | skip)
    | with_reducible apply Block.setSlot_keeps
    | with_reducible apply Block.push_keeps
    | with_reducible apply Kept.ite
    | split

theorem Block.repeatMan_keeps {qs : List Piece} {a₀ b : Block} {o : Origin} {r : Fin 64} {h : Header} (inside : Within [.ins, .slots] qs) (before : Kept qs a₀ b) :
    Kept qs a₀ (Block.repeatMan b o r h) := Kept.step (Block.repeatMan_kept _ _ _ _) inside before

theorem Block.decideSlot_kept (b : Block) (o : Origin) (r : Fin 64) (h : Header) (level : Nat) (frags : Nat) : Kept [.count Off.mfAccepted, .count Off.mfRefused, .ins, .mf, .running, .slot (slotKey r (Header.seq h))] b (Block.decideSlot b o r h level frags).1 := by
  unfold Block.decideSlot
  repeat' first
    | with_reducible assumption
    | with_reducible apply Kept.refl
    | with_reducible apply Within.refl
    | ((with_reducible apply Within.of); rfl)
    | ((with_reducible apply Within.cons); (apply Piece.inside_of; rfl))
    | ((with_reducible apply Within.cons); apply Or.inr)
    | with_reducible apply Within.nil
    | with_reducible apply List.mem_cons_self
    | with_reducible apply List.mem_cons_of_mem
    | (extract_lets +onlyGivenNames x
       first
       | (guard_hyp x : Block := _
          refine Kept.cut (ps := [.count Off.mfAccepted, .count Off.mfRefused, .ins, .mf, .running, .slot (slotKey r (Header.seq h))]) (b := b) (x := x) ?_ fun hx => ?_
          on_goal 1 => subst x
          on_goal 2 => try clear_value x)
       | (have _t : _ → Block := x; clear _t; subst x; beta_reduce)
       | (have _t : _ → _ := x; clear _t; subst x; beta_reduce)
       | clear_value x
       | skip)
    | with_reducible apply Block.refuseSlot_keeps
    | with_reducible apply Block.acceptMan_keeps
    | dsimp -zeta only
    | with_reducible apply Kept.ite
    | split

theorem Block.decideSlot_keeps {qs : List Piece} {a₀ b : Block} {o : Origin} {r : Fin 64} {h : Header} {level : Nat} {frags : Nat} (inside : Within [.count Off.mfAccepted, .count Off.mfRefused, .ins, .mf, .running, .slot (slotKey r (Header.seq h))] qs) (before : Kept qs a₀ b) :
    Kept qs a₀ (Block.decideSlot b o r h level frags).1 := Kept.step (Block.decideSlot_kept b o r h level frags) inside before

theorem Block.decideSlot_of {qs : List Piece} {a₀ b c₀ : Block} {o : Origin} {r : Fin 64} {h : Header} {level : Nat} {frags : Nat} {y₀ : Nat} (eq : Block.decideSlot b o r h level frags = (c₀, y₀)) (inside : Within [.count Off.mfAccepted, .count Off.mfRefused, .ins, .mf, .running, .slot (slotKey r (Header.seq h))] qs)
    (before : Kept qs a₀ b) : Kept qs a₀ c₀ := by
  have h := Kept.step (Block.decideSlot_kept b o r h level frags) inside before
  rw [eq] at h; exact h

theorem Block.bindRing_of {qs : List Piece} {a₀ b c₀ : Block} {o : Origin} {r : Nat} (eq : Block.bindRing b o = some (r, c₀))
    (inside : Within [.fresh, .mf] qs) (before : Kept qs a₀ b) : Kept qs a₀ c₀ := by
  unfold Block.bindRing at eq
  dsimp only at eq
  split at eq
  · cases eq
  · injection eq with eq
    injection eq with e1 e2
    subst e2
    have i1 : Within [.fresh] qs := fun p hp => inside p (by simp at hp; simp [hp])
    have i2 : Within [.mf] qs := fun p hp => inside p (by simp at hp; simp [hp])
    exact Block.draw_keeps i1 (Block.setRing_keeps i2 before)

theorem Block.decideMan_kept (b : Block) (o : Origin) (frags : Nat) (bs : List Byte) : Kept [.count Off.mfAccepted, .count Off.mfAuthFail, .count Off.mfRefused, .events, .fresh, .ins, .mf, .reg Off.lgAlarm, .reg Off.mfAlarm, .running, .slots] b (Block.decideMan b o frags bs).1 := by
  unfold Block.decideMan
  repeat' first
    | with_reducible assumption
    | with_reducible apply Kept.refl
    | with_reducible apply Within.refl
    | ((with_reducible apply Within.of); rfl)
    | ((with_reducible apply Within.cons); (apply Piece.inside_of; rfl))
    | ((with_reducible apply Within.cons); apply Or.inr)
    | with_reducible apply Within.nil
    | with_reducible apply List.mem_cons_self
    | with_reducible apply List.mem_cons_of_mem
    | (extract_lets +onlyGivenNames x
       first
       | (guard_hyp x : Block := _
          refine Kept.cut (ps := [.count Off.mfAccepted, .count Off.mfAuthFail, .count Off.mfRefused, .events, .fresh, .ins, .mf, .reg Off.lgAlarm, .reg Off.mfAlarm, .running, .slots]) (b := b) (x := x) ?_ fun hx => ?_
          on_goal 1 => subst x
          on_goal 2 => try clear_value x)
       | (have _t : _ → Block := x; clear _t; subst x; beta_reduce)
       | (have _t : _ → _ := x; clear _t; subst x; beta_reduce)
       | (have _t : _ → _ → Block := x; clear _t; subst x; beta_reduce)
       | (have _t : _ → _ → _ := x; clear _t; subst x; beta_reduce)
       | (have _t : _ → _ → _ → Block := x; clear _t; subst x; beta_reduce)
       | (have _t : _ → _ → _ → _ := x; clear _t; subst x; beta_reduce)
       | (guard_hyp x : Nat × Block := _; subst x)
       | (guard_hyp x : Word × Block := _; subst x)
       | (guard_hyp x : List Host.Cell × Block := _; subst x)
       | (guard_hyp x : Block × Nat := _; subst x)
       | (guard_hyp x : Block × Bool := _; subst x)
       | clear_value x
       | skip)
    | (simp only [Kept.by_fields]; with_reducible apply Kept.fields <;>
         first | with_reducible exact Or.inl rfl | (apply Or.inr; apply Piece.mem_of; rfl) | exact Or.inr (by simp; done) | (refine Or.inr ⟨?_, ?_⟩ <;> first | (apply Or.inl; apply Piece.mem_of; rfl) | exact Or.inl (by simp; done) | with_reducible exact Or.inr rfl | with_reducible exact Or.inr ⟨rfl, rfl, rfl, rfl⟩ | with_reducible exact Or.inr ⟨rfl, rfl, rfl, rfl, rfl⟩ | (refine ⟨?_, ?_⟩ <;> first | (apply Or.inl; apply Piece.mem_of; rfl) | exact Or.inl (by simp; done) | with_reducible exact Or.inr rfl)) | skip)
    | (with_reducible apply Block.bindRing_of; (case eq => assumption))
    | with_reducible apply Block.refuseMan_keeps
    | with_reducible apply Block.repeatMan_keeps
    | (with_reducible apply Block.decideSlot_of; (case eq => assumption))
    | with_reducible apply Block.decideSlot_keeps
    | with_reducible apply Block.setRing_keeps
    | with_reducible apply Block.orReg_keeps
    | dsimp -zeta only
    | with_reducible apply Kept.ite
    | split

theorem Block.decideMan_keeps {qs : List Piece} {a₀ b : Block} {o : Origin} {frags : Nat} {bs : List Byte} (inside : Within [.count Off.mfAccepted, .count Off.mfAuthFail, .count Off.mfRefused, .events, .fresh, .ins, .mf, .reg Off.lgAlarm, .reg Off.mfAlarm, .running, .slots] qs) (before : Kept qs a₀ b) :
    Kept qs a₀ (Block.decideMan b o frags bs).1 := Kept.step (Block.decideMan_kept b o frags bs) inside before

theorem Block.decideMan_of {qs : List Piece} {a₀ b c₀ : Block} {o : Origin} {frags : Nat} {bs : List Byte} {y₀ : Nat} (eq : Block.decideMan b o frags bs = (c₀, y₀)) (inside : Within [.count Off.mfAccepted, .count Off.mfAuthFail, .count Off.mfRefused, .events, .fresh, .ins, .mf, .reg Off.lgAlarm, .reg Off.mfAlarm, .running, .slots] qs)
    (before : Kept qs a₀ b) : Kept qs a₀ c₀ := by
  have h := Kept.step (Block.decideMan_kept b o frags bs) inside before
  rw [eq] at h; exact h

theorem Block.dropReasm_kept (b : Block) (r : Reasm) : Kept [.count Off.mfFragDrop, .mf, .reg Off.mfAlarm] b (Block.dropReasm b r) := by
  unfold Block.dropReasm
  repeat' first
    | with_reducible assumption
    | with_reducible apply Kept.refl
    | with_reducible apply Within.refl
    | ((with_reducible apply Within.of); rfl)
    | ((with_reducible apply Within.cons); (apply Piece.inside_of; rfl))
    | ((with_reducible apply Within.cons); apply Or.inr)
    | with_reducible apply Within.nil
    | with_reducible apply List.mem_cons_self
    | with_reducible apply List.mem_cons_of_mem
    | (extract_lets +onlyGivenNames x
       first
       | (guard_hyp x : Block := _
          refine Kept.cut (ps := [.count Off.mfFragDrop, .mf, .reg Off.mfAlarm]) (b := b) (x := x) ?_ fun hx => ?_
          on_goal 1 => subst x
          on_goal 2 => try clear_value x)
       | (guard_hyp x : Manifests := _; subst x)
       | clear_value x
       | skip)
    | (simp only [Kept.by_fields]; with_reducible apply Kept.fields <;>
         first | with_reducible exact Or.inl rfl | (apply Or.inr; apply Piece.mem_of; rfl) | exact Or.inr (by simp; done) | (refine Or.inr ⟨?_, ?_⟩ <;> first | (apply Or.inl; apply Piece.mem_of; rfl) | exact Or.inl (by simp; done) | with_reducible exact Or.inr rfl | with_reducible exact Or.inr ⟨rfl, rfl, rfl, rfl⟩ | with_reducible exact Or.inr ⟨rfl, rfl, rfl, rfl, rfl⟩ | (refine ⟨?_, ?_⟩ <;> first | (apply Or.inl; apply Piece.mem_of; rfl) | exact Or.inl (by simp; done) | with_reducible exact Or.inr rfl)) | skip)
    | with_reducible apply Block.bumpW_keeps
    | with_reducible apply Block.orReg_keeps

theorem Block.dropReasm_keeps {qs : List Piece} {a₀ b : Block} {r : Reasm} (inside : Within [.count Off.mfFragDrop, .mf, .reg Off.mfAlarm] qs) (before : Kept qs a₀ b) :
    Kept qs a₀ (Block.dropReasm b r) := Kept.step (Block.dropReasm_kept _ _) inside before

theorem Block.addFragment_kept (b : Block) (r : Reasm) (f : Flit) : Kept [.count Off.mfAccepted, .count Off.mfAuthFail, .count Off.mfRefused, .events, .fresh, .ins, .mf, .reg Off.lgAlarm, .reg Off.mfAlarm, .running, .slots] b (Block.addFragment b r f) := by
  unfold Block.addFragment
  repeat' first
    | with_reducible assumption
    | with_reducible apply Kept.refl
    | with_reducible apply Within.refl
    | ((with_reducible apply Within.of); rfl)
    | ((with_reducible apply Within.cons); (apply Piece.inside_of; rfl))
    | ((with_reducible apply Within.cons); apply Or.inr)
    | with_reducible apply Within.nil
    | with_reducible apply List.mem_cons_self
    | with_reducible apply List.mem_cons_of_mem
    | (extract_lets +onlyGivenNames x
       first
       | (guard_hyp x : Block := _
          refine Kept.cut (ps := [.count Off.mfAccepted, .count Off.mfAuthFail, .count Off.mfRefused, .events, .fresh, .ins, .mf, .reg Off.lgAlarm, .reg Off.mfAlarm, .running, .slots]) (b := b) (x := x) ?_ fun hx => ?_
          on_goal 1 => subst x
          on_goal 2 => try clear_value x)
       | (guard_hyp x : Nat × Block := _; subst x)
       | (guard_hyp x : Word × Block := _; subst x)
       | (guard_hyp x : List Host.Cell × Block := _; subst x)
       | (guard_hyp x : Block × Nat := _; subst x)
       | (guard_hyp x : Block × Bool := _; subst x)
       | (guard_hyp x : Manifests := _; subst x)
       | clear_value x
       | skip)
    | (simp only [Kept.by_fields]; with_reducible apply Kept.fields <;>
         first | with_reducible exact Or.inl rfl | (apply Or.inr; apply Piece.mem_of; rfl) | exact Or.inr (by simp; done) | (refine Or.inr ⟨?_, ?_⟩ <;> first | (apply Or.inl; apply Piece.mem_of; rfl) | exact Or.inl (by simp; done) | with_reducible exact Or.inr rfl | with_reducible exact Or.inr ⟨rfl, rfl, rfl, rfl⟩ | with_reducible exact Or.inr ⟨rfl, rfl, rfl, rfl, rfl⟩ | (refine ⟨?_, ?_⟩ <;> first | (apply Or.inl; apply Piece.mem_of; rfl) | exact Or.inl (by simp; done) | with_reducible exact Or.inr rfl)) | skip)
    | (with_reducible apply Block.decideMan_of; (case eq => assumption))
    | with_reducible apply Block.decideMan_keeps
    | with_reducible apply Block.refuseMan_keeps
    | dsimp -zeta only
    | with_reducible apply Kept.ite
    | split

theorem Block.addFragment_keeps {qs : List Piece} {a₀ b : Block} {r : Reasm} {f : Flit} (inside : Within [.count Off.mfAccepted, .count Off.mfAuthFail, .count Off.mfRefused, .events, .fresh, .ins, .mf, .reg Off.lgAlarm, .reg Off.mfAlarm, .running, .slots] qs) (before : Kept qs a₀ b) :
    Kept qs a₀ (Block.addFragment b r f) := Kept.step (Block.addFragment_kept _ _ _) inside before

theorem Block.dropLate_kept (b : Block) : Kept [.count Off.mfFragDrop, .mf, .reg Off.mfAlarm] b (Block.dropLate b) := by
  unfold Block.dropLate
  repeat' first
    | with_reducible assumption
    | with_reducible apply Kept.refl
    | with_reducible apply Within.refl
    | ((with_reducible apply Within.of); rfl)
    | ((with_reducible apply Within.cons); (apply Piece.inside_of; rfl))
    | ((with_reducible apply Within.cons); apply Or.inr)
    | with_reducible apply Within.nil
    | with_reducible apply List.mem_cons_self
    | with_reducible apply List.mem_cons_of_mem
    | (with_reducible apply Kept.foldl; intro _ _ _)
    | with_reducible apply Block.dropReasm_keeps
    | with_reducible apply Kept.ite
    | split

theorem Block.dropLate_keeps {qs : List Piece} {a₀ b : Block} (inside : Within [.count Off.mfFragDrop, .mf, .reg Off.mfAlarm] qs) (before : Kept qs a₀ b) :
    Kept qs a₀ (Block.dropLate b) := Kept.step (Block.dropLate_kept _) inside before

theorem Block.takeFragment_kept (b : Block) (sd : Side) (f : Flit) : Kept [.count Off.mfAccepted, .count Off.mfAuthFail, .count Off.mfFragDrop, .count Off.mfRefused, .events, .fresh, .ins, .mf, .qy, .reg Off.lgAlarm, .reg Off.mfAlarm, .running, .slots] b (Block.takeFragment b sd f) := by
  unfold Block.takeFragment
  repeat' first
    | with_reducible assumption
    | with_reducible apply Kept.refl
    | with_reducible apply Within.refl
    | ((with_reducible apply Within.of); rfl)
    | ((with_reducible apply Within.cons); (apply Piece.inside_of; rfl))
    | ((with_reducible apply Within.cons); apply Or.inr)
    | with_reducible apply Within.nil
    | with_reducible apply List.mem_cons_self
    | with_reducible apply List.mem_cons_of_mem
    | (extract_lets +onlyGivenNames x
       first
       | (guard_hyp x : Block := _
          refine Kept.cut (ps := [.count Off.mfAccepted, .count Off.mfAuthFail, .count Off.mfFragDrop, .count Off.mfRefused, .events, .fresh, .ins, .mf, .qy, .reg Off.lgAlarm, .reg Off.mfAlarm, .running, .slots]) (b := b) (x := x) ?_ fun hx => ?_
          on_goal 1 => subst x
          on_goal 2 => try clear_value x)
       | clear_value x
       | skip)
    | with_reducible apply Block.dropLate_keeps
    | with_reducible apply Block.takeClaimed_keeps
    | with_reducible apply Block.dropReasm_keeps
    | with_reducible apply Block.refuseMan_keeps
    | with_reducible apply Block.addFragment_keeps
    | with_reducible apply Kept.ite
    | split

theorem Block.takeFragment_keeps {qs : List Piece} {a₀ b : Block} {sd : Side} {f : Flit} (inside : Within [.count Off.mfAccepted, .count Off.mfAuthFail, .count Off.mfFragDrop, .count Off.mfRefused, .events, .fresh, .ins, .mf, .qy, .reg Off.lgAlarm, .reg Off.mfAlarm, .running, .slots] qs) (before : Kept qs a₀ b) :
    Kept qs a₀ (Block.takeFragment b sd f) := Kept.step (Block.takeFragment_kept _ _ _) inside before

theorem Block.setMbox_kept (b : Block) (p : Path) (v : Mbox) : Kept [.mf] b (Block.setMbox b p v) := by
  unfold Block.setMbox
  repeat' first
    | with_reducible assumption
    | with_reducible apply Kept.refl
    | with_reducible apply Within.refl
    | ((with_reducible apply Within.of); rfl)
    | ((with_reducible apply Within.cons); (apply Piece.inside_of; rfl))
    | ((with_reducible apply Within.cons); apply Or.inr)
    | with_reducible apply Within.nil
    | with_reducible apply List.mem_cons_self
    | with_reducible apply List.mem_cons_of_mem
    | (extract_lets +onlyGivenNames x
       first
       | (guard_hyp x : Block := _
          refine Kept.cut (ps := [.mf]) (b := b) (x := x) ?_ fun hx => ?_
          on_goal 1 => subst x
          on_goal 2 => try clear_value x)
       | (guard_hyp x : Manifests := _; subst x)
       | clear_value x
       | skip)
    | (simp only [Kept.by_fields]; with_reducible apply Kept.fields <;>
         first | with_reducible exact Or.inl rfl | (apply Or.inr; apply Piece.mem_of; rfl) | exact Or.inr (by simp; done) | (refine Or.inr ⟨?_, ?_⟩ <;> first | (apply Or.inl; apply Piece.mem_of; rfl) | exact Or.inl (by simp; done) | with_reducible exact Or.inr rfl | with_reducible exact Or.inr ⟨rfl, rfl, rfl, rfl⟩ | with_reducible exact Or.inr ⟨rfl, rfl, rfl, rfl, rfl⟩ | (refine ⟨?_, ?_⟩ <;> first | (apply Or.inl; apply Piece.mem_of; rfl) | exact Or.inl (by simp; done) | with_reducible exact Or.inr rfl)) | skip)
    | split

theorem Block.setMbox_keeps {qs : List Piece} {a₀ b : Block} {p : Path} {v : Mbox} (inside : Within [.mf] qs) (before : Kept qs a₀ b) :
    Kept qs a₀ (Block.setMbox b p v) := Kept.step (Block.setMbox_kept _ _ _) inside before

theorem Block.doorbell_kept (b : Block) (p : Path) (value : Word) : Kept [.count Off.mfAccepted, .count Off.mfAuthFail, .count Off.mfRefused, .events, .fresh, .ins, .mf, .reg Off.lgAlarm, .reg Off.mfAlarm, .running, .slots] b (Block.doorbell b p value) := by
  unfold Block.doorbell
  repeat' first
    | with_reducible assumption
    | with_reducible apply Kept.refl
    | with_reducible apply Within.refl
    | ((with_reducible apply Within.of); rfl)
    | ((with_reducible apply Within.cons); (apply Piece.inside_of; rfl))
    | ((with_reducible apply Within.cons); apply Or.inr)
    | with_reducible apply Within.nil
    | with_reducible apply List.mem_cons_self
    | with_reducible apply List.mem_cons_of_mem
    | (extract_lets +onlyGivenNames x
       first
       | (guard_hyp x : Block := _
          refine Kept.cut (ps := [.count Off.mfAccepted, .count Off.mfAuthFail, .count Off.mfRefused, .events, .fresh, .ins, .mf, .reg Off.lgAlarm, .reg Off.mfAlarm, .running, .slots]) (b := b) (x := x) ?_ fun hx => ?_
          on_goal 1 => subst x
          on_goal 2 => try clear_value x)
       | (guard_hyp x : Nat × Block := _; subst x)
       | (guard_hyp x : Word × Block := _; subst x)
       | (guard_hyp x : List Host.Cell × Block := _; subst x)
       | (guard_hyp x : Block × Nat := _; subst x)
       | (guard_hyp x : Block × Bool := _; subst x)
       | clear_value x
       | skip)
    | (simp only [Kept.by_fields]; with_reducible apply Kept.fields <;>
         first | with_reducible exact Or.inl rfl | (apply Or.inr; apply Piece.mem_of; rfl) | exact Or.inr (by simp; done) | (refine Or.inr ⟨?_, ?_⟩ <;> first | (apply Or.inl; apply Piece.mem_of; rfl) | exact Or.inl (by simp; done) | with_reducible exact Or.inr rfl | with_reducible exact Or.inr ⟨rfl, rfl, rfl, rfl⟩ | with_reducible exact Or.inr ⟨rfl, rfl, rfl, rfl, rfl⟩ | (refine ⟨?_, ?_⟩ <;> first | (apply Or.inl; apply Piece.mem_of; rfl) | exact Or.inl (by simp; done) | with_reducible exact Or.inr rfl)) | skip)
    | with_reducible apply Block.refuseMan_keeps
    | (with_reducible apply Block.decideMan_of; (case eq => assumption))
    | with_reducible apply Block.decideMan_keeps
    | with_reducible apply Block.setMbox_keeps
    | dsimp -zeta only
    | with_reducible apply Kept.ite
    | split

theorem Block.doorbell_keeps {qs : List Piece} {a₀ b : Block} {p : Path} {value : Word} (inside : Within [.count Off.mfAccepted, .count Off.mfAuthFail, .count Off.mfRefused, .events, .fresh, .ins, .mf, .reg Off.lgAlarm, .reg Off.mfAlarm, .running, .slots] qs) (before : Kept qs a₀ b) :
    Kept qs a₀ (Block.doorbell b p value) := Kept.step (Block.doorbell_kept _ _ _) inside before

theorem Block.openWindow_kept (b : Block) (p : Path) : Kept [.mf, .slots] b (Block.openWindow b p).2 := by
  unfold Block.openWindow
  repeat' first
    | with_reducible assumption
    | with_reducible apply Kept.refl
    | with_reducible apply Within.refl
    | ((with_reducible apply Within.of); rfl)
    | ((with_reducible apply Within.cons); (apply Piece.inside_of; rfl))
    | ((with_reducible apply Within.cons); apply Or.inr)
    | with_reducible apply Within.nil
    | with_reducible apply List.mem_cons_self
    | with_reducible apply List.mem_cons_of_mem
    | (extract_lets +onlyGivenNames x
       first
       | (guard_hyp x : Block := _
          refine Kept.cut (ps := [.mf, .slots]) (b := b) (x := x) ?_ fun hx => ?_
          on_goal 1 => subst x
          on_goal 2 => try clear_value x)
       | (guard_hyp x : Manifests := _; subst x)
       | clear_value x
       | skip)
    | (simp only [Kept.by_fields]; with_reducible apply Kept.fields <;>
         first | with_reducible exact Or.inl rfl | (apply Or.inr; apply Piece.mem_of; rfl) | exact Or.inr (by simp; done) | (refine Or.inr ⟨?_, ?_⟩ <;> first | (apply Or.inl; apply Piece.mem_of; rfl) | exact Or.inl (by simp; done) | with_reducible exact Or.inr rfl | with_reducible exact Or.inr ⟨rfl, rfl, rfl, rfl⟩ | with_reducible exact Or.inr ⟨rfl, rfl, rfl, rfl, rfl⟩ | (refine ⟨?_, ?_⟩ <;> first | (apply Or.inl; apply Piece.mem_of; rfl) | exact Or.inl (by simp; done) | with_reducible exact Or.inr rfl)) | skip)
    | with_reducible apply Block.setSlot_keeps
    | dsimp -zeta only
    | with_reducible apply Kept.ite
    | split

theorem Block.openWindow_keeps {qs : List Piece} {a₀ b : Block} {p : Path} (inside : Within [.mf, .slots] qs) (before : Kept qs a₀ b) :
    Kept qs a₀ (Block.openWindow b p).2 := Kept.step (Block.openWindow_kept b p) inside before

theorem Block.openWindow_of {qs : List Piece} {a₀ b c₀ : Block} {p : Path} {y₀ : Nat} (eq : Block.openWindow b p = (y₀, c₀)) (inside : Within [.mf, .slots] qs)
    (before : Kept qs a₀ b) : Kept qs a₀ c₀ := by
  have h := Kept.step (Block.openWindow_kept b p) inside before
  rw [eq] at h; exact h

theorem Block.clearRead_kept (b : Block) (p : Path) (off : Nat) (events : Word) : Kept [.reg off, .tl] b (Block.clearRead b p off events) := by
  unfold Block.clearRead
  repeat' first
    | with_reducible assumption
    | with_reducible apply Kept.refl
    | with_reducible apply Within.refl
    | ((with_reducible apply Within.of); rfl)
    | ((with_reducible apply Within.cons); (apply Piece.inside_of; rfl))
    | ((with_reducible apply Within.cons); apply Or.inr)
    | with_reducible apply Within.nil
    | with_reducible apply List.mem_cons_self
    | with_reducible apply List.mem_cons_of_mem
    | (extract_lets +onlyGivenNames x
       first
       | (guard_hyp x : Block := _
          refine Kept.cut (ps := [.reg off, .tl]) (b := b) (x := x) ?_ fun hx => ?_
          on_goal 1 => subst x
          on_goal 2 => try clear_value x)
       | clear_value x
       | skip)
    | (simp only [Kept.by_fields]; with_reducible apply Kept.fields <;>
         first | with_reducible exact Or.inl rfl | (apply Or.inr; apply Piece.mem_of; rfl) | exact Or.inr (by simp; done) | (refine Or.inr ⟨?_, ?_⟩ <;> first | (apply Or.inl; apply Piece.mem_of; rfl) | exact Or.inl (by simp; done) | with_reducible exact Or.inr rfl | with_reducible exact Or.inr ⟨rfl, rfl, rfl, rfl⟩ | with_reducible exact Or.inr ⟨rfl, rfl, rfl, rfl, rfl⟩ | (refine ⟨?_, ?_⟩ <;> first | (apply Or.inl; apply Piece.mem_of; rfl) | exact Or.inl (by simp; done) | with_reducible exact Or.inr rfl)) | skip)
    | with_reducible apply Block.setReg_keeps
    | with_reducible apply Kept.ite
    | split

theorem Block.clearRead_keeps {qs : List Piece} {a₀ b : Block} {p : Path} {off : Nat} {events : Word} (inside : Within [.reg off, .tl] qs) (before : Kept qs a₀ b) :
    Kept qs a₀ (Block.clearRead b p off events) := Kept.step (Block.clearRead_kept _ _ _ _) inside before

theorem Block.csrRead_kept (b : Block) (p : Path) (offset : Nat) (events : Word) : Kept [.hold, .mf, .regs, .slots, .tl] b (Block.csrRead b p offset events).2 := by
  unfold Block.csrRead
  repeat' first
    | with_reducible assumption
    | with_reducible apply Kept.refl
    | with_reducible apply Within.refl
    | ((with_reducible apply Within.of); rfl)
    | ((with_reducible apply Within.cons); (apply Piece.inside_of; rfl))
    | ((with_reducible apply Within.cons); apply Or.inr)
    | with_reducible apply Within.nil
    | with_reducible apply List.mem_cons_self
    | with_reducible apply List.mem_cons_of_mem
    | (extract_lets +onlyGivenNames x
       first
       | (guard_hyp x : Block := _
          refine Kept.cut (ps := [.hold, .mf, .regs, .slots, .tl]) (b := b) (x := x) ?_ fun hx => ?_
          on_goal 1 => subst x
          on_goal 2 => try clear_value x)
       | (guard_hyp x : Nat × Block := _; subst x)
       | (guard_hyp x : Word × Block := _; subst x)
       | (guard_hyp x : List Host.Cell × Block := _; subst x)
       | (guard_hyp x : Block × Nat := _; subst x)
       | (guard_hyp x : Block × Bool := _; subst x)
       | clear_value x
       | skip)
    | (simp only [Kept.by_fields]; with_reducible apply Kept.fields <;>
         first | with_reducible exact Or.inl rfl | (apply Or.inr; apply Piece.mem_of; rfl) | exact Or.inr (by simp; done) | (refine Or.inr ⟨?_, ?_⟩ <;> first | (apply Or.inl; apply Piece.mem_of; rfl) | exact Or.inl (by simp; done) | with_reducible exact Or.inr rfl | with_reducible exact Or.inr ⟨rfl, rfl, rfl, rfl⟩ | with_reducible exact Or.inr ⟨rfl, rfl, rfl, rfl, rfl⟩ | (refine ⟨?_, ?_⟩ <;> first | (apply Or.inl; apply Piece.mem_of; rfl) | exact Or.inl (by simp; done) | with_reducible exact Or.inr rfl)) | skip)
    | (with_reducible apply Block.openWindow_of; (case eq => assumption))
    | with_reducible apply Block.openWindow_keeps
    | with_reducible apply Block.setHold_keeps
    | with_reducible apply Block.clearRead_keeps
    | dsimp -zeta only
    | with_reducible apply Kept.ite
    | split

theorem Block.csrRead_keeps {qs : List Piece} {a₀ b : Block} {p : Path} {offset : Nat} {events : Word} (inside : Within [.hold, .mf, .regs, .slots, .tl] qs) (before : Kept qs a₀ b) :
    Kept qs a₀ (Block.csrRead b p offset events).2 := Kept.step (Block.csrRead_kept b p offset events) inside before

theorem Block.csrRead_of {qs : List Piece} {a₀ b c₀ : Block} {p : Path} {offset : Nat} {events : Word} {y₀ : Word} (eq : Block.csrRead b p offset events = (y₀, c₀)) (inside : Within [.hold, .mf, .regs, .slots, .tl] qs)
    (before : Kept qs a₀ b) : Kept qs a₀ c₀ := by
  have h := Kept.step (Block.csrRead_kept b p offset events) inside before
  rw [eq] at h; exact h

theorem Block.readOn_kept (b : Block) (p : Path) (off : Nat) (events : Word) : Kept [.hold, .mf, .rdData, .regs, .slots, .tl] b (Block.readOn b p off events) := by
  unfold Block.readOn
  repeat' first
    | with_reducible assumption
    | with_reducible apply Kept.refl
    | with_reducible apply Within.refl
    | ((with_reducible apply Within.of); rfl)
    | ((with_reducible apply Within.cons); (apply Piece.inside_of; rfl))
    | ((with_reducible apply Within.cons); apply Or.inr)
    | with_reducible apply Within.nil
    | with_reducible apply List.mem_cons_self
    | with_reducible apply List.mem_cons_of_mem
    | (extract_lets +onlyGivenNames x
       first
       | (guard_hyp x : Block := _
          refine Kept.cut (ps := [.hold, .mf, .rdData, .regs, .slots, .tl]) (b := b) (x := x) ?_ fun hx => ?_
          on_goal 1 => subst x
          on_goal 2 => try clear_value x)
       | (guard_hyp x : Nat × Block := _; subst x)
       | (guard_hyp x : Word × Block := _; subst x)
       | (guard_hyp x : List Host.Cell × Block := _; subst x)
       | (guard_hyp x : Block × Nat := _; subst x)
       | (guard_hyp x : Block × Bool := _; subst x)
       | clear_value x
       | skip)
    | (simp only [Kept.by_fields]; with_reducible apply Kept.fields <;>
         first | with_reducible exact Or.inl rfl | (apply Or.inr; apply Piece.mem_of; rfl) | exact Or.inr (by simp; done) | (refine Or.inr ⟨?_, ?_⟩ <;> first | (apply Or.inl; apply Piece.mem_of; rfl) | exact Or.inl (by simp; done) | with_reducible exact Or.inr rfl | with_reducible exact Or.inr ⟨rfl, rfl, rfl, rfl⟩ | with_reducible exact Or.inr ⟨rfl, rfl, rfl, rfl, rfl⟩ | (refine ⟨?_, ?_⟩ <;> first | (apply Or.inl; apply Piece.mem_of; rfl) | exact Or.inl (by simp; done) | with_reducible exact Or.inr rfl)) | skip)
    | (with_reducible apply Block.csrRead_of; (case eq => assumption))
    | with_reducible apply Block.csrRead_keeps
    | dsimp -zeta only

theorem Block.readOn_keeps {qs : List Piece} {a₀ b : Block} {p : Path} {off : Nat} {events : Word} (inside : Within [.hold, .mf, .rdData, .regs, .slots, .tl] qs) (before : Kept qs a₀ b) :
    Kept qs a₀ (Block.readOn b p off events) := Kept.step (Block.readOn_kept _ _ _ _) inside before

theorem Block.putReg_kept (b : Block) (off : Nat) (v : Word) (open_ : Word) : Kept [.reg off] b (Block.putReg b off v open_) := by
  unfold Block.putReg
  repeat' first
    | with_reducible assumption
    | with_reducible apply Kept.refl
    | with_reducible apply Within.refl
    | ((with_reducible apply Within.of); rfl)
    | ((with_reducible apply Within.cons); (apply Piece.inside_of; rfl))
    | ((with_reducible apply Within.cons); apply Or.inr)
    | with_reducible apply Within.nil
    | with_reducible apply List.mem_cons_self
    | with_reducible apply List.mem_cons_of_mem
    | (extract_lets +onlyGivenNames x
       first
       | (guard_hyp x : Block := _
          refine Kept.cut (ps := [.reg off]) (b := b) (x := x) ?_ fun hx => ?_
          on_goal 1 => subst x
          on_goal 2 => try clear_value x)
       | clear_value x
       | skip)
    | (simp only [Kept.by_fields]; with_reducible apply Kept.fields <;>
         first | with_reducible exact Or.inl rfl | (apply Or.inr; apply Piece.mem_of; rfl) | exact Or.inr (by simp; done) | (refine Or.inr ⟨?_, ?_⟩ <;> first | (apply Or.inl; apply Piece.mem_of; rfl) | exact Or.inl (by simp; done) | with_reducible exact Or.inr rfl | with_reducible exact Or.inr ⟨rfl, rfl, rfl, rfl⟩ | with_reducible exact Or.inr ⟨rfl, rfl, rfl, rfl, rfl⟩ | (refine ⟨?_, ?_⟩ <;> first | (apply Or.inl; apply Piece.mem_of; rfl) | exact Or.inl (by simp; done) | with_reducible exact Or.inr rfl)) | skip)
    | with_reducible apply Block.setReg_keeps
    | split

theorem Block.putReg_keeps {qs : List Piece} {a₀ b : Block} {off : Nat} {v : Word} {open_ : Word} (inside : Within [.reg off] qs) (before : Kept qs a₀ b) :
    Kept qs a₀ (Block.putReg b off v open_) := Kept.step (Block.putReg_kept _ _ _ _) inside before

theorem Block.putSel_kept (b : Block) (p : Path) (off : Nat) (v : Word) : Kept [.sel] b (Block.putSel b p off v) := by
  unfold Block.putSel
  repeat' first
    | with_reducible assumption
    | with_reducible apply Kept.refl
    | with_reducible apply Within.refl
    | ((with_reducible apply Within.of); rfl)
    | ((with_reducible apply Within.cons); (apply Piece.inside_of; rfl))
    | ((with_reducible apply Within.cons); apply Or.inr)
    | with_reducible apply Within.nil
    | with_reducible apply List.mem_cons_self
    | with_reducible apply List.mem_cons_of_mem
    | (simp only [Kept.by_fields]; with_reducible apply Kept.fields <;>
         first | with_reducible exact Or.inl rfl | (apply Or.inr; apply Piece.mem_of; rfl) | exact Or.inr (by simp; done) | (refine Or.inr ⟨?_, ?_⟩ <;> first | (apply Or.inl; apply Piece.mem_of; rfl) | exact Or.inl (by simp; done) | with_reducible exact Or.inr rfl | with_reducible exact Or.inr ⟨rfl, rfl, rfl, rfl⟩ | with_reducible exact Or.inr ⟨rfl, rfl, rfl, rfl, rfl⟩ | (refine ⟨?_, ?_⟩ <;> first | (apply Or.inl; apply Piece.mem_of; rfl) | exact Or.inl (by simp; done) | with_reducible exact Or.inr rfl)) | skip)
    | with_reducible apply Block.setSel_keeps
    | split

theorem Block.putSel_keeps {qs : List Piece} {a₀ b : Block} {p : Path} {off : Nat} {v : Word} (inside : Within [.sel] qs) (before : Kept qs a₀ b) :
    Kept qs a₀ (Block.putSel b p off v) := Kept.step (Block.putSel_kept _ _ _ _) inside before

theorem Block.writeFfe_kept (b : Block) (l : Nat) (v : Word) : Kept [.lane l] b (Block.writeFfe b l v) := by
  unfold Block.writeFfe
  repeat' first
    | with_reducible assumption
    | with_reducible apply Kept.refl
    | with_reducible apply Within.refl
    | ((with_reducible apply Within.of); rfl)
    | ((with_reducible apply Within.cons); (apply Piece.inside_of; rfl))
    | ((with_reducible apply Within.cons); apply Or.inr)
    | with_reducible apply Within.nil
    | with_reducible apply List.mem_cons_self
    | with_reducible apply List.mem_cons_of_mem
    | (extract_lets +onlyGivenNames x
       first
       | (guard_hyp x : Block := _
          refine Kept.cut (ps := [.lane l]) (b := b) (x := x) ?_ fun hx => ?_
          on_goal 1 => subst x
          on_goal 2 => try clear_value x)
       | clear_value x
       | skip)
    | (simp only [Kept.by_fields]; with_reducible apply Kept.fields <;>
         first | with_reducible exact Or.inl rfl | (apply Or.inr; apply Piece.mem_of; rfl) | exact Or.inr (by simp; done) | (refine Or.inr ⟨?_, ?_⟩ <;> first | (apply Or.inl; apply Piece.mem_of; rfl) | exact Or.inl (by simp; done) | with_reducible exact Or.inr rfl | with_reducible exact Or.inr ⟨rfl, rfl, rfl, rfl⟩ | with_reducible exact Or.inr ⟨rfl, rfl, rfl, rfl, rfl⟩ | (refine ⟨?_, ?_⟩ <;> first | (apply Or.inl; apply Piece.mem_of; rfl) | exact Or.inl (by simp; done) | with_reducible exact Or.inr rfl)) | skip)
    | with_reducible apply Block.modLane_keeps
    | with_reducible apply Kept.ite
    | split

theorem Block.writeFfe_keeps {qs : List Piece} {a₀ b : Block} {l : Nat} {v : Word} (inside : Within [.lane l] qs) (before : Kept qs a₀ b) :
    Kept qs a₀ (Block.writeFfe b l v) := Kept.step (Block.writeFfe_kept _ _ _) inside before

theorem Block.clearLane_kept (b : Block) (l : Nat) : Kept [.cnt] b (Block.clearLane b l) := by
  unfold Block.clearLane
  repeat' first
    | with_reducible assumption
    | with_reducible apply Kept.refl
    | with_reducible apply Within.refl
    | ((with_reducible apply Within.of); rfl)
    | ((with_reducible apply Within.cons); (apply Piece.inside_of; rfl))
    | ((with_reducible apply Within.cons); apply Or.inr)
    | with_reducible apply Within.nil
    | with_reducible apply List.mem_cons_self
    | with_reducible apply List.mem_cons_of_mem
    | (with_reducible apply Kept.each; intro _ _ _)
    | with_reducible apply Block.setCount_keeps

theorem Block.clearLane_keeps {qs : List Piece} {a₀ b : Block} {l : Nat} (inside : Within [.cnt] qs) (before : Kept qs a₀ b) :
    Kept qs a₀ (Block.clearLane b l) := Kept.step (Block.clearLane_kept _ _) inside before

theorem Block.writeLaneCtrl_kept (b : Block) (l : Nat) (v : Word) : Kept [.cnt, .events, .fws, .ins, .lanes, .mf, .pw, .qy, .regs, .running, .sides, .slots, .tl] b (Block.writeLaneCtrl b l v) := by
  unfold Block.writeLaneCtrl
  repeat' first
    | with_reducible assumption
    | with_reducible apply Kept.refl
    | with_reducible apply Within.refl
    | ((with_reducible apply Within.of); rfl)
    | ((with_reducible apply Within.cons); (apply Piece.inside_of; rfl))
    | ((with_reducible apply Within.cons); apply Or.inr)
    | with_reducible apply Within.nil
    | with_reducible apply List.mem_cons_self
    | with_reducible apply List.mem_cons_of_mem
    | (extract_lets +onlyGivenNames x
       first
       | (guard_hyp x : Block := _
          refine Kept.cut (ps := [.cnt, .events, .fws, .ins, .lanes, .mf, .pw, .qy, .regs, .running, .sides, .slots, .tl]) (b := b) (x := x) ?_ fun hx => ?_
          on_goal 1 => subst x
          on_goal 2 => try clear_value x)
       | clear_value x
       | skip)
    | with_reducible apply Block.putReg_keeps
    | with_reducible apply Block.clearLane_keeps
    | with_reducible apply Block.disableLane_keeps
    | with_reducible apply Kept.ite
    | split

theorem Block.writeLaneCtrl_keeps {qs : List Piece} {a₀ b : Block} {l : Nat} {v : Word} (inside : Within [.cnt, .events, .fws, .ins, .lanes, .mf, .pw, .qy, .regs, .running, .sides, .slots, .tl] qs) (before : Kept qs a₀ b) :
    Kept qs a₀ (Block.writeLaneCtrl b l v) := Kept.step (Block.writeLaneCtrl_kept _ _ _) inside before

theorem Block.writePrbs_kept (b : Block) (l : Nat) (v : Word) : Kept [.count (lnOff Off.lnPrbsBitsLo l), .count (lnOff Off.lnPrbsErrLo l), .lane l, .regs] b (Block.writePrbs b l v) := by
  unfold Block.writePrbs
  repeat' first
    | with_reducible assumption
    | with_reducible apply Kept.refl
    | with_reducible apply Within.refl
    | ((with_reducible apply Within.of); rfl)
    | ((with_reducible apply Within.cons); (apply Piece.inside_of; rfl))
    | ((with_reducible apply Within.cons); apply Or.inr)
    | with_reducible apply Within.nil
    | with_reducible apply List.mem_cons_self
    | with_reducible apply List.mem_cons_of_mem
    | (extract_lets +onlyGivenNames x
       first
       | (guard_hyp x : Block := _
          refine Kept.cut (ps := [.count (lnOff Off.lnPrbsBitsLo l), .count (lnOff Off.lnPrbsErrLo l), .lane l, .regs]) (b := b) (x := x) ?_ fun hx => ?_
          on_goal 1 => subst x
          on_goal 2 => try clear_value x)
       | clear_value x
       | skip)
    | with_reducible apply Block.putReg_keeps
    | with_reducible apply Block.modLane_keeps
    | with_reducible apply Block.clearPrbs_keeps
    | with_reducible apply Kept.ite
    | split

theorem Block.writePrbs_keeps {qs : List Piece} {a₀ b : Block} {l : Nat} {v : Word} (inside : Within [.count (lnOff Off.lnPrbsBitsLo l), .count (lnOff Off.lnPrbsErrLo l), .lane l, .regs] qs) (before : Kept qs a₀ b) :
    Kept qs a₀ (Block.writePrbs b l v) := Kept.step (Block.writePrbs_kept _ _ _) inside before

theorem Block.writeLane_kept (b : Block) (p : Path) (l : Nat) (r : Nat) (v : Word) : Kept [.cnt, .events, .fws, .ins, .lanes, .mf, .pw, .qy, .regs, .running, .sel, .sides, .slots, .tl] b (Block.writeLane b p l r v) := by
  unfold Block.writeLane
  repeat' first
    | with_reducible assumption
    | with_reducible apply Kept.refl
    | with_reducible apply Within.refl
    | ((with_reducible apply Within.of); rfl)
    | ((with_reducible apply Within.cons); (apply Piece.inside_of; rfl))
    | ((with_reducible apply Within.cons); apply Or.inr)
    | with_reducible apply Within.nil
    | with_reducible apply List.mem_cons_self
    | with_reducible apply List.mem_cons_of_mem
    | with_reducible apply Block.writeLaneCtrl_keeps
    | with_reducible apply Block.writeFfe_keeps
    | with_reducible apply Block.modLane_keeps
    | with_reducible apply Block.putSel_keeps
    | with_reducible apply Block.writePrbs_keeps
    | with_reducible apply Block.putReg_keeps
    | with_reducible apply Kept.ite
    | split

theorem Block.writeLane_keeps {qs : List Piece} {a₀ b : Block} {p : Path} {l : Nat} {r : Nat} {v : Word} (inside : Within [.cnt, .events, .fws, .ins, .lanes, .mf, .pw, .qy, .regs, .running, .sel, .sides, .slots, .tl] qs) (before : Kept qs a₀ b) :
    Kept qs a₀ (Block.writeLane b p l r v) := Kept.step (Block.writeLane_kept _ _ _ _ _) inside before

theorem Block.writeSide_kept (b : Block) (sd : Side) (off : Nat) (v : Word) : Kept [.regs, .side sd] b (Block.writeSide b sd off v) := by
  unfold Block.writeSide
  repeat' first
    | with_reducible assumption
    | with_reducible apply Kept.refl
    | with_reducible apply Within.refl
    | ((with_reducible apply Within.of); rfl)
    | ((with_reducible apply Within.cons); (apply Piece.inside_of; rfl))
    | ((with_reducible apply Within.cons); apply Or.inr)
    | with_reducible apply Within.nil
    | with_reducible apply List.mem_cons_self
    | with_reducible apply List.mem_cons_of_mem
    | with_reducible apply Block.writeSsc_keeps
    | with_reducible apply Block.putReg_keeps
    | with_reducible apply Kept.ite
    | split

theorem Block.writeSide_keeps {qs : List Piece} {a₀ b : Block} {sd : Side} {off : Nat} {v : Word} (inside : Within [.regs, .side sd] qs) (before : Kept qs a₀ b) :
    Kept qs a₀ (Block.writeSide b sd off v) := Kept.step (Block.writeSide_kept _ _ _ _) inside before

theorem Block.writeLN_kept (b : Block) (p : Path) (off : Nat) (v : Word) : Kept [.cnt, .events, .fws, .ins, .lanes, .mf, .pw, .qy, .regs, .running, .sel, .sides, .slots, .tl] b (Block.writeLN b p off v) := by
  unfold Block.writeLN
  repeat' first
    | with_reducible assumption
    | with_reducible apply Kept.refl
    | with_reducible apply Within.refl
    | ((with_reducible apply Within.of); rfl)
    | ((with_reducible apply Within.cons); (apply Piece.inside_of; rfl))
    | ((with_reducible apply Within.cons); apply Or.inr)
    | with_reducible apply Within.nil
    | with_reducible apply List.mem_cons_self
    | with_reducible apply List.mem_cons_of_mem
    | (extract_lets +onlyGivenNames x
       first
       | (guard_hyp x : Block := _
          refine Kept.cut (ps := [.cnt, .events, .fws, .ins, .lanes, .mf, .pw, .qy, .regs, .running, .sel, .sides, .slots, .tl]) (b := b) (x := x) ?_ fun hx => ?_
          on_goal 1 => subst x
          on_goal 2 => try clear_value x)
       | clear_value x
       | skip)
    | with_reducible apply Block.writeLane_keeps
    | with_reducible apply Block.writeSide_keeps
    | with_reducible apply Kept.ite
    | split

theorem Block.writeLN_keeps {qs : List Piece} {a₀ b : Block} {p : Path} {off : Nat} {v : Word} (inside : Within [.cnt, .events, .fws, .ins, .lanes, .mf, .pw, .qy, .regs, .running, .sel, .sides, .slots, .tl] qs) (before : Kept qs a₀ b) :
    Kept qs a₀ (Block.writeLN b p off v) := Kept.step (Block.writeLN_kept _ _ _ _) inside before

theorem Block.clearCounts_kept (b : Block) (offs : List Nat) : Kept [.cnt] b (Block.clearCounts b offs) := by
  unfold Block.clearCounts
  repeat' first
    | with_reducible assumption
    | with_reducible apply Kept.refl
    | with_reducible apply Within.refl
    | ((with_reducible apply Within.of); rfl)
    | ((with_reducible apply Within.cons); (apply Piece.inside_of; rfl))
    | ((with_reducible apply Within.cons); apply Or.inr)
    | with_reducible apply Within.nil
    | with_reducible apply List.mem_cons_self
    | with_reducible apply List.mem_cons_of_mem
    | (with_reducible apply Kept.each; intro _ _ _)
    | with_reducible apply Block.setCount_keeps

theorem Block.clearCounts_keeps {qs : List Piece} {a₀ b : Block} {offs : List Nat} (inside : Within [.cnt] qs) (before : Kept qs a₀ b) :
    Kept qs a₀ (Block.clearCounts b offs) := Kept.step (Block.clearCounts_kept _ _) inside before

theorem Block.clearFairway_kept (b : Block) : Kept [.cnt] b (Block.clearFairway b) := by
  unfold Block.clearFairway
  repeat' first
    | with_reducible assumption
    | with_reducible apply Kept.refl
    | with_reducible apply Within.refl
    | ((with_reducible apply Within.of); rfl)
    | ((with_reducible apply Within.cons); (apply Piece.inside_of; rfl))
    | ((with_reducible apply Within.cons); apply Or.inr)
    | with_reducible apply Within.nil
    | with_reducible apply List.mem_cons_self
    | with_reducible apply List.mem_cons_of_mem
    | with_reducible apply Block.clearCounts_keeps

theorem Block.clearFairway_keeps {qs : List Piece} {a₀ b : Block} (inside : Within [.cnt] qs) (before : Kept qs a₀ b) :
    Kept qs a₀ (Block.clearFairway b) := Kept.step (Block.clearFairway_kept _) inside before

theorem Block.clearQuay_kept (b : Block) : Kept [.cnt] b (Block.clearQuay b) := by
  unfold Block.clearQuay
  repeat' first
    | with_reducible assumption
    | with_reducible apply Kept.refl
    | with_reducible apply Within.refl
    | ((with_reducible apply Within.of); rfl)
    | ((with_reducible apply Within.cons); (apply Piece.inside_of; rfl))
    | ((with_reducible apply Within.cons); apply Or.inr)
    | with_reducible apply Within.nil
    | with_reducible apply List.mem_cons_self
    | with_reducible apply List.mem_cons_of_mem
    | with_reducible apply Block.clearCounts_keeps

theorem Block.clearQuay_keeps {qs : List Piece} {a₀ b : Block} (inside : Within [.cnt] qs) (before : Kept qs a₀ b) :
    Kept qs a₀ (Block.clearQuay b) := Kept.step (Block.clearQuay_kept _) inside before

theorem Block.clearBerth_kept (b : Block) (n : Nat) : Kept [.cnt] b (Block.clearBerth b n) := by
  unfold Block.clearBerth
  repeat' first
    | with_reducible assumption
    | with_reducible apply Kept.refl
    | with_reducible apply Within.refl
    | ((with_reducible apply Within.of); rfl)
    | ((with_reducible apply Within.cons); (apply Piece.inside_of; rfl))
    | ((with_reducible apply Within.cons); apply Or.inr)
    | with_reducible apply Within.nil
    | with_reducible apply List.mem_cons_self
    | with_reducible apply List.mem_cons_of_mem
    | with_reducible apply Block.clearCounts_keeps

theorem Block.clearBerth_keeps {qs : List Piece} {a₀ b : Block} {n : Nat} (inside : Within [.cnt] qs) (before : Kept qs a₀ b) :
    Kept qs a₀ (Block.clearBerth b n) := Kept.step (Block.clearBerth_kept _ _) inside before

theorem Block.clearChans_kept (b : Block) : Kept [.cnt] b (Block.clearChans b) := by
  unfold Block.clearChans
  repeat' first
    | with_reducible assumption
    | with_reducible apply Kept.refl
    | with_reducible apply Within.refl
    | ((with_reducible apply Within.of); rfl)
    | ((with_reducible apply Within.cons); (apply Piece.inside_of; rfl))
    | ((with_reducible apply Within.cons); apply Or.inr)
    | with_reducible apply Within.nil
    | with_reducible apply List.mem_cons_self
    | with_reducible apply List.mem_cons_of_mem
    | with_reducible apply Block.clearCounts_keeps

theorem Block.clearChans_keeps {qs : List Piece} {a₀ b : Block} (inside : Within [.cnt] qs) (before : Kept qs a₀ b) :
    Kept qs a₀ (Block.clearChans b) := Kept.step (Block.clearChans_kept _) inside before

theorem Block.clearProt_kept (b : Block) : Kept [.cnt] b (Block.clearProt b) := by
  unfold Block.clearProt
  repeat' first
    | with_reducible assumption
    | with_reducible apply Kept.refl
    | with_reducible apply Within.refl
    | ((with_reducible apply Within.of); rfl)
    | ((with_reducible apply Within.cons); (apply Piece.inside_of; rfl))
    | ((with_reducible apply Within.cons); apply Or.inr)
    | with_reducible apply Within.nil
    | with_reducible apply List.mem_cons_self
    | with_reducible apply List.mem_cons_of_mem
    | with_reducible apply Block.clearCounts_keeps

theorem Block.clearProt_keeps {qs : List Piece} {a₀ b : Block} (inside : Within [.cnt] qs) (before : Kept qs a₀ b) :
    Kept qs a₀ (Block.clearProt b) := Kept.step (Block.clearProt_kept _) inside before

theorem Block.clearCharters_kept (b : Block) : Kept [.chs] b (Block.clearCharters b) := by
  unfold Block.clearCharters
  repeat' first
    | with_reducible assumption
    | with_reducible apply Kept.refl
    | with_reducible apply Within.refl
    | ((with_reducible apply Within.of); rfl)
    | ((with_reducible apply Within.cons); (apply Piece.inside_of; rfl))
    | ((with_reducible apply Within.cons); apply Or.inr)
    | with_reducible apply Within.nil
    | with_reducible apply List.mem_cons_self
    | with_reducible apply List.mem_cons_of_mem
    | (simp only [Kept.by_fields]; with_reducible apply Kept.fields <;>
         first | with_reducible exact Or.inl rfl | (apply Or.inr; apply Piece.mem_of; rfl) | exact Or.inr (by simp; done) | (refine Or.inr ⟨?_, ?_⟩ <;> first | (apply Or.inl; apply Piece.mem_of; rfl) | exact Or.inl (by simp; done) | with_reducible exact Or.inr rfl | with_reducible exact Or.inr ⟨rfl, rfl, rfl, rfl⟩ | with_reducible exact Or.inr ⟨rfl, rfl, rfl, rfl, rfl⟩ | (refine ⟨?_, ?_⟩ <;> first | (apply Or.inl; apply Piece.mem_of; rfl) | exact Or.inl (by simp; done) | with_reducible exact Or.inr rfl)) | skip)
    | (with_reducible apply Kept.each; intro _ _ _)
    | with_reducible apply Block.modCharter_keeps

theorem Block.clearCharters_keeps {qs : List Piece} {a₀ b : Block} (inside : Within [.chs] qs) (before : Kept qs a₀ b) :
    Kept qs a₀ (Block.clearCharters b) := Kept.step (Block.clearCharters_kept _) inside before

theorem Block.clearStack_kept (b : Block) : Kept [.cols] b (Block.clearStack b) := by
  unfold Block.clearStack
  repeat' first
    | with_reducible assumption
    | with_reducible apply Kept.refl
    | with_reducible apply Within.refl
    | ((with_reducible apply Within.of); rfl)
    | ((with_reducible apply Within.cons); (apply Piece.inside_of; rfl))
    | ((with_reducible apply Within.cons); apply Or.inr)
    | with_reducible apply Within.nil
    | with_reducible apply List.mem_cons_self
    | with_reducible apply List.mem_cons_of_mem
    | (simp only [Kept.by_fields]; with_reducible apply Kept.fields <;>
         first | with_reducible exact Or.inl rfl | (apply Or.inr; apply Piece.mem_of; rfl) | exact Or.inr (by simp; done) | (refine Or.inr ⟨?_, ?_⟩ <;> first | (apply Or.inl; apply Piece.mem_of; rfl) | exact Or.inl (by simp; done) | with_reducible exact Or.inr rfl | with_reducible exact Or.inr ⟨rfl, rfl, rfl, rfl⟩ | with_reducible exact Or.inr ⟨rfl, rfl, rfl, rfl, rfl⟩ | (refine ⟨?_, ?_⟩ <;> first | (apply Or.inl; apply Piece.mem_of; rfl) | exact Or.inl (by simp; done) | with_reducible exact Or.inr rfl)) | skip)
    | (with_reducible apply Kept.each; intro _ _ _)
    | with_reducible apply Block.modCol_keeps

theorem Block.clearStack_keeps {qs : List Piece} {a₀ b : Block} (inside : Within [.cols] qs) (before : Kept qs a₀ b) :
    Kept qs a₀ (Block.clearStack b) := Kept.step (Block.clearStack_kept _) inside before

theorem Block.clearFence_kept (b : Block) (p : Path) : Kept [.berths] b (Block.clearFence b p) := by
  unfold Block.clearFence
  repeat' first
    | with_reducible assumption
    | with_reducible apply Kept.refl
    | with_reducible apply Within.refl
    | ((with_reducible apply Within.of); rfl)
    | ((with_reducible apply Within.cons); (apply Piece.inside_of; rfl))
    | ((with_reducible apply Within.cons); apply Or.inr)
    | with_reducible apply Within.nil
    | with_reducible apply List.mem_cons_self
    | with_reducible apply List.mem_cons_of_mem
    | (simp only [Kept.by_fields]; with_reducible apply Kept.fields <;>
         first | with_reducible exact Or.inl rfl | (apply Or.inr; apply Piece.mem_of; rfl) | exact Or.inr (by simp; done) | (refine Or.inr ⟨?_, ?_⟩ <;> first | (apply Or.inl; apply Piece.mem_of; rfl) | exact Or.inl (by simp; done) | with_reducible exact Or.inr rfl | with_reducible exact Or.inr ⟨rfl, rfl, rfl, rfl⟩ | with_reducible exact Or.inr ⟨rfl, rfl, rfl, rfl, rfl⟩ | (refine ⟨?_, ?_⟩ <;> first | (apply Or.inl; apply Piece.mem_of; rfl) | exact Or.inl (by simp; done) | with_reducible exact Or.inr rfl)) | skip)
    | with_reducible apply Block.modBerth_keeps

theorem Block.clearFence_keeps {qs : List Piece} {a₀ b : Block} {p : Path} (inside : Within [.berths] qs) (before : Kept qs a₀ b) :
    Kept qs a₀ (Block.clearFence b p) := Kept.step (Block.clearFence_kept _ _) inside before

theorem Block.clearErrors_kept (b : Block) : Kept [.prot] b (Block.clearErrors b) := by
  unfold Block.clearErrors
  repeat' first
    | with_reducible assumption
    | with_reducible apply Kept.refl
    | with_reducible apply Within.refl
    | ((with_reducible apply Within.of); rfl)
    | ((with_reducible apply Within.cons); (apply Piece.inside_of; rfl))
    | ((with_reducible apply Within.cons); apply Or.inr)
    | with_reducible apply Within.nil
    | with_reducible apply List.mem_cons_self
    | with_reducible apply List.mem_cons_of_mem
    | (extract_lets +onlyGivenNames x
       first
       | (guard_hyp x : Block := _
          refine Kept.cut (ps := [.prot]) (b := b) (x := x) ?_ fun hx => ?_
          on_goal 1 => subst x
          on_goal 2 => try clear_value x)
       | clear_value x
       | skip)
    | (simp only [Kept.by_fields]; with_reducible apply Kept.fields <;>
         first | with_reducible exact Or.inl rfl | (apply Or.inr; apply Piece.mem_of; rfl) | exact Or.inr (by simp; done) | (refine Or.inr ⟨?_, ?_⟩ <;> first | (apply Or.inl; apply Piece.mem_of; rfl) | exact Or.inl (by simp; done) | with_reducible exact Or.inr rfl | with_reducible exact Or.inr ⟨rfl, rfl, rfl, rfl⟩ | with_reducible exact Or.inr ⟨rfl, rfl, rfl, rfl, rfl⟩ | (refine ⟨?_, ?_⟩ <;> first | (apply Or.inl; apply Piece.mem_of; rfl) | exact Or.inl (by simp; done) | with_reducible exact Or.inr rfl)) | skip)

theorem Block.clearErrors_keeps {qs : List Piece} {a₀ b : Block} (inside : Within [.prot] qs) (before : Kept qs a₀ b) :
    Kept qs a₀ (Block.clearErrors b) := Kept.step (Block.clearErrors_kept _) inside before

theorem Block.writeErrRd_kept (b : Block) (v : Word) : Kept [.prot] b (Block.writeErrRd b v) := by
  unfold Block.writeErrRd
  repeat' first
    | with_reducible assumption
    | with_reducible apply Kept.refl
    | with_reducible apply Within.refl
    | ((with_reducible apply Within.of); rfl)
    | ((with_reducible apply Within.cons); (apply Piece.inside_of; rfl))
    | ((with_reducible apply Within.cons); apply Or.inr)
    | with_reducible apply Within.nil
    | with_reducible apply List.mem_cons_self
    | with_reducible apply List.mem_cons_of_mem
    | (extract_lets +onlyGivenNames x
       first
       | (guard_hyp x : Block := _
          refine Kept.cut (ps := [.prot]) (b := b) (x := x) ?_ fun hx => ?_
          on_goal 1 => subst x
          on_goal 2 => try clear_value x)
       | clear_value x
       | skip)
    | (simp only [Kept.by_fields]; with_reducible apply Kept.fields <;>
         first | with_reducible exact Or.inl rfl | (apply Or.inr; apply Piece.mem_of; rfl) | exact Or.inr (by simp; done) | (refine Or.inr ⟨?_, ?_⟩ <;> first | (apply Or.inl; apply Piece.mem_of; rfl) | exact Or.inl (by simp; done) | with_reducible exact Or.inr rfl | with_reducible exact Or.inr ⟨rfl, rfl, rfl, rfl⟩ | with_reducible exact Or.inr ⟨rfl, rfl, rfl, rfl, rfl⟩ | (refine ⟨?_, ?_⟩ <;> first | (apply Or.inl; apply Piece.mem_of; rfl) | exact Or.inl (by simp; done) | with_reducible exact Or.inr rfl)) | skip)
    | with_reducible apply Kept.ite
    | split

theorem Block.writeErrRd_keeps {qs : List Piece} {a₀ b : Block} {v : Word} (inside : Within [.prot] qs) (before : Kept qs a₀ b) :
    Kept qs a₀ (Block.writeErrRd b v) := Kept.step (Block.writeErrRd_kept _ _) inside before

theorem Block.clearLogs_kept (b : Block) : Kept [.sv] b (Block.clearLogs b) := by
  unfold Block.clearLogs
  repeat' first
    | with_reducible assumption
    | with_reducible apply Kept.refl
    | with_reducible apply Within.refl
    | ((with_reducible apply Within.of); rfl)
    | ((with_reducible apply Within.cons); (apply Piece.inside_of; rfl))
    | ((with_reducible apply Within.cons); apply Or.inr)
    | with_reducible apply Within.nil
    | with_reducible apply List.mem_cons_self
    | with_reducible apply List.mem_cons_of_mem
    | (extract_lets +onlyGivenNames x
       first
       | (guard_hyp x : Block := _
          refine Kept.cut (ps := [.sv]) (b := b) (x := x) ?_ fun hx => ?_
          on_goal 1 => subst x
          on_goal 2 => try clear_value x)
       | clear_value x
       | skip)
    | (simp only [Kept.by_fields]; with_reducible apply Kept.fields <;>
         first | with_reducible exact Or.inl rfl | (apply Or.inr; apply Piece.mem_of; rfl) | exact Or.inr (by simp; done) | (refine Or.inr ⟨?_, ?_⟩ <;> first | (apply Or.inl; apply Piece.mem_of; rfl) | exact Or.inl (by simp; done) | with_reducible exact Or.inr rfl | with_reducible exact Or.inr ⟨rfl, rfl, rfl, rfl⟩ | with_reducible exact Or.inr ⟨rfl, rfl, rfl, rfl, rfl⟩ | (refine ⟨?_, ?_⟩ <;> first | (apply Or.inl; apply Piece.mem_of; rfl) | exact Or.inl (by simp; done) | with_reducible exact Or.inr rfl)) | skip)

theorem Block.clearLogs_keeps {qs : List Piece} {a₀ b : Block} (inside : Within [.sv] qs) (before : Kept qs a₀ b) :
    Kept qs a₀ (Block.clearLogs b) := Kept.step (Block.clearLogs_kept _) inside before

theorem Block.writeQyCtrl_kept (b : Block) (v : Word) : Kept [.cnt, .reg Off.qyCtrl] b (Block.writeQyCtrl b v) := by
  unfold Block.writeQyCtrl
  repeat' first
    | with_reducible assumption
    | with_reducible apply Kept.refl
    | with_reducible apply Within.refl
    | ((with_reducible apply Within.of); rfl)
    | ((with_reducible apply Within.cons); (apply Piece.inside_of; rfl))
    | ((with_reducible apply Within.cons); apply Or.inr)
    | with_reducible apply Within.nil
    | with_reducible apply List.mem_cons_self
    | with_reducible apply List.mem_cons_of_mem
    | (extract_lets +onlyGivenNames x
       first
       | (guard_hyp x : Block := _
          refine Kept.cut (ps := [.cnt, .reg Off.qyCtrl]) (b := b) (x := x) ?_ fun hx => ?_
          on_goal 1 => subst x
          on_goal 2 => try clear_value x)
       | clear_value x
       | skip)
    | with_reducible apply Block.clearQuay_keeps
    | with_reducible apply Block.putReg_keeps
    | with_reducible apply Kept.ite
    | split

theorem Block.writeQyCtrl_keeps {qs : List Piece} {a₀ b : Block} {v : Word} (inside : Within [.cnt, .reg Off.qyCtrl] qs) (before : Kept qs a₀ b) :
    Kept qs a₀ (Block.writeQyCtrl b v) := Kept.step (Block.writeQyCtrl_kept _ _) inside before

theorem Block.writeBeTags_kept (b : Block) (v : Word) : Kept [.chs, .reg Off.chAlarm, .reg Off.qyLimit] b (Block.writeBeTags b v) := by
  unfold Block.writeBeTags
  repeat' first
    | with_reducible assumption
    | with_reducible apply Kept.refl
    | with_reducible apply Within.refl
    | ((with_reducible apply Within.of); rfl)
    | ((with_reducible apply Within.cons); (apply Piece.inside_of; rfl))
    | ((with_reducible apply Within.cons); apply Or.inr)
    | with_reducible apply Within.nil
    | with_reducible apply List.mem_cons_self
    | with_reducible apply List.mem_cons_of_mem
    | (extract_lets +onlyGivenNames x
       first
       | (guard_hyp x : Block := _
          refine Kept.cut (ps := [.chs, .reg Off.chAlarm, .reg Off.qyLimit]) (b := b) (x := x) ?_ fun hx => ?_
          on_goal 1 => subst x
          on_goal 2 => try clear_value x)
       | clear_value x
       | skip)
    | with_reducible apply Block.noteUse_keeps
    | with_reducible apply Block.setReg_keeps
    | with_reducible apply Block.orReg_keeps
    | with_reducible apply Kept.ite
    | split

theorem Block.writeBeTags_keeps {qs : List Piece} {a₀ b : Block} {v : Word} (inside : Within [.chs, .reg Off.chAlarm, .reg Off.qyLimit] qs) (before : Kept qs a₀ b) :
    Kept qs a₀ (Block.writeBeTags b v) := Kept.step (Block.writeBeTags_kept _ _) inside before

theorem Block.writeTable_kept (b : Block) (off : Nat) (v : Word) : Kept [.reg off] b (Block.writeTable b off v) := by
  unfold Block.writeTable
  repeat' first
    | with_reducible assumption
    | with_reducible apply Kept.refl
    | with_reducible apply Within.refl
    | ((with_reducible apply Within.of); rfl)
    | ((with_reducible apply Within.cons); (apply Piece.inside_of; rfl))
    | ((with_reducible apply Within.cons); apply Or.inr)
    | with_reducible apply Within.nil
    | with_reducible apply List.mem_cons_self
    | with_reducible apply List.mem_cons_of_mem
    | with_reducible apply Block.putReg_keeps
    | with_reducible apply Kept.ite
    | split

theorem Block.writeTable_keeps {qs : List Piece} {a₀ b : Block} {off : Nat} {v : Word} (inside : Within [.reg off] qs) (before : Kept qs a₀ b) :
    Kept qs a₀ (Block.writeTable b off v) := Kept.step (Block.writeTable_kept _ _ _) inside before

theorem Block.writeQY_kept (b : Block) (off : Nat) (v : Word) : Kept [.chs, .cnt, .reg Off.chAlarm, .reg Off.qyCtrl, .reg Off.qyLimit, .reg off] b (Block.writeQY b off v) := by
  unfold Block.writeQY
  repeat' first
    | with_reducible assumption
    | with_reducible apply Kept.refl
    | with_reducible apply Within.refl
    | ((with_reducible apply Within.of); rfl)
    | ((with_reducible apply Within.cons); (apply Piece.inside_of; rfl))
    | ((with_reducible apply Within.cons); apply Or.inr)
    | with_reducible apply Within.nil
    | with_reducible apply List.mem_cons_self
    | with_reducible apply List.mem_cons_of_mem
    | with_reducible apply Block.writeQyCtrl_keeps
    | with_reducible apply Block.putReg_keeps
    | with_reducible apply Block.writeBeTags_keeps
    | with_reducible apply Block.writeTable_keeps
    | with_reducible apply Kept.ite
    | split

theorem Block.writeQY_keeps {qs : List Piece} {a₀ b : Block} {off : Nat} {v : Word} (inside : Within [.chs, .cnt, .reg Off.chAlarm, .reg Off.qyCtrl, .reg Off.qyLimit, .reg off] qs) (before : Kept qs a₀ b) :
    Kept qs a₀ (Block.writeQY b off v) := Kept.step (Block.writeQY_kept _ _ _) inside before

theorem Block.ksCmd_kept (b : Block) (v : Word) : Kept [.keys] b (Block.ksCmd b v) := by
  unfold Block.ksCmd
  repeat' first
    | with_reducible assumption
    | with_reducible apply Kept.refl
    | with_reducible apply Within.refl
    | ((with_reducible apply Within.of); rfl)
    | ((with_reducible apply Within.cons); (apply Piece.inside_of; rfl))
    | ((with_reducible apply Within.cons); apply Or.inr)
    | with_reducible apply Within.nil
    | with_reducible apply List.mem_cons_self
    | with_reducible apply List.mem_cons_of_mem
    | (extract_lets +onlyGivenNames x
       first
       | (guard_hyp x : Block := _
          refine Kept.cut (ps := [.keys]) (b := b) (x := x) ?_ fun hx => ?_
          on_goal 1 => subst x
          on_goal 2 => try clear_value x)
       | clear_value x
       | skip)
    | (simp only [Kept.by_fields]; with_reducible apply Kept.fields <;>
         first | with_reducible exact Or.inl rfl | (apply Or.inr; apply Piece.mem_of; rfl) | exact Or.inr (by simp; done) | (refine Or.inr ⟨?_, ?_⟩ <;> first | (apply Or.inl; apply Piece.mem_of; rfl) | exact Or.inl (by simp; done) | with_reducible exact Or.inr rfl | with_reducible exact Or.inr ⟨rfl, rfl, rfl, rfl⟩ | with_reducible exact Or.inr ⟨rfl, rfl, rfl, rfl, rfl⟩ | (refine ⟨?_, ?_⟩ <;> first | (apply Or.inl; apply Piece.mem_of; rfl) | exact Or.inl (by simp; done) | with_reducible exact Or.inr rfl)) | skip)
    | with_reducible apply Kept.ite
    | split

theorem Block.ksCmd_keeps {qs : List Piece} {a₀ b : Block} {v : Word} (inside : Within [.keys] qs) (before : Kept qs a₀ b) :
    Kept qs a₀ (Block.ksCmd b v) := Kept.step (Block.ksCmd_kept _ _) inside before

theorem Block.ksZeroize_kept (b : Block) : Kept [.keys] b (Block.ksZeroize b) := by
  unfold Block.ksZeroize
  repeat' first
    | with_reducible assumption
    | with_reducible apply Kept.refl
    | with_reducible apply Within.refl
    | ((with_reducible apply Within.of); rfl)
    | ((with_reducible apply Within.cons); (apply Piece.inside_of; rfl))
    | ((with_reducible apply Within.cons); apply Or.inr)
    | with_reducible apply Within.nil
    | with_reducible apply List.mem_cons_self
    | with_reducible apply List.mem_cons_of_mem
    | (simp only [Kept.by_fields]; with_reducible apply Kept.fields <;>
         first | with_reducible exact Or.inl rfl | (apply Or.inr; apply Piece.mem_of; rfl) | exact Or.inr (by simp; done) | (refine Or.inr ⟨?_, ?_⟩ <;> first | (apply Or.inl; apply Piece.mem_of; rfl) | exact Or.inl (by simp; done) | with_reducible exact Or.inr rfl | with_reducible exact Or.inr ⟨rfl, rfl, rfl, rfl⟩ | with_reducible exact Or.inr ⟨rfl, rfl, rfl, rfl, rfl⟩ | (refine ⟨?_, ?_⟩ <;> first | (apply Or.inl; apply Piece.mem_of; rfl) | exact Or.inl (by simp; done) | with_reducible exact Or.inr rfl)) | skip)

theorem Block.ksZeroize_keeps {qs : List Piece} {a₀ b : Block} (inside : Within [.keys] qs) (before : Kept qs a₀ b) :
    Kept qs a₀ (Block.ksZeroize b) := Kept.step (Block.ksZeroize_kept _) inside before

theorem Block.writeKS_kept (b : Block) (p : Path) (off : Nat) (v : Word) : Kept [.keys] b (Block.writeKS b p off v) := by
  unfold Block.writeKS
  repeat' first
    | with_reducible assumption
    | with_reducible apply Kept.refl
    | with_reducible apply Within.refl
    | ((with_reducible apply Within.of); rfl)
    | ((with_reducible apply Within.cons); (apply Piece.inside_of; rfl))
    | ((with_reducible apply Within.cons); apply Or.inr)
    | with_reducible apply Within.nil
    | with_reducible apply List.mem_cons_self
    | with_reducible apply List.mem_cons_of_mem
    | (extract_lets +onlyGivenNames x
       first
       | (guard_hyp x : Block := _
          refine Kept.cut (ps := [.keys]) (b := b) (x := x) ?_ fun hx => ?_
          on_goal 1 => subst x
          on_goal 2 => try clear_value x)
       | clear_value x
       | skip)
    | (simp only [Kept.by_fields]; with_reducible apply Kept.fields <;>
         first | with_reducible exact Or.inl rfl | (apply Or.inr; apply Piece.mem_of; rfl) | exact Or.inr (by simp; done) | (refine Or.inr ⟨?_, ?_⟩ <;> first | (apply Or.inl; apply Piece.mem_of; rfl) | exact Or.inl (by simp; done) | with_reducible exact Or.inr rfl | with_reducible exact Or.inr ⟨rfl, rfl, rfl, rfl⟩ | with_reducible exact Or.inr ⟨rfl, rfl, rfl, rfl, rfl⟩ | (refine ⟨?_, ?_⟩ <;> first | (apply Or.inl; apply Piece.mem_of; rfl) | exact Or.inl (by simp; done) | with_reducible exact Or.inr rfl)) | skip)
    | with_reducible apply Block.ksCmd_keeps
    | with_reducible apply Block.ksZeroize_keeps
    | with_reducible apply Kept.ite
    | split

theorem Block.writeKS_keeps {qs : List Piece} {a₀ b : Block} {p : Path} {off : Nat} {v : Word} (inside : Within [.keys] qs) (before : Kept qs a₀ b) :
    Kept qs a₀ (Block.writeKS b p off v) := Kept.step (Block.writeKS_kept _ _ _ _) inside before

theorem Block.writeMfCtrl_kept (b : Block) (v : Word) : Kept [.reg Off.mfCtrl] b (Block.writeMfCtrl b v) := by
  unfold Block.writeMfCtrl
  repeat' first
    | with_reducible assumption
    | with_reducible apply Kept.refl
    | with_reducible apply Within.refl
    | ((with_reducible apply Within.of); rfl)
    | ((with_reducible apply Within.cons); (apply Piece.inside_of; rfl))
    | ((with_reducible apply Within.cons); apply Or.inr)
    | with_reducible apply Within.nil
    | with_reducible apply List.mem_cons_self
    | with_reducible apply List.mem_cons_of_mem
    | with_reducible apply Block.putReg_keeps
    | with_reducible apply Kept.ite
    | split

theorem Block.writeMfCtrl_keeps {qs : List Piece} {a₀ b : Block} {v : Word} (inside : Within [.reg Off.mfCtrl] qs) (before : Kept qs a₀ b) :
    Kept qs a₀ (Block.writeMfCtrl b v) := Kept.step (Block.writeMfCtrl_kept _ _) inside before

theorem Block.writeMbox_kept (b : Block) (p : Path) (at_ : Nat) (v : Word) : Kept [.mf] b (Block.writeMbox b p at_ v) := by
  unfold Block.writeMbox
  repeat' first
    | with_reducible assumption
    | with_reducible apply Kept.refl
    | with_reducible apply Within.refl
    | ((with_reducible apply Within.of); rfl)
    | ((with_reducible apply Within.cons); (apply Piece.inside_of; rfl))
    | ((with_reducible apply Within.cons); apply Or.inr)
    | with_reducible apply Within.nil
    | with_reducible apply List.mem_cons_self
    | with_reducible apply List.mem_cons_of_mem
    | (extract_lets +onlyGivenNames x
       first
       | (guard_hyp x : Block := _
          refine Kept.cut (ps := [.mf]) (b := b) (x := x) ?_ fun hx => ?_
          on_goal 1 => subst x
          on_goal 2 => try clear_value x)
       | clear_value x
       | skip)
    | (simp only [Kept.by_fields]; with_reducible apply Kept.fields <;>
         first | with_reducible exact Or.inl rfl | (apply Or.inr; apply Piece.mem_of; rfl) | exact Or.inr (by simp; done) | (refine Or.inr ⟨?_, ?_⟩ <;> first | (apply Or.inl; apply Piece.mem_of; rfl) | exact Or.inl (by simp; done) | with_reducible exact Or.inr rfl | with_reducible exact Or.inr ⟨rfl, rfl, rfl, rfl⟩ | with_reducible exact Or.inr ⟨rfl, rfl, rfl, rfl, rfl⟩ | (refine ⟨?_, ?_⟩ <;> first | (apply Or.inl; apply Piece.mem_of; rfl) | exact Or.inl (by simp; done) | with_reducible exact Or.inr rfl)) | skip)
    | with_reducible apply Block.setMbox_keeps

theorem Block.writeMbox_keeps {qs : List Piece} {a₀ b : Block} {p : Path} {at_ : Nat} {v : Word} (inside : Within [.mf] qs) (before : Kept qs a₀ b) :
    Kept qs a₀ (Block.writeMbox b p at_ v) := Kept.step (Block.writeMbox_kept _ _ _ _) inside before

theorem Block.writeMF_kept (b : Block) (p : Path) (off : Nat) (v : Word) : Kept [.count Off.mfAccepted, .count Off.mfAuthFail, .count Off.mfRefused, .events, .fresh, .ins, .mf, .reg Off.lgAlarm, .reg Off.mfAlarm, .reg Off.mfCtrl, .reg off, .running, .sel, .slots] b (Block.writeMF b p off v) := by
  unfold Block.writeMF
  repeat' first
    | with_reducible assumption
    | with_reducible apply Kept.refl
    | with_reducible apply Within.refl
    | ((with_reducible apply Within.of); rfl)
    | ((with_reducible apply Within.cons); (apply Piece.inside_of; rfl))
    | ((with_reducible apply Within.cons); apply Or.inr)
    | with_reducible apply Within.nil
    | with_reducible apply List.mem_cons_self
    | with_reducible apply List.mem_cons_of_mem
    | with_reducible apply Block.writeMfCtrl_keeps
    | with_reducible apply Block.putSel_keeps
    | with_reducible apply Block.putReg_keeps
    | with_reducible apply Block.doorbell_keeps
    | with_reducible apply Block.writeMbox_keeps
    | with_reducible apply Kept.ite
    | split

theorem Block.writeMF_keeps {qs : List Piece} {a₀ b : Block} {p : Path} {off : Nat} {v : Word} (inside : Within [.count Off.mfAccepted, .count Off.mfAuthFail, .count Off.mfRefused, .events, .fresh, .ins, .mf, .reg Off.lgAlarm, .reg Off.mfAlarm, .reg Off.mfCtrl, .reg off, .running, .sel, .slots] qs) (before : Kept qs a₀ b) :
    Kept qs a₀ (Block.writeMF b p off v) := Kept.step (Block.writeMF_kept _ _ _ _) inside before

theorem Block.writeCK_kept (b : Block) (p : Path) (off : Nat) (v : Word) : Kept [.berths, .chans, .chs, .cnt, .hold, .ins, .prot, .qy, .regs, .running, .sel, .slots, .stk, .sv, .tl] b (Block.writeCK b p off v) := by
  unfold Block.writeCK
  repeat' first
    | with_reducible assumption
    | with_reducible apply Kept.refl
    | with_reducible apply Within.refl
    | ((with_reducible apply Within.of); rfl)
    | ((with_reducible apply Within.cons); (apply Piece.inside_of; rfl))
    | ((with_reducible apply Within.cons); apply Or.inr)
    | with_reducible apply Within.nil
    | with_reducible apply List.mem_cons_self
    | with_reducible apply List.mem_cons_of_mem
    | with_reducible apply Block.memRst_keeps
    | with_reducible apply Block.putReg_keeps
    | with_reducible apply Kept.ite
    | split

theorem Block.writeCK_keeps {qs : List Piece} {a₀ b : Block} {p : Path} {off : Nat} {v : Word} (inside : Within [.berths, .chans, .chs, .cnt, .hold, .ins, .prot, .qy, .regs, .running, .sel, .slots, .stk, .sv, .tl] qs) (before : Kept qs a₀ b) :
    Kept qs a₀ (Block.writeCK b p off v) := Kept.step (Block.writeCK_kept _ _ _ _) inside before

theorem Block.writeFwCtrl_kept (b : Block) (v : Word) : Kept [.cnt, .reg Off.fwCtrl] b (Block.writeFwCtrl b v) := by
  unfold Block.writeFwCtrl
  repeat' first
    | with_reducible assumption
    | with_reducible apply Kept.refl
    | with_reducible apply Within.refl
    | ((with_reducible apply Within.of); rfl)
    | ((with_reducible apply Within.cons); (apply Piece.inside_of; rfl))
    | ((with_reducible apply Within.cons); apply Or.inr)
    | with_reducible apply Within.nil
    | with_reducible apply List.mem_cons_self
    | with_reducible apply List.mem_cons_of_mem
    | with_reducible apply Block.clearFairway_keeps
    | with_reducible apply Block.putReg_keeps
    | with_reducible apply Kept.ite
    | split

theorem Block.writeFwCtrl_keeps {qs : List Piece} {a₀ b : Block} {v : Word} (inside : Within [.cnt, .reg Off.fwCtrl] qs) (before : Kept qs a₀ b) :
    Kept qs a₀ (Block.writeFwCtrl b v) := Kept.step (Block.writeFwCtrl_kept _ _) inside before

theorem Block.writeChCtrl_kept (b : Block) (v : Word) : Kept [.chs, .reg Off.chCtrl] b (Block.writeChCtrl b v) := by
  unfold Block.writeChCtrl
  repeat' first
    | with_reducible assumption
    | with_reducible apply Kept.refl
    | with_reducible apply Within.refl
    | ((with_reducible apply Within.of); rfl)
    | ((with_reducible apply Within.cons); (apply Piece.inside_of; rfl))
    | ((with_reducible apply Within.cons); apply Or.inr)
    | with_reducible apply Within.nil
    | with_reducible apply List.mem_cons_self
    | with_reducible apply List.mem_cons_of_mem
    | (extract_lets +onlyGivenNames x
       first
       | (guard_hyp x : Block := _
          refine Kept.cut (ps := [.chs, .reg Off.chCtrl]) (b := b) (x := x) ?_ fun hx => ?_
          on_goal 1 => subst x
          on_goal 2 => try clear_value x)
       | clear_value x
       | skip)
    | (simp only [Kept.by_fields]; with_reducible apply Kept.fields <;>
         first | with_reducible exact Or.inl rfl | (apply Or.inr; apply Piece.mem_of; rfl) | exact Or.inr (by simp; done) | (refine Or.inr ⟨?_, ?_⟩ <;> first | (apply Or.inl; apply Piece.mem_of; rfl) | exact Or.inl (by simp; done) | with_reducible exact Or.inr rfl | with_reducible exact Or.inr ⟨rfl, rfl, rfl, rfl⟩ | with_reducible exact Or.inr ⟨rfl, rfl, rfl, rfl, rfl⟩ | (refine ⟨?_, ?_⟩ <;> first | (apply Or.inl; apply Piece.mem_of; rfl) | exact Or.inl (by simp; done) | with_reducible exact Or.inr rfl)) | skip)
    | with_reducible apply Block.clearCharters_keeps
    | with_reducible apply Block.putReg_keeps
    | with_reducible apply Kept.ite
    | split

theorem Block.writeChCtrl_keeps {qs : List Piece} {a₀ b : Block} {v : Word} (inside : Within [.chs, .reg Off.chCtrl] qs) (before : Kept qs a₀ b) :
    Kept qs a₀ (Block.writeChCtrl b v) := Kept.step (Block.writeChCtrl_kept _ _) inside before

theorem Block.writeDcCtrl_kept (b : Block) (v : Word) : Kept [.chans, .cnt, .reg Off.dcCtrl] b (Block.writeDcCtrl b v) := by
  unfold Block.writeDcCtrl
  repeat' first
    | with_reducible assumption
    | with_reducible apply Kept.refl
    | with_reducible apply Within.refl
    | ((with_reducible apply Within.of); rfl)
    | ((with_reducible apply Within.cons); (apply Piece.inside_of; rfl))
    | ((with_reducible apply Within.cons); apply Or.inr)
    | with_reducible apply Within.nil
    | with_reducible apply List.mem_cons_self
    | with_reducible apply List.mem_cons_of_mem
    | (extract_lets +onlyGivenNames x
       first
       | (guard_hyp x : Block := _
          refine Kept.cut (ps := [.chans, .cnt, .reg Off.dcCtrl]) (b := b) (x := x) ?_ fun hx => ?_
          on_goal 1 => subst x
          on_goal 2 => try clear_value x)
       | clear_value x
       | skip)
    | (with_reducible apply Kept.each; intro _ _ _)
    | with_reducible apply Block.clearChans_keeps
    | with_reducible apply Block.modChan_keeps
    | with_reducible apply Block.putReg_keeps
    | with_reducible apply Kept.ite
    | split

theorem Block.writeDcCtrl_keeps {qs : List Piece} {a₀ b : Block} {v : Word} (inside : Within [.chans, .cnt, .reg Off.dcCtrl] qs) (before : Kept qs a₀ b) :
    Kept qs a₀ (Block.writeDcCtrl b v) := Kept.step (Block.writeDcCtrl_kept _ _) inside before

theorem Block.writeStCtrl_kept (b : Block) (p : Path) (v : Word) : Kept [.berths, .cols, .reg Off.stCtrl] b (Block.writeStCtrl b p v) := by
  unfold Block.writeStCtrl
  repeat' first
    | with_reducible assumption
    | with_reducible apply Kept.refl
    | with_reducible apply Within.refl
    | ((with_reducible apply Within.of); rfl)
    | ((with_reducible apply Within.cons); (apply Piece.inside_of; rfl))
    | ((with_reducible apply Within.cons); apply Or.inr)
    | with_reducible apply Within.nil
    | with_reducible apply List.mem_cons_self
    | with_reducible apply List.mem_cons_of_mem
    | (extract_lets +onlyGivenNames x
       first
       | (guard_hyp x : Block := _
          refine Kept.cut (ps := [.berths, .cols, .reg Off.stCtrl]) (b := b) (x := x) ?_ fun hx => ?_
          on_goal 1 => subst x
          on_goal 2 => try clear_value x)
       | clear_value x
       | skip)
    | with_reducible apply Block.clearStack_keeps
    | with_reducible apply Block.clearFence_keeps
    | with_reducible apply Block.putReg_keeps
    | with_reducible apply Kept.ite
    | split

theorem Block.writeStCtrl_keeps {qs : List Piece} {a₀ b : Block} {p : Path} {v : Word} (inside : Within [.berths, .cols, .reg Off.stCtrl] qs) (before : Kept qs a₀ b) :
    Kept qs a₀ (Block.writeStCtrl b p v) := Kept.step (Block.writeStCtrl_kept _ _ _) inside before

theorem Block.writeHtCtrl_kept (b : Block) (v : Word) : Kept [.heat, .reg Off.htCtrl] b (Block.writeHtCtrl b v) := by
  unfold Block.writeHtCtrl
  repeat' first
    | with_reducible assumption
    | with_reducible apply Kept.refl
    | with_reducible apply Within.refl
    | ((with_reducible apply Within.of); rfl)
    | ((with_reducible apply Within.cons); (apply Piece.inside_of; rfl))
    | ((with_reducible apply Within.cons); apply Or.inr)
    | with_reducible apply Within.nil
    | with_reducible apply List.mem_cons_self
    | with_reducible apply List.mem_cons_of_mem
    | (extract_lets +onlyGivenNames x
       first
       | (guard_hyp x : Block := _
          refine Kept.cut (ps := [.heat, .reg Off.htCtrl]) (b := b) (x := x) ?_ fun hx => ?_
          on_goal 1 => subst x
          on_goal 2 => try clear_value x)
       | clear_value x
       | skip)
    | (simp only [Kept.by_fields]; with_reducible apply Kept.fields <;>
         first | with_reducible exact Or.inl rfl | (apply Or.inr; apply Piece.mem_of; rfl) | exact Or.inr (by simp; done) | (refine Or.inr ⟨?_, ?_⟩ <;> first | (apply Or.inl; apply Piece.mem_of; rfl) | exact Or.inl (by simp; done) | with_reducible exact Or.inr rfl | with_reducible exact Or.inr ⟨rfl, rfl, rfl, rfl⟩ | with_reducible exact Or.inr ⟨rfl, rfl, rfl, rfl, rfl⟩ | (refine ⟨?_, ?_⟩ <;> first | (apply Or.inl; apply Piece.mem_of; rfl) | exact Or.inl (by simp; done) | with_reducible exact Or.inr rfl)) | skip)
    | with_reducible apply Block.putReg_keeps
    | with_reducible apply Kept.ite
    | split

theorem Block.writeHtCtrl_keeps {qs : List Piece} {a₀ b : Block} {v : Word} (inside : Within [.heat, .reg Off.htCtrl] qs) (before : Kept qs a₀ b) :
    Kept qs a₀ (Block.writeHtCtrl b v) := Kept.step (Block.writeHtCtrl_kept _ _) inside before

theorem Block.writeTlCtrl_kept (b : Block) (v : Word) : Kept [.chans, .events, .fresh, .ins, .qy, .regs, .tl] b (Block.writeTlCtrl b v) := by
  unfold Block.writeTlCtrl
  repeat' first
    | with_reducible assumption
    | with_reducible apply Kept.refl
    | with_reducible apply Within.refl
    | ((with_reducible apply Within.of); rfl)
    | ((with_reducible apply Within.cons); (apply Piece.inside_of; rfl))
    | ((with_reducible apply Within.cons); apply Or.inr)
    | with_reducible apply Within.nil
    | with_reducible apply List.mem_cons_self
    | with_reducible apply List.mem_cons_of_mem
    | (extract_lets +onlyGivenNames x
       first
       | (guard_hyp x : Block := _
          refine Kept.cut (ps := [.chans, .events, .fresh, .ins, .qy, .regs, .tl]) (b := b) (x := x) ?_ fun hx => ?_
          on_goal 1 => subst x
          on_goal 2 => try clear_value x)
       | clear_value x
       | skip)
    | with_reducible apply Block.clearTallies_keeps
    | with_reducible apply Block.snap_keeps
    | with_reducible apply Kept.ite
    | split

theorem Block.writeTlCtrl_keeps {qs : List Piece} {a₀ b : Block} {v : Word} (inside : Within [.chans, .events, .fresh, .ins, .qy, .regs, .tl] qs) (before : Kept qs a₀ b) :
    Kept qs a₀ (Block.writeTlCtrl b v) := Kept.step (Block.writeTlCtrl_kept _ _) inside before

theorem Block.writeEvsel_kept (b : Block) (blk : Nat) (j : Nat) (v : Word) : Kept [.regs, .tl] b (Block.writeEvsel b blk j v) := by
  unfold Block.writeEvsel
  repeat' first
    | with_reducible assumption
    | with_reducible apply Kept.refl
    | with_reducible apply Within.refl
    | ((with_reducible apply Within.of); rfl)
    | ((with_reducible apply Within.cons); (apply Piece.inside_of; rfl))
    | ((with_reducible apply Within.cons); apply Or.inr)
    | with_reducible apply Within.nil
    | with_reducible apply List.mem_cons_self
    | with_reducible apply List.mem_cons_of_mem
    | (extract_lets +onlyGivenNames x
       first
       | (guard_hyp x : Block := _
          refine Kept.cut (ps := [.regs, .tl]) (b := b) (x := x) ?_ fun hx => ?_
          on_goal 1 => subst x
          on_goal 2 => try clear_value x)
       | (have _t : _ → Block := x; clear _t; subst x; beta_reduce)
       | (have _t : _ → _ → Block := x; clear _t; subst x; beta_reduce)
       | (have _t : _ → _ → _ → Block := x; clear _t; subst x; beta_reduce)
       | clear_value x
       | skip)
    | with_reducible apply Block.writeSelector_keeps
    | with_reducible apply Kept.ite
    | split

theorem Block.writeEvsel_keeps {qs : List Piece} {a₀ b : Block} {blk : Nat} {j : Nat} {v : Word} (inside : Within [.regs, .tl] qs) (before : Kept qs a₀ b) :
    Kept qs a₀ (Block.writeEvsel b blk j v) := Kept.step (Block.writeEvsel_kept _ _ _ _) inside before

theorem Block.writeTL_kept (b : Block) (p : Path) (off : Nat) (v : Word) : Kept [.chans, .events, .fresh, .ins, .qy, .regs, .sel, .tl] b (Block.writeTL b p off v) := by
  unfold Block.writeTL
  repeat' first
    | with_reducible assumption
    | with_reducible apply Kept.refl
    | with_reducible apply Within.refl
    | ((with_reducible apply Within.of); rfl)
    | ((with_reducible apply Within.cons); (apply Piece.inside_of; rfl))
    | ((with_reducible apply Within.cons); apply Or.inr)
    | with_reducible apply Within.nil
    | with_reducible apply List.mem_cons_self
    | with_reducible apply List.mem_cons_of_mem
    | (extract_lets +onlyGivenNames x
       first
       | (guard_hyp x : Block := _
          refine Kept.cut (ps := [.chans, .events, .fresh, .ins, .qy, .regs, .sel, .tl]) (b := b) (x := x) ?_ fun hx => ?_
          on_goal 1 => subst x
          on_goal 2 => try clear_value x)
       | clear_value x
       | skip)
    | with_reducible apply Block.writeTlCtrl_keeps
    | with_reducible apply Block.putSel_keeps
    | with_reducible apply Block.putReg_keeps
    | with_reducible apply Block.writeEvsel_keeps
    | with_reducible apply Kept.ite
    | split

theorem Block.writeTL_keeps {qs : List Piece} {a₀ b : Block} {p : Path} {off : Nat} {v : Word} (inside : Within [.chans, .events, .fresh, .ins, .qy, .regs, .sel, .tl] qs) (before : Kept qs a₀ b) :
    Kept qs a₀ (Block.writeTL b p off v) := Kept.step (Block.writeTL_kept _ _ _ _) inside before

theorem Block.writePR_kept (b : Block) (p : Path) (off : Nat) (v : Word) : Kept [.cnt, .prot, .reg off, .sel] b (Block.writePR b p off v) := by
  unfold Block.writePR
  repeat' first
    | with_reducible assumption
    | with_reducible apply Kept.refl
    | with_reducible apply Within.refl
    | ((with_reducible apply Within.of); rfl)
    | ((with_reducible apply Within.cons); (apply Piece.inside_of; rfl))
    | ((with_reducible apply Within.cons); apply Or.inr)
    | with_reducible apply Within.nil
    | with_reducible apply List.mem_cons_self
    | with_reducible apply List.mem_cons_of_mem
    | (extract_lets +onlyGivenNames x
       first
       | (guard_hyp x : Block := _
          refine Kept.cut (ps := [.cnt, .prot, .reg off, .sel]) (b := b) (x := x) ?_ fun hx => ?_
          on_goal 1 => subst x
          on_goal 2 => try clear_value x)
       | clear_value x
       | skip)
    | with_reducible apply Block.clearProt_keeps
    | with_reducible apply Block.clearErrors_keeps
    | with_reducible apply Block.writeErrRd_keeps
    | with_reducible apply Block.putSel_keeps
    | with_reducible apply Block.putReg_keeps
    | with_reducible apply Kept.ite
    | split

theorem Block.writePR_keeps {qs : List Piece} {a₀ b : Block} {p : Path} {off : Nat} {v : Word} (inside : Within [.cnt, .prot, .reg off, .sel] qs) (before : Kept qs a₀ b) :
    Kept qs a₀ (Block.writePR b p off v) := Kept.step (Block.writePR_kept _ _ _ _) inside before

theorem Block.writeRest_kept (b : Block) (p : Path) (off : Nat) (v : Word) : Kept [.cnt, .reg off, .sel, .sv] b (Block.writeRest b p off v) := by
  unfold Block.writeRest
  repeat' first
    | with_reducible assumption
    | with_reducible apply Kept.refl
    | with_reducible apply Within.refl
    | ((with_reducible apply Within.of); rfl)
    | ((with_reducible apply Within.cons); (apply Piece.inside_of; rfl))
    | ((with_reducible apply Within.cons); apply Or.inr)
    | with_reducible apply Within.nil
    | with_reducible apply List.mem_cons_self
    | with_reducible apply List.mem_cons_of_mem
    | (simp only [Kept.by_fields]; with_reducible apply Kept.fields <;>
         first | with_reducible exact Or.inl rfl | (apply Or.inr; apply Piece.mem_of; rfl) | exact Or.inr (by simp; done) | (refine Or.inr ⟨?_, ?_⟩ <;> first | (apply Or.inl; apply Piece.mem_of; rfl) | exact Or.inl (by simp; done) | with_reducible exact Or.inr rfl | with_reducible exact Or.inr ⟨rfl, rfl, rfl, rfl⟩ | with_reducible exact Or.inr ⟨rfl, rfl, rfl, rfl, rfl⟩ | (refine ⟨?_, ?_⟩ <;> first | (apply Or.inl; apply Piece.mem_of; rfl) | exact Or.inl (by simp; done) | with_reducible exact Or.inr rfl)) | skip)
    | with_reducible apply Block.putReg_keeps
    | with_reducible apply Block.clearLogs_keeps
    | with_reducible apply Block.clearBerth_keeps
    | with_reducible apply Block.putSel_keeps
    | with_reducible apply Kept.ite
    | split

theorem Block.writeRest_keeps {qs : List Piece} {a₀ b : Block} {p : Path} {off : Nat} {v : Word} (inside : Within [.cnt, .reg off, .sel, .sv] qs) (before : Kept qs a₀ b) :
    Kept qs a₀ (Block.writeRest b p off v) := Kept.step (Block.writeRest_kept _ _ _ _) inside before

theorem Block.csrWrite_kept (b : Block) (p : Path) (offset : Nat) (v : Word) : Kept [.berths, .chans, .chs, .cnt, .cols, .events, .fresh, .fws, .heat, .hold, .ins, .keys, .lanes, .mf, .prot, .pw, .qy, .regs, .running, .sel, .sides, .slots, .stk, .sv, .tl] b (Block.csrWrite b p offset v) := by
  unfold Block.csrWrite
  repeat' first
    | with_reducible assumption
    | with_reducible apply Kept.refl
    | with_reducible apply Within.refl
    | ((with_reducible apply Within.of); rfl)
    | ((with_reducible apply Within.cons); (apply Piece.inside_of; rfl))
    | ((with_reducible apply Within.cons); apply Or.inr)
    | with_reducible apply Within.nil
    | with_reducible apply List.mem_cons_self
    | with_reducible apply List.mem_cons_of_mem
    | (extract_lets +onlyGivenNames x
       first
       | (guard_hyp x : Block := _
          refine Kept.cut (ps := [.berths, .chans, .chs, .cnt, .cols, .events, .fresh, .fws, .heat, .hold, .ins, .keys, .lanes, .mf, .prot, .pw, .qy, .regs, .running, .sel, .sides, .slots, .stk, .sv, .tl]) (b := b) (x := x) ?_ fun hx => ?_
          on_goal 1 => subst x
          on_goal 2 => try clear_value x)
       | clear_value x
       | skip)
    | with_reducible apply Block.writeMF_keeps
    | with_reducible apply Block.writeCK_keeps
    | with_reducible apply Block.writeLN_keeps
    | with_reducible apply Block.writeFwCtrl_keeps
    | with_reducible apply Block.putReg_keeps
    | with_reducible apply Block.writeQY_keeps
    | with_reducible apply Block.writeChCtrl_keeps
    | with_reducible apply Block.writeRest_keeps
    | with_reducible apply Block.writeDcCtrl_keeps
    | with_reducible apply Block.writeStCtrl_keeps
    | with_reducible apply Block.writeHtCtrl_keeps
    | with_reducible apply Block.writeTL_keeps
    | with_reducible apply Block.writePR_keeps
    | with_reducible apply Block.writeKS_keeps
    | with_reducible apply Kept.ite
    | split

theorem Block.csrWrite_keeps {qs : List Piece} {a₀ b : Block} {p : Path} {offset : Nat} {v : Word} (inside : Within [.berths, .chans, .chs, .cnt, .cols, .events, .fresh, .fws, .heat, .hold, .ins, .keys, .lanes, .mf, .prot, .pw, .qy, .regs, .running, .sel, .sides, .slots, .stk, .sv, .tl] qs) (before : Kept qs a₀ b) :
    Kept qs a₀ (Block.csrWrite b p offset v) := Kept.step (Block.csrWrite_kept _ _ _ _) inside before

theorem Block.writeOn_kept (b : Block) (p : Path) (off : Nat) (v : Word) : Kept [.berths, .chans, .chs, .cnt, .cols, .events, .fresh, .fws, .heat, .hold, .ins, .keys, .lanes, .mf, .prot, .pw, .qy, .regs, .running, .sel, .sides, .slots, .stk, .sv, .tl] b (Block.writeOn b p off v) := by
  unfold Block.writeOn
  repeat' first
    | with_reducible assumption
    | with_reducible apply Kept.refl
    | with_reducible apply Within.refl
    | ((with_reducible apply Within.of); rfl)
    | ((with_reducible apply Within.cons); (apply Piece.inside_of; rfl))
    | ((with_reducible apply Within.cons); apply Or.inr)
    | with_reducible apply Within.nil
    | with_reducible apply List.mem_cons_self
    | with_reducible apply List.mem_cons_of_mem
    | with_reducible apply Block.csrWrite_keeps
    | with_reducible apply Kept.ite
    | split

theorem Block.writeOn_keeps {qs : List Piece} {a₀ b : Block} {p : Path} {off : Nat} {v : Word} (inside : Within [.berths, .chans, .chs, .cnt, .cols, .events, .fresh, .fws, .heat, .hold, .ins, .keys, .lanes, .mf, .prot, .pw, .qy, .regs, .running, .sel, .sides, .slots, .stk, .sv, .tl] qs) (before : Kept qs a₀ b) :
    Kept qs a₀ (Block.writeOn b p off v) := Kept.step (Block.writeOn_kept _ _ _ _) inside before

theorem Block.writeBits_kept (b : Block) (p : Path) (off : Nat) (bits : Word) : Kept [.berths, .chans, .chs, .cnt, .cols, .events, .fresh, .fws, .heat, .hold, .ins, .keys, .lanes, .mf, .prot, .pw, .qy, .regs, .running, .sel, .sides, .slots, .stk, .sv, .tl] b (Block.writeBits b p off bits) := by
  unfold Block.writeBits
  repeat' first
    | with_reducible assumption
    | with_reducible apply Kept.refl
    | with_reducible apply Within.refl
    | ((with_reducible apply Within.of); rfl)
    | ((with_reducible apply Within.cons); (apply Piece.inside_of; rfl))
    | ((with_reducible apply Within.cons); apply Or.inr)
    | with_reducible apply Within.nil
    | with_reducible apply List.mem_cons_self
    | with_reducible apply List.mem_cons_of_mem
    | with_reducible apply Block.writeOn_keeps
    | with_reducible apply Kept.ite
    | split

theorem Block.writeBits_keeps {qs : List Piece} {a₀ b : Block} {p : Path} {off : Nat} {bits : Word} (inside : Within [.berths, .chans, .chs, .cnt, .cols, .events, .fresh, .fws, .heat, .hold, .ins, .keys, .lanes, .mf, .prot, .pw, .qy, .regs, .running, .sel, .sides, .slots, .stk, .sv, .tl] qs) (before : Kept qs a₀ b) :
    Kept qs a₀ (Block.writeBits b p off bits) := Kept.step (Block.writeBits_kept _ _ _ _) inside before

theorem Block.sideTransfer_kept (b : Block) (smbus : Bool) (addr : BitVec 7) (bytes : List Byte) : Kept [.berths, .chans, .chs, .cnt, .cols, .events, .fresh, .fws, .heat, .hold, .ins, .keys, .lanes, .mf, .prot, .pw, .qy, .regs, .running, .sel, .sides, .slots, .stk, .sv, .tl] b (Block.sideTransfer b smbus addr bytes) := by
  unfold Block.sideTransfer
  repeat' first
    | with_reducible assumption
    | with_reducible apply Kept.refl
    | with_reducible apply Within.refl
    | ((with_reducible apply Within.of); rfl)
    | ((with_reducible apply Within.cons); (apply Piece.inside_of; rfl))
    | ((with_reducible apply Within.cons); apply Or.inr)
    | with_reducible apply Within.nil
    | with_reducible apply List.mem_cons_self
    | with_reducible apply List.mem_cons_of_mem
    | with_reducible apply Block.writeOn_keeps
    | with_reducible apply Kept.ite
    | split

theorem Block.sideTransfer_keeps {qs : List Piece} {a₀ b : Block} {smbus : Bool} {addr : BitVec 7} {bytes : List Byte} (inside : Within [.berths, .chans, .chs, .cnt, .cols, .events, .fresh, .fws, .heat, .hold, .ins, .keys, .lanes, .mf, .prot, .pw, .qy, .regs, .running, .sel, .sides, .slots, .stk, .sv, .tl] qs) (before : Kept qs a₀ b) :
    Kept qs a₀ (Block.sideTransfer b smbus addr bytes) := Kept.step (Block.sideTransfer_kept _ _ _ _) inside before

theorem Block.csrAcc_kept (b : Block) (dr : BitVec 57) : Kept [.berths, .chans, .chs, .cnt, .cols, .events, .fresh, .fws, .heat, .hold, .ins, .jtagDr, .keys, .lanes, .mf, .prot, .pw, .qy, .rdData, .regs, .running, .sel, .sides, .slots, .stk, .sv, .tl] b (Block.csrAcc b dr) := by
  unfold Block.csrAcc
  repeat' first
    | with_reducible assumption
    | with_reducible apply Kept.refl
    | with_reducible apply Within.refl
    | ((with_reducible apply Within.of); rfl)
    | ((with_reducible apply Within.cons); (apply Piece.inside_of; rfl))
    | ((with_reducible apply Within.cons); apply Or.inr)
    | with_reducible apply Within.nil
    | with_reducible apply List.mem_cons_self
    | with_reducible apply List.mem_cons_of_mem
    | (extract_lets +onlyGivenNames x
       first
       | (guard_hyp x : Block := _
          refine Kept.cut (ps := [.berths, .chans, .chs, .cnt, .cols, .events, .fresh, .fws, .heat, .hold, .ins, .jtagDr, .keys, .lanes, .mf, .prot, .pw, .qy, .rdData, .regs, .running, .sel, .sides, .slots, .stk, .sv, .tl]) (b := b) (x := x) ?_ fun hx => ?_
          on_goal 1 => subst x
          on_goal 2 => try clear_value x)
       | clear_value x
       | skip)
    | (simp only [Kept.by_fields]; with_reducible apply Kept.fields <;>
         first | with_reducible exact Or.inl rfl | (apply Or.inr; apply Piece.mem_of; rfl) | exact Or.inr (by simp; done) | (refine Or.inr ⟨?_, ?_⟩ <;> first | (apply Or.inl; apply Piece.mem_of; rfl) | exact Or.inl (by simp; done) | with_reducible exact Or.inr rfl | with_reducible exact Or.inr ⟨rfl, rfl, rfl, rfl⟩ | with_reducible exact Or.inr ⟨rfl, rfl, rfl, rfl, rfl⟩ | (refine ⟨?_, ?_⟩ <;> first | (apply Or.inl; apply Piece.mem_of; rfl) | exact Or.inl (by simp; done) | with_reducible exact Or.inr rfl)) | skip)
    | with_reducible apply Block.csrWrite_keeps
    | with_reducible apply Block.readOn_keeps
    | with_reducible apply Kept.ite
    | split

theorem Block.csrAcc_keeps {qs : List Piece} {a₀ b : Block} {dr : BitVec 57} (inside : Within [.berths, .chans, .chs, .cnt, .cols, .events, .fresh, .fws, .heat, .hold, .ins, .jtagDr, .keys, .lanes, .mf, .prot, .pw, .qy, .rdData, .regs, .running, .sel, .sides, .slots, .stk, .sv, .tl] qs) (before : Kept qs a₀ b) :
    Kept qs a₀ (Block.csrAcc b dr) := Kept.step (Block.csrAcc_kept _ _) inside before

theorem Block.bridge_kept (b : Block) (sd : Side) (op : Op) (f : Flit) : Kept [.berths, .chans, .chs, .cnt, .cols, .events, .fresh, .fws, .heat, .hold, .ins, .keys, .lanes, .mf, .prot, .pw, .qy, .rdData, .regs, .running, .sel, .sides, .slots, .stk, .sv, .tl] b (Block.bridge b sd op f) := by
  unfold Block.bridge
  repeat' first
    | with_reducible assumption
    | with_reducible apply Kept.refl
    | with_reducible apply Within.refl
    | ((with_reducible apply Within.of); rfl)
    | ((with_reducible apply Within.cons); (apply Piece.inside_of; rfl))
    | ((with_reducible apply Within.cons); apply Or.inr)
    | with_reducible apply Within.nil
    | with_reducible apply List.mem_cons_self
    | with_reducible apply List.mem_cons_of_mem
    | (extract_lets +onlyGivenNames x
       first
       | (guard_hyp x : Block := _
          refine Kept.cut (ps := [.berths, .chans, .chs, .cnt, .cols, .events, .fresh, .fws, .heat, .hold, .ins, .keys, .lanes, .mf, .prot, .pw, .qy, .rdData, .regs, .running, .sel, .sides, .slots, .stk, .sv, .tl]) (b := b) (x := x) ?_ fun hx => ?_
          on_goal 1 => subst x
          on_goal 2 => try clear_value x)
       | (guard_hyp x : Quay := _; subst x)
       | clear_value x
       | skip)
    | (simp only [Kept.by_fields]; with_reducible apply Kept.fields <;>
         first | with_reducible exact Or.inl rfl | (apply Or.inr; apply Piece.mem_of; rfl) | exact Or.inr (by simp; done) | (refine Or.inr ⟨?_, ?_⟩ <;> first | (apply Or.inl; apply Piece.mem_of; rfl) | exact Or.inl (by simp; done) | with_reducible exact Or.inr rfl | with_reducible exact Or.inr ⟨rfl, rfl, rfl, rfl⟩ | with_reducible exact Or.inr ⟨rfl, rfl, rfl, rfl, rfl⟩ | (refine ⟨?_, ?_⟩ <;> first | (apply Or.inl; apply Piece.mem_of; rfl) | exact Or.inl (by simp; done) | with_reducible exact Or.inr rfl)) | skip)
    | with_reducible apply Block.tally_keeps
    | with_reducible apply Block.bump_keeps
    | with_reducible apply Block.noteTags_keeps
    | with_reducible apply Block.endReq_keeps
    | with_reducible apply Block.csrWrite_keeps
    | with_reducible apply Block.readOn_keeps
    | with_reducible apply Kept.ite
    | split

theorem Block.bridge_keeps {qs : List Piece} {a₀ b : Block} {sd : Side} {op : Op} {f : Flit} (inside : Within [.berths, .chans, .chs, .cnt, .cols, .events, .fresh, .fws, .heat, .hold, .ins, .keys, .lanes, .mf, .prot, .pw, .qy, .rdData, .regs, .running, .sel, .sides, .slots, .stk, .sv, .tl] qs) (before : Kept qs a₀ b) :
    Kept qs a₀ (Block.bridge b sd op f) := Kept.step (Block.bridge_kept _ _ _ _) inside before

theorem Block.decideCsr_kept (b : Block) (sd : Side) (op : Op) (f : Flit) : Kept [.berths, .chans, .chs, .cnt, .cols, .events, .fresh, .fws, .heat, .hold, .ins, .keys, .lanes, .mf, .prot, .pw, .qy, .rdData, .regs, .running, .sel, .sides, .slots, .stk, .sv, .tl] b (Block.decideCsr b sd op f) := by
  unfold Block.decideCsr
  repeat' first
    | with_reducible assumption
    | with_reducible apply Kept.refl
    | with_reducible apply Within.refl
    | ((with_reducible apply Within.of); rfl)
    | ((with_reducible apply Within.cons); (apply Piece.inside_of; rfl))
    | ((with_reducible apply Within.cons); apply Or.inr)
    | with_reducible apply Within.nil
    | with_reducible apply List.mem_cons_self
    | with_reducible apply List.mem_cons_of_mem
    | with_reducible apply Block.refuse_keeps
    | with_reducible apply Block.orReg_keeps
    | with_reducible apply Block.bridge_keeps
    | with_reducible apply Kept.ite
    | split

theorem Block.decideCsr_keeps {qs : List Piece} {a₀ b : Block} {sd : Side} {op : Op} {f : Flit} (inside : Within [.berths, .chans, .chs, .cnt, .cols, .events, .fresh, .fws, .heat, .hold, .ins, .keys, .lanes, .mf, .prot, .pw, .qy, .rdData, .regs, .running, .sel, .sides, .slots, .stk, .sv, .tl] qs) (before : Kept qs a₀ b) :
    Kept qs a₀ (Block.decideCsr b sd op f) := Kept.step (Block.decideCsr_kept _ _ _ _) inside before

theorem Block.takeAccess_kept (b : Block) (sd : Side) (op : Op) (f : Flit) : Kept [.berths, .chans, .chs, .cnt, .cols, .events, .fresh, .fws, .heat, .hold, .ins, .keys, .lanes, .mf, .prot, .pw, .qy, .rdData, .regs, .running, .sel, .sides, .slots, .stk, .sv, .tl] b (Block.takeAccess b sd op f) := by
  unfold Block.takeAccess
  repeat' first
    | with_reducible assumption
    | with_reducible apply Kept.refl
    | with_reducible apply Within.refl
    | ((with_reducible apply Within.of); rfl)
    | ((with_reducible apply Within.cons); (apply Piece.inside_of; rfl))
    | ((with_reducible apply Within.cons); apply Or.inr)
    | with_reducible apply Within.nil
    | with_reducible apply List.mem_cons_self
    | with_reducible apply List.mem_cons_of_mem
    | with_reducible apply Block.decideCsr_keeps
    | with_reducible apply Block.takeClaimed_keeps
    | with_reducible apply Block.takeReq_keeps
    | with_reducible apply Kept.ite
    | split

theorem Block.takeAccess_keeps {qs : List Piece} {a₀ b : Block} {sd : Side} {op : Op} {f : Flit} (inside : Within [.berths, .chans, .chs, .cnt, .cols, .events, .fresh, .fws, .heat, .hold, .ins, .keys, .lanes, .mf, .prot, .pw, .qy, .rdData, .regs, .running, .sel, .sides, .slots, .stk, .sv, .tl] qs) (before : Kept qs a₀ b) :
    Kept qs a₀ (Block.takeAccess b sd op f) := Kept.step (Block.takeAccess_kept _ _ _ _) inside before

theorem Block.advance_kept (b : Block) (n : Nat) : Kept [.tide] b (Block.advance b n) := by
  unfold Block.advance
  repeat' first
    | with_reducible assumption
    | with_reducible apply Kept.refl
    | with_reducible apply Within.refl
    | ((with_reducible apply Within.of); rfl)
    | ((with_reducible apply Within.cons); (apply Piece.inside_of; rfl))
    | ((with_reducible apply Within.cons); apply Or.inr)
    | with_reducible apply Within.nil
    | with_reducible apply List.mem_cons_self
    | with_reducible apply List.mem_cons_of_mem
    | (extract_lets +onlyGivenNames x
       first
       | (guard_hyp x : Block := _
          refine Kept.cut (ps := [.tide]) (b := b) (x := x) ?_ fun hx => ?_
          on_goal 1 => subst x
          on_goal 2 => try clear_value x)
       | (guard_hyp x : Clocks := _; subst x)
       | clear_value x
       | skip)
    | (simp only [Kept.by_fields]; with_reducible apply Kept.fields <;>
         first | with_reducible exact Or.inl rfl | (apply Or.inr; apply Piece.mem_of; rfl) | exact Or.inr (by simp; done) | (refine Or.inr ⟨?_, ?_⟩ <;> first | (apply Or.inl; apply Piece.mem_of; rfl) | exact Or.inl (by simp; done) | with_reducible exact Or.inr rfl | with_reducible exact Or.inr ⟨rfl, rfl, rfl, rfl⟩ | with_reducible exact Or.inr ⟨rfl, rfl, rfl, rfl, rfl⟩ | (refine ⟨?_, ?_⟩ <;> first | (apply Or.inl; apply Piece.mem_of; rfl) | exact Or.inl (by simp; done) | with_reducible exact Or.inr rfl)) | skip)

theorem Block.advance_keeps {qs : List Piece} {a₀ b : Block} {n : Nat} (inside : Within [.tide] qs) (before : Kept qs a₀ b) :
    Kept qs a₀ (Block.advance b n) := Kept.step (Block.advance_kept _ _) inside before

theorem Block.tallyCycles_kept (b : Block) (n : Nat) (blk : Nat) : Kept [.reg (tlOff Off.tlOvf blk), .tl] b (Block.tallyCycles b n blk) := by
  unfold Block.tallyCycles
  repeat' first
    | with_reducible assumption
    | with_reducible apply Kept.refl
    | with_reducible apply Within.refl
    | ((with_reducible apply Within.of); rfl)
    | ((with_reducible apply Within.cons); (apply Piece.inside_of; rfl))
    | ((with_reducible apply Within.cons); apply Or.inr)
    | with_reducible apply Within.nil
    | with_reducible apply List.mem_cons_self
    | with_reducible apply List.mem_cons_of_mem
    | (extract_lets +onlyGivenNames x
       first
       | (guard_hyp x : Block := _
          refine Kept.cut (ps := [.reg (tlOff Off.tlOvf blk), .tl]) (b := b) (x := x) ?_ fun hx => ?_
          on_goal 1 => subst x
          on_goal 2 => try clear_value x)
       | clear_value x
       | skip)
    | (simp only [Kept.by_fields]; with_reducible apply Kept.fields <;>
         first | with_reducible exact Or.inl rfl | (apply Or.inr; apply Piece.mem_of; rfl) | exact Or.inr (by simp; done) | (refine Or.inr ⟨?_, ?_⟩ <;> first | (apply Or.inl; apply Piece.mem_of; rfl) | exact Or.inl (by simp; done) | with_reducible exact Or.inr rfl | with_reducible exact Or.inr ⟨rfl, rfl, rfl, rfl⟩ | with_reducible exact Or.inr ⟨rfl, rfl, rfl, rfl, rfl⟩ | (refine ⟨?_, ?_⟩ <;> first | (apply Or.inl; apply Piece.mem_of; rfl) | exact Or.inl (by simp; done) | with_reducible exact Or.inr rfl)) | skip)
    | (with_reducible apply Kept.each; intro _ _ _)
    | with_reducible apply Block.setTallyBlk_keeps
    | with_reducible apply Block.addCount_keeps
    | with_reducible apply Kept.ite
    | split

theorem Block.tallyCycles_keeps {qs : List Piece} {a₀ b : Block} {n : Nat} {blk : Nat} (inside : Within [.reg (tlOff Off.tlOvf blk), .tl] qs) (before : Kept qs a₀ b) :
    Kept qs a₀ (Block.tallyCycles b n blk) := Kept.step (Block.tallyCycles_kept _ _ _) inside before

theorem Block.lockCycles_kept (b : Block) (n : Nat) (blk : Nat) : Kept [.count (btOff Off.btLockWaitLo blk)] b (Block.lockCycles b n blk) := by
  unfold Block.lockCycles
  repeat' first
    | with_reducible assumption
    | with_reducible apply Kept.refl
    | with_reducible apply Within.refl
    | ((with_reducible apply Within.of); rfl)
    | ((with_reducible apply Within.cons); (apply Piece.inside_of; rfl))
    | ((with_reducible apply Within.cons); apply Or.inr)
    | with_reducible apply Within.nil
    | with_reducible apply List.mem_cons_self
    | with_reducible apply List.mem_cons_of_mem
    | with_reducible apply Block.bump_keeps
    | with_reducible apply Kept.ite
    | split

theorem Block.lockCycles_keeps {qs : List Piece} {a₀ b : Block} {n : Nat} {blk : Nat} (inside : Within [.count (btOff Off.btLockWaitLo blk)] qs) (before : Kept qs a₀ b) :
    Kept qs a₀ (Block.lockCycles b n blk) := Kept.step (Block.lockCycles_kept _ _ _) inside before

theorem Block.gateCycles_kept (b : Block) (n : Nat) (blk : Nat) : Kept [.count (btOff Off.btGatedLo blk)] b (Block.gateCycles b n blk) := by
  unfold Block.gateCycles
  repeat' first
    | with_reducible assumption
    | with_reducible apply Kept.refl
    | with_reducible apply Within.refl
    | ((with_reducible apply Within.of); rfl)
    | ((with_reducible apply Within.cons); (apply Piece.inside_of; rfl))
    | ((with_reducible apply Within.cons); apply Or.inr)
    | with_reducible apply Within.nil
    | with_reducible apply List.mem_cons_self
    | with_reducible apply List.mem_cons_of_mem
    | with_reducible apply Block.bump_keeps
    | with_reducible apply Kept.ite
    | split

theorem Block.gateCycles_keeps {qs : List Piece} {a₀ b : Block} {n : Nat} {blk : Nat} (inside : Within [.count (btOff Off.btGatedLo blk)] qs) (before : Kept qs a₀ b) :
    Kept qs a₀ (Block.gateCycles b n blk) := Kept.step (Block.gateCycles_kept _ _ _) inside before

theorem Block.coreCycles_kept (b : Block) (n : Nat) : Kept [.chs, .cnt, .regs, .tl] b (Block.coreCycles b n) := by
  unfold Block.coreCycles
  repeat' first
    | with_reducible assumption
    | with_reducible apply Kept.refl
    | with_reducible apply Within.refl
    | ((with_reducible apply Within.of); rfl)
    | ((with_reducible apply Within.cons); (apply Piece.inside_of; rfl))
    | ((with_reducible apply Within.cons); apply Or.inr)
    | with_reducible apply Within.nil
    | with_reducible apply List.mem_cons_self
    | with_reducible apply List.mem_cons_of_mem
    | (extract_lets +onlyGivenNames x
       first
       | (guard_hyp x : Block := _
          refine Kept.cut (ps := [.chs, .cnt, .regs, .tl]) (b := b) (x := x) ?_ fun hx => ?_
          on_goal 1 => subst x
          on_goal 2 => try clear_value x)
       | clear_value x
       | skip)
    | (simp only [Kept.by_fields]; with_reducible apply Kept.fields <;>
         first | with_reducible exact Or.inl rfl | (apply Or.inr; apply Piece.mem_of; rfl) | exact Or.inr (by simp; done) | (refine Or.inr ⟨?_, ?_⟩ <;> first | (apply Or.inl; apply Piece.mem_of; rfl) | exact Or.inl (by simp; done) | with_reducible exact Or.inr rfl | with_reducible exact Or.inr ⟨rfl, rfl, rfl, rfl⟩ | with_reducible exact Or.inr ⟨rfl, rfl, rfl, rfl, rfl⟩ | (refine ⟨?_, ?_⟩ <;> first | (apply Or.inl; apply Piece.mem_of; rfl) | exact Or.inl (by simp; done) | with_reducible exact Or.inr rfl)) | skip)
    | (with_reducible apply Kept.each; intro _ _ _)
    | with_reducible apply Block.gateCycles_keeps
    | with_reducible apply Block.lockCycles_keeps
    | with_reducible apply Block.tallyCycles_keeps
    | with_reducible apply Kept.ite
    | split

theorem Block.coreCycles_keeps {qs : List Piece} {a₀ b : Block} {n : Nat} (inside : Within [.chs, .cnt, .regs, .tl] qs) (before : Kept qs a₀ b) :
    Kept qs a₀ (Block.coreCycles b n) := Kept.step (Block.coreCycles_kept _ _) inside before

theorem Block.tick_kept (b : Block) : Kept [.chs, .cnt, .regs, .tide, .tl] b (Block.tick b) := by
  unfold Block.tick
  repeat' first
    | with_reducible assumption
    | with_reducible apply Kept.refl
    | with_reducible apply Within.refl
    | ((with_reducible apply Within.of); rfl)
    | ((with_reducible apply Within.cons); (apply Piece.inside_of; rfl))
    | ((with_reducible apply Within.cons); apply Or.inr)
    | with_reducible apply Within.nil
    | with_reducible apply List.mem_cons_self
    | with_reducible apply List.mem_cons_of_mem
    | (extract_lets +onlyGivenNames x
       first
       | (guard_hyp x : Block := _
          refine Kept.cut (ps := [.chs, .cnt, .regs, .tide, .tl]) (b := b) (x := x) ?_ fun hx => ?_
          on_goal 1 => subst x
          on_goal 2 => try clear_value x)
       | clear_value x
       | skip)
    | with_reducible apply Block.coreCycles_keeps
    | with_reducible apply Block.advance_keeps
    | with_reducible apply Kept.ite
    | split

theorem Block.tick_keeps {qs : List Piece} {a₀ b : Block} (inside : Within [.chs, .cnt, .regs, .tide, .tl] qs) (before : Kept qs a₀ b) :
    Kept qs a₀ (Block.tick b) := Kept.step (Block.tick_kept _) inside before

end Sys2Proof.Machine
end

