-- ==== Sys2Proof/Laws/FramesExec.lean ====
section
/-! SUPPORT. The frame of each command: what its meaning can change at most. -/

namespace Sys2Proof.Machine

open Sys2Proof
set_option linter.all false
set_option Elab.async false

theorem State.upd_kept {s t : State} {f : Block → Block} {ps : List Piece} (h : s.upd f = .next t)
    (rest : Kept ps s.blk (f s.blk)) : Kept ps s.blk t.blk := by
  unfold State.upd at h
  injection h with h
  subst h
  exact rest

theorem execHuntBurst_kept (ln : LaneId) {s t : State} (h : execHuntBurst ln s = .next t) : Kept [.lane ln] s.blk t.blk := by
  unfold execHuntBurst at h
  unfold State.upd at h
  injection h with h
  subst h
  dsimp -zeta only
  generalize s.blk = b
  repeat' first
    | with_reducible assumption
    | with_reducible apply Kept.refl
    | with_reducible apply Within.refl
    | ((with_reducible apply Within.of); rfl)
    | ((with_reducible apply Within.cons); (apply Piece.inside_of; rfl))
    | ((with_reducible apply Within.cons); apply Or.inr)
    | with_reducible apply Within.nil
    | with_reducible apply List.mem_cons_self
    | with_reducible apply List.mem_cons_of_mem
    | with_reducible apply Block.huntBurst_keeps

theorem execHuntTimeout_kept (ln : LaneId) {s t : State} (h : execHuntTimeout ln s = .next t) : Kept [.cnt, .events, .fws, .ins, .lanes, .mf, .pw, .qy, .regs, .running, .sides, .slots, .tl] s.blk t.blk := by
  unfold execHuntTimeout at h
  unfold State.upd at h
  injection h with h
  subst h
  dsimp -zeta only
  generalize s.blk = b
  repeat' first
    | with_reducible assumption
    | with_reducible apply Kept.refl
    | with_reducible apply Within.refl
    | ((with_reducible apply Within.of); rfl)
    | ((with_reducible apply Within.cons); (apply Piece.inside_of; rfl))
    | ((with_reducible apply Within.cons); apply Or.inr)
    | with_reducible apply Within.nil
    | with_reducible apply List.mem_cons_self
    | with_reducible apply List.mem_cons_of_mem
    | with_reducible apply Block.huntTimeout_keeps
    | with_reducible apply Kept.ite
    | split

theorem execBlockLock_kept (ln : LaneId) (grade : Fin 4) (blocks : List LaneBlock) {s t : State} (h : execBlockLock ln grade blocks s = .next t) : Kept [.lane ln] s.blk t.blk := by
  unfold execBlockLock at h
  unfold State.upd at h
  injection h with h
  subst h
  dsimp -zeta only
  generalize s.blk = b
  repeat' first
    | with_reducible assumption
    | with_reducible apply Kept.refl
    | with_reducible apply Within.refl
    | ((with_reducible apply Within.of); rfl)
    | ((with_reducible apply Within.cons); (apply Piece.inside_of; rfl))
    | ((with_reducible apply Within.cons); apply Or.inr)
    | with_reducible apply Within.nil
    | with_reducible apply List.mem_cons_self
    | with_reducible apply List.mem_cons_of_mem
    | with_reducible apply Block.takeLock_keeps
    | with_reducible apply Kept.ite
    | split

theorem execBlockLockLoss_kept (ln : LaneId) (headers : List (BitVec 2 × Bool)) {s t : State} (h : execBlockLockLoss ln headers s = .next t) : Kept [.cnt, .events, .fws, .ins, .lanes, .qy, .regs, .sides, .tl] s.blk t.blk := by
  unfold execBlockLockLoss at h
  unfold State.upd at h
  injection h with h
  subst h
  dsimp -zeta only
  generalize s.blk = b
  repeat' first
    | with_reducible assumption
    | with_reducible apply Kept.refl
    | with_reducible apply Within.refl
    | ((with_reducible apply Within.of); rfl)
    | ((with_reducible apply Within.cons); (apply Piece.inside_of; rfl))
    | ((with_reducible apply Within.cons); apply Or.inr)
    | with_reducible apply Within.nil
    | with_reducible apply List.mem_cons_self
    | with_reducible apply List.mem_cons_of_mem
    | with_reducible apply Block.loseLock_keeps
    | with_reducible apply Kept.ite
    | split

theorem execPolarityTimeout_kept (ln : LaneId) {s t : State} (h : execPolarityTimeout ln s = .next t) : Kept [.lane ln] s.blk t.blk := by
  unfold execPolarityTimeout at h
  unfold State.upd at h
  injection h with h
  subst h
  dsimp -zeta only
  generalize s.blk = b
  repeat' first
    | with_reducible assumption
    | with_reducible apply Kept.refl
    | with_reducible apply Within.refl
    | ((with_reducible apply Within.of); rfl)
    | ((with_reducible apply Within.cons); (apply Piece.inside_of; rfl))
    | ((with_reducible apply Within.cons); apply Or.inr)
    | with_reducible apply Within.nil
    | with_reducible apply List.mem_cons_self
    | with_reducible apply List.mem_cons_of_mem
    | (extract_lets +onlyGivenNames x
       first
       | (guard_hyp x : Block := _
          refine Kept.cut (ps := [.lane ln]) (b := b) (x := x) ?_ fun hx => ?_
          on_goal 1 => subst x
          on_goal 2 => try clear_value x)
       | clear_value x
       | skip)
    | with_reducible apply Block.modLane_keeps
    | with_reducible apply Kept.ite
    | split

theorem execHuntAnswerTimer_kept (ln : LaneId) {s t : State} (h : execHuntAnswerTimer ln s = .next t) : Kept [.lane ln] s.blk t.blk := by
  unfold execHuntAnswerTimer at h
  unfold State.upd at h
  injection h with h
  subst h
  dsimp -zeta only
  generalize s.blk = b
  repeat' first
    | with_reducible assumption
    | with_reducible apply Kept.refl
    | with_reducible apply Within.refl
    | ((with_reducible apply Within.of); rfl)
    | ((with_reducible apply Within.cons); (apply Piece.inside_of; rfl))
    | ((with_reducible apply Within.cons); apply Or.inr)
    | with_reducible apply Within.nil
    | with_reducible apply List.mem_cons_self
    | with_reducible apply List.mem_cons_of_mem
    | with_reducible apply Block.sendAnswer_keeps

theorem execHello_kept (ln : LaneId) (seq : BitVec 8) (roleA : Bool) (grade : Fin 4) (msg : Hello) {s t : State} (h : execHello ln seq roleA grade msg s = .next t) : Kept [.lane ln, .reg (lnOff Off.lnTxDrv ln)] s.blk t.blk := by
  unfold execHello at h
  unfold State.upd at h
  injection h with h
  subst h
  dsimp -zeta only
  generalize s.blk = b
  repeat' first
    | with_reducible assumption
    | with_reducible apply Kept.refl
    | with_reducible apply Within.refl
    | ((with_reducible apply Within.of); rfl)
    | ((with_reducible apply Within.cons); (apply Piece.inside_of; rfl))
    | ((with_reducible apply Within.cons); apply Or.inr)
    | with_reducible apply Within.nil
    | with_reducible apply List.mem_cons_self
    | with_reducible apply List.mem_cons_of_mem
    | (simp only [Kept.by_fields]; with_reducible apply Kept.fields <;>
         first | with_reducible exact Or.inl rfl | (apply Or.inr; apply Piece.mem_of; rfl) | exact Or.inr (by simp; done) | (refine Or.inr ⟨?_, ?_⟩ <;> first | (apply Or.inl; apply Piece.mem_of; rfl) | exact Or.inl (by simp; done) | with_reducible exact Or.inr rfl | with_reducible exact Or.inr ⟨rfl, rfl, rfl, rfl⟩ | with_reducible exact Or.inr ⟨rfl, rfl, rfl, rfl, rfl⟩ | (refine ⟨?_, ?_⟩ <;> first | (apply Or.inl; apply Piece.mem_of; rfl) | exact Or.inl (by simp; done) | with_reducible exact Or.inr rfl)) | skip)
    | with_reducible apply Block.takeHello_keeps
    | with_reducible apply Block.modLane_keeps
    | with_reducible apply Kept.ite
    | split

theorem execLockWindowEnd_kept (ln : LaneId) (own : Bool) (ui : Nat) (signalUi : Nat) (erle : BitVec 8) {s t : State} (h : execLockWindowEnd ln own ui signalUi erle s = .next t) : Kept [.events, .lane ln, .regs, .sides] s.blk t.blk := by
  unfold execLockWindowEnd at h
  unfold State.upd at h
  injection h with h
  subst h
  dsimp -zeta only
  generalize s.blk = b
  repeat' first
    | with_reducible assumption
    | with_reducible apply Kept.refl
    | with_reducible apply Within.refl
    | ((with_reducible apply Within.of); rfl)
    | ((with_reducible apply Within.cons); (apply Piece.inside_of; rfl))
    | ((with_reducible apply Within.cons); apply Or.inr)
    | with_reducible apply Within.nil
    | with_reducible apply List.mem_cons_self
    | with_reducible apply List.mem_cons_of_mem
    | with_reducible apply Block.lockWindow_keeps
    | with_reducible apply Kept.ite
    | split

theorem execLockTimeout_kept (ln : LaneId) {s t : State} (h : execLockTimeout ln s = .next t) : Kept [.lane ln, .reg (lnOff Off.lnTxDrv ln)] s.blk t.blk := by
  unfold execLockTimeout at h
  unfold State.upd at h
  injection h with h
  subst h
  dsimp -zeta only
  generalize s.blk = b
  repeat' first
    | with_reducible assumption
    | with_reducible apply Kept.refl
    | with_reducible apply Within.refl
    | ((with_reducible apply Within.of); rfl)
    | ((with_reducible apply Within.cons); (apply Piece.inside_of; rfl))
    | ((with_reducible apply Within.cons); apply Or.inr)
    | with_reducible apply Within.nil
    | with_reducible apply List.mem_cons_self
    | with_reducible apply List.mem_cons_of_mem
    | with_reducible apply Block.rehunt_keeps
    | with_reducible apply Kept.ite
    | split

theorem execWindow_kept (sd : Side) (lane : Option (Fin 16)) (seq : BitVec 8) (what : BitVec 8) (units : BitVec 16) {s t : State} (h : execWindow sd lane seq what units s = .next t) : Kept [.lanes, .side sd] s.blk t.blk := by
  unfold execWindow at h
  unfold State.upd at h
  injection h with h
  subst h
  dsimp -zeta only
  generalize s.blk = b
  repeat' first
    | with_reducible assumption
    | with_reducible apply Kept.refl
    | with_reducible apply Within.refl
    | ((with_reducible apply Within.of); rfl)
    | ((with_reducible apply Within.cons); (apply Piece.inside_of; rfl))
    | ((with_reducible apply Within.cons); apply Or.inr)
    | with_reducible apply Within.nil
    | with_reducible apply List.mem_cons_self
    | with_reducible apply List.mem_cons_of_mem
    | with_reducible apply Block.takeWindow_keeps
    | with_reducible apply Kept.ite
    | split

theorem execWindowAbandon_kept (sd : Side) {s t : State} (h : execWindowAbandon sd s = .next t) : Kept [.regs, .side sd] s.blk t.blk := by
  unfold execWindowAbandon at h
  unfold State.upd at h
  injection h with h
  subst h
  dsimp -zeta only
  generalize s.blk = b
  repeat' first
    | with_reducible assumption
    | with_reducible apply Kept.refl
    | with_reducible apply Within.refl
    | ((with_reducible apply Within.of); rfl)
    | ((with_reducible apply Within.cons); (apply Piece.inside_of; rfl))
    | ((with_reducible apply Within.cons); apply Or.inr)
    | with_reducible apply Within.nil
    | with_reducible apply List.mem_cons_self
    | with_reducible apply List.mem_cons_of_mem
    | with_reducible apply Block.abandon_keeps
    | with_reducible apply Kept.ite
    | split

theorem execEcDrift_kept (ln : LaneId) (erle : BitVec 8) {s t : State} (h : execEcDrift ln erle s = .next t) : Kept [.lane ln, .reg (lnOff Off.lnAlarm ln), .side (laneSide ln)] s.blk t.blk := by
  unfold execEcDrift at h
  unfold State.upd at h
  injection h with h
  subst h
  dsimp -zeta only
  generalize s.blk = b
  repeat' first
    | with_reducible assumption
    | with_reducible apply Kept.refl
    | with_reducible apply Within.refl
    | ((with_reducible apply Within.of); rfl)
    | ((with_reducible apply Within.cons); (apply Piece.inside_of; rfl))
    | ((with_reducible apply Within.cons); apply Or.inr)
    | with_reducible apply Within.nil
    | with_reducible apply List.mem_cons_self
    | with_reducible apply List.mem_cons_of_mem
    | (extract_lets +onlyGivenNames x
       first
       | (guard_hyp x : Block := _
          refine Kept.cut (ps := [.lane ln, .reg (lnOff Off.lnAlarm ln), .side (laneSide ln)]) (b := b) (x := x) ?_ fun hx => ?_
          on_goal 1 => subst x
          on_goal 2 => try clear_value x)
       | clear_value x
       | skip)
    | with_reducible apply Block.modLane_keeps
    | with_reducible apply Block.askWindow_keeps
    | with_reducible apply Block.orReg_keeps
    | with_reducible apply Kept.ite
    | split

theorem execTapReq_kept (ln : LaneId) (seq : BitVec 8) (tap : BitVec 8) (act : BitVec 8) {s t : State} (h : execTapReq ln seq tap act s = .next t) : Kept [.fresh, .lane ln] s.blk t.blk := by
  unfold execTapReq at h
  unfold State.upd at h
  injection h with h
  subst h
  dsimp -zeta only
  generalize s.blk = b
  repeat' first
    | with_reducible assumption
    | with_reducible apply Kept.refl
    | with_reducible apply Within.refl
    | ((with_reducible apply Within.of); rfl)
    | ((with_reducible apply Within.cons); (apply Piece.inside_of; rfl))
    | ((with_reducible apply Within.cons); apply Or.inr)
    | with_reducible apply Within.nil
    | with_reducible apply List.mem_cons_self
    | with_reducible apply List.mem_cons_of_mem
    | with_reducible apply Block.modLane_keeps
    | with_reducible apply Block.takeTapReq_keeps
    | with_reducible apply Kept.ite
    | split

theorem execTapRsp_kept (ln : LaneId) (seq : BitVec 8) (status : BitVec 8) {s t : State} (h : execTapRsp ln seq status s = .next t) : Kept [.cnt, .events, .fws, .ins, .lanes, .mf, .pw, .qy, .regs, .running, .sides, .slots, .tl] s.blk t.blk := by
  unfold execTapRsp at h
  unfold State.upd at h
  injection h with h
  subst h
  dsimp -zeta only
  generalize s.blk = b
  repeat' first
    | with_reducible assumption
    | with_reducible apply Kept.refl
    | with_reducible apply Within.refl
    | ((with_reducible apply Within.of); rfl)
    | ((with_reducible apply Within.cons); (apply Piece.inside_of; rfl))
    | ((with_reducible apply Within.cons); apply Or.inr)
    | with_reducible apply Within.nil
    | with_reducible apply List.mem_cons_self
    | with_reducible apply List.mem_cons_of_mem
    | with_reducible apply Block.takeTapRsp_keeps
    | with_reducible apply Kept.ite
    | split

theorem execFomMeasureDone_kept (ln : LaneId) (fom : Nat) (ctle : BitVec 4) (ffe : List (BitVec 8)) (dfe : BitVec 7) {s t : State} (h : execFomMeasureDone ln fom ctle ffe dfe s = .next t) : Kept [.lane ln] s.blk t.blk := by
  unfold execFomMeasureDone at h
  unfold State.upd at h
  injection h with h
  subst h
  dsimp -zeta only
  generalize s.blk = b
  repeat' first
    | with_reducible assumption
    | with_reducible apply Kept.refl
    | with_reducible apply Within.refl
    | ((with_reducible apply Within.of); rfl)
    | ((with_reducible apply Within.cons); (apply Piece.inside_of; rfl))
    | ((with_reducible apply Within.cons); apply Or.inr)
    | with_reducible apply Within.nil
    | with_reducible apply List.mem_cons_self
    | with_reducible apply List.mem_cons_of_mem
    | with_reducible apply Block.fomDone_keeps

theorem execTapReqTimeout_kept (ln : LaneId) {s t : State} (h : execTapReqTimeout ln s = .next t) : Kept [.cnt, .events, .fws, .ins, .lanes, .mf, .pw, .qy, .regs, .running, .sides, .slots, .tl] s.blk t.blk := by
  unfold execTapReqTimeout at h
  unfold State.upd at h
  injection h with h
  subst h
  dsimp -zeta only
  generalize s.blk = b
  repeat' first
    | with_reducible assumption
    | with_reducible apply Kept.refl
    | with_reducible apply Within.refl
    | ((with_reducible apply Within.of); rfl)
    | ((with_reducible apply Within.cons); (apply Piece.inside_of; rfl))
    | ((with_reducible apply Within.cons); apply Or.inr)
    | with_reducible apply Within.nil
    | with_reducible apply List.mem_cons_self
    | with_reducible apply List.mem_cons_of_mem
    | with_reducible apply Block.tapTimeout_keeps
    | with_reducible apply Kept.ite
    | split

theorem execTapDone_kept (ln : LaneId) (seq : BitVec 8) (pass : Bool) (_fom : BitVec 8) {s t : State} (h : execTapDone ln seq pass _fom s = .next t) : Kept [.cnt, .events, .fws, .ins, .lanes, .mf, .pw, .qy, .regs, .running, .sides, .slots, .tl] s.blk t.blk := by
  unfold execTapDone at h
  unfold State.upd at h
  injection h with h
  subst h
  dsimp -zeta only
  generalize s.blk = b
  repeat' first
    | with_reducible assumption
    | with_reducible apply Kept.refl
    | with_reducible apply Within.refl
    | ((with_reducible apply Within.of); rfl)
    | ((with_reducible apply Within.cons); (apply Piece.inside_of; rfl))
    | ((with_reducible apply Within.cons); apply Or.inr)
    | with_reducible apply Within.nil
    | with_reducible apply List.mem_cons_self
    | with_reducible apply List.mem_cons_of_mem
    | with_reducible apply Block.outcome_keeps
    | with_reducible apply Block.modLane_keeps
    | with_reducible apply Kept.ite
    | split

theorem execTrainTimeout_kept (ln : LaneId) {s t : State} (h : execTrainTimeout ln s = .next t) : Kept [.cnt, .events, .fws, .ins, .lanes, .mf, .pw, .qy, .regs, .running, .sides, .slots, .tl] s.blk t.blk := by
  unfold execTrainTimeout at h
  unfold State.upd at h
  injection h with h
  subst h
  dsimp -zeta only
  generalize s.blk = b
  repeat' first
    | with_reducible assumption
    | with_reducible apply Kept.refl
    | with_reducible apply Within.refl
    | ((with_reducible apply Within.of); rfl)
    | ((with_reducible apply Within.cons); (apply Piece.inside_of; rfl))
    | ((with_reducible apply Within.cons); apply Or.inr)
    | with_reducible apply Within.nil
    | with_reducible apply List.mem_cons_self
    | with_reducible apply List.mem_cons_of_mem
    | with_reducible apply Block.moveTaken_keeps
    | with_reducible apply Block.outcome_keeps
    | with_reducible apply Block.modLane_keeps
    | with_reducible apply Kept.ite
    | split

theorem execCap_kept (sd : Side) (seq : BitVec 8) (c : Cap) {s t : State} (h : execCap sd seq c s = .next t) : Kept [.events, .reg Off.lgAlarm, .side (otherSide sd), .side sd] s.blk t.blk := by
  unfold execCap at h
  unfold State.upd at h
  injection h with h
  subst h
  dsimp -zeta only
  generalize s.blk = b
  repeat' first
    | with_reducible assumption
    | with_reducible apply Kept.refl
    | with_reducible apply Within.refl
    | ((with_reducible apply Within.of); rfl)
    | ((with_reducible apply Within.cons); (apply Piece.inside_of; rfl))
    | ((with_reducible apply Within.cons); apply Or.inr)
    | with_reducible apply Within.nil
    | with_reducible apply List.mem_cons_self
    | with_reducible apply List.mem_cons_of_mem
    | with_reducible apply Block.takeCap_keeps

theorem execCommit_kept (sd : Side) (seq : BitVec 8) (c : Commit) {s t : State} (h : execCommit sd seq c s = .next t) : Kept [.chs, .events, .lanes, .regs, .sides] s.blk t.blk := by
  unfold execCommit at h
  unfold State.upd at h
  injection h with h
  subst h
  dsimp -zeta only
  generalize s.blk = b
  repeat' first
    | with_reducible assumption
    | with_reducible apply Kept.refl
    | with_reducible apply Within.refl
    | ((with_reducible apply Within.of); rfl)
    | ((with_reducible apply Within.cons); (apply Piece.inside_of; rfl))
    | ((with_reducible apply Within.cons); apply Or.inr)
    | with_reducible apply Within.nil
    | with_reducible apply List.mem_cons_self
    | with_reducible apply List.mem_cons_of_mem
    | with_reducible apply Block.takeCommit_keeps
    | with_reducible apply Kept.ite
    | split

theorem execStart_kept (sd : Side) (own : Bool) (skew : List (Fin 16 × Nat)) {s t : State} (h : execStart sd own skew s = .next t) : Kept [.chs, .cnt, .events, .fws, .ins, .lanes, .mf, .pw, .qy, .regs, .running, .sides, .slots, .sv, .tl] s.blk t.blk := by
  unfold execStart at h
  unfold State.upd at h
  injection h with h
  subst h
  dsimp -zeta only
  generalize s.blk = b
  repeat' first
    | with_reducible assumption
    | with_reducible apply Kept.refl
    | with_reducible apply Within.refl
    | ((with_reducible apply Within.of); rfl)
    | ((with_reducible apply Within.cons); (apply Piece.inside_of; rfl))
    | ((with_reducible apply Within.cons); apply Or.inr)
    | with_reducible apply Within.nil
    | with_reducible apply List.mem_cons_self
    | with_reducible apply List.mem_cons_of_mem
    | with_reducible apply Block.takeStart_keeps
    | with_reducible apply Kept.ite
    | split

theorem execMove_kept (sd : Side) (seq : BitVec 8) (grade : Fin 4) {s t : State} (h : execMove sd seq grade s = .next t) : Kept [.count (fwOff Off.fwDropLo (otherSide sd)), .count Off.qyCplDiscardLo, .events, .fw (otherSide sd), .ins, .lanes, .qy, .regs, .sides, .tl] s.blk t.blk := by
  unfold execMove at h
  unfold State.upd at h
  injection h with h
  subst h
  dsimp -zeta only
  generalize s.blk = b
  repeat' first
    | with_reducible assumption
    | with_reducible apply Kept.refl
    | with_reducible apply Within.refl
    | ((with_reducible apply Within.of); rfl)
    | ((with_reducible apply Within.cons); (apply Piece.inside_of; rfl))
    | ((with_reducible apply Within.cons); apply Or.inr)
    | with_reducible apply Within.nil
    | with_reducible apply List.mem_cons_self
    | with_reducible apply List.mem_cons_of_mem
    | with_reducible apply Block.takeMove_keeps
    | with_reducible apply Kept.ite
    | split

theorem execReform_kept (sd : Side) (seq : BitVec 8) (mask : BitVec 16) (_countdown : BitVec 8) {s t : State} (h : execReform sd seq mask _countdown s = .next t) : Kept [.lanes, .regs, .sides] s.blk t.blk := by
  unfold execReform at h
  unfold State.upd at h
  injection h with h
  subst h
  dsimp -zeta only
  generalize s.blk = b
  repeat' first
    | with_reducible assumption
    | with_reducible apply Kept.refl
    | with_reducible apply Within.refl
    | ((with_reducible apply Within.of); rfl)
    | ((with_reducible apply Within.cons); (apply Piece.inside_of; rfl))
    | ((with_reducible apply Within.cons); apply Or.inr)
    | with_reducible apply Within.nil
    | with_reducible apply List.mem_cons_self
    | with_reducible apply List.mem_cons_of_mem
    | with_reducible apply Block.takeReform_keeps
    | with_reducible apply Kept.ite
    | split

theorem execPrbs_kept (ln : LaneId) (seq : BitVec 8) (pattern : BitVec 8) (ms : BitVec 16) {s t : State} (h : execPrbs ln seq pattern ms s = .next t) : Kept [.lane ln] s.blk t.blk := by
  unfold execPrbs at h
  unfold State.upd at h
  injection h with h
  subst h
  dsimp -zeta only
  generalize s.blk = b
  repeat' first
    | with_reducible assumption
    | with_reducible apply Kept.refl
    | with_reducible apply Within.refl
    | ((with_reducible apply Within.of); rfl)
    | ((with_reducible apply Within.cons); (apply Piece.inside_of; rfl))
    | ((with_reducible apply Within.cons); apply Or.inr)
    | with_reducible apply Within.nil
    | with_reducible apply List.mem_cons_self
    | with_reducible apply List.mem_cons_of_mem
    | (extract_lets +onlyGivenNames x
       first
       | (guard_hyp x : Block := _
          refine Kept.cut (ps := [.lane ln]) (b := b) (x := x) ?_ fun hx => ?_
          on_goal 1 => subst x
          on_goal 2 => try clear_value x)
       | clear_value x
       | skip)
    | with_reducible apply Block.modLane_keeps
    | with_reducible apply Kept.ite
    | split

theorem execLanePrbsEnd_kept (ln : LaneId) (bits : BitVec 48) (errors : BitVec 48) {s t : State} (h : execLanePrbsEnd ln bits errors s = .next t) : Kept [.cnt, .events, .fws, .ins, .lanes, .mf, .pw, .qy, .regs, .running, .sides, .slots, .tl] s.blk t.blk := by
  unfold execLanePrbsEnd at h
  unfold State.upd at h
  injection h with h
  subst h
  dsimp -zeta only
  generalize s.blk = b
  repeat' first
    | with_reducible assumption
    | with_reducible apply Kept.refl
    | with_reducible apply Within.refl
    | ((with_reducible apply Within.of); rfl)
    | ((with_reducible apply Within.cons); (apply Piece.inside_of; rfl))
    | ((with_reducible apply Within.cons); apply Or.inr)
    | with_reducible apply Within.nil
    | with_reducible apply List.mem_cons_self
    | with_reducible apply List.mem_cons_of_mem
    | with_reducible apply Block.prbsEnd_keeps
    | with_reducible apply Block.countPrbs_keeps
    | with_reducible apply Kept.ite
    | split

theorem execPrbsSync_kept (ln : LaneId) (rx : List Bool) {s t : State} (h : execPrbsSync ln rx s = .next t) : Kept [.count (lnOff Off.lnPrbsBitsLo ln), .count (lnOff Off.lnPrbsErrLo ln), .lane ln, .reg (lnOff Off.lnPrbsStatus ln)] s.blk t.blk := by
  unfold execPrbsSync at h
  unfold State.upd at h
  injection h with h
  subst h
  dsimp -zeta only
  generalize s.blk = b
  repeat' first
    | with_reducible assumption
    | with_reducible apply Kept.refl
    | with_reducible apply Within.refl
    | ((with_reducible apply Within.of); rfl)
    | ((with_reducible apply Within.cons); (apply Piece.inside_of; rfl))
    | ((with_reducible apply Within.cons); apply Or.inr)
    | with_reducible apply Within.nil
    | with_reducible apply List.mem_cons_self
    | with_reducible apply List.mem_cons_of_mem
    | with_reducible apply Block.checkBits_keeps
    | with_reducible apply Kept.ite
    | split

theorem execPrbsSyncLost_kept (ln : LaneId) (rx : List Bool) {s t : State} (h : execPrbsSyncLost ln rx s = .next t) : Kept [.count (lnOff Off.lnPrbsBitsLo ln), .count (lnOff Off.lnPrbsErrLo ln), .lane ln, .reg (lnOff Off.lnPrbsStatus ln)] s.blk t.blk := by
  unfold execPrbsSyncLost at h
  unfold State.upd at h
  injection h with h
  subst h
  dsimp -zeta only
  generalize s.blk = b
  repeat' first
    | with_reducible assumption
    | with_reducible apply Kept.refl
    | with_reducible apply Within.refl
    | ((with_reducible apply Within.of); rfl)
    | ((with_reducible apply Within.cons); (apply Piece.inside_of; rfl))
    | ((with_reducible apply Within.cons); apply Or.inr)
    | with_reducible apply Within.nil
    | with_reducible apply List.mem_cons_self
    | with_reducible apply List.mem_cons_of_mem
    | with_reducible apply Block.checkBits_keeps
    | with_reducible apply Kept.ite
    | split

theorem execPrbsSaturated_kept (ln : LaneId) (bits : BitVec 48) (errors : BitVec 48) {s t : State} (h : execPrbsSaturated ln bits errors s = .next t) : Kept [.count (lnOff Off.lnPrbsBitsLo ln), .count (lnOff Off.lnPrbsErrLo ln), .lane ln] s.blk t.blk := by
  unfold execPrbsSaturated at h
  unfold State.upd at h
  injection h with h
  subst h
  dsimp -zeta only
  generalize s.blk = b
  repeat' first
    | with_reducible assumption
    | with_reducible apply Kept.refl
    | with_reducible apply Within.refl
    | ((with_reducible apply Within.of); rfl)
    | ((with_reducible apply Within.cons); (apply Piece.inside_of; rfl))
    | ((with_reducible apply Within.cons); apply Or.inr)
    | with_reducible apply Within.nil
    | with_reducible apply List.mem_cons_self
    | with_reducible apply List.mem_cons_of_mem
    | with_reducible apply Block.countPrbs_keeps
    | with_reducible apply Kept.ite
    | split

theorem execLos_kept (ln : LaneId) (mv : Nat) {s t : State} (h : execLos ln mv s = .next t) : Kept [.cnt, .events, .fws, .ins, .lanes, .qy, .regs, .sides, .tl] s.blk t.blk := by
  unfold execLos at h
  unfold State.upd at h
  injection h with h
  subst h
  dsimp -zeta only
  generalize s.blk = b
  repeat' first
    | with_reducible assumption
    | with_reducible apply Kept.refl
    | with_reducible apply Within.refl
    | ((with_reducible apply Within.of); rfl)
    | ((with_reducible apply Within.cons); (apply Piece.inside_of; rfl))
    | ((with_reducible apply Within.cons); apply Or.inr)
    | with_reducible apply Within.nil
    | with_reducible apply List.mem_cons_self
    | with_reducible apply List.mem_cons_of_mem
    | with_reducible apply Block.leftGrade_keeps
    | with_reducible apply Block.fastAlarm_keeps
    | with_reducible apply Block.loseSignal_keeps
    | with_reducible apply Block.modLane_keeps
    | with_reducible apply Kept.ite
    | split

theorem execLol_kept (ln : LaneId) (phaseErr : Nat) (ppm : Int) {s t : State} (h : execLol ln phaseErr ppm s = .next t) : Kept [.cnt, .events, .fws, .ins, .lanes, .qy, .regs, .sides, .tl] s.blk t.blk := by
  unfold execLol at h
  unfold State.upd at h
  injection h with h
  subst h
  dsimp -zeta only
  generalize s.blk = b
  repeat' first
    | with_reducible assumption
    | with_reducible apply Kept.refl
    | with_reducible apply Within.refl
    | ((with_reducible apply Within.of); rfl)
    | ((with_reducible apply Within.cons); (apply Piece.inside_of; rfl))
    | ((with_reducible apply Within.cons); apply Or.inr)
    | with_reducible apply Within.nil
    | with_reducible apply List.mem_cons_self
    | with_reducible apply List.mem_cons_of_mem
    | with_reducible apply Block.fastAlarm_keeps
    | with_reducible apply Block.modLane_keeps
    | with_reducible apply Kept.ite
    | split

theorem execDegradeCheck_kept (ln : LaneId) (corrected : Nat) (bits : Nat) (uncorrectable : Nat) {s t : State} (h : execDegradeCheck ln corrected bits uncorrectable s = .next t) : Kept [.lane ln, .side (laneSide ln)] s.blk t.blk := by
  unfold execDegradeCheck at h
  unfold State.upd at h
  injection h with h
  subst h
  dsimp -zeta only
  generalize s.blk = b
  repeat' first
    | with_reducible assumption
    | with_reducible apply Kept.refl
    | with_reducible apply Within.refl
    | ((with_reducible apply Within.of); rfl)
    | ((with_reducible apply Within.cons); (apply Piece.inside_of; rfl))
    | ((with_reducible apply Within.cons); apply Or.inr)
    | with_reducible apply Within.nil
    | with_reducible apply List.mem_cons_self
    | with_reducible apply List.mem_cons_of_mem
    | (extract_lets +onlyGivenNames x
       first
       | (guard_hyp x : Block := _
          refine Kept.cut (ps := [.lane ln, .side (laneSide ln)]) (b := b) (x := x) ?_ fun hx => ?_
          on_goal 1 => subst x
          on_goal 2 => try clear_value x)
       | clear_value x
       | skip)
    | with_reducible apply Block.askWindow_keeps
    | with_reducible apply Block.modLane_keeps
    | with_reducible apply Kept.ite
    | split

theorem execDegradedClear_kept (ln : LaneId) {s t : State} (h : execDegradedClear ln s = .next t) : Kept [.lane ln] s.blk t.blk := by
  unfold execDegradedClear at h
  unfold State.upd at h
  injection h with h
  subst h
  dsimp -zeta only
  generalize s.blk = b
  repeat' first
    | with_reducible assumption
    | with_reducible apply Kept.refl
    | with_reducible apply Within.refl
    | ((with_reducible apply Within.of); rfl)
    | ((with_reducible apply Within.cons); (apply Piece.inside_of; rfl))
    | ((with_reducible apply Within.cons); apply Or.inr)
    | with_reducible apply Within.nil
    | with_reducible apply List.mem_cons_self
    | with_reducible apply List.mem_cons_of_mem
    | with_reducible apply Block.modLane_keeps
    | with_reducible apply Kept.ite
    | split

theorem execDegradedTimeout_kept (ln : LaneId) {s t : State} (h : execDegradedTimeout ln s = .next t) : Kept [.cnt, .events, .fws, .ins, .lanes, .qy, .regs, .sides, .tl] s.blk t.blk := by
  unfold execDegradedTimeout at h
  unfold State.upd at h
  injection h with h
  subst h
  dsimp -zeta only
  generalize s.blk = b
  repeat' first
    | with_reducible assumption
    | with_reducible apply Kept.refl
    | with_reducible apply Within.refl
    | ((with_reducible apply Within.of); rfl)
    | ((with_reducible apply Within.cons); (apply Piece.inside_of; rfl))
    | ((with_reducible apply Within.cons); apply Or.inr)
    | with_reducible apply Within.nil
    | with_reducible apply List.mem_cons_self
    | with_reducible apply List.mem_cons_of_mem
    | with_reducible apply Block.dropLaneFull_keeps
    | with_reducible apply Kept.ite
    | split

theorem execLinkRetry_kept (sd : Side) {s t : State} (h : execLinkRetry sd s = .next t) : Kept [.cnt, .events, .fws, .ins, .lanes, .mf, .pw, .qy, .regs, .sides, .tl] s.blk t.blk := by
  unfold execLinkRetry at h
  unfold State.upd at h
  injection h with h
  subst h
  dsimp -zeta only
  generalize s.blk = b
  repeat' first
    | with_reducible assumption
    | with_reducible apply Kept.refl
    | with_reducible apply Within.refl
    | ((with_reducible apply Within.of); rfl)
    | ((with_reducible apply Within.cons); (apply Piece.inside_of; rfl))
    | ((with_reducible apply Within.cons); apply Or.inr)
    | with_reducible apply Within.nil
    | with_reducible apply List.mem_cons_self
    | with_reducible apply List.mem_cons_of_mem
    | with_reducible apply Block.checkOpen_keeps
    | with_reducible apply Block.trainSide_keeps
    | with_reducible apply Block.modSide_keeps
    | with_reducible apply Kept.ite
    | split

theorem execFlitArrive_kept (sd : Side) (f : Flit) (gone : List (Fin 9)) (parityErr : Bool) (cws : List Codeword) (cycles : Nat) {s t : State} (h : execFlitArrive sd f gone parityErr cws cycles s = .next t) : Kept [.berths, .cnt, .events, .fws, .ins, .prot, .qy, .regs, .sides, .tl] s.blk t.blk := by
  unfold execFlitArrive at h
  unfold State.upd at h
  injection h with h
  subst h
  dsimp -zeta only
  generalize s.blk = b
  repeat' first
    | with_reducible assumption
    | with_reducible apply Kept.refl
    | with_reducible apply Within.refl
    | ((with_reducible apply Within.of); rfl)
    | ((with_reducible apply Within.cons); (apply Piece.inside_of; rfl))
    | ((with_reducible apply Within.cons); apply Or.inr)
    | with_reducible apply Within.nil
    | with_reducible apply List.mem_cons_self
    | with_reducible apply List.mem_cons_of_mem
    | with_reducible apply Block.flitArrive_keeps
    | with_reducible apply Kept.ite
    | split

theorem execCredit_kept (sd : Side) (f : Flit) {s t : State} (h : execCredit sd f s = .next t) : Kept [.count Off.qyRefParamLo, .qy, .reg (tlOff Off.tlOvf quayBlk), .side sd, .tl] s.blk t.blk := by
  unfold execCredit at h
  unfold State.upd at h
  injection h with h
  subst h
  dsimp -zeta only
  generalize s.blk = b
  repeat' first
    | with_reducible assumption
    | with_reducible apply Kept.refl
    | with_reducible apply Within.refl
    | ((with_reducible apply Within.of); rfl)
    | ((with_reducible apply Within.cons); (apply Piece.inside_of; rfl))
    | ((with_reducible apply Within.cons); apply Or.inr)
    | with_reducible apply Within.nil
    | with_reducible apply List.mem_cons_self
    | with_reducible apply List.mem_cons_of_mem
    | (extract_lets +onlyGivenNames x
       first
       | (guard_hyp x : Block := _
          refine Kept.cut (ps := [.count Off.qyRefParamLo, .qy, .reg (tlOff Off.tlOvf quayBlk), .side sd, .tl]) (b := b) (x := x) ?_ fun hx => ?_
          on_goal 1 => subst x
          on_goal 2 => try clear_value x)
       | clear_value x
       | skip)
    | with_reducible apply Block.takeClaimed_keeps
    | with_reducible apply Block.addCredit_keeps
    | with_reducible apply Block.tally_keeps
    | with_reducible apply Block.bump_keeps
    | with_reducible apply Kept.ite
    | split

theorem execRemoteCompletion_kept (sd : Side) (f : Flit) {s t : State} (h : execRemoteCompletion sd f s = .next t) : Kept [.count Off.qyCplDiscardLo, .count Off.qyUnknownLo, .events, .ins, .qy, .reg Off.lgAlarm, .reg Off.qyAlarm, .reg Off.tlAlarm, .tl] s.blk t.blk := by
  unfold execRemoteCompletion at h
  unfold State.upd at h
  injection h with h
  subst h
  dsimp -zeta only
  generalize s.blk = b
  repeat' first
    | with_reducible assumption
    | with_reducible apply Kept.refl
    | with_reducible apply Within.refl
    | ((with_reducible apply Within.of); rfl)
    | ((with_reducible apply Within.cons); (apply Piece.inside_of; rfl))
    | ((with_reducible apply Within.cons); apply Or.inr)
    | with_reducible apply Within.nil
    | with_reducible apply List.mem_cons_self
    | with_reducible apply List.mem_cons_of_mem
    | (extract_lets +onlyGivenNames x
       first
       | (guard_hyp x : Block := _
          refine Kept.cut (ps := [.count Off.qyCplDiscardLo, .count Off.qyUnknownLo, .events, .ins, .qy, .reg Off.lgAlarm, .reg Off.qyAlarm, .reg Off.tlAlarm, .tl]) (b := b) (x := x) ?_ fun hx => ?_
          on_goal 1 => subst x
          on_goal 2 => try clear_value x)
       | clear_value x
       | skip)
    | with_reducible apply Block.takeClaimed_keeps
    | with_reducible apply Block.orReg_keeps
    | with_reducible apply Block.bump_keeps
    | with_reducible apply Block.remEnds_keeps
    | with_reducible apply Block.dumpFail_keeps
    | with_reducible apply Kept.ite
    | split

theorem execCreditReturn_kept (sd : Side) (src : BitVec 15) {s t : State} (h : execCreditReturn sd src s = .next t) : Kept [.count Off.qyCplDiscardLo, .events, .ins, .reg Off.lgAlarm, .side sd] s.blk t.blk := by
  unfold execCreditReturn at h
  unfold State.upd at h
  injection h with h
  subst h
  dsimp -zeta only
  generalize s.blk = b
  repeat' first
    | with_reducible assumption
    | with_reducible apply Kept.refl
    | with_reducible apply Within.refl
    | ((with_reducible apply Within.of); rfl)
    | ((with_reducible apply Within.cons); (apply Piece.inside_of; rfl))
    | ((with_reducible apply Within.cons); apply Or.inr)
    | with_reducible apply Within.nil
    | with_reducible apply List.mem_cons_self
    | with_reducible apply List.mem_cons_of_mem
    | (extract_lets +onlyGivenNames x
       first
       | (guard_hyp x : Block := _
          refine Kept.cut (ps := [.count Off.qyCplDiscardLo, .events, .ins, .reg Off.lgAlarm, .side sd]) (b := b) (x := x) ?_ fun hx => ?_
          on_goal 1 => subst x
          on_goal 2 => try clear_value x)
       | (guard_hyp x : Clocks := _; subst x)
       | clear_value x
       | skip)
    | (simp only [Kept.by_fields]; with_reducible apply Kept.fields <;>
         first | with_reducible exact Or.inl rfl | (apply Or.inr; apply Piece.mem_of; rfl) | exact Or.inr (by simp; done) | (refine Or.inr ⟨?_, ?_⟩ <;> first | (apply Or.inl; apply Piece.mem_of; rfl) | exact Or.inl (by simp; done) | with_reducible exact Or.inr rfl | with_reducible exact Or.inr ⟨rfl, rfl, rfl, rfl⟩ | with_reducible exact Or.inr ⟨rfl, rfl, rfl, rfl, rfl⟩ | (refine ⟨?_, ?_⟩ <;> first | (apply Or.inl; apply Piece.mem_of; rfl) | exact Or.inl (by simp; done) | with_reducible exact Or.inr rfl)) | skip)
    | with_reducible apply Block.modSide_keeps
    | with_reducible apply Block.putIns_keeps
    | with_reducible apply Kept.ite
    | split

theorem execCreditStall_kept (sd : Side) {s t : State} (h : execCreditStall sd s = .next t) : Kept [.events, .reg Off.lgAlarm, .reg Off.qyAlarm] s.blk t.blk := by
  unfold execCreditStall at h
  unfold State.upd at h
  injection h with h
  subst h
  dsimp -zeta only
  generalize s.blk = b
  repeat' first
    | with_reducible assumption
    | with_reducible apply Kept.refl
    | with_reducible apply Within.refl
    | ((with_reducible apply Within.of); rfl)
    | ((with_reducible apply Within.cons); (apply Piece.inside_of; rfl))
    | ((with_reducible apply Within.cons); apply Or.inr)
    | with_reducible apply Within.nil
    | with_reducible apply List.mem_cons_self
    | with_reducible apply List.mem_cons_of_mem
    | (simp only [Kept.by_fields]; with_reducible apply Kept.fields <;>
         first | with_reducible exact Or.inl rfl | (apply Or.inr; apply Piece.mem_of; rfl) | exact Or.inr (by simp; done) | (refine Or.inr ⟨?_, ?_⟩ <;> first | (apply Or.inl; apply Piece.mem_of; rfl) | exact Or.inl (by simp; done) | with_reducible exact Or.inr rfl | with_reducible exact Or.inr ⟨rfl, rfl, rfl, rfl⟩ | with_reducible exact Or.inr ⟨rfl, rfl, rfl, rfl, rfl⟩ | (refine ⟨?_, ?_⟩ <;> first | (apply Or.inl; apply Piece.mem_of; rfl) | exact Or.inl (by simp; done) | with_reducible exact Or.inr rfl)) | skip)
    | with_reducible apply Block.orReg_keeps
    | with_reducible apply Block.event_keeps
    | with_reducible apply Kept.ite
    | split

theorem execRemoteWriteTimeout_kept (tag : BitVec 16) {s t : State} (h : execRemoteWriteTimeout tag s = .next t) : Kept [.count Off.qyCplDiscardLo, .events, .ins, .qy, .reg Off.lgAlarm] s.blk t.blk := by
  unfold execRemoteWriteTimeout at h
  unfold State.upd at h
  injection h with h
  subst h
  dsimp -zeta only
  generalize s.blk = b
  repeat' first
    | with_reducible assumption
    | with_reducible apply Kept.refl
    | with_reducible apply Within.refl
    | ((with_reducible apply Within.of); rfl)
    | ((with_reducible apply Within.cons); (apply Piece.inside_of; rfl))
    | ((with_reducible apply Within.cons); apply Or.inr)
    | with_reducible apply Within.nil
    | with_reducible apply List.mem_cons_self
    | with_reducible apply List.mem_cons_of_mem
    | with_reducible apply Block.remEnds_keeps
    | with_reducible apply Kept.ite
    | split

theorem execPartArrive_kept (req : Nat) (part : Nat) {s t : State} (h : execPartArrive req part s = .next t) : Kept [.berths, .chans, .chs, .count Off.qyCplDiscardLo, .events, .ins, .qy, .regs, .stk, .tl] s.blk t.blk := by
  unfold execPartArrive at h
  unfold State.upd at h
  injection h with h
  subst h
  dsimp -zeta only
  generalize s.blk = b
  repeat' first
    | with_reducible assumption
    | with_reducible apply Kept.refl
    | with_reducible apply Within.refl
    | ((with_reducible apply Within.of); rfl)
    | ((with_reducible apply Within.cons); (apply Piece.inside_of; rfl))
    | ((with_reducible apply Within.cons); apply Or.inr)
    | with_reducible apply Within.nil
    | with_reducible apply List.mem_cons_self
    | with_reducible apply List.mem_cons_of_mem
    | with_reducible apply Block.partArrive_keeps

theorem execPartDone_kept (req part : Nat) (dmg : List Damage) (parityErr : Bool) {s t : State} (h : execPartDone req part dmg parityErr s = .next t) :
    Kept [.berths, .chans, .chs, .cnt, .cols, .events, .ins, .prot, .qy, .regs, .slots, .stk, .tl] s.blk t.blk := by
  unfold execPartDone at h
  injection h with h
  subst h
  dsimp only
  apply Block.partDone_keeps (inside := ?_) (before := ?_)
  · simp [Within, Piece.inside]
  · exact Kept.refl _ _

theorem execCommitGate_kept (req : Nat) (badPart : Option Nat) {s t : State} (h : execCommitGate req badPart s = .next t) : Kept [.berths, .chans, .chs, .cnt, .events, .ins, .qy, .regs, .stk, .tl] s.blk t.blk := by
  unfold execCommitGate at h
  unfold State.upd at h
  injection h with h
  subst h
  dsimp -zeta only
  generalize s.blk = b
  repeat' first
    | with_reducible assumption
    | with_reducible apply Kept.refl
    | with_reducible apply Within.refl
    | ((with_reducible apply Within.of); rfl)
    | ((with_reducible apply Within.cons); (apply Piece.inside_of; rfl))
    | ((with_reducible apply Within.cons); apply Or.inr)
    | with_reducible apply Within.nil
    | with_reducible apply List.mem_cons_self
    | with_reducible apply List.mem_cons_of_mem
    | with_reducible apply Block.commitGate_keeps
    | with_reducible apply Kept.ite
    | split

theorem execBeWithdraw_kept (req : Nat) {s t : State} (h : execBeWithdraw req s = .next t) : Kept [.berths, .chans, .chs, .count Off.qyBeCapLo, .count Off.qyCplDiscardLo, .events, .ins, .qy, .reg (tlOff Off.tlOvf quayBlk), .reg Off.lgAlarm, .reg Off.qyAlarm, .stk, .tl] s.blk t.blk := by
  unfold execBeWithdraw at h
  unfold State.upd at h
  injection h with h
  subst h
  dsimp -zeta only
  generalize s.blk = b
  repeat' first
    | with_reducible assumption
    | with_reducible apply Kept.refl
    | with_reducible apply Within.refl
    | ((with_reducible apply Within.of); rfl)
    | ((with_reducible apply Within.cons); (apply Piece.inside_of; rfl))
    | ((with_reducible apply Within.cons); apply Or.inr)
    | with_reducible apply Within.nil
    | with_reducible apply List.mem_cons_self
    | with_reducible apply List.mem_cons_of_mem
    | with_reducible apply Block.beWithdraw_keeps
    | with_reducible apply Kept.ite
    | split

theorem execCharterWithdraw_kept (req : Nat) {s t : State} (h : execCharterWithdraw req s = .next t) : Kept [.berths, .chans, .chs, .count Off.qyCplDiscardLo, .events, .ins, .qy, .reg Off.chAlarm, .reg Off.lgAlarm, .stk] s.blk t.blk := by
  unfold execCharterWithdraw at h
  unfold State.upd at h
  injection h with h
  subst h
  dsimp -zeta only
  generalize s.blk = b
  repeat' first
    | with_reducible assumption
    | with_reducible apply Kept.refl
    | with_reducible apply Within.refl
    | ((with_reducible apply Within.of); rfl)
    | ((with_reducible apply Within.cons); (apply Piece.inside_of; rfl))
    | ((with_reducible apply Within.cons); apply Or.inr)
    | with_reducible apply Within.nil
    | with_reducible apply List.mem_cons_self
    | with_reducible apply List.mem_cons_of_mem
    | with_reducible apply Block.charterWithdraw_keeps

theorem execFillHoldTimeout_kept (req : Nat) {s t : State} (h : execFillHoldTimeout req s = .next t) : Kept [.berths, .chans, .chs, .count Off.qyCplDiscardLo, .events, .ins, .qy, .reg Off.lgAlarm, .stk] s.blk t.blk := by
  unfold execFillHoldTimeout at h
  unfold State.upd at h
  injection h with h
  subst h
  dsimp -zeta only
  generalize s.blk = b
  repeat' first
    | with_reducible assumption
    | with_reducible apply Kept.refl
    | with_reducible apply Within.refl
    | ((with_reducible apply Within.of); rfl)
    | ((with_reducible apply Within.cons); (apply Piece.inside_of; rfl))
    | ((with_reducible apply Within.cons); apply Or.inr)
    | with_reducible apply Within.nil
    | with_reducible apply List.mem_cons_self
    | with_reducible apply List.mem_cons_of_mem
    | with_reducible apply Block.fillHoldTimeout_keeps

theorem execReturnClockLost_kept (lost : BitVec 64) (edge : List (Nat × Nat)) {s t : State} (h : execReturnClockLost lost edge s = .next t) : Kept [.berths, .chans, .chs, .cnt, .events, .fws, .ins, .lanes, .mf, .pw, .qy, .regs, .sides, .stk, .tl] s.blk t.blk := by
  unfold execReturnClockLost at h
  unfold State.upd at h
  injection h with h
  subst h
  dsimp -zeta only
  generalize s.blk = b
  repeat' first
    | with_reducible assumption
    | with_reducible apply Kept.refl
    | with_reducible apply Within.refl
    | ((with_reducible apply Within.of); rfl)
    | ((with_reducible apply Within.cons); (apply Piece.inside_of; rfl))
    | ((with_reducible apply Within.cons); apply Or.inr)
    | with_reducible apply Within.nil
    | with_reducible apply List.mem_cons_self
    | with_reducible apply List.mem_cons_of_mem
    | with_reducible apply Block.diagnose_keeps
    | with_reducible apply Kept.ite
    | split

theorem execCommandIssue_kept (ch : ChId) (dmg : List Damage) (faultyCa : Option (Fin 13)) (parityErr : Bool) {s t : State} (h : execCommandIssue ch dmg faultyCa parityErr s = .next t) :
    Kept [.berths, .chans, .chs, .cnt, .col ch, .events, .fws, .ins, .lanes, .mf, .prot, .pw, .qy, .regs, .sides, .slots, .stk, .tl] s.blk t.blk := by
  have first_ : Kept [.berths, .chans, .chs, .cnt, .col ch, .events, .fws, .ins, .lanes, .mf, .prot, .pw, .qy, .regs, .sides, .slots, .stk, .tl] s.blk (s.blk.atCycle ch) :=
    Block.atCycle_keeps (by simp [Within, Piece.inside]) (Kept.refl _ _)
  unfold execCommandIssue at h
  dsimp only at h
  split at h
  · injection h with h
    subst h
    exact Kept.refl _ _
  · split at h
    · injection h with h
      subst h
      exact first_
    · split at h
      · cases h
      · injection h with h
        subst h
        exact runCmd_keeps (by simp [Within, Piece.inside]) first_

theorem execChannelFillDone_kept (ch : ChId) {s t : State} (h : execChannelFillDone ch s = .next t) : Kept [.berth ch, .chans, .cnt, .events, .fws, .ins, .lanes, .mf, .prot, .pw, .qy, .regs, .sides, .slots, .tl] s.blk t.blk := by
  unfold execChannelFillDone at h
  split at h
  · injection h with h
    subst h
    dsimp only
    apply Block.checkOpen_keeps (inside := ?_) (before := ?_)
    · simp [Within, Piece.inside]
    apply Block.fillDone_keeps (inside := ?_) (before := ?_)
    · simp [Within, Piece.inside]
    · exact Kept.refl _ _
  · injection h with h
    subst h
    exact Kept.refl _ _

theorem execSrIdleTimer_kept (ch : ChId) {s t : State} (h : execSrIdleTimer ch s = .next t) : Kept [.chan ch, .count (dcOff Off.dcSrEntryLo ch)] s.blk t.blk := by
  unfold execSrIdleTimer at h
  unfold State.upd at h
  injection h with h
  subst h
  dsimp -zeta only
  generalize s.blk = b
  repeat' first
    | with_reducible assumption
    | with_reducible apply Kept.refl
    | with_reducible apply Within.refl
    | ((with_reducible apply Within.of); rfl)
    | ((with_reducible apply Within.cons); (apply Piece.inside_of; rfl))
    | ((with_reducible apply Within.cons); apply Or.inr)
    | with_reducible apply Within.nil
    | with_reducible apply List.mem_cons_self
    | with_reducible apply List.mem_cons_of_mem
    | with_reducible apply Block.srIdle_keeps

theorem execSrEntryDone_kept (ch : ChId) {s t : State} (h : execSrEntryDone ch s = .next t) : Kept [.chan ch] s.blk t.blk := by
  unfold execSrEntryDone at h
  unfold State.upd at h
  injection h with h
  subst h
  dsimp -zeta only
  generalize s.blk = b
  repeat' first
    | with_reducible assumption
    | with_reducible apply Kept.refl
    | with_reducible apply Within.refl
    | ((with_reducible apply Within.of); rfl)
    | ((with_reducible apply Within.cons); (apply Piece.inside_of; rfl))
    | ((with_reducible apply Within.cons); apply Or.inr)
    | with_reducible apply Within.nil
    | with_reducible apply List.mem_cons_self
    | with_reducible apply List.mem_cons_of_mem
    | with_reducible apply Block.srEntry_keeps

theorem execRefreshTick_kept (ch : ChId) (faultyCa : Option (Fin 13)) {s t : State} (h : execRefreshTick ch faultyCa s = .next t) : Kept [.berths, .chans, .chs, .cnt, .col ch, .events, .fws, .ins, .lanes, .mf, .pw, .qy, .regs, .sides, .stk, .tl] s.blk t.blk := by
  unfold execRefreshTick at h
  unfold State.upd at h
  injection h with h
  subst h
  dsimp -zeta only
  generalize s.blk = b
  repeat' first
    | with_reducible assumption
    | with_reducible apply Kept.refl
    | with_reducible apply Within.refl
    | ((with_reducible apply Within.of); rfl)
    | ((with_reducible apply Within.cons); (apply Piece.inside_of; rfl))
    | ((with_reducible apply Within.cons); apply Or.inr)
    | with_reducible apply Within.nil
    | with_reducible apply List.mem_cons_self
    | with_reducible apply List.mem_cons_of_mem
    | with_reducible apply Block.refreshTick_keeps
    | with_reducible apply Kept.ite
    | split

theorem execRefreshPullIn_kept (ch : ChId) (faultyCa : Option (Fin 13)) {s t : State} (h : execRefreshPullIn ch faultyCa s = .next t) : Kept [.berths, .chans, .chs, .cnt, .col ch, .events, .fws, .ins, .lanes, .mf, .pw, .qy, .regs, .sides, .stk, .tl] s.blk t.blk := by
  unfold execRefreshPullIn at h
  unfold State.upd at h
  injection h with h
  subst h
  dsimp -zeta only
  generalize s.blk = b
  repeat' first
    | with_reducible assumption
    | with_reducible apply Kept.refl
    | with_reducible apply Within.refl
    | ((with_reducible apply Within.of); rfl)
    | ((with_reducible apply Within.cons); (apply Piece.inside_of; rfl))
    | ((with_reducible apply Within.cons); apply Or.inr)
    | with_reducible apply Within.nil
    | with_reducible apply List.mem_cons_self
    | with_reducible apply List.mem_cons_of_mem
    | with_reducible apply Block.pullIn_keeps
    | with_reducible apply Kept.ite
    | split

theorem execRefpbPass_kept (ch : ChId) (completes : Bool) {s t : State} (h : execRefpbPass ch completes s = .next t) : Kept [.chan ch] s.blk t.blk := by
  unfold execRefpbPass at h
  unfold State.upd at h
  injection h with h
  subst h
  dsimp -zeta only
  generalize s.blk = b
  repeat' first
    | with_reducible assumption
    | with_reducible apply Kept.refl
    | with_reducible apply Within.refl
    | ((with_reducible apply Within.of); rfl)
    | ((with_reducible apply Within.cons); (apply Piece.inside_of; rfl))
    | ((with_reducible apply Within.cons); apply Or.inr)
    | with_reducible apply Within.nil
    | with_reducible apply List.mem_cons_self
    | with_reducible apply List.mem_cons_of_mem
    | with_reducible apply Block.refpbPass_keeps
    | with_reducible apply Kept.ite
    | split

theorem execCaAlert_kept (ch : ChId) (back : Nat) (coils : List (BitVec 4)) {s t : State} (h : execCaAlert ch back coils s = .next t) : Kept [.chan ch, .col ch, .reg (tlOff Off.tlOvf ch), .reg Off.stAlarm, .tl] s.blk t.blk := by
  unfold execCaAlert at h
  unfold State.upd at h
  injection h with h
  subst h
  dsimp -zeta only
  generalize s.blk = b
  repeat' first
    | with_reducible assumption
    | with_reducible apply Kept.refl
    | with_reducible apply Within.refl
    | ((with_reducible apply Within.of); rfl)
    | ((with_reducible apply Within.cons); (apply Piece.inside_of; rfl))
    | ((with_reducible apply Within.cons); apply Or.inr)
    | with_reducible apply Within.nil
    | with_reducible apply List.mem_cons_self
    | with_reducible apply List.mem_cons_of_mem
    | with_reducible apply Block.caAlert_keeps
    | with_reducible apply Kept.ite
    | split

theorem execSrExitDone_kept (ch : ChId) (lost : BitVec 64) (edge : List (Nat × Nat)) {s t : State} (h : execSrExitDone ch lost edge s = .next t) : Kept [.berths, .chans, .chs, .cnt, .events, .fws, .ins, .lanes, .mf, .pw, .qy, .regs, .running, .sides, .slots, .stk, .tl] s.blk t.blk := by
  unfold execSrExitDone at h
  unfold State.upd at h
  injection h with h
  subst h
  dsimp -zeta only
  generalize s.blk = b
  repeat' first
    | with_reducible assumption
    | with_reducible apply Kept.refl
    | with_reducible apply Within.refl
    | ((with_reducible apply Within.of); rfl)
    | ((with_reducible apply Within.cons); (apply Piece.inside_of; rfl))
    | ((with_reducible apply Within.cons); apply Or.inr)
    | with_reducible apply Within.nil
    | with_reducible apply List.mem_cons_self
    | with_reducible apply List.mem_cons_of_mem
    | with_reducible apply Block.srExit_keeps
    | with_reducible apply Kept.ite
    | split

theorem execScrubRange_kept (m : ManRef) (start : BitVec 64) (len : BitVec 64) (flags : BitVec 32) {s t : State} (h : execScrubRange m start len flags s = .next t) : Kept [.chans, .ins, .prot, .running, .slots] s.blk t.blk := by
  unfold execScrubRange at h
  unfold State.man at h
  unfold State.upd at h
  injection h with h
  subst h
  dsimp -zeta only
  generalize s.blk = b
  repeat' first
    | with_reducible assumption
    | with_reducible apply Kept.refl
    | with_reducible apply Within.refl
    | ((with_reducible apply Within.of); rfl)
    | ((with_reducible apply Within.cons); (apply Piece.inside_of; rfl))
    | ((with_reducible apply Within.cons); apply Or.inr)
    | with_reducible apply Within.nil
    | with_reducible apply List.mem_cons_self
    | with_reducible apply List.mem_cons_of_mem
    | with_reducible apply Block.scrubRange_keeps
    | with_reducible apply Block.finish_keeps
    | with_reducible apply Kept.ite
    | split

theorem execScrubDone_kept (dmg : List Damage) {s t : State} (h : execScrubDone dmg s = .next t) : Kept [.berths, .chans, .cnt, .cols, .ins, .prot, .regs, .running, .slots, .tl] s.blk t.blk := by
  unfold execScrubDone at h
  split at h
  · injection h with h
    subst h
    dsimp only
    apply Block.endScrub_keeps (inside := ?_) (before := ?_)
    · simp [Within, Piece.inside]
    have pass (ns : List Nat) (acc : List Host.Cell × Block) (before : Kept [.berths, .chans, .cnt, .cols, .ins, .prot, .regs, .running, .slots, .tl] s.blk acc.2) :
        Kept [.berths, .chans, .cnt, .cols, .ins, .prot, .regs, .running, .slots, .tl] s.blk (ns.foldl (fun (acc : List Host.Cell × Block) n => scrubRest acc.1 acc.2 dmg n) acc).2 :=
      Kept.foldl_snd ns (fun _ _ k => scrubRest_keeps (by simp [Within, Piece.inside]) k) before
    exact pass _ _ (Kept.refl _ _)
  · injection h with h
    subst h
    exact Kept.refl _ _

theorem execStackDieReset_kept (m : ManRef) (die : BitVec 8) {s t : State} (h : execStackDieReset m die s = .next t) : Kept [.berths, .chans, .chs, .cnt, .events, .fws, .ins, .lanes, .mf, .pw, .qy, .regs, .running, .sides, .slots, .stk, .tl] s.blk t.blk := by
  unfold execStackDieReset at h
  unfold State.man at h
  unfold State.upd at h
  injection h with h
  subst h
  dsimp -zeta only
  generalize s.blk = b
  repeat' first
    | with_reducible assumption
    | with_reducible apply Kept.refl
    | with_reducible apply Within.refl
    | ((with_reducible apply Within.of); rfl)
    | ((with_reducible apply Within.cons); (apply Piece.inside_of; rfl))
    | ((with_reducible apply Within.cons); apply Or.inr)
    | with_reducible apply Within.nil
    | with_reducible apply List.mem_cons_self
    | with_reducible apply List.mem_cons_of_mem
    | with_reducible apply Block.stackDieReset_keeps
    | with_reducible apply Block.finish_keeps
    | with_reducible apply Kept.ite
    | split

theorem execDrstRelease_kept  {s t : State} (h : execDrstRelease s = .next t) : Kept [.stk] s.blk t.blk := by
  unfold execDrstRelease at h
  unfold State.upd at h
  injection h with h
  subst h
  dsimp -zeta only
  generalize s.blk = b
  repeat' first
    | with_reducible assumption
    | with_reducible apply Kept.refl
    | with_reducible apply Within.refl
    | ((with_reducible apply Within.of); rfl)
    | ((with_reducible apply Within.cons); (apply Piece.inside_of; rfl))
    | ((with_reducible apply Within.cons); apply Or.inr)
    | with_reducible apply Within.nil
    | with_reducible apply List.mem_cons_self
    | with_reducible apply List.mem_cons_of_mem
    | with_reducible apply Block.drstRelease_keeps

theorem execDieResetCalDone_kept (pass : BitVec 4) (flight : List (Nat × Nat)) {s t : State} (h : execDieResetCalDone pass flight s = .next t) : Kept [.berths, .chans, .cols, .ins, .running, .slots, .stk] s.blk t.blk := by
  unfold execDieResetCalDone at h
  unfold State.upd at h
  injection h with h
  subst h
  dsimp -zeta only
  generalize s.blk = b
  repeat' first
    | with_reducible assumption
    | with_reducible apply Kept.refl
    | with_reducible apply Within.refl
    | ((with_reducible apply Within.of); rfl)
    | ((with_reducible apply Within.cons); (apply Piece.inside_of; rfl))
    | ((with_reducible apply Within.cons); apply Or.inr)
    | with_reducible apply Within.nil
    | with_reducible apply List.mem_cons_self
    | with_reducible apply List.mem_cons_of_mem
    | with_reducible apply Block.dieResetCalDone_keeps
    | with_reducible apply Kept.ite
    | split

theorem execStackReset_kept (m : ManRef) {s t : State} (h : execStackReset m s = .next t) : Kept [.berths, .ins, .running, .slots, .stk] s.blk t.blk := by
  unfold execStackReset at h
  unfold State.man at h
  unfold State.upd at h
  injection h with h
  subst h
  dsimp -zeta only
  generalize s.blk = b
  repeat' first
    | with_reducible assumption
    | with_reducible apply Kept.refl
    | with_reducible apply Within.refl
    | ((with_reducible apply Within.of); rfl)
    | ((with_reducible apply Within.cons); (apply Piece.inside_of; rfl))
    | ((with_reducible apply Within.cons); apply Or.inr)
    | with_reducible apply Within.nil
    | with_reducible apply List.mem_cons_self
    | with_reducible apply List.mem_cons_of_mem
    | with_reducible apply Block.stackReset_keeps
    | with_reducible apply Block.finish_keeps
    | with_reducible apply Kept.ite
    | split

theorem execSrstRelease_kept {s t : State} (h : execSrstRelease s = .next t) : Kept [.stk] s.blk t.blk := by
  unfold execSrstRelease at h
  unfold State.upd at h
  injection h with h
  subst h
  dsimp -zeta only
  generalize s.blk = b
  repeat' first
    | with_reducible assumption
    | with_reducible apply Kept.refl
    | with_reducible apply Within.refl
    | ((with_reducible apply Within.of); rfl)
    | ((with_reducible apply Within.cons); (apply Piece.inside_of; rfl))
    | ((with_reducible apply Within.cons); apply Or.inr)
    | with_reducible apply Within.nil
    | with_reducible apply List.mem_cons_self
    | with_reducible apply List.mem_cons_of_mem
    | (extract_lets +onlyGivenNames x
       first
       | (guard_hyp x : Block := _
          refine Kept.cut (ps := [.stk]) (b := b) (x := x) ?_ fun hx => ?_
          on_goal 1 => subst x
          on_goal 2 => try clear_value x)
       | clear_value x
       | skip)
    | (simp only [Kept.by_fields]; with_reducible apply Kept.fields <;>
         first | with_reducible exact Or.inl rfl | (apply Or.inr; apply Piece.mem_of; rfl) | exact Or.inr (by simp; done) | (refine Or.inr ⟨?_, ?_⟩ <;> first | (apply Or.inl; apply Piece.mem_of; rfl) | exact Or.inl (by simp; done) | with_reducible exact Or.inr rfl | with_reducible exact Or.inr ⟨rfl, rfl, rfl, rfl⟩ | with_reducible exact Or.inr ⟨rfl, rfl, rfl, rfl, rfl⟩ | (refine ⟨?_, ?_⟩ <;> first | (apply Or.inl; apply Piece.mem_of; rfl) | exact Or.inl (by simp; done) | with_reducible exact Or.inr rfl)) | skip)
    | with_reducible apply Kept.ite
    | split

theorem execStackColumnTestDone_kept (pass : BitVec 64) (flight : List (Nat × Nat)) {s t : State} (h : execStackColumnTestDone pass flight s = .next t) : Kept [.berths, .chans, .cols, .ins, .running, .slots, .stk] s.blk t.blk := by
  unfold execStackColumnTestDone at h
  unfold State.upd at h
  injection h with h
  subst h
  dsimp -zeta only
  generalize s.blk = b
  repeat' first
    | with_reducible assumption
    | with_reducible apply Kept.refl
    | with_reducible apply Within.refl
    | ((with_reducible apply Within.of); rfl)
    | ((with_reducible apply Within.cons); (apply Piece.inside_of; rfl))
    | ((with_reducible apply Within.cons); apply Or.inr)
    | with_reducible apply Within.nil
    | with_reducible apply List.mem_cons_self
    | with_reducible apply List.mem_cons_of_mem
    | with_reducible apply Block.columnTestDone_keeps
    | with_reducible apply Kept.ite
    | split

theorem execMemRstRelease_kept (calPass : BitVec 64) (lost : BitVec 64) (flight : List (Nat × Nat)) {s t : State} (h : execMemRstRelease calPass lost flight s = .next t) : Kept [.berths, .chans, .chs, .cnt, .cols, .events, .fws, .ins, .lanes, .mf, .pw, .qy, .regs, .running, .sides, .slots, .stk, .tl] s.blk t.blk := by
  unfold execMemRstRelease at h
  unfold State.upd at h
  injection h with h
  subst h
  dsimp -zeta only
  generalize s.blk = b
  repeat' first
    | with_reducible assumption
    | with_reducible apply Kept.refl
    | with_reducible apply Within.refl
    | ((with_reducible apply Within.of); rfl)
    | ((with_reducible apply Within.cons); (apply Piece.inside_of; rfl))
    | ((with_reducible apply Within.cons); apply Or.inr)
    | with_reducible apply Within.nil
    | with_reducible apply List.mem_cons_self
    | with_reducible apply List.mem_cons_of_mem
    | with_reducible apply Block.restoreMemory_keeps
    | with_reducible apply Kept.ite
    | split

theorem State.coreFails_kept {s t : State} {f : Block → Block} {ps : List Piece} (h : s.coreFails f = .next t)
    (drawn : Within [.fresh] ps) (rest : ∀ b, Kept ps s.blk b → Kept ps s.blk (f b)) : Kept ps s.blk t.blk := by
  unfold State.coreFails at h
  injection h with h
  subst h
  exact rest _ (Block.drawCut_keeps drawn (Kept.refl _ _))

theorem execXtalFail_kept (aonDead hkDead : Bool) {s t : State} (h : execXtalFail aonDead hkDead s = .next t) :
    Kept [.berths, .chans, .chs, .ck, .cnt, .doms, .events, .fresh, .fws, .hold, .ins, .lanes, .lg, .mf, .prot, .pw, .qy, .regs, .running, .sel, .sides, .slots, .stk, .sv, .tide, .tl] s.blk t.blk := by
  unfold execXtalFail at h
  split at h
  · exact State.coreFails_kept h (by simp [Within, Piece.inside]) fun b k => Block.xtalFail_keeps (by simp [Within, Piece.inside]) k
  · injection h with h
    subst h
    exact Kept.refl _ _

theorem execRootLost_kept (aonDead hkDead : Bool) {s t : State} (h : execRootLost aonDead hkDead s = .next t) :
    Kept [.berths, .chans, .chs, .ck, .cnt, .doms, .events, .fresh, .fws, .hold, .ins, .lanes, .lg, .mf, .prot, .pw, .qy, .regs, .running, .sel, .sides, .slots, .stk, .sv, .tl] s.blk t.blk := by
  unfold execRootLost at h
  split at h
  · exact State.coreFails_kept h (by simp [Within, Piece.inside]) fun b k => Block.rootLost_keeps (by simp [Within, Piece.inside]) k
  · injection h with h
    subst h
    exact Kept.refl _ _

theorem execLanePllFail_kept (sd : Side) (refLost : Bool) {s t : State} (h : execLanePllFail sd refLost s = .next t) : Kept [.ck, .cnt, .events, .fws, .ins, .lanes, .mf, .pw, .qy, .regs, .running, .sides, .slots, .tl] s.blk t.blk := by
  unfold execLanePllFail at h
  unfold State.upd at h
  injection h with h
  subst h
  dsimp -zeta only
  generalize s.blk = b
  repeat' first
    | with_reducible assumption
    | with_reducible apply Kept.refl
    | with_reducible apply Within.refl
    | ((with_reducible apply Within.of); rfl)
    | ((with_reducible apply Within.cons); (apply Piece.inside_of; rfl))
    | ((with_reducible apply Within.cons); apply Or.inr)
    | with_reducible apply Within.nil
    | with_reducible apply List.mem_cons_self
    | with_reducible apply List.mem_cons_of_mem
    | with_reducible apply Block.lanePllFail_keeps
    | with_reducible apply Kept.ite
    | split

theorem execRcFail_kept {s t : State} (h : execRcFail s = .next t) : Kept [.ck, .events, .ins, .reg Off.ckAlarm, .reg Off.lgAlarm, .running, .slots] s.blk t.blk := by
  unfold execRcFail at h
  unfold State.upd at h
  injection h with h
  subst h
  dsimp -zeta only
  generalize s.blk = b
  repeat' first
    | with_reducible assumption
    | with_reducible apply Kept.refl
    | with_reducible apply Within.refl
    | ((with_reducible apply Within.of); rfl)
    | ((with_reducible apply Within.cons); (apply Piece.inside_of; rfl))
    | ((with_reducible apply Within.cons); apply Or.inr)
    | with_reducible apply Within.nil
    | with_reducible apply List.mem_cons_self
    | with_reducible apply List.mem_cons_of_mem
    | with_reducible apply Block.rcFail_keeps
    | with_reducible apply Kept.ite
    | split

theorem execRailUv_kept (r : Rail) {s t : State} (h : execRailUv r s = .next t) : Kept [.berths, .chans, .chs, .ck, .cnt, .doms, .events, .fresh, .fws, .hold, .ins, .lanes, .lg, .mf, .pins, .prot, .pw, .qy, .regs, .running, .sel, .sides, .slots, .stk, .sv, .tl] s.blk t.blk := by
  unfold execRailUv at h
  split at h
  · injection h with h
    subst h
    exact Kept.refl _ _
  · split at h
    · exact State.upd_kept h (Block.railQuiet_keeps (by simp [Within, Piece.inside]) (Kept.refl _ _))
    · split at h
      · split at h
        · exact State.coreFails_kept h (by simp [Within, Piece.inside]) fun b k =>
            Block.rootLost_keeps (by simp [Within, Piece.inside]) (Block.railEvent_keeps (by simp [Within, Piece.inside]) k)
        · exact State.upd_kept h (Block.railEvent_keeps (by simp [Within, Piece.inside]) (Kept.refl _ _))
      · exact State.upd_kept h (Block.lanePllFail_keeps (by simp [Within, Piece.inside]) (Block.lanePllFail_keeps (by simp [Within, Piece.inside])
          (Block.railEvent_keeps (by simp [Within, Piece.inside]) (Kept.refl _ _))))
      · exact State.upd_kept h (Block.lanePllFail_keeps (by simp [Within, Piece.inside]) (Block.lanePllFail_keeps (by simp [Within, Piece.inside])
          (Block.railEvent_keeps (by simp [Within, Piece.inside]) (Kept.refl _ _))))
      · exact State.upd_kept h (Block.stackRailFault_keeps (by simp [Within, Piece.inside]) (Block.railEvent_keeps (by simp [Within, Piece.inside]) (Kept.refl _ _)))
      · exact State.upd_kept h (Block.stackRailFault_keeps (by simp [Within, Piece.inside]) (Block.railEvent_keeps (by simp [Within, Piece.inside]) (Kept.refl _ _)))
      · exact State.upd_kept h (Block.railEvent_keeps (by simp [Within, Piece.inside]) (Kept.refl _ _))

theorem execRailRecovery_kept (r : Rail) {s t : State} (h : execRailRecovery r s = .next t) : Kept [.pins] s.blk t.blk := by
  unfold execRailRecovery at h
  unfold State.upd at h
  injection h with h
  subst h
  dsimp -zeta only
  generalize s.blk = b
  repeat' first
    | with_reducible assumption
    | with_reducible apply Kept.refl
    | with_reducible apply Within.refl
    | ((with_reducible apply Within.of); rfl)
    | ((with_reducible apply Within.cons); (apply Piece.inside_of; rfl))
    | ((with_reducible apply Within.cons); apply Or.inr)
    | with_reducible apply Within.nil
    | with_reducible apply List.mem_cons_self
    | with_reducible apply List.mem_cons_of_mem
    | (extract_lets +onlyGivenNames x
       first
       | (guard_hyp x : Block := _
          refine Kept.cut (ps := [.pins]) (b := b) (x := x) ?_ fun hx => ?_
          on_goal 1 => subst x
          on_goal 2 => try clear_value x)
       | clear_value x
       | skip)
    | (simp only [Kept.by_fields]; with_reducible apply Kept.fields <;>
         first | with_reducible exact Or.inl rfl | (apply Or.inr; apply Piece.mem_of; rfl) | exact Or.inr (by simp; done) | (refine Or.inr ⟨?_, ?_⟩ <;> first | (apply Or.inl; apply Piece.mem_of; rfl) | exact Or.inl (by simp; done) | with_reducible exact Or.inr rfl | with_reducible exact Or.inr ⟨rfl, rfl, rfl, rfl⟩ | with_reducible exact Or.inr ⟨rfl, rfl, rfl, rfl, rfl⟩ | (refine ⟨?_, ?_⟩ <;> first | (apply Or.inl; apply Piece.mem_of; rfl) | exact Or.inl (by simp; done) | with_reducible exact Or.inr rfl)) | skip)

theorem execReferencePresent_kept (sd : Side) {s t : State} (h : execReferencePresent sd s = .next t) : Kept [.side sd] s.blk t.blk := by
  unfold execReferencePresent at h
  unfold State.upd at h
  injection h with h
  subst h
  dsimp -zeta only
  generalize s.blk = b
  repeat' first
    | with_reducible assumption
    | with_reducible apply Kept.refl
    | with_reducible apply Within.refl
    | ((with_reducible apply Within.of); rfl)
    | ((with_reducible apply Within.cons); (apply Piece.inside_of; rfl))
    | ((with_reducible apply Within.cons); apply Or.inr)
    | with_reducible apply Within.nil
    | with_reducible apply List.mem_cons_self
    | with_reducible apply List.mem_cons_of_mem
    | (simp only [Kept.by_fields]; with_reducible apply Kept.fields <;>
         first | with_reducible exact Or.inl rfl | (apply Or.inr; apply Piece.mem_of; rfl) | exact Or.inr (by simp; done) | (refine Or.inr ⟨?_, ?_⟩ <;> first | (apply Or.inl; apply Piece.mem_of; rfl) | exact Or.inl (by simp; done) | with_reducible exact Or.inr rfl | with_reducible exact Or.inr ⟨rfl, rfl, rfl, rfl⟩ | with_reducible exact Or.inr ⟨rfl, rfl, rfl, rfl, rfl⟩ | (refine ⟨?_, ?_⟩ <;> first | (apply Or.inl; apply Piece.mem_of; rfl) | exact Or.inl (by simp; done) | with_reducible exact Or.inr rfl)) | skip)
    | with_reducible apply Block.modSide_keeps
    | with_reducible apply Kept.ite
    | split

theorem execLanePllLock_kept (sd : Side) {s t : State} (h : execLanePllLock sd s = .next t) : Kept [.ck, .events, .lanes, .regs, .sides] s.blk t.blk := by
  unfold execLanePllLock at h
  unfold State.upd at h
  injection h with h
  subst h
  dsimp -zeta only
  generalize s.blk = b
  repeat' first
    | with_reducible assumption
    | with_reducible apply Kept.refl
    | with_reducible apply Within.refl
    | ((with_reducible apply Within.of); rfl)
    | ((with_reducible apply Within.cons); (apply Piece.inside_of; rfl))
    | ((with_reducible apply Within.cons); apply Or.inr)
    | with_reducible apply Within.nil
    | with_reducible apply List.mem_cons_self
    | with_reducible apply List.mem_cons_of_mem
    | (extract_lets +onlyGivenNames x
       first
       | (guard_hyp x : Block := _
          refine Kept.cut (ps := [.ck, .events, .lanes, .regs, .sides]) (b := b) (x := x) ?_ fun hx => ?_
          on_goal 1 => subst x
          on_goal 2 => try clear_value x)
       | clear_value x
       | skip)
    | with_reducible apply Block.linkUp_keeps
    | with_reducible apply Block.setPll_keeps
    | with_reducible apply Kept.ite
    | split

theorem execRelockAttempt_kept (p : Pll) {s t : State} (h : execRelockAttempt p s = .next t) : Kept [.ck] s.blk t.blk := by
  unfold execRelockAttempt at h
  unfold State.upd at h
  injection h with h
  subst h
  dsimp -zeta only
  generalize s.blk = b
  repeat' first
    | with_reducible assumption
    | with_reducible apply Kept.refl
    | with_reducible apply Within.refl
    | ((with_reducible apply Within.of); rfl)
    | ((with_reducible apply Within.cons); (apply Piece.inside_of; rfl))
    | ((with_reducible apply Within.cons); apply Or.inr)
    | with_reducible apply Within.nil
    | with_reducible apply List.mem_cons_self
    | with_reducible apply List.mem_cons_of_mem
    | (extract_lets +onlyGivenNames x
       first
       | (guard_hyp x : Block := _
          refine Kept.cut (ps := [.ck]) (b := b) (x := x) ?_ fun hx => ?_
          on_goal 1 => subst x
          on_goal 2 => try clear_value x)
       | clear_value x
       | skip)
    | with_reducible apply Block.setPll_keeps
    | with_reducible apply Kept.ite
    | split

theorem execRelockSuccess_kept (p : Pll) (calPass : BitVec 64) (lost : BitVec 64) (flight : List (Nat × Nat)) {s t : State} (h : execRelockSuccess p calPass lost flight s = .next t) : Kept [.berths, .chans, .chs, .ck, .cnt, .cols, .events, .fresh, .fws, .hold, .ins, .lanes, .mf, .prot, .pw, .qy, .regs, .running, .sel, .sides, .slots, .stk, .tl] s.blk t.blk := by
  unfold execRelockSuccess at h
  unfold State.upd at h
  injection h with h
  subst h
  dsimp -zeta only
  generalize s.blk = b
  repeat' first
    | with_reducible assumption
    | with_reducible apply Kept.refl
    | with_reducible apply Within.refl
    | ((with_reducible apply Within.of); rfl)
    | ((with_reducible apply Within.cons); (apply Piece.inside_of; rfl))
    | ((with_reducible apply Within.cons); apply Or.inr)
    | with_reducible apply Within.nil
    | with_reducible apply List.mem_cons_self
    | with_reducible apply List.mem_cons_of_mem
    | (extract_lets +onlyGivenNames x
       first
       | (guard_hyp x : Block := _
          refine Kept.cut (ps := [.berths, .chans, .chs, .ck, .cnt, .cols, .events, .fresh, .fws, .hold, .ins, .lanes, .mf, .prot, .pw, .qy, .regs, .running, .sel, .sides, .slots, .stk, .tl]) (b := b) (x := x) ?_ fun hx => ?_
          on_goal 1 => subst x
          on_goal 2 => try clear_value x)
       | clear_value x
       | skip)
    | with_reducible apply Block.setPll_keeps
    | with_reducible apply Block.recoverDone_keeps
    | with_reducible apply Block.restart_keeps
    | with_reducible apply Block.linkUp_keeps
    | with_reducible apply Block.domsReset_keeps
    | with_reducible apply Kept.ite
    | split

theorem execRelockAttemptFail_kept (p : Pll) {s t : State} (h : execRelockAttemptFail p s = .next t) : Kept [.ck, .events, .fresh, .ins, .reg Off.ckAlarm, .reg Off.lgAlarm, .running, .slots] s.blk t.blk := by
  unfold execRelockAttemptFail at h
  unfold State.upd at h
  injection h with h
  subst h
  dsimp -zeta only
  generalize s.blk = b
  repeat' first
    | with_reducible assumption
    | with_reducible apply Kept.refl
    | with_reducible apply Within.refl
    | ((with_reducible apply Within.of); rfl)
    | ((with_reducible apply Within.cons); (apply Piece.inside_of; rfl))
    | ((with_reducible apply Within.cons); apply Or.inr)
    | with_reducible apply Within.nil
    | with_reducible apply List.mem_cons_self
    | with_reducible apply List.mem_cons_of_mem
    | (extract_lets +onlyGivenNames x
       first
       | (guard_hyp x : Block := _
          refine Kept.cut (ps := [.ck, .events, .fresh, .ins, .reg Off.ckAlarm, .reg Off.lgAlarm, .running, .slots]) (b := b) (x := x) ?_ fun hx => ?_
          on_goal 1 => subst x
          on_goal 2 => try clear_value x)
       | clear_value x
       | skip)
    | with_reducible apply Block.setPll_keeps
    | with_reducible apply Block.event_keeps
    | with_reducible apply Block.orReg_keeps
    | with_reducible apply Block.recoverDone_keeps
    | with_reducible apply Kept.ite
    | split

theorem execRecover_kept (m : ManRef) (action : BitVec 8) {s t : State} (h : execRecover m action s = .next t) : Kept [.ck, .ins, .running, .slots] s.blk t.blk := by
  unfold execRecover at h
  unfold State.man at h
  unfold State.upd at h
  injection h with h
  subst h
  dsimp -zeta only
  generalize s.blk = b
  repeat' first
    | with_reducible assumption
    | with_reducible apply Kept.refl
    | with_reducible apply Within.refl
    | ((with_reducible apply Within.of); rfl)
    | ((with_reducible apply Within.cons); (apply Piece.inside_of; rfl))
    | ((with_reducible apply Within.cons); apply Or.inr)
    | with_reducible apply Within.nil
    | with_reducible apply List.mem_cons_self
    | with_reducible apply List.mem_cons_of_mem
    | with_reducible apply Block.recover_keeps
    | with_reducible apply Block.finish_keeps
    | with_reducible apply Kept.ite
    | split

theorem execCrystalRestartDone_kept (ok : Bool) {s t : State} (h : execCrystalRestartDone ok s = .next t) : Kept [.ck, .fresh, .ins, .running, .slots] s.blk t.blk := by
  unfold execCrystalRestartDone at h
  unfold State.upd at h
  injection h with h
  subst h
  dsimp -zeta only
  generalize s.blk = b
  repeat' first
    | with_reducible assumption
    | with_reducible apply Kept.refl
    | with_reducible apply Within.refl
    | ((with_reducible apply Within.of); rfl)
    | ((with_reducible apply Within.cons); (apply Piece.inside_of; rfl))
    | ((with_reducible apply Within.cons); apply Or.inr)
    | with_reducible apply Within.nil
    | with_reducible apply List.mem_cons_self
    | with_reducible apply List.mem_cons_of_mem
    | with_reducible apply Block.crystalDone_keeps
    | with_reducible apply Kept.ite
    | split

theorem execClockSwitch_kept (m : ManRef) (dom : BitVec 8) (src : BitVec 8) (oldDead : Bool) {s t : State} (h : execClockSwitch m dom src oldDead s = .next t) : Kept [.chs, .ck, .cnt, .doms, .events, .fws, .hold, .ins, .lanes, .mf, .regs, .running, .sel, .sides, .slots, .sv, .tl] s.blk t.blk := by
  unfold execClockSwitch at h
  unfold State.man at h
  unfold State.upd at h
  injection h with h
  subst h
  dsimp -zeta only
  generalize s.blk = b
  repeat' first
    | with_reducible assumption
    | with_reducible apply Kept.refl
    | with_reducible apply Within.refl
    | ((with_reducible apply Within.of); rfl)
    | ((with_reducible apply Within.cons); (apply Piece.inside_of; rfl))
    | ((with_reducible apply Within.cons); apply Or.inr)
    | with_reducible apply Within.nil
    | with_reducible apply List.mem_cons_self
    | with_reducible apply List.mem_cons_of_mem
    | with_reducible apply Block.clockSwitch_keeps
    | with_reducible apply Block.finish_keeps
    | with_reducible apply Kept.ite
    | split

theorem execAnalogueTrip_kept (sensor : Fin 56) {s t : State} (h : execAnalogueTrip sensor s = .next t) : Kept [.berths, .chans, .chs, .ck, .cnt, .doms, .events, .fws, .heat, .ins, .lanes, .lg, .pins, .prot, .pw, .qy, .regs, .running, .sides, .slots, .stk, .sv, .tl] s.blk t.blk := by
  unfold execAnalogueTrip at h
  unfold State.upd at h
  injection h with h
  subst h
  dsimp -zeta only
  generalize s.blk = b
  repeat' first
    | with_reducible assumption
    | with_reducible apply Kept.refl
    | with_reducible apply Within.refl
    | ((with_reducible apply Within.of); rfl)
    | ((with_reducible apply Within.cons); (apply Piece.inside_of; rfl))
    | ((with_reducible apply Within.cons); apply Or.inr)
    | with_reducible apply Within.nil
    | with_reducible apply List.mem_cons_self
    | with_reducible apply List.mem_cons_of_mem
    | with_reducible apply Block.frozenTrip_keeps
    | with_reducible apply Block.trip_keeps
    | with_reducible apply Kept.ite
    | split

theorem execTripRecordDone_kept (full : Bool) {s t : State} (h : execTripRecordDone full s = .next t) : Kept [.events, .heat, .lg, .pins, .reg Off.lgAlarm] s.blk t.blk := by
  unfold execTripRecordDone at h
  unfold State.upd at h
  injection h with h
  subst h
  dsimp -zeta only
  generalize s.blk = b
  repeat' first
    | with_reducible assumption
    | with_reducible apply Kept.refl
    | with_reducible apply Within.refl
    | ((with_reducible apply Within.of); rfl)
    | ((with_reducible apply Within.cons); (apply Piece.inside_of; rfl))
    | ((with_reducible apply Within.cons); apply Or.inr)
    | with_reducible apply Within.nil
    | with_reducible apply List.mem_cons_self
    | with_reducible apply List.mem_cons_of_mem
    | with_reducible apply Block.tripWrite_keeps

theorem execWatchRound_kept (r : Readings) {s t : State} (h : execWatchRound r s = .next t) : Kept [.berths, .chans, .chs, .ck, .cnt, .cols, .doms, .events, .fresh, .fws, .heat, .ins, .lanes, .lg, .mf, .pins, .prot, .pw, .qy, .regs, .running, .sides, .slots, .stk, .sv, .tl] s.blk t.blk := by
  unfold execWatchRound at h
  unfold State.upd at h
  injection h with h
  subst h
  dsimp -zeta only
  generalize s.blk = b
  repeat' first
    | with_reducible assumption
    | with_reducible apply Kept.refl
    | with_reducible apply Within.refl
    | ((with_reducible apply Within.of); rfl)
    | ((with_reducible apply Within.cons); (apply Piece.inside_of; rfl))
    | ((with_reducible apply Within.cons); apply Or.inr)
    | with_reducible apply Within.nil
    | with_reducible apply List.mem_cons_self
    | with_reducible apply List.mem_cons_of_mem
    | with_reducible apply Block.watchRound_keeps
    | with_reducible apply Kept.ite
    | split

theorem execSensorReplace_kept (m : ManRef) (sensor : BitVec 8) (action : BitVec 8) (floor : BitVec 8) {s t : State} (h : execSensorReplace m sensor action floor s = .next t) : Kept [.heat, .ins, .running, .slots] s.blk t.blk := by
  unfold execSensorReplace at h
  unfold State.man at h
  unfold State.upd at h
  injection h with h
  subst h
  dsimp -zeta only
  generalize s.blk = b
  repeat' first
    | with_reducible assumption
    | with_reducible apply Kept.refl
    | with_reducible apply Within.refl
    | ((with_reducible apply Within.of); rfl)
    | ((with_reducible apply Within.cons); (apply Piece.inside_of; rfl))
    | ((with_reducible apply Within.cons); apply Or.inr)
    | with_reducible apply Within.nil
    | with_reducible apply List.mem_cons_self
    | with_reducible apply List.mem_cons_of_mem
    | with_reducible apply Block.sensorReplace_keeps
    | with_reducible apply Block.finish_keeps
    | with_reducible apply Kept.ite
    | split

theorem execThermStatus_kept (m : ManRef) {s t : State} (h : execThermStatus m s = .next t) : Kept [.ins, .running, .slots] s.blk t.blk := by
  unfold execThermStatus at h
  unfold State.man at h
  unfold State.upd at h
  injection h with h
  subst h
  dsimp -zeta only
  generalize s.blk = b
  repeat' first
    | with_reducible assumption
    | with_reducible apply Kept.refl
    | with_reducible apply Within.refl
    | ((with_reducible apply Within.of); rfl)
    | ((with_reducible apply Within.cons); (apply Piece.inside_of; rfl))
    | ((with_reducible apply Within.cons); apply Or.inr)
    | with_reducible apply Within.nil
    | with_reducible apply List.mem_cons_self
    | with_reducible apply List.mem_cons_of_mem
    | with_reducible apply Block.finish_keeps
    | with_reducible apply Kept.ite
    | split

theorem execSurveyRun_kept (m : ManRef) (scope : BitVec 8) (mode : BitVec 8) (mask : BitVec 64) {s t : State} (h : execSurveyRun m scope mode mask s = .next t) : Kept [.ins, .running, .slots, .sv] s.blk t.blk := by
  unfold execSurveyRun at h
  unfold State.man at h
  unfold State.upd at h
  injection h with h
  subst h
  dsimp -zeta only
  generalize s.blk = b
  repeat' first
    | with_reducible assumption
    | with_reducible apply Kept.refl
    | with_reducible apply Within.refl
    | ((with_reducible apply Within.of); rfl)
    | ((with_reducible apply Within.cons); (apply Piece.inside_of; rfl))
    | ((with_reducible apply Within.cons); apply Or.inr)
    | with_reducible apply Within.nil
    | with_reducible apply List.mem_cons_self
    | with_reducible apply List.mem_cons_of_mem
    | with_reducible apply Block.surveyRun_keeps
    | with_reducible apply Block.finish_keeps
    | with_reducible apply Kept.ite
    | split

theorem execSurveyRunDone_kept (f : SurveyFindings) {s t : State} (h : execSurveyRunDone f s = .next t) : Kept [.berths, .chans, .chs, .cnt, .cols, .doms, .events, .fws, .ins, .lanes, .mf, .pw, .qy, .regs, .running, .sides, .slots, .stk, .sv, .tl] s.blk t.blk := by
  unfold execSurveyRunDone at h
  unfold State.upd at h
  injection h with h
  subst h
  dsimp -zeta only
  generalize s.blk = b
  repeat' first
    | with_reducible assumption
    | with_reducible apply Kept.refl
    | with_reducible apply Within.refl
    | ((with_reducible apply Within.of); rfl)
    | ((with_reducible apply Within.cons); (apply Piece.inside_of; rfl))
    | ((with_reducible apply Within.cons); apply Or.inr)
    | with_reducible apply Within.nil
    | with_reducible apply List.mem_cons_self
    | with_reducible apply List.mem_cons_of_mem
    | with_reducible apply Block.surveyRunDone_keeps
    | with_reducible apply Kept.ite
    | split

theorem execCalibrationDone_kept (cls : Fin 3) (unit : Fin 64) (pass : Bool) (flight : Nat) {s t : State} (h : execCalibrationDone cls unit pass flight s = .next t) : Kept [.berths, .chans, .chs, .cnt, .col unit, .events, .fws, .ins, .lanes, .mf, .pw, .qy, .regs, .running, .sides, .slots, .stk, .sv, .tl] s.blk t.blk := by
  unfold execCalibrationDone at h
  unfold State.upd at h
  injection h with h
  subst h
  dsimp -zeta only
  generalize s.blk = b
  repeat' first
    | with_reducible assumption
    | with_reducible apply Kept.refl
    | with_reducible apply Within.refl
    | ((with_reducible apply Within.of); rfl)
    | ((with_reducible apply Within.cons); (apply Piece.inside_of; rfl))
    | ((with_reducible apply Within.cons); apply Or.inr)
    | with_reducible apply Within.nil
    | with_reducible apply List.mem_cons_self
    | with_reducible apply List.mem_cons_of_mem
    | with_reducible apply Block.calibrationDone_keeps
    | with_reducible apply Kept.ite
    | split

theorem execCalRetry_kept (cls : Fin 3) (unit : Fin 64) (pass : Bool) (flight : Nat) {s t : State} (h : execCalRetry cls unit pass flight s = .next t) : Kept [.berths, .chans, .chs, .cnt, .col unit, .events, .fws, .ins, .lanes, .mf, .pw, .qy, .regs, .running, .sides, .slots, .stk, .sv, .tl] s.blk t.blk := by
  unfold execCalRetry at h
  unfold State.upd at h
  injection h with h
  subst h
  dsimp -zeta only
  generalize s.blk = b
  repeat' first
    | with_reducible assumption
    | with_reducible apply Kept.refl
    | with_reducible apply Within.refl
    | ((with_reducible apply Within.of); rfl)
    | ((with_reducible apply Within.cons); (apply Piece.inside_of; rfl))
    | ((with_reducible apply Within.cons); apply Or.inr)
    | with_reducible apply Within.nil
    | with_reducible apply List.mem_cons_self
    | with_reducible apply List.mem_cons_of_mem
    | with_reducible apply Block.calibrationDone_keeps
    | with_reducible apply Kept.ite
    | split

theorem execCalRun_kept (m : ManRef) (cls : BitVec 8) (mask : BitVec 64) {s t : State} (h : execCalRun m cls mask s = .next t) : Kept [.chans, .ins, .lanes, .running, .sides, .slots, .sv] s.blk t.blk := by
  unfold execCalRun at h
  unfold State.man at h
  unfold State.upd at h
  injection h with h
  subst h
  dsimp -zeta only
  generalize s.blk = b
  repeat' first
    | with_reducible assumption
    | with_reducible apply Kept.refl
    | with_reducible apply Within.refl
    | ((with_reducible apply Within.of); rfl)
    | ((with_reducible apply Within.cons); (apply Piece.inside_of; rfl))
    | ((with_reducible apply Within.cons); apply Or.inr)
    | with_reducible apply Within.nil
    | with_reducible apply List.mem_cons_self
    | with_reducible apply List.mem_cons_of_mem
    | with_reducible apply Block.calRun_keeps
    | with_reducible apply Block.finish_keeps
    | with_reducible apply Kept.ite
    | split

theorem execCalStatus_kept (m : ManRef) (cls : BitVec 8) (unit : BitVec 8) {s t : State} (h : execCalStatus m cls unit s = .next t) : Kept [.ins, .running, .slots] s.blk t.blk := by
  unfold execCalStatus at h
  unfold State.man at h
  unfold State.upd at h
  injection h with h
  subst h
  dsimp -zeta only
  generalize s.blk = b
  repeat' first
    | with_reducible assumption
    | with_reducible apply Kept.refl
    | with_reducible apply Within.refl
    | ((with_reducible apply Within.of); rfl)
    | ((with_reducible apply Within.cons); (apply Piece.inside_of; rfl))
    | ((with_reducible apply Within.cons); apply Or.inr)
    | with_reducible apply Within.nil
    | with_reducible apply List.mem_cons_self
    | with_reducible apply List.mem_cons_of_mem
    | with_reducible apply Block.calStatus_keeps
    | with_reducible apply Block.finish_keeps
    | with_reducible apply Kept.ite
    | split

theorem execPorstNLow_kept  {s t : State} (h : execPorstNLow s = .next t) : Kept [.berths, .chans, .chs, .ck, .cnt, .cols, .doms, .events, .frzOut, .fws, .heat, .hold, .ins, .jtagDr, .keys, .lanes, .lg, .mf, .pins, .prot, .pw, .qy, .rdData, .regs, .running, .sel, .sides, .slots, .stk, .sv, .tide, .tl] s.blk t.blk := by
  unfold execPorstNLow at h
  unfold State.upd at h
  injection h with h
  subst h
  dsimp -zeta only
  generalize s.blk = b
  repeat' first
    | with_reducible assumption
    | with_reducible apply Kept.refl
    | with_reducible apply Within.refl
    | ((with_reducible apply Within.of); rfl)
    | ((with_reducible apply Within.cons); (apply Piece.inside_of; rfl))
    | ((with_reducible apply Within.cons); apply Or.inr)
    | with_reducible apply Within.nil
    | with_reducible apply List.mem_cons_self
    | with_reducible apply List.mem_cons_of_mem
    | with_reducible apply Block.porstLow_keeps

theorem execPorstNRise_kept (strap : BitVec 4) (bts : BitVec 3) (board : List Byte) {s t : State} (h : execPorstNRise strap bts board s = .next t) : Kept [.events, .pins, .pw, .reg Off.lgAlarm] s.blk t.blk := by
  unfold execPorstNRise at h
  unfold State.upd at h
  injection h with h
  subst h
  dsimp -zeta only
  generalize s.blk = b
  repeat' first
    | with_reducible assumption
    | with_reducible apply Kept.refl
    | with_reducible apply Within.refl
    | ((with_reducible apply Within.of); rfl)
    | ((with_reducible apply Within.cons); (apply Piece.inside_of; rfl))
    | ((with_reducible apply Within.cons); apply Or.inr)
    | with_reducible apply Within.nil
    | with_reducible apply List.mem_cons_self
    | with_reducible apply List.mem_cons_of_mem
    | with_reducible apply Block.porstRise_keeps

theorem execAonPowerOnReset_kept  {s t : State} (h : execAonPowerOnReset s = .next t) : Kept [.berths, .chans, .chs, .ck, .cnt, .cols, .doms, .events, .frzOut, .fws, .heat, .hold, .ins, .jtagDr, .keys, .lanes, .lg, .mf, .pins, .prot, .pw, .qy, .rdData, .regs, .running, .sel, .sides, .slots, .stk, .sv, .tide, .tl] s.blk t.blk := by
  unfold execAonPowerOnReset at h
  unfold State.upd at h
  injection h with h
  subst h
  dsimp -zeta only
  generalize s.blk = b
  repeat' first
    | with_reducible assumption
    | with_reducible apply Kept.refl
    | with_reducible apply Within.refl
    | ((with_reducible apply Within.of); rfl)
    | ((with_reducible apply Within.cons); (apply Piece.inside_of; rfl))
    | ((with_reducible apply Within.cons); apply Or.inr)
    | with_reducible apply Within.nil
    | with_reducible apply List.mem_cons_self
    | with_reducible apply List.mem_cons_of_mem
    | with_reducible apply Block.aonLost_keeps

theorem execWrstNFall_kept {s t : State} (h : execWrstNFall s = .next t) : Kept [.berths, .chans, .chs, .ck, .cnt, .cols, .doms, .fws, .heat, .hold, .ins, .keys, .lanes, .lg, .mf, .pins, .prot, .pw, .qy, .rdData, .regs, .running, .sel, .sides, .slots, .stk, .sv, .tl] s.blk t.blk := by
  unfold execWrstNFall at h
  unfold State.upd at h
  injection h with h
  subst h
  dsimp -zeta only
  generalize s.blk = b
  repeat' first
    | with_reducible assumption
    | with_reducible apply Kept.refl
    | with_reducible apply Within.refl
    | ((with_reducible apply Within.of); rfl)
    | ((with_reducible apply Within.cons); (apply Piece.inside_of; rfl))
    | ((with_reducible apply Within.cons); apply Or.inr)
    | with_reducible apply Within.nil
    | with_reducible apply List.mem_cons_self
    | with_reducible apply List.mem_cons_of_mem
    | with_reducible apply Block.wrstFall_keeps
    | with_reducible apply Kept.ite
    | split

theorem execWrstNRise_kept (strap : BitVec 4) (bts : BitVec 3) (board : List Byte) {s t : State} (h : execWrstNRise strap bts board s = .next t) : Kept [.events, .pins, .pw, .reg Off.lgAlarm] s.blk t.blk := by
  unfold execWrstNRise at h
  unfold State.upd at h
  injection h with h
  subst h
  dsimp -zeta only
  generalize s.blk = b
  repeat' first
    | with_reducible assumption
    | with_reducible apply Kept.refl
    | with_reducible apply Within.refl
    | ((with_reducible apply Within.of); rfl)
    | ((with_reducible apply Within.cons); (apply Piece.inside_of; rfl))
    | ((with_reducible apply Within.cons); apply Or.inr)
    | with_reducible apply Within.nil
    | with_reducible apply List.mem_cons_self
    | with_reducible apply List.mem_cons_of_mem
    | with_reducible apply Block.wrstRise_keeps

theorem execBootDone_kept (dir0 : List Byte) (dir1 : List Byte) (imgA : List Byte) (imgB : List Byte) (root : BitVec 384) {s t : State} (h : execBootDone dir0 dir1 imgA imgB root s = .next t) : Kept [.ck, .events, .fresh, .heat, .lg, .mf, .pw, .reg Off.lgAlarm, .reg Off.mfAlarm, .sv] s.blk t.blk := by
  unfold execBootDone at h
  unfold State.upd at h
  injection h with h
  subst h
  dsimp -zeta only
  generalize s.blk = b
  repeat' first
    | with_reducible assumption
    | with_reducible apply Kept.refl
    | with_reducible apply Within.refl
    | ((with_reducible apply Within.of); rfl)
    | ((with_reducible apply Within.cons); (apply Piece.inside_of; rfl))
    | ((with_reducible apply Within.cons); apply Or.inr)
    | with_reducible apply Within.nil
    | with_reducible apply List.mem_cons_self
    | with_reducible apply List.mem_cons_of_mem
    | with_reducible apply Block.bootDone_keeps
    | with_reducible apply Kept.ite
    | split

theorem execArrivalPllLock_kept  {s t : State} (h : execArrivalPllLock s = .next t) : Kept [.ck, .pw] s.blk t.blk := by
  unfold execArrivalPllLock at h
  unfold State.upd at h
  injection h with h
  subst h
  dsimp -zeta only
  generalize s.blk = b
  repeat' first
    | with_reducible assumption
    | with_reducible apply Kept.refl
    | with_reducible apply Within.refl
    | ((with_reducible apply Within.of); rfl)
    | ((with_reducible apply Within.cons); (apply Piece.inside_of; rfl))
    | ((with_reducible apply Within.cons); apply Or.inr)
    | with_reducible apply Within.nil
    | with_reducible apply List.mem_cons_self
    | with_reducible apply List.mem_cons_of_mem
    | with_reducible apply Block.arrivalPll_keeps

theorem execChartReadDone_kept  {s t : State} (h : execChartReadDone s = .next t) : Kept [.berths, .cols, .doms, .fresh, .heat, .keys, .lanes, .pw, .regs, .stk, .sv] s.blk t.blk := by
  unfold execChartReadDone at h
  unfold State.upd at h
  injection h with h
  subst h
  dsimp -zeta only
  generalize s.blk = b
  repeat' first
    | with_reducible assumption
    | with_reducible apply Kept.refl
    | with_reducible apply Within.refl
    | ((with_reducible apply Within.of); rfl)
    | ((with_reducible apply Within.cons); (apply Piece.inside_of; rfl))
    | ((with_reducible apply Within.cons); apply Or.inr)
    | with_reducible apply Within.nil
    | with_reducible apply List.mem_cons_self
    | with_reducible apply List.mem_cons_of_mem
    | with_reducible apply Block.chartRead_keeps

theorem execPowerGood_kept (d : DomId) {s t : State} (h : execPowerGood d s = .next t) : Kept [.chans, .chs, .cnt, .doms, .events, .fresh, .fws, .hold, .ins, .keys, .lanes, .pw, .regs, .running, .sel, .sides, .slots, .sv, .tl] s.blk t.blk := by
  unfold execPowerGood at h
  unfold State.upd at h
  injection h with h
  subst h
  dsimp -zeta only
  generalize s.blk = b
  repeat' first
    | with_reducible assumption
    | with_reducible apply Kept.refl
    | with_reducible apply Within.refl
    | ((with_reducible apply Within.of); rfl)
    | ((with_reducible apply Within.cons); (apply Piece.inside_of; rfl))
    | ((with_reducible apply Within.cons); apply Or.inr)
    | with_reducible apply Within.nil
    | with_reducible apply List.mem_cons_self
    | with_reducible apply List.mem_cons_of_mem
    | with_reducible apply Block.powerGood_keeps
    | with_reducible apply Kept.ite
    | split

theorem execDomainPowerFail_kept (d : DomId) {s t : State} (h : execDomainPowerFail d s = .next t) : Kept [.doms, .events, .fresh, .ins, .keys, .pw, .reg Off.lgAlarm, .reg Off.pwAlarm, .running, .slots, .sv] s.blk t.blk := by
  unfold execDomainPowerFail at h
  unfold State.upd at h
  injection h with h
  subst h
  dsimp -zeta only
  generalize s.blk = b
  repeat' first
    | with_reducible assumption
    | with_reducible apply Kept.refl
    | with_reducible apply Within.refl
    | ((with_reducible apply Within.of); rfl)
    | ((with_reducible apply Within.cons); (apply Piece.inside_of; rfl))
    | ((with_reducible apply Within.cons); apply Or.inr)
    | with_reducible apply Within.nil
    | with_reducible apply List.mem_cons_self
    | with_reducible apply List.mem_cons_of_mem
    | with_reducible apply Block.powerFail_keeps

theorem execDrainDone_kept (d : DomId) {s t : State} (h : execDrainDone d s = .next t) : Kept [.berths, .chans, .ck, .cnt, .doms, .events, .fresh, .fws, .ins, .keys, .lanes, .lg, .mf, .pw, .qy, .regs, .running, .sides, .slots, .sv, .tl] s.blk t.blk := by
  unfold execDrainDone at h
  unfold State.upd at h
  injection h with h
  subst h
  dsimp -zeta only
  generalize s.blk = b
  repeat' first
    | with_reducible assumption
    | with_reducible apply Kept.refl
    | with_reducible apply Within.refl
    | ((with_reducible apply Within.of); rfl)
    | ((with_reducible apply Within.cons); (apply Piece.inside_of; rfl))
    | ((with_reducible apply Within.cons); apply Or.inr)
    | with_reducible apply Within.nil
    | with_reducible apply List.mem_cons_self
    | with_reducible apply List.mem_cons_of_mem
    | with_reducible apply Block.drainDone_keeps
    | with_reducible apply Kept.ite
    | split

theorem execPowerDomain_kept (m : ManRef) (dom : BitVec 8) (action : BitVec 8) {s t : State} (h : execPowerDomain m dom action s = .next t) : Kept [.chs, .cnt, .dom (BitVec.toNat dom), .events, .fws, .ins, .lanes, .mf, .pw, .qy, .regs, .running, .sides, .slots, .tl] s.blk t.blk := by
  unfold execPowerDomain at h
  unfold State.man at h
  unfold State.upd at h
  injection h with h
  subst h
  dsimp -zeta only
  generalize s.blk = b
  repeat' first
    | with_reducible assumption
    | with_reducible apply Kept.refl
    | with_reducible apply Within.refl
    | ((with_reducible apply Within.of); rfl)
    | ((with_reducible apply Within.cons); (apply Piece.inside_of; rfl))
    | ((with_reducible apply Within.cons); apply Or.inr)
    | with_reducible apply Within.nil
    | with_reducible apply List.mem_cons_self
    | with_reducible apply List.mem_cons_of_mem
    | with_reducible apply Block.powerDomain_keeps
    | with_reducible apply Block.finish_keeps
    | with_reducible apply Kept.ite
    | split

theorem execPwrReqNLow_kept  {s t : State} (h : execPwrReqNLow s = .next t) : Kept [.chans, .chs, .ck, .doms, .ins, .lanes, .mf, .prot, .pw, .running, .sides, .slots, .stk, .sv, .tl] s.blk t.blk := by
  unfold execPwrReqNLow at h
  unfold State.upd at h
  injection h with h
  subst h
  dsimp -zeta only
  generalize s.blk = b
  repeat' first
    | with_reducible assumption
    | with_reducible apply Kept.refl
    | with_reducible apply Within.refl
    | ((with_reducible apply Within.of); rfl)
    | ((with_reducible apply Within.cons); (apply Piece.inside_of; rfl))
    | ((with_reducible apply Within.cons); apply Or.inr)
    | with_reducible apply Within.nil
    | with_reducible apply List.mem_cons_self
    | with_reducible apply List.mem_cons_of_mem
    | with_reducible apply Block.powerRequest_keeps

theorem execShutdown_kept (m : ManRef) (noSurvey : Bool) {s t : State} (h : execShutdown m noSurvey s = .next t) : Kept [.chans, .chs, .ck, .doms, .ins, .lanes, .mf, .prot, .pw, .running, .sides, .slots, .stk, .sv, .tl] s.blk t.blk := by
  unfold execShutdown at h
  unfold State.man at h
  unfold State.upd at h
  injection h with h
  subst h
  dsimp -zeta only
  generalize s.blk = b
  repeat' first
    | with_reducible assumption
    | with_reducible apply Kept.refl
    | with_reducible apply Within.refl
    | ((with_reducible apply Within.of); rfl)
    | ((with_reducible apply Within.cons); (apply Piece.inside_of; rfl))
    | ((with_reducible apply Within.cons); apply Or.inr)
    | with_reducible apply Within.nil
    | with_reducible apply List.mem_cons_self
    | with_reducible apply List.mem_cons_of_mem
    | with_reducible apply Block.startDeparture_keeps
    | with_reducible apply Block.finish_keeps
    | with_reducible apply Kept.ite
    | split

theorem execQuiesceDone_kept {s t : State} (h : execQuiesceDone s = .next t) : Kept [.berths, .chans, .chs, .cnt, .doms, .events, .fws, .ins, .lanes, .pw, .qy, .regs, .sides, .sv, .tl] s.blk t.blk := by
  unfold execQuiesceDone at h
  unfold State.upd at h
  injection h with h
  subst h
  dsimp -zeta only
  generalize s.blk = b
  repeat' first
    | with_reducible assumption
    | with_reducible apply Kept.refl
    | with_reducible apply Within.refl
    | ((with_reducible apply Within.of); rfl)
    | ((with_reducible apply Within.cons); (apply Piece.inside_of; rfl))
    | ((with_reducible apply Within.cons); apply Or.inr)
    | with_reducible apply Within.nil
    | with_reducible apply List.mem_cons_self
    | with_reducible apply List.mem_cons_of_mem
    | with_reducible apply Block.quiesceDone_keeps
    | with_reducible apply Kept.ite
    | split

theorem execDepartureSurveyDone_kept (f : SurveyFindings) {s t : State} (h : execDepartureSurveyDone f s = .next t) : Kept [.berths, .chans, .chs, .cnt, .cols, .doms, .events, .fresh, .fws, .ins, .keys, .lanes, .lg, .mf, .pw, .qy, .regs, .sides, .stk, .sv, .tl] s.blk t.blk := by
  unfold execDepartureSurveyDone at h
  unfold State.upd at h
  injection h with h
  subst h
  dsimp -zeta only
  generalize s.blk = b
  repeat' first
    | with_reducible assumption
    | with_reducible apply Kept.refl
    | with_reducible apply Within.refl
    | ((with_reducible apply Within.of); rfl)
    | ((with_reducible apply Within.cons); (apply Piece.inside_of; rfl))
    | ((with_reducible apply Within.cons); apply Or.inr)
    | with_reducible apply Within.nil
    | with_reducible apply List.mem_cons_self
    | with_reducible apply List.mem_cons_of_mem
    | with_reducible apply Block.depSurveyDone_keeps
    | with_reducible apply Kept.ite
    | split

theorem execChartWriteDone_kept  {s t : State} (h : execChartWriteDone s = .next t) : Kept [.doms, .lg, .pw] s.blk t.blk := by
  unfold execChartWriteDone at h
  unfold State.upd at h
  injection h with h
  subst h
  dsimp -zeta only
  generalize s.blk = b
  repeat' first
    | with_reducible assumption
    | with_reducible apply Kept.refl
    | with_reducible apply Within.refl
    | ((with_reducible apply Within.of); rfl)
    | ((with_reducible apply Within.cons); (apply Piece.inside_of; rfl))
    | ((with_reducible apply Within.cons); apply Or.inr)
    | with_reducible apply Within.nil
    | with_reducible apply List.mem_cons_self
    | with_reducible apply List.mem_cons_of_mem
    | with_reducible apply Block.chartWritten_keeps

theorem execDepartureReady_kept {s t : State} (h : execDepartureReady s = .next t) : Kept [.berths, .chans, .ck, .cnt, .doms, .events, .fws, .ins, .lanes, .mf, .pw, .qy, .regs, .running, .sides, .slots, .tl] s.blk t.blk := by
  unfold execDepartureReady at h
  unfold State.upd at h
  injection h with h
  subst h
  dsimp -zeta only
  generalize s.blk = b
  repeat' first
    | with_reducible assumption
    | with_reducible apply Kept.refl
    | with_reducible apply Within.refl
    | ((with_reducible apply Within.of); rfl)
    | ((with_reducible apply Within.cons); (apply Piece.inside_of; rfl))
    | ((with_reducible apply Within.cons); apply Or.inr)
    | with_reducible apply Within.nil
    | with_reducible apply List.mem_cons_self
    | with_reducible apply List.mem_cons_of_mem
    | with_reducible apply Block.departed_keeps
    | with_reducible apply Kept.ite
    | split

theorem execArrivalSurveyDone_kept (f : SurveyFindings) {s t : State} (h : execArrivalSurveyDone f s = .next t) : Kept [.berths, .chans, .chs, .ck, .cnt, .cols, .doms, .events, .fresh, .fws, .ins, .keys, .lanes, .lg, .mf, .prot, .pw, .qy, .regs, .running, .sides, .slots, .stk, .sv, .tl] s.blk t.blk := by
  unfold execArrivalSurveyDone at h
  unfold State.upd at h
  injection h with h
  subst h
  dsimp -zeta only
  generalize s.blk = b
  repeat' first
    | with_reducible assumption
    | with_reducible apply Kept.refl
    | with_reducible apply Within.refl
    | ((with_reducible apply Within.of); rfl)
    | ((with_reducible apply Within.cons); (apply Piece.inside_of; rfl))
    | ((with_reducible apply Within.cons); apply Or.inr)
    | with_reducible apply Within.nil
    | with_reducible apply List.mem_cons_self
    | with_reducible apply List.mem_cons_of_mem
    | with_reducible apply Block.arrivalSurveyDone_keeps
    | with_reducible apply Kept.ite
    | split

theorem execFreezeNFall_kept {s t : State} (h : execFreezeNFall s = .next t) : Kept [.chans, .chs, .ck, .cnt, .fresh, .ins, .lanes, .lg, .pw, .qy, .regs, .sides, .stk] s.blk t.blk := by
  unfold execFreezeNFall at h
  unfold State.upd at h
  injection h with h
  subst h
  dsimp -zeta only
  generalize s.blk = b
  repeat' first
    | with_reducible assumption
    | with_reducible apply Kept.refl
    | with_reducible apply Within.refl
    | ((with_reducible apply Within.of); rfl)
    | ((with_reducible apply Within.cons); (apply Piece.inside_of; rfl))
    | ((with_reducible apply Within.cons); apply Or.inr)
    | with_reducible apply Within.nil
    | with_reducible apply List.mem_cons_self
    | with_reducible apply List.mem_cons_of_mem
    | with_reducible apply Block.freeze_keeps
    | with_reducible apply Kept.ite
    | split

theorem execTrstNLow_kept  {s t : State} (h : execTrstNLow s = .next t) : Kept [.frzOut, .jtagDr] s.blk t.blk := by
  unfold execTrstNLow at h
  unfold State.upd at h
  injection h with h
  subst h
  dsimp -zeta only
  generalize s.blk = b
  repeat' first
    | with_reducible assumption
    | with_reducible apply Kept.refl
    | with_reducible apply Within.refl
    | ((with_reducible apply Within.of); rfl)
    | ((with_reducible apply Within.cons); (apply Piece.inside_of; rfl))
    | ((with_reducible apply Within.cons); apply Or.inr)
    | with_reducible apply Within.nil
    | with_reducible apply List.mem_cons_self
    | with_reducible apply List.mem_cons_of_mem
    | (simp only [Kept.by_fields]; with_reducible apply Kept.fields <;>
         first | with_reducible exact Or.inl rfl | (apply Or.inr; apply Piece.mem_of; rfl) | exact Or.inr (by simp; done) | (refine Or.inr ⟨?_, ?_⟩ <;> first | (apply Or.inl; apply Piece.mem_of; rfl) | exact Or.inl (by simp; done) | with_reducible exact Or.inr rfl | with_reducible exact Or.inr ⟨rfl, rfl, rfl, rfl⟩ | with_reducible exact Or.inr ⟨rfl, rfl, rfl, rfl, rfl⟩ | (refine ⟨?_, ?_⟩ <;> first | (apply Or.inl; apply Piece.mem_of; rfl) | exact Or.inl (by simp; done) | with_reducible exact Or.inr rfl)) | skip)
    | with_reducible apply Kept.ite
    | split

theorem execFrzCapture_kept (index : BitVec 16) {s t : State} (h : execFrzCapture index s = .next t) : Kept [.frzOut] s.blk t.blk := by
  unfold execFrzCapture at h
  unfold State.upd at h
  injection h with h
  subst h
  dsimp -zeta only
  generalize s.blk = b
  repeat' first
    | with_reducible assumption
    | with_reducible apply Kept.refl
    | with_reducible apply Within.refl
    | ((with_reducible apply Within.of); rfl)
    | ((with_reducible apply Within.cons); (apply Piece.inside_of; rfl))
    | ((with_reducible apply Within.cons); apply Or.inr)
    | with_reducible apply Within.nil
    | with_reducible apply List.mem_cons_self
    | with_reducible apply List.mem_cons_of_mem
    | with_reducible apply Block.capture_keeps

theorem execScanEnter_kept (testMode : Bool) {s t : State} (h : execScanEnter testMode s = .next t) : Kept [.chans, .chs, .cnt, .events, .fws, .ins, .keys, .lanes, .lg, .qy, .regs, .sides, .stk, .sv, .tl] s.blk t.blk := by
  unfold execScanEnter at h
  unfold State.upd at h
  injection h with h
  subst h
  dsimp -zeta only
  generalize s.blk = b
  repeat' first
    | with_reducible assumption
    | with_reducible apply Kept.refl
    | with_reducible apply Within.refl
    | ((with_reducible apply Within.of); rfl)
    | ((with_reducible apply Within.cons); (apply Piece.inside_of; rfl))
    | ((with_reducible apply Within.cons); apply Or.inr)
    | with_reducible apply Within.nil
    | with_reducible apply List.mem_cons_self
    | with_reducible apply List.mem_cons_of_mem
    | with_reducible apply Block.scanEnter_keeps
    | with_reducible apply Kept.ite
    | split

theorem execZeroizeDone_kept (pass : Bool) {s t : State} (h : execZeroizeDone pass s = .next t) : Kept [.sv] s.blk t.blk := by
  unfold execZeroizeDone at h
  unfold State.upd at h
  injection h with h
  subst h
  dsimp -zeta only
  generalize s.blk = b
  repeat' first
    | with_reducible assumption
    | with_reducible apply Kept.refl
    | with_reducible apply Within.refl
    | ((with_reducible apply Within.of); rfl)
    | ((with_reducible apply Within.cons); (apply Piece.inside_of; rfl))
    | ((with_reducible apply Within.cons); apply Or.inr)
    | with_reducible apply Within.nil
    | with_reducible apply List.mem_cons_self
    | with_reducible apply List.mem_cons_of_mem
    | (extract_lets +onlyGivenNames x
       first
       | (guard_hyp x : Block := _
          refine Kept.cut (ps := [.sv]) (b := b) (x := x) ?_ fun hx => ?_
          on_goal 1 => subst x
          on_goal 2 => try clear_value x)
       | clear_value x
       | skip)
    | (simp only [Kept.by_fields]; with_reducible apply Kept.fields <;>
         first | with_reducible exact Or.inl rfl | (apply Or.inr; apply Piece.mem_of; rfl) | exact Or.inr (by simp; done) | (refine Or.inr ⟨?_, ?_⟩ <;> first | (apply Or.inl; apply Piece.mem_of; rfl) | exact Or.inl (by simp; done) | with_reducible exact Or.inr rfl | with_reducible exact Or.inr ⟨rfl, rfl, rfl, rfl⟩ | with_reducible exact Or.inr ⟨rfl, rfl, rfl, rfl, rfl⟩ | (refine ⟨?_, ?_⟩ <;> first | (apply Or.inl; apply Piece.mem_of; rfl) | exact Or.inl (by simp; done) | with_reducible exact Or.inr rfl)) | skip)
    | with_reducible apply Kept.ite
    | split

theorem execCharterOpen_kept (m : ManRef) (d : CharterDesc) {s t : State} (h : execCharterOpen m d s = .next t) : Kept [.chans, .chs, .events, .fresh, .ins, .reg Off.lgAlarm, .running, .slots] s.blk t.blk := by
  unfold execCharterOpen at h
  unfold State.man at h
  unfold State.upd at h
  injection h with h
  subst h
  dsimp -zeta only
  generalize s.blk = b
  repeat' first
    | with_reducible assumption
    | with_reducible apply Kept.refl
    | with_reducible apply Within.refl
    | ((with_reducible apply Within.of); rfl)
    | ((with_reducible apply Within.cons); (apply Piece.inside_of; rfl))
    | ((with_reducible apply Within.cons); apply Or.inr)
    | with_reducible apply Within.nil
    | with_reducible apply List.mem_cons_self
    | with_reducible apply List.mem_cons_of_mem
    | with_reducible apply Block.finish_keeps
    | with_reducible apply Block.charterOpen_keeps
    | with_reducible apply Kept.ite
    | split

theorem execCharterClose_kept (m : ManRef) (idx : BitVec 16) {s t : State} (h : execCharterClose m idx s = .next t) : Kept [.chs, .ins, .running, .slots] s.blk t.blk := by
  unfold execCharterClose at h
  unfold State.man at h
  unfold State.upd at h
  injection h with h
  subst h
  dsimp -zeta only
  generalize s.blk = b
  repeat' first
    | with_reducible assumption
    | with_reducible apply Kept.refl
    | with_reducible apply Within.refl
    | ((with_reducible apply Within.of); rfl)
    | ((with_reducible apply Within.cons); (apply Piece.inside_of; rfl))
    | ((with_reducible apply Within.cons); apply Or.inr)
    | with_reducible apply Within.nil
    | with_reducible apply List.mem_cons_self
    | with_reducible apply List.mem_cons_of_mem
    | with_reducible apply Block.finish_keeps
    | with_reducible apply Block.charterClose_keeps
    | with_reducible apply Kept.ite
    | split

theorem execCharterCloseDone_kept (idx : BitVec 12) {s t : State} (h : execCharterCloseDone idx s = .next t) : Kept [.chs, .ins, .running, .slots] s.blk t.blk := by
  unfold execCharterCloseDone at h
  unfold State.upd at h
  injection h with h
  subst h
  dsimp -zeta only
  generalize s.blk = b
  repeat' first
    | with_reducible assumption
    | with_reducible apply Kept.refl
    | with_reducible apply Within.refl
    | ((with_reducible apply Within.of); rfl)
    | ((with_reducible apply Within.cons); (apply Piece.inside_of; rfl))
    | ((with_reducible apply Within.cons); apply Or.inr)
    | with_reducible apply Within.nil
    | with_reducible apply List.mem_cons_self
    | with_reducible apply List.mem_cons_of_mem
    | with_reducible apply Block.charterCloseDone_keeps
    | with_reducible apply Kept.ite
    | split

theorem execCharterQuery_kept (m : ManRef) (idx : BitVec 16) {s t : State} (h : execCharterQuery m idx s = .next t) : Kept [.ins, .running, .slots] s.blk t.blk := by
  unfold execCharterQuery at h
  unfold State.man at h
  unfold State.upd at h
  injection h with h
  subst h
  dsimp -zeta only
  generalize s.blk = b
  repeat' first
    | with_reducible assumption
    | with_reducible apply Kept.refl
    | with_reducible apply Within.refl
    | ((with_reducible apply Within.of); rfl)
    | ((with_reducible apply Within.cons); (apply Piece.inside_of; rfl))
    | ((with_reducible apply Within.cons); apply Or.inr)
    | with_reducible apply Within.nil
    | with_reducible apply List.mem_cons_self
    | with_reducible apply List.mem_cons_of_mem
    | with_reducible apply Block.charterQuery_keeps
    | with_reducible apply Block.finish_keeps
    | with_reducible apply Kept.ite
    | split

theorem execShortfallPassDone_kept  {s t : State} (h : execShortfallPassDone s = .next t) : Kept [.berths, .chans, .chs, .events, .reg Off.chAlarm, .reg Off.htAlarm, .reg Off.lgAlarm] s.blk t.blk := by
  unfold execShortfallPassDone at h
  unfold State.upd at h
  injection h with h
  subst h
  dsimp -zeta only
  generalize s.blk = b
  repeat' first
    | with_reducible assumption
    | with_reducible apply Kept.refl
    | with_reducible apply Within.refl
    | ((with_reducible apply Within.of); rfl)
    | ((with_reducible apply Within.cons); (apply Piece.inside_of; rfl))
    | ((with_reducible apply Within.cons); apply Or.inr)
    | with_reducible apply Within.nil
    | with_reducible apply List.mem_cons_self
    | with_reducible apply List.mem_cons_of_mem
    | with_reducible apply Block.shortfallPass_keeps

theorem execRestorePass_kept  {s t : State} (h : execRestorePass s = .next t) : Kept [.chans, .chs, .events, .ins, .reg Off.lgAlarm, .running, .slots] s.blk t.blk := by
  unfold execRestorePass at h
  unfold State.upd at h
  injection h with h
  subst h
  dsimp -zeta only
  generalize s.blk = b
  repeat' first
    | with_reducible assumption
    | with_reducible apply Kept.refl
    | with_reducible apply Within.refl
    | ((with_reducible apply Within.of); rfl)
    | ((with_reducible apply Within.cons); (apply Piece.inside_of; rfl))
    | ((with_reducible apply Within.cons); apply Or.inr)
    | with_reducible apply Within.nil
    | with_reducible apply List.mem_cons_self
    | with_reducible apply List.mem_cons_of_mem
    | with_reducible apply Block.noteUse_keeps
    | with_reducible apply Block.restoreAll_keeps
    | with_reducible apply Kept.ite
    | split

theorem execLaneStatus_kept (m : ManRef) (side : BitVec 8) {s t : State} (h : execLaneStatus m side s = .next t) : Kept [.ins, .running, .slots] s.blk t.blk := by
  unfold execLaneStatus at h
  unfold State.man at h
  unfold State.upd at h
  injection h with h
  subst h
  dsimp -zeta only
  generalize s.blk = b
  repeat' first
    | with_reducible assumption
    | with_reducible apply Kept.refl
    | with_reducible apply Within.refl
    | ((with_reducible apply Within.of); rfl)
    | ((with_reducible apply Within.cons); (apply Piece.inside_of; rfl))
    | ((with_reducible apply Within.cons); apply Or.inr)
    | with_reducible apply Within.nil
    | with_reducible apply List.mem_cons_self
    | with_reducible apply List.mem_cons_of_mem
    | with_reducible apply Block.laneStatus_keeps
    | with_reducible apply Block.finish_keeps
    | with_reducible apply Kept.ite
    | split

theorem execLaneRetrain_kept (m : ManRef) (side : BitVec 8) (mode : BitVec 8) (mask : BitVec 16) {s t : State} (h : execLaneRetrain m side mode mask s = .next t) : Kept [.cnt, .events, .fws, .ins, .lanes, .qy, .regs, .running, .sides, .slots, .tl] s.blk t.blk := by
  unfold execLaneRetrain at h
  unfold State.man at h
  unfold State.upd at h
  injection h with h
  subst h
  dsimp -zeta only
  generalize s.blk = b
  repeat' first
    | with_reducible assumption
    | with_reducible apply Kept.refl
    | with_reducible apply Within.refl
    | ((with_reducible apply Within.of); rfl)
    | ((with_reducible apply Within.cons); (apply Piece.inside_of; rfl))
    | ((with_reducible apply Within.cons); apply Or.inr)
    | with_reducible apply Within.nil
    | with_reducible apply List.mem_cons_self
    | with_reducible apply List.mem_cons_of_mem
    | (with_reducible apply Block.onSide_keeps; (case inside => simp [Within, Piece.inside]))
    | intro _
    | with_reducible apply Block.laneRetrainOn_keeps
    | with_reducible apply Block.finish_keeps
    | with_reducible apply Kept.ite
    | split

theorem execLanePrbs_kept (m : ManRef) (side : BitVec 8) (lane : BitVec 8) (pattern : BitVec 8) (ms : BitVec 16) {s t : State} (h : execLanePrbs m side lane pattern ms s = .next t) : Kept [.cnt, .events, .fws, .ins, .lanes, .qy, .regs, .running, .sides, .slots, .tl] s.blk t.blk := by
  unfold execLanePrbs at h
  unfold State.man at h
  unfold State.upd at h
  injection h with h
  subst h
  dsimp -zeta only
  generalize s.blk = b
  repeat' first
    | with_reducible assumption
    | with_reducible apply Kept.refl
    | with_reducible apply Within.refl
    | ((with_reducible apply Within.of); rfl)
    | ((with_reducible apply Within.cons); (apply Piece.inside_of; rfl))
    | ((with_reducible apply Within.cons); apply Or.inr)
    | with_reducible apply Within.nil
    | with_reducible apply List.mem_cons_self
    | with_reducible apply List.mem_cons_of_mem
    | (with_reducible apply Block.onSide_keeps; (case inside => simp [Within, Piece.inside]))
    | intro _
    | with_reducible apply Block.lanePrbsOn_keeps
    | with_reducible apply Block.finish_keeps
    | with_reducible apply Kept.ite
    | split

theorem execSscSet_kept (m : ManRef) (side : BitVec 8) (depth : BitVec 8) (rate : BitVec 8) (flags : BitVec 8) {s t : State} (h : execSscSet m side depth rate flags s = .next t) : Kept [.cnt, .events, .fws, .ins, .lanes, .qy, .regs, .running, .sides, .slots, .tl] s.blk t.blk := by
  unfold execSscSet at h
  unfold State.man at h
  unfold State.upd at h
  injection h with h
  subst h
  dsimp -zeta only
  generalize s.blk = b
  repeat' first
    | with_reducible assumption
    | with_reducible apply Kept.refl
    | with_reducible apply Within.refl
    | ((with_reducible apply Within.of); rfl)
    | ((with_reducible apply Within.cons); (apply Piece.inside_of; rfl))
    | ((with_reducible apply Within.cons); apply Or.inr)
    | with_reducible apply Within.nil
    | with_reducible apply List.mem_cons_self
    | with_reducible apply List.mem_cons_of_mem
    | with_reducible apply Block.sscSet_keeps
    | with_reducible apply Block.finish_keeps
    | with_reducible apply Kept.ite
    | split

theorem execKeyLoad_kept (m : ManRef) (k : KeyLoadParams) {s t : State} (h : execKeyLoad m k s = .next t) : Kept [.ins, .keys, .running, .slots] s.blk t.blk := by
  unfold execKeyLoad at h
  unfold State.man at h
  unfold State.upd at h
  injection h with h
  subst h
  dsimp -zeta only
  generalize s.blk = b
  repeat' first
    | with_reducible assumption
    | with_reducible apply Kept.refl
    | with_reducible apply Within.refl
    | ((with_reducible apply Within.of); rfl)
    | ((with_reducible apply Within.cons); (apply Piece.inside_of; rfl))
    | ((with_reducible apply Within.cons); apply Or.inr)
    | with_reducible apply Within.nil
    | with_reducible apply List.mem_cons_self
    | with_reducible apply List.mem_cons_of_mem
    | with_reducible apply Block.keyLoad_keeps
    | with_reducible apply Block.finish_keeps
    | with_reducible apply Kept.ite
    | split

theorem execTallyConfig_kept (m : ManRef) (block : BitVec 8) (counter : BitVec 8) (sel : BitVec 16) {s t : State} (h : execTallyConfig m block counter sel s = .next t) : Kept [.ins, .regs, .running, .slots, .tl] s.blk t.blk := by
  unfold execTallyConfig at h
  unfold State.man at h
  unfold State.upd at h
  injection h with h
  subst h
  dsimp -zeta only
  generalize s.blk = b
  repeat' first
    | with_reducible assumption
    | with_reducible apply Kept.refl
    | with_reducible apply Within.refl
    | ((with_reducible apply Within.of); rfl)
    | ((with_reducible apply Within.cons); (apply Piece.inside_of; rfl))
    | ((with_reducible apply Within.cons); apply Or.inr)
    | with_reducible apply Within.nil
    | with_reducible apply List.mem_cons_self
    | with_reducible apply List.mem_cons_of_mem
    | with_reducible apply Block.tallyConfig_keeps
    | with_reducible apply Block.finish_keeps
    | with_reducible apply Kept.ite
    | split

theorem execDumpConfig_kept (m : ManRef) (d : DumpParams) {s t : State} (h : execDumpConfig m d s = .next t) : Kept [.ins, .running, .slots, .tl] s.blk t.blk := by
  unfold execDumpConfig at h
  unfold State.man at h
  unfold State.upd at h
  injection h with h
  subst h
  dsimp -zeta only
  generalize s.blk = b
  repeat' first
    | with_reducible assumption
    | with_reducible apply Kept.refl
    | with_reducible apply Within.refl
    | ((with_reducible apply Within.of); rfl)
    | ((with_reducible apply Within.cons); (apply Piece.inside_of; rfl))
    | ((with_reducible apply Within.cons); apply Or.inr)
    | with_reducible apply Within.nil
    | with_reducible apply List.mem_cons_self
    | with_reducible apply List.mem_cons_of_mem
    | (extract_lets +onlyGivenNames x
       first
       | (guard_hyp x : Block := _
          refine Kept.cut (ps := [.ins, .running, .slots, .tl]) (b := b) (x := x) ?_ fun hx => ?_
          on_goal 1 => subst x
          on_goal 2 => try clear_value x)
       | clear_value x
       | skip)
    | (simp only [Kept.by_fields]; with_reducible apply Kept.fields <;>
         first | with_reducible exact Or.inl rfl | (apply Or.inr; apply Piece.mem_of; rfl) | exact Or.inr (by simp; done) | (refine Or.inr ⟨?_, ?_⟩ <;> first | (apply Or.inl; apply Piece.mem_of; rfl) | exact Or.inl (by simp; done) | with_reducible exact Or.inr rfl | with_reducible exact Or.inr ⟨rfl, rfl, rfl, rfl⟩ | with_reducible exact Or.inr ⟨rfl, rfl, rfl, rfl, rfl⟩ | (refine ⟨?_, ?_⟩ <;> first | (apply Or.inl; apply Piece.mem_of; rfl) | exact Or.inl (by simp; done) | with_reducible exact Or.inr rfl)) | skip)
    | with_reducible apply Block.finish_keeps
    | with_reducible apply Kept.ite
    | split

theorem execSnapshotStrobe_kept {s t : State} (h : execSnapshotStrobe s = .next t) : Kept [.chans, .events, .fresh, .ins, .qy, .reg Off.lgAlarm, .reg Off.qyTags, .reg Off.tlAlarm, .reg Off.tlSkipped, .tl] s.blk t.blk := by
  unfold execSnapshotStrobe at h
  unfold State.upd at h
  injection h with h
  subst h
  dsimp -zeta only
  generalize s.blk = b
  repeat' first
    | with_reducible assumption
    | with_reducible apply Kept.refl
    | with_reducible apply Within.refl
    | ((with_reducible apply Within.of); rfl)
    | ((with_reducible apply Within.cons); (apply Piece.inside_of; rfl))
    | ((with_reducible apply Within.cons); apply Or.inr)
    | with_reducible apply Within.nil
    | with_reducible apply List.mem_cons_self
    | with_reducible apply List.mem_cons_of_mem
    | (extract_lets +onlyGivenNames x
       first
       | (guard_hyp x : Block := _
          refine Kept.cut (ps := [.chans, .events, .fresh, .ins, .qy, .reg Off.lgAlarm, .reg Off.qyTags, .reg Off.tlAlarm, .reg Off.tlSkipped, .tl]) (b := b) (x := x) ?_ fun hx => ?_
          on_goal 1 => subst x
          on_goal 2 => try clear_value x)
       | clear_value x
       | skip)
    | (simp only [Kept.by_fields]; with_reducible apply Kept.fields <;>
         first | with_reducible exact Or.inl rfl | (apply Or.inr; apply Piece.mem_of; rfl) | exact Or.inr (by simp; done) | (refine Or.inr ⟨?_, ?_⟩ <;> first | (apply Or.inl; apply Piece.mem_of; rfl) | exact Or.inl (by simp; done) | with_reducible exact Or.inr rfl | with_reducible exact Or.inr ⟨rfl, rfl, rfl, rfl⟩ | with_reducible exact Or.inr ⟨rfl, rfl, rfl, rfl, rfl⟩ | (refine ⟨?_, ?_⟩ <;> first | (apply Or.inl; apply Piece.mem_of; rfl) | exact Or.inl (by simp; done) | with_reducible exact Or.inr rfl)) | skip)
    | with_reducible apply Block.strobe_keeps
    | with_reducible apply Block.adoptDump_keeps
    | with_reducible apply Kept.ite
    | split

theorem execSnapshotDone_kept {s t : State} (h : execSnapshotDone s = .next t) : Kept [.berths, .chans, .cnt, .prot, .regs, .tl] s.blk t.blk := by
  unfold execSnapshotDone at h
  unfold State.upd at h
  injection h with h
  subst h
  dsimp -zeta only
  generalize s.blk = b
  repeat' first
    | with_reducible assumption
    | with_reducible apply Kept.refl
    | with_reducible apply Within.refl
    | ((with_reducible apply Within.of); rfl)
    | ((with_reducible apply Within.cons); (apply Piece.inside_of; rfl))
    | ((with_reducible apply Within.cons); apply Or.inr)
    | with_reducible apply Within.nil
    | with_reducible apply List.mem_cons_self
    | with_reducible apply List.mem_cons_of_mem
    | with_reducible apply Block.snapshotDone_keeps
    | with_reducible apply Kept.ite
    | split

theorem execBwWindowEnd_kept {s t : State} (h : execBwWindowEnd s = .next t) : Kept [.tl] s.blk t.blk := by
  unfold execBwWindowEnd at h
  unfold State.upd at h
  injection h with h
  subst h
  dsimp -zeta only
  generalize s.blk = b
  repeat' first
    | with_reducible assumption
    | with_reducible apply Kept.refl
    | with_reducible apply Within.refl
    | ((with_reducible apply Within.of); rfl)
    | ((with_reducible apply Within.cons); (apply Piece.inside_of; rfl))
    | ((with_reducible apply Within.cons); apply Or.inr)
    | with_reducible apply Within.nil
    | with_reducible apply List.mem_cons_self
    | with_reducible apply List.mem_cons_of_mem
    | with_reducible apply Block.windowEnd_keeps
    | with_reducible apply Kept.ite
    | split

theorem execLogRead_kept (m : ManRef) (area : BitVec 8) (count : BitVec 16) (first : BitVec 32) {s t : State} (h : execLogRead m area count first s = .next t) : Kept [.ins, .running, .slots] s.blk t.blk := by
  unfold execLogRead at h
  unfold State.man at h
  unfold State.upd at h
  injection h with h
  subst h
  dsimp -zeta only
  generalize s.blk = b
  repeat' first
    | with_reducible assumption
    | with_reducible apply Kept.refl
    | with_reducible apply Within.refl
    | ((with_reducible apply Within.of); rfl)
    | ((with_reducible apply Within.cons); (apply Piece.inside_of; rfl))
    | ((with_reducible apply Within.cons); apply Or.inr)
    | with_reducible apply Within.nil
    | with_reducible apply List.mem_cons_self
    | with_reducible apply List.mem_cons_of_mem
    | with_reducible apply Block.logRead_keeps
    | with_reducible apply Block.finish_keeps
    | with_reducible apply Kept.ite
    | split

theorem execTripAck_kept (m : ManRef) (tide : BitVec 64) {s t : State} (h : execTripAck m tide s = .next t) : Kept [.cnt, .events, .fws, .ins, .lanes, .lg, .mf, .pw, .qy, .regs, .running, .sides, .slots, .tl] s.blk t.blk := by
  unfold execTripAck at h
  unfold State.man at h
  unfold State.upd at h
  injection h with h
  subst h
  dsimp -zeta only
  generalize s.blk = b
  repeat' first
    | with_reducible assumption
    | with_reducible apply Kept.refl
    | with_reducible apply Within.refl
    | ((with_reducible apply Within.of); rfl)
    | ((with_reducible apply Within.cons); (apply Piece.inside_of; rfl))
    | ((with_reducible apply Within.cons); apply Or.inr)
    | with_reducible apply Within.nil
    | with_reducible apply List.mem_cons_self
    | with_reducible apply List.mem_cons_of_mem
    | with_reducible apply Block.tripAck_keeps
    | with_reducible apply Block.finish_keeps
    | with_reducible apply Kept.ite
    | split

theorem execFwUpdateBegin_kept (m : ManRef) (total : BitVec 32) {s t : State} (h : execFwUpdateBegin m total s = .next t) : Kept [.fresh, .ins, .mf, .running, .slots] s.blk t.blk := by
  unfold execFwUpdateBegin at h
  unfold State.man at h
  unfold State.upd at h
  injection h with h
  subst h
  dsimp -zeta only
  generalize s.blk = b
  repeat' first
    | with_reducible assumption
    | with_reducible apply Kept.refl
    | with_reducible apply Within.refl
    | ((with_reducible apply Within.of); rfl)
    | ((with_reducible apply Within.cons); (apply Piece.inside_of; rfl))
    | ((with_reducible apply Within.cons); apply Or.inr)
    | with_reducible apply Within.nil
    | with_reducible apply List.mem_cons_self
    | with_reducible apply List.mem_cons_of_mem
    | with_reducible apply Block.fwBegin_keeps
    | with_reducible apply Block.finish_keeps
    | with_reducible apply Kept.ite
    | split

theorem execFwUpdateData_kept (m : ManRef) (offset : BitVec 32) (bytes : List Byte) {s t : State} (h : execFwUpdateData m offset bytes s = .next t) : Kept [.ins, .mf, .running, .slots] s.blk t.blk := by
  unfold execFwUpdateData at h
  unfold State.man at h
  unfold State.upd at h
  injection h with h
  subst h
  dsimp -zeta only
  generalize s.blk = b
  repeat' first
    | with_reducible assumption
    | with_reducible apply Kept.refl
    | with_reducible apply Within.refl
    | ((with_reducible apply Within.of); rfl)
    | ((with_reducible apply Within.cons); (apply Piece.inside_of; rfl))
    | ((with_reducible apply Within.cons); apply Or.inr)
    | with_reducible apply Within.nil
    | with_reducible apply List.mem_cons_self
    | with_reducible apply List.mem_cons_of_mem
    | (extract_lets +onlyGivenNames x
       first
       | (guard_hyp x : Block := _
          refine Kept.cut (ps := [.ins, .mf, .running, .slots]) (b := b) (x := x) ?_ fun hx => ?_
          on_goal 1 => subst x
          on_goal 2 => try clear_value x)
       | (guard_hyp x : Manifests := _; subst x)
       | clear_value x
       | skip)
    | (simp only [Kept.by_fields]; with_reducible apply Kept.fields <;>
         first | with_reducible exact Or.inl rfl | (apply Or.inr; apply Piece.mem_of; rfl) | exact Or.inr (by simp; done) | (refine Or.inr ⟨?_, ?_⟩ <;> first | (apply Or.inl; apply Piece.mem_of; rfl) | exact Or.inl (by simp; done) | with_reducible exact Or.inr rfl | with_reducible exact Or.inr ⟨rfl, rfl, rfl, rfl⟩ | with_reducible exact Or.inr ⟨rfl, rfl, rfl, rfl, rfl⟩ | (refine ⟨?_, ?_⟩ <;> first | (apply Or.inl; apply Piece.mem_of; rfl) | exact Or.inl (by simp; done) | with_reducible exact Or.inr rfl)) | skip)
    | (with_reducible apply Block.inSession_keeps; (case inside => simp [Within, Piece.inside]))
    | intro _
    | with_reducible apply Block.finish_keeps
    | with_reducible apply Kept.ite
    | split

theorem execFwUpdateCommit_kept (m : ManRef) (root : BitVec 384) {s t : State} (h : execFwUpdateCommit m root s = .next t) : Kept [.ins, .mf, .running, .slots] s.blk t.blk := by
  unfold execFwUpdateCommit at h
  unfold State.man at h
  unfold State.upd at h
  injection h with h
  subst h
  dsimp -zeta only
  generalize s.blk = b
  repeat' first
    | with_reducible assumption
    | with_reducible apply Kept.refl
    | with_reducible apply Within.refl
    | ((with_reducible apply Within.of); rfl)
    | ((with_reducible apply Within.cons); (apply Piece.inside_of; rfl))
    | ((with_reducible apply Within.cons); apply Or.inr)
    | with_reducible apply Within.nil
    | with_reducible apply List.mem_cons_self
    | with_reducible apply List.mem_cons_of_mem
    | (extract_lets +onlyGivenNames x
       first
       | (guard_hyp x : Block := _
          refine Kept.cut (ps := [.ins, .mf, .running, .slots]) (b := b) (x := x) ?_ fun hx => ?_
          on_goal 1 => subst x
          on_goal 2 => try clear_value x)
       | (guard_hyp x : Manifests := _; subst x)
       | clear_value x
       | skip)
    | (simp only [Kept.by_fields]; with_reducible apply Kept.fields <;>
         first | with_reducible exact Or.inl rfl | (apply Or.inr; apply Piece.mem_of; rfl) | exact Or.inr (by simp; done) | (refine Or.inr ⟨?_, ?_⟩ <;> first | (apply Or.inl; apply Piece.mem_of; rfl) | exact Or.inl (by simp; done) | with_reducible exact Or.inr rfl | with_reducible exact Or.inr ⟨rfl, rfl, rfl, rfl⟩ | with_reducible exact Or.inr ⟨rfl, rfl, rfl, rfl, rfl⟩ | (refine ⟨?_, ?_⟩ <;> first | (apply Or.inl; apply Piece.mem_of; rfl) | exact Or.inl (by simp; done) | with_reducible exact Or.inr rfl)) | skip)
    | (with_reducible apply Block.inSession_keeps; (case inside => simp [Within, Piece.inside]))
    | intro _
    | with_reducible apply Block.finish_keeps
    | with_reducible apply Kept.ite
    | split

theorem execFwUpdateAbort_kept (m : ManRef) {s t : State} (h : execFwUpdateAbort m s = .next t) : Kept [.ins, .mf, .running, .slots] s.blk t.blk := by
  unfold execFwUpdateAbort at h
  unfold State.man at h
  unfold State.upd at h
  injection h with h
  subst h
  dsimp -zeta only
  generalize s.blk = b
  repeat' first
    | with_reducible assumption
    | with_reducible apply Kept.refl
    | with_reducible apply Within.refl
    | ((with_reducible apply Within.of); rfl)
    | ((with_reducible apply Within.cons); (apply Piece.inside_of; rfl))
    | ((with_reducible apply Within.cons); apply Or.inr)
    | with_reducible apply Within.nil
    | with_reducible apply List.mem_cons_self
    | with_reducible apply List.mem_cons_of_mem
    | (extract_lets +onlyGivenNames x
       first
       | (guard_hyp x : Block := _
          refine Kept.cut (ps := [.ins, .mf, .running, .slots]) (b := b) (x := x) ?_ fun hx => ?_
          on_goal 1 => subst x
          on_goal 2 => try clear_value x)
       | (guard_hyp x : Manifests := _; subst x)
       | clear_value x
       | skip)
    | (simp only [Kept.by_fields]; with_reducible apply Kept.fields <;>
         first | with_reducible exact Or.inl rfl | (apply Or.inr; apply Piece.mem_of; rfl) | exact Or.inr (by simp; done) | (refine Or.inr ⟨?_, ?_⟩ <;> first | (apply Or.inl; apply Piece.mem_of; rfl) | exact Or.inl (by simp; done) | with_reducible exact Or.inr rfl | with_reducible exact Or.inr ⟨rfl, rfl, rfl, rfl⟩ | with_reducible exact Or.inr ⟨rfl, rfl, rfl, rfl, rfl⟩ | (refine ⟨?_, ?_⟩ <;> first | (apply Or.inl; apply Piece.mem_of; rfl) | exact Or.inl (by simp; done) | with_reducible exact Or.inr rfl)) | skip)
    | (with_reducible apply Block.inSession_keeps; (case inside => simp [Within, Piece.inside]))
    | intro _
    | with_reducible apply Block.finish_keeps
    | with_reducible apply Kept.ite
    | split

theorem execFlashOperationDone_kept {s t : State} (h : execFlashOperationDone s = .next t) : Kept [.ins, .mf, .running, .slots] s.blk t.blk := by
  unfold execFlashOperationDone at h
  unfold State.upd at h
  injection h with h
  subst h
  dsimp -zeta only
  generalize s.blk = b
  repeat' first
    | with_reducible assumption
    | with_reducible apply Kept.refl
    | with_reducible apply Within.refl
    | ((with_reducible apply Within.of); rfl)
    | ((with_reducible apply Within.cons); (apply Piece.inside_of; rfl))
    | ((with_reducible apply Within.cons); apply Or.inr)
    | with_reducible apply Within.nil
    | with_reducible apply List.mem_cons_self
    | with_reducible apply List.mem_cons_of_mem
    | with_reducible apply Block.flashDone_keeps
    | with_reducible apply Kept.ite
    | split

theorem execFwSessionTimeout_kept {s t : State} (h : execFwSessionTimeout s = .next t) : Kept [.mf] s.blk t.blk := by
  unfold execFwSessionTimeout at h
  unfold State.upd at h
  injection h with h
  subst h
  dsimp -zeta only
  generalize s.blk = b
  repeat' first
    | with_reducible assumption
    | with_reducible apply Kept.refl
    | with_reducible apply Within.refl
    | ((with_reducible apply Within.of); rfl)
    | ((with_reducible apply Within.cons); (apply Piece.inside_of; rfl))
    | ((with_reducible apply Within.cons); apply Or.inr)
    | with_reducible apply Within.nil
    | with_reducible apply List.mem_cons_self
    | with_reducible apply List.mem_cons_of_mem
    | (extract_lets +onlyGivenNames x
       first
       | (guard_hyp x : Block := _
          refine Kept.cut (ps := [.mf]) (b := b) (x := x) ?_ fun hx => ?_
          on_goal 1 => subst x
          on_goal 2 => try clear_value x)
       | (guard_hyp x : Manifests := _; subst x)
       | clear_value x
       | skip)
    | (simp only [Kept.by_fields]; with_reducible apply Kept.fields <;>
         first | with_reducible exact Or.inl rfl | (apply Or.inr; apply Piece.mem_of; rfl) | exact Or.inr (by simp; done) | (refine Or.inr ⟨?_, ?_⟩ <;> first | (apply Or.inl; apply Piece.mem_of; rfl) | exact Or.inl (by simp; done) | with_reducible exact Or.inr rfl | with_reducible exact Or.inr ⟨rfl, rfl, rfl, rfl⟩ | with_reducible exact Or.inr ⟨rfl, rfl, rfl, rfl, rfl⟩ | (refine ⟨?_, ?_⟩ <;> first | (apply Or.inl; apply Piece.mem_of; rfl) | exact Or.inl (by simp; done) | with_reducible exact Or.inr rfl)) | skip)
    | with_reducible apply Kept.ite
    | split

theorem execManifestTimeout_kept (m : ManRef) {s t : State} (h : execManifestTimeout m s = .next t) : Kept [.cnt, .events, .fws, .ins, .lanes, .mf, .pw, .qy, .regs, .running, .sides, .slots, .sv, .tl] s.blk t.blk := by
  unfold execManifestTimeout at h
  unfold State.upd at h
  injection h with h
  subst h
  dsimp -zeta only
  generalize s.blk = b
  repeat' first
    | with_reducible assumption
    | with_reducible apply Kept.refl
    | with_reducible apply Within.refl
    | ((with_reducible apply Within.of); rfl)
    | ((with_reducible apply Within.cons); (apply Piece.inside_of; rfl))
    | ((with_reducible apply Within.cons); apply Or.inr)
    | with_reducible apply Within.nil
    | with_reducible apply List.mem_cons_self
    | with_reducible apply List.mem_cons_of_mem
    | with_reducible apply Block.finish_keeps
    | with_reducible apply Block.forgetMan_keeps
    | with_reducible apply Block.calRunEnds_keeps
    | with_reducible apply Kept.ite
    | split

theorem execPierInfo_kept (m : ManRef) {s t : State} (h : execPierInfo m s = .next t) : Kept [.ins, .running, .slots] s.blk t.blk := by
  unfold execPierInfo at h
  unfold State.man at h
  unfold State.upd at h
  injection h with h
  subst h
  dsimp -zeta only
  generalize s.blk = b
  repeat' first
    | with_reducible assumption
    | with_reducible apply Kept.refl
    | with_reducible apply Within.refl
    | ((with_reducible apply Within.of); rfl)
    | ((with_reducible apply Within.cons); (apply Piece.inside_of; rfl))
    | ((with_reducible apply Within.cons); apply Or.inr)
    | with_reducible apply Within.nil
    | with_reducible apply List.mem_cons_self
    | with_reducible apply List.mem_cons_of_mem
    | with_reducible apply Block.finish_keeps
    | with_reducible apply Kept.ite
    | split

theorem execSetPierId_kept (m : ManRef) (id : BitVec 16) {s t : State} (h : execSetPierId m id s = .next t) : Kept [.ins, .qy, .running, .slots] s.blk t.blk := by
  unfold execSetPierId at h
  unfold State.man at h
  unfold State.upd at h
  injection h with h
  subst h
  dsimp -zeta only
  generalize s.blk = b
  repeat' first
    | with_reducible assumption
    | with_reducible apply Kept.refl
    | with_reducible apply Within.refl
    | ((with_reducible apply Within.of); rfl)
    | ((with_reducible apply Within.cons); (apply Piece.inside_of; rfl))
    | ((with_reducible apply Within.cons); apply Or.inr)
    | with_reducible apply Within.nil
    | with_reducible apply List.mem_cons_self
    | with_reducible apply List.mem_cons_of_mem
    | (extract_lets +onlyGivenNames x
       first
       | (guard_hyp x : Block := _
          refine Kept.cut (ps := [.ins, .qy, .running, .slots]) (b := b) (x := x) ?_ fun hx => ?_
          on_goal 1 => subst x
          on_goal 2 => try clear_value x)
       | (guard_hyp x : Quay := _; subst x)
       | clear_value x
       | skip)
    | (simp only [Kept.by_fields]; with_reducible apply Kept.fields <;>
         first | with_reducible exact Or.inl rfl | (apply Or.inr; apply Piece.mem_of; rfl) | exact Or.inr (by simp; done) | (refine Or.inr ⟨?_, ?_⟩ <;> first | (apply Or.inl; apply Piece.mem_of; rfl) | exact Or.inl (by simp; done) | with_reducible exact Or.inr rfl | with_reducible exact Or.inr ⟨rfl, rfl, rfl, rfl⟩ | with_reducible exact Or.inr ⟨rfl, rfl, rfl, rfl, rfl⟩ | (refine ⟨?_, ?_⟩ <;> first | (apply Or.inl; apply Piece.mem_of; rfl) | exact Or.inl (by simp; done) | with_reducible exact Or.inr rfl)) | skip)
    | with_reducible apply Block.finish_keeps
    | with_reducible apply Kept.ite
    | split

theorem execRouteSet_kept (m : ManRef) (first : Fin 256) (entries : List Word) {s t : State} (h : execRouteSet m first entries s = .next t) : Kept [.ins, .regs, .running, .slots] s.blk t.blk := by
  unfold execRouteSet at h
  unfold State.man at h
  unfold State.upd at h
  injection h with h
  subst h
  dsimp -zeta only
  generalize s.blk = b
  repeat' first
    | with_reducible assumption
    | with_reducible apply Kept.refl
    | with_reducible apply Within.refl
    | ((with_reducible apply Within.of); rfl)
    | ((with_reducible apply Within.cons); (apply Piece.inside_of; rfl))
    | ((with_reducible apply Within.cons); apply Or.inr)
    | with_reducible apply Within.nil
    | with_reducible apply List.mem_cons_self
    | with_reducible apply List.mem_cons_of_mem
    | with_reducible apply Block.finish_keeps
    | with_reducible apply Block.writeRoutes_keeps
    | with_reducible apply Kept.ite
    | split

theorem execRegionSet_kept (m : ManRef) (first : Fin 64) (entries : List RegionImage) {s t : State} (h : execRegionSet m first entries s = .next t) : Kept [.ins, .regs, .running, .slots] s.blk t.blk := by
  unfold execRegionSet at h
  unfold State.man at h
  unfold State.upd at h
  injection h with h
  subst h
  dsimp -zeta only
  generalize s.blk = b
  repeat' first
    | with_reducible assumption
    | with_reducible apply Kept.refl
    | with_reducible apply Within.refl
    | ((with_reducible apply Within.of); rfl)
    | ((with_reducible apply Within.cons); (apply Piece.inside_of; rfl))
    | ((with_reducible apply Within.cons); apply Or.inr)
    | with_reducible apply Within.nil
    | with_reducible apply List.mem_cons_self
    | with_reducible apply List.mem_cons_of_mem
    | with_reducible apply Block.finish_keeps
    | with_reducible apply Block.writeRegions_keeps
    | with_reducible apply Kept.ite
    | split

theorem execFillStatus_kept (m : ManRef) {s t : State} (h : execFillStatus m s = .next t) : Kept [.fresh, .ins, .running, .slots] s.blk t.blk := by
  unfold execFillStatus at h
  unfold State.man at h
  unfold State.upd at h
  injection h with h
  subst h
  dsimp -zeta only
  generalize s.blk = b
  repeat' first
    | with_reducible assumption
    | with_reducible apply Kept.refl
    | with_reducible apply Within.refl
    | ((with_reducible apply Within.of); rfl)
    | ((with_reducible apply Within.cons); (apply Piece.inside_of; rfl))
    | ((with_reducible apply Within.cons); apply Or.inr)
    | with_reducible apply Within.nil
    | with_reducible apply List.mem_cons_self
    | with_reducible apply List.mem_cons_of_mem
    | with_reducible apply Block.finish_keeps
    | with_reducible apply Block.draw_keeps
    | with_reducible apply Kept.ite
    | split

theorem execManifestFragment_kept (sd : Side) (f : Flit) {s t : State} (h : execManifestFragment sd f s = .next t) : Kept [.count Off.mfAccepted, .count Off.mfAuthFail, .count Off.mfFragDrop, .count Off.mfRefused, .events, .fresh, .ins, .mf, .qy, .reg Off.lgAlarm, .reg Off.mfAlarm, .running, .slots] s.blk t.blk := by
  unfold execManifestFragment at h
  unfold State.upd at h
  injection h with h
  subst h
  dsimp -zeta only
  generalize s.blk = b
  repeat' first
    | with_reducible assumption
    | with_reducible apply Kept.refl
    | with_reducible apply Within.refl
    | ((with_reducible apply Within.of); rfl)
    | ((with_reducible apply Within.cons); (apply Piece.inside_of; rfl))
    | ((with_reducible apply Within.cons); apply Or.inr)
    | with_reducible apply Within.nil
    | with_reducible apply List.mem_cons_self
    | with_reducible apply List.mem_cons_of_mem
    | with_reducible apply Block.takeFragment_keeps
    | with_reducible apply Kept.ite
    | split

theorem execReassemblyTimeout_kept (sd : Side) (src : BitVec 15) (tag : BitVec 16) {s t : State} (h : execReassemblyTimeout sd src tag s = .next t) : Kept [.count Off.mfFragDrop, .mf, .reg Off.mfAlarm] s.blk t.blk := by
  unfold execReassemblyTimeout at h
  unfold State.upd at h
  injection h with h
  subst h
  dsimp -zeta only
  generalize s.blk = b
  repeat' first
    | with_reducible assumption
    | with_reducible apply Kept.refl
    | with_reducible apply Within.refl
    | ((with_reducible apply Within.of); rfl)
    | ((with_reducible apply Within.cons); (apply Piece.inside_of; rfl))
    | ((with_reducible apply Within.cons); apply Or.inr)
    | with_reducible apply Within.nil
    | with_reducible apply List.mem_cons_self
    | with_reducible apply List.mem_cons_of_mem
    | with_reducible apply Block.dropReasm_keeps
    | with_reducible apply Kept.ite
    | split

theorem execMfMboxDoor_kept (p : Path) (value : Word) {s t : State} (h : execMfMboxDoor p value s = .next t) : Kept [.count Off.mfAccepted, .count Off.mfAuthFail, .count Off.mfRefused, .events, .fresh, .ins, .mf, .reg Off.lgAlarm, .reg Off.mfAlarm, .running, .slots] s.blk t.blk := by
  unfold execMfMboxDoor at h
  unfold State.upd at h
  injection h with h
  subst h
  dsimp -zeta only
  generalize s.blk = b
  repeat' first
    | with_reducible assumption
    | with_reducible apply Kept.refl
    | with_reducible apply Within.refl
    | ((with_reducible apply Within.of); rfl)
    | ((with_reducible apply Within.cons); (apply Piece.inside_of; rfl))
    | ((with_reducible apply Within.cons); apply Or.inr)
    | with_reducible apply Within.nil
    | with_reducible apply List.mem_cons_self
    | with_reducible apply List.mem_cons_of_mem
    | with_reducible apply Block.doorbell_keeps

theorem execRcRead_kept (p : Path) (offset : BitVec 24) (events : Word) {s t : State} (h : execRcRead p offset events s = .next t) : Kept [.hold, .mf, .rdData, .regs, .slots, .tl] s.blk t.blk := by
  unfold execRcRead at h
  unfold State.upd at h
  injection h with h
  subst h
  dsimp -zeta only
  generalize s.blk = b
  repeat' first
    | with_reducible assumption
    | with_reducible apply Kept.refl
    | with_reducible apply Within.refl
    | ((with_reducible apply Within.of); rfl)
    | ((with_reducible apply Within.cons); (apply Piece.inside_of; rfl))
    | ((with_reducible apply Within.cons); apply Or.inr)
    | with_reducible apply Within.nil
    | with_reducible apply List.mem_cons_self
    | with_reducible apply List.mem_cons_of_mem
    | with_reducible apply Block.readOn_keeps
    | with_reducible apply Kept.ite
    | split

theorem execCaptureLoRead_kept (p : Path) (offset : BitVec 24) {s t : State} (h : execCaptureLoRead p offset s = .next t) : Kept [.hold, .mf, .rdData, .regs, .slots, .tl] s.blk t.blk := by
  unfold execCaptureLoRead at h
  unfold State.upd at h
  injection h with h
  subst h
  dsimp -zeta only
  generalize s.blk = b
  repeat' first
    | with_reducible assumption
    | with_reducible apply Kept.refl
    | with_reducible apply Within.refl
    | ((with_reducible apply Within.of); rfl)
    | ((with_reducible apply Within.cons); (apply Piece.inside_of; rfl))
    | ((with_reducible apply Within.cons); apply Or.inr)
    | with_reducible apply Within.nil
    | with_reducible apply List.mem_cons_self
    | with_reducible apply List.mem_cons_of_mem
    | with_reducible apply Block.readOn_keeps
    | with_reducible apply Kept.ite
    | split

theorem execRcptWindowRead_kept (p : Path) {s t : State} (h : execRcptWindowRead p s = .next t) : Kept [.hold, .mf, .rdData, .regs, .slots, .tl] s.blk t.blk := by
  unfold execRcptWindowRead at h
  unfold State.upd at h
  injection h with h
  subst h
  dsimp -zeta only
  generalize s.blk = b
  repeat' first
    | with_reducible assumption
    | with_reducible apply Kept.refl
    | with_reducible apply Within.refl
    | ((with_reducible apply Within.of); rfl)
    | ((with_reducible apply Within.cons); (apply Piece.inside_of; rfl))
    | ((with_reducible apply Within.cons); apply Or.inr)
    | with_reducible apply Within.nil
    | with_reducible apply List.mem_cons_self
    | with_reducible apply List.mem_cons_of_mem
    | with_reducible apply Block.readOn_keeps
    | with_reducible apply Kept.ite
    | split

theorem execCsrWrite_kept (w : RegWrite) {s t : State} (h : execCsrWrite w s = .next t) : Kept [.berths, .chans, .chs, .cnt, .cols, .events, .fresh, .fws, .heat, .hold, .ins, .keys, .lanes, .mf, .prot, .pw, .qy, .regs, .running, .sel, .sides, .slots, .stk, .sv, .tl] s.blk t.blk := by
  unfold execCsrWrite at h
  unfold State.upd at h
  injection h with h
  subst h
  dsimp -zeta only
  generalize s.blk = b
  repeat' first
    | with_reducible assumption
    | with_reducible apply Kept.refl
    | with_reducible apply Within.refl
    | ((with_reducible apply Within.of); rfl)
    | ((with_reducible apply Within.cons); (apply Piece.inside_of; rfl))
    | ((with_reducible apply Within.cons); apply Or.inr)
    | with_reducible apply Within.nil
    | with_reducible apply List.mem_cons_self
    | with_reducible apply List.mem_cons_of_mem
    | with_reducible apply Block.writeOn_keeps
    | with_reducible apply Block.sideTransfer_keeps
    | with_reducible apply Kept.ite
    | split

theorem execTxFfeWrite_kept (p : Path) (ln : LaneId) (value : Word) {s t : State} (h : execTxFfeWrite p ln value s = .next t) : Kept [.berths, .chans, .chs, .cnt, .cols, .events, .fresh, .fws, .heat, .hold, .ins, .keys, .lanes, .mf, .prot, .pw, .qy, .regs, .running, .sel, .sides, .slots, .stk, .sv, .tl] s.blk t.blk := by
  unfold execTxFfeWrite at h
  unfold State.upd at h
  injection h with h
  subst h
  dsimp -zeta only
  generalize s.blk = b
  repeat' first
    | with_reducible assumption
    | with_reducible apply Kept.refl
    | with_reducible apply Within.refl
    | ((with_reducible apply Within.of); rfl)
    | ((with_reducible apply Within.cons); (apply Piece.inside_of; rfl))
    | ((with_reducible apply Within.cons); apply Or.inr)
    | with_reducible apply Within.nil
    | with_reducible apply List.mem_cons_self
    | with_reducible apply List.mem_cons_of_mem
    | with_reducible apply Block.writeOn_keeps
    | with_reducible apply Kept.ite
    | split

theorem execLaneEnableWrite_kept (p : Path) (ln : LaneId) (value : Word) {s t : State} (h : execLaneEnableWrite p ln value s = .next t) : Kept [.berths, .chans, .chs, .cnt, .cols, .events, .fresh, .fws, .heat, .hold, .ins, .keys, .lanes, .mf, .prot, .pw, .qy, .regs, .running, .sel, .sides, .slots, .stk, .sv, .tl] s.blk t.blk := by
  unfold execLaneEnableWrite at h
  unfold State.upd at h
  injection h with h
  subst h
  dsimp -zeta only
  generalize s.blk = b
  repeat' first
    | with_reducible assumption
    | with_reducible apply Kept.refl
    | with_reducible apply Within.refl
    | ((with_reducible apply Within.of); rfl)
    | ((with_reducible apply Within.cons); (apply Piece.inside_of; rfl))
    | ((with_reducible apply Within.cons); apply Or.inr)
    | with_reducible apply Within.nil
    | with_reducible apply List.mem_cons_self
    | with_reducible apply List.mem_cons_of_mem
    | with_reducible apply Block.writeOn_keeps
    | with_reducible apply Kept.ite
    | split

theorem execPrbsTxEn_kept (p : Path) (ln : LaneId) (value : Word) {s t : State} (h : execPrbsTxEn p ln value s = .next t) : Kept [.berths, .chans, .chs, .cnt, .cols, .events, .fresh, .fws, .heat, .hold, .ins, .keys, .lanes, .mf, .prot, .pw, .qy, .regs, .running, .sel, .sides, .slots, .stk, .sv, .tl] s.blk t.blk := by
  unfold execPrbsTxEn at h
  unfold State.upd at h
  injection h with h
  subst h
  dsimp -zeta only
  generalize s.blk = b
  repeat' first
    | with_reducible assumption
    | with_reducible apply Kept.refl
    | with_reducible apply Within.refl
    | ((with_reducible apply Within.of); rfl)
    | ((with_reducible apply Within.cons); (apply Piece.inside_of; rfl))
    | ((with_reducible apply Within.cons); apply Or.inr)
    | with_reducible apply Within.nil
    | with_reducible apply List.mem_cons_self
    | with_reducible apply List.mem_cons_of_mem
    | with_reducible apply Block.writeOn_keeps
    | with_reducible apply Kept.ite
    | split

theorem execPrbsRxEn_kept (p : Path) (ln : LaneId) (value : Word) {s t : State} (h : execPrbsRxEn p ln value s = .next t) : Kept [.berths, .chans, .chs, .cnt, .cols, .events, .fresh, .fws, .heat, .hold, .ins, .keys, .lanes, .mf, .prot, .pw, .qy, .regs, .running, .sel, .sides, .slots, .stk, .sv, .tl] s.blk t.blk := by
  unfold execPrbsRxEn at h
  unfold State.upd at h
  injection h with h
  subst h
  dsimp -zeta only
  generalize s.blk = b
  repeat' first
    | with_reducible assumption
    | with_reducible apply Kept.refl
    | with_reducible apply Within.refl
    | ((with_reducible apply Within.of); rfl)
    | ((with_reducible apply Within.cons); (apply Piece.inside_of; rfl))
    | ((with_reducible apply Within.cons); apply Or.inr)
    | with_reducible apply Within.nil
    | with_reducible apply List.mem_cons_self
    | with_reducible apply List.mem_cons_of_mem
    | with_reducible apply Block.writeOn_keeps
    | with_reducible apply Kept.ite
    | split

theorem execLnCntClr_kept (p : Path) (ln : LaneId) {s t : State} (h : execLnCntClr p ln s = .next t) : Kept [.berths, .chans, .chs, .cnt, .cols, .events, .fresh, .fws, .heat, .hold, .ins, .keys, .lanes, .mf, .prot, .pw, .qy, .regs, .running, .sel, .sides, .slots, .stk, .sv, .tl] s.blk t.blk := by
  unfold execLnCntClr at h
  unfold State.upd at h
  injection h with h
  subst h
  dsimp -zeta only
  generalize s.blk = b
  repeat' first
    | with_reducible assumption
    | with_reducible apply Kept.refl
    | with_reducible apply Within.refl
    | ((with_reducible apply Within.of); rfl)
    | ((with_reducible apply Within.cons); (apply Piece.inside_of; rfl))
    | ((with_reducible apply Within.cons); apply Or.inr)
    | with_reducible apply Within.nil
    | with_reducible apply List.mem_cons_self
    | with_reducible apply List.mem_cons_of_mem
    | with_reducible apply Block.writeBits_keeps
    | with_reducible apply Kept.ite
    | split

theorem execLnPrbsClr_kept (p : Path) (ln : LaneId) {s t : State} (h : execLnPrbsClr p ln s = .next t) : Kept [.berths, .chans, .chs, .cnt, .cols, .events, .fresh, .fws, .heat, .hold, .ins, .keys, .lanes, .mf, .prot, .pw, .qy, .regs, .running, .sel, .sides, .slots, .stk, .sv, .tl] s.blk t.blk := by
  unfold execLnPrbsClr at h
  unfold State.upd at h
  injection h with h
  subst h
  dsimp -zeta only
  generalize s.blk = b
  repeat' first
    | with_reducible assumption
    | with_reducible apply Kept.refl
    | with_reducible apply Within.refl
    | ((with_reducible apply Within.of); rfl)
    | ((with_reducible apply Within.cons); (apply Piece.inside_of; rfl))
    | ((with_reducible apply Within.cons); apply Or.inr)
    | with_reducible apply Within.nil
    | with_reducible apply List.mem_cons_self
    | with_reducible apply List.mem_cons_of_mem
    | with_reducible apply Block.writeBits_keeps
    | with_reducible apply Kept.ite
    | split

theorem execFwCntClr_kept (p : Path) {s t : State} (h : execFwCntClr p s = .next t) : Kept [.berths, .chans, .chs, .cnt, .cols, .events, .fresh, .fws, .heat, .hold, .ins, .keys, .lanes, .mf, .prot, .pw, .qy, .regs, .running, .sel, .sides, .slots, .stk, .sv, .tl] s.blk t.blk := by
  unfold execFwCntClr at h
  unfold State.upd at h
  injection h with h
  subst h
  dsimp -zeta only
  generalize s.blk = b
  repeat' first
    | with_reducible assumption
    | with_reducible apply Kept.refl
    | with_reducible apply Within.refl
    | ((with_reducible apply Within.of); rfl)
    | ((with_reducible apply Within.cons); (apply Piece.inside_of; rfl))
    | ((with_reducible apply Within.cons); apply Or.inr)
    | with_reducible apply Within.nil
    | with_reducible apply List.mem_cons_self
    | with_reducible apply List.mem_cons_of_mem
    | with_reducible apply Block.writeBits_keeps
    | with_reducible apply Kept.ite
    | split

theorem execQyCntClr_kept (p : Path) {s t : State} (h : execQyCntClr p s = .next t) : Kept [.berths, .chans, .chs, .cnt, .cols, .events, .fresh, .fws, .heat, .hold, .ins, .keys, .lanes, .mf, .prot, .pw, .qy, .regs, .running, .sel, .sides, .slots, .stk, .sv, .tl] s.blk t.blk := by
  unfold execQyCntClr at h
  unfold State.upd at h
  injection h with h
  subst h
  dsimp -zeta only
  generalize s.blk = b
  repeat' first
    | with_reducible assumption
    | with_reducible apply Kept.refl
    | with_reducible apply Within.refl
    | ((with_reducible apply Within.of); rfl)
    | ((with_reducible apply Within.cons); (apply Piece.inside_of; rfl))
    | ((with_reducible apply Within.cons); apply Or.inr)
    | with_reducible apply Within.nil
    | with_reducible apply List.mem_cons_self
    | with_reducible apply List.mem_cons_of_mem
    | with_reducible apply Block.writeBits_keeps
    | with_reducible apply Kept.ite
    | split

theorem execTableLock_kept (p : Path) {s t : State} (h : execTableLock p s = .next t) : Kept [.berths, .chans, .chs, .cnt, .cols, .events, .fresh, .fws, .heat, .hold, .ins, .keys, .lanes, .mf, .prot, .pw, .qy, .regs, .running, .sel, .sides, .slots, .stk, .sv, .tl] s.blk t.blk := by
  unfold execTableLock at h
  unfold State.upd at h
  injection h with h
  subst h
  dsimp -zeta only
  generalize s.blk = b
  repeat' first
    | with_reducible assumption
    | with_reducible apply Kept.refl
    | with_reducible apply Within.refl
    | ((with_reducible apply Within.of); rfl)
    | ((with_reducible apply Within.cons); (apply Piece.inside_of; rfl))
    | ((with_reducible apply Within.cons); apply Or.inr)
    | with_reducible apply Within.nil
    | with_reducible apply List.mem_cons_self
    | with_reducible apply List.mem_cons_of_mem
    | with_reducible apply Block.writeBits_keeps
    | with_reducible apply Kept.ite
    | split

theorem execMfLock_kept (p : Path) (value : Word) {s t : State} (h : execMfLock p value s = .next t) : Kept [.berths, .chans, .chs, .cnt, .cols, .events, .fresh, .fws, .heat, .hold, .ins, .keys, .lanes, .mf, .prot, .pw, .qy, .regs, .running, .sel, .sides, .slots, .stk, .sv, .tl] s.blk t.blk := by
  unfold execMfLock at h
  unfold State.upd at h
  injection h with h
  subst h
  dsimp -zeta only
  generalize s.blk = b
  repeat' first
    | with_reducible assumption
    | with_reducible apply Kept.refl
    | with_reducible apply Within.refl
    | ((with_reducible apply Within.of); rfl)
    | ((with_reducible apply Within.cons); (apply Piece.inside_of; rfl))
    | ((with_reducible apply Within.cons); apply Or.inr)
    | with_reducible apply Within.nil
    | with_reducible apply List.mem_cons_self
    | with_reducible apply List.mem_cons_of_mem
    | with_reducible apply Block.writeOn_keeps
    | with_reducible apply Kept.ite
    | split

theorem execBeTagsWrite_kept (p : Path) (value : Word) {s t : State} (h : execBeTagsWrite p value s = .next t) : Kept [.berths, .chans, .chs, .cnt, .cols, .events, .fresh, .fws, .heat, .hold, .ins, .keys, .lanes, .mf, .prot, .pw, .qy, .regs, .running, .sel, .sides, .slots, .stk, .sv, .tl] s.blk t.blk := by
  unfold execBeTagsWrite at h
  unfold State.upd at h
  injection h with h
  subst h
  dsimp -zeta only
  generalize s.blk = b
  repeat' first
    | with_reducible assumption
    | with_reducible apply Kept.refl
    | with_reducible apply Within.refl
    | ((with_reducible apply Within.of); rfl)
    | ((with_reducible apply Within.cons); (apply Piece.inside_of; rfl))
    | ((with_reducible apply Within.cons); apply Or.inr)
    | with_reducible apply Within.nil
    | with_reducible apply List.mem_cons_self
    | with_reducible apply List.mem_cons_of_mem
    | with_reducible apply Block.writeOn_keeps
    | with_reducible apply Kept.ite
    | split

theorem execChCntClr_kept (p : Path) {s t : State} (h : execChCntClr p s = .next t) : Kept [.berths, .chans, .chs, .cnt, .cols, .events, .fresh, .fws, .heat, .hold, .ins, .keys, .lanes, .mf, .prot, .pw, .qy, .regs, .running, .sel, .sides, .slots, .stk, .sv, .tl] s.blk t.blk := by
  unfold execChCntClr at h
  unfold State.upd at h
  injection h with h
  subst h
  dsimp -zeta only
  generalize s.blk = b
  repeat' first
    | with_reducible assumption
    | with_reducible apply Kept.refl
    | with_reducible apply Within.refl
    | ((with_reducible apply Within.of); rfl)
    | ((with_reducible apply Within.cons); (apply Piece.inside_of; rfl))
    | ((with_reducible apply Within.cons); apply Or.inr)
    | with_reducible apply Within.nil
    | with_reducible apply List.mem_cons_self
    | with_reducible apply List.mem_cons_of_mem
    | with_reducible apply Block.writeBits_keeps
    | with_reducible apply Kept.ite
    | split

theorem execBtCntClr_kept (p : Path) (ch : ChId) {s t : State} (h : execBtCntClr p ch s = .next t) : Kept [.berths, .chans, .chs, .cnt, .cols, .events, .fresh, .fws, .heat, .hold, .ins, .keys, .lanes, .mf, .prot, .pw, .qy, .regs, .running, .sel, .sides, .slots, .stk, .sv, .tl] s.blk t.blk := by
  unfold execBtCntClr at h
  unfold State.upd at h
  injection h with h
  subst h
  dsimp -zeta only
  generalize s.blk = b
  repeat' first
    | with_reducible assumption
    | with_reducible apply Kept.refl
    | with_reducible apply Within.refl
    | ((with_reducible apply Within.of); rfl)
    | ((with_reducible apply Within.cons); (apply Piece.inside_of; rfl))
    | ((with_reducible apply Within.cons); apply Or.inr)
    | with_reducible apply Within.nil
    | with_reducible apply List.mem_cons_self
    | with_reducible apply List.mem_cons_of_mem
    | with_reducible apply Block.writeBits_keeps
    | with_reducible apply Kept.ite
    | split

theorem execDcCntClr_kept (p : Path) {s t : State} (h : execDcCntClr p s = .next t) : Kept [.berths, .chans, .chs, .cnt, .cols, .events, .fresh, .fws, .heat, .hold, .ins, .keys, .lanes, .mf, .prot, .pw, .qy, .regs, .running, .sel, .sides, .slots, .stk, .sv, .tl] s.blk t.blk := by
  unfold execDcCntClr at h
  unfold State.upd at h
  injection h with h
  subst h
  dsimp -zeta only
  generalize s.blk = b
  repeat' first
    | with_reducible assumption
    | with_reducible apply Kept.refl
    | with_reducible apply Within.refl
    | ((with_reducible apply Within.of); rfl)
    | ((with_reducible apply Within.cons); (apply Piece.inside_of; rfl))
    | ((with_reducible apply Within.cons); apply Or.inr)
    | with_reducible apply Within.nil
    | with_reducible apply List.mem_cons_self
    | with_reducible apply List.mem_cons_of_mem
    | with_reducible apply Block.writeBits_keeps
    | with_reducible apply Kept.ite
    | split

theorem execStCntClr_kept (p : Path) {s t : State} (h : execStCntClr p s = .next t) : Kept [.berths, .chans, .chs, .cnt, .cols, .events, .fresh, .fws, .heat, .hold, .ins, .keys, .lanes, .mf, .prot, .pw, .qy, .regs, .running, .sel, .sides, .slots, .stk, .sv, .tl] s.blk t.blk := by
  unfold execStCntClr at h
  unfold State.upd at h
  injection h with h
  subst h
  dsimp -zeta only
  generalize s.blk = b
  repeat' first
    | with_reducible assumption
    | with_reducible apply Kept.refl
    | with_reducible apply Within.refl
    | ((with_reducible apply Within.of); rfl)
    | ((with_reducible apply Within.cons); (apply Piece.inside_of; rfl))
    | ((with_reducible apply Within.cons); apply Or.inr)
    | with_reducible apply Within.nil
    | with_reducible apply List.mem_cons_self
    | with_reducible apply List.mem_cons_of_mem
    | with_reducible apply Block.writeBits_keeps
    | with_reducible apply Kept.ite
    | split

theorem execFenceClr_kept (p : Path) {s t : State} (h : execFenceClr p s = .next t) : Kept [.berths, .chans, .chs, .cnt, .cols, .events, .fresh, .fws, .heat, .hold, .ins, .keys, .lanes, .mf, .prot, .pw, .qy, .regs, .running, .sel, .sides, .slots, .stk, .sv, .tl] s.blk t.blk := by
  unfold execFenceClr at h
  unfold State.upd at h
  injection h with h
  subst h
  dsimp -zeta only
  generalize s.blk = b
  repeat' first
    | with_reducible assumption
    | with_reducible apply Kept.refl
    | with_reducible apply Within.refl
    | ((with_reducible apply Within.of); rfl)
    | ((with_reducible apply Within.cons); (apply Piece.inside_of; rfl))
    | ((with_reducible apply Within.cons); apply Or.inr)
    | with_reducible apply Within.nil
    | with_reducible apply List.mem_cons_self
    | with_reducible apply List.mem_cons_of_mem
    | with_reducible apply Block.writeBits_keeps
    | with_reducible apply Kept.ite
    | split

theorem execPrCntClr_kept (p : Path) {s t : State} (h : execPrCntClr p s = .next t) : Kept [.berths, .chans, .chs, .cnt, .cols, .events, .fresh, .fws, .heat, .hold, .ins, .keys, .lanes, .mf, .prot, .pw, .qy, .regs, .running, .sel, .sides, .slots, .stk, .sv, .tl] s.blk t.blk := by
  unfold execPrCntClr at h
  unfold State.upd at h
  injection h with h
  subst h
  dsimp -zeta only
  generalize s.blk = b
  repeat' first
    | with_reducible assumption
    | with_reducible apply Kept.refl
    | with_reducible apply Within.refl
    | ((with_reducible apply Within.of); rfl)
    | ((with_reducible apply Within.cons); (apply Piece.inside_of; rfl))
    | ((with_reducible apply Within.cons); apply Or.inr)
    | with_reducible apply Within.nil
    | with_reducible apply List.mem_cons_self
    | with_reducible apply List.mem_cons_of_mem
    | with_reducible apply Block.writeBits_keeps
    | with_reducible apply Kept.ite
    | split

theorem execErrClr_kept (p : Path) {s t : State} (h : execErrClr p s = .next t) : Kept [.berths, .chans, .chs, .cnt, .cols, .events, .fresh, .fws, .heat, .hold, .ins, .keys, .lanes, .mf, .prot, .pw, .qy, .regs, .running, .sel, .sides, .slots, .stk, .sv, .tl] s.blk t.blk := by
  unfold execErrClr at h
  unfold State.upd at h
  injection h with h
  subst h
  dsimp -zeta only
  generalize s.blk = b
  repeat' first
    | with_reducible assumption
    | with_reducible apply Kept.refl
    | with_reducible apply Within.refl
    | ((with_reducible apply Within.of); rfl)
    | ((with_reducible apply Within.cons); (apply Piece.inside_of; rfl))
    | ((with_reducible apply Within.cons); apply Or.inr)
    | with_reducible apply Within.nil
    | with_reducible apply List.mem_cons_self
    | with_reducible apply List.mem_cons_of_mem
    | with_reducible apply Block.writeBits_keeps
    | with_reducible apply Kept.ite
    | split

theorem execPrErrRdWrite_kept (p : Path) (value : Word) {s t : State} (h : execPrErrRdWrite p value s = .next t) : Kept [.berths, .chans, .chs, .cnt, .cols, .events, .fresh, .fws, .heat, .hold, .ins, .keys, .lanes, .mf, .prot, .pw, .qy, .regs, .running, .sel, .sides, .slots, .stk, .sv, .tl] s.blk t.blk := by
  unfold execPrErrRdWrite at h
  unfold State.upd at h
  injection h with h
  subst h
  dsimp -zeta only
  generalize s.blk = b
  repeat' first
    | with_reducible assumption
    | with_reducible apply Kept.refl
    | with_reducible apply Within.refl
    | ((with_reducible apply Within.of); rfl)
    | ((with_reducible apply Within.cons); (apply Piece.inside_of; rfl))
    | ((with_reducible apply Within.cons); apply Or.inr)
    | with_reducible apply Within.nil
    | with_reducible apply List.mem_cons_self
    | with_reducible apply List.mem_cons_of_mem
    | with_reducible apply Block.writeOn_keeps
    | with_reducible apply Kept.ite
    | split

theorem execKsLoad_kept (p : Path) (value : Word) {s t : State} (h : execKsLoad p value s = .next t) : Kept [.berths, .chans, .chs, .cnt, .cols, .events, .fresh, .fws, .heat, .hold, .ins, .keys, .lanes, .mf, .prot, .pw, .qy, .regs, .running, .sel, .sides, .slots, .stk, .sv, .tl] s.blk t.blk := by
  unfold execKsLoad at h
  unfold State.upd at h
  injection h with h
  subst h
  dsimp -zeta only
  generalize s.blk = b
  repeat' first
    | with_reducible assumption
    | with_reducible apply Kept.refl
    | with_reducible apply Within.refl
    | ((with_reducible apply Within.of); rfl)
    | ((with_reducible apply Within.cons); (apply Piece.inside_of; rfl))
    | ((with_reducible apply Within.cons); apply Or.inr)
    | with_reducible apply Within.nil
    | with_reducible apply List.mem_cons_self
    | with_reducible apply List.mem_cons_of_mem
    | with_reducible apply Block.writeOn_keeps
    | with_reducible apply Kept.ite
    | split

theorem execKsErase_kept (p : Path) (value : Word) {s t : State} (h : execKsErase p value s = .next t) : Kept [.berths, .chans, .chs, .cnt, .cols, .events, .fresh, .fws, .heat, .hold, .ins, .keys, .lanes, .mf, .prot, .pw, .qy, .regs, .running, .sel, .sides, .slots, .stk, .sv, .tl] s.blk t.blk := by
  unfold execKsErase at h
  unfold State.upd at h
  injection h with h
  subst h
  dsimp -zeta only
  generalize s.blk = b
  repeat' first
    | with_reducible assumption
    | with_reducible apply Kept.refl
    | with_reducible apply Within.refl
    | ((with_reducible apply Within.of); rfl)
    | ((with_reducible apply Within.cons); (apply Piece.inside_of; rfl))
    | ((with_reducible apply Within.cons); apply Or.inr)
    | with_reducible apply Within.nil
    | with_reducible apply List.mem_cons_self
    | with_reducible apply List.mem_cons_of_mem
    | with_reducible apply Block.writeOn_keeps
    | with_reducible apply Kept.ite
    | split

theorem execKsZeroize_kept (p : Path) {s t : State} (h : execKsZeroize p s = .next t) : Kept [.berths, .chans, .chs, .cnt, .cols, .events, .fresh, .fws, .heat, .hold, .ins, .keys, .lanes, .mf, .prot, .pw, .qy, .regs, .running, .sel, .sides, .slots, .stk, .sv, .tl] s.blk t.blk := by
  unfold execKsZeroize at h
  unfold State.upd at h
  injection h with h
  subst h
  dsimp -zeta only
  generalize s.blk = b
  repeat' first
    | with_reducible assumption
    | with_reducible apply Kept.refl
    | with_reducible apply Within.refl
    | ((with_reducible apply Within.of); rfl)
    | ((with_reducible apply Within.cons); (apply Piece.inside_of; rfl))
    | ((with_reducible apply Within.cons); apply Or.inr)
    | with_reducible apply Within.nil
    | with_reducible apply List.mem_cons_self
    | with_reducible apply List.mem_cons_of_mem
    | with_reducible apply Block.writeOn_keeps
    | with_reducible apply Kept.ite
    | split

theorem execMemRst_kept (p : Path) {s t : State} (h : execMemRst p s = .next t) : Kept [.berths, .chans, .chs, .cnt, .cols, .events, .fresh, .fws, .heat, .hold, .ins, .keys, .lanes, .mf, .prot, .pw, .qy, .regs, .running, .sel, .sides, .slots, .stk, .sv, .tl] s.blk t.blk := by
  unfold execMemRst at h
  unfold State.upd at h
  injection h with h
  subst h
  dsimp -zeta only
  generalize s.blk = b
  repeat' first
    | with_reducible assumption
    | with_reducible apply Kept.refl
    | with_reducible apply Within.refl
    | ((with_reducible apply Within.of); rfl)
    | ((with_reducible apply Within.cons); (apply Piece.inside_of; rfl))
    | ((with_reducible apply Within.cons); apply Or.inr)
    | with_reducible apply Within.nil
    | with_reducible apply List.mem_cons_self
    | with_reducible apply List.mem_cons_of_mem
    | with_reducible apply Block.writeOn_keeps
    | with_reducible apply Kept.ite
    | split

theorem execReseed_kept (p : Path) {s t : State} (h : execReseed p s = .next t) : Kept [.berths, .chans, .chs, .cnt, .cols, .events, .fresh, .fws, .heat, .hold, .ins, .keys, .lanes, .mf, .prot, .pw, .qy, .regs, .running, .sel, .sides, .slots, .stk, .sv, .tl] s.blk t.blk := by
  unfold execReseed at h
  unfold State.upd at h
  injection h with h
  subst h
  dsimp -zeta only
  generalize s.blk = b
  repeat' first
    | with_reducible assumption
    | with_reducible apply Kept.refl
    | with_reducible apply Within.refl
    | ((with_reducible apply Within.of); rfl)
    | ((with_reducible apply Within.cons); (apply Piece.inside_of; rfl))
    | ((with_reducible apply Within.cons); apply Or.inr)
    | with_reducible apply Within.nil
    | with_reducible apply List.mem_cons_self
    | with_reducible apply List.mem_cons_of_mem
    | with_reducible apply Block.writeBits_keeps
    | with_reducible apply Kept.ite
    | split

theorem execLogClr_kept (p : Path) {s t : State} (h : execLogClr p s = .next t) : Kept [.berths, .chans, .chs, .cnt, .cols, .events, .fresh, .fws, .heat, .hold, .ins, .keys, .lanes, .mf, .prot, .pw, .qy, .regs, .running, .sel, .sides, .slots, .stk, .sv, .tl] s.blk t.blk := by
  unfold execLogClr at h
  unfold State.upd at h
  injection h with h
  subst h
  dsimp -zeta only
  generalize s.blk = b
  repeat' first
    | with_reducible assumption
    | with_reducible apply Kept.refl
    | with_reducible apply Within.refl
    | ((with_reducible apply Within.of); rfl)
    | ((with_reducible apply Within.cons); (apply Piece.inside_of; rfl))
    | ((with_reducible apply Within.cons); apply Or.inr)
    | with_reducible apply Within.nil
    | with_reducible apply List.mem_cons_self
    | with_reducible apply List.mem_cons_of_mem
    | with_reducible apply Block.writeOn_keeps
    | with_reducible apply Kept.ite
    | split

theorem execTlCntClr_kept (p : Path) {s t : State} (h : execTlCntClr p s = .next t) : Kept [.berths, .chans, .chs, .cnt, .cols, .events, .fresh, .fws, .heat, .hold, .ins, .keys, .lanes, .mf, .prot, .pw, .qy, .regs, .running, .sel, .sides, .slots, .stk, .sv, .tl] s.blk t.blk := by
  unfold execTlCntClr at h
  unfold State.upd at h
  injection h with h
  subst h
  dsimp -zeta only
  generalize s.blk = b
  repeat' first
    | with_reducible assumption
    | with_reducible apply Kept.refl
    | with_reducible apply Within.refl
    | ((with_reducible apply Within.of); rfl)
    | ((with_reducible apply Within.cons); (apply Piece.inside_of; rfl))
    | ((with_reducible apply Within.cons); apply Or.inr)
    | with_reducible apply Within.nil
    | with_reducible apply List.mem_cons_self
    | with_reducible apply List.mem_cons_of_mem
    | with_reducible apply Block.writeOn_keeps
    | with_reducible apply Kept.ite
    | split

theorem execSnap_kept (p : Path) {s t : State} (h : execSnap p s = .next t) : Kept [.berths, .chans, .chs, .cnt, .cols, .events, .fresh, .fws, .heat, .hold, .ins, .keys, .lanes, .mf, .prot, .pw, .qy, .regs, .running, .sel, .sides, .slots, .stk, .sv, .tl] s.blk t.blk := by
  unfold execSnap at h
  unfold State.upd at h
  injection h with h
  subst h
  dsimp -zeta only
  generalize s.blk = b
  repeat' first
    | with_reducible assumption
    | with_reducible apply Kept.refl
    | with_reducible apply Within.refl
    | ((with_reducible apply Within.of); rfl)
    | ((with_reducible apply Within.cons); (apply Piece.inside_of; rfl))
    | ((with_reducible apply Within.cons); apply Or.inr)
    | with_reducible apply Within.nil
    | with_reducible apply List.mem_cons_self
    | with_reducible apply List.mem_cons_of_mem
    | with_reducible apply Block.writeOn_keeps
    | with_reducible apply Kept.ite
    | split

theorem execTlEvselWrite_kept (p : Path) (block : Fin 69) (j : Fin 4) (value : Word) {s t : State} (h : execTlEvselWrite p block j value s = .next t) : Kept [.berths, .chans, .chs, .cnt, .cols, .events, .fresh, .fws, .heat, .hold, .ins, .keys, .lanes, .mf, .prot, .pw, .qy, .regs, .running, .sel, .sides, .slots, .stk, .sv, .tl] s.blk t.blk := by
  unfold execTlEvselWrite at h
  unfold State.upd at h
  injection h with h
  subst h
  dsimp -zeta only
  generalize s.blk = b
  repeat' first
    | with_reducible assumption
    | with_reducible apply Kept.refl
    | with_reducible apply Within.refl
    | ((with_reducible apply Within.of); rfl)
    | ((with_reducible apply Within.cons); (apply Piece.inside_of; rfl))
    | ((with_reducible apply Within.cons); apply Or.inr)
    | with_reducible apply Within.nil
    | with_reducible apply List.mem_cons_self
    | with_reducible apply List.mem_cons_of_mem
    | with_reducible apply Block.writeOn_keeps
    | with_reducible apply Kept.ite
    | split

theorem execCsrAcc_kept (dr : BitVec 57) {s t : State} (h : execCsrAcc dr s = .next t) : Kept [.berths, .chans, .chs, .cnt, .cols, .events, .fresh, .fws, .heat, .hold, .ins, .jtagDr, .keys, .lanes, .mf, .prot, .pw, .qy, .rdData, .regs, .running, .sel, .sides, .slots, .stk, .sv, .tl] s.blk t.blk := by
  unfold execCsrAcc at h
  unfold State.upd at h
  injection h with h
  subst h
  dsimp -zeta only
  generalize s.blk = b
  repeat' first
    | with_reducible assumption
    | with_reducible apply Kept.refl
    | with_reducible apply Within.refl
    | ((with_reducible apply Within.of); rfl)
    | ((with_reducible apply Within.cons); (apply Piece.inside_of; rfl))
    | ((with_reducible apply Within.cons); apply Or.inr)
    | with_reducible apply Within.nil
    | with_reducible apply List.mem_cons_self
    | with_reducible apply List.mem_cons_of_mem
    | with_reducible apply Block.csrAcc_keeps
    | with_reducible apply Kept.ite
    | split

theorem execFlitSend_kept (sd : Side) {s t : State} (h : execFlitSend sd s = .next t) : Kept [.cnt, .events, .fws, .ins, .lanes, .qy, .regs, .sides, .tl] s.blk t.blk := by
  unfold execFlitSend at h
  unfold State.upd at h
  injection h with h
  subst h
  dsimp -zeta only
  generalize s.blk = b
  repeat' first
    | with_reducible assumption
    | with_reducible apply Kept.refl
    | with_reducible apply Within.refl
    | ((with_reducible apply Within.of); rfl)
    | ((with_reducible apply Within.cons); (apply Piece.inside_of; rfl))
    | ((with_reducible apply Within.cons); apply Or.inr)
    | with_reducible apply Within.nil
    | with_reducible apply List.mem_cons_self
    | with_reducible apply List.mem_cons_of_mem
    | with_reducible apply Block.flitSend_keeps
    | with_reducible apply Kept.ite
    | split

theorem execFillRow_kept (sd : Side) (rows : Nat) (blks : List (Fin 16 × List Byte)) (slot : List SlotObs) (between : List Flit) {s t : State} (h : execFillRow sd rows blks slot between s = .next t) : Kept [.berths, .chs, .cnt, .events, .fws, .ins, .lanes, .prot, .qy, .regs, .running, .sides, .slots, .sv, .tl] s.blk t.blk := by
  unfold execFillRow at h
  unfold State.upd at h
  injection h with h
  subst h
  dsimp -zeta only
  generalize s.blk = b
  repeat' first
    | with_reducible assumption
    | with_reducible apply Kept.refl
    | with_reducible apply Within.refl
    | ((with_reducible apply Within.of); rfl)
    | ((with_reducible apply Within.cons); (apply Piece.inside_of; rfl))
    | ((with_reducible apply Within.cons); apply Or.inr)
    | with_reducible apply Within.nil
    | with_reducible apply List.mem_cons_self
    | with_reducible apply List.mem_cons_of_mem
    | with_reducible apply Block.fillRow_keeps
    | with_reducible apply Kept.ite
    | split

theorem execReformSwitch_kept (sd : Side) (own : Bool) (cut : Option (Flit × List (Fin 9))) {s t : State} (h : execReformSwitch sd own cut s = .next t) : Kept [.berths, .chs, .cnt, .events, .fws, .ins, .lanes, .mf, .prot, .pw, .qy, .regs, .running, .sides, .slots, .sv, .tl] s.blk t.blk := by
  unfold execReformSwitch at h
  unfold State.upd at h
  injection h with h
  subst h
  dsimp -zeta only
  generalize s.blk = b
  repeat' first
    | with_reducible assumption
    | with_reducible apply Kept.refl
    | with_reducible apply Within.refl
    | ((with_reducible apply Within.of); rfl)
    | ((with_reducible apply Within.cons); (apply Piece.inside_of; rfl))
    | ((with_reducible apply Within.cons); apply Or.inr)
    | with_reducible apply Within.nil
    | with_reducible apply List.mem_cons_self
    | with_reducible apply List.mem_cons_of_mem
    | with_reducible apply Block.reformSwitch_keeps
    | with_reducible apply Kept.ite
    | split

theorem execRead_kept (sd : Side) (f : Flit) {s t : State} (h : execRead sd f s = .next t) : Kept [.berths, .chans, .chs, .cnt, .cols, .events, .fresh, .fws, .heat, .hold, .ins, .keys, .lanes, .mf, .prot, .pw, .qy, .rdData, .regs, .running, .sel, .sides, .slots, .stk, .sv, .tl] s.blk t.blk := by
  unfold execRead at h
  unfold State.upd at h
  injection h with h
  subst h
  dsimp -zeta only
  generalize s.blk = b
  repeat' first
    | with_reducible assumption
    | with_reducible apply Kept.refl
    | with_reducible apply Within.refl
    | ((with_reducible apply Within.of); rfl)
    | ((with_reducible apply Within.cons); (apply Piece.inside_of; rfl))
    | ((with_reducible apply Within.cons); apply Or.inr)
    | with_reducible apply Within.nil
    | with_reducible apply List.mem_cons_self
    | with_reducible apply List.mem_cons_of_mem
    | with_reducible apply Block.takeAccess_keeps
    | with_reducible apply Kept.ite
    | split

theorem execWrite_kept (sd : Side) (f : Flit) {s t : State} (h : execWrite sd f s = .next t) : Kept [.berths, .chans, .chs, .cnt, .cols, .events, .fresh, .fws, .heat, .hold, .ins, .keys, .lanes, .mf, .prot, .pw, .qy, .rdData, .regs, .running, .sel, .sides, .slots, .stk, .sv, .tl] s.blk t.blk := by
  unfold execWrite at h
  unfold State.upd at h
  injection h with h
  subst h
  dsimp -zeta only
  generalize s.blk = b
  repeat' first
    | with_reducible assumption
    | with_reducible apply Kept.refl
    | with_reducible apply Within.refl
    | ((with_reducible apply Within.of); rfl)
    | ((with_reducible apply Within.cons); (apply Piece.inside_of; rfl))
    | ((with_reducible apply Within.cons); apply Or.inr)
    | with_reducible apply Within.nil
    | with_reducible apply List.mem_cons_self
    | with_reducible apply List.mem_cons_of_mem
    | with_reducible apply Block.takeAccess_keeps
    | with_reducible apply Kept.ite
    | split

theorem execWriteBytes_kept (sd : Side) (f : Flit) {s t : State} (h : execWriteBytes sd f s = .next t) : Kept [.berths, .chans, .chs, .cnt, .events, .fresh, .ins, .prot, .qy, .reg (tlOff Off.tlOvf quayBlk), .reg Off.chAlarm, .reg Off.lgAlarm, .reg Off.prAlarm, .reg Off.prErrLost, .reg Off.qyAlarm, .reg Off.qyTags, .stk, .tl] s.blk t.blk := by
  unfold execWriteBytes at h
  unfold State.upd at h
  injection h with h
  subst h
  dsimp -zeta only
  generalize s.blk = b
  repeat' first
    | with_reducible assumption
    | with_reducible apply Kept.refl
    | with_reducible apply Within.refl
    | ((with_reducible apply Within.of); rfl)
    | ((with_reducible apply Within.cons); (apply Piece.inside_of; rfl))
    | ((with_reducible apply Within.cons); apply Or.inr)
    | with_reducible apply Within.nil
    | with_reducible apply List.mem_cons_self
    | with_reducible apply List.mem_cons_of_mem
    | with_reducible apply Block.takeReq_keeps
    | with_reducible apply Kept.ite
    | split

theorem execAtomic_kept (sd : Side) (f : Flit) {s t : State} (h : execAtomic sd f s = .next t) : Kept [.berths, .chans, .chs, .cnt, .events, .fresh, .ins, .prot, .qy, .reg (tlOff Off.tlOvf quayBlk), .reg Off.chAlarm, .reg Off.lgAlarm, .reg Off.prAlarm, .reg Off.prErrLost, .reg Off.qyAlarm, .reg Off.qyTags, .stk, .tl] s.blk t.blk := by
  unfold execAtomic at h
  unfold State.upd at h
  injection h with h
  subst h
  dsimp -zeta only
  generalize s.blk = b
  repeat' first
    | with_reducible assumption
    | with_reducible apply Kept.refl
    | with_reducible apply Within.refl
    | ((with_reducible apply Within.of); rfl)
    | ((with_reducible apply Within.cons); (apply Piece.inside_of; rfl))
    | ((with_reducible apply Within.cons); apply Or.inr)
    | with_reducible apply Within.nil
    | with_reducible apply List.mem_cons_self
    | with_reducible apply List.mem_cons_of_mem
    | with_reducible apply Block.takeReq_keeps
    | with_reducible apply Kept.ite
    | split

theorem execReduce_kept (sd : Side) (f : Flit) {s t : State} (h : execReduce sd f s = .next t) : Kept [.berths, .chans, .chs, .cnt, .events, .fresh, .ins, .prot, .qy, .reg (tlOff Off.tlOvf quayBlk), .reg Off.chAlarm, .reg Off.lgAlarm, .reg Off.prAlarm, .reg Off.prErrLost, .reg Off.qyAlarm, .reg Off.qyTags, .stk, .tl] s.blk t.blk := by
  unfold execReduce at h
  unfold State.upd at h
  injection h with h
  subst h
  dsimp -zeta only
  generalize s.blk = b
  repeat' first
    | with_reducible assumption
    | with_reducible apply Kept.refl
    | with_reducible apply Within.refl
    | ((with_reducible apply Within.of); rfl)
    | ((with_reducible apply Within.cons); (apply Piece.inside_of; rfl))
    | ((with_reducible apply Within.cons); apply Or.inr)
    | with_reducible apply Within.nil
    | with_reducible apply List.mem_cons_self
    | with_reducible apply List.mem_cons_of_mem
    | with_reducible apply Block.takeReq_keeps
    | with_reducible apply Kept.ite
    | split

theorem execGather_kept (sd : Side) (f : Flit) {s t : State} (h : execGather sd f s = .next t) : Kept [.berths, .chans, .chs, .cnt, .events, .fresh, .ins, .prot, .qy, .reg (tlOff Off.tlOvf quayBlk), .reg Off.chAlarm, .reg Off.lgAlarm, .reg Off.prAlarm, .reg Off.prErrLost, .reg Off.qyAlarm, .reg Off.qyTags, .stk, .tl] s.blk t.blk := by
  unfold execGather at h
  unfold State.upd at h
  injection h with h
  subst h
  dsimp -zeta only
  generalize s.blk = b
  repeat' first
    | with_reducible assumption
    | with_reducible apply Kept.refl
    | with_reducible apply Within.refl
    | ((with_reducible apply Within.of); rfl)
    | ((with_reducible apply Within.cons); (apply Piece.inside_of; rfl))
    | ((with_reducible apply Within.cons); apply Or.inr)
    | with_reducible apply Within.nil
    | with_reducible apply List.mem_cons_self
    | with_reducible apply List.mem_cons_of_mem
    | with_reducible apply Block.takeReq_keeps
    | with_reducible apply Kept.ite
    | split

theorem execScatter_kept (sd : Side) (f : Flit) {s t : State} (h : execScatter sd f s = .next t) : Kept [.berths, .chans, .chs, .cnt, .events, .fresh, .ins, .prot, .qy, .reg (tlOff Off.tlOvf quayBlk), .reg Off.chAlarm, .reg Off.lgAlarm, .reg Off.prAlarm, .reg Off.prErrLost, .reg Off.qyAlarm, .reg Off.qyTags, .stk, .tl] s.blk t.blk := by
  unfold execScatter at h
  unfold State.upd at h
  injection h with h
  subst h
  dsimp -zeta only
  generalize s.blk = b
  repeat' first
    | with_reducible assumption
    | with_reducible apply Kept.refl
    | with_reducible apply Within.refl
    | ((with_reducible apply Within.of); rfl)
    | ((with_reducible apply Within.cons); (apply Piece.inside_of; rfl))
    | ((with_reducible apply Within.cons); apply Or.inr)
    | with_reducible apply Within.nil
    | with_reducible apply List.mem_cons_self
    | with_reducible apply List.mem_cons_of_mem
    | with_reducible apply Block.takeReq_keeps
    | with_reducible apply Kept.ite
    | split

theorem execFill_kept (sd : Side) (f : Flit) {s t : State} (h : execFill sd f s = .next t) : Kept [.berths, .chans, .chs, .cnt, .events, .fresh, .ins, .prot, .qy, .reg (tlOff Off.tlOvf quayBlk), .reg Off.chAlarm, .reg Off.lgAlarm, .reg Off.prAlarm, .reg Off.prErrLost, .reg Off.qyAlarm, .reg Off.qyTags, .stk, .tl] s.blk t.blk := by
  unfold execFill at h
  unfold State.upd at h
  injection h with h
  subst h
  dsimp -zeta only
  generalize s.blk = b
  repeat' first
    | with_reducible assumption
    | with_reducible apply Kept.refl
    | with_reducible apply Within.refl
    | ((with_reducible apply Within.of); rfl)
    | ((with_reducible apply Within.cons); (apply Piece.inside_of; rfl))
    | ((with_reducible apply Within.cons); apply Or.inr)
    | with_reducible apply Within.nil
    | with_reducible apply List.mem_cons_self
    | with_reducible apply List.mem_cons_of_mem
    | with_reducible apply Block.takeReq_keeps
    | with_reducible apply Kept.ite
    | split

theorem execFind_kept (sd : Side) (f : Flit) {s t : State} (h : execFind sd f s = .next t) : Kept [.berths, .chans, .chs, .cnt, .events, .fresh, .ins, .prot, .qy, .reg (tlOff Off.tlOvf quayBlk), .reg Off.chAlarm, .reg Off.lgAlarm, .reg Off.prAlarm, .reg Off.prErrLost, .reg Off.qyAlarm, .reg Off.qyTags, .stk, .tl] s.blk t.blk := by
  unfold execFind at h
  unfold State.upd at h
  injection h with h
  subst h
  dsimp -zeta only
  generalize s.blk = b
  repeat' first
    | with_reducible assumption
    | with_reducible apply Kept.refl
    | with_reducible apply Within.refl
    | ((with_reducible apply Within.of); rfl)
    | ((with_reducible apply Within.cons); (apply Piece.inside_of; rfl))
    | ((with_reducible apply Within.cons); apply Or.inr)
    | with_reducible apply Within.nil
    | with_reducible apply List.mem_cons_self
    | with_reducible apply List.mem_cons_of_mem
    | with_reducible apply Block.takeReq_keeps
    | with_reducible apply Kept.ite
    | split

theorem execCopyLocal_kept (sd : Side) (f : Flit) {s t : State} (h : execCopyLocal sd f s = .next t) : Kept [.berths, .chans, .chs, .cnt, .events, .fresh, .ins, .prot, .qy, .reg (tlOff Off.tlOvf quayBlk), .reg Off.chAlarm, .reg Off.lgAlarm, .reg Off.prAlarm, .reg Off.prErrLost, .reg Off.qyAlarm, .reg Off.qyTags, .stk, .tl] s.blk t.blk := by
  unfold execCopyLocal at h
  unfold State.upd at h
  injection h with h
  subst h
  dsimp -zeta only
  generalize s.blk = b
  repeat' first
    | with_reducible assumption
    | with_reducible apply Kept.refl
    | with_reducible apply Within.refl
    | ((with_reducible apply Within.of); rfl)
    | ((with_reducible apply Within.cons); (apply Piece.inside_of; rfl))
    | ((with_reducible apply Within.cons); apply Or.inr)
    | with_reducible apply Within.nil
    | with_reducible apply List.mem_cons_self
    | with_reducible apply List.mem_cons_of_mem
    | with_reducible apply Block.takeReq_keeps
    | with_reducible apply Kept.ite
    | split

theorem execCopyRemote_kept (sd : Side) (f : Flit) {s t : State} (h : execCopyRemote sd f s = .next t) : Kept [.berths, .chans, .chs, .cnt, .events, .fresh, .ins, .prot, .qy, .reg (tlOff Off.tlOvf quayBlk), .reg Off.chAlarm, .reg Off.lgAlarm, .reg Off.prAlarm, .reg Off.prErrLost, .reg Off.qyAlarm, .reg Off.qyTags, .stk, .tl] s.blk t.blk := by
  unfold execCopyRemote at h
  unfold State.upd at h
  injection h with h
  subst h
  dsimp -zeta only
  generalize s.blk = b
  repeat' first
    | with_reducible assumption
    | with_reducible apply Kept.refl
    | with_reducible apply Within.refl
    | ((with_reducible apply Within.of); rfl)
    | ((with_reducible apply Within.cons); (apply Piece.inside_of; rfl))
    | ((with_reducible apply Within.cons); apply Or.inr)
    | with_reducible apply Within.nil
    | with_reducible apply List.mem_cons_self
    | with_reducible apply List.mem_cons_of_mem
    | with_reducible apply Block.takeReq_keeps
    | with_reducible apply Kept.ite
    | split

theorem execFence_kept (sd : Side) (f : Flit) {s t : State} (h : execFence sd f s = .next t) : Kept [.berths, .chans, .chs, .cnt, .events, .fresh, .ins, .prot, .qy, .reg (tlOff Off.tlOvf quayBlk), .reg Off.chAlarm, .reg Off.lgAlarm, .reg Off.prAlarm, .reg Off.prErrLost, .reg Off.qyAlarm, .reg Off.qyTags, .stk, .tl] s.blk t.blk := by
  unfold execFence at h
  unfold State.upd at h
  injection h with h
  subst h
  dsimp -zeta only
  generalize s.blk = b
  repeat' first
    | with_reducible assumption
    | with_reducible apply Kept.refl
    | with_reducible apply Within.refl
    | ((with_reducible apply Within.of); rfl)
    | ((with_reducible apply Within.cons); (apply Piece.inside_of; rfl))
    | ((with_reducible apply Within.cons); apply Or.inr)
    | with_reducible apply Within.nil
    | with_reducible apply List.mem_cons_self
    | with_reducible apply List.mem_cons_of_mem
    | with_reducible apply Block.takeReq_keeps
    | with_reducible apply Kept.ite
    | split

end Sys2Proof.Machine
end

