-- ==== Sys2Proof/Laws/Memory.lean ====
section
/-! SUPPORT. The stored symbols: a read after a write, and that every operation on the store keeps its canonical form. -/

namespace Sys2Proof.Machine

open Sys2Proof

set_option Elab.async false

/-! ### A read after a write -/

theorem Memory.read_write (m : List Host.Cell) (a c : Nat) (v : Byte) :
    Memory.read (Memory.write m a v) c = if a = c then v else Memory.read m c := tget_tset _ m a c v

theorem Memory.read_writeN (m : List Host.Cell) (a c : Nat) (vs : List Byte) :
    Memory.read (Memory.writeN m a vs) c =
      if a ≤ c ∧ c < a + vs.length then vs.getD (c - a) 0 else Memory.read m c := by
  induction vs generalizing m a with
  | nil => simp [Memory.writeN]
  | cons v vs ih =>
    rw [Memory.writeN, ih, Memory.read_write]
    by_cases h : a = c
    · subst h
      have : ¬ (a + 1 ≤ a ∧ a < a + 1 + vs.length) := by omega
      simp
    · by_cases g : a + 1 ≤ c ∧ c < a + 1 + vs.length
      · have g2 : a ≤ c ∧ c < a + (v :: vs).length := by simp only [List.length_cons]; omega
        rw [if_pos g, if_pos g2]
        obtain ⟨k, rfl⟩ : ∃ k, c = a + 1 + k := ⟨c - (a + 1), by omega⟩
        have : a + 1 + k - a = k + 1 := by omega
        rw [this, List.getD_cons_succ]
        congr 1; omega
      · have g2 : ¬ (a ≤ c ∧ c < a + (v :: vs).length) := by simp only [List.length_cons]; omega
        rw [if_neg g, if_neg g2, if_neg h]

/-- A granule's write leaves every symbol of another granule alone. -/
theorem Memory.read_writeGranule_other (m : List Host.Cell) (g : Nat) (syms : List Byte) (c : Nat)
    (h : c / symsPerGranule ≠ g) : Memory.read (Memory.writeGranule m g syms) c = Memory.read m c := by
  rw [Memory.writeGranule, Memory.read_writeN, if_neg]
  rintro ⟨h1, h2⟩
  have h3 : (syms.take 72).length ≤ 72 := by simp
  simp only [symsPerGranule] at h h1 h2
  omega

/-! ### The canonical form -/

theorem Memory.wf_write {m : List Host.Cell} (a : Nat) (v : Byte) (h : Memory.wf m = true) :
    Memory.wf (Memory.write m a v) = true := twf_tset _ a v h

theorem Memory.wf_writeN {m : List Host.Cell} (a : Nat) (vs : List Byte) (h : Memory.wf m = true) :
    Memory.wf (Memory.writeN m a vs) = true := by
  induction vs generalizing m a with
  | nil => exact h
  | cons v vs ih => exact ih (a + 1) (Memory.wf_write a v h)

theorem Memory.wf_writeGranule {m : List Host.Cell} (g : Nat) (syms : List Byte) (h : Memory.wf m = true) :
    Memory.wf (Memory.writeGranule m g syms) = true := Memory.wf_writeN _ _ h

theorem Memory.wf_damageCells {m : List Host.Cell} (got : List (Nat × List Byte)) (dmg : List Damage)
    (h : Memory.wf m = true) : Memory.wf (damageCells m got dmg) = true := by
  unfold damageCells
  induction dmg generalizing m with
  | nil => exact h
  | cons e es ih =>
    rw [List.foldl_cons]
    apply ih
    split
    · exact Memory.wf_write _ _ h
    · exact h

theorem Memory.wf_clearChannel {m : List Host.Cell} (n : Nat) (h : Memory.wf m = true) :
    Memory.wf (clearChannel m n) = true := twf_filter _ _ h

theorem Memory.wf_cutBursts {m : List Host.Cell} (fresh : Nat) (gs : List Nat) (h : Memory.wf m = true) :
    Memory.wf (cutBursts m fresh gs) = true := by
  induction gs generalizing m fresh with
  | nil => exact h
  | cons g gs ih => exact ih _ (Memory.wf_writeGranule _ _ h)

theorem Memory.wf_memAfterPart {m : List Host.Cell} (b : Block) (id i : Nat) (dmg : List Damage)
    (h : Memory.wf m = true) : Memory.wf (b.memAfterPart m id i dmg) = true := by
  unfold Block.memAfterPart
  split
  · exact h
  · split
    · exact h
    · split
      · exact Memory.wf_damageCells _ _ h
      · exact h

/-- What a change of one granule does to the store: nothing, damage in it, a write of it, or damage and a write. -/
def Memory.touched (m m2 : List Host.Cell) (g : Nat) : Prop :=
  m2 = m ∨ (∃ es, m2 = damageCells m [(g, Memory.readGranule m g)] es) ∨ (∃ f, m2 = Memory.writeGranule m g f)
    ∨ ∃ es f, m2 = Memory.writeGranule (damageCells m [(g, Memory.readGranule m g)] es) g f

theorem Memory.wf_touched {m m2 : List Host.Cell} {g : Nat} (h : Memory.wf m = true) (e : Memory.touched m m2 g) :
    Memory.wf m2 = true := by
  rcases e with rfl | ⟨es, rfl⟩ | ⟨f, rfl⟩ | ⟨es, f, rfl⟩
  · exact h
  · exact Memory.wf_damageCells _ _ h
  · exact Memory.wf_writeGranule _ _ h
  · exact Memory.wf_writeGranule _ _ (Memory.wf_damageCells _ _ h)

/-- A scrub changes its granule at most: damage in a user's granule, and perhaps a write of it. -/
theorem scrubOne_touched (m : List Host.Cell) (b : Block) (sc : Scrub) (n g : Nat) (dmg : List Damage) :
    Memory.touched m (scrubOne m b sc n g dmg).1 g := by
  by_cases h : ownGranule g = true
  · simp only [scrubOne, h, if_true]
    split <;> exact .inl rfl
  · simp only [scrubOne, h]
    split
    · exact .inr (.inl ⟨_, rfl⟩)
    · exact .inr (.inr (.inr ⟨_, _, rfl⟩))

/-- A column command changes its granule at most. -/
theorem runCol_touched (m : List Host.Cell) (b : Block) (n : Nat) (a : Access) (dmg : List Damage)
    (pe : Bool) : Memory.touched m (runCol m b n a dmg pe).1 a.gran := by
  unfold runCol
  dsimp only
  split
  · split
    · split
      · exact .inl rfl
      · exact .inr (.inr (.inl ⟨_, rfl⟩))
    · exact .inl rfl
  · exact .inr (.inr (.inl ⟨_, rfl⟩))
  · split
    · exact .inl rfl
    · rename_i sc _
      have k := scrubOne_touched m b sc n a.gran dmg
      generalize scrubOne m b sc n a.gran dmg = r at k ⊢
      exact k
  · exact .inl rfl
  · exact .inl rfl

/-- A command at a channel changes its access's granule at most. -/
theorem runCmd_touched (m : List Host.Cell) (b : Block) (n : Nat) (c : Cmd) (dmg : List Damage) (faulty : Option (Fin 13))
    (pe : Bool) : Memory.touched m (runCmd m b n c dmg faulty pe).1 c.acc.gran := by
  unfold runCmd
  dsimp only
  split
  · exact .inl rfl
  · split <;> first | exact .inl rfl | exact runCol_touched ..

theorem Memory.wf_scrubList {m : List Host.Cell} (hs : List Nat) (b : Block) (n : Nat) (dmg : List Damage) (h : Memory.wf m = true) :
    Memory.wf (hs.foldl (fun (acc : List Host.Cell × Block) g =>
      match acc.2.prot.scrub with
      | some sc => scrubOne acc.1 acc.2 sc n g dmg
      | none => acc) (m, b)).1 = true := by
  induction hs generalizing m b with
  | nil => exact h
  | cons x xs ih =>
    rw [List.foldl_cons]
    cases hq : b.prot.scrub with
    | none => simp only; exact ih b h
    | some sc =>
      simp only
      exact ih _ (Memory.wf_touched h (scrubOne_touched ..))

theorem Memory.wf_scrubRest {m : List Host.Cell} (b : Block) (dmg : List Damage) (n : Nat) (h : Memory.wf m = true) :
    Memory.wf (scrubRest m b dmg n).1 = true := by
  unfold scrubRest
  split
  · dsimp only
    split
    · exact h
    · exact Memory.wf_scrubList _ _ _ _ h
  · exact h

end Sys2Proof.Machine
end

