-- ==== Sys2Proof/Laws/Tick.lean ====
section
/-! SUPPORT. What counting can change: a tally's counters and OVF bits, and, in a tick, the tide counter, the charters'
buckets and the cycle counters besides. -/

namespace Sys2Proof.Machine

open Sys2Proof

set_option Elab.async false

/-- Everything that a tally counter's advance can change. -/
theorem Block.addCount_shape (b : Block) (blk i n : Nat) :
    ∃ tl2 csr2, b.addCount blk i n = { b with tl := tl2, csr := csr2 } := by
  unfold Block.addCount
  dsimp only
  split
  · exact ⟨_, _, rfl⟩
  · exact ⟨_, _, rfl⟩

/-- Everything that an event's count can change. -/
theorem Block.tally_shape (b : Block) (blk ev : Nat) (fs : List Nat) (n : Nat) :
    ∃ tl2 csr2, b.tally blk ev fs n = { b with tl := tl2, csr := csr2 } := by
  unfold Block.tally
  split
  · exact ⟨b.tl, b.csr, rfl⟩
  · apply Block.each_induct (fun x => ∃ tl2 csr2, x = { b with tl := tl2, csr := csr2 })
    · rintro _ i ⟨t, c, rfl⟩
      dsimp only
      split
      · obtain ⟨t2, c2, e⟩ := Block.addCount_shape { b with tl := t, csr := c } blk i n
        rw [e]; exact ⟨t2, c2, rfl⟩
      · exact ⟨t, c, rfl⟩
    · exact ⟨b.tl, b.csr, rfl⟩

/-- Everything that a block's cycle counters can change in `n` cycles. -/
theorem Block.tallyCycles_shape (b : Block) (n blk : Nat) :
    ∃ tl2 csr2, b.tallyCycles n blk = { b with tl := tl2, csr := csr2 } := by
  unfold Block.tallyCycles
  split
  · exact ⟨b.tl, b.csr, rfl⟩
  · dsimp only
    apply Block.each_induct (fun x => ∃ tl2 csr2, x = { b with tl := tl2, csr := csr2 })
    · rintro _ i ⟨t, c, rfl⟩
      split
      · exact ⟨t, c, rfl⟩
      · obtain ⟨t2, c2, e⟩ := Block.addCount_shape { b with tl := t, csr := c } blk i _
        rw [e]; exact ⟨t2, c2, rfl⟩
    · exact ⟨_, b.csr, rfl⟩

/-- Everything that `n` CLK_CORE cycles can change. -/
theorem Block.coreCycles_shape (b : Block) (n : Nat) :
    ∃ chs2 tl2 csr2 cnt2, b.coreCycles n = { b with chs := chs2, tl := tl2, csr := csr2, cnt := cnt2 } := by
  unfold Block.coreCycles
  dsimp only
  apply Block.each_induct (fun x => ∃ chs2 tl2 csr2 cnt2, x = { b with chs := chs2, tl := tl2, csr := csr2, cnt := cnt2 })
  · rintro _ i ⟨h, t, c, k, rfl⟩
    obtain ⟨t2, c2, e⟩ := Block.tallyCycles_shape { b with chs := h, tl := t, csr := c, cnt := k } n i
    rw [e]; exact ⟨h, t2, c2, k, rfl⟩
  · apply Block.each_induct (fun x => ∃ chs2 tl2 csr2 cnt2, x = { b with chs := chs2, tl := tl2, csr := csr2, cnt := cnt2 })
    · rintro _ i ⟨h, t, c, k, rfl⟩
      unfold Block.gateCycles Block.lockCycles
      split <;> split
      all_goals first | exact ⟨h, t, c, _, rfl⟩ | exact ⟨h, t, c, k, rfl⟩
    · exact ⟨_, b.tl, b.csr, b.cnt, rfl⟩

/-- Everything that a tick can change. -/
theorem Block.tick_shape (b : Block) :
    ∃ chs2 tl2 csr2 cnt2,
      b.tick = { b with
        chs := chs2, tl := tl2, csr := csr2, cnt := cnt2
        ck := { b.ck with tide := b.ck.tide + BitVec.ofNat 64 b.tickLen } } := by
  unfold Block.tick
  dsimp only
  split
  · obtain ⟨h, t, c, k, e⟩ := b.coreCycles_shape b.tickLen
    rw [e]; exact ⟨h, t, c, k, rfl⟩
  · exact ⟨b.chs, b.tl, b.csr, b.cnt, rfl⟩

end Sys2Proof.Machine
end

