-- ==== Sys2Proof/Tests/Slice0.lean ====
section
/-! SUPPORT. Tests: an ill-formed command for each check of WellFormed, small tests on the manual's worked examples, and
for every obligation states and operands that meet the hypotheses of each of its clauses. -/

namespace Sys2Proof.Tests

open Sys2Proof Sys2Proof.Machine

set_option Elab.async false

/-! ### An ill-formed command for each check -/

/-- A flit with the eighth reserved bit, which no header has. -/
def badFlit : Flit := { kind := 1, rsv := 0x80 }

theorem test_wf_board : Instr.wf (.porstNRise 0 0 []) = false ∧ Instr.wf (.wrstNRise 0 0 [0]) = false := by decide
theorem test_wf_directory :
    Instr.wf (.bootDone [] [] [] [] 0) = false := by decide
theorem test_wf_findings_symbol :
    Instr.wf (.arrivalSurveyDone { bankFails := [⟨0, 0, 0, 0, 72, 0⟩] }) = false
      ∧ Instr.wf (.surveyRunDone { bankOverflow := [(2048, true)] }) = false
      ∧ Instr.wf (.departureSurveyDone { spareRows := [(2048, 1)] }) = false := by decide
theorem test_wf_findings_columns :
    Instr.wf (.surveyRunDone { spareCols := [(2048, 1)] }) = false ∧ Instr.wf (.surveyRunDone { coilFails := [(64, 0)] }) = false
      ∧ Instr.wf (.surveyRunDone { caCoilFails := [(0, 13)] }) = false ∧ Instr.wf (.surveyRunDone { flight := [(0, 1024)] }) = false := by decide
theorem test_wf_cap : Instr.wf (.cap .west 0 ⟨129, 1, 0, 0, false, List.replicate 8 0, List.replicate 8 0⟩) = false := by decide
theorem test_wf_commit : Instr.wf (.commit .west 0 ⟨129, 0, 0, List.replicate 8 0, List.replicate 8 0, 0⟩) = false := by decide
theorem test_wf_degrade : Instr.wf (.degradeCheck 0 2 1 0) = false := by decide
theorem test_wf_flit :
    Instr.wf (.flitArrive .west badFlit [] false [] 0) = false ∧ Instr.wf (.read .west badFlit) = false
      ∧ Instr.wf (.fence .east badFlit) = false ∧ Instr.wf (.credit .east badFlit) = false
      ∧ Instr.wf (.manifestFragment .west badFlit) = false := by decide
theorem test_wf_codeword :
    Instr.wf (.flitArrive .west { kind := 0 } [] false [⟨[(0, 16)], false⟩] 0) = false
      ∧ Instr.wf (.flitArrive .west { kind := 0 } [] false [⟨[(0, 1), (0, 1)], false⟩] 0) = false
      ∧ Instr.wf (.flitArrive .west { kind := 0 } [] false [⟨[(0, 1)], true⟩] 0) = false := by decide
theorem test_wf_damage :
    Instr.wf (.partDone 0 0 [⟨0, 72, 1, false⟩] false) = false ∧ Instr.wf (.partDone 0 0 [⟨0, 0, 0, false⟩] false) = false
      ∧ Instr.wf (.partDone 0 0 [⟨2 ^ 31, 0, 1, false⟩] false) = false ∧ Instr.wf (.returnClockLost 0 [(64, 0)]) = false
      ∧ Instr.wf (.commandIssue 0 [⟨0, 72, 1, false⟩] none false) = false ∧ Instr.wf (.scrubDone [⟨0, 72, 1, false⟩]) = false := by decide
theorem test_wf_round :
    Instr.wf (.watchRound {}) = false ∧ Instr.wf (.watchRound { ch := List.replicate 96 none, atLimit := [56] }) = false := by decide
theorem test_wf_lists :
    Instr.wf (.routeSet ⟨0, 0⟩ 0 []) = false ∧ Instr.wf (.regionSet ⟨0, 0⟩ 0 []) = false ∧ Instr.wf (.fwUpdateData ⟨0, 0⟩ 0 []) = false
      ∧ Instr.wf (.keyLoad ⟨0, 0⟩ ⟨0, 0, 0, 0, 0, 0, 0, List.replicate 65 0⟩) = false := by decide
theorem test_wf_measurements :
    Instr.wf (.fomMeasureDone 0 6400 0 (List.replicate 12 0) 0) = false ∧ Instr.wf (.fomMeasureDone 0 800 0 [] 0) = false
      ∧ Instr.wf (.calibrationDone 1 0 true 1024) = false ∧ Instr.wf (.calRetry 1 0 true 1024) = false ∧ Instr.wf (.memRstRelease 0 0 [(64, 0)]) = false := by decide
theorem test_wf_blocks :
    Instr.wf (.blockLock 0 2 [⟨1, []⟩]) = false ∧ Instr.wf (.fillRow .west 0 [(0, [])] [] []) = false
      ∧ Instr.wf (.fillRow .west 0 [] [] [badFlit]) = false ∧ Instr.wf (.reformSwitch .west false (some (badFlit, []))) = false
      ∧ Instr.wf (.caAlert 0 9 (List.replicate 13 0)) = false ∧ Instr.wf (.caAlert 0 1 []) = false := by decide
theorem test_wf_accepts : Instr.wf (.snap .i3c) = true ∧ Instr.wf (.watchRound { ch := List.replicate 96 none }) = true := by decide

/-! ### The manual's worked examples -/

/-- R147's check value: the nine ASCII bytes "123456789". -/
theorem test_crc64 : crc64 ((List.range 9).map fun i => BitVec.ofNat 8 (0x31 + i)) = 0x995DC9BBDF1939FA := by decide +kernel
/-- Chapter 09: local offset 0x1D_3A5C_7E80 lies on CH31, bank 6, row 29,929; its lower half in bank 7; the next piece on CH16. -/
theorem test_address :
    chanOf (0x1D3A5C7E80 / 64) = 31 ∧ bankOf (0x1D3A5C7E80 / 64) = 6 ∧ rowOf (0x1D3A5C7E80 / 64) = 29929
      ∧ bankOf (0x1D3A5C7680 / 64) = 7 ∧ chanOf (0x1D3A5C8000 / 64) = 16 := by decide +kernel
/-- Chapter 18: LN_SYM_ERR of lane E05 lies at 0x05_1460. -/
theorem test_offset : lnOff Off.lnSymErrLo 21 = 0x051460 ∧ pairLo 0x051464 = some 0x051460 := by decide
/-- Chapter 03: PRE2 +2, PRE1 −6, POST1 −10, POST2 0 is legal; PRE1 −20 with POST1 −24 would leave MAIN at 18. -/
theorem test_taps : Taps.legal ⟨2, -6, -10, 0⟩ = true ∧ Taps.legal ⟨2, -20, -24, 0⟩ = false := by decide
/-- Chapter 04: CAP with BMIN 64 and UMAX 8 is answered with BLINK 64. -/
theorem test_blink : (grantAll ⟨64, 8, 2, 0, true, [4, 4], [32, 32]⟩).blink = 64 := by decide
/-- Chapter 17: blocks 0 to 63 and 68 make a snapshot of 8,384 bytes. -/
theorem test_snapshot_size : DumpParams.size { mode := 2, period := 160000, ringAddr := 0, ringBytes := 0x100000, mask := 2 ^ 68 + 2 ^ 64 - 1 } = 8384 := by
  decide +kernel
/-- Chapter 16: the bank-5 failures of CH20 take two rows and one column line. -/
theorem test_bank_repair :
    let w := repairBank 20 5 32 16
      [⟨20, 5, 0x1234, 3, 17, 2⟩, ⟨20, 5, 0x1234, 9, 40, 6⟩, ⟨20, 5, 0x1234, 22, 5, 0⟩, ⟨20, 5, 0x0100, 11, 63, 1⟩, ⟨20, 5, 0x2F00, 11, 63, 1⟩,
       ⟨20, 5, 0x6A01, 11, 63, 1⟩, ⟨20, 5, 0x7FFE, 30, 70, 4⟩] []
    w.left.length = 0 ∧ w.rows = 30 ∧ w.cols = 15 ∧ w.made = [rowRepair 20 5 0x1234, lineRepair 20 5 (11, 63, 1), rowRepair 20 5 0x7FFE] := by
  decide +kernel
/-- Chapter 08: the binary32 SUM of 2^24, 1, 1, −2^24, 1 and 1 is 3 with INEXACT. -/
theorem test_reduce :
    reduceResult { kind := 1, opcode := 0x05, gvalid := 1, length := 321, g0 := BitVec.ofNat 512 (256 * 0xA + 4096 * 2 ^ 32 + 6 * 2 ^ 64) }
      [(0, 0x4B800000, false), (64, 0x3F800000, false), (128, 0x3F800000, false), (192, 0xCB800000, false), (256, 0x3F800000, false), (320, 0x3F800000, false)]
      = some (BitVec.ofNat 512 (0x40400000 + 6 * 2 ^ 64 + 8 * 2 ^ 96)) := by decide +kernel
/-- Chapter 10's example: physical data coils 5 and 40 failed. -/
theorem test_coils : ({ failed := [5, 40] } : Column).physical 4 = 4 ∧ ({ failed := [5, 40] } : Column).physical 5 = 6
    ∧ ({ failed := [5, 40] } : Column).physical 38 = 39 ∧ ({ failed := [5, 40] } : Column).physical 39 = 41
    ∧ ({ failed := [5, 40] } : Column).physical 71 = 73 := by decide
/-- R267: the generator is x^4 + x + 1, so that a word whose last command bit alone is 1 leaves x + 1; log 93 says in which
order the coil carries it. -/
theorem test_command_word : (caEncode 0x80000000000).getD 11 0 = 0xC ∧ (caEncode 0).getD 11 0 = 0 := by decide +kernel
/-- R267: an error confined to one coil is detected. -/
theorem test_command_error : ∀ c : Fin 11, ∀ e : Fin 15,
    caGood ((caEncode 0x123456789AB).set c ((caEncode 0x123456789AB).getD c 0 ^^^ BitVec.ofNat 4 (e + 1))) = false := by decide +kernel
/-- R75: x^7 + x^6 + 1 from seven ones gives six zeros, then a one. -/
theorem test_prbs7 : prbsBits 0 0x7F 7 = [false, false, false, false, false, false, true] := by decide
/-- R75: PRBS13 and PRBS31 by hand from a lone one thirteen, and thirty-one, bits ago. -/
theorem test_prbs : prbsNext 1 0x1000 = true ∧ prbsNext 1 0x800 = true ∧ prbsNext 1 4 = false ∧ prbsNext 1 2 = true ∧ prbsNext 1 1 = true
    ∧ prbsNext 2 0x40000000 = true ∧ prbsNext 2 0x8000000 = true ∧ prbsNext 2 1 = false := by decide
/-- The CRC-16 of R88 is the one whose published check value for "123456789" is 0x29B1. -/
theorem test_crc16 : crc16 ((List.range 9).map fun i => BitVec.ofNat 8 (0x31 + i)) = 0x29B1 := by decide +kernel
/-- R87: the header goes first, bit 0 first; then byte 0, bit 0 first. -/
theorem test_block_bits : (blockBits ⟨1, [0x80]⟩).take 10 = [true, false, false, false, false, false, false, false, false, true] := by decide
/-- R88: a FILL block's first bytes, and a block with a flipped bit is discarded. -/
theorem test_control_block : (ctlBytes ctlFill 0xFF (fillBody 0x1234 0x56 true)).take 8 = [0x1E, 0x28, 0xF6, 0xFF, 0x34, 0x12, 0x56, 1]
    ∧ (parseCtl (ctlBytes ctlFill 0xFF (fillBody 0x1234 0x56 true))).isSome = true
    ∧ parseCtl ((ctlBytes ctlFill 0xFF (fillBody 0x1234 0x56 true)).set 5 0x13) = none := by decide +kernel
/-- R91: a codeword is 544 symbols, the parity symbols follow the 514 symbols of the message, and a pair is A and B. -/
theorem test_codeword : (codeword (List.replicate 5140 false)).length = 544 ∧ (codewordPair (List.replicate 10280 true)).length = 1088 := by decide +kernel

/-- The published check value of SMBus's CRC-8 over the digits 1 to 9 (R445, log 101). -/
theorem test_pec_check_value : crc8 [0x31, 0x32, 0x33, 0x34, 0x35, 0x36, 0x37, 0x38, 0x39] = 0xF4 := by decide +kernel
/-- R445: seven bytes on I3C, seven and a good PEC on SMBus; a wrong PEC and other lengths are discarded. -/
theorem test_transfer_lengths : let b : List Byte := [0x10, 0x00, 0x01, 5, 0, 0, 0]
    transferBody false 0x50 b = some b ∧ transferBody true 0x50 (b ++ [crc8 (0xA0 :: b)]) = some b ∧ transferBody true 0x50 b = none
      ∧ transferBody true 0x50 (b ++ [crc8 (0xA2 :: b)]) = none ∧ transferBody false 0x50 (b.take 3) = none ∧ leAt b 0 3 = 0x010010 := by
  decide +kernel
/-- The published SHA-384 of "abc" (FIPS 180-4, which R331 names by its algorithm). -/
theorem test_sha384 : sha384 [0x61, 0x62, 0x63]
    = 0xcb00753f45a35e8bb5a03d699ac65007272c32ab0eded1631a8b605a43ff5bed8086072ba1e7cc2358baeca134c825a7 := by decide +kernel

/-! ### Small states -/

/-- The same entry at every number below a bound. -/
def allOf {α : Type} (n : Nat) (v : α) : Tbl α := (List.range n).map fun i => (i, v)

/-- A state whose block is given. -/
def st (b : Block) : State := { blk := b }

/-- The pier in OPEN: every domain ON, clocks locked, all lanes in RUN, every berth READY. -/
def openB : Block :=
  { pw := { st := .openS, doms := allOf 48 { st := .on } }
    ck := { tide := 0x1000000, xtalOk := true, rcOk := true, root := { lock := true }, west := { lock := true }, east := { lock := true },
            aonSrc := .pllRoot, hkSrc := .pllRoot, svSrc := .pllRoot, tlSrc := .pllRoot, tideSrc := .pllRoot }
    lanes := allOf 32 { st := .run, txIdle := false, ecConv := true, grade := 2, blockLock := true }
    west := { refPresent := true, seg := .run, grade := 2, pass := 0xFFFF, mask := 0xFFFF, bseg := 64, useg := 4, blink := 64 }
    east := { refPresent := true, seg := .run, grade := 2, pass := 0xFFFF, mask := 0xFFFF, bseg := 64, useg := 4, blink := 64 }
    berths := allOf 64 { st := .ready, fillDone := true }
    chans := allOf 64 { pwr := .awake }
    cols := allOf 64 { calPass := true }
    sv := { svOk := true }
    mf := { arrival := 5, rings := [(62, { bound := true }), (63, { bound := true })], bootSlot := some false } }
def open0 : State := st openB
def dark0 : State := st { pins := { porstLow := true }, pw := { st := .dark } }
def reset1 : State := State.reset
def held0 : State := st { pw := { heldInReset := true }, pins := { wrstLow := true } }
def harbour0 : State := st { openB with pw.st := .harbour }
/-- A departure with a survey, in phase 2, with every channel as given. -/
def depS (x : Chan) : State :=
  st { openB with pw.st := .departure, pw.depPhase := .survey, chans := allOf 64 x, west := {}, east := {}, lanes := [] }
/-- Power group `g` of it is tested; domain `d` is the last to drain. -/
def depG (g d : Nat) : State :=
  let s := depS { pwr := .selfRefresh }
  { s with blk := { s.blk with sv.group := BitVec.ofNat 3 g, sv.tested := true }.modDom d fun x => { x with st := .draining } }
/-- A good boot directory copy: slot A, generation 7. -/
def goodDir : List Byte :=
  let h : List Byte := leBytes 0x52494442 4 ++ [0, 0, 0, 0] ++ leBytes 7 4 ++ List.replicate 16 0
  h ++ leBytes (crc32 h).toNat 4
/-- The public key of the image, as two coordinates, and its SHA-384 hash (from an independent P-384 and SHA-384). -/
def keyBytes : List Byte := 4 :: (leBytes 0xbfd152465458e5b9f1a903eafef03095ebfd52c5f9ea97be74de9194355fcfb40ec097315adf6afdefba21f44b625b48 48).reverse
  ++ (leBytes 0x17058eff9a1ad175a4675e9c730cb028ec76aec544f7a56d58164d8cfc0402b489c4e74c918dc3a77f5c219d31b8e245 48).reverse
def rootK : BitVec 384 := 0x7541784c689d67907e5a55b1ea4b77d399be600adbb94e4bfd24b414d164a341c7bf95919e228b5d2537f4e30e2e6bd7
/-- An image of one body byte, version 3, signed. -/
def goodImg : List Byte := leBytes 0x4D465145 4 ++ leBytes 3 4 ++ leBytes 0 4 ++ leBytes 1 4 ++ keyBytes ++ List.replicate 15 0
  ++ (leBytes 0x2f0957f8f5067f8fda8ec335c0ca83110c631fb7a98e61359fe803a23e02cbb48fc6c3d27b4e4685b9c293f5687be474 48).reverse
  ++ (leBytes 0x9de6086145d25af33bc55f33d32d85683a0ee59daaff2d9f346f0e086488b061e7e387c97e562d7c9d6ccba497aeb6d0 48).reverse
  ++ List.replicate 32 0 ++ [0x5A]
/-- The same with another body byte. -/
def badImg : List Byte := goodImg.take 256 ++ [0x5B]
/-- The open pier with one lane as given. -/
def ln (l : Nat) (x : Lane) : State := st (openB.setLane l { x with grade := 2 })
def acap : Cap := { bmin := 64, umax := 4, hops := 1, spread := 0, sideDown := false, shares := [2, 0, 0, 0, 0, 0, 0, 0], credits := [32, 0, 0, 0, 0, 0, 0, 0] }
def acom : Commit := { blink := 32, spread := 0, ucap := 0, shares := [5, 0, 0, 0, 0, 0, 0, 0], credits := [16, 0, 0, 0, 0, 0, 0, 0], total := 5 }
/-- The open pier with its ID, an agreed share and credits, and region 0 over the whole array for every source. -/
def quayB : Block :=
  { openB with
    qy := { pierId := 5, idValid := true }
    west := { openB.west with creditGrant := 32, shareGrant := 8, balSet := true, bal := 200, myIx := some 0, commit := some { blink := 64, spread := 0, ucap := 0, shares := [8, 0, 0, 0, 0, 0, 0, 0], credits := [32, 0, 0, 0, 0, 0, 0, 0], total := 8 } }
    east := { openB.east with creditGrant := 32, shareGrant := 8, balSet := true, bal := 200, myIx := some 0, commit := some { blink := 64, spread := 0, ucap := 0, shares := [8, 0, 0, 0, 0, 0, 0, 0], credits := [32, 0, 0, 0, 0, 0, 0, 0], total := 8 } } }
def quay0 : State := st quayB
/-- A READ of two granules at byte 128. -/
def rdFlit : Flit := { kind := 1, opcode := 0x01, dest := 5, src := 9, tag := 3, flow := 2, offset := 128, length := 2 }
def rdFlit0 : Flit := { rdFlit with dest := 6 }
def crFlit (n : Nat) : Flit := { kind := 1, vl := true, opcode := 0x7F, dest := 5, src := 9, arg := BitVec.ofNat 32 n }
/-- Registers set in a block. -/
def regs (b : Block) (rs : List (Nat × Word)) : Block := rs.foldl (fun b e => b.setReg e.1 e.2) b
/-- The open pier with region entry 0 over the whole array for every source under the arrival key. -/
def rgnB : Block :=
  regs { quayB with keys.arrival := some 0x123 }
    [(Off.qyRgnBaseLo, 0), (Off.qyRgnBaseLo + 4, 0), (Off.qyRgnBaseLo + 8, 0xFFFFF000), (Off.qyRgnBaseLo + 12, 0x1F),
     (Off.qyRgnBaseLo + 16, 0x7FFF0000), (Off.qyRgnBaseLo + 20, 0xF), (Off.qyRoute, 0x800A8000)]
def rgn0 : State := st rgnB
/-- A request flit of an opcode. -/
def rq (op : Op) : Flit := { kind := 1, opcode := BitVec.ofNat 8 op.code, dest := 5, src := 9, tag := 3, flow := 2, offset := 128 }
def wrFlit : Flit := { rq .write with gvalid := 3, g0 := 7, g1 := 8 }
def wbFlit : Flit := { rq .writeBytes with gvalid := 1, arg := 0x41, g0 := 0x1234 }
def atFlit : Flit := { rq .atomic with gvalid := 1, arg := 0x02, g0 := 5 }
def rdcFlit : Flit := { rq .reduce with gvalid := 1, length := 1, g0 := 0x000000030000000800000000 + 256 * 4 }
def gaFlit : Flit := { rq .gather with length := 2, gvalid := 1, arg := 0 }
def scFlit : Flit := { rq .scatter with length := 2, gvalid := 3, arg := 0, g1 := 9 }
def fiFlit : Flit := { rq .fill with gvalid := 1, length := 3, g0 := 9 }
def fnFlit : Flit := { rq .find with gvalid := 1, length := 3, g0 := 9 }
def clFlit : Flit := { rq .copyLocal with gvalid := 1, length := 2, g0 := 0x10000 }
def crmFlit : Flit := { rq .copyRemote with gvalid := 1, length := 5, g0 := 0x6000000000 }
def feFlit : Flit := { rq .fence with offset := 0 }
/-- Request 4 with one part. -/
def rqR (op : Op) (c : Cls) (p : Part) : Req := { id := 4, op := op, sd := .west, f := rq op, cls := c, parts := [p], keyR := some 0x123, keyW := some 0x123 }
def rqC (op : Op) (c : Cls) (p : Part) : Req := { rqR op c p with committed := some 0 }
def reqS (op : Op) (c : Cls) (p : Part) : State := st { rgnB with qy.reqs := [rqR op c p], qy.nextId := 5 }
def reqC (op : Op) (c : Cls) (p : Part) : State := st { rgnB with qy.reqs := [rqC op c p], qy.nextId := 5, qy.commits := 1 }
/-- As `reqS`, with berth 0 in a state. -/
def reqB (op : Op) (c : Cls) (p : Part) (x : BerthState) : State := st ({ rgnB with qy.reqs := [rqR op c p], qy.nextId := 5 }.modBerth 0 fun y => { y with st := x })
def rdyP : Part := { berth := 0, toWrite := [2], writes := [{ gran := 2, data := 9, poison := false, key := some 0x123 }], stage := .ready, granted := true }
def comP : Part := { rdyP with toWrite := [], stage := .committed }
/-- One request with a part at channel 0, at a tide, with a row open in bank 0 there. -/
def chS (t : Nat) (op : Op) (p : Part) (row : Option Nat) : State :=
  let b : Block := { rgnB with qy.reqs := [rqR op .be p], qy.nextId := 5, ck.tide := BitVec.ofNat 64 t }
  st (b.modChan 0 fun x => { x with banks := if row = none then [] else [(0, { row := row, used := true })] })
/-- The command that issues at a channel. -/
def cmdOf (s : State) (ch : Nat) : Cmd := ((s.blk.atCycle ch).choose ch).getD ⟨.pre, ⟨.fill, 0, false, 0, 0, 0, 0⟩⟩
def qP : Part := { berth := 0, reads := [2], toIssue := [2], stage := .queued }
def farP : Part := { berth := 0, reads := [2 ^ 31], toIssue := [2 ^ 31], stage := .queued }
def cwP : Part := { rdyP with stage := .committed }
def rqW (p : Part) : Req := { rqR .fill .be p with committed := some 0 }
def chW (t : Nat) (p : Part) (row : Option Nat) : State :=
  let s := chS t .fill p row
  { s with blk.qy.reqs := [rqW p] }
/-- Berth 0 filling, from its granule 0, whose bank holds the row open or none. -/
def chF (t : Nat) : State :=
  let s := st ({ quayB with ck.tide := BitVec.ofNat 64 t }.modBerth 0 fun x => { x with st := .filling, fillDone := false })
  { s with blk := s.blk.modChan 0 fun x => { x with banks := [(bankOf (fillGranule 0 0), { row := some (rowOf (fillGranule 0 0)), used := true })] } }
/-- Channel 0 as given, at a tide. -/
def chT (t : Nat) (f : Chan → Chan) : State := st (({ quayB with ck.tide := BitVec.ofNat 64 t } : Block).modChan 0 f)
def chF1 (t : Nat) : State := { chF t with blk := (chF t).blk.modChan 0 fun x => { x with banks := [] } }
/-- Channel 0 due a pull-in. -/
def pullS (t : Nat) : State := { chT t id with blk := regs (chT t id).blk [(dcOff Off.dcChCtrl 0, 2)] }
/-- The command chosen at a channel of a block. -/
def refOf (b : Block) (ch : Nat) : Cmd := (b.choose ch).getD ⟨.resume, ⟨.fill, 0, false, 0, 0, 0, 0⟩⟩
/-- A command word with one bit flipped. -/
def badWord : List (BitVec 4) := (caEncode 5).set 2 1
/-- Every channel has both calibrations due, long since. -/
def calS (f : Chan → Chan) : State :=
  st { quayB with ck.tide := 0x100000000, chans := allOf 64 (f { pwr := .awake, calDue := 3 }) }
def chN (f : Chan → Chan) : State := st (quayB.modChan 0 f)
def colN (f : Column → Column) : State := st (quayB.modCol 0 f)
def m0 : ManRef := { ring := 62, seq := 1 }
/-- The open pier with manifest `m0` of an opcode running. -/
def manS (op : Nat) (b : Block) : State := st { b with mf.running := [{ m := m0, opcode := BitVec.ofNat 16 op, origin := {}, params := [] }] }
def rstS (r : StackRst) : State := st { quayB with stk.rst := r }
def noneB : Block := (List.range 64).foldl (fun b n => b.modBerth n fun x => { x with st := .absent }) quayB
def scr : Scrub := { m := m0, first := 0, last := 63, writeback := true, poisonUe := true }
/-- A scrub on channel 0 with the row of its next granule open. -/
def scrS (t : Nat) : State :=
  { chT t fun x => { x with scrubNext := some 2, banks := [(bankOf 2, { row := some (rowOf 2), used := true })] } with blk.prot.scrub := some scr }
def coolR : Readings := { ch := List.replicate 96 (some 640) }
def hotR : Readings := { ch := List.replicate 96 (some 1800) }
def tripR : Trip := { tide := 5, analogue := true, incomplete := false, sensor := 3, layer := 0, acked := false, full := false }
/-- A BW charter over berths 0 and 1, both sides. -/
def chD : CharterDesc := { cls := 2, flags := 6, run := 4, window := 8, bw := 10, gpc := 4, flowLo := 5, flowHi := 9, srcLo := 0, srcHi := 100, berths := 3, rank := 2 }
/-- A charter far beyond what a berth gives. -/
def bigD : CharterDesc := { chD with bw := 51200 }
def chB (x : Charter) : Block := { quayB with chs.tab := [(7, { x with desc := some chD })] }
def dmp : DumpParams := { mode := 1, period := 100, ringAddr := 0x1FF0000000, ringBytes := 0x1000, mask := 1 }
def img0 : List Byte := leBytes 0x50414E53 4 ++ leBytes 7 4 ++ List.replicate 120 3
/-- The state long after. -/
def oldS (s : State) : State := { s with blk.ck.tide := 0x2000000000 }
def legalR : RegionImage := { baseLo := 0x1000, baseHi := 0, limLo := 0x2000, limHi := 1, src := 0x7FFF0000, perm := 0xF }
def keyP : KeyLoadParams := { kind := 0, slot := 9, op := 0, wrapped := 0, priv := 0, srcLo := 0, srcHi := 0, material := (List.range 64).map (BitVec.ofNat 8) }
def session0 : FwSession := { ring := 62, slotB := true, total := 300, got := 40 }
def ses (x : FwSession) : State := manS 0xA2 { quayB with mf.session := some x }
/-- A session whose slot holds an image. -/
def goodFl (n : Nat) (img : List Byte) : State :=
  let s := ses { session0 with got := n }
  { s with blk.mf.flashB := some (program [] 0 img) }
def job (j : FlashJob) : State := manS 0xA2 { quayB with mf.session := some session0, mf.job := some j }
def tripS : State := manS 0x81 { quayB with pw.st := .harbour, pw.tripHold := true, lg.trips := [(0, some tripR)], lg.tripNext := 1 }
/-- The bytes of a PIER_INFO manifest from the I3C mailbox, without authentication, for arrival 5, with a sequence. -/
def manBytes (seq arrival : Nat) : List Byte :=
  [1, 0, 1, 0] ++ leBytes seq 4 ++ leBytes 0x7FFF 2 ++ [0, 0] ++ leBytes 0 4 ++ leBytes arrival 4 ++ leBytes 0 44
def boxB (bs : List Byte) : Block := { quayB with mf.mbI3c := { data := ((List.range bs.length).zip bs).filter fun e => e.2 != 0 } }
def frag (n k : Nat) : Flit := { kind := 3, dest := 5, src := 9, tag := 3, flow := 2, length := BitVec.ofNat 16 (256 * n), gvalid := 15, arg := BitVec.ofNat 32 (k + 65536 * n) }
def oneRun (b : Block) : Block := (List.range 15).foldl (fun b l => b.modLane (l + 1) fun x => { x with st := .failed }) b
/-- Lane 3 of the West side is OFF. -/
def laneOffB (b : Block) : Block := b.setLane 3 { b.lane 3 with st := .off }
/-- Receipt slot of ring 62, sequence 3, DONE. -/
def winSlot : Slot := { st := .done, seq := 3, opcode := 1 }
def winS : State := st ((quayB.setSel .i3c Off.mfRcptSel 3).setSlot (slotKey 62 3) winSlot)
/-- Every kind of counter stands at 7. -/
def cntS (b : Block) : State :=
  st ([lnOff Off.lnSymErrLo 5, lnOff Off.lnFecHist0 5, lnOff Off.lnPrbsErrLo 5, Off.fwThruLo, Off.qyAcceptLo, btOff Off.btPartsLo 3, dcOff Off.dcActLo 9, Off.prCeLo].foldl
    (fun b o => b.setCount o 7) { b with tl.blocks := [(3, { cyc := 5 })] })
/-- Key material in KS_DATA. -/
def ksS : State := st { quayB with keys.ksData := (List.range 16).map fun i => (i, BitVec.ofNat 32 (i + 1)) }
def snapD : DumpParams := { mode := 1, period := 100, ringAddr := 0x1FF0000000, ringBytes := 0x1000, mask := 1 }

/-! ### Charters (chapter 07's two worked examples) -/

/-- Both segments at BLINK 128 with a share of 4/32, every berth READY. -/
def admitB : Block :=
  { openB with
    west := { openB.west with grade := 3, blink := 128, shareGrant := 4, myIx := some 0, commit := some { blink := 128, spread := 0, ucap := 0, shares := [4, 0, 0, 0, 0, 0, 0, 0], credits := [32, 0, 0, 0, 0, 0, 0, 0], total := 4 } }
    east := { openB.east with grade := 3, blink := 128, shareGrant := 4, myIx := some 0, commit := some { blink := 128, spread := 0, ucap := 0, shares := [4, 0, 0, 0, 0, 0, 0, 0], credits := [32, 0, 0, 0, 0, 0, 0, 0], total := 4 } } }
def rt0 : CharterDesc := { cls := 1, flags := 3, run := 32, window := 8, bw := 2048, gpc := 1024, flowLo := 0, flowHi := 0, srcLo := 0, srcHi := 0, berths := BitVec.allOnes 64, rank := 0 }
def bw1 (n : Nat) : CharterDesc := { rt0 with cls := 2, flags := 2, window := 4, bw := BitVec.ofNat 16 n, gpc := 4 }

theorem test_charter_figures : CharterDesc'.rate rt0 = 69 ∧ CharterDesc'.depth rt0 = 138 ∧ CharterDesc'.quayRate rt0 = 2 ∧ CharterDesc'.quayDepth rt0 = 4 ∧ CharterDesc'.rate (bw1 320) = 11 ∧ CharterDesc'.quayRate (bw1 320) = 80 := by decide +kernel
/-- BW 320 is refused: reason 0x0B, West, NEED 586, HAVE 525. -/
theorem test_charter_refused :
    (admitB.check true [rt0, bw1 320]).map Short.detail = some { reason := 0x0B, place := 0, need := 586, have_ := 525 } := by decide +kernel
/-- BW 276 is admitted. -/
theorem test_charter_admitted : admitB.check true [rt0, bw1 276] = none := by decide +kernel

/-! ### Hypotheses of the obligations -/

theorem hypotheses_stepKeepsCanonicalMemory : ∃ s t : State, s.inv ∧ step s = .next t := ⟨State.reset, _, by unfold State.inv; decide, rfl⟩

theorem hypotheses_commandsKeepQueue : ∃ (i : Instr) (s t : State), exec i s = .next t := ⟨.porstNLow, State.reset, _, rfl⟩

theorem hypotheses_onlyAccessesAndFailuresTouchStore :
    ∃ (i : Instr) (s t : State), exec i s = .next t ∧ (∀ d h, i ≠ .xtalFail d h) ∧ (∀ d h, i ≠ .rootLost d h) ∧ i ≠ .railUv .core
      ∧ (∀ n d f p, i ≠ .commandIssue n d f p) ∧ (∀ r p d e, i ≠ .partDone r p d e) ∧ (∀ n, i ≠ .channelFillDone n) ∧ (∀ d, i ≠ .scrubDone d) :=
  ⟨.porstNLow, State.reset, _, rfl, by simp, by simp, by simp, by simp, by simp, by simp, by simp⟩

theorem hypotheses_patternsAndAlarms4 : ∃ (s t : State) (l : LaneId) (c : Bool), exec (.prbsSync l [c]) s = .next t :=
  ⟨State.reset, _, 0, true, rfl⟩

theorem hypotheses_patternsAndAlarms6 : ∃ (s t : State) (l : LaneId) (c : Bool), exec (.prbsSyncLost l [c]) s = .next t :=
  ⟨State.reset, _, 0, true, rfl⟩

theorem hypotheses_idleTickAdvancesTheTide : ∃ s : State, s.pending = [] := ⟨State.reset, rfl⟩

theorem hypotheses_coldResetsLeaveDark :
    (∃ (s : State), (s.blk.pw.st ≠ PierState.dark)) :=
  ⟨open0, by decide +kernel⟩

theorem hypotheses_risingEdgesStartArrival :
    (∃ (s : State) (strap : BitVec 4) (bts : BitVec 3) (board : List Byte), (s.blk.pins.porstLow = true) ∧ (s.blk.pw.st = PierState.dark) ∧ (s.blk.pins.railsLow = []))
    ∧ (∃ (s : State) (strap : BitVec 4) (bts : BitVec 3) (board : List Byte), (s.blk.pins.wrstLow = true) ∧ (s.blk.pw.heldInReset = true))
    ∧ (∃ (s : State) (strap : BitVec 4) (bts : BitVec 3) (board : List Byte), (s.blk.pins.wrstLow = true) ∧ (s.blk.pw.heldInReset = false)) :=
  ⟨⟨dark0, 5, 3, [], by decide +kernel⟩,
   ⟨held0, 5, 3, [1,2], by decide +kernel⟩,
   ⟨(st { pins := { wrstLow := true } }), 5, 3, [1,2], by decide +kernel⟩⟩

theorem hypotheses_warmResetKeepsAndClears :
    (∃ (s : State), (s.blk.pw.st = PierState.dark ∨ s.blk.sv.inScan = true))
    ∧ (∃ (s : State), (s.blk.pw.st ≠ PierState.dark) ∧ (s.blk.sv.inScan = false) ∧ (s.blk.pins.wrstLow = false)) :=
  ⟨⟨dark0, by decide +kernel⟩,
   ⟨(st { openB with csr := [(Off.qyCtrl, 2), (0xC1008, 77)] }), by decide +kernel⟩⟩

theorem hypotheses_powerRequest :
    (∃ (s : State), (s.blk.live = true) ∧ (s.blk.regBit Off.pwCtrl 0 = true) ∧ (s.blk.inService = true))
    ∧ (∃ (s : State), (s.blk.live = true) ∧ (s.blk.regBit Off.pwCtrl 0 = true) ∧ (s.blk.pw.heldInReset = false) ∧ (s.blk.pw.st = PierState.arrival ∨ s.blk.pw.st = PierState.survey))
    ∧ (∃ (s : State), (s.blk.regBit Off.pwCtrl 0 = false ∨ s.blk.pw.st = PierState.arrival ∧ s.blk.pw.heldInReset = true ∨ s.blk.pw.st = PierState.dark ∨ s.blk.pw.st = PierState.departure ∨ s.blk.pw.st = PierState.tripped ∨ s.blk.pw.st = PierState.frozen)) :=
  ⟨⟨(st { openB with csr := [(Off.pwCtrl, 1)] }), by decide +kernel⟩,
   ⟨(st { csr := [(Off.pwCtrl, 1)] }), by decide +kernel⟩,
   ⟨(st { openB with pw.st := .tripped }), by decide +kernel⟩⟩

theorem hypotheses_freezeAndTrst :
    (∃ (s : State), (s.blk.pw.st ≠ PierState.dark) ∧ (s.blk.pw.st ≠ PierState.frozen) ∧ (s.blk.sv.inScan = false))
    ∧ (∃ (s : State), (s.blk.pw.st ≠ PierState.dark)) :=
  ⟨⟨open0, by decide +kernel⟩,
   ⟨(st { openB with jtagDr := 5 }), by decide +kernel⟩⟩

theorem hypotheses_crystalAndRootFailures :
    (∃ (s : State) (aonDead : Bool) (hkDead : Bool), (s.blk.armed = true) ∧ (s.blk.pw.st ≠ PierState.frozen) ∧ (s.blk.ck.xtalOk = true))
    ∧ (∃ (s : State) (aonDead : Bool) (hkDead : Bool), (s.blk.armed = true) ∧ (s.blk.pw.st ≠ PierState.frozen) ∧ (s.blk.ck.root.lock = true))
    ∧ (∃ (s : State) (aonDead : Bool) (hkDead : Bool), (s.blk.armed = true) ∧ (s.blk.pw.st = PierState.frozen) ∧ (s.blk.ck.xtalOk = true))
    ∧ (∃ (s : State) (aonDead : Bool) (hkDead : Bool), (s.blk.armed = true) ∧ (s.blk.pw.st = PierState.frozen) ∧ (s.blk.ck.root.lock = true))
    ∧ (∃ (s : State) (aonDead : Bool) (hkDead : Bool), (s.blk.armed = false ∨ s.blk.ck.xtalOk = false))
    ∧ (∃ (s : State) (aonDead : Bool) (hkDead : Bool), (s.blk.armed = false ∨ s.blk.ck.root.lock = false)) :=
  ⟨⟨open0, false, true, by decide +kernel⟩,
   ⟨open0, false, true, by decide +kernel⟩,
   ⟨(st { openB with pw.st := .frozen }), false, true, by decide +kernel⟩,
   ⟨(st { openB with pw.st := .frozen }), false, true, by decide +kernel⟩,
   ⟨dark0, false, true, by decide +kernel⟩,
   ⟨(st { openB with ck.root := {} }), false, true, by decide +kernel⟩⟩

theorem hypotheses_lanePllAndRcFailures :
    (∃ (s : State) (sd : Side) (refLost : Bool), (s.blk.armed = true) ∧ (s.blk.pw.st ≠ PierState.frozen) ∧ ((s.blk.pll (sidePll sd)).lock = true))
    ∧ (∃ (s : State), (s.blk.armed = true) ∧ (s.blk.ck.rcOk = true) ∧ (s.blk.ck.aonSrc ≠ ClkSrc.rc) ∧ (s.blk.ck.hkSrc ≠ ClkSrc.rc))
    ∧ (∃ (s : State), (s.blk.armed = true) ∧ (s.blk.ck.rcOk = true) ∧ (s.blk.ck.aonSrc = ClkSrc.rc ∨ s.blk.ck.hkSrc = ClkSrc.rc))
    ∧ (∃ (s : State), (s.blk.armed = false ∨ s.blk.ck.rcOk = false)) :=
  ⟨⟨open0, .west, false, by decide +kernel⟩,
   ⟨open0, by decide +kernel⟩,
   ⟨(st { openB with ck.hkSrc := .rc }), by decide +kernel⟩,
   ⟨dark0, by decide +kernel⟩⟩

theorem hypotheses_railFaults :
    (∃ (s : State), (s.blk.armed = true))
    ∧ (∃ (s : State) (r : Rail), (s.blk.armed = true) ∧ (r = Rail.lane ∨ r = Rail.laneA))
    ∧ (∃ (s : State) (r : Rail), (s.blk.armed = true) ∧ (r = Rail.vpp ∨ r = Rail.stack))
    ∧ (∃ (s : State), (s.blk.armed = true) ∧ (s.blk.ck.root.lock = true))
    ∧ (∃ (s : State), (s.blk.armed = true) ∧ (s.blk.ck.root.lock = false))
    ∧ (∃ (s : State) (r : Rail), (s.blk.armed = false) ∧ (s.blk.pw.st ≠ PierState.dark) ∧ (r ≠ Rail.aon))
    ∧ (∃ (s : State) (r : Rail), (s.blk.pw.st = PierState.dark) ∧ (r ≠ Rail.aon)) :=
  ⟨⟨open0, by decide +kernel⟩,
   ⟨open0, .laneA, by decide +kernel⟩,
   ⟨open0, .stack, by decide +kernel⟩,
   ⟨open0, by decide +kernel⟩,
   ⟨(st { openB with ck.root := {} }), by decide +kernel⟩,
   ⟨(st { openB with sv.inScan := true }), .core, by decide +kernel⟩,
   ⟨dark0, .vpp, by decide +kernel⟩⟩

theorem hypotheses_locksAndRelocks :
    (∃ (s : State) (sd : Side), (s.blk.pw.st ≠ PierState.dark))
    ∧ (∃ (s : State) (sd : Side), (s.blk.live = true) ∧ (s.blk.domOn (ckDom sd) = true) ∧ ((s.blk.side sd).refPresent = true) ∧ (s.blk.laneRails = true) ∧ ((s.blk.pll (sidePll sd)).lock = false) ∧ ((s.blk.pll (sidePll sd)).down = false))
    ∧ (∃ (s : State) (p : Pll), (s.blk.live = true) ∧ ((s.blk.pll p).down = true) ∧ ((s.blk.pll p).attempt = false) ∧ ((s.blk.pll p).gaveUp = false) ∧ ((s.blk.pll p).tries < 3) ∧ (s.blk.pllFed p = true) ∧ (s.blk.regBit Off.ckCtrl 0 = true ∨ (s.blk.pll p).forced = true) ∧ (s.blk.passed 0 (s.blk.pll p).next = true))
    ∧ (∃ (s : State) (pass : BitVec 64) (lost : BitVec 64) (flight : List (Nat × Nat)), (s.blk.live = true) ∧ (s.blk.ck.root.attempt = true) ∧ (10 * usTicks ≤ s.blk.since s.blk.ck.root.began))
    ∧ (∃ (s : State) (sd : Side) (pass : BitVec 64) (lost : BitVec 64) (flight : List (Nat × Nat)), (s.blk.live = true) ∧ ((s.blk.pll (sidePll sd)).attempt = true) ∧ (10 * usTicks ≤ s.blk.since (s.blk.pll (sidePll sd)).began))
    ∧ (∃ (s : State) (p : Pll), (s.blk.live = true) ∧ ((s.blk.pll p).attempt = true) ∧ ((s.blk.pll p).tries < 3) ∧ (lockTicks p ≤ s.blk.since (s.blk.pll p).began))
    ∧ (∃ (s : State) (p : Pll), (s.blk.live = true) ∧ ((s.blk.pll p).attempt = true) ∧ (3 ≤ (s.blk.pll p).tries) ∧ (lockTicks p ≤ s.blk.since (s.blk.pll p).began)) :=
  ⟨⟨open0, .west, by decide +kernel⟩,
   ⟨(st { openB with ck.west := {} }), .west, by decide +kernel⟩,
   ⟨(st { openB with ck.root := { down := true } , csr := [(Off.ckCtrl, 1)]}), .root, by decide +kernel⟩,
   ⟨(st { openB with ck.root := { down := true, attempt := true, tries := 1 }, ck.coreGated := true }), 0xFF, 0, [], by decide +kernel⟩,
   ⟨(st { openB with ck.west := { down := true, attempt := true, tries := 1 }}), .west, 0, 0, [], by decide +kernel⟩,
   ⟨(st { openB with ck.west := { down := true, attempt := true, tries := 1 }}), .west, by decide +kernel⟩,
   ⟨(st { openB with ck.root := { down := true, attempt := true, tries := 3 }}), .root, by decide +kernel⟩⟩

theorem hypotheses_arrivalStepsOneToThree :
    (∃ (s : State) (d0 : List Byte) (d1 : List Byte) (ia : List Byte) (ib : List Byte) (root : BitVec 384) (x : DirCopy), (s.blk.pw.st = PierState.arrival) ∧ (s.blk.pw.arr = ArrStep.boot) ∧ (s.blk.mf.noImage = false) ∧ (s.blk.hmRuns = true) ∧ (s.blk.spiRuns = true) ∧ ((s.blk.holdDirs (dirOf d0) (dirOf d1)).mf.dir0 = some x) ∧ ((s.blk.holdDirs (dirOf d0) (dirOf d1)).mf.dir1 = none) ∧ (s.blk.imageValid (s.blk.imageIn ia ib root x.slotB) = true))
    ∧ (∃ (s : State) (d0 : List Byte) (d1 : List Byte) (ia : List Byte) (ib : List Byte) (root : BitVec 384) (x : DirCopy), (s.blk.pw.st = PierState.arrival) ∧ (s.blk.pw.arr = ArrStep.boot) ∧ (s.blk.mf.noImage = false) ∧ (s.blk.hmRuns = true) ∧ (s.blk.spiRuns = true) ∧ ((s.blk.holdDirs (dirOf d0) (dirOf d1)).mf.dir0 = none) ∧ ((s.blk.holdDirs (dirOf d0) (dirOf d1)).mf.dir1 = some x) ∧ (s.blk.imageValid (s.blk.imageIn ia ib root x.slotB) = false) ∧ (s.blk.imageValid (s.blk.imageIn ia ib root !x.slotB) = true))
    ∧ (∃ (s : State) (d0 : List Byte) (d1 : List Byte) (ia : List Byte) (ib : List Byte) (root : BitVec 384), (s.blk.pw.st = PierState.arrival) ∧ (s.blk.pw.arr = ArrStep.boot) ∧ (s.blk.mf.noImage = false) ∧ (s.blk.hmRuns = true) ∧ (s.blk.spiRuns = true) ∧ (s.blk.imageValid (s.blk.imageIn ia ib root false) = false) ∧ (s.blk.imageValid (s.blk.imageIn ia ib root true) = false))
    ∧ (∃ (s : State), (s.blk.pw.st = PierState.arrival) ∧ (s.blk.pw.arr = ArrStep.pll) ∧ (s.blk.hmRuns = true) ∧ (s.blk.pllFed Pll.root = true))
    ∧ (∃ (s : State), (s.blk.pw.st = PierState.arrival) ∧ (s.blk.pw.arr = ArrStep.chart) ∧ (s.blk.hmRuns = true) ∧ (s.blk.sv.tested = false)) :=
  ⟨⟨(st {}), goodDir, [], goodImg, [], rootK, { slotB := false, generation := 7 }, by decide +kernel⟩,
   ⟨(st {}), [], goodDir, badImg, goodImg, rootK, { slotB := false, generation := 7 }, by decide +kernel⟩,
   ⟨(st {}), goodDir, [], badImg, [], rootK, by decide +kernel⟩,
   ⟨(st { pw := { arr := .pll }, ck := { xtalOk := true, rcOk := true } }), by decide +kernel⟩,
   ⟨(st { pw := { arr := .chart }, ck := { xtalOk := true, root := { lock := true } } }), by decide +kernel⟩⟩

theorem hypotheses_domainsPowerAndDrain :
    (∃ (s : State) (d : DomId), ((s.blk.dom ↑d).st = DomState.powering) ∧ (s.blk.live = true) ∧ (s.blk.powerTurn ↑d = true))
    ∧ (∃ (s : State) (d : DomId), ((s.blk.dom ↑d).st = DomState.powering) ∧ (s.blk.live = true) ∧ (s.blk.powerTurn ↑d = true) ∧ (100 * usTicks ≤ s.blk.since (s.blk.dom ↑d).since))
    ∧ (∃ (s : State) (d : DomId), ((s.blk.dom ↑d).st = DomState.draining) ∧ (s.blk.inService = true) ∧ (s.blk.live = true) ∧ (s.blk.drained ↑d = true)) :=
  ⟨⟨(st { openB with pw.doms := [(3, { st := .powering })] }), 3, by decide +kernel⟩,
   ⟨(st { openB with pw.st := .survey, pw.arr := .power, pw.doms := [(14, { st := .powering })] }), 14, by decide +kernel⟩,
   ⟨(st { openB with pw.doms := [(16, { st := .draining, waiter := some ⟨62, 1⟩ })], chans := allOf 64 { pwr := .selfRefresh } }), 16, by decide +kernel⟩⟩

theorem hypotheses_surveyEndsInHarbour :
    (∃ (s : State) (f : SurveyFindings), (s.blk.pw.st = PierState.survey) ∧ (s.blk.pw.arr = ArrStep.survey) ∧ (s.blk.hmRuns = true) ∧ (s.blk.coreRuns = true) ∧ (f.svOk = true) ∧ (f.domFail = 0) ∧ ((s.blk.dom hkDom).st ≠ DomState.failed) ∧ (s.blk.pw.depHeld = false))
    ∧ (∃ (s : State) (f : SurveyFindings), (s.blk.pw.st = PierState.survey) ∧ (s.blk.pw.arr = ArrStep.survey) ∧ (s.blk.hmRuns = true) ∧ (s.blk.coreRuns = true) ∧ (f.svOk = true) ∧ (f.domFail = 0) ∧ ((s.blk.dom hkDom).st ≠ DomState.failed) ∧ (s.blk.pw.depHeld = true))
    ∧ (∃ (s : State) (f : SurveyFindings), (s.blk.pw.st = PierState.survey) ∧ (s.blk.pw.arr = ArrStep.survey) ∧ (s.blk.hmRuns = true) ∧ (s.blk.coreRuns = true) ∧ ((s.blk.dom hkDom).st = DomState.failed)) :=
  ⟨⟨(st { openB with pw.st := .survey, pw.arr := .survey, berths := [], chans := [], lanes := [], west := {}, east := {} }), {}, by decide +kernel⟩,
   ⟨(st { openB with pw.st := .survey, pw.arr := .survey, pw.depHeld := true }), { laneFail := 3 }, by decide +kernel⟩,
   ⟨(st { openB with pw.st := .survey, pw.arr := .survey, pw.doms := [(15, { st := .failed })] }), {}, by decide +kernel⟩⟩

theorem hypotheses_fillsAndRetries :
    (∃ (s : State) (n : ChId), (s.blk.coreRuns = true) ∧ ((s.blk.berth ↑n).st = BerthState.filling) ∧ (s.blk.fillFits ↑n = true))
    ∧ (∃ (s : State) (sd : Side), (s.blk.inService = true) ∧ (s.blk.coreRuns = true) ∧ (s.blk.regBit Off.pwCtrl 3 = true) ∧ ((s.blk.side sd).seg = SegState.down) ∧ (s.blk.trainLanes sd ≠ []) ∧ (s.blk.olderThan sTicks (s.blk.side sd).retryAt = true)) :=
  ⟨⟨(st { openB with berths := [(5, { st := .filling })], chans := [(5, { pwr := .awake, fillNext := 33554430 })] }), 5, by decide +kernel⟩,
   ⟨(st { openB with west := { refPresent := true } , csr := [(Off.pwCtrl, 9)] }), .west, by decide +kernel⟩⟩

theorem hypotheses_departurePhases :
    (∃ (s : State), (s.blk.pw.st = PierState.departure) ∧ (s.blk.pw.depPhase = DepPhase.quiesce) ∧ (s.blk.live = true) ∧ (s.blk.commitRuns = false) ∧ (s.blk.qy.reqs = []) ∧ (10 * usTicks ≤ s.blk.since s.blk.pw.depStart))
    ∧ (∃ (s : State) (f : SurveyFindings), (s.blk.pw.st = PierState.departure) ∧ (s.blk.pw.depPhase = DepPhase.survey) ∧ (s.blk.live = true) ∧ ((List.range 64).all s.blk.asleep = false))
    ∧ (∃ (s : State) (f : SurveyFindings), (s.blk.pw.st = PierState.departure) ∧ (s.blk.pw.depPhase = DepPhase.survey) ∧ (s.blk.live = true) ∧ (s.blk.pw.depNoSurvey = false) ∧ ((List.range 64).all s.blk.asleep = true) ∧ (s.blk.sv.tested = false) ∧ (s.blk.switching = false) ∧ (f.svOk = true) ∧ (s.blk.sv.group ≠ 7))
    ∧ (∃ (s : State) (f : SurveyFindings), (s.blk.pw.st = PierState.departure) ∧ (s.blk.pw.depPhase = DepPhase.survey) ∧ (s.blk.live = true) ∧ (s.blk.pw.depNoSurvey = false) ∧ ((List.range 64).all s.blk.asleep = true) ∧ (s.blk.sv.tested = false) ∧ (s.blk.switching = false) ∧ (f.svOk = false))
    ∧ (∃ (s : State) (d : DomId), (s.blk.pw.st = PierState.departure) ∧ (s.blk.staggered = true) ∧ (s.blk.sv.tested = true) ∧ (s.blk.live = true) ∧ ((s.blk.dom ↑d).st = DomState.draining) ∧ (s.blk.drained ↑d = true) ∧ (∀ (e : Nat), e ∈ groupDoms s.blk.sv.group.toNat → e ≠ ↑d → (s.blk.dom e).st ≠ DomState.draining))
    ∧ (∃ (s : State) (f : SurveyFindings), (s.blk.pw.st = PierState.departure) ∧ (s.blk.pw.depPhase = DepPhase.survey) ∧ (s.blk.live = true) ∧ (s.blk.pw.depNoSurvey = true) ∧ ((List.range 64).all s.blk.asleep = true))
    ∧ (∃ (s : State), (s.blk.pw.st = PierState.departure) ∧ (s.blk.pw.depPhase = DepPhase.chart) ∧ (s.blk.live = true))
    ∧ (∃ (s : State), (s.blk.pw.st = PierState.departure) ∧ (s.blk.pw.depPhase = DepPhase.domainsOff) ∧ (s.blk.hmRuns = true)) :=
  ⟨⟨(st { openB with pw.st := .departure, pw.depPhase := .quiesce, chs.tab := [(3, { st := .closing })] }), by decide +kernel⟩,
   ⟨(depS { pwr := .awake }), {}, by decide +kernel⟩,
   ⟨(depS { pwr := .selfRefresh }), { svOk := true }, by decide +kernel⟩,
   ⟨(depS { pwr := .selfRefresh }), { svOk := false }, by decide +kernel⟩,
   ⟨(depG 2 17), 17, by decide +kernel⟩,
   ⟨(st { openB with pw.st := .departure, pw.depPhase := .survey, pw.depNoSurvey := true, chans := allOf 64 { pwr := .selfRefresh } }), {}, by decide +kernel⟩,
   ⟨(st { openB with pw.st := .departure, pw.depPhase := .chart, lg.writing := some 1 }), by decide +kernel⟩,
   ⟨(st { openB with pw.st := .departure, pw.depPhase := .domainsOff, pw.depWaiter := some ⟨62, 9⟩ }), by decide +kernel⟩⟩

theorem hypotheses_scanAndCapture :
    (∃ (s : State), (s.blk.pw.st ≠ PierState.dark) ∧ (s.blk.sv.inScan = false))
    ∧ (∃ (s : State) (t : Bool), (t = false ∨ s.blk.pw.st = PierState.dark ∨ s.blk.sv.inScan = true))
    ∧ (∃ (s : State), (s.blk.sv.inScan = true))
    ∧ (∃ (s : State) (i : BitVec 16), (s.blk.pw.st ≠ PierState.dark) ∧ (s.blk.pins.railsLow.contains Rail.io = false)) :=
  ⟨⟨open0, by decide +kernel⟩,
   ⟨open0, false, by decide +kernel⟩,
   ⟨(st { sv := { inScan := true } }), by decide +kernel⟩,
   ⟨(st { openB with pw.st := .frozen }), 0x101, by decide +kernel⟩⟩

theorem hypotheses_huntingLanes :
    (∃ (s : State) (l : LaneId), ((s.blk.lane ↑l).st = LaneState.hunt) ∧ ((s.blk.lane ↑l).answerer = none) ∧ ((s.blk.lane ↑l).talking = true) ∧ ((s.blk.lane ↑l).burstTicks ≤ s.blk.since (s.blk.lane ↑l).burstAt))
    ∧ (∃ (s : State) (l : LaneId), ((s.blk.lane ↑l).st = LaneState.hunt) ∧ ((s.blk.lane ↑l).answerer = none) ∧ ((s.blk.lane ↑l).talking = false) ∧ ((s.blk.lane ↑l).burstTicks ≤ s.blk.since (s.blk.lane ↑l).burstAt))
    ∧ (∃ (s : State) (l : LaneId), ((s.blk.lane ↑l).st = LaneState.lock) ∧ ((s.blk.lane ↑l).answering = true) ∧ ((s.blk.lane ↑l).burstTicks ≤ s.blk.since (s.blk.lane ↑l).burstAt))
    ∧ (∃ (s : State) (l : LaneId), (s.blk.since (s.blk.lane ↑l).burstAt < (s.blk.lane ↑l).burstTicks))
    ∧ (∃ (s : State) (l : LaneId) (k : Nat), ((s.blk.lane ↑l).st = LaneState.hunt) ∧ (100 * msTicks ≤ s.blk.since (s.blk.lane ↑l).since) ∧ ((s.blk.side (laneSide ↑l)).seg = SegState.training) ∧ ((s.blk.side (laneSide ↑l)).warmAll = false) ∧ (k ∈ s.blk.trainLanes (laneSide ↑l)) ∧ (k ≠ ↑l) ∧ ((s.blk.lane k).resolved = false) ∧ ((s.blk.side (laneSide ↑l)).waiter = none) ∧ (s.blk.pw.st = PierState.openS))
    ∧ (∃ (s : State) (l : LaneId) (g : Fin 4) (blocks : List LaneBlock), ((s.blk.lane ↑l).st = LaneState.hunt) ∧ ((s.blk.lane ↑l).talking = false) ∧ (g = (s.blk.side (laneSide ↑l)).grade) ∧ ((s.blk.lane ↑l).blockLock = false) ∧ (locksOn g blocks = true))
    ∧ (∃ (s : State) (l : LaneId) (g : Fin 4) (blocks : List LaneBlock) (p : Bool), ((s.blk.lane ↑l).st = LaneState.hunt) ∧ ((s.blk.lane ↑l).talking = false) ∧ (g = (s.blk.side (laneSide ↑l)).grade) ∧ ((s.blk.lane ↑l).blockLock = true) ∧ ((s.blk.lane ↑l).polKnown = false) ∧ (polarityOf g blocks = some p))
    ∧ (∃ (s : State) (l : LaneId) (g : Fin 4) (blocks : List LaneBlock), ((s.blk.lane ↑l).blockLock = false) ∧ (locksOn g blocks = false))
    ∧ (∃ (s : State) (l : LaneId) (hs : List (BitVec 2 × Bool)), ((s.blk.lane ↑l).st = LaneState.hunt ∨ (s.blk.lane ↑l).st = LaneState.train) ∧ (losesLock hs = true))
    ∧ (∃ (s : State) (l : LaneId) (hs : List (BitVec 2 × Bool)), ((s.blk.lane ↑l).st = LaneState.lock) ∧ (losesLock hs = true))
    ∧ (∃ (s : State) (l : LaneId) (hs : List (BitVec 2 × Bool)) (x : SideSt) (m : BitVec 16), ((s.blk.lane ↑l).inRun = true) ∧ (losesLock hs = true) ∧ (x = s.blk.side (laneSide ↑l)) ∧ (x.seg = SegState.run) ∧ (x.nextMask.getLsbD (laneIx ↑l) = true) ∧ (m = x.nextMask &&& ~~~BitVec.ofNat 16 (2 ^ laneIx ↑l)) ∧ (m ≠ 0))
    ∧ (∃ (s : State) (l : LaneId) (hs : List (BitVec 2 × Bool)), (losesLock hs = false))
    ∧ (∃ (s : State) (l : LaneId), ((s.blk.lane ↑l).st = LaneState.hunt) ∧ ((s.blk.lane ↑l).blockLock = true) ∧ ((s.blk.lane ↑l).polKnown = false) ∧ (s.blk.blocksPassed (s.blk.lane ↑l).grade (s.blk.lane ↑l).lockAt = true))
    ∧ (∃ (s : State) (l : LaneId), ((s.blk.lane ↑l).st = LaneState.hunt) ∧ ((s.blk.lane ↑l).answerer = some true) ∧ ((s.blk.lane ↑l).los = true) ∧ (usTicks ≤ s.blk.since (s.blk.lane ↑l).burstAt)) :=
  ⟨⟨(ln 20 { st := .hunt, talking := true }), 20, by decide +kernel⟩,
   ⟨(ln 20 { st := .hunt, listenUs := 16 }), 20, by decide +kernel⟩,
   ⟨(ln 20 { st := .lock, answering := true }), 20, by decide +kernel⟩,
   ⟨(ln 20 { st := .hunt, listenUs := 16, burstAt := 0xFFFFFF }), 20, by decide +kernel⟩,
   ⟨(st { openB with ck.tide := 0x10000000, west.seg := .training, lanes := [(3, { st := .hunt }), (4, { st := .hunt })] }), 3, 4, by decide +kernel⟩,
   ⟨(ln 20 { st := .hunt }), 20, 2, (List.replicate 64 { header := hdrControl, payload := ctlBytes ctlTrain 0xFF [] }), by decide +kernel⟩,
   ⟨(ln 20 { st := .hunt, blockLock := true }), 20, 2, (List.replicate 2 { header := hdrControl, payload := ctlBytes ctlTrain 0xFF [] }), false, by decide +kernel⟩,
   ⟨(ln 20 { st := .hunt }), 20, 2, (List.replicate 63 { header := hdrControl, payload := ctlBytes ctlTrain 0xFF [] }), by decide +kernel⟩,
   ⟨(ln 20 { st := .train, blockLock := true }), 20, (List.replicate 64 (0, false)), by decide +kernel⟩,
   ⟨(ln 20 { st := .lock, answerer := some true, blockLock := true }), 20, (List.replicate 64 (3, false)), by decide +kernel⟩,
   ⟨open0, 17, (List.replicate 16 (3, false) ++ List.replicate 48 (1, false)), openB.east, 0xFFFD, by decide +kernel⟩,
   ⟨open0, 17, (List.replicate 15 (3, false) ++ List.replicate 48 (1, false) ++ List.replicate 9 (0, true)), by decide +kernel⟩,
   ⟨(ln 20 { st := .hunt, blockLock := true }), 20, by decide +kernel⟩,
   ⟨(ln 20 { st := .hunt, answerer := some true, los := true }), 20, by decide +kernel⟩⟩

theorem hypotheses_rolesAndWindows :
    (∃ (s : State) (l : LaneId) (q : BitVec 8) (h : Hello), ((s.blk.lane ↑l).st = LaneState.hunt) ∧ ((s.blk.lane ↑l).talking = false) ∧ ((s.blk.lane ↑l).blockLock = true) ∧ ((s.blk.lane ↑l).polKnown = true) ∧ ((s.blk.lane ↑l).answerer = none) ∧ ((s.blk.lane ↑l).hellos = 1))
    ∧ (∃ (s : State) (l : LaneId) (q : BitVec 8) (h : Hello), ((s.blk.lane ↑l).st = LaneState.hunt) ∧ ((s.blk.lane ↑l).talking = false) ∧ ((s.blk.lane ↑l).blockLock = true) ∧ ((s.blk.lane ↑l).polKnown = true) ∧ ((s.blk.lane ↑l).answerer = none))
    ∧ (∃ (s : State) (l : LaneId) (mv : Nat), (mv < 40) ∧ ((s.blk.lane ↑l).st = LaneState.lock) ∧ ((s.blk.lane ↑l).answerer = some false) ∧ ((s.blk.lane ↑l).winOwn = false) ∧ ((s.blk.lane ↑l).winAt = none))
    ∧ (∃ (s : State) (l : LaneId) (q : BitVec 8) (g : Fin 4) (h : Hello), ((s.blk.lane ↑l).st = LaneState.lock) ∧ ((s.blk.lane ↑l).answerer = some true))
    ∧ (∃ (s : State) (l : LaneId) (ui : Nat) (sig : Nat) (e : BitVec 8), ((s.blk.lane ↑l).st = LaneState.lock) ∧ ((s.blk.lane ↑l).answerer = some false) ∧ ((s.blk.lane ↑l).winOwn = false) ∧ ((s.blk.lane ↑l).winPeer = false) ∧ (s.blk.windowOver (↑l) true ui = true))
    ∧ (∃ (s : State) (l : LaneId) (own : Bool) (ui : Nat) (sig : Nat) (e : BitVec 8), ((s.blk.lane ↑l).st = LaneState.lock) ∧ ((s.blk.lane ↑l).answerer = some false ∧ own = false ∧ (s.blk.lane ↑l).winOwn = true ∧ (s.blk.lane ↑l).winPeer = false ∨ (s.blk.lane ↑l).answerer = some true ∧ own = true ∧ (s.blk.lane ↑l).winPeer = true ∧ (s.blk.lane ↑l).winOwn = false) ∧ (s.blk.windowOver (↑l) own ui = true))
    ∧ (∃ (s : State) (l : LaneId) (ui : Nat) (sig : Nat) (e : BitVec 8), ((s.blk.lane ↑l).st = LaneState.lock) ∧ ((s.blk.lane ↑l).answerer = some true) ∧ ((s.blk.lane ↑l).winOwn = false) ∧ ((s.blk.lane ↑l).winPeer = false) ∧ ((s.blk.lane ↑l).los = true) ∧ (usTicks ≤ s.blk.since (s.blk.lane ↑l).losAt))
    ∧ (∃ (s : State) (l : LaneId), ((s.blk.lane ↑l).st = LaneState.lock) ∧ ((s.blk.lane ↑l).winPeer = false) ∧ (100 * usTicks ≤ s.blk.since (s.blk.lane ↑l).since))
    ∧ (∃ (s : State) (sd : Side) (q : BitVec 8) (u : BitVec 16) (x : SideSt), (x = s.blk.side sd) ∧ (x.seg = SegState.run) ∧ (x.winSeq ≠ some q) ∧ (x.mute = 0))
    ∧ (∃ (s : State) (sd : Side) (q : BitVec 8) (u : BitVec 16), ((s.blk.side sd).seg = SegState.run) ∧ ((s.blk.side sd).winSeq ≠ some q) ∧ ((s.blk.side sd).mute ≠ 0))
    ∧ (∃ (s : State) (sd : Side) (q : BitVec 8) (u : BitVec 16), ((s.blk.side sd).seg = SegState.run) ∧ ((s.blk.side sd).winSeq ≠ some q) ∧ ((s.blk.side sd).winAsked = true))
    ∧ (∃ (s : State) (sd : Side) (i : Fin 16) (q : BitVec 8) (u : BitVec 16), ((s.blk.lane (laneOf sd ↑i)).st = LaneState.lock))
    ∧ (∃ (s : State) (sd : Side) (w : WinSt), ((s.blk.side sd).win = some w) ∧ (2 * msTicks ≤ s.blk.since w.since) ∧ ((s.blk.side sd).winAsked = false) ∧ ((s.blk.side sd).muteAt = none) ∧ ((s.blk.side sd).winWant = false) ∧ (((lanesOf sd (s.blk.side sd).mask).any fun l ↦ (s.blk.lane l).calPending) = false))
    ∧ (∃ (s : State) (sd : Side) (t : Tide), ((s.blk.side sd).win = none) ∧ ((s.blk.side sd).winAsked = false) ∧ ((s.blk.side sd).winWant = false) ∧ ((s.blk.side sd).muteAt = some t) ∧ (0 < (s.blk.side sd).mute) ∧ (2 * msTicks ≤ s.blk.since t) ∧ ((s.blk.side sd).grantOwed = false) ∧ (((lanesOf sd (s.blk.side sd).mask).any fun l ↦ (s.blk.lane l).calPending) = false))
    ∧ (∃ (s : State) (sd : Side) (w : WinSt) (l : Nat), ((s.blk.side sd).win = some w) ∧ (2 * msTicks ≤ s.blk.since w.since) ∧ (l ∈ lanesOf sd (s.blk.side sd).mask) ∧ ((s.blk.lane l).calPending = true))
    ∧ (∃ (s : State) (l : LaneId) (e : BitVec 8), ((s.blk.lane ↑l).inRun = true ∨ (s.blk.lane ↑l).st = LaneState.train) ∧ (erleLimit (s.blk.lane ↑l).grade ≤ e.toNat))
    ∧ (∃ (s : State) (l : LaneId) (e : BitVec 8), ((s.blk.lane ↑l).inRun = true ∨ (s.blk.lane ↑l).st = LaneState.train) ∧ (e.toNat < erleLimit (s.blk.lane ↑l).grade)) :=
  ⟨⟨(ln 20 { st := .hunt, blockLock := true, polKnown := true, hellos := 1 }), 20, 7, { lane := 3 }, by decide +kernel⟩,
   ⟨(ln 20 { st := .hunt, blockLock := true, polKnown := true }), 20, 7, { lane := 3 }, by decide +kernel⟩,
   ⟨(ln 20 { st := .lock, answerer := some false }), 20, 39, by decide +kernel⟩,
   ⟨(ln 20 { st := .lock, answerer := some true }), 20, 7, 2, { lane := 3 }, by decide +kernel⟩,
   ⟨(ln 20 { st := .lock, answerer := some false, winAt := some 0 }), 20, 65536, 1024, 9, by decide +kernel⟩,
   ⟨(ln 20 { st := .lock, answerer := some false, winOwn := true, los := true }), 20, false, 65536, 0, 9, by decide +kernel⟩,
   ⟨(ln 20 { st := .lock, answerer := some true, answering := true, los := true }), 20, 65536, 0, 9, by decide +kernel⟩,
   ⟨(ln 20 { st := .lock }), 20, by decide +kernel⟩,
   ⟨open0, .west, 3, 5, openB.west, by decide +kernel⟩,
   ⟨(st { openB with west.mute := 4 }), .west, 3, 5, by decide +kernel⟩,
   ⟨(st { openB with west.winAsked := true }), .west, 3, 5, by decide +kernel⟩,
   ⟨(ln 20 { st := .lock }), .east, 4, 3, 64, by decide +kernel⟩,
   ⟨(st { openB with west.win := some { own := true, slots := 9, discarded := 8 } }), .west, { own := true, slots := 9, discarded := 8 }, by decide +kernel⟩,
   ⟨(st { openB with west.mute := 4, west.muteAt := some 0 }), .west, 0, by decide +kernel⟩,
   ⟨(st { (openB.modLane 3 fun x => { x with calPending := true }) with west.win := some { own := true } }), .west, { own := true }, 3, by decide +kernel⟩,
   ⟨open0, 31, 66, by decide +kernel⟩,
   ⟨open0, 31, 65, by decide +kernel⟩⟩

theorem hypotheses_tapRequestsAndVerdicts :
    (∃ (s : State) (l : LaneId) (q : BitVec 8) (tap : BitVec 8) (act : BitVec 8) (t : Taps), ((s.blk.lane ↑l).st = LaneState.train) ∧ (∀ (a : TapAns), (s.blk.lane ↑l).tapAns = some a → a.seq ≠ q) ∧ (s.blk.olderThan usTicks (s.blk.lane ↑l).tapAt = true) ∧ (tapAsked (s.blk.lane ↑l).taps tap.toNat act.toNat = some t))
    ∧ (∃ (s : State) (l : LaneId) (q : BitVec 8) (tap : BitVec 8) (act : BitVec 8), ((s.blk.lane ↑l).st = LaneState.train) ∧ (∀ (a : TapAns), (s.blk.lane ↑l).tapAns = some a → a.seq ≠ q) ∧ (s.blk.olderThan usTicks (s.blk.lane ↑l).tapAt = true) ∧ (tapAsked (s.blk.lane ↑l).taps tap.toNat act.toNat = none))
    ∧ (∃ (s : State) (l : LaneId) (tap : BitVec 8) (act : BitVec 8) (a : TapAns), ((s.blk.lane ↑l).st = LaneState.train) ∧ ((s.blk.lane ↑l).tapAns = some a))
    ∧ (∃ (s : State) (l : LaneId) (t : TapOut) (c : Search), ((s.blk.lane ↑l).st = LaneState.train) ∧ ((s.blk.lane ↑l).tapOut = some t) ∧ ((s.blk.lane ↑l).search = some c) ∧ (c.undo = false))
    ∧ (∃ (s : State) (l : LaneId) (t : TapOut) (c : Search) (st : BitVec 8), ((s.blk.lane ↑l).st = LaneState.train) ∧ ((s.blk.lane ↑l).tapOut = some t) ∧ ((s.blk.lane ↑l).search = some c) ∧ (c.undo = false) ∧ (c.started = true) ∧ (c.up = true) ∧ (st ≠ 0))
    ∧ (∃ (s : State) (l : LaneId) (c : Search) (fom : Nat) (ctle : BitVec 4) (ffe : List (BitVec 8)) (dfe : BitVec 7), ((s.blk.lane ↑l).st = LaneState.train) ∧ ((s.blk.lane ↑l).tapOut = none) ∧ ((s.blk.lane ↑l).search = some c) ∧ (c.started = false))
    ∧ (∃ (s : State) (l : LaneId) (t : TapOut), ((s.blk.lane ↑l).st = LaneState.train) ∧ ((s.blk.lane ↑l).tapOut = some t) ∧ (t.repeats < 4) ∧ (20 * usTicks ≤ s.blk.since (s.blk.lane ↑l).reqAt))
    ∧ (∃ (s : State) (l : LaneId) (t : TapOut), ((s.blk.lane ↑l).st = LaneState.train) ∧ ((s.blk.lane ↑l).tapOut = some t) ∧ (4 ≤ t.repeats) ∧ (20 * usTicks ≤ s.blk.since (s.blk.lane ↑l).reqAt) ∧ ((s.blk.lane ↑l).donePeer = none) ∧ ((s.blk.side (laneSide ↑l)).waiter = none) ∧ (s.blk.pw.st = PierState.openS))
    ∧ (∃ (s : State) (l : LaneId) (q : BitVec 8) (p : Bool) (f : BitVec 8), ((s.blk.lane ↑l).st = LaneState.train) ∧ ((s.blk.lane ↑l).doneOwn = none) ∧ ((s.blk.lane ↑l).rxSeq ≠ some q) ∧ ((s.blk.side (laneSide ↑l)).waiter = none) ∧ (s.blk.pw.st = PierState.openS))
    ∧ (∃ (s : State) (l : LaneId) (q : BitVec 8) (p : Bool) (f : BitVec 8), ((s.blk.lane ↑l).st ≠ LaneState.train ∨ (s.blk.lane ↑l).rxSeq = some q))
    ∧ (∃ (s : State) (l : LaneId) (k : Nat), ((s.blk.lane ↑l).st = LaneState.train) ∧ ((s.blk.lane ↑l).donePeer = none) ∧ (5 * msTicks ≤ s.blk.since (s.blk.lane ↑l).since) ∧ ((s.blk.side (laneSide ↑l)).warmAll = false) ∧ ((s.blk.side (laneSide ↑l)).seg = SegState.training) ∧ (k ∈ s.blk.trainLanes (laneSide ↑l)) ∧ (k ≠ ↑l) ∧ ((s.blk.lane k).resolved = false) ∧ ((s.blk.side (laneSide ↑l)).waiter = none) ∧ (s.blk.pw.st = PierState.openS) ∧ ((s.blk.side (laneSide ↑l)).moveOut = none)) :=
  ⟨⟨(ln 20 { st := .train, tapAns := some ⟨3, 0, 9⟩ }), 20, 4, 2, 1, ⟨0, 0, 1, 0⟩, by decide +kernel⟩,
   ⟨(ln 20 { st := .train }), 20, 4, 9, 1, by decide +kernel⟩,
   ⟨(ln 20 { st := .train, tapAns := some ⟨3, 0, 9⟩ }), 20, 1, 1, ⟨3, 0, 9⟩, by decide +kernel⟩,
   ⟨(ln 20 { st := .train, tapOut := some ⟨3, 4, 3, 0⟩, search := some {} }), 20, ⟨3, 4, 3, 0⟩, {}, by decide +kernel⟩,
   ⟨(ln 20 { st := .train, tapOut := some ⟨3, 2, 1, 0⟩, search := some { started := true, best := 1700 } }), 20, ⟨3, 2, 1, 0⟩, { started := true, best := 1700 }, 1, by decide +kernel⟩,
   ⟨(ln 20 { st := .train, search := some {} }), 20, {}, 1600, 3, [1], 5, by decide +kernel⟩,
   ⟨(ln 20 { st := .train, tapOut := some ⟨3, 4, 3, 3⟩, search := some {} }), 20, ⟨3, 4, 3, 3⟩, by decide +kernel⟩,
   ⟨(ln 20 { st := .train, tapOut := some ⟨3, 4, 3, 4⟩, search := some {} }), 20, ⟨3, 4, 3, 4⟩, by decide +kernel⟩,
   ⟨(ln 20 { st := .train }), 20, 4, true, 80, by decide +kernel⟩,
   ⟨(ln 20 { st := .train, rxSeq := some 4 }), 20, 4, true, 80, by decide +kernel⟩,
   ⟨(st { openB with west.seg := .training, lanes := [(3, { st := .train }), (4, { st := .hunt })] }), 3, 4, by decide +kernel⟩⟩

theorem hypotheses_agreementMessages :
    (∃ (s : State) (sd : Side) (q : BitVec 8) (c : Cap), ((s.blk.side sd).agrees = true) ∧ ((s.blk.side sd).capSeq ≠ some q) ∧ ((s.blk.side (otherSide sd)).seg = SegState.down) ∧ (c.hops < 8))
    ∧ (∃ (s : State) (sd : Side) (q : BitVec 8) (c : Cap), ((s.blk.side sd).agrees = true) ∧ ((s.blk.side sd).capSeq ≠ some q) ∧ ((s.blk.side (otherSide sd)).agrees = true))
    ∧ (∃ (s : State) (sd : Side) (q : BitVec 8) (c : Cap), ((s.blk.side sd).capSeq = some q))
    ∧ (∃ (s : State) (sd : Side) (q : BitVec 8) (c : Commit) (i : Nat), ((s.blk.side sd).agrees = true) ∧ ((s.blk.side sd).commitSeq ≠ some q) ∧ ((s.blk.side sd).myIx = some i) ∧ ((s.blk.side (otherSide sd)).seg = SegState.down) ∧ (0 < c.blink) ∧ ((s.blk.side (otherSide sd)).commit = none))
    ∧ (∃ (s : State) (sd : Side) (own : Bool) (skew : List (Fin 16 × Nat)), ((s.blk.side sd).seg = SegState.starting) ∧ ((s.blk.side sd).rxOn = false) ∧ ((s.blk.side sd).txOn = false) ∧ (own = true → s.blk.startOver sd = true))
    ∧ (∃ (s : State) (sd : Side) (own : Bool) (skew : List (Fin 16 × Nat)), ((s.blk.side sd).seg = SegState.starting) ∧ ((s.blk.side sd).mask ≠ 0) ∧ (s.blk.pw.st = PierState.openS) ∧ (∀ (l : Nat), l ∈ sideLanes sd → (s.blk.side sd).mask.getLsbD (laneIx l) = true → (s.blk.lane l).st = LaneState.train) ∧ (own = true → (s.blk.side sd).txOn = false ∧ (s.blk.side sd).rxOn = true ∧ (s.blk.side sd).unaligned = 0 ∧ s.blk.startOver sd = true) ∧ (own = false → (s.blk.side sd).rxOn = false ∧ (s.blk.side sd).txOn = true ∧ ∀ (e : Fin 16 × Nat), e ∈ skew → e.snd ≤ 80))
    ∧ (∃ (s : State) (sd : Side) (own : Bool) (skew : List (Fin 16 × Nat)), ((s.blk.side sd).seg ≠ SegState.starting ∨ own = true ∧ s.blk.startOver sd = false))
    ∧ (∃ (s : State) (sd : Side) (q : BitVec 8) (g : Fin 4), ((s.blk.side sd).seg ≠ SegState.down) ∧ ((s.blk.side sd).moveSeq ≠ some q) ∧ (s.blk.trainLanes sd ≠ []))
    ∧ (∃ (s : State) (sd : Side) (q : BitVec 8) (mask : BitVec 16) (n : BitVec 8) (x : SideSt) (m : BitVec 16), (x = s.blk.side sd) ∧ (x.seg = SegState.run) ∧ (x.reformSeq ≠ some q) ∧ (m = s.blk.ownMask sd mask) ∧ (m ≠ 0) ∧ (x.reform ≠ some m) ∧ (x.blink ≤ (lanesOf sd m).length * x.useg))
    ∧ (∃ (s : State) (sd : Side) (q : BitVec 8) (mask : BitVec 16) (n : BitVec 8) (x : SideSt) (m : BitVec 16), (x = s.blk.side sd) ∧ (x.seg = SegState.run) ∧ (x.reformSeq ≠ some q) ∧ (m = s.blk.ownMask sd mask) ∧ (m ≠ 0) ∧ (x.reform ≠ some m) ∧ ((lanesOf sd m).length * x.useg < x.blink))
    ∧ (∃ (s : State) (sd : Side) (m : BitVec 16) (own : Bool), ((s.blk.side sd).seg = SegState.run) ∧ ((s.blk.side sd).reform = some m) ∧ ((s.blk.side sd).reformRx = false) ∧ ((s.blk.side sd).reformTx = false) ∧ (own = true → (s.blk.side sd).reformOver = true))
    ∧ (∃ (s : State) (sd : Side) (m : BitVec 16) (own : Bool), ((s.blk.side sd).seg = SegState.run) ∧ ((s.blk.side sd).reform = some m) ∧ (s.blk.pw.st = PierState.openS) ∧ (if own = true then (s.blk.side sd).reformRx = true ∧ (s.blk.side sd).reformTx = false ∧ (s.blk.side sd).reformOver = true else (s.blk.side sd).reformTx = true) ∧ (∀ (l : Nat), l ∈ sideLanes sd → (s.blk.lane l).inRun = m.getLsbD (laneIx l)) ∧ (m ≠ 0)) :=
  ⟨⟨(st { openB with west := {} }), .east, 3, acap, by decide +kernel⟩,
   ⟨open0, .east, 3, acap, by decide +kernel⟩,
   ⟨(st { openB with west.capSeq := some 3 }), .west, 3, acap, by decide +kernel⟩,
   ⟨(st { openB with west := {}, east.myIx := some 0 }), .east, 3, acom, 0, by decide +kernel⟩,
   ⟨(st { openB with east.seg := .starting, east.mask := 0xFF, lanes := allOf 32 { st := .train } }), .east, true, [], by decide +kernel⟩,
   ⟨(st { openB with east.seg := .starting, east.mask := 0xFF, east.txOn := true, lanes := allOf 32 { st := .train } }), .east, false, [(3, 80)], by decide +kernel⟩,
   ⟨open0, .east, true, [], by decide +kernel⟩,
   ⟨open0, .east, 3, 1, by decide +kernel⟩,
   ⟨(st { openB with east.blink := 32 }), .east, 3, 0xFF, 5, { openB.east with blink := 32 }, 0xFF, by decide +kernel⟩,
   ⟨open0, .east, 3, 0xFF, 5, openB.east, 0xFF, by decide +kernel⟩,
   ⟨(st { openB with west.reform := some 0xFFFF, west.reformAt := some 3, west.txRow := 19 }), .west, 0xFFFF, true, by decide +kernel⟩,
   ⟨(st { openB with west.reform := some 0xFFFF, west.reformRx := true, west.reformAt := some 0, west.txRow := 16 }), .west, 0xFFFF, true, by decide +kernel⟩⟩

theorem hypotheses_patternsAndAlarms :
    (∃ (s : State) (l : LaneId) (q : BitVec 8) (p : BitVec 8) (n : BitVec 16), ((s.blk.lane ↑l).st = LaneState.train) ∧ (p.toNat < 3) ∧ ((s.blk.lane ↑l).rxSeq ≠ some q))
    ∧ (∃ (s : State) (l : LaneId) (p : BitVec 2) (n : BitVec 48) (e : BitVec 48), ((s.blk.lane ↑l).st = LaneState.train) ∧ ((s.blk.lane ↑l).prbsRun = some p) ∧ (s.blk.prbsOver ↑l = true) ∧ ((s.blk.lane ↑l).passed = false) ∧ ((s.blk.lane ↑l).prbsSync = false) ∧ ((s.blk.lane ↑l).prbsOwner = none))
    ∧ (∃ (s : State) (l : LaneId) (c : Bool) (k : PrbsChk), (s.blk.checking ↑l = true) ∧ ((s.blk.lane ↑l).prbsSync = false) ∧ (k = PrbsChk.hunt (s.blk.checkPat ↑l) (s.blk.lane ↑l).chk c))
    ∧ (∃ (s : State) (l : LaneId) (c : Bool) (k : PrbsChk), (s.blk.checking ↑l = true) ∧ ((s.blk.lane ↑l).prbsSync = true) ∧ ((s.blk.lane ↑l).prbsSat = false) ∧ (s.blk.count (lnOff Off.lnPrbsBitsLo ↑l) + 1 < 2 ^ 48 - 1) ∧ (s.blk.count (lnOff Off.lnPrbsErrLo ↑l) + 1 < 2 ^ 48 - 1) ∧ (k = PrbsChk.compare (s.blk.checkPat ↑l) (s.blk.lane ↑l).chk c))
    ∧ (∃ (s : State) (l : LaneId) (rx : List Bool), (s.blk.checking ↑l = false))
    ∧ (∃ (s : State) (l : LaneId) (n : BitVec 48) (e : BitVec 48), ((s.blk.lane ↑l).prbsSync = true) ∧ ((s.blk.lane ↑l).prbsSat = false))
    ∧ (∃ (s : State) (l : LaneId) (n : BitVec 48) (e : BitVec 48), ((s.blk.lane ↑l).prbsSync = false ∨ (s.blk.lane ↑l).prbsSat = true))
    ∧ (∃ (s : State) (l : LaneId) (mv : Nat), ((s.blk.lane ↑l).st = LaneState.hunt) ∧ ((s.blk.lane ↑l).answerer = none) ∧ (mv < 40))
    ∧ (∃ (s : State) (l : LaneId) (mv : Nat), ((s.blk.lane ↑l).st = LaneState.off ∨ (s.blk.lane ↑l).st = LaneState.quiet ∨ (s.blk.lane ↑l).st = LaneState.failed) ∧ (mv < 40))
    ∧ (∃ (s : State) (l : LaneId) (mv : Nat) (x : SideSt) (m : BitVec 16), ((s.blk.lane ↑l).inRun = true) ∧ (mv < 40) ∧ (x = s.blk.side (laneSide ↑l)) ∧ (x.seg = SegState.run) ∧ (x.win = none) ∧ (x.nextMask.getLsbD (laneIx ↑l) = true) ∧ (m = x.nextMask &&& ~~~BitVec.ofNat 16 (2 ^ laneIx ↑l)) ∧ (m ≠ 0))
    ∧ (∃ (s : State) (l : LaneId) (mv : Nat), (80 < mv))
    ∧ (∃ (s : State) (l : LaneId) (mv : Nat), (40 ≤ mv) ∧ (mv ≤ 80))
    ∧ (∃ (s : State) (l : LaneId) (e : Nat) (ppm : Int), ((s.blk.lane ↑l).st = LaneState.hunt) ∧ (lolCondition e ppm = true))
    ∧ (∃ (s : State) (l : LaneId) (e : Nat) (ppm : Int), (lolCondition e ppm = false))
    ∧ (∃ (s : State) (l : LaneId) (c : Nat) (n : Nat) (u : Nat), ((s.blk.lane ↑l).st = LaneState.run) ∧ (berHigh (s.blk.lane ↑l).grade c n = true ∨ 2 ≤ u ∨ s.blk.regBit (lnOff Off.lnAlarm ↑l) 2 = true))
    ∧ (∃ (s : State) (l : LaneId) (c : Nat) (n : Nat) (u : Nat), (berHigh (s.blk.lane ↑l).grade c n = false) ∧ (u < 2) ∧ (s.blk.regBit (lnOff Off.lnAlarm ↑l) 2 = false))
    ∧ (∃ (s : State) (l : LaneId) (t : Tide), ((s.blk.lane ↑l).st = LaneState.degraded) ∧ ((s.blk.lane ↑l).winSince = some t) ∧ (msTicks ≤ s.blk.since t))
    ∧ (∃ (s : State) (l : LaneId) (x : SideSt) (m : BitVec 16), ((s.blk.lane ↑l).st = LaneState.degraded) ∧ (s.blk.olderThan (10 * msTicks) (s.blk.lane ↑l).degradedAt = true) ∧ (x = s.blk.side (laneSide ↑l)) ∧ (x.seg = SegState.run) ∧ (x.nextMask.getLsbD (laneIx ↑l) = true) ∧ (m = x.nextMask &&& ~~~BitVec.ofNat 16 (2 ^ laneIx ↑l)) ∧ (m ≠ 0)) :=
  ⟨⟨(ln 20 { st := .train }), 20, 3, 2, 50, by decide +kernel⟩,
   ⟨(ln 20 { st := .train, prbsRun := some 1, prbsAt := some 0, prbsMs := 3 }), 20, 1, 7, 8, by decide +kernel⟩,
   ⟨(ln 20 { st := .train, prbsRun := some 1, chk := { seeded := 40, run := 1023 } }), 20, false, (PrbsChk.hunt 1 { seeded := 40, run := 1023 } false), by decide +kernel⟩,
   ⟨(ln 20 { st := .train, prbsRun := some 1, prbsSync := true, chk := { seeded := 40, run := 1023, n := 300, errs := (List.range 255) } }), 20, true, (PrbsChk.compare 1 { seeded := 40, run := 1023, n := 300, errs := (List.range 255) } true), by decide +kernel⟩,
   ⟨open0, 20, [true, false], by decide +kernel⟩,
   ⟨(ln 20 { prbsSync := true }), 20, 9, 7, by decide +kernel⟩,
   ⟨open0, 20, 9, 7, by decide +kernel⟩,
   ⟨(ln 20 { st := .hunt }), 20, 39, by decide +kernel⟩,
   ⟨(ln 20 { st := .quiet }), 20, 39, by decide +kernel⟩,
   ⟨open0, 17, 39, openB.east, 0xFFFD, by decide +kernel⟩,
   ⟨(ln 20 { st := .hunt, los := true }), 20, 81, by decide +kernel⟩,
   ⟨(ln 20 { st := .hunt, los := true }), 20, 80, by decide +kernel⟩,
   ⟨(ln 20 { st := .hunt }), 20, 26, 0, by decide +kernel⟩,
   ⟨(ln 20 { st := .hunt, lol := true }), 20, 25, 6000, by decide +kernel⟩,
   ⟨open0, 20, 0, 1, 2, by decide +kernel⟩,
   ⟨open0, 20, 0, 1, 1, by decide +kernel⟩,
   ⟨(ln 20 { st := .degraded, winSince := some 0 }), 20, 0, by decide +kernel⟩,
   ⟨(ln 20 { st := .degraded, degradedAt := some 0x10 }), 20, openB.east, 0xFFEF, by decide +kernel⟩⟩

theorem hypotheses_controlRows :
    (∃ (s : State) (sd : Side) (rows : Nat) (blks : List (Fin 16 × List Byte)) (slot : List SlotObs) (between : List Flit) (x : SideSt), (x = s.blk.side sd) ∧ (x.seg = SegState.run) ∧ (s.blk.mutedSlot sd slot = false) ∧ (∀ (e : Fin 16 × List Byte), e ∈ blks → parseCtl e.snd = none))
    ∧ (∃ (s : State) (sd : Side) (rows : Nat) (ls : List (Fin 16)) (ph : BitVec 8) (row : BitVec 16) (sp : Byte) (hold : Bool) (slot : List SlotObs) (between : List Flit) (x : SideSt) (own : Nat), (x = s.blk.side sd) ∧ (x.seg = SegState.run) ∧ (s.blk.mutedSlot sd slot = false) ∧ (ls ≠ []) ∧ (∀ (i : Fin 16), i ∈ ls → x.mask.getLsbD ↑i = true) ∧ (row = x.row + BitVec.ofNat 16 rows) ∧ (own = (x.rxPhase + rows * (lanesOf sd x.mask).length) % 9) ∧ (ph.toNat = own ∨ x.phaseBad = 0))
    ∧ (∃ (s : State) (sd : Side) (rows : Nat) (i : Fin 16) (ph : BitVec 8) (row : BitVec 16) (sp : Byte) (hold : Bool) (slot : List SlotObs) (between : List Flit) (x : SideSt) (m : BitVec 16), (x = s.blk.side sd) ∧ (x.seg = SegState.run) ∧ (s.blk.mutedSlot sd slot = false) ∧ (x.mask.getLsbD ↑i = true) ∧ (row ≠ x.row + BitVec.ofNat 16 rows) ∧ ((s.blk.lane (laneOf sd ↑i)).inRun = true) ∧ (ph.toNat = (x.rxPhase + rows * (lanesOf sd x.mask).length) % 9) ∧ (x.nextMask.getLsbD ↑i = true) ∧ (m = x.nextMask &&& ~~~BitVec.ofNat 16 (2 ^ i.val)) ∧ (m ≠ 0))
    ∧ (∃ (s : State) (sd : Side) (rows : Nat) (blks : List (Fin 16 × List Byte)) (slot : List SlotObs) (between : List Flit) (w : WinSt), ((s.blk.side sd).seg = SegState.run) ∧ (s.blk.mutedSlot sd slot = true) ∧ ((s.blk.side sd).win = some w) ∧ (w.slots + 1 < windowSlots (s.blk.side sd).grade))
    ∧ (∃ (s : State) (sd : Side) (rows : Nat) (blks : List (Fin 16 × List Byte)) (slot : List SlotObs) (between : List Flit) (w : WinSt), ((s.blk.side sd).seg = SegState.run) ∧ (s.blk.mutedSlot sd slot = true) ∧ ((s.blk.side sd).win = some w) ∧ (windowSlots (s.blk.side sd).grade ≤ w.slots + 1))
    ∧ (∃ (s : State) (sd : Side) (rows : Nat) (blks : List (Fin 16 × List Byte)) (slot : List SlotObs) (between : List Flit), ((s.blk.side sd).seg ≠ SegState.run)) :=
  ⟨⟨open0, .east, 3, [(2, [1])], [], [], openB.east, by decide +kernel⟩,
   ⟨open0, .east, 3, [2, 5], 3, 3, 6, true, [], [], openB.east, 3, by decide +kernel⟩,
   ⟨open0, .east, 3, 2, 3, 5, 6, true, [], [], openB.east, 0xFFFB, by decide +kernel⟩,
   ⟨(st { openB with east.win := some { own := true, slots := 94 } }), .east, 0, [], (List.replicate 16 { peak := 50, signalUi := 64, erle := 80 }), [], { own := true, slots := 94 }, by decide +kernel⟩,
   ⟨(st { openB with east.win := some { own := true, slots := 95 } }), .east, 0, [], (List.replicate 16 { peak := 50, signalUi := 64, erle := 80 }), [], { own := true, slots := 95 }, by decide +kernel⟩,
   ⟨(st { openB with east := {} }), .east, 3, [], [], [], by decide +kernel⟩⟩

theorem hypotheses_flitsArrive :
    (∃ (s : State) (sd : Side) (f : Flit) (gone : List (Fin 9)) (pe : Bool) (cws : List Codeword) (cy : Nat), (s.blk.carries = true) ∧ ((s.blk.side sd).receives = true) ∧ (s.blk.directionUp sd = true) ∧ (s.blk.outOfRun (otherSide sd) = false) ∧ ((s.blk.fw sd).buf.length < 4) ∧ (arrivalClass f gone pe cws = FlitClass.good) ∧ (f.kind ≠ 0) ∧ (s.blk.addressed f = false))
    ∧ (∃ (s : State) (sd : Side) (f : Flit) (gone : List (Fin 9)) (pe : Bool) (cws : List Codeword) (cy : Nat), (s.blk.carries = true) ∧ ((s.blk.side sd).receives = true) ∧ (s.blk.directionUp sd = true) ∧ (s.blk.outOfRun (otherSide sd) = false) ∧ ((s.blk.fw sd).buf.length < 4) ∧ (arrivalClass f gone pe cws = FlitClass.stomped))
    ∧ (∃ (s : State) (sd : Side) (f : Flit) (gone : List (Fin 9)) (pe : Bool) (cws : List Codeword) (cy : Nat), (s.blk.carries = true) ∧ ((s.blk.side sd).receives = true) ∧ (s.blk.directionUp sd = true) ∧ (s.blk.outOfRun (otherSide sd) = false) ∧ ((s.blk.fw sd).buf.length < 4) ∧ (arrivalClass f gone pe cws = FlitClass.bad ∨ arrivalClass f gone pe cws = FlitClass.badInside))
    ∧ (∃ (s : State) (sd : Side) (f : Flit) (gone : List (Fin 9)) (pe : Bool) (cws : List Codeword) (cy : Nat), (s.blk.carries = true) ∧ ((s.blk.side sd).receives = true) ∧ (s.blk.directionUp sd = true) ∧ (s.blk.outOfRun (otherSide sd) = false) ∧ (4 ≤ (s.blk.fw sd).buf.length) ∧ (arrivalClass f gone pe cws = FlitClass.good) ∧ (f.kind ≠ 0) ∧ (s.blk.addressed f = false))
    ∧ (∃ (s : State) (sd : Side) (f : Flit) (gone : List (Fin 9)) (pe : Bool) (cws : List Codeword) (cy : Nat), (s.blk.carries = true) ∧ ((s.blk.side sd).receives = true) ∧ (s.blk.directionUp sd = true) ∧ (arrivalClass f gone pe cws = FlitClass.good) ∧ (f.kind = 1) ∧ (knownOpcode f.opcode.toNat = true) ∧ (s.blk.qy.idValid = true) ∧ (f.dest = s.blk.qy.pierId) ∧ (s.blk.qyUp = true) ∧ (s.blk.creditUnits sd ≠ 0) ∧ (s.blk.shareUnits (otherSide sd) ≠ 0))
    ∧ (∃ (s : State) (sd : Side) (f : Flit) (gone : List (Fin 9)) (pe : Bool) (cws : List Codeword) (cy : Nat), ((s.blk.side sd).receives = false)) :=
  ⟨⟨quay0, .west, (sealFlit rdFlit0), [], false, [], 3, by refine ⟨?_, ?_, ?_, ?_, ?_, ?_, ?_, ?_⟩ <;> first | exact arrivalClass_sealFlit _ | decide +kernel⟩,
   ⟨quay0, .west, (stomp rdFlit0), [], false, [], 3, by refine ⟨?_, ?_, ?_, ?_, ?_, ?_⟩ <;> first | exact arrivalClass_stomp _ | decide +kernel⟩,
   ⟨quay0, .west, rdFlit0, [2], false, [], 3, by decide +kernel⟩,
   ⟨(st { quayB with fwWE.buf := List.replicate 4 rdFlit0 }), .west, (sealFlit rdFlit0), [], false, [], 3, by refine ⟨?_, ?_, ?_, ?_, ?_, ?_, ?_, ?_⟩ <;> first | exact arrivalClass_sealFlit _ | decide +kernel⟩,
   ⟨quay0, .east, (sealFlit rdFlit), [], false, [], 3, by refine ⟨?_, ?_, ?_, ?_, ?_, ?_, ?_, ?_, ?_, ?_, ?_⟩ <;> first | exact arrivalClass_sealFlit _ | decide +kernel⟩,
   ⟨reset1, .east, (sealFlit rdFlit), [], false, [], 3, by decide +kernel⟩⟩

theorem hypotheses_flitsLeave :
    (∃ (s : State) (sd : Side) (m : BitVec 8 × SegMsg) (q : List (BitVec 8 × SegMsg)), (s.blk.carries = true) ∧ ((s.blk.side sd).sends = true) ∧ (s.blk.directionUp (otherSide sd) = true) ∧ (((s.blk.tryAsk sd).side sd).ctl = m :: q) ∧ ((s.blk.side sd).txPos = 0) ∧ ((s.blk.side sd).moveOut = none))
    ∧ (∃ (s : State) (sd : Side) (q : BitVec 8) (g : Fin 4), (s.blk.carries = true) ∧ ((s.blk.side sd).sends = true) ∧ (s.blk.directionUp (otherSide sd) = true) ∧ ((s.blk.side sd).ctl = [(q, SegMsg.move g)]) ∧ ((s.blk.side sd).winWant = false) ∧ ((s.blk.side sd).txPos = 0) ∧ ((s.blk.side sd).moveOut = some g) ∧ (s.blk.trainLanes sd ≠ []))
    ∧ (∃ (s : State) (sd : Side) (f : Flit) (rest : List Flit), (s.blk.carries = true) ∧ ((s.blk.side sd).sends = true) ∧ (s.blk.directionUp (otherSide sd) = true) ∧ (((s.blk.tryAsk sd).side sd).ctl = []) ∧ ((s.blk.fw (otherSide sd)).buf = f :: rest))
    ∧ (∃ (s : State) (sd : Side), (s.blk.carries = true) ∧ ((s.blk.side sd).sends = true) ∧ (s.blk.directionUp (otherSide sd) = true) ∧ (((s.blk.tryAsk sd).side sd).ctl = []) ∧ ((s.blk.fw (otherSide sd)).buf = []) ∧ ((s.blk.side sd).cadence ≤ (s.blk.side sd).txSince) ∧ ((s.blk.side sd).txPos = 0) ∧ ((s.blk.side sd).mute = 0))
    ∧ (∃ (s : State) (sd : Side) (n : Nat), (s.blk.carries = true) ∧ ((s.blk.side sd).sends = true) ∧ (s.blk.directionUp (otherSide sd) = true) ∧ (((s.blk.tryAsk sd).side sd).ctl = []) ∧ ((s.blk.fw (otherSide sd)).buf = []) ∧ ((s.blk.side sd).cadence ≤ (s.blk.side sd).txSince) ∧ ((s.blk.side sd).txPos = 0) ∧ ((s.blk.side sd).mute = n + 1))
    ∧ (∃ (s : State) (sd : Side), (s.blk.carries = true) ∧ ((s.blk.side sd).sends = true) ∧ (s.blk.directionUp (otherSide sd) = true) ∧ (((s.blk.tryAsk sd).side sd).ctl = []) ∧ ((s.blk.fw (otherSide sd)).buf = []) ∧ ((s.blk.side sd).txSince < (s.blk.side sd).cadence ∨ (s.blk.side sd).txPos ≠ 0) ∧ (s.blk.qy.ins = []) ∧ ((s.blk.fw (otherSide sd)).standin = []))
    ∧ (∃ (s : State) (sd : Side), ((s.blk.side sd).sends = false)) :=
  ⟨⟨(st { quayB with west.ctl := [(3, .move 1)] }), .west, (3, .move 1), [], by decide +kernel⟩,
   ⟨(st { quayB with west.ctl := [(3, .move 1)], west.moveOut := some 1 }), .west, 3, 1, by decide +kernel⟩,
   ⟨(st { quayB with fwEW.buf := [rdFlit0] }), .west, rdFlit0, [], by decide +kernel⟩,
   ⟨(st { quayB with west.txSince := 1024 }), .west, by decide +kernel⟩,
   ⟨(st { quayB with east.mute := 3, east.txSince := 1024 }), .east, 2, by decide +kernel⟩,
   ⟨quay0, .east, by decide +kernel⟩,
   ⟨reset1, .east, by decide +kernel⟩⟩

theorem hypotheses_creditsAndRemoteWrites :
    (∃ (s : State) (sd : Side) (f : Flit), (s.blk.qyUp = true) ∧ (creditWellFormed f = true) ∧ ((s.blk.side sd).seg = SegState.run) ∧ ((s.blk.side sd).balSet = true))
    ∧ (∃ (s : State) (sd : Side) (f : Flit), (s.blk.qyUp = true) ∧ (creditWellFormed f = false))
    ∧ (∃ (s : State) (sd : Side) (f : Flit) (w : RemWrite), (s.blk.qyUp = true) ∧ (malformedPoison f = false) ∧ (s.blk.remFor f = some w))
    ∧ (∃ (s : State) (sd : Side) (f : Flit) (w : RemWrite) (c : CopyOut), (s.blk.qyUp = true) ∧ (malformedPoison f = false) ∧ (s.blk.remFor f = some w) ∧ (w.dump = false) ∧ (f.status = 0) ∧ (List.find? (fun x ↦ x.req == w.req && !w.dump) s.blk.qy.copies = some c) ∧ (c.answered = true ∨ c.unsent ≠ 0) ∧ (2 ≤ c.pending))
    ∧ (∃ (s : State) (sd : Side) (f : Flit), (s.blk.qyUp = true) ∧ (malformedPoison f = true))
    ∧ (∃ (s : State) (sd : Side) (f : Flit), (s.blk.qyUp = true) ∧ (malformedPoison f = false) ∧ (s.blk.remFor f = none))
    ∧ (∃ (s : State) (sd : Side) (src : BitVec 15), (s.blk.qyUp = true) ∧ (tget (fun x ↦ 0) (s.blk.side sd).owed src.toNat ≠ 0) ∧ ((s.blk.side sd).seg = SegState.run))
    ∧ (∃ (s : State) (sd : Side) (t : Tide), ((s.blk.side sd).lowSince = some t) ∧ (4 ≤ s.blk.creditUnits sd) ∧ ((s.blk.side sd).seg = SegState.run) ∧ (s.blk.balance sd ≤ 8) ∧ (2 * usTicks ≤ s.blk.since t))
    ∧ (∃ (s : State) (tag : BitVec 16) (w : RemWrite), (List.find? (fun x ↦ x.tag == tag.toNat && x.sentAt.isSome && s.blk.olderThan (8 * usTicks) x.sentAt) s.blk.qy.rems = some w)) :=
  ⟨⟨quay0, .west, (crFlit 300), by decide +kernel⟩,
   ⟨quay0, .west, rdFlit, by decide +kernel⟩,
   ⟨(st { quayB with qy.rems := [⟨7, 1, 4, some 3, false⟩, ⟨9, 1, 4, none, false⟩] }), .west, { rdFlit with kind := 2, tag := 7 }, ⟨7, 1, 4, some 3, false⟩, by decide +kernel⟩,
   ⟨(st { quayB with qy.rems := [⟨7, 1, 4, some 3, false⟩], qy.copies := [{ req := 1, sd := .west, f := crmFlit, unsent := 0, pending := 2, answered := true }] }), .west, { rdFlit with kind := 2, tag := 7 }, ⟨7, 1, 4, some 3, false⟩, { req := 1, sd := .west, f := crmFlit, unsent := 0, pending := 2, answered := true }, by decide +kernel⟩,
   ⟨(st { quayB with qy.rems := [⟨7, 1, 4, some 3, false⟩] }), .west, { rdFlit with kind := 2, tag := 7, poison := 1 }, by decide +kernel⟩,
   ⟨(st { quayB with qy.rems := [⟨7, 1, 4, none, false⟩] }), .west, { rdFlit with kind := 2, tag := 8 }, by decide +kernel⟩,
   ⟨(st { quayB with west.owed := [(9, 70000)] }), .west, 9, by decide +kernel⟩,
   ⟨(st { quayB with west.lowSince := some 0, west.bal := 3 }), .west, 0, by decide +kernel⟩,
   ⟨(st { quayB with qy.rems := [⟨7, 1, 4, some 3, false⟩] }), 7, ⟨7, 1, 4, some 3, false⟩, by decide +kernel⟩⟩

theorem hypotheses_requestsAccepted :
    (∃ (s : State) (sd : Side) (f : Flit) (ks : List (BitVec 512)) (cls : Cls), (s.blk.admits Op.read sd f ks cls))
    ∧ (∃ (s : State) (sd : Side) (f : Flit) (ks : List (BitVec 512)) (cls : Cls), (s.blk.admits Op.write sd f ks cls))
    ∧ (∃ (s : State) (sd : Side) (f : Flit) (ks : List (BitVec 512)) (cls : Cls), (s.blk.admits Op.writeBytes sd f ks cls))
    ∧ (∃ (s : State) (sd : Side) (f : Flit) (ks : List (BitVec 512)) (cls : Cls), (s.blk.admits Op.atomic sd f ks cls))
    ∧ (∃ (s : State) (sd : Side) (f : Flit) (ks : List (BitVec 512)) (cls : Cls), (s.blk.admits Op.reduce sd f ks cls))
    ∧ (∃ (s : State) (sd : Side) (f : Flit) (ks : List (BitVec 512)) (cls : Cls), (s.blk.admits Op.gather sd f ks cls))
    ∧ (∃ (s : State) (sd : Side) (f : Flit) (ks : List (BitVec 512)) (cls : Cls), (s.blk.admits Op.scatter sd f ks cls))
    ∧ (∃ (s : State) (sd : Side) (f : Flit) (ks : List (BitVec 512)) (cls : Cls), (s.blk.admits Op.fill sd f ks cls))
    ∧ (∃ (s : State) (sd : Side) (f : Flit) (ks : List (BitVec 512)) (cls : Cls), (s.blk.admits Op.find sd f ks cls))
    ∧ (∃ (s : State) (sd : Side) (f : Flit) (ks : List (BitVec 512)) (cls : Cls), (s.blk.admits Op.copyLocal sd f ks cls))
    ∧ (∃ (s : State) (sd : Side) (f : Flit) (ks : List (BitVec 512)) (cls : Cls), (s.blk.admits Op.copyRemote sd f ks cls))
    ∧ (∃ (s : State) (sd : Side) (f : Flit) (cls : Cls), (s.blk.takes Op.fence f) ∧ (s.blk.pw.st ≠ PierState.departure) ∧ ((planOf Op.fence f).valid = true) ∧ (s.blk.classOf sd f [] 1 = cls) ∧ (cls.charter.isNone = true → s.blk.looseTags 1 = true) ∧ (s.blk.req s.blk.qy.nextId = none) ∧ ((s.blk.qy.reqs.any fun q ↦ decide (q.id < s.blk.qy.nextId) && q.f.flow == f.flow && q.op != Op.fence) = true))
    ∧ (∃ (s : State) (sd : Side) (f : Flit) (cls : Cls), (s.blk.takes Op.fence f) ∧ (s.blk.pw.st ≠ PierState.departure) ∧ ((planOf Op.fence f).valid = true) ∧ (s.blk.classOf sd f [] 1 = cls) ∧ (cls.charter.isNone = true → s.blk.looseTags 1 = true) ∧ (s.blk.req s.blk.qy.nextId = none) ∧ ((s.blk.qy.reqs.any fun q ↦ q.f.flow == f.flow) = false) ∧ ((s.blk.qy.copies.any fun c ↦ c.f.flow == f.flow && !c.answered) = false) ∧ ((s.blk.side sd).seg = SegState.run)) :=
  ⟨⟨rgn0, .west, rdFlit, [0x123], .be, by decide +kernel⟩,
   ⟨rgn0, .west, wrFlit, [0x123], .be, by decide +kernel⟩,
   ⟨rgn0, .west, wbFlit, [0x123], .be, by decide +kernel⟩,
   ⟨rgn0, .west, atFlit, [0x123], .be, by decide +kernel⟩,
   ⟨rgn0, .west, rdcFlit, [0x123], .be, by decide +kernel⟩,
   ⟨rgn0, .west, gaFlit, [0x123], .be, by decide +kernel⟩,
   ⟨rgn0, .west, scFlit, [0x123], .be, by decide +kernel⟩,
   ⟨rgn0, .west, fiFlit, [0x123], .be, by decide +kernel⟩,
   ⟨rgn0, .west, fnFlit, [0x123], .be, by decide +kernel⟩,
   ⟨rgn0, .west, clFlit, [0x123, 0x123], .be, by decide +kernel⟩,
   ⟨rgn0, .west, crmFlit, [0x123], .be, by decide +kernel⟩,
   ⟨(reqS .read .be { berth := 0 }), .west, feFlit, .be, by decide +kernel⟩,
   ⟨rgn0, .west, feFlit, .be, by decide +kernel⟩⟩

theorem hypotheses_requestsRefused :
    (∃ (s : State) (op : Op) (sd : Side) (f : Flit), (s.blk.takes op f) ∧ (s.blk.regionCheck op f (planOf op f) = RegionOut.denied) ∧ ((s.blk.side sd).seg = SegState.run))
    ∧ (∃ (s : State) (op : Op) (sd : Side) (f : Flit) (ks : List (BitVec 512)), (s.blk.takes op f) ∧ (s.blk.regionCheck op f (planOf op f) = RegionOut.keys ks) ∧ ((s.blk.side sd).seg = SegState.run) ∧ ((planOf op f).spanBad = true ∨ (planOf op f).valid = false ∨ op = Op.copyRemote ∧ s.blk.copyRouted f = false))
    ∧ (∃ (s : State) (op : Op) (sd : Side) (f : Flit) (ks : List (BitVec 512)), (s.blk.takes op f) ∧ (s.blk.regionCheck op f (planOf op f) = RegionOut.keys ks) ∧ ((s.blk.side sd).seg = SegState.run) ∧ ((planOf op f).spanBad = false) ∧ ((planOf op f).valid = true) ∧ (op = Op.copyRemote → s.blk.copyRouted f = true) ∧ (s.blk.pw.st = PierState.departure))
    ∧ (∃ (s : State) (op : Op) (sd : Side) (f : Flit) (ks : List (BitVec 512)), (s.blk.takes op f) ∧ (s.blk.regionCheck op f (planOf op f) = RegionOut.keys ks) ∧ ((s.blk.side sd).seg = SegState.run) ∧ ((planOf op f).spanBad = false) ∧ ((planOf op f).valid = true) ∧ (op = Op.copyRemote → s.blk.copyRouted f = true) ∧ (s.blk.pw.st ≠ PierState.departure) ∧ ((s.blk.classOf sd f (partsOf op (planOf op f)) (1 + remCount op f)).charter = none) ∧ (s.blk.looseTags (1 + remCount op f) = false ∨ s.blk.looseIngress (partsOf op (planOf op f)) = false))
    ∧ (∃ (s : State) (op : Op) (sd : Side) (f : Flit), (op ≠ Op.read) ∧ (op ≠ Op.write) ∧ (f.kind = 1) ∧ (f.opcode.toNat = op.code) ∧ (f.csr = true) ∧ (s.blk.decides = true) ∧ ((s.blk.side sd).seg = SegState.run))
    ∧ (∃ (s : State) (op : Op) (sd : Side) (f : Flit), (f.kind ≠ 1 ∨ f.opcode.toNat ≠ op.code ∨ s.blk.decides = false)) :=
  ⟨⟨quay0, .read, .west, rdFlit, by decide +kernel⟩,
   ⟨rgn0, .find, .west, { fnFlit with arg := 9 }, [0x123], by decide +kernel⟩,
   ⟨(st { rgnB with pw.st := .departure }), .fill, .west, fiFlit, [0x123], by decide +kernel⟩,
   ⟨(st (regs rgnB [(Off.qyLimit, 0)])), .fill, .west, fiFlit, [0x123], by decide +kernel⟩,
   ⟨rgn0, .fill, .west, { fiFlit with csr := true }, by decide +kernel⟩,
   ⟨rgn0, .fill, .west, fnFlit, by decide +kernel⟩⟩

theorem hypotheses_registerAccessInBand :
    (∃ (s : State) (sd : Side) (f : Flit), (f.kind = 1) ∧ (f.opcode = 1) ∧ (f.csr = true) ∧ (s.blk.decides = true) ∧ ((s.blk.side sd).seg = SegState.run) ∧ (s.blk.csrSourceOk f.src.toNat = true) ∧ (csrWellFormed true f = true) ∧ (s.blk.pw.st ≠ PierState.departure) ∧ (s.blk.looseTags 1 = true) ∧ (s.blk.req s.blk.qy.nextId = none))
    ∧ (∃ (s : State) (sd : Side) (f : Flit), (f.kind = 1) ∧ (f.opcode = 2) ∧ (f.csr = true) ∧ (s.blk.decides = true) ∧ (s.blk.csrSourceOk f.src.toNat = true) ∧ (csrWellFormed false f = true) ∧ (f.offset.toNat = Off.qyLimit) ∧ (s.blk.pw.st ≠ PierState.departure) ∧ (s.blk.looseTags 1 = true) ∧ (s.blk.req s.blk.qy.nextId = none) ∧ (1 ≤ f.arg.toNat) ∧ (f.arg.toNat ≤ 16384))
    ∧ (∃ (s : State) (op : Op) (sd : Side) (f : Flit), (op = Op.read ∨ op = Op.write) ∧ (f.kind = 1) ∧ (f.opcode.toNat = op.code) ∧ (f.csr = true) ∧ (s.blk.decides = true) ∧ ((s.blk.side sd).seg = SegState.run) ∧ (s.blk.csrSourceOk f.src.toNat = false))
    ∧ (∃ (s : State) (op : Op) (sd : Side) (f : Flit), (op = Op.read ∨ op = Op.write) ∧ (f.kind = 1) ∧ (f.opcode.toNat = op.code) ∧ (f.csr = true) ∧ (s.blk.decides = true) ∧ ((s.blk.side sd).seg = SegState.run) ∧ (s.blk.csrSourceOk f.src.toNat = true) ∧ (csrWellFormed (op == Op.read) f = false))
    ∧ (∃ (s : State) (op : Op) (sd : Side) (f : Flit), (op = Op.read ∨ op = Op.write) ∧ (f.kind = 1) ∧ (f.opcode.toNat = op.code) ∧ (f.csr = true) ∧ (s.blk.decides = true) ∧ ((s.blk.side sd).seg = SegState.run) ∧ (s.blk.csrSourceOk f.src.toNat = true) ∧ (csrWellFormed (op == Op.read) f = true) ∧ (s.blk.pw.st = PierState.departure)) :=
  ⟨⟨(st (regs rgnB [(Off.qyCsrSrc, 0x7FFF0000)])), .west, { kind := 1, opcode := 1, csr := true, src := 9, offset := 0x000000 }, by decide +kernel⟩,
   ⟨(st (regs rgnB [(Off.qyCsrSrc, 0x7FFF0000)])), .west, { kind := 1, opcode := 2, csr := true, src := 9, offset := BitVec.ofNat 37 Off.qyLimit, arg := 0x100 }, by decide +kernel⟩,
   ⟨rgn0, .write, .west, { kind := 1, opcode := 2, csr := true, src := 9, offset := 4 }, by decide +kernel⟩,
   ⟨(st (regs rgnB [(Off.qyCsrSrc, 0x7FFF0000)])), .read, .west, { kind := 1, opcode := 1, csr := true, src := 9, offset := 2 }, by decide +kernel⟩,
   ⟨(st { regs rgnB [(Off.qyCsrSrc, 0x7FFF0000)] with pw.st := .departure }), .read, .west, { kind := 1, opcode := 1, csr := true, src := 9, offset := 8 }, by decide +kernel⟩⟩

theorem hypotheses_partsAndTheCommitGate :
    (∃ (s : State) (id : Nat) (i : Nat) (r : Req) (p : Part), (s.blk.req id = some r) ∧ (r.parts[i]? = some p) ∧ (p.stage = PStage.transit) ∧ (s.blk.coreRuns = true) ∧ ((s.blk.berth p.berth).st = BerthState.ready ∨ (s.blk.berth p.berth).st = BerthState.throttled))
    ∧ (∃ (s : State) (id : Nat) (i : Nat) (r : Req) (p : Part), (s.blk.req id = some r) ∧ (r.parts[i]? = some p) ∧ (p.stage = PStage.transit) ∧ (s.blk.coreRuns = true) ∧ ((s.blk.berth p.berth).st = BerthState.filling) ∧ (r.cls.charter = none))
    ∧ (∃ (s : State) (id : Nat) (i : Nat) (r : Req) (p : Part), (s.blk.req id = some r) ∧ (r.parts[i]? = some p) ∧ (p.stage = PStage.transit) ∧ (s.blk.coreRuns = true) ∧ ((s.blk.berth p.berth).st = BerthState.fenced ∨ (s.blk.berth p.berth).st = BerthState.absent) ∧ ((s.blk.side r.sd).seg = SegState.run))
    ∧ (∃ (s : State) (id : Nat) (r : Req) (e : Option Nat), (s.blk.req id = some r) ∧ (s.blk.gateOpen r = true) ∧ (s.blk.coreRuns = true) ∧ (r.poisoned = false) ∧ ((e.bind fun x ↦ r.parts[x]?) = none))
    ∧ (∃ (s : State) (id : Nat) (r : Req) (e : Option Nat) (p : Part), (s.blk.req id = some r) ∧ (s.blk.gateOpen r = true) ∧ (s.blk.coreRuns = true) ∧ ((s.blk.side r.sd).seg = SegState.run) ∧ ((e.bind fun x ↦ r.parts[x]?) = some p))
    ∧ (∃ (s : State) (id : Nat) (r : Req) (e : Option Nat), (s.blk.req id = some r) ∧ (s.blk.gateOpen r = true) ∧ (s.blk.coreRuns = true) ∧ ((s.blk.side r.sd).seg = SegState.run) ∧ ((e.bind fun x ↦ r.parts[x]?) = none) ∧ (r.poisoned = true))
    ∧ (∃ (s : State) (id : Nat) (r : Req) (e : Option Nat), (s.blk.req id = some r) ∧ (s.blk.gateOpen r = false))
    ∧ (∃ (s : State) (id : Nat) (i : Nat) (r : Req) (p : Part) (dmg : List Damage), (s.blk.req id = some r) ∧ (r.op.writes = false) ∧ (r.op ≠ Op.fence) ∧ (r.op ≠ Op.copyRemote) ∧ (r.parts[i]? = some p) ∧ (p.stage = PStage.issued) ∧ (p.toWrite = []) ∧ (((r.parts.eraseIdx i).all fun q ↦ !q.open_) = true) ∧ ((s.blk.side r.sd).seg = SegState.run))
    ∧ (∃ (s : State) (id : Nat) (i : Nat) (r : Req) (p : Part) (dmg : List Damage), (s.blk.req id = some r) ∧ (r.parts[i]? = some p) ∧ (p.stage = PStage.issued) ∧ ((s.blk.side r.sd).seg = SegState.run))
    ∧ (∃ (s : State) (id : Nat) (i : Nat) (r : Req) (p : Part) (dmg : List Damage), (s.blk.req id = some r) ∧ (r.op.writes = true) ∧ (r.parts[i]? = some p) ∧ (p.stage = PStage.committed) ∧ (p.toWrite = []) ∧ (r.committed.isSome = true) ∧ (((r.parts.eraseIdx i).all fun q ↦ !q.open_) = true) ∧ (r.status = 0) ∧ (p.bad = []) ∧ ((s.blk.side r.sd).seg = SegState.run))
    ∧ (∃ (s : State) (id : Nat) (i : Nat) (r : Req) (p : Part) (dmg : List Damage) (pe : Bool), (s.blk.req id = some r) ∧ (r.op.writes = true) ∧ (r.parts[i]? = some p) ∧ (p.stage = PStage.committed) ∧ (p.toWrite = []) ∧ (pe = true ∨ p.bad ≠ []) ∧ (r.committed.isSome = true) ∧ (((r.parts.eraseIdx i).all fun q ↦ !q.open_) = true) ∧ ((s.blk.side r.sd).seg = SegState.run)) :=
  ⟨⟨(reqS .read .be { berth := 0, reads := [2], toIssue := [2] }), 4, 0, (rqR .read .be { berth := 0, reads := [2], toIssue := [2] }), { berth := 0, reads := [2], toIssue := [2] }, by decide +kernel⟩,
   ⟨(reqB .fill .be { berth := 0, toWrite := [2] } .filling), 4, 0, (rqR .fill .be { berth := 0, toWrite := [2] }), { berth := 0, toWrite := [2] }, by decide +kernel⟩,
   ⟨(reqB .fill .be { berth := 0, toWrite := [2] } .fenced), 4, 0, (rqR .fill .be { berth := 0, toWrite := [2] }), { berth := 0, toWrite := [2] }, by decide +kernel⟩,
   ⟨(reqS .fill .be rdyP), 4, (rqR .fill .be rdyP), none, by decide +kernel⟩,
   ⟨(reqS .fill .be rdyP), 4, (rqR .fill .be rdyP), (some 0), rdyP, by decide +kernel⟩,
   ⟨(reqS .atomic .be { rdyP with reads := [2], vals := [(2, 0, true)] }), 4, (rqR .atomic .be { rdyP with reads := [2], vals := [(2, 0, true)] }), (some 3), by decide +kernel⟩,
   ⟨(reqS .fill .be { berth := 0, toWrite := [2] }), 4, (rqR .fill .be { berth := 0, toWrite := [2] }), (some 0), by decide +kernel⟩,
   ⟨(reqS .read .be { berth := 0, reads := [2], stage := .issued, got := [(2, Memory.readGranule [] 2)] }), 4, 0, (rqR .read .be { berth := 0, reads := [2], stage := .issued, got := [(2, Memory.readGranule [] 2)] }), { berth := 0, reads := [2], stage := .issued, got := [(2, Memory.readGranule [] 2)] }, [], by decide +kernel⟩,
   ⟨(reqS .read .be { berth := 0, reads := [2], stage := .issued, got := [(2, Memory.readGranule [] 2)] }), 4, 0, (rqR .read .be { berth := 0, reads := [2], stage := .issued, got := [(2, Memory.readGranule [] 2)] }), { berth := 0, reads := [2], stage := .issued, got := [(2, Memory.readGranule [] 2)] }, [⟨2, 5, 7, true⟩], by decide +kernel⟩,
   ⟨(reqC .fill .be comP), 4, 0, (rqC .fill .be comP), comP, [], by decide +kernel⟩,
   ⟨(reqC .fill .be comP), 4, 0, (rqC .fill .be comP), comP, [], true, by decide +kernel⟩⟩

theorem hypotheses_withdrawals :
    (∃ (s : State) (id : Nat) (r : Req), (s.blk.req id = some r) ∧ (r.cls.charter = none) ∧ (r.issued = false) ∧ (8320 ≤ s.blk.since r.quayIn) ∧ ((s.blk.side r.sd).seg = SegState.run))
    ∧ (∃ (s : State) (id : Nat) (r : Req), (s.blk.req id = some r) ∧ (r.cls.charter.isSome = true ∨ r.issued = true ∨ s.blk.since r.quayIn < 8320))
    ∧ (∃ (s : State) (id : Nat) (r : Req) (c : Nat), (s.blk.req id = some r) ∧ (r.cls = Cls.rt c ∧ 1440 ≤ s.blk.since r.quayIn ∨ r.cls = Cls.bw c ∧ 3840 ≤ s.blk.since r.quayIn) ∧ (r.issued = false) ∧ ((s.blk.side r.sd).seg = SegState.run))
    ∧ (∃ (s : State) (id : Nat) (r : Req) (c : Nat), (s.blk.req id = some r) ∧ (r.cls = Cls.rt c ∧ s.blk.since r.quayIn < 1440 ∨ r.cls = Cls.bw c ∧ s.blk.since r.quayIn < 3840 ∨ r.issued = true))
    ∧ (∃ (s : State) (id : Nat) (r : Req), (s.blk.req id = some r) ∧ ((r.parts.any fun p ↦ p.stage == PStage.held) = true) ∧ (6400 ≤ s.blk.since r.quayIn) ∧ ((s.blk.side r.sd).seg = SegState.run))
    ∧ (∃ (s : State) (id : Nat) (r : Req), (s.blk.req id = some r) ∧ (s.blk.since r.quayIn < 6400)) :=
  ⟨⟨(reqS .fill .be rdyP), 4, (rqR .fill .be rdyP), by decide +kernel⟩,
   ⟨(reqC .fill .be comP), 4, (rqC .fill .be comP), by decide +kernel⟩,
   ⟨(reqS .fill (.rt 3) rdyP), 4, (rqR .fill (.rt 3) rdyP), 3, by decide +kernel⟩,
   ⟨(reqC .fill (.bw 3) comP), 4, (rqC .fill (.bw 3) comP), 3, by decide +kernel⟩,
   ⟨(reqS .fill .be { rdyP with stage := .held }), 4, (rqR .fill .be { rdyP with stage := .held }), by decide +kernel⟩,
   ⟨(st { rgnB with qy.reqs := [{ rqR .fill .be rdyP with quayIn := 0x1000000 }], qy.nextId := 5 }), 4, { rqR .fill .be rdyP with quayIn := 0x1000000 }, by decide +kernel⟩⟩

theorem hypotheses_channelCommands :
    (∃ (b : Block) (n : Nat) (c : Cmd), ((b.chan n).resume = false) ∧ ((b.chan n).replayQ = []) ∧ (b.choose n = some c))
    ∧ (∃ (s : State) (ch : ChId) (dmg : List Damage) (fc : Option (Fin 13)) (pe : Bool), (s.blk.chanServes ↑ch = false))
    ∧ (∃ (s : State) (ch : ChId) (dmg : List Damage) (fc : Option (Fin 13)) (pe : Bool) (c : Cmd), (s.blk.chanServes ↑ch = true) ∧ ((s.blk.atCycle ↑ch).choose ↑ch = some c) ∧ (granules ≤ c.acc.gran))
    ∧ (∃ (s : State) (ch : ChId) (dmg : List Damage) (fc : Option (Fin 13)) (pe : Bool), (s.blk.chanServes ↑ch = true) ∧ ((s.blk.atCycle ↑ch).choose ↑ch = none))
    ∧ (∃ (s : State) (ch : ChId) (dmg : List Damage) (fc : Option (Fin 13)) (pe : Bool) (c : Cmd), (s.blk.chanServes ↑ch = true) ∧ ((s.blk.atCycle ↑ch).choose ↑ch = some c) ∧ (c.acc.gran < granules) ∧ (c.kind = CmdKind.act))
    ∧ (∃ (s : State) (ch : ChId) (dmg : List Damage) (fc : Option (Fin 13)) (pe : Bool) (c : Cmd), (s.blk.chanServes ↑ch = true) ∧ ((s.blk.atCycle ↑ch).choose ↑ch = some c) ∧ (c.acc.gran < granules) ∧ (c.kind = CmdKind.pre))
    ∧ (∃ (s : State) (ch : ChId) (dmg : List Damage) (fc : Option (Fin 13)) (pe : Bool) (c : Cmd) (id : Nat) (i : Nat) (r : Req) (p : Part), (s.blk.chanServes ↑ch = true) ∧ ((s.blk.atCycle ↑ch).choose ↑ch = some c) ∧ (c.acc.gran < granules) ∧ (c.kind = CmdKind.col) ∧ ((s.blk.chan ↑ch).replayQ = []) ∧ (c.acc.src = ASrc.part id i) ∧ (c.acc.wr = false) ∧ ((s.blk.atCycle ↑ch).req id = some r) ∧ (r.parts[i]? = some p))
    ∧ (∃ (s : State) (ch : ChId) (dmg : List Damage) (fc : Option (Fin 13)) (pe : Bool) (c : Cmd) (id : Nat) (i : Nat) (r : Req) (p : Part) (w : Staged), (s.blk.chanServes ↑ch = true) ∧ ((s.blk.atCycle ↑ch).choose ↑ch = some c) ∧ (c.acc.gran < granules) ∧ (c.kind = CmdKind.col) ∧ ((s.blk.chan ↑ch).replayQ = []) ∧ (c.acc.src = ASrc.part id i) ∧ (c.acc.wr = true) ∧ ((s.blk.atCycle ↑ch).req id = some r) ∧ (r.parts[i]? = some p) ∧ (List.find? (fun w ↦ w.gran == c.acc.gran) p.writes = some w))
    ∧ (∃ (s : State) (ch : ChId) (dmg : List Damage) (fc : Option (Fin 13)) (pe : Bool) (c : Cmd), (s.blk.chanServes ↑ch = true) ∧ ((s.blk.atCycle ↑ch).choose ↑ch = some c) ∧ (c.acc.gran < granules) ∧ (c.kind = CmdKind.col) ∧ ((s.blk.chan ↑ch).replayQ = []) ∧ (c.acc.src = ASrc.fill))
    ∧ (∃ (s : State) (ch : ChId) (dmg : List Damage) (fc : Option (Fin 13)) (pe : Bool) (c : Cmd) (sc : Scrub), (s.blk.chanServes ↑ch = true) ∧ ((s.blk.atCycle ↑ch).choose ↑ch = some c) ∧ (c.acc.gran < granules) ∧ (c.kind = CmdKind.col) ∧ ((s.blk.chan ↑ch).replayQ = []) ∧ (c.acc.src = ASrc.scrub) ∧ (s.blk.prot.scrub = some sc))
    ∧ (∃ (s : State) (ch : ChId) (dmg : List Damage) (fc : Option (Fin 13)) (pe : Bool) (c : Cmd), (s.blk.chanServes ↑ch = true) ∧ ((s.blk.atCycle ↑ch).choose ↑ch = some c) ∧ (c.acc.gran < granules) ∧ (c.kind = CmdKind.refab))
    ∧ (∃ (s : State) (ch : ChId) (dmg : List Damage) (fc : Option (Fin 13)) (pe : Bool) (c : Cmd), (s.blk.chanServes ↑ch = true) ∧ ((s.blk.atCycle ↑ch).choose ↑ch = some c) ∧ (c.acc.gran < granules) ∧ (c.kind = CmdKind.refpb))
    ∧ (∃ (s : State) (ch : ChId) (dmg : List Damage) (fc : Option (Fin 13)) (pe : Bool) (c : Cmd), (s.blk.chanServes ↑ch = true) ∧ ((s.blk.atCycle ↑ch).choose ↑ch = some c) ∧ (c.acc.gran < granules) ∧ (c.kind = CmdKind.cal))
    ∧ (∃ (s : State) (ch : ChId) (dmg : List Damage) (fc : Option (Fin 13)) (pe : Bool) (c : Cmd), (s.blk.chanServes ↑ch = true) ∧ ((s.blk.atCycle ↑ch).choose ↑ch = some c) ∧ (c.acc.gran < granules) ∧ (c.kind = CmdKind.resume))
    ∧ (∃ (s : State) (ch : ChId) (dmg : List Damage) (fc : Option (Fin 13)) (pe : Bool) (c : Cmd) (rest : List Cmd), (s.blk.chanServes ↑ch = true) ∧ ((s.blk.atCycle ↑ch).choose ↑ch = some c) ∧ (c.acc.gran < granules) ∧ ((s.blk.chan ↑ch).resume = false) ∧ ((s.blk.chan ↑ch).replayQ = c :: rest) ∧ (c.kind ≠ CmdKind.resume)) :=
  ⟨⟨(chS 0x1000000 .read qP (some 0)).blk, 0, (cmdOf (chS 0x1000000 .read qP (some 0)) 0), by refine ⟨?_, ?_, ?_⟩ <;> first | refine Exists.intro _ (Exists.intro _ rfl) | decide +kernel⟩,
   ⟨reset1, 3, [], none, false, by decide +kernel⟩,
   ⟨(chS 0x1000001 .read farP none), 0, [], none, false, (cmdOf (chS 0x1000001 .read farP none) 0), by refine ⟨?_, ?_, ?_⟩ <;> first | refine Exists.intro _ (Exists.intro _ rfl) | decide +kernel⟩,
   ⟨open0, 0, [], none, false, by decide +kernel⟩,
   ⟨(chS 0x1000001 .read qP none), 0, [], none, false, (cmdOf (chS 0x1000001 .read qP none) 0), by refine ⟨?_, ?_, ?_, ?_⟩ <;> first | refine Exists.intro _ (Exists.intro _ rfl) | decide +kernel⟩,
   ⟨(chS 0x1000001 .read qP (some 5)), 0, [], none, false, (cmdOf (chS 0x1000001 .read qP (some 5)) 0), by refine ⟨?_, ?_, ?_, ?_⟩ <;> first | refine Exists.intro _ (Exists.intro _ rfl) | decide +kernel⟩,
   ⟨(chS 0x1000000 .read qP (some 0)), 0, [], none, false, (cmdOf (chS 0x1000000 .read qP (some 0)) 0), 4, 0, (rqR .read .be qP), qP, by refine ⟨?_, ?_, ?_, ?_, ?_, ?_, ?_, ?_, ?_⟩ <;> first | refine Exists.intro _ (Exists.intro _ rfl) | decide +kernel⟩,
   ⟨(chW 0x1000000 cwP (some 0)), 0, [], none, false, (cmdOf (chW 0x1000000 cwP (some 0)) 0), 4, 0, (rqW cwP), cwP, { gran := 2, data := 9, poison := false, key := some 0x123 }, by refine ⟨?_, ?_, ?_, ?_, ?_, ?_, ?_, ?_, ?_, ?_⟩ <;> first | refine Exists.intro _ (Exists.intro _ rfl) | decide +kernel⟩,
   ⟨(chF 0x1000000), 0, [], none, false, (cmdOf (chF 0x1000000) 0), by refine ⟨?_, ?_, ?_, ?_, ?_, ?_⟩ <;> first | refine Exists.intro _ (Exists.intro _ rfl) | decide +kernel⟩,
   ⟨(scrS 0x1000000), 0, [], none, false, (cmdOf (scrS 0x1000000) 0), scr, by refine ⟨?_, ?_, ?_, ?_, ?_, ?_, ?_⟩ <;> first | refine Exists.intro _ (Exists.intro _ rfl) | decide +kernel⟩,
   ⟨(chT 0x1000001 fun x => { x with refDue := true }), 0, [], none, false, (cmdOf (chT 0x1000001 fun x => { x with refDue := true }) 0), by refine ⟨?_, ?_, ?_, ?_⟩ <;> first | refine Exists.intro _ (Exists.intro _ rfl) | decide +kernel⟩,
   ⟨(chT 0x1000001 fun x => { x with repay := true, passBank := 3, owed := 2 }), 0, [], none, false, (cmdOf (chT 0x1000001 fun x => { x with repay := true, passBank := 3, owed := 2 }) 0), by refine ⟨?_, ?_, ?_, ?_⟩ <;> first | refine Exists.intro _ (Exists.intro _ rfl) | decide +kernel⟩,
   ⟨(chT 0x1000000 fun x => { x with calDue := 1 }), 0, [], none, false, (cmdOf (chT 0x1000000 fun x => { x with calDue := 1 }) 0), by refine ⟨?_, ?_, ?_, ?_⟩ <;> first | refine Exists.intro _ (Exists.intro _ rfl) | decide +kernel⟩,
   ⟨(chT 0x1000000 fun x => { x with resume := true }), 0, [], none, false, (cmdOf (chT 0x1000000 fun x => { x with resume := true }) 0), by refine ⟨?_, ?_, ?_, ?_⟩ <;> first | refine Exists.intro _ (Exists.intro _ rfl) | decide +kernel⟩,
   ⟨(chT 0x1000001 fun x => { x with replayQ := [⟨.act, ⟨.fill, 2, true, 6, 0, 5, 0⟩⟩] }), 0, [], none, false, (cmdOf (chT 0x1000001 fun x => { x with replayQ := [⟨.act, ⟨.fill, 2, true, 6, 0, 5, 0⟩⟩] }) 0), [], by refine ⟨?_, ?_, ?_, ?_, ?_, ?_⟩ <;> first | refine Exists.intro _ (Exists.intro _ rfl) | decide +kernel⟩⟩

theorem hypotheses_refreshAndSelfRefresh :
    (∃ (s : State) (ch : ChId) (fc : Option (Fin 13)), (s.blk.chanServes ↑ch = false ∨ s.blk.passed (s.blk.chan ↑ch).tickIn (s.blk.chan ↑ch).lastTick = false))
    ∧ (∃ (s : State) (ch : ChId) (fc : Option (Fin 13)) (c : Cmd), (s.blk.chanServes ↑ch = true) ∧ (s.blk.passed (s.blk.chan ↑ch).tickIn (s.blk.chan ↑ch).lastTick = true) ∧ ((s.blk.chan ↑ch).pulled = false) ∧ ((s.blk.chan ↑ch).owed = 0) ∧ ((s.blk.chan ↑ch).refDue = false) ∧ (s.blk.panicAt ↑ch = false) ∧ ((s.blk.tickFalls ↑ch).choose ↑ch = some c) ∧ (c.kind = CmdKind.refab) ∧ ((s.blk.chan ↑ch).replayQ = []) ∧ ((s.blk.chan ↑ch).limitDue = false))
    ∧ (∃ (s : State) (ch : ChId) (fc : Option (Fin 13)), (s.blk.chanServes ↑ch = true) ∧ (s.blk.passed (s.blk.chan ↑ch).tickIn (s.blk.chan ↑ch).lastTick = true) ∧ ((s.blk.chan ↑ch).pulled = false) ∧ ((s.blk.chan ↑ch).owed = 0) ∧ ((s.blk.chan ↑ch).refDue = false) ∧ (s.blk.panicAt ↑ch = false) ∧ (Option.all (fun c ↦ c.kind != CmdKind.refab) ((s.blk.tickFalls ↑ch).choose ↑ch) = true))
    ∧ (∃ (s : State) (ch : ChId) (fc : Option (Fin 13)), (s.blk.chanServes ↑ch = true) ∧ (s.blk.passed (s.blk.chan ↑ch).tickIn (s.blk.chan ↑ch).lastTick = true) ∧ ((s.blk.chan ↑ch).pulled = false) ∧ ((s.blk.chan ↑ch).owed < 8) ∧ ((s.blk.chan ↑ch).refDue = false) ∧ ((s.blk.chan ↑ch).limitDue = false) ∧ (s.blk.panicAt ↑ch = true ∨ (s.blk.chan ↑ch).owed ≠ 0))
    ∧ (∃ (s : State) (ch : ChId) (fc : Option (Fin 13)), (s.blk.chanServes ↑ch = true) ∧ (s.blk.passed (s.blk.chan ↑ch).tickIn (s.blk.chan ↑ch).lastTick = true) ∧ ((s.blk.chan ↑ch).pulled = false) ∧ (8 ≤ (s.blk.chan ↑ch).owed))
    ∧ (∃ (s : State) (ch : ChId) (fc : Option (Fin 13)), (s.blk.chanServes ↑ch = true) ∧ (s.blk.passed (s.blk.chan ↑ch).tickIn (s.blk.chan ↑ch).lastTick = true) ∧ ((s.blk.chan ↑ch).pulled = true) ∧ ((s.blk.chan ↑ch).limitDue = false) ∧ ((s.blk.chan ↑ch).refDue = false))
    ∧ (∃ (s : State) (ch : ChId) (fc : Option (Fin 13)) (c : Cmd), (s.blk.chanServes ↑ch = true) ∧ (s.blk.pullOk ↑ch = true) ∧ ((s.blk.chan ↑ch).refDue = false) ∧ ((s.blk.chan ↑ch).limitDue = false) ∧ ((s.blk.chan ↑ch).replayQ = []) ∧ ((s.blk.modChan ↑ch fun x ↦ { pwr := x.pwr, forced := x.forced, step := x.step, stepAt := x.stepAt, stepDue := x.stepDue, slots := x.slots, banks := x.banks, acts := x.acts, lastCmd := x.lastCmd, lastCol := x.lastCol, recent := x.recent, resume := x.resume, replayQ := x.replayQ, refab := x.refab, preab := x.preab, sre := x.sre, srx := x.srx, passAt := x.passAt, passBank := x.passBank, owed := x.owed, pulled := x.pulled, refDue := x.refDue, limitDue := x.limitDue, pullDue := true, hot := x.hot, coolRounds := x.coolRounds, repay := x.repay, lastTick := x.lastTick, tickIn := x.tickIn, lastBusy := x.lastBusy, nAct := x.nAct, nRd := x.nRd, nWr := x.nWr, nRefab := x.nRefab, nRefpb := x.nRefpb, bgLog := x.bgLog, fillNext := x.fillNext, fillAt := x.fillAt, fillMark := x.fillMark, scrubNext := x.scrubNext, scrubAt := x.scrubAt, scrubMark := x.scrubMark, dumpMark := x.dumpMark, wakeDue := x.wakeDue, calFails := x.calFails, coilTemps := x.coilTemps, dramTemp := x.dramTemp, calDue := x.calDue, calAt := x.calAt, calMark := x.calMark, calSlots := x.calSlots, returning := x.returning, coilPass := x.coilPass, dramPass := x.dramPass }).choose ↑ch = some c) ∧ (c.kind = CmdKind.refab))
    ∧ (∃ (s : State) (ch : ChId) (fc : Option (Fin 13)), (s.blk.chanServes ↑ch = true) ∧ (s.blk.pullOk ↑ch = true) ∧ ((s.blk.chan ↑ch).refDue = false) ∧ (Option.all (fun c ↦ c.kind != CmdKind.refab) ((s.blk.modChan ↑ch fun x ↦ { pwr := x.pwr, forced := x.forced, step := x.step, stepAt := x.stepAt, stepDue := x.stepDue, slots := x.slots, banks := x.banks, acts := x.acts, lastCmd := x.lastCmd, lastCol := x.lastCol, recent := x.recent, resume := x.resume, replayQ := x.replayQ, refab := x.refab, preab := x.preab, sre := x.sre, srx := x.srx, passAt := x.passAt, passBank := x.passBank, owed := x.owed, pulled := x.pulled, refDue := x.refDue, limitDue := x.limitDue, pullDue := true, hot := x.hot, coolRounds := x.coolRounds, repay := x.repay, lastTick := x.lastTick, tickIn := x.tickIn, lastBusy := x.lastBusy, nAct := x.nAct, nRd := x.nRd, nWr := x.nWr, nRefab := x.nRefab, nRefpb := x.nRefpb, bgLog := x.bgLog, fillNext := x.fillNext, fillAt := x.fillAt, fillMark := x.fillMark, scrubNext := x.scrubNext, scrubAt := x.scrubAt, scrubMark := x.scrubMark, dumpMark := x.dumpMark, wakeDue := x.wakeDue, calFails := x.calFails, coilTemps := x.coilTemps, dramTemp := x.dramTemp, calDue := x.calDue, calAt := x.calAt, calMark := x.calMark, calSlots := x.calSlots, returning := x.returning, coilPass := x.coilPass, dramPass := x.dramPass }).choose ↑ch) = true))
    ∧ (∃ (s : State) (ch : ChId), (s.blk.chanServes ↑ch = true) ∧ (s.blk.panicAt ↑ch = false) ∧ (0 < (s.blk.chan ↑ch).owed) ∧ ((s.blk.chan ↑ch).repay = false) ∧ (s.blk.olderThan usTicks (s.blk.chan ↑ch).passAt = true))
    ∧ (∃ (s : State) (ch : ChId), (s.blk.chanServes ↑ch = true) ∧ (s.blk.panicAt ↑ch = false) ∧ (s.blk.passComplete ↑ch = true))
    ∧ (∃ (s : State) (ch : ChId), ((s.blk.chan ↑ch).pwr = ChanPwr.awake) ∧ (s.blk.coreRuns = true) ∧ ((s.blk.berth ↑ch).st = BerthState.ready ∨ (s.blk.berth ↑ch).st = BerthState.throttled) ∧ (s.blk.regBit (dcOff Off.dcChCtrl ↑ch) 0 = true) ∧ (s.blk.pinned ↑ch = false) ∧ ((s.blk.chan ↑ch).owed = 0) ∧ ((s.blk.chan ↑ch).refDue = false) ∧ ((s.blk.chan ↑ch).calDue = 0) ∧ (s.blk.partsAt ↑ch = false) ∧ (s.blk.prot.scrub = none ∨ (s.blk.chan ↑ch).scrubNext = none) ∧ ((s.blk.chan ↑ch).replayQ = []) ∧ ((s.blk.chan ↑ch).resume = false) ∧ (s.blk.dumpLeft ↑ch = []) ∧ (s.blk.sleepOk ↑ch = true) ∧ (min (max (s.blk.regField Off.dcCtrl 8 14) 1) 10000 * usTicks ≤ s.blk.since (s.blk.chan ↑ch).lastBusy))
    ∧ (∃ (s : State) (ch : ChId), ((s.blk.chan ↑ch).pwr ≠ ChanPwr.awake ∨ s.blk.pinned ↑ch = true ∨ s.blk.partsAt ↑ch = true))
    ∧ (∃ (s : State) (ch : ChId), ((s.blk.chan ↑ch).pwr = ChanPwr.entering) ∧ (Option.all (s.blk.passed 1) (s.blk.chan ↑ch).sre = true) ∧ (s.blk.wanted ↑ch = false ∨ (s.blk.chan ↑ch).forced = true))
    ∧ (∃ (s : State) (ch : ChId), ((s.blk.chan ↑ch).pwr = ChanPwr.entering) ∧ (Option.all (s.blk.passed 1) (s.blk.chan ↑ch).sre = true) ∧ ((s.blk.chan ↑ch).forced = false) ∧ (s.blk.wanted ↑ch = true))
    ∧ (∃ (s : State) (ch : ChId) (lost : BitVec 64) (edge : List (Nat × Nat)), ((s.blk.chan ↑ch).pwr = ChanPwr.exiting) ∧ (s.blk.coreRuns = true) ∧ (s.blk.passed 608 ((s.blk.chan ↑ch).srx.getD s.blk.ck.tide) = true) ∧ (lost.getLsbD ↑ch = false))
    ∧ (∃ (s : State) (ch : ChId) (lost : BitVec 64) (edge : List (Nat × Nat)), ((s.blk.chan ↑ch).pwr = ChanPwr.exiting) ∧ (s.blk.coreRuns = true) ∧ (s.blk.passed 608 ((s.blk.chan ↑ch).srx.getD s.blk.ck.tide) = true) ∧ (lost.getLsbD ↑ch = true)) :=
  ⟨⟨(chN fun x => { x with lastTick := 0x1000000 - 5, tickIn := 6240 }), 0, none, by decide +kernel⟩,
   ⟨(chT 0x1000001 fun x => { x with tickIn := 6240 }), 0, none, (refOf ((chT 0x1000001 fun x => { x with tickIn := 6240 }).blk.tickFalls 0) 0), by decide +kernel⟩,
   ⟨(chT 0x1000000 fun x => { x with tickIn := 6240 }), 0, none, by decide +kernel⟩,
   ⟨(chN fun x => { x with owed := 3 }), 0, none, by decide +kernel⟩,
   ⟨(chN fun x => { x with owed := 8 }), 0, none, by decide +kernel⟩,
   ⟨(chN fun x => { x with pulled := true }), 0, none, by decide +kernel⟩,
   ⟨(pullS 0x1000001), 0, none, (refOf ((pullS 0x1000001).blk.modChan 0 fun x => { x with pullDue := true }) 0), by decide +kernel⟩,
   ⟨(pullS 0x1000000), 0, none, by decide +kernel⟩,
   ⟨(chN fun x => { x with owed := 3 }), 0, by decide +kernel⟩,
   ⟨(chN fun x => { x with owed := 3, repay := true, passBank := 32 }), 0, by decide +kernel⟩,
   ⟨(st (regs quayB [(dcOff Off.dcChCtrl 0, 3)])), 0, by decide +kernel⟩,
   ⟨(chN fun x => { x with pwr := .off }), 0, by decide +kernel⟩,
   ⟨(chN fun x => { x with pwr := .entering, sre := some 5 }), 0, by decide +kernel⟩,
   ⟨(st ((chS 5 .read qP none).blk.modChan 0 fun x => { x with pwr := .entering })), 0, by decide +kernel⟩,
   ⟨(chN fun x => { x with pwr := .exiting, srx := some 5 }), 0, 0, [], by decide +kernel⟩,
   ⟨(chN fun x => { x with pwr := .exiting, srx := some 5 }), 0, 1, [], by decide +kernel⟩⟩

theorem hypotheses_replaysAndLostColumns :
    (∃ (s : State) (ch : ChId) (back : Nat) (coils : List (BitVec 4)), (s.blk.chanServes ↑ch = true) ∧ (caGood ((s.blk.col ↑ch).caWord coils) = false) ∧ ((List.filter (fun t ↦ decide (s.blk.since t < msTicks)) (s.blk.col ↑ch).replays).length < 7))
    ∧ (∃ (s : State) (ch : ChId) (back : Nat) (coils : List (BitVec 4)), (s.blk.chanServes ↑ch = true) ∧ (caGood ((s.blk.col ↑ch).caWord coils) = false) ∧ (7 ≤ (List.filter (fun t ↦ decide (s.blk.since t < msTicks)) (s.blk.col ↑ch).replays).length))
    ∧ (∃ (s : State) (ch : ChId) (back : Nat) (coils : List (BitVec 4)), (s.blk.reaches ↑ch = true) ∧ ((s.blk.chan ↑ch).pwr ≠ ChanPwr.awake) ∧ (caGood ((s.blk.col ↑ch).caWord coils) = false) ∧ (s.blk.resleep (s.blk.chan ↑ch) back ≠ s.blk.chan ↑ch) ∧ ((List.filter (fun t ↦ decide (s.blk.since t < msTicks)) (s.blk.col ↑ch).replays).length < 7))
    ∧ (∃ (s : State) (ch : ChId) (back : Nat) (coils : List (BitVec 4)), (s.blk.reaches ↑ch = false ∨ caGood ((s.blk.col ↑ch).caWord coils) = true))
    ∧ (∃ (s : State) (lost : BitVec 64) (edge : List (Nat × Nat)), (s.blk.carries = false ∨ ((List.range 64).any fun n ↦ s.blk.monitored n && lost.getLsbD n) = false))
    ∧ (∃ (s : State) (n : ChId) (edge : List (Nat × Nat)), (s.blk.carries = true) ∧ (∀ (k : Fin 64), (s.blk.chan ↑k).pwr = ChanPwr.awake))
    ∧ (∃ (s : State) (j : Fin 16) (lost : BitVec 64) (edge : List (Nat × Nat)), (s.blk.carries = true) ∧ (∀ (k : Fin 64), (s.blk.chan ↑k).pwr = ChanPwr.awake) ∧ (1 ≤ ↑j) ∧ (∀ (k : Fin 64), lost.getLsbD ↑k = decide (4 * j.val ≤ k.val)))
    ∧ (∃ (s : State) (edge : List (Nat × Nat)), (s.blk.carries = true) ∧ (∀ (k : Fin 64), (s.blk.chan ↑k).pwr = ChanPwr.awake)) :=
  ⟨⟨quay0, 0, 2, badWord, by decide +kernel⟩,
   ⟨(colN fun x => { x with replays := List.replicate 7 0x1000000 }), 0, 2, badWord, by decide +kernel⟩,
   ⟨(chT 0x1000000 fun x => { x with pwr := .entering, preab := some 0xFFFFFD, sre := some 0x1000015 }), 0, 6, badWord, by decide +kernel⟩,
   ⟨quay0, 0, 2, (caEncode 5), by decide +kernel⟩,
   ⟨quay0, 0, [], by decide +kernel⟩,
   ⟨quay0, 7, [(7, 600)], by decide +kernel⟩,
   ⟨quay0, 3, 0xFFFFFFFFFFFFF000, [], by decide +kernel⟩,
   ⟨quay0, [], by decide +kernel⟩⟩

theorem hypotheses_scrubAndStackResets :
    (∃ (s : State) (m : ManRef) (start : BitVec 64) (len : BitVec 64) (flags : BitVec 32), (s.blk.mans Mop.scrubRange) ∧ (s.blk.inService = true) ∧ (start.toNat % 64 = 0) ∧ (len ≠ 0) ∧ (len.toNat % 64 = 0) ∧ (start.toNat + len.toNat ≤ pierBytes) ∧ (flags.toNat < 4) ∧ (s.blk.prot.scrub = none) ∧ (s.blk.stk.rst = StackRst.none))
    ∧ (∃ (s : State) (m : ManRef) (start : BitVec 64) (len : BitVec 64) (flags : BitVec 32), (s.blk.mans Mop.scrubRange) ∧ (start.toNat % 64 ≠ 0 ∨ len = 0 ∨ len.toNat % 64 ≠ 0 ∨ pierBytes < start.toNat + len.toNat ∨ 4 ≤ flags.toNat))
    ∧ (∃ (s : State) (m : ManRef) (start : BitVec 64) (len : BitVec 64) (flags : BitVec 32), (s.blk.mans Mop.scrubRange) ∧ (s.blk.inService = true) ∧ (start.toNat % 64 = 0) ∧ (len ≠ 0) ∧ (len.toNat % 64 = 0) ∧ (start.toNat + len.toNat ≤ pierBytes) ∧ (flags.toNat < 4) ∧ (s.blk.prot.scrub.isSome = true ∨ s.blk.stk.rst ≠ StackRst.none))
    ∧ (∃ (s : State) (sc : Scrub) (dmg : List Damage), (s.blk.prot.scrub = some sc) ∧ (s.blk.coreRuns = true) ∧ (∀ (n : Fin 64), (s.blk.chan ↑n).scrubNext = none))
    ∧ (∃ (s : State) (sc : Scrub) (dmg : List Damage), (s.blk.prot.scrub = some sc) ∧ (s.blk.coreRuns = true) ∧ (∀ (n : Fin 64), s.blk.scrubFits ↑n = true))
    ∧ (∃ (s : State) (m : ManRef) (die : BitVec 8), (s.blk.mans Mop.stackDieReset) ∧ (16 ≤ die.toNat))
    ∧ (∃ (s : State) (m : ManRef) (k : Fin 16), (s.blk.mans Mop.stackDieReset) ∧ (s.blk.inService = true) ∧ (s.blk.stk.rst = StackRst.none) ∧ ((s.blk.qy.reqs.all fun r ↦ r.parts.all fun p ↦ dieOf p.berth != ↑k) = true))
    ∧ (∃ (s : State) (k : Fin 16) (m : ManRef), (s.blk.stk.rst = StackRst.dieHeld k m) ∧ (s.blk.stk.dman = false) ∧ (usTicks ≤ s.blk.since s.blk.stk.rstAt))
    ∧ (∃ (s : State) (k : Fin 16) (m : ManRef), (s.blk.stk.rst = StackRst.dieHeld k m) ∧ (s.blk.stk.dman = true ∨ s.blk.since s.blk.stk.rstAt < usTicks))
    ∧ (∃ (s : State) (k : Fin 16) (m : ManRef) (pass : BitVec 4) (flight : List (Nat × Nat)), (s.blk.stk.rst = StackRst.dieCal k m) ∧ (s.blk.stk.dman = false) ∧ (s.blk.coreRuns = true) ∧ (∀ (i : Fin 4), (s.blk.measured (List.filter (fun e ↦ dieOf e.fst == ↑k) flight)).flightOk (4 * ↑k + ↑i) = true))
    ∧ (∃ (s : State) (m : ManRef), (s.blk.mans Mop.stackReset) ∧ (s.blk.inService = true) ∧ (s.blk.stk.rst = StackRst.none) ∧ (s.blk.prot.scrub = none) ∧ (∀ (n : Fin 64), (s.blk.berth ↑n).st = BerthState.absent))
    ∧ (∃ (s : State) (m : ManRef) (n : Fin 64), (s.blk.mans Mop.stackReset) ∧ (s.blk.inService = true) ∧ (s.blk.stk.rst = StackRst.none) ∧ ((s.blk.berth ↑n).st ≠ BerthState.absent))
    ∧ (∃ (s : State) (m : ManRef), (s.blk.stk.rst = StackRst.stackHeld m) ∧ (usTicks ≤ s.blk.since s.blk.stk.rstAt))
    ∧ (∃ (s : State) (m : ManRef) (pass : BitVec 64) (flight : List (Nat × Nat)), (s.blk.stk.rst = StackRst.stackTest m) ∧ (∀ (n : Fin 64), (s.blk.measured flight).flightOk ↑n = true))
    ∧ (∃ (s : State) (pass : BitVec 64) (lost : BitVec 64) (flight : List (Nat × Nat)), (s.blk.qy.resetting = true) ∧ (s.blk.coreRuns = true)) :=
  ⟨⟨quay0, m0, 0x1000, 0x2000, 3, by decide +kernel⟩,
   ⟨(manS 0x20 quayB), m0, 0x1001, 0x2000, 3, by decide +kernel⟩,
   ⟨(manS 0x20 { quayB with stk.rst := .stackHeld m0 }), m0, 0x1000, 0x2000, 3, by decide +kernel⟩,
   ⟨(manS 0x20 { quayB with prot.scrub := some { m := m0, first := 0, last := 5, writeback := false, poisonUe := false, read := 6 } }), { m := m0, first := 0, last := 5, writeback := false, poisonUe := false, read := 6 }, [], by decide +kernel⟩,
   ⟨(scrS 0x1000000000), scr, [⟨3, 5, 7, true⟩], by decide +kernel⟩,
   ⟨(manS 0x90 quayB), m0, 16, by decide +kernel⟩,
   ⟨(manS 0x90 quayB), m0, 3, by decide +kernel⟩,
   ⟨(rstS (.dieHeld 3 m0)), 3, m0, by decide +kernel⟩,
   ⟨(st { quayB with stk.rst := .dieHeld 3 m0, stk.dman := true }), 3, m0, by decide +kernel⟩,
   ⟨(manS 0x90 { quayB with stk.rst := .dieCal 3 m0 }), 3, m0, 0xD, [], by decide +kernel⟩,
   ⟨(manS 0x91 noneB), m0, by decide +kernel⟩,
   ⟨(manS 0x91 quayB), m0, 5, by decide +kernel⟩,
   ⟨(rstS (.stackHeld m0)), m0, by decide +kernel⟩,
   ⟨(manS 0x91 { noneB with stk.rst := .stackTest m0 }), m0, 0xFFFF00000000FFFF, [], by decide +kernel⟩,
   ⟨(st { noneB with qy.resetting := true, stk.dman := true }), 5, 0, [], by decide +kernel⟩⟩

theorem hypotheses_watchRounds :
    (∃ (s : State) (r : Readings), (s.blk.roundRuns = false ∨ s.blk.crossed msTicks s.blk.heat.roundAt = false))
    ∧ (∃ (s : State) (r : Readings), (s.blk.roundRuns = true) ∧ (s.blk.crossed msTicks s.blk.heat.roundAt = true) ∧ (s.blk.pw.st ≠ PierState.tripped)) :=
  ⟨⟨dark0, coolR, by decide +kernel⟩,
   ⟨open0, coolR, by decide +kernel⟩⟩

theorem hypotheses_tripsAndSensors :
    (∃ (s : State) (n : Fin 56), ((s.blk.sensor ↑n).st ≠ SensState.excluded) ∧ (s.blk.pw.st ≠ PierState.dark) ∧ (s.blk.pw.st ≠ PierState.tripped) ∧ (s.blk.pw.st ≠ PierState.frozen))
    ∧ (∃ (s : State) (n : Fin 56), ((s.blk.sensor ↑n).st ≠ SensState.excluded) ∧ (s.blk.pw.st = PierState.frozen))
    ∧ (∃ (s : State) (n : Fin 56), ((s.blk.sensor ↑n).st = SensState.excluded ∨ s.blk.pw.st = PierState.dark ∨ s.blk.pw.st = PierState.tripped))
    ∧ (∃ (s : State) (r : Trip), (s.blk.heat.tripRec = some r) ∧ (s.blk.heat.tripMark = false) ∧ (s.blk.sv.logDisabled = false))
    ∧ (∃ (s : State) (r : Trip), (s.blk.heat.tripRec = some r) ∧ (s.blk.heat.tripMark = false) ∧ (s.blk.sv.logDisabled = false))
    ∧ (∃ (s : State) (m : ManRef) (n : Fin 56) (fl : BitVec 8), (s.blk.mans Mop.sensorReplace) ∧ (4 ≤ fl.toNat) ∧ (fl.toNat ≤ 7))
    ∧ (∃ (s : State) (m : ManRef) (n : Fin 56) (fl : BitVec 8), (s.blk.mans Mop.sensorReplace))
    ∧ (∃ (s : State) (m : ManRef) (n : BitVec 8) (a : BitVec 8) (fl : BitVec 8), (s.blk.mans Mop.sensorReplace) ∧ (56 ≤ n.toNat ∨ 1 < a.toNat ∨ a = 0 ∧ (fl.toNat < 4 ∨ 7 < fl.toNat)))
    ∧ (∃ (s : State) (m : ManRef), (s.blk.mans Mop.thermStatus)) :=
  ⟨⟨open0, 3, by decide +kernel⟩,
   ⟨(st { openB with pw.st := .frozen }), 3, by decide +kernel⟩,
   ⟨dark0, 3, by decide +kernel⟩,
   ⟨(st { openB with heat.tripRec := some tripR }), tripR, by decide +kernel⟩,
   ⟨(st { openB with heat.tripRec := some tripR }), tripR, by decide +kernel⟩,
   ⟨(manS 0x61 quayB), m0, 40, 6, by decide +kernel⟩,
   ⟨(manS 0x61 quayB), m0, 40, 0, by decide +kernel⟩,
   ⟨(manS 0x61 quayB), m0, 40, 0, 3, by decide +kernel⟩,
   ⟨(manS 0x60 quayB), m0, by decide +kernel⟩⟩

theorem hypotheses_chartersOpenAndClose :
    (∃ (s : State) (m : ManRef) (d : CharterDesc), (s.blk.mans Mop.charterOpen) ∧ (s.blk.chs.passDue = false) ∧ (s.blk.chs.waking = []) ∧ (CharterDesc'.legal d = true) ∧ (s.blk.pw.st = PierState.openS) ∧ (s.blk.overlapped d = []) ∧ (s.blk.suspendeds = []) ∧ ((s.blk.chartersIn fun x ↦ true).length < 4096) ∧ (s.blk.check true (List.map (fun x ↦ x.snd) s.blk.actives ++ [d]) = none) ∧ (s.blk.freeIndices ≠ []) ∧ (CharterDesc'.noSleep d = false ∨ s.blk.allAwake d = true))
    ∧ (∃ (s : State) (m : ManRef) (d : CharterDesc), (s.blk.mans Mop.charterOpen) ∧ (s.blk.chs.passDue = false) ∧ (s.blk.chs.waking = []) ∧ (CharterDesc'.legal d = true) ∧ (s.blk.pw.st = PierState.openS) ∧ (s.blk.overlapped d = []) ∧ (s.blk.suspendeds = []) ∧ ((s.blk.chartersIn fun x ↦ true).length < 4096) ∧ (s.blk.check true (List.map (fun x ↦ x.snd) s.blk.actives ++ [d]) = none) ∧ (s.blk.freeIndices ≠ []) ∧ (CharterDesc'.noSleep d = true) ∧ (s.blk.allAwake d = false))
    ∧ (∃ (s : State) (m : ManRef) (d : CharterDesc) (x : Short), (s.blk.mans Mop.charterOpen) ∧ (s.blk.chs.passDue = false) ∧ (s.blk.chs.waking = []) ∧ (CharterDesc'.legal d = true) ∧ (s.blk.pw.st = PierState.openS) ∧ (s.blk.overlapped d = []) ∧ (s.blk.suspendeds = []) ∧ ((s.blk.chartersIn fun x ↦ true).length < 4096) ∧ (s.blk.check true (List.map (fun x ↦ x.snd) s.blk.actives ++ [d]) = some x))
    ∧ (∃ (s : State) (m : ManRef) (d : CharterDesc), (s.blk.mans Mop.charterOpen) ∧ (s.blk.chs.passDue = false) ∧ (s.blk.chs.waking = []) ∧ (CharterDesc'.legal d = true) ∧ (s.blk.pw.st ≠ PierState.openS ∨ s.blk.overlapped d ≠ [] ∨ s.blk.suspendeds ≠ []))
    ∧ (∃ (s : State) (m : ManRef) (d : CharterDesc), (s.blk.mans Mop.charterOpen) ∧ (CharterDesc'.legal d = false))
    ∧ (∃ (s : State) (m : ManRef) (d : CharterDesc), (s.blk.mans Mop.charterOpen) ∧ (CharterDesc'.legal d = true) ∧ (s.blk.chs.passDue = true ∨ s.blk.chs.waking ≠ []))
    ∧ (∃ (s : State) (m : ManRef) (c : BitVec 16), (s.blk.mans Mop.charterClose) ∧ (s.blk.passBusy = false) ∧ (c.toNat < 4096) ∧ ((s.blk.charter c.toNat).st = ChState.active))
    ∧ (∃ (s : State) (m : ManRef) (c : BitVec 16), (s.blk.mans Mop.charterClose) ∧ (s.blk.passBusy = false) ∧ (c.toNat < 4096) ∧ ((s.blk.charter c.toNat).st = ChState.suspended))
    ∧ (∃ (s : State) (m : ManRef) (c : BitVec 16), (s.blk.mans Mop.charterClose) ∧ (4096 ≤ c.toNat ∨ (s.blk.charter c.toNat).st = ChState.free ∧ s.blk.passBusy = false))
    ∧ (∃ (s : State) (m : ManRef) (c : BitVec 16), (s.blk.mans Mop.charterClose) ∧ (s.blk.passBusy = false) ∧ (c.toNat < 4096) ∧ ((s.blk.charter c.toNat).st = ChState.closing))
    ∧ (∃ (s : State) (c : BitVec 12) (m : ManRef), (s.blk.live = true) ∧ ((s.blk.charter c.toNat).st = ChState.closing) ∧ (s.blk.charterBusy c.toNat = false) ∧ ((s.blk.charter c.toNat).waiter = some m))
    ∧ (∃ (s : State) (c : BitVec 12), ((s.blk.charter c.toNat).st ≠ ChState.closing ∨ s.blk.charterBusy c.toNat = true))
    ∧ (∃ (s : State) (m : ManRef) (c : BitVec 16), (s.blk.mans Mop.charterQuery) ∧ (c.toNat < 4096))
    ∧ (∃ (s : State) (m : ManRef) (c : BitVec 16), (s.blk.mans Mop.charterClose) ∧ (c.toNat < 4096) ∧ (s.blk.passBusy = true))
    ∧ (∃ (s : State) (m : ManRef) (c : BitVec 16), (s.blk.mans Mop.charterQuery) ∧ (4096 ≤ c.toNat)) :=
  ⟨⟨(manS 0x10 quayB), m0, chD, by decide +kernel⟩,
   ⟨(manS 0x10 { quayB with chans := allOf 64 { pwr := .selfRefresh } }), m0, { chD with flags := 7 }, by decide +kernel⟩,
   ⟨(manS 0x10 quayB), m0, bigD, { reason := 5, place := 0, need := 262400, have_ := 593 }, by decide +kernel⟩,
   ⟨(manS 0x10 { quayB with pw.st := .harbour }), m0, chD, by decide +kernel⟩,
   ⟨(manS 0x10 quayB), m0, { chD with rank := 16 }, by decide +kernel⟩,
   ⟨(manS 0x10 { quayB with chs.passDue := true }), m0, chD, by decide +kernel⟩,
   ⟨(manS 0x11 (chB { st := .active })), m0, 7, by decide +kernel⟩,
   ⟨(manS 0x11 (chB { st := .suspended, inb := 3 })), m0, 7, by decide +kernel⟩,
   ⟨(manS 0x11 quayB), m0, 7, by decide +kernel⟩,
   ⟨(manS 0x11 (chB { st := .closing })), m0, 7, by decide +kernel⟩,
   ⟨(manS 0x11 (chB { st := .closing, waiter := some m0 })), 7, m0, by decide +kernel⟩,
   ⟨quay0, 7, by decide +kernel⟩,
   ⟨(manS 0x12 (chB { st := .active })), m0, 7, by decide +kernel⟩,
   ⟨(manS 0x11 { quayB with chs.passDue := true }), m0, 7, by decide +kernel⟩,
   ⟨(manS 0x12 quayB), m0, 4096, by decide +kernel⟩⟩

theorem hypotheses_charterPasses :
    (∃ (s : State), (s.blk.live = true) ∧ (s.blk.chs.passDue = true))
    ∧ (∃ (s : State), (s.blk.live = true) ∧ (s.blk.chs.passDue = true) ∧ (s.blk.check false (List.map (fun x ↦ x.snd) s.blk.actives) = none))
    ∧ (∃ (s : State), (s.blk.chs.passDue = false))
    ∧ (∃ (s : State), (s.blk.live = true) ∧ (s.blk.pw.st = PierState.openS) ∧ (s.blk.chs.passDue = false) ∧ (s.blk.restoreHeld = true))
    ∧ (∃ (s : State), (s.blk.pw.st ≠ PierState.openS ∨ s.blk.chs.passDue = true ∨ s.blk.restoreHeld = false)) :=
  ⟨⟨(st { chB { st := .active } with chs.passDue := true, chans := allOf 64 { pwr := .awake, stepDue := some 5 } }), by decide +kernel⟩,
   ⟨(st { chB { st := .active } with chs.passDue := true }), by decide +kernel⟩,
   ⟨quay0, by decide +kernel⟩,
   ⟨(st { chB { st := .suspended } with ck.tide := 0x1000000000 }), by decide +kernel⟩,
   ⟨harbour0, by decide +kernel⟩⟩

theorem hypotheses_calibrationAndSurveyRuns :
    (∃ (s : State) (m : ManRef) (cls : BitVec 8) (mask : BitVec 64), (s.blk.mans Mop.calRun) ∧ (cls = 1 ∨ cls = 2) ∧ (s.blk.sv.run = none) ∧ (mask ≠ 0) ∧ ((maskUnits mask).all (s.blk.calUnit cls.toNat) = true))
    ∧ (∃ (s : State) (m : ManRef) (cls : BitVec 8) (mask : BitVec 64), (s.blk.mans Mop.calRun) ∧ (2 < cls.toNat ∨ cls = 0 ∧ ((maskUnits mask).any fun i ↦ decide (32 ≤ i)) = true))
    ∧ (∃ (s : State) (m : ManRef) (cls : BitVec 8), (s.blk.mans Mop.calRun) ∧ (cls.toNat ≤ 2) ∧ (s.blk.sv.run = none))
    ∧ (∃ (s : State) (u : Fin 64) (fl : Nat), (s.blk.live = true) ∧ (s.blk.coreRuns = true) ∧ (s.blk.calMay 0 ↑u = true))
    ∧ (∃ (s : State) (u : Fin 64) (fl : Nat), (s.blk.live = true) ∧ (s.blk.coreRuns = true) ∧ (s.blk.calMay 1 ↑u = true) ∧ (fl ≤ flightLimit ↑u) ∧ ((s.blk.chan ↑u).returning = false))
    ∧ (∃ (s : State) (cls : Fin 3) (u : Fin 64) (p : Bool) (fl : Nat), (s.blk.live = false ∨ s.blk.coreRuns = false ∨ s.blk.calMay ↑cls ↑u = false))
    ∧ (∃ (s : State) (u : Fin 64) (fl : Nat) (r : CalRun), (s.blk.live = true) ∧ (s.blk.coreRuns = true) ∧ (s.blk.calMay 2 ↑u = true) ∧ ((s.blk.chan ↑u).returning = false) ∧ (s.blk.sv.cal = [r]) ∧ (r.cls = 2) ∧ (r.todo = chBit ↑u))
    ∧ (∃ (s : State) (u : Fin 64) (p : Bool) (fl : Nat), (s.blk.live = true) ∧ (s.blk.coreRuns = true) ∧ (s.blk.calMay 1 ↑u = true) ∧ (p = false ∨ flightLimit ↑u < fl) ∧ (2 ≤ tget (fun x ↦ 0) (s.blk.chan ↑u).calFails 1))
    ∧ (∃ (s : State) (u : Fin 64) (fl : Nat), (s.blk.live = true) ∧ (s.blk.coreRuns = true) ∧ (s.blk.calMay 2 ↑u = true) ∧ ((s.blk.chan ↑u).returning = false) ∧ (tget (fun x ↦ 0) (s.blk.chan ↑u).calFails 2 ≠ 0))
    ∧ (∃ (s : State) (m : ManRef) (l : Fin 32), (s.blk.mans Mop.calStatus))
    ∧ (∃ (s : State) (m : ManRef) (n : Fin 64), (s.blk.mans Mop.calStatus))
    ∧ (∃ (s : State) (m : ManRef) (mask : BitVec 64), (s.blk.mans Mop.surveyRun) ∧ (s.blk.sv.run = none) ∧ (s.blk.domOn svDom = true) ∧ (s.blk.sv.svOk = true) ∧ ((maskUnits mask).all (s.blk.surveyable 1) = true))
    ∧ (∃ (s : State) (m : ManRef) (n : Fin 64), (s.blk.mans Mop.surveyRun) ∧ (s.blk.sv.run = none) ∧ (s.blk.surveyable 1 ↑n = false))
    ∧ (∃ (s : State) (m : ManRef) (l : Fin 32), (s.blk.mans Mop.calRun) ∧ (s.blk.sv.run = none) ∧ (s.blk.laneBusy (laneSide ↑l) (some m) = false) ∧ (s.blk.calUnit 0 ↑l = true))
    ∧ (∃ (s : State) (f : SurveyFindings), (s.blk.sv.run = none ∨ s.blk.hmRuns = false ∨ s.blk.coreRuns = false))
    ∧ (∃ (s : State) (r : SurveyRun) (f : SurveyFindings), (s.blk.sv.run = some r) ∧ (s.blk.hmRuns = true) ∧ (s.blk.coreRuns = true)) :=
  ⟨⟨(manS 0x31 quayB), m0, 1, 5, by decide +kernel⟩,
   ⟨(manS 0x31 quayB), m0, 3, 5, by decide +kernel⟩,
   ⟨(manS 0x31 quayB), m0, 1, by decide +kernel⟩,
   ⟨(st { (quayB.modLane 7 fun x => { x with calPending := true }) with east.win := some { own := true, cal := true, slots := 3 }, west.win := some { own := true, cal := true, slots := 3 } }), 7, 3, by decide +kernel⟩,
   ⟨(calS fun x => x), 7, 30, by decide +kernel⟩,
   ⟨quay0, 1, 7, true, 30, by decide +kernel⟩,
   ⟨(manS 0x31 { (calS fun x => x).blk with sv.cal := [{ m := m0, cls := 2, todo := 2, passed := 1, failed := 4 }] }), 1, 0, { m := m0, cls := 2, todo := 2, passed := 1, failed := 4 }, by decide +kernel⟩,
   ⟨(calS fun x => { x with calFails := [(1, 2)] }), 0, false, 5, by decide +kernel⟩,
   ⟨(calS fun x => { x with calFails := [(2, 2)] }), 0, 30, by decide +kernel⟩,
   ⟨(manS 0x32 quayB), m0, 31, by decide +kernel⟩,
   ⟨(manS 0x32 quayB), m0, 63, by decide +kernel⟩,
   ⟨(manS 0x30 { noneB with sv.svOk := true }), m0, 5, by decide +kernel⟩,
   ⟨(manS 0x30 quayB), m0, 5, by decide +kernel⟩,
   ⟨(manS 0x31 quayB), m0, 9, by decide +kernel⟩,
   ⟨quay0, {}, by decide +kernel⟩,
   ⟨(manS 0x30 { noneB with sv.run := some { m := m0, scope := 1, mask := 5 }, sv.busy := true }), { m := m0, scope := 1, mask := 5 }, {}, by decide +kernel⟩⟩

theorem hypotheses_clocksDomainsAndShutdown :
    (∃ (s : State) (m : ManRef), (s.blk.mans Mop.clockSwitch) ∧ (s.blk.ck.xtalOk = true) ∧ (s.blk.ck.root.lock = true))
    ∧ (∃ (s : State) (m : ManRef) (dom : BitVec 8), (s.blk.mans Mop.clockSwitch) ∧ (dom = 13 ∨ dom = 14) ∧ (s.blk.ck.root.lock = true))
    ∧ (∃ (s : State) (m : ManRef) (dom : BitVec 8) (src : BitVec 8) (d : Bool), (s.blk.mans Mop.clockSwitch) ∧ (3 ≤ src.toNat ∨ dom ≠ 48 ∧ dom ≠ 15 ∧ dom ≠ 13 ∧ dom ≠ 14 ∨ src = 2 ∧ (dom = 13 ∨ dom = 14)))
    ∧ (∃ (s : State) (m : ManRef) (d : Bool), (s.blk.mans Mop.clockSwitch) ∧ (s.blk.ck.xtalOk = false))
    ∧ (∃ (s : State) (m : ManRef), (s.blk.mans Mop.clockSwitch) ∧ (s.blk.ck.rcOk = true) ∧ (s.blk.ck.root.lock = true) ∧ (s.blk.ck.hkSrc = ClkSrc.pllRoot))
    ∧ (∃ (s : State) (m : ManRef), (s.blk.mans Mop.recover) ∧ (s.blk.ck.xtalOk = true) ∧ (s.blk.ck.root.down = false))
    ∧ (∃ (s : State) (m : ManRef), (s.blk.mans Mop.recover) ∧ (s.blk.ck.xtalOk = false))
    ∧ (∃ (s : State) (m : ManRef), (s.blk.mans Mop.recover) ∧ (s.blk.ck.west.down = true))
    ∧ (∃ (s : State) (m : ManRef) (a : BitVec 8), (s.blk.mans Mop.recover) ∧ (2 ≤ a.toNat))
    ∧ (∃ (s : State) (m : ManRef), (s.blk.live = true) ∧ (s.blk.ck.recover = some m) ∧ (1024 * 32 ≤ s.blk.since s.blk.ck.recoverAt))
    ∧ (∃ (s : State) (ok : Bool), (s.blk.live = false ∨ s.blk.ck.recover = none ∨ s.blk.since s.blk.ck.recoverAt < if ok = true then 1024 * 32 else 5 * msTicks))
    ∧ (∃ (s : State) (m : ManRef), (s.blk.live = true) ∧ (s.blk.ck.recover = some m) ∧ (s.blk.ck.aonSrc = ClkSrc.rc) ∧ (s.blk.ck.root.lock = false) ∧ (5 * msTicks ≤ s.blk.since s.blk.ck.recoverAt))
    ∧ (∃ (s : State) (m : ManRef) (d : DomId), (s.blk.mans Mop.powerDomain) ∧ (s.blk.domHeld ↑d = false) ∧ ((s.blk.dom ↑d).st = DomState.on))
    ∧ (∃ (s : State) (m : ManRef) (d : DomId) (a : BitVec 8), (s.blk.mans Mop.powerDomain) ∧ (s.blk.domHeld ↑d = false) ∧ (a = 0 ∨ a = 1) ∧ ((s.blk.dom ↑d).st = DomState.powering ∨ (s.blk.dom ↑d).st = DomState.draining))
    ∧ (∃ (s : State) (m : ManRef) (d : BitVec 8) (a : BitVec 8), (s.blk.mans Mop.powerDomain) ∧ (48 ≤ d.toNat ∨ 2 ≤ a.toNat))
    ∧ (∃ (s : State) (m : ManRef) (d : DomId), (s.blk.mans Mop.powerDomain) ∧ (s.blk.domHeld ↑d = false) ∧ ((s.blk.dom ↑d).st = DomState.off) ∧ (16 ≤ ↑d))
    ∧ (∃ (s : State) (m : ManRef) (d : DomId) (a : BitVec 8), (s.blk.mans Mop.powerDomain) ∧ (s.blk.domHeld ↑d = true) ∧ (a = 0 ∨ a = 1))
    ∧ (∃ (s : State) (m : ManRef) (n : Bool), (s.blk.mans Mop.shutdown)) :=
  ⟨⟨(manS 0x50 quayB), m0, by decide +kernel⟩,
   ⟨(manS 0x50 { quayB with ck.tlSrc := .crystal }), m0, 14, by decide +kernel⟩,
   ⟨(manS 0x50 quayB), m0, 14, 2, false, by decide +kernel⟩,
   ⟨(manS 0x50 { quayB with ck.xtalOk := false }), m0, false, by decide +kernel⟩,
   ⟨(manS 0x50 { quayB with ck.rcOk := true }), m0, by decide +kernel⟩,
   ⟨(manS 0xA1 quayB), m0, by decide +kernel⟩,
   ⟨(manS 0xA1 { quayB with ck.xtalOk := false }), m0, by decide +kernel⟩,
   ⟨(manS 0xA1 { quayB with ck.west := { down := true, tries := 3, gaveUp := true } }), m0, by decide +kernel⟩,
   ⟨(manS 0xA1 quayB), m0, 2, by decide +kernel⟩,
   ⟨(manS 0xA1 { quayB with ck.recover := some m0, ck.xtalOk := false, ck.aonSrc := .rc }), m0, by decide +kernel⟩,
   ⟨quay0, true, by decide +kernel⟩,
   ⟨(manS 0xA1 { quayB with ck.recover := some m0, ck.xtalOk := false, ck.aonSrc := .rc, ck.root := {} }), m0, by decide +kernel⟩,
   ⟨(manS 0x52 quayB), m0, 20, by decide +kernel⟩,
   ⟨(manS 0x52 (quayB.modDom 20 fun x => { x with st := .draining })), m0, 20, 0, by decide +kernel⟩,
   ⟨(manS 0x52 quayB), m0, 48, 0, by decide +kernel⟩,
   ⟨(manS 0x52 (quayB.modDom 20 fun x => { x with st := .off })), m0, 20, by decide +kernel⟩,
   ⟨(manS 0x52 { quayB with ck.coreGated := true }), m0, 20, 1, by decide +kernel⟩,
   ⟨(manS 0xA0 (chB { st := .active })), m0, true, by decide +kernel⟩⟩

theorem hypotheses_talliesAndDumps :
    (∃ (s : State) (d : DumpParams), (s.blk.dumpRuns = true) ∧ (s.blk.crossed s.blk.tl.period s.blk.tl.periodAt = true) ∧ (s.blk.tl.nextCfg = none) ∧ (s.blk.tl.cfg = some d) ∧ (d.mode = 1) ∧ (s.blk.tl.busy = false))
    ∧ (∃ (s : State) (d : DumpParams), (s.blk.dumpRuns = true) ∧ (s.blk.crossed s.blk.tl.period s.blk.tl.periodAt = true) ∧ (s.blk.tl.nextCfg = none) ∧ (s.blk.tl.cfg = some d) ∧ (d.mode ≠ 0) ∧ (s.blk.tl.busy = true))
    ∧ (∃ (s : State) (d : DumpParams), (s.blk.dumpRuns = true) ∧ (s.blk.crossed s.blk.tl.period s.blk.tl.periodAt = true) ∧ (s.blk.tl.nextCfg = some d) ∧ (d.mode = 0))
    ∧ (∃ (s : State), (s.blk.dumpRuns = false ∨ s.blk.crossed s.blk.tl.period s.blk.tl.periodAt = false ∨ s.blk.tl.nextCfg = none ∧ s.blk.tl.cfg = none))
    ∧ (∃ (s : State), (s.blk.tl.busy = true) ∧ (s.blk.dumpRuns = true) ∧ (s.blk.tl.imageRemote = true) ∧ ((s.blk.qy.ins.any fun i ↦ i.level == 8) = false))
    ∧ (∃ (s : State), (s.blk.tl.busy = true) ∧ (s.blk.dumpRuns = true) ∧ (s.blk.tl.imageRemote = false) ∧ (dumpBase ≤ s.blk.tl.imageAt) ∧ (s.blk.tl.imageAt % 64 = 0) ∧ (∀ (g : Nat), g ∈ s.blk.tl.left → g ∈ s.blk.tl.imageGranules) ∧ ((List.range 64).all s.blk.dumpFits = true))
    ∧ (∃ (s : State), (s.blk.tl.busy = false ∨ s.blk.dumpRuns = false ∨ s.blk.tl.imageRemote = false ∧ (List.range 64).all s.blk.dumpFits = false))
    ∧ (∃ (s : State), (s.blk.crossed (max 1 s.blk.tl.winUs.toNat * usTicks) s.blk.tl.winAt = false))
    ∧ (∃ (s : State), (s.blk.live = true) ∧ (s.blk.coreRuns = true) ∧ (s.blk.domOn tlDom = true) ∧ (s.blk.crossed (max 1 s.blk.tl.winUs.toNat * usTicks) s.blk.tl.winAt = true))
    ∧ (∃ (s : State) (m : ManRef) (blk : BitVec 8) (c : BitVec 8) (sel : BitVec 16), (s.blk.mans Mop.tallyConfig) ∧ (blk.toNat ≤ 68) ∧ (c.toNat ≤ 7) ∧ (selectorOk blk.toNat sel.toNat = true) ∧ (s.blk.domOn (tallyDom blk.toNat) = true))
    ∧ (∃ (s : State) (m : ManRef) (blk : BitVec 8) (c : BitVec 8) (sel : BitVec 16), (s.blk.mans Mop.tallyConfig) ∧ (68 < blk.toNat ∨ 7 < c.toNat ∨ selectorOk blk.toNat sel.toNat = false))
    ∧ (∃ (s : State) (m : ManRef) (d : DumpParams), (s.blk.mans Mop.dumpConfig) ∧ (DumpParams.legal d = true))
    ∧ (∃ (s : State) (m : ManRef) (d : DumpParams), (s.blk.mans Mop.dumpConfig) ∧ (DumpParams.legal d = false)) :=
  ⟨⟨(st { quayB with tl.cfg := some dmp }), dmp, by decide +kernel⟩,
   ⟨(st { quayB with tl.cfg := some dmp, tl.busy := true }), dmp, by decide +kernel⟩,
   ⟨(st { quayB with tl.nextCfg := some { dmp with mode := 0 } }), { dmp with mode := 0 }, by decide +kernel⟩,
   ⟨quay0, by decide +kernel⟩,
   ⟨(st { quayB with tl.cfg := some dmp, tl.busy := true, tl.image := img0, tl.imageRemote := true }), by decide +kernel⟩,
   ⟨(st { quayB with tl.cfg := some dmp, tl.busy := true, tl.image := img0, tl.imageAt := 0x1FF0000000, tl.left := [0x7FC00000, 0x7FC00001] }), by decide +kernel⟩,
   ⟨quay0, by decide +kernel⟩,
   ⟨(st { quayB with ck.tide := 5 }), by decide +kernel⟩,
   ⟨(st { quayB with tl.bytes := [(3, 5000)], tl.peak := [(3, 2)] }), by decide +kernel⟩,
   ⟨(manS 0x70 quayB), m0, 68, 7, 0x1081, by decide +kernel⟩,
   ⟨(manS 0x70 quayB), m0, 69, 7, 0x1081, by decide +kernel⟩,
   ⟨(manS 0x71 quayB), m0, dmp, by decide +kernel⟩,
   ⟨(manS 0x71 quayB), m0, { dmp with mode := 3 }, by decide +kernel⟩⟩

theorem hypotheses_manifestsArrive :
    (∃ (s : State) (sd : Side) (f : Flit), (f.kind = 3) ∧ (s.blk.decides = true) ∧ (s.blk.hmRuns = true) ∧ (fragmentOk f = false))
    ∧ (∃ (s : State) (sd : Side) (f : Flit), (f.kind = 3) ∧ (s.blk.decides = true) ∧ (s.blk.hmRuns = true) ∧ (fragmentOk f = true) ∧ (2 ≤ f.arg.toNat / 65536) ∧ (List.find? (fun x ↦ x.side == sd && x.src == f.src && x.tag == f.tag) s.blk.mf.reasm = none) ∧ (List.countP (fun x ↦ x.side == sd) s.blk.mf.reasm < 8) ∧ ((s.blk.mf.reasm.all fun r ↦ !r.late (s.blk.takeClaimed sd f).qy.claimAt) = true))
    ∧ (∃ (s : State) (sd : Side) (f : Flit), (f.kind ≠ 3 ∨ s.blk.decides = false ∨ s.blk.hmRuns = false))
    ∧ (∃ (s : State) (sd : Side) (src : BitVec 15) (tag : BitVec 16) (r : Reasm), (List.find? (fun x ↦ x.side == sd && x.src == src && x.tag == tag) s.blk.mf.reasm = some r) ∧ (r.late s.blk.ck.tide = true))
    ∧ (∃ (s : State) (sd : Side) (src : BitVec 15) (tag : BitVec 16), (Option.all (fun r ↦ !r.late s.blk.ck.tide) (List.find? (fun x ↦ x.side == sd && x.src == src && x.tag == tag) s.blk.mf.reasm) = true))
    ∧ (∃ (s : State) (p : Path) (v : Word), (p = Path.inBand ∨ BitVec.getLsbD v 31 = false ∨ s.blk.sidebandOpen = false ∨ s.blk.hmRuns = false))
    ∧ (∃ (s : State) (p : Path) (v : Word), (p ≠ Path.inBand) ∧ (BitVec.getLsbD v 31 = true) ∧ (s.blk.sidebandOpen = true) ∧ (s.blk.hmRuns = true) ∧ (BitVec.toNat v % 2 ^ 13 < 64))
    ∧ (∃ (s : State) (v : Word) (bs : List Byte) (lv : Nat) (p : Nat), (BitVec.getLsbD v 31 = true) ∧ (s.blk.sidebandOpen = true) ∧ (s.blk.hmRuns = true) ∧ (64 ≤ BitVec.toNat v % 2 ^ 13) ∧ (BitVec.toNat v % 2 ^ 13 ≤ 4160) ∧ (List.map (fun i ↦ tget (fun x ↦ 0) (s.blk.mbox Path.i3c).data i) (List.range (BitVec.toNat v % 2 ^ 13)) = bs) ∧ ((headerFrom bs).wellFormed { } = true) ∧ (s.blk.authenticate { } (headerFrom bs) = AuthOut.level lv) ∧ ((s.blk.ring 62).bound = true) ∧ (s.blk.sequence 62 (headerFrom bs) = SeqOut.new) ∧ (opPriv (headerFrom bs).opcode = some p) ∧ (p ≤ lv) ∧ (s.blk.stateAllows { } (headerFrom bs).opcode (headerFrom bs).params = true) ∧ (paramsOk (headerFrom bs).opcode (headerFrom bs).params = true) ∧ (s.blk.conflict 62 (headerFrom bs).opcode (headerFrom bs).params = none))
    ∧ (∃ (s : State) (v : Word) (bs : List Byte) (lv : Nat), (BitVec.getLsbD v 31 = true) ∧ (s.blk.sidebandOpen = true) ∧ (s.blk.hmRuns = true) ∧ (64 ≤ BitVec.toNat v % 2 ^ 13) ∧ (BitVec.toNat v % 2 ^ 13 ≤ 4160) ∧ (List.map (fun i ↦ tget (fun x ↦ 0) (s.blk.mbox Path.i3c).data i) (List.range (BitVec.toNat v % 2 ^ 13)) = bs) ∧ ((headerFrom bs).wellFormed { } = true) ∧ (s.blk.authenticate { } (headerFrom bs) = AuthOut.level lv) ∧ ((s.blk.ring 62).bound = true) ∧ (s.blk.sequence 62 (headerFrom bs) = SeqOut.duplicate) ∧ ((s.blk.slot (slotKey 62 (headerFrom bs).seq)).st = SlotState.done))
    ∧ (∃ (s : State) (v : Word) (bs : List Byte), (BitVec.getLsbD v 31 = true) ∧ (s.blk.sidebandOpen = true) ∧ (s.blk.hmRuns = true) ∧ (64 ≤ BitVec.toNat v % 2 ^ 13) ∧ (BitVec.toNat v % 2 ^ 13 ≤ 4160) ∧ (List.map (fun i ↦ tget (fun x ↦ 0) (s.blk.mbox Path.i3c).data i) (List.range (BitVec.toNat v % 2 ^ 13)) = bs) ∧ ((headerFrom bs).wellFormed { } = true) ∧ (s.blk.authenticate { } (headerFrom bs) = AuthOut.fail)) :=
  ⟨⟨rgn0, .west, { frag 2 0 with gvalid := 3 }, by decide +kernel⟩,
   ⟨rgn0, .west, (frag 2 1), by decide +kernel⟩,
   ⟨rgn0, .west, rdFlit, by decide +kernel⟩,
   ⟨(st { quayB with mf.reasm := [{ side := .west, src := 9, tag := 3, flow := 2, length := 512, count := 2, dest := 5, got := [] }] }), .west, 9, 3, { side := .west, src := 9, tag := 3, flow := 2, length := 512, count := 2, dest := 5, got := [] }, by decide +kernel⟩,
   ⟨quay0, .west, 9, 3, by decide +kernel⟩,
   ⟨quay0, .i3c, 64, by decide +kernel⟩,
   ⟨quay0, .jtag, 0x80000020, by decide +kernel⟩,
   ⟨(st (boxB (manBytes 1 5))), 0x80000040, (manBytes 1 5), 2, 0, by decide +kernel⟩,
   ⟨(st { boxB (manBytes 0 5) with mf.slots := [(slotKey 62 0, { st := .done, opcode := 1, seq := 0 })] }), 0x80000040, (manBytes 0 5), 2, by decide +kernel⟩,
   ⟨(st (boxB (manBytes 1 6))), 0x80000040, (manBytes 1 6), by decide +kernel⟩⟩

theorem hypotheses_manifestsFollowTheStateTable :
    (∃ (s : State) (i : Instr) (m : ManRef) (op : Nat), (i.manifest = some (m, op)) ∧ (s.blk.hmRuns = true) ∧ (s.blk.accepts op = false))
    ∧ (∃ (s : State) (i : Instr) (m : ManRef) (op : Nat), (i.manifest = some (m, op)) ∧ (s.blk.hmRuns = false))
    ∧ (∃ (b : Block), (b.pw.st = PierState.harbour ∨ b.pw.st = PierState.openS) ∧ (b.ck.coreGated = false))
    ∧ (∃ (b : Block) (op : Nat), (b.pw.st = PierState.departure) ∧ (b.accepts op = true)) :=
  ⟨⟨(st { quayB with pw.st := .departure }), (.keyLoad m0 keyP), m0, 5, by decide +kernel⟩,
   ⟨dark0, (.keyLoad m0 keyP), m0, 5, by decide +kernel⟩,
   ⟨quayB, by decide +kernel⟩,
   ⟨{ quayB with pw.st := .departure }, 0x10, by decide +kernel⟩⟩

theorem hypotheses_setupManifests :
    (∃ (s : State) (m : ManRef), (s.blk.mans Mop.pierInfo))
    ∧ (∃ (s : State) (m : ManRef) (id : BitVec 16), (s.blk.mans Mop.setPierId) ∧ (s.blk.qy.idValid = false) ∧ (id.toNat ≤ 32766))
    ∧ (∃ (s : State) (m : ManRef) (id : BitVec 16), (s.blk.mans Mop.setPierId) ∧ (s.blk.qy.idValid = true) ∧ (id.toNat ≤ 32766))
    ∧ (∃ (s : State) (m : ManRef) (id : BitVec 16), (s.blk.mans Mop.setPierId) ∧ (32766 < id.toNat))
    ∧ (∃ (s : State) (m : ManRef) (n : Fin 256) (ws : List Word), (s.blk.mans Mop.routeSet) ∧ (ws ≠ []) ∧ (↑n + ws.length ≤ 256) ∧ (s.blk.tablesLocked = false))
    ∧ (∃ (s : State) (m : ManRef) (n : Fin 256) (ws : List Word), (s.blk.mans Mop.routeSet) ∧ (ws ≠ []) ∧ (↑n + ws.length ≤ 256) ∧ (s.blk.tablesLocked = true))
    ∧ (∃ (s : State) (m : ManRef) (n : Fin 256) (ws : List Word), (s.blk.mans Mop.routeSet) ∧ (ws = [] ∨ 256 < ↑n + ws.length))
    ∧ (∃ (s : State) (m : ManRef) (n : Fin 64) (r : RegionImage), (s.blk.mans Mop.regionSet) ∧ (RegionImage.legal r = true) ∧ (s.blk.tablesLocked = false))
    ∧ (∃ (s : State) (m : ManRef) (n : Fin 64) (rs : List RegionImage), (s.blk.mans Mop.regionSet) ∧ (rs = [] ∨ 64 < ↑n + rs.length ∨ rs.all RegionImage.legal = false))
    ∧ (∃ (s : State) (m : ManRef) (n : Fin 64) (rs : List RegionImage), (s.blk.mans Mop.regionSet) ∧ (rs ≠ []) ∧ (↑n + rs.length ≤ 64) ∧ (rs.all RegionImage.legal = true) ∧ (s.blk.tablesLocked = true))
    ∧ (∃ (s : State) (m : ManRef), (s.blk.mans Mop.fillStatus))
    ∧ (∃ (s : State) (m : ManRef) (k : KeyLoadParams), (s.blk.mans Mop.keyLoad) ∧ (62 ≤ ↑m.ring) ∧ (s.blk.keys.wrap = none) ∧ (k.kind = 0) ∧ (k.op = 0) ∧ (k.wrapped = 0) ∧ ((keyWorkOf m k).legal = true) ∧ (List.take 32 k.material ≠ List.take 32 (List.drop 32 k.material)))
    ∧ (∃ (s : State) (m : ManRef) (k : KeyLoadParams), (s.blk.mans Mop.keyLoad) ∧ (k.kind = 0) ∧ (k.op = 1) ∧ ((keyWorkOf m k).legal = true))
    ∧ (∃ (s : State) (m : ManRef) (k : KeyLoadParams), (s.blk.mans Mop.keyLoad) ∧ (↑m.ring < 62) ∧ (k.op = 0) ∧ (k.wrapped = 0) ∧ ((keyWorkOf m k).legal = true))
    ∧ (∃ (s : State) (m : ManRef) (k : KeyLoadParams), (s.blk.mans Mop.keyLoad) ∧ (1 < k.op.toNat ∨ k.op = 0 ∧ 1 < k.wrapped.toNat ∨ (keyWorkOf m k).legal = false)) :=
  ⟨⟨(manS 0x1 quayB), m0, by decide +kernel⟩,
   ⟨(manS 0x2 openB), m0, 0x7FFE, by decide +kernel⟩,
   ⟨(manS 0x2 quayB), m0, 7, by decide +kernel⟩,
   ⟨(manS 0x2 quayB), m0, 0x7FFF, by decide +kernel⟩,
   ⟨(manS 0x3 quayB), m0, 254, [7, 8], by decide +kernel⟩,
   ⟨(manS 0x3 (regs quayB [(Off.qyCtrl, 2)])), m0, 254, [7, 8], by decide +kernel⟩,
   ⟨(manS 0x3 quayB), m0, 255, [7, 8], by decide +kernel⟩,
   ⟨(manS 0x4 quayB), m0, 63, legalR, by decide +kernel⟩,
   ⟨(manS 0x4 quayB), m0, 63, [legalR, legalR], by decide +kernel⟩,
   ⟨(manS 0x4 (regs quayB [(Off.qyCtrl, 2)])), m0, 62, [legalR, legalR], by decide +kernel⟩,
   ⟨(manS 0x21 quayB), m0, by decide +kernel⟩,
   ⟨(manS 0x5 quayB), m0, keyP, by decide +kernel⟩,
   ⟨(manS 0x5 { quayB with keys.region := [(9, some 7)] }), m0, { keyP with op := 1, material := [] }, by decide +kernel⟩,
   ⟨(manS 0x5 quayB), { m0 with ring := 3 }, keyP, by decide +kernel⟩,
   ⟨(manS 0x5 quayB), m0, { keyP with kind := 3 }, by decide +kernel⟩⟩

theorem hypotheses_firmwareUpdate :
    (∃ (s : State) (m : ManRef) (n : BitVec 32), (s.blk.mans Mop.fwUpdate) ∧ (257 ≤ n.toNat) ∧ (n.toNat ≤ 3145728) ∧ (s.blk.mf.session = none) ∧ (s.blk.mf.job = none))
    ∧ (∃ (s : State) (m : ManRef) (n : BitVec 32), (s.blk.mans Mop.fwUpdate) ∧ (257 ≤ n.toNat) ∧ (n.toNat ≤ 3145728) ∧ (s.blk.mf.session.isSome = true ∨ s.blk.mf.job.isSome = true))
    ∧ (∃ (s : State) (m : ManRef) (n : BitVec 32), (s.blk.mans Mop.fwUpdate) ∧ (n.toNat < 257 ∨ 3145728 < n.toNat))
    ∧ (∃ (s : State) (m : ManRef) (x : FwSession) (o : BitVec 32) (bs : List Byte), (s.blk.mans Mop.fwUpdate) ∧ (s.blk.mf.session = some x) ∧ (x.ring = m.ring) ∧ (s.blk.mf.job = none) ∧ (o.toNat = x.got) ∧ (bs ≠ []) ∧ (bs.length ≤ 4084) ∧ (x.got + bs.length ≤ x.total))
    ∧ (∃ (s : State) (m : ManRef) (x : FwSession) (o : BitVec 32) (bs : List Byte), (s.blk.mans Mop.fwUpdate) ∧ (s.blk.mf.session = some x) ∧ (x.ring = m.ring) ∧ (s.blk.mf.job = none) ∧ (o.toNat ≠ x.got ∨ bs = [] ∨ 4084 < bs.length ∨ x.total < x.got + bs.length))
    ∧ (∃ (s : State) (m : ManRef) (x : FwSession) (o : BitVec 32) (bs : List Byte), (s.blk.mans Mop.fwUpdate) ∧ (s.blk.mf.session = some x) ∧ (x.ring ≠ m.ring))
    ∧ (∃ (s : State) (m : ManRef) (o : BitVec 32) (bs : List Byte), (s.blk.mans Mop.fwUpdate) ∧ (s.blk.mf.session = none))
    ∧ (∃ (s : State) (m : ManRef) (x : FwSession) (root : BitVec 384) (img : Image), (s.blk.mans Mop.fwUpdate) ∧ (s.blk.mf.session = some x) ∧ (x.ring = m.ring) ∧ (s.blk.mf.job = none) ∧ (x.got = x.total) ∧ (s.blk.updated root x = img) ∧ (s.blk.imageValid img = true))
    ∧ (∃ (s : State) (m : ManRef) (x : FwSession) (root : BitVec 384), (s.blk.mans Mop.fwUpdate) ∧ (s.blk.mf.session = some x) ∧ (x.ring = m.ring) ∧ (s.blk.mf.job = none) ∧ (x.got ≠ x.total ∨ s.blk.imageValid (s.blk.updated root x) = false))
    ∧ (∃ (s : State) (m : ManRef) (x : FwSession), (s.blk.mans Mop.fwUpdate) ∧ (s.blk.mf.session = some x) ∧ (x.ring = m.ring) ∧ (s.blk.mf.job = none))
    ∧ (∃ (s : State) (m : ManRef) (sl : Bool) (n : Nat), (s.blk.hmRuns = true) ∧ (s.blk.spiRuns = true) ∧ (s.blk.mf.job = some (FlashJob.erase m sl n)))
    ∧ (∃ (s : State) (m : ManRef) (x : FwSession) (o : Nat) (bs : List Byte), (s.blk.hmRuns = true) ∧ (s.blk.spiRuns = true) ∧ (s.blk.mf.job = some (FlashJob.program m o bs)) ∧ (s.blk.mf.session = some x))
    ∧ (∃ (s : State) (m : ManRef) (sl : Bool) (v : BitVec 32) (k : BitVec 8), (s.blk.hmRuns = true) ∧ (s.blk.spiRuns = true) ∧ (s.blk.mf.job = some (FlashJob.directory m sl v k)))
    ∧ (∃ (s : State), (s.blk.hmRuns = false ∨ s.blk.spiRuns = false ∨ s.blk.mf.job = none))
    ∧ (∃ (s : State), (s.blk.hmRuns = true) ∧ (s.blk.mf.job = none) ∧ (s.blk.sessionOld = true))
    ∧ (∃ (s : State), (s.blk.hmRuns = false ∨ s.blk.mf.job.isSome = true ∨ s.blk.sessionOld = false))
    ∧ (∃ (s : State) (m : ManRef) (op : Nat), (s.blk.hmRuns = true) ∧ (s.blk.waitsFor m = some op) ∧ (op < 2 ^ 16) ∧ (s.blk.atBound m op = true))
    ∧ (∃ (s : State) (m : ManRef) (r : CalRun), (s.blk.hmRuns = true) ∧ (s.blk.waitsFor m = none) ∧ (List.find? (fun r ↦ r.m == m) s.blk.sv.cal = some r) ∧ (s.blk.atBound m Mop.calRun = true))
    ∧ (∃ (s : State) (m : ManRef), (s.blk.hmRuns = false ∨ s.blk.atBound m ((s.blk.waitsFor m).getD Mop.calRun) = false ∨ s.blk.waitsFor m = none ∧ List.find? (fun r ↦ r.m == m) s.blk.sv.cal = none)) :=
  ⟨⟨(manS 0xA2 quayB), m0, 257, by decide +kernel⟩,
   ⟨(ses session0), m0, 257, by decide +kernel⟩,
   ⟨(ses session0), m0, 256, by decide +kernel⟩,
   ⟨(ses session0), m0, session0, 40, [7, 8], by decide +kernel⟩,
   ⟨(ses session0), m0, session0, 41, [7, 8], by decide +kernel⟩,
   ⟨(ses { session0 with ring := 3 }), m0, { session0 with ring := 3 }, 40, [7, 8], by decide +kernel⟩,
   ⟨(manS 0xA2 quayB), m0, 40, [7, 8], by decide +kernel⟩,
   ⟨(goodFl 300 goodImg), m0, { session0 with got := 300 }, rootK, ((goodFl 300 goodImg).blk.updated rootK { session0 with got := 300 }), by decide +kernel⟩,
   ⟨(goodFl 300 badImg), m0, { session0 with got := 300 }, rootK, by decide +kernel⟩,
   ⟨(ses session0), m0, session0, by decide +kernel⟩,
   ⟨(job (.erase m0 true 300)), m0, true, 300, by decide +kernel⟩,
   ⟨(job (.program m0 40 [7, 8])), m0, session0, 40, [7, 8], by decide +kernel⟩,
   ⟨(job (.directory m0 true 9 2)), m0, true, 9, 2, by decide +kernel⟩,
   ⟨quay0, by decide +kernel⟩,
   ⟨(oldS (ses session0)), by decide +kernel⟩,
   ⟨quay0, by decide +kernel⟩,
   ⟨(oldS (job (.program m0 40 [7, 8]))), m0, 0xA2, by decide +kernel⟩,
   ⟨(oldS (st { quayB with sv.cal := [{ m := m0, cls := 2, todo := 2, passed := 1, failed := 4 }], mf.running := [{ m := m0, opcode := 0x31, origin := {}, params := [2] }] })), m0, { m := m0, cls := 2, todo := 2, passed := 1, failed := 4 }, by decide +kernel⟩,
   ⟨quay0, m0, by decide +kernel⟩⟩

theorem hypotheses_laneAndLogManifests :
    (∃ (s : State) (m : ManRef) (sd : Side), (s.blk.mans Mop.laneStatus))
    ∧ (∃ (s : State) (m : ManRef) (n : BitVec 8), (s.blk.mans Mop.laneStatus) ∧ (2 ≤ n.toNat))
    ∧ (∃ (s : State) (m : ManRef) (sd : Side) (mode : BitVec 8) (mask : BitVec 16), (s.blk.mans Mop.laneRetrain) ∧ (mode.toNat ≤ 1) ∧ (s.blk.laneBusy sd (some m) = true))
    ∧ (∃ (s : State) (m : ManRef) (sd : Side) (mode : BitVec 8) (mask : BitVec 16), (s.blk.mans Mop.laneRetrain) ∧ (mode.toNat ≤ 1) ∧ (s.blk.laneBusy sd (some m) = false) ∧ ((s.blk.pll (sidePll sd)).down = true))
    ∧ (∃ (s : State) (m : ManRef) (n : BitVec 8) (mode : BitVec 8) (mask : BitVec 16), (s.blk.mans Mop.laneRetrain) ∧ (2 ≤ n.toNat ∨ 2 ≤ mode.toNat))
    ∧ (∃ (s : State) (m : ManRef) (sd : Side), (s.blk.mans Mop.laneRetrain) ∧ (s.blk.laneBusy sd (some m) = false) ∧ ((s.blk.pll (sidePll sd)).down = false) ∧ ((s.blk.side sd).seg = SegState.run) ∧ ((s.blk.trainLanes sd).isEmpty = false))
    ∧ (∃ (s : State) (m : ManRef) (sd : Side) (l : Fin 16), (s.blk.mans Mop.laneRetrain) ∧ (s.blk.laneBusy sd (some m) = false) ∧ ((s.blk.pll (sidePll sd)).down = false) ∧ ((s.blk.side sd).seg = SegState.run) ∧ (s.blk.laneUsable (laneOf sd ↑l) = true) ∧ ((s.blk.lane (laneOf sd ↑l)).st = LaneState.off))
    ∧ (∃ (s : State) (m : ManRef) (sd : Side) (l : Fin 16) (pat : BitVec 8) (ms : BitVec 16), (s.blk.mans Mop.lanePrbs) ∧ (pat.toNat < 3) ∧ (1 ≤ ms.toNat) ∧ (ms.toNat ≤ 60000) ∧ (s.blk.laneBusy sd (some m) = false) ∧ ((s.blk.pll (sidePll sd)).down = false) ∧ ((s.blk.side sd).seg = SegState.run) ∧ (s.blk.laneUsable (laneOf sd ↑l) = true) ∧ ((s.blk.lane (laneOf sd ↑l)).st = LaneState.off))
    ∧ (∃ (s : State) (m : ManRef) (sd : Side) (l : Fin 16) (pat : BitVec 8) (ms : BitVec 16), (s.blk.mans Mop.lanePrbs) ∧ (pat.toNat < 3) ∧ (1 ≤ ms.toNat) ∧ (ms.toNat ≤ 60000) ∧ (s.blk.laneBusy sd (some m) = false) ∧ ((s.blk.pll (sidePll sd)).down = false) ∧ (s.blk.onlyRunning (laneOf sd ↑l) = true ∨ (s.blk.side sd).seg ≠ SegState.run ∨ s.blk.laneUsable (laneOf sd ↑l) = false ∨ (s.blk.lane (laneOf sd ↑l)).st = LaneState.failed))
    ∧ (∃ (s : State) (m : ManRef) (sd : Side) (l : Fin 16) (pat : BitVec 8) (ms : BitVec 16), (s.blk.mans Mop.lanePrbs) ∧ (pat.toNat < 3) ∧ (1 ≤ ms.toNat) ∧ (ms.toNat ≤ 60000) ∧ (s.blk.laneBusy sd (some m) = false) ∧ ((s.blk.pll (sidePll sd)).down = false) ∧ (s.blk.onlyRunning (laneOf sd ↑l) = false) ∧ ((s.blk.side sd).seg = SegState.run) ∧ (s.blk.laneUsable (laneOf sd ↑l) = true) ∧ ((s.blk.lane (laneOf sd ↑l)).st ≠ LaneState.failed))
    ∧ (∃ (s : State) (m : ManRef) (sd : Side) (d : BitVec 8) (r : BitVec 8), (s.blk.mans Mop.sscSet) ∧ (d.toNat ≤ 20) ∧ (r.toNat ≤ 6))
    ∧ (∃ (s : State) (m : ManRef) (n : BitVec 8) (d : BitVec 8) (r : BitVec 8) (f : BitVec 8), (s.blk.mans Mop.sscSet) ∧ (2 ≤ n.toNat ∨ 20 < d.toNat ∨ 6 < r.toNat ∨ 1 < f.toNat))
    ∧ (∃ (s : State) (m : ManRef) (area : BitVec 8) (c : BitVec 16) (first : BitVec 32), (s.blk.mans Mop.logRead) ∧ (area.toNat ≤ 1) ∧ (1 ≤ c.toNat) ∧ (c.toNat ≤ 28))
    ∧ (∃ (s : State) (m : ManRef) (area : BitVec 8) (c : BitVec 16) (first : BitVec 32), (s.blk.mans Mop.logRead) ∧ (2 < area.toNat ∨ c.toNat < 1 ∨ 28 < c.toNat ∨ area = 2 ∧ 14 ≤ first.toNat))
    ∧ (∃ (s : State) (m : ManRef) (t : BitVec 64), (s.blk.mans Mop.tripAck) ∧ (s.blk.newestTrip = none))
    ∧ (∃ (s : State) (m : ManRef) (t : Tide) (ix : Nat) (r : Trip), (s.blk.mans Mop.tripAck) ∧ (s.blk.newestTrip = some (ix, r)) ∧ (r.tide ≠ t))
    ∧ (∃ (s : State) (m : ManRef) (ix : Nat) (r : Trip), (s.blk.mans Mop.tripAck) ∧ (s.blk.newestTrip = some (ix, r))) :=
  ⟨⟨(manS 0x40 quayB), m0, .east, by decide +kernel⟩,
   ⟨(manS 0x40 quayB), m0, 2, by decide +kernel⟩,
   ⟨(manS 0x41 { quayB with west.waiter := some ({ m0 with seq := 9 }, 0x41) }), m0, .west, 0, 7, by decide +kernel⟩,
   ⟨(manS 0x41 { quayB with ck.west := { down := true } }), m0, .west, 0, 7, by decide +kernel⟩,
   ⟨(manS 0x41 quayB), m0, 2, 0, 7, by decide +kernel⟩,
   ⟨(manS 0x41 quayB), m0, .west, by decide +kernel⟩,
   ⟨(manS 0x41 (laneOffB quayB)), m0, .west, 3, by decide +kernel⟩,
   ⟨(manS 0x42 (laneOffB quayB)), m0, .west, 3, 1, 100, by decide +kernel⟩,
   ⟨(manS 0x42 (oneRun quayB)), m0, .west, 0, 1, 100, by decide +kernel⟩,
   ⟨(manS 0x42 quayB), m0, .west, 3, 1, 100, by decide +kernel⟩,
   ⟨(manS 0x51 quayB), m0, .east, 20, 6, by decide +kernel⟩,
   ⟨(manS 0x51 quayB), m0, 1, 21, 6, 0, by decide +kernel⟩,
   ⟨(manS 0x80 quayB), m0, 1, 28, 0, by decide +kernel⟩,
   ⟨(manS 0x80 quayB), m0, 1, 29, 0, by decide +kernel⟩,
   ⟨(manS 0x81 { quayB with pw.st := .harbour }), m0, 5, by decide +kernel⟩,
   ⟨tripS, m0, 6, 0, tripR, by decide +kernel⟩,
   ⟨tripS, m0, 0, tripR, by decide +kernel⟩⟩

theorem hypotheses_registerReads :
    (∃ (s : State) (p : Path) (offset : BitVec 24) (ev : Word) (o : Nat) (r : Reg), (offset.toNat / 4 * 4 = o) ∧ (s.blk.serves p = true) ∧ (s.blk.mayRead p o = true) ∧ (regAt o = some r) ∧ ((r.rc == 0) = false) ∧ (o ≠ Off.qyTags))
    ∧ (∃ (s : State) (p : Path) (offset : BitVec 24) (ev : Word), (offset.toNat / 4 * 4 = Off.qyTags) ∧ (s.blk.serves p = true) ∧ (s.blk.mayRead p Off.qyTags = true))
    ∧ (∃ (s : State) (p : Path) (offset : BitVec 24) (ev : Word), (offset.toNat / 4 * 4 = Off.tlBwPeak) ∧ (s.blk.serves p = true) ∧ (s.blk.mayRead p Off.tlBwPeak = true))
    ∧ (∃ (s : State) (p : Path) (offset : BitVec 24) (ev : Word), (s.blk.serves p = true) ∧ (clearsOnRead (offset.toNat / 4 * 4) = true) ∧ (s.blk.reachable (offset.toNat / 4 * 4) = false))
    ∧ (∃ (s : State) (p : Path) (offset : BitVec 24) (ev : Word), (s.blk.serves p = false ∨ clearsOnRead (offset.toNat / 4 * 4) = false))
    ∧ (∃ (s : State) (p : Path) (x : Slot) (k : Nat), (s.blk.serves p = true) ∧ ((p == Path.inBand) = false) ∧ (s.blk.windowSlot p = x) ∧ (slotKey (BitVec.toNat (s.blk.selReg p Off.mfRcptRing) % 64) x.seq = k))
    ∧ (∃ (s : State), (s.blk.serves Path.inBand = true))
    ∧ (∃ (s : State) (p : Path), (s.blk.serves p = false))
    ∧ (∃ (s : State) (dr : BitVec 57) (o : Nat), (dr.toNat / 2 ^ 34 % 2 ^ 22 * 4 = o) ∧ (dr.getLsbD 56 = false) ∧ (s.blk.sidebandOpen = true) ∧ ((o == Off.mfRcptData) = false))
    ∧ (∃ (s : State) (dr : BitVec 57), ((s.blk.pw.st == PierState.dark) = false) ∧ (s.blk.pins.railsLow.contains Rail.io = false) ∧ ((s.blk.pw.st == PierState.frozen || s.blk.sv.inScan) = true))
    ∧ (∃ (s : State) (dr : BitVec 57), ((s.blk.pw.st == PierState.dark || s.blk.pins.railsLow.contains Rail.io) = true)) :=
  ⟨⟨quay0, .i3c, 0x080011, 7, Off.fwLat, { base := 0x080010, rc := 0xffffffff }, by decide +kernel⟩,
   ⟨quay0, .jtag, 0x0C001E, 7, by decide +kernel⟩,
   ⟨quay0, .i3c, (BitVec.ofNat 24 Off.tlBwPeak), 9, by decide +kernel⟩,
   ⟨(st { quayB with pw.doms := [] }), .i3c, (BitVec.ofNat 24 Off.qyTags), 9, by decide +kernel⟩,
   ⟨quay0, .i3c, 0x080000, 9, by decide +kernel⟩,
   ⟨winS, .i3c, winSlot, (slotKey 62 3), by decide +kernel⟩,
   ⟨quay0, by decide +kernel⟩,
   ⟨dark0, .i3c, by decide +kernel⟩,
   ⟨quay0, (BitVec.ofNat 57 (0x080010 / 4 * 2 ^ 34)), 0x080010, by decide +kernel⟩,
   ⟨(st { quayB with pw.st := .frozen }), 0, by decide +kernel⟩,
   ⟨dark0, 0, by decide +kernel⟩⟩

theorem hypotheses_registerPairs :
    (∃ (s : State) (p : Path) (offset : BitVec 24) (lo : Nat) (hi : Nat) (c : Block), (offset.toNat / 4 * 4 = lo) ∧ (pairLo lo = some lo) ∧ (pairLo hi = some lo) ∧ ((hi == lo) = false) ∧ (s.blk.serves p = true) ∧ (s.blk.mayRead p lo = true) ∧ (c.mayRead p hi = true))
    ∧ (∃ (s : State) (p : Path) (c : Block), (s.blk.serves p = true))
    ∧ (∃ (c : Block) (p : Path) (hi : Nat) (lo : Nat), (pairLo hi = some lo) ∧ ((hi == lo) = false) ∧ (c.mayRead p hi = true))
    ∧ (∃ (s : State) (p : Path) (offset : BitVec 24), (s.blk.serves p = false ∨ (pairLo (offset.toNat / 4 * 4) == some (offset.toNat / 4 * 4)) = false)) :=
  ⟨⟨quay0, .jtag, 0x041460, 0x041460, 0x041464, quayB, by decide +kernel⟩,
   ⟨quay0, .i3c, quayB, by decide +kernel⟩,
   ⟨quayB, .i3c, 0x041464, 0x041460, by decide +kernel⟩,
   ⟨quay0, .i3c, 0x041464, by decide +kernel⟩⟩

theorem hypotheses_laneCountersClearTogether :
    (∃ (s : State) (p : Path) (ln : LaneId) (n : Nat), (s.blk.serves p = true) ∧ (s.blk.domOn (quadDom ↑ln) = true))
    ∧ (∃ (s : State) (p : Path) (ln : LaneId), (s.blk.serves p = true) ∧ (s.blk.domOn (quadDom ↑ln) = true) ∧ ((s.blk.regBit (lnOff Off.lnCtrl ↑ln) 0 || (s.blk.lane ↑ln).st == LaneState.off) = true))
    ∧ (∃ (s : State) (p : Path) (ln : LaneId) (n : Nat), (s.blk.serves p = true) ∧ (s.blk.domOn (quadDom ↑ln) = true))
    ∧ (∃ (s : State) (p : Path) (ln : LaneId), ((s.blk.serves p && s.blk.domOn (quadDom ↑ln)) = false)) :=
  ⟨⟨(cntS quayB), .i3c, 5, 3, by decide +kernel⟩,
   ⟨(cntS quayB), .i3c, 5, by decide +kernel⟩,
   ⟨(cntS quayB), .i3c, 5, 3, by decide +kernel⟩,
   ⟨dark0, .i3c, 5, by decide +kernel⟩⟩

theorem hypotheses_clearBits :
    (∃ (s : State) (p : Path), (s.blk.serves p = true))
    ∧ (∃ (s : State) (p : Path), (s.blk.serves p = true))
    ∧ (∃ (s : State) (p : Path) (c : Nat), (s.blk.serves p = true) ∧ (s.blk.domOn qyDom = true))
    ∧ (∃ (s : State) (p : Path) (n : ChId), (s.blk.serves p = true) ∧ (s.blk.domOn (bgDom ↑n) = true))
    ∧ (∃ (s : State) (p : Path), (s.blk.serves p = true))
    ∧ (∃ (s : State) (p : Path), (s.blk.serves p = true))
    ∧ (∃ (s : State) (p : Path) (n : Nat), (s.blk.serves p = true) ∧ (BitVec.toNat (s.blk.selReg p Off.stFenceSel) % 64 = n))
    ∧ (∃ (s : State) (p : Path), (s.blk.serves p = true))
    ∧ (∃ (s : State) (p : Path), (s.blk.serves p = true))
    ∧ (∃ (s : State) (p : Path), (s.blk.serves p = true))
    ∧ (∃ (s : State) (p : Path), (s.blk.serves p = true) ∧ (s.blk.domOn tlDom = true))
    ∧ (∃ (s : State) (p : Path), (s.blk.serves p = false)) :=
  ⟨⟨(cntS quayB), .i3c, by decide +kernel⟩,
   ⟨(cntS quayB), .i3c, by decide +kernel⟩,
   ⟨(st (chB { inb := 4, miss := 2 })), .i3c, 7, by decide +kernel⟩,
   ⟨(cntS quayB), .i3c, 3, by decide +kernel⟩,
   ⟨(cntS quayB), .i3c, by decide +kernel⟩,
   ⟨(colN fun x => { x with replay := 3 }), .i3c, by decide +kernel⟩,
   ⟨(st (quayB.modBerth 0 fun x => { x with fence := [⟨4, 5, 6, 7⟩] })), .i3c, 0, by decide +kernel⟩,
   ⟨(cntS quayB), .i3c, by decide +kernel⟩,
   ⟨(st { quayB with prot.wr := 3 }), .i3c, by decide +kernel⟩,
   ⟨quay0, .i3c, by decide +kernel⟩,
   ⟨(cntS quayB), .i3c, by decide +kernel⟩,
   ⟨dark0, .i3c, by decide +kernel⟩⟩

theorem hypotheses_laneRegisters :
    (∃ (s : State) (p : Path) (ln : LaneId) (v : Word), (s.blk.serves p = true) ∧ (s.blk.domOn (quadDom ↑ln) = true) ∧ ((tapsOf v).legal = false))
    ∧ (∃ (s : State) (p : Path) (ln : LaneId) (v : Word), (s.blk.serves p = true) ∧ (s.blk.domOn (quadDom ↑ln) = true) ∧ ((tapsOf v).legal = true) ∧ ((s.blk.regBit (lnOff Off.lnCtrl ↑ln) 1 && (s.blk.lane ↑ln).st != LaneState.train) = true))
    ∧ (∃ (s : State) (p : Path) (ln : LaneId) (v : Word), (s.blk.serves p = true) ∧ (s.blk.domOn (quadDom ↑ln) = true) ∧ ((tapsOf v).legal = true) ∧ ((s.blk.regBit (lnOff Off.lnCtrl ↑ln) 1 && (s.blk.lane ↑ln).st != LaneState.train) = false))
    ∧ (∃ (s : State) (p : Path) (ln : LaneId) (v : Word), (s.blk.serves p = true) ∧ (s.blk.domOn (quadDom ↑ln) = true) ∧ (BitVec.getLsbD v 0 = true) ∧ (BitVec.getLsbD v 8 = false))
    ∧ (∃ (s : State) (p : Path) (ln : LaneId) (v : Word), (s.blk.serves p = true) ∧ (s.blk.domOn (quadDom ↑ln) = true) ∧ (BitVec.getLsbD v 0 = false) ∧ (BitVec.getLsbD v 8 = false))
    ∧ (∃ (s : State) (p : Path) (ln : LaneId) (v : Word), (s.blk.serves p = true) ∧ (s.blk.domOn (quadDom ↑ln) = true) ∧ (BitVec.getLsbD v 8 = false) ∧ ((s.blk.lane ↑ln).inRun = false) ∧ (bitsAt v 1 2 ≠ 3) ∧ (bitsAt v 5 2 ≠ 3))
    ∧ (∃ (s : State) (p : Path) (ln : LaneId) (v : Word), (s.blk.serves p = true) ∧ (s.blk.domOn (quadDom ↑ln) = true) ∧ (BitVec.getLsbD v 8 = false) ∧ ((s.blk.lane ↑ln).inRun = true))
    ∧ (∃ (s : State) (p : Path) (ln : LaneId) (v : Word), (s.blk.serves p = true) ∧ (s.blk.domOn (quadDom ↑ln) = true) ∧ (BitVec.getLsbD v 8 = false) ∧ ((s.blk.lane ↑ln).inRun = false) ∧ (bitsAt v 1 2 ≠ 3) ∧ (bitsAt v 5 2 ≠ 3))
    ∧ (∃ (s : State) (p : Path) (ln : LaneId) (v : Word), (s.blk.serves p = true) ∧ (s.blk.domOn (quadDom ↑ln) = true) ∧ (BitVec.getLsbD v 8 = false) ∧ ((s.blk.lane ↑ln).inRun = true))
    ∧ (∃ (s : State) (p : Path) (ln : LaneId) (v : Word), ((s.blk.serves p && s.blk.domOn (quadDom ↑ln)) = false)) :=
  ⟨⟨quay0, .i3c, 20, 83328, by decide +kernel⟩,
   ⟨(st (quayB.setReg (lnOff Off.lnCtrl 20) 3)), .i3c, 20, 0x1, by decide +kernel⟩,
   ⟨quay0, .i3c, 20, 0x1, by decide +kernel⟩,
   ⟨quay0, .i3c, 20, 0x15, by decide +kernel⟩,
   ⟨quay0, .i3c, 20, 0x14, by decide +kernel⟩,
   ⟨(st (laneOffB quayB)), .i3c, 3, 0x11, by decide +kernel⟩,
   ⟨quay0, .i3c, 3, 0x11, by decide +kernel⟩,
   ⟨(st (laneOffB quayB)), .i3c, 3, 0x11, by decide +kernel⟩,
   ⟨quay0, .i3c, 3, 0x11, by decide +kernel⟩,
   ⟨dark0, .i3c, 3, 0x11, by decide +kernel⟩⟩

theorem hypotheses_registerWrites :
    (∃ (s : State) (p : Path) (offset : BitVec 24) (v : Word), (s.blk.serves p = false ∨ s.blk.reachable (offset.toNat / 4 * 4) = false))
    ∧ (∃ (s : State) (p : Path) (offset : BitVec 24) (v : Word) (o : Nat) (r : Reg), (offset.toNat / 4 * 4 = o) ∧ (s.blk.serves p = true) ∧ (s.blk.reachable o = true) ∧ (regAt o = some r) ∧ (r.banked = false) ∧ (r.rw = 0 ∨ o ∈ List.map (fun x ↦ x.snd) alarmPairs ∨ o = Off.ckCtrl ∨ (∃ l, o = lnOff Off.lnTxDrv ↑l) ∨ ∃ n, o = 1380352 + 64 * ↑n) ∧ (r.rwl = 0))
    ∧ (∃ (s : State) (p : Path) (offset : BitVec 24) (v : Word), (s.blk.tablesLocked = true) ∧ (offset.toNat / 4 * 4 = Off.qyCsrSrc ∨ Off.qyRoute ≤ offset.toNat / 4 * 4 ∧ offset.toNat / 4 * 4 < 851968))
    ∧ (∃ (s : State) (p : Path), (s.blk.serves p = true) ∧ (s.blk.tablesLocked = false))
    ∧ (∃ (s : State) (p : Path), (s.blk.serves p = false ∨ s.blk.tablesLocked = true))
    ∧ (∃ (s : State) (p : Path) (v : Word), (s.blk.serves p = true) ∧ (s.blk.regBit Off.mfCtrl 31 = false))
    ∧ (∃ (s : State) (p : Path) (v : Word), (s.blk.serves p = true) ∧ (s.blk.regBit Off.mfCtrl 31 = true))
    ∧ (∃ (s : State) (p : Path) (v : Word), (s.blk.serves p = true) ∧ (s.blk.domOn qyDom = true) ∧ (s.blk.checkWith (min (bitsAt v 0 15) 16384) false (List.map (fun x ↦ x.snd) s.blk.actives) = none))
    ∧ (∃ (s : State) (p : Path) (v : Word), (s.blk.serves p = true) ∧ (s.blk.domOn qyDom = true) ∧ ((s.blk.checkWith (min (bitsAt v 0 15) 16384) false (List.map (fun x ↦ x.snd) s.blk.actives)).isSome = true))
    ∧ (∃ (s : State) (p : Path) (v : Word), (s.blk.serves p = true) ∧ ((BitVec.truncate 13 v - s.blk.prot.rd).toNat ≤ s.blk.prot.held))
    ∧ (∃ (s : State) (p : Path) (v : Word), (s.blk.serves p = false ∨ s.blk.prot.held < (BitVec.truncate 13 v - s.blk.prot.rd).toNat))
    ∧ (∃ (s : State) (p : Path) (v : Word), (s.blk.serves p = false))
    ∧ (∃ (s : State) (body : List Byte), (body.length = 7))
    ∧ (∃ (s : State) (smbus : Bool) (addr : BitVec 7) (bytes : List Byte), (addr ≠ s.blk.sideAddress ∨ (bytes.length ≠ if smbus = true then 8 else 7) ∨ smbus = true ∧ bytes.getLast? ≠ some (crc8 ((addr ++ 0#1) :: bytes.dropLast))))
    ∧ (∃ (s : State) (t : State) (dr : BitVec 57) (off : BitVec 24), (off.toNat = dr.toNat / 2 ^ 34 % 2 ^ 22 * 4) ∧ (dr.getLsbD 56 = true) ∧ (s.blk.sidebandOpen = true) ∧ (exec (Instr.csrWrite (RegWrite.access Path.jtag off (BitVec.truncate 32 dr))) s = Host.Outcome.next t)) :=
  ⟨⟨dark0, .i3c, 0, 0, by decide +kernel⟩,
   ⟨(st (quayB.setReg Off.ckAlarm 0xF0)), .i3c, (BitVec.ofNat 24 Off.ckAlarm), 0x10, Off.ckAlarm, { base := 0x01000c, w1c := 0xff }, by refine ⟨?_, ?_, ?_, ?_, ?_, ?_, ?_⟩ <;> first | exact Or.inl rfl | decide +kernel⟩,
   ⟨(st (quayB.setReg Off.qyCtrl 2)), .i3c, 0x0C1004, 0x3, by decide +kernel⟩,
   ⟨quay0, .i3c, by decide +kernel⟩,
   ⟨(st (quayB.setReg Off.qyCtrl 2)), .i3c, by decide +kernel⟩,
   ⟨quay0, .i3c, 0x80000003, by decide +kernel⟩,
   ⟨(st (quayB.setReg Off.mfCtrl 0x8000000C)), .i3c, 0x3, by decide +kernel⟩,
   ⟨quay0, .i3c, 0x4001, by decide +kernel⟩,
   ⟨(st (chB { st := .active })), .i3c, 0x4000, by decide +kernel⟩,
   ⟨(st { quayB with prot.wr := 3 }), .i3c, 2, by decide +kernel⟩,
   ⟨(st { quayB with prot.wr := 3 }), .i3c, 5, by decide +kernel⟩,
   ⟨dark0, .i3c, 5, by decide +kernel⟩,
   ⟨quay0, [0x10, 0x00, 0x01, 5, 0, 0, 0], by decide +kernel⟩,
   ⟨quay0, true, 0x50, [0x10, 0x00, 0x01, 5, 0, 0, 0, 0], by decide +kernel⟩,
   ⟨quay0, (st { quayB with csr := tset csrReset quayB.csr Off.mfAlarmEn 5 }), (BitVec.ofNat 57 (2^56 + Off.mfAlarmEn / 4 * 2 ^ 34 + 5)), (BitVec.ofNat 24 Off.mfAlarmEn), by refine ⟨?_, ?_, ?_, ?_⟩ <;> first | exact rfl | decide +kernel⟩⟩

theorem hypotheses_keyStoreAndControlWrites :
    (∃ (s : State) (p : Path) (v : Word) (w : KeyWork), (s.blk.serves p = true) ∧ (s.blk.ksOpen p = true) ∧ (BitVec.getLsbD v 31 = true) ∧ (s.blk.ksWork (v &&& ~~~512) = w) ∧ (w.legal = true) ∧ ((s.blk.keyWork w).fst = 0))
    ∧ (∃ (s : State) (p : Path) (v : Word) (w : KeyWork), (s.blk.serves p = true) ∧ (s.blk.ksOpen p = true) ∧ (BitVec.getLsbD v 31 = true) ∧ (s.blk.ksWork (v &&& ~~~512) = w) ∧ ((w.legal && (s.blk.keyWork w).fst == 0) = false))
    ∧ (∃ (s : State) (p : Path) (v : Word) (w : KeyWork), (s.blk.serves p = true) ∧ (s.blk.ksOpen p = true) ∧ (BitVec.getLsbD v 31 = true) ∧ (s.blk.ksWork (v ||| 512) = w) ∧ (w.legal = true) ∧ ((s.blk.keyWork w).fst = 0))
    ∧ (∃ (s : State) (p : Path) (v : Word) (w : KeyWork), (s.blk.serves p = true) ∧ (s.blk.ksOpen p = true) ∧ (BitVec.getLsbD v 31 = true) ∧ (s.blk.ksWork (v ||| 512) = w) ∧ ((w.legal && (s.blk.keyWork w).fst == 0) = false))
    ∧ (∃ (s : State) (p : Path), (s.blk.serves p = true) ∧ (s.blk.ksOpen p = true))
    ∧ (∃ (s : State) (p : Path) (v : Word), (s.blk.serves p = false ∨ s.blk.ksOpen p = false))
    ∧ (∃ (s : State) (p : Path), (s.blk.serves p = true) ∧ ((p == Path.inBand) = false) ∧ (s.blk.inService = true) ∧ (s.blk.live = true))
    ∧ (∃ (s : State) (p : Path), (p = Path.inBand ∨ s.blk.serves p = false ∨ s.blk.inService = false ∨ s.blk.live = false))
    ∧ (∃ (s : State) (p : Path), (s.blk.serves p = true))
    ∧ (∃ (s : State) (p : Path), (s.blk.serves p = true) ∧ (s.blk.domOn tlDom = true) ∧ (s.blk.tl.mode = 0))
    ∧ (∃ (s : State) (p : Path) (d : DumpParams), (s.blk.serves p = true) ∧ (s.blk.dumpRuns = true) ∧ (s.blk.tl.mode ≠ 0) ∧ (s.blk.tl.cfg = some d) ∧ (d.mode = 1) ∧ (s.blk.tl.busy = false))
    ∧ (∃ (s : State) (p : Path) (blk : Fin 69) (j : Fin 4) (v : Word), (s.blk.serves p = true) ∧ (s.blk.domOn (tallyDom ↑blk) = true) ∧ (selectorOk (↑blk) (bitsAt v 0 16) = true) ∧ (selectorOk (↑blk) (bitsAt v 16 16) = true))
    ∧ (∃ (s : State) (p : Path) (blk : Fin 69) (j : Fin 4) (k : Fin 2) (v : Word), (s.blk.serves p = true) ∧ (s.blk.domOn (tallyDom ↑blk) = true) ∧ (selectorOk (↑blk) (bitsAt v (16 * ↑k) 16) = true) ∧ (selectorOk (↑blk) (bitsAt v (16 * (1 - ↑k)) 16) = false))
    ∧ (∃ (s : State) (p : Path) (blk : Fin 69) (j : Fin 4) (v : Word), (s.blk.serves p = false ∨ s.blk.domOn (tallyDom ↑blk) = false ∨ selectorOk (↑blk) (bitsAt v 0 16) = false ∧ selectorOk (↑blk) (bitsAt v 16 16) = false))
    ∧ (∃ (s : State) (p : Path), (s.blk.serves p = false)) :=
  ⟨⟨ksS, .i3c, 0x80000004, ((ksS.blk).ksWork 0x80000004), by decide +kernel⟩,
   ⟨ksS, .i3c, 0x80000000, ((ksS.blk).ksWork 0x80000000), by decide +kernel⟩,
   ⟨ksS, .i3c, 0x80000004, ((ksS.blk).ksWork 0x80000204), by decide +kernel⟩,
   ⟨ksS, .i3c, 0x80000000, ((ksS.blk).ksWork 0x80000200), by decide +kernel⟩,
   ⟨ksS, .i3c, by decide +kernel⟩,
   ⟨ksS, .inBand, 0, by decide +kernel⟩,
   ⟨quay0, .i3c, by decide +kernel⟩,
   ⟨quay0, .inBand, by decide +kernel⟩,
   ⟨quay0, .i3c, by decide +kernel⟩,
   ⟨quay0, .i3c, by decide +kernel⟩,
   ⟨(st { quayB with tl.cfg := some snapD }), .i3c, snapD, by decide +kernel⟩,
   ⟨quay0, .i3c, 3, 1, 0x00010001, by decide +kernel⟩,
   ⟨quay0, .i3c, 3, 1, 0, 0x7FFF0001, by decide +kernel⟩,
   ⟨quay0, .i3c, 3, 1, 0x7FFF7FFF, by decide +kernel⟩,
   ⟨dark0, .i3c, by decide +kernel⟩⟩

theorem hypotheses_resetValuesAndAlertN :
    (∃ (b : Block), (b.reg Off.ckAlarm &&& 15 ≠ 0 ∨ b.regBit Off.pwAlarm 5 = true ∨ b.pw.offReady = true))
    ∧ (∃ (b : Block) (e : Nat × Nat), (e ∈ alarmPairs) ∧ (b.reg e.fst &&& b.reg e.snd ≠ 0))
    ∧ (∃ (b : Block), (b.reg Off.ckAlarm &&& 15 = 0) ∧ (b.regBit Off.pwAlarm 5 = false) ∧ (b.pw.offReady = false) ∧ (∀ (e : Nat × Nat), e ∈ alarmPairs → b.reg e.fst &&& b.reg e.snd = 0)) :=
  ⟨⟨(quayB.setReg Off.ckAlarm 1), by decide +kernel⟩,
   ⟨((quayB.setReg Off.ckAlarm 0x80).setReg Off.ckAlarmEn 0x80), (Off.ckAlarm, Off.ckAlarmEn), by decide +kernel⟩,
   ⟨quayB, by decide +kernel⟩⟩

end Sys2Proof.Tests
end

section
/-! SUPPORT. Rules of a register access: the register file after a write, where the registers of a table entry lie, and the
frames of the components that a read or a write of one register sets. -/

namespace Sys2Proof.Machine

open Sys2Proof

/-! ### The register file -/

@[simp] theorem Block.reg_setReg_same (b : Block) (off : Nat) (v : Word) : (b.setReg off v).reg off = v := tget_tset_same ..

theorem Block.regField_eq_extract (b : Block) (off lo w : Nat) : b.regField off lo w = ((b.reg off).extractLsb' lo w).toNat := by
  rw [Block.regField, BitVec.extractLsb'_toNat, Nat.shiftRight_eq_div_pow]

theorem bitsAt_eq_extract (v : Word) (lo w : Nat) : bitsAt v lo w = (v.extractLsb' lo w).toNat := by
  rw [bitsAt, BitVec.extractLsb'_toNat, Nat.shiftRight_eq_div_pow]

/-! ### A word that takes the bits of another under a mask (R7) -/

/-- `old` with the bits under the mask taken from `v`. -/
def merge (mask old v : Word) : Word := (old &&& ~~~ mask) ||| (v &&& mask)

theorem merge_getElem (mask old v : Word) {i : Nat} (hi : i < 32) : (merge mask old v)[i] = if mask[i] then v[i] else old[i] := by
  simp only [merge, BitVec.getElem_or, BitVec.getElem_and, BitVec.getElem_not]
  cases mask[i] <;> simp

theorem merge_inside (mask old v : Word) : merge mask old v &&& mask = v &&& mask := by
  ext i hi
  simp only [BitVec.getElem_and, merge_getElem]
  cases mask[i] <;> simp

theorem merge_outside (mask old v : Word) : merge mask old v &&& ~~~ mask = old &&& ~~~ mask := by
  ext i hi
  simp only [BitVec.getElem_and, BitVec.getElem_not, merge_getElem]
  cases mask[i] <;> simp

theorem merge_getLsbD {mask : Word} (old v : Word) {i : Nat} (h : mask.getLsbD i = true) : (merge mask old v).getLsbD i = v.getLsbD i := by
  simp [merge, h]

theorem merge_extract {mask : Word} (old v : Word) {lo w : Nat} (h : mask.extractLsb' lo w = BitVec.allOnes w) :
    (merge mask old v).extractLsb' lo w = v.extractLsb' lo w := by
  ext i hi
  have bit : mask.getLsbD (lo + i) = true := by simpa [hi] using congrArg (·.getLsbD i) h
  simp only [BitVec.getElem_extractLsb', merge_getLsbD old v bit]

/-! ### Where the registers of the tables lie (R451) -/

/-- Every table of stored bits. -/
def allRegs : List Reg :=
  regsMF ++ regsCK ++ regsPW ++ regsLN ++ regsFW ++ regsQY ++ regsBT ++ regsCH ++ regsDC ++ regsST ++ regsHT ++ regsSV ++ regsCA ++ regsTL
    ++ regsPR ++ regsLG

theorem mem_allRegs {o : Nat} {r : Reg} (h : r ∈ regsAt o) : r ∈ allRegs := by
  unfold regsAt at h
  simp only [allRegs, List.mem_append]
  split at h
  case h_22 => exact absurd h List.not_mem_nil
  all_goals simp [h]

theorem Reg.exists_of_covers {r : Reg} {o : Nat} (h : r.covers o = true) : ∃ k < r.count, o = r.base + r.stride * k := by
  simp only [Reg.covers, Bool.and_eq_true, decide_eq_true_eq, beq_iff_eq] at h
  obtain ⟨⟨base, whole⟩, count⟩ := h
  refine ⟨_, count, ?_⟩
  have division := Nat.div_add_mod (o - r.base) r.stride
  omega

/-- A stored register is one of a table entry's. -/
theorem exists_of_regAt {o : Nat} {r : Reg} (h : regAt o = some r) : r ∈ allRegs ∧ ∃ k < r.count, o = r.base + r.stride * k :=
  ⟨mem_allRegs (List.mem_of_find?_eq_some h), Reg.exists_of_covers (by simpa using List.find?_some h)⟩

/-- What holds at every register of the table's entries that a test picks, holds at every stored register that it picks. -/
theorem of_regAt {o : Nat} {r : Reg} {P : Nat → Prop} {test : Reg → Bool}
    (all : ∀ r ∈ allRegs, test r = true → ∀ k < r.count, P (r.base + r.stride * k)) (h : regAt o = some r) (picked : test r = true) : P o := by
  obtain ⟨mem, k, lt, rfl⟩ := exists_of_regAt h
  exact all r mem picked k lt

/-! ### Frames of one component -/

theorem Within.of_subset {ps qs : List Piece} (h : ps ⊆ qs) : Within ps qs := by
  intro p hp
  cases p
  case reg | count | lane | berth | chan | col | side | fw | dom | slot => exact .inr (h hp)
  all_goals exact h hp

theorem Within.single {p : Piece} {qs : List Piece} (h : p.inside qs) : Within [p] qs := Within.cons h Within.nil

theorem Kept.rdData (b : Block) (x : Tbl Word) : Kept [.rdData] b { b with rdData := x } := by
  apply (Kept.refl _ b).of_fields (rdData := .inr (List.mem_singleton.2 rfl)) <;> exact .inl rfl

theorem Kept.tl (b : Block) (x : Tallies) : Kept [.tl] b { b with tl := x } := by
  apply (Kept.refl _ b).of_fields (tl := .inr (List.mem_singleton.2 rfl)) <;> exact .inl rfl

theorem Kept.jtagDr (b : Block) (x : BitVec 57) : Kept [.jtagDr] b { b with jtagDr := x } := by
  apply (Kept.refl _ b).of_fields (jtagDr := .inr (List.mem_singleton.2 rfl)) <;> exact .inl rfl

theorem Kept.prot (b : Block) (x : Prot) : Kept [.prot] b { b with prot := x } := by
  apply (Kept.refl _ b).of_fields (prot := .inr (List.mem_singleton.2 rfl)) <;> exact .inl rfl

theorem Kept.latch (b : Block) (x : Tbl (List Byte)) : Kept [.mf] b { b with mf.latch := x } := by
  apply Kept.of_fields (d := { b with mf.latch := x }) (Kept.refl _ b)
    (mf := .inr ⟨.inl (List.mem_singleton.2 rfl), .inr rfl, .inr rfl⟩) <;> exact .inl rfl

/-! ### Commands that change the block alone -/

/-- A command that makes the block `c` does what `c` shows. -/
theorem does_upd_eq {i : Instr} {s : State} {f : Block → Block} {c : Block} {ps : List Piece} {post : Block → Prop} (e : exec i s = s.upd f)
    (made : f s.blk = c) (frame : Kept ps s.blk c) (h : post c) : Does i s ps post := by
  subst made; exact does_upd e frame h

theorem exec_upd_same {i : Instr} {s : State} {f : Block → Block} (e : exec i s = s.upd f) (same : f s.blk = s.blk) : exec i s = .next s := by
  rw [e, State.upd, same]

end Sys2Proof.Machine
end

section
/-! SUPPORT. ALERT_N and the register file after reset. -/

namespace Sys2Proof.Machine

open Sys2Proof

/-! ### The register file after reset (R451) -/

theorem Block.reg_of_csr_nil {b : Block} (h : b.csr = []) (off : Nat) : b.reg off = csrReset off := by
  rw [Block.reg, h, tget]

theorem reset_reg (off : Nat) : State.reset.blk.reg off = csrReset off := Block.reg_of_csr_nil rfl off

theorem csrReset_of_table : ∀ e ∈ [(0x001000, 0xC), (0x010000, 3), (0x010014, 1), (0x020000, 0x40B), (0x080000, 0x1002), (0x0C000C, 4),
    (0x0C0014, 0x3000), (0x0C0018, 0x7FFF), (0x140000, 0x180A00), (0x150000, 0x3200), (0x160000, 2), (0x180000, 0x1000C), (0x180010, 0x96),
    (0x1A0000, 0x708), (0x1B0020, 0x3E8), (0x1C0008, 0x3E8)], (csrReset e.1).toNat = e.2 := by decide

theorem csrReset_lane : ∀ l : Fin 32, (csrReset (lnOff Off.lnCtrl l)).toNat = 1 ∧ (csrReset (lnOff Off.lnPrbsCtrl l)).toNat = 0x44 := by decide

theorem csrReset_chan : ∀ n : Fin 64, (csrReset (0x151000 + 0x40 * n)).toNat = 3 := by decide

theorem csrReset_alarm : ∀ e ∈ alarmPairs, csrReset e.1 = 0 := by decide +kernel

/-! ### ALERT_N (R38, R347, R376) -/

theorem Block.alertLow_iff (b : Block) : b.alertLow = true ↔
    (b.reg Off.ckAlarm &&& 0x0F ≠ 0 ∨ b.regBit Off.pwAlarm 5 = true ∨ b.pw.offReady = true)
      ∨ ∃ e ∈ alarmPairs, b.reg e.1 &&& b.reg e.2 ≠ 0 := by
  simp only [Block.alertLow, Block.alarmForced, Block.alarmOn, Bool.or_eq_true, bne_iff_ne, List.any_eq_true, or_assoc]

theorem Block.alertLow_eq_false {b : Block} (forced : b.reg Off.ckAlarm &&& 0x0F = 0) (rail : b.regBit Off.pwAlarm 5 = false)
    (ready : b.pw.offReady = false) (enabled : ∀ e ∈ alarmPairs, b.reg e.1 &&& b.reg e.2 = 0) : b.alertLow = false := by
  rw [← Bool.not_eq_true, Block.alertLow_iff]
  rintro ((h | h | h) | ⟨e, he, h⟩)
  · exact h forced
  · simp [rail] at h
  · simp [ready] at h
  · exact h (enabled e he)

theorem reset_alertLow : State.reset.blk.alertLow = false := by
  refine Block.alertLow_eq_false ?_ ?_ rfl fun e he => ?_
  · rw [reset_reg]; decide
  · rw [Block.regBit, reset_reg]; decide
  · rw [reset_reg, csrReset_alarm e he]; exact BitVec.zero_and

/-- Settles O60: the register file reads as the table of R451 after reset, and ALERT_N by its three causes. -/
theorem resetValuesAndAlertN : Obligations.ResetValuesAndAlertN := by
  refine ⟨fun e he => ?_, fun l => ⟨?_, ?_, rfl⟩, fun n => ⟨?_, rfl⟩, by decide, ⟨by decide, by decide, fun _ => rfl⟩,
    fun b h => b.alertLow_iff.mpr (.inl h), fun b e he h => b.alertLow_iff.mpr (.inr ⟨e, he, h⟩),
    fun b => Block.alertLow_eq_false, reset_alertLow⟩
  · rw [reset_reg]; exact csrReset_of_table e he
  · rw [reset_reg]; exact (csrReset_lane l).1
  · rw [reset_reg]; exact (csrReset_lane l).2
  · rw [reset_reg]; exact csrReset_chan n

end Sys2Proof.Machine
end

section
/-! SUPPORT. Register reads: what a read of one register returns and leaves. -/

namespace Sys2Proof.Machine

open Sys2Proof

/-! ### A read on a path (R443, R452) -/

theorem Block.csrRead_hidden {b : Block} {p : Path} {offset : Nat} (ev : Word) (h : b.mayRead p (offset / 4 * 4) = false) :
    b.csrRead p offset ev = (0, b) := by
  simp [Block.csrRead, h]

theorem Block.csrRead_single {b : Block} {p : Path} {offset : Nat} (ev : Word) (may : b.mayRead p (offset / 4 * 4) = true)
    (window : offset / 4 * 4 ≠ Off.mfRcptData) (single : pairLo (offset / 4 * 4) = none) :
    b.csrRead p offset ev = (b.peek p (offset / 4 * 4), b.clearRead p (offset / 4 * 4) ev) := by
  simp only [Block.csrRead, may, window, single, not_true, if_false]

theorem Block.csrRead_window {b : Block} {p : Path} (ev : Word) (may : b.mayRead p Off.mfRcptData = true) :
    b.csrRead p Off.mfRcptData ev = (BitVec.ofNat 32 (b.openWindow p).1, (b.openWindow p).2) := by
  have aligned : Off.mfRcptData / 4 * 4 = Off.mfRcptData := rfl
  simp [Block.csrRead, aligned, may]

/-- Outside the receipt window every read returns what the register shows. -/
theorem Block.csrRead_value (b : Block) (p : Path) {offset : Nat} (ev : Word) (window : offset / 4 * 4 ≠ Off.mfRcptData) :
    (b.csrRead p offset ev).1 = b.peek p (offset / 4 * 4) := by
  cases may : b.mayRead p (offset / 4 * 4)
  · simp [Block.csrRead, Block.peek, may]
  · simp only [Block.csrRead, may, window, not_true, if_false]
    split <;> rfl

/-- Outside the receipt window a read changes at most a holding register, its own register and the tallies' peaks. -/
theorem Block.csrRead_frame (b : Block) (p : Path) {offset : Nat} (ev : Word) (window : offset / 4 * 4 ≠ Off.mfRcptData) :
    Kept [.hold, .regs, .tl] b (b.csrRead p offset ev).2 := by
  unfold Block.csrRead
  simp only [window, if_false]
  split
  · exact Kept.refl _ _
  split
  · split
    · exact (Block.setHold_kept ..).mono (Within.of rfl)
    · exact Kept.refl _ _
  · exact (Block.clearRead_kept ..).mono (Within.cons (.inl (by simp)) (Within.of rfl))

/-! ### The value is kept as what the path read last -/

@[simp] theorem Block.readOn_lastRead (b : Block) (p : Path) (off : Nat) (ev : Word) :
    (b.readOn p off ev).lastRead p = (b.csrRead p off ev).1 := tget_tset_same ..

theorem Block.readOn_reg (b : Block) (p : Path) (off : Nat) (ev : Word) (o : Nat) :
    (b.readOn p off ev).reg o = (b.csrRead p off ev).2.reg o := rfl

theorem Block.readOn_frame {ps qs : List Piece} {b : Block} {p : Path} {off : Nat} {ev : Word} (h : Kept ps b (b.csrRead p off ev).2)
    (inside : Within ps qs) (listed : .rdData ∈ qs) : Kept qs b (b.readOn p off ev) :=
  Kept.step (Kept.rdData ..) (Within.single listed) (h.mono inside)

/-! ### Registers with a read-clear field (R7, R452) -/

theorem regAt_clears {o : Nat} {r : Reg} (h : regAt o = some r) (rc : r.rc ≠ 0) :
    pairLo o = none ∧ o ≠ Off.tlBwPeak ∧ o ≠ Off.mfRcptData ∧ clearsOnRead o = true :=
  of_regAt (P := fun o => pairLo o = none ∧ o ≠ Off.tlBwPeak ∧ o ≠ Off.mfRcptData ∧ clearsOnRead o = true) (test := fun r => r.rc != 0)
    (by decide) h (by simpa using rc)

theorem Block.clearRead_stored {b : Block} {p : Path} {o : Nat} {r : Reg} (ev : Word) (h : regAt o = some r) (rc : r.rc ≠ 0)
    (tags : o ≠ Off.qyTags) : b.clearRead p o ev = b.setReg o (merge r.rc (b.reg o) ev) := by
  obtain ⟨-, peak, -, -⟩ := regAt_clears h rc
  simp only [Block.clearRead, peak, h, rc, tags, if_false, merge]

theorem Block.csrRead_clears {b : Block} {p : Path} {offset o : Nat} {r : Reg} (ev : Word) (ho : offset / 4 * 4 = o) (may : b.mayRead p o = true)
    (h : regAt o = some r) (rc : r.rc ≠ 0) : b.csrRead p offset ev = (b.peek p o, b.clearRead p o ev) := by
  subst ho
  obtain ⟨single, -, window, -⟩ := regAt_clears h rc
  exact Block.csrRead_single ev may window single

/-- QY_TAGS' high-water mark starts again from the tags held. -/
theorem Block.clearRead_qyTags (b : Block) (p : Path) (ev : Word) :
    b.clearRead p Off.qyTags ev = b.setReg Off.qyTags (merge 0x7FFF0000 (b.reg Off.qyTags) (BitVec.ofNat 32 (b.tagsHeld * 2 ^ 16))) := rfl

theorem highWater_restarts (old : Word) (n : Nat) :
    ((merge 0x7FFF0000 old (BitVec.ofNat 32 (n * 2 ^ 16))).extractLsb' 16 15).toNat = n % 2 ^ 15 := by
  rw [merge_extract _ _ (by decide), BitVec.extractLsb'_toNat, BitVec.toNat_ofNat, Nat.shiftRight_eq_div_pow]
  omega

theorem Block.clearRead_tlBwPeak (b : Block) (p : Path) (ev : Word) : b.clearRead p Off.tlBwPeak ev
    = { b with tl.peak := tset (fun _ => 0) b.tl.peak ((b.selReg p Off.tlBwSel).toNat % 256) ev.toNat } := rfl

/-! ### RC_READ -/

theorem does_rcRead {s : State} {p : Path} {offset : BitVec 24} {ev : Word} {ps : List Piece} {post : Block → Prop} (serves : s.blk.serves p = true)
    (clears : clearsOnRead (offset.toNat / 4 * 4) = true) (frame : Kept ps s.blk (s.blk.readOn p offset.toNat ev))
    (h : post (s.blk.readOn p offset.toNat ev)) : Does (.rcRead p offset ev) s ps post :=
  does_upd_eq (i := .rcRead p offset ev) rfl (by simp [serves, clears]) frame h

theorem exec_rcRead_idle {s : State} {p : Path} {offset : BitVec 24} (ev : Word)
    (h : s.blk.serves p = false ∨ clearsOnRead (offset.toNat / 4 * 4) = false) : exec (.rcRead p offset ev) s = .next s :=
  exec_upd_same (i := .rcRead p offset ev) rfl (by rcases h with h | h <;> simp [h])

theorem rcRead_stored {s : State} {p : Path} {offset : BitVec 24} (ev : Word) {o : Nat} {r : Reg} (ho : offset.toNat / 4 * 4 = o)
    (serves : s.blk.serves p = true) (may : s.blk.mayRead p o = true) (h : regAt o = some r) (rc : r.rc ≠ 0) (tags : o ≠ Off.qyTags) :
    Does (.rcRead p offset ev) s [.rdData, .reg o] fun b =>
      b.lastRead p = s.blk.peek p o ∧ b.reg o &&& r.rc = ev &&& r.rc ∧ b.reg o &&& ~~~ r.rc = s.blk.reg o &&& ~~~ r.rc := by
  have read := Block.csrRead_clears ev ho may h rc
  rw [Block.clearRead_stored ev h rc tags] at read
  obtain ⟨-, -, -, clears⟩ := regAt_clears h rc
  refine does_rcRead serves (ho ▸ clears) (Block.readOn_frame (ps := [.reg o]) ?_ (Within.of_subset (by simp)) (by simp)) ⟨?_, ?_, ?_⟩
  · rw [read]; exact Kept.setReg ..
  · rw [Block.readOn_lastRead, read]
  · rw [Block.readOn_reg, read, Block.reg_setReg_same, merge_inside]
  · rw [Block.readOn_reg, read, Block.reg_setReg_same, merge_outside]

theorem rcRead_qyTags {s : State} {p : Path} {offset : BitVec 24} (ev : Word) (ho : offset.toNat / 4 * 4 = Off.qyTags)
    (serves : s.blk.serves p = true) (may : s.blk.mayRead p Off.qyTags = true) :
    Does (.rcRead p offset ev) s [.rdData, .reg Off.qyTags] fun b =>
      b.lastRead p = s.blk.peek p Off.qyTags ∧ b.regField Off.qyTags 16 15 = s.blk.tagsHeld % 2 ^ 15 := by
  have read := Block.csrRead_clears ev ho may rfl (by decide)
  rw [Block.clearRead_qyTags] at read
  refine does_rcRead serves (ho ▸ rfl) (Block.readOn_frame (ps := [.reg Off.qyTags]) ?_ (Within.of rfl) (by simp)) ⟨?_, ?_⟩
  · rw [read]; exact Kept.setReg ..
  · rw [Block.readOn_lastRead, read]
  · rw [Block.regField_eq_extract, Block.readOn_reg, read, Block.reg_setReg_same, highWater_restarts]

theorem rcRead_tlBwPeak {s : State} {p : Path} {offset : BitVec 24} (ev : Word) (ho : offset.toNat / 4 * 4 = Off.tlBwPeak)
    (serves : s.blk.serves p = true) (may : s.blk.mayRead p Off.tlBwPeak = true) :
    Does (.rcRead p offset ev) s [.rdData, .tl] fun b =>
      b.lastRead p = s.blk.peek p Off.tlBwPeak
        ∧ ∀ k : Fin 256, tget (fun _ => 0) b.tl.peak k
          = if k.val = (s.blk.selReg p Off.tlBwSel).toNat % 256 then ev.toNat else tget (fun _ => 0) s.blk.tl.peak k := by
  have read := Block.csrRead_single (offset := offset.toNat) ev (ho ▸ may) (by rw [ho]; decide) (by rw [ho]; rfl)
  rw [ho, Block.clearRead_tlBwPeak] at read
  refine does_rcRead serves (ho ▸ rfl) (Block.readOn_frame (ps := [.tl]) ?_ (Within.of rfl) (by simp)) ⟨?_, fun k => ?_⟩
  · rw [read]; exact Kept.tl ..
  · rw [Block.readOn_lastRead, read]
  · rw [Block.readOn, read, tget_tset]; simp only [eq_comm]

theorem Block.mayRead_unreachable {b : Block} (p : Path) {o : Nat} (h : b.reachable o = false) : b.mayRead p o = false := by
  simp [Block.mayRead, h]

theorem Block.readOn_hidden {b : Block} {p : Path} {off : Nat} (ev : Word) (h : b.mayRead p (off / 4 * 4) = false) :
    Kept [.rdData] b (b.readOn p off ev) ∧ (b.readOn p off ev).lastRead p = 0 := by
  refine ⟨Block.readOn_frame (ps := []) ?_ Within.nil (by simp), ?_⟩
  · rw [Block.csrRead_hidden ev h]; exact Kept.refl _ _
  · rw [Block.readOn_lastRead, Block.csrRead_hidden ev h]

/-! ### RCPT_WINDOW_READ (R321) -/

theorem does_rcptWindowRead {s : State} {p : Path} {ps : List Piece} {post : Block → Prop} (serves : s.blk.serves p = true)
    (frame : Kept ps s.blk (s.blk.readOn p Off.mfRcptData 0)) (h : post (s.blk.readOn p Off.mfRcptData 0)) : Does (.rcptWindowRead p) s ps post :=
  does_upd_eq (i := .rcptWindowRead p) rfl (by simp [serves]) frame h

theorem Block.mayRead_mfRcptData (b : Block) (p : Path) : b.mayRead p Off.mfRcptData = !(p == .inBand) := by
  cases p <;> rfl

/-- The block with the window's slot latched for the path. -/
def Block.latched (b : Block) (p : Path) : Block := { b with mf.latch := tset (fun _ => []) b.mf.latch (pathNo p) (slotBytes (b.windowSlot p)) }

theorem Block.openWindow_eq (b : Block) (p : Path) : b.openWindow p = (wordAt (slotBytes (b.windowSlot p)) 0,
    if (b.windowSlot p).st = .done ∧ (b.windowSlot p).readAgain = false
    then (b.latched p).setSlot (slotKey ((b.selReg p Off.mfRcptRing).toNat % 64) (b.windowSlot p).seq) (b.windowSlot p).marked
    else b.latched p) := by
  simp only [Block.openWindow, Block.latched, Bool.not_eq_true]

theorem Slot.marked_shown (x : Slot) :
    { x.marked with stored := [], touched := 0 } = { { x with readAgain := true } with stored := [], touched := 0 } := rfl

theorem Block.setSlot_slot_same (b : Block) (k : Nat) (x : Slot) : (b.setSlot k x).slot k = x := tget_tset_same ..

theorem Block.openWindow_frame (b : Block) (p : Path) :
    Kept [.mf, .slot (slotKey ((b.selReg p Off.mfRcptRing).toNat % 64) (b.windowSlot p).seq)] b (b.openWindow p).2 := by
  rw [Block.openWindow_eq]
  have latch := (Kept.latch b (tset (fun _ => []) b.mf.latch (pathNo p) (slotBytes (b.windowSlot p)))).mono
    (Within.single (List.mem_cons_self (l := [.slot (slotKey ((b.selReg p Off.mfRcptRing).toNat % 64) (b.windowSlot p).seq)])))
  exact Kept.ite (Kept.step (Kept.setSlot ..) (Within.single (.inr (by simp))) latch) latch

theorem Block.openWindow_latch (b : Block) (p : Path) : tget (fun _ => []) (b.openWindow p).2.mf.latch (pathNo p) = slotBytes (b.windowSlot p) := by
  rw [Block.openWindow_eq]
  dsimp only
  split <;> exact tget_tset_same ..

/-- A DONE slot that the window shows is marked READ_AGAIN; another stays. -/
theorem Block.openWindow_slot (b : Block) (p : Path) {k : Nat} (hk : slotKey ((b.selReg p Off.mfRcptRing).toNat % 64) (b.windowSlot p).seq = k) :
    (b.openWindow p).2.slot k = if (b.windowSlot p).st = .done ∧ (b.windowSlot p).readAgain = false then (b.windowSlot p).marked else b.slot k := by
  subst hk
  rw [Block.openWindow_eq]
  dsimp only
  split
  · exact Block.setSlot_slot_same ..
  · rfl

theorem rcptWindowRead_sideband {s : State} {p : Path} {x : Slot} {k : Nat} (serves : s.blk.serves p = true) (side : (p == .inBand) = false)
    (hx : s.blk.windowSlot p = x) (hk : slotKey ((s.blk.selReg p Off.mfRcptRing).toNat % 64) x.seq = k) :
    Does (.rcptWindowRead p) s [.rdData, .mf, .slot k] fun b =>
      b.lastRead p = BitVec.ofNat 32 (wordAt (slotBytes x) 0) ∧ tget (fun _ => []) b.mf.latch (pathNo p) = slotBytes x
        ∧ { b.slot k with stored := [], touched := 0 }
          = { (if x.st = .done ∧ x.readAgain = false then { x with readAgain := true } else s.blk.slot k) with stored := [], touched := 0 } := by
  subst hx
  have read := Block.csrRead_window (b := s.blk) (p := p) 0 (by rw [Block.mayRead_mfRcptData, side]; rfl)
  have frame : Kept [.mf, .slot k] s.blk (s.blk.csrRead p Off.mfRcptData 0).2 := by
    rw [read, ← hk]; exact s.blk.openWindow_frame p
  refine does_rcptWindowRead serves (Block.readOn_frame frame (Within.of_subset (by simp)) (by simp)) ⟨?_, ?_, ?_⟩
  · rw [Block.readOn_lastRead, read, Block.openWindow_eq]
  · rw [Block.readOn, read]; exact s.blk.openWindow_latch p
  · have slot : (s.blk.readOn p Off.mfRcptData 0).slot k = (s.blk.openWindow p).2.slot k := by rw [Block.readOn, read]; rfl
    rw [slot, s.blk.openWindow_slot p hk]
    split
    · exact Slot.marked_shown _
    · rfl

theorem rcptWindowRead_inBand {s : State} (serves : s.blk.serves .inBand = true) :
    Does (.rcptWindowRead .inBand) s [.rdData] fun b => b.lastRead .inBand = 0 :=
  have hidden := Block.readOn_hidden (p := .inBand) (off := Off.mfRcptData) 0 (s.blk.mayRead_mfRcptData .inBand)
  does_rcptWindowRead serves hidden.1 hidden.2

theorem exec_rcptWindowRead_idle {s : State} {p : Path} (h : s.blk.serves p = false) : exec (.rcptWindowRead p) s = .next s :=
  exec_upd_same (i := .rcptWindowRead p) rfl (by simp [h])

/-! ### CSR_ACC (R446) -/

theorem Block.sidebandOpen_iff (b : Block) : b.sidebandOpen = true ↔
    (¬ b.pw.st = .dark ∧ b.pins.railsLow.contains .io = false) ∧ ¬ (b.pw.st = .frozen ∨ b.sv.inScan = true) := by
  simp only [Block.sidebandOpen, Bool.and_eq_true, bne_iff_ne, Bool.not_eq_true', not_or, Bool.not_eq_true]; tauto

/-- The byte offset in the data register of CSR_ACC. -/
def accOffset (dr : BitVec 57) : Nat := dr.toNat / 2 ^ 34 % 2 ^ 22 * 4

theorem accOffset_aligned (dr : BitVec 57) : accOffset dr / 4 * 4 = accOffset dr := by
  rw [accOffset, Nat.mul_div_cancel _ (by decide)]

theorem Block.csrAcc_dead {b : Block} {dr : BitVec 57} (h : b.pw.st = .dark ∨ b.pins.railsLow.contains .io = true) : b.csrAcc dr = b := by
  rw [Block.csrAcc, if_pos h]

theorem Block.csrAcc_unavailable {b : Block} {dr : BitVec 57} (alive : ¬ (b.pw.st = .dark ∨ b.pins.railsLow.contains .io = true))
    (h : b.pw.st = .frozen ∨ b.sv.inScan = true) : b.csrAcc dr = { b with jtagDr := captured 2 0 } := by
  rw [Block.csrAcc, if_neg alive, if_pos h]

theorem Block.csrAcc_open {b : Block} (dr : BitVec 57) (h : b.sidebandOpen = true) : b.csrAcc dr =
    if dr.getLsbD 56 = true then { b.csrWrite .jtag (accOffset dr) (dr.truncate 32) with jtagDr := captured 0 0 }
    else { b.readOn .jtag (accOffset dr) 0 with jtagDr := captured 0 ((b.readOn .jtag (accOffset dr) 0).lastRead .jtag) } := by
  obtain ⟨⟨dark, rail⟩, closed⟩ := b.sidebandOpen_iff.mp h
  rw [Block.csrAcc, if_neg (not_or.mpr ⟨dark, Bool.not_eq_true _ ▸ rail⟩), if_neg closed]
  rfl

theorem exec_csrAcc_upd (dr : BitVec 57) (s : State) : exec (.csrAcc dr) s = s.upd (·.csrAcc dr) := rfl

theorem csrAcc_read {s : State} {dr : BitVec 57} {o : Nat} (ho : dr.toNat / 2 ^ 34 % 2 ^ 22 * 4 = o) (read : dr.getLsbD 56 = false)
    (opened : s.blk.sidebandOpen = true) (window : (o == Off.mfRcptData) = false) :
    Does (.csrAcc dr) s [.hold, .rdData, .jtagDr, .regs, .tl] fun b => b.jtagDr = captured 0 (s.blk.peek .jtag o) := by
  change accOffset dr = o at ho
  have aligned : accOffset dr / 4 * 4 = o := by rw [accOffset_aligned, ho]
  have elsewhere : accOffset dr / 4 * 4 ≠ Off.mfRcptData := by rw [aligned]; simpa using window
  refine does_upd_eq (exec_csrAcc_upd dr s) ((Block.csrAcc_open dr opened).trans (if_neg (Bool.not_eq_true _ ▸ read))) ?_ ?_
  · exact Kept.step (Kept.jtagDr ..) (Within.of rfl) (Block.readOn_frame (Block.csrRead_frame _ _ _ elsewhere) (Within.of rfl) (by simp))
  · rw [Block.readOn_lastRead, Block.csrRead_value _ _ _ elsewhere, aligned]

theorem csrAcc_unavailable {s : State} {dr : BitVec 57} (dark : (s.blk.pw.st == .dark) = false) (rail : s.blk.pins.railsLow.contains .io = false)
    (closed : (s.blk.pw.st == .frozen || s.blk.sv.inScan) = true) :
    Does (.csrAcc dr) s [.jtagDr] fun b => b.jtagDr.toNat = 2 * 2 ^ 32 := by
  have alive : ¬ (s.blk.pw.st = .dark ∨ s.blk.pins.railsLow.contains .io = true) := by rw [rail]; simpa using dark
  exact does_upd_eq (exec_csrAcc_upd dr s) (Block.csrAcc_unavailable alive (by simpa using closed)) (Kept.jtagDr ..) rfl

/-- Settles O53: each clause is the rule of its command on its path. -/
theorem registerReads : Obligations.RegisterReads := by
  refine ⟨fun s p offset ev o r ho serves may h rc tags => ?_, fun s p offset ev => rcRead_qyTags ev, fun s p offset ev => rcRead_tlBwPeak ev,
    fun s p offset ev serves clears hidden => ?_, fun s p offset ev => exec_rcRead_idle ev, fun s p x k => rcptWindowRead_sideband,
    fun s => rcptWindowRead_inBand, fun s p => exec_rcptWindowRead_idle, fun s dr o => csrAcc_read, fun s dr => csrAcc_unavailable, fun s dr dead => ?_⟩
  · exact rcRead_stored ev ho serves may h (by simpa using rc) tags
  · obtain ⟨frame, zero⟩ := Block.readOn_hidden (p := p) (off := offset.toNat) ev (Block.mayRead_unreachable p hidden)
    exact does_rcRead serves clears frame zero
  · exact exec_upd_same (exec_csrAcc_upd dr s) (Block.csrAcc_dead (by simpa using dead))

end Sys2Proof.Machine
end

section
/-! SUPPORT. Register writes: which registers a write only stores in the register file, and what locks, limits and transfers do. -/

namespace Sys2Proof.Machine

open Sys2Proof

/-! ### Registers that a write only stores -/

/-- A write at the offset goes to the register file alone, as it stands: no side effect, lock or range. -/
def fileOnly (off : Nat) : Bool :=
  match off / 0x10000 with
  | 0x00 => off == Off.mfAlarm || off == Off.mfAlarmEn
  | 0x01 => off == Off.ckCtrl || off == Off.ckAlarm || off == Off.ckAlarmEn || off == Off.ckResetCause
  | 0x02 => off == Off.pwAlarm || off == Off.pwAlarmEn
  | 0x04 | 0x05 =>
    if off % 0x10000 < 0x4000 then [0x014, 0x034, 0x044, 0x0D0, 0x0D4].contains (off % 0x400) else off % 0x10000 == 0x4004
  | 0x08 => off != Off.fwCtrl
  | 0x0C => off == Off.qyTags || off == Off.qyAlarm || off == Off.qyAlarmEn
  | 0x10 | 0x11 | 0x12 | 0x13 => off % 0x1000 != 0
  | 0x14 => off == Off.chAlarm || off == Off.chAlarmEn
  | 0x15 => off != Off.dcCtrl
  | 0x16 => off == Off.stAlarm || off == Off.stAlarmEn
  | 0x18 => off == Off.htAlarm || off == Off.htAlarmEn
  | 0x1A => off == Off.caAlarm || off == Off.caAlarmEn
  | 0x1B => off == Off.tlSkipped || off == Off.tlAlarm || off == Off.tlAlarmEn || (off ≥ Off.tlCycLo && off % 0x80 == 0x48)
  | 0x1C => off == Off.prAlarm || off == Off.prAlarmEn || off == Off.prErrLost
  | 0x1E => off == Off.lgAlarm || off == Off.lgAlarmEn
  | _ => false

/-- The entry has no writable bits, so that a write can only clear alarms. -/
def Reg.readOnly (r : Reg) : Bool := !r.banked && r.rw == 0 && r.rwl == 0

theorem fileOnly_readOnly_entry : ∀ r ∈ allRegs, r.readOnly = true → ∀ k < r.count, fileOnly (r.base + r.stride * k) = true := by decide +kernel

theorem fileOnly_readOnly {o : Nat} {r : Reg} (h : regAt o = some r) (ro : r.readOnly = true) : fileOnly o = true :=
  of_regAt (P := fun o => fileOnly o = true) fileOnly_readOnly_entry h ro

theorem fileOnly_enable : ∀ o ∈ alarmPairs.map (·.2), fileOnly o = true := by decide +kernel

theorem fileOnly_lnTxDrv : ∀ l : Fin 32, fileOnly (lnOff Off.lnTxDrv l) = true := by decide

theorem fileOnly_dcChCtrl : ∀ n : Fin 64, fileOnly (0x151000 + 0x40 * n.val) = true := by decide

theorem fileOnly_of_plain {o : Nat} {r : Reg} (h : regAt o = some r) (nb : r.banked = false) (rwl : r.rwl = 0)
    (plain : r.rw = 0 ∨ o ∈ alarmPairs.map (·.2) ∨ o = Off.ckCtrl ∨ (∃ l : Fin 32, o = lnOff Off.lnTxDrv l)
      ∨ ∃ n : Fin 64, o = 0x151000 + 0x40 * n.val) :
    fileOnly o = true := by
  rcases plain with rw | en | rfl | ⟨l, rfl⟩ | ⟨n, rfl⟩
  · exact fileOnly_readOnly h (by simp [Reg.readOnly, nb, rw, rwl])
  · exact fileOnly_enable o en
  · rfl
  · exact fileOnly_lnTxDrv l
  · exact fileOnly_dcChCtrl n

/-! ### A write in each block of the register space -/

/-- The offset is no control register, which heads a page of 0x1000 bytes, nor HT_PCAP: the registers of the blocks that
`Block.writeRest` serves whose write acts or keeps to a range. -/
def unranged (off : Nat) : Bool := off % 0x1000 != 0 && off != Off.htPcap

theorem ne_of_unranged {o c : Nat} (h : unranged o = true) (hc : unranged c = false) : o ≠ c := by
  rintro rfl
  rw [h] at hc
  cases hc

theorem unranged_of_either {o x y : Nat} (h : (o == x || o == y) = true) (hx : unranged x = true) (hy : unranged y = true) : unranged o = true := by
  simp only [Bool.or_eq_true, beq_iff_eq] at h
  rcases h with rfl | rfl
  · exact hx
  · exact hy

theorem unranged_of_berth {o : Nat} (berth : o / 0x10000 ∈ [0x10, 0x11, 0x12, 0x13]) (inner : o % 0x1000 ≠ 0) : unranged o = true := by
  have pcap : o ≠ Off.htPcap := by rintro rfl; exact absurd berth (by decide)
  simp [unranged, inner, pcap]

section
variable (b : Block) (p : Path) {o : Nat} (v : Word)

theorem Block.writeMF_file (h : o = Off.mfAlarm ∨ o = Off.mfAlarmEn) : b.writeMF p o v = b.putReg o v := by
  rcases h with rfl | rfl <;> rfl

theorem Block.writeCK_file (h : ((o = Off.ckCtrl ∨ o = Off.ckAlarm) ∨ o = Off.ckAlarmEn) ∨ o = Off.ckResetCause) :
    b.writeCK p o v = b.putReg o v := by
  rcases h with ((rfl | rfl) | rfl) | rfl <;> rfl

theorem Block.writeQY_file (h : (o = Off.qyTags ∨ o = Off.qyAlarm) ∨ o = Off.qyAlarmEn) : b.writeQY o v = b.putReg o v := by
  rcases h with (rfl | rfl) | rfl <;> rfl

theorem Block.writePR_file (h : (o = Off.prAlarm ∨ o = Off.prAlarmEn) ∨ o = Off.prErrLost) : b.writePR p o v = b.putReg o v := by
  rcases h with (rfl | rfl) | rfl <;> rfl

theorem Block.writeTL_file (h : ((o = Off.tlSkipped ∨ o = Off.tlAlarm) ∨ o = Off.tlAlarmEn) ∨ Off.tlCycLo ≤ o ∧ o % 0x80 = 0x48) :
    b.writeTL p o v = b.putReg o v := by
  rcases h with ((rfl | rfl) | rfl) | ⟨low, rel⟩
  · rfl
  · rfl
  · rfl
  · have low : 0x1B1000 ≤ o := low
    have ctrl : o ≠ Off.tlCtrl := Nat.ne_of_gt (lt_of_lt_of_le (by decide) low)
    have sel : o ≠ Off.tlBwSel := Nat.ne_of_gt (lt_of_lt_of_le (by decide) low)
    have window : o ≠ Off.tlBwWindow := Nat.ne_of_gt (lt_of_lt_of_le (by decide) low)
    simp [Block.writeTL, ctrl, sel, window, rel]

theorem laneBase_laneOf (block : o / 0x10000 = 4 ∨ o / 0x10000 = 5) (low : o % 0x10000 < 0x4000) :
    laneBase (laneOf (if o / 0x10000 = 4 then .west else .east) (o % 0x10000 / 0x400)) + o % 0x10000 % 0x400 = o := by
  rcases block with h | h
  · rw [if_pos h, laneOf, laneBase, if_pos (by omega)]; omega
  · rw [if_neg (by omega), laneOf, laneBase, if_neg (by omega)]; omega

theorem Block.writeLane_file {l r : Nat} (h : r ∈ [0x014, 0x034, 0x044, 0x0D0, 0x0D4]) :
    b.writeLane p l r v = b.putReg (laneBase l + r) v := by
  simp only [List.mem_cons, List.not_mem_nil, or_false] at h
  rcases h with rfl | rfl | rfl | rfl | rfl <;> rfl

theorem Block.writeLN_file (block : o / 0x10000 = 4 ∨ o / 0x10000 = 5)
    (h : if o % 0x10000 < 0x4000 then o % 0x400 ∈ [0x014, 0x034, 0x044, 0x0D0, 0x0D4] else o % 0x10000 = 0x4004) :
    b.writeLN p o v = b.putReg o v := by
  unfold Block.writeLN
  split at h
  case isTrue low =>
    have rel : o % 0x10000 % 0x400 = o % 0x400 := by omega
    simp only [low, if_true]
    rw [Block.writeLane_file b p v (by rwa [rel]), laneBase_laneOf block low]
  case isFalse high =>
    have ssc : ∀ sd, o ≠ sideOff Off.lnSideSsc sd := by
      rintro (_ | _) rfl <;> exact absurd h (by decide)
    simp only [high, if_false, Block.writeSide, ssc]

/-- The blocks in which only single fields keep to a range. -/
theorem Block.writeRest_file {r : Reg} (h : regAt o = some r) (nb : r.banked = false) (free : unranged o = true) :
    b.writeRest p o v = b.putReg o v := by
  have pw : o ≠ Off.pwCtrl := ne_of_unranged free rfl
  have ht : o ≠ Off.htPcap := ne_of_unranged free rfl
  have sv : o ≠ Off.svCtrl := ne_of_unranged free rfl
  have ca : o ≠ Off.caCtrl := ne_of_unranged free rfl
  have inner : o % 0x1000 ≠ 0 := fun e => by simp [unranged, e] at free
  simp [Block.writeRest, pw, ht, sv, ca, h, nb, inner]

end

/-! ### The write itself -/

theorem Block.csrWrite_unreachable {b : Block} {p : Path} {offset : Nat} (v : Word) (h : b.reachable (offset / 4 * 4) = false) :
    b.csrWrite p offset v = b := by
  simp [Block.csrWrite, h]

theorem Block.csrWrite_file {b : Block} {p : Path} {offset : Nat} (v : Word) {o : Nat} {r : Reg} (ho : offset / 4 * 4 = o)
    (reach : b.reachable o = true) (h : regAt o = some r) (nb : r.banked = false) (file : fileOnly o = true) : b.csrWrite p offset v = b.putReg o v := by
  have rest (free : unranged o = true) : b.writeRest p o v = b.putReg o v := b.writeRest_file p v h nb free
  have beside {c : Nat} {x : Block} (free : unranged o = true) (head : unranged c = false) : (if o = c then x else b.writeRest p o v) = b.putReg o v :=
    (if_neg (ne_of_unranged free head)).trans (rest free)
  simp only [Block.csrWrite, ho, reach, not_true, if_false]
  unfold fileOnly at file
  split at file
  case h_1 block => simpa only [block] using b.writeMF_file p v (by simpa using file)
  case h_2 block => simpa only [block] using b.writeCK_file p v (by simpa using file)
  case h_3 block | h_16 block | h_19 block => simpa only [block] using rest (unranged_of_either file rfl rfl)
  case h_4 block => simpa only [block] using b.writeLN_file p v (.inl block) (by simpa using file)
  case h_5 block => simpa only [block] using b.writeLN_file p v (.inr block) (by simpa using file)
  case h_6 block | h_13 block => simp only [block]; exact if_neg (by simpa using file)
  case h_7 block => simpa only [block] using b.writeQY_file v (by simpa using file)
  case h_8 block | h_9 block | h_10 block | h_11 block =>
    simpa only [block] using rest (unranged_of_berth (by simp [block]) (by simpa using file))
  case h_12 block | h_14 block | h_15 block =>
    simpa only [block] using beside (unranged_of_either file rfl rfl) rfl
  case h_17 block => simpa only [block] using b.writeTL_file p v (by simpa using file)
  case h_18 block => simpa only [block] using b.writePR_file p v (by simpa using file)
  case h_20 => cases file

/-- A stored register takes the bits that the write may set, and its W1C bits written 1 clear. -/
theorem Block.putReg_stored (b : Block) {o : Nat} {r : Reg} (v open_ : Word) (h : regAt o = some r) :
    b.putReg o v open_ = b.setReg o (merge ((r.rw ||| r.rwl) &&& open_) (b.reg o) v &&& ~~~ (v &&& r.w1c)) := by
  simp only [Block.putReg, h, merge]

theorem Block.putReg_unclearing (b : Block) {o : Nat} {r : Reg} (v open_ : Word) (h : regAt o = some r) (w1c : r.w1c = 0#32) :
    b.putReg o v open_ = b.setReg o (merge ((r.rw ||| r.rwl) &&& open_) (b.reg o) v) := by
  rw [Block.putReg_stored b v open_ h, w1c, BitVec.and_zero, BitVec.not_zero, BitVec.and_allOnes]

/-! ### Writes on a path -/

theorem Block.writeOn_served {b : Block} {p : Path} (off : Nat) (v : Word) (h : b.serves p = true) : b.writeOn p off v = b.csrWrite p off v := if_pos h

theorem Block.writeOn_unserved {b : Block} {p : Path} (off : Nat) (v : Word) (h : b.serves p = false) : b.writeOn p off v = b :=
  if_neg (Bool.not_eq_true _ ▸ h)

theorem exec_csrWrite_access (p : Path) (offset : BitVec 24) (v : Word) (s : State) :
    exec (.csrWrite (.access p offset v)) s = s.upd (·.writeOn p offset.toNat v) := rfl

theorem exec_csrWrite_transfer (smbus : Bool) (addr : BitVec 7) (bytes : List Byte) (s : State) :
    exec (.csrWrite (.transfer smbus addr bytes)) s = s.upd (·.sideTransfer smbus addr bytes) := rfl

/-! The rows that write one register. -/

theorem exec_tableLock_upd (p : Path) (s : State) : exec (.tableLock p) s = s.upd (·.writeBits p Off.qyCtrl 2) := rfl

theorem exec_mfLock_upd (p : Path) (v : Word) (s : State) : exec (.mfLock p v) s = s.upd (·.writeOn p Off.mfCtrl v) := rfl

theorem exec_beTagsWrite_upd (p : Path) (v : Word) (s : State) : exec (.beTagsWrite p v) s = s.upd (·.writeOn p Off.qyLimit v) := rfl

theorem exec_prErrRdWrite_upd (p : Path) (v : Word) (s : State) : exec (.prErrRdWrite p v) s = s.upd (·.writeOn p Off.prErrRd v) := rfl

theorem exec_csrWrite_idle {s : State} {p : Path} {offset : BitVec 24} (v : Word)
    (h : s.blk.serves p = false ∨ s.blk.reachable (offset.toNat / 4 * 4) = false) : exec (.csrWrite (.access p offset v)) s = .next s := by
  refine exec_upd_same (exec_csrWrite_access p offset v s) ?_
  rcases h with h | h
  · exact Block.writeOn_unserved _ v h
  · rw [Block.writeOn, Block.csrWrite_unreachable v h, ite_self]

theorem csrWrite_plain {s : State} {p : Path} {offset : BitVec 24} (v : Word) {o : Nat} {r : Reg} (ho : offset.toNat / 4 * 4 = o)
    (serves : s.blk.serves p = true) (reach : s.blk.reachable o = true) (h : regAt o = some r) (nb : r.banked = false) (file : fileOnly o = true)
    (rwl : r.rwl = 0) :
    Does (.csrWrite (.access p offset v)) s [.reg o] fun b => b.reg o = ((s.blk.reg o &&& ~~~ r.rw) ||| (v &&& r.rw)) &&& ~~~ (v &&& r.w1c) := by
  have writable : (r.rw ||| r.rwl) &&& BitVec.allOnes 32 = r.rw := by rw [rwl, BitVec.and_allOnes]; exact BitVec.or_zero
  have write : s.blk.writeOn p offset.toNat v = s.blk.setReg o (merge r.rw (s.blk.reg o) v &&& ~~~ (v &&& r.w1c)) := by
    rw [Block.writeOn_served _ v serves, Block.csrWrite_file v ho reach h nb file, Block.putReg_stored _ _ _ h, writable]
  exact does_upd_eq (exec_csrWrite_access p offset v s) write (Kept.setReg ..) (Block.reg_setReg_same ..)

/-! ### The tables and their lock (R449) -/

theorem Block.csrWrite_quay (b : Block) (p : Path) {offset o : Nat} (v : Word) (ho : offset / 4 * 4 = o) (quay : o / 0x10000 = 0x0C)
    (reach : b.reachable o = true) : b.csrWrite p offset v = b.writeQY o v := by
  simp only [Block.csrWrite, ho, reach, quay, not_true, if_false]

theorem Block.writeQY_table (b : Block) {o : Nat} (v : Word) (h : o = Off.qyCsrSrc ∨ Off.qyRoute ≤ o) : b.writeQY o v = b.writeTable o v := by
  have high : 0x0C0018 ≤ o := h.elim (fun e => e ▸ Nat.le_refl _) fun le => Nat.le_trans (by decide) le
  have ctrl : o ≠ Off.qyCtrl := Nat.ne_of_gt (lt_of_lt_of_le (by decide) high)
  have share : o ≠ Off.qyShare := Nat.ne_of_gt (lt_of_lt_of_le (by decide) high)
  have limit : o ≠ Off.qyLimit := Nat.ne_of_gt (lt_of_lt_of_le (by decide) high)
  simp only [Block.writeQY, ctrl, share, limit, h, if_false, if_true]

theorem Block.writeTable_locked {b : Block} (o : Nat) (v : Word) (h : b.tablesLocked = true) : b.writeTable o v = b := if_pos h

theorem exec_csrWrite_lockedTable {s : State} (p : Path) {offset : BitVec 24} (v : Word) (locked : s.blk.tablesLocked = true)
    (h : offset.toNat / 4 * 4 = Off.qyCsrSrc ∨ (Off.qyRoute ≤ offset.toNat / 4 * 4 ∧ offset.toNat / 4 * 4 < 0xD0000)) :
    exec (.csrWrite (.access p offset v)) s = .next s := by
  cases serves : s.blk.serves p
  · exact exec_csrWrite_idle v (.inl serves)
  cases reach : s.blk.reachable (offset.toNat / 4 * 4)
  · exact exec_csrWrite_idle v (.inr reach)
  have quay : offset.toNat / 4 * 4 / 0x10000 = 0x0C := by
    rcases h with e | ⟨low, high⟩
    · rw [e]; rfl
    · have low : 0x0C1000 ≤ offset.toNat / 4 * 4 := low
      omega
  refine exec_upd_same (exec_csrWrite_access p offset v s) ?_
  rw [Block.writeOn_served _ v serves, Block.csrWrite_quay _ p v rfl quay reach, Block.writeQY_table _ v (h.imp_right And.left),
    Block.writeTable_locked _ v locked]

/-- What TABLE_LOCK writes: the lock bit alone, whatever the register holds. -/
theorem Block.stored_qyCtrl (b : Block) (p : Path) : b.stored p Off.qyCtrl ||| 2 = 2 := by
  change b.reg Off.qyCtrl &&& 2 ||| 2 = 2
  ext i hi
  simp only [BitVec.getElem_or, BitVec.getElem_and]
  cases (2 : Word)[i] <;> simp

theorem Block.writeQY_lock (b : Block) :
    b.writeQY Off.qyCtrl 2 = if b.tablesLocked then b else b.setReg Off.qyCtrl (merge 2 (b.reg Off.qyCtrl) 2) := by
  have put : b.putReg Off.qyCtrl 2 = b.setReg Off.qyCtrl (merge 2 (b.reg Off.qyCtrl) 2) := by
    rw [Block.putReg_unclearing _ _ _ rfl rfl]; rfl
  rw [← put]; rfl

theorem Block.writeBits_tableLock {b : Block} {p : Path} (serves : b.serves p = true) : b.writeBits p Off.qyCtrl 2
    = if b.tablesLocked then b else b.setReg Off.qyCtrl (merge 2 (b.reg Off.qyCtrl) 2) := by
  rw [Block.writeBits, Block.stored_qyCtrl, Block.writeOn_served _ _ serves, Block.csrWrite_quay (o := Off.qyCtrl) _ p 2 rfl rfl rfl, Block.writeQY_lock]

theorem tableLock_locks {s : State} {p : Path} (serves : s.blk.serves p = true) (free : s.blk.tablesLocked = false) :
    Does (.tableLock p) s [.reg Off.qyCtrl] fun b => b.tablesLocked = true := by
  refine does_upd_eq (exec_tableLock_upd p s) ((Block.writeBits_tableLock serves).trans (if_neg (by simp [free]))) (Kept.setReg ..) ?_
  rw [Block.tablesLocked, Block.regBit, Block.reg_setReg_same]
  simp [merge]

theorem exec_tableLock_idle {s : State} {p : Path} (h : s.blk.serves p = false ∨ s.blk.tablesLocked = true) : exec (.tableLock p) s = .next s := by
  refine exec_upd_same (exec_tableLock_upd p s) ?_
  cases serves : s.blk.serves p
  case false => exact Block.writeOn_unserved _ _ serves
  case true =>
    have locked : s.blk.tablesLocked = true := by simpa [serves] using h
    rw [Block.writeBits_tableLock serves, if_pos locked]

/-! ### MF_CTRL and its lock (R8, R449) -/

theorem Block.csrWrite_mfCtrl (b : Block) (p : Path) (v : Word) : b.csrWrite p Off.mfCtrl v
    = b.setReg Off.mfCtrl (merge (0x8000000F &&& if b.regBit Off.mfCtrl 31 then 0x8 else BitVec.allOnes 32) (b.reg Off.mfCtrl) v) := by
  change b.writeMfCtrl v = _
  rw [Block.writeMfCtrl, Block.putReg_unclearing _ _ _ rfl rfl]
  rfl

theorem mfLock_open {s : State} {p : Path} {v : Word} (serves : s.blk.serves p = true) (lock : s.blk.regBit Off.mfCtrl 31 = false) :
    Does (.mfLock p v) s [.reg Off.mfCtrl] fun b => b.regField Off.mfCtrl 0 4 = bitsAt v 0 4 ∧ b.regBit Off.mfCtrl 31 = v.getLsbD 31 := by
  have write : s.blk.writeOn p Off.mfCtrl v = s.blk.setReg Off.mfCtrl (merge 0x8000000F (s.blk.reg Off.mfCtrl) v) := by
    rw [Block.writeOn_served _ v serves, Block.csrWrite_mfCtrl, lock]; rfl
  refine does_upd_eq (exec_mfLock_upd p v s) write (Kept.setReg ..) ⟨?_, ?_⟩
  · rw [Block.regField_eq_extract, bitsAt_eq_extract, Block.reg_setReg_same, merge_extract _ _ (by decide)]
  · rw [Block.regBit, Block.reg_setReg_same, merge_getLsbD _ _ (by decide)]

theorem mfLock_locked {s : State} {p : Path} {v : Word} (serves : s.blk.serves p = true) (lock : s.blk.regBit Off.mfCtrl 31 = true) :
    Does (.mfLock p v) s [.reg Off.mfCtrl] fun b => b.reg Off.mfCtrl = (s.blk.reg Off.mfCtrl &&& ~~~ 8) ||| (v &&& 8) := by
  have write : s.blk.writeOn p Off.mfCtrl v = s.blk.setReg Off.mfCtrl (merge 8 (s.blk.reg Off.mfCtrl) v) := by
    rw [Block.writeOn_served _ v serves, Block.csrWrite_mfCtrl, lock]; rfl
  exact does_upd_eq (exec_mfLock_upd p v s) write (Kept.setReg ..) (Block.reg_setReg_same ..)

theorem exec_mfLock_idle {s : State} {p : Path} (v : Word) (h : s.blk.serves p = false) : exec (.mfLock p v) s = .next s :=
  exec_upd_same (exec_mfLock_upd p v s) (Block.writeOn_unserved _ v h)

/-! ### The limit of best-effort tags (R213) -/

/-- The limit that a written word asks for. -/
def beTags (v : Word) : Nat := min (bitsAt v 0 15) 0x4000

theorem toNat_beTags (v : Word) : (BitVec.ofNat 32 (beTags v)).toNat = beTags v :=
  Nat.mod_eq_of_lt (lt_of_le_of_lt (Nat.min_le_right _ _) (by decide))

/-- `check` does not read what `noteUse` notes. -/
theorem Block.noteUse_checkWith (b : Block) (n : Nat) (admitting : Bool) (set : List CharterDesc) :
    b.noteUse.checkWith n admitting set = b.checkWith n admitting set := rfl

theorem Block.csrWrite_qyLimit {b : Block} (p : Path) (v : Word) (on : b.domOn qyDom = true) : b.csrWrite p Off.qyLimit v = b.writeBeTags v := by
  rw [Block.csrWrite_quay (o := Off.qyLimit) b p v rfl rfl on]; rfl

theorem Block.writeBeTags_passes {b : Block} {v : Word} (h : b.checkWith (beTags v) false (b.actives.map (·.2)) = none) :
    b.writeBeTags v = b.noteUse.setReg Off.qyLimit (BitVec.ofNat 32 (beTags v)) := by
  have noted : b.noteUse.checkWith (min (bitsAt v 0 15) 0x4000) false (b.noteUse.actives.map (·.2)) = none :=
    (Block.noteUse_checkWith ..).trans h
  simp only [Block.writeBeTags, noted, beTags]

theorem Block.writeBeTags_fails {b : Block} {v : Word} (h : (b.checkWith (beTags v) false (b.actives.map (·.2))).isSome = true) :
    b.writeBeTags v = b.noteUse.orReg Off.chAlarm 16 := by
  obtain ⟨short, found⟩ := Option.isSome_iff_exists.mp h
  have noted : b.noteUse.checkWith (min (bitsAt v 0 15) 0x4000) false (b.noteUse.actives.map (·.2)) = some short :=
    (Block.noteUse_checkWith ..).trans found
  simp only [Block.writeBeTags, noted]

theorem beTagsWrite_kept {s : State} {p : Path} {v : Word} (serves : s.blk.serves p = true) (on : s.blk.domOn qyDom = true)
    (passes : s.blk.checkWith (beTags v) false (s.blk.actives.map (·.2)) = none) :
    Does (.beTagsWrite p v) s [.reg Off.qyLimit, .chs] fun b => b.chs.tab = s.blk.chs.tab ∧ (b.reg Off.qyLimit).toNat = beTags v := by
  refine does_upd_eq (exec_beTagsWrite_upd p v s)
    ((Block.writeOn_served _ v serves).trans ((Block.csrWrite_qyLimit p v on).trans (Block.writeBeTags_passes passes))) ?_ ⟨rfl, ?_⟩
  · exact Kept.step (Kept.setReg ..) (Within.of rfl) ((Block.noteUse_kept _).mono (Within.of rfl))
  · rw [Block.reg_setReg_same, toNat_beTags]

theorem beTagsWrite_rejected {s : State} {p : Path} {v : Word} (serves : s.blk.serves p = true) (on : s.blk.domOn qyDom = true)
    (fails : (s.blk.checkWith (beTags v) false (s.blk.actives.map (·.2))).isSome = true) :
    Does (.beTagsWrite p v) s [.reg Off.chAlarm, .chs] fun b => b.chs.tab = s.blk.chs.tab ∧ b.reg Off.chAlarm = s.blk.reg Off.chAlarm ||| 16 := by
  refine does_upd_eq (exec_beTagsWrite_upd p v s)
    ((Block.writeOn_served _ v serves).trans ((Block.csrWrite_qyLimit p v on).trans (Block.writeBeTags_fails fails))) ?_ ⟨rfl, ?_⟩
  · exact Kept.step (Block.orReg_kept ..) (Within.of rfl) ((Block.noteUse_kept _).mono (Within.of rfl))
  · exact Block.reg_setReg_same ..

theorem exec_beTagsWrite_idle {s : State} {p : Path} (v : Word) (h : s.blk.serves p = false) : exec (.beTagsWrite p v) s = .next s :=
  exec_upd_same (exec_beTagsWrite_upd p v s) (Block.writeOn_unserved _ v h)

/-! ### The ring's read index (R295, R307) -/

theorem Block.csrWrite_prErrRd (b : Block) (p : Path) (v : Word) : b.csrWrite p Off.prErrRd v
    = if (v.truncate 13 - b.prot.rd).toNat ≤ b.prot.held then { b with prot.rd := v.truncate 13 } else b := rfl

theorem prErrRdWrite_held {s : State} {p : Path} {v : Word} (serves : s.blk.serves p = true)
    (held : (v.truncate 13 - s.blk.prot.rd).toNat ≤ s.blk.prot.held) :
    Does (.prErrRdWrite p v) s [.prot] fun b => b.prot = { s.blk.prot with rd := v.truncate 13 } :=
  does_upd_eq (exec_prErrRdWrite_upd p v s) ((Block.writeOn_served _ v serves).trans ((s.blk.csrWrite_prErrRd p v).trans (if_pos held)))
    (Kept.prot ..) rfl

theorem exec_prErrRdWrite_idle {s : State} {p : Path} {v : Word}
    (h : s.blk.serves p = false ∨ s.blk.prot.held < (v.truncate 13 - s.blk.prot.rd).toNat) : exec (.prErrRdWrite p v) s = .next s := by
  refine exec_upd_same (exec_prErrRdWrite_upd p v s) ?_
  rcases h with unserved | outside
  · exact Block.writeOn_unserved _ v unserved
  · rw [Block.writeOn, Block.csrWrite_prErrRd, if_neg (Nat.not_le.mpr outside), ite_self]

/-! ### Transfers on the management bus (R49, R445) -/

theorem ofLe_lt (bs : List Byte) : ofLe bs < 2 ^ (8 * bs.length) := by
  induction bs with
  | nil => simp [ofLe]
  | cons x xs ih =>
    have byte : x.toNat < 2 ^ 8 := x.isLt
    have power : 2 ^ (8 * (x :: xs).length) = 2 ^ 8 * 2 ^ (8 * xs.length) := by rw [List.length_cons, ← Nat.pow_add]; congr 1; omega
    simp only [ofLe, power]
    omega

theorem leAt_lt (bs : List Byte) (i n : Nat) : leAt bs i n < 2 ^ (8 * n) :=
  lt_of_lt_of_le (ofLe_lt _) (Nat.pow_le_pow_right (by decide) (Nat.mul_le_mul_left 8 (List.length_take_le ..)))

theorem transferBody_i3c (addr : BitVec 7) (bytes : List Byte) : transferBody false addr bytes = if bytes.length = 7 then some bytes else none := by
  simp [transferBody]

theorem transferBody_smbus (addr : BitVec 7) (body : List Byte) (pec : Byte) : transferBody true addr (body ++ [pec])
    = if body.length = 7 ∧ pec = crc8 ((addr ++ 0#1) :: body) then some body else none := by
  simp [transferBody]

/-- A transfer to another address, of another length or with a bad PEC holds no write. -/
theorem transferBody_none {smbus : Bool} {addr : BitVec 7} {bytes : List Byte}
    (h : bytes.length ≠ (if smbus then 8 else 7) ∨ (smbus = true ∧ bytes.getLast? ≠ some (crc8 ((addr ++ 0#1) :: bytes.dropLast)))) :
    transferBody smbus addr bytes = none := by
  cases smbus
  case false => rw [transferBody_i3c, if_neg (by simpa using h)]
  case true =>
    simp only [if_true, true_and] at h
    refine if_neg fun good => ?_
    obtain ⟨len, pec⟩ := good
    simp only [if_true, List.length_dropLast] at len
    rcases h with long | bad
    · omega
    · exact bad (by simpa using pec)

theorem Block.sideTransfer_none {b : Block} {smbus : Bool} {addr : BitVec 7} {bytes : List Byte}
    (h : addr ≠ b.sideAddress ∨ transferBody smbus addr bytes = none) : b.sideTransfer smbus addr bytes = b := by
  unfold Block.sideTransfer
  split
  · rfl
  case isFalse own => rw [h.resolve_left own]

/-- A transfer that holds a write is an access on the I3C path. -/
theorem exec_csrWrite_body {s : State} {smbus : Bool} {bytes body : List Byte} (h : transferBody smbus s.blk.sideAddress bytes = some body) :
    exec (.csrWrite (.transfer smbus s.blk.sideAddress bytes)) s
      = exec (.csrWrite (.access .i3c (BitVec.ofNat 24 (leAt body 0 3)) (BitVec.ofNat 32 (leAt body 3 4)))) s := by
  have offset : (BitVec.ofNat 24 (leAt body 0 3)).toNat = leAt body 0 3 := Nat.mod_eq_of_lt (leAt_lt body 0 3)
  rw [exec_csrWrite_transfer, exec_csrWrite_access, State.upd, State.upd, Block.sideTransfer, h, offset, if_neg (not_not.mpr rfl)]

/-! ### CSR_ACC (R446) -/

theorem exec_csrAcc_write {s t : State} {dr : BitVec 57} {off : BitVec 24} (ho : off.toNat = dr.toNat / 2 ^ 34 % 2 ^ 22 * 4)
    (write : dr.getLsbD 56 = true) (opened : s.blk.sidebandOpen = true)
    (wrote : exec (.csrWrite (.access .jtag off (dr.truncate 32))) s = .next t) :
    exec (.csrAcc dr) s = .next { t with blk := { t.blk with jtagDr := 0 } } := by
  have serves : s.blk.serves .jtag = true := opened
  rw [exec_csrWrite_access, State.upd, Block.writeOn_served _ _ serves, ho] at wrote
  rw [exec_csrAcc_upd, State.upd, Block.csrAcc_open dr opened, if_pos write]
  cases wrote
  rfl

/-- Settles O58: each clause is the rule of its register or path. -/
theorem registerWrites : Obligations.RegisterWrites := by
  refine ⟨fun s p offset v => exec_csrWrite_idle v, fun s p offset v o r ho serves reach h nb plain rwl => ?_,
    fun s p offset v => exec_csrWrite_lockedTable p v, fun s p => tableLock_locks, fun s p => exec_tableLock_idle, fun s p v => mfLock_open,
    fun s p v => mfLock_locked, fun s p v => beTagsWrite_kept, fun s p v => beTagsWrite_rejected, fun s p v => prErrRdWrite_held,
    fun s p v => exec_prErrRdWrite_idle, fun s p v unserved => ⟨exec_mfLock_idle v unserved, exec_beTagsWrite_idle v unserved⟩,
    fun s body len => ⟨exec_csrWrite_body ?_, exec_csrWrite_body ?_⟩, fun s smbus addr bytes other => ?_, fun s t dr off => exec_csrAcc_write⟩
  · exact csrWrite_plain v ho serves reach h nb (fileOnly_of_plain h nb rwl plain) rwl
  · rw [transferBody_i3c, if_pos len]
  · rw [transferBody_smbus, if_pos ⟨len, rfl⟩]
  · exact exec_upd_same (exec_csrWrite_transfer smbus addr bytes s) (Block.sideTransfer_none (other.imp_right transferBody_none))

end Sys2Proof.Machine
end

section
/-! SUPPORT. The machine as a whole: what a command can make of the queue and of the stored symbols. -/

namespace Sys2Proof.Machine

open Sys2Proof

/-- Settles O1: the queue's front is what a step matches on. -/
theorem stepRunsFrontCommand : Obligations.StepRunsFrontCommand := fun _ _ _ => rfl

/-! ### The commands that reach the stored symbols, and the others -/

/-- The commands that can change a stored symbol: accesses, fills, scrubs, and the failures that cut a burst (R15, R38). -/
def Instr.reachesStore : Instr → Bool
  | .xtalFail .. | .rootLost .. | .railUv .. | .channelFillDone .. | .partDone .. | .scrubDone .. | .commandIssue .. => true
  | _ => false

/-- Every other command changes the block alone. -/
theorem exec_block {i : Instr} (h : Instr.reachesStore i = false) (s : State) : ∃ b, exec i s = .next { s with blk := b } := by
  cases i
  case xtalFail | rootLost | railUv | channelFillDone | partDone | scrubDone | commandIssue => cases h
  all_goals exact ⟨_, rfl⟩

theorem Memory.wf_scrubAll {m : List Host.Cell} {b : Block} (ns : List Nat) (dmg : List Damage) (h : Memory.wf m = true) :
    Memory.wf (ns.foldl (fun (acc : List Host.Cell × Block) n => scrubRest acc.1 acc.2 dmg n) (m, b)).1 = true := by
  induction ns generalizing m b with
  | nil => exact h
  | cons n ns ih => exact ih (Memory.wf_scrubRest b dmg n h)

/-- The state that a command makes: the queue as it was, another block, and stored symbols that are canonical where they were. -/
def Succeeds (s t : State) : Prop := ∃ m b, t = { s with mem := m, blk := b } ∧ (Memory.wf s.mem = true → Memory.wf m = true)

theorem Succeeds.of_cells {i : Instr} {s t : State} {m : List Host.Cell} {b : Block} (e : exec i s = .next { s with mem := m, blk := b })
    (keeps : Memory.wf s.mem = true → Memory.wf m = true) (h : exec i s = .next t) : Succeeds s t := by
  rw [e] at h; cases h
  exact ⟨m, b, rfl, keeps⟩

theorem exec_succeeds {i : Instr} {s t : State} (h : exec i s = .next t) : Succeeds s t := by
  cases reaches : Instr.reachesStore i
  case false =>
    obtain ⟨b, e⟩ := exec_block reaches s
    exact .of_cells (m := s.mem) e id h
  case true =>
    cases i
    case xtalFail a d =>
      obtain ⟨m, b, e, rfl | rfl⟩ := exec_xtalFail_cells a d s
      · exact .of_cells e id h
      · exact .of_cells e (Memory.wf_cutBursts _ _) h
    case rootLost a d =>
      obtain ⟨m, b, e, rfl | rfl⟩ := exec_rootLost_cells a d s
      · exact .of_cells e id h
      · exact .of_cells e (Memory.wf_cutBursts _ _) h
    case railUv r =>
      obtain ⟨m, b, e, rfl | ⟨-, rfl⟩⟩ := exec_railUv_cells r s
      · exact .of_cells e id h
      · exact .of_cells e (Memory.wf_cutBursts _ _) h
    case channelFillDone n =>
      obtain ⟨m, b, e, rfl | rfl⟩ := exec_channelFillDone_cells n s
      · exact .of_cells e id h
      · exact .of_cells e (Memory.wf_clearChannel _) h
    case partDone r p d pe =>
      obtain ⟨b, e⟩ := exec_partDone_cells r p d pe s
      exact .of_cells e (Memory.wf_memAfterPart _ _ _ _) h
    case scrubDone d =>
      obtain ⟨m, b, e, rfl | cells⟩ := exec_scrubDone_cells d s
      · exact .of_cells e id h
      · exact .of_cells e (fun wf => cells ▸ Memory.wf_scrubAll _ d wf) h
    case commandIssue n d f pe =>
      obtain stops | ⟨m, b, e, rfl | ⟨b2, c, -, cells⟩⟩ := exec_commandIssue_cells n d f pe s
      · rw [stops] at h; cases h
      · exact .of_cells e id h
      · exact .of_cells e (fun wf => cells ▸ Memory.wf_touched wf (runCmd_touched ..)) h
    all_goals cases reaches

/-- Settles O4: no command's next state differs from the state before in its queue. -/
theorem commandsKeepQueue : Obligations.CommandsKeepQueue := by
  intro i s t h
  obtain ⟨m, b, rfl, -⟩ := exec_succeeds h
  rfl

/-- Settles O3: a step is a command's meaning, which keeps the canonical form, or a tick, which leaves the stored symbols. -/
theorem stepKeepsCanonicalMemory : Obligations.StepKeepsCanonicalMemory := by
  intro s t canonical h
  unfold step at h
  split at h
  case h_1 c rest _ =>
    obtain ⟨m, b, rfl, keeps⟩ := exec_succeeds h
    exact keeps canonical
  case h_2 =>
    cases h
    exact canonical

end Sys2Proof.Machine
end

section
/-! SUPPORT. What a known frame says of one component, and the cold resets and rising edges. -/

namespace Sys2Proof.Machine

open Sys2Proof

/-! ### What a known frame says -/

/-- A command whose frame is known does what its block shows. -/
theorem does_framed {i : Instr} {s : State} {f : Block → Block} {ps qs : List Piece} {post : Block → Prop} (e : exec i s = s.upd f)
    (kept : ∀ {t}, exec i s = .next t → Kept ps s.blk t.blk) (inside : Within ps qs) (h : post (f s.blk)) : Does i s qs post :=
  does_upd e ((kept e).mono inside) h

/-- What does not depend on the domains stays in the pier's power state where that is outside the frame. -/
theorem Kept.pwOf {ps : List Piece} {b c : Block} {β : Type} (h : Kept ps b c) (out : ¬ Piece.pw.among ps) (π : Power → β)
    (same : ∀ p, π { p with doms := [] } = π p := by intro; rfl) : π c.pw = π b.pw := by
  have e : { c.pw with doms := [] } = { b.pw with doms := [] } := h.out .pw out
  rw [← same, e, same]

/-! ### Cold resets (R354, R313) -/

theorem Block.reg_setReg_other (b : Block) {off o : Nat} (v : Word) (h : o ≠ off) : (b.setReg off v).reg o = b.reg o :=
  tget_tset_other _ _ v fun e => h e.symm

theorem Block.coldKept_reg (b : Block) {o : Nat} (h : o ≠ Off.ckResetCause) : b.coldKept.reg o = csrReset o := by
  rw [Block.coldKept, Block.reg_setReg_other _ _ h]
  exact Block.reg_of_csr_nil rfl o

theorem Block.coldKept_cause (b : Block) : b.coldKept.regBit Off.ckResetCause 0 = true := by
  simp [Block.regBit, Block.coldKept]

theorem Block.aonLost_reg (b : Block) {o : Nat} (h : o ≠ Off.ckResetCause) : b.aonLost.reg o = csrReset o := by
  rw [Block.aonLost, Block.reg_setReg_other _ _ h]
  exact b.coldKept_reg h

theorem Block.porstLow_awake {b : Block} (h : b.pw.st ≠ .dark) : b.porstLow = { b with pins.porstLow := true }.coldKept := if_neg h

/-- Settles O8: both resets leave DARK with what `coldKept` keeps. -/
theorem coldResetsLeaveDark : Obligations.ColdResetsLeaveDark := by
  refine ⟨fun s awake => does_framed rfl (execPorstNLow_kept ·) (Within.of rfl) ?_, fun s =>
    does_framed rfl (execAonPowerOnReset_kept ·) (Within.of rfl) ?_⟩
  · rw [Block.porstLow_awake awake]
    exact ⟨rfl, rfl, rfl, rfl, rfl, rfl, rfl, rfl, rfl, rfl, rfl, rfl, rfl, rfl, rfl, fun o => Block.coldKept_reg _, Block.coldKept_cause _,
      rfl, rfl, rfl, rfl⟩
  · exact ⟨rfl, rfl, rfl, rfl, rfl, rfl, rfl, rfl, rfl, rfl, fun o => Block.aonLost_reg _, Block.reg_setReg_same .., rfl, rfl, rfl, rfl⟩

/-! ### Rising edges (R37, R364, R453) -/

/-- The board table changes nothing of the power state but the table itself. -/
theorem Block.readBoard_pwOf (b : Block) (board : List Byte) {β : Type} (π : Power → β)
    (same : ∀ p t m, π { p with board := t, boardMax := m } = π p := by intros; rfl) : π (b.readBoard board).pw = π b.pw := by
  unfold Block.readBoard
  split
  · rw [Block.event_pw]; exact same b.pw [] 0xF
  · refine (Block.each_keeps (fun c : Block => π c.pw) _ (fun c i => ?_) _ _).trans (same b.pw ..)
    split
    · exact same c.pw _ c.pw.boardMax
    · rw [Block.event_pw]

theorem Block.readBoard_pins (b : Block) (board : List Byte) : (b.readBoard board).pins = b.pins :=
  (b.readBoard_kept board).out .pins (by simp [Piece.among])

theorem Block.flushEvents_pw (b : Block) : b.flushEvents.pw = b.pw :=
  b.flushEvents_kept.pwEq (by simp [Piece.among]) (by simp [Piece.among])

theorem Block.flushEvents_pins (b : Block) : b.flushEvents.pins = b.pins :=
  b.flushEvents_kept.out .pins (by simp [Piece.among])

/-- Boot begins at the arrival's first step. -/
theorem Block.bootFrom_pw (b : Block) (held : Bool) :
    (b.bootFrom held).pw = { b.pw with st := .arrival, arr := .boot, resetEdge := b.ck.tide, heldInReset := held } := by
  cases held
  · exact Block.flushEvents_pw _
  · rfl

theorem Block.bootFrom_pins (b : Block) (held : Bool) : (b.bootFrom held).pins = b.pins := by
  cases held
  · exact Block.flushEvents_pins _
  · rfl

/-- The arrival that a rising edge starts: at its first step, from the edge. -/
def Block.arrives (b c : Block) (held : Bool) : Prop :=
  c.pw.st = .arrival ∧ c.pw.arr = .boot ∧ c.pw.resetEdge = b.ck.tide ∧ c.pw.heldInReset = held ∧ c.pins = b.pins

theorem Block.bootFrom_arrives (b : Block) (held : Bool) : b.arrives (b.bootFrom held) held := by
  simp [Block.arrives, Block.bootFrom_pw, Block.bootFrom_pins]

theorem Block.arrives_readBoard {b c : Block} {held : Bool} (h : b.arrives c held) (board : List Byte) : b.arrives (c.readBoard board) held := by
  obtain ⟨st, arr, edge, hold, pins⟩ := h
  exact ⟨(c.readBoard_pwOf board (·.st)).trans st, (c.readBoard_pwOf board (·.arr)).trans arr, (c.readBoard_pwOf board (·.resetEdge)).trans edge,
    (c.readBoard_pwOf board (·.heldInReset)).trans hold, (c.readBoard_pins board).trans pins⟩

theorem Block.porstRise_arrives {b : Block} {strap : BitVec 4} {bts : BitVec 3} (board : List Byte) (low : b.pins.porstLow = true)
    (dark : b.pw.st = .dark) (rails : b.pins.railsLow = []) :
    (b.sampleStraps { b.pins with porstLow := false } strap bts).arrives (b.porstRise strap bts board) b.pins.wrstLow := by
  simp only [Block.porstRise, low, not_true, if_false, Block.sampleStraps, dark, rails, List.isEmpty_nil, ne_eq, or_self]
  cases b.pins.wrstLow
  · exact Block.arrives_readBoard (Block.bootFrom_arrives ..) board
  · exact Block.bootFrom_arrives _ true

theorem Block.wrstRise_arrives {b : Block} {strap : BitVec 4} {bts : BitVec 3} (board : List Byte) (low : b.pins.wrstLow = true)
    (held : b.pw.heldInReset = true) : (b.sampleStraps { b.pins with wrstLow := false } strap bts).arrives (b.wrstRise strap bts board) false := by
  simp only [Block.wrstRise, low, not_true, if_false, Block.sampleStraps, held]
  exact Block.arrives_readBoard (Block.bootFrom_arrives ..) _

theorem Block.wrstRise_running {b : Block} (strap : BitVec 4) (bts : BitVec 3) (board : List Byte) (low : b.pins.wrstLow = true)
    (runs : b.pw.heldInReset = false) : b.wrstRise strap bts board = b.sampleStraps { b.pins with wrstLow := false } strap bts := by
  simp [Block.wrstRise, low, Block.sampleStraps, runs]

theorem Kept.pins (b : Block) (x : Pins) : Kept [.pins] b { b with pins := x } := by
  apply (Kept.refl _ b).of_fields (pins := .inr (List.mem_singleton.2 rfl)) <;> exact .inl rfl

/-- Settles O9: each edge starts the arrival of `bootFrom` with the straps it has sampled, or samples them alone. -/
theorem risingEdgesStartArrival : Obligations.RisingEdgesStartArrival := by
  refine ⟨fun s strap bts board low dark rails => ?_, fun s strap bts board low held => ?_, fun s strap bts board low runs => ?_⟩
  · obtain ⟨st, arr, edge, hold, pins⟩ := Block.porstRise_arrives (strap := strap) (bts := bts) board low dark rails
    exact does_framed (f := (·.porstRise strap bts board)) rfl (execPorstNRise_kept _ _ _ ·) (Within.of rfl)
      ⟨st, arr, by rw [pins]; rfl, by rw [pins]; rfl, by rw [pins]; rfl, edge, hold⟩
  · obtain ⟨st, arr, edge, hold, pins⟩ := Block.wrstRise_arrives (strap := strap) (bts := bts) board low held
    exact does_framed (f := (·.wrstRise strap bts board)) rfl (execWrstNRise_kept _ _ _ ·) (Within.of rfl)
      ⟨hold, arr, st, by rw [pins]; rfl, by rw [pins]; rfl, by rw [pins]; rfl, edge⟩
  · exact does_upd_eq (f := (·.wrstRise strap bts board)) rfl (Block.wrstRise_running strap bts board low runs) (Kept.pins ..) rfl

end Sys2Proof.Machine
end

section
/-! SUPPORT. Arrival steps 1 to 3: the image that boots, PLL_ROOT's lock, the chart read. -/

namespace Sys2Proof.Machine

open Sys2Proof

/-! ### The directory and the image that boots (R330, R331) -/

/-- The pier as boot code leaves it before it looks for an image: both slow sources run, the directory read. -/
def Block.atBoot (b : Block) (d0 d1 : List Byte) : Block := ({ b with ck.xtalOk := true, ck.rcOk := true } : Block).readDirectory d0 d1

theorem Block.readDirectory_mf (b : Block) (d0 d1 : List Byte) : (b.readDirectory d0 d1).mf = (b.holdDirs (dirOf d0) (dirOf d1)).mf := by
  unfold Block.readDirectory
  dsimp only
  split
  · exact Block.event_mf ..
  · rfl

theorem Block.atBoot_mf (b : Block) (d0 d1 : List Byte) : (b.atBoot d0 d1).mf = (b.holdDirs (dirOf d0) (dirOf d1)).mf :=
  Block.readDirectory_mf ..

theorem Block.atBoot_pw (b : Block) (d0 d1 : List Byte) : (b.atBoot d0 d1).pw = b.pw :=
  (Block.readDirectory_kept ..).pwEq (by simp [Piece.among]) (by simp [Piece.among])

theorem Block.imageIn_congr {b c : Block} (a : c.mf.flashA = b.mf.flashA) (h : c.mf.flashB = b.mf.flashB) : c.imageIn = b.imageIn := by
  have held : c.mf.slotHeld = b.mf.slotHeld := by funext x; simp only [Manifests.slotHeld, a, h]
  have bytes : c.mf.flashByte = b.mf.flashByte := by funext x board i; simp only [Manifests.flashByte, held]
  funext ia ib root x
  simp only [Block.imageIn, bytes]

theorem Block.atBoot_imageIn (b : Block) (d0 d1 : List Byte) : (b.atBoot d0 d1).imageIn = b.imageIn :=
  Block.imageIn_congr (by rw [Block.atBoot_mf]; rfl) (by rw [Block.atBoot_mf]; rfl)

theorem Block.atBoot_imageValid (b : Block) (d0 d1 : List Byte) : (b.atBoot d0 d1).imageValid = b.imageValid := by
  have least : (b.atBoot d0 d1).mf.secMin = b.mf.secMin := by rw [Block.atBoot_mf]; rfl
  funext i
  rw [Block.imageValid, least, Block.imageValid]

section
variable {b : Block} {d0 d1 ia ib : List Byte} {root : BitVec 384}

theorem Block.chooseImage_active (h : b.imageValid (b.imageIn ia ib root b.activeSlot) = true) :
    b.chooseImage ia ib root = some (b.activeSlot, b.imageIn ia ib root b.activeSlot) := if_pos h

theorem Block.chooseImage_other (bad : b.imageValid (b.imageIn ia ib root b.activeSlot) = false)
    (h : b.imageValid (b.imageIn ia ib root !b.activeSlot) = true) :
    b.chooseImage ia ib root = some (!b.activeSlot, b.imageIn ia ib root !b.activeSlot) :=
  (if_neg (by simp [bad])).trans (if_pos h)

theorem Block.chooseImage_none (h : ∀ x, b.imageValid (b.imageIn ia ib root x) = false) : b.chooseImage ia ib root = none :=
  (if_neg (by simp [h])).trans (if_neg (by simp [h]))

theorem Block.activeSlot_dir0 {x : DirCopy} (h0 : b.mf.dir0 = some x) (h1 : b.mf.dir1 = none) : b.activeSlot = x.slotB := by
  simp [Block.activeSlot, h0, h1]

theorem Block.activeSlot_dir1 {x : DirCopy} (h0 : b.mf.dir0 = none) (h1 : b.mf.dir1 = some x) : b.activeSlot = x.slotB := by
  simp [Block.activeSlot, h0, h1]

/-! ### BOOT_DONE in arrival step 1 -/

theorem Block.bootDone_arrival (st : b.pw.st = .arrival) (arr : b.pw.arr = .boot) (image : b.mf.noImage = false) (hm : b.hmRuns = true)
    (spi : b.spiRuns = true) : b.bootDone d0 d1 ia ib root = b.arrivalBoot d0 d1 ia ib root := by
  simp [Block.bootDone, st, arr, image, hm, spi]

theorem Block.arrivalBoot_some {slotB : Bool} {i : Image} (h : (b.atBoot d0 d1).chooseImage ia ib root = some (slotB, i)) :
    b.arrivalBoot d0 d1 ia ib root
      = (({ (b.atBoot d0 d1).draw.drawArrival.bootImage slotB i with pw.arr := .pll } : Block).firstActs).noteFallback
          (b.atBoot d0 d1).activeSlot slotB := by
  unfold Block.atBoot at h
  simp only [Block.arrivalBoot, h]; rfl

theorem Block.arrivalBoot_none (h : (b.atBoot d0 d1).chooseImage ia ib root = none) :
    b.arrivalBoot d0 d1 ia ib root = { (b.atBoot d0 d1).draw.drawArrival with mf.noImage := true } := by
  unfold Block.atBoot at h
  simp only [Block.arrivalBoot, h]; rfl

end

theorem Block.noteFallback_pw (b : Block) (act slotB : Bool) : (b.noteFallback act slotB).pw = b.pw :=
  (b.noteFallback_kept act slotB).pwEq (by simp [Piece.among]) (by simp [Piece.among])

theorem Block.noteFallback_mf (b : Block) (act slotB : Bool) : (b.noteFallback act slotB).mf = b.mf :=
  (b.noteFallback_kept act slotB).mfEq (by simp [Piece.among]) (by simp [Piece.among]) (by simp [Piece.among])

theorem Block.firstActs_mf (b : Block) : b.firstActs.mf = b.mf :=
  b.firstActs_kept.mfEq (by simp [Piece.among]) (by simp [Piece.among]) (by simp [Piece.among])

/-- The record of a trip in FROZEN notes the trip in the power state, and the new firmware's other first acts leave that alone. -/
theorem Block.firstActs_pwOf (b : Block) {β : Type} (π : Power → β) (same : ∀ p, π { p with afterTrip := true } = π p := by intro; rfl) :
    π b.firstActs.pw = π b.pw := by
  have record (c : Block) : π c.frozenRecord.pw = π c.pw := by
    unfold Block.frozenRecord
    split
    · rfl
    · dsimp only
      split
      · rw [Block.wearSlot_pw]; exact same _
      · exact same _
  unfold Block.firstActs
  refine (record _).trans (congrArg π ?_)
  dsimp only [Block.flagTrips]
  split
  · exact Block.event_pw ..
  · rfl

/-- FW_FALLBACK shows in `MF_ALARM`. -/
theorem Block.noteFallback_alarm (b : Block) {act slotB : Bool} (h : slotB ≠ act) : (b.noteFallback act slotB).regBit Off.mfAlarm 3 = true := by
  rw [Block.noteFallback, if_neg h, Block.regBit, (Block.event_kept ..).out (.reg Off.mfAlarm) (by simp [Piece.among, Off.mfAlarm, Off.lgAlarm])]
  simp [Block.orReg]

/-- What BOOT_DONE makes of an arrival's block whose image is chosen. -/
theorem Block.arrivalBoot_boots {b : Block} {d0 d1 ia ib : List Byte} {root : BitVec 384} {slotB : Bool} {i : Image}
    (h : (b.atBoot d0 d1).chooseImage ia ib root = some (slotB, i)) :
    let c := b.arrivalBoot d0 d1 ia ib root
    c.mf.bootSlot = some slotB ∧ c.mf.fwVersion = i.version ∧ c.mf.noImage = false ∧ c.pw.arr = .pll ∧ c.pw.st = b.pw.st := by
  intro c
  have made := Block.arrivalBoot_some h
  have mf : c.mf = ((b.atBoot d0 d1).draw.drawArrival.bootImage slotB i).mf := by
    simp only [c, made, Block.noteFallback_mf, Block.firstActs_mf]
  refine ⟨by rw [mf]; rfl, by rw [mf]; rfl, by rw [mf]; rfl, ?_, ?_⟩
  · simp only [c, made, Block.noteFallback_pw, Block.firstActs_pwOf _ (·.arr)]
  · simp only [c, made, Block.noteFallback_pw, Block.firstActs_pwOf _ (·.st)]
    exact congrArg (·.st) (b.atBoot_pw d0 d1)

/-! ### The chart read (R364, R366, R370) -/

theorem Block.dom_setDom (b : Block) (d e : Nat) (v : Dom) : (b.setDom d v).dom e = if d = e then v else b.dom e := tget_tset ..

theorem Block.powerUp_dom {b : Block} {d : Nat} (off : (b.dom d).st = .off) : ((b.powerUp d).dom d).st = .powering := by
  rw [Block.powerUp, Block.modDom, Block.dom_setDom, if_pos rfl, if_pos off]

theorem Block.switching_iff (b : Block) : b.switching = true ↔ ∃ d, d < 48 ∧ ((b.dom d).st = .powering ∨ (b.dom d).st = .draining) := by
  simp [Block.switching]

/-- Where arrival step 4 leaves the pier: domains on their way, or the survey begun, a full one with its first power group. -/
def Block.surveyAhead (b c : Block) : Prop :=
  c.pw.st = .survey ∧ (c.pw.arr = .power ∨ (c.pw.arr = .survey ∨ c.pw.arr = .groups) ∧ c.sv.busy = true)
    ∧ (c.pw.arr = .power → c.switching = true) ∧ (c.pw.arr = .groups → c.pw.surveyFull = true ∧ c.sv.group = 0)
    ∧ c.pw.surveyFull = b.pw.surveyFull ∧ c.sv.kind = b.sv.kind

theorem Block.drainFor_pwOf (b : Block) (g : Nat) (ds : List Nat) {β : Type} (π : Power → β)
    (same : ∀ p, π { p with doms := [] } = π p := by intro; rfl) : π (b.drainFor g ds).pw = π b.pw :=
  (b.drainFor_kept g ds).pwOf (by simp [Piece.among]) π same

theorem Block.staggerStart_sv (b : Block) : b.staggerStart.sv = { b.sv with busy := true, group := 0, tested := false } := by
  rw [Block.staggerStart, Block.groupStart]
  rw [Block.each_keeps (·.sv) _ fun b d => (b.powerUp_kept d).out .sv (by simp [Piece.among])]
  rw [(Block.drainFor_kept ..).out .sv (by simp [Piece.among])]
  rfl

/-- A staggered survey's start leaves the power state but for its domains and the departure's group. -/
theorem Block.staggerStart_pwOf (b : Block) {β : Type} (π : Power → β)
    (same : ∀ p ds g, π { p with doms := ds, depGroup := g } = π p := by intros; rfl) : π b.staggerStart.pw = π b.pw := by
  have alone (p : Power) : π { p with doms := [] } = π p := same p [] p.depGroup
  rw [Block.staggerStart, Block.groupStart]
  rw [Block.each_keeps (fun c : Block => π c.pw) _ fun c d => (c.powerUp_kept d).pwOf (by simp [Piece.among]) π alone]
  exact (same _ _ _).trans (Block.drainFor_pwOf _ _ _ π alone)

theorem Block.formKey_pw (b : Block) : b.formKey.pw = b.pw := b.formKey_kept.pwEq (by simp [Piece.among]) (by simp [Piece.among])

theorem Block.formKey_sv (b : Block) : b.formKey.sv = b.sv := b.formKey_kept.out .sv (by simp [Piece.among])

theorem Block.powerNext_ahead {b : Block} (st : b.pw.st = .survey) (arr : b.pw.arr = .power) (tested : b.sv.tested = false) :
    b.surveyAhead b.powerNext := by
  unfold Block.powerNext
  split
  case isTrue h =>
    have switching : b.switching = true := by simpa [st, arr] using h
    simp [Block.surveyAhead, st, arr, switching]
  case isFalse =>
    split
    case h_1 d found =>
      have off : (b.dom d).st = .off := by simpa using List.find?_some found
      have inside : d < 48 := List.mem_range.1 (List.mem_of_find?_eq_some found)
      have switching : (b.powerUp d).switching = true := (Block.switching_iff _).2 ⟨d, inside, .inl (Block.powerUp_dom off)⟩
      have keeps {β : Type} (π : Power → β) (same : ∀ p, π { p with doms := [] } = π p := by intro; rfl) : π (b.powerUp d).pw = π b.pw :=
        (b.powerUp_kept d).pwOf (by simp [Piece.among]) π same
      have sv : (b.powerUp d).sv = b.sv := (b.powerUp_kept d).out .sv (by simp [Piece.among])
      simp [Block.surveyAhead, keeps (·.st), keeps (·.arr), keeps (·.surveyFull), sv, st, arr, switching]
    case h_2 =>
      rw [if_neg (by simp [tested])]
      split
      case isTrue full =>
        simp [Block.surveyAhead, Block.staggerStart_pwOf _ (·.st), Block.staggerStart_pwOf _ (·.arr), Block.staggerStart_pwOf _ (·.surveyFull),
          Block.staggerStart_sv, Block.formKey_pw, Block.formKey_sv, st, full]
      case isFalse =>
        simp [Block.surveyAhead, Block.formKey_pw, Block.formKey_sv, st]

/-- CHART_READ_DONE as the survey that it begins. -/
def Block.chartTaken (b : Block) : Block :=
  let full := b.loadChart.fullSurvey
  { (if full then b.loadChart.fromScratch else b.loadChart) with
    pw.st := .survey, pw.arr := .power, pw.surveyFull := full, sv.kind := if full then 2 else 1 }

theorem Block.chartRead_arrival {b : Block} (st : b.pw.st = .arrival) (arr : b.pw.arr = .chart) (hm : b.hmRuns = true) :
    b.chartRead = b.chartTaken.powerNext := by
  simp only [Block.chartRead, st, arr, hm, ne_eq, not_true, or_self, if_false]
  rfl

theorem Block.loadChart_tested (b : Block) : b.loadChart.sv.tested = b.sv.tested := by
  have keeps := Block.each_keeps fun c : Block => c.sv.tested
  unfold Block.loadChart
  split
  case h_1 => rfl
  case h_2 =>
    refine (keeps _ (fun c n => ?sensors) _ _).trans <| (keeps _ (fun c n => ?columns) _ _).trans <| (keeps _ (fun c n => ?domains) _ _).trans <|
      (keeps _ (fun c n => ?lanes) _ _).trans (keeps _ (fun c n => ?registers) _ _)
    case sensors => simp only; split <;> rfl
    case domains => split <;> rfl
    all_goals rfl

theorem Block.chartTaken_tested (b : Block) : b.chartTaken.sv.tested = b.sv.tested := by
  refine Eq.trans ?_ b.loadChart_tested
  simp only [Block.chartTaken]
  split <;> rfl

theorem Block.arrivalPll_locks {b : Block} (st : b.pw.st = .arrival) (arr : b.pw.arr = .pll) (hm : b.hmRuns = true) (fed : b.pllFed .root = true) :
    b.arrivalPll = { b with ck.root := { b.ck.root with lock := true, down := false }, ck.aonSrc := .pllRoot, ck.hkSrc := .pllRoot,
                            ck.svSrc := .pllRoot, ck.tlSrc := .pllRoot, ck.tideSrc := .pllRoot, pw.arr := .chart } :=
  if_neg (by simp [st, arr, hm, fed])

/-- Settles O17: boot code's image by `chooseImage`, the lock by its update, the chart read by `powerNext`. -/
theorem arrivalStepsOneToThree : Obligations.ArrivalStepsOneToThree := by
  refine ⟨fun s d0 d1 ia ib root x st arr image hm spi h0 h1 valid => ?_, fun s d0 d1 ia ib root x st arr image hm spi h0 h1 bad valid => ?_,
    fun s d0 d1 ia ib root st arr image hm spi bad0 bad1 => ?_, fun s st arr hm fed => ?_, fun s st arr hm tested => ?_⟩
  · have act : (s.blk.atBoot d0 d1).activeSlot = x.slotB :=
      Block.activeSlot_dir0 (by rw [Block.atBoot_mf]; exact h0) (by rw [Block.atBoot_mf]; exact h1)
    have chosen := Block.chooseImage_active (b := s.blk.atBoot d0 d1) (ia := ia) (ib := ib) (root := root)
      (by rw [Block.atBoot_imageValid, Block.atBoot_imageIn, act]; exact valid)
    rw [Block.atBoot_imageIn, act] at chosen
    obtain ⟨slot, version, noImage, step, pier⟩ := Block.arrivalBoot_boots chosen
    exact does_framed (f := (·.bootDone d0 d1 ia ib root)) rfl (execBootDone_kept _ _ _ _ _ ·) (Within.of rfl) (by
      rw [Block.bootDone_arrival st arr image hm spi]
      exact ⟨slot, version, step, pier.trans st, noImage⟩)
  · have act : (s.blk.atBoot d0 d1).activeSlot = x.slotB :=
      Block.activeSlot_dir1 (by rw [Block.atBoot_mf]; exact h0) (by rw [Block.atBoot_mf]; exact h1)
    have chosen := Block.chooseImage_other (b := s.blk.atBoot d0 d1) (ia := ia) (ib := ib) (root := root)
      (by rw [Block.atBoot_imageValid, Block.atBoot_imageIn, act]; exact bad) (by rw [Block.atBoot_imageValid, Block.atBoot_imageIn, act]; exact valid)
    rw [Block.atBoot_imageIn, act] at chosen
    obtain ⟨slot, version, -, step, -⟩ := Block.arrivalBoot_boots chosen
    refine does_framed (f := (·.bootDone d0 d1 ia ib root)) rfl (execBootDone_kept _ _ _ _ _ ·) (Within.of rfl) ?_
    rw [Block.bootDone_arrival st arr image hm spi]
    refine ⟨slot, version, step, ?_⟩
    rw [Block.arrivalBoot_some chosen, act]
    exact Block.noteFallback_alarm _ (by simp)
  · have none := Block.chooseImage_none (b := s.blk.atBoot d0 d1) (ia := ia) (ib := ib) (root := root) fun y => by
      rw [Block.atBoot_imageValid, Block.atBoot_imageIn]
      cases y
      · exact bad0
      · exact bad1
    refine does_framed (f := (·.bootDone d0 d1 ia ib root)) rfl (execBootDone_kept _ _ _ _ _ ·) (Within.of rfl) ?_
    have pw : (s.blk.arrivalBoot d0 d1 ia ib root).pw = s.blk.pw := by
      rw [Block.arrivalBoot_none none]; exact s.blk.atBoot_pw d0 d1
    have slot : (s.blk.arrivalBoot d0 d1 ia ib root).mf.bootSlot = s.blk.mf.bootSlot := by
      rw [Block.arrivalBoot_none none]; exact congrArg (·.bootSlot) (s.blk.atBoot_mf d0 d1)
    rw [Block.bootDone_arrival st arr image hm spi, pw, slot]
    exact ⟨by rw [Block.arrivalBoot_none none], arr, st, rfl⟩
  · refine does_framed (f := Block.arrivalPll) rfl (execArrivalPllLock_kept ·) Within.refl ?_
    rw [Block.arrivalPll_locks st arr hm fed]
    exact ⟨rfl, rfl, rfl, rfl, rfl, rfl, rfl, rfl, rfl⟩
  · obtain ⟨survey, step, power, groups, full, kind⟩ := Block.powerNext_ahead (b := s.blk.chartTaken) rfl rfl (s.blk.chartTaken_tested.trans tested)
    refine does_framed (f := Block.chartRead) rfl (execChartReadDone_kept ·) Within.refl ?_
    rw [Block.chartRead_arrival st arr hm]
    exact ⟨survey, step, fun on => (Block.switching_iff _).1 (power on), groups, full, kind⟩

end Sys2Proof.Machine
end

section
/-! SUPPORT. How a manifest completes, and the setup manifests. -/

namespace Sys2Proof.Machine

open Sys2Proof

/-! ### A manifest completes (R320) -/

/-- Completion leaves the slot DONE with what it was given, cut to what a slot holds, and the manifest no longer running. -/
theorem Block.finish_mf (b : Block) (m : ManRef) (op st : Nat) (r : List Byte) (d : Detail) :
    (b.finish m op st r d).mf =
      { b.mf with
        slots := tset (fun _ => {}) b.mf.slots (slotKey m.ring m.seq)
          { b.slot (slotKey m.ring m.seq) with
            st := .done, opcode := BitVec.ofNat 16 op, seq := m.seq, status := BitVec.ofNat 8 st
            tDone := b.ck.tide, result := r.take 960, reason := d.reason, place := d.place, need := d.need
            have_ := d.have_, readAgain := false, unseen := false, stored := [], touched := 0xFFFF }
        running := b.mf.running.filter fun x => x.m != m } := by
  unfold Block.finish
  dsimp only
  split
  · split
    · rfl
    · rw [Block.push_mf]; rfl
  · rfl

theorem Block.finish_doneWith (b : Block) {m : ManRef} {op st : Nat} {r : List Byte} (d : Detail) (ho : op < 65536) (hs : st < 256)
    (short : r.length ≤ 960) : (b.finish m op st r d).doneWith m op st r := by
  unfold Block.doneWith Block.slot
  rw [Block.finish_mf]
  simp [Nat.mod_eq_of_lt ho, Nat.mod_eq_of_lt hs, List.take_of_length_le short]

/-- What a block's last update leaves of a manifest's slot and of those that run is what `doneWith` speaks of. -/
theorem Block.doneWith_congr {b c : Block} {m : ManRef} {op st : Nat} {r : List Byte} (h : b.doneWith m op st r) (same : c.mf = b.mf) :
    c.doneWith m op st r := by
  unfold Block.doneWith Block.slot at h ⊢
  rwa [same]

theorem State.man_accepted {s : State} {m : ManRef} {op : Nat} (f : Block → Block) (h : s.blk.mans op) : s.man m op f = s.upd f := by
  simp [State.man, State.upd, h.1, h.2]

/-- An accepted manifest whose work ends in completion. -/
theorem does_finish {i : Instr} {s : State} {m : ManRef} {op st : Nat} {f : Block → Block} {c : Block} {r : List Byte} {d : Detail}
    {qs : List Piece} {post : Block → Prop} (e : exec i s = s.man m op f) (mans : s.blk.mans op) (made : f s.blk = c.finish m op st r d)
    (frame : Kept qs s.blk c) (inside : Within [.ins, .running, .slots] qs) (h : post (c.finish m op st r d)) : Does i s qs post :=
  does_upd_eq (e.trans (State.man_accepted f mans)) made (Kept.step (Block.finish_kept ..) inside frame) h

/-- An accepted manifest that only completes. -/
theorem does_answer {i : Instr} {s : State} {m : ManRef} {op st : Nat} {f : Block → Block} {r : List Byte} {d : Detail}
    (e : exec i s = s.man m op f) (mans : s.blk.mans op) (made : f s.blk = s.blk.finish m op st r d) (ho : op < 65536) (hs : st < 256)
    (short : r.length ≤ 960) : Does i s [.slots, .running, .ins] fun b => b.doneWith m op st r :=
  does_finish e mans made (Kept.refl ..) (Within.of rfl) (Block.finish_doneWith _ d ho hs short)

theorem Block.finish_reg (b : Block) (m : ManRef) (op st : Nat) (r : List Byte) (d : Detail) (o : Nat) : (b.finish m op st r d).reg o = b.reg o := by
  rw [Block.reg, Block.finish_csr, Block.reg]

theorem Kept.qyOf {ps : List Piece} {b c : Block} {β : Type} (h : Kept ps b c) (out : ¬ Piece.qy.among ps) (π : Quay → β)
    (same : ∀ q, π { q with ins := [] } = π q := by intro; rfl) : π c.qy = π b.qy := by
  have e : { c.qy with ins := [] } = { b.qy with ins := [] } := h.out .qy out
  rw [← same, e, same]

theorem Block.finish_qyOf (b : Block) (m : ManRef) (op st : Nat) (r : List Byte) (d : Detail) {β : Type} (π : Quay → β)
    (same : ∀ q, π { q with ins := [] } = π q := by intro; rfl) : π (b.finish m op st r d).qy = π b.qy :=
  (Block.finish_kept ..).qyOf (by simp [Piece.among]) π same

theorem Kept.keys (b : Block) (x : Keys) : Kept [.keys] b { b with keys := x } := by
  apply (Kept.refl _ b).of_fields (keys := .inr (List.mem_singleton.2 rfl)) <;> exact .inl rfl

/-- The pier with an ID that the harbour gave it (R17). -/
def Block.withId (b : Block) (id : BitVec 16) : Block := { b with qy.pierId := id.truncate 15, qy.idValid := true }

theorem Block.withId_kept (b : Block) (id : BitVec 16) : Kept [.qy] b (b.withId id) := by
  apply Kept.of_fields (d := b.withId id) (Kept.refl _ b) (qy := .inr ⟨.inl (List.mem_singleton.2 rfl), .inr rfl⟩) <;> exact .inl rfl

/-! ### The results of PIER_INFO and FILL_STATUS -/

theorem leBytes_length (v n : Nat) : (leBytes v n).length = n := by
  induction n generalizing v with
  | zero => rfl
  | succ n ih => rw [leBytes, List.length_cons, ih]

theorem Block.pierInfoBytes_length (b : Block) : b.pierInfoBytes.length = 64 := by
  simp [Block.pierInfoBytes, leBytes_length]

theorem Block.fillStatusBytes_length (b : Block) : b.fillStatusBytes.length = 36 := by
  simp [Block.fillStatusBytes, leBytes_length]

/-! ### The route and region tables (R187, R326) -/

/-- Routes written stand where they were written, every other register as before. -/
theorem Block.writeRoutes_reg (b : Block) (n : Nat) (ws : List Word) (j : Nat) :
    (b.writeRoutes n ws).reg (Off.qyRoute + 4 * j)
      = if n ≤ j ∧ j < n + ws.length then ws.getD (j - n) 0 else b.reg (Off.qyRoute + 4 * j) := by
  induction ws generalizing b n with
  | nil => rw [if_neg (by rw [List.length_nil]; omega)]; rfl
  | cons w ws ih =>
    rw [Block.writeRoutes, ih, List.length_cons]
    rcases Nat.lt_trichotomy j n with before | rfl | after
    · rw [if_neg (by omega), if_neg (by omega), Block.reg_setReg_other _ _ (by omega)]
    · rw [if_neg (by omega), if_pos (by omega), Block.reg_setReg_same, Nat.sub_self, List.getD_cons_zero]
    · obtain ⟨k, rfl⟩ : ∃ k, j = n + 1 + k := ⟨j - (n + 1), by omega⟩
      have rest : n + 1 + k - (n + 1) = k := by omega
      have all : n + 1 + k - n = k + 1 := by omega
      by_cases inside : k < ws.length
      · rw [if_pos (by omega), if_pos (by omega), rest, all, List.getD_cons_succ]
      · rw [if_neg (by omega), if_neg (by omega), Block.reg_setReg_other _ _ (by omega)]

/-- A region entry written whole reads as its image. -/
theorem Block.writeRegion_reg (b : Block) (n : Nat) (r : RegionImage) :
    let c := b.writeRegion n r
    c.reg (Off.qyRgnBaseLo + 0x20 * n) = r.baseLo ∧ c.reg (Off.qyRgnBaseHi + 0x20 * n) = r.baseHi
      ∧ c.reg (Off.qyRgnLimLo + 0x20 * n) = r.limLo ∧ c.reg (Off.qyRgnLimHi + 0x20 * n) = r.limHi
      ∧ c.reg (Off.qyRgnSrc + 0x20 * n) = r.src ∧ c.reg (Off.qyRgnPerm + 0x20 * n) = r.perm := by
  have apart {x y : Nat} (v : Word) (c : Block) (h : y ≠ x) : (c.setReg (x + 0x20 * n) v).reg (y + 0x20 * n) = c.reg (y + 0x20 * n) :=
    Block.reg_setReg_other _ _ (by omega)
  simp [Block.writeRegion, apart]

/-! ### KEY_LOAD (R302, R315) -/

section
variable {b : Block} {k : KeyWork}

theorem Block.keyWork_plain (bare : b.keys.wrap = none) (kind : k.kind = 0) (load : k.erase = false) (plain : k.wrapped = false)
    (out : k.inBand = false) (halves : k.material.take 32 ≠ (k.material.drop 32).take 32) : b.keyWork k = (St.ok, b.keys.load k k.material) := by
  simp [Block.keyWork, Block.plainKey, bare, kind, load, plain, out, halves]

theorem Block.keyWork_erase (kind : k.kind = 0) (erase : k.erase = true) : b.keyWork k = (St.ok, b.keys.erase 0 k.slot) := by
  simp [Block.keyWork, kind, erase]

theorem Block.keyWork_inBand (load : k.erase = false) (plain : k.wrapped = false) (inBand : k.inBand = true) :
    b.keyWork k = (St.refused, b.keys) := by
  simp [Block.keyWork, load, plain, inBand]

theorem Keys.load_region (ks : Keys) (bs : List Byte) (kind : k.kind = 0) :
    ks.load k bs = { ks with region := tset (fun _ => none) ks.region k.slot (some (BitVec.ofNat 512 (ofLe bs))) } := by
  simp [Keys.load, kind]

/-- A region key's slot is one of R302's 64. -/
theorem KeyWork.slot_pos (legal : k.legal = true) (kind : k.kind = 0) : k.slot ≠ 0 := by
  simp [KeyWork.legal, kind] at legal
  omega

end

theorem Block.keyLoad_legal {b : Block} {m : ManRef} {k : KeyLoadParams} (op : k.op.toNat ≤ 1) (wrapped : k.op = 0 → k.wrapped.toNat ≤ 1)
    (legal : (keyWorkOf m k).legal = true) :
    b.keyLoad m k = ({ b with keys := (b.keyWork (keyWorkOf m k)).2 } : Block).finish m Mop.keyLoad (b.keyWork (keyWorkOf m k)).1 :=
  if_neg (by rintro (h | ⟨h, g⟩ | h) <;> [omega; exact absurd (wrapped h) (by omega); exact h legal])

theorem Block.keyLoad_illegal {b : Block} {m : ManRef} {k : KeyLoadParams}
    (h : 1 < k.op.toNat ∨ (k.op = 0 ∧ 1 < k.wrapped.toNat) ∨ (keyWorkOf m k).legal = false) :
    b.keyLoad m k = b.finish m Mop.keyLoad St.badParam := if_pos (by simpa using h)

theorem Block.keyOf_region (b : Block) {n : Nat} (h : n ≠ 0) : b.keyOf n = tget (fun _ => none) b.keys.region n := if_neg h

/-- KEY_LOAD completes with the status of its work, and the key store is what the work made of it. -/
theorem does_keyLoad {s : State} {m : ManRef} {k : KeyLoadParams} {st : Nat} {ks : Keys} {post : Block → Prop} (mans : s.blk.mans Mop.keyLoad)
    (op : k.op.toNat ≤ 1) (wrapped : k.op = 0 → k.wrapped.toNat ≤ 1) (legal : (keyWorkOf m k).legal = true)
    (work : s.blk.keyWork (keyWorkOf m k) = (st, ks)) (hs : st < 256) (h : ∀ c, c.keys = ks → post c) :
    Does (.keyLoad m k) s [.keys, .slots, .running, .ins] fun b => b.doneWith m Mop.keyLoad st [] ∧ post b := by
  refine does_finish (f := (·.keyLoad m k)) rfl mans ((Block.keyLoad_legal op wrapped legal).trans (by rw [work]))
    ((Kept.keys ..).mono (Within.of rfl)) (Within.of rfl) ⟨Block.finish_doneWith _ _ (by decide) hs (by simp), h _ ?_⟩
  rw [Block.finish_keys]

/-- Settles O50: each manifest's work is one branch of its definition, and ends in `finish`. -/
theorem setupManifests : Obligations.SetupManifests := by
  refine ⟨fun s m mans => ?pierInfo, fun s m id mans first small => ?setId, fun s m id mans again small => ?idAgain, fun s m id mans big => ?idBad,
    fun s m n ws mans some fits free => ?routes, fun s m n ws mans some fits locked => ?routesLocked, fun s m n ws mans bad => ?routesBad,
    fun s m n r mans legal free => ?region, fun s m n rs mans bad => ?regionsBad, fun s m n rs mans some fits legal locked => ?regionsLocked,
    fun s m mans => ?fillStatus, fun s m k mans ring bare kind op plain legal halves => ?keyPlain, fun s m k mans kind op legal => ?keyErase,
    fun s m k mans ring op plain legal => ?keyInBand, fun s m k mans bad => ?keyBad⟩
  case pierInfo =>
    have e := execPierInfo.eq_def m s
    exact does_answer e mans rfl (by decide) (by decide)
      (by rw [Block.pierInfoBytes_length]; decide)
  case setId =>
    have e := execSetPierId.eq_def m id s
    refine does_finish (c := s.blk.withId id) e mans
      ((if_neg (by omega)).trans (if_neg (by simp [first]))) ((Block.withId_kept ..).mono (Within.of rfl)) (Within.of rfl)
      ⟨Block.finish_doneWith _ _ (by decide) (by decide) (by simp), ?_⟩
    rw [Block.finish_qyOf _ _ _ _ _ _ (·.pierId), Block.finish_qyOf _ _ _ _ _ _ (·.idValid)]
    exact ⟨Nat.mod_eq_of_lt (by omega), rfl⟩
  case idAgain =>
    have e := execSetPierId.eq_def m id s
    exact does_answer e mans ((if_neg (by omega)).trans (if_pos again)) (by decide) (by decide) (by simp)
  case idBad =>
    have e := execSetPierId.eq_def m id s
    exact does_answer e mans (if_pos big) (by decide) (by decide) (by simp)
  case routes =>
    have e := execRouteSet.eq_def m n ws s
    refine does_finish (c := s.blk.writeRoutes n ws) e mans ((if_neg (by simpa using ⟨some, fits⟩)).trans (if_neg (by simp [free])))
      ((Block.writeRoutes_kept ..).mono (Within.of rfl)) (Within.of rfl)
      ⟨Block.finish_doneWith _ _ (by decide) (by decide) (by simp), fun i inside => ?_, fun i outside => ?_⟩
    · rw [Block.finish_reg, Block.writeRoutes_reg, if_pos (by omega), Nat.add_sub_cancel_left]
    · rw [Block.finish_reg, Block.writeRoutes_reg, if_neg (by omega)]
  case routesLocked =>
    have e := execRouteSet.eq_def m n ws s
    exact does_answer e mans ((if_neg (by simpa using ⟨some, fits⟩)).trans (if_pos locked)) (by decide) (by decide) (by simp)
  case routesBad =>
    have e := execRouteSet.eq_def m n ws s
    exact does_answer e mans (if_pos (by simpa using bad)) (by decide) (by decide) (by simp)
  case region =>
    have e := execRegionSet.eq_def m n [r] s
    refine does_finish (c := s.blk.writeRegion n r) e mans ((if_neg (by simp [legal])).trans (if_neg (by simp [free])))
      ((Block.writeRegion_kept ..).mono (Within.of rfl)) (Within.of rfl)
      ⟨Block.finish_doneWith _ _ (by decide) (by decide) (by simp), ?_⟩
    simpa only [Block.finish_reg] using s.blk.writeRegion_reg n r
  case regionsBad =>
    have e := execRegionSet.eq_def m n rs s
    exact does_answer e mans (if_pos (by simpa using bad)) (by decide) (by decide) (by simp)
  case regionsLocked =>
    have e := execRegionSet.eq_def m n rs s
    exact does_answer e mans ((if_neg (by simp [some, legal]; omega)).trans (if_pos locked)) (by decide) (by decide) (by simp)
  case fillStatus =>
    have e := execFillStatus.eq_def m s
    refine does_upd_eq (e.trans (State.man_accepted _ mans)) rfl
      (Kept.step (Block.draw_kept (s.blk.finish m Mop.fillStatus St.ok s.blk.fillStatusBytes)) (Within.of rfl)
        (Block.finish_keeps (Within.of rfl) (Kept.refl ..))) ?_
    exact Block.doneWith_congr (Block.finish_doneWith _ _ (by decide) (by decide) (by rw [Block.fillStatusBytes_length]; decide)) rfl
  case keyPlain =>
    have kind' : (keyWorkOf m k).kind = 0 := by simp [keyWorkOf, kind]
    refine does_keyLoad mans (by simp [op]) (by simp [plain]) legal
      (Block.keyWork_plain bare kind' (by simp [keyWorkOf, op]) (by simp [keyWorkOf, plain]) (by simpa [keyWorkOf] using ring) halves)
      (by decide) fun c made => ?_
    have region : c.keyOf k.slot.toNat = _ := Block.keyOf_region c (KeyWork.slot_pos legal kind')
    rw [region, made, Keys.load_region _ _ kind']
    simp [keyWorkOf]
  case keyErase =>
    have kind' : (keyWorkOf m k).kind = 0 := by simp [keyWorkOf, kind]
    refine does_keyLoad mans (by simp [op]) (by simp [op]) legal (Block.keyWork_erase kind' (by simp [keyWorkOf, op])) (by decide) fun c made => ?_
    have region : c.keyOf k.slot.toNat = _ := Block.keyOf_region c (KeyWork.slot_pos legal kind')
    rw [region, made]
    simp [Keys.erase, keyWorkOf]
  case keyInBand =>
    exact does_keyLoad mans (by simp [op]) (by simp [plain]) legal
      (Block.keyWork_inBand (by simp [keyWorkOf, op]) (by simp [keyWorkOf, plain]) (by simpa [keyWorkOf] using ring)) (by decide) fun c made => made
  case keyBad =>
    have e := execKeyLoad.eq_def m k s
    exact does_answer e mans (Block.keyLoad_illegal bad) (by decide) (by decide) (by simp)

end Sys2Proof.Machine
end

section
/-! SUPPORT. THERM_STATUS of a report that no receipt holds. -/

namespace Sys2Proof.Machine

open Sys2Proof

/-- What completion stores of a result: as much as a slot holds (R320). -/
theorem Block.finish_result (b : Block) (m : ManRef) (op st : Nat) (r : List Byte) (d : Detail) :
    ((b.finish m op st r d).slot (slotKey m.ring m.seq)).result = r.take 960 := by
  rw [Block.slot, Block.finish_mf]
  simp

/-- A pier in HARBOUR whose kept report is one byte longer than a receipt slot's result. -/
def longReport : State := { State.reset with blk := { State.reset.blk with pw.st := .harbour, heat.report := List.replicate 961 0 } }

theorem longReport_mans : longReport.blk.mans Mop.thermStatus := ⟨rfl, rfl⟩

theorem longReport_length : longReport.blk.thermStatus.length = 961 := List.length_replicate

/-- Refutes O42: its last clause has THERM_STATUS answer the kept report whole in every state, and a receipt slot holds 960
bytes of a result, so a report of 961 bytes is cut.  WATCH_ROUND keeps reports of 144 bytes; the statement does not ask that. -/
theorem not_tripsAndSensors : ¬ Obligations.TripsAndSensors := by
  intro h
  obtain ⟨-, -, -, -, -, -, -, -, answers⟩ := h
  let m : ManRef := { ring := 0, seq := 0 }
  obtain ⟨t, e, -, -, -, -, -, -, whole, -⟩ := answers longReport m longReport_mans
  have made : exec (.thermStatus m) longReport = longReport.upd _ := (execThermStatus.eq_def m longReport).trans (State.man_accepted _ longReport_mans)
  rw [made] at e
  cases e
  rw [Block.finish_result] at whole
  have cut := congrArg List.length whole
  rw [List.length_take, longReport_length] at cut
  omega

end Sys2Proof.Machine
end

section
/-! SUPPORT. A refusal that wraps a tally counter. -/

namespace Sys2Proof.Machine

open Sys2Proof

/-- A pier in OPEN without any region entry, whose quay counts refusals (R426) in a tally counter that is about to wrap. -/
def wrappingTally : State :=
  { State.reset with
    blk := { State.reset.blk with
      pw.st := .openS, pw.doms := [(qyDom, { st := .on })], west.seg := .run
      csr := [(tlOff Off.tlEvsel quayBlk, 0x082)], tl.blocks := [(quayBlk, { cnt := [(0, BitVec.allOnes 48)] })] } }

/-- A READ of one granule. -/
def oneRead : Flit := { kind := 1, opcode := 0x01, dest := 5, src := 9, length := 1 }

theorem wrappingTally_denies : wrappingTally.blk.regionCheck .read oneRead (planOf .read oneRead) = .denied := by decide +kernel

theorem wrappingTally_takes : wrappingTally.blk.takes .read oneRead := by decide +kernel

/-- The refusal counts, and the counter's wrap shows in TL_OVF. -/
theorem wrappingTally_overflows :
    (wrappingTally.blk.takeAccess .west .read oneRead).reg (tlOff Off.tlOvf quayBlk) = 1
      ∧ wrappingTally.blk.reg (tlOff Off.tlOvf quayBlk) = 0 := by decide +kernel

/-- Refutes O33: a refusal counts as a tally event (R426), and a counter that wraps sets its bit of the quay's TL_OVF, which
the frames of the first four clauses leave out. -/
theorem not_requestsRefused : ¬ Obligations.RequestsRefused := by
  intro h
  obtain ⟨denied, -⟩ := h
  obtain ⟨t, e, -, frame, -⟩ := denied wrappingTally .read .west oneRead wrappingTally_takes wrappingTally_denies rfl
  have made : exec (Op.read.row .west oneRead) wrappingTally = .next _ := execRead.eq_def .west oneRead wrappingTally
  rw [made] at e
  cases e
  have kept := frame.out (.reg (tlOff Off.tlOvf quayBlk)) (by simp [Piece.among])
  obtain ⟨after, before⟩ := wrappingTally_overflows
  have same : (1 : Word) = 0 := by rw [← after, ← before]; exact kept
  exact absurd same (by decide)

end Sys2Proof.Machine
end

section
/-! SUPPORT. What the scheduler of a channel chooses in a cycle: R243's cycles and R250's order. -/

namespace Sys2Proof.Machine

open Sys2Proof

/-! ### The first of a list of commands -/

theorem Cmd.level_le_of_before {x y : Cmd} (h : x.before y = true) : x.acc.level ≤ y.acc.level := by
  unfold Cmd.before at h
  split at h
  · exact Nat.le_of_lt (of_decide_eq_true h)
  · next e => exact Nat.le_of_eq (not_not.mp e)

theorem Cmd.level_le_of_not_before {x y : Cmd} (h : ¬ x.before y = true) : y.acc.level ≤ x.acc.level := by
  unfold Cmd.before at h
  split at h
  · exact Nat.le_of_not_lt fun k => h (decide_eq_true k)
  · next e => exact Nat.le_of_eq (not_not.mp e).symm

/-- The fold of `firstCmd` ends in a command of its list, and none of the list has a higher level. -/
theorem firstCmd_fold (m : Cmd) (cs : List Cmd) :
    cs.foldl (fun m x => if x.before m then x else m) m ∈ m :: cs
      ∧ ∀ d ∈ m :: cs, (cs.foldl (fun m x => if x.before m then x else m) m).acc.level ≤ d.acc.level := by
  induction cs generalizing m with
  | nil => exact ⟨List.mem_singleton.mpr rfl, fun d hd => by rw [List.mem_singleton.mp hd]; exact Nat.le_refl _⟩
  | cons x xs ih =>
    rw [List.foldl_cons]
    by_cases h : x.before m = true
    · obtain ⟨mem, least⟩ := ih x
      rw [if_pos h]
      refine ⟨List.mem_cons_of_mem _ mem, fun d hd => ?_⟩
      obtain rfl | hd := List.mem_cons.mp hd
      · exact Nat.le_trans (least x List.mem_cons_self) (Cmd.level_le_of_before h)
      · exact least d hd
    · obtain ⟨mem, least⟩ := ih m
      rw [if_neg h]
      refine ⟨?_, fun d hd => ?_⟩
      · obtain e | hm := List.mem_cons.mp mem
        · rw [e]; exact List.mem_cons_self
        · exact List.mem_cons_of_mem _ (List.mem_cons_of_mem _ hm)
      · obtain rfl | hd := List.mem_cons.mp hd
        · exact least d List.mem_cons_self
        obtain rfl | hd := List.mem_cons.mp hd
        · exact Nat.le_trans (least m List.mem_cons_self) (Cmd.level_le_of_not_before h)
        · exact least d (List.mem_cons_of_mem _ hd)

theorem firstCmd_some {cs : List Cmd} {c : Cmd} (h : firstCmd cs = some c) : c ∈ cs ∧ ∀ d ∈ cs, c.acc.level ≤ d.acc.level := by
  cases cs with
  | nil => cases h
  | cons m ms => exact Option.some.inj h ▸ firstCmd_fold m ms

/-! ### The commands that may go out -/

theorem any_of_subset {α : Type} {p : α → Bool} {xs ys : List α} (sub : xs ⊆ ys) (h : xs.any p = true) : ys.any p = true := by
  obtain ⟨x, hx, px⟩ := List.any_eq_true.mp h
  exact List.any_eq_true.mpr ⟨x, sub hx, px⟩

/-- Fewer waiting accesses bar less of a column command. -/
theorem Block.colReady_of_subset {b : Block} {n : Nat} {all rows : List Access} {a : Access} (sub : rows ⊆ all)
    (h : b.colReady n all a = true) : b.colReady n rows a = true := by
  have capped : b.capped (b.chan n) rows a = true → b.capped (b.chan n) all a = true := any_of_subset sub
  simp only [Block.colReady, Bool.and_eq_true, Bool.not_eq_true'] at h ⊢
  exact ⟨h.1, Bool.eq_false_iff.mpr fun k => Bool.eq_false_iff.mp h.2 (capped k)⟩

theorem Block.hitsFirst_of_subset {b : Block} {x : Chan} {all rows queued : List Access} {a : Access} (sub : rows ⊆ all)
    (h : b.hitsFirst x rows queued a = true) : b.hitsFirst x all queued a = true := by
  unfold Block.hitsFirst at h ⊢
  obtain h | h := Bool.or_eq_true_iff.mp h
  · exact Bool.or_eq_true_iff.mpr (.inl h)
  · exact Bool.or_eq_true_iff.mpr (.inr (any_of_subset sub h))

/-- A command that could issue although all of a list wait could issue where fewer do. -/
theorem Block.cmdFor_of_subset {b : Block} {n : Nat} {all rows queued : List Access} {a : Access} {d : Cmd} (sub : rows ⊆ all)
    (h : b.cmdFor n all queued a = some d) : b.cmdFor n rows queued a = some d := by
  unfold Block.cmdFor at h ⊢
  dsimp only at h ⊢
  split at h
  · next cal => rw [if_pos cal]; exact h
  · next cal =>
    rw [if_neg cal]
    split at h
    · next hit =>
      rw [if_pos hit]
      split at h
      · next ready => rw [if_pos ⟨Block.colReady_of_subset sub ready.1, ready.2⟩]; exact h
      · cases h
    · next hit =>
      rw [if_neg hit]
      split at h
      · cases h
      · next odd =>
        rw [if_neg odd]
        split at h
        · next opened =>
          rw [if_pos opened]
          split at h
          · next pre => rw [if_pos ⟨pre.1, fun k => pre.2 (Block.hitsFirst_of_subset sub k)⟩]; exact h
          · cases h
        · next opened => rw [if_neg opened]; exact h

/-- The model's choice of R243's cycles: column commands and calibrations on even ticks, the others on odd ones. -/
theorem Block.cmdFor_parity {b : Block} {n : Nat} {all queued : List Access} {a : Access} {d : Cmd} (h : b.cmdFor n all queued a = some d) :
    d.kind = .col ∨ d.kind = .cal ↔ b.now % 2 = 0 := by
  unfold Block.cmdFor at h
  dsimp only at h
  split at h
  · split at h
    · next ok => cases h; simp [ok.1]
    · cases h
  · split at h
    · split at h
      · next ok =>
        cases h
        have even : b.now % 2 = 0 := by
          have := ok.1
          simp only [Block.colReady, Bool.and_eq_true, beq_iff_eq] at this
          exact this.1.1.1.2
        simp [even]
      · cases h
    · split at h
      · cases h
      · next odd =>
        split at h <;> split at h
        · cases h; simp [odd]
        · cases h
        · cases h; simp [odd]
        · cases h

theorem Block.refreshCmds_parity {b : Block} {n : Nat} {d : Cmd} (h : d ∈ b.refreshCmds n) : d.kind = .col ∨ d.kind = .cal ↔ b.now % 2 = 0 := by
  unfold Block.refreshCmds at h
  dsimp only at h
  split at h
  · cases h
  · next odd =>
    have kind : d.kind = .refab ∨ d.kind = .refpb := by
      simp only [List.mem_append, List.mem_ite_nil_right, List.mem_singleton] at h
      obtain ((⟨_, rfl⟩ | ⟨_, rfl⟩) | ⟨_, rfl⟩) | ⟨_, rfl⟩ := h
      · exact .inl rfl
      · exact .inl rfl
      · exact .inl rfl
      · exact .inr rfl
    obtain k | k := kind <;> simp [k, odd]

/-- What is chosen where nothing is to be sent again. -/
theorem Block.choose_fresh {b : Block} {n : Nat} {c : Cmd} (awake : (b.chan n).resume = false) (none : (b.chan n).replayQ = [])
    (h : b.choose n = some c) :
    firstCmd (b.refreshCmds n ++ (b.accesses n).filterMap (b.cmdFor n ((b.accesses n).filter fun a => a.src != .cal) (b.queuedAccesses n)))
      = some c := by
  unfold Block.choose at h
  simp only [awake, none] at h
  split at h
  · cases h
  · exact h

/-- R250 and R243: no waiting access whose command could issue has a higher level than the one chosen, which keeps the
cycles of its kind. -/
theorem Block.choose_first {b : Block} {n : Nat} {c : Cmd} (awake : (b.chan n).resume = false) (none : (b.chan n).replayQ = [])
    (h : b.choose n = some c) :
    (∀ a ∈ b.accesses n, ((b.cmdFor n (b.accesses n) (b.queuedAccesses n) a).all fun d => decide (c.acc.level ≤ d.acc.level)) = true)
      ∧ (c.kind = .col ∨ c.kind = .cal ↔ b.now % 2 = 0) := by
  obtain ⟨mem, least⟩ := firstCmd_some (Block.choose_fresh awake none h)
  constructor
  · intro a ha
    refine Option.all_eq_true_iff_get _ _ |>.mpr fun hd => ?_
    refine decide_eq_true (least _ (List.mem_append_right _ (List.mem_filterMap.mpr ⟨a, ha, ?_⟩)))
    exact Block.cmdFor_of_subset (List.filter_subset_self _) (Option.some_get hd).symm
  · obtain hr | hc := List.mem_append.mp mem
    · exact Block.refreshCmds_parity hr
    · obtain ⟨a, _, ha⟩ := List.mem_filterMap.mp hc
      exact Block.cmdFor_parity ha

end Sys2Proof.Machine
end

section
/-! SUPPORT. What COMMAND_ISSUE comes to, and what an issued command notes of its channel and banks. -/

namespace Sys2Proof.Machine

open Sys2Proof

/-! ### Banks -/

theorem Chan.bank_modBank (x : Chan) (k j : Nat) (f : Bank → Bank) : (x.modBank k f).bank j = if k = j then f (x.bank k) else x.bank j :=
  tget_tset ..

@[simp] theorem Chan.bank_modBank_same (x : Chan) (k : Nat) (f : Bank → Bank) : (x.modBank k f).bank k = f (x.bank k) := by
  rw [Chan.bank_modBank, if_pos rfl]

@[simp] theorem Block.chan_setChan (b : Block) (n : Nat) (x : Chan) : (b.setChan n x).chan n = x := tget_tset_same ..

@[simp] theorem Block.chan_modChan (b : Block) (n : Nat) (f : Chan → Chan) : (b.modChan n f).chan n = f (b.chan n) := Block.chan_setChan ..

/-! ### The cycle -/

@[simp] theorem Block.atCycle_chan (b : Block) (n k : Nat) : (b.atCycle n).chan k = b.chan k :=
  (b.atCycle_kept n).out (.chan k) (by simp [Piece.among])

@[simp] theorem Block.atCycle_ck (b : Block) (n : Nat) : (b.atCycle n).ck = b.ck :=
  (b.atCycle_kept n).ckEq (by simp [Piece.among]) (by simp [Piece.among])

@[simp] theorem Block.atCycle_prot (b : Block) (n : Nat) : (b.atCycle n).prot = b.prot :=
  (b.atCycle_kept n).out .prot (by simp [Piece.among])

section
variable {s : State} {ch : ChId} {dmg : List Damage} {fc : Option (Fin 13)} {pe : Bool} {c : Cmd}

/-- What the channel does in the cycle, store and block. -/
def State.issued (s : State) (ch : ChId) (c : Cmd) (dmg : List Damage) (fc : Option (Fin 13)) (pe : Bool) : List Host.Cell × Block :=
  runCmd s.mem (s.blk.atCycle ch) ch c dmg fc pe

theorem exec_commandIssue_idle (serves : s.blk.chanServes ch = false) : exec (.commandIssue ch dmg fc pe) s = .next s :=
  if_pos (by simp [serves])

theorem exec_commandIssue_none (serves : s.blk.chanServes ch = true) (none : (s.blk.atCycle ch).choose ch = none) :
    exec (.commandIssue ch dmg fc pe) s = .next { s with blk := s.blk.atCycle ch } := by
  change execCommandIssue ch dmg fc pe s = _
  simp [execCommandIssue, serves, none]

theorem exec_commandIssue_outside (serves : s.blk.chanServes ch = true) (chosen : (s.blk.atCycle ch).choose ch = some c)
    (outside : granules ≤ c.acc.gran) : exec (.commandIssue ch dmg fc pe) s = .fault .noSuchGranule := by
  change execCommandIssue ch dmg fc pe s = _
  simp only [execCommandIssue, serves, chosen, if_pos outside]
  rfl

theorem exec_commandIssue_some (serves : s.blk.chanServes ch = true) (chosen : (s.blk.atCycle ch).choose ch = some c)
    (inside : c.acc.gran < granules) :
    exec (.commandIssue ch dmg fc pe) s
      = .next { s with mem := (s.issued ch c dmg fc pe).1, blk := (s.issued ch c dmg fc pe).2 } := by
  change execCommandIssue ch dmg fc pe s = _
  simp only [execCommandIssue, serves, chosen, if_neg (Nat.not_le.mpr inside)]
  rfl

/-- A command that stores nothing: the frame of the command alone, and what its block shows. -/
theorem does_commandIssue {ps qs : List Piece} {post : Block → Prop} (serves : s.blk.chanServes ch = true)
    (chosen : (s.blk.atCycle ch).choose ch = some c) (inside : c.acc.gran < granules) (cycle : Within [.qy, .chs, .reg Off.chAlarm] qs)
    (mem : (s.issued ch c dmg fc pe).1 = s.mem) (frame : Kept ps (s.blk.atCycle ch) (s.issued ch c dmg fc pe).2) (within : Within ps qs)
    (h : post (s.issued ch c dmg fc pe).2) : Does (.commandIssue ch dmg fc pe) s qs post :=
  ⟨_, exec_commandIssue_some serves chosen inside, ⟨rfl, mem⟩, Kept.step frame within
    ((s.blk.atCycle_kept ch).mono fun p hp => cycle p (by simp at hp ⊢; tauto)), h⟩

/-- As `does_commandIssue`, of a command that stores one granule. -/
theorem doesOn_commandIssue {ps qs : List Piece} {cells : Nat → Prop} {post : State → Prop} (serves : s.blk.chanServes ch = true)
    (chosen : (s.blk.atCycle ch).choose ch = some c) (inside : c.acc.gran < granules) (cycle : Within [.qy, .chs, .reg Off.chAlarm] qs)
    (mem : ∀ a, ¬ cells a → Memory.read (s.issued ch c dmg fc pe).1 a = Memory.read s.mem a)
    (frame : Kept ps (s.blk.atCycle ch) (s.issued ch c dmg fc pe).2) (within : Within ps qs)
    (h : post { s with mem := (s.issued ch c dmg fc pe).1, blk := (s.issued ch c dmg fc pe).2 }) :
    DoesOn (.commandIssue ch dmg fc pe) s qs cells post :=
  ⟨_, exec_commandIssue_some serves chosen inside, rfl, mem, Kept.step frame within
    ((s.blk.atCycle_kept ch).mono fun p hp => cycle p (by simp at hp ⊢; tauto)), h⟩

end

/-! ### The commands of a channel -/

/-- The command noted at its channel, before anything else of it is done. -/
def Block.noted (b : Block) (n : Nat) (c : Cmd) : Block := b.setChan n ((b.chan n).noteCmd b.ck.tide c)

@[simp] theorem Block.noted_chan (b : Block) (n : Nat) (c : Cmd) : (b.noted n c).chan n = (b.chan n).noteCmd b.ck.tide c :=
  Block.chan_setChan ..

theorem Block.noted_kept (b : Block) (n : Nat) (c : Cmd) : Kept [.chan n] b (b.noted n c) := Kept.setChan ..

section
variable (m : List Host.Cell) (b : Block) (n : Nat) (c : Cmd) (dmg : List Damage) (fc : Option (Fin 13)) (pe : Bool)

/-- What a command does that is not sent again, after it is noted. -/
def Block.carried (m : List Host.Cell) (b : Block) (n : Nat) (c : Cmd) (dmg : List Damage) (fc : Option (Fin 13)) (pe : Bool) : List Host.Cell × Block :=
  match c.kind with
  | .act => (m, (b.noted n c).actDone n c.acc)
  | .pre => (m, (b.noted n c).tally n 0x015 [0, c.acc.filter] 1)
  | .col => runCol m ((b.noted n c).countCol n c.acc ((b.chan n).bank c.acc.bank).used) n c.acc dmg pe
  | .refab => (m, (b.noted n c).refabDone n c.acc.level fc)
  | .refpb => (m, (b.noted n c).tally n 0x017 [0] 1)
  | .cal => (m, (b.noted n c).noteBg n .cal 1)
  | .resume => (m, b.noted n c)

theorem runCmd_eq : runCmd m b n c dmg fc pe =
    if ¬ (b.chan n).replayQ.isEmpty ∧ ¬ (b.chan n).resume then (m, (b.noted n c).sentAgain n c) else b.carried m n c dmg fc pe := rfl

theorem Block.sentAgain_other (h : c.kind ≠ .col) (k : c.kind ≠ .act) : b.sentAgain n c = b := by
  unfold Block.sentAgain
  split
  · exact absurd ‹_› h
  · exact absurd ‹_› k
  · rfl

end
end Sys2Proof.Machine
end

section
/-! SUPPORT. The commands of a channel that store nothing and end no refresh interval: ACT, PRE, REFpb, a calibration, RESUME. -/

namespace Sys2Proof.Machine

open Sys2Proof

/-- What such a command changes beside its channel. -/
def CmdKind.beside (n : Nat) : CmdKind → List Piece
  | .act => [.chs, .count (dcOff Off.dcActLo n), .reg (tlOff Off.tlOvf n), .tl]
  | .pre | .refpb => [.reg (tlOff Off.tlOvf n), .tl]
  | _ => []

/-- The channel's state is what it notes of the command, but for the log of background use. -/
def Block.onlyNoted (b : Block) (n : Nat) (c : Cmd) (d : Block) : Prop :=
  ∃ l, d.chan n = { (b.chan n).noteCmd b.ck.tide c with bgLog := l }

section
variable {b d : Block} {n : Nat} {c : Cmd}

theorem Block.onlyNoted_same (h : d.chan n = (b.noted n c).chan n) : b.onlyNoted n c d := ⟨_, h.trans (b.noted_chan n c)⟩

theorem Block.onlyNoted_kept {ps : List Piece} (h : Kept ps (b.noted n c) d) (out : ¬ (Piece.chan n).among ps) : b.onlyNoted n c d :=
  Block.onlyNoted_same (h.out (.chan n) out)

theorem Block.onlyNoted_noteBg (h : b.onlyNoted n c d) (k : ASrc) (slots : Nat) : b.onlyNoted n c (d.noteBg n k slots) := by
  obtain ⟨l, h⟩ := h
  exact ⟨_, by rw [Block.noteBg, Block.chan_modChan, h]⟩

theorem Block.onlyNoted_actDone (b : Block) (n : Nat) (c : Cmd) : b.onlyNoted n c ((b.noted n c).actDone n c.acc) := by
  have counted : b.onlyNoted n c (((b.noted n c).bump (dcOff Off.dcActLo n)).tally n 0x013 [0, c.acc.filter] 1) :=
    Block.onlyNoted_kept ((Kept.step (Block.tally_kept ..) (Within.of_subset (qs := [.count (dcOff Off.dcActLo n), .reg (tlOff Off.tlOvf n), .tl]) (by simp))
      ((Block.bump_kept ..).mono (Within.of_subset (by simp))))) (by simp [Piece.among])
  unfold Block.actDone
  dsimp only
  split
  · split
    · obtain ⟨l, h⟩ := counted
      exact ⟨l, ((Block.modCharter_kept ..).out (.chan n) (by simp [Piece.among])).trans h⟩
    · exact counted
  · exact Block.onlyNoted_noteBg counted ..

variable (m : List Host.Cell) (b) (n) (dmg : List Damage) (fc : Option (Fin 13)) (pe : Bool)

theorem runCmd_small (notCol : c.kind ≠ .col) (notRefab : c.kind ≠ .refab) :
    (runCmd m b n c dmg fc pe).1 = m ∧ Kept (.chan n :: c.kind.beside n) b (runCmd m b n c dmg fc pe).2
      ∧ b.onlyNoted n c (runCmd m b n c dmg fc pe).2 := by
  have noted : ∀ ps, Kept (.chan n :: ps) b (b.noted n c) := fun ps => (b.noted_kept n c).mono (Within.of_subset (by simp))
  rw [runCmd_eq]
  split
  · refine ⟨rfl, ?_⟩
    by_cases act : c.kind = .act
    · have e : (b.noted n c).sentAgain n c = (b.noted n c).bump (dcOff Off.dcActLo n) := by simp [Block.sentAgain, act]
      simp only [e, act]
      exact ⟨Kept.step (Block.bump_kept ..) (Within.of_subset (by simp [CmdKind.beside])) (noted _),
        Block.onlyNoted_kept (Block.bump_kept ..) (by simp [Piece.among])⟩
    · simp only [Block.sentAgain_other _ n c notCol act]
      exact ⟨noted _, Block.onlyNoted_same rfl⟩
  · unfold Block.carried
    split
    case h_1 k => exact ⟨rfl, k ▸ Kept.step (Block.actDone_kept ..) (Within.of_subset (by simp [CmdKind.beside])) (noted _), Block.onlyNoted_actDone b n c⟩
    case h_2 k =>
      exact ⟨rfl, k ▸ Kept.step (Block.tally_kept ..) (Within.of_subset (by simp [CmdKind.beside])) (noted _),
        Block.onlyNoted_kept (Block.tally_kept ..) (by simp [Piece.among])⟩
    case h_3 k => exact absurd k notCol
    case h_4 k => exact absurd k notRefab
    case h_5 k =>
      exact ⟨rfl, k ▸ Kept.step (Block.tally_kept ..) (Within.of_subset (by simp [CmdKind.beside])) (noted _),
        Block.onlyNoted_kept (Block.tally_kept ..) (by simp [Piece.among])⟩
    case h_6 k =>
      exact ⟨rfl, Kept.step (Block.noteBg_kept ..) (Within.of_subset (by simp)) (noted _), Block.onlyNoted_noteBg (Block.onlyNoted_same rfl) ..⟩
    case h_7 k => exact ⟨rfl, noted _, Block.onlyNoted_same rfl⟩

/-- A command sent again is noted, and an ACT counted. -/
theorem runCmd_again {c : Cmd} (again : (b.chan n).replayQ ≠ []) (awake : (b.chan n).resume = false) :
    runCmd m b n c dmg fc pe = (m, (b.noted n c).sentAgain n c) := by
  rw [runCmd_eq, if_pos]
  exact ⟨by simpa using again, by simp [awake]⟩

theorem runCmd_carried {c : Cmd} (none : (b.chan n).replayQ = []) : runCmd m b n c dmg fc pe = b.carried m n c dmg fc pe := by
  rw [runCmd_eq, if_neg]
  simp [none]

end

/-! ### The clauses of COMMAND_ISSUE that follow -/

section
variable {s : State} {ch : ChId} {dmg : List Damage} {fc : Option (Fin 13)} {pe : Bool} {c : Cmd}

/-- A command that stores nothing and ends no refresh interval does what its channel notes of it. -/
theorem does_smallCommand {qs : List Piece} {post : Chan → Prop} (serves : s.blk.chanServes ch = true)
    (chosen : (s.blk.atCycle ch).choose ch = some c) (inside : c.acc.gran < granules) (notCol : c.kind ≠ .col) (notRefab : c.kind ≠ .refab)
    (cycle : Within [.qy, .chs, .reg Off.chAlarm] qs) (within : Within (.chan ch :: c.kind.beside ch) qs)
    (h : ∀ l, post { (s.blk.chan ch).noteCmd s.blk.ck.tide c with bgLog := l }) :
    Does (.commandIssue ch dmg fc pe) s qs fun b => post (b.chan ch) := by
  obtain ⟨mem, frame, l, noted⟩ := runCmd_small (s.blk.atCycle ch) ch s.mem dmg fc pe notCol notRefab
  refine does_commandIssue serves chosen inside cycle mem frame within ?_
  rw [Block.atCycle_chan, Block.atCycle_ck] at noted
  exact noted ▸ h l

theorem commandIssue_act (serves : s.blk.chanServes ch = true) (chosen : (s.blk.atCycle ch).choose ch = some c) (inside : c.acc.gran < granules)
    (k : c.kind = .act) :
    Does (.commandIssue ch dmg fc pe) s [.qy, .chs, .reg Off.chAlarm, .chan ch, .count (dcOff Off.dcActLo ch), .tl, .reg (tlOff Off.tlOvf ch)] fun b =>
      ((b.chan ch).bank c.acc.bank).row = some (rowOf c.acc.gran) ∧ ((b.chan ch).bank c.acc.bank).act = some s.blk.ck.tide
        ∧ (b.chan ch).nAct = (s.blk.chan ch).nAct + 1 := by
  refine does_smallCommand (post := fun x => (x.bank c.acc.bank).row = some (rowOf c.acc.gran) ∧ (x.bank c.acc.bank).act = some s.blk.ck.tide
    ∧ x.nAct = (s.blk.chan ch).nAct + 1) serves chosen inside (by simp [k]) (by simp [k]) (Within.of_subset (by simp))
    (Within.of_subset (by simp [k, CmdKind.beside])) fun l => ?_
  simp only [Chan.noteCmd, Chan.noteKind, k]
  simp [Chan.bank, Chan.modBank]

theorem commandIssue_pre (serves : s.blk.chanServes ch = true) (chosen : (s.blk.atCycle ch).choose ch = some c) (inside : c.acc.gran < granules)
    (k : c.kind = .pre) :
    Does (.commandIssue ch dmg fc pe) s [.qy, .chs, .reg Off.chAlarm, .chan ch, .tl, .reg (tlOff Off.tlOvf ch)] fun b =>
      ((b.chan ch).bank c.acc.bank).row = none ∧ ((b.chan ch).bank c.acc.bank).pre = some s.blk.ck.tide := by
  refine does_smallCommand (post := fun x => (x.bank c.acc.bank).row = none ∧ (x.bank c.acc.bank).pre = some s.blk.ck.tide) serves chosen inside
    (by simp [k]) (by simp [k]) (Within.of_subset (by simp)) (Within.of_subset (by simp [k, CmdKind.beside])) fun l => ?_
  simp only [Chan.noteCmd, Chan.noteKind, k]
  simp [Chan.bank, Chan.modBank]

theorem commandIssue_refpb (serves : s.blk.chanServes ch = true) (chosen : (s.blk.atCycle ch).choose ch = some c) (inside : c.acc.gran < granules)
    (k : c.kind = .refpb) :
    Does (.commandIssue ch dmg fc pe) s [.qy, .chs, .reg Off.chAlarm, .chan ch, .tl, .reg (tlOff Off.tlOvf ch)] fun b =>
      ((b.chan ch).bank (s.blk.chan ch).passBank).row = none ∧ ((b.chan ch).bank (s.blk.chan ch).passBank).refpb = some s.blk.ck.tide
        ∧ (b.chan ch).passBank = (s.blk.chan ch).passBank + 1 ∧ (b.chan ch).nRefpb = (s.blk.chan ch).nRefpb + 1 := by
  refine does_smallCommand (post := fun x => (x.bank (s.blk.chan ch).passBank).row = none
    ∧ (x.bank (s.blk.chan ch).passBank).refpb = some s.blk.ck.tide ∧ x.passBank = (s.blk.chan ch).passBank + 1
    ∧ x.nRefpb = (s.blk.chan ch).nRefpb + 1) serves chosen inside (by simp [k]) (by simp [k]) (Within.of_subset (by simp))
    (Within.of_subset (by simp [k, CmdKind.beside])) fun l => ?_
  simp only [Chan.noteCmd, Chan.noteKind, k]
  simp [Chan.bank, Chan.modBank]

theorem commandIssue_cal (serves : s.blk.chanServes ch = true) (chosen : (s.blk.atCycle ch).choose ch = some c) (inside : c.acc.gran < granules)
    (k : c.kind = .cal) :
    Does (.commandIssue ch dmg fc pe) s [.qy, .chs, .reg Off.chAlarm, .chan ch] fun b => (b.chan ch).calSlots = (s.blk.chan ch).calSlots + 1 := by
  refine does_smallCommand (post := fun x => x.calSlots = (s.blk.chan ch).calSlots + 1) serves chosen inside (by simp [k]) (by simp [k])
    (Within.of_subset (by simp)) (Within.of_subset (by simp [k, CmdKind.beside])) fun l => ?_
  simp only [Chan.noteCmd, Chan.noteKind, k]

theorem commandIssue_resume (serves : s.blk.chanServes ch = true) (chosen : (s.blk.atCycle ch).choose ch = some c) (inside : c.acc.gran < granules)
    (k : c.kind = .resume) :
    Does (.commandIssue ch dmg fc pe) s [.qy, .chs, .reg Off.chAlarm, .chan ch] fun b =>
      (b.chan ch).resume = false ∧ (b.chan ch).replayQ = (s.blk.chan ch).replayQ := by
  refine does_smallCommand (post := fun x => x.resume = false ∧ x.replayQ = (s.blk.chan ch).replayQ) serves chosen inside (by simp [k])
    (by simp [k]) (Within.of_subset (by simp)) (Within.of_subset (by simp [k, CmdKind.beside])) fun l => ?_
  simp [Chan.noteCmd, Chan.noteKind, k]

theorem commandIssue_again {rest : List Cmd} (serves : s.blk.chanServes ch = true) (chosen : (s.blk.atCycle ch).choose ch = some c)
    (inside : c.acc.gran < granules) (awake : (s.blk.chan ch).resume = false) (queue : (s.blk.chan ch).replayQ = c :: rest)
    (k : c.kind ≠ .resume) :
    Does (.commandIssue ch dmg fc pe) s [.qy, .chs, .reg Off.chAlarm, .chan ch, .count (dcOff Off.dcActLo ch)] fun b =>
      (b.chan ch).replayQ = rest := by
  have sent : s.issued ch c dmg fc pe = (s.mem, ((s.blk.atCycle ch).noted ch c).sentAgain ch c) :=
    runCmd_again _ _ _ _ _ _ (by simp [queue]) (by simp [awake])
  refine does_commandIssue (ps := [.chan ch, .count (dcOff Off.dcActLo ch), .qy]) serves chosen inside (Within.of_subset (by simp))
    (by rw [sent]) ?_ (Within.of_subset (by simp)) ?_
  · rw [sent]
    exact Kept.step (Block.sentAgain_kept ..) (Within.of_subset (by simp)) ((Block.noted_kept ..).mono (Within.of_subset (by simp)))
  · have same := (((s.blk.atCycle ch).noted ch c).sentAgain_kept ch c).out (.chan ch) (by simp [Piece.among])
    rw [sent]
    calc ((((s.blk.atCycle ch).noted ch c).sentAgain ch c).chan ch).replayQ = (((s.blk.atCycle ch).noted ch c).chan ch).replayQ := congrArg _ same
      _ = rest := by simp [Chan.noteCmd, k, queue]

end
end Sys2Proof.Machine
end

section
/-! SUPPORT. The stored forms have 72 symbols, and a granule reads back as it was written (R284, R286, R302). -/

namespace Sys2Proof.Machine

open Sys2Proof

/-! ### Lengths -/

@[simp] theorem xorBytes_length (xs ys : List Byte) : (xorBytes xs ys).length = min xs.length ys.length := List.length_zipWith

@[simp] theorem shiftRows_length (s : List Byte) : (shiftRows s).length = 16 := by rw [shiftRows, List.length_map, List.length_range]

/-- The word that the key schedule adds to the one eight before. -/
def scheduleWord (prev : List Byte) (i : Nat) (rc : Byte) : List Byte :=
  if i % 8 = 0 then xorBytes ((prev.drop 1 ++ prev.take 1).map subByte) [rc, 0, 0, 0] else if i % 8 = 4 then prev.map subByte else prev

theorem scheduleWord_length {prev : List Byte} (i : Nat) (rc : Byte) (h : prev.length = 4) : (scheduleWord prev i rc).length = 4 := by
  unfold scheduleWord
  split
  · simp [h]
  · split <;> simp [h]

theorem expandFrom_succ (ws : List (List Byte)) (i : Nat) (rc : Byte) (n : Nat) :
    expandFrom ws i rc (n + 1) =
      expandFrom (xorBytes (ws.getD 7 []) (scheduleWord (ws.headD []) i rc) :: ws) (i + 1) (if i % 8 = 0 then xtime aesPoly rc else rc) n := rfl

/-- Every word of a key schedule has 4 bytes. -/
theorem expandFrom_words {ws : List (List Byte)} (i : Nat) (rc : Byte) (n : Nat) (words : ∀ w ∈ ws, w.length = 4) (eight : 8 ≤ ws.length) :
    (∀ w ∈ expandFrom ws i rc n, w.length = 4) ∧ (expandFrom ws i rc n).length = ws.length + n := by
  induction n generalizing ws i rc with
  | zero => exact ⟨words, rfl⟩
  | succ n ih =>
    have old : (ws.getD 7 []).length = 4 := by
      rw [List.getD_eq_getElem _ _ (by omega)]
      exact words _ (List.getElem_mem _)
    have prev : (ws.headD []).length = 4 := by
      cases ws with
      | nil => simp at eight
      | cons w ws => exact words w List.mem_cons_self
    have next : ∀ w ∈ xorBytes (ws.getD 7 []) (scheduleWord (ws.headD []) i rc) :: ws, w.length = 4 := fun w hw => by
      obtain rfl | hw := List.mem_cons.mp hw
      · rw [xorBytes_length, old, scheduleWord_length i rc prev, Nat.min_self]
      · exact words w hw
    rw [expandFrom_succ]
    obtain ⟨all, len⟩ := ih (i + 1) (if i % 8 = 0 then xtime aesPoly rc else rc) next (by simp only [List.length_cons]; omega)
    exact ⟨all, len.trans (by simp only [List.length_cons]; omega)⟩

theorem flatten_length {ws : List (List Byte)} {n : Nat} (words : ∀ w ∈ ws, w.length = n) : ws.flatten.length = n * ws.length := by
  rw [List.length_flatten, List.map_congr_left words, List.map_const', List.sum_replicate, Nat.mul_comm, smul_eq_mul, Nat.mul_comm]

/-- The last round key of a 32-byte key has 16 bytes. -/
theorem roundKeys_last {key : List Byte} (h : key.length = 32) : ((roundKeys key).getD 14 []).length = 16 := by
  have first : ∀ w ∈ (List.range 8).reverse.map fun i => (key.drop (4 * i)).take 4, w.length = 4 := fun w hw => by
    obtain ⟨i, hi, rfl⟩ := List.mem_map.mp hw
    have : i < 8 := List.mem_range.mp (List.mem_reverse.mp hi)
    rw [List.length_take, List.length_drop, h]; omega
  obtain ⟨words, len⟩ := expandFrom_words 8 1 52 first (by simp)
  have last : (roundKeys key).getD 14 [] = (((expandFrom ((List.range 8).reverse.map fun i => (key.drop (4 * i)).take 4) 8 1 52).reverse.drop 56).take 4).flatten := by
    rw [roundKeys, List.getD_eq_getElem _ _ (by simp), List.getElem_map, List.getElem_range]
  rw [last, flatten_length fun w hw => words w (List.mem_reverse.mp (List.mem_of_mem_drop (List.mem_of_mem_take hw))), List.length_take,
    List.length_drop, List.length_reverse, len]
  simp

theorem aesEnc_length {key : List Byte} (h : key.length = 32) (s : List Byte) : (aesEnc (roundKeys key) s).length = 16 := by
  rw [aesEnc, xorBytes_length, shiftRows_length, roundKeys_last h, Nat.min_self]

theorem tweakNext_length (t : List Byte) : (tweakNext t).length = 16 := leBytes_length ..

theorem xtsBlocks_length {f : List Byte → List Byte} (block : ∀ s, (f s).length = 16) {t : List Byte} (ht : t.length = 16) (bs : List Byte)
    (n : Nat) : (xtsBlocks f t bs n).length = 16 * n := by
  induction n generalizing t bs with
  | zero => rfl
  | succ n ih => rw [xtsBlocks, List.length_append, xorBytes_length, block, ht, ih (tweakNext_length t)]; omega

theorem xtsEnc_length (k : BitVec 512) (gran : Nat) (bs : List Byte) : (xtsEnc k gran bs).length = 64 :=
  xtsBlocks_length (aesEnc_length (leBytes_length _ _)) (aesEnc_length (leBytes_length _ _) _) bs 4

theorem timesRoot_length (j : Nat) (p : List Byte) : (timesRoot j p).length = p.length + 1 := by simp [timesRoot]

theorem rsGen_length : rsGen.length = 8 := by simp [rsGen, List.range_succ, timesRoot_length]

theorem rsCheck_length (data : List Byte) : (rsCheck data).length = 8 := by
  unfold rsCheck
  refine List.foldlRecOn (motive := fun r : List Byte => r.length = 8) data _ (by simp) fun r hr d _ => ?_
  simp [hr, rsGen_length]

theorem ordinaryForm_length (key : BitVec 512) (gran : Nat) (g : Granule) : (ordinaryForm key gran g).length = 72 := by
  rw [ordinaryForm, List.length_append, xtsEnc_length, rsCheck_length]

theorem poisonForm_length : poisonForm.length = 72 := rfl

theorem zeroForm_length : zeroForm.length = 72 := rfl

theorem Staged.form_length (w : Staged) : w.form.length = 72 := by
  unfold Staged.form
  split
  · exact poisonForm_length
  · exact ordinaryForm_length ..

/-! ### A granule read after its write -/

theorem Memory.readN_eq_map (m : List Host.Cell) (a n : Nat) : Memory.readN m a n = (List.range' a n).map (Memory.read m) := by
  induction n generalizing a with
  | zero => rfl
  | succ n ih => rw [Memory.readN, ih, List.range'_succ, List.map_cons]

theorem Memory.readN_writeN (m : List Host.Cell) (a : Nat) (vs : List Byte) : Memory.readN (Memory.writeN m a vs) a vs.length = vs := by
  rw [Memory.readN_eq_map]
  refine List.ext_getElem (by simp) fun i _ hi => ?_
  rw [List.getElem_map, List.getElem_range', Memory.read_writeN, if_pos (by omega), Nat.one_mul, Nat.add_sub_cancel_left,
    List.getD_eq_getElem _ _ hi]

theorem Memory.readGranule_writeGranule (m : List Host.Cell) (g : Nat) {f : List Byte} (h : f.length = 72) :
    Memory.readGranule (Memory.writeGranule m g f) g = f := by
  have whole : f.take symsPerGranule = f := List.take_of_length_le (Nat.le_of_eq h)
  rw [Memory.readGranule, Memory.writeGranule, whole]
  exact (congrArg _ h).symm.trans (Memory.readN_writeN m (g * symsPerGranule) f)

/-! ### What a scrub may change -/

theorem Memory.read_damageCells_other (m : List Host.Cell) (g : Nat) (syms : List Byte) (dmg : List Damage) (a : Nat)
    (h : a / symsPerGranule ≠ g) : Memory.read (damageCells m [(g, syms)] dmg) a = Memory.read m a := by
  unfold damageCells
  refine List.foldlRecOn (motive := fun k => Memory.read k a = Memory.read m a) dmg _ rfl fun k hk d _ => ?_
  split
  · next hit =>
    obtain ⟨_, low, here⟩ := hit
    have same : g = d.granule := by
      simp only [List.any_cons, List.any_nil, Bool.or_false, Bool.and_eq_true, beq_iff_eq] at here
      exact here.1
    rw [Memory.read_write, if_neg, hk]
    rintro rfl
    rw [← same] at h
    simp only [symsPerGranule] at h
    omega
  · exact hk

theorem Memory.read_touched {m m2 : List Host.Cell} {g : Nat} (h : Memory.touched m m2 g) {a : Nat} (other : ¬ a / symsPerGranule = g) :
    Memory.read m2 a = Memory.read m a := by
  obtain rfl | ⟨es, rfl⟩ | ⟨f, rfl⟩ | ⟨es, f, rfl⟩ := h
  · rfl
  · exact Memory.read_damageCells_other _ _ _ _ _ other
  · exact Memory.read_writeGranule_other _ _ _ _ other
  · rw [Memory.read_writeGranule_other _ _ _ _ other, Memory.read_damageCells_other _ _ _ _ _ other]

end Sys2Proof.Machine
end

section
/-! SUPPORT. A request after a change of one of its parts, and what a read sees of a granule, which the scheduler's own work in a
cycle leaves as it is (R201, R220, R233). -/

namespace Sys2Proof.Machine

open Sys2Proof

/-! ### Requests -/

theorem Block.req_congr {b c : Block} (h : c.qy = b.qy) (id : Nat) : c.req id = b.req id := by rw [Block.req, Block.req, h]

/-- The request that a change speaks of, after it. -/
theorem Block.req_modReq (b : Block) (id : Nat) {f : Req → Req} (keeps : ∀ r, (f r).id = r.id) : (b.modReq id f).req id = (b.req id).map f := by
  unfold Block.req Block.modReq
  dsimp only
  induction b.qy.reqs with
  | nil => rfl
  | cons r rs ih =>
    rw [List.map_cons]
    by_cases h : r.id = id
    · rw [if_pos h, List.find?_cons_of_pos (by simp [keeps, h]), List.find?_cons_of_pos (by simp [h]), Option.map_some]
    · rw [if_neg h, List.find?_cons_of_neg (by simp [h]), List.find?_cons_of_neg (by simp [h]), ih]

/-- Part `i` of request `id`. -/
def Block.part (b : Block) (id i : Nat) : Option Part := (b.req id).bind (·.parts[i]?)

theorem Block.part_congr {b c : Block} (h : c.qy = b.qy) (id i : Nat) : c.part id i = b.part id i := by
  rw [Block.part, Block.req_congr h, Block.part]

theorem Block.part_of_req {b : Block} {id i : Nat} {r : Req} (h : b.req id = some r) : b.part id i = r.parts[i]? := by rw [Block.part, h]; rfl

theorem Block.part_modPart {b : Block} {id i : Nat} {r : Req} {p : Part} (req : b.req id = some r) (part : r.parts[i]? = some p)
    (f : Req → Part → Part) : (b.modReq id fun r => r.modPart i (f r)).part id i = some (f r p) := by
  rw [Block.part, Block.req_modReq b id (f := fun r => r.modPart i (f r)) fun _ => rfl, req]
  simp [Req.modPart, part]

/-! ### What a read sees -/

theorem findSome?_modify {α β : Type} {g : α → Option β} {f : α → α} (same : ∀ x, g (f x) = g x) (xs : List α) (i : Nat) :
    (xs.modify i f).findSome? g = xs.findSome? g := by
  induction xs generalizing i with
  | nil => simp
  | cons x xs ih =>
    cases i with
    | zero => rw [List.modify_zero_cons, List.findSome?_cons, List.findSome?_cons, same]
    | succ i => rw [List.modify_succ_cons, List.findSome?_cons, List.findSome?_cons, ih]

theorem Block.seen_congr {b c : Block} (h : c.qy.reqs = b.qy.reqs) (m : List Host.Cell) (g : Nat) : c.seen m g = b.seen m g := by
  rw [Block.seen, h]; rfl

/-- A change of a part that leaves its staging leaves what a read sees. -/
theorem Block.seen_modPart (b : Block) (id i : Nat) {f : Part → Part} (same : ∀ p, (f p).toWrite = p.toWrite ∧ (f p).writes = p.writes)
    (m : List Host.Cell) (g : Nat) : (b.modReq id fun r => r.modPart i f).seen m g = b.seen m g := by
  unfold Block.seen Block.modReq
  dsimp only
  rw [List.filterMap_map]
  congr 2
  funext q
  rw [Function.comp_apply]
  by_cases h : q.id = id
  · rw [if_pos h]
    simp only [Req.modPart]
    rw [findSome?_modify fun p => by rw [(same p).1, (same p).2]]
  · rw [if_neg h]

theorem Block.seen_grantGroup (b : Block) (n : Nat) (inB : Bool) (m : List Host.Cell) (g : Nat) : (b.grantGroup n inB).seen m g = b.seen m g := by
  unfold Block.grantGroup
  refine List.foldlRecOn (motive := fun acc : Block × Bool => acc.1.seen m g = b.seen m g) _ _ rfl fun acc h e _ => ?_
  dsimp only
  split_ifs
  · exact h
  · refine Eq.trans ?_ h
    exact Block.seen_modPart acc.1 e.1 e.2.1 (f := fun p => { p with granted := true }) (fun _ => ⟨rfl, rfl⟩) m g
  · exact h

theorem Block.seen_demoteRowless (b : Block) (n : Nat) (m : List Host.Cell) (g : Nat) : (b.demoteRowless n).seen m g = b.seen m g := by
  unfold Block.demoteRowless
  refine List.foldlRecOn (motive := fun c : Block => c.seen m g = b.seen m g) _ _ rfl fun c h r _ => ?_
  split
  · exact h
  · split
    · exact h
    · refine List.foldlRecOn (motive := fun c : Block => c.seen m g = b.seen m g) _ _ h fun d hd i _ => ?_
      split
      · exact hd
      · dsimp only
        split
        · refine Eq.trans ?_ hd
          exact (Block.seen_congr rfl m g).trans
            (Block.seen_modPart d r.id i (f := fun p => { p with level := 5 }) (fun _ => ⟨rfl, rfl⟩) m g)
        · exact hd

theorem Block.seen_atCycle (b : Block) (n : Nat) (m : List Host.Cell) (g : Nat) : (b.atCycle n).seen m g = b.seen m g := by
  rw [Block.atCycle, Block.seen_demoteRowless, Block.grantStaging, Block.seen_grantGroup, Block.seen_grantGroup]

/-- The pier's own granules lie in its receipt slots, its error records, the notes of its own granules and the dump area. -/
theorem Block.ownForm_congr {b c : Block} (slots : c.mf.slots = b.mf.slots) (prot : c.prot = b.prot) (keys : c.keys = b.keys)
    (dump : c.tl.dump = b.tl.dump) (g : Nat) : c.ownForm g = b.ownForm g := by
  have slot : ∀ k, c.slot k = b.slot k := fun k => by rw [Block.slot, slots, Block.slot]
  have syms : c.ownSyms g = b.ownSyms g := by rw [Block.ownSyms, Block.ownSyms, slot, prot]
  have granule : c.reserveGranule g = b.reserveGranule g := by
    have rec_ : c.recAt = b.recAt := funext fun i => by rw [Block.recAt, Block.recAt, prot]
    rw [Block.reserveGranule, Block.reserveGranule, slot, rec_, dump]
  have clean : c.ownClean g = b.ownClean g := by
    rw [Block.ownClean, Block.ownClean, granule, keys, Block.ownWritten, Block.ownWritten, slot, prot]
  rw [Block.ownForm, Block.ownForm, syms, clean]

theorem Block.addCount_dump (b : Block) (blk i n : Nat) : (b.addCount blk i n).tl.dump = b.tl.dump := by
  unfold Block.addCount
  dsimp only
  split <;> rfl

theorem Block.tally_dump (b : Block) (blk ev : Nat) (fs : List Nat) (n : Nat) : (b.tally blk ev fs n).tl.dump = b.tl.dump := by
  unfold Block.tally
  split
  · rfl
  · refine List.foldlRecOn (motive := fun c : Block => c.tl.dump = b.tl.dump) _ _ rfl fun c h i _ => ?_
    dsimp only
    split
    · exact (Block.addCount_dump ..).trans h
    · exact h

end Sys2Proof.Machine
end

section
/-! SUPPORT. The column commands of a channel that is not replaying: a part's RD and WR, the fill's write, a scrub's read. -/

namespace Sys2Proof.Machine

open Sys2Proof

/-! ### The counts of a column command -/

/-- The counter of granules that a column command of an access advances. -/
def Access.granules (a : Access) (n : Nat) : Nat := btOff (if a.wr then Off.btWrGranLo else Off.btRdGranLo) n

section
variable (b : Block) (n : Nat) (a : Access) (hit : Bool)

/-- The counters that a column command advances, beside the tallies. -/
theorem Block.countCol_counts :
    Kept [.count (dcOff Off.dcHitLo n), .count (a.granules n), .reg (tlOff Off.tlOvf n), .tl] b (b.countCol n a hit) := by
  unfold Block.countCol
  refine Block.portBytes_keeps (Within.of_subset (by simp)) (Block.tally_keeps (Within.of_subset (by simp))
    (Block.bump_keeps (Within.of_subset (by simp [Access.granules])) ?_))
  split
  · exact Block.tally_keeps (Within.of_subset (by simp)) ((Block.bump_kept ..).mono (Within.of_subset (by simp)))
  · exact Kept.refl ..

theorem Block.countCol_dump : (b.countCol n a hit).tl.dump = b.tl.dump := by
  unfold Block.countCol
  dsimp only
  refine (Block.tally_dump ..).trans ?_
  split
  · exact Block.tally_dump ..
  · rfl

/-- A column command noted and counted, before what it does to its granule. -/
def Block.column (b : Block) (n : Nat) (c : Cmd) : Block := (b.noted n c).countCol n c.acc ((b.chan n).bank c.acc.bank).used

variable (c : Cmd)

theorem Block.column_kept :
    Kept [.chan n, .count (dcOff Off.dcHitLo n), .count (c.acc.granules n), .reg (tlOff Off.tlOvf n), .tl] b (b.column n c) :=
  Kept.step (Block.countCol_counts ..) (Within.of_subset (by simp)) ((b.noted_kept n c).mono (Within.of_subset (by simp)))

theorem Block.column_qy : (b.column n c).qy = b.qy := (b.column_kept n c).qyEq (by simp [Piece.among]) (by simp [Piece.among])

theorem Block.column_chan : (b.column n c).chan n = (b.chan n).noteCmd b.ck.tide c :=
  ((Block.countCol_counts ..).out (.chan n) (by simp [Piece.among])).trans (b.noted_chan n c)

theorem Block.column_prot : (b.column n c).prot = b.prot := (b.column_kept n c).out .prot (by simp [Piece.among])

theorem Block.column_ownForm (g : Nat) : (b.column n c).ownForm g = b.ownForm g :=
  Block.ownForm_congr ((b.column_kept n c).out .slots (by simp [Piece.among])) (b.column_prot n c)
    ((b.column_kept n c).out .keys (by simp [Piece.among])) (Block.countCol_dump ..) g

theorem Block.atCycle_ownForm (g : Nat) : (b.atCycle n).ownForm g = b.ownForm g :=
  Block.ownForm_congr ((b.atCycle_kept n).out .slots (by simp [Piece.among])) (b.atCycle_prot n)
    ((b.atCycle_kept n).out .keys (by simp [Piece.among]))
    (congrArg Tallies.dump ((b.atCycle_kept n).out .tl (by simp [Piece.among]))) g

theorem runCmd_col (m : List Host.Cell) (dmg : List Damage) (fc : Option (Fin 13)) (pe : Bool) (fresh : (b.chan n).replayQ = []) (k : c.kind = .col) :
    runCmd m b n c dmg fc pe = runCol m (b.column n c) n c.acc dmg pe := by
  rw [runCmd_carried _ _ _ _ _ _ fresh, Block.carried, k]; rfl

end

/-! ### A part's RD -/

section
variable {m : List Host.Cell} {b : Block} {n id i : Nat} {a : Access} {r : Req} {p : Part} {w : Staged} {dmg : List Damage} {pe : Bool}

/-- The symbols that a RD of a part takes. -/
def Block.symsAt (b : Block) (m : List Host.Cell) (g : Nat) : List Byte := if ownGranule g then b.ownForm g else b.seen m g

theorem runCol_rd (src : a.src = .part id i) (rd : a.wr = false) :
    runCol m b n a dmg pe =
      (m, (b.modReq id fun r => r.modPart i (readPart r.op b.qy.commits a.gran (b.symsAt m a.gran))).markRead a.gran) := by
  simp only [runCol, src, rd, Bool.false_eq_true, if_false, Block.symsAt]

theorem runCol_rd_part (src : a.src = .part id i) (rd : a.wr = false) (req : b.req id = some r) (part : r.parts[i]? = some p) :
    (runCol m b n a dmg pe).2.part id i = some (readPart r.op b.qy.commits a.gran (b.symsAt m a.gran) p) := by
  rw [runCol_rd src rd]
  exact (Block.part_congr ((Block.markRead_kept ..).qyEq (by simp [Piece.among]) (by simp [Piece.among])) id i).trans
    (Block.part_modPart (b := b) req part fun r => readPart r.op b.qy.commits a.gran (b.symsAt m a.gran))

theorem runCol_rd_kept (src : a.src = .part id i) (rd : a.wr = false) :
    Kept [.qy, .slot (slotOf a.gran)] b (runCol m b n a dmg pe).2 := by
  rw [runCol_rd src rd]
  exact Block.markRead_keeps (Within.of_subset (by simp)) ((Block.modReq_kept ..).mono (Within.of_subset (by simp)))

end

section
variable {s : State} {ch : ChId} {dmg : List Damage} {fc : Option (Fin 13)} {pe : Bool} {c : Cmd} {id i : Nat} {r : Req} {p : Part}

theorem State.issued_col (k : c.kind = .col) (fresh : (s.blk.chan ch).replayQ = []) :
    s.issued ch c dmg fc pe = runCol s.mem ((s.blk.atCycle ch).column ch c) ch c.acc dmg pe :=
  runCmd_col _ _ _ _ _ _ _ (by rw [Block.atCycle_chan, fresh]) k

theorem Block.atCycle_symsAt (b : Block) (n : Nat) (c : Cmd) (m : List Host.Cell) (g : Nat) :
    ((b.atCycle n).column n c).symsAt m g = b.symsAt m g := by
  rw [Block.symsAt, Block.symsAt, Block.column_ownForm, Block.atCycle_ownForm, Block.seen_congr (congrArg Quay.reqs (Block.column_qy ..)),
    Block.seen_atCycle]

theorem commandIssue_rd (serves : s.blk.chanServes ch = true) (chosen : (s.blk.atCycle ch).choose ch = some c) (inside : c.acc.gran < granules)
    (k : c.kind = .col) (fresh : (s.blk.chan ch).replayQ = []) (src : c.acc.src = .part id i) (rd : c.acc.wr = false)
    (req : (s.blk.atCycle ch).req id = some r) (part : r.parts[i]? = some p) :
    Does (.commandIssue ch dmg fc pe) s [.qy, .chs, .reg Off.chAlarm, .chan ch, .count (dcOff Off.dcHitLo ch), .count (btOff Off.btRdGranLo ch), .slots, .tl, .reg (tlOff Off.tlOvf ch)] fun b =>
      ((b.req id).bind (·.parts[i]?)).map (fun q => (q.got, q.toIssue))
        = some (p.got ++ [(c.acc.gran, if ownGranule c.acc.gran then s.blk.ownForm c.acc.gran else s.blk.seen s.mem c.acc.gran)],
            p.toIssue.filter (· != c.acc.gran)) := by
  have run := State.issued_col (dmg := dmg) (fc := fc) (pe := pe) k fresh
  refine does_commandIssue (ps := [.chan ch, .count (dcOff Off.dcHitLo ch), .count (btOff Off.btRdGranLo ch), .reg (tlOff Off.tlOvf ch), .tl, .qy, .slots])
    serves chosen inside (Within.of_subset (by simp)) ?_ ?_ (Within.of_subset (by simp)) ?_
  · rw [run, runCol_rd src rd]
  · rw [run]
    exact Kept.step (runCol_rd_kept src rd) (by simp [Within, Piece.inside])
      ((Block.column_kept ..).mono (Within.of_subset (by simp [Access.granules, rd])))
  · rw [run]
    have taken := runCol_rd_part (m := s.mem) (n := ch) (dmg := dmg) (pe := pe) src rd
      ((Block.req_congr (Block.column_qy (s.blk.atCycle ch) ch c) id).trans req) part
    exact (congrArg _ taken).trans (by rw [Block.atCycle_symsAt]; rfl)

end
end Sys2Proof.Machine
end

section
/-! SUPPORT. A part's WR and the fill's write: the granule stored, and what the block notes. -/

namespace Sys2Proof.Machine

open Sys2Proof

/-! ### A part's WR -/

section
variable {m : List Host.Cell} {b : Block} {n id i : Nat} {a : Access} {r : Req} {p : Part} {w : Staged} {dmg : List Damage} {pe : Bool}

/-- A WR noted in the berth's tables, with the parity error that its staging may show. -/
def Block.storing (b : Block) (n id i : Nat) (a : Access) (w : Staged) (pe : Bool) : Block :=
  let b := b.noteStore n a.gran (w.poison || pe)
  if pe then b.spoil n id i a.gran else b

theorem runCol_wr (src : a.src = .part id i) (wr : a.wr = true) (req : b.req id = some r) (part : r.parts[i]? = some p)
    (staged : (p.writes.find? fun w => w.gran == a.gran) = some w) :
    runCol m b n a dmg pe =
      (Memory.writeGranule m a.gran { w with poison := w.poison || pe }.form,
        (b.storing n id i a w pe).modReq id fun r =>
          r.modPart i (writePart a.gran (b.storing n id i a w pe).ck.tide ((b.storing n id i a w pe).flightTicks n))) := by
  simp only [runCol, src, wr, if_true, req, Option.bind_some, part, staged, Block.storing]

theorem Block.storing_kept (b : Block) (n id i : Nat) (a : Access) (w : Staged) (pe : Bool) :
    Kept [.berth n, .count Off.prPoisonWrLo, .events, .qy, .reg (btOff Off.btAlarm n), .reg Off.lgAlarm] b (b.storing n id i a w pe) := by
  unfold Block.storing
  have noted : Kept [.berth n, .count Off.prPoisonWrLo, .events, .qy, .reg (btOff Off.btAlarm n), .reg Off.lgAlarm] b
      (b.noteStore n a.gran (w.poison || pe)) := (Block.noteStore_kept ..).mono (Within.of_subset (by simp))
  dsimp only
  split
  · exact Block.spoil_keeps (Within.of_subset (by simp)) noted
  · exact noted

/-- What a parity error leaves of a part: the granule failed, its data poison (R235). -/
def spoilPart (g : Nat) (p : Part) : Part :=
  { p with
    bad := g :: p.bad
    writes := p.writes.map fun (w : Staged) => if w.gran = g then { w with poison := true } else w }

theorem Block.spoil_part (req : b.req id = some r) (part : r.parts[i]? = some p) (g : Nat) :
    (b.spoil n id i g).req id = some (r.modPart i (spoilPart g)) ∧ (r.modPart i (spoilPart g)).parts[i]? = some (spoilPart g p) := by
  have same : ((b.orReg (btOff Off.btAlarm n) 2).event .berthIntErr n).qy = b.qy :=
    (Block.event_kept ..).qyEq (by simp [Piece.among]) (by simp [Piece.among])
  constructor
  · exact (Block.req_modReq _ id (f := fun r => r.modPart i (spoilPart g)) fun _ => rfl).trans
      (congrArg _ ((Block.req_congr same id).trans req))
  · simp [Req.modPart, part]

theorem Block.storing_part (req : b.req id = some r) (part : r.parts[i]? = some p) (w : Staged) :
    ∃ r' p', (b.storing n id i a w pe).req id = some r' ∧ r'.parts[i]? = some p' ∧ p'.toWrite = p.toWrite
      ∧ p'.bad = if pe then a.gran :: p.bad else p.bad := by
  have noted : (b.noteStore n a.gran (w.poison || pe)).req id = some r :=
    (Block.req_congr ((Block.noteStore_kept ..).qyEq (by simp [Piece.among]) (by simp [Piece.among])) id).trans req
  cases pe with
  | false => exact ⟨r, p, noted, part, rfl, rfl⟩
  | true =>
    obtain ⟨spoilt, at_⟩ := Block.spoil_part (n := n) noted part a.gran
    exact ⟨_, _, spoilt, at_, rfl, rfl⟩

theorem Block.spoil_alarm (b : Block) {n : Nat} (low : n < 64) (id i g : Nat) : (b.spoil n id i g).regBit (btOff Off.btAlarm n) 1 = true := by
  have apart : ¬ btOff Off.btAlarm n = Off.lgAlarm := by simp only [btOff, Off.btAlarm, Off.lgAlarm]; omega
  have same : (b.spoil n id i g).reg (btOff Off.btAlarm n) = (b.orReg (btOff Off.btAlarm n) 2).reg (btOff Off.btAlarm n) :=
    ((Block.modReq_kept ..).out (.reg _) (by simp [Piece.among])).trans
      ((Block.event_kept ..).out (.reg _) (by simp [Piece.among, apart]))
  rw [Block.regBit, same]
  simp [Block.orReg]

theorem runCol_wr_part (src : a.src = .part id i) (wr : a.wr = true) (req : b.req id = some r) (part : r.parts[i]? = some p)
    (staged : (p.writes.find? fun w => w.gran == a.gran) = some w) :
    ((runCol m b n a dmg pe).2.part id i).map (fun q => (q.toWrite, q.bad))
      = some (p.toWrite.filter (· != a.gran), if pe then a.gran :: p.bad else p.bad) := by
  obtain ⟨r', p', req', part', toWrite, bad⟩ := Block.storing_part (n := n) (a := a) (pe := pe) req part w
  have wrote := Block.part_modPart req' part' fun _ =>
    writePart a.gran (b.storing n id i a w pe).ck.tide ((b.storing n id i a w pe).flightTicks n)
  rw [runCol_wr src wr req part staged, wrote]
  simp only [Option.map_some, writePart, toWrite, bad]

end

section
variable {s : State} {ch : ChId} {dmg : List Damage} {fc : Option (Fin 13)} {pe : Bool} {c : Cmd} {id i : Nat} {r : Req} {p : Part} {w : Staged}

theorem commandIssue_wr (serves : s.blk.chanServes ch = true) (chosen : (s.blk.atCycle ch).choose ch = some c) (inside : c.acc.gran < granules)
    (k : c.kind = .col) (fresh : (s.blk.chan ch).replayQ = []) (src : c.acc.src = .part id i) (wr : c.acc.wr = true)
    (req : (s.blk.atCycle ch).req id = some r) (part : r.parts[i]? = some p) (staged : (p.writes.find? fun w => w.gran == c.acc.gran) = some w) :
    DoesOn (.commandIssue ch dmg fc pe) s [.qy, .chs, .reg Off.chAlarm, .chan ch, .berth ch, .count (dcOff Off.dcHitLo ch), .count (btOff Off.btWrGranLo ch), .count Off.prPoisonWrLo, .events, .tl, .reg (tlOff Off.tlOvf ch), .reg (btOff Off.btAlarm ch), .reg Off.lgAlarm]
      (fun a => a / symsPerGranule = c.acc.gran) fun t =>
      Memory.readGranule t.mem c.acc.gran = { w with poison := w.poison || pe }.form ∧ (pe = true → t.blk.regBit (btOff Off.btAlarm ch) 1 = true)
        ∧ ((t.blk.req id).bind (·.parts[i]?)).map (fun q => (q.toWrite, q.bad)) =
            some (p.toWrite.filter (· != c.acc.gran), if pe then c.acc.gran :: p.bad else p.bad) := by
  have run := State.issued_col (dmg := dmg) (fc := fc) (pe := pe) k fresh
  have req' := (Block.req_congr (Block.column_qy (s.blk.atCycle ch) ch c) id).trans req
  have wrote := runCol_wr (m := s.mem) (n := ch) (dmg := dmg) (pe := pe) src wr req' part staged
  refine doesOn_commandIssue (ps := [.chan ch, .count (dcOff Off.dcHitLo ch), .count (btOff Off.btWrGranLo ch), .reg (tlOff Off.tlOvf ch), .tl,
      .berth ch, .count Off.prPoisonWrLo, .events, .qy, .reg (btOff Off.btAlarm ch), .reg Off.lgAlarm])
    serves chosen inside (Within.of_subset (by simp)) (fun x other => Memory.read_touched (runCmd_touched ..) other) ?_ (Within.of_subset (by simp)) ?_
  · rw [run, wrote]
    exact Block.modReq_keeps (Within.of_subset (by simp)) (Kept.step (Block.storing_kept ..) (Within.of_subset (by simp))
      ((Block.column_kept ..).mono (Within.of_subset (by simp [Access.granules, wr]))))
  · refine ⟨?_, fun err => ?_, ?_⟩ <;> dsimp only <;> rw [run]
    · rw [wrote]
      exact Memory.readGranule_writeGranule _ _ (Staged.form_length _)
    · subst err
      rw [wrote, Block.regBit, (Block.modReq_kept ..).out (.reg _) (by simp [Piece.among])]
      exact Block.spoil_alarm _ ch.isLt ..
    · exact runCol_wr_part src wr req' part staged

/-! ### The fill's write -/

/-- The fill's notes of one granule, beside its store. -/
def Block.fills (b : Block) (n g : Nat) : Block :=
  let b := (b.modChan n fun x =>
      { x with fillNext := x.fillNext + 1, fillAt := b.ck.tide, fillMark := b.slotsGone x }).modBerth n fun x =>
    { x with fillGran := x.fillGran + 1 }
  ((b.noteBg n .fill 1).forget n g).filledOwn g

theorem runCol_fill {m : List Host.Cell} {b : Block} {n : Nat} {a : Access} (src : a.src = .fill) :
    runCol m b n a dmg pe = (Memory.writeGranule m a.gran zeroForm, b.fills n a.gran) := by simp only [runCol, src, Block.fills]

theorem Block.fills_kept (b : Block) (n g : Nat) : Kept [.berth n, .chan n, .prot, .slots] b (b.fills n g) := by
  unfold Block.fills
  exact Block.filledOwn_keeps (by simp [Within, Piece.inside]) (Block.forget_keeps (Within.of_subset (by simp))
    (Block.noteBg_keeps (Within.of_subset (by simp)) (Block.modBerth_keeps (Within.of_subset (by simp))
      ((Block.modChan_kept ..).mono (Within.of_subset (by simp))))))

theorem Block.fills_next (b : Block) (n g : Nat) : ((b.fills n g).chan n).fillNext = (b.chan n).fillNext + 1 := by
  unfold Block.fills
  dsimp only
  rw [(Block.filledOwn_kept ..).out (.chan n) (by simp [Piece.among]), (Block.forget_kept ..).out (.chan n) (by simp [Piece.among]),
    Block.noteBg, Block.chan_modChan, (Block.modBerth_kept ..).out (.chan n) (by simp [Piece.among]), Block.chan_modChan]

theorem commandIssue_fill (serves : s.blk.chanServes ch = true) (chosen : (s.blk.atCycle ch).choose ch = some c) (inside : c.acc.gran < granules)
    (k : c.kind = .col) (fresh : (s.blk.chan ch).replayQ = []) (src : c.acc.src = .fill) :
    DoesOn (.commandIssue ch dmg fc pe) s [.qy, .chs, .reg Off.chAlarm, .chan ch, .berth ch, .count (dcOff Off.dcHitLo ch), .count (btOff Off.btRdGranLo ch), .count (btOff Off.btWrGranLo ch), .prot, .slots, .tl, .reg (tlOff Off.tlOvf ch)]
      (fun a => a / symsPerGranule = c.acc.gran) fun t =>
      Memory.readGranule t.mem c.acc.gran = zeroForm ∧ (t.blk.chan ch).fillNext = (s.blk.chan ch).fillNext + 1 := by
  have run := State.issued_col (dmg := dmg) (fc := fc) (pe := pe) k fresh
  have counter : c.acc.granules ch = btOff Off.btRdGranLo ch ∨ c.acc.granules ch = btOff Off.btWrGranLo ch := by
    unfold Access.granules
    split
    · exact .inr rfl
    · exact .inl rfl
  refine doesOn_commandIssue (ps := [.chan ch, .count (dcOff Off.dcHitLo ch), .count (c.acc.granules ch), .reg (tlOff Off.tlOvf ch), .tl,
      .berth ch, .prot, .slots])
    serves chosen inside (Within.of_subset (by simp)) (fun x other => Memory.read_touched (runCmd_touched ..) other) ?_
    (Within.of_subset (by obtain e | e := counter <;> simp [e])) ?_
  · rw [run, runCol_fill src]
    exact Kept.step (Block.fills_kept ..) (Within.of_subset (by simp)) ((Block.column_kept ..).mono (Within.of_subset (by simp)))
  · rw [run, runCol_fill src]
    dsimp only
    refine ⟨Memory.readGranule_writeGranule _ _ zeroForm_length, (Block.fills_next ..).trans ?_⟩
    rw [Block.column_chan, Block.atCycle_chan, Chan.noteCmd, Chan.noteKind, k]
    rfl

end
end Sys2Proof.Machine
end

section
/-! SUPPORT. A scrub's read of one granule: its count goes on by one, and the channel to its next granule (R297). -/

namespace Sys2Proof.Machine

open Sys2Proof

theorem scrubStep_read (sc : Scrub) (g : Nat) (syms : List Byte) : (scrubStep sc g syms).2.read = sc.read + 1 := by
  unfold scrubStep
  dsimp only
  split <;> first
    | rfl
    | (split <;> rfl)

section
variable (b : Block)

theorem Block.setOwn_scrub (g : Nat) (syms : List Byte) : (b.setOwn g syms).prot.scrub = b.prot.scrub := by
  unfold Block.setOwn
  split <;> rfl

theorem Block.noteStore_scrub (n g : Nat) (poison : Bool) : (b.noteStore n g poison).prot.scrub = b.prot.scrub :=
  congrArg Prot.scrub ((Block.noteStore_kept ..).out .prot (by simp [Piece.among]))

theorem Block.wroteOwn_scrub (g : Nat) : (b.wroteOwn g).prot.scrub = b.prot.scrub := by
  have forgot : (b.forget (chanOf g) g).prot = b.prot := (Block.forget_kept ..).out .prot (by simp [Piece.among])
  change (b.forget (chanOf g) g).prot.scrub = _
  rw [forgot]

theorem Block.errRecord_scrub (r : ErrRec) : (b.errRecord r).prot.scrub = b.prot.scrub := by
  unfold Block.errRecord
  split
  · rfl
  · dsimp only
    exact b.wroteOwn_scrub _

/-- A scrub of one granule leaves the scrub's state as its step gives it. -/
theorem scrubOne_scrub (m : List Host.Cell) (sc : Scrub) (n g : Nat) (dmg : List Damage) :
    ((scrubOne m b sc n g dmg).2.prot.scrub.map (·.read)) = some (sc.read + 1) := by
  unfold scrubOne
  dsimp only
  split
  · rw [Option.map_some, scrubStep_read]
  · split
    · simp only [Block.scrubOwn, Block.setOwn_scrub]
      split <;> simp [Block.errRecord_scrub, Block.noteStore_scrub, scrubStep_read]
    · dsimp only
      split <;> simp [Block.errRecord_scrub, Block.noteStore_scrub, scrubStep_read]

end

section
variable {s : State} {ch : ChId} {dmg : List Damage} {fc : Option (Fin 13)} {pe : Bool} {c : Cmd} {sc : Scrub}

theorem runCol_scrub {m : List Host.Cell} {b : Block} {n : Nat} {a : Access} (src : a.src = .scrub) (scrubs : b.prot.scrub = some sc) :
    (runCol m b n a dmg pe).2 = (((scrubOne m b sc n a.gran dmg).2.modChan n fun x =>
      { x with scrubNext := nextOnChan n sc.last a.gran, scrubAt := (scrubOne m b sc n a.gran dmg).2.ck.tide
               scrubMark := (scrubOne m b sc n a.gran dmg).2.slotsGone x }).noteBg n .scrub 1) := by
  simp only [runCol, src, scrubs]

theorem commandIssue_scrub (serves : s.blk.chanServes ch = true) (chosen : (s.blk.atCycle ch).choose ch = some c) (inside : c.acc.gran < granules)
    (k : c.kind = .col) (fresh : (s.blk.chan ch).replayQ = []) (src : c.acc.src = .scrub) (scrubs : s.blk.prot.scrub = some sc) :
    DoesOn (.commandIssue ch dmg fc pe) s [.berths, .chans, .chs, .cnt, .col ch, .events, .fws, .ins, .lanes, .mf, .prot, .pw, .qy, .regs, .sides, .slots, .stk, .tl] (fun a => a / symsPerGranule = c.acc.gran) fun t =>
      (t.blk.chan ch).scrubNext = nextOnChan ch sc.last c.acc.gran ∧ (t.blk.prot.scrub.map (·.read)) = some (sc.read + 1) := by
  have run := State.issued_col (dmg := dmg) (fc := fc) (pe := pe) k fresh
  have scrubs' : ((s.blk.atCycle ch).column ch c).prot.scrub = some sc := by rw [Block.column_prot, Block.atCycle_prot, scrubs]
  refine doesOn_commandIssue serves chosen inside (Within.of rfl) (fun x other => Memory.read_touched (runCmd_touched ..) other)
    (runCmd_kept ..) Within.refl ⟨?_, ?_⟩ <;> dsimp only <;> rw [run, runCol_scrub src scrubs', Block.noteBg]
  · rw [Block.chan_modChan, Block.chan_modChan]
  · rw [Block.modChan_prot, Block.modChan_prot]
    exact scrubOne_scrub ..

end
end Sys2Proof.Machine
end

section
/-! SUPPORT. A REFab leaves its channel refreshed, with every row closed, whatever goes with it: remaps, a test of the command coils, and
the fence of a channel whose coils fail it (R248, R274, R275, R278). -/

namespace Sys2Proof.Machine

open Sys2Proof

/-! ### Closed rows -/

theorem closeRows_fold (ks : List Nat) (t : Tbl Bank) (k : Nat) (h : k ∈ ks ∨ (tget (fun _ => {}) t k).row = none) :
    (tget (fun _ => {}) (ks.foldl (fun (t : Tbl Bank) k =>
      tset (fun _ => {}) t k { tget (fun _ => {}) t k with row := none, used := false, hits := [] }) t) k).row = none := by
  induction ks generalizing t with
  | nil => exact h.resolve_left List.not_mem_nil
  | cons j ks ih =>
    rw [List.foldl_cons]
    refine ih _ ?_
    by_cases e : j = k
    · exact .inr (by rw [tget_tset, if_pos e])
    · rw [tget_tset, if_neg e]
      exact h.imp_left fun hk => (List.mem_cons.mp hk).resolve_left fun hk => e hk.symm

theorem Chan.openRows_congr {x y : Chan} (h : y.banks = x.banks) : y.openRows = x.openRows := by
  simp only [Chan.openRows, Chan.bank, h]

theorem Chan.closeRows_openRows (x : Chan) : x.closeRows.openRows = 0 := by
  simp only [Chan.openRows, Chan.bank, Chan.closeRows]
  generalize List.range 32 = ks
  refine List.countP_eq_zero.mpr fun k hk => ?_
  rw [closeRows_fold ks x.banks k (.inl hk)]
  exact Bool.false_ne_true

theorem Chan.quiet_openRows (x : Chan) : x.quiet.openRows = 0 := by
  rw [← x.closeRows_openRows]
  apply Chan.openRows_congr
  simp only [Chan.quiet]

/-! ### What a REFab leaves -/

/-- The channel has no open row, and its last REFab and the count of them are as given. -/
def Chan.refreshed (t : Option Tide) (k : Nat) (x : Chan) : Prop := x.openRows = 0 ∧ x.refab = t ∧ x.nRefab = k

/-- Channel `n` has no open row, and its last REFab and the count of them are as given. -/
def Block.refreshed (n : Nat) (t : Option Tide) (k : Nat) (b : Block) : Prop := (b.chan n).refreshed t k

section
variable {n : Nat} {t : Option Tide} {k : Nat} {b c : Block}

theorem Chan.refreshed_quiet {x : Chan} (h : x.refreshed t k) : x.quiet.refreshed t k := by
  obtain ⟨_, refab, count⟩ := h
  exact ⟨x.quiet_openRows, by simpa only [Chan.quiet, Chan.closeRows] using refab, by simpa only [Chan.quiet, Chan.closeRows] using count⟩

theorem Block.refreshed_kept {ps : List Piece} (h : b.refreshed n t k) (frame : Kept ps b c) (out : ¬ (Piece.chan n).among ps) : c.refreshed n t k := by
  have same : c.chan n = b.chan n := frame.out (.chan n) out
  rw [Block.refreshed, same]
  exact h

theorem Block.refreshed_modChan (h : b.refreshed n t k) (m : Nat) {f : Chan → Chan} (keeps : ∀ x : Chan, x.refreshed t k → (f x).refreshed t k) :
    (b.modChan m f).refreshed n t k := by
  have chan : (b.modChan m f).chan n = if m = n then f (b.chan m) else b.chan n := tget_tset ..
  rw [Block.refreshed, chan]
  split
  · next e => exact keeps _ (e ▸ h)
  · exact h

theorem Block.refreshed_foldl {α : Type} {f : Block → α → Block} (h : b.refreshed n t k) (xs : List α)
    (step : ∀ (c : Block) x, c.refreshed n t k → (f c x).refreshed n t k) : (xs.foldl f b).refreshed n t k :=
  List.foldlRecOn (motive := Block.refreshed n t k) xs f h fun c hc x _ => step c x hc

variable (h : b.refreshed n t k)
include h

theorem Block.refreshed_afterReq (r : Req) : (b.afterReq r).refreshed n t k := by
  unfold Block.afterReq
  refine Block.refreshed_kept ?_ (Block.wakeFences_kept _) (by simp [Piece.among])
  refine Block.refreshed_kept ?_ (Block.settle_kept _) (by simp [Piece.among])
  refine Block.refreshed_kept ?_ (Block.clearPanic_kept _) (by simp [Piece.among])
  refine Block.refreshed_foldl h _ fun c j hc => ?_
  refine Block.refreshed_kept ?_ (Block.grantStaging_kept _ _) (by simp [Piece.among])
  exact Block.refreshed_modChan hc j fun _ hx => hx

theorem Block.refreshed_endReq (r : Req) (level : Nat) (a : Answer) : (b.endReq r level a).refreshed n t k := by
  unfold Block.endReq
  refine Block.refreshed_afterReq ?_ r
  refine Block.refreshed_kept ?_ (Block.complete_kept _ _ _ _) (by simp [Piece.among])
  refine Block.refreshed_kept ?_ (Block.dropReq_kept _ _) (by simp [Piece.among])
  exact h

theorem Block.refreshed_emitCopy (r : Req) : (b.emitCopy r).refreshed n t k := by
  unfold Block.emitCopy
  refine Block.refreshed_afterReq ?_ r
  refine Block.refreshed_foldl ?_ _ fun c _ hc => Block.refreshed_kept hc (Block.sendRemote_kept ..) (by simp [Piece.among])
  have dropped : (b.dropReq r.id).refreshed n t k := Block.refreshed_kept h (Block.dropReq_kept ..) (by simp [Piece.among])
  exact dropped

theorem Block.refreshed_checkReq (id : Nat) : (b.checkReq id).refreshed n t k := by
  unfold Block.checkReq
  split
  · exact h
  · next r _ =>
    split_ifs
    · exact Block.refreshed_endReq (Block.refreshed_foldl h _ fun c _ hc => Block.refreshed_kept hc (Block.served_kept ..) (by simp [Piece.among])) ..
    · exact h
    · exact Block.refreshed_endReq h ..
    · exact Block.refreshed_endReq h ..
    · exact h
    · exact Block.refreshed_emitCopy h r
    · exact Block.refreshed_endReq h ..
    · exact h

theorem Block.refreshed_fenceReq (age m id : Nat) : (b.fenceReq age m id).refreshed n t k := by
  unfold Block.fenceReq
  split
  · exact h
  · split
    · dsimp only
      split
      · exact h
      · refine Block.refreshed_checkReq ?_ id
        refine Block.refreshed_kept ?_ (Block.modReq_kept _ _ _) (by simp [Piece.among])
        exact Block.refreshed_kept h (Block.modBerth_kept _ _ _) (by simp [Piece.among])
    · split
      · exact Block.refreshed_endReq h ..
      · exact h

theorem Block.refreshed_fenceReqs (age m : Nat) (ids : List Nat) : (b.each ids fun b id => b.fenceReq age m id).refreshed n t k :=
  Block.refreshed_foldl h ids fun _ id hc => Block.refreshed_fenceReq hc age m id

/-- A channel out of the scheduler's hands, with its requests fenced and its charters told. -/
theorem Block.refreshed_fenceServing (age m : Nat) (ids : List Nat) :
    ((((b.enterFenced m).modChan m Chan.quiet).each ids fun b id => b.fenceReq age m id).charterBerthLost m).refreshed n t k := by
  refine Block.refreshed_kept ?_ (Block.charterBerthLost_kept _ _) (by simp [Piece.among])
  refine Block.refreshed_fenceReqs ?_ age m ids
  refine Block.refreshed_modChan ?_ m fun _ hx => Chan.refreshed_quiet hx
  exact Block.refreshed_kept h (Block.enterFenced_kept _ m) (by simp [Piece.among])

theorem Block.refreshed_fenceChan (age m : Nat) : (b.fenceChan age m).refreshed n t k := by
  unfold Block.fenceChan
  have fenced : ({ b with stk.fence := b.stk.fence ||| chBit m } : Block).refreshed n t k := h
  dsimp only
  split
  case h_4 => exact Block.refreshed_fenceReqs fenced age m _
  case h_5 => exact Block.refreshed_kept fenced (Block.modBerth_kept _ _ _) (by simp [Piece.among])
  all_goals exact Block.refreshed_fenceServing fenced age m _

theorem Block.refreshed_fenceAll (age : Nat → Nat) (ns : List Nat) : (b.fenceAll age ns).refreshed n t k := by
  unfold Block.fenceAll
  refine Block.refreshed_kept ?_ (Block.checkOpen_kept _) (by simp [Piece.among])
  refine Block.refreshed_kept ?_ (Block.settle_kept _) (by simp [Piece.among])
  exact Block.refreshed_foldl h ns fun _ m hc => Block.refreshed_fenceChan hc (age m) m

theorem Block.refreshed_caTest (m : Nat) (faulty : Option (Fin 13)) : (b.caTest m faulty).refreshed n t k := by
  have undue : (b.modCol m fun x => { x with caTestDue := false }).refreshed n t k :=
    Block.refreshed_kept h (Block.modCol_kept _ _ _) (by simp [Piece.among])
  unfold Block.caTest
  dsimp only
  split
  · exact h
  · split
    · refine Block.refreshed_kept ?_ (Block.orReg_kept _ _ _) (by simp [Piece.among])
      exact Block.refreshed_kept undue (Block.modCol_kept _ _ _) (by simp [Piece.among])
    · refine Block.refreshed_fenceAll ?_ _ _
      exact Block.refreshed_kept undue (Block.event_kept _ _ _ _) (by simp [Piece.among])

theorem Block.refreshed_refabDone (m level : Nat) (faulty : Option (Fin 13)) : (b.refabDone m level faulty).refreshed n t k := by
  unfold Block.refabDone
  refine Block.refreshed_caTest ?_ m faulty
  refine Block.refreshed_kept ?_ (Block.remapNow_kept _ _) (by simp [Piece.among])
  refine Block.refreshed_kept ?_ (Block.tally_kept _ _ _ _ _) (by simp [Piece.among])
  refine Block.refreshed_modChan h m fun x hx => ?_
  split <;> exact hx

end

theorem Chan.refreshed_noteCmd (x : Chan) (now : Tide) {c : Cmd} (k : c.kind = .refab) : (x.noteCmd now c).refreshed (some now) (x.nRefab + 1) := by
  refine ⟨?_, ?_, ?_⟩
  · rw [← x.closeRows_openRows]
    apply Chan.openRows_congr
    simp only [Chan.noteCmd, Chan.noteKind, k]
  · simp only [Chan.noteCmd, Chan.noteKind, k]
  · simp only [Chan.noteCmd, Chan.noteKind, k, Chan.closeRows]

theorem runCmd_refab {c : Cmd} (m : List Host.Cell) (b : Block) (n : Nat) (dmg : List Damage) (fc : Option (Fin 13)) (pe : Bool) (k : c.kind = .refab) :
    (runCmd m b n c dmg fc pe).1 = m
      ∧ (runCmd m b n c dmg fc pe).2.refreshed n (some b.ck.tide) ((b.chan n).nRefab + 1) := by
  have noted : (b.noted n c).refreshed n (some b.ck.tide) ((b.chan n).nRefab + 1) := by
    rw [Block.refreshed, Block.noted_chan]
    exact Chan.refreshed_noteCmd _ _ k
  rw [runCmd_eq]
  split
  · exact ⟨rfl, by rw [Block.sentAgain_other _ n c (by simp [k]) (by simp [k])]; exact noted⟩
  · rw [Block.carried, k]
    exact ⟨rfl, Block.refreshed_refabDone noted ..⟩

section
variable {s : State} {ch : ChId} {dmg : List Damage} {fc : Option (Fin 13)} {pe : Bool} {c : Cmd}

theorem commandIssue_refab (serves : s.blk.chanServes ch = true) (chosen : (s.blk.atCycle ch).choose ch = some c) (inside : c.acc.gran < granules)
    (k : c.kind = .refab) :
    Does (.commandIssue ch dmg fc pe) s [.berths, .chans, .chs, .cnt, .col ch, .events, .fws, .ins, .lanes, .mf, .prot, .pw, .qy, .regs, .sides, .slots, .stk, .tl] fun b =>
      (b.chan ch).openRows = 0 ∧ (b.chan ch).refab = some s.blk.ck.tide ∧ (b.chan ch).nRefab = (s.blk.chan ch).nRefab + 1 := by
  obtain ⟨mem, refreshed⟩ := runCmd_refab s.mem (s.blk.atCycle ch) ch dmg fc pe k
  rw [Block.atCycle_ck, Block.atCycle_chan] at refreshed
  exact does_commandIssue serves chosen inside (Within.of rfl) mem (runCmd_kept ..) Within.refl refreshed

theorem commandIssue_none (serves : s.blk.chanServes ch = true) (none : (s.blk.atCycle ch).choose ch = none) :
    Does (.commandIssue ch dmg fc pe) s [.qy, .chs, .reg Off.chAlarm] fun b => b.chan ch = s.blk.chan ch :=
  ⟨_, exec_commandIssue_none serves none, ⟨rfl, rfl⟩, (s.blk.atCycle_kept ch).mono (Within.of_subset (by simp)), s.blk.atCycle_chan ch ch⟩

end

/-- Settles O37: the choice by the order of the scheduler's list, each command by its own lemma. -/
theorem channelCommands : Obligations.ChannelCommands := by
  unfold Obligations.ChannelCommands
  exact ⟨fun _ _ _ => Block.choose_first, fun _ _ _ _ _ => exec_commandIssue_idle, fun _ _ _ _ _ _ => exec_commandIssue_outside,
    fun _ _ _ _ _ => commandIssue_none, fun _ _ _ _ _ _ => commandIssue_act, fun _ _ _ _ _ _ => commandIssue_pre,
    fun _ _ _ _ _ _ _ _ _ _ => commandIssue_rd, fun _ _ _ _ _ _ _ _ _ _ _ => commandIssue_wr, fun _ _ _ _ _ _ => commandIssue_fill,
    fun _ _ _ _ _ _ _ => commandIssue_scrub, fun _ _ _ _ _ _ => commandIssue_refab, fun _ _ _ _ _ _ => commandIssue_refpb,
    fun _ _ _ _ _ _ => commandIssue_cal, fun _ _ _ _ _ _ => commandIssue_resume, fun _ _ _ _ _ _ _ => commandIssue_again⟩

end Sys2Proof.Machine
end

section
/-! SUPPORT. What the pier's own course leaves alone: the alarm and enable registers that only resets, rails and software
write, and the berths that are out of service. -/

namespace Sys2Proof.Machine

open Sys2Proof

/-! ### Steady registers, shut berths -/

/-- PW_ALARM, CK_RESET_CAUSE, and LN_ALARM_EN of every lane: no lane, fairway, quay or stack operation writes them. -/
def steadyOff (o : Nat) : Bool :=
  o == Off.pwAlarm || o == Off.ckResetCause || decide (0x40000 ≤ o) && decide (o < 0x60000) && o % 0x400 == 0xD4

@[simp] theorem steadyOff_pwAlarm : steadyOff Off.pwAlarm = true := rfl
@[simp] theorem steadyOff_ckResetCause : steadyOff Off.ckResetCause = true := rfl
@[simp] theorem steadyOff_lgAlarm : steadyOff Off.lgAlarm = false := rfl
@[simp] theorem steadyOff_fwAlarm : steadyOff Off.fwAlarm = false := rfl
@[simp] theorem steadyOff_tlAlarm : steadyOff Off.tlAlarm = false := rfl
@[simp] theorem steadyOff_stAlarm : steadyOff Off.stAlarm = false := rfl
@[simp] theorem steadyOff_ckAlarm : steadyOff Off.ckAlarm = false := rfl

theorem steadyOff_of_ge {o : Nat} (h : 0x60000 ≤ o) : steadyOff o = false := by
  simp only [steadyOff, Off.pwAlarm, Off.ckResetCause, Bool.or_eq_false_iff, Bool.and_eq_false_iff, beq_eq_false_iff_ne, decide_eq_false_iff_not]
  omega

@[simp] theorem steadyOff_tlOvf (n : Nat) : steadyOff (tlOff Off.tlOvf n) = false :=
  steadyOff_of_ge (Nat.le_add_right_of_le (by decide))

@[simp] theorem steadyOff_btAlarm (n : Nat) : steadyOff (btOff Off.btAlarm n) = false :=
  steadyOff_of_ge (Nat.le_add_right_of_le (by decide))

@[simp] theorem steadyOff_btLat (n : Nat) : steadyOff (btOff Off.btLat n) = false :=
  steadyOff_of_ge (Nat.le_add_right_of_le (by decide))

/-- Register sets of lanes lie 1 KiB apart. -/
theorem laneBase_mod (l : Nat) : laneBase l % 0x400 = 0 := by unfold laneBase; split <;> omega

theorem laneBase_ge (l : Nat) : 0x40000 ≤ laneBase l := by unfold laneBase; split <;> omega

theorem steadyOff_lane {r : Nat} (l : Nat) (h : (r - 0x40000) % 0x400 ≠ 0xD4) : steadyOff (lnOff r l) = false := by
  have set := laneBase_mod l
  have low := laneBase_ge l
  simp only [steadyOff, lnOff, Off.pwAlarm, Off.ckResetCause, Bool.or_eq_false_iff, Bool.and_eq_false_iff, beq_eq_false_iff_ne]
  omega

@[simp] theorem steadyOff_lnTxDrv (l : Nat) : steadyOff (lnOff Off.lnTxDrv l) = false := steadyOff_lane l (by decide)

@[simp] theorem steadyOff_lnEcStatus (l : Nat) : steadyOff (lnOff Off.lnEcStatus l) = false := steadyOff_lane l (by decide)

@[simp] theorem steadyOff_lnAlarmEn (l : LaneId) : steadyOff (lnOff Off.lnAlarmEn l) = true := by
  revert l; decide

/-- The steady registers stay as they are. -/
structure Block.Steady (b c : Block) : Prop where
  reg : ∀ o, steadyOff o = true → c.reg o = b.reg o

/-- The berth is out of service: FENCED or ABSENT. -/
def Block.shut (b : Block) (n : Nat) : Prop := (b.berth n).st = .fenced ∨ (b.berth n).st = .absent

/-- The steady registers stay as they are, and shut berths stay shut. -/
structure Block.Calm (b c : Block) : Prop where
  steady : b.Steady c
  shut : ∀ n, b.shut n → c.shut n

theorem Block.Steady.trans {b c d : Block} (h : b.Steady c) (k : c.Steady d) : b.Steady d :=
  ⟨fun o s => (k.reg o s).trans (h.reg o s)⟩

/-- A change that leaves the steady registers, after others. -/
theorem Block.Steady.after {b c d : Block} (k : c.Steady d) (h : b.Steady c) : b.Steady d := h.trans k

theorem Block.Calm.refl (b : Block) : b.Calm b := ⟨⟨fun _ _ => rfl⟩, fun _ h => h⟩

theorem Block.Calm.trans {b c d : Block} (h : b.Calm c) (k : c.Calm d) : b.Calm d :=
  ⟨h.steady.trans k.steady, fun n s => k.shut n (h.shut n s)⟩

/-- A calm change after others. -/
theorem Block.Calm.after {b c d : Block} (k : c.Calm d) (h : b.Calm c) : b.Calm d := h.trans k

theorem Block.Calm.foldl {α : Type} {f : Block → α → Block} (h : ∀ (b : Block) x, b.Calm (f b x)) (b : Block) (xs : List α) : b.Calm (xs.foldl f b) :=
  List.foldlRecOn (motive := Block.Calm b) xs f (.refl b) fun c hc x _ => hc.trans (h c x)

theorem Block.Calm.each {f : Block → Nat → Block} (h : ∀ (b : Block) n, b.Calm (f b n)) (b : Block) (ns : List Nat) : b.Calm (b.each ns f) :=
  .foldl h b ns

theorem Block.Calm.ite {b c d : Block} {p : Prop} [Decidable p] (h : b.Calm c) (k : b.Calm d) : b.Calm (if p then c else d) := by
  split
  · exact h
  · exact k

theorem Block.Steady.regBit {b c : Block} (h : b.Steady c) {o i : Nat} (s : steadyOff o = true) (set : b.regBit o i = true) :
    c.regBit o i = true := by
  rwa [Block.regBit, h.reg o s]

/-- A change of the piece leaves the steady registers. -/
def Piece.steady : Piece → Prop
  | .regs => False
  | .reg o => steadyOff o = false
  | _ => True

/-- A change of the piece leaves the steady registers and the berths. -/
def Piece.calm (p : Piece) : Prop := p.steady ∧ p ≠ .berths ∧ ∀ n, p ≠ .berth n

theorem Kept.steady {ps : List Piece} {b c : Block} (h : Kept ps b c) (steady : ∀ p ∈ ps, p.steady := by simp [Piece.steady]) : b.Steady c := by
  refine ⟨fun o s => ?_⟩
  refine h.out (.reg o) fun listed => ?_
  rcases listed with all | one
  · exact steady _ all
  · have not : steadyOff o = false := steady _ one
    rw [s] at not; cases not

theorem Kept.calm {ps : List Piece} {b c : Block} (h : Kept ps b c) (calm : ∀ p ∈ ps, p.calm := by simp [Piece.calm, Piece.steady]) : b.Calm c := by
  refine ⟨h.steady fun p hp => (calm p hp).1, fun n s => ?_⟩
  have same : c.berth n = b.berth n := h.out (.berth n) fun listed => by
    rcases listed with all | one
    · obtain ⟨-, others, -⟩ := calm _ all
      exact others rfl
    · obtain ⟨-, -, other⟩ := calm _ one
      exact other n rfl
  rwa [Block.shut, same]

theorem Block.setReg_calm (b : Block) {o : Nat} (v : Word) (h : steadyOff o = false) : b.Calm (b.setReg o v) :=
  (b.setReg_kept o v).calm (by simpa [Piece.calm, Piece.steady] using h)

theorem Block.orReg_calm (b : Block) {o : Nat} (v : Word) (h : steadyOff o = false) : b.Calm (b.orReg o v) := b.setReg_calm _ h

theorem Block.event_calm (b : Block) (e : Ev) (unit : Nat) (detail : List (BitVec 16)) : b.Calm (b.event e unit detail) :=
  (b.event_kept e unit detail).calm

theorem Block.modSide_calm (b : Block) (sd : Side) (f : SideSt → SideSt) : b.Calm (b.modSide sd f) :=
  (b.modSide_kept sd f).calm

theorem Block.modLane_calm (b : Block) (l : Nat) (f : Lane → Lane) : b.Calm (b.modLane l f) :=
  (b.modLane_kept l f).calm

theorem Block.berth_modBerth (b : Block) (n k : Nat) (f : Berth → Berth) : (b.modBerth n f).berth k = if n = k then f (b.berth n) else b.berth k :=
  tget_tset ..

/-- A berth's change that leaves its state or shuts it. -/
theorem Block.modBerth_calm (b : Block) (n : Nat) {f : Berth → Berth} (h : ∀ x, (f x).st = x.st ∨ (f x).st = .fenced ∨ (f x).st = .absent) :
    b.Calm (b.modBerth n f) := by
  refine ⟨(b.modBerth_kept n f).steady, fun k s => ?_⟩
  rw [Block.shut, Block.berth_modBerth]
  split
  case isTrue e =>
    subst e
    rcases h (b.berth n) with same | shut
    · rw [same]; exact s
    · exact shut
  case isFalse => exact s

/-! ### Segments that leave RUN -/

theorem Block.winDiscard_calm (b : Block) (l : Nat) : b.Calm (b.winDiscard l) := b.setReg_calm _ (by simp)

theorem Block.endWindow_calm (b : Block) (sd : Side) : b.Calm (b.endWindow sd) := by
  unfold Block.endWindow
  split
  · exact .refl b
  · have noWindow := b.modSide_calm sd fun x => { x with win := none }
    exact .ite (noWindow.trans (.each Block.winDiscard_calm ..)) noWindow

theorem Block.leaveRun_calm (b : Block) (sd : Side) (seg : SegState) : b.Calm (b.leaveRun sd seg) :=
  (b.endWindow_calm sd).trans (Block.modSide_calm ..)

theorem Block.segDown_calm (b : Block) (sd : Side) : b.Calm (b.segDown sd) :=
  (b.leaveRun_calm sd .down).trans (.each (fun c l => c.modLane_calm l _) ..)

theorem Block.freshCaps_calm (b : Block) : b.Calm b.freshCaps := b.freshCaps_kept.calm

theorem Block.sideFails_calm (b : Block) (sd : Side) : b.Calm (b.sideFails sd) :=
  ((b.segDown_calm sd).trans (Block.event_calm ..)).trans (Block.freshCaps_calm _)

theorem Block.startHunt_calm (b : Block) (l : Nat) (g : Fin 4) (warm : Bool) : b.Calm (b.startHunt l g warm) :=
  (b.startHunt_kept l g warm).calm

theorem Block.trainSide_calm (b : Block) (sd : Side) (g : Fin 4) (inLoop : Bool) : b.Calm (b.trainSide sd g inLoop) :=
  .ite (b.sideFails_calm sd)
    (((b.leaveRun_calm sd .training).trans (Block.modSide_calm ..)).trans (.each (fun c l => c.startHunt_calm l g false) ..))

theorem Block.purgeSide_calm (b : Block) (sd : Side) : b.Calm (b.purgeSide sd) :=
  (b.purgeSide_kept sd).calm

theorem Block.dropSide_calm (b : Block) (sd : Side) : b.Calm (b.dropSide sd) := (b.segDown_calm sd).trans (Block.purgeSide_calm ..)

theorem Block.retrainSide_calm (b : Block) (sd : Side) (g : Fin 4) (inLoop : Bool) : b.Calm (b.retrainSide sd g inLoop) :=
  (b.trainSide_calm sd g inLoop).trans (Block.purgeSide_calm ..)

theorem Block.enterOpen_calm (b : Block) : b.Calm b.enterOpen := b.enterOpen_kept.calm

/-- The move of R365 at one side: its cap on the grade is lifted, and a running segment trains again. -/
theorem Block.liftCap_calm (b : Block) (sd : Side) :
    b.Calm (if (b.side sd).seg = .down then b.modSide sd fun x => { x with capG2 := false }
      else if (b.side sd).seg = .run ∧ (b.side sd).capG2 then (b.modSide sd fun x => { x with capG2 := false }).retrainSide sd 0 false
      else b) :=
  have lifted := b.modSide_calm sd fun x => { x with capG2 := false }
  .ite lifted (.ite (lifted.trans (Block.retrainSide_calm ..)) (.refl b))

theorem Block.checkOpen_calm (b : Block) : b.Calm b.checkOpen := by
  unfold Block.checkOpen
  have lifted := (b.liftCap_calm .west).trans (Block.liftCap_calm _ .east)
  exact .ite (.refl b) (.ite (lifted.trans (Block.enterOpen_calm _)) lifted)

theorem Block.linkUp_steady (b : Block) (sd : Side) : b.Steady (b.linkUp sd) :=
  Block.Calm.steady (.ite (((b.modSide_calm sd _).trans (Block.trainSide_calm ..)).trans (Block.freshCaps_calm _)) (.refl b))

end Sys2Proof.Machine
end

section
/-! SUPPORT. Fences, the memory side's restart and the links leave the steady registers and shut berths. -/

namespace Sys2Proof.Machine

open Sys2Proof

/-! ### Requests that end -/

/-- A change of neither registers nor berths. -/
theorem Block.Calm.of_eq {b c : Block} (regs : c.csr = b.csr) (berths : c.berths = b.berths) : b.Calm c :=
  ⟨⟨fun o _ => by rw [Block.reg, regs, Block.reg]⟩, fun n h => by rwa [Block.shut, Block.berth, berths]⟩

theorem Block.settle_calm (b : Block) : b.Calm b.settle := by
  unfold Block.settle
  have emptied : b.Calm (b.each (List.range 64) fun b n =>
      if (b.berth n).st = .fenced ∧ ¬ b.busyAt n then b.modBerth n fun x => { x with st := .absent } else b) :=
    .each (fun c n => .ite (c.modBerth_calm n fun _ => .inr (.inr rfl)) (.refl c)) ..
  dsimp only
  generalize Block.each .. = c at emptied ⊢
  split
  · exact .ite (emptied.trans (.of_eq rfl rfl)) emptied
  · exact emptied

theorem Block.afterReq_calm (b : Block) (r : Req) : b.Calm (b.afterReq r) := by
  unfold Block.afterReq
  refine .after (Block.wakeFences_kept _).calm (.after (Block.settle_calm _)
    (.after (Block.clearPanic_kept _).calm (.each (fun c n => ?_) ..)))
  exact .after (Block.grantStaging_kept _ n).calm (c.modChan_kept n _).calm

theorem Block.dropReq_calm (b : Block) (id : Nat) : b.Calm (b.dropReq id) := (b.dropReq_kept id).calm

theorem Block.endReq_calm (b : Block) (r : Req) (level : Nat) (a : Answer) : b.Calm (b.endReq r level a) := by
  unfold Block.endReq
  refine .trans (.trans (.trans ?_ (Block.dropReq_calm _ r.id)) (Block.complete_kept ..).calm) (Block.afterReq_calm _ r)
  exact .of_eq rfl rfl

theorem Block.emitCopy_calm (b : Block) (r : Req) : b.Calm (b.emitCopy r) := by
  unfold Block.emitCopy
  refine .trans (.trans (.trans (b.dropReq_calm r.id) ?_) (.foldl (fun c e => ?_) ..)) (Block.afterReq_calm _ r)
  · exact .of_eq rfl rfl
  · exact (Block.sendRemote_kept ..).calm

theorem Block.bump_calm (b : Block) (off n : Nat) : b.Calm (b.bump off n) := .of_eq rfl rfl

theorem Block.served_calm (b : Block) (r : Req) (p : Part) (poisoned : Bool) : b.Calm (b.served r p poisoned) := by
  unfold Block.served
  extract_lets n b1 b2 b3 lat b4
  have counted : b.Calm b2 := .trans (b.bump_calm ..) (.ite (Block.bump_calm ..) (.refl _))
  have poison : b2.Calm b3 := .ite (.trans (.trans (Block.bump_calm ..) (Block.orReg_calm _ _ (by simp)))
    (Block.tally_kept ..).calm) (.refl _)
  have longest : b3.Calm b4 := .ite (Block.setReg_calm _ _ (by simp)) (.refl _)
  have all := (counted.trans poison).trans longest
  split
  · exact all
  · exact all.trans (Block.modCharter_kept ..).calm

theorem Block.checkReq_calm (b : Block) (id : Nat) : b.Calm (b.checkReq id) := by
  unfold Block.checkReq
  split
  case h_1 => exact .refl b
  case h_2 r _ =>
    refine .ite (.ite (.ite ?poisoned (.refl b)) (.ite (.ite (b.endReq_calm ..) (b.endReq_calm ..)) (.refl b)))
      (.ite (.ite (b.emitCopy_calm r) (b.endReq_calm ..)) (.refl b))
    case poisoned => exact .trans (.foldl (fun c p => c.served_calm r p true) ..) (Block.endReq_calm ..)

/-! ### Fences (R240, R278) -/

theorem Block.modReq_calm (b : Block) (id : Nat) (f : Req → Req) : b.Calm (b.modReq id f) := .of_eq rfl rfl

theorem Block.fenceReq_calm (b : Block) (age n id : Nat) : b.Calm (b.fenceReq age n id) := by
  unfold Block.fenceReq
  split
  case h_1 => exact .refl b
  case h_2 r _ =>
    refine .ite (.ite (.refl b) ?unwritten) (.ite (b.endReq_calm ..) (.refl b))
    case unwritten => exact .after (Block.checkReq_calm _ id) (.after (Block.modReq_calm ..) (b.modBerth_calm n fun _ => .inl rfl))

theorem Block.enterFenced_calm (b : Block) (n : Nat) : b.Calm (b.enterFenced n) :=
  (b.modBerth_calm n fun _ => .inr (.inl rfl)).trans (Block.orReg_calm _ _ (by simp))

theorem Block.enterFenced_shut (b : Block) (n : Nat) : (b.enterFenced n).shut n := by
  left
  rw [Block.enterFenced, Block.berth, Block.orReg_berths, ← Block.berth, Block.berth_modBerth, if_pos rfl]

theorem Block.fenceReqs_calm (b : Block) (age n : Nat) (ids : List Nat) : b.Calm (b.each ids fun b id => b.fenceReq age n id) :=
  .each (fun c id => c.fenceReq_calm age n id) ..

/-- What a fence of a channel in service does after its berth has entered FENCED. -/
theorem Block.fenceServing_calm (b : Block) (age n : Nat) :
    b.Calm (((b.modChan n Chan.quiet).each ((b.modChan n Chan.quiet).qy.reqs.map (·.id)) fun b id => b.fenceReq age n id).charterBerthLost n) :=
  .trans (.trans (b.modChan_kept n _).calm (Block.fenceReqs_calm ..)) (Block.charterBerthLost_kept ..).calm

/-- The channel's fence bit set (R278). -/
def Block.fenceBit (b : Block) (n : Nat) : Block := { b with stk.fence := b.stk.fence ||| chBit n }

theorem Block.fenceBit_calm (b : Block) (n : Nat) : b.Calm (b.fenceBit n) := .of_eq rfl rfl

/-- A fence leaves the steady registers and shut berths, and shuts its own. -/
theorem Block.fenceChan_shuts (b : Block) (age n : Nat) : b.Calm (b.fenceChan age n) ∧ (b.fenceChan age n).shut n := by
  have noted := b.fenceBit_calm n
  unfold Block.fenceChan
  dsimp only
  split
  case h_4 fenced =>
    have rest := (b.fenceBit n).fenceReqs_calm age n (b.qy.reqs.map (·.id))
    exact ⟨noted.trans rest, rest.shut n (.inl fenced)⟩
  case h_5 absent =>
    have rest := (b.fenceBit n).modBerth_calm n (f := fun x => { x with fillDone := false }) fun _ => .inl rfl
    exact ⟨noted.trans rest, rest.shut n (.inr absent)⟩
  all_goals
    have rest := ((b.fenceBit n).enterFenced n).fenceServing_calm age n
    exact ⟨(noted.trans (Block.enterFenced_calm _ n)).trans rest, rest.shut n (Block.enterFenced_shut _ n)⟩

theorem Block.fenceChan_calm (b : Block) (age n : Nat) : b.Calm (b.fenceChan age n) := (b.fenceChan_shuts age n).1

theorem Block.fenceAll_calm (b : Block) (age : Nat → Nat) (ns : List Nat) : b.Calm (b.fenceAll age ns) :=
  .trans (.trans (.each (fun c n => c.fenceChan_calm (age n) n) ..) (Block.settle_calm _)) (Block.checkOpen_calm _)

/-- Every channel of a list that is fenced is shut. -/
theorem Block.fenceEach_shut (b : Block) (age : Nat → Nat) {ns : List Nat} {n : Nat} (h : n ∈ ns) :
    (b.each ns fun b n => b.fenceChan (age n) n).shut n := by
  unfold Block.each
  induction ns generalizing b with
  | nil => cases h
  | cons k ks ih =>
    rw [List.foldl_cons]
    rcases List.mem_cons.1 h with rfl | later
    · have rest : (b.fenceChan (age n) n).Calm (ks.foldl (fun b n => b.fenceChan (age n) n) (b.fenceChan (age n) n)) :=
        .foldl (fun c n => c.fenceChan_calm (age n) n) ..
      exact rest.shut n (b.fenceChan_shuts (age n) n).2
    · exact ih _ later

theorem Block.fenceAll_shut (b : Block) (age : Nat → Nat) {ns : List Nat} {n : Nat} (h : n ∈ ns) : (b.fenceAll age ns).shut n :=
  ((Block.settle_calm _).trans (Block.checkOpen_calm _)).shut n (b.fenceEach_shut age h)

/-! ### The memory side comes back (R276, R351, R456) -/

theorem Block.diagnose_calm (b : Block) (lost mon : Nat → Bool) (age : Nat → Nat) : b.Calm (b.diagnose lost mon age) := by
  unfold Block.diagnose
  have alarm (c : Block) (m : Word) (e : Ev) (u : Nat) : c.Calm ((c.orReg Off.stAlarm m).event e u) :=
    (c.orReg_calm m (by simp)).trans (Block.event_calm ..)
  refine .ite (.refl b) (.ite ((alarm ..).trans (Block.fenceAll_calm ..)) ?_)
  split
  · exact .after (Block.fenceAll_calm ..) (.after (alarm ..) (.of_eq rfl rfl))
  · exact .after (Block.fenceAll_calm ..) (.each (fun c n => alarm c ..) ..)

theorem Block.each_steady {f : Block → Nat → Block} (h : ∀ (b : Block) n, b.Steady (f b n)) (b : Block) (ns : List Nat) : b.Steady (b.each ns f) :=
  ⟨fun o s => Block.each_keeps (·.reg o) f (fun c n => (h c n).reg o s) b ns⟩

theorem Block.bringUp_steady (b : Block) (n : Nat) (ok : Bool) : b.Steady (b.bringUp n ok) := (b.bringUp_kept n ok).steady

theorem Block.bringUpAll_steady (b : Block) (pass lost : BitVec 64) : b.Steady (b.bringUpAll pass lost) := by
  refine (b.diagnose_calm ..).steady.trans (Block.each_steady (fun c n => ?_) ..)
  split
  · exact (Block.Calm.refl c).steady
  · exact c.bringUp_steady ..

/-- The stack's dies follow commands again: DMAN is high, and the memory side's reset is over. -/
def Block.dmanHigh (b : Block) : Block := { b with stk.dman := false, qy.resetting := false }

theorem Block.restoreMemory_eq (b : Block) (pass lost : BitVec 64) (flight : List (Nat × Nat)) :
    b.restoreMemory pass lost flight = ((b.dmanHigh.measured flight).bringUpAll pass lost).reloadCharters.activateWoken := rfl

theorem Block.dmanHigh_calm (b : Block) : b.Calm b.dmanHigh := .of_eq rfl rfl

theorem Block.restoreMemory_steady (b : Block) (pass lost : BitVec 64) (flight : List (Nat × Nat)) :
    b.Steady (b.restoreMemory pass lost flight) := by
  rw [Block.restoreMemory_eq]
  exact .after (Block.activateWoken_kept _).steady (.after
    (Block.reloadCharters_kept _).steady (.after (Block.bringUpAll_steady ..) (.after
    (Block.measured_kept _ flight).steady b.dmanHigh_calm.steady)))

/-! ### The core goes dark (R346, R348) -/

/-- Nothing is left in the fairways. -/
def Block.clearFws (b : Block) : Block :=
  { b with fwWE := { b.fwWE with buf := [], standin := [] }, fwEW := { b.fwEW with buf := [], standin := [] } }

theorem Block.dropLinks_eq (b : Block) : b.dropLinks = ((b.dropSide .west).dropSide .east).clearFws := rfl

theorem Block.clearFws_calm (b : Block) : b.Calm b.clearFws := .of_eq rfl rfl

theorem Block.dropLinks_steady (b : Block) : b.Steady b.dropLinks := by
  rw [Block.dropLinks_eq]
  exact Block.Calm.steady (.after (Block.clearFws_calm _) (.after (Block.dropSide_calm _ .east) (b.dropSide_calm .west)))

/-- The core's clock is off, and with it the tally unit and the survey. -/
def Block.gateCore (b : Block) : Block := { b with ck.coreGated := true, tl.busy := false, sv.busy := false }

theorem Block.coreDark_eq (b : Block) :
    b.coreDark = (((b.abandonAll.dropLinks.dmanLow.cutStackReset.endScrub St.aborted).endRunning (·.needsGated) St.aborted).dropWaiters
      fun d => !coreDom d).gateCore := rfl

theorem Block.gateCore_calm (b : Block) : b.Calm b.gateCore := .of_eq rfl rfl

theorem Block.coreDark_steady (b : Block) : b.Steady b.coreDark := by
  rw [Block.coreDark_eq]
  exact .after (Block.gateCore_calm _).steady (.after (Block.dropWaiters_kept ..).steady
    (.after (Block.endRunning_kept ..).steady (.after (Block.endScrub_kept ..).steady
    (.after (Block.cutStackReset_kept _).steady (.after (Block.dmanLow_kept _).steady
    (.after (Block.dropLinks_steady _) (b.abandonAll_kept.steady)))))))

theorem Block.lanePllFail_steady (b : Block) (sd : Side) (refLost : Bool) : b.Steady (b.lanePllFail sd refLost) := by
  unfold Block.lanePllFail
  extract_lets noted p failed down alarmed
  have note : b.Calm noted := b.modSide_calm ..
  have fail : noted.Calm failed := (noted.setPll_kept ..).calm
  have drop : failed.Calm down := .ite (.refl failed) (.after (Block.wakeWaiter_kept ..).calm
    (.after (Block.freshCaps_calm _) (failed.dropSide_calm sd)))
  have alarm : down.Calm alarmed := down.orReg_calm _ (by simp)
  refine Block.Calm.steady (.ite note (.after (Block.checkOpen_calm _) (.after (alarmed.event_calm ..) ?_)))
  exact ((note.trans fail).trans drop).trans alarm

end Sys2Proof.Machine
end

section
/-! SUPPORT. Rail faults: what RAIL_UV and RAIL_RECOVERY do by rail. -/

namespace Sys2Proof.Machine

open Sys2Proof

/-! ### The alarm of a rail fault (R38) -/

theorem Block.regBit_orReg (b : Block) (o : Nat) (m : Word) (i : Nat) : (b.orReg o m).regBit o i = (b.regBit o i || m.getLsbD i) := by
  rw [Block.regBit, Block.orReg, Block.reg_setReg_same, BitVec.getLsbD_or, Block.regBit]

/-- The rail is below its threshold, and the pier shows it: `PW_ALARM.RAIL_UV` is set and ALERT_N low. -/
def Block.railAlarm (b : Block) (r : Rail) : Prop :=
  b.pins.railsLow.contains r = true ∧ b.regBit Off.pwAlarm 5 = true ∧ b.alertLow = true

theorem Block.railAlarm_of {b : Block} {r : Rail} (low : b.pins.railsLow.contains r = true) (bit : b.regBit Off.pwAlarm 5 = true) : b.railAlarm r :=
  ⟨low, bit, b.alertLow_iff.mpr (.inl (.inr (.inl bit)))⟩

/-- The alarm outlasts what changes no rail and leaves the steady registers. -/
theorem Block.railAlarm.keep {b c : Block} {r : Rail} (h : b.railAlarm r) (pins : c.pins = b.pins) (steady : b.Steady c) : c.railAlarm r := by
  obtain ⟨low, bit, -⟩ := h
  exact Block.railAlarm_of (by rw [pins]; exact low) (steady.regBit rfl bit)

/-- The rail noted among those below their thresholds. -/
def Block.railNoted (b : Block) (r : Rail) : Block :=
  { b with pins.railsLow := if b.pins.railsLow.contains r then b.pins.railsLow else r :: b.pins.railsLow }

theorem Block.railNoted_low (b : Block) (r : Rail) : (b.railNoted r).pins.railsLow.contains r = true := by
  unfold Block.railNoted
  dsimp only
  split
  case isTrue h => exact h
  case isFalse => simp

/-- A rail fault as its alarm and event show it. -/
def Block.railShown (b : Block) (r : Rail) : Block := ((b.railNoted r).orReg Off.pwAlarm 32).event .railUv (railNo r)

/-- The departure that a rail fault cuts short (R377). -/
def Block.departureLost (b : Block) : Block := { b.orReg Off.pwAlarm 1 with pw.depAbandoned := true, lg.writing := none }

theorem Block.railEvent_eq (b : Block) (r : Rail) : b.railEvent r =
    if r ≠ .io ∧ (b.railShown r).pw.st = .departure ∧ ¬ (b.railShown r).pw.offReady then (b.railShown r).departureLost else b.railShown r := rfl

theorem Block.railShown_alarm (b : Block) (r : Rail) : (b.railShown r).railAlarm r := by
  have bit : ((b.railNoted r).orReg Off.pwAlarm 32).regBit Off.pwAlarm 5 = true := by rw [Block.regBit_orReg]; simp
  refine Block.railAlarm_of ?_ ((Block.event_calm ..).steady.regBit rfl bit)
  rw [Block.railShown, Block.event_pins, Block.orReg_pins]
  exact b.railNoted_low r

theorem Block.railEvent_alarm (b : Block) (r : Rail) : (b.railEvent r).railAlarm r := by
  obtain ⟨low, bit, alert⟩ := b.railShown_alarm r
  rw [Block.railEvent_eq]
  split
  · refine Block.railAlarm_of (by rw [Block.departureLost]; simpa using low) ?_
    change ((b.railShown r).orReg Off.pwAlarm 1).regBit Off.pwAlarm 5 = true
    rw [Block.regBit_orReg, bit, Bool.true_or]
  · exact ⟨low, bit, alert⟩

theorem Block.railEvent_io (b : Block) : b.railEvent .io = b.railShown .io := by
  rw [Block.railEvent_eq]; exact if_neg fun h => h.1 rfl

theorem Block.railNoted_kept (b : Block) (r : Rail) : Kept [.pins] b (b.railNoted r) := Kept.pins ..

theorem Block.railShown_kept (b : Block) (r : Rail) : Kept [.pins, .events, .reg Off.pwAlarm, .reg Off.lgAlarm] b (b.railShown r) :=
  Block.event_keeps (Within.of rfl) (Block.orReg_keeps (Within.of rfl) ((b.railNoted_kept r).mono (Within.of rfl)))

theorem Block.railEvent_ck (b : Block) (r : Rail) : (b.railEvent r).ck = b.ck :=
  (b.railEvent_kept r).ckEq (by simp [Piece.among]) (by simp [Piece.among])

/-- A rail fault may abandon a departure, and leaves the pier's power state beside. -/
theorem Block.railEvent_st (b : Block) (r : Rail) : (b.railEvent r).pw.st = b.pw.st := by
  have shown : (b.railShown r).pw = b.pw := by rw [Block.railShown, Block.event_pw, Block.orReg_pw]; rfl
  rw [Block.railEvent_eq]
  split
  · rw [Block.departureLost, ← shown]; simp
  · rw [shown]

/-! ### The meaning by rail -/

section
variable {s : State} {r : Rail}

theorem exec_railUv_eq (r : Rail) (s : State) : exec (.railUv r) s = execRailUv r s := rfl

theorem exec_railUv_quiet (h : s.blk.armed = false) (aon : r ≠ .aon) : exec (.railUv r) s = s.upd (·.railQuiet r) := by
  simp [exec_railUv_eq, execRailUv, h, aon]

theorem exec_railUv_io (h : s.blk.armed = true) : exec (.railUv .io) s = s.upd (·.railEvent .io) := by
  simp [exec_railUv_eq, execRailUv, h]

theorem exec_railUv_lane (h : s.blk.armed = true) (lane : r = .lane ∨ r = .laneA) :
    exec (.railUv r) s = s.upd fun b => ((b.railEvent r).lanePllFail .west false).lanePllFail .east false := by
  rcases lane with rfl | rfl <;> simp [exec_railUv_eq, execRailUv, h]

theorem exec_railUv_stack (h : s.blk.armed = true) (stack : r = .vpp ∨ r = .stack) :
    exec (.railUv r) s = s.upd fun b => (b.railEvent r).stackRailFault := by
  rcases stack with rfl | rfl <;> simp [exec_railUv_eq, execRailUv, h]

theorem exec_railUv_core (h : s.blk.armed = true) (lock : s.blk.ck.root.lock = true) :
    exec (.railUv .core) s = s.coreFails fun b => (b.railEvent .core).rootLost false false := by
  simp [exec_railUv_eq, execRailUv, h, lock]

theorem exec_railUv_core_unlocked (h : s.blk.armed = true) (lock : s.blk.ck.root.lock = false) :
    exec (.railUv .core) s = s.upd (·.railEvent .core) := by
  simp [exec_railUv_eq, execRailUv, h, lock]

end

/-! ### Lane rails (R38, R346) -/

theorem Block.dropSide_ck (b : Block) (sd : Side) : (b.dropSide sd).ck = b.ck :=
  (b.dropSide_kept sd).ckEq (by simp [Piece.among]) (by simp [Piece.among])

theorem Block.freshCaps_ck (b : Block) : b.freshCaps.ck = b.ck := b.freshCaps_kept.ckEq (by simp [Piece.among]) (by simp [Piece.among])

theorem Block.wakeWaiter_ck (b : Block) (sd : Side) : (b.wakeWaiter sd).ck = b.ck :=
  (b.wakeWaiter_kept sd).ckEq (by simp [Piece.among]) (by simp [Piece.among])

theorem Block.checkOpen_ck (b : Block) : b.checkOpen.ck = b.ck := b.checkOpen_kept.ckEq (by simp [Piece.among]) (by simp [Piece.among])

theorem Block.pll_congr {b c : Block} (h : c.ck = b.ck) (p : Pll) : c.pll p = b.pll p := by cases p <;> simp only [Block.pll, h]

theorem Block.setPll_ck {b c : Block} (h : c.ck = b.ck) (p : Pll) (v : PllSt) : (c.setPll p v).ck = (b.setPll p v).ck := by
  cases p <;> simp only [Block.setPll, h]

/-- Of the clocks, a lane PLL's failure changes that PLL alone, and only one that was locked. -/
theorem Block.lanePllFail_ck (b : Block) (sd : Side) (refLost : Bool) :
    (b.lanePllFail sd refLost).ck =
      if (b.pll (sidePll sd)).lock then (b.setPll (sidePll sd) ((b.pll (sidePll sd)).fail b.ck.tide)).ck else b.ck := by
  unfold Block.lanePllFail
  extract_lets noted p failed down alarmed
  have note : noted.ck = b.ck := b.modSide_ck ..
  have pll : noted.pll p = b.pll p := Block.pll_congr note p
  have drop : down.ck = failed.ck := by
    rw [show down = if failed.pw.st = .frozen then failed else ((failed.dropSide sd).freshCaps).wakeWaiter sd from rfl]
    split
    · rfl
    · rw [Block.wakeWaiter_ck, Block.freshCaps_ck, Block.dropSide_ck]
  rw [pll]
  by_cases lock : (b.pll p).lock
  · rw [if_neg (by simp [lock]), if_pos lock, Block.checkOpen_ck, Block.event_ck, Block.orReg_ck, drop]
    simp only [failed, pll, note]
    exact Block.setPll_ck note ..
  · rw [if_pos lock, if_neg lock, note]

theorem Block.pll_setPll (b : Block) (p : Pll) (v : PllSt) : (b.setPll p v).pll p = v := by cases p <;> rfl

theorem Block.lanePllFail_unlocks (b : Block) (sd : Side) (refLost : Bool) : ((b.lanePllFail sd refLost).pll (sidePll sd)).lock = false := by
  by_cases lock : (b.pll (sidePll sd)).lock = true
  · have made := b.lanePllFail_ck sd refLost
    rw [if_pos lock] at made
    rw [Block.pll_congr made, Block.pll_setPll]; rfl
  · have same := b.lanePllFail_ck sd refLost
    rw [if_neg lock] at same
    rw [Block.pll_congr same]; simpa using lock

theorem Block.lanePllFail_other (b : Block) (sd : Side) (refLost : Bool) :
    (b.lanePllFail sd refLost).pll (sidePll (otherSide sd)) = b.pll (sidePll (otherSide sd)) := by
  by_cases lock : (b.pll (sidePll sd)).lock = true
  · have made := b.lanePllFail_ck sd refLost
    rw [if_pos lock] at made
    rw [Block.pll_congr made]; cases sd <;> rfl
  · have same := b.lanePllFail_ck sd refLost
    rw [if_neg lock] at same
    exact Block.pll_congr same _

theorem Block.lanePllFails_alarm {b : Block} {r : Rail} (h : b.railAlarm r) :
    ((b.lanePllFail .west false).lanePllFail .east false).railAlarm r := by
  have keep {c : Block} (sd : Side) (hc : c.railAlarm r) : (c.lanePllFail sd false).railAlarm r :=
    hc.keep ((c.lanePllFail_kept ..).out .pins (by simp [Piece.among])) (c.lanePllFail_steady ..)
  exact keep .east (keep .west h)

/-! ### Stack rails (R38) -/

/-- The stack's rails have failed, until PORST_N. -/
def Block.noStackRails (b : Block) : Block := { b with stk.railFault := true }

theorem Block.noStackRails_kept (b : Block) : Kept [.stk] b b.noStackRails := by
  apply Kept.of_fields (d := b.noStackRails) (Kept.refl _ b) (stk := .inr (List.mem_singleton.2 rfl)) <;> exact .inl rfl

theorem Block.noStackRails_calm (b : Block) : b.Calm b.noStackRails := .of_eq rfl rfl

theorem Block.stackRailFault_eq (b : Block) : b.stackRailFault = (b.fenceAll (fun _ => 0) (List.range 64)).noStackRails := by
  rw [Block.stackRailFault, Block.fenceRunning, Block.noStackRails]

theorem Block.stackRailFault_alarm {b : Block} {r : Rail} (h : b.railAlarm r) : b.stackRailFault.railAlarm r := by
  refine h.keep (b.stackRailFault_kept.out .pins (by simp [Piece.among])) ?_
  rw [Block.stackRailFault_eq]
  exact ((b.fenceAll_calm ..).trans (Block.noStackRails_calm _)).steady

theorem Block.stackRailFault_shut (b : Block) {n : Nat} (h : n < 64) : b.stackRailFault.shut n := by
  rw [Block.stackRailFault_eq]
  exact (Block.noStackRails_calm _).shut n (b.fenceAll_shut _ (List.mem_range.2 h))

theorem Block.noStackRails_railFault (b : Block) : b.noStackRails.stk.railFault = true := rfl

theorem Block.stackRailFault_railFault (b : Block) : b.stackRailFault.stk.railFault = true := by
  rw [Block.stackRailFault_eq, Block.noStackRails_railFault]

/-! ### VDD_CORE (R38, R346) -/

theorem Memory.read_cutBursts_other (m : List Host.Cell) (fresh : Nat) {gs : List Nat} {a : Nat} (h : ¬ a / symsPerGranule ∈ gs) :
    Memory.read (cutBursts m fresh gs) a = Memory.read m a := by
  induction gs generalizing m fresh with
  | nil => rfl
  | cons g gs ih =>
    obtain ⟨first, rest⟩ := not_or.1 (List.mem_cons.not.1 h)
    rw [cutBursts, ih _ _ rest, Memory.read_writeGranule_other _ _ _ _ first]

theorem Block.each_stk {f : Block → Nat → Block} (h : ∀ c n, (f c n).stk = c.stk) (b : Block) (ns : List Nat) : (b.each ns f).stk = b.stk :=
  Block.each_keeps (·.stk) f h b ns

theorem Block.srst_dman (b : Block) : b.srst.stk.dman = b.stk.dman := by
  unfold Block.srst
  dsimp only
  rw [Block.each_stk]
  exact fun c n => rfl

theorem Block.cutStackReset_dman (b : Block) : b.cutStackReset.stk.dman = b.stk.dman := by
  cases reset : b.stk.rst
  case stackHeld | stackTest => simp only [Block.cutStackReset, reset, Block.srst_dman]
  all_goals simp only [Block.cutStackReset, reset]

theorem Block.sleepChan_stk (b : Block) (n : Nat) : (b.sleepChan n).stk = b.stk := (b.sleepChan_kept n).out .stk (by simp [Piece.among])

theorem Block.dmanLow_dman (b : Block) : b.dmanLow.stk.dman = true := by
  unfold Block.dmanLow
  rw [Block.each_stk fun c n => ?_]
  split
  · rfl
  · exact c.sleepChan_stk n

theorem Block.gateCore_stk (b : Block) : b.gateCore.stk = b.stk := rfl

theorem Block.gateCore_coreGated (b : Block) : b.gateCore.ck.coreGated = true := rfl

theorem Block.coreDark_gated (b : Block) : b.coreDark.ck.coreGated = true := by rw [Block.coreDark_eq, Block.gateCore_coreGated]

theorem Block.coreDark_dman (b : Block) : b.coreDark.stk.dman = true := by
  rw [Block.coreDark_eq, Block.gateCore_stk, (Block.dropWaiters_kept ..).out .stk (by simp [Piece.among]), (Block.endRunning_kept ..).out .stk (by simp [Piece.among]),
    (Block.endScrub_kept ..).out .stk (by simp [Piece.among]), Block.cutStackReset_dman, Block.dmanLow_dman]

/-- Breakwater's move of AON and HK off a clock that still toggles sets their sources alone. -/
theorem Block.moveAonHk_toggling (b : Block) (bad : ClkSrc → Bool) (dst : ClkSrc) :
    let c := b.moveAonHk bad dst false false
    b.Calm c ∧ c.stk = b.stk ∧ c.ck.root = b.ck.root ∧ c.ck.coreGated = b.ck.coreGated := by
  simp only [Block.moveAonHk, Bool.and_false, Bool.false_eq_true, if_false]
  exact ⟨.of_eq rfl rfl, trivial, trivial, trivial⟩

/-- Breakwater's answer to a lost PLL_ROOT outside FROZEN, before its alarm (R346). -/
def Block.rootDark (b : Block) : Block :=
  (b.abortSwitches (· == ClkSrc.pllRoot)).coreDark.failRoot.moveAonHk (· == ClkSrc.pllRoot) .crystal false false

theorem Block.rootLost_running {b : Block} (lock : b.ck.root.lock = true) (runs : b.pw.st ≠ .frozen) :
    b.rootLost false false = ((b.rootDark.orReg Off.ckAlarm 1).event .rootLost).abandonDeparture :=
  (if_neg (by simp [lock])).trans (if_neg runs)

theorem Block.rootLost_frozen {b : Block} (lock : b.ck.root.lock = true) (frozen : b.pw.st = .frozen) :
    b.rootLost false false = (b.failRoot.orReg Off.ckAlarm 1).event .rootLost :=
  (if_neg (by simp [lock])).trans (if_pos frozen)

theorem Block.failRoot_calm (b : Block) : b.Calm b.failRoot := .of_eq rfl rfl

theorem Block.failRoot_lock (b : Block) : b.failRoot.ck.root.lock = false := rfl

theorem Block.failRoot_coreGated (b : Block) : b.failRoot.ck.coreGated = b.ck.coreGated := rfl

theorem Block.failRoot_stk (b : Block) : b.failRoot.stk = b.stk := rfl

theorem Block.rootDark_steady (b : Block) : b.Steady b.rootDark :=
  .after (Block.moveAonHk_toggling ..).1.steady (.after (Block.failRoot_calm _).steady (.after (Block.coreDark_steady _)
    (Block.abortSwitches_kept ..).steady))

theorem Block.rootDark_dark (b : Block) : b.rootDark.ck.root.lock = false ∧ b.rootDark.ck.coreGated = true ∧ b.rootDark.stk.dman = true := by
  obtain ⟨-, stk, root, gated⟩ :=
    Block.moveAonHk_toggling (b.abortSwitches (· == ClkSrc.pllRoot)).coreDark.failRoot (· == ClkSrc.pllRoot) .crystal
  rw [Block.rootDark, stk, root, gated, Block.failRoot_lock, Block.failRoot_coreGated, Block.failRoot_stk]
  exact ⟨rfl, Block.coreDark_gated _, Block.coreDark_dman _⟩

/-- An abandoned departure's alarm leaves the other bits of `PW_ALARM`. -/
theorem Block.abandonDeparture_alarm {b : Block} {i : Nat} (h : b.regBit Off.pwAlarm i = true) : b.abandonDeparture.regBit Off.pwAlarm i = true := by
  unfold Block.abandonDeparture
  split
  · change (b.orReg Off.pwAlarm 1).regBit Off.pwAlarm i = true
    rw [Block.regBit_orReg, h, Bool.true_or]
  · exact h

theorem Block.abandonDeparture_ck (b : Block) : b.abandonDeparture.ck = b.ck :=
  b.abandonDeparture_kept.ckEq (by simp [Piece.among]) (by simp [Piece.among])

theorem Block.abandonDeparture_stk (b : Block) : b.abandonDeparture.stk = b.stk := b.abandonDeparture_kept.out .stk (by simp [Piece.among])

theorem Block.rootLost_dark {b : Block} (lock : b.ck.root.lock = true) :
    (b.rootLost false false).ck.root.lock = false
      ∧ (b.pw.st ≠ .frozen → (b.rootLost false false).ck.coreGated = true ∧ (b.rootLost false false).stk.dman = true) := by
  by_cases frozen : b.pw.st = .frozen
  · rw [Block.rootLost_frozen lock frozen]
    simp [Block.failRoot_lock, frozen]
  · obtain ⟨root, gated, dman⟩ := b.rootDark_dark
    rw [Block.rootLost_running lock frozen]
    simp [Block.abandonDeparture_ck, Block.abandonDeparture_stk, root, gated, dman]

theorem Block.rootLost_alarm {b : Block} {r : Rail} (lock : b.ck.root.lock = true) (h : b.railAlarm r) : (b.rootLost false false).railAlarm r := by
  obtain ⟨low, bit, -⟩ := h
  have shown (c : Block) : c.Steady ((c.orReg Off.ckAlarm 1).event .rootLost) := ((c.orReg_calm _ (by simp)).trans (Block.event_calm ..)).steady
  refine Block.railAlarm_of ?_ ?_
  · rw [(Block.rootLost_kept ..).out .pins (by simp [Piece.among])]; exact low
  · by_cases frozen : b.pw.st = .frozen
    · rw [Block.rootLost_frozen lock frozen]
      exact (b.failRoot_calm.steady.trans (shown _)).regBit rfl bit
    · rw [Block.rootLost_running lock frozen]
      exact Block.abandonDeparture_alarm ((b.rootDark_steady.trans (shown _)).regBit rfl bit)

/-! ### DARK and scan (R38, R416) -/

theorem Block.railQuiet_dark {b : Block} (r : Rail) (dark : b.pw.st = .dark) : b.railQuiet r = b.railNoted r := by
  simp [Block.railQuiet, Block.railNoted, dark]

/-- Outside DARK a scan test lets a rail fault through to its alarm, and a stack rail's to the marks of what its channels held. -/
theorem Block.railQuiet_awake {b : Block} (r : Rail) (awake : b.pw.st ≠ .dark) : Kept [.stk, .berths] (b.railEvent r) (b.railQuiet r) := by
  unfold Block.railQuiet
  rw [if_neg awake]
  refine Kept.ite (Kept.each _ (fun c n h => Block.modBerth_keeps (Within.single (.inl (by simp))) h) ?_) (Kept.refl ..)
  exact (Block.noStackRails_kept _).mono (Within.of rfl)

theorem Block.armed_dark {b : Block} (dark : b.pw.st = .dark) : b.armed = false := by simp [Block.armed, dark]

/-- Settles O15: each rail's answer is the alarm of `railEvent`, and what fails behind the rail leaves that alarm. -/
theorem railFaults : Obligations.RailFaults := by
  unfold Obligations.RailFaults
  refine ⟨fun s armed => ?io, fun s r armed lane => ?lane, fun s r armed stack => ?stack, fun s armed lock => ?core,
    fun s armed lock => ?unlocked, fun s r unarmed awake aon => ?scan, fun s r dark aon => ?dark, fun s => rfl, fun s r => ?recovery⟩
  case io =>
    exact does_upd_eq (exec_railUv_io armed) s.blk.railEvent_io (s.blk.railShown_kept .io) (s.blk.railShown_alarm .io)
  case lane =>
    obtain ⟨low, bit, alert⟩ := Block.lanePllFails_alarm (s.blk.railEvent_alarm r)
    refine does_upd (exec_railUv_lane armed lane) (Block.lanePllFail_keeps (Within.of rfl) (Block.lanePllFail_keeps (Within.of rfl)
      ((s.blk.railEvent_kept r).mono (Within.of rfl)))) ⟨low, ?_, Block.lanePllFail_unlocks _ .east false, bit, alert⟩
    exact (congrArg (·.lock) (Block.lanePllFail_other _ .east false)).trans (Block.lanePllFail_unlocks _ .west false)
  case stack =>
    refine does_framed (exec_railUv_stack armed stack) (execRailUv_kept r ·) Within.refl ?_
    obtain ⟨low, bit, alert⟩ := Block.stackRailFault_alarm (s.blk.railEvent_alarm r)
    exact ⟨low, Block.stackRailFault_railFault _, bit, alert, fun n h => Block.stackRailFault_shut _ h⟩
  case core =>
    have locked : (s.blk.drawCut.railEvent .core).ck.root.lock = true := by rw [Block.railEvent_ck]; exact lock
    have made := exec_railUv_core armed lock
    obtain ⟨low, bit, alert⟩ := Block.rootLost_alarm locked (s.blk.drawCut.railEvent_alarm .core)
    obtain ⟨root, dark⟩ := Block.rootLost_dark locked
    rw [Block.railEvent_st] at dark
    exact ⟨_, made, rfl, fun a outside => Memory.read_cutBursts_other _ _ outside, execRailUv_kept _ made, low, root, dark, bit, alert⟩
  case unlocked =>
    exact does_upd (exec_railUv_core_unlocked armed lock) ((s.blk.railEvent_kept .core).mono (Within.of rfl)) (s.blk.railEvent_alarm .core)
  case scan =>
    have quiet := s.blk.railQuiet_awake r awake
    exact does_upd (exec_railUv_quiet unarmed aon) ((s.blk.railQuiet_kept r).mono (Within.of rfl))
      ((s.blk.railEvent_alarm r).keep (quiet.out .pins (by simp [Piece.among])) (quiet.steady))
  case dark =>
    exact does_upd_eq (exec_railUv_quiet (Block.armed_dark dark) aon) (Block.railQuiet_dark r dark) (s.blk.railNoted_kept r) (s.blk.railNoted_low r)
  case recovery => exact does_upd (f := fun b => { b with pins.railsLow := b.pins.railsLow.filter (· != r) }) rfl (Kept.pins ..) rfl

end Sys2Proof.Machine
end

section
/-! SUPPORT. Locks and re-locks of the PLLs: the registers of a domain that is reset, the restart, the attempts. -/

namespace Sys2Proof.Machine

open Sys2Proof

/-! ### Registers whose domain is reset (R351, R443) -/

theorem tget_filter_keys {α : Type} (d : Nat → α) (t : Tbl α) (p : Nat → Bool) (k : Nat) :
    tget d (t.filter fun e => !p e.1) k = if p k then d k else tget d t k := by
  induction t with
  | nil => simp [tget]
  | cons e t ih =>
    obtain ⟨i, v⟩ := e
    by_cases key : i = k
    · subst key
      cases held : p i <;> simp [held, tget, ih]
    · cases held : p i <;> simp [held, tget, ih, key]

theorem Block.resetRegs_reg (b : Block) (p : Nat → Bool) (o : Nat) : (b.resetRegs p).reg o = if p o then csrReset o else b.reg o :=
  tget_filter_keys csrReset b.csr p o

theorem Block.domsReset_reg (b : Block) (p : Nat → Bool) (o : Nat) :
    (b.domsReset p).reg o = if heldIn p o then csrReset o else b.reg o := by
  have links : ((b.resetRegs (heldIn p)).linksReset p).csr = (b.resetRegs (heldIn p)).csr :=
    (Block.linksReset_kept ..).out .regs (by simp [Piece.among])
  have csr : (b.domsReset p).csr = (b.resetRegs (heldIn p)).csr := by
    unfold Block.domsReset
    generalize (b.resetRegs (heldIn p)).linksReset p = c at links ⊢
    rw [← links]
    dsimp only
    split <;> rfl
  rw [← b.resetRegs_reg, Block.reg, csr, Block.reg]

theorem holder_lnAlarmEn : ∀ l : LaneId, holder (lnOff Off.lnAlarmEn l) = some (quadDom l) := by decide

theorem csrReset_lnAlarmEn : ∀ l : LaneId, csrReset (lnOff Off.lnAlarmEn l) = 0 := by decide

theorem restartResets_quad : ∀ l : LaneId, restartResets (quadDom l) = true := by decide

theorem sideQuad_quad : ∀ (sd : Side) (l : LaneId), sideQuad sd (quadDom l) = decide (laneSide l = sd) := by
  rintro (_ | _) <;> decide

theorem Block.domsReset_lnAlarmEn (b : Block) (p : Nat → Bool) (l : LaneId) :
    (b.domsReset p).reg (lnOff Off.lnAlarmEn l) = if p (quadDom l) then 0 else b.reg (lnOff Off.lnAlarmEn l) := by
  rw [Block.domsReset_reg, heldIn, holder_lnAlarmEn, csrReset_lnAlarmEn]

/-! ### The restart (R351) -/

/-- AON, HK and the tide counter back on PLL_ROOT, and CLK_CORE running. -/
def Block.clocksBack (b : Block) : Block :=
  { b with ck.aonSrc := if b.ck.aonMoved then .pllRoot else b.ck.aonSrc
           ck.hkSrc := if b.ck.hkMoved then .pllRoot else b.ck.hkSrc
           ck.aonMoved := false, ck.hkMoved := false, ck.tideSrc := .pllRoot, ck.coreGated := false }

/-- The restart up to the memory side's return: the domains that were gated hold their reset values. -/
def Block.restartDoms (b : Block) : Block := (b.clocksBack.resetMemory.domsReset restartResets).orReg Off.ckResetCause 16

theorem Block.restart_eq (b : Block) (pass lost : BitVec 64) (flight : List (Nat × Nat)) :
    b.restart pass lost flight = ((b.restartDoms.restoreMemory pass lost flight).linkUp .west).linkUp .east := rfl

theorem Block.domsReset_ck (b : Block) (p : Nat → Bool) : (b.domsReset p).ck = b.ck :=
  (b.domsReset_kept p).ckEq (by simp [Piece.among]) (by simp [Piece.among])

theorem Block.linkUp_ck (b : Block) (sd : Side) : (b.linkUp sd).ck = b.ck :=
  (b.linkUp_kept sd).ckEq (by simp [Piece.among]) (by simp [Piece.among])

theorem Block.restartDoms_ck (b : Block) : b.restartDoms.ck = b.clocksBack.ck := by
  rw [Block.restartDoms, Block.orReg_ck, Block.domsReset_ck]
  exact (Block.resetMemory_kept _).ckEq (by simp [Piece.among]) (by simp [Piece.among])

section
variable (b : Block) (pass lost : BitVec 64) (flight : List (Nat × Nat))

theorem Block.restart_ck : (b.restart pass lost flight).ck = b.clocksBack.ck := by
  rw [Block.restart_eq, Block.linkUp_ck, Block.linkUp_ck, ← b.restartDoms_ck]
  exact (Block.restoreMemory_kept ..).ckEq (by simp [Piece.among]) (by simp [Piece.among])

theorem Block.restart_steady : b.restartDoms.Steady (b.restart pass lost flight) := by
  rw [Block.restart_eq]
  exact .after (Block.linkUp_steady _ .east) (.after (Block.linkUp_steady _ .west) (Block.restoreMemory_steady ..))

theorem Block.restart_cause : (b.restart pass lost flight).regBit Off.ckResetCause 4 = true := by
  refine (b.restart_steady pass lost flight).regBit rfl ?_
  rw [Block.restartDoms, Block.regBit_orReg]
  simp

theorem Block.restart_lnAlarmEn (l : LaneId) : (b.restart pass lost flight).reg (lnOff Off.lnAlarmEn l) = 0 := by
  have cause : lnOff Off.lnAlarmEn l ≠ Off.ckResetCause := by revert l; decide
  rw [(b.restart_steady pass lost flight).reg _ (steadyOff_lnAlarmEn l), Block.restartDoms, Block.orReg, Block.reg_setReg_other _ _ cause,
    Block.domsReset_lnAlarmEn, if_pos (restartResets_quad l)]

end

/-! ### RECOVER's answer (R352) -/

theorem Block.recoverDone_ck (b : Block) : b.recoverDone.ck = { b.ck with recover := none } := by
  unfold Block.recoverDone
  split
  case h_1 idle => rw [← idle]
  case h_2 =>
    dsimp only
    split
    · exact Block.finish_ck ..
    · split
      · exact Block.finish_ck ..
      · exact Block.finish_ck ..

theorem Block.recoverDone_pll (b : Block) (p : Pll) : b.recoverDone.pll p = b.pll p := by
  cases p <;> simp only [Block.pll, Block.recoverDone_ck]

theorem Block.recoverDone_reg (b : Block) (o : Nat) : b.recoverDone.reg o = b.reg o :=
  b.recoverDone_kept.out (.reg o) (by simp [Piece.among])

/-! ### The first lock and the attempts (R336, R350) -/

section
variable {s : State} {sd : Side} {p : Pll}

theorem Block.side_modSide (b : Block) (sd : Side) (f : SideSt → SideSt) : (b.modSide sd f).side sd = f (b.side sd) := by cases sd <;> rfl

theorem referencePresent_awake (awake : s.blk.pw.st ≠ .dark) :
    Does (.referencePresent sd) s [.side sd] fun b => b.side sd = { s.blk.side sd with refPresent := true } :=
  have e := execReferencePresent.eq_def sd s
  does_upd_eq (i := .referencePresent sd) e (if_neg awake) (Block.modSide_kept ..) (Block.side_modSide ..)

/-- A link-up leaves the clocks, and so a PLL that has just been set. -/
theorem Block.linkUp_setPll (b : Block) (v : PllSt) : ((b.setPll p v).linkUp sd).pll p = v := by
  rw [Block.pll_congr (Block.linkUp_ck ..), Block.pll_setPll]

theorem lanePllLock_ready (live : s.blk.live = true) (on : s.blk.domOn (ckDom sd) = true) (ref : (s.blk.side sd).refPresent = true)
    (rails : s.blk.laneRails = true) (unlocked : (s.blk.pll (sidePll sd)).lock = false) (up : (s.blk.pll (sidePll sd)).down = false) :
    Does (.lanePllLock sd) s [.ck, .events, .lanes, .regs, .sides] fun b => b.pll (sidePll sd) = { s.blk.pll (sidePll sd) with lock := true } := by
  refine does_upd_eq (i := .lanePllLock sd) rfl (if_pos ⟨live, on, ref, rails, by simp [unlocked], by simp [up]⟩) ?_ (Block.linkUp_setPll ..)
  exact Block.linkUp_keeps (Within.of rfl) ((Block.setPll_kept ..).mono (Within.of rfl))

theorem relockAttempt_due (live : s.blk.live = true) (down : (s.blk.pll p).down = true) (idle : (s.blk.pll p).attempt = false)
    (going : (s.blk.pll p).gaveUp = false) (tries : (s.blk.pll p).tries < 3) (fed : s.blk.pllFed p = true)
    (asked : s.blk.regBit Off.ckCtrl 0 = true ∨ (s.blk.pll p).forced = true) (due : s.blk.passed 0 (s.blk.pll p).next = true) :
    Does (.relockAttempt p) s [.ck] fun b =>
      b.pll p = { s.blk.pll p with attempt := true, began := s.blk.ck.tide, tries := (s.blk.pll p).tries + 1 } :=
  does_upd_eq (i := .relockAttempt p) rfl (if_pos ⟨live, down, by simp [idle], by simp [going], tries, fed, asked, due⟩) (Block.setPll_kept ..)
    (Block.pll_setPll ..)

theorem relockAttemptFail_again (live : s.blk.live = true) (runs : (s.blk.pll p).attempt = true) (tries : (s.blk.pll p).tries < 3)
    (past : lockTicks p ≤ s.blk.since (s.blk.pll p).began) :
    Does (.relockAttemptFail p) s [.ck] fun b =>
      b.pll p = { s.blk.pll p with attempt := false, next := s.blk.ck.tide + BitVec.ofNat 64 (10 * usTicks) } :=
  have e := execRelockAttemptFail.eq_def p s
  does_upd_eq (i := .relockAttemptFail p) e ((if_neg (by simp [live, runs, past])).trans (if_pos tries)) (Block.setPll_kept ..)
    (Block.pll_setPll ..)

/-- The PLL given up after its third attempt, with its alarm. -/
def Block.givesUp (b : Block) (p : Pll) : Block :=
  ((b.setPll p { b.pll p with attempt := false, gaveUp := true, forced := false }).orReg Off.ckAlarm 64).event .relockFail (pllNo p)

theorem Block.givesUp_pll (b : Block) (p : Pll) : (b.givesUp p).pll p = { b.pll p with attempt := false, gaveUp := true, forced := false } := by
  rw [Block.givesUp, Block.pll_congr (Block.event_ck ..), Block.pll_congr (Block.orReg_ck ..), Block.pll_setPll]

theorem Block.givesUp_alarm (b : Block) (p : Pll) : (b.givesUp p).regBit Off.ckAlarm 6 = true := by
  rw [Block.givesUp, Block.regBit, (Block.event_kept ..).out (.reg Off.ckAlarm) (by simp [Piece.among, Off.ckAlarm, Off.lgAlarm]), ← Block.regBit,
    Block.regBit_orReg]
  simp

theorem Block.givesUp_kept (b : Block) (p : Pll) :
    Kept [.ck, .events, .fresh, .ins, .reg Off.ckAlarm, .reg Off.lgAlarm, .running, .slots] b (b.givesUp p) :=
  Block.event_keeps (Within.of rfl) (Block.orReg_keeps (Within.of rfl) ((Block.setPll_kept ..).mono (Within.of rfl)))

theorem relockAttemptFail_third (live : s.blk.live = true) (runs : (s.blk.pll p).attempt = true) (tries : 3 ≤ (s.blk.pll p).tries)
    (past : lockTicks p ≤ s.blk.since (s.blk.pll p).began) :
    Does (.relockAttemptFail p) s [.ck, .events, .fresh, .ins, .reg Off.ckAlarm, .reg Off.lgAlarm, .running, .slots] fun b =>
      (b.pll p).attempt = false ∧ (b.pll p).gaveUp = true ∧ (b.pll p).lock = (s.blk.pll p).lock ∧ b.regBit Off.ckAlarm 6 = true := by
  have e := execRelockAttemptFail.eq_def p s
  have ends : ¬ (¬ s.blk.live = true ∨ ¬ (s.blk.pll p).attempt = true ∨ s.blk.since (s.blk.pll p).began < lockTicks p) := by
    simp [live, runs, past]
  have last : ¬ (s.blk.pll p).tries < 3 := Nat.not_lt.2 tries
  have pll := s.blk.givesUp_pll p
  have alarm := s.blk.givesUp_alarm p
  by_cases root : p = .root
  · refine does_upd_eq (c := (s.blk.givesUp p).recoverDone) e ((if_neg ends).trans ((if_neg last).trans (if_pos root)))
      (Block.recoverDone_keeps (Within.of rfl) (Block.givesUp_kept ..)) ?_
    rw [Block.recoverDone_pll, pll, Block.regBit, Block.recoverDone_reg]
    exact ⟨rfl, rfl, rfl, alarm⟩
  · refine does_upd_eq (c := s.blk.givesUp p) e ((if_neg ends).trans ((if_neg last).trans (if_neg root))) (Block.givesUp_kept ..) ?_
    rw [pll]
    exact ⟨rfl, rfl, rfl, alarm⟩

end

/-! ### Success (R351) -/

/-- What the success of a re-lock can change. -/
abbrev relockFrame : List Piece :=
  [.berths, .chans, .chs, .ck, .cnt, .cols, .events, .fresh, .fws, .hold, .ins, .lanes, .mf, .prot, .pw, .qy, .regs, .running, .sel, .sides,
   .slots, .stk, .tl]

/-- The PLL locked after an attempt. -/
def Block.relocked (b : Block) (p : Pll) : Block :=
  b.setPll p { b.pll p with lock := true, down := false, attempt := false, forced := false, lastGood := some b.ck.tide }

theorem Block.relocked_kept (b : Block) (p : Pll) : Kept [.ck] b (b.relocked p) := Block.setPll_kept ..

theorem Block.relocked_reg (b : Block) (p : Pll) (o : Nat) : (b.relocked p).reg o = b.reg o :=
  (b.relocked_kept p).out (.reg o) (by simp [Piece.among])

theorem Block.relocked_pll (b : Block) (p : Pll) : (b.relocked p).pll p =
    { b.pll p with lock := true, down := false, attempt := false, forced := false, lastGood := some b.ck.tide } := Block.pll_setPll ..

section
variable {s : State} {pass lost : BitVec 64} {flight : List (Nat × Nat)}

theorem relockSuccess_root (live : s.blk.live = true) (runs : s.blk.ck.root.attempt = true)
    (held : 10 * usTicks ≤ s.blk.since s.blk.ck.root.began) :
    Does (.relockSuccess .root pass lost flight) s relockFrame fun b =>
      b.ck.root.lock = true ∧ b.ck.root.down = false ∧ b.ck.coreGated = false ∧ b.ck.tideSrc = .pllRoot ∧ b.regBit Off.ckResetCause 4 = true
        ∧ b.ck.recover = none ∧ ∀ l : LaneId, b.reg (lnOff Off.lnAlarmEn l) = 0 := by
  have e := execRelockSuccess.eq_def .root pass lost flight s
  refine does_upd_eq (c := ((s.blk.relocked .root).restart pass lost flight).recoverDone) e
    (if_neg (by simp [Block.pll, live, runs, held])) ?_ ?_
  · exact Block.recoverDone_keeps (Within.of rfl) (Block.restart_keeps (Within.of rfl) ((Block.relocked_kept ..).mono (Within.of rfl)))
  · simp only [Block.regBit, Block.recoverDone_reg, Block.recoverDone_ck, Block.restart_ck]
    exact ⟨rfl, rfl, rfl, rfl, Block.restart_cause .., trivial, Block.restart_lnAlarmEn _ pass lost flight⟩

theorem relockSuccess_side {sd : Side} (live : s.blk.live = true) (runs : (s.blk.pll (sidePll sd)).attempt = true)
    (held : 10 * usTicks ≤ s.blk.since (s.blk.pll (sidePll sd)).began) :
    Does (.relockSuccess (sidePll sd) pass lost flight) s relockFrame fun b =>
      (b.pll (sidePll sd)).lock = true ∧ (b.pll (sidePll sd)).down = false ∧ b.ck.root = s.blk.ck.root
        ∧ ∀ l : LaneId, b.reg (lnOff Off.lnAlarmEn l) = if laneSide l = sd then 0 else s.blk.reg (lnOff Off.lnAlarmEn l) := by
  have e := execRelockSuccess.eq_def (sidePll sd) pass lost flight s
  refine does_upd_eq (c := ((s.blk.relocked (sidePll sd)).domsReset (sideQuad sd)).linkUp sd) e ?made ?frame ?post
  case made => cases sd <;> exact if_neg (by simp [live, runs, held])
  case frame => exact Block.linkUp_keeps (Within.of rfl) (Block.domsReset_keeps (Within.of rfl) ((Block.relocked_kept ..).mono (Within.of rfl)))
  case post =>
    have ck : (((s.blk.relocked (sidePll sd)).domsReset (sideQuad sd)).linkUp sd).ck = (s.blk.relocked (sidePll sd)).ck := by
      rw [Block.linkUp_ck, Block.domsReset_ck]
    rw [Block.pll_congr ck, Block.relocked_pll, ck]
    refine ⟨rfl, rfl, by cases sd <;> rfl, fun l => ?_⟩
    rw [(Block.linkUp_steady _ sd).reg _ (steadyOff_lnAlarmEn l), Block.domsReset_lnAlarmEn, sideQuad_quad, Block.relocked_reg]
    simp only [decide_eq_true_eq]

end

/-- Settles O16: a lock or an attempt is one update of its PLL; a success resets the domains of `domsReset`, and what follows it
leaves the steady registers, LN_ALARM_EN among them. -/
theorem locksAndRelocks : Obligations.LocksAndRelocks := by
  unfold Obligations.LocksAndRelocks
  exact ⟨fun s sd => referencePresent_awake, fun s sd => lanePllLock_ready, fun s p => relockAttempt_due,
    fun s pass lost flight => relockSuccess_root, fun s sd pass lost flight => relockSuccess_side, fun s p => relockAttemptFail_again,
    fun s p => relockAttemptFail_third⟩

end Sys2Proof.Machine
end

section
/-! SUPPORT. Lanes, sides, registers and counters read back after an update of one of them. -/

namespace Sys2Proof.Machine

open Sys2Proof

section
variable (b : Block) (l k : Nat) (sd : Side) (f : Lane → Lane) (g : SideSt → SideSt) (o n : Nat) (v : Word)

theorem Block.lane_modLane : (b.modLane l f).lane k = if l = k then f (b.lane l) else b.lane k := tget_tset ..

@[simp] theorem Block.lane_modLane_same : (b.modLane l f).lane l = f (b.lane l) := tget_tset_same ..

@[simp] theorem Block.lane_modSide : (b.modSide sd g).lane k = b.lane k := by cases sd <;> rfl

@[simp] theorem Block.lane_setReg : (b.setReg o v).lane k = b.lane k := rfl

@[simp] theorem Block.lane_orReg : (b.orReg o v).lane k = b.lane k := rfl

@[simp] theorem Block.lane_setCount : (b.setCount o n).lane k = b.lane k := rfl

@[simp] theorem Block.lane_clrReg : (b.clrReg o v).lane k = b.lane k := rfl

@[simp] theorem Block.side_modSide_same : (b.modSide sd g).side sd = g (b.side sd) := b.side_modSide sd g

@[simp] theorem Block.side_modLane : (b.modLane l f).side sd = b.side sd := by cases sd <;> rfl

@[simp] theorem Block.side_setReg : (b.setReg o v).side sd = b.side sd := by cases sd <;> rfl

@[simp] theorem Block.side_orReg : (b.orReg o v).side sd = b.side sd := by cases sd <;> rfl

@[simp] theorem Block.reg_modSide : (b.modSide sd g).reg k = b.reg k := by cases sd <;> rfl

@[simp] theorem Block.count_modLane : (b.modLane l f).count o = b.count o := rfl

theorem Block.count_setCount : (b.setCount o n).count k = if o = k then n else b.count k := tget_tset ..

@[simp] theorem Block.count_setCount_same : (b.setCount o n).count o = n := tget_tset_same ..

end

/-! ### Commands that change one lane or one side -/

section
variable {i : Instr} {s : State} {f : Block → Block} {post : Block → Prop}

/-- A command that changes one lane alone. -/
theorem does_modLane {l : Nat} {g : Lane → Lane} (e : exec i s = s.upd f) (made : f s.blk = s.blk.modLane l g)
    (h : post (s.blk.modLane l g)) :
    Does i s [.lane l] post :=
  does_upd_eq e made (Block.modLane_kept ..) h

/-- A command that turns one lane into `x`. -/
theorem does_lane {l : Nat} {g : Lane → Lane} {x : Lane} (e : exec i s = s.upd f) (made : f s.blk = s.blk.modLane l g) (h : g (s.blk.lane l) = x) :
    Does i s [.lane l] fun b => b.lane l = x :=
  does_modLane e made ((Block.lane_modLane_same ..).trans h)

/-- A command that changes one lane twice, into `x`. -/
theorem does_lane_twice {l : Nat} {g h : Lane → Lane} {x : Lane} (e : exec i s = s.upd f) (made : f s.blk = (s.blk.modLane l g).modLane l h)
    (hx : h (g (s.blk.lane l)) = x) : Does i s [.lane l] fun b => b.lane l = x :=
  does_upd_eq e made (Kept.step (Block.modLane_kept ..) .refl (Block.modLane_kept ..)) (by rw [Block.lane_modLane_same, Block.lane_modLane_same, hx])

/-- A command that changes one side alone. -/
theorem does_modSide {sd : Side} {g : SideSt → SideSt} (e : exec i s = s.upd f) (made : f s.blk = s.blk.modSide sd g)
    (h : post (s.blk.modSide sd g)) :
    Does i s [.side sd] post :=
  does_upd_eq e made (Block.modSide_kept ..) h

end

end Sys2Proof.Machine
end

section
/-! SUPPORT. A checker that PRBS_RX_EN starts afresh. -/

namespace Sys2Proof.Machine

open Sys2Proof

/-- A pier in HARBOUR whose lane 0 holds what its checker had counted before RX_EN was cleared. -/
def idleChecker : State :=
  { State.reset with
    blk := { State.reset.blk with pw.st := .harbour, pw.doms := [(quadDom 0, { st := .on })], lanes := [(0, { chk := { run := 5 } })] } }

/-- PRBS_RX_EN with RX_EN = 1 begins the checker anew: it forgets its run too (log 32). -/
theorem idleChecker_restarts : (idleChecker.blk.writeOn .jtag (lnOff Off.lnPrbsCtrl 0) 0x10).lane 0 = { chk := {} } := by decide +kernel

/-- Refutes O57: its eighth clause has a change of RX_EN clear the lane's PRBS sync alone, in every state, and the write also
begins the checker's hunt from nothing, so a lane that holds a run of 5 bits loses it. -/
theorem not_laneRegisters : ¬ Obligations.LaneRegisters := by
  intro h
  obtain ⟨-, -, -, -, -, -, -, starts, -⟩ := h
  obtain ⟨t, e, -, -, -, -, lane⟩ := starts idleChecker .jtag 0 0x10 (by decide +kernel) (by decide +kernel) rfl rfl (by decide) (by decide)
  have made : exec (.prbsRxEn .jtag 0 0x10) idleChecker = .next _ := execPrbsRxEn.eq_def .jtag 0 0x10 idleChecker
  rw [made] at e
  cases e
  have kept := lane (by decide +kernel)
  have run : (0 : Nat) = 5 := congrArg (·.chk.run) (idleChecker_restarts.symm.trans kept)
  exact absurd run (by decide)

end Sys2Proof.Machine
end

section
/-! SUPPORT. Writes of LN_CTRL and LN_PRBS_CTRL that clear a lane's counters (R80), and what a lane that goes OFF counts. -/

namespace Sys2Proof.Machine

open Sys2Proof

/-! ### Where a lane's control registers lie (R86, R451) -/

/-- LN_CTRL and LN_PRBS_CTRL of a lane: their set, their domain, and the bits that are stored. -/
theorem laneCtrl_place : ∀ l : LaneId, ∀ o ∈ [Off.lnCtrl, Off.lnPrbsCtrl],
    lnOff o l / 4 * 4 = lnOff o l ∧ holder (lnOff o l) = some (quadDom l) ∧ (lnOff o l / 0x10000 = 4 ∨ lnOff o l / 0x10000 = 5)
      ∧ lnOff o l % 0x10000 < 0x4000
      ∧ laneOf (if lnOff o l / 0x10000 = 4 then .west else .east) (lnOff o l % 0x10000 / 0x400) = l
      ∧ lnOff o l % 0x10000 % 0x400 = o % 0x400 := by decide

theorem regAt_lnCtrl :
    ∀ l : LaneId, (regAt (lnOff Off.lnCtrl l)).map (fun r => (r.rw, r.rwl, r.w1c, r.rc, r.banked)) = some (0x1F, 0, 0, 0, false) := by
  decide

theorem regAt_lnPrbsCtrl :
    ∀ l : LaneId, (regAt (lnOff Off.lnPrbsCtrl l)).map (fun r => (r.rw, r.rwl, r.w1c, r.rc, r.banked)) = some (0x77, 0, 0, 0, false) := by
  decide

theorem merge_same {mask old v : Word} (same : v &&& mask = old &&& mask) : merge mask old v = old := by
  ext i hi
  have bit := congrArg (·[i]) same
  simp only [BitVec.getElem_and] at bit
  rw [merge_getElem _ _ _ hi]
  split
  · next on => simpa [on] using bit
  · rfl

/-- A word that holds another's bits under a mask, and a bit outside it. -/
theorem or_and_mask {old mask x : Word} (apart : x &&& mask = 0) : (old &&& mask ||| x) &&& mask = old &&& mask := by
  rw [BitVec.and_or_distrib_right, apart, BitVec.and_assoc, BitVec.and_self]
  exact BitVec.or_zero

section
variable {b : Block} {p : Path} {l : LaneId} {o : Nat}

theorem Block.csrWrite_laneCtrl (v : Word) (ho : o ∈ [Off.lnCtrl, Off.lnPrbsCtrl]) (on : b.domOn (quadDom l) = true) :
    b.csrWrite p (lnOff o l) v = b.writeLane p l (o % 0x400) v := by
  obtain ⟨aligned, dom, block, low, lane, rel⟩ := laneCtrl_place l o ho
  have reach : b.reachable (lnOff o l) = true := by rw [Block.reachable, dom]; exact on
  have write : b.csrWrite p (lnOff o l) v = b.writeLN p (lnOff o l) v := by
    rcases block with block | block <;> simp only [Block.csrWrite, aligned, reach, block, not_true, if_false]
  rw [write, Block.writeLN]
  simp only [low, if_true]
  rw [lane, rel]

theorem Block.csrWrite_laneCtrl_off (v : Word) (ho : o ∈ [Off.lnCtrl, Off.lnPrbsCtrl]) (off : b.domOn (quadDom l) = false) :
    b.csrWrite p (lnOff o l) v = b := by
  obtain ⟨aligned, dom, -⟩ := laneCtrl_place l o ho
  refine Block.csrWrite_unreachable v ?_
  rw [aligned, Block.reachable, dom]
  exact off

/-- A row that sets one bit beside the stored fields of a lane's control register, where the path is served and the quad is ON. -/
theorem Block.writeBits_laneCtrl (v : Word) (ho : o ∈ [Off.lnCtrl, Off.lnPrbsCtrl]) (serves : b.serves p = true) (on : b.domOn (quadDom l) = true) :
    b.writeBits p (lnOff o l) v = b.writeLane p l (o % 0x400) (b.stored p (lnOff o l) ||| v) := by
  rw [Block.writeBits, Block.writeOn_served _ _ serves, Block.csrWrite_laneCtrl _ ho on]

theorem Block.writeBits_laneCtrl_idle (v : Word) (ho : o ∈ [Off.lnCtrl, Off.lnPrbsCtrl]) (h : (b.serves p && b.domOn (quadDom l)) = false) :
    b.writeBits p (lnOff o l) v = b := by
  rw [Block.writeBits, Block.writeOn]
  split
  case isTrue serves => exact Block.csrWrite_laneCtrl_off _ ho (by simpa [serves] using h)
  case isFalse => rfl

/-- What a control register of `mask` stores shows under that mask. -/
theorem Block.stored_of_regAt {mask : Word} (h : (regAt o).map (fun r => (r.rw, r.rwl, r.w1c, r.rc, r.banked)) = some (mask, 0, 0, 0, false)) :
    b.stored p o = b.reg o &&& mask := by
  obtain ⟨r, at_, fields⟩ := Option.map_eq_some_iff.mp h
  simp only [Prod.mk.injEq] at fields
  obtain ⟨rw', rwl, w1c, rc, banked⟩ := fields
  simp only [Block.stored, at_, Reg.mask, rw', rwl, w1c, rc, banked]
  simp

/-- A write that gives every stored bit as it stands leaves the register. -/
theorem Block.putReg_stored_same {mask v : Word} (open_ : Word)
    (h : (regAt o).map (fun r => (r.rw, r.rwl, r.w1c, r.rc, r.banked)) = some (mask, 0, 0, 0, false)) (same : v &&& mask = b.reg o &&& mask) :
    b.putReg o v open_ = b.setReg o (b.reg o) := by
  obtain ⟨r, at_, fields⟩ := Option.map_eq_some_iff.mp h
  simp only [Prod.mk.injEq] at fields
  obtain ⟨rfl, rwl, w1c, -, -⟩ := fields
  have opened : v &&& ((r.rw ||| r.rwl) &&& open_) = b.reg o &&& ((r.rw ||| r.rwl) &&& open_) := by
    have writable : r.rw ||| r.rwl = r.rw := by rw [rwl]; exact BitVec.or_zero
    rw [writable, ← BitVec.and_assoc, ← BitVec.and_assoc, same]
  rw [Block.putReg_unclearing _ _ _ at_ w1c, merge_same opened]

end

/-! ### Counters cleared together (R80) -/

theorem Block.each_setCount (b : Block) (g : Nat → Nat) (ns : List Nat) (o : Nat) :
    (b.each ns fun b i => b.setCount (g i) 0).count o = if o ∈ ns.map g then 0 else b.count o := by
  rw [Block.each]
  induction ns generalizing b with
  | nil => rfl
  | cons n ns ih =>
    rw [List.foldl_cons, ih, Block.count_setCount, List.map_cons]
    by_cases rest : o ∈ ns.map g
    · rw [if_pos rest, if_pos (List.mem_cons_of_mem _ rest)]
    · simp only [rest, if_false, List.mem_cons, or_false, eq_comm]

theorem Block.clearLane_count (b : Block) (l o : Nat) : (b.clearLane l).count o =
    if o ∈ (List.range 17).map (fun i => lnOff Off.lnFecHist0 l + 4 * i) then 0 else if lnOff Off.lnSymErrLo l = o then 0 else b.count o := by
  rw [Block.clearLane, Block.each_setCount, Block.count_setCount]

@[simp] theorem Block.clearLane_symErr (b : Block) (l : Nat) : (b.clearLane l).count (lnOff Off.lnSymErrLo l) = 0 := by
  rw [Block.clearLane_count, if_pos rfl, ite_self]

@[simp] theorem Block.clearLane_bin (b : Block) (l : Nat) (i : Fin 17) : (b.clearLane l).count (lnOff Off.lnFecHist0 l + 4 * i) = 0 := by
  rw [Block.clearLane_count]
  exact if_pos (List.mem_map.mpr ⟨i.val, List.mem_range.mpr i.isLt, rfl⟩)

/-- The counters that LN_CNT_CLR clears. -/
def clearedCounts (l : Nat) : List Piece :=
  .count (lnOff Off.lnSymErrLo l) :: (List.range 17).map fun i => .count (lnOff Off.lnFecHist0 l + 4 * i)

theorem Block.clearLane_lane (b : Block) (l k : Nat) : (b.clearLane l).lane k = b.lane k :=
  (b.clearLane_kept l).out (.lane k) (by simp [Piece.among])

theorem Block.clearLane_reg (b : Block) (l o : Nat) : (b.clearLane l).reg o = b.reg o :=
  (b.clearLane_kept l).out (.reg o) (by simp [Piece.among])

theorem Block.clearLane_counts (b : Block) (l : Nat) : Kept (clearedCounts l) b (b.clearLane l) := by
  refine ⟨fun q out => ?_⟩
  cases q
  case count o =>
    simp only [clearedCounts, Piece.among, List.mem_cons, List.mem_map, List.mem_range, reduceCtorEq, and_false, exists_false, or_false, false_or,
      Piece.count.injEq, not_or, not_exists, not_and] at out
    obtain ⟨err, bins⟩ := out
    rw [Piece.same, Block.clearLane_count, if_neg (by simpa using bins), if_neg (Ne.symm err)]
  case cnt => exact absurd (.inr ⟨_, List.mem_cons_self ..⟩) out
  all_goals exact (b.clearLane_kept l).out _ (by simp [Piece.among])

theorem Block.bump_count (b : Block) (o n : Nat) : (b.bump o n).count o = min (b.count o + n) (2 ^ 48 - 1) := Block.count_setCount_same ..

/-! ### What a lane that goes OFF counts (R163) -/

/-- The counters of what a side that leaves RUN discards. -/
def purgeCount (o : Nat) : Bool := o == fwOff Off.fwDropLo .west || o == fwOff Off.fwDropLo .east || o == Off.qyCplDiscardLo

@[simp] theorem purgeCount_fwDrop (sd : Side) : purgeCount (fwOff Off.fwDropLo sd) = true := by cases sd <;> rfl

@[simp] theorem purgeCount_cplDiscard : purgeCount Off.qyCplDiscardLo = true := rfl

/-- Only counters of discards differ. -/
structure Block.Tallied (b c : Block) : Prop where
  count : ∀ o, purgeCount o = false → c.count o = b.count o

theorem Block.Tallied.refl (b : Block) : b.Tallied b := ⟨fun _ _ => rfl⟩

theorem Block.Tallied.trans {b c d : Block} (h : b.Tallied c) (k : c.Tallied d) : b.Tallied d :=
  ⟨fun o other => (k.count o other).trans (h.count o other)⟩

theorem Block.Tallied.ite {b c d : Block} {p : Prop} [Decidable p] (h : b.Tallied c) (k : b.Tallied d) : b.Tallied (if p then c else d) := by
  split
  · exact h
  · exact k

/-- A change of the piece leaves every counter but those of discards. -/
def Piece.tallied : Piece → Prop
  | .cnt => False
  | .count o => purgeCount o = true
  | _ => True

theorem Kept.tallied {ps : List Piece} {b c : Block} (h : Kept ps b c) (tallied : ∀ p ∈ ps, p.tallied := by simp [Piece.tallied]) :
    b.Tallied c := by
  refine ⟨fun o other => h.out (.count o) fun listed => ?_⟩
  rcases listed with all | one
  · exact tallied _ all
  · have purged : purgeCount o = true := tallied _ one
    rw [other] at purged; cases purged

theorem Block.dropLaneFull_tallied (b : Block) (l : Nat) : b.Tallied (b.dropLaneFull l) :=
  have dropped := (b.dropLane_kept l).tallied
  .ite (dropped.trans (Block.purgeSide_kept ..).tallied) dropped

theorem Block.checkOpen_tallied (b : Block) : b.Tallied b.checkOpen := by
  have lift (b : Block) (sd : Side) : b.Tallied (if (b.side sd).seg = .down then b.modSide sd fun x => { x with capG2 := false }
      else if (b.side sd).seg = .run ∧ (b.side sd).capG2 then (b.modSide sd fun x => { x with capG2 := false }).retrainSide sd 0 false
      else b) :=
    have lifted := (b.modSide_kept sd fun x => { x with capG2 := false }).tallied
    .ite lifted (.ite (lifted.trans (Block.retrainSide_kept ..).tallied) (.refl b))
  unfold Block.checkOpen
  have lifted := (lift b .west).trans (lift _ .east)
  exact .ite (.refl b) (.ite (lifted.trans (Block.enterOpen_kept _).tallied) lifted)

/-- What a side whose lane has stopped for good does with the rest: its training may be over, a running segment finds its width. -/
def Block.withoutLane (b : Block) (sd : Side) : Block :=
  match (b.side sd).seg with
  | .training => if (b.side sd).warmAll then b.checkWarm sd else b.checkSide sd
  | .run => b.resizeSide sd
  | _ => b

theorem Block.disableLane_eq (b : Block) (l : Nat) : b.disableLane l =
    if (b.lane l).st = .off then b
    else ((((((if (b.lane l).inRun then b.dropLaneFull l else b).modLane l Lane.offUnlessFailed).notePass l false).withoutLane
      (laneSide l)).wakeWaiter (laneSide l)).checkOpen) := rfl

theorem Block.withoutLane_tallied (b : Block) (sd : Side) : b.Tallied (b.withoutLane sd) := by
  unfold Block.withoutLane
  split
  · exact .ite (b.checkWarm_kept sd).tallied (b.checkSide_kept sd).tallied
  · exact (b.resizeSide_kept sd).tallied
  · exact .refl b

theorem Block.disableLane_tallied (b : Block) (l : Nat) : b.Tallied (b.disableLane l) := by
  rw [Block.disableLane_eq]
  refine .ite (.refl b) ?_
  have dropped : b.Tallied (if (b.lane l).inRun then b.dropLaneFull l else b) := .ite (b.dropLaneFull_tallied l) (.refl b)
  refine .trans ?_ (Block.checkOpen_tallied _)
  refine .trans ?_ (Block.wakeWaiter_kept _ _).tallied
  refine .trans ?_ (Block.withoutLane_tallied _ _)
  refine .trans ?_ (Block.notePass_kept _ _ _).tallied
  exact dropped.trans (Block.modLane_kept _ _ _).tallied

theorem purgeCount_lane : ∀ l : LaneId,
    purgeCount (lnOff Off.lnSymErrLo l) = false ∧ ∀ i : Fin 17, purgeCount (lnOff Off.lnFecHist0 l + 4 * i) = false := by
  decide

/-! ### LN_CNT_CLR -/

section
variable {s : State} {p : Path} {l : LaneId}

/-- The block with the counters of a lane cleared by its LN_CTRL, whose fields stand as they were. -/
def Block.cntCleared (b : Block) (l : Nat) : Block := (b.setReg (lnOff Off.lnCtrl l) (b.reg (lnOff Off.lnCtrl l))).clearLane l

theorem Block.writeBits_lnCntClr {b : Block} (serves : b.serves p = true) (on : b.domOn (quadDom l) = true) :
    b.writeBits p (lnOff Off.lnCtrl l) 0x100 = if b.regBit (lnOff Off.lnCtrl l) 0 then b.cntCleared l else (b.cntCleared l).disableLane l := by
  rw [Block.writeBits_laneCtrl _ (by simp) serves on]
  change b.writeLaneCtrl l _ = _
  have stored : b.stored p (lnOff Off.lnCtrl l) = b.reg (lnOff Off.lnCtrl l) &&& 0x1F := Block.stored_of_regAt (regAt_lnCtrl l)
  have keeps (open_ : Word) : b.putReg (lnOff Off.lnCtrl l) (b.reg (lnOff Off.lnCtrl l) &&& 0x1F ||| 0x100) open_
      = b.setReg (lnOff Off.lnCtrl l) (b.reg (lnOff Off.lnCtrl l)) :=
    Block.putReg_stored_same open_ (regAt_lnCtrl l) (or_and_mask (by decide))
  have clears : (b.reg (lnOff Off.lnCtrl l) &&& 0x1F ||| 0x100).getLsbD 8 = true := by simp
  have enable : (b.reg (lnOff Off.lnCtrl l) &&& 0x1F ||| 0x100).getLsbD 0 = b.regBit (lnOff Off.lnCtrl l) 0 := by simp [Block.regBit]
  simp only [Block.writeLaneCtrl, stored, keeps, clears, enable, if_true]
  rfl

theorem lnCntClr_clears (n : Nat) (serves : s.blk.serves p = true) (on : s.blk.domOn (quadDom l) = true) :
    Does (.lnCntClr p l) s [.berths, .chans, .chs, .cnt, .cols, .events, .fresh, .fws, .heat, .hold, .ins, .keys, .lanes, .mf, .prot, .pw, .qy,
        .regs, .running, .sel, .sides, .slots, .stk, .sv, .tl] fun b =>
      b.count (lnOff Off.lnSymErrLo l) = 0 ∧ (∀ i : Fin 17, b.count (lnOff Off.lnFecHist0 l + 4 * i) = 0)
        ∧ (b.bump (lnOff Off.lnSymErrLo l) n).count (lnOff Off.lnSymErrLo l) = min n (2 ^ 48 - 1) := by
  refine does_framed (f := (·.writeBits p (lnOff Off.lnCtrl l) 0x100)) rfl (execLnCntClr_kept p l ·) (Within.of rfl) ?_
  have tallied : (s.blk.cntCleared l).Tallied (s.blk.writeBits p (lnOff Off.lnCtrl l) 0x100) := by
    rw [Block.writeBits_lnCntClr serves on]
    exact .ite (.refl _) (Block.disableLane_tallied ..)
  obtain ⟨err, bins⟩ := purgeCount_lane l
  have symErr : (s.blk.writeBits p (lnOff Off.lnCtrl l) 0x100).count (lnOff Off.lnSymErrLo l) = 0 :=
    (tallied.count _ err).trans (Block.clearLane_symErr ..)
  exact ⟨symErr, fun i => (tallied.count _ (bins i)).trans (Block.clearLane_bin ..), by rw [Block.bump_count, symErr, Nat.zero_add]⟩

theorem lnCntClr_alone (serves : s.blk.serves p = true) (on : s.blk.domOn (quadDom l) = true)
    (runs : (s.blk.regBit (lnOff Off.lnCtrl l) 0 || (s.blk.lane l).st == .off) = true) :
    Does (.lnCntClr p l) s
        ([.reg (lnOff Off.lnCtrl l), .count (lnOff Off.lnSymErrLo l)] ++ (List.range 17).map fun i => .count (lnOff Off.lnFecHist0 l + 4 * i))
      fun b => b.reg (lnOff Off.lnCtrl l) = s.blk.reg (lnOff Off.lnCtrl l) := by
  have off : s.blk.regBit (lnOff Off.lnCtrl l) 0 = false → ((s.blk.cntCleared l).lane l).st = .off := fun disabled => by
    rw [Block.cntCleared, Block.clearLane_lane, Block.lane_setReg]
    simpa [disabled] using runs
  refine does_upd_eq (f := (·.writeBits p (lnOff Off.lnCtrl l) 0x100)) (c := s.blk.cntCleared l) rfl ?_ ?_ ?_
  · rw [Block.writeBits_lnCntClr serves on]
    split
    · rfl
    · next disabled => exact (Block.disableLane_eq ..).trans (if_pos (off (Bool.not_eq_true _ ▸ disabled)))
  · exact Kept.step (Block.clearLane_counts _ l) (Within.of_subset (List.subset_cons_self ..)) ((Kept.setReg ..).mono (Within.of_subset (by simp)))
  · rw [Block.cntCleared, Block.clearLane_reg, Block.reg_setReg_same]

end

/-! ### LN_PRBS_CLR -/

theorem withField_self {v : Word} {lo w n : Nat} (h : n = bitsAt v lo w) : withField v lo w n = v := by
  subst h
  have field : bitsAt v lo w * 2 ^ lo ≤ v.toNat :=
    (Nat.mul_le_mul_right _ (Nat.mod_le ..)).trans (Nat.div_mul_le_self ..)
  rw [withField, bitsAt, Nat.mod_mod, ← bitsAt, Nat.sub_add_cancel field, BitVec.ofNat_toNat, BitVec.setWidth_eq]

theorem keepUnless_self {ok : Bool} {old v : Word} {lo w : Nat} (h : bitsAt old lo w = bitsAt v lo w) : keepUnless ok old v lo w = v := by
  unfold keepUnless
  split
  · rfl
  · exact withField_self h

/-- A field under a mask, beside other bits. -/
theorem bitsAt_or_and {old mask x : Word} {lo w : Nat} (inside : mask.extractLsb' lo w = BitVec.allOnes w) (apart : x.extractLsb' lo w = 0) :
    bitsAt (old &&& mask ||| x) lo w = bitsAt old lo w := by
  rw [bitsAt_eq_extract, bitsAt_eq_extract, BitVec.extractLsb'_or, BitVec.extractLsb'_and, inside, apart, BitVec.and_allOnes]
  exact congrArg _ BitVec.or_zero

section
variable {s : State} {p : Path} {l : LaneId}

theorem Block.clearPrbs_counts (b : Block) :
    (b.clearPrbs l).count (lnOff Off.lnPrbsBitsLo l) = 0 ∧ (b.clearPrbs l).count (lnOff Off.lnPrbsErrLo l) = 0 := by
  rw [Block.clearPrbs, Block.count_modLane, Block.count_modLane, Block.count_setCount, Block.count_setCount_same, Block.count_setCount_same, ite_self]
  exact ⟨rfl, rfl⟩

theorem Block.writeBits_lnPrbsClr {b : Block} (serves : b.serves p = true) (on : b.domOn (quadDom l) = true) :
    b.writeBits p (lnOff Off.lnPrbsCtrl l) 0x100 = (b.setReg (lnOff Off.lnPrbsCtrl l) (b.reg (lnOff Off.lnPrbsCtrl l))).clearPrbs l := by
  rw [Block.writeBits_laneCtrl _ (by simp) serves on]
  change b.writePrbs l _ = _
  rw [Block.stored_of_regAt (regAt_lnPrbsCtrl l)]
  have field {lo w : Nat} (inside : (0x77 : Word).extractLsb' lo w = BitVec.allOnes w) (apart : (0x100 : Word).extractLsb' lo w = 0) :=
    (bitsAt_or_and (old := b.reg (lnOff Off.lnPrbsCtrl l)) inside apart).symm
  have keeps : b.putReg (lnOff Off.lnPrbsCtrl l) (b.reg (lnOff Off.lnPrbsCtrl l) &&& 0x77 ||| 0x100)
      = b.setReg (lnOff Off.lnPrbsCtrl l) (b.reg (lnOff Off.lnPrbsCtrl l)) :=
    Block.putReg_stored_same _ (regAt_lnPrbsCtrl l) (or_and_mask (by decide))
  have clears : (b.reg (lnOff Off.lnPrbsCtrl l) &&& 0x77 ||| 0x100).getLsbD 8 = true := by simp
  simp only [Block.writePrbs]
  rw [keepUnless_self (field (by decide) (by decide)), keepUnless_self (field (by decide) (by decide)),
    withField_self (field (by decide) (by decide)), withField_self (field (by decide) (by decide)), ite_self,
    keeps, Block.reg_setReg_same, if_pos rfl, if_pos clears]

theorem lnPrbsClr_clears (n : Nat) (serves : s.blk.serves p = true) (on : s.blk.domOn (quadDom l) = true) :
    Does (.lnPrbsClr p l) s [.reg (lnOff Off.lnPrbsCtrl l), .lane l, .count (lnOff Off.lnPrbsBitsLo l), .count (lnOff Off.lnPrbsErrLo l)] fun b =>
      b.count (lnOff Off.lnPrbsBitsLo l) = 0 ∧ b.count (lnOff Off.lnPrbsErrLo l) = 0 ∧ b.lane l = { s.blk.lane l with prbsSat := false }
        ∧ b.reg (lnOff Off.lnPrbsCtrl l) = s.blk.reg (lnOff Off.lnPrbsCtrl l)
        ∧ (b.bump (lnOff Off.lnPrbsErrLo l) n).count (lnOff Off.lnPrbsErrLo l) = min n (2 ^ 48 - 1) := by
  refine does_upd_eq rfl (Block.writeBits_lnPrbsClr serves on) ?_ ?_
  · exact Kept.step (Block.clearPrbs_kept ..) (Within.of_subset (by simp)) ((Kept.setReg ..).mono (Within.of_subset (by simp)))
  · obtain ⟨bits, errors⟩ := Block.clearPrbs_counts (l := l) (s.blk.setReg (lnOff Off.lnPrbsCtrl l) (s.blk.reg (lnOff Off.lnPrbsCtrl l)))
    refine ⟨bits, errors, ?_, ?_, by rw [Block.bump_count, errors, Nat.zero_add]⟩
    · simp [Block.clearPrbs]
    · exact ((Block.clearPrbs_kept ..).out (.reg _) (by simp [Piece.among])).trans (Block.reg_setReg_same ..)

end

/-- Settles O55: both rows write a lane's control register, whose fields stand, and clear; a lane that LN_CNT_CLR finds disabled goes OFF, which
counts nothing of its own. -/
theorem laneCountersClearTogether : Obligations.LaneCountersClearTogether :=
  ⟨fun _ _ _ n => lnCntClr_clears n, fun _ _ _ => lnCntClr_alone, fun _ _ _ n => lnPrbsClr_clears n, fun _ _ _ h =>
    ⟨exec_upd_same rfl (Block.writeBits_laneCtrl_idle _ (by simp) h), exec_upd_same rfl (Block.writeBits_laneCtrl_idle _ (by simp) h)⟩⟩

end Sys2Proof.Machine
end

section
/-! SUPPORT. Test patterns of a lane (R75, R76, R138), its fast alarms (R82 to R84) and the degraded lane (R133). -/

namespace Sys2Proof.Machine

open Sys2Proof

/-! ### A lane's checker (R76) -/

section
variable {b : Block} {l : Nat} {pat : BitVec 2} {c : Bool}

theorem lnPrbs_counters_ne (l : Nat) : lnOff Off.lnPrbsErrLo l ≠ lnOff Off.lnPrbsBitsLo l := by
  simp [lnOff, Off.lnPrbsErrLo, Off.lnPrbsBitsLo]

theorem lnPrbs_status_ne (l : Nat) : lnOff Off.lnPrbsCtrl l ≠ lnOff Off.lnPrbsStatus l := by
  simp [lnOff, Off.lnPrbsCtrl, Off.lnPrbsStatus]

/-- The two counters of a checker after `n` bits with `e` errors. -/
def Block.addPrbs (b : Block) (l n e : Nat) : Block :=
  (b.setCount (lnOff Off.lnPrbsBitsLo l) (min (b.count (lnOff Off.lnPrbsBitsLo l) + n) (2 ^ 48 - 1))).setCount (lnOff Off.lnPrbsErrLo l)
    (min (b.count (lnOff Off.lnPrbsErrLo l) + e) (2 ^ 48 - 1))

theorem Block.addPrbs_bits (n e : Nat) :
    (b.addPrbs l n e).count (lnOff Off.lnPrbsBitsLo l) = min (b.count (lnOff Off.lnPrbsBitsLo l) + n) (2 ^ 48 - 1) := by
  rw [Block.addPrbs, Block.count_setCount, if_neg (lnPrbs_counters_ne l), Block.count_setCount_same]

theorem Block.addPrbs_errors (n e : Nat) :
    (b.addPrbs l n e).count (lnOff Off.lnPrbsErrLo l) = min (b.count (lnOff Off.lnPrbsErrLo l) + e) (2 ^ 48 - 1) :=
  Block.count_setCount_same ..

theorem Block.countPrbs_counts {n e : Nat} (sync : (b.lane l).prbsSync = true) (sat : (b.lane l).prbsSat = false) :
    b.countPrbs l n e = if (b.addPrbs l n e).count (lnOff Off.lnPrbsBitsLo l) = 2 ^ 48 - 1
        ∨ (b.addPrbs l n e).count (lnOff Off.lnPrbsErrLo l) = 2 ^ 48 - 1
      then (b.addPrbs l n e).modLane l fun x => { x with prbsSat := true } else b.addPrbs l n e := by
  rw [Block.addPrbs_bits, Block.addPrbs_errors]
  exact if_neg (by simp [sync, sat])

theorem Block.countPrbs_idle {n e : Nat} (h : (b.lane l).prbsSync = false ∨ (b.lane l).prbsSat = true) : b.countPrbs l n e = b :=
  if_pos (by simpa using h)

theorem Block.countPrbs_lane (n e : Nat) :
    ((b.countPrbs l n e).lane l).st = (b.lane l).st ∧ ((b.countPrbs l n e).lane l).prbsRun = (b.lane l).prbsRun := by
  unfold Block.countPrbs
  dsimp only
  split
  · exact ⟨rfl, rfl⟩
  · split <;> simp

/-- A received bit leaves what makes the checker run. -/
theorem Block.checkBit_lane :
    ((b.checkBit l pat c).lane l).st = (b.lane l).st ∧ ((b.checkBit l pat c).lane l).prbsRun = (b.lane l).prbsRun := by
  obtain ⟨st, run⟩ := b.countPrbs_lane (l := l) 1 (if c == prbsNext pat (b.lane l).chk.past then 0 else 1)
  unfold Block.checkBit
  dsimp only
  split
  · split <;> exact ⟨by simpa using st, by simpa using run⟩
  · split <;> simp

theorem Block.checkBit_checking : (b.checkBit l pat c).checking l = b.checking l := by
  obtain ⟨st, run⟩ := b.checkBit_lane (l := l) (pat := pat) (c := c)
  have ctrl : (b.checkBit l pat c).reg (lnOff Off.lnPrbsCtrl l) = b.reg (lnOff Off.lnPrbsCtrl l) :=
    (b.checkBit_kept l pat c).out (.reg _) (by simp [Piece.among, lnPrbs_status_ne])
  simp only [Block.checking, Block.regBit, ctrl, st, run]

theorem Block.checkBits_idle {rx : List Bool} (idle : b.checking l = false) : b.checkBits l rx = b := if_neg (by simp [idle])

theorem Block.checkBits_one (runs : b.checking l = true) : b.checkBits l [c] = b.checkBit l (b.checkPat l) c := if_pos runs

theorem Block.checkBits_cons (rx : List Bool) : b.checkBits l (c :: rx) = (b.checkBits l [c]).checkBits l rx := by
  cases runs : b.checking l
  · rw [Block.checkBits_idle runs, Block.checkBits_idle runs, Block.checkBits_idle runs]
  · rw [Block.checkBits_one runs, Block.checkBits, Block.checkBits, if_pos runs, if_pos (Block.checkBit_checking.trans runs), List.foldl_cons]

/-- A bit that finds the checker out of sync. -/
theorem Block.checkBit_hunts {k : PrbsChk} (sync : (b.lane l).prbsSync = false) (hk : k = (b.lane l).chk.hunt pat c) :
    b.checkBit l pat c = b.modLane l fun x =>
      if 1024 ≤ k.run then { x with chk := { k with n := 0, errs := [] }, prbsSync := true } else { x with chk := k } := by
  subst hk
  unfold Block.checkBit
  simp only [sync, Bool.false_eq_true, if_false]
  split <;> rfl

/-- A bit that finds it in sync, with neither counter full. -/
theorem Block.checkBit_compares {k : PrbsChk} (sync : (b.lane l).prbsSync = true) (sat : (b.lane l).prbsSat = false)
    (bits : b.count (lnOff Off.lnPrbsBitsLo l) + 1 < 2 ^ 48 - 1) (errors : b.count (lnOff Off.lnPrbsErrLo l) + 1 < 2 ^ 48 - 1)
    (hk : k = (b.lane l).chk.compare pat c) :
    b.checkBit l pat c =
      if 256 ≤ k.errs.length then
        ((b.addPrbs l 1 (if c == prbsNext pat (b.lane l).chk.past then 0 else 1)).modLane l fun x => { x with chk := {}, prbsSync := false }).orReg
          (lnOff Off.lnPrbsStatus l) 2
      else (b.addPrbs l 1 (if c == prbsNext pat (b.lane l).chk.past then 0 else 1)).modLane l fun x => { x with chk := k } := by
  subst hk
  unfold Block.checkBit
  have roomy (e : Nat) (he : e ≤ 1) : b.countPrbs l 1 e = b.addPrbs l 1 e := by
    rw [Block.countPrbs_counts sync sat, Block.addPrbs_bits, Block.addPrbs_errors]
    exact if_neg (by omega)
  simp only [sync, if_true]
  rw [roomy _ (by split <;> decide)]

end

/-! ### PRBS_SYNC, PRBS_SYNC_LOST and PRBS_SATURATED -/

section
variable {s : State} {l : LaneId} {c : Bool} {k : PrbsChk}

theorem prbsSync_hunts (runs : s.blk.checking l = true) (sync : (s.blk.lane l).prbsSync = false)
    (hk : k = (s.blk.lane l).chk.hunt (s.blk.checkPat l) c) :
    Does (.prbsSync l [c]) s [.lane l] fun b =>
      b.lane l = (if 1024 ≤ k.run then { s.blk.lane l with chk := { k with n := 0, errs := [] }, prbsSync := true }
        else { s.blk.lane l with chk := k }) :=
  does_lane (i := .prbsSync l [c]) rfl ((Block.checkBits_one runs).trans (Block.checkBit_hunts sync hk)) rfl

theorem prbsSyncLost_compares (runs : s.blk.checking l = true) (sync : (s.blk.lane l).prbsSync = true) (sat : (s.blk.lane l).prbsSat = false)
    (bits : s.blk.count (lnOff Off.lnPrbsBitsLo l) + 1 < 2 ^ 48 - 1) (errors : s.blk.count (lnOff Off.lnPrbsErrLo l) + 1 < 2 ^ 48 - 1)
    (hk : k = (s.blk.lane l).chk.compare (s.blk.checkPat l) c) :
    Does (.prbsSyncLost l [c]) s
        [.count (lnOff Off.lnPrbsBitsLo l), .count (lnOff Off.lnPrbsErrLo l), .lane l, .reg (lnOff Off.lnPrbsStatus l)] fun b =>
      b.count (lnOff Off.lnPrbsBitsLo l) = s.blk.count (lnOff Off.lnPrbsBitsLo l) + 1
        ∧ b.count (lnOff Off.lnPrbsErrLo l) =
            s.blk.count (lnOff Off.lnPrbsErrLo l) + (if c = prbsNext (s.blk.checkPat l) (s.blk.lane l).chk.past then 0 else 1)
        ∧ (256 ≤ k.errs.length → b.lane l = { s.blk.lane l with chk := {}, prbsSync := false } ∧ b.regBit (lnOff Off.lnPrbsStatus l) 1 = true)
        ∧ (k.errs.length < 256 → b.lane l = { s.blk.lane l with chk := k } ∧ b.csr = s.blk.csr) := by
  refine does_upd (f := (·.checkBits l [c])) rfl (Block.checkBits_kept ..) ?_
  rw [Block.checkBits_one runs, Block.checkBit_compares sync sat bits errors hk]
  set e := if c == prbsNext (s.blk.checkPat l) (s.blk.lane l).chk.past then 0 else 1 with he
  have small : e ≤ 1 := by rw [he]; split <;> decide
  have counted : (s.blk.addPrbs l 1 e).count (lnOff Off.lnPrbsBitsLo l) = s.blk.count (lnOff Off.lnPrbsBitsLo l) + 1
      ∧ (s.blk.addPrbs l 1 e).count (lnOff Off.lnPrbsErrLo l) = s.blk.count (lnOff Off.lnPrbsErrLo l) + e := by
    rw [Block.addPrbs_bits, Block.addPrbs_errors]; omega
  obtain ⟨bits', errors'⟩ := counted
  have same : e = if c = prbsNext (s.blk.checkPat l) (s.blk.lane l).chk.past then 0 else 1 := by simp [he]
  split
  · next lost =>
    refine ⟨bits', errors'.trans (by rw [same]), fun _ => ⟨?_, by simp [Block.regBit_orReg]⟩, fun few => absurd few (by omega)⟩
    rw [Block.lane_orReg, Block.lane_modLane_same]; rfl
  · next kept =>
    refine ⟨bits', errors'.trans (by rw [same]), fun many => absurd many kept, fun _ => ⟨?_, rfl⟩⟩
    rw [Block.lane_modLane_same]; rfl

theorem exec_prbsSync_cons {t : State} {rx : List Bool} (h : exec (.prbsSync l [c]) s = .next t) :
    exec (.prbsSync l (c :: rx)) s = exec (.prbsSync l rx) t := by
  cases h
  exact congrArg (fun b => Host.Outcome.next { s with blk := b }) (Block.checkBits_cons rx)

theorem exec_prbsSaturated_upd (n e : BitVec 48) : exec (.prbsSaturated l n e) s = s.upd (·.countPrbs l n.toNat e.toNat) := rfl

theorem prbsSaturated_counts {n e : BitVec 48} (sync : (s.blk.lane l).prbsSync = true) (sat : (s.blk.lane l).prbsSat = false) :
    Does (.prbsSaturated l n e) s [.count (lnOff Off.lnPrbsBitsLo l), .count (lnOff Off.lnPrbsErrLo l), .lane l] fun b =>
      b.count (lnOff Off.lnPrbsBitsLo l) = min (s.blk.count (lnOff Off.lnPrbsBitsLo l) + n.toNat) (2 ^ 48 - 1)
        ∧ b.count (lnOff Off.lnPrbsErrLo l) = min (s.blk.count (lnOff Off.lnPrbsErrLo l) + e.toNat) (2 ^ 48 - 1)
        ∧ b.lane l = { s.blk.lane l with
            prbsSat := decide (b.count (lnOff Off.lnPrbsBitsLo l) = 2 ^ 48 - 1 ∨ b.count (lnOff Off.lnPrbsErrLo l) = 2 ^ 48 - 1) } := by
  refine does_upd (exec_prbsSaturated_upd n e) (Block.countPrbs_kept ..) ?_
  rw [Block.countPrbs_counts sync sat]
  split
  · next full =>
    refine ⟨Block.addPrbs_bits .., Block.addPrbs_errors .., ?_⟩
    rw [Block.lane_modLane_same, Block.count_modLane, Block.count_modLane, decide_eq_true full]; rfl
  · next roomy =>
    refine ⟨Block.addPrbs_bits .., Block.addPrbs_errors .., ?_⟩
    rw [decide_eq_false roomy, ← sat]; rfl

end

/-! ### A lane leaves a running segment by REFORM (R134) -/

section
variable {b : Block} {l : Nat}

/-- The pier's REFORM to the lanes of `m` is under way on a running side (R134). -/
def SideSt.reforming (x : SideSt) (m : BitVec 16) : SideSt :=
  { x with reform := some m, reformOut := some m, reformTx := false, reformRx := false, reformAt := none
           segSeq := x.segSeq + 1, ctl := x.ctl ++ [(x.segSeq + 1, .reform m 16)] }

/-- A lane's bit in the masks of its side. -/
abbrev laneBit (l : Nat) : BitVec 16 := BitVec.ofNat 16 (2 ^ laneIx l)

theorem Lane.inRun_iff {x : Lane} : x.inRun = true ↔ x.st = .run ∨ x.st = .degraded := by simp [Lane.inRun]

theorem Block.dropLaneFull_idle (idle : (b.lane l).inRun = false) : b.dropLaneFull l = b := by
  have stays : b.dropLane l = b := if_neg (by simp [idle])
  unfold Block.dropLaneFull
  simp only [stays]
  exact if_neg fun h => h.2 h.1

/-- A running lane of several: its segment goes on, and asks for the others. -/
theorem Block.dropLaneFull_reforms {x : SideSt} {m : BitVec 16} (runs : (b.lane l).inRun = true) (hx : x = b.side (laneSide l)) (seg : x.seg = .run)
    (listed : x.nextMask.getLsbD (laneIx l) = true) (hm : m = x.nextMask &&& ~~~ laneBit l) (others : m ≠ 0) :
    Kept [.side (laneSide l)] b (b.dropLaneFull l)
      ∧ (b.dropLaneFull l).side (laneSide l) = ({ x with pass := x.pass &&& ~~~ laneBit l } : SideSt).reforming m := by
  subst hx
  have drops : b.dropLane l = (b.notePass l false).askReform (laneSide l) m := by
    rw [hm]; exact if_pos ⟨seg, runs, listed⟩
  have side : (b.dropLane l).side (laneSide l)
      = ({ b.side (laneSide l) with pass := (b.side (laneSide l)).pass &&& ~~~ laneBit l } : SideSt).reforming m := by
    rw [drops, Block.askReform, if_neg others]
    simp [Block.sendSeg, Block.notePass, SideSt.reforming, seg]
  have kept : Kept [.side (laneSide l)] b (b.dropLane l) := by
    rw [drops, Block.askReform, if_neg others]
    exact Kept.step (Block.sendSeg_kept ..) .refl (Kept.step (Block.modSide_kept ..) .refl (Block.notePass_kept ..))
  have stays : b.dropLaneFull l = b.dropLane l := by
    unfold Block.dropLaneFull
    refine if_neg fun left => left.2 ?_
    rw [side]; exact seg
  exact stays ▸ ⟨kept, side⟩

/-! ### Loss of signal and of lock (R82 to R84) -/

/-- The lane with loss of signal asserted. -/
def Lane.lost (x : Lane) (now : Tide) : Lane := { x with los := true, losAt := if x.los then x.losAt else now }

theorem Block.loseSignal_lost (h : (b.lane l).st ≠ .lock) : (b.loseSignal l).lane l = (b.lane l).lost b.ck.tide := by
  have other : ¬ ((b.lane l).st = .lock ∧ (b.lane l).answerer = some false ∧ ¬ (b.lane l).winOwn ∧ (b.lane l).winAt = none) :=
    fun lock => h lock.1
  rw [Block.loseSignal, Block.lane_modLane_same]
  exact if_neg other

theorem Block.fastAlarm_hidden {bit : Word} {expected : Bool} (h : (b.lane l).st = .off ∨ (b.lane l).st = .quiet ∨ (b.lane l).st = .failed) :
    b.fastAlarm l bit expected = b := by
  unfold Block.fastAlarm
  rcases h with h | h | h <;> rw [h]

/-- Outside the states in which they only show, and outside a window, LOS and LOL set the alarm and drop the lane. -/
theorem Block.fastAlarm_drops {bit : Word} (h : (b.lane l).st = .hunt ∨ (b.lane l).inRun = true) :
    b.fastAlarm l bit false = (b.orReg (lnOff Off.lnAlarm l) bit).dropLaneFull l := by
  rw [Lane.inRun_iff] at h
  unfold Block.fastAlarm
  rcases h with h | h | h <;> rw [h] <;> rfl

theorem Block.leftGrade_other (h : (b.lane l).st ≠ .train) : b.leftGrade l = b := if_neg h

theorem Block.inOwnWindow_hunt (h : (b.lane l).st = .hunt) : b.inOwnWindow l = false := by
  unfold Block.inOwnWindow
  simp only [h]

theorem Block.inOwnWindow_run (h : (b.lane l).inRun = true) : b.inOwnWindow l = (b.side (laneSide l)).win.isSome := by
  unfold Block.inOwnWindow
  rcases Lane.inRun_iff.mp h with h | h <;> simp only [h]

end

section
variable {s : State} {l : LaneId} {mv : Nat}

/-- What LOS below 40 mV does to the block. -/
def Block.signalLost (b : Block) (l : Nat) : Block := ((b.loseSignal l).fastAlarm l 1 (b.inOwnWindow l)).leftGrade l

/-- What a report of the received level does to the block. -/
def Block.levelSeen (b : Block) (l mv : Nat) : Block :=
  if mv < 40 then b.signalLost l else if 80 < mv then b.modLane l fun x => { x with los := false } else b

theorem exec_los_upd : exec (.los l mv) s = s.upd (·.levelSeen l mv) := rfl

theorem los_hunt (hunt : (s.blk.lane l).st = .hunt) (low : mv < 40) :
    Does (.los l mv) s [.lane l, .reg (lnOff Off.lnAlarm l)] fun b =>
      b.lane l = (s.blk.lane l).lost s.blk.ck.tide ∧ b.regBit (lnOff Off.lnAlarm l) 0 = true := by
  have lost := Block.loseSignal_lost (b := s.blk) (l := l) (by simp [hunt])
  have stays : ((s.blk.loseSignal l).lane l).st = .hunt := by rw [lost]; exact hunt
  refine does_upd_eq exec_los_upd (c := (s.blk.loseSignal l).orReg (lnOff Off.lnAlarm l) 1) ?_ ?_ ⟨lost, by simp [Block.regBit_orReg]⟩
  · rw [Block.levelSeen, if_pos low, Block.signalLost, Block.inOwnWindow_hunt hunt, Block.fastAlarm_drops (.inl stays),
      Block.dropLaneFull_idle (by simp [Lane.inRun, stays]), Block.leftGrade_other (by simp [stays])]
  · exact Kept.step (Block.orReg_kept ..) (Within.of_subset (by simp)) ((Block.loseSignal_kept ..).mono (Within.of_subset (by simp)))

theorem los_hidden (h : (s.blk.lane l).st = .off ∨ (s.blk.lane l).st = .quiet ∨ (s.blk.lane l).st = .failed) (low : mv < 40) :
    Does (.los l mv) s [.lane l] fun b => b.lane l = (s.blk.lane l).lost s.blk.ck.tide := by
  have lost := Block.loseSignal_lost (b := s.blk) (l := l) (by rcases h with h | h | h <;> simp [h])
  have stays : ((s.blk.loseSignal l).lane l).st = (s.blk.lane l).st := by rw [lost]; rfl
  refine does_upd_eq exec_los_upd (c := s.blk.loseSignal l) ?_ (Block.loseSignal_kept ..) lost
  rw [Block.levelSeen, if_pos low, Block.signalLost, Block.fastAlarm_hidden (by rwa [stays]), Block.leftGrade_other]
  rw [stays]
  rcases h with h | h | h <;> simp [h]

theorem los_reforms {x : SideSt} {m : BitVec 16} (runs : (s.blk.lane l).inRun = true) (low : mv < 40) (hx : x = s.blk.side (laneSide l))
    (seg : x.seg = .run) (outside : x.win = none) (listed : x.nextMask.getLsbD (laneIx l) = true) (hm : m = x.nextMask &&& ~~~ laneBit l)
    (others : m ≠ 0) :
    Does (.los l mv) s [.lane l, .reg (lnOff Off.lnAlarm l), .side (laneSide l)] fun b =>
      b.lane l = (s.blk.lane l).lost s.blk.ck.tide ∧ b.regBit (lnOff Off.lnAlarm l) 0 = true ∧ (b.side (laneSide l)).reform = some m := by
  have lost := Block.loseSignal_lost (b := s.blk) (l := l) (by rcases Lane.inRun_iff.mp runs with h | h <;> simp [h])
  set b := (s.blk.loseSignal l).orReg (lnOff Off.lnAlarm l) 1 with hb
  have lane : b.lane l = (s.blk.lane l).lost s.blk.ck.tide := lost
  have still : (b.lane l).inRun = true := by rw [lane]; exact runs
  have side : x = b.side (laneSide l) := by rw [hx, hb, Block.side_orReg, Block.loseSignal, Block.side_modLane]
  obtain ⟨kept, made⟩ := Block.dropLaneFull_reforms still side seg listed hm others
  have after : (b.dropLaneFull l).lane l = (s.blk.lane l).lost s.blk.ck.tide := (kept.out (.lane l) (by simp [Piece.among])).trans lane
  refine does_upd_eq exec_los_upd (c := b.dropLaneFull l) ?_ ?_ ⟨after, ?_, by rw [made]; rfl⟩
  · rw [Block.levelSeen, if_pos low, Block.signalLost, Block.inOwnWindow_run runs, ← hx, outside, Option.isSome_none,
      Block.fastAlarm_drops (.inr (by rw [lost]; exact runs)),
      ← hb, Block.leftGrade_other]
    rw [after]
    rcases Lane.inRun_iff.mp runs with h | h <;> simp [Lane.lost, h]
  · refine Kept.step kept (Within.of_subset (by simp)) (Kept.step (Block.orReg_kept ..) (Within.of_subset (by simp)) ?_)
    exact (Block.loseSignal_kept ..).mono (Within.of_subset (by simp))
  · rw [Block.regBit, kept.out (.reg _) (by simp [Piece.among])]
    exact (Block.regBit_orReg ..).trans (by simp)

theorem los_ends (high : 80 < mv) : Does (.los l mv) s [.lane l] fun b => b.lane l = { s.blk.lane l with los := false } :=
  does_lane exec_los_upd ((if_neg (by omega)).trans (if_pos high)) rfl

theorem exec_los_between (above : 40 ≤ mv) (below : mv ≤ 80) : exec (.los l mv) s = .next s :=
  exec_upd_same exec_los_upd ((if_neg (by omega)).trans (if_neg (by omega)))

variable {e : Nat} {ppm : Int}

/-- What a report of the phase error and the offset does to the block. -/
def Block.lockSeen (b : Block) (l e : Nat) (ppm : Int) : Block :=
  if lolCondition e ppm then (b.modLane l fun x => { x with lol := true }).fastAlarm l 2 (b.inOwnWindow l)
  else b.modLane l fun x => { x with lol := false }

theorem exec_lol_upd : exec (.lol l e ppm) s = s.upd (·.lockSeen l e ppm) := rfl

theorem lol_hunt (hunt : (s.blk.lane l).st = .hunt) (asserts : lolCondition e ppm = true) :
    Does (.lol l e ppm) s [.lane l, .reg (lnOff Off.lnAlarm l)] fun b =>
      b.lane l = { s.blk.lane l with lol := true } ∧ b.regBit (lnOff Off.lnAlarm l) 1 = true := by
  have stays : ((s.blk.modLane l fun x => { x with lol := true }).lane l).st = .hunt := by rw [Block.lane_modLane_same]; exact hunt
  refine does_upd_eq exec_lol_upd (c := (s.blk.modLane l fun x => { x with lol := true }).orReg (lnOff Off.lnAlarm l) 2) ?_ ?_ ?_
  · refine (if_pos asserts).trans ?_
    rw [Block.inOwnWindow_hunt hunt, Block.fastAlarm_drops (.inl stays), Block.dropLaneFull_idle (by simp [Lane.inRun, hunt])]
  · exact Kept.step (Block.orReg_kept ..) (Within.of_subset (by simp)) ((Block.modLane_kept ..).mono (Within.of_subset (by simp)))
  · exact ⟨by rw [Block.lane_orReg, Block.lane_modLane_same], by simp [Block.regBit_orReg]⟩

theorem lol_ends (h : lolCondition e ppm = false) : Does (.lol l e ppm) s [.lane l] fun b => b.lane l = { s.blk.lane l with lol := false } :=
  does_lane exec_lol_upd (if_neg (by simp [h])) rfl

end

/-! ### Degraded lanes (R102, R133) -/

/-- A wish for a window stands as a wish or has been asked for. -/
theorem Block.askWindow_wants (b : Block) (sd : Side) : ((b.askWindow sd).side sd).winWant = true ∨ ((b.askWindow sd).side sd).winAsked = true := by
  unfold Block.askWindow Block.tryAsk
  dsimp only
  split
  · right; simp [Block.sendSeg]
  · left; simp

section
variable {s : State} {l : LaneId} {c n u : Nat}

/-- What a check against R133's triggers does to the block. -/
def Block.degradeSeen (b : Block) (l c n u : Nat) : Block :=
  if berHigh (b.lane l).grade c n ∨ 2 ≤ u ∨ b.regBit (lnOff Off.lnAlarm l) 2 then
    match (b.lane l).st with
    | .run => (b.modLane l fun x => { x with st := .degraded, degradedAt := some b.ck.tide, winSince := none }).askWindow (laneSide l)
    | .degraded => b.modLane l fun x => { x with winSince := x.winSince.map fun _ => b.ck.tide }
    | _ => b
  else b

theorem exec_degradeCheck_upd : exec (.degradeCheck l c n u) s = s.upd (·.degradeSeen l c n u) := rfl

theorem degradeCheck_degrades (runs : (s.blk.lane l).st = .run)
    (trigger : berHigh (s.blk.lane l).grade c n = true ∨ 2 ≤ u ∨ s.blk.regBit (lnOff Off.lnAlarm l) 2 = true) :
    Does (.degradeCheck l c n u) s [.lane l, .side (laneSide l)] fun b =>
      b.lane l = { s.blk.lane l with st := .degraded, degradedAt := some s.blk.ck.tide, winSince := none }
        ∧ ((b.side (laneSide l)).winWant = true ∨ (b.side (laneSide l)).winAsked = true) := by
  refine does_upd_eq exec_degradeCheck_upd (c := (s.blk.modLane l fun x =>
      { x with st := .degraded, degradedAt := some s.blk.ck.tide, winSince := none }).askWindow (laneSide l)) ?_ ?_
    ⟨?_, Block.askWindow_wants ..⟩
  · refine (if_pos trigger).trans ?_
    simp only [runs]
  · exact Kept.step (Block.askWindow_kept ..) (Within.of_subset (by simp)) ((Block.modLane_kept ..).mono (Within.of_subset (by simp)))
  · exact ((Block.askWindow_kept ..).out (.lane l) (by simp [Piece.among])).trans (Block.lane_modLane_same ..)

theorem exec_degradeCheck_quiet (ber : berHigh (s.blk.lane l).grade c n = false) (few : u < 2)
    (alarm : s.blk.regBit (lnOff Off.lnAlarm l) 2 = false) :
    exec (.degradeCheck l c n u) s = .next s :=
  exec_upd_same exec_degradeCheck_upd (if_neg (by simp [ber, few, alarm]))

theorem degradedClear_runs {t : Tide} (degraded : (s.blk.lane l).st = .degraded) (window : (s.blk.lane l).winSince = some t)
    (passed : msTicks ≤ s.blk.since t) :
    Does (.degradedClear l) s [.lane l] fun b => b.lane l = { s.blk.lane l with st := .run, degradedAt := none, winSince := none } :=
  does_lane (i := .degradedClear l) rfl (if_pos ⟨degraded, by simp [window], by rw [window]; exact decide_eq_true passed⟩) rfl

theorem degradedTimeout_drops {x : SideSt} {m : BitVec 16} (degraded : (s.blk.lane l).st = .degraded)
    (old : s.blk.olderThan (10 * msTicks) (s.blk.lane l).degradedAt = true) (hx : x = s.blk.side (laneSide l)) (seg : x.seg = .run)
    (listed : x.nextMask.getLsbD (laneIx l) = true) (hm : m = x.nextMask &&& ~~~ laneBit l) (others : m ≠ 0) :
    Does (.degradedTimeout l) s [.side (laneSide l)] fun b =>
      b.side (laneSide l) = ({ x with pass := x.pass &&& ~~~ laneBit l } : SideSt).reforming m :=
  have dropped := Block.dropLaneFull_reforms (Lane.inRun_iff.mpr (.inr degraded)) hx seg listed hm others
  does_upd_eq (i := .degradedTimeout l) rfl (if_pos ⟨degraded, old⟩) dropped.1 dropped.2

end

/-! ### PRBS of the link (R138) -/

section
variable {s : State} {l : LaneId}

theorem prbs_runs {q p : BitVec 8} {n : BitVec 16} (train : (s.blk.lane l).st = .train) (known : p.toNat < 3)
    (new : (s.blk.lane l).rxSeq ≠ some q) :
    Does (.prbs l q p n) s [.lane l] fun b =>
      b.lane l = { s.blk.lane l with prbsRun := some (p.truncate 2), prbsAt := some s.blk.ck.tide, prbsMs := n, msg := .prbs (p.truncate 2) n
                                     rxSeq := some q } :=
  does_lane (i := .prbs l q p n) rfl (if_pos ⟨train, known, by simpa [newSeq] using new⟩) rfl

/-- What the end of a pattern's duration does to the block. -/
def Block.patternDone (b : Block) (l n e : Nat) : Block := if b.prbsOver l then (b.countPrbs l n e).prbsEnd l else b

theorem exec_lanePrbsEnd_upd (n e : BitVec 48) : exec (.lanePrbsEnd l n e) s = s.upd (·.patternDone l n.toNat e.toNat) := rfl

/-- A lane of no manifest whose pattern ends, and that has not passed, stays in TRAIN without it. -/
theorem Block.prbsEnd_alone {b : Block} (train : (b.lane l).st = .train) (runs : (b.lane l).prbsRun.isSome = true)
    (failed : (b.lane l).passed = false) (alone : (b.lane l).prbsOwner = none) :
    b.prbsEnd l = b.modLane l fun x => { x with prbsRun := none, prbsAt := none, prbsOwner := none, prbsMs := 0, msg := .idle } := by
  have going : ((b.lane l).st != .train || (b.lane l).prbsRun.isNone) = false := by simpa [train] using runs
  unfold Block.prbsEnd
  dsimp only
  rw [going, alone, failed, Bool.and_false]
  rfl

theorem lanePrbsEnd_ends {p : BitVec 2} {n e : BitVec 48} (train : (s.blk.lane l).st = .train) (runs : (s.blk.lane l).prbsRun = some p)
    (ended : s.blk.prbsOver l = true) (failed : (s.blk.lane l).passed = false) (sync : (s.blk.lane l).prbsSync = false)
    (alone : (s.blk.lane l).prbsOwner = none) :
    Does (.lanePrbsEnd l n e) s [.lane l] fun b =>
      b.lane l = { s.blk.lane l with prbsRun := none, prbsAt := none, prbsOwner := none, prbsMs := 0, msg := .idle } := by
  have ends : s.blk.patternDone l n.toNat e.toNat = s.blk.prbsEnd l := by rw [Block.patternDone, if_pos ended, Block.countPrbs_idle (.inl sync)]
  exact does_lane (exec_lanePrbsEnd_upd n e) (ends.trans (Block.prbsEnd_alone train (by rw [runs]; rfl) failed alone)) rfl

end

/-- Settles O27: the checker by its bits, the fast alarms by the lane's state, and a lane that leaves its segment by REFORM. -/
theorem patternsAndAlarms : Obligations.PatternsAndAlarms :=
  ⟨fun _ _ _ _ _ => prbs_runs, fun _ _ _ _ _ => lanePrbsEnd_ends, fun _ _ _ _ => prbsSync_hunts,
    fun _ _ _ _ _ => exec_prbsSync_cons, fun _ _ _ _ => prbsSyncLost_compares, fun _ _ _ _ _ => exec_prbsSync_cons,
    fun _ _ _ idle => ⟨exec_upd_same rfl (Block.checkBits_idle idle), exec_upd_same rfl (Block.checkBits_idle idle)⟩,
    fun _ _ _ _ => prbsSaturated_counts, fun _ _ _ _ h => exec_upd_same (exec_prbsSaturated_upd ..) (Block.countPrbs_idle h),
    fun _ _ _ hunt _ => los_hunt hunt, fun _ _ _ => los_hidden, fun _ _ _ _ _ => los_reforms, fun _ _ _ => los_ends, fun _ _ _ => exec_los_between,
    fun _ _ _ _ => lol_hunt, fun _ _ _ _ => lol_ends, fun _ _ _ _ _ => degradeCheck_degrades, fun _ _ _ _ _ => exec_degradeCheck_quiet,
    fun _ _ _ => degradedClear_runs, fun _ _ _ _ => degradedTimeout_drops⟩

end Sys2Proof.Machine
end

section
/-! SUPPORT. Tap requests of both ends, the search by figures of merit, and the verdicts of a lane's training (R115 to R119). -/

namespace Sys2Proof.Machine

open Sys2Proof

/-! ### Requests of the partner (R115, R116) -/

section
variable {b : Block} {l : Nat} {q tap act : BitVec 8}

theorem Block.olderThan_mono {n k : Nat} {t : Option Tide} (h : b.olderThan n t = true) (le : k ≤ n) : b.olderThan k t = true := by
  cases t with
  | none => rfl
  | some t => exact decide_eq_true (le.trans (of_decide_eq_true h))

/-- A lane that has answered a tap request. -/
def Lane.answered (x : Lane) (now : Tide) (seq st : BitVec 8) : Lane :=
  { x with tapAns := some ⟨seq, st, x.txSeq + 1⟩, tapAt := some now, msg := .tapRsp ⟨seq, st, x.txSeq + 1⟩, txSeq := x.txSeq + 1 }

@[simp] theorem Block.lane_draw (k : Nat) : b.draw.lane k = b.lane k := rfl

@[simp] theorem Block.answerTap_lane (st : BitVec 8) : (b.answerTap l q st).lane l = (b.lane l).answered b.ck.tide q st := by
  rw [Block.answerTap, Block.lane_draw, Block.lane_modLane_same]; rfl

/-- A new request, not sooner than 1 µs after the last answer, is acted on whatever the pier's own delay. -/
theorem Block.takeTapReq_new (train : (b.lane l).st = .train) (new : ∀ a, (b.lane l).tapAns = some a → a.seq ≠ q)
    (old : b.olderThan usTicks (b.lane l).tapAt = true) : b.takeTapReq l q tap act = b.newTapReq l q tap act := by
  have trains : ((b.lane l).st != .train) = false := by rw [train]; rfl
  unfold Block.takeTapReq
  simp only [trains, Bool.false_eq_true, if_false]
  split
  · next a ans =>
    have due : b.olderThan (Config.tapDelay b.fresh).val (b.lane l).tapAt = true :=
      Block.olderThan_mono old (Nat.le_of_lt_succ (Config.tapDelay b.fresh).isLt)
    rw [if_neg (new a ans), if_pos due]
  · rfl

theorem Block.takeTapReq_again {a : TapAns} (train : (b.lane l).st = .train) (ans : (b.lane l).tapAns = some a) :
    b.takeTapReq l a.seq tap act = b.modLane l fun x => { x with msg := .tapRsp a } := by
  unfold Block.takeTapReq
  simp [train, ans]

/-- What a new request makes of the lane: the taps asked for where they are legal, and its answer. -/
theorem Block.newTapReq_lane {t : Taps} (asked : tapAsked (b.lane l).taps tap.toNat act.toNat = some t) :
    (b.newTapReq l q tap act).lane l
      = ((b.lane l).withTaps (if t.legal then t else (b.lane l).taps)).answered b.ck.tide q (if t.legal then 0 else 1) := by
  unfold Block.newTapReq
  simp only [asked]
  split
  · rw [Block.answerTap_lane, Block.lane_modLane_same]; rfl
  · exact Block.answerTap_lane ..

theorem Block.newTapReq_bad (asked : tapAsked (b.lane l).taps tap.toNat act.toNat = none) : b.newTapReq l q tap act = b.answerTap l q 2 := by
  unfold Block.newTapReq
  simp only [asked]

end

section
variable {s : State} {l : LaneId} {q tap act : BitVec 8}

/-- What a TAP_REQ does to the block. -/
def Block.tapReqSeen (b : Block) (l : Nat) (q tap act : BitVec 8) : Block :=
  (b.takeTapReq l q tap act).modLane l fun x => if x.st = .train then { x with rxSeq := some q } else x

theorem exec_tapReq_upd : exec (.tapReq l q tap act) s = s.upd (·.tapReqSeen l q tap act) := rfl

theorem does_tapReq {post : Block → Prop} (h : post (s.blk.tapReqSeen l q tap act)) : Does (.tapReq l q tap act) s [.fresh, .lane l] post :=
  does_upd exec_tapReq_upd (Kept.step (Block.modLane_kept ..) (Within.of_subset (by simp)) (Block.takeTapReq_kept ..)) h

theorem tapReq_known {t : Taps} (train : (s.blk.lane l).st = .train) (new : ∀ a, (s.blk.lane l).tapAns = some a → a.seq ≠ q)
    (old : s.blk.olderThan usTicks (s.blk.lane l).tapAt = true) (asked : tapAsked (s.blk.lane l).taps tap.toNat act.toNat = some t) :
    Does (.tapReq l q tap act) s [.fresh, .lane l] fun b =>
      (b.lane l).taps = (if t.legal then t else (s.blk.lane l).taps)
        ∧ (b.lane l).tapAns = some ⟨q, if t.legal then 0 else 1, (s.blk.lane l).txSeq + 1⟩
        ∧ (b.lane l).msg = .tapRsp ⟨q, if t.legal then 0 else 1, (s.blk.lane l).txSeq + 1⟩ ∧ (b.lane l).st = .train := by
  refine does_tapReq ?_
  rw [Block.tapReqSeen, Block.takeTapReq_new train new old, Block.lane_modLane_same, Block.newTapReq_lane asked]
  have still : (((s.blk.lane l).withTaps (if t.legal then t else (s.blk.lane l).taps)).answered s.blk.ck.tide q (if t.legal then 0 else 1)).st
      = .train := train
  rw [if_pos still]
  exact ⟨rfl, rfl, rfl, train⟩

theorem tapReq_unknown (train : (s.blk.lane l).st = .train) (new : ∀ a, (s.blk.lane l).tapAns = some a → a.seq ≠ q)
    (old : s.blk.olderThan usTicks (s.blk.lane l).tapAt = true) (asked : tapAsked (s.blk.lane l).taps tap.toNat act.toNat = none) :
    Does (.tapReq l q tap act) s [.fresh, .lane l] fun b =>
      (b.lane l).taps = (s.blk.lane l).taps ∧ (b.lane l).tapAns = some ⟨q, 2, (s.blk.lane l).txSeq + 1⟩
        ∧ (b.lane l).msg = .tapRsp ⟨q, 2, (s.blk.lane l).txSeq + 1⟩ := by
  refine does_tapReq ?_
  rw [Block.tapReqSeen, Block.takeTapReq_new train new old, Block.newTapReq_bad asked, Block.lane_modLane_same, Block.answerTap_lane]
  have still : ((s.blk.lane l).answered s.blk.ck.tide q 2).st = .train := train
  rw [if_pos still]
  exact ⟨rfl, rfl, rfl⟩

theorem tapReq_again {a : TapAns} (train : (s.blk.lane l).st = .train) (ans : (s.blk.lane l).tapAns = some a) :
    Does (.tapReq l a.seq tap act) s [.lane l] fun b => b.lane l = { s.blk.lane l with msg := .tapRsp a, rxSeq := some a.seq } := by
  have made : s.blk.tapReqSeen l a.seq tap act
      = (s.blk.modLane l fun x => { x with msg := .tapRsp a }).modLane l fun x => if x.st = .train then { x with rxSeq := some a.seq } else x := by
    rw [Block.tapReqSeen, Block.takeTapReq_again train ans]
  exact does_lane_twice exec_tapReq_upd made (if_pos train)

end

/-! ### The pier's own search (R117, R118) -/

section
variable {s : State} {l : LaneId} {t : TapOut} {c : Search}

/-- The answer to the outstanding request, of a search that undoes nothing. -/
theorem Block.takeTapRsp_step {b : Block} {l : Nat} {st : BitVec 8} (train : (b.lane l).st = .train) (out : (b.lane l).tapOut = some t)
    (search : (b.lane l).search = some c) (fresh : c.undo = false) :
    b.takeTapRsp l t.seq st = if c.started ∧ st ≠ 0 then (b.modLane l fun x => { x with tapOut := none }).searchNext l c
      else b.modLane l fun x => { x with tapOut := none } := by
  unfold Block.takeTapRsp
  simp [train, out, search, fresh]

theorem exec_tapRsp_upd {q st : BitVec 8} : exec (.tapRsp l q st) s = s.upd (·.takeTapRsp l q st) := rfl

theorem tapRsp_applied (train : (s.blk.lane l).st = .train) (out : (s.blk.lane l).tapOut = some t) (search : (s.blk.lane l).search = some c)
    (fresh : c.undo = false) : Does (.tapRsp l t.seq 0) s [.lane l] fun b => b.lane l = { s.blk.lane l with tapOut := none } :=
  does_lane exec_tapRsp_upd ((Block.takeTapRsp_step train out search fresh).trans (if_neg (by simp))) rfl

theorem tapRsp_refused {st : BitVec 8} (train : (s.blk.lane l).st = .train) (out : (s.blk.lane l).tapOut = some t)
    (search : (s.blk.lane l).search = some c) (fresh : c.undo = false) (started : c.started = true) (up : c.up = true) (refused : st ≠ 0) :
    Does (.tapRsp l t.seq st) s [.lane l] fun b =>
      (b.lane l).tapOut = some ⟨(s.blk.lane l).txSeq + 1, searchTap c.tapIx, 2, 0⟩ ∧ (b.lane l).reqAt = s.blk.ck.tide
        ∧ (b.lane l).search.map (·.best) = some c.best := by
  have down : (s.blk.modLane l fun x => { x with tapOut := none }).searchNext l c
      = (s.blk.modLane l fun x => { x with tapOut := none }).modLane l fun x => x.askStep s.blk.ck.tide { c with undo := false, up := false } :=
    if_pos up
  refine does_upd_eq exec_tapRsp_upd (((Block.takeTapRsp_step train out search fresh).trans (if_pos ⟨started, refused⟩)).trans down)
    (Kept.step (Block.modLane_kept ..) .refl (Block.modLane_kept ..)) ?_
  rw [Block.lane_modLane_same, Block.lane_modLane_same]
  exact ⟨rfl, rfl, rfl⟩

/-- The lane with the values that its equalisers may take (R69). -/
def Block.adapted (b : Block) (l : Nat) (ctle : BitVec 4) (ffe : List (BitVec 8)) (dfe : BitVec 7) : Lane :=
  if b.regBit (lnOff Off.lnCtrl l) 2 then b.lane l
  else { b.lane l with
    ctle := if b.regBit (lnOff Off.lnCtrl l) 1 then (b.lane l).ctle else ctle
    rxFfe := ffe.take 12, dfe := if 64 < dfe.toNat then 64 else dfe }

theorem Block.adapt_lane {b : Block} {l : Nat} {ctle : BitVec 4} {ffe : List (BitVec 8)} {dfe : BitVec 7} (train : (b.lane l).st = .train) :
    (b.adapt l ctle ffe dfe).lane l = b.adapted l ctle ffe dfe := by
  unfold Block.adapt Block.adapted
  cases b.regBit (lnOff Off.lnCtrl l) 2
  · simp [train]
  · simp

theorem exec_fomMeasureDone_upd {fom : Nat} {ctle : BitVec 4} {ffe : List (BitVec 8)} {dfe : BitVec 7} :
    exec (.fomMeasureDone l fom ctle ffe dfe) s = s.upd (·.fomDone l fom ctle ffe dfe) := rfl

theorem fomMeasureDone_starts {fom : Nat} {ctle : BitVec 4} {ffe : List (BitVec 8)} {dfe : BitVec 7} (train : (s.blk.lane l).st = .train)
    (idle : (s.blk.lane l).tapOut = none) (search : (s.blk.lane l).search = some c) (first : c.started = false) :
    Does (.fomMeasureDone l fom ctle ffe dfe) s [.lane l] fun b =>
      (b.lane l).st = .train ∧ (b.lane l).tapOut = some ⟨(s.blk.lane l).txSeq + 1, 2, 1, 0⟩
        ∧ (b.lane l).search.map (·.best) = some fom
        ∧ (b.lane l).dfe = (if s.blk.regBit (lnOff Off.lnCtrl l) 2 then (s.blk.lane l).dfe else if 64 < dfe.toNat then 64 else dfe)
        ∧ (b.lane l).ctle = (if s.blk.regBit (lnOff Off.lnCtrl l) 2 || s.blk.regBit (lnOff Off.lnCtrl l) 1 then (s.blk.lane l).ctle else ctle) := by
  refine does_upd exec_fomMeasureDone_upd (Block.fomDone_kept ..) ?_
  have made : (s.blk.fomDone l fom ctle ffe dfe).lane l
      = (s.blk.adapted l ctle ffe dfe).askStep (s.blk.adapt l ctle ffe dfe).ck.tide
          { c with started := true, best := fom, tapIx := 0, up := true } := by
    unfold Block.fomDone
    simp only [train, idle, search, first, Bool.not_false, if_true]
    rw [Block.lane_modLane_same, Block.adapt_lane train]
  rw [made, Block.adapted]
  cases s.blk.regBit (lnOff Off.lnCtrl l) 2
  · exact ⟨train, rfl, rfl, rfl, by simp; rfl⟩
  · exact ⟨train, rfl, rfl, rfl, rfl⟩

end

/-! ### Verdicts (R117, R119) -/

theorem Block.wakeWaiter_alone {b : Block} {sd : Side} (alone : (b.side sd).waiter = none) : b.wakeWaiter sd = b := by
  unfold Block.wakeWaiter
  rw [alone]

theorem Block.checkOpen_open {b : Block} (opened : b.pw.st = .openS) : b.checkOpen = b := by
  unfold Block.checkOpen
  simp [opened]

/-- An outcome that leaves the segment as it is, on a side that no manifest waits for, in OPEN. -/
theorem Block.outcome_still {b : Block} {l : Nat} (same : b.laneOutcome l = b) (alive : (b.lane l).st ≠ .failed)
    (alone : (b.side (laneSide l)).waiter = none) (opened : b.pw.st = .openS) : b.outcome l = b := by
  have stays : ¬ ((b.side (laneSide l)).seg = .run ∧ (b.side (laneSide l)).seg ≠ .run) := fun h => h.2 h.1
  unfold Block.outcome
  simp only [same]
  split
  · next failed => exact absurd failed alive
  · rw [if_neg stays, Block.wakeWaiter_alone alone, Block.checkOpen_open opened]

theorem Block.laneOutcome_open {b : Block} {l : Nat} (h : (b.lane l).resolved = false) : b.laneOutcome l = b := if_pos (by simp [h])

/-- One verdict alone decides nothing. -/
theorem Lane.resolved_train {x : Lane} (train : x.st = .train) : x.resolved = (x.doneOwn.isSome && x.donePeer.isSome) := by
  simp only [Lane.resolved, train]

/-- A training side waits while a lane of it trains. -/
theorem Block.checkSide_waits {b : Block} {sd : Side} {k : Nat} (listed : k ∈ b.trainLanes sd) (h : (b.lane k).resolved = false) :
    b.checkSide sd = b := by
  have trains : ((b.trainLanes sd).any fun l => !(b.lane l).resolved) = true := List.any_eq_true.mpr ⟨k, listed, by simp [h]⟩
  unfold Block.checkSide
  simp [trains]

theorem Block.laneOutcome_waits {b : Block} {l k : Nat} (cold : (b.side (laneSide l)).warmAll = false) (seg : (b.side (laneSide l)).seg = .training)
    (listed : k ∈ b.trainLanes (laneSide l)) (h : (b.lane k).resolved = false) : b.laneOutcome l = b := by
  unfold Block.laneOutcome
  simp [cold, seg, Block.checkSide_waits listed h]

/-- Lanes count as training ones by what a verdict does not touch. -/
theorem Block.trainLanes_congr {b c : Block} (sd : Side) (usable : ∀ l, c.laneUsable l = b.laneUsable l)
    (st : ∀ l, (c.lane l).st = (b.lane l).st) :
    c.trainLanes sd = b.trainLanes sd := by
  simp only [Block.trainLanes, usable, st]

section
variable {s : State} {l : LaneId}

theorem exec_tapReqTimeout_upd : exec (.tapReqTimeout l) s = s.upd (·.tapTimeout l) := rfl

theorem Block.tapTimeout_due {b : Block} {l : Nat} {t : TapOut} (train : (b.lane l).st = .train) (out : (b.lane l).tapOut = some t)
    (due : 20 * usTicks ≤ b.since (b.lane l).reqAt) : b.tapTimeout l = if t.repeats < 4 then
      b.modLane l fun x =>
        { x with reqAt := b.ck.tide, tapOut := some { t with repeats := t.repeats + 1 }, msg := .tapReq { t with repeats := t.repeats + 1 } }
    else (b.modLane l fun x => x.sendDone false ((x.search.map (·.best)).getD 0)).outcome l := by
  have late : ¬ b.since (b.lane l).reqAt < 20 * usTicks := by omega
  unfold Block.tapTimeout
  simp only [train, out, late, if_false]

theorem tapReqTimeout_repeats {t : TapOut} (train : (s.blk.lane l).st = .train) (out : (s.blk.lane l).tapOut = some t) (few : t.repeats < 4)
    (due : 20 * usTicks ≤ s.blk.since (s.blk.lane l).reqAt) :
    Does (.tapReqTimeout l) s [.lane l] fun b =>
      b.lane l = { s.blk.lane l with reqAt := s.blk.ck.tide, tapOut := some { t with repeats := t.repeats + 1 }
                                     msg := .tapReq { t with repeats := t.repeats + 1 } } :=
  does_lane exec_tapReqTimeout_upd ((Block.tapTimeout_due train out due).trans (if_pos few)) rfl

theorem tapReqTimeout_fails {t : TapOut} (train : (s.blk.lane l).st = .train) (out : (s.blk.lane l).tapOut = some t) (many : 4 ≤ t.repeats)
    (due : 20 * usTicks ≤ s.blk.since (s.blk.lane l).reqAt) (peer : (s.blk.lane l).donePeer = none)
    (alone : (s.blk.side (laneSide l)).waiter = none) (opened : s.blk.pw.st = .openS) :
    Does (.tapReqTimeout l) s [.lane l] fun b =>
      (b.lane l).st = .train ∧ (b.lane l).doneOwn = some false ∧ (b.lane l).tapOut = none ∧ (b.lane l).search = none := by
  set b := s.blk.modLane l fun x => x.sendDone false ((x.search.map (·.best)).getD 0) with hb
  have lane : b.lane l = (s.blk.lane l).sendDone false (((s.blk.lane l).search.map (·.best)).getD 0) := Block.lane_modLane_same ..
  have still : (b.lane l).st = .train := by rw [lane]; exact train
  have single : (b.lane l).donePeer = none := by rw [lane]; exact peer
  have waits : b.outcome l = b :=
    Block.outcome_still (Block.laneOutcome_open (by rw [Lane.resolved_train still, single]; simp)) (by simp [still])
      (by rw [hb, Block.side_modLane]; exact alone) opened
  have made : s.blk.tapTimeout l = b := ((Block.tapTimeout_due train out due).trans (if_neg (by omega))).trans waits
  refine does_modLane exec_tapReqTimeout_upd made ⟨still, ?_⟩
  rw [← hb, lane]
  exact ⟨rfl, rfl, rfl⟩

/-- What a partner's verdict does to the block. -/
def Block.verdictSeen (b : Block) (l : Nat) (q : BitVec 8) (p : Bool) : Block :=
  if (b.lane l).st = .train ∧ newSeq (b.lane l).rxSeq q then (b.modLane l fun x => { x with donePeer := some p, rxSeq := some q }).outcome l else b

theorem exec_tapDone_upd {q : BitVec 8} {p : Bool} {f : BitVec 8} : exec (.tapDone l q p f) s = s.upd (·.verdictSeen l q p) := rfl

theorem tapDone_first {q : BitVec 8} {p : Bool} {f : BitVec 8} (train : (s.blk.lane l).st = .train) (own : (s.blk.lane l).doneOwn = none)
    (new : (s.blk.lane l).rxSeq ≠ some q) (alone : (s.blk.side (laneSide l)).waiter = none) (opened : s.blk.pw.st = .openS) :
    Does (.tapDone l q p f) s [.lane l] fun b => b.lane l = { s.blk.lane l with donePeer := some p, rxSeq := some q } := by
  set b := s.blk.modLane l fun x => { x with donePeer := some p, rxSeq := some q } with hb
  have lane : b.lane l = { s.blk.lane l with donePeer := some p, rxSeq := some q } := Block.lane_modLane_same ..
  have still : (b.lane l).st = .train := by rw [lane]; exact train
  have single : (b.lane l).doneOwn = none := by rw [lane]; exact own
  have waits : b.outcome l = b :=
    Block.outcome_still (Block.laneOutcome_open (by rw [Lane.resolved_train still, single]; rfl)) (by simp [still])
      (by rw [hb, Block.side_modLane]; exact alone) opened
  exact does_lane exec_tapDone_upd ((if_pos ⟨train, by simpa [newSeq] using new⟩).trans waits) rfl

theorem exec_tapDone_idle {q : BitVec 8} {p : Bool} {f : BitVec 8} (h : (s.blk.lane l).st ≠ .train ∨ (s.blk.lane l).rxSeq = some q) :
    exec (.tapDone l q p f) s = .next s :=
  exec_upd_same exec_tapDone_upd (if_neg fun due => h.elim (· due.1) fun seen => by simp [newSeq, seen] at due)

/-- What a lane does that has trained for 5 ms. -/
def Block.trainLate (b : Block) (l : Nat) : Block :=
  if (b.lane l).st = .train ∧ 5 * msTicks ≤ b.since (b.lane l).since then
    if (b.side (laneSide l)).moveOut.isSome then b.moveTaken (laneSide l)
    else if (b.lane l).resolved then b
    else (b.modLane l fun x => { x with doneOwn := some (x.doneOwn.getD false), donePeer := some false }).outcome l
  else b

theorem exec_trainTimeout_upd : exec (.trainTimeout l) s = s.upd (·.trainLate l) := rfl

theorem trainTimeout_fails {k : Nat} (train : (s.blk.lane l).st = .train) (peer : (s.blk.lane l).donePeer = none)
    (late : 5 * msTicks ≤ s.blk.since (s.blk.lane l).since) (cold : (s.blk.side (laneSide l)).warmAll = false)
    (seg : (s.blk.side (laneSide l)).seg = .training) (listed : k ∈ s.blk.trainLanes (laneSide l)) (other : k ≠ l)
    (open_ : (s.blk.lane k).resolved = false) (alone : (s.blk.side (laneSide l)).waiter = none) (opened : s.blk.pw.st = .openS)
    (unmoved : (s.blk.side (laneSide l)).moveOut = none) :
    Does (.trainTimeout l) s [.lane l] fun b =>
      b.lane l = { s.blk.lane l with doneOwn := some ((s.blk.lane l).doneOwn.getD false), donePeer := some false } := by
  set b := s.blk.modLane l fun x => { x with doneOwn := some (x.doneOwn.getD false), donePeer := some false } with hb
  have lane : b.lane l = { s.blk.lane l with doneOwn := some ((s.blk.lane l).doneOwn.getD false), donePeer := some false } :=
    Block.lane_modLane_same ..
  have still : (b.lane l).st = .train := by rw [lane]; exact train
  have side : b.side (laneSide l) = s.blk.side (laneSide l) := Block.side_modLane ..
  have others (j : Nat) : (b.lane j).st = (s.blk.lane j).st ∧ (b.lane j).unusable = (s.blk.lane j).unusable := by
    rw [hb, Block.lane_modLane]
    split
    · next same => subst same; exact ⟨rfl, rfl⟩
    · exact ⟨rfl, rfl⟩
  have usable (j : Nat) : b.laneUsable j = s.blk.laneUsable j := by
    have enabled : b.laneEnabled j = s.blk.laneEnabled j := by
      rw [Block.laneEnabled, (others j).2]; rfl
    unfold Block.laneUsable
    rw [enabled]; rfl
  have waiting : (b.lane k).resolved = false := by rw [hb, Block.lane_modLane, if_neg other.symm]; exact open_
  have trains : k ∈ b.trainLanes (laneSide l) := by
    rw [Block.trainLanes_congr _ usable fun j => (others j).1]; exact listed
  have waits : b.outcome l = b :=
    Block.outcome_still (Block.laneOutcome_waits (by rw [side]; exact cold) (by rw [side]; exact seg) trains waiting) (by simp [still])
      (by rw [side]; exact alone) opened
  have unresolved : ¬ (s.blk.lane l).resolved = true := by rw [Lane.resolved_train train, peer]; simp
  have late_ : s.blk.trainLate l = b.outcome l := by
    rw [Block.trainLate, if_pos ⟨train, late⟩, unmoved, if_neg (by simp), if_neg unresolved]
  exact does_lane exec_trainTimeout_upd (late_.trans waits) rfl

end

/-- Settles O25: each message and timer of a lane in TRAIN by what it makes of the lane; one verdict of two, or of several lanes, moves
nothing else. -/
theorem tapRequestsAndVerdicts : Obligations.TapRequestsAndVerdicts :=
  ⟨fun _ _ _ _ _ _ => tapReq_known, fun _ _ _ _ _ => tapReq_unknown, fun _ _ _ _ _ => tapReq_again, fun _ _ _ _ => tapRsp_applied,
    fun _ _ _ _ _ => tapRsp_refused, fun _ _ _ _ _ _ _ => fomMeasureDone_starts, fun _ _ _ => tapReqTimeout_repeats,
    fun _ _ _ => tapReqTimeout_fails, fun _ _ _ _ _ => tapDone_first, fun _ _ _ _ _ => exec_tapDone_idle, fun _ _ _ => trainTimeout_fails⟩

end Sys2Proof.Machine
end

section
/-! SUPPORT. The roles of two ends and their windows in LOCK (R106, R107), the windows of a running link (R129 to R132), and EC_DRIFT. -/

namespace Sys2Proof.Machine

open Sys2Proof

/-! ### HELLO (R106) -/

section
variable {b : Block} {l : Nat}

theorem Block.startHunt_lane (b : Block) (l : Nat) (g : Fin 4) (warm : Bool) :
    ((b.startHunt l g warm).lane l).st = .hunt ∧ ((b.startHunt l g warm).lane l).answerer = none ∧ ((b.startHunt l g warm).lane l).grade = g := by
  unfold Block.startHunt
  dsimp only
  rw [Block.lane_modLane_same]
  exact ⟨rfl, rfl, rfl⟩

theorem Block.rehunt_lane (b : Block) (l : Nat) :
    ((b.rehunt l).lane l).st = .hunt ∧ ((b.rehunt l).lane l).answerer = none ∧ ((b.rehunt l).lane l).grade = (b.side (laneSide l)).grade := by
  rw [Block.rehunt, Block.lane_modLane_same]
  exact b.startHunt_lane l _ _

/-- A listening lane that reads blocks of its segment's grade. -/
structure Lane.listens (x : Lane) : Prop where
  st : x.st = .hunt
  talking : x.talking = false
  blockLock : x.blockLock = true
  polKnown : x.polKnown = true
  answerer : x.answerer = none

theorem Block.takeHello_listening {roleA : Bool} {h : Hello} (listens : (b.lane l).listens) :
    b.takeHello l roleA (b.side (laneSide l)).grade h = if roleA then
        b.modLane l fun x => { x with st := .lock, since := b.ck.tide, answerer := some false, peer := some h, msg := .idle, txIdle := true }
      else if (b.lane l).hellos + 1 < 2 then b.modLane l fun x => { x with hellos := x.hellos + 1, peer := some h }
      else b.modLane l fun x => { x with hellos := 2, answerer := some true, peer := some h, talking := false, txIdle := true } := by
  obtain ⟨st, talking, lock, pol, role⟩ := listens
  unfold Block.takeHello
  simp [st, talking, lock, pol, role]

theorem Block.takeHello_twoAnswerers {g : Fin 4} {h : Hello} (lock : (b.lane l).st = .lock) (role : (b.lane l).answerer = some true) :
    b.takeHello l true g h = b.rehunt l := if_pos ⟨rfl, role, .inr lock⟩

end

section
variable {s : State} {l : LaneId} {q : BitVec 8} {h : Hello}

/-- What a HELLO does to the block. -/
def Block.helloSeen (b : Block) (l : Nat) (q : BitVec 8) (roleA : Bool) (g : Fin 4) (h : Hello) : Block :=
  (b.takeHello l roleA g h).modLane l fun x => if x.st = .off then x else { x with rxSeq := some q }

theorem exec_hello_upd {roleA : Bool} {g : Fin 4} : exec (.hello l q roleA g h) s = s.upd (·.helloSeen l q roleA g h) := rfl

theorem hello_answers (listens : (s.blk.lane l).listens) (second : (s.blk.lane l).hellos = 1) :
    Does (.hello l q false (s.blk.side (laneSide l)).grade h) s [.lane l] fun b =>
      b.lane l = { s.blk.lane l with hellos := 2, answerer := some true, peer := some h, talking := false, txIdle := true, rxSeq := some q } := by
  have made : s.blk.helloSeen l q false (s.blk.side (laneSide l)).grade h
      = (s.blk.modLane l fun x => { x with hellos := 2, answerer := some true, peer := some h, talking := false, txIdle := true }).modLane l
          fun x => if x.st = .off then x else { x with rxSeq := some q } := by
    rw [Block.helloSeen, Block.takeHello_listening listens, if_neg (by simp), second, if_neg (by decide)]
  exact does_lane_twice exec_hello_upd made (if_neg (by rw [listens.st]; decide))

theorem hello_talks (listens : (s.blk.lane l).listens) :
    Does (.hello l q true (s.blk.side (laneSide l)).grade h) s [.lane l] fun b =>
      b.lane l = { s.blk.lane l with st := .lock, since := s.blk.ck.tide, answerer := some false, peer := some h, msg := .idle
                                     txIdle := true, rxSeq := some q } := by
  have made : s.blk.helloSeen l q true (s.blk.side (laneSide l)).grade h
      = (s.blk.modLane l fun x =>
          { x with st := .lock, since := s.blk.ck.tide, answerer := some false, peer := some h, msg := .idle, txIdle := true }).modLane l
          fun x => if x.st = .off then x else { x with rxSeq := some q } := by
    rw [Block.helloSeen, Block.takeHello_listening listens, if_pos rfl]
  exact does_lane_twice exec_hello_upd made (if_neg (by simp))

theorem hello_twoAnswerers {g : Fin 4} (lock : (s.blk.lane l).st = .lock) (role : (s.blk.lane l).answerer = some true) :
    Does (.hello l q true g h) s [.lane l, .reg (lnOff Off.lnTxDrv l)] fun b =>
      (b.lane l).st = .hunt ∧ (b.lane l).answerer = none ∧ (b.lane l).rxSeq = some q := by
  have made : s.blk.helloSeen l q true g h = (s.blk.rehunt l).modLane l fun x => if x.st = .off then x else { x with rxSeq := some q } := by
    rw [Block.helloSeen, Block.takeHello_twoAnswerers lock role]
  obtain ⟨st, alone, -⟩ := s.blk.rehunt_lane l
  refine does_upd_eq exec_hello_upd made (Kept.step (Block.modLane_kept ..) (Within.of_subset (by simp)) (Block.rehunt_kept ..)) ?_
  rw [Block.lane_modLane_same, if_neg (by rw [st]; decide)]
  exact ⟨st, alone, rfl⟩

end

/-! ### Windows in LOCK (R59, R61, R107) -/

section
variable {s : State} {l : LaneId}

theorem los_opensWindow {mv : Nat} (low : mv < 40) (lock : (s.blk.lane l).st = .lock) (talker : (s.blk.lane l).answerer = some false)
    (first : (s.blk.lane l).winOwn = false) (closed : (s.blk.lane l).winAt = none) :
    Does (.los l mv) s [.cnt, .events, .fws, .ins, .lanes, .qy, .regs, .sides, .tl] fun b =>
      (b.lane l).winAt = some s.blk.ck.tide ∧ (b.lane l).msg = .window ((s.blk.lane l).windowAsk true) ∧ (b.lane l).txIdle = false
        ∧ (b.lane l).txSeq = (s.blk.lane l).txSeq + 1 := by
  have opens : (s.blk.loseSignal l).lane l = ((s.blk.lane l).lost s.blk.ck.tide).openWindow s.blk.ck.tide := by
    rw [Block.loseSignal, Block.lane_modLane_same]
    exact if_pos ⟨lock, talker, by simp [first], closed⟩
  have still : ((s.blk.loseSignal l).lane l).st = .lock := by rw [opens]; exact lock
  have excused : s.blk.inOwnWindow l = true := by
    unfold Block.inOwnWindow
    simp [lock, talker, first]
  have quiet : (s.blk.loseSignal l).fastAlarm l 1 true = s.blk.loseSignal l := by
    unfold Block.fastAlarm
    rw [still]
    rfl
  have made : s.blk.levelSeen l mv = s.blk.loseSignal l := by
    rw [Block.levelSeen, if_pos low, Block.signalLost, excused, quiet, Block.leftGrade_other (by simp [still])]
  refine does_upd_eq exec_los_upd made ((Block.loseSignal_kept ..).mono (Within.of rfl)) ?_
  rw [opens]
  exact ⟨rfl, by simp [Lane.openWindow, Lane.lost, talker]; rfl, rfl, rfl⟩

end

/-! ### Windows in LOCK (R59, R61, R107): how they end -/

section
variable {b : Block} {l : Nat}

theorem Block.winDiscard_field (b : Block) (l : Nat) :
    (b.winDiscard l).regField (lnOff Off.lnEcStatus l) 8 8 = min (b.regField (lnOff Off.lnEcStatus l) 8 8 + 1) 255 := by
  rw [Block.regField, Block.winDiscard, Block.reg_setReg_same, BitVec.toNat_ofNat]
  omega

theorem Block.winDiscard_reg (b : Block) (l : Nat) : Kept [.reg (lnOff Off.lnEcStatus l)] b (b.winDiscard l) := Kept.setReg ..

/-- The lane's own window: discarded, too short or with its taps held, or converged. -/
theorem Block.ownWindow_cases {ui sig : Nat} {e : BitVec 8} :
    b.ownWindow l ui sig e = if 1024 ≤ sig then b.winDiscard l
      else if ui < (b.lane l).windowNeed ∨ b.regBit (lnOff Off.lnCtrl l) 3 = true then b
      else b.modLane l fun x =>
        { x with ecConv := true, convCount := x.convCount + 1, erle := e, stored := x.stored ||| BitVec.ofNat 4 (2 ^ x.grade.val) } := by
  unfold Block.ownWindow Block.converge
  by_cases short : ui < (b.lane l).windowNeed <;> simp [short]

theorem Block.ownWindow_frame (ui sig : Nat) (e : BitVec 8) :
    Kept [.lane l, .reg (lnOff Off.lnEcStatus l)] b (b.ownWindow l ui sig e) := by
  rw [Block.ownWindow_cases]
  exact .ite ((b.winDiscard_reg l).mono (Within.of_subset (by simp)))
    (.ite (.refl ..) ((Block.modLane_kept ..).mono (Within.of_subset (by simp))))

/-- Its end touches neither the lane's state nor whose turn it is. -/
theorem Block.ownWindow_turn (ui sig : Nat) (e : BitVec 8) :
    ((b.ownWindow l ui sig e).lane l).st = (b.lane l).st ∧ ((b.ownWindow l ui sig e).lane l).winPeer = (b.lane l).winPeer := by
  rw [Block.ownWindow_cases]
  split
  · exact ⟨rfl, rfl⟩
  · split <;> simp

/-- The lane whose own window is over. -/
def Lane.ownOver (x : Lane) : Lane := { x with winOwn := true, txIdle := true, msg := .idle }

/-- The lane at the end of its partner's window: an answerer's own begins. -/
def Lane.peerOver (x : Lane) (now : Tide) : Lane :=
  if x.winOwn then { x with winPeer := true, answering := false } else { x with winPeer := true }.openWindow now

/-- After both windows the lane trains (R107). -/
def Block.bothOver (b : Block) (l : Nat) : Block := if (b.lane l).winOwn && (b.lane l).winPeer then b.enterTrain l else b

theorem Block.lockWindow_due {own : Bool} {ui sig : Nat} {e : BitVec 8} (lock : (b.lane l).st = .lock) (turn : (b.lane l).windowDue own = true)
    (ended : b.windowOver l own ui = true) :
    b.lockWindow l own ui sig e = if own then ((b.ownWindow l ui sig e).modLane l Lane.ownOver).bothOver l
      else (b.modLane l (Lane.peerOver · b.ck.tide)).bothOver l := by
  have due : ((b.lane l).st != .lock || !(b.lane l).windowDue own || !b.windowOver l own ui) = false := by simp [lock, turn, ended]
  unfold Block.lockWindow
  simp only [due, Bool.false_eq_true, if_false]
  cases own <;> rfl

theorem Block.bothOver_notYet (h : (b.lane l).winPeer = false ∨ (b.lane l).winOwn = false) : b.bothOver l = b :=
  if_neg (by rcases h with h | h <;> simp [h])

theorem Block.bothOver_trains (own : (b.lane l).winOwn = true) (peer : (b.lane l).winPeer = true) : b.bothOver l = b.enterTrain l :=
  if_pos (by simp [own, peer])

theorem Block.enterTrain_lane (b : Block) (l : Nat) :
    ((b.enterTrain l).lane l).st = .train ∧ ((b.enterTrain l).lane l).since = b.ck.tide ∧ ((b.enterTrain l).lane l).doneOwn = none
      ∧ ((b.enterTrain l).lane l).donePeer = none ∧ ((b.enterTrain l).lane l).winOwn = (b.lane l).winOwn
      ∧ ((b.enterTrain l).lane l).winPeer = (b.lane l).winPeer ∧ ((b.enterTrain l).lane l).tapOut.map (·.tap) = some 4 := by
  have spread : Kept [.events, .reg (sideOff Off.lnSideStatus (laneSide l)), .reg Off.lgAlarm, .side (laneSide l)] b
      (if (b.side (laneSide l)).seg = .training ∧ ¬ (b.side (laneSide l)).spreadTaken then b.applySpread (laneSide l) else b) :=
    .ite (b.applySpread_kept _) (.refl ..)
  have lane := spread.out (.lane l) (by simp [Piece.among])
  have ck := spread.ckEq (by simp [Piece.among]) (by simp [Piece.among])
  unfold Block.enterTrain
  dsimp only
  rw [Block.lane_modLane_same, ck, show _ = _ from lane]
  exact ⟨rfl, rfl, rfl, rfl, rfl, rfl, rfl⟩

end

section
variable {s : State} {l : LaneId} {ui sig : Nat} {e : BitVec 8}

theorem exec_lockWindowEnd_upd {own : Bool} : exec (.lockWindowEnd l own ui sig e) s = s.upd (·.lockWindow l own ui sig e) := rfl

theorem Block.windowOver_opened {b : Block} {l : Nat} (h : b.windowOver l true ui = true) : (b.lane l).winAt.isSome = true := by
  unfold Block.windowOver at h
  cases at_ : (b.lane l).winAt with
  | none => simp [at_] at h
  | some t => rfl

theorem lockWindowEnd_own (lock : (s.blk.lane l).st = .lock) (talker : (s.blk.lane l).answerer = some false) (first : (s.blk.lane l).winOwn = false)
    (waits : (s.blk.lane l).winPeer = false) (ended : s.blk.windowOver l true ui = true) :
    Does (.lockWindowEnd l true ui sig e) s [.lane l, .reg (lnOff Off.lnEcStatus l)] fun b =>
      (b.lane l).st = .lock ∧ (b.lane l).winOwn = true ∧ (b.lane l).winPeer = false ∧ (b.lane l).txIdle = true
        ∧ (1024 ≤ sig → b.regField (lnOff Off.lnEcStatus l) 8 8 = min (s.blk.regField (lnOff Off.lnEcStatus l) 8 8 + 1) 255
            ∧ (b.lane l).stored = (s.blk.lane l).stored ∧ (b.lane l).convCount = (s.blk.lane l).convCount)
        ∧ (sig < 1024 → (s.blk.lane l).windowNeed ≤ ui → s.blk.regBit (lnOff Off.lnCtrl l) 3 = false →
            (b.lane l).ecConv = true ∧ (b.lane l).convCount = (s.blk.lane l).convCount + 1 ∧ (b.lane l).erle = e
              ∧ (b.lane l).stored.getLsbD (s.blk.lane l).grade.val = true)
        ∧ (sig < 1024 → (ui < (s.blk.lane l).windowNeed ∨ s.blk.regBit (lnOff Off.lnCtrl l) 3 = true) →
            (b.lane l).ecConv = (s.blk.lane l).ecConv ∧ (b.lane l).stored = (s.blk.lane l).stored
              ∧ (b.lane l).convCount = (s.blk.lane l).convCount) := by
  have turn : (s.blk.lane l).windowDue true = true := by
    simp [Lane.windowDue, talker, first, Block.windowOver_opened ended]
  obtain ⟨st, peer⟩ := s.blk.ownWindow_turn (l := l) ui sig e
  set c := s.blk.ownWindow l ui sig e with hc
  have lane : (c.modLane l Lane.ownOver).lane l = (c.lane l).ownOver := Block.lane_modLane_same ..
  have made : s.blk.lockWindow l true ui sig e = c.modLane l Lane.ownOver := by
    rw [Block.lockWindow_due lock turn ended, if_pos rfl, Block.bothOver_notYet]
    exact .inl (by rw [Block.lane_modLane_same]; exact peer.trans waits)
  refine does_upd_eq exec_lockWindowEnd_upd made
    (Kept.step (Block.modLane_kept ..) (Within.of_subset (by simp)) (Block.ownWindow_frame ..)) ?_
  have reg (o : Nat) : (c.modLane l Lane.ownOver).regField o 8 8 = c.regField o 8 8 := rfl
  rw [lane, reg]
  refine ⟨st.trans lock, rfl, peer.trans waits, rfl, fun signal => ?_, fun quiet long free => ?_, fun quiet held => ?_⟩
  · have discarded : c = s.blk.winDiscard l := by rw [hc, Block.ownWindow_cases, if_pos signal]
    rw [discarded]
    exact ⟨s.blk.winDiscard_field l, rfl, rfl⟩
  · have converged : c.lane l = { s.blk.lane l with
        ecConv := true, convCount := (s.blk.lane l).convCount + 1, erle := e
        stored := (s.blk.lane l).stored ||| BitVec.ofNat 4 (2 ^ (s.blk.lane l).grade.val) } := by
      rw [hc, Block.ownWindow_cases, if_neg (by omega), if_neg (by simp [free, long]), Block.lane_modLane_same]
    simp only [Lane.ownOver, converged]
    refine ⟨trivial, trivial, trivial, ?_⟩
    generalize (s.blk.lane l).grade = g
    have bit : ∀ g : Fin 4, (BitVec.ofNat 4 (2 ^ g.val)).getLsbD g.val = true := by decide
    rw [BitVec.getLsbD_or, bit g, Bool.or_true]
  · have same : c = s.blk := by rw [hc, Block.ownWindow_cases, if_neg (by omega), if_pos held]
    rw [same]
    exact ⟨rfl, rfl, rfl⟩

theorem lockWindowEnd_both {own : Bool} (lock : (s.blk.lane l).st = .lock)
    (turns : (s.blk.lane l).answerer = some false ∧ own = false ∧ (s.blk.lane l).winOwn = true ∧ (s.blk.lane l).winPeer = false
      ∨ (s.blk.lane l).answerer = some true ∧ own = true ∧ (s.blk.lane l).winPeer = true ∧ (s.blk.lane l).winOwn = false)
    (ended : s.blk.windowOver l own ui = true) :
    Does (.lockWindowEnd l own ui sig e) s [.events, .lane l, .regs, .sides] fun b =>
      (b.lane l).st = .train ∧ (b.lane l).since = s.blk.ck.tide ∧ (b.lane l).doneOwn = none ∧ (b.lane l).donePeer = none
        ∧ (b.lane l).winOwn = true ∧ (b.lane l).winPeer = true ∧ (b.lane l).tapOut.map (·.tap) = some 4 := by
  have turn : (s.blk.lane l).windowDue own = true := by
    rcases turns with ⟨role, rfl, first, second⟩ | ⟨role, rfl, first, second⟩ <;> simp [Lane.windowDue, role, first, second]
  obtain ⟨c, made, tide, first, second⟩ : ∃ c : Block, s.blk.lockWindow l own ui sig e = c.bothOver l ∧ c.ck.tide = s.blk.ck.tide
      ∧ (c.lane l).winOwn = true ∧ (c.lane l).winPeer = true := by
    rw [Block.lockWindow_due lock turn ended]
    rcases turns with ⟨-, rfl, first, -⟩ | ⟨-, rfl, first, -⟩
    · exact ⟨_, rfl, rfl, by simp [Lane.peerOver, first], by simp [Lane.peerOver, first]⟩
    · have same := (s.blk.ownWindow_frame (l := l) ui sig e).out .tide (by simp [Piece.among])
      exact ⟨_, rfl, same, by simp [Lane.ownOver], by
        rw [Block.lane_modLane_same]; exact (s.blk.ownWindow_turn ui sig e).2.trans first⟩
  refine does_upd exec_lockWindowEnd_upd (Block.lockWindow_kept ..) ?_
  obtain ⟨st, since, own', peer', ownTurn, peerTurn, preset⟩ := c.enterTrain_lane l
  rw [made, Block.bothOver_trains first second]
  exact ⟨st, since.trans tide, own', peer', ownTurn.trans first, peerTurn.trans second, preset⟩

theorem lockWindowEnd_peer (lock : (s.blk.lane l).st = .lock) (answerer : (s.blk.lane l).answerer = some true)
    (own : (s.blk.lane l).winOwn = false) (first : (s.blk.lane l).winPeer = false) (los : (s.blk.lane l).los = true)
    (ended : usTicks ≤ s.blk.since (s.blk.lane l).losAt) :
    Does (.lockWindowEnd l false ui sig e) s [.lane l] fun b =>
      b.lane l = { s.blk.lane l with
        winPeer := true, winAt := some s.blk.ck.tide, answering := false, txIdle := false, msg := .window ((s.blk.lane l).windowAsk false)
        txSeq := (s.blk.lane l).txSeq + 1 } := by
  have turn : (s.blk.lane l).windowDue false = true := by simp [Lane.windowDue, answerer, first]
  have over_ : s.blk.windowOver l false ui = true := by
    unfold Block.windowOver
    simp [los, ended]
  have opens : (s.blk.lane l).peerOver s.blk.ck.tide = { s.blk.lane l with
      winPeer := true, winAt := some s.blk.ck.tide, answering := false, txIdle := false, msg := .window ((s.blk.lane l).windowAsk false)
      txSeq := (s.blk.lane l).txSeq + 1 } := by
    simp [Lane.peerOver, own, Lane.openWindow, answerer]; rfl
  have made : s.blk.lockWindow l false ui sig e = s.blk.modLane l (Lane.peerOver · s.blk.ck.tide) := by
    rw [Block.lockWindow_due lock turn over_, if_neg (by simp), Block.bothOver_notYet]
    rw [Block.lane_modLane_same, opens]
    exact .inr own
  exact does_lane exec_lockWindowEnd_upd made opens

/-- What 100 µs in LOCK without the partner's window do to the block. -/
def Block.lockLate (b : Block) (l : Nat) : Block :=
  if (b.lane l).st = .lock ∧ ¬ (b.lane l).winPeer ∧ 100 * usTicks ≤ b.since (b.lane l).since then b.rehunt l else b

theorem exec_lockTimeout_upd : exec (.lockTimeout l) s = s.upd (·.lockLate l) := rfl

theorem lockTimeout_hunts (lock : (s.blk.lane l).st = .lock) (waits : (s.blk.lane l).winPeer = false)
    (late : 100 * usTicks ≤ s.blk.since (s.blk.lane l).since) :
    Does (.lockTimeout l) s [.lane l, .reg (lnOff Off.lnTxDrv l)] fun b =>
      (b.lane l).st = .hunt ∧ (b.lane l).grade = (s.blk.side (laneSide l)).grade := by
  obtain ⟨st, -, grade⟩ := s.blk.rehunt_lane l
  exact does_upd_eq exec_lockTimeout_upd (if_pos ⟨lock, by simp [waits], late⟩) (Block.rehunt_kept ..) ⟨st, grade⟩

end

/-! ### Windows of a running link (R129 to R132) -/

section
variable {s : State} {sd : Side} {q : BitVec 8} {u : BitVec 16}

theorem exec_window_upd {lane : Option (Fin 16)} {what : BitVec 8} :
    exec (.window sd lane q what u) s = s.upd (·.takeWindow sd lane q what u) := rfl

/-- A new segment WINDOW on a running side: a request, or the grant of one. -/
theorem Block.takeWindow_new {b : Block} {what : BitVec 8} (seg : (b.side sd).seg = .run) (new : (b.side sd).winSeq ≠ some q) :
    b.takeWindow sd none q what u =
      if what = 1 then
        (if (b.side sd).mute = 0 then (b.modSide sd fun x => { x with winSeq := some q }).grantWindow sd
         else (b.modSide sd fun x => { x with winSeq := some q }).modSide sd fun x => { x with grantOwed := true })
      else if what = 2 ∧ (b.side sd).winAsked then (b.modSide sd fun x => { x with winSeq := some q }).openCalWindow sd
      else b.modSide sd fun x => { x with winSeq := some q } := by
  unfold Block.takeWindow
  simp [seg, newSeq, new]

/-- The side that has granted its partner a window. -/
def SideSt.granting (x : SideSt) (now : Tide) : SideSt :=
  { x with mute := windowSlots x.grade, muteAt := some now, grantOwed := false, segSeq := x.segSeq + 1
           ctl := x.ctl ++ [(x.segSeq + 1, .window 2 (windowUnits x.grade))] }

theorem Block.grantWindow_side {b : Block} (seg : (b.side sd).seg = .run) : (b.grantWindow sd).side sd = (b.side sd).granting b.ck.tide := by
  simp [Block.grantWindow, Block.sendSeg, seg, SideSt.granting]

theorem window_granted {x : SideSt} (hx : x = s.blk.side sd) (seg : x.seg = .run) (new : x.winSeq ≠ some q) (free : x.mute = 0) :
    Does (.window sd none q 1 u) s [.side sd] fun b =>
      b.side sd = { x with winSeq := some q, mute := windowSlots x.grade, muteAt := some s.blk.ck.tide, grantOwed := false
                           segSeq := x.segSeq + 1, ctl := x.ctl ++ [(x.segSeq + 1, .window 2 (windowUnits x.grade))] } := by
  subst hx
  refine does_upd_eq exec_window_upd (((Block.takeWindow_new seg new).trans (if_pos rfl)).trans (if_pos free))
    (Kept.step (Block.grantWindow_kept ..) .refl (Block.modSide_kept ..)) ?_
  rw [Block.grantWindow_side (by rw [Block.side_modSide_same]; exact seg), Block.side_modSide_same]
  cases sd <;> rfl

theorem window_owed (seg : (s.blk.side sd).seg = .run) (new : (s.blk.side sd).winSeq ≠ some q) (busy : (s.blk.side sd).mute ≠ 0) :
    Does (.window sd none q 1 u) s [.side sd] fun b => b.side sd = { s.blk.side sd with winSeq := some q, grantOwed := true } := by
  refine does_upd_eq exec_window_upd (((Block.takeWindow_new seg new).trans (if_pos rfl)).trans (if_neg busy))
    (Kept.step (Block.modSide_kept ..) .refl (Block.modSide_kept ..)) ?_
  rw [Block.side_modSide_same, Block.side_modSide_same]

/-- Lanes that are changed alike, once or more. -/
theorem Block.each_modLane {f : Lane → Lane} (idem : ∀ x, f (f x) = f x) (b : Block) (ns : List Nat) (k : Nat) :
    (b.each ns fun b l => b.modLane l f).lane k = if k ∈ ns then f (b.lane k) else b.lane k := by
  rw [Block.each]
  induction ns generalizing b with
  | nil => rfl
  | cons n ns ih =>
    rw [List.foldl_cons, ih, Block.lane_modLane]
    by_cases same : n = k
    · subst same
      simp [idem]
    · simp [same, Ne.symm same]

/-- Some lane that rows come and leave on is due a calibration. -/
def Block.calDue (b : Block) (sd : Side) : Bool := (lanesOf sd (b.side sd).mask).any fun l => (b.lane l).calPending

/-- Where one lane is due a calibration, every working lane of the side is. -/
def Block.calAll (b : Block) (sd : Side) : Block :=
  if b.calDue sd then b.each (lanesOf sd (b.side sd).mask) fun b l => b.modLane l fun x => { x with calPending := true } else b

theorem Block.calAll_kept (b : Block) (sd : Side) : Kept [.lanes] b (b.calAll sd) :=
  .ite (.each _ (fun _ _ h => Kept.step (Block.modLane_kept ..) (Within.single (.inl (by simp))) h) (.refl ..)) (.refl ..)

theorem Block.openCalWindow_eq (b : Block) (sd : Side) : b.openCalWindow sd =
    (b.calAll sd).modSide sd fun x => { x with win := some { own := true, since := b.ck.tide, cal := b.calDue sd }, winAsked := false } := by
  have opens : b.openCalWindow sd = (b.calAll sd).modSide sd fun x =>
    { x with win := some { own := true, since := (b.calAll sd).ck.tide, cal := b.calDue sd }, winAsked := false } := rfl
  have tide : (b.calAll sd).ck.tide = b.ck.tide := (b.calAll_kept sd).out .tide (by simp [Piece.among])
  rw [opens, tide]

theorem Block.openCalWindow_lane {b : Block} {k : Nat} (due : b.calDue sd = true) (run : k ∈ lanesOf sd (b.side sd).mask) :
    ((b.openCalWindow sd).lane k).calPending = true := by
  rw [Block.openCalWindow_eq, Block.lane_modSide, Block.calAll, if_pos due,
    Block.each_modLane (f := fun x => { x with calPending := true }) fun _ => rfl, if_pos run]

theorem Block.openCalWindow_side (b : Block) (sd : Side) : (b.openCalWindow sd).side sd =
    { b.side sd with win := some { own := true, since := b.ck.tide, cal := b.calDue sd }, winAsked := false } := by
  have same : (b.calAll sd).side sd = b.side sd := (b.calAll_kept sd).out (.side sd) (by simp [Piece.among])
  rw [Block.openCalWindow_eq, Block.side_modSide_same, same]

theorem window_opens (seg : (s.blk.side sd).seg = .run) (new : (s.blk.side sd).winSeq ≠ some q) (asked : (s.blk.side sd).winAsked = true) :
    Does (.window sd none q 2 u) s [.lanes, .side sd] fun b =>
      b.side sd = { s.blk.side sd with
          winSeq := some q, winAsked := false, win := some { own := true, since := s.blk.ck.tide, cal := s.blk.calDue sd } }
        ∧ ∀ k ∈ lanesOf sd (s.blk.side sd).mask, ∀ l ∈ lanesOf sd (s.blk.side sd).mask,
            (s.blk.lane k).calPending = true → (b.lane l).calPending = true := by
  set c := s.blk.modSide sd fun x => { x with winSeq := some q } with hc
  have side : c.side sd = { s.blk.side sd with winSeq := some q } := Block.side_modSide_same ..
  have lane (k : Nat) : c.lane k = s.blk.lane k := Block.lane_modSide ..
  have due : c.calDue sd = s.blk.calDue sd := by
    simp only [Block.calDue, side, lane]
  have made : s.blk.takeWindow sd none q 2 u = c.openCalWindow sd := by
    rw [Block.takeWindow_new seg new, if_neg (by decide), if_pos ⟨rfl, asked⟩]
  refine does_upd exec_window_upd (Block.takeWindow_kept ..) ?_
  rw [made, Block.openCalWindow_side, side, due]
  refine ⟨by cases sd <;> rfl, fun k hk l hl pending => Block.openCalWindow_lane ?_ (by rw [side]; exact hl)⟩
  rw [due]
  exact List.any_eq_true.mpr ⟨k, hk, pending⟩

theorem window_inLock {i : Fin 16} (lock : (s.blk.lane (laneOf sd i.val)).st = .lock) :
    Does (.window sd (some i) q 0 u) s [.lane (laneOf sd i.val)] fun b =>
      b.lane (laneOf sd i.val) = { s.blk.lane (laneOf sd i.val) with peerUnits := u } :=
  does_lane exec_window_upd (if_pos ⟨rfl, lock⟩) rfl

end

/-! ### Windows abandoned (R132) -/

section
variable {b : Block} {sd : Side}

theorem lnOff_inj {r l k : Nat} (h : lnOff r l = lnOff r k) : l = k := by
  unfold lnOff laneBase at h
  split at h <;> split at h <;> omega

/-- Each of a list of lanes has its windows discarded once more. -/
theorem Block.each_winDiscard (b : Block) {ns : List Nat} (once : ns.Nodup) (l : Nat) :
    (b.each ns Block.winDiscard).regField (lnOff Off.lnEcStatus l) 8 8 =
      if l ∈ ns then min (b.regField (lnOff Off.lnEcStatus l) 8 8 + 1) 255 else b.regField (lnOff Off.lnEcStatus l) 8 8 := by
  rw [Block.each]
  induction ns generalizing b with
  | nil => rfl
  | cons n ns ih =>
    obtain ⟨new, rest⟩ := List.nodup_cons.mp once
    rw [List.foldl_cons, ih _ rest]
    by_cases same : l = n
    · subst same
      rw [if_neg new, if_pos List.mem_cons_self, Block.winDiscard_field]
    · have other : (b.winDiscard n).regField (lnOff Off.lnEcStatus l) 8 8 = b.regField (lnOff Off.lnEcStatus l) 8 8 := by
        rw [Block.regField, (b.winDiscard_reg n).out (.reg (lnOff Off.lnEcStatus l)) (by simpa [Piece.among] using fun h => same (lnOff_inj h))]
        rfl
      simp [other, same]

theorem sideLanes_nodup (sd : Side) : (sideLanes sd).Nodup := by cases sd <;> decide

theorem Block.endWindow_closed (h : (b.side sd).win = none) : b.endWindow sd = b := by
  unfold Block.endWindow
  rw [h]

/-- The block with the side's own window over, before its discards are counted. -/
def Block.windowShut (b : Block) (sd : Side) : Block := b.modSide sd fun x => { x with win := none }

theorem Block.endWindow_some {w : WinSt} (h : (b.side sd).win = some w) : b.endWindow sd =
    if w.discarded ≥ 8 then (b.windowShut sd).each ((sideLanes sd).filter fun l => (b.lane l).inRun) Block.winDiscard else b.windowShut sd := by
  unfold Block.endWindow
  rw [h]
  simp [Block.windowShut]

theorem Block.endWindow_side {w : WinSt} (h : (b.side sd).win = some w) : (b.endWindow sd).side sd = { b.side sd with win := none } := by
  have discards : Kept [.regs] (b.windowShut sd) (b.endWindow sd) := by
    rw [Block.endWindow_some h]
    exact .ite (.each _ (fun _ _ k => Kept.step (Block.winDiscard_kept ..) .refl k) (.refl ..)) (.refl ..)
  exact (discards.out (.side sd) (by simp [Piece.among])).trans (Block.side_modSide_same ..)

theorem Block.endWindow_counts {w : WinSt} {l : Nat} (h : (b.side sd).win = some w) (many : 8 ≤ w.discarded) (listed : l ∈ sideLanes sd)
    (runs : (b.lane l).inRun = true) :
    (b.endWindow sd).regField (lnOff Off.lnEcStatus l) 8 8 = min (b.regField (lnOff Off.lnEcStatus l) 8 8 + 1) 255 := by
  rw [Block.endWindow_some h, if_pos many, Block.each_winDiscard _ ((sideLanes_nodup sd).filter _),
    if_pos (List.mem_filter.mpr ⟨listed, runs⟩)]
  have same : (b.windowShut sd).reg (lnOff Off.lnEcStatus l) = b.reg (lnOff Off.lnEcStatus l) := Block.reg_modSide ..
  rw [Block.regField, same]
  rfl

/-! The steps of WINDOW_ABANDON: the pier's own window, its request, the partner's window, what is wanted next. -/

/-- The pier's own window ends if it is old. -/
def Block.abandonOwn (b : Block) (sd : Side) : Block := if (b.side sd).win.any fun w => b.oldWindow w.since then b.endWindow sd else b

/-- A request as old counts as unanswered. -/
def Block.abandonAsk (b : Block) (sd : Side) (asked : Bool) (at_ : Option Tide) : Block :=
  if asked ∧ b.olderThan (2 * msTicks) at_ then b.modSide sd fun x => { x with winAsked := false } else b

/-- The partner's window ends if it is old. -/
def Block.abandonPeer (b : Block) (sd : Side) (at_ : Option Tide) (mute : Nat) : Block :=
  if at_.any b.oldWindow ∧ 0 < mute then b.muteDone sd else b

/-- A calibration still due wants another window. -/
def Block.abandonNext (b : Block) (sd : Side) : Block :=
  if (b.side sd).win.isNone ∧ b.calDue sd then b.askWindow sd else b.tryAsk sd

theorem Block.abandon_eq (b : Block) (sd : Side) : b.abandon sd =
    ((((b.abandonOwn sd).abandonAsk sd (b.side sd).winAsked (b.side sd).winAskedAt).abandonPeer sd (b.side sd).muteAt
      (b.side sd).mute).abandonNext sd) :=
  rfl

theorem Block.tryAsk_unwanted (h : (b.side sd).winWant = false) : b.tryAsk sd = b := by
  unfold Block.tryAsk
  exact if_neg fun ask => by simp [h] at ask

theorem Block.tryAsk_win (b : Block) (sd : Side) : ((b.tryAsk sd).side sd).win = (b.side sd).win := by
  unfold Block.tryAsk
  dsimp only
  split
  · simp [Block.sendSeg]
  · rfl

theorem Block.askWindow_win (b : Block) (sd : Side) : ((b.askWindow sd).side sd).win = (b.side sd).win := by
  rw [Block.askWindow, Block.tryAsk_win, Block.side_modSide_same]

theorem Block.abandonNext_idle (due : b.calDue sd = false) (h : (b.side sd).winWant = false) : b.abandonNext sd = b := by
  rw [Block.abandonNext, if_neg (by simp [due]), Block.tryAsk_unwanted h]

/-- A change of one side alone, or of registers, leaves which lanes are due a calibration, as long as it leaves the mask. -/
theorem Block.calDue_congr {b c : Block} (lanes : ∀ l, c.lane l = b.lane l) (mask : (c.side sd).mask = (b.side sd).mask) :
    c.calDue sd = b.calDue sd := by
  simp only [Block.calDue, lanes, mask]

theorem Block.muteDone_owedNothing (h : (b.side sd).grantOwed = false) :
    b.muteDone sd = b.modSide sd fun x => { x with mute := 0, muteAt := none } := by
  unfold Block.muteDone
  exact if_neg (by simp [h])

/-- The end of the partner's window leaves the pier's own, and the lanes. -/
theorem Block.muteDone_side (b : Block) (sd : Side) :
    ((b.muteDone sd).side sd).win = (b.side sd).win ∧ ((b.muteDone sd).side sd).mask = (b.side sd).mask := by
  unfold Block.muteDone
  dsimp only
  split
  · simp [Block.grantWindow, Block.sendSeg]
  · simp

end

section
variable {s : State} {sd : Side}

theorem exec_windowAbandon_upd : exec (.windowAbandon sd) s = s.upd (·.abandon sd) := rfl

theorem windowAbandon_own {w : WinSt} (win : (s.blk.side sd).win = some w) (old : 2 * msTicks ≤ s.blk.since w.since)
    (asked : (s.blk.side sd).winAsked = false) (loud : (s.blk.side sd).muteAt = none) (want : (s.blk.side sd).winWant = false)
    (due : s.blk.calDue sd = false) :
    Does (.windowAbandon sd) s [.regs, .side sd] fun b =>
      b.side sd = { s.blk.side sd with win := none }
        ∧ (w.discarded < 8 → b.csr = s.blk.csr)
        ∧ (8 ≤ w.discarded → ∀ l ∈ sideLanes sd, (s.blk.lane l).inRun = true →
            b.regField (lnOff Off.lnEcStatus l) 8 8 = min (s.blk.regField (lnOff Off.lnEcStatus l) 8 8 + 1) 255) := by
  have side := Block.endWindow_side win
  have lanes (l : Nat) : (s.blk.endWindow sd).lane l = s.blk.lane l := (s.blk.endWindow_kept sd).out (.lane l) (by simp [Piece.among])
  have own : s.blk.abandonOwn sd = s.blk.endWindow sd := if_pos (by rw [win]; exact decide_eq_true old)
  have made : s.blk.abandon sd = s.blk.endWindow sd := by
    rw [Block.abandon_eq, own, asked, loud, Block.abandonAsk, if_neg (by simp), Block.abandonPeer, if_neg (by simp), Block.abandonNext_idle]
    · rw [Block.calDue_congr lanes (by rw [side])]; exact due
    · rw [side]; exact want
  refine does_upd_eq exec_windowAbandon_upd made (Block.endWindow_kept ..)
    ⟨side, fun few => ?_, fun many l listed runs => Block.endWindow_counts win many listed runs⟩
  rw [Block.endWindow_some win, if_neg (by omega), Block.windowShut]
  cases sd <;> rfl

theorem windowAbandon_peer {t : Tide} (win : (s.blk.side sd).win = none) (asked : (s.blk.side sd).winAsked = false)
    (want : (s.blk.side sd).winWant = false) (muted : (s.blk.side sd).muteAt = some t) (slots : 0 < (s.blk.side sd).mute)
    (old : 2 * msTicks ≤ s.blk.since t) (owed : (s.blk.side sd).grantOwed = false) (due : s.blk.calDue sd = false) :
    Does (.windowAbandon sd) s [.side sd] fun b => b.side sd = { s.blk.side sd with mute := 0, muteAt := none } := by
  have own : s.blk.abandonOwn sd = s.blk := if_neg (by simp [win])
  have peer : s.blk.abandonPeer sd (some t) (s.blk.side sd).mute = s.blk.modSide sd fun x => { x with mute := 0, muteAt := none } :=
    (if_pos ⟨decide_eq_true old, slots⟩).trans (Block.muteDone_owedNothing owed)
  have made : s.blk.abandon sd = s.blk.modSide sd fun x => { x with mute := 0, muteAt := none } := by
    rw [Block.abandon_eq, own, asked, Block.abandonAsk, if_neg (by simp), muted, peer, Block.abandonNext_idle]
    · rw [Block.calDue_congr (fun l => Block.lane_modSide ..) (by rw [Block.side_modSide_same])]; exact due
    · rw [Block.side_modSide_same]; exact want
  exact does_modSide exec_windowAbandon_upd made (Block.side_modSide_same ..)

theorem windowAbandon_wants {w : WinSt} {l : Nat} (win : (s.blk.side sd).win = some w) (old : 2 * msTicks ≤ s.blk.since w.since)
    (listed : l ∈ lanesOf sd (s.blk.side sd).mask) (pending : (s.blk.lane l).calPending = true) :
    Does (.windowAbandon sd) s [.regs, .side sd] fun b =>
      (b.side sd).win = none ∧ ((b.side sd).winWant = true ∨ (b.side sd).winAsked = true) := by
  have own : s.blk.abandonOwn sd = s.blk.endWindow sd := if_pos (by rw [win]; exact decide_eq_true old)
  have side := Block.endWindow_side win
  refine does_upd exec_windowAbandon_upd (Block.abandon_kept ..) ?_
  rw [Block.abandon_eq, own]
  set c := (s.blk.endWindow sd).abandonAsk sd (s.blk.side sd).winAsked (s.blk.side sd).winAskedAt with hc
  set d := c.abandonPeer sd (s.blk.side sd).muteAt (s.blk.side sd).mute with hd
  have asks : (c.side sd).win = none ∧ (c.side sd).mask = (s.blk.side sd).mask := by
    rw [hc, Block.abandonAsk]
    split
    · rw [Block.side_modSide_same, side]; exact ⟨rfl, rfl⟩
    · rw [side]; exact ⟨rfl, rfl⟩
  have peers : (d.side sd).win = (c.side sd).win ∧ (d.side sd).mask = (c.side sd).mask := by
    rw [hd, Block.abandonPeer]
    split
    · exact c.muteDone_side sd
    · exact ⟨rfl, rfl⟩
  have frame : Kept [.regs, .side sd] s.blk d :=
    have ended : Kept [.regs, .side sd] s.blk c := .ite
      (Kept.step (Block.modSide_kept ..) (Within.of_subset (by simp)) (Block.endWindow_kept ..)) (Block.endWindow_kept ..)
    .ite (Kept.step (Block.muteDone_kept ..) (Within.of_subset (by simp)) ended) ended
  have shut : (d.side sd).win = none := peers.1.trans asks.1
  have due : d.calDue sd = true := by
    rw [Block.calDue_congr (fun k => frame.out (.lane k) (by simp [Piece.among])) (peers.2.trans asks.2)]
    exact List.any_eq_true.mpr ⟨l, listed, pending⟩
  rw [Block.abandonNext, if_pos ⟨by rw [shut]; rfl, due⟩]
  exact ⟨(Block.askWindow_win ..).trans shut, Block.askWindow_wants ..⟩

end

/-! ### EC_DRIFT (R60) -/

section
variable {s : State} {l : LaneId} {e : BitVec 8}

/-- What the ERLE that stood for 1 ms does to the block. -/
def Block.erleSeen (b : Block) (l : Nat) (e : BitVec 8) : Block :=
  if (b.lane l).inRun ∨ (b.lane l).st = .train then
    if e.toNat < erleLimit (b.lane l).grade then ((b.modLane l fun x => { x with erle := e }).orReg (lnOff Off.lnAlarm l) 4).askWindow (laneSide l)
    else b.modLane l fun x => { x with erle := e }
  else b

theorem exec_ecDrift_upd : exec (.ecDrift l e) s = s.upd (·.erleSeen l e) := rfl

theorem ecDrift_good (adapts : (s.blk.lane l).inRun = true ∨ (s.blk.lane l).st = .train) (good : erleLimit (s.blk.lane l).grade ≤ e.toNat) :
    Does (.ecDrift l e) s [.lane l] fun b => b.lane l = { s.blk.lane l with erle := e } :=
  does_lane exec_ecDrift_upd ((if_pos adapts).trans (if_neg (by omega))) rfl

theorem ecDrift_low (adapts : (s.blk.lane l).inRun = true ∨ (s.blk.lane l).st = .train) (low : e.toNat < erleLimit (s.blk.lane l).grade) :
    Does (.ecDrift l e) s [.lane l, .reg (lnOff Off.lnAlarm l), .side (laneSide l)] fun b =>
      b.lane l = { s.blk.lane l with erle := e } ∧ b.regBit (lnOff Off.lnAlarm l) 2 = true
        ∧ (b.side (laneSide l)).win = (s.blk.side (laneSide l)).win
        ∧ ((b.side (laneSide l)).winWant = true ∨ (b.side (laneSide l)).winAsked = true) := by
  set c := (s.blk.modLane l fun x => { x with erle := e }).orReg (lnOff Off.lnAlarm l) 4 with hc
  have asks := c.askWindow_kept (laneSide l)
  have lane : (c.askWindow (laneSide l)).lane l = { s.blk.lane l with erle := e } :=
    (asks.out (.lane l) (by simp [Piece.among])).trans (by rw [hc, Block.lane_orReg, Block.lane_modLane_same])
  have alarm : (c.askWindow (laneSide l)).regBit (lnOff Off.lnAlarm l) 2 = true := by
    rw [Block.regBit, asks.out (.reg _) (by simp [Piece.among])]
    exact (Block.regBit_orReg ..).trans (by simp)
  refine does_upd_eq exec_ecDrift_upd ((if_pos adapts).trans (if_pos low))
    (Kept.step asks (Within.of_subset (by simp)) (Kept.step (Block.orReg_kept ..) (Within.of_subset (by simp))
      ((Block.modLane_kept ..).mono (Within.of_subset (by simp))))) ⟨lane, alarm, ?_, Block.askWindow_wants ..⟩
  rw [Block.askWindow_win, Block.side_orReg, Block.side_modLane]

end

/-- Settles O24: HELLO gives the roles, windows in LOCK take turns, and a running side's windows are its own and its partner's. -/
theorem rolesAndWindows : Obligations.RolesAndWindows :=
  ⟨fun _ _ _ _ st talking lock pol role => hello_answers ⟨st, talking, lock, pol, role⟩,
    fun _ _ _ _ st talking lock pol role => hello_talks ⟨st, talking, lock, pol, role⟩, fun _ _ _ => los_opensWindow,
    fun _ _ _ _ _ => hello_twoAnswerers, fun _ _ _ _ _ => lockWindowEnd_own, fun _ _ _ _ _ _ => lockWindowEnd_both,
    fun _ _ _ _ _ => lockWindowEnd_peer, fun _ _ => lockTimeout_hunts, fun _ _ _ _ _ => window_granted, fun _ _ _ _ => window_owed,
    fun _ _ _ _ => window_opens, fun _ _ _ _ _ => window_inLock, fun _ _ _ => windowAbandon_own, fun _ _ _ => windowAbandon_peer,
    fun _ _ _ _ => windowAbandon_wants, fun _ _ _ => ecDrift_good, fun _ _ _ => ecDrift_low⟩

end Sys2Proof.Machine
end

section
/-! SUPPORT. The lane manifests (R74, R138, R318, R328, R329), LOG_READ (R439) and TRIP_ACK (R399). -/

namespace Sys2Proof.Machine

open Sys2Proof

/-! ### Manifests on a side (R318) -/

/-- An accepted manifest whose work is known. -/
theorem does_man {i : Instr} {s : State} {m : ManRef} {op : Nat} {f : Block → Block} {c : Block} {ps : List Piece} {post : Block → Prop}
    (e : exec i s = s.man m op f) (mans : s.blk.mans op) (made : f s.blk = c) (frame : Kept ps s.blk c) (h : post c) : Does i s ps post :=
  does_upd_eq (e.trans (State.man_accepted f mans)) made frame h

theorem sideOf_sideNo (sd : Side) : sideOf (BitVec.ofNat 8 (sideNo sd)).toNat = some sd := by cases sd <;> rfl

theorem sideOf_none {n : Nat} (h : 2 ≤ n) : sideOf n = none := by
  match n with
  | 0 | 1 => omega
  | n + 2 => rfl

theorem sideOf_laneOf (sd : Side) (l : Fin 16) : laneSide (laneOf sd l) = sd := by
  cases sd <;> revert l <;> decide

theorem lanesOf_single (sd : Side) (l : Fin 16) : lanesOf sd (BitVec.ofNat 16 (2 ^ l.val)) = [laneOf sd l] := by
  cases sd <;> revert l <;> decide

theorem laneOf_mem (sd : Side) (l : Fin 16) : laneOf sd l ∈ sideLanes sd := List.mem_map.mpr ⟨l, List.mem_range.mpr l.isLt, rfl⟩

section
variable {b : Block} {m : ManRef} {op n : Nat} {sd : Side} {lawful : Bool} {f : Side → Block}

theorem Block.onSide_bad (h : sideOf n = none ∨ lawful = false) : b.onSide m op n lawful f = b.finish m op St.badParam := by
  unfold Block.onSide
  rcases h with h | h
  · rw [h]
  · cases sideOf n <;> simp [h]

theorem Block.onSide_lawful (side : sideOf n = some sd) (h : lawful = true) : b.onSide m op n lawful f =
    if b.laneBusy sd (some m) then b.finish m op St.busyRetry else if (b.pll (sidePll sd)).down then b.finish m op St.refused else f sd := by
  unfold Block.onSide
  rw [side]
  exact if_neg (by simp [h])

theorem Block.onSide_busy (side : sideOf n = some sd) (h : lawful = true) (busy : b.laneBusy sd (some m) = true) :
    b.onSide m op n lawful f = b.finish m op St.busyRetry := (Block.onSide_lawful side h).trans (if_pos busy)

theorem Block.onSide_down (side : sideOf n = some sd) (h : lawful = true) (free : b.laneBusy sd (some m) = false)
    (down : (b.pll (sidePll sd)).down = true) : b.onSide m op n lawful f = b.finish m op St.refused := by
  rw [Block.onSide_lawful side h, if_neg (by simp [free]), if_pos down]

theorem Block.onSide_works (side : sideOf n = some sd) (h : lawful = true) (free : b.laneBusy sd (some m) = false)
    (locked : (b.pll (sidePll sd)).down = false) : b.onSide m op n lawful f = f sd := by
  rw [Block.onSide_lawful side h, if_neg (by simp [free]), if_neg (by simp [locked])]

end

/-! ### LANE_STATUS -/

theorem Block.laneStatusBytes_length (b : Block) (sd : Side) : (b.laneStatusBytes sd).length = 72 := by
  have four (x : Lane) : x.statusBytes.length = 4 := rfl
  simp [Block.laneStatusBytes, leBytes_length, List.length_flatMap, four, sideLanes, Function.comp_def]

section
variable {s : State} {m : ManRef} {sd : Side}

theorem exec_laneStatus_man {n : BitVec 8} : exec (.laneStatus m n) s = s.man m Mop.laneStatus (·.laneStatus m n.toNat) := rfl

theorem laneStatus_answers (mans : s.blk.mans Mop.laneStatus) :
    Does (.laneStatus m (BitVec.ofNat 8 (sideNo sd))) s [.slots, .running, .ins] fun b => b.doneWith m 0x0040 0x00 (s.blk.laneStatusBytes sd) := by
  refine does_answer (d := {}) exec_laneStatus_man mans ?_ (by decide) (by decide) (by rw [Block.laneStatusBytes_length]; decide)
  rw [Block.laneStatus, sideOf_sideNo]

theorem laneStatus_noSide {n : BitVec 8} (mans : s.blk.mans Mop.laneStatus) (h : 2 ≤ n.toNat) :
    Does (.laneStatus m n) s [.slots, .running, .ins] fun b => b.doneWith m 0x0040 0x04 [] := by
  refine does_answer (d := {}) exec_laneStatus_man mans ?_ (by decide) (by decide) (by decide)
  rw [Block.laneStatus, sideOf_none h]

end

/-! ### Segments beside CAP messages -/

/-- Every side stands where it stood, with the manifest that waits for it. -/
structure Block.SegsKept (b c : Block) : Prop where
  seg : ∀ k, (c.side k).seg = (b.side k).seg
  waiter : ∀ k, (c.side k).waiter = (b.side k).waiter

theorem Block.SegsKept.refl (b : Block) : b.SegsKept b := ⟨fun _ => rfl, fun _ => rfl⟩

theorem Block.SegsKept.trans {b c d : Block} (h : b.SegsKept c) (k : c.SegsKept d) : b.SegsKept d :=
  ⟨fun j => (k.seg j).trans (h.seg j), fun j => (k.waiter j).trans (h.waiter j)⟩

theorem Block.SegsKept.after {b c d : Block} (k : c.SegsKept d) (h : b.SegsKept c) : b.SegsKept d := h.trans k

theorem Block.SegsKept.ite {b c d : Block} {p : Prop} [Decidable p] (h : b.SegsKept c) (k : b.SegsKept d) : b.SegsKept (if p then c else d) := by
  split
  · exact h
  · exact k

theorem Block.side_modSide_ite (b : Block) (sd k : Side) (g : SideSt → SideSt) :
    (b.modSide sd g).side k = if k = sd then g (b.side sd) else b.side k := by
  cases sd <;> cases k <;> rfl

theorem Block.segsKept_modSide (b : Block) (sd : Side) {g : SideSt → SideSt} (seg : ∀ x, (g x).seg = x.seg)
    (waiter : ∀ x, (g x).waiter = x.waiter) :
    b.SegsKept (b.modSide sd g) := by
  constructor <;> intro k <;> rw [Block.side_modSide_ite] <;> split
  case seg.isTrue same => subst same; exact seg _
  case waiter.isTrue same => subst same; exact waiter _
  all_goals rfl

theorem Block.segsKept_sendSeg (b : Block) (sd : Side) (g : SegMsg) : b.SegsKept (b.sendSeg sd g) :=
  b.segsKept_modSide sd (fun _ => rfl) fun _ => rfl

theorem Block.segsKept_sendCap (b : Block) (sd : Side) (c : Cap) (i : Nat) : b.SegsKept (b.sendCap sd c i) :=
  (Block.segsKept_sendSeg _ sd (.cap c)).after (Block.segsKept_modSide _ _ (fun _ => rfl) fun _ => rfl)

theorem Block.segsKept_forwardCap (b : Block) (sd : Side) : b.SegsKept (b.forwardCap sd) := by
  unfold Block.forwardCap
  split
  · exact .refl b
  · refine .ite ?_ (.ite (Block.segsKept_sendCap ..) (.refl b))
    exact (Block.segsKept_sendSeg ..).after (Block.segsKept_modSide _ _ (fun _ => rfl) fun _ => rfl)

theorem Block.segsKept_freshCaps (b : Block) : b.SegsKept b.freshCaps := by
  have own (b : Block) (sd : Side) :
      b.SegsKept (if (b.side sd).agrees && (b.side (otherSide sd)).seg == .down then b.startCap sd else b) :=
    .ite (b.segsKept_sendCap sd _ 0) (.refl b)
  exact (((b.segsKept_forwardCap .west).trans (Block.segsKept_forwardCap _ .east)).trans (own _ .west)).trans (own _ .east)

/-! ### A whole side trains (R119, R138) -/

section
variable {b : Block} {sd : Side}

theorem Block.endWindow_waiter (b : Block) (sd : Side) : ((b.endWindow sd).side sd).waiter = (b.side sd).waiter := by
  cases win : (b.side sd).win with
  | none => rw [Block.endWindow_closed win]
  | some w => rw [Block.endWindow_side win]

theorem Block.leaveRun_side (b : Block) (sd : Side) (seg : SegState) :
    ((b.leaveRun sd seg).side sd).seg = seg ∧ ((b.leaveRun sd seg).side sd).waiter = (b.side sd).waiter := by
  rw [Block.leaveRun, Block.side_modSide_same]
  exact ⟨rfl, b.endWindow_waiter sd⟩

theorem otherSide_ne (sd : Side) : otherSide sd ≠ sd := by cases sd <;> decide

/-- A side with a lane to train trains; the other stands where it stood. -/
theorem Block.trainSide_sides (g : Fin 4) (inLoop : Bool) (trains : (b.trainLanes sd).isEmpty = false) :
    ((b.trainSide sd g inLoop).side sd).seg = .training ∧ ((b.trainSide sd g inLoop).side sd).waiter = (b.side sd).waiter
      ∧ (b.trainSide sd g inLoop).side (otherSide sd) = b.side (otherSide sd) := by
  set c := (b.leaveRun sd .training).modSide sd fun x => { x with grade := g, loop := inLoop } with hc
  have made : b.trainSide sd g inLoop = c.each (b.trainLanes sd) fun b l => b.startHunt l g false := if_neg (by simp [trains])
  have hunts : Kept [.lanes, .regs] c (c.each (b.trainLanes sd) fun b l => b.startHunt l g false) :=
    .each _ (fun _ _ h => Kept.step (Block.startHunt_kept ..)
      (Within.cons (.inl (by simp)) (Within.single (.inl (by simp)))) h) (.refl ..)
  have side (k : Side) : (b.trainSide sd g inLoop).side k = c.side k := by
    rw [made]; exact hunts.out (.side k) (by simp [Piece.among])
  obtain ⟨seg, waiter⟩ := b.leaveRun_side sd .training
  rw [side, side, hc, Block.side_modSide_same, Block.side_modSide_ite, if_neg (otherSide_ne sd)]
  exact ⟨seg, waiter, (b.leaveRun_kept sd .training).out (.side (otherSide sd)) (by simpa [Piece.among] using otherSide_ne sd)⟩

theorem Block.wakeWaiter_trains (seg : (b.side sd).seg = .training) : b.wakeWaiter sd = b := by
  unfold Block.wakeWaiter
  split
  · rfl
  · exact if_neg (by simp [seg])

theorem Block.wakeWaiter_hunts {l : Nat} (seg : (b.side sd).seg = .run) (listed : l ∈ sideLanes sd) (hunts : (b.lane l).st = .hunt) :
    b.wakeWaiter sd = b := by
  unfold Block.wakeWaiter
  split
  · rfl
  · refine if_neg fun idle => ?_
    simp only [seg, beq_self_eq_true, Bool.true_and, Bool.or_eq_true, Bool.and_eq_true, Bool.not_eq_true', List.any_eq_false,
      show (SegState.run == SegState.down) = false from rfl, Bool.false_eq_true, or_false] at idle
    exact absurd (idle.1 l listed) (by simp [hunts])

end

/-! ### LANE_RETRAIN -/

section
variable {s : State} {m : ManRef} {sd : Side} {mode : BitVec 8} {mask : BitVec 16}

/-- LANE_RETRAIN of a side. -/
def Block.retrainAsked (b : Block) (m : ManRef) (n mode : BitVec 8) (mask : BitVec 16) : Block :=
  b.onSide m Mop.laneRetrain n.toNat (decide (mode.toNat ≤ 1)) fun sd => b.laneRetrainOn m sd (mode == 1) mask

theorem exec_laneRetrain_man {n : BitVec 8} : exec (.laneRetrain m n mode mask) s = s.man m Mop.laneRetrain (·.retrainAsked m n mode mask) := rfl

theorem laneRetrain_busy (mans : s.blk.mans Mop.laneRetrain) (known : mode.toNat ≤ 1) (busy : s.blk.laneBusy sd (some m) = true) :
    Does (.laneRetrain m (BitVec.ofNat 8 (sideNo sd)) mode mask) s [.slots, .running, .ins] fun b => b.doneWith m 0x0041 0x07 [] :=
  does_answer (d := {}) exec_laneRetrain_man mans (Block.onSide_busy (sideOf_sideNo sd) (decide_eq_true known) busy) (by decide) (by decide)
    (by decide)

theorem laneRetrain_pllDown (mans : s.blk.mans Mop.laneRetrain) (known : mode.toNat ≤ 1) (free : s.blk.laneBusy sd (some m) = false)
    (down : (s.blk.pll (sidePll sd)).down = true) :
    Does (.laneRetrain m (BitVec.ofNat 8 (sideNo sd)) mode mask) s [.slots, .running, .ins] fun b => b.doneWith m 0x0041 0x02 [] :=
  does_answer (d := {}) exec_laneRetrain_man mans (Block.onSide_down (sideOf_sideNo sd) (decide_eq_true known) free down) (by decide) (by decide)
    (by decide)

theorem laneRetrain_bad {n : BitVec 8} (mans : s.blk.mans Mop.laneRetrain) (h : 2 ≤ n.toNat ∨ 2 ≤ mode.toNat) :
    Does (.laneRetrain m n mode mask) s [.slots, .running, .ins] fun b => b.doneWith m 0x0041 0x04 [] := by
  have bad : sideOf n.toNat = none ∨ decide (mode.toNat ≤ 1) = false := h.imp sideOf_none fun big => decide_eq_false (by omega)
  exact does_answer (d := {}) exec_laneRetrain_man mans (Block.onSide_bad bad) (by decide) (by decide) (by decide)

/-- The block in which the manifest waits for the side. -/
def Block.waiting (b : Block) (sd : Side) (m : ManRef) : Block := b.modSide sd fun x => { x with waiter := some (m, Mop.laneRetrain) }

theorem Block.laneRetrainOn_whole (b : Block) (m : ManRef) (sd : Side) (mask : BitVec 16) :
    b.laneRetrainOn m sd true mask = ((b.waiting sd m).retrainWhole sd).wakeWaiter sd := by
  rw [Block.laneRetrainOn, if_pos rfl, Block.waiting]

theorem Block.laneRetrainOn_lanes {b c : Block} (each : (b.waiting sd m).each (lanesOf sd mask) Block.retrainLane = c)
    (run : (c.side sd).seg = .run) :
    b.laneRetrainOn m sd false mask = c.wakeWaiter sd := by
  have up : ¬ (c.side sd).seg = .down := by rw [run]; decide
  rw [Block.laneRetrainOn, if_neg (by simp), ← Block.waiting, each, if_neg up]

theorem Block.trainLanes_modSide (b : Block) (k sd : Side) (g : SideSt → SideSt) : (b.modSide k g).trainLanes sd = b.trainLanes sd := by
  cases k <;> rfl

/-- A side that trains whole waits for its lanes; the other stands where it stood. -/
theorem Block.retrainWhole_segs {b : Block} (trains : (b.trainLanes sd).isEmpty = false) :
    ((b.retrainWhole sd).side sd).seg = .training ∧ ((b.retrainWhole sd).side sd).waiter = (b.side sd).waiter
      ∧ ((b.retrainWhole sd).side (otherSide sd)).seg = (b.side (otherSide sd)).seg := by
  set c := b.modSide sd fun x => { x with capG2 := b.pw.st == .harbour } with hc
  have listed : (c.trainLanes sd).isEmpty = false := by rw [hc, Block.trainLanes_modSide]; exact trains
  obtain ⟨seg, waiter, other⟩ := Block.trainSide_sides 0 false listed
  have purged (k : Side) : (c.retrainSide sd 0 false).side k = (c.trainSide sd 0 false).side k :=
    (Block.purgeSide_kept ..).out (.side k) (by simp [Piece.among])
  have caps := (c.retrainSide sd 0 false).segsKept_freshCaps
  refine ⟨(caps.seg sd).trans ((congrArg _ (purged sd)).trans seg), (caps.waiter sd).trans ((congrArg _ (purged sd)).trans (waiter.trans ?_)),
    (caps.seg _).trans ((congrArg _ (purged _)).trans ((congrArg _ other).trans ?_))⟩
  · rw [hc, Block.side_modSide_same]
  · rw [hc, Block.side_modSide_ite, if_neg (otherSide_ne sd)]

theorem laneRetrain_whole (mans : s.blk.mans Mop.laneRetrain) (free : s.blk.laneBusy sd (some m) = false)
    (locked : (s.blk.pll (sidePll sd)).down = false) (trains : (s.blk.trainLanes sd).isEmpty = false) :
    Does (.laneRetrain m (BitVec.ofNat 8 (sideNo sd)) 1 0) s [.cnt, .events, .fws, .ins, .lanes, .qy, .regs, .running, .sides, .slots, .tl] fun b =>
      (b.side sd).seg = .training ∧ (b.side sd).waiter = some (m, 0x0041) ∧ (b.side (otherSide sd)).seg = (s.blk.side (otherSide sd)).seg := by
  have works : s.blk.retrainAsked m (BitVec.ofNat 8 (sideNo sd)) 1 0 = s.blk.laneRetrainOn m sd true 0 :=
    Block.onSide_works (sideOf_sideNo sd) rfl free locked
  refine does_man exec_laneRetrain_man mans works (Block.laneRetrainOn_kept ..) ?_
  have listed : ((s.blk.waiting sd m).trainLanes sd).isEmpty = false := by rw [Block.waiting, Block.trainLanes_modSide]; exact trains
  obtain ⟨seg, waiter, other⟩ := Block.retrainWhole_segs listed
  rw [Block.laneRetrainOn_whole, Block.wakeWaiter_trains seg]
  refine ⟨seg, waiter.trans ?_, other.trans ?_⟩
  · rw [Block.waiting, Block.side_modSide_same]
  · rw [Block.waiting, Block.side_modSide_ite, if_neg (otherSide_ne sd)]

/-- The lane hunted again warm, beside its running segment. -/
def Block.huntWarm (b : Block) (l : Nat) : Block :=
  (b.startHunt l (b.side (laneSide l)).grade true).modLane l fun x => { x with retraining := true, attempts := 0 }

theorem Block.huntWarm_lane (b : Block) (l : Nat) :
    ((b.huntWarm l).lane l).st = .hunt ∧ ((b.huntWarm l).lane l).retraining = true ∧ ((b.huntWarm l).lane l).warm = true
      ∧ ((b.huntWarm l).lane l).prbsOwner = (b.lane l).prbsOwner ∧ ((b.huntWarm l).lane l).prbsRun = (b.lane l).prbsRun := by
  rw [Block.huntWarm, Block.lane_modLane_same]
  unfold Block.startHunt
  dsimp only
  rw [if_pos rfl, Block.lane_modLane_same]
  exact ⟨rfl, rfl, rfl, rfl, rfl⟩

theorem Block.huntWarm_kept (b : Block) (l : Nat) : Kept [.lane l, .reg (lnOff Off.lnTxDrv l)] b (b.huntWarm l) :=
  Kept.step (Block.modLane_kept ..) (Within.of_subset (by simp)) (Block.startHunt_kept ..)

theorem Block.retrainLane_off {b : Block} {l : Nat} (run : (b.side (laneSide l)).seg = .run) (usable : b.laneUsable l = true)
    (off : (b.lane l).st = .off) : b.retrainLane l = b.huntWarm l := by
  unfold Block.retrainLane
  simp only [run, usable, off, Lane.inRun]
  rfl

theorem Block.laneUsable_modSide (b : Block) (sd : Side) (g : SideSt → SideSt) (l : Nat) : (b.modSide sd g).laneUsable l = b.laneUsable l := by
  cases sd <;> rfl

theorem laneRetrain_offLane {l : Fin 16} (mans : s.blk.mans Mop.laneRetrain) (free : s.blk.laneBusy sd (some m) = false)
    (locked : (s.blk.pll (sidePll sd)).down = false) (run : (s.blk.side sd).seg = .run) (usable : s.blk.laneUsable (laneOf sd l) = true)
    (off : (s.blk.lane (laneOf sd l)).st = .off) :
    Does (.laneRetrain m (BitVec.ofNat 8 (sideNo sd)) 0 (BitVec.ofNat 16 (2 ^ l.val))) s
        [.cnt, .events, .fws, .ins, .lanes, .qy, .regs, .running, .sides, .slots, .tl] fun b =>
      (b.lane (laneOf sd l)).st = .hunt ∧ (b.lane (laneOf sd l)).retraining = true ∧ (b.lane (laneOf sd l)).warm = true ∧ (b.side sd).seg = .run
        ∧ (b.side sd).waiter = some (m, 0x0041) := by
  have works : s.blk.retrainAsked m (BitVec.ofNat 8 (sideNo sd)) 0 (BitVec.ofNat 16 (2 ^ l.val))
      = s.blk.laneRetrainOn m sd false (BitVec.ofNat 16 (2 ^ l.val)) := Block.onSide_works (sideOf_sideNo sd) rfl free locked
  refine does_man exec_laneRetrain_man mans works (Block.laneRetrainOn_kept ..) ?_
  set c := s.blk.waiting sd m with hc
  have side : c.side sd = { s.blk.side sd with waiter := some (m, Mop.laneRetrain) } := Block.side_modSide_same ..
  have hunts : c.retrainLane (laneOf sd l) = c.huntWarm (laneOf sd l) := by
    refine Block.retrainLane_off ?_ ?_ ?_
    · rw [sideOf_laneOf, side]; exact run
    · rw [hc, Block.waiting, Block.laneUsable_modSide]; exact usable
    · rw [hc, Block.waiting, Block.lane_modSide]; exact off
  have each : c.each (lanesOf sd (BitVec.ofNat 16 (2 ^ l.val))) Block.retrainLane = c.huntWarm (laneOf sd l) := by
    rw [lanesOf_single]; exact hunts
  have still : (c.huntWarm (laneOf sd l)).side sd = c.side sd := (c.huntWarm_kept _).out (.side sd) (by simp [Piece.among])
  have runs : ((c.huntWarm (laneOf sd l)).side sd).seg = .run := by rw [still, side]; exact run
  obtain ⟨st, retraining, warm, -⟩ := c.huntWarm_lane (laneOf sd l)
  rw [Block.laneRetrainOn_lanes each runs, Block.wakeWaiter_hunts runs (laneOf_mem sd l) st]
  exact ⟨st, retraining, warm, runs, by rw [still, side]⟩

end

/-! ### LANE_PRBS -/

section
variable {s : State} {m : ManRef} {sd : Side} {l : Fin 16} {pat : BitVec 8} {ms : BitVec 16}

/-- LANE_PRBS of a lane. -/
def Block.prbsAsked (b : Block) (m : ManRef) (n k pat : BitVec 8) (ms : BitVec 16) : Block :=
  b.onSide m Mop.lanePrbs n.toNat (decide (k.toNat < 16 ∧ pat.toNat < 3 ∧ 1 ≤ ms.toNat ∧ ms.toNat ≤ 60000))
    fun sd => b.lanePrbsOn m (laneOf sd k.toNat) (pat.truncate 2) ms

theorem exec_lanePrbs_man {n k : BitVec 8} : exec (.lanePrbs m n k pat ms) s = s.man m Mop.lanePrbs (·.prbsAsked m n k pat ms) := rfl

theorem laneNo_toNat (l : Fin 16) : (BitVec.ofNat 8 l).toNat = l := by
  rw [BitVec.toNat_ofNat]; omega

theorem Block.prbsAsked_works {b : Block} (known : pat.toNat < 3) (some_ : 1 ≤ ms.toNat) (short : ms.toNat ≤ 60000)
    (free : b.laneBusy sd (some m) = false) (locked : (b.pll (sidePll sd)).down = false) :
    b.prbsAsked m (BitVec.ofNat 8 (sideNo sd)) (BitVec.ofNat 8 l) pat ms = b.lanePrbsOn m (laneOf sd l) (pat.truncate 2) ms := by
  refine (Block.onSide_works (sideOf_sideNo sd) (decide_eq_true ⟨?_, known, some_, short⟩) free locked).trans ?_
  · rw [laneNo_toNat]
  · exact (laneNo_toNat l).trans_lt l.isLt

/-- A lane that a LANE_PRBS takes: its counters are cleared, and its pattern is noted. -/
def Block.prbsTaken (b : Block) (m : ManRef) (l : Nat) (pat : BitVec 2) (ms : BitVec 16) : Block :=
  ((b.clearPrbs l).clrReg (lnOff Off.lnPrbsStatus l) 2).modLane l fun x =>
    { x with prbsOwner := some m, prbsRun := some pat, prbsMs := ms, prbsSync := false, chk := {} }

theorem Block.prbsTaken_kept (b : Block) (m : ManRef) (l : Nat) (pat : BitVec 2) (ms : BitVec 16) :
    Kept [.count (lnOff Off.lnPrbsBitsLo l), .count (lnOff Off.lnPrbsErrLo l), .lane l, .reg (lnOff Off.lnPrbsStatus l)] b (b.prbsTaken m l pat ms) :=
  Kept.step (Block.modLane_kept ..) (Within.of_subset (by simp))
    (Kept.step (Kept.setReg ..) (Within.of_subset (by simp)) ((Block.clearPrbs_kept ..).mono (Within.of_subset (by simp))))

theorem Block.prbsTaken_lane (b : Block) (m : ManRef) (l : Nat) (pat : BitVec 2) (ms : BitVec 16) : (b.prbsTaken m l pat ms).lane l =
    { b.lane l with prbsSat := false, prbsOwner := some m, prbsRun := some pat, prbsMs := ms, prbsSync := false, chk := {} } := by
  rw [Block.prbsTaken, Block.lane_modLane_same, Block.lane_clrReg, Block.clearPrbs, Block.lane_modLane_same]
  rfl

theorem Block.prbsTaken_counts (b : Block) (m : ManRef) (l : LaneId) (pat : BitVec 2) (ms : BitVec 16) :
    (b.prbsTaken m l pat ms).count (lnOff Off.lnPrbsBitsLo l) = 0 ∧ (b.prbsTaken m l pat ms).count (lnOff Off.lnPrbsErrLo l) = 0 :=
  Block.clearPrbs_counts b

theorem Block.laneUsable_congr {b c : Block} {l : Nat} (ctrl : c.reg (lnOff Off.lnCtrl l) = b.reg (lnOff Off.lnCtrl l))
    (unusable : (c.lane l).unusable = (b.lane l).unusable) (pw : c.pw = b.pw) (ck : c.ck = b.ck) : c.laneUsable l = b.laneUsable l := by
  have off : c.laneOff l = b.laneOff l := by unfold Block.laneOff Block.boardEntry; rw [pw]
  have on (d : Nat) : c.domOn d = b.domOn d := by unfold Block.domOn Block.dom; rw [pw]
  unfold Block.laneUsable Block.laneEnabled Block.regBit
  rw [ctrl, unusable, off, on, on, Block.pll_congr ck]

theorem Block.prbsTaken_usable (b : Block) (m : ManRef) (l : Nat) (pat : BitVec 2) (ms : BitVec 16) :
    (b.prbsTaken m l pat ms).laneUsable l = b.laneUsable l := by
  have frame := b.prbsTaken_kept m l pat ms
  refine Block.laneUsable_congr (frame.out (.reg _) ?_) (by rw [Block.prbsTaken_lane])
    (frame.pwEq (by simp [Piece.among]) (by simp [Piece.among])) (frame.ckEq (by simp [Piece.among]) (by simp [Piece.among]))
  simp [Piece.among, lnOff, Off.lnCtrl, Off.lnPrbsStatus]

theorem Block.lanePrbsOn_takes {b : Block} {l : Nat} {pat : BitVec 2} (others : b.onlyRunning l = false) (run : (b.side (laneSide l)).seg = .run)
    (usable : b.laneUsable l = true) (alive : (b.lane l).st ≠ .failed) : b.lanePrbsOn m l pat ms = (b.prbsTaken m l pat ms).retrainLane l :=
  if_neg (by simp [others, run, usable, alive])

theorem lanePrbs_offLane (mans : s.blk.mans Mop.lanePrbs) (known : pat.toNat < 3) (some_ : 1 ≤ ms.toNat) (short : ms.toNat ≤ 60000)
    (free : s.blk.laneBusy sd (some m) = false) (locked : (s.blk.pll (sidePll sd)).down = false) (run : (s.blk.side sd).seg = .run)
    (usable : s.blk.laneUsable (laneOf sd l) = true) (off : (s.blk.lane (laneOf sd l)).st = .off) :
    Does (.lanePrbs m (BitVec.ofNat 8 (sideNo sd)) (BitVec.ofNat 8 l) pat ms) s
        [.cnt, .events, .fws, .ins, .lanes, .qy, .regs, .running, .sides, .slots, .tl] fun b =>
      (b.lane (laneOf sd l)).st = .hunt ∧ (b.lane (laneOf sd l)).prbsOwner = some m ∧ (b.lane (laneOf sd l)).prbsRun = some (pat.truncate 2) := by
  set c := s.blk.prbsTaken m (laneOf sd l) (pat.truncate 2) ms with hc
  have side : (c.side (laneSide (laneOf sd l))).seg = .run := by
    rw [sideOf_laneOf, (s.blk.prbsTaken_kept m _ _ ms).out (.side sd) (by simp [Piece.among])]; exact run
  have hunts : c.retrainLane (laneOf sd l) = c.huntWarm (laneOf sd l) :=
    Block.retrainLane_off side (by rw [hc, Block.prbsTaken_usable]; exact usable) (by rw [hc, Block.prbsTaken_lane]; exact off)
  refine does_man exec_lanePrbs_man mans (Block.prbsAsked_works known some_ short free locked) (Block.lanePrbsOn_kept ..) ?_
  rw [Block.lanePrbsOn_takes (by simp [Block.onlyRunning, Lane.inRun, off]) (by rw [sideOf_laneOf]; exact run) usable (by simp [off]), ← hc, hunts]
  obtain ⟨st, -, -, owner, pattern⟩ := c.huntWarm_lane (laneOf sd l)
  rw [owner, pattern, hc, Block.prbsTaken_lane]
  exact ⟨st, rfl, rfl⟩

theorem lanePrbs_refused (mans : s.blk.mans Mop.lanePrbs) (known : pat.toNat < 3) (some_ : 1 ≤ ms.toNat) (short : ms.toNat ≤ 60000)
    (free : s.blk.laneBusy sd (some m) = false) (locked : (s.blk.pll (sidePll sd)).down = false)
    (h : s.blk.onlyRunning (laneOf sd l) = true ∨ (s.blk.side sd).seg ≠ .run ∨ s.blk.laneUsable (laneOf sd l) = false
      ∨ (s.blk.lane (laneOf sd l)).st = .failed) :
    Does (.lanePrbs m (BitVec.ofNat 8 (sideNo sd)) (BitVec.ofNat 8 l) pat ms) s [.slots, .running, .ins] fun b => b.doneWith m 0x0042 0x02 [] := by
  refine does_answer (d := {}) exec_lanePrbs_man mans ((Block.prbsAsked_works known some_ short free locked).trans (if_pos ?_)) (by decide)
    (by decide) (by decide)
  rw [sideOf_laneOf]
  simpa using h

theorem purgeCount_prbs : ∀ l : LaneId, purgeCount (lnOff Off.lnPrbsBitsLo l) = false ∧ purgeCount (lnOff Off.lnPrbsErrLo l) = false := by decide

/-- The retraining of one lane counts nothing but discards. -/
theorem Block.retrainLane_tallied {b : Block} {l : Nat} (run : (b.side (laneSide l)).seg = .run) (usable : b.laneUsable l = true) :
    b.Tallied (b.retrainLane l) := by
  have warm : b.Tallied (b.huntWarm l) := (b.huntWarm_kept l).tallied
  unfold Block.retrainLane
  dsimp only
  rw [if_neg (by simp [run, usable])]
  refine .ite (b.dropLaneFull_tallied l) ?_
  split
  · exact warm
  · exact warm
  · exact warm
  · exact .refl b

theorem laneOf_lt (sd : Side) (l : Fin 16) : laneOf sd l < 32 := by
  cases sd <;> revert l <;> decide

theorem lanePrbs_clears (mans : s.blk.mans Mop.lanePrbs) (known : pat.toNat < 3) (some_ : 1 ≤ ms.toNat) (short : ms.toNat ≤ 60000)
    (free : s.blk.laneBusy sd (some m) = false) (locked : (s.blk.pll (sidePll sd)).down = false) (others : s.blk.onlyRunning (laneOf sd l) = false)
    (run : (s.blk.side sd).seg = .run) (usable : s.blk.laneUsable (laneOf sd l) = true) (alive : (s.blk.lane (laneOf sd l)).st ≠ .failed) :
    Does (.lanePrbs m (BitVec.ofNat 8 (sideNo sd)) (BitVec.ofNat 8 l) pat ms) s
        [.cnt, .events, .fws, .ins, .lanes, .qy, .regs, .running, .sides, .slots, .tl] fun b =>
      b.count (lnOff Off.lnPrbsBitsLo (laneOf sd l)) = 0 ∧ b.count (lnOff Off.lnPrbsErrLo (laneOf sd l)) = 0 := by
  let ln : LaneId := ⟨laneOf sd l, laneOf_lt sd l⟩
  set c := s.blk.prbsTaken m ln (pat.truncate 2) ms with hc
  have side : (c.side (laneSide ln)).seg = .run := by
    rw [show laneSide ln = sd from sideOf_laneOf sd l, (s.blk.prbsTaken_kept m _ _ ms).out (.side sd) (by simp [Piece.among])]; exact run
  have tallied : c.Tallied (c.retrainLane ln) := Block.retrainLane_tallied side (by rw [hc, Block.prbsTaken_usable]; exact usable)
  obtain ⟨bits, errors⟩ := s.blk.prbsTaken_counts m ln (pat.truncate 2) ms
  refine does_man exec_lanePrbs_man mans (Block.prbsAsked_works known some_ short free locked) (Block.lanePrbsOn_kept ..) ?_
  rw [Block.lanePrbsOn_takes others (by rw [sideOf_laneOf]; exact run) usable alive]
  exact ⟨(tallied.count _ (purgeCount_prbs ln).1).trans bits, (tallied.count _ (purgeCount_prbs ln).2).trans errors⟩

end

/-! ### SSC_SET (R72, R74) -/

section
variable {s : State} {m : ManRef} {sd : Side}

theorem exec_sscSet_man {n d r f : BitVec 8} :
    exec (.sscSet m n d r f) s = s.man m Mop.sscSet (·.sscSet m n.toNat d.toNat r.toNat f.toNat) := rfl

theorem sscSet_stores {d r : BitVec 8} (mans : s.blk.mans Mop.sscSet) (depth : d.toNat ≤ 20) (rate : r.toNat ≤ 6) :
    Does (.sscSet m (BitVec.ofNat 8 (sideNo sd)) d r 0) s [.reg (sideOff Off.lnSideSsc sd), .side sd, .slots, .running, .ins] fun b =>
      b.regField (sideOff Off.lnSideSsc sd) 0 8 = d.toNat ∧ b.regField (sideOff Off.lnSideSsc sd) 8 8 = r.toNat
        ∧ (b.slot (slotKey m.ring m.seq)).st = .done
        ∧ (b.slot (slotKey m.ring m.seq)).status = 0 ∧ (b.side sd).sscActive = (s.blk.side sd).sscActive := by
  set c := s.blk.writeSsc sd d.toNat r.toNat with hc
  have lawful : decide (d.toNat ≤ 20 ∧ r.toNat ≤ 6 ∧ (0 : BitVec 8).toNat ≤ 1) = true := decide_eq_true ⟨depth, rate, by decide⟩
  have made : s.blk.sscSet m (BitVec.ofNat 8 (sideNo sd)).toNat d.toNat r.toNat (0 : BitVec 8).toNat
      = c.finish m Mop.sscSet St.ok (c.sscResult sd) := by
    unfold Block.sscSet
    rw [if_neg (by decide), sideOf_sideNo, lawful]
    rfl
  have frame : Kept [.reg (sideOff Off.lnSideSsc sd), .side sd, .slots, .running, .ins] s.blk c := by
    rw [hc, Block.writeSsc]
    exact Kept.step (Block.modSide_kept ..) (Within.of_subset (by simp)) ((Kept.setReg ..).mono (Within.of_subset (by simp)))
  have stored : c.reg (sideOff Off.lnSideSsc sd) = BitVec.ofNat 32 (d.toNat + 256 * r.toNat) := by
    rw [hc, Block.writeSsc, Block.reg_modSide, Block.reg_setReg_same]
  have side : (c.side sd).sscActive = (s.blk.side sd).sscActive := by
    rw [hc, Block.writeSsc, Block.side_modSide_same, Block.side_setReg]
  have answered := Block.finish_doneWith c (m := m) (op := Mop.sscSet) (st := St.ok) (r := c.sscResult sd) {} (by decide) (by decide)
    (show 2 ≤ 960 by decide)
  obtain ⟨st, -, -, status, -⟩ := answered
  refine does_man exec_sscSet_man mans made (Kept.step (Block.finish_kept ..) (Within.of_subset (by simp)) frame) ⟨?_, ?_, st, ?_, ?_⟩
  · rw [Block.regField, Block.finish_reg, stored, BitVec.toNat_ofNat]; omega
  · rw [Block.regField, Block.finish_reg, stored, BitVec.toNat_ofNat]; omega
  · exact BitVec.eq_of_toNat_eq status
  · rw [(Block.finish_kept ..).out (.side sd) (by simp [Piece.among])]; exact side

theorem sscSet_bad {n d r f : BitVec 8} (mans : s.blk.mans Mop.sscSet) (h : 2 ≤ n.toNat ∨ 20 < d.toNat ∨ 6 < r.toNat ∨ 1 < f.toNat) :
    Does (.sscSet m n d r f) s [.slots, .running, .ins] fun b => b.doneWith m 0x0051 0x04 [] := by
  have bad : sideOf n.toNat = none ∨ decide (d.toNat ≤ 20 ∧ r.toNat ≤ 6 ∧ f.toNat ≤ 1) = false :=
    h.imp sideOf_none fun h => decide_eq_false (by omega)
  refine does_answer (d := {}) exec_sscSet_man mans ?_ (by decide) (by decide) (by decide)
  unfold Block.sscSet
  dsimp only
  split
  · exact Block.onSide_bad bad
  · split
    · next known => rw [if_neg (by simpa [known] using bad)]
    · rfl

end

/-! ### LOG_READ (R439) -/

section
variable {s : State} {m : ManRef} {area : BitVec 8} {c : BitVec 16} {first : BitVec 32}

theorem exec_logRead_man : exec (.logRead m area c first) s = s.man m Mop.logRead (·.logRead m area.toNat c.toNat first.toNat) := rfl

/-- A receipt holds the first 960 bytes of a result. -/
theorem Block.finish_doneWith_take (b : Block) {op st : Nat} {r : List Byte} (d : Detail) (ho : op < 65536) (hs : st < 256) :
    (b.finish m op st r d).doneWith m op st (r.take 960) := by
  unfold Block.doneWith Block.slot
  rw [Block.finish_mf]
  simp [Nat.mod_eq_of_lt ho, Nat.mod_eq_of_lt hs]

theorem logRead_records (mans : s.blk.mans Mop.logRead) (known : area.toNat ≤ 1) (some_ : 1 ≤ c.toNat) (few : c.toNat ≤ 28) :
    Does (.logRead m area c first) s [.slots, .running, .ins] fun b =>
      b.doneWith m 0x0080 0x00 ((s.blk.logResult area.toNat c.toNat first.toNat).take 960) :=
  does_finish exec_logRead_man mans (if_neg (by omega)) (.refl ..) (Within.of rfl) (Block.finish_doneWith_take _ {} (by decide) (by decide))

theorem logRead_bad (mans : s.blk.mans Mop.logRead)
    (h : 2 < area.toNat ∨ c.toNat < 1 ∨ 28 < c.toNat ∨ (area = 2 ∧ 14 ≤ first.toNat)) :
    Does (.logRead m area c first) s [.slots, .running, .ins] fun b => b.doneWith m 0x0080 0x04 [] := by
  refine does_answer (d := {}) exec_logRead_man mans (if_pos ?_) (by decide) (by decide) (by decide)
  exact h.imp_right (.imp_right (.imp_right fun ⟨two, late⟩ => ⟨by rw [two]; rfl, late⟩))

end

/-! ### TRIP_ACK (R399) -/

/-- The newer of two unacknowledged trip records, the one found so far and the next. -/
def Block.newerTrip (b : Block) (m : Option (Nat × Trip)) (e : Nat × Option Trip) : Option (Nat × Trip) :=
  match e.2, m with
  | some t, some x => if !t.acked && decide (b.tripAge e.1 < b.tripAge x.1) then some (e.1, t) else m
  | some t, none => if t.acked then none else some (e.1, t)
  | none, _ => m

theorem Block.newestTrip_eq (b : Block) : b.newestTrip = b.lg.trips.foldl b.newerTrip none := rfl

/-- The trip of an entry is acknowledged, or the entry holds none. -/
def ackedEntry (e : Nat × Option Trip) : Prop := ∀ t, e.2 = some t → t.acked = true

section
variable {b : Block} {found : Option (Nat × Trip)}

theorem Block.newerTrip_acked {e : Nat × Option Trip} (h : ackedEntry e) : b.newerTrip found e = found := by
  obtain ⟨i, t⟩ := e
  cases t with
  | none => cases found <;> rfl
  | some t => cases found <;> simp [Block.newerTrip, h t rfl]

theorem Block.newestTrip_none {ts : List (Nat × Option Trip)} (h : ∀ e ∈ ts, ackedEntry e) : ts.foldl b.newerTrip found = found := by
  induction ts with
  | nil => rfl
  | cons e ts ih => rw [List.foldl_cons, Block.newerTrip_acked (h e List.mem_cons_self), ih fun e he => h e (List.mem_cons_of_mem _ he)]

/-- The trip found is at least as new as the one found before and as every unacknowledged one of the list. -/
theorem Block.newestTrip_first {ts : List (Nat × Option Trip)} {i : Nat} {r : Trip} (h : ts.foldl b.newerTrip found = some (i, r)) :
    (∀ x, found = some x → b.tripAge i ≤ b.tripAge x.1) ∧ ∀ e ∈ ts, ackedEntry e ∨ b.tripAge i ≤ b.tripAge e.1 := by
  induction ts generalizing found with
  | nil => exact ⟨fun x hx => by cases h.symm.trans hx; exact le_rfl, fun e he => absurd he List.not_mem_nil⟩
  | cons e ts ih =>
    rw [List.foldl_cons] at h
    obtain ⟨before, rest⟩ := ih h
    have step : (∀ x, found = some x → b.tripAge i ≤ b.tripAge x.1) ∧ (ackedEntry e ∨ b.tripAge i ≤ b.tripAge e.1) := by
      by_cases acked : ackedEntry e
      · rw [Block.newerTrip_acked acked] at before
        exact ⟨before, .inl acked⟩
      · obtain ⟨k, t⟩ := e
        cases t with
        | none => exact absurd (fun t ht => by cases ht) acked
        | some t =>
          have free : t.acked = false := by
            rw [← Bool.not_eq_true]
            exact fun acks => acked fun u hu => by cases hu; exact acks
          cases found with
          | none =>
            simp only [Block.newerTrip, free, Bool.false_eq_true, if_false, Option.some.injEq, forall_eq'] at before
            exact ⟨nofun, .inr before⟩
          | some x =>
            simp only [Block.newerTrip, free, Bool.not_false, Bool.true_and, decide_eq_true_eq] at before
            split at before
            · next newer =>
              have here := before _ rfl
              exact ⟨fun y hy => by cases hy; exact here.trans newer.le, .inr here⟩
            · next older =>
              have here := before _ rfl
              exact ⟨fun y hy => by cases hy; exact here, .inr (here.trans (not_lt.mp older))⟩
    exact ⟨step.1, fun e' he' => by
      rcases List.mem_cons.mp he' with rfl | later
      · exact step.2
      · exact rest e' later⟩

/-- With the newest trip acknowledged, and every older one, none is left. -/
theorem Block.ackTrips_none {i : Nat} {r : Trip} (h : b.newestTrip = some (i, r)) : (b.ackTrips i).newestTrip = none := by
  rw [Block.newestTrip_eq] at h ⊢
  refine Block.newestTrip_none fun e he => ?_
  obtain ⟨e', he', rfl⟩ := List.mem_map.mp he
  intro t ht
  split at ht
  · obtain ⟨u, -, rfl⟩ := Option.map_eq_some_iff.mp ht
    rfl
  · next older => exact ((Block.newestTrip_first h).2 e' he').resolve_right older t ht

theorem Block.newestTrip_congr {b c : Block} {ps : List Piece} (h : Kept ps b c) (out : ¬ Piece.lg.among ps) : c.newestTrip = b.newestTrip := by
  obtain ⟨trips, next, -⟩ := h.out .lg out
  unfold Block.newestTrip Block.tripAge
  rw [trips, next]

/-- OPEN is entered without a hold, and nothing else on the way there touches one. -/
theorem Block.checkOpen_tripHold (h : b.pw.tripHold = false) : b.checkOpen.pw.tripHold = false := by
  have lift (b : Block) (sd : Side) : (if (b.side sd).seg = .down then b.modSide sd fun x => { x with capG2 := false }
      else if (b.side sd).seg = .run ∧ (b.side sd).capG2 then (b.modSide sd fun x => { x with capG2 := false }).retrainSide sd 0 false
      else b).pw = b.pw := by
    have lifted := (b.modSide_kept sd fun x => { x with capG2 := false }).pwEq (by simp [Piece.among]) (by simp [Piece.among])
    split
    · exact lifted
    · split
      · exact ((Block.retrainSide_kept ..).pwEq (by simp [Piece.among]) (by simp [Piece.among])).trans lifted
      · rfl
  have ite {p : Prop} [Decidable p] {c d : Block} (hc : c.pw.tripHold = false) (hd : d.pw.tripHold = false) :
      (if p then c else d).pw.tripHold = false := by split <;> assumption
  unfold Block.checkOpen
  exact ite h (ite rfl ((congrArg (·.tripHold) ((lift _ .east).trans (lift b .west))).trans h))

theorem Block.doneWith_kept {b c : Block} {ps : List Piece} {m : ManRef} {op st : Nat} {r : List Byte} (h : b.doneWith m op st r)
    (frame : Kept ps b c) (slot : ¬ (Piece.slot (slotKey m.ring m.seq)).among ps) (running : ¬ Piece.running.among ps) : c.doneWith m op st r := by
  unfold Block.doneWith at h ⊢
  rwa [show c.slot _ = b.slot _ from frame.out (.slot _) slot, show c.mf.running = b.mf.running from frame.out .running running]

end

section
variable {s : State} {m : ManRef} {t : BitVec 64} {i : Nat} {r : Trip}

theorem exec_tripAck_man : exec (.tripAck m t) s = s.man m Mop.tripAck (·.tripAck m t) := rfl

theorem tripAck_none (mans : s.blk.mans Mop.tripAck) (none_ : s.blk.newestTrip = none) :
    Does (.tripAck m t) s [.slots, .running, .ins] fun b => b.doneWith m 0x0081 0x02 [] := by
  refine does_answer (d := {}) exec_tripAck_man mans ?_ (by decide) (by decide) (by decide)
  rw [Block.tripAck, none_]

theorem tripAck_other (mans : s.blk.mans Mop.tripAck) (newest : s.blk.newestTrip = some (i, r)) (other : r.tide ≠ t) :
    Does (.tripAck m t) s [.slots, .running, .ins] fun b => b.doneWith m 0x0081 0x04 [] := by
  refine does_answer (d := {}) exec_tripAck_man mans ?_ (by decide) (by decide) (by decide)
  rw [Block.tripAck, newest]
  exact if_pos other

/-- The block whose trips are acknowledged, with the hold clear. -/
def Block.tripsClear (b : Block) (i : Nat) : Block := { b.ackTrips i with pw.tripHold := false }

theorem tripAck_clears (mans : s.blk.mans Mop.tripAck) (newest : s.blk.newestTrip = some (i, r)) :
    Does (.tripAck m r.tide) s [.cnt, .events, .fws, .ins, .lanes, .lg, .mf, .pw, .qy, .regs, .running, .sides, .slots, .tl] fun b =>
      b.doneWith m 0x0081 0x00 [] ∧ b.pw.tripHold = false ∧ b.newestTrip = none := by
  set c := (s.blk.tripsClear i).event .tripAcked with hc
  have made : s.blk.tripAck m r.tide = (c.finish m Mop.tripAck St.ok).checkOpen := by
    rw [Block.tripAck, newest]
    exact if_neg fun h => h rfl
  have noted := (s.blk.tripsClear i).event_kept .tripAcked 0 []
  have ended := c.finish_kept m Mop.tripAck St.ok [] {}
  have opens := (c.finish m Mop.tripAck St.ok).checkOpen_kept
  refine does_upd (f := (·.tripAck m r.tide)) (exec_tripAck_man.trans (State.man_accepted _ mans)) (Block.tripAck_kept ..) ?_
  rw [made]
  refine ⟨?_, Block.checkOpen_tripHold ?_, ?_⟩
  · exact Block.doneWith_kept (Block.finish_doneWith c {} (by decide) (by decide) (by decide)) opens (by simp [Piece.among]) (by simp [Piece.among])
  · rw [ended.pwEq (by simp [Piece.among]) (by simp [Piece.among]), noted.pwEq (by simp [Piece.among]) (by simp [Piece.among])]
    rfl
  · rw [Block.newestTrip_congr opens (by simp [Piece.among]), Block.newestTrip_congr ended (by simp [Piece.among]),
      Block.newestTrip_congr noted (by simp [Piece.among])]
    exact Block.ackTrips_none newest

end

/-- Settles O52: the checks of a manifest on a side in their order, the work of each, and the trips by their age. -/
theorem laneAndLogManifests : Obligations.LaneAndLogManifests :=
  ⟨fun _ _ _ => laneStatus_answers, fun _ _ _ => laneStatus_noSide, fun _ _ _ _ _ => laneRetrain_busy, fun _ _ _ _ _ => laneRetrain_pllDown,
    fun _ _ _ _ _ => laneRetrain_bad, fun _ _ _ mans free locked _ => laneRetrain_whole mans free locked, fun _ _ _ _ => laneRetrain_offLane,
    fun _ _ _ _ _ _ => lanePrbs_offLane, fun _ _ _ _ _ _ => lanePrbs_refused, fun _ _ _ _ _ _ => lanePrbs_clears, fun _ _ _ _ _ => sscSet_stores,
    fun _ _ _ _ _ _ => sscSet_bad, fun _ _ _ _ _ => logRead_records, fun _ _ _ _ _ => logRead_bad, fun _ _ _ => tripAck_none,
    fun _ _ _ _ _ => tripAck_other, fun _ _ _ _ => tripAck_clears⟩

end Sys2Proof.Machine
end

section
/-! SUPPORT. A lane in TRAIN that loses its partner while its segment repeats MOVE (R121; log 104). -/

namespace Sys2Proof.Machine

open Sys2Proof

/-! ### Commands that change the block alone -/

theorem exec_upd_of {i : Instr} {s : State} {f g : Block → Block} (e : exec i s = s.upd f) (same : f s.blk = g s.blk) : exec i s = s.upd g := by
  rw [e, State.upd, State.upd, same]

theorem blk_of_upd {i : Instr} {s t : State} {f : Block → Block} (e : exec i s = s.upd f) (next : exec i s = .next t) : t.blk = f s.blk := by
  rw [e] at next; cases next; rfl

/-! ### The loss of lock of a lane in TRAIN -/

/-- A pier in OPEN whose West segment trains at G2 and repeats MOVE to G1 on lane 0, which is in TRAIN. -/
def movingSegment : State :=
  { State.reset with
    blk := { State.reset.blk with
      pw.st := .openS, pw.doms := [(quadDom 0, { st := .on }), (ckDom .west, { st := .on })], ck.west := { lock := true }
      west := { seg := .training, grade := 1, moveOut := some 0, ctl := [(1, .move 0)] }, lanes := [(0, { st := .train, grade := 1 })] } }

/-- 64 headers in succession that R87 has as invalid. -/
def invalidHeaders : List (BitVec 2 × Bool) := List.replicate 64 (0, false)

theorem invalidHeaders_loseLock : losesLock invalidHeaders = true := by decide

theorem exec_blockLockLoss_loses {s : State} {l : LaneId} {hs : List (BitVec 2 × Bool)} (loses : losesLock hs = true) :
    exec (.blockLockLoss l hs) s = s.upd (·.loseLock l) :=
  exec_upd_of rfl (if_pos loses)

/-- The loss of lock says that the partner has left the grade, and the segment follows its MOVE to G1. -/
theorem movingSegment_moves : ((movingSegment.blk.loseLock 0).side .west).grade = 0 := by decide +kernel

/-- Refutes O23: its ninth clause has a lane in TRAIN that loses block lock change alone, in every state, and on a lane that repeats
MOVE the loss takes the whole segment to the grade of the MOVE. -/
theorem not_huntingLanes : ¬ Obligations.HuntingLanes := by
  intro h
  obtain ⟨-, -, -, -, -, -, -, -, loses, -⟩ := h
  obtain ⟨t, e, -, frame, -⟩ := loses movingSegment 0 invalidHeaders (.inr (by decide +kernel)) invalidHeaders_loseLock
  have kept : t.blk.side .west = movingSegment.blk.side .west := frame.out (.side .west) (by simp [Piece.among])
  rw [blk_of_upd (exec_blockLockLoss_loses invalidHeaders_loseLock) e] at kept
  have grades : (0 : Fin 4) = 1 := movingSegment_moves.symm.trans (congrArg (·.grade) kept)
  exact absurd grades (by decide)

end Sys2Proof.Machine
end

section
/-! SUPPORT. A segment whose partner's direction has started, and counts rows, when the pier's own START ends (R123). -/

namespace Sys2Proof.Machine

open Sys2Proof

/-- A pier in OPEN whose West segment has received 5 rows since the partner's START, and whose own START is over. -/
def startedRows : State :=
  { State.reset with
    blk := { State.reset.blk with
      pw.st := .openS, ck.tide := 2000, lanes := [(0, { st := .train })]
      west := { seg := .starting, mask := 1, pass := 1, bseg := 1, useg := 1, blink := 1, rxOn := true, row := 5 } } }

theorem exec_start_upd {s : State} {sd : Side} {own : Bool} {skew : List (Fin 16 × Nat)} :
    exec (.start sd own skew) s = s.upd (·.takeStart sd own skew) := rfl

theorem startedRows_trains : ∀ l ∈ sideLanes .west, (startedRows.blk.side .west).mask.getLsbD (laneIx l) = true → (startedRows.blk.lane l).st = .train := by
  decide +kernel

/-- The pier's own START begins the rows that it sends, and leaves the count of those that come. -/
theorem startedRows_counts : ((startedRows.blk.takeStart .west true []).side .west).row = 5 := by decide +kernel

/-- Refutes O26: its sixth clause has the count of received rows 0 after the second START, whichever that is; where the pier's own is
the second, rows have come since the partner's, and their count goes on. -/
theorem not_agreementMessages : ¬ Obligations.AgreementMessages := by
  intro h
  obtain ⟨-, -, -, -, -, starts, -⟩ := h
  obtain ⟨t, e, -, -, -, -, row, -⟩ := starts startedRows .west true [] (by decide +kernel) (by decide +kernel) rfl startedRows_trains
    (fun _ => ⟨rfl, rfl, rfl, by decide +kernel⟩) (fun partner => absurd partner (by decide))
  rw [blk_of_upd exec_start_upd e, startedRows_counts] at row
  exact absurd row (by decide)

end Sys2Proof.Machine
end

section
/-! SUPPORT. A control row between the two switches of a REFORM (R134). -/

namespace Sys2Proof.Machine

open Sys2Proof

/-- A pier in OPEN whose West segment runs on lanes 0 and 1; the partner has switched to lane 0 alone. -/
def switchedSegment : State :=
  { State.reset with
    blk := { State.reset.blk with
      pw.st := .openS, lanes := [(0, { st := .run }), (1, { st := .run })]
      west := { seg := .run, mask := 3, reform := some 1, reformOut := some 1, reformRx := true } } }

theorem exec_fillRow_upd {s : State} {sd : Side} {rows : Nat} {blks : List (Fin 16 × List Byte)} {slot : List SlotObs} {between : List Flit} :
    exec (.fillRow sd rows blks slot between) s = s.upd (·.fillRow sd rows blks slot between) := rfl

/-- A data row that comes on one lane is one block. -/
theorem switchedSegment_phase : ((switchedSegment.blk.fillRow .west 1 [] [] []).side .west).rxPhase = 1 := by decide +kernel

/-- Refutes O28: its first clause advances the flit phase by the lanes of the segment's mask for each data row, also where the partner
has switched to the lanes of a REFORM, on which its rows come: on one lane of two a row advances it by 1, not by 2. -/
theorem not_controlRows : ¬ Obligations.ControlRows := by
  intro h
  obtain ⟨counts, -⟩ := h
  obtain ⟨t, e, -, -, side⟩ := counts switchedSegment .west 1 [] [] [] _ rfl rfl rfl (fun _ none => absurd none (List.not_mem_nil))
  rw [blk_of_upd exec_fillRow_upd e] at side
  have two : (lanesOf .west (switchedSegment.blk.side .west).mask).length = 2 := by decide +kernel
  have phase := switchedSegment_phase.symm.trans (congrArg (·.rxPhase) side)
  rw [two] at phase
  exact absurd phase (by decide)

end Sys2Proof.Machine
end

section
/-! SUPPORT. What leaves a side at a flit boundary (R89, R97, R98, R114, R130, R155): the row stream, control rows, and FLIT_SEND. -/

namespace Sys2Proof.Machine

open Sys2Proof

/-! ### The row stream (R91) -/

/-- The side without the bits, symbols and mutes of the rows that it sends: what a pushed block leaves. -/
def SideSt.noStream (x : SideSt) : SideSt :=
  { x with txBits := [], txSym := 0, txPair := [], txDealt := [], muteDue := false, txMuted := false }

section
variable (x : SideSt) (w : Nat) (who : Nat × Bool) (hold : Bool)

theorem SideSt.noStream_pushBlock (k : LaneBlock) : (x.pushBlock w k).noStream = x.noStream := by
  unfold SideSt.pushBlock SideSt.cutPair
  split <;> rfl

theorem SideSt.noStream_pushBlocks (k : LaneBlock) (ns : List Nat) : (ns.foldl (fun x _ => x.pushBlock w k) x).noStream = x.noStream := by
  induction ns generalizing x with
  | nil => rfl
  | cons n ns ih => exact (ih _).trans (x.noStream_pushBlock w k)

/-- The side from which the control row `bs` has gone. -/
def SideSt.rowSent (x : SideSt) (bs : List Byte) : SideSt := { x with txCtl := some bs, txRow := x.txRow + 1, txSince := 0 }

/-- The side from which a quiet slot has gone, and no row. -/
def SideSt.slotSent (x : SideSt) : SideSt := { x with mute := x.mute - 1, txCtl := some [], txSince := 0 }

variable {x} {w who hold}

theorem SideSt.noStream_sendTrain {phase : Nat} {bs : List Byte} (row : x.ctlRow who hold phase .train = some bs) :
    (x.sendCtl w who hold phase .train).noStream = (x.msgLeft.rowSent bs).noStream := by
  have pushed := x.noStream_pushBlocks w { header := hdrControl, payload := bs } (List.range w)
  have sent := congrArg (fun y : SideSt => (y.msgLeft.rowSent bs).noStream) pushed
  unfold SideSt.sendCtl
  rw [row]
  exact sent

theorem SideSt.noStream_sendFill {phase : Nat} {bs : List Byte} (row : x.ctlRow who hold phase .fill = some bs) :
    (x.sendCtl w who hold phase .fill).noStream = (x.rowSent bs).noStream := by
  have pushed := x.noStream_pushBlocks w { header := hdrControl, payload := bs } (List.range w)
  have sent := congrArg (fun y : SideSt => (y.rowSent bs).noStream) pushed
  unfold SideSt.sendCtl
  rw [row]
  exact sent

theorem SideSt.noStream_sendQuiet (phase : Nat) : (x.sendCtl w who hold phase .quiet).noStream = x.slotSent.noStream := rfl

theorem SideSt.sendCtl_none (phase : Nat) : x.sendCtl w who hold phase .none = x := rfl

/-- A flit without a control row in it leaves none behind. -/
theorem SideSt.sendFlit_txCtl {f : Flit} (h : x.txCtl = none) : (x.sendFlit w who hold .none f).txCtl = none := by
  have block (y : SideSt) (j : Nat) (hy : y.txCtl = none) : (y.sendData w who hold .none f j).txCtl = none := by
    have pushed : (y.pushBlock w (flitBlock f j)).txCtl = none := (congrArg SideSt.txCtl (y.noStream_pushBlock w _)).trans hy
    unfold SideSt.sendData
    simp only [SideSt.sendCtl_none, ite_self, apply_ite SideSt.txCtl, pushed]
  exact List.foldlRecOn (motive := fun y : SideSt => y.txCtl = none) _ _ h fun y hy j _ => block y j hy

end

/-! ### What a control row or a slot leaves at its side -/

section
variable {b : Block} {out : Side}

/-- The pieces that a control row or a flit changes beside the buffers. -/
def rowPieces (out : Side) : List Piece := [.reg (tlOff Off.tlOvf (sideBlk out)), .side out, .tl]

theorem Block.tally_row (b : Block) (out : Side) (ev : Nat) (fs : List Nat) (n : Nat) :
    Kept (rowPieces out) b (b.tally (sideBlk out) ev fs n) :=
  (Block.tally_kept ..).mono (Within.of_subset (by simp [rowPieces]))

theorem Block.modSide_row (b : Block) (out : Side) (g : SideSt → SideSt) : Kept (rowPieces out) b (b.modSide out g) :=
  (Block.modSide_kept ..).mono (Within.of_subset (by simp [rowPieces]))

/-- The end of the partner's window leaves what went last, and the count of rows. -/
theorem Block.muteDone_sent (b : Block) (out : Side) :
    ((b.muteDone out).side out).tx = (b.side out).tx ∧ ((b.muteDone out).side out).txRow = (b.side out).txRow := by
  unfold Block.muteDone
  dsimp only
  split
  · simp [Block.grantWindow, Block.sendSeg]
  · simp

/-- The slots of a granted window, counted as they go. -/
theorem Block.ctlLeft_quiet (b : Block) (out : Side) : b.ctlLeft out .quiet =
    if (b.side out).mute = 0 then (b.tally (sideBlk out) 0x046 (b.laneFilters out) 1).muteDone out
    else b.tally (sideBlk out) 0x046 (b.laneFilters out) 1 := by
  have same : ((b.tally (sideBlk out) 0x046 (b.laneFilters out) 1).side out) = b.side out :=
    (Block.tally_kept ..).out (.side out) (by simp [Piece.among])
  rw [← same]
  rfl

theorem Block.ctlLeft_train (h : (b.side out).moveOut = none) : b.ctlLeft out .train = b := by
  change b.moveLeft out = b
  unfold Block.moveLeft
  rw [h]

/-- What a control row counts as it leaves touches its own side alone, unless a MOVE goes with it. -/
theorem Block.ctlLeft_row {k : CtlDue} (h : k = .train → (b.side out).moveOut = none) : Kept (rowPieces out) b (b.ctlLeft out k) := by
  cases k
  case none => exact .refl _ b
  case train => rw [Block.ctlLeft_train (h rfl)]; exact .refl _ b
  case fill => exact b.tally_row ..
  case quiet =>
    rw [Block.ctlLeft_quiet]
    refine .ite (Kept.step (Block.muteDone_kept ..) (Within.of_subset (by simp [rowPieces])) ?_) ?_ <;> exact b.tally_row ..

/-- It leaves what went last. -/
theorem Block.ctlLeft_tx {k : CtlDue} (h : k ≠ .train) : ((b.ctlLeft out k).side out).tx = (b.side out).tx := by
  have tallied (ev : Nat) : (b.tally (sideBlk out) ev (b.laneFilters out) 1).side out = b.side out :=
    (Block.tally_kept ..).out (.side out) (by simp [Piece.among])
  cases k
  case none => rfl
  case train => exact absurd rfl h
  case fill => exact congrArg SideSt.tx (tallied _)
  case quiet =>
    rw [Block.ctlLeft_quiet]
    split
    · rw [(Block.muteDone_sent _ out).1, tallied]
    · rw [tallied]

end

/-! ### Control rows at a row's end -/

/-- What leaves with a control row of a kind. -/
def CtlDue.item (k : CtlDue) (ctl : Option (List Byte)) (was : Option TxItem) : Option TxItem :=
  match k, ctl with
  | .train, some bs => some (.trainRow bs)
  | .fill, some bs => some (.fillRow bs)
  | .quiet, some _ => some .quietSlot
  | _, _ => was

/-- A side that notes what left with a control row of a kind. -/
def SideSt.noted (x : SideSt) (k : CtlDue) : SideSt := { x with tx := k.item x.txCtl x.tx }

/-- The side from which a control row of a kind has gone, noted as what went last. -/
def SideSt.ctlSent (x : SideSt) (w : Nat) (who : Nat × Bool) (hold : Bool) (k : CtlDue) : SideSt :=
  ({ x with txCtl := none }.sendCtl w who hold 0 k).noted k

section
variable {x y : SideSt} {w : Nat} {who : Nat × Bool} {hold : Bool} {k : CtlDue} {bs : List Byte}

theorem SideSt.ctlSent_of (sent : ({ x with txCtl := none }.sendCtl w who hold 0 k).noStream = y.noStream) :
    (x.ctlSent w who hold k).noStream = (y.noted k).noStream := by
  have noted := congrArg (fun z : SideSt => (z.noted k).noStream) sent
  exact noted

theorem SideSt.ctlSent_train (row : x.ctlRow who hold 0 .train = some bs) :
    (x.ctlSent w who hold .train).noStream = ({ x.msgLeft.rowSent bs with tx := some (.trainRow bs) } : SideSt).noStream :=
  SideSt.ctlSent_of (SideSt.noStream_sendTrain row)

theorem SideSt.ctlSent_fill :
    (x.ctlSent w who hold .fill).noStream =
      ({ x.rowSent (ctlBytes ctlFill 0 (fillBody x.txRow x.spread hold)) with
          tx := some (.fillRow (ctlBytes ctlFill 0 (fillBody x.txRow x.spread hold))) } : SideSt).noStream :=
  SideSt.ctlSent_of (SideSt.noStream_sendFill rfl)

theorem SideSt.ctlSent_quiet :
    (x.ctlSent w who hold .quiet).noStream = ({ x.slotSent with tx := some .quietSlot } : SideSt).noStream :=
  SideSt.ctlSent_of (SideSt.noStream_sendQuiet 0)

/-- A waiting message has a row. -/
theorem SideSt.ctlRow_waiting {m : BitVec 8 × SegMsg} {q : List (BitVec 8 × SegMsg)} (who : Nat × Bool) (hold : Bool) (ctl : x.ctl = m :: q) :
    ∃ bs, x.ctlRow who hold 0 .train = some bs :=
  ⟨_, by rw [SideSt.ctlRow, ctl]; rfl⟩

end

/-- Who sends the rows of a side, on the lanes that it sends on. -/
def Block.rowWho (b : Block) (out : Side) : Nat × Bool := b.rowSender out (lanesOf out (b.txMask out))

section
variable {b : Block} {out : Side}

/-- The block from which a control row of a kind has gone, before it is counted. -/
def Block.ctlGone (b : Block) (out : Side) (k : CtlDue) : Block :=
  b.modSide out fun x => x.ctlSent (lanesOf out (b.txMask out)).length (b.rowWho out) (b.holdOut out) k

theorem Block.putCtl_eq (b : Block) (out : Side) (k : CtlDue) : b.putCtl out k = (b.ctlGone out k).ctlLeft out k := by
  cases out <;> rfl

theorem Block.ctlGone_side (b : Block) (out : Side) (k : CtlDue) : (b.ctlGone out k).side out =
    (b.side out).ctlSent (lanesOf out (b.txMask out)).length (b.rowWho out) (b.holdOut out) k := Block.side_modSide_same ..

theorem Block.ctlGone_row (b : Block) (out : Side) (k : CtlDue) : Kept (rowPieces out) b (b.ctlGone out k) := Block.modSide_row ..

theorem Block.putCtl_row {k : CtlDue} (h : k ≠ .train) : Kept (rowPieces out) b (b.putCtl out k) := by
  rw [Block.putCtl_eq]
  exact Kept.step (Block.ctlLeft_row fun train => absurd train h) .refl (b.ctlGone_row out k)

/-- The oldest waiting message is gone in its TRAIN row; a MOVE is still to be followed. -/
theorem Block.ctlGone_train {m : BitVec 8 × SegMsg} {q : List (BitVec 8 × SegMsg)} (ctl : (b.side out).ctl = m :: q) :
    ((b.ctlGone out .train).side out).tx = ((b.side out).ctlRow (b.rowWho out) (b.holdOut out) 0 .train).map .trainRow
      ∧ ((b.ctlGone out .train).side out).ctl = q ∧ ((b.ctlGone out .train).side out).moveOut = (b.side out).moveOut := by
  obtain ⟨bs, row⟩ := SideSt.ctlRow_waiting (b.rowWho out) (b.holdOut out) ctl
  have gone := (congrArg SideSt.noStream (b.ctlGone_side out .train)).trans (SideSt.ctlSent_train row)
  rw [row]
  exact ⟨congrArg SideSt.tx gone, (congrArg SideSt.ctl gone).trans (congrArg (List.drop 1) ctl), (congrArg SideSt.moveOut gone :)⟩

theorem Block.putCtl_fill (b : Block) (out : Side) :
    ((b.putCtl out .fill).side out).tx
        = some (.fillRow (ctlBytes ctlFill 0 (fillBody (b.side out).txRow (b.side out).spread (b.holdOut out))))
      ∧ ((b.putCtl out .fill).side out).txRow = (b.side out).txRow + 1 ∧ ((b.putCtl out .fill).side out).txSince = 0 := by
  have gone := (congrArg SideSt.noStream (b.ctlGone_side out .fill)).trans SideSt.ctlSent_fill
  have counted : (b.putCtl out .fill).side out = (b.ctlGone out .fill).side out := by
    rw [Block.putCtl_eq]
    exact (Block.tally_kept ..).out (.side out) (by simp [Piece.among])
  rw [counted]
  exact ⟨congrArg SideSt.tx gone, congrArg SideSt.txRow gone, congrArg SideSt.txSince gone⟩

/-- A muted slot of a granted window, the last of which ends it. -/
theorem Block.putCtl_quiet (b : Block) (out : Side) :
    ((b.putCtl out .quiet).side out).tx = some .quietSlot ∧ ((b.putCtl out .quiet).side out).txRow = (b.side out).txRow
      ∧ (1 < (b.side out).mute → ((b.putCtl out .quiet).side out).mute = (b.side out).mute - 1) := by
  set c := b.ctlGone out .quiet with hc
  have gone : (c.side out).noStream = ({ (b.side out).slotSent with tx := some .quietSlot } : SideSt).noStream :=
    (congrArg SideSt.noStream (b.ctlGone_side out .quiet)).trans SideSt.ctlSent_quiet
  have mute : (c.side out).mute = (b.side out).mute - 1 := congrArg SideSt.mute gone
  have counted : (c.tally (sideBlk out) 0x046 (c.laneFilters out) 1).side out = c.side out :=
    (Block.tally_kept ..).out (.side out) (by simp [Piece.among])
  rw [Block.putCtl_eq, ← hc, Block.ctlLeft_quiet]
  split
  · next last =>
    obtain ⟨tx, row⟩ := (c.tally (sideBlk out) 0x046 (c.laneFilters out) 1).muteDone_sent out
    rw [tx, row, counted]
    exact ⟨congrArg SideSt.tx gone, (congrArg SideSt.txRow gone :), fun many => absurd last (by omega)⟩
  · rw [counted]
    exact ⟨congrArg SideSt.tx gone, (congrArg SideSt.txRow gone :), fun _ => mute⟩

end

/-! ### A flit, with the control row inside it -/

section
variable {b : Block} {out : Side} {k : CtlDue} {f : Flit} {t : TxItem}

/-- The control row that goes inside a flit: none where no row ends in its nine blocks (R90). -/
def Block.ctlInside (b : Block) (out : Side) (k : CtlDue) : CtlDue :=
  if (rowEnd (lanesOf out (b.txMask out)).length (b.side out).txPos).isSome then k else .none

/-- The block from which a flit has gone, before a control row inside it is counted. -/
def Block.flitGone (b : Block) (out : Side) (k : CtlDue) (f : Flit) (t : TxItem) : Block :=
  ((if f.kind = 0 then b else b.countBlocks out (lanesOf out (b.txMask out)) (b.side out).txPos 0x041 32).modSide out fun x =>
    { x with txCtl := none }.sendFlit (lanesOf out (b.txMask out)).length (b.rowWho out) (b.holdOut out) (b.ctlInside out k) f).modSide out
      fun x => { x with tx := some t }

theorem Block.putFlit_eq (b : Block) (out : Side) (k : CtlDue) (f : Flit) (t : TxItem) :
    b.putFlit out k f t = (b.flitGone out k f t).ctlLeft out (b.ctlInside out k) := rfl

theorem Block.ctlInside_ne (h : k ≠ .train) : b.ctlInside out k ≠ .train := by
  unfold Block.ctlInside
  split
  · exact h
  · decide

theorem Block.flitGone_row (b : Block) (out : Side) (k : CtlDue) (f : Flit) (t : TxItem) : Kept (rowPieces out) b (b.flitGone out k f t) := by
  refine Kept.step (Block.modSide_row ..) .refl (Kept.step (Block.modSide_row ..) .refl (.ite (.refl ..) ?_))
  exact (Block.countBlocks_kept ..).mono (Within.of_subset (by simp [rowPieces]))

theorem Block.putFlit_row (h : k ≠ .train) : Kept (rowPieces out) b (b.putFlit out k f t) :=
  Kept.step (Block.ctlLeft_row fun train => absurd train (Block.ctlInside_ne h)) .refl (b.flitGone_row out k f t)

theorem Block.putFlit_tx (h : k ≠ .train) : ((b.putFlit out k f t).side out).tx = some t :=
  (Block.ctlLeft_tx (Block.ctlInside_ne h)).trans (congrArg SideSt.tx (Block.side_modSide_same ..))

theorem Block.putFlit_txCtl : ((b.putFlit out .none f t).side out).txCtl = none := by
  have alone : b.ctlInside out .none = .none := ite_self ..
  rw [Block.putFlit_eq, alone]
  change ((b.flitGone out .none f t).side out).txCtl = none
  rw [Block.flitGone, Block.side_modSide_same, Block.side_modSide_same, alone]
  exact SideSt.sendFlit_txCtl rfl

end

/-! ### A MOVE that leaves with its row (R121) -/

section
variable {b : Block} {sd : Side}

/-- A side with lanes to train leaves RUN for the grade of the MOVE. -/
theorem Block.trainSide_side {g : Fin 4} {inLoop : Bool} (trains : (b.trainLanes sd).isEmpty = false) :
    (b.trainSide sd g inLoop).side sd = { (b.leaveRun sd .training).side sd with grade := g, loop := inLoop } := by
  have made : b.trainSide sd g inLoop = ((b.leaveRun sd .training).modSide sd fun x => { x with grade := g, loop := inLoop }).each
      (b.trainLanes sd) fun b l => b.startHunt l g false := if_neg (by simp [trains])
  rw [made, ← Block.side_modSide_same (g := fun x => { x with grade := g, loop := inLoop })]
  refine Kept.out (ps := [.lanes, .regs]) (.each _ (fun _ _ h => ?_) (.refl ..)) (.side sd) (by simp [Piece.among])
  exact Kept.step (Block.startHunt_kept ..) (Within.cons (.inl (by simp)) (Within.single (.inl (by simp)))) h

theorem Block.moveLeft_side {g : Fin 4} (trains : (b.trainLanes sd).isEmpty = false) (asked : (b.side sd).moveOut = some g)
    (sent : (b.side sd).ctl = []) :
    ((b.moveLeft sd).side sd).tx = (b.side sd).tx ∧ ((b.moveLeft sd).side sd).grade = g ∧ ((b.moveLeft sd).side sd).seg = .training
      ∧ ((b.moveLeft sd).side sd).moveOut = none := by
  have purged (c : Block) : (c.purgeSide sd).side sd = c.side sd := (c.purgeSide_kept sd).out (.side sd) (by simp [Piece.among])
  unfold Block.moveLeft
  rw [asked, sent]
  simp only [List.any_nil, Bool.false_eq_true, if_false]
  rw [Block.side_modSide_same, purged, Block.moveNow, Block.side_modSide_same, Block.trainSide_side trains, Block.leaveRun,
    Block.side_modSide_same]
  exact ⟨rfl, rfl, rfl, rfl⟩

end

/-! ### The wish for a window, asked for first (R60, R129) -/

/-- The side without its wish for a window and the messages that wait: what asking leaves. -/
def SideSt.noAsk (x : SideSt) : SideSt := { x with winWant := false, winAsked := false, winAskedAt := none, segSeq := 0, ctl := [] }

section
variable (b : Block) (sd : Side)

theorem Block.tryAsk_noAsk : ((b.tryAsk sd).side sd).noAsk = (b.side sd).noAsk := by
  unfold Block.tryAsk
  dsimp only
  split
  · rw [Block.sendSeg, Block.side_modSide_same, Block.side_modSide_same]; rfl
  · rfl

/-- Asking leaves every field that the wish and the messages do not concern. -/
theorem Block.tryAsk_field {α : Type} (π : SideSt → α) (h : ∀ x : SideSt, π x.noAsk = π x := by intro; rfl) :
    π ((b.tryAsk sd).side sd) = π (b.side sd) := by
  rw [← h, Block.tryAsk_noAsk, h]

@[simp] theorem Block.tryAsk_txPos : ((b.tryAsk sd).side sd).txPos = (b.side sd).txPos := b.tryAsk_field sd SideSt.txPos

@[simp] theorem Block.tryAsk_txRow : ((b.tryAsk sd).side sd).txRow = (b.side sd).txRow := b.tryAsk_field sd SideSt.txRow

@[simp] theorem Block.tryAsk_txSince : ((b.tryAsk sd).side sd).txSince = (b.side sd).txSince := b.tryAsk_field sd SideSt.txSince

@[simp] theorem Block.tryAsk_cadence : ((b.tryAsk sd).side sd).cadence = (b.side sd).cadence := b.tryAsk_field sd SideSt.cadence

@[simp] theorem Block.tryAsk_spread : ((b.tryAsk sd).side sd).spread = (b.side sd).spread := b.tryAsk_field sd SideSt.spread

@[simp] theorem Block.tryAsk_mute : ((b.tryAsk sd).side sd).mute = (b.side sd).mute := b.tryAsk_field sd SideSt.mute

@[simp] theorem Block.tryAsk_moveOut : ((b.tryAsk sd).side sd).moveOut = (b.side sd).moveOut := b.tryAsk_field sd SideSt.moveOut

theorem Block.tryAsk_txMask : (b.tryAsk sd).txMask sd = b.txMask sd := by
  unfold Block.tryAsk
  dsimp only
  split
  · cases sd <;> rfl
  · rfl

@[simp] theorem Block.tryAsk_rowWho : (b.tryAsk sd).rowWho sd = b.rowWho sd := by
  have lane (l : Nat) : (b.tryAsk sd).lane l = b.lane l := (b.tryAsk_kept sd).out (.lane l) (by simp [Piece.among])
  simp only [Block.rowWho, Block.rowSender, Block.tryAsk_txMask, lane]

@[simp] theorem Block.tryAsk_holdOut : (b.tryAsk sd).holdOut sd = b.holdOut sd := by
  unfold Block.tryAsk
  dsimp only
  split
  · cases sd <;> rfl
  · rfl

@[simp] theorem Block.tryAsk_fw (k : Side) : (b.tryAsk sd).fw k = b.fw k := (b.tryAsk_kept sd).out (.fw k) (by simp [Piece.among])

@[simp] theorem Block.tryAsk_qy : (b.tryAsk sd).qy = b.qy := (b.tryAsk_kept sd).qyEq (by simp [Piece.among]) (by simp [Piece.among])

theorem Block.tryAsk_row : Kept (rowPieces sd) b (b.tryAsk sd) := (b.tryAsk_kept sd).mono (Within.of_subset (by simp [rowPieces]))

end

/-! ### FLIT_SEND -/

/-- The side sends flits now: the core runs, rows leave, and the direction is up (R123, R27). -/
structure Block.SendsNow (b : Block) (sd : Side) : Prop where
  carries : b.carries = true
  sends : (b.side sd).sends = true
  up : b.directionUp (otherSide sd) = true

section
variable {b : Block} {sd : Side}

theorem Block.flitSend_idle (h : (b.side sd).sends = false) : b.flitSend sd = b := if_pos (by simp [h])

/-- A waiting message goes first, at a row's end. -/
theorem Block.flitSend_message {m : BitVec 8 × SegMsg} {q : List (BitVec 8 × SegMsg)} (now : b.SendsNow sd)
    (ctl : ((b.tryAsk sd).side sd).ctl = m :: q) (pos : (b.side sd).txPos = 0) :
    b.flitSend sd = (b.tryAsk sd).putCtl sd .train := by
  unfold Block.flitSend
  simp [now.carries, now.sends, now.up, ctl, pos]

theorem Block.fw_modFw_same (b : Block) (sd : Side) (g : Fairway → Fairway) : (b.modFw sd g).fw sd = g (b.fw sd) := by cases sd <;> rfl

/-- The oldest buffered flit is out of the buffer, and a FILL row that was due by the cadence is left out (R98). -/
def Block.unbuffered (b : Block) (out : Side) (rest : List Flit) : Block :=
  let c := b.modFw (otherSide out) fun x => { x with buf := rest }
  if (b.side out).cadence ≤ (b.side out).txSince then
    ((c.modSide out fun x => { x with txSince := 0 }).bump (fwOff Off.fwFillOmitLo (otherSide out))).tally (fwBlk (otherSide out)) 0x066 [0] 1
  else c

theorem Block.unbuffered_kept (b : Block) (out : Side) (rest : List Flit) :
    Kept [.count (fwOff Off.fwFillOmitLo (otherSide out)), .fw (otherSide out), .reg (tlOff Off.tlOvf (fwBlk (otherSide out))), .side out, .tl] b
      (b.unbuffered out rest) := by
  have taken := (b.modFw_kept (otherSide out) fun x => { x with buf := rest })
  refine .ite ?_ (taken.mono (Within.of_subset (by simp)))
  refine Kept.step (Block.tally_kept ..) (Within.of_subset (by simp)) (Kept.step (Block.bump_kept ..) (Within.of_subset (by simp)) ?_)
  exact Kept.step (Block.modSide_kept ..) (Within.of_subset (by simp)) (taken.mono (Within.of_subset (by simp)))

theorem Block.unbuffered_buf (b : Block) (out : Side) (rest : List Flit) : ((b.unbuffered out rest).fw (otherSide out)).buf = rest := by
  have taken : ((b.modFw (otherSide out) fun x => { x with buf := rest }).fw (otherSide out)).buf = rest := by
    rw [Block.fw_modFw_same]
  unfold Block.unbuffered
  dsimp only
  split
  · rw [(Block.tally_kept ..).out (.fw (otherSide out)) (by simp [Piece.among]), (Block.bump_kept ..).out (.fw (otherSide out)) (by simp [Piece.among]),
      (Block.modSide_kept ..).out (.fw (otherSide out)) (by simp [Piece.among])]
    exact taken
  · exact taken

theorem Block.flitSend_buffered {f : Flit} {rest : List Flit} (now : b.SendsNow sd) (ctl : ((b.tryAsk sd).side sd).ctl = [])
    (buf : (b.fw (otherSide sd)).buf = f :: rest) :
    b.flitSend sd = ((b.tryAsk sd).unbuffered sd rest).putFlit sd .none f (.flit f) := by
  unfold Block.flitSend
  simp [now.carries, now.sends, now.up, ctl, buf, Block.unbuffered]

/-- The row or slot that is due goes where no flit waits. -/
theorem Block.flitSend_due (now : b.SendsNow sd) (ctl : ((b.tryAsk sd).side sd).ctl = []) (buf : (b.fw (otherSide sd)).buf = [])
    (due : (b.side sd).cadence ≤ (b.side sd).txSince) (pos : (b.side sd).txPos = 0) :
    b.flitSend sd = (b.tryAsk sd).putCtl sd (if 0 < (b.side sd).mute then .quiet else .fill) := by
  have row : (if 0 < (b.side sd).mute then CtlDue.quiet else .fill) ≠ .none := by split <;> decide
  unfold Block.flitSend
  simp [now.carries, now.sends, now.up, ctl, buf, due, pos, row]

/-- Where neither the quay nor the stand-in holds anything, a slot stays empty. -/
theorem Block.offerSlot_empty (ins : b.qy.ins = []) (standin : (b.fw (otherSide sd)).standin = []) : b.offerSlot sd = (b, none) := by
  have picks : b.pickIns sd = none := List.findSome?_eq_none_iff.mpr fun _ _ => by rw [ins]; rfl
  unfold Block.offerSlot
  simp [ins, standin, picks]

theorem Block.flitSend_slot (now : b.SendsNow sd) (ctl : ((b.tryAsk sd).side sd).ctl = []) (buf : (b.fw (otherSide sd)).buf = [])
    (inside : (b.side sd).txSince < (b.side sd).cadence ∨ (b.side sd).txPos ≠ 0) (ins : b.qy.ins = [])
    (standin : (b.fw (otherSide sd)).standin = []) :
    ∃ k, k ≠ .train ∧ b.flitSend sd = ((b.tryAsk sd).noteSlot sd true).putFlit sd k idleFlit .idleFlit := by
  have empty : (b.tryAsk sd).offerSlot sd = (b.tryAsk sd, none) := Block.offerSlot_empty (by simpa using ins) (by simpa using standin)
  unfold Block.flitSend
  by_cases due : (b.side sd).cadence ≤ (b.side sd).txSince
  · have pos : (b.side sd).txPos ≠ 0 := inside.resolve_left (by omega)
    refine ⟨if 0 < (b.side sd).mute then .quiet else .fill, by split <;> decide, ?_⟩
    simp [now.carries, now.sends, now.up, ctl, buf, due, pos, empty]
  · refine ⟨.none, by decide, ?_⟩
    simp [now.carries, now.sends, now.up, ctl, buf, due, empty]

end

/-! ### What a side sends -/

section
variable {s : State} {sd : Side}

theorem exec_flitSend_upd : exec (.flitSend sd) s = s.upd (·.flitSend sd) := rfl

/-- What FLIT_SEND may change. -/
def sendPieces : List Piece := [.cnt, .events, .fws, .ins, .lanes, .qy, .regs, .sides, .tl]

theorem flitSend_idle (h : (s.blk.side sd).sends = false) : exec (.flitSend sd) s = .next s := exec_upd_same exec_flitSend_upd (Block.flitSend_idle h)

/-- A control row or a flit that leaves alone touches neither the buffers nor the quay. -/
theorem Kept.rows {b c : Block} (h : Kept (rowPieces sd) b c) : c.fwWE = b.fwWE ∧ c.fwEW = b.fwEW ∧ c.qy = b.qy := by
  obtain ⟨we, ew⟩ := h.out .fws (by simp [Piece.among, rowPieces])
  exact ⟨we, ew, h.qyEq (by simp [Piece.among, rowPieces]) (by simp [Piece.among, rowPieces])⟩

theorem Kept.rows_fw {b c : Block} (h : Kept (rowPieces sd) b c) (k : Side) : c.fw k = b.fw k := h.out (.fw k) (by simp [Piece.among, rowPieces])

theorem flitSend_message {m : BitVec 8 × SegMsg} {q : List (BitVec 8 × SegMsg)} (now : s.blk.SendsNow sd)
    (ctl : ((s.blk.tryAsk sd).side sd).ctl = m :: q) (pos : (s.blk.side sd).txPos = 0) (unmoved : (s.blk.side sd).moveOut = none) :
    Does (.flitSend sd) s sendPieces fun b =>
      (b.side sd).tx = (((s.blk.tryAsk sd).side sd).ctlRow (s.blk.rowWho sd) (s.blk.holdOut sd) 0 .train).map .trainRow
        ∧ (b.side sd).ctl = q ∧ b.fwWE = s.blk.fwWE ∧ b.fwEW = s.blk.fwEW ∧ b.qy = s.blk.qy := by
  obtain ⟨tx, rest, move⟩ := Block.ctlGone_train ctl
  rw [Block.tryAsk_rowWho, Block.tryAsk_holdOut] at tx
  have made : s.blk.flitSend sd = (s.blk.tryAsk sd).ctlGone sd .train := by
    rw [Block.flitSend_message now ctl pos, Block.putCtl_eq, Block.ctlLeft_train]
    rw [move, Block.tryAsk_moveOut, unmoved]
  have frame : Kept (rowPieces sd) s.blk ((s.blk.tryAsk sd).ctlGone sd .train) := Kept.step (Block.ctlGone_row ..) .refl (s.blk.tryAsk_row sd)
  refine does_upd exec_flitSend_upd (Block.flitSend_kept ..) ?_
  rw [made]
  exact ⟨tx, rest, frame.rows⟩

theorem flitSend_move {q : BitVec 8} {g : Fin 4} (now : s.blk.SendsNow sd) (ctl : (s.blk.side sd).ctl = [(q, .move g)])
    (unwanted : (s.blk.side sd).winWant = false) (pos : (s.blk.side sd).txPos = 0) (move : (s.blk.side sd).moveOut = some g)
    (trains : s.blk.trainLanes sd ≠ []) :
    Does (.flitSend sd) s sendPieces fun b =>
      (b.side sd).tx = ((s.blk.side sd).ctlRow (s.blk.rowWho sd) (s.blk.holdOut sd) 0 .train).map .trainRow
        ∧ (b.side sd).grade = g ∧ (b.side sd).seg = .training ∧ (b.side sd).moveOut = none := by
  have asked : s.blk.tryAsk sd = s.blk := Block.tryAsk_unwanted unwanted
  obtain ⟨row, rest, moves⟩ := Block.ctlGone_train ctl
  have lanes : ((s.blk.ctlGone sd .train).trainLanes sd).isEmpty = false := by
    rw [Block.ctlGone, Block.trainLanes_modSide]
    simpa using trains
  have made : s.blk.flitSend sd = (s.blk.ctlGone sd .train).moveLeft sd := by
    rw [Block.flitSend_message now (by rw [asked]; exact ctl) pos, asked, Block.putCtl_eq]
    rfl
  obtain ⟨tx, grade, seg, done⟩ := Block.moveLeft_side lanes (moves.trans move) rest
  refine does_upd exec_flitSend_upd (Block.flitSend_kept ..) ?_
  rw [made]
  exact ⟨tx.trans row, grade, seg, done⟩

theorem flitSend_buffered {f : Flit} {rest : List Flit} (now : s.blk.SendsNow sd) (ctl : ((s.blk.tryAsk sd).side sd).ctl = [])
    (buf : (s.blk.fw (otherSide sd)).buf = f :: rest) :
    Does (.flitSend sd) s sendPieces fun b =>
      (b.side sd).tx = some (.flit f) ∧ (b.side sd).txCtl = none ∧ (b.fw (otherSide sd)).buf = rest ∧ b.fw sd = s.blk.fw sd
        ∧ b.qy = s.blk.qy := by
  have made := Block.flitSend_buffered now ctl buf
  have sent := Block.putFlit_row (b := (s.blk.tryAsk sd).unbuffered sd rest) (out := sd) (k := .none) (f := f) (t := .flit f) (by decide)
  have taken := (s.blk.tryAsk sd).unbuffered_kept sd rest
  refine does_upd exec_flitSend_upd (Block.flitSend_kept ..) ?_
  rw [made]
  refine ⟨Block.putFlit_tx (by decide), Block.putFlit_txCtl, ?_, ?_, ?_⟩
  · rw [sent.rows_fw, Block.unbuffered_buf]
  · rw [sent.rows_fw, taken.out (.fw sd) (by simp [Piece.among, (otherSide_ne sd).symm]), Block.tryAsk_fw]
  · obtain ⟨-, -, qy⟩ := sent.rows
    rw [qy, taken.qyEq (by simp [Piece.among]) (by simp [Piece.among]), Block.tryAsk_qy]

theorem flitSend_fill (now : s.blk.SendsNow sd) (ctl : ((s.blk.tryAsk sd).side sd).ctl = []) (buf : (s.blk.fw (otherSide sd)).buf = [])
    (due : (s.blk.side sd).cadence ≤ (s.blk.side sd).txSince) (pos : (s.blk.side sd).txPos = 0) (loud : (s.blk.side sd).mute = 0) :
    Does (.flitSend sd) s sendPieces fun b =>
      (b.side sd).tx = some (.fillRow (ctlBytes ctlFill 0 (fillBody (s.blk.side sd).txRow (s.blk.side sd).spread (s.blk.holdOut sd))))
        ∧ (b.side sd).txRow = (s.blk.side sd).txRow + 1 ∧ (b.side sd).txSince = 0 ∧ b.fwWE = s.blk.fwWE ∧ b.fwEW = s.blk.fwEW := by
  have made : s.blk.flitSend sd = (s.blk.tryAsk sd).putCtl sd .fill := by
    rw [Block.flitSend_due now ctl buf due pos, loud]; rfl
  have frame : Kept (rowPieces sd) s.blk ((s.blk.tryAsk sd).putCtl sd .fill) :=
    Kept.step (Block.putCtl_row (by decide)) .refl (s.blk.tryAsk_row sd)
  obtain ⟨tx, row, since⟩ := (s.blk.tryAsk sd).putCtl_fill sd
  obtain ⟨we, ew, -⟩ := frame.rows
  rw [Block.tryAsk_txRow, Block.tryAsk_spread, Block.tryAsk_holdOut] at tx
  refine does_upd exec_flitSend_upd (Block.flitSend_kept ..) ?_
  rw [made]
  exact ⟨tx, row.trans (by rw [Block.tryAsk_txRow]), since, we, ew⟩

theorem flitSend_quiet {n : Nat} (now : s.blk.SendsNow sd) (ctl : ((s.blk.tryAsk sd).side sd).ctl = []) (buf : (s.blk.fw (otherSide sd)).buf = [])
    (due : (s.blk.side sd).cadence ≤ (s.blk.side sd).txSince) (pos : (s.blk.side sd).txPos = 0) (muted : (s.blk.side sd).mute = n + 1) :
    Does (.flitSend sd) s sendPieces fun b =>
      (b.side sd).tx = some .quietSlot ∧ (b.side sd).txRow = (s.blk.side sd).txRow ∧ (0 < n → (b.side sd).mute = n) := by
  have made : s.blk.flitSend sd = (s.blk.tryAsk sd).putCtl sd .quiet := by
    rw [Block.flitSend_due now ctl buf due pos, muted, if_pos (Nat.succ_pos n)]
  obtain ⟨tx, row, left⟩ := (s.blk.tryAsk sd).putCtl_quiet sd
  rw [Block.tryAsk_mute, muted] at left
  refine does_upd exec_flitSend_upd (Block.flitSend_kept ..) ?_
  rw [made]
  exact ⟨tx, row.trans (Block.tryAsk_txRow ..), fun more => left (by omega)⟩

theorem flitSend_slot (now : s.blk.SendsNow sd) (ctl : ((s.blk.tryAsk sd).side sd).ctl = []) (buf : (s.blk.fw (otherSide sd)).buf = [])
    (inside : (s.blk.side sd).txSince < (s.blk.side sd).cadence ∨ (s.blk.side sd).txPos ≠ 0) (ins : s.blk.qy.ins = [])
    (standin : (s.blk.fw (otherSide sd)).standin = []) :
    Does (.flitSend sd) s sendPieces fun b =>
      (b.side sd).tx = some .idleFlit ∧ (b.fw (otherSide sd)).leftIdle = (true :: (s.blk.fw (otherSide sd)).leftIdle).take 255 := by
  obtain ⟨k, other, made⟩ := Block.flitSend_slot now ctl buf inside ins standin
  refine does_upd exec_flitSend_upd (Block.flitSend_kept ..) ?_
  rw [made]
  refine ⟨Block.putFlit_tx other, ?_⟩
  rw [(Block.putFlit_row other).rows_fw, Block.noteSlot, Block.fw_modFw_same, Block.tryAsk_fw]

end

/-- Settles O30: what is next at a flit boundary, by what waits: a message, a flit, a row that is due, and else an idle flit. -/
theorem flitsLeave : Obligations.FlitsLeave :=
  ⟨fun _ _ _ _ carries sends up => flitSend_message ⟨carries, sends, up⟩, fun _ _ _ _ carries sends up => flitSend_move ⟨carries, sends, up⟩,
    fun _ _ _ _ carries sends up => flitSend_buffered ⟨carries, sends, up⟩, fun _ _ carries sends up => flitSend_fill ⟨carries, sends, up⟩,
    fun _ _ _ carries sends up => flitSend_quiet ⟨carries, sends, up⟩, fun _ _ carries sends up => flitSend_slot ⟨carries, sends, up⟩,
    fun _ _ => flitSend_idle⟩

end Sys2Proof.Machine
end

section
/-! SUPPORT. A flit that arrives (R141, R149, R154, R158, R166): its class, its counts, the output buffer, and the claim point. -/

namespace Sys2Proof.Machine

open Sys2Proof

/-! ### The flit as it was handed over (R149, R152) -/

/-- Only a bad flit can lack a block. -/
theorem zeroBlocks_of_class {f : Flit} {gone : List (Fin 9)} {parityErr : Bool} {cws : List Codeword}
    (whole : arrivalClass f gone parityErr cws ≠ .bad) : zeroBlocks f gone = f := by
  cases gone with
  | nil => rfl
  | cons k ks => exact absurd (arrivalClass_gone f k ks parityErr cws) whole

/-! ### What an arrival counts before its class (R78, R90, R165) -/

/-- Flits from the side enter the fairway now: the core runs, rows come in, and the direction is up (R123, R27). -/
structure Block.ReceivesNow (b : Block) (sd : Side) : Prop where
  carries : b.carries = true
  receives : (b.side sd).receives = true
  up : b.directionUp sd = true

/-- The block that has counted a flit's codewords and blocks, its place in the rows and its latency. -/
def Block.entered (b : Block) (sd : Side) (f : Flit) (gone : List (Fin 9)) (cws : List Codeword) (cycles : Nat) : Block :=
  let c := cws.foldl (fun b c => b.countCodeword sd c) b
  let order := c.rxOrder sd
  let d := if f.kind = 0 ∧ ¬ (cws.any (·.uncorrectable) || !gone.isEmpty) then c else c.countBlocks sd order (b.side sd).rxPos 0x040 0
  (d.modSide sd fun x => { x with rxPos := if order.isEmpty then 0 else (x.rxPos + 9) % order.length }).noteLatency sd cycles

section
variable {b : Block} {sd : Side} {f : Flit} {gone : List (Fin 9)} {parityErr : Bool} {cws : List Codeword} {cycles : Nat}

theorem Block.flitArrive_eq (now : b.ReceivesNow sd) : b.flitArrive sd f gone parityErr cws cycles =
    (b.entered sd f gone cws cycles).classFlit sd (zeroBlocks f gone) (cws.any (·.uncorrectable) || !gone.isEmpty) parityErr :=
  if_neg (by simp [now.carries, now.receives, now.up])

theorem Block.flitArrive_idle (h : (b.side sd).receives = false) : b.flitArrive sd f gone parityErr cws cycles = b := if_pos (by simp [h])

/-- The pieces that these counts may change. -/
def countPieces (sd : Side) : List Piece := [.cnt, .regs, .side sd, .tl]

variable (b sd f gone cws cycles)

/-- The counts leave all of the side but the place of the next flit in the rows. -/
theorem Block.entered_counts : Kept (countPieces sd) b (b.entered sd f gone cws cycles)
    ∧ (b.entered sd f gone cws cycles).side sd = { b.side sd with rxPos := ((b.entered sd f gone cws cycles).side sd).rxPos } := by
  set c := cws.foldl (fun b c => b.countCodeword sd c) b with hc
  set d := if f.kind = 0 ∧ ¬ (cws.any (·.uncorrectable) || !gone.isEmpty) then c else c.countBlocks sd (c.rxOrder sd) (b.side sd).rxPos 0x040 0 with hd
  set e := d.modSide sd fun x => { x with rxPos := if (c.rxOrder sd).isEmpty then 0 else (x.rxPos + 9) % (c.rxOrder sd).length } with he
  have words : Kept [.cnt, .regs, .tl] b c :=
    .foldl cws (fun _ _ => Kept.step (Block.countCodeword_kept ..) .refl) (.refl ..)
  have blocks : Kept [.cnt, .regs, .tl] b d :=
    .ite words (Kept.step (Block.countBlocks_kept ..) (Within.cons (.inl (by simp)) (Within.single (by simp [Piece.inside]))) words)
  have side : (e.noteLatency sd cycles).side sd = e.side sd := (e.noteLatency_kept sd cycles).out (.side sd) (by simp [Piece.among])
  have before : d.side sd = b.side sd := blocks.out (.side sd) (by simp [Piece.among])
  refine ⟨?_, ?_⟩
  · refine Kept.step (e.noteLatency_kept sd cycles) (Within.single (.inl (by simp [countPieces]))) ?_
    exact Kept.step (Block.modSide_kept ..) (Within.of_subset (by simp [countPieces])) (blocks.mono (Within.of_subset (by simp [countPieces])))
  · change (e.noteLatency sd cycles).side sd = { b.side sd with rxPos := ((e.noteLatency sd cycles).side sd).rxPos }
    rw [side, he, Block.side_modSide_same, before]

theorem Block.entered_kept : Kept (countPieces sd) b (b.entered sd f gone cws cycles) := (b.entered_counts ..).1

theorem Block.entered_side : (b.entered sd f gone cws cycles).side sd =
    { b.side sd with rxPos := ((b.entered sd f gone cws cycles).side sd).rxPos } := (b.entered_counts ..).2

theorem Block.entered_other : (b.entered sd f gone cws cycles).side (otherSide sd) = b.side (otherSide sd) :=
  (b.entered_kept ..).out (.side (otherSide sd)) (by simp [Piece.among, countPieces, otherSide_ne])

@[simp] theorem Block.entered_fw (k : Side) : (b.entered sd f gone cws cycles).fw k = b.fw k :=
  (b.entered_kept ..).out (.fw k) (by simp [Piece.among, countPieces])

@[simp] theorem Block.entered_qy : (b.entered sd f gone cws cycles).qy = b.qy :=
  (b.entered_kept ..).qyEq (by simp [Piece.among, countPieces]) (by simp [Piece.among, countPieces])

@[simp] theorem Block.entered_ck : (b.entered sd f gone cws cycles).ck = b.ck :=
  (b.entered_kept ..).ckEq (by simp [Piece.among, countPieces]) (by simp [Piece.among, countPieces])

@[simp] theorem Block.entered_outOfRun : (b.entered sd f gone cws cycles).outOfRun (otherSide sd) = b.outOfRun (otherSide sd) := by
  rw [Block.outOfRun, Block.entered_other, ← Block.outOfRun]

@[simp] theorem Block.entered_addressed (g : Flit) : (b.entered sd f gone cws cycles).addressed g = b.addressed g := by
  have pins : (b.entered sd f gone cws cycles).pins = b.pins := (b.entered_kept ..).out .pins (by simp [Piece.among, countPieces])
  simp only [Block.addressed, Block.entered_qy, pins]

@[simp] theorem Block.entered_qyUp : (b.entered sd f gone cws cycles).qyUp = b.qyUp := by
  have dom : (b.entered sd f gone cws cycles).dom qyDom = b.dom qyDom :=
    (b.entered_kept ..).out (.dom qyDom) (by simp [Piece.among, countPieces])
  simp only [Block.qyUp, Block.qyState, Block.entered_qy, dom]

@[simp] theorem Block.entered_creditUnits : (b.entered sd f gone cws cycles).creditUnits sd = b.creditUnits sd := by
  rw [Block.creditUnits, Block.entered_side, ← Block.creditUnits.eq_1]

theorem otherSide_otherSide (sd : Side) : otherSide (otherSide sd) = sd := by cases sd <;> rfl

@[simp] theorem Block.entered_shareUnits : (b.entered sd f gone cws cycles).shareUnits (otherSide sd) = b.shareUnits (otherSide sd) := by
  simp only [Block.shareUnits, Block.entered_other, otherSide_otherSide]
  rw [Block.entered_side]

end

/-! ### The output buffer (R154) -/

section
variable {b : Block} {sd : Side} {f : Flit}

@[simp] theorem Block.noteSlot_buf (b : Block) (sd : Side) (idle : Bool) :
    ((b.noteSlot (otherSide sd) idle).fw sd).buf = (b.fw sd).buf := by
  rw [Block.noteSlot, otherSide_otherSide, Block.fw_modFw_same]

@[simp] theorem Block.noteSlot_outOfRun (b : Block) (out k : Side) (idle : Bool) : (b.noteSlot out idle).outOfRun k = b.outOfRun k := by
  rw [Block.outOfRun, (b.noteSlot_kept out idle).out (.side k) (by simp [Piece.among]), ← Block.outOfRun]

/-- With room, and the other side in RUN, a flit joins the buffer. -/
theorem Block.toBuffer_joins (room : (b.fw sd).buf.length < 4) (run : b.outOfRun (otherSide sd) = false) :
    ((b.toBuffer sd f false).fw sd).buf = (b.fw sd).buf ++ [f] := by
  have joins : b.toBuffer sd f false =
      b.modFw sd fun x => { x with buf := x.buf ++ [f], sinceRemoval := min ((b.fw sd).sinceRemoval + 1) 256 } :=
    if_neg (by simp [run, room])
  rw [joins, Block.fw_modFw_same]

/-- With four flits in it a flit is dropped. -/
theorem Block.toBuffer_drops (full : 4 ≤ (b.fw sd).buf.length) :
    b.toBuffer sd f false = (b.modFw sd fun x => { x with sinceRemoval := min ((b.fw sd).sinceRemoval + 1) 256 }).dropFlit sd :=
  if_pos (.inl full)

theorem Block.dropFlit_buf (b : Block) (sd : Side) : ((b.dropFlit sd).fw sd).buf = (b.fw sd).buf :=
  congrArg Fairway.buf ((b.dropFlit_kept sd).out (.fw sd) (by simp [Piece.among]))

/-- The bit of `FW_ALARM` for a drop in a direction. -/
def dropBit : Side → Nat
  | .west => 2
  | .east => 3

/-- `FW_ALARM` shows a drop, by the direction. -/
theorem Block.dropFlit_alarm (b : Block) (sd : Side) :
    (b.dropFlit sd).regBit Off.fwAlarm (dropBit sd) = true := by
  have event (c : Block) : (if c.loggedLately .thruDrop (sideNo sd) then c else c.event .thruDrop (sideNo sd)).reg Off.fwAlarm = c.reg Off.fwAlarm := by
    split
    · rfl
    · exact (Block.event_kept ..).out (.reg Off.fwAlarm) (by simp [Piece.among])
  unfold Block.dropFlit
  dsimp only
  rw [Block.regBit, event]
  cases sd <;> simp [Block.orReg, dropBit]

/-- A good flit that arrived is counted as forwarded beside what the buffer does with it. -/
theorem Block.thruBuffer_counts (b : Block) (sd : Side) (f : Flit) (idle : Bool) :
    Kept [.cnt, .reg (tlOff Off.tlOvf (fwBlk sd)), .tl] (b.toBuffer sd f idle) (b.thruBuffer sd f idle) :=
  .ite (Kept.step (Block.tally_kept ..) (Within.of_subset (by simp))
    ((Block.bump_kept ..).mono (Within.single (.inl (by simp))))) (.refl ..)

theorem Block.thruBuffer_fw (b : Block) (sd k : Side) (f : Flit) (idle : Bool) : (b.thruBuffer sd f idle).fw k = (b.toBuffer sd f idle).fw k :=
  (b.thruBuffer_counts sd f idle).out (.fw k) (by simp [Piece.among])

theorem Block.thruBuffer_alarm (b : Block) (sd : Side) (f : Flit) (idle : Bool) :
    (b.thruBuffer sd f idle).reg Off.fwAlarm = (b.toBuffer sd f idle).reg Off.fwAlarm :=
  (b.thruBuffer_counts sd f idle).out (.reg Off.fwAlarm) (by cases sd <;> simp [Piece.among, tlOff, fwBlk, sideNo] <;> decide)

end

/-! ### A flit that goes through (R149, R158) -/

/-- The pieces that a flit changes which only passes through. -/
def thruPieces : List Piece := [.cnt, .events, .fws, .regs, .sides, .tl]

theorem Kept.thru_qy {b c : Block} (h : Kept thruPieces b c) : c.qy = b.qy :=
  h.qyEq (by simp [Piece.among, thruPieces]) (by simp [Piece.among, thruPieces])

section
variable {b : Block} {sd : Side} {f : Flit} {marked parityErr : Bool}

theorem Block.forward_thru (b : Block) (sd : Side) (f : Flit) : Kept thruPieces b (b.forward sd f) :=
  (b.forward_kept sd f).mono (by simp [Within, Piece.inside, thruPieces])

/-- With room, and the other side in RUN, a flit that is not claimed is the newest of the buffer. -/
theorem Block.forward_joins (room : (b.fw sd).buf.length < 4) (run : b.outOfRun (otherSide sd) = false) :
    ((b.forward sd f).fw sd).buf = (b.fw sd).buf ++ [f] := by
  rw [Block.forward, Block.toBuffer_joins (by simpa using room) (by simpa using run), Block.noteSlot_buf]

theorem Block.badFlit_buf (b : Block) (sd : Side) : ((b.badFlit sd).fw sd).buf = (b.fw sd).buf := by
  have alarm (c : Block) (o : Nat) (m : Word) : (c.orReg o m).fw sd = c.fw sd := (Block.orReg_kept ..).out (.fw sd) (by simp [Piece.among])
  unfold Block.badFlit
  dsimp only
  rw [apply_ite (fun c : Block => c.fw sd), alarm, ite_self, Block.fw_modFw_same, (Block.tally_kept ..).out (.fw sd) (by simp [Piece.among]),
    (Block.bump_kept ..).out (.fw sd) (by simp [Piece.among])]

/-- A flit of a class that is not claimed, counted as such before it goes on. -/
structure Block.Classed (b c : Block) (sd : Side) : Prop where
  frame : Kept thruPieces b c
  buf : (c.fw sd).buf = (b.fw sd).buf
  other : c.side (otherSide sd) = b.side (otherSide sd)

/-- Counts, alarms and events beside the fairway. -/
theorem Kept.classed {c : Block} (h : Kept [.cnt, .events, .regs, .tl] b c) : b.Classed c sd :=
  ⟨h.mono (by unfold thruPieces; exact Within.of rfl), congrArg Fairway.buf (h.out (.fw sd) (by simp [Piece.among])),
    h.out (.side (otherSide sd)) (by simp [Piece.among])⟩

theorem Block.badFlit_classed (b : Block) (sd : Side) : b.Classed (b.badFlit sd) sd :=
  ⟨(b.badFlit_kept sd).mono (by simp [Within, Piece.inside, thruPieces]), b.badFlit_buf sd,
    (b.badFlit_kept sd).out (.side (otherSide sd)) (by simp [Piece.among])⟩

/-- What a classed flit does where the buffer has room. -/
theorem Block.Classed.forward {c : Block} (classed : b.Classed c sd) (room : (b.fw sd).buf.length < 4) (run : b.outOfRun (otherSide sd) = false) :
    ((c.forward sd f).fw sd).buf = (b.fw sd).buf ++ [f] ∧ (c.forward sd f).qy = b.qy := by
  refine ⟨?_, (c.forward_thru sd f).thru_qy.trans classed.frame.thru_qy⟩
  rw [Block.forward_joins (by rwa [classed.buf]) (by rwa [Block.outOfRun, classed.other, ← Block.outOfRun]), classed.buf]

theorem Block.classFlit_bad (cls : classify f marked parityErr = .bad) :
    b.classFlit sd f marked parityErr = (b.badFlit sd).forward sd (stomp f) := by
  unfold Block.classFlit
  rw [cls]

/-- A stomped flit, counted. -/
def Block.countStomped (b : Block) (sd : Side) : Block := (b.bump (fwOff Off.fwStompInLo sd)).tally (fwBlk sd) 0x062 [0] 1

theorem Block.classFlit_stomped (cls : classify f marked parityErr = .stomped) :
    b.classFlit sd f marked parityErr = (b.countStomped sd).forward sd f := by
  unfold Block.classFlit
  rw [cls]; rfl

/-- A flit with an error inside, counted, with its alarm and its event. -/
def Block.countInside (b : Block) (sd : Side) : Block :=
  ((((b.bump (fwOff Off.fwBadIntLo sd)).tally (fwBlk sd) 0x068 [0] 1).orReg Off.fwAlarm (match sd with | .west => 16 | .east => 32))).event
    .fwIntErr (sideNo sd)

theorem Block.classFlit_badInside (cls : classify f marked parityErr = .badInside) :
    b.classFlit sd f marked parityErr = (b.countInside sd).forward sd (stomp f) := by
  unfold Block.classFlit
  rw [cls]; rfl

theorem Block.classFlit_good (cls : classify f marked parityErr = .good) : b.classFlit sd f marked parityErr = b.goodFlit sd f := by
  unfold Block.classFlit
  rw [cls]

theorem Block.bump_tally (b : Block) (off blk ev : Nat) (fs : List Nat) : Kept [.cnt, .events, .regs, .tl] b ((b.bump off).tally blk ev fs 1) :=
  Kept.step (Block.tally_kept ..) (Within.cons (.inl (by simp)) (Within.single (by simp [Piece.inside])))
    ((Block.bump_kept ..).mono (Within.single (.inl (by simp))))

theorem Block.countStomped_classed (b : Block) (sd : Side) : b.Classed (b.countStomped sd) sd := (b.bump_tally ..).classed

theorem Block.countInside_classed (b : Block) (sd : Side) : b.Classed (b.countInside sd) sd :=
  (Kept.step (Block.event_kept ..) (Within.cons (by simp [Piece.inside]) (Within.single (.inl (by simp))))
    (Kept.step (Block.orReg_kept ..) (Within.single (.inl (by simp))) (b.bump_tally ..))).classed

/-- A good flit for another device goes past the insertion point (R158). -/
theorem Block.goodFlit_thru (kind : f.kind ≠ 0) (other : b.addressed f = false) :
    b.goodFlit sd f = (b.noteSlot (otherSide sd) false).thruBuffer sd f false := by
  have pass : b.claimDecision sd f = .pass := if_pos (by simp [other])
  simp only [Block.goodFlit, if_neg kind, pass]

theorem Block.thruBuffer_thru (b : Block) (sd : Side) (f : Flit) (idle : Bool) : Kept thruPieces b (b.thruBuffer sd f idle) :=
  (b.thruBuffer_kept sd f idle).mono (by simp [Within, Piece.inside, thruPieces])

theorem Block.goodFlit_joins (kind : f.kind ≠ 0) (other : b.addressed f = false) (room : (b.fw sd).buf.length < 4)
    (run : b.outOfRun (otherSide sd) = false) :
    ((b.goodFlit sd f).fw sd).buf = (b.fw sd).buf ++ [f] ∧ (b.goodFlit sd f).qy = b.qy := by
  rw [Block.goodFlit_thru kind other]
  refine ⟨?_, (Block.thruBuffer_thru ..).thru_qy.trans ((b.noteSlot_kept ..).qyEq (by simp [Piece.among]) (by simp [Piece.among]))⟩
  rw [Block.thruBuffer_fw, Block.toBuffer_joins (by simpa using room) (by simpa using run), Block.noteSlot_buf]

theorem Block.goodFlit_drops (kind : f.kind ≠ 0) (other : b.addressed f = false) (full : 4 ≤ (b.fw sd).buf.length) :
    ((b.goodFlit sd f).fw sd).buf = (b.fw sd).buf ∧ (b.goodFlit sd f).regBit Off.fwAlarm (dropBit sd) = true := by
  rw [Block.goodFlit_thru kind other, Block.regBit, Block.thruBuffer_fw, Block.thruBuffer_alarm, Block.toBuffer_drops (by simpa using full)]
  exact ⟨by rw [Block.dropFlit_buf, Block.fw_modFw_same, Block.noteSlot_buf], Block.dropFlit_alarm ..⟩

end

/-! ### The claimed flits, which no flit that leaves changes (R166, R190) -/

/-- Both blocks hold the same claimed flits, with their times. -/
structure Block.SameClaims (b c : Block) : Prop where
  claimed : c.qy.claimed = b.qy.claimed
  claimedAt : c.qy.claimedAt = b.qy.claimedAt

theorem Block.SameClaims.refl (b : Block) : b.SameClaims b := ⟨rfl, rfl⟩

theorem Block.SameClaims.trans {b c d : Block} (h : b.SameClaims c) (k : c.SameClaims d) : b.SameClaims d :=
  ⟨k.claimed.trans h.claimed, k.claimedAt.trans h.claimedAt⟩

theorem Block.SameClaims.ite {b c d : Block} {p : Prop} [Decidable p] (h : b.SameClaims c) (k : b.SameClaims d) :
    b.SameClaims (if p then c else d) := by
  split
  · exact h
  · exact k

theorem Kept.sameClaims {ps : List Piece} {b c : Block} (h : Kept ps b c) (out : ¬ Piece.qy.among ps := by simp [Piece.among]) : b.SameClaims c :=
  ⟨h.qyOf out Quay.claimed, h.qyOf out Quay.claimedAt⟩

section
variable (b : Block) (out : Side)

theorem Block.wakeFences_sameClaims : b.SameClaims b.wakeFences := by
  unfold Block.wakeFences
  refine List.foldlRecOn (motive := b.SameClaims) _ _ (.refl b) fun c same r _ => .ite same ?_
  have dropped : c.SameClaims (c.dropReq r.id) := ⟨rfl, rfl⟩
  exact (same.trans dropped).trans (Block.complete_kept ..).sameClaims

theorem Block.copyNext_sameClaims (c : CopyOut) : b.SameClaims (b.copyNext c) := by
  have answered (d : Block) : b.SameClaims d → ∀ xs : List CopyOut, b.SameClaims { d with qy.copies := xs } := fun h _ => ⟨h.claimed, h.claimedAt⟩
  have first {p : Prop} [Decidable p] (i : Ins) : b.SameClaims (if p then b.putIns i else b) := .ite (Block.putIns_kept ..).sameClaims (.refl b)
  unfold Block.copyNext
  refine .trans (.ite ?_ ?_) (Block.wakeFences_sameClaims _)
  · exact .ite ((answered _ (first _) _).trans (Block.putIns_kept ..).sameClaims) (answered _ (first _) _)
  · exact answered _ (first _) _

theorem Block.remSent_sameClaims (tag : Nat) : b.SameClaims (b.remSent tag) := by
  unfold Block.remSent
  split
  · exact .refl b
  · have noted (xs : List RemWrite) : b.SameClaims { b with qy.rems := xs } := ⟨rfl, rfl⟩
    dsimp only
    split
    · exact noted _
    · exact (noted _).trans (Block.copyNext_sameClaims _ _)

theorem Block.insLeaves_sameClaims (i : Ins) : b.SameClaims (b.insLeaves out i) := by
  unfold Block.insLeaves
  extract_lets q erased paid dumped counted late
  have e : b.SameClaims erased := ⟨rfl, rfl⟩
  have p : b.SameClaims paid := .ite e (e.trans (Block.setBal_kept ..).sameClaims)
  have d : b.SameClaims dumped := .ite (p.trans (Block.modFw_kept ..).sameClaims) p
  have c : b.SameClaims counted := d.trans (Block.tally_kept ..).sameClaims
  have l : b.SameClaims late :=
    .ite (((c.trans (Block.bump_kept ..).sameClaims).trans (Block.orReg_kept ..).sameClaims).trans (Block.tally_kept ..).sameClaims) c
  split
  · exact l.trans (Block.remSent_sameClaims ..)
  · exact l.trans (Block.wakeFences_sameClaims _)

theorem Block.offerSlot_sameClaims : b.SameClaims (b.offerSlot out).1 := by
  have inserted (c : Block) (f : Flit) : c.SameClaims (c.inserted (otherSide out) f).1 := (Block.inserted_kept ..).sameClaims
  have erased (i : Ins) : b.SameClaims { b with qy.ins := b.qy.ins.erase i } := ⟨rfl, rfl⟩
  unfold Block.offerSlot
  dsimp only
  split
  · exact .refl b
  · split
    · exact .trans (.ite (b.insLeaves_sameClaims ..) (erased _)) (inserted ..)
    · split
      · split
        · exact (Block.standinSends_kept ..).sameClaims.trans (inserted ..)
        · exact .refl b
      · split
        · exact .refl b
        · split
          · exact (b.insLeaves_sameClaims ..).trans (inserted ..)
          · exact .refl b

theorem Block.idleSlot_sameClaims (sd : Side) : b.SameClaims (b.idleSlot sd none) := by
  have offered := b.offerSlot_sameClaims (otherSide sd)
  unfold Block.idleSlot
  dsimp only
  split
  case _ c f made =>
    rw [made] at offered
    exact (offered.trans (Block.noteSlot_kept ..).sameClaims).trans (Block.toBuffer_kept ..).sameClaims
  case _ c made =>
    rw [made] at offered
    exact (offered.trans (Block.noteSlot_kept ..).sameClaims).trans (Block.toBuffer_kept ..).sameClaims

end

/-! ### A flit claimed for the quay (R166, R169) -/

section
variable {b : Block} {sd : Side} {f : Flit}

/-- A flit for the pier's own ID, with the quay up and credits and share in order, is the quay's. -/
theorem Block.claimDecision_quay (kind : f.kind = 1) (valid : b.qy.idValid = true) (dest : f.dest = b.qy.pierId) (up : b.qyUp = true)
    (credits : b.creditUnits sd ≠ 0) (share : b.shareUnits (otherSide sd) ≠ 0) : b.claimDecision sd f = .quay := by
  have addressed : b.addressed f = true := by simp [Block.addressed, kind, valid, dest]
  simp [Block.claimDecision, addressed, kind, up, credits, share]

/-- A claimed flit, counted. -/
def Block.countClaim (b : Block) (sd : Side) : Block :=
  (((b.bump (fwOff Off.fwClaimLo sd)).tally (fwBlk sd) 0x063 [0] 1).tally quayBlk 0x080 [0, 1 + sideNo sd] 1).portBytes 128 288

theorem Block.countClaim_kept (b : Block) (sd : Side) : Kept [.cnt, .events, .regs, .tl] b (b.countClaim sd) :=
  Kept.step (Block.portBytes_kept ..) (Within.single (by simp [Piece.inside]))
    (Kept.step (Block.tally_kept ..) (Within.cons (.inl (by simp)) (Within.single (by simp [Piece.inside]))) (b.bump_tally ..))

theorem Block.goodFlit_quay (kind : f.kind = 1) (quay : b.claimDecision sd f = .quay) :
    b.goodFlit sd f = ((b.countClaim sd).claimed sd f).idleSlot sd none := by
  have busy : ¬ f.kind = 0 := by rw [kind]; decide
  simp only [Block.goodFlit, if_neg busy, quay]
  rfl

/-- A flit with a known opcode waits among the claimed ones, with the time of its claim. -/
theorem Block.claimed_waits (known : knownOpcode f.opcode.toNat = true) :
    (b.claimed sd f).qy.claimed = b.qy.claimed ++ [(sd, f)] ∧ (b.claimed sd f).qy.claimedAt = b.qy.claimedAt ++ [b.ck.tide] := by
  have owed : (b.oweCredit sd f).qy = b.qy := (b.oweCredit_kept sd f).qyEq (by simp [Piece.among]) (by simp [Piece.among])
  have tide : (b.oweCredit sd f).ck.tide = b.ck.tide := (b.oweCredit_kept sd f).out .tide (by simp [Piece.among])
  unfold Block.claimed
  rw [if_neg (by simp [known])]
  exact ⟨by rw [← owed], by rw [← owed, ← tide]⟩

theorem Block.goodFlit_claimed (kind : f.kind = 1) (known : knownOpcode f.opcode.toNat = true) (quay : b.claimDecision sd f = .quay) :
    (b.goodFlit sd f).qy.claimed = b.qy.claimed ++ [(sd, f)] ∧ (b.goodFlit sd f).qy.claimedAt = b.qy.claimedAt ++ [b.ck.tide] := by
  have counts := (b.countClaim_kept sd).sameClaims
  have tide : (b.countClaim sd).ck.tide = b.ck.tide := (b.countClaim_kept sd).out .tide (by simp [Piece.among])
  obtain ⟨claimed, claimedAt⟩ := Block.claimed_waits (b := b.countClaim sd) (sd := sd) known
  obtain ⟨leftClaimed, leftAt⟩ := ((b.countClaim sd).claimed sd f).idleSlot_sameClaims sd
  rw [Block.goodFlit_quay kind quay, leftClaimed, leftAt, claimed, claimedAt, counts.claimed, counts.claimedAt, tide]
  exact ⟨rfl, rfl⟩

end

/-! ### FLIT_ARRIVE -/

section
variable {s : State} {sd : Side} {f : Flit} {gone : List (Fin 9)} {parityErr : Bool} {cws : List Codeword} {cycles : Nat}

theorem exec_flitArrive_upd : exec (.flitArrive sd f gone parityErr cws cycles) s = s.upd (·.flitArrive sd f gone parityErr cws cycles) := rfl

/-- What FLIT_ARRIVE may change. -/
def arrivePieces : List Piece := [.berths, .cnt, .events, .fws, .ins, .prot, .qy, .regs, .sides, .tl]

/-- A flit that enters does what its class does. -/
theorem does_flitArrive {post : Block → Prop} (now : s.blk.ReceivesNow sd)
    (h : post ((s.blk.entered sd f gone cws cycles).classFlit sd (zeroBlocks f gone) (cws.any (·.uncorrectable) || !gone.isEmpty) parityErr)) :
    Does (.flitArrive sd f gone parityErr cws cycles) s arrivePieces post :=
  does_upd exec_flitArrive_upd (Block.flitArrive_kept ..) (by rwa [Block.flitArrive_eq now])

theorem flitArrive_idle (h : (s.blk.side sd).receives = false) : exec (.flitArrive sd f gone parityErr cws cycles) s = .next s :=
  exec_upd_same exec_flitArrive_upd (Block.flitArrive_idle h)

section
variable (now : s.blk.ReceivesNow sd)
include now

theorem flitArrive_bad (run : s.blk.outOfRun (otherSide sd) = false) (room : (s.blk.fw sd).buf.length < 4)
    (cls : arrivalClass f gone parityErr cws = .bad ∨ arrivalClass f gone parityErr cws = .badInside) :
    Does (.flitArrive sd f gone parityErr cws cycles) s arrivePieces fun b =>
      (b.fw sd).buf = (s.blk.fw sd).buf ++ [stomp (zeroBlocks f gone)] ∧ b.qy = s.blk.qy := by
  set e := s.blk.entered sd f gone cws cycles with he
  have joins {c : Block} (classed : e.Classed c sd) : ((c.forward sd (stomp (zeroBlocks f gone))).fw sd).buf
      = (s.blk.fw sd).buf ++ [stomp (zeroBlocks f gone)] ∧ (c.forward sd (stomp (zeroBlocks f gone))).qy = s.blk.qy := by
    simpa [he] using classed.forward (f := stomp (zeroBlocks f gone)) (by simpa [he] using room) (by simpa [he] using run)
  refine does_flitArrive now ?_
  rcases cls with bad | inside
  · rw [Block.classFlit_bad bad]
    exact joins (e.badFlit_classed sd)
  · rw [Block.classFlit_badInside inside]
    exact joins (e.countInside_classed sd)

theorem flitArrive_stomped (run : s.blk.outOfRun (otherSide sd) = false) (room : (s.blk.fw sd).buf.length < 4)
    (cls : arrivalClass f gone parityErr cws = .stomped) :
    Does (.flitArrive sd f gone parityErr cws cycles) s arrivePieces fun b =>
      (b.fw sd).buf = (s.blk.fw sd).buf ++ [f] ∧ b.qy = s.blk.qy := by
  refine does_flitArrive now ?_
  rw [Block.classFlit_stomped cls, zeroBlocks_of_class (by rw [cls]; decide)]
  simpa using ((s.blk.entered sd f gone cws cycles).countStomped_classed sd).forward (f := f) (by simpa using room) (by simpa using run)

theorem flitArrive_thru (run : s.blk.outOfRun (otherSide sd) = false) (room : (s.blk.fw sd).buf.length < 4)
    (cls : arrivalClass f gone parityErr cws = .good) (kind : f.kind ≠ 0) (other : s.blk.addressed f = false) :
    Does (.flitArrive sd f gone parityErr cws cycles) s arrivePieces fun b =>
      (b.fw sd).buf = (s.blk.fw sd).buf ++ [f] ∧ b.qy = s.blk.qy := by
  refine does_flitArrive now ?_
  rw [Block.classFlit_good cls, zeroBlocks_of_class (by rw [cls]; decide)]
  simpa using (Block.goodFlit_joins (b := s.blk.entered sd f gone cws cycles) kind (by simpa using other) (by simpa using room) (by simpa using run))

theorem flitArrive_dropped (full : 4 ≤ (s.blk.fw sd).buf.length) (cls : arrivalClass f gone parityErr cws = .good) (kind : f.kind ≠ 0)
    (other : s.blk.addressed f = false) :
    Does (.flitArrive sd f gone parityErr cws cycles) s arrivePieces fun b =>
      (b.fw sd).buf = (s.blk.fw sd).buf ∧ b.regBit Off.fwAlarm (dropBit sd) = true := by
  refine does_flitArrive now ?_
  rw [Block.classFlit_good cls, zeroBlocks_of_class (by rw [cls]; decide)]
  obtain ⟨buf, alarm⟩ := Block.goodFlit_drops (b := s.blk.entered sd f gone cws cycles) kind (by simpa using other) (by simpa using full)
  exact ⟨by rw [buf, Block.entered_fw], alarm⟩

theorem flitArrive_claimed (cls : arrivalClass f gone parityErr cws = .good) (kind : f.kind = 1) (known : knownOpcode f.opcode.toNat = true)
    (valid : s.blk.qy.idValid = true) (dest : f.dest = s.blk.qy.pierId) (up : s.blk.qyUp = true) (credits : s.blk.creditUnits sd ≠ 0)
    (share : s.blk.shareUnits (otherSide sd) ≠ 0) :
    Does (.flitArrive sd f gone parityErr cws cycles) s arrivePieces fun b =>
      b.qy.claimed = s.blk.qy.claimed ++ [(sd, f)] ∧ b.qy.claimedAt = s.blk.qy.claimedAt ++ [s.blk.ck.tide] := by
  have quay : (s.blk.entered sd f gone cws cycles).claimDecision sd f = .quay :=
    Block.claimDecision_quay kind (by simpa using valid) (by simpa using dest) (by simpa using up) (by simpa using credits) (by simpa using share)
  refine does_flitArrive now ?_
  rw [Block.classFlit_good cls, zeroBlocks_of_class (by rw [cls]; decide)]
  simpa using Block.goodFlit_claimed kind known quay

end

end

/-- Settles O29: the counts of an arrival leave what its class, the claim point and the buffer look at; each class then has one course. -/
theorem flitsArrive : Obligations.FlitsArrive :=
  ⟨fun _ _ _ _ _ _ _ carries receives up => flitArrive_thru ⟨carries, receives, up⟩,
    fun _ _ _ _ _ _ _ carries receives up => flitArrive_stomped ⟨carries, receives, up⟩,
    fun _ _ _ _ _ _ _ carries receives up => flitArrive_bad ⟨carries, receives, up⟩,
    fun _ _ _ _ _ _ _ carries receives up _ => flitArrive_dropped ⟨carries, receives, up⟩,
    fun _ _ _ _ _ _ _ carries receives up => flitArrive_claimed ⟨carries, receives, up⟩,
    fun _ _ _ _ _ _ _ => flitArrive_idle⟩

end Sys2Proof.Machine
end

section
/-! SUPPORT. DC_CNT_CLR while REF_2X is set (R255, R264). -/

namespace Sys2Proof.Machine

open Sys2Proof

/-- A pier in ARRIVAL whose DC_CTRL holds REF_2X, with channel 0 not yet at the doubled rate. -/
def doublingPier : State :=
  { State.reset with blk := { State.reset.blk with csr := [(Off.dcCtrl, 0x3202)] } }

theorem exec_dcCntClr_upd {s : State} {p : Path} : exec (.dcCntClr p) s = s.upd (·.writeBits p Off.dcCtrl 1) := rfl

/-- The write that clears the counters gives REF_2X as it stands, and every channel enters the doubled rate. -/
theorem doublingPier_hot : ((doublingPier.blk.writeBits .jtag Off.dcCtrl 1).chan 0).hot = true := by decide +kernel

/-- Refutes O56: its fifth clause has DC_CNT_CLR change DC_CTRL and counters alone, in every state; the row writes the other fields of
DC_CTRL as they stand, and where REF_2X is among them a channel that is not at the doubled rate enters it. -/
theorem not_clearBits : ¬ Obligations.ClearBits := by
  intro h
  obtain ⟨-, -, -, -, clears, -⟩ := h
  obtain ⟨t, e, -, frame, -⟩ := clears doublingPier .jtag (by decide +kernel)
  have kept : t.blk.chan 0 = doublingPier.blk.chan 0 := frame.out (.chan 0) (by simp [Piece.among])
  rw [blk_of_upd exec_dcCntClr_upd e] at kept
  have hot : true = false := doublingPier_hot.symm.trans (congrArg (·.hot) kept)
  exact absurd hot (by decide)

end Sys2Proof.Machine
end

section
/-! SUPPORT. An accepted request, and a part that arrives, that wrap a tally counter. -/

namespace Sys2Proof.Machine

open Sys2Proof

/-- A command that changes a register outside the frame does not keep to the frame. -/
theorem not_does_of_reg {i : Instr} {s : State} {f : Block → Block} {ps : List Piece} {post : Block → Prop} {o : Nat} (e : exec i s = s.upd f)
    (out : ¬ (Piece.reg o).among ps) (changed : (f s.blk).reg o ≠ s.blk.reg o) : ¬ Does i s ps post := by
  rintro ⟨t, next, -, frame, -⟩
  have kept : t.blk.reg o = s.blk.reg o := frame.out (.reg o) out
  rw [blk_of_upd e next] at kept
  exact changed kept

/-! ### A request is accepted (R173, R426) -/

theorem exec_read_upd {s : State} {sd : Side} {f : Flit} : exec (.read sd f) s = s.upd (·.takeAccess sd .read f) := rfl

/-- A pier in OPEN whose region entry 0 admits every source to every address, and whose quay counts accepted requests (R426) in a
tally counter that is about to wrap. -/
def wrappingAccept : State :=
  { State.reset with
    blk := { State.reset.blk with
      pw.st := .openS, pw.doms := [(qyDom, { st := .on })], keys.arrival := some 1
      csr := [(Off.qyRgnBaseLo + 0x08, 0xFFFFF000), (Off.qyRgnBaseLo + 0x0C, 0x1F), (Off.qyRgnBaseLo + 0x10, 0x7FFF0000),
        (Off.qyRgnBaseLo + 0x14, 0xF), (tlOff Off.tlEvsel quayBlk, 0x081)]
      berths := [(chanOf 0, { st := .ready })]
      tl.blocks := [(quayBlk, { cnt := [(0, BitVec.allOnes 48)] })] } }

theorem wrappingAccept_admits : wrappingAccept.blk.admits .read .west oneRead [1] .be := by decide +kernel

/-- The accepted request counts, and the counter's wrap shows in TL_OVF. -/
theorem wrappingAccept_overflows :
    (wrappingAccept.blk.takeAccess .west .read oneRead).reg (tlOff Off.tlOvf quayBlk) ≠ wrappingAccept.blk.reg (tlOff Off.tlOvf quayBlk) := by
  decide +kernel

/-- Refutes O32: an accepted request counts as a tally event (R426), and a counter that wraps sets its bit of the quay's TL_OVF,
which the frame of the first clause, for READ, leaves out. -/
theorem not_requestsAccepted : ¬ Obligations.RequestsAccepted := by
  intro h
  obtain ⟨reads, -⟩ := h
  exact not_does_of_reg exec_read_upd (by simp [Piece.among, tlOff, Off.tlOvf, Off.qyTags, Off.lgAlarm, quayBlk]) wrappingAccept_overflows
    (reads wrappingAccept .west oneRead [1] .be wrappingAccept_admits)

/-! ### A part arrives (R175, R426) -/

theorem exec_partArrive_upd {s : State} {id i : Nat} : exec (.partArrive id i) s = s.upd (·.partArrive id i) := rfl

/-- A part of one READ on its way to berth 0. -/
def arrivingPart : Part := { berth := 0, reads := [0], toIssue := [0] }

def arrivingRead : Req := { id := 0, op := .read, sd := .west, f := oneRead, parts := [arrivingPart] }

/-- A pier in OPEN, its clocks running, with berth 0 READY and one READ on its way there; berth 0's tally block counts the parts
that arrive (R426) in a counter that is about to wrap. -/
def wrappingArrival : State :=
  { State.reset with
    blk := { State.reset.blk with
      pw.st := .openS, pw.doms := [(bgDom 0, { st := .on })], ck.root := { lock := true }
      berths := [(0, { st := .ready })], qy.reqs := [arrivingRead], qy.nextId := 1
      csr := [(tlOff Off.tlEvsel 0, 0x010)], tl.blocks := [(0, { cnt := [(0, BitVec.allOnes 48)] })] } }

/-- The part that arrives counts, and the counter's wrap shows in TL_OVF. -/
theorem wrappingArrival_overflows :
    (wrappingArrival.blk.partArrive 0 0).reg (tlOff Off.tlOvf 0) ≠ wrappingArrival.blk.reg (tlOff Off.tlOvf 0) := by decide +kernel

/-- Refutes O35: a part that arrives counts as a tally event (R426), and a counter that wraps sets its bit of the berth's TL_OVF,
which the frame of the first clause leaves out. -/
theorem not_partsAndTheCommitGate : ¬ Obligations.PartsAndTheCommitGate := by
  intro h
  obtain ⟨arrives, -⟩ := h
  exact not_does_of_reg exec_partArrive_upd (by simp [Piece.among, tlOff, Off.tlOvf, Off.chAlarm]) wrappingArrival_overflows
    (arrives wrappingArrival 0 0 arrivingRead arrivingPart rfl rfl rfl (by decide +kernel) (.inl (by decide +kernel)))

end Sys2Proof.Machine
end

section
/-! SUPPORT. Requests that end with an answer (R170, R186), and the withdrawals (R181, R206, R300). -/

namespace Sys2Proof.Machine

open Sys2Proof

/-! ### What follows a request's end brings no request and takes no waiting flit -/

/-- No request number is new, and every flit that waited for insertion still waits. -/
structure Block.Drains (b c : Block) : Prop where
  ids : ∀ q ∈ c.qy.reqs, ∃ p ∈ b.qy.reqs, p.id = q.id
  ins : b.qy.ins ⊆ c.qy.ins

theorem Block.Drains.refl (b : Block) : b.Drains b := ⟨fun q h => ⟨q, h, rfl⟩, List.Subset.refl _⟩

theorem Block.Drains.trans {b c d : Block} (h : b.Drains c) (k : c.Drains d) : b.Drains d := by
  refine ⟨fun q hq => ?_, List.Subset.trans h.ins k.ins⟩
  obtain ⟨p, hp, same⟩ := k.ids q hq
  obtain ⟨o, ho, first⟩ := h.ids p hp
  exact ⟨o, ho, first.trans same⟩

theorem Block.Drains.of_reqs {b c : Block} (reqs : c.qy.reqs = b.qy.reqs) (ins : b.qy.ins ⊆ c.qy.ins) : b.Drains c :=
  ⟨fun q h => ⟨q, reqs ▸ h, rfl⟩, ins⟩

theorem Kept.drains {ps : List Piece} {b c : Block} (h : Kept ps b c) (qy : ¬ Piece.qy.among ps := by simp [Piece.among])
    (ins : ¬ Piece.ins.among ps := by simp [Piece.among]) : b.Drains c := by
  have same : c.qy = b.qy := h.qyEq qy ins
  exact .of_reqs (by rw [same]) (by rw [same]; exact List.Subset.refl _)

theorem Block.Drains.foldl {α : Type} {f : Block → α → Block} (h : ∀ (b : Block) x, b.Drains (f b x)) (b : Block) (xs : List α) :
    b.Drains (xs.foldl f b) :=
  List.foldlRecOn (motive := Block.Drains b) xs f (.refl b) fun c hc x _ => hc.trans (h c x)

theorem Block.Drains.answered {b c : Block} (h : b.Drains c) {id level status : Nat} (k : b.answered id level status) : c.answered id level status := by
  obtain ⟨gone, waits⟩ := k
  obtain ⟨i, hi, answer⟩ := List.any_eq_true.mp waits
  refine ⟨List.find?_eq_none.mpr fun q hq => ?_, List.any_eq_true.mpr ⟨i, h.ins hi, answer⟩⟩
  obtain ⟨p, hp, same⟩ := h.ids q hq
  rw [← same]
  exact List.find?_eq_none.mp gone p hp

section
variable (b : Block)

theorem Block.putIns_drains (i : Ins) : b.Drains (b.putIns i) := by
  unfold Block.putIns
  split
  · exact .of_reqs rfl (List.subset_append_left ..)
  · split
    · exact (b.cplDiscard_kept _).drains
    · exact .refl b

theorem Block.complete_drains (r : Req) (level : Nat) (a : Answer) : b.Drains (b.complete r level a) := b.putIns_drains _

theorem Block.dropReq_drains (id : Nat) : b.Drains (b.dropReq id) :=
  ⟨fun q h => ⟨q, List.mem_of_mem_filter h, rfl⟩, List.Subset.refl _⟩

theorem Block.modReq_drains (id : Nat) {f : Req → Req} (keeps : ∀ r, (f r).id = r.id) : b.Drains (b.modReq id f) := by
  refine ⟨fun q h => ?_, List.Subset.refl _⟩
  obtain ⟨p, hp, rfl⟩ := List.mem_map.mp h
  refine ⟨p, hp, ?_⟩
  split
  · exact (keeps p).symm
  · rfl

theorem Block.wakeFences_drains : b.Drains b.wakeFences := by
  unfold Block.wakeFences
  refine .foldl (fun c r => ?_) b _
  split
  · exact .refl c
  · exact (c.dropReq_drains r.id).trans (Block.complete_drains ..)

theorem Block.grantGroup_drains (n : Nat) (inB : Bool) : b.Drains (b.grantGroup n inB) := by
  unfold Block.grantGroup
  refine List.foldlRecOn (motive := fun acc : Block × Bool => b.Drains acc.1) _ _ (.refl b) fun acc h e _ => ?_
  dsimp only
  split_ifs
  · exact h
  · exact h.trans (Block.modReq_drains _ e.1 fun _ => rfl)
  · exact h

theorem Block.grantStaging_drains (n : Nat) : b.Drains (b.grantStaging n) :=
  (b.grantGroup_drains n true).trans (Block.grantGroup_drains _ n false)

theorem Block.afterReq_drains (r : Req) : b.Drains (b.afterReq r) := by
  have berths : b.Drains (b.each (ascending (r.parts.map (·.berth))) fun b n =>
      (b.modChan n fun x => { x with lastBusy := b.ck.tide }).grantStaging n) :=
    .foldl (fun c n => (c.modChan_kept n _).drains.trans (Block.grantStaging_drains _ n)) ..
  exact ((berths.trans (Block.clearPanic_kept _).drains).trans (Block.settle_kept _).drains).trans (Block.wakeFences_drains _)

end

/-! ### A request that ends with an answer -/

/-- The block with one more flit that waits for insertion. -/
def Block.withIns (b : Block) (i : Ins) : Block := { b with qy.ins := b.qy.ins ++ [i] }

theorem Block.withIns_kept (b : Block) (i : Ins) : Kept [.ins] b (b.withIns i) := by
  apply Kept.of_fields (d := b.withIns i) (Kept.refl _ b) (qy := .inr ⟨.inr rfl, .inl (List.mem_singleton.2 rfl)⟩) <;> exact .inl rfl

section
variable {b : Block} {r : Req}

theorem Block.putIns_run {i : Ins} (run : (b.side i.side).seg = .run) : b.putIns i = b.withIns i := if_pos run

theorem Block.dropReq_req (b : Block) (id : Nat) : (b.dropReq id).req id = none := by
  simp [Block.req, Block.dropReq]

/-- The completion of a request that has left its queue, with its side in RUN. -/
theorem Block.complete_answered (level : Nat) (a : Answer) (gone : b.req r.id = none) (run : (b.side r.sd).seg = .run) :
    (b.complete r level a).answered r.id level (a.status % 256) := by
  rw [Block.complete, Block.putIns_run run]
  exact ⟨gone, by simp [Block.withIns, Block.completion]⟩

/-- A request that ends is answered where its side is in RUN. -/
theorem Block.endReq_answered (level : Nat) (a : Answer) (run : (b.side r.sd).seg = .run) :
    (b.endReq r level a).answered r.id level (a.status % 256) := by
  refine (Block.afterReq_drains _ r).answered (Block.complete_answered level a (Block.dropReq_req ..) ?_)
  cases sd : r.sd <;> rw [sd] at run <;> exact run

theorem Block.req_id {id : Nat} (found : b.req id = some r) : r.id = id := by
  simpa using List.find?_some found

end

/-! ### BE_WITHDRAW (R181) -/

theorem exec_beWithdraw_upd {s : State} {id : Nat} : exec (.beWithdraw id) s = s.upd (·.beWithdraw id) := rfl

/-- A withdrawal of BE_WITHDRAW as its counters and its alarm show it. -/
def Block.countBeCap (b : Block) : Block := ((b.bump Off.qyBeCapLo).orReg Off.qyAlarm 8).tally quayBlk 0x087 [0] 1

theorem Block.countBeCap_side (b : Block) (sd : Side) : b.countBeCap.side sd = b.side sd := by
  have counted : b.countBeCap.side sd = ((b.bump Off.qyBeCapLo).orReg Off.qyAlarm 8).side sd :=
    (Block.tally_kept ..).out (.side sd) (by simp [Piece.among])
  rw [counted, Block.side_orReg]
  cases sd <;> rfl

theorem Block.countBeCap_alarm (b : Block) : b.countBeCap.regBit Off.qyAlarm 3 = true := by
  have counted : b.countBeCap.reg Off.qyAlarm = ((b.bump Off.qyBeCapLo).orReg Off.qyAlarm 8).reg Off.qyAlarm :=
    (Block.tally_kept ..).out (.reg Off.qyAlarm) (by simp [Piece.among, tlOff, Off.tlOvf, Off.qyAlarm, quayBlk])
  rw [Block.regBit, counted, ← Block.regBit, Block.regBit_orReg]
  simp

theorem Block.countBeCap_count (b : Block) : b.countBeCap.count Off.qyBeCapLo = min (b.count Off.qyBeCapLo + 1) (2 ^ 48 - 1) := by
  have counted : b.countBeCap.count Off.qyBeCapLo = ((b.bump Off.qyBeCapLo).orReg Off.qyAlarm 8).count Off.qyBeCapLo :=
    (Block.tally_kept ..).out (.count Off.qyBeCapLo) (by simp [Piece.among])
  rw [counted]
  exact b.bump_count ..

section
variable {s : State} {id : Nat} {r : Req}

theorem Block.beWithdraw_due {b : Block} (found : b.req id = some r) (best : r.cls.charter = none) (unissued : r.issued = false)
    (late : 8320 ≤ b.since r.quayIn) : b.beWithdraw id = b.countBeCap.withdraw r := by
  have due : ¬ (r.inBudget = true ∨ r.issued = true ∨ b.since r.quayIn < 8320) := by
    simp [Req.inBudget, best, unissued, late]
  simp only [Block.beWithdraw, found, if_neg due]
  rfl

theorem Block.beWithdraw_early {b : Block} (found : b.req id = some r)
    (early : r.cls.charter.isSome = true ∨ r.issued = true ∨ b.since r.quayIn < 8320) : b.beWithdraw id = b := by
  simp only [Block.beWithdraw, found]
  exact if_pos early

theorem does_beWithdraw (found : s.blk.req id = some r) (best : r.cls.charter = none) (unissued : r.issued = false)
    (late : 8320 ≤ s.blk.since r.quayIn) (run : (s.blk.side r.sd).seg = .run) :
    Does (.beWithdraw id) s [.berths, .chans, .chs, .count Off.qyBeCapLo, .count Off.qyCplDiscardLo, .events, .ins, .qy,
      .reg (tlOff Off.tlOvf quayBlk), .reg Off.lgAlarm, .reg Off.qyAlarm, .stk, .tl] fun b =>
        b.answered id 2 0x07 ∧ b.regBit Off.qyAlarm 3 = true ∧ b.count Off.qyBeCapLo = min (s.blk.count Off.qyBeCapLo + 1) (2 ^ 48 - 1) := by
  refine does_framed exec_beWithdraw_upd (execBeWithdraw_kept id) .refl ?_
  rw [Block.beWithdraw_due found best unissued late]
  have ended := Block.withdraw_kept s.blk.countBeCap r
  have alarm : (s.blk.countBeCap.withdraw r).reg Off.qyAlarm = s.blk.countBeCap.reg Off.qyAlarm :=
    ended.out (.reg Off.qyAlarm) (by simp [Piece.among, Off.qyAlarm, Off.lgAlarm])
  have count : (s.blk.countBeCap.withdraw r).count Off.qyBeCapLo = s.blk.countBeCap.count Off.qyBeCapLo :=
    ended.out (.count Off.qyBeCapLo) (by simp [Piece.among, Off.qyBeCapLo, Off.qyCplDiscardLo])
  refine ⟨?_, ?_, count.trans s.blk.countBeCap_count⟩
  · rw [← Block.req_id found]
    exact Block.endReq_answered 2 (bare St.busyRetry) (by rw [Block.countBeCap_side]; exact run)
  · rw [Block.regBit, alarm]
    exact s.blk.countBeCap_alarm

end

/-! ### CHARTER_WITHDRAW (R206) -/

theorem Block.charter_setCharter (b : Block) (c k : Nat) (v : Charter) : (b.setCharter c v).charter k = if c = k then v else b.charter k :=
  tget_tset ..

theorem Block.charter_modCharter (b : Block) (c k : Nat) (f : Charter → Charter) :
    (b.modCharter c f).charter k = if c = k then f (b.charter c) else b.charter k := b.charter_setCharter ..

theorem Kept.charter {ps : List Piece} {b c : Block} (h : Kept ps b c) (k : Nat) (out : ¬ Piece.chs.among ps := by simp [Piece.among]) :
    c.charter k = b.charter k := by
  have same : c.chs = b.chs := h.out .chs out
  rw [Block.charter, same, Block.charter]

theorem Block.clearPanic_miss (b : Block) (k : Nat) : (b.clearPanic.charter k).miss = (b.charter k).miss := by
  refine Block.each_keeps (fun c => (c.charter k).miss) _ (fun c n => ?_) b _
  split
  · rfl
  · rw [Block.charter_modCharter]
    split
    · next e => rw [e]
    · rfl

theorem Block.afterReq_miss (b : Block) (r : Req) (k : Nat) : ((b.afterReq r).charter k).miss = (b.charter k).miss := by
  have berths : ∀ ns : List Nat, (b.each ns fun b n => (b.modChan n fun x => { x with lastBusy := b.ck.tide }).grantStaging n).charter k = b.charter k :=
    fun ns => Block.each_keeps (·.charter k) _ (fun c n => ((Block.grantStaging_kept _ n).charter k).trans ((c.modChan_kept n _).charter k)) b ns
  rw [Block.afterReq, (Block.wakeFences_kept _).charter, (Block.settle_kept _).charter, Block.clearPanic_miss, berths]

/-- A request's end leaves the charters' counts of missed deadlines. -/
theorem Block.endReq_miss (b : Block) (r : Req) (level : Nat) (a : Answer) (k : Nat) : ((b.endReq r level a).charter k).miss = (b.charter k).miss := by
  rw [Block.endReq, Block.afterReq_miss, (Block.complete_kept ..).charter, (Block.dropReq_kept ..).charter]
  rfl

/-- A missed deadline of charter `c` as its count, the alarm and the event show it. -/
def Block.noteMiss (b : Block) (c : Nat) : Block :=
  let m := (b.setCharter c { b.charter c with miss := inc32 (b.charter c).miss }).orReg Off.chAlarm 2
  if m.olderThan msTicks (b.charter c).missAt then (m.modCharter c fun y => { y with missAt := some m.ck.tide }).event .charterMiss c else m

theorem Block.noteMiss_side (b : Block) (c : Nat) (sd : Side) : (b.noteMiss c).side sd = b.side sd := by
  have event (d : Block) (e : Ev) (u : Nat) : (d.event e u).side sd = d.side sd := (d.event_kept e u []).out (.side sd) (by simp [Piece.among])
  unfold Block.noteMiss
  dsimp only
  split
  · rw [event]
    cases sd <;> rfl
  · cases sd <;> rfl

theorem Block.noteMiss_alarm (b : Block) (c : Nat) : (b.noteMiss c).regBit Off.chAlarm 1 = true := by
  have alarm (d : Block) : (d.orReg Off.chAlarm 2).regBit Off.chAlarm 1 = true := by rw [Block.regBit_orReg]; simp
  have event (d : Block) (e : Ev) (u : Nat) : (d.event e u).reg Off.chAlarm = d.reg Off.chAlarm :=
    (d.event_kept e u []).out (.reg Off.chAlarm) (by simp [Piece.among, Off.chAlarm, Off.lgAlarm])
  unfold Block.noteMiss
  dsimp only
  split
  · rw [Block.regBit, event]
    exact alarm _
  · exact alarm _

theorem Block.noteMiss_miss (b : Block) (c : Nat) : ((b.noteMiss c).charter c).miss = inc32 (b.charter c).miss := by
  have counted (v : Charter) : ((b.setCharter c v).orReg Off.chAlarm 2).charter c = v :=
    (b.charter_setCharter c c v).trans (if_pos rfl)
  unfold Block.noteMiss
  dsimp only
  split
  · rw [(Block.event_kept ..).charter, Block.charter_modCharter, if_pos rfl, counted]
  · rw [counted]

section
variable {s : State} {id c : Nat} {r : Req}

theorem exec_charterWithdraw_upd : exec (.charterWithdraw id) s = s.upd (·.charterWithdraw id) := rfl

theorem Block.charterWithdraw_due {b : Block} (found : b.req id = some r) (charter : r.cls.charter = some c) (unissued : r.issued = false)
    (late : deadline r.cls ≤ b.since r.quayIn) : b.charterWithdraw id = (b.noteMiss c).withdraw r := by
  have due : ¬ (r.issued = true ∨ b.since r.quayIn < deadline r.cls) := by simp [unissued, late]
  simp only [Block.charterWithdraw, found, charter, if_neg due]
  rfl

theorem Block.charterWithdraw_early {b : Block} (found : b.req id = some r) (early : r.issued = true ∨ b.since r.quayIn < deadline r.cls) :
    b.charterWithdraw id = b := by
  simp only [Block.charterWithdraw, found, if_pos early]
  split <;> rfl

theorem does_charterWithdraw (found : s.blk.req id = some r) (charter : r.cls.charter = some c) (unissued : r.issued = false)
    (late : deadline r.cls ≤ s.blk.since r.quayIn) (run : (s.blk.side r.sd).seg = .run) :
    Does (.charterWithdraw id) s [.berths, .chans, .chs, .count Off.qyCplDiscardLo, .events, .ins, .qy, .reg Off.chAlarm, .reg Off.lgAlarm, .stk]
      fun b => b.answered id 2 0x07 ∧ b.regBit Off.chAlarm 1 = true ∧ (b.charter c).miss = inc32 (s.blk.charter c).miss := by
  refine does_framed exec_charterWithdraw_upd (execCharterWithdraw_kept id) .refl ?_
  rw [Block.charterWithdraw_due found charter unissued late]
  have alarm : ((s.blk.noteMiss c).withdraw r).reg Off.chAlarm = (s.blk.noteMiss c).reg Off.chAlarm :=
    (Block.withdraw_kept ..).out (.reg Off.chAlarm) (by simp [Piece.among, Off.chAlarm, Off.lgAlarm])
  refine ⟨?_, ?_, (Block.endReq_miss ..).trans (s.blk.noteMiss_miss c)⟩
  · rw [← Block.req_id found]
    exact Block.endReq_answered 2 (bare St.busyRetry) (by rw [Block.noteMiss_side]; exact run)
  · rw [Block.regBit, alarm]
    exact s.blk.noteMiss_alarm c

/-! ### FILL_HOLD_TIMEOUT (R300) -/

theorem exec_fillHoldTimeout_upd : exec (.fillHoldTimeout id) s = s.upd (·.fillHoldTimeout id) := rfl

theorem Block.fillHoldTimeout_due {b : Block} (found : b.req id = some r) (held : (r.parts.any fun p => p.stage == .held) = true)
    (late : 6400 ≤ b.since r.quayIn) : b.fillHoldTimeout id = b.endReq r (clsLevel r.cls) (bare St.notReady) := by
  simp only [Block.fillHoldTimeout, found, if_pos (And.intro held late)]

theorem Block.fillHoldTimeout_early {b : Block} (found : b.req id = some r) (early : b.since r.quayIn < 6400) : b.fillHoldTimeout id = b := by
  simp only [Block.fillHoldTimeout, found, if_neg fun due => absurd (And.right due) (Nat.not_le_of_lt early)]

theorem does_fillHoldTimeout (found : s.blk.req id = some r) (held : (r.parts.any fun p => p.stage == .held) = true)
    (late : 6400 ≤ s.blk.since r.quayIn) (run : (s.blk.side r.sd).seg = .run) :
    Does (.fillHoldTimeout id) s [.berths, .chans, .chs, .count Off.qyCplDiscardLo, .events, .ins, .qy, .reg Off.lgAlarm, .stk]
      fun b => b.answered id (clsLevel r.cls) 0x06 := by
  refine does_framed exec_fillHoldTimeout_upd (execFillHoldTimeout_kept id) .refl ?_
  rw [Block.fillHoldTimeout_due found held late, ← Block.req_id found]
  exact Block.endReq_answered _ (bare St.notReady) run

end

/-- Settles O36: a withdrawal due ends its request with an answer, and the deadlines of R206 are those of the class. -/
theorem withdrawals : Obligations.Withdrawals := by
  unfold Obligations.Withdrawals
  refine ⟨fun _ _ _ => does_beWithdraw, fun _ _ _ found early => exec_upd_same exec_beWithdraw_upd (Block.beWithdraw_early found early),
    ?missed, ?early, fun _ _ _ => does_fillHoldTimeout,
    fun _ _ _ found early => exec_upd_same exec_fillHoldTimeout_upd (Block.fillHoldTimeout_early found early)⟩
  case missed =>
    rintro s id r c found (⟨cls, late⟩ | ⟨cls, late⟩) unissued run
    · exact does_charterWithdraw found (by rw [cls]; rfl) unissued (by rw [cls]; exact late) run
    · exact does_charterWithdraw found (by rw [cls]; rfl) unissued (by rw [cls]; exact late) run
  case early =>
    rintro s id r c found early
    refine exec_upd_same exec_charterWithdraw_upd (Block.charterWithdraw_early found ?_)
    rcases early with ⟨cls, early⟩ | ⟨cls, early⟩ | issued
    · exact .inr (by rw [cls]; exact early)
    · exact .inr (by rw [cls]; exact early)
    · exact .inl issued

end Sys2Proof.Machine
end

section
/-! SUPPORT. Credits taken and returned (R190 to R192), and how remote writes end (R170, R171). -/

namespace Sys2Proof.Machine

open Sys2Proof

/-! ### A claimed flit taken, and a credit balance -/

section
variable (b : Block) (sd k : Side) (f : Flit)

theorem Block.takeClaimed_side : (b.takeClaimed sd f).side k = b.side k := by cases k <;> rfl

theorem Block.takeClaimed_claimed : (b.takeClaimed sd f).qy.claimed = b.qy.claimed.erase (sd, f) := rfl

theorem Block.noteLow_bal : ((b.noteLow sd).side sd).bal = (b.side sd).bal := by rw [Block.noteLow, Block.side_modSide_same]

theorem Block.setBal_bal (v : Int) : ((b.setBal sd v).side sd).bal = v := by rw [Block.setBal, Block.noteLow_bal, Block.side_modSide_same]

/-- Credits raise a balance to the grant at most, and leave one above the grant (R191). -/
theorem Block.addCredit_bal {b : Block} {sd : Side} (run : (b.side sd).seg = .run) (set : (b.side sd).balSet = true) (n : Nat) :
    ((b.addCredit sd n).side sd).bal = max (b.side sd).bal (min ((b.side sd).bal + n) (8 * b.creditUnits sd)) := by
  have counts : ¬ ((b.side sd).seg != .run || !(b.side sd).balSet) = true := by simp [run, set]
  rw [Block.addCredit, if_neg counts, Block.setBal_bal]
  split <;> omega

/-- The argument of a well formed CREDIT lies below 65,536 (R191). -/
theorem creditWellFormed_arg {f : Flit} (good : creditWellFormed f = true) : f.arg.toNat < 65536 := by
  simp only [creditWellFormed, Bool.and_eq_true, decide_eq_true_eq] at good
  obtain ⟨⟨⟨⟨⟨⟨-, arg⟩, -⟩, -⟩, -⟩, -⟩, -⟩ := good
  exact arg

end

/-! ### CREDIT (R191) -/

section
variable {s : State} {sd : Side} {f : Flit}

theorem exec_credit_good (up : s.blk.qyUp = true) (good : creditWellFormed f = true) :
    exec (.credit sd f) s = s.upd fun b => (b.takeClaimed sd f).addCredit sd f.arg.toNat := by
  refine exec_upd_of (execCredit.eq_def sd f s) ?_
  simp only [up, good, not_true, if_false, if_true, Nat.mod_eq_of_lt (creditWellFormed_arg good)]

theorem exec_credit_bad (up : s.blk.qyUp = true) (bad : creditWellFormed f = false) :
    exec (.credit sd f) s = s.upd fun b => ((b.takeClaimed sd f).bump Off.qyRefParamLo).tally quayBlk 0x082 [0, St.badParam] 1 := by
  refine exec_upd_of (execCredit.eq_def sd f s) ?_
  simp only [up, bad, not_true, if_false, Bool.false_eq_true]

theorem does_credit_good (up : s.blk.qyUp = true) (good : creditWellFormed f = true) (run : (s.blk.side sd).seg = .run)
    (set : (s.blk.side sd).balSet = true) :
    Does (.credit sd f) s [.qy, .side sd] fun b =>
      b.qy.claimed = s.blk.qy.claimed.erase (sd, f)
        ∧ (b.side sd).bal = max (s.blk.side sd).bal (min ((s.blk.side sd).bal + f.arg.toNat) (8 * s.blk.creditUnits sd)) := by
  have taken : (s.blk.takeClaimed sd f).side sd = s.blk.side sd := Block.takeClaimed_side ..
  have units : (s.blk.takeClaimed sd f).creditUnits sd = s.blk.creditUnits sd := by rw [Block.creditUnits, taken, Block.creditUnits]
  have bal := Block.addCredit_bal (b := s.blk.takeClaimed sd f) (sd := sd) (by rw [taken]; exact run) (by rw [taken]; exact set) f.arg.toNat
  rw [taken, units] at bal
  have credited := Block.addCredit_kept (s.blk.takeClaimed sd f) sd f.arg.toNat
  refine does_upd (exec_credit_good up good) ?_ ⟨credited.qyOf (by simp [Piece.among]) Quay.claimed, bal⟩
  exact Block.addCredit_keeps (.of_subset (by simp)) (Block.takeClaimed_keeps (.of_subset (by simp)) (.refl ..))

theorem does_credit_bad (up : s.blk.qyUp = true) (bad : creditWellFormed f = false) :
    Does (.credit sd f) s [.count Off.qyRefParamLo, .qy, .reg (tlOff Off.tlOvf quayBlk), .side sd, .tl] fun b =>
      b.qy.claimed = s.blk.qy.claimed.erase (sd, f) ∧ b.side sd = s.blk.side sd := by
  refine does_framed (exec_credit_bad up bad) (execCredit_kept sd f) .refl ?_
  have counted : Kept [.count Off.qyRefParamLo, .reg (tlOff Off.tlOvf quayBlk), .tl] (s.blk.takeClaimed sd f)
      (((s.blk.takeClaimed sd f).bump Off.qyRefParamLo).tally quayBlk 0x082 [0, St.badParam] 1) :=
    Block.tally_keeps (.of_subset (by simp)) (Block.bump_keeps (.of_subset (by simp)) (.refl ..))
  exact ⟨counted.qyOf (by simp [Piece.among]) Quay.claimed,
    (counted.out (.side sd) (by simp [Piece.among])).trans (Block.takeClaimed_side ..)⟩

end

/-! ### The remote writes and their copies -/

/-- Both blocks hold the same remote writes and the same copies. -/
structure Block.SameWrites (b c : Block) : Prop where
  rems : c.qy.rems = b.qy.rems
  copies : c.qy.copies = b.qy.copies

theorem Block.SameWrites.refl (b : Block) : b.SameWrites b := ⟨rfl, rfl⟩

theorem Block.SameWrites.trans {b c d : Block} (h : b.SameWrites c) (k : c.SameWrites d) : b.SameWrites d :=
  ⟨k.rems.trans h.rems, k.copies.trans h.copies⟩

theorem Kept.sameWrites {ps : List Piece} {b c : Block} (h : Kept ps b c) (out : ¬ Piece.qy.among ps := by simp [Piece.among]) : b.SameWrites c :=
  ⟨h.qyOf out Quay.rems, h.qyOf out Quay.copies⟩

theorem Block.wakeFences_sameWrites (b : Block) : b.SameWrites b.wakeFences := by
  unfold Block.wakeFences
  refine List.foldlRecOn (motive := b.SameWrites) _ _ (.refl b) fun c same r _ => ?_
  split
  · exact same
  · have dropped : c.SameWrites (c.dropReq r.id) := ⟨rfl, rfl⟩
    exact (same.trans dropped).trans (Block.complete_kept ..).sameWrites

/-- The state of a copy, whose completions fall due with it, leaves the remote writes. -/
theorem Block.copyNext_rems (b : Block) (c : CopyOut) : (b.copyNext c).qy.rems = b.qy.rems := by
  have ite {p : Prop} [Decidable p] {x y : Block} (hx : x.qy.rems = b.qy.rems) (hy : y.qy.rems = b.qy.rems) :
      (if p then x else y).qy.rems = b.qy.rems := by
    split
    · exact hx
    · exact hy
  have put (d : Block) (i : Ins) : (d.putIns i).qy.rems = d.qy.rems := (d.putIns_kept i).sameWrites.rems
  have answered {p : Prop} [Decidable p] (i : Ins) : (if p then b.putIns i else b).qy.rems = b.qy.rems := ite (put b i) rfl
  unfold Block.copyNext
  exact (Block.wakeFences_sameWrites _).rems.trans (ite (ite ((put ..).trans (answered _)) (answered _)) (answered _))

/-- A copy with writes pending stays, once its own completion has left or while it has writes to send. -/
theorem Block.mem_copyNext (b : Block) {c : CopyOut} (sent : c.answered = true ∨ c.unsent ≠ 0) (pending : c.pending ≠ 0) :
    c ∈ (b.copyNext c).qy.copies := by
  have done : (if c.unsent = 0 then { c with answered := true } else c) = c := by
    rcases sent with answered | unsent
    · rw [← answered, ite_self]
    · exact if_neg unsent
  unfold Block.copyNext
  extract_lets others sentOn next
  have same : next = c := done
  rw [(Block.wakeFences_sameWrites _).copies, same, if_neg fun ended => pending ended.2]
  exact List.mem_append_right _ (List.mem_singleton.mpr rfl)

section
variable (b : Block) (w : RemWrite)

/-- The block without a remote write that has ended. -/
def Block.dropRem : Block := { b with qy.rems := b.qy.rems.filter fun x => x.tag != w.tag }

/-- A remote write that ends releases its tag (R171). -/
theorem Block.remEnds_rems (e : RemEnd) : (b.remEnds w e).qy.rems = b.qy.rems.filter fun x => x.tag != w.tag := by
  have fails (c : CopyOut) : ((b.dropRem w).copyFail c).qy.rems = b.qy.rems.filter fun x => x.tag != w.tag :=
    ((b.dropRem w).copyFail_kept c).sameWrites.rems
  unfold Block.remEnds
  extract_lets
  split
  · rfl
  · next c _ =>
    cases e with
    | status st =>
      refine (Block.copyNext_rems ..).trans ?_
      split
      · rfl
      · exact fails c
    | missing => exact (Block.copyNext_rems ..).trans (fails c)
    | unsent st => exact (Block.copyNext_rems ..).trans (fails c)

/-- A write that ends OK counts as done in its copy. -/
theorem Block.remEnds_ok {c : CopyOut} (found : (b.qy.copies.find? fun x => x.req == w.req && !w.dump) = some c) :
    b.remEnds w (.status St.ok) = (b.dropRem w).copyNext { c with pending := c.pending - 1, ok := c.ok + 1 } := by
  unfold Block.remEnds
  simp only [← Block.dropRem.eq_def, found, if_true]

end

/-! ### REMOTE_COMPLETION (R171, R432) -/

section
variable {s : State} {sd : Side} {f : Flit} {w : RemWrite}

/-- A completion that matches a remote write ends it, and where it fails a dump's, says so. -/
def Block.remCompletes (b : Block) (sd : Side) (f : Flit) (w : RemWrite) : Block :=
  let b := (b.takeClaimed sd f).remEnds w (.status (St.known f.status.toNat))
  if w.dump ∧ f.status ≠ 0 then b.dumpFail else b

theorem exec_remoteCompletion_matched (up : s.blk.qyUp = true) (good : malformedPoison f = false) (found : s.blk.remFor f = some w) :
    exec (.remoteCompletion sd f) s = s.upd (·.remCompletes sd f w) := by
  have found' : (s.blk.takeClaimed sd f).remFor f = some w := found
  refine exec_upd_of (execRemoteCompletion.eq_def sd f s) ?_
  simp only [up, good, found', not_true, if_false, Bool.false_eq_true, Block.remCompletes]

theorem exec_remoteCompletion_malformed (up : s.blk.qyUp = true) (bad : malformedPoison f = true) :
    exec (.remoteCompletion sd f) s = s.upd (·.takeClaimed sd f) := by
  refine exec_upd_of (execRemoteCompletion.eq_def sd f s) ?_
  simp only [up, bad, not_true, if_false, if_true]

theorem exec_remoteCompletion_unknown (up : s.blk.qyUp = true) (good : malformedPoison f = false) (unknown : s.blk.remFor f = none) :
    exec (.remoteCompletion sd f) s = s.upd fun b => ((b.takeClaimed sd f).bump Off.qyUnknownLo).orReg Off.qyAlarm 16 := by
  have unknown' : (s.blk.takeClaimed sd f).remFor f = none := unknown
  refine exec_upd_of (execRemoteCompletion.eq_def sd f s) ?_
  simp only [up, good, unknown', not_true, if_false, Bool.false_eq_true]

theorem Block.remFor_tag {b : Block} (found : b.remFor f = some w) : w.tag = f.tag.toNat := by
  have matched := List.find?_some found
  simp only [Bool.and_eq_true, beq_iff_eq] at matched
  exact matched.1

/-- The alarm of a failed dump write leaves the remote writes and their copies. -/
theorem Block.remCompletes_sameWrites (b : Block) (sd : Side) (f : Flit) (w : RemWrite) :
    ((b.takeClaimed sd f).remEnds w (.status (St.known f.status.toNat))).SameWrites (b.remCompletes sd f w) := by
  unfold Block.remCompletes
  dsimp only
  split
  · exact (Block.dumpFail_kept _).sameWrites
  · exact .refl _

theorem does_remoteCompletion_matched (up : s.blk.qyUp = true) (good : malformedPoison f = false) (found : s.blk.remFor f = some w) :
    Does (.remoteCompletion sd f) s [.count Off.qyCplDiscardLo, .count Off.qyUnknownLo, .events, .ins, .qy, .reg Off.lgAlarm, .reg Off.qyAlarm,
      .reg Off.tlAlarm, .tl] fun b => w.tag = f.tag.toNat ∧ b.qy.rems = s.blk.qy.rems.filter fun x => x.tag != f.tag.toNat := by
  refine does_framed (exec_remoteCompletion_matched up good found) (execRemoteCompletion_kept sd f) .refl ⟨Block.remFor_tag found, ?_⟩
  rw [← Block.remFor_tag found]
  exact (s.blk.remCompletes_sameWrites sd f w).rems.trans (Block.remEnds_rems ..)

theorem does_remoteCompletion_ok {c : CopyOut} (up : s.blk.qyUp = true) (good : malformedPoison f = false) (found : s.blk.remFor f = some w)
    (ok : f.status = 0) (copy : (s.blk.qy.copies.find? fun x => x.req == w.req && !w.dump) = some c)
    (sent : c.answered = true ∨ c.unsent ≠ 0) (more : 2 ≤ c.pending) :
    Does (.remoteCompletion sd f) s [.count Off.qyCplDiscardLo, .count Off.qyUnknownLo, .events, .ins, .qy, .reg Off.lgAlarm, .reg Off.qyAlarm,
      .reg Off.tlAlarm, .tl] fun b => { c with pending := c.pending - 1, ok := c.ok + 1 } ∈ b.qy.copies := by
  refine does_framed (exec_remoteCompletion_matched up good found) (execRemoteCompletion_kept sd f) .refl ?_
  have copy' : ((s.blk.takeClaimed sd f).qy.copies.find? fun x => x.req == w.req && !w.dump) = some c := copy
  have status : St.known f.status.toNat = St.ok := by rw [ok]; rfl
  rw [(s.blk.remCompletes_sameWrites sd f w).copies, status, Block.remEnds_ok _ _ copy']
  refine Block.mem_copyNext _ sent ?_
  dsimp only
  omega

theorem does_remoteCompletion_malformed (up : s.blk.qyUp = true) (bad : malformedPoison f = true) :
    Does (.remoteCompletion sd f) s [.qy] fun b =>
      b.qy.rems = s.blk.qy.rems ∧ b.qy.copies = s.blk.qy.copies ∧ b.qy.claimed = s.blk.qy.claimed.erase (sd, f) :=
  does_upd (exec_remoteCompletion_malformed up bad) (s.blk.takeClaimed_kept sd f) ⟨rfl, rfl, rfl⟩

theorem does_remoteCompletion_unknown (up : s.blk.qyUp = true) (good : malformedPoison f = false) (unknown : s.blk.remFor f = none) :
    Does (.remoteCompletion sd f) s [.qy, .count Off.qyUnknownLo, .reg Off.qyAlarm] fun b =>
      b.qy.rems = s.blk.qy.rems ∧ b.regBit Off.qyAlarm 4 = true ∧ b.count Off.qyUnknownLo = min (s.blk.count Off.qyUnknownLo + 1) (2 ^ 48 - 1) := by
  refine does_upd (exec_remoteCompletion_unknown up good unknown) ?_ ⟨rfl, ?_, (s.blk.takeClaimed sd f).bump_count ..⟩
  · exact Block.orReg_keeps (.of_subset (by simp)) (Block.bump_keeps (.of_subset (by simp))
      (Block.takeClaimed_keeps (.of_subset (by simp)) (.refl ..)))
  · rw [Block.regBit_orReg]; simp

/-! ### REMOTE_WRITE_TIMEOUT (R171) -/

theorem does_remoteWriteTimeout {tag : BitVec 16}
    (found : (s.blk.qy.rems.find? fun x => x.tag == tag.toNat && x.sentAt.isSome && s.blk.olderThan (8 * usTicks) x.sentAt) = some w) :
    Does (.remoteWriteTimeout tag) s [.count Off.qyCplDiscardLo, .events, .ins, .qy, .reg Off.lgAlarm] fun b =>
      b.qy.rems = s.blk.qy.rems.filter fun x => x.tag != tag.toNat := by
  have matched := List.find?_some found
  simp only [Bool.and_eq_true, beq_iff_eq] at matched
  obtain ⟨⟨tagged, -⟩, -⟩ := matched
  have made : exec (.remoteWriteTimeout tag) s = s.upd (·.remEnds w .missing) := by
    refine exec_upd_of (execRemoteWriteTimeout.eq_def tag s) ?_
    simp only [found]
  refine does_framed made (execRemoteWriteTimeout_kept tag) .refl ?_
  rw [← tagged]
  exact Block.remEnds_rems ..

/-! ### CREDIT_RETURN (R164, R191) -/

/-- The credits that a side owes a source. -/
abbrev Block.owes (b : Block) (sd : Side) (src : BitVec 15) : Nat := tget (fun _ => 0) (b.side sd).owed src.toNat

/-- The debt of a side to a source, but for `k` credits returned. -/
def Block.repaid (b : Block) (sd : Side) (src : BitVec 15) (k : Nat) : Block :=
  b.modSide sd fun x => { x with owed := tset (fun _ => 0) x.owed src.toNat (b.owes sd src - k) }

/-- The CREDIT that returns `k` credits to a source (R191). -/
def Block.creditFlit (b : Block) (sd : Side) (src : BitVec 15) (k : Nat) : Ins :=
  { side := sd, level := 1, quayIn := b.ck.tide, boundNs := 0xFFFFFFFF
    flit := { kind := 1, vl := true, opcode := 0x7F, dest := src, src := b.selfId, arg := BitVec.ofNat 32 k } }

theorem Block.repaid_owes (b : Block) (sd : Side) (src : BitVec 15) (k : Nat) : (b.repaid sd src k).owes sd src = b.owes sd src - k := by
  rw [Block.owes, Block.repaid, Block.side_modSide_same, tget_tset_same]

theorem Block.repaid_kept (b : Block) (sd : Side) (src : BitVec 15) (k : Nat) : Kept [.side sd] b (b.repaid sd src k) := b.modSide_kept ..

theorem Block.repaid_seg (b : Block) (sd : Side) (src : BitVec 15) (k : Nat) : ((b.repaid sd src k).side sd).seg = (b.side sd).seg := by
  rw [Block.repaid, Block.side_modSide_same]

/-- One CREDIT toward a source for all that it is owed, 65,535 at most. -/
def Block.returnCredit (b : Block) (sd : Side) (src : BitVec 15) : Block :=
  let k := min (b.owes sd src) 65535
  (b.repaid sd src k).withIns ((b.repaid sd src k).creditFlit sd src k)

theorem exec_creditReturn_owed {src : BitVec 15} (up : s.blk.qyUp = true) (owed : s.blk.owes sd src ≠ 0) (run : (s.blk.side sd).seg = .run) :
    exec (.creditReturn sd src) s = s.upd (·.returnCredit sd src) := by
  have serves : ¬ (s.blk.owes sd src = 0 ∨ ¬ (s.blk.qyUp = true ∨ s.blk.regBit Off.fwCtrl 1 = true)) := by simp [owed, up]
  exact exec_upd_of (execCreditReturn.eq_def sd src s) ((if_neg serves).trans (Block.putIns_run ((Block.repaid_seg ..).trans run)))

theorem does_creditReturn {src : BitVec 15} (up : s.blk.qyUp = true) (owed : s.blk.owes sd src ≠ 0) (run : (s.blk.side sd).seg = .run) :
    Does (.creditReturn sd src) s [.ins, .side sd] fun b =>
      b.owes sd src = s.blk.owes sd src - 65535 ∧ b.qy.ins.dropLast = s.blk.qy.ins
        ∧ (b.qy.ins.getLast?.map fun i => (i.level, i.side, i.flit.opcode, i.flit.dest, i.flit.arg.toNat))
            = some (1, sd, 0x7F, src, min (s.blk.owes sd src) 65535) := by
  have same : (s.blk.repaid sd src (min (s.blk.owes sd src) 65535)).qy = s.blk.qy :=
    (Block.repaid_kept ..).qyEq (by simp [Piece.among]) (by simp [Piece.among])
  refine does_upd (exec_creditReturn_owed up owed run) ?_ ⟨?_, ?_, ?_⟩
  · exact Kept.step (Block.withIns_kept ..) (.of_subset (by simp)) ((Block.repaid_kept ..).mono (.of_subset (by simp)))
  · have left := s.blk.repaid_owes sd src (min (s.blk.owes sd src) 65535)
    have kept : ∀ (d : Block) (i : Ins), (d.withIns i).owes sd src = d.owes sd src := fun d i => by cases sd <;> rfl
    rw [Block.returnCredit, kept, left]
    omega
  · rw [Block.returnCredit, Block.withIns, same]
    exact List.dropLast_concat
  · simp [Block.returnCredit, Block.withIns, Block.creditFlit]

/-! ### CREDIT_STALL (R192) -/

theorem does_creditStall {t : Tide} (low : (s.blk.side sd).lowSince = some t) (granted : 4 ≤ s.blk.creditUnits sd)
    (run : (s.blk.side sd).seg = .run) (few : s.blk.balance sd ≤ 8) (long : 2 * usTicks ≤ s.blk.since t) :
    Does (.creditStall sd) s [.events, .reg Off.lgAlarm, .reg Off.qyAlarm] fun b => b.regBit Off.qyAlarm (sideNo sd) = true := by
  have made : exec (.creditStall sd) s
      = s.upd fun b => (b.orReg Off.qyAlarm (BitVec.ofNat 32 (2 ^ sideNo sd))).event .quayCreditStall (sideNo sd) := by
    refine exec_upd_of (execCreditStall.eq_def sd s) ?_
    simp only [low, if_pos (And.intro granted (And.intro run (And.intro few long)))]
    cases sd <;> rfl
  refine does_framed made (execCreditStall_kept sd) .refl ?_
  have logged (d : Block) (e : Ev) (u : Nat) : (d.event e u).reg Off.qyAlarm = d.reg Off.qyAlarm :=
    (d.event_kept e u []).out (.reg Off.qyAlarm) (by simp [Piece.among, Off.qyAlarm, Off.lgAlarm])
  rw [Block.regBit, logged, ← Block.regBit, Block.regBit_orReg]
  cases sd <;> simp [sideNo]

end

/-- Settles O31: credits by the balance's own rule, remote writes by the tag that their end releases. -/
theorem creditsAndRemoteWrites : Obligations.CreditsAndRemoteWrites := by
  unfold Obligations.CreditsAndRemoteWrites
  exact ⟨fun _ _ _ => does_credit_good, fun _ _ _ => does_credit_bad, fun _ _ _ _ => does_remoteCompletion_matched,
    fun _ _ _ _ _ up good found _ ok => does_remoteCompletion_ok up good found ok, fun _ _ _ => does_remoteCompletion_malformed,
    fun _ _ _ => does_remoteCompletion_unknown, fun _ _ _ => does_creditReturn,
    fun _ sd _ low granted run few long => by cases sd <;> exact does_creditStall low granted run few long,
    fun _ _ _ => does_remoteWriteTimeout⟩

end Sys2Proof.Machine
end

section
/-! SUPPORT. The manifests of charters: an opening by its checks in their order (R455), a closing by the charter's state, and what the table
shows of the index concerned. -/

namespace Sys2Proof.Machine

open Sys2Proof CharterDesc'

/-! ### One charter of the table -/

@[simp] theorem Block.charter_setCharter_same (b : Block) (c : Nat) (v : Charter) : (b.setCharter c v).charter c = v := tget_tset_same ..

@[simp] theorem Block.charter_modCharter_same (b : Block) (c : Nat) (f : Charter → Charter) : (b.modCharter c f).charter c = f (b.charter c) :=
  Block.charter_setCharter_same ..

theorem Block.charter_freeCharter (b : Block) (c : Nat) : (b.freeCharter c).charter c = (b.charter c).freed := b.charter_modCharter_same c Charter.freed

/-- A manifest's completion leaves the table of charters. -/
theorem Block.charter_finish (b : Block) (m : ManRef) (op st : Nat) (r : List Byte) (d : Detail) (c : Nat) :
    (b.finish m op st r d).charter c = b.charter c := (Block.finish_kept ..).charter c

theorem Charter.full_desc (x : Charter) : x.full.desc = x.desc := by
  unfold Charter.full
  split <;> rfl

/-! ### The receipt of a refusal -/

theorem Block.finish_reason (b : Block) (m : ManRef) (op st : Nat) (r : List Byte) (d : Detail) :
    ((b.finish m op st r d).slot (slotKey m.ring m.seq)).reason = d.reason := by
  rw [Block.slot, Block.finish_mf, tget_tset_same]

theorem openResult_length (c : Nat) (d : CharterDesc) : (openResult c d).length = 12 := by simp [openResult, leBytes_length]

theorem queryResult_length (x : Charter) : (queryResult x).length = 64 := by
  unfold queryResult
  split <;> simp [bytes, leBytes_length]

/-- The block's answer to an opening that is not admitted: ADMIT_REFUSED, with the reason of what barred it (R210). -/
def Block.refusesOpening (b : Block) (m : ManRef) (reason : BitVec 8) : Prop :=
  b.doneWith m Mop.charterOpen St.admitRefused [] ∧ (b.slot (slotKey m.ring m.seq)).reason = reason

theorem Block.admitRefused_refuses (b : Block) (m : ManRef) (x : Short) : (b.admitRefused m x).refusesOpening m (BitVec.ofNat 8 x.reason) :=
  ⟨Block.finish_doneWith b _ (by decide) (by decide) (by decide), Block.finish_reason ..⟩

/-! ### CHARTER_OPEN (R209 to R211, R455) -/

/-- What CHARTER_OPEN makes of the block: its checks, or BUSY_RETRY while a pass runs or another opening waits (R318). -/
def Block.openAsked (b : Block) (m : ManRef) (d : CharterDesc) : Block :=
  if legal d ∧ (b.chs.passDue ∨ ¬ b.chs.waking.isEmpty) then b.finish m Mop.charterOpen St.busyRetry else b.charterOpen m d

theorem exec_charterOpen_man (m : ManRef) (d : CharterDesc) (s : State) :
    exec (.charterOpen m d) s = s.man m Mop.charterOpen (·.openAsked m d) := rfl

section
variable {b : Block} {m : ManRef} {d : CharterDesc}

theorem Block.openAsked_illegal (bad : legal d = false) : b.openAsked m d = b.finish m Mop.charterOpen St.badParam := by
  simp [Block.openAsked, Block.charterOpen, bad]

theorem Block.openAsked_busy (good : legal d = true) (busy : b.chs.passDue = true ∨ b.chs.waking ≠ []) :
    b.openAsked m d = b.finish m Mop.charterOpen St.busyRetry := if_pos ⟨good, by simpa using busy⟩

theorem Block.openAsked_idle (still : b.chs.passDue = false) (none_ : b.chs.waking = []) : b.openAsked m d = b.charterOpen m d :=
  if_neg (by simp [still, none_])

/-- The reason for which a legal opening is refused before its capability is looked at (R210). -/
def Block.openBar (b : Block) (d : CharterDesc) : Nat := if b.pw.st ≠ .openS then 0x01 else if b.overlapped d ≠ [] then 0x03 else 0x0D

theorem Block.charterOpen_barred (good : legal d = true) (bar : b.pw.st ≠ .openS ∨ b.overlapped d ≠ [] ∨ b.suspendeds ≠ []) :
    ∃ x : Short, x.reason = b.openBar d ∧ (b.charterOpen m d = b.admitRefused m x ∨ b.charterOpen m d = (b.admitRefused m x).draw) := by
  unfold Block.charterOpen Block.openBar
  by_cases shut : b.pw.st ≠ .openS
  · exact ⟨⟨0x01, 0, 0, 0⟩, by simp [shut], .inl (by simp [good, shut])⟩
  by_cases clash : b.overlapped d ≠ []
  · exact ⟨⟨0x03, b.pickOf (b.overlapped d), 0, 0⟩, by simp [shut, clash], .inr (by simp [good, shut, clash])⟩
  · have held := (bar.resolve_left shut).resolve_left clash
    exact ⟨⟨0x0D, b.pickOf (b.suspendeds.map (·.1)), 0, 0⟩, by simp [shut, clash], .inr (by simp [good, shut, clash, held])⟩

/-- The descriptor meets every check of an opening but that of its capability (R455). -/
structure Block.mayOpen (b : Block) (d : CharterDesc) : Prop where
  good : legal d = true
  serving : b.pw.st = .openS
  apart : b.overlapped d = []
  restored : b.suspendeds = []
  room : (b.chartersIn fun _ => true).length < 4096

theorem Block.charterOpen_short {x : Short} (may : b.mayOpen d) (short : b.check true (b.actives.map (·.2) ++ [d]) = some x) :
    b.charterOpen m d = b.noteUse.admitRefused m x := by
  obtain ⟨good, serving, apart, restored, room⟩ := may
  simp [Block.charterOpen, good, serving, apart, restored, Nat.not_le.2 room, short]

theorem Block.charterOpen_admits (may : b.mayOpen d) (passes : b.check true (b.actives.map (·.2) ++ [d]) = none) :
    b.charterOpen m d = b.noteUse.enroll m d := by
  obtain ⟨good, serving, apart, restored, room⟩ := may
  simp [Block.charterOpen, good, serving, apart, restored, Nat.not_le.2 room, passes]

/-! ### A charter that has been admitted (R202, R211, R262) -/

/-- The index that a charter opened now gets (log 11). -/
def Block.nextIndex (b : Block) : Nat := b.pickOf b.freeIndices

theorem Block.pickOf_mem (b : Block) {xs : List Nat} (some_ : xs ≠ []) : b.pickOf xs ∈ xs := by
  have inside : Config.pick b.fresh % xs.length < xs.length := Nat.mod_lt _ (List.length_pos_iff.2 some_)
  rw [Block.pickOf, List.getD_eq_getElem _ _ inside]
  exact List.getElem_mem inside

/-- The block with the charter listed under its index, not yet ACTIVE. -/
def Block.listed (b : Block) (d : CharterDesc) : Block :=
  { (b.setCharter b.nextIndex { desc := some d, opened := b.chs.opens + 1 }).draw with chs.opens := b.chs.opens + 1 }

theorem Block.noteUse_enroll (b : Block) (m : ManRef) (d : CharterDesc) :
    b.noteUse.enroll m d = (b.noteUse.listed d).startCharter b.nextIndex (some m) := rfl

theorem Block.listed_charter (b : Block) (d : CharterDesc) :
    (b.noteUse.listed d).charter b.nextIndex = { desc := some d, opened := b.chs.opens + 1 } :=
  b.noteUse.charter_setCharter_same b.nextIndex { desc := some d, opened := b.chs.opens + 1 }

theorem Block.startCharter_activates {c : Nat} {x : Option ManRef} (desc : (b.charter c).desc = some d)
    (awake : noSleep d = false ∨ b.allAwake d = true) : b.startCharter c x = b.activate c x := by
  rw [Block.startCharter, desc]
  exact if_neg fun ⟨pinned, asleep⟩ => awake.elim (fun free => by simp [free] at pinned) asleep

theorem Block.startCharter_waits {c : Nat} {x : Option ManRef} (desc : (b.charter c).desc = some d)
    (pinned : noSleep d = true) (asleep : b.allAwake d = false) :
    b.startCharter c x = { b.wakeFor d with chs.waking := b.chs.waking ++ [(c, x)] } := by
  rw [Block.startCharter, desc]
  exact if_pos ⟨pinned, by simp [asleep]⟩

theorem Block.activate_opened {c : Nat} (desc : (b.charter c).desc = some d) :
    b.activate c (some m) = (b.setCharter c { (b.charter c).full with st := .active }).finish m Mop.charterOpen St.ok (openResult c d) := by
  simp only [Block.activate, desc]

end

section
variable {s : State} {m : ManRef} {d : CharterDesc} {post : Block → Prop}

/-- An opening that passes its checks does what its enrolment shows. -/
theorem does_enroll (mans : s.blk.mans Mop.charterOpen) (still : s.blk.chs.passDue = false) (none_ : s.blk.chs.waking = []) (may : s.blk.mayOpen d)
    (passes : s.blk.check true (s.blk.actives.map (·.2) ++ [d]) = none) (h : post ((s.blk.noteUse.listed d).startCharter s.blk.nextIndex (some m))) :
    Does (.charterOpen m d) s [.chans, .chs, .events, .fresh, .ins, .reg Off.lgAlarm, .running, .slots] post := by
  have made : s.blk.charterOpen m d = (s.blk.noteUse.listed d).startCharter s.blk.nextIndex (some m) :=
    (Block.charterOpen_admits may passes).trans (Block.noteUse_enroll ..)
  exact does_man (exec_charterOpen_man m d s) mans ((Block.openAsked_idle still none_).trans made) (made ▸ Block.charterOpen_kept s.blk m d) h

theorem charterOpen_active (mans : s.blk.mans Mop.charterOpen) (still : s.blk.chs.passDue = false) (none_ : s.blk.chs.waking = [])
    (may : s.blk.mayOpen d) (passes : s.blk.check true (s.blk.actives.map (·.2) ++ [d]) = none) (free : s.blk.freeIndices ≠ [])
    (awake : noSleep d = false ∨ s.blk.allAwake d = true) :
    Does (.charterOpen m d) s [.chans, .chs, .events, .fresh, .ins, .reg Off.lgAlarm, .running, .slots] fun b =>
      (b.charter s.blk.nextIndex).st = .active ∧ (b.charter s.blk.nextIndex).desc = some d
        ∧ b.doneWith m 0x0010 0x00 (openResult s.blk.nextIndex d) ∧ s.blk.nextIndex ∈ s.blk.freeIndices := by
  have desc := congrArg Charter.desc (s.blk.listed_charter d)
  refine does_enroll mans still none_ may passes ?_
  rw [Block.startCharter_activates desc awake, Block.activate_opened desc]
  refine ⟨?_, ?_, Block.finish_doneWith _ _ (by decide) (by decide) (by simp [openResult_length]), s.blk.pickOf_mem free⟩
  · rw [Block.charter_finish, Block.charter_setCharter_same]
  · rw [Block.charter_finish, Block.charter_setCharter_same]
    exact (Charter.full_desc _).trans desc

theorem charterOpen_waits (mans : s.blk.mans Mop.charterOpen) (still : s.blk.chs.passDue = false) (none_ : s.blk.chs.waking = [])
    (may : s.blk.mayOpen d) (passes : s.blk.check true (s.blk.actives.map (·.2) ++ [d]) = none) (pinned : noSleep d = true)
    (asleep : s.blk.allAwake d = false) :
    Does (.charterOpen m d) s [.chans, .chs, .events, .fresh, .ins, .reg Off.lgAlarm, .running, .slots] fun b =>
      b.chs.waking = [(s.blk.nextIndex, some m)] ∧ (b.charter s.blk.nextIndex).desc = some d ∧ (b.charter s.blk.nextIndex).st = .free := by
  have listed := s.blk.listed_charter d
  have waits : (s.blk.noteUse.listed d).chs.waking = [] := none_
  have woken : ((s.blk.noteUse.listed d).wakeFor d).charter s.blk.nextIndex = _ := ((Block.wakeFor_kept ..).charter s.blk.nextIndex).trans listed
  refine does_enroll mans still none_ may passes ?_
  rw [Block.startCharter_waits (congrArg Charter.desc listed) pinned asleep, waits]
  exact ⟨rfl, congrArg Charter.desc woken, congrArg Charter.st woken⟩

theorem charterOpen_short {x : Short} (mans : s.blk.mans Mop.charterOpen) (still : s.blk.chs.passDue = false) (none_ : s.blk.chs.waking = [])
    (may : s.blk.mayOpen d) (short : s.blk.check true (s.blk.actives.map (·.2) ++ [d]) = some x) :
    Does (.charterOpen m d) s [.chs, .slots, .running, .ins] fun b =>
      b.doneWith m 0x0010 0x0B [] ∧ (b.slot (slotKey m.ring m.seq)).reason = BitVec.ofNat 8 x.reason ∧ b.chs.tab = s.blk.chs.tab := by
  obtain ⟨done, reason⟩ := s.blk.noteUse.admitRefused_refuses m x
  refine does_finish (exec_charterOpen_man m d s) mans ((Block.openAsked_idle still none_).trans (Block.charterOpen_short may short))
    ((Block.noteUse_kept _).mono (Within.of rfl)) (Within.of rfl) ⟨done, reason, ?_⟩
  rw [Block.finish_chs]
  rfl

theorem charterOpen_barred (mans : s.blk.mans Mop.charterOpen) (still : s.blk.chs.passDue = false) (none_ : s.blk.chs.waking = [])
    (good : legal d = true) (bar : s.blk.pw.st ≠ .openS ∨ s.blk.overlapped d ≠ [] ∨ s.blk.suspendeds ≠ []) :
    Does (.charterOpen m d) s [.slots, .running, .ins, .fresh] fun b =>
      b.doneWith m 0x0010 0x0B [] ∧ (b.slot (slotKey m.ring m.seq)).reason =
        (if s.blk.pw.st ≠ .openS then 0x01 else if s.blk.overlapped d ≠ [] then 0x03 else 0x0D) := by
  obtain ⟨x, reason, made⟩ := Block.charterOpen_barred (m := m) good bar
  have code : BitVec.ofNat 8 x.reason = if s.blk.pw.st ≠ .openS then 0x01 else if s.blk.overlapped d ≠ [] then 0x03 else 0x0D := by
    rw [reason, Block.openBar]
    split_ifs <;> rfl
  have refused := code ▸ s.blk.admitRefused_refuses m x
  have frame := (s.blk.admitRefused_kept m x).mono (qs := [.slots, .running, .ins, .fresh]) (Within.of rfl)
  have asked := (Block.openAsked_idle (b := s.blk) (m := m) (d := d) still none_)
  rcases made with made | made
  · exact does_man (exec_charterOpen_man m d s) mans (asked.trans made) frame refused
  · exact does_man (exec_charterOpen_man m d s) mans (asked.trans made) (Kept.step (Block.draw_kept _) (Within.of rfl) frame) refused

theorem charterOpen_illegal (mans : s.blk.mans Mop.charterOpen) (bad : legal d = false) :
    Does (.charterOpen m d) s [.slots, .running, .ins] fun b => b.doneWith m 0x0010 0x04 [] :=
  does_answer (exec_charterOpen_man m d s) mans (Block.openAsked_illegal bad) (by decide) (by decide) (by decide)

theorem charterOpen_busy (mans : s.blk.mans Mop.charterOpen) (good : legal d = true) (busy : s.blk.chs.passDue = true ∨ s.blk.chs.waking ≠ []) :
    Does (.charterOpen m d) s [.slots, .running, .ins] fun b => b.doneWith m 0x0010 0x07 [] :=
  does_answer (exec_charterOpen_man m d s) mans (Block.openAsked_busy good busy) (by decide) (by decide) (by decide)

end

/-! ### CHARTER_CLOSE, CHARTER_CLOSE_DONE and CHARTER_QUERY (R212, R318, R327) -/

/-- What CHARTER_CLOSE makes of the block: the closing, or BUSY_RETRY while a pass runs (R318). -/
def Block.closeAsked (b : Block) (m : ManRef) (c : Nat) : Block :=
  if c < 4096 ∧ b.passBusy then b.finish m Mop.charterClose St.busyRetry else b.charterClose m c

theorem exec_charterClose_man (m : ManRef) (c : BitVec 16) (s : State) :
    exec (.charterClose m c) s = s.man m Mop.charterClose (·.closeAsked m c.toNat) := rfl

section
variable {b : Block} {m : ManRef} {c : Nat}

theorem Block.closeAsked_busy (low : c < 4096) (busy : b.passBusy = true) : b.closeAsked m c = b.finish m Mop.charterClose St.busyRetry :=
  if_pos ⟨low, busy⟩

theorem Block.closeAsked_outside (high : 4096 ≤ c) : b.closeAsked m c = b.finish m Mop.charterClose St.badParam :=
  (if_neg fun ⟨low, _⟩ => Nat.not_lt.2 high low).trans (if_pos high)

theorem Block.closeAsked_still (still : b.passBusy = false) : b.closeAsked m c = b.charterClose m c := if_neg (by simp [still])

section
variable (still : b.passBusy = false) (low : c < 4096)
include still low

theorem Block.closeAsked_free (st : (b.charter c).st = .free) : b.closeAsked m c = b.finish m Mop.charterClose St.badParam := by
  rw [Block.closeAsked_still still, Block.charterClose, if_neg (Nat.not_le.2 low), st]

theorem Block.closeAsked_closing (st : (b.charter c).st = .closing) : b.closeAsked m c = b.finish m Mop.charterClose St.refused := by
  rw [Block.closeAsked_still still, Block.charterClose, if_neg (Nat.not_le.2 low), st]

theorem Block.closeAsked_suspended (st : (b.charter c).st = .suspended) :
    b.closeAsked m c = (b.freeCharter c).finish m Mop.charterClose St.ok := by
  rw [Block.closeAsked_still still, Block.charterClose, if_neg (Nat.not_le.2 low), st]

theorem Block.closeAsked_active (st : (b.charter c).st = .active) :
    b.closeAsked m c = b.modCharter c fun x => { x with st := .closing, waiter := some m } := by
  rw [Block.closeAsked_still still, Block.charterClose, if_neg (Nat.not_le.2 low), st]

end

theorem Block.charterCloseDone_idle (h : (b.charter c).st ≠ .closing ∨ b.charterBusy c = true) : b.charterCloseDone c = b := if_pos h

theorem Block.charterCloseDone_frees (closing : (b.charter c).st = .closing) (idle : b.charterBusy c = false)
    (waiter : (b.charter c).waiter = some m) : b.charterCloseDone c = (b.freeCharter c).finish m Mop.charterClose St.ok := by
  simp [Block.charterCloseDone, closing, idle, waiter]

end

section
variable {s : State} {m : ManRef} {c : BitVec 16}

theorem charterClose_active (mans : s.blk.mans Mop.charterClose) (still : s.blk.passBusy = false) (low : c.toNat < 4096)
    (st : (s.blk.charter c.toNat).st = .active) :
    Does (.charterClose m c) s [.chs] fun b => b.charter c.toNat = { s.blk.charter c.toNat with st := .closing, waiter := some m } :=
  does_man (exec_charterClose_man m c s) mans (Block.closeAsked_active still low st) (Block.modCharter_kept ..) (Block.charter_modCharter_same ..)

/-- A charter that goes out of the table with the completion of its closing. -/
theorem does_freed {i : Instr} {f : Block → Block} {k : Nat} (e : exec i s = s.upd f)
    (made : f s.blk = (s.blk.freeCharter k).finish m Mop.charterClose St.ok) :
    Does i s [.chs, .ins, .running, .slots] fun b => b.charter k = (s.blk.charter k).freed ∧ b.doneWith m 0x0011 0x00 [] := by
  refine does_upd_eq e made (Kept.step (Block.finish_kept ..) (Within.of rfl) ((Block.freeCharter_kept ..).mono (Within.of rfl)))
    ⟨?_, Block.finish_doneWith _ _ (by decide) (by decide) (by decide)⟩
  rw [Block.charter_finish, Block.charter_freeCharter]

theorem charterClose_suspended (mans : s.blk.mans Mop.charterClose) (still : s.blk.passBusy = false) (low : c.toNat < 4096)
    (st : (s.blk.charter c.toNat).st = .suspended) :
    Does (.charterClose m c) s [.chs, .ins, .running, .slots] fun b =>
      b.charter c.toNat = (s.blk.charter c.toNat).freed ∧ b.doneWith m 0x0011 0x00 [] :=
  does_freed ((exec_charterClose_man m c s).trans (State.man_accepted _ mans)) (Block.closeAsked_suspended still low st)

theorem charterClose_none (mans : s.blk.mans Mop.charterClose)
    (h : 4096 ≤ c.toNat ∨ ((s.blk.charter c.toNat).st = .free ∧ s.blk.passBusy = false)) :
    Does (.charterClose m c) s [.slots, .running, .ins] fun b => b.doneWith m 0x0011 0x04 [] := by
  refine does_answer (d := {}) (exec_charterClose_man m c s) mans ?_ (by decide) (by decide) (by decide)
  rcases Nat.lt_or_ge c.toNat 4096 with low | high
  · obtain ⟨st, still⟩ := h.resolve_left (Nat.not_le.2 low)
    exact Block.closeAsked_free still low st
  · exact Block.closeAsked_outside high

theorem charterClose_closing (mans : s.blk.mans Mop.charterClose) (still : s.blk.passBusy = false) (low : c.toNat < 4096)
    (st : (s.blk.charter c.toNat).st = .closing) : Does (.charterClose m c) s [.slots, .running, .ins] fun b => b.doneWith m 0x0011 0x02 [] :=
  does_answer (exec_charterClose_man m c s) mans (Block.closeAsked_closing still low st) (by decide) (by decide) (by decide)

theorem charterClose_busy (mans : s.blk.mans Mop.charterClose) (low : c.toNat < 4096) (busy : s.blk.passBusy = true) :
    Does (.charterClose m c) s [.slots, .running, .ins] fun b => b.doneWith m 0x0011 0x07 [] :=
  does_answer (exec_charterClose_man m c s) mans (Block.closeAsked_busy low busy) (by decide) (by decide) (by decide)

theorem exec_charterCloseDone_upd (k : BitVec 12) (s : State) :
    exec (.charterCloseDone k) s = s.upd fun b => if b.live then b.charterCloseDone k.toNat else b := rfl

theorem charterCloseDone_frees {k : BitVec 12} (live : s.blk.live = true) (closing : (s.blk.charter k.toNat).st = .closing)
    (idle : s.blk.charterBusy k.toNat = false) (waiter : (s.blk.charter k.toNat).waiter = some m) :
    Does (.charterCloseDone k) s [.chs, .ins, .running, .slots] fun b =>
      b.charter k.toNat = (s.blk.charter k.toNat).freed ∧ b.doneWith m 0x0011 0x00 [] :=
  does_freed (exec_charterCloseDone_upd k s) ((if_pos live).trans (Block.charterCloseDone_frees closing idle waiter))

theorem exec_charterCloseDone_idle {k : BitVec 12} (h : (s.blk.charter k.toNat).st ≠ .closing ∨ s.blk.charterBusy k.toNat = true) :
    exec (.charterCloseDone k) s = .next s := by
  refine exec_upd_same (exec_charterCloseDone_upd k s) ?_
  rw [Block.charterCloseDone_idle h, ite_self]

theorem exec_charterQuery_man (m : ManRef) (c : BitVec 16) (s : State) :
    exec (.charterQuery m c) s = s.man m Mop.charterQuery (·.charterQuery m c.toNat) := rfl

theorem charterQuery_answers (mans : s.blk.mans Mop.charterQuery) (low : c.toNat < 4096) :
    Does (.charterQuery m c) s [.slots, .running, .ins] fun b => b.doneWith m 0x0012 0x00 (queryResult (s.blk.charter c.toNat)) :=
  does_answer (exec_charterQuery_man m c s) mans (if_neg (Nat.not_le.2 low)) (by decide) (by decide) (by simp [queryResult_length])

theorem charterQuery_outside (mans : s.blk.mans Mop.charterQuery) (high : 4096 ≤ c.toNat) :
    Does (.charterQuery m c) s [.slots, .running, .ins] fun b => b.doneWith m 0x0012 0x04 [] :=
  does_answer (exec_charterQuery_man m c s) mans (if_pos high) (by decide) (by decide) (by decide)

end

/-- Settles O43: an opening by the first check that bars it, a closing by the charter's state. -/
theorem chartersOpenAndClose : Obligations.ChartersOpenAndClose := by
  unfold Obligations.ChartersOpenAndClose
  exact ⟨fun _ _ _ mans still none_ good serving apart restored room passes free awake =>
      charterOpen_active mans still none_ ⟨good, serving, apart, restored, room⟩ passes free awake,
    fun _ _ _ mans still none_ good serving apart restored room passes _ pinned asleep =>
      charterOpen_waits mans still none_ ⟨good, serving, apart, restored, room⟩ passes pinned asleep,
    fun _ _ _ _ mans still none_ good serving apart restored room short =>
      charterOpen_short mans still none_ ⟨good, serving, apart, restored, room⟩ short,
    fun _ _ _ => charterOpen_barred, fun _ _ _ => charterOpen_illegal, fun _ _ _ => charterOpen_busy,
    fun _ _ _ => charterClose_active, fun _ _ _ => charterClose_suspended, fun _ _ _ => charterClose_none, fun _ _ _ => charterClose_closing,
    fun _ _ _ => charterCloseDone_frees, fun _ _ => exec_charterCloseDone_idle, fun _ _ _ => charterQuery_answers,
    fun _ _ _ => charterClose_busy, fun _ _ _ => charterQuery_outside⟩

end Sys2Proof.Machine
end

section
/-! SUPPORT. The two passes of the charters: a shortfall pass suspends and lets steps take effect, a restore pass activates (R213 to R215). -/

namespace Sys2Proof.Machine

open Sys2Proof CharterDesc'

/-! ### Suspensions (R214) -/

/-- A suspension makes no charter ACTIVE. -/
theorem Block.suspend_active (b : Block) (c reason k : Nat) (h : ((b.suspend c reason).charter k).st = .active) : (b.charter k).st = .active := by
  rw [Block.suspend, (Block.event_kept ..).charter, (Block.orReg_kept ..).charter, Block.charter_modCharter] at h
  split at h
  · cases h
  · exact h

theorem Block.shortfall_active (b : Block) (n k : Nat) (h : ((b.shortfall n).charter k).st = .active) : (b.charter k).st = .active := by
  induction n generalizing b with
  | zero => exact h
  | succ n ih =>
    rw [Block.shortfall] at h
    split at h
    · exact h
    · split at h
      · exact b.suspend_active _ _ k (ih _ h)
      · exact h

theorem Block.shortfall_passes {b : Block} (passes : b.check false (b.actives.map (·.2)) = none) (n : Nat) : b.shortfall n = b := by
  cases n with
  | zero => rfl
  | succ n => rw [Block.shortfall, passes]

/-! ### Steps that waited for their pass (R213, R253) -/

/-- The channel's waiting step, if it has one, has taken effect. -/
def Chan.stepped (x y : Chan) : Prop := y.stepDue = none ∧ y.step = x.stepDue.getD x.step

theorem Chan.stepped_trans {x y z : Chan} (h : x.stepped y) (k : y.stepped z) : x.stepped z := by
  obtain ⟨none_, step⟩ := h
  obtain ⟨gone, kept⟩ := k
  exact ⟨gone, by rw [kept, none_, Option.getD_none, step]⟩

theorem Block.applyStep_chan (b : Block) (n : Nat) (v : Fin 8) : ((b.applyStep n v).chan n).stepDue = none ∧ ((b.applyStep n v).chan n).step = v := by
  unfold Block.applyStep
  dsimp only
  generalize made : b.modChan n _ = c
  have chan : (c.chan n).stepDue = none ∧ (c.chan n).step = v := by
    rw [← made, Block.chan_modChan]
    exact ⟨rfl, rfl⟩
  have berth (f : Berth → Berth) : (c.modBerth n f).chan n = c.chan n := (c.modBerth_kept n f).out (.chan n) (by simp [Piece.among])
  split
  · rw [(Block.orReg_kept ..).out (.chan n) (by simp [Piece.among]), berth]
    exact chan
  · rw [berth]
    exact chan

/-- The waiting step of one channel takes effect. -/
def Block.applyDueAt (b : Block) (n : Nat) : Block :=
  match (b.chan n).stepDue with
  | some v => b.applyStep n v
  | none => b

theorem Block.applyDueAt_stepped (b : Block) (n : Nat) : (b.chan n).stepped ((b.applyDueAt n).chan n) := by
  unfold Block.applyDueAt Chan.stepped
  split
  · next v due => rw [due]; exact b.applyStep_chan n v
  · next none_ => rw [none_]; exact ⟨rfl, rfl⟩

theorem Block.applyDueAt_other (b : Block) {n k : Nat} (other : n ≠ k) : (b.applyDueAt n).chan k = b.chan k := by
  unfold Block.applyDueAt
  split
  · exact (b.applyStep_kept ..).out (.chan k) (by simpa [Piece.among] using other.symm)
  · rfl

/-- Over a list of channels each one listed has its step, and the others stay. -/
theorem Block.applyDueAt_each (b : Block) (ns : List Nat) (k : Nat) :
    (k ∈ ns → (b.chan k).stepped ((b.each ns Block.applyDueAt).chan k)) ∧ (k ∉ ns → (b.each ns Block.applyDueAt).chan k = b.chan k) := by
  unfold Block.each
  induction ns generalizing b with
  | nil => exact ⟨fun h => (List.not_mem_nil h).elim, fun _ => rfl⟩
  | cons n ns ih =>
    obtain ⟨listed, unlisted⟩ := ih (b.applyDueAt n)
    rw [List.foldl_cons]
    by_cases e : n = k
    · subst e
      refine ⟨fun _ => ?_, fun out => (out List.mem_cons_self).elim⟩
      by_cases again : n ∈ ns
      · exact Chan.stepped_trans (b.applyDueAt_stepped n) (listed again)
      · rw [unlisted again]
        exact b.applyDueAt_stepped n
    · have same := b.applyDueAt_other e
      rw [same] at listed unlisted
      exact ⟨fun h => listed ((List.mem_cons.1 h).resolve_left fun h => e h.symm), fun out => unlisted fun h => out (List.mem_cons_of_mem _ h)⟩

theorem Block.applyDue_stepped (b : Block) {n : Nat} (low : n < 64) : (b.chan n).stepped (b.applyDue.chan n) :=
  (b.applyDueAt_each (List.range 64) n).1 (List.mem_range.2 low)

/-! ### SHORTFALL_PASS_DONE -/

/-- The block after the suspensions of a pass and the steps that waited for it. -/
def Block.afterPass (b : Block) : Block := (b.noteUse.shortfall b.noteUse.actives.length).applyDue

/-- The block with no pass due. -/
def Block.passOver (b : Block) : Block := { b with chs.passDue := false }

theorem Block.passOver_tab (b : Block) : b.passOver.chs.tab = b.chs.tab := rfl

theorem Block.passOver_charter (b : Block) (k : Nat) : b.passOver.charter k = b.charter k := rfl

theorem Block.passOver_chan (b : Block) (n : Nat) : b.passOver.chan n = b.chan n := rfl

theorem Block.shortfallPass_due {b : Block} (live : b.live = true) (due : b.chs.passDue = true) :
    b.shortfallPass = b.afterPass.passOver := by
  unfold Block.shortfallPass Block.afterPass Block.passOver
  rw [if_neg (by simp [live, due])]

theorem Block.afterPass_active {b : Block} {k : Nat} (h : (b.afterPass.charter k).st = .active) : (b.charter k).st = .active := by
  rw [Block.afterPass, (Block.applyDue_kept _).charter] at h
  exact b.noteUse.shortfall_active _ k h

theorem Block.afterPass_stepped (b : Block) {n : Nat} (low : n < 64) : (b.chan n).stepped (b.afterPass.chan n) := by
  have same : (b.noteUse.shortfall b.noteUse.actives.length).chan n = b.chan n :=
    ((Block.shortfall_kept ..).out (.chan n) (by simp [Piece.among])).trans (b.noteUse_kept.out (.chan n) (by simp [Piece.among]))
  rw [← same]
  exact Block.applyDue_stepped _ low

theorem Block.afterPass_tab {b : Block} (passes : b.check false (b.actives.map (·.2)) = none) : b.afterPass.chs.tab = b.chs.tab := by
  have same : b.afterPass.chs = _ := (Block.applyDue_kept _).out .chs (by simp [Piece.among])
  have noted : b.noteUse.check false (b.noteUse.actives.map (·.2)) = none := passes
  rw [same, Block.shortfall_passes noted]
  rfl

theorem exec_shortfallPassDone_upd (s : State) : exec .shortfallPassDone s = s.upd Block.shortfallPass := rfl

/-- A pass that is due does what the block shows after it. -/
theorem does_shortfallPass {s : State} {post : Block → Prop} (live : s.blk.live = true) (due : s.blk.chs.passDue = true)
    (h : post s.blk.afterPass.passOver) :
    Does .shortfallPassDone s [.berths, .chans, .chs, .events, .reg Off.chAlarm, .reg Off.htAlarm, .reg Off.lgAlarm] post :=
  does_upd (exec_shortfallPassDone_upd s) s.blk.shortfallPass_kept (by rwa [Block.shortfallPass_due live due])

/-! ### RESTORE_PASS (R215) -/

/-- What a restore pass leaves: whether a pass is due, and every ACTIVE charter. -/
structure Block.HoldsActive (b c : Block) : Prop where
  pass : c.chs.passDue = b.chs.passDue
  active : ∀ k, (b.charter k).st = .active → (c.charter k).st = .active

theorem Block.HoldsActive.refl (b : Block) : b.HoldsActive b := ⟨rfl, fun _ h => h⟩

theorem Block.HoldsActive.trans {b c d : Block} (h : b.HoldsActive c) (k : c.HoldsActive d) : b.HoldsActive d :=
  ⟨k.pass.trans h.pass, fun n a => k.active n (h.active n a)⟩

theorem Block.HoldsActive.of_tab {b c : Block} (pass : c.chs.passDue = b.chs.passDue) (tab : c.chs.tab = b.chs.tab) : b.HoldsActive c :=
  ⟨pass, fun k h => by rwa [Block.charter, tab]⟩

theorem Kept.holdsActive {ps : List Piece} {b c : Block} (h : Kept ps b c) (out : ¬ Piece.chs.among ps := by simp [Piece.among]) : b.HoldsActive c := by
  have same : c.chs = b.chs := h.out .chs out
  exact .of_tab (by rw [same]) (by rw [same])

theorem Block.activate_holdsActive (b : Block) (c : Nat) (m : Option ManRef) : b.HoldsActive (b.activate c m) := by
  have listed : b.HoldsActive (b.setCharter c { (b.charter c).full with st := .active }) := by
    refine ⟨rfl, fun k h => ?_⟩
    rw [Block.charter_setCharter]
    split
    · rfl
    · exact h
  unfold Block.activate
  dsimp only
  split
  · exact listed.trans (Block.finish_kept ..).holdsActive
  · exact listed.trans (Block.event_kept ..).holdsActive

theorem Block.startCharter_holdsActive (b : Block) (c : Nat) (m : Option ManRef) : b.HoldsActive (b.startCharter c m) := by
  unfold Block.startCharter
  split
  · exact .refl b
  · split
    · exact (b.wakeFor_kept _).holdsActive.trans (.of_tab rfl rfl)
    · exact b.activate_holdsActive c m

theorem Block.restoreAll_holdsActive (b : Block) : b.HoldsActive b.restoreAll := by
  unfold Block.restoreAll
  refine List.foldlRecOn (motive := b.HoldsActive) _ _ (.refl b) fun c held e _ => held.trans ?_
  split_ifs
  · exact .refl c
  · exact c.startCharter_holdsActive e.1 none
  · exact .refl c

theorem Block.noteUse_holdsActive (b : Block) : b.HoldsActive b.noteUse := .of_tab rfl rfl

/-- What RESTORE_PASS makes of the block: the pass in OPEN, with no other pass due and the hold past. -/
def Block.restorePass (b : Block) : Block :=
  if b.live ∧ b.pw.st = .openS ∧ ¬ b.chs.passDue ∧ b.restoreHeld then b.noteUse.restoreAll else b

theorem Block.restorePass_held {b : Block} (live : b.live = true) (serving : b.pw.st = .openS) (still : b.chs.passDue = false)
    (held : b.restoreHeld = true) : b.restorePass = b.noteUse.restoreAll := by
  rw [Block.restorePass, if_pos ⟨live, serving, by simp [still], held⟩]

theorem exec_restorePass_upd (s : State) : exec .restorePass s = s.upd Block.restorePass := rfl

theorem does_restorePass {s : State} (live : s.blk.live = true) (serving : s.blk.pw.st = .openS) (still : s.blk.chs.passDue = false)
    (held : s.blk.restoreHeld = true) :
    Does .restorePass s [.chans, .chs, .events, .ins, .reg Off.lgAlarm, .running, .slots] fun b =>
      b.chs.passDue = false ∧ ∀ c : Fin 4096, (s.blk.charter c).st = .active → (b.charter c).st = .active := by
  obtain ⟨pass, active⟩ := s.blk.noteUse_holdsActive.trans (Block.restoreAll_holdsActive _)
  refine does_upd_eq (exec_restorePass_upd s) (Block.restorePass_held live serving still held) ?_ ⟨pass.trans still, fun c => active c⟩
  exact Kept.step (Block.restoreAll_kept _) Within.refl ((Block.noteUse_kept _).mono (Within.of rfl))

theorem exec_restorePass_idle {s : State} (h : s.blk.pw.st ≠ .openS ∨ s.blk.chs.passDue = true ∨ s.blk.restoreHeld = false) :
    exec .restorePass s = .next s := by
  refine exec_upd_same (exec_restorePass_upd s) (if_neg fun ⟨_, serving, still, held⟩ => ?_)
  rcases h with shut | due | early
  · exact shut serving
  · exact still due
  · simp [early] at held

theorem does_shortfallPass_due {s : State} (live : s.blk.live = true) (due : s.blk.chs.passDue = true) :
    Does .shortfallPassDone s [.berths, .chans, .chs, .events, .reg Off.chAlarm, .reg Off.htAlarm, .reg Off.lgAlarm] fun b =>
      b.chs.passDue = false ∧ (∀ n : Fin 64, (b.chan n).stepDue = none ∧ (b.chan n).step = ((s.blk.chan n).stepDue).getD (s.blk.chan n).step)
        ∧ ∀ c : Fin 4096, (b.charter c).st = .active → (s.blk.charter c).st = .active := by
  refine does_shortfallPass live due ⟨rfl, fun n => ?_, fun c active => ?_⟩
  · rw [Block.passOver_chan]
    exact s.blk.afterPass_stepped n.isLt
  · rw [Block.passOver_charter] at active
    exact Block.afterPass_active active

theorem does_shortfallPass_passes {s : State} (live : s.blk.live = true) (due : s.blk.chs.passDue = true)
    (passes : s.blk.check false (s.blk.actives.map (·.2)) = none) :
    Does .shortfallPassDone s [.berths, .chans, .chs, .events, .reg Off.chAlarm, .reg Off.htAlarm, .reg Off.lgAlarm] fun b =>
      b.chs.tab = s.blk.chs.tab := by
  refine does_shortfallPass live due ?_
  rw [Block.passOver_tab]
  exact Block.afterPass_tab passes

/-- Settles O44: the suspensions, the waiting steps and the activations of a pass, each by what it makes of one charter or channel. -/
theorem charterPasses : Obligations.CharterPasses := by
  unfold Obligations.CharterPasses
  refine ⟨fun _ => does_shortfallPass_due, fun _ => does_shortfallPass_passes, fun s still => ?_,
    fun _ => does_restorePass, fun _ => exec_restorePass_idle⟩
  exact exec_upd_same (exec_shortfallPassDone_upd s) (if_pos (.inl (by simp [still])))

end Sys2Proof.Machine
end

section
/-! SUPPORT. What the fence of a channel leaves of the refresh account of every channel, of the alarm of the channels and of the fence bits
(R256, R278): a REFab whose test of the command coils fails fences its channel. -/

namespace Sys2Proof.Machine

open Sys2Proof

/-! ### The account of a channel, and what keeps it -/

/-- The channel owes as many refreshes as before, and its pulled-in one stands as before; no REFab has become due. -/
structure Chan.Account (x y : Chan) : Prop where
  owed : y.owed = x.owed
  pulled : y.pulled = x.pulled
  refDue : x.refDue = false → y.refDue = false

theorem Chan.Account.refl (x : Chan) : x.Account x := ⟨rfl, rfl, id⟩

theorem Chan.Account.trans {x y z : Chan} (h : x.Account y) (k : y.Account z) : x.Account z :=
  ⟨k.owed.trans h.owed, k.pulled.trans h.pulled, k.refDue ∘ h.refDue⟩

theorem Chan.quiet_account (x : Chan) : x.Account x.quiet :=
  ⟨by simp only [Chan.quiet, Chan.closeRows], by simp only [Chan.quiet, Chan.closeRows], fun _ => by simp only [Chan.quiet]⟩

/-- The refresh accounts stand, the alarm of the channels stands, and every fence bit that was set is set. -/
structure Block.Retains (b c : Block) : Prop where
  account : ∀ n, (b.chan n).Account (c.chan n)
  alarm : c.reg Off.dcAlarm = b.reg Off.dcAlarm
  fence : ∀ n, b.stk.fence.getLsbD n = true → c.stk.fence.getLsbD n = true

theorem Block.Retains.refl (b : Block) : b.Retains b := ⟨fun _ => .refl _, rfl, fun _ => id⟩

theorem Block.Retains.trans {b c d : Block} (h : b.Retains c) (k : c.Retains d) : b.Retains d :=
  ⟨fun n => (h.account n).trans (k.account n), k.alarm.trans h.alarm, fun n => k.fence n ∘ h.fence n⟩

/-- A change that retains, after others. -/
theorem Block.Retains.after {b c d : Block} (k : c.Retains d) (h : b.Retains c) : b.Retains d := h.trans k

theorem Block.Retains.foldl {α : Type} {f : Block → α → Block} (h : ∀ (b : Block) x, b.Retains (f b x)) (b : Block) (xs : List α) :
    b.Retains (xs.foldl f b) :=
  List.foldlRecOn (motive := Block.Retains b) xs f (.refl b) fun c hc x _ => hc.trans (h c x)

theorem Block.Retains.each {f : Block → Nat → Block} (h : ∀ (b : Block) n, b.Retains (f b n)) (b : Block) (ns : List Nat) :
    b.Retains (b.each ns f) := .foldl h b ns

theorem Block.Retains.ite {b c d : Block} {p : Prop} [Decidable p] (h : b.Retains c) (k : b.Retains d) : b.Retains (if p then c else d) := by
  split
  · exact h
  · exact k

theorem Block.Retains.of_eq {b c : Block} (regs : c.csr = b.csr) (chans : c.chans = b.chans) (stk : c.stk = b.stk) : b.Retains c :=
  have chan (n : Nat) : c.chan n = b.chan n := by rw [Block.chan, chans, Block.chan]
  ⟨fun n => chan n ▸ .refl _, by rw [Block.reg, regs, Block.reg], fun n h => by rwa [stk]⟩

/-- A change of the piece leaves the channels, the fence bits and the alarm of the channels. -/
def Piece.retained : Piece → Prop
  | .regs | .chans | .chan _ | .stk => False
  | .reg o => o ≠ Off.dcAlarm
  | _ => True

theorem tlOvf_ne_dcAlarm (n : Nat) : tlOff Off.tlOvf n ≠ Off.dcAlarm := by simp only [tlOff, Off.tlOvf, Off.dcAlarm]; omega

theorem btAlarm_ne_dcAlarm (n : Nat) : btOff Off.btAlarm n ≠ Off.dcAlarm := by simp only [btOff, Off.btAlarm, Off.dcAlarm]; omega

theorem btLat_ne_dcAlarm (n : Nat) : btOff Off.btLat n ≠ Off.dcAlarm := by simp only [btOff, Off.btLat, Off.dcAlarm]; omega

theorem lnTxDrv_ne_dcAlarm (l : Nat) : lnOff Off.lnTxDrv l ≠ Off.dcAlarm := by
  have set := laneBase_mod l
  simp only [lnOff, Off.lnTxDrv, Off.dcAlarm]
  omega

theorem lnEcStatus_ne_dcAlarm (l : Nat) : lnOff Off.lnEcStatus l ≠ Off.dcAlarm := by
  have set := laneBase_mod l
  simp only [lnOff, Off.lnEcStatus, Off.dcAlarm]
  omega

theorem Kept.retains {ps : List Piece} {b c : Block} (h : Kept ps b c)
    (retained : ∀ p ∈ ps, p.retained := by
      simp [Piece.retained, tlOvf_ne_dcAlarm, btAlarm_ne_dcAlarm, lnTxDrv_ne_dcAlarm, Off.dcAlarm, Off.lgAlarm, Off.fwAlarm, Off.tlAlarm, Off.stAlarm]) :
    b.Retains c := by
  have stk : c.stk = b.stk := h.out .stk (retained _)
  have chan (n : Nat) : c.chan n = b.chan n := h.out (.chan n) fun listed => listed.elim (retained _) (retained _)
  have alarm : c.reg Off.dcAlarm = b.reg Off.dcAlarm := h.out (.reg Off.dcAlarm) fun listed =>
    listed.elim (retained _) fun one => retained _ one rfl
  exact ⟨fun n => chan n ▸ .refl _, alarm, fun n set => by rwa [stk]⟩

theorem Block.setReg_retains (b : Block) {o : Nat} (v : Word) (h : o ≠ Off.dcAlarm) : b.Retains (b.setReg o v) :=
  (b.setReg_kept o v).retains (by simpa [Piece.retained] using h)

theorem Block.orReg_retains (b : Block) {o : Nat} (v : Word) (h : o ≠ Off.dcAlarm) : b.Retains (b.orReg o v) := b.setReg_retains _ h

theorem Block.modChan_retains (b : Block) (n : Nat) {f : Chan → Chan} (h : ∀ x : Chan, x.Account (f x)) : b.Retains (b.modChan n f) := by
  refine ⟨fun k => ?_, rfl, fun _ => id⟩
  have chan : (b.modChan n f).chan k = if n = k then f (b.chan n) else b.chan k := tget_tset ..
  rw [chan]
  split
  · next e => exact e ▸ h _
  · exact .refl _

theorem Block.event_retains (b : Block) (e : Ev) (unit : Nat) (detail : List (BitVec 16)) : b.Retains (b.event e unit detail) :=
  (b.event_kept e unit detail).retains

theorem Block.modSide_retains (b : Block) (sd : Side) (f : SideSt → SideSt) : b.Retains (b.modSide sd f) := (b.modSide_kept sd f).retains

theorem Block.modLane_retains (b : Block) (l : Nat) (f : Lane → Lane) : b.Retains (b.modLane l f) := (b.modLane_kept l f).retains

theorem Block.modBerth_retains (b : Block) (n : Nat) (f : Berth → Berth) : b.Retains (b.modBerth n f) := (b.modBerth_kept n f).retains

/-! ### Segments that train again as OPEN is reached (R365) -/

theorem Block.endWindow_retains (b : Block) (sd : Side) : b.Retains (b.endWindow sd) := by
  unfold Block.endWindow
  split
  · exact .refl b
  · have noWindow := b.modSide_retains sd fun x => { x with win := none }
    exact .ite (noWindow.trans (.each (fun c l => c.setReg_retains _ (lnEcStatus_ne_dcAlarm l)) ..)) noWindow

theorem Block.leaveRun_retains (b : Block) (sd : Side) (seg : SegState) : b.Retains (b.leaveRun sd seg) :=
  (b.endWindow_retains sd).trans (Block.modSide_retains ..)

theorem Block.segDown_retains (b : Block) (sd : Side) : b.Retains (b.segDown sd) :=
  (b.leaveRun_retains sd .down).trans (.each (fun c l => c.modLane_retains l _) ..)

theorem Block.sideFails_retains (b : Block) (sd : Side) : b.Retains (b.sideFails sd) :=
  ((b.segDown_retains sd).trans (Block.event_retains ..)).trans (Block.freshCaps_kept _).retains

theorem Block.trainSide_retains (b : Block) (sd : Side) (g : Fin 4) (inLoop : Bool) : b.Retains (b.trainSide sd g inLoop) :=
  .ite (b.sideFails_retains sd)
    (((b.leaveRun_retains sd .training).trans (Block.modSide_retains ..)).trans (.each (fun c l => (c.startHunt_kept l g false).retains) ..))

theorem Block.retrainSide_retains (b : Block) (sd : Side) (g : Fin 4) (inLoop : Bool) : b.Retains (b.retrainSide sd g inLoop) :=
  (b.trainSide_retains sd g inLoop).trans (Block.purgeSide_kept _ sd).retains

/-- The move of R365 at one side: its cap on the grade is lifted, and a running segment trains again. -/
theorem Block.liftCap_retains (b : Block) (sd : Side) :
    b.Retains (if (b.side sd).seg = .down then b.modSide sd fun x => { x with capG2 := false }
      else if (b.side sd).seg = .run ∧ (b.side sd).capG2 then (b.modSide sd fun x => { x with capG2 := false }).retrainSide sd 0 false
      else b) :=
  have lifted := b.modSide_retains sd fun x => { x with capG2 := false }
  .ite lifted (.ite (lifted.trans (Block.retrainSide_retains ..)) (.refl b))

theorem Block.checkOpen_retains (b : Block) : b.Retains b.checkOpen := by
  unfold Block.checkOpen
  have lifted := (b.liftCap_retains .west).trans (Block.liftCap_retains _ .east)
  exact .ite (.refl b) (.ite (lifted.trans (Block.enterOpen_kept _).retains) lifted)

/-! ### Requests that end -/

/-- A die reset that waited for its berths begins; the fence bits stay. -/
theorem Block.settle_retains (b : Block) : b.Retains b.settle := by
  unfold Block.settle
  have emptied : b.Retains (b.each (List.range 64) fun b n =>
      if (b.berth n).st = .fenced ∧ ¬ b.busyAt n then b.modBerth n fun x => { x with st := .absent } else b) :=
    .each (fun c n => .ite (c.modBerth_retains n _) (.refl c)) ..
  dsimp only
  generalize Block.each .. = c at emptied ⊢
  split
  · exact .ite (emptied.trans ⟨fun _ => .refl _, rfl, fun _ => id⟩) emptied
  · exact emptied

theorem Block.afterReq_retains (b : Block) (r : Req) : b.Retains (b.afterReq r) := by
  unfold Block.afterReq
  refine .after (Block.wakeFences_kept _).retains (.after (Block.settle_retains _)
    (.after (Block.clearPanic_kept _).retains (.each (fun c n => ?_) ..)))
  exact .after (Block.grantStaging_kept _ n).retains (c.modChan_retains n fun _ => ⟨rfl, rfl, id⟩)

theorem Block.endReq_retains (b : Block) (r : Req) (level : Nat) (a : Answer) : b.Retains (b.endReq r level a) := by
  unfold Block.endReq
  refine .trans (.trans (.trans ?_ (Block.dropReq_kept _ r.id).retains) (Block.complete_kept ..).retains) (Block.afterReq_retains _ r)
  exact .of_eq rfl rfl rfl

theorem Block.emitCopy_retains (b : Block) (r : Req) : b.Retains (b.emitCopy r) := by
  unfold Block.emitCopy
  refine .trans (.trans (.trans (b.dropReq_kept r.id).retains ?_) (.foldl (fun c e => ?_) ..)) (Block.afterReq_retains _ r)
  · exact .of_eq rfl rfl rfl
  · exact (Block.sendRemote_kept ..).retains

theorem Block.served_retains (b : Block) (r : Req) (p : Part) (poisoned : Bool) : b.Retains (b.served r p poisoned) := by
  unfold Block.served
  extract_lets n b1 b2 b3 lat b4
  have bumped (c : Block) (off n : Nat) : c.Retains (c.bump off n) := (c.bump_kept off n).retains
  have counted : b.Retains b2 := .trans (bumped ..) (.ite (bumped ..) (.refl _))
  have poison : b2.Retains b3 := .ite (.trans (.trans (bumped ..) (Block.orReg_retains _ _ (btAlarm_ne_dcAlarm _)))
    (Block.tally_kept ..).retains) (.refl _)
  have longest : b3.Retains b4 := .ite (Block.setReg_retains _ _ (btLat_ne_dcAlarm _)) (.refl _)
  have all := (counted.trans poison).trans longest
  split
  · exact all
  · exact all.trans (Block.modCharter_kept ..).retains

theorem Block.checkReq_retains (b : Block) (id : Nat) : b.Retains (b.checkReq id) := by
  unfold Block.checkReq
  split
  case h_1 => exact .refl b
  case h_2 r _ =>
    refine .ite (.ite (.ite ?poisoned (.refl b)) (.ite (.ite (b.endReq_retains ..) (b.endReq_retains ..)) (.refl b)))
      (.ite (.ite (b.emitCopy_retains r) (b.endReq_retains ..)) (.refl b))
    case poisoned => exact .trans (.foldl (fun c p => c.served_retains r p true) ..) (Block.endReq_retains ..)

/-! ### Fences (R240, R278) -/

theorem Block.fenceReq_retains (b : Block) (age n id : Nat) : b.Retains (b.fenceReq age n id) := by
  unfold Block.fenceReq
  split
  case h_1 => exact .refl b
  case h_2 r _ =>
    refine .ite (.ite (.refl b) ?unwritten) (.ite (b.endReq_retains ..) (.refl b))
    case unwritten => exact .after (Block.checkReq_retains _ id) (.after (Block.modReq_kept ..).retains (b.modBerth_retains n _))

theorem Block.fenceReqs_retains (b : Block) (age n : Nat) (ids : List Nat) : b.Retains (b.each ids fun b id => b.fenceReq age n id) :=
  .each (fun c id => c.fenceReq_retains age n id) ..

/-- A channel in service leaves the scheduler's hands, its requests are fenced and its charters told. -/
theorem Block.fenceServing_retains (b : Block) (age n : Nat) (ids : List Nat) :
    b.Retains ((((b.enterFenced n).modChan n Chan.quiet).each ids fun b id => b.fenceReq age n id).charterBerthLost n) :=
  .after (Block.charterBerthLost_kept ..).retains (.after (Block.fenceReqs_retains ..)
    (.after (Block.modChan_retains _ n Chan.quiet_account) (b.enterFenced_kept n).retains))

theorem chBit_self {n : Nat} (low : n < 64) : (chBit n).getLsbD n = true := by
  rw [chBit, BitVec.getLsbD_ofNat, Nat.testBit_two_pow_self]
  simp [low]

theorem Block.fenceBit_retains (b : Block) (n : Nat) : b.Retains (b.fenceBit n) :=
  ⟨fun _ => .refl _, rfl, fun k set => by rw [Block.fenceBit, BitVec.getLsbD_or, set, Bool.true_or]⟩

theorem Block.fenceBit_set (b : Block) {n : Nat} (low : n < 64) : (b.fenceBit n).stk.fence.getLsbD n = true := by
  rw [Block.fenceBit, BitVec.getLsbD_or, chBit_self low, Bool.or_true]

/-- After its bit a fence does nothing that would clear one. -/
theorem Block.fenceChan_after (b : Block) (age n : Nat) : (b.fenceBit n).Retains (b.fenceChan age n) := by
  unfold Block.fenceChan
  dsimp only
  split
  case h_4 => exact (b.fenceBit n).fenceReqs_retains age n _
  case h_5 => exact (b.fenceBit n).modBerth_retains n _
  all_goals exact (b.fenceBit n).fenceServing_retains age n _

theorem Block.fenceChan_retains (b : Block) (age n : Nat) : b.Retains (b.fenceChan age n) := (b.fenceBit_retains n).trans (b.fenceChan_after age n)

theorem Block.fenceAll_retains (b : Block) (age : Nat → Nat) (ns : List Nat) : b.Retains (b.fenceAll age ns) :=
  .trans (.trans (.each (fun c n => c.fenceChan_retains (age n) n) ..) (Block.settle_retains _)) (Block.checkOpen_retains _)

/-- Every channel of a list that is fenced has its bit. -/
theorem Block.fenceEach_fences (b : Block) (age : Nat → Nat) {ns : List Nat} {n : Nat} (h : n ∈ ns) (low : n < 64) :
    (b.each ns fun b n => b.fenceChan (age n) n).stk.fence.getLsbD n = true := by
  unfold Block.each
  induction ns generalizing b with
  | nil => cases h
  | cons k ks ih =>
    rw [List.foldl_cons]
    rcases List.mem_cons.1 h with rfl | later
    · have rest := Block.Retains.foldl (f := fun b n => b.fenceChan (age n) n) (fun c n => c.fenceChan_retains (age n) n) (b.fenceChan (age n) n) ks
      exact rest.fence n ((b.fenceChan_after (age n) n).fence n (b.fenceBit_set low))
    · exact ih _ later

theorem Block.fenceAll_fences (b : Block) (age : Nat → Nat) {ns : List Nat} {n : Nat} (h : n ∈ ns) (low : n < 64) :
    (b.fenceAll age ns).stk.fence.getLsbD n = true := by
  unfold Block.fenceAll
  exact ((Block.settle_retains _).trans (Block.checkOpen_retains _)).fence n (b.fenceEach_fences age h low)

/-! ### Lost columns (R276, R456) -/

/-- Whatever set of columns is lost, a lost column that is monitored has its channel fenced, unless its channel is OFF. -/
theorem Block.diagnose_fences (b : Block) {lost mon : Nat → Bool} (age : Nat → Nat) {n : Nat} (low : n < 64) (on : (b.chan n).pwr ≠ .off)
    (watched : mon n = true) (gone : lost n = true) : (b.diagnose lost mon age).stk.fence.getLsbD n = true := by
  have listed : n ∈ List.range 64 := List.mem_range.2 low
  have counts : b.countsLost lost mon n = true := by simp [Block.countsLost, on, watched, gone]
  have some_ : ((List.range 64).any fun n => mon n && lost n) = true := List.any_eq_true.2 ⟨n, listed, by simp [watched, gone]⟩
  unfold Block.diagnose
  dsimp only
  rw [if_neg (not_not.2 some_)]
  split
  · exact Block.fenceAll_fences _ age listed low
  · split
    · next j found =>
      have exact_ := List.find?_some found
      rw [List.all_eq_true] at exact_
      have above : 4 * j ≤ n := by simpa [counts] using exact_ n listed
      exact Block.fenceAll_fences _ age (List.mem_filter.2 ⟨listed, decide_eq_true above⟩) low
    · exact Block.fenceAll_fences _ age (List.mem_filter.2 ⟨listed, by simp [watched, gone]⟩) low

/-! ### What goes with a REFab (R274, R275) -/

theorem Block.caTest_retains (b : Block) (n : Nat) (faulty : Option (Fin 13)) : b.Retains (b.caTest n faulty) := by
  have undue : b.Retains (b.modCol n fun x => { x with caTestDue := false }) := (b.modCol_kept n _).retains
  unfold Block.caTest
  dsimp only
  split
  · exact .refl b
  · split
    · exact (undue.trans (Block.modCol_kept ..).retains).trans (Block.orReg_retains _ _ (by decide))
    · exact (undue.trans (Block.event_retains ..)).trans (Block.fenceAll_retains ..)

/-- Which refresh a REFab was, by the level at which it issued: the limit refresh, a tick's, or one pulled in (R256, R257). -/
def Chan.refabNoted (level : Nat) (x : Chan) : Chan :=
  match level with
  | 0 => { x with limitDue := false }
  | 2 => { x with refDue := false }
  | _ => { x with pullDue := false, pulled := true }

theorem Block.refabDone_retains (b : Block) (n level : Nat) (faulty : Option (Fin 13)) :
    (b.modChan n (Chan.refabNoted level)).Retains (b.refabDone n level faulty) :=
  .trans (.trans (Block.tally_kept ..).retains (Block.remapNow_kept _ n).retains) (Block.caTest_retains _ n faulty)

end Sys2Proof.Machine
end

section
/-! SUPPORT. Refresh ticks, REFab and repayment passes (R255 to R258): what a tick asks for, and what a REFab that issues leaves. -/

namespace Sys2Proof.Machine

open Sys2Proof

/-! ### A REFab as the scheduler's choice (R249, R256, R257) -/

theorem Block.cmdFor_not_refab {b : Block} {n : Nat} {all queued : List Access} {a : Access} {d : Cmd} (h : b.cmdFor n all queued a = some d) :
    d.kind ≠ .refab := by
  unfold Block.cmdFor at h
  dsimp only at h
  repeat' split at h
  all_goals cases h
  all_goals simp

theorem Block.refreshCmds_refab {b : Block} {n : Nat} {d : Cmd} (h : d ∈ b.refreshCmds n) (k : d.kind = .refab) :
    (d.acc.level = 0 ∧ (b.chan n).limitDue = true) ∨ (d.acc.level = 2 ∧ (b.chan n).refDue = true)
      ∨ (d.acc.level = 7 ∧ (b.chan n).pullDue = true) := by
  unfold Block.refreshCmds at h
  dsimp only at h
  split at h
  · cases h
  · simp only [List.mem_append, List.mem_ite_nil_right, List.mem_singleton, Bool.and_eq_true] at h
    obtain ((⟨⟨due, _⟩, rfl⟩ | ⟨⟨due, _⟩, rfl⟩) | ⟨⟨⟨due, _⟩, _⟩, rfl⟩) | ⟨_, rfl⟩ := h
    · exact .inl ⟨rfl, due⟩
    · exact .inr (.inl ⟨rfl, due⟩)
    · exact .inr (.inr ⟨rfl, due⟩)
    · cases k

/-- A REFab that is the choice is one that is due, at the level of what asks for it. -/
theorem Block.choose_refab {b : Block} {n : Nat} {c : Cmd} (h : b.choose n = some c) (k : c.kind = .refab) (none_ : (b.chan n).replayQ = []) :
    (c.acc.level = 0 ∧ (b.chan n).limitDue = true) ∨ (c.acc.level = 2 ∧ (b.chan n).refDue = true)
      ∨ (c.acc.level = 7 ∧ (b.chan n).pullDue = true) := by
  have awake : (b.chan n).resume = false := by
    by_contra resumes
    rw [Bool.not_eq_false] at resumes
    simp only [Block.choose, resumes, if_true] at h
    split at h
    · cases h
    · cases h; cases k
  obtain ⟨listed, -⟩ := firstCmd_some (Block.choose_fresh awake none_ h)
  rcases List.mem_append.1 listed with refresh | access
  · exact Block.refreshCmds_refab refresh k
  · obtain ⟨a, -, ha⟩ := List.mem_filterMap.1 access
    exact absurd k (Block.cmdFor_not_refab ha)

/-! ### A REFab that issues -/

section
variable {b : Block} {n : Nat} {c : Cmd} (faulty : Option (Fin 13))

theorem Block.tryRefab_issues (h : b.choose n = some c) (k : c.kind = .refab) (none_ : (b.chan n).replayQ = []) :
    b.tryRefab n faulty = (b.noted n c).refabDone n c.acc.level faulty := by
  rw [Block.tryRefab, h]
  exact if_pos ⟨k, by rw [none_]; rfl⟩

theorem Block.tryRefab_other (h : ((b.choose n).all fun c => c.kind != .refab) = true) : b.tryRefab n faulty = b := by
  unfold Block.tryRefab
  split
  · next c chosen => exact if_neg fun ⟨k, _⟩ => by simp [chosen, k] at h
  · rfl

/-- Either nothing issues, or a REFab that was due. -/
theorem Block.tryRefab_cases : b.tryRefab n faulty = b
    ∨ ∃ c : Cmd, b.choose n = some c ∧ c.kind = .refab ∧ (b.chan n).replayQ = [] ∧ b.tryRefab n faulty = (b.noted n c).refabDone n c.acc.level faulty := by
  by_cases h : ∃ c : Cmd, b.choose n = some c ∧ c.kind = .refab ∧ (b.chan n).replayQ = []
  · obtain ⟨c, chosen, k, none_⟩ := h
    exact .inr ⟨c, chosen, k, none_, Block.tryRefab_issues faulty chosen k none_⟩
  · refine .inl ?_
    unfold Block.tryRefab
    split
    · next c chosen => exact if_neg fun ⟨k, none_⟩ => h ⟨c, chosen, k, List.isEmpty_iff.1 none_⟩
    · rfl

/-- With no REFab due none issues. -/
theorem Block.tryRefab_none (limit : (b.chan n).limitDue = false) (ref : (b.chan n).refDue = false) (pull : (b.chan n).pullDue = false) :
    b.tryRefab n faulty = b := by
  refine (Block.tryRefab_cases faulty).resolve_right fun ⟨c, chosen, k, none_, _⟩ => ?_
  have due := Block.choose_refab chosen k none_
  simp [limit, ref, pull] at due

theorem Chan.noteCmd_refab_account (x : Chan) (now : Tide) (k : c.kind = .refab) (level : Nat) :
    (x.refabNoted level).Account ((x.noteCmd now c).refabNoted level) := by
  have fields : (x.noteCmd now c).owed = x.owed ∧ (x.noteCmd now c).pulled = x.pulled ∧ (x.noteCmd now c).refDue = x.refDue := by
    simp only [Chan.noteCmd, Chan.noteKind, k, Chan.closeRows, and_self]
  obtain ⟨owed, pulled, ref⟩ := fields
  unfold Chan.refabNoted
  split
  · exact ⟨owed, pulled, fun h => ref.trans h⟩
  · exact ⟨owed, pulled, fun _ => rfl⟩
  · exact ⟨owed, rfl, fun h => ref.trans h⟩

/-- The account of a channel whose REFab has issued: that of a channel that notes which refresh it was. -/
theorem Block.refabIssued_account (k : c.kind = .refab) (level : Nat) :
    ((b.chan n).refabNoted level).Account (((b.noted n c).refabDone n level faulty).chan n) := by
  have done := ((b.noted n c).refabDone_retains n level faulty).account n
  rw [Block.chan_modChan, Block.noted_chan] at done
  exact (Chan.noteCmd_refab_account (b.chan n) b.ck.tide k level).trans done

theorem Block.refabIssued_alarm (level : Nat) : ((b.noted n c).refabDone n level faulty).reg Off.dcAlarm = b.reg Off.dcAlarm :=
  ((b.noted n c).refabDone_retains n level faulty).alarm

theorem Block.refabIssued_refreshed (k : c.kind = .refab) (level : Nat) :
    ((b.noted n c).refabDone n level faulty).refreshed n (some b.ck.tide) ((b.chan n).nRefab + 1) := by
  refine Block.refreshed_refabDone ?_ n level faulty
  rw [Block.refreshed, Block.noted_chan]
  exact Chan.refreshed_noteCmd _ _ k

theorem Chan.refabNoted_owed (level : Nat) (x : Chan) : (x.refabNoted level).owed = x.owed := by
  unfold Chan.refabNoted
  split <;> rfl

/-- Whether or not a REFab issues, what is owed and the alarm of the channels stay. -/
theorem Block.tryRefab_owed : ((b.tryRefab n faulty).chan n).owed = (b.chan n).owed ∧ (b.tryRefab n faulty).reg Off.dcAlarm = b.reg Off.dcAlarm := by
  rcases Block.tryRefab_cases (b := b) (n := n) faulty with same | ⟨c, _, k, _, made⟩
  · rw [same]
    exact ⟨rfl, rfl⟩
  · rw [made]
    exact ⟨(Block.refabIssued_account faulty k _).owed.trans (Chan.refabNoted_owed ..), Block.refabIssued_alarm faulty _⟩

end

/-! ### A tick (R247, R255, R256) -/

/-- The channel as a tick finds it: its next tick is set, and what was asked for early is no longer asked for. -/
def Block.ticked (b : Block) (n : Nat) : Chan :=
  { b.chan n with lastTick := (b.chan n).lastTick + BitVec.ofNat 64 (b.chan n).tickIn, tickIn := b.refi n, pullDue := false }

section
variable {b : Block} {n : Nat}

theorem Block.tickFalls_pulled (pulled : (b.chan n).pulled = true) : b.tickFalls n = b.setChan n { b.ticked n with pulled := false } := if_pos pulled

variable (unpulled : (b.chan n).pulled = false)
include unpulled

theorem Block.tickFalls_limit (full : 8 ≤ (b.chan n).owed) :
    b.tickFalls n = ((b.setChan n { b.ticked n with limitDue := true }).orReg Off.dcAlarm 1).event .refLimit n :=
  (if_neg (by simp [unpulled])).trans (if_pos full)

theorem Block.tickFalls_due (calm : b.panicAt n = false) (owed : (b.chan n).owed = 0) (ref : (b.chan n).refDue = false) :
    b.tickFalls n = b.setChan n { b.ticked n with refDue := true } := by
  simp [Block.tickFalls, unpulled, calm, owed, ref, Block.ticked]

theorem Block.tickFalls_owes (room : (b.chan n).owed < 8) (ref : (b.chan n).refDue = false) (more : b.panicAt n = true ∨ (b.chan n).owed ≠ 0) :
    let c := b.setChan n { b.ticked n with owed := (b.chan n).owed + 1, refDue := false }
    b.tickFalls n = c.bump (dcOff Off.dcRefPostLo n) ∨ b.tickFalls n = c := by
  have one : min 8 ((b.chan n).owed + 1) = (b.chan n).owed + 1 := Nat.min_eq_right room
  by_cases panic : b.panicAt n = true
  · left
    simp [Block.tickFalls, unpulled, Nat.not_le.2 room, panic, ref, one, Block.ticked]
  · right
    have owes := more.resolve_left panic
    simp [Block.tickFalls, unpulled, Nat.not_le.2 room, panic, owes, ref, one, Block.ticked]

end

theorem Block.refreshTick_falls {b : Block} {n : Nat} {faulty : Option (Fin 13)} (serves : b.chanServes n = true)
    (time : b.passed (b.chan n).tickIn (b.chan n).lastTick = true) : b.refreshTick n faulty = (b.tickFalls n).tryRefab n faulty :=
  if_neg (by simp [serves, time])

section
variable {s : State} {ch : ChId} {fc : Option (Fin 13)} {c : Cmd}

theorem exec_refreshTick_upd (ch : ChId) (fc : Option (Fin 13)) (s : State) : exec (.refreshTick ch fc) s = s.upd (·.refreshTick ch fc) := rfl

theorem exec_refreshTick_idle (h : s.blk.chanServes ch = false ∨ s.blk.passed (s.blk.chan ch).tickIn (s.blk.chan ch).lastTick = false) :
    exec (.refreshTick ch fc) s = .next s :=
  exec_upd_same (exec_refreshTick_upd ch fc s) (if_pos (by simpa using h))

variable (serves : s.blk.chanServes ch = true) (time : s.blk.passed (s.blk.chan ch).tickIn (s.blk.chan ch).lastTick = true)
include serves time

/-- A tick after which no REFab issues leaves what the tick asks for. -/
theorem does_tick {ps : List Piece} {d : Block} {post : Block → Prop} (falls : s.blk.tickFalls ch = d) (quiet : d.tryRefab ch fc = d)
    (frame : Kept ps s.blk d) (h : post d) : Does (.refreshTick ch fc) s ps post :=
  does_upd_eq (exec_refreshTick_upd ch fc s) ((Block.refreshTick_falls serves time).trans (falls ▸ quiet)) frame h

/-- A tick that may let a REFab issue. -/
theorem does_tickRefab {post : Block → Prop} (h : post ((s.blk.tickFalls ch).tryRefab ch fc)) :
    Does (.refreshTick ch fc) s [.berths, .chans, .chs, .cnt, .col ch, .events, .fws, .ins, .lanes, .mf, .pw, .qy, .regs, .sides, .stk, .tl] post :=
  does_framed (exec_refreshTick_upd ch fc s) (execRefreshTick_kept ch fc ·) Within.refl (by rwa [Block.refreshTick_falls serves time])

theorem refreshTick_issues (unpulled : (s.blk.chan ch).pulled = false) (owed : (s.blk.chan ch).owed = 0)
    (ref : (s.blk.chan ch).refDue = false) (calm : s.blk.panicAt ch = false) (chosen : (s.blk.tickFalls ch).choose ch = some c)
    (k : c.kind = .refab) (none_ : (s.blk.chan ch).replayQ = []) (limit : (s.blk.chan ch).limitDue = false) :
    Does (.refreshTick ch fc) s [.berths, .chans, .chs, .cnt, .col ch, .events, .fws, .ins, .lanes, .mf, .pw, .qy, .regs, .sides, .stk, .tl] fun b =>
      (b.chan ch).refab = some s.blk.ck.tide ∧ (b.chan ch).openRows = 0 ∧ (b.chan ch).nRefab = (s.blk.chan ch).nRefab + 1 ∧ (b.chan ch).owed = 0
        ∧ (b.chan ch).refDue = false := by
  refine does_tickRefab serves time ?_
  rw [Block.tickFalls_due unpulled calm owed ref] at chosen ⊢
  set d := s.blk.setChan ch { s.blk.ticked ch with refDue := true }
  have chan : d.chan ch = { s.blk.ticked ch with refDue := true } := Block.chan_setChan ..
  have level : c.acc.level = 2 := by
    have due := Block.choose_refab chosen k (by rw [chan]; exact none_)
    rw [chan] at due
    simpa [Block.ticked, limit] using due
  rw [Block.tryRefab_issues fc chosen k (by rw [chan]; exact none_), level]
  obtain ⟨rows, refab, count⟩ := Block.refabIssued_refreshed (b := d) (n := ch) fc k 2
  obtain ⟨owes, -, undue⟩ := Block.refabIssued_account (b := d) (n := ch) fc k 2
  rw [chan] at count owes undue
  exact ⟨refab, rows, count, owes.trans owed, undue rfl⟩

theorem refreshTick_due (unpulled : (s.blk.chan ch).pulled = false) (owed : (s.blk.chan ch).owed = 0) (ref : (s.blk.chan ch).refDue = false)
    (calm : s.blk.panicAt ch = false) (other : (((s.blk.tickFalls ch).choose ch).all fun c => c.kind != .refab) = true) :
    Does (.refreshTick ch fc) s [.chan ch] fun b =>
      (b.chan ch).refDue = true ∧ (b.chan ch).owed = 0 ∧ (b.chan ch).banks = (s.blk.chan ch).banks := by
  have falls := Block.tickFalls_due unpulled calm owed ref
  refine does_tick serves time falls (Block.tryRefab_other fc (falls ▸ other)) (Block.setChan_kept ..) ?_
  rw [Block.chan_setChan]
  exact ⟨rfl, owed, rfl⟩

theorem refreshTick_owes (unpulled : (s.blk.chan ch).pulled = false) (room : (s.blk.chan ch).owed < 8) (ref : (s.blk.chan ch).refDue = false)
    (limit : (s.blk.chan ch).limitDue = false) (more : s.blk.panicAt ch = true ∨ (s.blk.chan ch).owed ≠ 0) :
    Does (.refreshTick ch fc) s [.chan ch, .count (dcOff Off.dcRefPostLo ch)] fun b =>
      (b.chan ch).owed = (s.blk.chan ch).owed + 1 ∧ (b.chan ch).banks = (s.blk.chan ch).banks := by
  set d := s.blk.setChan ch { s.blk.ticked ch with owed := (s.blk.chan ch).owed + 1, refDue := false }
  have chan : d.chan ch = { s.blk.ticked ch with owed := (s.blk.chan ch).owed + 1, refDue := false } := Block.chan_setChan ..
  have frame : Kept [.chan ch, .count (dcOff Off.dcRefPostLo ch)] s.blk d := (Block.setChan_kept ..).mono (.of_subset (by simp))
  have bumped : (d.bump (dcOff Off.dcRefPostLo ch)).chan ch = d.chan ch := rfl
  have owes : (d.chan ch).owed = (s.blk.chan ch).owed + 1 ∧ (d.chan ch).banks = (s.blk.chan ch).banks := by rw [chan]; exact ⟨rfl, rfl⟩
  rcases Block.tickFalls_owes unpulled room ref more with falls | falls
  · refine does_tick serves time falls (Block.tryRefab_none fc ?_ ?_ ?_) (Kept.step (Block.bump_kept ..) (.of_subset (by simp)) frame) ?_
    · rw [bumped, chan]; exact limit
    · rw [bumped, chan]
    · rw [bumped, chan]; rfl
    · rw [bumped]; exact owes
  · refine does_tick serves time falls (Block.tryRefab_none fc ?_ ?_ ?_) frame owes
    · rw [chan]; exact limit
    · rw [chan]
    · rw [chan]; rfl

theorem refreshTick_limit (unpulled : (s.blk.chan ch).pulled = false) (full : 8 ≤ (s.blk.chan ch).owed) :
    Does (.refreshTick ch fc) s [.berths, .chans, .chs, .cnt, .col ch, .events, .fws, .ins, .lanes, .mf, .pw, .qy, .regs, .sides, .stk, .tl] fun b =>
      (b.chan ch).owed = (s.blk.chan ch).owed ∧ b.regBit Off.dcAlarm 0 = true := by
  refine does_tickRefab serves time ?_
  rw [Block.tickFalls_limit unpulled full]
  set d := (s.blk.setChan ch { s.blk.ticked ch with limitDue := true }).orReg Off.dcAlarm 1
  have event := d.event_kept .refLimit ch []
  have chan : (d.event .refLimit ch).chan ch = d.chan ch := event.out (.chan ch) (by simp [Piece.among])
  have reg : (d.event .refLimit ch).reg Off.dcAlarm = d.reg Off.dcAlarm :=
    event.out (.reg Off.dcAlarm) (by simp [Piece.among, Off.dcAlarm, Off.lgAlarm])
  obtain ⟨owed, alarm⟩ := Block.tryRefab_owed (b := d.event .refLimit ch) (n := ch) fc
  refine ⟨?_, ?_⟩
  · have noted : d.chan ch = { s.blk.ticked ch with limitDue := true } := Block.chan_setChan ..
    rw [owed, chan, noted]
    rfl
  · rw [Block.regBit, alarm, reg, ← Block.regBit, Block.regBit_orReg]
    simp

theorem refreshTick_pulled (pulled : (s.blk.chan ch).pulled = true) (limit : (s.blk.chan ch).limitDue = false) (ref : (s.blk.chan ch).refDue = false) :
    Does (.refreshTick ch fc) s [.chan ch] fun b =>
      (b.chan ch).pulled = false ∧ (b.chan ch).lastTick = (s.blk.chan ch).lastTick + BitVec.ofNat 64 (s.blk.chan ch).tickIn
        ∧ (b.chan ch).nRefab = (s.blk.chan ch).nRefab := by
  have chan : (s.blk.setChan ch { s.blk.ticked ch with pulled := false }).chan ch = { s.blk.ticked ch with pulled := false } := Block.chan_setChan ..
  refine does_tick serves time (Block.tickFalls_pulled pulled) (Block.tryRefab_none fc ?_ ?_ ?_) (Block.setChan_kept ..) ?_ <;> rw [chan]
  · exact limit
  · exact ref
  · rfl
  · exact ⟨rfl, rfl, rfl⟩

end

/-! ### A refresh pulled in (R257) -/

/-- The channel asks for a REFab early. -/
def Block.askPull (b : Block) (n : Nat) : Block := b.modChan n fun x => { x with pullDue := true }

theorem Block.askPull_chan (b : Block) (n : Nat) : (b.askPull n).chan n = { b.chan n with pullDue := true } := Block.chan_modChan ..

theorem Block.pullIn_asks {b : Block} {n : Nat} {faulty : Option (Fin 13)} (serves : b.chanServes n = true) (ok : b.pullOk n = true)
    (ref : (b.chan n).refDue = false) : b.pullIn n faulty = (b.askPull n).tryRefab n faulty := if_pos ⟨serves, ok, by simp [ref]⟩

section
variable {s : State} {ch : ChId} {fc : Option (Fin 13)} {c : Cmd} (serves : s.blk.chanServes ch = true) (ok : s.blk.pullOk ch = true)
  (ref : (s.blk.chan ch).refDue = false)
include serves ok ref

theorem refreshPullIn_issues (limit : (s.blk.chan ch).limitDue = false) (none_ : (s.blk.chan ch).replayQ = [])
    (chosen : (s.blk.askPull ch).choose ch = some c) (k : c.kind = .refab) :
    Does (.refreshPullIn ch fc) s [.berths, .chans, .chs, .cnt, .col ch, .events, .fws, .ins, .lanes, .mf, .pw, .qy, .regs, .sides, .stk, .tl] fun b =>
      (b.chan ch).pulled = true ∧ (b.chan ch).refab = some s.blk.ck.tide ∧ (b.chan ch).openRows = 0 := by
  have chan := s.blk.askPull_chan ch
  have still : ((s.blk.askPull ch).chan ch).replayQ = [] := by rw [chan]; exact none_
  have level : c.acc.level = 7 := by
    have due := Block.choose_refab chosen k still
    rw [chan] at due
    simpa [limit, ref] using due
  refine does_framed (f := (·.pullIn ch fc)) rfl (execRefreshPullIn_kept ch fc ·) Within.refl ?_
  rw [Block.pullIn_asks serves ok ref, Block.tryRefab_issues fc chosen k still, level]
  obtain ⟨rows, refab, -⟩ := Block.refabIssued_refreshed (b := s.blk.askPull ch) (n := ch) fc k 7
  obtain ⟨-, pulled, -⟩ := Block.refabIssued_account (b := s.blk.askPull ch) (n := ch) fc k 7
  exact ⟨pulled, refab, rows⟩

theorem refreshPullIn_asks (other : (((s.blk.askPull ch).choose ch).all fun c => c.kind != .refab) = true) :
    Does (.refreshPullIn ch fc) s [.chan ch] fun b => (b.chan ch).pullDue = true ∧ (b.chan ch).pulled = (s.blk.chan ch).pulled := by
  refine does_upd_eq (f := (·.pullIn ch fc)) rfl ((Block.pullIn_asks serves ok ref).trans (Block.tryRefab_other fc other)) (Block.modChan_kept ..) ?_
  rw [Block.askPull_chan]
  exact ⟨rfl, rfl⟩

end

/-! ### A repayment pass (R258) -/

section
variable {s : State} {ch : ChId} (serves : s.blk.chanServes ch = true) (calm : s.blk.panicAt ch = false)
include serves calm

theorem refpbPass_starts (owes : 0 < (s.blk.chan ch).owed) (none_ : (s.blk.chan ch).repay = false)
    (time : s.blk.olderThan usTicks (s.blk.chan ch).passAt = true) :
    Does (.refpbPass ch false) s [.chan ch] fun b =>
      (b.chan ch).repay = true ∧ (b.chan ch).passBank = 0 ∧ (b.chan ch).owed = (s.blk.chan ch).owed := by
  have made : s.blk.refpbPass ch false = s.blk.setChan ch { s.blk.chan ch with repay := true, passAt := some s.blk.ck.tide, passBank := 0 } := by
    simp [Block.refpbPass, serves, calm, owes, none_, time]
  refine does_upd_eq (f := (·.refpbPass ch false)) rfl made (Block.setChan_kept ..) ?_
  rw [Block.chan_setChan]
  exact ⟨rfl, rfl, rfl⟩

theorem refpbPass_ends (complete : s.blk.passComplete ch = true) :
    Does (.refpbPass ch true) s [.chan ch] fun b => (b.chan ch).repay = false ∧ (b.chan ch).owed = (s.blk.chan ch).owed - 1 := by
  have made : s.blk.refpbPass ch true
      = s.blk.setChan ch { s.blk.chan ch with owed := (s.blk.chan ch).owed - 1, repay := false, passBank := 0 } := by
    simp [Block.refpbPass, serves, calm, complete]
  refine does_upd_eq (f := (·.refpbPass ch true)) rfl made (Block.setChan_kept ..) ?_
  rw [Block.chan_setChan]
  exact ⟨rfl, rfl⟩

end
end Sys2Proof.Machine
end

section
/-! SUPPORT. Self-refresh (R259 to R262, R456): a channel falls asleep after its idle time, and wakes once it has left self-refresh. -/

namespace Sys2Proof.Machine

open Sys2Proof

/-! ### Entry (R259, R260) -/

theorem Block.enterSleep_openRows (b : Block) (x : Chan) (forced : Bool) : (b.enterSleep x forced).openRows = x.openRows := Chan.openRows_congr rfl

/-- SRE follows PREab by tRP. -/
theorem Block.enterSleep_sre (b : Block) (x : Chan) (forced : Bool) :
    ((b.enterSleep x forced).preab.any fun t => (b.enterSleep x forced).sre == some (t + 24)) = true := by
  simp [Block.enterSleep]

theorem Block.beginSleep_chan (b : Block) (n : Nat) (forced : Bool) :
    (b.beginSleep n forced).chan n = b.enterSleep (b.chan n).closeRows forced :=
  b.chan_setChan n (b.enterSleep (b.chan n).closeRows forced)

/-- What SR_IDLE_TIMER asks of a channel: AWAKE in service, with the idle time gone by and nothing waiting (R205, R259). -/
structure Block.maySleep (b : Block) (n : Nat) : Prop where
  awake : (b.chan n).pwr = .awake
  runs : b.coreRuns = true
  serving : (b.berth n).st = .ready ∨ (b.berth n).st = .throttled
  enabled : b.regBit (dcOff Off.dcChCtrl n) 0 = true
  unpinned : b.pinned n = false
  paid : (b.chan n).owed = 0
  undue : (b.chan n).refDue = false
  calibrated : (b.chan n).calDue = 0
  noParts : b.partsAt n = false
  noScrub : b.prot.scrub = none ∨ (b.chan n).scrubNext = none
  noReplay : (b.chan n).replayQ = []
  noResume : (b.chan n).resume = false
  noDump : b.dumpLeft n = []
  ok : b.sleepOk n = true
  idle : min (max (b.regField Off.dcCtrl 8 14) 1) 10000 * usTicks ≤ b.since (b.chan n).lastBusy

theorem Block.srIdle_sleeps {b : Block} {n : Nat} (h : b.maySleep n) : b.srIdle n = b.beginSleep n false :=
  if_pos ⟨h.awake, h.runs, h.serving, h.enabled, by simp [h.unpinned], h.paid, by simp [h.undue], h.calibrated, by simp [h.noParts],
    by simpa using h.noScrub, h.noDump, by simp [h.noReplay], by simp [h.noResume], h.idle, h.ok⟩

theorem Block.srIdle_stays {b : Block} {n : Nat} (h : (b.chan n).pwr ≠ .awake ∨ b.pinned n = true ∨ b.partsAt n = true) : b.srIdle n = b := by
  refine if_neg fun ⟨awake, _, _, _, unpinned, _, _, _, noParts, _⟩ => ?_
  rcases h with asleep | pinned | parts
  · exact asleep awake
  · exact unpinned pinned
  · exact noParts parts

section
variable {s : State} {ch : ChId}

theorem srIdleTimer_sleeps (h : s.blk.maySleep ch) :
    Does (.srIdleTimer ch) s [.chan ch, .count (dcOff Off.dcSrEntryLo ch)] fun b =>
      (b.chan ch).pwr = .entering ∧ (b.chan ch).openRows = 0 ∧ (b.chan ch).forced = false
        ∧ ((b.chan ch).preab.any fun t => (b.chan ch).sre == some (t + 24)) = true := by
  refine does_upd_eq (f := (·.srIdle ch)) rfl (Block.srIdle_sleeps h) (Block.beginSleep_kept ..) ?_
  rw [Block.beginSleep_chan, Block.enterSleep_openRows, Chan.closeRows_openRows]
  exact ⟨rfl, rfl, rfl, Block.enterSleep_sre ..⟩

/-! ### SR_ENTRY_DONE (R260 to R262) -/

section
variable (entering : (s.blk.chan ch).pwr = .entering) (sent : (s.blk.chan ch).sre.all (s.blk.passed 1) = true)
include entering sent

theorem srEntryDone_sleeps (unwanted : s.blk.wanted ch = false ∨ (s.blk.chan ch).forced = true) :
    Does (.srEntryDone ch) s [.chan ch] fun b => b.chan ch = { s.blk.chan ch with pwr := .selfRefresh } := by
  have made : s.blk.srEntry ch = s.blk.setChan ch { s.blk.chan ch with pwr := .selfRefresh } :=
    (if_neg (by simp [entering, sent])).trans (if_neg fun ⟨wanted, free⟩ => by simp [wanted, free] at unwanted)
  exact does_upd_eq (f := (·.srEntry ch)) rfl made (Block.setChan_kept ..) (Block.chan_setChan ..)

theorem srEntryDone_wakes (free : (s.blk.chan ch).forced = false) (wanted : s.blk.wanted ch = true) :
    Does (.srEntryDone ch) s [.chan ch] fun b => (b.chan ch).pwr = .exiting ∧ (b.chan ch).srx.isSome = true := by
  have made : s.blk.srEntry ch = s.blk.setChan ch (s.blk.sendSrx (s.blk.chan ch)) :=
    (if_neg (by simp [entering, sent])).trans (if_pos ⟨wanted, by simp [free]⟩)
  refine does_upd_eq (f := (·.srEntry ch)) rfl made (Block.setChan_kept ..) ?_
  rw [Block.chan_setChan]
  exact ⟨rfl, rfl⟩

end

/-! ### SR_EXIT_DONE (R260, R261, R456) -/

/-- The block with a channel AWAKE, its first tick one interval after tXS. -/
def Block.awoken (b : Block) (n : Nat) : Block :=
  b.setChan n { b.chan n with
    pwr := .awake, forced := false, lastTick := (b.chan n).srx.getD b.ck.tide + 608, tickIn := b.refi n, lastBusy := b.ck.tide }

section
variable {lost : BitVec 64} {edge : List (Nat × Nat)} (exiting : (s.blk.chan ch).pwr = .exiting) (runs : s.blk.coreRuns = true)
  (time : s.blk.passed 608 ((s.blk.chan ch).srx.getD s.blk.ck.tide) = true)
include exiting runs time

theorem Block.srExit_awake (kept : lost.getLsbD ch = false) : s.blk.srExit ch lost edge = (s.blk.awoken ch).activateWoken :=
  (if_neg (by simp [exiting, runs, time])).trans (if_neg (by rw [kept]; exact Bool.false_ne_true))

theorem Block.srExit_lost (gone : lost.getLsbD ch = true) :
    s.blk.srExit ch lost edge
      = ((s.blk.awoken ch).wakeCheck lost (edgeAge edge)).modChan ch fun x => { x with returning := false, calDue := 0 } :=
  (if_neg (by simp [exiting, runs, time])).trans (if_pos gone)

theorem srExitDone_awake (kept : lost.getLsbD ch = false) :
    Does (.srExitDone ch lost edge) s [.berths, .chans, .chs, .cnt, .events, .fws, .ins, .lanes, .mf, .pw, .qy, .regs, .running, .sides, .slots, .stk, .tl] fun b =>
      (b.chan ch).pwr = .awake ∧ (b.chan ch).lastTick = (s.blk.chan ch).srx.getD s.blk.ck.tide + 608 ∧ b.stk = s.blk.stk := by
  have frame := (s.blk.awoken ch).activateWoken_kept
  have chan : (s.blk.awoken ch).activateWoken.chan ch = _ := (frame.out (.chan ch) (by simp [Piece.among])).trans (Block.chan_setChan ..)
  have stk : (s.blk.awoken ch).activateWoken.stk = s.blk.stk := frame.out .stk (by simp [Piece.among])
  refine does_framed (f := (·.srExit ch lost edge)) rfl (execSrExitDone_kept ch lost edge ·) Within.refl ?_
  rw [Block.srExit_awake exiting runs time kept, chan, stk]
  exact ⟨rfl, rfl, rfl⟩

theorem srExitDone_lost (gone : lost.getLsbD ch = true) :
    Does (.srExitDone ch lost edge) s [.berths, .chans, .chs, .cnt, .events, .fws, .ins, .lanes, .mf, .pw, .qy, .regs, .running, .sides, .slots, .stk, .tl] fun b =>
      b.stk.fence.getLsbD ch = true := by
  have awake : ((s.blk.awoken ch).chan ch).pwr = .awake := congrArg Chan.pwr (Block.chan_setChan ..)
  have stk (b : Block) (f : Chan → Chan) : (b.modChan ch f).stk = b.stk := (b.modChan_kept ch f).out .stk (by simp [Piece.among])
  refine does_framed (f := (·.srExit ch lost edge)) rfl (execSrExitDone_kept ch lost edge ·) Within.refl ?_
  rw [Block.srExit_lost exiting runs time gone, stk]
  exact Block.diagnose_fences _ (edgeAge edge) ch.isLt (by simp [awake]) (by simp [Block.clocked, awake]) gone

end
end

/-- Settles O38: a tick by what it asks for, a REFab by what it leaves whatever goes with it, self-refresh by the channel's power state. -/
theorem refreshAndSelfRefresh : Obligations.RefreshAndSelfRefresh := by
  unfold Obligations.RefreshAndSelfRefresh
  exact ⟨fun _ _ _ => exec_refreshTick_idle, fun _ _ _ _ => refreshTick_issues, fun _ _ _ => refreshTick_due,
    fun _ _ _ => refreshTick_owes, fun _ _ _ => refreshTick_limit, fun _ _ _ => refreshTick_pulled,
    fun _ _ _ _ => refreshPullIn_issues, fun _ _ _ => refreshPullIn_asks, fun _ _ => refpbPass_starts, fun _ _ => refpbPass_ends,
    fun _ _ awake runs serving enabled unpinned paid undue calibrated noParts noScrub noReplay noResume noDump ok idle =>
      srIdleTimer_sleeps ⟨awake, runs, serving, enabled, unpinned, paid, undue, calibrated, noParts, noScrub, noReplay, noResume, noDump, ok, idle⟩,
    fun s ch h => exec_upd_same (f := (·.srIdle ch)) rfl (Block.srIdle_stays h),
    fun _ _ => srEntryDone_sleeps, fun _ _ => srEntryDone_wakes, fun _ _ _ _ => srExitDone_awake, fun _ _ _ _ => srExitDone_lost⟩

end Sys2Proof.Machine
end

section
/-! SUPPORT. CA_ALERT (R267, R275): a replay counted, and the eighth within a millisecond. -/

namespace Sys2Proof.Machine

open Sys2Proof

/-! ### A replay is counted (R275) -/

theorem Block.col_setCol (b : Block) (n k : Nat) (x : Column) : (b.setCol n x).col k = if n = k then x else b.col k := tget_tset ..

theorem Block.since_now (b : Block) : b.since b.ck.tide = 0 := by simp [Block.since]

/-- The column's replays of the last millisecond. -/
def Block.lateReplays (b : Block) (n : Nat) : List Tide := (b.col n).replays.filter fun t => b.since t < msTicks

/-- A replay counted at its column, with the replays to remember and whether the coil test is due. -/
def Block.replayNoted (b : Block) (n : Nat) (times : List Tide) (due : Bool) : Block :=
  (b.setCol n { b.col n with replay := inc32 (b.col n).replay, replays := times, caTestDue := due }).tally n 0x021 [0] 1

section
variable (b : Block) (n : Nat) (times : List Tide) (due : Bool)

theorem Block.replayNoted_kept : Kept [.col n, .reg (tlOff Off.tlOvf n), .tl] b (b.replayNoted n times due) :=
  Kept.step (Block.tally_kept ..) (Within.of_subset (by simp)) ((Block.setCol_kept ..).mono (Within.of_subset (by simp)))

theorem Block.replayNoted_col :
    (b.replayNoted n times due).col n = { b.col n with replay := inc32 (b.col n).replay, replays := times, caTestDue := due } :=
  ((Block.tally_kept ..).out (.col n) (by simp [Piece.among])).trans ((Block.col_setCol ..).trans (if_pos rfl))

variable {b n}

theorem Block.countReplay_seldom (few : (b.lateReplays n).length < 7) :
    b.countReplay n = b.replayNoted n (b.ck.tide :: b.lateReplays n) (b.col n).caTestDue := by
  have early : ¬ 8 ≤ (b.lateReplays n).length + 1 := by omega
  unfold Block.countReplay
  simp only [List.filter_cons, b.since_now, show (0 : Nat) < msTicks by decide, decide_true, if_true, List.length_cons]
  change (if decide (8 ≤ (b.lateReplays n).length + 1) = true then _ else _) = _
  rw [Block.replayNoted, Block.lateReplays] at *
  simp [early]

theorem Block.countReplay_eighth (many : 7 ≤ (b.lateReplays n).length) :
    b.countReplay n = (b.replayNoted n [] true).orReg Off.stAlarm 16 := by
  have eighth : 8 ≤ (b.lateReplays n).length + 1 := by omega
  unfold Block.countReplay
  simp only [List.filter_cons, b.since_now, show (0 : Nat) < msTicks by decide, decide_true, if_true, List.length_cons]
  rw [Block.replayNoted, Block.lateReplays] at *
  simp [eighth]

end

/-! ### CA_ALERT -/

section
variable {s : State} {ch : ChId} {back : Nat} {coils : List (BitVec 4)}

theorem exec_caAlert_idle (h : s.blk.reaches ch = false ∨ caGood ((s.blk.col ch).caWord coils) = true) :
    exec (.caAlert ch back coils) s = .next s :=
  exec_upd_same (f := (·.caAlert ch back coils)) rfl (if_pos (by simpa using h))

section
variable {b : Block} {n : Nat}

/-- The channel with its commands to be replayed, before the replay is counted. -/
def Block.replaying (b : Block) (n back : Nat) : Block := b.setChan n (b.replayFrom (b.chan n) back)

theorem Block.replayFrom_resume (x : Chan) : (b.replayFrom x back).resume = true := by
  unfold Block.replayFrom
  dsimp only
  split <;> rfl

theorem Block.caAlert_awake (serves : b.chanServes n = true) (broken : caGood ((b.col n).caWord coils) = false) :
    b.caAlert n back coils = (b.replaying n back).countReplay n := by
  obtain ⟨awake, reaches⟩ := (Bool.and_eq_true _ _).mp serves
  exact (if_neg (by simp [reaches, broken])).trans (if_pos (by simpa using awake))

theorem Block.caAlert_asleep (reaches : b.reaches n = true) (asleep : (b.chan n).pwr ≠ .awake) (broken : caGood ((b.col n).caWord coils) = false)
    (moves : b.resleep (b.chan n) back ≠ b.chan n) :
    b.caAlert n back coils = (b.setChan n (b.resleep (b.chan n) back)).countReplay n :=
  (if_neg (by simp [reaches, broken])).trans ((if_neg asleep).trans (if_neg moves))

end

/-- A replay that is not the eighth within a millisecond, at a channel that is now `x`. -/
theorem caAlert_seldom {x : Chan} {post : Chan → Prop} (made : s.blk.caAlert ch back coils = (s.blk.setChan ch x).countReplay ch)
    (few : (s.blk.lateReplays ch).length < 7) (h : post x) :
    Does (.caAlert ch back coils) s [.chan ch, .col ch, .reg (tlOff Off.tlOvf ch), .tl] fun b =>
      (b.col ch).replay = inc32 (s.blk.col ch).replay ∧ (b.col ch).caTestDue = (s.blk.col ch).caTestDue ∧ post (b.chan ch) := by
  have frame := (s.blk.setChan ch x).replayNoted_kept ch (s.blk.ck.tide :: s.blk.lateReplays ch) (s.blk.col ch).caTestDue
  have chan := (frame.out (.chan ch) (by simp [Piece.among])).trans (Block.chan_setChan s.blk ch x)
  refine does_upd_eq (f := (·.caAlert ch back coils)) rfl (made.trans (Block.countReplay_seldom few)) ?_ ?_
  · exact Kept.step frame (Within.of_subset (by simp)) ((Kept.setChan ..).mono (Within.of_subset (by simp)))
  · rw [Block.replayNoted_col]
    exact ⟨rfl, rfl, (congrArg post chan).mpr h⟩

theorem caAlert_replays (serves : s.blk.chanServes ch = true) (broken : caGood ((s.blk.col ch).caWord coils) = false)
    (few : ((s.blk.col ch).replays.filter fun t => s.blk.since t < msTicks).length < 7) :
    Does (.caAlert ch back coils) s [.chan ch, .col ch, .reg (tlOff Off.tlOvf ch), .tl] fun b =>
      (b.col ch).replay = inc32 (s.blk.col ch).replay ∧ (b.col ch).caTestDue = (s.blk.col ch).caTestDue ∧ (b.chan ch).resume = true :=
  caAlert_seldom (post := (·.resume = true)) (Block.caAlert_awake serves broken) few (Block.replayFrom_resume _)

theorem caAlert_eighth (serves : s.blk.chanServes ch = true) (broken : caGood ((s.blk.col ch).caWord coils) = false)
    (many : 7 ≤ ((s.blk.col ch).replays.filter fun t => s.blk.since t < msTicks).length) :
    Does (.caAlert ch back coils) s [.chan ch, .col ch, .reg (tlOff Off.tlOvf ch), .reg Off.stAlarm, .tl] fun b =>
      (b.col ch).replay = inc32 (s.blk.col ch).replay ∧ (b.col ch).caTestDue = true ∧ (b.col ch).replays = [] ∧ b.regBit Off.stAlarm 4 = true
        ∧ (b.chan ch).resume = true := by
  have made := (Block.caAlert_awake (back := back) serves broken).trans (Block.countReplay_eighth (b := s.blk.replaying ch back) many)
  have frame := (s.blk.replaying ch back).replayNoted_kept ch [] true
  have chan : ((s.blk.replaying ch back).replayNoted ch [] true).chan ch = s.blk.replayFrom (s.blk.chan ch) back :=
    (frame.out (.chan ch) (by simp [Piece.among])).trans (Block.chan_setChan ..)
  have col := (s.blk.replaying ch back).replayNoted_col ch [] true
  refine does_framed (f := (·.caAlert ch back coils)) rfl (execCaAlert_kept ch back coils ·) Within.refl ?_
  rw [made]
  refine ⟨congrArg Column.replay col, congrArg Column.caTestDue col, congrArg Column.replays col, ?_, ?_⟩
  · rw [Block.regBit_orReg]; simp
  · exact (congrArg Chan.resume chan).trans (Block.replayFrom_resume _)

theorem caAlert_resleeps (reaches : s.blk.reaches ch = true) (asleep : (s.blk.chan ch).pwr ≠ .awake)
    (broken : caGood ((s.blk.col ch).caWord coils) = false) (moves : s.blk.resleep (s.blk.chan ch) back ≠ s.blk.chan ch)
    (few : ((s.blk.col ch).replays.filter fun t => s.blk.since t < msTicks).length < 7) :
    Does (.caAlert ch back coils) s [.chan ch, .col ch, .reg (tlOff Off.tlOvf ch), .tl] fun b =>
      (b.col ch).replay = inc32 (s.blk.col ch).replay ∧ b.chan ch = s.blk.resleep (s.blk.chan ch) back := by
  obtain ⟨t, next, store, frame, replay, -, chan⟩ := caAlert_seldom (post := (· = s.blk.resleep (s.blk.chan ch) back))
    (Block.caAlert_asleep reaches asleep broken moves) few rfl
  exact ⟨t, next, store, frame, replay, chan⟩

end

end Sys2Proof.Machine
end

section
/-! SUPPORT. What the end of requests, a side that trains again, and the way to OPEN leave of the stack: its relays, its fence bits, DMAN,
the alarms of the stack, and the state of every berth that is not FENCED. -/

namespace Sys2Proof.Machine

open Sys2Proof

/-! ### The stack as requests end -/

/-- Relays, fence bits, DMAN, the alarms of the stack and the memory side's reset stand as before, and a berth changes state only
from FENCED. -/
structure Block.SameStack (b c : Block) : Prop where
  relay : c.stk.relay = b.stk.relay
  fence : c.stk.fence = b.stk.fence
  dman : c.stk.dman = b.stk.dman
  resetting : c.qy.resetting = b.qy.resetting
  alarm : c.reg Off.stAlarm = b.reg Off.stAlarm
  serving : ∀ n, (b.berth n).st ≠ .fenced → (c.berth n).st = (b.berth n).st

theorem Block.SameStack.refl (b : Block) : b.SameStack b := ⟨rfl, rfl, rfl, rfl, rfl, fun _ _ => rfl⟩

theorem Block.SameStack.trans {b c d : Block} (h : b.SameStack c) (k : c.SameStack d) : b.SameStack d := by
  refine ⟨k.relay.trans h.relay, k.fence.trans h.fence, k.dman.trans h.dman, k.resetting.trans h.resetting, k.alarm.trans h.alarm, fun n serves => ?_⟩
  have same := h.serving n serves
  exact (k.serving n (same ▸ serves)).trans same

/-- A change that leaves the stack, after others. -/
theorem Block.SameStack.after {b c d : Block} (k : c.SameStack d) (h : b.SameStack c) : b.SameStack d := h.trans k

theorem Block.SameStack.foldl {α : Type} {f : Block → α → Block} (b : Block) (xs : List α) (h : ∀ (b : Block), ∀ x ∈ xs, b.SameStack (f b x)) :
    b.SameStack (xs.foldl f b) :=
  List.foldlRecOn (motive := b.SameStack) xs f (.refl b) fun c hc x listed => hc.trans (h c x listed)

theorem Block.SameStack.ite {b c d : Block} {p : Prop} [Decidable p] (h : b.SameStack c) (k : b.SameStack d) :
    b.SameStack (if p then c else d) := by
  split
  · exact h
  · exact k

theorem Block.SameStack.regBit {b c : Block} (h : b.SameStack c) (i : Nat) : c.regBit Off.stAlarm i = b.regBit Off.stAlarm i := by
  rw [Block.regBit, h.alarm, Block.regBit]

/-- A change of the quay alone that leaves the memory side's reset. -/
theorem Block.SameStack.of_qy {b c : Block} (stk : c.stk = b.stk) (csr : c.csr = b.csr) (berths : c.berths = b.berths)
    (resetting : c.qy.resetting = b.qy.resetting) : b.SameStack c :=
  ⟨by rw [stk], by rw [stk], by rw [stk], resetting, by rw [Block.reg, csr, Block.reg], fun n _ => by rw [Block.berth, berths, Block.berth]⟩

/-- A change of the piece leaves the stack, its alarms and every berth. -/
@[simp] def Piece.offStack : Piece → Prop
  | .regs | .berths | .berth _ | .stk => False
  | .reg o => o ≠ Off.stAlarm
  | _ => True

@[simp] theorem lgAlarm_ne_stAlarm : Off.lgAlarm ≠ Off.stAlarm := by decide

@[simp] theorem fwAlarm_ne_stAlarm : Off.fwAlarm ≠ Off.stAlarm := by decide

@[simp] theorem tlAlarm_ne_stAlarm : Off.tlAlarm ≠ Off.stAlarm := by decide

@[simp] theorem tlOvf_ne_stAlarm (n : Nat) : tlOff Off.tlOvf n ≠ Off.stAlarm := by simp only [tlOff, Off.tlOvf, Off.stAlarm]; omega

@[simp] theorem btAlarm_ne_stAlarm (n : Nat) : btOff Off.btAlarm n ≠ Off.stAlarm := by simp only [btOff, Off.btAlarm, Off.stAlarm]; omega

@[simp] theorem btLat_ne_stAlarm (n : Nat) : btOff Off.btLat n ≠ Off.stAlarm := by simp only [btOff, Off.btLat, Off.stAlarm]; omega

theorem lnTxDrv_ne_stAlarm {l : Nat} (lane : l < 32) : lnOff Off.lnTxDrv l ≠ Off.stAlarm := by
  simp only [lnOff, laneBase, Off.lnTxDrv, Off.stAlarm]
  split <;> omega

@[simp] theorem lnEcStatus_ne_stAlarm (l : Nat) : lnOff Off.lnEcStatus l ≠ Off.stAlarm := by
  have set := laneBase_mod l
  simp only [lnOff, Off.lnEcStatus, Off.stAlarm]
  omega

theorem Kept.sameStack {ps : List Piece} {b c : Block} (h : Kept ps b c) (off : ¬ Piece.qy.among ps ∧ ∀ p ∈ ps, p.offStack) : b.SameStack c := by
  obtain ⟨quay, off⟩ := off
  have stk : c.stk = b.stk := h.out .stk (off _)
  have alarm : c.reg Off.stAlarm = b.reg Off.stAlarm := h.out (.reg Off.stAlarm) fun listed => listed.elim (off _) fun one => off _ one rfl
  have berth (n : Nat) : c.berth n = b.berth n := h.out (.berth n) fun listed => listed.elim (off _) (off _)
  exact ⟨by rw [stk], by rw [stk], by rw [stk], h.qyOf quay Quay.resetting fun _ => rfl, alarm, fun n _ => by rw [berth]⟩

section
variable (b : Block)

theorem Block.setReg_sameStack {o : Nat} (v : Word) (h : o ≠ Off.stAlarm) : b.SameStack (b.setReg o v) :=
  (b.setReg_kept o v).sameStack (by simpa [Piece.among] using h)

theorem Block.orReg_sameStack {o : Nat} (v : Word) (h : o ≠ Off.stAlarm) : b.SameStack (b.orReg o v) := b.setReg_sameStack _ h

theorem Block.event_sameStack (e : Ev) (unit : Nat) (detail : List (BitVec 16)) : b.SameStack (b.event e unit detail) :=
  (b.event_kept e unit detail).sameStack (by simp [Piece.among])

theorem Block.modSide_sameStack (sd : Side) (f : SideSt → SideSt) : b.SameStack (b.modSide sd f) := (b.modSide_kept sd f).sameStack (by simp [Piece.among])

theorem Block.modLane_sameStack (l : Nat) (f : Lane → Lane) : b.SameStack (b.modLane l f) := (b.modLane_kept l f).sameStack (by simp [Piece.among])

/-- A berth's change that leaves its state, or that of a FENCED one. -/
theorem Block.modBerth_sameStack (n : Nat) {f : Berth → Berth} (h : (f (b.berth n)).st = (b.berth n).st ∨ (b.berth n).st = .fenced) :
    b.SameStack (b.modBerth n f) := by
  refine ⟨rfl, rfl, rfl, rfl, rfl, fun k serves => ?_⟩
  rw [Block.berth_modBerth]
  split
  case isTrue e =>
    subst e
    exact h.resolve_right serves
  case isFalse => rfl

/-! ### Requests and remote writes -/

theorem Block.putIns_sameStack (i : Ins) : b.SameStack (b.putIns i) := (b.putIns_kept i).sameStack (by simp [Piece.among])

theorem Block.dropReq_sameStack (id : Nat) : b.SameStack (b.dropReq id) := .of_qy rfl rfl rfl rfl

theorem Block.modReq_sameStack (id : Nat) (f : Req → Req) : b.SameStack (b.modReq id f) := .of_qy rfl rfl rfl rfl

theorem Block.wakeFences_sameStack : b.SameStack b.wakeFences := by
  unfold Block.wakeFences
  refine .foldl b _ fun c r _ => ?_
  split
  · exact .refl c
  · exact (c.dropReq_sameStack r.id).trans ((Block.complete_kept ..).sameStack (by simp [Piece.among]))

theorem Block.copyNext_sameStack (c : CopyOut) : b.SameStack (b.copyNext c) := by
  unfold Block.copyNext
  extract_lets others sentOn next quay ended
  have sent : b.SameStack sentOn := .ite (b.putIns_sameStack _) (.refl b)
  have closed : b.SameStack ended := sent.trans (.of_qy rfl rfl rfl rfl)
  exact .after (Block.wakeFences_sameStack _)
    (.ite (.ite (closed.trans (Block.putIns_sameStack ..)) closed) (sent.trans (.of_qy rfl rfl rfl rfl)))

theorem Block.remEnds_sameStack (w : RemWrite) (e : RemEnd) : b.SameStack (b.remEnds w e) := by
  unfold Block.remEnds
  extract_lets quay released first
  have freed : b.SameStack released := .of_qy rfl rfl rfl rfl
  have failed (c : CopyOut) : b.SameStack (released.copyFail c) := freed.trans ((released.copyFail_kept c).sameStack (by simp [Piece.among]))
  split
  · exact freed
  · next c _ =>
    split
    · exact .after (Block.copyNext_sameStack ..) (.ite freed (failed c))
    · exact (failed c).trans (Block.copyNext_sameStack ..)
    · exact (failed c).trans (Block.copyNext_sameStack ..)

theorem Block.sendRemote_sameStack (r : Req) (w : RemWrite) (k : Nat) (vs : Vals) : b.SameStack (b.sendRemote r w k vs) := by
  unfold Block.sendRemote
  split
  · exact b.remEnds_sameStack ..
  · exact .ite (b.remEnds_sameStack ..) (b.putIns_sameStack _)

theorem Block.purgeSide_sameStack (sd : Side) : b.SameStack (b.purgeSide sd) := by
  unfold Block.purgeSide
  extract_lets mine quay emptied lost cleared dropped
  have dropping : b.SameStack dropped := .after (.foldl _ _ fun c _ _ => (c.dropFlit_kept _).sameStack (by simp [Piece.among]))
    (.after ((Block.modFw_kept ..).sameStack (by simp [Piece.among])) (.of_qy rfl rfl rfl rfl))
  refine .after (Block.wakeFences_sameStack _) (.after (.foldl _ _ fun c i _ => ?_) dropping)
  split
  · split
    · exact .ite (.after ((Block.dumpFail_kept _).sameStack (by simp [Piece.among])) (c.remEnds_sameStack ..)) (c.remEnds_sameStack ..)
    · exact .refl c
  · exact .ite ((c.cplDiscard_kept sd).sameStack (by simp [Piece.among])) (.refl c)

/-! ### The way to OPEN (R365) -/

theorem Block.endWindow_sameStack (sd : Side) : b.SameStack (b.endWindow sd) := by
  unfold Block.endWindow
  split
  · exact .refl b
  · have noWindow := b.modSide_sameStack sd fun x => { x with win := none }
    exact .ite (noWindow.trans (.foldl _ _ fun c l _ => c.setReg_sameStack _ (lnEcStatus_ne_stAlarm l))) noWindow

theorem Block.leaveRun_sameStack (sd : Side) (seg : SegState) : b.SameStack (b.leaveRun sd seg) :=
  (b.endWindow_sameStack sd).trans (Block.modSide_sameStack ..)

theorem Block.sideFails_sameStack (sd : Side) : b.SameStack (b.sideFails sd) :=
  .after ((Block.freshCaps_kept _).sameStack (by simp [Piece.among])) (.after (Block.event_sameStack ..)
    (.after (.foldl _ _ fun c l _ => c.modLane_sameStack l _) (b.leaveRun_sameStack sd .down)))

theorem Block.startHunt_sameStack {l : Nat} (g : Fin 4) (lane : l < 32) : b.SameStack (b.startHunt l g false) :=
  (b.startHunt_kept l g false).sameStack (by simp [Piece.among, lnTxDrv_ne_stAlarm lane])

theorem sideLanes_lt {sd : Side} {l : Nat} (h : l ∈ sideLanes sd) : l < 32 := by
  obtain ⟨i, low, rfl⟩ := List.mem_map.mp h
  rw [List.mem_range] at low
  cases sd <;> simp only [laneOf] <;> omega

theorem Block.trainSide_sameStack (sd : Side) (g : Fin 4) (inLoop : Bool) : b.SameStack (b.trainSide sd g inLoop) :=
  .ite (b.sideFails_sameStack sd)
    (((b.leaveRun_sameStack sd .training).trans (Block.modSide_sameStack ..)).trans (.foldl _ _ fun c l listed =>
      c.startHunt_sameStack g (sideLanes_lt (List.mem_of_mem_filter listed))))

/-- The move of R365 at one side: its cap on the grade is lifted, and a running segment trains again. -/
def Block.liftCap (b : Block) (sd : Side) : Block :=
  if (b.side sd).seg = .down then b.modSide sd fun x => { x with capG2 := false }
  else if (b.side sd).seg = .run ∧ (b.side sd).capG2 then (b.modSide sd fun x => { x with capG2 := false }).retrainSide sd 0 false
  else b

theorem Block.liftCap_sameStack (sd : Side) : b.SameStack (b.liftCap sd) :=
  have lifted := b.modSide_sameStack sd fun x => { x with capG2 := false }
  .ite lifted (.ite ((lifted.trans (Block.trainSide_sameStack ..)).trans (Block.purgeSide_sameStack ..)) (.refl b))

/-- The side does not keep the pier from OPEN: it is down, or in RUN without a cap on its grade (R365). -/
def Block.sideDone (b : Block) (sd : Side) : Bool := (b.side sd).seg == .down || ((b.side sd).seg == .run && !(b.side sd).capG2)

theorem Block.checkOpen_eq : b.checkOpen =
    if b.pw.st != .harbour || !b.filledAndClear then b
    else if ((b.liftCap .west).liftCap .east).sideDone .west && ((b.liftCap .west).liftCap .east).sideDone .east then
      ((b.liftCap .west).liftCap .east).enterOpen
    else (b.liftCap .west).liftCap .east := rfl

theorem Block.checkOpen_sameStack : b.SameStack b.checkOpen := by
  rw [Block.checkOpen_eq]
  have lifted := (b.liftCap_sameStack .west).trans (Block.liftCap_sameStack _ .east)
  exact .ite (.refl b) (.ite (lifted.trans ((Block.enterOpen_kept _).sameStack (by simp [Piece.among]))) lifted)

/-! ### Requests that end -/

theorem Block.grantStaging_sameStack (n : Nat) : b.SameStack (b.grantStaging n) := by
  have group (c : Block) (inB : Bool) : c.SameStack (c.grantGroup n inB) := by
    unfold Block.grantGroup
    refine List.foldlRecOn (motive := fun acc : Block × Bool => c.SameStack acc.1) _ _ (.refl c) fun acc h e _ => ?_
    dsimp only
    split_ifs
    · exact h
    · exact h.trans (Block.modReq_sameStack ..)
    · exact h
  exact (group b true).trans (group _ false)

/-- A FENCED berth without outstanding parts goes ABSENT. -/
def Block.emptyBerth (b : Block) (n : Nat) : Block :=
  if (b.berth n).st = .fenced ∧ ¬ b.busyAt n then b.modBerth n fun x => { x with st := .absent } else b

theorem Block.emptyBerth_sameStack (n : Nat) : b.SameStack (b.emptyBerth n) := by
  unfold Block.emptyBerth
  split
  · next h => exact b.modBerth_sameStack n (.inr h.1)
  · exact .refl b

theorem Block.settle_sameStack : b.SameStack b.settle := by
  have emptied : b.SameStack (b.each (List.range 64) Block.emptyBerth) := .foldl _ _ fun c n _ => c.emptyBerth_sameStack n
  unfold Block.settle
  unfold Block.emptyBerth at emptied
  dsimp only
  generalize Block.each .. = c at emptied ⊢
  split
  · exact .ite (emptied.trans ⟨rfl, rfl, rfl, rfl, rfl, fun _ _ => rfl⟩) emptied
  · exact emptied

theorem Block.afterReq_sameStack (r : Req) : b.SameStack (b.afterReq r) :=
  .after (Block.wakeFences_sameStack _) (.after (Block.settle_sameStack _) (.after ((Block.clearPanic_kept _).sameStack (by simp [Piece.among]))
    (.foldl _ _ fun c n _ => .after (Block.grantStaging_sameStack _ n) ((c.modChan_kept n _).sameStack (by simp [Piece.among])))))

theorem Block.endReq_sameStack (r : Req) (level : Nat) (a : Answer) : b.SameStack (b.endReq r level a) :=
  .after (Block.afterReq_sameStack _ r) (.after ((Block.complete_kept ..).sameStack (by simp [Piece.among]))
    (.after (Block.dropReq_sameStack _ r.id) (.of_qy rfl rfl rfl rfl)))

theorem Block.emitCopy_sameStack (r : Req) : b.SameStack (b.emitCopy r) :=
  .after (Block.afterReq_sameStack _ r) (.after (.foldl _ _ fun c _ _ => c.sendRemote_sameStack ..) (.of_qy rfl rfl rfl rfl))

theorem Block.bump_sameStack (off n : Nat) : b.SameStack (b.bump off n) := .of_qy rfl rfl rfl rfl

theorem Block.served_sameStack (r : Req) (p : Part) (poisoned : Bool) : b.SameStack (b.served r p poisoned) := by
  unfold Block.served
  extract_lets n b1 b2 b3 lat b4
  have counted : b.SameStack b2 := .trans (b.bump_sameStack ..) (.ite (Block.bump_sameStack ..) (.refl _))
  have poison : b2.SameStack b3 := .ite (.trans (.trans (Block.bump_sameStack ..) (Block.orReg_sameStack _ _ (btAlarm_ne_stAlarm _)))
    ((Block.tally_kept ..).sameStack (by simp [Piece.among]))) (.refl _)
  have longest : b3.SameStack b4 := .ite (Block.setReg_sameStack _ _ (btLat_ne_stAlarm _)) (.refl _)
  have all := (counted.trans poison).trans longest
  split
  · exact all
  · exact all.trans ((Block.modCharter_kept ..).sameStack (by simp [Piece.among]))

theorem Block.checkReq_sameStack (id : Nat) : b.SameStack (b.checkReq id) := by
  unfold Block.checkReq
  split
  case h_1 => exact .refl b
  case h_2 r _ =>
    refine .ite (.ite (.ite ?poisoned (.refl b)) (.ite (.ite (b.endReq_sameStack ..) (b.endReq_sameStack ..)) (.refl b)))
      (.ite (.ite (b.emitCopy_sameStack r) (b.endReq_sameStack ..)) (.refl b))
    case poisoned => exact .trans (.foldl _ _ fun c p _ => c.served_sameStack r p true) (Block.endReq_sameStack ..)

theorem Block.fenceReq_sameStack (age n id : Nat) : b.SameStack (b.fenceReq age n id) := by
  unfold Block.fenceReq
  split
  case h_1 => exact .refl b
  case h_2 r _ =>
    refine .ite (.ite (.refl b) ?unwritten) (.ite (b.endReq_sameStack ..) (.refl b))
    case unwritten => exact .after (Block.checkReq_sameStack _ id) (.after (Block.modReq_sameStack ..) (b.modBerth_sameStack n (.inl rfl)))

theorem Block.fenceReqs_sameStack (age n : Nat) (ids : List Nat) : b.SameStack (b.each ids fun b id => b.fenceReq age n id) :=
  .foldl _ _ fun c id _ => c.fenceReq_sameStack age n id

end

end Sys2Proof.Machine
end

section
/-! SUPPORT. RETURN_CLOCK_LOST (R276, R278): which columns count as lost, and what the fence of a list of channels leaves. -/

namespace Sys2Proof.Machine

open Sys2Proof

/-! ### The fence of a list of channels (R278) -/

/-- The channels of the list are fenced, and nothing else of the stack changes but that FENCED berths may go ABSENT. -/
structure Block.Fences (ns : List Nat) (b c : Block) : Prop where
  relay : c.stk.relay = b.stk.relay
  dman : c.stk.dman = b.stk.dman
  resetting : c.qy.resetting = b.qy.resetting
  alarm : c.reg Off.stAlarm = b.reg Off.stAlarm
  fence : ∀ k, k < 64 → c.stk.fence.getLsbD k = (b.stk.fence.getLsbD k || decide (k ∈ ns))
  serving : ∀ k, k ∉ ns → (b.berth k).st ≠ .fenced → (c.berth k).st = (b.berth k).st

theorem Block.SameStack.fences {b c : Block} (h : b.SameStack c) : Block.Fences [] b c :=
  ⟨h.relay, h.dman, h.resetting, h.alarm, fun k _ => by rw [h.fence]; simp, fun k _ => h.serving k⟩

theorem Block.Fences.trans {ns ms : List Nat} {b c d : Block} (h : Block.Fences ns b c) (k : Block.Fences ms c d) : Block.Fences (ns ++ ms) b d := by
  refine ⟨k.relay.trans h.relay, k.dman.trans h.dman, k.resetting.trans h.resetting, k.alarm.trans h.alarm, fun i low => ?_, fun i out serves => ?_⟩
  · rw [k.fence i low, h.fence i low, Bool.or_assoc, ← Bool.decide_or]
    simp only [List.mem_append]
  · rw [List.mem_append, not_or] at out
    have same := h.serving i out.1 serves
    exact (k.serving i out.2 (same ▸ serves)).trans same

theorem Block.Fences.sameStack {ns : List Nat} {b c d : Block} (h : Block.Fences ns b c) (k : c.SameStack d) : Block.Fences ns b d :=
  ns.append_nil ▸ h.trans k.fences

theorem Block.Fences.regBit {ns : List Nat} {b c : Block} (h : Block.Fences ns b c) {i : Nat} (set : b.regBit Off.stAlarm i = true) :
    c.regBit Off.stAlarm i = true := by
  rwa [Block.regBit, h.alarm]

theorem chBit_getLsbD {n k : Nat} (low : k < 64) : (chBit n).getLsbD k = decide (k = n) := by
  rw [chBit, BitVec.getLsbD_ofNat, Nat.testBit_two_pow, decide_eq_true low, Bool.true_and]
  exact decide_eq_decide.mpr eq_comm

theorem Block.fenceBit_fences (b : Block) (n : Nat) : Block.Fences [n] b (b.fenceBit n) :=
  ⟨rfl, rfl, rfl, rfl, fun k low => by rw [Block.fenceBit, BitVec.getLsbD_or, chBit_getLsbD low]; simp, fun _ _ _ => rfl⟩

/-- The channel's berth changes, and what is not of the stack. -/
theorem Block.Fences.enterFenced (b : Block) (n : Nat) : Block.Fences [n] (b.fenceBit n) ((b.fenceBit n).enterFenced n) := by
  have kept := (b.fenceBit n).enterFenced_kept n
  have stk : ((b.fenceBit n).enterFenced n).stk = (b.fenceBit n).stk := kept.out .stk (by simp [Piece.among])
  refine ⟨by rw [stk], by rw [stk], kept.qyOf (by simp [Piece.among]) Quay.resetting (fun _ => rfl),
    kept.out (.reg Off.stAlarm) (by simpa [Piece.among] using (btAlarm_ne_stAlarm n).symm), fun k low => ?_, fun k out _ => ?_⟩
  · have set : (b.fenceBit n).stk.fence.getLsbD k = (b.stk.fence.getLsbD k || decide (k = n)) := by
      rw [Block.fenceBit, BitVec.getLsbD_or, chBit_getLsbD low]
    rw [stk, set]
    simp
  · rw [kept.out (.berth k) (by simpa [Piece.among] using out)]

/-- After its bit and its berth the fence of a channel leaves the stack. -/
theorem Block.fenceServing_sameStack (b : Block) (age n : Nat) (ids : List Nat) :
    b.SameStack (((b.modChan n Chan.quiet).each ids fun b id => b.fenceReq age n id).charterBerthLost n) :=
  .after ((Block.charterBerthLost_kept ..).sameStack (by simp [Piece.among]))
    (.after (Block.fenceReqs_sameStack ..) ((b.modChan_kept n _).sameStack (by simp [Piece.among])))

theorem Block.Fences.twice {n : Nat} {b c : Block} (h : Block.Fences ([n] ++ [n]) b c) : Block.Fences [n] b c :=
  ⟨h.relay, h.dman, h.resetting, h.alarm, fun k low => by rw [h.fence k low]; simp, fun k out => h.serving k (by simpa using out)⟩

theorem Block.fenceChan_stack (b : Block) (age n : Nat) : Block.Fences [n] b (b.fenceChan age n) := by
  have noted := b.fenceBit_fences n
  unfold Block.fenceChan
  dsimp only
  split
  case h_4 => exact noted.sameStack (Block.fenceReqs_sameStack (b.fenceBit n) age n _)
  case h_5 => exact noted.sameStack ((b.fenceBit n).modBerth_sameStack n (.inl rfl))
  all_goals exact (noted.trans (Block.Fences.enterFenced b n)).twice.sameStack (Block.fenceServing_sameStack _ age n _)

theorem Block.Fences.each {f : Block → Nat → Block} (h : ∀ c n, Block.Fences [n] c (f c n)) (b : Block) (ns : List Nat) : Block.Fences ns b (b.each ns f) := by
  unfold Block.each
  induction ns generalizing b with
  | nil => exact (Block.SameStack.refl b).fences
  | cons n ns ih => exact (h b n).trans (ih _)

theorem Block.fenceAll_stack (b : Block) (age : Nat → Nat) (ns : List Nat) : Block.Fences ns b (b.fenceAll age ns) :=
  (Block.Fences.each (fun c n => c.fenceChan_stack (age n) n) b ns).sameStack ((Block.settle_sameStack _).trans (Block.checkOpen_sameStack _))

/-! ### The table of R276 -/

section
variable {b : Block} {lost mon : Nat → Bool} (age : Nat → Nat) (some_ : ((List.range 64).any fun n => mon n && lost n) = true)

theorem Block.diagnose_none (none_ : ((List.range 64).any fun n => mon n && lost n) = false) : b.diagnose lost mon age = b :=
  if_pos (by simp [none_])

include some_

theorem Block.diagnose_base (all : (List.range 64).all (b.countsLost lost mon) = true) :
    b.diagnose lost mon age = ((b.orReg Off.stAlarm 4).event .stackBaseFail).fenceAll age (List.range 64) :=
  (if_neg (not_not.mpr some_)).trans (if_pos all)

/-- The block with a relay marked (R277). -/
def Block.markRelay (b : Block) (j : Nat) : Block := { b with stk.relay := b.stk.relay ||| BitVec.ofNat 15 (2 ^ (j - 1)) }

theorem Block.diagnose_relay {j : Nat} (all : (List.range 64).all (b.countsLost lost mon) = false)
    (found : (((List.range 16).drop 1).find? fun j => (List.range 64).all fun n => b.countsLost lost mon n == decide (4 * j ≤ n)) = some j) :
    b.diagnose lost mon age
      = (((b.markRelay j).orReg Off.stAlarm 1).event .relayFail (j - 1)).fenceAll age ((List.range 64).filter fun n => decide (4 * j ≤ n)) := by
  refine (if_neg (not_not.mpr some_)).trans ((if_neg (by simp [all])).trans ?_)
  rw [found]
  rfl

theorem Block.diagnose_columns (all : (List.range 64).all (b.countsLost lost mon) = false)
    (found : (((List.range 16).drop 1).find? fun j => (List.range 64).all fun n => b.countsLost lost mon n == decide (4 * j ≤ n)) = none) :
    b.diagnose lost mon age = (b.each ((List.range 64).filter fun n => mon n && lost n) fun b n =>
      (b.orReg Off.stAlarm 2).event .columnFail n).fenceAll age ((List.range 64).filter fun n => mon n && lost n) := by
  refine (if_neg (not_not.mpr some_)).trans ((if_neg (by simp [all])).trans ?_)
  rw [found]

end

/-- An alarm of the stack raised and logged. -/
theorem Block.regBit_alarmed (b : Block) (m : Word) (e : Ev) (unit i : Nat) (set : m.getLsbD i = true) :
    ((b.orReg Off.stAlarm m).event e unit).regBit Off.stAlarm i = true := by
  have same : ((b.orReg Off.stAlarm m).event e unit).reg Off.stAlarm = (b.orReg Off.stAlarm m).reg Off.stAlarm :=
    (Block.event_kept ..).out (.reg Off.stAlarm) (by simp [Piece.among, Off.stAlarm, Off.lgAlarm])
  rw [Block.regBit, same]
  exact (b.regBit_orReg ..).trans (by rw [set, Bool.or_true])

theorem Block.alarmed_berth (b : Block) (m : Word) (e : Ev) (unit k : Nat) : ((b.orReg Off.stAlarm m).event e unit).berth k = b.berth k :=
  (Block.event_kept ..).out (.berth k) (by simp [Piece.among])

theorem Block.alarmed_stk (b : Block) (m : Word) (e : Ev) (unit : Nat) : ((b.orReg Off.stAlarm m).event e unit).stk = b.stk :=
  (Block.event_kept ..).out .stk (by simp [Piece.among])

/-! ### With every channel AWAKE -/

section
variable {b : Block} (awake : ∀ k : Fin 64, (b.chan k).pwr = .awake)
include awake

theorem Block.monitored_awake {n : Nat} (low : n < 64) : b.monitored n = true := by
  simp [Block.monitored, awake ⟨n, low⟩]

theorem Block.countsLost_awake (lost : Nat → Bool) {n : Nat} (low : n < 64) : b.countsLost lost b.monitored n = lost n := by
  simp [Block.countsLost, awake ⟨n, low⟩, Block.monitored_awake awake low]

theorem Block.anyLost_awake {lost : Nat → Bool} {n : Nat} (low : n < 64) (gone : lost n = true) :
    ((List.range 64).any fun n => b.monitored n && lost n) = true :=
  List.any_eq_true.mpr ⟨n, List.mem_range.mpr low, by rw [Block.monitored_awake awake low, gone]; rfl⟩

theorem Block.allLost_awake {lost : Nat → Bool} {n : Nat} (low : n < 64) (runs : lost n = false) :
    (List.range 64).all (b.countsLost lost b.monitored) = false :=
  List.all_eq_false.mpr ⟨n, List.mem_range.mpr low, by rw [Block.countsLost_awake awake lost low, runs]; exact Bool.false_ne_true⟩

/-- One lost column is no die with all above it: the highest die has four columns. -/
theorem Block.diagnose_column (age : Nat → Nat) (n : Fin 64) :
    b.diagnose (chBit n).getLsbD b.monitored age = ((b.orReg Off.stAlarm 2).event .columnFail n).fenceAll age [n.val] := by
  have bit {k : Nat} (low : k < 64) : (chBit n).getLsbD k = decide (k = n.val) := chBit_getLsbD low
  obtain ⟨k, low, other⟩ : ∃ k, k < 64 ∧ k ≠ n.val := ⟨if n.val = 0 then 1 else 0, by split <;> omega, by split <;> omega⟩
  have hit : ((List.range 64).filter fun k => b.monitored k && (chBit n).getLsbD k) = [n.val] := by
    have same : ((List.range 64).filter fun k => b.monitored k && (chBit n).getLsbD k) = (List.range 64).filter fun k => decide (k = n.val) :=
      List.filter_congr fun k listed => by rw [Block.monitored_awake awake (List.mem_range.mp listed), bit (List.mem_range.mp listed), Bool.true_and]
    have only : ∀ n : Fin 64, ((List.range 64).filter fun k => decide (k = n.val)) = [n.val] := by decide
    rw [same, only n]
  have none_ : (((List.range 16).drop 1).find? fun j => (List.range 64).all fun k =>
      b.countsLost (chBit n).getLsbD b.monitored k == decide (4 * j ≤ k)) = none := by
    refine List.find?_eq_none.mpr fun j listed => ?_
    have small : j < 16 := List.mem_range.mp (List.mem_of_mem_drop listed)
    have top (i : Nat) (low : i < 64) (set : ∀ k ∈ List.range 64, (b.countsLost (chBit n).getLsbD b.monitored k == decide (4 * j ≤ k)) = true)
        (high : 60 ≤ i) : i = n.val := by
      have same := set i (List.mem_range.mpr low)
      rw [Block.countsLost_awake awake _ low, bit low, decide_eq_true (show 4 * j ≤ i by omega)] at same
      simpa using same
    rw [List.all_eq_true]
    intro set
    have last := top 63 (by omega) set (by omega)
    have before := top 62 (by omega) set (by omega)
    omega
  rw [Block.diagnose_columns age (Block.anyLost_awake awake n.isLt ((bit n.isLt).trans (decide_eq_true rfl)))
    (Block.allLost_awake awake low ((bit low).trans (decide_eq_false other))) none_, hit]
  rfl

/-- A lost set that is exactly a die and all above it. -/
theorem Block.diagnose_die (age : Nat → Nat) {lost : Nat → Bool} {j : Nat} (low : j < 16) (above : 1 ≤ j) (exactly : ∀ k, k < 64 → lost k = decide (4 * j ≤ k)) :
    b.diagnose lost b.monitored age
      = (((b.markRelay j).orReg Off.stAlarm 1).event .relayFail (j - 1)).fenceAll age ((List.range 64).filter fun n => decide (4 * j ≤ n)) := by
  refine Block.diagnose_relay age (Block.anyLost_awake awake (n := 63) (by omega) ?_) (Block.allLost_awake awake (n := 0) (by omega) ?_) ?_
  · rw [exactly 63 (by omega)]; exact decide_eq_true (by omega)
  · rw [exactly 0 (by omega)]; exact decide_eq_false (by omega)
  · have same : ((List.range 16).drop 1).find? (fun i => (List.range 64).all fun k => b.countsLost lost b.monitored k == decide (4 * i ≤ k))
        = ((List.range 16).drop 1).find? fun i => (List.range 64).all fun k => decide (4 * j ≤ k) == decide (4 * i ≤ k) := by
      refine congrArg (fun p => List.find? p _) (funext fun i => ?_)
      refine Bool.eq_iff_iff.mpr ?_
      simp only [List.all_eq_true, List.mem_range]
      refine forall₂_congr fun k small => ?_
      rw [Block.countsLost_awake awake lost small, exactly k small]
    rw [same]
    have least : ∀ j : Fin 16, 1 ≤ j.val → (((List.range 16).drop 1).find? fun i => (List.range 64).all fun k => decide (4 * j.val ≤ k) == decide (4 * i ≤ k)) = some j.val := by
      decide
    exact least ⟨j, low⟩ above

theorem Block.diagnose_all (age : Nat → Nat) {lost : Nat → Bool} (all : ∀ k, k < 64 → lost k = true) :
    b.diagnose lost b.monitored age = ((b.orReg Off.stAlarm 4).event .stackBaseFail).fenceAll age (List.range 64) := by
  refine Block.diagnose_base age (Block.anyLost_awake awake (n := 0) (by omega) (all 0 (by omega))) (List.all_eq_true.mpr fun k listed => ?_)
  rw [Block.countsLost_awake awake lost (List.mem_range.mp listed), all k (List.mem_range.mp listed)]

end

/-! ### RETURN_CLOCK_LOST -/

section
variable {s : State} {lost : BitVec 64} {edge : List (Nat × Nat)}

/-- What RETURN_CLOCK_LOST does to the block. -/
def Block.clocksLost (b : Block) (lost : BitVec 64) (edge : List (Nat × Nat)) : Block :=
  if ¬ b.carries then b
  else if (List.range 64).any fun n => lost.getLsbD n && (b.chan n).pwr == .exiting then b.diagnose lost.getLsbD b.clocked (edgeAge edge)
  else b.diagnose lost.getLsbD b.monitored (edgeAge edge)

theorem exec_returnClockLost_upd : exec (.returnClockLost lost edge) s = s.upd (·.clocksLost lost edge) := rfl

theorem Block.clocksLost_running {b : Block} (carries : b.carries = true)
    (awake : ((List.range 64).any fun n => lost.getLsbD n && (b.chan n).pwr == .exiting) = false) :
    b.clocksLost lost edge = b.diagnose lost.getLsbD b.monitored (edgeAge edge) :=
  (if_neg (by simp [carries])).trans (if_neg (by rw [awake]; exact Bool.false_ne_true))

theorem exec_returnClockLost_stopped (stopped : s.blk.carries = false) : exec (.returnClockLost lost edge) s = .next s :=
  exec_upd_same exec_returnClockLost_upd (if_pos (by simp [stopped]))

/-- A column that has been sent SRX is monitored, so with no monitored column lost none of those that look at all is. -/
theorem exec_returnClockLost_none (none_ : ((List.range 64).any fun n => s.blk.monitored n && lost.getLsbD n) = false) :
    exec (.returnClockLost lost edge) s = .next s := by
  cases carries : s.blk.carries with
  | false => exact exec_returnClockLost_stopped carries
  | true =>
    refine exec_upd_same exec_returnClockLost_upd ((Block.clocksLost_running carries ?_).trans (Block.diagnose_none _ none_))
    rw [List.any_eq_false] at none_ ⊢
    intro n listed both
    obtain ⟨gone, exiting⟩ := (Bool.and_eq_true _ _).mp both
    refine none_ n listed ?_
    rw [Block.monitored, eq_of_beq exiting, gone]
    rfl

variable (carries : s.blk.carries = true) (awake : ∀ k : Fin 64, (s.blk.chan k).pwr = .awake)
include carries awake

/-- With every channel AWAKE the columns that are monitored are diagnosed, and what the block then shows is what the command does. -/
theorem does_returnClockLost {c : Block} {post : Block → Prop} (made : s.blk.diagnose lost.getLsbD s.blk.monitored (edgeAge edge) = c) (h : post c) :
    Does (.returnClockLost lost edge) s [.berths, .chans, .chs, .cnt, .events, .fws, .ins, .lanes, .mf, .pw, .qy, .regs, .sides, .stk, .tl] post := by
  have settled : ((List.range 64).any fun n => lost.getLsbD n && (s.blk.chan n).pwr == .exiting) = false := by
    rw [List.any_eq_false]
    intro n listed
    rw [awake ⟨n, List.mem_range.mp listed⟩]
    simp
  refine does_framed exec_returnClockLost_upd (execReturnClockLost_kept lost edge ·) Within.refl ?_
  rw [Block.clocksLost_running carries settled, made]
  exact h

theorem returnClockLost_column (n : ChId) :
    Does (.returnClockLost (chBit n) edge) s [.berths, .chans, .chs, .cnt, .events, .fws, .ins, .lanes, .mf, .pw, .qy, .regs, .sides, .stk, .tl] fun b =>
      b.stk.fence = s.blk.stk.fence ||| chBit n ∧ b.regBit Off.stAlarm 1 = true ∧ b.stk.relay = s.blk.stk.relay
        ∧ ((b.berth n).st = .fenced ∨ (b.berth n).st = .absent) ∧ (∀ k : Fin 64, k ≠ n → (s.blk.berth k).st = .ready → (b.berth k).st = .ready) := by
  refine does_returnClockLost carries awake (Block.diagnose_column awake _ n) ?_
  have fenced := Block.fenceAll_stack ((s.blk.orReg Off.stAlarm 2).event .columnFail n) (edgeAge edge) [n.val]
  refine ⟨BitVec.eq_of_getLsbD_eq fun k low => ?_, fenced.regBit (Block.regBit_alarmed _ _ _ _ _ (by decide)), ?_,
    Block.fenceAll_shut _ _ (List.mem_singleton.mpr rfl), fun k other ready => ?_⟩
  · rw [fenced.fence k low, Block.alarmed_stk, BitVec.getLsbD_or, chBit_getLsbD low]
    simp
  · rw [fenced.relay, Block.alarmed_stk]
  · have same := fenced.serving k.val (by simpa using fun e => other (Fin.ext e))
    rw [Block.alarmed_berth, ready] at same
    exact same (by decide)

theorem returnClockLost_die (j : Fin 16) (above : 1 ≤ j.val) (exactly : ∀ k : Fin 64, lost.getLsbD k = decide (4 * j.val ≤ k.val)) :
    Does (.returnClockLost lost edge) s [.berths, .chans, .chs, .cnt, .events, .fws, .ins, .lanes, .mf, .pw, .qy, .regs, .sides, .stk, .tl] fun b =>
      b.stk.relay = s.blk.stk.relay ||| BitVec.ofNat 15 (2 ^ (j.val - 1)) ∧ b.stk.fence = s.blk.stk.fence ||| lost
        ∧ b.regBit Off.stAlarm 0 = true := by
  refine does_returnClockLost carries awake (Block.diagnose_die awake _ j.isLt above fun k low => exactly ⟨k, low⟩) ?_
  have fenced := Block.fenceAll_stack (((s.blk.markRelay j).orReg Off.stAlarm 1).event .relayFail (j.val - 1)) (edgeAge edge)
    ((List.range 64).filter fun n => decide (4 * j.val ≤ n))
  refine ⟨?_, BitVec.eq_of_getLsbD_eq fun k low => ?_, fenced.regBit (Block.regBit_alarmed _ _ _ _ _ (by decide))⟩
  · rw [fenced.relay, Block.alarmed_stk, Block.markRelay]
  · rw [fenced.fence k low, Block.alarmed_stk, BitVec.getLsbD_or, exactly ⟨k, low⟩, Block.markRelay]
    simp [low]

theorem returnClockLost_all :
    Does (.returnClockLost (BitVec.allOnes 64) edge) s [.berths, .chans, .chs, .cnt, .events, .fws, .ins, .lanes, .mf, .pw, .qy, .regs, .sides, .stk, .tl] fun b =>
      b.stk.fence = BitVec.allOnes 64 ∧ b.regBit Off.stAlarm 2 = true ∧ b.stk.relay = s.blk.stk.relay := by
  refine does_returnClockLost carries awake (Block.diagnose_all awake _ fun k low => BitVec.getLsbD_allOnes.trans (decide_eq_true low)) ?_
  have fenced := Block.fenceAll_stack ((s.blk.orReg Off.stAlarm 4).event .stackBaseFail) (edgeAge edge) (List.range 64)
  refine ⟨BitVec.eq_of_getLsbD_eq fun k low => ?_, fenced.regBit (Block.regBit_alarmed _ _ _ _ _ (by decide)), ?_⟩
  · rw [fenced.fence k low, BitVec.getLsbD_allOnes, decide_eq_true (List.mem_range.mpr low), Bool.or_true, decide_eq_true low]
  · rw [fenced.relay, Block.alarmed_stk]

end

/-- Settles O39: a replay by how many went before it within 1 ms, lost columns by the row of R276's table that their set meets. -/
theorem replaysAndLostColumns : Obligations.ReplaysAndLostColumns := by
  unfold Obligations.ReplaysAndLostColumns
  exact ⟨fun _ _ _ _ => caAlert_replays, fun _ _ _ _ => caAlert_eighth, fun _ _ _ _ => caAlert_resleeps, fun _ _ _ _ => exec_caAlert_idle,
    fun _ _ _ h => h.elim exec_returnClockLost_stopped exec_returnClockLost_none,
    fun _ n _ carries awake => returnClockLost_column carries awake n,
    fun _ j _ _ carries awake above exactly => returnClockLost_die carries awake j above exactly,
    fun _ _ carries awake => returnClockLost_all carries awake⟩

end Sys2Proof.Machine
end

section
/-! SUPPORT. LINK_RETRY (R365): a side that is down trains again beside whatever the other side does, and CHANNEL_FILL_DONE (R236, R299). -/

namespace Sys2Proof.Machine

open Sys2Proof

/-! ### The units of a list -/

theorem Block.each_keeps_mem {β : Type} {f : Block → Nat → Block} {π : Block → β} {ns : List Nat} (h : ∀ c : Block, ∀ k ∈ ns, π (f c k) = π c) (b : Block) :
    π (b.each ns f) = π b :=
  List.foldlRecOn (motive := fun c => π c = π b) ns f rfl fun c same k listed => (h c k listed).trans same

/-- What each step of a list leaves of one unit is its own step's, where no other step touches it. -/
theorem Block.each_at {β : Type} {f : Block → Nat → Block} {π : Block → β} {ns : List Nat} {n : Nat} (once : ns.Nodup) (listed : n ∈ ns)
    (other : ∀ c : Block, ∀ k ∈ ns, k ≠ n → π (f c k) = π c) (b : Block) : ∃ c, π c = π b ∧ π (b.each ns f) = π (f c n) := by
  obtain ⟨before, after, rfl⟩ := List.append_of_mem listed
  obtain ⟨-, rest, apart⟩ := List.nodup_append.mp once
  obtain ⟨late, -⟩ := List.nodup_cons.mp rest
  refine ⟨b.each before f, Block.each_keeps_mem (fun c k early => ?_) b, ?_⟩
  · exact other c k (List.mem_append_left _ early) (apart k early n (List.mem_cons_self ..))
  · have split : b.each (before ++ n :: after) f = (f (b.each before f) n).each after f := by
      unfold Block.each
      rw [List.foldl_append, List.foldl_cons]
    rw [split]
    exact Block.each_keeps_mem (fun c k later => other c k (List.mem_append_right _ (List.mem_cons_of_mem _ later)) (by rintro rfl; exact late later)) _

/-! ### A side that trains beside the other (R119, R365) -/

section
variable {b : Block} {sd : Side}

/-- The lanes of a side that trains hunt at the grade. -/
theorem Block.trainSide_lanes (g : Fin 4) (inLoop : Bool) {l : Nat} (listed : l ∈ b.trainLanes sd) :
    ((b.trainSide sd g inLoop).lane l).st = .hunt ∧ ((b.trainSide sd g inLoop).lane l).grade = g := by
  have trains : ¬ (b.trainLanes sd).isEmpty = true := by
    rw [List.isEmpty_iff]
    exact List.ne_nil_of_mem listed
  have made : b.trainSide sd g inLoop = ((b.leaveRun sd .training).modSide sd fun x => { x with grade := g, loop := inLoop }).each
      (b.trainLanes sd) fun b l => b.startHunt l g false := if_neg trains
  obtain ⟨c, -, own⟩ := Block.each_at (f := fun b l => b.startHunt l g false) (π := (·.lane l)) ((sideLanes_nodup sd).filter _) listed
    (fun c k _ other => (c.startHunt_kept k g false).out (.lane l) (by simpa [Piece.among] using other.symm))
    ((b.leaveRun sd .training).modSide sd fun x => { x with grade := g, loop := inLoop })
  obtain ⟨hunts, -, grade⟩ := c.startHunt_lane l g false
  rw [made]
  exact ⟨own ▸ hunts, own ▸ grade⟩

theorem sideLanes_apart {l : Nat} (mine : l ∈ sideLanes sd) (other : l ∈ sideLanes (otherSide sd)) : False := by
  obtain ⟨i, low, rfl⟩ := List.mem_map.mp mine
  obtain ⟨j, low', same⟩ := List.mem_map.mp other
  rw [List.mem_range] at low low'
  cases sd <;> (simp only [otherSide, laneOf] at same; omega)

theorem Block.endWindow_capG2 (b : Block) (sd : Side) : ((b.endWindow sd).side sd).capG2 = (b.side sd).capG2 := by
  cases win : (b.side sd).win with
  | none => rw [Block.endWindow_closed win]
  | some w => rw [Block.endWindow_side win]

/-- The side trains, and holds no CAP of its partner's: what a side that has just left RUN or DOWN looks like. -/
structure Block.TrainsAfresh (b : Block) (sd : Side) : Prop where
  seg : (b.side sd).seg = .training
  capIn : (b.side sd).capIn = none

theorem Block.trainSide_afresh {g : Fin 4} {inLoop : Bool} (trains : (b.trainLanes sd).isEmpty = false) :
    (b.trainSide sd g inLoop).TrainsAfresh sd := by
  constructor <;> rw [Block.trainSide_side trains, Block.leaveRun, Block.side_modSide_same] <;> rfl

/-- No CAP comes from a side that trains, and none goes to it. -/
theorem Block.freshCaps_beside (h : b.TrainsAfresh sd) : b.freshCaps = b := by
  have silent : b.forwardCap sd = b := by rw [Block.forwardCap, h.capIn]
  have agrees : (b.side sd).agrees = false := by rw [SideSt.agrees, h.seg]; rfl
  have deaf : b.forwardCap (otherSide sd) = b := by
    have self : otherSide (otherSide sd) = sd := by cases sd <;> rfl
    unfold Block.forwardCap
    split
    · rfl
    · rw [self, if_neg (by rw [h.seg]; decide), if_neg (by rw [agrees]; decide)]
  unfold Block.freshCaps
  cases sd with
  | west => simp only [otherSide] at deaf ⊢; simp [silent, deaf, agrees, h.seg]
  | east => simp only [otherSide] at deaf ⊢; simp [silent, deaf, agrees, h.seg]

/-- The side and its lanes stand as they stood. -/
structure Block.SameSide (b c : Block) (sd : Side) : Prop where
  side : c.side sd = b.side sd
  lanes : ∀ l ∈ sideLanes sd, c.lane l = b.lane l

theorem Block.SameSide.trans {b c d : Block} (h : b.SameSide c sd) (k : c.SameSide d sd) : b.SameSide d sd :=
  ⟨k.side.trans h.side, fun l listed => (k.lanes l listed).trans (h.lanes l listed)⟩

theorem Block.TrainsAfresh.same {c : Block} (h : b.TrainsAfresh sd) (k : b.SameSide c sd) : c.TrainsAfresh sd :=
  ⟨k.side ▸ h.seg, k.side ▸ h.capIn⟩

theorem Kept.sameSide {ps : List Piece} {c : Block} (h : Kept ps b c) (off : ¬ (Piece.side sd).among ps ∧ ∀ l, ¬ (Piece.lane l).among ps) :
    b.SameSide c sd :=
  ⟨h.out (.side sd) off.1, fun l _ => h.out (.lane l) (off.2 l)⟩

theorem Block.modSide_beside (b : Block) (sd : Side) (f : SideSt → SideSt) : b.SameSide (b.modSide (otherSide sd) f) sd :=
  (b.modSide_kept (otherSide sd) f).sameSide (by cases sd <;> simp [Piece.among, otherSide])

theorem Block.leaveRun_beside (b : Block) (sd : Side) (seg : SegState) : b.SameSide (b.leaveRun (otherSide sd) seg) sd :=
  (b.leaveRun_kept (otherSide sd) seg).sameSide (by cases sd <;> simp [Piece.among, otherSide])

/-- Lanes of the other side change one by one. -/
theorem Block.each_beside {f : Block → Nat → Block} {ns : List Nat} (others : ∀ l ∈ ns, l ∈ sideLanes (otherSide sd))
    (h : ∀ c l, Kept [.lane l, .regs] c (f c l)) (b : Block) : b.SameSide (b.each ns f) sd := by
  refine ⟨Block.each_keeps (·.side sd) f (fun c l => (h c l).out (.side sd) (by simp [Piece.among])) b ns, fun k mine => ?_⟩
  refine Block.each_keeps_mem (π := (·.lane k)) (fun c l listed => (h c l).out (.lane k) ?_) b
  have apart : k ≠ l := by rintro rfl; exact sideLanes_apart mine (others _ listed)
  simpa [Piece.among] using apart

theorem Block.sideFails_beside (h : b.TrainsAfresh sd) : b.SameSide (b.sideFails (otherSide sd)) sd := by
  have down : b.SameSide (b.segDown (otherSide sd)) sd :=
    (b.leaveRun_beside sd .down).trans (Block.each_beside (fun _ listed => listed) (fun c l => (c.modLane_kept l _).mono (Within.of_subset (by simp))) _)
  have failed := down.trans (((b.segDown (otherSide sd)).event_kept .linkDown (sideNo (otherSide sd)) []).sameSide (by simp [Piece.among]))
  unfold Block.sideFails
  rw [Block.freshCaps_beside (h.same failed)]
  exact failed

theorem Block.trainSide_beside (h : b.TrainsAfresh sd) (g : Fin 4) (inLoop : Bool) : b.SameSide (b.trainSide (otherSide sd) g inLoop) sd := by
  unfold Block.trainSide
  dsimp only
  split
  · exact Block.sideFails_beside h
  · refine ((b.leaveRun_beside sd .training).trans (Block.modSide_beside ..)).trans
      (Block.each_beside (fun _ listed => List.mem_of_mem_filter listed) (fun c l => ?_) _)
    exact (c.startHunt_kept l g false).mono (Within.cons (.inr (by simp)) (Within.single (.inl (by simp))))

theorem Block.liftCap_training (h : b.TrainsAfresh sd) : b.liftCap sd = b :=
  (if_neg (by rw [h.seg]; decide)).trans (if_neg fun runs => by rw [h.seg] at runs; exact absurd runs.1 (by decide))

theorem Block.liftCap_beside (h : b.TrainsAfresh sd) : b.SameSide (b.liftCap (otherSide sd)) sd := by
  have lifted := b.modSide_beside sd fun x => { x with capG2 := false }
  unfold Block.liftCap
  split
  · exact lifted
  · split
    · exact (lifted.trans (Block.trainSide_beside (h.same lifted) 0 false)).trans ((Block.purgeSide_kept ..).sameSide (by simp [Piece.among]))
    · exact ⟨rfl, fun _ _ => rfl⟩

/-- A side that trains keeps the pier from OPEN, and stands as it stood (R365). -/
theorem Block.checkOpen_training (h : b.TrainsAfresh sd) : b.SameSide b.checkOpen sd := by
  have lifted : b.SameSide ((b.liftCap .west).liftCap .east) sd := by
    cases sd with
    | west =>
      rw [Block.liftCap_training h]
      exact Block.liftCap_beside h
    | east =>
      have west : b.SameSide (b.liftCap .west) .east := Block.liftCap_beside h
      rw [Block.liftCap_training (h.same west)]
      exact west
  rw [Block.checkOpen_eq]
  split
  · exact ⟨rfl, fun _ _ => rfl⟩
  · split
    · exact lifted.trans ((Block.enterOpen_kept _).sameSide (by simp [Piece.among]))
    · exact lifted

end

/-! ### LINK_RETRY -/

section
variable {s : State} {sd : Side}

/-- The side's retry noted, with the cap that HARBOUR sets (R365). -/
def Block.retryNoted (b : Block) (sd : Side) : Block := b.modSide sd fun x => { x with retryAt := some b.ck.tide, capG2 := b.pw.st == .harbour }

/-- What LINK_RETRY does to the block. -/
def Block.linkRetry (b : Block) (sd : Side) : Block :=
  if b.inService ∧ (b.side sd).seg = .down ∧ b.regBit Off.pwCtrl 3 ∧ b.coreRuns ∧ b.olderThan sTicks (b.side sd).retryAt then
    ((b.retryNoted sd).trainSide sd 0 false).checkOpen
  else b

theorem exec_linkRetry_upd : exec (.linkRetry sd) s = s.upd (·.linkRetry sd) := rfl

theorem linkRetry_trains (serving : s.blk.inService = true) (runs : s.blk.coreRuns = true) (enabled : s.blk.regBit Off.pwCtrl 3 = true)
    (down : (s.blk.side sd).seg = .down) (some_ : s.blk.trainLanes sd ≠ []) (late : s.blk.olderThan sTicks (s.blk.side sd).retryAt = true) :
    Does (.linkRetry sd) s [.cnt, .events, .fws, .ins, .lanes, .mf, .pw, .qy, .regs, .sides, .tl] fun b =>
      (b.side sd).grade = 0 ∧ (b.side sd).seg = .training ∧ (b.side sd).capG2 = (s.blk.pw.st == .harbour)
        ∧ ∀ l ∈ s.blk.trainLanes sd, (b.lane l).st = .hunt ∧ (b.lane l).grade = 0 := by
  have listed : (s.blk.retryNoted sd).trainLanes sd = s.blk.trainLanes sd := Block.trainLanes_modSide ..
  have trains : ((s.blk.retryNoted sd).trainLanes sd).isEmpty = false := by
    rw [listed, Bool.eq_false_iff, ne_eq, List.isEmpty_iff]
    exact some_
  have same := Block.checkOpen_training (Block.trainSide_afresh (g := 0) (inLoop := false) trains)
  have cap : ((s.blk.retryNoted sd).side sd).capG2 = (s.blk.pw.st == .harbour) := by rw [Block.retryNoted, Block.side_modSide_same]
  refine does_framed exec_linkRetry_upd (execLinkRetry_kept sd ·) Within.refl ?_
  rw [Block.linkRetry, if_pos ⟨serving, down, enabled, runs, late⟩, same.side, Block.trainSide_side trains, Block.leaveRun, Block.side_modSide_same]
  refine ⟨rfl, rfl, (Block.endWindow_capG2 ..).trans cap, fun l mine => ?_⟩
  rw [same.lanes l (List.mem_of_mem_filter mine)]
  exact Block.trainSide_lanes 0 false (listed ▸ mine)

end

/-! ### CHANNEL_FILL_DONE -/

section
variable (b : Block) (n : Nat)

/-- The channel filled to its last granule, before its berth enters service. -/
def Block.filledUp (b : Block) (n : Nat) : Block :=
  let b := b.countBulk n true (chanGranules - (b.chan n).fillNext)
  let b := { b with tl.dump := b.tl.dump.filter fun e => chanOf ((dumpBase + e.1) / 64) != n }
  let b := b.modChan n fun x => { x with fillNext := chanGranules }
  let b := b.modBerth n fun x => { x with fillGran := chanGranules, fillDone := true, rep := [], ueList := [] }
  b.filledOwns n

theorem Block.fillDone_eq : b.fillDone n = ((b.filledUp n).berthReady n).releaseHeld := rfl

theorem Block.countBulk_step (wr : Bool) (k : Nat) : ((b.countBulk n wr k).chan n).step = (b.chan n).step := by
  have counted : Kept [.cnt, .regs, .tl] _ (b.countBulk n wr k) :=
    Block.portBytes_keeps (Within.of_subset (by simp)) (Block.tally_keeps (Within.cons (.inl (by simp)) (Within.of_subset (by simp)))
      (Block.bump_keeps (Within.single (.inl (by simp))) (Block.tally_keeps (Within.cons (.inl (by simp)) (Within.of_subset (by simp)))
        (Block.bump_keeps (Within.single (.inl (by simp))) (Block.tally_keeps (Within.cons (.inl (by simp)) (Within.of_subset (by simp)))
          (Block.bump_keeps (Within.single (.inl (by simp))) (Kept.refl ..)))))))
  rw [counted.out (.chan n) (by simp [Piece.among]), Block.chan_modChan]

theorem Block.filledUp_step : ((b.filledUp n).chan n).step = (b.chan n).step := by
  have counted := b.countBulk_step n true (chanGranules - (b.chan n).fillNext)
  unfold Block.filledUp
  generalize b.countBulk n true (chanGranules - (b.chan n).fillNext) = c at counted ⊢
  dsimp only
  rw [(Block.filledOwns_kept ..).out (.chan n) (by simp [Piece.among]), (Block.modBerth_kept ..).out (.chan n) (by simp [Piece.among]),
    Block.chan_modChan]
  exact counted

theorem Block.filledUp_fillDone : ((b.filledUp n).berth n).fillDone = true := by
  unfold Block.filledUp
  dsimp only
  rw [(Block.filledOwns_kept ..).out (.berth n) (by simp [Piece.among]), Block.berth_modBerth, if_pos rfl]

theorem Block.fillDone_berth :
    ((b.fillDone n).berth n).st = (if (b.chan n).step = 0 then .ready else .throttled) ∧ ((b.fillDone n).berth n).fillDone = true := by
  rw [Block.fillDone_eq, (Block.releaseHeld_kept _).out (.berth n) (by simp [Piece.among]), Block.berthReady, Block.berth_modBerth, if_pos rfl]
  exact ⟨by rw [b.filledUp_step n], b.filledUp_fillDone n⟩

theorem clearChannel_read (m : List Host.Cell) (a : Nat) :
    Memory.read (clearChannel m n) a = if chanOf (a / symsPerGranule) = n then Memory.unlisted a else Memory.read m a :=
  (tget_filter_keys Memory.unlisted m (fun a => chanOf (a / symsPerGranule) == n) a).trans (if_congr beq_iff_eq rfl rfl)

end

theorem channelFillDone_serves {s : State} {n : ChId} (runs : s.blk.coreRuns = true) (filling : (s.blk.berth n).st = .filling)
    (fits : s.blk.fillFits n = true) :
    DoesOn (.channelFillDone n) s [.berth n, .chans, .cnt, .events, .fws, .ins, .lanes, .mf, .prot, .pw, .qy, .regs, .sides, .slots, .tl]
        (fun a => chanOf (a / symsPerGranule) = n.val) fun t =>
      (t.blk.berth n).st = (if (s.blk.chan n).step = 0 then .ready else .throttled) ∧ (t.blk.berth n).fillDone = true
        ∧ ∀ a, chanOf (a / symsPerGranule) = n.val → Memory.read t.mem a = Memory.unlisted a := by
  have made : exec (.channelFillDone n) s = .next { s with mem := clearChannel s.mem n, blk := (s.blk.fillDone n).checkOpen } :=
    if_pos ⟨filling, runs, fits⟩
  have frame := execChannelFillDone_kept n made
  have cleared := clearChannel_read n s.mem
  have berth : (s.blk.fillDone n).checkOpen.berth n = (s.blk.fillDone n).berth n := (Block.checkOpen_kept _).out (.berth n) (by simp [Piece.among])
  obtain ⟨st, done⟩ := s.blk.fillDone_berth n
  rw [← berth] at st done
  generalize (s.blk.fillDone n).checkOpen = c at made frame st done
  generalize clearChannel s.mem n = m at made frame cleared
  exact ⟨_, made, rfl, fun a other => (cleared a).trans (if_neg other), frame, st, done, fun a own => (cleared a).trans (if_pos own)⟩

/-- Settles O20: the fill's end leaves nothing of its channel listed, and a side that retries trains beside what OPEN asks of the other. -/
theorem fillsAndRetries : Obligations.FillsAndRetries := by
  unfold Obligations.FillsAndRetries
  exact ⟨fun _ _ => channelFillDone_serves, fun _ _ => linkRetry_trains⟩

end Sys2Proof.Machine
end

section
/-! SUPPORT. Scrub passes (R296 to R298): SCRUB_RANGE starts one, and SCRUB_DONE carries out what is left of it. -/

namespace Sys2Proof.Machine

open Sys2Proof

/-! ### SCRUB_RANGE -/

section
variable {b : Block} {m : ManRef} {start len flags : Nat}

/-- The pass as SCRUB_RANGE sets it up. -/
def scrubPass (m : ManRef) (start len flags : Nat) : Scrub :=
  { m := m, first := start / 64, last := (start + len) / 64 - 1, writeback := flags % 2 = 1, poisonUe := flags / 2 = 1 }

/-- A channel takes up a pass at its first granule, and wakes for it. -/
def Block.takeScrub (b : Block) (first last n : Nat) : Block :=
  let c := b.modChan n fun x => { x with scrubNext := firstOnChan n first last, scrubAt := b.ck.tide, scrubMark := b.slotsGone x }
  if (firstOnChan n first last).isSome ∧ c.inSvc n then c.wakeChan n else c

theorem Block.takeScrub_kept (b : Block) (first last n : Nat) : Kept [.chan n] b (b.takeScrub first last n) :=
  have taken := b.modChan_kept n _
  .ite (Block.wakeChan_keeps .refl taken) taken

theorem Block.scrubRange_bad (bad : start % 64 ≠ 0 ∨ len = 0 ∨ len % 64 ≠ 0 ∨ start + len > pierBytes ∨ flags ≥ 4) :
    b.scrubRange m start len flags = b.finish m Mop.scrubRange St.badParam := if_pos bad

theorem Block.scrubRange_busy (good : ¬ (start % 64 ≠ 0 ∨ len = 0 ∨ len % 64 ≠ 0 ∨ start + len > pierBytes ∨ flags ≥ 4))
    (serving : b.inService = true) (busy : b.prot.scrub.isSome = true ∨ b.stk.rst ≠ .none) :
    b.scrubRange m start len flags = b.finish m Mop.scrubRange St.busyRetry :=
  (if_neg good).trans ((if_neg (not_not.mpr serving)).trans (if_pos busy))

theorem Block.scrubRange_starts (good : ¬ (start % 64 ≠ 0 ∨ len = 0 ∨ len % 64 ≠ 0 ∨ start + len > pierBytes ∨ flags ≥ 4))
    (serving : b.inService = true) (idle : b.prot.scrub = none) (out : b.stk.rst = .none) :
    b.scrubRange m start len flags = ({ b with prot.scrub := some (scrubPass m start len flags) } : Block).each (List.range 64)
      fun b n => b.takeScrub (start / 64) ((start + len) / 64 - 1) n :=
  (if_neg good).trans ((if_neg (not_not.mpr serving)).trans (if_neg (by simp [idle, out])))

end

section
variable {s : State} {m : ManRef} {start len : BitVec 64} {flags : BitVec 32}

theorem exec_scrubRange_man :
    exec (.scrubRange m start len flags) s = s.man m Mop.scrubRange (·.scrubRange m start.toNat len.toNat flags.toNat) := rfl

theorem toNat_eq_zero_iff {w : Nat} {v : BitVec w} : v.toNat = 0 ↔ v = 0 := by
  rw [BitVec.toNat_eq]
  simp

/-- A flag word below 4 holds WRITEBACK and POISON_UE alone. -/
theorem scrubFlags (small : flags.toNat < 4) :
    decide (flags.toNat % 2 = 1) = flags.getLsbD 0 ∧ decide (flags.toNat / 2 = 1) = flags.getLsbD 1 := by
  have low : flags.toNat / 2 % 2 = flags.toNat / 2 := Nat.mod_eq_of_lt (by omega)
  refine ⟨(Nat.testBit_zero ..).symm, ?_⟩
  rw [BitVec.getLsbD, Nat.testBit_succ, Nat.testBit_zero, low]

theorem scrubRange_badParam (mans : s.blk.mans Mop.scrubRange)
    (bad : start.toNat % 64 ≠ 0 ∨ len = 0 ∨ len.toNat % 64 ≠ 0 ∨ pierBytes < start.toNat + len.toNat ∨ 4 ≤ flags.toNat) :
    Does (.scrubRange m start len flags) s [.slots, .running, .ins] fun b => b.doneWith m 0x0020 0x04 [] :=
  does_answer (d := {}) exec_scrubRange_man mans (Block.scrubRange_bad (by rwa [toNat_eq_zero_iff])) (by decide) (by decide) (by decide)

section
variable (mans : s.blk.mans Mop.scrubRange) (serving : s.blk.inService = true) (aligned : start.toNat % 64 = 0) (some_ : len ≠ 0)
  (whole : len.toNat % 64 = 0) (inside : start.toNat + len.toNat ≤ pierBytes) (small : flags.toNat < 4)
include aligned some_ whole inside small

theorem scrubRange_legal :
    ¬ (start.toNat % 64 ≠ 0 ∨ len.toNat = 0 ∨ len.toNat % 64 ≠ 0 ∨ start.toNat + len.toNat > pierBytes ∨ flags.toNat ≥ 4) := by
  have nonzero : len.toNat ≠ 0 := mt toNat_eq_zero_iff.mp some_
  omega

include mans serving

theorem scrubRange_busyRetry (busy : s.blk.prot.scrub.isSome = true ∨ s.blk.stk.rst ≠ .none) :
    Does (.scrubRange m start len flags) s [.slots, .running, .ins] fun b => b.doneWith m 0x0020 0x07 [] :=
  does_answer (d := {}) exec_scrubRange_man mans (Block.scrubRange_busy (scrubRange_legal aligned some_ whole inside small) serving busy)
    (by decide) (by decide) (by decide)

theorem scrubRange_starts (idle : s.blk.prot.scrub = none) (out : s.blk.stk.rst = .none) :
    Does (.scrubRange m start len flags) s [.prot, .chans] fun b =>
      b.prot.scrub = some { m := m, first := start.toNat / 64, last := (start.toNat + len.toNat) / 64 - 1
                            writeback := flags.getLsbD 0, poisonUe := flags.getLsbD 1 } := by
  obtain ⟨writeback, poisonUe⟩ := scrubFlags small
  refine does_man exec_scrubRange_man mans (Block.scrubRange_starts (scrubRange_legal aligned some_ whole inside small) serving idle out) ?_ ?_
  · exact .each _ (fun _ _ h => Kept.step (Block.takeScrub_kept ..) (Within.single (.inl (by simp))) h)
      ((Kept.prot ..).mono (Within.of_subset (by simp)))
  · rw [Block.each_keeps (·.prot) _ (fun c n => (c.takeScrub_kept _ _ n).out .prot (by simp [Piece.among])), ← writeback, ← poisonUe]
    rfl

end
end

/-! ### What a pass is through its reads -/

/-- The same pass: its manifest and its last granule. -/
structure Scrub.SamePass (x y : Scrub) : Prop where
  m : y.m = x.m
  last : y.last = x.last

theorem Scrub.SamePass.refl (x : Scrub) : x.SamePass x := ⟨rfl, rfl⟩

theorem Scrub.SamePass.trans {x y z : Scrub} (h : x.SamePass y) (k : y.SamePass z) : x.SamePass z := ⟨k.m.trans h.m, k.last.trans h.last⟩

theorem scrubStep_samePass (sc : Scrub) (g : Nat) (syms : List Byte) : sc.SamePass (scrubStep sc g syms).2 := by
  have ite {p : Prop} [Decidable p] {x y : Option (List Byte) × Scrub} (hx : sc.SamePass x.2) (hy : sc.SamePass y.2) :
      sc.SamePass (if p then x else y).2 := by
    split
    · exact hx
    · exact hy
  unfold scrubStep
  dsimp only
  split
  case h_1 | h_2 | h_3 => exact ⟨rfl, rfl⟩
  all_goals exact ite ⟨rfl, rfl⟩ ⟨rfl, rfl⟩

/-- The symbols that a scrub of a granule finds. -/
def scrubSees (m : List Host.Cell) (b : Block) (g : Nat) (dmg : List Damage) : List Byte :=
  damaged (dmg.filter fun d => d.granule == g) g (if ownGranule g then b.ownForm g else Memory.readGranule m g)

/-- A scrub of one granule leaves the pass as its step gives it. -/
theorem scrubOne_pass (m : List Host.Cell) (b : Block) (sc : Scrub) (n g : Nat) (dmg : List Damage) :
    (scrubOne m b sc n g dmg).2.prot.scrub = some (scrubStep sc g (scrubSees m b g dmg)).2 := by
  unfold scrubOne scrubSees
  dsimp only
  split
  · rfl
  · split
    · simp only [Block.scrubOwn, Block.setOwn_scrub]
      split <;> simp [Block.errRecord_scrub, Block.noteStore_scrub]
    · dsimp only
      split <;> simp [Block.errRecord_scrub, Block.noteStore_scrub]

/-- One granule of a list scrubbed, while the pass runs. -/
def scrubNextOne (dmg : List Damage) (n : Nat) (acc : List Host.Cell × Block) (g : Nat) : List Host.Cell × Block :=
  match acc.2.prot.scrub with
  | some sc => scrubOne acc.1 acc.2 sc n g dmg
  | none => acc

/-- What a part of a pass does: the pass stays, and stored symbols change in cells of which `cells` holds. -/
structure Scrubbed (cells : Nat → Prop) (sc : Scrub) (m : List Host.Cell) (r : List Host.Cell × Block) : Prop where
  pass : ∃ sc', r.2.prot.scrub = some sc' ∧ sc.SamePass sc'
  mem : ∀ a, ¬ cells a → Memory.read r.1 a = Memory.read m a

theorem scrubList_scrubbed (dmg : List Damage) (n : Nat) {sc : Scrub} {hs : List Nat} {m : List Host.Cell} {b : Block} (runs : b.prot.scrub = some sc) :
    Scrubbed (fun a => a / symsPerGranule ∈ hs) sc m (hs.foldl (scrubNextOne dmg n) (m, b)) := by
  induction hs generalizing sc m b with
  | nil => exact ⟨⟨sc, runs, .refl sc⟩, fun _ _ => rfl⟩
  | cons g gs ih =>
    have one : scrubNextOne dmg n (m, b) g = scrubOne m b sc n g dmg := by rw [scrubNextOne, runs]
    have first := scrubStep_samePass sc g (scrubSees m b g dmg)
    rw [List.foldl_cons, one]
    obtain ⟨⟨sc2, ends, rest⟩, mem⟩ := ih (m := (scrubOne m b sc n g dmg).1) (scrubOne_pass m b sc n g dmg)
    refine ⟨⟨sc2, ends, first.trans rest⟩, fun a out => ?_⟩
    rw [List.mem_cons, not_or] at out
    exact (mem a out.2).trans (Memory.read_touched (scrubOne_touched ..) out.1)

theorem mem_ascending {xs : List Nat} {k : Nat} (h : k ∈ ascending xs) : k ∈ xs := by
  have keys (ys : List Nat) (t : Tbl Unit) (listed : k ∈ (ys.foldl (fun (t : Tbl Unit) x => tput t x ()) t).map (·.1)) : k ∈ ys ∨ k ∈ t.map (·.1) := by
    induction ys generalizing t with
    | nil => exact .inr listed
    | cons y ys ih =>
      rcases ih _ listed with later | kept
      · exact .inl (List.mem_cons_of_mem _ later)
      · obtain ⟨e, he, rfl⟩ := List.mem_map.mp kept
        rcases mem_tput he with rfl | old
        · exact .inl (List.mem_cons_self ..)
        · exact .inr (List.mem_map_of_mem old)
  exact (keys xs [] h).resolve_right List.not_mem_nil

/-- What a scrub meets on a channel lies between the bounds. -/
theorem Block.metOnChan_bounds {b : Block} {m : List Host.Cell} {dmg : List Damage} {n g last h : Nat} (met : h ∈ b.metOnChan m dmg n g last) :
    g ≤ h ∧ h ≤ last := by
  rcases List.mem_append.mp (mem_ascending met) with listed | damaged
  · have kept := (List.mem_filter.mp (List.mem_eraseDups.mp listed)).2
    exact of_decide_eq_true ((Bool.and_eq_true _ _).mp kept).2
  · have kept := (List.mem_filter.mp damaged).2
    exact of_decide_eq_true ((Bool.and_eq_true _ _).mp kept).2

/-! ### The rest of a pass, channel by channel (R298) -/

theorem scrubRest_none {m : List Host.Cell} {b : Block} {dmg : List Damage} {n : Nat} (none_ : (b.chan n).scrubNext = none) :
    scrubRest m b dmg n = (m, b) := by
  unfold scrubRest
  rw [none_]
  split
  · next h => cases h
  · rfl

theorem scrubRest_scrubbed {m : List Host.Cell} {b : Block} (dmg : List Damage) (n : Nat) {sc : Scrub} (runs : b.prot.scrub = some sc) :
    Scrubbed (fun a => ∃ g, (b.chan n).scrubNext = some g ∧ g ≤ a / symsPerGranule ∧ a / symsPerGranule ≤ sc.last) sc m (scrubRest m b dmg n) := by
  cases next_ : (b.chan n).scrubNext with
  | none =>
    rw [scrubRest_none next_]
    exact ⟨⟨sc, runs, .refl sc⟩, fun _ _ => rfl⟩
  | some g =>
    unfold scrubRest
    rw [runs, next_]
    dsimp only
    split
    · exact ⟨⟨_, rfl, ⟨rfl, rfl⟩⟩, fun _ _ => rfl⟩
    · set hs := b.metOnChan m dmg n g sc.last with met
      set c := ({ b with prot.scrub := some { sc with read := sc.read + (leftOnChan n g sc.last - hs.length) } } : Block) with hc
      have counted : ((c.countBulk n false (leftOnChan n g sc.last)).bump Off.prZeroRdLo (leftOnChan n g sc.last - hs.length)).prot = c.prot :=
        (Block.bump_keeps (qs := [.chan n, .cnt, .reg (tlOff Off.tlOvf n), .tl]) (Within.single (.inl (by simp))) (Block.countBulk_kept ..)).out
          .prot (by simp [Piece.among])
      obtain ⟨⟨sc', ends, same⟩, mem⟩ := scrubList_scrubbed dmg n (hs := hs) (m := m) ((congrArg Prot.scrub counted).trans (congrArg (·.prot.scrub) hc))
      refine ⟨⟨sc', ends, ⟨same.m, same.last⟩⟩, fun a out => mem a fun listed => out ?_⟩
      exact ⟨g, rfl, Block.metOnChan_bounds (met ▸ listed)⟩

/-- The rest of a pass over a list of channels. -/
theorem scrubRests_scrubbed (dmg : List Damage) {ns : List Nat} (once : ns.Nodup) {sc : Scrub} {m : List Host.Cell} {b : Block}
    (runs : b.prot.scrub = some sc) :
    Scrubbed (fun a => ∃ n ∈ ns, ∃ g, (b.chan n).scrubNext = some g ∧ g ≤ a / symsPerGranule ∧ a / symsPerGranule ≤ sc.last) sc m
      (ns.foldl (fun (acc : List Host.Cell × Block) n => scrubRest acc.1 acc.2 dmg n) (m, b)) := by
  induction ns generalizing sc m b with
  | nil => exact ⟨⟨sc, runs, .refl sc⟩, fun _ _ => rfl⟩
  | cons n ns ih =>
    obtain ⟨late, once⟩ := List.nodup_cons.mp once
    obtain ⟨⟨sc1, still, first⟩, mem1⟩ := scrubRest_scrubbed (m := m) dmg n runs
    obtain ⟨⟨sc2, ends, rest⟩, mem2⟩ := ih once (m := (scrubRest m b dmg n).1) still
    have chan {k : Nat} (later : k ∈ ns) : (scrubRest m b dmg n).2.chan k = b.chan k := by
      have other : k ≠ n := by rintro rfl; exact late later
      exact (scrubRest_kept m b dmg n).out (.chan k) (by simpa [Piece.among] using other)
    rw [List.foldl_cons]
    refine ⟨⟨sc2, ends, first.trans rest⟩, fun a out => (mem2 a ?_).trans (mem1 a ?_)⟩
    · rintro ⟨k, later, g, next_, low, high⟩
      exact out ⟨k, List.mem_cons_of_mem _ later, g, chan later ▸ next_, low, first.last ▸ high⟩
    · rintro ⟨g, next_, low, high⟩
      exact out ⟨n, List.mem_cons_self .., g, next_, low, high⟩

/-! ### SCRUB_DONE -/

theorem length_flatMap_const {α β : Type} {f : α → List β} {c : Nat} (h : ∀ x, (f x).length = c) (xs : List α) : (xs.flatMap f).length = xs.length * c := by
  induction xs with
  | nil => simp
  | cons x xs ih => rw [List.flatMap_cons, List.length_append, ih, h, List.length_cons]; ring

theorem Scrub.result_length (sc : Scrub) : sc.result.length = 448 := by
  unfold Scrub.result
  dsimp only
  have words (xs : List Nat) (f : Nat → List Byte) (eight : ∀ i, (f i).length = 8) : ((List.range 16).flatMap f).length = 128 := by
    rw [length_flatMap_const eight, List.length_range]
  simp only [List.length_append, leBytes_length]
  rw [words sc.cAddrs, words sc.uAddrs, words sc.pAddrs]
  all_goals
    intro i
    split
    · exact leBytes_length ..
    · exact List.length_replicate

/-- A pass that ends is over, and its manifest is DONE with the summary so far. -/
theorem Block.endScrub_done {b : Block} {sc : Scrub} {st : Nat} (runs : b.prot.scrub = some sc) (small : st < 256) :
    (b.endScrub st).prot.scrub = none ∧ (b.endScrub st).doneWith sc.m 0x0020 st sc.result := by
  have made : b.endScrub st = (({ b with prot.scrub := none } : Block).each (List.range 64) fun b n => b.modChan n fun x =>
      { x with scrubNext := none }).finish sc.m Mop.scrubRange st sc.result := by
    unfold Block.endScrub
    rw [runs]
  rw [made]
  refine ⟨?_, Block.finish_doneWith _ {} (by decide) small (by rw [Scrub.result_length]; decide)⟩
  rw [Block.finish_prot, Block.each_keeps (·.prot) _ fun c n => Block.modChan_prot ..]

section
variable {s : State} {sc : Scrub} {dmg : List Damage}

/-- What is left of the pass, channel by channel. -/
def State.scrubbed (s : State) (dmg : List Damage) : List Host.Cell × Block :=
  (List.range 64).foldl (fun (acc : List Host.Cell × Block) n => scrubRest acc.1 acc.2 dmg n) (s.mem, s.blk)

theorem exec_scrubDone_fits (runs : s.blk.prot.scrub = some sc) (core : s.blk.coreRuns = true) (fits : ∀ n : Fin 64, s.blk.scrubFits n = true) :
    exec (.scrubDone dmg) s = .next { s with mem := (s.scrubbed dmg).1, blk := (s.scrubbed dmg).2.endScrub St.ok } :=
  if_pos ⟨by rw [runs]; rfl, core, List.all_eq_true.mpr fun n listed => fits ⟨n, List.mem_range.mp listed⟩⟩

theorem scrubDone_idle (runs : s.blk.prot.scrub = some sc) (core : s.blk.coreRuns = true) (none_ : ∀ n : Fin 64, (s.blk.chan n).scrubNext = none) :
    Does (.scrubDone dmg) s [.prot, .chans, .slots, .running, .ins] fun b => b.prot.scrub = none ∧ b.doneWith sc.m 0x0020 0x00 sc.result := by
  have fits (n : Fin 64) : s.blk.scrubFits n = true := by
    unfold Block.scrubFits
    rw [none_ n]
    split
    · next h => cases h
    · rfl
  have still : s.scrubbed dmg = (s.mem, s.blk) := by
    unfold State.scrubbed
    refine List.foldlRecOn (motive := (· = (s.mem, s.blk))) _ _ rfl fun acc same n listed => ?_
    rw [same]
    exact scrubRest_none (none_ ⟨n, List.mem_range.mp listed⟩)
  have made : exec (.scrubDone dmg) s = .next { s with blk := s.blk.endScrub St.ok } := by rw [exec_scrubDone_fits runs core fits, still]
  exact ⟨_, made, ⟨rfl, rfl⟩, (s.blk.endScrub_kept St.ok).mono (Within.of_subset (by simp)), Block.endScrub_done runs (by decide)⟩

/-- The end of a pass whose rest left `r`. -/
theorem scrubDone_leaves {r : List Host.Cell × Block} {cells : Nat → Prop} (left : s.scrubbed dmg = r) (runs : s.blk.prot.scrub = some sc)
    (core : s.blk.coreRuns = true) (fits : ∀ n : Fin 64, s.blk.scrubFits n = true) (passed : Scrubbed cells sc s.mem r) :
    DoesOn (.scrubDone dmg) s [.berths, .chans, .cnt, .cols, .ins, .prot, .regs, .running, .slots, .tl] cells fun t =>
      t.blk.prot.scrub = none ∧ (t.blk.slot (slotKey sc.m.ring sc.m.seq)).st = .done ∧ (t.blk.slot (slotKey sc.m.ring sc.m.seq)).status = 0 := by
  have made := exec_scrubDone_fits (dmg := dmg) runs core fits
  rw [left] at made
  obtain ⟨⟨sc', still, same⟩, mem⟩ := passed
  obtain ⟨ended, done, -, -, status, -, -⟩ := Block.endScrub_done (st := St.ok) still (by decide)
  refine ⟨_, made, rfl, mem, execScrubDone_kept dmg made, ended, ?_, ?_⟩
  · rw [← same.m]
    exact done
  · rw [← same.m]
    exact BitVec.eq_of_toNat_eq status

theorem scrubDone_ends (runs : s.blk.prot.scrub = some sc) (core : s.blk.coreRuns = true) (fits : ∀ n : Fin 64, s.blk.scrubFits n = true) :
    DoesOn (.scrubDone dmg) s [.berths, .chans, .cnt, .cols, .ins, .prot, .regs, .running, .slots, .tl]
      (fun a => ∃ n : Fin 64, ∃ g, (s.blk.chan n).scrubNext = some g ∧ g ≤ a / symsPerGranule ∧ a / symsPerGranule ≤ sc.last) fun t =>
      t.blk.prot.scrub = none ∧ (t.blk.slot (slotKey sc.m.ring sc.m.seq)).st = .done ∧ (t.blk.slot (slotKey sc.m.ring sc.m.seq)).status = 0 := by
  have passed : Scrubbed _ sc s.mem (s.scrubbed dmg) := scrubRests_scrubbed dmg (List.nodup_range (n := 64)) runs
  refine scrubDone_leaves rfl runs core fits ⟨passed.1, fun a out => passed.2 a ?_⟩
  rintro ⟨n, listed, within⟩
  exact out ⟨⟨n, List.mem_range.mp listed⟩, within⟩

end

end Sys2Proof.Machine
end

section
/-! SUPPORT. STACK_DIE_RESET and what completes it (R280, R281). -/

namespace Sys2Proof.Machine

open Sys2Proof

/-! ### The columns that pass stack calibration (R268) -/

theorem Block.passMask_getLsbD (b : Block) (pass : BitVec 64) {k : Nat} (low : k < 64) :
    (b.passMask pass).getLsbD k = (pass.getLsbD k && b.flightOk k) := by
  have bits (ns : List Nat) (v : BitVec 64) :
      (ns.foldl (fun (v : BitVec 64) n => if pass.getLsbD n && b.flightOk n then v ||| chBit n else v) v).getLsbD k
        = (v.getLsbD k || (decide (k ∈ ns) && (pass.getLsbD k && b.flightOk k))) := by
    induction ns generalizing v with
    | nil => simp
    | cons n ns ih =>
      rw [List.foldl_cons, ih]
      by_cases e : k = n
      · subst e
        cases h : pass.getLsbD k && b.flightOk k <;> simp [chBit_getLsbD low]
      · cases h : pass.getLsbD n && b.flightOk n <;> simp [chBit_getLsbD low, e]
  rw [Block.passMask, bits, decide_eq_true (List.mem_range.mpr low)]
  simp

/-- Where every round trip is within its limit, the verdicts stand. -/
theorem Block.passMask_fits (b : Block) (pass : BitVec 64) (fits : ∀ n : Fin 64, b.flightOk n = true) : b.passMask pass = pass :=
  BitVec.eq_of_getLsbD_eq fun k low => by rw [b.passMask_getLsbD pass low, fits ⟨k, low⟩, Bool.and_true]

/-- The block with no reset of the stack under way. -/
def Block.resetOver (b : Block) : Block := { b with stk.rst := .none }

theorem Block.measured_resetOver (b : Block) (flight : List (Nat × Nat)) : b.resetOver.measured flight = (b.measured flight).resetOver := by
  unfold Block.measured
  induction flight generalizing b with
  | nil => rfl
  | cons e es ih => exact ih (b.modCol e.1 fun x => { x with flight := e.2 % 1024 })

/-! ### A column brought up (R236) -/

theorem Block.stampCal_stk (b : Block) (n : Nat) (pass : Bool) : (b.stampCal n pass).stk = b.stk := (b.stampCal_kept n pass).out .stk (by simp [Piece.among])

/-- Bringing a column up changes its fence bit alone of the stack. -/
theorem Block.bringUp_stk (b : Block) (n : Nat) (ok : Bool) : ∃ fence, (b.bringUp n ok).stk = { b.stk with fence := fence } := by
  unfold Block.bringUp
  dsimp only
  split
  · exact ⟨_, rfl⟩
  · split
    · exact ⟨_, b.stampCal_stk n _⟩
    · split <;> exact ⟨_, congrArg (fun k : Stack => { k with fence := k.fence &&& ~~~ chBit n }) (b.stampCal_stk n _)⟩

theorem Block.bringUp_rst (b : Block) (n : Nat) (ok : Bool) : (b.bringUp n ok).stk.rst = b.stk.rst := by
  obtain ⟨fence, h⟩ := b.bringUp_stk n ok
  rw [h]

theorem Block.bringUp_dman (b : Block) (n : Nat) (ok : Bool) : (b.bringUp n ok).stk.dman = b.stk.dman := by
  obtain ⟨fence, h⟩ := b.bringUp_stk n ok
  rw [h]

/-! ### The fence of an idle die -/

/-- No outstanding request has a part at the berth. -/
def Block.unused (b : Block) (n : Nat) : Prop := ∀ r ∈ b.qy.reqs, ∀ p ∈ r.parts, p.berth ≠ n

/-- The berth is shut, and needs a fill. -/
def Block.shutEmpty (b : Block) (n : Nat) : Prop := b.shut n ∧ (b.berth n).fillDone = false

/-- The berths of the list are shut and need a fill, with the requests and the stack's reset as they were. -/
structure Block.Shuts (ns : List Nat) (b c : Block) : Prop where
  rst : c.stk.rst = b.stk.rst
  reqs : c.qy.reqs = b.qy.reqs
  shut : ∀ n, n ∈ ns ∨ b.shutEmpty n → c.shutEmpty n

theorem Block.not_inSvc_iff {b : Block} {n : Nat} : b.inSvc n = false ↔ b.shut n := by
  unfold Block.inSvc Block.shut
  cases (b.berth n).st <;> simp

theorem Block.dieBerthFenced_unused {b : Block} {n : Nat} (unused : b.unused n) :
    b.dieBerthFenced n = if b.inSvc n then ((b.fenceBit n).enterFenced n).charterBerthLost n
      else (b.fenceBit n).modBerth n fun x => { x with fillDone := false } := by
  have quiet : ((b.fenceBit n).enterFenced n).qy.reqs = b.qy.reqs :=
    ((b.fenceBit n).enterFenced_kept n).qyOf (by simp [Piece.among]) Quay.reqs fun _ => rfl
  have held : (b.qy.reqs.filter fun r => r.parts.any fun p => p.berth == n && p.stage == .held) = [] :=
    List.filter_eq_nil_iff.mpr fun r listed => by
      simp only [List.any_eq_true, Bool.and_eq_true, beq_iff_eq, not_exists, not_and]
      exact fun p part at_ => absurd at_ (unused r listed p part)
  unfold Block.dieBerthFenced
  rw [← Block.fenceBit]
  dsimp only
  rw [quiet, held]
  rfl

theorem Block.dieBerthFenced_shuts {b : Block} {n : Nat} (unused : b.unused n) : Block.Shuts [n] b (b.dieBerthFenced n) := by
  rw [Block.dieBerthFenced_unused unused]
  split
  case isTrue =>
    have entered := (b.fenceBit n).enterFenced_kept n
    have lost := ((b.fenceBit n).enterFenced n).charterBerthLost_kept n
    have berth (k : Nat) : (((b.fenceBit n).enterFenced n).charterBerthLost n).berth k = ((b.fenceBit n).enterFenced n).berth k :=
      lost.out (.berth k) (by simp [Piece.among])
    refine ⟨?_, ?_, fun k h => ?_⟩
    · rw [lost.out .stk (by simp [Piece.among]), entered.out .stk (by simp [Piece.among])]
      rfl
    · exact (lost.qyOf (by simp [Piece.among]) Quay.reqs fun _ => rfl).trans (entered.qyOf (by simp [Piece.among]) Quay.reqs fun _ => rfl)
    · unfold Block.shutEmpty Block.shut
      rw [berth k]
      by_cases e : k = n
      · subst e
        exact ⟨Block.enterFenced_shut .., by rw [Block.enterFenced, Block.berth, Block.orReg_berths, ← Block.berth, Block.berth_modBerth, if_pos rfl]⟩
      · rw [entered.out (.berth k) (by simpa [Piece.among] using e)]
        exact h.resolve_left (by simpa using e)
  case isFalse out =>
    refine ⟨rfl, rfl, fun k h => ?_⟩
    unfold Block.shutEmpty Block.shut
    rw [Block.berth_modBerth]
    split
    case isTrue e =>
      subst e
      exact ⟨Block.not_inSvc_iff.mp (Bool.eq_false_iff.mpr out), rfl⟩
    case isFalse e => exact h.resolve_left (by simpa using Ne.symm e)

theorem Block.dieBerths_shut {b : Block} {ns : List Nat} (unused : ∀ n ∈ ns, b.unused n) : Block.Shuts ns b (b.each ns Block.dieBerthFenced) := by
  unfold Block.each
  induction ns generalizing b with
  | nil => exact ⟨rfl, rfl, fun n h => h.resolve_left List.not_mem_nil⟩
  | cons n ns ih =>
    have first := Block.dieBerthFenced_shuts (unused n (List.mem_cons_self ..))
    have rest := ih (b := b.dieBerthFenced n) fun k listed => by
      unfold Block.unused
      rw [first.reqs]
      exact unused k (List.mem_cons_of_mem _ listed)
    refine ⟨rest.rst.trans first.rst, rest.reqs.trans first.reqs, fun k h => rest.shut k ?_⟩
    rcases h with listed | already
    · rcases List.mem_cons.mp listed with rfl | later
      · exact .inr (first.shut k (.inl (List.mem_singleton_self k)))
      · exact .inl later
    · exact .inr (first.shut k (.inr already))

theorem Block.dieBerthFenced_fences (b : Block) (n : Nat) : Block.Fences [n] b (b.dieBerthFenced n) := by
  unfold Block.dieBerthFenced
  dsimp only
  split
  · exact (((b.fenceBit_fences n).trans (Block.Fences.enterFenced b n)).twice.sameStack (Block.fenceReqs_sameStack _ 0 n _)).sameStack
      ((Block.charterBerthLost_kept ..).sameStack (by simp [Piece.among]))
  · exact (b.fenceBit_fences n).sameStack ((b.fenceBit n).modBerth_sameStack n (.inl rfl))

/-! ### The die held in reset -/

theorem Block.emptyBerth_stk (b : Block) (n : Nat) : (b.emptyBerth n).stk = b.stk := by
  unfold Block.emptyBerth
  split <;> rfl

theorem Block.emptyBerth_qy (b : Block) (n : Nat) : (b.emptyBerth n).qy = b.qy := by
  unfold Block.emptyBerth
  split <;> rfl

theorem Block.emptyBerth_other (b : Block) {n k : Nat} (other : k ≠ n) : (b.emptyBerth k).berth n = b.berth n := by
  unfold Block.emptyBerth
  split
  · rw [Block.berth_modBerth, if_neg other]
  · rfl

theorem Block.unused.busyAt {b : Block} {n : Nat} (unused : b.unused n) : b.busyAt n = false :=
  List.any_eq_false.mpr fun r listed => by
    simp only [List.any_eq_true, Bool.and_eq_true, beq_iff_eq, not_exists, not_and]
    exact fun p part at_ => absurd at_ (unused r listed p part)

/-- A shut berth without a part is ABSENT once emptied. -/
theorem Block.emptyBerth_absent {b : Block} {n : Nat} (unused : b.unused n) (shut : b.shutEmpty n) :
    ((b.emptyBerth n).berth n).st = .absent ∧ ((b.emptyBerth n).berth n).fillDone = false := by
  obtain ⟨closed, empty⟩ := shut
  unfold Block.emptyBerth
  split
  · rw [Block.berth_modBerth, if_pos rfl]
    exact ⟨rfl, empty⟩
  · next h => exact ⟨closed.resolve_left fun fenced => h ⟨fenced, by simp [unused.busyAt]⟩, empty⟩

theorem Block.emptied_absent {b : Block} {ns : List Nat} {n : Nat} (once : ns.Nodup) (listed : n ∈ ns) (unused : b.unused n) (shut : b.shutEmpty n) :
    ((b.each ns Block.emptyBerth).berth n).st = .absent ∧ ((b.each ns Block.emptyBerth).berth n).fillDone = false := by
  obtain ⟨c, before, after⟩ := Block.each_at (f := Block.emptyBerth) (π := fun c => (c.berth n, c.qy)) once listed
    (fun c k _ other => Prod.ext (c.emptyBerth_other other) (c.emptyBerth_qy k)) b
  obtain ⟨berth, qy⟩ := Prod.mk.inj before
  obtain ⟨made, -⟩ := Prod.mk.inj after
  rw [made]
  refine Block.emptyBerth_absent ?_ ?_
  · unfold Block.unused
    rw [qy]
    exact unused
  · unfold Block.shutEmpty Block.shut
    rw [berth]
    exact shut

/-- A die that drains is held once its four berths are ABSENT. -/
def Block.holdDrained (b : Block) : Block :=
  match b.stk.rst with
  | .dieDrain k m =>
    if (List.range 4).all fun i => (b.berth (4 * k.val + i)).st == .absent then { b with stk.rst := .dieHeld k m, stk.rstAt := b.ck.tide } else b
  | _ => b

theorem Block.settle_eq (b : Block) : b.settle = (b.each (List.range 64) Block.emptyBerth).holdDrained := by
  unfold Block.settle
  generalize List.range 64 = ns
  rfl

theorem Block.holdDrained_holds {b : Block} {k : Fin 16} {m : ManRef} (drains : b.stk.rst = .dieDrain k m)
    (absent : ∀ i : Fin 4, (b.berth (4 * k.val + i.val)).st = .absent) :
    b.holdDrained = { b with stk.rst := .dieHeld k m, stk.rstAt := b.ck.tide } := by
  unfold Block.holdDrained
  rw [drains]
  exact if_pos (List.all_eq_true.mpr fun i listed => beq_iff_eq.mpr (absent ⟨i, List.mem_range.mp listed⟩))

/-- A die that drains with its berths shut and unused is held. -/
theorem Block.settle_holds {b : Block} {k : Fin 16} {m : ManRef} (drains : b.stk.rst = .dieDrain k m)
    (idle : ∀ i : Fin 4, b.unused (4 * k.val + i.val) ∧ b.shutEmpty (4 * k.val + i.val)) :
    b.settle.stk.rst = .dieHeld k m
      ∧ ∀ i : Fin 4, (b.settle.berth (4 * k.val + i.val)).st = .absent ∧ (b.settle.berth (4 * k.val + i.val)).fillDone = false := by
  have absent (i : Fin 4) := Block.emptied_absent (List.nodup_range (n := 64)) (List.mem_range.mpr (by omega)) (idle i).1 (idle i).2
  have still : (b.each (List.range 64) Block.emptyBerth).stk.rst = .dieDrain k m := by
    rw [Block.each_stk Block.emptyBerth_stk, drains]
  rw [Block.settle_eq]
  generalize b.each (List.range 64) Block.emptyBerth = c at absent still ⊢
  rw [Block.holdDrained_holds still fun i => (absent i).1]
  exact ⟨rfl, absent⟩

/-- The four berths of a die. -/
def dieBerths (k : Nat) : List Nat := (List.range 4).map (4 * k + ·)

/-- A die whose reset starts (R280). -/
def Block.dieDrains (b : Block) (k : Fin 16) (m : ManRef) : Block := { b with stk.rst := .dieDrain k m }

theorem mem_dieBerths {k n : Nat} : n ∈ dieBerths k ↔ ∃ i : Fin 4, n = 4 * k + i.val := by
  simp only [dieBerths, List.mem_map, List.mem_range]
  exact ⟨fun ⟨i, low, e⟩ => ⟨⟨i, low⟩, e.symm⟩, fun ⟨i, e⟩ => ⟨i.val, i.isLt, e.symm⟩⟩

/-- The fence bits of a die. -/
theorem dieBits_getLsbD (k : Nat) {n : Nat} (low : n < 64) : (BitVec.ofNat 64 (15 * 2 ^ (4 * k))).getLsbD n = decide (n ∈ dieBerths k) := by
  rw [BitVec.getLsbD_ofNat, Nat.testBit_mul_two_pow, show (15 : Nat) = 2 ^ 4 - 1 from rfl, Nat.testBit_two_pow_sub_one, decide_eq_true low, Bool.true_and,
    ← Bool.decide_and]
  refine decide_eq_decide.mpr (Iff.trans ?_ mem_dieBerths.symm)
  exact ⟨fun h => ⟨⟨n - 4 * k, h.2⟩, by dsimp only; omega⟩, fun ⟨i, e⟩ => by omega⟩

section
variable {s : State} {m : ManRef}

theorem exec_stackDieReset_man {die : BitVec 8} : exec (.stackDieReset m die) s = s.man m Mop.stackDieReset (·.stackDieReset m die.toNat) := rfl

theorem stackDieReset_badParam {die : BitVec 8} (mans : s.blk.mans Mop.stackDieReset) (high : 16 ≤ die.toNat) :
    Does (.stackDieReset m die) s [.slots, .running, .ins] fun b => b.doneWith m 0x0090 0x04 [] :=
  does_answer (d := {}) exec_stackDieReset_man mans (dif_neg (by omega)) (by decide) (by decide) (by decide)

theorem Block.stackDieReset_eq {b : Block} {k : Fin 16} (serving : b.inService = true) (idle : b.stk.rst = .none) :
    b.stackDieReset m k.val = (((b.dieDrains k m).each (dieBerths k) Block.dieBerthFenced).settle).checkOpen :=
  (dif_pos k.isLt).trans ((if_neg (not_not.mpr serving)).trans (if_neg (not_not.mpr idle)))

theorem stackDieReset_holds {k : Fin 16} (mans : s.blk.mans Mop.stackDieReset) (serving : s.blk.inService = true) (idle : s.blk.stk.rst = .none)
    (unused : (s.blk.qy.reqs.all fun r => r.parts.all fun p => dieOf p.berth != k.val) = true) :
    Does (.stackDieReset m (BitVec.ofNat 8 k.val)) s [.berths, .chans, .chs, .cnt, .events, .fws, .ins, .lanes, .mf, .pw, .qy, .regs, .running, .sides, .slots, .stk, .tl] fun b =>
      b.stk.rst = .dieHeld k m ∧ b.stk.fence = s.blk.stk.fence ||| BitVec.ofNat 64 (15 * 2 ^ (4 * k.val))
        ∧ ∀ i : Fin 4, (b.berth (4 * k.val + i.val)).st = .absent ∧ (b.berth (4 * k.val + i.val)).fillDone = false := by
  have die : (BitVec.ofNat 8 k.val).toNat = k.val := by
    rw [BitVec.toNat_ofNat]
    omega
  have free : ∀ n ∈ dieBerths k, (s.blk.dieDrains k m).unused n := by
    intro n listed r outstanding p part at_
    obtain ⟨i, rfl⟩ := mem_dieBerths.mp listed
    have other : dieOf p.berth ≠ k.val := bne_iff_ne.mp (List.all_eq_true.mp (List.all_eq_true.mp unused r outstanding) p part)
    rw [at_, dieOf] at other
    omega
  refine does_framed (exec_stackDieReset_man.trans (State.man_accepted _ mans)) (execStackDieReset_kept m _) .refl ?_
  have shuts := Block.dieBerths_shut free
  have fences := Block.Fences.each Block.dieBerthFenced_fences (s.blk.dieDrains k m) (dieBerths k)
  rw [die, Block.stackDieReset_eq serving idle]
  generalize (s.blk.dieDrains k m).each (dieBerths k) Block.dieBerthFenced = c at shuts fences ⊢
  obtain ⟨held, absent⟩ := Block.settle_holds (b := c) (k := k) (m := m) shuts.rst fun i => by
    have listed : 4 * k.val + i.val ∈ dieBerths k := mem_dieBerths.mpr ⟨i, rfl⟩
    refine ⟨?_, shuts.shut _ (.inl listed)⟩
    unfold Block.unused
    rw [shuts.reqs]
    exact free _ listed
  have opened := c.settle.checkOpen_kept
  have stk : c.settle.checkOpen.stk = c.settle.stk := opened.out .stk (by simp [Piece.among])
  have berth (n : Nat) : c.settle.checkOpen.berth n = c.settle.berth n := opened.out (.berth n) (by simp [Piece.among])
  rw [stk]
  refine ⟨held, BitVec.eq_of_getLsbD_eq fun n low => ?_, fun i => by rw [berth]; exact absent i⟩
  rw [c.settle_sameStack.fence, fences.fence n low, BitVec.getLsbD_or, dieBits_getLsbD k.val low]
  rfl

/-! ### DRST_RELEASE and DIE_RESET_CAL_DONE -/

theorem exec_drstRelease_upd : exec .drstRelease s = s.upd Block.drstRelease := rfl

section
variable {k : Fin 16} (held : s.blk.stk.rst = .dieHeld k m)
include held

theorem Block.drstRelease_held :
    s.blk.drstRelease = if s.blk.stk.dman ∨ s.blk.since s.blk.stk.rstAt < usTicks then s.blk else { s.blk with stk.rst := .dieCal k m } := by
  unfold Block.drstRelease
  rw [held]

theorem drstRelease_releases (high : s.blk.stk.dman = false) (waited : usTicks ≤ s.blk.since s.blk.stk.rstAt) :
    Does .drstRelease s [.stk] fun b => b.stk.rst = .dieCal k m := by
  refine does_framed exec_drstRelease_upd execDrstRelease_kept .refl ?_
  rw [Block.drstRelease_held held, if_neg (by simp [high, waited])]

theorem drstRelease_waits (waits : s.blk.stk.dman = true ∨ s.blk.since s.blk.stk.rstAt < usTicks) : exec .drstRelease s = .next s :=
  exec_upd_same exec_drstRelease_upd ((Block.drstRelease_held held).trans (if_pos waits))

end

/-- The four verdicts of a die in their place among all columns. -/
theorem dieVerdicts_getLsbD (pass : BitVec 4) (k : Fin 16) (i : Fin 4) :
    (pass.zeroExtend 64 <<< (4 * k.val)).getLsbD (4 * k.val + i.val) = pass.getLsbD i := by
  have low : 4 * k.val + i.val < 64 := by omega
  rw [BitVec.getLsbD_shiftLeft, decide_eq_true low, decide_eq_false (by omega), BitVec.getLsbD_setWidth, Nat.add_sub_cancel_left, decide_eq_true (by omega)]
  rfl

/-- The columns of a die that pass, from their four verdicts. -/
theorem dieResults {ok : BitVec 64} {pass : BitVec 4} {k : Fin 16} (bits : ∀ i : Fin 4, ok.getLsbD (4 * k.val + i.val) = pass.getLsbD i) :
    BitVec.ofNat 8 ((ok >>> (4 * k.val)).toNat % 16) = pass.zeroExtend 8 := by
  refine BitVec.eq_of_getLsbD_eq fun i low => ?_
  rw [BitVec.getLsbD_ofNat, Nat.testBit_mod_two_pow (j := 4), BitVec.getLsbD_setWidth, decide_eq_true low, Bool.true_and, Bool.true_and]
  by_cases four : i < 4
  · rw [decide_eq_true four, Bool.true_and, ← BitVec.getLsbD, BitVec.getLsbD_ushiftRight]
    exact bits ⟨i, four⟩
  · rw [decide_eq_false four, Bool.false_and, BitVec.getLsbD_of_ge pass i (by omega)]

theorem exec_dieResetCalDone_upd {pass : BitVec 4} {flight : List (Nat × Nat)} :
    exec (.dieResetCalDone pass flight) s = s.upd (·.dieResetCalDone pass flight) := rfl

theorem dieResetCalDone_completes {k : Fin 16} {pass : BitVec 4} {flight : List (Nat × Nat)} (runs : s.blk.stk.rst = .dieCal k m)
    (high : s.blk.stk.dman = false) (core : s.blk.coreRuns = true)
    (fits : ∀ i : Fin 4, (s.blk.measured (flight.filter fun e => dieOf e.1 == k.val)).flightOk (4 * k.val + i.val) = true) :
    Does (.dieResetCalDone pass flight) s [.berths, .chans, .cols, .ins, .running, .slots, .stk] fun b =>
      b.stk.rst = .none ∧ b.doneWith m 0x0090 0x00 [pass.zeroExtend 8] := by
  refine does_framed exec_dieResetCalDone_upd (execDieResetCalDone_kept pass flight) .refl ?_
  unfold Block.dieResetCalDone
  rw [runs]
  dsimp only
  rw [if_neg (by simp [high, core]), ← Block.resetOver, Block.measured_resetOver]
  set b := (s.blk.measured (flight.filter fun e => dieOf e.1 == k.val)).resetOver with hb
  set ok := b.passMask (pass.zeroExtend 64 <<< (4 * k.val)) with hok
  have bits (i : Fin 4) : ok.getLsbD (4 * k.val + i.val) = pass.getLsbD i := by
    rw [hok, b.passMask_getLsbD _ (by omega), show b.flightOk (4 * k.val + i.val) = true from fits i, Bool.and_true, dieVerdicts_getLsbD]
  refine ⟨?_, ?_⟩
  · rw [Block.finish_stk, Block.each_keeps (·.stk.rst) _ fun c i => c.bringUp_rst ..]
    rfl
  · rw [dieResults bits]
    exact Block.finish_doneWith _ {} (by decide) (by decide) (by rw [List.length_singleton]; decide)

end

end Sys2Proof.Machine
end

section
/-! SUPPORT. STACK_RESET and what completes it (R281), the end of the memory side's reset (R282), and the obligation. -/

namespace Sys2Proof.Machine

open Sys2Proof

/-! ### STACK_RESET and SRST_RELEASE -/

/-- Relays and fences cleared (R281). -/
def Block.relaysCleared (b : Block) : Block := { b with stk.relay := 0, stk.fence := 0 }

/-- The berth needs a fill. -/
def Block.unfill (b : Block) (n : Nat) : Block := b.modBerth n fun x => { x with fillDone := false }

theorem Block.srst_eq (b : Block) : b.srst = b.relaysCleared.each (List.range 64) Block.unfill := by
  unfold Block.srst
  generalize List.range 64 = ns
  rfl

theorem Block.unfill_fillDone {n : Nat} {ns : List Nat} (once : ns.Nodup) (listed : n ∈ ns) (b : Block) :
    ((b.each ns Block.unfill).berth n).fillDone = false := by
  obtain ⟨c, -, after⟩ := Block.each_at (f := Block.unfill) (π := (·.berth n)) once listed
    (fun c k _ other => by rw [Block.unfill, Block.berth_modBerth, if_neg other]) b
  rw [after, Block.unfill, Block.berth_modBerth, if_pos rfl]

theorem Block.unfill_stk (b : Block) (n : Nat) : (b.unfill n).stk = b.stk := rfl

theorem Block.srst_stk (b : Block) : b.srst.stk = b.relaysCleared.stk := by rw [b.srst_eq, Block.each_stk Block.unfill_stk]

theorem Block.srst_fillDone (b : Block) (n : Fin 64) : (b.srst.berth n).fillDone = false := by
  rw [b.srst_eq]
  exact Block.unfill_fillDone List.nodup_range (List.mem_range.mpr n.isLt) _

section
variable {s : State} {m : ManRef}

theorem exec_stackReset_man : exec (.stackReset m) s = s.man m Mop.stackReset (·.stackReset m) := rfl

/-- The block whose stack is held in reset from a time on. -/
def Block.stackHeld (b : Block) (m : ManRef) (at_ : Tide) : Block := { b with stk.rst := .stackHeld m, stk.rstAt := at_ }

theorem Block.stackHeld_kept (b : Block) (m : ManRef) (at_ : Tide) : Kept [.stk] b (b.stackHeld m at_) := by
  apply (Kept.refl _ b).of_fields <;> first | exact .inl rfl | exact .inr (by simp)

theorem Block.stackReset_holds {b : Block} (serving : b.inService = true) (idle : b.stk.rst = .none) (unscrubbed : b.prot.scrub = none)
    (absent : ∀ n : Fin 64, (b.berth n).st = .absent) : b.stackReset m = b.srst.stackHeld m b.ck.tide := by
  have none_ : ((List.range 64).any fun n => (b.berth n).st != .absent) = false :=
    List.any_eq_false.mpr fun n listed => by simp [absent ⟨n, List.mem_range.mp listed⟩]
  exact (if_neg (not_not.mpr serving)).trans ((if_neg (not_not.mpr idle)).trans (if_neg (by simp [none_, unscrubbed])))

/-- With the relays and fences cleared and every berth needing a fill, the held stack is as STACK_RESET leaves it. -/
theorem Block.stackHeld_cleared {b c : Block} {at_ : Tide} (stk : c.stk = b.relaysCleared.stk) (empty : ∀ n : Fin 64, (c.berth n).fillDone = false) :
    (c.stackHeld m at_).stk.rst = .stackHeld m ∧ (c.stackHeld m at_).stk.relay = 0 ∧ (c.stackHeld m at_).stk.fence = 0
      ∧ ∀ n : Fin 64, ((c.stackHeld m at_).berth n).fillDone = false :=
  ⟨rfl, congrArg Stack.relay stk, congrArg Stack.fence stk, empty⟩

theorem stackReset_holds (mans : s.blk.mans Mop.stackReset) (serving : s.blk.inService = true) (idle : s.blk.stk.rst = .none)
    (unscrubbed : s.blk.prot.scrub = none) (absent : ∀ n : Fin 64, (s.blk.berth n).st = .absent) :
    Does (.stackReset m) s [.stk, .berths] fun b =>
      b.stk.rst = .stackHeld m ∧ b.stk.relay = 0 ∧ b.stk.fence = 0 ∧ ∀ n : Fin 64, (b.berth n).fillDone = false :=
  does_man exec_stackReset_man mans (Block.stackReset_holds serving idle unscrubbed absent)
    ((Block.stackHeld_kept ..).step (Within.of_subset (by simp)) (s.blk.srst_kept.mono (Within.of_subset (by simp))))
    (Block.stackHeld_cleared s.blk.srst_stk s.blk.srst_fillDone)

theorem stackReset_refused (n : Fin 64) (mans : s.blk.mans Mop.stackReset) (serving : s.blk.inService = true) (idle : s.blk.stk.rst = .none)
    (used : (s.blk.berth n).st ≠ .absent) : Does (.stackReset m) s [.slots, .running, .ins] fun b => b.doneWith m 0x0091 0x02 [] := by
  have some_ : ((List.range 64).any fun n => (s.blk.berth n).st != .absent) = true :=
    List.any_eq_true.mpr ⟨n, List.mem_range.mpr n.isLt, bne_iff_ne.mpr used⟩
  refine does_answer (d := {}) exec_stackReset_man mans ?_ (by decide) (by decide) (by decide)
  exact (if_neg (not_not.mpr serving)).trans ((if_neg (not_not.mpr idle)).trans (if_pos (.inl some_)))

/-- The block with the stack out of its reset, after 1 µs (R281). -/
def Block.srstRelease (b : Block) : Block :=
  match b.stk.rst with
  | .stackHeld m => if b.since b.stk.rstAt < usTicks then b else { b with stk.rst := .stackTest m }
  | _ => b

theorem exec_srstRelease_upd : exec .srstRelease s = s.upd Block.srstRelease := rfl

theorem srstRelease_tests (held : s.blk.stk.rst = .stackHeld m) (waited : usTicks ≤ s.blk.since s.blk.stk.rstAt) :
    Does .srstRelease s [.stk] fun b => b.stk.rst = .stackTest m := by
  refine does_framed exec_srstRelease_upd execSrstRelease_kept .refl ?_
  unfold Block.srstRelease
  rw [held]
  dsimp only
  rw [if_neg (Nat.not_lt.mpr waited)]

/-! ### STACK_COLUMN_TEST_DONE -/

theorem Block.stampCal_col (b : Block) (n : Nat) (pass : Bool) : (b.stampCal n pass).col n = { b.col n with calPass := pass && b.flightOk n } := by
  have same : (b.stampCal n pass).col n = (b.modCol n fun x => { x with calPass := pass && b.flightOk n }).col n := rfl
  rw [same, Block.modCol, Block.col_setCol, if_pos rfl]

theorem Block.stampCal_flightOk (b : Block) (n : Nat) (pass : Bool) : (b.stampCal n pass).flightOk n = b.flightOk n := by
  rw [Block.flightOk, b.stampCal_col, Block.flightOk]

/-- What follows the verdict as a column comes up leaves the column. -/
theorem Block.cameUp_col (b : Block) (n : Nat) : (((b.leaveAbsent n).wakeClean n).berthReady n).col n = b.col n ∧ (b.startFill n).col n = b.col n := by
  have ready := ((b.leaveAbsent n).wakeClean n).berthReady_kept n
  have awake := (b.leaveAbsent n).wakeClean_kept n
  have left := b.leaveAbsent_kept n
  refine ⟨?_, (b.startFill_kept n).out (.col n) (by simp [Piece.among])⟩
  rw [ready.out (.col n) (by simp [Piece.among]), awake.out (.col n) (by simp [Piece.among]), left.out (.col n) (by simp [Piece.among])]

/-- A column with its verdict keeps it as it comes up. -/
theorem Block.bringUp_calPass {b : Block} {n : Nat} {pass : Bool} (fits : b.flightOk n = true) (stamped : (b.col n).calPass = pass) :
    ((b.bringUp n pass).col n).calPass = pass := by
  have verdict : ((b.stampCal n (pass && b.flightOk n)).col n).calPass = pass := by
    rw [Block.stampCal_col]
    simp [fits]
  unfold Block.bringUp
  dsimp only
  generalize b.stampCal n (pass && b.flightOk n) = c at verdict ⊢
  obtain ⟨ready, filling⟩ := c.cameUp_col n
  split
  · exact stamped
  · split
    · exact verdict
    · split
      · rw [ready, verdict]
      · rw [filling, verdict]

/-- A column takes its result and comes up with it. -/
def Block.testColumn (b : Block) (ok : BitVec 64) (n : Nat) : Block := (b.stampCal n (ok.getLsbD n)).bringUp n (ok.getLsbD n)

theorem Block.testColumn_kept (b : Block) (ok : BitVec 64) (n : Nat) : Kept [.berth n, .chan n, .col n, .stk] b (b.testColumn ok n) :=
  Block.bringUp_keeps .refl ((b.stampCal_kept n _).mono (Within.of_subset (by simp)))

theorem Block.testColumn_rst (b : Block) (ok : BitVec 64) (n : Nat) : (b.testColumn ok n).stk.rst = b.stk.rst := by
  rw [Block.testColumn, Block.bringUp_rst, Block.stampCal_stk]

theorem Block.testColumn_calPass {b : Block} {n : Nat} (ok : BitVec 64) (fits : b.flightOk n = true) :
    ((b.testColumn ok n).col n).calPass = ok.getLsbD n := by
  refine Block.bringUp_calPass ((b.stampCal_flightOk ..).trans fits) ?_
  rw [Block.stampCal_col, fits, Bool.and_true]

theorem Block.testColumns_calPass {b : Block} {n : Nat} {ns : List Nat} (ok : BitVec 64) (once : ns.Nodup) (listed : n ∈ ns) (fits : b.flightOk n = true) :
    ((b.each ns fun b n => b.testColumn ok n).col n).calPass = ok.getLsbD n := by
  obtain ⟨c, before, after⟩ := Block.each_at (f := fun b n => b.testColumn ok n) (π := (·.col n)) once listed
    (fun c k _ other => (c.testColumn_kept ok k).out (.col n) (by simpa [Piece.among] using other.symm)) b
  rw [after]
  refine Block.testColumn_calPass ok ?_
  rw [Block.flightOk, before]
  exact fits

theorem Block.columnTestDone_eq {b : Block} (runs : b.stk.rst = .stackTest m) (pass : BitVec 64) (flight : List (Nat × Nat))
    (fits : ∀ n : Fin 64, (b.measured flight).flightOk n = true) :
    b.columnTestDone pass flight
      = ((b.measured flight).resetOver.each (List.range 64) fun b n => b.testColumn pass n).finish m Mop.stackReset St.ok (leBytes pass.toNat 8) := by
  unfold Block.columnTestDone
  rw [runs]
  dsimp only
  rw [← Block.resetOver, Block.measured_resetOver, (b.measured flight).resetOver.passMask_fits pass fits]
  rfl

theorem stackColumnTestDone_completes {pass : BitVec 64} {flight : List (Nat × Nat)} (runs : s.blk.stk.rst = .stackTest m)
    (fits : ∀ n : Fin 64, (s.blk.measured flight).flightOk n = true) :
    Does (.stackColumnTestDone pass flight) s [.berths, .chans, .cols, .ins, .running, .slots, .stk] fun b =>
      b.stk.rst = .none ∧ b.doneWith m 0x0091 0x00 (leBytes pass.toNat 8) ∧ ∀ n : Fin 64, (b.col n).calPass = pass.getLsbD n := by
  have upd : exec (.stackColumnTestDone pass flight) s = s.upd (·.columnTestDone pass flight) := rfl
  refine does_framed upd (execStackColumnTestDone_kept pass flight) .refl ?_
  rw [Block.columnTestDone_eq runs pass flight fits]
  refine ⟨?_, ?_, fun n => ?_⟩
  · rw [Block.finish_stk, Block.each_keeps (·.stk.rst) _ fun c n => c.testColumn_rst pass n]
    rfl
  · exact Block.finish_doneWith _ {} (by decide) (by decide) (by rw [leBytes_length]; decide)
  · rw [Block.col, Block.finish_cols, ← Block.col]
    exact Block.testColumns_calPass pass List.nodup_range (List.mem_range.mpr n.isLt) (fits n)

/-! ### MEM_RST_RELEASE -/

/-- DMAN and the memory side's reset stand as before. -/
structure Block.SameReset (b c : Block) : Prop where
  dman : c.stk.dman = b.stk.dman
  resetting : c.qy.resetting = b.qy.resetting

theorem Block.SameReset.refl (b : Block) : b.SameReset b := ⟨rfl, rfl⟩

theorem Block.SameReset.trans {b c d : Block} (h : b.SameReset c) (k : c.SameReset d) : b.SameReset d :=
  ⟨k.dman.trans h.dman, k.resetting.trans h.resetting⟩

theorem Block.SameReset.each {f : Block → Nat → Block} (h : ∀ (c : Block) n, c.SameReset (f c n)) (b : Block) (ns : List Nat) : b.SameReset (b.each ns f) :=
  List.foldlRecOn (motive := b.SameReset) ns f (.refl b) fun c same n _ => same.trans (h c n)

theorem Kept.sameReset {ps : List Piece} {b c : Block} (h : Kept ps b c) (off : ¬ Piece.qy.among ps ∧ ¬ Piece.stk.among ps) : b.SameReset c :=
  ⟨congrArg Stack.dman (h.out .stk off.2), h.qyOf off.1 Quay.resetting fun _ => rfl⟩

theorem Block.alarmed_sameReset (b : Block) (v : Word) (e : Ev) (unit : Nat) : b.SameReset ((b.orReg Off.stAlarm v).event e unit) :=
  .trans ((b.setReg_kept ..).sameReset (by simp [Piece.among])) ((Block.event_kept ..).sameReset (by simp [Piece.among]))

theorem Block.fenceAll_sameReset (b : Block) (age : Nat → Nat) (ns : List Nat) : b.SameReset (b.fenceAll age ns) :=
  have fences := b.fenceAll_stack age ns
  ⟨fences.dman, fences.resetting⟩

theorem Block.diagnose_sameReset (b : Block) (lost mon : Nat → Bool) (age : Nat → Nat) : b.SameReset (b.diagnose lost mon age) := by
  unfold Block.diagnose
  dsimp only
  split
  case isTrue => exact .refl b
  case isFalse =>
    split
    case isTrue => exact (b.alarmed_sameReset ..).trans (Block.fenceAll_sameReset ..)
    case isFalse =>
      split
      case h_1 j _ =>
        have marked : b.SameReset (b.markRelay j) := ⟨rfl, rfl⟩
        exact (marked.trans (Block.alarmed_sameReset ..)).trans (Block.fenceAll_sameReset ..)
      case h_2 => exact (Block.SameReset.each (fun c n => c.alarmed_sameReset ..) b _).trans (Block.fenceAll_sameReset ..)

theorem Block.bringUp_sameReset (b : Block) (n : Nat) (ok : Bool) : b.SameReset (b.bringUp n ok) :=
  ⟨b.bringUp_dman n ok, (b.bringUp_kept n ok).qyOf (by simp [Piece.among]) Quay.resetting fun _ => rfl⟩

theorem Block.bringUpAll_sameReset (b : Block) (pass lost : BitVec 64) : b.SameReset (b.bringUpAll pass lost) := by
  refine (b.diagnose_sameReset ..).trans (.each (fun c n => ?_) ..)
  split
  · exact .refl c
  · exact c.bringUp_sameReset n _

theorem Block.restoreMemory_sameReset (b : Block) (pass lost : BitVec 64) (flight : List (Nat × Nat)) :
    b.dmanHigh.SameReset (b.restoreMemory pass lost flight) := by
  rw [Block.restoreMemory_eq]
  have measured := (b.dmanHigh.measured_kept flight).sameReset (by simp [Piece.among])
  have broughtUp := measured.trans (Block.bringUpAll_sameReset _ pass lost)
  have reloaded := broughtUp.trans ((Block.reloadCharters_kept _).sameReset (by simp [Piece.among]))
  exact reloaded.trans ((Block.activateWoken_kept _).sameReset (by simp [Piece.among]))

theorem memRstRelease_restores {pass lost : BitVec 64} {flight : List (Nat × Nat)} (resets : s.blk.qy.resetting = true) (core : s.blk.coreRuns = true) :
    Does (.memRstRelease pass lost flight) s [.berths, .chans, .chs, .cnt, .cols, .events, .fws, .ins, .lanes, .mf, .pw, .qy, .regs, .running, .sides, .slots, .stk, .tl]
      fun b => b.stk.dman = false ∧ b.qy.resetting = false := by
  have upd : exec (.memRstRelease pass lost flight) s = s.upd fun b => if b.qy.resetting ∧ b.coreRuns then b.restoreMemory pass lost flight else b := rfl
  refine does_framed upd (execMemRstRelease_kept pass lost flight) .refl ?_
  rw [if_pos ⟨resets, core⟩]
  have same := s.blk.restoreMemory_sameReset pass lost flight
  exact ⟨same.dman, same.resetting⟩

end

/-- Settles O40: a scrub pass from its start to its summary, and the die, stack and memory-side resets, each step from what the
operation before it left. -/
theorem scrubAndStackResets : Obligations.ScrubAndStackResets := by
  unfold Obligations.ScrubAndStackResets
  refine ⟨?_, ?_, ?_, ?_, ?_, ?_, ?_, ?_, ?_, ?_, ?_, ?_, ?_, ?_, ?_⟩
  · exact fun s m start len flags mans serving aligned some_ whole inside small idle out =>
      scrubRange_starts mans serving aligned some_ whole inside small idle out
  · exact fun s m start len flags mans bad => scrubRange_badParam mans bad
  · exact fun s m start len flags mans serving aligned some_ whole inside small busy =>
      scrubRange_busyRetry mans serving aligned some_ whole inside small busy
  · exact fun s sc dmg runs core none_ => scrubDone_idle runs core none_
  · exact fun s sc dmg runs core fits => scrubDone_ends runs core fits
  · exact fun s m die mans high => stackDieReset_badParam mans high
  · exact fun s m k mans serving idle unused => stackDieReset_holds mans serving idle unused
  · exact fun s k m held high waited => drstRelease_releases held high waited
  · exact fun s k m held waits => drstRelease_waits held waits
  · exact fun s k m pass flight runs high core fits => dieResetCalDone_completes runs high core fits
  · exact fun s m mans serving idle unscrubbed absent => stackReset_holds mans serving idle unscrubbed absent
  · exact fun s m n mans serving idle used => stackReset_refused n mans serving idle used
  · exact fun s m held waited => srstRelease_tests held waited
  · exact fun s m pass flight runs fits => stackColumnTestDone_completes runs fits
  · exact fun s pass lost flight resets core => memRstRelease_restores resets core

end Sys2Proof.Machine
end

section
/-! SUPPORT. Where stored symbols can change (R243, R286, R299, R346, R353): accesses, fills and scrubs reach them, and a failure
only by the bursts that it cuts. -/

namespace Sys2Proof.Machine

open Sys2Proof

set_option Elab.async false

/-- VDD_CORE alone is the rail whose failure can cut a burst. -/
theorem exec_railUv_block {r : Rail} (h : r ≠ .core) (s : State) : ∃ b, exec (.railUv r) s = .next { s with blk := b } := by
  obtain ⟨m, b, e, rfl | ⟨core, -⟩⟩ := exec_railUv_cells r s
  · exact ⟨b, e⟩
  · exact absurd core h

theorem mem_eq_of_exec_block {i : Instr} {s t : State} (block : ∃ b, exec i s = .next { s with blk := b }) (h : exec i s = .next t) :
    t.mem = s.mem := by
  obtain ⟨b, e⟩ := block
  rw [e] at h; cases h
  rfl

/-- Settles O5: of the commands that reach the stored symbols, the statement leaves only the rails other than VDD_CORE, which change
the block alone as every other command does. -/
theorem onlyAccessesAndFailuresTouchStore : Obligations.OnlyAccessesAndFailuresTouchStore := by
  intro i s t h notXtal notRoot notCore notIssue notPart notFill notScrub a
  have block : ∃ b, exec i s = .next { s with blk := b } := by
    cases reaches : Instr.reachesStore i
    case false => exact exec_block reaches s
    case true =>
      cases i
      case railUv r => exact exec_railUv_block (fun core => notCore (core ▸ rfl)) s
      case xtalFail d hk => exact absurd rfl (notXtal d hk)
      case rootLost d hk => exact absurd rfl (notRoot d hk)
      case commandIssue n d f pe => exact absurd rfl (notIssue n d f pe)
      case partDone r p d pe => exact absurd rfl (notPart r p d pe)
      case channelFillDone n => exact absurd rfl (notFill n)
      case scrubDone d => exact absurd rfl (notScrub d)
      all_goals cases reaches
  rw [mem_eq_of_exec_block block h]

end Sys2Proof.Machine
end

section
/-! SUPPORT. What a row over CSR starts: the key store over a sideband path (R315, R335), the memory side's reset (R282, R356),
the model's seed (R386), an extra strobe (R429, R432), and the tally selectors (R426, R427). -/

namespace Sys2Proof.Machine

open Sys2Proof

/-! ### The work of a KS_CMD (R315) -/

section
variable {b : Block} {p : Path} {w : KeyWork} {v : Word}

theorem Block.keyWork_cases (b : Block) (w : KeyWork) :
    (w.erase = true ∧ b.keyWork w = (St.ok, b.keys.erase w.kind w.slot))
      ∨ (∃ bs, w.erase = false ∧ b.plainKey w = some bs ∧ b.keyWork w = (St.ok, b.keys.load w bs))
      ∨ ∃ st, st ≠ 0 ∧ b.keyWork w = (st, b.keys) := by
  unfold Block.keyWork
  dsimp only
  split
  · exact .inr (.inr ⟨_, by decide, rfl⟩)
  split
  · exact .inr (.inr ⟨_, by decide, rfl⟩)
  split
  · exact .inr (.inr ⟨_, by decide, rfl⟩)
  split
  · exact .inr (.inr ⟨_, by decide, rfl⟩)
  split
  case isTrue erase => exact .inl ⟨erase, rfl⟩
  case isFalse load =>
    split
    · exact .inr (.inr ⟨_, by decide, rfl⟩)
    case h_2 bs plain =>
      split
      · exact .inr (.inr ⟨_, by decide, rfl⟩)
      · exact .inr (.inl ⟨bs, Bool.not_eq_true _ ▸ load, plain, rfl⟩)

theorem Block.keyWork_erases (erase : w.erase = true) (done : (b.keyWork w).1 = 0) : b.keyWork w = (St.ok, b.keys.erase w.kind w.slot) := by
  rcases b.keyWork_cases w with ⟨-, e⟩ | ⟨-, load, -⟩ | ⟨st, failed, e⟩
  · exact e
  · rw [erase] at load; cases load
  · rw [e] at done; exact absurd done failed

theorem Block.keyWork_loads (load : w.erase = false) (plain : w.wrapped = false) (done : (b.keyWork w).1 = 0) :
    b.keyWork w = (St.ok, b.keys.load w w.material) := by
  rcases b.keyWork_cases w with ⟨erase, -⟩ | ⟨bs, -, key, e⟩ | ⟨st, failed, e⟩
  · rw [load] at erase; cases erase
  · have bare : b.plainKey w = some w.material := by simp [Block.plainKey, plain]
    rw [bare] at key
    cases key
    exact e
  · rw [e] at done; exact absurd done failed

theorem Block.keyWork_failed (failed : (b.keyWork w).1 ≠ 0) : (b.keyWork w).2 = b.keys := by
  rcases b.keyWork_cases w with ⟨-, e⟩ | ⟨bs, -, -, e⟩ | ⟨st, -, e⟩
  · exact absurd (congrArg Prod.fst e) failed
  · exact absurd (congrArg Prod.fst e) failed
  · rw [e]

/-! ### KS_CMD and KS_ZEROIZE (R335) -/

theorem Block.ksCmd_done {ks : Keys} (go : v.getLsbD 31 = true) (legal : (b.ksWork v).legal = true) (work : b.keyWork (b.ksWork v) = (St.ok, ks)) :
    b.ksCmd v = { b with keys := { ks with ksData := [], ksReject := false } } := by
  simp only [Block.ksCmd, go, legal, work, not_true, if_false, if_true, bne_self_eq_false]

theorem Block.ksCmd_rejected (go : v.getLsbD 31 = true) (bad : ((b.ksWork v).legal && (b.keyWork (b.ksWork v)).1 == 0) = false) :
    b.ksCmd v = { b with keys := { b.keys with ksData := [], ksReject := true } } := by
  simp only [Block.ksCmd, go, not_true, if_false]
  split
  case isTrue legal =>
    have failed : (b.keyWork (b.ksWork v)).1 ≠ 0 := by simpa [legal] using bad
    rw [Block.keyWork_failed failed, bne_iff_ne.mpr failed]
  case isFalse => rfl

theorem Block.csrWrite_ksCmd (b : Block) (p : Path) (v : Word) : b.csrWrite p Off.ksCmd v = if ¬ b.ksOpen p then b else b.ksCmd v := rfl

theorem Block.csrWrite_ksZeroize (b : Block) (p : Path) : b.csrWrite p Off.ksZeroize 1 = if ¬ b.ksOpen p then b else b.ksZeroize := rfl

theorem Block.ksWork_load (b : Block) (v : Word) : (b.ksWork (v &&& ~~~ 0x200)).erase = false ∧ (b.ksWork (v &&& ~~~ 0x200)).wrapped = false :=
  ⟨by simp [Block.ksWork], rfl⟩

theorem Block.ksWork_erase (b : Block) (v : Word) : (b.ksWork (v ||| 0x200)).erase = true := by simp [Block.ksWork]

end

section
variable {s : State} {p : Path} {i : Instr} {off : Nat} {v : Word} {w : KeyWork}

/-- A row that writes a register of the key store, on a path that may, changes the keys as the write does. -/
theorem does_ksWrite {c : Block} {ks : Keys} (e : exec i s = s.upd (·.writeOn p off v)) (serves : s.blk.serves p = true) (opened : s.blk.ksOpen p = true)
    (write : s.blk.csrWrite p off v = if ¬ s.blk.ksOpen p then s.blk else c) (made : c = { s.blk with keys := ks }) :
    Does i s [.keys] fun b => b.keys = ks :=
  does_upd_eq e ((Block.writeOn_served _ v serves).trans (write.trans ((if_neg (not_not.mpr opened)).trans made))) (Kept.keys ..) rfl

theorem exec_ksWrite_closed {c : Block} (e : exec i s = s.upd (·.writeOn p off v)) (write : s.blk.csrWrite p off v = if ¬ s.blk.ksOpen p then s.blk else c)
    (closed : s.blk.serves p = false ∨ s.blk.ksOpen p = false) : exec i s = .next s := by
  refine exec_upd_same e ?_
  rcases closed with unserved | shut
  · exact Block.writeOn_unserved _ v unserved
  · rw [Block.writeOn, write, if_pos (Bool.eq_false_iff.mp shut), ite_self]

theorem exec_ksLoad_upd (p : Path) (v : Word) (s : State) : exec (.ksLoad p v) s = s.upd (·.writeOn p Off.ksCmd (v &&& ~~~ 0x200)) := rfl

theorem exec_ksErase_upd (p : Path) (v : Word) (s : State) : exec (.ksErase p v) s = s.upd (·.writeOn p Off.ksCmd (v ||| 0x200)) := rfl

theorem exec_ksZeroize_upd (p : Path) (s : State) : exec (.ksZeroize p) s = s.upd (·.writeOn p Off.ksZeroize 1) := rfl

theorem go_load (go : v.getLsbD 31 = true) : (v &&& ~~~ 0x200).getLsbD 31 = true := by simp [go]

theorem go_erase (go : v.getLsbD 31 = true) : (v ||| 0x200).getLsbD 31 = true := by simp [go]

theorem ksLoad_loads (serves : s.blk.serves p = true) (opened : s.blk.ksOpen p = true) (go : v.getLsbD 31 = true)
    (reads : s.blk.ksWork (v &&& ~~~ 0x200) = w) (legal : w.legal = true) (done : (s.blk.keyWork w).1 = 0) :
    Does (.ksLoad p v) s [.keys] fun b => b.keys = { s.blk.keys.load w w.material with ksData := [], ksReject := false } := by
  subst reads
  obtain ⟨load, plain⟩ := s.blk.ksWork_load v
  exact does_ksWrite (exec_ksLoad_upd p v s) serves opened (s.blk.csrWrite_ksCmd p _)
    (Block.ksCmd_done (go_load go) legal (Block.keyWork_loads load plain done))

theorem ksLoad_rejected (serves : s.blk.serves p = true) (opened : s.blk.ksOpen p = true) (go : v.getLsbD 31 = true)
    (reads : s.blk.ksWork (v &&& ~~~ 0x200) = w) (bad : (w.legal && (s.blk.keyWork w).1 == 0) = false) :
    Does (.ksLoad p v) s [.keys] fun b => b.keys = { s.blk.keys with ksData := [], ksReject := true } := by
  subst reads
  exact does_ksWrite (exec_ksLoad_upd p v s) serves opened (s.blk.csrWrite_ksCmd p _) (Block.ksCmd_rejected (go_load go) bad)

theorem ksErase_erases (serves : s.blk.serves p = true) (opened : s.blk.ksOpen p = true) (go : v.getLsbD 31 = true)
    (reads : s.blk.ksWork (v ||| 0x200) = w) (legal : w.legal = true) (done : (s.blk.keyWork w).1 = 0) :
    Does (.ksErase p v) s [.keys] fun b => b.keys = { s.blk.keys.erase w.kind w.slot with ksData := [], ksReject := false } := by
  subst reads
  exact does_ksWrite (exec_ksErase_upd p v s) serves opened (s.blk.csrWrite_ksCmd p _)
    (Block.ksCmd_done (go_erase go) legal (Block.keyWork_erases (s.blk.ksWork_erase v) done))

theorem ksErase_rejected (serves : s.blk.serves p = true) (opened : s.blk.ksOpen p = true) (go : v.getLsbD 31 = true)
    (reads : s.blk.ksWork (v ||| 0x200) = w) (bad : (w.legal && (s.blk.keyWork w).1 == 0) = false) :
    Does (.ksErase p v) s [.keys] fun b => b.keys = { s.blk.keys with ksData := [], ksReject := true } := by
  subst reads
  exact does_ksWrite (exec_ksErase_upd p v s) serves opened (s.blk.csrWrite_ksCmd p _) (Block.ksCmd_rejected (go_erase go) bad)

theorem ksZeroize_empties (serves : s.blk.serves p = true) (opened : s.blk.ksOpen p = true) :
    Does (.ksZeroize p) s [.keys] fun b => b.keys = { s.blk.keys with region := [], manifest := [], wrap := none } :=
  does_ksWrite (exec_ksZeroize_upd p s) serves opened (s.blk.csrWrite_ksZeroize p) rfl

theorem exec_ks_closed (v : Word) (closed : s.blk.serves p = false ∨ s.blk.ksOpen p = false) :
    exec (.ksLoad p v) s = .next s ∧ exec (.ksErase p v) s = .next s ∧ exec (.ksZeroize p) s = .next s :=
  ⟨exec_ksWrite_closed (exec_ksLoad_upd p v s) (s.blk.csrWrite_ksCmd p _) closed,
    exec_ksWrite_closed (exec_ksErase_upd p v s) (s.blk.csrWrite_ksCmd p _) closed,
    exec_ksWrite_closed (exec_ksZeroize_upd p s) (s.blk.csrWrite_ksZeroize p) closed⟩

end

/-! ### MEM_RST (R282, R356) -/

section
variable (b : Block)

/-- The block with its requests, charters and scrub ended, and the registers and tallies of the memory side at their reset values. -/
def Block.memoryCleared : Block :=
  let b := (b.abandonAll.closeForReload.endScrub St.aborted).resetRegs (heldIn memDomain)
  { b with tl.blocks := b.tl.blocks.filter fun e => !memDomain (tallyDom e.1) }

/-- A berth as the memory side's reset leaves it. -/
def Block.absentBerth (n : Nat) : Block := b.modBerth n fun x => { x with st := .absent, fence := [], rep := [], ueList := [] }

theorem Block.resetMemory_eq : b.resetMemory = (b.memoryCleared.each (List.range 64) Block.absentBerth).settle := by
  unfold Block.resetMemory
  generalize List.range 64 = ns
  rfl

theorem Block.memoryCleared_stk : b.memoryCleared.stk = b.stk := by
  have requests := b.abandonAll_kept.out .stk (by simp [Piece.among])
  have charters := b.abandonAll.closeForReload_kept.out .stk (by simp [Piece.among])
  have scrub := (b.abandonAll.closeForReload.endScrub_kept St.aborted).out .stk (by simp [Piece.among])
  exact scrub.trans (charters.trans requests)

theorem Block.absentBerths_absent (n : Fin 64) : ((b.each (List.range 64) Block.absentBerth).berth n).st = .absent := by
  obtain ⟨c, -, made⟩ := Block.each_at (f := Block.absentBerth) (π := (·.berth n)) List.nodup_range (List.mem_range.mpr n.isLt)
    (fun c k _ other => (c.modBerth_kept k _).out (.berth n) (by simpa [Piece.among] using other.symm)) b
  rw [made, Block.absentBerth, Block.berth_modBerth, if_pos rfl]

theorem Block.resetMemory_absent (n : Fin 64) : (b.resetMemory.berth n).st = .absent := by
  have absent := b.memoryCleared.absentBerths_absent n
  rw [Block.resetMemory_eq, (Block.settle_sameStack _).serving n (by simp [absent]), absent]

theorem Block.resetMemory_dman : b.resetMemory.stk.dman = b.stk.dman := by
  rw [Block.resetMemory_eq, (Block.settle_sameStack _).dman, Block.each_stk (f := Block.absentBerth) fun _ _ => rfl, Block.memoryCleared_stk]

/-- The block whose memory side is reset, with its cause noted. -/
def Block.memoryNoted : Block := b.dmanLow.resetMemory.orReg Off.ckResetCause 8

theorem Block.memoryNoted_stk : b.memoryNoted.stk = b.dmanLow.resetMemory.stk := Block.orReg_stk ..

theorem Block.memoryNoted_berth (n : Nat) : b.memoryNoted.berth n = b.dmanLow.resetMemory.berth n :=
  (Block.orReg_kept ..).out (.berth n) (by simp [Piece.among])

theorem Block.memoryNoted_cause : b.memoryNoted.regBit Off.ckResetCause 3 = true := by
  rw [Block.memoryNoted, Block.regBit_orReg]
  exact Bool.or_true _

/-- The block with its survey manifests ended. -/
def Block.surveysEnded : Block := b.endRunning (fun r => r.opcode.toNat == Mop.surveyRun) St.aborted

theorem Block.surveysEnded_kept : Kept [.ins, .running, .slots] b b.surveysEnded := Block.endRunning_kept ..

/-- The block whose memory side is held in reset, with no survey under way. -/
def Block.memoryHeld : Block := { b with qy.resetting := true, sv.run := none, sv.busy := b.sv.busy && b.sv.run.isNone }

theorem Block.memoryHeld_resetting : b.memoryHeld.qy.resetting = true := rfl

theorem Block.memoryHeld_stk : b.memoryHeld.stk = b.stk := rfl

theorem Block.memoryHeld_regBit (o i : Nat) : b.memoryHeld.regBit o i = b.regBit o i := rfl

theorem Block.memoryHeld_berth (n : Nat) : b.memoryHeld.berth n = b.berth n := rfl

theorem Block.memRst_starts {b : Block} {p : Path} (side : p ≠ .inBand) (serving : b.inService = true) (live : b.live = true) :
    b.memRst p = b.memoryNoted.surveysEnded.memoryHeld := by
  have opened : ¬ (p = .inBand ∨ ¬ b.inService = true ∨ ¬ b.live = true) := by simp [side, serving, live]
  unfold Block.memRst
  rw [if_neg opened, ← Block.memoryNoted]
  generalize b.memoryNoted = c
  rfl

theorem Block.memoryReset_dman : b.memoryNoted.surveysEnded.memoryHeld.stk.dman = true := by
  rw [Block.memoryHeld_stk, b.memoryNoted.surveysEnded_kept.out .stk (by simp [Piece.among]), Block.memoryNoted_stk, Block.resetMemory_dman,
    Block.dmanLow_dman]

theorem Block.memoryReset_cause : b.memoryNoted.surveysEnded.memoryHeld.regBit Off.ckResetCause 3 = true := by
  rw [Block.memoryHeld_regBit, Block.regBit, b.memoryNoted.surveysEnded_kept.out (.reg Off.ckResetCause) (by simp [Piece.among]), ← Block.regBit,
    Block.memoryNoted_cause]

theorem Block.memoryReset_absent (n : Fin 64) : (b.memoryNoted.surveysEnded.memoryHeld.berth n).st = .absent := by
  rw [Block.memoryHeld_berth, b.memoryNoted.surveysEnded_kept.out (.berth n) (by simp [Piece.among]), Block.memoryNoted_berth,
    Block.resetMemory_absent]

theorem Block.memRst_barred {b : Block} {p : Path} (h : p = .inBand ∨ b.inService = false ∨ b.live = false) : b.memRst p = b :=
  if_pos (by simpa using h)

end

section
variable {s : State} {p : Path}

theorem exec_memRst_upd (p : Path) (s : State) : exec (.memRst p) s = s.upd (·.writeOn p Off.ckResetCtrl 1) := rfl

theorem Block.csrWrite_memRst (b : Block) (p : Path) : b.csrWrite p Off.ckResetCtrl 1 = b.memRst p := rfl

theorem memRst_resets (serves : s.blk.serves p = true) (side : (p == .inBand) = false) (serving : s.blk.inService = true) (live : s.blk.live = true) :
    Does (.memRst p) s [.berths, .chans, .chs, .cnt, .cols, .events, .fresh, .fws, .heat, .hold, .ins, .keys, .lanes, .mf, .prot, .pw, .qy, .regs,
        .running, .sel, .sides, .slots, .stk, .sv, .tl] fun b =>
      b.qy.resetting = true ∧ b.stk.dman = true ∧ b.regBit Off.ckResetCause 3 = true ∧ (∀ n : Fin 64, (b.berth n).st = .absent)
        ∧ b.keys = s.blk.keys := by
  have frame := s.blk.memRst_kept p
  refine does_upd_eq (exec_memRst_upd p s) ((Block.writeOn_served _ 1 serves).trans (s.blk.csrWrite_memRst p)) (frame.mono (Within.of rfl)) ?_
  have keys : (s.blk.memRst p).keys = s.blk.keys := frame.out .keys (by simp [Piece.among])
  refine ⟨?_, ?_, ?_, fun n => ?_, keys⟩ <;> rw [Block.memRst_starts (by simpa using side) serving live]
  · exact Block.memoryHeld_resetting _
  · exact s.blk.memoryReset_dman
  · exact s.blk.memoryReset_cause
  · exact s.blk.memoryReset_absent n

theorem exec_memRst_barred (h : p = .inBand ∨ s.blk.serves p = false ∨ s.blk.inService = false ∨ s.blk.live = false) :
    exec (.memRst p) s = .next s := by
  refine exec_upd_same (exec_memRst_upd p s) ?_
  cases serves : s.blk.serves p
  case false => exact Block.writeOn_unserved _ 1 serves
  case true => rw [Block.writeOn_served _ 1 serves, Block.csrWrite_memRst, Block.memRst_barred (by simpa [serves] using h)]

/-! ### RESEED (R386) -/

/-- The block whose thermal model is seeded at the next round. -/
def Block.seedAsked (b : Block) : Block := { b with heat.seedDue := true }

theorem Block.seedAsked_kept (b : Block) : Kept [.heat] b b.seedAsked := by
  apply (Kept.refl _ b).of_fields (heat := .inr (List.mem_singleton.2 rfl)) <;> exact .inl rfl

theorem exec_reseed_upd (p : Path) (s : State) : exec (.reseed p) s = s.upd (·.writeBits p Off.htCtrl 0x100) := rfl

theorem Block.csrWrite_htCtrl (b : Block) (p : Path) (v : Word) : b.csrWrite p Off.htCtrl v = b.writeHtCtrl v := rfl

theorem regAt_htCtrl : (regAt Off.htCtrl).map (fun r => (r.rw, r.rwl, r.w1c, r.rc, r.banked)) = some (0x1701F, 0, 0, 0, false) := rfl

theorem Block.writeHtCtrl_seeds (b : Block) {v : Word} (seeds : v.getLsbD 8 = true) : b.writeHtCtrl v
    = b.seedAsked.putReg Off.htCtrl (keepUnless (decide (8 ≤ bitsAt v 0 5)) (b.reg Off.htCtrl) v 0 5) := by
  unfold Block.writeHtCtrl
  rw [if_pos seeds, ← Block.seedAsked]
  rfl

/-- RESEED writes the fields of HT_CTRL at their present values. -/
theorem Block.writeBits_reseed {b : Block} {p : Path} (serves : b.serves p = true) :
    b.writeBits p Off.htCtrl 0x100 = b.seedAsked.setReg Off.htCtrl (b.reg Off.htCtrl) := by
  rw [Block.writeBits, Block.writeOn_served _ _ serves, Block.csrWrite_htCtrl, Block.stored_of_regAt regAt_htCtrl]
  have seeds : (b.reg Off.htCtrl &&& 0x1701F ||| 0x100).getLsbD 8 = true := by simp
  have guard_ : bitsAt (b.reg Off.htCtrl) 0 5 = bitsAt (b.reg Off.htCtrl &&& 0x1701F ||| 0x100) 0 5 := (bitsAt_or_and (by decide) (by decide)).symm
  rw [Block.writeHtCtrl_seeds b seeds, keepUnless_self guard_]
  exact Block.putReg_stored_same (b := b.seedAsked) _ regAt_htCtrl (or_and_mask (by decide))

theorem reseed_seeds (serves : s.blk.serves p = true) :
    Does (.reseed p) s [.heat, .reg Off.htCtrl] fun b => b.heat = { s.blk.heat with seedDue := true } ∧ b.reg Off.htCtrl = s.blk.reg Off.htCtrl :=
  does_upd_eq (exec_reseed_upd p s) (Block.writeBits_reseed serves)
    (Kept.step (Kept.setReg ..) (Within.of rfl) (s.blk.seedAsked_kept.mono (Within.of rfl))) ⟨rfl, Block.reg_setReg_same ..⟩

theorem exec_reseed_unserved (h : s.blk.serves p = false) : exec (.reseed p) s = .next s :=
  exec_upd_same (exec_reseed_upd p s) (Block.writeOn_unserved _ _ h)

end

/-! ### SNAP (R429, R432) -/

section
variable {b : Block} {s : State} {p : Path} {d : DumpParams}

theorem exec_snap_upd (p : Path) (s : State) : exec (.snap p) s = s.upd (·.writeOn p Off.tlCtrl 2) := rfl

theorem Block.csrWrite_snap (p : Path) (on : b.domOn tlDom = true) : b.csrWrite p Off.tlCtrl 2 = b.snap :=
  if_neg (not_not.mpr on)

theorem snap_rejected (serves : s.blk.serves p = true) (on : s.blk.domOn tlDom = true) (off : s.blk.tl.mode = 0) :
    Does (.snap p) s [.reg Off.tlAlarm] fun b => b.reg Off.tlAlarm = s.blk.reg Off.tlAlarm ||| 8 :=
  does_upd_eq (exec_snap_upd p s) ((Block.writeOn_served _ _ serves).trans ((Block.csrWrite_snap p on).trans (if_pos off))) (Kept.setReg ..)
    (Block.reg_setReg_same ..)

/-- A table that lists a function at some keys. -/
theorem tget_map {α : Type} (d f : Nat → α) (ns : List Nat) (k : Nat) : tget d (ns.map fun n => (n, f n)) k = if k ∈ ns then f k else d k := by
  induction ns with
  | nil => rfl
  | cons n ns ih =>
    by_cases same : n = k
    · subst same; simp [tget]
    · simp [tget, ih, same, Ne.symm same]

theorem Block.takeShadows_shadow (b : Block) (n : Fin 69) : tget (fun _ => {}) b.takeShadows.tl.shadows n = b.shadowNow n :=
  (tget_map ..).trans (if_pos (List.mem_range.mpr n.isLt))

/-- The snapshot formed and placed, before its granules wait at their channels. -/
def Block.snapshotFormed (b : Block) (d : DumpParams) : Block :=
  let b := ({ b with tl.strobe := b.ck.tide } : Block).takeShadows
  let n := DumpParams.size d
  let at_ := if b.tl.pos + n ≤ d.ringBytes.toNat then b.tl.pos else 0
  { b with
    tl.image := b.snapshotBytes d, tl.imageAt := d.ringAddr.toNat + at_, tl.imageRemote := d.mode == 2
    tl.pos := at_ + n, tl.seqNext := b.tl.seqNext + 1, tl.skips := 0, tl.busy := true }

theorem Block.beginSnapshot_eq (b : Block) (d : DumpParams) : b.beginSnapshot d = (b.snapshotFormed d).queueDump := rfl

/-- A channel that a local image waits at. -/
def Block.dumpWaits (b : Block) (n : Nat) : Block :=
  let b := b.modChan n fun x => { x with dumpMark := b.slotsGone x }
  if b.inSvc n then b.wakeChan n else b

theorem Block.dumpWaits_tl (b : Block) (n : Nat) : (b.dumpWaits n).tl = b.tl := by
  have marked (f : Chan → Chan) : (b.modChan n f).tl = b.tl := (b.modChan_kept n f).out .tl (by simp [Piece.among])
  unfold Block.dumpWaits
  dsimp only
  split
  · exact ((Block.wakeChan_kept ..).out .tl (by simp [Piece.among])).trans (marked _)
  · exact marked _

theorem Block.queueDump_tl (b : Block) : ∃ left, b.queueDump.tl = { b.tl with left := left } := by
  unfold Block.queueDump
  split
  · exact ⟨b.tl.left, rfl⟩
  · exact ⟨b.tl.imageGranules, Block.each_keeps (·.tl) Block.dumpWaits Block.dumpWaits_tl ..⟩

theorem Block.snap_begins (runs : b.dumpRuns = true) (on : b.tl.mode ≠ 0) (cfg : b.tl.cfg = some d) (local_ : d.mode = 1) (idle : b.tl.busy = false) :
    b.snap = b.beginSnapshot d := by
  simp [Block.snap, Block.strobe, on, runs, cfg, local_, idle]

theorem Block.dumpRuns_domOn (runs : b.dumpRuns = true) : b.domOn tlDom = true := by
  simp only [Block.dumpRuns, Bool.and_eq_true] at runs
  obtain ⟨⟨-, on⟩, -⟩ := runs
  exact on

theorem snap_strobes (serves : s.blk.serves p = true) (runs : s.blk.dumpRuns = true) (on : s.blk.tl.mode ≠ 0) (cfg : s.blk.tl.cfg = some d)
    (local_ : d.mode = 1) (idle : s.blk.tl.busy = false) :
    Does (.snap p) s [.chans, .tl] fun b =>
      b.tl.busy = true ∧ b.tl.seqNext = s.blk.tl.seqNext + 1 ∧ b.tl.strobe = s.blk.ck.tide
        ∧ ∀ n : Fin 69, tget (fun _ => {}) b.tl.shadows n = s.blk.shadowNow n := by
  have made : s.blk.writeOn p Off.tlCtrl 2 = s.blk.beginSnapshot d := by
    rw [Block.writeOn_served _ _ serves, Block.csrWrite_snap p (Block.dumpRuns_domOn runs), Block.snap_begins runs on cfg local_ idle]
  refine does_upd_eq (exec_snap_upd p s) made (s.blk.beginSnapshot_kept d) ?_
  obtain ⟨left, queued⟩ := (s.blk.snapshotFormed d).queueDump_tl
  rw [Block.beginSnapshot_eq, queued]
  exact ⟨rfl, rfl, rfl, fun n => Block.takeShadows_shadow _ n⟩

theorem exec_snap_unserved (h : s.blk.serves p = false) : exec (.snap p) s = .next s :=
  exec_upd_same (exec_snap_upd p s) (Block.writeOn_unserved _ _ h)

end

/-! ### One selector (R426, R427) -/

section
variable {b : Block} {blk i sel : Nat}

/-- The word of TL_EVSEL with the selector in its half. -/
def evselWord (old : Word) (i sel : Nat) : Word :=
  BitVec.ofNat 32 (old.toNat - old.toNat / 2 ^ (16 * (i % 2)) % 2 ^ 16 * 2 ^ (16 * (i % 2)) + sel % 2 ^ 16 * 2 ^ (16 * (i % 2)))

theorem evselWord_half (old : Word) (i sel h : Nat) (half : h < 2) :
    (evselWord old i sel).toNat / 2 ^ (16 * h) % 2 ^ 16 = if h = i % 2 then sel % 2 ^ 16 else old.toNat / 2 ^ (16 * h) % 2 ^ 16 := by
  have word := old.isLt
  rw [evselWord, BitVec.toNat_ofNat]
  obtain e | e : i % 2 = 0 ∨ i % 2 = 1 := by omega
  all_goals
    obtain rfl | rfl : h = 0 ∨ h = 1 := by omega
    all_goals simp [e]; omega

/-- The counter and OVF bit that a selector written sets to 0. -/
def Block.tallyZeroed (b : Block) (blk i : Nat) : Block :=
  (b.setTallyBlk blk { b.tallyBlk blk with cnt := tset (fun _ => 0) (b.tallyBlk blk).cnt i 0 }).clrReg (tlOff Off.tlOvf blk) (BitVec.ofNat 32 (2 ^ i))

theorem Block.writeSelector_on (on : b.domOn (tallyDom blk) = true) : b.writeSelector blk i sel
    = (b.setReg (tlOff Off.tlEvsel blk + 4 * (i / 2)) (evselWord (b.reg (tlOff Off.tlEvsel blk + 4 * (i / 2))) i sel)).tallyZeroed blk i :=
  if_neg (not_not.mpr on)

theorem tlEvsel_ne_tlOvf (blk j : Nat) (inner : j < 4) (other : Nat) : tlOff Off.tlEvsel blk + 4 * j ≠ tlOff Off.tlOvf other := by
  simp only [tlOff, Off.tlEvsel, Off.tlOvf]
  omega

theorem Block.tallyZeroed_kept (b : Block) (blk i : Nat) : Kept [.tl, .reg (tlOff Off.tlOvf blk)] b (b.tallyZeroed blk i) :=
  Kept.step (Block.clrReg_kept ..) (Within.of_subset (by simp)) ((Block.setTallyBlk_kept ..).mono (Within.of_subset (by simp)))

theorem Block.writeSelector_frame (b : Block) (blk i sel : Nat) :
    Kept [.tl, .reg (tlOff Off.tlEvsel blk + 4 * (i / 2)), .reg (tlOff Off.tlOvf blk)] b (b.writeSelector blk i sel) := by
  cases on : b.domOn (tallyDom blk)
  case false => rw [Block.writeSelector, if_pos (by simp [on])]; exact Kept.refl ..
  case true =>
    rw [Block.writeSelector_on on]
    exact Kept.step (Block.tallyZeroed_kept ..) (Within.of_subset (by simp)) ((Kept.setReg ..).mono (Within.of_subset (by simp)))

theorem Block.tallyZeroed_reg (b : Block) (blk i : Nat) {o : Nat} (h : o ≠ tlOff Off.tlOvf blk) : (b.tallyZeroed blk i).reg o = b.reg o :=
  Block.reg_setReg_other _ _ h

theorem Block.writeSelector_selector (on : b.domOn (tallyDom blk) = true) (k : Nat) (inner : k < 8) :
    (b.writeSelector blk i sel).selector blk k = if k = i then sel % 2 ^ 16 else b.selector blk k := by
  have word : (b.writeSelector blk i sel).reg (tlOff Off.tlEvsel blk + 4 * (k / 2))
      = if k / 2 = i / 2 then evselWord (b.reg (tlOff Off.tlEvsel blk + 4 * (k / 2))) i sel else b.reg (tlOff Off.tlEvsel blk + 4 * (k / 2)) := by
    rw [Block.writeSelector_on on, Block.tallyZeroed_reg _ _ _ (tlEvsel_ne_tlOvf blk _ (by omega) blk)]
    split
    case isTrue same => rw [same, Block.reg_setReg_same]
    case isFalse other => exact Block.reg_setReg_other _ _ (by omega)
  rw [Block.selector, Block.regField, word]
  by_cases pair : k / 2 = i / 2
  · rw [if_pos pair, evselWord_half _ _ _ _ (Nat.mod_lt _ (by decide))]
    have same : k % 2 = i % 2 ↔ k = i := by omega
    simp only [same]
    rfl
  · rw [if_neg pair, if_neg fun same => pair (by rw [same])]
    rfl

theorem Block.writeSelector_tally (on : b.domOn (tallyDom blk) = true) :
    (b.writeSelector blk i sel).tallyBlk blk = { b.tallyBlk blk with cnt := tset (fun _ => 0) (b.tallyBlk blk).cnt i 0 } := by
  rw [Block.writeSelector_on on]
  exact tget_tset_same ..

theorem Block.writeSelector_cnt (on : b.domOn (tallyDom blk) = true) (k : Nat) : tget (fun _ => 0) ((b.writeSelector blk i sel).tallyBlk blk).cnt k
    = if i = k then 0 else tget (fun _ => 0) (b.tallyBlk blk).cnt k := by
  rw [Block.writeSelector_tally on, tget_tset]

theorem Block.writeSelector_ovf (on : b.domOn (tallyDom blk) = true) (low : i < 8) (k : Nat) :
    (b.writeSelector blk i sel).regBit (tlOff Off.tlOvf blk) k = if i = k then false else b.regBit (tlOff Off.tlOvf blk) k := by
  have apart : tlOff Off.tlOvf blk ≠ tlOff Off.tlEvsel blk + 4 * (i / 2) := (tlEvsel_ne_tlOvf blk _ (by omega) blk).symm
  have word : (b.writeSelector blk i sel).reg (tlOff Off.tlOvf blk) = b.reg (tlOff Off.tlOvf blk) &&& ~~~ BitVec.ofNat 32 (2 ^ i) := by
    rw [Block.writeSelector_on on, Block.tallyZeroed, Block.clrReg, Block.reg_setReg_same]
    exact congrArg (· &&& _) (Block.reg_setReg_other b _ apart)
  rw [Block.regBit, word, BitVec.getLsbD_and, BitVec.getLsbD_not, BitVec.getLsbD_ofNat, Nat.testBit_two_pow, Block.regBit]
  by_cases inside : k < 32
  · by_cases same : i = k <;> simp [inside, same]
  · rw [BitVec.getLsbD_of_ge _ _ (Nat.not_lt.mp inside), Bool.false_and, ite_self]

theorem Block.writeSelector_domOn (b : Block) (blk i sel n : Nat) : (b.writeSelector blk i sel).domOn n = b.domOn n :=
  congrArg (·.st == .on) ((b.writeSelector_frame blk i sel).out (.dom n) (by simp [Piece.among]))

end

/-! ### TL_EVSEL_WRITE -/

section
variable {b : Block} {s : State} {p : Path} {blk : Fin 69} {j : Fin 4} {v : Word}

/-- One half of a written word: a legal selector is written. -/
def Block.writeHalf (b : Block) (blk j : Nat) (v : Word) (k : Nat) : Block :=
  if selectorOk blk (bitsAt v (16 * k) 16) then b.writeSelector blk (2 * j + k) (bitsAt v (16 * k) 16) else b

theorem Block.writeEvsel_eq (b : Block) (blk j : Nat) (v : Word) : b.writeEvsel blk j v = (b.writeHalf blk j v 0).writeHalf blk j v 1 := rfl

theorem Block.writeHalf_legal {blk j k : Nat} (legal : selectorOk blk (bitsAt v (16 * k) 16) = true) :
    b.writeHalf blk j v k = b.writeSelector blk (2 * j + k) (bitsAt v (16 * k) 16) := if_pos legal

theorem Block.writeHalf_illegal {blk j k : Nat} (illegal : selectorOk blk (bitsAt v (16 * k) 16) = false) : b.writeHalf blk j v k = b :=
  if_neg (Bool.not_eq_true _ ▸ illegal)

theorem Block.writeEvsel_both {blk j : Nat} (lower : selectorOk blk (bitsAt v 0 16) = true) (upper : selectorOk blk (bitsAt v 16 16) = true) :
    b.writeEvsel blk j v = (b.writeSelector blk (2 * j) (bitsAt v 0 16)).writeSelector blk (2 * j + 1) (bitsAt v 16 16) := by
  have first : b.writeHalf blk j v 0 = b.writeSelector blk (2 * j) (bitsAt v 0 16) := Block.writeHalf_legal (k := 0) lower
  rw [Block.writeEvsel_eq, first, Block.writeHalf_legal (k := 1) upper]

theorem Block.writeEvsel_neither {blk j : Nat} (lower : selectorOk blk (bitsAt v 0 16) = false) (upper : selectorOk blk (bitsAt v 16 16) = false) :
    b.writeEvsel blk j v = b := by
  rw [Block.writeEvsel_eq, Block.writeHalf_illegal (k := 0) lower, Block.writeHalf_illegal (k := 1) upper]

theorem Block.writeEvsel_one {blk j : Nat} (k : Fin 2) (legal : selectorOk blk (bitsAt v (16 * k) 16) = true)
    (illegal : selectorOk blk (bitsAt v (16 * (1 - k.val)) 16) = false) :
    b.writeEvsel blk j v = b.writeSelector blk (2 * j + k) (bitsAt v (16 * k) 16) := by
  rw [Block.writeEvsel_eq]
  match k with
  | 0 =>
    rw [Block.writeHalf_illegal (k := 1) illegal]
    exact Block.writeHalf_legal (k := 0) legal
  | 1 =>
    rw [Block.writeHalf_illegal (k := 0) illegal]
    exact Block.writeHalf_legal (k := 1) legal

theorem exec_tlEvselWrite_upd (p : Path) (blk : Fin 69) (j : Fin 4) (v : Word) (s : State) :
    exec (.tlEvselWrite p blk j v) s = s.upd (·.writeOn p (tlOff Off.tlEvsel blk + 4 * j) v) := rfl

theorem holder_tlEvsel : ∀ (blk : Fin 69) (j : Fin 4), holder (tlOff Off.tlEvsel blk + 4 * j) = some (tallyDom blk) := by decide

theorem Block.writeTL_evsel (b : Block) (p : Path) (blk : Fin 69) (j : Fin 4) (v : Word) :
    b.writeTL p (tlOff Off.tlEvsel blk + 4 * j) v = b.writeEvsel blk j v := by
  have outer := blk.isLt
  have inner := j.isLt
  have place : tlOff Off.tlEvsel blk + 4 * j = 0x1B1050 + 0x80 * blk.val + 4 * j.val := rfl
  have ctrl : tlOff Off.tlEvsel blk + 4 * j ≠ Off.tlCtrl := by simp only [place, Off.tlCtrl]; omega
  have sel : tlOff Off.tlEvsel blk + 4 * j ≠ Off.tlBwSel := by simp only [place, Off.tlBwSel]; omega
  have window : tlOff Off.tlEvsel blk + 4 * j ≠ Off.tlBwWindow := by simp only [place, Off.tlBwWindow]; omega
  have low : Off.tlCycLo ≤ tlOff Off.tlEvsel blk + 4 * j := by simp only [place, Off.tlCycLo]; omega
  have set : (tlOff Off.tlEvsel blk + 4 * j - Off.tlCycLo) / 0x80 = blk := by simp only [place, Off.tlCycLo]; omega
  have rel : (tlOff Off.tlEvsel blk + 4 * j) % 0x80 = 0x50 + 4 * j := by rw [place]; omega
  have inside : 0x50 ≤ 0x50 + 4 * j.val ∧ 0x50 + 4 * j.val < 0x60 := by omega
  have word : (0x50 + 4 * j.val - 0x50) / 4 = j := by omega
  simp only [Block.writeTL, ctrl, sel, window, low, set, rel, inside, word, outer, and_self, if_true, if_false]

theorem Block.csrWrite_tlEvsel (b : Block) (p : Path) (blk : Fin 69) (j : Fin 4) (v : Word) :
    b.csrWrite p (tlOff Off.tlEvsel blk + 4 * j) v = if ¬ b.domOn (tallyDom blk) then b else b.writeEvsel blk j v := by
  have aligned : (tlOff Off.tlEvsel blk + 4 * j) / 4 * 4 = tlOff Off.tlEvsel blk + 4 * j := by
    simp only [tlOff, Off.tlEvsel]; omega
  have page : (tlOff Off.tlEvsel blk + 4 * j) / 0x10000 = 0x1B := by
    simp only [tlOff, Off.tlEvsel]; omega
  simp only [Block.csrWrite, aligned, page, Block.reachable, holder_tlEvsel, Block.writeTL_evsel]

theorem Block.writeOn_tlEvsel (serves : b.serves p = true) (on : b.domOn (tallyDom blk) = true) :
    b.writeOn p (tlOff Off.tlEvsel blk + 4 * j) v = b.writeEvsel blk j v :=
  (Block.writeOn_served _ v serves).trans ((b.csrWrite_tlEvsel p blk j v).trans (if_neg (not_not.mpr on)))

/-- The selectors of a word are its halves. -/
theorem Block.reg_of_selectors {c : Block} {blk j : Nat} (lower : c.selector blk (2 * j) = bitsAt v 0 16)
    (upper : c.selector blk (2 * j + 1) = bitsAt v 16 16) : c.reg (tlOff Off.tlEvsel blk + 4 * j) = v := by
  have pair : 2 * j / 2 = j ∧ (2 * j + 1) / 2 = j ∧ 2 * j % 2 = 0 ∧ (2 * j + 1) % 2 = 1 := by omega
  obtain ⟨word, word', even, odd⟩ := pair
  rw [Block.selector, word, even, Block.regField, bitsAt] at lower
  rw [Block.selector, word', odd, Block.regField, bitsAt] at upper
  have old := (c.reg (tlOff Off.tlEvsel blk + 4 * j)).isLt
  have new := v.isLt
  exact BitVec.eq_of_toNat_eq (by omega)

theorem bitsAt_half (v : Word) (lo : Nat) : bitsAt v lo 16 % 2 ^ 16 = bitsAt v lo 16 := Nat.mod_mod ..

theorem tlEvselWrite_both (serves : s.blk.serves p = true) (on : s.blk.domOn (tallyDom blk) = true)
    (lower : selectorOk blk (bitsAt v 0 16) = true) (upper : selectorOk blk (bitsAt v 16 16) = true) :
    Does (.tlEvselWrite p blk j v) s [.tl, .reg (tlOff Off.tlEvsel blk + 4 * j), .reg (tlOff Off.tlOvf blk)] fun b =>
      b.reg (tlOff Off.tlEvsel blk + 4 * j) = v ∧ (b.tallyBlk blk).cyc = (s.blk.tallyBlk blk).cyc
        ∧ (∀ k : Fin 8, tget (fun _ => 0) (b.tallyBlk blk).cnt k = if k.val / 2 = j.val then 0 else tget (fun _ => 0) (s.blk.tallyBlk blk).cnt k)
        ∧ ∀ k : Fin 8, b.regBit (tlOff Off.tlOvf blk) k = (if k.val / 2 = j.val then false else s.blk.regBit (tlOff Off.tlOvf blk) k) := by
  have inner := j.isLt
  have first : (2 * j.val) / 2 = j := by omega
  have second : (2 * j.val + 1) / 2 = j := by omega
  have on' : (s.blk.writeSelector blk (2 * j) (bitsAt v 0 16)).domOn (tallyDom blk) = true := by rw [Block.writeSelector_domOn, on]
  have made : s.blk.writeOn p (tlOff Off.tlEvsel blk + 4 * j) v
      = (s.blk.writeSelector blk (2 * j) (bitsAt v 0 16)).writeSelector blk (2 * j + 1) (bitsAt v 16 16) :=
    (Block.writeOn_tlEvsel serves on).trans (Block.writeEvsel_both lower upper)
  have frame := s.blk.writeSelector_frame blk (2 * j) (bitsAt v 0 16)
  have frame' := (s.blk.writeSelector blk (2 * j) (bitsAt v 0 16)).writeSelector_frame blk (2 * j + 1) (bitsAt v 16 16)
  rw [first] at frame
  rw [second] at frame'
  refine does_upd_eq (exec_tlEvselWrite_upd p blk j v s) made (frame.trans frame') ⟨Block.reg_of_selectors ?_ ?_, ?_, fun k => ?_, fun k => ?_⟩
  · rw [Block.writeSelector_selector on' _ (by omega), if_neg (by omega), Block.writeSelector_selector on _ (by omega),
      if_pos rfl, bitsAt_half]
  · rw [Block.writeSelector_selector on' _ (by omega), if_pos rfl, bitsAt_half]
  · rw [Block.writeSelector_tally on', Block.writeSelector_tally on]
  · have pair : k.val / 2 = j.val ↔ 2 * j.val + 1 = k.val ∨ 2 * j.val = k.val := by omega
    simp only [Block.writeSelector_cnt on', Block.writeSelector_cnt on, pair, ite_or]
  · have pair : k.val / 2 = j.val ↔ 2 * j.val + 1 = k.val ∨ 2 * j.val = k.val := by omega
    simp only [Block.writeSelector_ovf on' (by omega : 2 * j.val + 1 < 8), Block.writeSelector_ovf on (by omega : 2 * j.val < 8), pair, ite_or]

theorem tlEvselWrite_one {k : Fin 2} (serves : s.blk.serves p = true) (on : s.blk.domOn (tallyDom blk) = true)
    (legal : selectorOk blk (bitsAt v (16 * k) 16) = true) (illegal : selectorOk blk (bitsAt v (16 * (1 - k.val)) 16) = false) :
    Does (.tlEvselWrite p blk j v) s [.tl, .reg (tlOff Off.tlEvsel blk + 4 * j), .reg (tlOff Off.tlOvf blk)] fun b =>
      b.selector blk (2 * j + k) = bitsAt v (16 * k) 16 ∧ b.selector blk (2 * j + (1 - k.val)) = s.blk.selector blk (2 * j + (1 - k.val))
        ∧ tget (fun _ => 0) (b.tallyBlk blk).cnt (2 * j + k) = 0 := by
  have inner := j.isLt
  have half := k.isLt
  have pair : (2 * j.val + k.val) / 2 = j := by omega
  have frame := s.blk.writeSelector_frame blk (2 * j + k) (bitsAt v (16 * k) 16)
  rw [pair] at frame
  refine does_upd_eq (exec_tlEvselWrite_upd p blk j v s) ((Block.writeOn_tlEvsel serves on).trans (Block.writeEvsel_one k legal illegal)) frame ⟨?_, ?_, ?_⟩
  · rw [Block.writeSelector_selector on _ (by omega), if_pos rfl, bitsAt_half]
  · rw [Block.writeSelector_selector on _ (by omega), if_neg (by omega)]
  · rw [Block.writeSelector_cnt on, if_pos rfl]

theorem exec_tlEvselWrite_idle (h : s.blk.serves p = false ∨ s.blk.domOn (tallyDom blk) = false
      ∨ (selectorOk blk (bitsAt v 0 16) = false ∧ selectorOk blk (bitsAt v 16 16) = false)) : exec (.tlEvselWrite p blk j v) s = .next s := by
  refine exec_upd_same (exec_tlEvselWrite_upd p blk j v s) ?_
  rcases h with unserved | off | ⟨lower, upper⟩
  · exact Block.writeOn_unserved _ v unserved
  · rw [Block.writeOn, Block.csrWrite_tlEvsel, if_pos (Bool.eq_false_iff.mp off), ite_self]
  · rw [Block.writeOn, Block.csrWrite_tlEvsel, Block.writeEvsel_neither lower upper, ite_self, ite_self]

end

/-- Settles O59: each row is a write of its register, and what that write does is the rule of its chapter. -/
theorem keyStoreAndControlWrites : Obligations.KeyStoreAndControlWrites :=
  ⟨fun _ _ _ _ => ksLoad_loads, fun _ _ _ _ => ksLoad_rejected, fun _ _ _ _ => ksErase_erases, fun _ _ _ _ => ksErase_rejected,
    fun _ _ => ksZeroize_empties, fun _ _ v => exec_ks_closed v, fun _ _ => memRst_resets, fun _ _ => exec_memRst_barred,
    fun _ _ => reseed_seeds, fun _ _ => snap_rejected, fun _ _ _ => snap_strobes, fun _ _ _ _ _ => tlEvselWrite_both,
    fun _ _ _ _ _ _ => tlEvselWrite_one, fun _ _ _ _ _ => exec_tlEvselWrite_idle,
    fun _ _ unserved => ⟨exec_reseed_unserved unserved, exec_snap_unserved unserved⟩⟩

end Sys2Proof.Machine
end

section
/-! SUPPORT. The stored symbols at reset (R303, R451), and the tick of an empty queue (R340). -/

namespace Sys2Proof.Machine

open Sys2Proof

/-- Settles O2: no symbol is listed. -/
theorem resetMemoryCanonical : Obligations.ResetMemoryCanonical := by
  have empty : Memory.wf ([] : List Host.Cell) = true := rfl
  exact empty

/-- Settles O7: what `Block.tick_shape` names is all that a tick changes. -/
theorem idleTickAdvancesTheTide : Obligations.IdleTickAdvancesTheTide := by
  intro s idle
  have made : step s = .next { s with blk := s.blk.tick } := by rw [step, idle]
  obtain ⟨chs, tl, csr, cnt, shape⟩ := s.blk.tick_shape
  exact ⟨_, made, idle, rfl, by rw [shape], by rw [shape], by rw [shape], by rw [shape], by rw [shape], by rw [shape], by rw [shape], by rw [shape]⟩

end Sys2Proof.Machine
end

section
/-! SUPPORT. A firmware COMMIT that goes on through a departure (R375). -/

namespace Sys2Proof.Machine

open Sys2Proof

/-- A pier in DEPARTURE that decided a firmware COMMIT before it left, of an image of which no byte has come. -/
def commitDeparting : State :=
  { State.reset with
    blk := { State.reset.blk with
      pw.st := .departure
      mf.running := [{ m := { ring := 0, seq := 0 }, opcode := BitVec.ofNat 16 Mop.fwUpdate, origin := {}, params := [2] }]
      mf.session := some { ring := 0, slotB := false, total := 257, at_ := 0 } } }

theorem commitDeparting_unaccepted : commitDeparting.blk.hmRuns = true ∧ commitDeparting.blk.accepts Mop.fwUpdate = false := by decide +kernel

/-- The COMMIT goes on and fails for its missing bytes. -/
theorem commitDeparting_fails :
    ∃ t, exec (.fwUpdateCommit { ring := 0, seq := 0 } 0) commitDeparting = .next t ∧ (t.blk.slot (slotKey 0 0)).status = 0x05 :=
  ⟨_, rfl, by decide +kernel⟩

/-- Refutes O49: a firmware COMMIT survives a departure (R375), whose table does not accept it, and ends with a status of its
own. -/
theorem not_manifestsFollowTheStateTable : ¬ Obligations.ManifestsFollowTheStateTable := by
  intro h
  obtain ⟨refuses, -⟩ := h
  obtain ⟨runs, unaccepted⟩ := commitDeparting_unaccepted
  obtain ⟨t, e, failed⟩ := commitDeparting_fails
  obtain ⟨t', e', -, -, -, -, -, refused, -⟩ := refuses commitDeparting (.fwUpdateCommit { ring := 0, seq := 0 } 0) _ _ rfl runs unaccepted
  rw [e] at e'
  cases e'
  have failed' : (t.blk.slot (slotKey 0 0)).status.toNat = 0x05 := by rw [failed]; rfl
  exact absurd (failed'.symm.trans refused) (by decide)

end Sys2Proof.Machine
end

section
/-! SUPPORT. A CLOCK_SWITCH of a manifest that has completed, and the last domain of arrival step 4 before a full survey (R373). -/

namespace Sys2Proof.Machine

open Sys2Proof

/-- A pier in HARBOUR on RC, whose slot for a CLOCK_SWITCH to the crystal holds the same manifest, completed with OK. -/
def switchOver : State :=
  { State.reset with
    blk := { State.reset.blk with
      pw.st := .harbour, ck.xtalOk := false, mf.slots := [(slotKey 0 0, { st := .done })] } }

theorem switchOver_mans : switchOver.blk.mans Mop.clockSwitch := ⟨rfl, rfl⟩

theorem switchOver_stays : exec (.clockSwitch { ring := 0, seq := 0 } 15 1 false) switchOver = .next switchOver := rfl

/-- Refutes O46: CLOCK_SWITCH of a manifest that has completed does nothing, so its slot keeps the status it has. -/
theorem not_clocksDomainsAndShutdown : ¬ Obligations.ClocksDomainsAndShutdown := by
  intro h
  obtain ⟨-, -, -, refuses, -⟩ := h
  obtain ⟨t, e, -, -, -, -, -, refused, -⟩ := refuses switchOver { ring := 0, seq := 0 } false switchOver_mans rfl
  rw [switchOver_stays] at e
  cases e
  exact absurd refused (by decide)

/-- A pier in arrival step 4 with a full survey to come: every domain is ON but the last, quad 0, which powers. -/
def lastDomain : State :=
  { State.reset with
    blk := { State.reset.blk with
      pw.st := .survey, pw.arr := .power, pw.surveyFull := true
      pw.doms := (quadDom 0, { st := .powering }) :: (List.range 47).map fun d => (d + 1, { st := .on }) } }

theorem lastDomain_ramps :
    (lastDomain.blk.dom 0).st = .powering ∧ lastDomain.blk.live = true ∧ lastDomain.blk.powerTurn 0 = true := by decide +kernel

/-- The staggered survey that then begins drains every domain of the first sixteen but HK and SV (R373). -/
theorem lastDomain_drains : ((lastDomain.blk.powerGood (0 : DomId)).dom (0 : DomId)).st = .draining := by decide +kernel

/-- Refutes O18: the last domain of arrival step 4 comes ON and leaves for OFF in the same step, where a full survey follows. -/
theorem not_domainsPowerAndDrain : ¬ Obligations.DomainsPowerAndDrain := by
  intro h
  obtain ⟨powers, -⟩ := h
  obtain ⟨powering, live, turn⟩ := lastDomain_ramps
  obtain ⟨t, e, -, -, on, -⟩ := powers lastDomain 0 powering live turn
  have made : exec (.powerGood 0) lastDomain = lastDomain.upd (·.powerGood (0 : DomId)) := rfl
  rw [blk_of_upd made e, lastDomain_drains] at on
  cases on

end Sys2Proof.Machine
end

section
/-! SUPPORT. Links that are down: what takes a side down, and what leaves it down. -/

namespace Sys2Proof.Machine

open Sys2Proof

/-- A lane that carries nothing: OFF or FAILED. -/
def Lane.dark (x : Lane) : Prop := x.st = .off ∨ x.st = .failed

/-- No segment that was down comes up, and no dark lane lights. -/
structure Block.Darker (b c : Block) : Prop where
  seg : ∀ sd, (b.side sd).seg = .down → (c.side sd).seg = .down
  lane : ∀ l, (b.lane l).dark → (c.lane l).dark

theorem Block.Darker.refl (b : Block) : b.Darker b := ⟨fun _ h => h, fun _ h => h⟩

theorem Block.Darker.trans {b c d : Block} (h : b.Darker c) (k : c.Darker d) : b.Darker d :=
  ⟨fun sd down => k.seg sd (h.seg sd down), fun l dark => k.lane l (h.lane l dark)⟩

theorem Block.Darker.foldl {α : Type} {f : Block → α → Block} (h : ∀ (b : Block) x, b.Darker (f b x)) (b : Block) (xs : List α) :
    b.Darker (xs.foldl f b) := by
  induction xs generalizing b with
  | nil => exact .refl b
  | cons x xs ih => exact (h b x).trans (ih _)

theorem Block.Darker.each {f : Block → Nat → Block} (h : ∀ (b : Block) n, b.Darker (f b n)) (b : Block) (ns : List Nat) :
    b.Darker (b.each ns f) := .foldl h b ns

theorem Block.Darker.ite {b c d : Block} {p : Prop} [Decidable p] (h : b.Darker c) (k : b.Darker d) : b.Darker (if p then c else d) := by
  split
  · exact h
  · exact k

/-- A computed test: the piece is no side and no lane. -/
def Piece.offLinks : Piece → Bool
  | .side _ | .sides | .lane _ | .lanes => false
  | _ => true

/-- What touches neither sides nor lanes. -/
theorem Kept.darker {ps : List Piece} {b c : Block} (h : Kept ps b c) (beside : ps.all Piece.offLinks = true) : b.Darker c := by
  have off {p : Piece} (held : p ∈ ps) : p.offLinks = true := List.all_eq_true.mp beside p held
  have sides (sd : Side) : ¬ (Piece.side sd).among ps := fun held => held.elim (fun k => Bool.false_ne_true (off k)) fun k => Bool.false_ne_true (off k)
  have lanes (l : Nat) : ¬ (Piece.lane l).among ps := fun held => held.elim (fun k => Bool.false_ne_true (off k)) fun k => Bool.false_ne_true (off k)
  exact ⟨fun sd down => (congrArg SideSt.seg (h.out (.side sd) (sides sd))).trans down,
    fun l dark => by rw [show c.lane l = b.lane l from h.out (.lane l) (lanes l)]; exact dark⟩

theorem Block.modSide_darker (b : Block) (sd : Side) {f : SideSt → SideSt} (h : ∀ x, x.seg = .down → (f x).seg = .down) :
    b.Darker (b.modSide sd f) := by
  refine ⟨fun k down => ?_, fun l dark => ?_⟩
  · rw [Block.side_modSide_ite]
    split
    case isTrue same => subst same; exact h _ down
    case isFalse => exact down
  · rw [Block.lane, Block.modSide_lanes]; exact dark

theorem Block.modLane_darker (b : Block) (n : Nat) {f : Lane → Lane} (h : ∀ x, x.dark → (f x).dark) : b.Darker (b.modLane n f) := by
  refine ⟨fun sd down => ?_, fun l dark => ?_⟩
  · cases sd <;> simpa [Block.side] using down
  · rw [Block.lane_modLane]
    split
    case isTrue same => subst same; exact h _ dark
    case isFalse => exact dark

theorem Lane.offUnlessFailed_dark (x : Lane) : x.offUnlessFailed.dark := by
  unfold Lane.offUnlessFailed
  split
  case isTrue failed => exact .inr failed
  case isFalse => exact .inl rfl

theorem Lane.domReset_dark (x : Lane) : x.domReset.dark := by
  unfold Lane.dark Lane.domReset
  split
  · exact .inr rfl
  · exact .inl rfl

/-! ### A side goes down (R136, R163) -/

theorem Block.winDiscard_darker (b : Block) (l : Nat) : b.Darker (b.winDiscard l) := (b.winDiscard_kept l).darker rfl

theorem Block.leaveRun_seg (b : Block) (sd : Side) (seg : SegState) : ((b.leaveRun sd seg).side sd).seg = seg := by
  rw [Block.leaveRun, Block.side_modSide]

theorem Block.endWindow_darker (b : Block) (sd : Side) : b.Darker (b.endWindow sd) := by
  unfold Block.endWindow
  split
  · exact .refl b
  · have closed := b.modSide_darker sd (f := fun x => { x with win := none }) fun _ h => h
    exact .ite (closed.trans (.each (fun c l => c.winDiscard_darker l) ..)) closed

theorem Block.leaveRun_darker (b : Block) (sd : Side) : b.Darker (b.leaveRun sd .down) :=
  (b.endWindow_darker sd).trans (Block.modSide_darker _ sd fun _ _ => rfl)

theorem Block.offLanes_darker (b : Block) (ls : List Nat) : b.Darker (b.each ls fun b l => b.modLane l Lane.offUnlessFailed) :=
  .each (fun c l => c.modLane_darker l fun x _ => x.offUnlessFailed_dark) ..

theorem Block.segDown_darker (b : Block) (sd : Side) : b.Darker (b.segDown sd) :=
  (b.leaveRun_darker sd).trans (Block.offLanes_darker ..)

theorem Block.offLanes_dark (b : Block) {ls : List Nat} {l : Nat} (listed : l ∈ ls) :
    ((b.each ls fun b l => b.modLane l Lane.offUnlessFailed).lane l).dark := by
  unfold Block.each
  induction ls generalizing b with
  | nil => cases listed
  | cons k ks ih =>
    rw [List.foldl_cons]
    by_cases first : l = k
    · subst first
      refine (Block.offLanes_darker _ ks).lane l ?_
      rw [Block.lane_modLane_same]
      exact Lane.offUnlessFailed_dark _
    · exact ih _ ((List.mem_cons.mp listed).resolve_left first)

theorem Block.segDown_seg (b : Block) (sd : Side) : ((b.segDown sd).side sd).seg = .down :=
  (Block.offLanes_darker ..).seg sd (b.leaveRun_seg sd .down)

theorem Block.segDown_lane (b : Block) {sd : Side} {l : Nat} (own : l ∈ sideLanes sd) : ((b.segDown sd).lane l).dark :=
  Block.offLanes_dark _ own

theorem Block.purgeSide_darker (b : Block) (sd : Side) : b.Darker (b.purgeSide sd) := (b.purgeSide_kept sd).darker rfl

theorem Block.dropSide_darker (b : Block) (sd : Side) : b.Darker (b.dropSide sd) := (b.segDown_darker sd).trans (Block.purgeSide_darker ..)

theorem Block.dropSide_seg (b : Block) (sd : Side) : ((b.dropSide sd).side sd).seg = .down :=
  (Block.purgeSide_darker ..).seg sd (b.segDown_seg sd)

theorem Block.dropSide_lane (b : Block) {sd : Side} {l : Nat} (own : l ∈ sideLanes sd) : ((b.dropSide sd).lane l).dark :=
  (Block.purgeSide_darker ..).lane l (b.segDown_lane own)

theorem mem_sideLanes {l : Nat} (h : l < 32) : l ∈ sideLanes .west ∨ l ∈ sideLanes .east := by
  have all : ∀ l : Fin 32, l.val ∈ sideLanes .west ∨ l.val ∈ sideLanes .east := by decide
  exact all ⟨l, h⟩

/-- Both sides are down, and every lane is dark. -/
structure Block.Unlinked (b : Block) : Prop where
  seg : ∀ sd, (b.side sd).seg = .down
  lane : ∀ l, l < 32 → (b.lane l).dark

theorem Block.Unlinked.west {b : Block} (h : b.Unlinked) : b.west.seg = .down := h.seg .west

theorem Block.Unlinked.east {b : Block} (h : b.Unlinked) : b.east.seg = .down := h.seg .east

theorem Block.Unlinked.keep {b c : Block} (h : b.Unlinked) (k : b.Darker c) : c.Unlinked :=
  ⟨fun sd => k.seg sd (h.seg sd), fun l low => k.lane l (h.lane l low)⟩

theorem Block.clearFws_darker (b : Block) : b.Darker b.clearFws := ⟨fun sd h => by cases sd <;> exact h, fun _ h => h⟩

theorem Block.dropSides_unlinked (b : Block) : ((b.dropSide .west).dropSide .east).Unlinked := by
  have east := Block.dropSide_darker (b.dropSide .west) .east
  refine ⟨fun sd => ?_, fun l low => ?_⟩
  · cases sd
    · exact east.seg .west (b.dropSide_seg .west)
    · exact Block.dropSide_seg _ .east
  · rcases mem_sideLanes low with own | own
    · exact east.lane l (b.dropSide_lane own)
    · exact Block.dropSide_lane _ own

theorem Block.dropLinks_unlinked (b : Block) : b.dropLinks.Unlinked := by
  rw [Block.dropLinks_eq]
  exact b.dropSides_unlinked.keep (Block.clearFws_darker _)

/-! ### A pier without requests -/

theorem Block.putIns_reqs (b : Block) (i : Ins) : (b.putIns i).qy.reqs = b.qy.reqs := by
  unfold Block.putIns
  split
  · rfl
  · split
    · exact (b.cplDiscard_kept _).qyOf (by simp [Piece.among]) (·.reqs)
    · rfl

theorem Block.wakeFences_idle {b : Block} (none_ : b.qy.reqs = []) : b.wakeFences = b := by rw [Block.wakeFences, none_]; rfl

theorem Block.copyNext_idle {b : Block} (none_ : b.qy.reqs = []) (c : CopyOut) : (b.copyNext c).qy.reqs = [] := by
  have keep {p : Prop} [Decidable p] {x y : Block} (hx : x.qy.reqs = []) (hy : y.qy.reqs = []) : (if p then x else y).qy.reqs = [] := by
    split <;> assumption
  unfold Block.copyNext
  dsimp only
  rw [Block.wakeFences_idle]
  all_goals exact keep (keep ((Block.putIns_reqs ..).trans (keep ((Block.putIns_reqs ..).trans none_) none_))
    (keep ((Block.putIns_reqs ..).trans none_) none_)) (keep ((Block.putIns_reqs ..).trans none_) none_)

theorem Block.copyFail_idle {b : Block} (none_ : b.qy.reqs = []) (c : CopyOut) : (b.copyFail c).qy.reqs = [] :=
  ((b.copyFail_kept c).qyOf (by simp [Piece.among]) (·.reqs)).trans none_

theorem Block.remEnds_idle {b : Block} (none_ : b.qy.reqs = []) (w : RemWrite) (e : RemEnd) : (b.remEnds w e).qy.reqs = [] := by
  unfold Block.remEnds
  dsimp only
  split
  case h_1 => exact none_
  case h_2 c _ =>
    cases e with
    | status v =>
      refine Block.copyNext_idle ?_ _
      split
      · exact none_
      · exact Block.copyFail_idle (by exact none_) c
    | missing => exact Block.copyNext_idle (Block.copyFail_idle (by exact none_) c) _
    | unsent v => exact Block.copyNext_idle (Block.copyFail_idle (by exact none_) c) _

/-- A flit that waited for a side out of RUN is discarded. -/
def Block.insLost (b : Block) (sd : Side) (i : Ins) : Block :=
  match i.remTag with
  | some t =>
    match b.qy.rems.find? fun w => w.tag == t with
    | some w => if w.dump then (b.remEnds w (.unsent St.timeout)).dumpFail else b.remEnds w (.unsent St.timeout)
    | none => b
  | none => if i.flit.kind = 2 then b.cplDiscard sd else b

/-- Nothing waits for a side any more, and nothing is buffered toward it. -/
def Block.towardEmptied (b : Block) (sd : Side) : Block :=
  ({ b with qy.ins := b.qy.ins.filter fun i => i.side != sd }).modFw (otherSide sd) fun w => { w with buf := [], standin := [] }

theorem Block.purgeSide_eq (b : Block) (sd : Side) : b.purgeSide sd =
    ((b.qy.ins.filter fun i => i.side == sd).foldl (·.insLost sd ·)
      ((b.towardEmptied sd).each (List.range ((b.fw (otherSide sd)).buf.countP fun f => !isIdleFlit f)) fun b _ =>
        b.dropFlit (otherSide sd))).wakeFences := by cases sd <;> rfl

theorem Block.insLost_idle {b : Block} (none_ : b.qy.reqs = []) (sd : Side) (i : Ins) : (b.insLost sd i).qy.reqs = [] := by
  unfold Block.insLost
  split
  · split
    · split
      · exact ((Block.dumpFail_kept _).qyOf (by simp [Piece.among]) (·.reqs)).trans (Block.remEnds_idle none_ _ _)
      · exact Block.remEnds_idle none_ _ _
    · exact none_
  · split
    · exact ((Block.cplDiscard_kept ..).qyOf (by simp [Piece.among]) (·.reqs)).trans none_
    · exact none_

theorem Block.purgeSide_idle {b : Block} (none_ : b.qy.reqs = []) (sd : Side) : (b.purgeSide sd).qy.reqs = [] := by
  have emptied : (b.towardEmptied sd).qy.reqs = [] := ((Block.modFw_kept ..).qyOf (by simp [Piece.among]) (·.reqs)).trans none_
  have dropped (ns : List Nat) : ((b.towardEmptied sd).each ns fun b _ => b.dropFlit (otherSide sd)).qy.reqs = [] :=
    (Block.each_keeps (·.qy.reqs) _ (fun c _ => (c.dropFlit_kept _).qyOf (by simp [Piece.among]) (·.reqs)) _ ns).trans emptied
  have lost (is : List Ins) (c : Block) (idle : c.qy.reqs = []) : (is.foldl (·.insLost sd ·) c).qy.reqs = [] :=
    List.foldlRecOn (motive := fun c : Block => c.qy.reqs = []) is _ idle fun c h i _ => Block.insLost_idle h sd i
  have idle := lost (b.qy.ins.filter fun i => i.side == sd) _ (dropped (List.range ((b.fw (otherSide sd)).buf.countP fun f => !isIdleFlit f)))
  rw [Block.purgeSide_eq, Block.wakeFences_idle idle]
  exact idle

theorem Block.segDown_reqs (b : Block) (sd : Side) : (b.segDown sd).qy.reqs = b.qy.reqs :=
  (b.segDown_kept sd).qyOf (by simp [Piece.among]) (·.reqs)

theorem Block.dropSide_idle {b : Block} (none_ : b.qy.reqs = []) (sd : Side) : (b.dropSide sd).qy.reqs = [] :=
  Block.purgeSide_idle ((b.segDown_reqs sd).trans none_) sd

theorem Block.clearFws_qy (b : Block) : b.clearFws.qy = b.qy := rfl

theorem Block.dropLinks_idle {b : Block} (none_ : b.qy.reqs = []) : b.dropLinks.qy.reqs = [] := by
  rw [Block.dropLinks_eq, Block.clearFws_qy]
  exact Block.dropSide_idle (Block.dropSide_idle none_ .west) .east

end Sys2Proof.Machine
end

section
/-! SUPPORT. FREEZE_N, TRST_N, SCAN_ENTER and the captured chains (R357 to R360, R416, R417). -/

namespace Sys2Proof.Machine

open Sys2Proof

/-- The quay without requests and what follows from them. -/
def Block.unrequested (b : Block) : Block :=
  { b with qy.claimed := [], qy.claimedAt := [], qy.reqs := [], qy.ins := [], qy.rems := [], qy.copies := [] }

theorem Block.abandonAll_eq (b : Block) : b.abandonAll = b.unrequested.clearPanic := by
  unfold Block.abandonAll Block.unrequested
  rfl

theorem Block.unrequested_reqs (b : Block) : b.unrequested.qy.reqs = [] := rfl

theorem Block.abandonAll_reqs (b : Block) : b.abandonAll.qy.reqs = [] := by
  rw [Block.abandonAll_eq, (Block.clearPanic_kept b.unrequested).qyOf (by simp [Piece.among]) (·.reqs), Block.unrequested_reqs]

/-- Both segments down under FREEZE_N, requests abandoned, DMAN low. -/
def Block.halted (b : Block) : Block := ((b.abandonAll.segDown .west).segDown .east).dmanLow

theorem Block.halted_kept (b : Block) : Kept [.chans, .chs, .cnt, .ins, .lanes, .qy, .regs, .sides, .stk] b b.halted :=
  Block.dmanLow_keeps (Within.of rfl) (Block.segDown_keeps (Within.of rfl) (Block.segDown_keeps (Within.of rfl)
    (b.abandonAll_kept.mono (Within.of rfl))))

theorem Block.halted_seg (b : Block) (sd : Side) : (b.halted.side sd).seg = .down := by
  have dman := (Block.dmanLow_kept ((b.abandonAll.segDown .west).segDown .east)).darker rfl
  have east := Block.segDown_darker (b.abandonAll.segDown .west) .east
  cases sd
  · exact dman.seg .west (east.seg .west (Block.segDown_seg _ .west))
  · exact dman.seg .east (Block.segDown_seg _ .east)

theorem Block.halted_reqs (b : Block) : b.halted.qy.reqs = [] := by
  rw [Block.halted, (Block.dmanLow_kept _).qyOf (by simp [Piece.among]) (·.reqs), (Block.segDown_kept ..).qyOf (by simp [Piece.among]) (·.reqs),
    (Block.segDown_kept ..).qyOf (by simp [Piece.among]) (·.reqs), Block.abandonAll_reqs]

theorem Block.halted_dman (b : Block) : b.halted.stk.dman = true := by rw [Block.halted, Block.dmanLow_dman]

/-- What FREEZE_N leaves of a pier that has halted. -/
def Block.frozen (b : Block) : Block :=
  { b.draw with pw.st := .frozen, pw.heldInReset := false, lg.writing := none, ck.root := { b.ck.root with attempt := false }
                ck.west := { b.ck.west with attempt := false }, ck.east := { b.ck.east with attempt := false } }

theorem Block.freeze_running {b : Block} (awake : b.pw.st ≠ .dark) (runs : b.pw.st ≠ .frozen) (scan : b.sv.inScan = false) :
    b.freeze = b.halted.frozen := by
  unfold Block.freeze Block.frozen Block.halted
  exact if_neg (by simp [awake, runs, scan])

theorem freezeNFall_freezes {s : State} (awake : s.blk.pw.st ≠ .dark) (runs : s.blk.pw.st ≠ .frozen) (scan : s.blk.sv.inScan = false) :
    Does .freezeNFall s [.chans, .chs, .ck, .cnt, .fresh, .ins, .lanes, .lg, .pw, .qy, .regs, .sides, .stk] fun b =>
      b.pw.st = .frozen ∧ b.stk.dman = true ∧ b.west.seg = .down ∧ b.east.seg = .down ∧ b.qy.reqs = [] ∧ b.fwWE.buf = s.blk.fwWE.buf ∧ b.fwEW.buf = s.blk.fwEW.buf
        ∧ b.ck.tide = s.blk.ck.tide ∧ b.keys = s.blk.keys ∧ b.lg.trips = s.blk.lg.trips ∧ b.lg.charts = s.blk.lg.charts := by
  have kept := s.blk.halted_kept
  have west := s.blk.halted_seg .west
  have east := s.blk.halted_seg .east
  have dman := s.blk.halted_dman
  have reqs := s.blk.halted_reqs
  obtain ⟨we, ew⟩ : s.blk.halted.fwWE = s.blk.fwWE ∧ s.blk.halted.fwEW = s.blk.fwEW := kept.out .fws (by simp [Piece.among])
  obtain ⟨trips, -, charts, -⟩ := kept.out .lg (by simp [Piece.among])
  refine does_framed (f := Block.freeze) rfl (execFreezeNFall_kept ·) (Within.of rfl) ?_
  rw [Block.freeze_running awake runs scan]
  generalize s.blk.halted = c at *
  exact ⟨rfl, dman, west, east, reqs, congrArg (·.buf) we, congrArg (·.buf) ew, kept.out .tide (by simp [Piece.among]),
    kept.out .keys (by simp [Piece.among]), trips, charts⟩

theorem trstNLow_clears {s : State} (awake : s.blk.pw.st ≠ .dark) :
    Does .trstNLow s [.jtagDr, .frzOut] fun b => b.jtagDr = 0 ∧ b.frzOut = [] := by
  refine does_framed (f := fun b => if b.pw.st = .dark then b else { b with jtagDr := 0, frzOut := [] }) rfl (execTrstNLow_kept ·) (Within.of rfl) ?_
  rw [if_neg awake]
  exact ⟨rfl, rfl⟩

/-- Settles O12: the frozen pier has halted, and TRST_N reaches the TAP's registers alone. -/
theorem freezeAndTrst : Obligations.FreezeAndTrst :=
  ⟨fun _ awake runs scan => freezeNFall_freezes awake runs scan, fun _ awake => trstNLow_clears awake⟩

/-! ### Scan test -/

/-- The pier that scan test stops, before the scan logic's own state. -/
def Block.stopped (b : Block) : Block := b.abandonAll.dropLinks.dmanLow

/-- Scan test's own state: keys zeroized, the logbook disabled. -/
def Block.scanned (b : Block) : Block :=
  { b with keys := {}, lg.writing := none, sv.logDisabled := true, sv.inScan := true, sv.scanEntered := false, sv.zeroOk := false
           sv.run := none }

theorem Block.scanEnter_awake {b : Block} (awake : b.pw.st ≠ .dark) (scan : b.sv.inScan = false) : b.scanEnter true = b.stopped.scanned := by
  unfold Block.scanEnter Block.scanned Block.stopped
  exact if_neg (by simp [awake, scan])

theorem Block.scanEnter_idle {b : Block} {t : Bool} (h : t = false ∨ b.pw.st = .dark ∨ b.sv.inScan = true) : b.scanEnter t = b :=
  if_pos (by simpa using h)

theorem Block.stopped_unlinked (b : Block) : b.stopped.Unlinked :=
  (Block.dropLinks_unlinked _).keep ((Block.dmanLow_kept _).darker rfl)

theorem Block.stopped_pw (b : Block) : b.stopped.pw = b.pw := by
  rw [Block.stopped, (Block.dmanLow_kept _).pwEq (by simp [Piece.among]) (by simp [Piece.among]),
    (Block.dropLinks_kept _).pwEq (by simp [Piece.among]) (by simp [Piece.among]),
    (Block.abandonAll_kept _).pwEq (by simp [Piece.among]) (by simp [Piece.among])]

theorem Block.stopped_dman (b : Block) : b.stopped.stk.dman = true := by rw [Block.stopped, Block.dmanLow_dman]

theorem Block.stopped_reqs (b : Block) : b.stopped.qy.reqs = [] := by
  rw [Block.stopped, (Block.dmanLow_kept _).qyOf (by simp [Piece.among]) (·.reqs), Block.dropLinks_idle (Block.abandonAll_reqs b)]

theorem Block.scanned_live (b : Block) : b.scanned.live = false := by simp [Block.live, Block.scanned]

theorem scanEnter_stops {s : State} (awake : s.blk.pw.st ≠ .dark) (scan : s.blk.sv.inScan = false) :
    Does (.scanEnter true) s [.chans, .chs, .cnt, .events, .fws, .ins, .keys, .lanes, .lg, .qy, .regs, .sides, .stk, .sv, .tl] fun b =>
      b.keys = {} ∧ b.sv.inScan = true ∧ b.sv.logDisabled = true ∧ b.sv.zeroOk = false ∧ b.live = false ∧ b.qy.reqs = [] ∧ b.stk.dman = true
        ∧ b.west.seg = .down ∧ b.east.seg = .down ∧ b.pw = s.blk.pw := by
  have unlinked := s.blk.stopped_unlinked
  have reqs := s.blk.stopped_reqs
  have dman := s.blk.stopped_dman
  have pw := s.blk.stopped_pw
  refine does_framed (f := (·.scanEnter true)) rfl (execScanEnter_kept true ·) (Within.of rfl) ?_
  rw [Block.scanEnter_awake awake scan]
  generalize s.blk.stopped = c at *
  exact ⟨rfl, rfl, rfl, rfl, c.scanned_live, reqs, dman, unlinked.west, unlinked.east, pw⟩

theorem exec_scanEnter_idle {s : State} {t : Bool} (h : t = false ∨ s.blk.pw.st = .dark ∨ s.blk.sv.inScan = true) :
    exec (.scanEnter t) s = .next s := exec_upd_same (f := (·.scanEnter t)) rfl (Block.scanEnter_idle h)

theorem zeroizeDone_notes {s : State} (scan : s.blk.sv.inScan = true) :
    Does (.zeroizeDone true) s [.sv] fun b => b.sv = { s.blk.sv with scanEntered := true, zeroOk := true } := by
  refine does_framed rfl (execZeroizeDone_kept true ·) (Within.of rfl) ?_
  rw [if_pos ⟨scan, rfl⟩]

/-! ### Captured chains -/

theorem bitsOf_length (n v : Nat) : (bitsOf n v).length = n := by simp [bitsOf]

theorem bitsOf_take {n k : Nat} (short : k ≤ n) (v : Nat) : (bitsOf n v).take k = bitsOf k v := by
  rw [bitsOf, bitsOf, ← List.map_take, List.take_range, Nat.min_eq_left short]

/-- The low bits of a sum do not see a multiple of their weight. -/
theorem bitsOf_low (v w : Nat) (n : Nat) : bitsOf n (v + w * 2 ^ n) = bitsOf n v := by
  refine List.map_congr_left fun i low => ?_
  have below : 2 ^ n = 2 ^ i * (2 * 2 ^ (n - i - 1)) := by
    have := List.mem_range.mp low
    rw [← Nat.pow_succ', ← Nat.pow_add]
    congr 1
    omega
  rw [below, ← Nat.mul_assoc, Nat.mul_comm w, Nat.mul_assoc, Nat.add_mul_div_left _ _ (by positivity),
    show w * (2 * 2 ^ (n - i - 1)) = 2 * (w * 2 ^ (n - i - 1)) by ring, Nat.add_mul_mod_self_left]

/-- How long the captured chain is. -/
def Block.chainBits (b : Block) (i : BitVec 16) : Nat :=
  if b.pw.st = .frozen ∧ ¬ b.sv.inScan ∧ chainExists i.toNat then Config.chainLength i % 2 ^ 32 else 0

/-- The chain's own bits. -/
def Block.chain (b : Block) (i : BitVec 16) : List Bool :=
  (List.range (b.chainBits i)).map fun k => !(b.heat.frozenTrip && i != 0) && Config.chainBit i b.fresh k

theorem Block.capture_out {b : Block} (i : BitVec 16) (awake : b.pw.st ≠ .dark) (rail : b.pins.railsLow.contains .io = false) :
    (b.capture i).frzOut = bitsOf 64 (i.toNat + b.chainBits i * 2 ^ 16) ++ b.chain i := by
  rw [Block.capture, if_neg (by simp only [awake, rail]; decide)]
  rfl

theorem Block.chainBits_thawed {b : Block} (i : BitVec 16) (h : b.pw.st ≠ .frozen) : b.chainBits i = 0 := if_neg fun k => h k.1

theorem frzCapture_shifts {s : State} {i : BitVec 16} (awake : s.blk.pw.st ≠ .dark) (rail : s.blk.pins.railsLow.contains .io = false) :
    Does (.frzCapture i) s [.frzOut] fun b =>
      b.frzOut.take 16 = bitsOf 16 i.toNat ∧ (s.blk.pw.st ≠ .frozen → b.frzOut = bitsOf 64 i.toNat)
        ∧ (s.blk.pw.st = .frozen → s.blk.sv.inScan = false → chainExists i.toNat = true → b.frzOut.length = 64 + Config.chainLength i % 2 ^ 32) := by
  refine does_framed (f := (·.capture i)) rfl (execFrzCapture_kept i ·) (Within.of rfl) ?_
  rw [Block.capture_out i awake rail]
  refine ⟨?_, fun thawed => ?_, fun frozen scan exists_ => ?_⟩
  · rw [List.take_append_of_le_length (by rw [bitsOf_length]; decide), bitsOf_take (by decide), bitsOf_low]
  · rw [Block.chain, Block.chainBits_thawed i thawed]
    simp
  · rw [List.length_append, bitsOf_length, Block.chain, List.length_map, List.length_range, Block.chainBits,
      if_pos ⟨frozen, by simp [scan], exists_⟩]

/-- Settles O22: a stopped pier under scan's own state, and the header's bits before the chain's. -/
theorem scanAndCapture : Obligations.ScanAndCapture :=
  ⟨fun _ => scanEnter_stops, fun _ _ => exec_scanEnter_idle, fun _ => exec_upd_same rfl (if_neg (by simp)), fun _ => zeroizeDone_notes,
    fun _ _ => frzCapture_shifts⟩

end Sys2Proof.Machine
end

section
/-! SUPPORT. Tables with every value changed. -/

namespace Sys2Proof.Machine

open Sys2Proof

section
variable {α : Type} [DecidableEq α] {d : Nat → α} {f : α → α} {P : α → Prop}

/-- What holds of an unlisted key's value and of every changed value holds of every key's. -/
theorem tget_tmap_of (unlisted : ∀ k, P (d k)) (changed : ∀ x, P (f x)) (t : Tbl α) (k : Nat) : P (tget d (tmap d t f) k) := by
  unfold tmap
  refine List.foldlRecOn (motive := fun acc => P (tget d acc k)) t _ (unlisted k) fun acc h e _ => ?_
  rw [tget_tset]
  split
  · exact changed _
  · exact h

theorem mem_tset {t : Tbl α} {k : Nat} {v : α} {e : Nat × α} (h : e ∈ tset d t k v) : e ∈ t ∨ e = (k, v) := by
  unfold tset at h
  split at h
  · exact .inl (List.mem_of_mem_filter h)
  · exact (mem_tput h).symm

/-- Every value listed in a changed table is a changed value. -/
theorem mem_tmap {t : Tbl α} {e : Nat × α} (h : e ∈ tmap d t f) : ∃ x, e.2 = f x := by
  revert h
  unfold tmap
  refine List.foldlRecOn (motive := fun acc : Tbl α => e ∈ acc → ∃ x, e.2 = f x) t _ (fun h => absurd h List.not_mem_nil) fun acc ih x _ h => ?_
  rcases mem_tset h with old | rfl
  · exact ih old
  · exact ⟨x.2, rfl⟩

end

end Sys2Proof.Machine
end

section
/-! SUPPORT. The warm reset (R354, R355, R453). -/

namespace Sys2Proof.Machine

open Sys2Proof

theorem Block.keepBits_regBit (b old : Block) (off : Nat) {m : Word} {i : Nat} (kept : m.getLsbD i = true) :
    (b.keepBits old off m).regBit off i = old.regBit off i := by
  simp [Block.regBit, Block.keepBits, kept]

theorem Block.keepBits_reg_other (b old : Block) {off o : Nat} (m : Word) (h : o ≠ off) : (b.keepBits old off m).reg o = b.reg o :=
  b.reg_setReg_other _ h

theorem Block.orReg_reg_other (b : Block) {off o : Nat} (m : Word) (h : o ≠ off) : (b.orReg off m).reg o = b.reg o :=
  b.reg_setReg_other _ h

theorem Block.regBit_congr {b c : Block} {o : Nat} (h : c.reg o = b.reg o) (i : Nat) : c.regBit o i = b.regBit o i := by
  rw [Block.regBit, h, Block.regBit]

/-- The register file that WRST_N leaves before the bits kept one by one. -/
theorem tget_filter_warmKept (t : Tbl Word) {o : Nat} (kept : warmKept o = true) :
    tget csrReset (t.filter fun e => warmKept e.1) o = tget csrReset t o := by
  have same := tget_filter_keys csrReset t (fun o => !warmKept o) o
  simpa [kept] using same

theorem Block.warmKeep_reg (b : Block) {o : Nat} (kept : warmKept o = true) (cause : o ≠ Off.ckResetCause) : b.warmKeep.reg o = b.reg o := by
  have apart {c : Nat} (h : warmKept c = false) : o ≠ c := fun same => by rw [same, h] at kept; cases kept
  unfold Block.warmKeep
  extract_lets clean banked
  rw [Block.orReg_reg_other _ _ cause, Block.keepBits_reg_other _ _ _ (apart rfl), Block.keepBits_reg_other _ _ _ (apart rfl),
    Block.keepBits_reg_other _ _ _ (apart rfl)]
  exact tget_filter_warmKept b.csr kept

theorem Block.warmKeep_bits (b : Block) :
    b.warmKeep.regBit Off.qyCtrl 1 = b.regBit Off.qyCtrl 1 ∧ b.warmKeep.regBit Off.mfCtrl 31 = b.regBit Off.mfCtrl 31
      ∧ b.warmKeep.regBit Off.ckResetCause 2 = true := by
  unfold Block.warmKeep
  extract_lets clean banked
  refine ⟨?_, ?_, ?_⟩
  · rw [Block.regBit_congr (Block.orReg_reg_other _ _ (by decide)), Block.regBit_congr (Block.keepBits_reg_other _ _ _ (by decide)),
      Block.keepBits_regBit _ _ _ (by decide)]
  · rw [Block.regBit_congr (Block.orReg_reg_other _ _ (by decide)), Block.regBit_congr (Block.keepBits_reg_other _ _ _ (by decide)),
      Block.regBit_congr (Block.keepBits_reg_other _ _ _ (by decide)), Block.keepBits_regBit _ _ _ (by decide)]
  · rw [Block.regBit_orReg, BitVec.getLsbD_or]
    simp

theorem Block.warmKeep_lane (b : Block) (l : Nat) : (b.warmKeep.lane l).st = .off :=
  tget_tmap_of (P := fun x : Lane => x.st = .off) (fun _ => rfl) (fun _ => rfl) b.lanes l

theorem Block.wrstFall_awake {b : Block} (awake : b.pw.st ≠ .dark) (scan : b.sv.inScan = false) (high : b.pins.wrstLow = false) :
    b.wrstFall = b.stackAtReset.warmKeep := by
  rw [Block.wrstFall, if_neg (by simp [high]), if_neg (by simp [awake, scan])]

/-- In DARK and in a scan test the level alone is noted, whatever it was. -/
theorem Block.wrstFall_noted {b : Block} (h : b.pw.st = .dark ∨ b.sv.inScan = true) : b.wrstFall = { b with pins.wrstLow := true } := by
  by_cases low : b.pins.wrstLow = true
  · rw [Block.wrstFall, if_pos low, ← low]
  · rw [Block.wrstFall, if_neg low, if_pos h]

/-- What a stack reset cut short loses lies in berths and stack alone. -/
theorem Block.stackAtReset_reg (b : Block) (o : Nat) : b.stackAtReset.reg o = b.reg o := b.stackAtReset_kept.out (.reg o) (by simp [Piece.among])

/-- Every register that the warm reset keeps, by its offset. -/
theorem warmKept_of {o : Nat} (h : o / 0x10000 = 1 ∨ (Off.qyRoute ≤ o ∧ o < 0x0D0000)) : warmKept o = true := by
  unfold warmKept
  rcases h with clocks | ⟨low, high⟩
  · simp [clocks]
  · have page : o / 0x10000 = 0x0C := by simp only [Off.qyRoute] at low; omega
    have table : 0x1000 ≤ o % 0x10000 := by simp only [Off.qyRoute] at low; omega
    simp [page, table]

theorem Block.warmReset_reg (b : Block) {o : Nat} (kept : o / 0x10000 = 1 ∨ (Off.qyRoute ≤ o ∧ o < 0x0D0000)) (cause : o ≠ Off.ckResetCause) :
    b.stackAtReset.warmKeep.reg o = b.reg o := by rw [Block.warmKeep_reg _ (warmKept_of kept) cause, Block.stackAtReset_reg]

theorem Block.stackAtReset_ck (b : Block) : b.stackAtReset.ck = b.ck :=
  b.stackAtReset_kept.ckEq (by simp [Piece.among]) (by simp [Piece.among])

theorem Block.warmKeep_states (b : Block) : b.warmKeep.pw.st = .arrival ∧ b.warmKeep.pw.heldInReset = true ∧ b.warmKeep.pins.wrstLow = true
    ∧ b.warmKeep.stk.dman = true ∧ b.warmKeep.mf.rings = [] ∧ b.warmKeep.mf.slots = [] ∧ b.warmKeep.qy.idValid = false ∧ b.warmKeep.qy.reqs = []
    ∧ b.warmKeep.chs = {} ∧ b.warmKeep.fwWE = {} ∧ b.warmKeep.fwEW = {} ∧ b.warmKeep.west.seg = .down ∧ b.warmKeep.east.seg = .down :=
  ⟨rfl, rfl, rfl, rfl, rfl, rfl, rfl, rfl, rfl, rfl, rfl, rfl, rfl⟩

theorem Block.warmKeep_stays (b : Block) : b.warmKeep.ck.tide = b.ck.tide ∧ b.warmKeep.keys.arrival = b.keys.arrival
    ∧ b.warmKeep.keys.region = b.keys.region ∧ b.warmKeep.keys.manifest = b.keys.manifest ∧ b.warmKeep.keys.wrap = b.keys.wrap
    ∧ b.warmKeep.lg.events = b.lg.events ∧ b.warmKeep.lg.trips = b.lg.trips ∧ b.warmKeep.lg.charts = b.lg.charts :=
  ⟨rfl, rfl, rfl, rfl, rfl, rfl, rfl, rfl⟩

theorem wrstNFall_resets {s : State} (awake : s.blk.pw.st ≠ .dark) (scan : s.blk.sv.inScan = false) (high : s.blk.pins.wrstLow = false) :
    Does .wrstNFall s (Piece.all.filter (· ∉ [.fresh, .jtagDr, .frzOut])) fun b =>
      b.pw.st = .arrival ∧ b.pw.heldInReset = true ∧ b.pins.wrstLow = true ∧ b.stk.dman = true ∧ b.mf.rings = [] ∧ b.mf.slots = []
        ∧ b.qy.idValid = false ∧ b.qy.reqs = [] ∧ b.chs = {} ∧ (∀ l, (b.lane l).st = .off) ∧ b.fwWE = {} ∧ b.fwEW = {} ∧ b.west.seg = .down ∧ b.east.seg = .down
        ∧ b.ck.tide = s.blk.ck.tide ∧ b.keys.arrival = s.blk.keys.arrival ∧ b.keys.region = s.blk.keys.region
        ∧ b.keys.manifest = s.blk.keys.manifest ∧ b.keys.wrap = s.blk.keys.wrap
        ∧ (∀ o, Off.qyRoute ≤ o → o < 0x0D0000 → b.reg o = s.blk.reg o) ∧ b.regBit Off.qyCtrl 1 = s.blk.regBit Off.qyCtrl 1
        ∧ b.regBit Off.mfCtrl 31 = s.blk.regBit Off.mfCtrl 31 ∧ (∀ o, o / 0x10000 = 1 → o ≠ Off.ckResetCause → b.reg o = s.blk.reg o)
        ∧ b.regBit Off.ckResetCause 2 = true
        ∧ b.lg.events = s.blk.lg.events ∧ b.lg.trips = s.blk.lg.trips ∧ b.lg.charts = s.blk.lg.charts := by
  have stack := s.blk.stackAtReset_kept
  have keys : s.blk.stackAtReset.keys = s.blk.keys := stack.out .keys (by simp [Piece.among])
  obtain ⟨events, -⟩ := stack.out .events (by simp [Piece.among])
  obtain ⟨trips, -, charts, -⟩ := stack.out .lg (by simp [Piece.among])
  have tide := congrArg Clocks.tide s.blk.stackAtReset_ck
  have ctrl (i : Nat) := Block.regBit_congr (s.blk.stackAtReset_reg Off.qyCtrl) i
  have lock (i : Nat) := Block.regBit_congr (s.blk.stackAtReset_reg Off.mfCtrl) i
  have reg (o : Nat) := s.blk.warmReset_reg (o := o)
  refine does_framed (f := Block.wrstFall) rfl (execWrstNFall_kept ·) (Within.of rfl) ?_
  rw [Block.wrstFall_awake awake scan high]
  generalize s.blk.stackAtReset = c at *
  obtain ⟨st, held, low, dman, rings, slots, idValid, reqs, chs, we, ew, west, east⟩ := c.warmKeep_states
  obtain ⟨tide', arrival, region, manifest, wrap, events', trips', charts'⟩ := c.warmKeep_stays
  obtain ⟨qyBit, mfBit, cause⟩ := c.warmKeep_bits
  exact ⟨st, held, low, dman, rings, slots, idValid, reqs, chs, c.warmKeep_lane, we, ew, west, east, tide'.trans tide, by rw [arrival, keys],
    by rw [region, keys], by rw [manifest, keys], by rw [wrap, keys],
    fun o low high => reg o (.inr ⟨low, high⟩) fun same => by rw [same] at low; exact absurd low (by decide), qyBit.trans (ctrl 1), mfBit.trans (lock 31),
    fun o page => reg o (.inl page), cause, events'.trans events, trips'.trans trips, charts'.trans charts⟩

/-- Settles O10: `warmKeep` says what stays, and a stack reset cut short adds berths and stack alone. -/
theorem warmResetKeepsAndClears : Obligations.WarmResetKeepsAndClears :=
  ⟨fun _ quiet => does_upd_eq (f := Block.wrstFall) rfl (Block.wrstFall_noted quiet) (Kept.pins ..) rfl, fun _ => wrstNFall_resets⟩

end Sys2Proof.Machine
end

section
/-! SUPPORT. PWR_REQ_N (R374, R375). -/

namespace Sys2Proof.Machine

open Sys2Proof

/-- A charter that departure closes. -/
def Charter.departing (x : Charter) : Charter := if x.st = ChState.free then x else { x with st := .closing }

theorem Charter.departing_st (x : Charter) : x.departing.st = .closing ∨ x.departing.st = .free := by
  unfold Charter.departing
  split
  case isTrue free => exact .inr free
  case isFalse => exact .inl rfl

/-- Every charter listed is CLOSING or FREE. -/
def Charters.closing (x : Charters) : Prop := ∀ e ∈ x.tab, e.2.st = .closing ∨ e.2.st = .free

/-- Departure's own first acts: phase 1 from now, a snapshot under way ended, every charter closing. -/
def Block.leaves (b : Block) (survey : Bool) (w : Option ManRef) : Block :=
  { b with
    pw.st := .departure, pw.depPhase := .quiesce, pw.depNoSurvey := !survey, pw.depWaiter := w, pw.depStart := b.ck.tide
    pw.depAbandoned := false, pw.depGroup := 0, pw.tripHold := false, tl.busy := false
    chs.tab := tmap (fun _ => {}) b.chs.tab Charter.departing }

/-- Work that departure cuts short, beside what waits. -/
def Block.cutShort (b : Block) : Block := (b.endScrub St.aborted).endRunning (fun r => !r.survives) St.aborted

/-- The directory write of a COMMIT is the one flash job that goes on (R375). -/
def FlashJob.survives : Option FlashJob → Option FlashJob
  | some (.directory m s v k) => some (.directory m s v k)
  | _ => none

/-- No reset of the stack and no RECOVER is under way, and the flash works for `job` alone. -/
def Block.onlyJob (b : Block) (job : Option FlashJob) : Block := { b with stk.rst := .none, ck.recover := none, mf.job := job }

/-- The last of departure's first acts. -/
def Block.letGo (b : Block) : Block := b.dropWaiters.onlyJob (FlashJob.survives b.mf.job)

theorem Block.startDeparture_eq (b : Block) (survey : Bool) (w : Option ManRef) : b.startDeparture survey w = (b.leaves survey w).cutShort.letGo := rfl

theorem Block.cutShort_kept (b : Block) : Kept [.chans, .ins, .prot, .running, .slots] b b.cutShort :=
  Block.endRunning_keeps (Within.of rfl) ((b.endScrub_kept _).mono (Within.of rfl))

/-- A charter that waits for nothing any more. -/
def Charter.unwaited (x : Charter) : Charter := if x.st = .free then x.freed else { x with waiter := none }

theorem Charter.unwaited_closing {x : Charter} (h : x.st = .closing ∨ x.st = .free) : x.unwaited.st = .closing ∨ x.unwaited.st = .free := by
  unfold Charter.unwaited
  split
  · exact .inr rfl
  · exact h

theorem Block.dropWaiters_tab (b : Block) (keep : Nat → Bool) :
    (b.dropWaiters keep).chs.tab = b.chs.tab.foldl (fun t e => tset (fun _ => {}) t e.1 e.2.unwaited) [] := by
  unfold Block.dropWaiters
  extract_lets west east doms lanes
  have sides : east.chs = b.chs := (Block.modSide_chs ..).trans (Block.modSide_chs ..)
  have same : lanes.chs = b.chs := (Block.each_keeps (·.chs) _ (fun c l => c.modLane_chs l _) doms _).trans
    ((Block.each_keeps (·.chs) _ (fun c d => c.modDom_chs d _) east _).trans sides)
  clear_value lanes
  rw [← same]
  rfl

/-- No charter that was CLOSING or FREE changes its state when what it waited for goes. -/
theorem Block.dropWaiters_closing {b : Block} (keep : Nat → Bool) (h : b.chs.closing) : (b.dropWaiters keep).chs.closing := by
  intro e listed
  rw [Block.dropWaiters_tab] at listed
  revert e
  refine List.foldlRecOn (motive := fun acc : Tbl Charter => ∀ e ∈ acc, e.2.st = .closing ∨ e.2.st = .free) b.chs.tab _
    (fun e h => absurd h List.not_mem_nil) fun acc ih x hx e listed => ?_
  rcases mem_tset listed with old | rfl
  · exact ih e old
  · exact Charter.unwaited_closing (h x hx)

section
variable (b : Block) (job : Option FlashJob)

theorem Block.onlyJob_chs : (b.onlyJob job).chs = b.chs := rfl

theorem Block.onlyJob_tl : (b.onlyJob job).tl = b.tl := rfl

theorem Block.onlyJob_pw : (b.onlyJob job).pw = b.pw := rfl

theorem Block.letGo_chs : b.letGo.chs = b.dropWaiters.chs := by rw [Block.letGo, Block.onlyJob_chs]

theorem Block.letGo_tl : b.letGo.tl = b.dropWaiters.tl := by rw [Block.letGo, Block.onlyJob_tl]

theorem Block.letGo_pw : b.letGo.pw = b.dropWaiters.pw := by rw [Block.letGo, Block.onlyJob_pw]

end

theorem Block.leaves_tab (b : Block) (survey : Bool) (w : Option ManRef) :
    (b.leaves survey w).chs.tab = tmap (fun _ => {}) b.chs.tab Charter.departing := rfl

theorem Block.leaves_closing (b : Block) (survey : Bool) (w : Option ManRef) : (b.leaves survey w).chs.closing := by
  intro e listed
  rw [Block.leaves_tab] at listed
  obtain ⟨x, made⟩ := mem_tmap listed
  rw [made]
  exact x.departing_st

theorem Block.startDeparture_closing (b : Block) (survey : Bool) (w : Option ManRef) : (b.startDeparture survey w).chs.closing := by
  have cut : (b.leaves survey w).cutShort.chs = (b.leaves survey w).chs := (Block.cutShort_kept _).out .chs (by simp [Piece.among])
  rw [Block.startDeparture_eq, Block.letGo_chs]
  exact Block.dropWaiters_closing _ (cut ▸ b.leaves_closing survey w)

/-- What a departure's start says of the power state. -/
theorem Block.startDeparture_pwOf (b : Block) (survey : Bool) (w : Option ManRef) {β : Type} (π : Power → β)
    (same : ∀ p, π { p with doms := [] } = π p := by intro; rfl) : π (b.startDeparture survey w).pw = π (b.leaves survey w).pw := by
  rw [Block.startDeparture_eq, Block.letGo_pw, (Block.dropWaiters_kept ..).pwOf (by simp [Piece.among]) π same,
    (Block.cutShort_kept _).pwOf (by simp [Piece.among]) π same]

theorem Block.startDeparture_tl (b : Block) (survey : Bool) (w : Option ManRef) : (b.startDeparture survey w).tl = { b.tl with busy := false } := by
  have cut : (b.leaves survey w).cutShort.tl = (b.leaves survey w).tl := (Block.cutShort_kept _).out .tl (by simp [Piece.among])
  have dropped : (b.leaves survey w).cutShort.dropWaiters.tl = (b.leaves survey w).cutShort.tl :=
    (Block.dropWaiters_kept ..).out .tl (by simp [Piece.among])
  rw [Block.startDeparture_eq, Block.letGo_tl, dropped, cut]
  rfl

theorem Block.powerRequest_leaves {b : Block} (live : b.live = true) (enabled : b.regBit Off.pwCtrl 0 = true) (service : b.inService = true) :
    b.powerRequest = b.startDeparture (b.regBit Off.pwCtrl 1) none := by
  have st : b.pw.st = .harbour ∨ b.pw.st = .openS := by simpa [Block.inService] using service
  unfold Block.powerRequest
  rw [if_neg (by simp [live, enabled])]
  rcases st with st | st <;> rw [st]

theorem pwrReqNLow_leaves {s : State} (live : s.blk.live = true) (enabled : s.blk.regBit Off.pwCtrl 0 = true) (service : s.blk.inService = true) :
    Does .pwrReqNLow s [.chans, .chs, .ck, .doms, .ins, .lanes, .mf, .prot, .pw, .running, .sides, .slots, .stk, .sv, .tl] fun b =>
      b.pw.st = .departure ∧ b.pw.depPhase = .quiesce ∧ b.pw.depNoSurvey = !s.blk.regBit Off.pwCtrl 1 ∧ b.pw.depWaiter = none
        ∧ b.pw.depStart = s.blk.ck.tide ∧ b.tl.busy = false ∧ ∀ e ∈ b.chs.tab, e.2.st = .closing ∨ e.2.st = .free := by
  have made := Block.powerRequest_leaves live enabled service
  refine does_framed (f := Block.powerRequest) rfl (execPwrReqNLow_kept ·) (Within.of rfl) ?_
  rw [made]
  have pw {β : Type} (π : Power → β) (same : ∀ p, π { p with doms := [] } = π p := by intro; rfl) :=
    s.blk.startDeparture_pwOf (s.blk.regBit Off.pwCtrl 1) none π same
  exact ⟨pw (·.st), pw (·.depPhase), pw (·.depNoSurvey), pw (·.depWaiter), pw (·.depStart),
    congrArg (·.busy) (Block.startDeparture_tl ..), s.blk.startDeparture_closing _ none⟩

theorem Block.powerRequest_held {b : Block} (live : b.live = true) (enabled : b.regBit Off.pwCtrl 0 = true) (free : b.pw.heldInReset = false)
    (st : b.pw.st = .arrival ∨ b.pw.st = .survey) : b.powerRequest = { b with pw.depHeld := true } := by
  unfold Block.powerRequest
  rw [if_neg (by simp [live, enabled])]
  rcases st with st | st <;> rw [st, free] <;> rfl

theorem Block.depHeld_kept (b : Block) : Kept [.pw] b { b with pw.depHeld := true } := by
  apply Kept.of_fields (d := { b with pw.depHeld := true }) (Kept.refl _ b) (pw := .inr ⟨.inl (List.mem_singleton.2 rfl), .inr rfl⟩) <;> exact .inl rfl

theorem Block.powerRequest_idle {b : Block} (h : b.regBit Off.pwCtrl 0 = false ∨ (b.pw.st = .arrival ∧ b.pw.heldInReset = true) ∨ b.pw.st = .dark
    ∨ b.pw.st = .departure ∨ b.pw.st = .tripped ∨ b.pw.st = .frozen) : b.powerRequest = b := by
  unfold Block.powerRequest
  split
  case isTrue => rfl
  case isFalse runs =>
    rcases h with off | ⟨st, held⟩ | st | st | st | st
    · simp [off] at runs
    · rw [st]; exact if_pos held
    all_goals rw [st]

/-- Settles O11: by the pier's state, departure starts, is held, or is ignored. -/
theorem powerRequest : Obligations.PowerRequest :=
  ⟨fun _ => pwrReqNLow_leaves, fun s live enabled free st => does_upd_eq (f := Block.powerRequest) rfl (Block.powerRequest_held live enabled free st)
      (s.blk.depHeld_kept) rfl,
    fun _ idle => exec_upd_same (f := Block.powerRequest) rfl (Block.powerRequest_idle idle)⟩

end Sys2Proof.Machine
end

section
/-! SUPPORT. Firmware update: its session, the flash, and the time limits (R325, R330 to R332). -/

namespace Sys2Proof.Machine

open Sys2Proof

/-- The manifests' own state set, slots and running manifests as they were. -/
theorem Kept.mfSet (b : Block) (x : Manifests) (slots : x.slots = b.mf.slots) (running : x.running = b.mf.running) : Kept [.mf] b { b with mf := x } := by
  apply Kept.of_fields (d := { b with mf := x }) (Kept.refl _ b)
    (mf := .inr ⟨.inl (List.mem_singleton.2 rfl), .inr slots, .inr running⟩) <;> exact .inl rfl

section
variable {b : Block} {m : ManRef} {op st : Nat} {r : List Byte} {d : Detail}

theorem Block.finish_session : (b.finish m op st r d).mf.session = b.mf.session := by rw [Block.finish_mf]

theorem Block.finish_job : (b.finish m op st r d).mf.job = b.mf.job := by rw [Block.finish_mf]

/-- An accepted manifest that changes the manifests' own state and does not complete. -/
theorem does_work {i : Instr} {s : State} {f : Block → Block} {c : Block} {qs : List Piece} {post : Block → Prop} (e : exec i s = s.man m op f)
    (mans : s.blk.mans op) (made : f s.blk = c) (frame : Kept qs s.blk c) (h : post c) : Does i s qs post :=
  does_upd_eq (e.trans (State.man_accepted f mans)) made frame h

/-- Completion after a change of the manifests' own state. -/
theorem does_finishMf {i : Instr} {s : State} {f : Block → Block} {c : Block} {post : Block → Prop} (e : exec i s = s.man m op f)
    (mans : s.blk.mans op) (made : f s.blk = c.finish m op st r d) (frame : Kept [.mf] s.blk c) (h : post (c.finish m op st r d)) :
    Does i s [.mf, .slots, .running, .ins] post := does_finish e mans made (frame.mono (Within.of rfl)) (Within.of rfl) h

end

/-! ### BEGIN -/

section
variable {s : State} {m : ManRef}

theorem exec_fwUpdateBegin_man {n : BitVec 32} : exec (.fwUpdateBegin m n) s = s.man m Mop.fwUpdate (·.fwBegin m n.toNat) := rfl

/-- The erase that BEGIN starts. -/
def Block.eraseStarts (b : Block) (m : ManRef) (total : Nat) : Block := { b with mf.job := some (.erase m b.updateSlot total) }

theorem Block.eraseStarts_kept (b : Block) (m : ManRef) (total : Nat) : Kept [.mf] b (b.eraseStarts m total) := Kept.mfSet _ _ rfl rfl

theorem fwUpdateBegin_erases {n : BitVec 32} (mans : s.blk.mans Mop.fwUpdate) (least : 257 ≤ n.toNat) (most : n.toNat ≤ 3145728)
    (none_ : s.blk.mf.session = none) (idle : s.blk.mf.job = none) :
    Does (.fwUpdateBegin m n) s [.mf, .fresh] fun b => b.mf.job = some (.erase m s.blk.updateSlot n.toNat) := by
  have made : s.blk.fwBegin m n.toNat = (s.blk.eraseStarts m n.toNat).draw := by
    rw [Block.fwBegin, if_neg (by omega), if_neg (by simp [none_, idle])]
    rfl
  exact does_work exec_fwUpdateBegin_man mans made (Block.draw_keeps (Within.of rfl) ((s.blk.eraseStarts_kept m _).mono (Within.of rfl))) rfl

theorem fwUpdateBegin_busy {n : BitVec 32} (mans : s.blk.mans Mop.fwUpdate) (least : 257 ≤ n.toNat) (most : n.toNat ≤ 3145728)
    (busy : s.blk.mf.session.isSome = true ∨ s.blk.mf.job.isSome = true) :
    Does (.fwUpdateBegin m n) s [.slots, .running, .ins] fun b => b.doneWith m 0x00A2 0x07 [] :=
  does_answer exec_fwUpdateBegin_man mans (by rw [Block.fwBegin, if_neg (by omega), if_pos busy]) (by decide) (by decide) (by simp)

theorem fwUpdateBegin_bad {n : BitVec 32} (mans : s.blk.mans Mop.fwUpdate) (h : n.toNat < 257 ∨ 3145728 < n.toNat) :
    Does (.fwUpdateBegin m n) s [.slots, .running, .ins] fun b => b.doneWith m 0x00A2 0x04 [] :=
  does_answer exec_fwUpdateBegin_man mans (if_pos h) (by decide) (by decide) (by simp)

/-! ### A phase after BEGIN -/

theorem Block.inSession_none {b : Block} {f : Block → FwSession → Block} (none_ : b.mf.session = none) :
    b.inSession m f = b.finish m Mop.fwUpdate St.refused := by rw [Block.inSession, none_]

theorem Block.inSession_other {b : Block} {f : Block → FwSession → Block} {x : FwSession} (session : b.mf.session = some x) (other : x.ring ≠ m.ring) :
    b.inSession m f = b.finish m Mop.fwUpdate St.busyRetry := by
  rw [Block.inSession, session]
  exact if_pos (.inl other)

theorem Block.inSession_own {b : Block} {f : Block → FwSession → Block} {x : FwSession} (session : b.mf.session = some x) (own : x.ring = m.ring)
    (idle : b.mf.job = none) : b.inSession m f = f (b.touchSession x) x := by
  rw [Block.inSession, session]
  exact if_neg (by simp [own, idle])

/-- The session is over. -/
def Block.sessionEnds (b : Block) : Block := { b with mf.session := none }

theorem Block.sessionEnds_kept {b c : Block} (frame : Kept [.mf] b c) : Kept [.mf] b c.sessionEnds := frame.trans (Kept.mfSet _ _ rfl rfl)

/-! ### DATA, COMMIT and ABORT -/

theorem exec_fwUpdateData_man {o : BitVec 32} {bs : List Byte} : exec (.fwUpdateData m o bs) s = s.man m Mop.fwUpdate fun b => b.inSession m fun b x =>
    if o.toNat ≠ x.got ∨ bs.isEmpty ∨ 4084 < bs.length ∨ x.total < x.got + bs.length then b.finish m Mop.fwUpdate St.badParam
    else { b with mf.job := some (.program m o.toNat bs) } := rfl

section
variable {x : FwSession} {o : BitVec 32} {bs : List Byte} {root : BitVec 384}

theorem fwUpdateData_programs (mans : s.blk.mans Mop.fwUpdate) (session : s.blk.mf.session = some x) (own : x.ring = m.ring) (idle : s.blk.mf.job = none)
    (next : o.toNat = x.got) (some_ : bs ≠ []) (short : bs.length ≤ 4084) (inside : x.got + bs.length ≤ x.total) :
    Does (.fwUpdateData m o bs) s [.mf] fun b => b.mf.job = some (.program m o.toNat bs) ∧ b.mf.session = some { x with at_ := s.blk.ck.tide } := by
  refine does_work exec_fwUpdateData_man mans ((Block.inSession_own session own idle).trans (if_neg ?_))
    ((s.blk.touchSession_kept x).trans (Kept.mfSet _ _ rfl rfl)) ⟨rfl, rfl⟩
  have full : bs.isEmpty = false := by simpa using some_
  simp only [next, full, ne_eq, not_true, Bool.false_eq_true, false_or, not_or, Nat.not_lt]
  exact ⟨short, inside⟩

theorem fwUpdateData_bad (mans : s.blk.mans Mop.fwUpdate) (session : s.blk.mf.session = some x) (own : x.ring = m.ring) (idle : s.blk.mf.job = none)
    (bad : o.toNat ≠ x.got ∨ bs = [] ∨ 4084 < bs.length ∨ x.total < x.got + bs.length) :
    Does (.fwUpdateData m o bs) s [.mf, .slots, .running, .ins] fun b =>
      b.doneWith m 0x00A2 0x04 [] ∧ b.mf.session = some { x with at_ := s.blk.ck.tide } ∧ b.mf.job = none := by
  refine does_finishMf exec_fwUpdateData_man mans ((Block.inSession_own session own idle).trans (if_pos ?_)) (s.blk.touchSession_kept x)
    ⟨Block.finish_doneWith _ {} (by decide) (by decide) (by simp), Block.finish_session, Block.finish_job.trans idle⟩
  simpa [List.isEmpty_iff] using bad

theorem fwUpdateData_busy (mans : s.blk.mans Mop.fwUpdate) (session : s.blk.mf.session = some x) (other : x.ring ≠ m.ring) :
    Does (.fwUpdateData m o bs) s [.slots, .running, .ins] fun b => b.doneWith m 0x00A2 0x07 [] :=
  does_answer exec_fwUpdateData_man mans (Block.inSession_other session other) (by decide) (by decide) (by simp)

theorem fwUpdateData_refused (mans : s.blk.mans Mop.fwUpdate) (none_ : s.blk.mf.session = none) :
    Does (.fwUpdateData m o bs) s [.slots, .running, .ins] fun b => b.doneWith m 0x00A2 0x02 [] :=
  does_answer exec_fwUpdateData_man mans (Block.inSession_none none_) (by decide) (by decide) (by simp)

theorem exec_fwUpdateCommit_man : exec (.fwUpdateCommit m root) s = s.man m Mop.fwUpdate fun b => b.inSession m fun b x =>
    if x.got ≠ x.total ∨ ¬ b.imageValid (b.updated root x) then b.sessionEnds.finish m Mop.fwUpdate St.authFail
    else { b with mf.job := some (.directory m x.slotB (b.updated root x).version (b.updated root x).security) } := rfl

theorem Block.touchSession_updated (b : Block) (x : FwSession) (root : BitVec 384) : (b.touchSession x).updated root x = b.updated root x := rfl

theorem Block.touchSession_imageValid (b : Block) (x : FwSession) (i : Image) : (b.touchSession x).imageValid i = b.imageValid i := rfl

theorem fwUpdateCommit_writes {img : Image} (mans : s.blk.mans Mop.fwUpdate) (session : s.blk.mf.session = some x) (own : x.ring = m.ring)
    (idle : s.blk.mf.job = none) (whole : x.got = x.total) (image : s.blk.updated root x = img) (valid : s.blk.imageValid img = true) :
    Does (.fwUpdateCommit m root) s [.mf] fun b => b.mf.job = some (.directory m x.slotB img.version img.security) := by
  subst image
  refine does_work exec_fwUpdateCommit_man mans ((Block.inSession_own session own idle).trans (if_neg ?_))
    ((s.blk.touchSession_kept x).trans (Kept.mfSet _ _ rfl rfl)) rfl
  rw [Block.touchSession_updated, Block.touchSession_imageValid]
  simp [whole, valid]

theorem fwUpdateCommit_fails (mans : s.blk.mans Mop.fwUpdate) (session : s.blk.mf.session = some x) (own : x.ring = m.ring)
    (idle : s.blk.mf.job = none) (bad : x.got ≠ x.total ∨ s.blk.imageValid (s.blk.updated root x) = false) :
    Does (.fwUpdateCommit m root) s [.mf, .slots, .running, .ins] fun b => b.doneWith m 0x00A2 0x05 [] ∧ b.mf.session = none ∧ b.mf.job = none := by
  refine does_finishMf exec_fwUpdateCommit_man mans ((Block.inSession_own session own idle).trans (if_pos ?_))
    (Block.sessionEnds_kept (s.blk.touchSession_kept x)) ⟨Block.finish_doneWith _ {} (by decide) (by decide) (by simp), Block.finish_session,
      Block.finish_job.trans idle⟩
  rw [Block.touchSession_updated, Block.touchSession_imageValid]
  simpa using bad

theorem exec_fwUpdateAbort_man : exec (.fwUpdateAbort m) s = s.man m Mop.fwUpdate fun b => b.inSession m fun b _ =>
    b.sessionEnds.finish m Mop.fwUpdate St.ok := rfl

theorem fwUpdateAbort_ends (mans : s.blk.mans Mop.fwUpdate) (session : s.blk.mf.session = some x) (own : x.ring = m.ring) (idle : s.blk.mf.job = none) :
    Does (.fwUpdateAbort m) s [.mf, .slots, .running, .ins] fun b => b.doneWith m 0x00A2 0x00 [] ∧ b.mf.session = none :=
  does_finishMf exec_fwUpdateAbort_man mans (Block.inSession_own session own idle) (Block.sessionEnds_kept (s.blk.touchSession_kept x))
    ⟨Block.finish_doneWith _ {} (by decide) (by decide) (by simp), Block.finish_session⟩

end

end

/-! ### The flash has done its work -/

theorem tget_program_below {t : Tbl Byte} {a i : Nat} (vs : List Byte) (below : i < a) :
    tget (fun _ => erased) (program t a vs) i = tget (fun _ => erased) t i := by
  induction vs generalizing t a with
  | nil => rfl
  | cons v vs ih => rw [program, ih (Nat.lt_succ_of_lt below), tget_tset_other _ _ _ (Nat.ne_of_gt below)]

theorem tget_program {t : Tbl Byte} {a : Nat} {vs : List Byte} {i : Nat} (inside : i < vs.length) :
    tget (fun _ => erased) (program t a vs) (a + i) = vs.getD i 0 := by
  induction vs generalizing t a i with
  | nil => cases inside
  | cons v vs ih =>
    cases i with
    | zero => rw [program, tget_program_below vs (by omega)]; exact tget_tset_same ..
    | succ k =>
      have later : a + (k + 1) = a + 1 + k := by omega
      rw [program, later, ih (Nat.lt_of_succ_lt_succ inside)]
      rfl

theorem Manifests.setImage_image (x : Manifests) (slotB : Bool) (t : Tbl Byte) : (x.setImage slotB t).image slotB = t := by cases slotB <;> rfl

theorem Manifests.setImage_slots (x : Manifests) (slotB : Bool) (t : Tbl Byte) :
    (x.setImage slotB t).slots = x.slots ∧ (x.setImage slotB t).running = x.running := by cases slotB <;> exact ⟨rfl, rfl⟩

/-- The directory copy that a COMMIT writes names its slot. -/
theorem Manifests.writeDir_names (x : Manifests) (slotB : Bool) :
    (x.writeDir slotB).dir0.map (·.slotB) = some slotB ∨ (x.writeDir slotB).dir1.map (·.slotB) = some slotB := by
  unfold Manifests.writeDir
  split
  · split
    · exact .inr rfl
    · exact .inl rfl
  · exact .inr rfl
  · exact .inl rfl
  · exact .inl rfl

theorem Manifests.writeDir_slots (x : Manifests) (slotB : Bool) :
    (x.writeDir slotB).slots = x.slots ∧ (x.writeDir slotB).running = x.running := by
  unfold Manifests.writeDir
  split
  · split <;> exact ⟨rfl, rfl⟩
  all_goals exact ⟨rfl, rfl⟩

/-- The block with the manifests' own state set and no flash job. -/
def Block.jobOver (b : Block) (x : Manifests) (session : Option FwSession) : Block := { b with mf := { x with job := none, session := session } }

theorem Block.jobOver_kept (b : Block) {x : Manifests} (session : Option FwSession) (slots : x.slots = b.mf.slots) (running : x.running = b.mf.running) :
    Kept [.mf] b (b.jobOver x session) := Kept.mfSet _ _ slots running

section
variable {s : State} {m : ManRef}

theorem exec_flashOperationDone_upd : exec .flashOperationDone s = s.upd fun b => if b.hmRuns ∧ b.spiRuns then b.flashDone else b := rfl

/-- The flash's work ends in the completion of its manifest. -/
theorem flashOperationDone_completes {x : Manifests} {session : Option FwSession} {r : List Byte} {post : Block → Prop} (runs : s.blk.hmRuns = true)
    (spi : s.blk.spiRuns = true) (made : s.blk.flashDone = (s.blk.jobOver x session).finish m Mop.fwUpdate St.ok r)
    (same : x.slots = s.blk.mf.slots ∧ x.running = s.blk.mf.running) (short : r.length ≤ 960)
    (h : ∀ b, b.doneWith m 0x00A2 0x00 r → b.mf.job = none → b.mf.session = session → b.mf.image = x.image → b.mf.dir0 = x.dir0 → b.mf.dir1 = x.dir1 → post b) :
    Does .flashOperationDone s [.mf, .slots, .running, .ins] post := by
  obtain ⟨slots, running⟩ := same
  refine does_upd_eq exec_flashOperationDone_upd ((if_pos ⟨runs, spi⟩).trans made)
    (Kept.step (Block.finish_kept ..) (Within.of rfl) ((s.blk.jobOver_kept session slots running).mono (Within.of rfl))) (h _ ?_ ?_ ?_ ?_ ?_ ?_)
  · exact Block.finish_doneWith _ {} (by decide) (by decide) short
  all_goals rw [Block.finish_mf]; rfl

theorem flashOperationDone_erased {sl : Bool} {n : Nat} (runs : s.blk.hmRuns = true) (spi : s.blk.spiRuns = true)
    (job : s.blk.mf.job = some (.erase m sl n)) :
    Does .flashOperationDone s [.mf, .slots, .running, .ins] fun b =>
      b.doneWith m 0x00A2 0x00 [] ∧ b.mf.job = none ∧ b.mf.session = some { ring := m.ring, slotB := sl, total := n, at_ := s.blk.ck.tide } ∧ b.mf.image sl = [] :=
  flashOperationDone_completes runs spi (x := s.blk.mf.setImage sl [])
    (session := some { ring := m.ring, slotB := sl, total := n, at_ := s.blk.ck.tide })
    (by rw [Block.flashDone, job]; rfl) (Manifests.setImage_slots ..) (by simp) fun b done ended session image _ _ =>
      ⟨done, ended, session, by rw [image]; exact Manifests.setImage_image ..⟩

theorem flashOperationDone_programmed {x : FwSession} {o : Nat} {bs : List Byte} (runs : s.blk.hmRuns = true) (spi : s.blk.spiRuns = true)
    (job : s.blk.mf.job = some (.program m o bs)) (open_ : s.blk.mf.session = some x) :
    Does .flashOperationDone s [.mf, .slots, .running, .ins] fun b =>
      b.doneWith m 0x00A2 0x00 [] ∧ b.mf.job = none ∧ b.mf.session = some { x with got := x.got + bs.length }
        ∧ ∀ i : Fin 4084, i.val < bs.length → tget (fun _ => erased) (b.mf.image x.slotB) (o + i.val) = bs.getD i.val 0 :=
  flashOperationDone_completes runs spi (x := s.blk.mf.setImage x.slotB (program (s.blk.mf.image x.slotB) o bs))
    (session := some { x with got := x.got + bs.length })
    (by rw [Block.flashDone, job]; simp only [open_]; rfl) (Manifests.setImage_slots ..) (by simp) fun b done ended session image _ _ =>
      ⟨done, ended, session, fun i inside => by rw [image, Manifests.setImage_image, tget_program inside]⟩

theorem flashOperationDone_committed {sl : Bool} {v : BitVec 32} {k : BitVec 8} (runs : s.blk.hmRuns = true) (spi : s.blk.spiRuns = true)
    (job : s.blk.mf.job = some (.directory m sl v k)) :
    Does .flashOperationDone s [.mf, .slots, .running, .ins] fun b =>
      b.doneWith m 0x00A2 0x00 (leBytes v.toNat 4 ++ [k, if sl then 1 else 0]) ∧ b.mf.session = none ∧ b.mf.job = none
        ∧ (b.mf.dir0.map (·.slotB) = some sl ∨ b.mf.dir1.map (·.slotB) = some sl) := by
  have made : s.blk.flashDone = (s.blk.jobOver (s.blk.mf.writeDir sl) none).finish m Mop.fwUpdate St.ok
      (leBytes v.toNat 4 ++ [k, if sl then 1 else 0]) := by
    rw [Block.flashDone, job]
    cases sl <;> rfl
  refine flashOperationDone_completes runs spi made (Manifests.writeDir_slots ..) (by simp [leBytes_length]) fun b done ended session _ dir0 dir1 =>
      ⟨done, session, ended, ?_⟩
  rw [dir0, dir1]
  exact Manifests.writeDir_names ..

theorem exec_flashOperationDone_idle (h : s.blk.hmRuns = false ∨ s.blk.spiRuns = false ∨ s.blk.mf.job = none) :
    exec .flashOperationDone s = .next s := by
  refine exec_upd_same exec_flashOperationDone_upd ?_
  rcases h with halted | halted | idle
  · exact if_neg (by simp [halted])
  · exact if_neg (by simp [halted])
  · rw [Block.flashDone, idle, ite_self]

/-! ### Time limits -/

theorem fwSessionTimeout_ends (runs : s.blk.hmRuns = true) (idle : s.blk.mf.job = none) (old : s.blk.sessionOld = true) :
    Does .fwSessionTimeout s [.mf] fun b => b.mf.session = none :=
  does_upd_eq (f := fun b => if b.hmRuns ∧ b.mf.job.isNone ∧ b.sessionOld then b.sessionEnds else b) rfl
    (if_pos ⟨runs, by rw [idle]; rfl, old⟩) (Block.sessionEnds_kept (Kept.refl ..)) rfl

theorem exec_fwSessionTimeout_idle (h : s.blk.hmRuns = false ∨ s.blk.mf.job.isSome = true ∨ s.blk.sessionOld = false) :
    exec .fwSessionTimeout s = .next s := by
  refine exec_upd_same (f := fun b => if b.hmRuns ∧ b.mf.job.isNone ∧ b.sessionOld then b.sessionEnds else b) rfl (if_neg ?_)
  rintro ⟨runs, idle, old⟩
  rcases h with halted | job | young
  · rw [runs] at halted; cases halted
  · rw [Option.isNone_iff_eq_none] at idle; rw [idle] at job; cases job
  · rw [old] at young; cases young

/-- MANIFEST_TIMEOUT's work. -/
def Block.manTimeout (b : Block) (m : ManRef) : Block :=
  if ¬ b.hmRuns then b
  else match b.waitsFor m with
    | some op => if b.atBound m op then (b.forgetMan m).finish m op St.timeout else b
    | none =>
      match b.sv.cal.find? fun r => r.m == m with
      | some r => if b.atBound m Mop.calRun then b.calRunEnds r else b
      | none => b

theorem exec_manifestTimeout_upd : exec (.manifestTimeout m) s = s.upd (·.manTimeout m) := rfl

theorem manifestTimeout_outside {op : Nat} (runs : s.blk.hmRuns = true) (waits : s.blk.waitsFor m = some op) (code : op < 2 ^ 16)
    (bound : s.blk.atBound m op = true) :
    Does (.manifestTimeout m) s [.cnt, .events, .fws, .ins, .lanes, .mf, .pw, .qy, .regs, .running, .sides, .slots, .sv, .tl] fun b => b.doneWith m op 0x0F [] := by
  refine does_framed exec_manifestTimeout_upd (execManifestTimeout_kept m ·) (Within.of rfl) ?_
  simp only [Block.manTimeout, runs, not_true, if_false, waits, bound, if_true]
  exact Block.finish_doneWith _ {} code (by decide) (by simp)

theorem manifestTimeout_calibration {r : CalRun} (runs : s.blk.hmRuns = true) (waits : s.blk.waitsFor m = none)
    (run : (s.blk.sv.cal.find? fun r => r.m == m) = some r) (bound : s.blk.atBound m Mop.calRun = true) :
    Does (.manifestTimeout m) s [.cnt, .events, .fws, .ins, .lanes, .mf, .pw, .qy, .regs, .running, .sides, .slots, .sv, .tl] fun b =>
      b.doneWith m 0x0031 0x00 (leBytes r.passed.toNat 8 ++ leBytes (r.failed ||| r.todo).toNat 8) := by
  have own : r.m = m := by simpa using List.find?_some run
  refine does_framed exec_manifestTimeout_upd (execManifestTimeout_kept m ·) (Within.of rfl) ?_
  simp only [Block.manTimeout, runs, not_true, if_false, waits, run, bound, if_true]
  rw [Block.calRunEnds, own]
  exact Block.finish_doneWith _ {} (by decide) (by decide) (by simp [leBytes_length])

theorem exec_manifestTimeout_idle (h : s.blk.hmRuns = false ∨ s.blk.atBound m ((s.blk.waitsFor m).getD Mop.calRun) = false
    ∨ (s.blk.waitsFor m = none ∧ (s.blk.sv.cal.find? fun r => r.m == m) = none)) : exec (.manifestTimeout m) s = .next s := by
  refine exec_upd_same exec_manifestTimeout_upd ?_
  unfold Block.manTimeout
  rcases h with halted | early | ⟨waits, none_⟩
  · exact if_pos (by simp [halted])
  · split
    · rfl
    · cases waits : s.blk.waitsFor m with
      | some op =>
        rw [waits] at early
        exact if_neg (by rw [show s.blk.atBound m op = false from early]; exact Bool.false_ne_true)
      | none =>
        rw [waits] at early
        cases s.blk.sv.cal.find? fun r => r.m == m with
        | some r => exact if_neg (by rw [show s.blk.atBound m Mop.calRun = false from early]; exact Bool.false_ne_true)
        | none => rfl
  · simp [waits, none_]

end

/-- Settles O51: each phase by the session it finds, the flash's end by its job, and the time limits by what still waits. -/
theorem firmwareUpdate : Obligations.FirmwareUpdate :=
  ⟨fun _ _ _ => fwUpdateBegin_erases, fun _ _ _ => fwUpdateBegin_busy, fun _ _ _ => fwUpdateBegin_bad, fun _ _ _ _ _ => fwUpdateData_programs,
    fun _ _ _ _ _ => fwUpdateData_bad, fun _ _ _ _ _ => fwUpdateData_busy, fun _ _ _ _ => fwUpdateData_refused, fun _ _ _ _ _ => fwUpdateCommit_writes,
    fun _ _ _ _ => fwUpdateCommit_fails, fun _ _ _ => fwUpdateAbort_ends, fun _ _ _ _ => flashOperationDone_erased,
    fun _ _ _ _ _ => flashOperationDone_programmed, fun _ _ _ _ _ => flashOperationDone_committed, fun _ => exec_flashOperationDone_idle,
    fun _ => fwSessionTimeout_ends, fun _ => exec_fwSessionTimeout_idle, fun _ _ _ => manifestTimeout_outside, fun _ _ _ => manifestTimeout_calibration,
    fun _ _ => exec_manifestTimeout_idle⟩

end Sys2Proof.Machine
end

section
/-! SUPPORT. Manifests in band: fragments and their buffers (R310, R311). -/

namespace Sys2Proof.Machine

open Sys2Proof

section
variable {b : Block} {o : Origin} {st : Nat}

theorem Block.count_bumpW_same (b : Block) (w off n : Nat) : (b.bumpW w off n).count off = min (b.count off + n) (2 ^ w - 1) :=
  Block.count_setCount_same ..

theorem Block.refuseMan_other (h : st ≠ St.authFail) :
    b.refuseMan o st = (b.bumpW 32 Off.mfRefused 1).push o 2 ((b.bumpW 32 Off.mfRefused 1).receiptFlits o st 0 64 []) := by
  unfold Block.refuseMan
  rw [if_neg h]

/-- A refusal other than of authentication counts and touches nothing that manifests keep. -/
theorem Block.refuseMan_mf (h : st ≠ St.authFail) : (b.refuseMan o st).mf = b.mf := by
  rw [Block.refuseMan_other h, Block.push_mf]
  rfl

theorem Block.refuseMan_refused (h : st ≠ St.authFail) : (b.refuseMan o st).count Off.mfRefused = min (b.count Off.mfRefused + 1) (2 ^ 32 - 1) := by
  rw [Block.refuseMan_other h, show (Block.push ..).count Off.mfRefused = _ from (Block.push_kept ..).out (.count Off.mfRefused) (by simp [Piece.among]),
    Block.count_bumpW_same]

theorem Block.refuseMan_claimed : (b.refuseMan o st).qy.claimed = b.qy.claimed :=
  (Block.refuseMan_kept ..).qyOf (by simp [Piece.among]) (·.claimed)

end

/-- The buffers without one. -/
def Block.withoutReasm (b : Block) (r : Reasm) : List Reasm := b.mf.reasm.filter fun x => !(x.side == r.side && x.src == r.src && x.tag == r.tag)

theorem Block.dropReasm_reasm (b : Block) (r : Reasm) : (b.dropReasm r).mf.reasm = b.withoutReasm r := rfl

/-- What a refused fragment leaves of the state it found: no slot is touched, no manifest starts, no buffer is added. -/
structure Block.Unmanned (b c : Block) : Prop where
  claimed : c.qy.claimed = b.qy.claimed
  slots : c.mf.slots = b.mf.slots
  running : c.mf.running = b.mf.running
  reasm : ∀ r ∈ c.mf.reasm, r ∈ b.mf.reasm
  refused : c.count Off.mfRefused = b.count Off.mfRefused

theorem Block.Unmanned.refl (b : Block) : b.Unmanned b := ⟨rfl, rfl, rfl, fun _ h => h, rfl⟩

theorem Block.Unmanned.trans {b c d : Block} (h : b.Unmanned c) (k : c.Unmanned d) : b.Unmanned d :=
  ⟨k.claimed.trans h.claimed, k.slots.trans h.slots, k.running.trans h.running, fun r m => h.reasm r (k.reasm r m), k.refused.trans h.refused⟩

theorem Block.dropReasm_unmanned (b : Block) (r : Reasm) : b.Unmanned (b.dropReasm r) := by
  have kept := b.dropReasm_kept r
  refine ⟨kept.qyOf (by simp [Piece.among]) (·.claimed), kept.out .slots (by simp [Piece.among]), kept.out .running (by simp [Piece.among]), fun x h => ?_,
    kept.out (.count Off.mfRefused) (by simp [Piece.among, Off.mfRefused, Off.mfFragDrop])⟩
  rw [Block.dropReasm_reasm] at h
  exact List.mem_of_mem_filter h

theorem Block.dropLate_unmanned (b : Block) : b.Unmanned b.dropLate :=
  List.foldlRecOn (motive := b.Unmanned) _ Block.dropReasm (.refl b) fun c h r _ => h.trans (c.dropReasm_unmanned r)

theorem Block.dropLate_none {b : Block} (fresh : (b.mf.reasm.all fun r => !r.late b.qy.claimAt) = true) : b.dropLate = b := by
  have none_ : b.mf.reasm.filter (fun r => r.late b.qy.claimAt) = [] := by
    rw [List.filter_eq_nil_iff]
    intro r listed
    have := List.all_eq_true.mp fresh r listed
    simpa using this
  rw [Block.dropLate, none_]
  rfl

/-- A malformed fragment is refused with BAD_PARAM, and its buffer goes where it disagrees with it. -/
theorem Block.takeFragment_malformed {b : Block} {sd : Side} {f : Flit} (bad : fragmentOk f = false) :
    ∃ c o, (b.takeClaimed sd f).Unmanned c ∧ b.takeFragment sd f = c.refuseMan o St.badParam := by
  have late := (b.takeClaimed sd f).dropLate_unmanned
  unfold Block.takeFragment
  dsimp only
  split
  · split
    · exact ⟨_, _, late.trans (Block.dropReasm_unmanned ..), rfl⟩
    · rw [if_pos (.inl (by simp [bad]))]
      exact ⟨_, _, late, rfl⟩
  · rw [if_pos (by simp [bad])]
    exact ⟨_, _, late, rfl⟩

/-- The buffer that a first fragment opens. -/
def Block.opened (b : Block) (sd : Side) (f : Flit) : Reasm :=
  { side := sd, src := f.src, tag := f.tag, flow := f.flow, length := f.length, count := f.arg.toNat / 65536, dest := f.dest
    since := b.qy.claimAt
    got := [(f.arg.toNat % 65536, (payload f).take (min 256 (f.length.toNat - 256 * (f.arg.toNat % 65536))))] }

/-- A buffer added at the end of the others. -/
def Block.withReasm (b : Block) (r : Reasm) : Block := { b with mf.reasm := b.withoutReasm r ++ [r] }

theorem Block.withReasm_kept (b : Block) (r : Reasm) : Kept [.mf] b (b.withReasm r) := Kept.mfSet _ _ rfl rfl

theorem Block.takeFragment_first {b : Block} {sd : Side} {f : Flit} (good : fragmentOk f = true) (several : 2 ≤ f.arg.toNat / 65536)
    (none_ : (b.mf.reasm.find? fun x => x.side == sd && x.src == f.src && x.tag == f.tag) = none) (room : (b.mf.reasm.countP fun x => x.side == sd) < 8)
    (fresh : (b.mf.reasm.all fun r => !r.late (b.takeClaimed sd f).qy.claimAt) = true) :
    b.takeFragment sd f = (b.takeClaimed sd f).withReasm ((b.takeClaimed sd f).opened sd f) := by
  have kept : (b.takeClaimed sd f).dropLate = b.takeClaimed sd f := Block.dropLate_none fresh
  have none' : ((b.takeClaimed sd f).mf.reasm.find? fun x => x.side == sd && x.src == f.src && x.tag == f.tag) = none := none_
  have room' : ¬ 8 ≤ (b.takeClaimed sd f).mf.reasm.countP fun x => x.side == sd := Nat.not_le.mpr room
  unfold Block.takeFragment
  simp only [kept, none', good, not_true, if_false, if_neg room']
  exact if_pos several

section
variable {s : State} {sd : Side} {f : Flit}

theorem exec_manifestFragment_upd : exec (.manifestFragment sd f) s = s.upd fun b => if f.kind = 3 ∧ b.decides ∧ b.hmRuns then b.takeFragment sd f else b := rfl

theorem manifestFragment_malformed (kind : f.kind = 3) (decides : s.blk.decides = true) (runs : s.blk.hmRuns = true) (bad : fragmentOk f = false) :
    Does (.manifestFragment sd f) s [.count Off.mfAccepted, .count Off.mfAuthFail, .count Off.mfFragDrop, .count Off.mfRefused, .events, .fresh, .ins, .mf, .qy, .reg Off.lgAlarm, .reg Off.mfAlarm, .running, .slots] fun b =>
      b.qy.claimed = s.blk.qy.claimed.erase (sd, f) ∧ b.mf.slots = s.blk.mf.slots ∧ (∀ r ∈ b.mf.reasm, r ∈ s.blk.mf.reasm) ∧ b.mf.running = s.blk.mf.running
        ∧ b.count Off.mfRefused = min (s.blk.count Off.mfRefused + 1) (2 ^ 32 - 1) := by
  obtain ⟨c, o, ⟨claimed, slots, running, reasm, refused⟩, made⟩ := s.blk.takeFragment_malformed (sd := sd) bad
  have apart : St.badParam ≠ St.authFail := by decide
  refine does_framed exec_manifestFragment_upd (execManifestFragment_kept sd f ·) (Within.of rfl) ?_
  rw [if_pos ⟨kind, decides, runs⟩, made, Block.refuseMan_claimed, Block.refuseMan_mf apart, Block.refuseMan_refused apart]
  exact ⟨claimed, slots, reasm, running, by rw [refused]; rfl⟩

theorem manifestFragment_buffers (kind : f.kind = 3) (decides : s.blk.decides = true) (runs : s.blk.hmRuns = true) (good : fragmentOk f = true)
    (several : 2 ≤ f.arg.toNat / 65536) (none_ : (s.blk.mf.reasm.find? fun x => x.side == sd && x.src == f.src && x.tag == f.tag) = none)
    (room : (s.blk.mf.reasm.countP fun x => x.side == sd) < 8) (fresh : (s.blk.mf.reasm.all fun r => !r.late (s.blk.takeClaimed sd f).qy.claimAt) = true) :
    Does (.manifestFragment sd f) s [.qy, .mf] fun b => b.mf.reasm.getLast? = some ((s.blk.takeClaimed sd f).opened sd f) :=
  does_upd_eq exec_manifestFragment_upd ((if_pos ⟨kind, decides, runs⟩).trans (Block.takeFragment_first good several none_ room fresh))
    (Kept.step (Block.withReasm_kept ..) (Within.of rfl) ((s.blk.takeClaimed_kept sd f).mono (Within.of rfl))) List.getLast?_concat

theorem exec_manifestFragment_idle (h : f.kind ≠ 3 ∨ s.blk.decides = false ∨ s.blk.hmRuns = false) : exec (.manifestFragment sd f) s = .next s := by
  refine exec_upd_same exec_manifestFragment_upd (if_neg ?_)
  rintro ⟨kind, decides, runs⟩
  rcases h with other | idle | halted
  · exact other kind
  · rw [decides] at idle; cases idle
  · rw [runs] at halted; cases halted

/-! ### REASSEMBLY_TIMEOUT -/

variable {src : BitVec 15} {tag : BitVec 16}

/-- The buffer that REASSEMBLY_TIMEOUT names. -/
def Block.reasmOf (b : Block) (sd : Side) (src : BitVec 15) (tag : BitVec 16) : Option Reasm :=
  b.mf.reasm.find? fun x => x.side == sd && x.src == src && x.tag == tag

/-- REASSEMBLY_TIMEOUT's work. -/
def Block.reasmTimeout (b : Block) (sd : Side) (src : BitVec 15) (tag : BitVec 16) : Block :=
  match b.reasmOf sd src tag with
  | some r => if r.late b.ck.tide then b.dropReasm r else b
  | none => b

theorem exec_reassemblyTimeout_upd : exec (.reassemblyTimeout sd src tag) s = s.upd (·.reasmTimeout sd src tag) := rfl

theorem Block.dropReasm_gone {b : Block} {r : Reasm} (found : b.reasmOf sd src tag = some r) : (b.dropReasm r).reasmOf sd src tag = none := by
  have named := List.find?_some found
  simp only [Bool.and_eq_true, beq_iff_eq] at named
  obtain ⟨⟨side, from_⟩, tagged⟩ := named
  rw [Block.reasmOf, Block.dropReasm_reasm, Block.withoutReasm, side, from_, tagged, List.find?_eq_none]
  intro x kept
  have := (List.mem_filter.mp kept).2
  simp only [Bool.not_eq_true', Bool.and_eq_false_imp, Bool.and_eq_true, beq_iff_eq, beq_eq_false_iff_ne] at this ⊢
  exact fun ⟨⟨a, b⟩, c⟩ => this ⟨a, b⟩ c

theorem reassemblyTimeout_late {r : Reasm} (found : s.blk.reasmOf sd src tag = some r) (late : r.late s.blk.ck.tide = true) :
    Does (.reassemblyTimeout sd src tag) s [.count Off.mfFragDrop, .mf, .reg Off.mfAlarm] fun b =>
      b.reasmOf sd src tag = none ∧ b.regBit Off.mfAlarm 1 = true ∧ b.count Off.mfFragDrop = min (s.blk.count Off.mfFragDrop + 1) (2 ^ 32 - 1) := by
  have made : s.blk.reasmTimeout sd src tag = s.blk.dropReasm r := by rw [Block.reasmTimeout, found]; exact if_pos late
  refine does_upd_eq exec_reassemblyTimeout_upd made (s.blk.dropReasm_kept r) ⟨Block.dropReasm_gone found, ?_, ?_⟩
  · rw [Block.dropReasm, Block.regBit_orReg]
    simp
  · exact Block.count_bumpW_same ..

theorem exec_reassemblyTimeout_early (early : (s.blk.reasmOf sd src tag).all (fun r => !r.late s.blk.ck.tide) = true) :
    exec (.reassemblyTimeout sd src tag) s = .next s := by
  refine exec_upd_same exec_reassemblyTimeout_upd ?_
  rw [Block.reasmTimeout]
  cases found : s.blk.reasmOf sd src tag with
  | none => rfl
  | some r =>
    rw [found] at early
    exact if_neg (by simpa using early)

end

end Sys2Proof.Machine
end

section
/-! SUPPORT. Manifests by mailbox (R312, R314 to R319). -/

namespace Sys2Proof.Machine

open Sys2Proof

/-- A manifest that came by a mailbox has nobody to push to. -/
theorem Block.push_sideband (b : Block) {o : Origin} (side : o.side = none) (level : Nat) (fs : List Flit) : b.push o level fs = b := by
  rw [Block.push, side]

/-- The mailbox after a decision. -/
def Block.mboxDone (b : Block) (p : Path) (st : Nat) : Block := b.setMbox p { b.mbox p with st := 2, status := BitVec.ofNat 8 st }

theorem Block.mboxDone_mbox (b : Block) (p : Path) (st : Nat) : (b.mboxDone p st).mbox p = { b.mbox p with st := 2, status := BitVec.ofNat 8 st } := by
  cases p <;> rfl

theorem Block.mboxDone_kept (b : Block) (p : Path) (st : Nat) : Kept [.mf] b (b.mboxDone p st) := b.setMbox_kept p _

theorem Block.mboxDone_running (b : Block) (p : Path) (st : Nat) : (b.mboxDone p st).mf.running = b.mf.running :=
  (b.mboxDone_kept p st).out .running (by simp [Piece.among])

theorem Block.mboxDone_slots (b : Block) (p : Path) (st : Nat) : (b.mboxDone p st).mf.slots = b.mf.slots :=
  (b.mboxDone_kept p st).out .slots (by simp [Piece.among])

/-- What MF_MBOX_DOOR decides: too short or too long a manifest is BAD_PARAM. -/
def Block.rung (b : Block) (p : Path) (len : Nat) : Block × Nat :=
  if len < 64 ∨ 4160 < len then (b.refuseMan { side := none, path := p } St.badParam, St.badParam)
  else b.decideMan { side := none, path := p } 1 ((List.range (min len 4160)).map fun i => tget (fun _ => 0) (b.mbox p).data i)

section
variable {b : Block} {p : Path} {v : Word}

theorem Block.doorbell_idle (h : p = .inBand ∨ v.getLsbD 31 = false ∨ b.sidebandOpen = false ∨ b.hmRuns = false) : b.doorbell p v = b := by
  refine if_pos ?_
  rcases h with band | still | shut | halted
  · exact .inl band
  · exact .inr (.inr (.inr still))
  · exact .inr (.inl (by simp [shut]))
  · exact .inr (.inr (.inl (by simp [halted])))

theorem Block.doorbell_rings (side : p ≠ .inBand) (go : v.getLsbD 31 = true) (opened : b.sidebandOpen = true) (runs : b.hmRuns = true) :
    b.doorbell p v = (b.rung p (v.toNat % 2 ^ 13)).1.mboxDone p (b.rung p (v.toNat % 2 ^ 13)).2 :=
  if_neg (by simp [side, go, opened, runs])

theorem exec_mfMboxDoor_upd {s : State} : exec (.mfMboxDoor p v) s = s.upd (·.doorbell p v) := rfl

theorem Block.refuseMan_sideband {o : Origin} {st : Nat} (side : o.side = none) (h : st ≠ St.authFail) : b.refuseMan o st = b.bumpW 32 Off.mfRefused 1 := by
  rw [Block.refuseMan_other h, Block.push_sideband _ side]

end

section
variable {s : State} {v : Word}

theorem mfMboxDoor_short {p : Path} (side : p ≠ .inBand) (go : v.getLsbD 31 = true) (opened : s.blk.sidebandOpen = true) (runs : s.blk.hmRuns = true)
    (short : v.toNat % 2 ^ 13 < 64) : Does (.mfMboxDoor p v) s [.mf, .count Off.mfRefused] fun b =>
      (b.mbox p).st = 2 ∧ (b.mbox p).status = 0x04 ∧ b.mf.slots = s.blk.mf.slots := by
  have refused : s.blk.rung p (v.toNat % 2 ^ 13) = (s.blk.bumpW 32 Off.mfRefused 1, St.badParam) := by
    rw [Block.rung, if_pos (.inl short), Block.refuseMan_sideband rfl (by decide)]
  have made := Block.doorbell_rings side go opened runs
  rw [refused] at made
  refine does_upd_eq exec_mfMboxDoor_upd made
    (Kept.step (Block.mboxDone_kept ..) (Within.of rfl) ((s.blk.bumpW_kept ..).mono (Within.of rfl))) ⟨?_, ?_, Block.mboxDone_slots ..⟩
  all_goals rw [Block.mboxDone_mbox]
  rfl

/-- The bytes of the I3C mailbox that MF_MBOX_DOOR has decided, once they are known. -/
theorem Block.doorbell_decides {b : Block} {bs : List Byte} (go : v.getLsbD 31 = true) (opened : b.sidebandOpen = true) (runs : b.hmRuns = true)
    (least : 64 ≤ v.toNat % 2 ^ 13) (most : v.toNat % 2 ^ 13 ≤ 4160)
    (bytes : (List.range (v.toNat % 2 ^ 13)).map (fun i => tget (fun _ => 0) (b.mbox .i3c).data i) = bs) :
    64 ≤ bs.length ∧ b.doorbell .i3c v = (b.decideMan {} 1 bs).1.mboxDone .i3c (b.decideMan {} 1 bs).2 := by
  have rung : b.rung .i3c (v.toNat % 2 ^ 13) = b.decideMan {} 1 bs := by
    rw [Block.rung, if_neg (by omega), Nat.min_eq_left most, bytes]
  refine ⟨by rw [← bytes, List.length_map, List.length_range]; exact least, ?_⟩
  rw [Block.doorbell_rings (by decide) go opened runs, rung]

section
variable {b : Block} {bs : List Byte} {h : Header} {lv : Nat}

theorem Block.decideMan_authentic (long : 64 ≤ bs.length) (formed : (headerFrom bs).wellFormed {} = true)
    (auth : b.authenticate {} (headerFrom bs) = .level lv) (bound : (b.ring 62).bound = true) : b.decideMan {} 1 bs =
      match b.sequence 62 (headerFrom bs) with
      | .refuse st => (b.refuseMan {} st, st)
      | .duplicate => (b.repeatMan {} 62 (headerFrom bs), (b.slot (slotKey 62 (headerFrom bs).seq)).status.toNat)
      | .new => b.decideSlot {} 62 (headerFrom bs) lv 1 := by
  unfold Block.decideMan
  simp only [formed, auth, not_true, or_false, if_neg (Nat.not_lt.mpr long)]
  exact if_pos bound

theorem Block.decideMan_unauthentic (long : 64 ≤ bs.length) (formed : (headerFrom bs).wellFormed {} = true)
    (auth : b.authenticate {} (headerFrom bs) = .fail) : b.decideMan {} 1 bs = (b.authFailed, St.authFail) := by
  unfold Block.decideMan
  simp only [formed, auth, not_true, or_false, if_neg (Nat.not_lt.mpr long)]
  rfl

/-- A sideband manifest asks for no discovery. -/
theorem Header.wellFormed_discovery (formed : h.wellFormed {} = true) : h.discovery = false := by
  simp only [Header.wellFormed, Option.isNone_none, if_true, Bool.and_eq_true, Bool.not_eq_true'] at formed
  exact formed.2.2

theorem Block.decideSlot_accepts {r : Fin 64} {p : Nat} (priv : opPriv h.opcode = some p) (level : p ≤ lv) (state : b.stateAllows {} h.opcode h.params = true)
    (discovery : h.discovery = false) (params : paramsOk h.opcode h.params = true) (free : b.conflict r h.opcode h.params = none) :
    b.decideSlot {} r h lv 1 = (b.acceptMan {} r h, St.pending) := by
  unfold Block.decideSlot
  simp only [priv, state, discovery, params, free, if_neg (Nat.not_lt.mpr level), not_true, if_false, Bool.false_eq_true, false_and]

/-- The running manifest that an acceptance adds. -/
def Header.runs (h : Header) (r : Fin 64) : Running :=
  { m := ⟨r, h.seq⟩, opcode := BitVec.ofNat 16 h.opcode, origin := { quiet := h.quiet }, params := h.params }

/-- The block with one more running manifest. -/
def Block.withRunning (b : Block) (x : Running) : Block := { b with mf.running := b.mf.running ++ [x] }

theorem Block.acceptMan_sideband (r : Fin 64) : b.acceptMan {} r h =
    (((b.writeSlot r h .pending St.pending).bumpW 32 Off.mfAccepted 1).withRunning (h.runs r)) := by
  unfold Block.acceptMan
  dsimp only
  rw [Block.push_sideband _ rfl, ite_self]
  rfl

theorem Block.withRunning_kept (b : Block) (x : Running) : Kept [.running] b (b.withRunning x) := by
  apply Kept.of_fields (d := b.withRunning x) (Kept.refl _ b)
    (mf := .inr ⟨.inr rfl, .inr rfl, .inl (List.mem_singleton.2 rfl)⟩) <;> exact .inl rfl

theorem Block.writeSlot_slot (r : Fin 64) (st : SlotState) (status : Nat) : ((b.writeSlot r h st status).slot (slotKey r h.seq)).st = st := by
  have same : (b.writeSlot r h st status).slot (slotKey r h.seq) = _ := tget_tset_same ..
  rw [same]

theorem Block.writeSlot_ring (r : Fin 64) (st : SlotState) (status : Nat) : ((b.writeSlot r h st status).ring r).last = h.seq := by
  have same : (b.writeSlot r h st status).ring r = _ := tget_tset_same ..
  rw [same]

theorem Block.slot_congr {b c : Block} (same : c.mf.slots = b.mf.slots) (k : Nat) : c.slot k = b.slot k := by rw [Block.slot, same, Block.slot]

theorem Block.mboxDone_ring (b : Block) (p : Path) (st n : Nat) : (b.mboxDone p st).ring n = b.ring n := by cases p <;> rfl

end

variable {bs : List Byte} {lv : Nat}

theorem mfMboxDoor_accepts {p : Nat} (go : v.getLsbD 31 = true) (opened : s.blk.sidebandOpen = true) (runs : s.blk.hmRuns = true)
    (least : 64 ≤ v.toNat % 2 ^ 13) (most : v.toNat % 2 ^ 13 ≤ 4160)
    (bytes : (List.range (v.toNat % 2 ^ 13)).map (fun i => tget (fun _ => 0) (s.blk.mbox .i3c).data i) = bs) (formed : (headerFrom bs).wellFormed {} = true)
    (auth : s.blk.authenticate {} (headerFrom bs) = .level lv) (bound : (s.blk.ring 62).bound = true) (new : s.blk.sequence 62 (headerFrom bs) = .new)
    (priv : opPriv (headerFrom bs).opcode = some p) (level : p ≤ lv) (state : s.blk.stateAllows {} (headerFrom bs).opcode (headerFrom bs).params = true)
    (params : paramsOk (headerFrom bs).opcode (headerFrom bs).params = true)
    (free : s.blk.conflict 62 (headerFrom bs).opcode (headerFrom bs).params = none) :
    Does (.mfMboxDoor .i3c v) s [.mf, .slots, .running, .count Off.mfAccepted] fun b =>
      (b.mbox .i3c).st = 2 ∧ (b.mbox .i3c).status = 0x01 ∧ (b.slot (slotKey 62 (headerFrom bs).seq)).st = .pending ∧ (b.ring 62).last = (headerFrom bs).seq
        ∧ (b.mf.running.getLast?.map fun r => (r.m, r.params)) = some (⟨62, (headerFrom bs).seq⟩, (headerFrom bs).params)
        ∧ b.count Off.mfAccepted = min (s.blk.count Off.mfAccepted + 1) (2 ^ 32 - 1) := by
  obtain ⟨long, made⟩ := Block.doorbell_decides go opened runs least most bytes
  have decided : s.blk.decideMan {} 1 bs = (s.blk.acceptMan {} 62 (headerFrom bs), St.pending) := by
    rw [Block.decideMan_authentic long formed auth bound, new]
    exact Block.decideSlot_accepts priv level state (Header.wellFormed_discovery formed) params free
  rw [decided, Block.acceptMan_sideband] at made
  have wrote := s.blk.writeSlot_kept 62 (headerFrom bs) .pending St.pending
  have slot := s.blk.writeSlot_slot (h := headerFrom bs) 62 .pending St.pending
  have ring := s.blk.writeSlot_ring (h := headerFrom bs) 62 .pending St.pending
  refine does_upd_eq exec_mfMboxDoor_upd made (Kept.step (Block.mboxDone_kept ..) (Within.of rfl) (Kept.step (Block.withRunning_kept ..) (Within.of rfl)
    (Kept.step (Block.bumpW_kept ..) (Within.of rfl) (wrote.mono ?_)))) ?_
  · exact Within.cons List.mem_cons_self (Within.single (.inl (by simp)))
  generalize s.blk.writeSlot 62 (headerFrom bs) .pending St.pending = c at *
  refine ⟨by rw [Block.mboxDone_mbox], by rw [Block.mboxDone_mbox]; rfl, ?_, ?_, ?_, ?_⟩
  · rw [Block.slot_congr (Block.mboxDone_slots ..)]; exact slot
  · rw [Block.mboxDone_ring]; exact ring
  · rw [Block.mboxDone_running, show ((c.bumpW 32 Off.mfAccepted 1).withRunning ((headerFrom bs).runs 62)).mf.running = c.mf.running ++ [(headerFrom bs).runs 62] from rfl,
      List.getLast?_concat]
    rfl
  · have old : c.count Off.mfAccepted = s.blk.count Off.mfAccepted := wrote.out (.count Off.mfAccepted) (by simp [Piece.among])
    rw [show ((Block.withRunning ..).mboxDone ..).count Off.mfAccepted = (c.bumpW 32 Off.mfAccepted 1).count Off.mfAccepted from rfl,
      Block.count_bumpW_same, old]

/-- A duplicate that has completed is marked READ_AGAIN, once. -/
def Slot.repeated (x : Slot) : Slot := if x.readAgain then x else x.marked

theorem Slot.repeated_shown (x : Slot) : { x.repeated with stored := [], touched := 0 } = { x with readAgain := true, stored := [], touched := 0 } := by
  unfold Slot.repeated
  split
  case isTrue again => rw [← again]
  case isFalse => exact x.marked_shown

theorem mfMboxDoor_repeats (go : v.getLsbD 31 = true) (opened : s.blk.sidebandOpen = true) (runs : s.blk.hmRuns = true)
    (least : 64 ≤ v.toNat % 2 ^ 13) (most : v.toNat % 2 ^ 13 ≤ 4160)
    (bytes : (List.range (v.toNat % 2 ^ 13)).map (fun i => tget (fun _ => 0) (s.blk.mbox .i3c).data i) = bs) (formed : (headerFrom bs).wellFormed {} = true)
    (auth : s.blk.authenticate {} (headerFrom bs) = .level lv) (bound : (s.blk.ring 62).bound = true) (duplicate : s.blk.sequence 62 (headerFrom bs) = .duplicate)
    (done : (s.blk.slot (slotKey 62 (headerFrom bs).seq)).st = .done) :
    Does (.mfMboxDoor .i3c v) s [.mf, .slots] fun b =>
      { b.slot (slotKey 62 (headerFrom bs).seq) with stored := [], touched := 0 } = { s.blk.slot (slotKey 62 (headerFrom bs).seq) with readAgain := true, stored := [], touched := 0 }
        ∧ (b.mbox .i3c).status = (s.blk.slot (slotKey 62 (headerFrom bs).seq)).status := by
  obtain ⟨long, made⟩ := Block.doorbell_decides go opened runs least most bytes
  have repeated : s.blk.repeatMan {} 62 (headerFrom bs) =
      s.blk.setSlot (slotKey 62 (headerFrom bs).seq) (s.blk.slot (slotKey 62 (headerFrom bs).seq)).repeated := by
    unfold Block.repeatMan
    dsimp only
    rw [Block.push_sideband _ rfl, ite_self]
    exact congrArg (s.blk.setSlot _) (if_pos done)
  rw [Block.decideMan_authentic long formed auth bound, duplicate] at made
  dsimp only at made
  rw [repeated] at made
  refine does_upd_eq exec_mfMboxDoor_upd made (Kept.step (Block.mboxDone_kept ..) (Within.of rfl)
    ((Block.setSlot_kept ..).mono (Within.single (.inl (by simp))))) ⟨?_, ?_⟩
  · rw [Block.slot_congr (Block.mboxDone_slots ..), Block.setSlot_slot_same]
    exact Slot.repeated_shown _
  · rw [Block.mboxDone_mbox]
    exact BitVec.ofNat_toNat ..

theorem mfMboxDoor_unauthentic (go : v.getLsbD 31 = true) (opened : s.blk.sidebandOpen = true) (runs : s.blk.hmRuns = true)
    (least : 64 ≤ v.toNat % 2 ^ 13) (most : v.toNat % 2 ^ 13 ≤ 4160)
    (bytes : (List.range (v.toNat % 2 ^ 13)).map (fun i => tget (fun _ => 0) (s.blk.mbox .i3c).data i) = bs) (formed : (headerFrom bs).wellFormed {} = true)
    (auth : s.blk.authenticate {} (headerFrom bs) = .fail) :
    Does (.mfMboxDoor .i3c v) s [.mf, .count Off.mfAuthFail, .reg Off.mfAlarm, .reg Off.lgAlarm, .events] fun b =>
      (b.mbox .i3c).status = 0x05 ∧ b.mf.slots = s.blk.mf.slots ∧ b.regBit Off.mfAlarm 0 = true
        ∧ b.count Off.mfAuthFail = min (s.blk.count Off.mfAuthFail + 1) (2 ^ 32 - 1) := by
  obtain ⟨long, made⟩ := Block.doorbell_decides go opened runs least most bytes
  rw [Block.decideMan_unauthentic long formed auth] at made
  have failed := s.blk.authFailed_kept
  have burst := Block.authBurst_kept ((s.blk.bumpW 32 Off.mfAuthFail 1).orReg Off.mfAlarm 1)
  refine does_upd_eq exec_mfMboxDoor_upd made (Kept.step (Block.mboxDone_kept ..) (Within.of rfl) (failed.mono (Within.of rfl))) ⟨?_, ?_, ?_, ?_⟩
  · rw [Block.mboxDone_mbox]; rfl
  · exact (Block.mboxDone_slots ..).trans (failed.out .slots (by simp [Piece.among]))
  · have bit : ((s.blk.bumpW 32 Off.mfAuthFail 1).orReg Off.mfAlarm 1).regBit Off.mfAlarm 0 = true := by rw [Block.regBit_orReg]; simp
    rw [Block.regBit_congr ((Block.mboxDone_kept ..).out (.reg Off.mfAlarm) (by simp [Piece.among])), Block.authFailed,
      Block.regBit_congr (burst.out (.reg Off.mfAlarm) (by simp [Piece.among, Off.mfAlarm, Off.lgAlarm]))]
    exact bit
  · rw [show (Block.mboxDone ..).count Off.mfAuthFail = s.blk.authFailed.count Off.mfAuthFail from (Block.mboxDone_kept ..).out (.count Off.mfAuthFail) (by simp [Piece.among]),
      Block.authFailed, show (Block.authBurst _).count Off.mfAuthFail = _ from burst.out (.count Off.mfAuthFail) (by simp [Piece.among])]
    exact Block.count_bumpW_same ..

end

/-- Settles O48: fragments by their buffer, the doorbell by the decision of its bytes. -/
theorem manifestsArrive : Obligations.ManifestsArrive :=
  ⟨fun _ _ _ => manifestFragment_malformed, fun _ _ _ => manifestFragment_buffers, fun _ _ _ => exec_manifestFragment_idle,
    fun _ _ _ _ _ => reassemblyTimeout_late, fun _ _ _ _ => exec_reassemblyTimeout_early,
    fun _ _ _ idle => exec_upd_same exec_mfMboxDoor_upd (Block.doorbell_idle idle), fun _ _ _ => mfMboxDoor_short,
    fun _ _ _ _ _ => mfMboxDoor_accepts, fun _ _ _ _ => mfMboxDoor_repeats, fun _ _ _ => mfMboxDoor_unauthentic⟩

end Sys2Proof.Machine
end

section
/-! SUPPORT. Snapshots (R429 to R431): what a strobe forms, and what writing the image's granules changes. -/

namespace Sys2Proof.Machine

open Sys2Proof

/-! ### The bytes of a snapshot (R430) -/

section
variable {b : Block} {s : State} {d : DumpParams}

theorem Shadow.bytes_length {x : Shadow} (h : x.sels.length = 8) : (Shadow.bytes x).length = 128 := by
  simp [Shadow.bytes, leBytes_length, List.length_flatMap, h]

theorem Block.shadowNow_sels (b : Block) (n : Nat) : (b.shadowNow n).sels.length = 8 := by
  unfold Block.shadowNow
  split <;> simp

theorem Block.takeShadows_sels {n : Nat} (low : n < 69) : (tget (fun _ => ({} : Shadow)) b.takeShadows.tl.shadows n).sels.length = 8 := by
  rw [Block.takeShadows_shadow b ⟨n, low⟩]
  exact b.shadowNow_sels n

theorem DumpParams.blocks_low {n : Nat} (h : n ∈ DumpParams.blocks d) : n < 69 := List.mem_range.mp (List.mem_filter.mp h).1

theorem Block.snapshotBytes_length (b : Block) (d : DumpParams) : (b.takeShadows.snapshotBytes d).length = DumpParams.size d := by
  have each : ∀ n ∈ DumpParams.blocks d, (Shadow.bytes (tget (fun _ => ({} : Shadow)) b.takeShadows.tl.shadows n)).length = 128 := fun n named =>
    Shadow.bytes_length (Block.takeShadows_sels (DumpParams.blocks_low named))
  have body : ((DumpParams.blocks d).flatMap fun n => Shadow.bytes (tget (fun _ => ({} : Shadow)) b.takeShadows.tl.shadows n)).length
      = 128 * (DumpParams.blocks d).length := by
    rw [List.length_flatMap, List.map_congr_left each, List.map_const', List.sum_replicate, smul_eq_mul, mul_comm]
  rw [Block.snapshotBytes, List.length_append, body]
  simp [leBytes_length, DumpParams.size]

/-! ### A strobe (R429, R432) -/

/-- The strobe noted. -/
def Block.boundaryNoted (b : Block) : Block := { b with tl.periodAt := b.ck.tide }

theorem Kept.withTl (b : Block) (t : Tallies) : Kept [.tl] b { b with tl := t } := by
  apply Kept.of_fields (d := { b with tl := t }) (Kept.refl _ b) (tl := .inr List.mem_cons_self) <;> exact .inl rfl

theorem Block.boundaryNoted_kept (b : Block) : Kept [.tl] b b.boundaryNoted := Kept.withTl b _

/-- The step of SNAPSHOT_STROBE on the block. -/
def Block.strobeStep (b : Block) : Block :=
  if b.dumpRuns ∧ b.crossed b.tl.period b.tl.periodAt then b.boundaryNoted.adoptDump.strobe else b

theorem exec_snapshotStrobe_upd : exec .snapshotStrobe s = s.upd Block.strobeStep := rfl

theorem Block.strobeStep_at (runs : b.dumpRuns = true) (crossed : b.crossed b.tl.period b.tl.periodAt = true) :
    b.strobeStep = b.boundaryNoted.adoptDump.strobe := if_pos ⟨runs, crossed⟩

theorem Block.strobeStep_configured (runs : b.dumpRuns = true) (crossed : b.crossed b.tl.period b.tl.periodAt = true) (none_ : b.tl.nextCfg = none)
    (cfg : b.tl.cfg = some d) (on : d.mode ≠ 0) :
    b.strobeStep = if b.tl.busy then b.boundaryNoted.skipStrobe else if d.mode = 2 then b.boundaryNoted.remoteSnapshot d else b.boundaryNoted.beginSnapshot d := by
  have adopted : b.boundaryNoted.adoptDump = b.boundaryNoted := by
    rw [Block.adoptDump, show b.boundaryNoted.tl.nextCfg = none from none_]
  rw [Block.strobeStep_at runs crossed, adopted, Block.strobe, show b.boundaryNoted.tl.cfg = some d from cfg]
  exact if_neg on

theorem Block.queueDump_local (near : b.tl.imageRemote = false) : b.queueDump.tl = { b.tl with left := b.tl.imageGranules } := by
  rw [Block.queueDump, if_neg (by simp [near])]
  exact Block.each_keeps (·.tl) Block.dumpWaits Block.dumpWaits_tl ..

theorem Block.beginSnapshot_tl (near : d.mode = 1) :
    (b.beginSnapshot d).tl = { (b.snapshotFormed d).tl with left := (b.snapshotFormed d).tl.imageGranules } := by
  rw [Block.beginSnapshot_eq]
  exact Block.queueDump_local (by rw [show (b.snapshotFormed d).tl.imageRemote = (d.mode == 2) from rfl, near]; rfl)

theorem snapshotStrobe_begins (runs : s.blk.dumpRuns = true) (crossed : s.blk.crossed s.blk.tl.period s.blk.tl.periodAt = true)
    (none_ : s.blk.tl.nextCfg = none) (cfg : s.blk.tl.cfg = some d) (near : d.mode = 1) (idle : s.blk.tl.busy = false) :
    Does .snapshotStrobe s [.chans, .tl] fun b =>
      b.tl.busy = true ∧ b.tl.left = b.tl.imageGranules ∧ b.tl.seqNext = s.blk.tl.seqNext + 1 ∧ b.tl.strobe = s.blk.ck.tide ∧ b.tl.skips = 0
        ∧ (∀ n : Fin 69, tget (fun _ => {}) b.tl.shadows n = s.blk.shadowNow n) ∧ b.tl.image.length = DumpParams.size d := by
  have made : s.blk.strobeStep = s.blk.boundaryNoted.beginSnapshot d := by
    rw [Block.strobeStep_configured runs crossed none_ cfg (by rw [near]; decide), if_neg (by simp [idle]), if_neg (by rw [near]; decide)]
  refine does_upd_eq exec_snapshotStrobe_upd made
    (Kept.step (Block.beginSnapshot_kept ..) (Within.of rfl) (s.blk.boundaryNoted_kept.mono (Within.of rfl))) ?_
  rw [Block.beginSnapshot_tl near]
  exact ⟨rfl, rfl, rfl, rfl, rfl, fun n => Block.takeShadows_shadow _ n, Block.snapshotBytes_length _ d⟩

theorem Block.tlSkipped_skipStrobe : b.skipStrobe.regField Off.tlSkipped 0 16 = min (b.regField Off.tlSkipped 0 16 + 1) 0xFFFF := by
  have word : b.skipStrobe.reg Off.tlSkipped = BitVec.ofNat 32 (min (b.regField Off.tlSkipped 0 16 + 1) 0xFFFF) :=
    (Block.reg_setReg_other _ _ (by decide)).trans (Block.reg_setReg_same ..)
  have low : min (b.regField Off.tlSkipped 0 16 + 1) 0xFFFF < 2 ^ 16 := by omega
  rw [Block.regField, word, BitVec.toNat_ofNat]
  generalize min (b.regField Off.tlSkipped 0 16 + 1) 0xFFFF = n at low
  omega

theorem snapshotStrobe_skips (runs : s.blk.dumpRuns = true) (crossed : s.blk.crossed s.blk.tl.period s.blk.tl.periodAt = true)
    (none_ : s.blk.tl.nextCfg = none) (cfg : s.blk.tl.cfg = some d) (on : d.mode ≠ 0) (busy : s.blk.tl.busy = true) :
    Does .snapshotStrobe s [.tl, .reg Off.tlSkipped, .reg Off.tlAlarm] fun b =>
      b.regField Off.tlSkipped 0 16 = min (s.blk.regField Off.tlSkipped 0 16 + 1) 0xFFFF ∧ b.regBit Off.tlAlarm 0 = true ∧ b.tl.image = s.blk.tl.image := by
  refine does_upd_eq exec_snapshotStrobe_upd ((Block.strobeStep_configured runs crossed none_ cfg on).trans (if_pos busy))
    (Kept.step (Block.skipStrobe_kept ..) (Within.of rfl) (s.blk.boundaryNoted_kept.mono (Within.of rfl))) ⟨Block.tlSkipped_skipStrobe, ?_, rfl⟩
  exact (Block.regBit_orReg ..).trans (by simp)

theorem Block.adoptDump_kept_tl (b : Block) : Kept [.tl] b b.adoptDump := by
  unfold Block.adoptDump
  split
  · exact Kept.refl ..
  · exact Kept.withTl b _

theorem snapshotStrobe_off (runs : s.blk.dumpRuns = true) (crossed : s.blk.crossed s.blk.tl.period s.blk.tl.periodAt = true)
    (next : s.blk.tl.nextCfg = some d) (off : d.mode = 0) :
    Does .snapshotStrobe s [.tl] fun b =>
      b.tl.cfg = some d ∧ b.tl.nextCfg = none ∧ b.tl.shadows = s.blk.tl.shadows ∧ b.tl.busy = s.blk.tl.busy := by
  have adopted : s.blk.boundaryNoted.adoptDump = { s.blk.boundaryNoted with
      tl.cfg := some d, tl.nextCfg := none, tl.pos := 0, tl.seqNext := 0, tl.noRouteLogged := false, tl.skips := 0 } := by
    rw [Block.adoptDump, show s.blk.boundaryNoted.tl.nextCfg = some d from next]
  have made : s.blk.strobeStep = s.blk.boundaryNoted.adoptDump := by
    rw [Block.strobeStep_at runs crossed, adopted]
    exact if_pos off
  refine does_upd_eq exec_snapshotStrobe_upd made (s.blk.boundaryNoted_kept.trans (Block.adoptDump_kept_tl _)) ?_
  rw [adopted]
  exact ⟨rfl, rfl, rfl, rfl⟩

theorem Block.crossed_zero (t : Tide) : b.crossed 0 t = false := by simp [Block.crossed]

theorem snapshotStrobe_idle (h : s.blk.dumpRuns = false ∨ s.blk.crossed s.blk.tl.period s.blk.tl.periodAt = false
      ∨ (s.blk.tl.nextCfg = none ∧ s.blk.tl.cfg = none)) : exec .snapshotStrobe s = .next s := by
  refine exec_upd_same exec_snapshotStrobe_upd (if_neg ?_)
  rintro ⟨runs, crossed⟩
  rcases h with still | between | ⟨none_, unset⟩
  · exact absurd runs (by simp [still])
  · exact absurd crossed (by simp [between])
  · have period : s.blk.tl.period = 0 := by rw [Tallies.period, none_, unset]
    exact absurd crossed (by simp [period, Block.crossed_zero])

end

/-! ### The granules of a local image (R431) -/

section
variable {b c : Block} {s : State} {a g n : Nat}

theorem pieceChan_low (p : Nat) : pieceChan p < 64 := by
  have part (x : Nat) : x % 64 < 2 ^ 6 := Nat.mod_lt _ (by decide)
  unfold pieceChan
  exact Nat.xor_lt_two_pow (n := 6) (Nat.xor_lt_two_pow (part _) (part _))
    (Nat.xor_lt_two_pow (Nat.xor_lt_two_pow (part _) (part _)) (by omega))

theorem tget_dumpWrite (bs : List Byte) : ∀ (t : Tbl Byte) (at_ : Nat), tget (fun _ => 0) (dumpWrite t at_ bs) a
    = if at_ ≤ a ∧ a < at_ + bs.length then bs.getD (a - at_) 0 else tget (fun _ => 0) t a := by
  induction bs with
  | nil => intro t at_; rw [dumpWrite, if_neg (by simp)]
  | cons v vs ih =>
    intro t at_
    rw [dumpWrite, ih, tget_tset, List.length_cons]
    by_cases first : at_ = a
    · subst first
      rw [if_neg (by omega), if_pos rfl, if_pos (by omega), Nat.sub_self]
      rfl
    · by_cases later : at_ + 1 ≤ a ∧ a < at_ + 1 + vs.length
      · obtain ⟨k, rfl⟩ : ∃ k, a = at_ + 1 + k := ⟨a - (at_ + 1), by omega⟩
        rw [if_pos later, if_pos (by omega), show at_ + 1 + k - (at_ + 1) = k by omega, show at_ + 1 + k - at_ = k + 1 by omega, List.getD_cons_succ]
      · rw [if_neg later, if_neg first, if_neg (by omega)]

/-- The byte of the image that a place of the dump area takes. -/
def Tallies.dumpByte (t : Tallies) (a : Nat) : Byte := t.image.getD (dumpBase + a - t.imageAt) 0

theorem Block.dumpGranule_other (beside : g ≠ (dumpBase + a) / 64) (inside : dumpBase ≤ g * 64) :
    tget (fun _ => 0) (b.dumpGranule g).tl.dump a = tget (fun _ => 0) b.tl.dump a := by
  refine (tget_dumpWrite ..).trans (if_neg ?_)
  rw [List.length_take]
  omega

theorem Block.dumpGranule_same (whole : b.tl.imageAt % 64 = 0) (inImage : (dumpBase + a) / 64 ∈ b.tl.imageGranules) (placed : dumpBase ≤ b.tl.imageAt) :
    tget (fun _ => 0) (b.dumpGranule ((dumpBase + a) / 64)).tl.dump a = b.tl.dumpByte a := by
  obtain ⟨i, low, at_⟩ := List.mem_map.mp inImage
  have low := List.mem_range.mp low
  replace at_ : b.tl.imageAt / 64 + i = (dumpBase + a) / 64 := at_
  have long : ((b.tl.image.drop ((dumpBase + a) / 64 * 64 - b.tl.imageAt)).take 64).length = 64 := by
    rw [List.length_take, List.length_drop]
    omega
  refine (tget_dumpWrite ..).trans ((if_pos (by omega)).trans ?_)
  rw [Tallies.dumpByte, List.getD_eq_getElem?_getD, List.getD_eq_getElem?_getD, List.getElem?_take_of_lt (by omega), List.getElem?_drop]
  exact congrArg (fun k => (b.tl.image[k]?).getD 0) (by omega)

theorem Block.berth_setBerth (m : Nat) (x : Berth) : (b.setBerth m x).berth n = if m = n then x else b.berth n := tget_tset ..

theorem Block.setBerth_scrubs {m : Nat} {x : Berth} (same : x.st = (b.berth m).st) : (b.setBerth m x).scrubs n = b.scrubs n := by
  rw [Block.scrubs, Block.berth_setBerth, Block.scrubs]
  split
  case isTrue e => subst e; rw [same]
  case isFalse => rfl

theorem Block.forget_scrubs (m gran : Nat) : (b.forget m gran).scrubs n = b.scrubs n := by
  have dropped : (b.dropRepeat m gran).1.scrubs n = b.scrubs n := by
    unfold Block.dropRepeat
    dsimp only
    split
    · exact Block.setBerth_scrubs rfl
    · rfl
  unfold Block.forget
  generalize (b.dropRepeat m gran).1 = c at dropped ⊢
  dsimp only
  split
  · refine (Block.setBerth_scrubs ?_).trans dropped
    rfl
  · exact dropped


/-- The tallies without what a bulk of commands counts. -/
def Tallies.uncounted (t : Tallies) : Tallies := { t with blocks := [], bytes := [] }

theorem Block.addCount_uncounted (blk i k : Nat) : (b.addCount blk i k).tl.uncounted = b.tl.uncounted := by
  unfold Block.addCount
  dsimp only
  split <;> rfl

theorem Block.tally_uncounted (blk ev : Nat) (fs : List Nat) (k : Nat) : (b.tally blk ev fs k).tl.uncounted = b.tl.uncounted := by
  unfold Block.tally
  split
  · rfl
  · refine Block.each_keeps (·.tl.uncounted) _ (fun c i => ?_) ..
    dsimp only
    split
    · exact Block.addCount_uncounted ..
    · rfl

theorem Block.bump_uncounted (o k : Nat) : (b.bump o k).tl.uncounted = b.tl.uncounted :=
  congrArg Tallies.uncounted ((b.bump_kept o k).out .tl (by simp [Piece.among]))

theorem Block.portBytes_uncounted (port k : Nat) : (b.portBytes port k).tl.uncounted = b.tl.uncounted := rfl

theorem Block.countBulk_uncounted (wr : Bool) (k : Nat) : (b.countBulk n wr k).tl.uncounted = b.tl.uncounted := by
  unfold Block.countBulk
  simp only [Block.portBytes_uncounted, Block.tally_uncounted, Block.bump_uncounted]
  exact congrArg Tallies.uncounted ((Block.modChan_kept ..).out .tl (by simp [Piece.among]))

theorem Block.noteBg_uncounted (k : ASrc) (slots : Nat) : (b.noteBg n k slots).tl.uncounted = b.tl.uncounted :=
  congrArg Tallies.uncounted ((b.noteBg_kept n k slots).out .tl (by simp [Piece.among]))

theorem Block.scrubs_congr (same : c.berth n = b.berth n) : c.scrubs n = b.scrubs n := by rw [Block.scrubs, same, Block.scrubs]

/-- A granule of the dump area written into a block that has already forgotten its old copy. -/
def Block.dumpNoted (c : Block) (b : Block) (g : Nat) : Block :=
  { c with
    prot.own := tset (fun _ => ({} : OwnNote)) c.prot.own g { written := true }
    tl.dump := dumpWrite b.tl.dump (g * 64 - dumpBase) ((b.tl.image.drop (g * 64 - b.tl.imageAt)).take 64)
    tl.left := b.tl.left.filter (· != g) }

theorem Block.dumpNoted_berth : (c.dumpNoted b g).berth n = c.berth n := rfl

theorem Block.dumpGranule_scrubs : (b.dumpGranule g).scrubs n = b.scrubs n :=
  (Block.scrubs_congr (Block.dumpNoted_berth (c := b.forget (chanOf g) g) (b := b) (g := g))).trans (b.forget_scrubs (chanOf g) g)

/-- The granules of a local image that a channel writes, and what it counts of them. -/
def Block.dumpOn (b : Block) (n : Nat) (gs : List Nat) : Block :=
  ((b.each gs Block.dumpGranule).countBulk n true gs.length).noteBg n .dump (gs.length + 37 * ((gs.length + 31) / 32))

theorem Block.dumpOn_uncounted (gs : List Nat) : (b.dumpOn n gs).tl.uncounted = (b.each gs Block.dumpGranule).tl.uncounted :=
  (Block.noteBg_uncounted ..).trans (Block.countBulk_uncounted ..)

theorem Block.dumpOn_scrubs (gs : List Nat) (m : Nat) : (b.dumpOn n gs).scrubs m = b.scrubs m := by
  have noted := (Block.noteBg_kept ((b.each gs Block.dumpGranule).countBulk n true gs.length) n .dump (gs.length + 37 * ((gs.length + 31) / 32))).out (.berth m)
    (by simp [Piece.among])
  have counted := ((b.each gs Block.dumpGranule).countBulk_kept n true gs.length).out (.berth m) (by simp [Piece.among])
  exact (Block.scrubs_congr (noted.trans counted)).trans (Block.each_keeps (·.scrubs m) _ (fun _ _ => Block.dumpGranule_scrubs) ..)

theorem Block.dumpRest_eq : b.dumpRest n = if b.dumpLeft n = [] ∨ b.scrubs n = false then b else b.dumpOn n (b.dumpLeft n) := by
  unfold Block.dumpRest
  split
  next none_ => rw [if_pos (.inl none_)]
  next left some_ =>
    cases on : b.scrubs n
    case false => rw [if_neg (by simp), if_pos (.inr rfl)]
    case true => rw [if_pos rfl, if_neg (by simpa using some_)]; rfl

/-! ### The whole image (R431) -/

/-- A local image placed in the dump area, with none but its own granules left to write. -/
structure Block.ImagePlaced (b : Block) : Prop where
  whole : b.tl.imageAt % 64 = 0
  placed : dumpBase ≤ b.tl.imageAt
  inImage : ∀ g ∈ b.tl.left, g ∈ b.tl.imageGranules

theorem Block.ImagePlaced.inside (h : b.ImagePlaced) (left : g ∈ b.tl.left) : dumpBase ≤ g * 64 := by
  obtain ⟨i, -, at_⟩ := List.mem_map.mp (h.inImage g left)
  replace at_ : b.tl.imageAt / 64 + i = g := at_
  have whole := h.whole
  have placed := h.placed
  omega

/-- A block on the way through its image: the granules written so far, and no others, hold it. -/
structure Block.Dumping (b c : Block) : Prop where
  image : c.tl.image = b.tl.image
  imageAt : c.tl.imageAt = b.tl.imageAt
  busy : c.tl.busy = b.tl.busy
  imageRemote : c.tl.imageRemote = b.tl.imageRemote
  left : ∀ g ∈ c.tl.left, g ∈ b.tl.left
  scrubs : ∀ n, c.scrubs n = b.scrubs n
  dump : ∀ a, tget (fun _ => 0) c.tl.dump a
    = if (dumpBase + a) / 64 ∈ b.tl.left ∧ (dumpBase + a) / 64 ∉ c.tl.left then b.tl.dumpByte a else tget (fun _ => 0) b.tl.dump a

theorem Block.Dumping.refl (b : Block) : b.Dumping b := ⟨rfl, rfl, rfl, rfl, fun _ h => h, fun _ => rfl, fun _ => (if_neg fun h => h.2 h.1).symm⟩

theorem Block.Dumping.imagePlaced (h : b.Dumping c) (placed : b.ImagePlaced) : c.ImagePlaced where
  whole := by rw [h.imageAt, placed.whole]
  placed := by rw [h.imageAt]; exact placed.placed
  inImage := fun g left => by rw [Tallies.imageGranules, h.image, h.imageAt]; exact placed.inImage g (h.left g left)

theorem Block.Dumping.uncounted {d : Block} (h : b.Dumping c) (same : d.tl.uncounted = c.tl.uncounted) (scrubs : ∀ n, d.scrubs n = c.scrubs n) :
    b.Dumping d := by
  have left : d.tl.left = c.tl.left := congrArg (·.left) same
  refine ⟨(congrArg (·.image) same).trans h.image, (congrArg (·.imageAt) same).trans h.imageAt, (congrArg (·.busy) same).trans h.busy,
    (congrArg (·.imageRemote) same).trans h.imageRemote, left ▸ h.left, fun n => (scrubs n).trans (h.scrubs n), fun a => ?_⟩
  rw [left, show d.tl.dump = c.tl.dump from congrArg (·.dump) same, h.dump]

theorem Block.dumpGranule_left : (b.dumpGranule g).tl.left = b.tl.left.filter (· != g) := rfl

theorem Block.dumpGranule_image : (b.dumpGranule g).tl.image = b.tl.image ∧ (b.dumpGranule g).tl.imageAt = b.tl.imageAt
    ∧ (b.dumpGranule g).tl.busy = b.tl.busy ∧ (b.dumpGranule g).tl.imageRemote = b.tl.imageRemote := by
  have same : (b.wroteOwn g).tl = b.tl := (b.wroteOwn_kept g).out .tl (by simp [Piece.among])
  exact ⟨congrArg (·.image) same, congrArg (·.imageAt) same, congrArg (·.busy) same, congrArg (·.imageRemote) same⟩

theorem Block.Dumping.granule (h : b.Dumping c) (placed : b.ImagePlaced) (named : g ∈ b.tl.left) : b.Dumping (c.dumpGranule g) := by
  obtain ⟨image, imageAt, busy, remote⟩ := c.dumpGranule_image (g := g)
  refine ⟨image.trans h.image, imageAt.trans h.imageAt, busy.trans h.busy, remote.trans h.imageRemote, fun x kept => ?_,
    fun n => Block.dumpGranule_scrubs.trans (h.scrubs n), fun a => ?_⟩
  · rw [Block.dumpGranule_left] at kept
    exact h.left x (List.mem_filter.mp kept).1
  · simp only [Block.dumpGranule_left, List.mem_filter]
    by_cases same : g = (dumpBase + a) / 64
    · subst same
      have byte : c.tl.dumpByte a = b.tl.dumpByte a := by rw [Tallies.dumpByte, Tallies.dumpByte, h.image, h.imageAt]
      have whole : c.tl.imageAt % 64 = 0 := by rw [h.imageAt, placed.whole]
      have inImage : (dumpBase + a) / 64 ∈ c.tl.imageGranules := by
        rw [Tallies.imageGranules, h.image, h.imageAt]
        exact placed.inImage _ named
      rw [Block.dumpGranule_same whole inImage (by rw [h.imageAt]; exact placed.placed), byte, if_pos ⟨named, by simp⟩]
    · have still : ((dumpBase + a) / 64 != g) = true := by simpa using Ne.symm same
      rw [Block.dumpGranule_other same (placed.inside named), h.dump]
      simp only [still, and_true]

theorem Block.Dumping.granules {gs : List Nat} (h : b.Dumping c) (placed : b.ImagePlaced) (named : ∀ g ∈ gs, g ∈ b.tl.left) :
    b.Dumping (c.each gs Block.dumpGranule) :=
  List.foldlRecOn (motive := b.Dumping) gs Block.dumpGranule h fun _ so g listed => so.granule placed (named g listed)

theorem Block.mem_dumpLeft : g ∈ b.dumpLeft n ↔ b.tl.busy = true ∧ b.tl.imageRemote = false ∧ g ∈ b.tl.left ∧ chanOf g = n := by
  cases busy : b.tl.busy <;> cases far : b.tl.imageRemote <;> simp [Block.dumpLeft, busy, far]

theorem Block.Dumping.rest (h : b.Dumping c) (placed : b.ImagePlaced) (n : Nat) : b.Dumping (c.dumpRest n) := by
  rw [Block.dumpRest_eq]
  split
  case isTrue => exact h
  case isFalse =>
    have named : ∀ g ∈ c.dumpLeft n, g ∈ b.tl.left := fun g listed => h.left g (Block.mem_dumpLeft.mp listed).2.2.1
    exact (h.granules placed named).uncounted (Block.dumpOn_uncounted _) fun m =>
      (Block.dumpOn_scrubs ..).trans (Block.each_keeps (·.scrubs m) _ (fun _ _ => Block.dumpGranule_scrubs) ..).symm

theorem Block.Dumping.rests {ns : List Nat} (h : b.Dumping c) (placed : b.ImagePlaced) : b.Dumping (c.each ns Block.dumpRest) :=
  List.foldlRecOn (motive := b.Dumping) ns Block.dumpRest h fun _ so n _ => so.rest placed n

theorem Block.each_dumpGranule_left (gs : List Nat) (b : Block) : (b.each gs Block.dumpGranule).tl.left = b.tl.left.filter fun g => !gs.contains g := by
  induction gs generalizing b with
  | nil => exact (List.filter_eq_self.mpr (by simp)).symm
  | cons x xs ih =>
    rw [show b.each (x :: xs) Block.dumpGranule = (b.dumpGranule x).each xs Block.dumpGranule from rfl, ih, Block.dumpGranule_left, List.filter_filter]
    refine List.filter_congr fun g _ => ?_
    rw [List.contains_cons, Bool.not_or, Bool.and_comm]
    rfl

/-- The step of a channel that is written takes its granules off those that wait. -/
theorem Block.dumpRest_gone (near : b.tl.busy = true ∧ b.tl.imageRemote = false) (on : b.scrubs (chanOf g) = true) :
    g ∉ (b.dumpRest (chanOf g)).tl.left := by
  obtain ⟨busy, local_⟩ := near
  rw [Block.dumpRest_eq]
  by_cases waits : g ∈ b.tl.left
  · have listed : g ∈ b.dumpLeft (chanOf g) := Block.mem_dumpLeft.mpr ⟨busy, local_, waits, rfl⟩
    rw [if_neg (by rintro (none_ | off) <;> [(rw [none_] at listed; cases listed); simp [on] at off])]
    rw [show (b.dumpOn (chanOf g) (b.dumpLeft (chanOf g))).tl.left = _ from congrArg (·.left) (Block.dumpOn_uncounted _),
      show ∀ t : Tallies, t.uncounted.left = t.left from fun _ => rfl, Block.each_dumpGranule_left, List.mem_filter]
    simp [listed]
  · split
    case isTrue => exact waits
    case isFalse =>
      rw [show (b.dumpOn (chanOf g) (b.dumpLeft (chanOf g))).tl.left = _ from congrArg (·.left) (Block.dumpOn_uncounted _),
        show ∀ t : Tallies, t.uncounted.left = t.left from fun _ => rfl, Block.each_dumpGranule_left, List.mem_filter]
      exact fun kept => waits kept.1

/-- Of the granules that wait, those of a channel that is written are all written. -/
theorem Block.rests_written (placed : b.ImagePlaced) (near : b.tl.busy = true ∧ b.tl.imageRemote = false) (on : b.scrubs (chanOf g) = true) :
    g ∉ (b.each (List.range 64) Block.dumpRest).tl.left := by
  obtain ⟨before, after, split⟩ := List.append_of_mem (List.mem_range.mpr (pieceChan_low (pieceOf g)))
  have so : b.Dumping (b.each before Block.dumpRest) := (Block.Dumping.refl b).rests placed
  have late : b.each (List.range 64) Block.dumpRest = ((b.each before Block.dumpRest).dumpRest (chanOf g)).each after Block.dumpRest := by
    rw [split, Block.each, List.foldl_append, List.foldl_cons]
    rfl
  have gone := Block.dumpRest_gone (b := b.each before Block.dumpRest) (g := g) ⟨so.busy.trans near.1, so.imageRemote.trans near.2⟩ ((so.scrubs _).trans on)
  have then_ := (so.rest placed (chanOf g)).imagePlaced placed
  rw [late]
  exact fun left => gone (((Block.Dumping.refl _).rests then_).left g left)

/-! ### SNAPSHOT_DONE -/

/-- The engine idle again. -/
def Block.dumpEnded (c : Block) : Block := { c with tl.busy := false, tl.left := [], tl.seqLast := BitVec.ofNat 32 (leAt c.tl.image 4 4) }

theorem exec_snapshotDone_upd : exec .snapshotDone s = s.upd Block.snapshotDone := rfl

theorem Block.snapshotDone_waits (h : b.tl.busy = false ∨ b.dumpRuns = false ∨ (b.tl.imageRemote = false ∧ (List.range 64).all b.dumpFits = false)) :
    b.snapshotDone = b := by
  unfold Block.snapshotDone
  refine if_pos ?_
  rcases h with idle | still | ⟨near, waits⟩
  · simp [idle]
  · simp [still]
  · simp [near, waits]

theorem Block.snapshotDone_local (busy : b.tl.busy = true) (runs : b.dumpRuns = true) (near : b.tl.imageRemote = false)
    (fits : (List.range 64).all b.dumpFits = true) : b.snapshotDone = (b.each (List.range 64) Block.dumpRest).dumpEnded := by
  unfold Block.snapshotDone
  exact if_neg (by simp [busy, runs, near, fits])

theorem Block.dumpRest_remote (far : b.tl.imageRemote = true) : b.dumpRest n = b := by
  rw [Block.dumpRest_eq]
  exact if_pos (.inl (by simp [Block.dumpLeft, far]))

theorem Block.snapshotDone_remote (busy : b.tl.busy = true) (runs : b.dumpRuns = true) (far : b.tl.imageRemote = true)
    (sent : (b.qy.ins.any fun i => i.level == 8) = false) : b.snapshotDone = b.dumpEnded := by
  have same : b.each (List.range 64) Block.dumpRest = b :=
    List.foldlRecOn (motive := fun c => c = b) _ _ rfl fun c e n _ => by rw [e]; exact Block.dumpRest_remote far
  unfold Block.snapshotDone
  refine (if_neg (by simp [busy, runs, far, sent])).trans ?_
  rw [same]
  rfl

theorem Block.dumpEnded_seqLast : b.dumpEnded.tl.seqLast.toNat = leAt b.tl.image 4 4 :=
  Nat.mod_eq_of_lt (leAt_lt ..)

theorem snapshotDone_remote (busy : s.blk.tl.busy = true) (runs : s.blk.dumpRuns = true) (far : s.blk.tl.imageRemote = true)
    (sent : (s.blk.qy.ins.any fun i => i.level == 8) = false) :
    Does .snapshotDone s [.tl] fun b => b.tl.busy = false ∧ b.tl.seqLast.toNat = leAt s.blk.tl.image 4 4 ∧ b.tl.dump = s.blk.tl.dump :=
  does_upd_eq exec_snapshotDone_upd (Block.snapshotDone_remote busy runs far sent) (Kept.withTl ..) ⟨rfl, Block.dumpEnded_seqLast, rfl⟩

theorem snapshotDone_local (busy : s.blk.tl.busy = true) (runs : s.blk.dumpRuns = true) (near : s.blk.tl.imageRemote = false)
    (placed : dumpBase ≤ s.blk.tl.imageAt) (whole : s.blk.tl.imageAt % 64 = 0) (inImage : ∀ g ∈ s.blk.tl.left, g ∈ s.blk.tl.imageGranules)
    (fits : (List.range 64).all s.blk.dumpFits = true) :
    Does .snapshotDone s [.berths, .chans, .cnt, .prot, .regs, .tl] fun b =>
      b.tl.busy = false ∧ b.tl.left = [] ∧ b.tl.seqLast.toNat = leAt s.blk.tl.image 4 4
        ∧ (∀ a : Nat, s.blk.tl.left.contains ((dumpBase + a) / 64) = false → tget (fun _ => 0) b.tl.dump a = tget (fun _ => 0) s.blk.tl.dump a)
        ∧ ∀ i : Fin 8896, s.blk.tl.left.contains ((s.blk.tl.imageAt + i.val) / 64) = true →
          ((s.blk.berth (chanOf ((s.blk.tl.imageAt + i.val) / 64))).st = .ready ∨ (s.blk.berth (chanOf ((s.blk.tl.imageAt + i.val) / 64))).st = .throttled) →
          tget (fun _ => 0) b.tl.dump (s.blk.tl.imageAt - dumpBase + i.val) = s.blk.tl.image.getD i.val 0 := by
  have image : s.blk.ImagePlaced := ⟨whole, placed, inImage⟩
  have so : s.blk.Dumping (s.blk.each (List.range 64) Block.dumpRest) := (Block.Dumping.refl _).rests image
  have gone {g : Nat} := Block.rests_written (b := s.blk) (g := g) image ⟨busy, near⟩
  have made := Block.snapshotDone_local busy runs near fits
  refine does_upd_eq exec_snapshotDone_upd made (made ▸ s.blk.snapshotDone_kept) ?_
  generalize s.blk.each (List.range 64) Block.dumpRest = c at so gone
  refine ⟨rfl, rfl, ?_, fun a unnamed => ?_, fun i named serves => ?_⟩
  · rw [Block.dumpEnded_seqLast, so.image]
  · refine (so.dump a).trans (if_neg fun h => ?_)
    exact absurd unnamed (by simpa using h.1)
  · have at_ : dumpBase + (s.blk.tl.imageAt - dumpBase + i.val) = s.blk.tl.imageAt + i.val := by omega
    have on : s.blk.scrubs (chanOf ((s.blk.tl.imageAt + i.val) / 64)) = true := by simpa [Block.scrubs] using serves
    refine (so.dump _).trans ?_
    rw [Tallies.dumpByte, at_, if_pos ⟨by simpa using named, gone on⟩, Nat.add_sub_cancel_left]

theorem snapshotDone_idle (h : s.blk.tl.busy = false ∨ s.blk.dumpRuns = false ∨ (s.blk.tl.imageRemote = false ∧ (List.range 64).all s.blk.dumpFits = false)) :
    exec .snapshotDone s = .next s := exec_upd_same exec_snapshotDone_upd (Block.snapshotDone_waits h)

end

/-! ### Bandwidth windows (R428) -/

section
variable {b : Block} {s : State}

/-- The bytes of a port that its window counts. -/
def Block.windowBytes (b : Block) (p : Nat) : Nat :=
  if b.domOn (portDom p) ∧ ¬ b.tl.winOff.contains (portDom p) then tget (fun _ => 0) b.tl.bytes p else 0

/-- The step of BW_WINDOW_END on the block. -/
def Block.windowStep (b : Block) : Block :=
  if b.live ∧ b.coreRuns ∧ b.domOn tlDom ∧ b.crossed (max 1 b.tl.winUs.toNat * usTicks) b.tl.winAt then b.windowEnd else b

theorem exec_bwWindowEnd_upd : exec .bwWindowEnd s = s.upd Block.windowStep := rfl

theorem bwWindowEnd_between (h : s.blk.crossed (max 1 s.blk.tl.winUs.toNat * usTicks) s.blk.tl.winAt = false) : exec .bwWindowEnd s = .next s :=
  exec_upd_same exec_bwWindowEnd_upd (if_neg fun ⟨_, _, _, crossed⟩ => absurd crossed (by simp [h]))

/-- A table of the ports' values that leaves out the zeros reads as the values. -/
theorem tget_nonzero (f : Nat → Nat) (ns : List Nat) {k : Nat} (h : k ∈ ns) :
    tget (fun _ => 0) ((ns.map fun n => (n, f n)).filter fun e => e.2 != 0) k = f k := by
  have whole (ns : List Nat) : tget (fun _ => 0) ((ns.map fun n => (n, f n)).filter fun e => e.2 != 0) k = if k ∈ ns then f k else 0 := by
    induction ns with
    | nil => rfl
    | cons n ns ih =>
      by_cases zero : f n = 0
      · by_cases same : k = n
        · subst same; simp_all
        · simp_all
      · by_cases same : n = k
        · subst same; simp [tget, zero]
        · simp [tget, zero, same, Ne.symm same, ih]
  rw [whole, if_pos h]

theorem bwWindowEnd_latches (live : s.blk.live = true) (core : s.blk.coreRuns = true) (on : s.blk.domOn tlDom = true)
    (crossed : s.blk.crossed (max 1 s.blk.tl.winUs.toNat * usTicks) s.blk.tl.winAt = true) :
    Does .bwWindowEnd s [.tl] fun b =>
      b.tl.bytes = [] ∧ ∀ p : Fin 130, s.blk.domOn (portDom p) = true → s.blk.tl.winOff.contains (portDom p) = false →
        tget (fun _ => 0) b.tl.last p = tget (fun _ => 0) s.blk.tl.bytes p
          ∧ tget (fun _ => 0) b.tl.peak p = max (tget (fun _ => 0) s.blk.tl.peak p) (tget (fun _ => 0) s.blk.tl.bytes p / max 1 s.blk.tl.winUs.toNat) := by
  refine does_upd_eq exec_bwWindowEnd_upd (if_pos ⟨live, core, on, crossed⟩) (Kept.withTl ..) ⟨rfl, fun p powered counted => ?_⟩
  have listed : p.val ∈ List.range 130 := List.mem_range.mpr p.isLt
  have bytes : s.blk.windowBytes p = tget (fun _ => 0) s.blk.tl.bytes p := if_pos ⟨powered, by rw [counted]; decide⟩
  exact ⟨(tget_nonzero s.blk.windowBytes _ listed).trans bytes,
    (tget_nonzero (fun p => max (tget (fun _ => 0) s.blk.tl.peak p) (s.blk.windowBytes p / max 1 s.blk.tl.winUs.toNat)) _ listed).trans (by rw [bytes])⟩

end

/-! ### TALLY_CONFIG and DUMP_CONFIG (R426, R432) -/

section
variable {b : Block} {s : State} {m : ManRef} {blk c : BitVec 8} {sel : BitVec 16} {d : DumpParams}

theorem Block.finish_selector (m : ManRef) (op st : Nat) (blk i : Nat) : (b.finish m op st).selector blk i = b.selector blk i := by
  rw [Block.selector, Block.regField, Block.finish_reg, Block.selector, Block.regField]

theorem Block.finish_tallyBlk (m : ManRef) (op st : Nat) (blk : Nat) : (b.finish m op st).tallyBlk blk = b.tallyBlk blk := by
  rw [Block.tallyBlk, Block.finish_tl, Block.tallyBlk]

theorem tallyConfig_writes (mans : s.blk.mans Mop.tallyConfig) (block : blk.toNat ≤ 68) (counter : c.toNat ≤ 7)
    (legal : selectorOk blk.toNat sel.toNat = true) (on : s.blk.domOn (tallyDom blk.toNat) = true) :
    Does (.tallyConfig m blk c sel) s [.ins, .regs, .running, .slots, .tl] fun b =>
      b.doneWith m 0x0070 0x00 [] ∧ b.selector blk.toNat c.toNat = sel.toNat ∧ tget (fun _ => 0) (b.tallyBlk blk.toNat).cnt c.toNat = 0
        ∧ b.regBit (tlOff Off.tlOvf blk.toNat) c.toNat = false := by
  have made : s.blk.tallyConfig m blk.toNat c.toNat sel.toNat = (s.blk.writeSelector blk.toNat c.toNat sel.toNat).finish m Mop.tallyConfig St.ok :=
    if_neg (by simp only [legal, not_true, or_false]; omega)
  have inside : Within [.tl, .reg (tlOff Off.tlEvsel blk.toNat + 4 * (c.toNat / 2)), .reg (tlOff Off.tlOvf blk.toNat)] [.ins, .regs, .running, .slots, .tl] :=
    Within.cons (by simp [Piece.inside]) (Within.cons (by simp [Piece.inside]) (Within.single (by simp [Piece.inside])))
  refine does_finish (f := (·.tallyConfig m blk.toNat c.toNat sel.toNat)) rfl mans made ((s.blk.writeSelector_frame ..).mono inside) (Within.of rfl)
    ⟨Block.finish_doneWith _ _ (by decide) (by decide) (by decide), ?_, ?_, ?_⟩
  · rw [Block.finish_selector, Block.writeSelector_selector on _ (by omega), if_pos rfl]
    exact Nat.mod_eq_of_lt sel.isLt
  · rw [Block.finish_tallyBlk, Block.writeSelector_cnt on, if_pos rfl]
  · rw [Block.regBit, Block.finish_reg]
    exact (Block.writeSelector_ovf on (by omega) _).trans (if_pos rfl)

theorem tallyConfig_bad (mans : s.blk.mans Mop.tallyConfig) (h : 68 < blk.toNat ∨ 7 < c.toNat ∨ selectorOk blk.toNat sel.toNat = false) :
    Does (.tallyConfig m blk c sel) s [.slots, .running, .ins] fun b => b.doneWith m 0x0070 0x04 [] :=
  does_answer (f := (·.tallyConfig m blk.toNat c.toNat sel.toNat)) rfl mans (if_pos (by simpa using h)) (by decide) (by decide) (by decide)

/-- The step of DUMP_CONFIG on the block. -/
def Block.dumpConfig (b : Block) (m : ManRef) (d : DumpParams) : Block :=
  if DumpParams.legal d then
    ({ b with tl.nextCfg := some d, tl.periodAt := if b.tl.mode = 0 then b.ck.tide else b.tl.periodAt }).finish m Mop.dumpConfig St.ok (leBytes (DumpParams.size d) 4)
  else b.finish m Mop.dumpConfig St.badParam

theorem exec_dumpConfig_man : exec (.dumpConfig m d) s = s.man m Mop.dumpConfig (·.dumpConfig m d) := rfl

theorem dumpConfig_keeps (mans : s.blk.mans Mop.dumpConfig) (legal : DumpParams.legal d = true) :
    Does (.dumpConfig m d) s [.tl, .slots, .running, .ins] fun b =>
      b.tl.nextCfg = some d ∧ b.tl.cfg = s.blk.tl.cfg ∧ b.doneWith m 0x0071 0x00 (leBytes (DumpParams.size d) 4) := by
  refine does_finish exec_dumpConfig_man mans (if_pos legal) ((Kept.withTl ..).mono (Within.of rfl)) (Within.of rfl)
    ⟨?_, ?_, Block.finish_doneWith _ _ (by decide) (by decide) (by rw [leBytes_length]; decide)⟩
  · rw [Block.finish_tl]
  · rw [Block.finish_tl]

theorem dumpConfig_bad (mans : s.blk.mans Mop.dumpConfig) (illegal : DumpParams.legal d = false) :
    Does (.dumpConfig m d) s [.slots, .running, .ins] fun b => b.doneWith m 0x0071 0x04 [] :=
  does_answer exec_dumpConfig_man mans (if_neg (by simp [illegal])) (by decide) (by decide) (by decide)

end

/-- Settles O47: the strobe's four outcomes, the image's granules written by channel, the window's end, and the two manifests
that set the engine up. -/
theorem talliesAndDumps : Obligations.TalliesAndDumps :=
  ⟨fun _ _ => snapshotStrobe_begins, fun _ _ => snapshotStrobe_skips, fun _ _ => snapshotStrobe_off, fun _ => snapshotStrobe_idle,
    fun _ => snapshotDone_remote, fun _ => snapshotDone_local, fun _ => snapshotDone_idle, fun _ => bwWindowEnd_between,
    fun _ => bwWindowEnd_latches, fun _ _ _ _ _ => tallyConfig_writes, fun _ _ _ _ _ => tallyConfig_bad, fun _ _ _ => dumpConfig_keeps,
    fun _ _ _ => dumpConfig_bad⟩

end Sys2Proof.Machine
end

section
/-! SUPPORT. CK_ALARM beside what takes a side down or lets it train, and a segment that stays down. -/

namespace Sys2Proof.Machine

open Sys2Proof

/-! ### A forced alarm (R347) -/

/-- A bit of `CK_ALARM` that is forced drives ALERT_N low. -/
theorem Block.alertLow_of_ckAlarm {b : Block} {i : Nat} (low : i < 4) (bit : b.regBit Off.ckAlarm i = true) : b.alertLow = true := by
  refine b.alertLow_iff.mpr (.inl (.inl fun none_ => ?_))
  have off : (b.reg Off.ckAlarm &&& 0x0F).getLsbD i = false := by rw [none_]; exact BitVec.getLsbD_zero
  rw [BitVec.getLsbD_and, show (b.reg Off.ckAlarm).getLsbD i = true from bit, Bool.true_and] at off
  have forced : ∀ i : Fin 4, (0x0F : Word).getLsbD i = true := by decide
  exact absurd (forced ⟨i, low⟩) (by rw [off]; decide)

theorem Block.regBit_of_reg {b c : Block} {o i : Nat} (same : c.reg o = b.reg o) (bit : b.regBit o i = true) : c.regBit o i = true := by
  rw [Block.regBit, same]; exact bit

theorem Block.event_ckAlarm (b : Block) (e : Ev) (unit : Nat) (detail : List (BitVec 16)) : (b.event e unit detail).reg Off.ckAlarm = b.reg Off.ckAlarm :=
  (b.event_kept e unit detail).out (.reg Off.ckAlarm) (by simp [Piece.among, Off.ckAlarm, Off.lgAlarm])

/-- An alarm of `CK_ALARM` and the event that tells of it. -/
theorem Block.alarmed_bit (b : Block) {m : Word} {i : Nat} (e : Ev) (sets : m.getLsbD i = true) : ((b.orReg Off.ckAlarm m).event e).regBit Off.ckAlarm i = true :=
  Block.regBit_of_reg (Block.event_ckAlarm ..) (by rw [Block.regBit_orReg, sets, Bool.or_true])

/-! ### Alarms and marks beside the sides' operations -/

/-- `CK_ALARM`, `CA_ALARM` and the lanes' marks of the survey stay as they are. -/
structure Block.Spared (b c : Block) : Prop where
  ckAlarm : c.reg Off.ckAlarm = b.reg Off.ckAlarm
  caAlarm : c.reg Off.caAlarm = b.reg Off.caAlarm
  unusable : ∀ l, (c.lane l).unusable = (b.lane l).unusable

theorem Block.Spared.refl (b : Block) : b.Spared b := ⟨rfl, rfl, fun _ => rfl⟩

theorem Block.Spared.trans {b c d : Block} (h : b.Spared c) (k : c.Spared d) : b.Spared d :=
  ⟨k.ckAlarm.trans h.ckAlarm, k.caAlarm.trans h.caAlarm, fun l => (k.unusable l).trans (h.unusable l)⟩

theorem Block.Spared.ite {b c d : Block} {p : Prop} [Decidable p] (h : b.Spared c) (k : b.Spared d) : b.Spared (if p then c else d) := by
  split
  · exact h
  · exact k

theorem Block.Spared.each {f : Block → Nat → Block} (h : ∀ (b : Block) n, b.Spared (f b n)) (b : Block) (ns : List Nat) : b.Spared (b.each ns f) :=
  List.foldlRecOn (motive := b.Spared) ns f (.refl b) fun c same n _ => same.trans (h c n)

theorem Kept.spared_of {ps : List Piece} {b c : Block} (h : Kept ps b c) (ck : ¬ (Piece.reg Off.ckAlarm).among ps)
    (ca : ¬ (Piece.reg Off.caAlarm).among ps) (lanes : ∀ l, ¬ (Piece.lane l).among ps) : b.Spared c :=
  ⟨h.out (.reg Off.ckAlarm) ck, h.out (.reg Off.caAlarm) ca, fun l => congrArg Lane.unusable (h.out (.lane l) (lanes l))⟩

/-- A computed test: the piece is no lane and neither of the two alarms. -/
def Piece.spared : Piece → Bool
  | .lane _ | .lanes | .regs => false
  | .reg o => o != Off.ckAlarm && o != Off.caAlarm
  | _ => true

theorem Kept.spared {ps : List Piece} {b c : Block} (h : Kept ps b c) (beside : ps.all Piece.spared = true) : b.Spared c := by
  have off {p : Piece} (held : p ∈ ps) : p.spared = true := List.all_eq_true.mp beside p held
  exact h.spared_of (fun held => held.elim (fun k => Bool.false_ne_true (off k)) fun k => absurd (off k) (by decide))
    (fun held => held.elim (fun k => Bool.false_ne_true (off k)) fun k => absurd (off k) (by decide))
    fun l held => held.elim (fun k => Bool.false_ne_true (off k)) fun k => Bool.false_ne_true (off k)

theorem lnOff_ne_ckAlarm (r l : Nat) : lnOff r l ≠ Off.ckAlarm := by
  have base : 0x40000 ≤ laneBase l := by unfold laneBase; split <;> omega
  simp only [lnOff, Off.ckAlarm]
  omega

/-- The register sets of the lanes end below `CA_ALARM`. -/
theorem lnOff_ne_caAlarm {r : Nat} (l : Nat) (apart : (r - 0x40000) % 0x400 ≠ 8) : lnOff r l ≠ Off.caAlarm := by
  have set := laneBase_mod l
  have low := laneBase_ge l
  simp only [lnOff, Off.caAlarm]
  omega

theorem tlOff_ne_ckAlarm (n : Nat) : Off.ckAlarm ≠ tlOff Off.tlOvf n := by
  simp only [tlOff, Off.tlOvf, Off.ckAlarm]
  omega

theorem tlOff_ne_caAlarm (n : Nat) : Off.caAlarm ≠ tlOff Off.tlOvf n := by
  simp only [tlOff, Off.tlOvf, Off.caAlarm]
  omega

theorem Block.winDiscard_spared (b : Block) (l : Nat) : b.Spared (b.winDiscard l) :=
  ⟨Block.reg_setReg_other _ _ (lnOff_ne_ckAlarm _ l).symm, Block.reg_setReg_other _ _ (lnOff_ne_caAlarm l (by decide)).symm, fun _ => rfl⟩

theorem Block.modSide_spared (b : Block) (sd : Side) (f : SideSt → SideSt) : b.Spared (b.modSide sd f) := (b.modSide_kept sd f).spared rfl

theorem Block.modLane_spared (b : Block) (l : Nat) {f : Lane → Lane} (marks : ∀ x, (f x).unusable = x.unusable) : b.Spared (b.modLane l f) := by
  have kept := b.modLane_kept l f
  refine ⟨kept.out (.reg Off.ckAlarm) (by simp [Piece.among]), kept.out (.reg Off.caAlarm) (by simp [Piece.among]), fun k => ?_⟩
  rw [Block.lane_modLane]
  split
  case isTrue same => rw [marks, same]
  case isFalse => rfl

theorem Lane.offUnlessFailed_unusable (x : Lane) : x.offUnlessFailed.unusable = x.unusable := by
  unfold Lane.offUnlessFailed
  split <;> rfl

theorem Block.applyEntry_spared (b : Block) (l : Nat) (g : Fin 4) : b.Spared (b.applyEntry l g) := by
  have driven (v : Word) : b.Spared (b.setReg (lnOff Off.lnTxDrv l) v) :=
    ⟨Block.reg_setReg_other _ _ (lnOff_ne_ckAlarm _ l).symm, Block.reg_setReg_other _ _ (lnOff_ne_caAlarm l (by decide)).symm, fun _ => rfl⟩
  unfold Block.applyEntry
  refine (driven _).trans (Block.modLane_spared _ l fun _ => ?_)
  rfl

theorem Block.startHunt_spared (b : Block) (l : Nat) (g : Fin 4) (warm : Bool) : b.Spared (b.startHunt l g warm) := by
  unfold Block.startHunt
  exact .trans (.ite (.refl b) (b.applyEntry_spared l g)) (Block.modLane_spared _ l fun _ => rfl)

theorem Block.endWindow_spared (b : Block) (sd : Side) : b.Spared (b.endWindow sd) := by
  unfold Block.endWindow
  split
  · exact .refl b
  · have closed := b.modSide_spared sd fun x => { x with win := none }
    exact .ite (closed.trans (.each (fun c l => c.winDiscard_spared l) ..)) closed

theorem Block.leaveRun_spared (b : Block) (sd : Side) (seg : SegState) : b.Spared (b.leaveRun sd seg) :=
  (b.endWindow_spared sd).trans (Block.modSide_spared ..)

theorem Block.segDown_spared (b : Block) (sd : Side) : b.Spared (b.segDown sd) :=
  (b.leaveRun_spared sd .down).trans (.each (fun c l => c.modLane_spared l Lane.offUnlessFailed_unusable) ..)

theorem Block.event_spared (b : Block) (e : Ev) (unit : Nat) (detail : List (BitVec 16)) : b.Spared (b.event e unit detail) := (b.event_kept e unit detail).spared rfl

theorem Block.sideFails_spared (b : Block) (sd : Side) : b.Spared (b.sideFails sd) :=
  ((b.segDown_spared sd).trans (Block.event_spared ..)).trans ((Block.freshCaps_kept _).spared rfl)

theorem Block.trainSide_spared (b : Block) (sd : Side) (g : Fin 4) (inLoop : Bool) : b.Spared (b.trainSide sd g inLoop) :=
  .ite (b.sideFails_spared sd) (((b.leaveRun_spared sd .training).trans (Block.modSide_spared ..)).trans
    (.each (fun c l => c.startHunt_spared l g false) ..))

theorem Block.purgeSide_spared (b : Block) (sd : Side) : b.Spared (b.purgeSide sd) :=
  (b.purgeSide_kept sd).spared_of (by simpa [Piece.among, Off.ckAlarm, Off.fwAlarm, Off.lgAlarm, Off.tlAlarm] using tlOff_ne_ckAlarm _)
    (by simpa [Piece.among, Off.caAlarm, Off.fwAlarm, Off.lgAlarm, Off.tlAlarm] using tlOff_ne_caAlarm _) (by simp [Piece.among])

theorem Block.liftCap_spared (b : Block) (sd : Side) : b.Spared (b.liftCap sd) :=
  have lifted := b.modSide_spared sd fun x => { x with capG2 := false }
  .ite lifted (.ite ((lifted.trans (Block.trainSide_spared ..)).trans (Block.purgeSide_spared ..)) (.refl b))

theorem Block.checkOpen_spared (b : Block) : b.Spared b.checkOpen := by
  rw [Block.checkOpen_eq]
  have lifted := (b.liftCap_spared .west).trans (Block.liftCap_spared _ .east)
  exact .ite (.refl b) (.ite (lifted.trans ((Block.enterOpen_kept _).spared rfl)) lifted)

/-! ### A segment that stays down -/

section
variable {b : Block} {sd : Side}

theorem Block.sideFails_down (k : Side) (down : (b.side sd).seg = .down) : ((b.sideFails k).side sd).seg = .down :=
  ((Block.segsKept_freshCaps _).seg sd).trans (((b.segDown_darker k).trans ((Block.event_kept ..).darker rfl)).seg sd down)

theorem Block.trainSide_down (k : Side) (g : Fin 4) (inLoop : Bool) (other : sd ≠ k) (down : (b.side sd).seg = .down) :
    ((b.trainSide k g inLoop).side sd).seg = .down := by
  cases trains : (b.trainLanes k).isEmpty
  case true =>
    rw [Block.trainSide, if_pos trains]
    exact Block.sideFails_down k down
  case false =>
    obtain ⟨-, -, beside⟩ := Block.trainSide_sides g inLoop trains
    rw [show sd = otherSide k by cases sd <;> cases k <;> simp_all [otherSide], beside]
    rw [show otherSide k = sd by cases sd <;> cases k <;> simp_all [otherSide]]
    exact down

theorem Block.liftCap_down (k : Side) (down : (b.side sd).seg = .down) : ((b.liftCap k).side sd).seg = .down := by
  have lifted := (b.modSide_darker k (f := fun x => { x with capG2 := false }) fun _ h => h).seg sd down
  unfold Block.liftCap
  split
  case isTrue => exact lifted
  case isFalse up =>
    split
    case isTrue => exact (Block.purgeSide_darker ..).seg sd (Block.trainSide_down k 0 false (by rintro rfl; exact up down) lifted)
    case isFalse => exact down

theorem Block.checkOpen_down (down : (b.side sd).seg = .down) : (b.checkOpen.side sd).seg = .down := by
  have lifted := Block.liftCap_down .east (Block.liftCap_down .west down)
  rw [Block.checkOpen_eq]
  split
  · exact down
  · split
    · exact ((Block.enterOpen_kept _).darker rfl).seg sd lifted
    · exact lifted

theorem Block.wakeWaiter_seg (k : Side) : ((b.wakeWaiter k).side sd).seg = (b.side sd).seg := by
  have freed : ((b.modSide k fun x => { x with waiter := none }).side sd).seg = (b.side sd).seg := by
    rw [Block.side_modSide_ite]
    split
    case isTrue same => rw [same]
    case isFalse => rfl
  have finished (c : Block) (m : ManRef) (op : Nat) (r : List Byte) : (c.finish m op St.ok r).side sd = c.side sd :=
    (c.finish_kept m op St.ok r {}).out (.side sd) (by simp [Piece.among])
  unfold Block.wakeWaiter
  split
  · rfl
  · dsimp only
    split
    · split <;> rw [finished, freed]
    · rfl

end

end Sys2Proof.Machine
end

section
/-! SUPPORT. Failing lane PLLs and a failing RC oscillator (R346, R347, R353). -/

namespace Sys2Proof.Machine

open Sys2Proof

section
variable {s : State} {b : Block} {sd : Side} {refLost : Bool}

theorem exec_lanePllFail_upd : exec (.lanePllFail sd refLost) s = s.upd fun b => if b.armed then b.lanePllFail sd refLost else b := rfl

/-- A side's reference noted as lost, where it is. -/
def Block.refNoted (b : Block) (sd : Side) (refLost : Bool) : Block := b.modSide sd fun x => { x with refPresent := x.refPresent && !refLost }

/-- The side's PLL failed, the side not yet down. -/
def Block.pllFailed (b : Block) (sd : Side) (refLost : Bool) : Block :=
  (b.refNoted sd refLost).setPll (sidePll sd) (((b.refNoted sd refLost).pll (sidePll sd)).fail (b.refNoted sd refLost).ck.tide)

/-- The side down behind its PLL. -/
def Block.sideLost (b : Block) (sd : Side) : Block := ((b.dropSide sd).freshCaps).wakeWaiter sd

theorem Block.lanePllFail_eq (lock : (b.pll (sidePll sd)).lock = true) (runs : b.pw.st ≠ .frozen) :
    b.lanePllFail sd refLost = ((((b.pllFailed sd refLost).sideLost sd).orReg Off.ckAlarm (if sd = .west then 2 else 4)).event
      (if sd = .west then .wLost else .eLost)).checkOpen := by
  have noted : (b.refNoted sd refLost).ck = b.ck := b.modSide_ck ..
  have still : ((b.refNoted sd refLost).pll (sidePll sd)).lock = true := by rw [Block.pll_congr noted]; exact lock
  have st : (b.pllFailed sd refLost).pw.st ≠ .frozen := by
    rw [Block.pllFailed, (Block.setPll_kept ..).pwOf (by simp [Piece.among]) (·.st), Block.refNoted, (Block.modSide_kept ..).pwOf (by simp [Piece.among]) (·.st)]
    exact runs
  have shape : b.lanePllFail sd refLost = if ¬ ((b.refNoted sd refLost).pll (sidePll sd)).lock then b.refNoted sd refLost
      else (((if (b.pllFailed sd refLost).pw.st = .frozen then b.pllFailed sd refLost else (b.pllFailed sd refLost).sideLost sd).orReg Off.ckAlarm
        (if sd = .west then 2 else 4)).event (if sd = .west then .wLost else .eLost)).checkOpen := rfl
  rw [shape, if_neg (not_not.mpr still), if_neg st]

theorem Block.sideLost_seg (sd : Side) : ((b.sideLost sd).side sd).seg = .down := by
  rw [Block.sideLost, Block.wakeWaiter_seg, (Block.segsKept_freshCaps _).seg, Block.dropSide_seg]

theorem Block.lanePllFail_seg (lock : (b.pll (sidePll sd)).lock = true) (runs : b.pw.st ≠ .frozen) : ((b.lanePllFail sd refLost).side sd).seg = .down := by
  rw [Block.lanePllFail_eq lock runs]
  refine Block.checkOpen_down (((Block.event_kept ..).darker rfl).seg sd (((Block.orReg_kept ..).darker rfl).seg sd (Block.sideLost_seg sd)))

/-- The bit of `CK_ALARM` that a side's PLL sets. -/
def pllAlarmBit : Side → Nat
  | .west => 1
  | .east => 2

theorem Block.lanePllFail_alarm (lock : (b.pll (sidePll sd)).lock = true) (runs : b.pw.st ≠ .frozen) :
    (b.lanePllFail sd refLost).regBit Off.ckAlarm (pllAlarmBit sd) = true := by
  rw [Block.lanePllFail_eq lock runs]
  exact Block.regBit_of_reg (Block.checkOpen_spared _).ckAlarm (Block.alarmed_bit _ _ (by cases sd <;> rfl))

theorem lanePllFail_down (armed : s.blk.armed = true) (runs : s.blk.pw.st ≠ .frozen) (lock : (s.blk.pll (sidePll sd)).lock = true) :
    Does (.lanePllFail sd refLost) s [.ck, .cnt, .events, .fws, .ins, .lanes, .mf, .pw, .qy, .regs, .running, .sides, .slots, .tl] fun b =>
      (b.pll (sidePll sd)).lock = false ∧ (b.pll (sidePll sd)).down = true ∧ b.ck.root = s.blk.ck.root ∧ b.ck.aonSrc = s.blk.ck.aonSrc
        ∧ b.ck.hkSrc = s.blk.ck.hkSrc ∧ b.ck.coreGated = s.blk.ck.coreGated ∧ (b.side sd).seg = .down ∧ b.stk = s.blk.stk
        ∧ b.regBit Off.ckAlarm (pllAlarmBit sd) = true ∧ b.alertLow = true := by
  have made : (fun b : Block => if b.armed then b.lanePllFail sd refLost else b) s.blk = s.blk.lanePllFail sd refLost := if_pos armed
  have kept := s.blk.lanePllFail_kept sd refLost
  have ck := s.blk.lanePllFail_ck sd refLost
  rw [if_pos lock] at ck
  have seg := Block.lanePllFail_seg (refLost := refLost) lock runs
  have bit := Block.lanePllFail_alarm (refLost := refLost) lock runs
  refine does_upd_eq exec_lanePllFail_upd made kept ?_
  have stk := kept.out .stk (by simp [Piece.among])
  generalize s.blk.lanePllFail sd refLost = c at *
  have pll : c.pll (sidePll sd) = (s.blk.pll (sidePll sd)).fail s.blk.ck.tide := by rw [Block.pll_congr ck, Block.pll_setPll]
  refine ⟨by rw [pll]; rfl, by rw [pll]; rfl, ?_, ?_, ?_, ?_, seg, stk, bit, Block.alertLow_of_ckAlarm (by cases sd <;> decide) bit⟩
  all_goals rw [ck]; cases sd <;> rfl

/-! ### RC_FAIL -/

theorem exec_rcFail_upd : exec .rcFail s = s.upd fun b => if b.armed then b.rcFail else b := rfl

/-- AON or HK runs on RC. -/
def Block.rcUsed (b : Block) : Bool := b.ck.aonSrc == ClkSrc.rc || b.ck.hkSrc == ClkSrc.rc

/-- The oscillator lost, with what ran on it. -/
def Block.rcLost (b : Block) (used : Bool) : Block :=
  { b with ck.rcOk := false, ck.aonStopped := b.ck.aonStopped || used, ck.hmStopped := b.ck.hmStopped || used }

/-- Everything that RC_FAIL does before the oscillator is lost. -/
def Block.rcAlarmed (b : Block) : Block := (b.abortSwitches (· == ClkSrc.rc)).orReg Off.ckAlarm 16

theorem Block.rcFail_eq (ok : b.ck.rcOk = true) : b.rcFail = (b.rcAlarmed.rcLost b.rcUsed).event .rcFail := by
  unfold Block.rcFail
  exact if_neg (not_not.mpr ok)

theorem Block.rcAlarmed_kept (b : Block) : Kept [.ins, .running, .slots, .reg Off.ckAlarm] b b.rcAlarmed :=
  Kept.step (Block.orReg_kept ..) (Within.of rfl) ((b.abortSwitches_kept _).mono (Within.of rfl))

theorem Block.rcFail_ck (ok : b.ck.rcOk = true) :
    b.rcFail.ck = { b.ck with rcOk := false, aonStopped := b.ck.aonStopped || b.rcUsed, hmStopped := b.ck.hmStopped || b.rcUsed } := by
  have before : b.rcAlarmed.ck = b.ck := b.rcAlarmed_kept.ckEq (by simp [Piece.among]) (by simp [Piece.among])
  rw [Block.rcFail_eq ok, Block.event_ck, Block.rcLost, before]

theorem Block.rcFail_alarm (ok : b.ck.rcOk = true) : b.rcFail.regBit Off.ckAlarm 4 = true := by
  have bit : b.rcAlarmed.regBit Off.ckAlarm 4 = true := by rw [Block.rcAlarmed, Block.regBit_orReg]; simp
  rw [Block.rcFail_eq ok]
  exact Block.regBit_of_reg (Block.event_ckAlarm ..) bit

theorem Block.event_waits (e : Ev) (stopped : b.ck.aonStopped = true) :
    (b.event e).lg.events = b.lg.events
      ∧ (b.sv.logDisabled = false → (b.event e).lg.due = b.lg.due ++ [{ code := BitVec.ofNat 16 e.code, unit := 0, detail := [] }]) := by
  have shut : b.canLog = false := by simp [Block.canLog, stopped]
  unfold Block.event
  simp only [shut, Bool.false_eq_true, if_false]
  split
  case isTrue off => exact ⟨rfl, fun on => absurd off (by simp [on])⟩
  case isFalse => exact ⟨rfl, fun _ => rfl⟩

theorem rcFail_unused (armed : s.blk.armed = true) (ok : s.blk.ck.rcOk = true) (aon : s.blk.ck.aonSrc ≠ .rc) (hk : s.blk.ck.hkSrc ≠ .rc) :
    Does .rcFail s [.ck, .events, .ins, .reg Off.ckAlarm, .reg Off.lgAlarm, .running, .slots] fun b =>
      b.ck = { s.blk.ck with rcOk := false } ∧ b.regBit Off.ckAlarm 4 = true := by
  have unused : s.blk.rcUsed = false := by simp [Block.rcUsed, aon, hk]
  refine does_upd_eq exec_rcFail_upd (if_pos armed) s.blk.rcFail_kept ⟨?_, Block.rcFail_alarm ok⟩
  rw [Block.rcFail_ck ok, unused, Bool.or_false, Bool.or_false]

theorem rcFail_used (armed : s.blk.armed = true) (ok : s.blk.ck.rcOk = true) (used : s.blk.ck.aonSrc = .rc ∨ s.blk.ck.hkSrc = .rc) :
    Does .rcFail s [.ck, .events, .ins, .reg Off.ckAlarm, .reg Off.lgAlarm, .running, .slots] fun b =>
      b.ck = { s.blk.ck with rcOk := false, aonStopped := true, hmStopped := true } ∧ b.live = false ∧ b.hmRuns = false
        ∧ b.carries = s.blk.carries ∧ b.regBit Off.ckAlarm 4 = true ∧ b.lg.events = s.blk.lg.events
        ∧ (s.blk.sv.logDisabled = false → b.lg.due = s.blk.lg.due ++ [{ code := BitVec.ofNat 16 Ev.rcFail.code, unit := 0, detail := [] }]) := by
  have on : s.blk.rcUsed = true := by simpa [Block.rcUsed] using used
  have kept := s.blk.rcFail_kept
  have ck : s.blk.rcFail.ck = { s.blk.ck with rcOk := false, aonStopped := true, hmStopped := true } := by
    rw [Block.rcFail_ck ok, on, Bool.or_true, Bool.or_true]
  have before := s.blk.rcAlarmed_kept
  have lg : s.blk.rcAlarmed.lg.events = s.blk.lg.events ∧ s.blk.rcAlarmed.lg.due = s.blk.lg.due := by
    obtain ⟨events, -, -, -, due⟩ := before.out .events (by simp [Piece.among])
    exact ⟨events, due⟩
  have sv : s.blk.rcAlarmed.sv = s.blk.sv := before.out .sv (by simp [Piece.among])
  obtain ⟨events, due⟩ := (s.blk.rcAlarmed.rcLost s.blk.rcUsed).event_waits .rcFail (by rw [on]; exact Bool.or_true _)
  have made := Block.rcFail_eq ok
  refine does_upd_eq exec_rcFail_upd (if_pos armed) kept ⟨ck, ?_, ?_, ?_, Block.rcFail_alarm ok, ?_, fun on => ?_⟩
  · simp [Block.live, ck]
  · simp [Block.hmRuns, Block.live, ck]
  · have pw := kept.pwEq (by simp [Piece.among]) (by simp [Piece.among])
    have sv' : s.blk.rcFail.sv = s.blk.sv := kept.out .sv (by simp [Piece.among])
    simp only [Block.carries, pw, sv', ck]
  · rw [made, events]; exact lg.1
  · rw [made, due (by rw [show (s.blk.rcAlarmed.rcLost s.blk.rcUsed).sv = s.blk.rcAlarmed.sv from rfl, sv]; exact on)]
    exact congrArg (· ++ _) lg.2

theorem exec_rcFail_idle (h : s.blk.armed = false ∨ s.blk.ck.rcOk = false) : exec .rcFail s = .next s := by
  refine exec_upd_same exec_rcFail_upd ?_
  rcases h with off | lost
  · exact if_neg (by simp [off])
  · simp [Block.rcFail, lost]

end

/-- Settles O14: the side's loss stays through the check for OPEN, and RC_FAIL stops AON exactly where it ran on RC. -/
theorem lanePllAndRcFailures : Obligations.LanePllAndRcFailures :=
  ⟨fun _ sd _ armed runs lock => by cases sd <;> exact lanePllFail_down armed runs lock, fun _ => rcFail_unused, fun _ => rcFail_used, fun _ => exec_rcFail_idle⟩

end Sys2Proof.Machine
end

section
/-! SUPPORT. A failing crystal or PLL_ROOT: the core dark, AON and HK on their way to another source (R343 to R348, R353). -/

namespace Sys2Proof.Machine

open Sys2Proof

/-! ### What breakwater's steps leave of the links and the requests -/

section
variable {b c : Block}

theorem Block.sameLinks_darker (west : c.west = b.west) (east : c.east = b.east) (lanes : c.lanes = b.lanes) : b.Darker c :=
  ⟨fun sd down => by cases sd <;> simpa [Block.side, west, east] using down, fun l dark => by rw [Block.lane, lanes]; exact dark⟩

/-- The doms and lanes that `dropWaiters` goes through. -/
def Block.waitersOff (b : Block) (keep : Nat → Bool) : Block :=
  (((b.modSide .west fun x => { x with waiter := none }).modSide .east fun x => { x with waiter := none }).each ((List.range 48).filter (!keep ·))
    fun b d => b.modDom d fun x => { x with waiter := none }).each (List.range 32) fun b l => b.modLane l fun x => { x with prbsOwner := none, prbsRun := none }

theorem Lane.unwaited_dark {x : Lane} (h : x.dark) : Lane.dark { x with prbsOwner := none, prbsRun := none } := h

theorem Block.waiterOff_darker (sd : Side) : b.Darker (b.modSide sd fun x => { x with waiter := none }) := by
  refine b.modSide_darker sd fun x h => ?_
  exact h

theorem Block.domWaiters_darker (ds : List Nat) : b.Darker (b.each ds fun b d => b.modDom d fun x => { x with waiter := none }) :=
  .each (fun c d => (c.modDom_kept d _).darker rfl) ..

theorem Block.laneWaiters_darker (ls : List Nat) : b.Darker (b.each ls fun b l => b.modLane l fun x => { x with prbsOwner := none, prbsRun := none }) := by
  refine .each (fun c l => c.modLane_darker l fun x h => ?_) ..
  exact Lane.unwaited_dark h

theorem Block.waitersOff_darker (keep : Nat → Bool) : b.Darker (b.waitersOff keep) :=
  (((Block.waiterOff_darker .west).trans (Block.waiterOff_darker .east)).trans (Block.domWaiters_darker _)).trans (Block.laneWaiters_darker _)

theorem Block.dropWaiters_darker (keep : Nat → Bool) : b.Darker (b.dropWaiters keep) := by
  have off := b.waitersOff_darker keep
  unfold Block.dropWaiters
  unfold Block.waitersOff at off
  dsimp only
  generalize Block.each _ (List.range 32) _ = c at off ⊢
  exact off.trans (Block.sameLinks_darker rfl rfl rfl)

theorem Block.gateCore_darker : b.Darker b.gateCore := Block.sameLinks_darker rfl rfl rfl

/-- The core dark, but for its own clock. -/
def Block.linksDark (b : Block) : Block :=
  ((b.abandonAll.dropLinks.dmanLow.cutStackReset.endScrub St.aborted).endRunning (·.needsGated) St.aborted).dropWaiters fun d => !coreDom d

theorem Block.linksDark_unlinked : b.linksDark.Unlinked :=
  (Block.dropLinks_unlinked b.abandonAll).keep (((((((Block.dmanLow_kept _).darker rfl).trans ((Block.cutStackReset_kept _).darker rfl)).trans
    ((Block.endScrub_kept ..).darker rfl)).trans ((Block.endRunning_kept ..).darker rfl)).trans (Block.dropWaiters_darker _)))

theorem Block.linksDark_reqs : b.linksDark.qy.reqs = [] := by
  rw [Block.linksDark, (Block.dropWaiters_kept ..).qyOf (by simp [Piece.among]) (·.reqs), (Block.endRunning_kept ..).qyOf (by simp [Piece.among]) (·.reqs),
    (Block.endScrub_kept ..).qyOf (by simp [Piece.among]) (·.reqs), (Block.cutStackReset_kept _).qyOf (by simp [Piece.among]) (·.reqs),
    (Block.dmanLow_kept _).qyOf (by simp [Piece.among]) (·.reqs)]
  exact Block.dropLinks_idle b.abandonAll_reqs

theorem Block.gateCore_qy : b.gateCore.qy = b.qy := rfl

theorem Block.coreDark_unlinked : b.coreDark.Unlinked := by
  rw [Block.coreDark_eq]
  exact Block.linksDark_unlinked.keep Block.gateCore_darker

theorem Block.coreDark_reqs : b.coreDark.qy.reqs = [] := by
  rw [Block.coreDark_eq, Block.gateCore_qy]
  exact Block.linksDark_reqs

/-! ### A domain off its clock (R343, R344) -/

/-- The harbourmaster core restarted, its manifests and what waits cut short before. -/
def Block.hmFresh (c : Block) : Block :=
  { c with ck.recover := none, mf.session := none, mf.job := none, mf.reasm := [], mf.reboot := true }

theorem Block.hmRestart_eq : b.hmRestart =
    (((b.endRunning (fun r => !r.ownCourse) St.aborted).dropWaiters).orReg Off.ckResetCause 32).hmFresh := rfl

theorem Block.hmFresh_darker : c.Darker c.hmFresh := Block.sameLinks_darker rfl rfl rfl

theorem Block.hmRestart_darker : b.Darker b.hmRestart := by
  rw [Block.hmRestart_eq]
  exact ((((Block.endRunning_kept ..).darker rfl).trans (Block.dropWaiters_darker _)).trans ((Block.orReg_kept ..).darker rfl)).trans Block.hmFresh_darker

theorem Block.hmFresh_ck : c.hmFresh.ck = { c.ck with recover := none } := rfl

theorem Block.hmRestart_ck : b.hmRestart.ck = { b.ck with recover := none } := by
  rw [Block.hmRestart_eq, Block.hmFresh_ck, Block.orReg_ck, (Block.dropWaiters_kept ..).ckEq (by simp [Piece.among]) (by simp [Piece.among]),
    (Block.endRunning_kept ..).ckEq (by simp [Piece.among]) (by simp [Piece.among])]

theorem Block.linksReset_darker (p : Nat → Bool) : b.Darker (b.linksReset p) := by
  have lanes : b.Darker (b.each ((List.range 32).filter fun l => p (quadDom l)) fun b l => b.modLane l Lane.domReset) :=
    .each (fun c l => c.modLane_darker l fun x _ => x.domReset_dark) ..
  unfold Block.linksReset
  generalize b.each ((List.range 32).filter fun l => p (quadDom l)) (fun b l => b.modLane l Lane.domReset) = c at lanes
  have west : b.Darker (if p (fwDom .west) then { c with fwWE := {} } else c) := .ite (lanes.trans (Block.sameLinks_darker rfl rfl rfl)) lanes
  exact .ite (west.trans (Block.sameLinks_darker rfl rfl rfl)) west

theorem Block.resetRegs_darker (p : Nat → Bool) : b.Darker (b.resetRegs p) := (Block.resetRegs_kept ..).darker rfl

theorem Block.domReset_darker (d : Nat) : b.Darker (b.domReset d) := by
  have links : b.Darker ((b.resetRegs (heldIn (· == d))).linksReset (· == d)) := (Block.resetRegs_darker _).trans (Block.linksReset_darker _)
  unfold Block.domReset Block.domsReset
  generalize (b.resetRegs (heldIn (· == d))).linksReset (· == d) = c at links
  refine links.trans ?_
  dsimp only
  split <;> exact Block.sameLinks_darker rfl rfl rfl

/-- The alarm and the event of a switch on the asynchronous path. -/
def Block.deadShown (b : Block) (dom : Nat) : Block := (b.orReg Off.ckAlarm 32).event .clkDeadSwitch dom

theorem Block.deadSwitch_aon : b.deadSwitch 48 = (b.deadShown 48).hmRestart := rfl

theorem Block.deadSwitch_hk : b.deadSwitch 15 = (b.deadShown 15).domReset 15 := rfl

theorem Block.deadShown_darker (dom : Nat) : b.Darker (b.deadShown dom) := ((Block.orReg_kept ..).darker rfl).trans ((Block.event_kept ..).darker rfl)

theorem Block.deadShown_ck (dom : Nat) : (b.deadShown dom).ck = b.ck := by rw [Block.deadShown, Block.event_ck, Block.orReg_ck]

theorem Block.domReset_ck (d : Nat) : (b.domReset d).ck = b.ck := (b.domReset_kept d).ckEq (by simp [Piece.among]) (by simp [Piece.among])

/-- AON and HK on their new sources. -/
def Block.resourced (b : Block) (bad : ClkSrc → Bool) (dst : ClkSrc) : Block :=
  { b with ck.aonSrc := if bad b.ck.aonSrc then dst else b.ck.aonSrc, ck.hkSrc := if bad b.ck.hkSrc then dst else b.ck.hkSrc
           ck.aonMoved := b.ck.aonMoved || bad b.ck.aonSrc, ck.hkMoved := b.ck.hkMoved || bad b.ck.hkSrc }

/-- The asynchronous path for AON where it is taken. -/
def Block.aonOver (b : Block) (dead : Bool) : Block := if dead then b.deadSwitch 48 else b

/-- The asynchronous path for HK where it is taken. -/
def Block.hkOver (b : Block) (dead : Bool) : Block := if dead then b.deadSwitch 15 else b

theorem Block.moveAonHk_eq (bad : ClkSrc → Bool) (dst : ClkSrc) (aonDead hkDead : Bool) : b.moveAonHk bad dst aonDead hkDead
    = ((b.resourced bad dst).aonOver (bad b.ck.aonSrc && aonDead)).hkOver (bad b.ck.hkSrc && hkDead) := rfl

theorem Block.aonOver_darker (dead : Bool) : b.Darker (b.aonOver dead) :=
  .ite (by rw [Block.deadSwitch_aon]; exact (Block.deadShown_darker 48).trans Block.hmRestart_darker) (.refl b)

theorem Block.hkOver_darker (dead : Bool) : b.Darker (b.hkOver dead) :=
  .ite (by rw [Block.deadSwitch_hk]; exact (Block.deadShown_darker 15).trans (Block.domReset_darker 15)) (.refl b)

theorem Block.resourced_darker (bad : ClkSrc → Bool) (dst : ClkSrc) : b.Darker (b.resourced bad dst) := Block.sameLinks_darker rfl rfl rfl

theorem Block.moveAonHk_darker (bad : ClkSrc → Bool) (dst : ClkSrc) (aonDead hkDead : Bool) : b.Darker (b.moveAonHk bad dst aonDead hkDead) := by
  rw [Block.moveAonHk_eq]
  exact ((Block.resourced_darker bad dst).trans (Block.aonOver_darker _)).trans (Block.hkOver_darker _)

/-- The clocks but for the manifest that waits for the crystal. -/
def Clocks.bare (k : Clocks) : Clocks := { k with recover := none }

theorem Block.aonOver_ck (dead : Bool) : (b.aonOver dead).ck.bare = b.ck.bare := by
  cases dead
  · rfl
  · rw [Block.aonOver, if_pos rfl, Block.deadSwitch_aon, Block.hmRestart_ck, Block.deadShown_ck]
    rfl

theorem Block.hkOver_ck (dead : Bool) : (b.hkOver dead).ck = b.ck := by
  cases dead
  · rfl
  · rw [Block.hkOver, if_pos rfl, Block.deadSwitch_hk, Block.domReset_ck, Block.deadShown_ck]

/-- Of the clocks a move of AON and HK sets their sources, beside the manifest that waited. -/
theorem Block.moveAonHk_ck (bad : ClkSrc → Bool) (dst : ClkSrc) (aonDead hkDead : Bool) :
    (b.moveAonHk bad dst aonDead hkDead).ck.bare = (b.resourced bad dst).ck.bare := by
  rw [Block.moveAonHk_eq, Block.hkOver_ck, Block.aonOver_ck]

/-! ### The core's failure shown -/

/-- The alarm, the event, and the departure that the failure abandons. -/
def Block.failShown (c : Block) (m : Word) (e : Ev) : Block := ((c.orReg Off.ckAlarm m).event e).abandonDeparture

theorem Block.failShown_ck (m : Word) (e : Ev) : (c.failShown m e).ck = c.ck := by
  rw [Block.failShown, Block.abandonDeparture_ck, Block.event_ck, Block.orReg_ck]

theorem Block.failShown_stk (m : Word) (e : Ev) : (c.failShown m e).stk = c.stk := by
  rw [Block.failShown, Block.abandonDeparture_stk, Block.event_stk, (Block.orReg_kept ..).out .stk (by simp [Piece.among])]

theorem Block.failShown_qy (m : Word) (e : Ev) : (c.failShown m e).qy = c.qy := by
  rw [Block.failShown, (Block.abandonDeparture_kept _).qyEq (by simp [Piece.among]) (by simp [Piece.among]), Block.event_qy,
    (Block.orReg_kept ..).qyEq (by simp [Piece.among]) (by simp [Piece.among])]

theorem Block.failShown_darker (m : Word) (e : Ev) : c.Darker (c.failShown m e) :=
  (((Block.orReg_kept ..).darker rfl).trans ((Block.event_kept ..).darker rfl)).trans ((Block.abandonDeparture_kept _).darker rfl)

theorem Block.failShown_bit {m : Word} {i : Nat} (e : Ev) (sets : m.getLsbD i = true) : (c.failShown m e).regBit Off.ckAlarm i = true :=
  Block.regBit_of_reg ((Block.abandonDeparture_kept _).out (.reg Off.ckAlarm) (by simp [Piece.among])) (c.alarmed_bit e sets)

/-- The core is dark: no request is left, both sides are down, the dies sleep. -/
structure Block.Dark (b : Block) : Prop where
  dman : b.stk.dman = true
  reqs : b.qy.reqs = []
  links : b.Unlinked

theorem Block.coreDark_dark : b.coreDark.Dark := ⟨b.coreDark_dman, Block.coreDark_reqs, Block.coreDark_unlinked⟩

theorem Block.Dark.keep (h : b.Dark) (stk : c.stk = b.stk) (qy : c.qy = b.qy) (links : b.Darker c) : c.Dark :=
  ⟨stk ▸ h.dman, qy ▸ h.reqs, h.links.keep links⟩

theorem Block.Dark.moved (h : b.Dark) (bad : ClkSrc → Bool) (dst : ClkSrc) (aonDead hkDead : Bool) : (b.moveAonHk bad dst aonDead hkDead).Dark := by
  have kept := b.moveAonHk_kept bad dst aonDead hkDead
  exact ⟨(kept.out .stk (by simp [Piece.among])) ▸ h.dman, (kept.qyOf (by simp [Piece.among]) (·.reqs)).trans h.reqs,
    h.links.keep (Block.moveAonHk_darker ..)⟩

theorem Block.Dark.shown (h : c.Dark) (m : Word) (e : Ev) : (c.failShown m e).Dark :=
  h.keep (Block.failShown_stk m e) (Block.failShown_qy m e) (Block.failShown_darker m e)

/-! ### XTAL_FAIL -/

/-- The core dark where the crystal fails, and it was not gated. -/
def Block.xtalDark (b : Block) : Block :=
  if (b.abortSwitches (· != ClkSrc.rc)).ck.coreGated then b.abortSwitches (· != ClkSrc.rc) else (b.abortSwitches (· != ClkSrc.rc)).coreDark

/-- The crystal and PLL_ROOT without it. -/
def Block.xtalOut (c : Block) : Block :=
  { c with ck.xtalOk := false, ck.root := { c.ck.root with lock := false, down := true, attempt := false } }

/-- The tide counter on RC, and AON and the harbourmaster with it where it runs. -/
def Block.onRc (c : Block) : Block :=
  { c with ck.tide := if c.ck.tideSrc = ClkSrc.rc then c.ck.tide else c.ck.tide + 256, ck.tideSrc := .rc
           ck.aonStopped := !c.ck.rcOk, ck.hmStopped := !c.ck.rcOk }

/-- The crystal failed, before the alarm. -/
def Block.xtalMoved (b : Block) (aonDead hkDead : Bool) : Block := (b.xtalDark.xtalOut.moveAonHk (· != ClkSrc.rc) .rc aonDead hkDead).onRc

theorem Block.xtalFail_running (ok : b.ck.xtalOk = true) (runs : b.pw.st ≠ .frozen) (aonDead hkDead : Bool) :
    b.xtalFail aonDead hkDead = (b.xtalMoved aonDead hkDead).failShown 8 .xtalFail :=
  (if_neg (not_not.mpr ok)).trans (if_neg runs)

theorem Block.xtalFail_frozen (ok : b.ck.xtalOk = true) (frozen : b.pw.st = .frozen) (aonDead hkDead : Bool) :
    b.xtalFail aonDead hkDead = b.xtalFrozen :=
  (if_neg (not_not.mpr ok)).trans (if_pos frozen)

theorem Block.xtalDark_gated : b.xtalDark.ck.coreGated = true := by
  unfold Block.xtalDark
  split
  case isTrue gated => exact gated
  case isFalse => exact Block.coreDark_gated _

theorem Block.onRc_ck (k : Clocks) (h : c.ck.bare = k.bare) : c.onRc.ck.xtalOk = k.xtalOk ∧ c.onRc.ck.coreGated = k.coreGated ∧ c.onRc.ck.root = k.root
    ∧ c.onRc.ck.aonSrc = k.aonSrc ∧ c.onRc.ck.hkSrc = k.hkSrc ∧ c.onRc.ck.tideSrc = .rc :=
  ⟨congrArg (·.xtalOk) h, congrArg (·.coreGated) h, congrArg (·.root) h, congrArg (·.aonSrc) h, congrArg (·.hkSrc) h, rfl⟩

theorem ClkSrc.toRc (x : ClkSrc) : (if x != ClkSrc.rc then ClkSrc.rc else x) = .rc := by cases x <;> rfl

theorem Block.xtalMoved_ck (aonDead hkDead : Bool) : (b.xtalMoved aonDead hkDead).ck.xtalOk = false ∧ (b.xtalMoved aonDead hkDead).ck.coreGated = true
    ∧ (b.xtalMoved aonDead hkDead).ck.root.lock = false ∧ (b.xtalMoved aonDead hkDead).ck.root.attempt = false
    ∧ (b.xtalMoved aonDead hkDead).ck.aonSrc = .rc ∧ (b.xtalMoved aonDead hkDead).ck.hkSrc = .rc ∧ (b.xtalMoved aonDead hkDead).ck.tideSrc = .rc := by
  have gated := b.xtalDark_gated
  rw [Block.xtalMoved]
  generalize b.xtalDark = d at gated
  obtain ⟨xtal, core, root, aon, hk, tide⟩ := Block.onRc_ck _ (d.xtalOut.moveAonHk_ck (· != ClkSrc.rc) .rc aonDead hkDead)
  rw [xtal, core, root, aon, hk, tide]
  exact ⟨rfl, gated, rfl, rfl, ClkSrc.toRc _, ClkSrc.toRc _, rfl⟩

theorem Block.xtalOut_dark (h : c.Dark) : c.xtalOut.Dark := h.keep rfl rfl (Block.sameLinks_darker rfl rfl rfl)

theorem Block.onRc_dark (h : c.Dark) : c.onRc.Dark := h.keep rfl rfl (Block.sameLinks_darker rfl rfl rfl)

theorem Block.xtalMoved_dark (ran : b.ck.coreGated = false) (aonDead hkDead : Bool) : (b.xtalMoved aonDead hkDead).Dark := by
  have still : (b.abortSwitches (· != ClkSrc.rc)).ck.coreGated = false := by
    rw [(b.abortSwitches_kept _).ckEq (by simp [Piece.among]) (by simp [Piece.among])]
    exact ran
  have dark : b.xtalDark.Dark := by
    rw [Block.xtalDark, if_neg (by simp [still])]
    exact Block.coreDark_dark
  exact Block.onRc_dark ((Block.xtalOut_dark dark).moved ..)

/-! ### ROOT_LOST -/

/-- PLL_ROOT failed, before the alarm. -/
def Block.rootMoved (b : Block) (aonDead hkDead : Bool) : Block :=
  (b.abortSwitches (· == ClkSrc.pllRoot)).coreDark.failRoot.moveAonHk (· == ClkSrc.pllRoot) .crystal aonDead hkDead

theorem Block.rootLost_moved (lock : b.ck.root.lock = true) (runs : b.pw.st ≠ .frozen) (aonDead hkDead : Bool) :
    b.rootLost aonDead hkDead = (b.rootMoved aonDead hkDead).failShown 1 .rootLost :=
  (if_neg (not_not.mpr lock)).trans (if_neg runs)

theorem Block.rootLost_shown (lock : b.ck.root.lock = true) (frozen : b.pw.st = .frozen) (aonDead hkDead : Bool) :
    b.rootLost aonDead hkDead = (b.failRoot.orReg Off.ckAlarm 1).event .rootLost :=
  (if_neg (not_not.mpr lock)).trans (if_pos frozen)

theorem Block.failRoot_dark (h : c.Dark) : c.failRoot.Dark := h.keep rfl rfl (Block.sameLinks_darker rfl rfl rfl)

theorem Block.rootMoved_dark (aonDead hkDead : Bool) : (b.rootMoved aonDead hkDead).Dark := (Block.failRoot_dark Block.coreDark_dark).moved ..

theorem Block.gateCore_sources : c.gateCore.ck.aonSrc = c.ck.aonSrc ∧ c.gateCore.ck.hkSrc = c.ck.hkSrc := ⟨rfl, rfl⟩

theorem Block.linksDark_ck : b.linksDark.ck = b.ck := by
  rw [Block.linksDark, (Block.dropWaiters_kept ..).ckEq (by simp [Piece.among]) (by simp [Piece.among]),
    (Block.endRunning_kept ..).ckEq (by simp [Piece.among]) (by simp [Piece.among]), (Block.endScrub_kept ..).ckEq (by simp [Piece.among]) (by simp [Piece.among]),
    (Block.cutStackReset_kept _).ckEq (by simp [Piece.among]) (by simp [Piece.among]), (Block.dmanLow_kept _).ckEq (by simp [Piece.among]) (by simp [Piece.among]),
    (Block.dropLinks_kept _).ckEq (by simp [Piece.among]) (by simp [Piece.among]), (Block.abandonAll_kept _).ckEq (by simp [Piece.among]) (by simp [Piece.among])]

theorem Block.coreDark_sources : b.coreDark.ck.aonSrc = b.ck.aonSrc ∧ b.coreDark.ck.hkSrc = b.ck.hkSrc := by
  have gated := b.linksDark.gateCore_sources
  rw [Block.linksDark_ck] at gated
  rw [Block.coreDark_eq]
  exact gated

theorem Block.rootMoved_ck (aonDead hkDead : Bool) : (b.rootMoved aonDead hkDead).ck.coreGated = true ∧ (b.rootMoved aonDead hkDead).ck.root.lock = false
    ∧ (b.rootMoved aonDead hkDead).ck.root.down = true ∧ (b.rootMoved aonDead hkDead).ck.root.attempt = false
    ∧ (b.rootMoved aonDead hkDead).ck.aonSrc = (if b.ck.aonSrc = .pllRoot then .crystal else b.ck.aonSrc)
    ∧ (b.rootMoved aonDead hkDead).ck.hkSrc = (if b.ck.hkSrc = .pllRoot then .crystal else b.ck.hkSrc) := by
  have gated := (b.abortSwitches (· == ClkSrc.pllRoot)).coreDark_gated
  obtain ⟨aon, hk⟩ := (b.abortSwitches (· == ClkSrc.pllRoot)).coreDark_sources
  rw [(b.abortSwitches_kept _).ckEq (by simp [Piece.among]) (by simp [Piece.among])] at aon hk
  rw [Block.rootMoved]
  generalize (b.abortSwitches (· == ClkSrc.pllRoot)).coreDark = d at gated aon hk
  have ck := d.failRoot.moveAonHk_ck (· == ClkSrc.pllRoot) .crystal aonDead hkDead
  generalize d.failRoot.moveAonHk (· == ClkSrc.pllRoot) .crystal aonDead hkDead = e at ck
  have root : e.ck.root = d.failRoot.ck.root := congrArg (·.root) ck
  refine ⟨(congrArg (·.coreGated) ck).trans gated, by rw [root]; rfl, by rw [root]; rfl, by rw [root]; rfl, (congrArg (·.aonSrc) ck).trans ?_,
    (congrArg (·.hkSrc) ck).trans ?_⟩
  · change (if d.ck.aonSrc == ClkSrc.pllRoot then ClkSrc.crystal else d.ck.aonSrc) = _
    rw [aon]
    simp
  · change (if d.ck.hkSrc == ClkSrc.pllRoot then ClkSrc.crystal else d.ck.hkSrc) = _
    rw [hk]
    simp

end

/-! ### The two commands -/

section
variable {s : State} {aonDead hkDead : Bool}

theorem exec_xtalFail_fails (armed : s.blk.armed = true) (ok : s.blk.ck.xtalOk = true) :
    exec (.xtalFail aonDead hkDead) s = s.coreFails (·.xtalFail aonDead hkDead) := if_pos ⟨armed, ok⟩

theorem exec_rootLost_fails (armed : s.blk.armed = true) (lock : s.blk.ck.root.lock = true) :
    exec (.rootLost aonDead hkDead) s = s.coreFails (·.rootLost aonDead hkDead) := if_pos ⟨armed, lock⟩

/-- A failure that cuts bursts, with its frame and what it leaves. -/
theorem doesOn_coreFails {i : Instr} {f : Block → Block} {ps : List Piece} {post : State → Prop} (e : exec i s = s.coreFails f)
    (kept : ∀ t, exec i s = .next t → Kept ps s.blk t.blk)
    (h : post { s with mem := cutBursts s.mem s.blk.fresh s.blk.cutGranules, blk := f s.blk.drawCut }) :
    DoesOn i s ps (fun a => a / symsPerGranule ∈ s.blk.cutGranules) post :=
  ⟨_, e, rfl, fun _ outside => Memory.read_cutBursts_other _ _ outside, kept _ e, h⟩

theorem xtalFail_running (armed : s.blk.armed = true) (runs : s.blk.pw.st ≠ .frozen) (ok : s.blk.ck.xtalOk = true) :
    DoesOn (.xtalFail aonDead hkDead) s [.berths, .chans, .chs, .ck, .cnt, .doms, .events, .fresh, .fws, .hold, .ins, .lanes, .lg, .mf, .prot, .pw, .qy, .regs, .running, .sel, .sides, .slots, .stk, .sv, .tide, .tl] (fun a => a / symsPerGranule ∈ s.blk.cutGranules) fun t =>
      t.blk.ck.xtalOk = false ∧ t.blk.ck.coreGated = true ∧ t.blk.ck.root.lock = false ∧ t.blk.ck.root.attempt = false
        ∧ t.blk.ck.aonSrc = .rc ∧ t.blk.ck.hkSrc = .rc ∧ t.blk.ck.tideSrc = .rc ∧ t.blk.regBit Off.ckAlarm 3 = true ∧ t.blk.alertLow = true
        ∧ (s.blk.ck.coreGated = false → t.blk.stk.dman = true ∧ t.blk.qy.reqs = [] ∧ t.blk.west.seg = .down ∧ t.blk.east.seg = .down
            ∧ ∀ l, l < 32 → (t.blk.lane l).st = .off ∨ (t.blk.lane l).st = .failed) := by
  refine doesOn_coreFails (exec_xtalFail_fails armed ok) (fun _ e => execXtalFail_kept aonDead hkDead e) ?_
  have made := Block.xtalFail_running (b := s.blk.drawCut) ok runs aonDead hkDead
  obtain ⟨xtal, core, lock, attempt, aon, hk, tide⟩ := s.blk.drawCut.xtalMoved_ck aonDead hkDead
  have ran : s.blk.ck.coreGated = false → (s.blk.drawCut.xtalMoved aonDead hkDead).Dark := fun ran => Block.xtalMoved_dark (b := s.blk.drawCut) ran ..
  dsimp only
  rw [made]
  generalize s.blk.drawCut.xtalMoved aonDead hkDead = c at *
  have bit : (c.failShown 8 .xtalFail).regBit Off.ckAlarm 3 = true := Block.failShown_bit .xtalFail (by decide)
  rw [Block.failShown_ck]
  refine ⟨xtal, core, lock, attempt, aon, hk, tide, bit, Block.alertLow_of_ckAlarm (by decide) bit, fun open_ => ?_⟩
  obtain ⟨dman, reqs, links⟩ := (ran open_).shown 8 .xtalFail
  exact ⟨dman, reqs, links.west, links.east, links.lane⟩

theorem rootLost_running (armed : s.blk.armed = true) (runs : s.blk.pw.st ≠ .frozen) (lock : s.blk.ck.root.lock = true) :
    DoesOn (.rootLost aonDead hkDead) s [.berths, .chans, .chs, .ck, .cnt, .doms, .events, .fresh, .fws, .hold, .ins, .lanes, .lg, .mf, .prot, .pw, .qy, .regs, .running, .sel, .sides, .slots, .stk, .sv, .tl] (fun a => a / symsPerGranule ∈ s.blk.cutGranules) fun t =>
      t.blk.ck.coreGated = true ∧ t.blk.ck.root.lock = false ∧ t.blk.ck.root.down = true ∧ t.blk.ck.root.attempt = false
        ∧ t.blk.ck.aonSrc = (if s.blk.ck.aonSrc = .pllRoot then .crystal else s.blk.ck.aonSrc)
        ∧ t.blk.ck.hkSrc = (if s.blk.ck.hkSrc = .pllRoot then .crystal else s.blk.ck.hkSrc)
        ∧ t.blk.stk.dman = true ∧ t.blk.qy.reqs = [] ∧ t.blk.west.seg = .down ∧ t.blk.east.seg = .down
        ∧ (∀ l, l < 32 → (t.blk.lane l).st = .off ∨ (t.blk.lane l).st = .failed) ∧ t.blk.regBit Off.ckAlarm 0 = true ∧ t.blk.alertLow = true := by
  refine doesOn_coreFails (exec_rootLost_fails armed lock) (fun _ e => execRootLost_kept aonDead hkDead e) ?_
  have made := Block.rootLost_moved (b := s.blk.drawCut) lock runs aonDead hkDead
  have ck := s.blk.drawCut.rootMoved_ck aonDead hkDead
  have dark := Block.rootMoved_dark (b := s.blk.drawCut) aonDead hkDead
  dsimp only
  rw [made]
  generalize s.blk.drawCut.rootMoved aonDead hkDead = c at *
  obtain ⟨core, unlocked, down, attempt, aon, hk⟩ := ck
  obtain ⟨dman, reqs, links⟩ := dark.shown 1 .rootLost
  have bit : (c.failShown 1 .rootLost).regBit Off.ckAlarm 0 = true := Block.failShown_bit .rootLost (by decide)
  rw [Block.failShown_ck]
  exact ⟨core, unlocked, down, attempt, aon, hk, dman, reqs, links.west, links.east, links.lane, bit, Block.alertLow_of_ckAlarm (by decide) bit⟩

theorem xtalFail_frozen (armed : s.blk.armed = true) (frozen : s.blk.pw.st = .frozen) (ok : s.blk.ck.xtalOk = true) :
    DoesOn (.xtalFail aonDead hkDead) s [.fresh, .ck, .events, .reg Off.ckAlarm, .reg Off.lgAlarm] (fun a => a / symsPerGranule ∈ s.blk.cutGranules) fun t =>
      t.blk.ck.xtalOk = false ∧ t.blk.ck.root.lock = false ∧ t.blk.pw.st = .frozen ∧ t.blk.regBit Off.ckAlarm 3 = true ∧ t.blk.alertLow = true := by
  have made := Block.xtalFail_frozen (b := s.blk.drawCut) ok frozen aonDead hkDead
  have kept : Kept [.fresh, .ck, .events, .reg Off.ckAlarm, .reg Off.lgAlarm] s.blk (s.blk.drawCut.xtalFail aonDead hkDead) := by
    rw [made]
    exact Block.xtalFrozen_keeps (Within.of rfl) (s.blk.drawCut_kept.mono (Within.of rfl))
  refine ⟨_, exec_xtalFail_fails armed ok, rfl, fun _ outside => Memory.read_cutBursts_other _ _ outside, kept, ?_⟩
  have bit : s.blk.drawCut.xtalFrozen.regBit Off.ckAlarm 3 = true := Block.alarmed_bit _ .xtalFail (by decide)
  dsimp only
  rw [made]
  refine ⟨?_, ?_, ?_, bit, Block.alertLow_of_ckAlarm (by decide) bit⟩
  · rw [Block.xtalFrozen, Block.event_ck, Block.orReg_ck]
  · rw [Block.xtalFrozen, Block.event_ck, Block.orReg_ck]
  · rw [Block.xtalFrozen, Block.event_pw, Block.orReg_pw]; exact frozen

theorem rootLost_frozen (armed : s.blk.armed = true) (frozen : s.blk.pw.st = .frozen) (lock : s.blk.ck.root.lock = true) :
    DoesOn (.rootLost aonDead hkDead) s [.fresh, .ck, .events, .reg Off.ckAlarm, .reg Off.lgAlarm] (fun a => a / symsPerGranule ∈ s.blk.cutGranules) fun t =>
      t.blk.ck.root.lock = false ∧ t.blk.pw.st = .frozen ∧ t.blk.regBit Off.ckAlarm 0 = true ∧ t.blk.alertLow = true := by
  have made := Block.rootLost_shown (b := s.blk.drawCut) lock frozen aonDead hkDead
  have kept : Kept [.fresh, .ck, .events, .reg Off.ckAlarm, .reg Off.lgAlarm] s.blk (s.blk.drawCut.rootLost aonDead hkDead) := by
    rw [made]
    exact Block.event_keeps (Within.of rfl) (Block.orReg_keeps (Within.of rfl) (Kept.step (Block.failRoot_kept _) (Within.of rfl) (s.blk.drawCut_kept.mono (Within.of rfl))))
  refine ⟨_, exec_rootLost_fails armed lock, rfl, fun _ outside => Memory.read_cutBursts_other _ _ outside, kept, ?_⟩
  have bit : ((s.blk.drawCut.failRoot.orReg Off.ckAlarm 1).event .rootLost).regBit Off.ckAlarm 0 = true := Block.alarmed_bit _ .rootLost (by decide)
  dsimp only
  rw [made]
  refine ⟨?_, ?_, bit, Block.alertLow_of_ckAlarm (by decide) bit⟩
  · rw [Block.event_ck, Block.orReg_ck, Block.failRoot_lock]
  · rw [Block.event_pw, Block.orReg_pw]; exact frozen

theorem exec_xtalFail_idle (h : s.blk.armed = false ∨ s.blk.ck.xtalOk = false) : exec (.xtalFail aonDead hkDead) s = .next s :=
  if_neg fun both => by rcases h with off | lost <;> simp_all

theorem exec_rootLost_idle (h : s.blk.armed = false ∨ s.blk.ck.root.lock = false) : exec (.rootLost aonDead hkDead) s = .next s :=
  if_neg fun both => by rcases h with off | lost <;> simp_all

end

/-- Settles O13: the core goes dark, AON and HK move, and only then does the failure show; a frozen pier shows it alone. -/
theorem crystalAndRootFailures : Obligations.CrystalAndRootFailures :=
  ⟨fun _ _ _ => xtalFail_running, fun _ _ _ => rootLost_running, fun _ _ _ => xtalFail_frozen, fun _ _ _ => rootLost_frozen,
    fun _ _ _ => exec_xtalFail_idle, fun _ _ _ => exec_rootLost_idle⟩

end Sys2Proof.Machine
end

section
/-! SUPPORT. What fences and marks leave of contents, trips and the pier's power state (R236, R278, R365, R407). -/

namespace Sys2Proof.Machine

open Sys2Proof

/-! ### A pier that wanes -/

/-- The power state without its domains. -/
def Power.bare (p : Power) : Power := { p with doms := [] }

/-- The power state as OPEN is reached. -/
def Power.opened (p : Power) (t : Word) : Power := { p with st := .openS, tOpen := t, tripHold := false }

/-- No channel gains contents, no trip is logged or acknowledged, and the pier's power state stays, but that HARBOUR may pass
to OPEN where no trip is unacknowledged. -/
structure Block.Wanes (b c : Block) : Prop where
  filled : ∀ n, (c.berth n).fillDone = true → (b.berth n).fillDone = true
  trips : c.lg.trips = b.lg.trips
  power : c.pw.bare = b.pw.bare ∨ (b.pw.st = .harbour ∧ b.tripUnacked = false ∧ ∃ t, c.pw.bare = (b.pw.opened t).bare)

section
variable {b c d : Block}

theorem Block.tripUnacked_congr (same : c.lg.trips = b.lg.trips) : c.tripUnacked = b.tripUnacked := by
  rw [Block.tripUnacked, same, Block.tripUnacked]

theorem Block.Wanes.refl (b : Block) : b.Wanes b := ⟨fun _ h => h, rfl, .inl rfl⟩

theorem Power.bare_st {p q : Power} (h : p.bare = q.bare) : p.st = q.st := congrArg (·.st) h

theorem Power.opened_bare {p q : Power} (h : p.bare = q.bare) (t : Word) : (p.opened t).bare = (q.opened t).bare :=
  congrArg (fun x : Power => x.opened t) h

theorem Block.Wanes.trans (h : b.Wanes c) (k : c.Wanes d) : b.Wanes d := by
  refine ⟨fun n full => h.filled n (k.filled n full), k.trips.trans h.trips, ?_⟩
  rcases k.power with same | ⟨harbour, clear, t, opened⟩
  · rcases h.power with before | ⟨st, clear, t, before⟩
    · exact .inl (same.trans before)
    · exact .inr ⟨st, clear, t, same.trans before⟩
  · rcases h.power with before | ⟨-, -, u, before⟩
    · exact .inr ⟨(Power.bare_st before) ▸ harbour, (Block.tripUnacked_congr h.trips) ▸ clear, t, opened.trans (Power.opened_bare before t)⟩
    · have st : c.pw.st = .openS := Power.bare_st before
      rw [st] at harbour
      exact absurd harbour (by decide)

theorem Block.Wanes.after (k : c.Wanes d) (h : b.Wanes c) : b.Wanes d := h.trans k

theorem Block.Wanes.foldl {α : Type} {f : Block → α → Block} (h : ∀ (b : Block) x, b.Wanes (f b x)) (b : Block) (xs : List α) : b.Wanes (xs.foldl f b) :=
  List.foldlRecOn (motive := b.Wanes) xs f (.refl b) fun c same x _ => same.trans (h c x)

theorem Block.Wanes.each {f : Block → Nat → Block} (h : ∀ (b : Block) n, b.Wanes (f b n)) (b : Block) (ns : List Nat) : b.Wanes (b.each ns f) := .foldl h b ns

theorem Block.Wanes.ite {p : Prop} [Decidable p] (h : b.Wanes c) (k : b.Wanes d) : b.Wanes (if p then c else d) := by
  split
  · exact h
  · exact k

/-- A computed test: the piece is no berth, and neither the power state nor the logbook. -/
def Piece.wanes : Piece → Bool
  | .berth _ | .berths | .pw | .lg => false
  | _ => true

/-- What touches no berth, no record of a trip and no power state. -/
theorem Kept.wanes {ps : List Piece} (h : Kept ps b c) (beside : ps.all Piece.wanes = true) : b.Wanes c := by
  have off {p : Piece} (held : p ∈ ps) : p.wanes = true := List.all_eq_true.mp beside p held
  have berths (n : Nat) : ¬ (Piece.berth n).among ps := fun held => held.elim (fun k => Bool.false_ne_true (off k)) fun k => Bool.false_ne_true (off k)
  exact ⟨fun n full => by rw [← show c.berth n = b.berth n from h.out (.berth n) (berths n)]; exact full,
    (h.out .lg fun held => Bool.false_ne_true (off held)).1, .inl (h.out .pw fun held => Bool.false_ne_true (off held))⟩

theorem Block.Wanes.of_eq (berths : c.berths = b.berths) (trips : c.lg.trips = b.lg.trips) (pw : c.pw.bare = b.pw.bare) : b.Wanes c :=
  ⟨fun n full => by rw [Block.berth, ← berths]; exact full, trips, .inl pw⟩

theorem Block.modBerth_wanes (b : Block) (n : Nat) {f : Berth → Berth} (h : ∀ x, (f x).fillDone = true → x.fillDone = true) : b.Wanes (b.modBerth n f) := by
  refine ⟨fun k full => ?_, rfl, .inl rfl⟩
  rw [Block.berth_modBerth] at full
  split at full
  case isTrue same => subst same; exact h _ full
  case isFalse => exact full

theorem Block.modDom_wanes (b : Block) (n : Nat) (f : Dom → Dom) : b.Wanes (b.modDom n f) := .of_eq rfl rfl rfl

theorem Kept.withSv (b : Block) (v : Survey) : Kept [.sv] b { b with sv := v } := by
  apply Kept.of_fields (d := { b with sv := v }) (Kept.refl _ b) (sv := .inr List.mem_cons_self) <;> exact .inl rfl

/-! ### HARBOUR to OPEN (R365) -/

theorem Block.liftCap_wanes (b : Block) (sd : Side) : b.Wanes (b.liftCap sd) :=
  have lifted := (b.modSide_kept sd fun x => { x with capG2 := false }).wanes rfl
  .ite lifted (.ite ((lifted.trans ((Block.trainSide_kept ..).wanes rfl)).trans ((Block.purgeSide_kept ..).wanes rfl)) (.refl b))

theorem Block.enterOpen_wanes (harbour : b.pw.st = .harbour) (clear : b.tripUnacked = false) : b.Wanes b.enterOpen :=
  ⟨fun _ full => full, rfl, .inr ⟨harbour, clear, _, rfl⟩⟩

theorem Block.checkOpen_wanes (b : Block) : b.Wanes b.checkOpen := by
  have lifted := (b.liftCap_wanes .west).trans (Block.liftCap_wanes _ .east)
  have power : ((b.liftCap .west).liftCap .east).pw.bare = b.pw.bare := by
    have side (c : Block) (sd : Side) : (c.liftCap sd).pw.bare = c.pw.bare := by
      unfold Block.liftCap Block.retrainSide
      have noted := (c.modSide_kept sd fun x => { x with capG2 := false }).out .pw (by simp [Piece.among])
      split
      · exact noted
      · split
        · exact ((Block.purgeSide_kept ..).out .pw (by simp [Piece.among])).trans (((Block.trainSide_kept ..).out .pw (by simp [Piece.among])).trans noted)
        · rfl
    rw [side, side]
  rw [Block.checkOpen_eq]
  split
  case isTrue => exact .refl b
  case isFalse ready =>
    obtain ⟨harbour, clear⟩ : b.pw.st = .harbour ∧ b.tripUnacked = false := by
      simp only [Bool.or_eq_true, bne_iff_ne, ne_eq, Bool.not_eq_true', not_or, not_not, Bool.not_eq_false, Block.filledAndClear, Bool.and_eq_true] at ready
      exact ⟨ready.1, by simpa using ready.2.2⟩
    refine .ite (lifted.trans (Block.enterOpen_wanes ((Power.bare_st power).trans harbour) ?_)) lifted
    rw [Block.tripUnacked_congr lifted.trips]
    exact clear

/-! ### Requests that end, and fences -/

theorem Block.settleBerth_wanes (b : Block) (n : Nat) :
    b.Wanes (if (b.berth n).st = .fenced ∧ ¬ b.busyAt n then b.modBerth n fun x => { x with st := .absent } else b) := by
  refine .ite (b.modBerth_wanes n fun _ h => ?_) (.refl b)
  exact h

theorem Block.settle_wanes (b : Block) : b.Wanes b.settle := by
  unfold Block.settle
  have emptied : b.Wanes (b.each (List.range 64) fun b n =>
      if (b.berth n).st = .fenced ∧ ¬ b.busyAt n then b.modBerth n fun x => { x with st := .absent } else b) :=
    .each (fun c n => c.settleBerth_wanes n) ..
  dsimp only
  generalize Block.each .. = c at emptied ⊢
  split
  · exact .ite (emptied.trans (.of_eq rfl rfl rfl)) emptied
  · exact emptied

theorem Block.afterReq_wanes (b : Block) (r : Req) : b.Wanes (b.afterReq r) := by
  unfold Block.afterReq
  refine .after ((Block.wakeFences_kept _).wanes rfl) (.after (Block.settle_wanes _) (.after ((Block.clearPanic_kept _).wanes rfl) (.each (fun c n => ?_) ..)))
  exact .after ((Block.grantStaging_kept _ n).wanes rfl) ((c.modChan_kept n _).wanes rfl)

theorem Block.endReq_wanes (b : Block) (r : Req) (level : Nat) (a : Answer) : b.Wanes (b.endReq r level a) := by
  unfold Block.endReq
  refine .trans (.trans (.trans ?_ ((Block.dropReq_kept _ r.id).wanes rfl)) ((Block.complete_kept ..).wanes rfl)) (Block.afterReq_wanes _ r)
  exact .of_eq rfl rfl rfl

theorem Block.emitCopy_wanes (b : Block) (r : Req) : b.Wanes (b.emitCopy r) := by
  unfold Block.emitCopy
  refine .trans (.trans (.trans ((b.dropReq_kept r.id).wanes rfl) ?_) (.foldl (fun c e => ?_) ..)) (Block.afterReq_wanes _ r)
  · exact .of_eq rfl rfl rfl
  · exact (Block.sendRemote_kept ..).wanes rfl

theorem Block.checkReq_wanes (b : Block) (id : Nat) : b.Wanes (b.checkReq id) := by
  unfold Block.checkReq
  split
  case h_1 => exact .refl b
  case h_2 r _ =>
    refine .ite (.ite (.ite ?poisoned (.refl b)) (.ite (.ite (b.endReq_wanes ..) (b.endReq_wanes ..)) (.refl b)))
      (.ite (.ite (b.emitCopy_wanes r) (b.endReq_wanes ..)) (.refl b))
    case poisoned => exact .trans (.foldl (fun c p => (c.served_kept r p true).wanes rfl) ..) (Block.endReq_wanes ..)

theorem Block.fenceReq_wanes (b : Block) (age n id : Nat) : b.Wanes (b.fenceReq age n id) := by
  unfold Block.fenceReq
  split
  case h_1 => exact .refl b
  case h_2 r _ =>
    refine .ite (.ite (.refl b) ?unwritten) (.ite (b.endReq_wanes ..) (.refl b))
    case unwritten => exact .after (Block.checkReq_wanes _ id) (.after ((Block.modReq_kept ..).wanes rfl) (b.modBerth_wanes n fun _ h => h))

theorem Block.fenceReqs_wanes (b : Block) (age n : Nat) (ids : List Nat) : b.Wanes (b.each ids fun b id => b.fenceReq age n id) :=
  .each (fun c id => c.fenceReq_wanes age n id) ..

theorem Block.enterFenced_wanes (b : Block) (n : Nat) : b.Wanes (b.enterFenced n) :=
  (b.modBerth_wanes n fun _ h => absurd h (by simp)).trans ((Block.orReg_kept ..).wanes rfl)

theorem Block.fenceBit_wanes (b : Block) (n : Nat) : b.Wanes (b.fenceBit n) := .of_eq rfl rfl rfl

theorem Block.fenceServing_wanes (b : Block) (age n : Nat) :
    b.Wanes (((b.modChan n Chan.quiet).each ((b.modChan n Chan.quiet).qy.reqs.map (·.id)) fun b id => b.fenceReq age n id).charterBerthLost n) :=
  .trans (.trans ((b.modChan_kept n _).wanes rfl) (Block.fenceReqs_wanes ..)) ((Block.charterBerthLost_kept ..).wanes rfl)

theorem Block.fenceChan_wanes (b : Block) (age n : Nat) : b.Wanes (b.fenceChan age n) := by
  have noted := b.fenceBit_wanes n
  unfold Block.fenceChan
  dsimp only
  split
  case h_4 => exact noted.trans (Block.fenceReqs_wanes ..)
  case h_5 => exact noted.trans ((b.fenceBit n).modBerth_wanes n fun _ h => absurd h (by simp))
  all_goals exact (noted.trans (Block.enterFenced_wanes _ n)).trans (Block.fenceServing_wanes ..)

theorem Block.fenceAll_wanes (b : Block) (age : Nat → Nat) (ns : List Nat) : b.Wanes (b.fenceAll age ns) :=
  .trans (.trans (.each (fun c n => c.fenceChan_wanes (age n) n) ..) (Block.settle_wanes _)) (Block.checkOpen_wanes _)

/-! ### The memory side comes up (R236, R276) -/

theorem Block.alarmed_wanes (b : Block) (m : Word) (e : Ev) (u : Nat) : b.Wanes ((b.orReg Off.stAlarm m).event e u) :=
  ((b.orReg_kept ..).wanes rfl).trans ((Block.event_kept ..).wanes rfl)

theorem Block.diagnose_wanes (b : Block) (lost mon : Nat → Bool) (age : Nat → Nat) : b.Wanes (b.diagnose lost mon age) := by
  unfold Block.diagnose
  dsimp only
  split
  case isTrue => exact .refl b
  case isFalse =>
    split
    case isTrue => exact (b.alarmed_wanes ..).trans (Block.fenceAll_wanes ..)
    case isFalse =>
      split
      case h_1 j _ =>
        have marked : b.Wanes (b.markRelay j) := .of_eq rfl rfl rfl
        exact (marked.trans (Block.alarmed_wanes ..)).trans (Block.fenceAll_wanes ..)
      case h_2 => exact (Block.Wanes.each (fun c n => c.alarmed_wanes ..) b _).trans (Block.fenceAll_wanes ..)

theorem Block.leaveAbsent_wanes (b : Block) (n : Nat) : b.Wanes (b.leaveAbsent n) :=
  (b.modBerth_wanes n (f := fun x => { x with fence := [] }) fun _ h => h).trans (.of_eq rfl rfl rfl)

theorem Block.startFill_wanes (b : Block) (n : Nat) : b.Wanes (b.startFill n) := by
  unfold Block.startFill
  refine .after ((Block.modChan_kept ..).wanes rfl) (.after (Block.modBerth_wanes _ n fun _ h => ?_) (.after ((Block.wakeClean_kept ..).wanes rfl) (b.leaveAbsent_wanes n)))
  exact absurd h (by simp)

theorem Block.bringUp_wanes (b : Block) (n : Nat) (ok : Bool) : b.Wanes (b.bringUp n ok) := by
  have stamped := (b.stampCal_kept n (ok && b.flightOk n)).wanes rfl
  refine .ite (.refl b) (.ite stamped (.ite ?_ (stamped.trans (Block.startFill_wanes ..))))
  exact ((stamped.trans (Block.leaveAbsent_wanes ..)).trans ((Block.wakeClean_kept ..).wanes rfl)).trans (Block.modBerth_wanes _ n fun _ h => h)

theorem Block.bringUpAll_wanes (b : Block) (pass lost : BitVec 64) : b.Wanes (b.bringUpAll pass lost) :=
  (b.diagnose_wanes ..).trans (.each (fun c _ => .ite (.refl c) (c.bringUp_wanes ..)) ..)

/-! ### Marks (R407) -/

theorem Block.leaveService_wanes (b : Block) (n : Nat) : b.Wanes (b.leaveService n) :=
  .ite (((b.enterFenced_wanes n).trans ((Block.charterBerthLost_kept ..).wanes rfl)).trans ((Block.settle_wanes _).trans (Block.checkOpen_wanes _))) (.refl b)

theorem Block.bgFails_wanes (b : Block) (dom : Nat) : b.Wanes (b.bgFails dom) := .each Block.leaveService_wanes ..

theorem Block.markDomain_wanes (b : Block) (dom : Nat) : b.Wanes (b.markDomain dom) := by
  have served : b.Wanes (if 16 ≤ dom then b.bgFails dom else b) := .ite (b.bgFails_wanes dom) (.refl b)
  exact ((served.trans (Block.modDom_wanes ..)).trans ((Block.showDomain_kept ..).wanes rfl)).trans ((Block.event_kept ..).wanes rfl)

theorem Block.markLane_wanes (b : Block) (l : Nat) : b.Wanes (b.markLane l) := (b.markLane_kept l).wanes rfl

theorem Block.markChannel_wanes (b : Block) (n : Nat) (fence : Bool) : b.Wanes (b.markChannel n fence) := by
  have left : b.Wanes (if fence then b.fenceRunning [n] else b.leaveService n) := .ite (b.fenceAll_wanes ..) (b.leaveService_wanes n)
  refine .after ((Block.event_kept ..).wanes rfl) (.after ((Kept.withSv _ _).wanes rfl) (left.trans (Block.modBerth_wanes _ n fun _ h => ?_)))
  exact absurd h (by simp)

theorem Block.passDomain_wanes (b : Block) (dom : Nat) : b.Wanes (b.passDomain dom) := by
  unfold Block.passDomain
  exact .ite (.after ((Kept.withSv _ _).wanes rfl) (.after ((Block.hideDomain_kept ..).wanes rfl) (b.modDom_wanes dom _))) (.refl b)

theorem Block.powerUp_wanes (b : Block) (dom : Nat) : b.Wanes (b.powerUp dom) := b.modDom_wanes dom _

/-! ### A survey's findings (R407) -/

/-- What a survey's findings change beside domains, channels, lanes and the survey's own record. -/
abbrev findingPieces : List Piece := [.cols, .events, .regs, .stk]

/-- A relation of blocks that the steps of a survey's findings have in common; the power group under test is not theirs to
change. -/
structure Finding (R : Block → Block → Prop) : Prop where
  trans : ∀ b c d : Block, R b c → R c d → R b d
  kept : ∀ b c : Block, Kept findingPieces b c → R b c
  noted : ∀ (b : Block) (v : Survey), v.group = b.sv.group → R b { b with sv := v }

section
variable {R : Block → Block → Prop} (h : Finding R) {f : SurveyFindings}
include h

theorem Finding.refl (b : Block) : R b b := h.kept b b (.refl ..)

theorem Finding.each {g : Block → Nat → Block} {ns : List Nat} (step : ∀ (c : Block), ∀ n ∈ ns, R c (g c n)) (b : Block) : R b (b.each ns g) :=
  List.foldlRecOn (motive := R b) ns g (h.refl b) fun _ before n listed => h.trans _ _ _ before (step _ n listed)

theorem Finding.svCheck {ok : Bool} (fails : ok = false → ∀ c : Block, R c (c.markDomain svDom)) (passes : ∀ c : Block, R c (c.passDomain svDom))
    (powers : ∀ c : Block, R c (c.powerUp svDom)) (b : Block) : R b (b.svCheck ok) := by
  have noted := h.noted b { b.sv with svOk := ok } rfl
  unfold Block.svCheck
  dsimp only
  split
  case isTrue bad =>
    refine h.trans _ _ _ (h.trans _ _ _ noted (fails (by simpa using bad) _)) (h.kept _ _ ((Block.event_kept ..).mono ?_))
    exact Within.cons (by simp [Piece.inside]) (Within.single (by simp [Piece.inside]))
  case isFalse =>
    split
    · exact h.trans _ _ _ (h.trans _ _ _ noted (passes _)) (powers _)
    · exact noted

theorem Finding.applyLogic (domain : ∀ (c : Block) d, f.domFail.getLsbD d = true ∨ 16 ≤ d → R c (c.markDomain d)) (b : Block) : R b (b.applyLogic f) := by
  unfold Block.applyLogic
  refine h.trans _ _ _ (h.each (fun c d failed => domain c d (.inl (List.mem_filter.mp failed).2)) b) (h.each (fun c i _ => ?_) _)
  have read : R c (c.sramInstance f i).1 := h.noted c _ rfl
  dsimp only
  split
  case isTrue fails => exact h.trans _ _ _ read (domain _ _ (.inr fails.2.1))
  case isFalse => exact read

theorem Finding.repairChannel (b : Block) (n : Nat) : R b (b.repairChannel f n).1 := by
  have coils (g : Column → Column) : R b (b.modCol n g) := h.kept _ _ ((b.modCol_kept n g).mono (Within.single (by simp [Piece.inside])))
  unfold Block.repairChannel
  dsimp only
  refine List.foldlRecOn (motive := fun acc : Block × Bool => R b acc.1) _ _ ?_ fun acc before bank _ => ?_
  · dsimp only
    exact coils _
  · obtain ⟨c, bad⟩ := acc
    dsimp only at before ⊢
    split
    · exact before
    · refine h.trans _ _ _ before (h.noted _ _ ?_)
      rfl

theorem Finding.trimRepairs (n : Nat) (b : Block) : R b (b.trimRepairs n).1 := by
  induction n generalizing b with
  | zero => exact h.refl b
  | succ n ih =>
    unfold Block.trimRepairs
    split
    · exact h.refl b
    · refine h.trans _ _ _ (h.noted b { b.sv with dramRepairs := ?_ } rfl) ?_
      rotate_left
      · exact ih _

theorem Finding.applyMarches (b : Block) : R b (b.applyMarches f).1 := by
  unfold Block.applyMarches
  refine h.trans _ _ _ (List.foldlRecOn (motive := fun acc : Block × List Nat => R b acc.1) _ _ (h.refl b) fun acc before n _ => ?_) (h.trimRepairs 64 _)
  exact h.trans _ _ _ before (h.repairChannel _ n)

theorem Finding.applyFindings (svCheck : ∀ c : Block, R c (c.svCheck f.svOk)) (lane : ∀ (c : Block) l, f.laneFail.getLsbD l = true → R c (c.markLane l)) (domain : ∀ (c : Block) d, f.domFail.getLsbD d = true ∨ 16 ≤ d → R c (c.markDomain d))
    (channel : ∀ (c : Block) n fence, R c (c.markChannel n fence)) (tested : Nat → Bool) (b : Block) : R b (b.applyFindings f tested) := by
  unfold Block.applyFindings
  dsimp only
  have columns (c : Block) (g : SurveyFindings) : R c (c.applyColumns g).1 := h.kept _ _ ((c.applyColumns_kept g).mono (Within.of rfl))
  refine h.trans _ _ _ ?_ (h.each (fun c n _ => channel c n true) _)
  refine h.trans _ _ _ ?_ (h.each (fun c n _ => channel c n false) _)
  refine h.trans _ _ _ ?_ (h.applyMarches _)
  refine h.trans _ _ _ ?_ (columns _ _)
  refine h.trans _ _ _ ?_ (h.each (fun c l failed => lane c l (List.mem_filter.mp failed).2) _)
  refine h.trans _ _ _ ?_ (h.applyLogic domain _)
  exact h.trans _ _ _ (svCheck b) (h.noted _ _ rfl)

end

theorem Block.Wanes.finding : Finding Block.Wanes :=
  ⟨fun _ _ _ => .trans, fun _ _ k => k.wanes rfl, fun _ _ _ => (Kept.withSv _ _).wanes rfl⟩

theorem Block.svCheck_wanes (b : Block) (ok : Bool) : b.Wanes (b.svCheck ok) :=
  Block.Wanes.finding.svCheck (fun _ c => c.markDomain_wanes _) (fun c => c.passDomain_wanes _) (fun c => c.powerUp_wanes _) b

theorem Block.applyFindings_wanes (b : Block) (f : SurveyFindings) (tested : Nat → Bool) : b.Wanes (b.applyFindings f tested) :=
  Block.Wanes.finding.applyFindings (fun c => c.svCheck_wanes _) (fun c l _ => c.markLane_wanes l) (fun c d _ => c.markDomain_wanes d) (fun c n fence => c.markChannel_wanes n fence) tested b

/-! ### The HK domain through a survey (R407) -/

theorem Block.dom_modDom (b : Block) (n k : Nat) (f : Dom → Dom) : (b.modDom n f).dom k = if n = k then f (b.dom n) else b.dom k := tget_tset ..

/-- A domain that has failed stays FAILED. -/
def Block.StillFailed (k : Nat) (b c : Block) : Prop := (b.dom k).st = .failed → (c.dom k).st = .failed

theorem Block.stillFailed_finding (k : Nat) : Finding (Block.StillFailed k) :=
  ⟨fun _ _ _ h g failed => g (h failed), fun b c same failed => by rw [show c.dom k = b.dom k from same.out (.dom k) (by simp [Piece.among])]; exact failed,
    fun _ _ _ failed => failed⟩

theorem Block.markDomain_dom (b : Block) (d k : Nat) : ((b.markDomain d).dom k).st = if d = k then .failed else (b.dom k).st := by
  have served : (if 16 ≤ d then b.bgFails d else b).dom k = b.dom k := by
    split
    · exact (b.bgFails_kept d).out (.dom k) (by simp [Piece.among])
    · rfl
  have made : (b.markDomain d).dom k = ((if 16 ≤ d then b.bgFails d else b).modDom d fun x => { x with st := .failed }).dom k :=
    ((Block.event_kept ..).out (.dom k) (by simp [Piece.among])).trans ((Block.showDomain_kept ..).out (.dom k) (by simp [Piece.among]))
  rw [made, Block.dom_modDom]
  split
  · rfl
  · rw [served]

theorem Block.markDomain_stillFailed (b : Block) (d k : Nat) : Block.StillFailed k b (b.markDomain d) := fun failed => by
  rw [Block.markDomain_dom]
  split
  · rfl
  · exact failed

theorem Block.markLane_dom (b : Block) (l k : Nat) : (b.markLane l).dom k = b.dom k := (b.markLane_kept l).out (.dom k) (by simp [Piece.among])

theorem Block.lane_stillFailed (b : Block) (l k : Nat) : Block.StillFailed k b (b.markLane l) := fun failed => by rw [Block.markLane_dom]; exact failed

theorem Block.applyFindings_hkFailed (b : Block) (f : SurveyFindings) (tested : Nat → Bool) : Block.StillFailed hkDom b (b.applyFindings f tested) := by
  have h := Block.stillFailed_finding hkDom
  have beside {c d : Block} (k : Kept [.dom svDom, .sv] c d) : Block.StillFailed hkDom c d := fun failed => by
    rw [show d.dom hkDom = c.dom hkDom from k.out (.dom hkDom) (by simp [Piece.among])]
    exact failed
  refine h.applyFindings (fun c => h.svCheck (fun _ e => e.markDomain_stillFailed _ _) (fun e => beside (e.passDomain_kept _))
    (fun e => beside ((e.powerUp_kept _).mono (Within.of_subset (by simp)))) c) (fun c l _ => Block.lane_stillFailed c l _) (fun c d _ => c.markDomain_stillFailed _ _) (fun c n fence => ?_) tested b
  intro failed
  rw [show (c.markChannel n fence).dom hkDom = c.dom hkDom from (c.markChannel_kept n fence).out (.dom hkDom) (by simp [Piece.among])]
  exact failed

/-- With the survey's engine in order and no domain failing its test, the domains beside SV and the channels' stand as they
stood. -/
theorem Block.applyFindings_dom (b : Block) {f : SurveyFindings} (ok : f.svOk = true) (sound : f.domFail = 0) {k : Nat} (low : k < 16) (other : svDom ≠ k)
    (tested : Nat → Bool) : ((b.applyFindings f tested).dom k).st = (b.dom k).st := by
  have h : Finding fun b c : Block => (c.dom k).st = (b.dom k).st :=
    ⟨fun _ _ _ j k => k.trans j, fun b c same => congrArg Dom.st (same.out (.dom k) (by simp [Piece.among])), fun _ _ _ => rfl⟩
  refine h.applyFindings (fun c => h.svCheck (fun bad => absurd ok (by simp [bad])) (fun e => ?_) (fun e => ?_) c)
    (fun c l _ => congrArg Dom.st (c.markLane_dom l k)) (fun c d named => ?_) (fun c n fence => ?_) tested b
  · exact congrArg Dom.st ((e.passDomain_kept svDom).out (.dom k) (by simpa [Piece.among] using Ne.symm other))
  · exact congrArg Dom.st ((e.powerUp_kept svDom).out (.dom k) (by simpa [Piece.among] using Ne.symm other))
  · rw [Block.markDomain_dom, if_neg]
    rintro rfl
    rcases named with bit | high
    · simp [sound] at bit
    · omega
  · exact congrArg Dom.st ((c.markChannel_kept n fence).out (.dom k) (by simp [Piece.among]))

theorem Block.applyFindings_hk (b : Block) {f : SurveyFindings} (ok : f.svOk = true) (sound : f.domFail = 0) (tested : Nat → Bool) :
    ((b.applyFindings f tested).dom hkDom).st = (b.dom hkDom).st := b.applyFindings_dom ok sound (by decide) (by decide) tested

end

end Sys2Proof.Machine
end

section
/-! SUPPORT. Arrival step 5: the survey ends, HARBOUR, and what each channel keeps (R364, R366 to R368). -/

namespace Sys2Proof.Machine

open Sys2Proof

section
variable {b c : Block} {s : State} {f : SurveyFindings}

/-! ### The end of the survey -/

/-- The survey no longer under way. -/
def Block.surveyIdle (c : Block) : Block := { c with sv.busy := false }

/-- The contents decided and the chart written, before HARBOUR. -/
def Block.surveyClosed (c : Block) : Block := c.surveyIdle.decideContents.surveyChart

theorem Block.surveyOver_eq (f : SurveyFindings) : c.surveyOver f = if (c.surveyIdle.dom hkDom).st == .failed then c.surveyIdle
    else (c.surveyClosed.enterHarbour f.calPass f.clkLost).arrive := rfl

theorem Block.surveyIdle_dom (k : Nat) : c.surveyIdle.dom k = c.dom k := rfl

theorem Block.surveyOver_failed (failed : (c.dom hkDom).st = .failed) : c.surveyOver f = c.surveyIdle := by
  rw [Block.surveyOver_eq]
  exact if_pos (by rw [Block.surveyIdle_dom, failed]; rfl)

theorem Block.surveyOver_sound (sound : (c.dom hkDom).st ≠ .failed) :
    c.surveyOver f = (c.surveyClosed.enterHarbour f.calPass f.clkLost).arrive := by
  rw [Block.surveyOver_eq]
  exact if_neg (by rw [Block.surveyIdle_dom]; simpa using sound)

/-- The block that an arrival survey's findings are applied to. -/
def Block.surveyed (b : Block) (f : SurveyFindings) : Block := if b.pw.surveyFull then b else b.surveyKind f.svOk

/-- The findings that end an arrival's survey. -/
def Block.lastFindings (b : Block) (f : SurveyFindings) : SurveyFindings :=
  if b.pw.surveyFull then SurveyFindings.afterGroups f else (b.surveyKind f.svOk).findable (SurveyFindings.withoutEngine f)

/-- The survey's findings applied. -/
def Block.found (b : Block) (f : SurveyFindings) : Block := (b.surveyed f).applyFindings (b.lastFindings f)

theorem Block.arrivalSurveyDone_over (st : b.pw.st = .survey) (arr : b.pw.arr = .survey) (runs : b.hmRuns = true) (core : b.coreRuns = true) :
    b.arrivalSurveyDone f = (b.found f).surveyOver f := by
  unfold Block.arrivalSurveyDone
  rw [if_neg (by simp [st, runs, core]), if_neg (by simp [arr]), if_neg (by simp [arr]), Block.found, Block.surveyed, Block.lastFindings]
  split <;> rfl

theorem exec_arrivalSurveyDone_upd (f : SurveyFindings) : exec (.arrivalSurveyDone f) s = s.upd (·.arrivalSurveyDone f) := rfl

theorem Block.surveyed_dom (k : Nat) : ((b.surveyed f).dom k) = b.dom k := by
  unfold Block.surveyed Block.surveyKind
  split
  · rfl
  · split <;> rfl

theorem Block.surveyed_ok (ok : f.svOk = true) : b.surveyed f = b := by
  unfold Block.surveyed Block.surveyKind
  rw [if_pos ok, ite_self]

theorem Block.surveyed_st : (b.surveyed f).pw.st = b.pw.st := by
  unfold Block.surveyed Block.surveyKind
  split
  · rfl
  · split <;> rfl

theorem Block.lastFindings_sound (ok : f.svOk = true) (sound : f.domFail = 0) : (b.lastFindings f).svOk = true ∧ (b.lastFindings f).domFail = 0 := by
  unfold Block.lastFindings SurveyFindings.withoutEngine
  split
  · exact ⟨ok, rfl⟩
  · exact ⟨ok, sound⟩

theorem Block.found_wanes (ok : f.svOk = true) : b.Wanes (b.found f) := by
  rw [Block.found, Block.surveyed_ok ok]
  exact b.applyFindings_wanes _ _

theorem Block.found_st (st : b.pw.st = .survey) : (b.found f).pw.st = .survey := by
  have st' : (b.surveyed f).pw.st = .survey := Block.surveyed_st.trans st
  have wanes := (b.surveyed f).applyFindings_wanes (b.lastFindings f) fun _ => true
  rw [Block.found]
  generalize (b.surveyed f).applyFindings (b.lastFindings f) = c at wanes ⊢
  rcases wanes.power with same | ⟨harbour, -⟩
  · exact (Power.bare_st same).trans st'
  · rw [st'] at harbour
    exact absurd harbour (by decide)

/-- Outside HARBOUR findings leave what the power state says beside the domains. -/
theorem Block.found_pwOf (ok : f.svOk = true) (st : b.pw.st = .survey) : (b.found f).pw.bare = b.pw.bare := by
  rcases (Block.found_wanes (b := b) ok).power with same | ⟨harbour, -⟩
  · exact same
  · rw [st] at harbour
    exact absurd harbour (by decide)

theorem arrivalSurveyDone_failed (st : s.blk.pw.st = .survey) (arr : s.blk.pw.arr = .survey) (runs : s.blk.hmRuns = true) (core : s.blk.coreRuns = true)
    (failed : (s.blk.dom hkDom).st = .failed) :
    Does (.arrivalSurveyDone f) s [.berths, .chans, .chs, .ck, .cnt, .cols, .doms, .events, .fresh, .fws, .ins, .keys, .lanes, .lg, .mf, .prot, .pw, .qy, .regs, .running, .sides, .slots, .stk, .sv, .tl] fun b => b.pw.st = .survey ∧ b.sv.busy = false := by
  have hk : ((s.blk.found f).dom hkDom).st = .failed :=
    Block.applyFindings_hkFailed (s.blk.surveyed f) (s.blk.lastFindings f) (fun _ => true) (by rw [Block.surveyed_dom]; exact failed)
  have made : s.blk.arrivalSurveyDone f = (s.blk.found f).surveyIdle := (Block.arrivalSurveyDone_over st arr runs core).trans (Block.surveyOver_failed hk)
  have kept := s.blk.arrivalSurveyDone_kept f
  have st' := Block.found_st (f := f) st
  rw [made] at kept
  generalize s.blk.found f = c at made kept st'
  exact does_upd_eq (exec_arrivalSurveyDone_upd f) made kept ⟨st', rfl⟩

/-! ### What a channel keeps (R367) -/

theorem Block.keeps_full {n : Nat} (h : b.keeps n = true) :
    b.pw.warm = true ∧ b.pw.surveyFull = false ∧ b.pw.afterTrip = false ∧ (b.berth n).fillDone = true := by
  simp only [Block.keeps, Bool.and_eq_true, Bool.not_eq_true'] at h
  obtain ⟨⟨⟨⟨warm, quick⟩, calm⟩, full⟩, -⟩ := h
  exact ⟨warm, quick, calm, full⟩

/-- A channel's contents decided. -/
def Block.decideAt (b : Block) (n : Nat) : Block := b.modBerth n fun (x : Berth) => { x with fillDone := b.keeps n }

theorem Block.decideContents_eq : b.decideContents = b.each (List.range 64) Block.decideAt := rfl

theorem Block.decideAt_fillDone (n k : Nat) : ((b.decideAt n).berth k).fillDone = if n = k then b.keeps k else (b.berth k).fillDone := by
  rw [Block.decideAt, Block.berth_modBerth]
  by_cases same : n = k
  · rw [if_pos same, if_pos same, same]
  · rw [if_neg same, if_neg same]

theorem Block.decideAt_pw (n : Nat) : (b.decideAt n).pw = b.pw := rfl

/-- A channel with contents after the decision had them before, on the way that keeps them. -/
theorem Block.decideContents_full {n : Nat} (low : n < 64) (full : (b.decideContents.berth n).fillDone = true) :
    b.pw.warm = true ∧ b.pw.surveyFull = false ∧ b.pw.afterTrip = false ∧ (b.berth n).fillDone = true := by
  have at_ := Block.each_at (f := Block.decideAt) (π := fun c => (c.pw, (c.berth n).fillDone)) List.nodup_range (List.mem_range.mpr low)
    (fun c k _ other => by rw [Block.decideAt_fillDone, if_neg other, Block.decideAt_pw]) b
  obtain ⟨c, same, last⟩ := at_
  obtain ⟨pw, fill⟩ := Prod.mk.inj same
  obtain ⟨-, last⟩ := Prod.mk.inj last
  have made : (b.decideContents.berth n).fillDone = c.keeps n := by
    rw [Block.decideContents_eq, last, Block.decideAt_fillDone, if_pos rfl]
  obtain ⟨warm, quick, calm, full⟩ := Block.keeps_full (made.symm.trans full)
  exact ⟨pw ▸ warm, pw ▸ quick, pw ▸ calm, fill.symm.trans full⟩

/-! ### HARBOUR (R364) -/

theorem Block.wearSlot_trips (n : Nat) : (b.wearSlot n).lg.trips = b.lg.trips := by
  unfold Block.wearSlot
  dsimp only
  split <;> rfl

theorem Block.chartBegin_trips : b.chartBegin.lg.trips = b.lg.trips := by
  unfold Block.chartBegin
  split
  · rfl
  · split
    · exact ((Block.orReg_kept ..).out .lg (by simp [Piece.among])).1.trans ((Block.event_kept ..).out .lg (by simp [Piece.among])).1
    · exact Block.wearSlot_trips _

theorem Block.chartEnd_trips (age : BitVec 4) : (b.chartEnd age).lg.trips = b.lg.trips := by
  unfold Block.chartEnd
  split <;> rfl

theorem Block.surveyChart_trips : b.surveyChart.lg.trips = b.lg.trips := by
  unfold Block.surveyChart
  split
  · exact ((Block.clrReg_kept ..).out .lg (by simp [Piece.among])).1.trans ((Block.chartEnd_trips 0).trans Block.chartBegin_trips)
  · rfl

/-- HARBOUR entered, before the channels come up. -/
def Block.harboured (c : Block) : Block :=
  { c with stk.dman := false, pw.st := .harbour, pw.arr := .fill, pw.tHarbour := c.usSince c.pw.resetEdge, pw.tripHold := c.tripUnacked, pw.afterTrip := false }

/-- Whether a channel that came into service kept its contents, noted. -/
def Block.keptNoted (c : Block) : Block := { c with pw.contentsKept := (List.range 64).any fun n => c.inSvc n && (c.berth n).fillDone }

theorem Block.enterHarbour_eq (calPass clkLost : BitVec 64) : c.enterHarbour calPass clkLost = (c.harboured.bringUpAll calPass clkLost).keptNoted := rfl

/-- A pier in HARBOUR or OPEN, with a hold on OPEN exactly where a trip is unacknowledged. -/
structure Block.Arrived (u : Bool) (b : Block) : Prop where
  st : b.pw.st = .harbour ∨ b.pw.st = .openS
  hold : b.pw.tripHold = u
  unacked : b.tripUnacked = u
  calm : b.pw.afterTrip = false

/-- What a power state says beside its domains. -/
theorem Power.of_bare {p q : Power} {β : Type} (h : p.bare = q.bare) (π : Power → β) (same : ∀ p : Power, π p.bare = π p) : π p = π q := by
  rw [← same p, h, same]

theorem Block.Arrived.wanes {u : Bool} (h : b.Arrived u) (k : b.Wanes c) : c.Arrived u := by
  have unacked : c.tripUnacked = u := (Block.tripUnacked_congr k.trips).trans h.unacked
  rcases k.power with same | ⟨-, clear, t, opened⟩
  · exact ⟨(Power.bare_st same) ▸ h.st, (Power.of_bare same (·.tripHold) fun _ => rfl).trans h.hold, unacked, (Power.of_bare same (·.afterTrip) fun _ => rfl).trans h.calm⟩
  · have off : u = false := h.unacked.symm.trans clear
    exact ⟨.inr (Power.bare_st opened), (Power.of_bare opened (·.tripHold) fun _ => rfl).trans off.symm, unacked, (Power.of_bare opened (·.afterTrip) fun _ => rfl).trans h.calm⟩

theorem Block.Wanes.depHeld (k : b.Wanes c) : c.pw.depHeld = b.pw.depHeld := by
  rcases k.power with same | ⟨-, -, t, opened⟩
  · exact Power.of_bare same (·.depHeld) fun _ => rfl
  · exact Power.of_bare opened (·.depHeld) fun _ => rfl

theorem Block.harboured_arrived : c.harboured.Arrived c.tripUnacked := ⟨.inl rfl, rfl, rfl, rfl⟩

theorem Block.keptNoted_arrived {u : Bool} (h : c.Arrived u) : c.keptNoted.Arrived u := ⟨h.st, h.hold, h.unacked, h.calm⟩

/-- What the memory side's return and link-up leave as HARBOUR set it. -/
structure Block.Entered (u held : Bool) (b c : Block) : Prop where
  arrived : c.Arrived u
  held : c.pw.depHeld = held
  idle : c.sv.busy = false
  dman : c.stk.dman = false
  filled : ∀ n, (c.berth n).fillDone = true → (b.berth n).fillDone = true

theorem Block.enterHarbour_entered {u held : Bool} (calPass clkLost : BitVec 64) (unacked : c.tripUnacked = u) (hold : c.pw.depHeld = held) (idle : c.sv.busy = false) :
    Block.Entered u held c (c.enterHarbour calPass clkLost) := by
  have up := c.harboured.bringUpAll_wanes calPass clkLost
  have dman := (c.harboured.bringUpAll_sameReset calPass clkLost).dman
  have sv := (c.harboured.bringUpAll_kept calPass clkLost).out .sv (by simp [Piece.among])
  rw [Block.enterHarbour_eq]
  generalize c.harboured.bringUpAll calPass clkLost = d at up dman sv
  exact ⟨Block.keptNoted_arrived (unacked ▸ Block.harboured_arrived.wanes up), up.depHeld.trans hold, (congrArg Survey.busy sv).trans idle, dman,
    fun n full => up.filled n full⟩

theorem Block.linked_wanes : c.Wanes ((c.linkUp .west).linkUp .east).checkOpen :=
  (((Block.linkUp_kept ..).wanes rfl).trans ((Block.linkUp_kept ..).wanes rfl)).trans (Block.checkOpen_wanes _)

theorem Block.linked_kept : Kept [.cnt, .events, .fws, .ins, .lanes, .mf, .pw, .qy, .regs, .sides, .tl] c ((c.linkUp .west).linkUp .east).checkOpen :=
  Kept.step (Block.checkOpen_kept _) (Within.of rfl) (Kept.step (Block.linkUp_kept ..) (Within.of rfl) ((c.linkUp_kept _).mono (Within.of rfl)))

theorem Block.Entered.arrive {u : Bool} (h : Block.Entered u false b c) : Block.Entered u false b c.arrive := by
  have made : c.arrive = ((c.linkUp .west).linkUp .east).checkOpen := by
    unfold Block.arrive
    exact if_neg (by simp [h.held])
  have kept := c.linked_kept
  rw [made]
  exact ⟨h.arrived.wanes Block.linked_wanes, Block.linked_wanes.depHeld.trans h.held, (congrArg Survey.busy (kept.out .sv (by simp [Piece.among]))).trans h.idle,
    (congrArg Stack.dman (kept.out .stk (by simp [Piece.among]))).trans h.dman, fun n full => h.filled n (Block.linked_wanes.filled n full)⟩

theorem Block.surveyClosed_facts : c.surveyClosed.tripUnacked = c.tripUnacked ∧ c.surveyClosed.pw = c.pw ∧ c.surveyClosed.sv.busy = false
    ∧ ∀ n, n < 64 → (c.surveyClosed.berth n).fillDone = true →
      c.pw.warm = true ∧ c.pw.surveyFull = false ∧ c.pw.afterTrip = false ∧ (c.berth n).fillDone = true := by
  have decided := c.surveyIdle.decideContents_kept
  have chart := c.surveyIdle.decideContents.surveyChart_kept
  have trips : c.surveyClosed.lg.trips = c.lg.trips :=
    Block.surveyChart_trips.trans (decided.out .lg (by simp [Piece.among])).1
  refine ⟨Block.tripUnacked_congr trips, ?_, ?_, fun n low full => ?_⟩
  · exact (chart.pwEq (by simp [Piece.among]) (by simp [Piece.among])).trans (decided.pwEq (by simp [Piece.among]) (by simp [Piece.among]))
  · exact congrArg Survey.busy ((chart.out .sv (by simp [Piece.among])).trans (decided.out .sv (by simp [Piece.among])))
  · rw [Block.surveyClosed, show c.surveyIdle.decideContents.surveyChart.berth n = c.surveyIdle.decideContents.berth n from chart.out (.berth n) (by simp [Piece.among])] at full
    exact Block.decideContents_full low full

theorem arrivalSurveyDone_harbour (st : s.blk.pw.st = .survey) (arr : s.blk.pw.arr = .survey) (runs : s.blk.hmRuns = true) (core : s.blk.coreRuns = true)
    (ok : f.svOk = true) (noFail : f.domFail = 0) (sound : (s.blk.dom hkDom).st ≠ .failed) (free : s.blk.pw.depHeld = false) :
    Does (.arrivalSurveyDone f) s [.berths, .chans, .chs, .ck, .cnt, .cols, .doms, .events, .fresh, .fws, .ins, .keys, .lanes, .lg, .mf, .prot, .pw, .qy, .regs, .running, .sides, .slots, .stk, .sv, .tl] fun b =>
      (b.pw.st = .harbour ∨ b.pw.st = .openS) ∧ b.sv.busy = false ∧ b.stk.dman = false ∧ b.pw.tripHold = s.blk.tripUnacked
        ∧ b.pw.afterTrip = false
        ∧ ∀ n, n < 64 → (b.berth n).fillDone = true →
            s.blk.pw.warm = true ∧ s.blk.pw.surveyFull = false ∧ s.blk.pw.afterTrip = false ∧ (s.blk.berth n).fillDone = true := by
  have found := Block.found_wanes (b := s.blk) ok
  have power := Block.found_pwOf (b := s.blk) ok st
  have hk : ((s.blk.found f).dom hkDom).st ≠ .failed := by
    obtain ⟨ok', noFail'⟩ := Block.lastFindings_sound (b := s.blk) ok noFail
    rw [Block.found, Block.surveyed_ok ok, Block.applyFindings_hk _ ok' noFail']
    exact sound
  have made := (Block.arrivalSurveyDone_over (f := f) st arr runs core).trans (Block.surveyOver_sound hk)
  have kept := s.blk.arrivalSurveyDone_kept f
  rw [made] at kept
  obtain ⟨unacked, pw, idle, decided⟩ := (s.blk.found f).surveyClosed_facts
  generalize s.blk.found f = d at *
  have entered := Block.enterHarbour_entered (c := d.surveyClosed) f.calPass f.clkLost (unacked.trans (Block.tripUnacked_congr found.trips))
    ((congrArg Power.depHeld pw).trans ((Power.of_bare power (·.depHeld) fun _ => rfl).trans free)) idle
  obtain ⟨⟨at_, hold, -, calm⟩, -, quiet, dman, filled⟩ := entered.arrive
  refine does_upd_eq (exec_arrivalSurveyDone_upd f) made kept ⟨at_, quiet, dman, hold, calm, fun n low full => ?_⟩
  obtain ⟨warm, quick, cold, full⟩ := decided n low (filled n full)
  exact ⟨(Power.of_bare power (·.warm) fun _ => rfl) ▸ warm, (Power.of_bare power (·.surveyFull) fun _ => rfl) ▸ quick, (Power.of_bare power (·.afterTrip) fun _ => rfl) ▸ cold, found.filled n full⟩

/-! ### The departure that waited (R374) -/

theorem Block.dropWaiters_busy (b : Block) : b.dropWaiters.sv.busy = b.sv.busy := by
  unfold Block.dropWaiters
  extract_lets west east doms lanes
  have same : lanes.sv = b.sv := (Block.each_keeps (·.sv) _ (fun c l => (c.modLane_kept l _).out .sv (by simp [Piece.among])) doms _).trans
    ((Block.each_keeps (·.sv) _ (fun c d => (c.modDom_kept d _).out .sv (by simp [Piece.among])) east _).trans
      (((west.modSide_kept .east _).out .sv (by simp [Piece.among])).trans ((b.modSide_kept .west _).out .sv (by simp [Piece.among]))))
  clear_value lanes
  rw [← same]

theorem Block.onlyJob_sv (job : Option FlashJob) : (c.onlyJob job).sv = c.sv := rfl

theorem Block.startDeparture_busy (survey : Bool) (w : Option ManRef) : (c.startDeparture survey w).sv.busy = c.sv.busy := by
  have cut : (c.leaves survey w).cutShort.sv = (c.leaves survey w).sv := (Block.cutShort_kept _).out .sv (by simp [Piece.among])
  rw [Block.startDeparture_eq, Block.letGo, Block.onlyJob_sv, Block.dropWaiters_busy, cut]
  rfl

/-- A departure that waits no more. -/
def Block.unheld (c : Block) : Block := { c with pw.depHeld := false }

theorem arrivalSurveyDone_departs (st : s.blk.pw.st = .survey) (arr : s.blk.pw.arr = .survey) (runs : s.blk.hmRuns = true) (core : s.blk.coreRuns = true)
    (ok : f.svOk = true) (noFail : f.domFail = 0) (sound : (s.blk.dom hkDom).st ≠ .failed) (waits : s.blk.pw.depHeld = true) :
    Does (.arrivalSurveyDone f) s [.berths, .chans, .chs, .ck, .cnt, .cols, .doms, .events, .fresh, .fws, .ins, .keys, .lanes, .lg, .mf, .prot, .pw, .qy, .regs, .running, .sides, .slots, .stk, .sv, .tl] fun b =>
      b.pw.st = .departure ∧ b.pw.depPhase = .quiesce ∧ b.pw.depNoSurvey = true ∧ b.pw.depHeld = false ∧ b.sv.busy = false := by
  have power := Block.found_pwOf (b := s.blk) ok st
  have hk : ((s.blk.found f).dom hkDom).st ≠ .failed := by
    obtain ⟨ok', noFail'⟩ := Block.lastFindings_sound (b := s.blk) ok noFail
    rw [Block.found, Block.surveyed_ok ok, Block.applyFindings_hk _ ok' noFail']
    exact sound
  have made := (Block.arrivalSurveyDone_over (f := f) st arr runs core).trans (Block.surveyOver_sound hk)
  have kept := s.blk.arrivalSurveyDone_kept f
  rw [made] at kept
  obtain ⟨-, pw, idle, -⟩ := (s.blk.found f).surveyClosed_facts
  generalize s.blk.found f = d at *
  have held : d.surveyClosed.pw.depHeld = true := (congrArg Power.depHeld pw).trans ((Power.of_bare power (·.depHeld) fun _ => rfl).trans waits)
  have entered := Block.enterHarbour_entered (c := d.surveyClosed) f.calPass f.clkLost rfl held idle
  refine does_upd_eq (exec_arrivalSurveyDone_upd f) made kept ?_
  generalize d.surveyClosed.enterHarbour f.calPass f.clkLost = e at entered ⊢
  have leaves : e.arrive = e.unheld.startDeparture false none := if_pos entered.held
  rw [leaves]
  refine ⟨?_, ?_, ?_, ?_, ?_⟩
  · rw [Block.startDeparture_pwOf _ _ _ (·.st)]; rfl
  · rw [Block.startDeparture_pwOf _ _ _ (·.depPhase)]; rfl
  · rw [Block.startDeparture_pwOf _ _ _ (·.depNoSurvey)]; rfl
  · rw [Block.startDeparture_pwOf _ _ _ (·.depHeld)]; rfl
  · rw [Block.startDeparture_busy]; exact entered.idle

end

/-- Settles O19: findings leave HK and the power state as they stood, the contents are decided once, and what follows only
takes contents away. -/
theorem surveyEndsInHarbour : Obligations.SurveyEndsInHarbour :=
  ⟨fun _ _ => arrivalSurveyDone_harbour, fun _ _ => arrivalSurveyDone_departs, fun _ _ => arrivalSurveyDone_failed⟩

end Sys2Proof.Machine
end

section
/-! SUPPORT. A departure's phases, from quiesce to ready (R375, R376, R378). -/

namespace Sys2Proof.Machine

open Sys2Proof

section
variable {b c : Block} {s : State} {f : SurveyFindings}

/-! ### Quiesce (R375) -/

theorem Block.closeAllCharters_actives (b : Block) : b.closeAllCharters.actives = [] := by
  have blank : ∀ e ∈ b.closeAllCharters.chs.tab, e.2.desc = none := by
    refine List.foldlRecOn (motive := fun acc : Tbl Charter => ∀ e ∈ acc, e.2.desc = none) b.chs.tab _ (fun e h => absurd h List.not_mem_nil) fun acc ih x _ e listed => ?_
    rcases mem_tset listed with old | rfl
    · exact ih e old
    · rfl
  unfold Block.actives Block.chartersIn
  refine List.filterMap_eq_nil_iff.mpr fun e listed => ?_
  rw [blank e listed]

/-- Phase 2, with nothing claimed or under way at the quay. -/
def Block.toSurvey (c : Block) : Block := { c with qy.claimed := [], qy.rems := [], qy.copies := [], pw.depPhase := .survey }

/-- Quiesce over: the links down, the charters closed, phase 2. -/
def Block.quiesced (b : Block) : Block := b.dropLinks.closeAllCharters.toSurvey

/-- The departure's survey chosen. -/
def Block.depSurvey (b : Block) : Block := { b.each (List.range 64) Block.startPark with sv.kind := 3 }

/-- A domain that is ON begins to drain. -/
def Block.drain (b : Block) (d : Nat) : Block := b.modDom d fun x => { x with st := if x.st = .on then .draining else x.st }

/-- What the end of quiesce settles for the rest of the departure. -/
structure Block.Quiesced (b : Block) : Prop where
  phase : b.pw.depPhase = .survey
  west : b.west.seg = .down
  east : b.east.seg = .down
  actives : b.actives = []
  claimed : b.qy.claimed = []

theorem Block.dropLinks_pw (b : Block) : b.dropLinks.pw = b.pw :=
  b.dropLinks_kept.pwEq (by simp [Piece.among]) (by simp [Piece.among])

theorem Block.toSurvey_quiesced (west : c.west.seg = .down) (east : c.east.seg = .down) (actives : c.actives = []) : c.toSurvey.Quiesced :=
  ⟨rfl, west, east, actives, rfl⟩

theorem Kept.segs {ps : List Piece} (k : Kept ps b c) (sides : ∀ sd, ¬ (Piece.side sd).among ps := by simp [Piece.among]) :
    c.west.seg = b.west.seg ∧ c.east.seg = b.east.seg :=
  ⟨congrArg SideSt.seg (k.out (.side .west) (sides _)), congrArg SideSt.seg (k.out (.side .east) (sides _))⟩

theorem Block.quiesced_of (b : Block) : b.quiesced.Quiesced := by
  obtain ⟨west, east⟩ := b.dropLinks.closeAllCharters_kept.segs
  have unlinked := b.dropLinks_unlinked
  have actives := b.dropLinks.closeAllCharters_actives
  rw [Block.quiesced]
  generalize b.dropLinks.closeAllCharters = c at *
  exact Block.toSurvey_quiesced (west.trans unlinked.west) (east.trans unlinked.east) actives

theorem Block.toSurvey_pw (c : Block) : c.toSurvey.pw = { c.pw with depPhase := .survey } := rfl

theorem Block.quiesced_pw (b : Block) : b.quiesced.pw = { b.pw with depPhase := .survey } := by
  rw [Block.quiesced, Block.toSurvey_pw, (Block.closeAllCharters_kept _).pwEq (by simp [Piece.among]) (by simp [Piece.among]), Block.dropLinks_pw]

theorem Block.Quiesced.keep {ps : List Piece} (h : b.Quiesced) (k : Kept ps b c) (phase : c.pw.depPhase = b.pw.depPhase)
    (sides : ∀ sd, ¬ (Piece.side sd).among ps := by simp [Piece.among]) (chs : ¬ Piece.chs.among ps := by simp [Piece.among])
    (qy : ¬ Piece.qy.among ps := by simp [Piece.among]) : c.Quiesced where
  phase := phase.trans h.phase
  west := (congrArg SideSt.seg (k.out (.side .west) (sides _))).trans h.west
  east := (congrArg SideSt.seg (k.out (.side .east) (sides _))).trans h.east
  actives := by rw [Block.actives, Block.chartersIn, show c.chs = b.chs from k.out .chs chs]; exact h.actives
  claimed := (k.qyOf qy (·.claimed)).trans h.claimed

theorem Block.quiesceDone_eq (st : b.pw.st = .departure) (phase : b.pw.depPhase = .quiesce) (live : b.live = true) (free : b.commitRuns = false)
    (answered : b.qy.reqs = []) (late : 10 * usTicks ≤ b.since b.pw.depStart) :
    b.quiesceDone = if b.quiesced.pw.depNoSurvey then b.quiesced.each ((List.range 32).map (16 + ·)) Block.drain else b.quiesced.depSurvey.staggerStart := by
  unfold Block.quiesceDone
  rw [if_neg (by simp [st, phase, live, free, answered, late])]
  unfold Block.quiesced Block.toSurvey Block.depSurvey Block.drain
  with_reducible rfl

theorem Block.drain_kept (b : Block) (d : Nat) : Kept [.dom d] b (b.drain d) := b.modDom_kept d _

theorem Block.drain_dom (b : Block) (d k : Nat) :
    ((b.drain d).dom k).st = if d = k ∧ (b.dom k).st = .on then .draining else (b.dom k).st := by
  rw [Block.drain, Block.dom_modDom]
  by_cases same : d = k
  · subst same
    simp
  · simp [same]

/-- Every domain listed drains, if it was ON. -/
theorem Block.drained_dom {ds : List Nat} (once : ds.Nodup) {d : Nat} (listed : d ∈ ds) (b : Block) :
    ((b.each ds Block.drain).dom d).st = if (b.dom d).st = .on then .draining else (b.dom d).st := by
  obtain ⟨c, same, last⟩ := Block.each_at (f := Block.drain) (π := fun c => (c.dom d).st) once listed (fun c k _ apart => by
    rw [Block.drain_dom, if_neg fun h => apart h.1]) b
  rw [last, Block.drain_dom, same]
  simp

theorem Block.each_drain_kept (b : Block) (ds : List Nat) : Kept [.doms] b (b.each ds Block.drain) :=
  .each _ (fun c d k => Kept.step (c.drain_kept d) (Within.single (by simp [Piece.inside])) k) (.refl ..)

/-! ### Power groups (R373) -/

theorem Block.groupStart_sv (b : Block) (g : Nat) : (b.groupStart g).sv = { b.sv with group := BitVec.ofNat 3 g, tested := false } := by
  rw [Block.groupStart, Block.each_keeps (·.sv) _ fun b d => (b.powerUp_kept d).out .sv (by simp [Piece.among])]

theorem Block.groupStart_pwOf (b : Block) (g : Nat) {β : Type} (π : Power → β) (same : ∀ p, π { p with doms := [] } = π p := by intro; rfl) :
    π (b.groupStart g).pw = π { b.pw with depGroup := if b.pw.st == .departure then BitVec.ofNat 3 g else b.pw.depGroup } := by
  rw [Block.groupStart, Block.each_keeps (fun c : Block => π c.pw) _ fun c d => (c.powerUp_kept d).pwOf (by simp [Piece.among]) π same]

theorem Block.staggerStart_depGroup (st : b.pw.st = .departure) : b.staggerStart.pw.depGroup = 0 := by
  have st' : ({ b with sv.busy := true }.drainFor 0 (List.range 16)).pw.st = .departure := (Block.drainFor_pwOf _ _ _ (·.st)).trans st
  rw [Block.staggerStart, Block.groupStart_pwOf _ 0 (·.depGroup), st']
  rfl

theorem Block.depSurvey_sv (c : Block) : c.depSurvey.sv = { c.sv with kind := 3 } := by
  have same : (c.each (List.range 64) Block.startPark).sv = c.sv :=
    Block.each_keeps (·.sv) _ (fun c n => (c.startPark_kept n).out .sv (by simp [Piece.among])) c _
  rw [Block.depSurvey, same]

theorem Block.parks_kept (c : Block) (ns : List Nat) : Kept [.berths, .chans, .cnt] c (c.each ns Block.startPark) :=
  .each _ (fun d n k => Kept.step (d.startPark_kept n) (Within.cons (by simp [Piece.inside]) (Within.cons (by simp [Piece.inside]) (Within.single (by simp [Piece.inside])))) k) (.refl ..)

theorem Block.depSurvey_kept (c : Block) : Kept [.berths, .chans, .cnt, .sv] c c.depSurvey :=
  Kept.step (Kept.withSv _ _) (Within.of rfl) ((c.parks_kept _).mono (Within.of rfl))

theorem quiesceDone_surveys (st : s.blk.pw.st = .departure) (phase : s.blk.pw.depPhase = .quiesce) (live : s.blk.live = true)
    (free : s.blk.commitRuns = false) (answered : s.blk.qy.reqs = []) (late : 10 * usTicks ≤ s.blk.since s.blk.pw.depStart) :
    Does .quiesceDone s [.berths, .chans, .chs, .cnt, .doms, .events, .fws, .ins, .lanes, .pw, .qy, .regs, .sides, .sv, .tl] fun b =>
      b.pw.depPhase = .survey ∧ b.west.seg = .down ∧ b.east.seg = .down ∧ b.actives = [] ∧ b.qy.claimed = []
        ∧ (s.blk.pw.depNoSurvey = false → b.sv.kind = 3 ∧ b.sv.busy = true ∧ b.sv.group = 0 ∧ b.sv.tested = false ∧ b.pw.depGroup = 0)
        ∧ (s.blk.pw.depNoSurvey = true → ∀ d, 16 ≤ d → d < 48 → (b.dom d).st ≠ .on) := by
  have quiet := s.blk.quiesced_of
  have pw := s.blk.quiesced_pw
  refine does_framed (f := Block.quiesceDone) rfl (execQuiesceDone_kept ·) (Within.of rfl) ?_
  rw [Block.quiesceDone_eq st phase live free answered late]
  generalize s.blk.quiesced = c at *
  have none_ : c.pw.depNoSurvey = s.blk.pw.depNoSurvey := by rw [pw]
  have departs : c.pw.st = .departure := by rw [pw]; exact st
  rw [none_]
  split
  case isTrue skipped =>
    have drained (d : Nat) (low : 16 ≤ d) (high : d < 48) := Block.drained_dom (ds := (List.range 32).map (16 + ·)) (d := d) (by decide)
      (List.mem_map.mpr ⟨d - 16, List.mem_range.mpr (by omega), by omega⟩) c
    have kept := c.each_drain_kept ((List.range 32).map (16 + ·))
    obtain ⟨phase', west, east, actives, claimed⟩ := quiet.keep kept (kept.pwOf (by simp [Piece.among]) (·.depPhase))
    refine ⟨phase', west, east, actives, claimed, fun h => absurd skipped (by simp [h]), fun _ d low high => ?_⟩
    rw [drained d low high]
    split
    · decide
    · assumption
  case isFalse surveyed =>
    have parked := c.depSurvey_kept
    have pwEq := parked.pwEq (by simp [Piece.among]) (by simp [Piece.among])
    have settled := quiet.keep parked (congrArg Power.depPhase pwEq)
    have kind := congrArg Survey.kind c.depSurvey_sv
    have departs' := (congrArg Power.st pwEq).trans departs
    generalize c.depSurvey = d at *
    obtain ⟨phase', west, east, actives, claimed⟩ := settled.keep d.staggerStart_kept (d.staggerStart_pwOf (·.depPhase))
    have sv := d.staggerStart_sv
    refine ⟨phase', west, east, actives, claimed, fun _ => ⟨?_, ?_, ?_, ?_, Block.staggerStart_depGroup departs'⟩, fun h => absurd h (by simpa using surveyed)⟩
    · exact (congrArg Survey.kind sv).trans kind
    · exact congrArg Survey.busy sv
    · exact congrArg Survey.group sv
    · exact congrArg Survey.tested sv

/-! ### The drain into self-refresh (R236, R263) -/

theorem Block.mayPark_congr {n : Nat} (chan : c.chan n = b.chan n) (col : c.col n = b.col n) (ck : c.ck = b.ck) (st : c.pw.st = b.pw.st)
    (sv : c.sv = b.sv) (stk : c.stk = b.stk) : c.mayPark n = b.mayPark n := by
  have since : c.since = b.since := by funext t; rw [Block.since, ck, Block.since]
  have older : c.olderThan = b.olderThan := by
    funext k t
    cases t with
    | none => rfl
    | some t => exact congrArg (fun g : Tide → Nat => Decidable.decide (k ≤ g t)) since
  have held : c.arrayHeld n = b.arrayHeld n := by rw [Block.arrayHeld, stk, Block.arrayHeld]
  simp only [Block.mayPark, Block.sleepOk, Block.chanFree, Block.preOk, Block.flightTicks, Block.reaches, Block.carries, Block.cutOff,
    since, older, held, chan, col, ck, st, sv, stk]

theorem Block.startPark_other {n k : Nat} (apart : k ≠ n) (b : Block) :
    ((b.startPark k).chan n, (b.startPark k).berth n, (b.startPark k).mayPark n) = (b.chan n, b.berth n, b.mayPark n) := by
  have kept := b.startPark_kept k
  have chan : (b.startPark k).chan n = b.chan n := kept.out (.chan n) (by simp [Piece.among, Ne.symm apart])
  have berth : (b.startPark k).berth n = b.berth n := kept.out (.berth n) (by simp [Piece.among, Ne.symm apart])
  rw [chan, berth, Block.mayPark_congr chan (kept.out (.col n) (by simp [Piece.among])) (kept.ckEq (by simp [Piece.among]) (by simp [Piece.among]))
    (kept.pwOf (by simp [Piece.among]) (·.st)) (kept.out .sv (by simp [Piece.among])) (kept.out .stk (by simp [Piece.among]))]

theorem Block.startPark_enters {n : Nat} (may : b.mayPark n = true) :
    ((b.startPark n).chan n).pwr = .entering ∧ ((b.startPark n).chan n).forced = true ∧ ((b.startPark n).berth n).st = .absent := by
  have made : b.startPark n = (b.beginSleep n true).parkBerth n := if_pos may
  have chan : ((b.beginSleep n true).parkBerth n).chan n = (b.beginSleep n true).chan n := (Block.parkBerth_kept ..).out (.chan n) (by simp [Piece.among])
  have slept : (b.beginSleep n true).chan n = b.enterSleep (b.chan n).closeRows true :=
    ((Block.bump_kept ..).out (.chan n) (by simp [Piece.among])).trans (Block.chan_setChan ..)
  rw [made, chan, slept, Block.parkBerth, Block.berth_modBerth, if_pos rfl]
  exact ⟨rfl, rfl, rfl⟩

theorem Block.depSurveyDone_parks (st : b.pw.st = .departure) (phase : b.pw.depPhase = .survey) (live : b.live = true)
    (awake : (List.range 64).all b.asleep = false) : b.depSurveyDone f = b.each (List.range 64) Block.startPark := by
  unfold Block.depSurveyDone
  rw [if_neg (by simp [st, phase, live]), if_pos (by simp [awake])]

theorem departureSurveyDone_parks (st : s.blk.pw.st = .departure) (phase : s.blk.pw.depPhase = .survey) (live : s.blk.live = true)
    (awake : (List.range 64).all s.blk.asleep = false) :
    Does (.departureSurveyDone f) s [.chans, .berths, .cnt] fun b =>
      ∀ n, n < 64 → s.blk.mayPark n = true → (b.chan n).pwr = .entering ∧ (b.chan n).forced = true ∧ (b.berth n).st = .absent := by
  refine does_upd_eq (f := (·.depSurveyDone f)) rfl (Block.depSurveyDone_parks st phase live awake) ((s.blk.parks_kept _).mono (Within.of rfl)) fun n low may => ?_
  obtain ⟨c, same, last⟩ := Block.each_at (f := Block.startPark) (π := fun c => (c.chan n, c.berth n, c.mayPark n)) List.nodup_range (List.mem_range.mpr low)
    (fun c k _ apart => c.startPark_other apart) s.blk
  obtain ⟨-, same⟩ := Prod.mk.inj same
  obtain ⟨-, may'⟩ := Prod.mk.inj same
  obtain ⟨chan, last⟩ := Prod.mk.inj last
  obtain ⟨berth, -⟩ := Prod.mk.inj last
  rw [chan, berth]
  exact Block.startPark_enters (may'.trans may)

/-! ### The survey's groups (R373, R375, R408) -/

theorem Block.Wanes.departs (k : b.Wanes c) (st : b.pw.st = .departure) : c.pw.bare = b.pw.bare := by
  rcases k.power with same | ⟨harbour, -⟩
  · exact same
  · rw [st] at harbour
    exact absurd harbour (by decide)

theorem Block.groupsEnd_departs (st : b.pw.st = .departure) :
    b.groupsEnd.sv.busy = false ∧ b.groupsEnd.pw.depPhase = if b.pw.depAbandoned then .domainsOff else .chart := by
  unfold Block.groupsEnd
  rw [if_pos st]
  dsimp only
  split
  · exact ⟨rfl, rfl⟩
  · have kept := Block.chartBegin_kept { b with sv.busy := false }
    exact ⟨congrArg Survey.busy (kept.out .sv (by simp [Piece.among])), rfl⟩

theorem Block.groupStart_departs (st : b.pw.st = .departure) (g : BitVec 3) :
    (b.groupStart (g.toNat + 1)).pw.depPhase = b.pw.depPhase ∧ (b.groupStart (g.toNat + 1)).pw.depGroup = g + 1
      ∧ (b.groupStart (g.toNat + 1)).sv.group = g + 1 ∧ (b.groupStart (g.toNat + 1)).sv.tested = false := by
  have next : BitVec.ofNat 3 (g.toNat + 1) = g + 1 := by
    apply BitVec.eq_of_toNat_eq
    simp
  rw [Block.groupStart_pwOf _ _ (·.depPhase), Block.groupStart_pwOf _ _ (·.depGroup), Block.groupStart_sv, st, next]
  exact ⟨rfl, rfl, rfl, rfl⟩

/-- The steps of groupNext: it waits, starts the next group, or ends the groups. -/
theorem Block.groupNext_waits (h : ¬ b.staggered ∨ ¬ b.sv.tested ∨ (groupDoms b.sv.group.toNat).any fun d => (b.dom d).st == .draining) : b.groupNext = b := by
  unfold Block.groupNext
  exact if_pos h

theorem Block.groupNext_starts (h : ¬ (¬ b.staggered ∨ ¬ b.sv.tested ∨ (groupDoms b.sv.group.toNat).any fun d => (b.dom d).st == .draining))
    (more : b.sv.group ≠ 7) : b.groupNext = b.groupStart (b.sv.group.toNat + 1) := by
  have low : b.sv.group.toNat < 7 := by
    have := b.sv.group.isLt
    have : b.sv.group.toNat ≠ 7 := fun same => more (BitVec.eq_of_toNat_eq same)
    omega
  unfold Block.groupNext
  exact (if_neg h).trans (if_pos low)

theorem Block.groupNext_ends (h : ¬ (¬ b.staggered ∨ ¬ b.sv.tested ∨ (groupDoms b.sv.group.toNat).any fun d => (b.dom d).st == .draining))
    (last : b.sv.group = 7) : b.groupNext = b.groupsEnd := by
  unfold Block.groupNext
  exact (if_neg h).trans (if_neg (by rw [last]; decide))

theorem Block.groupNext_tested (st : b.pw.st = .departure) (phase : b.pw.depPhase = .survey) (tested : b.sv.tested = true) (more : b.sv.group ≠ 7) :
    b.groupNext.pw.depPhase = .survey
      ∧ (b.groupNext.sv.tested = true ∧ b.groupNext.sv.group = b.sv.group ∨ b.groupNext.sv.tested = false ∧ b.groupNext.sv.group = b.sv.group + 1) := by
  by_cases waits : ¬ b.staggered ∨ ¬ b.sv.tested ∨ (groupDoms b.sv.group.toNat).any fun d => (b.dom d).st == .draining
  · rw [Block.groupNext_waits waits]
    exact ⟨phase, .inl ⟨tested, rfl⟩⟩
  · obtain ⟨phase', -, group, fresh⟩ := Block.groupStart_departs st b.sv.group
    rw [Block.groupNext_starts waits more]
    exact ⟨phase'.trans phase, .inr ⟨fresh, group⟩⟩

/-! ### Findings leave the group (R373) -/

theorem Block.sameGroup_finding : Finding fun b c : Block => c.sv.group = b.sv.group :=
  ⟨fun _ _ _ j k => k.trans j, fun b c k => congrArg Survey.group (k.out .sv (by simp [Piece.among])), fun _ _ same => same⟩

theorem Block.shown_group (c : Block) (d : Nat) (g : Dom → Dom) : ((c.modDom d g).showDomain d).sv.group = c.sv.group := rfl

theorem Block.markDomain_group (b : Block) (d : Nat) : (b.markDomain d).sv.group = b.sv.group := by
  have served : (if 16 ≤ d then b.bgFails d else b).sv = b.sv := by
    split
    · exact (b.bgFails_kept d).out .sv (by simp [Piece.among])
    · rfl
  unfold Block.markDomain
  rw [Block.event_sv, Block.shown_group, served]

theorem Block.markLane_group (b : Block) (l : Nat) : (b.markLane l).sv.group = b.sv.group := by
  unfold Block.markLane
  rw [Block.event_sv]
  rfl

theorem Block.passDomain_group (b : Block) (d : Nat) : (b.passDomain d).sv.group = b.sv.group := by
  unfold Block.passDomain
  split <;> rfl

theorem Block.markChannel_group (b : Block) (n : Nat) (fence : Bool) : (b.markChannel n fence).sv.group = b.sv.group := by
  have left : (if fence then b.fenceRunning [n] else b.leaveService n).sv = b.sv := by
    split
    · exact (b.fenceRunning_kept [n]).out .sv (by simp [Piece.among])
    · exact (b.leaveService_kept n).out .sv (by simp [Piece.among])
  unfold Block.markChannel
  rw [Block.event_sv]
  dsimp only
  rw [Block.modBerth_sv, left]

theorem Block.applyFindings_group (b : Block) (f : SurveyFindings) (tested : Nat → Bool) : (b.applyFindings f tested).sv.group = b.sv.group := by
  have h := Block.sameGroup_finding
  refine h.applyFindings (fun c => h.svCheck (fun _ d => d.markDomain_group _) (fun d => d.passDomain_group _) (fun d => ?_) c)
    (fun c l _ => c.markLane_group l) (fun c d _ => c.markDomain_group d) (fun c n fence => c.markChannel_group n fence) tested b
  exact congrArg Survey.group ((d.powerUp_kept svDom).out .sv (by simp [Piece.among]))

/-! ### A group's test ends (R373) -/

/-- A channel's contents gone. -/
def Block.empty (b : Block) (n : Nat) : Block := b.modBerth n fun (x : Berth) => { x with fillDone := false }

/-- Every channel's contents gone. -/
def Block.emptied (b : Block) : Block := b.each (List.range 64) Block.empty

theorem Block.empty_kept (b : Block) (n : Nat) : Kept [.berth n] b (b.empty n) := b.modBerth_kept n _

theorem Block.emptied_kept (b : Block) : Kept [.berths] b b.emptied :=
  .each _ (fun c n k => Kept.step (c.empty_kept n) (Within.single (by simp [Piece.inside])) k) (.refl ..)

theorem Block.emptied_fillDone (b : Block) {n : Nat} (low : n < 64) : (b.emptied.berth n).fillDone = false := by
  obtain ⟨c, -, last⟩ := Block.each_at (f := Block.empty) (π := fun c => c.berth n) List.nodup_range (List.mem_range.mpr low)
    (fun c k _ apart => by rw [Block.empty, Block.berth_modBerth, if_neg apart]) b
  rw [Block.emptied, last, Block.empty, Block.berth_modBerth, if_pos rfl]

/-- The findings of the group under test applied. -/
def Block.groupFound (b : Block) (f : SurveyFindings) : Block :=
  (b.each ((groupDoms b.sv.group.toNat).filter fun d => d != svDom && !b.sv.noPower.getLsbD d) Block.passDomain).applyFindings
    (SurveyFindings.inGroup f b.sv.group.toNat (b.pw.st == .survey)) fun n => ((b.pw.st == .survey) && b.sv.group.toNat == 0) || domGroup (bgDom n) == b.sv.group.toNat

/-- The group under test is tested. -/
def Block.groupOver (c : Block) : Block := { c with sv.tested := true }

theorem Block.groupTested_eq (b : Block) (f : SurveyFindings) :
    b.groupTested f = ((b.groupFound f).groupOver.drainFor b.sv.group.toNat (groupDoms b.sv.group.toNat)).groupNext := by
  unfold Block.groupTested Block.groupFound Block.groupOver
  with_reducible rfl

theorem Block.groupFound_wanes (b : Block) (f : SurveyFindings) : b.Wanes (b.groupFound f) :=
  (Block.Wanes.each (fun c d => c.passDomain_wanes d) b _).trans (Block.applyFindings_wanes ..)

theorem Block.groupFound_group (b : Block) (f : SurveyFindings) : (b.groupFound f).sv.group = b.sv.group :=
  (Block.applyFindings_group ..).trans (Block.each_keeps (·.sv.group) _ (fun c d => c.passDomain_group d) b _)

theorem Block.depSurveyDone_tests (st : b.pw.st = .departure) (phase : b.pw.depPhase = .survey) (live : b.live = true) (surveys : b.pw.depNoSurvey = false)
    (asleep : (List.range 64).all b.asleep = true) (fresh : b.sv.tested = false) (still : b.switching = false) :
    b.depSurveyDone f = if f.svOk then b.emptied.groupTested f else b.emptied.surveyWithout f := by
  unfold Block.depSurveyDone
  rw [if_neg (by simp [st, phase, live]), if_neg (by simp [asleep]), if_neg (by simp [surveys]), if_neg (by simp [fresh, still])]
  unfold Block.emptied Block.empty
  with_reducible rfl

theorem Block.groupOver_drainFor (c : Block) (g : Nat) (ds : List Nat) :
    (c.groupOver.drainFor g ds).sv = { c.sv with tested := true } ∧ (c.groupOver.drainFor g ds).pw.bare = c.pw.bare ∧ (c.groupOver.drainFor g ds).berths = c.berths :=
  have kept := c.groupOver.drainFor_kept g ds
  ⟨kept.out .sv (by simp [Piece.among]), kept.out .pw (by simp [Piece.among]), Block.each_keeps (·.berths) _ (fun c d => by
    split
    · rfl
    · rfl) c.groupOver ds⟩

theorem departureSurveyDone_group (st : s.blk.pw.st = .departure) (phase : s.blk.pw.depPhase = .survey) (live : s.blk.live = true)
    (surveys : s.blk.pw.depNoSurvey = false) (asleep : (List.range 64).all s.blk.asleep = true) (fresh : s.blk.sv.tested = false)
    (still : s.blk.switching = false) (ok : f.svOk = true) (more : s.blk.sv.group ≠ 7) :
    Does (.departureSurveyDone f) s [.berths, .chans, .chs, .cnt, .cols, .doms, .events, .fresh, .fws, .ins, .keys, .lanes, .lg, .mf, .pw, .qy, .regs, .sides, .stk, .sv, .tl] fun b =>
      b.pw.depPhase = .survey ∧ (b.sv.tested = true ∧ b.sv.group = s.blk.sv.group ∨ b.sv.tested = false ∧ b.sv.group = s.blk.sv.group + 1)
        ∧ ∀ n, n < 64 → (b.berth n).fillDone = false := by
  have kept := s.blk.emptied_kept
  have pw := kept.pwEq (by simp [Piece.among]) (by simp [Piece.among])
  have sv : s.blk.emptied.sv = s.blk.sv := kept.out .sv (by simp [Piece.among])
  have empty (n : Nat) (low : n < 64) := s.blk.emptied_fillDone low
  refine does_framed (f := (·.depSurveyDone f)) rfl (execDepartureSurveyDone_kept f ·) (Within.of rfl) ?_
  rw [Block.depSurveyDone_tests st phase live surveys asleep fresh still, if_pos ok, Block.groupTested_eq]
  generalize s.blk.emptied = c at *
  have found := c.groupFound_wanes f
  have group := c.groupFound_group f
  generalize c.groupFound f = d at *
  obtain ⟨sv', pw', berths⟩ := d.groupOver_drainFor c.sv.group.toNat (groupDoms c.sv.group.toNat)
  generalize d.groupOver.drainFor c.sv.group.toNat (groupDoms c.sv.group.toNat) = e at *
  have bare : e.pw.bare = s.blk.pw.bare := by rw [pw', found.departs (by rw [pw]; exact st), pw]
  have same : e.sv.group = s.blk.sv.group := by rw [sv', ← sv]; exact group
  have next := Block.groupNext_tested (b := e) ((Power.bare_st bare).trans st) ((Power.of_bare bare (·.depPhase) fun _ => rfl).trans phase) (by rw [sv']) (by rw [same]; exact more)
  rw [same] at next
  refine ⟨next.1, next.2, fun n low => ?_⟩
  have stays : e.groupNext.berth n = e.berth n := e.groupNext_kept.out (.berth n) (by simp [Piece.among])
  rw [stays, Block.berth, berths]
  exact Bool.eq_false_iff.mpr fun full => absurd (found.filled n full) (by rw [empty n low]; decide)

theorem departureSurveyDone_without (st : s.blk.pw.st = .departure) (phase : s.blk.pw.depPhase = .survey) (live : s.blk.live = true)
    (surveys : s.blk.pw.depNoSurvey = false) (asleep : (List.range 64).all s.blk.asleep = true) (fresh : s.blk.sv.tested = false)
    (still : s.blk.switching = false) (bad : f.svOk = false) :
    Does (.departureSurveyDone f) s [.berths, .chans, .chs, .cnt, .cols, .doms, .events, .fresh, .fws, .ins, .keys, .lanes, .lg, .mf, .pw, .qy, .regs, .sides, .stk, .sv, .tl] fun b =>
      b.pw.depPhase = (if s.blk.pw.depAbandoned then .domainsOff else .chart) ∧ b.sv.busy = false ∧ ∀ n, n < 64 → (b.berth n).fillDone = false := by
  have pw := s.blk.emptied_kept.pwEq (by simp [Piece.among]) (by simp [Piece.among])
  have empty (n : Nat) (low : n < 64) := s.blk.emptied_fillDone low
  refine does_framed (f := (·.depSurveyDone f)) rfl (execDepartureSurveyDone_kept f ·) (Within.of rfl) ?_
  rw [Block.depSurveyDone_tests st phase live surveys asleep fresh still, if_neg (by simp [bad]), Block.surveyWithout]
  generalize s.blk.emptied = c at *
  have found := c.applyFindings_wanes (SurveyFindings.withoutEngine f) fun _ => true
  generalize c.applyFindings (SurveyFindings.withoutEngine f) = d at *
  have bare : d.pw.bare = s.blk.pw.bare := by rw [found.departs (by rw [pw]; exact st), pw]
  obtain ⟨idle, over_⟩ := Block.groupsEnd_departs (b := d.groupOver) ((Power.bare_st bare).trans st)
  have stays (n : Nat) : d.groupOver.groupsEnd.berth n = d.berth n := d.groupOver.groupsEnd_kept.out (.berth n) (by simp [Piece.among])
  rw [show d.groupOver.pw.depAbandoned = s.blk.pw.depAbandoned from Power.of_bare bare (·.depAbandoned) fun _ => rfl] at over_
  refine ⟨over_, idle, fun n low => ?_⟩
  exact Bool.eq_false_iff.mpr fun full => absurd (found.filled n ((congrArg Berth.fillDone (stays n)).symm.trans full)) (by rw [empty n low]; decide)

/-! ### Without a survey (R375) -/

theorem Block.sleepChan_pwr (b : Block) (n : Nat) : ((b.sleepChan n).chan n).pwr = .off ∨ ((b.sleepChan n).chan n).pwr = .selfRefresh := by
  have slept : (b.sleepChan n).chan n = (b.chan n).forcedSleep := by
    unfold Block.sleepChan
    dsimp only
    split
    · exact ((Block.bump_kept ..).out (.chan n) (by simp [Piece.among])).trans (Block.chan_modChan ..)
    · exact Block.chan_modChan ..
  rw [slept, Chan.forcedSleep]
  split
  case isTrue off => exact .inl off
  case isFalse => exact .inr rfl

theorem Block.parkChan_parks (b : Block) (n : Nat) :
    (((b.parkChan n).chan n).pwr = .off ∨ ((b.parkChan n).chan n).pwr = .selfRefresh) ∧ ((b.parkChan n).berth n).st = .absent
      ∧ ((b.parkChan n).berth n).fillDone = ((b.berth n).fillDone && (b.berth n).st != .filling) := by
  have chan : (b.parkChan n).chan n = (b.sleepChan n).chan n := (Block.parkBerth_kept ..).out (.chan n) (by simp [Piece.among])
  have berth : (b.sleepChan n).berth n = b.berth n := (b.sleepChan_kept n).out (.berth n) (by simp [Piece.among])
  rw [chan, Block.parkChan, Block.parkBerth, Block.berth_modBerth, if_pos rfl, berth]
  exact ⟨b.sleepChan_pwr n, rfl, rfl⟩

theorem Block.parkChan_other {n k : Nat} (apart : k ≠ n) (b : Block) : ((b.parkChan k).chan n, (b.parkChan k).berth n) = (b.chan n, b.berth n) := by
  have kept := b.parkChan_kept k
  rw [show (b.parkChan k).chan n = b.chan n from kept.out (.chan n) (by simp [Piece.among, Ne.symm apart]),
    show (b.parkChan k).berth n = b.berth n from kept.out (.berth n) (by simp [Piece.among, Ne.symm apart])]

/-- Every channel of the stack asleep, its berth ABSENT. -/
def Block.parked (b : Block) : Block := b.each (List.range 64) Block.parkChan

theorem Block.parked_parks (b : Block) {n : Nat} (low : n < 64) :
    (b.parked.berth n).st = .absent ∧ ((b.parked.chan n).pwr = .off ∨ (b.parked.chan n).pwr = .selfRefresh)
      ∧ (b.parked.berth n).fillDone = ((b.berth n).fillDone && (b.berth n).st != .filling) := by
  obtain ⟨c, same, last⟩ := Block.each_at (f := Block.parkChan) (π := fun c => (c.chan n, c.berth n)) List.nodup_range (List.mem_range.mpr low)
    (fun c k _ apart => c.parkChan_other apart) b
  obtain ⟨-, same⟩ := Prod.mk.inj same
  obtain ⟨chan, berth⟩ := Prod.mk.inj last
  obtain ⟨asleep, absent, full⟩ := c.parkChan_parks n
  rw [Block.parked, chan, berth]
  exact ⟨absent, asleep, by rw [full, same]⟩

theorem Block.parked_kept (b : Block) : Kept [.berths, .chans, .cnt] b b.parked :=
  .each _ (fun c n k => Kept.step (c.parkChan_kept n) (Within.cons (by simp [Piece.inside]) (Within.cons (by simp [Piece.inside]) (Within.single (by simp [Piece.inside])))) k) (.refl ..)

/-- A domain that drains is OFF. -/
def Block.drainEnds (b : Block) (d : Nat) : Block := b.modDom d fun x => { x with st := if x.st = .draining then .off else x.st }

/-- The chart's turn after the survey: it begins, or a departure that was abandoned passes it by. -/
def Block.chartTurn (c : Block) : Block :=
  if c.pw.depAbandoned then { c with pw.depPhase := .domainsOff } else { c.chartBegin with pw.depPhase := .chart }

theorem Block.chartTurn_facts (c : Block) :
    c.chartTurn.pw.depPhase = (if c.pw.depAbandoned then .domainsOff else .chart) ∧ c.chartTurn.berths = c.berths ∧ c.chartTurn.chans = c.chans := by
  unfold Block.chartTurn
  split
  · exact ⟨rfl, rfl, rfl⟩
  · have same : c.chartBegin.berths = c.berths ∧ c.chartBegin.chans = c.chans := by
      unfold Block.chartBegin
      split
      · exact ⟨rfl, rfl⟩
      · split
        · exact ⟨(Block.orReg_berths ..).trans (Block.event_berths ..), (Block.orReg_chans ..).trans (Block.event_chans ..)⟩
        · exact ⟨Block.wearSlot_berths .., Block.wearSlot_chans ..⟩
    exact ⟨rfl, same.1, same.2⟩

theorem Block.depSurveyDone_skips (st : b.pw.st = .departure) (phase : b.pw.depPhase = .survey) (live : b.live = true) (skips : b.pw.depNoSurvey = true)
    (asleep : (List.range 64).all b.asleep = true) :
    b.depSurveyDone f = (b.parked.each ((List.range 32).map (16 + ·)) Block.drainEnds).chartTurn := by
  unfold Block.depSurveyDone
  rw [if_neg (by simp [st, phase, live]), if_neg (by simp [asleep]), if_pos skips]
  unfold Block.parked Block.drainEnds Block.chartTurn
  with_reducible rfl

theorem Block.drainsEnd_kept (b : Block) (ds : List Nat) : Kept [.doms] b (b.each ds Block.drainEnds) :=
  .each _ (fun c d k => Kept.step (c.modDom_kept d _) (Within.single (by simp [Piece.inside])) k) (.refl ..)

theorem departureSurveyDone_skips (st : s.blk.pw.st = .departure) (phase : s.blk.pw.depPhase = .survey) (live : s.blk.live = true)
    (skips : s.blk.pw.depNoSurvey = true) (asleep : (List.range 64).all s.blk.asleep = true) :
    Does (.departureSurveyDone f) s [.berths, .chans, .chs, .cnt, .cols, .doms, .events, .fresh, .fws, .ins, .keys, .lanes, .lg, .mf, .pw, .qy, .regs, .sides, .stk, .sv, .tl] fun b =>
      b.pw.depPhase = (if s.blk.pw.depAbandoned then .domainsOff else .chart)
        ∧ ∀ n, n < 64 → (b.berth n).st = .absent ∧ ((b.chan n).pwr = .off ∨ (b.chan n).pwr = .selfRefresh)
            ∧ (b.berth n).fillDone = ((s.blk.berth n).fillDone && (s.blk.berth n).st != .filling) := by
  have parks (n : Nat) (low : n < 64) := s.blk.parked_parks low
  have pw := s.blk.parked_kept.pwEq (by simp [Piece.among]) (by simp [Piece.among])
  refine does_framed (f := (·.depSurveyDone f)) rfl (execDepartureSurveyDone_kept f ·) (Within.of rfl) ?_
  rw [Block.depSurveyDone_skips st phase live skips asleep]
  generalize s.blk.parked = c at *
  have kept := c.drainsEnd_kept ((List.range 32).map (16 + ·))
  have given := kept.pwOf (by simp [Piece.among]) (·.depAbandoned)
  have berth (n : Nat) := kept.out (.berth n) (by simp [Piece.among])
  have chan (n : Nat) := kept.out (.chan n) (by simp [Piece.among])
  generalize c.each ((List.range 32).map (16 + ·)) Block.drainEnds = d at *
  obtain ⟨turn, berths, chans⟩ := d.chartTurn_facts
  rw [given, pw] at turn
  refine ⟨turn, fun n low => ?_⟩
  have berth' : d.chartTurn.berth n = c.berth n := by rw [Block.berth, berths]; exact berth n
  have chan' : d.chartTurn.chan n = c.chan n := by rw [Block.chan, chans]; exact chan n
  rw [berth', chan']
  exact parks n low

/-! ### The chart's commit mark (R366, R375) -/

/-- The chart's end, and the domains' turn to go OFF. -/
def Block.chartOver (c : Block) : Block := { c with pw.depPhase := .domainsOff }

theorem Block.chartWritten_eq (st : b.pw.st = .departure) (phase : b.pw.depPhase = .chart) (live : b.live = true) :
    b.chartWritten = (b.chartEnd b.departureAge).chartOver.each (List.range 48) Block.drain := by
  unfold Block.chartWritten
  rw [if_neg (by simp [st, phase, live])]
  unfold Block.chartOver Block.drain
  with_reducible rfl

theorem Block.chartEnd_governs (b : Block) (age : BitVec 4) {k : Nat} (writing : b.lg.writing = some k) :
    (b.chartEnd age).lg.gov = some k ∧ (b.chartEnd age).lg.writing = none := by
  unfold Block.chartEnd
  rw [writing]
  exact ⟨rfl, rfl⟩

theorem Block.chartOver_facts (c : Block) : c.chartOver.pw.depPhase = .domainsOff ∧ c.chartOver.lg = c.lg ∧ ∀ d, c.chartOver.dom d = c.dom d :=
  ⟨rfl, rfl, fun _ => rfl⟩

theorem chartWriteDone_drains (st : s.blk.pw.st = .departure) (phase : s.blk.pw.depPhase = .chart) (live : s.blk.live = true) :
    Does .chartWriteDone s [.doms, .lg, .pw] fun b =>
      b.pw.depPhase = .domainsOff ∧ (∀ k, s.blk.lg.writing = some k → b.lg.gov = some k ∧ b.lg.writing = none)
        ∧ ∀ d, d < 48 → (b.dom d).st = (if (s.blk.dom d).st = .on then .draining else (s.blk.dom d).st) := by
  have ended := s.blk.chartEnd_kept s.blk.departureAge
  have dom (d : Nat) : (s.blk.chartEnd s.blk.departureAge).dom d = s.blk.dom d := ended.out (.dom d) (by simp [Piece.among])
  have governs (k : Nat) (h : s.blk.lg.writing = some k) := s.blk.chartEnd_governs s.blk.departureAge h
  refine does_framed (f := Block.chartWritten) rfl (execChartWriteDone_kept ·) (Within.of rfl) ?_
  rw [Block.chartWritten_eq st phase live]
  generalize s.blk.chartEnd s.blk.departureAge = c at *
  obtain ⟨over_, lg, doms⟩ := c.chartOver_facts
  generalize c.chartOver = d at *
  have kept := d.each_drain_kept (List.range 48)
  obtain ⟨-, -, -, gov, writing⟩ := kept.out .lg (by simp [Piece.among])
  refine ⟨(kept.pwOf (by simp [Piece.among]) (·.depPhase)).trans over_, fun k h => ?_, fun n low => ?_⟩
  · obtain ⟨governed, idle⟩ := governs k h
    exact ⟨gov.trans ((congrArg Logbook.gov lg).trans governed), writing.trans ((congrArg Logbook.writing lg).trans idle)⟩
  · rw [Block.drained_dom List.nodup_range (List.mem_range.mpr low), doms, dom]

/-! ### What goes with a domain's power (R372, R428) -/

theorem Block.withoutLane_wanes (b : Block) (sd : Side) : b.Wanes (b.withoutLane sd) := by
  unfold Block.withoutLane
  split
  · exact .ite ((b.checkWarm_kept sd).wanes rfl) ((b.checkSide_kept sd).wanes rfl)
  · exact (b.resizeSide_kept sd).wanes rfl
  · exact .refl b

theorem Block.disableLane_wanes (b : Block) (l : Nat) : b.Wanes (b.disableLane l) := by
  rw [Block.disableLane_eq]
  refine .ite (.refl b) ?_
  have dropped : b.Wanes (if (b.lane l).inRun then b.dropLaneFull l else b) := .ite ((b.dropLaneFull_kept l).wanes rfl) (.refl b)
  refine .trans ?_ (Block.checkOpen_wanes _)
  refine .trans ?_ ((Block.wakeWaiter_kept _ _).wanes rfl)
  refine .trans ?_ (Block.withoutLane_wanes _ _)
  refine .trans ?_ ((Block.notePass_kept _ _ _).wanes rfl)
  exact dropped.trans ((Block.modLane_kept _ _ _).wanes rfl)

theorem Block.parkChan_wanes (b : Block) (n : Nat) : b.Wanes (b.parkChan n) := by
  unfold Block.parkChan Block.parkBerth
  refine .trans ((b.sleepChan_kept n).wanes rfl) (Block.modBerth_wanes _ n fun x h => ?_)
  exact (Bool.and_eq_true_iff.mp h).1

theorem Block.domStops_wanes (b : Block) (d : Nat) : b.Wanes (b.domStops d) := by
  have noted : b.Wanes { b with tl.winOff := d :: b.tl.winOff } := .of_eq rfl rfl rfl
  unfold Block.domStops
  dsimp only
  refine .ite (noted.trans (.each (fun c l => c.disableLane_wanes l) ..)) (.ite (noted.trans ((Block.setPll_kept ..).wanes rfl)) (.ite ?_ (.ite ?_ (.ite ?_ (.ite ?_ noted)))))
  · exact .of_eq rfl rfl rfl
  · exact .of_eq rfl rfl rfl
  · exact .of_eq rfl rfl rfl
  · exact noted.trans (.each (fun c n => c.parkChan_wanes n) ..)

/-! ### A group's last domain (R373, R375) -/

/-- A drain over: what goes with the power gone, the domain OFF, the manifest that waited for it done. -/
def Block.drainOver (b : Block) (d : Nat) : Block := ((b.domStops d).modDom d fun x => { x with st := .off }).domDone d false

theorem Block.domDone_st (b : Block) (d : Nat) (powered : Bool) (k : Nat) : ((b.domDone d powered).dom k).st = (b.dom k).st := by
  unfold Block.domDone
  split
  · rfl
  · rw [Block.dom, Block.finish_pw, ← Block.dom, Block.dom_modDom]
    split
    case isTrue same => rw [same]
    case isFalse => rfl

theorem Block.drainOver_kept (b : Block) (d : Nat) :
    Kept [.berths, .chans, .ck, .cnt, .doms, .events, .fws, .ins, .lanes, .mf, .pw, .qy, .regs, .running, .sides, .slots, .tl] b (b.drainOver d) :=
  Kept.step (Block.domDone_kept ..) (Within.cons (by simp [Piece.inside]) (Within.of_subset (by simp))) (Kept.step (Block.modDom_kept ..)
    (Within.single (by simp [Piece.inside])) ((b.domStops_kept d).mono (Within.of rfl)))

theorem Block.drainOver_wanes (b : Block) (d : Nat) : b.Wanes (b.drainOver d) :=
  ((b.domStops_wanes d).trans (Block.modDom_wanes ..)).trans ((Block.domDone_kept ..).wanes rfl)

theorem Block.drainOver_dom (b : Block) (d k : Nat) : ((b.drainOver d).dom k).st = if d = k then .off else (b.dom k).st := by
  rw [Block.drainOver, Block.domDone_st, Block.dom_modDom]
  split
  · rfl
  · rw [show (b.domStops d).dom k = b.dom k from (b.domStops_kept d).out (.dom k) (by simp [Piece.among])]

theorem Block.drainDone_departs (st : b.pw.st = .departure) (live : b.live = true) {d : Nat} (draining : (b.dom d).st = .draining) (done : b.drained d = true) :
    b.drainDone d = (b.drainOver d).groupNext := by
  have made : b.drainDone d = ((b.drainOver d).checkOpen.powerNext).groupNext := by
    unfold Block.drainDone
    rw [if_neg (by simp [draining, live]), if_neg (by simp [done])]
    unfold Block.drainOver
    with_reducible rfl
  have st' : (b.drainOver d).pw.st = .departure := (Power.bare_st ((b.drainOver_wanes d).departs st)).trans st
  have open_ : (b.drainOver d).checkOpen = b.drainOver d := by rw [Block.checkOpen_eq, if_pos (by simp [st'])]
  rw [made, open_]
  congr 1
  unfold Block.powerNext
  exact if_pos (.inl (by rw [st']; decide))

theorem drainDone_departs {d : DomId} (st : s.blk.pw.st = .departure) (staggered : s.blk.staggered = true) (tested : s.blk.sv.tested = true)
    (live : s.blk.live = true) (draining : (s.blk.dom d).st = .draining) (done : s.blk.drained d = true)
    (last : ∀ e ∈ groupDoms s.blk.sv.group.toNat, e ≠ d.val → (s.blk.dom e).st ≠ .draining) :
    Does (.drainDone d) s [.berths, .chans, .ck, .cnt, .doms, .events, .fresh, .fws, .ins, .keys, .lanes, .lg, .mf, .pw, .qy, .regs, .running, .sides, .slots, .sv, .tl] fun b =>
      (s.blk.sv.group ≠ 7 → b.pw.depPhase = .survey ∧ b.sv.group = s.blk.sv.group + 1 ∧ b.pw.depGroup = s.blk.sv.group + 1 ∧ b.sv.tested = false)
        ∧ (s.blk.sv.group = 7 → b.sv.busy = false ∧ b.pw.depPhase = (if s.blk.pw.depAbandoned then .domainsOff else .chart)) := by
  obtain ⟨phase, surveys⟩ : s.blk.pw.depPhase = .survey ∧ s.blk.pw.depNoSurvey = false := by simpa [Block.staggered, st] using staggered
  have bare := (s.blk.drainOver_wanes d).departs st
  have sv : (s.blk.drainOver d).sv = s.blk.sv := (s.blk.drainOver_kept d).out .sv (by simp [Piece.among])
  have dom (k : Nat) := s.blk.drainOver_dom d k
  refine does_framed (f := (·.drainDone d)) rfl (execDrainDone_kept d ·) (Within.of rfl) ?_
  rw [Block.drainDone_departs st live draining done]
  generalize s.blk.drainOver d = c at *
  have st' : c.pw.st = .departure := (Power.bare_st bare).trans st
  have goes : ¬ (¬ c.staggered ∨ ¬ c.sv.tested ∨ (groupDoms c.sv.group.toNat).any fun d => (c.dom d).st == .draining) := by
    have phase' : c.pw.depPhase = .survey := (Power.of_bare bare (·.depPhase) fun _ => rfl).trans phase
    have surveys' : c.pw.depNoSurvey = false := (Power.of_bare bare (·.depNoSurvey) fun _ => rfl).trans surveys
    have off : ∀ e ∈ groupDoms s.blk.sv.group.toNat, (c.dom e).st ≠ .draining := by
      intro e listed
      rw [dom]
      split
      case isTrue => decide
      case isFalse apart => exact last e listed fun same => apart same.symm
    simpa [Block.staggered, st', phase', surveys', sv, tested] using off
  refine ⟨fun more => ?_, fun final => ?_⟩
  · obtain ⟨phase', number, group, fresh⟩ := Block.groupStart_departs st' c.sv.group
    rw [Block.groupNext_starts goes (by rw [sv]; exact more)]
    rw [sv] at *
    exact ⟨phase'.trans ((Power.of_bare bare (·.depPhase) fun _ => rfl).trans phase), group, number, fresh⟩
  · obtain ⟨idle, turn⟩ := Block.groupsEnd_departs st'
    rw [Block.groupNext_ends goes (by rw [sv]; exact final)]
    rw [show c.pw.depAbandoned = s.blk.pw.depAbandoned from Power.of_bare bare (·.depAbandoned) fun _ => rfl] at turn
    exact ⟨idle, turn⟩

/-! ### Ready (R376) -/

/-- A domain that stops for the departure. -/
def Block.stopDom (b : Block) (d : Nat) : Block :=
  (b.domStops d).modDom d fun x => { x with st := if x.st = .failed then .failed else .off, waiter := none }

/-- OFF_READY, after `ms` milliseconds. -/
def Block.offReady (c : Block) (ms : Nat) : Block :=
  ({ c with pw.depPhase := .ready, pw.offReady := true, pw.tDepart := BitVec.ofNat 32 ms }).orReg Off.pwAlarm 8

/-- The SHUTDOWN that asked for the departure is answered. -/
def Block.shutDone (c : Block) (ms : Nat) : Block :=
  match c.pw.depWaiter with
  | none => c
  | some m => ({ c with pw.depWaiter := none }).finish m Mop.shutdown St.ok (leBytes ms 4)

/-- The domains OFF, the pier is ready. -/
def Block.ready (c : Block) : Block := (c.offReady (c.since c.pw.depStart / msTicks)).shutDone (c.since c.pw.depStart / msTicks)

theorem Block.departed_eq (st : b.pw.st = .departure) (phase : b.pw.depPhase = .domainsOff) (runs : b.hmRuns = true) :
    b.departed = (b.each (List.range 48) Block.stopDom).ready := by
  unfold Block.departed
  rw [if_neg (by simp [st, phase, runs])]
  unfold Block.ready Block.shutDone Block.offReady Block.stopDom
  generalize b.each (List.range 48) _ = c
  rfl

theorem Block.stopDom_dom (b : Block) (d k : Nat) :
    ((b.stopDom d).dom k).st = if d = k then (if (b.dom k).st = .failed then .failed else .off) else (b.dom k).st := by
  have same : (b.domStops d).dom k = b.dom k := (b.domStops_kept d).out (.dom k) (by simp [Piece.among])
  rw [Block.stopDom, Block.dom_modDom]
  split
  case isTrue eq => subst eq; rw [same]
  case isFalse => rw [same]

theorem Block.stopDom_wanes (b : Block) (d : Nat) : b.Wanes (b.stopDom d) := (b.domStops_wanes d).trans (Block.modDom_wanes ..)

theorem Block.stopDom_tide (b : Block) (d : Nat) : (b.stopDom d).ck.tide = b.ck.tide :=
  (b.domStops_kept d).out .tide (by simp [Piece.among])

theorem Block.shutDone_facts (c : Block) (ms : Nat) : c.shutDone ms = c ∧ c.pw.depWaiter = none
    ∨ (c.shutDone ms).pw = { c.pw with depWaiter := none } ∧ (∀ o, (c.shutDone ms).reg o = c.reg o) := by
  unfold Block.shutDone
  split
  case h_1 none_ => exact .inl ⟨rfl, none_⟩
  case h_2 m _ =>
    refine .inr ⟨Block.finish_pw .., fun o => (Block.finish_reg ..).trans ?_⟩
    rfl

/-- What the SHUTDOWN's answer leaves of OFF_READY. -/
theorem Block.shutDone_ready (c : Block) (ms : Nat) : (c.shutDone ms).pw.depWaiter = none ∧ (c.shutDone ms).pw.bare = { c.pw.bare with depWaiter := none }
    ∧ (∀ d, (c.shutDone ms).dom d = c.dom d) ∧ ∀ o, (c.shutDone ms).reg o = c.reg o := by
  rcases c.shutDone_facts ms with ⟨same, none_⟩ | ⟨pw, regs⟩
  · rw [same]
    exact ⟨none_, by rw [← none_]; rfl, fun _ => rfl, fun _ => rfl⟩
  · exact ⟨by rw [pw], by rw [pw]; rfl, fun d => by rw [Block.dom, pw]; rfl, regs⟩

theorem Block.offReady_pw (c : Block) (ms : Nat) :
    (c.offReady ms).pw = { c.pw with depPhase := .ready, offReady := true, tDepart := BitVec.ofNat 32 ms } := Block.orReg_pw ..

theorem Block.ready_facts (c : Block) : c.ready.pw.depPhase = .ready ∧ c.ready.pw.offReady = true ∧ c.ready.regBit Off.pwAlarm 3 = true
    ∧ c.ready.pw.tDepart = BitVec.ofNat 32 (c.since c.pw.depStart / msTicks) ∧ c.ready.pw.depWaiter = none ∧ ∀ d, c.ready.dom d = c.dom d := by
  have set : (c.offReady (c.since c.pw.depStart / msTicks)).regBit Off.pwAlarm 3 = true := by
    rw [Block.offReady, Block.regBit_orReg]
    simp
  have pw := c.offReady_pw (c.since c.pw.depStart / msTicks)
  have dom (d : Nat) : (c.offReady (c.since c.pw.depStart / msTicks)).dom d = c.dom d := by rw [Block.dom, pw]; rfl
  obtain ⟨none_, bare, doms, regs⟩ := (c.offReady (c.since c.pw.depStart / msTicks)).shutDone_ready (c.since c.pw.depStart / msTicks)
  rw [Block.ready]
  generalize c.offReady (c.since c.pw.depStart / msTicks) = d at *
  rw [pw] at bare
  exact ⟨congrArg Power.depPhase bare, congrArg Power.offReady bare, (Block.regBit_congr (regs _) 3).trans set, congrArg Power.tDepart bare, none_,
    fun k => (doms k).trans (dom k)⟩

theorem departureReady_ready (st : s.blk.pw.st = .departure) (phase : s.blk.pw.depPhase = .domainsOff) (runs : s.blk.hmRuns = true) :
    Does .departureReady s [.berths, .chans, .ck, .cnt, .doms, .events, .fws, .ins, .lanes, .mf, .pw, .qy, .regs, .running, .sides, .slots, .tl] fun b =>
      b.pw.depPhase = .ready ∧ b.pw.offReady = true ∧ b.regBit Off.pwAlarm 3 = true ∧ b.alertLow = true
        ∧ b.pw.tDepart = BitVec.ofNat 32 (s.blk.since s.blk.pw.depStart / msTicks) ∧ b.pw.depWaiter = none
        ∧ ∀ d, d < 48 → (b.dom d).st = (if (s.blk.dom d).st = .failed then .failed else .off) := by
  have wanes : s.blk.Wanes (s.blk.each (List.range 48) Block.stopDom) := .each (fun c d => c.stopDom_wanes d) ..
  have start := Power.of_bare (wanes.departs st) (·.depStart) fun _ => rfl
  have tide := Block.each_keeps (·.ck.tide) Block.stopDom (fun c d => c.stopDom_tide d) s.blk (List.range 48)
  have off (d : Nat) (low : d < 48) : ((s.blk.each (List.range 48) Block.stopDom).dom d).st = if (s.blk.dom d).st = .failed then .failed else .off := by
    obtain ⟨c, same, last⟩ := Block.each_at (f := Block.stopDom) (π := fun c => (c.dom d).st) List.nodup_range (List.mem_range.mpr low)
      (fun c k _ apart => by rw [Block.stopDom_dom, if_neg apart]) s.blk
    rw [last, Block.stopDom_dom, if_pos rfl, same]
  refine does_framed (f := Block.departed) rfl (execDepartureReady_kept ·) (Within.of rfl) ?_
  rw [Block.departed_eq st phase runs]
  generalize s.blk.each (List.range 48) Block.stopDom = c at *
  obtain ⟨phase', ready, alarm, took, none_, doms⟩ := c.ready_facts
  refine ⟨phase', ready, alarm, (Block.alertLow_iff _).mpr (.inl (.inr (.inr ready))), ?_, none_, fun d low => by rw [doms, off d low]⟩
  rw [took, Block.since, tide, start, Block.since]

end

/-- Settles O21: each phase is the model's own step, and what it does beside is said by what findings, domains and channels
leave of the departure's power state. -/
theorem departurePhases : Obligations.DeparturePhases :=
  ⟨fun _ => quiesceDone_surveys, fun _ _ => departureSurveyDone_parks, fun _ _ => departureSurveyDone_group, fun _ _ => departureSurveyDone_without,
    fun _ _ => drainDone_departs, fun _ _ => departureSurveyDone_skips, fun _ => chartWriteDone_drains, fun _ => departureReady_ready⟩

end Sys2Proof.Machine
end

section
/-! SUPPORT. A watch round: what it measures, the steps it leaves, when it trips (R338, R380, R382, R387, R392 to R397). -/

namespace Sys2Proof.Machine

open Sys2Proof

section
variable {b c : Block} {s : State} {r : Readings}

/-! ### Steps and thresholds (R392, R393) -/

/-- The step reached is 0 or one whose threshold the temperature has reached. -/
theorem reached_threshold (l : Nat) (t : Rat) : reached l t = 0 ∨ threshold l (reached l t).val ≤ t := by
  unfold reached
  refine List.foldlRecOn (motive := fun m : Fin 8 => m = 0 ∨ threshold l m.val ≤ t) _ maxStep (.inl rfl) fun m before k listed => ?_
  unfold maxStep
  split
  · exact .inr (by simpa using (List.mem_filter.mp listed).2)
  · exact before

theorem Layer.stepped_used (x : Layer) (l : Nat) : (x.stepped l).used = x.used := by
  unfold Layer.stepped
  dsimp only
  split
  · rfl
  · split
    · split <;> rfl
    · rfl

/-- The thermal step after a round is no lower than what the temperature has reached. -/
theorem Layer.stepped_reached (x : Layer) (l : Nat) : (reached l x.used).val ≤ (x.stepped l).therm.val := by
  unfold Layer.stepped
  dsimp only
  split
  case isTrue => exact Nat.le_refl _
  case isFalse high =>
    have le : reached l x.used ≤ x.therm := not_lt.mp high
    split
    case isFalse => exact le
    case isTrue cool =>
      split
      case isFalse => exact le
      case isTrue =>
        obtain ⟨some_, below⟩ := cool
        have apart : reached l x.used ≠ x.therm := by
          intro same
          rcases reached_threshold l x.used with zero | over_
          · exact some_ (same.symm.trans zero)
          · rw [same] at over_
            linarith
        have lt : (reached l x.used).val < x.therm.val := lt_of_le_of_ne le fun same => apart (Fin.ext same)
        have one : (x.therm - 1).val = x.therm.val - 1 := Fin.val_sub_one_of_ne_zero some_
        show (reached l x.used).val ≤ (x.therm - 1).val
        omega

/-- A layer's step after a round: its thermal step, raised to its floor, and held where it may not fall (R390, R393). -/
def Layer.held (x : Layer) (fl : Nat) : Layer :=
  { x with floor := Fin.ofNat 8 (min fl 7), step := Fin.ofNat 8 (min (if x.noFall then max (max x.therm.val fl) x.step.val else max x.therm.val fl) 7) }

theorem Layer.held_step (x : Layer) (fl : Nat) : x.therm.val ≤ (x.held fl).step.val := by
  have low : x.therm.val < 8 := x.therm.isLt
  have step : (x.held fl).step.val = min (if x.noFall then max (max x.therm.val fl) x.step.val else max x.therm.val fl) 7 := by
    show min _ 7 % 8 = _
    omega
  rw [step]
  split <;> omega

/-- No layer's step is below what its temperature used has reached. -/
def Layer.heeds (l : Nat) (x : Layer) : Prop := (reached l x.used).val ≤ x.step.val

theorem Layer.held_heeds (x : Layer) (l fl : Nat) : ((x.stepped l).held fl).heeds l := by
  have used : ((x.stepped l).held fl).used = x.used := x.stepped_used l
  rw [Layer.heeds, used]
  exact (x.stepped_reached l).trans ((x.stepped l).held_step fl)

/-! ### Layers and sensors kept -/

theorem Block.layer_setLayer (b : Block) (l k : Nat) (v : Layer) : (b.setLayer l v).layer k = if l = k then v else b.layer k := tget_tset ..

theorem Block.layer_of_heat (same : c.heat = b.heat) (l : Nat) : c.layer l = b.layer l := by rw [Block.layer, same, Block.layer]

theorem Block.latchFloor_layer (b : Block) {l k : Nat} (apart : l ≠ k) (noFall : Bool) : (b.latchFloor l noFall).layer k = b.layer k := by
  unfold Block.latchFloor
  dsimp only
  split
  · rfl
  · rw [Block.layer_of_heat (Block.orReg_heat ..), Block.layer_setLayer, if_neg apart]

theorem Block.blindLatch_layer (b : Block) {l k : Nat} (apart : l ≠ k) : (b.blindLatch l).layer k = b.layer k := by
  unfold Block.blindLatch
  split
  · split
    · rfl
    · rw [Block.layer_of_heat (Block.event_heat ..), Block.latchFloor_layer _ apart]
  · rfl

/-- A layer's decisions: its latch, then its step after the round, then the alarm of a divergence. -/
theorem Block.decideLayer_heat (b : Block) (rise tb : Rat) (l : Nat) :
    ∃ x fl, (b.decideLayer rise tb l).heat = ((b.blindLatch l).setLayer l ((Layer.stepped x l).held fl)).heat := by
  have alarmed (p : Prop) [Decidable p] (c : Block) : (if p then (c.orReg Off.htAlarm 1).event .diverge l else c).heat = c.heat := by
    split
    · rw [Block.event_heat, Block.orReg_heat]
    · rfl
  exact ⟨_, _, alarmed _ _⟩

theorem Block.decideLayer_other (b : Block) (rise tb : Rat) {l k : Nat} (apart : l ≠ k) : (b.decideLayer rise tb l).layer k = b.layer k := by
  obtain ⟨x, fl, heat⟩ := b.decideLayer_heat rise tb l
  rw [Block.layer_of_heat heat, Block.layer_setLayer, if_neg apart, Block.blindLatch_layer _ apart]

theorem Block.decideLayer_heeds (b : Block) (rise tb : Rat) (l : Nat) : ((b.decideLayer rise tb l).layer l).heeds l := by
  obtain ⟨x, fl, heat⟩ := b.decideLayer_heat rise tb l
  rw [Block.layer_of_heat heat, Block.layer_setLayer, if_pos rfl]
  exact x.held_heeds l fl

/-! ### The round's count and its conversions kept -/

/-- The rounds counted, and the converter's values. -/
def Block.sensed (b : Block) : Word × Tbl (Int × Bool) := (b.heat.round, b.heat.ch)

theorem Block.sensed_of_heat (same : c.heat = b.heat) : c.sensed = b.sensed := by rw [Block.sensed, same, Block.sensed]

theorem Block.setLayer_sensed (b : Block) (l : Nat) (v : Layer) : (b.setLayer l v).sensed = b.sensed := rfl

theorem Block.setSensor_sensed (b : Block) (n : Nat) (v : Sensor) : (b.setSensor n v).sensed = b.sensed := rfl

theorem Block.latchFloor_sensed (b : Block) (l : Nat) (noFall : Bool) : (b.latchFloor l noFall).sensed = b.sensed := by
  unfold Block.latchFloor
  dsimp only
  split
  · rfl
  · rw [Block.sensed_of_heat (Block.orReg_heat ..), Block.setLayer_sensed]

theorem Block.blindLatch_sensed (b : Block) (l : Nat) : (b.blindLatch l).sensed = b.sensed := by
  unfold Block.blindLatch
  split
  · split
    · rfl
    · rw [Block.sensed_of_heat (Block.event_heat ..), Block.latchFloor_sensed]
  · rfl

theorem Block.decideLayer_sensed (b : Block) (rise tb : Rat) (l : Nat) : (b.decideLayer rise tb l).sensed = b.sensed := by
  obtain ⟨x, fl, heat⟩ := b.decideLayer_heat rise tb l
  rw [Block.sensed_of_heat heat, Block.setLayer_sensed, Block.blindLatch_sensed]

theorem Block.seeSensor_sensed (b : Block) (v : Option Int) (atLimit : Bool) (n : Nat) : (b.seeSensor v atLimit n).sensed = b.sensed := by
  unfold Block.seeSensor
  dsimp only
  split
  · rfl
  · split
    · rfl
    · split <;> rfl

theorem Block.ite_sensed {p : Prop} [Decidable p] {d : Block} (h : c.sensed = b.sensed) (k : d.sensed = b.sensed) : (if p then c else d).sensed = b.sensed := by
  split
  · exact h
  · exact k

theorem Block.sensorFails_sensed (b : Block) (n : Nat) (cause : BitVec 2) : (b.sensorFails n cause).sensed = b.sensed := by
  have failed : ((((b.setSensor n { b.sensor n with st := .failed, cause := cause }).orReg Off.htAlarm 2)).event .sensorFail n [cause.zeroExtend 16]).sensed = b.sensed := by
    rw [Block.sensed_of_heat (Block.event_heat ..), Block.sensed_of_heat (Block.orReg_heat ..), Block.setSensor_sensed]
  unfold Block.sensorFails
  dsimp only
  generalize Block.event _ .sensorFail n [cause.zeroExtend 16] = c at failed ⊢
  have latched (p q : Prop) [Decidable p] [Decidable q] :
      (if p then c.latchFloor (sensorLayer n) false else if q then c.latchFloor (sensorLayer n) true else c).sensed = b.sensed :=
    Block.ite_sensed ((c.latchFloor_sensed ..).trans failed) (Block.ite_sensed ((c.latchFloor_sensed ..).trans failed) failed)
  exact Block.ite_sensed ((Block.sensed_of_heat (Block.event_heat ..)).trans (latched _ _)) (latched _ _)

theorem Block.checkSensor_sensed (b : Block) (v : Option Int) (atLimit : Bool) (n : Nat) : (b.checkSensor v atLimit n).sensed = b.sensed := by
  unfold Block.checkSensor
  split
  · split
    · exact b.sensorFails_sensed ..
    · rfl
  · rfl

theorem Block.sensorRound_sensed (b : Block) (r : Readings) : (b.sensorRound r).sensed = b.sensed := by
  unfold Block.sensorRound
  rw [Block.each_keeps Block.sensed _ fun c n => c.checkSensor_sensed .., Block.each_keeps Block.sensed _ fun c n => c.seeSensor_sensed ..,
    Block.each_keeps Block.sensed Block.notePower fun c l => c.setLayer_sensed ..]

/-! ### The measuring part (R380, R381, R389) -/

/-- One conversion noted. -/
def Block.convertAt (b : Block) (r : Readings) (i : Nat) : Block :=
  { b with heat.ch := tset (fun _ => (0, false)) b.heat.ch i (match r.ch.getD i none with
      | some v => (v + (if i < 56 then b.readingOffset else 0), true)
      | none => ((b.htCh i).1, false)) }

theorem Block.convert_eq (b : Block) (r : Readings) : b.convert r = b.each (List.range 96) fun b i => b.convertAt r i := rfl

theorem Block.convertAt_htCh (b : Block) (r : Readings) (i k : Nat) : (b.convertAt r i).htCh k = if i = k then (match r.ch.getD i none with
      | some v => (v + (if i < 56 then b.readingOffset else 0), true)
      | none => ((b.htCh i).1, false)) else b.htCh k := tget_tset ..

theorem Block.readingOffset_eq (b : Block) (i : Nat) : (if i < 56 then b.readingOffset else 0) = if i < 56 ∧ b.ck.xtalOk = false then 32 else 0 := by
  unfold Block.readingOffset
  cases b.ck.xtalOk <;> simp

/-- What a converter channel holds after the round's conversion. -/
def Block.converted (b : Block) (r : Readings) (i : Nat) : Int × Bool :=
  match r.ch.getD i none with
  | some v => (v + (if i < 56 ∧ b.ck.xtalOk = false then 32 else 0), true)
  | none => ((b.htCh i).1, false)

theorem Block.convert_htCh (b : Block) (r : Readings) {i : Nat} (low : i < 96) : (b.convert r).htCh i = b.converted r i := by
  obtain ⟨c, same, last⟩ := Block.each_at (f := fun b i => b.convertAt r i) (π := fun c => (c.htCh i, c.ck)) List.nodup_range (List.mem_range.mpr low)
    (fun c k _ apart => by
      rw [Block.convertAt_htCh, if_neg apart]
      rfl) b
  obtain ⟨value, ck⟩ := Prod.mk.inj same
  have made := congrArg Prod.fst last
  rw [Block.convert_eq, show ((b.each (List.range 96) fun b i => b.convertAt r i).htCh i) = (c.convertAt r i).htCh i from made, Block.convertAt_htCh, if_pos rfl,
    Block.readingOffset_eq, value, ck]
  rfl

theorem Block.convert_round (b : Block) (r : Readings) : (b.convert r).heat.round = b.heat.round :=
  Block.each_keeps (·.heat.round) (fun b i => b.convertAt r i) (fun _ _ => rfl) b _

/-- The round counted. -/
def Block.roundCounted (c : Block) : Block := { c with heat.round := c.heat.round + 1 }

theorem Block.counted_sensed (c : Block) : c.roundCounted.sensed = (c.heat.round + 1, c.heat.ch) := rfl

theorem Block.measure_eq (b : Block) (r : Readings) :
    b.measure r = (((b.convert r).roundCounted.noteRef .west r.refPpmW r.refSpreadW).noteRef .east r.refPpmE r.refSpreadE).sensorRound r := rfl

theorem Block.measure_sensed (b : Block) (r : Readings) : (b.measure r).sensed = (b.heat.round + 1, (b.convert r).heat.ch) := by
  rw [Block.measure_eq, Block.sensorRound_sensed, Block.sensed_of_heat ((Block.noteRef_kept ..).out .heat (by simp [Piece.among])),
    Block.sensed_of_heat ((Block.noteRef_kept ..).out .heat (by simp [Piece.among])), Block.counted_sensed, Block.convert_round]

/-! ### The layers decided (R385 to R393) -/

/-- The model's anchor and seed noted. -/
def Block.seeded (b : Block) (tb : Rat) : Block :=
  { b with heat.tb := tb, heat.seedAt := if b.heat.seedDue then some b.ck.tide else b.heat.seedAt, heat.seedDue := false }

theorem Block.decideLayers_eq (b : Block) :
    b.decideLayers = ((b.seeded b.modelNext.2).each (List.range 17) fun c l => c.decideLayer (b.modelNext.1.getD l 0) b.modelNext.2 l).draw := rfl

theorem Block.seeded_sensed (b : Block) (tb : Rat) : (b.seeded tb).sensed = b.sensed := rfl

theorem Block.decideLayers_sensed (b : Block) : b.decideLayers.sensed = b.sensed := by
  rw [Block.decideLayers_eq, Block.sensed_of_heat ((Block.draw_kept _).out .heat (by simp [Piece.among])),
    Block.each_keeps Block.sensed _ fun c l => c.decideLayer_sensed .., Block.seeded_sensed]

theorem Block.decideLayers_heeds (b : Block) {l : Nat} (low : l < 17) : (b.decideLayers.layer l).heeds l := by
  obtain ⟨c, -, last⟩ := Block.each_at (f := fun c l => c.decideLayer (b.modelNext.1.getD l 0) b.modelNext.2 l) (π := fun c => c.layer l) List.nodup_range
    (List.mem_range.mpr low) (fun c k _ apart => c.decideLayer_other _ _ apart) (b.seeded b.modelNext.2)
  rw [Block.decideLayers_eq, Block.layer_of_heat ((Block.draw_kept _).out .heat (by simp [Piece.among])), last]
  exact c.decideLayer_heeds ..

/-! ### What the rest of the round leaves of heat -/

/-- What a layer's decision says to the rest of the round. -/
def Block.felt (b : Block) (l : Nat) : Rat × Fin 8 := ((b.layer l).used, (b.layer l).step)

/-- The round's count, its conversions, and every layer's temperature and step. -/
def Block.shown (b : Block) : (Word × Tbl (Int × Bool)) × (Nat → Rat × Fin 8) := (b.sensed, b.felt)

theorem Block.shown_of_heat (same : c.heat = b.heat) : c.shown = b.shown := by
  have felt : c.felt = b.felt := funext fun l => by rw [Block.felt, Block.layer_of_heat same, Block.felt]
  rw [Block.shown, Block.sensed_of_heat same, felt, Block.shown]

theorem Kept.shown {ps : List Piece} (k : Kept ps b c) (out : ¬ Piece.heat.among ps) : c.shown = b.shown :=
  Block.shown_of_heat (k.out .heat out)

theorem Block.withCap_shown (c : Block) (step : Fin 8) (low : Nat) : { c with heat.capStep := step, heat.capLow := low }.shown = c.shown := rfl

theorem Block.capRound_shown (b : Block) : b.capRound.shown = b.shown := by
  have alarmed (p : Prop) [Decidable p] (c : Block) : (if p then c.orReg Off.htAlarm 16 else c).shown = c.shown := by
    split
    · exact Block.shown_of_heat (Block.orReg_heat ..)
    · rfl
  unfold Block.capRound
  dsimp only
  split
  · rfl
  · split
    · exact (Block.withCap_shown ..).trans ((alarmed ..).trans rfl)
    · split
      · split <;> rfl
      · rfl

theorem Block.keepReport_shown (b : Block) : b.keepReport.shown = b.shown := rfl

theorem Block.bandgap_shown (b : Block) : b.bandgap.shown = b.shown := by
  unfold Block.bandgap
  dsimp only
  split
  · exact (Block.shown_of_heat (Block.orReg_heat ..)).trans rfl
  · split <;> rfl

theorem Block.markRefresh_shown (b : Block) (l : Nat) : (b.markRefresh l).shown = b.shown := by
  have felt : (b.markRefresh l).felt = b.felt := funext fun k => by
    unfold Block.markRefresh Block.felt
    dsimp only
    rw [Block.layer_setLayer]
    split
    case isTrue same => subst same; rfl
    case isFalse => rfl
  rw [Block.shown, felt]
  rfl

theorem Block.capAndTrim_shown (b : Block) : b.capAndTrim.shown = b.shown := by
  rw [Block.capAndTrim, Block.bandgap_shown, (Block.correct_kept _).shown (by simp [Piece.among]), Block.keepReport_shown, (Block.surveyPower_kept _).shown (by simp [Piece.among]), Block.capRound_shown]

/-- A channel's rate, counts and coils after a round. -/
def Block.coolChan (b : Block) (n : Nat) : Block := ((b.refreshRate n).modChan n Chan.countsTaken).coilRound n

theorem Block.afterLayers_eq (b : Block) : b.afterLayers =
    (((b.each (List.range 64) Block.coolChan).each (List.range 17) Block.markRefresh).each (List.range 32) Block.laneTrigger).each (List.range 64) Block.calTrigger := rfl

theorem Block.coolChan_shown (b : Block) (n : Nat) : (b.coolChan n).shown = b.shown := by
  rw [Block.coolChan, (Block.coilRound_kept ..).shown (by simp [Piece.among]), (Block.modChan_kept ..).shown (by simp [Piece.among]), (Block.refreshRate_kept ..).shown (by simp [Piece.among])]

theorem Block.afterLayers_shown (b : Block) : b.afterLayers.shown = b.shown := by
  rw [Block.afterLayers_eq, Block.each_keeps Block.shown _ fun c n => (c.calTrigger_kept n).shown (by simp [Piece.among]), Block.each_keeps Block.shown _ fun c l => (c.laneTrigger_kept l).shown (by simp [Piece.among]),
    Block.each_keeps Block.shown _ Block.markRefresh_shown, Block.each_keeps Block.shown _ Block.coolChan_shown]

/-! ### The pier does not trip before the round's end -/

theorem Block.setCol_wanes (b : Block) (n : Nat) (v : Column) : b.Wanes (b.setCol n v) := .of_eq rfl rfl rfl

theorem Block.coilSuspect_wanes (b : Block) (n i : Nat) : b.Wanes (b.coilSuspect n i) := by
  have alarmed : b.Wanes ((b.orReg Off.stAlarm 2).event .columnFail n) := b.alarmed_wanes ..
  exact .ite ((Block.event_kept ..).wanes rfl) (.ite (.refl b) (.ite (b.setCol_wanes ..) (alarmed.trans (Block.fenceAll_wanes ..))))

theorem Block.coolChan_wanes (b : Block) (n : Nat) : b.Wanes (b.coolChan n) := by
  have counted := ((b.refreshRate_kept n).wanes rfl).trans ((Block.modChan_kept _ n Chan.countsTaken).wanes rfl)
  unfold Block.coolChan Block.coilRound
  exact counted.trans (.trans (Block.setCol_wanes ..) (.each (fun c i => c.coilSuspect_wanes n i) ..))

theorem Block.afterLayers_wanes (b : Block) : b.Wanes b.afterLayers := by
  rw [Block.afterLayers_eq]
  exact (((Block.Wanes.each Block.coolChan_wanes ..).trans (.each (fun c l => (c.markRefresh_kept l).wanes rfl) ..)).trans
    (.each (fun c l => (c.laneTrigger_kept l).wanes rfl) ..)).trans (.each (fun c n => (c.calTrigger_kept n).wanes rfl) ..)

theorem Block.Wanes.untripped (k : b.Wanes c) (h : b.pw.st ≠ .tripped) : c.pw.st ≠ .tripped := by
  rcases k.power with same | ⟨-, -, t, opened⟩
  · rw [Power.bare_st same]
    exact h
  · rw [show c.pw.st = .openS from Power.bare_st opened]
    decide

/-! ### The crystal's correction (R338) -/

/-- The correction a round later, on its way to the one wanted. -/
def correctionNext (now want : Rat) : Rat := if now + 16 < want then now + 16 else if want < now - 16 then now - 16 else want

theorem correctionNext_near (now want : Rat) : correctionNext now want ≤ now + 16 ∧ now ≤ correctionNext now want + 16 := by
  unfold correctionNext
  split
  · constructor <;> linarith
  · split
    · constructor <;> linarith
    · constructor <;> linarith

theorem correctionNext_held {now want : Rat} (low : -3200 ≤ now) (high : now ≤ 3200) (least : -3200 ≤ want) (most : want ≤ 3200) :
    -3200 ≤ correctionNext now want ∧ correctionNext now want ≤ 3200 := by
  unfold correctionNext
  split
  · constructor <;> linarith
  · split
    · constructor <;> linarith
    · exact ⟨least, most⟩

/-- The correction that the crystal's temperature asks for, held to 50 ppm. -/
def Block.correctionWanted (b : Block) : Rat := max (-3200) (min 3200 (-(b.crystalOffset (b.htCh 0).1)))

theorem Block.correctionWanted_held (b : Block) : -3200 ≤ b.correctionWanted ∧ b.correctionWanted ≤ 3200 :=
  ⟨le_max_left .., max_le (by norm_num) (min_le_left ..)⟩

theorem Block.correct_corr (on : b.regBit Off.ckCtrl 1 = true) : b.correct.ck.corr = correctionNext b.ck.corr b.correctionWanted := by
  have alarmed (p : Prop) [Decidable p] (c : Block) : (if p then c.orReg Off.ckAlarm 128 else c).ck = c.ck := by
    split
    · exact Block.orReg_ck ..
    · rfl
  unfold Block.correct
  rw [if_neg (by simp [on])]
  dsimp only
  rw [alarmed]
  rfl

/-- What a round with compensation on makes of the correction. -/
def correctedFrom (was now : Rat) : Prop := (now ≤ was + 16 ∧ was ≤ now + 16) ∧ (-3200 ≤ was → was ≤ 3200 → -3200 ≤ now ∧ now ≤ 3200)

theorem Block.capAndTrim_corr (on : b.regBit Off.ckCtrl 1 = true) : correctedFrom b.ck.corr b.capAndTrim.ck.corr := by
  have kept : Kept [.heat, .reg Off.htAlarm, .reg Off.pwAlarm, .sv] b b.capRound.surveyPower.keepReport :=
    Kept.step (Block.keepReport_kept _) (Within.of rfl) (Kept.step (Block.surveyPower_kept _) (Within.of rfl) (b.capRound_kept.mono (Within.of rfl)))
  have ck := kept.ckEq (by simp [Piece.among]) (by simp [Piece.among])
  have on' : b.capRound.surveyPower.keepReport.regBit Off.ckCtrl 1 = true :=
    (Block.regBit_congr (kept.out (.reg Off.ckCtrl) (by simp [Piece.among, Off.ckCtrl, Off.htAlarm, Off.pwAlarm])) 1).trans on
  rw [Block.capAndTrim, (Block.bandgap_kept _).ckEq (by simp [Piece.among]) (by simp [Piece.among])]
  generalize b.capRound.surveyPower.keepReport = c at *
  obtain ⟨least, most⟩ := c.correctionWanted_held
  rw [Block.correct_corr on', ck]
  exact ⟨correctionNext_near .., fun low high => correctionNext_held low high least most⟩

/-! ### The trip (R397) -/

/-- The core dark, every domain off, no channel with contents. -/
def Block.poweredOff (b : Block) : Block := b.coreDark.domainsOff.emptied

/-- A departure that a trip cuts short before OFF_READY is abandoned. -/
def Block.tripAbandons (c : Block) : Block :=
  if c.pw.st = .departure ∧ ¬ c.pw.offReady then { c.orReg Off.pwAlarm 1 with pw.depAbandoned := true } else c

/-- The pier TRIPPED, with its record. -/
def Block.tripEnds (c : Block) (r : Trip) : Block :=
  { c with pw.st := .tripped, pw.depPhase := .none, pw.arr := .done, pw.heldInReset := false, pins.thermTripLow := true
           pw.afterTrip := true, heat.tripRec := some r, heat.tripMark := false, lg.writing := none, ck.coreGated := false
           ck.west := { c.ck.west with lock := false, down := false, attempt := false }
           ck.east := { c.ck.east with lock := false, down := false, attempt := false } }

theorem Block.trip_eq (b : Block) (analogue : Bool) (sensor l : Nat) :
    b.trip analogue sensor l = b.poweredOff.tripAbandons.tripEnds (b.tripRecord analogue sensor l) := by
  unfold Block.trip Block.poweredOff Block.tripAbandons Block.tripEnds Block.emptied Block.empty
  with_reducible rfl

/-- A domain without power. -/
def Block.cutDom (b : Block) (d : Nat) : Block := b.modDom d fun x => { x with st := if x.st = .failed then .failed else .off, waiter := none }

/-- A berth without its domain. -/
def Block.berthGone (b : Block) (n : Nat) : Block := b.modBerth n fun x => { x with st := .absent }

theorem Block.domainsOff_eq (b : Block) : b.domainsOff = (b.each (List.range 48) Block.cutDom).each (List.range 64) Block.berthGone := by
  unfold Block.domainsOff Block.cutDom Block.berthGone
  with_reducible rfl

theorem Block.cutDom_st (b : Block) (d : Nat) : ((b.cutDom d).dom d).st = .off ∨ ((b.cutDom d).dom d).st = .failed := by
  rw [Block.cutDom, Block.dom_modDom, if_pos rfl]
  dsimp only
  split
  · exact .inr rfl
  · exact .inl rfl

theorem Block.domainsOff_dom (b : Block) {d : Nat} (low : d < 48) : (b.domainsOff.dom d).st = .off ∨ (b.domainsOff.dom d).st = .failed := by
  obtain ⟨c, -, last⟩ := Block.each_at (f := Block.cutDom) (π := fun c => (c.dom d).st) List.nodup_range (List.mem_range.mpr low)
    (fun c k _ apart => by rw [Block.cutDom, Block.dom_modDom, if_neg apart]) b
  rw [Block.domainsOff_eq, Block.each_keeps (·.dom d) Block.berthGone (fun c n => (c.modBerth_kept n _).out (.dom d) (by simp [Piece.among])), last]
  exact c.cutDom_st d

theorem Block.gateCore_corr (b : Block) : b.gateCore.ck.corr = b.ck.corr := rfl

theorem Block.coreDark_corr (b : Block) : b.coreDark.ck.corr = b.ck.corr := by
  rw [Block.coreDark_eq, Block.gateCore_corr]
  exact congrArg Clocks.corr Block.linksDark_ck

theorem Block.poweredOff_corr (b : Block) : b.poweredOff.ck.corr = b.ck.corr := by
  rw [Block.poweredOff, (Block.emptied_kept _).ckEq (by simp [Piece.among]) (by simp [Piece.among]),
    (Block.domainsOff_kept _).ckEq (by simp [Piece.among]) (by simp [Piece.among]), Block.coreDark_corr]

theorem Block.poweredOff_shown (b : Block) : b.poweredOff.shown = b.shown := by
  rw [Block.poweredOff, (Block.emptied_kept _).shown (by simp [Piece.among]), (Block.domainsOff_kept _).shown (by simp [Piece.among]), (Block.coreDark_kept _).shown (by simp [Piece.among])]

theorem Block.poweredOff_dom (b : Block) {d : Nat} (low : d < 48) : (b.poweredOff.dom d).st = .off ∨ (b.poweredOff.dom d).st = .failed := by
  rw [Block.poweredOff, show b.coreDark.domainsOff.emptied.dom d = b.coreDark.domainsOff.dom d from (Block.emptied_kept _).out (.dom d) (by simp [Piece.among])]
  exact b.coreDark.domainsOff_dom low

theorem Block.tripAbandons_same (c : Block) : c.tripAbandons.ck = c.ck ∧ c.tripAbandons.shown = c.shown ∧ ∀ d, c.tripAbandons.dom d = c.dom d := by
  unfold Block.tripAbandons
  split
  · refine ⟨c.orReg_ck Off.pwAlarm 1, Block.shown_of_heat (c.orReg_heat Off.pwAlarm 1), fun d => ?_⟩
    exact congrArg (fun p : Power => tget (fun _ => {}) p.doms d) (c.orReg_pw Off.pwAlarm 1)
  · exact ⟨rfl, rfl, fun _ => rfl⟩

theorem Block.tripEnds_facts (c : Block) (r : Trip) : (c.tripEnds r).pw.st = .tripped ∧ (c.tripEnds r).pins.thermTripLow = true
    ∧ (c.tripEnds r).ck.corr = c.ck.corr ∧ (c.tripEnds r).shown = c.shown ∧ ∀ d, (c.tripEnds r).dom d = c.dom d :=
  ⟨rfl, rfl, rfl, rfl, fun _ => rfl⟩

theorem Block.trip_facts (b : Block) (analogue : Bool) (sensor l : Nat) : (b.trip analogue sensor l).pw.st = .tripped ∧ (b.trip analogue sensor l).pins.thermTripLow = true
    ∧ (b.trip analogue sensor l).ck.corr = b.ck.corr ∧ (b.trip analogue sensor l).shown = b.shown
    ∧ ∀ d, d < 48 → ((b.trip analogue sensor l).dom d).st = .off ∨ ((b.trip analogue sensor l).dom d).st = .failed := by
  have corr := b.poweredOff_corr
  have shown := b.poweredOff_shown
  have off (d : Nat) (low : d < 48) := b.poweredOff_dom low
  rw [Block.trip_eq]
  generalize b.poweredOff = c at *
  obtain ⟨ck, shown', dom'⟩ := c.tripAbandons_same
  generalize c.tripAbandons = d at *
  obtain ⟨st, low, corr', shown'', dom''⟩ := d.tripEnds_facts (b.tripRecord analogue sensor l)
  refine ⟨st, low, corr'.trans ((congrArg Clocks.corr ck).trans corr), shown''.trans (shown'.trans shown), fun k inside => ?_⟩
  rw [dom'', dom']
  exact off k inside

/-! ### The channels' steps (R395) -/

theorem Block.stepOf_congr (heat : c.heat = b.heat) (ctrl : c.reg Off.htCtrl = b.reg Off.htCtrl) (n : Nat) : c.stepOf n = b.stepOf n := by
  have field : c.regField Off.htCtrl 12 3 = b.regField Off.htCtrl 12 3 := by rw [Block.regField, ctrl, Block.regField]
  rw [Block.stepOf, Block.layer_of_heat heat, Block.layer_of_heat heat, heat, field, Block.stepOf]

theorem Block.decideStep_stepOf (b : Block) (n k : Nat) : (b.decideStep k).stepOf n = b.stepOf n :=
  have kept := b.decideStep_kept k
  Block.stepOf_congr (kept.out .heat (by simp [Piece.among])) (kept.out (.reg Off.htCtrl) (by simp [Piece.among, Off.htCtrl, Off.htAlarm])) n

theorem Block.passNoted_chan (c : Block) (t : Tide) (n : Nat) : ({ c with chs.passDue := true, chs.lastFall := t } : Block).chan n = c.chan n := rfl

theorem Block.decideStep_takes (b : Block) (n : Nat) : ((b.decideStep n).chan n).step = b.stepOf n ∨ ((b.decideStep n).chan n).stepDue = some (b.stepOf n) := by
  unfold Block.decideStep
  dsimp only
  split
  · split
    case isTrue due => exact .inr due
    case isFalse =>
      refine .inr ?_
      rw [Block.passNoted_chan, Block.chan_modChan]
  · split
    case isTrue same =>
      refine .inl ?_
      rw [Block.chan_modChan]
      exact same.symm
    case isFalse => exact .inl (b.applyStep_chan n _).2

/-- Every channel's step decided. -/
def Block.stepped (b : Block) : Block := b.each (List.range 64) Block.decideStep

theorem Block.stepped_takes (b : Block) {n : Nat} (low : n < 64) : (b.stepped.chan n).step = b.stepped.stepOf n ∨ (b.stepped.chan n).stepDue = some (b.stepped.stepOf n) := by
  obtain ⟨c, same, last⟩ := Block.each_at (f := Block.decideStep) (π := fun c => (c.chan n, c.stepOf n)) List.nodup_range (List.mem_range.mpr low)
    (fun c k _ apart => by
      rw [Block.decideStep_stepOf, show (c.decideStep k).chan n = c.chan n from (c.decideStep_kept k).out (.chan n) (by simp [Piece.among, Ne.symm apart])]) b
  obtain ⟨chan, step⟩ := Prod.mk.inj last
  rw [Block.stepped, chan, step, Block.decideStep_stepOf]
  exact c.decideStep_takes n

theorem Block.stepped_kept (b : Block) : Kept [.berths, .chans, .chs, .reg Off.htAlarm] b b.stepped :=
  .each _ (fun c n k => Kept.step (c.decideStep_kept n) (Within.cons (by simp [Piece.inside]) (Within.cons (by simp [Piece.inside])
    (Within.of_subset (by simp)))) k) (.refl ..)

/-! ### The round's end (R396) -/

/-- What a round's end leaves, and when it trips. -/
structure Block.RoundOver (b c : Block) : Prop where
  shown : c.shown = b.shown
  corr : c.ck.corr = b.ck.corr
  trips : c.pw.st = .tripped ↔ ∃ l : Fin 17, threshold l 8 ≤ (c.layer l).used
  dark : c.pw.st = .tripped → c.pins.thermTripLow = true ∧ ∀ d : Fin 48, (c.dom d).st = .off ∨ (c.dom d).st = .failed
  steps : c.pw.st ≠ .tripped → ∀ n : Fin 64, (c.chan n).step = c.stepOf n ∨ (c.chan n).stepDue = some (c.stepOf n)

theorem Block.used_of_shown (same : c.shown = b.shown) (l : Nat) : (c.layer l).used = (b.layer l).used ∧ (c.layer l).step = (b.layer l).step :=
  Prod.mk.inj (congrFun (Prod.mk.inj same).2 l)

theorem Block.tripOrStep_over (calm : b.pw.st ≠ .tripped) : b.RoundOver b.tripOrStep := by
  unfold Block.tripOrStep
  split
  case h_1 l found =>
    have hot : threshold l 8 ≤ (b.layer l).used := by simpa using List.find?_some found
    have low : l < 17 := List.mem_range.mp (List.mem_of_find?_eq_some found)
    obtain ⟨st, pin, corr, shown, off⟩ := b.trip_facts false 0xFF l
    refine ⟨shown, corr, ⟨fun _ => ⟨⟨l, low⟩, ?_⟩, fun _ => st⟩, fun _ => ⟨pin, fun d => off d d.isLt⟩, fun h => absurd st h⟩
    rw [(Block.used_of_shown shown l).1]
    exact hot
  case h_2 none_ =>
    show b.RoundOver b.stepped
    have kept := b.stepped_kept
    have st := kept.pwOf (by simp [Piece.among]) (·.st)
    have shown := kept.shown (by simp [Piece.among])
    have cool (l : Fin 17) : ¬ threshold l 8 ≤ (b.layer l).used := by
      have := List.find?_eq_none.mp none_ l.val (List.mem_range.mpr l.isLt)
      simpa using this
    have calm' : b.stepped.pw.st ≠ .tripped := by rw [st]; exact calm
    refine ⟨shown, congrArg Clocks.corr (kept.ckEq (by simp [Piece.among]) (by simp [Piece.among])), ⟨fun h => absurd h calm', fun ⟨l, hot⟩ => ?_⟩,
      fun h => absurd h calm', fun _ n => b.stepped_takes n.isLt⟩
    rw [(Block.used_of_shown shown l).1] at hot
    exact absurd hot (cool l)

/-! ### WATCH_ROUND (R382) -/

/-- The round's moment noted. -/
def Block.roundNoted (b : Block) : Block := { b with heat.roundAt := b.ck.tide }

/-- A round up to its end. -/
def Block.roundBody (b : Block) (r : Readings) : Block := ((b.roundNoted.measure r).decideLayers.capAndTrim).afterLayers

theorem Block.watchRound_runs (runs : b.roundRuns = true) (due : b.crossed msTicks b.heat.roundAt = true) : b.watchRound r = (b.roundBody r).tripOrStep := by
  unfold Block.watchRound
  exact if_pos ⟨runs, due⟩

theorem Block.watchRound_idle (h : b.roundRuns = false ∨ b.crossed msTicks b.heat.roundAt = false) : b.watchRound r = b := by
  unfold Block.watchRound
  refine if_neg fun k => ?_
  rcases h with off | off
  · rw [off] at k
    exact absurd k.1 (by decide)
  · rw [off] at k
    exact absurd k.2 (by decide)

/-- What a round's body leaves for its end. -/
structure Block.Measured (r : Readings) (b c : Block) : Prop where
  round : c.heat.round = b.heat.round + 1
  converted : ∀ i : Fin 96, c.htCh i = b.converted r i
  heeds : ∀ l : Fin 17, (c.layer l).heeds l
  corr : b.regBit Off.ckCtrl 1 = true → correctedFrom b.ck.corr c.ck.corr
  calm : b.pw.st ≠ .tripped → c.pw.st ≠ .tripped

theorem Layer.heeds_congr {x y : Layer} {l : Nat} (used : y.used = x.used) (step : y.step = x.step) (h : x.heeds l) : y.heeds l := by
  rw [Layer.heeds, used, step]
  exact h

theorem Block.roundNoted_facts (b : Block) : b.roundNoted.heat.round = b.heat.round ∧ (∀ i, b.roundNoted.converted r i = b.converted r i)
    ∧ b.roundNoted.ck = b.ck ∧ b.roundNoted.regBit Off.ckCtrl 1 = b.regBit Off.ckCtrl 1 ∧ b.roundNoted.pw = b.pw :=
  ⟨rfl, fun _ => rfl, rfl, rfl, rfl⟩

theorem Block.roundBody_measured (b : Block) (r : Readings) : b.Measured r (b.roundBody r) := by
  obtain ⟨round, converted, ck, ctrl, pw⟩ := b.roundNoted_facts (r := r)
  rw [Block.roundBody]
  generalize b.roundNoted = a at *
  have sensed := a.measure_sensed r
  have values (i : Fin 96) := a.convert_htCh r i.isLt
  have kept : Kept [.events, .fresh, .heat, .reg Off.htAlarm, .reg Off.lgAlarm, .sides] a (a.measure r).decideLayers :=
    Kept.step (Block.decideLayers_kept _) (Within.of rfl) ((a.measure_kept r).mono (Within.of rfl))
  have sensed' : (a.measure r).decideLayers.sensed = (a.heat.round + 1, (a.convert r).heat.ch) := (Block.decideLayers_sensed _).trans sensed
  have heeds (l : Fin 17) := (a.measure r).decideLayers_heeds l.isLt
  generalize (a.measure r).decideLayers = c at *
  have shown : c.capAndTrim.afterLayers.shown = c.shown := (Block.afterLayers_shown _).trans c.capAndTrim_shown
  obtain ⟨count, values'⟩ := Prod.mk.inj ((Prod.mk.inj shown).1.trans sensed')
  have untouched : c.capAndTrim.afterLayers.ck = c.capAndTrim.ck := (Block.afterLayers_kept _).ckEq (by simp [Piece.among]) (by simp [Piece.among])
  refine ⟨count.trans (by rw [round]), fun i => ?_, fun l => ?_, fun on => ?_, fun calm => ?_⟩
  · rw [Block.htCh, values', ← Block.htCh, values, converted]
  · obtain ⟨used, step⟩ := Block.used_of_shown shown l
    exact Layer.heeds_congr used step (heeds l)
  · have on' : c.regBit Off.ckCtrl 1 = true :=
      (Block.regBit_congr (kept.out (.reg Off.ckCtrl) (by simp [Piece.among, Off.ckCtrl, Off.htAlarm, Off.lgAlarm])) 1).trans (ctrl.trans on)
    have corrected := Block.capAndTrim_corr on'
    rw [kept.ckEq (by simp [Piece.among]) (by simp [Piece.among]), ck] at corrected
    rw [untouched]
    exact corrected
  · have wanes : a.Wanes c.capAndTrim.afterLayers := ((kept.wanes rfl).trans ((c.capAndTrim_kept).wanes rfl)).trans (Block.afterLayers_wanes _)
    exact wanes.untripped (by rw [pw]; exact calm)

theorem watchRound_runs (runs : s.blk.roundRuns = true) (due : s.blk.crossed msTicks s.blk.heat.roundAt = true) (calm : s.blk.pw.st ≠ .tripped) :
    Does (.watchRound r) s [.berths, .chans, .chs, .ck, .cnt, .cols, .doms, .events, .fresh, .fws, .heat, .ins, .lanes, .lg, .mf, .pins, .prot, .pw, .qy, .regs, .running, .sides, .slots, .stk, .sv, .tl] fun b =>
      b.heat.round = s.blk.heat.round + 1
        ∧ (∀ i : Fin 96, b.htCh i = match r.ch.getD i none with
            | some v => (v + (if i.val < 56 ∧ s.blk.ck.xtalOk = false then 32 else 0), true)
            | none => ((s.blk.htCh i).1, false))
        ∧ (∀ l : Fin 17, (reached l (b.layer l).used).val ≤ (b.layer l).step.val)
        ∧ (s.blk.regBit Off.ckCtrl 1 = true → b.ck.corr ≤ s.blk.ck.corr + 16 ∧ s.blk.ck.corr ≤ b.ck.corr + 16)
        ∧ (s.blk.regBit Off.ckCtrl 1 = true → -3200 ≤ s.blk.ck.corr → s.blk.ck.corr ≤ 3200 → -3200 ≤ b.ck.corr ∧ b.ck.corr ≤ 3200)
        ∧ (b.pw.st = .tripped ↔ ∃ l : Fin 17, threshold l 8 ≤ (b.layer l).used)
        ∧ (b.pw.st = .tripped → b.pins.thermTripLow = true ∧ ∀ d : Fin 48, (b.dom d).st = .off ∨ (b.dom d).st = .failed)
        ∧ (b.pw.st ≠ .tripped → ∀ n : Fin 64, (b.chan n).step = b.stepOf n ∨ (b.chan n).stepDue = some (b.stepOf n)) := by
  obtain ⟨round, converted, heeds, corr, still⟩ := s.blk.roundBody_measured r
  refine does_framed (f := (·.watchRound r)) rfl (execWatchRound_kept r ·) (Within.of rfl) ?_
  rw [Block.watchRound_runs runs due]
  generalize s.blk.roundBody r = c at *
  obtain ⟨shown, corr', trips, dark, steps⟩ := Block.tripOrStep_over (still calm)
  generalize c.tripOrStep = d at *
  obtain ⟨count, values⟩ := Prod.mk.inj (Prod.mk.inj shown).1
  refine ⟨count.trans round, fun i => ?_, fun l => ?_, fun on => ?_, fun on => ?_, trips, dark, steps⟩
  · rw [Block.htCh, values, ← Block.htCh, converted, Block.converted]
  · obtain ⟨used, step⟩ := Block.used_of_shown shown l
    exact Layer.heeds_congr used step (heeds l)
  · rw [corr']
    exact (corr on).1
  · rw [corr']
    exact (corr on).2

end

/-- Settles O41: the round's body leaves conversions, layers and correction as they are measured and decided, and its end
trips or decides every channel's step. -/
theorem watchRounds : Obligations.WatchRounds :=
  ⟨fun _ r idle => exec_upd_same (f := (·.watchRound r)) rfl (Block.watchRound_idle idle), fun _ _ => watchRound_runs⟩

end Sys2Proof.Machine
end

section
/-! SUPPORT. Calibration runs, their repeats, and a survey on demand (R414, R420 to R424). -/

namespace Sys2Proof.Machine

open Sys2Proof

/-! ### The units that a mask names -/

theorem mem_maskUnits {mask : BitVec 64} {i : Nat} : i ∈ maskUnits mask ↔ i < 64 ∧ mask.getLsbD i = true := by
  rw [maskUnits, List.mem_filter, List.mem_range]

theorem maskUnits_nodup (mask : BitVec 64) : (maskUnits mask).Nodup := List.nodup_range.filter _

theorem maskUnits_some {mask : BitVec 64} (some_ : mask ≠ 0) : (maskUnits mask).isEmpty = false := by
  rw [Bool.eq_false_iff]
  intro none_
  refine some_ (BitVec.eq_of_getLsbD_eq fun i low => ?_)
  rw [show (0 : BitVec 64).getLsbD i = false from BitVec.getLsbD_zero, Bool.eq_false_iff]
  intro bit
  exact absurd (mem_maskUnits.mpr ⟨low, bit⟩) (by rw [List.isEmpty_iff.mp none_]; exact List.not_mem_nil)

theorem maskUnits_zero : maskUnits 0 = [] := by decide +kernel

theorem maskUnits_chBit (n : Fin 64) : maskUnits (chBit n) = [n.val] := by
  revert n
  decide +kernel

section
variable {b c : Block} {s : State} {m : ManRef} {cls : BitVec 8} {mask : BitVec 64} {u : Fin 64} {fl : Nat}

/-! ### CAL_RUN (R423) -/

theorem exec_calRun_man : exec (.calRun m cls mask) s = s.man m Mop.calRun (·.calRun m cls.toNat mask) := rfl

/-- A run of a class taken into the list. -/
def Block.calListed (b : Block) (m : ManRef) (cls : Nat) (mask : BitVec 64) : Block :=
  { b with sv.cal := b.sv.cal ++ [({ m := m, cls := cls, todo := mask, passed := 0, failed := 0 } : CalRun)] }

/-- A channel's stack calibration of a class asked for. -/
def Block.calAsk (b : Block) (cls n : Nat) : Block := b.modChan n fun x => x.askCal b.ck.tide (b.slotsGone x) (BitVec.ofNat 2 cls)

/-- A lane's calibration asked for: its side asks for a window. -/
def Block.laneAsk (b : Block) (l : Nat) : Block := (b.modLane l fun x => { x with calPending := true }).askWindow (laneSide l)

theorem Block.calRun_stack (b : Block) (m : ManRef) {cls : Nat} (stack : cls = 1 ∨ cls = 2) (free : b.sv.run = none) (some_ : mask ≠ 0)
    (able : (maskUnits mask).all (b.calUnit cls) = true) : b.calRun m cls mask = (b.calListed m cls mask).each (maskUnits mask) fun c n => c.calAsk cls n := by
  unfold Block.calRun
  dsimp only
  rw [if_neg (by omega), if_neg (by simp [free]), if_neg (by omega), if_neg (by simp [able]), if_neg (by simp [maskUnits_some some_]), if_neg (by omega)]
  rfl

theorem Chan.askCal_calDue (x : Chan) (now : Tide) (gone : Nat) (due : BitVec 2) : (x.askCal now gone due).calDue = x.calDue ||| due := by
  unfold Chan.askCal
  split
  case isTrue fresh =>
    rw [fresh.1]
    exact (BitVec.zero_or).symm
  case isFalse => rfl

theorem Block.calAsk_kept (b : Block) (cls n : Nat) : Kept [.chan n] b (b.calAsk cls n) := b.modChan_kept n _

theorem Block.calListed_kept (b : Block) (m : ManRef) (cls : Nat) (mask : BitVec 64) : Kept [.sv] b (b.calListed m cls mask) := Kept.withSv b _

theorem Block.calAsks_due (b : Block) (cls : Nat) {ns : List Nat} (once : ns.Nodup) {n : Nat} (listed : n ∈ ns) :
    ((b.each ns fun c n => c.calAsk cls n).chan n).calDue = (b.chan n).calDue ||| BitVec.ofNat 2 cls := by
  obtain ⟨c, same, last⟩ := Block.each_at (f := fun c n => c.calAsk cls n) (π := fun c => (c.chan n).calDue) once listed (fun c k _ apart => by
    rw [show (c.calAsk cls k).chan n = c.chan n from (c.calAsk_kept cls k).out (.chan n) (by simp [Piece.among, Ne.symm apart])]) b
  rw [last, Block.calAsk, Block.chan_modChan, Chan.askCal_calDue, same]

theorem calRun_asks (mans : s.blk.mans Mop.calRun) (stack : cls = 1 ∨ cls = 2) (free : s.blk.sv.run = none) (some_ : mask ≠ 0)
    (able : (maskUnits mask).all (s.blk.calUnit cls.toNat) = true) :
    Does (.calRun m cls mask) s [.sv, .chans] fun b =>
      b.sv.cal = s.blk.sv.cal ++ [{ m := m, cls := cls.toNat, todo := mask, passed := 0, failed := 0 }]
        ∧ ∀ n : Fin 64, mask.getLsbD n = true → (b.chan n).calDue = (s.blk.chan n).calDue ||| BitVec.ofNat 2 cls.toNat := by
  have stack' : cls.toNat = 1 ∨ cls.toNat = 2 := stack.imp (fun h => by rw [h]; rfl) fun h => by rw [h]; rfl
  have asked (c : Block) : Kept [.chans] c (c.each (maskUnits mask) fun c n => c.calAsk cls.toNat n) :=
    .each _ (fun d n k => Kept.step (d.calAsk_kept cls.toNat n) (Within.single (by simp [Piece.inside])) k) (.refl ..)
  refine does_man exec_calRun_man mans (s.blk.calRun_stack m stack' free some_ able)
    (Kept.step (asked _) (Within.of rfl) ((s.blk.calListed_kept ..).mono (Within.of rfl))) ⟨?_, fun n bit => ?_⟩
  · exact congrArg Survey.cal ((asked _).out .sv (by simp [Piece.among]))
  · exact Block.calAsks_due _ _ (maskUnits_nodup mask) (mem_maskUnits.mpr ⟨n.isLt, bit⟩)

theorem calRun_badParam (mans : s.blk.mans Mop.calRun)
    (bad : 2 < cls.toNat ∨ (cls = 0 ∧ (maskUnits mask).any (fun i => decide (32 ≤ i)) = true)) :
    Does (.calRun m cls mask) s [.slots, .running, .ins] fun b => b.doneWith m 0x0031 0x04 [] :=
  does_answer (d := {}) exec_calRun_man mans (if_pos (bad.imp_right fun h => ⟨by rw [h.1]; rfl, h.2⟩)) (by decide) (by decide) (by decide)

theorem calRun_nothing (mans : s.blk.mans Mop.calRun) (known : cls.toNat ≤ 2) (free : s.blk.sv.run = none) :
    Does (.calRun m cls 0) s [.slots, .running, .ins] fun b => b.doneWith m 0x0031 0x00 (leBytes 0 16) := by
  have made : s.blk.calRun m cls.toNat 0 = s.blk.finish m Mop.calRun St.ok (leBytes 0 16) := by
    unfold Block.calRun
    dsimp only
    rw [maskUnits_zero, if_neg (by simp; omega), if_neg (by simp [free]), if_neg (by simp), if_neg (by simp)]
    exact if_pos rfl
  exact does_answer exec_calRun_man mans made (by decide) (by decide) (by decide)

theorem Block.calRun_lane (b : Block) (m : ManRef) (l : Fin 32) (free : b.sv.run = none) (quiet : b.laneBusy (laneSide l) (some m) = false)
    (able : b.calUnit 0 l = true) : b.calRun m 0 (chBit l) = (b.calListed m 0 (chBit l)).laneAsk l := by
  have one : maskUnits (chBit l) = [l.val] := maskUnits_chBit ⟨l, by omega⟩
  unfold Block.calRun
  dsimp only
  rw [one, if_neg (by simp), if_neg (by simp [free]), if_neg (by simp [quiet]), if_neg (by simp [able]), if_neg (by simp), if_pos rfl]
  rfl

theorem calRun_lane {l : Fin 32} (mans : s.blk.mans Mop.calRun) (free : s.blk.sv.run = none) (quiet : s.blk.laneBusy (laneSide l) (some m) = false)
    (able : s.blk.calUnit 0 l = true) :
    Does (.calRun m 0 (chBit l)) s [.chans, .ins, .lanes, .running, .sides, .slots, .sv] fun b =>
      b.sv.cal = s.blk.sv.cal ++ [{ m := m, cls := 0, todo := chBit l, passed := 0, failed := 0 }] ∧ (b.lane l).calPending = true := by
  have made := s.blk.calRun_lane m l free quiet able
  have kept := s.blk.calRun_kept m 0 (chBit l)
  rw [made] at kept
  have asked (c : Block) : Kept [.side (laneSide l)] (c.modLane l fun x => { x with calPending := true }) (c.laneAsk l) := Block.askWindow_kept ..
  refine does_man exec_calRun_man mans made kept ⟨?_, ?_⟩
  · exact congrArg Survey.cal ((asked _).out .sv (by simp [Piece.among]))
  · rw [show ((s.blk.calListed m 0 (chBit l)).laneAsk l).lane l = _ from (asked _).out (.lane l) (by simp [Piece.among]), Block.lane_modLane_same]

/-! ### CAL_STATUS (R328) -/

theorem exec_calStatus_man {n : BitVec 8} : exec (.calStatus m cls n) s = s.man m Mop.calStatus (·.calStatus m cls.toNat n.toNat) := rfl

theorem calStatus_lane {l : Fin 32} (mans : s.blk.mans Mop.calStatus) :
    Does (.calStatus m 0 (BitVec.ofNat 8 l)) s [.slots, .running, .ins] fun b =>
      b.doneWith m 0x0032 0x00 (leBytes (s.blk.lane l).calCount.toNat 4 ++ leBytes 0 4 ++ leBytes (s.blk.lane l).calTime.toNat 8) := by
  have unit : (BitVec.ofNat 8 l).toNat = l := by rw [BitVec.toNat_ofNat]; omega
  refine does_answer (d := {}) exec_calStatus_man mans ?_ (by decide) (by decide) (by simp [leBytes_length])
  unfold Block.calStatus
  dsimp only
  rw [unit, if_neg (by simp)]
  exact if_pos rfl

theorem calStatus_dram {n : Fin 64} (mans : s.blk.mans Mop.calStatus) :
    Does (.calStatus m 2 (BitVec.ofNat 8 n)) s [.slots, .running, .ins] fun b => b.doneWith m 0x0032 0x00 [if (s.blk.chan n).dramPass then 1 else 0] := by
  have unit : (BitVec.ofNat 8 n).toNat = n := by rw [BitVec.toNat_ofNat]; omega
  refine does_answer (d := {}) exec_calStatus_man mans ?_ (by decide) (by decide) (by simp)
  unfold Block.calStatus
  dsimp only
  rw [unit, if_neg (by simp), if_neg (by decide), if_neg (by decide)]
  cases (s.blk.chan n).dramPass <;> rfl

/-! ### SURVEY_RUN (R414) -/

theorem exec_surveyRun_man {scope mode : BitVec 8} :
    exec (.surveyRun m scope mode mask) s = s.man m Mop.surveyRun (·.surveyRun m scope.toNat mode.toNat mask) := rfl

theorem maskUnits_inside (mask : BitVec 64) : ((maskUnits mask).any fun i => decide (scopeSize 1 ≤ i)) = false := by
  rw [Bool.eq_false_iff]
  intro some_
  obtain ⟨i, listed, high⟩ := List.any_eq_true.mp some_
  have := (mem_maskUnits.mp listed).1
  have : 64 ≤ i := by simpa [scopeSize] using high
  omega

theorem surveyRun_starts (mans : s.blk.mans Mop.surveyRun) (free : s.blk.sv.run = none) (on : s.blk.domOn svDom = true) (ok : s.blk.sv.svOk = true)
    (able : (maskUnits mask).all (s.blk.surveyable 1) = true) :
    Does (.surveyRun m 1 0 mask) s [.sv] fun b => b.sv.run = some { m := m, scope := 1, mask := mask } ∧ b.sv.busy = true ∧ b.sv.kind = 3 := by
  have made : s.blk.surveyRun m 1 0 mask = { s.blk with sv := { s.blk.sv with run := some { m := m, scope := 1, mask := mask }, kind := 3, busy := true } } := by
    unfold Block.surveyRun
    dsimp only
    rw [if_neg (by simp [maskUnits_inside mask]), if_neg (by simp [free]), if_neg (by simp [on, ok, able])]
    rfl
  exact does_man exec_surveyRun_man mans made (Kept.withSv ..) ⟨rfl, rfl, rfl⟩

theorem surveyRun_refused {n : Fin 64} (mans : s.blk.mans Mop.surveyRun) (free : s.blk.sv.run = none) (busy : s.blk.surveyable 1 n = false) :
    Does (.surveyRun m 1 0 (chBit n)) s [.slots, .running, .ins] fun b => b.doneWith m 0x0030 0x02 [] := by
  have made : s.blk.surveyRun m 1 0 (chBit n) = s.blk.finish m Mop.surveyRun St.refused := by
    unfold Block.surveyRun
    dsimp only
    rw [if_neg (by simp [maskUnits_inside]), if_neg (by simp [free]), if_pos (by rw [maskUnits_chBit]; simp [busy])]
  exact does_answer exec_surveyRun_man mans made (by decide) (by decide) (by decide)

end

end Sys2Proof.Machine
end

section
/-! SUPPORT. What a calibration run records as it ends, and what its failures alarm (R420 to R423). -/

namespace Sys2Proof.Machine

open Sys2Proof

section
variable {b c : Block} {s : State} {m : ManRef} {cls : BitVec 8} {mask : BitVec 64} {u : Fin 64} {fl : Nat}

theorem Block.col_modCol (b : Block) (n : Nat) (f : Column → Column) : (b.modCol n f).col n = f (b.col n) := tget_tset_same ..

/-! ### CALIBRATION_DONE (R420 to R423) -/

/-- What a run on a unit can change. -/
abbrev calPieces (u : Fin 64) : List Piece :=
  [.berths, .chans, .chs, .cnt, .col u, .events, .fws, .ins, .lanes, .mf, .pw, .qy, .regs, .running, .sides, .slots, .stk, .sv, .tl]

theorem exec_calibrationDone_upd {k : Fin 3} {p : Bool} : exec (.calibrationDone k u p fl) s = s.upd (·.calibrationDone k u p fl) := rfl

theorem does_calibration {k : Fin 3} {p : Bool} {post : Block → Prop} (h : post (s.blk.calibrationDone k u p fl)) :
    Does (.calibrationDone k u p fl) s (calPieces u) post :=
  does_framed exec_calibrationDone_upd (execCalibrationDone_kept k u p fl ·) (Within.of_subset (List.Subset.refl _)) h

theorem Block.calibrationDone_ends {k n : Nat} {p : Bool} (live : b.live = true) (core : b.coreRuns = true) (may : b.calMay k n = true) :
    b.calibrationDone k n p fl
      = if (p && (k != 1 || decide (fl ≤ flightLimit n))) = true then (b.calSpent k n).calPassed k n fl else (b.calSpent k n).calFailed k n :=
  if_neg (by simp [live, core, may])

theorem Block.calibrationDone_waits {k n : Nat} {p : Bool} (h : b.live = false ∨ b.coreRuns = false ∨ b.calMay k n = false) :
    b.calibrationDone k n p fl = b := if_pos (by rcases h with h | h | h <;> simp [h])

theorem calibrationDone_lane (live : s.blk.live = true) (core : s.blk.coreRuns = true) (may : s.blk.calMay 0 u = true) :
    Does (.calibrationDone 0 u true fl) s (calPieces u) fun b => (b.lane u).calCount = (s.blk.lane u).calCount + 1 ∧ (b.lane u).calTime = s.blk.ck.tide := by
  refine does_calibration ?_
  have lane : (s.blk.calibrationDone 0 u true fl).lane u
      = { s.blk.lane u with calPending := false, calCount := (s.blk.lane u).calCount + 1, calTime := s.blk.ck.tide, calTemp := some (s.blk.laneTemp u) } := by
    rw [Block.calibrationDone_ends live core may]
    exact ((Block.calRunNext_kept ..).out (.lane u) (by simp [Piece.among])).trans (Block.lane_modLane_same ..)
  exact ⟨congrArg Lane.calCount lane, congrArg Lane.calTime lane⟩

/-- The slots of a run are all that it takes of a channel's state. -/
theorem Block.calSpent_chan {β : Type} (π : Chan → β) (same : ∀ (x : Chan) n t log, π { x with slots := n, lastBusy := t, bgLog := log } = π x) (b : Block) (k n : Nat) :
    π ((b.calSpent k n).chan n) = π (b.chan n) := by
  have spent (c : Block) (left : Nat) (t : Tide) : π ((c.modChan n fun x => { x with slots := x.slots + left, lastBusy := t }).chan n) = π (c.chan n) := by
    rw [Block.chan_modChan]
    exact same (c.chan n) ((c.chan n).slots + left) t (c.chan n).bgLog
  have noted (c : Block) (left : Nat) : π ((c.noteBg n .cal left).chan n) = π (c.chan n) := by
    rw [Block.noteBg, Block.chan_modChan]
    exact same (c.chan n) (c.chan n).slots (c.chan n).lastBusy _
  unfold Block.calSpent
  dsimp only
  split
  · rfl
  · split
    · exact spent ..
    · exact (noted ..).trans (spent ..)

theorem Block.endReturn_serving {n : Nat} (h : (b.chan n).returning = false) : b.endReturn n = b := if_neg (by simp [h])

/-- A channel's coil timing noted as passed, with its round trip. -/
def Block.coilTimed (b : Block) (n fl : Nat) : Block :=
  (b.modCol n fun x => { x with flight := fl % 1024 }).modChan n fun x =>
    { x with coilPass := true, calDue := x.calDue &&& 2, coilTemps := b.coilTempsNow n, calSlots := 0, calAt := b.ck.tide
             calMark := b.slotsGone x, calFails := tset (fun _ => 0) x.calFails 1 0 }

/-- A channel's calibration of its DRAM noted as passed. -/
def Block.dramTimed (b : Block) (n : Nat) : Block :=
  b.modChan n fun x =>
    { x with dramPass := true, calDue := x.calDue &&& 1, dramTemp := some (b.layerUsed (1 + dieOf n)), calSlots := 0
             calAt := b.ck.tide, calMark := b.slotsGone x, calFails := tset (fun _ => 0) x.calFails 2 0 }

theorem Block.calPassed_coil (b : Block) (n fl : Nat) : b.calPassed 1 n fl = (((b.coilTimed n fl).stampPass n).endReturn n).calRunNext 1 n true := rfl

theorem Block.calPassed_dram (b : Block) (n fl : Nat) : b.calPassed 2 n fl = (((b.dramTimed n).stampPass n).endReturn n).calRunNext 2 n true := rfl

theorem Block.stampPass_chan (b : Block) (n : Nat) : (b.stampPass n).chan n = b.chan n := (b.stampPass_kept n).out (.chan n) (by simp [Piece.among])

theorem Block.stampPass_flight (b : Block) (n : Nat) : ((b.stampPass n).col n).flight = (b.col n).flight := by
  rw [Block.stampPass, Block.col_modCol]

theorem Block.coilTimed_flight (b : Block) (n fl : Nat) : ((b.coilTimed n fl).col n).flight = fl % 1024 := by
  rw [Block.coilTimed, show (Block.modChan _ n _).col n = _ from (Block.modChan_kept ..).out (.col n) (by simp [Piece.among]), Block.col_modCol]

theorem Block.calPassed_coilServing {n : Nat} (h : (b.chan n).returning = false) :
    b.calPassed 1 n fl = ((b.coilTimed n fl).stampPass n).calRunNext 1 n true := by
  rw [Block.calPassed_coil, Block.endReturn_serving]
  rw [Block.stampPass_chan, Block.coilTimed, Block.chan_modChan]
  exact h

theorem Block.calPassed_dramServing {n : Nat} (h : (b.chan n).returning = false) :
    b.calPassed 2 n fl = ((b.dramTimed n).stampPass n).calRunNext 2 n true := by
  rw [Block.calPassed_dram, Block.endReturn_serving]
  rw [Block.stampPass_chan, Block.dramTimed, Block.chan_modChan]
  exact h

theorem calibrationDone_coil (live : s.blk.live = true) (core : s.blk.coreRuns = true) (may : s.blk.calMay 1 u = true) (fits : fl ≤ flightLimit u)
    (serves : (s.blk.chan u).returning = false) :
    Does (.calibrationDone 1 u true fl) s (calPieces u) fun b =>
      (b.col u).flight = fl % 1024 ∧ (b.chan u).coilPass = true ∧ (b.chan u).coilTemps = s.blk.coilTempsNow u := by
  refine does_calibration ?_
  have ends : s.blk.calibrationDone 1 u true fl = (((s.blk.calSpent 1 u).coilTimed u fl).stampPass u).calRunNext 1 u true := by
    rw [Block.calibrationDone_ends live core may, if_pos (by simp [fits]), Block.calPassed_coilServing]
    rw [Block.calSpent_chan (·.returning) (fun _ _ _ _ => rfl)]
    exact serves
  have temps : (s.blk.calSpent 1 u).coilTempsNow u = s.blk.coilTempsNow u := by
    rw [Block.coilTempsNow, show (s.blk.calSpent 1 u).layerUsed = s.blk.layerUsed from ?_, Block.coilTempsNow]
    funext l
    rw [Block.layerUsed, show (s.blk.calSpent 1 u).heat = s.blk.heat from (s.blk.calSpent_kept 1 u).out .heat (by simp [Piece.among]), Block.layerUsed]
  have col : ((s.blk.calibrationDone 1 u true fl).col u).flight = fl % 1024 := by
    rw [ends, show (Block.calRunNext _ 1 u true).col u = _ from (Block.calRunNext_kept ..).out (.col u) (by simp [Piece.among]), Block.stampPass_flight]
    exact Block.coilTimed_flight ..
  have chan : (s.blk.calibrationDone 1 u true fl).chan u = ((s.blk.calSpent 1 u).coilTimed u fl).chan u := by
    rw [ends, show (Block.calRunNext _ 1 u true).chan u = _ from (Block.calRunNext_kept ..).out (.chan u) (by simp [Piece.among]), Block.stampPass_chan]
  have timed : (s.blk.calibrationDone 1 u true fl).chan u = _ := chan.trans (Block.chan_modChan ..)
  exact ⟨col, congrArg Chan.coilPass timed, (congrArg Chan.coilTemps timed).trans temps⟩

theorem Block.calibrationDone_dram (live : b.live = true) (core : b.coreRuns = true) (may : b.calMay 2 u = true) (serves : (b.chan u).returning = false) :
    b.calibrationDone 2 u true fl = (((b.calSpent 2 u).dramTimed u).stampPass u).calRunNext 2 u true := by
  rw [Block.calibrationDone_ends live core may, if_pos (by simp), Block.calPassed_dramServing]
  rw [Block.calSpent_chan (·.returning) (fun _ _ _ _ => rfl)]
  exact serves

theorem Block.calibrationDone_dramChan (live : b.live = true) (core : b.coreRuns = true) (may : b.calMay 2 u = true) (serves : (b.chan u).returning = false) :
    ((b.calibrationDone 2 u true fl).chan u).dramPass = true ∧ tget (fun _ => 0) ((b.calibrationDone 2 u true fl).chan u).calFails 2 = 0 := by
  have timed : (b.calibrationDone 2 u true fl).chan u = ((b.calSpent 2 u).dramTimed u).chan u := by
    rw [Block.calibrationDone_dram live core may serves, show (Block.calRunNext _ 2 u true).chan u = _ from (Block.calRunNext_kept ..).out (.chan u) (by simp [Piece.among]),
      Block.stampPass_chan]
  rw [timed, Block.dramTimed, Block.chan_modChan]
  exact ⟨rfl, show tget (fun _ => 0) (tset (fun _ => 0) ((b.calSpent 2 u).chan u).calFails 2 0) 2 = 0 from tget_tset_same ..⟩

theorem Block.calRunNext_last {r : CalRun} {k : Nat} (only : b.sv.cal = [r]) (class_ : r.cls = k) (left : r.todo = chBit u) :
    b.calRunNext k u true = ({ b with sv.cal := [] }).finish r.m Mop.calRun St.ok (leBytes (r.passed ||| chBit u).toNat 8 ++ leBytes r.failed.toNat 8) := by
  have found : (b.sv.cal.find? fun r => r.cls == k && r.todo.getLsbD u) = some r := by
    rw [only, List.find?_cons_of_pos (by simp [class_, left, chBit_self u.isLt])]
  have others : (b.sv.cal.filter fun x => x.m != r.m) = [] := by rw [only, List.filter_cons_of_neg (by simp), List.filter_nil]
  unfold Block.calRunNext
  rw [found]
  dsimp only
  rw [others, left, if_pos (show chBit u &&& ~~~chBit u = 0 from BitVec.and_not_self _), if_pos rfl, if_pos rfl]

theorem calibrationDone_dramRun {r : CalRun} (live : s.blk.live = true) (core : s.blk.coreRuns = true) (may : s.blk.calMay 2 u = true)
    (serves : (s.blk.chan u).returning = false) (only : s.blk.sv.cal = [r]) (class_ : r.cls = 2) (left : r.todo = chBit u) :
    Does (.calibrationDone 2 u true fl) s (calPieces u) fun b =>
      (b.chan u).dramPass = true ∧ b.sv.cal = [] ∧ b.doneWith r.m 0x0031 0x00 (leBytes (r.passed ||| chBit u).toNat 8 ++ leBytes r.failed.toNat 8) := by
  have sv : (((s.blk.calSpent 2 u).dramTimed u).stampPass u).sv = s.blk.sv :=
    ((Block.stampPass_kept ..).out .sv (by simp [Piece.among])).trans
      (((Block.modChan_kept ..).out .sv (by simp [Piece.among])).trans ((s.blk.calSpent_kept 2 u).out .sv (by simp [Piece.among])))
  have ends := s.blk.calibrationDone_dram (fl := fl) live core may serves
  rw [Block.calRunNext_last (r := r) (by rw [sv, only]) class_ left] at ends
  have pass := (s.blk.calibrationDone_dramChan (fl := fl) live core may serves).1
  refine does_calibration (k := 2) ⟨pass, ?_⟩
  rw [show s.blk.calibrationDone (2 : Fin 3).val u true fl = _ from ends, Block.finish_sv]
  exact ⟨rfl, Block.finish_doneWith _ _ (by decide) (by decide) (by simp [leBytes_length])⟩

/-! ### CAL_RETRY (R422) -/

theorem exec_calRetry_upd {k : Fin 3} {p : Bool} : exec (.calRetry k u p fl) s
    = s.upd fun b => if k ≠ 0 ∧ tget (fun _ => 0) (b.chan u).calFails k.val ≠ 0 then b.calibrationDone k u p fl else b := rfl

theorem calRetry_dram (live : s.blk.live = true) (core : s.blk.coreRuns = true) (may : s.blk.calMay 2 u = true)
    (serves : (s.blk.chan u).returning = false) (failed : tget (fun _ => 0) (s.blk.chan u).calFails 2 ≠ 0) :
    Does (.calRetry 2 u true fl) s (calPieces u) fun b => tget (fun _ => 0) (b.chan u).calFails 2 = 0 ∧ (b.chan u).dramPass = true := by
  refine does_framed exec_calRetry_upd (execCalRetry_kept 2 u true fl ·) (Within.of_subset (List.Subset.refl _)) ?_
  rw [if_pos ⟨by decide, failed⟩]
  exact (Block.calibrationDone_dramChan live core may serves).symm

/-! ### Fences spare the clocks' and calibration's alarms (R278, R422) -/

theorem btOff_ne_ckAlarm {r : Nat} (n : Nat) (high : 0x100000 ≤ r) : Off.ckAlarm ≠ btOff r n := by
  simp only [btOff, Off.ckAlarm]
  omega

theorem btOff_ne_caAlarm {r : Nat} (n : Nat) (apart : r % 0x1000 ≠ 8) : Off.caAlarm ≠ btOff r n := by
  simp only [btOff, Off.caAlarm]
  omega

theorem Block.setBerthReg_spared (b : Block) {r : Nat} (n : Nat) (v : Word) (high : 0x100000 ≤ r) (apart : r % 0x1000 ≠ 8) :
    b.Spared (b.setReg (btOff r n) v) :=
  (b.setReg_kept ..).spared_of (by simpa [Piece.among] using btOff_ne_ckAlarm n high) (by simpa [Piece.among] using btOff_ne_caAlarm n apart) (by simp [Piece.among])

theorem Block.tally_spared (b : Block) (blk ev : Nat) (fs : List Nat) (n : Nat) : b.Spared (b.tally blk ev fs n) :=
  (b.tally_kept ..).spared_of (by simpa [Piece.among] using tlOff_ne_ckAlarm blk) (by simpa [Piece.among] using tlOff_ne_caAlarm blk) (by simp [Piece.among])

theorem Block.bump_spared (b : Block) (o n : Nat) : b.Spared (b.bump o n) := (b.bump_kept o n).spared rfl

theorem Block.served_spared (b : Block) (r : Req) (p : Part) (poisoned : Bool) : b.Spared (b.served r p poisoned) := by
  have counted : b.Spared (if r.op = .atomic then (b.bump (btOff Off.btPartsLo p.berth)).bump (btOff Off.btAtomicLo p.berth) else b.bump (btOff Off.btPartsLo p.berth)) :=
    .ite ((b.bump_spared ..).trans (Block.bump_spared ..)) (b.bump_spared ..)
  have alarmed (c : Block) : c.Spared (((c.bump (btOff Off.btPoisonedLo p.berth)).orReg (btOff Off.btAlarm p.berth) 4).tally p.berth 0x020 [0] 1) :=
    ((c.bump_spared ..).trans (Block.setBerthReg_spared _ p.berth _ (by decide) (by decide))).trans (Block.tally_spared ..)
  unfold Block.served
  cases r.cls.charter with
  | none => exact (counted.trans (.ite (alarmed _) (.refl _))).trans (.ite (Block.setBerthReg_spared _ _ _ (by decide) (by decide)) (.refl _))
  | some c =>
    refine .trans ?_ ((Block.modCharter_kept ..).spared rfl)
    exact (counted.trans (.ite (alarmed _) (.refl _))).trans (.ite (Block.setBerthReg_spared _ _ _ (by decide) (by decide)) (.refl _))

theorem Block.endReq_spared (b : Block) (r : Req) (level : Nat) (a : Answer) : b.Spared (b.endReq r level a) := (b.endReq_kept ..).spared rfl

theorem Block.checkReq_spared (b : Block) (id : Nat) : b.Spared (b.checkReq id) := by
  unfold Block.checkReq
  split
  case h_1 => exact .refl b
  case h_2 r _ =>
    refine .ite (.ite (.ite ?poisoned (.refl b)) (.ite (.ite (b.endReq_spared ..) (b.endReq_spared ..)) (.refl b)))
      (.ite (.ite ((b.emitCopy_kept r).spared rfl) (b.endReq_spared ..)) (.refl b))
    case poisoned =>
      exact .trans (List.foldlRecOn (motive := b.Spared) _ _ (.refl b) fun c same p _ => same.trans (c.served_spared r p true)) (Block.endReq_spared ..)

theorem Block.fenceReq_spared (b : Block) (age n id : Nat) : b.Spared (b.fenceReq age n id) := by
  unfold Block.fenceReq
  split
  case h_1 => exact .refl b
  case h_2 r _ =>
    refine .ite (.ite (.refl b) ?unwritten) (.ite (b.endReq_spared ..) (.refl b))
    case unwritten => exact .trans (.trans ((b.modBerth_kept n _).spared rfl) ((Block.modReq_kept ..).spared rfl)) (Block.checkReq_spared _ id)

theorem Block.fenceReqs_spared (b : Block) (age n : Nat) (ids : List Nat) : b.Spared (b.each ids fun b id => b.fenceReq age n id) :=
  .each (fun c id => c.fenceReq_spared age n id) ..

theorem Block.enterFenced_spared (b : Block) (n : Nat) : b.Spared (b.enterFenced n) :=
  ((b.modBerth_kept n _).spared rfl).trans (Block.setBerthReg_spared _ n _ (by decide) (by decide))

theorem Block.fenceBit_spared (b : Block) (n : Nat) : b.Spared (b.fenceBit n) := ⟨rfl, rfl, fun _ => rfl⟩

theorem Block.fenceServing_spared (b : Block) (age n : Nat) :
    b.Spared (((b.modChan n Chan.quiet).each ((b.modChan n Chan.quiet).qy.reqs.map (·.id)) fun b id => b.fenceReq age n id).charterBerthLost n) :=
  .trans (.trans ((b.modChan_kept n _).spared rfl) (Block.fenceReqs_spared ..)) ((Block.charterBerthLost_kept ..).spared rfl)

theorem Block.fenceChan_spared (b : Block) (age n : Nat) : b.Spared (b.fenceChan age n) := by
  have noted := b.fenceBit_spared n
  unfold Block.fenceChan
  dsimp only
  split
  case h_4 => exact noted.trans (Block.fenceReqs_spared ..)
  case h_5 => exact noted.trans (((b.fenceBit n).modBerth_kept n _).spared rfl)
  all_goals exact (noted.trans (Block.enterFenced_spared _ n)).trans (Block.fenceServing_spared ..)

theorem Block.fenceAll_spared (b : Block) (age : Nat → Nat) (ns : List Nat) : b.Spared (b.fenceAll age ns) :=
  .trans (.trans (.each (fun c n => c.fenceChan_spared (age n) n) ..) ((Block.settle_kept _).spared rfl)) (Block.checkOpen_spared _)

/-! ### A third failure of coil timing (R422) -/

/-- A failed run of coil timing noted. -/
def Block.coilFailed (b : Block) (n fails : Nat) : Block :=
  ((b.orReg Off.caAlarm 2).modChan n fun x =>
    { x with calFails := tset (fun _ => 0) x.calFails 1 fails, calSlots := 0, calAt := b.ck.tide, calMark := b.slotsGone x
             coilPass := false, dramPass := x.dramPass }).stampPass n

/-- What the third failure alarms. -/
def Block.coilAlarm (b : Block) (n : Nat) : Block := (b.orReg Off.caAlarm 8).event .calFail n

theorem Block.calFailed_third {n : Nat} (third : 2 ≤ tget (fun _ => 0) (b.chan n).calFails 1) :
    b.calFailed 1 n = (((((b.coilFailed n (tget (fun _ => 0) (b.chan n).calFails 1 + 1)).calRunNext 1 n false).coilAlarm n).fenceRunning [n]).modChan n
      fun x => { x with calDue := 0, returning := false }) := if_pos (Nat.succ_le_succ third)

theorem Block.coilAlarm_bit (b : Block) (n : Nat) : (b.coilAlarm n).regBit Off.caAlarm 3 = true :=
  Block.regBit_of_reg (Block.event_spared ..).caAlarm (by rw [Block.regBit_orReg]; exact Bool.or_true _)

theorem calibrationDone_third {p : Bool} (live : s.blk.live = true) (core : s.blk.coreRuns = true) (may : s.blk.calMay 1 u = true)
    (fails : p = false ∨ flightLimit u < fl) (third : 2 ≤ tget (fun _ => 0) (s.blk.chan u).calFails 1) :
    Does (.calibrationDone 1 u p fl) s (calPieces u) fun b => b.regBit Off.caAlarm 3 = true ∧ b.stk.fence.getLsbD u = true := by
  refine does_calibration (k := 1) ?_
  have bad : ¬ (p && ((1 : Nat) != 1 || Decidable.decide (fl ≤ flightLimit u))) = true := by
    rcases fails with bad | long <;> simp [*]
  have ends := s.blk.calibrationDone_ends (fl := fl) (p := p) live core may
  rw [if_neg bad, Block.calFailed_third (by rw [Block.calSpent_chan (·.calFails) (fun _ _ _ _ => rfl)]; exact third)] at ends
  rw [show s.blk.calibrationDone (1 : Fin 3).val u p fl = _ from ends]
  generalize (Block.calRunNext _ 1 u false) = c
  have kept := Block.modChan_kept ((c.coilAlarm u).fenceRunning [u.val]) u fun x => { x with calDue := 0, returning := false }
  refine ⟨Block.regBit_of_reg (kept.out (.reg Off.caAlarm) (by simp [Piece.among])) (Block.regBit_of_reg (Block.fenceAll_spared ..).caAlarm (c.coilAlarm_bit u)), ?_⟩
  have stk : _ = ((c.coilAlarm u).fenceRunning [u.val]).stk := kept.out .stk (by simp [Piece.among])
  exact (congrArg (·.fence.getLsbD u) stk).trans (Block.fenceAll_fences _ _ List.mem_cons_self u.isLt)

end

end Sys2Proof.Machine
end

section
/-! SUPPORT. A survey on request as it ends (R407, R414). -/

namespace Sys2Proof.Machine

open Sys2Proof

section
variable {b c : Block} {s : State} {r : SurveyRun} {f : SurveyFindings}

/-! ### SURVEY_RUN_DONE (R414) -/

theorem exec_surveyRunDone_upd : exec (.surveyRunDone f) s = s.upd (·.surveyRunDone f) := rfl

theorem surveyRunDone_waits (h : s.blk.sv.run = none ∨ s.blk.hmRuns = false ∨ s.blk.coreRuns = false) : exec (.surveyRunDone f) s = .next s := by
  refine exec_upd_same exec_surveyRunDone_upd ?_
  rw [Block.surveyRunDone]
  cases run : s.blk.sv.run with
  | none => rfl
  | some r =>
    refine if_pos ?_
    rcases h with none_ | h | h
    · rw [run] at none_
      exact absurd none_ (Option.some_ne_none r)
    · simp [h]
    · simp [h]

/-- The units of a survey on request that fail it. -/
def Block.failing (b : Block) (f : SurveyFindings) (r : SurveyRun) : List Nat := (maskUnits r.mask).filter fun i => b.unitFailed f r.scope.toNat i

/-- The units of a survey on request that pass it. -/
def Block.passing (b : Block) (f : SurveyFindings) (r : SurveyRun) : List Nat := (maskUnits r.mask).filter fun i => !b.unitFailed f r.scope.toNat i

/-- The pier once a survey on request has tested its units. -/
def Block.unitsTested (b : Block) (f : SurveyFindings) (r : SurveyRun) : Block :=
  (b.each (maskUnits r.mask) fun b i => b.liftMark r.scope.toNat i).applyFindings f fun n => Decidable.decide (r.scope.toNat = 1) && r.mask.getLsbD n

/-- The units that pass emptied of contents, and put into service. -/
def Block.unitsServe (b : Block) (f : SurveyFindings) (sc : Nat) (good : List Nat) : Block :=
  (b.each good fun b i => b.modBerth i fun x => if sc = 1 then { x with fillDone := false } else x).each good fun b i => b.unitPasses f sc i

/-- No survey on request under way. -/
def Block.runOver (c : Block) : Block := { c with sv := { c.sv with run := none, busy := false } }

theorem Block.runOver_facts (c : Block) :
    c.runOver.sv.run = none ∧ c.runOver.sv.busy = false ∧ (∀ l, c.runOver.lane l = c.lane l) ∧ ∀ d, c.runOver.dom d = c.dom d :=
  ⟨rfl, rfl, fun _ => rfl, fun _ => rfl⟩

theorem Block.surveyEnds_finish (b : Block) (r : SurveyRun) (f : SurveyFindings) : ∃ bytes, bytes.length ≤ 960
    ∧ b.surveyEnds r f = ((b.unitsTested f r).unitsServe f r.scope.toNat ((b.unitsTested f r).passing f r)).runOver.finish r.m Mop.surveyRun St.ok bytes :=
  ⟨_, by simp [leBytes_length], rfl⟩

theorem Block.surveyNoEngine_finish (b : Block) (r : SurveyRun) (f : SurveyFindings) :
    ∃ c : Block, b.surveyNoEngine r f = c.runOver.finish r.m Mop.surveyRun St.refused :=
  ⟨{ b.svCheck false with sv := { (b.svCheck false).sv with runMs := BitVec.ofNat 32 f.runMs } }, rfl⟩

theorem Block.surveyRunDone_ends (run : b.sv.run = some r) (hm : b.hmRuns = true) (core : b.coreRuns = true) :
    b.surveyRunDone f = if f.svOk then b.surveyEnds r (SurveyFindings.named f r.scope.toNat r.mask b.domOn) else b.surveyNoEngine r f := by
  rw [Block.surveyRunDone, run]
  exact if_neg (by simp [hm, core])

/-! ### A lane that passes (R407, R414) -/

theorem named_laneFail {l : Fin 32} (sound : f.laneFail.getLsbD l = false) (on : Nat → Bool) : (SurveyFindings.named f 0 (chBit l) on).laneFail = 0 := by
  refine BitVec.eq_of_getLsbD_eq fun i low => ?_
  rw [show (SurveyFindings.named f 0 (chBit l) on).laneFail = f.laneFail &&& (chBit l).setWidth 32 from rfl, BitVec.getLsbD_and, BitVec.getLsbD_setWidth,
    show (0 : BitVec 32).getLsbD i = false from BitVec.getLsbD_zero, Bool.eq_false_iff]
  intro both
  simp only [Bool.and_eq_true] at both
  obtain ⟨fails, -, named⟩ := both
  rw [chBit_getLsbD (by omega), decide_eq_true_iff] at named
  rw [named, sound] at fails
  exact absurd fails Bool.false_ne_true

theorem named_domFail {l : Fin 32} (sound : f.domFail.getLsbD (quadDom l) = false) (on : Nat → Bool) : (SurveyFindings.named f 0 (chBit l) on).domFail = 0 := by
  refine List.foldlRecOn (motive := fun v : BitVec 48 => v = 0) _ _ rfl fun v none_ d _ => ?_
  rw [if_neg, none_]
  intro both
  simp only [Bool.and_eq_true, List.any_eq_true, beq_iff_eq] at both
  obtain ⟨fails, -, k, listed, quad, named⟩ := both
  rw [chBit_getLsbD (Nat.lt_trans (List.mem_range.mp listed) (by decide)), decide_eq_true_iff] at named
  rw [← quad, named, sound] at fails
  exact absurd fails Bool.false_ne_true

theorem Block.leaveService_spared (b : Block) (n : Nat) : b.Spared (b.leaveService n) :=
  .ite ((((b.enterFenced_spared n).trans ((Block.charterBerthLost_kept ..).spared rfl)).trans ((Block.settle_kept _).spared rfl)).trans (Block.checkOpen_spared _)) (.refl b)

/-- What a survey finds beside lanes leaves the lanes' marks. -/
theorem Block.markDomain_unusable (b : Block) (d l : Nat) : ((b.markDomain d).lane l).unusable = (b.lane l).unusable := by
  have served : b.Spared (if 16 ≤ d then b.bgFails d else b) := .ite (.each Block.leaveService_spared ..) (.refl b)
  exact (((served.trans ((Block.modDom_kept ..).spared rfl)).trans ((Block.showDomain_kept ..).spared rfl)).trans (Block.event_spared ..)).unusable l

theorem Block.markChannel_unusable (b : Block) (n : Nat) (fence : Bool) (l : Nat) : ((b.markChannel n fence).lane l).unusable = (b.lane l).unusable := by
  have left : b.Spared (if fence then b.fenceRunning [n] else b.leaveService n) := .ite (b.fenceAll_spared ..) (b.leaveService_spared n)
  exact (((left.trans ((Block.modBerth_kept ..).spared rfl)).trans ((Kept.withSv _ _).spared rfl)).trans (Block.event_spared ..)).unusable l

/-- Findings in which no lane fails mark none. -/
theorem Block.applyFindings_unusable (b : Block) (lanes : f.laneFail = 0) (tested : Nat → Bool) (l : Nat) :
    ((b.applyFindings f tested).lane l).unusable = (b.lane l).unusable := by
  have h : Finding fun b c : Block => (c.lane l).unusable = (b.lane l).unusable :=
    ⟨fun _ _ _ j k => k.trans j, fun b c same => congrArg Lane.unusable (same.out (.lane l) (by simp [Piece.among])), fun _ _ _ => rfl⟩
  refine h.applyFindings (fun c => h.svCheck (fun _ e => e.markDomain_unusable _ l) (fun e => ?_) (fun e => ?_) c) (fun c k fails => ?_)
    (fun c d _ => c.markDomain_unusable d l) (fun c n fence => c.markChannel_unusable n fence l) tested b
  · exact congrArg Lane.unusable ((e.passDomain_kept svDom).out (.lane l) (by simp [Piece.among]))
  · exact congrArg Lane.unusable ((e.powerUp_kept svDom).out (.lane l) (by simp [Piece.among]))
  · rw [lanes, show (0 : BitVec 32).getLsbD k = false from BitVec.getLsbD_zero] at fails
    exact absurd fails Bool.false_ne_true

/-- A lane's own mark lifted. -/
def Block.laneLifted (b : Block) (l : Nat) : Block :=
  { b.modLane l fun x => { x with unusable := false } with sv := { b.sv with failLane := b.sv.failLane &&& ~~~ BitVec.ofNat 32 (2 ^ l) } }

theorem Block.liftMark_lane (b : Block) (l : Nat) : b.liftMark 0 l = (b.laneLifted l).passDomain (quadDom l) := rfl

theorem Block.laneLifted_dom (b : Block) (l d : Nat) : (b.laneLifted l).dom d = b.dom d := rfl

theorem Block.liftMark_unusable (b : Block) (l : Nat) : ((b.liftMark 0 l).lane l).unusable = false := by
  rw [Block.liftMark_lane, show (Block.passDomain _ (quadDom l)).lane l = _ from (Block.passDomain_kept ..).out (.lane l) (by simp [Piece.among])]
  exact congrArg Lane.unusable (Block.lane_modLane_same (b := b) (l := l) (f := fun x => { x with unusable := false }))

theorem Block.passDomain_dom (b : Block) (d : Nat) (failed : (b.dom d).st = .failed) : ((b.passDomain d).dom d).st = .off := by
  rw [Block.passDomain, if_pos failed]
  exact congrArg Dom.st ((Block.dom_modDom b d d fun x => { x with st := .off }).trans (if_pos rfl))

theorem quadDom_ne_ckDom (l : Fin 32) : quadDom l ≠ ckDom (laneSide l) := by
  revert l
  decide

/-- One lane that its survey passes, put into service (R414). -/
def Block.laneServes (b : Block) (l : Nat) : Block :=
  let b := b.setReg (lnOff Off.lnCtrl l) (b.reg (lnOff Off.lnCtrl l) ||| 1)
  if b.domOn (ckDom (laneSide l)) then b.powerUp (quadDom l) else b

theorem Block.unitsServe_lane (b : Block) (f : SurveyFindings) (l : Nat) : b.unitsServe f 0 [l] = (b.modBerth l fun x => x).laneServes l := rfl

theorem Block.laneServes_kept (b : Block) (l : Nat) : Kept [.reg (lnOff Off.lnCtrl l), .dom (quadDom l)] b (b.laneServes l) := by
  have enabled : Kept [.reg (lnOff Off.lnCtrl l), .dom (quadDom l)] b (b.setReg (lnOff Off.lnCtrl l) (b.reg (lnOff Off.lnCtrl l) ||| 1)) :=
    (b.setReg_kept ..).mono (Within.of_subset (by simp))
  unfold Block.laneServes
  dsimp only
  split
  · exact Kept.step (Block.powerUp_kept ..) (Within.of_subset (by simp)) enabled
  · exact enabled

theorem Block.laneServes_powers (b : Block) (l : Nat) (on : b.domOn (ckDom (laneSide l)) = true) (off : (b.dom (quadDom l)).st = .off) :
    ((b.laneServes l).dom (quadDom l)).st = .powering := by
  rw [show b.laneServes l = Block.powerUp _ _ from if_pos on]
  exact Block.powerUp_dom off

/-- A lane that its survey passes stands tested: unmarked, and its quad no longer FAILED. -/
theorem Block.unitsTested_lane {l : Fin 32} (scope : r.scope = 0) (mask : r.mask = chBit l) (ok : f.svOk = true) (domains : f.domFail = 0) (lanes : f.laneFail = 0) :
    ((b.unitsTested f r).lane l).unusable = false
      ∧ (∀ d, d < 16 → svDom ≠ d → d ≠ quadDom l → ((b.unitsTested f r).dom d).st = (b.dom d).st)
      ∧ ((b.dom (quadDom l)).st = .failed → ((b.unitsTested f r).dom (quadDom l)).st = .off) := by
  have lifted : (b.each (maskUnits r.mask) fun b i => b.liftMark r.scope.toNat i) = b.liftMark 0 l := by
    rw [mask, maskUnits_chBit ⟨l, by omega⟩, scope]
    rfl
  have quad : quadDom l < 8 := by unfold quadDom; omega
  rw [Block.unitsTested, lifted]
  refine ⟨(Block.applyFindings_unusable _ lanes _ l).trans (b.liftMark_unusable l), fun d low other apart => ?_, fun failed => ?_⟩
  · rw [Block.applyFindings_dom _ ok domains low other, Block.liftMark_lane,
      show (Block.passDomain _ (quadDom l)).dom d = _ from (Block.passDomain_kept ..).out (.dom d) (by simpa [Piece.among] using apart), Block.laneLifted_dom]
  · rw [Block.applyFindings_dom _ ok domains (by omega) (by unfold svDom; omega), Block.liftMark_lane, Block.passDomain_dom]
    rw [Block.laneLifted_dom, failed]

theorem Block.unitsServe_passes {l : Fin 32} (scope : r.scope = 0) (mask : r.mask = chBit l) (ok : f.svOk = true) (domains : f.domFail = 0) (lanes : f.laneFail = 0) :
    (b.unitsTested f r).unitsServe f r.scope.toNat ((b.unitsTested f r).passing f r) = ((b.unitsTested f r).modBerth l fun x => x).laneServes l := by
  have unmarked := (Block.unitsTested_lane (b := b) scope mask ok domains lanes).1
  have passes : (b.unitsTested f r).unitFailed f 0 l = false := by
    rw [Block.unitFailed, unmarked, domains, show (0 : BitVec 48).getLsbD (quadDom l) = false from BitVec.getLsbD_zero]
    rfl
  have good : (b.unitsTested f r).passing f r = [l.val] := by
    rw [Block.passing, mask, maskUnits_chBit ⟨l, by omega⟩, scope]
    exact List.filter_cons_of_pos (by rw [show (0 : BitVec 8).toNat = 0 from rfl, passes]; rfl)
  rw [good, scope]
  exact Block.unitsServe_lane ..

theorem Block.surveyEnds_lane {l : Fin 32} (scope : r.scope = 0) (mask : r.mask = chBit l) (ok : f.svOk = true) (domains : f.domFail = 0) (lanes : f.laneFail = 0) :
    ((b.surveyEnds r f).lane l).unusable = false ∧ (b.domOn (ckDom (laneSide l)) = true → (b.dom (quadDom l)).st = .failed →
      ((b.surveyEnds r f).dom (quadDom l)).st = .powering) := by
  obtain ⟨bytes, -, ends⟩ := b.surveyEnds_finish r f
  obtain ⟨unmarked, beside, lifted⟩ := Block.unitsTested_lane (b := b) scope mask ok domains lanes
  have done := Block.finish_kept ((b.unitsTested f r).unitsServe f r.scope.toNat ((b.unitsTested f r).passing f r)).runOver r.m Mop.surveyRun St.ok bytes {}
  rw [← ends, Block.unitsServe_passes scope mask ok domains lanes] at done
  generalize b.unitsTested f r = c at *
  obtain ⟨-, -, overLane, overDom⟩ := ((c.modBerth l fun x => x).laneServes l).runOver_facts
  have emptied (d : Nat) : (c.modBerth l fun x => x).dom d = c.dom d := rfl
  rw [show (b.surveyEnds r f).lane l = _ from done.out (.lane l) (by simp [Piece.among]), overLane,
    show (b.surveyEnds r f).dom (quadDom l) = _ from done.out (.dom (quadDom l)) (by simp [Piece.among]), overDom,
    show (Block.laneServes _ l.val).lane l = _ from (Block.laneServes_kept ..).out (.lane l) (by simp [Piece.among])]
  refine ⟨unmarked, fun on failed => Block.laneServes_powers _ _ ?_ (lifted failed)⟩
  have ck : ckDom (laneSide l) < 16 ∧ svDom ≠ ckDom (laneSide l) := by cases laneSide l <;> decide
  rw [Block.domOn, emptied, beside _ ck.1 ck.2 (quadDom_ne_ckDom l).symm]
  exact on

theorem surveyRunDone_ends (run : s.blk.sv.run = some r) (hm : s.blk.hmRuns = true) (core : s.blk.coreRuns = true) :
    Does (.surveyRunDone f) s [.berths, .chans, .chs, .cnt, .cols, .doms, .events, .fws, .ins, .lanes, .mf, .pw, .qy, .regs, .running, .sides, .slots, .stk, .sv, .tl]
      fun b => b.sv.run = none ∧ b.sv.busy = false ∧ (b.slot (slotKey r.m.ring r.m.seq)).st = .done
        ∧ (b.slot (slotKey r.m.ring r.m.seq)).status = (if f.svOk then 0 else 2)
        ∧ ∀ l : Fin 32, f.svOk = true → r.scope = 0 → r.mask = chBit l → f.laneFail.getLsbD l = false → f.domFail.getLsbD (quadDom l) = false →
            (b.lane l).unusable = false ∧ (s.blk.domOn (ckDom (laneSide l)) = true → (s.blk.dom (quadDom l)).st = .failed → (b.dom (quadDom l)).st = .powering) := by
  refine does_framed exec_surveyRunDone_upd (execSurveyRunDone_kept f ·) (Within.of_subset (List.Subset.refl _)) ?_
  rw [Block.surveyRunDone_ends run hm core]
  cases ok : f.svOk with
  | true =>
    rw [if_pos rfl, if_pos rfl]
    obtain ⟨bytes, short, ends⟩ := s.blk.surveyEnds_finish r (SurveyFindings.named f r.scope.toNat r.mask s.blk.domOn)
    obtain ⟨over_, idle, -, -⟩ := Block.runOver_facts (Block.unitsServe _ _ _ _)
    obtain ⟨st, -, -, status, -⟩ := Block.finish_doneWith (Block.runOver _) (m := r.m) {} (show Mop.surveyRun < 65536 by decide) (show St.ok < 256 by decide) short
    refine ⟨?_, ?_, ?_, ?_, fun l _ scope mask lane quad => ?_⟩
    · rw [ends, Block.finish_sv]; exact over_
    · rw [ends, Block.finish_sv]; exact idle
    · rw [ends]; exact st
    · rw [ends]; exact BitVec.eq_of_toNat_eq status
    · refine Block.surveyEnds_lane scope mask ok ?_ ?_
      · rw [scope, mask]; exact named_domFail quad _
      · rw [scope, mask]; exact named_laneFail lane _
  | false =>
    rw [if_neg Bool.false_ne_true, if_neg Bool.false_ne_true]
    obtain ⟨c, ends⟩ := s.blk.surveyNoEngine_finish r f
    obtain ⟨over_, idle, -, -⟩ := c.runOver_facts
    obtain ⟨st, -, -, status, -⟩ := Block.finish_doneWith c.runOver (m := r.m) (r := []) {} (show Mop.surveyRun < 65536 by decide) (show St.refused < 256 by decide) (by decide)
    rw [ends, Block.finish_sv]
    exact ⟨over_, idle, st, BitVec.eq_of_toNat_eq status, fun _ bad => absurd bad Bool.false_ne_true⟩

end

/-- Settles O45: each manifest's work and each event is one branch of its definition; a run that ends writes its record and
then only completes the CAL_RUN, and the findings of a survey on request mark nothing but what they name. -/
theorem calibrationAndSurveyRuns : Obligations.CalibrationAndSurveyRuns :=
  ⟨fun _ _ _ _ mans stack free some_ able => calRun_asks mans stack free some_ able,
    fun _ _ _ _ mans bad => calRun_badParam mans bad,
    fun _ _ _ mans known free => calRun_nothing mans known free,
    fun _ _ _ live core may => calibrationDone_lane live core may,
    fun _ _ _ live core may fits serves => calibrationDone_coil live core may fits serves,
    fun _ _ _ _ _ waits => exec_upd_same exec_calibrationDone_upd (Block.calibrationDone_waits waits),
    fun _ _ _ _ live core may serves only class_ left => calibrationDone_dramRun live core may serves only class_ left,
    fun _ _ _ _ live core may fails third => calibrationDone_third live core may fails third,
    fun _ _ _ _ => exec_upd_same exec_calRetry_upd (if_neg fun h => h.1 rfl),
    fun _ _ _ live core may serves failed => calRetry_dram live core may serves failed,
    fun _ _ _ mans => calStatus_lane mans,
    fun _ _ _ mans => calStatus_dram mans,
    fun _ _ _ mans free on ok able => surveyRun_starts mans free on ok able,
    fun _ _ _ mans free busy => surveyRun_refused mans free busy,
    fun _ _ _ mans free quiet able => calRun_lane mans free quiet able,
    fun _ _ waits => surveyRunDone_waits waits,
    fun _ _ _ run hm core => surveyRunDone_ends run hm core⟩

end Sys2Proof.Machine
end
